-- ==== Sys2Proof/Word.lean ====
section
/-! DEFINITION. The word and byte types of the model (R3: every register is 32 bits wide, bit 31 most significant). -/

namespace Sys2Proof

/-- A byte of a frame, of host memory or of MRAM. -/
abbrev Byte := BitVec 8

/-- A register word (R3). -/
abbrev Word := BitVec 32

end Sys2Proof
end

