-- ==== Sys2Proof/Syntax.lean ====
section
/-! DEFINITION. The commands of the block: one constructor of `Instr` per row of spec/opcode_table.json, in its order.
A row's operands are what its sender or the outside world supplies: a party and a written word, a received frame, a
measured fact. -/

namespace Sys2Proof

/-- The party an access comes from: PF0 (the operator), PF1, or the side port (R109, R150). -/
inductive Party | pf0 | pf1 | side
deriving DecidableEq, Repr

/-- The kinds of descriptor ring (R74). -/
inductive RingKind | rx | tx | cmd | evt | rdo
deriving DecidableEq, Repr

/-- The straps sampled at WAKE (R46). -/
structure Straps where
  bootSel : Nat
  partySel : Nat
  sideAddr : Nat
deriving DecidableEq, Repr

/-- The MRAM records that carry a CRC of their own (R541): the latest fault record, the health map, the calibration cache, its entry of
one quad, an image slot. -/
inductive MramRec | fault | health | cache | cacheQuad (q : Nat) | image (slot : Nat)
deriving DecidableEq, Repr

/-- The instructions of the JTAG port (R157). -/
inductive Jtag | bypass | sample | extest | intScan | debug | zeroiseAll
deriving DecidableEq, Repr

/-- How a transaction of the side port is framed (R153): the 7-bit address, on SMBus the PEC byte, and the dynamic address
that SETDASA or ENTDAA gave the device just before it, where one of them came. An access without a frame
stands for one that is addressed to the device at its static or dynamic address with a right PEC. -/
structure SideFrame where
  addr : Nat
  pec : Option Nat
  assign : Option Nat := none
deriving DecidableEq, Repr

/-- A 32-bit write as it reaches the device: party, BAR, byte offset, value. -/
structure RegWrite where
  party : Party
  bar : Nat
  off : Nat
  val : Word
  frame : Option SideFrame := none
deriving DecidableEq, Repr

/-- A 32-bit read as it reaches the device: party, BAR, byte offset. -/
structure RegRead where
  party : Party
  bar : Nat
  off : Nat
  frame : Option SideFrame := none
deriving DecidableEq, Repr

/-- An access of a wrong width or alignment (R4, R73). -/
structure BadAccess where
  party : Party
  bar : Nat
  off : Nat
  write : Bool
  byteEnables : Nat
deriving DecidableEq, Repr

/-- The five temperature sensors in 1/16 °C: die, then the four HBM stacks (R550). -/
structure Temps where
  die : Int
  hbm0 : Int
  hbm1 : Int
  hbm2 : Int
  hbm3 : Int
deriving DecidableEq, Repr

/-- What the end of WAKE finds outside the model: how long WAKE took, the powered time since the cache was made, whether
MRAM could be read, and how many of its words were corrected. -/
structure WakeFacts where
  elapsedMs : Nat
  poweredSec : Nat
  mramOk : Bool
  mramCorr : Nat := 0
deriving DecidableEq, Repr

/-- Where a table command was taken from: slot FETCH of a command ring (R97), the table command register (R337), or a
COMMANDS section of an image (R132). -/
inductive CmdVia | ring (c : Nat) | tcmd | image
deriving DecidableEq, Repr

/-- The data buffer of a LONG command (R97): its address and length, whether the DMA succeeds, and what the host has
written to its memory. -/
structure LongBuf where
  addr : Nat
  bytes : Nat
  dmaOk : Bool
  host : List (Nat × Byte)
deriving DecidableEq, Repr

/-- A command descriptor (R97) less its opcode and target, which the row names: TAG, BODY (20 bytes, or 8 with a data
buffer) and the data buffer. -/
structure Cmd where
  via : CmdVia
  tag : Nat
  body : List Byte
  long : Option LongBuf
deriving DecidableEq, Repr

/-- An ordered set as it arrives (R177): for each physical lane of the quad that carries a copy, the data symbols after its
second symbol, the CRC-8 last. -/
structure OrdSet where
  copies : List (Nat × List Byte)
deriving DecidableEq, Repr

/-- A DSK ordered set (R177, R190): its copies, the physical lanes of the quad whose copy lies out of column, and whether the
receiver has deskewed its lanes. -/
structure Dsk where
  set : OrdSet
  skewed : List Nat
  deskewed : Bool
deriving DecidableEq, Repr

/-- A time-transfer mark (R177, R185): its copies, and the master time at which its timing point crosses the lane ball. -/
structure Ttm where
  set : OrdSet
  stamp : Nat
deriving DecidableEq, Repr

/-- What the receiver of a Tsuip lane has seen since it last told (R173, R179, R190): the physical lane of the quad, the ten-bit code
groups it has received, before RX_INV, the DSK markers in a row that were missing or out of column, the symbols by which the partner's
clock has run ahead of its own (behind: negative), and the SKP sets received. -/
structure LaneSeen where
  lane : Nat
  groups : List Nat
  missed : Nat
  drift : Int := 0
  skips : Nat := 0
deriving DecidableEq, Repr

/-- A reception at a MAC (R201 to R205): its bytes from the destination address through the FCS, the master time of its
SFD at the medium boundary, the PCS's error marks, the mPackets it came in and, on a Tsuip port, its header symbol; the errors
that each physical lane of the quad counted in it beside those of its code groups, the ten-bit code groups, before RX_INV, in which each
lane carried it where the mode codes 8b/10b, and the RS-FEC codewords corrected and not corrected (R173, R193). -/
structure RxFrame where
  bytes : List Byte
  sfd : Nat
  align : Bool
  coding : Bool
  assembly : Bool
  fragments : Nat
  cls : Nat
  laneErrors : List (Nat × Nat) := []
  groups : List (Nat × List Nat) := []
  fecCorr : Nat := 0
  fecUncorr : Nat := 0
deriving DecidableEq, Repr

/-- The commands, in the order of spec/opcode_table.json; each comment gives the row's rule. -/
inductive Instr
  /-- POWER_ON_DETECT (R540) -/
  | powerOnDetect (rail uv : Nat)
  /-- RESET_N_LOW (R45) -/
  | resetNLow (ns : Nat)
  /-- RESET_N_HIGH (R46) -/
  | resetNHigh (st : Straps)
  /-- FULL_RESET (R65) -/
  | fullReset (w : Word)
  /-- FULL_RESET_TIMEOUT (R45) -/
  | fullResetTimeout (st : Straps)
  /-- REFCLK_00_MEASURE (R160) -/
  | refclk00Measure (ppm125 ppm156 : Option Int)
  /-- WARMING_COMPLETE (R48) -/
  | warmingComplete (t : Temps)
  /-- WARM_TIMEOUT (R48) -/
  | warmTimeout (mramOk : Bool)
  /-- WAKE_COMPLETE (R45) -/
  | wakeComplete (f : WakeFacts)
  /-- GO_RUN (R52) -/
  | goRun
  /-- RUN_TIME (R53) -/
  | runTime
  /-- DRAIN_TO_STAGE (R54) -/
  | drainToStage
  /-- DRAIN_TO_PARK (R59) -/
  | drainToPark (force : Bool)
  /-- DRAIN_TIME (R55) -/
  | drainTime
  /-- DRAIN_COMPLETE (R56) -/
  | drainComplete (mramOk : Bool)
  /-- PARK_BATCH_START (R516) -/
  | parkBatchStart (figure power : Nat)
  /-- PARK_WAVE_COMPLETE (R515) -/
  | parkWaveComplete (ms peakW blocks : Nat) (fails : List (Nat × Nat))
  /-- FATAL_FAULT (R61) -/
  | fatalFault (code island : Nat) (detail : List Nat)
  /-- MGMT_WATCHDOG (R60) -/
  | mgmtWatchdog
  /-- FAULT_RECORD_WRITTEN (R61) -/
  | faultRecordWritten (mramOk : Bool)
  /-- POWER_REMOVAL (R541) -/
  | powerRemoval (torn : Option MramRec)
  /-- SUPPLY_MONITOR_CHECK (R538) -/
  | supplyMonitorCheck (rail uv outNs : Nat)
  /-- TEMPERATURE_SAMPLE (R550) -/
  | temperatureSample (t : Temps)
  /-- DATE_HINT_WRITE (R67) -/
  | dateHintWrite (high : Bool) (val : Word)
  /-- PCIE_PERST_N_LOW (R544) -/
  | pciePerstNLow
  /-- PCIE_LINK_UP (R544) -/
  | pcieLinkUp (width speed : Nat)
  /-- PCIE_LINK_LOSS (R72) -/
  | pcieLinkLoss
  /-- FLR_PF0 (R72) -/
  | flrPf0
  /-- FLR_PF1 (R72) -/
  | flrPf1
  /-- ACCESS_ERROR (R73) -/
  | accessError (a : BadAccess)
  /-- REGISTER_WRITE (R122) -/
  | registerWrite (a : RegWrite)
  /-- WIDE_LOW_WORD_READ (R8) -/
  | wideLowWordRead (a : RegRead)
  /-- CLEAR_ON_READ (R5) -/
  | clearOnRead (a : RegRead)
  /-- DOORBELL_TAIL (R79) -/
  | doorbellTail (k : RingKind) (n idx : Nat) (host : List (Nat × Byte))
  /-- ARM (R112) -/
  | arm (k : RingKind) (n seen : Nat) (armBit : Bool)
  /-- RING_ENABLE (R80) -/
  | ringEnable (k : RingKind) (n : Nat) (v : Word)
  /-- RING_DISABLE (R81) -/
  | ringDisable (k : RingKind) (n fetched : Nat)
  /-- RING_STOPPED (R81) -/
  | ringStopped (k : RingKind) (n : Nat)
  /-- DMA_ERROR (R82) -/
  | dmaError (k : RingKind) (n fetched : Nat) (bad : Option Nat)
  /-- TX_FRAME_ADMIT (R94) -/
  | txFrameAdmit (n : Nat)
  /-- RX_DELIVERY (R85) -/
  | rxDelivery (ecc : Nat)
  /-- EVENT_RECORD_WRITE (R102) -/
  | eventRecordWrite (n : Nat)
  /-- IRQ_HOLDOFF_EXPIRY (R112) -/
  | irqHoldoffExpiry (k : RingKind) (n : Nat)
  /-- READOUT_REQUEST (R110) -/
  | readoutRequest
  /-- READOUT_COMPLETE (R111) -/
  | readoutComplete (dmaOk : Bool) (copied : Nat)
  /-- LOAD_APPLY (R138) -/
  | loadApply (host : List (Nat × Byte)) (dmaOk : Bool)
  /-- STORE (R136) -/
  | store (slot : Nat) (host : List (Nat × Byte)) (dmaOk : Bool)
  /-- APPLY_SLOT (R138) -/
  | applySlot (slot : Nat)
  /-- MARK (R138) -/
  | mark (slot : Nat)
  /-- UNMARK (R137) -/
  | unmark (slot : Nat)
  /-- ERASE (R137) -/
  | erase (slot : Nat)
  /-- IMAGE_COMMAND_COMPLETE (R138) -/
  | imageCommandComplete
  /-- NEW_NONCE (R146) -/
  | newNonce
  /-- STAGE (R146) -/
  | stage (item count : Nat)
  /-- WITHDRAW (R147) -/
  | withdraw
  /-- PROVISION_OP_KEY (R145) -/
  | provisionOpKey
  /-- CONFIRM (R147) -/
  | confirm (p : Party) (mramOk : Bool)
  /-- REJECT (R147) -/
  | reject (p : Party)
  /-- PROVISION (R145) -/
  | provision (p : Party)
  /-- PROTECT_WINDOW_EXPIRY (R147) -/
  | protectWindowExpiry
  /-- ZEROISE_ALL (R157) -/
  | zeroiseAll (ir : Jtag) (dr : Word) (trst mramOk : Bool)
  /-- FAULT_ACK (R526) -/
  | faultAck (w : Word)
  /-- REFCLK_GOOD_CHANGE (R161) -/
  | refclkGoodChange (k : Nat) (ppm : Option Int)
  /-- LOS_ASSERT (R169) -/
  | losAssert (ln : Nat)
  /-- LOS_CLEAR (R169) -/
  | losClear (ln : Nat)
  /-- LOL_ASSERT (R169) -/
  | lolAssert (ln : Nat)
  /-- LOL_CLEAR (R169) -/
  | lolClear (ln : Nat)
  /-- PCS_LOCK_CHANGE (R170) -/
  | pcsLockChange (ln : Nat) (lock hiBer : Bool) (errors : Nat)
  /-- ADAPT (R171) -/
  | adapt (ln : Nat)
  /-- RESTORE (R171) -/
  | restore (ln : Nat)
  /-- PRBS31_NEAR (R171) -/
  | prbs31Near (ln : Nat)
  /-- PRBS31_LINE (R171) -/
  | prbs31Line (ln : Nat)
  /-- STOP (R171) -/
  | stop (ln errors : Nat)
  /-- LANE_COMMAND_COMPLETE (R171) -/
  | laneCommandComplete (ln eye : Nat) (ok : Bool)
  /-- WIDEN (R191) -/
  | widen (p : Nat)
  /-- DSK_RECEIVE (R188) -/
  | dskReceive (p : Nat) (d : Dsk)
  /-- CRD_RECEIVE (R181) -/
  | crdReceive (p : Nat) (d : OrdSet)
  /-- TTM_RECEIVE (R185) -/
  | ttmReceive (p : Nat) (d : Ttm)
  /-- CYC_RECEIVE (R186) -/
  | cycReceive (p : Nat) (d : OrdSet)
  /-- T_LANES_EXPIRY (R187) -/
  | tLanesExpiry (p : Nat)
  /-- T_CONFIG_EXPIRY (R187) -/
  | tConfigExpiry (p : Nat)
  /-- T_RETRAIN_EXPIRY (R187) -/
  | tRetrainExpiry (p : Nat)
  /-- LANE_FAILURE (R190) -/
  | laneFailure (p : Nat) (seen : List LaneSeen)
  /-- STABLE_MS_EXPIRY (R191) -/
  | stableMsExpiry (p : Nat)
  /-- SKP_SEND (R179) -/
  | skpSend (p : Nat)
  /-- DSK_SEND (R188) -/
  | dskSend (p : Nat)
  /-- CRD_SEND (R182) -/
  | crdSend (p cls : Nat)
  /-- TTM_SEND (R184) -/
  | ttmSend (p : Nat)
  /-- CYC_MARK_SEND (R186) -/
  | cycMarkSend (p : Nat)
  /-- TTM_SEQ_READ (R185) -/
  | ttmSeqRead (pt : Party) (p : Nat)
  /-- MAC_FRAME_RECEIVE (R203) -/
  | macFrameReceive (p : Nat) (f : RxFrame)
  /-- PAUSE_HOLD_EXPIRY (R210) -/
  | pauseHoldExpiry (p prio : Nat)
  /-- UP_HOLDOFF_EXPIRY (R199) -/
  | upHoldoffExpiry (p : Nat)
  /-- LINK_HOLD_EXPIRY (R223) -/
  | linkHoldExpiry (p : Nat)
  /-- FLUSH (R222) -/
  | flush (p : Nat)
  /-- RESTART_VERIFY (R217) -/
  | restartVerify (p : Nat)
  /-- VERIFY_TIMER (R217) -/
  | verifyTimer (p : Nat)
  /-- VERIFY_MPACKET_RECEIVE (R217) -/
  | verifyMpacketReceive (p : Nat) (respond : Bool)
  /-- PAUSE_FRAME_TRANSMIT (R211) -/
  | pauseFrameTransmit (p : Nat)
  /-- XOFF_REPEAT (R211) -/
  | xoffRepeat (p prio : Nat)
  /-- SET (R235) -/
  | set
  /-- STEP (R235) -/
  | step
  /-- SLEW (R235) -/
  | slew
  /-- SLEW_ABORT (R235) -/
  | slewAbort
  /-- TIME_JUMP_EFFECT (R235) -/
  | timeJumpEffect
  /-- SLEW_COMPLETE (R236) -/
  | slewComplete
  /-- FREQ_ADJ_WRITE (R238) -/
  | freqAdjWrite (high : Bool) (val : Word)
  /-- TIME_FAULT_CLEAR (R243) -/
  | timeFaultClear (w : Word)
  /-- TIME_BASE_FAULT (R241) -/
  | timeBaseFault (replica : Bool) (island : Nat)
  /-- REFERENCE_LOST (R240) -/
  | referenceLost (pps : Bool) (avg : Int)
  /-- HOLDOVER_END (R240) -/
  | holdoverEnd
  /-- LOOP_LOCKED (R239) -/
  | loopLocked (adj : Int)
  /-- PPS_IN_EDGE (R261) -/
  | ppsInEdge (t pulse : Nat)
  /-- PPS_IN_READ (R267) -/
  | ppsInRead (pt : Party)
  /-- PPS_OUT_RISE (R261) -/
  | ppsOutRise
  /-- PPS_OUT_FALL (R261) -/
  | ppsOutFall
  /-- CYCLE_EDGE (R256) -/
  | cycleEdge (g : Nat)
  /-- TIO_OUTPUT_START (R260) -/
  | tioOutputStart (u : Nat)
  /-- TIO_OUTPUT_END (R260) -/
  | tioOutputEnd (u : Nat)
  /-- CAPTURE_EDGE (R266) -/
  | captureEdge (u : Nat) (high : Bool) (t pulse : Nat)
  /-- STUCK_ACTIVE (R265) -/
  | stuckActive (u : Nat)
  /-- TXF_READ (R249) -/
  | txfRead (pt : Party) (p : Nat)
  /-- CAPTURE_FIFO_READ (R266) -/
  | captureFifoRead (pt : Party) (u : Nat)
  /-- TIME_NOW_READ (R232) -/
  | timeNowRead (pt : Party)
  /-- REPLICA_REALIGN (R28) -/
  | replicaRealign (errs : List Int)
  /-- FRAME_ARRIVAL (R270) -/
  | frameArrival (sl : Nat) (errs : List (Nat × Nat))
  /-- RECIRCULATION_ADMIT (R15) -/
  | recirculationAdmit (ecc : Nat)
  /-- STR_WRITE (R297) -/
  | strWrite (c : Cmd)
  /-- STR_READ (R297) -/
  | strRead (c : Cmd)
  /-- CLS_WRITE (R297) -/
  | clsWrite (c : Cmd)
  /-- CLS_INVALIDATE (R284) -/
  | clsInvalidate (c : Cmd)
  /-- CLS_READ (R297) -/
  | clsRead (c : Cmd)
  /-- READ_HITS (R297) -/
  | readHits (c : Cmd)
  /-- HGT_WRITE (R297) -/
  | hgtWrite (c : Cmd)
  /-- HGT_READ (R297) -/
  | hgtRead (c : Cmd)
  /-- HGT_READ_COUNTERS (R297) -/
  | hgtReadCounters (c : Cmd)
  /-- UNBLOCK (R297) -/
  | unblock (c : Cmd)
  /-- RESET_RCV (R295) -/
  | resetRcv (c : Cmd)
  /-- TCAM_SCRUB (R285) -/
  | tcamScrub (n : Nat) (action bad : Bool)
  /-- TCAM_REPAIR (R285) -/
  | tcamRepair (n : Nat)
  /-- HASH_CONFIG_WRITE (R278) -/
  | hashConfigWrite (seed : Bool) (v : Word)
  /-- BANK_CONFIG_WRITE (R281) -/
  | bankConfigWrite (sl b : Nat) (v : Word)
  /-- FDB_INSERT (R312) -/
  | fdbInsert (c : Cmd)
  /-- FDB_DELETE (R334) -/
  | fdbDelete (c : Cmd)
  /-- FDB_LOOKUP (R336) -/
  | fdbLookup (c : Cmd)
  /-- FDB_READ (R336) -/
  | fdbRead (c : Cmd)
  /-- FDB_FLUSH (R323) -/
  | fdbFlush (c : Cmd)
  /-- FDB_DUMP (R334) -/
  | fdbDump (c : Cmd)
  /-- LPM_INSERT (R327) -/
  | lpmInsert (c : Cmd)
  /-- LPM_DELETE (R327) -/
  | lpmDelete (c : Cmd)
  /-- LPM_LOOKUP (R334) -/
  | lpmLookup (c : Cmd)
  /-- LPM_MATCH (R334) -/
  | lpmMatch (c : Cmd)
  /-- NHP_WRITE (R334) -/
  | nhpWrite (c : Cmd)
  /-- NHP_READ (R334) -/
  | nhpRead (c : Cmd)
  /-- WRITE_GROUP (R334) -/
  | writeGroup (c : Cmd)
  /-- READ_GROUP (R334) -/
  | readGroup (c : Cmd)
  /-- READ_BUCKETS (R334) -/
  | readBuckets (c : Cmd)
  /-- MCG_WRITE (R333) -/
  | mcgWrite (c : Cmd)
  /-- MCG_INVALIDATE (R333) -/
  | mcgInvalidate (c : Cmd)
  /-- MCG_READ (R334) -/
  | mcgRead (c : Cmd)
  /-- WRITE_RUN (R334) -/
  | writeRun (c : Cmd)
  /-- LEARN_REQUEST (R316) -/
  | learnRequest
  /-- AGEING_VISIT (R321) -/
  | ageingVisit (n : Nat) (hit : Bool)
  /-- TABLE_SCRUB (R338) -/
  | tableScrub (mem idx pair : Nat) (bad : Bool)
  /-- TABLE_REPAIR (R338) -/
  | tableRepair (mem idx sl : Nat)
  /-- SEED_WRITE (R339) -/
  | seedWrite (one : Bool) (v : Word)
  /-- BUCKET_MOVE (R24) -/
  | bucketMove (kind group b : Nat)
  /-- COMMIT (R347) -/
  | commit (c : Option Cmd)
  /-- COMMIT_AT (R348) -/
  | commitAt (c : Option Cmd)
  /-- DISCARD_STAGED (R353) -/
  | discardStaged (c : Option Cmd)
  /-- GEN_STATUS (R357) -/
  | genStatus (c : Cmd)
  /-- COMMIT_CHECK_DONE (R347) -/
  | commitCheckDone
  /-- COMMIT_EFFECT (R347) -/
  | commitEffect
  /-- COMMIT_DRAINED (R349) -/
  | commitDrained (receiving : List Nat)
  /-- COMMIT_SETTLED (R347) -/
  | commitSettled
  /-- DISCARD_DONE (R353) -/
  | discardDone
  /-- AUTO_COMMIT_DUE (R354) -/
  | autoCommitDue
  /-- ENGINE_FRAME_ENTRY (R362) -/
  | engineFrameEntry (e : Nat)
  /-- BUNDLE_ISSUE (R360) -/
  | bundleIssue (e corrected : Nat) (bad : List (Nat × Nat))
  /-- ESL_DATA_RETURN (R371) -/
  | eslDataReturn (e num corrected : Nat)
  /-- GROWTH_CELL_RETRY (R373) -/
  | growthCellRetry (e num : Nat)
  /-- ENGINE_HANDOFF (R359) -/
  | engineHandoff (e : Nat)
  /-- ENGINE_WORD_REPAIR (R385) -/
  | engineWordRepair (c kind key : Nat)
  /-- LOAD (R377) -/
  | load (c : Cmd)
  /-- UNLOAD (R388) -/
  | unload (c : Cmd)
  /-- ENG_READ (R388) -/
  | engRead (c : Cmd)
  /-- TBL_WRITE (R388) -/
  | tblWrite (c : Cmd)
  /-- TBL_READ (R388) -/
  | tblRead (c : Cmd)
  /-- ES_WRITE (R388) -/
  | esWrite (c : Cmd)
  /-- ES_READ (R388) -/
  | esRead (c : Cmd)
  /-- ADMISSION (R408) -/
  | admission
  /-- EMPTY_RETRY (R399) -/
  | emptyRetry (sl : Nat)
  /-- FREE_REQUEST (R401) -/
  | freeRequest (ptr holder req : Nat)
  /-- REFILL_BURST (R418) -/
  | refillBurst (p q corrected ecc : Nat)
  /-- REFILL_RETURN (R418) -/
  | refillReturn (p q : Nat)
  /-- LIFETIME_TICK (R415) -/
  | lifetimeTick
  /-- RIDER_VISIT (R426) -/
  | riderVisit (ptr : Nat) (broken : Bool) (ecc : Nat)
  /-- RIDER_PASS_END (R425) -/
  | riderPassEnd (reservoir : Bool) (counted : Nat)
  /-- SNAPSHOT (R423) -/
  | snapshot (c : Option Cmd)
  /-- RECLAIM (R427) -/
  | reclaim (c : Cmd)
  /-- READ_RECORD (R430) -/
  | readRecord (c : Cmd)
  /-- LEAK_LIST (R430) -/
  | leakList (c : Cmd)
  /-- AUDIT_NOW (R430) -/
  | auditNow (c : Cmd)
  /-- READ_ACCOUNT (R430) -/
  | readAccount (c : Cmd)
  /-- HBM_PARTITION_WRITE (R420) -/
  | hbmPartitionWrite (w : Word)
  /-- COPY_ENQUEUE (R434) -/
  | copyEnqueue (p : Nat)
  /-- TRANSMITTER_FREE (R436) -/
  | transmitterFree (p ecc : Nat)
  /-- COPY_TRANSMIT_END (R20) -/
  | copyTransmitEnd (p : Nat)
  /-- RELEASE_HANDOVER (R451) -/
  | releaseHandover (p q : Nat)
  /-- RELEASE_LEAD_DEADLINE (R452) -/
  | releaseLeadDeadline (p q : Nat)
  /-- TIMED_RELEASE (R454) -/
  | timedRelease (p ecc : Nat)
  /-- GATE_ENTRY_CHANGE (R443) -/
  | gateEntryChange (p : Nat)
  /-- WRITE_ENTRIES (R463) -/
  | writeEntries (c : Cmd)
  /-- READ_ENTRIES (R463) -/
  | readEntries (c : Cmd)
  /-- SCH_READ_COUNTERS (R463) -/
  | schReadCounters (c : Cmd)
  /-- RECORDER_TAKE (R465) -/
  | recorderTake (ecc : Nat)
  /-- RECORD_WRITE (R467) -/
  | recordWrite
  /-- SEAL_IDLE_EXPIRY (R471) -/
  | sealIdleExpiry
  /-- FATE_WINDOW_EXPIRY (R472) -/
  | fateWindowExpiry
  /-- FREEZE (R473) -/
  | freeze (c : Option Cmd)
  /-- RELEASE (R475) -/
  | release (c : Option Cmd) (region : Nat)
  /-- SEAL_NOW (R481) -/
  | sealNow (c : Option Cmd)
  /-- VERIFY (R477) -/
  | verify (c : Cmd)
  /-- READ_LOSS (R481) -/
  | readLoss (c : Cmd)
  /-- PMU_SETTING_WRITE (R494) -/
  | pmuSettingWrite (u k reg : Nat) (w : Word)
  /-- ZERO (R494) -/
  | zero (u : Nat) (w : Word)
  /-- COUNTER_READ (R491) -/
  | counterRead (u k : Nat) (viaAlias : Bool)
  /-- WINDOW_PUBLISH (R490) -/
  | windowPublish (u k : Nat)
  /-- SET_STATE (R502) -/
  | setState (c : Cmd)
  /-- RETIRE (R508) -/
  | retire (c : Cmd)
  /-- TEST (R507) -/
  | test (c : Cmd)
  /-- HEALTH_WRITE (R513) -/
  | healthWrite (c : Cmd)
  /-- READ_STATE (R524) -/
  | readState (c : Cmd)
  /-- LEAVE_COMPLETE (R502) -/
  | leaveComplete (kind idx : Nat)
  /-- RETIRE_COPY_COMPLETE (R509) -/
  | retireCopyComplete (kind idx : Nat)
  /-- TEST_COMPLETE (R507) -/
  | testComplete (kind idx : Nat) (pass : Bool) (cause detail : Nat)
  /-- AUTO_RETIRE (R511) -/
  | autoRetire (idx errors : Nat)
  /-- HEALTH_MAP_UPDATE (R512) -/
  | healthMapUpdate
  /-- SUPPLIES_IN_RANGE (R540) -/
  | suppliesInRange (st : Straps)
  /-- REFERENCE_RETURN (R240) -/
  | referenceReturn (pps : Bool)
  /-- SPILL_WRITE_COMPLETE (R417) -/
  | spillWriteComplete (ch ecc : Nat)
  /-- AUTO_NEGOTIATION_COMPLETE (R198) -/
  | autoNegotiationComplete (p : Nat) (match1000Full : Bool)
  /-- ALIGNMENT_LOCK_CHANGE (R198) -/
  | alignmentLockChange (p : Nat) (aligned : Bool) (lanes : Nat)
  /-- LINK_FAULT_SIGNAL_CHANGE (R198) -/
  | linkFaultSignalChange (p : Nat) (faulty : Bool)
deriving DecidableEq, Repr

end Sys2Proof
end

