-- ==== Sys2Proof/WellFormed.lean ====
section
/-! DEFINITION. Well-formed commands: every operand lies in the range the spec gives it. A meaning is defined on
ill-formed commands as well, where it takes an operand modulo its range or does nothing. -/

namespace Sys2Proof

/-- A number below a bound. -/
def below (n i : Nat) : Bool := decide (i < n)

/-- Straps: BOOT_SEL of two bits, PARTY_SEL of one, SIDE_ADDR of three (R542). -/
def Straps.wf (s : Straps) : Bool := below 4 s.bootSel && below 2 s.partySel && below 8 s.sideAddr

/-- A 32-bit access is aligned and lies in its BAR (R4, R71). -/
def aligned (off : Nat) : Bool := off % 4 == 0
def RegWrite.wf (a : RegWrite) : Bool := aligned a.off && (a.bar == 0 || a.bar == 2 || a.bar == 4)
def RegRead.wf (a : RegRead) : Bool := aligned a.off && (a.bar == 0 || a.bar == 2 || a.bar == 4)

/-- An access of a wrong width or alignment names byte enables of two four-bit groups (R73, R109). -/
def BadAccess.wf (a : BadAccess) : Bool := below 256 a.byteEnables && (a.bar == 0 || a.bar == 2 || a.bar == 4)

/-- A ring's number (R74). -/
def ringNum (k : RingKind) (n : Nat) : Bool :=
  match k with
  | .rx => below 64 n
  | .tx => below 64 n
  | .cmd => below 8 n
  | .evt => below 8 n
  | .rdo => below 1 n

/-- A command descriptor (R97): its ring, its 32-bit TAG, its BODY of 20 bytes, or 8 beside a data buffer. -/
def Cmd.wf (c : Cmd) : Bool :=
  (match c.via with
   | .ring n => below 8 n
   | _ => true) &&
  below (2 ^ 32) c.tag && (c.body.length == if c.long.isSome then 8 else 20) &&
  (match c.long with
   | some b => below (2 ^ 64) b.addr && below (2 ^ 32) b.bytes
   | none => true)

/-- A command row that may also be given by a register (its descriptor then absent). -/
def cmdOptWf (c : Option Cmd) : Bool :=
  match c with
  | some d => d.wf
  | none => true

/-- Ordered sets (R177). -/
def OrdSet.wf (d : OrdSet) : Bool := d.copies.all fun c => below 4 c.1
def Dsk.wf (d : Dsk) : Bool := d.set.wf && d.skewed.all (below 4)
def Ttm.wf (d : Ttm) : Bool := d.set.wf

/-- A reception has at least one byte, and its header symbol is an octet (R174, R201). -/
def RxFrame.wf (f : RxFrame) : Bool :=
  decide (1 ≤ f.bytes.length) && below 256 f.cls && (f.laneErrors.all fun x => below 4 x.1) && (f.groups.all fun x => below 4 x.1)

/-- Lanes, Ethernet ports, ports with queues, units of pins, generators, slices, engines (R11). -/
def laneNum (n : Nat) : Bool := below 256 n
def portNum (n : Nat) : Bool := below 256 n
def egressNum (n : Nat) : Bool := below 259 n
def pinNum (n : Nat) : Bool := below 16 n
def genNum (n : Nat) : Bool := below 32 n
def sliceNum (n : Nat) : Bool := below 8 n
def engineNum (n : Nat) : Bool := below 64 n
def contextNum (n : Nat) : Bool := below 64 n
def pmuNum (u k : Nat) : Bool := below 30 u && below 8 k
def islandNum (n : Nat) : Bool := below 96 n

/-- The memories with parity of R338: FDB, LPM, NHP, MCG, LAG and ECMP bucket state. -/
def tableMem (mem : Nat) : Bool := [1, 2, 3, 4, 32, 33].contains mem

/-- Units of a KIND (R500). -/
def unitNum (kind idx : Nat) : Bool :=
  match kind with
  | 0 => below 256 idx | 1 => below 64 idx | 2 => below 64 idx | 3 => below 64 idx | 4 => below 48 idx
  | 5 => below 8 idx | 6 => below 520 idx | 7 => below 128 idx | 8 => below 1 idx | 9 => below 96 idx
  | _ => false

/-- A command is well formed. -/
def Instr.wf : Instr → Bool
  | .powerOnDetect rail _ => below 9 rail
  | .resetNLow _ => true
  | .resetNHigh st => st.wf
  | .fullReset _ => true
  | .fullResetTimeout st => st.wf
  | .refclk00Measure _ _ => true
  | .warmingComplete _ => true
  | .warmTimeout _ => true
  | .wakeComplete _ => true
  | .goRun => true
  | .runTime => true
  | .drainToStage => true
  | .drainToPark _ => true
  | .drainTime => true
  | .drainComplete _ => true
  | .parkBatchStart _ _ => true
  | .parkWaveComplete _ _ _ fails => fails.all (fun f => below 0x510 f.1)
  | .fatalFault code island detail => below 65536 code && islandNum island && decide (detail.length ≤ 6)
  | .mgmtWatchdog => true
  | .faultRecordWritten _ => true
  | .powerRemoval torn => match torn with
    | some (.cacheQuad q) => below 64 q
    | some (.image n) => below 4 n
    | _ => true
  | .supplyMonitorCheck rail _ _ => below 9 rail
  | .temperatureSample _ => true
  | .dateHintWrite _ _ => true
  | .pciePerstNLow => true
  | .pcieLinkUp width speed => (width == 1 || width == 2 || width == 4 || width == 8) && decide (1 ≤ speed) && below 6 speed
  | .pcieLinkLoss => true
  | .flrPf0 => true
  | .flrPf1 => true
  | .accessError a => a.wf
  | .registerWrite a => a.wf
  | .wideLowWordRead a => a.wf
  | .clearOnRead a => a.wf
  | .doorbellTail k n idx _ => ringNum k n && below 65536 idx
  | .arm k n seen _ => ringNum k n && below 65536 seen
  | .ringEnable k n _ => ringNum k n
  | .ringDisable k n _ => ringNum k n
  | .ringStopped k n => ringNum k n
  | .dmaError k n _ _ => ringNum k n
  | .txFrameAdmit n => below 64 n
  | .rxDelivery _ => true
  | .eventRecordWrite n => below 8 n
  | .irqHoldoffExpiry k n => ringNum k n
  | .readoutRequest => true
  | .readoutComplete _ _ => true
  | .loadApply _ _ => true
  | .store slot _ _ => below 4 slot
  | .applySlot slot => below 4 slot
  | .mark slot => below 4 slot
  | .unmark slot => below 4 slot
  | .erase slot => below 4 slot
  | .imageCommandComplete => true
  | .newNonce => true
  | .stage item count => below 256 item && below 32 count
  | .withdraw => true
  | .provisionOpKey => true
  | .confirm _ _ => true
  | .reject _ => true
  | .provision _ => true
  | .protectWindowExpiry => true
  | .zeroiseAll _ _ _ _ => true
  | .faultAck _ => true
  | .refclkGoodChange k _ => below 16 k
  | .losAssert ln => laneNum ln
  | .losClear ln => laneNum ln
  | .lolAssert ln => laneNum ln
  | .lolClear ln => laneNum ln
  | .pcsLockChange ln _ _ _ => laneNum ln
  | .adapt ln => laneNum ln
  | .restore ln => laneNum ln
  | .prbs31Near ln => laneNum ln
  | .prbs31Line ln => laneNum ln
  | .stop ln _ => laneNum ln
  | .laneCommandComplete ln _ _ => laneNum ln
  | .widen p => portNum p
  | .dskReceive p d => portNum p && d.wf
  | .crdReceive p d => portNum p && d.wf
  | .ttmReceive p d => portNum p && d.wf
  | .cycReceive p d => portNum p && d.wf
  | .tLanesExpiry p => portNum p
  | .tConfigExpiry p => portNum p
  | .tRetrainExpiry p => portNum p
  | .laneFailure p seen => portNum p && seen.all fun x => below 4 x.lane
  | .stableMsExpiry p => portNum p
  | .skpSend p => portNum p
  | .dskSend p => portNum p
  | .crdSend p cls => portNum p && below 8 cls
  | .ttmSend p => portNum p
  | .cycMarkSend p => portNum p
  | .ttmSeqRead _ p => portNum p
  | .macFrameReceive p f => portNum p && f.wf
  | .pauseHoldExpiry p prio => portNum p && below 9 prio
  | .upHoldoffExpiry p => portNum p
  | .linkHoldExpiry p => portNum p
  | .flush p => portNum p
  | .restartVerify p => portNum p
  | .verifyTimer p => portNum p
  | .verifyMpacketReceive p _ => portNum p
  | .pauseFrameTransmit p => portNum p
  | .xoffRepeat p prio => portNum p && below 9 prio
  | .set => true
  | .step => true
  | .slew => true
  | .slewAbort => true
  | .timeJumpEffect => true
  | .slewComplete => true
  | .freqAdjWrite _ _ => true
  | .timeFaultClear _ => true
  | .timeBaseFault _ island => islandNum island
  | .referenceLost _ _ => true
  | .holdoverEnd => true
  | .loopLocked _ => true
  | .ppsInEdge _ _ => true
  | .ppsInRead _ => true
  | .ppsOutRise => true
  | .ppsOutFall => true
  | .cycleEdge g => genNum g
  | .tioOutputStart u => pinNum u
  | .tioOutputEnd u => pinNum u
  | .captureEdge u _ _ _ => pinNum u
  | .stuckActive u => pinNum u
  | .txfRead _ p => portNum p
  | .captureFifoRead _ u => pinNum u
  | .timeNowRead _ => true
  | .replicaRealign _ => true
  | .frameArrival sl _ => sliceNum sl
  | .recirculationAdmit _ => true
  | .strWrite c => c.wf
  | .strRead c => c.wf
  | .clsWrite c => c.wf
  | .clsInvalidate c => c.wf
  | .clsRead c => c.wf
  | .readHits c => c.wf
  | .hgtWrite c => c.wf
  | .hgtRead c => c.wf
  | .hgtReadCounters c => c.wf
  | .unblock c => c.wf
  | .resetRcv c => c.wf
  | .tcamScrub n _ _ => below 262144 n
  | .tcamRepair n => below 262144 n
  | .hashConfigWrite _ _ => true
  | .bankConfigWrite sl b _ => sliceNum sl && below 8 b
  | .fdbInsert c => c.wf
  | .fdbDelete c => c.wf
  | .fdbLookup c => c.wf
  | .fdbRead c => c.wf
  | .fdbFlush c => c.wf
  | .fdbDump c => c.wf
  | .lpmInsert c => c.wf
  | .lpmDelete c => c.wf
  | .lpmLookup c => c.wf
  | .lpmMatch c => c.wf
  | .nhpWrite c => c.wf
  | .nhpRead c => c.wf
  | .writeGroup c => c.wf
  | .readGroup c => c.wf
  | .readBuckets c => c.wf
  | .mcgWrite c => c.wf
  | .mcgInvalidate c => c.wf
  | .mcgRead c => c.wf
  | .writeRun c => c.wf
  | .learnRequest => true
  | .ageingVisit n _ => below 262144 n
  | .tableScrub mem _ pair _ => tableMem mem && below 4 pair
  | .tableRepair mem _ sl => tableMem mem && sliceNum sl
  | .seedWrite _ _ => true
  | .bucketMove kind _ b => below 4 kind && below 256 b
  | .commit c => cmdOptWf c
  | .commitAt c => cmdOptWf c
  | .discardStaged c => cmdOptWf c
  | .genStatus c => c.wf
  | .commitCheckDone => true
  | .commitEffect => true
  | .commitDrained _ => true
  | .commitSettled => true
  | .discardDone => true
  | .autoCommitDue => true
  | .engineFrameEntry e => engineNum e
  | .bundleIssue e _ _ => engineNum e
  | .eslDataReturn e num _ => engineNum e && contextNum num
  | .growthCellRetry e num => engineNum e && contextNum num
  | .engineHandoff e => engineNum e
  | .engineWordRepair c kind _ => sliceNum c && below 2 kind
  | .load c => c.wf
  | .unload c => c.wf
  | .engRead c => c.wf
  | .tblWrite c => c.wf
  | .tblRead c => c.wf
  | .esWrite c => c.wf
  | .esRead c => c.wf
  | .admission => true
  | .emptyRetry sl => sliceNum sl
  | .freeRequest _ _ _ => true
  | .refillBurst p q _ _ => egressNum p && below 8 q
  | .refillReturn p q => egressNum p && below 8 q
  | .lifetimeTick => true
  | .riderVisit _ _ _ => true
  | .riderPassEnd _ _ => true
  | .snapshot c => cmdOptWf c
  | .reclaim c => c.wf
  | .readRecord c => c.wf
  | .leakList c => c.wf
  | .auditNow c => c.wf
  | .readAccount c => c.wf
  | .hbmPartitionWrite _ => true
  | .copyEnqueue p => egressNum p
  | .transmitterFree p _ => portNum p
  | .copyTransmitEnd p => egressNum p
  | .releaseHandover p q => egressNum p && below 8 q
  | .releaseLeadDeadline p q => egressNum p && below 8 q
  | .timedRelease p _ => egressNum p
  | .gateEntryChange p => portNum p
  | .writeEntries c => c.wf
  | .readEntries c => c.wf
  | .schReadCounters c => c.wf
  | .recorderTake _ => true
  | .recordWrite => true
  | .sealIdleExpiry => true
  | .fateWindowExpiry => true
  | .freeze c => cmdOptWf c
  | .release c region => cmdOptWf c && below 4 region
  | .sealNow c => cmdOptWf c
  | .verify c => c.wf
  | .readLoss c => c.wf
  | .pmuSettingWrite u k reg _ => pmuNum u k && below 3 reg
  | .zero u _ => below 30 u
  | .counterRead u k _ => pmuNum u k
  | .windowPublish u k => pmuNum u k
  | .setState c => c.wf
  | .retire c => c.wf
  | .test c => c.wf
  | .healthWrite c => c.wf
  | .readState c => c.wf
  | .leaveComplete kind idx => unitNum kind idx
  | .retireCopyComplete kind idx => unitNum kind idx
  | .testComplete kind idx _ cause _ => unitNum kind idx && below 16 cause
  | .autoRetire idx _ => below 128 idx
  | .healthMapUpdate => true
  | .suppliesInRange st => st.wf
  | .referenceReturn _ => true
  | .spillWriteComplete ch _ => below 120 ch
  | .autoNegotiationComplete p _ => portNum p
  | .alignmentLockChange p _ lanes => portNum p && below 16 lanes
  | .linkFaultSignalChange p _ => portNum p

end Sys2Proof
end

