-- ==== Sys2Proof/Config.lean ====
section
/-! DEFINITION. What the model fixes once: the free values the spec leaves open, and the constants of R1 and R60. -/

namespace Sys2Proof.Config

/-- A fresh value the spec does not give: the model applies it to the plain counter `free` of the state and advances
the counter (assumption 2). It has no body, so nothing can be proved of its values. -/
opaque freeValue : Nat → Nat

/-- How often the accesses of one basin event lose arbitration (R17), how many 64-byte words of one HBM read are corrected, how many
accesses one test makes (R507): counts that depend on timing and on the cells, which the spec does not give (assumption 176). -/
opaque arbRetries : Nat → Nat
opaque eccCorrected : Nat → Nat
opaque testAccesses : Nat → Nat

/-- In how many cycles of a span that begins at an elapsed time more non-posted requests were outstanding than a threshold: the host's
pace of completion decides it (R487, assumption 176). -/
opaque npCycles : Nat → Nat → Nat

/-- Whether the walk of an address reads a word of the LPM: the spec gives no layout of its stage memories (assumption 179). -/
opaque lpmReads : Nat → Nat → Bool

/-- The logical reservoir channel that holds a 32-byte block of the engine store: the spec gives the regions equal slices of
every channel (R421) and no mapping within them (assumption 30). -/
opaque esChannel : Nat → Nat

/-- When WAKE goes on to each step of R46: the spec gives bounds only (assumption 132). -/
opaque wakeStepAt : Nat → Nat

/-- Units of master time in one nanosecond: 10^6 × 2^48, so that both the 2^-48 ns of TIM_FREQ_ADJ (R231) and the 10^-6 ns of
a slew (R236) are whole numbers of units (assumption 21). -/
def nsUnit : Nat := 2 ^ 48 * 1000000

/-- The most that a replica shows beyond or below the master: 0.15 ns (R28). -/
def replicaBound : Int := 15 * 2 ^ 48 * 10000

/-- Nanoseconds in a second. -/
def nsPerSec : Nat := 1000000000

/-- The modulus of master time: 64-bit seconds (R230). -/
def timeMod : Nat := 2 ^ 64 * nsPerSec * nsUnit

/-- The number of Ethernet ports (R1). -/
def numPorts : Nat := 256

/-- The host port, recorder port and recirculation port (R11). -/
def hostPort : Nat := 256
def recorderPort : Nat := 257
def recircPort : Nat := 258

/-- The cells of the basin (R1). -/
def basinCells : Nat := 524288

/-- Records in the on-chip backlog of one event ring (R102). -/
def eventBacklog : Nat := 256

end Sys2Proof.Config
end

