-- ==== Sys2Proof/Machine/Bits.lean ====
section
/-! DEFINITION. Bit-field, sign-extension and byte-order helpers (R3, R10: structures are little-endian,
frame contents are in network byte order). -/

namespace Sys2Proof.Machine

open Sys2Proof

/-- Bits `[hi:lo]` of a number, as a register table writes them (R3). -/
def fld (hi lo n : Nat) : Nat := (n >>> lo) % 2 ^ (hi - lo + 1)

/-- One bit of a number. -/
def bit (i n : Nat) : Bool := n.testBit i

/-- `n` with bits `[hi:lo]` replaced by the low bits of `v`. -/
def putFld (hi lo v n : Nat) : Nat :=
  let m := 2 ^ (hi - lo + 1)
  n - (fld hi lo n) <<< lo + (v % m) <<< lo

/-- A Bool as the value of a one-bit field. -/
def b2n (b : Bool) : Nat := if b then 1 else 0

/-- The low `w` bits of `n` read as a two's-complement number. -/
def sgn (w n : Nat) : Int :=
  let m := n % 2 ^ w
  if m < 2 ^ (w - 1) then (m : Int) else (m : Int) - (2 ^ w : Nat)

/-- An integer as a `w`-bit two's-complement field. -/
def unsgn (w : Nat) (i : Int) : Nat := (i % ((2 ^ w : Nat) : Int)).toNat

/-- The `k` low bytes of `n`, least significant first (R10). -/
def toLE : Nat → Nat → List Byte
  | 0, _ => []
  | k + 1, n => BitVec.ofNat 8 n :: toLE k (n / 256)

/-- The number whose bytes, least significant first, are given (R10). -/
def ofLE : List Byte → Nat
  | [] => 0
  | b :: bs => b.toNat + 256 * ofLE bs

/-- The number whose bytes, most significant first, are given (network order, R10). -/
def ofBE (bs : List Byte) : Nat := bs.foldl (fun a b => a * 256 + b.toNat) 0

/-- The `k` low bytes of `n`, most significant first. -/
def toBE (k n : Nat) : List Byte := (toLE k n).reverse

/-- Byte `i` of a frame; bytes past its end read 0. -/
def byteAt (bs : List Byte) (i : Nat) : Nat := ((bs[i]?).getD 0).toNat

/-- The 16-bit big-endian word at offset `i` of a frame. -/
def be16 (bs : List Byte) (i : Nat) : Nat := byteAt bs i * 256 + byteAt bs (i + 1)

/-- The big-endian number in the `k` bytes at offset `i` of a frame. -/
def beN (bs : List Byte) (i : Nat) : Nat → Nat
  | 0 => 0
  | k + 1 => beN bs i k * 256 + byteAt bs (i + k)

/-- `bs` with the bytes from offset `i` on overwritten by `new` (positions past the end are dropped). -/
def patch (bs : List Byte) (i : Nat) (new : List Byte) : List Byte :=
  bs.take i ++ (new.take (bs.length - i)) ++ bs.drop (i + new.length)

/-- Little-endian words of a byte list, the last one padded with zero bytes. -/
def wordsLE : Nat → List Byte → List Nat
  | 0, _ => []
  | k + 1, bs => ofLE (bs.take 4) :: wordsLE k (bs.drop 4)

/-- The bytes of a list of 32-bit words, each little-endian. -/
def bytesOfWords (ws : List Nat) : List Byte := ws.flatMap (toLE 4)

/-- The nearer bound of a range (R125). -/
def clampTo (lo hi v : Nat) : Nat := if v < lo then lo else if hi < v then hi else v

/-- Ceiling division. -/
def ceilDiv (a b : Nat) : Nat := (a + b - 1) / b

/-- A number cut off at a field's largest value. -/
def satTo (m v : Nat) : Nat := if m < v then m else v

/-- The element `i` of a list, or a default past its end. -/
def nth {α : Type} (d : α) (l : List α) (i : Nat) : α := (l[i]?).getD d

/-- The list with element `i` changed by `f` (unchanged where there is none). -/
def modNth {α : Type} (f : α → α) (l : List α) (i : Nat) : List α := l.modify i f

end Sys2Proof.Machine
end

