-- ==== Sys2Proof/Machine/Kv.lean ====
section
/-! DEFINITION. Sparse tables: lists of (key, value) pairs with strictly rising keys, so that equal tables are
equal lists; and byte memories in the canonical form of `Host.Cell` lists. -/

namespace Sys2Proof.Machine

open Sys2Proof

/-- The value listed under `k`. -/
def kvGet {α : Type} (k : Nat) : List (Nat × α) → Option α
  | [] => none
  | (j, v) :: r => if j = k then some v else if k < j then none else kvGet k r

/-- The table with `v` under `k`. -/
def kvPut {α : Type} (k : Nat) (v : α) : List (Nat × α) → List (Nat × α)
  | [] => [(k, v)]
  | (j, w) :: r => if k < j then (k, v) :: (j, w) :: r else if j = k then (k, v) :: r else (j, w) :: kvPut k v r

/-- The table with nothing under `k`. -/
def kvDel {α : Type} (k : Nat) : List (Nat × α) → List (Nat × α)
  | [] => []
  | (j, w) :: r => if j = k then r else if k < j then (j, w) :: r else (j, w) :: kvDel k r

/-- The value listed under `k`, or `d`. -/
def kvGetD {α : Type} (d : α) (k : Nat) (t : List (Nat × α)) : α := (kvGet k t).getD d

/-- A change of the value under `k`, starting from `d` where none is listed. -/
def kvMod {α : Type} (d : α) (k : Nat) (f : α → α) (t : List (Nat × α)) : List (Nat × α) :=
  kvPut k (f (kvGetD d k t)) t

/-- A change of the value under `k` where one is listed; the table unchanged where none is. -/
def kvUpd {α : Type} (k : Nat) (f : α → α) (t : List (Nat × α)) : List (Nat × α) :=
  match kvGet k t with
  | none => t
  | some v => kvPut k (f v) t

/-- Writing `v` under `k` in a table whose unlisted keys read `d`: writing `d` removes the entry. -/
def kvSet {α : Type} [DecidableEq α] (d : α) (k : Nat) (v : α) (t : List (Nat × α)) : List (Nat × α) :=
  if v = d then kvDel k t else kvPut k v t

/-- Keys strictly rising, every key above `b`. -/
def kvSortedFrom {α : Type} (b : Nat) : List (Nat × α) → Bool
  | [] => true
  | (j, _) :: r => decide (b ≤ j) && kvSortedFrom (j + 1) r

/-- The canonical order of a sparse table. -/
def kvSorted {α : Type} (t : List (Nat × α)) : Bool := kvSortedFrom 0 t

/-- What an unlisted byte of host memory reads as (the spec gives host memory no contents; assumption 4). -/
def memDefault : Byte := 0

/-- The canonical form of a byte memory: addresses strictly rising, no entry equal to what an unlisted one reads. -/
def memWf (m : List (Nat × Byte)) : Bool := kvSorted m && m.all (fun c => c.2 != memDefault)

/-- One byte of a memory. -/
def memByte (m : List (Nat × Byte)) (a : Nat) : Byte := kvGetD memDefault a m

/-- Writing one byte keeps the canonical form: the default byte removes the entry. -/
def memSet (m : List (Nat × Byte)) (a : Nat) (b : Byte) : List (Nat × Byte) := kvSet memDefault a b m

/-- Writing bytes at rising addresses. -/
def memWrite (m : List (Nat × Byte)) (a : Nat) : List Byte → List (Nat × Byte)
  | [] => m
  | b :: bs => memWrite (memSet m a b) (a + 1) bs

/-- Reading `k` bytes at rising addresses. -/
def memRead (m : List (Nat × Byte)) (a : Nat) : Nat → List Byte
  | 0 => []
  | k + 1 => memByte m a :: memRead m (a + 1) k

/-- Applying a list of byte writes in order. -/
def memApply (m : List (Nat × Byte)) (ws : List (Nat × Byte)) : List (Nat × Byte) :=
  ws.foldl (fun m w => memSet m w.1 w.2) m

end Sys2Proof.Machine
end

