-- ==== Sys2Proof/Machine/State.lean ====
section
/-! DEFINITION. The state of the LK8256 as plain data: one structure per subsystem, gathered in `State`, with the queue
of waiting commands. A field's default is its value at reset. Registers that are plain storage lie in `regs`, keyed by
their BAR0 offset; every other piece of state has its own field. -/

namespace Sys2Proof.Machine

open Sys2Proof

/-- Why the machine stops with a fault. No meaning of this model raises one. -/
inductive Fault
  /-- Never raised: the spec gives every command an effect (safe). -/
  | none
deriving DecidableEq, Repr

/-- Why a command has no meaning. -/
inductive Refusal
  /-- The command has no meaning in the model yet; raised by `exec` only (safe). -/
  | notModelled (mnemonic : String)
deriving DecidableEq, Repr

/-- The operating modes (R44), in the order of GLB_MODE.MODE (R64). -/
inductive Mode | reset | wake | stage | run | drain | park
deriving DecidableEq, Repr

/-- The code of a mode in GLB_MODE.MODE (R64). -/
def Mode.code : Mode → Nat
  | .reset => 0 | .wake => 1 | .stage => 2 | .run => 3 | .drain => 4 | .park => 5

/-- A fatal fault whose record is not yet written (R61, R63); `fencing` where it is the one that fences forwarding. -/
structure FaultRec where
  code : Nat
  island : Nat
  mode : Mode
  time : Nat
  detail : List Nat
  fencing : Bool := false
deriving DecidableEq, Repr

/-- Operating mode, transitions, fence and WAKE progress (02_modes). -/
structure ModeSt where
  mode : Mode := .reset
  /-- GLB_MODE.FENCED (R64). -/
  fenced : Bool := false
  /-- A fatal fault fences forwarding, or ends WAKE; its record is not yet written (R45, R61). -/
  faultPending : Bool := false
  transition : Bool := false
  target : Mode := .reset
  cmdStatus : Nat := 0
  lastCmd : Nat := 0
  /-- The step of R46 that WAKE is known to have reached. -/
  wakeStep : Nat := 0
  wave : Nat := 0
  parkDone : Bool := false
  fullCal : Bool := false
  warming : Bool := false
  /-- GLB_WAKE_INFO bits [31:6] as one word (R66); the straps are held apart. -/
  wakeInfo : Nat := 0
  faultCode : Nat := 0
  faultIsland : Nat := 0
  /-- The run time of R53, once GO_RUN has been accepted. -/
  tRun : Option Nat := none
  /-- The drain time of R54, once a drain command has been accepted. -/
  tDrain : Option Nat := none
  /-- Master time has reached the drain time (R55). -/
  draining : Bool := false
  /-- RESET was entered by FULL_RESET (R45). -/
  byFullReset : Bool := false
  /-- REFCLK_00 matched a frequency at WAKE step 1 (R160): 0 none, 1 125 MHz, 2 156.25 MHz. -/
  coreRef : Nat := 0
  warmed : Bool := false
  /-- WAKE step 4: the stacks' temperatures have been read, whether one was below 0 °C, the die temperature that R47 uses, and
  when warming began and ended (R48). -/
  tempsRead : Bool := false
  coldAtWake : Bool := false
  dieAtWake : Int := 0
  warmFrom : Nat := 0
  warmTill : Nat := 0
  /-- The power in W that warming may draw (R48); 0 while the device does not warm. -/
  warmW : Nat := 0
  /-- Fatal faults whose records are still to be written, oldest first (R61, R63). -/
  faultRecs : List FaultRec := []
  /-- The DETAIL registers: what MRAM could not take of a fault record is held here until RESET (R63). -/
  faultDetail : List Nat := []
deriving DecidableEq, Repr

/-- Straps sampled at WAKE (R46) and what is fixed at manufacture (R120, R121). -/
structure Device where
  bootSel : Nat := 0
  partySel : Nat := 0
  sideAddr : Nat := 0
  uniqueId : Nat := 0
  codeAE : Bool := false
  stepping : Nat := 0
deriving DecidableEq, Repr

/-- The JTAG port between two scans (R157, R533): the instruction in force, what Update-DR last put into the boundary register, and the
bits that the last Shift-DR drove on TDO, the first lowest. Outside Shift-DR and Shift-IR TDO is not driven. -/
structure Tap where
  ir : Jtag := .bypass
  boundary : Nat := 0
  tdo : Nat := 0
deriving DecidableEq, Repr

/-- Pins (17_electrical) and what they last did. -/
structure Pins where
  resetN : Bool := false
  perstN : Bool := false
  /-- FAULT_N is asserted (driven low). -/
  faultN : Bool := false
  /-- VDD_CORE, VDD_MRAM and VDD_IO are in their windows (R540). -/
  supplies : Bool := true
  /-- PPS_OUT is high, and when it last rose, in elapsed time (R261). -/
  ppsOut : Bool := false
  ppsRise : Nat := 0
  /-- TIO pins that are active outputs now (R260), by pin number. -/
  tioOut : List Nat := []
  /-- TIO pins that are high (R262). -/
  tioIn : List Nat := []
  /-- TCK, TMS, TDI, TDO and TRST_N: RESET leaves the port as it is (R533). -/
  tap : Tap := {}
deriving DecidableEq, Repr

/-- The warden's registers and what has been sent to it (R144, R150, R151), and the date hint (R9, R47). -/
structure SideRegs where
  /-- W_CONFIRM (32 bytes as eight words) and W_KEY (R150). -/
  confirm : List Nat := [0, 0, 0, 0, 0, 0, 0, 0]
  key : List Nat := [0, 0, 0, 0, 0, 0, 0, 0]
  /-- W_EVENT and W_EVENT_EN (R150, R152); RESET leaves them. -/
  event : Nat := 0
  eventEn : Nat := 0x6F
  /-- The MSI messages of PF1 and the in-band interrupts of the side port sent so far, counted by the model, and the mandatory data
  byte of the latest interrupt (R151). -/
  msi : Nat := 0
  ibi : Nat := 0
  ibiByte : Nat := 0
  dateHint : Nat := 0
  dateHintWritten : Bool := false
  /-- The dynamic address that SETDASA or ENTDAA has given the side port, and the PEC byte of its last SMBus read (R153). -/
  dynamic : Option Nat := none
  pec : Nat := 0
deriving DecidableEq, Repr

/-- A protected change that awaits confirmation (R146). -/
structure Pending where
  item : Nat
  count : Nat
  values : List Nat
  nonce : Nat
  digest : List Byte
  /-- Elapsed time at the STAGE, from which the 10,000 ms window runs (R147). -/
  opened : Nat
deriving DecidableEq, Repr

/-- The protection block (04_setup_protection). -/
structure Prot where
  committed : Bool := false
  pending : Option Pending := none
  nonce : Nat := 0
  nonceFresh : Bool := false
  lastResult : Nat := 0
  vaultBlocked : Bool := false
  /-- The volatile key store: Ko and Kw (R154). -/
  ko : Option (List Byte) := none
  kw : Option (List Byte) := none
  /-- The state of the random bit generator (R154): its latest draw; 0 where it has been wiped. -/
  rng : Nat := 0
  /-- PRT_DIGEST, the digest last staged (R149). -/
  digest : List Byte := []
  scanActive : Bool := false
  debugActive : Bool := false
  /-- The latest zeroisation record, PRT_ZERO_LAST (R154). -/
  zeroLast : List Byte := []
deriving DecidableEq, Repr

/-- An image slot of MRAM (R135). -/
structure ImageSlot where
  valid : Bool := false
  bytes : List Byte := []
deriving DecidableEq, Repr

/-- The calibration cache (R47): its header and the lanes whose own entry fails its check. -/
structure Cache where
  headerOk : Bool := false
  createdSec : Nat := 0
  /-- Powered time since the cache was made, in seconds (R47). -/
  poweredSec : Nat := 0
  /-- Die temperature recorded in the cache, in 1/16 °C. -/
  dieTemp : Int := 0
  badLanes : List Nat := []
deriving DecidableEq, Repr

/-- MRAM: what survives RESET and power removal (R69). -/
structure Mram where
  vaultKo : Option (List Byte) := none
  vaultKw : Option (List Byte) := none
  slots : List ImageSlot := [{}, {}, {}, {}]
  autoload : Option Nat := none
  imageSerial : Nat := 0
  keyGenOp : Nat := 0
  keyGenWd : Nat := 0
  zeroLog : List (Nat × List Byte) := []
  zeroCount : Nat := 0
  /-- The fault log (R63): slot to record of 64 bytes. -/
  faultLog : List (Nat × List Byte) := []
  faultSeq : Nat := 0
  slot0Held : Bool := false
  /-- Fault records newer than the last acknowledgement (R526). -/
  faultNew : Nat := 0
  /-- The slot of the ring 1 to 15 the next record takes (R63). -/
  faultNext : Nat := 1
  /-- The health map (R518): bytes that differ from 0, by map offset. -/
  health : List (Nat × Byte) := []
  cache : Cache := {}
  /-- Sealing keys drawn since manufacture: the number of the latest is KEY_ID (R470). -/
  sealKeys : Nat := 0
  /-- MRM_PARK_CAP in W (R516). -/
  parkCap : Nat := 300
deriving DecidableEq, Repr

/-- One step of an image's apply (R132), with its section: a class D word written before anything else (R133), a staged
word, a command with the bytes of its buffer, a commit, protected items. -/
inductive ImageStep
  | early (sect off : Nat) (v : Word)
  | reg (sect off : Nat) (v : Word)
  | cmd (sect target opcode : Nat) (c : Cmd) (buf : List Byte)
  | commit (sect : Nat)
  | protect (sect serial : Nat) (items : List (Nat × List Nat))
deriving DecidableEq, Repr

/-- An image command in progress (R138). -/
structure ImageCmd where
  cmd : Nat
  slot : Nat
  /-- The image being stored, where its check passed. -/
  image : List Byte := []
  /-- The outcome so far: RESULT and SECTION (R138). -/
  result : Nat := 0
  sect : Nat := 0
  /-- The steps still to be done, and whether one has been taken whose answer is awaited: the RESULT and SECTION it gives
  unless it is OK. -/
  todo : List ImageStep := []
  waiting : Option (Nat × Nat) := none
  /-- It has failed while a commit was under way: what it did is undone once that is over. -/
  failed : Option (Nat × Nat) := none
  /-- The registers of R133 as they were before the apply. -/
  undo : List (Nat × Nat) := []
deriving DecidableEq, Repr

/-- The write-back of one descriptor slot: its 32 bytes once they are known (R76, R77). -/
structure WriteBack where
  slot : Nat
  bytes : Option (List Byte)
deriving DecidableEq, Repr

/-- A segment of the flight recorder's ring (R470). -/
structure Segment where
  seq : Nat
  slot : Nat
  keyId : Nat
  chainStart : Bool
  opened : Nat
  prevTag : List Byte
  records : List (List Byte) := []
  firstRecord : Nat := 0
  /-- Sealing time, cause and TAG once sealed. -/
  sealedAt : Option (Nat × Nat × List Byte) := none
deriving DecidableEq, Repr

/-- A readout under way: its slot, its descriptor, and the segment as it stood when the descriptor was fetched (R111). -/
structure Readout where
  slot : Nat
  desc : List Byte
  seg : Option Segment := none
deriving DecidableEq, Repr

/-- One descriptor ring (R74 to R82, R112). The fields CTRL, CFG and BASE took effect with stand here. -/
structure Ring where
  active : Bool := false
  stopping : Bool := false
  base : Nat := 0
  size : Nat := 64
  cfg : Nat := 0
  head : Nat := 0
  fetch : Nat := 0
  tail : Nat := 0
  /-- Descriptors fetched and not yet written back, in slot order (R77). -/
  work : List WriteBack := []
  armed : Bool := false
  /-- W of R112. -/
  w : Nat := 0
  /-- MOD as it has taken effect: at the enable and at each write-back (R80). -/
  mod : Nat := 1
  /-- When the holdoff timer started (R112). -/
  holdFrom : Option Nat := none
  /-- Frames admitted in the present turn (R94). -/
  turn : Nat := 0
deriving DecidableEq, Repr

/-- Event routing: per event ring the backlog, its sequence number and the LOSS flag to come (R101, R102). -/
structure EventRing where
  backlog : List (List Byte) := []
  seq : Nat := 0
  loss : Bool := false
deriving DecidableEq, Repr

/-- The host interface (03_host_rings): rings keyed by 64 × kind + number (kinds of R74 in order 0 to 4), event
backlogs, MSI-X table, pending bits, PCIe link. -/
structure HostIf where
  rings : List (Nat × Ring) := []
  events : List (Nat × EventRing) := []
  linkUp : Bool := false
  linkWidth : Nat := 0
  linkSpeed : Nat := 0
  /-- MSI-X table words that differ from reset, by byte offset in BAR4 (R71). -/
  msix : List (Nat × Word) := []
  /-- MSI-X vectors whose message is held pending (R112). -/
  msixPending : List Nat := []
  /-- The ring whose turn it is (R94). -/
  txTurn : Nat := 0
  /-- Messages sent so far on each vector, counted by the model. -/
  msiSent : List (Nat × Nat) := []
  /-- How many times every ring has been stopped without write-back (R72): an older completion has no ring left. -/
  epoch : Nat := 0
  /-- Descriptor requests of the readout ring in progress (R110). -/
  readouts : List Readout := []
deriving DecidableEq, Repr

/-- The latches of R8 and the held low words of R9, by party and offset. -/
structure Latches where
  /-- High words latched by low-word reads at the registers' own offsets: key 3 × offset + party code. -/
  high : List (Nat × Word) := []
  /-- The live view's own latches (R119). -/
  live : List (Nat × Word) := []
  /-- Held low words of 64-bit writes, by the low word's offset (R9). -/
  lowHeld : List (Nat × Word) := []
  /-- The data the last read returned (what the command answers its sender). -/
  rdata : Word := 0
deriving DecidableEq, Repr

/-- One accounting set (R34): ARRIVED, the counter of each fate code, the in-flight counts per parity. -/
structure AcctSet where
  arrived : Nat := 0
  fates : List (Nat × Nat) := []
  inflight0 : Nat := 0
  inflight1 : Nat := 0
deriving DecidableEq, Repr

/-! ### Lanes, quads, ports (05_lanes, 06_ports) -/

/-- A serial lane (R169 to R171). -/
structure Lane where
  los : Bool := false
  lol : Bool := false
  lock : Bool := false
  hiBer : Bool := false
  eye : Nat := 0
  /-- SER_LANE_STATUS.CAL_STATE. -/
  cal : Nat := 0
  /-- The command in progress: 1 ADAPT, 2 RESTORE, 3 PRBS31_NEAR, 4 PRBS31_LINE; 0 none. -/
  cmd : Nat := 0
  result : Nat := 0
  /-- Since when the lane has held lock free of LOS and LOL (R191). -/
  goodSince : Option Nat := none
  /-- Code errors of the last 1 ms, by elapsed time, and DSK markers in a row missing or out of column (R190). -/
  errs : List (Nat × Nat) := []
  missed : Nat := 0
  /-- The running disparity of its transmitter, and of its receiver once a group has shown it; true where positive (R173). -/
  txRd : Bool := false
  rxRd : Option Bool := none
  /-- The code groups that it sent last, after TX_INV (R168, R173). -/
  txGroups : List Nat := []
  /-- The symbols in its elastic buffer of 16 (R179). -/
  fill : Nat := 8
deriving DecidableEq, Repr

/-- A quad (R161, R162). -/
structure Quad where
  refOk : Bool := false
  refPpm : Int := 0
  pllLock : Bool := false
  mode : Nat := 0
  failed : Bool := false
deriving DecidableEq, Repr

/-- What a port is sending. -/
structure Sending where
  /-- The first cell of the frame being sent, and the queue it came from. -/
  frame : Nat
  queue : Nat
  start : Nat
  bytes : List Byte
  /-- Bytes that earlier fragments of the frame have carried (R218); 0 in its first. -/
  fragments : Nat := 0
  /-- The transmit stamp of its first fragment (R218, R245). -/
  stamp : Nat := 0
  /-- When the fragment of a preemptible frame must have ended, as judged at its start (R445, R446, R453). -/
  closing : Option Nat := none
deriving DecidableEq, Repr

/-- The training and credit state of a Tsuip port (R180 to R191). -/
structure Ts where
  /-- SER_TS_STATUS.STATE: 0 DISABLED, 1 DETECT, 2 LANES, 3 CONFIG, 4 ACTIVE, 5 RETRAIN. -/
  st : Nat := 0
  width : Nat := 0
  /-- Physical lanes of the quad in use to receive and to transmit, one bit each (R188). -/
  inUse : Nat := 0
  txUse : Nat := 0
  /-- Logical lanes the partner reports good, the WIDTH it last proposed in this training, and the WIDTH that this end last sent in it
  with ACK = 1; 0 for none yet (R187, R188). -/
  partnerGood : Nat := 0
  partnerWidth : Nat := 0
  ackedWidth : Nat := 0
  /-- The lane number that each physical receive lane of the quad carries, as its DSK sets gave it (R168). -/
  rxOrder : List (Nat × Nat) := []
  /-- When the present state's timer started; none where it is stopped. -/
  timer : Option Nat := none
  /-- Classes whose INIT has been received, and DSK with ACK = 1 received, since CONFIG was entered. -/
  initSeen : Nat := 0
  /-- Classes that have had an INIT since CONFIG was entered, whether or not it had to be repeated (R181). -/
  inited : Nat := 0
  ackSeen : Bool := false
  creditShort : Bool := false
  peerShort : Nat := 0
  /-- CONSUMED, LIMIT held and the partner's initial credit, per class (R180, R181). -/
  consumed : List Nat := [0, 0, 0, 0, 0, 0, 0, 0]
  limit : List Nat := [0, 0, 0, 0, 0, 0, 0, 0]
  initial : List Nat := [0, 0, 0, 0, 0, 0, 0, 0]
  /-- RETURNED per class, units withheld while above the high watermark, and units received per class (R182, R183). -/
  returned : List Nat := [0, 0, 0, 0, 0, 0, 0, 0]
  withheld : List Nat := [0, 0, 0, 0, 0, 0, 0, 0]
  received : List Nat := [0, 0, 0, 0, 0, 0, 0, 0]
  /-- LIMIT last advertised per class, and when (R182). -/
  advertised : List Nat := [0, 0, 0, 0, 0, 0, 0, 0]
  /-- SEQ of the next mark and the TX times of the last 256 marks (R184, R185). -/
  ttmSeq : Nat := 0
  ttmTx : List (Nat × Nat) := []
  /-- The partner's latest mark: SEQ, TX time, the device's receive stamp (R185). -/
  peerSeq : Nat := 0
  peerTx : List Nat := [0, 0, 0]
  devRx : Nat := 0
  peerHeard : Bool := false
  /-- The partner's echo: ECHO_VALID, ECHO_SEQ, its receive time; and the device's TX time of the mark it names. -/
  echoValid : Bool := false
  echoSeq : Nat := 0
  peerRx : List Nat := [0, 0, 0]
  devTx : Nat := 0
deriving DecidableEq, Repr

/-- A symbol of a Tsuip lane: a control symbol by its octet, or a data symbol (R173). -/
inductive Sym | k (code : Byte) | d (v : Byte)
deriving DecidableEq, Repr

/-- The transmit side of a Tsuip link: the queue of CYC marks, when each kind of ordered set last went out, and the columns
put on the medium last (R174, R177 to R188). Times are elapsed times. -/
structure TsOut where
  /-- Waiting marks, by edge time: generator, cycle number, edge time. -/
  marks : List (Nat × Nat × Nat) := []
  /-- By generator: since when its settings act, and the first edge whose mark has not been queued. -/
  next : List (Nat × Nat × Nat) := []
  dskSeq : Nat := 0
  skpAt : Nat := 0
  dskAt : Nat := 0
  ttmAt : Nat := 0
  crdAt : List (Nat × Nat) := []
  /-- The columns of the latest gap's ordered sets, or of the latest frame: one symbol for each logical lane. -/
  columns : List (List Sym) := []
deriving DecidableEq, Repr

/-- An Ethernet port and its MAC (06_ports). -/
structure Port where
  up : Bool := false
  /-- Since when the link has been good without a break (R199). -/
  goodSince : Option Nat := none
  holding : Bool := false
  holdFrom : Nat := 0
  /-- Alignment, alignment-marker or FEC lock of a multi-lane or RS-FEC receiver (R198). -/
  aligned : Bool := false
  /-- Local or remote fault signalling is being received (R198). -/
  faultSig : Bool := false
  /-- Clause 37 is complete, or a good SGMII control word has been received (R198). -/
  anDone : Bool := false
  /-- Master time at which a received pause ends, per priority (R210); priority 8 is the whole port. -/
  pausedTill : List (Nat × Nat) := []
  /-- Priorities whose XOFF is in force toward the partner (MAC_STATUS.XOFF_OUT), and when each was last sent. -/
  xoffOut : Nat := 0
  xoffAt : List (Nat × Nat) := []
  /-- Priorities with an XOFF, or an XON, still to be sent (R211). -/
  dueXoff : Nat := 0
  dueXon : Nat := 0
  /-- MAC_HEADROOM_STATUS.CELLS. -/
  headroom : Nat := 0
  /-- When the port last went down, and whether by ADMIN_UP: frames stamped before then are still judged (R200, R206). -/
  downAt : Option (Nat × Bool) := none
  /-- The medium is taken until then, the minimum gap included (R207). -/
  busyTill : Nat := 0
  /-- Verification of preemption: state, verify mPackets sent since the port went up, and in this run of it (R217, R229). -/
  verify : Nat := 0
  attempts : Nat := 0
  tries : Nat := 0
  verifyAt : Option Nat := none
  /-- Respond mPackets sent so far, counted by the model. -/
  responded : Nat := 0
  sending : Option Sending := none
  /-- A preempted frame whose fragments are still to come (R218). -/
  preempted : Option Sending := none
  /-- The bytes of the last frame the port put on the medium, and the physical lanes that carried it with TX_INV (R168). -/
  lastSent : List Byte := []
  lastLanes : List (Nat × Bool) := []
  ts : Ts := {}
  tsOut : TsOut := {}
deriving DecidableEq, Repr

/-- What becomes of a frame by the mode its stamp falls in. -/
inductive Handling
  /-- FATE_MODE. -/
  | refused
  /-- The staging filter (R50). -/
  | staged
  /-- The current generation. -/
  | forwarded
deriving DecidableEq, Repr

/-- A frame on the crossing from a MAC, the host port or the recirculation port to its ingress slice (R14, R15). -/
structure Incoming where
  port : Nat
  bytes : List Byte
  /-- The whole length where the bytes were cut at 16,000 (R201). -/
  length : Nat
  ts : Nat
  tsInvalid : Bool
  /-- Error flags in the order of R84. -/
  err : Nat
  /-- Ingress priority of a host frame, or the credit class of a Tsuip frame. -/
  prio : Nat
  /-- The frame overran its credit (R183). -/
  overrun : Bool
  meta16 : Nat
  /-- The direct form of a host frame: port, late bit, launch time, one-step bit (R90, R91). -/
  direct : Option (Nat × Bool × Option Nat)
  oneStep : Bool
  tsReq : Bool
  /-- The transmit ring, its slots and the ring epoch that await the frame's completion (R92). -/
  txRing : Option (Nat × List Nat × Nat)
  /-- The generation and the handling its stamp gave it before the latest SET or STEP that came while it waited (R36, R348). -/
  judged : Option (Nat × Handling) := none
deriving DecidableEq, Repr

/-- Lanes, quads and ports, keyed by number. -/
structure Links where
  lanes : List (Nat × Lane) := []
  quads : List (Nat × Quad) := []
  ports : List (Nat × Port) := []
  /-- Frames waiting before each slice, oldest first. -/
  ingress : List (Nat × List Incoming) := []
deriving DecidableEq, Repr

/-! ### Time base (07_time) -/

/-- A cycle generator: the k and time of its latest edge, and since when its settings, or the present course of the master time, act
(R256 to R258). -/
structure CycleGen where
  k : Option Nat := none
  at_ : Nat := 0
  since : Nat := 0
  /-- Its settings have taken effect and it has made no edge since: k counts anew. -/
  fresh : Bool := false
  /-- It has made an edge since its settings took effect. -/
  made : Bool := false
  /-- The last edge before `since`, where it was enabled then and had one, and since when the settings before that one's acted. -/
  lastOld : Option Nat := none
  oldSince : Nat := 0
deriving DecidableEq, Repr

/-- A capture unit (R262 to R266). -/
structure CapUnit where
  count : Nat := 0
  /-- Entries of four words, oldest first. -/
  fifo : List (List Nat) := []
  level : Bool := false
  stuck : Bool := false
  last : Option Nat := none
  activeSince : Option Nat := none
deriving DecidableEq, Repr

/-- A port's transmit time stamps (R247, R248). -/
structure TxStamps where
  seq : Nat := 0
  fifo : List (List Nat) := []
  lostFirst : Nat := 0
  lost : Nat := 0
deriving DecidableEq, Repr

/-- A SET or STEP that has not yet taken effect (R235): the time it acts at, the new time (SET) or the signed change in
nanoseconds (STEP), and whether it was accepted in RUN or DRAIN (R237). -/
structure Jump where
  due : Nat
  set : Option Nat
  step : Int
  inRun : Bool
deriving DecidableEq, Repr

/-- The time base (R230 to R269). -/
structure Tim where
  freqAdj : Int := 0
  /-- The part of a slew not yet added, in units of master time (R236). -/
  slewLeft : Int := 0
  jump : Option Jump := none
  /-- Later ones that wait behind it. -/
  jumps : List Jump := []
  cmdResult : Nat := 0
  adjSat : Bool := false
  calibrated : Bool := false
  ppsPresent : Bool := false
  refPresent : Bool := false
  holdover : Bool := false
  locked : Bool := false
  /-- When the lost reference came back (R240). -/
  refBack : Option Nat := none
  /-- When TIM_STATUS.FAULT last rose, and when it last fell: release resumes at generator edges from then on (R242, R243). -/
  faultFrom : Option Nat := none
  resumeFrom : Option Nat := none
  /-- When the replicas were last aligned (R28). -/
  aligned : Nat := 0
  /-- The delays of the time channels that WAKE measures, and the errors of the replicas in units (R28): 64 of quads, then 8 of egress
  slices. -/
  replicaDelay : List Nat := []
  replicaErr : List Int := []
  /-- The generators that have made no edge since TIM_STATUS.FAULT last fell (R243). -/
  heldGens : List Nat := []
  gens : List (Nat × CycleGen) := []
  caps : List (Nat × CapUnit) := []
  txf : List (Nat × TxStamps) := []
  /-- The latest PPS_IN stamp; NEW of TIM_PPS_IN_NS stands in its register (R261). -/
  ppsIn : Nat := 0
  /-- When each TIO output last started, the edge that its last pulse is for, and the pulses still due of edges that have been made
  (R260): the pin and when, in elapsed time. -/
  tioStart : List (Nat × Nat) := []
  tioEdge : List (Nat × Nat) := []
  tioDue : List (Nat × Nat) := []
  /-- The counter has stopped: the time base is being scanned in PARK (R69). -/
  stopped : Bool := false
deriving DecidableEq, Repr

/-! ### Frames, the buffer and the queues (12_buffers, 13_scheduling) -/

/-- What the parser found in a frame (R273 to R276). -/
structure Parsed where
  dmac : Nat := 0
  smac : Nat := 0
  /-- The TCIs of the VLAN tags, outer first. -/
  tags : List Nat := []
  etype : Nat := 0
  /-- The sequence number of the R-TAG. -/
  rtag : Option Nat := none
  /-- The offset of the user header, where there is one. -/
  udh : Option Nat := none
  l3 : Nat := 0
  l3off : Nat := 0
  l4 : Nat := 0
  l4off : Nat := 0
  frag : Bool := false
  sip : Nat := 0
  dip : Nat := 0
  proto : Nat := 0
  sport : Nat := 0
  dport : Nat := 0
  dscp : Nat := 0
  /-- The offset of the PTP header, where there is one. -/
  ptp : Option Nat := none
  /-- The malformed cause; 0 for none. -/
  mal : Nat := 0
  /-- The parse ended before a header beyond byte 256 (R274). -/
  deep : Bool := false
deriving DecidableEq, Repr

/-- A copy of a frame: its port and queue, whether it is a forwarding copy (R33), its REASON at the host port (R86), its
edit, its release and what has happened to it. -/
structure Copy where
  frame : Nat
  port : Nat
  queue : Nat
  fwd : Bool
  reason : Nat := 0
  /-- Its queue is a host queue named for it, which no IPV, QUEUE_EN or SETQ replaces (R433). -/
  named : Bool := false
  /-- The VID of its replication entry (R331). -/
  vid : Option Nat := none
  /-- The release time of a time-released copy (R450), or the deferred one (R454). -/
  release : Option Nat := none
  deferred : Bool := false
  late : Bool := false
  handed : Bool := false
  /-- Its handover deadline passed before it was ready (R452). -/
  missed : Bool := false
  /-- A Pdelay_Resp of the device (R255): its bytes, the request's ingress stamp and correction. -/
  device : Option (List Byte × Nat × Nat) := none
deriving DecidableEq, Repr

/-- A frame in the device: its frame record (R395), what the slice found, and what is still to be done for it. -/
structure Frame where
  bytes : List Byte := []
  par : Nat := 0
  /-- The generation number whose parity it carries (R341). -/
  gen : Nat := 0
  fate : Nat := 0
  prio : Nat := 0
  lossless : Bool := false
  headroom : Bool := false
  spilled : Bool := false
  error : Bool := false
  fr : Bool := false
  launch : Option Nat := none
  lateDrop : Bool := false
  hash : Nat := 0
  ts : Nat := 0
  tsInvalid : Bool := false
  stream : Nat := 0xFFFF
  deadline : Nat := 0
  inPort : Nat := 0
  meta16 : Nat := 0
  /-- A rule or a program gave the metadata (R84). -/
  metaSet : Bool := false
  holders : List Nat := []
  lastQueue : Nat := 0xFFF
  /-- The pointers of its cells, first cell first (R391, R392). -/
  chain : List Nat := []
  /-- How many of its basin cells a refill took at or below the floor of R397 (R419). -/
  low : Nat := 0
  /-- The reservoir channel its chain lies on, while spilled. -/
  channel : Nat := 0
  requester : Nat := 0
  stampUs : Nat := 0
  /-- The first of its cells that an EMIT added, and their STAMP_US (R391). -/
  grown : Option (Nat × Nat) := none
  /-- The part of its pair's charge that is this frame's (R407). -/
  charge : Nat := 0
  /-- Bytes read through an uncorrectable word (R404). -/
  damaged : Bool := false
  err : Nat := 0
  rule : Nat := 0xFFFF
  parsed : Parsed := {}
  touched : Bool := false
  /-- Since which elapsed time the ditch rider suspects it (R426). -/
  suspect : Option Nat := none
  leaked : Bool := false
  /-- Forwarding copies not finished, the outcomes so far (bit 0 transmitted, 1 recirculated, 2 host) and the lowest
  reason (R33). -/
  fwdLeft : Nat := 0
  outcomes : Nat := 0
  lowReason : Nat := 0
  /-- The copies it is to have once it leaves the engine stage. -/
  copies : List Copy := []
  /-- The program it runs (R286), the queue its gate or rule gave (R287), its next hop words (R363). -/
  prog : Option Nat := none
  queue : Option Nat := none
  nextHop : Option (Nat × Nat) := none
  /-- Every transmitted copy has DEI set (R293). -/
  dei : Bool := false
  oneStep : Bool := false
  tsReq : Bool := false
  txRing : Option (Nat × List Nat × Nat) := none
  /-- The reads of its words so far, each with its start and the time between words (R18, R19). -/
  reads : List (Nat × Nat) := []
  /-- The bytes were changed by an engine program. -/
  rewritten : Bool := false
  /-- The buckets it was looked up through and the path each gave (R24): set, group, bucket, path. -/
  paths : List (Nat × Nat × Nat × Nat) := []
  /-- LATE, DEFERRED and the transmit stamp with its sequence number, for its completion (R93). -/
  wasLate : Bool := false
  wasDeferred : Bool := false
  txStamp : Option (Nat × Nat) := none
  /-- The stamp was taken outside a time-base fault (R242). -/
  txStampOk : Bool := true
deriving DecidableEq, Repr

/-- An accounting pair (R407): charge A, headroom part HR, XOFF state (R410). -/
structure Pair where
  a : Nat := 0
  hr : Nat := 0
  xoff : Bool := false
deriving DecidableEq, Repr

/-- One entry of the leak list (R426). -/
structure Leak where
  frame : Nat
  ptr : Nat
  ageUs : Nat
  lastQueue : Nat
  cells : Nat
deriving DecidableEq, Repr

/-- The shared buffer and its manager. -/
structure Buf where
  frames : List (Nat × Frame) := []
  nextFrame : Nat := 0
  pairs : List (Nat × Pair) := []
  pressure : Bool := false
  /-- The sums of MIN and of headroom of the pool check (R413): as at reset, sixteen pairs of P256 and P258. -/
  sumMin : Nat := 512
  sumHr : Nat := 1024
  /-- Frames on the way from the slices to admission, oldest first (R408). -/
  arrivals : List Nat := []
  /-- Copies on the way to their queues, oldest first. -/
  plan : List Copy := []
  /-- Slices that hold a lossless frame after EMPTY (R399). -/
  holding : List Nat := []
  /-- Spills in progress: frame, reservoir channel and the cells taken there (R417). -/
  spilling : List (Nat × Nat × List Nat) := []
  /-- Refills in progress: frame and the basin cells taken (R418). -/
  refilling : List (Nat × List Nat) := []
  leaks : List Leak := []
  /-- Free basin cells whose free list is not that of their own INDEX mod 32, with the list they are on (R403). -/
  lists : List (Nat × Nat) := []
  /-- The first cells of frames that a checked free has returned (R401). -/
  gone : List (Nat × Nat) := []
  /-- Since when the rider's passes of the basin and of the reservoir run, and the lengths of the last ones (R425). -/
  passFrom : Nat := 0
  resPassFrom : Nat := 0
  lastPass : Nat := 0
  lastResPass : Nat := 0
  snaps : List AcctSet := []
  snapAt : Nat := 0
  snapCount : Nat := 0
  /-- When each limited event was last sent: BUFFER types 0 to 2 by type (R401), others by key 16 and up. -/
  lastEvent : List (Nat × Nat) := []
  /-- BPM_HBM_PART in GiB: reservoir, recorder ring, engine store (R420). -/
  resGib : Nat := 16
  recGib : Nat := 64
  esGib : Nat := 8
deriving DecidableEq, Repr

/-- A queue: its copies in order, DRR deficit, shaper level (R439, R440). The level is in parts of 1/(8·10^6 ns-units) of a
byte so that every rate adds a whole number. -/
structure Queue where
  copies : List Copy := []
  deficit : Nat := 0
  level : Int := 0
  levelAt : Nat := 0
  /-- The two generations of the last never-fits reports, the later one first (R449). -/
  nfGens : List Nat := []
deriving DecidableEq, Repr

/-- A port's scheduler: the round pointer of each group, the port shaper, and whether copies are discarded at enqueue
(R222). -/
structure PortSched where
  ptr : List Nat := [0, 1, 2, 3, 4, 5, 6, 7]
  level : Int := 0
  levelAt : Nat := 0
  shut : Bool := false
  /-- The copy being sent, delivered or taken, and one that stands preempted (R218). -/
  sending : Option Copy := none
  parked : Option Copy := none
deriving DecidableEq, Repr

/-- Queues by 8 × port + number, and ports. -/
structure Egress where
  queues : List (Nat × Queue) := []
  ports : List (Nat × PortSched) := []
deriving DecidableEq, Repr

/-! ### Tables (08_parsing, 09_tables) -/

/-- A TCAM rule (R280, R286): its 24 words and its validity in each parity. -/
structure Rule where
  words : List Nat
  v0 : Bool := false
  v1 : Bool := false
  hits : Nat := 0
deriving DecidableEq, Repr

/-- An FDB entry (R310): MAC and FID, the word at 0x08 less ACTIVE and VALID, activity, validity. -/
structure FdbEntry where
  mac : Nat
  fid : Nat
  info : Nat
  active : Bool := false
  v0 : Bool := false
  v1 : Bool := false
  /-- Learned in a deterministic domain (GEN_LEARN_STAGED, R355). -/
  learned : Bool := false
deriving DecidableEq, Repr

/-- A replication entry (R331). -/
structure Repl where
  w0 : Nat
  w1 : Nat
  v0 : Bool := false
  v1 : Bool := false
deriving DecidableEq, Repr

/-- A route (R324 to R327): the result it has in each parity. -/
structure Route where
  v6 : Bool
  len : Nat
  addr : Nat
  r0 : Option Nat := none
  r1 : Option Nat := none
deriving DecidableEq, Repr

/-- A learn request (R315). -/
structure LearnReq where
  mac : Nat
  fid : Nat
  domain : Nat
  mode : Nat
  kind : Nat
  dest : Nat
  port : Nat
  par : Nat
deriving DecidableEq, Repr

/-- Filter, meter, recovery and gate state, with counters in the order of R297. -/
structure Filter where
  ctr : List Nat := [0, 0, 0, 0, 0]
  blocked : Bool := false
deriving DecidableEq, Repr

structure Meter where
  c : Nat := 0
  e : Nat := 0
  last : Option Nat := none
  /-- Commits that have changed its words and that no frame of theirs has met yet: the generation and the words (R294). -/
  changes : List (Nat × List Nat) := []
  ctr : List Nat := [0, 0, 0]
deriving DecidableEq, Repr

structure Recovery where
  recSeq : Nat := 0
  hist : Nat := 0
  span : Nat := 0
  takeAny : Bool := true
  lastPass : Option Nat := none
  /-- Generations that have changed ALGORITHM or HISTORY_LENGTH and of which it has met no frame yet (R295). -/
  changes : List Nat := []
  ctr : List Nat := [0, 0, 0, 0, 0, 0, 0]
deriving DecidableEq, Repr

structure StreamGate where
  ctr : List Nat := [0, 0]
  latched : Bool := false
deriving DecidableEq, Repr

/-- Every table of chapters 8 and 9. -/
structure Tables where
  /-- Directly indexed structures: key 2 × (2^20 × table + index) + parity; tables 0 STR, 1 HGT, 2 NHP, 3 MCG groups. -/
  vals : List (Nat × List Nat) := []
  rules : List (Nat × Rule) := []
  fdb : List (Nat × FdbEntry) := []
  repl : List (Nat × Repl) := []
  routes : List Route := []
  learnQ : List LearnReq := []
  filters : List (Nat × Filter) := []
  meters : List (Nat × Meter) := []
  recoveries : List (Nat × Recovery) := []
  sgates : List (Nat × StreamGate) := []
  /-- TCAM entries whose bits stand cleared until repair, with the bits to restore (R285). -/
  tcamBad : List (Nat × (Bool × Bool)) := []
  /-- Words with a parity error not yet repaired: memory code, index, and the pair of slices whose copy it is (R338). -/
  bad : List (Nat × Nat × Nat) := []
  /-- The path each bucket carries: key 2^24 × set + 256 × group + bucket; sets 0 LAG, 1 ECMP, 2 engines, 3 reservoir. -/
  carry : List (Nat × Nat) := []
  /-- Buckets whose wanted path differs from the one they carry: since when, and the number of the carried path in the member list that
was in force then (R330). -/
  moves : List (Nat × (Nat × Nat)) := []
  /-- The FDB slots that the latest relocation of a learn moves between, and when it is over, in elapsed time (R313, R336). -/
  moving : List Nat := []
  movingTill : Nat := 0
  /-- When the sweep last visited an FDB slot, in elapsed time (R321). -/
  visited : List (Nat × Nat) := []
  /-- LPM_UNITS as they stood when the old parity was given up, shown until the commit completes (R326). -/
  unitsHeld : Nat := 0
  /-- When the last LEARN event of type 3 went out (R320). -/
  fullAt : Option Nat := none
  /-- BUSY, and the write-back image, of the table command register (R337). -/
  tcmdBusy : Bool := false
deriving DecidableEq, Repr

/-! ### Generations (10_generations) -/

/-- Who waits for the answer of a command: ring 0 to 7, the table command register, an image; its TAG. -/
structure Waiter where
  via : CmdVia
  target : Nat
  opcode : Nat
  tag : Nat
  slot : Nat
  epoch : Nat
deriving DecidableEq, Repr

/-- A table command that waits under R352, or behind one of its own ring (R100): who asks, and its descriptor. -/
structure Held where
  who : Waiter
  cmd : Cmd
deriving DecidableEq, Repr

/-- The commit engine (R347 to R357). -/
structure Gen where
  /-- GEN_STATUS.STATE: 0 IDLE, 1 CHECKING, 2 ACCEPTED, 3 COMPLETING, 4 SETTLING, 5 DISCARDING. -/
  st : Nat := 0
  current : Nat := 0
  lastStatus : Nat := 0
  dirty : Bool := false
  learnPending : Bool := false
  /-- The commit being made: its chosen time (COMMIT_AT), whether it is automatic, who awaits its write-back, at which
  end. -/
  timed : Option Nat := none
  auto : Bool := false
  waiter : Option Waiter := none
  waitIdle : Bool := false
  /-- T of the accepted commit until it has taken effect (R348). -/
  effectAt : Option Nat := none
  /-- A SET or STEP has made the accepted commit take effect: whatever is stamped after it carries the new number (R348). -/
  byJump : Bool := false
  /-- T of the latest accepted commit, as GEN_T shows it. -/
  lastT : Nat := 0
  /-- T of the latest commit that took effect; 0 once a SET or STEP has left it behind (R348). -/
  lastEffect : Nat := 0
  /-- When it did, in elapsed time, for GEN_COMPLETE_US. -/
  startedAt : Nat := 0
  /-- The in-use values before it, by offset, for frames stamped earlier (R206). -/
  before : List (Nat × Word) := []
  completeUs : Nat := 0
  /-- When the first learned entry was staged since the last accepted commit, or the last deferral (R354). -/
  autoFrom : Option Nat := none
  /-- Clamp reports of the last range check (R127, R357). -/
  reports : Nat := 0
  held : List Held := []
  /-- At least one commit has completed (R52). -/
  completed : Bool := false
deriving DecidableEq, Repr

/-! ### Engines (11_engines) -/

/-- A context of an engine (R362, R363). -/
structure Context where
  frame : Nat
  /-- The context's number in its engine, 0 to 63. -/
  num : Nat
  pc : Nat
  regs : List Nat
  preds : Nat := 0
  window : List Byte
  /-- The window's length when the frame entered. -/
  loaded : Nat
  /-- Results pending: register 0 to 15, or 16 + predicate, and the cycle from which it is usable (R366). -/
  waits : List (Nat × Nat) := []
  /-- The engine-store address of an ESL in flight (R371). -/
  parked : Option Nat := none
  /-- The EMIT that waits for growth cells (R373): its control word and the cells needed. -/
  growing : Option (Nat × Nat) := none
deriving DecidableEq, Repr

/-- A frame in an engine: when it entered, and whether its work there is done (R359). -/
structure EngineSlot where
  frame : Nat
  entered : Nat
  done : Bool
deriving DecidableEq, Repr

/-- One engine: its input queue, the frames that entered it in order, its contexts in order of entry, its cycle counter. -/
structure Engine where
  input : List Nat := []
  order : List EngineSlot := []
  contexts : List Context := []
  cycle : Nat := 0
deriving DecidableEq, Repr

/-- A registered program (R377): its length, W, whether it has an ESL. -/
structure Program where
  len : Nat
  w : Nat
  esl : Bool
deriving DecidableEq, Repr

/-- The engine clusters. -/
structure Engines where
  engines : List (Nat × Engine) := []
  /-- Bundles: key ((2 × cluster + parity) × 8,192 + address), four words. -/
  bundles : List (Nat × List Nat) := []
  /-- Registered programs, keyed as bundles by their START. -/
  programs : List (Nat × Program) := []
  /-- Table bank words: key (2 × cluster + parity) × 16,384 + word. -/
  banks : List (Nat × Nat) := []
  /-- Working area words: key cluster × 32,768 + word; an unlisted word is undefined (R374). -/
  work : List (Nat × Nat) := []
  /-- Engine store words by word address; an unlisted word is undefined. -/
  store : List (Nat × Nat) := []
  /-- Bundle and table-bank words with an uncorrectable error, until repair (R385): cluster, 0 bundle or 1 bank, key. -/
  bad : List (Nat × Nat × Nat) := []
  /-- When each cluster last sent a fault event (R384). -/
  faultAt : List (Nat × Nat) := []
  /-- The last 16 edges of each generator, newest first: k and time (R376). -/
  edges : List (Nat × List (Nat × Nat)) := []
deriving DecidableEq, Repr

/-! ### The flight recorder (14_recorder) -/

/-- A region (R473, R480). -/
structure Region where
  /-- 1 post-trigger part running, 2 frozen. -/
  st : Nat
  trigger : Nat
  detail : Nat
  time : Nat
  seqs : List Nat
  /-- Segments still to be opened in its post-trigger part. -/
  postLeft : Nat
  lost : Nat := 0
deriving DecidableEq, Repr

/-- An assembled record that waits to be written (R466, R467): its bytes, its cells, whether it may be refused. -/
structure RecWait where
  kind : Nat
  bytes : List Byte
  cells : Nat
deriving DecidableEq, Repr

/-- The recorder. -/
structure Recorder where
  /-- Whole segments of P257's ring: slots per channel and the channels in it (R469). -/
  perChannel : Nat := 0
  channels : List Nat := []
  key : Option (List Byte) := none
  oldKey : Option (Nat × List Byte) := none
  /-- No segment has been sealed under the key drawn at WAKE: the open one starts the chain (R470, R476). -/
  chainStart : Bool := false
  prevTag : List Byte := []
  nextSeq : Nat := 0
  nextSlot : Nat := 0
  current : Option Segment := none
  /-- Sealed segments still in the ring, by SEQ. -/
  segments : List (Nat × Segment) := []
  regions : List (Nat × Region) := []
  /-- The region whose post-trigger part is running. -/
  post : Option Nat := none
  backlog : List RecWait := []
  recordSeq : Nat := 0
  /-- Refusals of cause 1 or 2 since the last record, and the time of the first (R466). -/
  refused : Nat := 0
  refusedAt : Nat := 0
  /-- Loss counts by stream handle. -/
  loss : List (Nat × Nat) := []
  lastTake : Nat := 0
  /-- Trigger 4: frames counted in the present window, and when it began (R472). -/
  fateCount : Nat := 0
  windowFrom : Nat := 0
  /-- A trigger has taken effect in this buffer-core cycle (R472). -/
  taken : Bool := false
  /-- The sealing of the open segment is done for this DRAIN (R56). -/
  sealedForDrain : Bool := false
deriving DecidableEq, Repr

/-! ### Performance counters (15_counters) -/

/-- A programmable counter that is not off (R486 to R490). -/
structure PmuCtr where
  /-- The counter's 48-bit value; in window mode the published total. -/
  value : Nat := 0
  /-- Elapsed time when its settings took effect, and up to which threshold cycles are counted. -/
  since : Nat := 0
  /-- Bytes by window number (R489). -/
  windows : List (Nat × Nat) := []
  /-- The first window that begins after the settings, and whether one has been published; its rate and number. -/
  first : Nat := 0
  valid : Bool := false
  rate : Nat := 0
  win : Nat := 0
deriving DecidableEq, Repr

/-- The counter units: counters by 8 × unit + number; latches of the two paths; sync latches by unit. -/
structure Pmu where
  ctrs : List (Nat × PmuCtr) := []
  /-- HI, CYC (low, high), RATE, WIN: key 2 × (8 × unit + number) + path. -/
  latched : List (Nat × List Nat) := []
  sync : List (Nat × (Nat × Nat)) := []
  /-- Elapsed time at which a unit's island last left reset, where that was after WAKE (R485, R521). -/
  bases : List (Nat × Nat) := []
  /-- Numbers the free values of counts that the spec leaves to timing (assumption 176). -/
  tries : Nat := 0
deriving DecidableEq, Repr

/-! ### Units and self-test (16_service_test, 17_electrical) -/

/-- A transition in progress (R502, SVC_PEND): 1 leaving, 2 copying, 3 returning. -/
structure Transition where
  kind : Nat
  index : Nat
  phase : Nat
  target : Nat
  started : Nat
  /-- The spare being filled, for a copy. -/
  spare : Option Nat := none
  auto : Bool := false
  waiter : Option Waiter := none
deriving DecidableEq, Repr

/-- A retirement to be written to the health map (R512): kind, index, cause, spare. -/
structure HealthNote where
  kind : Nat
  index : Nat
  cause : Nat
  spare : Option Nat
deriving DecidableEq, Repr

/-- Service states and the PARK run. -/
structure Service where
  /-- Unit states other than 0: key 1,024 × KIND + INDEX. -/
  states : List (Nat × Nat) := []
  transitions : List Transition := []
  /-- Basin spares in use: group → bank (SVC_BASIN_SPARE). -/
  spares : List (Nat × Nat) := []
  /-- Logical channels mapped away from their own pseudo-channel: channel → INDEX; lost ones apart. -/
  map : List (Nat × Nat) := []
  lostChannels : List Nat := []
  /-- Tests running: kind, index, MARK, who awaits the result (R507). -/
  tests : List (Nat × Nat × Bool × Waiter) := []
  notes : List HealthNote := []
  /-- PARK: when it began, since when the present wave runs, batches started in it. -/
  parkFrom : Nat := 0
  waveFrom : Nat := 0
  batches : Nat := 0
  /-- New batches wait until the die cools below 105 °C (R551). -/
  hot : Bool := false
  capW : Nat := 300
  peakW : Nat := 0
  /-- Map entries that keep their result in this PARK: of blocks that a fatal fault in it has marked failed (R45), and of quads
whose PLL failed in wave 1 (R515). -/
  parkFailed : List Nat := []
  /-- Islands whose scan chains INT_SCAN has shifted since they left service (R521). -/
  scanned : List Nat := []
deriving DecidableEq, Repr

/-- What the commands of an image may change, as it was before the apply (R132), where some command names its target: the tables, the
engine stores, service states and the health map, the recorder, the buffer; and the registers with the generation number. -/
structure ImageUndo where
  tab : Option Tables := none
  eng : Option Engines := none
  svc : Option (Service × List (Nat × Byte)) := none
  recd : Option Recorder := none
  buf : Option Buf := none
  regs : List (Nat × Word) := []
  current : Nat := 0
deriving DecidableEq, Repr

/-- The image registers' own state (R138). -/
structure ImageSt where
  busy : Option ImageCmd := none
  result : Nat := 0
  sect : Nat := 0
  /-- The status of the command or commit that the image has given, once it has been answered. -/
  answer : Option Nat := none
  undo : ImageUndo := {}
deriving DecidableEq, Repr

/-- Sensor readings in 1/16 °C, and what has been done about them (R550). -/
structure Thermal where
  read : Bool := false
  temps : Temps := ⟨0, 0, 0, 0, 0⟩
  /-- The die was above 120 °C at the last sample. -/
  hotOnce : Bool := false
  /-- Sensors whose alarm has been sent and whose reading has not yet fallen 5 °C. -/
  alarmed : List Nat := []
  /-- Stacks at the doubled refresh rate. -/
  fastRefresh : List Nat := []
  /-- When each supply alarm was last sent (R538). -/
  supplyAt : Option Nat := none
deriving DecidableEq, Repr

/-- The whole block. -/
structure State where
  md : ModeSt := {}
  dev : Device := {}
  pins : Pins := {}
  side : SideRegs := {}
  prot : Prot := {}
  mram : Mram := {}
  img : ImageSt := {}
  host : HostIf := {}
  lat : Latches := {}
  /-- The nine accounting sets (R34). -/
  acct : List AcctSet := [{}, {}, {}, {}, {}, {}, {}, {}, {}]
  lk : Links := {}
  tim : Tim := {}
  buf : Buf := {}
  eg : Egress := {}
  tab : Tables := {}
  gen : Gen := {}
  eng : Engines := {}
  recd : Recorder := {}
  pmu : Pmu := {}
  svc : Service := {}
  therm : Thermal := {}
  /-- Stored registers that differ from their reset values (Machine/Regs.lean). -/
  regs : List (Nat × Word) := []
  /-- Host memory (assumption 4). -/
  hmem : List (Nat × Byte) := []
  /-- Master time in units of 10^-6 × 2^-48 ns (R230, assumption 21). -/
  now : Nat := 0
  /-- Time since WAKE began, which no SET moves: what the island clocks count (R485). -/
  elapsed : Nat := 0
  /-- The model's own counter of free values (assumption 2). -/
  free : Nat := 0
  /-- Commands that wait, first in, first out. -/
  pending : List Instr := []
deriving DecidableEq, Repr

/-- The machine right after power is applied and RESET holds (R45, R68): every field at the reset value of its
declaration. -/
def State.reset : State := {}

end Sys2Proof.Machine
end

