-- ==== Sys2Proof/Machine/Coding.lean ====
section
/-! DEFINITION. The 8b/10b code of the lanes (R173): code groups, running disparity, and what a receiver makes of a group. The code
tables are those of IEEE 802.3 Clause 36, which R173 names and the spec does not repeat (PRESUMED, assumption 168). -/

namespace Sys2Proof.Machine

open Sys2Proof

/-- The number of ones among `n` bits. -/
def onesIn (n v : Nat) : Nat := ((List.range n).map fun i => v / 2 ^ i % 2).sum

/-- The 6-bit groups abcdei of D.0 to D.31 at negative running disparity, a in the highest bit. -/
def code6 : List Nat :=
  [0b100111, 0b011101, 0b101101, 0b110001, 0b110101, 0b101001, 0b011001, 0b111000,
   0b111001, 0b100101, 0b010101, 0b110100, 0b001101, 0b101100, 0b011100, 0b010111] ++
  [0b011011, 0b100011, 0b010011, 0b110010, 0b001011, 0b101010, 0b011010, 0b111010,
   0b110011, 0b100110, 0b010110, 0b110110, 0b001110, 0b101110, 0b011110, 0b101011]

/-- The 4-bit groups fghj of D.x.0 to D.x.7 at negative running disparity. -/
def code4 : List Nat := [0b1011, 0b1001, 0b0101, 0b1100, 0b1101, 0b1010, 0b0110, 0b1110]

/-- Running disparity after a group of `n` bits: positive where ones prevail, as before where they balance. -/
def rdAfter (rd : Bool) (n v : Nat) : Bool :=
  if n < 2 * onesIn n v then true else if 2 * onesIn n v < n then false else rd

/-- The 10-bit groups of the control symbols of R173 at negative running disparity, by octet. -/
def codeK : List (Nat × Nat) :=
  [(0xBC, 0b0011111010), (0xFB, 0b1101101000), (0xFD, 0b1011101000), (0xFE, 0b0111101000), (0x3C, 0b0011111001),
   (0x5C, 0b0011110101), (0x7C, 0b0011110011), (0xDC, 0b0011110110), (0xF7, 0b1110101000)]

/-- The code group of a data octet at a running disparity; D.x.A7 where D.x.P7 would give a run of five. -/
def codeD (rd : Bool) (v : Nat) : Nat :=
  let x := v % 32
  let y := v / 32 % 8
  let six := code6.getD x 0
  let a := if rd && (onesIn 6 six != 3 || x == 7) then 63 - six else six
  let mid := rdAfter rd 6 a
  let alt := y == 7 && (if mid then [11, 13, 14].contains x else [17, 18, 20].contains x)
  let four := if alt then 0b0111 else code4.getD y 0
  let b := if mid && (onesIn 4 four != 2 || y == 3) then 15 - four else four
  a * 16 + b

/-- The code group of a symbol at a running disparity. -/
def codeOf (rd : Bool) : Sym → Nat
  | .k c =>
    let g := ((codeK.find? fun k => k.1 == c.toNat).map (·.2)).getD 0
    if rd then 1023 - g else g
  | .d v => codeD rd v.toNat

/-- The code groups of symbols in order, and the running disparity after them. -/
def codeAll (rd : Bool) : List Sym → List Nat × Bool
  | [] => ([], rd)
  | x :: xs =>
    let g := codeOf rd x
    let r := codeAll (rdAfter rd 10 g) xs
    (g :: r.1, r.2)

/-- The group is one of a data octet, or of a control symbol of R173, at a running disparity. -/
def groupLegal (rd : Bool) (g : Nat) : Bool :=
  (codeK.any fun k => (if rd then 1023 - k.2 else k.2) == g) || (List.range 256).any fun v => codeD rd v == g

/-- A receiver judges groups in order: the number that are invalid, of a control symbol outside R173's table, or of the wrong disparity, and
the running disparity after them. With none yet, either is accepted (R173). -/
def judgeGroups : Option Bool → List Nat → Nat × Option Bool
  | rd, [] => (0, rd)
  | rd, g :: gs =>
    let fits := match rd with
      | some r => groupLegal r g
      | none => groupLegal false g || groupLegal true g
    let next := match rd with
      | some r => some (rdAfter r 10 g)
      | none => if groupLegal false g && groupLegal true g then none else some (rdAfter (groupLegal true g) 10 g)
    let r := judgeGroups next gs
    ((if fits then 0 else 1) + r.1, r.2)

end Sys2Proof.Machine
end

