-- ==== Sys2Proof/Machine/RegMap.lean ====
section
/-! DEFINITION. The register map of BAR0 (R118) as data: for every block its base, instances and stride, and for every
register its offset, array shape, class (R122), width and fields with their access codes (R5), reset values and legal
ranges. Each row's comment names the register and the rule of spec/ that gives it. A reset value the spec does not
give is 0 here (assumption 1); INVENTORY.md lists which. -/

namespace Sys2Proof.Machine

/-- The access codes of R5. -/
inductive Access | rw | ro | rc | w1c | w1s | wo | rwl
deriving DecidableEq, Repr

/-- The register classes of R122; `s` is a status register, counter or trigger of a class D block. -/
inductive RegClass | c | g | d | s
deriving DecidableEq, Repr

/-- How the reset value of a field is given: a number, or a value that depends on the register's index. -/
inductive Reset | lit (n : Nat) | idx | mod120 | div30 | mod30 | below256 | home (k : Nat)
deriving DecidableEq, Repr

/-- The legal values of a class C or G field (R125): any, a range, or a relation the commit's check computes. -/
inductive Legal | any | rng (lo hi : Nat) | special | rngSpecial (lo hi : Nat)
deriving DecidableEq, Repr

/-- One field of a register. -/
structure RegField where
  hi : Nat
  lo : Nat
  acc : Access
  reset : Reset
  legal : Legal
  guarantee : Bool
deriving DecidableEq, Repr

/-- A field with no range check. -/
def RegField.f (hi lo : Nat) (acc : Access) (reset : Reset) : RegField := ⟨hi, lo, acc, reset, .any, false⟩

/-- A field with its legal values and whether it is guarantee-relevant (R126). -/
def RegField.g (hi lo : Nat) (acc : Access) (reset : Reset) (legal : Legal) (guarantee : Bool) : RegField :=
  ⟨hi, lo, acc, reset, legal, guarantee⟩

/-- One register of a block: `cnt` copies `step` bytes apart, the first with index `start`. -/
structure RegRow where
  off : Nat
  cnt : Nat
  step : Nat
  start : Nat
  cls : RegClass
  wide : Bool
  fields : List RegField
deriving DecidableEq, Repr

/-- The register blocks of R118. -/
inductive Blk
  | glb | pci | rng | prt | gen | tim | recorder | bpm | svc | mrm | fdb | lpm | nhp | mcg | str | prs | cls | hgt | eng | pmu | ser | mac | que | sch | gcl
deriving DecidableEq, Repr

/-- One block of the BAR0 map. -/
structure RegBlock where
  blk : Blk
  base : Nat
  inst : Nat
  stride : Nat
  rows : List RegRow
deriving DecidableEq, Repr

/-- Registers of block GLB, part 0. -/
def rowsGlb0 : List RegRow :=
  [⟨0, 1, 4, 0, .s, false, [.f 15 0 .ro (.lit 0x8256), .f 19 16 .ro (.lit 0), .f 20 20 .ro (.lit 0)]⟩, -- GLB_ID, R121
   ⟨8, 1, 4, 0, .s, true, [.f 63 0 .ro (.lit 0)]⟩, -- GLB_UNIQUE, R120
   ⟨0x20, 1, 4, 0, .s, false, [.f 2 0 .ro (.lit 0), .f 3 3 .ro (.lit 0), .f 4 4 .ro (.lit 0), .f 7 5 .ro (.lit 0), .f 8 8 .ro (.lit 0), .f 9 9 .ro (.lit 0), .f 10 10 .ro (.lit 0), .f 15 12 .ro (.lit 0), .f 23 16 .ro (.lit 0), .f 27 24 .ro (.lit 0), .f 31 28 .ro (.lit 0)]⟩, -- GLB_MODE, R64
   ⟨0x24, 1, 4, 0, .d, false, [.f 3 0 .wo (.lit 0), .f 8 8 .wo (.lit 0), .f 31 16 .wo (.lit 0)]⟩, -- GLB_MODE_CMD, R65
   ⟨0x28, 1, 4, 0, .s, false, [.f 1 0 .ro (.lit 0), .f 2 2 .ro (.lit 0), .f 5 3 .ro (.lit 0), .f 6 6 .ro (.lit 0), .f 7 7 .ro (.lit 0), .f 8 8 .ro (.lit 0), .f 9 9 .ro (.lit 0), .f 10 10 .ro (.lit 0), .f 11 11 .ro (.lit 0), .f 12 12 .ro (.lit 0), .f 13 13 .ro (.lit 0), .f 14 14 .ro (.lit 0), .f 15 15 .ro (.lit 0), .f 31 16 .ro (.lit 0)]⟩, -- GLB_WAKE_INFO, R66
   ⟨0x2c, 1, 4, 0, .s, false, [.f 15 0 .ro (.lit 0), .f 23 16 .ro (.lit 0), .f 24 24 .ro (.lit 0), .f 25 25 .ro (.lit 0)]⟩, -- GLB_FAULT_STATUS, R67
   ⟨0x30, 1, 4, 0, .s, true, [.f 63 0 .ro (.lit 0)]⟩, -- GLB_DATE_HINT, R67
   ⟨0x40, 1, 4, 0, .s, false, [.f 0 0 .ro (.lit 1), .f 1 1 .w1c (.lit 0), .f 2 2 .w1c (.lit 0), .f 3 3 .ro (.lit 0), .f 4 4 .w1c (.lit 0), .f 5 5 .ro (.lit 0), .f 6 6 .w1c (.lit 0)]⟩, -- GLB_GUARANTEE, R41
   ⟨0x50, 1, 4, 0, .d, false, [.f 0 0 .rw (.lit 0), .f 1 1 .rw (.lit 0)]⟩, -- GLB_CLAMP_CTRL, R128
   ⟨0x54, 1, 4, 0, .s, false, [.f 15 0 .ro (.lit 0), .f 16 16 .ro (.lit 0), .f 17 17 .ro (.lit 0)]⟩, -- GLB_CLAMP_STATUS, R128
   ⟨0x58, 1, 4, 0, .s, false, [.f 31 0 .ro (.lit 0)]⟩, -- GLB_CLAMP_TOTAL, R120
   ⟨0x60, 1, 4, 0, .d, true, [.f 63 0 .rw (.lit 0)]⟩, -- GLB_IMAGE_ADDR, R120
   ⟨0x68, 1, 4, 0, .d, false, [.f 3 0 .wo (.lit 0), .f 5 4 .wo (.lit 0)]⟩, -- GLB_IMAGE_CMD, R138
   ⟨0x6c, 1, 4, 0, .s, false, [.f 0 0 .ro (.lit 0), .f 7 4 .ro (.lit 0), .f 15 8 .ro (.lit 0)]⟩, -- GLB_IMAGE_STATUS, R138
   ⟨0x70, 4, 4, 0, .s, false, [.f 0 0 .ro (.lit 0), .f 1 1 .ro (.lit 0), .f 15 2 .ro (.lit 0), .f 31 16 .ro (.lit 0)]⟩, -- GLB_IMAGE_SLOT, R138
   ⟨0x80, 4, 8, 0, .c, true, [.f 47 0 .rw (.lit 0), .f 63 63 .rw (.lit 0)]⟩, -- GLB_MGMT_MAC, R120
   ⟨0x1000, 256, 0x10, 0, .s, false, [.f 31 0 .ro (.lit 0)]⟩, -- GLB_CLAMP_LOG_FIELD, R127
   ⟨0x1004, 256, 0x10, 0, .s, false, [.f 31 0 .ro (.lit 0)]⟩, -- GLB_CLAMP_LOG_WRITTEN, R127
   ⟨0x1008, 256, 0x10, 0, .s, false, [.f 31 0 .ro (.lit 0)]⟩, -- GLB_CLAMP_LOG_USED, R127
   ⟨0x100c, 256, 0x10, 0, .s, false, [.f 15 0 .ro (.lit 0), .f 16 16 .ro (.lit 0), .f 17 17 .ro (.lit 0), .f 31 24 .ro (.lit 0)]⟩] -- GLB_CLAMP_LOG_INFO, R127

/-- Registers of block PCI, part 0. -/
def rowsPci0 : List RegRow :=
  [⟨0, 1, 4, 0, .s, false, [.f 3 0 .ro (.lit 0), .f 9 4 .ro (.lit 0), .f 10 10 .ro (.lit 0)]⟩, -- PCI_LINK, R121
   ⟨4, 1, 4, 0, .s, false, [.f 31 0 .rc (.lit 0)]⟩, -- PCI_AER_CORR, R121
   ⟨8, 1, 4, 0, .s, false, [.f 31 0 .rc (.lit 0)]⟩, -- PCI_AER_UNCORR, R121
   ⟨0xc, 1, 4, 0, .s, false, [.f 15 0 .rc (.lit 0), .f 31 16 .rc (.lit 0)]⟩] -- PCI_FLR_COUNT, R121

/-- Registers of block RNG, part 0. -/
def rowsRng0 : List RegRow :=
  [⟨0, 64, 0x40, 0, .d, true, [.f 63 0 .rw (.lit 0)]⟩, -- RNG_RX_BASE, R113
   ⟨8, 64, 0x40, 0, .d, false, [.f 0 0 .rw (.lit 0), .f 1 1 .ro (.lit 0), .f 5 2 .rw (.lit 6), .f 6 6 .rw (.lit 0), .f 15 8 .rw (.lit 0)]⟩, -- RNG_RX_CTRL, R114
   ⟨0xc, 64, 0x40, 0, .d, false, [.f 6 0 .rw (.lit 8), .f 8 8 .rw (.lit 0)]⟩, -- RNG_RX_CFG, R115
   ⟨0x10, 64, 0x40, 0, .d, false, [.f 7 0 .rw (.lit 1), .f 19 8 .rw (.lit 0)]⟩, -- RNG_RX_MOD, R116
   ⟨0x14, 64, 0x40, 0, .s, false, [.f 15 0 .ro (.lit 0)]⟩, -- RNG_RX_HEAD, R113
   ⟨0x18, 64, 0x40, 0, .s, false, [.f 15 0 .ro (.lit 0)]⟩, -- RNG_RX_FETCH, R113
   ⟨0x1c, 64, 0x40, 0, .s, false, [.f 15 0 .ro (.lit 0)]⟩, -- RNG_RX_TAIL, R113
   ⟨0x20, 64, 0x40, 0, .s, false, [.f 0 0 .w1c (.lit 0), .f 1 1 .w1c (.lit 0), .f 2 2 .w1c (.lit 0), .f 3 3 .w1c (.lit 0)]⟩, -- RNG_RX_STATUS, R116
   ⟨0x28, 64, 0x40, 0, .s, true, [.f 63 0 .rc (.lit 0)]⟩, -- RNG_RX_DONE_CNT, R113
   ⟨0x1000, 64, 0x40, 0, .d, true, [.f 63 0 .rw (.lit 0)]⟩, -- RNG_TX_BASE, R113
   ⟨0x1008, 64, 0x40, 0, .d, false, [.f 0 0 .rw (.lit 0), .f 1 1 .ro (.lit 0), .f 5 2 .rw (.lit 6), .f 6 6 .rw (.lit 0), .f 15 8 .rw (.lit 0)]⟩, -- RNG_TX_CTRL, R114
   ⟨0x100c, 64, 0x40, 0, .d, false, [.f 6 0 .rw (.lit 1)]⟩, -- RNG_TX_CFG, R115
   ⟨0x1010, 64, 0x40, 0, .d, false, [.f 7 0 .rw (.lit 1), .f 19 8 .rw (.lit 0)]⟩, -- RNG_TX_MOD, R116
   ⟨0x1014, 64, 0x40, 0, .s, false, [.f 15 0 .ro (.lit 0)]⟩, -- RNG_TX_HEAD, R113
   ⟨0x1018, 64, 0x40, 0, .s, false, [.f 15 0 .ro (.lit 0)]⟩, -- RNG_TX_FETCH, R113
   ⟨0x101c, 64, 0x40, 0, .s, false, [.f 15 0 .ro (.lit 0)]⟩, -- RNG_TX_TAIL, R113
   ⟨0x1020, 64, 0x40, 0, .s, false, [.f 0 0 .w1c (.lit 0), .f 1 1 .w1c (.lit 0), .f 2 2 .w1c (.lit 0), .f 3 3 .w1c (.lit 0)]⟩, -- RNG_TX_STATUS, R116
   ⟨0x1028, 64, 0x40, 0, .s, true, [.f 63 0 .rc (.lit 0)]⟩, -- RNG_TX_DONE_CNT, R113
   ⟨0x2000, 8, 0x40, 0, .d, true, [.f 63 0 .rw (.lit 0)]⟩, -- RNG_CMD_BASE, R113
   ⟨0x2008, 8, 0x40, 0, .d, false, [.f 0 0 .rw (.lit 0), .f 1 1 .ro (.lit 0), .f 5 2 .rw (.lit 6), .f 6 6 .rw (.lit 0), .f 15 8 .rw (.lit 0)]⟩, -- RNG_CMD_CTRL, R114
   ⟨0x200c, 8, 0x40, 0, .d, false, []⟩, -- RNG_CMD_CFG, R115
   ⟨0x2010, 8, 0x40, 0, .d, false, [.f 7 0 .rw (.lit 1), .f 19 8 .rw (.lit 0)]⟩, -- RNG_CMD_MOD, R116
   ⟨0x2014, 8, 0x40, 0, .s, false, [.f 15 0 .ro (.lit 0)]⟩, -- RNG_CMD_HEAD, R113
   ⟨0x2018, 8, 0x40, 0, .s, false, [.f 15 0 .ro (.lit 0)]⟩] -- RNG_CMD_FETCH, R113

/-- Registers of block RNG, part 1. -/
def rowsRng1 : List RegRow :=
  [⟨0x201c, 8, 0x40, 0, .s, false, [.f 15 0 .ro (.lit 0)]⟩, -- RNG_CMD_TAIL, R113
   ⟨0x2020, 8, 0x40, 0, .s, false, [.f 0 0 .w1c (.lit 0), .f 1 1 .w1c (.lit 0), .f 2 2 .w1c (.lit 0), .f 3 3 .w1c (.lit 0)]⟩, -- RNG_CMD_STATUS, R116
   ⟨0x2028, 8, 0x40, 0, .s, true, [.f 63 0 .rc (.lit 0)]⟩, -- RNG_CMD_DONE_CNT, R113
   ⟨0x2200, 8, 0x40, 0, .d, true, [.f 63 0 .rw (.lit 0)]⟩, -- RNG_EVT_BASE, R113
   ⟨0x2208, 8, 0x40, 0, .d, false, [.f 0 0 .rw (.lit 0), .f 1 1 .ro (.lit 0), .f 5 2 .rw (.lit 6), .f 6 6 .rw (.lit 0), .f 15 8 .rw (.lit 0)]⟩, -- RNG_EVT_CTRL, R114
   ⟨0x220c, 8, 0x40, 0, .d, false, []⟩, -- RNG_EVT_CFG, R115
   ⟨0x2210, 8, 0x40, 0, .d, false, [.f 7 0 .rw (.lit 1), .f 19 8 .rw (.lit 0)]⟩, -- RNG_EVT_MOD, R116
   ⟨0x2214, 8, 0x40, 0, .s, false, [.f 15 0 .ro (.lit 0)]⟩, -- RNG_EVT_HEAD, R113
   ⟨0x2218, 8, 0x40, 0, .s, false, [.f 15 0 .ro (.lit 0)]⟩, -- RNG_EVT_FETCH, R113
   ⟨0x221c, 8, 0x40, 0, .s, false, [.f 15 0 .ro (.lit 0)]⟩, -- RNG_EVT_TAIL, R113
   ⟨0x2220, 8, 0x40, 0, .s, false, [.f 0 0 .w1c (.lit 0), .f 1 1 .w1c (.lit 0), .f 2 2 .w1c (.lit 0), .f 3 3 .w1c (.lit 0)]⟩, -- RNG_EVT_STATUS, R116
   ⟨0x2228, 8, 0x40, 0, .s, true, [.f 63 0 .rc (.lit 0)]⟩, -- RNG_EVT_DONE_CNT, R113
   ⟨0x2400, 1, 0x40, 0, .d, true, [.f 63 0 .rw (.lit 0)]⟩, -- RNG_REC_BASE, R113
   ⟨0x2408, 1, 0x40, 0, .d, false, [.f 0 0 .rw (.lit 0), .f 1 1 .ro (.lit 0), .f 5 2 .rw (.lit 6), .f 6 6 .rw (.lit 0), .f 15 8 .rw (.lit 0)]⟩, -- RNG_REC_CTRL, R114
   ⟨0x240c, 1, 0x40, 0, .d, false, []⟩, -- RNG_REC_CFG, R115
   ⟨0x2410, 1, 0x40, 0, .d, false, [.f 7 0 .rw (.lit 1), .f 19 8 .rw (.lit 0)]⟩, -- RNG_REC_MOD, R116
   ⟨0x2414, 1, 0x40, 0, .s, false, [.f 15 0 .ro (.lit 0)]⟩, -- RNG_REC_HEAD, R113
   ⟨0x2418, 1, 0x40, 0, .s, false, [.f 15 0 .ro (.lit 0)]⟩, -- RNG_REC_FETCH, R113
   ⟨0x241c, 1, 0x40, 0, .s, false, [.f 15 0 .ro (.lit 0)]⟩, -- RNG_REC_TAIL, R113
   ⟨0x2420, 1, 0x40, 0, .s, false, [.f 0 0 .w1c (.lit 0), .f 1 1 .w1c (.lit 0), .f 2 2 .w1c (.lit 0), .f 3 3 .w1c (.lit 0)]⟩, -- RNG_REC_STATUS, R116
   ⟨0x2428, 1, 0x40, 0, .s, true, [.f 63 0 .rc (.lit 0)]⟩, -- RNG_REC_DONE_CNT, R113
   ⟨0x3000, 8, 4, 0, .d, false, [.f 5 0 .rw (.lit 0), .f 8 6 .rw (.lit 0)]⟩, -- RNG_RXQ_MAP, R117
   ⟨0x3020, 1, 4, 0, .d, false, [.f 5 0 .rw (.lit 0), .f 13 8 .rw (.lit 0), .f 21 16 .rw (.lit 0)]⟩, -- RNG_SPECIAL, R117
   ⟨0x3104, 15, 4, 1, .d, false, [.f 2 0 .rw (.lit 0), .f 7 7 .rw (.lit 1)]⟩] -- RNG_EVT_ROUTE, R117

/-- Registers of block RNG, part 2. -/
def rowsRng2 : List RegRow :=
  [⟨0x3200, 1, 4, 0, .s, true, [.f 63 0 .rc (.lit 0)]⟩, -- RNG_EVT_DROPPED, R117
   ⟨0x3208, 1, 4, 0, .s, false, [.f 31 0 .rc (.lit 0)]⟩] -- RNG_ACCESS_ERR, R117

/-- Registers of block PRT, part 0. -/
def rowsPrt0 : List RegRow :=
  [⟨0, 1, 4, 0, .s, false, [.f 0 0 .ro (.lit 0), .f 1 1 .ro (.lit 0), .f 3 3 .ro (.lit 0), .f 4 4 .ro (.lit 0), .f 5 5 .ro (.lit 0), .f 6 6 .ro (.lit 0), .f 7 7 .ro (.lit 0), .f 15 8 .ro (.lit 0)]⟩, -- PRT_STATUS, R149
   ⟨4, 1, 4, 0, .d, false, [.f 3 0 .wo (.lit 0), .f 15 8 .wo (.lit 0), .f 20 16 .wo (.lit 0)]⟩, -- PRT_CMD, R149
   ⟨8, 1, 4, 0, .s, false, [.f 13 0 .ro (.lit 0)]⟩, -- PRT_WINDOW_LEFT, R149
   ⟨0xc, 1, 4, 0, .s, false, [.f 31 0 .rc (.lit 0)]⟩, -- PRT_VIOLATIONS, R149
   ⟨0x10, 1, 4, 0, .s, true, [.f 63 0 .ro (.lit 0)]⟩, -- PRT_NONCE, R149
   ⟨0x18, 1, 4, 0, .s, true, [.f 63 0 .ro (.lit 0)]⟩, -- PRT_IMAGE_SERIAL, R149
   ⟨0x20, 8, 4, 0, .d, false, [.f 31 0 .rw (.lit 0)]⟩, -- PRT_OP_MAC, R149
   ⟨0x40, 16, 4, 0, .d, false, [.f 31 0 .rw (.lit 0)]⟩, -- PRT_STAGE_VAL, R149
   ⟨0x80, 8, 4, 0, .s, false, [.f 31 0 .ro (.lit 0)]⟩, -- PRT_DIGEST, R149
   ⟨0xa0, 8, 4, 0, .d, false, [.f 31 0 .wo (.lit 0)]⟩, -- PRT_KEY, R149
   ⟨0xc0, 1, 4, 0, .s, false, [.f 15 0 .ro (.lit 0), .f 31 16 .ro (.lit 0)]⟩, -- PRT_KEY_GEN, R149
   ⟨0x100, 16, 4, 0, .d, false, [.f 31 0 .rwl (.lit 0)]⟩, -- PRT_MAP, R142,R149
   ⟨0x140, 1, 4, 0, .d, false, [.f 29 0 .rwl (.lit 0)]⟩, -- PRT_GRANT_PMU, R149
   ⟨0x144, 1, 4, 0, .d, false, [.f 0 0 .rwl (.lit 1), .f 1 1 .rwl (.lit 1)]⟩, -- PRT_ENABLE, R140,R149
   ⟨0x148, 1, 4, 0, .s, false, [.f 0 0 .ro (.lit 0), .f 1 1 .ro (.lit 0)]⟩, -- PRT_DEBUG, R149
   ⟨0x180, 4, 4, 0, .s, false, [.f 31 0 .ro (.lit 0)]⟩, -- PRT_ZERO_LAST, R149
   ⟨0x190, 1, 4, 0, .s, false, [.f 31 0 .ro (.lit 0)]⟩] -- PRT_ZERO_COUNT, R149

/-- Registers of block GEN, part 0. -/
def rowsGen0 : List RegRow :=
  [⟨0, 1, 4, 0, .d, false, [.f 3 0 .wo (.lit 0)]⟩, -- GEN_CMD, R355
   ⟨4, 1, 4, 0, .s, false, [.f 2 0 .ro (.lit 0), .f 4 4 .ro (.lit 0), .f 5 5 .ro (.lit 0), .f 31 16 .ro (.lit 0)]⟩, -- GEN_STATUS, R356
   ⟨8, 1, 4, 0, .s, false, [.f 31 0 .ro (.lit 0)]⟩, -- GEN_CURRENT, R355
   ⟨0xc, 1, 4, 0, .s, false, [.f 31 0 .ro (.lit 0)]⟩, -- GEN_INFLIGHT, R355
   ⟨0x10, 1, 4, 0, .d, true, [.f 63 0 .rw (.lit 0)]⟩, -- GEN_AT_SEC, R355
   ⟨0x18, 1, 4, 0, .d, false, [.f 29 0 .rw (.lit 0)]⟩, -- GEN_AT_NS, R355
   ⟨0x20, 1, 4, 0, .s, true, [.f 63 0 .ro (.lit 0)]⟩, -- GEN_T_SEC, R355
   ⟨0x28, 1, 4, 0, .s, false, [.f 29 0 .ro (.lit 0)]⟩, -- GEN_T_NS, R355
   ⟨0x2c, 1, 4, 0, .s, false, [.f 31 0 .ro (.lit 0)]⟩, -- GEN_COMPLETE_US, R355
   ⟨0x30, 1, 4, 0, .d, false, [.g 15 0 .rw (.lit 0x3e8) (.rng 10 60000) false, .f 16 16 .rw (.lit 1)]⟩, -- GEN_AUTO_CFG, R356
   ⟨0x34, 1, 4, 0, .s, false, [.f 31 0 .rc (.lit 0)]⟩, -- GEN_AUTO_DEFERRED, R355
   ⟨0x38, 1, 4, 0, .s, false, [.f 18 0 .ro (.lit 0)]⟩, -- GEN_LEARN_STAGED, R355
   ⟨0x3c, 1, 4, 0, .s, false, [.f 0 0 .w1c (.lit 0), .f 1 1 .w1c (.lit 0), .f 2 2 .w1c (.lit 0)]⟩, -- GEN_EVT, R356
   ⟨0x40, 1, 4, 0, .s, true, [.f 63 0 .rc (.lit 0)]⟩] -- GEN_COMMITS, R355

/-- Registers of block TIM, part 0. -/
def rowsTim0 : List RegRow :=
  [⟨0, 1, 4, 0, .c, false, [.g 1 0 .rw (.lit 0) (.rng 0 2) false, .f 2 2 .rw (.lit 0), .f 4 4 .rw (.lit 0), .g 11 8 .rw (.lit 4) (.rng 0 10) false, .f 20 16 .rw (.lit 0), .g 31 24 .rw (.lit 0xa) (.rng 1 200) false]⟩, -- TIM_CFG, R268
   ⟨4, 1, 4, 0, .s, false, [.f 0 0 .ro (.lit 0), .f 1 1 .ro (.lit 0), .f 2 2 .ro (.lit 0), .f 3 3 .ro (.lit 0), .f 4 4 .ro (.lit 0), .f 5 5 .ro (.lit 0), .f 6 6 .ro (.lit 0), .f 7 7 .ro (.lit 0), .f 11 8 .ro (.lit 0)]⟩, -- TIM_STATUS, R268
   ⟨8, 1, 4, 0, .s, false, [.f 0 0 .w1c (.lit 0), .f 1 1 .w1c (.lit 0), .f 2 2 .w1c (.lit 0), .f 3 3 .w1c (.lit 0), .f 4 4 .w1c (.lit 0)]⟩, -- TIM_FAULT, R241
   ⟨0xc, 1, 4, 0, .d, false, [.f 3 0 .wo (.lit 0)]⟩, -- TIM_CMD, R267
   ⟨0x10, 1, 4, 0, .s, false, [.f 15 0 .ro (.lit 0)]⟩, -- TIM_NOW_FRAC, R267
   ⟨0x14, 1, 4, 0, .s, false, [.f 29 0 .ro (.lit 0)]⟩, -- TIM_NOW_NS, R267
   ⟨0x18, 1, 4, 0, .s, true, [.f 63 0 .ro (.lit 0)]⟩, -- TIM_NOW_SEC, R267
   ⟨0x20, 1, 4, 0, .d, true, [.f 63 0 .rw (.lit 0)]⟩, -- TIM_SET_SEC, R267
   ⟨0x28, 1, 4, 0, .d, false, [.f 29 0 .rw (.lit 0)]⟩, -- TIM_SET_NS, R267
   ⟨0x30, 1, 4, 0, .d, true, [.f 63 0 .rw (.lit 0)]⟩, -- TIM_STEP, R267
   ⟨0x38, 1, 4, 0, .d, false, [.f 31 0 .rw (.lit 0)]⟩, -- TIM_SLEW, R267
   ⟨0x3c, 1, 4, 0, .s, false, [.f 31 0 .ro (.lit 0)]⟩, -- TIM_SLEW_LEFT, R267
   ⟨0x40, 1, 4, 0, .d, true, [.g 63 0 .rw (.lit 0) .special false]⟩, -- TIM_FREQ_ADJ, R231,R238
   ⟨0x50, 1, 4, 0, .c, false, [.f 0 0 .rw (.lit 1), .g 10 1 .rw (.lit 0x64) (.rng 1 999) false, .f 31 16 .rw (.lit 0)]⟩, -- TIM_PPS_CFG, R268
   ⟨0x54, 1, 4, 0, .s, false, [.f 29 0 .ro (.lit 0), .f 31 31 .rc (.lit 0)]⟩, -- TIM_PPS_IN_NS, R267
   ⟨0x58, 1, 4, 0, .s, false, [.f 31 0 .ro (.lit 0)]⟩, -- TIM_PPS_IN_SEC, R267
   ⟨0x5c, 1, 4, 0, .s, false, [.f 15 0 .ro (.lit 0)]⟩, -- TIM_PPS_IN_FRAC, R267
   ⟨0x60, 1, 4, 0, .c, true, [.f 63 0 .rw (.lit 0)]⟩, -- TIM_CLOCK_ID, R267
   ⟨0x100, 32, 0x40, 0, .c, false, [.f 0 0 .rw (.lit 0), .f 1 1 .rw (.lit 0), .f 2 2 .rw (.lit 0), .f 8 8 .rw (.lit 0), .f 15 12 .rw (.lit 0)]⟩, -- TIM_CG_CFG, R269
   ⟨0x104, 32, 0x40, 0, .c, false, [.g 29 0 .rw (.lit 0) (.rng 0 999999999) false]⟩, -- TIM_CG_START_NS, R267
   ⟨0x108, 32, 0x40, 0, .c, true, [.f 63 0 .rw (.lit 0)]⟩, -- TIM_CG_START_SEC, R267
   ⟨0x110, 32, 0x40, 0, .c, true, [.g 63 0 .rw (.lit 0xf4240) (.rng 1000 1000000000000) true]⟩, -- TIM_CG_PERIOD, R267
   ⟨0x118, 32, 0x40, 0, .c, true, [.g 63 0 .rw (.lit 0) .special true]⟩, -- TIM_CG_PHASE, R267
   ⟨0x120, 32, 0x40, 0, .s, true, [.f 63 0 .ro (.lit 0)]⟩] -- TIM_CG_COUNT, R267

/-- Registers of block TIM, part 1. -/
def rowsTim1 : List RegRow :=
  [⟨0x128, 32, 0x40, 0, .s, false, [.f 31 0 .rc (.lit 0)]⟩, -- TIM_CG_SKIPPED, R267
   ⟨0x900, 16, 0x40, 0, .c, false, [.f 0 0 .rw (.lit 0), .f 1 1 .rw (.lit 0), .f 6 2 .rw (.lit 0), .f 7 7 .rw (.lit 0), .g 9 8 .rw (.lit 1) (.rng 1 3) false, .g 19 10 .rw (.lit 8) (.rng 8 1000) false, .f 20 20 .rw (.lit 0)]⟩, -- TIM_TIO_CFG, R269
   ⟨0x904, 16, 0x40, 0, .c, false, [.g 29 0 .rw (.lit 0x64) (.rngSpecial 8 500000000) false]⟩, -- TIM_TIO_WIDTH, R260,R267
   ⟨0x908, 16, 0x40, 0, .c, false, [.f 15 0 .rw (.lit 0), .f 31 16 .rw (.lit 0)]⟩, -- TIM_TIO_COMP, R267
   ⟨0x90c, 16, 0x40, 0, .c, false, [.g 29 0 .rw (.lit 0) (.rng 0 1000000000) false]⟩, -- TIM_CAP_MIN_INT, R267
   ⟨0x910, 16, 0x40, 0, .c, false, [.g 19 0 .rw (.lit 0) (.rng 0 1000000) false]⟩, -- TIM_CAP_STUCK, R267
   ⟨0x914, 16, 0x40, 0, .s, false, [.f 4 0 .ro (.lit 0), .f 8 8 .ro (.lit 0), .f 9 9 .ro (.lit 0), .f 31 16 .ro (.lit 0)]⟩, -- TIM_CAP_STATUS, R267
   ⟨0x918, 16, 0x40, 0, .s, false, [.f 31 0 .ro (.lit 0)]⟩, -- TIM_CAP_E0, R266
   ⟨0x91c, 16, 0x40, 0, .s, false, [.f 31 0 .ro (.lit 0)]⟩, -- TIM_CAP_E1, R266
   ⟨0x920, 16, 0x40, 0, .s, false, [.f 31 0 .ro (.lit 0)]⟩, -- TIM_CAP_E2, R266
   ⟨0x924, 16, 0x40, 0, .s, false, [.f 31 0 .ro (.lit 0)]⟩, -- TIM_CAP_E3, R266
   ⟨0x928, 16, 0x40, 0, .s, false, [.f 31 0 .rc (.lit 0)]⟩, -- TIM_CAP_FAST, R264
   ⟨0x92c, 16, 0x40, 0, .s, false, [.f 31 0 .rc (.lit 0)]⟩, -- TIM_CAP_LOST, R266
   ⟨0x930, 16, 0x40, 0, .s, false, [.f 31 0 .rc (.lit 0)]⟩, -- TIM_CAP_GLITCH, R262
   ⟨0x1000, 256, 0x40, 0, .c, false, [.f 15 0 .rw (.lit 1), .g 17 16 .rw (.lit 0) (.rng 0 2) false, .f 18 18 .rw (.lit 0), .f 19 19 .rw (.lit 0), .f 20 20 .rw (.lit 0), .f 26 24 .rw (.lit 7)]⟩, -- TIM_PORT_CFG, R269
   ⟨0x1004, 256, 0x40, 0, .c, false, [.f 15 0 .rw (.lit 0), .f 31 16 .rw (.lit 0)]⟩, -- TIM_PORT_COMP, R267
   ⟨0x1008, 256, 0x40, 0, .c, false, [.f 23 0 .rw (.lit 0)]⟩, -- TIM_PORT_PDELAY, R267
   ⟨0x100c, 256, 0x40, 0, .s, false, [.f 6 0 .ro (.lit 0), .f 31 16 .ro (.lit 0)]⟩, -- TIM_TXF_STATUS, R267
   ⟨0x1010, 256, 0x40, 0, .s, false, [.f 31 0 .ro (.lit 0)]⟩, -- TIM_TXF_E0, R249
   ⟨0x1014, 256, 0x40, 0, .s, false, [.f 31 0 .ro (.lit 0)]⟩, -- TIM_TXF_E1, R249
   ⟨0x1018, 256, 0x40, 0, .s, false, [.f 31 0 .ro (.lit 0)]⟩, -- TIM_TXF_E2, R249
   ⟨0x101c, 256, 0x40, 0, .s, false, [.f 31 0 .ro (.lit 0)]⟩, -- TIM_TXF_E3, R249
   ⟨0x1020, 256, 0x40, 0, .s, false, [.f 31 0 .rc (.lit 0)]⟩, -- TIM_TXF_LOST, R248
   ⟨0x1024, 256, 0x40, 0, .s, false, [.f 31 0 .rc (.lit 0)]⟩] -- TIM_PTP_SKIP, R267

/-- Registers of block REC, part 0. -/
def rowsRec0 : List RegRow :=
  [⟨0, 1, 4, 0, .c, false, [.f 0 0 .rw (.lit 1), .f 1 1 .rw (.lit 0), .f 15 8 .rw (.lit 0x64), .g 29 16 .rw (.lit 0x100) (.rng 64 16000) false]⟩, -- REC_CFG, R479
   ⟨4, 1, 4, 0, .c, false, [.g 13 0 .rw (.lit 0x400) .special false, .g 22 16 .rw (.lit 0x32) (.rng 0 100) false]⟩, -- REC_FREEZE_CFG, R474,R479
   ⟨8, 1, 4, 0, .c, false, [.f 0 0 .rw (.lit 0), .f 1 1 .rw (.lit 0), .f 2 2 .rw (.lit 0), .f 3 3 .rw (.lit 0), .f 8 4 .rw (.lit 0), .f 31 16 .rw (.lit 0)]⟩, -- REC_TRIG_EN, R479
   ⟨0xc, 1, 4, 0, .c, false, [.g 4 0 .rw (.lit 0xe) (.rng 1 22) false, .f 13 5 .rw (.lit 0x1ff), .g 31 16 .rw (.lit 0x3e8) (.rng 1 65535) false]⟩, -- REC_FATE_TRIG, R479
   ⟨0x10, 1, 4, 0, .c, false, [.g 31 0 .rw (.lit 0x3e8) (.rng 1 4294967295) false]⟩, -- REC_FATE_THRESH, R478
   ⟨0x20, 8, 4, 0, .c, false, [.f 31 0 .rw (.lit 0)]⟩, -- REC_PORT_TRIG, R478
   ⟨0x40, 1, 4, 0, .d, false, [.f 3 0 .wo (.lit 0), .f 5 4 .wo (.lit 0)]⟩, -- REC_CMD, R478
   ⟨0x44, 1, 4, 0, .s, false, [.f 3 0 .ro (.lit 0), .f 4 4 .ro (.lit 0), .f 5 5 .ro (.lit 0), .f 6 6 .ro (.lit 0)]⟩, -- REC_STATUS, R479
   ⟨0x48, 1, 4, 0, .s, false, [.f 31 0 .ro (.lit 0)]⟩, -- REC_OPEN_SEQ, R478
   ⟨0x4c, 1, 4, 0, .s, false, [.f 31 0 .ro (.lit 0)]⟩, -- REC_OLDEST_SEQ, R478
   ⟨0x50, 1, 4, 0, .s, false, [.f 15 0 .ro (.lit 0)]⟩, -- REC_SEGMENTS, R478
   ⟨0x54, 1, 4, 0, .s, false, [.f 31 0 .ro (.lit 0)]⟩, -- REC_KEY_ID, R478
   ⟨0x58, 1, 4, 0, .s, false, [.f 31 0 .rc (.lit 0)]⟩, -- REC_TRIG_DURING_FREEZE, R474
   ⟨0x64, 6, 4, 1, .s, false, [.f 31 0 .rc (.lit 0)]⟩, -- REC_REFUSED, R466
   ⟨0x80, 1, 4, 0, .s, true, [.f 63 0 .rc (.lit 0)]⟩, -- REC_RECORDS, R478
   ⟨0x88, 1, 4, 0, .s, false, [.f 31 0 .rc (.lit 0)]⟩, -- REC_MARKERS, R478
   ⟨0x100, 4, 0x20, 0, .s, false, [.f 1 0 .ro (.lit 0), .f 3 2 .ro (.lit 0), .f 19 4 .ro (.lit 0)]⟩, -- REC_REGION_W0, R480
   ⟨0x104, 4, 0x20, 0, .s, false, [.f 31 0 .ro (.lit 0)]⟩, -- REC_REGION_FIRST, R480
   ⟨0x108, 4, 0x20, 0, .s, false, [.f 31 0 .ro (.lit 0)]⟩, -- REC_REGION_LAST, R480
   ⟨0x10c, 4, 0x20, 0, .s, false, [.f 29 0 .ro (.lit 0)]⟩, -- REC_REGION_NS, R480
   ⟨0x110, 4, 0x20, 0, .s, false, [.f 31 0 .ro (.lit 0)]⟩, -- REC_REGION_SEC, R480
   ⟨0x114, 4, 0x20, 0, .s, false, [.f 31 0 .ro (.lit 0)]⟩, -- REC_REGION_RECORDS, R480
   ⟨0x118, 4, 0x20, 0, .s, false, [.f 15 0 .ro (.lit 0), .f 19 16 .ro (.lit 0)]⟩] -- REC_REGION_W6, R480

/-- Registers of block BPM, part 0. -/
def rowsBpm0 : List RegRow :=
  [⟨0, 1, 4, 0, .c, false, [.g 10 0 .rw (.lit 0x1f4) (.rng 1 2000) true, .g 22 16 .rw (.lit 0x64) (.rng 0 100) true, .f 23 23 .rw (.lit 1)]⟩, -- BPM_CFG, R429
   ⟨4, 1, 4, 0, .c, false, [.g 16 0 .rw (.lit 0x4000) (.rng 4096 65536) true]⟩, -- BPM_SYS_RESERVE, R428
   ⟨8, 1, 4, 0, .c, false, [.g 18 0 .rw (.lit 0x2000) (.rng 1024 262144) false]⟩, -- BPM_POOL_XOFF, R428
   ⟨0xc, 1, 4, 0, .c, false, [.g 18 0 .rw (.lit 0x4000) .special false]⟩, -- BPM_POOL_XON, R428
   ⟨0x10, 1, 4, 0, .c, false, [.g 15 0 .rw (.lit 0x3e8) (.rng 1 60000) false]⟩, -- BPM_RIDER_CFG, R428
   ⟨0x14, 1, 4, 0, .d, false, [.f 4 0 .rw (.lit 0x10), .f 14 8 .rw (.lit 0x40), .f 19 16 .rw (.lit 8)]⟩, -- BPM_HBM_PART, R420,R429
   ⟨0x18, 1, 4, 0, .s, false, [.f 0 0 .ro (.lit 0), .f 1 1 .w1c (.lit 0), .f 2 2 .w1c (.lit 0), .f 3 3 .w1c (.lit 0), .f 4 4 .w1c (.lit 0), .f 5 5 .w1c (.lit 0), .f 6 6 .w1c (.lit 0), .f 7 7 .w1c (.lit 0)]⟩, -- BPM_STATUS, R429
   ⟨0x1c, 1, 4, 0, .s, false, [.f 19 0 .ro (.lit 0)]⟩, -- BPM_FREE_COUNT, R428
   ⟨0x20, 1, 4, 0, .s, false, [.f 26 0 .ro (.lit 0)]⟩, -- BPM_RES_FREE, R428
   ⟨0x24, 1, 4, 0, .s, false, [.f 26 0 .ro (.lit 0)]⟩, -- BPM_SHARED_FREE, R428
   ⟨0x28, 1, 4, 0, .s, false, [.f 19 0 .ro (.lit 0)]⟩, -- BPM_BASIN_CELLS, R428
   ⟨0x2c, 1, 4, 0, .s, false, [.f 26 0 .ro (.lit 0)]⟩, -- BPM_RES_CELLS, R428
   ⟨0x30, 1, 4, 0, .s, false, [.f 26 0 .ro (.lit 0)]⟩, -- BPM_SHARED_SIZE, R413
   ⟨0x34, 1, 4, 0, .s, false, [.f 15 0 .ro (.lit 0), .f 31 16 .ro (.lit 0)]⟩, -- BPM_RIDER_STATUS, R428
   ⟨0x40, 1, 4, 0, .d, false, [.f 0 0 .wo (.lit 0)]⟩, -- BPM_SNAP_CMD, R428
   ⟨0x44, 1, 4, 0, .s, false, [.f 31 0 .ro (.lit 0)]⟩, -- BPM_SNAP_STATUS, R428
   ⟨0x48, 1, 4, 0, .s, true, [.f 63 0 .ro (.lit 0)]⟩, -- BPM_SNAP_SEC, R428
   ⟨0x50, 1, 4, 0, .s, false, [.f 29 0 .ro (.lit 0)]⟩, -- BPM_SNAP_NS, R428
   ⟨0x60, 1, 4, 0, .s, false, [.f 31 0 .rc (.lit 0)]⟩, -- BPM_DOUBLE_FREE, R401
   ⟨0x64, 1, 4, 0, .s, false, [.f 31 0 .rc (.lit 0)]⟩, -- BPM_NONHOLDER_FREE, R401
   ⟨0x68, 1, 4, 0, .s, false, [.f 31 0 .rc (.lit 0)]⟩, -- BPM_BAD_PTR, R401
   ⟨0x6c, 1, 4, 0, .s, false, [.f 31 0 .rc (.lit 0)]⟩, -- BPM_LEAKS, R426
   ⟨0x70, 1, 4, 0, .s, false, [.f 31 0 .rc (.lit 0)]⟩, -- BPM_RECLAIMED, R427
   ⟨0x74, 1, 4, 0, .s, false, [.f 31 0 .rc (.lit 0)]⟩] -- BPM_SPILL_SKIP, R417

/-- Registers of block BPM, part 1. -/
def rowsBpm1 : List RegRow :=
  [⟨0x78, 1, 4, 0, .s, false, [.f 31 0 .rc (.lit 0)]⟩, -- BPM_EMPTY, R399
   ⟨0x7c, 1, 4, 0, .s, false, [.f 31 0 .rc (.lit 0)]⟩, -- BPM_ECC_CORR, R404
   ⟨0x80, 1, 4, 0, .s, false, [.f 31 0 .rc (.lit 0)]⟩, -- BPM_ECC_UNCORR, R404
   ⟨0x88, 1, 4, 0, .s, true, [.f 63 0 .rc (.lit 0)]⟩, -- BPM_SPILLED, R428
   ⟨0x90, 1, 4, 0, .s, true, [.f 63 0 .rc (.lit 0)]⟩, -- BPM_REFILLED, R428
   ⟨0x100, 256, 4, 0, .c, false, [.g 6 0 .rw .mod120 (.rng 0 119) false]⟩, -- BPM_RES_HOME, R428
   ⟨0x1000, 25, 8, 0, .s, true, [.f 63 0 .ro (.lit 0)]⟩, -- BPM_SNAP_0, R428
   ⟨0x1100, 25, 8, 0, .s, true, [.f 63 0 .ro (.lit 0)]⟩, -- BPM_SNAP_1, R428
   ⟨0x1200, 25, 8, 0, .s, true, [.f 63 0 .ro (.lit 0)]⟩, -- BPM_SNAP_2, R428
   ⟨0x1300, 25, 8, 0, .s, true, [.f 63 0 .ro (.lit 0)]⟩, -- BPM_SNAP_3, R428
   ⟨0x1400, 25, 8, 0, .s, true, [.f 63 0 .ro (.lit 0)]⟩, -- BPM_SNAP_4, R428
   ⟨0x1500, 25, 8, 0, .s, true, [.f 63 0 .ro (.lit 0)]⟩, -- BPM_SNAP_5, R428
   ⟨0x1600, 25, 8, 0, .s, true, [.f 63 0 .ro (.lit 0)]⟩, -- BPM_SNAP_6, R428
   ⟨0x1700, 25, 8, 0, .s, true, [.f 63 0 .ro (.lit 0)]⟩, -- BPM_SNAP_7, R428
   ⟨0x1800, 25, 8, 0, .s, true, [.f 63 0 .ro (.lit 0)]⟩, -- BPM_SNAP_8, R428
   ⟨0x2000, 256, 4, 0, .c, false, [.f 2 0 .rw (.lit 0)]⟩, -- BPM_PORT_CFG, R429
   ⟨0x4000, 2176, 0x10, 0, .c, false, [.g 15 0 .rw (.lit 0x20) .any true]⟩, -- BPM_PP_MIN, R428
   ⟨0x4004, 2176, 0x10, 0, .c, false, [.g 26 0 .rw (.lit 0x10000) (.rng 0 67108864) false]⟩, -- BPM_PP_SHARE, R428
   ⟨0x4008, 2176, 0x10, 0, .c, false, [.g 26 0 .rw (.lit 0x4000) .special false]⟩, -- BPM_PP_HWM, R428
   ⟨0x400c, 2176, 0x10, 0, .c, false, [.g 26 0 .rw (.lit 0x3000) .special false]⟩, -- BPM_PP_LWM, R428
   ⟨0xc800, 2176, 4, 0, .c, false, [.g 18 0 .rw (.lit 0) .special false, .f 31 31 .rw (.lit 0)]⟩] -- BPM_Q_CFG, R429

/-- Registers of block SVC, part 0. -/
def rowsSvc0 : List RegRow :=
  [⟨0, 1, 4, 0, .d, false, [.f 0 0 .rw (.lit 1), .g 23 8 .rw (.lit 0x10) (.rng 1 65535) false]⟩, -- SVC_CFG, R523
   ⟨4, 1, 4, 0, .s, false, [.f 2 0 .ro (.lit 0), .f 3 3 .ro (.lit 0), .f 4 4 .ro (.lit 0), .f 5 5 .ro (.lit 0)]⟩, -- SVC_STATUS, R523
   ⟨8, 1, 4, 0, .s, false, [.f 0 0 .w1c (.lit 0), .f 1 1 .w1c (.lit 0), .f 2 2 .w1c (.lit 0), .f 3 3 .w1c (.lit 0)]⟩, -- SVC_EVT, R523
   ⟨0x10, 4, 4, 0, .s, false, [.f 3 0 .ro (.lit 0), .f 15 4 .ro (.lit 0), .f 17 16 .ro (.lit 0), .f 19 18 .ro (.lit 0), .f 31 24 .ro (.lit 0)]⟩, -- SVC_PEND, R523
   ⟨0x20, 1, 4, 0, .s, false, [.f 6 0 .ro (.lit 0x40), .f 14 8 .ro (.lit 0x40), .f 22 16 .ro (.lit 0x40)]⟩, -- SVC_CAPACITY, R523
   ⟨0x100, 16, 4, 0, .s, false, [.f 31 0 .ro (.lit 0)]⟩, -- SVC_STATE_LANE, R522
   ⟨0x140, 4, 4, 0, .s, false, [.f 31 0 .ro (.lit 0)]⟩, -- SVC_STATE_QUAD, R522
   ⟨0x150, 4, 4, 0, .s, false, [.f 31 0 .ro (.lit 0)]⟩, -- SVC_STATE_ENG, R522
   ⟨0x160, 4, 4, 0, .s, false, [.f 31 0 .ro (.lit 0)]⟩, -- SVC_STATE_TCAM, R522
   ⟨0x170, 3, 4, 0, .s, false, [.f 31 0 .ro (.lit 0)]⟩, -- SVC_STATE_TRIE, R522
   ⟨0x180, 1, 4, 0, .s, false, [.f 31 0 .ro (.lit 0)]⟩, -- SVC_STATE_BGRP, R522
   ⟨0x190, 33, 4, 0, .s, false, [.f 31 0 .ro (.lit 0)]⟩, -- SVC_STATE_BANK, R522
   ⟨0x220, 8, 4, 0, .s, false, [.f 31 0 .ro (.lit 0)]⟩, -- SVC_STATE_HBM, R522
   ⟨0x240, 1, 4, 0, .s, false, [.f 31 0 .ro (.lit 0)]⟩, -- SVC_STATE_REC, R522
   ⟨0x250, 6, 4, 0, .s, false, [.f 31 0 .ro (.lit 0)]⟩, -- SVC_STATE_ISL, R522
   ⟨0x300, 8, 4, 0, .s, false, [.f 5 0 .ro (.lit 0), .f 7 7 .ro (.lit 0)]⟩, -- SVC_BASIN_SPARE, R523
   ⟨0x400, 120, 4, 0, .s, false, [.f 4 0 .ro .mod30, .f 6 5 .ro .div30, .f 7 7 .ro (.lit 0)]⟩] -- SVC_HBM_MAP, R523

/-- Registers of block MRM, part 0. -/
def rowsMrm0 : List RegRow :=
  [⟨0, 1, 4, 0, .s, false, [.f 0 0 .ro (.lit 0), .f 1 1 .ro (.lit 0), .f 2 2 .ro (.lit 0), .f 3 3 .ro (.lit 0), .f 15 8 .ro (.lit 0)]⟩, -- MRM_STATUS, R526
   ⟨4, 1, 4, 0, .d, false, [.f 0 0 .wo (.lit 0)]⟩, -- MRM_FAULT_ACK, R526
   ⟨8, 1, 4, 0, .d, false, [.g 9 0 .rw (.lit 0x12c) (.rng 120 600) false]⟩, -- MRM_PARK_CAP, R516,R526
   ⟨0xc, 1, 4, 0, .s, false, [.f 31 0 .rc (.lit 0)]⟩, -- MRM_ERR_CORR, R526
   ⟨0x10, 1, 4, 0, .s, false, [.f 31 0 .rc (.lit 0)]⟩, -- MRM_ERR_UNCORR, R526
   ⟨0x1000, 256, 4, 0, .s, false, [.f 31 0 .ro (.lit 0)]⟩, -- MRM_FAULT_LOG, R526
   ⟨0x2000, 6144, 4, 0, .s, false, [.f 31 0 .ro (.lit 0)]⟩] -- MRM_HEALTH_MAP, R518,R526

/-- Registers of block FDB, part 0. -/
def rowsFdb0 : List RegRow :=
  [⟨0, 1, 4, 0, .c, false, [.f 0 0 .rw (.lit 1), .f 1 1 .rw (.lit 1), .f 2 2 .rw (.lit 1), .f 3 3 .rw (.lit 0)]⟩, -- FDB_CFG, R340
   ⟨4, 1, 4, 0, .d, false, [.f 31 0 .rw (.lit 0)]⟩, -- FDB_HASH_SEED_0, R339
   ⟨8, 1, 4, 0, .d, false, [.f 31 0 .rw (.lit 0xffffffff)]⟩, -- FDB_HASH_SEED_1, R339
   ⟨0xc, 1, 4, 0, .s, false, [.f 0 0 .w1c (.lit 0), .f 1 1 .w1c (.lit 0), .f 2 2 .w1c (.lit 0)]⟩, -- FDB_STATUS, R339
   ⟨0x10, 1, 4, 0, .s, false, [.f 18 0 .ro (.lit 0)]⟩, -- FDB_COUNT, R339
   ⟨0x14, 1, 4, 0, .s, false, [.f 18 0 .ro (.lit 0)]⟩, -- FDB_SLOTS_USED, R339
   ⟨0x18, 1, 4, 0, .s, false, [.f 10 0 .ro (.lit 0)]⟩, -- FDB_LEARN_QUEUE, R339
   ⟨0x20, 1, 4, 0, .s, true, [.f 63 0 .rc (.lit 0)]⟩, -- FDB_LEARNED, R320
   ⟨0x28, 1, 4, 0, .s, true, [.f 63 0 .rc (.lit 0)]⟩, -- FDB_MOVED, R320
   ⟨0x30, 1, 4, 0, .s, true, [.f 63 0 .rc (.lit 0)]⟩, -- FDB_AGED, R323
   ⟨0x38, 1, 4, 0, .s, false, [.f 31 0 .rc (.lit 0)]⟩, -- FDB_LEARN_LOST, R316
   ⟨0x3c, 1, 4, 0, .s, false, [.f 31 0 .rc (.lit 0)]⟩, -- FDB_FULL, R320
   ⟨0x40, 1, 4, 0, .s, false, [.f 31 0 .rc (.lit 0)]⟩, -- FDB_STATIC_CONFLICT, R315
   ⟨0x44, 1, 4, 0, .s, false, [.f 31 0 .rc (.lit 0)]⟩, -- FDB_PARITY_ERR, R338
   ⟨0x80, 16, 4, 0, .c, false, [.g 19 0 .rw (.lit 0x12c) (.rng 1 1000000) false, .g 21 20 .rw (.lit 0) (.rng 0 2) false]⟩, -- FDB_DOMAIN_CFG, R340
   ⟨0x100, 259, 4, 0, .g, false, [.g 11 0 .rw (.lit 1) (.rng 1 4094) false, .f 13 13 .rw .below256]⟩, -- FDB_PORT, R340
   ⟨0x800, 8, 4, 0, .d, false, [.f 31 0 .rw (.lit 0)]⟩, -- FDB_TCMD, R337
   ⟨0x820, 1, 4, 0, .d, false, [.f 31 0 .wo (.lit 0)]⟩, -- FDB_TCMD_GO, R337
   ⟨0x824, 1, 4, 0, .s, false, [.f 0 0 .ro (.lit 0), .f 1 1 .w1c (.lit 0)]⟩, -- FDB_TCMD_STATUS, R340
   ⟨0x840, 8, 4, 0, .s, false, [.f 31 0 .ro (.lit 0)]⟩] -- FDB_TCMD_RES, R337

/-- Registers of block LPM, part 0. -/
def rowsLpm0 : List RegRow :=
  [⟨0, 1, 4, 0, .c, false, [.g 1 0 .rw (.lit 0) (.rng 0 1) false, .g 3 2 .rw (.lit 0) (.rng 0 1) false, .f 6 4 .rw (.lit 0)]⟩, -- LPM_CFG, R340
   ⟨4, 1, 4, 0, .s, false, [.f 18 0 .ro (.lit 0)]⟩, -- LPM_UNITS, R326
   ⟨8, 1, 4, 0, .s, false, [.f 18 0 .ro (.lit 0)]⟩, -- LPM_V4_PREFIXES, R339
   ⟨0xc, 1, 4, 0, .s, false, [.f 16 0 .ro (.lit 0)]⟩, -- LPM_V6_PREFIXES, R339
   ⟨0x10, 1, 4, 0, .s, false, [.f 0 0 .w1c (.lit 0)]⟩, -- LPM_STATUS, R339
   ⟨0x14, 1, 4, 0, .s, false, [.f 31 0 .rc (.lit 0)]⟩, -- LPM_PARITY_ERR, R338
   ⟨0x18, 1, 4, 0, .s, true, [.f 63 0 .rc (.lit 0)]⟩, -- LPM_MISSES, R339
   ⟨0x40, 4, 4, 0, .s, false, [.f 11 0 .ro (.lit 0), .f 27 16 .ro (.lit 0)]⟩] -- LPM_COPY_STATE, R339

/-- Registers of block NHP, part 0. -/
def rowsNhp0 : List RegRow :=
  [⟨0, 1, 4, 0, .s, false, [.f 0 0 .w1c (.lit 0)]⟩, -- NHP_STATUS, R339
   ⟨4, 1, 4, 0, .s, false, [.f 31 0 .rc (.lit 0)]⟩, -- NHP_PARITY_ERR, R338
   ⟨8, 1, 4, 0, .s, false, [.f 31 0 .rc (.lit 0)]⟩] -- NHP_NO_LIVE, R329

/-- Registers of block MCG, part 0. -/
def rowsMcg0 : List RegRow :=
  [⟨0, 1, 4, 0, .s, false, [.f 0 0 .w1c (.lit 0)]⟩, -- MCG_STATUS, R339
   ⟨4, 1, 4, 0, .s, false, [.f 31 0 .rc (.lit 0)]⟩, -- MCG_PARITY_ERR, R338
   ⟨8, 1, 4, 0, .s, false, [.f 31 0 .rc (.lit 0)]⟩, -- MCG_LIST_LONG, R332
   ⟨0xc, 1, 4, 0, .s, false, [.f 31 0 .rc (.lit 0)]⟩, -- MCG_LIST_BROKEN, R332
   ⟨0x10, 1, 4, 0, .s, false, [.f 31 0 .rc (.lit 0)]⟩, -- MCG_DUP_COPY, R332
   ⟨0x14, 1, 4, 0, .s, false, [.f 31 0 .rc (.lit 0)]⟩] -- MCG_PRUNED, R304

/-- Registers of block STR, part 0. -/
def rowsStr0 : List RegRow :=
  [⟨0, 1, 4, 0, .s, true, [.f 63 0 .rc (.lit 0)]⟩, -- STR_WRONG_SLICE, R289
   ⟨8, 1, 4, 0, .s, false, [.f 16 0 .ro (.lit 0)]⟩] -- STR_FR_COUNT, R299

/-- Registers of block PRS, part 0. -/
def rowsPrs0 : List RegRow :=
  [⟨0, 1, 4, 0, .g, false, [.f 0 0 .rw (.lit 1), .f 1 1 .rw (.lit 0)]⟩, -- PRS_CFG, R298
   ⟨4, 1, 4, 0, .g, false, [.g 15 0 .rw (.lit 0x8100) (.rng 1536 65535) false, .g 31 16 .rw (.lit 0x88a8) (.rng 1536 65535) false]⟩, -- PRS_TPID, R298
   ⟨8, 1, 4, 0, .g, false, [.g 15 0 .rw (.lit 0) .special false, .g 22 16 .rw (.lit 2) (.rng 2 64) false]⟩, -- PRS_UDH, R298
   ⟨0xc, 1, 4, 0, .g, false, [.g 5 0 .rw (.lit 0) .special false, .g 13 8 .rw (.lit 0x3f) .special false]⟩, -- PRS_UDH_OFF, R298
   ⟨0x10, 1, 4, 0, .d, false, [.f 0 0 .rw (.lit 1), .f 1 1 .rw (.lit 1), .f 2 2 .rw (.lit 0), .f 3 3 .rw (.lit 0), .f 4 4 .rw (.lit 0)]⟩, -- PRS_HASH_CFG, R278,R298
   ⟨0x14, 1, 4, 0, .d, false, [.f 31 0 .rw (.lit 0)]⟩, -- PRS_HASH_SEED, R278,R298
   ⟨0x18, 1, 4, 0, .s, false, [.f 0 0 .w1c (.lit 0)]⟩, -- PRS_STATUS, R298
   ⟨0x20, 1, 4, 0, .g, false, [.f 0 0 .rw (.lit 0), .f 1 1 .rw (.lit 0), .f 2 2 .rw (.lit 0), .g 16 8 .rw (.lit 0) (.rng 0 258) false]⟩, -- PRS_MAL_ACTION, R298
   ⟨0x108, 12, 8, 1, .s, true, [.f 63 0 .rc (.lit 0)]⟩, -- PRS_MAL_CNT, R277
   ⟨0x180, 1, 4, 0, .s, true, [.f 63 0 .rc (.lit 0)]⟩] -- PRS_DEPTH_STOP, R274

/-- Registers of block CLS, part 0. -/
def rowsCls0 : List RegRow :=
  [⟨0, 8, 4, 0, .d, false, [.f 0 0 .rw (.lit 0), .f 3 1 .rw (.lit 0)]⟩, -- CLS_BANK_CFG, R281,R298
   ⟨0x20, 1, 4, 0, .g, false, [.f 0 0 .rw (.lit 0), .f 1 1 .rw (.lit 0), .f 4 2 .rw (.lit 0)]⟩, -- CLS_DEFAULT, R298
   ⟨0x24, 1, 4, 0, .s, false, [.f 0 0 .w1c (.lit 0), .f 1 1 .w1c (.lit 0)]⟩, -- CLS_STATUS, R298
   ⟨0x28, 1, 4, 0, .s, false, [.f 31 0 .rc (.lit 0)]⟩, -- CLS_PARITY_ERR, R285
   ⟨0x30, 1, 4, 0, .s, true, [.f 63 0 .rc (.lit 0)]⟩, -- CLS_HITS, R298
   ⟨0x38, 1, 4, 0, .s, true, [.f 63 0 .rc (.lit 0)]⟩] -- CLS_MISSES, R298

/-- Registers of block HGT, part 0. -/
def rowsHgt0 : List RegRow :=
  [⟨0, 1, 4, 0, .s, true, [.f 63 0 .rc (.lit 0)]⟩, -- HGT_FILTER_DROP, R298
   ⟨8, 1, 4, 0, .s, true, [.f 63 0 .rc (.lit 0)]⟩, -- HGT_GATE_DROP, R298
   ⟨0x10, 1, 4, 0, .s, true, [.f 63 0 .rc (.lit 0)]⟩, -- HGT_RCV_DROP, R298
   ⟨0x18, 1, 4, 0, .s, true, [.f 63 0 .rc (.lit 0)]⟩, -- HGT_METER_DROP, R298
   ⟨0x20, 1, 4, 0, .s, false, [.f 15 0 .ro (.lit 0), .f 31 16 .ro (.lit 0)]⟩] -- HGT_LATCHED, R298

/-- Registers of block ENG, part 0. -/
def rowsEng0 : List RegRow :=
  [⟨0, 1, 4, 0, .g, false, [.f 0 0 .rw (.lit 0), .f 1 1 .rw (.lit 0), .f 4 2 .rw (.lit 0), .g 11 8 .rw (.lit 8) (.rng 1 8) false]⟩, -- ENG_CFG, R387
   ⟨4, 1, 4, 0, .s, false, [.f 7 0 .ro (.lit 0xff), .f 11 8 .ro (.lit 8), .f 31 16 .ro (.lit 0x40)]⟩, -- ENG_STATUS, R387
   ⟨8, 1, 4, 0, .s, false, [.f 0 0 .w1c (.lit 0), .f 1 1 .w1c (.lit 0), .f 2 2 .w1c (.lit 0)]⟩, -- ENG_EVT, R386
   ⟨0x10, 1, 4, 0, .s, false, [.f 3 0 .ro (.lit 0), .f 6 4 .ro (.lit 0), .f 12 7 .ro (.lit 0), .f 25 13 .ro (.lit 0)]⟩, -- ENG_FAULT_LAST, R386
   ⟨0x14, 1, 4, 0, .s, false, [.f 8 0 .ro (.lit 0)]⟩, -- ENG_FAULT_PORT, R386
   ⟨0x24, 8, 4, 1, .s, false, [.f 31 0 .rc (.lit 0)]⟩, -- ENG_FAULT_CNT, R386
   ⟨0x44, 1, 4, 0, .s, false, [.f 31 0 .rc (.lit 0)]⟩, -- ENG_ECC_CORR, R386
   ⟨0x48, 1, 4, 0, .s, true, [.f 63 0 .rc (.lit 0)]⟩, -- ENG_FRAMES, R386
   ⟨0x50, 1, 4, 0, .s, true, [.f 63 0 .rc (.lit 0)]⟩, -- ENG_BYPASS, R386
   ⟨0x60, 1, 4, 0, .s, false, [.f 8 0 .ro (.lit 0), .f 24 16 .ro (.lit 0)]⟩, -- ENG_PROGRAMS, R386
   ⟨0x100, 16, 4, 0, .g, false, [.f 10 0 .rw (.lit 0), .g 15 12 .rw (.lit 0) .special false, .f 16 16 .rw (.lit 0)]⟩, -- ENG_TBL, R387
   ⟨0x200, 64, 4, 0, .g, false, [.f 2 0 .rw (.home 0), .f 10 8 .rw (.home 1), .f 18 16 .rw (.home 2), .f 26 24 .rw (.home 3)]⟩, -- ENG_HOME, R386
   ⟨0x400, 256, 4, 0, .s, false, [.f 2 0 .ro (.lit 0), .f 8 8 .ro (.lit 0)]⟩] -- ENG_BKT_STATE, R386

/-- Registers of block PMU, part 0. -/
def rowsPmu0 : List RegRow :=
  [⟨0, 1, 4, 0, .s, false, [.f 4 0 .ro (.lit 0), .f 7 5 .ro (.lit 0), .f 31 8 .ro (.lit 0)]⟩, -- PMU_ID, R499
   ⟨4, 1, 4, 0, .s, false, [.f 0 0 .ro (.lit 1), .f 2 1 .ro (.lit 0), .f 15 8 .ro (.lit 0)]⟩, -- PMU_STATUS, R499
   ⟨8, 1, 4, 0, .s, false, [.f 7 0 .w1c (.lit 0)]⟩, -- PMU_OVF, R498
   ⟨0xc, 1, 4, 0, .d, false, [.f 7 0 .wo (.lit 0)]⟩, -- PMU_CMD, R498
   ⟨0x10, 1, 4, 0, .s, true, [.f 63 0 .ro (.lit 0)]⟩, -- PMU_CYCLE, R498
   ⟨0x18, 1, 4, 0, .d, false, [.f 4 0 .rw (.lit 0), .f 8 8 .rw (.lit 0)]⟩, -- PMU_SYNC_CFG, R499
   ⟨0x20, 1, 4, 0, .s, true, [.f 63 0 .ro (.lit 0)]⟩, -- PMU_SYNC_CYC, R498
   ⟨0x28, 1, 4, 0, .s, false, [.f 31 0 .ro (.lit 0)]⟩, -- PMU_SYNC_K, R498
   ⟨0x100, 8, 0x40, 0, .d, false, [.f 7 0 .rw (.lit 0), .f 19 8 .rw (.lit 0xfff), .f 22 20 .rw (.lit 0), .f 23 23 .rw (.lit 0), .f 24 24 .rw (.lit 0)]⟩, -- PMU_EVT, R499
   ⟨0x104, 8, 0x40, 0, .d, false, [.f 26 0 .rw (.lit 0)]⟩, -- PMU_THRESH, R498
   ⟨0x108, 8, 0x40, 0, .d, false, [.g 23 0 .rw (.lit 0x3e8) (.rng 1 10000000) false]⟩, -- PMU_WINDOW, R489,R498
   ⟨0x10c, 8, 0x40, 0, .s, false, [.f 31 0 .ro (.lit 0)]⟩, -- PMU_CNT_LO, R498
   ⟨0x110, 8, 0x40, 0, .s, false, [.f 15 0 .ro (.lit 0), .f 16 16 .ro (.lit 0), .f 31 31 .ro (.lit 0)]⟩, -- PMU_CNT_HI, R499
   ⟨0x114, 8, 0x40, 0, .s, true, [.f 63 0 .ro (.lit 0)]⟩, -- PMU_CNT_CYC, R498
   ⟨0x11c, 8, 0x40, 0, .s, false, [.f 31 0 .ro (.lit 0)]⟩, -- PMU_CNT_RATE, R498
   ⟨0x120, 8, 0x40, 0, .s, false, [.f 31 0 .ro (.lit 0)]⟩] -- PMU_CNT_WIN, R498

/-- Registers of block SER, part 0. -/
def rowsSer0 : List RegRow :=
  [⟨0, 1, 4, 0, .c, false, [.g 3 0 .rw (.lit 0) .special false, .g 4 4 .rw (.lit 0) .special false, .f 5 5 .rw (.lit 0)]⟩, -- SER_CFG, R194
   ⟨4, 1, 4, 0, .c, false, [.g 0 0 .rw (.lit 0) .special false, .f 1 1 .rw (.lit 0)]⟩, -- SER_REFCLK, R194
   ⟨8, 1, 4, 0, .c, false, [.f 1 0 .rw (.lit 0), .g 3 2 .rw (.lit 1) .special false, .g 5 4 .rw (.lit 2) .special false, .g 7 6 .rw (.lit 3) .special false, .f 9 8 .rw (.lit 0), .g 11 10 .rw (.lit 1) .special false, .g 13 12 .rw (.lit 2) .special false, .g 15 14 .rw (.lit 3) .special false]⟩, -- SER_MAP, R168,R194
   ⟨0xc, 1, 4, 0, .s, false, [.f 3 0 .ro (.lit 0), .f 5 5 .ro (.lit 0), .f 6 6 .ro (.lit 0), .f 7 7 .ro (.lit 0)]⟩, -- SER_STATUS, R195
   ⟨0x10, 1, 4, 0, .s, false, [.f 15 0 .ro (.lit 0)]⟩, -- SER_REFCLK_MEAS, R193
   ⟨0x100, 4, 0x40, 0, .c, false, [.f 0 0 .rw (.lit 0), .f 1 1 .rw (.lit 0), .f 10 10 .rw (.lit 1), .g 11 11 .rw (.lit 0) .special false, .f 15 12 .rw (.lit 6)]⟩, -- SER_LANE_CFG, R195
   ⟨0x104, 4, 0x40, 0, .c, false, [.g 7 0 .rw (.lit 3) (.rng 0 15) false, .g 15 8 .rw (.lit 0x34) .special false, .g 23 16 .rw (.lit 8) .special false, .f 24 24 .rw (.lit 1)]⟩, -- SER_LANE_EQ, R195
   ⟨0x108, 4, 0x40, 0, .s, false, [.f 0 0 .ro (.lit 0), .f 1 1 .ro (.lit 0), .f 2 2 .ro (.lit 0), .f 3 3 .ro (.lit 0), .f 4 4 .ro (.lit 0), .f 7 5 .ro (.lit 0), .f 15 8 .ro (.lit 0)]⟩, -- SER_LANE_STATUS, R195
   ⟨0x10c, 4, 0x40, 0, .s, false, [.f 0 0 .w1c (.lit 0), .f 1 1 .w1c (.lit 0), .f 2 2 .w1c (.lit 0), .f 3 3 .w1c (.lit 0), .f 4 4 .w1c (.lit 0), .f 5 5 .w1c (.lit 0)]⟩, -- SER_LANE_EVT, R195
   ⟨0x110, 4, 0x40, 0, .d, false, [.f 3 0 .wo (.lit 0)]⟩, -- SER_LANE_CMD, R193
   ⟨0x114, 4, 0x40, 0, .s, false, [.f 0 0 .ro (.lit 0), .f 7 4 .ro (.lit 0)]⟩, -- SER_LANE_CMD_STATUS, R193
   ⟨0x118, 4, 0x40, 0, .s, false, [.f 31 0 .rc (.lit 0)]⟩, -- SER_LANE_CODE_ERR, R193
   ⟨0x11c, 4, 0x40, 0, .s, false, [.f 31 0 .rc (.lit 0)]⟩, -- SER_LANE_PRBS_ERR, R193
   ⟨0x120, 4, 0x40, 0, .s, false, [.f 31 0 .rc (.lit 0)]⟩, -- SER_LANE_FEC_CORR, R193
   ⟨0x124, 4, 0x40, 0, .s, false, [.f 31 0 .rc (.lit 0)]⟩, -- SER_LANE_FEC_UNCORR, R193
   ⟨0x800, 4, 0x100, 0, .c, false, [.f 0 0 .rw (.lit 1), .g 15 4 .rw (.lit 0x7d) (.rng 1 1000) false, .g 23 16 .rw (.lit 0x10) (.rng 1 255) false, .g 31 24 .rw (.lit 0x14) (.rng 1 100) false]⟩, -- SER_TS_CFG, R196
   ⟨0x804, 4, 0x100, 0, .c, false, [.g 9 0 .rw (.lit 0x64) (.rng 1 1000) false, .f 23 16 .rw (.lit 0xff)]⟩, -- SER_TS_CFG2, R196
   ⟨0x808, 4, 0x100, 0, .c, false, [.f 31 0 .rw (.lit 0)]⟩, -- SER_TS_CYC_EN, R193
   ⟨0x80c, 4, 0x100, 0, .d, false, [.f 0 0 .wo (.lit 0)]⟩, -- SER_TS_CMD, R193
   ⟨0x810, 4, 0x100, 0, .c, false, [.g 12 0 .rw (.lit 0x40) (.rng 8 4096) false]⟩, -- SER_TS_CREDIT_0, R193
   ⟨0x814, 4, 0x100, 0, .c, false, [.g 12 0 .rw (.lit 0x40) (.rng 8 4096) false]⟩, -- SER_TS_CREDIT_1, R193
   ⟨0x818, 4, 0x100, 0, .c, false, [.g 12 0 .rw (.lit 0x40) (.rng 8 4096) false]⟩, -- SER_TS_CREDIT_2, R193
   ⟨0x81c, 4, 0x100, 0, .c, false, [.g 12 0 .rw (.lit 0x40) (.rng 8 4096) false]⟩, -- SER_TS_CREDIT_3, R193
   ⟨0x820, 4, 0x100, 0, .c, false, [.g 12 0 .rw (.lit 0x40) (.rng 8 4096) false]⟩] -- SER_TS_CREDIT_4, R193

/-- Registers of block SER, part 1. -/
def rowsSer1 : List RegRow :=
  [⟨0x824, 4, 0x100, 0, .c, false, [.g 12 0 .rw (.lit 0x40) (.rng 8 4096) false]⟩, -- SER_TS_CREDIT_5, R193
   ⟨0x828, 4, 0x100, 0, .c, false, [.g 12 0 .rw (.lit 0x40) (.rng 8 4096) false]⟩, -- SER_TS_CREDIT_6, R193
   ⟨0x82c, 4, 0x100, 0, .c, false, [.g 12 0 .rw (.lit 0x40) (.rng 8 4096) false]⟩, -- SER_TS_CREDIT_7, R193
   ⟨0x830, 4, 0x100, 0, .s, false, [.f 2 0 .ro (.lit 0), .f 6 4 .ro (.lit 0), .f 11 8 .ro (.lit 0), .f 12 12 .ro (.lit 0), .f 13 13 .ro (.lit 0), .f 31 24 .ro (.lit 0)]⟩, -- SER_TS_STATUS, R196
   ⟨0x834, 4, 0x100, 0, .s, false, [.f 0 0 .w1c (.lit 0), .f 1 1 .w1c (.lit 0), .f 2 2 .w1c (.lit 0), .f 3 3 .w1c (.lit 0), .f 4 4 .w1c (.lit 0)]⟩, -- SER_TS_EVT, R193
   ⟨0x838, 4, 0x100, 0, .s, false, [.f 31 0 .rc (.lit 0)]⟩, -- SER_TS_OS_ERR, R193
   ⟨0x83c, 4, 0x100, 0, .s, false, [.f 31 0 .rc (.lit 0)]⟩, -- SER_TS_RETRAINS, R193
   ⟨0x840, 4, 0x100, 0, .s, false, [.f 15 0 .ro (.lit 0), .f 31 16 .ro (.lit 0)]⟩, -- SER_TS_PEER_CREDIT_0, R193
   ⟨0x844, 4, 0x100, 0, .s, false, [.f 15 0 .ro (.lit 0), .f 31 16 .ro (.lit 0)]⟩, -- SER_TS_PEER_CREDIT_1, R193
   ⟨0x848, 4, 0x100, 0, .s, false, [.f 15 0 .ro (.lit 0), .f 31 16 .ro (.lit 0)]⟩, -- SER_TS_PEER_CREDIT_2, R193
   ⟨0x84c, 4, 0x100, 0, .s, false, [.f 15 0 .ro (.lit 0), .f 31 16 .ro (.lit 0)]⟩, -- SER_TS_PEER_CREDIT_3, R193
   ⟨0x850, 4, 0x100, 0, .s, false, [.f 15 0 .ro (.lit 0), .f 31 16 .ro (.lit 0)]⟩, -- SER_TS_PEER_CREDIT_4, R193
   ⟨0x854, 4, 0x100, 0, .s, false, [.f 15 0 .ro (.lit 0), .f 31 16 .ro (.lit 0)]⟩, -- SER_TS_PEER_CREDIT_5, R193
   ⟨0x858, 4, 0x100, 0, .s, false, [.f 15 0 .ro (.lit 0), .f 31 16 .ro (.lit 0)]⟩, -- SER_TS_PEER_CREDIT_6, R193
   ⟨0x85c, 4, 0x100, 0, .s, false, [.f 15 0 .ro (.lit 0), .f 31 16 .ro (.lit 0)]⟩, -- SER_TS_PEER_CREDIT_7, R193
   ⟨0x860, 4, 0x100, 0, .s, false, [.f 7 0 .ro (.lit 0), .f 15 8 .ro (.lit 0), .f 16 16 .ro (.lit 0), .f 31 31 .rc (.lit 0)]⟩, -- SER_TS_TTM_SEQ, R193
   ⟨0x864, 4, 0x100, 0, .s, false, [.f 31 0 .ro (.lit 0)]⟩, -- SER_TS_PEER_TX_SEC, R193
   ⟨0x868, 4, 0x100, 0, .s, false, [.f 31 0 .ro (.lit 0)]⟩, -- SER_TS_PEER_TX_NS, R193
   ⟨0x86c, 4, 0x100, 0, .s, false, [.f 15 0 .ro (.lit 0)]⟩, -- SER_TS_PEER_TX_FRAC, R193
   ⟨0x870, 4, 0x100, 0, .s, false, [.f 31 0 .ro (.lit 0)]⟩, -- SER_TS_DEV_RX_SEC, R193
   ⟨0x874, 4, 0x100, 0, .s, false, [.f 31 0 .ro (.lit 0)]⟩, -- SER_TS_DEV_RX_NS, R193
   ⟨0x878, 4, 0x100, 0, .s, false, [.f 15 0 .ro (.lit 0)]⟩, -- SER_TS_DEV_RX_FRAC, R193
   ⟨0x880, 4, 0x100, 0, .s, false, [.f 31 0 .ro (.lit 0)]⟩, -- SER_TS_DEV_TX_SEC, R193
   ⟨0x884, 4, 0x100, 0, .s, false, [.f 31 0 .ro (.lit 0)]⟩] -- SER_TS_DEV_TX_NS, R193

/-- Registers of block SER, part 2. -/
def rowsSer2 : List RegRow :=
  [⟨0x888, 4, 0x100, 0, .s, false, [.f 15 0 .ro (.lit 0)]⟩, -- SER_TS_DEV_TX_FRAC, R193
   ⟨0x890, 4, 0x100, 0, .s, false, [.f 31 0 .ro (.lit 0)]⟩, -- SER_TS_PEER_RX_SEC, R193
   ⟨0x894, 4, 0x100, 0, .s, false, [.f 31 0 .ro (.lit 0)]⟩, -- SER_TS_PEER_RX_NS, R193
   ⟨0x898, 4, 0x100, 0, .s, false, [.f 15 0 .ro (.lit 0)]⟩, -- SER_TS_PEER_RX_FRAC, R193
   ⟨0x89c, 4, 0x100, 0, .s, false, [.f 31 0 .rc (.lit 0)]⟩] -- SER_TS_CYC_RX, R193

/-- Registers of block MAC, part 0. -/
def rowsMac0 : List RegRow :=
  [⟨0, 1, 4, 0, .c, false, [.f 0 0 .rw (.lit 1), .f 1 1 .rw (.lit 0)]⟩, -- MAC_CFG, R228
   ⟨4, 1, 4, 0, .c, false, [.g 13 0 .rw (.lit 0x5f2) (.rng 1518 16000) false]⟩, -- MAC_MAX_FRAME, R228
   ⟨8, 1, 4, 0, .c, true, [.f 47 0 .rw (.lit 0)]⟩, -- MAC_ADDR, R227
   ⟨0x10, 1, 4, 0, .c, false, [.g 1 0 .rw (.lit 0) .special true, .f 2 2 .rw (.lit 1), .f 15 8 .rw (.lit 0), .g 31 16 .rw (.lit 0xffff) (.rng 256 65535) true]⟩, -- MAC_PAUSE_CFG, R209,R228
   ⟨0x14, 1, 4, 0, .c, false, [.f 15 0 .rw (.lit 0x64), .f 31 16 .rw (.lit 0x3e8)]⟩, -- MAC_HEADROOM_CFG, R229
   ⟨0x18, 1, 4, 0, .s, false, [.f 15 0 .ro (.lit 0)]⟩, -- MAC_HEADROOM_STATUS, R229
   ⟨0x1c, 1, 4, 0, .c, false, [.g 0 0 .rw (.lit 0) .special false, .f 1 1 .rw (.lit 1), .f 5 4 .rw (.lit 0), .g 15 8 .rw (.lit 0xa) (.rng 1 128) false, .f 23 16 .rw (.lit 0xff)]⟩, -- MAC_PREEMPT_CFG, R229
   ⟨0x20, 1, 4, 0, .s, false, [.f 2 0 .ro (.lit 0), .f 3 3 .ro (.lit 0), .f 7 4 .ro (.lit 0)]⟩, -- MAC_PREEMPT_STATUS, R229
   ⟨0x24, 1, 4, 0, .c, false, [.g 10 0 .rw (.lit 0x32) (.rng 0 2000) false, .f 23 16 .rw (.lit 0xa)]⟩, -- MAC_LINK_CFG, R229
   ⟨0x28, 1, 4, 0, .s, false, [.f 0 0 .ro (.lit 0), .f 1 1 .ro (.lit 0), .f 2 2 .ro (.lit 0), .f 15 8 .ro (.lit 0), .f 23 16 .ro (.lit 0)]⟩, -- MAC_STATUS, R229
   ⟨0x2c, 1, 4, 0, .s, false, [.f 0 0 .w1c (.lit 0), .f 1 1 .w1c (.lit 0), .f 2 2 .w1c (.lit 0), .f 3 3 .w1c (.lit 0), .f 4 4 .w1c (.lit 0)]⟩, -- MAC_EVT, R229
   ⟨0x30, 1, 4, 0, .s, false, [.f 31 0 .rc (.lit 0)]⟩, -- MAC_LINK_DOWNS, R227
   ⟨0x34, 1, 4, 0, .d, false, [.f 0 0 .wo (.lit 0), .f 1 1 .wo (.lit 0)]⟩, -- MAC_CMD, R227
   ⟨0x100, 1, 4, 0, .s, true, [.f 63 0 .rc (.lit 0)]⟩, -- MAC_RX_OCTETS_ALL, R225
   ⟨0x108, 1, 4, 0, .s, true, [.f 63 0 .rc (.lit 0)]⟩, -- MAC_RX_OCTETS_GOOD, R225
   ⟨0x110, 1, 4, 0, .s, true, [.f 63 0 .rc (.lit 0)]⟩, -- MAC_RX_FRAMES_ALL, R225
   ⟨0x118, 1, 4, 0, .s, true, [.f 63 0 .rc (.lit 0)]⟩, -- MAC_RX_PASSED, R225
   ⟨0x120, 1, 4, 0, .s, true, [.f 63 0 .rc (.lit 0)]⟩, -- MAC_RX_UNICAST, R225
   ⟨0x128, 1, 4, 0, .s, true, [.f 63 0 .rc (.lit 0)]⟩, -- MAC_RX_MULTICAST, R225
   ⟨0x130, 1, 4, 0, .s, true, [.f 63 0 .rc (.lit 0)]⟩, -- MAC_RX_BROADCAST, R225
   ⟨0x138, 1, 4, 0, .s, true, [.f 63 0 .rc (.lit 0)]⟩, -- MAC_RX_PAUSE, R225
   ⟨0x140, 1, 4, 0, .s, true, [.f 63 0 .rc (.lit 0)]⟩, -- MAC_RX_PFC, R225
   ⟨0x148, 1, 4, 0, .s, true, [.f 63 0 .rc (.lit 0)]⟩, -- MAC_RX_CTRL_OTHER, R225
   ⟨0x150, 1, 4, 0, .s, true, [.f 63 0 .rc (.lit 0)]⟩] -- MAC_RX_RUNT, R225

/-- Registers of block MAC, part 1. -/
def rowsMac1 : List RegRow :=
  [⟨0x158, 1, 4, 0, .s, true, [.f 63 0 .rc (.lit 0)]⟩, -- MAC_RX_GIANT, R225
   ⟨0x160, 1, 4, 0, .s, true, [.f 63 0 .rc (.lit 0)]⟩, -- MAC_RX_TRUNCATED, R225
   ⟨0x168, 1, 4, 0, .s, true, [.f 63 0 .rc (.lit 0)]⟩, -- MAC_RX_FCS_ERR, R225
   ⟨0x170, 1, 4, 0, .s, true, [.f 63 0 .rc (.lit 0)]⟩, -- MAC_RX_ALIGN_ERR, R225
   ⟨0x178, 1, 4, 0, .s, true, [.f 63 0 .rc (.lit 0)]⟩, -- MAC_RX_CODING_ERR, R225
   ⟨0x180, 1, 4, 0, .s, true, [.f 63 0 .rc (.lit 0)]⟩, -- MAC_RX_ASSEMBLY_ERR, R225
   ⟨0x188, 1, 4, 0, .s, true, [.f 63 0 .rc (.lit 0)]⟩, -- MAC_RX_MAC_DISCARD, R225
   ⟨0x190, 1, 4, 0, .s, true, [.f 63 0 .rc (.lit 0)]⟩, -- MAC_RX_FRAGMENTS, R225
   ⟨0x198, 1, 4, 0, .s, true, [.f 63 0 .rc (.lit 0)]⟩, -- MAC_RX_64, R225
   ⟨0x1a0, 1, 4, 0, .s, true, [.f 63 0 .rc (.lit 0)]⟩, -- MAC_RX_65_127, R225
   ⟨0x1a8, 1, 4, 0, .s, true, [.f 63 0 .rc (.lit 0)]⟩, -- MAC_RX_128_255, R225
   ⟨0x1b0, 1, 4, 0, .s, true, [.f 63 0 .rc (.lit 0)]⟩, -- MAC_RX_256_511, R225
   ⟨0x1b8, 1, 4, 0, .s, true, [.f 63 0 .rc (.lit 0)]⟩, -- MAC_RX_512_1023, R225
   ⟨0x1c0, 1, 4, 0, .s, true, [.f 63 0 .rc (.lit 0)]⟩, -- MAC_RX_1024_1518, R225
   ⟨0x1c8, 1, 4, 0, .s, true, [.f 63 0 .rc (.lit 0)]⟩, -- MAC_RX_1519_MAX, R225
   ⟨0x1d0, 1, 4, 0, .s, true, [.f 63 0 .rc (.lit 0)]⟩, -- MAC_TX_OCTETS, R225
   ⟨0x1d8, 1, 4, 0, .s, true, [.f 63 0 .rc (.lit 0)]⟩, -- MAC_TX_FRAMES, R225
   ⟨0x1e0, 1, 4, 0, .s, true, [.f 63 0 .rc (.lit 0)]⟩, -- MAC_TX_UNICAST, R225
   ⟨0x1e8, 1, 4, 0, .s, true, [.f 63 0 .rc (.lit 0)]⟩, -- MAC_TX_MULTICAST, R225
   ⟨0x1f0, 1, 4, 0, .s, true, [.f 63 0 .rc (.lit 0)]⟩, -- MAC_TX_BROADCAST, R225
   ⟨0x1f8, 1, 4, 0, .s, true, [.f 63 0 .rc (.lit 0)]⟩, -- MAC_TX_PAUSE, R225
   ⟨0x200, 1, 4, 0, .s, true, [.f 63 0 .rc (.lit 0)]⟩, -- MAC_TX_PFC, R225
   ⟨0x208, 1, 4, 0, .s, true, [.f 63 0 .rc (.lit 0)]⟩, -- MAC_TX_ABORTED, R225
   ⟨0x210, 1, 4, 0, .s, true, [.f 63 0 .rc (.lit 0)]⟩] -- MAC_TX_OVERSIZE_DROP, R225

/-- Registers of block MAC, part 2. -/
def rowsMac2 : List RegRow :=
  [⟨0x218, 1, 4, 0, .s, true, [.f 63 0 .rc (.lit 0)]⟩, -- MAC_TX_PREEMPTED, R225
   ⟨0x220, 1, 4, 0, .s, true, [.f 63 0 .rc (.lit 0)]⟩, -- MAC_TX_FRAGMENTS, R225
   ⟨0x228, 1, 4, 0, .s, true, [.f 63 0 .rc (.lit 0)]⟩, -- MAC_TX_64, R225
   ⟨0x230, 1, 4, 0, .s, true, [.f 63 0 .rc (.lit 0)]⟩, -- MAC_TX_65_127, R225
   ⟨0x238, 1, 4, 0, .s, true, [.f 63 0 .rc (.lit 0)]⟩, -- MAC_TX_128_255, R225
   ⟨0x240, 1, 4, 0, .s, true, [.f 63 0 .rc (.lit 0)]⟩, -- MAC_TX_256_511, R225
   ⟨0x248, 1, 4, 0, .s, true, [.f 63 0 .rc (.lit 0)]⟩, -- MAC_TX_512_1023, R225
   ⟨0x250, 1, 4, 0, .s, true, [.f 63 0 .rc (.lit 0)]⟩, -- MAC_TX_1024_1518, R225
   ⟨0x258, 1, 4, 0, .s, true, [.f 63 0 .rc (.lit 0)]⟩] -- MAC_TX_1519_MAX, R225

/-- Registers of block QUE, part 0. -/
def rowsQue0 : List RegRow :=
  [⟨0, 1, 4, 0, .c, false, [.g 7 0 .rw (.lit 0x14) .special false]⟩, -- QUE_CFG, R460
   ⟨4, 1, 4, 0, .c, false, [.f 23 0 .rw (.lit 0xfac688)]⟩, -- QUE_PRIO_MAP, R460
   ⟨8, 1, 4, 0, .s, false, [.f 7 0 .ro (.lit 0), .f 15 8 .ro (.lit 0), .f 23 16 .ro (.lit 0), .f 31 24 .ro (.lit 0xff)]⟩, -- QUE_STATUS, R460
   ⟨0xc, 1, 4, 0, .s, false, [.f 29 0 .ro (.lit 0), .f 31 31 .ro (.lit 0)]⟩, -- QUE_NEXT_RELEASE, R460
   ⟨0x20, 8, 4, 0, .s, false, [.f 26 0 .ro (.lit 0)]⟩, -- QUE_DEPTH, R460
   ⟨0x40, 8, 4, 0, .s, false, [.f 23 0 .ro (.lit 0)]⟩] -- QUE_FRAMES, R460

/-- Registers of block SCH, part 0. -/
def rowsSch0 : List RegRow :=
  [⟨0, 1, 4, 0, .c, false, [.f 0 0 .rw (.lit 0), .f 1 1 .rw (.lit 0)]⟩, -- SCH_PORT_CFG, R461
   ⟨4, 1, 4, 0, .c, false, [.g 26 0 .rw (.lit 0x5f5e100) (.rng 8 100000000) false]⟩, -- SCH_PORT_RATE, R461
   ⟨8, 1, 4, 0, .c, false, [.g 23 0 .rw (.lit 0x4000) (.rng 64 16777215) false]⟩, -- SCH_PORT_BURST, R461
   ⟨0xc, 1, 4, 0, .s, false, [.f 31 0 .ro (.lit 0)]⟩, -- SCH_PORT_LEVEL, R461
   ⟨0x20, 8, 0x10, 0, .c, false, [.f 2 0 .rw .idx, .f 4 4 .rw (.lit 0), .f 5 5 .rw (.lit 0)]⟩, -- SCH_Q_CFG, R461
   ⟨0x24, 8, 0x10, 0, .c, false, [.g 20 0 .rw (.lit 0x640) (.rng 64 1048576) false]⟩, -- SCH_Q_QUANTUM, R461
   ⟨0x28, 8, 0x10, 0, .c, false, [.g 26 0 .rw (.lit 0x5f5e100) (.rng 8 100000000) false]⟩, -- SCH_Q_RATE, R461
   ⟨0x2c, 8, 0x10, 0, .c, false, [.g 23 0 .rw (.lit 0x4000) (.rng 64 16777215) false]⟩, -- SCH_Q_BURST, R461
   ⟨0xa0, 8, 4, 0, .s, false, [.f 31 0 .ro (.lit 0)]⟩, -- SCH_Q_LEVEL, R461
   ⟨0xc0, 8, 4, 0, .s, false, [.f 21 0 .ro (.lit 0)]⟩, -- SCH_Q_DEFICIT, R461
   ⟨0x100, 8, 0x60, 0, .s, true, [.f 63 0 .rc (.lit 0)]⟩, -- SCH_SENT, R459,R461
   ⟨0x108, 8, 0x60, 0, .s, true, [.f 63 0 .rc (.lit 0)]⟩, -- SCH_SENT_OCTETS, R459,R461
   ⟨0x110, 8, 0x60, 0, .s, true, [.f 63 0 .rc (.lit 0)]⟩, -- SCH_DEFERRED, R459,R461
   ⟨0x118, 8, 0x60, 0, .s, true, [.f 63 0 .rc (.lit 0)]⟩, -- SCH_LATE_SENT, R459,R461
   ⟨0x120, 8, 0x60, 0, .s, true, [.f 63 0 .rc (.lit 0)]⟩, -- SCH_LATE_DISCARD, R459,R461
   ⟨0x128, 8, 0x60, 0, .s, true, [.f 63 0 .rc (.lit 0)]⟩, -- SCH_LIFETIME, R459,R461
   ⟨0x130, 8, 0x60, 0, .s, true, [.f 63 0 .rc (.lit 0)]⟩, -- SCH_NEVER_FITS, R459,R461
   ⟨0x138, 8, 0x60, 0, .s, true, [.f 63 0 .rc (.lit 0)]⟩, -- SCH_PORT_DOWN, R459,R461
   ⟨0x140, 8, 0x60, 0, .s, true, [.f 63 0 .rc (.lit 0)]⟩, -- SCH_EGRESS_FILTER, R459,R461
   ⟨0x148, 8, 0x60, 0, .s, true, [.f 63 0 .rc (.lit 0)]⟩] -- SCH_OTHER, R459,R461

/-- Registers of block GCL, part 0. -/
def rowsGcl0 : List RegRow :=
  [⟨0, 1, 4, 0, .g, false, [.f 0 0 .rw (.lit 0), .f 12 8 .rw (.lit 0), .g 26 16 .rw (.lit 0) (.rng 0 1024) false]⟩, -- GCL_CFG, R462
   ⟨4, 1, 4, 0, .g, false, [.f 7 0 .rw (.lit 0xff)]⟩, -- GCL_IDLE_GATES, R462
   ⟨8, 1, 4, 0, .s, false, [.f 7 0 .ro (.lit 0xff), .f 8 8 .ro (.lit 0), .f 9 9 .ro (.lit 0), .f 26 16 .ro (.lit 0)]⟩, -- GCL_STATUS, R462
   ⟨0x10, 8, 4, 0, .s, false, [.f 31 0 .ro (.lit 0)]⟩, -- GCL_MAXOPEN, R462
   ⟨0x2000, 1024, 8, 0, .g, false, [.f 7 0 .rw (.lit 0)]⟩, -- GCL_ENTRY_GATES, R462
   ⟨0x2004, 1024, 8, 0, .g, false, [.g 29 0 .rw (.lit 8) (.rng 8 1000000000) false]⟩] -- GCL_ENTRY_INTERVAL, R462

/-- The register blocks in rising order of their base (R118). -/
def regBlocks : List RegBlock :=
  [⟨.glb, 0, 1, 0x10000, rowsGlb0⟩,
   ⟨.pci, 0x10000, 1, 0x10000, rowsPci0⟩,
   ⟨.rng, 0x20000, 1, 0x10000, rowsRng0 ++ rowsRng1 ++ rowsRng2⟩,
   ⟨.prt, 0x30000, 1, 0x10000, rowsPrt0⟩,
   ⟨.gen, 0x40000, 1, 0x10000, rowsGen0⟩,
   ⟨.tim, 0x50000, 1, 0x10000, rowsTim0 ++ rowsTim1⟩,
   ⟨.bpm, 0x60000, 1, 0x10000, rowsBpm0 ++ rowsBpm1⟩,
   ⟨.recorder, 0x70000, 1, 0x10000, rowsRec0⟩,
   ⟨.svc, 0x80000, 1, 0x10000, rowsSvc0⟩,
   ⟨.mrm, 0x90000, 1, 0x10000, rowsMrm0⟩,
   ⟨.fdb, 0xa0000, 1, 0x10000, rowsFdb0⟩,
   ⟨.lpm, 0xb0000, 1, 0x10000, rowsLpm0⟩,
   ⟨.nhp, 0xc0000, 1, 0x10000, rowsNhp0⟩,
   ⟨.mcg, 0xd0000, 1, 0x10000, rowsMcg0⟩,
   ⟨.str, 0xe0000, 1, 0x10000, rowsStr0⟩,
   ⟨.prs, 0x100000, 8, 0x2000, rowsPrs0⟩,
   ⟨.cls, 0x110000, 8, 0x2000, rowsCls0⟩,
   ⟨.hgt, 0x120000, 8, 0x2000, rowsHgt0⟩,
   ⟨.eng, 0x140000, 8, 0x4000, rowsEng0⟩,
   ⟨.pmu, 0x180000, 30, 0x1000, rowsPmu0⟩,
   ⟨.ser, 0x200000, 64, 0x1000, rowsSer0 ++ rowsSer1 ++ rowsSer2⟩,
   ⟨.mac, 0x400000, 256, 0x400, rowsMac0 ++ rowsMac1 ++ rowsMac2⟩,
   ⟨.que, 0x600000, 272, 0x200, rowsQue0⟩,
   ⟨.sch, 0x800000, 272, 0x400, rowsSch0⟩,
   ⟨.gcl, 0x1000000, 256, 0x4000, rowsGcl0⟩]

/-- What an offset of BAR0 names: the block, its instance, the register, its index and whether it is the high word of a
64-bit register. `at` is the offset of the register's low word. -/
structure RegHit where
  blk : Blk
  inst : Nat
  row : RegRow
  idx : Nat
  hiWord : Bool
  lowOff : Nat
deriving DecidableEq, Repr

/-- The row of a block that an offset within the instance names. -/
def findRow (rel : Nat) : List RegRow → Option (RegRow × Nat × Bool)
  | [] => none
  | r :: rs =>
    let d := rel - r.off
    let k := d / r.step
    if r.off ≤ rel ∧ k < r.cnt ∧ d % r.step = 0 then some (r, k + r.start, false)
    else if r.wide = true ∧ r.off + 4 ≤ rel ∧ (d - 4) / r.step < r.cnt ∧ (d - 4) % r.step = 0 then
      some (r, (d - 4) / r.step + r.start, true)
    else findRow rel rs

/-- The block that an offset lies in. -/
def findBlock (off : Nat) : List RegBlock → Option RegBlock
  | [] => none
  | b :: bs => if b.base ≤ off ∧ off < b.base + b.inst * b.stride then some b else findBlock off bs

/-- What an offset of BAR0 names; none for an offset that lies in no block or names no register
(R119), for SER_REFCLK and SER_REFCLK_MEAS away from the first quad of a group (R193), and for PRS_HASH_CFG and PRS_HASH_SEED
away from S0 (R278). -/
def regAt (off : Nat) : Option RegHit :=
  match findBlock off regBlocks with
  | none => none
  | some b =>
    let i := (off - b.base) / b.stride
    match findRow ((off - b.base) % b.stride) b.rows with
    | none => none
    | some (r, k, h) =>
      if (b.blk = .ser ∧ (r.off = 4 ∨ r.off = 0x10) ∧ i % 4 ≠ 0) ∨
          (b.blk = .prs ∧ (r.off = 0x10 ∨ r.off = 0x14) ∧ i ≠ 0) then none else some ⟨b.blk, i, r, k, h, if h then off - 4 else off⟩

/-- The reset value of a field in instance `i`, index `k`. -/
def Reset.val (_i k : Nat) : Reset → Nat
  | .lit n => n
  | .idx => k
  | .mod120 => k % 120
  | .div30 => k / 30
  | .mod30 => k % 30
  | .below256 => if k < 256 then 1 else 0
  | .home j => (4 * k + j) % 8

/-- The reset value of a whole register (both words of a 64-bit one). -/
def RegHit.resetVal (h : RegHit) : Nat :=
  h.row.fields.foldl (fun a f => a ||| (f.reset.val h.inst h.idx) <<< f.lo) 0

/-- The reset value of the 32-bit word at an offset; 0 where no register lies there. -/
def resetWord (off : Nat) : Nat :=
  match regAt off with
  | none => 0
  | some h => if h.hiWord then h.resetVal >>> 32 else h.resetVal % 2 ^ 32

end Sys2Proof.Machine

/-! Offsets of the registers by name: the first argument is the block's instance where it has several, the last the
register's index where it is an array. -/

namespace Sys2Proof.Machine.R

def glbId : Nat := 0x0
def glbUnique : Nat := 0x8
def glbMode : Nat := 0x20
def glbModeCmd : Nat := 0x24
def glbWakeInfo : Nat := 0x28
def glbFaultStatus : Nat := 0x2c
def glbDateHint : Nat := 0x30
def glbGuarantee : Nat := 0x40
def glbClampCtrl : Nat := 0x50
def glbClampStatus : Nat := 0x54
def glbClampTotal : Nat := 0x58
def glbImageAddr : Nat := 0x60
def glbImageCmd : Nat := 0x68
def glbImageStatus : Nat := 0x6c
def glbImageSlot (k : Nat) : Nat := 0x70 + 4 * k
def glbMgmtMac (k : Nat) : Nat := 0x80 + 8 * k
def glbClampLogField (k : Nat) : Nat := 0x1000 + 0x10 * k
def glbClampLogWritten (k : Nat) : Nat := 0x1004 + 0x10 * k
def glbClampLogUsed (k : Nat) : Nat := 0x1008 + 0x10 * k
def glbClampLogInfo (k : Nat) : Nat := 0x100c + 0x10 * k
def pciLink : Nat := 0x10000
def pciAerCorr : Nat := 0x10004
def pciAerUncorr : Nat := 0x10008
def pciFlrCount : Nat := 0x1000c
def rngRxBase (k : Nat) : Nat := 0x20000 + 0x40 * k
def rngRxCtrl (k : Nat) : Nat := 0x20008 + 0x40 * k
def rngRxCfg (k : Nat) : Nat := 0x2000c + 0x40 * k
def rngRxMod (k : Nat) : Nat := 0x20010 + 0x40 * k
def rngRxHead (k : Nat) : Nat := 0x20014 + 0x40 * k
def rngRxFetch (k : Nat) : Nat := 0x20018 + 0x40 * k
def rngRxTail (k : Nat) : Nat := 0x2001c + 0x40 * k
def rngRxStatus (k : Nat) : Nat := 0x20020 + 0x40 * k
def rngRxDoneCnt (k : Nat) : Nat := 0x20028 + 0x40 * k
def rngTxBase (k : Nat) : Nat := 0x21000 + 0x40 * k
def rngTxCtrl (k : Nat) : Nat := 0x21008 + 0x40 * k
def rngTxCfg (k : Nat) : Nat := 0x2100c + 0x40 * k
def rngTxMod (k : Nat) : Nat := 0x21010 + 0x40 * k
def rngTxHead (k : Nat) : Nat := 0x21014 + 0x40 * k
def rngTxFetch (k : Nat) : Nat := 0x21018 + 0x40 * k
def rngTxTail (k : Nat) : Nat := 0x2101c + 0x40 * k
def rngTxStatus (k : Nat) : Nat := 0x21020 + 0x40 * k
def rngTxDoneCnt (k : Nat) : Nat := 0x21028 + 0x40 * k
def rngCmdBase (k : Nat) : Nat := 0x22000 + 0x40 * k
def rngCmdCtrl (k : Nat) : Nat := 0x22008 + 0x40 * k
def rngCmdCfg (k : Nat) : Nat := 0x2200c + 0x40 * k
def rngCmdMod (k : Nat) : Nat := 0x22010 + 0x40 * k
def rngCmdHead (k : Nat) : Nat := 0x22014 + 0x40 * k
def rngCmdFetch (k : Nat) : Nat := 0x22018 + 0x40 * k
def rngCmdTail (k : Nat) : Nat := 0x2201c + 0x40 * k
def rngCmdStatus (k : Nat) : Nat := 0x22020 + 0x40 * k
def rngCmdDoneCnt (k : Nat) : Nat := 0x22028 + 0x40 * k
def rngEvtBase (k : Nat) : Nat := 0x22200 + 0x40 * k
def rngEvtCtrl (k : Nat) : Nat := 0x22208 + 0x40 * k
def rngEvtCfg (k : Nat) : Nat := 0x2220c + 0x40 * k
def rngEvtMod (k : Nat) : Nat := 0x22210 + 0x40 * k
def rngEvtHead (k : Nat) : Nat := 0x22214 + 0x40 * k
def rngEvtFetch (k : Nat) : Nat := 0x22218 + 0x40 * k
def rngEvtTail (k : Nat) : Nat := 0x2221c + 0x40 * k
def rngEvtStatus (k : Nat) : Nat := 0x22220 + 0x40 * k
def rngEvtDoneCnt (k : Nat) : Nat := 0x22228 + 0x40 * k
def rngRecBase : Nat := 0x22400
def rngRecCtrl : Nat := 0x22408
def rngRecCfg : Nat := 0x2240c
def rngRecMod : Nat := 0x22410
def rngRecHead : Nat := 0x22414
def rngRecFetch : Nat := 0x22418
def rngRecTail : Nat := 0x2241c
def rngRecStatus : Nat := 0x22420
def rngRecDoneCnt : Nat := 0x22428
def rngRxqMap (k : Nat) : Nat := 0x23000 + 4 * k
def rngSpecial : Nat := 0x23020
def rngEvtRoute (k : Nat) : Nat := 0x23100 + 4 * k
def rngEvtDropped : Nat := 0x23200
def rngAccessErr : Nat := 0x23208
def prtStatus : Nat := 0x30000
def prtCmd : Nat := 0x30004
def prtWindowLeft : Nat := 0x30008
def prtViolations : Nat := 0x3000c
def prtNonce : Nat := 0x30010
def prtImageSerial : Nat := 0x30018
def prtOpMac (k : Nat) : Nat := 0x30020 + 4 * k
def prtStageVal (k : Nat) : Nat := 0x30040 + 4 * k
def prtDigest (k : Nat) : Nat := 0x30080 + 4 * k
def prtKey (k : Nat) : Nat := 0x300a0 + 4 * k
def prtKeyGen : Nat := 0x300c0
def prtMap (k : Nat) : Nat := 0x30100 + 4 * k
def prtGrantPmu : Nat := 0x30140
def prtEnable : Nat := 0x30144
def prtDebug : Nat := 0x30148
def prtZeroLast (k : Nat) : Nat := 0x30180 + 4 * k
def prtZeroCount : Nat := 0x30190
def genCmd : Nat := 0x40000
def genStatus : Nat := 0x40004
def genCurrent : Nat := 0x40008
def genInflight : Nat := 0x4000c
def genAtSec : Nat := 0x40010
def genAtNs : Nat := 0x40018
def genTSec : Nat := 0x40020
def genTNs : Nat := 0x40028
def genCompleteUs : Nat := 0x4002c
def genAutoCfg : Nat := 0x40030
def genAutoDeferred : Nat := 0x40034
def genLearnStaged : Nat := 0x40038
def genEvt : Nat := 0x4003c
def genCommits : Nat := 0x40040
def timCfg : Nat := 0x50000
def timStatus : Nat := 0x50004
def timFault : Nat := 0x50008
def timCmd : Nat := 0x5000c
def timNowFrac : Nat := 0x50010
def timNowNs : Nat := 0x50014
def timNowSec : Nat := 0x50018
def timSetSec : Nat := 0x50020
def timSetNs : Nat := 0x50028
def timStep : Nat := 0x50030
def timSlew : Nat := 0x50038
def timSlewLeft : Nat := 0x5003c
def timFreqAdj : Nat := 0x50040
def timPpsCfg : Nat := 0x50050
def timPpsInNs : Nat := 0x50054
def timPpsInSec : Nat := 0x50058
def timPpsInFrac : Nat := 0x5005c
def timClockId : Nat := 0x50060
def timCgCfg (k : Nat) : Nat := 0x50100 + 0x40 * k
def timCgStartNs (k : Nat) : Nat := 0x50104 + 0x40 * k
def timCgStartSec (k : Nat) : Nat := 0x50108 + 0x40 * k
def timCgPeriod (k : Nat) : Nat := 0x50110 + 0x40 * k
def timCgPhase (k : Nat) : Nat := 0x50118 + 0x40 * k
def timCgCount (k : Nat) : Nat := 0x50120 + 0x40 * k
def timCgSkipped (k : Nat) : Nat := 0x50128 + 0x40 * k
def timTioCfg (k : Nat) : Nat := 0x50900 + 0x40 * k
def timTioWidth (k : Nat) : Nat := 0x50904 + 0x40 * k
def timTioComp (k : Nat) : Nat := 0x50908 + 0x40 * k
def timCapMinInt (k : Nat) : Nat := 0x5090c + 0x40 * k
def timCapStuck (k : Nat) : Nat := 0x50910 + 0x40 * k
def timCapStatus (k : Nat) : Nat := 0x50914 + 0x40 * k
def timCapE0 (k : Nat) : Nat := 0x50918 + 0x40 * k
def timCapE1 (k : Nat) : Nat := 0x5091c + 0x40 * k
def timCapE2 (k : Nat) : Nat := 0x50920 + 0x40 * k
def timCapE3 (k : Nat) : Nat := 0x50924 + 0x40 * k
def timCapFast (k : Nat) : Nat := 0x50928 + 0x40 * k
def timCapLost (k : Nat) : Nat := 0x5092c + 0x40 * k
def timCapGlitch (k : Nat) : Nat := 0x50930 + 0x40 * k
def timPortCfg (k : Nat) : Nat := 0x51000 + 0x40 * k
def timPortComp (k : Nat) : Nat := 0x51004 + 0x40 * k
def timPortPdelay (k : Nat) : Nat := 0x51008 + 0x40 * k
def timTxfStatus (k : Nat) : Nat := 0x5100c + 0x40 * k
def timTxfE0 (k : Nat) : Nat := 0x51010 + 0x40 * k
def timTxfE1 (k : Nat) : Nat := 0x51014 + 0x40 * k
def timTxfE2 (k : Nat) : Nat := 0x51018 + 0x40 * k
def timTxfE3 (k : Nat) : Nat := 0x5101c + 0x40 * k
def timTxfLost (k : Nat) : Nat := 0x51020 + 0x40 * k
def timPtpSkip (k : Nat) : Nat := 0x51024 + 0x40 * k
def recCfg : Nat := 0x70000
def recFreezeCfg : Nat := 0x70004
def recTrigEn : Nat := 0x70008
def recFateTrig : Nat := 0x7000c
def recFateThresh : Nat := 0x70010
def recPortTrig (k : Nat) : Nat := 0x70020 + 4 * k
def recCmd : Nat := 0x70040
def recStatus : Nat := 0x70044
def recOpenSeq : Nat := 0x70048
def recOldestSeq : Nat := 0x7004c
def recSegments : Nat := 0x70050
def recKeyId : Nat := 0x70054
def recTrigDuringFreeze : Nat := 0x70058
def recRefused (k : Nat) : Nat := 0x70060 + 4 * k
def recRecords : Nat := 0x70080
def recMarkers : Nat := 0x70088
def recRegionW0 (k : Nat) : Nat := 0x70100 + 0x20 * k
def recRegionFirst (k : Nat) : Nat := 0x70104 + 0x20 * k
def recRegionLast (k : Nat) : Nat := 0x70108 + 0x20 * k
def recRegionNs (k : Nat) : Nat := 0x7010c + 0x20 * k
def recRegionSec (k : Nat) : Nat := 0x70110 + 0x20 * k
def recRegionRecords (k : Nat) : Nat := 0x70114 + 0x20 * k
def recRegionW6 (k : Nat) : Nat := 0x70118 + 0x20 * k
def bpmCfg : Nat := 0x60000
def bpmSysReserve : Nat := 0x60004
def bpmPoolXoff : Nat := 0x60008
def bpmPoolXon : Nat := 0x6000c
def bpmRiderCfg : Nat := 0x60010
def bpmHbmPart : Nat := 0x60014
def bpmStatus : Nat := 0x60018
def bpmFreeCount : Nat := 0x6001c
def bpmResFree : Nat := 0x60020
def bpmSharedFree : Nat := 0x60024
def bpmBasinCells : Nat := 0x60028
def bpmResCells : Nat := 0x6002c
def bpmSharedSize : Nat := 0x60030
def bpmRiderStatus : Nat := 0x60034
def bpmSnapCmd : Nat := 0x60040
def bpmSnapStatus : Nat := 0x60044
def bpmSnapSec : Nat := 0x60048
def bpmSnapNs : Nat := 0x60050
def bpmDoubleFree : Nat := 0x60060
def bpmNonholderFree : Nat := 0x60064
def bpmBadPtr : Nat := 0x60068
def bpmLeaks : Nat := 0x6006c
def bpmReclaimed : Nat := 0x60070
def bpmSpillSkip : Nat := 0x60074
def bpmEmpty : Nat := 0x60078
def bpmEccCorr : Nat := 0x6007c
def bpmEccUncorr : Nat := 0x60080
def bpmSpilled : Nat := 0x60088
def bpmRefilled : Nat := 0x60090
def bpmResHome (k : Nat) : Nat := 0x60100 + 4 * k
def bpmSnap (s k : Nat) : Nat := 0x61000 + 0x100 * s + 8 * k
def bpmPortCfg (k : Nat) : Nat := 0x62000 + 4 * k
def bpmPpMin (k : Nat) : Nat := 0x64000 + 0x10 * k
def bpmPpShare (k : Nat) : Nat := 0x64004 + 0x10 * k
def bpmPpHwm (k : Nat) : Nat := 0x64008 + 0x10 * k
def bpmPpLwm (k : Nat) : Nat := 0x6400c + 0x10 * k
def bpmQCfg (k : Nat) : Nat := 0x6c800 + 4 * k
def svcCfg : Nat := 0x80000
def svcStatus : Nat := 0x80004
def svcEvt : Nat := 0x80008
def svcPend (k : Nat) : Nat := 0x80010 + 4 * k
def svcCapacity : Nat := 0x80020
def svcStateLane (k : Nat) : Nat := 0x80100 + 4 * k
def svcStateQuad (k : Nat) : Nat := 0x80140 + 4 * k
def svcStateEng (k : Nat) : Nat := 0x80150 + 4 * k
def svcStateTcam (k : Nat) : Nat := 0x80160 + 4 * k
def svcStateTrie (k : Nat) : Nat := 0x80170 + 4 * k
def svcStateBgrp : Nat := 0x80180
def svcStateBank (k : Nat) : Nat := 0x80190 + 4 * k
def svcStateHbm (k : Nat) : Nat := 0x80220 + 4 * k
def svcStateRec : Nat := 0x80240
def svcStateIsl (k : Nat) : Nat := 0x80250 + 4 * k
def svcBasinSpare (k : Nat) : Nat := 0x80300 + 4 * k
def svcHbmMap (k : Nat) : Nat := 0x80400 + 4 * k
def mrmStatus : Nat := 0x90000
def mrmFaultAck : Nat := 0x90004
def mrmParkCap : Nat := 0x90008
def mrmErrCorr : Nat := 0x9000c
def mrmErrUncorr : Nat := 0x90010
def mrmFaultLog (k : Nat) : Nat := 0x91000 + 4 * k
def mrmHealthMap (k : Nat) : Nat := 0x92000 + 4 * k
def fdbCfg : Nat := 0xa0000
def fdbHashSeed0 : Nat := 0xa0004
def fdbHashSeed1 : Nat := 0xa0008
def fdbStatus : Nat := 0xa000c
def fdbCount : Nat := 0xa0010
def fdbSlotsUsed : Nat := 0xa0014
def fdbLearnQueue : Nat := 0xa0018
def fdbLearned : Nat := 0xa0020
def fdbMoved : Nat := 0xa0028
def fdbAged : Nat := 0xa0030
def fdbLearnLost : Nat := 0xa0038
def fdbFull : Nat := 0xa003c
def fdbStaticConflict : Nat := 0xa0040
def fdbParityErr : Nat := 0xa0044
def fdbDomainCfg (k : Nat) : Nat := 0xa0080 + 4 * k
def fdbPort (k : Nat) : Nat := 0xa0100 + 4 * k
def fdbTcmd (k : Nat) : Nat := 0xa0800 + 4 * k
def fdbTcmdGo : Nat := 0xa0820
def fdbTcmdStatus : Nat := 0xa0824
def fdbTcmdRes (k : Nat) : Nat := 0xa0840 + 4 * k
def lpmCfg : Nat := 0xb0000
def lpmUnits : Nat := 0xb0004
def lpmV4Prefixes : Nat := 0xb0008
def lpmV6Prefixes : Nat := 0xb000c
def lpmStatus : Nat := 0xb0010
def lpmParityErr : Nat := 0xb0014
def lpmMisses : Nat := 0xb0018
def lpmCopyState (k : Nat) : Nat := 0xb0040 + 4 * k
def nhpStatus : Nat := 0xc0000
def nhpParityErr : Nat := 0xc0004
def nhpNoLive : Nat := 0xc0008
def mcgStatus : Nat := 0xd0000
def mcgParityErr : Nat := 0xd0004
def mcgListLong : Nat := 0xd0008
def mcgListBroken : Nat := 0xd000c
def mcgDupCopy : Nat := 0xd0010
def mcgPruned : Nat := 0xd0014
def strWrongSlice : Nat := 0xe0000
def strFrCount : Nat := 0xe0008
def prsCfg (i : Nat) : Nat := 0x100000 + 0x2000 * i
def prsTpid (i : Nat) : Nat := 0x100004 + 0x2000 * i
def prsUdh (i : Nat) : Nat := 0x100008 + 0x2000 * i
def prsUdhOff (i : Nat) : Nat := 0x10000c + 0x2000 * i
def prsHashCfg (i : Nat) : Nat := 0x100010 + 0x2000 * i
def prsHashSeed (i : Nat) : Nat := 0x100014 + 0x2000 * i
def prsStatus (i : Nat) : Nat := 0x100018 + 0x2000 * i
def prsMalAction (i : Nat) : Nat := 0x100020 + 0x2000 * i
def prsMalCnt (i k : Nat) : Nat := 0x100100 + 0x2000 * i + 8 * k
def prsDepthStop (i : Nat) : Nat := 0x100180 + 0x2000 * i
def clsBankCfg (i k : Nat) : Nat := 0x110000 + 0x2000 * i + 4 * k
def clsDefault (i : Nat) : Nat := 0x110020 + 0x2000 * i
def clsStatus (i : Nat) : Nat := 0x110024 + 0x2000 * i
def clsParityErr (i : Nat) : Nat := 0x110028 + 0x2000 * i
def clsHits (i : Nat) : Nat := 0x110030 + 0x2000 * i
def clsMisses (i : Nat) : Nat := 0x110038 + 0x2000 * i
def hgtFilterDrop (i : Nat) : Nat := 0x120000 + 0x2000 * i
def hgtGateDrop (i : Nat) : Nat := 0x120008 + 0x2000 * i
def hgtRcvDrop (i : Nat) : Nat := 0x120010 + 0x2000 * i
def hgtMeterDrop (i : Nat) : Nat := 0x120018 + 0x2000 * i
def hgtLatched (i : Nat) : Nat := 0x120020 + 0x2000 * i
def engCfg (i : Nat) : Nat := 0x140000 + 0x4000 * i
def engStatus (i : Nat) : Nat := 0x140004 + 0x4000 * i
def engEvt (i : Nat) : Nat := 0x140008 + 0x4000 * i
def engFaultLast (i : Nat) : Nat := 0x140010 + 0x4000 * i
def engFaultPort (i : Nat) : Nat := 0x140014 + 0x4000 * i
def engFaultCnt (i k : Nat) : Nat := 0x140020 + 0x4000 * i + 4 * k
def engEccCorr (i : Nat) : Nat := 0x140044 + 0x4000 * i
def engFrames (i : Nat) : Nat := 0x140048 + 0x4000 * i
def engBypass (i : Nat) : Nat := 0x140050 + 0x4000 * i
def engPrograms (i : Nat) : Nat := 0x140060 + 0x4000 * i
def engTbl (i k : Nat) : Nat := 0x140100 + 0x4000 * i + 4 * k
def engHome (i k : Nat) : Nat := 0x140200 + 0x4000 * i + 4 * k
def engBktState (i k : Nat) : Nat := 0x140400 + 0x4000 * i + 4 * k
def pmuId (i : Nat) : Nat := 0x180000 + 0x1000 * i
def pmuStatus (i : Nat) : Nat := 0x180004 + 0x1000 * i
def pmuOvf (i : Nat) : Nat := 0x180008 + 0x1000 * i
def pmuCmd (i : Nat) : Nat := 0x18000c + 0x1000 * i
def pmuCycle (i : Nat) : Nat := 0x180010 + 0x1000 * i
def pmuSyncCfg (i : Nat) : Nat := 0x180018 + 0x1000 * i
def pmuSyncCyc (i : Nat) : Nat := 0x180020 + 0x1000 * i
def pmuSyncK (i : Nat) : Nat := 0x180028 + 0x1000 * i
def pmuEvt (i k : Nat) : Nat := 0x180100 + 0x1000 * i + 0x40 * k
def pmuThresh (i k : Nat) : Nat := 0x180104 + 0x1000 * i + 0x40 * k
def pmuWindow (i k : Nat) : Nat := 0x180108 + 0x1000 * i + 0x40 * k
def pmuCntLo (i k : Nat) : Nat := 0x18010c + 0x1000 * i + 0x40 * k
def pmuCntHi (i k : Nat) : Nat := 0x180110 + 0x1000 * i + 0x40 * k
def pmuCntCyc (i k : Nat) : Nat := 0x180114 + 0x1000 * i + 0x40 * k
def pmuCntRate (i k : Nat) : Nat := 0x18011c + 0x1000 * i + 0x40 * k
def pmuCntWin (i k : Nat) : Nat := 0x180120 + 0x1000 * i + 0x40 * k
def serCfg (i : Nat) : Nat := 0x200000 + 0x1000 * i
def serRefclk (i : Nat) : Nat := 0x200004 + 0x1000 * i
def serMap (i : Nat) : Nat := 0x200008 + 0x1000 * i
def serStatus (i : Nat) : Nat := 0x20000c + 0x1000 * i
def serRefclkMeas (i : Nat) : Nat := 0x200010 + 0x1000 * i
def serLaneCfg (i k : Nat) : Nat := 0x200100 + 0x1000 * i + 0x40 * k
def serLaneEq (i k : Nat) : Nat := 0x200104 + 0x1000 * i + 0x40 * k
def serLaneStatus (i k : Nat) : Nat := 0x200108 + 0x1000 * i + 0x40 * k
def serLaneEvt (i k : Nat) : Nat := 0x20010c + 0x1000 * i + 0x40 * k
def serLaneCmd (i k : Nat) : Nat := 0x200110 + 0x1000 * i + 0x40 * k
def serLaneCmdStatus (i k : Nat) : Nat := 0x200114 + 0x1000 * i + 0x40 * k
def serLaneCodeErr (i k : Nat) : Nat := 0x200118 + 0x1000 * i + 0x40 * k
def serLanePrbsErr (i k : Nat) : Nat := 0x20011c + 0x1000 * i + 0x40 * k
def serLaneFecCorr (i k : Nat) : Nat := 0x200120 + 0x1000 * i + 0x40 * k
def serLaneFecUncorr (i k : Nat) : Nat := 0x200124 + 0x1000 * i + 0x40 * k
def serTsCfg (i k : Nat) : Nat := 0x200800 + 0x1000 * i + 0x100 * k
def serTsCfg2 (i k : Nat) : Nat := 0x200804 + 0x1000 * i + 0x100 * k
def serTsCycEn (i k : Nat) : Nat := 0x200808 + 0x1000 * i + 0x100 * k
def serTsCmd (i k : Nat) : Nat := 0x20080c + 0x1000 * i + 0x100 * k
def serTsCredit0 (i k : Nat) : Nat := 0x200810 + 0x1000 * i + 0x100 * k
def serTsCredit1 (i k : Nat) : Nat := 0x200814 + 0x1000 * i + 0x100 * k
def serTsCredit2 (i k : Nat) : Nat := 0x200818 + 0x1000 * i + 0x100 * k
def serTsCredit3 (i k : Nat) : Nat := 0x20081c + 0x1000 * i + 0x100 * k
def serTsCredit4 (i k : Nat) : Nat := 0x200820 + 0x1000 * i + 0x100 * k
def serTsCredit5 (i k : Nat) : Nat := 0x200824 + 0x1000 * i + 0x100 * k
def serTsCredit6 (i k : Nat) : Nat := 0x200828 + 0x1000 * i + 0x100 * k
def serTsCredit7 (i k : Nat) : Nat := 0x20082c + 0x1000 * i + 0x100 * k
def serTsStatus (i k : Nat) : Nat := 0x200830 + 0x1000 * i + 0x100 * k
def serTsEvt (i k : Nat) : Nat := 0x200834 + 0x1000 * i + 0x100 * k
def serTsOsErr (i k : Nat) : Nat := 0x200838 + 0x1000 * i + 0x100 * k
def serTsRetrains (i k : Nat) : Nat := 0x20083c + 0x1000 * i + 0x100 * k
def serTsPeerCredit0 (i k : Nat) : Nat := 0x200840 + 0x1000 * i + 0x100 * k
def serTsPeerCredit1 (i k : Nat) : Nat := 0x200844 + 0x1000 * i + 0x100 * k
def serTsPeerCredit2 (i k : Nat) : Nat := 0x200848 + 0x1000 * i + 0x100 * k
def serTsPeerCredit3 (i k : Nat) : Nat := 0x20084c + 0x1000 * i + 0x100 * k
def serTsPeerCredit4 (i k : Nat) : Nat := 0x200850 + 0x1000 * i + 0x100 * k
def serTsPeerCredit5 (i k : Nat) : Nat := 0x200854 + 0x1000 * i + 0x100 * k
def serTsPeerCredit6 (i k : Nat) : Nat := 0x200858 + 0x1000 * i + 0x100 * k
def serTsPeerCredit7 (i k : Nat) : Nat := 0x20085c + 0x1000 * i + 0x100 * k
def serTsTtmSeq (i k : Nat) : Nat := 0x200860 + 0x1000 * i + 0x100 * k
def serTsPeerTxSec (i k : Nat) : Nat := 0x200864 + 0x1000 * i + 0x100 * k
def serTsPeerTxNs (i k : Nat) : Nat := 0x200868 + 0x1000 * i + 0x100 * k
def serTsPeerTxFrac (i k : Nat) : Nat := 0x20086c + 0x1000 * i + 0x100 * k
def serTsDevRxSec (i k : Nat) : Nat := 0x200870 + 0x1000 * i + 0x100 * k
def serTsDevRxNs (i k : Nat) : Nat := 0x200874 + 0x1000 * i + 0x100 * k
def serTsDevRxFrac (i k : Nat) : Nat := 0x200878 + 0x1000 * i + 0x100 * k
def serTsDevTxSec (i k : Nat) : Nat := 0x200880 + 0x1000 * i + 0x100 * k
def serTsDevTxNs (i k : Nat) : Nat := 0x200884 + 0x1000 * i + 0x100 * k
def serTsDevTxFrac (i k : Nat) : Nat := 0x200888 + 0x1000 * i + 0x100 * k
def serTsPeerRxSec (i k : Nat) : Nat := 0x200890 + 0x1000 * i + 0x100 * k
def serTsPeerRxNs (i k : Nat) : Nat := 0x200894 + 0x1000 * i + 0x100 * k
def serTsPeerRxFrac (i k : Nat) : Nat := 0x200898 + 0x1000 * i + 0x100 * k
def serTsCycRx (i k : Nat) : Nat := 0x20089c + 0x1000 * i + 0x100 * k
def macCfg (i : Nat) : Nat := 0x400000 + 0x400 * i
def macMaxFrame (i : Nat) : Nat := 0x400004 + 0x400 * i
def macAddr (i : Nat) : Nat := 0x400008 + 0x400 * i
def macPauseCfg (i : Nat) : Nat := 0x400010 + 0x400 * i
def macHeadroomCfg (i : Nat) : Nat := 0x400014 + 0x400 * i
def macHeadroomStatus (i : Nat) : Nat := 0x400018 + 0x400 * i
def macPreemptCfg (i : Nat) : Nat := 0x40001c + 0x400 * i
def macPreemptStatus (i : Nat) : Nat := 0x400020 + 0x400 * i
def macLinkCfg (i : Nat) : Nat := 0x400024 + 0x400 * i
def macStatus (i : Nat) : Nat := 0x400028 + 0x400 * i
def macEvt (i : Nat) : Nat := 0x40002c + 0x400 * i
def macLinkDowns (i : Nat) : Nat := 0x400030 + 0x400 * i
def macCmd (i : Nat) : Nat := 0x400034 + 0x400 * i
def macRxOctetsAll (i : Nat) : Nat := 0x400100 + 0x400 * i
def macRxOctetsGood (i : Nat) : Nat := 0x400108 + 0x400 * i
def macRxFramesAll (i : Nat) : Nat := 0x400110 + 0x400 * i
def macRxPassed (i : Nat) : Nat := 0x400118 + 0x400 * i
def macRxUnicast (i : Nat) : Nat := 0x400120 + 0x400 * i
def macRxMulticast (i : Nat) : Nat := 0x400128 + 0x400 * i
def macRxBroadcast (i : Nat) : Nat := 0x400130 + 0x400 * i
def macRxPause (i : Nat) : Nat := 0x400138 + 0x400 * i
def macRxPfc (i : Nat) : Nat := 0x400140 + 0x400 * i
def macRxCtrlOther (i : Nat) : Nat := 0x400148 + 0x400 * i
def macRxRunt (i : Nat) : Nat := 0x400150 + 0x400 * i
def macRxGiant (i : Nat) : Nat := 0x400158 + 0x400 * i
def macRxTruncated (i : Nat) : Nat := 0x400160 + 0x400 * i
def macRxFcsErr (i : Nat) : Nat := 0x400168 + 0x400 * i
def macRxAlignErr (i : Nat) : Nat := 0x400170 + 0x400 * i
def macRxCodingErr (i : Nat) : Nat := 0x400178 + 0x400 * i
def macRxAssemblyErr (i : Nat) : Nat := 0x400180 + 0x400 * i
def macRxMacDiscard (i : Nat) : Nat := 0x400188 + 0x400 * i
def macRxFragments (i : Nat) : Nat := 0x400190 + 0x400 * i
def macRx64 (i : Nat) : Nat := 0x400198 + 0x400 * i
def macRx65127 (i : Nat) : Nat := 0x4001a0 + 0x400 * i
def macRx128255 (i : Nat) : Nat := 0x4001a8 + 0x400 * i
def macRx256511 (i : Nat) : Nat := 0x4001b0 + 0x400 * i
def macRx5121023 (i : Nat) : Nat := 0x4001b8 + 0x400 * i
def macRx10241518 (i : Nat) : Nat := 0x4001c0 + 0x400 * i
def macRx1519Max (i : Nat) : Nat := 0x4001c8 + 0x400 * i
def macTxOctets (i : Nat) : Nat := 0x4001d0 + 0x400 * i
def macTxFrames (i : Nat) : Nat := 0x4001d8 + 0x400 * i
def macTxUnicast (i : Nat) : Nat := 0x4001e0 + 0x400 * i
def macTxMulticast (i : Nat) : Nat := 0x4001e8 + 0x400 * i
def macTxBroadcast (i : Nat) : Nat := 0x4001f0 + 0x400 * i
def macTxPause (i : Nat) : Nat := 0x4001f8 + 0x400 * i
def macTxPfc (i : Nat) : Nat := 0x400200 + 0x400 * i
def macTxAborted (i : Nat) : Nat := 0x400208 + 0x400 * i
def macTxOversizeDrop (i : Nat) : Nat := 0x400210 + 0x400 * i
def macTxPreempted (i : Nat) : Nat := 0x400218 + 0x400 * i
def macTxFragments (i : Nat) : Nat := 0x400220 + 0x400 * i
def macTx64 (i : Nat) : Nat := 0x400228 + 0x400 * i
def macTx65127 (i : Nat) : Nat := 0x400230 + 0x400 * i
def macTx128255 (i : Nat) : Nat := 0x400238 + 0x400 * i
def macTx256511 (i : Nat) : Nat := 0x400240 + 0x400 * i
def macTx5121023 (i : Nat) : Nat := 0x400248 + 0x400 * i
def macTx10241518 (i : Nat) : Nat := 0x400250 + 0x400 * i
def macTx1519Max (i : Nat) : Nat := 0x400258 + 0x400 * i
def queCfg (i : Nat) : Nat := 0x600000 + 0x200 * i
def quePrioMap (i : Nat) : Nat := 0x600004 + 0x200 * i
def queStatus (i : Nat) : Nat := 0x600008 + 0x200 * i
def queNextRelease (i : Nat) : Nat := 0x60000c + 0x200 * i
def queDepth (i k : Nat) : Nat := 0x600020 + 0x200 * i + 4 * k
def queFrames (i k : Nat) : Nat := 0x600040 + 0x200 * i + 4 * k
def schPortCfg (i : Nat) : Nat := 0x800000 + 0x400 * i
def schPortRate (i : Nat) : Nat := 0x800004 + 0x400 * i
def schPortBurst (i : Nat) : Nat := 0x800008 + 0x400 * i
def schPortLevel (i : Nat) : Nat := 0x80000c + 0x400 * i
def schQCfg (i k : Nat) : Nat := 0x800020 + 0x400 * i + 0x10 * k
def schQQuantum (i k : Nat) : Nat := 0x800024 + 0x400 * i + 0x10 * k
def schQRate (i k : Nat) : Nat := 0x800028 + 0x400 * i + 0x10 * k
def schQBurst (i k : Nat) : Nat := 0x80002c + 0x400 * i + 0x10 * k
def schQLevel (i k : Nat) : Nat := 0x8000a0 + 0x400 * i + 4 * k
def schQDeficit (i k : Nat) : Nat := 0x8000c0 + 0x400 * i + 4 * k
def schSent (i k : Nat) : Nat := 0x800100 + 0x400 * i + 0x60 * k
def schSentOctets (i k : Nat) : Nat := 0x800108 + 0x400 * i + 0x60 * k
def schDeferred (i k : Nat) : Nat := 0x800110 + 0x400 * i + 0x60 * k
def schLateSent (i k : Nat) : Nat := 0x800118 + 0x400 * i + 0x60 * k
def schLateDiscard (i k : Nat) : Nat := 0x800120 + 0x400 * i + 0x60 * k
def schLifetime (i k : Nat) : Nat := 0x800128 + 0x400 * i + 0x60 * k
def schNeverFits (i k : Nat) : Nat := 0x800130 + 0x400 * i + 0x60 * k
def schPortDown (i k : Nat) : Nat := 0x800138 + 0x400 * i + 0x60 * k
def schEgressFilter (i k : Nat) : Nat := 0x800140 + 0x400 * i + 0x60 * k
def schOther (i k : Nat) : Nat := 0x800148 + 0x400 * i + 0x60 * k
def gclCfg (i : Nat) : Nat := 0x1000000 + 0x4000 * i
def gclIdleGates (i : Nat) : Nat := 0x1000004 + 0x4000 * i
def gclStatus (i : Nat) : Nat := 0x1000008 + 0x4000 * i
def gclMaxopen (i k : Nat) : Nat := 0x1000010 + 0x4000 * i + 4 * k
def gclEntryGates (i k : Nat) : Nat := 0x1002000 + 0x4000 * i + 8 * k
def gclEntryInterval (i k : Nat) : Nat := 0x1002004 + 0x4000 * i + 8 * k

end Sys2Proof.Machine.R
end

