-- ==== Sys2Proof/Machine/Regs.lean ====
section
/-! DEFINITION. Reading and changing the stored registers: the value of a class D register, the staged and in-use
values of class C (R122, R123), the two parities of class G, and the sticky bits and counters. -/

namespace Sys2Proof.Machine

open Sys2Proof

/-- The distance between the two views of a register's storage: class C in-use values and class G parity 1 lie one
view above class C staged values and class G parity 0. -/
def viewSize : Nat := 0x4000000

/-- The word stored under a key; the register's reset value where none is listed. -/
def regWord (regs : List (Nat × Word)) (key : Nat) : Word :=
  kvGetD (BitVec.ofNat 32 (resetWord (key % viewSize))) key regs

/-- Storing a word under a key, in canonical form: the reset value is not listed. -/
def regStore (key : Nat) (w : Word) (regs : List (Nat × Word)) : List (Nat × Word) :=
  kvSet (BitVec.ofNat 32 (resetWord (key % viewSize))) key w regs

/-- The canonical form of the register file: keys strictly rising, no entry equal to its reset value. -/
def regsWf (regs : List (Nat × Word)) : Bool :=
  kvSorted regs && regs.all (fun c => c.2 != BitVec.ofNat 32 (resetWord (c.1 % viewSize)))

/-- The number stored at an offset in view 0: a class D or status register, or a class C staged value. -/
def rg (s : State) (off : Nat) : Nat := (regWord s.regs off).toNat

/-- A field of a class D or status register, or of a class C staged value. -/
def rgF (s : State) (off hi lo : Nat) : Nat := fld hi lo (rg s off)

/-- Storing a class D or status register, or a class C staged value. -/
def setRg (off v : Nat) (s : State) : State := { s with regs := regStore off (BitVec.ofNat 32 v) s.regs }

/-- Storing one field of it. -/
def setRgF (off hi lo v : Nat) (s : State) : State := setRg off (putFld hi lo v (rg s off)) s

/-- A 64-bit register in view 0 (R8). -/
def rg64 (s : State) (off : Nat) : Nat := rg s off + rg s (off + 4) * 2 ^ 32

/-- Storing a 64-bit register in view 0. -/
def setRg64 (off v : Nat) (s : State) : State := setRg (off + 4) (v >>> 32) (setRg off v s)

/-- The in-use value of a class C register (R122). -/
def cu (s : State) (off : Nat) : Nat := (regWord s.regs (off + viewSize)).toNat

/-- A field of the in-use value of a class C register. -/
def cuF (s : State) (off hi lo : Nat) : Nat := fld hi lo (cu s off)

/-- The in-use value of a 64-bit class C register. -/
def cu64 (s : State) (off : Nat) : Nat := cu s off + cu s (off + 4) * 2 ^ 32

/-- The value a class G register has for frames of a parity (R122). -/
def pg (s : State) (par off : Nat) : Nat := (regWord s.regs (off + viewSize * (par % 2))).toNat

/-- A field of a class G register for one parity. -/
def pgF (s : State) (par off hi lo : Nat) : Nat := fld hi lo (pg s par off)

/-- Adding to a 32-bit counter register, modulo 2^32. -/
def addRg (off n : Nat) (s : State) : State := setRg off ((rg s off + n) % 2 ^ 32) s

/-- Counting one in a 32-bit counter register. -/
def incRg (off : Nat) (s : State) : State := addRg off 1 s

/-- Adding to a 64-bit counter register, modulo 2^64. -/
def addRg64 (off n : Nat) (s : State) : State := setRg64 off ((rg64 s off + n) % 2 ^ 64) s

/-- Counting one in a 64-bit counter register. -/
def incRg64 (off : Nat) (s : State) : State := addRg64 off 1 s

/-- Setting one bit of a register. -/
def stickRg (off i : Nat) (s : State) : State := setRg off (rg s off ||| 2 ^ i) s

/-- The parity of the current generation: bit 0 of its number. -/
def curPar (s : State) : Nat := s.gen.current % 2

/-- The key under which the staged value of a register is stored: view 0, or for class G the other parity's. -/
def stagedKey (s : State) (cls : RegClass) (off : Nat) : Nat :=
  if cls = .g then off + viewSize * (1 - curPar s) else off

/-- The key under which the in-use value of a register is stored (R123). -/
def inUseKey (s : State) (cls : RegClass) (off : Nat) : Nat :=
  match cls with
  | .g => off + viewSize * curPar s
  | .c => off + viewSize
  | _ => off

/-- Changing the state over a list of items, in order. -/
def forAll {α : Type} (f : α → State → State) : List α → State → State
  | [], s => s
  | a :: as, s => forAll f as (f a s)

/-- A change made only where a condition holds. -/
def whenDo (c : Bool) (f : State → State) (s : State) : State := if c then f s else s

/-- A key of a class C or class G register, in either view. -/
def confKey (k : Nat) : Bool := match regAt (k % viewSize) with
  | some h => h.row.cls == .c || h.row.cls == .g
  | none => false

end Sys2Proof.Machine
end

