-- ==== Sys2Proof/Machine/PmuOps.lean ====
section
/-! DEFINITION. The performance counters as other families drive them: events counted when they happen, occupancies
counted while time passes (15_counters, R483 to R490). -/

namespace Sys2Proof.Machine

open Sys2Proof

/-- The kinds of unit of R500, with their KIND codes. -/
inductive UnitKind | lane | quad | engine | tcam | trie | bankGroup | bank | hbm | recorder | island
deriving DecidableEq, Repr

/-- KIND of R500. -/
def UnitKind.code : UnitKind → Nat
  | .lane => 0 | .quad => 1 | .engine => 2 | .tcam => 3 | .trie => 4
  | .bankGroup => 5 | .bank => 6 | .hbm => 7 | .recorder => 8 | .island => 9

/-- The key of a unit. -/
def unitKey (kind idx : Nat) : Nat := 1024 * kind + idx

/-- The state of a unit, coded as in R501. -/
def unitSt (s : State) (kind idx : Nat) : Nat := kvGetD 0 (unitKey kind idx) s.svc.states
def unitState (s : State) (k : UnitKind) (idx : Nat) : Nat := unitSt s k.code idx

/-- The transition a unit is in (R502). -/
def transitionOf (s : State) (kind idx : Nat) : Option Transition :=
  s.svc.transitions.find? fun t => t.kind == kind && t.index == idx

/-- The unit is leaving (R502). -/
def unitLeaving (s : State) (kind idx : Nat) : Bool :=
  match transitionOf s kind idx with
  | some t => t.phase == 1
  | none => false

/-- The island that contains a unit (R25, R63): a lane's is its quad's, a quad's its own. A trie stage copy lies with the
first ingress slice of its pair (DESIGN CHOICE, assumption 50); the recorder lies in no island of its own. -/
def islandFor (kind idx : Nat) : Nat :=
  match kind with
  | 0 => idx / 4 | 1 => idx | 2 => 80 + idx / 8 | 3 => 64 + idx / 8 | 4 => 64 + 2 * (idx / 12)
  | 5 => 92 | 6 => 92 | 7 => 88 + idx / 32 | 8 => 96
  | _ => idx

/-- The unit takes no new work: it is not in service, or it or its island is leaving (R502, R521). -/
def unitAway (s : State) (k : UnitKind) (idx : Nat) : Bool :=
  unitState s k idx != 0 || unitLeaving s k.code idx || unitLeaving s 9 (islandFor k.code idx)

/-- The KIND of a counter unit (R483). -/
def pmuKind (u : Nat) : Nat :=
  if u < 8 then 0 else if u < 16 then 1 else if u < 24 then 2 else if u < 28 then 3 else if u = 28 then 4 else 5

/-- The nominal clock of a counter unit in kHz (R499). -/
def pmuClock (u : Nat) : Nat :=
  match pmuKind u with
  | 0 => 1250000 | 1 => 1250000 | 2 => 1600000 | 3 => 1200000 | 4 => 1562500 | _ => 1000000

/-- The island of a counter unit (R25, R483). -/
def pmuIsland (u : Nat) : Nat :=
  if u < 8 then 64 + u else if u < 16 then 64 + u else if u < 24 then 64 + u else if u < 28 then 64 + u
  else if u = 28 then 92 else 94

/-- The unit's island is in use (R486). -/
def pmuPresent (s : State) (u : Nat) : Bool := unitSt s 9 (pmuIsland u) != 3

/-- Cycles of a unit's island up to an elapsed time, since it left reset (R485): the nominal rate (assumption 31). -/
def pmuCycles (s : State) (u elapsed : Nat) : Nat :=
  (elapsed - kvGetD 0 u s.pmu.bases) * pmuClock u / (Config.nsUnit * 1000000)

/-- One counter's settings word. -/
def pmuEvt (s : State) (u k : Nat) : Nat := rg s (R.pmuEvt u k)

/-- Adding to a counter: modulo 2^48, a wrap sets its bit of PMU_OVF (R486). -/
def pmuAdd (u k n : Nat) (s : State) : State :=
  match kvGet (8 * u + k) s.pmu.ctrs with
  | none => s
  | some c =>
    let v := c.value + n
    let s1 := { s with pmu := { s.pmu with ctrs := kvPut (8 * u + k) { c with value := v % 2 ^ 48 } s.pmu.ctrs } }
    whenDo (decide (2 ^ 48 ≤ v)) (stickRg (R.pmuOvf u) k) s1

/-- A settings word selects an event: its SEL is the item, or 0xFFF where the event allows all; its SUB likewise. -/
def pmuMatches (w code : Nat) (sel : Option (Nat × Bool)) (sub : Option Nat) : Bool :=
  fld 7 0 w == code &&
    (match sel with
     | none => true
     | some (x, all) => fld 19 8 w == x || (all && fld 19 8 w == 0xFFF)) &&
    (match sub with
     | none => true
     | some y => bit 23 w || fld 22 20 w == y)

/-- Something that an event counts has happened `n` times (R487). -/
def pmuEv (u code : Nat) (sel : Option (Nat × Bool)) (sub : Option Nat) (n : Nat) (s : State) : State :=
  if s.pmu.ctrs.isEmpty then s
  else forAll (fun k s => whenDo (pmuMatches (pmuEvt s u k) code sel sub && pmuPresent s u) (pmuAdd u k n) s) (List.range 8) s

/-- A port's own slice; P256 to P258 belong to S0 (R15, R487). -/
def portSlice (p : Nat) : Nat := if p < 256 then p / 32 else 0

/-- An ingress event of a port. -/
def pmuIn (p code n : Nat) (s : State) : State := pmuEv (portSlice p) code (some (p, decide (p < 256))) none n s

/-- An egress event of a port and queue, or of a port alone. -/
def pmuOut (p q code n : Nat) (s : State) : State := pmuEv (8 + portSlice p) code (some (p, false)) (some q) n s
def pmuPort1 (p code n : Nat) (s : State) : State := pmuEv (8 + portSlice p) code (some (p, false)) none n s

/-- Bytes of a port in a counter's window mode, where its settings name the port (R489). -/
def pmuWindowCtr (u p t n wire k : Nat) (s : State) : State :=
  let w := pmuEvt s u k
  match kvGet (8 * u + k) s.pmu.ctrs with
  | none => s
  | some c =>
    let i := t / (Config.nsUnit * 1000) / max 1 (rg s (R.pmuWindow u k))
    if fld 7 0 w = 0x30 ∧ fld 19 8 w = p ∧ c.first ≤ i then
      let m := if bit 24 w then wire else n
      { s with pmu := { s.pmu with ctrs := kvPut (8 * u + k) { c with windows := kvMod 0 i (· + m) c.windows } s.pmu.ctrs } }
    else s

/-- Bytes in a bandwidth window (R489): added to the window that holds their time stamp; `wire` is the count with WIRE = 1. -/
def pmuWindow (u p t n wire : Nat) (s : State) : State :=
  if s.pmu.ctrs.isEmpty then s
  else forAll (pmuWindowCtr u p t n wire) (List.range 8) s

/-! ## Counts that the spec leaves to timing and to the cells (assumption 176) -/

/-- A further free value for such a count. -/
def tried (s : State) : State := { s with pmu := { s.pmu with tries := s.pmu.tries + 1 } }

/-- Basin word accesses, of which some lose arbitration and are retried (R16, R17). -/
def basinWords (n : Nat) (s : State) : State :=
  if s.pmu.ctrs.isEmpty then s
  else tried (pmuEv 28 7 none none (if n = 0 then 0 else Config.arbRetries s.pmu.tries) (pmuEv 28 6 none none n s))

/-- `n` bursts of 64 bytes of a class on a pseudo-channel (R422), and corrected words read there. -/
def hbmBurst (pc cls : Nat) (write : Bool) (n : Nat) (s : State) : State :=
  pmuEv (24 + pc / 32) 3 (some (pc % 32, true)) none n
    (pmuEv (24 + pc / 32) (if write then 2 else 1) (some (pc % 32, true)) (some cls) n s)
def hbmCorrected (pc n : Nat) (s : State) : State := pmuEv (24 + pc / 32) 4 (some (pc % 32, true)) none n s

/-- A read of `n` bursts of which the device tells nobody how many words it corrected, but for the counters. -/
def hbmReadBack (pc cls n : Nat) (s : State) : State :=
  if s.pmu.ctrs.isEmpty then s
  else tried (hbmCorrected pc (Config.eccCorrected s.pmu.tries % (8 * n + 1)) (hbmBurst pc cls false n s))

/-- The traffic of a test of R507, which the counters of its island count: bundles of an engine, basin word accesses, bursts of the lowest
class (R486). -/
def testTraffic (kind idx : Nat) (s : State) : State :=
  if s.pmu.ctrs.isEmpty then s
  else
    let n := Config.testAccesses s.pmu.tries
    tried (match kind with
      | 2 => pmuEv (16 + idx / 8) 3 (some (idx % 8, true)) none n s
      | 5 => basinWords n s
      | 6 => basinWords n s
      | 7 => hbmBurst idx 4 false n (hbmBurst idx 4 true n s)
      | _ => s)

/-! ## Occupancies -/

/-- The cells of the copies in a queue (R460). -/
def queueCells (s : State) (p q : Nat) : Nat :=
  ((kvGetD {} (8 * p + q) s.eg.queues).copies.map fun c => ((kvGetD {} c.frame s.buf.frames).chain.length)).sum

/-- Bytes stored in a slice and not yet handed to the buffer core. -/
def inputBytes (s : State) (slice sel : Nat) : Nat :=
  (((kvGetD [] slice s.lk.ingress).filter fun f => f.port == sel || (sel == 0xFFF && decide (f.port < 256))).map
    fun f => f.bytes.length).sum +
  ((s.buf.arrivals.filterMap fun i => kvGet i s.buf.frames).map fun f =>
    if portSlice f.inPort = slice ∧ (f.inPort = sel ∨ (sel = 0xFFF ∧ f.inPort < 256)) then f.bytes.length else 0).sum

/-- The engines an event selects in a cluster. -/
def selEngines (s : State) (c sel : Nat) : List Engine :=
  ((List.range 8).filter fun e => e == sel || sel == 0xFFF).map fun e => kvGetD {} (8 * c + e) s.eng.engines

/-- The physical pseudo-channel that serves a logical channel: 32 × stack + number (R522). -/
def physicalOf (s : State) (l : Nat) : Nat := kvGetD (32 * (l / 30) + l % 30) l s.svc.map

/-- The logical channel of an engine-store address: which of the 120 serves a 32-byte block is not stated (assumption 30). -/
def esLogical (a : Nat) : Nat := Config.esChannel (a / 32) % 120

/-- The pseudo-channel of a slot of the recorder's ring. -/
def slotPhysical (s : State) (slot : Nat) : Nat := physicalOf s (nth 0 s.recd.channels (slot % max 1 s.recd.channels.length))

/-- Requests waiting on a pseudo-channel, by class (R422): ESL reads, then spills and refills, records, readouts. -/
def hbmWaiting (s : State) (pc cls : Nat) : Nat :=
  match cls with
  | 1 => (s.eng.engines.map fun e => (e.2.contexts.filter fun c =>
      match c.parked with
      | some a => physicalOf s (esLogical a) == pc
      | none => false).length).sum
  | 2 => (s.buf.spilling.filter fun x => physicalOf s x.2.1 == pc).length +
      (s.buf.refilling.filter fun x =>
        let f := kvGetD {} x.1 s.buf.frames
        physicalOf s f.channel == pc && decide (x.2.length < f.chain.length)).length
  | 3 => match s.recd.current with
    | some g => if slotPhysical s g.slot = pc then s.recd.backlog.length else 0
    | none => 0
  | 4 => (s.host.readouts.filter fun x => match x.seg with
      | some g => slotPhysical s g.slot == pc
      | none => false).length
  | _ => 0

/-- Basin cells in use: chains in the basin, refills in progress, cells of the recorder (R397). -/
def basinUsed (s : State) : Nat :=
  (s.buf.frames.map fun f => if f.2.spilled then 0 else f.2.chain.length).sum +
    (s.buf.refilling.map fun r => r.2.length).sum + (s.recd.backlog.map fun r => r.cells).sum

/-- Reservoir cells in use: chains there and spills in progress. -/
def resUsed (s : State) : Nat :=
  (s.buf.frames.map fun f => if f.2.spilled then f.2.chain.length else 0).sum + (s.buf.spilling.map fun r => r.2.2.length).sum

/-- The cells that one bank group gives: an eighth of the basin (R1, R17). -/
def groupCells : Nat := 65536

/-- The bank groups that the manager allocates from: in service and not leaving (R505). -/
def bankGroups (s : State) : List Nat := (List.range 8).filter fun g => !unitAway s .bankGroup g

/-- BPM_BASIN_CELLS. -/
def basinCells (s : State) : Nat := groupCells * (bankGroups s).length

/-- Cells in use: chains, spills, refills; the recorder's own cells have no pointer of their own in the model. -/
def cellsInUse (s : State) : List Nat :=
  (s.buf.frames.flatMap fun f => f.2.chain) ++ (s.buf.spilling.flatMap fun r => r.2.2) ++ (s.buf.refilling.flatMap fun r => r.2)

/-- Cells still in use in bank groups that are leaving (R505). -/
def strayCells (s : State) : Nat :=
  ((cellsInUse s).filter fun p => !bit 31 p && !(bankGroups s).contains (p / groupCells)).length

/-- BPM_FREE_COUNT. -/
def freeBasin (s : State) : Nat := basinCells s - (basinUsed s - strayCells s)

/-- The occupancy of a threshold event (R487). -/
def occupancy (s : State) (u code sel sub : Nat) (all : Bool) : Nat :=
  let pcs := (List.range 32).filter fun i => i == sel || sel == 0xFFF
  let classes := (List.range 5).filter fun i => all || i == sub
  match pmuKind u, code with
  | 0, 0x20 => inputBytes s u sel
  | 1, 0x20 => if all then ((List.range 8).map (queueCells s sel)).sum else queueCells s sel sub
  | 1, 0x21 => ((List.range 8).map (queueCells s sel)).sum
  | 2, 0x20 => ((selEngines s (u - 16) sel).map fun e => e.contexts.length).sum
  | 2, 0x21 => ((selEngines s (u - 16) sel).map fun e => e.input.length).sum
  | 3, 0x20 => (pcs.map fun i => (classes.map (hbmWaiting s (32 * (u - 24) + i))).sum).sum
  | 4, 0x20 => basinCells s - freeBasin s
  | 4, 0x21 => (kvGetD {} sel s.buf.pairs).a
  | 4, 0x22 => resUsed s
  | 5, 0x21 => (kvGetD {} sel s.host.events).backlog.length
  | _, _ => 0

/-- A port that SEL may name in a slice's unit (R487). -/
def pmuPort (u p : Nat) (egress : Bool) : Bool :=
  (decide (p < 256) && p / 32 == u % 8) || (u % 8 == 0 && (p == 256 || p == 258 || (egress && p == 257)))

/-- A settings word names an event of its unit's kind, and its SEL and SUB lie in the event's range (R487, R488). -/
def pmuLegal (u w : Nat) : Bool :=
  let code := fld 7 0 w
  let sel := fld 19 8 w
  let sub := fld 22 20 w
  let all := bit 23 w
  match pmuKind u with
  | 0 => code == 0 || code == 8 || (decide (code ≤ 7) || code == 0x20) && (pmuPort u sel false || sel == 0xFFF) ||
      code == 0x30 && pmuPort u sel false
  | 1 => code == 0 || (decide (code ≤ 7) || code == 0x20 || code == 0x21 || code == 0x30) && pmuPort u sel true
  | 2 => code == 0 || (decide (code ≤ 8) || code == 0x20 || code == 0x21) && (decide (sel < 8) || sel == 0xFFF)
  | 3 => code == 0 || (decide (code ≤ 4) || code == 0x20) && (decide (sel < 32) || sel == 0xFFF) &&
      (all || code == 3 || code == 4 || (decide (1 ≤ sub) && decide (sub ≤ 4)))
  | 4 => decide (code ≤ 8) || code == 0x20 || code == 0x22 || code == 0x21 && decide (sel < 2176)
  | _ => code == 0 || code == 2 || code == 3 || code == 0x20 || code == 4 && (decide (sel < 256) || sel == 0xFFF) ||
      code == 0x21 && decide (sel < 8) ||
      (code == 1 || code == 5) && (all || decide (sub ≤ 4)) &&
        (sel == 0xFFF || decide (sel < if all then 64 else nth 0 [64, 64, 8, 8, 1] sub))

/-! ## Time while it passes (R231, R236) -/

/-- One tick's slew step in units: SLEW_PPM × 10^-6 ns (R236). -/
def slewRate (s : State) : Nat := cuF s R.timCfg 31 24 * 2 ^ 48

/-- The increment of one tick without the slew: 1 ns + FREQ_ADJ × 2^-48 ns (R231). -/
def tickInc (s : State) : Int := (Config.nsUnit : Int) + s.tim.freqAdj * 1000000

/-- What is left of a slew after `e` further units of time (R236). -/
def slewAfter (s : State) (e : Nat) : Int :=
  let d : Int := (e * slewRate s / Config.nsUnit : Nat)
  if 0 ≤ s.tim.slewLeft then max 0 (s.tim.slewLeft - d) else min 0 (s.tim.slewLeft + d)

/-- How far master time moves while `e` units of time pass (R231, R236). -/
def masterOver (s : State) (e : Nat) : Int := (e : Int) * tickInc s / (Config.nsUnit : Int) + (s.tim.slewLeft - slewAfter s e)

/-- How long master time takes to move by `d` (R231, R236): with the slew while it lasts, at the increment alone beyond it. -/
def elapsedFor (s : State) (d : Nat) : Nat :=
  let inc := (tickInc s).toNat
  if s.tim.slewLeft = 0 then d * Config.nsUnit / inc
  else
    let r := slewRate s
    let whole := ceilDiv (s.tim.slewLeft.natAbs * Config.nsUnit) r
    let slewed := (masterOver s whole).toNat
    if slewed ≤ d then whole + (d - slewed) * Config.nsUnit / inc
    else d * Config.nsUnit / (if 0 ≤ s.tim.slewLeft then inc + r else inc - r)

/-! ## Cycles -/

/-- What a counter adds in every cycle while the state stands: threshold events, and events that count cycles. -/
def perCycle (s : State) (u k : Nat) : Nat :=
  let w := pmuEvt s u k
  let sel := fld 19 8 w
  let code := fld 7 0 w
  if pmuLegal u w = false then 0
  else if 0x20 ≤ code ∧ code ≤ 0x2F then
    b2n (decide (rgF s (R.pmuThresh u k) 26 0 < occupancy s u code sel (fld 22 20 w) (bit 23 w)))
  else
    match pmuKind u, code with
    | 0, 8 => b2n (s.buf.holding.contains u)
    | 1, 7 => b2n ((kvGetD {} sel s.eg.ports).sending.isNone &&
        (List.range 8).any fun q => !(kvGetD {} (8 * sel + q) s.eg.queues).copies.isEmpty)
    | 2, 8 => ((selEngines s (u - 16) sel).map fun e => (e.contexts.filter fun c => c.growing.isSome).length).sum
    | _, _ => 0

/-- Where the cycles of a counter begin in a span of elapsed time: an interframe gap or a pause frame still holds the medium in those of
IDLE_WAITING before it ends (R487). -/
def cyclesFrom (s : State) (e0 u k : Nat) : Nat :=
  let w := pmuEvt s u k
  if pmuKind u = 1 ∧ fld 7 0 w = 7 then e0 + elapsedFor s ((kvGetD {} (fld 19 8 w) s.lk.ports).busyTill - s.now) else e0

/-- What a counter of cycles adds over a span of elapsed time. For NP_OUTSTANDING the host decides in how many of the cycles the requests
outstanding exceed N: any number, while the link is up (assumption 176). -/
def spanCount (s : State) (e0 e1 u k : Nat) : Nat :=
  let n := pmuCycles s u e1 - pmuCycles s u (min e1 (cyclesFrom s e0 u k))
  if pmuKind u = 5 ∧ fld 7 0 (pmuEvt s u k) = 0x20 then
    if s.host.linkUp ∧ rgF s (R.pmuThresh u k) 26 0 < 512 then
      Config.npCycles e0 (rgF s (R.pmuThresh u k) 26 0) % (n + 1)
    else 0
  else n * perCycle s u k

/-- Time has passed from elapsed time `e0` to `e1` with the state standing: the counters that count cycles add them. -/
def pmuPass (e0 e1 : Nat) (s : State) : State :=
  forAll (fun c s => pmuAdd (c.1 / 8) (c.1 % 8) (spanCount s e0 e1 (c.1 / 8) (c.1 % 8)) s) s.pmu.ctrs s

end Sys2Proof.Machine
end

