-- ==== Sys2Proof/Machine/Ops.lean ====
section
/-! DEFINITION. The named operations that every family shares: master time, free values, event records and their
routing (R101 to R109), the guarantee's sticky bits (R41, R42), alarms, the warden's events (R151, R152), protected
violations (R144), host memory, and the accounting sets (R34). -/

namespace Sys2Proof.Machine

open Sys2Proof

/-! ## Time -/

/-- Nanoseconds as units of master time. -/
def nsT (n : Nat) : Nat := n * Config.nsUnit
/-- Microseconds as units of master time. -/
def usT (n : Nat) : Nat := nsT (n * 1000)
/-- Milliseconds as units of master time. -/
def msT (n : Nat) : Nat := nsT (n * 1000000)
/-- Seconds as units of master time. -/
def secT (n : Nat) : Nat := nsT (n * Config.nsPerSec)

/-- The seconds of a time. -/
def tSec (t : Nat) : Nat := t / Config.nsUnit / Config.nsPerSec
/-- The nanoseconds within the second of a time. -/
def tNs (t : Nat) : Nat := t / Config.nsUnit % Config.nsPerSec
/-- The 16-bit binary fraction of a nanosecond of a time. -/
def tFrac (t : Nat) : Nat := t / (2 ^ 32 * 1000000) % 2 ^ 16
/-- The whole nanoseconds of a time. -/
def tNanos (t : Nat) : Nat := t / Config.nsUnit

/-- A frame is past its deadline: the two are compared within ±2^31 ns (R395, R414). -/
def pastDeadline (x : Frame) (s : State) : Bool :=
  decide ((s.now + (nsT (2 ^ 32) - x.deadline % nsT (2 ^ 32))) % nsT (2 ^ 32) < nsT (2 ^ 31))
/-- A time from seconds and nanoseconds. -/
def mkT (sec ns : Nat) : Nat := (sec * Config.nsPerSec + ns) * Config.nsUnit

/-- A time moved by a signed number of units, modulo the counter's range; never below 0 within one range. -/
def shiftT (t : Nat) (d : Int) : Nat := (((t : Int) + d) % (Config.timeMod : Int)).toNat

/-- `e` units of time pass and master time becomes `t`: a slew goes on (R236), and counters that count cycles follow (R485,
R487). -/
def passTo (t e : Nat) (s : State) : State :=
  let s1 := pmuPass s.elapsed (s.elapsed + e) s
  { s1 with now := t % Config.timeMod, elapsed := s1.elapsed + e, tim := { s1.tim with slewLeft := slewAfter s e } }

/-- `e` units of time pass; with the time base stopped master time stands (R69). -/
def passFor (e : Nat) (s : State) : State :=
  if s.tim.stopped then { s with elapsed := s.elapsed + e } else passTo (shiftT s.now (masterOver s e)) e s

/-- Master time reaches `t`: an event that happens at a stated time brings master time forward to it (assumption 3). -/
def reach (t : Nat) (s : State) : State :=
  if s.tim.stopped || decide (t ≤ s.now) then s else passTo t (elapsedFor s (t - s.now)) s

/-- The time since power that is untouched by SET and STEP reaches `e`. -/
def reachElapsed (e : Nat) (s : State) : State := if e ≤ s.elapsed then s else passFor (e - s.elapsed) s

/-! ## Free values -/

/-- The next free value (assumption 2). -/
def draw (s : State) : Nat := Config.freeValue s.free

/-- The state after a free value has been used. -/
def drew (s : State) : State := { s with free := s.free + 1 }

/-! ## Host memory -/

/-- The host has written these bytes to its memory since the last command. -/
def hostWrote (ws : List (Nat × Byte)) (s : State) : State := { s with hmem := memApply s.hmem ws }

/-- The device writes bytes to host memory (R76). -/
def dmaWrite (a : Nat) (bs : List Byte) (s : State) : State :=
  pmuEv 29 3 none none bs.length { s with hmem := memWrite s.hmem a bs }

/-- The device reads bytes of host memory. -/
def dmaRead (a k : Nat) (s : State) : List Byte := memRead s.hmem a k

/-! ## Events -/

/-- The 28 bytes of an event record before its last word (R101); `body` is its four words at 0x0C to 0x18. -/
def eventHead (cls typ src t : Nat) (body : List Nat) : List Byte :=
  toLE 4 (cls + typ * 2 ^ 8 + src * 2 ^ 16) ++ toLE 4 (tSec t) ++ toLE 4 (tNs t) ++
    ((List.range 4).flatMap fun i => toLE 4 (nth 0 body i))

/-- Placing a record in an event ring's backlog: lost where the backlog is full, its SEQ consumed either way (R102). -/
def pushEvent (head : List Byte) (e : EventRing) : EventRing :=
  if e.backlog.length < Config.eventBacklog then
    { e with backlog := e.backlog ++ [head ++ toLE 4 (e.seq % 2 ^ 24 + 2 ^ 31)], seq := e.seq + 1 }
  else { e with seq := e.seq + 1, loss := true }

/-- An event ring's state (R101). -/
def eventRing (s : State) (r : Nat) : EventRing := kvGetD {} r s.host.events

/-- Sending an event record: routed by its class, discarded where the route is disabled, lost where the backlog is full
(R102). -/
def emit (cls typ src : Nat) (body : List Nat) (s : State) : State :=
  let route := rg s (R.rngEvtRoute cls)
  if fld 7 7 route = 0 then incRg64 R.rngEvtDropped s
  else
    let r := fld 2 0 route
    let e := eventRing s r
    let s1 := { s with host := { s.host with events := kvPut r (pushEvent (eventHead cls typ src s.now body) e) s.host.events } }
    if e.backlog.length < Config.eventBacklog then s1
    else stickRg (R.rngEvtStatus r) 3 (incRg64 R.rngEvtDropped s1)

/-! ## The guarantee -/

/-- Units of a kind that are in state 3 (R501). -/
def failedUnits (s : State) (kind : Nat) : List Nat :=
  (s.svc.states.filter fun c => c.1 / 1024 == kind && c.2 == 3).map (·.1 % 1024)

/-- A unit kind is short (R514). -/
def State.sparesShort (s : State) : Bool :=
  let f6 := failedUnits s 6
  let f7 := failedUnits s 7
  let f4 := failedUnits s 4
  ((List.range 8).any fun g => decide (2 ≤ (f6.filter fun i => i / 65 == g).length)) ||
  ((List.range 4).any fun h => decide (3 ≤ (f7.filter fun i => i / 32 == h).length)) ||
  (f4.any fun i => f4.contains (12 * (i / 12 ^^^ 1) + i % 12)) ||
  ([0, 1, 2, 3, 5, 8, 9].any fun k => !(failedUnits s k).isEmpty)

/-- The key of a directly indexed table entry in a parity. -/
def valKey (table idx par : Nat) : Nat := 2 * (2 ^ 20 * table + idx) + par % 2

/-- A learning domain in use runs in ordinary mode: some enabled VLAN entry of the current parity names it (R340). -/
def State.learnOrdinary (s : State) : Bool :=
  s.tab.vals.any fun c =>
    decide (valKey 2 0x22000 0 ≤ c.1) && decide (c.1 < valKey 2 0x23000 0) && c.1 % 2 == curPar s &&
      bit 0 (nth 0 c.2 1) && cuF s (R.fdbDomainCfg (fld 15 12 (nth 0 c.2 0))) 21 20 == 1

/-- The sticky fields of GLB_GUARANTEE that stand at 1, with ORDINARY_LEARN and SPARES_SHORT, and HOLDS (R41). -/
def guaranteeWord (s : State) : Nat :=
  let v := rg s R.glbGuarantee &&& 0x56
  let w := v + b2n s.learnOrdinary * 2 ^ 5 + b2n s.sparesShort * 2 ^ 3
  w + b2n (w = 0)

/-- A breach sets a sticky field of GLB_GUARANTEE; one GUARANTEE event where it was 0 (R41, R42). -/
def breach (i : Nat) (s : State) : State :=
  if bit i (rg s R.glbGuarantee) then s
  else
    let s1 := stickRg R.glbGuarantee i s
    emit 2 0 92 [i, guaranteeWord s1] s1

/-! ## Warden events, alarms, mode events -/

/-- Setting a W_EVENT bit (R152). Where its enable is set and it was 0, PF1 sends its MSI, where the PCIe link is up, and an I3C
controller gets an in-band interrupt whose data byte is W_EVENT (R151). -/
def wEvent (i : Nat) (s : State) : State :=
  let v := s.side.event ||| 2 ^ i
  if !bit i s.side.event && bit i s.side.eventEn then
    { s with side := { s.side with
        event := v, msi := s.side.msi + b2n s.host.linkUp, ibi := s.side.ibi + 1, ibiByte := v % 256 } }
  else { s with side := { s.side with event := v } }

/-- SP_ALERT_N is held low (R151). -/
def spAlert (s : State) : Bool := s.side.event &&& s.side.eventEn != 0

/-- A FAULT event (R105): type 0 fatal, 1 alarm. -/
def emitFault (typ code island detail : Nat) : State → State :=
  emit 3 typ island [code + island * 2 ^ 16, detail % 2 ^ 32, detail >>> 32 % 2 ^ 32, 0]

/-- A RUN-level alarm of an island (R105). -/
def alarm (code island detail : Nat) : State → State := emitFault 1 code island detail

/-- A mode-change event with its effect time (R45, R104); it also sets W_EVENT.MODE (R152). -/
def emitMode (old new : Mode) (fenced : Bool) (cmd fault t : Nat) (s : State) : State :=
  wEvent 7 (emit 1 0 95
    [tSec t % 2 ^ 32, tSec t >>> 32, tNs t,
     old.code + new.code * 8 + b2n fenced * 64 + cmd * 256 + fault * 2 ^ 16] s)

/-- A PROTECT event (R109); types 1 to 3 set the W_EVENT bits STAGED, CONFIRMED, DISCARDED (R152). -/
def emitProtect (typ off party item : Nat) (s : State) : State :=
  let s1 := emit 0xF typ 95 [off + party * 2 ^ 26, item] s
  if typ = 1 ∨ typ = 2 ∨ typ = 3 then wEvent (typ - 1) s1 else s1

/-- A protected write refused (R144): counted, a PROTECT event of type 0, W_EVENT.VIOLATION. -/
def violation (off party : Nat) (s : State) : State :=
  wEvent 4 (emitProtect 0 off party 0 (incRg R.prtViolations s))

/-- A LINK event of a port (R109): type 0 up, 1 down, 2 lane lost lock, 3 degraded width. -/
def emitLink (typ port lanes width : Nat) : State → State := emit 0xE typ port [port, lanes + width * 16]

/-- A BUFFER event (R108). -/
def emitBuffer (typ req ptr holder ageCells queue : Nat) : State → State :=
  emit 8 typ req [ptr, req + holder * 2 ^ 16, ageCells, queue]

/-- A BUCKET event (R109). -/
def emitBucket (set bucket group old new drainNs : Nat) : State → State :=
  emit 9 0 92 [set + bucket * 2 ^ 8 + group * 2 ^ 16, old + new * 2 ^ 16, satTo 0xFFFFFFFF drainNs]

/-- A SERVICE event (R109). -/
def emitService (typ island kind idx old new off : Nat) : State → State :=
  emit 0xA typ island [kind + idx * 2 ^ 8, old + new * 4, off]

/-- A TABLE_PARITY event (R109). -/
def emitParity (typ island table idx : Nat) : State → State := emit 0xB typ island [table, idx]

/-- A RECORDER event (R109). -/
def emitRecorder (typ island seg trig : Nat) : State → State := emit 0xD typ island [seg, trig]

/-- A COMMIT event (R109). -/
def emitCommit (typ gen status : Nat) : State → State := emit 5 typ 92 [gen % 2 ^ 32, status]

/-- Full register access and all rings: STAGE, RUN and DRAIN (R44). -/
def hostOpen (s : State) : Bool :=
  match s.md.mode with
  | .stage | .run | .drain => true
  | _ => false

/-! ## Writes of PF0 -/

/-- The island whose data-path registers lie at an offset, where it is one that can leave service (R30, R63). -/
def islandOf (off : Nat) : Option Nat :=
  if 0x60000 ≤ off ∧ off < 0x70000 then some 92
  else if 0x50000 ≤ off ∧ off < 0x60000 then some 93
  else if 0x100000 ≤ off ∧ off < 0x130000 then some (64 + off % 0x10000 / 0x2000)
  else if 0x140000 ≤ off ∧ off < 0x160000 then some (80 + (off - 0x140000) / 0x4000)
  else if 0x200000 ≤ off ∧ off < 0x240000 then some ((off - 0x200000) / 0x1000)
  else if 0x400000 ≤ off ∧ off < 0x440000 then some ((off - 0x400000) / 0x1000)
  else if 0x600000 ≤ off ∧ off < 0x620000 then some (72 + (off - 0x600000) / 0x4000)
  else if 0x800000 ≤ off ∧ off < 0x840000 then some (72 + (off - 0x800000) / 0x8000)
  else if 0x1000000 ≤ off ∧ off < 0x1400000 then some (72 + (off - 0x1000000) / 0x80000)
  else none

/-- SER_LANE_CMD is a service register: its tests run on units that are away (R30, R507). -/
def serviceReg (off : Nat) : Bool := decide (0x200000 ≤ off) && decide (off < 0x240000) &&
  decide (0x100 ≤ off % 0x1000) && decide (off % 0x1000 < 0x200) && off % 0x40 == 0x10

/-- The unit, by KIND and INDEX, that stands out of service or under test and so refuses a data-path write (R30): the island,
or the quad whose island it is. -/
def shutUnit (s : State) (off : Nat) : Option (Nat × Nat) :=
  if serviceReg off then none
  else (islandOf off).bind fun i =>
    if unitSt s 9 i ≠ 0 then some (9, i) else if i < 64 ∧ unitSt s 1 i ≠ 0 then some (1, i) else none

/-- A region of BAR0 is covered by the protection map in force (R142). -/
def regionLocked (s : State) (i : Nat) : Bool := s.prot.committed && bit (i % 32) (rg s (R.prtMap (i / 32)))

/-- A write refused by a unit that is away goes on the event ring (R30). -/
def refuseService (k i off : Nat) (s : State) : State :=
  emit 0xA 1 (if i < 96 then i else 95) [k + i * 2 ^ 8, unitSt s k i + unitSt s k i * 4, off] s

/-- A write of PF0 at an offset: taken where the host has access (R44), refused in a locked region (R142, R144) and in an
island that is away (R30). -/
def pf0Write (off : Nat) (f : State → State) (s : State) : State :=
  if !hostOpen s then s
  else if regionLocked s (off / 0x10000) then violation off 0 s
  else match shutUnit s off with
    | some (k, i) => refuseService k i off s
    | none => f s

/-! ## Accounting sets (R34) -/

/-- The accounting set of an ingress port: its slice's, or set 8 for P256 and P258 (R34). -/
def acctOf (port : Nat) : Nat := if port < 256 then port / 32 else 8

/-- One accounting set. -/
def acct (s : State) (k : Nat) : AcctSet := nth {} s.acct k

/-- A frame of a parity arrives (R34). -/
def AcctSet.arrive (par : Nat) (a : AcctSet) : AcctSet :=
  if par % 2 = 0 then { a with arrived := a.arrived + 1, inflight0 := a.inflight0 + 1 }
  else { a with arrived := a.arrived + 1, inflight1 := a.inflight1 + 1 }

/-- A frame of a parity gets its fate (R32, R34). -/
def AcctSet.settle (par fate : Nat) (a : AcctSet) : AcctSet :=
  let a1 := { a with fates := kvPut fate (kvGetD 0 fate a.fates + 1) a.fates }
  if par % 2 = 0 then { a1 with inflight0 := a.inflight0 - 1 } else { a1 with inflight1 := a.inflight1 - 1 }

/-- A fate is taken back: the frame is in flight again. -/
def AcctSet.unsettle (par fate : Nat) (a : AcctSet) : AcctSet :=
  let a1 := { a with fates := kvPut fate (kvGetD 0 fate a.fates - 1) a.fates }
  if par % 2 = 0 then { a1 with inflight0 := a.inflight0 + 1 } else { a1 with inflight1 := a.inflight1 + 1 }

/-- The sum of a set's fate counters. -/
def AcctSet.total (a : AcctSet) : Nat := (a.fates.map (·.2)).sum

/-- The check of R35: ARRIVED equals the fates plus the in-flight counts. -/
def AcctSet.ok (a : AcctSet) : Bool := a.arrived == a.total + a.inflight0 + a.inflight1

/-- Frames in flight of one parity, over all nine sets. -/
def inflight (s : State) (par : Nat) : Nat :=
  (s.acct.map (fun a => if par % 2 = 0 then a.inflight0 else a.inflight1)).sum

/-! ## Modes, as other families ask -/

/-- The fence stands: no slice accepts a frame into the data path (R61). -/
def fenceUp (s : State) : Bool := s.md.fenced || s.md.faultPending

/-- No copy leaves the data path: a fault is being recorded, or in fenced STAGE the buffer core is not working (R61, R62). -/
def fenceShut (s : State) : Bool :=
  s.md.faultPending || (s.md.fenced && decide (1 ≤ s.md.faultCode) && decide (s.md.faultCode ≤ 3))

/-- The island of a slice's ingress (R25). -/
def ingressIsland (slice : Nat) : Nat := 64 + slice

end Sys2Proof.Machine
end

