-- ==== Sys2Proof/Machine/LinkBase.lean ====
section
/-! DEFINITION. Access to lanes, quads and ports; which ports a quad's mode makes, their rates and lanes (R12, R162,
R168); lossless priorities and the pause frames that fall due (R209, R211). -/

namespace Sys2Proof.Machine

open Sys2Proof

/-- A lane, a quad, a port. -/
def lane (s : State) (n : Nat) : Lane := kvGetD {} n s.lk.lanes
def quad (s : State) (q : Nat) : Quad := kvGetD {} q s.lk.quads
def port (s : State) (p : Nat) : Port := kvGetD {} p s.lk.ports

/-- Storing a lane, a quad, a port. -/
def setLane (n : Nat) (l : Lane) (s : State) : State := { s with lk := { s.lk with lanes := kvPut n l s.lk.lanes } }
def setQuad (q : Nat) (x : Quad) (s : State) : State := { s with lk := { s.lk with quads := kvPut q x s.lk.quads } }
def setPort (p : Nat) (x : Port) (s : State) : State := { s with lk := { s.lk with ports := kvPut p x s.lk.ports } }

/-- Changing a port. -/
def modPort (p : Nat) (f : Port → Port) (s : State) : State := setPort p (f (port s p)) s

/-- A mode makes the port with this number within its quad (R162). -/
def modeHas (mode j : Nat) : Bool :=
  match mode with
  | 1 | 2 | 4 | 8 | 9 => true
  | 5 => j == 0 || j == 2
  | 3 | 6 | 10 | 11 => j == 0
  | _ => false

/-- The modes of a Tsuip link (R162). -/
def modeTsuip (mode : Nat) : Bool := mode == 4 || mode == 5 || mode == 6

/-- The configured width of a mode's port in lanes. -/
def modeLanes (mode : Nat) : Nat :=
  match mode with
  | 5 => 2
  | 3 | 6 | 10 | 11 => 4
  | _ => 1

/-- The running mode of a port's quad. -/
def portMode (s : State) (p : Nat) : Nat := (quad s (p / 4)).mode

/-- A quad serves no port: it is out of service or leaving, itself or with its island (R505, R521). -/
def quadAway (s : State) (q : Nat) : Bool := unitAway s .quad q || unitAway s .island q

/-- The port is a Tsuip port. -/
def portTsuip (s : State) (p : Nat) : Bool := modeTsuip (portMode s p) && decide (p < 256)

/-- The rate of a port in units of 100 Mb/s (R162); a Tsuip port's follows its width in use. -/
def portRate (s : State) (p : Nat) : Nat :=
  match portMode s p with
  | 1 => 10
  | 2 => 25
  | 3 | 8 => 100
  | 4 | 5 | 6 => 100 * max 1 (port s p).ts.width
  | 9 => 250
  | 10 => 400
  | 11 => 1000
  | _ => 10

/-- The time that `n` bits take on a port's medium. -/
def bitTime (s : State) (p n : Nat) : Nat := n * 10 * Config.nsUnit / portRate s p

/-- The time of `n` pause quanta of 512 bit times (R210). -/
def quantaTime (s : State) (p n : Nat) : Nat := bitTime s p (512 * n)

/-- The logical lanes of a port within its quad (R162). -/
def portLanes (s : State) (p : Nat) : List Nat := (List.range (modeLanes (portMode s p))).map (p % 4 + ·)

/-- The physical lane that carries a logical receive lane (R168). -/
def rxLane (s : State) (q i : Nat) : Nat := 4 * q + fld (2 * i + 1) (2 * i) (cu s (R.serMap q))

/-- The physical lane that carries a logical transmit lane (R168). -/
def txLane (s : State) (q i : Nat) : Nat := 4 * q + fld (2 * i + 9) (2 * i + 8) (cu s (R.serMap q))

/-- The lanes of a logical lane serve: neither is out of service or leaving (R505). -/
def laneServes (s : State) (q i : Nat) : Bool := !unitAway s .lane (rxLane s q i) && !unitAway s .lane (txLane s q i)

/-- A lane of a port has failed: a port other than a Tsuip link that needs it does not exist (R520). -/
def laneMissing (s : State) (p : Nat) : Bool :=
  !modeTsuip (portMode s p) && (portLanes s p).any fun i =>
    unitState s .lane (rxLane s (p / 4) i) == 3 || unitState s .lane (txLane s (p / 4) i) == 3

/-- Port Pn has a MAC (R197, R505, R520). -/
def portPresent (s : State) (p : Nat) : Bool :=
  decide (p < 256) && modeHas (portMode s p) (p % 4) && !(quad s (p / 4)).failed && !quadAway s (p / 4) && !laneMissing s p

/-- A port number that the quad's mode in use leaves without a port beside those it forms: a mode of one port from four lanes, or
of two Tsuip ×2 links (R12). -/
def unusedNumber (s : State) (p : Nat) : Bool :=
  decide (p < 256) && decide (2 ≤ modeLanes (portMode s p)) && !modeHas (portMode s p) (p % 4)

/-- The logical receive lane that a physical lane carries. -/
def logicalOf (s : State) (ln : Nat) : Nat := ((List.range 4).find? fun i => rxLane s (ln / 4) i == ln).getD 0

/-- The port that a physical lane serves. -/
def portOfLane (s : State) (ln : Nat) : Nat :=
  let i := logicalOf s ln
  let w := modeLanes (quad s (ln / 4)).mode
  4 * (ln / 4) + i / w * w

/-- A lane has lock and neither LOS nor LOL. -/
def Lane.good (l : Lane) : Bool := l.lock && !l.los && !l.lol

/-- The lossless priorities of a port, one bit each (R209, R212): on a Tsuip port the classes of CLASS_EN. -/
def lossless (s : State) (p : Nat) : Nat :=
  if 256 ≤ p then 0
  else if portTsuip s p then cuF s (R.serTsCfg2 (p / 4) (p % 4)) 23 16
  else if cuF s (R.macPauseCfg p) 1 0 = 0 then 0
  else cuF s (R.macPauseCfg p) 15 8

/-- The priority is a lossless one of its port. -/
def isLossless (s : State) (p prio : Nat) : Bool := bit prio (lossless s p)

/-- A port's register in its Tsuip set (R44): the map's instance for the port's quad and its lane. -/
def tsReg (f : Nat → Nat → Nat) (p : Nat) : Nat := f (p / 4) (p % 4)

/-- A pause frame falls due: XOFF or XON for the priorities of a mask (R211). A later change replaces an earlier one not
yet sent. -/
def pauseDue (p mask : Nat) (xoff : Bool) (s : State) : State :=
  modPort p (fun x =>
    if xoff then { x with dueXoff := x.dueXoff ||| mask, dueXon := x.dueXon &&& (0xFF ^^^ mask) }
    else { x with dueXon := x.dueXon ||| mask, dueXoff := x.dueXoff &&& (0xFF ^^^ mask) }) s

/-- A lossless pair of a port enters or leaves XOFF (R211). `any` says whether another lossless priority of the port is
in XOFF; in mode 1 the port as a whole follows the first to enter and the last to leave. A port that is down sends
nothing (R215); a Tsuip port sends no pause (R182). From T_d until DRAIN ends no XON goes out (R55). -/
def watermark (p prio : Nat) (xoff any : Bool) (s : State) : State :=
  if portTsuip s p || !(port s p).up || (s.md.draining && !xoff) then s
  else
    match cuF s (R.macPauseCfg p) 1 0 with
    | 1 => if any then s else pauseDue p 0xFF xoff s
    | 2 => pauseDue p (2 ^ prio) xoff s
    | _ => s

/-- A port's MAC counter is at 0x100 + 8 × n (R225). -/
def macCtr (p n : Nat) : Nat := 0x400100 + 0x400 * p + 8 * n

/-- Counting in a MAC statistic. -/
def countMac (p n k : Nat) (s : State) : State := addRg64 (macCtr p n) k s

/-- The size bin of a frame among seven (R225). -/
def sizeBin (f : Nat) : Nat :=
  if f ≤ 64 then 0 else if f ≤ 127 then 1 else if f ≤ 255 then 2 else if f ≤ 511 then 3
  else if f ≤ 1023 then 4 else if f ≤ 1518 then 5 else 6

/-- The cast of a frame: 0 unicast, 1 multicast, 2 broadcast (R225). -/
def castOf (bs : List Byte) : Nat :=
  if beN bs 0 6 = 0xFFFFFFFFFFFF then 2 else if byteAt bs 0 % 2 = 1 then 1 else 0

/-! ## What a port puts on its lanes (R168, R173, R174, R177) -/

/-- The physical transmit lanes of a port, in logical order: on a Tsuip port in CONFIG and ACTIVE those of the width that training has
found (R188); else every lane of its mode. -/
def txLanes (s : State) (p : Nat) : List Nat :=
  let t := (port s p).ts
  let all := (List.range (modeLanes (portMode s p))).map fun i => txLane s (p / 4) (p % 4 + i)
  if portTsuip s p && decide (3 ≤ t.st) && t.st != 5 then all.filter fun ln => bit (ln % 4) t.txUse else all

/-- TX_INV of a physical lane. -/
def txInverted (s : State) (ln : Nat) : Bool := bit 0 (cu s (R.serLaneCfg (ln / 4) (ln % 4)))

/-- COM, which alone is IDLE. -/
def symCom : Sym := .k 0xBC

/-- The columns of a symbol stream on `w` lanes, the last one filled with IDLE (R174); `fuel` bounds the columns. -/
def columnsOf (w : Nat) : Nat → List Sym → List (List Sym)
  | 0, _ => []
  | _ + 1, [] => []
  | fuel + 1, x :: xs =>
    let c := (x :: xs).take w
    (c ++ List.replicate (w - c.length) symCom) :: columnsOf w fuel ((x :: xs).drop w)

/-- The columns of a frame: SOF, the header symbol with CLASS, the bytes, EOF or EEF (R174, R176). -/
def frameColumns (w cls : Nat) (bs : List Byte) (eef : Bool) : List (List Sym) :=
  let xs : List Sym := [.k 0xFB, .d (BitVec.ofNat 8 (cls % 8))] ++ bs.map Sym.d ++ [.k (if eef then 0xFE else 0xFD)]
  columnsOf (max 1 w) xs.length xs

/-- A lane sends symbols: their code groups follow its running disparity, inverted by TX_INV (R168, R173). -/
def laneSends (ln : Nat) (xs : List Sym) (s : State) : State :=
  let l := lane s ln
  let c := codeAll l.txRd xs
  setLane ln { l with txRd := c.2, txGroups := if txInverted s ln then c.1.map (1023 - ·) else c.1 } s

/-- Columns of symbols go out on some lanes, symbol k of each on lane k (R174). -/
def columnsOut (lanes : List Nat) (cols : List (List Sym)) (s : State) : State :=
  forAll (fun c => laneSends c.1 (cols.map fun col => nth symCom col c.2)) lanes.zipIdx s

/-- A port has put bytes on its medium; on a Tsuip port as the columns of a frame of a class. -/
def sentOn (p cls : Nat) (bs : List Byte) (eef : Bool) (s : State) : State :=
  let lanes := txLanes s p
  let cols := if portTsuip s p then frameColumns lanes.length cls bs eef else []
  whenDo (portTsuip s p) (columnsOut lanes cols)
    (modPort p (fun x => { x with
      lastSent := bs, lastLanes := lanes.map fun ln => (ln, txInverted s ln),
      tsOut := if portTsuip s p then { x.tsOut with columns := cols } else x.tsOut }) s)

/-- The CRC-8 of ordered sets: x^8 + x^2 + x + 1, initial value 0, most significant bit first (R177). -/
def crc8 (bs : List Byte) : Nat :=
  bs.foldl (fun c b => (List.range 8).foldl (fun c _ => if 128 ≤ c then ((c * 2) % 256) ^^^ 7 else c * 2) (c ^^^ b.toNat)) 0

/-- Counting a frame that a port has sent whole (R225). -/
def countSent (p : Nat) (bs : List Byte) (s : State) : State :=
  countMac p (37 + sizeBin bs.length) 1 (countMac p (28 + castOf bs) 1 (countMac p 27 1 (countMac p 26 bs.length s)))

end Sys2Proof.Machine
end

