-- ==== Sys2Proof/Machine/BucketOps.lean ====
section
/-! DEFINITION. Buckets and the paths they carry (R22, R24, R329, R330, R358, R421): sets 0 LAG, 1 ECMP, 2 engine within a
cluster, 3 reservoir channel. A bucket not listed in `carry` carries the path it wants. -/

namespace Sys2Proof.Machine

open Sys2Proof

/-- The words of a directly indexed entry in a parity; none where it has never been written (all zero). -/
def entry (s : State) (table idx par : Nat) : List Nat := kvGetD [] (valKey table idx par) s.tab.vals

/-- The key of a bucket. -/
def bucketKey (set group b : Nat) : Nat := 2 ^ 24 * set + 256 * group + b

/-- A byte of an entry held as 32-bit words. -/
def entryByte (ws : List Nat) (i : Nat) : Nat := nth 0 ws (i / 4) / 2 ^ (8 * (i % 4)) % 256

/-- COUNT, the members and the home member of a bucket, of a LAG or ECMP entry (R328). -/
def groupCount (lag : Bool) (ws : List Nat) : Nat := fld (if lag then 4 else 6) 0 (nth 0 ws 0)
def groupMember (lag : Bool) (ws : List Nat) (k : Nat) : Nat := fld (if lag then 7 else 16) 0 (nth 0 ws (2 + k))
def groupMembers (lag : Bool) (ws : List Nat) : List Nat := (List.range (groupCount lag ws)).map (groupMember lag ws)
def groupHome (lag : Bool) (ws : List Nat) (b : Nat) : Nat :=
  if bit 7 (nth 0 ws 0) then b % max 1 (groupCount lag ws)
  else if lag then fld 3 0 (entryByte ws (0x48 + b)) else fld 5 0 (entryByte ws (0x108 + b))

/-- The words of LAG l, of ECMP group g, of next hop i. -/
def lagWords (s : State) (par l : Nat) : List Nat := entry s 2 (0x21000 + l) par
def ecmpWords (s : State) (par g : Nat) : List Nat := entry s 2 (0x20000 + g) par
def nextHopWords (s : State) (par i : Nat) : List Nat := entry s 2 i par

/-- A LAG member is live when its port is up (R329). -/
def lagLive (s : State) (par l : Nat) : Bool := (groupMembers true (lagWords s par l)).any fun p => (port s p).up

/-- A next hop is live: KIND PORT with the port up, LAG with a live member, or any other KIND (R329). -/
def hopLive (s : State) (par i : Nat) : Bool :=
  let w := nth 0 (nextHopWords s par i) 2
  match fld 2 0 w with
  | 1 => decide (256 ≤ fld 16 3 w) || (port s (fld 16 3 w)).up
  | 2 => lagLive s par (fld 16 3 w)
  | _ => true

/-- The member of its home, or the live member that stands in for it; none for an empty group (R329). -/
def wantedMember (members : List Nat) (home b : Nat) (live : Nat → Bool) : Option Nat :=
  match members[home]? with
  | none => members[0]?
  | some h =>
    if live h then some h
    else
      let l := members.filter live
      if l.isEmpty then some h else l[b % l.length]?

/-- A logical channel that takes no new spill: lost, or being removed without a spare (R421, R510). -/
def channelAway (s : State) (ch : Nat) : Bool := s.svc.lostChannels.contains ch || unitAway s .hbm (physicalOf s ch)

/-- The engines of a cluster that take work, and the reservoir channels in service. -/
def enginesIn (s : State) (c : Nat) : List Nat := (List.range 8).filter fun e => !unitAway s .engine (8 * c + e)
def channelsIn (s : State) : List Nat := (List.range 120).filter fun ch => !channelAway s ch

/-- The path a bucket wants under the settings of a parity (R329, R358, R421). -/
def wantedPath (s : State) (par set group b : Nat) : Option Nat :=
  match set with
  | 0 =>
    let ws := lagWords s par group
    wantedMember (groupMembers true ws) (groupHome true ws b) b fun p => (port s p).up
  | 1 =>
    let ws := ecmpWords s par group
    wantedMember (groupMembers false ws) (groupHome false ws b) b (hopLive s par)
  | 2 =>
    let home := fld (8 * (b % 4) + 2) (8 * (b % 4)) (pg s par (R.engHome group (b / 4)))
    let l := enginesIn s group
    if l.contains home || l.isEmpty then some home else l[b % l.length]?
  | _ =>
    let home := cuF s (R.bpmResHome b) 6 0
    let l := channelsIn s
    if l.contains home || l.isEmpty then some home else l[b % l.length]?

/-- The path a bucket carries, for a frame of a parity (R24, R330). -/
def carried (s : State) (par set group b : Nat) : Option Nat :=
  match kvGet (bucketKey set group b) s.tab.carry with
  | some x => some x
  | none =>
    match wantedPath s (curPar s) set group b with
    | some x => some x
    | none => wantedPath s par set group b

/-- The member number of a path in a bucket's list, for the BUCKET event (R330). -/
def pathNumber (s : State) (par set group path : Nat) : Nat :=
  match set with
  | 0 => (groupMembers true (lagWords s par group)).findIdx (· == path)
  | 1 => (groupMembers false (ecmpWords s par group)).findIdx (· == path)
  | _ => path

/-- One bucket after a change from `old`: it keeps the path it carried, and moves where it wants another. A group that lost
all its members leaves its buckets without a path; one that gained members gives them the wanted path at once (R330). -/
def noteBucket (old : State) (set group b : Nat) (s : State) : State :=
  let k := bucketKey set group b
  let was := match kvGet k old.tab.carry with
    | some x => some x
    | none => wantedPath old (curPar old) set group b
  let drop : State := { s with tab := { s.tab with carry := kvDel k s.tab.carry, moves := kvDel k s.tab.moves } }
  match was, wantedPath s (curPar s) set group b with
  | some x, some y =>
    if x = y then drop
    else { s with tab := { s.tab with
        carry := kvPut k x s.tab.carry,
        moves := if (kvGet k s.tab.moves).isSome then s.tab.moves
          else kvPut k (s.now, pathNumber old (curPar old) set group x) s.tab.moves } }
  | _, _ => drop

/-- Every bucket of a group. -/
def noteGroup (old : State) (set group : Nat) (s : State) : State :=
  forAll (fun b => noteBucket old set group b) (List.range 256) s

/-- The LAGs and ECMP groups that have been written in some parity. -/
def groupsSeen (s : State) (set : Nat) : List Nat :=
  let lo := if set = 0 then 0x21000 else 0x20000
  let hi := if set = 0 then 0x21100 else 0x21000
  ((s.tab.vals.filter fun c => decide (valKey 2 lo 0 ≤ c.1) && decide (c.1 < valKey 2 hi 0) && c.1 % 2 == 0).map
    fun c => c.1 / 2 % 2 ^ 20 - lo) ++
  ((s.tab.vals.filter fun c => decide (valKey 2 lo 0 ≤ c.1) && decide (c.1 < valKey 2 hi 0) && c.1 % 2 == 1 &&
      (kvGet (c.1 - 1) s.tab.vals).isNone).map fun c => c.1 / 2 % 2 ^ 20 - lo)

/-- LAG and ECMP buckets after a change of liveness or of the entries. -/
def noteHops (old s : State) : State :=
  forAll (fun g => noteGroup old 1 g) (groupsSeen s 1) (forAll (fun l => noteGroup old 0 l) (groupsSeen s 0) s)

/-- Engine buckets of the clusters after a change of service or of ENG_HOME. -/
def noteEngines (old s : State) : State := forAll (fun c => noteGroup old 2 c) (List.range 8) s

/-- Reservoir buckets after a change of channels or of BPM_RES_HOME. -/
def noteChannels (old s : State) : State := noteGroup old 3 0 s

/-- A frame has been looked up through this bucket to the path it carries and has not left that path (R24); on a reservoir channel
from the start of its spill. -/
def onPath (s : State) (set group b path : Nat) : Bool :=
  s.buf.frames.any fun f =>
    if set = 3 then
      fld 23 16 f.2.hash == b && ((f.2.spilled && f.2.channel == path) || s.buf.spilling.any fun r => r.1 == f.1 && r.2.1 == path)
    else f.2.paths.contains (set, group, b, path)

/-- A bucket that has drained moves to the path it wants, with its BUCKET event (R24, R330). -/
def moveBucket (set group b : Nat) (s : State) : State :=
  let k := bucketKey set group b
  match kvGet k s.tab.carry, kvGet k s.tab.moves, wantedPath s (curPar s) set group b with
  | some x, some (since, number), some y =>
    if onPath s set group b x then s
    else
      emitBucket set b group number (pathNumber s (curPar s) set group y) (tNanos (s.now - since))
        { s with tab := { s.tab with carry := kvDel k s.tab.carry, moves := kvDel k s.tab.moves } }
  | _, _, _ => s

/-- BUCKET_MOVE: the count of a bucket's frames on its old path is zero, and it switches (R24). -/
def execBucketMove (set group b : Nat) (s : State) : Host.Outcome State Fault Refusal :=
  .next (moveBucket (set % 4) group (b % 256) s)

end Sys2Proof.Machine
end

