-- ==== Sys2Proof/Machine/BufferOps.lean ====
section
/-! DEFINITION. The buffer pool manager's counts, pairs and pools (12_buffers, R390 to R422): free cells, the shared pool,
pressure, XOFF, admission and release. -/

namespace Sys2Proof.Machine

open Sys2Proof

/-! ## Frames, cells, pointers -/

/-- A frame in the device, and changing one. -/
def frame (s : State) (f : Nat) : Frame := kvGetD {} f s.buf.frames
def setFrame (f : Nat) (x : Frame) (s : State) : State := { s with buf := { s.buf with frames := kvPut f x s.buf.frames } }
def modFrame (f : Nat) (g : Frame → Frame) (s : State) : State := { s with buf := { s.buf with frames := kvUpd f g s.buf.frames } }

/-- The cells that a frame of F bytes takes (R395). -/
def cellsOf (n : Nat) : Nat := ceilDiv (n + 64) 256

/-- Cells of one reservoir channel (R421), the channels in service, BPM_RES_CELLS. -/
def channelCells (s : State) : Nat := s.buf.resGib * 4194304 / 120
def resChannels (s : State) : Nat := 120 - s.svc.lostChannels.length
def resCells (s : State) : Nat := channelCells s * resChannels s

/-- BPM_RES_FREE. -/
def freeRes (s : State) : Nat := resCells s - resUsed s

/-- Free cells of one reservoir channel. -/
def freeChannel (s : State) (ch : Nat) : Nat :=
  channelCells s - (s.buf.frames.map fun f => if f.2.spilled && f.2.channel == ch then f.2.chain.length else 0).sum -
    (s.buf.spilling.map fun r => if r.2.1 = ch then r.2.2.length else 0).sum

/-- A pointer passes R394. -/
def ptrOk (s : State) (p : Nat) : Bool :=
  if bit 31 p then
    fld 30 27 p == 0 && decide (fld 26 20 p < 120) && !s.svc.lostChannels.contains (fld 26 20 p) &&
      decide (fld 19 0 p < channelCells s) && decide (p < 2 ^ 32)
  else fld 30 19 p == 0 && unitState s .bankGroup (fld 18 0 p / groupCells) == 0 && decide (p < 2 ^ 32)

/-- The handle of a pointer, and the pointer a handle names where its form is right (R393, R394). -/
def handleOf (p : Nat) : Nat := if bit 31 p then 2 ^ 40 + fld 26 0 p * 256 else p * 256
def ptrOfHandle (s : State) (h : Nat) : Option Nat :=
  if h % 256 ≠ 0 ∨ fld 63 41 h ≠ 0 ∨ fld 39 35 h ≠ 0 then none
  else
    let p := if bit 40 h then 2 ^ 31 + fld 34 8 h else fld 34 8 h
    if ptrOk s p then some p else none

/-- The free list that a basin cell is on, or was last on: one for each of the 32 access ports (R403). -/
def freeList (s : State) (p : Nat) : Nat := kvGetD (p % 32) p s.buf.lists

/-- A chain of cells is freed: basin cells go to the list of its first cell's INDEX mod 32; those of a reservoir channel to that
channel's own (R403). -/
def returnCells (chain : List Nat) (s : State) : State :=
  match chain with
  | [] => s
  | c :: _ =>
    if bit 31 c then s
    else { s with buf := { s.buf with lists := chain.foldl (fun l p => kvSet (p % 32) p (c % 32) l) s.buf.lists } }

/-- The first free pointer at or after a start, within a pool of `n` cells from `base`; `fuel` bounds the search. -/
def findCell (used : List Nat) (ok : Nat → Bool) (base n : Nat) : Nat → Nat → Nat
  | 0, i => base + i % max 1 n
  | fuel + 1, i =>
    let p := base + i % max 1 n
    if ok p && !used.contains p then p else findCell used ok base n fuel (i + 1)

/-- A basin cell that may be granted: not in use, in a bank group in service, on a given free list. -/
def grantable (s : State) (used : List Nat) (l p : Nat) : Bool :=
  (bankGroups s).contains (p / groupCells) && freeList s p == l && !used.contains p

/-- The free list from which the next basin cell comes: the first from `l` on that is not empty. -/
def listFrom (s : State) (used : List Nat) (l : Nat) : Nat :=
  (((List.range 32).map fun j => (l + j) % 32).find? fun k => (List.range Config.basinCells).any (grantable s used k)).getD (l % 32)

/-- `k` distinct cells granted from the basin (`ch` = none) or a reservoir channel. The access port that asks, and so the free list, and
the cell's place in that list are the device's choice: each search begins at a free value (assumption 2). -/
def grant (ch : Option Nat) : Nat → List Nat → State → List Nat × State
  | 0, acc, s => (acc, s)
  | k + 1, acc, s =>
    let used := acc ++ cellsInUse s
    let p := match ch with
      | none => findCell used (grantable s used (listFrom s used (draw s))) 0 Config.basinCells (Config.basinCells + 1) (draw s)
      | some c => findCell used (fun _ => true) (2 ^ 31 + c * 2 ^ 20) (channelCells s) (channelCells s + 1) (draw s)
    grant ch k (acc ++ [p]) (drew s)

/-! ## Pairs (R405 to R407) -/

/-- The accounting pair of a port and priority, and its settings. -/
def pairOf (s : State) (i : Nat) : Pair := kvGetD {} i s.buf.pairs
def setPair (i : Nat) (x : Pair) (s : State) : State := { s with buf := { s.buf with pairs := kvSet {} i x s.buf.pairs } }
def pairMin (s : State) (i : Nat) : Nat := cuF s (R.bpmPpMin i) 15 0
def pairShare (s : State) (i : Nat) : Nat := cuF s (R.bpmPpShare i) 26 0
def pairHwm (s : State) (i : Nat) : Nat := cuF s (R.bpmPpHwm i) 26 0
def pairLwm (s : State) (i : Nat) : Nat := cuF s (R.bpmPpLwm i) 26 0

/-- A pair is lossless: by its port's settings, and always on P256 and P258 (R406). -/
def pairLossless (s : State) (i : Nat) : Bool :=
  if i / 8 = 256 ∨ i / 8 = 258 then true else isLossless s (i / 8) (i % 8)

/-- The headroom a lossless pair may use, in cells (R406). -/
def headroomOf (s : State) (i : Nat) : Nat :=
  let p := i / 8
  let cells :=
    if 256 ≤ p then 64
    else if portTsuip s p then cuF s (tsReg R.serTsCredit0 p + 4 * (i % 8)) 12 0
    else (port s p).headroom
  if pairLossless s i then ceilDiv (cells * cuF s R.bpmCfg 22 16) 100 else 0

/-- Annex 31B pause runs on the port: one headroom serves all its lossless pairs (R212, R406). -/
def sharedHeadroom (s : State) (p : Nat) : Bool := decide (p < 256) && !portTsuip s p && cuF s (R.macPauseCfg p) 1 0 == 1

/-- Headroom already used where the pair's new cells would be charged. -/
def headroomUsed (s : State) (i : Nat) : Nat :=
  if sharedHeadroom s (i / 8) then ((List.range 8).map fun k => (pairOf s (8 * (i / 8) + k)).hr).sum else (pairOf s i).hr

/-! ## Pools and pressure (R409, R413) -/

/-- The system reserve. -/
def sysReserve (s : State) : Nat := cuF s R.bpmSysReserve 16 0

/-- BPM_SHARED_SIZE (R413). -/
def sharedSize (s : State) : Nat :=
  basinCells s + (if bit 23 (cu s R.bpmCfg) then resCells s else 0) - (sysReserve s + s.buf.sumMin + s.buf.sumHr)

/-- Cells of the shared pool that pairs hold, and BPM_SHARED_FREE. -/
def sharedUsed (s : State) : Nat := (s.buf.pairs.map fun c => c.2.a - c.2.hr - pairMin s c.1).sum
def sharedFree (s : State) : Nat := sharedSize s - sharedUsed s

/-- Cells that engines, records and frame records have taken from the system reserve (R397, R407). -/
def reserveUsed (s : State) : Nat :=
  (s.buf.frames.map fun f => if f.2.charge = 0 || f.2.spilled then 0 else f.2.chain.length - f.2.charge).sum +
    (s.recd.backlog.map fun r => r.cells).sum

/-- BASIN_SHARED_FREE (R409). -/
def basinSharedFree (s : State) : Int :=
  (freeBasin s : Int) - ((sysReserve s - reserveUsed s : Nat) : Int) -
    ((s.buf.sumMin - (s.buf.pairs.map fun c => min (c.2.a - c.2.hr) (pairMin s c.1)).sum : Nat) : Int) -
    ((s.buf.sumHr - (s.buf.pairs.map fun c => c.2.hr).sum : Nat) : Int)

/-- A pair's accounting is in XOFF (R410). -/
def pairInXoff (s : State) (p prio : Nat) : Bool := (pairOf s (8 * p + prio)).xoff

/-- Releasing the credit returns withheld for a class (R182). -/
def tsReleaseReturns (p c : Nat) (s : State) : State :=
  modPort p (fun x =>
    let t := x.ts
    { x with ts := { t with returned := t.returned.set c ((nth 0 t.returned c + nth 0 t.withheld c) % 65536),
                            withheld := t.withheld.set c 0 } }) s

/-- Judging a pair's XOFF again (R410), with what follows for its source (R182, R211). -/
def judgePair (i : Nat) (s : State) : State :=
  let x := pairOf s i
  let on := pairLossless s i && (decide (pairHwm s i < x.a) || (s.buf.pressure && decide (pairMin s i ≤ x.a)))
  let off := decide (x.a < pairLwm s i) && (!s.buf.pressure || decide (x.a < pairMin s i))
  let new := pairLossless s i && (on || (x.xoff && !off))
  if new = x.xoff then s
  else
    let s1 := setPair i { x with xoff := new } s
    let p := i / 8
    if 256 ≤ p then s1
    else if portTsuip s p then whenDo (!new) (tsReleaseReturns p (i % 8)) s1
    else
      let any := (List.range 8).any fun k => k != i % 8 && isLossless s p k && pairInXoff s p k
      watermark p (i % 8) new any s1

/-- Every pair of the ports that exist. -/
def allPairs : List Nat := List.range 2072

/-- PRESSURE follows BASIN_SHARED_FREE (R409); when it changes, every pair is judged. -/
def judgePressure (s : State) : State :=
  let b := basinSharedFree s
  let new := if b < (cuF s R.bpmPoolXoff 18 0 : Nat) then true
    else if (cuF s R.bpmPoolXon 18 0 : Nat) < b then false else s.buf.pressure
  if new = s.buf.pressure then s else forAll judgePair allPairs { s with buf := { s.buf with pressure := new } }

/-! ## Admission and release (R407, R408) -/

/-- What a frame charges to its pair: cells, or credit units on a Tsuip port (R407). -/
def chargeOf (s : State) (p bytes : Nat) : Nat := if portTsuip s p then ceilDiv bytes 256 else cellsOf bytes

/-- A Tsuip frame's units go back to the sender, or are withheld while its pair is in XOFF (R182). -/
def tsReturn (p c units : Nat) (s : State) : State :=
  if portTsuip s p && decide (c < 8) then
    modPort p (fun x =>
      let t := x.ts
      if pairInXoff s p c then { x with ts := { t with withheld := t.withheld.set c (nth 0 t.withheld c + units) } }
      else { x with ts := { t with returned := t.returned.set c ((nth 0 t.returned c + units) % 65536) } }) s
  else s

/-- Whether the shared pool, or headroom, takes `c` cells of a pair; none for a refusal (R408). -/
def admits (s : State) (i c : Nat) : Option Bool :=
  let x := pairOf s i
  let short := c - min c (pairMin s i - x.a)
  if short = 0 ∨ (x.a - x.hr + c ≤ pairMin s i + pairShare s i ∧ short ≤ sharedFree s ∧ s.buf.pressure = false) then some false
  else if pairLossless s i && decide (headroomUsed s i + short ≤ headroomOf s i) then some true
  else none

/-- The charge of an admitted frame (R407, R408). -/
def chargePair (i c : Nat) (head : Bool) (s : State) : State :=
  let x := pairOf s i
  let short := c - min c (pairMin s i - x.a)
  judgePressure (judgePair i (setPair i { x with a := x.a + c, hr := if head then x.hr + short else x.hr } s))

/-- The release of a frame's charge: headroom first (R407). -/
def releasePair (i c : Nat) (s : State) : State :=
  let x := pairOf s i
  judgePressure (judgePair i (setPair i { x with a := x.a - c, hr := x.hr - min x.hr c } s))

/-- A requester is answered EMPTY (R399): counted, EMPTY_SEEN. -/
def countEmpty (s : State) : State := pmuEv 28 5 none none 1 (stickRg R.bpmStatus 4 (incRg R.bpmEmpty s))

/-- A BUFFER event of a limited type (R401): at most one of each type in any 1 ms. -/
def limitedEvent (typ req ptr holder : Nat) (s : State) : State :=
  let go := match kvGet typ s.buf.lastEvent with
    | none => true
    | some t => decide (t + msT 1 ≤ s.now)
  if go then emitBuffer typ req ptr holder 0 0 { s with buf := { s.buf with lastEvent := kvPut typ s.now s.buf.lastEvent } }
  else s

end Sys2Proof.Machine
end

