-- ==== Sys2Proof/Machine/Crypto.lean ====
section
/-! DEFINITION. The checks and codes the spec computes over bytes: CRC-32 of the IEEE 802.3 FCS (R129), CRC-32C
(R554), CRC-8, SHA-256 and HMAC-SHA-256 (R148; FIPS 180-4 and RFC 2104, PRESUMED: assumption 5). -/

namespace Sys2Proof.Machine

open Sys2Proof

/-- One bit of a reflected CRC over polynomial `p`. -/
def crcBit (p c : Nat) : Nat := if c % 2 = 1 then (c / 2) ^^^ p else c / 2

/-- One byte of a reflected CRC over polynomial `p`. -/
def crcByte (p c : Nat) (b : Byte) : Nat :=
  let c := c ^^^ b.toNat
  crcBit p (crcBit p (crcBit p (crcBit p (crcBit p (crcBit p (crcBit p (crcBit p c)))))))

/-- The CRC-32 of the IEEE 802.3 FCS: reflected, initial value all ones, finally inverted (R129). -/
def crc32 (bs : List Byte) : Nat := (bs.foldl (crcByte 0xEDB88320) 0xFFFFFFFF) ^^^ 0xFFFFFFFF

/-- The CRC-32C of R554: reflected polynomial 0x82F63B78, a given initial value, no final inversion. -/
def crc32c (init : Nat) (bs : List Byte) : Nat := bs.foldl (crcByte 0x82F63B78) init

/-- The four bytes of a frame's FCS in the order they are sent (the CRC-32, low byte first). -/
def fcsBytes (bs : List Byte) : List Byte := toLE 4 (crc32 bs)

/-- The eight 32-bit words of a 256-bit number, the most significant first. -/
def eightWords (n : Nat) : List Nat := (List.range 8).map fun i => n / 2 ^ (224 - 32 * i) % 2 ^ 32

/-- The round constants of SHA-256 (FIPS 180-4), eight to a number. -/
def shaK : List Nat :=
  (0x428a2f9871374491b5c0fbcfe9b5dba53956c25b59f111f1923f82a4ab1c5ed5 ::
    0xd807aa9812835b01243185be550c7dc372be5d7480deb1fe9bdc06a7c19bf174 ::
    0xe49b69c1efbe47860fc19dc6240ca1cc2de92c6f4a7484aa5cb0a9dc76f988da ::
    0x983e5152a831c66db00327c8bf597fc7c6e00bf3d5a7914706ca635114292967 ::
    0x27b70a852e1b21384d2c6dfc53380d13650a7354766a0abb81c2c92e92722c85 ::
    0xa2bfe8a1a81a664bc24b8b70c76c51a3d192e819d6990624f40e3585106aa070 ::
    0x19a4c1161e376c082748774c34b0bcb5391c0cb34ed8aa4a5b9cca4f682e6ff3 ::
    0x748f82ee78a5636f84c878148cc7020890befffaa4506cebbef9a3f7c67178f2 :: []).flatMap eightWords

/-- The initial hash value of SHA-256 (FIPS 180-4). -/
def shaInit : List Nat := eightWords 0x6a09e667bb67ae853c6ef372a54ff53a510e527f9b05688c1f83d9ab5be0cd19

/-- A 32-bit right rotation. -/
def rotr (k x : Nat) : Nat := (x >>> k) ||| ((x <<< (32 - k)) % 2 ^ 32)

/-- One further word of the message schedule, from the last sixteen. -/
def shaSchedStep (w : List Nat) : Nat :=
  let w15 := nth 0 w 1
  let w2 := nth 0 w 14
  let s0 := rotr 7 w15 ^^^ rotr 18 w15 ^^^ (w15 >>> 3)
  let s1 := rotr 17 w2 ^^^ rotr 19 w2 ^^^ (w2 >>> 10)
  (nth 0 w 0 + s0 + nth 0 w 9 + s1) % 2 ^ 32

/-- One round of the compression function on the eight working words. -/
def shaRound (h : List Nat) (k w : Nat) : List Nat :=
  let a := nth 0 h 0
  let e := nth 0 h 4
  let s1 := rotr 6 e ^^^ rotr 11 e ^^^ rotr 25 e
  let ch := (e &&& nth 0 h 5) ^^^ ((e ^^^ 0xFFFFFFFF) &&& nth 0 h 6)
  let t1 := nth 0 h 7 + s1 + ch + k + w
  let s0 := rotr 2 a ^^^ rotr 13 a ^^^ rotr 22 a
  let mj := (a &&& nth 0 h 1) ^^^ (a &&& nth 0 h 2) ^^^ (nth 0 h 1 &&& nth 0 h 2)
  [(t1 + s0 + mj) % 2 ^ 32, a, nth 0 h 1, nth 0 h 2, (nth 0 h 3 + t1) % 2 ^ 32, e, nth 0 h 5, nth 0 h 6]

/-- The 64 rounds over one block: `w` holds the next sixteen schedule words. -/
def shaRounds : List Nat → List Nat → List Nat → List Nat
  | [], _, h => h
  | k :: ks, w, h => shaRounds ks (w.tail ++ [shaSchedStep w]) (shaRound h k (nth 0 w 0))

/-- The sixteen big-endian words of a block. -/
def shaWords (bs : List Byte) : List Nat := (List.range 16).map (fun i => beN bs (4 * i) 4)

/-- SHA-256 over padded bytes, block by block. -/
def shaBlocks : Nat → List Byte → List Nat → List Nat
  | 0, _, h => h
  | n + 1, bs, h =>
    let r := shaRounds shaK (shaWords bs) h
    shaBlocks n (bs.drop 64) ((List.range 8).map (fun i => (nth 0 h i + nth 0 r i) % 2 ^ 32))

/-- SHA-256 (FIPS 180-4). -/
def sha256 (bs : List Byte) : List Byte :=
  let z := (119 - bs.length % 64) % 64
  let p := bs ++ [0x80] ++ List.replicate z 0 ++ toBE 8 (bs.length * 8)
  (shaBlocks (p.length / 64) p shaInit).flatMap (toBE 4)

/-- HMAC-SHA-256 (RFC 2104) with a key of at most 64 bytes. -/
def hmac (key msg : List Byte) : List Byte :=
  let k := key ++ List.replicate (64 - key.length) 0
  sha256 (k.map (· ^^^ 0x5C) ++ sha256 (k.map (· ^^^ 0x36) ++ msg))

end Sys2Proof.Machine
end

