-- ==== Sys2Proof/Machine/RecorderOps.lean ====
section
/-! DEFINITION. The recorder's ring, segments, regions and triggers as operations that other families use (14_recorder,
R467 to R476). -/

namespace Sys2Proof.Machine

open Sys2Proof

/-- The recorder's state changed. -/
def modRec (f : Recorder → Recorder) (s : State) : State := { s with recd := f s.recd }

/-! ## The ring (R469) -/

/-- The logical channel of a slot, and whether the slot is still in the ring. -/
def slotChannel (s : State) (j : Nat) : Nat := nth 0 s.recd.channels (j % max 1 s.recd.channels.length)
def slotIn (s : State) (j : Nat) : Bool :=
  decide (j < s.recd.perChannel * s.recd.channels.length) && !s.svc.lostChannels.contains (slotChannel s j)

/-- REC_SEGMENTS: the slots now in the ring. -/
def recSlots (s : State) : Nat :=
  s.recd.perChannel * (s.recd.channels.filter fun c => !s.svc.lostChannels.contains c).length

/-- The HBM island of a slot's channel. -/
def slotIsland (s : State) (j : Nat) : Nat := 88 + physicalOf s (slotChannel s j) / 32

/-- The island of the open segment, or of the next slot where none is open. -/
def recIsland (s : State) : Nat :=
  match s.recd.current with
  | some g => slotIsland s g.slot
  | none => slotIsland s s.recd.nextSlot

/-- A segment lies in a region. -/
def inRegion (s : State) (seq : Nat) : Bool := s.recd.regions.any fun r => r.2.seqs.contains seq

/-- The segment that a slot holds lies in a region. -/
def slotHeld (s : State) (j : Nat) : Bool := s.recd.segments.any fun g => g.2.slot == j && inRegion s g.1

/-- The first slot from `j` on that is in the ring and in no region. -/
def nextSlotFrom (s : State) (total : Nat) : Nat → Nat → Option Nat
  | 0, _ => none
  | fuel + 1, j =>
    let k := j % max 1 total
    if slotIn s k && !slotHeld s k then some k else nextSlotFrom s total fuel (k + 1)

/-- The next slot opens (R469): the segment it held is gone; a running post-trigger part takes the new one (R473). -/
def recOpen (s : State) : State :=
  let r := s.recd
  let total := r.perChannel * r.channels.length
  if r.key = none then s
  else
    match nextSlotFrom s total total r.nextSlot with
    | none => s
    | some j =>
      let g : Segment := { seq := r.nextSeq, slot := j, keyId := s.mram.sealKeys, chainStart := r.chainStart, opened := s.now,
                           prevTag := if r.chainStart then List.replicate 32 0 else r.prevTag }
      let regions := match r.post with
        | some k => kvUpd k (fun x => if x.postLeft = 0 then x
            else { x with seqs := x.seqs ++ [r.nextSeq], postLeft := x.postLeft - 1 }) r.regions
        | none => r.regions
      { s with recd := { r with
          current := some g, nextSeq := (r.nextSeq + 1) % 2 ^ 32, nextSlot := j + 1, regions := regions,
          segments := r.segments.filter fun x => x.2.slot != j } }

/-! ## Segments (R470) -/

/-- The bytes of a segment's records. -/
def recordBytes (g : Segment) : List Byte := g.records.flatten

/-- A segment's bytes up to its records' end. -/
def segFilled (s : State) (g : Segment) : List Byte :=
  toLE 4 0x47455352 ++ toLE 4 (1 + b2n g.chainStart * 2 ^ 16) ++ toLE 4 g.seq ++ toLE 4 g.keyId ++ toLE 8 s.dev.uniqueId ++
    toLE 4 (tSec g.opened) ++ toLE 4 (tNs g.opened) ++ (g.prevTag ++ List.replicate 32 0).take 32 ++ recordBytes g

/-- The bytes that a segment's TAG covers: 0x00_0000 to 0x1F_FFDF. -/
def segCovered (s : State) (g : Segment) (t cause : Nat) : List Byte :=
  let b := segFilled s g
  b ++ List.replicate (0x1FFFC0 - b.length) 0 ++
    toLE 4 g.records.length ++ toLE 4 (b.length - 0x40) ++ toLE 4 g.firstRecord ++ toLE 4 (tSec t) ++ toLE 4 (tNs t) ++
    toLE 4 cause ++ List.replicate 8 0

/-- A segment as readout gives it: sealed whole, or open up to its fill point (R111). -/
def segBytes (s : State) (g : Segment) : List Byte :=
  match g.sealedAt with
  | some (t, cause, tag) => segCovered s g t cause ++ tag
  | none => segFilled s g

/-- The next record fits before the trailer. -/
def segFits (g : Segment) (n : Nat) : Bool := decide (0x40 + (recordBytes g).length + n ≤ 0x1FFFC0)

/-- Ending a running post-trigger part: its region is frozen. -/
def endPost (r : Recorder) : Recorder :=
  match r.post with
  | some k => { r with post := none, regions := kvUpd k (fun x => { x with st := 2, postLeft := 0 }) r.regions }
  | none => r

/-- The open segment is the last of a running post-trigger part. -/
def lastOfPost (r : Recorder) (seq : Nat) : Bool :=
  match r.post with
  | some k =>
    match kvGet k r.regions with
    | some x => x.postLeft == 0 && x.seqs.getLast? == some seq
    | none => false
  | none => false

/-- Sealing the open segment (R470, R471): the tag under the present key, the event where SEAL_EVT asks, the end of a
post-trigger part, and the next segment opens (not after a zeroisation). -/
def recSealOpen (cause : Nat) (s : State) : State :=
  match s.recd.current, s.recd.key with
  | some g, some key =>
    let last := lastOfPost s.recd g.seq
    let c := if last && (cause == 0 || cause == 1 || cause == 7) then 2 else cause
    let tag := hmac key (segCovered s g s.now c)
    let s1 := modRec (fun r => { r with
      current := none, prevTag := tag, chainStart := false,
      segments := kvPut g.seq { g with sealedAt := some (s.now, c, tag) } r.segments }) s
    let s2 := whenDo (last || c == 3 || c == 4) (modRec endPost) s1
    let s3 := whenDo (bit 1 (cu s R.recCfg)) (emitRecorder 3 (slotIsland s g.slot) g.seq 0) s2
    whenDo (c != 5) recOpen s3
  | _, _ => s

/-- A segment is open. -/
def recHasOpen (s : State) : Bool := s.recd.current.isSome

/-- Nothing waits to be written to HBM. -/
def recIdle (s : State) : Bool := s.recd.backlog.isEmpty

/-- A frozen region is held (R59). -/
def recHasFrozen (s : State) : Bool := s.recd.regions.any fun r => r.2.st == 2

/-! ## Keys (R154, R476) -/

/-- 32 bytes that nothing outside the device knows. -/
def secretBytes (s : State) : List Byte := (List.range 4).flatMap fun i => toLE 8 (Config.freeValue (s.free + i))

/-- A new sealing key is drawn at WAKE: its KEY_ID is the count of keys since manufacture, and a chain starts. -/
def recNewKey (s : State) : State :=
  { s with
    recd := { s.recd with key := some (secretBytes s), oldKey := none, chainStart := true },
    mram := { s.mram with sealKeys := (s.mram.sealKeys + 1) % 2 ^ 32 },
    free := s.free + 4 }

/-- RECORDER_KEY ROTATE (R139, R476): the open segment is sealed with cause 6 under the old key, and the chain goes on. -/
def recRotateKey (s : State) : State :=
  match s.recd.key with
  | none => s
  | some k =>
    let id := s.mram.sealKeys
    let s1 : State := { s with
      recd := { s.recd with key := some (secretBytes s), oldKey := some (id, k) },
      mram := { s.mram with sealKeys := (id + 1) % 2 ^ 32 },
      free := s.free + 4 }
    match s.recd.current with
    | none => s1
    | some g =>
      let last := lastOfPost s.recd g.seq
      let tag := hmac k (segCovered s g s.now 6)
      let s2 := modRec (fun r => { r with
        current := none, prevTag := tag, chainStart := false,
        segments := kvPut g.seq { g with sealedAt := some (s.now, 6, tag) } r.segments }) s1
      recOpen (whenDo (bit 1 (cu s R.recCfg)) (emitRecorder 3 (slotIsland s g.slot) g.seq 0) (whenDo last (modRec endPost) s2))

/-- Zeroisation: the keys are gone (R154). -/
def recDropKey (s : State) : State := modRec (fun r => { r with key := none, oldKey := none, current := none }) s

/-! ## Triggers (R472 to R474) -/

/-- SEQ of the open segment, or of the next one where none is open. -/
def recOpenSeq (s : State) : Nat :=
  match s.recd.current with
  | some g => g.seq
  | none => s.recd.nextSeq

/-- Triggers count as triggers during freeze now (R474). -/
def freezeBusy (s : State) : Bool := s.recd.post.isSome || decide (4 ≤ s.recd.regions.length)

/-- The parts of a region (R473). -/
def regionSegs (s : State) : Nat := cuF s R.recFreezeCfg 13 0
def preSegs (s : State) : Nat := max 1 (regionSegs s * cuF s R.recFreezeCfg 22 16 / 100)

/-- Frames are being forwarded or drained: records may be written (R467). -/
def recLive (s : State) : Bool := decide (s.md.mode = .run) || decide (s.md.mode = .drain)

/-- The sealed segments still in the ring, the latest first: SEQ counts modulo 2^32, so those at or above the next SEQ are older than
those below it. -/
def seqsByAge (s : State) : List Nat :=
  let all := s.recd.segments.map (·.1)
  (all.filter fun q => decide (q < s.recd.nextSeq)).reverse ++ (all.filter fun q => decide (s.recd.nextSeq ≤ q)).reverse

/-- The segments a region takes at its trigger: the open one, and the most recent earlier ones in no region, up to PRE in all. -/
def preList (s : State) : List Nat :=
  let open1 := match s.recd.current with
    | some g => [g.seq]
    | none => []
  ((open1 ++ (seqsByAge s).filter fun q => !inRegion s q).take (preSegs s)).reverse

/-- The open segment is lost: writing moves on, and a region counts it (R476). -/
def recLoseOpen (s : State) : State :=
  match s.recd.current with
  | none => s
  | some g =>
    recOpen (modRec (fun r => { r with
      current := none,
      regions := r.regions.map fun x => (x.1, if x.2.seqs.contains g.seq
        then { x.2 with seqs := x.2.seqs.filter (· != g.seq), lost := satTo 65535 (x.2.lost + 1) } else x.2) }) s)

/-- The open segment ends with a cause, or is `lost` where its island has failed; a running post-trigger part ends with it. -/
def sealOrLose (lost : Bool) (cause : Nat) (s : State) : State :=
  if lost then recLoseOpen (modRec endPost s) else recSealOpen cause s

/-- A trigger makes a region (R473); `lost` says that the open segment is lost with its island. -/
def makeRegion (lost : Bool) (code detail t : Nat) (s : State) : State :=
  let k := ((List.range 4).find? fun i => (kvGet i s.recd.regions).isNone).getD 0
  let post := if recLive s && code != 6 then regionSegs s - preSegs s else 0
  let x : Region := { st := if post = 0 then 2 else 1, trigger := code, detail := detail % 2 ^ 16, time := t,
                      seqs := preList s, postLeft := post }
  let s1 := emitRecorder 0 (recIsland s) (recOpenSeq s) code s
  let s2 := modRec (fun r => { r with regions := kvPut k x r.regions, post := if post = 0 then r.post else some k }) s1
  whenDo (post == 0) (sealOrLose lost (if code = 6 then 4 else 2)) s2

/-- The trigger makes no region: during a freeze (R474), after one of a lower code in its buffer-core cycle (R472), or triggers 1 to 5
while the recorder is away (R505). -/
def triggerShut (code : Nat) (s : State) : Bool := freezeBusy s || s.recd.taken || (code != 6 && unitAway s .recorder 0)

/-- What happens in one buffer-core cycle: `f` raises the trigger of the lowest code, and where that takes effect those that `g` raises
are triggers during freeze (R472). -/
def oneCycle (f g : State → State) (s : State) : State :=
  let a := f s
  if a.recd.regions = s.recd.regions then g a
  else modRec (fun r => { r with taken := false }) (g (modRec (fun r => { r with taken := true }) a))

/-- A trigger at its trigger time (R472 to R474). -/
def recTriggerBy (lost : Bool) (code detail t : Nat) (s : State) : State :=
  if triggerShut code s then
    let s1 := emitRecorder 2 (recIsland s) (recOpenSeq s) code (incRg R.recTrigDuringFreeze s)
    whenDo (code == 6) (sealOrLose lost 4) s1
  else makeRegion lost code detail t s
def recTrigger (code detail t : Nat) (s : State) : State := recTriggerBy false code detail t s

/-- The channels of an HBM island fail with no spare (R476): their segments are gone, a region counts those it loses, and their slots
leave the ring. The open segment there is lost before. -/
def recLoseIsland (island : Nat) (s : State) : State :=
  let onIt (g : Segment) : Bool := slotIsland s g.slot == island
  let gone := (s.recd.segments.filter fun g => onIt g.2).map (·.1)
  modRec (fun r => { r with
    segments := r.segments.filter fun g => !onIt g.2,
    regions := r.regions.map fun x =>
      (x.1, { x.2 with seqs := x.2.seqs.filter (fun q => !gone.contains q),
                       lost := satTo 65535 (x.2.lost + (x.2.seqs.filter fun q => gone.contains q).length) }) }) s

/-- A fatal fault is trigger 6 (R472, R476); where the open segment's HBM island has failed nothing is sealed and the segment is
lost. -/
def recFault (code island : Nat) (s : State) : State :=
  recLoseIsland island (recTriggerBy (recHasOpen s && recIsland s == island) 6 code s.now s)

/-- A port of REC_PORT_TRIG goes down (trigger 3). -/
def recPortDown (p : Nat) (s : State) : State :=
  whenDo (bit 1 (cu s R.recTrigEn) && bit (p % 32) (cu s (R.recPortTrig (p / 32)))) (recTrigger 3 p s.now) s

/-- A capture of a unit in CAP_MASK (trigger 2). -/
def recCapture (u t : Nat) (s : State) : State :=
  whenDo (bit 0 (cu s R.recTrigEn) && bit (16 + u) (cu s R.recTrigEn)) (recTrigger 2 u t) s

/-- A frame of an accounting set gets a fate (trigger 4): counted within the present window. -/
def recFate (set fate : Nat) (s : State) : State :=
  let cfg := cu s R.recFateTrig
  if bit 2 (cu s R.recTrigEn) && fate == fld 4 0 cfg && bit (5 + set) cfg then
    let w := msT (fld 31 16 cfg)
    let from1 := s.recd.windowFrom + (s.now - s.recd.windowFrom) / max 1 w * w
    let n := (if from1 = s.recd.windowFrom then s.recd.fateCount else 0) + 1
    let s1 := modRec (fun r => { r with fateCount := n, windowFrom := from1 }) s
    whenDo (n == cu s R.recFateThresh) (recTrigger 4 fate s.now) s1
  else s

/-! ## Records (R467, R468) -/

/-- The 64-byte header of a record; RECORD_SEQ is filled in when it is written. -/
def recHeader (w0 w1 t fracStream hash ruleMal gen info take : Nat) : List Byte :=
  toLE 4 w0 ++ toLE 4 w1 ++ toLE 4 (tNs t) ++ toLE 4 (tSec t) ++ toLE 4 fracStream ++ toLE 4 hash ++ toLE 4 ruleMal ++
    toLE 4 gen ++ toLE 4 0 ++ toLE 4 info ++ toLE 4 (tNs take) ++ toLE 4 (tSec take) ++ List.replicate 16 0

/-- The refusal causes of R466 that no room can lift: no key, no ring, disabled, out of service. -/
def standingCause (s : State) : Option Nat :=
  if s.recd.key.isNone then some 3
  else if recSlots s < 24 then some 4
  else if !bit 0 (cu s R.recCfg) then some 5
  else if unitAway s .recorder 0 then some 6
  else none

/-- A record waits in the backlog in cells of its own. -/
def recAppend (kind cells : Nat) (b : List Byte) (s : State) : State :=
  judgePressure (pmuEv 28 1 none none cells (modRec (fun r => { r with backlog := r.backlog ++ [⟨kind, b, cells⟩] }) s))

/-- A marker record waits in the backlog, in take order (R259, R467). It is not refused for causes 1 and 2: where the recorder is
answered EMPTY it waits without a cell (R397). The other causes refuse it as they refuse a copy, and count it (assumption 145). -/
def recMarker (g k edge : Nat) (s : State) : State :=
  let b := recHeader (64 + 2 ^ 16) 0 edge (tFrac edge + 0xFFFF * 2 ^ 16) g 0xFFFF s.gen.current k s.now
  match standingCause s with
  | some c => incRg (R.recRefused c) s
  | none => if freeBasin s ≤ 2048 then recAppend 1 0 b (countEmpty s) else recAppend 1 1 b s

/-- The oldest waiting record has no cell yet and is still answered EMPTY. -/
def recStarved (s : State) (w : RecWait) : Bool := w.cells == 0 && decide (freeBasin s ≤ 2048)

/-- One record goes into the open segment, which is sealed first where it is full. -/
def recPlace (bs : List Byte) (s : State) : State :=
  let full := match s.recd.current with
    | some g => !segFits g bs.length
    | none => false
  let s1 := whenDo full (recSealOpen 0) s
  match s1.recd.current with
  | none => s1
  | some g =>
    let b := patch bs 0x20 (toLE 4 s1.recd.recordSeq)
    incRg64 R.recRecords (modRec (fun r => { r with
      current := some { g with records := g.records ++ [b],
                               firstRecord := if g.records.isEmpty then r.recordSeq else g.firstRecord },
      recordSeq := (r.recordSeq + 1) % 2 ^ 32, lastTake := s1.now }) s1)

/-- The loss record that precedes the next record after refusals (R466). -/
def recLoss (s : State) : State :=
  if s.recd.refused = 0 then s
  else
    let t := s.recd.refusedAt
    let b := recHeader (64 + 2 * 2 ^ 16) 0 t (tFrac t + 0xFFFF * 2 ^ 16) s.recd.refused 0xFFFF s.gen.current 0 s.now
    recPlace b (modRec (fun r => { r with refused := 0 }) s)

/-- The oldest waiting record is written to HBM (R467); where no segment is open, for want of a key or of a ring, it is
dropped (assumption 41). -/
def recWriteOldest (s : State) : State :=
  match s.recd.backlog with
  | [] => s
  | w :: ws =>
    if recStarved s w then s
    else if recHasOpen s then
      let s1 := recPlace w.bytes (recLoss (judgePressure (modRec (fun r => { r with backlog := ws }) s)))
      whenDo (w.kind == 1) (incRg R.recMarkers) s1
    else judgePressure (modRec (fun r => { r with backlog := ws }) s)

end Sys2Proof.Machine
end

