-- ==== Sys2Proof/Machine/Rings.lean ====
section
/-! DEFINITION. Descriptor rings, doorbells, write-backs, event-ring writes and interrupts (03_host_rings, R74 to R82,
R102, R112). -/

namespace Sys2Proof.Machine

open Sys2Proof

/-! ## Rings and their registers -/

/-- The number of rings of a kind (R74). -/
def kindCount : RingKind → Nat
  | .rx => 64 | .tx => 64 | .cmd => 8 | .evt => 8 | .rdo => 1

/-- The code of a ring kind in ACCESS events (R109). -/
def kindCode : RingKind → Nat
  | .rx => 0 | .tx => 1 | .cmd => 2 | .evt => 3 | .rdo => 4

/-- The first doorbell page of a kind (R74). -/
def kindPage : RingKind → Nat
  | .rx => 0 | .tx => 64 | .cmd => 128 | .evt => 136 | .rdo => 144

/-- Where a ring's 64-byte register slot lies (R113). -/
def ringRegs (k : RingKind) (n : Nat) : Nat :=
  match k with
  | .rx => 0x20000 + 0x40 * n
  | .tx => 0x21000 + 0x40 * n
  | .cmd => 0x22000 + 0x40 * n
  | .evt => 0x22200 + 0x40 * n
  | .rdo => 0x22400

/-- The key of a ring. -/
def ringKey (k : RingKind) (n : Nat) : Nat := 64 * kindCode k + n

/-- A ring's state. -/
def ring (s : State) (k : RingKind) (n : Nat) : Ring := kvGetD {} (ringKey k n) s.host.rings

/-- Storing a ring's state. -/
def setRing (k : RingKind) (n : Nat) (r : Ring) (s : State) : State :=
  { s with host := { s.host with rings := kvPut (ringKey k n) r s.host.rings } }

/-- The ring takes new descriptors: enabled and not stopping, with the PCIe link up (R81, R96). -/
def ringLive (s : State) (k : RingKind) (n : Nat) : Bool :=
  (ring s k n).active && !(ring s k n).stopping && s.host.linkUp

/-- Slots handed over and not yet fetched. -/
def ringAvail (r : Ring) : Nat := (r.tail + r.size - r.fetch) % r.size

/-- The host address of a slot (R75). -/
def slotAddr (r : Ring) (i : Nat) : Nat := r.base + 32 * i

/-! ## Interrupts (R112) -/

/-- An MSI-X message on a vector: held pending where the vector is masked, else sent (counted by the model). An
entry's mask bit is 1 at reset, as PCIe has it (assumption 6). -/
def sendMsi (vec : Nat) (s : State) : State :=
  let ctl := (kvGetD 1 (vec * 16 + 12) s.host.msix).toNat
  if ctl % 2 = 1 ∨ !s.host.linkUp then
    { s with host := { s.host with msixPending := if s.host.msixPending.contains vec then s.host.msixPending else vec :: s.host.msixPending } }
  else pmuEv 29 4 (some (vec, true)) none 1 { s with host := { s.host with msiSent := kvMod 0 vec (· + 1) s.host.msiSent } }

/-- The ring sends its message: ARMED clears and W becomes 0. -/
def ringMsg (k : RingKind) (n : Nat) (s : State) : State :=
  let r := ring s k n
  sendMsi (rgF s (ringRegs k n + 8) 15 8) (setRing k n { r with armed := false, w := 0, holdFrom := none } s)

/-- CTRL.IRQ_EN: the ring sends messages (R112, R114). -/
def irqOn (s : State) (k : RingKind) (n : Nat) : Bool := rgF s (ringRegs k n + 8) 6 6 == 1

/-- W reaches MOD.COUNT (a COUNT of 0 acts as 1): the message goes out, where IRQ_EN is set. -/
def ringMsgIfDue (k : RingKind) (n : Nat) (s : State) : State :=
  if irqOn s k n && decide (max 1 (fld 7 0 (ring s k n).mod) ≤ (ring s k n).w) then ringMsg k n s else s

/-- A write-back: MOD takes effect (R80), and it is counted in W while the ring is armed and IRQ_EN is set. -/
def countWriteBack (k : RingKind) (n : Nat) (s : State) : State :=
  let r := { ring s k n with mod := rg s (ringRegs k n + 0x10) }
  if r.armed && irqOn s k n then
    ringMsgIfDue k n (setRing k n { r with w := r.w + 1, holdFrom := if r.w = 0 then some s.elapsed else r.holdFrom } s)
  else setRing k n r s

/-! ## Write-backs (R76, R77) -/

/-- One descriptor is written back at HEAD: 32 bytes, HEAD moves on, DONE_CNT counts, the interrupt count follows. -/
def writeBack (k : RingKind) (n : Nat) (slot : Nat) (bs : List Byte) (s : State) : State :=
  let r := ring s k n
  pmuEv 29 1 (some (n, true)) (some (kindCode k)) 1 <| countWriteBack k n
    (incRg64 (ringRegs k n + 0x28)
      (setRing k n { r with head := (slot + 1) % r.size } (dmaWrite (slotAddr r slot) bs s)))

/-- Writing back, in slot order, every descriptor at the front of the ring's work whose bytes are known. -/
def writeBacks (k : RingKind) (n : Nat) : List WriteBack → State → State
  | [], s => setRing k n { ring s k n with work := [] } s
  | w :: ws, s =>
    match w.bytes with
    | none => setRing k n { ring s k n with work := w :: ws } s
    | some bs => writeBacks k n ws (writeBack k n w.slot bs s)

/-- Writing back what can be written back now. -/
def drainWork (k : RingKind) (n : Nat) (s : State) : State := writeBacks k n (ring s k n).work s

/-- Fetching `m` descriptors: FETCH moves on and each waits for its write-back; `bs` gives the bytes where known. -/
def fetchSlots (k : RingKind) (n m : Nat) (bs : Option (List Byte)) (s : State) : State :=
  let r := ring s k n
  let ws := (List.range m).map fun i => (⟨(r.fetch + i) % r.size, bs⟩ : WriteBack)
  setRing k n { r with fetch := (r.fetch + m) % r.size, work := r.work ++ ws } s

/-- The outcome of a fetched slot becomes known, and write-backs follow in slot order. -/
def fillSlots (k : RingKind) (n : Nat) (slots : List Nat) (bs : List Byte) (s : State) : State :=
  let r := ring s k n
  let fill (w : WriteBack) : WriteBack := if slots.contains w.slot && w.bytes.isNone then { w with bytes := some bs } else w
  drainWork k n (setRing k n { r with work := r.work.map fill } s)

/-! ## Command descriptors (R97) -/

/-- The 32 bytes of a command's write-back (R97). -/
def cmdBytes (opcode target tag status : Nat) (result : List Byte) : List Byte :=
  toLE 4 (status + opcode * 2 ^ 16 + target * 2 ^ 24) ++ toLE 4 tag ++
    (result ++ List.replicate (20 - result.length) 0).take 20 ++ toLE 4 (2 ^ 31)

/-- A transmit descriptor's write-back (R93). -/
def txBytes (sec ns frac seq status fate : Nat) (valid late deferred : Bool) : List Byte :=
  toLE 4 sec ++ toLE 4 ns ++ toLE 4 (frac + seq * 2 ^ 16) ++
    toLE 4 (status + fate * 2 ^ 8 + b2n valid * 2 ^ 13 + b2n late * 2 ^ 14 + b2n deferred * 2 ^ 15) ++
    List.replicate 12 0 ++ toLE 4 (2 ^ 31)

/-- The write-back of a refused or flushed transmit descriptor, by status (R93). -/
def txRefusal (status : Nat) : List Byte := txBytes 0 0 0 0 status 0 false false false

/-! ## Command descriptors that name no command (R98, R99) -/

/-- The opcodes of the targets 0x01 to 0x10: 1 up to these numbers. -/
def targetOpcodes : List Nat := [6, 4, 5, 4, 2, 4, 5, 3, 7, 2, 1, 6, 5, 5, 0, 0]

/-- A target and an opcode name a command. -/
def knownCmd (target opcode : Nat) : Bool :=
  decide (1 ≤ target) && decide (1 ≤ opcode) && decide (opcode ≤ nth 0 targetOpcodes (target - 1))

/-- The status of a descriptor that names no command: BAD_TARGET or BAD_OPCODE (R98, R99). -/
def unknownStatus (target : Nat) : Nat := if 1 ≤ target ∧ target ≤ 0x10 then 3 else 2

/-- The descriptors at FETCH of a command ring that name no command are answered, at most `fuel` of them (R98, R99). -/
def answerUnknown (n : Nat) : Nat → State → State
  | 0, s => s
  | fuel + 1, s =>
    let r := ring s .cmd n
    let b := dmaRead (slotAddr r r.fetch) 32 s
    let w0 := ofLE (b.take 4)
    if hostOpen s && ringLive s .cmd n && decide (ringAvail r ≠ 0) && !knownCmd (fld 15 8 w0) (fld 7 0 w0) then
      answerUnknown n fuel
        (fillSlots .cmd n [r.fetch] (cmdBytes (fld 7 0 w0) (fld 15 8 w0) (ofLE ((b.drop 4).take 4)) (unknownStatus (fld 15 8 w0)) [])
          (pmuEv 29 2 none none 32 (fetchSlots .cmd n 1 none s)))
    else s

/-! ## The commands -/

/-- A TAIL write (R79). -/
def doorbellTail (k : RingKind) (n idx : Nat) (s : State) : State :=
  let r := ring s k n
  if !(r.active && !r.stopping) then incRg R.rngAccessErr s
  else if idx < r.size ∧ (r.tail + r.size - r.head) % r.size ≤ (idx + r.size - r.head) % r.size then
    whenDo (k == .cmd) (answerUnknown n r.size)
      (pmuEv 29 5 (some (n, true)) (some (kindCode k)) 1 (setRing k n { r with tail := idx } s))
  else
    emit 0xC 1 94 [0x1000 * (kindPage k + n) + 2 * 2 ^ 26 + 2 ^ 28 + kindCode k * 2 ^ 29, n * 2 ^ 16]
      (stickRg (ringRegs k n + 0x20) 1 s)

/-- DOORBELL_TAIL: the driver has written its descriptors and hands slots over (R75, R79). -/
def execDoorbellTail (k : RingKind) (n idx : Nat) (host : List (Nat × Byte)) (s : State) :
    Host.Outcome State Fault Refusal :=
  .next (whenDo (hostOpen s) (doorbellTail k n (idx % 2 ^ 16)) (hostWrote host s))

/-- A write of the ARM register (R78, R79, R112): of a disabled ring it is counted; else only ARM = 1 does anything. -/
def ringArm (k : RingKind) (n seen : Nat) (armBit : Bool) (s : State) : State :=
  let r := ring s k n
  if !(r.active && !r.stopping) then incRg R.rngAccessErr s
  else if !armBit then s
  else if seen = r.head then setRing k n { r with armed := true } s
  else
    ringMsgIfDue k n (setRing k n
      { r with armed := true, w := (r.head + r.size - seen % r.size) % r.size, holdFrom := some s.elapsed } s)

/-- ARM: a write of the ARM register. -/
def execArm (k : RingKind) (n seen : Nat) (armBit : Bool) (s : State) : Host.Outcome State Fault Refusal :=
  .next (whenDo (hostOpen s) (ringArm k n (seen % 2 ^ 16) armBit) s)

/-- The checks of an enable (R80, R115). -/
def ringCfgOk (k : RingKind) (base sizeLog2 cfg : Nat) : Bool :=
  base % 4096 == 0 && decide (6 ≤ sizeLog2) && decide (sizeLog2 ≤ 15) &&
    (match k with
     | .rx => decide (1 ≤ fld 6 0 cfg) && decide (fld 6 0 cfg ≤ 64)
     | .tx => decide (1 ≤ fld 6 0 cfg) && decide (fld 6 0 cfg ≤ 16)
     | _ => true)

/-- CTRL.ENABLE goes from 0 to 1 (R80): `v` is the word written. -/
def ringEnable (k : RingKind) (n v : Nat) (s : State) : State :=
  let off := ringRegs k n
  let s1 := setRg (off + 8) (putFld 6 2 (fld 6 2 v) (putFld 15 8 (fld 15 8 v) (rg s (off + 8)))) s
  let base := rg64 s off
  let cfg := rg s (off + 0xC)
  if ringCfgOk k base (fld 5 2 v) cfg then
    setRing k n { active := true, base := base, size := 2 ^ fld 5 2 v, cfg := cfg, armed := true, mod := rg s (off + 0x10) }
      (setRgF (off + 8) 0 0 1 s1)
  else stickRg (off + 0x20) 2 s1

/-- RING_ENABLE: a CTRL write with ENABLE = 1 on a ring that is neither enabled nor still stopping (R80); on a ring
that is running or stopping it only sets VECTOR and IRQ_EN. -/
def execRingEnable (k : RingKind) (n : Nat) (v : Word) (s : State) : Host.Outcome State Fault Refusal :=
  .next (whenDo (hostOpen s && decide (n < kindCount k))
    (fun s =>
      if (ring s k n).active then
        setRgF (ringRegs k n + 8) 15 8 (fld 15 8 v.toNat) (setRgF (ringRegs k n + 8) 6 6 (fld 6 6 v.toNat) s)
      else ringEnable k n v.toNat s) s)

/-- Stopping a ring (R81): descriptor fetch stops; `fetched` transmit descriptors had been fetched for frames not yet
admitted and are written back FLUSHED. -/
def ringStop (k : RingKind) (n fetched : Nat) (s : State) : State :=
  let r := ring s k n
  if !(r.active && !r.stopping) then setRgF (ringRegs k n + 8) 0 0 0 s
  else
    let s1 := if k = .tx then
      drainWork k n (fetchSlots k n (min fetched (ringAvail r)) (some (txRefusal 7)) s) else s
    setRgF (ringRegs k n + 8) 0 0 0 (setRing k n { ring s1 k n with stopping := true } s1)

/-- RING_DISABLE: CTRL.ENABLE = 0 is written (R81). -/
def execRingDisable (k : RingKind) (n fetched : Nat) (s : State) : Host.Outcome State Fault Refusal :=
  .next (whenDo (hostOpen s && decide (n < kindCount k)) (ringStop k n fetched) s)

/-- RING_STOPPED: the work in hand is done and ACTIVE clears (R81). -/
def execRingStopped (k : RingKind) (n : Nat) (s : State) : Host.Outcome State Fault Refusal :=
  let r := ring s k n
  .next (whenDo (r.active && r.stopping && r.work.isEmpty)
    (setRing k n { r with active := false, stopping := false }) s)

/-- A record routed to event ring n is lost (R82, R102): counted, its SEQ consumed, LOSS to come. -/
def loseEvent (n : Nat) (s : State) : State :=
  let e := eventRing s n
  stickRg (R.rngEvtStatus n) 3 (incRg64 R.rngEvtDropped
    { s with host := { s.host with events := kvPut n { e with seq := e.seq + 1, loss := true } s.host.events } })

/-- A ring stops because a DMA of it failed (R82): an uncorrectable error of PCIe (R121), DMA_ERR, and an ACCESS event of type 2, lost
where the failing ring is the one it would use. -/
def dmaStop (k : RingKind) (n fetched : Nat) (s : State) : State :=
  let s2 := stickRg (ringRegs k n + 0x20) 0 (ringStop k n fetched (incRg R.pciAerUncorr s))
  if k = .evt ∧ fld 7 7 (rg s (R.rngEvtRoute 0xC)) = 1 ∧ rgF s (R.rngEvtRoute 0xC) 2 0 = n then loseEvent n s2
  else emit 0xC 2 94 [kindCode k * 2 ^ 29, n * 2 ^ 16] s2

/-- The write-back of a readout descriptor (R111). -/
def readoutBytes (seq written status : Nat) (frozen : Bool) : List Byte :=
  toLE 4 seq ++ toLE 4 written ++ toLE 4 (status + b2n frozen * 256) ++ List.replicate 16 0 ++ toLE 4 (2 ^ 31)

/-- The segment lies in a frozen region. -/
def inFrozen (s : State) (seq : Nat) : Bool := s.recd.regions.any fun r => r.2.st == 2 && r.2.seqs.contains seq

/-- The write-back that carries a kind's DMA error status, from the descriptor's own words; none where the kind has no such status
(R82, R93, R99, R111). BYTES_WRITTEN of a readout is 0 (assumption 138). -/
def dmaErrorBytes (s : State) (k : RingKind) (d : List Byte) : Option (List Byte) :=
  let w (i : Nat) : Nat := ofLE ((d.drop (4 * i)).take 4)
  match k with
  | .tx => some (txRefusal 6)
  | .cmd => some (cmdBytes (fld 7 0 (w 0)) (fld 15 8 (w 0)) (w 1) 7 [])
  | .rdo => some (readoutBytes (w 2) 0 4 (inFrozen s (w 2)))
  | _ => none

/-- The descriptor at FETCH is written back with its DMA error status, after all before it. -/
def failFetch (k : RingKind) (n : Nat) (s : State) : State :=
  let r := ring s k n
  if ringAvail r = 0 then s
  else match dmaErrorBytes s k (dmaRead (slotAddr r r.fetch) 32 s) with
    | some bs => drainWork k n (fetchSlots k n 1 (some bs) s)
    | none => s

/-- The `i`-th readout under way is written back with its DMA error status, and is given up. -/
def failReadout (i : Nat) (s : State) : State :=
  match s.host.readouts[i]? with
  | none => failFetch .rdo 0 s
  | some r =>
    fillSlots .rdo 0 [r.slot] ((dmaErrorBytes s .rdo r.desc).getD [])
      { s with host := { s.host with readouts := s.host.readouts.eraseIdx i } }

/-- The descriptors of transmit frames not yet admitted are written back: the `i`-th with its DMA error status, the others that had
been fetched FLUSHED (R81, R82). -/
def failTransmit (n fetched i : Nat) (s : State) : State :=
  let m := min (max fetched (i + 1)) (ringAvail (ring s .tx n))
  let before := drainWork .tx n (fetchSlots .tx n (min i m) (some (txRefusal 7)) s)
  let at_ := whenDo (decide (i < m)) (failFetch .tx n) before
  drainWork .tx n (fetchSlots .tx n (m - (i + 1)) (some (txRefusal 7)) at_)

/-- DMA_ERROR: a DMA of a ring fails (R82). `bad` is the descriptor concerned, where one can be written back: the `i`-th from FETCH
of a transmit ring, the one at FETCH of a command ring, the `i`-th readout under way, or beyond them the one at FETCH. Work in
hand, an admitted frame or a started command, is finished (R81). `fetched` transmit descriptors had been fetched for frames not
yet admitted. -/
def execDmaError (k : RingKind) (n fetched : Nat) (bad : Option Nat) (s : State) : Host.Outcome State Fault Refusal :=
  .next (whenDo (ring s k n).active
    (fun s =>
      match k, bad with
      | .tx, some i => dmaStop k n 0 (failTransmit n fetched i s)
      | .cmd, some _ => dmaStop k n 0 (failFetch k n s)
      | .rdo, some i => dmaStop k n 0 (failReadout i s)
      | _, _ => dmaStop k n fetched s) s)

/-- EVENT_RECORD_WRITE: the record at the front of a backlog is written to its ring (R101, R102). -/
def execEventRecordWrite (n : Nat) (s : State) : Host.Outcome State Fault Refusal :=
  let r := ring s .evt n
  let e := eventRing s n
  .next (match e.backlog with
    | [] => s
    | b :: bs =>
      if ringLive s .evt n && decide (r.head ≠ r.tail) then
        let b1 := if e.loss then b.take 28 ++ toLE 4 (ofLE (b.drop 28) ||| 2 ^ 30) else b
        let s1 := { s with host := { s.host with events := kvPut n { e with backlog := bs, loss := false } s.host.events } }
        let s2 := writeBack .evt n r.head b1 s1
        setRing .evt n { ring s2 .evt n with fetch := (ring s2 .evt n).head } s2
      else s)

/-- IRQ_HOLDOFF_EXPIRY: MOD.HOLDOFF µs have passed since the first counted write-back (R112). -/
def execIrqHoldoffExpiry (k : RingKind) (n : Nat) (s : State) : Host.Outcome State Fault Refusal :=
  let r := ring s k n
  .next (match r.holdFrom with
    | none => s
    | some t =>
      whenDo (r.armed && decide (0 < fld 19 8 r.mod) && irqOn s k n)
        (fun s => ringMsg k n (reachElapsed (t + usT (fld 19 8 r.mod)) s)) s)

/-! ## PCIe link and function-level resets (R72) -/

/-- The keys of the RNG block (R118). -/
def isRngKey (k : Nat) : Bool := decide (0x20000 ≤ k % viewSize) && decide (k % viewSize < 0x30000)

/-- An FLR of PF0, a hot reset or loss of the link: every ring stops without write-back, the RNG registers and the
MSI-X table return to their reset values; the event backlog is kept (R72). -/
def ringsReset (s : State) : State :=
  { s with
    regs := s.regs.filter (fun c => !isRngKey c.1),
    host := { s.host with rings := [], msix := [], msixPending := [], readouts := [], epoch := s.host.epoch + 1 } }

/-- The link goes down: PCI_LINK reads 0 (R121). -/
def linkDown (s : State) : State :=
  { s with host := { s.host with linkUp := false, linkWidth := 0, linkSpeed := 0 } }

/-- PCIE_PERST_N_LOW: the link is held down and R72 applies (R544). -/
def execPciePerstNLow (s : State) : Host.Outcome State Fault Refusal :=
  .next (linkDown (ringsReset { s with pins := { s.pins with perstN := false } }))

/-- PCIE_LINK_UP: PERST_N is high and the link finishes training at a width and speed (R544), which ends step 3 of WAKE
(R46); the host interface is held in RESET (R44). -/
def execPcieLinkUp (width speed : Nat) (s : State) : Host.Outcome State Fault Refusal :=
  .next (if s.md.mode = .reset then s else
    { s with pins := { s.pins with perstN := true },
             md := { s.md with wakeStep := if s.md.mode = .wake then max s.md.wakeStep 4 else s.md.wakeStep },
             host := { s.host with linkUp := true, linkWidth := width % 64, linkSpeed := speed % 16 } })

/-- PCIE_LINK_LOSS: a hot reset or loss of the link (R72). -/
def execPcieLinkLoss (s : State) : Host.Outcome State Fault Refusal := .next (linkDown (ringsReset s))

/-- Counting an FLR in PCI_FLR_COUNT (R121). -/
def countFlr (pf1 : Bool) (s : State) : State :=
  let v := rg s R.pciFlrCount
  if pf1 then setRg R.pciFlrCount (putFld 31 16 (fld 31 16 v + 1) v) s
  else setRg R.pciFlrCount (putFld 15 0 (fld 15 0 v + 1) v) s

/-- FLR_PF0 (R72). -/
def execFlrPf0 (s : State) : Host.Outcome State Fault Refusal := .next (ringsReset (countFlr false s))

end Sys2Proof.Machine
end

