-- ==== Sys2Proof/Machine/FrameOps.lean ====
section
/-! DEFINITION. Fates, holders and the end of copies (R32 to R35, R402), the fence (R61), snapshots (R423). -/

namespace Sys2Proof.Machine

open Sys2Proof

/-- A queue's counter k (R459). -/
def schCount (p q k n : Nat) (s : State) : State := addRg64 (R.schSent p q + 8 * k) n s

/-- The frame's metadata as descriptors and records give it: 0 where no rule and no program set any (R84). -/
def metaOf (x : Frame) : Nat := if x.metaSet then x.meta16 else 0

/-! ## Fates -/

/-- A late-reporting frame's completion (R92, R93): written back where its ring still stands. -/
def complete (x : Frame) (fate : Nat) (s : State) : State :=
  match x.txRing with
  | none => s
  | some (n, slots, epoch) =>
    if epoch = s.host.epoch then
      let t := (x.txStamp.map (·.1)).getD 0
      let seq := (x.txStamp.map (·.2)).getD 0
      fillSlots .tx n slots (txBytes (tSec t) (tNs t) (tFrac t) seq (b2n (fate != 1)) fate
        (x.txStamp.isSome && x.txStampOk) x.wasLate x.wasDeferred) s
    else s

/-- A frame gets its fate (R32, R34): counted in its ingress port's set; discards that breach the guarantee show there
(R41); its completion follows. A frame that has one keeps it. -/
def settle (f fate : Nat) (s : State) : State :=
  match kvGet f s.buf.frames with
  | none => s
  | some x =>
    if x.fate ≠ 0 then s
    else
      let k := acctOf x.inPort
      let s1 := setFrame f { x with fate := fate } { s with acct := modNth (AcctSet.settle x.par fate) s.acct k }
      let s2 := recFate k fate s1
      let s3 := whenDo (fate == 0xE) (breach 2) (whenDo (fate == 0xF) (breach 4) s2)
      complete x fate s3

/-- A frame's chain returns to the free chain and its charge is released (R402). -/
def dropFrame (f : Nat) (s : State) : State :=
  match kvGet f s.buf.frames with
  | none => s
  | some x =>
    let s1 := { s with buf := { s.buf with
      frames := kvDel f s.buf.frames,
      spilling := s.buf.spilling.filter (fun r => r.1 != f),
      refilling := s.buf.refilling.filter (fun r => r.1 != f) } }
    let s2 := pmuEv 28 2 none none 1 (returnCells x.chain s1)
    if x.charge = 0 then judgePressure s2 else releasePair (8 * x.inPort + x.prio) x.charge s2

/-- A holder's bit is cleared; with the last one the frame's cells return (R402). -/
def clearHolder (f p : Nat) (s : State) : State :=
  match kvGet f s.buf.frames with
  | none => s
  | some x =>
    let h := x.holders.filter (· != p)
    if h.isEmpty then dropFrame f s else setFrame f { x with holders := h, touched := true } s

/-! ## Checked frees (R400 to R402) -/

/-- The frame whose chain begins at a pointer; a cell in use. -/
def frameAt (s : State) (ptr : Nat) : Option (Nat × Frame) := s.buf.frames.find? fun c => c.2.chain.head? == some ptr
def cellUsed (s : State) (ptr : Nat) : Bool := (cellsInUse s).contains ptr

/-- The freeing unit of a port in a holder set (R400). -/
def freeingUnit (p : Nat) : Nat := if p < 256 then 8 + p / 32 else if p = 257 then 0x51 else 8

/-- The freeing unit of a holder presents the free (R400); 0x1FF is the no-holder form. -/
def mayFree (x : Frame) (holder req : Nat) : Bool :=
  let sl := if x.requester < 8 then x.requester else portSlice x.inPort
  if holder ≤ 258 then req == freeingUnit holder
  else if holder = 0x1FF then req == sl || (decide (0x10 ≤ req) && decide (req < 0x50) && (req - 0x10) / 8 == sl)
  else false

/-- A free is rejected: counted, with its BUFFER event. -/
def rejectFree (typ counter ptr holder req : Nat) (s : State) : State := limitedEvent typ req ptr holder (incRg counter s)

/-- A chain is returned while copies of its frame may still end: they will present this pointer. -/
def noteGone (f : Nat) (s : State) : State :=
  match (frame s f).chain.head? with
  | some c => { s with buf := { s.buf with gone := kvPut f c s.buf.gone } }
  | none => s

/-- A unit presents a pointer, a holder and its code; the first check that fails rejects the free. -/
def presentFree (ptr holder req : Nat) (s : State) : State :=
  if !ptrOk s ptr then rejectFree 2 R.bpmBadPtr ptr holder req s
  else if !cellUsed s ptr then rejectFree 0 R.bpmDoubleFree ptr holder req s
  else match frameAt s ptr with
    | none => rejectFree 2 R.bpmBadPtr ptr holder req s
    | some (f, x) =>
      if !mayFree x holder req then rejectFree 1 R.bpmNonholderFree ptr holder req s
      else if holder = 0x1FF then
        if x.holders.isEmpty then dropFrame f s else rejectFree 0 R.bpmDoubleFree ptr holder req s
      else if x.holders.contains holder then clearHolder f holder s
      else rejectFree 0 R.bpmDoubleFree ptr holder req s

/-- The free at a copy's end: its port's freeing unit presents the frame's first cell. A FREE_REQUEST may have taken the holder, or the
whole chain, before. -/
def freeHolder (f p : Nat) (s : State) : State :=
  match kvGet f s.buf.frames with
  | some x =>
    if x.holders.contains p then clearHolder f p s
    else rejectFree 0 R.bpmDoubleFree ((x.chain.head?).getD 0) p (freeingUnit p) s
  | none => match kvGet f s.buf.gone with
    | some ptr => presentFree ptr p (freeingUnit p) s
    | none => s

/-- A frame whose holder set is empty, or was never written, gets its fate and is freed in the no-holder form (R400). -/
def discardFrame (f fate : Nat) (s : State) : State := dropFrame f (settle f fate s)

/-- How a copy ends. -/
inductive CopyEnd | sent | recirculated | host | gone (reason : Nat)
deriving DecidableEq, Repr

/-- The fate of a frame whose forwarding copies are finished (R33, R86). -/
def fateOf (x : Frame) : Nat :=
  if bit 0 x.outcomes then 1 else if bit 1 x.outcomes then 3
  else if bit 2 x.outcomes then (if x.error then 4 else 2) else x.lowReason

/-- A frame's note of how one of its forwarding copies ended. -/
def noteEnd (how : CopyEnd) (x : Frame) : Frame :=
  let y := { x with fwdLeft := x.fwdLeft - 1 }
  match how with
  | .sent => { y with outcomes := y.outcomes ||| 1 }
  | .recirculated => { y with outcomes := y.outcomes ||| 2 }
  | .host => { y with outcomes := y.outcomes ||| 4 }
  | .gone r => { y with lowReason := if y.lowReason = 0 ∨ r < y.lowReason then r else y.lowReason }

/-- A copy is finished (R20, R33, R402). A Pdelay_Resp of the device has no frame and no fate (R255). -/
def finishCopy (c : Copy) (how : CopyEnd) (s : State) : State :=
  match kvGet c.frame s.buf.frames with
  | none => freeHolder c.frame c.port s
  | some x =>
    let y := if c.fwd then noteEnd how x else x
    let z := { y with paths := y.paths.filter fun q => !(q.1 == 0 && q.2.2.2 == c.port) && !(q.1 == 1 && y.fwdLeft == 0), touched := true }
    let s1 := setFrame c.frame z s
    let s2 := if c.fwd && z.fwdLeft == 0 then settle c.frame (fateOf z) s1 else s1
    freeHolder c.frame c.port s2

/-! ## The fence (R61) -/

/-- A queue's deficit falls to 0 when it becomes empty (R439). -/
def Queue.tidy (x : Queue) : Queue := if x.copies.isEmpty then { x with deficit := 0 } else x

/-- The copies being sent on P000 to P255. -/
def sendingNow (s : State) : List Copy :=
  (s.eg.ports.filter fun c => decide (c.1 < 256)).flatMap fun c => c.2.sending.toList ++ c.2.parked.toList

/-- Queued copies, and copies on their way into P256, P257 and P258, count in OTHER of their queues. -/
def countOther (s : State) : State :=
  let queued := s.eg.queues.map fun c => (c.1, (c.2.copies.filter fun x => x.device.isNone).length)
  let s1 := forAll (fun c s => schCount (c.1 / 8) (c.1 % 8) 9 c.2 s) queued s
  let inside := (s.eg.ports.filter fun c => decide (256 ≤ c.1)).filterMap fun c => c.2.sending
  forAll (fun c s => schCount c.port c.queue 9 1 s) inside s1

/-- What the fence leaves of one frame: a frame with a copy being sent on a port goes on with that copy alone, every other
frame has fate FATE_FENCED, one whose only copies being sent are mirror copies among them (assumption 134). -/
def fenceFrame (sending : List Copy) (f : Nat) (s : State) : State :=
  let mine := sending.filter fun c => c.frame == f
  let fwd := (mine.filter fun c => c.fwd).length
  let s1 := modFrame f (fun x => { x with holders := mine.map (·.port), fwdLeft := fwd, touched := true, copies := [] }) s
  let s2 := if fwd = 0 then settle f 0x15 s1 else s1
  if mine.isEmpty then dropFrame f s2 else s2

/-- Forwarding is fenced: the frames inside take their fates (R61). -/
def fenceFrames (s : State) : State :=
  let sending := sendingNow s
  let s1 := countOther s
  let s2 := { s1 with
    eg := { s1.eg with
      queues := s1.eg.queues.map (fun c => (c.1, ({ c.2 with copies := [] }).tidy)),
      ports := s1.eg.ports.map (fun c => (c.1, if 256 ≤ c.1 then { c.2 with sending := none } else c.2)) },
    buf := { s1.buf with plan := [], arrivals := [], holding := [] },
    eng := { s1.eng with engines := s1.eng.engines.map fun e => (e.1, { e.2 with input := [], order := [], contexts := [] }) } }
  forAll (fenceFrame sending) (s2.buf.frames.map (·.1)) s2

/-- Frames whose fate was FATE_FENCED, over all nine sets. -/
def State.fencedCount (s : State) : Nat := (s.acct.map fun a => kvGetD 0 0x15 a.fates).sum

/-! ## Snapshots (R423) -/

/-- The nine sets are copied, with their master time. -/
def takeSnapshot (s : State) : State :=
  { s with buf := { s.buf with snaps := s.acct, snapAt := s.now, snapCount := (s.buf.snapCount + 1) % 2 ^ 32 } }

/-- The sums of R35 hold in the latest snapshot. -/
def snapshotOk (s : State) : Bool := s.buf.snaps.all AcctSet.ok

end Sys2Proof.Machine
end

