-- ==== Sys2Proof/Machine/QueueOps.lean ====
section
/-! DEFINITION. Egress queues as lists of copies: their cells, entering and leaving, removal, flushing, and cutting what a
port sends (R200, R222, R432, R435, R459). -/

namespace Sys2Proof.Machine

open Sys2Proof

/-- A queue and a port's scheduler. -/
def queue (s : State) (p q : Nat) : Queue := kvGetD {} (8 * p + q) s.eg.queues
def setQueue (p q : Nat) (x : Queue) (s : State) : State := { s with eg := { s.eg with queues := kvPut (8 * p + q) x s.eg.queues } }
def sched (s : State) (p : Nat) : PortSched := kvGetD {} p s.eg.ports
def setSched (p : Nat) (x : PortSched) (s : State) : State := { s with eg := { s.eg with ports := kvPut p x s.eg.ports } }

/-- The frame size of a copy (R435). -/
def copyLen (s : State) (c : Copy) : Nat :=
  match c.device with
  | some d => d.1.length
  | none => (frame s c.frame).bytes.length

/-- The counted length C of a copy (R435). -/
def counted (s : State) (c : Copy) : Nat := ((copyLen s c : Int) + sgn 8 (cuF s (R.queCfg c.port) 7 0)).toNat

/-- The last port that exists for copies: P256 to P258 have no MAC, and P259 to P271 do not exist. -/
def portExists (s : State) (p : Nat) : Bool := portPresent s p || p == 256 || p == 257 || p == 258


/-- Removing a copy from its queue, order kept (R432). -/
def removeCopy (c : Copy) (s : State) : State :=
  let x := queue s c.port c.queue
  setQueue c.port c.queue ({ x with copies := x.copies.filter (· != c) }).tidy s

/-- The queue counter of a removal reason (R459). -/
def reasonCounter (r : Nat) : Nat :=
  match r with
  | 0x11 => 4 | 0x0F => 5 | 0x10 => 6 | 0x12 => 7 | 0x13 => 8 | _ => 9

/-- A copy is discarded with a reason, counted in its queue; a late one also by the counter units. -/
def discardCopy (c : Copy) (reason : Nat) (s : State) : State :=
  if c.device.isSome then removeCopy c s
  else
    finishCopy c (.gone reason)
      (whenDo (reason == 0x11) (pmuOut c.port c.queue 4 1)
        (schCount c.port c.queue (reasonCounter reason) 1 (removeCopy c s)))

/-- Flushing every queued copy of a port; copies are discarded at enqueue from now until it comes up (R222). -/
def flushPort (p reason : Nat) (s : State) : State :=
  let all := (List.range 8).flatMap fun q => (queue s p q).copies
  forAll (fun c s => discardCopy c reason s) all (setSched p { sched s p with shut := true } s)

/-- The four bytes of an inverted FCS (R61, R200). -/
def badFcs (bs : List Byte) : List Byte := (fcsBytes bs).map fun b => ~~~b

/-- Octets before the destination address from a copy's start: the SFD, or SOF and the header symbol (R174). -/
def leadOctets (s : State) (p : Nat) : Nat := if portTsuip s p then 2 else 1

/-- The time of `n` octets on a port's medium. -/
def octetTime (s : State) (p n : Nat) : Nat := bitTime s p (8 * n)

/-- The octets that a frame or fragment of `n` bytes takes from its start to its last bit: SFD before it, or SOF, the header symbol
and EOF in whole columns (R174, R207). -/
def frameOctets (s : State) (p n : Nat) : Nat :=
  let w := max 1 (txLanes s p).length
  if portTsuip s p then w * ceilDiv (n + 3) w else n + 1

/-- The octets from there to the earliest next start: the minimum gap and the preamble, or one column (R174, R207). -/
def gapOctets (s : State) (p : Nat) : Nat := if portTsuip s p then max 1 (txLanes s p).length else 19

/-- The medium of a port is free again after the gap. -/
def mediumTaken (p n : Nat) (s : State) : State :=
  modPort p (fun x => { x with busyTill := s.now + octetTime s p n }) s

/-- Bytes of a frame, from its destination address, that have left at `t`. -/
def bytesOut (s : State) (p start len t : Nat) : Nat := min len ((t - start) / max 1 (bitTime s p 8) - leadOctets s p)

/-- A copy that counts as sent was deferred or late (R459, R487). -/
def countTimed (p : Nat) (c : Copy) (s : State) : State :=
  whenDo c.late (fun s => pmuOut p c.queue 4 1 (schCount p c.queue 3 1 s))
    (whenDo c.deferred (fun s => pmuOut p c.queue 3 1 (schCount p c.queue 2 1 s)) s)

/-- A copy stamped at `t` has left, whole or cut: SENT at its whole size (R459, R489). -/
def endSend (p : Nat) (c : Copy) (t : Nat) (s : State) : State :=
  let n := copyLen s c
  let s1 := pmuWindow (8 + portSlice p) p t n (counted s c) (pmuOut p c.queue 2 n (pmuOut p c.queue 1 1 s))
  countTimed p c (schCount p c.queue 1 n (schCount p c.queue 0 1 s1))

/-- What a port is sending, or holds preempted, is cut: with an inverted FCS (R200), or by a lane failure with EEF (R176, R192).
`held` says that the frame stands preempted, with nothing of it on the medium beyond its fragments. -/
def cutOne (p : Nat) (eef held : Bool) (x : Sending) (s : State) : State :=
  let n := if held then min x.bytes.length x.fragments
    else min x.bytes.length (x.fragments + bytesOut s p x.start x.bytes.length s.now)
  let sent := x.bytes.take n
  let out := if eef then sent else sent ++ badFcs sent
  whenDo (!held && x.fragments != 0) (countMac p 36 1) (countMac p 33 1 (countMac p 26 out.length (sentOn p x.queue out eef s)))

/-- One copy that a port was sending, or held preempted, is cut and counts as transmitted (R192, R200). -/
def cutCopy (p : Nat) (eef held : Bool) (x : Option Sending) (c : Option Copy) (s : State) : State :=
  match x, c with
  | some y, some c =>
    let s1 := cutOne p eef held y s
    if c.device.isSome then pmuPort1 p 5 1 s1 else finishCopy c .sent (endSend p c y.stamp s1)
  | _, _ => s

/-- The copies being sent and preempted at a port that goes down or retrains are cut. -/
def cutTransmit (p : Nat) (eef : Bool) (s : State) : State :=
  let x := port s p
  let y := sched s p
  let s1 := modPort p (fun z => { z with sending := none, preempted := none })
    (if y.sending.isNone && y.parked.isNone then s else setSched p { y with sending := none, parked := none } s)
  cutCopy p eef true x.preempted y.parked (cutCopy p eef false x.sending y.sending s1)

end Sys2Proof.Machine
end

