-- ==== Sys2Proof/Machine/PortOps.lean ====
section
/-! DEFINITION. When a link is good and a port goes up or down, what becomes of its queues, and the pause frames of DRAIN
(R55, R198 to R200, R215, R220 to R223). -/

namespace Sys2Proof.Machine

open Sys2Proof

/-- The link of a port is good (R198). -/
def linkGood (s : State) (p : Nat) : Bool :=
  let x := port s p
  let q := p / 4
  let lanes := (portLanes s p).map fun i => lane s (rxLane s q i)
  let good := lanes.all (fun l => l.good) && (portLanes s p).all (laneServes s q)
  let ber := lanes.all (fun l => !l.hiBer)
  match portMode s p with
  | 1 =>
    let cfg := cu s (R.serLaneCfg q (p % 4))
    good && (if bit 11 cfg then x.anDone else !bit 10 cfg || x.anDone)
  | 2 => good
  | 3 => good && x.aligned && !x.faultSig
  | 4 | 5 | 6 => x.ts.st == 4 || x.ts.st == 5
  | 8 => good && ber && !x.faultSig
  | 9 => good && ber && !x.faultSig && (!bit 5 (cu s (R.serCfg q)) || x.aligned)
  | 10 | 11 => good && ber && x.aligned && !x.faultSig
  | _ => false

/-- Links may come up: in STAGE, RUN and DRAIN (R44). -/
def linksAllowed (s : State) : Bool :=
  match s.md.mode with
  | .stage | .run | .drain => true
  | _ => false

/-- A port that was up or down for these reasons can be up (R161, R197, R199). -/
def portWanted (s : State) (p : Nat) : Bool :=
  portPresent s p && (quad s (p / 4)).refOk && bit 0 (cu s (R.macCfg p)) && linksAllowed s && linkGood s p

/-- Preemption may run on a port of this mode (R216). -/
def modePreempts (mode : Nat) : Bool := mode == 1 || mode == 2 || mode == 3 || mode == 8 || mode == 9

/-- Verification starts, where VERIFY_EN is set on a port that may preempt (R216, R217). -/
def startVerify (p : Nat) (s : State) : State :=
  modPort p (fun x => if bit 1 (cu s (R.macPreemptCfg p)) && modePreempts (portMode s p)
                      then { x with verify := 1, tries := 0, verifyAt := some s.now }
                      else { x with verify := 0, tries := 0, verifyAt := none }) s

/-- Preemption is active on a port (R217). -/
def preemptActive (s : State) (p : Nat) : Bool :=
  let cfg := cu s (R.macPreemptCfg p)
  bit 0 cfg && (port s p).up && ((port s p).verify == 3 || !bit 1 cfg)

/-- XOFF is sent at once for the lossless priorities whose pair is in XOFF (R215). -/
def resendXoff (p : Nat) (s : State) : State :=
  forAll (fun prio s => whenDo (isLossless s p prio && pairInXoff s p prio) (watermark p prio true false) s)
    (List.range 8) s

/-- Pause toward the partner of one port that is up, in the form it runs: XOFF or XON on its priorities, or on the whole port
(R55). -/
def portPauseAll (on : Bool) (p : Nat) (s : State) : State :=
  let cfg := cu s (R.macPauseCfg p)
  if (port s p).up && !portTsuip s p then
    match fld 1 0 cfg with
    | 1 => pauseDue p 0xFF on s
    | 2 => pauseDue p (fld 15 8 cfg) on s
    | _ => s
  else s

/-- A port goes up (R199, R215, R221). In DRAIN it sends XOFF as the other ports did (R55). -/
def portUp (p : Nat) (s : State) : State :=
  let held := (port s p).holding
  let s1 := noteHops s (setSched p { sched s p with shut := false }
    (modPort p (fun x => { x with up := true, holding := false, attempts := 0, downAt := none }) s))
  let s2 := stickRg (R.macEvt p) 0 (emitLink 0 p 0 (port s1 p).ts.width s1)
  let s3 := startVerify p (whenDo held (stickRg (R.macEvt p) 3) s2)
  if s3.md.draining then portPauseAll true p s3 else resendXoff p s3

/-- The fault signalling of Clause 46 or 81 that a port's transmitter sends: a XAUI or 64b/66b port that is down (R199). -/
def sendsFault (s : State) (p : Nat) : Bool :=
  portPresent s p && !(port s p).up && (quad s (p / 4)).refOk && (portMode s p == 3 || decide (8 ≤ portMode s p))

/-- Why a port goes down: its link or REF_OK; or ADMIN_UP = 0, or the port no longer exists (R222). -/
inductive DownCause | link | admin
deriving DecidableEq, Repr

/-- The queues of a port that is down are flushed, held or not, without setting HOLD_EXPIRED (R222). -/
def flushDown (p : Nat) (s : State) : State :=
  flushPort p 0x12 (if (port s p).holding then modPort p (fun x => { x with holding := false }) s else s)

/-- What becomes of the queues of a port that went down (R220, R222). -/
def downQueues (p : Nat) (c : DownCause) (s : State) : State :=
  match c with
  | .admin => flushPort p 0x12 s
  | .link =>
    if cuF s (R.macLinkCfg p) 10 0 = 0 then stickRg (R.macEvt p) 2 (flushPort p 0x12 s)
    else modPort p (fun x => { x with holding := true, holdFrom := s.now }) s

/-- What a port's down change brings (R199, R200, R215): the copy being sent cut (a lane failure of a Tsuip link has cut it before, with
EEF: R176), every pause hold and XOFF forgotten, the LINK event, the sticky bit and the count, then its queues. -/
def portFalls (p : Nat) (c : DownCause) (s : State) : State :=
  let s1 := cutTransmit p false s
  let s2 := modPort p (fun x => { x with
    up := false, downAt := some (s.now, decide (c = .admin)), pausedTill := [], xoffOut := 0, xoffAt := [],
    dueXoff := 0, dueXon := 0, verify := 0, verifyAt := none, preempted := none, holding := false }) s1
  let s3 := incRg (R.macLinkDowns p) (stickRg (R.macEvt p) 1 (emitLink 1 p 0 0 s2))
  downQueues p c (noteHops s s3)

/-- A port goes down: the recorder's port trigger, which is of a lower code than that of a fate (R472), and what the change brings. -/
def portDown (p : Nat) (c : DownCause) (s : State) : State :=
  if (port s p).up then oneCycle (recPortDown p) (portFalls p c) s else s

/-- Since when the link of a port has been good without a break is kept, whatever else holds the port down (R199). -/
def noteGood (p : Nat) (s : State) : State :=
  let x := port s p
  if linkGood s p && portPresent s p then
    if x.goodSince = none then setPort p { x with goodSince := some s.now } s else s
  else if x.goodSince = none then s else setPort p { x with goodSince := none } s

/-- The link of a port has been good for UP_HOLDOFF (R199). -/
def heldGood (s : State) (p : Nat) : Bool :=
  match (port s p).goodSince with
  | some t => decide (t + msT (cuF s (R.macLinkCfg p) 23 16) ≤ s.now)
  | none => false

/-- Judging a port's link again after anything it depends on has changed (R199): down at once, up after UP_HOLDOFF. -/
def linkEval (p : Nat) (s0 : State) : State :=
  let s := noteGood p s0
  let want := portWanted s p
  if (port s p).up then
    if want then s
    else portDown p (if linkGood s p && (quad s (p / 4)).refOk && portPresent s p then .admin else .link) s
  else whenDo (want && heldGood s p) (portUp p) s

/-- Judging the four ports of a quad. -/
def quadEval (q : Nat) (s : State) : State := forAll (fun j => linkEval (4 * q + j)) (List.range 4) s

/-- Judging every port that has state: after a mode change that lets links come up. -/
def linksEval (s : State) : State := forAll quadEval (List.range 64) s

/-- The ports that run pause send XOFF as DRAIN begins (R55): priorities of LOSSLESS under flow control, the port under
pause. -/
def portsXoff (s : State) : State := forAll (portPauseAll true) (List.range 256) s

/-- On entering STAGE from DRAIN, XON goes to the same priorities and ports (R55). -/
def portsXon (s : State) : State := forAll (portPauseAll false) (List.range 256) s

/-- Every link is taken down, without XON (R55, R58). -/
def linksDown (s : State) : State :=
  forAll (fun p s => portDown p .admin s) ((s.lk.ports.filter (fun c => c.2.up)).map (·.1)) s

end Sys2Proof.Machine
end

