-- ==== Sys2Proof/Machine/TimeOps.lean ====
section
/-! DEFINITION. Time stamps, the time-base fault state, cycle-generator edges and capture units as operations that other
families use (07_time). -/

namespace Sys2Proof.Machine

open Sys2Proof

/-! ## Signed arithmetic on time -/

/-- A signed field in 1/16 ns as units of time (R245). -/
def sixteenths (w n : Nat) : Int := sgn w n * ((Config.nsUnit / 16 : Nat) : Int)

/-! ## Faults and stamps -/

/-- TIM_STATUS.FAULT: a TIM_FAULT bit is 1 (R241, R268). -/
def timFault (s : State) : Bool := rg s R.timFault != 0

/-- A time-base fault (R241): its bit, the guarantee, the FAULT event of type 1 of island 93. -/
def timeFault (i code detail : Nat) (s : State) : State :=
  let s1 : State := if timFault s then s else { s with tim := { s.tim with faultFrom := some s.now, resumeFrom := none } }
  alarm code 93 detail (breach 6 (stickRg R.timFault i s1))

/-- TIM_STATUS.FAULT stood at `t`: since it last rose, and before it last fell (R242). -/
def faultAt (s : State) (t : Nat) : Bool :=
  match s.tim.faultFrom with
  | none => timFault s
  | some a => decide (a ≤ t) && (timFault s || match s.tim.resumeFrom with
    | some b => decide (t < b)
    | none => false)

/-- The in-use value of a class C register for something stamped at `ts`: the value before the latest commit where the
stamp is earlier than its effect (R206, R246). -/
def cuAt (s : State) (ts off : Nat) : Nat :=
  if ts < s.gen.lastEffect then
    match kvGet off s.gen.before with
    | some w => w.toNat
    | none => cu s off
  else cu s off

/-- The same of a 64-bit pair, the lower half first. -/
def cuAt64 (s : State) (ts off : Nat) : Nat := cuAt s ts off + cuAt s ts (off + 4) * 2 ^ 32

/-! ## What a stamp gives a frame -/

/-- The generation that a stamp gives a frame (R36, R348). -/
def genOf (s : State) (ts : Nat) : Nat :=
  match s.gen.effectAt with
  | some t => if t ≤ ts || s.gen.byJump then (s.gen.current + 1) % 2 ^ 32 else s.gen.current
  | none => if ts < s.gen.lastEffect then (s.gen.current + 2 ^ 32 - 1) % 2 ^ 32 else s.gen.current

/-- The handling of a frame stamped at `ts` (R50, R53, R54, R62). In DRAIN a frame stamped before T_d is handled as in the mode it
came in, which without a run time, or behind the fence, was STAGE (R57, R62). R54 and R50 leave open the handling of a frame stamped at
T_d or later that its slice takes only when DRAIN is over: it passes the staging filter (DESIGN CHOICE, assumption 46). -/
def handling (s : State) (ts : Nat) : Handling :=
  let past (t : Option Nat) : Bool := match t with
    | some t => decide (t ≤ ts)
    | none => false
  if past s.md.tDrain || (s.md.fenced && decide (1 ≤ s.md.faultCode) && decide (s.md.faultCode ≤ 3)) then .refused
  else if s.md.fenced then .staged
  else match s.md.mode with
    | .run => if s.md.tRun.isSome && !past s.md.tRun then .staged else .forwarded
    | .drain => if past s.md.tRun then .forwarded else .staged
    | .stage => if s.md.transition && past s.md.tRun then .forwarded else .staged
    | _ => .refused

/-- Both for a frame that waits: as its stamp gave them before a SET or STEP that came while it waited (R348). -/
def genFor (s : State) (w : Incoming) : Nat := match w.judged with
  | some j => j.1
  | none => genOf s w.ts
def handlingFor (s : State) (w : Incoming) : Handling := match w.judged with
  | some j => j.2
  | none => handling s w.ts

/-- A stamp as it is held: its upper 16 fraction bits (R230). -/
def stampCut (t : Nat) : Nat := t / (2 ^ 32 * 1000000) * (2 ^ 32 * 1000000)

/-- What a replica of the master time counter shows beyond the master: replicas 0 to 63 are of the quads, 64 to 71 of the egress
slices (R28). -/
def replicaErr (s : State) (i : Nat) : Int := nth 0 s.tim.replicaErr i

/-- The ingress stamp of something that crossed the lane ball of a port at `t`: the value of the quad's replica, by the
compensation in use then (R28, R245, R246); uncorrected during a time-base fault (R242). -/
def rxStampAt (s : State) (p t : Nat) : Nat :=
  let r := shiftT t (replicaErr s (p / 4))
  stampCut (if faultAt s t then r else shiftT r (-(sixteenths 16 (fld 15 0 (cuAt s t (R.timPortComp p))))))

/-- The egress stamp of something that crosses the lane ball of a port at `t` (R28, R245). -/
def txStampAt (s : State) (p t : Nat) : Nat :=
  let r := shiftT t (replicaErr s (p / 4))
  stampCut (if faultAt s t then r else shiftT r (sixteenths 16 (fld 31 16 (cuAt s t (R.timPortComp p)))))

/-- When something must cross the lane ball of a port so that it crosses the compensated boundary at `r`, as the replica of the
port's quad island shows it (R28, R29, R38, R245, R246, R451). -/
def ballTime (s : State) (p r : Nat) : Nat :=
  if 256 ≤ p then r
  else shiftT r (-(sixteenths 16 (fld 31 16 (cuAt s r (R.timPortComp p))) + replicaErr s (p / 4)))

/-- A port's transmit stamps. -/
def txStamps (s : State) (p : Nat) : TxStamps := kvGetD {} p s.tim.txf
def setTxStamps (p : Nat) (x : TxStamps) (s : State) : State := { s with tim := { s.tim with txf := kvPut p x s.tim.txf } }

/-- A sequence number is taken (R247). -/
def takeSeq (p : Nat) (s : State) : State :=
  setTxStamps p { txStamps s p with seq := ((txStamps s p).seq + 1) % 65536 } s

/-- Storing a stamp in a port's FIFO (R248): lost where it is full; the first stored after a run of losses reports
them, in an event whose own stamp is 0 (R107 names no stamp for it: assumption 136). -/
def storeStamp (p seq t : Nat) (words3 : Nat) (s : State) : State :=
  let x := txStamps s p
  if 64 ≤ x.fifo.length then
    incRg (R.timTxfLost p)
      (setTxStamps p { x with lost := x.lost + 1, lostFirst := if x.lost = 0 then seq else x.lostFirst } s)
  else
    let e := [tNs t + b2n (timFault s) * 2 ^ 30 + 2 ^ 31, tSec t % 2 ^ 32, tFrac t + seq * 2 ^ 16, words3]
    let s1 := setTxStamps p { x with fifo := x.fifo ++ [e], lost := 0 } s
    let s2 := whenDo (decide (0 < x.lost)) (emit 7 1 p [0, 0, x.lostFirst * 2 ^ 16, satTo 65535 x.lost]) s1
    whenDo (bit 20 (cu s (R.timPortCfg p))) (emit 7 0 p [tSec t % 2 ^ 32, tNs t, tFrac t + seq * 2 ^ 16, 0]) s2

/-! ## References -/

/-- TIM_CFG.SOURCE in use. -/
def timSource (s : State) : Nat := cuF s R.timCfg 1 0

/-- The loop has every reference that it uses (R239, R240). -/
def refsPresent (s : State) : Bool := s.tim.refPresent && (s.tim.ppsPresent || timSource s != 2)

/-- The references of a loop in holdover are back: 1 s later holdover ends (R240). -/
def refsBack (t : Nat) (s : State) : State :=
  if s.tim.holdover && refsPresent s then { s with tim := { s.tim with refBack := some t } } else s

/-! ## Cycle generators -/

/-- A generator's state. -/
def cycleGen (s : State) (g : Nat) : CycleGen := kvGetD {} g s.tim.gens
def setGen (g : Nat) (x : CycleGen) (s : State) : State := { s with tim := { s.tim with gens := kvPut g x s.tim.gens } }

/-- The generator is enabled. -/
def genOn (s : State) (g : Nat) : Bool := bit 0 (cu s (R.timCgCfg g))

/-- The time of edge 0 and the period of a generator, in units (R256). -/
def genBase (s : State) (g : Nat) : Nat := mkT (cu64 s (R.timCgStartSec g)) (cuF s (R.timCgStartNs g) 29 0) + nsT (cu64 s (R.timCgPhase g))
def genPeriod (s : State) (g : Nat) : Nat := nsT (cu64 s (R.timCgPeriod g))

/-- The same, as they stood at a stamp before the latest commit (R206, R291). -/
def genBaseAt (s : State) (t g : Nat) : Nat :=
  mkT (cuAt64 s t (R.timCgStartSec g)) (fld 29 0 (cuAt s t (R.timCgStartNs g))) + nsT (cuAt64 s t (R.timCgPhase g))
def genPeriodAt (s : State) (t g : Nat) : Nat := nsT (cuAt64 s t (R.timCgPeriod g))

/-- The time of edge k (R256). -/
def edgeAt (s : State) (g k : Nat) : Nat := genBase s g + k * genPeriod s g

/-- The smallest k whose edge is at or after `t`. -/
def firstEdge (s : State) (g t : Nat) : Nat := ceilDiv (t - genBase s g) (genPeriod s g)

/-- The k of the next edge: at or after the time the settings act from, and beyond the last one made (R256, R258). -/
def nextEdge (s : State) (g : Nat) : Nat :=
  let x := cycleGen s g
  max (firstEdge s g x.since) (match x.k with
    | none => 0
    | some k => if x.fresh then 0 else k + 1)

/-- A generator has made an edge since it was enabled (R243, R291). -/
def genRuns (x : CycleGen) : Bool := x.made || x.lastOld.isSome

/-- Release from queues tied to a generator has resumed since the last time-base fault (R243). -/
def released (s : State) (g : Nat) : Bool := !s.tim.heldGens.contains g || !genOn s g || !genRuns (cycleGen s g)

/-- The last point of a grid of edges at or before `t`, where it is no earlier than `from_`. -/
def gridBefore (base period from_ t : Nat) : Option Nat :=
  let e := base + (t - base) / period * period
  if base ≤ t ∧ from_ ≤ e then some e else none

/-- The last edge of a generator at or before `t`, made or foreseen, by the settings in use at `t`; none while it is disabled or before
its first (R206, R243, R291, R443, R445). After a backward jump it may be one that is not made again (R258). -/
def edgeBefore (s : State) (g t : Nat) : Option Nat :=
  let x := cycleGen s g
  if t < x.since then
    match bit 0 (cuAt s t (R.timCgCfg g)), x.lastOld with
    | true, some e => if e ≤ t then some e else gridBefore (genBaseAt s t g) (genPeriodAt s t g) x.oldSince t
    | _, _ => none
  else if !genOn s g then none
  else
    let e0 := edgeAt s g (nextEdge s g)
    if e0 ≤ t then some (e0 + (t - e0) / genPeriod s g * genPeriod s g)
    else if !x.made then x.lastOld
    else if x.at_ ≤ t then some x.at_
    else (gridBefore (genBase s g) (genPeriod s g) x.since t).orElse fun _ => x.lastOld

/-- A change of the settings or of the time that comes first at or before a time: it must act before an edge there (R257,
R258). -/
def timeHeld (s : State) (t : Nat) : Bool :=
  (match s.gen.effectAt with
   | some e => decide (e ≤ t)
   | none => false) ||
  (match s.tim.jump with
   | some j => decide (j.due ≤ t)
   | none => false)

/-! ## Capture units -/

/-- A capture unit's state. -/
def capUnit (s : State) (u : Nat) : CapUnit := kvGetD {} u s.tim.caps
def setCap (u : Nat) (x : CapUnit) (s : State) : State := { s with tim := { s.tim with caps := kvPut u x s.tim.caps } }

/-- A capture stamped `t` (R266), in a time-base fault where `bad` holds (R242): count, FIFO or loss, event, recorder trigger
(R472). -/
def captureNow (u t : Nat) (active bad : Bool) (s : State) : State :=
  let x := capUnit s u
  let n := (x.count + 1) % 65536
  let e := [tNs t + b2n bad * 2 ^ 30 + 2 ^ 31, tSec t % 2 ^ 32, tFrac t + n * 2 ^ 16, b2n active]
  let room := decide (x.fifo.length < 16)
  let s1 := setCap u { x with count := n, last := some t, fifo := if room then x.fifo ++ [e] else x.fifo } s
  let s2 := whenDo (!room) (incRg (R.timCapLost u)) s1
  let s3 := whenDo (bit 20 (cu s (R.timTioCfg u))) (emit 7 2 u [tSec t % 2 ^ 32, tNs t, tFrac t + n * 2 ^ 16, 0]) s2
  recCapture u t s3

/-- The input of a capture unit is active, or not, from `t` on (R265). -/
def inputLevel (u t : Nat) (active : Bool) (s : State) : State :=
  let x := capUnit s u
  setCap u { x with
    level := active, stuck := x.stuck && active,
    activeSince := if active then (if x.level then x.activeSince else some t) else none } s

/-- An edge at `t`, stamped `st`, that passed the deglitch filter: the other three checks in their turn, edge selection, minimum
interval, stuck (R263 to R265). -/
def captureJudge (u t st : Nat) (active : Bool) (s : State) : State :=
  let x := capUnit s u
  let sel := cuF s (R.timTioCfg u) 9 8
  let picked := if active then bit 0 sel else bit 1 sel
  let s1 := inputLevel u t active s
  let bad := faultAt s t
  let early := match x.last with
    | some l => decide (st < l + nsT (cuF s (R.timCapMinInt u) 29 0))
    | none => false
  if !picked then s1
  else if early then incRg (R.timCapFast u) s1
  else if x.stuck then s1
  else captureNow u st active bad s1

/-- The unit's input is the edges of a generator in place of its pin (R259, R269). -/
def fedUnit (s : State) (u : Nat) : Bool :=
  (List.range 32).any fun g => bit 8 (cu s (R.timCgCfg g)) && fld 15 12 (cu s (R.timCgCfg g)) == u

/-- The unit runs and samples its pin (R259, R262, R269). -/
def readsPin (s : State) (u : Nat) : Bool :=
  let cfg := cu s (R.timTioCfg u)
  bit 7 cfg && !bit 0 cfg && !fedUnit s u

/-- The pin is active by ACTIVE_LOW (R263). -/
def pinActive (s : State) (u : Nat) : Bool := s.pins.tioIn.contains u != bit 1 (cu s (R.timTioCfg u))

/-- TIM_CAP_STATUS.LEVEL: the pin is active, as an input or as an output (R267). -/
def capLevel (s : State) (u : Nat) : Bool :=
  if bit 0 (cu s (R.timTioCfg u)) then s.pins.tioOut.contains u else pinActive s u

end Sys2Proof.Machine
end

