-- ==== Sys2Proof/Machine/GateOps.lean ====
section
/-! DEFINITION. Sluice gates: a list's states at a time, when a gate closes and opens, the longest opening (R442 to R448). -/

namespace Sys2Proof.Machine

open Sys2Proof

/-- A port's list is in operation in a parity (R442). -/
def listOn (s : State) (par p : Nat) : Bool := decide (p < 256) && pgF s par (R.gclCfg p) 0 0 == 1

/-- The generator and the length of a list, the gate bits it gives when idle. -/
def listGen (s : State) (par p : Nat) : Nat := pgF s par (R.gclCfg p) 12 8
def listLen (s : State) (par p : Nat) : Nat := pgF s par (R.gclCfg p) 26 16
def listIdle (s : State) (par p : Nat) : Nat := pgF s par (R.gclIdleGates p) 7 0

/-- The entries in use: gate bits and interval in units of time. -/
def gateEntries (s : State) (par p : Nat) : List (Nat × Nat) :=
  (List.range (listLen s par p)).map fun j =>
    (pgF s par (R.gclEntryGates p j) 7 0, nsT (pgF s par (R.gclEntryInterval p j) 29 0))

/-- The first foreseen edge after `t`. -/
def edgeAfter (s : State) (g t : Nat) : Option Nat :=
  if !genOn s g then none
  else
    let e0 := edgeAt s g (nextEdge s g)
    if t < e0 then some e0 else some (e0 + ((t - e0) / genPeriod s g + 1) * genPeriod s g)

/-- Walking the entries: the number and the gates of the entry that contains offset `d`, and where it ends; the last one
holds (none for its end). -/
def walkEntries : List (Nat × Nat) → Nat → Nat → Nat → Nat × Nat × Option Nat
  | [], _, _, _ => (0, 0, none)
  | [e], j, acc, d => (j, e.1, if d < acc + e.2 then some (acc + e.2) else none)
  | e :: es, j, acc, d => if d < acc + e.2 then (j, e.1, some (acc + e.2)) else walkEntries es (j + 1) (acc + e.2) d

/-- A list's gate bits at `t`, its entry (none while it gives GCL_IDLE_GATES), and the time up to which nothing changes
(R443). -/
def gateState (s : State) (par p t : Nat) : Nat × Option Nat × Option Nat :=
  if !listOn s par p then (0xFF, none, none)
  else
    let g := listGen s par p
    match edgeBefore s g t with
    | none => (listIdle s par p, none, edgeAfter s g t)
    | some e =>
      if listLen s par p = 0 then (listIdle s par p, none, edgeAfter s g t)
      else
        let r := walkEntries (gateEntries s par p) 0 0 (t - e)
        let next := edgeAfter s g t
        (r.2.1, some r.1, match r.2.2, next with
          | some x, some n => some (min (e + x) n)
          | some x, none => some (e + x)
          | none, n => n)

/-- A queue's gate is open at `t` under the list of a parity. -/
def gateOpen (s : State) (par p q t : Nat) : Bool := bit q (gateState s par p t).1

/-- Until when a gate that is open at `t` stays open without a break; none for no end foreseen. -/
def openUntil (s : State) (par p q : Nat) : Nat → Nat → Option Nat
  | 0, _ => none
  | fuel + 1, t =>
    let r := gateState s par p t
    if !bit q r.1 then some t
    else
      match r.2.2 with
      | none => none
      | some t1 => openUntil s par p q fuel (max t1 (t + 1))

/-- How many segments a look-ahead over two whole cycles can meet. -/
def lookAhead (s : State) (par p : Nat) : Nat := 2 * (listLen s par p + 2) + 2

/-- A queue's gate is open at `t` and stays open for `d` (R445). -/
def gateFits (s : State) (par p q t d : Nat) : Bool :=
  gateOpen s par p q t &&
    (match openUntil s par p q (lookAhead s par p) t with
     | none => true
     | some x => decide (t + d ≤ x))

/-- The start of the first opening at or after `t` in which `d` fits (R454). -/
def firstOpening (s : State) (par p q d : Nat) : Nat → Nat → Option Nat
  | 0, _ => none
  | fuel + 1, t =>
    if gateFits s par p q t d then some t
    else
      match (gateState s par p t).2.2 with
      | none => none
      | some t1 => firstOpening s par p q d fuel (max t1 (t + 1))

/-- The entries of one cycle as (open, duration), cut at PERIOD, the last one held to its end (R448). -/
def cycleSpans (q : Nat) : List (Nat × Nat) → Nat → List (Bool × Nat)
  | [], _ => []
  | [e], left => [(bit q e.1, left)]
  | e :: es, left => if left ≤ e.2 then [(bit q e.1, left)] else (bit q e.1, e.2) :: cycleSpans q es (left - e.2)

/-- The longest run of open spans. -/
def longestRun : List (Bool × Nat) → Nat → Nat → Nat
  | [], _, best => best
  | (true, d) :: r, run, best => longestRun r (run + d) (max best (run + d))
  | (false, _) :: r, _, best => longestRun r 0 best

/-- The longest opening of a queue in a parity's list; none for no limit (R448). An opening that runs past the end of the
cycle into entry 0 counts as one. -/
def longestOpening (s : State) (par p q : Nat) : Option Nat :=
  if !listOn s par p || listLen s par p == 0 then none
  else
    let spans := cycleSpans q (gateEntries s par p) (genPeriod s (listGen s par p))
    if spans.all (·.1) then none else some (longestRun (spans ++ spans) 0 0)

/-- The list a queue is judged by: that of its head copy's parity, or of the current one (R444). -/
def queuePar (s : State) (p q : Nat) : Nat :=
  match (queue s p q).copies with
  | c :: _ => if c.device.isSome then curPar s else (frame s c.frame).par
  | [] => curPar s

end Sys2Proof.Machine
end

