-- ==== Sys2Proof/Machine/EditOps.lean ====
section
/-! DEFINITION. What the egress editor and the transmit MAC change in a copy as it is sent: VID and DEI (R293, R331, R553),
PTP fields (R251 to R255), padding and the FCS (R207). -/

namespace Sys2Proof.Machine

open Sys2Proof

/-- The tag at byte 12 is one the ingress slice recognises in the frame's parity (R553). -/
def tagHere (s : State) (x : Frame) (bs : List Byte) : Bool :=
  let w := pg s x.par (R.prsTpid (portSlice x.inPort))
  decide (18 ≤ bs.length) && (be16 bs 12 == fld 15 0 w || be16 bs 12 == fld 31 16 w)

/-- The editor writes the VID of a replication entry and the DEI of a yellow frame into the outer tag. -/
def editTag (s : State) (x : Frame) (c : Copy) (bs : List Byte) : List Byte :=
  if tagHere s x bs then
    let tci := be16 bs 14
    let t1 := match c.vid with
      | some v => putFld 11 0 v tci
      | none => tci
    patch bs 14 (toBE 2 (if x.dei then putFld 12 12 1 t1 else t1))
  else bs

/-- A frame is a PTP event message (R251): the offset of its header. -/
def ptpEvent (x : Frame) : Option Nat :=
  match x.parsed.ptp with
  | none => none
  | some o =>
    let v := byteAt x.bytes (o + 1) % 16
    let m := byteAt x.bytes o % 16
    if !x.error && v == 2 && decide (m ≤ 3) then some o else none

/-- Adding a signed number of 2^-16 ns to the correctionField of the PTP header at `o`. -/
def addCorrection (o : Nat) (d : Int) (bs : List Byte) : List Byte :=
  patch bs (o + 8) (toBE 8 (unsgn 64 (sgn 64 (beN bs (o + 8) 8) + d)))

/-- A span of time in 2^-16 ns, rounded down. -/
def inFrac (d : Int) : Int := d / ((2 ^ 32 * 1000000 : Nat) : Int)

/-- The 16-bit one's complement sum of bytes in network order, an odd last byte padded. -/
def onesSum : List Byte → Nat
  | [] => 0
  | [a] => a.toNat * 256
  | a :: b :: r => a.toNat * 256 + b.toNat + onesSum r

/-- Folding carries into 16 bits; four folds are enough for any frame. -/
def foldOnes (n : Nat) : Nat :=
  let f (x : Nat) : Nat := x % 65536 + x / 65536
  f (f (f (f n)))

/-- Rewriting the last two bytes of a UDP payload so that the datagram's sum is what it was (R254). -/
def fixPayload (old new : List Byte) : List Byte :=
  let n := new.length
  let body := new.take (n - 2) ++ [0, 0]
  let want := foldOnes (onesSum old)
  let have0 := foldOnes (onesSum body)
  let d := foldOnes (want + (65535 - have0))
  let e := if n % 2 = 0 then d else d % 256 * 256 + d / 256
  new.take (n - 2) ++ toBE 2 e

/-- The UDP checksum after a PTP message has been changed (R254): 0 over IPv4; over IPv6 the payload's last two bytes are
rewritten, or the change is refused (none). -/
def fixUdp (x : Frame) (o : Nat) (old new : List Byte) : Option (List Byte) :=
  if x.parsed.l4 ≠ 17 then some new
  else if x.parsed.l3 = 4 then some (patch new (x.parsed.l4off + 6) [0, 0])
  else
    let a := x.parsed.l4off + 8
    let n := be16 new (x.parsed.l4off + 4) - 8
    if be16 new (o + 2) + 2 ≤ n ∧ a + n ≤ new.length then
      some (patch new a (fixPayload ((old.drop a).take n) ((new.drop a).take n)))
    else none

/-- What the port adds to a PTP event message's correctionField (R253), where it corrects at all. -/
def residence (s : State) (x : Frame) (p o t : Nat) : Option Int :=
  let mode := cuF s (R.timPortCfg p) 17 16
  if (mode = 1 ∨ mode = 2) ∧ x.inPort < 256 then
    let r := inFrac ((t : Int) - (x.ts : Int))
    let sync := byteAt x.bytes o % 16 == 0
    if mode = 2 ∧ sync ∧ cuF s (R.timPortCfg x.inPort) 17 16 = 2 then
      some (r + ((cuF s (R.timPortPdelay x.inPort) 23 0 : Nat) : Int) * 4096)
    else some r
  else none

/-- A copy skipped by the PTP hardware (R242, R252, R254). -/
def ptpSkip (p : Nat) (s : State) : State := incRg (R.timPtpSkip p) s

/-- The one-step write and the correction of a copy sent with egress stamp `t` (R252 to R254): the bytes, whether the copy
is counted as skipped, and whether an update was made. -/
def ptpEdit (s : State) (x : Frame) (p t : Nat) (bs : List Byte) : List Byte × Bool × Bool :=
  match ptpEvent x with
  | none => (bs, x.oneStep, false)
  | some o =>
    let m := byteAt bs o % 16
    let one := x.oneStep && decide (m ≤ 2)
    let res := residence s x p o t
    if timFault s then (bs, x.oneStep || res.isSome, false)
    else
      let b1 := if one then addCorrection o (tFrac t) (patch bs (o + 34) (toBE 6 (tSec t) ++ toBE 4 (tNs t))) else bs
      let b2 := match res with
        | some d => addCorrection o d b1
        | none => b1
      if !one && res.isNone then (bs, x.oneStep, false)
      else
        match fixUdp x o bs b2 with
        | some b3 => (b3, x.oneStep && !one, true)
        | none => (bs, true, false)

/-- Padding to 64 bytes and the new FCS (R207). -/
def frameOut (bs : List Byte) : List Byte :=
  let body := bs.take (bs.length - 4)
  let padded := body ++ List.replicate (60 - body.length) 0
  padded ++ fcsBytes padded

/-- The bytes of a copy as a port sends them with egress stamp `t`; whether it counts as skipped; whether its PTP fields were
updated. -/
def copyOut (s : State) (c : Copy) (t : Nat) : List Byte × Bool × Bool :=
  match c.device with
  | some (bs, ts, corr) =>
    let d := inFrac ((t : Int) - (ts : Int))
    (frameOut (patch bs 22 (toBE 8 (unsgn 64 (sgn 64 corr + d)))), false, false)
  | none =>
    let x := frame s c.frame
    let r := ptpEdit s x c.port t (editTag s x c x.bytes)
    (frameOut r.1, r.2.1, r.2.2)

/-- Why a copy takes a transmit stamp (R247): TS_REQ, or as a PTP event message, whose stamp the FIFO holds too. -/
def wantsStamp (s : State) (x : Frame) (p : Nat) : Bool × Bool :=
  (x.tsReq, (ptpEvent x).isSome && bit 19 (cu s (R.timPortCfg p)))

/-- A copy that starts at a port takes its stamp and sequence number (R247, R248); that of a late-reporting frame goes to its
completion (R92), marked where it was taken in a time-base fault (R242). -/
def stampCopy (c : Copy) (p t : Nat) (updated : Bool) (s : State) : State :=
  if c.device.isSome then s
  else
    let x := frame s c.frame
    let w := wantsStamp s x p
    if !w.1 && !w.2 then s
    else
      let seq := (txStamps s p).seq
      let s1 := takeSeq p s
      let s2 := whenDo x.txRing.isSome (modFrame c.frame fun y => { y with txStamp := some (t, seq), txStampOk := !timFault s }) s1
      match ptpEvent x with
      | some o => whenDo w.2 (storeStamp p seq t (be16 x.bytes (o + 30) + byteAt x.bytes o % 16 * 2 ^ 16 +
          byteAt x.bytes (o + 4) * 2 ^ 20 + b2n updated * 2 ^ 28 + b2n w.1 * 2 ^ 29)) s2
      | none => s2

end Sys2Proof.Machine
end

