-- ==== Sys2Proof/Machine/Parse.lean ====
section
/-! DEFINITION. The parser (R273 to R276, R553) and the symmetric hash (R278, R279). -/

namespace Sys2Proof.Machine

open Sys2Proof

/-! ## Parsing -/

/-- The settings of a slice's parser in a frame's parity (R298). -/
structure PrsCfg where
  tpidA : Nat
  tpidB : Nat
  rtag : Bool
  csum : Bool
  udhType : Nat
  udhLen : Nat
  nextOff : Nat

/-- They as the registers of slice `sl` give them. -/
def prsCfg (s : State) (par sl : Nat) : PrsCfg :=
  { tpidA := pgF s par (R.prsTpid sl) 15 0, tpidB := pgF s par (R.prsTpid sl) 31 16,
    rtag := pgF s par (R.prsCfg sl) 0 0 == 1, csum := pgF s par (R.prsCfg sl) 1 1 == 1,
    udhType := pgF s par (R.prsUdh sl) 15 0, udhLen := pgF s par (R.prsUdh sl) 22 16,
    nextOff := pgF s par (R.prsUdhOff sl) 13 8 }

/-- A header from `o` of `len` bytes in a frame with `n` bytes before its FCS (R274): a cause, a stop, or go on. -/
def headerCheck (n o len : Nat) (x : Parsed) (go : Parsed → Parsed) : Parsed :=
  if n < o + len then { x with mal := 1 } else if 256 < o + len then { x with deep := true } else go x

/-- The first cause in a list of (cause, condition) that holds, else go on. -/
def causes (x : Parsed) (go : Parsed → Parsed) : List (Nat × Bool) → Parsed
  | [] => go x
  | (c, bad) :: r => if bad then { x with mal := c } else causes x go r

/-- A PTP header at `o`. -/
def parsePtp (n o : Nat) (x : Parsed) : Parsed := headerCheck n o 34 x fun x => { x with ptp := some o }

/-- UDP, TCP or another protocol from `o` in an IP payload that ends at `e`. `l4` is 255 for another protocol (R282). -/
def parseL4 (bs : List Byte) (n o e : Nat) (x : Parsed) : Parsed :=
  if x.proto = 17 then
    headerCheck n o 8 x fun x =>
      causes x (fun x =>
        let y := { x with l4 := 17, l4off := o, sport := be16 bs o, dport := be16 bs (o + 2) }
        if y.dport = 319 ∨ y.dport = 320 then parsePtp n (o + 8) y else y)
        [(12, decide (be16 bs (o + 4) < 8) || decide (e < o + be16 bs (o + 4)))]
  else if x.proto = 6 then
    let d := byteAt bs (o + 12) / 16
    headerCheck n o (4 * max d 5) x fun x =>
      causes x (fun x => { x with l4 := 6, l4off := o, sport := be16 bs o, dport := be16 bs (o + 2) })
        [(12, decide (d < 5) || decide (e < o + 4 * d))]
  else { x with l4 := 255 }

/-- IPv4 from `o` (R273, R276 causes 4 to 7). -/
def parseV4 (csum : Bool) (bs : List Byte) (n o : Nat) (x : Parsed) : Parsed :=
  let ihl := byteAt bs o % 16
  let total := be16 bs (o + 2)
  let fragWord := be16 bs (o + 6)
  headerCheck n o (4 * max ihl 5) x fun x =>
    causes x (fun x =>
      let y := { x with l3 := 4, l3off := o, proto := byteAt bs (o + 9), sip := beN bs (o + 12) 4, dip := beN bs (o + 16) 4,
                        dscp := byteAt bs (o + 1) / 4, frag := decide (fragWord % 0x4000 ≠ 0) }
      if fragWord % 0x2000 ≠ 0 then y else parseL4 bs n (o + 4 * ihl) (o + total) y)
      [(4, byteAt bs o / 16 != 4), (5, decide (ihl < 5)), (6, decide (total < 4 * ihl) || decide (n < o + total)),
       (7, csum && foldOnes (onesSum ((bs.drop o).take (4 * ihl))) != 0xFFFF)]

/-- The extension headers of IPv6 from `o`, `k` of them read so far, in a payload that ends at `e`; PROTO is the type of the
header to come. A fragment that is not the first has no further header. -/
def parseExt (bs : List Byte) (n e : Nat) : Nat → Nat → Parsed → Parsed
  | 0, o, x => parseL4 bs n o e x
  | fuel + 1, o, x =>
    if x.proto = 0 ∨ x.proto = 43 ∨ x.proto = 44 ∨ x.proto = 60 then
      let isFrag := x.proto == 44
      let len := if isFrag then 8 else 8 * (byteAt bs (o + 1) + 1)
      headerCheck n o len x fun x =>
        causes x (fun x =>
          let y := { x with proto := byteAt bs o, frag := x.frag || isFrag }
          if isFrag && decide (be16 bs (o + 2) / 8 ≠ 0) then y else parseExt bs n e fuel (o + len) y)
          [(10, fuel == 0), (11, decide (e < o + len))]
    else parseL4 bs n o e x

/-- IPv6 from `o` (R273, R276 causes 8 to 11). -/
def parseV6 (bs : List Byte) (n o : Nat) (x : Parsed) : Parsed :=
  let plen := be16 bs (o + 4)
  headerCheck n o 40 x fun x =>
    causes x (fun x =>
      parseExt bs n (o + 40 + plen) 3 (o + 40)
        { x with l3 := 6, l3off := o, proto := byteAt bs (o + 6), sip := beN bs (o + 8) 16, dip := beN bs (o + 24) 16,
                 dscp := be16 bs o / 64 % 64 })
      [(8, byteAt bs o / 16 != 6), (9, decide (plen = 0) || decide (n < o + 40 + plen))]

/-- What an EtherType names from `o` on. -/
def parseType (c : PrsCfg) (bs : List Byte) (n o ty : Nat) (x : Parsed) : Parsed :=
  if ty = 0x0800 then parseV4 c.csum bs n o x
  else if ty = 0x86DD then parseV6 bs n o x
  else if ty = 0x88F7 then parsePtp n o x
  else x

/-- The user header, where the EtherType is its own. -/
def parseUdh (c : PrsCfg) (bs : List Byte) (n o ty : Nat) (x : Parsed) : Parsed :=
  if c.udhType ≠ 0 ∧ ty = c.udhType then
    headerCheck n o c.udhLen x fun x =>
      let y := { x with udh := some o }
      if c.nextOff = 63 then y else parseType c bs n (o + c.udhLen) (be16 bs (o + c.nextOff)) y
  else parseType c bs n o ty x

/-- The R-TAG, where it is recognised. A second one is an EtherType like any other. -/
def parseRtag (c : PrsCfg) (bs : List Byte) (n o ty : Nat) (x : Parsed) : Parsed :=
  if c.rtag && ty == 0xF1C1 then
    headerCheck n o 6 x fun x => parseUdh c bs n (o + 6) (be16 bs (o + 4)) { x with rtag := some (be16 bs (o + 2)), etype := be16 bs (o + 4) }
  else parseUdh c bs n o ty { x with etype := ty }

/-- The VLAN tags from the EtherType `ty` on, and an IEEE 802.3 length after them. -/
def parseTags (c : PrsCfg) (bs : List Byte) (n : Nat) : Nat → Nat → Nat → Parsed → Parsed
  | 0, _, _, x => x
  | fuel + 1, o, ty, x =>
    if ty = c.tpidA ∨ ty = c.tpidB then
      headerCheck n o 4 x fun x =>
        causes x (fun x => parseTags c bs n fuel (o + 4) (be16 bs (o + 2)) { x with tags := x.tags ++ [be16 bs o] })
          [(2, fuel == 0)]
    else if ty < 0x0600 then causes x id [(3, decide (n < o + ty))]
    else parseRtag c bs n o ty x

/-- A frame's headers (R273); its bytes end with the FCS. -/
def parseFrame (c : PrsCfg) (bs : List Byte) : Parsed :=
  let n := bs.length - 4
  headerCheck n 0 14 {} fun x => parseTags c bs n 3 14 (be16 bs 12) { x with dmac := beN bs 0 6, smac := beN bs 6 6 }

/-! ## Tags -/

/-- The outer tag's VID, PCP and DEI; 0 for an untagged frame (R553). -/
def outerVid (x : Parsed) : Nat := nth 0 x.tags 0 % 4096
def outerPcp (x : Parsed) : Nat := nth 0 x.tags 0 / 8192
def outerDei (x : Parsed) : Bool := bit 12 (nth 0 x.tags 0)

/-- The UDF: 8 bytes of the user header from KEY_OFF on, those beyond its length 0 (R282); 0 where there is none. -/
def udfOf (s : State) (par sl : Nat) (bs : List Byte) (x : Parsed) : List Byte :=
  let k := pgF s par (R.prsUdhOff sl) 5 0
  let l := pgF s par (R.prsUdh sl) 22 16
  match x.udh with
  | none => List.replicate 8 0
  | some o => (List.range 8).map fun i => if k + i < l then nth 0 bs (o + k + i) else 0

/-! ## The hash -/

/-- H (R279); a malformed frame takes the L2 form (R277). -/
def hashOf (s : State) (par sl : Nat) (bs : List Byte) (x : Parsed) : Nat :=
  let cfg := rg s (R.prsHashCfg 0)
  let ip := x.mal == 0 && x.l3 != 0
  let l4 := ip && bit 0 cfg && !x.frag && (x.l4 == 17 || x.l4 == 6)
  let w := if !ip then 6 else if x.l3 = 4 then 4 else 16
  let a := if ip then (x.sip, if l4 then x.sport else 0) else (x.smac, 0)
  let b := if ip then (x.dip, if l4 then x.dport else 0) else (x.dmac, 0)
  let swap := decide (b.1 < a.1) || (b.1 == a.1 && decide (b.2 < a.2))
  let lo := if swap then b else a
  let hi := if swap then a else b
  crc32c (rg s (R.prsHashSeed 0))
    (toBE w lo.1 ++ toBE 2 lo.2 ++ toBE w hi.1 ++ toBE 2 hi.2 ++
      (if bit 1 cfg then toBE 1 (if ip then x.proto else 0) else []) ++
      (if bit 2 cfg then toBE 2 x.etype else []) ++
      (if bit 3 cfg then toBE 2 (outerVid x) else []) ++
      (if bit 4 cfg then udfOf s par sl bs x else []))

end Sys2Proof.Machine
end

