-- ==== Sys2Proof/Machine/Classify.lean ====
section
/-! DEFINITION. Steps 3 to 7 of the ingress slice (R270): the TCAM and its rule action, stream filter, stream gate, sequence
recovery and flow meter (R280 to R295). -/

namespace Sys2Proof.Machine

open Sys2Proof

/-! ## The frame in the slice -/

/-- A frame in its slice: the state, its record so far, its generation's parity and slice, the fate a step has given it (0
for none), the copies called for, and what the rule, the gate and the filter say of its destination, queue and meter. -/
structure Slice where
  s : State
  x : Frame
  sl : Nat
  drop : Nat := 0
  /-- Copies to the host: REASON and host queue. -/
  host : List (Nat × Nat) := []
  mirror : List Nat := []
  /-- DEST_KIND and DEST of its rule. -/
  dest : Nat × Nat := (0, 0)
  ipv : Option Nat := none
  queue : Option Nat := none
  ruleMeter : Option Nat := none
  filterMeter : Option Nat := none
  /-- Its forwarding copies. -/
  fwd : List Copy := []
  /-- A lookup waits for a stage copy that is to come back (R325): the frame stays before its slice. -/
  hold : Bool := false

/-- Discarding the frame at a step; the first one decides. -/
def Slice.discard (fate : Nat) (w : Slice) : Slice := if w.drop = 0 then { w with drop := fate } else w

/-- A step of a frame that no earlier step has discarded. -/
def Slice.andThen (w : Slice) (f : Slice → Slice) : Slice := if w.drop = 0 then f w else w

/-- A change of the state only. -/
def Slice.on (w : Slice) (f : State → State) : Slice := { w with s := f w.s }

/-! ## Parity errors in tables (R285, R336 to R338) -/

/-- Words known to be bad, of a memory: 1 FDB, 2 LPM, 3 NHP, 4 MCG, 6 rule actions, 32 LAG and 33 ECMP bucket state. -/
def badWord (s : State) (mem idx pair : Nat) : Bool := s.tab.bad.contains (mem, idx, pair)

/-- The TARGET code of a memory in TABLE_PARITY events, and the registers that count and show its errors. -/
def memTarget (mem : Nat) : Nat := if mem = 32 ∨ mem = 33 then 3 else mem
def memCounter (mem idx : Nat) : Nat :=
  match memTarget mem with
  | 1 => R.fdbParityErr | 2 => R.lpmParityErr | 3 => R.nhpParityErr | 4 => R.mcgParityErr | _ => R.clsParityErr (idx / 32768)
def memSeen (mem idx : Nat) (s : State) : State :=
  match memTarget mem with
  | 1 => stickRg R.fdbStatus 1 s | 2 => stickRg R.lpmStatus 0 s | 3 => stickRg R.nhpStatus 0 s
  | 4 => stickRg R.mcgStatus 0 s | _ => stickRg (R.clsStatus (idx / 32768)) 1 s

/-- An error is found: one event, one count, PARITY_SEEN; the word stays bad until its repair. -/
def parityFound (mem idx sl : Nat) (s : State) : State :=
  if badWord s mem idx (sl / 2) then s
  else emitParity 0 (ingressIsland sl) (memTarget mem) idx
    (memSeen mem idx (incRg (memCounter mem idx) { s with tab := { s.tab with bad := (mem, idx, sl / 2) :: s.tab.bad } }))

/-- The words a lookup reads that are bad now: those among `errs` are found here. -/
def lookBad (errs : List (Nat × Nat)) (mem idx : Nat) (w : Slice) : Bool × Slice :=
  if errs.contains (mem, idx) then (true, w.on (parityFound mem idx w.sl)) else (badWord w.s mem idx (w.sl / 2), w)

/-! ## Step 3: the TCAM -/

/-- The FLAGS of a key (R282). -/
def keyFlags (x : Parsed) : Nat :=
  let l4 := if x.l4 = 17 then 1 else if x.l4 = 6 then 2 else if x.l4 = 255 then 3 else 0
  let l3 := if x.l3 = 4 then 1 else if x.l3 = 6 then 2 else 0
  (min 2 x.tags.length) + l3 * 4 + l4 * 16 + b2n x.frag * 64 + b2n x.ptp.isSome * 128 + b2n x.rtag.isSome * 256

/-- A number made of fields from a bit position up: (position, value). -/
def keyOf (fs : List (Nat × Nat)) : Nat := (fs.map fun f => f.2 <<< f.1).sum

/-- The key of a TYPE (R282). `udf` is the UDF with its first byte most significant (R275). -/
def keyFor (type inPort meta16 udf : Nat) (bs : List Byte) (x : Parsed) : Nat :=
  let pre := [(0, type), (3, inPort), (12, keyFlags x)]
  let vid := outerVid x
  let inner := nth 0 x.tags 1 % 4096
  let sip4 := if x.l3 = 4 then x.sip else 0
  let dip4 := if x.l3 = 4 then x.dip else 0
  let l2 := [(21, x.dmac), (69, x.smac), (117, x.etype), (133, vid), (145, outerPcp x), (148, inner)]
  let mt := match x.ptp with
    | some o => byteAt bs o % 16
    | none => 0
  let md := match x.ptp with
    | some o => byteAt bs (o + 4)
    | none => 0
  match type with
  | 0 => keyOf (pre ++ l2)
  | 1 => keyOf (pre ++ [(21, sip4), (53, dip4), (85, x.proto), (93, x.sport), (109, x.dport), (125, x.dscp), (131, vid), (143, meta16)])
  | 2 => keyOf (pre ++ [(21, x.etype), (37, vid), (49, outerPcp x), (52, udf), (116, mt), (120, md), (128, meta16)])
  | 4 => keyOf (pre ++ l2 ++ [(160, sip4), (192, dip4), (224, x.proto), (232, x.sport), (248, x.dport), (264, x.dscp), (270, meta16)])
  | _ => keyOf (pre ++ [(21, if x.l3 = 6 then x.sip else 0), (149, if x.l3 = 6 then x.dip else 0), (277, x.proto), (285, x.sport),
      (301, x.dport)])

/-- The bank of a rule position, and its settings: KEY_TYPE, WIDE (R280, R281). -/
def ruleBank (i : Nat) : Nat := i % 32768 / 4096
def bankType (s : State) (sl b : Nat) : Nat := rgF s (R.clsBankCfg sl b) 3 1
def bankWide (s : State) (sl b : Nat) : Bool := rgF s (R.clsBankCfg sl b) 0 0 == 1

/-- A rule is valid in a parity. -/
def Rule.valid (r : Rule) (par : Nat) : Bool := if par % 2 = 0 then r.v0 else r.v1

/-- KEY or MASK of a rule: ten words each (R286); a narrow rule uses five. -/
def ruleBits (ws : List Nat) (from0 n : Nat) : Nat := ofLE (bytesOfWords ((List.range n).map fun i => nth 0 ws (from0 + i)))

/-- A rule matches a key (R283). -/
def ruleMatches (wide : Bool) (ws : List Nat) (key : Nat) : Bool :=
  let n := if wide then 10 else 5
  (key ^^^ ruleBits ws 0 n) &&& ruleBits ws 10 n == 0

/-- The rule that applies: the lowest index among those valid and matching in all banks that the slice searches
(R283, R505). -/
def classify (s : State) (par sl : Nat) (keys : Nat → Nat) : Option (Nat × List Nat) :=
  ((s.tab.rules.find? fun c => c.1 / 32768 == sl && !unitAway s .tcam (8 * sl + ruleBank c.1) && c.2.valid par &&
    ruleMatches (bankWide s sl (ruleBank c.1)) c.2.words (keys (bankType s sl (ruleBank c.1)))).map fun c => (c.1, c.2.words))

/-- The action of a matching rule (R287). -/
def ruleAction (i : Nat) (ws : List Nat) (w : Slice) : Slice :=
  let a := nth 0 ws 20
  let c := nth 0 ws 22
  let d := nth 0 ws 23
  let x := { w.x with
    rule := i % 32768,
    stream := if bit 9 a then fld 15 0 c else w.x.stream,
    prog := if bit 11 a then some (fld 12 0 d) else none,
    meta16 := if bit 12 a then fld 31 16 d else w.x.meta16, metaSet := w.x.metaSet || bit 12 a }
  let w1 := { w with
    x := x,
    host := if bit 1 a then w.host ++ [(1, fld 15 13 a)] else w.host,
    mirror := if bit 2 a then w.mirror ++ [fld 24 16 a] else w.mirror,
    dest := (fld 4 3 a, fld 17 0 (nth 0 ws 21)),
    queue := if bit 5 a then some (fld 8 6 a) else none,
    ruleMeter := if bit 10 a then some (fld 28 16 c) else none }
  if bit 0 a then w1.discard 7 else w1

/-- CLS_DEFAULT (R283, R287). -/
def defaultAction (w0 : Slice) : Slice :=
  let w := w0.on (incRg64 (R.clsMisses w0.sl))
  let a := pg w.s w.x.par (R.clsDefault w.sl)
  let w1 := { w with host := if bit 1 a then w.host ++ [(1, fld 4 2 a)] else w.host }
  if bit 0 a then w1.discard 7 else w1

/-- Step 3 (R283 to R287). -/
def stepRules (errs : List (Nat × Nat)) (w : Slice) : Slice :=
  let udf := ofBE (udfOf w.s w.x.par w.sl w.x.bytes w.x.parsed)
  match classify w.s w.x.par w.sl (fun t => keyFor t w.x.inPort w.x.meta16 udf w.x.bytes w.x.parsed) with
  | none => defaultAction w
  | some (i, ws) =>
    let (bad, w1) := lookBad errs 6 i w
    if bad then defaultAction w1
    else
      ruleAction i ws (w1.on fun s => pmuIn w1.x.inPort 5 1 (incRg64 (R.clsHits w1.sl)
        { s with tab := { s.tab with rules := kvUpd i (fun r => { r with hits := (r.hits + 1) % 2 ^ 64 }) s.tab.rules } }))

/-! ## Streams (R288, R289) -/

/-- The four words of a stream's entry in a parity. -/
def streamWords (s : State) (par h : Nat) : List Nat := entry s 0 h par

/-- The words of an HGT entry in a parity (R296): DEFAULT_OPEN of a gate resets to 1. -/
def hgtWords (s : State) (par i : Nat) : List Nat :=
  match kvGet (valKey 1 i par) s.tab.vals with
  | some ws => ws
  | none => if 0x24000 ≤ i then [0x2000] else []

/-- Counting in a list of counters. -/
def bump (i : Nat) (l : List Nat) : List Nat := modNth (fun n => (n + 1) % 2 ^ 64) l i
def bumpBy (i k : Nat) (l : List Nat) : List Nat := modNth (fun n => (n + k) % 2 ^ 64) l i

/-- A discard by a headgate: its fate and its slice's counter. -/
def Slice.headgate (fate counter : Nat) (w : Slice) : Slice :=
  (w.on fun s => pmuIn w.x.inPort 6 1 (incRg64 counter s)).discard fate

/-! ## Step 4: the stream filter (R290) -/

/-- Filter `i` of the slice, its HGT index, its state. -/
def filterAt (s : State) (i : Nat) : Filter := kvGetD {} i s.tab.filters
def setFilter (i : Nat) (f : Filter) (s : State) : State := { s with tab := { s.tab with filters := kvPut i f s.tab.filters } }

/-- Step 4, for a stream with FILTER_EN. -/
def stepFilter (filter : Nat) (w : Slice) : Slice :=
  let i := 8192 * w.sl + filter
  let ws := hgtWords w.s w.x.par i
  let a := nth 0 ws 0
  let sdu := fld 29 16 (nth 0 ws 1)
  let f := filterAt w.s i
  let size := w.x.bytes.length
  let big := decide (sdu ≠ 0) && decide (sdu < size)
  let f1 := { f with ctr := bump 0 f.ctr }
  if f.blocked then (w.on (setFilter i { f1 with ctr := bump 4 f1.ctr })).headgate 9 (R.hgtFilterDrop w.sl)
  else if !bit (outerPcp w.x.parsed) (fld 7 0 a) then
    (w.on (setFilter i { f1 with ctr := bump 2 f1.ctr })).headgate 9 (R.hgtFilterDrop w.sl)
  else if big then
    (w.on (setFilter i { f1 with ctr := bump 3 f1.ctr, blocked := bit 10 a })).headgate 9 (R.hgtFilterDrop w.sl)
  else
    { w.on (setFilter i { f1 with ctr := bump 1 f1.ctr }) with
      filterMeter := if bit 9 a then some (fld 12 0 (nth 0 ws 1)) else none }

/-! ## Step 5: the stream gate (R291) -/

/-- A gate's state. -/
def sgateAt (s : State) (i : Nat) : StreamGate := kvGetD {} i s.tab.sgates
def setSgate (i : Nat) (g : StreamGate) (s : State) : State := { s with tab := { s.tab with sgates := kvPut i g s.tab.sgates } }

/-- The entries of a gate's list: OPEN with IPV, and the interval. -/
def sgateEntries (ws : List Nat) : List (Nat × Nat) :=
  (List.range (min 64 (fld 6 0 (nth 0 ws 0)))).map fun j => (fld 4 0 (nth 0 ws (2 + 2 * j)), nsT (nth 0 ws (3 + 2 * j)))

/-- The gate at an ingress time stamp: open, and its IPV. -/
def sgateState (s : State) (ws : List Nat) (t : Nat) : Bool × Nat :=
  let h := nth 0 ws 0
  let es := sgateEntries ws
  match (if faultAt s t || es.isEmpty then none else edgeBefore s (fld 12 8 h) t) with
  | none => (bit 13 h, 0)
  | some e =>
    let v := (walkEntries es 0 0 (t - e)).2.1
    (bit 0 v, fld 4 1 v)

/-- Step 5, for a filter with GATE_EN. -/
def stepGate (filter : Nat) (w : Slice) : Slice :=
  let a := nth 0 (hgtWords w.s w.x.par (8192 * w.sl + filter)) 0
  if !bit 8 a then w
  else
    let i := 0x24000 + 256 * w.sl + fld 23 16 a
    let ws := hgtWords w.s w.x.par i
    let g := sgateAt w.s i
    let st := sgateState w.s ws w.x.ts
    if g.latched || !st.1 then
      (w.on (setSgate i { g with ctr := bump 1 g.ctr, latched := g.latched || bit 14 (nth 0 ws 0) })).headgate 9 (R.hgtGateDrop w.sl)
    else
      { w.on (setSgate i { g with ctr := bump 0 g.ctr }) with ipv := if 8 ≤ st.2 then some (st.2 - 8) else none }

/-! ## Step 6: sequence recovery (R295) -/

/-- A function's state. -/
def recoveryAt (s : State) (f : Nat) : Recovery := kvGetD {} f s.tab.recoveries
def setRecovery (f : Nat) (r : Recovery) (s : State) : State := { s with tab := { s.tab with recoveries := kvPut f r s.tab.recoveries } }

/-- The function resets. -/
def Recovery.reset (r : Recovery) : Recovery := { r with takeAny := true, ctr := bump 6 r.ctr }

/-- The zero bits that a shift by `d` counts as lost: among the positions from HISTORY_LENGTH − d up, those below SPAN. -/
def lostBits (hist span len d : Nat) : Nat :=
  ((List.range len).filter fun j => decide (len ≤ j + d) && decide (j < span) && !bit j hist).length

/-- A tagged frame at the function: the state after it, and whether it passes. -/
def recover (matchAlg : Bool) (len seq : Nat) (r : Recovery) : Recovery × Bool :=
  let d := sgn 16 ((seq + 65536 - r.recSeq) % 65536)
  let ooo (r : Recovery) : Recovery := { r with ctr := bump 2 r.ctr }
  if r.takeAny then ({ r with recSeq := seq, hist := 1, span := 1, takeAny := false }, true)
  else if matchAlg then
    if d = 0 then (r, false) else ({ (if d = 1 then r else ooo r) with recSeq := seq }, true)
  else if (len : Int) ≤ d ∨ d ≤ -(len : Int) then ({ r with ctr := bump 3 r.ctr }, false)
  else if d ≤ 0 then
    let j := (-d).toNat
    if bit j r.hist then (r, false) else (ooo { r with hist := r.hist ||| 2 ^ j, span := max r.span (1 + j) }, true)
  else
    let k := d.toNat
    let r1 := if k = 1 then r else ooo r
    ({ r1 with
        ctr := bumpBy 4 (lostBits r.hist r.span len k) r1.ctr,
        hist := ((r.hist <<< k) ||| 1) % 2 ^ len, span := min (r.span + k) len, recSeq := seq }, true)

/-- A generation is at or before a frame's own: their numbers are compared within ±2^31. -/
def genReached (g own : Nat) : Bool := decide ((own + 2 ^ 32 - g % 2 ^ 32) % 2 ^ 32 < 2 ^ 31)

/-- The resets that come before a frame is measured: a commit up to its generation has changed ALGORITHM or HISTORY_LENGTH, and
for a tagged frame RESET_MS since the last tagged frame passed. -/
def recoveryResets (resetMs gen ts : Nat) (tagged : Bool) (r : Recovery) : Recovery :=
  let r1 := if r.changes.any (genReached · gen) then r.reset else r
  let r2 := { r1 with changes := r.changes.filter fun g => !genReached g gen }
  if tagged && !r2.takeAny && (match r2.lastPass with
      | some t => decide (t + msT resetMs ≤ ts)
      | none => false) then r2.reset else r2

/-- Step 6, for a stream with RCV_EN. -/
def stepRecovery (f : Nat) (w : Slice) : Slice :=
  if f / 2048 ≠ w.sl then (w.on fun s => pmuIn w.x.inPort 6 1 (incRg64 R.strWrongSlice s)).discard 9
  else
    let ws := hgtWords w.s w.x.par (0x20000 + f)
    let a := nth 0 ws 0
    let len := fld 9 2 a
    let tag := w.x.parsed.rtag
    let r := recoveryResets (fld 31 16 a) w.x.gen w.x.ts tag.isSome (recoveryAt w.s f)
    match tag with
    | none =>
      if bit 1 a then w.on (setRecovery f { r with ctr := bump 0 (bump 5 r.ctr) })
      else (w.on (setRecovery f { r with ctr := bump 1 r.ctr })).headgate 0xB (R.hgtRcvDrop w.sl)
    | some seq =>
      let o := recover (bit 0 a) len seq r
      if o.2 then w.on (setRecovery f { o.1 with ctr := bump 0 o.1.ctr, lastPass := some w.x.ts })
      else (w.on (setRecovery f { o.1 with ctr := bump 1 o.1.ctr })).headgate 0xB (R.hgtRcvDrop w.sl)

/-! ## Step 7: the flow meter (R292 to R294) -/

/-- The parts of a byte in which levels are kept: a rate in kb/s adds a whole number of them in each unit of time. -/
def meterByte : Nat := 8000000 * Config.nsUnit

/-- A meter's state. -/
def meterAt (s : State) (i : Nat) : Meter := kvGetD {} i s.tab.meters
def setMeter (i : Nat) (m : Meter) (s : State) : State := { s with tab := { s.tab with meters := kvPut i m s.tab.meters } }

/-- Burst sizes in parts: C, and E or P. -/
def burstC (ws : List Nat) : Nat := fld 15 0 (nth 0 ws 3) * 64 * meterByte
def burstE (ws : List Nat) : Nat := fld 31 16 (nth 0 ws 3) * 64 * meterByte

/-- A meter as a frame of a generation finds it: its levels start full; the commits up to that generation that have changed its words
cut them to the new sizes, each in turn, or fill them under FORGIVE. -/
def meterRenew (ws : List Nat) (gen : Nat) (m : Meter) : Meter :=
  let due := m.changes.filter fun c => genReached c.1 gen
  let m1 := { m with changes := m.changes.filter fun c => !genReached c.1 gen }
  if m.last.isNone || (!due.isEmpty && bit 6 (nth 0 ws 0)) then { m1 with c := burstC ws, e := burstE ws }
  else due.foldl (fun m c => { m with c := min m.c (burstC c.2), e := min m.e (burstE c.2) }) m1

/-- A commit takes effect: the meters whose words it changes, and the recovery functions whose ALGORITHM or HISTORY_LENGTH it changes, have
a change to meet (R294, R295). -/
def noteHeadgates (old s : State) : State :=
  let was (i : Nat) : List Nat := hgtWords old (curPar old) i
  let now (i : Nat) : List Nat := hgtWords s (curPar s) i
  { s with tab := { s.tab with
    meters := s.tab.meters.map fun c => (c.1, if was c.1 = now c.1 then c.2
      else { c.2 with changes := c.2.changes ++ [(s.gen.current, now c.1)] }),
    recoveries := s.tab.recoveries.map fun c =>
      (c.1, if fld 9 0 (nth 0 (was (0x20000 + c.1)) 0) / 4 * 2 + fld 0 0 (nth 0 (was (0x20000 + c.1)) 0) =
          fld 9 0 (nth 0 (now (0x20000 + c.1)) 0) / 4 * 2 + fld 0 0 (nth 0 (now (0x20000 + c.1)) 0) then c.2
        else { c.2 with changes := c.2.changes ++ [s.gen.current] }) } }

/-- Tokens for the time up to `t`: with one rate what C cannot hold goes to E (RFC 2697), with two each bucket has its own
(RFC 2698). A level above the burst size of an older generation's frame stays. -/
def meterRefill (ws : List Nat) (t : Nat) (m : Meter) : Meter :=
  let d := t - m.last.getD t
  let add := nth 0 ws 1 * d
  let cap (lvl add burst : Nat) : Nat := max lvl (min burst (lvl + add))
  let m1 := if fld 1 0 (nth 0 ws 0) = 1 then
      { m with c := cap m.c add (burstC ws), e := cap m.e (add - (cap m.c add (burstC ws) - m.c)) (burstE ws) }
    else { m with c := cap m.c add (burstC ws), e := cap m.e (nth 0 ws 2 * d) (burstE ws) }
  { m1 with last := some (max t (m.last.getD t)) }

/-- The colour of a frame of `n` parts: 0 green, 1 yellow, 2 red; and the meter after it. -/
def meterColour (mode n : Nat) (yellow : Bool) (m : Meter) : Nat × Meter :=
  if mode = 1 then
    if !yellow && decide (n ≤ m.c) then (0, { m with c := m.c - n })
    else if n ≤ m.e then (1, { m with e := m.e - n })
    else (2, m)
  else if m.e < n then (2, m)
  else if yellow || decide (m.c < n) then (1, { m with e := m.e - n })
  else (0, { m with c := m.c - n, e := m.e - n })

/-- Step 7, by meter `k` of the slice. -/
def stepMeter (k : Nat) (w : Slice) : Slice :=
  let i := 0x10000 + 8192 * w.sl + k
  let ws := hgtWords w.s w.x.par i
  let a := nth 0 ws 0
  let mode := fld 1 0 a
  if mode = 0 then w
  else
    let m := meterRefill ws w.x.ts (meterRenew ws w.x.gen (meterAt w.s i))
    let o := meterColour mode (w.x.bytes.length * meterByte) (bit 2 a && outerDei w.x.parsed) m
    let w1 := w.on (setMeter i { o.2 with ctr := bump o.1 o.2.ctr })
    let drop (w : Slice) : Slice := w.headgate 0xA (R.hgtMeterDrop w.sl)
    match o.1, fld 4 3 a with
    | 0, _ => w1
    | 1, 1 => drop w1
    | 1, 2 => { w1 with x := { w1.x with dei := true } }
    | 1, _ => w1
    | _, _ => if bit 5 a then w1 else drop w1

/-! ## Steps 3 to 7 -/

/-- The headgates of a frame of a stream, and its meter. -/
def stepHeadgates (w : Slice) : Slice :=
  let h := w.x.stream
  let ws := if h = 0xFFFF then [] else streamWords w.s w.x.par h
  let a := nth 0 ws 0
  let b := nth 0 ws 1
  let x := { w.x with fr := bit 0 b, lateDrop := w.x.lateDrop || (bit 0 b && bit 1 b) }
  let filter := fld 13 1 a
  let w1 := { w with x := x }
  let w2 := if bit 0 a then (w1.andThen (stepFilter filter)).andThen (stepGate filter) else w1
  let w3 := if bit 14 a then w2.andThen (stepRecovery (fld 28 15 a)) else w2
  match (w3.filterMeter.orElse fun _ => w3.ruleMeter) with
  | some k => w3.andThen (stepMeter k)
  | none => w3

/-- RESIDENCE_NS of a frame's stream in its parity. -/
def residenceOf (s : State) (x : Frame) : Nat := fld 21 2 (nth 0 (streamWords s x.par x.stream) 1)

end Sys2Proof.Machine
end

