-- ==== Sys2Proof/Machine/HealthOps.lean ====
section
/-! DEFINITION. The health map in MRAM (R518, R519). -/

namespace Sys2Proof.Machine

open Sys2Proof

/-- One byte of the health map, and a little-endian number of `k` bytes of it. -/
def healthByte (s : State) (o : Nat) : Nat := (memByte s.mram.health o).toNat
def healthNum (s : State) (o k : Nat) : Nat := ofLE (memRead s.mram.health o k)

/-- Writing bytes of the map. -/
def healthPut (o : Nat) (bs : List Byte) (s : State) : State :=
  { s with mram := { s.mram with health := memWrite s.mram.health o bs } }

/-- Both check sums are brought up to date (R518). -/
def healthSeal (s : State) : State :=
  healthPut 0x50C (toLE 4 (crc32 (memRead s.mram.health 0x40 0x4CC)))
    (healthPut 0x3C (toLE 4 (crc32 (memRead s.mram.health 0 0x3C))) s)

/-- HEALTH_VALID (R518). -/
def healthValid (s : State) : Bool :=
  healthNum s 0 4 == 0x50414D48 && healthNum s 4 2 == 1 &&
    healthNum s 0x3C 4 == crc32 (memRead s.mram.health 0 0x3C) && healthNum s 0x50C 4 == crc32 (memRead s.mram.health 0x40 0x4CC)

/-- The map is marked partial. -/
def healthPartial (s : State) : Bool := bit 16 (healthNum s 4 4)

/-- Where a unit's entry lies, by KIND and INDEX of R500; bank groups have none. -/
def healthOff (kind idx : Nat) : Option Nat :=
  match kind with
  | 0 => some (0xA0 + idx) | 1 => some (0x40 + idx) | 2 => some (0x1A0 + idx) | 3 => some (0x1E0 + idx)
  | 4 => some (0x220 + idx) | 6 => some (0x250 + idx) | 7 => some (0x460 + idx) | 8 => some 0x4E0 | 9 => some (0x40 + idx)
  | _ => none

/-- The offset is an entry's (R524, R525). -/
def healthEntry (o : Nat) : Bool :=
  decide (0x40 ≤ o) && decide (o ≤ 0x50B) && !(decide (0x458 ≤ o) && decide (o < 0x460)) &&
    !(decide (0x4E1 ≤ o) && decide (o < 0x4E8)) && decide (o < 0x508)

/-- An entry is written, and FAILED counts the entries with RESULT 2 or 3. -/
def healthMark (o v : Nat) (s : State) : State :=
  let s1 := healthPut o (toLE 1 v) s
  let failed := ((s1.mram.health.filter fun c => healthEntry c.1 && decide (2 ≤ c.2.toNat % 4)).length)
  healthSeal (healthPut 0x22 (toLE 2 failed) s1)

/-- A block of an island fails in PARK (R45, R58): its entry takes RESULT 2, with the cause of the scan. -/
def healthFail (island : Nat) (s : State) : State := healthMark (0x40 + island) 0x12 s

/-- PARK begins a fresh map: the header, marked partial until the last wave (R59, R518). -/
def healthBegin (s : State) : State :=
  let b := toLE 4 0x50414D48 ++ toLE 4 (1 + 2 ^ 16) ++ toLE 4 (healthNum s 8 4 + 1) ++ toLE 4 12 ++ toLE 8 (tSec s.now) ++
    toLE 4 (tNs s.now) ++ toLE 4 (unsgn 16 s.therm.temps.die + s.mram.parkCap * 2 ^ 16) ++ toLE 2 0
  healthSeal (healthPut 0 b s)

end Sys2Proof.Machine
end

