-- ==== Sys2Proof/Machine/Protect.lean ====
section
/-! DEFINITION. Protected items, the two-party commit, the warden window's commands, zeroisation (04_setup_protection,
R139 to R158). -/

namespace Sys2Proof.Machine

open Sys2Proof

/-! ## Parties -/

/-- The code of a party in PROTECT events (R109). -/
def partyCode : Party → Nat
  | .pf0 => 0 | .pf1 => 1 | .side => 2

/-- The party that PARTY_SEL names as warden (R66, R149). -/
def wardenParty (s : State) : Party := if s.dev.partySel = 1 then .side else .pf1

/-- The warden window answers: the side port in every mode once the supplies are in range (R49, R153), PF1 where the host has
full access (R44). -/
def windowOpen (s : State) (p : Party) : Bool :=
  match p with
  | .side => s.pins.supplies
  | .pf1 => hostOpen s
  | .pf0 => false

/-! ## Items (R139) -/

/-- The number of value words a STAGE of an item must name; any for PROTECT_COMMIT (R149). -/
def itemCount : Nat → Option Nat
  | 2 => some 16 | 3 => some 1 | 4 => some 1 | 5 => some 1 | 6 => some 1 | 7 => some 8 | 8 => some 8 | _ => none

/-- The OFFSET of an item in PROTECT events (R139); 0 for an image's section. -/
def itemOffset : Nat → Nat
  | 1 => 0x30004 | 2 => 0x30100 | 3 => 0x30140 | 4 => 0x30144
  | 5 => 0x30148 | 6 => 0x70054 | 7 => 0x300A0 | 8 => 0x300C0 | _ => 0

/-- A STAGE names a right item, count and mode: DEBUG_ENABLE only in STAGE (R149, R156). -/
def itemOk (s : State) (item count : Nat) : Bool :=
  if item = 1 then true
  else
    match itemCount item with
    | none => false
    | some c => decide (count = c) && (decide (item ≠ 5) || decide (s.md.mode = .stage))

/-- The words of PRT_MAP, PRT_GRANT_PMU and PRT_ENABLE, 18 in all (R139). -/
def protWords (s : State) : List Nat :=
  ((List.range 16).map fun k => rg s (R.prtMap k)) ++ [rg s R.prtGrantPmu, rg s R.prtEnable]

/-- The values that an item's change carries: the device supplies those of PROTECT_COMMIT (R139). -/
def stagedValues (s : State) (item count : Nat) : List Nat :=
  if item = 1 then protWords s else (List.range count).map fun k => rg s (R.prtStageVal k)

/-- The record whose SHA-256 is D (R148). -/
def digestRecord (unique nonce item : Nat) (vals : List Nat) : List Byte :=
  toLE 8 unique ++ toLE 8 nonce ++ toLE 4 (item + vals.length % 256 * 2 ^ 8) ++ bytesOfWords vals

/-- Bytes held in consecutive registers, byte 0 in bits [7:0] of the first (R148). -/
def regBytes (s : State) (off : Nat → Nat) (k : Nat) : List Byte :=
  bytesOfWords ((List.range k).map fun i => rg s (off i))

/-- Writing PRT_MAP keeps bits 0, 2, 3 and 4 of its first word at 0 (R142). -/
def mapMask (k v : Nat) : Nat := if k = 0 then v - (v &&& 0x1D) else v

/-! ## Zeroisation (R154, R155) -/

/-- The 16 bytes of a zeroisation record (R154). -/
def zeroRecord (seq cause : Nat) (erased wasSealed : Bool) (t : Nat) : List Byte :=
  toLE 4 seq ++ toLE 4 (cause + b2n erased * 16 + b2n wasSealed * 32) ++ toLE 4 (tSec t) ++ toLE 4 (tNs t)

/-- Step 2 of R155: every secret is overwritten with zeros, with the copies of keys in PRT_KEY and W_KEY; a nonce that has been used
is no secret and stays (R149). A pending change is gone without a PROTECT event of its own (assumption 143). -/
def wipeSecrets (erase : Bool) (s0 : State) : State :=
  let s := forAll (fun k => setRg (R.prtKey k) 0) (List.range 8) s0
  { s with
    prot := { s.prot with ko := none, kw := none, nonce := if s.prot.nonceFresh then 0 else s.prot.nonce, nonceFresh := false,
                          pending := none, rng := 0 },
    side := { s.side with key := List.replicate 8 0 },
    mram := if erase then { s.mram with vaultKo := none, vaultKw := none } else s.mram }

/-- Step 3 of R155: the record is written to MRAM and PRT_ZERO_LAST. -/
def recordZeroisation (cause : Nat) (erased wasSealed : Bool) (s : State) : State :=
  let n := s.mram.zeroCount + 1
  let r := zeroRecord n cause erased wasSealed s.now
  { s with
    mram := { s.mram with zeroCount := n, zeroLog := kvPut ((n - 1) % 32) r s.mram.zeroLog },
    prot := { s.prot with zeroLast := r } }

/-- A zeroisation (R155): the recorder seals, the secrets are wiped, the record is written where MRAM takes it, the
warden is told, the vault is blocked unless it was erased. The event's PARTY is 0 where none acted, as at PARK entry; where MRAM cannot
take the record, PRT_ZERO_LAST and PRT_ZERO_COUNT stay and steps 4 and 5 go on (DESIGN CHOICE, assumption 17). -/
def zeroise (cause : Nat) (erase mramOk : Bool) (s : State) : State :=
  let wasSealed := recHasOpen s
  let s1 := wipeSecrets erase (recDropKey (recSealOpen 5 s))
  let s2 := whenDo mramOk (recordZeroisation cause erase wasSealed) s1
  let s3 := emit 0xF 4 95 [0x30180] (wEvent 3 s2)
  { s3 with prot := { s3.prot with vaultBlocked := s3.prot.vaultBlocked || !erase } }

/-- PRT_DEBUG opens (R156, R157). -/
def openDebug (scan dbg : Bool) (s : State) : State :=
  { s with prot := { s.prot with scanActive := scan, debugActive := dbg } }

/-! ## The pending change -/

/-- PRT_STATUS.LAST_RESULT. -/
def setResult (r : Nat) (s : State) : State := { s with prot := { s.prot with lastResult := r } }

/-- The pending change is gone. -/
def dropPending (s : State) : State := { s with prot := { s.prot with pending := none } }

/-- The pending change is discarded: LAST_RESULT and a PROTECT event of type 3 (R147, R149). -/
def discardPending (result party : Nat) (s : State) : State :=
  match s.prot.pending with
  | none => s
  | some p => setResult result (emitProtect 3 (itemOffset p.item) party p.item (dropPending s))

/-- The length of the confirmation window (R147). -/
def windowLen : Nat := msT 10000

/-- A change whose window has closed is discarded before anything else is done with it (R147). -/
def expirePending (s : State) : State :=
  match s.prot.pending with
  | none => s
  | some p => if p.opened + windowLen ≤ s.elapsed then discardPending 5 0 s else s

/-- A confirmed item takes effect (R139). RECORDER_KEY with a value other than 1 confirms and does nothing (assumption 141). -/
def applyItem (item : Nat) (vals : List Nat) (mramOk : Bool) (s : State) : State :=
  match item with
  | 1 => { s with prot := { s.prot with committed := true } }
  | 2 => forAll (fun k => setRg (R.prtMap k) (mapMask k (nth 0 vals k))) (List.range 16) s
  | 3 => setRg R.prtGrantPmu (nth 0 vals 0 % 2 ^ 30) s
  | 4 => setRg R.prtEnable (nth 0 vals 0 % 4) s
  | 5 =>
    let s1 := zeroise 2 false mramOk s
    whenDo mramOk (openDebug (bit 0 (nth 0 vals 0)) (bit 1 (nth 0 vals 0))) s1
  | 6 => whenDo (fld 3 0 (nth 0 vals 0) == 1) recRotateKey s
  | 7 =>
    { s with
      prot := { s.prot with ko := some (bytesOfWords vals) },
      mram := { s.mram with vaultKo := some (bytesOfWords vals), keyGenOp := (s.mram.keyGenOp + 1) % 2 ^ 16 } }
  | 8 =>
    { s with
      prot := { s.prot with kw := some (bytesOfWords vals) },
      mram := { s.mram with vaultKw := some (bytesOfWords vals), keyGenWd := (s.mram.keyGenWd + 1) % 2 ^ 16 } }
  | _ => s

/-! ## The operator's commands -/

/-- NEW_NONCE draws a 64-bit nonce into PRT_NONCE (R146). -/
def newNonce (s : State) : State :=
  setResult 1 (drew { s with prot := { s.prot with nonce := draw s % 2 ^ 64, nonceFresh := true, rng := draw s } })

/-- NEW_NONCE. -/
def execNewNonce (s : State) : Host.Outcome State Fault Refusal := .next (whenDo (hostOpen s) newNonce s)

/-- The result of a STAGE's checks, in their order (R146): none where it is accepted. -/
def stageRefusal (s : State) (item count : Nat) : Option Nat :=
  if s.prot.pending.isSome then some 8
  else
    match s.prot.ko, s.prot.kw with
    | some ko, some _ =>
      if !itemOk s item count then some 12
      else if !s.prot.nonceFresh then some 9
      else
        let d := sha256 (digestRecord s.dev.uniqueId s.prot.nonce item (stagedValues s item count))
        if regBytes s R.prtOpMac 8 = hmac ko d then none else some 10
    | _, _ => some 11

/-- A STAGE (R146): refused with its LAST_RESULT, or the window opens; the nonce is void either way. -/
def stageChange (item count : Nat) (s : State) : State :=
  let s1 := { s with prot := { s.prot with nonceFresh := false } }
  match stageRefusal s item count with
  | some r => setResult r s1
  | none =>
    let vals := stagedValues s item count
    let d := sha256 (digestRecord s.dev.uniqueId s.prot.nonce item vals)
    let p : Pending := ⟨item, vals.length, vals, s.prot.nonce, d, s.elapsed⟩
    setResult 2 (emitProtect 1 (itemOffset item) 0 item
      { s1 with prot := { s1.prot with pending := some p, digest := d } })

/-- STAGE. A window that has closed is expired first. -/
def execStage (item count : Nat) (s : State) : Host.Outcome State Fault Refusal :=
  .next (whenDo (hostOpen s) (fun s => stageChange (item % 256) (count % 32) (expirePending s)) s)

/-- WITHDRAW discards the pending change (R147). -/
def execWithdraw (s : State) : Host.Outcome State Fault Refusal :=
  .next (whenDo (hostOpen s) (fun s => discardPending 6 0 (expirePending s)) s)

/-- PROVISION_OP_KEY (R145). -/
def provisionOpKey (s : State) : State :=
  if s.prot.vaultBlocked then setResult 15 s
  else if s.mram.vaultKo.isSome then setResult 14 s
  else
    let k := regBytes s R.prtKey 8
    { s with prot := { s.prot with ko := some k }, mram := { s.mram with vaultKo := some k, keyGenOp := 0 } }

/-- PROVISION_OP_KEY. -/
def execProvisionOpKey (s : State) : Host.Outcome State Fault Refusal :=
  .next (whenDo (hostOpen s) provisionOpKey s)

/-! ## The warden's commands -/

/-- A W_CMD write by a party: refused under R144 from the party that is not the warden. -/
def asWarden (p : Party) (f : State → State) (s : State) : State :=
  if !windowOpen s p then s
  else if p = wardenParty s then f s
  else violation 4 (partyCode p) s

/-- CONFIRM: one attempt; a match applies the change, a mismatch discards it (R147). With nothing pending it only counts
in PRT_VIOLATIONS (R144). -/
def confirmChange (p : Party) (mramOk : Bool) (s : State) : State :=
  match s.prot.pending, s.prot.kw with
  | some c, some kw =>
    if bytesOfWords s.side.confirm = hmac kw c.digest then
      applyItem c.item c.values mramOk
        (setResult 3 (emitProtect 2 (itemOffset c.item) (partyCode p) c.item (dropPending s)))
    else discardPending 4 (partyCode p) s
  | _, _ => incRg R.prtViolations s

/-- CONFIRM. -/
def execConfirm (p : Party) (mramOk : Bool) (s : State) : Host.Outcome State Fault Refusal :=
  .next (asWarden p (fun s => confirmChange p mramOk (expirePending s)) s)

/-- REJECT discards the pending change (R147). -/
def execReject (p : Party) (s : State) : Host.Outcome State Fault Refusal :=
  .next (asWarden p (fun s => discardPending 7 (partyCode p) (expirePending s)) s)

/-- PROVISION of the warden key (R145). -/
def provisionWdKey (s : State) : State :=
  if s.prot.vaultBlocked then setResult 15 s
  else if s.mram.vaultKw.isSome then setResult 14 s
  else
    let k := bytesOfWords s.side.key
    { s with prot := { s.prot with kw := some k }, mram := { s.mram with vaultKw := some k, keyGenWd := 0 } }

/-- PROVISION. -/
def execProvision (p : Party) (s : State) : Host.Outcome State Fault Refusal := .next (asWarden p provisionWdKey s)

/-- PROTECT_WINDOW_EXPIRY: 10,000 ms after the STAGE the change is discarded (R147). -/
def execProtectWindowExpiry (s : State) : Host.Outcome State Fault Refusal :=
  .next (match s.prot.pending with
    | none => s
    | some p => expirePending (reachElapsed (p.opened + windowLen) s))

/-- FLR_PF1: counted, and a change still pending is discarded (R72, R147). -/
def execFlrPf1 (s : State) : Host.Outcome State Fault Refusal :=
  .next (discardPending 13 1 (expirePending (countFlr true s)))

/-- How a JTAG instruction acts: INT_SCAN and DEBUG as BYPASS unless PRT_DEBUG has the matching bit set (R157). -/
def jtagActs (s : State) (ir : Jtag) : Jtag :=
  match ir with
  | .intScan => if s.prot.scanActive then .intScan else .bypass
  | .debug => if s.prot.debugActive then .debug else .bypass
  | i => i

/-- The bits that a Shift-DR of 32 bits drives on TDO, the first lowest: the bypass register gives its captured 0 and then what goes in;
what the boundary register, the chains and the register of ZEROISE_ALL capture is not stated, and free (R157, assumption 177). -/
def tapOut (acts : Jtag) (dr : Word) (s : State) : Nat :=
  match acts with
  | .bypass => 2 * dr.toNat % 2 ^ 32
  | _ => draw s % 2 ^ 32

/-- One scan of the JTAG port: an instruction comes into force, a data register shifts `dr` and updates. SAMPLE/PRELOAD and EXTEST update
the boundary register; INT_SCAN shifts the chains of the islands in state 2 (R157, R521). -/
def tapScan (ir : Jtag) (dr : Word) (s : State) : State :=
  let acts := jtagActs s ir
  let t := s.pins.tap
  let s1 := drew { s with pins := { s.pins with tap :=
    { ir := ir, tdo := tapOut acts dr s, boundary := if acts = .sample ∨ acts = .extest then dr.toNat else t.boundary } } }
  if acts = .intScan then
    { s1 with svc := { s1.svc with scanned :=
      (s1.svc.scanned ++ (List.range 92).filter fun i => unitSt s 9 i == 2).eraseDups } }
  else s1

/-- ZEROISE_ALL: a JTAG Update-DR under an instruction, whatever RESET_N and the mode, while the rails are in range; with TRST_N low
(`trst`) the TAP is in reset and its instruction is BYPASS. Under ZEROISE_ALL a value of 0xA55A_C3C3 in STAGE runs R155 with the vault
erased and sets both PRT_DEBUG bits; any other value, mode or instruction does nothing of it (R157, R533). -/
def execZeroiseAll (ir : Jtag) (dr : Word) (trst mramOk : Bool) (s : State) : Host.Outcome State Fault Refusal :=
  .next (if !s.pins.supplies then s
    else if trst then { s with pins := { s.pins with tap := { s.pins.tap with ir := .bypass } } }
    else whenDo (decide (ir = .zeroiseAll) && decide (dr = 0xA55AC3C3) && decide (s.md.mode = .stage))
      (fun s => whenDo mramOk (openDebug true true) (zeroise 3 true mramOk s)) (tapScan ir dr s))

end Sys2Proof.Machine
end

