-- ==== Sys2Proof/Machine/Modes.lean ====
section
/-! DEFINITION. Operating modes, the mode commands, fatal faults and the fence (02_modes). -/

namespace Sys2Proof.Machine

open Sys2Proof

/-! ## Into RESET and out of it (R45, R46, R69) -/

/-- What every entry into RESET leaves: registers, tables, frames and secrets are gone; MRAM, the warden's event
registers, the straps' and the part's fixed values, the sensors, the pins outside and host memory stay (R69, R152). GLB_DATE_HINT has no
reset value in the spec: its value stays, only its being written is forgotten (DESIGN CHOICE, assumption 178). -/
def enterReset (byCommand : Bool) (s : State) : State :=
  { State.reset with
    md := { byFullReset := byCommand },
    dev := s.dev,
    pins := { resetN := s.pins.resetN, perstN := s.pins.perstN, supplies := s.pins.supplies, tap := s.pins.tap },
    side := { s.side with confirm := List.replicate 8 0, key := List.replicate 8 0, dateHintWritten := false },
    mram := s.mram, therm := { s.therm with supplyAt := none }, hmem := s.hmem, free := s.free,
    pending := s.pending }

/-- The filter of RESET_N passes a low level of `ns` nanoseconds: never below 900, always from 1,100 on, and between them as the
threshold of this part lies (R540). -/
def resetPasses (s : State) (ns : Nat) : Bool := decide (1100 ≤ ns) || (decide (900 ≤ ns) && bit 0 (draw s))

/-- RESET_N_LOW: RESET_N has been low for `ns` nanoseconds; what the filter ignores changes nothing (R45, R540). -/
def execResetNLow (ns : Nat) (s : State) : Host.Outcome State Fault Refusal :=
  let s1 := whenDo (decide (900 ≤ ns) && decide (ns < 1100)) drew s
  .next (whenDo (resetPasses s ns) (fun s => enterReset false { s with pins := { s.pins with resetN := false } }) s1)

/-- The keys are loaded from the vault into the volatile store at WAKE step 2 (R154). -/
def loadKeys (s : State) : State :=
  { s with prot := { s.prot with ko := s.mram.vaultKo, kw := s.mram.vaultKw } }

/-- An HBM stack reads below 0 °C. -/
def stackCold (t : Temps) : Bool := decide (t.hbm0 < 0) || decide (t.hbm1 < 0) || decide (t.hbm2 < 0) || decide (t.hbm3 < 0)

/-- A change of mode with its event (R45): the transition, if any, ends. -/
def setMode (new : Mode) (cmd fault t : Nat) (s : State) : State :=
  let old := s.md.mode
  emitMode old new s.md.fenced cmd fault t
    { s with md := { s.md with mode := new, transition := false, target := .reset } }

/-- The WAKE steps begin (R46): straps sampled, keys loaded, a new sealing key drawn (R154), master time restarts (R233),
while the reading of the stacks waits for step 4 (R48). -/
def beginWake (st : Straps) (s : State) : State :=
  let s1 : State := { s with
    now := 0,
    elapsed := 0,
    dev := { s.dev with bootSel := st.bootSel % 4, partySel := st.partySel % 2, sideAddr := st.sideAddr % 8 },
    md := { s.md with byFullReset := false, wakeStep := 1 } }
  setMode .wake 0 0 0 (recNewKey (loadKeys s1))

/-- WAKE step 4 (R46, R48): once the reference is found, the stacks' temperatures are read; an LK8256-AE with a stack below 0 °C
holds there and warms itself with the lesser of 150 W and the PARK cap. -/
def readStacks (s : State) : State :=
  if s.md.mode = .wake ∧ s.md.coreRef ≠ 0 ∧ s.md.tempsRead = false then
    let t := s.therm.temps
    let warm := s.dev.codeAE && stackCold t
    { s with md := { s.md with
        tempsRead := true, coldAtWake := stackCold t, dieAtWake := t.die, warming := warm, warmed := warm,
        warmFrom := s.elapsed, warmW := if warm then min 150 s.mram.parkCap else 0, wakeStep := max s.md.wakeStep 4 } }
  else s

/-- RESET_N_HIGH: RESET_N rises; from RESET the WAKE steps begin, once the supplies are in range (R45, R540). -/
def execResetNHigh (st : Straps) (s : State) : Host.Outcome State Fault Refusal :=
  let s1 := { s with pins := { s.pins with resetN := true } }
  .next (whenDo (decide (s.md.mode = .reset) && s.pins.supplies && !s.pins.resetN) (beginWake st) s1)

/-- The host may write GLB registers: WAKE and the modes with full access (R44, R49). -/
def glbOpen (s : State) : Bool :=
  match s.md.mode with
  | .reset | .park => false
  | _ => true

/-- In PARK BAR0 answers until the last wave, in which the PCIe link goes down (R58). -/
def parkAnswers (s : State) : Bool := decide (s.md.mode = .park) && decide (s.md.wave < 12) && !s.md.parkDone

/-- FULL_RESET can be written: also in PARK while the link stands, for R45 has it act in every mode (assumption 12). -/
def resetOpen (s : State) : Bool := glbOpen s || parkAnswers s

/-- The result of a mode command: LAST_CMD and CMD_STATUS (R64). -/
def cmdResult (cmd status : Nat) (s : State) : State :=
  { s with md := { s.md with lastCmd := cmd, cmdStatus := status } }

/-- FULL_RESET: a GLB_MODE_CMD write with CMD 0xF; a wrong KEY is refused with status 7 (R65), but in PARK
ignored (R58). -/
def execFullReset (w : Word) (s : State) : Host.Outcome State Fault Refusal :=
  .next (whenDo (resetOpen s)
    (fun s => if fld 31 16 w.toNat = 0x5AFE then enterReset true s else whenDo (glbOpen s) (cmdResult 0xF 7) s) s)

/-- FULL_RESET_TIMEOUT: 1 ms after a FULL_RESET the straps are sampled again and WAKE begins; with RESET_N low the device
stays in RESET until RESET_N rises (R45). -/
def execFullResetTimeout (st : Straps) (s : State) : Host.Outcome State Fault Refusal :=
  .next (whenDo (decide (s.md.mode = .reset) && s.md.byFullReset)
    (fun s => if s.pins.resetN then beginWake st s else { s with md := { s.md with byFullReset := false } }) s)

/-! ## Fatal faults (R60 to R63) -/

/-- The 64 bytes of a fault record (R63). -/
def faultRecordBytes (seq : Nat) (f : FaultRec) (gen fenced : Nat) (die : Int) : List Byte :=
  let b := toLE 4 seq ++ toLE 4 (f.code + f.island * 2 ^ 16 + f.mode.code * 2 ^ 24) ++ toLE 8 (tSec f.time) ++
    toLE 4 (tNs f.time) ++ toLE 4 gen ++ toLE 4 (unsgn 16 die) ++ toLE 4 fenced ++
    ((List.range 6).flatMap fun i => toLE 4 (nth 0 f.detail i)) ++ toLE 4 0
  b ++ toLE 4 (crc32 b)

/-- Writing a fault record into the MRAM log: slot 0 keeps the first since the last acknowledgement, the ring of slots 1
to 15 the latest (R63). That the first goes into the ring as well is DEDUCED (assumption 131). -/
def logFault (f : FaultRec) (s : State) : State :=
  let m := s.mram
  let seq := m.faultSeq + 1
  let b := faultRecordBytes seq f s.gen.current (if f.fencing then s.fencedCount else 0) s.therm.temps.die
  let log1 := kvPut m.faultNext b m.faultLog
  { s with mram := { m with
      faultSeq := seq,
      faultLog := if m.slot0Held then log1 else kvPut 0 b log1,
      slot0Held := true,
      faultNew := satTo 255 (m.faultNew + 1),
      faultNext := m.faultNext % 15 + 1 } }

/-- Fenced STAGE is entered (R45, R61), with its mode event where the mode changes; a device that was in STAGE is fenced in
place (assumption 16). -/
def enterFenced (code : Nat) (s : State) : State :=
  let s1 : State := { s with md := { s.md with
      fenced := true, faultPending := false, warming := false, warmW := 0, wakeStep := 0, transition := false, target := .reset,
      tRun := none, tDrain := none, draining := false } }
  if s.md.mode = .stage then s1 else setMode .stage 0 code s.now s1

/-- FAULT_N is asserted, W_EVENT.FATAL is set and the FAULT event of type 0 is sent (R61, R103, R152); GLB_FAULT_STATUS
shows the fencing fault (R67). -/
def assertFault (code island : Nat) (detail : List Nat) (s : State) : State :=
  let s1 := emitFault 0 code island (nth 0 detail 0 + nth 0 detail 1 * 2 ^ 32) (wEvent 6 s)
  { s1 with pins := { s1.pins with faultN := true } }

/-- A fatal fault is told to the warden and the event ring, and its record waits to be written (R63, R105, R152). -/
def noteFault (f : FaultRec) (s : State) : State :=
  let s1 := emitFault 0 f.code f.island (nth 0 f.detail 0 + nth 0 f.detail 1 * 2 ^ 32) (wEvent 6 s)
  { s1 with md := { s1.md with faultRecs := s1.md.faultRecs ++ [f] } }

/-- A fatal fault fences, or ends WAKE, once its record is written: GLB_FAULT_STATUS shows it from now on. -/
def fencingFault (f : FaultRec) (s : State) : State :=
  { s with md := { s.md with
      faultPending := true, faultCode := f.code, faultIsland := f.island, faultRecs := s.md.faultRecs ++ [{ f with fencing := true }] } }

/-- An HBM controller island that a fatal fault names has failed: its logical channels are lost, their slots with them (R421, R476,
DEDUCED, assumption 175). -/
def failIsland (island : Nat) (s : State) : State :=
  let lost := (List.range 120).filter fun l => 88 + physicalOf s l / 32 == island && !s.svc.lostChannels.contains l
  if lost.isEmpty then s else noteChannels s { s with svc := { s.svc with lostChannels := lost ++ s.svc.lostChannels } }

/-- A fatal fault (R61). In RUN and DRAIN the fence falls, the frames inside get their fates, the recorder seals and freezes;
in STAGE there is no frame to fence. In WAKE codes 0x0007 to 0x000A end WAKE once the record is written (R45), and the
warden is told then (R152). Every other fault, and a further one while fenced, adds its record and leaves the mode: in PARK
the block is marked failed (R45). -/
def fatal (code island : Nat) (detail : List Nat) (s : State) : State :=
  let f : FaultRec := { code, island, mode := s.md.mode, time := s.now, detail }
  match s.md.mode with
  | .reset => noteFault f s
  | .park =>
    healthFail island (noteFault f { s with svc := { s.svc with parkFailed := (0x40 + island) :: s.svc.parkFailed } })
  | .wake => if 7 ≤ code ∧ code ≤ 10 ∧ s.md.faultPending = false then fencingFault f s else noteFault f s
  | m =>
    if s.md.faultPending || (s.md.fenced && decide (m = .stage)) then failIsland island (recFault code island (noteFault f s))
    else
      let s1 := assertFault code island detail (fencingFault f s)
      let s2 := failIsland island (recFault code island s1)
      if m = .run ∨ m = .drain then fenceFrames s2 else s2

/-- An error that the buffer core meets in reading a frame's cells (R404): 1 corrected, 2 an uncorrectable word of the frame's data, 3 an
uncorrectable sideband or frame record, which is the fatal fault BC_META. -/
def cellError (ecc f : Nat) (s : State) : State :=
  match ecc with
  | 1 => incRg R.bpmEccCorr s
  | 2 => modFrame f (fun x => { x with damaged := true }) (stickRg R.bpmStatus 7 (incRg R.bpmEccUncorr s))
  | 3 => fatal 0x0001 92 [] s
  | _ => s

/-- A copy at an internal port is read, with what the buffer core finds (R404), and goes on unless that fences forwarding (R61). -/
def readThen (ecc : Nat) (c : Copy) (f : State → State) (s : State) : State :=
  let s1 := cellError ecc c.frame s
  if fenceShut s1 then s1 else f s1

/-- FATAL_FAULT: a fault of R60 is detected. -/
def execFatalFault (code island : Nat) (detail : List Nat) (s : State) : Host.Outcome State Fault Refusal :=
  .next (fatal (code % 2 ^ 16) (island % 2 ^ 8) detail s)

/-- MGMT_WATCHDOG: fatal fault 0x0004 of the management island (R60). -/
def execMgmtWatchdog (s : State) : Host.Outcome State Fault Refusal := .next (fatal 0x0004 95 [] s)

/-- The records that wait are written, the oldest first; where MRAM cannot be written, the first one's DETAIL words stay in the
DETAIL registers (R63). -/
def writeFaults (mramOk : Bool) (s : State) : State :=
  let s1 : State := { s with md := { s.md with faultRecs := [] } }
  if mramOk then forAll logFault s.md.faultRecs s1
  else match s.md.faultDetail, s.md.faultRecs with
    | [], f :: _ => { s1 with md := { s1.md with faultDetail := (List.range 6).map fun i => nth 0 f.detail i } }
    | _, _ => s1

/-! ## GLB_WAKE_INFO (R47, R66) -/

/-- The age of the cache in seconds: by the date hint written while RESET_N was low, else by powered time. -/
def cacheAge (s : State) (poweredSec : Nat) : Nat :=
  if s.side.dateHintWritten then s.side.dateHint - s.mram.cache.createdSec else poweredSec

/-- The grounds of a full calibration: forced, by temperature, by age. -/
def calGrounds (s : State) (poweredSec : Nat) : Bool × Bool × Bool :=
  let c := s.mram.cache
  let forced := decide (s.dev.bootSel = 3) || !c.headerOk || !healthValid s
  let temp := c.headerOk && decide (400 < (s.md.dieAtWake - c.dieTemp).natAbs)
  let age := c.headerOk && decide (7 * 86400 < cacheAge s poweredSec)
  (forced, temp, age)

/-- The fields above the straps, at their places; those of the calibration only where WAKE came to it. -/
def wakeInfoWord (s : State) (poweredSec : Nat) (mramOk calibrated loaded failed : Bool) : Nat :=
  let g := calGrounds s poweredSec
  b2n (mramOk && s.mram.cache.headerOk) * 2 ^ 6 + b2n (mramOk && healthValid s) * 2 ^ 7 +
    b2n (mramOk && healthValid s && healthPartial s) * 2 ^ 8 + b2n (calibrated && g.2.2) * 2 ^ 9 +
    b2n (calibrated && g.2.1) * 2 ^ 10 + b2n (calibrated && g.1) * 2 ^ 11 +
    b2n (calibrated && !s.side.dateHintWritten) * 2 ^ 12 + b2n loaded * 2 ^ 13 + b2n failed * 2 ^ 14 +
    b2n s.md.warmed * 2 ^ 15 + satTo 0xFFFF (s.elapsed / msT 16) * 2 ^ 16

/-- GLB_WAKE_INFO is filled in. -/
def fillWakeInfo (poweredSec : Nat) (mramOk calibrated loaded failed : Bool) (s : State) : State :=
  { s with md := { s.md with wakeInfo := wakeInfoWord s poweredSec mramOk calibrated loaded failed, wakeStep := 0 } }

/-- A fault ends WAKE in fenced STAGE before any calibration: GLB_WAKE_INFO as far as WAKE came, FAULT_N, the warden told, links
may come up (R44, R45, R66, R152). -/
def wakeEndsFenced (code island : Nat) (detail : List Nat) (mramOk : Bool) (s : State) : State :=
  let s1 := fillWakeInfo s.mram.cache.poweredSec mramOk false false false s
  linksEval (enterFenced code (assertFault code island detail s1))

/-- FAULT_RECORD_WRITTEN: the records are in MRAM, or held in GLB_FAULT_STATUS and the DETAIL registers where MRAM cannot be
written, and a device whose forwarding is being fenced enters fenced STAGE (R61, R63). From DRAIN it sends XON as it leaves
(R55). -/
def execFaultRecordWritten (mramOk : Bool) (s : State) : Host.Outcome State Fault Refusal :=
  .next (
    let s1 := writeFaults mramOk s
    if !s.md.faultPending then s1
    else if s.md.mode = .wake then wakeEndsFenced s.md.faultCode s.md.faultIsland [] mramOk s1
    else enterFenced s.md.faultCode (whenDo (decide (s.md.mode = .drain) && s.md.draining) portsXon s1))

/-! ## The end of warming (R48) -/

/-- The wake ends in fenced STAGE by a WAKE fault (R45): the record is written where MRAM allows. -/
def wakeFault (code island : Nat) (mramOk : Bool) (s : State) : State :=
  let f : FaultRec := { code, island, mode := .wake, time := s.now, detail := [] }
  wakeEndsFenced code island [] mramOk (writeFaults mramOk (fencingFault f s))

/-- WARMING_COMPLETE: all four stacks read 0 °C or above, and WAKE goes on with step 5 and the die temperature of this moment
(R48). -/
def execWarmingComplete (t : Temps) (s : State) : Host.Outcome State Fault Refusal :=
  .next (whenDo (decide (s.md.mode = .wake) && s.md.warming && !stackCold t)
    (fun s => { s with
      therm := { s.therm with temps := t, read := true },
      md := { s.md with warming := false, warmW := 0, warmTill := s.elapsed, dieAtWake := t.die, wakeStep := 5 } }) s)

/-! ## RUN and DRAIN (R52 to R57) -/

/-- A run or drain time: the present time plus at most 10 µs, a free choice of the device (R53, R54). -/
def effectTime (s : State) : Nat := s.now + draw s % (usT 10 + 1)

/-- The status of GO_RUN (R52, R64): 0 where all its conditions hold. -/
def goRunStatus (s : State) : Nat :=
  if s.md.mode ≠ .stage then 2
  else if fenceUp s then 3
  else if s.md.transition then 1
  else if !s.gen.completed then 4
  else if !s.prot.committed then 5
  else 0

/-- The transition to RUN begins: a run time is chosen (R53). -/
def startRun (s : State) : State :=
  drew { s with md := { s.md with transition := true, target := .run, tRun := some (effectTime s) } }

/-- GO_RUN (R52, R53). -/
def goRun (s : State) : State :=
  let st := goRunStatus s
  whenDo (st == 0) startRun (cmdResult 1 st s)

/-- GO_RUN. -/
def execGoRun (s : State) : Host.Outcome State Fault Refusal := .next (whenDo (glbOpen s) goRun s)

/-- RUN_TIME: master time reaches T_run, and the mode changes (R53). At the end of a WAKE that goes on to RUN the event names CMD 1, as
if GO_RUN had been written (DESIGN CHOICE, assumption 101). -/
def execRunTime (s : State) : Host.Outcome State Fault Refusal :=
  .next (match s.md.tRun with
    | none => s
    | some t =>
      whenDo (s.md.transition && decide (s.md.target = .run) && decide (s.md.mode = .stage) && !fenceUp s)
        (fun s => setMode .run 1 0 t (reach t s)) s)

/-- The status of a drain command (R45, R59, R64). -/
def drainStatus (toPark force : Bool) (s : State) : Nat :=
  if s.md.transition then 1
  else if s.md.mode = .run ∨ (toPark = true ∧ s.md.mode = .stage) then
    if toPark && !force && recHasFrozen s then 6 else 0
  else 2

/-- A drain command: the drain time is set (R54). -/
def drainCmd (toPark force : Bool) (s : State) : State :=
  let cmd := if toPark then 3 else 2
  let st := drainStatus toPark force s
  let s1 := cmdResult cmd st s
  if st = 0 then
    drew { s1 with md := { s1.md with transition := true, target := if toPark then .park else .stage,
                                      tDrain := some (effectTime s) } }
  else s1

/-- DRAIN_TO_STAGE. -/
def execDrainToStage (s : State) : Host.Outcome State Fault Refusal := .next (whenDo (glbOpen s) (drainCmd false false) s)

/-- DRAIN_TO_PARK. -/
def execDrainToPark (force : Bool) (s : State) : Host.Outcome State Fault Refusal :=
  .next (whenDo (glbOpen s) (drainCmd true force) s)

/-- DRAIN_TIME: master time reaches T_d: DRAIN is entered, descriptor fetch stops, XOFF goes out (R54, R55). -/
def execDrainTime (s : State) : Host.Outcome State Fault Refusal :=
  .next (match s.md.tDrain with
    | none => s
    | some t =>
      whenDo (s.md.transition && !s.md.draining && (decide (s.md.target = .stage) || decide (s.md.target = .park)))
        (fun s =>
          let tgt := s.md.target
          let s1 := setMode .drain (if tgt = .park then 3 else 2) 0 t (reach t s)
          portsXoff { s1 with md := { s1.md with transition := true, target := tgt, draining := true } }) s)

/-- Every in-flight count of the nine sets is zero (R56). -/
def drained (s : State) : Bool := inflight s 0 == 0 && inflight s 1 == 0

/-- PARK is entered (R58): zeroisation with CAUSE 1, a final snapshot, copies of the MAC statistics, links down without
XON (R55). The health map counts as partial until the last wave is done (R59). -/
def enterPark (mramOk : Bool) (s : State) : State :=
  let s1 := zeroise 1 false mramOk s
  let s2 := linksDown (takeSnapshot s1)
  let svc : Service :=
    { s2.svc with parkFrom := s2.elapsed, waveFrom := s2.elapsed, batches := 0, peakW := 0, capW := s2.mram.parkCap, parkFailed := [] }
  let s3 := healthBegin { s2 with svc := svc }
  setMode .park 0 0 s3.now { s3 with
    md := { s3.md with draining := false, tRun := none, tDrain := none, wave := 1 },
    pins := { s3.pins with tioOut := [], ppsOut := false },
    tim := { s3.tim with tioStart := [] } }

/-- DRAIN_COMPLETE: nothing is in flight and the recorder has written its records; it seals its open segment, and the
device enters STAGE with XON, or PARK (R56, R57). -/
def execDrainComplete (mramOk : Bool) (s : State) : Host.Outcome State Fault Refusal :=
  .next (whenDo (decide (s.md.mode = .drain) && s.md.draining && drained s && recIdle s && !s.md.faultPending)
    (fun s =>
      let s1 := recSealOpen 3 s
      if s.md.target = .park then enterPark mramOk s1
      else
        let s2 := portsXon { s1 with md := { s1.md with draining := false, tRun := none, tDrain := none } }
        setMode .stage 0 0 s2.now s2) s)

/-- DATE_HINT_WRITE: a side-port write of one word of GLB_DATE_HINT, taken in RESET and WAKE only (R67), once the supplies are
in range (R49). The low word is held until the high word comes (R9); a hint written while RESET_N is low is the one R47 uses. -/
def execDateHintWrite (high : Bool) (val : Word) (s : State) : Host.Outcome State Fault Refusal :=
  .next (whenDo (s.pins.supplies && (decide (s.md.mode = .reset) || decide (s.md.mode = .wake)))
    (fun s =>
      if high then
        { s with
          side := { s.side with
            dateHint := (kvGetD 0 R.glbDateHint s.lat.lowHeld).toNat + val.toNat * 2 ^ 32,
            dateHintWritten := s.side.dateHintWritten || (decide (s.md.mode = .reset) && !s.pins.resetN) },
          lat := { s.lat with lowHeld := kvDel R.glbDateHint s.lat.lowHeld } }
      else { s with lat := { s.lat with lowHeld := kvPut R.glbDateHint val s.lat.lowHeld } }) s)

end Sys2Proof.Machine
end

