-- ==== Sys2Proof/Machine/CmdOps.lean ====
section
/-! DEFINITION. Table commands: the descriptor of R97 as its senders hand it over (a command ring, the table command
register, an image), the checks every target shares (R99, R142), holding (R352) and the write-back (R97, R337). -/

namespace Sys2Proof.Machine

open Sys2Proof

/-! ## Descriptors -/

/-- A word, a byte string of a command's body at a descriptor offset (R97): the body begins at 0x08, or at 0x14 with a
data buffer. -/
def bodyAt (c : Cmd) (off k : Nat) : List Byte := (c.body.drop (off - if c.long.isSome then 0x14 else 0x08)).take k
def bodyWord (c : Cmd) (off : Nat) : Nat := ofLE (bodyAt c off 4)

/-- DATA_BYTES; 0 without a data buffer. -/
def dataBytes (c : Cmd) : Nat := (c.long.map (·.bytes)).getD 0

/-- A command as its target sees it: who asks, its descriptor, the bytes of a buffer it reads. -/
structure Ask where
  who : Waiter
  cmd : Cmd
  buf : List Byte

/-- How a target carries a command out: the state after it, its STATUS (none where the answer comes later), the bytes of
RESULT from offset 0x08, and the buffer bytes it returns. -/
structure CmdOut where
  st : State
  status : Option Nat
  result : List Byte
  data : List Byte

/-- A command refused with a status: nothing changes. -/
def refuse (n : Nat) (s : State) : CmdOut := ⟨s, some n, [], []⟩

/-- A command done, without a result, with a result, with returned buffer bytes; one whose answer comes later. -/
def ok (s : State) : CmdOut := ⟨s, some 0, [], []⟩
def okWith (result : List Byte) (s : State) : CmdOut := ⟨s, some 0, result, []⟩
def okData (data : List Byte) (s : State) : CmdOut := ⟨s, some 0, [], data⟩
def later (s : State) : CmdOut := ⟨s, none, [], []⟩

/-- The form of a command: without a buffer, or with one that the device reads or writes (R97). -/
inductive Form | short | readsBuf | writesBuf
deriving DecidableEq, Repr

/-- A command of a target: its codes and form; whether it changes staged values of a structure held per frame (R352); in
which modes it is allowed; the BAR0 regions of the block whose entry it would change (R142), none for a read; whether its body itself
judges DATA_BYTES, after its index (R297, R431, R464). -/
structure CmdSpec where
  target : Nat
  opcode : Nat
  form : Form
  changes : Bool
  modes : State → Bool
  regions : Cmd → List Nat
  body : Ask → State → CmdOut
  ownLength : Bool := false

/-! ## The checks of every target -/

/-- Allowed in STAGE, RUN and DRAIN; allowed in STAGE and RUN; allowed wherever a command can be given, which is in
WAKE only from an image (R44, R132). -/
def inOpen (s : State) : Bool := hostOpen s
def inStageRun (s : State) : Bool := decide (s.md.mode = .stage) || decide (s.md.mode = .run)
def inAny (_s : State) : Bool := true

/-- A buffer's length is a multiple of 4 up to 2 MiB (R97). -/
def lengthOk (c : Cmd) : Bool := dataBytes c % 4 == 0 && decide (dataBytes c ≤ 2097152)

/-- The buffer is as the form asks: present or absent, and of a length that a buffer can have (R97, R99). -/
def formOk (q : CmdSpec) (c : Cmd) : Bool :=
  match q.form, c.long with
  | .short, none => true
  | .short, some _ => false
  | _, some _ => q.ownLength || lengthOk c
  | _, none => false

/-- The buffer could not be read or written. -/
def bufBad (c : Cmd) : Bool := match c.long with
  | some l => !l.dmaOk
  | none => false

/-- The bytes of a buffer the device reads: from host memory, where its length can be one, or as the image gives them. -/
def readBuf (f : Form) (a : Ask) (s : State) : List Byte × State :=
  match f, a.cmd.long, a.who.via with
  | .readsBuf, some _, .image => (a.buf, s)
  | .readsBuf, some l, _ =>
    if lengthOk a.cmd then (dmaRead l.addr l.bytes s, pmuEv 29 2 none none l.bytes s) else ([], s)
  | _, _, _ => ([], s)

/-- A command under the checks its target shares with the others, in this order: mode, form, protection, the buffer. A
change that is done makes the staged side DIRTY (R354). -/
def runSpec (q : CmdSpec) (a : Ask) (s : State) : CmdOut :=
  if !q.modes s then refuse 8 s
  else if !formOk q a.cmd then refuse 4 s
  else if (q.regions a.cmd).any (regionLocked s) then refuse 5 s
  else if q.form == .readsBuf && bufBad a.cmd then refuse 7 s
  else
    let b := readBuf q.form a s
    let o := q.body { a with buf := b.1 } b.2
    let o1 := if q.changes && o.status == some 0 then { o with st := { o.st with gen := { o.st.gen with dirty := true } } } else o
    match q.form, a.cmd.long with
    | .writesBuf, some l =>
      if o1.status != some 0 then o1
      else if !l.dmaOk then { o1 with status := some 7, result := [], data := [] }
      else if a.who.via == .image then o1
      else { o1 with st := dmaWrite l.addr o1.data o1.st }
    | _, _ => o1

/-! ## Answers -/

/-- The image registers of the table command register take an answer (R337). -/
def tcmdAnswer (bs : List Byte) (s : State) : State :=
  let s1 := forAll (fun i s => setRg (R.fdbTcmdRes i) (ofLE ((bs.drop (4 * i)).take 4)) s) (List.range 8) s
  { s1 with tab := { s1.tab with tcmdBusy := false } }

/-- The answer to a command is written back where it was asked (R97, R337); an image takes its status (R132). -/
def answerCmd (w : Waiter) (status : Nat) (result : List Byte) (s : State) : State :=
  let bs := cmdBytes w.opcode w.target w.tag status result
  match w.via with
  | .ring c => if w.epoch = s.host.epoch then fillSlots .cmd c [w.slot] bs s else s
  | .tcmd => tcmdAnswer bs s
  | .image => { s with img := { s.img with answer := some status } }

/-- A ring whose data buffer could not be read or written stops (R82). -/
def bufStop (w : Waiter) (s : State) : State :=
  match w.via with
  | .ring c => dmaStop .cmd c 0 s
  | _ => s

/-- A command of the host is carried out and answered. -/
def runAnswer (q : CmdSpec) (w : Waiter) (c : Cmd) (s : State) : State :=
  let o := runSpec q ⟨w, c, []⟩ s
  match o.status with
  | none => o.st
  | some n => whenDo (n == 7) (bufStop w) (answerCmd w n o.result o.st)

/-! ## Taking a command -/

/-- No earlier command of its ring awaits its answer (R100). -/
def frontOfRing (w : Waiter) (s : State) : Bool :=
  match w.via with
  | .ring c => ((ring s .cmd c).work.find? fun x => x.bytes.isNone).map (·.slot) == some w.slot
  | _ => true

/-- A change command waits while a commit or a discard is under way (R352). -/
def heldByCommit (changes : Bool) (s : State) : Bool := changes && decide (s.gen.st ≠ 0)

/-- A command that has been taken runs, or waits (R100, R352). -/
def takeCmd (q : CmdSpec) (w : Waiter) (c : Cmd) (s : State) : State :=
  let h := heldByCommit q.changes s
  if h || !frontOfRing w s then
    whenDo h (stickRg R.genEvt 2) { s with gen := { s.gen with held := s.gen.held ++ [⟨w, c⟩] } }
  else runAnswer q w c s

/-- The eight words of the table command register's image (R337). -/
def tcmdWords (q : CmdSpec) (c : Cmd) : List Nat :=
  let head := [q.opcode + q.target * 2 ^ 8 + b2n c.long.isSome * 2 ^ 16, c.tag]
  match c.long with
  | none => head ++ wordsLE 5 c.body ++ [0]
  | some l => head ++ [l.addr % 2 ^ 32, l.addr >>> 32, l.bytes] ++ wordsLE 2 c.body ++ [0]

/-- A command handed over: by the descriptor at FETCH of an enabled command ring (R97), or through the table command
register, whose image is written first (R337). An image's commands run inside its apply (R132). In PARK, where no write of BAR0 is
taken (R58), a command that a ring was given before is answered MODE (R351, R430, R464, R481). -/
def runCmd (q : CmdSpec) (c : Cmd) (s : State) : State :=
  let s0 := hostWrote ((c.long.map (·.host)).getD []) s
  match c.via with
  | .ring n =>
    let r := ring s0 .cmd n
    let w : Waiter := ⟨c.via, q.target, q.opcode, c.tag % 2 ^ 32, r.fetch, s0.host.epoch⟩
    let s1 := pmuEv 29 2 none none 32 (fetchSlots .cmd n 1 none s0)
    if !ringLive s0 .cmd n || decide (ringAvail r = 0) then s0
    else if hostOpen s0 then answerUnknown n r.size (takeCmd q w c s1)
    else if s0.md.mode = .park then answerCmd w 8 [] s1
    else s0
  | .tcmd =>
    if !hostOpen s0 then s0
    else if s0.tab.tcmdBusy then stickRg R.fdbTcmdStatus 1 s0
    else
      let ws := tcmdWords q c
      let s1 := forAll (fun i s => setRg (R.fdbTcmd i) (nth 0 ws i) s) (List.range 8) s0
      takeCmd q ⟨c.via, q.target, q.opcode, c.tag % 2 ^ 32, 0, s0.host.epoch⟩ c
        { s1 with tab := { s1.tab with tcmdBusy := true } }
  | .image => s

end Sys2Proof.Machine
end

