-- ==== Sys2Proof/Machine/ClsCmds.lean ====
section
/-! DEFINITION. The commands of the STR, CLS and HGT targets (R284, R288, R296, R297), the TCAM scrub and repair (R285), and
writes of the hash and bank registers (R278, R281). -/

namespace Sys2Proof.Machine

open Sys2Proof

/-- The staged parity (R341). -/
def stagedPar (s : State) : Nat := 1 - curPar s

/-- Storing the words of a directly indexed entry in a parity. -/
def setEntry (table idx par : Nat) (ws : List Nat) (s : State) : State :=
  { s with tab := { s.tab with vals := kvPut (valKey table idx par) ws s.tab.vals } }

/-- Words cut down to the defined bits of their layout. -/
def maskWords (masks ws : List Nat) : List Nat := (List.range masks.length).map fun i => nth 0 ws i &&& nth 0 masks i

/-! ## STR (R288) -/

/-- STR WRITE. -/
def strWrite : CmdSpec where
  target := 5
  opcode := 1
  form := .short
  changes := true
  modes := inAny
  regions := fun _ => [0x0E]
  body := fun a s =>
    let i := bodyWord a.cmd 0x08 % 65536
    if i = 0xFFFF then refuse 0x102 s
    else ok (setEntry 0 i (stagedPar s) (maskWords [0x1FFFFFFF, 0x3FFFFF, 0, 0] (wordsLE 4 (bodyAt a.cmd 0x0C 16))) s)

/-- STR READ. -/
def strRead : CmdSpec where
  target := 5
  opcode := 2
  form := .short
  changes := false
  modes := inAny
  regions := fun _ => []
  body := fun a s =>
    let w := bodyWord a.cmd 0x08
    let i := w % 65536
    if i = 0xFFFF then refuse 0x102 s
    else okWith (bytesOfWords (i :: (List.range 4).map fun k => nth 0 (streamWords s (fld 16 16 w) i) k)) s

/-! ## CLS (R280 to R286) -/

/-- The slices a SLICE_MASK names. -/
def maskSlices (m : Nat) : List Nat := (List.range 8).filter fun i => bit i m

/-- The positions of a run in one slice; none where R297 refuses it: an odd index in a wide bank, a run that leaves its
bank. -/
def runOf (s : State) (sl i n : Nat) : Option (List Nat) :=
  let wide := bankWide s sl (i / 4096)
  let step := if wide then 2 else 1
  if (wide && i % 2 == 1) || decide ((i + step * n - 1) / 4096 ≠ i / 4096) then none
  else some ((List.range n).map fun k => 32768 * sl + i + step * k)

/-- The positions a rule command names: INDEX, SLICE_MASK and COUNT at two offsets of its body; a status where it is
refused. A bank out of service answers SERVICE_STATE (R99, R520). -/
def rulePositions (s : State) (w n : Nat) (one : Bool) : Except Nat (List (List Nat)) :=
  let i := fld 14 0 w
  let sls := maskSlices (fld 23 16 w)
  if n = 0 ∨ 1024 < n ∨ sls.isEmpty ∨ (one = true ∧ sls.length ≠ 1) then .error 0x102
  else
    let rs := sls.map fun sl => runOf s sl i n
    if rs.any (·.isNone) then .error 0x102
    else if sls.any fun sl => unitState s .tcam (8 * sl + i / 4096) != 0 then .error 6
    else .ok (rs.filterMap id)

/-- A rule, as its entry and its shadow have it, is valid in a parity (R285). -/
def ruleLive (s : State) (i par : Nat) : Bool :=
  (match kvGet i s.tab.rules with
   | some r => r.valid par
   | none => false) ||
  (match kvGet i s.tab.tcamBad with
   | some (a, b) => if par % 2 = 0 then a else b
   | none => false)

/-- The words of a written rule: TYPE forced in key and mask (R283), reserved bits and VALID 0. -/
def ruleWords (type : Nat) (ws : List Nat) : List Nat :=
  (List.range 24).map fun k =>
    let w := nth 0 ws k
    if k = 0 then putFld 2 0 type w
    else if k = 10 then putFld 2 0 7 w
    else if k = 20 then w &&& 0x01FFFFFF
    else if k = 21 then w &&& 0x3FFFF
    else if k = 22 then w &&& 0x1FFFFFFF
    else if k = 23 then w &&& 0xFFFF1FFF
    else w

/-- Writing one rule: its content, and the staged bit, in entry and shadow. The repair of a bad entry is still to come, and to be
reported. -/
def writeRule (i : Nat) (ws : List Nat) (s : State) : State :=
  let p := stagedPar s
  let old := kvGet i s.tab.rules
  let r : Rule := { words := ruleWords (bankType s (i / 32768) (ruleBank i)) ws, v0 := p == 0, v1 := p == 1,
                    hits := (old.map (·.hits)).getD 0 }
  { s with tab := { s.tab with
      rules := kvPut i r s.tab.rules, tcamBad := kvUpd i (fun _ => (r.v0, r.v1)) s.tab.tcamBad } }

/-- A rule without a validity bit, in entry and shadow, is gone. -/
def tidyRule (i : Nat) (s : State) : State :=
  match kvGet i s.tab.rules with
  | none => s
  | some r => if r.v0 || r.v1 || (kvGet i s.tab.tcamBad).isSome then s
      else { s with tab := { s.tab with rules := kvDel i s.tab.rules } }

/-- Clearing a rule's bit of a parity, in entry and shadow. -/
def clearRule (par i : Nat) (s : State) : State :=
  tidyRule i { s with tab := { s.tab with
    rules := kvUpd i (fun r => if par = 0 then { r with v0 := false } else { r with v1 := false }) s.tab.rules,
    tcamBad := kvUpd i (fun b => if par = 0 then (false, b.2) else (b.1, false)) s.tab.tcamBad } }

/-- The 96 bytes of a rule entry (R286). -/
def ruleEntry (s : State) (i : Nat) : List Byte :=
  match kvGet i s.tab.rules with
  | none => List.replicate 96 0
  | some r => bytesOfWords ((List.range 24).map fun k =>
      nth 0 r.words k + if k = 20 then b2n r.v0 * 2 ^ 28 + b2n r.v1 * 2 ^ 29 else 0)

/-- CLS WRITE. -/
def clsWrite : CmdSpec where
  target := 6
  opcode := 1
  form := .readsBuf
  changes := true
  modes := inAny
  ownLength := true
  regions := fun _ => [0x11]
  body := fun a s =>
    let n := fld 10 0 (bodyWord a.cmd 0x18)
    match rulePositions s (bodyWord a.cmd 0x14) n false with
    | .error e => refuse e s
    | .ok rs =>
      if dataBytes a.cmd ≠ 96 * n then refuse 4 s
      else if rs.any fun r => r.any fun i => ruleLive s i (curPar s) then refuse 0x101 s
      else
        let write1 (r : List Nat) (s : State) : State :=
          forAll (fun k s => writeRule (nth 0 r k) (wordsLE 24 (a.buf.drop (96 * k))) s) (List.range n) s
        ok (forAll write1 rs s)

/-- CLS INVALIDATE. -/
def clsInvalidate : CmdSpec where
  target := 6
  opcode := 2
  form := .short
  changes := true
  modes := inAny
  regions := fun _ => [0x11]
  body := fun a s =>
    match rulePositions s (bodyWord a.cmd 0x08) (fld 10 0 (bodyWord a.cmd 0x0C)) false with
    | .error e => refuse e s
    | .ok rs => ok (forAll (clearRule (stagedPar s)) rs.flatten s)

/-- CLS READ. -/
def clsRead : CmdSpec where
  target := 6
  opcode := 3
  form := .writesBuf
  changes := false
  modes := inAny
  ownLength := true
  regions := fun _ => []
  body := fun a s =>
    let n := fld 10 0 (bodyWord a.cmd 0x18)
    match rulePositions s (bodyWord a.cmd 0x14) n true with
    | .error e => refuse e s
    | .ok rs => if dataBytes a.cmd ≠ 96 * n then refuse 4 s else okData (rs.flatten.flatMap (ruleEntry s)) s

/-- CLS READ_HITS. -/
def clsReadHits : CmdSpec where
  target := 6
  opcode := 4
  form := .writesBuf
  changes := false
  modes := inAny
  ownLength := true
  regions := fun _ => []
  body := fun a s =>
    let n := fld 10 0 (bodyWord a.cmd 0x18)
    match rulePositions s (bodyWord a.cmd 0x14) n true with
    | .error e => refuse e s
    | .ok rs =>
      if dataBytes a.cmd ≠ 8 * n then refuse 4 s
      else
        let is := rs.flatten
        okData (is.flatMap fun i => toLE 8 ((kvGet i s.tab.rules).map (·.hits) |>.getD 0))
          (forAll (fun i s => { s with tab := { s.tab with rules := kvUpd i (fun r => { r with hits := 0 }) s.tab.rules } }) is s)

/-! ## HGT (R296, R297) -/

/-- The kinds of HGT entry, by index. -/
inductive HgtKind | filter | meter | recovery | gate
deriving DecidableEq, Repr

/-- The kind of an index; none where it is out of range. -/
def hgtKind (i : Nat) : Option HgtKind :=
  if i < 0x10000 then some .filter else if i < 0x20000 then some .meter else if i < 0x24000 then some .recovery
  else if i < 0x24800 then some .gate else none

/-- The bytes an entry of a kind has in a WRITE buffer whose header is `h`. -/
def hgtBytes (k : HgtKind) (h : Nat) : Nat :=
  match k with
  | .filter => 8 | .meter => 16 | .recovery => 8 | .gate => 8 + 8 * min (fld 6 0 h) 64

/-- The defined bits of an entry's words. -/
def hgtMasks (k : HgtKind) (n : Nat) : List Nat :=
  match k with
  | .filter => [0x00FF07FF, 0x3FFF1FFF]
  | .meter => [0x7F, 0xFFFFFFFF, 0xFFFFFFFF, 0xFFFFFFFF]
  | .recovery => [0xFFFF03FF, 0]
  | .gate => (List.range n).map fun i => if i = 0 then 0x7F7F else if i = 1 then 0 else if i % 2 = 0 then 0x1F else 0xFFFFFFFF

/-- HGT WRITE. A gate's entries beyond LENGTH keep the values they have in the staged parity. -/
def hgtWrite : CmdSpec where
  target := 7
  opcode := 1
  form := .readsBuf
  changes := true
  modes := inAny
  regions := fun _ => [0x12]
  body := fun a s =>
    let i := fld 17 0 (bodyWord a.cmd 0x14)
    match hgtKind i with
    | none => refuse 0x102 s
    | some k =>
      let n := hgtBytes k (ofLE (a.buf.take 4))
      if dataBytes a.cmd ≠ n then refuse 4 s
      else
        let ws := maskWords (hgtMasks k (n / 4)) (wordsLE (n / 4) a.buf)
        let old := if k = .gate then (hgtWords s (stagedPar s) i).drop ws.length else []
        ok (setEntry 1 i (stagedPar s) (ws ++ old) s)

/-- HGT READ. -/
def hgtRead : CmdSpec where
  target := 7
  opcode := 2
  form := .writesBuf
  changes := false
  modes := inAny
  regions := fun _ => []
  body := fun a s =>
    let i := fld 17 0 (bodyWord a.cmd 0x14)
    match hgtKind i with
    | none => refuse 0x102 s
    | some k =>
      let n := if k = .gate then 520 else hgtBytes k 0
      if dataBytes a.cmd ≠ n then refuse 4 s
      else
        let ws := hgtWords s (fld 16 16 (bodyWord a.cmd 0x18)) i
        okData (bytesOfWords ((List.range (n / 4)).map fun j => nth 0 ws j)) s

/-- The counters of an entry with its latch, in the order of R297, and the state with the counters cleared. -/
def hgtCounters (k : HgtKind) (i : Nat) (s : State) : List Nat × State :=
  match k with
  | .filter =>
    let f := filterAt s i
    (f.ctr ++ [b2n f.blocked], setFilter i { f with ctr := [0, 0, 0, 0, 0] } s)
  | .gate =>
    let g := sgateAt s i
    (g.ctr ++ [b2n g.latched], setSgate i { g with ctr := [0, 0] } s)
  | .meter =>
    let m := meterAt s i
    (m.ctr, setMeter i { m with ctr := [0, 0, 0] } s)
  | .recovery =>
    let r := recoveryAt s (i - 0x20000)
    (r.ctr, setRecovery (i - 0x20000) { r with ctr := [0, 0, 0, 0, 0, 0, 0] } s)

/-- HGT READ_COUNTERS. -/
def hgtReadCounters : CmdSpec where
  target := 7
  opcode := 3
  form := .writesBuf
  changes := false
  modes := inAny
  regions := fun _ => []
  body := fun a s =>
    let i := fld 17 0 (bodyWord a.cmd 0x14)
    match hgtKind i with
    | none => refuse 0x102 s
    | some k =>
      let r := hgtCounters k i s
      if dataBytes a.cmd ≠ 8 * r.1.length then refuse 4 s else okData (r.1.flatMap (toLE 8)) r.2

/-- HGT UNBLOCK. -/
def hgtUnblock : CmdSpec where
  target := 7
  opcode := 4
  form := .short
  changes := false
  modes := inAny
  regions := fun _ => []
  body := fun a s =>
    let i := fld 17 0 (bodyWord a.cmd 0x08)
    match hgtKind i with
    | some .filter => ok (setFilter i { filterAt s i with blocked := false } s)
    | some .gate => ok (setSgate i { sgateAt s i with latched := false } s)
    | _ => refuse 0x102 s

/-- HGT RESET_RCV. -/
def hgtResetRcv : CmdSpec where
  target := 7
  opcode := 5
  form := .short
  changes := false
  modes := inAny
  regions := fun _ => []
  body := fun a s =>
    let i := fld 17 0 (bodyWord a.cmd 0x08)
    match hgtKind i with
    | some .recovery => ok (setRecovery (i - 0x20000) (recoveryAt s (i - 0x20000)).reset s)
    | _ => refuse 0x102 s

/-! ## The commands -/

/-- STR_WRITE (R297). -/
def execStrWrite (c : Cmd) (s : State) : Host.Outcome State Fault Refusal := .next (runCmd strWrite c s)
/-- STR_READ (R297). -/
def execStrRead (c : Cmd) (s : State) : Host.Outcome State Fault Refusal := .next (runCmd strRead c s)
/-- CLS_WRITE (R297). -/
def execClsWrite (c : Cmd) (s : State) : Host.Outcome State Fault Refusal := .next (runCmd clsWrite c s)
/-- CLS_INVALIDATE (R284). -/
def execClsInvalidate (c : Cmd) (s : State) : Host.Outcome State Fault Refusal := .next (runCmd clsInvalidate c s)
/-- CLS_READ (R297). -/
def execClsRead (c : Cmd) (s : State) : Host.Outcome State Fault Refusal := .next (runCmd clsRead c s)
/-- READ_HITS (R297). -/
def execReadHits (c : Cmd) (s : State) : Host.Outcome State Fault Refusal := .next (runCmd clsReadHits c s)
/-- HGT_WRITE (R297). -/
def execHgtWrite (c : Cmd) (s : State) : Host.Outcome State Fault Refusal := .next (runCmd hgtWrite c s)
/-- HGT_READ (R297). -/
def execHgtRead (c : Cmd) (s : State) : Host.Outcome State Fault Refusal := .next (runCmd hgtRead c s)
/-- HGT_READ_COUNTERS (R297). -/
def execHgtReadCounters (c : Cmd) (s : State) : Host.Outcome State Fault Refusal := .next (runCmd hgtReadCounters c s)
/-- UNBLOCK (R290, R291). -/
def execUnblock (c : Cmd) (s : State) : Host.Outcome State Fault Refusal := .next (runCmd hgtUnblock c s)
/-- RESET_RCV (R295). -/
def execResetRcv (c : Cmd) (s : State) : Host.Outcome State Fault Refusal := .next (runCmd hgtResetRcv c s)

/-! ## Scrub and repair (R285) -/

/-- The scrub finds an error in a TCAM entry: both validity bits clear at once; event, count, PARITY_SEEN. -/
def tcamBadFound (i : Nat) (s : State) : State :=
  if (kvGet i s.tab.tcamBad).isSome then s
  else
    let sl := i / 32768
    let bits := ((kvGet i s.tab.rules).map fun r => (r.v0, r.v1)).getD (false, false)
    emitParity 0 (ingressIsland sl) 6 i (stickRg (R.clsStatus sl) 1 (incRg (R.clsParityErr sl)
      { s with tab := { s.tab with
          rules := kvUpd i (fun r => { r with v0 := false, v1 := false }) s.tab.rules,
          tcamBad := kvPut i bits s.tab.tcamBad } }))

/-- TCAM_SCRUB: the scrub checks entry `i` (32,768 × slice + rule): `action` says that the error is in the rule's action,
`bad` that there is one. -/
def execTcamScrub (i : Nat) (action bad : Bool) (s : State) : Host.Outcome State Fault Refusal :=
  .next (if !bad || decide (262144 ≤ i) then s else if action then parityFound 6 i (i / 32768) s else tcamBadFound i s)

/-- TCAM_REPAIR: a bad entry or action is rewritten from its shadow, with its validity bits as they were, and reported. -/
def execTcamRepair (i : Nat) (s : State) : Host.Outcome State Fault Refusal :=
  let fix := match kvGet i s.tab.tcamBad with
    | none => s
    | some (a, b) => tidyRule i { s with tab := { s.tab with
        rules := kvUpd i (fun r => { r with v0 := a, v1 := b }) s.tab.rules, tcamBad := kvDel i s.tab.tcamBad } }
  .next (if (kvGet i s.tab.tcamBad).isSome || badWord s 6 i (i / 65536) then
      emitParity 1 (ingressIsland (i / 32768)) 6 i { fix with tab := { fix.tab with bad := fix.tab.bad.filter (· != (6, i, i / 65536)) } }
    else s)

/-! ## Registers with conditions of their own (R278, R281) -/

/-- A write of PRS_HASH_CFG or PRS_HASH_SEED of S0: taken in STAGE, and in WAKE from an image; else HASH_REFUSED. -/
def hashWrite (seed : Bool) (v : Nat) (s : State) : State :=
  if s.md.mode = .stage ∨ s.md.mode = .wake then
    if seed then setRg (R.prsHashSeed 0) v s else setRg (R.prsHashCfg 0) (v % 32) s
  else stickRg (R.prsStatus 0) 0 s

/-- HASH_CONFIG_WRITE: a host write of PRS_HASH_CFG or PRS_HASH_SEED. -/
def execHashConfigWrite (seed : Bool) (v : Word) (s : State) : Host.Outcome State Fault Refusal :=
  .next (pf0Write (if seed then R.prsHashSeed 0 else R.prsHashCfg 0) (hashWrite seed v.toNat) s)

/-- A rule of a bank is valid in either parity, in entry or shadow. -/
def bankHasRule (s : State) (sl b : Nat) : Bool :=
  let inBank (i : Nat) : Bool := i / 4096 == 8 * sl + b
  (s.tab.rules.any fun c => inBank c.1 && (c.2.v0 || c.2.v1)) || (s.tab.tcamBad.any fun c => inBank c.1 && (c.2.1 || c.2.2))

/-- A write of CLS_BANK_CFG (R281). -/
def bankWrite (sl b v : Nat) (s : State) : State :=
  let type := fld 3 1 v
  let wide := bit 0 v
  let bad := type == 3 || type == 6 || type == 7 || wide != decide (4 ≤ type) ||
    (decide (v % 16 ≠ rg s (R.clsBankCfg sl b) % 16) && bankHasRule s sl b)
  if bad then stickRg (R.clsStatus sl) 0 s else setRg (R.clsBankCfg sl b) (v % 16) s

/-- BANK_CONFIG_WRITE: a host write of CLS_BANK_CFG of a slice's bank. -/
def execBankConfigWrite (sl b : Nat) (v : Word) (s : State) : Host.Outcome State Fault Refusal :=
  .next (if sl < 8 ∧ b < 8 then pf0Write (R.clsBankCfg sl b) (bankWrite sl b v.toNat) s else s)

end Sys2Proof.Machine
end

