-- ==== Sys2Proof/Machine/Fdb.lean ====
section
/-! DEFINITION. The FDB: its hash, lookups, placement with relocation, commands, learning and ageing (R308 to R323, R334 to
R339). -/

namespace Sys2Proof.Machine

open Sys2Proof

/-! ## Slots and keys (R308 to R310) -/

/-- The bucket of a key in half `h`. -/
def fdbBucket (s : State) (h mac fid : Nat) : Nat :=
  crc32c (rg s (if h = 0 then R.fdbHashSeed0 else R.fdbHashSeed1)) (toBE 2 (fid % 4096) ++ toBE 6 mac) % 16384

/-- The eight slots of a bucket, the bucket of a slot, its half. -/
def bucketSlots (h b : Nat) : List Nat := (List.range 8).map fun k => 131072 * h + 8 * b + k

/-- The sixteen slots where a key may lie, half 0 first. -/
def keySlots (s : State) (mac fid : Nat) : List Nat :=
  bucketSlots 0 (fdbBucket s 0 mac fid) ++ bucketSlots 1 (fdbBucket s 1 mac fid)

/-- A slot's entry; a slot without a validity bit is free (R311). -/
def fdbAt (s : State) (i : Nat) : Option FdbEntry := kvGet i s.tab.fdb

/-- Storing an entry; one without a validity bit frees its slot. -/
def setFdb (i : Nat) (e : FdbEntry) (s : State) : State :=
  if e.v0 || e.v1 then { s with tab := { s.tab with fdb := kvPut i e s.tab.fdb } }
  else { s with tab := { s.tab with fdb := kvDel i s.tab.fdb, visited := kvDel i s.tab.visited } }

/-- An entry is valid in a parity; changing that bit. -/
def FdbEntry.valid (e : FdbEntry) (par : Nat) : Bool := if par % 2 = 0 then e.v0 else e.v1
def FdbEntry.setValid (par : Nat) (v : Bool) (e : FdbEntry) : FdbEntry := if par % 2 = 0 then { e with v0 := v } else { e with v1 := v }

/-- KIND, DEST, STATIC, COPY_HOST, HOST_QUEUE, DOMAIN of an entry (R310). -/
def FdbEntry.kind (e : FdbEntry) : Nat := fld 2 0 e.info
def FdbEntry.dest (e : FdbEntry) : Nat := fld 16 3 e.info
def FdbEntry.static (e : FdbEntry) : Bool := bit 17 e.info
def FdbEntry.domain (e : FdbEntry) : Nat := fld 26 23 e.info

/-- The slot that holds a key in one parity (R309). -/
def fdbFind (s : State) (par mac fid : Nat) : Option (Nat × FdbEntry) :=
  (keySlots s mac fid).findSome? fun i => (fdbAt s i).bind fun e =>
    if e.mac = mac ∧ e.fid = fid ∧ e.valid par then some (i, e) else none

/-- The 16 bytes of a slot in command bodies and buffers (R310). -/
def fdbBytes (s : State) (i : Nat) : List Byte :=
  match fdbAt s i with
  | none => List.replicate 12 0 ++ toLE 4 i
  | some e => toLE 8 (e.mac + e.fid * 2 ^ 48) ++
      toLE 4 (e.info + b2n e.active * 2 ^ 22 + b2n e.v0 * 2 ^ 27 + b2n e.v1 * 2 ^ 28) ++ toLE 4 i

/-! ## Placement (R312, R313) -/

/-- The lowest free slot of some slots. -/
def freeSlot (s : State) (slots : List Nat) : Option Nat := slots.find? fun i => (fdbAt s i).isNone

/-- The slots of a resident's other candidate bucket. -/
def otherSlots (s : State) (i : Nat) : List Nat :=
  match fdbAt s i with
  | none => []
  | some e => bucketSlots (1 - i / 131072) (fdbBucket s (1 - i / 131072) e.mac e.fid)

/-- The first chain of the fewest relocations, breadth first, at most as many moves as `fuel`: `paths` are the residents moved
so far, the first one first; the answer adds the free slot at the far end. -/
def findChain (s : State) : Nat → List (List Nat) → Option (List Nat × Nat)
  | 0, _ => none
  | fuel + 1, paths =>
    match paths.findSome? fun p => (freeSlot s (otherSlots s (p.getLast?.getD 0))).map fun f => (p, f) with
    | some r => some r
    | none => findChain s fuel (paths.flatMap fun p =>
        (otherSlots s (p.getLast?.getD 0)).filterMap fun j => if p.contains j then none else some (p ++ [j]))

/-- A chain carried out from its far end: each resident moves into the slot vacated or free behind it, with its bits. -/
def moveChain : List Nat → Nat → State → State
  | [], _, s => s
  | i :: is, f, s =>
    let s1 := moveChain is f s
    let dst := is.head?.getD f
    match fdbAt s1 i with
    | none => s1
    | some e => setFdb dst e { s1 with tab := { s1.tab with fdb := kvDel i s1.tab.fdb } }

/-- A slot for a key: its index, the moves made, the state after them; none beyond 4 moves. Each move takes 150 ns, in which a READ
of a slot in it is answered RETRY (R313, R336). -/
def fdbPlace (mac fid : Nat) (s : State) : Option (Nat × Nat × State) :=
  let slots := keySlots s mac fid
  match freeSlot s slots with
  | some i => some (i, 0, s)
  | none => (findChain s 4 (slots.map fun i => [i])).map fun r =>
      let s1 := moveChain r.1 r.2 s
      (r.1.head?.getD 0, r.1.length,
        { s1 with tab := { s1.tab with moving := r.1 ++ [r.2], movingTill := s.elapsed + nsT (150 * r.1.length) } })

/-! ## Changes of the staged parity (R314) -/

/-- New content for a key with only the staged bit: rewritten in place where a copy is valid in the staged parity alone, else
in another slot, the old copy's staged bit cleared. Answers the index, the moves and the state. -/
def stageEntry (e : FdbEntry) (s : State) : Option (Nat × Nat × State) :=
  let p := stagedPar s
  let new := (e.setValid p true).setValid (p + 1) false
  match fdbFind s p e.mac e.fid with
  | some (i, old) =>
    if !old.valid (p + 1) then some (i, 0, setFdb i new s)
    else
      let s1 := setFdb i (old.setValid p false) s
      (fdbPlace e.mac e.fid s1).map fun r => (r.1, r.2.1, setFdb r.1 new r.2.2)
  | none => (fdbPlace e.mac e.fid s).map fun r => (r.1, r.2.1, setFdb r.1 new r.2.2)

/-! ## Commands (R334, R335) -/

/-- INSERT's field checks (R307). -/
def fdbValueOk (info : Nat) : Bool :=
  match fld 2 0 info with
  | 0 => decide (fld 16 3 info ≤ 258)
  | 1 => decide (fld 16 3 info ≤ 255)
  | 6 | 7 => false
  | _ => true

/-- The key in a body at 0x08. -/
def bodyMac (c : Cmd) : Nat := ofLE (bodyAt c 0x08 6)
def bodyFid (c : Cmd) : Nat := ofLE (bodyAt c 0x0E 2) % 4096

/-- FDB INSERT. -/
def fdbInsert : CmdSpec where
  target := 1
  opcode := 1
  form := .short
  changes := true
  modes := inOpen
  regions := fun _ => [0x0A]
  body := fun a s =>
    let w := bodyWord a.cmd 0x10
    let e : FdbEntry := { mac := bodyMac a.cmd, fid := bodyFid a.cmd, info := w &&& 0x07BFFFFF, active := bit 22 w }
    if !fdbValueOk w then refuse 0x103 s
    else if bit 0 (bodyWord a.cmd 0x18) && (fdbFind s (stagedPar s) e.mac e.fid).isSome then refuse 0x107 s
    else match stageEntry e s with
      | none => refuse 0x105 s
      | some (i, moves, s1) => okWith (toLE 4 (i + moves * 2 ^ 18)) { s1 with tab := { s1.tab with moving := [] } }

/-- FDB DELETE. -/
def fdbDelete : CmdSpec where
  target := 1
  opcode := 2
  form := .short
  changes := true
  modes := inOpen
  regions := fun _ => [0x0A]
  body := fun a s =>
    match fdbFind s (stagedPar s) (bodyMac a.cmd) (bodyFid a.cmd) with
    | none => refuse 0x104 s
    | some (i, e) => ok (setFdb i (e.setValid (stagedPar s) false) s)

/-- FDB LOOKUP. -/
def fdbLookup : CmdSpec where
  target := 1
  opcode := 3
  form := .short
  changes := false
  modes := inOpen
  regions := fun _ => []
  body := fun a s =>
    match fdbFind s (fld 16 16 (bodyWord a.cmd 0x18)) (bodyMac a.cmd) (bodyFid a.cmd) with
    | none => refuse 0x104 s
    | some (i, _) => okWith (fdbBytes s i) s

/-- FDB READ: RETRY where the slot is the source or target of a move in progress (R336). The moves of an INSERT are done when it is
answered; those of a learn take their time. -/
def fdbRead : CmdSpec where
  target := 1
  opcode := 4
  form := .short
  changes := false
  modes := inOpen
  regions := fun _ => []
  body := fun a s =>
    let i := fld 17 0 (bodyWord a.cmd 0x08)
    if s.tab.moving.contains i && decide (s.elapsed < s.tab.movingTill) then refuse 1 s else okWith (fdbBytes s i) s

/-- MODE of a domain in use (R340). -/
def domainMode (s : State) (d : Nat) : Nat := cuF s (R.fdbDomainCfg d) 21 20

/-- Whether an entry goes under a FLUSH word (R334). -/
def flushMatches (w : Nat) (e : FdbEntry) : Bool :=
  (!bit 12 w || e.fid == fld 11 0 w) &&
    (!bit 22 w || (e.kind == (if bit 23 w then 1 else 0) && e.dest == fld 21 13 w)) &&
    (!bit 28 w || e.domain == fld 27 24 w) && (bit 29 w || !e.static)

/-- An entry removed as its domain's mode has it: both bits in ordinary mode, else the staged bit (R323). -/
def removeByMode (i : Nat) (e : FdbEntry) (s : State) : State :=
  if domainMode s e.domain = 1 then setFdb i { e with v0 := false, v1 := false } s
  else setFdb i (e.setValid (stagedPar s) false) s

/-- FDB FLUSH. -/
def fdbFlush : CmdSpec where
  target := 1
  opcode := 5
  form := .short
  changes := true
  modes := inOpen
  regions := fun _ => [0x0A]
  body := fun a s =>
    let w := bodyWord a.cmd 0x08
    let hit := s.tab.fdb.filter fun c => flushMatches w c.2 && (domainMode s c.2.domain == 1 || c.2.valid (stagedPar s))
    okWith (toLE 4 hit.length) (forAll (fun c => removeByMode c.1 c.2) hit s)

/-- FDB DUMP. -/
def fdbDump : CmdSpec where
  target := 1
  opcode := 6
  form := .writesBuf
  changes := false
  modes := inOpen
  regions := fun _ => []
  body := fun a s =>
    let i := fld 17 0 (bodyWord a.cmd 0x14)
    let n := fld 12 0 (bodyWord a.cmd 0x18)
    if 262144 < i + n then refuse 0x102 s
    else if n = 0 ∨ 4096 < n ∨ dataBytes a.cmd ≠ 16 * n then refuse 0x103 s
    else
      let s1 := if s.tab.moving.isEmpty then s else reachElapsed s.tab.movingTill s
      okData ((List.range n).flatMap fun k => fdbBytes s1 (i + k)) s1

/-- FDB_INSERT (R312, R314). -/
def execFdbInsert (c : Cmd) (s : State) : Host.Outcome State Fault Refusal := .next (runCmd fdbInsert c s)
/-- FDB_DELETE (R334). -/
def execFdbDelete (c : Cmd) (s : State) : Host.Outcome State Fault Refusal := .next (runCmd fdbDelete c s)
/-- FDB_LOOKUP (R336). -/
def execFdbLookup (c : Cmd) (s : State) : Host.Outcome State Fault Refusal := .next (runCmd fdbLookup c s)
/-- FDB_READ (R336). -/
def execFdbRead (c : Cmd) (s : State) : Host.Outcome State Fault Refusal := .next (runCmd fdbRead c s)
/-- FDB_FLUSH (R323, R334). -/
def execFdbFlush (c : Cmd) (s : State) : Host.Outcome State Fault Refusal := .next (runCmd fdbFlush c s)
/-- FDB_DUMP (R334). -/
def execFdbDump (c : Cmd) (s : State) : Host.Outcome State Fault Refusal := .next (runCmd fdbDump c s)

/-! ## Learning (R315 to R320) -/

/-- A LEARN event (R106). -/
def emitLearn (typ mac fid index port : Nat) (det : Bool) (par old : Nat) : State → State :=
  emit 6 typ (64 + portSlice port)
    [mac % 2 ^ 32, mac >>> 32 + fid * 2 ^ 16, index % 2 ^ 18 + port * 2 ^ 18 + b2n det * 2 ^ 27 + par * 2 ^ 28, old]

/-- A request that finds no slot: counted, FULL_SEEN, one event in any 1 ms. -/
def learnFull (r : LearnReq) (s : State) : State :=
  let s1 := stickRg R.fdbStatus 2 (incRg R.fdbFull s)
  let go := match s.tab.fullAt with
    | none => true
    | some t => decide (t + msT 1 ≤ s.now)
  if go then emitLearn 3 r.mac r.fid 0 r.port (r.mode == 2) r.par 0 { s1 with tab := { s1.tab with fullAt := some s.now } }
  else s1

/-- A learn or a move is counted and reported (R320). -/
def learnDone (r : LearnReq) (moved : Option Nat) (i : Nat) (s : State) : State :=
  match moved with
  | none => whenDo (bit 1 (cu s R.fdbCfg)) (emitLearn 0 r.mac r.fid i r.port (r.mode == 2) r.par 0) (incRg64 R.fdbLearned s)
  | some old => whenDo (bit 2 (cu s R.fdbCfg)) (emitLearn 1 r.mac r.fid i r.port (r.mode == 2) r.par old) (incRg64 R.fdbMoved s)

/-- The entry a request makes. -/
def learnEntry (r : LearnReq) : FdbEntry :=
  { mac := r.mac, fid := r.fid, info := r.kind + r.dest * 8 + r.domain * 2 ^ 23, active := true }

/-- The wanted content stands already. -/
def sameContent (r : LearnReq) (e : FdbEntry) : Bool := !e.static && e.kind == r.kind && e.dest == r.dest

/-- A move in place rewrites KIND and DEST and nothing else of the content, for lookups of either parity: a copy that stands in one
parity alone becomes valid in both (R318). -/
def moveEntry (r : LearnReq) (both : Bool) (e : FdbEntry) : FdbEntry :=
  { e with info := e.info - fld 16 0 e.info + r.kind + r.dest * 8, active := true, learned := false,
           v0 := e.v0 || !both, v1 := e.v1 || !both }

/-- Ordinary mode (R316, R318): a request whose content stands in both parities sets ACTIVE; dynamic copies are rewritten in place; a
new entry is valid in both parities. -/
def learnOrdinaryMode (r : LearnReq) (s : State) : State :=
  let c0 := fdbFind s 0 r.mac r.fid
  let c1 := fdbFind s 1 r.mac r.fid
  let copies := (c0.toList ++ c1.toList)
  let both := c0.isSome && c1.isSome
  if copies.any fun c => c.2.static then s
  else if both && copies.all fun c => sameContent r c.2 then
    forAll (fun c s => setFdb c.1 { c.2 with active := true } s) copies s
  else
    let s1 := forAll (fun c s => setFdb c.1 (moveEntry r both c.2) s) copies s
    match copies with
    | c :: _ => learnDone r (if copies.all fun c => sameContent r c.2 then none else some (c.2.dest % 512)) c.1 s1
    | [] =>
      match fdbPlace r.mac r.fid s1 with
      | none => learnFull r s1
      | some (i, _, s2) => learnDone r none i (setFdb i { learnEntry r with v0 := true, v1 := true } s2)

/-- The first learned entry since the last accepted commit starts the interval of R354. -/
def learnStaged (s : State) : State :=
  { s with gen := { s.gen with learnPending := true, autoFrom := s.gen.autoFrom.orElse fun _ => some s.now } }

/-- Deterministic mode (R319): only the staged bit is set; a move goes under R314. -/
def learnDeterministic (r : LearnReq) (s : State) : State :=
  match fdbFind s (stagedPar s) r.mac r.fid with
  | some (i, e) =>
    if e.static then s
    else if sameContent r e then setFdb i { e with active := true } s
    else match stageEntry { learnEntry r with learned := true } s with
      | none => learnFull r s
      | some (j, _, s1) => learnDone r (some (e.dest % 512)) j (learnStaged s1)
  | none =>
    match stageEntry { learnEntry r with learned := true } s with
    | none => learnFull r s
    | some (j, _, s1) => learnDone r none j (learnStaged s1)

/-- The update engine takes the request at the front of the queue, unless a completing commit blocks it (R317). -/
def takeLearn (s : State) : State :=
  match s.tab.learnQ with
  | [] => s
  | r :: rs =>
    if r.mode = 2 ∧ s.gen.st ≠ 0 then s
    else
      let s1 := { s with tab := { s.tab with learnQ := rs } }
      if r.mode = 1 then learnOrdinaryMode r s1 else learnDeterministic r s1

/-- LEARN_REQUEST (R316). -/
def execLearnRequest (s : State) : Host.Outcome State Fault Refusal :=
  .next (whenDo (decide (s.md.mode = .run) || decide (s.md.mode = .drain)) takeLearn s)

/-- A request joins the queue, or is lost (R316). -/
def askLearn (r : LearnReq) (s : State) : State :=
  pmuIn r.port 7 1 (if s.tab.learnQ.length < 1024 then { s with tab := { s.tab with learnQ := s.tab.learnQ ++ [r] } }
    else incRg R.fdbLearnLost s)

/-! ## Ageing (R321 to R323) -/

/-- AGE_S of a domain in use, in units of time. -/
def ageSpan (s : State) (d : Nat) : Nat := secT (max 1 (cuF s (R.fdbDomainCfg d) 19 0))

/-- When the sweep visits slot `i` next, in elapsed time: once in each span of AGE_S, at the slot's place in it, the visits of the slots
spread evenly; of visits that are overdue only the last is made (R321, assumption 112). -/
def visitDue (s : State) (i span : Nat) : Nat :=
  let next (t : Nat) : Nat := t + (i * span / 262144 + span - t % span) % span
  match kvGet i s.tab.visited with
  | none => next s.elapsed
  | some v => next (max (v + 1) (s.elapsed + 1 - span))

/-- The sweep's visit of a slot: ACTIVE is tested and cleared, an idle entry removed. A hit in the visit's own cycle leaves ACTIVE at 1 and
the entry in place (R322). In deterministic mode there is nothing to remove where the staged bit is clear, and while a commit is under way
the old parity's bits stand (R344): the entry then stays (assumption 112). The event gives the DEST of an entry, a LAG's number too, as the
port (assumption 135). -/
def ageVisit (i : Nat) (e : FdbEntry) (hit : Bool) (s : State) : State :=
  let mode := domainMode s e.domain
  if hit then setFdb i { e with active := true } s
  else if e.active then setFdb i { e with active := false } s
  else if mode = 2 ∧ (s.gen.st ≠ 0 ∨ e.valid (stagedPar s) = false) then s
  else
    whenDo (bit 3 (cu s R.fdbCfg)) (emitLearn 2 e.mac e.fid i (e.dest % 512) (mode == 2) (curPar s) 0)
      (incRg64 R.fdbAged (removeByMode i e s))

/-- AGEING_VISIT: the sweep's next visit of slot `i` comes (R321); `hit` holds where a lookup hits the entry in the same cycle (R322).
Static entries and those of domains with MODE 0 are skipped. -/
def execAgeingVisit (i : Nat) (hit : Bool) (s : State) : Host.Outcome State Fault Refusal :=
  .next (match fdbAt s i with
    | none => s
    | some e => whenDo (hostOpen s && !e.static && domainMode s e.domain != 0)
        (fun s =>
          let due := visitDue s i (ageSpan s e.domain)
          let s1 := reachElapsed due s
          ageVisit i e hit { s1 with tab := { s1.tab with visited := kvPut i due s1.tab.visited } }) s)

/-! ## Seeds (R339) -/

/-- A write of a hash seed: ignored while any slot is in use. -/
def seedWrite (h v : Nat) (s : State) : State :=
  if s.tab.fdb.isEmpty then setRg (if h = 0 then R.fdbHashSeed0 else R.fdbHashSeed1) v s else stickRg R.fdbStatus 0 s

/-- SEED_WRITE: a host write of FDB_HASH_SEED_0 or 1. -/
def execSeedWrite (one : Bool) (v : Word) (s : State) : Host.Outcome State Fault Refusal :=
  .next (pf0Write (if one then R.fdbHashSeed1 else R.fdbHashSeed0) (seedWrite (b2n one) v.toNat) s)

/-! ## Table scrub and repair (R338) -/

/-- TABLE_SCRUB: the scrub checks a word of a memory of this chapter in the copy of pair `pair` (1 FDB, 2 LPM, 3 NHP, 4 MCG,
32 LAG and 33 ECMP bucket state). -/
def execTableScrub (mem idx pair : Nat) (bad : Bool) (s : State) : Host.Outcome State Fault Refusal :=
  .next (whenDo (bad && [1, 2, 3, 4, 32, 33].contains mem) (parityFound mem idx (2 * (pair % 4))) s)

/-- TABLE_REPAIR: the word of a copy is rewritten from its shadow, with a type 1 event whose SOURCE is that of its detection. -/
def execTableRepair (mem idx sl : Nat) (s : State) : Host.Outcome State Fault Refusal :=
  .next (whenDo (mem != 6 && badWord s mem idx (sl % 8 / 2))
    (fun s => emitParity 1 (ingressIsland (sl % 8)) (memTarget mem) idx
      { s with tab := { s.tab with bad := s.tab.bad.filter (· != (mem, idx, sl % 8 / 2)) } }) s)

end Sys2Proof.Machine
end

