-- ==== Sys2Proof/Machine/Lpm.lean ====
section
/-! DEFINITION. The LPM as a set of prefixes with a result in each parity: commands, capacity, stage copies (R324 to R327). The
trie that the device builds of them is not part of the state: every lookup is stated by the prefixes alone. -/

namespace Sys2Proof.Machine

open Sys2Proof

/-- A prefix: family, length, its 64 address bits with IPv4 in [63:32] (R334). -/
structure Prefix where
  v6 : Bool
  len : Nat
  addr : Nat
deriving DecidableEq, Repr

/-- A route is that of a prefix; its result in a parity. -/
def Route.isAt (p : Prefix) (r : Route) : Bool := r.v6 == p.v6 && r.len == p.len && r.addr == p.addr
def Route.result (par : Nat) (r : Route) : Option Nat := if par % 2 = 0 then r.r0 else r.r1

/-- LEN within the family, and no address bit beyond LEN (R335). -/
def prefixOk (p : Prefix) : Bool := decide (p.len ≤ if p.v6 then 64 else 32) && p.addr % 2 ^ (64 - p.len) == 0

/-- The result of an exact prefix in a parity. -/
def routeAt (s : State) (par : Nat) (p : Prefix) : Option Nat := (s.tab.routes.find? (Route.isAt p)).bind (Route.result par)

/-- A prefix's result in a parity set or cleared; a route with neither is gone. -/
def setRoute (par : Nat) (p : Prefix) (v : Option Nat) (s : State) : State :=
  let old : Route := (s.tab.routes.find? (Route.isAt p)).getD { v6 := p.v6, len := p.len, addr := p.addr }
  let new := if par % 2 = 0 then { old with r0 := v } else { old with r1 := v }
  let rest := s.tab.routes.filter fun r => !Route.isAt p r
  { s with tab := { s.tab with routes := if new.r0.isNone && new.r1.isNone then rest else new :: rest } }

/-- The longest prefix of an address in a parity (R324). -/
def longestMatch (s : State) (par : Nat) (v6 : Bool) (a : Nat) : Option (Route × Nat) :=
  s.tab.routes.foldl (fun best r =>
    match r.result par with
    | none => best
    | some v =>
      if r.v6 == v6 && a / 2 ^ (64 - r.len) == r.addr / 2 ^ (64 - r.len) then
        match best with
        | some (b, _) => if b.len < r.len then some (r, v) else best
        | none => some (r, v)
      else best) none

/-- The units a route counts (R326): once while its content is the same in every parity that has it, else twice. -/
def Route.units (r : Route) : Nat :=
  (if r.v6 then 4 else 1) * (if r.r0.isSome && r.r1.isSome && r.r0 != r.r1 then 2 else 1)

/-- LPM_UNITS. -/
def lpmUnits (s : State) : Nat := if s.gen.st = 4 then s.tab.unitsHeld else (s.tab.routes.map Route.units).sum

/-! ## Commands (R334) -/

/-- The prefix in a body: LEN and V6 at 0x08, ADDRESS at 0x0C. -/
def bodyPrefix (c : Cmd) : Prefix :=
  { v6 := bit 8 (bodyWord c 0x08), len := fld 7 0 (bodyWord c 0x08), addr := ofLE (bodyAt c 0x0C 8) }

/-- LPM INSERT. -/
def lpmInsert : CmdSpec where
  target := 2
  opcode := 1
  form := .short
  changes := true
  modes := inOpen
  regions := fun _ => [0x0B]
  body := fun a s =>
    let p := bodyPrefix a.cmd
    let v := fld 17 0 (bodyWord a.cmd 0x14)
    if !prefixOk p then refuse 0x106 s
    else if bit 17 v && decide (4096 ≤ v % 2 ^ 17) then refuse 0x103 s
    else
      let s1 := setRoute (stagedPar s) p (some v) s
      if 393216 < lpmUnits s1 then refuse 0x105 s else ok s1

/-- LPM DELETE. -/
def lpmDelete : CmdSpec where
  target := 2
  opcode := 2
  form := .short
  changes := true
  modes := inOpen
  regions := fun _ => [0x0B]
  body := fun a s =>
    let p := bodyPrefix a.cmd
    if !prefixOk p then refuse 0x106 s
    else if (routeAt s (stagedPar s) p).isNone then refuse 0x104 s
    else ok (setRoute (stagedPar s) p none s)

/-- LPM LOOKUP. -/
def lpmLookup : CmdSpec where
  target := 2
  opcode := 3
  form := .short
  changes := false
  modes := inOpen
  regions := fun _ => []
  body := fun a s =>
    let p := bodyPrefix a.cmd
    if !prefixOk p then refuse 0x106 s
    else match routeAt s (fld 9 9 (bodyWord a.cmd 0x08)) p with
      | none => refuse 0x104 s
      | some v => okWith (List.replicate 12 0 ++ toLE 4 v) s

/-- LPM MATCH. -/
def lpmMatch : CmdSpec where
  target := 2
  opcode := 4
  form := .short
  changes := false
  modes := inOpen
  regions := fun _ => []
  body := fun a s =>
    let w := bodyWord a.cmd 0x08
    match longestMatch s (fld 9 9 w) (bit 8 w) (ofLE (bodyAt a.cmd 0x0C 8)) with
    | none => refuse 0x104 s
    | some (r, v) => okWith (toLE 4 r.len ++ toLE 8 r.addr ++ toLE 4 v) s

/-- LPM_INSERT (R327). -/
def execLpmInsert (c : Cmd) (s : State) : Host.Outcome State Fault Refusal := .next (runCmd lpmInsert c s)
/-- LPM_DELETE (R327). -/
def execLpmDelete (c : Cmd) (s : State) : Host.Outcome State Fault Refusal := .next (runCmd lpmDelete c s)
/-- LPM_LOOKUP (R334). -/
def execLpmLookup (c : Cmd) (s : State) : Host.Outcome State Fault Refusal := .next (runCmd lpmLookup c s)
/-- LPM_MATCH (R334). -/
def execLpmMatch (c : Cmd) (s : State) : Host.Outcome State Fault Refusal := .next (runCmd lpmMatch c s)

/-! ## Stage copies (R325) -/

/-- Stage `k` of pair `c`, or of its peer, serves. -/
def stageServed (s : State) (c k : Nat) : Bool := !unitAway s .trie (12 * c + k) || !unitAway s .trie (12 * (c ^^^ 1) + k)
/-- Both copies are failed. -/
def stageDead (s : State) (c k : Nat) : Bool :=
  unitState s .trie (12 * c + k) == 3 && unitState s .trie (12 * (c ^^^ 1) + k) == 3

/-- A slice's LPM lookups, of either family, miss because both copies of some stage are failed; they are held while neither copy of a
stage serves and one of them can come back. -/
def lpmDead (s : State) (sl : Nat) : Bool := (List.range 12).any fun k => stageDead s (sl / 2) k
def lpmHeld (s : State) (sl : Nat) : Bool := !lpmDead s sl && (List.range 12).any fun k => !stageServed s (sl / 2) k

/-- LPM_COPY_STATE of a pair: own stages in use, stages borrowed. -/
def lpmCopyState (s : State) (c : Nat) : Nat :=
  ((List.range 12).map fun k =>
    if !unitAway s .trie (12 * c + k) then 2 ^ k
    else if !unitAway s .trie (12 * (c ^^^ 1) + k) then 2 ^ (16 + k) else 0).sum

end Sys2Proof.Machine
end

