-- ==== Sys2Proof/Machine/NhpMcg.lean ====
section
/-! DEFINITION. The commands of the NHP and MCG targets (R328, R331, R333 to R335). -/

namespace Sys2Proof.Machine

open Sys2Proof

/-! ## NHP -/

/-- What an index of the NHP target names (R328). -/
inductive NhpKind | hop | ecmp | lag | vlan
deriving DecidableEq, Repr

/-- The kind of an index; none outside the target's space. -/
def nhpKind (i : Nat) : Option NhpKind :=
  if i < 0x20000 then some .hop else if i < 0x21000 then some .ecmp else if i < 0x21100 then some .lag
  else if 0x22000 ≤ i ∧ i < 0x23000 then some .vlan else none

/-- A next hop's fields lie in their ranges (R328). -/
def hopOk (w2 : Nat) : Bool :=
  match fld 2 0 w2 with
  | 1 => decide (fld 16 3 w2 ≤ 258)
  | 2 => decide (fld 16 3 w2 ≤ 255)
  | 5 | 6 | 7 => false
  | _ => true

/-- NHP WRITE. -/
def nhpWrite : CmdSpec where
  target := 3
  opcode := 1
  form := .short
  changes := true
  modes := inOpen
  regions := fun _ => [0x0C]
  body := fun a s =>
    let i := fld 17 0 (bodyWord a.cmd 0x08)
    let ws := wordsLE 4 (bodyAt a.cmd 0x0C 16)
    match nhpKind i with
    | some .hop =>
      if hopOk (nth 0 ws 2) then ok (setEntry 2 i (stagedPar s) (maskWords [0xFFFFFFFF, 0x1FFFFFFF, 0xFFFFF, 0] ws) s)
      else refuse 0x103 s
    | some .vlan => ok (setEntry 2 i (stagedPar s) (maskWords [0xFFFFFFFF, 7, 0, 0] ws) s)
    | _ => refuse 0x102 s

/-- NHP READ. -/
def nhpRead : CmdSpec where
  target := 3
  opcode := 2
  form := .short
  changes := false
  modes := inOpen
  regions := fun _ => []
  body := fun a s =>
    let w := bodyWord a.cmd 0x08
    let i := fld 17 0 w
    match nhpKind i with
    | some .hop | some .vlan =>
      let ws := entry s 2 i (fld 18 18 w)
      okWith (toLE 4 0 ++ bytesOfWords ((List.range 4).map fun k => nth 0 ws k)) s
    | _ => refuse 0x102 s

/-- The bytes and members of a group entry. -/
def groupBytes (lag : Bool) : Nat := if lag then 328 else 520
def groupMax (lag : Bool) : Nat := if lag then 16 else 64
def groupHomeOff (lag : Bool) : Nat := if lag then 0x48 else 0x108

/-- COUNT and the HOME bytes lie in their ranges (R328). -/
def groupOk (lag : Bool) (bs : List Byte) : Bool :=
  let n := if lag then byteAt bs 0 % 32 else byteAt bs 0 % 128
  decide (n ≤ groupMax lag) && (n == 0 || bit 7 (byteAt bs 0) ||
    (List.range 256).all fun b => decide ((if lag then byteAt bs (groupHomeOff lag + b) % 16 else byteAt bs (groupHomeOff lag + b) % 64) < n))

/-- The defined bits of a group entry. -/
def groupMasks (lag : Bool) : List Nat :=
  (List.range (groupBytes lag / 4)).map fun k =>
    if k = 0 then (if lag then 0x9F else 0xFF)
    else if k = 1 then 0
    else if 4 * k < groupHomeOff lag then (if lag then 0xFF else 0x1FFFF)
    else if lag then 0x0F0F0F0F else 0x3F3F3F3F

/-- NHP WRITE_GROUP. -/
def nhpWriteGroup : CmdSpec where
  target := 3
  opcode := 3
  form := .readsBuf
  changes := true
  modes := inOpen
  regions := fun _ => [0x0C]
  body := fun a s =>
    let i := fld 17 0 (bodyWord a.cmd 0x14)
    let go (lag : Bool) : CmdOut :=
      if dataBytes a.cmd ≠ groupBytes lag ∨ groupOk lag a.buf = false then refuse 0x103 s
      else ok (setEntry 2 i (stagedPar s) (maskWords (groupMasks lag) (wordsLE (groupBytes lag / 4) a.buf)) s)
    match nhpKind i with
    | some .ecmp => go false
    | some .lag => go true
    | _ => refuse 0x102 s

/-- NHP READ_GROUP. -/
def nhpReadGroup : CmdSpec where
  target := 3
  opcode := 4
  form := .writesBuf
  changes := false
  modes := inOpen
  regions := fun _ => []
  body := fun a s =>
    let i := fld 17 0 (bodyWord a.cmd 0x14)
    let go (lag : Bool) : CmdOut :=
      if dataBytes a.cmd ≠ groupBytes lag then refuse 0x103 s
      else
        let ws := entry s 2 i (fld 16 16 (bodyWord a.cmd 0x18))
        okData (bytesOfWords ((List.range (groupBytes lag / 4)).map fun k => nth 0 ws k)) s
    match nhpKind i with
    | some .ecmp => go false
    | some .lag => go true
    | _ => refuse 0x102 s

/-- The word of one bucket in READ_BUCKETS; `open0` stands for the member that a group without members gives. -/
def bucketWord (s : State) (set group open0 b : Nat) : Nat :=
  let lag := set == 0
  let i := if lag then 0x21000 + group else 0x20000 + group
  let ws := entry s 2 i (curPar s)
  let moving := (kvGet (bucketKey set group b) s.tab.moves).isSome
  let member := match carried s (curPar s) set group b with
    | none => open0 % 256
    | some x =>
      if (groupMembers lag ws).contains x then pathNumber s (curPar s) set group x else pathNumber s (curPar s + 1) set group x
  member % 256 + (groupHome lag ws b) * 2 ^ 8 + b2n moving * 2 ^ 16

/-- NHP READ_BUCKETS. The member of a bucket whose group has no member is a free value: the spec names none. -/
def nhpReadBuckets : CmdSpec where
  target := 3
  opcode := 5
  form := .writesBuf
  changes := false
  modes := inOpen
  regions := fun _ => []
  body := fun a s =>
    let i := fld 17 0 (bodyWord a.cmd 0x14)
    let go (set group : Nat) : CmdOut :=
      if dataBytes a.cmd ≠ 1024 then refuse 0x103 s
      else okData ((List.range 256).flatMap fun b => toLE 4 (bucketWord s set group (draw s) b)) (drew s)
    match nhpKind i with
    | some .ecmp => go 1 (i - 0x20000)
    | some .lag => go 0 (i - 0x21000)
    | _ => refuse 0x102 s

/-! ## MCG (R331, R333) -/

/-- A replication entry, and its validity. -/
def replAt (s : State) (r : Nat) : Option Repl := kvGet r s.tab.repl
def Repl.valid (e : Repl) (par : Nat) : Bool := if par % 2 = 0 then e.v0 else e.v1

/-- A replication entry's DEST lies in its range. -/
def replOk (w0 : Nat) : Bool := decide (fld 8 0 w0 ≤ if bit 9 w0 then 255 else 258)

/-- Writing a replication entry with its staged bit alone. -/
def writeRepl (r w0 w1 : Nat) (s : State) : State :=
  let p := stagedPar s
  { s with tab := { s.tab with repl := kvPut r { w0 := w0 &&& 0x1FFFFFF, w1 := w1 &&& 0x1FFFF, v0 := p == 0, v1 := p == 1 } s.tab.repl } }

/-- Clearing a replication entry's staged bit; one without a bit is free. -/
def clearRepl (r : Nat) (s : State) : State :=
  match replAt s r with
  | none => s
  | some e =>
    let e1 := if stagedPar s = 0 then { e with v0 := false } else { e with v1 := false }
    { s with tab := { s.tab with repl := if e1.v0 || e1.v1 then kvPut r e1 s.tab.repl else kvDel r s.tab.repl } }

/-- The entry's bit is set in the current parity. -/
def replLive (s : State) (r : Nat) : Bool :=
  match replAt s r with
  | none => false
  | some e => e.valid (curPar s)

/-- MCG WRITE. -/
def mcgWrite : CmdSpec where
  target := 4
  opcode := 1
  form := .short
  changes := true
  modes := inOpen
  regions := fun _ => [0x0D]
  body := fun a s =>
    let i := fld 17 0 (bodyWord a.cmd 0x08)
    let w0 := bodyWord a.cmd 0x0C
    let w1 := bodyWord a.cmd 0x10
    if i < 16384 then ok (setEntry 3 i (stagedPar s) [w0 &&& 0x3FFFF, 0] s)
    else if i < 0x20000 then refuse 0x102 s
    else if !replOk w0 then refuse 0x103 s
    else if replLive s (i - 0x20000) then refuse 0x101 s
    else ok (writeRepl (i - 0x20000) w0 w1 s)

/-- MCG INVALIDATE. -/
def mcgInvalidate : CmdSpec where
  target := 4
  opcode := 2
  form := .short
  changes := true
  modes := inOpen
  regions := fun _ => [0x0D]
  body := fun a s =>
    let i := fld 17 0 (bodyWord a.cmd 0x08)
    if i < 0x20000 then refuse 0x102 s else ok (clearRepl (i - 0x20000) s)

/-- MCG READ. -/
def mcgRead : CmdSpec where
  target := 4
  opcode := 3
  form := .short
  changes := false
  modes := inOpen
  regions := fun _ => []
  body := fun a s =>
    let w := bodyWord a.cmd 0x08
    let i := fld 17 0 w
    if i < 16384 then
      let ws := entry s 3 i (fld 18 18 w)
      okWith (toLE 4 0 ++ toLE 4 (nth 0 ws 0) ++ toLE 4 (nth 0 ws 1)) s
    else if i < 0x20000 then refuse 0x102 s
    else match replAt s (i - 0x20000) with
      | none => okWith [] s
      | some e => okWith (toLE 4 0 ++ toLE 4 (e.w0 + b2n e.v0 * 2 ^ 25 + b2n e.v1 * 2 ^ 26) ++ toLE 4 e.w1) s

/-- MCG WRITE_RUN. -/
def mcgWriteRun : CmdSpec where
  target := 4
  opcode := 4
  form := .readsBuf
  changes := true
  modes := inOpen
  regions := fun _ => [0x0D]
  body := fun a s =>
    let i := fld 17 0 (bodyWord a.cmd 0x14)
    let n := fld 12 0 (bodyWord a.cmd 0x18)
    let word (k : Nat) : Nat := ofLE ((a.buf.drop (4 * k)).take 4)
    if n = 0 ∨ 4096 < n ∨ dataBytes a.cmd ≠ 8 * n then refuse 0x103 s
    else if i < 0x20000 ∨ 0x40000 < i + n then refuse 0x102 s
    else if !(List.range n).all fun k => replOk (word (2 * k)) then refuse 0x103 s
    else if (List.range n).any fun k => replLive s (i - 0x20000 + k) then refuse 0x101 s
    else ok (forAll (fun k => writeRepl (i - 0x20000 + k) (word (2 * k)) (word (2 * k + 1))) (List.range n) s)

/-- NHP_WRITE (R334). -/
def execNhpWrite (c : Cmd) (s : State) : Host.Outcome State Fault Refusal := .next (runCmd nhpWrite c s)
/-- NHP_READ (R334). -/
def execNhpRead (c : Cmd) (s : State) : Host.Outcome State Fault Refusal := .next (runCmd nhpRead c s)
/-- WRITE_GROUP (R334). -/
def execWriteGroup (c : Cmd) (s : State) : Host.Outcome State Fault Refusal := .next (runCmd nhpWriteGroup c s)
/-- READ_GROUP (R334). -/
def execReadGroup (c : Cmd) (s : State) : Host.Outcome State Fault Refusal := .next (runCmd nhpReadGroup c s)
/-- READ_BUCKETS (R334). -/
def execReadBuckets (c : Cmd) (s : State) : Host.Outcome State Fault Refusal := .next (runCmd nhpReadBuckets c s)
/-- MCG_WRITE (R333). -/
def execMcgWrite (c : Cmd) (s : State) : Host.Outcome State Fault Refusal := .next (runCmd mcgWrite c s)
/-- MCG_INVALIDATE (R333). -/
def execMcgInvalidate (c : Cmd) (s : State) : Host.Outcome State Fault Refusal := .next (runCmd mcgInvalidate c s)
/-- MCG_READ (R334). -/
def execMcgRead (c : Cmd) (s : State) : Host.Outcome State Fault Refusal := .next (runCmd mcgRead c s)
/-- WRITE_RUN (R334). -/
def execWriteRun (c : Cmd) (s : State) : Host.Outcome State Fault Refusal := .next (runCmd mcgWriteRun c s)

end Sys2Proof.Machine
end

