-- ==== Sys2Proof/Machine/Forward.lean ====
section
/-! DEFINITION. Step 8 of the ingress slice: the forwarding lookups a to i and the copies they give (R300 to R304, R328 to
R332, R433). -/

namespace Sys2Proof.Machine

open Sys2Proof

/-! ## Copies -/

/-- The queue of a forwarding copy (R287, R433): the gate's IPV, the rule's queue, the port's default mapping. -/
def Slice.queueOf (w : Slice) (p : Nat) : Nat :=
  match w.ipv, w.queue with
  | some q, _ => q
  | none, some q => q
  | none, none => fld (3 * w.x.prio + 2) (3 * w.x.prio) (cu w.s (R.quePrioMap p))

/-- A forwarding copy to a port; a copy to the recorder port decides no fate (R33). -/
def Slice.copyTo (w : Slice) (p : Nat) (vid : Option Nat) : Copy :=
  { frame := 0, port := p, queue := w.queueOf p, fwd := p != 257, vid := vid }

/-- The frame goes to P256 with REASON 0 on a named host queue; a bridged copy of a frame from P256 is removed (R304). -/
def Slice.toHost (bridged : Bool) (q : Nat) (w : Slice) : Slice :=
  if bridged && w.x.inPort == 256 then (w.on (incRg R.mcgPruned)).discard 0x13
  else { w with fwd := [{ frame := 0, port := 256, queue := q, fwd := true, named := true }] }

/-! ## Ports and LAGs (lookup h) -/

/-- A single port; a bridged copy to the ingress port is removed (R304). -/
def Slice.toPort (bridged : Bool) (p : Nat) (w : Slice) : Slice :=
  if bridged && p == w.x.inPort then (w.on (incRg R.mcgPruned)).discard 0x13
  else { w with fwd := [w.copyTo p none] }

/-- The frame has been looked up through a bucket to a path (R24). -/
def Slice.through (set group b path : Nat) (w : Slice) : Slice :=
  { w with x := { w.x with paths := w.x.paths ++ [(set, group, b, path)] } }

/-- The path of the frame's bucket in a LAG (set 0) or ECMP group (set 1) with these words: none for a group without members.
An error in the bucket's state gives its home member (R338). -/
def bucketPath (errs : List (Nat × Nat)) (set group : Nat) (ws : List Nat) (w : Slice) : Option Nat × Slice :=
  let lag := set == 0
  let members := groupMembers lag ws
  if members.isEmpty then (none, w)
  else
    let b := w.x.hash % 256
    let (bad, w1) := lookBad errs (32 + set) (256 * group + b) w
    let home := (members[groupHome lag ws b]?).orElse fun _ => members[0]?
    let path := ((if bad then none else carried w1.s w1.x.par set group b).orElse fun _ => home).getD 0
    let live := members.any fun m => if lag then (port w1.s m).up else hopLive w1.s w1.x.par m
    (some path, (w1.through set group b path).on (whenDo (!live) (incRg R.nhpNoLive)))

/-- The member port that a LAG gives a frame: none where it has no member or its entry is bad. -/
def lagPort (errs : List (Nat × Nat)) (l : Nat) (w : Slice) : Option Nat × Slice :=
  let (bad, w1) := lookBad errs 3 (0x21000 + l) w
  if bad then (none, w1) else bucketPath errs 0 l (lagWords w1.s w1.x.par l) w1

/-- The frame goes to a LAG. -/
def Slice.toLag (errs : List (Nat × Nat)) (bridged : Bool) (l : Nat) (w : Slice) : Slice :=
  match lagPort errs l w with
  | (none, w1) => w1.discard 8
  | (some p, w1) => w1.toPort bridged p

/-! ## Multicast groups (lookup i, R331, R332) -/

/-- The LAG an ingress port belongs to in a parity: the lowest-numbered one (R315). -/
def lagOf (s : State) (par p : Nat) : Option Nat :=
  if 256 ≤ p then none
  else (List.range 256).find? fun l => (groupMembers true (lagWords s par l)).contains p

/-- The ports that a flooded or group copy never goes back to (R304). -/
def ownPorts (s : State) (par p : Nat) : List Nat :=
  p :: (match lagOf s par p with
    | some l => groupMembers true (lagWords s par l)
    | none => [])

/-- The copies of a list from entry `r` on, each with HAIRPIN: at most 272 entries are read. -/
def walkList (errs : List (Nat × Nat)) : Nat → Nat → List (Copy × Bool) → Slice → List (Copy × Bool) × Slice
  | 0, _, made, w => (made, w.on (incRg R.mcgListLong))
  | fuel + 1, r, made, w =>
    let (bad, w1) := lookBad errs 4 (0x20000 + r) w
    match (if bad then none else (replAt w1.s r).filter fun e => e.valid w1.x.par) with
    | none => (made, w1.on (incRg R.mcgListBroken))
    | some e =>
      let (p, w2) := if bit 9 e.w0 then lagPort errs (fld 7 0 e.w0) w1 else (some (fld 8 0 e.w0), w1)
      let vid := if bit 22 e.w0 then some (fld 21 10 e.w0) else none
      let taken (p : Nat) : Bool := made.any fun c => c.1.port == p
      let (made1, w3) := match p with
        | none => (made, w2)
        | some p => if taken p then (made, w2.on (incRg R.mcgDupCopy)) else (made ++ [(w2.copyTo p vid, bit 23 e.w0)], w2)
      if bit 24 e.w0 then (made1, w3) else walkList errs fuel (fld 16 0 e.w1) made1 w3

/-- The frame goes to a multicast group: its list's copies, less those that R304 removes. -/
def Slice.toGroup (errs : List (Nat × Nat)) (bridged : Bool) (g : Nat) (w : Slice) : Slice :=
  let (bad, w1) := lookBad errs 4 g w
  let a := nth 0 (entry w1.s 3 g w1.x.par) 0
  if bad || !bit 17 a then w1.discard 8
  else
    let (made, w2) := walkList errs 272 (fld 16 0 a) [] w1
    let own := if bridged then ownPorts w2.s w2.x.par w2.x.inPort else []
    let kept := made.filter fun c => c.2 || !own.contains c.1.port
    let w3 := w2.on (addRg R.mcgPruned (made.length - kept.length))
    if made.isEmpty then w3.discard 8
    else if kept.isEmpty then w3.discard 0x13
    else { w3 with fwd := kept.map (·.1) }

/-! ## Next hops and routes (lookups e to g) -/

/-- The frame takes a next hop. -/
def Slice.toHop (errs : List (Nat × Nat)) (i : Nat) (w : Slice) : Slice :=
  let (bad, w1) := lookBad errs 3 i w
  let ws := nextHopWords w1.s w1.x.par i
  let a := nth 0 ws 2
  let w2 := { w1 with x := { w1.x with nextHop := some (nth 0 ws 0, nth 0 ws 1) } }
  if bad then w1.discard 8
  else match fld 2 0 a with
    | 1 => w2.toPort false (fld 16 3 a)
    | 2 => w2.toLag errs false (fld 16 3 a)
    | 3 => w2.toGroup errs false (fld 16 3 a)
    | 4 => w2.toHost false (fld 19 17 a)
    | _ => w2.discard 8

/-- The frame takes an ECMP group. -/
def Slice.toEcmp (errs : List (Nat × Nat)) (g : Nat) (w : Slice) : Slice :=
  let (bad, w1) := lookBad errs 3 (0x20000 + g) w
  if bad then w1.discard 8
  else match bucketPath errs 1 g (ecmpWords w1.s w1.x.par g) w1 with
    | (none, w2) => w2.discard 8
    | (some i, w2) => w2.toHop errs i

/-- An LPM miss (R303). -/
def Slice.lpmMiss (v6 : Bool) (w : Slice) : Slice :=
  let cfg := cu w.s R.lpmCfg
  let w1 := w.on (incRg64 R.lpmMisses)
  if (if v6 then fld 3 2 cfg else fld 1 0 cfg) = 0 then w1.discard 8 else w1.toHost false (fld 6 4 cfg)

/-- Whether a lookup meets a bad word of the LPM: one that it finds now, or one of its copy that stands unrepaired and that the walk of
its address reads (assumption 179). -/
def lpmErrors (errs : List (Nat × Nat)) (a : Nat) (w : Slice) : Bool × Slice :=
  let known := w.s.tab.bad.any fun b => b.1 == 2 && b.2.2 == w.sl / 2 && Config.lpmReads b.2.1 a
  errs.foldl (fun r e => if e.1 = 2 then (true, (lookBad errs 2 e.2 r.2).2) else r) (known, w)

/-- The frame is routed: lookup e on its destination address (R303, R324, R325). -/
def Slice.route (errs : List (Nat × Nat)) (w : Slice) : Slice :=
  let v6 := w.x.parsed.l3 == 6
  let a := if v6 then w.x.parsed.dip / 2 ^ 64 else w.x.parsed.dip * 2 ^ 32
  if lpmHeld w.s w.sl then { w with hold := true }
  else
    let (bad, w1) := lpmErrors errs w.x.parsed.dip w
    if bad || lpmDead w1.s w1.sl then w1.lpmMiss v6
    else match longestMatch w1.s w1.x.par v6 a with
      | none => w1.lpmMiss v6
      | some (_, v) => if bit 17 v then w1.toEcmp errs (v % 4096) else w1.toHop errs (v % 2 ^ 17)

/-! ## Ports, VLANs and the FDB (lookups a to d) -/

/-- The VID of lookup b. -/
def lookupVid (w : Slice) : Nat :=
  let v := outerVid w.x.parsed
  if v = 0 then pgF w.s w.x.par (R.fdbPort w.x.inPort) 11 0 else v

/-- A key's slot in the frame's parity; a lookup that meets a bad slot misses (R338). -/
def fdbMeet (errs : List (Nat × Nat)) (mac fid : Nat) (w : Slice) : Option (Nat × FdbEntry) × Bool × Slice :=
  let r := (keySlots w.s mac fid).foldl (fun r i =>
    let (bad, w1) := lookBad errs 1 i r.2
    (r.1 || bad, w1)) (false, w)
  (if r.1 then none else fdbFind r.2.s r.2.x.par mac fid, r.1, r.2)

/-- Lookup c: learning and activity (R315, R321). -/
def Slice.source (errs : List (Nat × Nat)) (vlan : List Nat) (w : Slice) : Slice :=
  let sa := w.x.parsed.smac
  let fid := fld 11 0 (nth 0 vlan 0)
  let domain := fld 15 12 (nth 0 vlan 0)
  let (hit, bad, w1) := fdbMeet errs sa fid w
  let lag := lagOf w1.s w1.x.par w1.x.inPort
  let kind := if lag.isSome then 1 else 0
  let dest := lag.getD w1.x.inPort
  let mode := domainMode w1.s domain
  let learns := bit 0 (cu w1.s R.fdbCfg) && pgF w1.s w1.x.par (R.fdbPort w1.x.inPort) 13 13 == 1 && bit 0 (nth 0 vlan 1) &&
    (mode == 1 || mode == 2) && sa != 0 && !bit 40 sa && !bad
  let ask (w : Slice) : Slice := w.on (whenDo learns (askLearn
    { mac := sa, fid := fid, domain := domain, mode := mode, kind := kind, dest := dest, port := w.x.inPort, par := w.x.par }))
  match hit with
  | none => ask w1
  | some (i, e) =>
    let same := e.kind == kind && e.dest == dest
    if e.static then w1.on (whenDo (!same) (incRg R.fdbStaticConflict))
    else if same then w1.on (setFdb i { e with active := true })
    else ask w1

/-- Lookup d and what follows from it (R302, R303). -/
def Slice.destination (errs : List (Nat × Nat)) (mayRoute : Bool) (vlan : List Nat) (w : Slice) : Slice :=
  let a := nth 0 vlan 0
  let b := nth 0 vlan 1
  let da := w.x.parsed.dmac
  let flood (w : Slice) : Slice := w.toGroup errs true (fld 29 16 a)
  if !bit 0 b then w.discard 8
  else if da = 0xFFFFFFFFFFFF then flood w
  else
    let (hit, _, w1) := fdbMeet errs da (fld 11 0 a) w
    match hit with
    | none => if bit (if bit 40 da then 31 else 30) a then w1.discard 8 else flood w1
    | some (_, e) =>
      let hq := fld 21 19 e.info
      let w2 := if bit 18 e.info then { w1 with host := w1.host ++ [(1, hq)] } else w1
      match e.kind with
      | 0 => w2.toPort true e.dest
      | 1 => w2.toLag errs true e.dest
      | 2 => w2.toGroup errs true e.dest
      | 3 =>
        let l3 := w2.x.parsed.l3
        if mayRoute && ((l3 == 4 && bit 1 b) || (l3 == 6 && bit 2 b)) then w2.route errs else w2.toHost true 0
      | 4 => w2.toHost true hq
      | _ => w2.discard 8

/-- Step 8 (R300, R301); a malformed frame takes lookups a, b, d, h and i only. -/
def stepForward (errs : List (Nat × Nat)) (malformed : Bool) (w : Slice) : Slice :=
  let vid := lookupVid w
  let (bad, w1) := lookBad errs 3 (0x22000 + vid) w
  if bad then w1.discard 8
  else
    let vlan := entry w1.s 2 (0x22000 + vid) w1.x.par
    if malformed then w1.destination errs false vlan
    else
      let w2 := w1.source errs vlan
      match w2.dest.1 with
      | 1 => w2.toPort false w2.dest.2
      | 2 => w2.toGroup errs true (w2.dest.2 % 16384)
      | 3 => w2.toHop errs (w2.dest.2 % 131072)
      | _ => w2.destination errs true vlan

end Sys2Proof.Machine
end

