-- ==== Sys2Proof/Machine/Tsuip.lean ====
section
/-! DEFINITION. The Tsuip link: training, width and retraining, credits, time-transfer and cycle marks (05_lanes, R173 to
R192). -/

namespace Sys2Proof.Machine

open Sys2Proof

/-- The Tsuip state of a port, and changing it. -/
def tsOf (s : State) (p : Nat) : Ts := (port s p).ts
def setTs (p : Nat) (t : Ts) (s : State) : State := modPort p (fun x => { x with ts := t }) s
def modTs (p : Nat) (f : Ts → Ts) (s : State) : State := setTs p (f (tsOf s p)) s

/-- The physical lanes that carry a Tsuip link in either direction, one bit each. -/
def tsLanes (t : Ts) : Nat := t.inUse ||| t.txUse

/-- The configured width of a Tsuip port. -/
def tsCfgWidth (s : State) (p : Nat) : Nat := modeLanes (portMode s p)

/-- The physical lane that carries receive lane i of a port: the one whose DSK sets bear that number, else the one of SER_MAP
where no set has given it another (R168). -/
def tsRxPhys (s : State) (p i : Nat) : Option Nat :=
  let t := tsOf s p
  let ln := rxLane s (p / 4) (p % 4 + i)
  match t.rxOrder.find? fun r => r.2 == i with
  | some r => some (4 * (p / 4) + r.1)
  | none => if t.rxOrder.any fun r => r.1 == ln % 4 then none else some ln

/-- The receive lane of a port, counted within it, that a physical lane carries. -/
def tsLogical (s : State) (p ln : Nat) : Option Nat := (List.range (tsCfgWidth s p)).find? fun i => tsRxPhys s p i == some ln

/-- A physical lane receives, and its lanes serve. -/
def tsLaneGood (s : State) (p i : Nat) : Bool :=
  match tsRxPhys s p i with
  | some ln => (lane s ln).good && !unitAway s .lane ln && !unitAway s .lane (txLane s (p / 4) (p % 4 + i))
  | none => false

/-- The device's good receive lanes of a port, by the partner's lane numbers (R188). -/
def tsGood (s : State) (p : Nat) : List Nat := (List.range (tsCfgWidth s p)).filter (tsLaneGood s p)

/-- The largest of 4, 2 and 1 that does not exceed `n`; 0 where there is none. -/
def widthUpTo (n : Nat) : Nat := if 4 ≤ n then 4 else if 2 ≤ n then 2 else if 1 ≤ n then 1 else 0

/-- The number of set bits among the low four. -/
def pop4 (n : Nat) : Nat := n % 2 + n / 2 % 2 + n / 4 % 2 + n / 8 % 2

/-- The width this end proposes (R188). -/
def tsProposal (s : State) (p : Nat) (partnerGood : Nat) : Nat :=
  widthUpTo (min (tsCfgWidth s p) (min (tsGood s p).length (pop4 partnerGood)))

/-- A set of physical lanes of a quad, one bit each. -/
def laneMask (lns : List Nat) : Nat := (lns.map fun ln => 2 ^ (ln % 4)).foldl (· ||| ·) 0

/-- The physical receive lanes in use at a width: the partner takes the lowest-numbered ones reported good (R188). -/
def tsLanesAt (s : State) (p w : Nat) : Nat := laneMask (((tsGood s p).take w).filterMap (tsRxPhys s p))

/-- The physical transmit lanes in use at a width: the lowest-numbered ones that the partner reports good (R188). -/
def tsTxAt (s : State) (p w : Nat) : Nat :=
  laneMask ((((List.range (tsCfgWidth s p)).filter fun i => bit i (tsOf s p).partnerGood).take w).map
    fun i => txLane s (p / 4) (p % 4 + i))

/-- The WIDTH this end sends: its proposal in training, and the smaller of the two once the partner's is known; in ACTIVE the
width in use (R187, R188). -/
def tsWidthSent (s : State) (p : Nat) : Nat :=
  let t := tsOf s p
  let mine := tsProposal s p t.partnerGood
  if t.st = 4 then t.width else if t.partnerWidth = 0 then mine else min mine t.partnerWidth

/-- Falling back to DETECT: the port is down (R187). -/
def tsDetect (p : Nat) (s : State) : State :=
  linkEval p (modTs p (fun t => { t with
    st := 1, width := 0, inUse := 0, txUse := 0, timer := none, initSeen := 0, inited := 0, ackSeen := false,
    creditShort := false, peerShort := 0, partnerWidth := 0, ackedWidth := 0 }) s)

/-- RETRAIN is entered: new frames are held, and T_RETRAIN starts, once a frame in progress has ended; the entry is counted (R187,
R193). -/
def tsRetrain (p : Nat) (s : State) : State :=
  incRg (tsReg R.serTsRetrains p) (modTs p (fun t => { t with
    st := 5, timer := if (port s p).sending.isSome then none else some s.now, partnerWidth := 0, ackedWidth := 0 }) s)

/-- The frame that a port was sending has ended: a RETRAIN that waited for it starts T_RETRAIN (R187). -/
def tsFrameEnds (p : Nat) (s : State) : State :=
  whenDo (portTsuip s p && (tsOf s p).st == 5 && (tsOf s p).timer.isNone) (modTs p fun t => { t with timer := some s.now }) s

/-- Lanes in use fail in ACTIVE (R187, R190): with a good lane left the frame in progress is ended with EEF and the link
retrains; with none the port goes down. Two rows of R187's table meet where every lane in use fails and a good lane that is not in use
remains: the link retrains (DESIGN CHOICE, assumption 169). `failed` are logical lanes of the port. -/
def tsFail (p failed : Nat) (s : State) : State :=
  let left := (tsGood s p).filter fun i => !bit i failed
  let s1 := emitLink 2 p (failed * 2 ^ (p % 4) % 16) (tsOf s p).width s
  if left.isEmpty then tsDetect p (cutTransmit p true s1) else tsRetrain p (cutTransmit p true s1)

/-- A lane in use fails in ACTIVE (R190): LOS, LOL or symbol lock lost, markers missing or out of column at two in a row, or
more than ERR_LIMIT code errors within 1 ms. -/
def tsLaneFailed (s : State) (p i : Nat) : Bool :=
  match tsRxPhys s p i with
  | none => false
  | some ln =>
    let l := lane s ln
    bit (ln % 4) (tsOf s p).inUse &&
      (!l.good || decide (2 ≤ l.missed) || decide (cuF s (tsReg R.serTsCfg p) 23 16 <
        ((l.errs.filter fun e => decide (s.elapsed < e.1 + msT 1)).map (·.2)).sum))

/-- The lanes in use of a port in ACTIVE are judged; DESKEW_LOST where markers fail one (R190, R193). -/
def tsJudge (p : Nat) (s : State) : State :=
  let failed := (List.range (tsCfgWidth s p)).filter (tsLaneFailed s p)
  if portTsuip s p && (tsOf s p).st == 4 && !failed.isEmpty then
    let skew := failed.any fun i => match tsRxPhys s p i with
      | some ln => decide (2 ≤ (lane s ln).missed)
      | none => false
    tsFail p ((failed.map (2 ^ ·)).foldl (· + ·) 0) (whenDo skew (stickRg (tsReg R.serTsEvt p) 3) s)
  else s

/-- Code errors of a lane are counted, and held for 1 ms (R173, R190, R193). -/
def codeErrors (ln n : Nat) (s : State) : State :=
  if n = 0 then s
  else
    let l := lane s ln
    addRg (R.serLaneCodeErr (ln / 4) (ln % 4)) n
      (setLane ln { l with errs := (s.elapsed, n) :: l.errs.filter fun e => decide (s.elapsed < e.1 + msT 1) } s)

/-- The ten-bit groups that a lane has received, inverted by RX_INV, are judged: how many are in error, and the state with the running
disparity they leave (R168, R173). -/
def groupErrors (ln : Nat) (gs : List Nat) (s : State) : Nat × State :=
  let inv := bit 1 (cu s (R.serLaneCfg (ln / 4) (ln % 4)))
  let r := judgeGroups (lane s ln).rxRd (if inv then gs.map (1023 - ·) else gs)
  (r.1, setLane ln { lane s ln with rxRd := r.2 } s)

/-- What a lane counts, as it becomes ACTIVE or so again, begins anew: only what it shows in ACTIVE fails it (R190). -/
def tsFresh (p : Nat) (s : State) : State :=
  forAll (fun i s => setLane (4 * (p / 4) + i) { lane s (4 * (p / 4) + i) with errs := [], missed := 0 } s)
    ((List.range 4).filter fun i => bit i (tsOf s p).inUse) s

/-- A lane in use is out of service or leaving: the link goes on through RETRAIN without it (R190, R505). -/
def tsLaneAway (s : State) (p : Nat) : Bool :=
  (List.range 4).any fun i => bit i (tsLanes (tsOf s p)) && unitAway s .lane (4 * (p / 4) + i)

/-- A physical lane of a Tsuip port has lost LOS-, LOL- or symbol lock (R190). In RETRAIN nothing follows until the sets agree or
T_RETRAIN expires (R187). -/
def tsLaneLost (p _ln : Nat) (s : State) : State := tsJudge p s

/-- Every Tsuip port of a quad falls to DETECT: its lanes have stopped (R161). -/
def tsQuadDown (q : Nat) (s : State) : State :=
  forAll (fun j s => whenDo (portTsuip s (4 * q + j) && decide (1 ≤ (tsOf s (4 * q + j)).st)) (tsDetect (4 * q + j)) s)
    (List.range 4) s

/-- The initial credit of a class: its WINDOW, or 0 where the class is off (R182). -/
def tsWindow (s : State) (p c : Nat) : Nat :=
  if bit c (cuF s (tsReg R.serTsCfg2 p) 23 16) then cuF s (tsReg R.serTsCredit0 p + 4 * c) 12 0 else 0

/-- CONFIG is entered: INIT credits go out for all eight classes (R187). -/
def tsConfig (p w : Nat) (s : State) : State :=
  modTs p (fun t => { t with
    st := 3, width := w, inUse := tsLanesAt s p w, txUse := tsTxAt s p w, timer := some s.now, initSeen := 0,
    inited := 0, ackSeen := false, creditShort := false, peerShort := 0,
    returned := List.replicate 8 0, withheld := List.replicate 8 0, received := List.replicate 8 0,
    advertised := (List.range 8).map (tsWindow s p) }) s

/-- The classes whose initial credit is short of a largest frame (R189). -/
def tsShort (s : State) (p : Nat) : Nat :=
  let need := ceilDiv (cuF s (R.macMaxFrame p) 13 0) 256
  let en := cuF s (tsReg R.serTsCfg2 p) 23 16
  ((List.range 8).map fun c => if bit c en && decide (nth 0 (tsOf s p).initial c < need) then 2 ^ c else 0).foldl (· + ·) 0

/-- The clocks of the ordered sets start as the link becomes ACTIVE (R182, R184, R188). -/
def tsClocks (p : Nat) (s : State) : State :=
  modPort p (fun x => { x with tsOut := { x.tsOut with
    dskAt := s.elapsed, ttmAt := s.elapsed, crdAt := (List.range 8).map fun c => (c, s.elapsed) } }) s

/-- CONFIG goes on once every INIT has come: a short class holds it there, with T_CONFIG stopped, for new INIT sets; else it ends
with a DSK that has ACK = 1 (R187, R189). R187 does not say whether the first short INIT or the last of the eight sets CREDIT_SHORT: here
it is judged when all eight have come (DESIGN CHOICE, assumption 170). -/
def tsMaybeActive (p : Nat) (s : State) : State :=
  let t := tsOf s p
  if t.st = 3 ∧ t.initSeen = 0xFF then
    if tsShort s p ≠ 0 then
      setTs p { t with creditShort := true, peerShort := tsShort s p, timer := none, initSeen := 0 } s
    else if t.ackSeen then
      let s1 := linkEval p (tsClocks p (tsFresh p (setTs p { t with
        st := 4, timer := none, creditShort := false, peerShort := 0, peerHeard := false,
        echoValid := false } s)))
      whenDo (tsLaneAway s1 p) (tsRetrain p) s1
    else setTs p { t with creditShort := false, peerShort := 0 } s
  else s

/-- RETRAIN ends at a width both ends send with ACK (R187). R184 leaves open whether the link, which was ACTIVE before, "became ACTIVE"
anew: ECHO_VALID is kept (DESIGN CHOICE, assumption 171). -/
def tsRetrained (p w : Nat) (s : State) : State :=
  let s1 := emitLink 3 p 0 w (tsFresh p (modTs p (fun t => { t with
    st := 4, width := w, inUse := tsLanesAt s p w, txUse := tsTxAt s p w, timer := none }) s))
  whenDo (decide (w < tsCfgWidth s p)) (stickRg (tsReg R.serTsEvt p) 1) (stickRg (tsReg R.serTsEvt p) 0 s1)

/-! ## Ordered sets received (R177) -/

/-- A copy of `n` data symbols passes its CRC-8. -/
def copyOk (n : Nat) (bs : List Byte) : Bool := bs.length == n + 1 && crc8 (bs.take n) == byteAt bs n

/-- The copies of a set that pass, by physical lane of the quad. -/
def passing (n : Nat) (d : OrdSet) : List (Nat × List Byte) := d.copies.filter fun c => copyOk n c.2

/-- The content of a set other than DSK: the copy of the lowest-numbered lane that passes. -/
def setContent (s : State) (p n : Nat) (d : OrdSet) : Option (List Byte) :=
  ((List.range (tsCfgWidth s p)).filterMap fun i => (tsRxPhys s p i).bind fun ln =>
    ((passing n d).find? fun c => c.1 == ln % 4).map (·.2)).head?

/-- The content of a DSK set: each copy bears its own lane number. -/
def dskContent (d : OrdSet) : Option (List Byte) :=
  ((List.range 4).filterMap fun i => ((passing 3 d).find? fun c => byteAt c.2 0 % 4 == i).map (·.2)).head?

/-- A set is acted on, or discarded and counted where no copy passes. -/
def withContent (p : Nat) (c : Option (List Byte)) (f : List Byte → State → State) (s : State) : State :=
  match c with
  | some bs => f bs s
  | none => incRg (tsReg R.serTsOsErr p) s

/-- WIDTH of a DSK set in lanes; 0 for the code that names none. -/
def dskWidth (bs : List Byte) : Nat :=
  match fld 3 2 (byteAt bs 0) with
  | 0 => 1 | 1 => 2 | 2 => 4 | _ => 0

/-- The markers of the lanes in use in ACTIVE: a lane with no copy, or with one out of column, has missed one (R190). -/
def tsMarkers (p : Nat) (d : Dsk) (s : State) : State :=
  forAll (fun j s => whenDo (bit j (tsOf s p).inUse) (fun s =>
    let ln := 4 * (p / 4) + j
    let l := lane s ln
    let here := d.set.copies.any (fun c => c.1 == j) && !d.skewed.contains j
    setLane ln { l with missed := if here then 0 else l.missed + 1 } s) s) (List.range 4) s

/-- The receiver learns its lane order from the sets of training (R168). -/
def tsLearn (p : Nat) (d : OrdSet) (s : State) : State :=
  modTs p (fun t => { t with rxOrder :=
    ((passing 3 d).filter fun c => decide (byteAt c.2 0 % 4 < tsCfgWidth s p)).map fun c => (c.1, byteAt c.2 0 % 4) }) s

/-- The training state acts on the content of a DSK set (R187, R188, R191). -/
def tsDsk (p : Nat) (d : Dsk) (bs : List Byte) (s : State) : State :=
  let good := byteAt bs 1 % 16
  let w := dskWidth bs
  let ack := bit 4 (byteAt bs 0)
  let st := (tsOf s p).st
  let s0 := modTs p (fun t => { t with partnerGood := good, partnerWidth := w }) (whenDo (st == 1 || st == 2) (tsLearn p d.set) s)
  let agreed := ack && d.deskewed && decide (1 ≤ w) && decide (w ≤ tsProposal s0 p good) && (tsOf s p).ackedWidth == w
  match st with
  | 1 =>
    if d.set.copies.any fun c => (lane s (4 * (p / 4) + c.1)).lock then modTs p (fun t => { t with st := 2, timer := some s.now }) s0
    else s0
  | 2 => if agreed then tsConfig p w s0 else s0
  | 3 => if ack then tsMaybeActive p (modTs p (fun t => { t with ackSeen := true }) s0) else s0
  | 4 => if decide (1 ≤ w) && decide (w < (tsOf s p).width) then tsRetrain p s0 else s0
  | 5 => if agreed && (port s p).sending.isNone then tsRetrained p w s0 else s0
  | _ => s0

/-- DSK_RECEIVE: the markers of ACTIVE are judged first; a set of which no copy passes its CRC-8 is discarded and counted (R177,
R187, R190). -/
def execDskReceive (p : Nat) (d : Dsk) (s : State) : Host.Outcome State Fault Refusal :=
  .next (whenDo (portTsuip s p && decide (1 ≤ (tsOf s p).st))
    (fun s => withContent p (dskContent d.set) (tsDsk p d)
      (if (tsOf s p).st = 4 then tsJudge p (tsMarkers p d s) else s)) s)

/-- A CRD is taken, or discarded and counted (R181): D0 holds CLASS and INIT, D1 and D2 the LIMIT. -/
def tsCrd (p : Nat) (bs : List Byte) (s : State) : State :=
  let t := tsOf s p
  let c := byteAt bs 0 % 8
  let l := be16 bs 1
  if bit 3 (byteAt bs 0) then
    if t.st = 3 then
      tsMaybeActive p (setTs p { t with
        initSeen := t.initSeen ||| 2 ^ c, inited := t.inited ||| 2 ^ c, limit := t.limit.set c l,
        initial := t.initial.set c l, consumed := t.consumed.set c 0 } s)
    else incRg (tsReg R.serTsOsErr p) s
  else
    let ahead := (l + 65536 - nth 0 t.limit c) % 65536
    if bit c t.inited && decide (0 < ahead) && decide (ahead < 32768) then setTs p { t with limit := t.limit.set c l } s
    else if bit c t.inited && ahead == 0 then s
    else incRg (tsReg R.serTsOsErr p) s

/-- CRD_RECEIVE. A repeated LIMIT, which R182 has every 10 µs, changes nothing (assumption 20). -/
def execCrdReceive (p : Nat) (d : OrdSet) (s : State) : Host.Outcome State Fault Refusal :=
  .next (whenDo (portTsuip s p && decide (1 ≤ (tsOf s p).st)) (fun s => withContent p (setContent s p 3 d) (tsCrd p) s) s)

/-- A mark is stored: its stamps, the device's receive stamp and the echo, with the device's TX time of the mark echoed
(R185). -/
def tsMark (p stamp : Nat) (bs : List Byte) (s : State) : State :=
  let t := tsOf s p
  let s1 := setTs p { t with
    peerSeq := byteAt bs 0, peerTx := [beN bs 3 4, beN bs 7 4, be16 bs 11], devRx := rxStampAt s p stamp, peerHeard := true,
    echoValid := bit 0 (byteAt bs 2), echoSeq := byteAt bs 1, peerRx := [beN bs 13 4, beN bs 17 4, be16 bs 21],
    devTx := kvGetD 0 (byteAt bs 1) t.ttmTx } s
  setRg (tsReg R.serTsTtmSeq p)
    (byteAt bs 0 + byteAt bs 1 * 2 ^ 8 + b2n (bit 0 (byteAt bs 2)) * 2 ^ 16 + 2 ^ 31) s1

/-- TTM_RECEIVE: the stamps and the echo are stored, NEW is set (R185). -/
def execTtmReceive (p : Nat) (d : Ttm) (s : State) : Host.Outcome State Fault Refusal :=
  .next (whenDo (portTsuip s p && decide (1 ≤ (tsOf s p).st))
    (fun s => withContent p (setContent s p 23 d.set) (tsMark p d.stamp) (reach d.stamp s)) s)

/-- CYC_RECEIVE: counted and otherwise ignored (R186). -/
def execCycReceive (p : Nat) (d : OrdSet) (s : State) : Host.Outcome State Fault Refusal :=
  .next (whenDo (portTsuip s p && decide (1 ≤ (tsOf s p).st))
    (fun s => withContent p (setContent s p 6 d) (fun _ => incRg (tsReg R.serTsCycRx p)) s) s)

/-- The end of a 1 ms training timer that is running in state `st` (R187). -/
def tsTimeout (p st : Nat) (f : State → State) (s : State) : State :=
  match (tsOf s p).timer with
  | none => s
  | some t => if (tsOf s p).st = st then f (reach (t + msT 1) s) else s

/-- T_LANES_EXPIRY, T_CONFIG_EXPIRY: back to DETECT, counted; T_CONFIG does so only before all INIT sets have come (R187). -/
def execTLanesExpiry (p : Nat) (s : State) : Host.Outcome State Fault Refusal :=
  .next (tsTimeout p 2 (fun s => tsDetect p (incRg (tsReg R.serTsRetrains p) s)) s)
def execTConfigExpiry (p : Nat) (s : State) : Host.Outcome State Fault Refusal :=
  .next (tsTimeout p 3 (fun s =>
    if (tsOf s p).initSeen = 0xFF then modTs p (fun t => { t with timer := none }) s
    else tsDetect p (incRg (tsReg R.serTsRetrains p) s)) s)

/-- T_RETRAIN_EXPIRY: the port goes down to DETECT (R187). -/
def execTRetrainExpiry (p : Nat) (s : State) : Host.Outcome State Fault Refusal :=
  .next (tsTimeout p 5 (tsDetect p) s)

/-- The fill of an elastic buffer after a drift and some SKP sets, and whether it has run over or dry: then it begins in the middle again.
In embedded-clock mode each SKP set brings it one symbol nearer to the middle; in common-reference mode the sets pass unchanged (R179). -/
def elastic (common : Bool) (fill : Nat) (drift : Int) (skips : Nat) : Nat × Bool :=
  let f := (fill : Int) + drift
  if f < 0 ∨ 16 < f then (8, true)
  else
    let n := f.toNat
    (if common then n else if 8 ≤ n then max 8 (n - skips) else min 8 (n + skips), false)

/-- What the receivers of a port's lanes have seen is noted: code errors, the elastic buffer's among them, and markers missed in a row
(R173, R179, R190). -/
def tsSeen (p : Nat) (seen : List LaneSeen) (s : State) : State :=
  forAll (fun x s =>
    let ln := 4 * (p / 4) + x.lane % 4
    let b := elastic (bit 4 (cu s (R.serCfg (p / 4)))) (lane s ln).fill x.drift x.skips
    let r := groupErrors ln x.groups s
    codeErrors ln (r.1 + b2n b.2) (setLane ln { lane r.2 ln with missed := x.missed, fill := b.1 } r.2)) seen s

/-- LANE_FAILURE: what the receivers of a port's lanes have seen is noted, and the lanes in use are judged (R190). -/
def execLaneFailure (p : Nat) (seen : List LaneSeen) (s : State) : Host.Outcome State Fault Refusal :=
  .next (whenDo (portTsuip s p && decide (1 ≤ (tsOf s p).st)) (fun s => tsJudge p (tsSeen p seen s)) s)

/-- When each good lane of a port that is not in use will have held lock for STABLE_MS (R191). -/
def tsStableAt (s : State) (p : Nat) : List Nat :=
  ((tsGood s p).filterMap (tsRxPhys s p)).filterMap fun ln =>
    if bit (ln % 4) (tsOf s p).inUse then none
    else (lane s ln).goodSince.map (· + msT (cuF s (tsReg R.serTsCfg2 p) 9 0))

/-- A wider width is possible (R191): lanes not in use are stable, and with those in use they make the next width. -/
def tsWider (s : State) (p : Nat) : Bool :=
  let stable := ((tsStableAt s p).filter (· ≤ s.now)).length
  let w := (tsOf s p).width
  decide ((tsOf s p).st = 4) && decide (w < tsCfgWidth s p) && decide (2 * w ≤ w + stable)

/-- STABLE_MS_EXPIRY: with WIDEN_AUTO = 1 a RETRAIN to a wider width starts, cutting no frame (R191). -/
def execStableMsExpiry (p : Nat) (s : State) : Host.Outcome State Fault Refusal :=
  .next (match tsStableAt s p with
    | [] => s
    | t :: ts =>
      let s1 := reach (ts.foldl min t) s
      whenDo (portTsuip s p && bit 0 (cu s (tsReg R.serTsCfg p)) && tsWider s1 p) (tsRetrain p) s1)

/-- WIDEN: nothing where no wider width is possible, or outside ACTIVE (R196). -/
def execWiden (p : Nat) (s : State) : Host.Outcome State Fault Refusal :=
  .next (if portTsuip s p then pf0Write (tsReg R.serTsCmd p) (fun s => whenDo (tsWider s p) (tsRetrain p) s) s else s)

/-! ## Ordered sets sent (R177 to R188) -/

/-- The time of one column: ten bits at 12.5 Gbaud (R174). -/
def columnTime : Nat := 8 * Config.nsUnit / 10

/-- A set goes out: COM, its second symbol, the data of each lane and their CRC-8, on every lane in use in the same columns
(R177); it follows what the gap has sent so far. -/
def tsSendSet (p sym : Nat) (data : Nat → List Byte) (s : State) : State :=
  let lanes := txLanes s p
  let copy (i : Nat) : List Sym := [symCom, .k (BitVec.ofNat 8 sym)] ++ (data i ++ [BitVec.ofNat 8 (crc8 (data i))]).map Sym.d
  let cols := (List.range ((data 0).length + 3)).map fun j => (List.range lanes.length).map fun i => nth symCom (copy i) j
  columnsOut lanes cols (modPort p (fun x => { x with
    lastLanes := lanes.map fun ln => (ln, txInverted s ln), tsOut := { x.tsOut with columns := x.tsOut.columns ++ cols } }) s)

/-- The link sends and takes frames: ACTIVE (R187). -/
def tsActive (s : State) (p : Nat) : Bool := portTsuip s p && (tsOf s p).st == 4

/-- Changing the transmit side. -/
def modOut (p : Nat) (f : TsOut → TsOut) (s : State) : State := modPort p (fun x => { x with tsOut := f x.tsOut }) s

/-- The first edge of a generator whose mark a port has not queued. -/
def tsMarkFrom (s : State) (p g : Nat) : Nat :=
  match kvGet g (port s p).tsOut.next with
  | some (since, n) => if since = (cycleGen s g).since then max n (nextEdge s g) else nextEdge s g
  | none => nextEdge s g

/-- Marks in the order of their edges. -/
def insertMark (m : Nat × Nat × Nat) : List (Nat × Nat × Nat) → List (Nat × Nat × Nat)
  | [] => [m]
  | x :: xs => if m.2.2 < x.2.2 then m :: x :: xs else x :: insertMark m xs

/-- Every mark of a generator whose edge lies within CYC_ADVANCE is queued; those beyond 32 are dropped (R186). -/
def tsFillOne (p g : Nat) (s : State) : State :=
  if bit g (cu s (tsReg R.serTsCycEn p)) && genOn s g then
    let n := tsMarkFrom s p g
    let upto := s.now + usT (cuF s (tsReg R.serTsCfg p) 31 24)
    if edgeAt s g n ≤ upto then
      let last := max n ((upto - genBase s g) / max 1 (genPeriod s g))
      let room := 32 - (port s p).tsOut.marks.length
      let new := (List.range (min room (last + 1 - n))).map fun i => (g, n + i, edgeAt s g (n + i))
      whenDo (decide (room < last + 1 - n)) (stickRg (tsReg R.serTsEvt p) 4)
        (modOut p (fun x => { x with marks := new.foldl (fun l m => insertMark m l) x.marks,
                                     next := kvPut g ((cycleGen s g).since, last + 1) x.next }) s)
    else s
  else s

/-- The marks of every generator; those whose edge has passed are dropped as missed (R186). -/
def tsFill (p : Nat) (s : State) : State :=
  let s1 := forAll (tsFillOne p) (List.range 32) s
  whenDo ((port s1 p).tsOut.marks.any fun m => decide (m.2.2 ≤ s1.now))
    (fun s => stickRg (tsReg R.serTsEvt p) 4
      (modOut p (fun x => { x with marks := x.marks.filter fun m => decide (s.now < m.2.2) }) s)) s1

/-- The marks that wait go out, oldest first (R186). -/
def sendMarks (p : Nat) (s : State) : State :=
  forAll (fun m s => tsSendSet p 0xDC (fun _ => [BitVec.ofNat 8 m.1, BitVec.ofNat 8 m.2.1] ++ toBE 4 (tNs m.2.2)) s)
    (port s p).tsOut.marks (modOut p (fun x => { x with marks := [] }) s)

/-- SKP: COM and two K23.7, without CRC (R179). -/
def sendSkp (p : Nat) (s : State) : State :=
  let lanes := txLanes s p
  let cols := ([symCom, .k 0xF7, .k 0xF7] : List Sym).map fun x => List.replicate lanes.length x
  columnsOut lanes cols (modOut p (fun x => { x with skpAt := s.elapsed, columns := x.columns ++ cols }) s)

/-- DSK: each lane's own number, WIDTH, ACK, TRAIN outside ACTIVE; GOOD; SEQ (R177, R187, R188). -/
def sendDsk (p : Nat) (s : State) : State :=
  let t := tsOf s p
  let q := (port s p).tsOut.dskSeq
  let good := ((tsGood s p).map (2 ^ ·)).foldl (· + ·) 0
  let w := tsWidthSent s p
  let code := if w = 4 then 2 else if w = 2 then 1 else 0
  let ack := t.st == 4 || t.partnerWidth != 0
  let d0 (i : Nat) : Nat := i + code * 4 + b2n ack * 16 + b2n (t.st != 4) * 32
  modOut p (fun x => { x with dskSeq := (q + 1) % 256, dskAt := s.elapsed })
    (modTs p (fun t => if ack then { t with ackedWidth := w } else t)
      (tsSendSet p 0x7C (fun i => [BitVec.ofNat 8 (d0 i), BitVec.ofNat 8 good, BitVec.ofNat 8 q]) s))

/-- TTM: the mark's own TX time and the receive stamp of the partner's latest mark (R184). -/
def sendTtm (p : Nat) (s : State) : State :=
  let t := tsOf s p
  let tx := txStampAt s p s.now
  let body := [BitVec.ofNat 8 t.ttmSeq, BitVec.ofNat 8 t.peerSeq, BitVec.ofNat 8 (b2n t.peerHeard)] ++
    toBE 4 (tSec tx) ++ toBE 4 (tNs tx) ++ toBE 2 (tFrac tx) ++
    toBE 4 (tSec t.devRx) ++ toBE 4 (tNs t.devRx) ++ toBE 2 (tFrac t.devRx)
  modOut p (fun x => { x with ttmAt := s.elapsed })
    (setTs p { t with ttmSeq := (t.ttmSeq + 1) % 256, ttmTx := kvPut t.ttmSeq tx t.ttmTx } (tsSendSet p 0x3C (fun _ => body) s))

/-- The LIMIT to advertise for a class: its window plus the units returned (R182). -/
def tsLimit (s : State) (p c : Nat) : Nat := (tsWindow s p c + nth 0 (tsOf s p).returned c) % 65536

/-- CRD of a class, in CONFIG with INIT = 1 (R182, R187). -/
def sendCrd (p c : Nat) (s : State) : State :=
  let l := tsLimit s p c
  let d0 := c + b2n ((tsOf s p).st == 3) * 8
  modOut p (fun x => { x with crdAt := kvPut c s.elapsed x.crdAt })
    (modTs p (fun t => { t with advertised := t.advertised.set c l })
      (tsSendSet p 0x5C (fun _ => [BitVec.ofNat 8 d0] ++ toBE 2 l) s))

/-- When SKP, DSK and TTM next fall due, in elapsed time (R179, R184, R188). -/
def skpDue (s : State) (p : Nat) : Nat := (port s p).tsOut.skpAt + 2048 * columnTime
def dskDue (s : State) (p : Nat) : Nat := (port s p).tsOut.dskAt + 1024 * columnTime
def ttmDue (s : State) (p : Nat) : Nat := (port s p).tsOut.ttmAt + usT (cuF s (tsReg R.serTsCfg p) 15 4)

/-- The sets that go before one of a rank, where they are due in the same gap: CYC, SKP, DSK, TTM, CRD (R178). -/
def gapBefore (p rank : Nat) (s : State) : State :=
  let s0 := tsFill p (modOut p (fun x => { x with columns := [] }) s)
  let s1 := whenDo (decide (0 < rank) && tsActive s0 p) (sendMarks p) s0
  let s2 := whenDo (decide (1 < rank) && decide (skpDue s1 p ≤ s1.elapsed)) (sendSkp p) s1
  let s3 := whenDo (decide (2 < rank) && tsActive s2 p && decide (dskDue s2 p ≤ s2.elapsed)) (sendDsk p) s2
  whenDo (decide (3 < rank) && tsActive s3 p && decide (ttmDue s3 p ≤ s3.elapsed)) (sendTtm p) s3

/-- The port stands at a gap: its lanes transmit (R161), its link is not disabled and no frame is being sent (R177). -/
def tsGap (s : State) (p : Nat) : Bool :=
  portTsuip s p && (quad s (p / 4)).refOk && decide (1 ≤ (tsOf s p).st) && (port s p).sending.isNone

/-- SKP_SEND: at the first gap after 2,048 columns (R178, R179). -/
def execSkpSend (p : Nat) (s : State) : Host.Outcome State Fault Refusal :=
  .next (whenDo (tsGap s p) (fun s => sendSkp p (gapBefore p 1 (reachElapsed (skpDue s p) s))) s)

/-- DSK_SEND: every 1,024 columns in ACTIVE, and in training (R178, R187, R188). -/
def execDskSend (p : Nat) (s : State) : Host.Outcome State Fault Refusal :=
  .next (whenDo (tsGap s p)
    (fun s => sendDsk p (gapBefore p 2 (if tsActive s p then reachElapsed (dskDue s p) s else s))) s)

/-- CRD_SEND: at the first gap after a LIMIT changes, and every 10 µs for an enabled class (R178, R182); in CONFIG with INIT = 1
(R187). -/
def execCrdSend (p c : Nat) (s : State) : Host.Outcome State Fault Refusal :=
  let changed := decide (tsLimit s p c ≠ nth 0 (tsOf s p).advertised c) || (tsOf s p).st == 3
  .next (whenDo (tsGap s p && decide (3 ≤ (tsOf s p).st) && decide (c < 8) &&
      (changed || bit c (cuF s (tsReg R.serTsCfg2 p) 23 16)))
    (fun s => sendCrd p c (gapBefore p 4
      (if changed then s else reachElapsed (kvGetD 0 c (port s p).tsOut.crdAt + usT 10) s))) s)

/-- TTM_SEND: every TTM_PERIOD µs in ACTIVE (R178, R184). -/
def execTtmSend (p : Nat) (s : State) : Host.Outcome State Fault Refusal :=
  .next (whenDo (tsActive s p && tsGap s p) (fun s => sendTtm p (gapBefore p 3 (reachElapsed (ttmDue s p) s))) s)

/-- When the next mark of a port falls due: its edge less CYC_ADVANCE. -/
def nextMarkAt (s : State) (p : Nat) : Option Nat :=
  let due := ((List.range 32).filter fun g => bit g (cu s (tsReg R.serTsCycEn p)) && genOn s g).map fun g =>
    edgeAt s g (tsMarkFrom s p g) - usT (cuF s (tsReg R.serTsCfg p) 31 24)
  match due with
  | [] => none
  | t :: ts => some (ts.foldl min t)

/-- The marks that wait at a port; where none does, time goes on to the next one's edge less CYC_ADVANCE (R186). -/
def tsMarksDue (p : Nat) (s : State) : State :=
  let s1 := tsFill p s
  match (port s1 p).tsOut.marks, nextMarkAt s1 p with
  | [], some t => tsFill p (reach t s1)
  | _, _ => s1

/-- CYC_MARK_SEND: the marks that have waited, or the next one at its edge time less CYC_ADVANCE, go out at a gap; a mark that
cannot be sent before its edge is dropped as missed (R186). -/
def execCycMarkSend (p : Nat) (s : State) : Host.Outcome State Fault Refusal :=
  .next (whenDo (portTsuip s p && decide (1 ≤ (tsOf s p).st))
    (fun s =>
      let s2 := tsMarksDue p s
      whenDo (tsActive s2 p && tsGap s2 p && !(port s2 p).tsOut.marks.isEmpty)
        (fun s => sendMarks p (modOut p (fun x => { x with columns := [] }) s)) s2) s)

/-- TTM_SEQ_READ: NEW clears and the stored times are latched (R185, R193). -/
def execTtmSeqRead (_pt : Party) (p : Nat) (s : State) : Host.Outcome State Fault Refusal :=
  .next (whenDo (hostOpen s && decide (p < 256))
    (fun s => if !portTsuip s p || unusedNumber s p then { s with lat := { s.lat with rdata := 0 } }
    else
      let t := tsOf s p
      let off := tsReg R.serTsTtmSeq p
      let v := rg s off
      let put (o sec ns frac : Nat) (s : State) : State := setRg (off + o + 8) frac (setRg (off + o + 4) ns (setRg (off + o) sec s))
      let s1 := put 4 (nth 0 t.peerTx 0) (nth 0 t.peerTx 1) (nth 0 t.peerTx 2) s
      let s2 := put 0x10 (tSec t.devRx) (tNs t.devRx) (tFrac t.devRx) s1
      let s3 := put 0x20 (tSec t.devTx) (tNs t.devTx) (tFrac t.devTx) s2
      let s4 := put 0x30 (nth 0 t.peerRx 0) (nth 0 t.peerRx 1) (nth 0 t.peerRx 2) s3
      let s5 := setRg off (v % 2 ^ 31) s4
      { s5 with lat := { s5.lat with rdata := BitVec.ofNat 32 v } }) s)

end Sys2Proof.Machine
end

