-- ==== Sys2Proof/Machine/Lanes.lean ====
section
/-! DEFINITION. Reference clocks, lane detectors, PCS lock and the lane commands (05_lanes, R159 to R172; R198). -/

namespace Sys2Proof.Machine

open Sys2Proof

/-- A lane's good time starts or stops with its state (R191). -/
def Lane.timed (now : Nat) (l : Lane) : Lane :=
  { l with goodSince := if l.good then some (l.goodSince.getD now) else none }

/-- A lane of an Ethernet port has lost LOS-, LOL- or PCS-lock: a multi-lane port reports the lanes that lost lock before
it goes down as a whole (R172); a Tsuip port is judged under R190. -/
def laneLost (ln : Nat) (s : State) : State :=
  let p := portOfLane s ln
  let mode := portMode s p
  if modeTsuip mode then tsLaneLost p ln s
  else
    let s1 := whenDo (modeLanes mode == 4 && (port s p).up) (emitLink 2 p (2 ^ logicalOf s ln) 0) s
    linkEval p s1

/-- A change of a lane's detectors: status, sticky bits (R195), then the port. -/
def laneChange (ln : Nat) (f : Lane → Lane) (s : State) : State :=
  let old := lane s ln
  let new := (f old).timed s.now
  let q := ln / 4
  let i := ln % 4
  let s1 := setLane ln new s
  let s2 := whenDo (new.los && !old.los) (stickRg (R.serLaneEvt q i) 0) s1
  let s3 := whenDo (new.lol && !old.lol) (stickRg (R.serLaneEvt q i) 1) s2
  let s4 := whenDo (old.lock && !new.lock) (stickRg (R.serLaneEvt q i) 2) s3
  let s5 := whenDo (new.hiBer && !old.hiBer) (stickRg (R.serLaneEvt q i) 3) s4
  if old.good && !new.good then laneLost ln s5 else linkEval (portOfLane s5 ln) s5

/-- Lanes act outside RESET (R44). -/
def lanesOn (s : State) (ln : Nat) : Bool := decide (ln < 256) && decide (s.md.mode ≠ .reset)

/-- LOS_ASSERT (R169). -/
def execLosAssert (ln : Nat) (s : State) : Host.Outcome State Fault Refusal :=
  .next (whenDo (lanesOn s ln) (laneChange ln fun l => { l with los := true }) s)

/-- LOS_CLEAR (R169). -/
def execLosClear (ln : Nat) (s : State) : Host.Outcome State Fault Refusal :=
  .next (whenDo (lanesOn s ln) (laneChange ln fun l => { l with los := false }) s)

/-- LOL_ASSERT (R169). -/
def execLolAssert (ln : Nat) (s : State) : Host.Outcome State Fault Refusal :=
  .next (whenDo (lanesOn s ln) (laneChange ln fun l => { l with lol := true }) s)

/-- LOL_CLEAR (R169). -/
def execLolClear (ln : Nat) (s : State) : Host.Outcome State Fault Refusal :=
  .next (whenDo (lanesOn s ln) (laneChange ln fun l => { l with lol := false }) s)

/-- PCS_LOCK_CHANGE: symbol or block lock, and high bit-error ratio in 64b/66b modes (R170); with the code, disparity and
sync-header errors that the lane has counted since it last told (R173, R193). -/
def execPcsLockChange (ln : Nat) (lock hiBer : Bool) (errors : Nat) (s : State) : Host.Outcome State Fault Refusal :=
  .next (whenDo (lanesOn s ln)
    (fun s => laneChange ln (fun l => { l with lock := lock, hiBer := hiBer && decide (8 ≤ (quad s (ln / 4)).mode) })
      (codeErrors ln errors s)) s)

/-- AUTO_NEGOTIATION_COMPLETE: Clause 37 completes or an SGMII control word arrives; a partner of the wrong rate or duplex
leaves the link down. R195 gives SER_LANE_STATUS no bit for the mismatch that R165 shows there: it stands in SER_LANE_EVT[5], AN_MISMATCH,
alone (R165, R195, R198; DESIGN CHOICE, assumption 172). -/
def execAutoNegotiationComplete (p : Nat) (match1000Full : Bool) (s : State) : Host.Outcome State Fault Refusal :=
  .next (whenDo (decide (p < 256) && decide (portMode s p = 1) && decide (s.md.mode ≠ .reset))
    (fun s =>
      let s1 := modPort p (fun x => { x with anDone := match1000Full }) s
      linkEval p (whenDo (!match1000Full) (stickRg (R.serLaneEvt (p / 4) (p % 4)) 5) s1)) s)

/-- ALIGNMENT_LOCK_CHANGE: lane alignment, alignment-marker lock or FEC alignment lock is gained or lost (R172, R198). A
multi-lane port that loses it reports its lanes and goes down. -/
def execAlignmentLockChange (p : Nat) (aligned : Bool) (lanes : Nat) (s : State) : Host.Outcome State Fault Refusal :=
  .next (whenDo (decide (p < 256) && decide (s.md.mode ≠ .reset))
    (fun s =>
      let s1 := modPort p (fun x => { x with aligned := aligned }) s
      linkEval p (whenDo (!aligned && (port s p).up && modeLanes (portMode s p) == 4 && !portTsuip s p)
        (emitLink 2 p (lanes % 16) 0) s1)) s)

/-- LINK_FAULT_SIGNAL_CHANGE: a XAUI or 64b/66b port starts or stops receiving fault signalling (R198). -/
def execLinkFaultSignalChange (p : Nat) (faulty : Bool) (s : State) : Host.Outcome State Fault Refusal :=
  .next (whenDo (decide (p < 256) && decide (s.md.mode ≠ .reset))
    (fun s => linkEval p (modPort p (fun x => { x with faultSig := faulty }) s)) s)

/-- REFCLK_k is good at a mean offset (R161, R167): within ±2,000 ppm for REFCLK_00, within −5,200 to +200 ppm under declared
spread, else within ±200 ppm; an absent clock is not good. -/
def refGood (s : State) (k : Nat) : Option Int → Bool
  | none => false
  | some x =>
    if k = 0 then decide (-2000 ≤ x) && decide (x ≤ 2000)
    else if bit 1 (cu s (R.serRefclk (4 * k))) then decide (-5200 ≤ x) && decide (x ≤ 200)
    else decide (-200 ≤ x) && decide (x ≤ 200)

/-- REFCLK_k measures a mean offset: REF_OK follows in its four quads, their lanes stop and their ports go down, or come up by themselves
(R161). A lost clock takes every Tsuip port of the quads to DETECT. -/
def refclkSet (k : Nat) (ppm : Option Int) (s : State) : State :=
  let good := refGood s k ppm
  forAll (fun j s =>
    let q := 4 * k + j
    let s1 := setQuad q { quad s q with refOk := good, pllLock := good, refPpm := ppm.getD (-1000000) } s
    quadEval q (whenDo (!good) (tsQuadDown q) s1)) (List.range 4) s

/-- The offset of a frequency from another declared one: `ppm` is its offset from the old declared frequency; 125 MHz is four fifths of
156.25 MHz. -/
def ppmAgain (was125 is125 : Bool) (ppm : Int) : Int :=
  if was125 == is125 then ppm
  else if was125 then (1000000 + ppm) * 4 / 5 - 1000000
  else (1000000 + ppm) * 5 / 4 - 1000000

/-- A reference that has been measured is judged again by its new FREQ and SPREAD (R161). `old` has the values in use before. -/
def refclkRejudge (k : Nat) (old s : State) : State :=
  let x := quad s (4 * k)
  let at125 (t : State) : Bool := !bit 0 (cu t (R.serRefclk (4 * k)))
  if !x.refOk && x.refPpm == 0 then s
  else refclkSet k (if x.refPpm == -1000000 then none else some (ppmAgain (at125 old) (at125 s) x.refPpm)) s

/-- REFCLK_GOOD_CHANGE: the measured mean offset of REFCLK_k enters or leaves its good window (R161). An absent clock measures below
every offset the field can hold. -/
def execRefclkGoodChange (k : Nat) (ppm : Option Int) (s : State) : Host.Outcome State Fault Refusal :=
  .next (whenDo (decide (k < 16) && decide (s.md.mode ≠ .reset))
    (refclkSet k ppm) s)

/-- REFCLK_00_MEASURE: at WAKE step 1 the frequency within ±2,000 ppm of the measurement is taken; it becomes the declared
frequency of Q00; while neither matches, WAKE holds at step 1 (R160). The operands are the offsets in ppm from 125 MHz
and from 156.25 MHz; none where there is no clock. -/
def execRefclk00Measure (ppm125 ppm156 : Option Int) (s : State) : Host.Outcome State Fault Refusal :=
  let near (o : Option Int) : Bool := match o with
    | none => false
    | some x => decide (-2000 ≤ x) && decide (x ≤ 2000)
  let found := if near ppm125 then 1 else if near ppm156 then 2 else 0
  .next (whenDo (decide (s.md.mode = .wake) && decide (s.md.coreRef = 0) && decide (found ≠ 0))
    (fun s =>
      let f := b2n (found == 1)
      let s1 := setRg (R.serRefclk 0 + viewSize) f (setRg (R.serRefclk 0) f s)
      { s1 with md := { s1.md with coreRef := found, wakeStep := max s1.md.wakeStep 2 } }) s)

/-- The commands of SER_LANE_CMD are taken only for a lane out of service or under test, or whose quad has MODE 0
(R171). -/
def laneCmdOk (s : State) (ln : Nat) : Bool := unitState s .lane ln != 0 || (quad s (ln / 4)).mode == 0

/-- SER_LANE_CMD_STATUS takes a result at once: nothing is running. -/
def laneResult (ln r : Nat) (s : State) : State := setLane ln { lane s ln with result := r } s

/-- A lane command starts: refused with RESULT 1 for a lane in service or while one runs, with 4 for a failed quad; RESTORE
with 3 where the cache holds no entry (R171, R193). -/
def laneStart (ln c : Nat) (s : State) : State :=
  if !laneCmdOk s ln || (lane s ln).cmd != 0 then laneResult ln 1 s
  else if (quad s (ln / 4)).failed then laneResult ln 4 s
  else if c = 2 && (!s.mram.cache.headerOk || s.mram.cache.badLanes.contains ln) then laneResult ln 3 s
  else setLane ln { lane s ln with cmd := c, result := 0, cal := if c = 1 then 3 else (lane s ln).cal } s

/-- A write of a lane's SER_LANE_CMD. -/
def laneWrite (ln : Nat) (f : State → State) (s : State) : State :=
  if ln < 256 then pf0Write (R.serLaneCmd (ln / 4) (ln % 4)) f s else s

/-- ADAPT, RESTORE, PRBS31_NEAR, PRBS31_LINE (R171). -/
def execAdapt (ln : Nat) (s : State) : Host.Outcome State Fault Refusal :=
  .next (laneWrite ln (laneStart ln 1) s)
def execRestore (ln : Nat) (s : State) : Host.Outcome State Fault Refusal :=
  .next (laneWrite ln (laneStart ln 2) s)
def execPrbs31Near (ln : Nat) (s : State) : Host.Outcome State Fault Refusal :=
  .next (laneWrite ln (laneStart ln 3) s)
def execPrbs31Line (ln : Nat) (s : State) : Host.Outcome State Fault Refusal :=
  .next (laneWrite ln (laneStart ln 4) s)

/-- STOP ends a running PRBS31 test, whose bit errors stand in SER_LANE_PRBS_ERR; any other STOP is refused (R171). -/
def execStop (ln errors : Nat) (s : State) : Host.Outcome State Fault Refusal :=
  .next (laneWrite ln
    (fun s =>
      if (lane s ln).cmd = 3 ∨ (lane s ln).cmd = 4 then
        addRg (R.serLanePrbsErr (ln / 4) (ln % 4)) errors (setLane ln { lane s ln with cmd := 0, result := 0 } s)
      else laneResult ln 1 s) s)

/-- LANE_COMMAND_COMPLETE: an ADAPT or RESTORE ends; a successful ADAPT rewrites the lane's cache entry, one that does not
converge leaves the previous settings (R171). CAL_DONE is set (R195). -/
def execLaneCommandComplete (ln eye : Nat) (ok : Bool) (s : State) : Host.Outcome State Fault Refusal :=
  .next (match (lane s ln).cmd with
    | 1 =>
      if ok then
        let s1 := setLane ln { lane s ln with cmd := 0, result := 0, cal := 2, eye := eye % 256 } s
        stickRg (R.serLaneEvt (ln / 4) (ln % 4)) 4
          { s1 with mram := { s1.mram with cache := { s1.mram.cache with badLanes := s1.mram.cache.badLanes.filter (· != ln) } } }
      else stickRg (R.serLaneEvt (ln / 4) (ln % 4)) 4 (setLane ln { lane s ln with cmd := 0, result := 2, cal := 4 } s)
    | 2 =>
      stickRg (R.serLaneEvt (ln / 4) (ln % 4)) 4
        (setLane ln { lane s ln with cmd := 0, result := 0, cal := 1, eye := eye % 256 } s)
    | _ => s)

end Sys2Proof.Machine
end

