-- ==== Sys2Proof/Machine/Ports.lean ====
section
/-! DEFINITION. Reception and control frames at the MAC, pause, link timing, preemption verification (06_ports). -/

namespace Sys2Proof.Machine

open Sys2Proof

/-! ## Reception (R201 to R206) -/

/-- The frame check sequence of a frame's bytes matches (R202). -/
def fcsOk (bs : List Byte) : Bool :=
  decide (4 ≤ bs.length) && bs.drop (bs.length - 4) == fcsBytes (bs.take (bs.length - 4))

/-- The error flags of a reception, in the bits of R84 (R201, R202). -/
def rxErrors (f : RxFrame) (m : Nat) : Nat :=
  let n := f.bytes.length
  b2n (decide (n < 64)) + b2n (decide (m < n)) * 2 + b2n (!fcsOk f.bytes || f.assembly) * 4 + b2n f.align * 8 +
    b2n f.coding * 16 + b2n (decide (16000 < n)) * 32

/-- A reassembly error of a preemptible frame, a bad CRC among them (R219). -/
def misassembled (f : RxFrame) : Bool := f.assembly || (decide (0 < f.fragments) && !fcsOk f.bytes)

/-- The one error counter of an error frame (R204): the index n of R225. -/
def rxErrorCounter (f : RxFrame) (err : Nat) : Nat :=
  if bit 4 err then 15 else if bit 3 err then 14 else if misassembled f then 16 else if bit 5 err then 12
  else if bit 1 err then 11 else if bit 0 err then 10 else 13

/-- A good frame's counters: bytes, cast and size bin (R225). -/
def countGood (p : Nat) (bs : List Byte) (s : State) : State :=
  countMac p (19 + sizeBin bs.length) 1 (countMac p (4 + castOf bs) 1 (countMac p 1 bs.length s))

/-- A MAC control frame that the MAC acts on: 1 pause, 2 priority flow control (R205). -/
def macControl (s : State) (p : Nat) (f : RxFrame) (ts : Nat) : Option Nat :=
  let cfg := cuAt s ts (R.macPauseCfg p)
  let da := beN f.bytes 0 6
  let ad := cuAt s ts (R.macAddr p) + cuAt s ts (R.macAddr p + 4) * 2 ^ 32
  let op := be16 f.bytes 14
  if (da = 0x0180C2000001 ∨ da = ad) ∧ bit 2 cfg ∧ !portTsuip s p then
    if op = 0x0001 ∧ fld 1 0 cfg = 1 then some 1
    else if op = 0x0101 ∧ fld 1 0 cfg = 2 then some 2
    else none
  else none

/-- A received hold of a priority, or of the whole port (8), for some quanta from `t` (R210). -/
def pauseHold (p prio quanta t : Nat) (s : State) : State :=
  modPort p (fun x => { x with
    pausedTill :=
    if quanta = 0 then kvDel prio x.pausedTill else kvPut prio (t + quantaTime s p quanta) x.pausedTill }) s

/-- PAUSE_FRAME_ACTION: the port, or each priority whose enable bit is set, is held for its quanta (R210), which count from the
frame's last bit. -/
def pauseAction (p kind : Nat) (bs : List Byte) (t : Nat) (s : State) : State :=
  if kind = 1 then pauseHold p 8 (be16 bs 16) t s
  else forAll (fun k s => whenDo (bit k (be16 bs 16)) (pauseHold p k (be16 bs (18 + 2 * k)) t) s) (List.range 8) s

/-- A frame goes on to its slice over the crossing (R14). -/
def passToSlice (slice : Nat) (x : Incoming) (s : State) : State :=
  { s with lk := { s.lk with ingress := kvMod [] slice (· ++ [x]) s.lk.ingress } }

/-- A Tsuip frame's credit at the receiver: whether it overran, and its units counted as received (R183). -/
def tsReceive (p c units : Nat) (s : State) : Bool × State :=
  let t := tsOf s p
  let room := (nth 0 t.advertised c + 65536 - nth 0 t.received c) % 65536
  let big := decide (room < units) || !bit c (cuF s (tsReg R.serTsCfg2 p) 23 16)
  let t1 := { t with received := t.received.set c ((nth 0 t.received c + units) % 65536) }
  if big then
    (true, stickRg (tsReg R.serTsEvt p) 2
      (setTs p { t1 with returned := t1.returned.set c ((nth 0 t1.returned c + units) % 65536) } s))
  else (false, setTs p t1 s)

/-- A frame that is no MAC control frame is passed to the ingress slice, error frames included (R203). -/
def passFrame (p : Nat) (f : RxFrame) (err ts : Nat) (s : State) : State :=
  let units := ceilDiv f.bytes.length 256
  let (big, s1) := if portTsuip s p then tsReceive p (f.cls % 8) units s else (false, s)
  countMac p 3 1 (passToSlice (p / 32)
    { port := p, bytes := f.bytes.take 16000, length := f.bytes.length, ts := ts, tsInvalid := faultAt s f.sfd, err := err,
      prio := f.cls % 8, overrun := big, meta16 := 0, direct := none, oneStep := false, tsReq := false, txRing := none } s1)

/-- The units of a Tsuip frame that the MAC discards go back to the sender (R182). -/
def macDiscard (p : Nat) (f : RxFrame) (s : State) : State :=
  if portTsuip s p then
    let r := tsReceive p (f.cls % 8) (ceilDiv f.bytes.length 256) s
    if r.1 then r.2 else tsReturn p (f.cls % 8) (ceilDiv f.bytes.length 256) r.2
  else s

/-- The errors that the lanes of an 8b/10b port show in a reception: one of them makes it a coding error (R173, R176, R202). -/
def receptionErrors (s : State) (p : Nat) (f : RxFrame) : Bool :=
  let mine (i : Nat) : Bool := (portLanes s p).any fun j => rxLane s (p / 4) j % 4 == i % 4
  let code := (f.groups.filter fun x => mine x.1).any fun x => decide (0 < (groupErrors (4 * (p / 4) + x.1 % 4) x.2 s).1)
  let counted := (f.laneErrors.filter fun x => mine x.1).any fun x => decide (0 < x.2)
  decide (portMode s p ≤ 6) && (code || counted)

/-- The code errors and RS-FEC codewords that the lanes counted in a reception (R173, R193). -/
def laneCounts (p : Nat) (f : RxFrame) (s : State) : State :=
  let s0 := forAll (fun x s =>
    let r := groupErrors (4 * (p / 4) + x.1 % 4) x.2 s
    codeErrors (4 * (p / 4) + x.1 % 4) r.1 r.2) f.groups s
  let s1 := forAll (fun x s => codeErrors (4 * (p / 4) + x.1 % 4) x.2 s) f.laneErrors s0
  if portMode s p = 11 ∨ (portMode s p = 9 ∧ bit 5 (cu s (R.serCfg (p / 4)))) then
    addRg (R.serLaneFecUncorr (p / 4) (p % 4)) f.fecUncorr (addRg (R.serLaneFecCorr (p / 4) (p % 4)) f.fecCorr s1)
  else s1

/-- The end of a reception: its last bit, at the earliest (R210). -/
def rxEnds (s : State) (p : Nat) (f : RxFrame) : Nat := f.sfd + octetTime s p (frameOctets s p f.bytes.length)

/-- The MAC judges a whole reception (R62, R182, R201 to R206). -/
def macReceive (p : Nat) (f : RxFrame) (s : State) : State :=
  let ts := rxStampAt s p f.sfd
  let n := f.bytes.length
  let err := rxErrors f (fld 13 0 (cuAt s ts (R.macMaxFrame p)))
  let s1 := countMac p 18 f.fragments (countMac p 2 1 (countMac p 0 n s))
  let s2 := if err ≠ 0 then countMac p (rxErrorCounter f err) 1 s1 else countGood p f.bytes s1
  if s.md.fenced ∧ 1 ≤ s.md.faultCode ∧ s.md.faultCode ≤ 3 then countMac p 17 1 (macDiscard p f s2)
  else if err ≠ 0 then passFrame p f err ts s2
  else if be16 f.bytes 12 = 0x8808 then
    match macControl s p f ts with
    | some k => pauseAction p k f.bytes (rxEnds s p f) (countMac p (6 + k) 1 s2)
    | none => countMac p 9 1 (macDiscard p f s2)
  else passFrame p f 0 ts s2

/-- Why a port takes a reception, with whether its link broke under it: the port is up and was wanted up at the stamp; or the frame
began before its link broke, or was stamped before ADMIN_UP took it down (R200, R206). -/
def rxTaken (s : State) (p : Nat) (f : RxFrame) : Option Bool :=
  let ts := rxStampAt s p f.sfd
  if bit 0 (cuAt s ts (R.macCfg p)) = false then none
  else if (port s p).up then some false
  else match (port s p).downAt with
    | some (t, admin) => if (if admin then ts else f.sfd) < t then some (!admin) else none
    | none => none

/-- MAC_FRAME_RECEIVE: a frame ends at the MAC (R203). A reception that ends before its first byte is no frame, though its code
errors count; one whose link broke under it is a coding error (R200). -/
def execMacFrameReceive (p : Nat) (f : RxFrame) (s : State) : Host.Outcome State Fault Refusal :=
  .next (match rxTaken s p f with
    | none => s
    | some broken =>
      let f1 := { f with coding := f.coding || broken || receptionErrors s p f }
      tsJudge p (whenDo (!f.bytes.isEmpty) (macReceive p f1) (laneCounts p f (reach (if broken then f.sfd else rxEnds s p f) s))))

/-- PAUSE_HOLD_EXPIRY: the quanta of a received pause run out (R210); 8 is the hold of the whole port. -/
def execPauseHoldExpiry (p prio : Nat) (s : State) : Host.Outcome State Fault Refusal :=
  .next (match kvGet prio (port s p).pausedTill with
    | none => s
    | some t => modPort p (fun x => { x with pausedTill := kvDel prio x.pausedTill }) (reach t s))

/-! ## Pause frames sent (R211) -/

/-- The bytes of a pause or flow-control frame of a port: quanta per priority, and the enable mask for mode 2. -/
def pauseBytes (s : State) (p mode mask : Nat) (quanta : Nat → Nat) : List Byte :=
  let body := if mode = 1 then toBE 2 0x0001 ++ toBE 2 (quanta 0)
    else toBE 2 0x0101 ++ toBE 2 mask ++ ((List.range 8).flatMap fun k => toBE 2 (quanta k))
  let h := toBE 6 0x0180C2000001 ++ toBE 6 (cu64 s (R.macAddr p) % 2 ^ 48) ++ toBE 2 0x8808 ++ body
  let b := h ++ List.replicate (60 - h.length) 0
  b ++ fcsBytes b

/-- The quanta of an XOFF: MAC_PAUSE_CFG.QUANTA, or 0xFFFF in DRAIN (R55, R211). -/
def xoffQuanta (s : State) (p : Nat) : Nat := if s.md.mode = .drain then 0xFFFF else cuF s (R.macPauseCfg p) 31 16

/-- A due XOFF or XON frame goes out (R211). -/
def sendPause (p : Nat) (s : State) : State :=
  let x := port s p
  let mode := cuF s (R.macPauseCfg p) 1 0
  let q := xoffQuanta s p
  let bs := pauseBytes s p mode (x.dueXoff ||| x.dueXon) fun k => if bit k x.dueXoff then q else 0
  let out := (x.xoffOut ||| x.dueXoff) &&& (0xFF ^^^ x.dueXon)
  let at1 := (List.range 8).foldl (fun a k => if bit k x.dueXoff then kvPut k s.now a else a) x.xoffAt
  mediumTaken p (frameOctets s p bs.length + gapOctets s p)
    (countMac p (if mode = 1 then 31 else 32) 1
      (countSent p bs (sentOn p 0 bs false (setPort p { x with dueXoff := 0, dueXon := 0, xoffOut := out, xoffAt := at1 } s))))

/-- XOFF_REPEAT: QUANTA / 2 quanta after the last XOFF, while the condition holds: the pair is in XOFF, or DRAIN lasts
(R55, R211). -/
def execXoffRepeat (p prio : Nat) (s : State) : Host.Outcome State Fault Refusal :=
  let x := port s p
  .next (match kvGet prio x.xoffAt with
    | none => s
    | some t =>
      let on := s.md.draining || (List.range 8).any fun k =>
        isLossless s p k && pairInXoff s p k && (k == prio || cuF s (R.macPauseCfg p) 1 0 == 1)
      whenDo (x.up && bit prio x.xoffOut && on)
        (fun s => pauseDue p (if cuF s (R.macPauseCfg p) 1 0 = 1 then 0xFF else 2 ^ prio) true
          (reach (t + quantaTime s p (xoffQuanta s p) / 2) s)) s)

/-! ## Link timing (R199, R221 to R223) -/

/-- UP_HOLDOFF_EXPIRY: the link has been good for UP_HOLDOFF ms, and the port goes up where nothing else holds it down (R199). -/
def execUpHoldoffExpiry (p : Nat) (s : State) : Host.Outcome State Fault Refusal :=
  .next (match (port s p).goodSince with
    | none => s
    | some t =>
      whenDo (!(port s p).up && portWanted s p)
        (fun s => portUp p (reach (t + msT (cuF s (R.macLinkCfg p) 23 16)) s)) s)

/-- LINK_HOLD_EXPIRY: the first 1 ms tick at least LINK_HOLD after the down change finds the port still down: every queued
copy is flushed (R222, R223). -/
def execLinkHoldExpiry (p : Nat) (s : State) : Host.Outcome State Fault Refusal :=
  .next (whenDo ((port s p).holding && !(port s p).up)
    (fun s =>
      let due := (port s p).holdFrom + msT (cuF s (R.macLinkCfg p) 10 0)
      let s1 := reach (msT (ceilDiv due (msT 1))) s
      stickRg (R.macEvt p) 2 (flushPort p 0x12 (modPort p (fun x => { x with holding := false }) s1))) s)

/-- A write of a port's MAC_CMD: an instance of a port number without a MAC ignores it (R12, R197). -/
def macCmdWrite (p : Nat) (f : State → State) (s : State) : State :=
  if p < 256 then pf0Write (R.macCmd p) (fun s => whenDo (portPresent s p) f s) s else s

/-- A holding port's copies are flushed without HOLD_EXPIRED; nothing on a port that is not holding (R222). -/
def flushHeld (p : Nat) (s : State) : State :=
  whenDo (port s p).holding (fun s => flushPort p 0x12 (modPort p (fun x => { x with holding := false }) s)) s

/-- FLUSH. -/
def execFlush (p : Nat) (s : State) : Host.Outcome State Fault Refusal := .next (macCmdWrite p (flushHeld p) s)

/-! ## Preemption verification (R217) -/

/-- Verification is run anew on a port that is up. -/
def restartVerify (p : Nat) (s : State) : State := whenDo (port s p).up (startVerify p) s

/-- RESTART_VERIFY. -/
def execRestartVerify (p : Nat) (s : State) : Host.Outcome State Fault Refusal := .next (macCmdWrite p (restartVerify p) s)

/-- VERIFY_TIMER: every VERIFY_MS a verify mPacket is sent, up to 3 times; then verification fails (R217). -/
def execVerifyTimer (p : Nat) (s : State) : Host.Outcome State Fault Refusal :=
  let ms := cuF s (R.macPreemptCfg p) 15 8
  .next (match (port s p).verifyAt with
    | none => s
    | some t =>
      whenDo ((port s p).up && ((port s p).verify == 1 || (port s p).verify == 2))
        (fun s =>
          let s1 := reach t s
          if (port s p).tries < 3 then
            modPort p (fun x => { x with verify := 2, attempts := x.attempts + 1, tries := x.tries + 1, verifyAt := some (s1.now + msT ms) }) s1
          else stickRg (R.macEvt p) 4 (modPort p (fun x => { x with verify := 4, verifyAt := none }) s1)) s)

/-- VERIFY_MPACKET_RECEIVE: a verify mPacket is answered in every state; a respond mPacket makes a running verification
succeed (R217). -/
def execVerifyMpacketReceive (p : Nat) (respond : Bool) (s : State) : Host.Outcome State Fault Refusal :=
  .next (whenDo ((port s p).up)
    (modPort p fun x =>
      if respond then (if x.verify = 2 then { x with verify := 3, verifyAt := none } else x)
      else { x with responded := x.responded + 1 }) s)

end Sys2Proof.Machine
end

