-- ==== Sys2Proof/Machine/Arrival.lean ====
section
/-! DEFINITION. The arrival of a frame at its ingress slice (R14, R15, R50 to R54, R84, R90, R203, R255, R270 to R277, R390 to
R399): acceptance, the steps of R270, and what is stored. -/

namespace Sys2Proof.Machine

open Sys2Proof

/-! ## The frame as it enters its slice -/

/-- The ingress priority of a frame (R405). -/
def ingressPrio (s : State) (w : Incoming) (x : Parsed) : Nat :=
  if w.port < 256 ∧ portTsuip s w.port = false then
    if w.err ≠ 0 ∨ x.tags.isEmpty then cuF s (R.bpmPortCfg w.port) 2 0 else outerPcp x
  else w.prio % 8

/-- The frame record of an arriving frame, before the slice has worked on it (R395, R396). -/
def arrivingFrame (w : Incoming) (sl : Nat) (s : State) : Frame :=
  let gen := genFor s w
  let x := if w.err = 0 then parseFrame (prsCfg s (gen % 2) sl) w.bytes else {}
  let prio := ingressPrio s w x
  let pair := 8 * w.port + prio
  { bytes := w.bytes, par := gen % 2, gen := gen, prio := prio, lossless := pairLossless s pair,
    error := w.err != 0,
    launch := w.direct.bind fun d => d.2.2,
    lateDrop := match w.direct with
      | some d => d.2.1
      | none => false,
    hash := if w.err = 0 then hashOf s (gen % 2) sl w.bytes x else 0,
    ts := w.ts, tsInvalid := w.tsInvalid, deadline := w.ts + msT (fld 10 0 (cuAt s w.ts R.bpmCfg)),
    inPort := w.port, meta16 := w.meta16, requester := if w.port = 256 then 0x50 else sl,
    stampUs := s.now / usT 1 % 2 ^ 32, err := w.err + b2n w.tsInvalid * 64, parsed := x,
    oneStep := w.oneStep, tsReq := w.tsReq, txRing := w.txRing }

/-! ## Storing the frame -/

/-- The copies the frame is to have: its forwarding copies, then copies to the host, then mirror copies; one for each port
(R18, R271, R433). -/
def plannedCopies (w : Slice) : List Copy :=
  let mirrorQueue (p : Nat) : Nat := match w.fwd with
    | c :: _ => c.queue
    | [] => fld (3 * w.x.prio + 2) (3 * w.x.prio) (cu w.s (R.quePrioMap p))
  let side := (w.host.map fun h => ({ frame := 0, port := 256, queue := h.2, fwd := false, reason := h.1, named := true } : Copy)) ++
    (w.mirror.map fun p => ({ frame := 0, port := p, queue := mirrorQueue p, fwd := false, reason := 2 } : Copy))
  (w.fwd ++ side).foldl (fun l c => if l.any fun d => d.port == c.port then l else l ++ [c]) []

/-- The release time of a copy (R450). -/
def releaseOf (s : State) (x : Frame) (c : Copy) : Option Nat :=
  if 256 ≤ c.port then none
  else match x.launch with
    | some t => some t
    | none => if x.fr then some (x.ts + nsT (residenceOf s x)) else none

/-- The words of the basin that a frame's bytes and record fill (R16). -/
def frameWords (n : Nat) : Nat := 1 + ceilDiv n 64

/-- The frame has been through its slice: it arrives, takes its cells, and goes on to the buffer core with its copies, or is
gone with its fate (R34, R271, R396). -/
def storeFrame (w : Slice) : State :=
  let f := w.s.buf.nextFrame + 1
  let copies := (plannedCopies w).map fun c => { c with frame := f, release := releaseOf w.s w.x c }
  let fwd := (copies.filter fun c => c.fwd).length
  let n := w.x.bytes.length
  let g := grant none (cellsOf n) [] w.s
  let p := w.x.inPort
  let s1 := setFrame f { w.x with chain := g.1, queue := w.ipv.orElse fun _ => w.queue, copies := copies, fwdLeft := fwd, touched := true }
    { g.2 with
      acct := modNth (AcctSet.arrive w.x.par) g.2.acct (acctOf p),
      buf := { g.2.buf with nextFrame := f } }
  let s2 := basinWords (frameWords n) (pmuEv 28 1 none none (cellsOf n) (pmuWindow w.sl p w.x.ts n (n + 20)
    (whenDo w.x.error (pmuIn p 3 1) (pmuIn p 2 n (pmuIn p 1 1 s1)))))
  if copies.isEmpty then
    whenDo (w.drop != 0xE) (tsReturn p w.x.prio (ceilDiv n 256)) (discardFrame f w.drop s2)
  else
    let s3 := if w.drop ≠ 0 then settle f w.drop s2
      else if fwd = 0 then settle f (1 + draw s2 % 22) (drew s2)
      else s2
    judgePressure { s3 with buf := { s3.buf with arrivals := s3.buf.arrivals ++ [f] } }

/-! ## The steps of R270 -/

/-- A GLB_MGMT_MAC entry in force at the stamp names this address (R50). -/
def mgmtMac (s : State) (ts mac : Nat) : Bool :=
  (List.range 4).any fun k =>
    let hi := cuAt s ts (R.glbMgmtMac k + 4)
    bit 31 hi && cuAt s ts (R.glbMgmtMac k) + hi % 65536 * 2 ^ 32 == mac

/-- The staging filter (R50): a fixed filter, with the parser's reset settings. -/
def stagingFilter (w : Slice) : Slice :=
  let x := parseFrame (prsCfg { w.s with regs := [] } w.x.par w.sl) w.x.bytes
  if w.x.inPort < 256 ∧ (mgmtMac w.s w.x.ts x.dmac ∨ x.etype = 0x88CC ∨ x.etype = 0x88F7 ∨ x.etype = 0x8809) then
    { w with fwd := [{ frame := 0, port := 256, queue := 0, fwd := true, reason := 3, named := true }], x := { w.x with parsed := x } }
  else w.discard 0x14

/-- An error frame (R87, R203, R206). -/
def errorPath (w : Slice) : Slice :=
  if bit 1 (cuAt w.s w.x.ts (R.macCfg w.x.inPort)) then
    { w with fwd := [{ frame := 0, port := 256, queue := 0, fwd := true, reason := 4, named := true }] }
  else w.discard 5

/-- The malformed path (R277); `forward` is what FORWARD = 1 does with the frame. -/
def malformedPath (forward : Slice → Slice) (w : Slice) : Slice :=
  let a := pg w.s w.x.par (R.prsMalAction w.sl)
  let w1 := w.on fun s => pmuIn w.x.inPort 4 1 (incRg64 (R.prsMalCnt w.sl w.x.parsed.mal) s)
  let w2 := { w1 with
    host := if bit 1 a then [(5, 0)] else [],
    mirror := if bit 2 a then [fld 16 8 a] else [] }
  if bit 0 a then forward w2 else w2.discard 6

/-- Step 1 counts a parse that ended at its depth (R274). -/
def depthStop (w : Slice) : Slice := w.on (whenDo w.x.parsed.deep (incRg64 (R.prsDepthStop w.sl)))

/-- Steps 1 to 8 of a frame under the current generation. -/
def sliceSteps (errs : List (Nat × Nat)) (w : Slice) : Slice :=
  let w1 := depthStop w
  if w1.x.parsed.mal ≠ 0 then malformedPath (stepForward errs true) w1
  else ((stepRules errs w1).andThen stepHeadgates).andThen (stepForward errs false)

/-- A direct-form frame goes to queue PRIO of its port (R90). -/
def directForm (p : Nat) (w : Slice) : Slice :=
  { w with fwd := [{ frame := 0, port := p, queue := w.x.prio, fwd := true, named := true }] }

/-- A direct-form frame under the current generation passes steps 1 and 2 (R270): a malformed one takes the malformed path, whose
FORWARD = 1 lets it go to its port. -/
def directSteps (p : Nat) (w : Slice) : Slice :=
  let w1 := depthStop w
  if w1.x.parsed.mal ≠ 0 then malformedPath (directForm p) w1 else directForm p w1

/-! ## The device's own Pdelay_Resp (R255) -/

/-- The bytes of the response to a request, with four bytes in the place of its FCS. -/
def pdelayBytes (s : State) (p o : Nat) (bs : List Byte) : List Byte :=
  let b (i : Nat) : List Byte := [nth 0 bs (o + i)]
  let slice (i k : Nat) : List Byte := (bs.drop (o + i)).take k
  toBE 6 0x0180C200000E ++ toBE 6 (cu64 s (R.macAddr p) % 2 ^ 48) ++ toBE 2 0x88F7 ++
    toBE 1 (byteAt bs o / 16 * 16 + 3) ++ b 1 ++ toBE 2 54 ++ b 4 ++ toBE 1 0 ++ toBE 2 0 ++ toBE 8 0 ++ toBE 4 0 ++
    toBE 8 (cu64 s R.timClockId) ++ toBE 2 (cuF s (R.timPortCfg p) 15 0) ++ slice 30 2 ++ toBE 1 5 ++ toBE 1 0x7F ++
    toBE 10 0 ++ slice 20 10 ++ toBE 4 0

/-- A Pdelay_Req received over Ethernet is answered where PDELAY_RESP is set; during a time-base fault it is counted as
skipped instead (R242). -/
def answerPdelay (x : Frame) (s : State) : State :=
  match ptpEvent x with
  | none => s
  | some o =>
    let p := x.inPort
    if p < 256 ∧ x.parsed.l3 = 0 ∧ byteAt x.bytes o % 16 = 2 ∧ bit 18 (cu s (R.timPortCfg p)) then
      if timFault s then ptpSkip p s
      else
        let c : Copy := { frame := 0, port := p, queue := cuF s (R.timPortCfg p) 26 24, fwd := false,
                          device := some (pdelayBytes s p o x.bytes, x.ts, beN x.bytes (o + 8) 8) }
        { s with buf := { s.buf with plan := s.buf.plan ++ [c] } }
    else s

/-! ## Arrival -/

/-- The work of the slice on a frame it accepts. A frame beyond its credit is gone for that alone (R183). -/
def sliceWork (errs : List (Nat × Nat)) (w : Incoming) (h : Handling) (v : Slice) : Slice :=
  if w.overrun then v.discard 0xE
  else if h = .refused then v.discard 0x14
  else if w.err ≠ 0 then errorPath v
  else match w.direct, h with
    | some d, .staged => directForm d.1 v
    | some d, _ => directSteps d.1 v
    | none, .staged => stagingFilter v
    | none, _ => sliceSteps errs v

/-- The frame is gone whatever room there is: it is not stored for any copy. -/
def goneAnyway (s : State) (w : Incoming) (h : Handling) : Bool :=
  h == .refused || (w.err != 0 && !bit 1 (cuAt s w.ts (R.macCfg w.port))) || w.overrun

/-- The cells of the frame would take FREE to the floor of R397. -/
def emptyFor (s : State) (n : Nat) : Bool := decide (freeBasin s < sysReserve s + cellsOf n)

/-- The oldest frame before a slice is taken in; held back where its cells are not there and its class is lossless (R399), or
where a lookup must wait (R325). -/
def takeArrival (sl : Nat) (errs : List (Nat × Nat)) (s : State) : State :=
  match kvGetD [] sl s.lk.ingress with
  | [] => s
  | w :: ws =>
    let x := arrivingFrame w sl s
    let h := handlingFor s w
    let rest : State := { s with lk := { s.lk with ingress := kvPut sl ws s.lk.ingress },
                                 buf := { s.buf with holding := s.buf.holding.filter (· != sl) } }
    if emptyFor s w.bytes.length && !goneAnyway s w h then
      if x.lossless then countEmpty { s with buf :=
          { s.buf with holding := if s.buf.holding.contains sl then s.buf.holding else s.buf.holding ++ [sl] } }
      else answerPdelay x (storeFrame { s := countEmpty rest, x := x, sl := sl, drop := 0xD })
    else
      let v := sliceWork errs w h { s := rest, x := x, sl := sl }
      if v.hold then s else answerPdelay x (storeFrame v)

/-- FRAME_ARRIVAL: an ingress slice accepts the oldest frame before it whole (R270); `errs` names the table words its lookups
find bad (R338). From the fence on no slice accepts a frame (R61). -/
def execFrameArrival (sl : Nat) (errs : List (Nat × Nat)) (s : State) : Host.Outcome State Fault Refusal :=
  .next (whenDo (hostOpen s && !s.md.faultPending && !s.buf.holding.contains sl) (takeArrival sl errs) s)

/-- EMPTY_RETRY: a slice that holds a lossless frame after EMPTY asks again (R399). -/
def execEmptyRetry (sl : Nat) (s : State) : Host.Outcome State Fault Refusal :=
  .next (whenDo (hostOpen s && !s.md.faultPending && s.buf.holding.contains sl) (takeArrival sl []) s)

end Sys2Proof.Machine
end

