-- ==== Sys2Proof/Machine/EngineOps.lean ====
section
/-! DEFINITION. The action engines: contexts, the operations of a bundle's four slots, EMIT and faults (R358 to R376, R384,
R385). -/

namespace Sys2Proof.Machine

open Sys2Proof

/-! ## Engines and their frames -/

/-- Engine 8 × cluster + number, its cluster; changing one. -/
def engineAt (s : State) (e : Nat) : Engine := kvGetD {} e s.eng.engines
def setEngine (e : Nat) (x : Engine) (s : State) : State := { s with eng := { s.eng with engines := kvPut e x s.eng.engines } }

/-- An event of an engine, counted by its cluster (R487). -/
def pmuEng (e code n : Nat) : State → State := pmuEv (16 + e / 8) code (some (e % 8, true)) none n

/-- Changing the context of a number. -/
def setContext (e : Nat) (c : Context) (s : State) : State :=
  let x := engineAt s e
  setEngine e { x with contexts := x.contexts.map fun d => if d.num = c.num then c else d } s

/-- The frame's work in its engine is done: its context is free, its place in the order stays (R359). -/
def doneInEngine (e f : Nat) (s : State) : State :=
  let x := engineAt s e
  setEngine e { x with contexts := x.contexts.filter (fun c => c.frame != f),
                       order := x.order.map fun o => if o.frame = f then { o with done := true } else o } s

/-- The key of a bundle or a program; of a table bank word; of a working area word. -/
def bundleKey (c par a : Nat) : Nat := (2 * c + par % 2) * 8192 + a
def bankKey (c par w : Nat) : Nat := (2 * c + par % 2) * 16384 + w
def workKey (c w : Nat) : Nat := c * 32768 + w

/-- A bundle's four words. -/
def bundleAt (s : State) (c par a : Nat) : List Nat := kvGetD [0, 0, 0, 0] (bundleKey c par (a % 8192)) s.eng.bundles

/-- A registered program of a bank. -/
def programAt (s : State) (c par start : Nat) : Option Program := kvGet (bundleKey c par start) s.eng.programs

/-! ## Copies after the engine -/

/-- The frame's copies but for the destinations its lookups gave (REASON 0), with a copy to the host of REASON 6 where one is called for. -/
def sideCopies (s : State) (c : Nat) (host : Bool) (x : Frame) : List Copy :=
  let side := x.copies.filter fun y => y.reason != 0
  if host && !(side.any fun y => y.port == 256) then
    side ++ [{ frame := (x.copies.head?.map (·.frame)).getD 0, port := 256, queue := pgF s x.par (R.engCfg c) 4 2, fwd := false,
               reason := 6, named := true }]
  else side

/-- The queue that an egress port maps an ingress priority to (R433). -/
def defaultQueue (s : State) (p prio : Nat) : Nat := fld (3 * prio + 2) (3 * prio) (cu s (R.quePrioMap p))

/-- A copy of a frame that has no forwarding copies any more: a mirror copy takes the default mapping of its port (R433). -/
def orphanCopy (s : State) (f prio : Nat) (c : Copy) : Copy :=
  { c with frame := f, queue := if c.reason = 2 then defaultQueue s c.port prio else c.queue }

/-- A frame is discarded in its engine: its fate, and the copies that still go. -/
def discardInEngine (e f fate : Nat) (copies : List Copy) (s : State) : State :=
  doneInEngine e f (settle f fate (modFrame f (fun x =>
    { x with copies := copies.map (orphanCopy s f x.prio), fwdLeft := 0,
             paths := x.paths.filter fun q => q.1 == 2 }) s))

/-! ## Faults (R384) -/

/-- The FAULT event of an engine fault, at most one of each cluster in any 1 ms. -/
def engineFaultEvent (c cause detail : Nat) (s : State) : State :=
  let go := match kvGet c s.eng.faultAt with
    | none => true
    | some t => decide (t + msT 1 ≤ s.now)
  if go then alarm (0x0200 + cause) (80 + c) detail { s with eng := { s.eng with faultAt := kvPut c s.now s.eng.faultAt } } else s

/-- A program stops with a fault: counted, shown, and its frame is discarded as it was received. -/
def engineFault (e : Nat) (x : Context) (cause : Nat) (s : State) : State :=
  let c := e / 8
  let f := frame s x.frame
  let last := cause + e % 8 * 2 ^ 4 + x.num * 2 ^ 7 + x.pc * 2 ^ 13
  let s1 := stickRg (R.engEvt c) 0 (setRg (R.engFaultPort c) f.inPort (setRg (R.engFaultLast c) last
    (incRg (R.engFaultCnt c cause) (pmuEng e 7 1 s))))
  let copies := sideCopies s c (pgF s f.par (R.engCfg c) 1 1 == 1) f
  discardInEngine e x.frame 0xC copies (engineFaultEvent c cause last s1)

/-! ## The four slots (R364 to R372) -/

/-- A slot's guard lets it act (R364). -/
def guardHolds (w preds : Nat) : Bool :=
  let n := fld 30 28 w
  (n == 0 || bit (n - 1) preds) != bit 31 w

/-- A bundle on its way: the state, its context as it will be, the fault that stops it, the EMIT word. -/
structure Issue where
  s : State
  x : Context
  fault : Nat := 0
  emit : Option Nat := none

/-- A slot of a bundle: it acts where its guard holds and no earlier slot has faulted. -/
def Issue.slot (w preds : Nat) (f : Issue → Issue) (i : Issue) : Issue :=
  if i.fault = 0 && guardHolds w preds then f i else i

/-- Writing a register, a predicate, now or from a later cycle on (R366). -/
def Issue.reg (r v : Nat) (i : Issue) : Issue := { i with x := { i.x with regs := i.x.regs.set r (v % 2 ^ 32) } }
def Issue.pred (p : Nat) (v : Bool) (i : Issue) : Issue := { i with x := { i.x with preds := putFld p p (b2n v) i.x.preds } }
def Issue.wait (r cycle : Nat) (i : Issue) : Issue := { i with x := { i.x with waits := i.x.waits ++ [(r, cycle)] } }
def Issue.stop (cause : Nat) (i : Issue) : Issue := { i with fault := cause }

/-- Operand b of an ALU slot (R367). -/
def aluB (g : List Nat) (w : Nat) : Nat :=
  let op := fld 27 22 w
  if !bit 13 w then nth 0 g (fld 12 9 w)
  else if op = 1 ∨ op = 2 then unsgn 32 (sgn 13 (w % 8192)) else w % 8192

/-- The register result of an ALU operation; none for one that writes no register so. -/
def aluResult (g : List Nat) (w : Nat) : Option Nat :=
  let a := nth 0 g (fld 17 14 w)
  let b := aluB g w
  let d := nth 0 g (fld 21 18 w)
  let pos := fld 9 5 w
  let top := pos + fld 4 0 w
  match fld 27 22 w with
  | 0x01 => some (a + b)
  | 0x02 => some (a + 2 ^ 32 - b)
  | 0x03 => some (a &&& b)
  | 0x04 => some (a ||| b)
  | 0x05 => some (a ^^^ b)
  | 0x06 => some (a <<< (b % 32))
  | 0x07 => some (a >>> (b % 32))
  | 0x08 => some (unsgn 32 (sgn 32 a >>> (b % 32)))
  | 0x09 => some (unsgn 32 (sgn 18 (w % 2 ^ 18)))
  | 0x0A => some (w % 65536 * 65536 + d % 65536)
  | 0x0B => some (fld top pos a)
  | 0x0C => some (putFld top pos a d)
  | 0x0D => some (min a b)
  | 0x0E => some (max a b)
  | 0x0F => some ((a % 65536 + b % 65536) % 65536 + (a % 65536 + b % 65536) / 65536)
  | _ => none

/-- The predicate result of a compare or a predicate operation. -/
def aluPred (g : List Nat) (preds w : Nat) : Option Bool :=
  let a := nth 0 g (fld 17 14 w)
  let b := aluB g w
  let p := bit (fld 15 14 w) preds
  let q := bit (fld 10 9 w) preds
  match fld 27 22 w with
  | 0x10 => some (a == b)
  | 0x11 => some (a != b)
  | 0x12 => some (decide (a < b))
  | 0x13 => some (decide (a ≤ b))
  | 0x14 => some (decide (b < a))
  | 0x15 => some (decide (b ≤ a))
  | 0x18 => some (p && q)
  | 0x19 => some (p || q)
  | 0x1A => some (p && !q)
  | 0x1B => some (p != q)
  | _ => none

/-- RDTE (R376): the edge count of a generator for an ingress time stamp. -/
def edgeCount (s : State) (g ts : Nat) : Nat :=
  if bit 1 (cu s (R.timCgCfg g)) then
    (((kvGetD [] g s.eng.edges).find? fun e => decide (e.2 ≤ ts)).map fun e => e.1 % 2 ^ 32).getD 0xFFFFFFFF
  else 0xFFFFFFFF

/-- Reading a word of a store whose unlisted words are undefined: the free value it is found to hold stays in it. -/
def readOpen (key : Nat) (store : List (Nat × Nat)) (s : State) : Nat × List (Nat × Nat) × State :=
  match kvGet key store with
  | some v => (v, store, s)
  | none => (draw s % 2 ^ 32, kvPut key (draw s % 2 ^ 32) store, drew s)

/-- A word of the working area. -/
def readWork (key : Nat) (s : State) : Nat × State :=
  let r := readOpen key s.eng.work s
  (r.1, { r.2.2 with eng := { r.2.2.eng with work := r.2.1 } })
def writeWork (key v : Nat) (s : State) : State := { s with eng := { s.eng with work := kvPut key (v % 2 ^ 32) s.eng.work } }

/-- A table-bank word is bad (R385). -/
def bankBad (s : State) (c key : Nat) : Bool := s.eng.bad.contains (c, 1, key)

/-- LDS, STS and ADDS (R367, R374). -/
def scratchOp (c par cycle : Nat) (g : List Nat) (w : Nat) (i : Issue) : Issue :=
  let a := (nth 0 g (fld 17 14 w) + w % 8192) % 2 ^ 32
  let d := fld 21 18 w
  let op := fld 27 22 w
  if a % 4 ≠ 0 ∨ 0x30000 ≤ a ∨ (op ≠ 0x20 ∧ a < 0x10000) then i.stop 4
  else if a < 0x10000 then
    let k := bankKey c par (a / 4)
    if bankBad i.s c k then i.stop 7 else (i.reg d (kvGetD 0 k i.s.eng.banks)).wait d (cycle + 4)
  else
    let k := workKey c ((a - 0x10000) / 4)
    if op = 0x21 then { i with s := writeWork k (nth 0 g d) i.s }
    else
      let r := readWork k i.s
      if op = 0x20 then ({ i with s := r.2 }.reg d r.1).wait d (cycle + 4)
      else { i with s := writeWork k (r.1 + nth 0 g d) r.2 }

/-- An ALU slot. -/
def aluSlot (c par cycle ts : Nat) (g : List Nat) (preds w : Nat) (i : Issue) : Issue :=
  let op := fld 27 22 w
  match aluResult g w, aluPred g preds w with
  | some v, _ => i.reg (fld 21 18 w) v
  | none, some v => i.pred (fld 19 18 w) v
  | none, none =>
    if op = 0x20 ∨ op = 0x21 ∨ op = 0x22 then scratchOp c par cycle g w i
    else if op = 0x28 then i.reg (fld 21 18 w) (edgeCount i.s (fld 4 0 w) ts)
    else i

/-- The header slot (R368). -/
def headerSlot (cycle : Nat) (g : List Nat) (w : Nat) (i : Issue) : Issue :=
  let n := fld 24 21 w + 1
  let off := fld 20 12 w + if bit 11 w then nth 0 g (fld 10 7 w) % 512 else 0
  let r := fld 6 3 w
  let h := i.x.window
  let inside (o : Nat) : Bool := decide (o + n ≤ h.length)
  let put (h : List Byte) : Issue := { i with x := { i.x with window := h } }
  match fld 27 25 w with
  | 1 => if inside off then (i.reg r (beN h off n)).wait r (cycle + 2) else i.stop 1
  | 2 => if inside off then put (patch h off (toBE n (nth 0 g r))) else i.stop 1
  | 3 =>
    if h.length < off then i.stop 1
    else if 320 < h.length + n then i.stop 2
    else put (h.take off ++ List.replicate n 0 ++ h.drop off)
  | 4 => if inside off then put (h.take off ++ h.drop (off + n)) else i.stop 1
  | 5 =>
    let src := nth 0 g r % 512
    if inside off && inside src then put (patch h off ((h.drop src).take n)) else i.stop 1
  | _ => i

/-- The 16-bit ones'-complement complement. -/
def not16 (n : Nat) : Nat := 65535 - n % 65536

/-- CSU and CSIP4 (R372). -/
def checksumOp (g : List Nat) (w : Nat) (i : Issue) : Issue :=
  let off := w % 512
  let h := i.x.window
  let put (h : List Byte) : Issue := { i with x := { i.x with window := h } }
  if fld 27 24 w = 4 then
    if off + 2 ≤ h.length then
      put (patch h off (toBE 2 (not16 (foldOnes (not16 (be16 h off) + not16 (nth 0 g (fld 23 20 w)) + nth 0 g (fld 19 16 w) % 65536)))))
    else i.stop 1
  else
    let len := 4 * (byteAt h off % 16)
    if off + max 12 len ≤ h.length then
      let h1 := patch h (off + 10) [0, 0]
      put (patch h1 (off + 10) (toBE 2 (not16 (foldOnes (onesSum ((h1.drop off).take len))))))
    else i.stop 1

/-- The first entry of a bucket of a cluster table that holds a key (R370), and whether a word it reads is bad. -/
def tableLookup (s : State) (c par t key : Nat) : Option Nat × Bool :=
  let cfg := pg s par (R.engTbl c t)
  if !bit 16 cfg then (none, false)
  else
    let b := fld 10 0 cfg + crc32c t (toBE 4 key) % 2 ^ fld 15 12 cfg
    let word (k : Nat) : Nat := kvGetD 0 (bankKey c par (8 * b + k)) s.eng.banks
    let bad := (List.range 8).any fun k => bankBad s c (bankKey c par (8 * b + k))
    (((List.range 4).find? fun k => bit 31 (word (2 * k + 1)) && word (2 * k) == key).map fun k => word (2 * k + 1) % 2 ^ 31, bad)

/-- The size of the engine store in bytes (R420). -/
def storeSize (s : State) : Nat := s.buf.esGib * 2 ^ 30

/-- The control slot but for BR, EMIT (R369 to R372). -/
def controlSlot (c par cycle : Nat) (g : List Nat) (w : Nat) (i : Issue) : Issue :=
  match fld 27 24 w with
  | 2 =>
    let r := tableLookup i.s c par (fld 15 12 w) (nth 0 g (fld 19 16 w))
    let d := fld 23 20 w
    let p := fld 1 0 w
    if r.2 then i.stop 7
    else (((i.reg d (r.1.getD 0)).pred p r.1.isSome).wait d (cycle + 6)).wait (16 + p) (cycle + 6)
  | 3 =>
    let a := nth 0 g (fld 19 16 w)
    if a % 32 ≠ 0 ∨ storeSize i.s ≤ a ∨ channelAway i.s (esLogical a) then i.stop 5 else { i with x := { i.x with parked := some a } }
  | 4 | 5 => checksumOp g w i
  | 6 => { i with emit := some w }
  | _ => i

/-! ## What a bundle reads and writes (R360, R377) -/

/-- Operations that write a register, those that read it too. -/
def aluWritesReg (op : Nat) : Bool := decide (1 ≤ op) && decide (op ≤ 0xF) || op == 0x20 || op == 0x28
def aluWritesPred (op : Nat) : Bool := decide (0x10 ≤ op) && decide (op ≤ 0x15) || decide (0x18 ≤ op) && decide (op ≤ 0x1B)

/-- The predicate a guard reads: 16 + its number. -/
def guardReads (w : Nat) : List Nat := if fld 30 28 w = 0 then [] else [15 + fld 30 28 w]

/-- Registers and predicates that an ALU slot reads, and writes. -/
def aluReads (w : Nat) : List Nat :=
  let op := fld 27 22 w
  let b := if bit 13 w then [] else [fld 12 9 w]
  guardReads w ++
    if op = 0 ∨ op = 9 ∨ op = 0x28 then []
    else if op = 0xA then [fld 21 18 w]
    else if 0x18 ≤ op ∧ op ≤ 0x1B then [16 + fld 15 14 w, 16 + fld 10 9 w]
    else if op = 0x20 then [fld 17 14 w]
    else if op = 0xC ∨ op = 0x21 ∨ op = 0x22 then fld 17 14 w :: fld 21 18 w :: b
    else fld 17 14 w :: b
def aluWrites (w : Nat) : List Nat :=
  let op := fld 27 22 w
  if aluWritesReg op then [fld 21 18 w] else if aluWritesPred op then [16 + fld 19 18 w] else []

/-- The same of the header slot and of the control slot. -/
def headerReads (w : Nat) : List Nat :=
  let op := fld 27 25 w
  guardReads w ++ (if op ≠ 0 ∧ bit 11 w then [fld 10 7 w] else []) ++ if op = 2 ∨ op = 5 then [fld 6 3 w] else []
def headerWrites (w : Nat) : List Nat := if fld 27 25 w = 1 then [fld 6 3 w] else []
def controlReads (w : Nat) : List Nat :=
  guardReads w ++ match fld 27 24 w with
    | 2 | 3 => [fld 19 16 w]
    | 4 => [fld 23 20 w, fld 19 16 w]
    | 6 => (if fld 23 20 w = 3 then [fld 19 16 w] else []) ++ if bit 11 w then [1] else []
    | _ => []
def controlWrites (w : Nat) : List Nat :=
  match fld 27 24 w with
  | 2 => [fld 23 20 w, 16 + fld 1 0 w]
  | 3 => [8, 9, 10, 11, 12, 13, 14, 15]
  | _ => []

/-- The registers and predicates a bundle touches. -/
def bundleReads (b : List Nat) : List Nat :=
  aluReads (nth 0 b 0) ++ aluReads (nth 0 b 1) ++ headerReads (nth 0 b 2) ++ controlReads (nth 0 b 3)
def bundleWrites (b : List Nat) : List Nat :=
  aluWrites (nth 0 b 0) ++ aluWrites (nth 0 b 1) ++ headerWrites (nth 0 b 2) ++ controlWrites (nth 0 b 3)

/-- A context is ready in a cycle (R360). -/
def contextReady (b : List Nat) (cycle : Nat) (x : Context) : Bool :=
  x.parked.isNone && x.growing.isNone &&
    !(x.waits.any fun r => decide (cycle < r.2) && (bundleReads b ++ bundleWrites b).contains r.1)

/-! ## Entry (R362, R363) -/

/-- The registers on entry to a program. -/
def entryRegs (x : Frame) (window : Nat) : List Nat :=
  let p := x.parsed
  let hop := x.nextHop.getD (0, 0)
  [x.bytes.length + window * 2 ^ 16, x.meta16 + x.inPort * 2 ^ 16,
   p.l3off + p.l4off * 2 ^ 9 + outerVid p * 2 ^ 18, keyFlags p + x.par * 2 ^ 9 + x.stream * 2 ^ 16,
   x.hash, tNs x.ts, hop.1, hop.2 % 2 ^ 29 + b2n x.nextHop.isSome * 2 ^ 29, 0, 0, 0, 0, 0, 0, 0, 0]

/-- The numbers of the contexts that are free. -/
def freeContexts (x : Engine) : List Nat := (List.range 64).filter fun k => !(x.contexts.any fun c => c.num == k)

/-- A frame enters a free context of its engine, which one being the engine's own choice. -/
def enterContext (e f pc : Nat) (s : State) : State :=
  let x := engineAt s e
  let free := freeContexts x
  let fr := frame s f
  let window := fr.bytes.take (min (fr.bytes.length - 4) 256)
  let c : Context := { frame := f, num := nth 0 free (draw s % max 1 free.length), pc := pc, regs := entryRegs fr window.length,
                       window := window, loaded := window.length }
  drew (setEngine e { x with contexts := x.contexts ++ [c] } s)

/-! ## EMIT (R373) -/

/-- The forwarding copies after EMIT, and whether they replace the ones the lookups gave. -/
def emitCopies (s : State) (f : Nat) (x : Frame) (w : Nat) (g : List Nat) : List Copy × Bool :=
  let setq := bit 15 w
  let q := fld 14 12 w
  let p := nth 0 g (fld 19 16 w) % 512
  let default := (x.queue).getD (defaultQueue s p x.prio)
  match fld 23 20 w with
  | 2 => ([{ frame := f, port := 256, queue := q, fwd := true, named := true }], true)
  | 3 => ([{ frame := f, port := p, queue := if setq then q else default, fwd := p != 257 }], true)
  | _ => ((x.copies.filter fun c => c.reason == 0).map fun c =>
      if setq && !c.named then { c with queue := q } else c, false)

/-- The frame with its header rewritten, its new cells, and its metadata. -/
def rewriteFrame (cells : List Nat) (w : Nat) (c : Context) (us : Nat) (x : Frame) : Frame :=
  let bs := c.window ++ x.bytes.drop c.loaded
  { x with
    grown := if cells.isEmpty then x.grown else some (x.chain.length, us),
    bytes := bs, chain := (x.chain ++ cells).take (cellsOf bs.length), rewritten := x.rewritten || bs != x.bytes,
    meta16 := if bit 11 w then nth 0 c.regs 1 % 65536 else x.meta16, metaSet := x.metaSet || bit 11 w }

/-- A mirror copy takes the queue of the forwarding copies (R433). -/
def requeueMirrors (fwd : List Copy) (side : List Copy) : List Copy :=
  match fwd with
  | [] => side
  | d :: _ => side.map fun c => if c.reason = 2 then { c with queue := d.queue } else c

/-- The cells that a frame no longer needs after EMIT return (R391, R403). -/
def shrinkChain (x : Frame) (cells : List Nat) (n : Nat) (s : State) : State := returnCells ((x.chain ++ cells).drop (cellsOf n)) s

/-- EMIT with its cells in hand. A frame that its slice has dropped has no forwarding copies, whatever EMIT asks (R270, R271). -/
def emitNow (e : Nat) (c : Context) (w : Nat) (cells : List Nat) (s : State) : State :=
  let f := c.frame
  let x0 := frame s f
  let s1 := shrinkChain x0 cells (c.window.length + (x0.bytes.length - c.loaded)) (modFrame f (rewriteFrame cells w c (s.now / usT 1 % 2 ^ 32)) s)
  let x := frame s1 f
  let side := sideCopies s1 (e / 8) (bit 10 w) x
  if fld 23 20 w = 1 then discardInEngine e f 7 side s1
  else
    let r := if x.fate = 0 then emitCopies s1 f x w c.regs else ([], false)
    let fwd := r.1.map fun y => { y with release := releaseOf s1 x y }
    let all := (fwd ++ requeueMirrors fwd side).foldl (fun l y => if l.any fun d => d.port == y.port then l else l ++ [y]) []
    let n := (all.filter fun y => y.fwd).length
    let s2 := modFrame f (fun y => { y with
      copies := all.map (fun z => { z with frame := f }), fwdLeft := n,
      paths := if r.2 then y.paths.filter (fun q => q.1 == 2) else y.paths }) s1
    let s3 := if n = 0 then settle f (1 + draw s2 % 22) (drew s2) else s2
    doneInEngine e f s3

/-- EMIT: a frame past its deadline is discarded (R415); a window of fewer than 14 bytes or a port that cannot be is a fault; growth
cells are asked for, and on EMPTY the context waits (R373, R384, R397). -/
def emitFrame (e : Nat) (c : Context) (w : Nat) (s : State) : State :=
  let x := frame s c.frame
  let n := c.window.length + (x.bytes.length - c.loaded)
  let more := cellsOf n - x.chain.length
  if pastDeadline x s then discardInEngine e c.frame 0xF [] s
  else if c.window.length < 14 then engineFault e c 3 s
  else if fld 23 20 w = 3 ∧ 258 < nth 0 c.regs (fld 19 16 w) % 512 then engineFault e c 8 s
  else if more = 0 then judgePressure (emitNow e c w [] s)
  else if freeBasin s < 2048 + more then countEmpty (setContext e { c with growing := some (w, more) } s)
  else
    let g := grant none more [] s
    judgePressure (emitNow e { c with growing := none } w g.1 (pmuEv 28 1 none none more g.2))

end Sys2Proof.Machine
end

