-- ==== Sys2Proof/Machine/Engine.lean ====
section
/-! DEFINITION. The engine's own steps: entry, bundle issue, the return of a lookup, hand-off, repair (R359 to R373, R385),
and the commands of the ENG target (R377 to R383, R388, R389). -/

namespace Sys2Proof.Machine

open Sys2Proof

/-! ## Entry and hand-off -/

/-- ENGINE_FRAME_ENTRY: the frame at the front of an engine's input queue enters, in bypass or into a free context; a frame
whose program is not registered faults (R359, R361, R362, R378). -/
def execEngineFrameEntry (e : Nat) (s : State) : Host.Outcome State Fault Refusal :=
  let x := engineAt s e
  let c := e / 8
  .next (match x.input with
    | [] => s
    | f :: rest =>
      match kvGet f s.buf.frames with
      | none => setEngine e { x with input := rest } s
      | some y =>
        let slot (done : Bool) : EngineSlot := { frame := f, entered := s.now, done := done }
        match y.prog with
        | none => incRg64 (R.engBypass c) (pmuEng e 2 1 (setEngine e { x with input := rest, order := x.order ++ [slot true] } s))
        | some pr =>
          if (freeContexts x).isEmpty then s
          else
            let s1 := pmuEng e 1 1 (enterContext e f pr (setEngine e { x with input := rest, order := x.order ++ [slot false] } s))
            if (programAt s c y.par pr).isSome then incRg64 (R.engFrames c) s1
            else match (engineAt s1 e).contexts.find? fun d => d.frame == f with
              | some d => engineFault e d 6 s1
              | none => s1)

/-- A frame goes on from its engine or slice: its holder set is written and its copies go to their queues (R396). -/
def handOn (f : Nat) (s : State) : State :=
  match kvGet f s.buf.frames with
  | none => s
  | some x =>
    if x.copies.isEmpty then dropFrame f s
    else
      let s1 := setFrame f { x with
        copies := [], holders := x.copies.map (·.port), touched := true,
        paths := x.paths.filter fun q => q.1 != 2 } s
      { s1 with buf := { s1.buf with plan := s1.buf.plan ++ x.copies } }

/-- The first frame in an engine's order leaves. -/
def leaveEngine (e f : Nat) (s : State) : State :=
  let x := engineAt s e
  handOn f (setEngine e { x with order := x.order.drop 1 } s)

/-- ENGINE_HANDOFF: the oldest frame of an engine goes on to the buffer core once its work is done; one in bypass not before
12 ns after it entered (R359). -/
def execEngineHandoff (e : Nat) (s : State) : Host.Outcome State Fault Refusal :=
  .next (match (engineAt s e).order with
    | [] => s
    | o :: _ =>
      match kvGet o.frame s.buf.frames with
      | none => setEngine e { engineAt s e with order := (engineAt s e).order.drop 1 } s
      | some y =>
        if !o.done then s
        else leaveEngine e o.frame (whenDo y.prog.isNone (reach (o.entered + nsT 12)) s))

/-! ## Bundles -/

/-- The words of the table bank that a bundle reads: by LDS, by LKT. -/
def bankReads (s : State) (c par : Nat) (b : List Nat) (x : Context) : List Nat :=
  let w1 := nth 0 b 1
  let w3 := nth 0 b 3
  let lds := (nth 0 x.regs (fld 17 14 w1) + w1 % 8192) % 2 ^ 32
  let key := nth 0 x.regs (fld 19 16 w3)
  let cfg := pg s par (R.engTbl c (fld 15 12 w3))
  let bucket := fld 10 0 cfg + crc32c (fld 15 12 w3) (toBE 4 key) % 2 ^ fld 15 12 cfg
  (if fld 27 22 w1 = 0x20 ∧ guardHolds w1 x.preds ∧ lds < 0x10000 then [lds / 4] else []) ++
    (if fld 27 24 w3 = 2 ∧ guardHolds w3 x.preds ∧ bit 16 cfg then (List.range 8).map (8 * bucket + ·) else [])

/-- A word with an uncorrectable error is found: one TABLE_PARITY event of type 0 with TABLE 0x09, ECC_SEEN (R338, R385). -/
def engineWordBad (c kind key : Nat) (s : State) : State :=
  if s.eng.bad.contains (c, kind, key) then s
  else emitParity 0 (64 + c) 9 key (stickRg (R.engEvt c) 1 { s with eng := { s.eng with bad := (c, kind, key) :: s.eng.bad } })

/-- One bundle of a context in a cycle: the four slots in their order, then BR or EMIT, which like every slot reads the registers as
they stood at the start (R365). -/
def issueBundle (e cycle : Nat) (b : List Nat) (x : Context) (s : State) : State :=
  let c := e / 8
  let fr := frame s x.frame
  let g := x.regs
  let p := x.preds
  let w (k : Nat) : Nat := nth 0 b k
  let i0 : Issue := { s := s, x := { x with waits := x.waits.filter fun r => decide (cycle < r.2) } }
  let i1 := i0.slot (w 0) p (aluSlot c fr.par cycle fr.ts g p (w 0))
  let i2 := i1.slot (w 1) p (aluSlot c fr.par cycle fr.ts g p (w 1))
  let i3 := i2.slot (w 2) p (headerSlot cycle g (w 2))
  let i4 := i3.slot (w 3) p (controlSlot c fr.par cycle g (w 3))
  let jump := fld 27 24 (w 3) == 1 && guardHolds (w 3) p
  let next := x.pc + 1 + if jump then fld 12 0 (w 3) else 0
  let ops := b2n (fld 27 24 (w 3) == 2 && guardHolds (w 3) p)
  let esl := b2n (fld 27 24 (w 3) == 3 && guardHolds (w 3) p)
  let s1 := pmuEng e 3 1 (whenDo (ops == 1) (pmuEng e 5 1) (whenDo (esl == 1) (pmuEng e 6 1) i4.s))
  if i4.fault ≠ 0 then engineFault e x i4.fault s1
  else match i4.emit with
    | some m => emitFrame e { i4.x with regs := g } m (setContext e i4.x s1)
    | none => setContext e { i4.x with pc := next } s1

/-- BUNDLE_ISSUE: one cycle of an engine: the oldest of its contexts that is ready issues a bundle (R360). `corrected` errors of one bit
were found in the words it read, `bad` names words of the frame's banks that are uncorrectable: 0 a bundle, 1 a table-bank word, and its
number in the bank (R385). -/
def execBundleIssue (e corrected : Nat) (bad : List (Nat × Nat)) (s : State) : Host.Outcome State Fault Refusal :=
  let c := e / 8
  let x := engineAt s e
  let cycle := x.cycle + 1
  let s1 := setEngine e { x with cycle := cycle } s
  let bundle (y : Context) : List Nat := bundleAt s c (frame s y.frame).par y.pc
  .next (match x.contexts.find? fun y => contextReady (bundle y) cycle y with
    | none => whenDo (!x.contexts.isEmpty || !x.input.isEmpty || !x.order.isEmpty) (pmuEng e 4 1) s1
    | some y =>
      let par := (frame s y.frame).par
      let b := bundle y
      let reads := bankReads s c par b y
      let s2 := whenDo (corrected != 0) (fun s => stickRg (R.engEvt c) 1 (addRg (R.engEccCorr c) corrected s)) s1
      let s3 := forAll (fun d s =>
        if d.1 = 0 ∧ d.2 = y.pc then engineWordBad c 0 (bundleKey c par d.2) s
        else if d.1 = 1 ∧ reads.contains d.2 then engineWordBad c 1 (bankKey c par d.2) s
        else s) bad s2
      if s3.eng.bad.contains (c, 0, bundleKey c par y.pc) then engineFault e y 7 s3 else issueBundle e cycle b y s3)

/-- Eight words of the engine store from a word on; words never written are undefined and read as free values. -/
def readStore : Nat → Nat → State → List Nat × State
  | 0, _, s => ([], s)
  | k + 1, w, s =>
    let r := readOpen w s.eng.store s
    let rest := readStore k (w + 1) { r.2.2 with eng := { r.2.2.eng with store := r.2.1 } }
    (r.1 :: rest.1, rest.2)

/-- ESL_DATA_RETURN: the data of a parked context comes back, `corrected` of its words having been corrected: g8 to g15 hold it from
the next cycle on (R366, R371). -/
def execEslDataReturn (e num corrected : Nat) (s : State) : Host.Outcome State Fault Refusal :=
  let x := engineAt s e
  .next (match x.contexts.find? fun y => y.num == num && y.parked.isSome with
    | none => s
    | some y =>
      let a := y.parked.getD 0
      let r := readStore 8 (a / 4) s
      let regs := (List.range 8).foldl (fun g k => g.set (8 + k) (nth 0 r.1 k)) y.regs
      let waits := (List.range 8).map fun k => (8 + k, x.cycle + 1)
      setContext e { y with parked := none, regs := regs, waits := y.waits ++ waits }
        (hbmCorrected (physicalOf s (esLogical a)) corrected (hbmBurst (physicalOf s (esLogical a)) 1 false 1 r.2)))

/-- GROWTH_CELL_RETRY: a context that waits for growth cells asks again (R373, R397). -/
def execGrowthCellRetry (e num : Nat) (s : State) : Host.Outcome State Fault Refusal :=
  .next (match (engineAt s e).contexts.find? fun y => y.num == num && y.growing.isSome with
    | none => s
    | some y => emitFrame e { y with growing := none } ((y.growing.map (·.1)).getD 0) s)

/-- ENGINE_WORD_REPAIR: a bad word is rewritten from its shadow, with a type 1 event (R385). -/
def execEngineWordRepair (c kind key : Nat) (s : State) : Host.Outcome State Fault Refusal :=
  .next (whenDo (s.eng.bad.contains (c, kind, key))
    (fun s => emitParity 1 (64 + c) 9 key { s with eng := { s.eng with bad := s.eng.bad.filter (· != (c, kind, key)) } }) s)

/-! ## The loader's checks (R377, R378) -/

/-- A guard that R364 does not reserve. -/
def guardCode (w : Nat) : Bool := decide (fld 30 28 w ≤ 4)

/-- An ALU slot is well formed; `a1` says which of the two it is. -/
def aluOk (a1 : Bool) (w : Nat) : Bool :=
  let op := fld 27 22 w
  let both := decide (op ≤ 0x0F) || decide (0x10 ≤ op) && decide (op ≤ 0x15) || decide (0x18 ≤ op) && decide (op ≤ 0x1B)
  guardCode w && (both || (a1 && decide (0x20 ≤ op) && decide (op ≤ 0x22)) || (!a1 && op == 0x28)) &&
    (if op = 0xB ∨ op = 0xC then bit 13 w && decide (fld 9 5 w + fld 4 0 w + 1 ≤ 32) else true) &&
    (if 0x10 ≤ op ∧ op ≤ 0x15 then fld 21 20 w == 0 else true)

/-- A header slot, a control slot is well formed; a reserved MODE of EMIT counts as a reserved operation (assumption 57). -/
def headerOk (w : Nat) : Bool :=
  let op := fld 27 25 w
  let n := fld 24 21 w + 1
  guardCode w && decide (op ≤ 5) && (if op = 1 ∨ op = 2 then n == 1 || n == 2 || n == 4 else true)
def controlOk (w : Nat) : Bool :=
  let op := fld 27 24 w
  guardCode w && decide (op ≤ 6) && (if op = 6 then decide (fld 23 20 w ≤ 3) else true)

/-- A bundle passes the first condition of R377. -/
def bundleOk (b : List Nat) : Bool :=
  aluOk false (nth 0 b 0) && aluOk true (nth 0 b 1) && headerOk (nth 0 b 2) && controlOk (nth 0 b 3)

/-- No register and no predicate is written twice. -/
def noConflict (b : List Nat) : Bool := decide (bundleWrites b).Nodup

/-- A BR of the bundle at `i` of a program of `n` stays inside it. -/
def branchOk (n i : Nat) (b : List Nat) : Bool :=
  let w := nth 0 b 3
  if fld 27 24 w = 1 then decide (i + 1 + fld 12 0 w < n) else true

/-- What the paths from a bundle on can do: the longest one in bundles, the most ESL on one; none where a path runs past the
end. -/
abbrev PathInfo := Option (Nat × Nat)

/-- The worse of two ways on. -/
def worse (a b : PathInfo) : PathInfo :=
  match a, b with
  | some x, some y => some (max x.1 y.1, max x.2 y.2)
  | _, _ => none

/-- The paths from a bundle on, given those from each later bundle; a BR or an EMIT with a guard may act or not. -/
def pathFrom (b : List Nat) (later : List PathInfo) : PathInfo :=
  let w := nth 0 b 3
  let op := fld 27 24 w
  let sure := fld 31 28 w == 0
  let next := nth none later 0
  let on := match op with
    | 1 => if sure then nth none later (fld 12 0 w) else worse (nth none later (fld 12 0 w)) next
    | 6 => if sure then some (0, 0) else worse (some (0, 0)) next
    | _ => next
  on.map fun x => (x.1 + 1, x.2 + if op = 3 then 1 else 0)

/-- The paths from every bundle of a program. -/
def programPaths (bs : List (List Nat)) : List PathInfo := bs.foldr (fun b l => pathFrom b l :: l) []

/-- B_n(64), and the smallest line-rate size of a program with `n` engines (R379 to R381). -/
def budget64 (n : Nat) : Nat := 168 * n / 125
def lineSize (n w : Nat) (esl : Bool) : Nat :=
  let a := max 64 (ceilDiv (125 * w) (2 * n) - 20)
  let b := if esl then max a (ceilDiv 656 n - 20) else a
  if n = 0 ∨ 16000 < b then 0xFFFF else b

/-- Engines of a cluster in service, MIN_ENGINES, and MIN_LINE_L (R381, R387). -/
def enginesOf (s : State) (c : Nat) : Nat := ((List.range 8).filter fun e => unitState s .engine (8 * c + e) == 0).length
def minEngines (s : State) (c : Nat) : Nat := pgF s (curPar s) (R.engCfg c) 11 8
def programsOf (s : State) (c par : Nat) : List (Nat × Program) :=
  s.eng.programs.filter fun p => decide (bundleKey c par 0 ≤ p.1) && decide (p.1 < bundleKey c par 0 + 8192)
def minLine (s : State) (c : Nat) : Nat :=
  (programsOf s c (curPar s)).foldl (fun m p => max m (lineSize (enginesOf s c) p.2.w p.2.esl)) 64

/-- The strict budget of R382 is met in a cluster. -/
def budgetOk (s : State) (c w : Nat) (esl : Bool) : Bool :=
  let n := min (minEngines s c) (enginesOf s c)
  !bit 0 (pg s (curPar s) (R.engCfg c)) || lineSize n w esl == 64

/-- The region of a program overlaps none registered in the staged bank. -/
def regionFree (s : State) (c start len : Nat) : Bool :=
  (programsOf s c (1 - curPar s)).all fun p =>
    let a := p.1 % 8192
    decide (start + len ≤ a) || decide (a + p.2.len ≤ start)

/-- The first failure of the loader's checks: status and the number of the bundle refused; else W and whether there is an ESL. -/
def loadCheck (s : State) (clusters : List Nat) (start : Nat) (bs : List (List Nat)) : Sum (Nat × Nat) (Nat × Bool) :=
  let n := bs.length
  let first (f : Nat → List Nat → Bool) : Option Nat := (List.range n).find? fun i => !f i (nth [] bs i)
  if 8192 < start + n then .inl (0x108, 0)
  else match first (fun _ => bundleOk), first (fun _ => noConflict), first (branchOk n) with
    | some i, _, _ => .inl (0x101, start + i)
    | none, some i, _ => .inl (0x102, start + i)
    | none, none, some i => .inl (0x103, start + i)
    | none, none, none =>
      match nth none (programPaths bs) 0 with
      | none => .inl (0x104, 0)
      | some (w, esl) =>
        if 2 ≤ esl then .inl (0x105, 0)
        else if 2048 < w then .inl (0x106, 0)
        else if clusters.any fun c => !budgetOk s c w (esl == 1) then .inl (0x107, 0)
        else if clusters.any fun c => !regionFree s c start n then .inl (0x108, 0)
        else if clusters.any fun c => decide (256 ≤ (programsOf s c (1 - curPar s)).length) then .inl (0x109, 0)
        else .inr (w, esl == 1)

/-! ## Commands of the ENG target (R388, R389) -/

/-- The clusters a CLUSTER_MASK word names; their register regions. -/
def maskClusters (w : Nat) : List Nat := (List.range 8).filter fun c => bit (16 + c) w
def clusterRegions (w : Nat) : List Nat := (maskClusters w).map fun c => 0x14 + c / 4

/-- The gate of R140, and a cluster out of service (R99), before a change of the staged banks. -/
def engGate (w : Nat) (f : State → CmdOut) (s : State) : CmdOut :=
  if !bit 0 (rg s R.prtEnable) then refuse 5 s
  else if (maskClusters w).any fun c => unitSt s 9 (80 + c) ≠ 0 then refuse 6 s
  else f s

/-- The bundles of a buffer. -/
def bundlesOf : Nat → List Byte → List (List Nat)
  | 0, _ => []
  | n + 1, bs => wordsLE 4 bs :: bundlesOf n (bs.drop 16)

/-- Writing words at rising keys of a sparse table. -/
def putRun {α : Type} (k : Nat) : List α → List (Nat × α) → List (Nat × α)
  | [], t => t
  | a :: as, t => putRun (k + 1) as (kvPut k a t)

/-- ENG LOAD. -/
def engLoad : CmdSpec where
  target := 9
  opcode := 1
  form := .readsBuf
  changes := true
  modes := inAny
  regions := fun c => clusterRegions (bodyWord c 0x14)
  body := fun a s =>
    let w := bodyWord a.cmd 0x14
    let start := fld 12 0 w
    let n := fld 13 0 (bodyWord a.cmd 0x18)
    let cs := maskClusters w
    engGate w (fun s =>
      if n = 0 ∨ 8192 < n ∨ dataBytes a.cmd ≠ 16 * n then refuse 4 s
      else
        let bs := bundlesOf n a.buf
        match loadCheck s cs start bs with
        | .inl (st, i) => ⟨s, some st, List.replicate 8 0 ++ toLE 4 i, []⟩
        | .inr (wmax, esl) =>
          let p := 1 - curPar s
          let sizes (f : Nat → Nat) : Nat := cs.foldl (fun m c => max m (lineSize (f c) wmax esl)) 0
          okWith (toLE 4 wmax ++ toLE 4 (sizes (fun _ => 8) + sizes (minEngines s) * 2 ^ 16))
            { s with eng := { s.eng with
                bundles := cs.foldl (fun t c => putRun (bundleKey c p start) bs t) s.eng.bundles,
                programs := cs.foldl (fun t c => kvPut (bundleKey c p start) { len := n, w := wmax, esl := esl } t) s.eng.programs } }) s

/-- ENG UNLOAD. -/
def engUnload : CmdSpec where
  target := 9
  opcode := 2
  form := .short
  changes := true
  modes := inAny
  regions := fun c => clusterRegions (bodyWord c 0x08)
  body := fun a s =>
    let w := bodyWord a.cmd 0x08
    let p := 1 - curPar s
    let cs := maskClusters w
    engGate w (fun s =>
      if cs.any fun c => (programAt s c p (fld 12 0 w)).isNone then refuse 0x10A s
      else ok { s with eng := { s.eng with
        programs := cs.foldl (fun t c => kvDel (bundleKey c p (fld 12 0 w)) t) s.eng.programs } }) s

/-- ENG READ. -/
def engRead : CmdSpec where
  target := 9
  opcode := 3
  form := .writesBuf
  changes := false
  modes := inAny
  regions := fun _ => []
  body := fun a s =>
    let w := bodyWord a.cmd 0x14
    let v := bodyWord a.cmd 0x18
    let start := fld 12 0 w
    let n := fld 13 0 v
    match maskClusters w with
    | [c] =>
      if n = 0 ∨ 8192 < start + n ∨ dataBytes a.cmd ≠ 16 * n then refuse 4 s
      else okData ((List.range n).flatMap fun i => bytesOfWords (bundleAt s c (fld 16 16 v) (start + i))) s
    | _ => refuse 4 s

/-- A run of a table bank lies in its 64 KiB. -/
def bankRun (off n : Nat) : Bool := off % 8 == 0 && decide (off + n ≤ 65536)

/-- ENG TBL_WRITE. -/
def engTblWrite : CmdSpec where
  target := 9
  opcode := 4
  form := .readsBuf
  changes := true
  modes := inAny
  regions := fun c => clusterRegions (bodyWord c 0x14)
  body := fun a s =>
    let w := bodyWord a.cmd 0x14
    let off := fld 15 0 w
    let n := dataBytes a.cmd
    let p := 1 - curPar s
    engGate w (fun s =>
      if !bankRun off n then refuse 4 s
      else ok { s with eng := { s.eng with
        banks := (maskClusters w).foldl (fun t c => putRun (bankKey c p (off / 4)) (wordsLE (n / 4) a.buf) t) s.eng.banks } }) s

/-- ENG TBL_READ. -/
def engTblRead : CmdSpec where
  target := 9
  opcode := 5
  form := .writesBuf
  changes := false
  modes := inAny
  regions := fun _ => []
  body := fun a s =>
    let w := bodyWord a.cmd 0x14
    let off := fld 15 0 w
    let n := dataBytes a.cmd
    match maskClusters w with
    | [c] =>
      if !bankRun off n then refuse 4 s
      else okData (bytesOfWords ((List.range (n / 4)).map fun i =>
        kvGetD 0 (bankKey c (fld 16 16 (bodyWord a.cmd 0x18)) (off / 4 + i)) s.eng.banks)) s
    | _ => refuse 4 s

/-- A run of the engine store. -/
def storeRun (s : State) (off n : Nat) : Bool := off % 32 == 0 && decide (off + n ≤ storeSize s)

/-- A run touches a block whose logical channel is lost (R510). -/
def storeLost (s : State) (off n : Nat) : Bool :=
  let away := (List.range 120).filter (channelAway s)
  !away.isEmpty && (List.range (ceilDiv n 32)).any fun i => away.contains (esLogical (off + 32 * i))

/-- The bursts of a run of blocks of the engine store, each on its own pseudo-channel (R422). -/
def storeBursts (write : Bool) (off n : Nat) (s : State) : State :=
  forAll (fun i s =>
    let pc := physicalOf s (esLogical (off + 32 * i))
    if write then hbmBurst pc 4 true 1 s else hbmReadBack pc 4 1 s) (List.range (ceilDiv n 32)) s

/-- ENG ES_WRITE. -/
def engEsWrite : CmdSpec where
  target := 9
  opcode := 6
  form := .readsBuf
  changes := false
  modes := inAny
  regions := fun _ => [0x14, 0x15]
  body := fun a s =>
    let off := ofLE (bodyAt a.cmd 0x14 8)
    let n := dataBytes a.cmd
    if !storeRun s off n then refuse 4 s
    else if storeLost s off n then refuse 6 s
    else ok (storeBursts true off n { s with eng := { s.eng with store := putRun (off / 4) (wordsLE (n / 4) a.buf) s.eng.store } })

/-- ENG ES_READ. -/
def engEsRead : CmdSpec where
  target := 9
  opcode := 7
  form := .writesBuf
  changes := false
  modes := inAny
  regions := fun _ => []
  body := fun a s =>
    let off := ofLE (bodyAt a.cmd 0x14 8)
    let n := dataBytes a.cmd
    if !storeRun s off n then refuse 4 s
    else if storeLost s off n then refuse 6 s
    else
      let r := readStore (n / 4) (off / 4) s
      okData (bytesOfWords r.1) (storeBursts false off n r.2)

/-- LOAD (R377). -/
def execLoad (c : Cmd) (s : State) : Host.Outcome State Fault Refusal := .next (runCmd engLoad c s)
/-- UNLOAD (R388). -/
def execUnload (c : Cmd) (s : State) : Host.Outcome State Fault Refusal := .next (runCmd engUnload c s)
/-- ENG_READ (R388). -/
def execEngRead (c : Cmd) (s : State) : Host.Outcome State Fault Refusal := .next (runCmd engRead c s)
/-- TBL_WRITE (R388). -/
def execTblWrite (c : Cmd) (s : State) : Host.Outcome State Fault Refusal := .next (runCmd engTblWrite c s)
/-- TBL_READ (R388). -/
def execTblRead (c : Cmd) (s : State) : Host.Outcome State Fault Refusal := .next (runCmd engTblRead c s)
/-- ES_WRITE (R388). -/
def execEsWrite (c : Cmd) (s : State) : Host.Outcome State Fault Refusal := .next (runCmd engEsWrite c s)
/-- ES_READ (R388). -/
def execEsRead (c : Cmd) (s : State) : Host.Outcome State Fault Refusal := .next (runCmd engEsRead c s)

end Sys2Proof.Machine
end

