-- ==== Sys2Proof/Machine/SchedOps.lean ====
section
/-! DEFINITION. Shapers, eligibility, deficit round robin, the start of a copy, enqueue and spill (13_scheduling, R416 to
R419). -/

namespace Sys2Proof.Machine

open Sys2Proof

/-! ## Shapers (R440, R441) -/

/-- The parts of a byte in which levels are kept: a rate in kb/s adds a whole number of them in each unit of time. -/
def byteUnit : Int := ((8000000 * Config.nsUnit : Nat) : Int)

/-- A level at `t`: it stays at BURST while the shaper is off. -/
def levelAt (on : Bool) (level : Int) (since rate burst t : Nat) : Int :=
  if on then min ((burst : Int) * byteUnit) (level + ((rate * (t - since) : Nat) : Int)) else (burst : Int) * byteUnit

/-- The queue's and the port's levels now. -/
def queueLevel (s : State) (p q : Nat) : Int :=
  levelAt (bit 4 (cu s (R.schQCfg p q))) (queue s p q).level (queue s p q).levelAt (cuF s (R.schQRate p q) 26 0)
    (cuF s (R.schQBurst p q) 23 0) s.now
def portLevel (s : State) (p : Nat) : Int :=
  levelAt (bit 0 (cu s (R.schPortCfg p))) (sched s p).level (sched s p).levelAt (cuF s (R.schPortRate p) 26 0)
    (cuF s (R.schPortBurst p) 23 0) s.now

/-- Both shapers permit a start. -/
def shapersPermit (s : State) (p q : Nat) : Bool := decide (0 ≤ queueLevel s p q) && decide (0 ≤ portLevel s p)

/-- A started copy is charged to both shapers; one that is off is not charged. -/
def chargeShapers (p q c : Nat) (s : State) : State :=
  let lq := queueLevel s p q
  let lp := portLevel s p
  let s1 := if bit 4 (cu s (R.schQCfg p q)) then
    setQueue p q { queue s p q with level := lq - (c : Int) * byteUnit, levelAt := s.now } s else s
  if bit 0 (cu s (R.schPortCfg p)) then setSched p { sched s1 p with level := lp - (c : Int) * byteUnit, levelAt := s.now } s1
  else s1

/-! ## Holds and guards -/

/-- The wire time of a counted length on a port (R435). -/
def wireTime (s : State) (p c : Nat) : Nat := bitTime s p (8 * c)

/-- A received pause holds the queue (R210). -/
def pausedIn (s : State) (p q : Nat) : Bool :=
  [q, 8].any fun k => match kvGet k (port s p).pausedTill with
    | some t => decide (s.now < t)
    | none => false

/-- The credit a Tsuip class has, and what a copy needs (R180). -/
def tsCredit (s : State) (p c : Nat) : Nat := (nth 0 (tsOf s p).limit c + 65536 - nth 0 (tsOf s p).consumed c) % 65536
def tsUnits (s : State) (c : Copy) : Nat := ceilDiv (copyLen s c) 256

/-- The queue is held by a received pause, by missing credit, or by an internal XOFF of P258 (R437). -/
def queueHeld (s : State) (p q : Nat) (c : Copy) : Bool :=
  if p = 258 then pairInXoff s 258 q
  else if 256 ≤ p then false
  else pausedIn s p q || (portTsuip s p && decide (tsCredit s p q < tsUnits s c))

/-- The parity a copy is judged by. -/
def copyPar (s : State) (c : Copy) : Nat := if c.device.isSome then curPar s else (frame s c.frame).par

/-- A time-base fault stops the queue: during it, and until its generator's next edge after it (R242, R243, R457). On a port
without a list in operation it stops every copy with a release time, one that is late already among them. -/
def faultStops (s : State) (p : Nat) (c : Copy) : Bool :=
  let par := copyPar s c
  if listOn s par p then timFault s || !released s (listGen s par p)
  else c.release.isSome && (timFault s || !released s (cuF s R.timCfg 20 16))

/-- A port can start frames (R436, R220, R187). -/
def portSends (s : State) (p : Nat) : Bool :=
  decide (256 ≤ p) || ((port s p).up && (!portTsuip s p || (tsOf s p).st == 4))

/-- A copy that has not been sent and has a release time of its own: it is never chosen by the scheduler (R450). -/
def timed (c : Copy) : Bool := c.release.isSome && !c.late

/-- The pending release of a port (R453): the earliest release time among the heads of its queues. A head that a time-base
fault stops has no release to protect: the other queues go on (R31, R242, R243). -/
def pendingRelease (s : State) (p : Nat) : Option (Nat × Nat) :=
  (List.range 8).foldl (fun best q =>
    match (queue s p q).copies with
    | c :: _ =>
      if timed c && !faultStops s p c then
        match c.release, best with
        | some r, some (b, k) => if r ≤ b then some (r, q) else some (b, k)
        | some r, none => some (r, q)
        | none, _ => best
      else best
    | [] => best) none

/-- The copy may start now under the release guard (R453); `c` bytes counted. -/
def guardOk (s : State) (p q c : Nat) : Bool :=
  match pendingRelease s p with
  | none => true
  | some (r, k) => k == q || decide (s.now + wireTime s p (c + 84) ≤ r)

/-- The smallest first fragment of a port, counted with its overhead (R446). -/
def fragmentLen (s : State) (p : Nat) : Nat :=
  ((64 * (1 + cuF s (R.macPreemptCfg p) 5 4) : Nat) + sgn 8 (cuF s (R.queCfg p) 7 0) : Int).toNat

/-- Queue q of a port is preemptible while preemption is active (R217). -/
def preemptible (s : State) (p q : Nat) : Bool :=
  decide (p < 256) && preemptActive s p && !bit (16 + q) (cu s (R.macPreemptCfg p))

/-- The smallest fragment of a port, its mCRC included (R218). -/
def leastFragment (s : State) (p : Nat) : Nat := 64 * (1 + cuF s (R.macPreemptCfg p) 5 4)

/-- `n` bytes of a frame can be divided under R218: a smallest fragment, its mCRC in it, and as many bytes that remain. -/
def divides (s : State) (p n : Nat) : Bool := decide (2 * leastFragment s p ≤ n + 4)

/-- A copy can be preempted under R218. -/
def canFragment (s : State) (p : Nat) (c : Copy) : Bool := divides s p (copyLen s c)

/-- `n` counted bytes of a copy may start now: the gate and the release guard leave room for all of them, or, where `frag` says that
they can be divided, for a smallest fragment (R445, R446, R453). `own` is the queue whose pending release does not count; 8 for none. -/
def partFits (s : State) (p q : Nat) (c : Copy) (own n : Nat) (frag : Bool) : Bool :=
  let f := fragmentLen s p
  (gateFits s (copyPar s c) p q s.now (wireTime s p n) || (frag && gateFits s (copyPar s c) p q s.now (wireTime s p f))) &&
    (guardOk s p own n || (frag && guardOk s p own f))

/-- The gate and the release guard let the copy start now, whole or by its first fragment (R445, R446, R453). A port's gate list holds
direct-form copies in STAGE too: R90 subjects them to it, though R51 says that gate lists do not act in STAGE (assumption 144). -/
def windowOk (s : State) (p q : Nat) (c : Copy) : Bool :=
  decide (256 ≤ p) || partFits s p q c q (counted s c) (preemptible s p q && canFragment s p c)

/-- The moment by which a fragment that starts now must have ended, with its mCRC and overhead: the closing of its gate, by the lists and
settings now in force, or the room of one pause frame before a pending release of another queue (R445, R446, R453). -/
def closingFor (s : State) (p : Nat) (c : Copy) : Option Nat :=
  let gate := openUntil s (copyPar s c) p c.queue (lookAhead s (copyPar s c) p) s.now
  let release := match pendingRelease s p with
    | some (r, k) => if k = c.queue then none else some (ballTime s p r - wireTime s p 84)
    | none => none
  match gate, release with
  | some a, some b => some (min a b)
  | some a, none => some a
  | none, b => b

/-- The whole chain of a copy's frame is in the basin (R418). -/
def inBasin (s : State) (c : Copy) : Bool := c.device.isSome || !(frame s c.frame).spilled

/-- A preempted frame waits for its last fragment: no other preemptible copy starts (R446). -/
def preemptBusy (s : State) (p q : Nat) : Bool := decide (p < 256) && (port s p).preempted.isSome && preemptible s p q

/-- What holds of a head copy that may start now, but for shapers and release (R437). -/
def startable (s : State) (p q : Nat) (c : Copy) : Bool :=
  inBasin s c && !queueHeld s p q c && !faultStops s p c && windowOk s p q c && !preemptBusy s p q

/-- The head of a queue. -/
def head (s : State) (p q : Nat) : Option Copy := (queue s p q).copies.head?

/-- A queue is eligible (R437). -/
def eligible (s : State) (p q : Nat) : Bool :=
  match head s p q with
  | none => false
  | some c => !timed c && startable s p q c && shapersPermit s p q

/-! ## Deficit round robin (R438, R439) -/

/-- The next queue of a group after `q`, in queue order, wrapping. -/
def nextInGroup (inG : Nat → Bool) (q : Nat) : Nat :=
  ((List.range 8).map fun k => (q + k + 1) % 8).find? inG |>.getD q

/-- The choice within a group: the pointer and deficits turn until a copy fits its deficit. Each turn adds at least 64
bytes, so `fuel` is never used up by counted lengths of this device. -/
def drr (inG elig : Nat → Bool) (cost quantum : Nat → Nat) : Nat → Nat → List Nat → Option (Nat × List Nat)
  | 0, _, _ => none
  | fuel + 1, ptr, d =>
    if elig ptr && inG ptr && decide (cost ptr ≤ nth 0 d ptr) then some (ptr, d.set ptr (nth 0 d ptr - cost ptr))
    else
      let n := nextInGroup inG ptr
      drr inG elig cost quantum fuel n (if elig n then d.set n (nth 0 d n + quantum n) else d)

/-- The scheduler's choice at a port: the queue, and the port's deficits and pointers after it. -/
def choose (s : State) (p : Nat) (extra : Nat → Bool) : Option (Nat × List Nat × List Nat) :=
  let el := (List.range 8).map fun q => eligible s p q && extra q
  let elig (q : Nat) : Bool := nth false el q
  let cost (q : Nat) : Nat := match head s p q with
    | some c => counted s c
    | none => 0
  let groups := (List.range 8).map fun q => cuF s (R.schQCfg p q) 2 0
  let ds := (List.range 8).map fun q => (queue s p q).deficit
  ((List.range 8).reverse.find? fun g => (List.range 8).any fun q => elig q && nth 0 groups q == g).bind fun g =>
    (drr (fun q => nth 8 groups q == g) elig cost (fun q => cuF s (R.schQQuantum p q) 20 0) 4096
      (nth 0 (sched s p).ptr g) ds).map fun r => (r.1, r.2, (sched s p).ptr.set g r.1)

/-- The scheduler's choice at an internal port, where `extra` allows its queue. -/
def chosen (s : State) (p : Nat) (extra : Nat → Bool) : Option (Copy × List Nat × List Nat) :=
  (choose s p extra).bind fun r => (head s p r.1).map fun c => (c, r.2)

/-- A queue's deficit after the scheduler's choice. -/
def storeDeficit (p : Nat) (ds : List Nat) (q : Nat) (s : State) : State :=
  if (queue s p q).deficit = nth 0 ds q then s else setQueue p q { queue s p q with deficit := nth 0 ds q } s

/-- The choice's deficits and pointers are stored. -/
def storeChoice (p : Nat) (ds ptr : List Nat) (s : State) : State :=
  forAll (storeDeficit p ds) (List.range 8) (setSched p { sched s p with ptr := ptr } s)

/-! ## Starting a copy at P000 to P255 -/

/-- The window in which a read is broadcast: 64 buffer-core cycles (R18). -/
def readWindow : Nat := 40960 * Config.nsUnit / 1000

/-- A time among times in rising order. -/
def insertTime (t : Nat) : List Nat → List Nat
  | [] => [t]
  | x :: xs => if t < x then t :: x :: xs else x :: insertTime t xs

/-- What the requests for one word, in order of time, come to (R18, R19): read events, deliveries to a second or later port, events
that served two or more. `cur` is the start of the event under way and whether it has been shared. -/
def readEvents : Option (Nat × Bool) → List Nat → Nat × Nat × Nat
  | _, [] => (0, 0, 0)
  | none, t :: ts =>
    let r := readEvents (some (t, false)) ts
    (r.1 + 1, r.2.1, r.2.2)
  | some (b, shared), t :: ts =>
    if t ≤ b + readWindow then
      let r := readEvents (some (b, true)) ts
      (r.1, r.2.1 + 1, r.2.2 + b2n (!shared))
    else
      let r := readEvents (some (t, false)) ts
      (r.1 + 1, r.2.1, r.2.2)

/-- The events of word k under reads that begin at some times and go on at the rate of their ports. -/
def wordEvents (reads : List (Nat × Nat)) (k : Nat) : Nat × Nat × Nat :=
  readEvents none (reads.foldl (fun l r => insertTime (r.1 + k * r.2) l) [])

/-- A copy's reads of its frame's words, one word after another at the rate of its port; each word is shared with the ports that are
ready for it within the window (R18, R19). The spec gives no size for the egress editor: that it has room for the next word at the pace
of its port's line, from the copy's start on, is the model's (DESIGN CHOICE, assumption 173). -/
def shareRead (c : Copy) (s : State) : State :=
  if c.device.isSome then s
  else
    let x := frame s c.frame
    let new := x.reads ++ [(s.now, bitTime s c.port 512)]
    let diff := (List.range (1 + ceilDiv x.bytes.length 64)).map fun k =>
      let a := wordEvents x.reads k
      let b := wordEvents new k
      (b.1 - a.1, b.2.1 - a.2.1, b.2.2 - a.2.2)
    pmuEv 28 8 none none (diff.map (·.2.2)).sum (pmuPort1 c.port 6 (diff.map (·.2.1)).sum
      (basinWords (diff.map (·.1)).sum (modFrame c.frame (fun y => { y with reads := new }) s)))

/-- What a port begins to send of a copy now. -/
def firstPart (c : Copy) (s : State) (bs : List Byte) (t : Nat) : Sending :=
  { frame := c.frame, queue := c.queue, start := s.now, bytes := bs, stamp := t, closing := closingFor s c.port c }

/-- A copy starts on its port now: its stamp, its bytes, credit and shapers (R180, R247, R440). A copy being spilled is read
from the basin, and its spill is given up. A Pdelay_Resp of the device is not sent in a time-base fault (R242). -/
def startCopy (c : Copy) (s : State) : State :=
  if c.device.isSome && timFault s then ptpSkip c.port (removeCopy c s) else
  let p := c.port
  let q := c.queue
  let t := txStampAt s p s.now
  let out := copyOut s c t
  let n := counted s c
  let units := tsUnits s c
  let s1 := stampCopy c p t out.2.2 (whenDo out.2.1 (ptpSkip p) (shareRead c s))
  let s2 := chargeShapers p q n (removeCopy c s1)
  let s3 := { s2 with buf := { s2.buf with spilling := s2.buf.spilling.filter fun r => r.1 != c.frame } }
  let s4 := whenDo (portTsuip s p) (modTs p fun x =>
    { x with consumed := x.consumed.set q ((nth 0 x.consumed q + units) % 65536) }) s3
  setSched p { sched s4 p with sending := some c }
    (modPort p (fun x => { x with sending := some (firstPart c s out.1 t) }) s4)

/-! ## Enqueue (R434, R449) -/

/-- A removal by the never-fits check: its first in each queue and generation sends a FAULT event (R449). -/
def neverFits (c : Copy) (s : State) : State :=
  let x := frame s c.frame
  let qu := queue s c.port c.queue
  let first := !qu.nfGens.contains x.gen
  let s1 := if first then setQueue c.port c.queue { qu with nfGens := (x.gen :: qu.nfGens).take 2 } s else s
  whenDo first (alarm 0x0400 (72 + portSlice c.port)
    (c.port + c.queue * 2 ^ 9 + x.bytes.length * 2 ^ 16 + x.gen % 2 ^ 32 * 2 ^ 32)) s1

/-- The copy is longer than every opening of its queue (R449). -/
def tooLong (s : State) (c : Copy) : Bool :=
  if 256 ≤ c.port then false
  else
    let n := if preemptible s c.port c.queue && canFragment s c.port c then fragmentLen s c.port else counted s c
    match longestOpening s (copyPar s c) c.port c.queue with
    | none => false
    | some d => decide (d < wireTime s c.port n)

/-- Copies for a port are discarded at enqueue: it was flushed and has not come up since, or ADMIN_UP is 0 (R222). -/
def portShut (s : State) (p : Nat) : Bool := (sched s p).shut || (decide (p < 256) && !bit 0 (cu s (R.macCfg p)))

/-- Why a copy is removed as it enters its queue, and the queue counter; none where it enters (R434). -/
def enqueueCheck (s : State) (c : Copy) : Option (Nat × Option Nat) :=
  if !portExists s c.port then some (0x13, none)
  else if portShut s c.port then some (0x12, some 7)
  else if c.port < 256 ∧ cuF s (R.macMaxFrame c.port) 13 0 < copyLen s c then some (0x13, some 8)
  else if tooLong s c then some (0x10, some 6)
  else none

/-- A frame is eligible for spill in this queue (R416). -/
def spillEligible (s : State) (c : Copy) : Bool :=
  let x := frame s c.frame
  let cfg := cu s (R.bpmQCfg (8 * c.port + c.queue))
  bit 23 (cu s R.bpmCfg) && decide (0 < resCells s) && x.holders.length == 1 && c.port != 257 && !x.fr && x.launch.isNone &&
    !bit 31 cfg && decide (0 < fld 18 0 cfg) && !listOn s x.par c.port

/-- Cells of a queue that lie in the basin. -/
def basinCellsOf (s : State) (p q : Nat) : Nat :=
  ((queue s p q).copies.map fun c => if (frame s c.frame).spilled then 0 else (frame s c.frame).chain.length).sum

/-- A frame entered in a deep queue starts its way to the reservoir (R417); `deep` is the queue's basin cells before it. -/
def trySpill (c : Copy) (deep : Nat) (s : State) : State :=
  let x := frame s c.frame
  let n := x.chain.length
  if c.device.isNone && spillEligible s c && decide (cuF s (R.bpmQCfg (8 * c.port + c.queue)) 18 0 ≤ deep) then
    match carried s x.par 3 0 (fld 23 16 x.hash) with
    | none => incRg R.bpmSpillSkip s
    | some ch =>
      if channelAway s ch || decide (freeChannel s ch < n) then incRg R.bpmSpillSkip s
      else
        let g := grant (some ch) n [] s
        { g.2 with buf := { g.2.buf with spilling := g.2.buf.spilling ++ [(c.frame, ch, g.1)] } }
  else s

/-- A copy enters its queue, or is removed on entering it. -/
def enqueue (c : Copy) (s : State) : State :=
  if c.device.isSome && portShut s c.port then s
  else match if c.device.isSome then none else enqueueCheck s c with
  | some (reason, k) =>
    let s1 := whenDo (k == some 8) (countMac c.port 34 1) (whenDo (reason == 0x10) (neverFits c) s)
    let s2 := match k with
      | some n => schCount c.port c.queue n 1 s1
      | none => s1
    finishCopy c (.gone reason) s2
  | none =>
    let deep := basinCellsOf s c.port c.queue
    let x := queue s c.port c.queue
    let s1 := setQueue c.port c.queue { x with copies := x.copies ++ [c] } s
    let s2 := modFrame c.frame (fun y => { y with lastQueue := 8 * c.port + c.queue, touched := true }) s1
    trySpill c deep s2

end Sys2Proof.Machine
end

