-- ==== Sys2Proof/Machine/Sched.lean ====
section
/-! DEFINITION. Enqueue, the free transmitter, the end of a copy and clock-driven release (13_scheduling). -/

namespace Sys2Proof.Machine

open Sys2Proof

/-! ## Enqueue and transmission -/

/-- COPY_ENQUEUE: the oldest planned copy for a port enters its queue (R434). -/
def execCopyEnqueue (p : Nat) (s : State) : Host.Outcome State Fault Refusal :=
  .next (match s.buf.plan.find? fun c => c.port == p with
    | none => s
    | some c => enqueue c { s with buf := { s.buf with plan := s.buf.plan.erase c } })

/-- When the last bit of what a port is sending leaves. -/
def sendEnds (s : State) (p : Nat) (x : Sending) : Nat :=
  x.start + octetTime s p (frameOctets s p (x.bytes.length - x.fragments))

/-- Bytes of the frame sent at `t`, over all its fragments. -/
def sentBy (s : State) (p : Nat) (x : Sending) (t : Nat) : Nat :=
  min x.bytes.length (x.fragments + bytesOut s p x.start x.bytes.length t)

/-- The octets that end a fragment before the next frame can start: mCRC and gap (R218). -/
def fragmentTail (s : State) (p : Nat) : Nat := 4 + gapOctets s p

/-- The frame being sent may be preempted at `t` (R218). -/
def canPreemptAt (s : State) (p t : Nat) : Bool :=
  match (port s p).sending, (sched s p).sending with
  | some x, some c =>
    preemptible s p c.queue && (port s p).preempted.isNone &&
      decide (leastFragment s p ≤ sentBy s p x t - x.fragments + 4) &&
      decide (leastFragment s p ≤ x.bytes.length - sentBy s p x t)
  | _, _ => false

/-- The frame being sent is preempted with `n` of its bytes sent in all: its fragment ends (R218, R225), and the medium is free at
`free`. -/
def preemptWith (p n free : Nat) (s : State) : State :=
  match (port s p).sending, (sched s p).sending with
  | some x, some c =>
    let s1 := whenDo (x.fragments == 0) (countMac p 35 1) (countMac p 36 1 s)
    setSched p { sched s1 p with sending := none, parked := some c }
      (modPort p (fun y => { y with sending := none, busyTill := free, preempted := some { x with fragments := n } }) s1)
  | _, _ => s

/-- Preempting so that the fragment's last data byte leaves at `t`. -/
def preempt (p t : Nat) (s : State) : State :=
  match (port s p).sending with
  | some x => preemptWith p (sentBy s p x t) (t + octetTime s p (fragmentTail s p)) s
  | none => s

/-- The preempted frame goes on with its next fragment, where its gate and the release guard let it, whole or, where it can still be
divided, by a smallest fragment (R446), and no time-base fault stops its queue (R457); a received pause does not hold it, for it has
started (R210). -/
def resume (p : Nat) (s : State) : State :=
  match (port s p).preempted, (sched s p).parked with
  | some x, some c =>
    if !faultStops s p c && partFits s p c.queue c 8 (counted s c - x.fragments)
        (preemptible s p c.queue && divides s p (copyLen s c - x.fragments)) then
      setSched p { sched s p with sending := some c, parked := none }
        (modPort p (fun y => { y with sending := some { x with start := s.now, closing := closingFor s p c }, preempted := none }) s)
    else s
  | _, _ => s

/-- A late or deferred copy whose time has come, at the head of a queue that lets it go: the earliest release time first, and of two
at one time that of the higher queue (R455). -/
def overdue (s : State) (p : Nat) : Option Copy :=
  ((List.range 8).reverse.filterMap fun q => (head s p q).filter fun c =>
    (c.late || (c.deferred && decide (c.release.getD 0 ≤ s.now))) && startable s p q c).foldl (fun best c =>
      match best with
      | some b => if c.release.getD 0 < b.release.getD 0 then some c else best
      | none => some c) none

/-- A pause or PFC frame is due (R211). -/
def pauseWaits (s : State) (p : Nat) : Bool := (port s p).dueXoff != 0 || (port s p).dueXon != 0

/-- What a free transmitter starts (R436): an overdue time-released copy, a due pause frame, the scheduler's choice, or the rest of a
preempted frame. -/
def startNext (p : Nat) (s : State) : State :=
  match overdue s p with
  | some c => startCopy c s
  | none =>
    if pauseWaits s p then sendPause p s
    else match choose s p (fun _ => true) with
      | some (q, ds, ptr) =>
        match head s p q with
        | some c => startCopy c (storeChoice p ds ptr s)
        | none => s
      | none => resume p s

/-- A pause frame starts on a free transmitter, unless a time-released copy is due before it (R436). -/
def startPause (p : Nat) (s : State) : State := whenDo ((overdue s p).isNone || !portSends s p) (sendPause p) s

/-- An express queue of a port is eligible while a preemptible frame is being sent (R218). -/
def expressWaits (s : State) (p : Nat) : Bool :=
  (List.range 8).any fun q => !preemptible s p q && eligible s p q

/-- An error met in reading the frame that the port has just begun to send (R404): a frame of the device lies in no cell. -/
def readError (ecc p : Nat) (s : State) : State :=
  match (sched s p).sending with
  | some c => whenDo c.device.isNone (cellError ecc c.frame) s
  | none => s

/-- The same, where what a port sends has begun since `s0`. -/
def readStarted (ecc p : Nat) (s0 s : State) : State :=
  whenDo (decide ((port s p).sending ≠ (port s0 p).sending)) (readError ecc p) s

/-- Something is due at a port whose transmitter is free, now or when its medium is: a pause frame, a copy, or a fragment. -/
def mediumFree (p : Nat) (s : State) : State := reach (port s p).busyTill s

/-- TRANSMITTER_FREE: a port that may send starts what is due once the gap has passed; one that sends a preemptible frame may preempt
it for an express copy (R207, R218, R436). `ecc` is what the buffer core finds in reading the copy. -/
def execTransmitterFree (p ecc : Nat) (s : State) : Host.Outcome State Fault Refusal :=
  .next (whenDo (decide (p < 256) && portSends s p && !fenceShut s)
    (fun s => readStarted ecc p s
      (if (port s p).sending.isNone then startNext p (mediumFree p s)
      else if canPreemptAt s p s.now && expressWaits s p then startNext p (mediumFree p (preempt p s.now s))
      else s)) s)

/-- PAUSE_FRAME_TRANSMIT: at the next frame boundary of a port that is up; with preemption active it may preempt a preemptible
frame (R207, R211). -/
def execPauseFrameTransmit (p : Nat) (s : State) : Host.Outcome State Fault Refusal :=
  .next (whenDo ((port s p).up && pauseWaits s p)
    (fun s =>
      if (port s p).sending.isNone then startPause p (mediumFree p s)
      else if canPreemptAt s p s.now then startPause p (mediumFree p (preempt p s.now s))
      else s) s)

/-- A copy that has been sent whole: MAC statistics, its queue's counters, its end (R225, R459). -/
def sentWhole (p : Nat) (x : Sending) (c : Copy) (s : State) : State :=
  let bad := (frame s c.frame).damaged && c.device.isNone
  let out := if bad then x.bytes.take (x.bytes.length - 4) ++ badFcs (x.bytes.take (x.bytes.length - 4)) else x.bytes
  let s1 := if bad then countMac p 33 1 (countMac p 26 x.bytes.length s) else countSent p x.bytes s
  let s2 := whenDo (x.fragments != 0) (countMac p 36 1) s1
  let s3 := setSched p { sched s2 p with sending := none }
    (mediumTaken p (gapOctets s p) (sentOn p c.queue out false (modPort p (fun y => { y with sending := none }) s2)))
  tsFrameEnds p (if c.device.isSome then pmuPort1 p 5 1 s3 else finishCopy c .sent (endSend p c x.stamp s3))

/-- The bytes of the frame that may have left when its fragment must end at `t`: the last point that still leaves a smallest fragment
to follow; none where even the smallest fragment does not end by then (R446). -/
def fragmentCut (s : State) (p : Nat) (x : Sending) (t : Nat) : Option Nat :=
  let extra := (4 + sgn 8 (cuF s (R.queCfg p) 7 0)).toNat
  let n := min (x.fragments + ((t - x.start) / max 1 (octetTime s p 1) - extra)) (x.bytes.length - leastFragment s p)
  if leastFragment s p ≤ n - x.fragments + 4 ∧ n < x.bytes.length then some n else none

/-- COPY_TRANSMIT_END: the last bit leaves; a preemptible frame that must end its fragment first does so (R446, R453). -/
def execCopyTransmitEnd (p : Nat) (s : State) : Host.Outcome State Fault Refusal :=
  .next (match (port s p).sending, (sched s p).sending with
    | some x, some c =>
      let stop := sendEnds s p x
      let cutAt := if preemptible s p c.queue then
          x.closing.bind fun t => if x.start < t ∧ t < stop then (fragmentCut s p x t).map fun n => (t, n) else none
        else none
      match cutAt with
      | some (t, n) =>
        let e := x.start + octetTime s p (leadOctets s p + (n - x.fragments))
        preemptWith p n (e + octetTime s p (fragmentTail s p)) (reach (min e t) s)
      | none => sentWhole p x c (reach stop s)
    | _, _ => s)

/-! ## Release by the clock (R451 to R455) -/

/-- Changing a copy where it waits. -/
def modCopy (c : Copy) (f : Copy → Copy) (s : State) : State :=
  let x := queue s c.port c.queue
  setQueue c.port c.queue { x with copies := x.copies.map fun y => if y = c then f y else y } s

/-- A port uses RS-FEC: 25GBASE-R where SER_CFG.FEC asks for it, and 100GBASE-R always (R165). -/
def usesFec (s : State) (p : Nat) : Bool := portMode s p == 11 || (portMode s p == 9 && bit 5 (cu s (R.serCfg (p / 4))))

/-- LEAD (R452): 300 ns, and 110 ns more on a port with RS-FEC. -/
def lead (s : State) (p : Nat) : Nat := nsT (300 + if usesFec s p then 110 else 0)

/-- RELEASE_HANDOVER: the time-released head of a queue goes to its quad, 2 µs before its release time at the earliest, and
no later than its lead (R451, R452). -/
def execReleaseHandover (p q : Nat) (s : State) : Host.Outcome State Fault Refusal :=
  .next (match head s p q with
    | none => s
    | some c =>
      match c.release with
      | none => s
      | some r =>
        let s1 := reach (r - usT 2) s
        whenDo (timed c && !c.handed && !c.missed && inBasin s c && decide (p < 256) && (decide (s1.now + lead s p ≤ r) || c.deferred))
          (modCopy c fun y => { y with handed := true }) s1)

/-- The time-released copies of a queue that have not been judged. -/
def timedCopies (s : State) (p q : Nat) : List Copy := (queue s p q).copies.filter timed

/-- The least of some times. -/
def leastTime : List Nat → Option Nat
  | [] => none
  | t :: ts => some (ts.foldl min t)

/-- RELEASE_LEAD_DEADLINE: r − LEAD passes; a copy that has not been handed over is not ready (R452). -/
def execReleaseLeadDeadline (p q : Nat) (s : State) : Host.Outcome State Fault Refusal :=
  let open1 := (timedCopies s p q).filter fun c => !c.handed && !c.missed && !c.deferred
  .next (match leastTime (open1.filterMap fun c => c.release.map (· - lead s p)) with
    | none => s
    | some t =>
      let s1 := reach t s
      forAll (fun c => modCopy c fun y => { y with missed := true })
        (open1.filter fun c => decide (c.release.getD 0 ≤ s1.now + lead s p)) s1)

/-- A copy is late (R455): discarded where its stream or its descriptor says so, else sent at the next boundary. -/
def makeLate (c : Copy) (discard : Bool) (s : State) : State :=
  let s1 := modFrame c.frame (fun x => { x with wasLate := true }) s
  if discard || (frame s c.frame).lateDrop then discardCopy c 0x11 s1 else modCopy c (fun y => { y with late := true }) s1

/-- A copy takes the first opening from `t` on in which it fits as its release time (R454). -/
def deferCopy (c : Copy) (t : Nat) (s : State) : State :=
  let par := copyPar s c
  let d := wireTime s c.port (counted s c)
  let r := (firstOpening s par c.port c.queue d (3 * (listLen s par c.port + 2)) t).getD (t + secT 2)
  modFrame c.frame (fun x => { x with wasDeferred := true }) (modCopy c (fun y => { y with deferred := true, release := some r }) s)

/-- A preemptible frame being sent gives way to an express copy that is to start now: its fragment has ended, with mCRC and gap,
by then (R218, R453). -/
def giveWay (p q : Nat) (s : State) : State :=
  let t := s.now - octetTime s p (fragmentTail s p)
  whenDo (!preemptible s p q && canPreemptAt s p t) (preempt p t) s

/-- A copy at its release time `r`, which it meets by crossing the lane ball TX_COMP before it (R38, R246, R451 to R455, R457). -/
def judgeRelease (c : Copy) (r : Nat) (s : State) : State :=
  let p := c.port
  let q := c.queue
  let par := copyPar s c
  let d := wireTime s p (counted s c)
  if !(port s p).up then makeLate c true s
  else if faultStops s p c then s
  else if !c.deferred && !gateFits s par p q r d then deferCopy c (max r s.now) s
  else
    let s1 := giveWay p q s
    let free := (port s1 p).sending.isNone && decide ((port s1 p).busyTill ≤ s1.now)
    let ready := decide (head s p q = some c) && inBasin s c && !queueHeld s p q c && portSends s p && !preemptBusy s p q
    if c.deferred then
      if !gateFits s par p q s.now d then deferCopy c s.now s
      else if ready && free then startCopy c s1
      else s
    else if ready && free && c.handed && !c.missed && decide (s.now ≤ ballTime s p r + nsT 2) then startCopy c s1
    else makeLate c false s

/-- When a timed copy is to cross the lane ball. -/
def launchAt (s : State) (c : Copy) : Nat := ballTime s c.port (c.release.getD 0)

/-- TIMED_RELEASE: master time reaches the moment at which copies of a port are to cross the lane ball for their release times; the
higher queue goes first (R246, R455). `ecc` is what the buffer core finds in reading the copy that starts. -/
def execTimedRelease (p ecc : Nat) (s : State) : Host.Outcome State Fault Refusal :=
  let all := (List.range 8).reverse.flatMap fun q => timedCopies s p q
  .next (match leastTime (all.map (launchAt s)) with
    | none => s
    | some t =>
      let s1 := reach t s
      readStarted ecc p s1
        (forAll (fun c => judgeRelease c (c.release.getD 0)) (all.filter fun c => decide (launchAt s1 c ≤ s1.now)) s1))

/-- GATE_ENTRY_CHANGE: master time reaches the end of the entry now in force in a port's oper list (R443). -/
def execGateEntryChange (p : Nat) (s : State) : Host.Outcome State Fault Refusal :=
  .next (match (gateState s (curPar s) p s.now).2.2 with
    | none => s
    | some t => reach t s)

end Sys2Proof.Machine
end

