-- ==== Sys2Proof/Machine/Buffer.lean ====
section
/-! DEFINITION. The buffer core: admission, checked frees, refill and spill, frame lifetime, the ditch rider, snapshots and
the commands of the BPM target (R399 to R402, R408, R415 to R419, R423 to R431). -/

namespace Sys2Proof.Machine

open Sys2Proof

/-! ## Admission (R408) -/

/-- An admitted frame goes to the engine that carries its bucket: with a program, or in bypass, where it keeps its place in the engine's
order (R14, R23, R358, R359). -/
def afterAdmission (f : Nat) (s : State) : State :=
  let x := frame s f
  let c := portSlice x.inPort
  let b := fld 15 8 x.hash
  let n := (carried s x.par 2 c b).getD 0
  let e := 8 * c + n
  setEngine e { engineAt s e with input := (engineAt s e).input ++ [f] }
    (setFrame f { x with paths := x.paths ++ [(2, c, b, n)] } s)

/-- The manager's decision on a frame in the order the buffer core takes arrivals. -/
def admitFrame (f : Nat) (x : Frame) (s : State) : State :=
  let i := 8 * x.inPort + x.prio
  let c := chargeOf s x.inPort x.bytes.length
  let units := ceilDiv x.bytes.length 256
  match admits s i c with
  | some head =>
    afterAdmission f (tsReturn x.inPort x.prio units
      (setFrame f { x with charge := c, headroom := head } (chargePair i c head s)))
  | none => tsReturn x.inPort x.prio units (discardFrame f (if pairLossless s i then 0xE else 0xD) s)

/-- ADMISSION: the buffer core takes the oldest arrival. -/
def execAdmission (s : State) : Host.Outcome State Fault Refusal :=
  .next (match s.buf.arrivals with
    | [] => s
    | f :: rest =>
      let s1 := { s with buf := { s.buf with arrivals := rest } }
      match kvGet f s.buf.frames with
      | none => s1
      | some x => admitFrame f x s1)

/-! ## Checked frees (R400 to R402) -/

/-- FREE_REQUEST: a unit presents a pointer, a holder and its code. -/
def execFreeRequest (ptr holder req : Nat) (s : State) : Host.Outcome State Fault Refusal :=
  .next (presentFree ptr holder req (match frameAt s ptr with
    | some (f, _) => noteGone f s
    | none => s))

/-! ## Spill and refill (R417 to R419) -/

/-- The 64-byte bursts of `n` cells with their sidebands. -/
def cellBursts (n : Nat) : Nat := 4 * n + ceilDiv n 4

/-- The basin words that `n` cells on their way to or from the reservoir are read from or written to: four of 64 bytes each (R16). -/
def basinMoved (n : Nat) (s : State) : State := basinWords (4 * n) s

/-- SPILL_WRITE_COMPLETE: the oldest spill on a reservoir channel is written: its chain is linked in the basin chain's place. `ecc` is
what was found in reading its basin cells (R404). -/
def execSpillWriteComplete (ch ecc : Nat) (s : State) : Host.Outcome State Fault Refusal :=
  .next (match s.buf.spilling.find? fun r => r.2.1 == ch with
    | none => s
    | some r =>
      let n := r.2.2.length
      let s1 := returnCells (frame s r.1).chain { s with buf := { s.buf with spilling := s.buf.spilling.erase r } }
      let s2 := modFrame r.1 (fun x => { x with spilled := true, channel := ch, chain := r.2.2, low := 0, touched := true }) s1
      cellError ecc r.1 (judgePressure (hbmBurst (physicalOf s ch) 2 true (cellBursts n)
        (basinMoved n (pmuEv 28 3 none none n (incRg64 R.bpmSpilled s2))))))

/-- The spilled frames of a queue that are to be read back: its head, and those within 64 cells after the head frame. -/
def refillCandidates (s : State) (p q : Nat) : List Nat :=
  match (queue s p q).copies with
  | [] => []
  | c :: cs =>
    let near := cs.foldl (fun (r : Nat × List Nat) d =>
      (r.1 + (frame s d.frame).chain.length, if r.1 < 64 ∧ (frame s d.frame).spilled then r.2 ++ [d.frame] else r.2)) (0, [])
    (if (frame s c.frame).spilled then [c.frame] else []) ++ near.2

/-- The cells taken for a frame being read back. -/
def refillCells (s : State) (f : Nat) : List Nat := ((s.buf.refilling.find? fun r => r.1 == f).map (·.2)).getD []

/-- A burst for one frame: as many of its next 16 cells as the basin gives; of those taken at or below the floor of R397 its queue
holds at most 64, and holds `held` already (R419). One that asks for more cells than are free is answered EMPTY (R397, R399). -/
def refillBurst (f held : Nat) (s : State) : State :=
  let x := frame s f
  let got := refillCells s f
  let want := min 16 (x.chain.length - got.length)
  let above := min want (freeBasin s - 2048)
  let may := min want (above + (64 - held))
  let n := min may (freeBasin s)
  let s0 := whenDo (decide (n < may)) countEmpty s
  if n = 0 then s0
  else
    let g := grant none n [] s0
    let rest := g.2.buf.refilling.filter fun r => r.1 != f
    judgePressure (hbmBurst (physicalOf s x.channel) 2 false (cellBursts n) <| basinMoved n <| pmuEv 28 1 none none n
      (modFrame f (fun y => { y with low := y.low + (n - above) }) { g.2 with buf := { g.2.buf with refilling := rest ++ [(f, got ++ g.1)] } }))

/-- REFILL_BURST: the next frame of a queue that still lacks cells is read back by one burst, with so many words corrected; `ecc` is an
error beyond correction (R404). -/
def execRefillBurst (p q corrected ecc : Nat) (s : State) : Host.Outcome State Fault Refusal :=
  let cands := refillCandidates s p q
  .next (match cands.find? fun f => decide ((refillCells s f).length < (frame s f).chain.length) with
    | none => s
    | some f =>
      let held := ((queue s p q).copies.map fun c => (frame s c.frame).low).sum
      (if ecc = 2 ∨ ecc = 3 then cellError ecc f else id)
        (addRg R.bpmEccCorr corrected (hbmCorrected (physicalOf s (frame s f).channel) corrected (refillBurst f held s))))

/-- REFILL_RETURN: the bursts of a queue's first frame that has all its cells are in list order: it is relinked in the basin and
its reservoir cells are free. -/
def execRefillReturn (p q : Nat) (s : State) : Host.Outcome State Fault Refusal :=
  .next (match (refillCandidates s p q).find? fun f => decide ((refillCells s f).length = (frame s f).chain.length) with
    | none => s
    | some f =>
      let cells := refillCells s f
      let s1 := modFrame f (fun x => { x with spilled := false, chain := cells, touched := true })
        { s with buf := { s.buf with refilling := s.buf.refilling.filter fun r => r.1 != f } }
      judgePressure (pmuEv 28 4 none none cells.length (incRg64 R.bpmRefilled s1)))

/-! ## Lifetime (R414, R415) -/

/-- Frames that have been admitted and are past their deadline. -/
def overdueFrames (s : State) : List Nat :=
  (s.buf.frames.filter fun c => pastDeadline c.2 s && !s.buf.arrivals.contains c.1).map (·.1)

/-- A frame whose work in an engine is done, and which waits there behind an older one, loses its copies; it keeps its place. -/
def expireInOrder (f : Nat) (s : State) : State := settle f 0xF (modFrame f (fun x => { x with copies := [], fwdLeft := 0 }) s)

/-- A frame past its deadline in an engine's input queue is gone; its copies that wait to leave an engine, on their way or in queues are
discarded. One that runs a program is judged at its EMIT. -/
def expireFrame (f : Nat) (s : State) : State :=
  match s.eng.engines.find? fun e => e.2.input.contains f with
  | some (e, x) => discardFrame f 0xF (setEngine e { x with input := x.input.filter (· != f) } s)
  | none =>
    let planned := s.buf.plan.filter fun c => c.frame == f && c.device.isNone
    let queued := s.eg.queues.flatMap fun c => c.2.copies.filter fun d => d.frame == f && d.device.isNone
    let s1 := forAll (fun c s => finishCopy c (.gone 0xF) { s with buf := { s.buf with plan := s.buf.plan.erase c } }) planned s
    let s2 := forAll (fun c => discardCopy c 0xF) queued s1
    whenDo (s.eng.engines.any fun e => e.2.order.any fun o => o.frame == f && o.done) (expireInOrder f) s2

/-- LIFETIME_TICK: master time reaches the next millisecond, and the deadline wheel moves one slot. -/
def execLifetimeTick (s : State) : Host.Outcome State Fault Refusal :=
  let s1 := reach ((s.now / msT 1 + 1) * msT 1) s
  .next (forAll expireFrame (overdueFrames s1) s1)

/-! ## The ditch rider (R424 to R427) -/

/-- REFS of a frame: the queues it is entered in, and the units that hold it. -/
def refsOf (s : State) (f : Nat) : Nat :=
  let copies (l : List Copy) : Nat := (l.filter fun c => c.frame == f && c.device.isNone).length
  (s.eg.queues.map fun c => copies c.2.copies).sum + copies s.buf.plan +
    (s.eg.ports.map fun c => copies (c.2.sending.toList ++ c.2.parked.toList)).sum +
    (s.buf.arrivals.filter (· == f)).length +
    (s.eng.engines.map fun e => (e.2.input.filter (· == f)).length + (e.2.order.filter fun o => o.frame == f).length).sum

/-- A frame is leaked: its event, its count, its place in the list of the last 32. -/
def leak (f : Nat) (x : Frame) (since : Nat) (s : State) : State :=
  let age := (s.elapsed - since) / usT 1
  let ptr := (x.chain.head?).getD 0
  let l : Leak := { frame := f, ptr := ptr, ageUs := age, lastQueue := x.lastQueue, cells := x.chain.length }
  let all := s.buf.leaks ++ [l]
  setFrame f { x with leaked := true }
    (emitBuffer 3 0x52 ptr 0 (satTo 0xFFFFFFFF age) x.lastQueue (stickRg R.bpmStatus 6 (incRg R.bpmLeaks
      { s with buf := { s.buf with leaks := all.drop (all.length - 32) } })))

/-- The leak test of a first cell (R426). -/
def riderVisit (f : Nat) (x : Frame) (s : State) : State :=
  if refsOf s f ≠ 0 then (if x.suspect.isNone then s else setFrame f { x with suspect := none } s)
  else match x.suspect with
    | none => setFrame f { x with suspect := some s.elapsed, touched := false } s
    | some t =>
      if x.touched then setFrame f { x with suspect := some s.elapsed, touched := false } s
      else if !x.leaked && decide (t + msT (cuF s R.bpmRiderCfg 15 0) ≤ s.elapsed) then leak f x t s
      else s

/-- RIDER_VISIT: the rider visits a cell's sideband; `broken` says that it finds a cell of a free chain in use, or a FREE cell
linked from a frame, which is fatal (R60, R425); `ecc` is what it found in reading the sideband, none of whose errors is one of data
(R404). -/
def execRiderVisit (ptr : Nat) (broken : Bool) (ecc : Nat) (s : State) : Host.Outcome State Fault Refusal :=
  .next (if !hostOpen s then s
    else if broken ∨ 2 ≤ ecc then cellError 3 0 s
    else
      let s1 := cellError ecc 0 s
      match frameAt s1 ptr with
      | none => s1
      | some (f, x) => riderVisit f x s1)

/-- The length of a pass in units of `u`, saturated. -/
def passLength (s : State) (from_ u : Nat) : Nat := satTo 65535 ((s.elapsed - from_) / u)

/-- RIDER_PASS_END: a pass of the basin or the reservoir ends; `counted` is the number of FREE cells it counted, adjusted for
what changed meanwhile (R425). -/
def execRiderPassEnd (reservoir : Bool) (counted : Nat) (s : State) : Host.Outcome State Fault Refusal :=
  .next (whenDo (hostOpen s)
    (fun s =>
      let free := if reservoir then freeRes s else freeBasin s
      let s1 := { s with buf :=
        if reservoir then { s.buf with lastResPass := passLength s s.buf.resPassFrom (msT 1), resPassFrom := s.elapsed }
        else { s.buf with lastPass := passLength s s.buf.passFrom (usT 100), passFrom := s.elapsed } }
      whenDo (counted != free)
        (fun s => alarm (0x0300 + b2n reservoir) 92 (counted + free * 2 ^ 32) (stickRg R.bpmStatus 5 s)) s1) s)

/-! ## Records (R391, R395) -/

/-- The holder set's 34 bytes. -/
def holderBytes (h : List Nat) : List Byte := toLE 34 ((h.map fun p => 2 ^ p).sum)

/-- The 64 bytes of a frame's record. -/
def recordOf (x : Frame) : List Byte :=
  toLE 4 (x.bytes.length % 2 ^ 14 + x.par * 2 ^ 14 + x.fate * 2 ^ 15 + x.prio * 2 ^ 20 + b2n x.lossless * 2 ^ 23 +
    b2n x.headroom * 2 ^ 24 + b2n x.spilled * 2 ^ 25 + b2n x.error * 2 ^ 26 + b2n x.fr * 2 ^ 27 + b2n x.launch.isSome * 2 ^ 28) ++
  toLE 4 x.hash ++ toLE 4 (tNs x.ts) ++ toLE 4 (tSec x.ts) ++ toLE 4 (tFrac x.ts + x.stream * 2 ^ 16) ++
  toLE 4 (tNanos x.deadline) ++ toLE 4 (x.inPort + x.chain.length * 2 ^ 9 + metaOf x * 2 ^ 16) ++ holderBytes x.holders ++
  toLE 2 x.lastQueue

/-- The sideband of the k-th cell of a frame's chain; the spec names no code for its check bits, which are a free value. -/
def sidebandOf (s : State) (x : Frame) (k : Nat) : List Byte :=
  let stamp := match x.grown with
    | some (i, us) => if i ≤ k then us else x.stampUs
    | none => x.stampUs
  toLE 4 ((x.chain[k + 1]?).getD 0xFFFFFFFF) ++ toLE 4 (x.requester + if k = 0 then 2 ^ 9 else 0) ++ toLE 4 stamp ++
    toLE 4 (draw s % 256)

/-- The sideband of a free cell: the next cell of its list, which the spec does not name, and what its last user left are free
values. -/
def freeSideband (s : State) : List Byte :=
  toLE 4 (draw s % 2 ^ 32) ++ toLE 4 (Config.freeValue (s.free + 1) % 256 + 2 ^ 8) ++ toLE 4 (Config.freeValue (s.free + 2) % 2 ^ 32) ++
    toLE 4 (Config.freeValue (s.free + 3) % 256)

/-- The sideband of a cell (R391). -/
def cellSideband (s : State) (ptr : Nat) : List Byte :=
  match s.buf.frames.find? fun f => f.2.chain.contains ptr with
  | some f => sidebandOf s f.2 (f.2.chain.findIdx (· == ptr))
  | none => freeSideband s

/-! ## Commands of the BPM target (R430, R431) -/

/-- A snapshot is taken and its sums are checked; a failure is fatal (R423). -/
def snapshot (s : State) : State :=
  let s1 := takeSnapshot s
  whenDo (!snapshotOk s1) (fatal 0x0002 92 []) s1

/-- BPM SNAPSHOT. -/
def bpmSnapshot : CmdSpec where
  target := 0xC
  opcode := 1
  form := .short
  changes := false
  modes := inOpen
  regions := fun _ => []
  body := fun _ s =>
    let s1 := snapshot s
    okWith (toLE 8 (tSec s1.buf.snapAt) ++ toLE 4 (tNs s1.buf.snapAt) ++ toLE 4 s1.buf.snapCount) s1

/-- The frame that a handle names. -/
def handleFrame (s : State) (h : Nat) : Option (Nat × Frame) := (ptrOfHandle s h).bind (frameAt s)

/-- A copy that a reclaim ends counts in OTHER of its queue (R459): the one the frame last entered, where that is of the copy's port, else
the default of its port, for the record names no other (DESIGN CHOICE, assumption 174). -/
def reclaimedCopy (x : Frame) (p : Nat) (s : State) : State :=
  schCount p (if x.lastQueue / 8 = p then x.lastQueue % 8 else defaultQueue s p x.prio) 9 1 s

/-- BPM RECLAIM. -/
def bpmReclaim : CmdSpec where
  target := 0xC
  opcode := 2
  form := .short
  changes := false
  modes := inOpen
  regions := fun _ => []
  body := fun a s =>
    match handleFrame s (ofLE (bodyAt a.cmd 0x08 8)) with
    | none => refuse 0x101 s
    | some (f, x) =>
      if !(s.buf.leaks.any fun l => l.frame == f) || refsOf s f != 0 || x.touched then refuse 0x102 s
      else
        let n := x.chain.length
        let s0 := modFrame f (fun y => { y with holders := [] }) s
        let s1 := discardFrame f 0x16 (forAll (reclaimedCopy x) x.holders s0)
        let s2 := incRg R.bpmReclaimed (emitBuffer 4 0x52 ((x.chain.head?).getD 0) 0 n 0 s1)
        okWith (toLE 4 n ++ toLE 4 (if x.fate = 0 then 0x16 else 0))
          { s2 with buf := { s2.buf with leaks := s2.buf.leaks.filter fun l => l.frame != f } }

/-- BPM READ_RECORD. -/
def bpmReadRecord : CmdSpec where
  target := 0xC
  opcode := 3
  form := .writesBuf
  changes := false
  modes := inOpen
  regions := fun _ => []
  body := fun a s =>
    if dataBytes a.cmd ≠ 80 then refuse 4 s
    else match handleFrame s (ofLE (bodyAt a.cmd 0x14 8)) with
      | none => refuse 0x101 s
      | some (_, x) => okData (recordOf x ++ sidebandOf s x 0) (drew s)

/-- BPM LEAK_LIST. -/
def bpmLeakList : CmdSpec where
  target := 0xC
  opcode := 4
  form := .writesBuf
  changes := false
  modes := inOpen
  regions := fun _ => []
  body := fun a s =>
    if dataBytes a.cmd ≠ 512 then refuse 4 s
    else okData (((s.buf.leaks.flatMap fun (l : Leak) =>
        toLE 8 (handleOf l.ptr) ++ toLE 4 (satTo 0xFFFFFFFF l.ageUs) ++ toLE 4 (l.lastQueue + l.cells * 2 ^ 12 + 2 ^ 31)) ++
      List.replicate 512 0).take 512) s

/-- BPM AUDIT_NOW. -/
def bpmAuditNow : CmdSpec where
  target := 0xC
  opcode := 5
  form := .short
  changes := false
  modes := inOpen
  regions := fun _ => []
  body := fun _ s => ok { s with buf := { s.buf with passFrom := s.elapsed, resPassFrom := s.elapsed } }

/-- BPM READ_ACCOUNT. -/
def bpmReadAccount : CmdSpec where
  target := 0xC
  opcode := 6
  form := .writesBuf
  changes := false
  modes := inOpen
  ownLength := true
  regions := fun _ => []
  body := fun a s =>
    let i := fld 11 0 (bodyWord a.cmd 0x14)
    let n := fld 11 0 (bodyWord a.cmd 0x18)
    if n = 0 ∨ 2176 < n ∨ 2176 < i + n then refuse 0x103 s
    else if dataBytes a.cmd ≠ 8 * n then refuse 4 s
    else okData ((List.range n).flatMap fun k =>
      let x := pairOf s (i + k)
      toLE 4 x.a ++ toLE 4 (x.hr + b2n x.xoff * 2 ^ 16)) s

/-- SNAPSHOT: the command, or with no descriptor a write of 1 to BPM_SNAP_CMD.TAKE (R423). -/
def execSnapshot (c : Option Cmd) (s : State) : Host.Outcome State Fault Refusal :=
  .next (match c with
    | some c => runCmd bpmSnapshot c s
    | none => pf0Write R.bpmSnapCmd snapshot s)
/-- RECLAIM (R427). -/
def execReclaim (c : Cmd) (s : State) : Host.Outcome State Fault Refusal := .next (runCmd bpmReclaim c s)
/-- READ_RECORD (R430). -/
def execReadRecord (c : Cmd) (s : State) : Host.Outcome State Fault Refusal := .next (runCmd bpmReadRecord c s)
/-- LEAK_LIST (R430). -/
def execLeakList (c : Cmd) (s : State) : Host.Outcome State Fault Refusal := .next (runCmd bpmLeakList c s)
/-- AUDIT_NOW (R430). -/
def execAuditNow (c : Cmd) (s : State) : Host.Outcome State Fault Refusal := .next (runCmd bpmAuditNow c s)
/-- READ_ACCOUNT (R430). -/
def execReadAccount (c : Cmd) (s : State) : Host.Outcome State Fault Refusal := .next (runCmd bpmReadAccount c s)

end Sys2Proof.Machine
end

