-- ==== Sys2Proof/Machine/RangeCheck.lean ====
section
/-! DEFINITION. The range check of a commit: the legal values of the staged fields, in the order of R125, the pool check of
R413, and the clamp reports (R126 to R128). -/

namespace Sys2Proof.Machine

open Sys2Proof

/-- One clamp (R105, R126). -/
structure Clamp where
  id : Nat
  written : Nat
  used : Nat
  guar : Bool
deriving DecidableEq, Repr

/-- A check under way: the state whose staged values are being cut to their ranges, and the reports made. -/
structure Check where
  st : State
  reports : List Clamp

/-! ## Staged values -/

/-- A staged word of class C, of class G. -/
def stC (t : State) (off : Nat) : Nat := rg t off
def stG (t : State) (off : Nat) : Nat := pg t (1 - curPar t) off

/-- The staged value of a register, both words of a 64-bit one. -/
def stagedVal (t : State) (h : RegHit) : Nat :=
  let k := stagedKey t h.row.cls h.lowOff
  (regWord t.regs k).toNat + if h.row.wide then (regWord t.regs (k + 4)).toNat * 2 ^ 32 else 0

/-- Storing it. -/
def putStaged (h : RegHit) (v : Nat) (t : State) : State :=
  let k := stagedKey t h.row.cls h.lowOff
  let r1 := regStore k (BitVec.ofNat 32 v) t.regs
  { t with regs := if h.row.wide then regStore (k + 4) (BitVec.ofNat 32 (v >>> 32)) r1 else r1 }

/-! ## Legal values (R125) -/

/-- The distance of two numbers. -/
def dist (a b : Nat) : Nat := (a - b) + (b - a)

/-- The numerically nearest of some legal codes in rising order, the lower one where two are equally near. -/
def nearest (codes : List Nat) (v : Nat) : Nat :=
  codes.foldl (fun b c => if dist c v < dist b v then c else b) (codes.head?.getD v)

/-- The staged SER_REFCLK of a quad's group has FREQ = 1, SPREAD = 1: the instance of Q(4k) acts (R163). -/
def groupFreq (t : State) (q : Nat) : Bool := bit 0 (stC t (R.serRefclk (q / 4 * 4)))
def groupSpread (t : State) (q : Nat) : Bool := bit 1 (stC t (R.serRefclk (q / 4 * 4)))

/-- The mode codes that the reference clock allows a quad (R163). -/
def serModes (t : State) (q : Nat) : List Nat :=
  let byFreq := if groupFreq t q then [0, 1, 2, 3, 4, 5, 6] else [0, 8, 9, 10, 11]
  if groupSpread t q then byFreq.filter fun m => [0, 1, 4, 5, 6].contains m else byFreq

/-- The staged mode of a quad. -/
def stMode (t : State) (q : Nat) : Nat := fld 3 0 (stC t (R.serCfg q))

/-- A field of a lane map that repeats a value already taken takes the lowest one not yet taken (R168). -/
def mapValue (w lo v : Nat) : Nat :=
  let base := lo / 8 * 8
  let taken := (List.range ((lo - base) / 2)).map fun i => fld (base + 2 * i + 1) (base + 2 * i) w
  if taken.contains v then ((List.range 4).find? fun x => !taken.contains x).getD v else v

/-- The width of a pulse leaves 8 ns of its generator's period (R260). -/
def tioMax (t : State) (u : Nat) : Nat :=
  let g := fld 6 2 (stC t (R.timTioCfg u))
  max 8 (min 500000000 (rg64 t (R.timCgPeriod g) - 8))

/-- The legal value for a field whose range depends on other fields: R163, R168, R194, R195 (SER), R209, R216 (MAC), R260,
R267 (TIM), R298 (PRS), R387 (ENG), R428, R429 (BPM), R460 (QUE), R474 (REC). `w` is the register's staged value. -/
def specialValue (t : State) (h : RegHit) (f : RegField) (w v : Nat) : Nat :=
  let i := h.inst
  let k := h.idx
  match h.blk with
  | .tim => if h.row.off = 0x118 then min v (rg64 t (R.timCgPeriod k) - 1) else clampTo 8 (tioMax t k) v
  | .recorder => clampTo 2 (max 2 ((recSlots t - 16) / 4)) v
  | .bpm =>
    if h.row.off = 0xC then clampTo (fld 18 0 (stC t R.bpmPoolXoff) + 1) 262145 v
    else if h.row.off = 0x4008 then
      clampTo 1 (max 1 (fld 15 0 (stC t (R.bpmPpMin k)) + fld 26 0 (stC t (R.bpmPpShare k)))) v
    else if h.row.off = 0x400C then min v (fld 26 0 (stC t (R.bpmPpHwm k)) - 1)
    else if v = 0 then 0 else max 16 v
  | .prs =>
    let len := fld 22 16 (stG t (R.prsUdh i))
    if h.row.off = 8 then (if 0x600 ≤ v then v else if v ≤ 0x300 then 0 else 0x600)
    else if f.lo = 0 then min v (len - 1)
    else if v ≤ len - 2 ∨ v = 63 then v else nearest [len - 2, 63] v
  | .eng => nearest ((List.range 12).filter fun n => decide (fld 10 0 w + 2 ^ n ≤ 2048)) v
  | .ser =>
    if h.row.off = 0 then (if f.lo = 0 then nearest (serModes t i) v else if groupSpread t i then 1 else v)
    else if h.row.off = 4 then (if i = 0 ∧ t.md.coreRef ≠ 0 then b2n (t.md.coreRef == 1) else v)
    else if h.row.off = 8 then mapValue w f.lo v
    else if h.row.off = 0x100 then (if stMode t i = 1 ∧ groupSpread t i then 1 else v)
    else if f.lo = 8 then clampTo 24 (63 - fld 7 0 w) v
    else min v (min 31 (63 - fld 7 0 w - fld 15 8 w))
  | .mac =>
    let m := stMode t (i / 4)
    if h.row.off = 0x10 then (if modeTsuip m then 0 else min v 2)
    else if m = 4 ∨ m = 5 ∨ m = 6 ∨ m = 10 ∨ m = 11 then 0 else v
  | .que => if 64 ≤ v ∧ v < 128 then 63 else if 128 ≤ v ∧ v < 224 then 224 else v
  | _ => v

/-- The value a field takes under the check. -/
def legalValue (t : State) (h : RegHit) (f : RegField) (w v : Nat) : Nat :=
  match f.legal with
  | .any => v
  | .rng lo hi => clampTo lo hi v
  | .special => specialValue t h f w v
  | .rngSpecial lo hi => specialValue t h f w (clampTo lo hi v)

/-- The FIELD_ID of a register field (R105). -/
def fieldId (h : RegHit) (f : RegField) : Nat := h.lowOff + f.lo / 32 * 4 + f.lo % 32 * 2 ^ 26

/-- The clamp voids the guarantee: not where a pause mode gives way to Tsuip credits (R228). -/
def clampGuar (t : State) (h : RegHit) (f : RegField) : Bool :=
  f.guarantee && !(h.blk == .mac && h.row.off == 0x10 && f.lo == 0 && modeTsuip (stMode t (h.inst / 4)))

/-- One field of a register is checked. -/
def checkField (h : RegHit) (c : Check) (f : RegField) : Check :=
  let w := stagedVal c.st h
  let v := fld f.hi f.lo w
  let u := legalValue c.st h f w v
  if u = v then c
  else ⟨putStaged h (putFld f.hi f.lo u w) c.st,
        c.reports ++ [⟨fieldId h f, v % 2 ^ 32, u % 2 ^ 32, clampGuar c.st h f⟩]⟩

/-- One register is checked, from bit 0 upward. -/
def checkReg (c : Check) (off : Nat) : Check :=
  match regAt off with
  | none => c
  | some h => h.row.fields.foldl (checkField h) c

/-! ## Which registers can be out of range, and in which order (R125, R163) -/

/-- The register at an offset holds a staged value under this key. -/
def stagedAt (s : State) (key : Nat) : Option RegHit :=
  match regAt (key % viewSize) with
  | none => none
  | some h => if stagedKey s h.row.cls h.lowOff = key - (key % viewSize - h.lowOff) ∧ (h.row.cls = .c ∨ h.row.cls = .g)
      then some h else none

/-- The registers whose range depends on one. -/
def related (h : RegHit) : List Nat :=
  let i := h.inst
  let k := h.idx
  let quadRegs (q : Nat) : List Nat :=
    R.serCfg q :: (List.range 4).flatMap fun j =>
      [R.serLaneCfg q j, R.macPauseCfg (4 * q + j), R.macPreemptCfg (4 * q + j)]
  match h.blk with
  | .tim =>
    if h.row.off = 0x110 then R.timCgPhase k :: (List.range 16).map R.timTioWidth
    else if h.row.off = 0x900 then [R.timTioWidth k] else []
  | .bpm =>
    if h.row.off = 8 then [R.bpmPoolXon]
    else if h.row.off = 0x4000 ∨ h.row.off = 0x4004 ∨ h.row.off = 0x4008 then [R.bpmPpHwm k, R.bpmPpLwm k] else []
  | .prs => if h.row.off = 8 then [R.prsUdhOff i] else []
  | .ser =>
    if h.row.off = 0 then quadRegs i
    else if h.row.off = 4 ∧ i % 4 = 0 then (List.range 4).flatMap fun j => quadRegs (i + j) else []
  | _ => []

/-- Where a register stands in the order of the check: by offset, but SER_REFCLK of a group before its quads' SER_CFG. -/
def checkOrder (off : Nat) : Nat := if 0x200000 ≤ off ∧ off < 0x240000 ∧ off % 0x4000 = 4 then 2 * off - 9 else 2 * off

/-- The registers to be checked, in order: those whose staged value is not the reset value, those they bear on, and the two
whose range follows what the device has found (REC_FREEZE_CFG, SER_REFCLK of Q00). Every other register holds its reset
value, which is legal. -/
def toCheck (s : State) : List Nat :=
  let hits := (regAt (R.serRefclk 0)).toList ++ s.regs.filterMap fun c => stagedAt s c.1
  let offs := R.recFreezeCfg :: hits.flatMap fun h => h.lowOff :: related h
  (offs.foldl (fun a o => kvPut (checkOrder o) o a) []).map (·.2)

/-! ## Table entries (R288, R286, R296) -/

/-- A field of a table entry: its number, word, bits, legal value given the entry's words, and whether it is
guarantee-relevant. -/
structure EntryField where
  num : Nat
  word : Nat
  hi : Nat
  lo : Nat
  legal : List Nat → Nat → Nat
  guar : Bool

/-- Fields of a stream entry, a rule, and the four kinds of headgate entry that have a range. -/
def strFields : List EntryField :=
  [⟨6, 1, 21, 2, fun ws v => if bit 0 (nth 0 ws 1) then clampTo 1500 1000000 v else v, true⟩]
def clsFields : List EntryField :=
  [⟨13, 20, 24, 16, fun _ v => min v 258, false⟩,
   ⟨15, 21, 17, 0, fun ws v => match fld 4 3 (nth 0 ws 20) with
     | 1 => min v 258 | 2 => min v 16383 | 3 => min v 131071 | _ => v, false⟩]
def hgtFields (k : HgtKind) (ws : List Nat) : List EntryField :=
  match k with
  | .filter => [⟨6, 1, 29, 16, fun _ v => if v ≤ 32 then 0 else clampTo 64 16000 v, false⟩]
  | .meter =>
    [⟨0, 0, 1, 0, fun _ v => min v 2, false⟩, ⟨2, 0, 4, 3, fun _ v => min v 2, false⟩,
     ⟨5, 1, 31, 0, fun _ v => min v 100000000, false⟩,
     ⟨6, 2, 31, 0, fun ws v => if fld 1 0 (nth 0 ws 0) = 2 then clampTo (nth 0 ws 1) 100000000 v else v, false⟩,
     ⟨7, 3, 15, 0, fun _ v => max v 1, false⟩, ⟨8, 3, 31, 16, fun _ v => max v 1, false⟩]
  | .recovery => [⟨2, 0, 9, 2, fun _ v => clampTo 2 128 v, false⟩, ⟨3, 0, 31, 16, fun _ v => max v 1, false⟩]
  | .gate =>
    ⟨0, 0, 6, 0, fun _ v => min v 64, false⟩ :: (List.range (min 64 (fld 6 0 (nth 0 ws 0)))).flatMap fun j =>
      [⟨5 + 3 * j, 2 + 2 * j, 4, 1, fun _ v => if v ≤ 4 then 0 else max v 8, false⟩,
       ⟨6 + 3 * j, 3 + 2 * j, 31, 0, fun _ v => clampTo 8 1000000000 v, false⟩]

/-- One entry is checked, field by field. -/
def checkEntry (target idx : Nat) (fs : List EntryField) (ws : List Nat) : List Nat × List Clamp :=
  fs.foldl (fun a f =>
    let w := nth 0 a.1 f.word
    let v := fld f.hi f.lo w
    let u := f.legal a.1 v
    if u = v then a
    else (a.1.set f.word (putFld f.hi f.lo u w),
          a.2 ++ [⟨2 ^ 31 + target * 2 ^ 26 + idx % 2 ^ 18 * 2 ^ 8 + f.num, v, u, f.guar⟩])) (ws, [])

/-- The staged entries of a directly indexed table. -/
def stagedEntries (s : State) (table : Nat) : List (Nat × List Nat) :=
  (s.tab.vals.filter fun c => decide (valKey table 0 0 ≤ c.1) && decide (c.1 < valKey (table + 1) 0 0) &&
    c.1 % 2 == stagedPar s).map fun c => (c.1 / 2 % 2 ^ 20, c.2)

/-- Stream entries, then rules, then headgate entries (R125). -/
def checkTables (c0 : Check) : Check :=
  let c1 := (stagedEntries c0.st 0).foldl (fun c e =>
    let r := checkEntry 5 e.1 strFields e.2
    if r.2.isEmpty then c else ⟨setEntry 0 e.1 (stagedPar c.st) r.1 c.st, c.reports ++ r.2⟩) c0
  let rules := c1.st.tab.rules.filter fun x => x.2.valid (stagedPar c1.st)
  let c2 := rules.foldl (fun c e =>
    let r := checkEntry 6 e.1 clsFields e.2.words
    if r.2.isEmpty then c
    else ⟨{ c.st with tab := { c.st.tab with rules := kvPut e.1 { e.2 with words := r.1 } c.st.tab.rules } }, c.reports ++ r.2⟩) c1
  (stagedEntries c2.st 1).foldl (fun c e =>
    match hgtKind e.1 with
    | none => c
    | some k =>
      let r := checkEntry 7 e.1 (hgtFields k e.2) e.2
      if r.2.isEmpty then c else ⟨setEntry 1 e.1 (stagedPar c.st) r.1 c.st, c.reports ++ r.2⟩) c2

/-! ## The values a commit puts in use (R124, R212, R413) -/

/-- Class C words with a stored value, staged or in use, by offset. -/
def classCWords (s : State) : List Nat :=
  (s.regs.foldl (fun a c =>
    match regAt (c.1 % viewSize) with
    | some h => if h.row.cls = .c then kvPut (c.1 % viewSize) (c.1 % viewSize) a else a
    | none => a) []).map (·.2)

/-- Every class C register's staged value is put in use. -/
def useStaged (s : State) : State :=
  { s with regs := (classCWords s).foldl (fun r o => regStore (o + viewSize) (regWord s.regs o) r) s.regs }

/-- A quad takes the mode in use (R165). -/
def setQuadMode (q : Nat) (s : State) : State :=
  let m := cuF s (R.serCfg q) 3 0
  if (quad s q).mode = m then s else setQuad q { quad s q with mode := m } s

/-- Every quad runs its committed mode. -/
def setModes (s : State) : State :=
  forAll setQuadMode (List.range 64) s

/-- MAC_HEADROOM_STATUS.CELLS of a port (R213). -/
def headroomCells (s : State) (p : Nat) : Nat :=
  if portTsuip s p ∨ cuF s (R.macPauseCfg p) 1 0 = 0 then 0
  else
    let m := cuF s (R.macMaxFrame p) 13 0
    let cfg := cu s (R.macHeadroomCfg p)
    ceilDiv (portRate s p * (100 + 2 * fld 15 0 cfg + fld 31 16 cfg) + 80 * (m + 104)) (80 * 84) + ceilDiv (m + 64) 256

/-- A port's headroom in cells follows the settings in use. -/
def setHeadroom (p : Nat) (s : State) : State :=
  let h := if portPresent s p then headroomCells s p else 0
  if (port s p).headroom = h then s else modPort p (fun x => { x with headroom := h }) s

/-- The headroom of every port that exists. -/
def setHeadrooms (s : State) : State :=
  forAll setHeadroom (List.range 256) s

/-- The ports whose pairs the sums run over. -/
def pooledPorts (s : State) : List Nat := (List.range 256).filter (portPresent s) ++ [256, 258]

/-- The sum of MIN, and of headroom, over the pairs; in Annex 31B pause a port's headroom counts once (R212). -/
def sumOfMin (s : State) : Nat := ((pooledPorts s).map fun p => ((List.range 8).map fun k => pairMin s (8 * p + k)).sum).sum
def portHeadroom (s : State) (p : Nat) : Nat :=
  let hs := (List.range 8).map fun k => headroomOf s (8 * p + k)
  if sharedHeadroom s p then hs.foldl max 0 else hs.sum
def sumOfHeadroom (s : State) : Nat := ((pooledPorts s).map (portHeadroom s)).sum

/-- The state with what the staged values would make of it, as far as the pools ask. -/
def trial (s : State) : State := setHeadrooms (setModes (useStaged s))

/-- MIN values give way from the highest pair down (R413): `need` is by how much the pools are short. -/
def lowerMins : List Nat → Nat → Check → Nat × Check
  | [], need, c => (need, c)
  | i :: is, need, c =>
    let v := fld 15 0 (stC c.st (R.bpmPpMin i))
    let cut := min v need
    if cut = 0 then lowerMins is need c
    else lowerMins is (need - cut)
      ⟨setRgF (R.bpmPpMin i) 15 0 (v - cut) c.st, c.reports ++ [⟨R.bpmPpMin i, v, v - cut, true⟩]⟩

/-- The largest HR_SCALE below the staged one with which the pools fit; 0 where none does. -/
def fittingScale (u : State) (limit v : Nat) : Nat :=
  ((List.range v).reverse.find? fun x =>
    decide (sysReserve u + sumOfMin u + sumOfHeadroom (setRgF (R.bpmCfg + viewSize) 22 16 x u) ≤ limit)).getD 0

/-- The pool check (R413). -/
def poolCheck (c : Check) : Check :=
  let u := trial c.st
  let limit := basinCells u - 16384
  let excess := sysReserve u + sumOfMin u + sumOfHeadroom u - limit
  if excess = 0 then c
  else
    let pairs := ((pooledPorts u).flatMap fun p => (List.range 8).map (8 * p + ·)).reverse
    let (left, c1) := lowerMins pairs excess c
    if left = 0 then c1
    else
      let v := fld 22 16 (stC c1.st R.bpmCfg)
      let x := fittingScale (trial c1.st) limit v
      if x = v then c1
      else ⟨setRgF R.bpmCfg 22 16 x c1.st, c1.reports ++ [⟨R.bpmCfg + 16 * 2 ^ 26, v, x, true⟩]⟩

/-! ## The check and its reports -/

/-- The whole check: registers, table entries, pools (R125, R413). -/
def rangeCheck (s : State) : Check := poolCheck (checkTables ((toCheck s).foldl checkReg ⟨s, []⟩))

/-- One report goes to the log and to the event ring (R126, R127). -/
def report (gen : Nat) (refused : Bool) (r : Clamp) (s : State) : State :=
  let k := rg s R.glbClampTotal
  let i := k % 256
  let used := if refused then r.written else r.used
  let s1 := setRg (R.glbClampLogInfo i) (gen % 65536 + b2n r.guar * 2 ^ 16 + b2n refused * 2 ^ 17 + fld 15 8 k * 2 ^ 24)
    (setRg (R.glbClampLogUsed i) used (setRg (R.glbClampLogWritten i) r.written (setRg (R.glbClampLogField i) r.id s)))
  emit 4 0 95 [r.id, r.written, used, b2n r.guar + i * 2 ^ 8 + gen % 65536 * 2 ^ 16] (incRg R.glbClampTotal s1)

/-- All reports of a check, and GLB_CLAMP_STATUS (R128). -/
def reportAll (gen : Nat) (refused byCtrl : Bool) (rs : List Clamp) (s : State) : State :=
  setRg R.glbClampStatus
    (satTo 0xFFFF rs.length + b2n (rs.any fun r => r.guar) * 2 ^ 16 + b2n byCtrl * 2 ^ 17)
    (forAll (report gen refused) rs s)

/-- GLB_CLAMP_CTRL refuses a commit with these clamps (R128). -/
def clampRefused (s : State) (rs : List Clamp) : Bool :=
  let c := rg s R.glbClampCtrl
  (bit 1 c && !rs.isEmpty) || (bit 0 c && rs.any fun r => r.guar)

end Sys2Proof.Machine
end

