-- ==== Sys2Proof/Machine/Service.lean ====
section
/-! DEFINITION. Units and their service states, tests, spares and retirement, the health map's changes, and the waves of
PARK (16_service_test, R500 to R521). -/

namespace Sys2Proof.Machine

open Sys2Proof

/-! ## Units (R500, R501) -/

/-- The number of units of a kind. -/
def kindUnits : Nat → Nat
  | 0 => 256 | 1 => 64 | 2 => 64 | 3 => 64 | 4 => 48 | 5 => 8 | 6 => 520 | 7 => 128 | 8 => 1 | 9 => 96 | _ => 0

/-- The island of a unit, as a SERVICE event's SOURCE (R103); the recorder's is that of its open segment. -/
def unitIsland (s : State) (kind idx : Nat) : Nat := if kind = 8 then recIsland s else islandFor kind idx

/-- A state as SERVICE events show it (R501). -/
def shownState (n : Nat) : Nat := if n = 3 then 1 else n

/-- A unit enters a state, with its SERVICE event of type 0 (R502). -/
def setUnit (kind idx new : Nat) (s : State) : State :=
  let s1 : State := { s with svc := { s.svc with states := kvSet 0 (unitKey kind idx) new s.svc.states } }
  stickRg R.svcEvt 0
    (emitService 0 (unitIsland s kind idx) kind idx (shownState (unitSt s kind idx)) (shownState new) 0 s1)

/-- The units that an island contains (R521). -/
def contained (isl : Nat) : List (Nat × Nat) :=
  if isl < 64 then (1, isl) :: (List.range 4).map fun i => (0, 4 * isl + i)
  else if isl < 72 then ((List.range 8).map fun b => (3, 8 * (isl - 64) + b)) ++
    (if isl % 2 = 0 then (List.range 12).map fun k => (4, 12 * ((isl - 64) / 2) + k) else [])
  else if isl < 80 then []
  else if isl < 88 then (List.range 8).map fun e => (2, 8 * (isl - 80) + e)
  else if isl < 92 then (List.range 32).map fun k => (7, 32 * (isl - 88) + k)
  else []

/-- The logical channel that a pseudo-channel serves. -/
def channelOf (s : State) (pc : Nat) : Option Nat :=
  (List.range 120).find? fun l => physicalOf s l == pc && !s.svc.lostChannels.contains l

/-- The bank serves, in its own place or in a bank's (R508). -/
def bankWorks (s : State) (i : Nat) : Bool := i % 65 != 64 || (kvGet (i / 65) s.svc.spares).isSome

/-- The unit is being filled as a spare. -/
def fillingSpare (s : State) (kind idx : Nat) : Bool := s.svc.transitions.any fun t => t.kind == kind && t.spare == some idx

/-- A transition begins, and ends. -/
def addTransition (t : Transition) (s : State) : State := { s with svc := { s.svc with transitions := s.svc.transitions ++ [t] } }
def endTransition (kind idx : Nat) (s : State) : State :=
  { s with svc := { s.svc with transitions := s.svc.transitions.filter fun t => !(t.kind == kind && t.index == idx) } }

/-! ## Leaving and returning (R505, R506) -/

/-- A port of a quad that leaves service goes down, and one that is down is flushed. -/
def portGone (p : Nat) (s : State) : State :=
  modTs p (fun _ => {}) (if (port s p).up then portDown p .admin s
    else whenDo (modeHas (quad s (p / 4)).mode (p % 4)) (flushDown p) s)

/-- The ports of a quad cease to exist: queued copies are flushed without link-hold (R505, R164). -/
def quadGone (q : Nat) (s : State) : State :=
  forAll (fun j => portGone (4 * q + j)) (List.range 4) s

/-- The lane leaves its link (R505): a Tsuip link retrains without cutting a frame (R190), another port goes down as a
whole (R172). -/
def laneGone (ln : Nat) (s : State) : State :=
  let p := portOfLane s ln
  let t := tsOf s p
  if portTsuip s p then whenDo (t.st == 4 && bit (ln % 4) (tsLanes t)) (tsRetrain p) s
  else quadEval (ln / 4) (laneLost ln s)

/-- What happens to a unit's work when its leave is accepted, or when it may be used again (R505, R506). `old` is the state
before. -/
def unitShift (old : State) (back : Bool) (kind idx : Nat) (s : State) : State :=
  match kind with
  | 0 => if back then quadEval (idx / 4) s else laneGone idx s
  | 1 => if back then
      quadEval idx (forAll (fun j => modTs (4 * idx + j) fun t => if modeTsuip (quad s idx).mode then { t with st := 1 } else t)
        (List.range 4) s)
    else quadGone idx s
  | 2 => noteGroup old 2 (idx / 8) s
  | 5 => judgePressure s
  | 7 => noteChannels old s
  | 8 => if back then s else recSealOpen 9 s
  | _ => s

/-- The same for an island and the units it contains (R521). -/
def unitShifts (old : State) (back : Bool) (kind idx : Nat) (s : State) : State :=
  if kind = 9 then forAll (fun u => unitShift old back u.1 u.2) (contained idx) s else unitShift old back kind idx s

/-- No spilled frame lies on a reservoir channel, and no slot of it in a region (R421, R476). -/
def channelClear (s : State) (ch : Nat) : Bool :=
  !(s.buf.frames.any fun f => f.2.spilled && f.2.channel == ch) && !(s.buf.spilling.any fun r => r.2.1 == ch) &&
    !(s.recd.segments.any fun g => slotChannel s g.2.slot == ch && inRegion s g.1) &&
    !(match s.recd.current with
      | some g => slotChannel s g.slot == ch && inRegion s g.seq
      | none => false)

/-- The condition that completes a leave (R505). -/
def leaveMet (s : State) (kind idx : Nat) : Bool :=
  match kind with
  | 0 =>
    let t := tsOf s (portOfLane s idx)
    !(portTsuip s (portOfLane s idx) && (t.st == 3 || t.st == 4 || t.st == 5) && bit (idx % 4) (tsLanes t))
  | 2 =>
    let x := engineAt s idx
    x.contexts.isEmpty && x.input.isEmpty &&
      !((List.range 256).any fun b => carried s (curPar s) 2 (idx / 8) b == some (idx % 8))
  | 5 => !((cellsInUse s).any fun p => !bit 31 p && p / groupCells == idx)
  | 7 => match channelOf s idx with
    | some ch => channelClear s ch
    | none => true
  | _ => true

/-- The same for an island: every unit it contains has left. -/
def leaveComplete (s : State) (kind idx : Nat) : Bool :=
  if kind = 9 then (contained idx).all fun u => leaveMet s u.1 u.2 else leaveMet s kind idx

/-- RESULT of SET_STATE: the state reached, and the µs taken (R524). -/
def stateResult (s : State) (st started : Nat) : List Byte :=
  toLE 4 st ++ toLE 4 (satTo 0xFFFFFFFF ((s.elapsed - started) / usT 1))

/-- Who waits for a transition is answered. -/
def answerTransition (t : Transition) (status : Nat) (result : List Byte) (s : State) : State :=
  match t.waiter with
  | some w => answerCmd w status result s
  | none => s

/-- A PRBS31 test of a lane ends without a result, as STOP ends it (R171, R502). -/
def stopPrbs (ln : Nat) (s : State) : State :=
  whenDo ((lane s ln).cmd == 3 || (lane s ln).cmd == 4) (setLane ln { lane s ln with cmd := 0, result := 0 }) s

/-- Tests of a unit end without a result: who asked is answered NOT_UNDER_TEST (R502). -/
def stopTests (kind idx : Nat) (s : State) : State :=
  let mine := s.svc.tests.filter fun x => x.1 == kind && x.2.1 == idx
  whenDo (kind == 0) (stopPrbs idx) (forAll (fun x s => answerCmd x.2.2.2 0x109 [] s) mine
    { s with svc := { s.svc with tests := s.svc.tests.filter fun x => !(x.1 == kind && x.2.1 == idx) } })

/-- A cluster whose engines have fallen below MIN_ENGINES says so (R379, R386, R520). -/
def budgetNote (c : Nat) (s : State) : State :=
  whenDo (decide ((enginesIn s c).length < minEngines s c)) (stickRg (R.engEvt c) 2) s

/-- The same for the cluster whose engines a unit takes away. -/
def budgetShort (kind idx : Nat) (s : State) : State :=
  if kind = 2 then budgetNote (idx / 8) s
  else if kind = 9 ∧ 80 ≤ idx ∧ idx < 88 then budgetNote (idx - 80) s
  else s

/-- A logical channel is lost (R510, R476): the open segment on it is sealed with cause 8, its slots leave the ring, its
buckets move. -/
def loseChannel (ch : Nat) (s : State) : State :=
  let openThere := match s.recd.current with
    | some g => slotChannel s g.slot == ch
    | none => false
  let s1 : State := { s with svc := { s.svc with lostChannels := ch :: s.svc.lostChannels } }
  let s2 := whenDo openThere (recSealOpen 8) s1
  noteChannels s (modRec (fun r => { r with segments := r.segments.filter fun g => !(slotChannel s g.2.slot == ch) }) s2)

/-- A retirement will be written to the health map (R512). -/
def noteHealth (kind idx : Nat) (auto : Bool) (spare : Option Nat) (s : State) : State :=
  { s with svc := { s.svc with notes := s.svc.notes ++ [⟨kind, idx, if auto then 10 else 11, spare⟩] } }

/-- A leaving unit has met its condition (R502): it enters the state sought; an island takes its units with it; a
pseudo-channel retired without a spare fails and its channel is lost (R510). -/
def finishLeave (t : Transition) (s : State) : State :=
  let s1 := endTransition t.kind t.index s
  if t.target = 3 then
    let s2 := match channelOf s1 t.index with
      | some ch => loseChannel ch s1
      | none => s1
    answerTransition t 0 (toLE 4 0xFFF) (noteHealth t.kind t.index t.auto none (setUnit t.kind t.index 3 s2))
  else
    let s2 := setUnit t.kind t.index t.target s1
    let s3 := if t.kind = 9 then
        forAll (fun u s => whenDo (unitSt s u.1 u.2 == 0) (setUnit u.1 u.2 t.target) s) (contained t.index) s2
      else s2
    answerTransition t 0 (stateResult s3 t.target t.started) (budgetShort t.kind t.index s3)

/-- An offset lies in a range of BAR0. -/
def offIn (lo hi off : Nat) : Bool := decide (lo ≤ off) && decide (off < hi)

/-- An offset lies in `n` instances of a block from the i-th on (R118). -/
def inInstances (base stride i n off : Nat) : Bool := offIn (base + stride * i) (base + stride * (i + n)) off

/-- The registers of the blocks that lie in an island (R25, R118): those of its quad, slice or cluster, and its counter unit's page. -/
def islandOff (isl off : Nat) : Bool :=
  if isl < 64 then inInstances 0x200000 0x1000 isl 1 off || inInstances 0x400000 0x400 (4 * isl) 4 off
  else inInstances 0x180000 0x1000 (isl - 64) 1 off ||
    (if isl < 72 then inInstances 0x100000 0x2000 (isl - 64) 1 off || inInstances 0x110000 0x2000 (isl - 64) 1 off ||
        inInstances 0x120000 0x2000 (isl - 64) 1 off
      else if isl < 80 then inInstances 0x600000 0x200 (32 * (isl - 72)) 32 off || inInstances 0x800000 0x400 (32 * (isl - 72)) 32 off ||
        (isl == 72 && (inInstances 0x600000 0x200 256 16 off || inInstances 0x800000 0x400 256 16 off))
      else isl < 88 && inInstances 0x140000 0x4000 (isl - 80) 1 off)

/-- A lane that has been reset: what it holds is gone, but for its calibration. -/
def resetLane (ln : Nat) (s : State) : State :=
  setLane ln { cal := (lane s ln).cal, eye := (lane s ln).eye } s

/-- An island that INT_SCAN has shifted is reset as it returns (R521): its registers take their reset values, but for the configuration,
which comes back from its in-use values (R506); its lanes hold no lock; its counter unit begins anew (R485). -/
def resetIsland (isl : Nat) (s : State) : State :=
  let s1 := forAll resetLane (if isl < 64 then (List.range 4).map fun i => 4 * isl + i else [])
    { s with regs := s.regs.filter fun c => !(islandOff isl (c.1 % viewSize) && !confKey c.1) }
  let u := isl - 64
  { s1 with
    svc := { s1.svc with scanned := s1.svc.scanned.filter (· != isl) },
    pmu := if isl < 64 then s1.pmu
      else { s1.pmu with ctrs := s1.pmu.ctrs.filter fun c => c.1 / 8 != u, latched := s1.pmu.latched.filter fun c => c.1 / 16 != u,
                         sync := kvDel u s1.pmu.sync, bases := kvPut u s1.elapsed s1.pmu.bases } }

/-- A returning unit is back in service at a generation boundary (R502, R506); an island's units with it, failed ones
apart, after its reset where it was scanned (R521). -/
def finishReturn (t : Transition) (s : State) : State :=
  let s0 := whenDo (t.kind == 9 && s.svc.scanned.contains t.index) (resetIsland t.index) s
  let s1 := setUnit t.kind t.index 0 (endTransition t.kind t.index s0)
  let s2 := if t.kind = 9 then
      forAll (fun u s => whenDo (unitSt s u.1 u.2 == 1 || unitSt s u.1 u.2 == 2) (setUnit u.1 u.2 0) s) (contained t.index) s1
    else s1
  answerTransition t 0 (stateResult s2 0 t.started) (unitShifts s true t.kind t.index s2)

/-- A generation boundary: every returning unit is back (R506). -/
def unitsReturn (s : State) : State :=
  forAll finishReturn (s.svc.transitions.filter fun t => t.phase == 3) s

/-! ## SET_STATE (R502 to R505, R521) -/

/-- The unit exists and the command may name it for that state (R505). -/
def nameable (s : State) (kind idx st : Nat) : Bool :=
  decide (idx < kindUnits kind) &&
    !((st == 1 || st == 2) && (kind == 6 && bankWorks s idx || kind == 7 && (channelOf s idx).isSome))

/-- An island takes the state now (R503, R521). -/
def islandMay (s : State) (idx st : Nat) : Bool :=
  decide (s.md.mode = .stage) && decide (idx < 92) && (st != 2 || s.prot.scanActive)

/-- Why a unit in service may not leave (R505). -/
def leaveRefusal (s : State) (kind idx : Nat) (force : Bool) : Option Nat :=
  match kind with
  | 2 => if (enginesIn s (idx / 8)).length - 1 < minEngines s (idx / 8) then some 0x102 else none
  | 3 => if bankHasRule s (idx / 8) (idx % 8) then some 0x104 else none
  | 4 => if unitAway s .trie (12 * (idx / 12 ^^^ 1) + idx % 12) && !force then some 0x103 else none
  | 5 => if basinCells s - groupCells - 16384 < sysReserve s + s.buf.sumMin + s.buf.sumHr then some 0x106 else none
  | _ => none

/-- A leave or a return begins. -/
def startShift (phase kind idx st : Nat) (nowait : Bool) (w : Waiter) (s : State) : CmdOut :=
  let t : Transition :=
    { kind := kind, index := idx, phase := phase, target := st, started := s.elapsed, waiter := if nowait then none else some w }
  let s1 := addTransition t s
  let s2 := if phase = 1 then unitShifts s false kind idx s1 else stopTests kind idx s1
  if nowait then okWith (stateResult s (unitSt s kind idx) s.elapsed) s2 else later s2

/-- SET_STATE of a unit in a transition: a leave or a return is withdrawn, and who waited for it is answered with the state
kept; anything else is BUSY (R502, R503). -/
def withdrawShift (t : Transition) (st : Nat) (s : State) : CmdOut :=
  let now := unitSt s t.kind t.index
  if (t.phase = 1 ∧ t.target ≠ 3 ∧ st = 0) ∨ (t.phase = 3 ∧ st ≠ 0) then
    let s1 := endTransition t.kind t.index s
    let s2 := answerTransition t 0 (stateResult s1 now t.started)
      (if t.phase = 1 then unitShifts s true t.kind t.index s1 else s1)
    let s3 := whenDo (t.phase == 3 && st != now) (setUnit t.kind t.index st) s2
    okWith (stateResult s3 st s3.elapsed) s3
  else refuse 0x108 s

/-- SVC SET_STATE. -/
def svcSetState : CmdSpec where
  target := 0xD
  opcode := 1
  form := .short
  changes := false
  modes := inStageRun
  regions := fun _ => []
  body := fun a s =>
    let w := bodyWord a.cmd 0x08
    let kind := fld 3 0 w
    let idx := fld 15 4 w
    let st := fld 17 16 w
    let now := unitSt s kind idx
    if !nameable s kind idx st then refuse 0x101 s
    else if st = 3 ∨ (kind = 9 ∧ islandMay s idx st = false) then refuse 0x10A s
    else if now = 3 then refuse 0x107 s
    else match transitionOf s kind idx with
    | some t => withdrawShift t st s
    | none =>
      if fillingSpare s kind idx then refuse 0x108 s
      else if now = st then okWith (stateResult s st s.elapsed) s
      else if now ≠ 0 ∧ st ≠ 0 then
        let s1 := setUnit kind idx st (whenDo (st == 1) (stopTests kind idx) s)
        okWith (stateResult s1 st s.elapsed) s1
      else match if now = 0 then leaveRefusal s kind idx (bit 25 w) else none with
      | some n => refuse n s
      | none =>
        if 4 ≤ s.svc.transitions.length then refuse 0x108 s
        else startShift (if now = 0 then 1 else 3) kind idx st (bit 24 w) a.who s

/-! ## RETIRE (R508 to R511) -/

/-- Units of the same bank group, or of the same HBM stack. -/
def samePool (kind a b : Nat) : Bool := if kind = 6 then a / 65 == b / 65 else a / 32 == b / 32

/-- A copy is already under way there (R503). -/
def copying (s : State) (kind idx : Nat) : Bool :=
  s.svc.transitions.any fun t => t.phase == 2 && t.kind == kind && samePool kind t.index idx

/-- A spare that is free for a unit: in service as a spare, in no transition and not being filled (R508, R509, R511). -/
def freeSpare (s : State) (kind idx : Nat) : Option Nat :=
  let pool := if kind = 6 then [65 * (idx / 65) + 64] else (List.range 32).map (32 * (idx / 32) + ·)
  pool.find? fun i => unitSt s kind i == 0 && (transitionOf s kind i).isNone && !fillingSpare s kind i &&
    (if kind = 6 then !bankWorks s i else (channelOf s i).isNone)

/-- The copy into a spare begins. -/
def startCopying (kind idx spare : Nat) (auto : Bool) (w : Option Waiter) (s : State) : State :=
  addTransition { kind := kind, index := idx, phase := 2, target := 3, started := s.elapsed, spare := some spare, auto := auto,
                  waiter := w } s

/-- SVC RETIRE. -/
def svcRetire : CmdSpec where
  target := 0xD
  opcode := 2
  form := .short
  changes := false
  modes := inStageRun
  regions := fun _ => []
  body := fun a s =>
    let w := bodyWord a.cmd 0x08
    let kind := fld 3 0 w
    let idx := fld 15 4 w
    let nowait := bit 24 w
    let wait := if nowait then none else some a.who
    if !((kind == 6 || kind == 7) && decide (idx < kindUnits kind)) then refuse 0x101 s
    else if unitSt s kind idx = 3 then refuse 0x107 s
    else if (transitionOf s kind idx).isSome ∨ fillingSpare s kind idx then refuse 0x108 s
    else if !(if kind = 6 then bankWorks s idx else (channelOf s idx).isSome) then refuse 0x101 s
    else if 4 ≤ s.svc.transitions.length ∨ copying s kind idx then refuse 0x108 s
    else match freeSpare s kind idx with
    | some i =>
      let s1 := startCopying kind idx i false wait s
      if nowait then okWith (toLE 4 i) s1 else later s1
    | none =>
      if kind = 7 ∧ bit 26 w then
        let s1 := noteChannels s (addTransition
          { kind := 7, index := idx, phase := 1, target := 3, started := s.elapsed, waiter := wait } s)
        if nowait then okWith (toLE 4 0xFFF) s1 else later s1
      else refuse 0x105 s

/-- The copy has ended (R508, R509): the spare takes the place, the old unit fails, two SERVICE events go out. -/
def finishCopying (t : Transition) (s : State) : State :=
  match t.spare with
  | none => s
  | some i =>
    let s1 := endTransition t.kind t.index s
    let s2 : State := if t.kind = 6 then
        { s1 with svc := { s1.svc with spares := kvPut (t.index / 65) (t.index % 65) s1.svc.spares } }
      else match channelOf s t.index with
        | some ch => { s1 with svc := { s1.svc with map := kvSet (32 * (ch / 30) + ch % 30) ch i s1.svc.map } }
        | none => s1
    let s3 := stickRg R.svcEvt 1 (setUnit t.kind i 0 (setUnit t.kind t.index 3 s2))
    answerTransition t 0 (toLE 4 i) (noteHealth t.kind t.index t.auto (some i) s3)

/-- AUTO_RETIRE: a working pseudo-channel has shown `errors` uncorrectable errors within 1 s (R511). -/
def autoRetire (idx errors : Nat) (s : State) : State :=
  let cfg := rg s R.svcCfg
  if bit 0 cfg && decide (fld 23 8 cfg ≤ errors) && decide (idx < 128) && (channelOf s idx).isSome &&
      unitSt s 7 idx == 0 && (transitionOf s 7 idx).isNone then
    match freeSpare s 7 idx with
    | none => stickRg R.svcEvt 3 s
    | some i =>
      if 4 ≤ s.svc.transitions.length ∨ copying s 7 idx then s
      else stickRg R.svcEvt 2 (alarm 0x0500 (88 + idx / 32) idx (startCopying 7 idx i true none s))
  else s

/-- AUTO_RETIRE: as RETIRE, in STAGE and RUN only (R503, R511). -/
def execAutoRetire (idx errors : Nat) (s : State) : Host.Outcome State Fault Refusal :=
  .next (whenDo (decide (s.md.mode = .stage) || decide (s.md.mode = .run)) (autoRetire idx errors) s)

/-! ## TEST (R507) -/

/-- The unit has a test of its own (R507). -/
def testable (kind idx : Nat) : Bool :=
  decide (idx < kindUnits kind) && (kind == 2 || kind == 3 || kind == 4 || kind == 5 || kind == 6 && idx % 65 == 64 ||
    kind == 7 || kind == 8)

/-- PRT_ENABLE.HEALTH_WRITE (R140). -/
def healthOpen (s : State) : Bool := bit 1 (rg s R.prtEnable)

/-- SVC TEST. With MARK it changes the health map where it fails, and so needs HEALTH_WRITE (R140, R507). -/
def svcTest : CmdSpec where
  target := 0xD
  opcode := 3
  form := .short
  changes := false
  modes := inStageRun
  regions := fun _ => []
  body := fun a s =>
    let w := bodyWord a.cmd 0x08
    let kind := fld 3 0 w
    let idx := fld 15 4 w
    if bit 27 w && !healthOpen s then refuse 5 s
    else if !testable kind idx then refuse 0x101 s
    else if unitSt s kind idx ≠ 2 then refuse 0x109 s
    else if (transitionOf s kind idx).isSome ∨ (s.svc.tests.any fun x => x.1 == kind && x.2.1 == idx) then refuse 0x108 s
    else later { s with svc := { s.svc with tests := s.svc.tests ++ [(kind, idx, bit 27 w, a.who)] } }

/-- An entry is changed by command: its EDITED bit and the header's (R513). -/
def healthEdit (o v : Nat) (s : State) : State :=
  let s1 := healthMark o (v ||| 4) s
  healthSeal (healthPut 4 (toLE 4 (healthNum s1 4 4 ||| 2 ^ 17)) s1)

/-- A test ends (R507), its traffic counted (R486): its result is written back; a failure marks the unit where MARK asks and the map may
be written (R513). -/
def finishTest (kind idx : Nat) (pass : Bool) (cause detail : Nat) (s : State) : State :=
  match s.svc.tests.find? fun x => x.1 == kind && x.2.1 == idx with
  | none => s
  | some (_, _, mark, w) =>
    let s0 := testTraffic kind idx s
    let s1 : State := { s0 with svc := { s0.svc with tests := s.svc.tests.filter fun x => !(x.1 == kind && x.2.1 == idx) } }
    let s2 := match healthOff kind idx with
      | some o => whenDo (!pass && mark && healthOpen s) (healthEdit o 0xB2) s1
      | none => s1
    answerCmd w 0 (toLE 4 (b2n pass + (if pass then 0 else cause % 16) * 16) ++ toLE 8 (if pass then 0 else detail)) s2

/-! ## The health map and unit states by command (R513, R524) -/

/-- SVC HEALTH_WRITE. -/
def svcHealthWrite : CmdSpec where
  target := 0xD
  opcode := 4
  form := .short
  changes := false
  modes := inOpen
  regions := fun _ => [8]
  body := fun a s =>
    let w := bodyWord a.cmd 0x08
    if !healthOpen s then refuse 5 s
    else if !healthEntry (fld 15 0 w) then refuse 0x10A s
    else ok (healthEdit (fld 15 0 w) (fld 23 16 w) s)

/-- SVC READ_STATE. -/
def svcReadState : CmdSpec where
  target := 0xD
  opcode := 5
  form := .short
  changes := false
  modes := inOpen
  regions := fun _ => []
  body := fun a s =>
    let w := bodyWord a.cmd 0x08
    let kind := fld 3 0 w
    let idx := fld 15 4 w
    if idx < kindUnits kind then
      okWith (toLE 4 (unitSt s kind idx + ((transitionOf s kind idx).map (·.phase)).getD 0 * 4)) s
    else refuse 0x101 s

/-- RETIRE (R508). -/
def execRetire (c : Cmd) (s : State) : Host.Outcome State Fault Refusal := .next (runCmd svcRetire c s)
/-- TEST (R507). -/
def execTest (c : Cmd) (s : State) : Host.Outcome State Fault Refusal := .next (runCmd svcTest c s)
/-- HEALTH_WRITE (R513). -/
def execHealthWrite (c : Cmd) (s : State) : Host.Outcome State Fault Refusal := .next (runCmd svcHealthWrite c s)
/-- READ_STATE (R524). -/
def execReadState (c : Cmd) (s : State) : Host.Outcome State Fault Refusal := .next (runCmd svcReadState c s)

/-- HEALTH_MAP_UPDATE: a completed retirement is written into the map (R512). -/
def execHealthMapUpdate (s : State) : Host.Outcome State Fault Refusal :=
  .next (match s.svc.notes with
    | [] => s
    | n :: ns =>
      let s1 : State := { s with svc := { s.svc with notes := ns } }
      let s2 := match healthOff n.kind n.index with
        | some o => healthMark o (3 + n.cause * 16) s1
        | none => s1
      match n.spare.bind (healthOff n.kind) with
      | some o => healthMark o (healthByte s2 o ||| 8) s2
      | none => s2)

/-! ## PARK (R515 to R519, R58, R59, R69) -/

/-- The map entries that a wave tests (R515); the recorder is tested with the HBM controller islands (DESIGN CHOICE,
assumption 51). -/
def waveEntries : Nat → List Nat
  | 1 => (List.range 256).map (0xA0 + ·) ++ (List.range 16).map (0x4E8 + ·)
  | 2 => (List.range 64).map (0x40 + ·)
  | 3 => (List.range 8).map (0x80 + ·) ++ (List.range 64).map (0x1E0 + ·) ++ (List.range 48).map (0x220 + ·)
  | 4 => (List.range 8).map (0x88 + ·)
  | 5 => (List.range 8).map (0x90 + ·) ++ (List.range 64).map (0x1A0 + ·)
  | 6 => [0x40 + 92]
  | 7 => (List.range 520).map (0x250 + ·)
  | 8 => (List.range 64).map (0x460 + ·)
  | 9 => (List.range 64).map (0x4A0 + ·)
  | 10 => [0x98, 0x99, 0x9A, 0x9B, 0x9D, 0x4E0]
  | 11 => (List.range 16).map (0x4F8 + ·)
  | 12 => [0x9E, 0x9F]
  | _ => []

/-- Map entries of the quads whose PLL lock has failed in wave 1 (R515, R517). -/
def pllFailed (fails : List (Nat × Nat)) : List Nat := (fails.filter fun f => f.2 % 16 == 4 && offIn 0x40 0x80 f.1).map (·.1)

/-- The entries that a wave writes: those it tests, and in wave 1 the quads whose PLL lock has failed. -/
def waveWrites (w : Nat) (fails : List (Nat × Nat)) : List Nat :=
  waveEntries w ++ if w = 1 then (pllFailed fails).eraseDups else []

/-- The median of the five temperature sensors, and the sensor entries that differ from it by more than 5 °C, with their CAUSE (R517). -/
def sensorReadings (t : Temps) : List Int := [t.die, t.hbm0, t.hbm1, t.hbm2, t.hbm3]
def sensorMedian (t : Temps) : Int := ((sensorReadings t).mergeSort (fun a b => decide (a ≤ b)))[2]?.getD 0
def sensorFails (s : State) : List (Nat × Nat) :=
  (((List.range 5).zip (sensorReadings s.therm.temps)).filter fun x =>
    decide (80 < (x.2 - sensorMedian s.therm.temps).natAbs)).map fun x => (0x4F8 + x.1, 7)

/-- The reference inputs that have been measured outside their window (R161, R517). -/
def refMeasured (s : State) (k : Nat) : Bool := (quad s (4 * k)).refOk || (quad s (4 * k)).refPpm != 0
def refFails (s : State) : List (Nat × Nat) :=
  ((List.range 16).filter fun k => refMeasured s k && !(quad s (4 * k)).refOk).map fun k => (0x4E8 + k, 5)

/-- What has failed in a wave: what the state itself decides, and for the rest what the tests have found. -/
def waveFails (w : Nat) (fails : List (Nat × Nat)) (s : State) : List (Nat × Nat) :=
  match w with
  | 1 => refFails s ++ fails.filter fun f => !(offIn 0x4E8 0x4F8 f.1 && refMeasured s (f.1 - 0x4E8))
  | 11 => sensorFails s ++ fails.filter fun f => !offIn 0x4F8 0x4FD f.1
  | _ => fails

/-- One entry after its test: RESULT 3 stays, its EDITED bit apart (R513), and so does the mark of a fatal fault in this PARK (R45);
SPARE_IN_USE stays (R517, R519). `fails` lists failed entries and causes. -/
def testedEntry (fails : List (Nat × Nat)) (o : Nat) (s : State) : State :=
  let v := healthByte s o
  if s.svc.parkFailed.contains o then s
  else if v % 4 = 3 then healthPut o (toLE 1 (v &&& 0xFB)) s
  else match fails.find? fun f => f.1 == o with
    | some f => healthPut o (toLE 1 ((v &&& 8) + 2 + f.2 % 16 * 16)) s
    | none => healthPut o (toLE 1 ((v &&& 8) + 1)) s

/-- PARK lasts `ms` more; master time moves with it until wave 10 (R69). -/
def parkPass (ms : Nat) (s : State) : State := passFor (msT ms) s

/-- The record of a wave (R519), its entries, FAILED, WAVES_DONE. -/
def waveResults (w peakW blocks : Nat) (fails : List (Nat × Nat)) (s : State) : State :=
  let s0 := forAll (testedEntry fails) (waveWrites w fails) s
  let s1 : State := { s0 with svc := { s0.svc with parkFailed := s0.svc.parkFailed ++ if w = 1 then pllFailed fails else [] } }
  let mine := (fails.filter fun f => (waveWrites w fails).contains f.1).length
  let rec16 := toLE 4 ((s.svc.waveFrom - s.svc.parkFrom) / msT 1) ++ toLE 4 ((s.elapsed - s.svc.waveFrom) / msT 1) ++
    toLE 4 (peakW % 65536 + blocks % 65536 * 65536) ++ toLE 4 (mine + 2 ^ 31)
  let s2 := healthPut (0x510 + 16 * (w - 1)) rec16 s1
  let failed := ((s2.mram.health.filter fun c => healthEntry c.1 && decide (2 ≤ c.2.toNat % 4)).length)
  healthSeal (healthPut 0x22 (toLE 2 failed) (healthPut 0xC (toLE 1 (12 + 16 * w)) s2))

/-- The last wave is done (R59): the map is whole, the cache refreshed, PARK_DONE. -/
def parkEnds (s : State) : State :=
  let s1 := healthPut 4 (toLE 4 (healthNum s 4 4 &&& 0xFFFC0000 ||| 1)) s
  let s2 := healthSeal (healthPut 0x1C (toLE 2 (unsgn 16 s.therm.temps.die)) s1)
  wEvent 5 { s2 with
    md := { s2.md with parkDone := true, wave := 0 },
    mram := { s2.mram with cache := { headerOk := true, createdSec := tSec s.now, dieTemp := s.therm.temps.die } } }

/-- The stored registers of some offsets are lost to a memory test (R69). -/
def loseRegs (gone : Nat → Bool) (s : State) : State :=
  { s with regs := s.regs.filter fun c => !gone (c.1 % viewSize) }

/-- The march test of two HBM stacks overwrites what lay on them: the recorder's ring with the regions of lost segments, and the
engine store (R59, R515). -/
def loseStacks (lo hi : Nat) (s : State) : State :=
  let kept := s.recd.segments.filter fun g => !offIn lo hi (slotIsland s g.2.slot - 88)
  { s with
    recd := { s.recd with segments := kept,
                          regions := s.recd.regions.filter fun r => r.2.seqs.all fun q => kept.any fun g => g.1 == q },
    eng := { s.eng with store := s.eng.store.filter fun c => !offIn (30 * lo) (30 * hi) (esLogical (4 * c.1)) } }

/-- What the tests of a wave destroy (R59, R69, R515): the registers, tables and programs that lie in the blocks under test. The
MAC statistics and the snapshot stand in the management island's copies (R58). -/
def waveLoses (w : Nat) (s : State) : State :=
  match w with
  | 2 => loseRegs (fun o => offIn 0x200000 0x240000 o || (offIn 0x400000 0x440000 o && decide (o % 0x400 < 0x100))) s
  | 3 => loseRegs (offIn 0xA0000 0x140000) { s with tab := {} }
  | 4 => loseRegs (fun o => offIn 0x600000 0x900000 o || offIn 0x1000000 0x1400000 o) s
  | 5 => loseRegs (offIn 0x140000 0x160000) { s with eng := { store := s.eng.store } }
  | 6 => loseRegs (offIn 0x60000 0x70000) s
  | 8 => loseStacks 0 2 s
  | 9 => loseStacks 2 4 s
  | 10 => loseRegs (offIn 0x50000 0x60000) (loseRegs (offIn 0x70000 0x80000) { s with tim := { s.tim with stopped := true } })
  | 12 =>
    loseRegs (fun o => offIn 0 0x50000 o || offIn 0x80000 0xA0000 o || offIn 0x180000 0x200000 o)
      { s with prot := { s.prot with committed := false, pending := none }, gen := {} }
  | _ => s

/-- What the beginning of a wave takes away: what its tests destroy, master time in wave 10, the PCIe link in wave 12
(R58, R69). -/
def waveBegins (w : Nat) (s : State) : State :=
  let s1 := waveLoses w { s with md := { s.md with wave := w }, svc := { s.svc with waveFrom := s.elapsed, batches := 0 } }
  if w = 12 then linkDown (ringsReset s1) else s1

/-- PARK_BATCH_START: a batch of stored power `figure` W starts where it and the input power measured over the preceding
10 µs stay within the cap, and the die allows it (R516, R551). -/
def execParkBatchStart (figure power : Nat) (s : State) : Host.Outcome State Fault Refusal :=
  .next (whenDo (decide (s.md.mode = .park) && s.md.wave != 0 && !s.svc.hot && decide (figure + power ≤ s.svc.capW))
    (fun s => { s with svc := { s.svc with batches := s.svc.batches + 1 } }) s)

/-- PARK_WAVE_COMPLETE: the wave in progress ends after `ms`; its results are written as a whole, and the next begins
(R59, R515, R519). -/
def execParkWaveComplete (ms peakW blocks : Nat) (fails : List (Nat × Nat)) (s : State) : Host.Outcome State Fault Refusal :=
  .next (whenDo (decide (s.md.mode = .park) && s.md.wave != 0)
    (fun s =>
      let w := s.md.wave
      let s1 := parkPass ms s
      let peak := max s1.svc.peakW (peakW % 65536)
      let s2 := healthPut 0x20 (toLE 2 peak) { s1 with svc := { s1.svc with peakW := peak } }
      let s3 := waveResults w peakW blocks (waveFails w fails s2) s2
      if w < 12 then waveBegins (w + 1) s3 else parkEnds s3) s)

end Sys2Proof.Machine
end

