-- ==== Sys2Proof/Machine/Time.lean ====
section
/-! DEFINITION. The commands and events of the time base but for the cycle edge (07_time). -/

namespace Sys2Proof.Machine

open Sys2Proof

/-! ## The counter -/

/-- One tick of the time island (R230, R231, R236): it runs from WAKE step 1 until the time base is scanned in PARK. -/
def tick (s : State) : State :=
  if s.md.mode = .reset ∨ s.tim.stopped then s else passFor Config.nsUnit s

/-! ## TIM_CMD (R235 to R239) -/

/-- The counter's commands act where TIM registers can be written. -/
def timOpen (s : State) : Bool := hostOpen s

/-- TIM_STATUS.CMD_RESULT. -/
def timResult (r : Nat) (s : State) : State := { s with tim := { s.tim with cmdResult := r } }

/-- A SET or STEP acts 128 ns later and ends a slew (R235); one that comes before the last has acted acts after it. -/
def startJump (set : Option Nat) (d : Int) (s : State) : State :=
  let j : Jump := ⟨s.now + nsT 128, set, d, decide (s.md.mode = .run) || decide (s.md.mode = .drain)⟩
  if s.tim.jump.isNone then { s with tim := { s.tim with jump := some j } }
  else { s with tim := { s.tim with jumps := s.tim.jumps ++ [j] } }

/-- SET (R235, R238, R239). -/
def timSet (s : State) : State :=
  if timSource s = 2 then timResult 1 s
  else if Config.nsPerSec ≤ rgF s R.timSetNs 29 0 then timResult 2 s
  else startJump (some (mkT (rg64 s R.timSetSec) (rgF s R.timSetNs 29 0))) 0 (timResult 0 s)

/-- SET. -/
def execSet (s : State) : Host.Outcome State Fault Refusal := .next (pf0Write R.timCmd timSet s)

/-- STEP (R235, R239). -/
def timStep (s : State) : State :=
  if timSource s = 2 then timResult 1 s else startJump none (sgn 64 (rg64 s R.timStep)) (timResult 0 s)

/-- STEP. -/
def execStep (s : State) : Host.Outcome State Fault Refusal := .next (pf0Write R.timCmd timStep s)

/-- A slew of `n` ns starts, or replaces the rest of the old one (R236). -/
def startSlew (n : Int) (s : State) : State := { s with tim := { s.tim with slewLeft := n * (Config.nsUnit : Int) } }

/-- SLEW (R236, R238, R239). -/
def timSlew (s : State) : State :=
  let n := sgn 32 (rg s R.timSlew)
  if timSource s = 2 then timResult 1 s
  else if 1000000000 < n ∨ n < -1000000000 then timResult 2 s
  else startSlew n (timResult 0 s)

/-- SLEW. -/
def execSlew (s : State) : Host.Outcome State Fault Refusal := .next (pf0Write R.timCmd timSlew s)

/-- SLEW_ABORT: the part not yet applied is discarded (R235). -/
def execSlewAbort (s : State) : Host.Outcome State Fault Refusal :=
  .next (pf0Write R.timCmd (fun s => timResult 0 (startSlew 0 s)) s)

/-- Generators after a jump to `new` (R258): edges passed by a forward jump are skipped and counted; the next edge lies at
or after the new time and beyond the last one made. `old` is the state before the jump. -/
def jumpGen (old : State) (g new : Nat) (s : State) : State :=
  if genOn s g then
    let skipped := firstEdge s g new - nextEdge s g
    let x := cycleGen s g
    addRg (R.timCgSkipped g) skipped
      (setGen g { x with since := new, lastOld := edgeBefore old g (min old.now new), oldSince := x.since } s)
  else s

/-- Where an instant lies on the master time after a jump of `d`: waits are times that pass, and the jump neither lengthens
nor ends them (assumption 60). -/
def moveT (d : Int) (t : Nat) : Nat := ((t : Int) + d).toNat

/-- The waits of links, lanes and ports after a jump (R191, R199, R210, R211, R217, R220). -/
def moveLinks (d : Int) (x : Links) : Links :=
  { x with
    lanes := x.lanes.map fun c => (c.1, { c.2 with goodSince := c.2.goodSince.map (moveT d) }),
    ports := x.ports.map fun c =>
      let mv := moveT d
      let snd (y : Sending) : Sending := { y with start := mv y.start }
      (c.1, { c.2 with
        goodSince := c.2.goodSince.map mv, holdFrom := mv c.2.holdFrom,
        pausedTill := c.2.pausedTill.map fun q => (q.1, mv q.2), xoffAt := c.2.xoffAt.map fun q => (q.1, mv q.2),
        verifyAt := c.2.verifyAt.map mv, busyTill := mv c.2.busyTill,
        downAt := c.2.downAt.map fun x => (mv x.1, x.2), sending := c.2.sending.map snd, preempted := c.2.preempted.map snd,
        ts := { c.2.ts with timer := c.2.ts.timer.map mv } }) }

/-- Every wait that is under way, after a jump of the master time by `d`. -/
def moveWaits (d : Int) (s : State) : State :=
  let mv := moveT d
  { s with
    lk := moveLinks d s.lk,
    eg := { s.eg with
      queues := s.eg.queues.map fun c => (c.1, { c.2 with levelAt := mv c.2.levelAt }),
      ports := s.eg.ports.map fun c => (c.1, { c.2 with levelAt := mv c.2.levelAt }) },
    buf := { s.buf with lastEvent := s.buf.lastEvent.map fun c => (c.1, mv c.2) },
    eng := { s.eng with faultAt := s.eng.faultAt.map fun c => (c.1, mv c.2) },
    tab := { s.tab with moves := s.tab.moves.map fun c => (c.1, (mv c.2.1, c.2.2)), fullAt := s.tab.fullAt.map mv },
    gen := { s.gen with autoFrom := s.gen.autoFrom.map mv },
    recd := { s.recd with lastTake := mv s.recd.lastTake, windowFrom := mv s.recd.windowFrom },
    tim := { s.tim with
      jump := s.tim.jump.map fun j => { j with due := mv j.due }, jumps := s.tim.jumps.map fun j => { j with due := mv j.due },
      refBack := s.tim.refBack.map mv, faultFrom := s.tim.faultFrom.map mv, resumeFrom := s.tim.resumeFrom.map mv,
      caps := s.tim.caps.map fun c =>
        (c.1, { c.2 with last := c.2.last.map mv, activeSince := c.2.activeSince.map mv }) } }

/-- The frames on their way to their slices keep the generation and the handling of their stamps (R36, R348). -/
def keepJudged (s : State) : State :=
  { s with lk := { s.lk with ingress := s.lk.ingress.map fun c =>
      (c.1, c.2.map fun w => { w with judged := some (genFor s w, handlingFor s w) }) } }

/-- A boundary already passed, after a jump to `new`: one that lies later counts as left behind, whatever a later stamp is (R348). -/
def boundaryAfter (new t : Nat) : Nat := if t ≤ new then t else 0

/-- TIME_JUMP_EFFECT: master and replicas jump together, a slew ends, commit and mode boundaries move with the jump
(R348), generators join the new time, and a jump accepted in RUN or DRAIN is fault 0x0102 (R235, R237, R258). -/
def timeJump (j : Jump) (s : State) : State :=
  let s0 := reach j.due s
  let new : Nat := match j.set with
    | some t => t % Config.timeMod
    | none => shiftT s0.now (j.step * (Config.nsUnit : Int))
  let s1 := moveWaits ((new : Int) - (s0.now : Int)) { keepJudged s0 with
    now := new, tim := { s0.tim with jump := s0.tim.jumps.head?, jumps := s0.tim.jumps.tail, slewLeft := 0 } }
  let s2 := forAll (fun g => jumpGen s0 g new) (List.range 32) s1
  let s3 := { s2 with
    md := { s2.md with
      tRun := s2.md.tRun.map fun r => if s2.md.mode = .stage then new else boundaryAfter new r,
      tDrain := s2.md.tDrain.map fun d => if s2.md.draining then boundaryAfter new d else new },
    gen := { s2.gen with
      effectAt := s2.gen.effectAt.map fun _ => new,
      byJump := s2.gen.effectAt.isSome,
      lastT := if s2.gen.effectAt.isSome then new else min s2.gen.lastT new,
      lastEffect := boundaryAfter new s2.gen.lastEffect } }
  whenDo j.inRun (timeFault 2 0x0102 0) s3

/-- TIME_JUMP_EFFECT. -/
def execTimeJumpEffect (s : State) : Host.Outcome State Fault Refusal :=
  .next (match s.tim.jump with
    | none => s
    | some j => timeJump j s)

/-- SLEW_COMPLETE: the ticks that the rest of the slew takes have passed and all of it has been added (R236). -/
def execSlewComplete (s : State) : Host.Outcome State Fault Refusal :=
  .next (if s.tim.slewLeft = 0 then s
    else
      let s1 := passFor (nsT (ceilDiv s.tim.slewLeft.natAbs (slewRate s))) s
      { s1 with tim := { s1.tim with slewLeft := 0 } })

/-- The largest magnitude of FREQ_ADJ: 1,000 ppm (R231). -/
def freqMax : Int := 281474976711

/-- FREQ_ADJ_WRITE: one word of the 64-bit register; the high word applies both (R9). A value out of range takes the nearer
bound and sets ADJ_SAT (R238); in SOURCE 1 and 2 the write is refused (R239). -/
def execFreqAdjWrite (high : Bool) (val : Word) (s : State) : Host.Outcome State Fault Refusal :=
  .next (pf0Write (R.timFreqAdj + 4 * b2n high)
    (fun s =>
      if !high then { s with lat := { s.lat with lowHeld := kvPut R.timFreqAdj val s.lat.lowHeld } }
      else
        let v := sgn 64 ((kvGetD 0 R.timFreqAdj s.lat.lowHeld).toNat + val.toNat * 2 ^ 32)
        let s1 := { s with lat := { s.lat with lowHeld := kvDel R.timFreqAdj s.lat.lowHeld } }
        if timSource s ≠ 0 then timResult 1 s1
        else
          let c := max (-freqMax) (min freqMax v)
          timResult 0 { s1 with tim := { s1.tim with freqAdj := c, adjSat := decide (c ≠ v) } }) s)

/-! ## Faults and references -/

/-- The TIM_FAULT bits whose condition still holds (R241, R243). -/
def timHolding (s : State) : Nat :=
  let on := bit 4 (cu s R.timCfg) && decide (1 ≤ timSource s)
  b2n (on && !s.tim.refPresent) * 8 + b2n (on && timSource s == 2 && !s.tim.ppsPresent) * 16

/-- TIME_FAULT_CLEAR: a W1C write of TIM_FAULT; a bit whose condition still holds stays; when all are clear FAULT falls and
release resumes at generator edges from then on (R243). -/
def execTimeFaultClear (w : Word) (s : State) : Host.Outcome State Fault Refusal :=
  .next (pf0Write R.timFault
    (fun s =>
      let old := rg s R.timFault
      let clear := w.toNat % 32 &&& old
      let new := (old - clear) ||| (timHolding s &&& old)
      let s1 := setRg R.timFault new s
      if old ≠ 0 ∧ new = 0 then { s1 with tim := { s1.tim with resumeFrom := some s.now, heldGens := List.range 32 } } else s1) s)

/-- TIME_BASE_FAULT: the time island PLL loses lock, or a replica cannot be held (R241). -/
def execTimeBaseFault (replica : Bool) (island : Nat) (s : State) : Host.Outcome State Fault Refusal :=
  .next (whenDo (decide (s.md.mode ≠ .reset)) (if replica then timeFault 1 0x0101 island else timeFault 0 0x0100 0) s)

/-- The reference that the loop uses is PPS_IN too. -/
def loopUses (s : State) (pps : Bool) : Bool := if pps then timSource s == 2 else decide (1 ≤ timSource s)

/-- The loop has lost a reference that it uses: holdover begins, with FREQ_ADJ held at `avg`; it is an alarm, and a time-base fault
with REF_LOSS_FAULT = 1 (R240, R241). -/
def loopLoses (pps : Bool) (avg : Int) (s : State) : State :=
  let s1 := { s with tim := { s.tim with holdover := true, locked := false, freqAdj := max (-freqMax) (min freqMax avg) } }
  let code := if pps then 0x0104 else 0x0103
  if bit 4 (cu s R.timCfg) then timeFault (if pps then 4 else 3) code 0 s1 else alarm code 93 0 s1

/-- SOURCE has changed at `t`: without a loop there is no holdover and no lock; a reference that is lost and that the loop has not used
until now puts it in holdover; a loop that has all it now uses counts the 1 s to the end of its holdover from then (R239, R240).
`old` has the old values in use. -/
def sourceChange (t : Nat) (old s : State) : State :=
  let missing (pps : Bool) : Bool := loopUses s pps && !loopUses old pps && !(if pps then s.tim.ppsPresent else s.tim.refPresent)
  if timSource s = 0 then { s with tim := { s.tim with holdover := false, locked := false, refBack := none } }
  else
    let s1 := whenDo (missing true) (loopLoses true s.tim.freqAdj) (whenDo (missing false) (loopLoses false s.tim.freqAdj) s)
    if s1.tim.refBack.isSome && !refsPresent s1 then { s1 with tim := { s1.tim with refBack := none } }
    else if s1.tim.refBack.isNone then refsBack t s1
    else s1

/-- REFERENCE_LOST: TIMECLK_IN or PPS_IN is lost; where the loop uses it, FREQ_ADJ is held at its average of the last 10 s, `avg`
(R240, R241). -/
def execReferenceLost (pps : Bool) (avg : Int) (s : State) : Host.Outcome State Fault Refusal :=
  .next (whenDo (decide (s.md.mode ≠ .reset))
    (fun s =>
      let s1 := { s with tim := { s.tim with
        ppsPresent := s.tim.ppsPresent && !pps, refPresent := s.tim.refPresent && pps,
        refBack := if loopUses s pps then none else s.tim.refBack } }
      whenDo (loopUses s pps) (loopLoses pps avg) s1) s)

/-- REFERENCE_RETURN: the lost reference is back; where the loop has all the references it uses again, the 1 s timer to the end of
holdover starts (R240). -/
def execReferenceReturn (pps : Bool) (s : State) : Host.Outcome State Fault Refusal :=
  .next (whenDo (decide (s.md.mode ≠ .reset))
    (fun s =>
      let s1 := { s with tim := { s.tim with
        ppsPresent := s.tim.ppsPresent || pps, refPresent := s.tim.refPresent || !pps } }
      whenDo (loopUses s pps) (refsBack s.now) s1) s)

/-- HOLDOVER_END: 1 s after the reference's return the loop resumes (R240). -/
def execHoldoverEnd (s : State) : Host.Outcome State Fault Refusal :=
  .next (match s.tim.refBack with
    | none => s
    | some t =>
      let s1 := reach (t + secT 1) s
      { s1 with tim := { s1.tim with holdover := false, refBack := none } })

/-- LOOP_LOCKED: the frequency error has stayed below 1 ppb for 10 s; `adj` is the value the loop is using, which
TIM_FREQ_ADJ reads (R239). -/
def execLoopLocked (adj : Int) (s : State) : Host.Outcome State Fault Refusal :=
  .next (whenDo (decide (1 ≤ timSource s) && !s.tim.holdover && decide (s.md.mode ≠ .reset))
    (fun s => { s with tim := { s.tim with locked := true, freqAdj := max (-freqMax) (min freqMax adj) } }) s)

/-! ## PPS pins (R261) -/

/-- The signed offset of a time from the nearest whole second, in nanoseconds. -/
def secOffset (t : Nat) : Int := if 500000000 ≤ tNs t then (tNs t : Int) - 1000000000 else (tNs t : Int)

/-- PPS_IN_EDGE: the edge, which crossed the pin at `t` and whose pulse lasts 8 ns or more, is stamped less PPS_IN_COMP
(uncorrected in a time-base fault, R242); in SOURCE 2 hardware aligns to it, but for holdover: a
STEP in STAGE where the offset exceeds 1 ms, else a SLEW (R239, R240, R261). -/
def execPpsInEdge (t pulse : Nat) (s : State) : Host.Outcome State Fault Refusal :=
  .next (whenDo (decide (s.md.mode ≠ .reset) && decide (8 ≤ pulse))
    (fun s =>
      let comp := sgn 16 (fld 31 16 (cuAt s t R.timPpsCfg)) * (Config.nsUnit : Int)
      let st := stampCut (if faultAt s t then t else shiftT t (-comp))
      let s0 := reach t s
      let s1 := stickRg R.timPpsInNs 31 { s0 with tim := { s0.tim with ppsIn := st } }
      let o := secOffset st
      if timSource s = 2 ∧ !s.tim.holdover ∧ o ≠ 0 then
        if (1000000 < o ∨ o < -1000000) ∧ s.md.mode = .stage then startJump none (-o) s1 else startSlew (-o) s1
      else s1) s)

/-- A read answers a word to its sender. -/
def answer (v : Nat) (s : State) : State := { s with lat := { s.lat with rdata := BitVec.ofNat 32 v } }

/-- PPS_IN_READ: NEW clears; seconds and fraction are latched (R267). -/
def execPpsInRead (_pt : Party) (s : State) : Host.Outcome State Fault Refusal :=
  .next (whenDo (timOpen s)
    (fun s =>
      let t := s.tim.ppsIn
      let v := tNs t + (if bit 31 (rg s R.timPpsInNs) then 2 ^ 31 else 0)
      answer v (setRg R.timPpsInFrac (tFrac t) (setRg R.timPpsInSec (tSec t) (setRg R.timPpsInNs (tNs t) s)))) s)

/-- The first whole second at or after a time. -/
def nextSecond (t : Nat) : Nat := secT (ceilDiv t (secT 1))

/-- PPS_OUT_RISE: with OUT_EN = 1, at each whole second (R261). -/
def execPpsOutRise (s : State) : Host.Outcome State Fault Refusal :=
  .next (whenDo (bit 0 (cu s R.timPpsCfg) && !s.pins.ppsOut && decide (s.md.mode ≠ .reset) && !s.tim.stopped)
    (fun s =>
      let s1 := reach (nextSecond s.now) s
      { s1 with pins := { s1.pins with ppsOut := true, ppsRise := s1.elapsed } }) s)

/-- PPS_OUT_FALL: WIDTH_MS ms after the rise (R261). -/
def execPpsOutFall (s : State) : Host.Outcome State Fault Refusal :=
  .next (whenDo s.pins.ppsOut
    (fun s =>
      let s1 := reachElapsed (s.pins.ppsRise + msT (cuF s R.timPpsCfg 10 1)) s
      { s1 with pins := { s1.pins with ppsOut := false } }) s)

/-! ## TIO outputs (R260) -/

/-- The modes in which TIO pins may be outputs: not RESET, WAKE or PARK (R260). -/
def tioOpen (s : State) : Bool := hostOpen s

/-- The pulse that an output pin makes next: the edge, and when it starts (R260). -/
def tioPulse (s : State) (u : Nat) : Nat × Nat :=
  let g := fld 6 2 (cu s (R.timTioCfg u))
  let k := max (nextEdge s g) (match kvGet u s.tim.tioEdge with
    | some j => j + 1
    | none => 0)
  (k, shiftT (edgeAt s g k) (-(sixteenths 16 (cuF s (R.timTioComp u) 15 0))))

/-- An output pin goes active now. -/
def tioRise (u : Nat) (s : State) : State :=
  { s with pins := { s.pins with tioOut := s.pins.tioOut ++ [u] },
           tim := { s.tim with tioStart := kvPut u s.elapsed s.tim.tioStart } }

/-- TIO_OUTPUT_START: at E(k) − OUT_COMP an output pin goes active, once for each edge: for one that has been made already and
whose pulse is still due, else for the next (R260). -/
def execTioOutputStart (u : Nat) (s : State) : Host.Outcome State Fault Refusal :=
  let cfg := cu s (R.timTioCfg u)
  .next (whenDo (decide (u < 16) && tioOpen s && bit 0 cfg && !s.pins.tioOut.contains u)
    (fun s =>
      match s.tim.tioDue.find? fun d => d.1 == u with
      | some d =>
        let s1 := reachElapsed d.2 s
        tioRise u { s1 with tim := { s1.tim with tioDue := s1.tim.tioDue.erase d } }
      | none =>
        let e := tioPulse s u
        if !genOn s (fld 6 2 cfg) || timeHeld s e.2 then s
        else
          let s1 := reach e.2 s
          tioRise u { s1 with tim := { s1.tim with tioEdge := kvPut u e.1 s1.tim.tioEdge } }) s)

/-- TIO_OUTPUT_END: TIM_TIO_WIDTH ns after its start the pin goes inactive. -/
def execTioOutputEnd (u : Nat) (s : State) : Host.Outcome State Fault Refusal :=
  .next (whenDo (s.pins.tioOut.contains u)
    (fun s =>
      let s1 := reachElapsed (kvGetD 0 u s.tim.tioStart + nsT (cuF s (R.timTioWidth u) 29 0)) s
      { s1 with pins := { s1.pins with tioOut := s1.pins.tioOut.filter (· != u) } }) s)

/-! ## Capture units (R262 to R266) -/

/-- A pin's level as the board drives it. -/
def tioLevel (u : Nat) (high : Bool) (s : State) : State :=
  let rest := s.pins.tioIn.filter (· != u)
  { s with pins := { s.pins with tioIn := if high then rest ++ [u] else rest } }

/-- CAPTURE_EDGE: the level of pin u changes at `t` and stays for `pulse` ns; a pulse shorter than DEGLITCH is ignored and
counted; the edge is stamped less IN_COMP, uncorrected in a time-base fault (R242). A unit fed by a generator does not see its
pin (R259, R269). -/
def execCaptureEdge (u : Nat) (high : Bool) (t pulse : Nat) (s : State) : Host.Outcome State Fault Refusal :=
  let cfg := cu s (R.timTioCfg u)
  .next (whenDo (decide (u < 16) && hostOpen s && !bit 0 cfg)
    (fun s =>
      if bit 7 cfg && !fedUnit s u then
        if pulse < fld 19 10 cfg then incRg (R.timCapGlitch u) s
        else
          let comp := sixteenths 16 (fld 31 16 (cuAt s t (R.timTioComp u)))
          let st := stampCut (if faultAt s t then t else shiftT t (-comp))
          captureJudge u t st (high != bit 1 cfg) (tioLevel u high (reach t s))
      else tioLevel u high (reach t s)) s)

/-- STUCK_ACTIVE: the input of a unit that samples its pin stays active for STUCK µs: STUCK is set and alarm 0x0108 raised (R265). -/
def execStuckActive (u : Nat) (s : State) : Host.Outcome State Fault Refusal :=
  let n := cuF s (R.timCapStuck u) 19 0
  .next (match (capUnit s u).activeSince with
    | none => s
    | some t =>
      whenDo (decide (0 < n) && !(capUnit s u).stuck && readsPin s u)
        (fun s =>
          let s1 := reach (t + usT n) s
          alarm 0x0108 93 u (setCap u { capUnit s1 u with stuck := true } s1)) s)

/-- A read of a stamp FIFO's first word: the head is removed and its other words latched in `off + 4` to `off + 12`; with
the FIFO empty it returns 0 (R249). -/
def fifoRead (off : Nat) (fifo : List (List Nat)) (pop : List (List Nat) → State → State) (s : State) : State :=
  match fifo with
  | [] => answer 0 s
  | e :: es =>
    answer (nth 0 e 0) (pop es (setRg (off + 12) (nth 0 e 3) (setRg (off + 8) (nth 0 e 2) (setRg (off + 4) (nth 0 e 1) s))))

/-- TXF_READ (R249). The instance of an unused port number reads 0 and gives up no stamp (R12). -/
def execTxfRead (_pt : Party) (p : Nat) (s : State) : Host.Outcome State Fault Refusal :=
  .next (whenDo (timOpen s && decide (p < 256))
    (fun s => if unusedNumber s p then answer 0 s
      else fifoRead (R.timTxfE0 p) (txStamps s p).fifo (fun es s => setTxStamps p { txStamps s p with fifo := es } s) s) s)

/-- CAPTURE_FIFO_READ (R266). -/
def execCaptureFifoRead (_pt : Party) (u : Nat) (s : State) : Host.Outcome State Fault Refusal :=
  .next (whenDo (timOpen s && decide (u < 16))
    (fifoRead (R.timCapE0 u) (capUnit s u).fifo fun es s => setCap u { capUnit s u with fifo := es } s) s)

/-- TIME_NOW_READ: the counter is sampled; its nanoseconds and seconds are latched (R232). -/
def execTimeNowRead (_pt : Party) (s : State) : Host.Outcome State Fault Refusal :=
  .next (whenDo (timOpen s)
    (fun s => answer (tFrac s.now) (setRg64 R.timNowSec (tSec s.now) (setRg R.timNowNs (tNs s.now) s))) s)

/-- The error of a replica within its bound (R28). -/
def boundedErr (e : Int) : Int := max (-Config.replicaBound) (min Config.replicaBound e)

/-- REPLICA_REALIGN: 64 ns after the last time every replica is aligned with the master, to within ±0.15 ns; `errs` are what is left
of their errors (R28). -/
def execReplicaRealign (errs : List Int) (s : State) : Host.Outcome State Fault Refusal :=
  .next (whenDo (decide (s.md.mode ≠ .reset) && !s.tim.stopped)
    (fun s =>
      let s1 := reachElapsed (s.tim.aligned + nsT 64) s
      { s1 with tim := { s1.tim with
          aligned := s1.elapsed, replicaErr := (List.range 72).map fun i => boundedErr (nth 0 errs i) } }) s)

end Sys2Proof.Machine
end

