-- ==== Sys2Proof/Machine/TimeEdge.lean ====
section
/-! DEFINITION. The edge of a cycle generator and what it drives (R256 to R259). -/

namespace Sys2Proof.Machine

open Sys2Proof

/-- Every Tsuip port that asks for the generator's marks queues those within its advance, and drops those of this edge and
before that still wait (R186). -/
def cycMarks (g : Nat) (s : State) : State :=
  forAll (fun p s => whenDo (portPresent s p && portTsuip s p && bit g (cu s (tsReg R.serTsCycEn p))) (tsFill p) s)
    (List.range 256) s

/-- The edge is the input of the capture unit it feeds (R259, R262). -/
def feedCapture (u t : Nat) (s : State) : State :=
  let s1 := captureJudge u t (stampCut t) true s
  setCap u { capUnit s1 u with level := (capUnit s u).level, activeSince := (capUnit s u).activeSince } s1

/-- The units that latch their cycle counter at the generator's edges (R493). -/
def syncUnits (g k : Nat) (s : State) : State :=
  forAll (fun u s =>
    let cfg := rg s (R.pmuSyncCfg u)
    whenDo (bit 8 cfg && fld 4 0 cfg == g && pmuPresent s u)
      (fun s => { s with pmu := { s.pmu with sync := kvPut u (pmuCycles s u s.elapsed % 2 ^ 64, k % 2 ^ 32) s.pmu.sync } }) s)
    (List.range 30) s

/-- The recorder at an edge: a marker record, and trigger 5 (R259, R472). -/
def edgeRecorder (g k t : Nat) (s : State) : State :=
  let s1 := whenDo (bit 2 (cu s (R.timCgCfg g)) && recLive s) (recMarker g k t) s
  let en := cu s R.recTrigEn
  whenDo (bit 3 en && fld 8 4 en == g) (recTrigger 5 g t) s1

/-- The output pins of a generator whose pulse comes after the edge: it is due then (R260). -/
def tioEdges (g k : Nat) (s : State) : State :=
  forAll (fun u s =>
    let cfg := cu s (R.timTioCfg u)
    let comp := sixteenths 16 (cuF s (R.timTioComp u) 15 0)
    whenDo (bit 0 cfg && fld 6 2 cfg == g && decide (comp < 0) && (kvGet u s.tim.tioEdge).all fun j => decide (j < k))
      (fun s => { s with tim := { s.tim with
        tioEdge := kvPut u k s.tim.tioEdge, tioDue := s.tim.tioDue ++ [(u, s.elapsed + comp.natAbs)] } }) s)
    (List.range 16) s

/-- Generator g makes its next edge. -/
def makeEdge (g : Nat) (s : State) : State :=
  let k := nextEdge s g
  let t := edgeAt s g k
  let cfg := cu s (R.timCgCfg g)
  if timeHeld s t then s
  else
    let s1 := cycMarks g (reach t s)
    let s2 := setGen g { cycleGen s1 g with k := some k, at_ := t, fresh := false, made := true }
      { s1 with tim := { s1.tim with heldGens := s1.tim.heldGens.filter (· != g) } }
    let s3 := whenDo (bit 1 cfg)
      (fun s => { s with eng := { s.eng with edges := kvMod [] g (fun l => ((k, t) :: l).take 16) s.eng.edges } }) s2
    let feed := whenDo (bit 8 cfg && bit 7 (cu s (R.timTioCfg (fld 15 12 cfg)))) (feedCapture (fld 15 12 cfg) t)
    syncUnits g k (oneCycle feed (edgeRecorder g k t) (tioEdges g k s3))

/-- CYCLE_EDGE: master time reaches E(k) of an enabled generator. -/
def execCycleEdge (g : Nat) (s : State) : Host.Outcome State Fault Refusal :=
  .next (whenDo (decide (g < 32) && genOn s g && !s.tim.stopped) (makeEdge g) s)

end Sys2Proof.Machine
end

