-- ==== Sys2Proof/Machine/Gen.lean ====
section
/-! DEFINITION. Configuration generations: the commit engine, its effects, settling, discarding and automatic commits
(10_generations, R341 to R357). -/

namespace Sys2Proof.Machine

open Sys2Proof

/-! ## Asking for a commit (R351, R355 to R357) -/

/-- The generator of a commit's state changed. -/
def modGen (f : Gen → Gen) (s : State) : State := { s with gen := f s.gen }

/-- A time given as seconds and nanoseconds; one that is malformed lies in the past, and so outside the bounds of R348
(R356). -/
def givenTime (sec ns : Nat) : Nat := if ns < Config.nsPerSec then mkT sec ns else 0

/-- Why a commit or a discard is refused at once (R351, R356): BUSY, MODE. An image's commit is allowed in WAKE. -/
def commitRefusal (s : State) (image : Bool) : Option Nat :=
  if s.gen.st ≠ 0 then some 0x101
  else if inStageRun s || (image && decide (s.md.mode = .wake)) then none else some 8

/-- CHECKING begins. -/
def startChecking (timed : Option Nat) (auto : Bool) (w : Option Waiter) (waitIdle : Bool) (s : State) : State :=
  modGen (fun g => { g with st := 1, timed := timed, auto := auto, waiter := w, waitIdle := waitIdle, lastStatus := 0 }) s

/-- LAST_STATUS of GEN_STATUS. -/
def setLastStatus (n : Nat) (s : State) : State := modGen (fun g => { g with lastStatus := n }) s

/-- GEN COMMIT. With WAIT = 1 it is answered at IDLE (R357). -/
def genCommitCmd : CmdSpec where
  target := 8
  opcode := 1
  form := .short
  changes := false
  modes := inAny
  regions := fun _ => []
  body := fun a s =>
    let w := bodyWord a.cmd 0x08
    let image := a.who.via == .image
    match commitRefusal s image with
    | some n => refuse n (setLastStatus n s)
    | none =>
      let timed := if bit 0 w then some (givenTime (ofLE (bodyAt a.cmd 0x0C 8)) (fld 29 0 (bodyWord a.cmd 0x14))) else none
      later (startChecking timed false (some a.who) (bit 1 w) s)

/-- DISCARDING begins. -/
def startDiscard (w : Option Waiter) (s : State) : State :=
  modGen (fun g => { g with st := 5, waiter := w, auto := false, lastStatus := 0 }) s

/-- GEN DISCARD_STAGED. -/
def genDiscardCmd : CmdSpec where
  target := 8
  opcode := 2
  form := .short
  changes := false
  modes := inAny
  regions := fun _ => []
  body := fun a s =>
    match commitRefusal s (a.who.via == .image) with
    | some n => refuse n (setLastStatus n s)
    | none => later (startDiscard (some a.who) s)

/-- GEN_STATUS and GEN_INFLIGHT (R355, R356). -/
def genStatusWord (s : State) : Nat :=
  s.gen.st + b2n s.gen.dirty * 16 + b2n s.gen.learnPending * 32 + s.gen.lastStatus * 2 ^ 16
def genInflight (s : State) : Nat := if s.gen.st = 3 then inflight s (1 - curPar s) else 0

/-- GEN STATUS. -/
def genStatusCmd : CmdSpec where
  target := 8
  opcode := 3
  form := .short
  changes := false
  modes := inOpen
  regions := fun _ => []
  body := fun _ s => okWith (toLE 4 s.gen.current ++ toLE 4 (genStatusWord s) ++ toLE 4 (genInflight s)) s

/-- A GEN_CMD write of PF0 (R355, R356): outside IDLE it only sets LAST_STATUS to BUSY. -/
def genCmdWrite (f : State → State) (s : State) : State :=
  pf0Write R.genCmd (fun s => match commitRefusal s false with
    | some n => setLastStatus n s
    | none => f s) s

/-- GEN_CMD with another CMD (R355). -/
def genCmdOther (s : State) : State :=
  pf0Write R.genCmd (fun s => setLastStatus (if s.gen.st = 0 then 3 else 0x101) s) s

/-- COMMIT: by the GEN command, or by GEN_CMD with CMD 1. -/
def execCommit (c : Option Cmd) (s : State) : Host.Outcome State Fault Refusal :=
  .next (match c with
    | some d => runCmd genCommitCmd d s
    | none => genCmdWrite (startChecking none false none false) s)

/-- COMMIT_AT: by the GEN command COMMIT with TIMED, or by GEN_CMD with CMD 2 toward GEN_AT. -/
def execCommitAt (c : Option Cmd) (s : State) : Host.Outcome State Fault Refusal :=
  .next (match c with
    | some d => runCmd genCommitCmd d s
    | none => genCmdWrite (fun s =>
        startChecking (some (givenTime (rg64 s R.genAtSec) (rgF s R.genAtNs 29 0))) false none false s) s)

/-- DISCARD_STAGED: by the GEN command, or by GEN_CMD with CMD 3. -/
def execDiscardStaged (c : Option Cmd) (s : State) : Host.Outcome State Fault Refusal :=
  .next (match c with
    | some d => runCmd genDiscardCmd d s
    | none => genCmdWrite (startDiscard none) s)

/-- GEN_STATUS. -/
def execGenStatus (c : Cmd) (s : State) : Host.Outcome State Fault Refusal := .next (runCmd genStatusCmd c s)

/-! ## CHECKING ends (R347, R348) -/

/-- The number of the generation that a commit makes (R341). -/
def nextGen (s : State) : Nat := (s.gen.current + 1) % 2 ^ 32

/-- Who waits for a commit is answered; nobody waits any more. -/
def answerGen (status : Nat) (result : List Byte) (s : State) : State :=
  match s.gen.waiter with
  | none => s
  | some w => modGen (fun g => { g with waiter := none }) (answerCmd w status result s)

/-- RESULT of COMMIT (R357). -/
def commitResult (gen t reports : Nat) : List Byte :=
  toLE 4 gen ++ toLE 8 (tSec t) ++ toLE 4 (tNs t) ++ toLE 4 (reports % 65536)

/-- The time chosen for a commit lies outside its bounds (R348). -/
def badTime (s : State) : Bool :=
  match s.gen.timed with
  | none => false
  | some t => decide (t < s.now + usT 10) || decide (s.now + secT 10 < t)

/-- The commit is refused: IDLE, and the staged values stay (R128, R347). An automatic commit that is refused falls due
again an interval later. -/
def refuseCommit (status : Nat) (rs : List Clamp) (s : State) : State :=
  let g := nextGen s
  let s1 := reportAll g true (status == 0x102) rs s
  let s2 := modGen (fun x => { x with
    st := 0, lastStatus := status, reports := rs.length, autoFrom := if x.auto then some s.now else x.autoFrom }) s1
  answerGen status [] (emitCommit 1 g status s2)

/-- The commit is accepted: T is chosen (R347, R348). -/
def acceptCommit (c : Check) (s : State) : State :=
  let g := nextGen s
  let t := s.gen.timed.getD (effectTime s)
  let s1 := drew { c.st with gen := { c.st.gen with
    st := 2, dirty := false, learnPending := false, autoFrom := none, effectAt := some t, byJump := false, lastT := t, lastStatus := 0,
    reports := c.reports.length } }
  let s2 := reportAll g false false c.reports s1
  let s3 := whenDo (c.reports.any fun r => r.guar) (breach 1) s2
  let pool := c.reports.any fun r => r.guar && decide (0x60000 ≤ r.id % 2 ^ 26) && decide (r.id % 2 ^ 26 < 0x70000) &&
    (r.id % 2 ^ 26 == R.bpmCfg && decide (r.id / 2 ^ 26 = 16) && decide (r.written ≤ 100) || decide (0x64000 ≤ r.id % 2 ^ 26))
  let s4 := emitCommit (if s.gen.auto then 3 else 0) g 0 (incRg64 R.genCommits (whenDo pool (stickRg R.bpmStatus 3) s3))
  if s.gen.waitIdle then s4 else answerGen 0 (commitResult g t c.reports.length) s4

/-- The range check ends. -/
def checkDone (s : State) : State :=
  if s.gen.st = 1 then
    let c := rangeCheck s
    if clampRefused s c.reports then refuseCommit 0x102 c.reports s
    else if badTime s then refuseCommit 0x103 c.reports s
    else acceptCommit c s
  else s

/-! ## The effect time (R124, R164, R206, R212, R257, R441, R506) -/

/-- The class C words whose staged value differs from the one in use. -/
def changedWords (s : State) : List Nat :=
  (classCWords s).filter fun o => regWord s.regs o != regWord s.regs (o + viewSize)

/-- The change of a word interrupts its quad's ports: any SER field but SQUELCH and SER_LANE_EQ (R164). -/
def disturbs (s : State) (o : Nat) : Bool :=
  decide (0x200000 ≤ o) && decide (o < 0x240000) &&
    (if 0x100 ≤ o % 0x1000 ∧ o % 0x1000 < 0x200 then
      (if o % 0x40 = 0 then
        (rg s o ||| 0xF000) != ((regWord s.regs (o + viewSize)).toNat ||| 0xF000)
      else o % 0x40 != 4)
    else true)

/-- A lane of a reconfigured quad finds its lock again. -/
def laneRestart (ln : Nat) (s : State) : State :=
  match kvGet ln s.lk.lanes with
  | none => s
  | some l => setLane ln { l with lock := false, hiBer := false, goodSince := none } s

/-- A port of a quad whose SER configuration changes at T (R164): it goes down; where its number exists no longer, its queues
are flushed. `m` is the quad's new mode. -/
def portAtChange (m j p : Nat) (s : State) : State :=
  let stays := modeHas m j
  let s1 := if (port s p).up then portDown p (if stays then .link else .admin) s
    else whenDo (modeHas (quad s (p / 4)).mode j && !stays) (flushDown p) s
  match kvGet p s1.lk.ports with
  | none => whenDo (stays && modeTsuip m) (modPort p fun x => { x with ts := { x.ts with st := 1 } }) s1
  | some x => setPort p { x with ts := if stays && modeTsuip m then { st := 1 } else {}, tsOut := {}, aligned := false,
                                 anDone := false, faultSig := false, goodSince := none } s1

/-- A quad takes its new configuration. `old` is the state before T; `s` has the new values in use. -/
def quadChange (q : Nat) (s : State) : State :=
  let m := cuF s (R.serCfg q) 3 0
  let s1 := forAll (fun j => portAtChange m j (4 * q + j)) (List.range 4) s
  forAll (fun i => laneRestart (4 * q + i)) (List.range 4) (setQuad q { quad s1 q with mode := m } s1)

/-- A port that is down is flushed when its ADMIN_UP becomes 0 (R222). -/
def adminFlush (changed : List Nat) (s : State) : State :=
  forAll (fun p s => whenDo (!(port s p).up && !bit 0 (cu s (R.macCfg p))) (flushDown p) s)
    ((List.range 256).filter fun p => changed.contains (R.macCfg p)) s

/-- The references whose declared frequency or spread changed are judged again (R161). -/
def refsChange (changed : List Nat) (old s : State) : State :=
  forAll (fun k => refclkRejudge k old) ((List.range 16).filter fun k => changed.contains (R.serRefclk (4 * k))) s

/-- The settings of generator g are among the changed words. -/
def genTouched (changed : List Nat) (g : Nat) : Bool :=
  changed.any fun o => decide (R.timCgCfg g ≤ o) && decide (o < R.timCgCfg g + 0x20)

/-- A generator whose settings changed takes them up at T (R257, R258, R376). -/
def generatorChange (t : Nat) (changed : List Nat) (old : State) (g : Nat) (s : State) : State :=
  if genTouched changed g then
    let x := cycleGen s g
    let mine (u : Nat) : Bool := cuF s (R.timTioCfg u) 6 2 == g
    let s1 := setGen g { x with
        since := t, fresh := true, made := false, oldSince := x.since,
        lastOld := if genOn old g then edgeBefore old g (t - 1) else none }
      { s with tim := { s.tim with tioEdge := s.tim.tioEdge.filter fun c => !mine c.1 } }
    if bit 1 (cu s (R.timCgCfg g)) then s1 else { s1 with eng := { s1.eng with edges := kvDel g s1.eng.edges } }
  else s

/-- The input of a capture unit at T (R265): one that samples its pin, newly or by another ACTIVE_LOW, is active or not from then on; one
that stops sampling it is active no longer, and not stuck. -/
def capChange (t : Nat) (changed : List Nat) (old : State) (u : Nat) (s : State) : State :=
  let was := readsPin old u
  if readsPin s u then whenDo (!was || changed.contains (R.timTioCfg u)) (inputLevel u t (pinActive s u)) s
  else whenDo was (inputLevel u t false) s

/-- The pins at T (R260): one that is no output stops driving; a pin whose options changed makes its next pulse by them. -/
def tioChange (t : Nat) (changed : List Nat) (old : State) (u : Nat) (s : State) : State :=
  capChange t changed old u (if changed.contains (R.timTioCfg u) then
    { s with
      pins := { s.pins with tioOut := s.pins.tioOut.filter fun v => v != u || bit 0 (cu s (R.timTioCfg u)) },
      tim := { s.tim with tioEdge := kvDel u s.tim.tioEdge, tioDue := s.tim.tioDue.filter fun d => d.1 != u } }
  else s)

/-- The marks of one generator on a Tsuip port, where the generator or its enable changed: the waiting ones are of edges that are
not made. -/
def markOne (changed : List Nat) (old : State) (p g : Nat) (s : State) : State :=
  let on := genOn s g && bit g (cu s (tsReg R.serTsCycEn p))
  let was := genOn old g && bit g (cu old (tsReg R.serTsCycEn p))
  if genTouched changed g || on != was then
    modOut p (fun x => { x with marks := x.marks.filter (fun m => m.1 != g), next := kvDel g x.next }) s
  else s

/-- The CYC marks of a Tsuip port where a generator's settings or its SER_TS_CYC_EN changed (R186). -/
def markChange (changed : List Nat) (old : State) (p : Nat) (s : State) : State :=
  if portPresent s p && portTsuip s p then
    forAll (markOne changed old p) (List.range 32) s
  else s

/-- A shaper's level at T (R441): brought up at the old rate, cut to the new BURST; forgiven where FORGIVE asks; BURST where
SHAPE_EN rises. -/
def shaperLevel (turnedOn changed forgive : Bool) (level : Int) (burst : Nat) : Int :=
  let b := (burst : Int) * byteUnit
  if turnedOn then b
  else
    let l := min b level
    if changed && forgive then max 0 l else l

/-- The shapers of a port at T. `old` has the old values in use. -/
def shapersChange (old : State) (p : Nat) (s : State) : State :=
  let differ (a b : Nat) : Bool := cu old a != cu s a || cu old b != cu s b
  let onP := bit 0 (cu s (R.schPortCfg p))
  let s1 := setSched p { sched s p with
    level := shaperLevel (onP && !bit 0 (cu old (R.schPortCfg p))) (differ (R.schPortRate p) (R.schPortBurst p))
      (bit 1 (cu s (R.schPortCfg p))) (portLevel old p) (cuF s (R.schPortBurst p) 23 0), levelAt := s.now } s
  forAll (fun q s =>
    let on := bit 4 (cu s (R.schQCfg p q))
    setQueue p q { queue s p q with
      level := shaperLevel (on && !bit 4 (cu old (R.schQCfg p q))) (differ (R.schQRate p q) (R.schQBurst p q))
        (bit 5 (cu s (R.schQCfg p q))) (queueLevel old p q) (cuF s (R.schQBurst p q) 23 0), levelAt := s.now } s)
    (List.range 8) s1

/-- Deferred copies look for their opening again when a generator has changed (R445, R454). -/
def redefer (s : State) : State :=
  forAll (fun c => deferCopy c s.now)
    (s.eg.queues.flatMap fun x => x.2.copies.filter fun c => c.deferred && c.port < 256) s

/-- The blocks of a range of BAR0 that hold changed words: their instances. -/
def touchedIn (changed : List Nat) (base stride n : Nat) : List Nat :=
  ((changed.filter fun o => decide (base ≤ o) && decide (o < base + stride * n)).map fun o => (o - base) / stride).eraseDups

/-- What follows at `t` from values in use that have changed from those of `old` to those of `s`: quads and ports, units that return,
headroom and pools, links, generators, marks, shapers, deferred copies, pins, the loop, buckets (R124, R347). -/
def useFollows (t : Nat) (changed : List Nat) (old s : State) : State :=
  let s1 := unitsReturn (forAll quadChange (touchedIn (changed.filter (disturbs old)) 0x200000 0x1000 64) s)
  let s2 := setHeadrooms s1
  let s3 : State := { s2 with buf := { s2.buf with sumMin := sumOfMin s2, sumHr := sumOfHeadroom s2 } }
  let s4 := linksEval (adminFlush changed (refsChange changed old s3))
  let s5 := forAll (markChange changed old) (List.range 256) (forAll (generatorChange t changed old) (List.range 32) s4)
  let s6 := forAll (shapersChange old) (touchedIn changed 0x800000 0x400 272) s5
  let s7 := whenDo ((List.range 32).any (genTouched changed)) redefer s6
  let s8 := whenDo (changed.contains R.recFateTrig || changed.contains R.recFateThresh)
    (modRec fun r => { r with windowFrom := t, fateCount := 0 }) s7
  let s9 := forAll (tioChange t changed old) (List.range 16) (whenDo (changed.contains R.timCfg) (sourceChange t old) s8)
  judgePressure (forAll judgePair allPairs (noteChannels old (noteEngines old (noteHops old s9))))

/-- The commit takes effect at T: the new number, the values in use, and all that follows from them (R124, R347). -/
def takeEffect (t : Nat) (s0 : State) : State :=
  let old := reach t s0
  let changed := changedWords old
  useFollows t changed old <| noteHeadgates old (modGen (fun g => { g with
    st := 3, current := nextGen old, effectAt := none, byJump := false, lastEffect := if g.byJump then 0 else t, startedAt := old.elapsed,
    before := changed.map fun o => (o, regWord old.regs (o + viewSize)) }) (useStaged old))

/-- COMMIT_EFFECT: master time reaches T. -/
def commitEffect (s : State) : State :=
  match s.gen.effectAt with
  | some t => if s.gen.st = 2 then takeEffect t s else s
  | none => s

/-! ## Settling and discarding (R349, R353) -/

/-- A table whose keys carry a parity in one bit, `w` keys apart: the current parity's content in both. -/
def mirrorKeys {α : Type} (w cur : Nat) (l : List (Nat × α)) : List (Nat × α) :=
  (l.filter fun c => c.1 / w % 2 == cur).foldl
    (fun a c => kvPut (if cur = 0 then c.1 + w else c.1 - w) c.2 (kvPut c.1 c.2 a)) []

/-- Class G registers: the current parity's value in both. -/
def mirrorRegs (s : State) : State :=
  let cur := curPar s
  let offs := (s.regs.foldl (fun a c =>
    match regAt (c.1 % viewSize) with
    | some h => if h.row.cls = .g then kvPut (c.1 % viewSize) () a else a
    | none => a) []).map (·.1)
  { s with regs := offs.foldl (fun r o => regStore (o + viewSize * (1 - cur)) (regWord s.regs (o + viewSize * cur)) r) s.regs }

/-- Every structure held per frame: the current side onto the other (R342, R349). -/
def mirror (s0 : State) : State :=
  let s := mirrorRegs s0
  let cur := curPar s
  let pick (a b : Bool) : Bool := if cur = 0 then a else b
  let t := s.tab
  { s with
    tab := { t with
      vals := mirrorKeys 1 cur t.vals,
      rules := (t.rules.map fun c => (c.1, { c.2 with v0 := pick c.2.v0 c.2.v1, v1 := pick c.2.v0 c.2.v1 })).filter
        fun c => c.2.v0 || (kvGet c.1 t.tcamBad).any fun b => pick b.1 b.2,
      tcamBad := t.tcamBad.map fun c => (c.1, (pick c.2.1 c.2.2, pick c.2.1 c.2.2)),
      fdb := (t.fdb.filter fun c => pick c.2.v0 c.2.v1).map fun c => (c.1, { c.2 with v0 := true, v1 := true, learned := false }),
      repl := (t.repl.filter fun c => pick c.2.v0 c.2.v1).map fun c => (c.1, { c.2 with v0 := true, v1 := true }),
      routes := (t.routes.filter fun r => (r.result cur).isSome).map fun r => { r with r0 := r.result cur, r1 := r.result cur } },
    eng := { s.eng with
      bundles := mirrorKeys 8192 cur s.eng.bundles,
      programs := mirrorKeys 8192 cur s.eng.programs,
      banks := mirrorKeys 16384 cur s.eng.banks } }

/-- No frame of the old parity is in flight, and none stamped before T is on its way to its slice (R347) or still being received:
`receiving` are the stamps of the frames being received (R36). -/
def oldDrained (s : State) (receiving : List Nat) : Bool :=
  inflight s (1 - curPar s) == 0 && receiving.all (fun ts => decide (s.gen.lastEffect ≤ ts)) &&
    s.lk.ingress.all fun c => c.2.all fun f => genFor s f == s.gen.current

/-- SETTLING copies the current side onto the other (R349). -/
def commitDrained (receiving : List Nat) (s : State) : State :=
  whenDo (s.gen.st == 3 && oldDrained s receiving) (fun s =>
    let s1 := mirror s
    modGen (fun g => { g with st := 4 }) { s1 with tab := { s1.tab with unitsHeld := lpmUnits s } }) s

/-- COMMIT_DRAINED. -/
def execCommitDrained (receiving : List Nat) (s : State) : Host.Outcome State Fault Refusal := .next (commitDrained receiving s)

/-- SETTLING ends: IDLE (R347). -/
def settled (s : State) : State :=
  if s.gen.st = 4 then
    let us := satTo 0xFFFFFFFF ((s.elapsed - s.gen.startedAt) / usT 1)
    let s1 := modGen (fun g => { g with st := 0, completeUs := us, completed := true, before := [] }) s
    answerGen 0 (commitResult s.gen.current s.gen.lastT s.gen.reports) (emitCommit 2 s.gen.current 0 s1)
  else s

/-- The current side is copied onto the staged side (R353). -/
def unstage (s : State) : State :=
  let s1 := mirror s
  let s2 : State := { s1 with
    regs := (classCWords s1).foldl (fun r o => regStore o (regWord s1.regs (o + viewSize)) r) s1.regs }
  modGen (fun g => { g with dirty := false, learnPending := false, autoFrom := none }) s2

/-- DISCARDING ends. -/
def discardDone (s : State) : State :=
  if s.gen.st = 5 then answerGen 0 [] (modGen (fun g => { g with st := 0 }) (unstage s)) else s

/-! ## Automatic commits (R354) -/

/-- AUTO_COMMIT_DUE: INTERVAL_MS after the first learned entry was staged. -/
def autoDue (s : State) : State :=
  let cfg := rg s R.genAutoCfg
  match s.gen.autoFrom with
  | none => s
  | some t =>
    if !bit 16 cfg || s.gen.st != 0 then s
    else
      let s1 := reach (t + msT (fld 15 0 cfg)) s
      if !inStageRun s1 then modGen (fun g => { g with autoFrom := some s1.now }) s1
      else if s1.gen.dirty then
        stickRg R.genEvt 1 (incRg R.genAutoDeferred (modGen (fun g => { g with autoFrom := some s1.now }) s1))
      else startChecking none true none false s1

/-- AUTO_COMMIT_DUE. -/
def execAutoCommitDue (s : State) : Host.Outcome State Fault Refusal := .next (autoDue s)

end Sys2Proof.Machine
end

