-- ==== Sys2Proof/Machine/SchedCmds.lean ====
section
/-! DEFINITION. The commands of the GCL and SCH targets (R463, R464), and which port numbers have register instances (R12,
R197). -/

namespace Sys2Proof.Machine

open Sys2Proof

/-- A port number has register instances of its own: it is none of the unused ones of its quad's mode in use (R12). -/
def portNamed (s : State) (p : Nat) : Bool := !unusedNumber s p

/-- PORT, FIRST and COUNT of a GCL command; a status where they are refused (R464). -/
def gclRun (s : State) (c : Cmd) : Except Nat (Nat × Nat × Nat) :=
  let p := bodyWord c 0x14 % 512
  let w := bodyWord c 0x18
  let n := fld 26 16 w
  let first := fld 9 0 w
  if 255 < p ∨ portNamed s p = false ∨ n = 0 ∨ 1024 < n ∨ 1024 < first + n then .error 0x101
  else if dataBytes c ≠ 8 * n then .error 4
  else .ok (p, first, n)

/-- One staged gate entry is written. -/
def gclPut (p j gates interval : Nat) (s : State) : State :=
  let k := viewSize * stagedPar s
  setRg (k + R.gclEntryInterval p j) (interval % 2 ^ 30) (setRg (k + R.gclEntryGates p j) (gates % 256) s)

/-- GCL WRITE_ENTRIES: entries of the staged parity; their ranges are checked at the commit. -/
def gclWriteEntries : CmdSpec where
  target := 0xA
  opcode := 1
  form := .readsBuf
  changes := true
  modes := inOpen
  ownLength := true
  regions := fun c => [0x100 + bodyWord c 0x14 % 512 / 4]
  body := fun a s =>
    match gclRun s a.cmd with
    | .error e => refuse e s
    | .ok (p, first, n) =>
      let ws := wordsLE (2 * n) a.buf
      ok (forAll (fun j s => gclPut p (first + j) (nth 0 ws (2 * j)) (nth 0 ws (2 * j + 1)) s) (List.range n) s)

/-- GCL READ_ENTRIES: entries of the parity named. -/
def gclReadEntries : CmdSpec where
  target := 0xA
  opcode := 2
  form := .writesBuf
  changes := false
  modes := inOpen
  ownLength := true
  regions := fun _ => []
  body := fun a s =>
    match gclRun s a.cmd with
    | .error e => refuse e s
    | .ok (p, first, n) =>
      let par := fld 31 31 (bodyWord a.cmd 0x18)
      okData ((List.range n).flatMap fun j =>
        toLE 4 (pg s par (R.gclEntryGates p (first + j))) ++ toLE 4 (pg s par (R.gclEntryInterval p (first + j)))) s

/-- The offset of counter k of queue q, in the order READ_COUNTERS gives them; k 10 and 11 are reserved (R459). -/
def schCounter (p i : Nat) : Nat := R.schSent p (i / 12) + 8 * (i % 12)

/-- SCH READ_COUNTERS: the 96 counters of a port, read and cleared at once. -/
def schReadCounters : CmdSpec where
  target := 0xB
  opcode := 1
  form := .writesBuf
  changes := false
  modes := inOpen
  regions := fun _ => []
  body := fun a s =>
    let p := bodyWord a.cmd 0x14 % 512
    if 271 < p ∨ portNamed s p = false then refuse 0x101 s
    else if dataBytes a.cmd ≠ 768 then refuse 4 s
    else okData ((List.range 96).flatMap fun i => toLE 8 (rg64 s (schCounter p i)))
      (forAll (fun i s => setRg64 (schCounter p i) 0 s) (List.range 96) s)

/-- WRITE_ENTRIES, READ_ENTRIES, SCH_READ_COUNTERS. -/
def execWriteEntries (c : Cmd) (s : State) : Host.Outcome State Fault Refusal := .next (runCmd gclWriteEntries c s)
def execReadEntries (c : Cmd) (s : State) : Host.Outcome State Fault Refusal := .next (runCmd gclReadEntries c s)
def execSchReadCounters (c : Cmd) (s : State) : Host.Outcome State Fault Refusal := .next (runCmd schReadCounters c s)

end Sys2Proof.Machine
end

