-- ==== Sys2Proof/Machine/Recorder.lean ====
section
/-! DEFINITION. The recorder's own rows (14_recorder): taking copies, writing records, sealing, triggers and commands of the
REC target, readout (R110, R111), and the HBM partition (R420). -/

namespace Sys2Proof.Machine

open Sys2Proof

/-! ## Taking copies (R465 to R468) -/

/-- Bytes rounded up to a multiple of 32. -/
def padded32 (n : Nat) : Nat := ceilDiv n 32 * 32

/-- The record of a frame taken now (R468): the header, the kept bytes, the FCS inverted where a word could not be read (R404), zeros up
to a multiple of 32. -/
def frameRecord (s : State) (x : Frame) : List Byte :=
  let body := x.bytes.take (x.bytes.length - 4)
  let data := if x.damaged then body ++ badFcs body else x.bytes
  let kept := min x.bytes.length (cuF s R.recCfg 29 16)
  let n := padded32 (64 + kept)
  let w0 := n + (x.par % 2) * 2 ^ 18 + b2n (decide (kept < x.bytes.length)) * 2 ^ 19 + b2n x.tsInvalid * 2 ^ 20 +
    b2n x.fr * 2 ^ 21 + b2n x.launch.isSome * 2 ^ 22 + b2n x.lossless * 2 ^ 23 + x.fate % 32 * 2 ^ 24 + x.prio % 8 * 2 ^ 29
  let mal := x.parsed.mal
  let gen := if x.par % 2 = curPar s then s.gen.current else s.gen.current + 2 ^ 32 - 1
  recHeader w0 (x.bytes.length % 2 ^ 14 + x.inPort * 2 ^ 14) x.ts (tFrac x.ts + x.stream * 2 ^ 16) x.hash
    ((if mal = 0 then x.rule else 0xFFFF) + mal % 16 * 2 ^ 16) gen (metaOf x) s.now ++
    data.take kept ++ List.replicate (n - 64 - kept) 0

/-- The cells that a record of n bytes is assembled in. -/
def recordCells (n : Nat) : Nat := ceilDiv n 256

/-- Why a copy taken is refused (R466); where several causes hold, the lowest code (assumption 42). -/
def refusalCause (s : State) (n : Nat) : Option Nat :=
  if 4096 < (s.recd.backlog.map fun r => r.cells).sum + recordCells n then some 1
  else if freeBasin s < 2048 + recordCells n then some 2
  else standingCause s

/-- A refusal counts for its cause and for the copy's stream; causes 1 and 2 are told by a loss record (R466), and cause 2 is an
EMPTY answer (R399). -/
def refuseCopy (cause : Nat) (x : Frame) (s : State) : State :=
  modRec (fun r => { r with
    loss := kvMod 0 x.stream (fun n => satTo 0xFFFFFFFF (n + 1)) r.loss,
    refused := if cause ≤ 2 then satTo 0xFFFFFFFF (r.refused + 1) else r.refused,
    refusedAt := if cause ≤ 2 ∧ r.refused = 0 then s.now else r.refusedAt })
    (whenDo (cause == 2) countEmpty (incRg (R.recRefused cause) s))

/-- A frame's copy is taken: a record waits, or a refusal is counted. Outside RUN and DRAIN nothing is written (R467). -/
def takeRecord (x : Frame) (s : State) : State :=
  let b := frameRecord s x
  match refusalCause s b.length with
  | some c => refuseCopy c x s
  | none => whenDo (recLive s) (recAppend 0 (recordCells b.length) b) s

/-- How a forwarding copy to P257 ends: R33 names no outcome for it, so its reason is a free value among the fates. -/
def endAtRecorder (c : Copy) (s : State) : State :=
  if c.fwd then finishCopy c (.gone (1 + draw s % 22)) (drew s) else finishCopy c .sent s

/-- A copy chosen at P257 leaves its queue and is taken, with its record where it is not refused (R440, R459, R466). -/
def recorderTakes (c : Copy) (ds ptr : List Nat) (s : State) : State :=
  let s1 := chargeShapers 257 c.queue (counted s c) (storeChoice 257 ds ptr s)
  let s2 := endSend 257 c s.now (shareRead c (removeCopy c s1))
  modPort 257 (fun y => { y with busyTill := s.now + 8 * counted s c * Config.nsUnit / 1600 })
    (endAtRecorder c (takeRecord (frame s c.frame) s2))

/-- RECORDER_TAKE: the scheduler's choice at P257 is taken, at 1,600 Gb/s of counted length at most (R436, R458, R465). -/
def execRecorderTake (ecc : Nat) (s : State) : Host.Outcome State Fault Refusal :=
  .next (whenDo (!fenceShut s)
    (fun s0 =>
      let s := reach (port s0 257).busyTill s0
      match chosen s 257 (fun _ => true) with
      | none => s
      | some (c, ds, ptr) => readThen ecc c (recorderTakes c ds ptr) s) s)

/-- RECORD_WRITE: the oldest assembled record goes into the open segment, over its pseudo-channel (R422, R467). -/
def execRecordWrite (s : State) : Host.Outcome State Fault Refusal :=
  .next (whenDo (recLive s)
    (fun s =>
      match s.recd.backlog, s.recd.current with
      | w :: _, some g =>
        hbmBurst (physicalOf s (slotChannel s g.slot)) 3 true (ceilDiv w.bytes.length 64) (recWriteOldest s)
      | _, _ => recWriteOldest s) s)

/-! ## Time-driven rows -/

/-- SEAL_IDLE_EXPIRY: a segment with a record that has taken none for SEAL_IDLE_MS is sealed (R471). -/
def execSealIdleExpiry (s : State) : Host.Outcome State Fault Refusal :=
  let ms := cuF s R.recCfg 15 8
  .next (match s.recd.current with
    | none => s
    | some g => if g.records.isEmpty ∨ ms = 0 then s else recSealOpen 1 (reach (s.recd.lastTake + msT ms) s))

/-- FATE_WINDOW_EXPIRY: a window of trigger 4 ends and the next begins (R472). -/
def execFateWindowExpiry (s : State) : Host.Outcome State Fault Refusal :=
  let w := msT (cuF s R.recFateTrig 31 16)
  .next (whenDo (bit 2 (cu s R.recTrigEn))
    (fun s =>
      let s1 := reach (s.recd.windowFrom + w) s
      modRec (fun r => { r with windowFrom := r.windowFrom + (s1.now - r.windowFrom) / max 1 w * w, fateCount := 0 }) s1) s)

/-! ## Commands (R475, R477, R481, R482) -/

/-- FREEZE: a host trigger; NO_REGION where it is a trigger during freeze. -/
def freezeNow (s : State) : State × Option Nat :=
  if triggerShut 1 s then (recTrigger 1 0 s.now s, none)
  else (recTrigger 1 0 s.now s, some (((List.range 4).find? fun i => (kvGet i s.recd.regions).isNone).getD 0))

/-- The HBM island of a segment. -/
def segIsland (s : State) (seq : Nat) : Nat :=
  match kvGet seq s.recd.segments with
  | some g => slotIsland s g.slot
  | none => recIsland s

/-- RELEASE frees a region at once (R475); none where it is free. -/
def releaseRegion (k : Nat) (s : State) : Option State :=
  match kvGet k s.recd.regions with
  | none => none
  | some x =>
    let first := x.seqs.headD 0
    some (emitRecorder 1 (segIsland s first) first x.trigger (modRec (fun r =>
      { r with regions := kvDel k r.regions, post := if r.post = some k then none else r.post }) s))

/-- SEAL_NOW: SEQ of the segment sealed; 0xFFFF_FFFF where the open segment is empty. -/
def sealNow (s : State) : State × Nat :=
  match s.recd.current with
  | some g => if g.records.isEmpty then (s, 0xFFFFFFFF) else (recSealOpen 7 s, g.seq)
  | none => (s, 0xFFFFFFFF)

/-- REC FREEZE. -/
def recFreezeCmd : CmdSpec where
  target := 0xE
  opcode := 1
  form := .short
  changes := false
  modes := inOpen
  regions := fun _ => []
  body := fun _ s =>
    match freezeNow s with
    | (s1, some k) => okWith (toLE 4 k) s1
    | (s1, none) => refuse 0x101 s1

/-- REC RELEASE. -/
def recReleaseCmd : CmdSpec where
  target := 0xE
  opcode := 2
  form := .short
  changes := false
  modes := inOpen
  regions := fun _ => []
  body := fun a s =>
    match releaseRegion (bodyWord a.cmd 0x08 % 4) s with
    | some s1 => ok s1
    | none => refuse 0x102 s

/-- REC SEAL_NOW. -/
def recSealCmd : CmdSpec where
  target := 0xE
  opcode := 3
  form := .short
  changes := false
  modes := inOpen
  regions := fun _ => []
  body := fun _ s => okWith (toLE 4 (sealNow s).2) (sealNow s).1

/-- The key that a KEY_ID names, where the device holds it. -/
def keyNamed (s : State) (id : Nat) : Option (List Byte) :=
  if s.recd.key.isSome && decide (id = s.mram.sealKeys) then s.recd.key
  else match s.recd.oldKey with
    | some (k, v) => if k = id then some v else none
    | none => none

/-- REC VERIFY: a segment that the host holds (R477). -/
def recVerifyCmd : CmdSpec where
  target := 0xE
  opcode := 4
  form := .readsBuf
  changes := false
  modes := inOpen
  regions := fun _ => []
  body := fun a s =>
    let b := a.buf
    if dataBytes a.cmd ≠ 2097152 then refuse 4 s
    else if ofLE (b.take 4) ≠ 0x47455352 ∨ ofLE ((b.drop 4).take 2) ≠ 1 ∨ ofLE ((b.drop 0x10).take 8) ≠ s.dev.uniqueId then
      refuse 0x103 s
    else
      let seq := toLE 4 (ofLE ((b.drop 8).take 4))
      match keyNamed s (ofLE ((b.drop 0xC).take 4)) with
      | none => okWith (toLE 4 0 ++ seq) s
      | some key =>
        let good := hmac key (b.take 0x1FFFE0) == (b.drop 0x1FFFE0).take 32
        okWith (toLE 4 (b2n good + 2) ++ seq) s

/-- REC READ_LOSS: refusal counts by stream handle, cleared on read. -/
def recReadLossCmd : CmdSpec where
  target := 0xE
  opcode := 5
  form := .writesBuf
  changes := false
  modes := inOpen
  regions := fun _ => []
  body := fun a s =>
    let first := bodyWord a.cmd 0x14 % 65536
    let n := bodyWord a.cmd 0x18 % 2 ^ 17
    if n = 0 ∨ 65536 < first + n ∨ dataBytes a.cmd ≠ 4 * n then refuse 4 s
    else okData ((List.range n).flatMap fun i => toLE 4 (kvGetD 0 (first + i) s.recd.loss))
      (modRec (fun r => { r with loss := r.loss.filter fun c => decide (c.1 < first) || decide (first + n ≤ c.1) }) s)

/-- FREEZE, RELEASE and SEAL_NOW, by the command or by REC_CMD (R481). -/
def execFreeze (c : Option Cmd) (s : State) : Host.Outcome State Fault Refusal :=
  .next (match c with
    | some c => runCmd recFreezeCmd c s
    | none => pf0Write R.recCmd (fun s => (freezeNow s).1) s)
def execRelease (c : Option Cmd) (region : Nat) (s : State) : Host.Outcome State Fault Refusal :=
  .next (match c with
    | some c => runCmd recReleaseCmd c s
    | none => pf0Write R.recCmd (fun s => (releaseRegion (region % 4) s).getD s) s)
def execSealNow (c : Option Cmd) (s : State) : Host.Outcome State Fault Refusal :=
  .next (match c with
    | some c => runCmd recSealCmd c s
    | none => pf0Write R.recCmd (fun s => (sealNow s).1) s)

/-- VERIFY, READ_LOSS. -/
def execVerify (c : Cmd) (s : State) : Host.Outcome State Fault Refusal := .next (runCmd recVerifyCmd c s)
def execReadLoss (c : Cmd) (s : State) : Host.Outcome State Fault Refusal := .next (runCmd recReadLossCmd c s)

/-! ## Readout (R110, R111) -/

/-- The segment a SEQ names, while its slot still holds it. -/
def segmentOf (s : State) (seq : Nat) : Option Segment :=
  match s.recd.current with
  | some g => if g.seq = seq then some g else kvGet seq s.recd.segments
  | none => kvGet seq s.recd.segments

/-- READOUT_REQUEST: the device fetches a readout descriptor. -/
def execReadoutRequest (s : State) : Host.Outcome State Fault Refusal :=
  let r := ring s .rdo 0
  .next (if hostOpen s && ringLive s .rdo 0 && decide (ringAvail r ≠ 0) then
      let d := dmaRead (slotAddr r r.fetch) 32 s
      let s1 := pmuEv 29 2 none none 32 (fetchSlots .rdo 0 1 none s)
      { s1 with host := { s1.host with readouts := s1.host.readouts ++ [⟨r.fetch, d, segmentOf s (ofLE ((d.drop 8).take 4))⟩] } }
    else s)

/-- What a readout of a segment gives: STATUS and the bytes. Where several hold, a bad request goes before a segment that is gone, and
that before a failed DMA: the spec gives no order (DESIGN CHOICE, assumption 42). -/
def readoutOf (s : State) (seq off n : Nat) : Nat × List Byte :=
  if off % 4096 ≠ 0 ∨ n % 4096 ≠ 0 ∨ n < 4096 ∨ 2097152 < off + n then (3, [])
  else match segmentOf s seq with
    | none => (2, [])
    | some g => (if g.sealedAt.isSome then 0 else 1, ((segBytes s g).drop off).take n)

/-- The bursts of a readout on the pseudo-channel of its segment (R422). -/
def readBursts (g : Option Segment) (n : Nat) (s : State) : State :=
  match g with
  | some g => hbmReadBack (physicalOf s (slotChannel s g.slot)) 4 (ceilDiv n 64) s
  | none => s

/-- READOUT_COMPLETE: the oldest readout is done; its bytes lie in the buffer, unless its DMA fails. A segment that was there when
the descriptor was fetched and has been overwritten since ends it as GONE, after `copied` of its bytes (R111). -/
def execReadoutComplete (dmaOk : Bool) (copied : Nat) (s : State) : Host.Outcome State Fault Refusal :=
  .next (match s.host.readouts with
    | [] => s
    | x :: rest =>
      let seq := ofLE ((x.desc.drop 8).take 4)
      let off := ofLE ((x.desc.drop 0xC).take 4) % 2 ^ 21
      let n := ofLE ((x.desc.drop 0x10).take 4) % 2 ^ 22
      let r := readoutOf s seq off n
      let bytes := match r.1, x.seg with
        | 2, some g => ((segBytes s g).drop off).take (min n copied)
        | _, _ => r.2
      let s1 := readBursts x.seg bytes.length { s with host := { s.host with readouts := rest } }
      if !dmaOk && decide (r.1 ≤ 1) then dmaStop .rdo 0 0 (failReadout 0 s)
      else
        fillSlots .rdo 0 [x.slot] (readoutBytes seq bytes.length r.1 (inFrozen s seq))
          (dmaWrite (ofLE (x.desc.take 8)) bytes s1))

/-! ## The partition of HBM (R420) -/

/-- A partition's fields are in their ranges, and its regions with the sidebands fit `n` channels of 768 MiB: in units of
1/16 GiB. -/
def partitionFits (n res recG es : Nat) : Bool :=
  decide (res ≤ 16) && decide (recG ≤ 64) && decide (es ≤ 8) && decide (17 * res + 16 * recG + 16 * es ≤ 12 * n)

/-- The logical channels the ring takes at its laying out, and its slots per channel (R469). -/
def layRing (s : State) : State :=
  let cs := (List.range 120).filter fun c => !s.svc.lostChannels.contains c
  modRec (fun r => { r with
    channels := cs, perChannel := s.buf.recGib * 512 / max 1 cs.length,
    segments := [], regions := [], post := none, current := none, nextSlot := 0 }) s

/-- A partition takes effect. -/
def setPartition (res recG es : Nat) (s : State) : State :=
  let s1 := setRg R.bpmHbmPart (res + recG * 2 ^ 8 + es * 2 ^ 16)
    { s with buf := { s.buf with resGib := res, recGib := recG, esGib := es } }
  recOpen (layRing s1)

/-- A write of BPM_HBM_PART, in STAGE or by an image in WAKE (R420). -/
def partitionWrite (v : Nat) (s : State) : State :=
  let res := fld 4 0 v
  let recG := fld 14 8 v
  let es := fld 19 16 v
  if (s.md.mode ≠ .stage ∧ s.md.mode ≠ .wake) ∨ partitionFits (resChannels s) res recG es = false then stickRg R.bpmStatus 1 s
  else if res = s.buf.resGib ∧ recG = s.buf.recGib ∧ es = s.buf.esGib then s
  else setPartition res recG es s

/-- HBM_PARTITION_WRITE. -/
def execHbmPartitionWrite (w : Word) (s : State) : Host.Outcome State Fault Refusal :=
  .next (pf0Write R.bpmHbmPart (partitionWrite w.toNat) s)

end Sys2Proof.Machine
end

