-- ==== Sys2Proof/Machine/HostPort.lean ====
section
/-! DEFINITION. The internal ports P256 and P258: delivery to receive rings, transmit rings, recirculation (R15, R85 to R96,
R244, R397, R411, R458). -/

namespace Sys2Proof.Machine

open Sys2Proof

/-! ## A copy that leaves over P256 or P258 -/

/-- The bytes of a copy as it leaves the egress editor, the FCS last: computed anew where the frame was changed, inverted
where a word of it could not be read (R85, R404, R553). -/
def internalBytes (s : State) (c : Copy) : List Byte :=
  let x := frame s c.frame
  let bs := if x.error then x.bytes else editTag s x c x.bytes
  let body := bs.take (bs.length - 4)
  if x.damaged then body ++ badFcs body
  else if x.error || (bs == x.bytes && !x.rewritten) then bs
  else body ++ fcsBytes body

/-- A copy that has been chosen at an internal port leaves its queue and is charged and counted (R438, R440, R459). -/
def leaveQueue (c : Copy) (ds ptr : List Nat) (s : State) : State :=
  let p := c.port
  let s1 := chargeShapers p c.queue (counted s c) (storeChoice p ds ptr s)
  endSend p c s.now (shareRead c (removeCopy c s1))

/-! ## Receive rings (R85 to R87, R95) -/

/-- The receive ring of a copy (R86). LOG2_COUNT 7, which R117 does not list, acts by the same formula (assumption 137). -/
def rxRingOf (s : State) (c : Copy) : Nat :=
  let special := rg s R.rngSpecial
  match c.reason with
  | 4 => fld 5 0 special
  | 3 => fld 13 8 special
  | 5 => fld 21 16 special
  | _ =>
    let m := rg s (R.rngRxqMap c.queue)
    (fld 5 0 m + fld 31 24 (frame s c.frame).hash % 2 ^ fld 8 6 m) % 64

/-- The bytes of one buffer of a receive ring, as it was enabled (R83, R115). -/
def rxBufSize (r : Ring) : Nat := fld 6 0 r.cfg * 256

/-- What is delivered of a copy: all of an error frame, else without the FCS unless KEEP_FCS is set (R85, R87). -/
def rxData (s : State) (c : Copy) (r : Ring) : List Byte :=
  let bs := internalBytes s c
  if (frame s c.frame).error || bit 8 r.cfg then bs else bs.take (bs.length - 4)

/-- The receive buffers that a copy needs (R85). -/
def rxBuffers (s : State) (c : Copy) (r : Ring) : Nat := max 1 (ceilDiv (rxData s c r).length (max 1 (rxBufSize r)))

/-- A copy's ring is enabled and has the descriptors it needs (R95). -/
def rxReady (s : State) (c : Copy) : Bool :=
  let n := rxRingOf s c
  ringLive s .rx n && decide (rxBuffers s c (ring s .rx n) ≤ ringAvail (ring s .rx n))

/-- The write-back of one receive descriptor (R84). -/
def rxBytes (x : Frame) (c : Copy) (used total : Nat) (first last kept : Bool) : List Byte :=
  let e := x.error
  toLE 4 (tSec x.ts) ++ toLE 4 (tNs x.ts) ++ toLE 4 (tFrac x.ts + used * 2 ^ 16) ++
    toLE 4 (total % 2 ^ 16 + x.inPort * 2 ^ 16 + x.par % 2 * 2 ^ 25 + c.queue % 8 * 2 ^ 26) ++
    toLE 4 (if e then 0 else x.hash) ++
    toLE 4 (if e then 0 else x.stream + metaOf x * 2 ^ 16) ++
    toLE 4 (x.err % 2 ^ 16 + c.reason % 16 * 2 ^ 16 + (if e then 0 else x.parsed.mal % 16) * 2 ^ 20 + b2n first * 2 ^ 24 +
      b2n last * 2 ^ 25 + b2n kept * 2 ^ 26) ++
    toLE 4 ((if e then 0xFFFF else x.rule % 2 ^ 16) + 2 ^ 31)

/-- One buffer of a delivery: descriptor read, data written, write-back noted. -/
def rxBuffer (n i k : Nat) (x : Frame) (c : Copy) (data : List Byte) (s : State) : State :=
  let r := ring s .rx n
  let size := max 1 (rxBufSize r)
  let part := (data.drop (size * i)).take size
  let a := ofLE (dmaRead (slotAddr r r.fetch) 8 s)
  fetchSlots .rx n 1
    (some (rxBytes x c part.length data.length (i == 0) (i + 1 == k) (x.error || bit 8 r.cfg)))
    (dmaWrite a part (pmuEv 29 2 none none 32 s))

/-- A copy is delivered whole; its frame's fate is decided at the last write-back (R86, R458). -/
def deliver (c : Copy) (ds ptr : List Nat) (s : State) : State :=
  let x := frame s c.frame
  let n := rxRingOf s c
  let data := rxData s c (ring s .rx n)
  let k := rxBuffers s c (ring s .rx n)
  let s1 := forAll (fun i => rxBuffer n i k x c data) (List.range k) (leaveQueue c ds ptr s)
  finishCopy c .host (drainWork .rx n s1)

/-- RX_DELIVERY: the scheduler's choice at P256 among the queues whose head finds its ring ready (R85, R95). -/
def execRxDelivery (ecc : Nat) (s : State) : Host.Outcome State Fault Refusal :=
  .next (whenDo (!fenceShut s)
    (fun s =>
      match chosen s 256 (fun q => (head s 256 q).any (rxReady s)) with
      | none => s
      | some (c, ds, ptr) => readThen ecc c (deliver c ds ptr) s) s)

/-! ## Transmit rings (R88 to R94) -/

/-- The words of the transmit descriptors handed over and not yet fetched, oldest first. -/
def txOffered (s : State) (n : Nat) : List (List Nat) :=
  let r := ring s .tx n
  (List.range (ringAvail r)).map fun i => wordsLE 8 (dmaRead (slotAddr r ((r.fetch + i) % r.size)) 32 s)

/-- FIRST and LAST of a descriptor. -/
def txFirst (d : List Nat) : Bool := bit 16 (nth 0 d 2)
def txLast (d : List Nat) : Bool := bit 17 (nth 0 d 2)

/-- How far the open frame runs: its number of descriptors and whether it ended with LAST; a FIRST ends it broken; none while
its LAST is still to come (R89). -/
def txSpan : Nat → List (List Nat) → Option (Nat × Bool)
  | _, [] => none
  | n, d :: r =>
    if txFirst d then some (n, false)
    else if txLast d then some (n + 1, true)
    else txSpan (n + 1) r

/-- The next frame of a ring: its descriptors and whether its form holds. A descriptor without FIRST stands alone. -/
def txNext (ds : List (List Nat)) : Option (List (List Nat) × Bool) :=
  match ds with
  | [] => none
  | d :: r =>
    if !txFirst d then some ([d], false)
    else if txLast d then some ([d], true)
    else (txSpan 1 r).map fun k => (ds.take k.1, k.2)

/-- The payload of a frame in bytes: the sum of BUF_BYTES. -/
def txLength (ds : List (List Nat)) : Nat := (ds.map fun d => fld 15 0 (nth 0 d 2)).sum

/-- The frame's length once it is padded and its FCS appended. -/
def txFrameLen (ds : List (List Nat)) : Nat := max 60 (txLength ds) + 4

/-- The launch time: LAUNCH_SEC extended to within 2^31 s of the present (R91). -/
def launchTime (s : State) (d : List Nat) : Nat :=
  let sec := tSec s.now
  let lo := nth 0 d 4
  let base := sec / 2 ^ 32 * 2 ^ 32 + lo
  let full := if sec + 2 ^ 31 < base ∧ 2 ^ 32 ≤ base then base - 2 ^ 32 else if base + 2 ^ 31 ≤ sec then base + 2 ^ 32 else base
  mkT full (fld 29 0 (nth 0 d 5))

/-- The frame lifetime limit in force. -/
def lifetime (s : State) : Nat := msT (cuF s R.bpmCfg 10 0)

/-- Why a frame of a ring is refused, as the STATUS of R93; 0 where it is not. Where several causes hold it is the lowest
code. A port that is absent for a reason R90 does not list, such as its quad being off or its lane failed, answers BAD_PORT all the
same (DESIGN CHOICE, assumption 180). -/
def txStatus (s : State) (ds : List (List Nat)) (form : Bool) : Nat :=
  let d := nth [] ds 0
  let c := nth 0 d 2
  let direct := bit 18 c
  let p := fld 8 0 (nth 0 d 3)
  let n := txLength ds
  if !form then 4
  else if n < 14 ∨ 15996 < n ∨ (direct ∧ portPresent s p ∧ cuF s (R.macMaxFrame p) 13 0 < n + 4) then 2
  else if direct ∧ !portPresent s p then 3
  else if !direct ∧ (bit 19 c ∨ bit 20 c) then 4
  else if direct ∧ bit 20 c ∧
      (Config.nsPerSec ≤ fld 29 0 (nth 0 d 5) ∨ s.now + lifetime s < launchTime s d + usT 10) then 5
  else 0

/-- The device fetches transmit descriptors: full access, no drain time passed, forwarding not fenced by a fault that is
being recorded (R54, R61, R96). -/
def txOpen (s : State) : Bool :=
  hostOpen s && !s.md.faultPending && (match s.md.tDrain with
    | some t => decide (s.now < t)
    | none => true)

/-- What a ring can do in its turn: its next frame and the STATUS that frame gets; none where it must wait, as it does while
its PRIO is in XOFF (R94). -/
def txOffer (s : State) (n : Nat) : Option (List (List Nat) × Nat) :=
  if ringLive s .tx n then
    (txNext (txOffered s n)).bind fun f =>
      let st := txStatus s f.1 f.2
      if st = 0 ∧ pairInXoff s 256 (fld 25 23 (nth 0 (nth [] f.1 0) 2)) then none else some (f.1, st)
  else none

/-- WEIGHT of a transmit ring, as it was enabled. -/
def txWeight (s : State) (n : Nat) : Nat := fld 6 0 (ring s .tx n).cfg

/-- The ring whose turn it is (R94): the present one until it has admitted its WEIGHT or must wait, then the next that can go
on. -/
def txTurnOf (s : State) : Option Nat :=
  let t := s.host.txTurn
  if (txOffer s t).isSome && decide ((ring s .tx t).turn < txWeight s t) then some t
  else ((List.range 64).map fun k => (t + k + 1) % 64).find? fun n => (txOffer s n).isSome

/-- The turn goes to ring n, which admits a frame where `admits` holds. -/
def takeTurn (n : Nat) (admits : Bool) (s : State) : State :=
  let r := ring s .tx n
  let used := if s.host.txTurn = n ∧ r.turn < txWeight s n then r.turn else 0
  let s1 := setRing .tx n { r with turn := used + b2n admits } s
  { s1 with host := { s1.host with txTurn := n } }

/-- The payload of a frame, read from its buffers. -/
def txPayload (s : State) (ds : List (List Nat)) : List Byte :=
  ds.flatMap fun d => dmaRead (nth 0 d 0 + nth 0 d 1 * 2 ^ 32) (fld 15 0 (nth 0 d 2)) s

/-- A frame of a ring enters S0, stamped as it is admitted (R15, R90, R244). -/
def txAdmit (n : Nat) (ds : List (List Nat)) (s : State) : State :=
  let d := nth [] ds 0
  let c := nth 0 d 2
  let direct := bit 18 c
  let pay := txPayload s ds
  let body := pay ++ List.replicate (60 - pay.length) 0
  let bs := body ++ fcsBytes body
  let r := ring s .tx n
  let k := ds.length
  let slots := (List.range k).map fun i => (r.fetch + i) % r.size
  let reports := direct && (bit 19 c || bit 20 c)
  let s1 := pmuEv 29 2 none none (32 * k + pay.length)
    (fetchSlots .tx n k (if reports then none else some (txBytes 0 0 0 0 0 0 false false false)) s)
  let launch := if bit 20 c then some (launchTime s d) else none
  drainWork .tx n (passToSlice 0
    { port := 256, bytes := bs, length := bs.length, ts := stampCut s.now, tsInvalid := timFault s, err := 0, prio := fld 25 23 c,
      overrun := false, meta16 := if direct then 0 else fld 31 16 (nth 0 d 3),
      direct := if direct then some (fld 8 0 (nth 0 d 3), bit 21 c, launch) else none,
      oneStep := bit 22 c, tsReq := direct && bit 19 c,
      txRing := if reports then some (n, slots, s.host.epoch) else none } s1)

/-- A frame of a ring is refused: its descriptors are written back with the status (R92, R93). -/
def txRefuse (n st : Nat) (ds : List (List Nat)) (s : State) : State :=
  drainWork .tx n (fetchSlots .tx n ds.length (some (txRefusal st)) (pmuEv 29 2 none none (32 * ds.length) s))

/-- A ring's turn: its next frame is admitted or refused; on EMPTY nothing is fetched (R397). -/
def txServe (n : Nat) (s : State) : State :=
  match txOffer s n with
  | none => s
  | some (ds, st) =>
    if st ≠ 0 then txRefuse n st ds (takeTurn n false s)
    else if emptyFor s (txFrameLen ds) then countEmpty s
    else txAdmit n ds (takeTurn n true s)

/-- TX_FRAME_ADMIT: ring n serves its next frame where the turn is its own (R94). -/
def execTxFrameAdmit (n : Nat) (s : State) : Host.Outcome State Fault Refusal :=
  .next (whenDo (txOpen s && txTurnOf s == some n) (txServe n) s)

/-! ## Recirculation (R15, R405) -/

/-- A copy chosen at P258 enters S0 as a new frame of P258, its ingress priority its egress queue. -/
def recirculate (c : Copy) (ds ptr : List Nat) (s : State) : State :=
  let bs := internalBytes s c
  let free := s.now + 8 * counted s c * Config.nsUnit / 100
  let s1 := passToSlice 0
    { port := 258, bytes := bs, length := bs.length, ts := stampCut s.now, tsInvalid := timFault s, err := 0, prio := c.queue,
      overrun := false, meta16 := 0, direct := none, oneStep := false, tsReq := false, txRing := none }
    (leaveQueue c ds ptr s)
  finishCopy c .recirculated (modPort 258 (fun x => { x with busyTill := free }) s1)

/-- RECIRCULATION_ADMIT: the scheduler's choice at P258 is admitted by S0, at 100 Gb/s of counted length at most (R458). -/
def execRecirculationAdmit (ecc : Nat) (s : State) : Host.Outcome State Fault Refusal :=
  .next (whenDo (!fenceShut s)
    (fun s0 =>
      let s := reach (port s0 258).busyTill s0
      match chosen s 258 (fun _ => true) with
      | none => s
      | some (c, ds, ptr) => readThen ecc c (recirculate c ds ptr) s) s)

end Sys2Proof.Machine
end

