-- ==== Sys2Proof/Machine/CmdTable.lean ====
section
/-! DEFINITION. The table commands by target and opcode (R98), held commands that proceed (R100, R352), the table command
register (R337), and the rows whose end answers a command that has been waiting. -/

namespace Sys2Proof.Machine

open Sys2Proof

/-! ## Targets and opcodes -/

/-- The commands of the table targets: FDB, LPM, NHP, MCG (R334). -/
def tableSpecs : List CmdSpec :=
  [fdbInsert, fdbDelete, fdbLookup, fdbRead, fdbFlush, fdbDump, lpmInsert, lpmDelete, lpmLookup, lpmMatch, nhpWrite, nhpRead,
   nhpWriteGroup, nhpReadGroup, nhpReadBuckets, mcgWrite, mcgInvalidate, mcgRead, mcgWriteRun]

/-- Those of STR, CLS, HGT (R297), GEN (R357) and ENG (R388). -/
def sliceSpecs : List CmdSpec :=
  [strWrite, strRead, clsWrite, clsInvalidate, clsRead, clsReadHits, hgtWrite, hgtRead, hgtReadCounters, hgtUnblock, hgtResetRcv,
   genCommitCmd, genDiscardCmd, genStatusCmd, engLoad, engUnload, engRead, engTblWrite, engTblRead, engEsWrite, engEsRead]

/-- Those of GCL, SCH (R463), BPM (R430), SVC (R524) and REC (R481). PRS and TIM have none. -/
def unitSpecs : List CmdSpec :=
  [gclWriteEntries, gclReadEntries, schReadCounters, bpmSnapshot, bpmReclaim, bpmReadRecord, bpmLeakList, bpmAuditNow,
   bpmReadAccount, svcSetState, svcRetire, svcTest, svcHealthWrite, svcReadState, recFreezeCmd, recReleaseCmd, recSealCmd,
   recVerifyCmd, recReadLossCmd]

/-- The command that a target and an opcode name. -/
def specOf (target opcode : Nat) : Option CmdSpec :=
  (tableSpecs ++ sliceSpecs ++ unitSpecs).find? fun q => q.target == target && q.opcode == opcode

/-! ## Held commands (R100, R352) -/

/-- A held command's ring has been stopped without write-back since (R72). -/
def heldStale (h : Held) (s : State) : Bool :=
  match h.who.via with
  | .ring _ => h.who.epoch != s.host.epoch
  | _ => false

/-- One held command proceeds where nothing holds it any more; otherwise it waits on, behind those before it. -/
def resumeHeld (h : Held) (s : State) : State :=
  match specOf h.who.target h.who.opcode with
  | none => s
  | some q =>
    if heldStale h s then s
    else if heldByCommit q.changes s || !frontOfRing h.who s then
      whenDo (heldByCommit q.changes s) (stickRg R.genEvt 2) { s with gen := { s.gen with held := s.gen.held ++ [h] } }
    else runAnswer q h.who h.cmd s

/-- The held commands proceed in their order. -/
def serve (s : State) : State := forAll resumeHeld s.gen.held { s with gen := { s.gen with held := [] } }

/-! ## The table command register (R337) -/

/-- The image of FDB_TCMD as a command. -/
def tcmdCmd (ws : List Nat) : Cmd :=
  let long := bit 16 (nth 0 ws 0)
  { via := .tcmd, tag := nth 0 ws 1,
    body := (bytesOfWords ((ws.drop (if long then 5 else 2)).take (if long then 2 else 5))),
    long := if long then some { addr := nth 0 ws 2 + nth 0 ws 3 * 2 ^ 32, bytes := nth 0 ws 4, dmaOk := true, host := [] } else none }

/-- A write of FDB_TCMD_GO: the image is taken as it stands; while BUSY it is refused. -/
def tcmdGo (s : State) : State :=
  if s.tab.tcmdBusy then stickRg R.fdbTcmdStatus 1 s
  else
    let ws := (List.range 8).map fun i => rg s (R.fdbTcmd i)
    let w0 := nth 0 ws 0
    let who : Waiter := ⟨.tcmd, fld 15 8 w0, fld 7 0 w0, nth 0 ws 1, 0, s.host.epoch⟩
    match specOf who.target who.opcode with
    | some q => serve (takeCmd q who (tcmdCmd ws) { s with tab := { s.tab with tcmdBusy := true } })
    | none => answerCmd who (unknownStatus who.target) [] s

/-- A write of FDB_TCMD_0 to FDB_TCMD_7, ignored while BUSY. -/
def tcmdImageWrite (off v : Nat) (s : State) : State :=
  if s.tab.tcmdBusy then stickRg R.fdbTcmdStatus 1 s else setRg off v s

/-! ## Rows that may let held commands proceed -/

/-- SET_STATE (R502): a leave or a return it withdraws answers the command that asked for it. -/
def execSetState (c : Cmd) (s : State) : Host.Outcome State Fault Refusal := .next (serve (runCmd svcSetState c s))

/-- COMMIT_CHECK_DONE (R347). -/
def execCommitCheckDone (s : State) : Host.Outcome State Fault Refusal := .next (serve (checkDone s))

/-- COMMIT_EFFECT (R347): master time reaches T. -/
def execCommitEffect (s : State) : Host.Outcome State Fault Refusal := .next (serve (commitEffect s))

/-- COMMIT_SETTLED (R347): the state is IDLE again. -/
def execCommitSettled (s : State) : Host.Outcome State Fault Refusal := .next (serve (settled s))

/-- DISCARD_DONE (R353). -/
def execDiscardDone (s : State) : Host.Outcome State Fault Refusal := .next (serve (discardDone s))

/-- LEAVE_COMPLETE (R502): a leaving unit, or the units of a leaving island, meet their conditions. -/
def execLeaveComplete (kind idx : Nat) (s : State) : Host.Outcome State Fault Refusal :=
  .next (match transitionOf s kind idx with
    | none => s
    | some t => whenDo (t.phase == 1 && leaveComplete s kind idx) (fun s => serve (finishLeave t s)) s)

/-- RETIRE_COPY_COMPLETE (R509). -/
def execRetireCopyComplete (kind idx : Nat) (s : State) : Host.Outcome State Fault Refusal :=
  .next (match transitionOf s kind idx with
    | none => s
    | some t => whenDo (t.phase == 2) (fun s => serve (finishCopying t s)) s)

/-- TEST_COMPLETE (R507): the outcome of the test is measured. -/
def execTestComplete (kind idx : Nat) (pass : Bool) (cause detail : Nat) (s : State) : Host.Outcome State Fault Refusal :=
  .next (serve (finishTest kind idx pass cause detail s))

end Sys2Proof.Machine
end

