-- ==== Sys2Proof/Machine/RegWrite.lean ====
section
/-! DEFINITION. How a write changes a register: access codes, 64-bit pairs, staged writes of class C and G, instances of
unused ports (R5 to R9, R12, R122, R352). -/

namespace Sys2Proof.Machine

open Sys2Proof

/-! ## Fields of a word -/

/-- The bits of one field that lie in a word of its register. -/
def fieldMask (hiWord : Bool) (f : RegField) : Nat :=
  let m := 2 ^ (f.hi + 1) - 2 ^ f.lo
  if hiWord then m >>> 32 else m % 2 ^ 32

/-- The bits of a word whose fields have one of the access codes. -/
def accMask (h : RegHit) (p : Access → Bool) : Nat :=
  h.row.fields.foldl (fun a f => if p f.acc then a ||| fieldMask h.hiWord f else a) 0

/-- Bits of `new` under a mask, of `old` elsewhere. -/
def mergeBits (mask old new : Nat) : Nat := (old ^^^ (old &&& mask)) ||| (new &&& mask)

/-- A word after a write of `v`: RW fields take it, W1C bits written 1 clear, W1S bits written 1 set; RWL fields are RW until
the protection commit (R5, R6). -/
def writtenWord (committed : Bool) (h : RegHit) (old v : Nat) : Nat :=
  let rw := accMask h fun a => a == .rw || (a == .rwl && !committed)
  let clr := accMask h fun a => a == .w1c
  let set := accMask h fun a => a == .w1s
  let a := mergeBits rw old v
  let b := a ^^^ (a &&& (clr &&& v))
  b ||| (set &&& v)

/-- A register has a field of an access code. -/
def hasAcc (h : RegHit) (p : Access → Bool) : Bool := h.row.fields.any fun f => p f.acc

/-! ## Instances of ports (R12) -/

/-- The port whose register instance an offset belongs to. -/
def portOfReg (h : RegHit) : Option Nat :=
  match h.blk with
  | .mac => some h.inst
  | .que => some h.inst
  | .sch => some h.inst
  | .gcl => some h.inst
  | .tim => if 0x1000 ≤ h.row.off then some h.idx else none
  | .ser => if 0x800 ≤ h.row.off then some (4 * h.inst + h.idx) else none
  | .fdb => if 0x100 ≤ h.row.off ∧ h.row.off < 0x800 then some h.idx else none
  | .bpm =>
    if 0x2000 ≤ h.row.off ∧ h.row.off < 0x4000 then some h.idx
    else if 0x4000 ≤ h.row.off then some (h.idx / 8)
    else none
  | _ => none

/-- The register belongs to an unused port number, or to the MAC of a port number that has none: it reads as its reset value and
ignores writes (R12, R197). MAC_STATUS alone still tells PRESENT. -/
def unusedPort (s : State) (h : RegHit) : Bool :=
  match portOfReg h with
  | some p => if h.blk = .mac then !portPresent s p else !portNamed s p
  | none => false

/-! ## 64-bit pairs (R9) -/

/-- The low word of a pair is held. -/
def holdLow (off : Nat) (v : Word) (s : State) : State := { s with lat := { s.lat with lowHeld := kvPut off v s.lat.lowHeld } }

/-- The held low word of a pair, 0 where none is held; and the state without it. -/
def heldLow (s : State) (off : Nat) : Nat := (kvGetD 0 off s.lat.lowHeld).toNat
def dropLow (off : Nat) (s : State) : State := { s with lat := { s.lat with lowHeld := kvDel off s.lat.lowHeld } }

/-- A write of an RW pair: the low word is held, the high word applies both by `put` (offset, value of the word). -/
def writePair (h : RegHit) (v : Word) (put : RegHit → Nat → State → State) (s : State) : State :=
  if h.hiWord then put h v.toNat (put { h with hiWord := false } (heldLow s h.lowOff) (dropLow h.lowOff s))
  else holdLow h.lowOff v s

/-- The offset of the word that a hit names. -/
def RegHit.off (h : RegHit) : Nat := if h.hiWord then h.lowOff + 4 else h.lowOff

/-- Storing a word under its access codes at a key whose view is `view`. -/
def putWord (view : Nat) (h : RegHit) (v : Nat) (s : State) : State :=
  let k := h.off + view
  { s with regs := regStore k (BitVec.ofNat 32 (writtenWord s.prot.committed h (regWord s.regs k).toNat v)) s.regs }

/-- A plain class D or status register (R122): its word, or its pair. -/
def putPlain (h : RegHit) (v : Word) (s : State) : State :=
  if h.row.wide && hasAcc h (fun a => a == .rw) then writePair h v (putWord 0) s else putWord 0 h v.toNat s

/-! ## Staged writes (R122, R352) -/

/-- A write of class C or G is ignored now: class C and G from the start of CHECKING until T, class G until the end of
SETTLING. -/
def stagingShut (s : State) (cls : RegClass) : Bool :=
  s.gen.st == 1 || s.gen.st == 2 || ((s.gen.st == 3 || s.gen.st == 4) && cls == .g)

/-- Storing a staged word; the staged side is then DIRTY (R354). -/
def storeStaged (cls : RegClass) (h : RegHit) (v : Nat) (s : State) : State :=
  let s1 := putWord (stagedKey s cls 0) h v s
  { s1 with gen := { s1.gen with dirty := true } }

/-- A LINK_HOLD beyond the field's width holds the field's largest value, which a commit clamps to 2,000 (R229). -/
def linkHoldWord (h : RegHit) (w : Word) : Word :=
  if h.blk = .mac ∧ h.row.off = 0x24 ∧ fld 15 11 w.toNat ≠ 0 then w ||| 0x7FF else w

/-- A write to a register of class C or G. -/
def stagedWrite (h : RegHit) (v : Word) (s : State) : State :=
  if stagingShut s h.row.cls then stickRg R.genEvt 0 s
  else if unusedPort s h then s
  else if h.row.wide then writePair h v (storeStaged h.row.cls) s
  else storeStaged h.row.cls h (linkHoldWord h v).toNat s

end Sys2Proof.Machine
end

