-- ==== Sys2Proof/Machine/Image.lean ====
section
/-! DEFINITION. Snisan images: their form and checks, their apply, the image slots and the image registers (R129 to R138). -/

namespace Sys2Proof.Machine

open Sys2Proof

/-! ## The form of an image (R129, R130) -/

/-- A little-endian word of an image. -/
def imgWord (bs : List Byte) (off : Nat) : Nat := ofLE ((bs.drop off).take 4)

/-- The SERIAL, UNIQUE_ID and TOTAL_BYTES of a header, and its flags. -/
def imgSerial (bs : List Byte) : Nat := ofLE ((bs.drop 0x10).take 8)
def imgUnique (bs : List Byte) : Nat := ofLE ((bs.drop 0x20).take 8)
def imgTotal (bs : List Byte) : Nat := imgWord bs 8
def imgAutoload (bs : List Byte) : Bool := bit 16 (imgWord bs 4)
def imgRunOk (bs : List Byte) : Bool := bit 17 (imgWord bs 4)

/-- A section: its index, type, OPTIONAL, whether its header's reserved bits are 0, its CRC and its body. -/
structure ImgSect where
  idx : Nat
  typ : Nat
  opt : Bool
  clean : Bool
  crc : Nat
  body : List Byte

/-- The RESULT of a failed check, with the index of its section (R138). -/
abbrev Bad := Nat × Nat

/-- The first check that fails: its RESULT. -/
def firstBad : List (Nat × Bool) → Option Nat
  | [] => none
  | (n, b) :: r => if b then some n else firstBad r

/-- The checks of the header (R131). -/
def headerBad (s : State) (bs : List Byte) : Option Nat :=
  firstBad [
    (1, crc32 (bs.take 0x3C) != imgWord bs 0x3C),
    (2, imgWord bs 0 != 0x53494E53 || imgWord bs 4 % 2 ^ 16 != 1 || decide (2 ^ 18 ≤ imgWord bs 4) ||
        decide (2 ^ 16 ≤ imgWord bs 0xC) || decide (2 ^ 20 ≤ imgWord bs 0x18) || imgWord bs 0x1C != 0 ||
        (((bs.drop 0x28).take 20).any fun b => b != 0)),
    (3, imgWord bs 0x18 % 2 ^ 16 != 0x8256 || decide (s.dev.stepping < fld 19 16 (imgWord bs 0x18)) ||
        (imgUnique bs != 0 && imgUnique bs != s.dev.uniqueId)),
    (4, imgTotal bs % 4 != 0 || decide (imgTotal bs < 128) || decide (2 ^ 22 < imgTotal bs) || imgWord bs 0xC == 0 ||
        decide (1024 < imgWord bs 0xC))]

/-- The sections between header and trailer: as many as the header says, ending exactly there. -/
def splitSects : Nat → Nat → List Byte → Except Bad (List ImgSect)
  | 0, _, bs => if bs.isEmpty then .ok [] else .error (4, 0xFF)
  | n + 1, i, bs =>
    let len := imgWord bs 4
    if bs.length < 16 + len ∨ len % 4 ≠ 0 then .error (4, i % 256)
    else
      let w := imgWord bs 0
      let x : ImgSect := { idx := i, typ := w % 256, opt := bit 8 w, clean := decide (w < 512) && imgWord bs 0xC == 0,
                           crc := imgWord bs 8, body := (bs.drop 16).take len }
      match splitSects n (i + 1) (bs.drop (16 + len)) with
      | .ok r => .ok (x :: r)
      | .error e => .error e

/-! ## The bodies of sections -/

/-- The words of a REG_WRITES body: each register's offset and value; a RESULT where the form is wrong. -/
def regRecords : Nat → List Nat → Except Nat (List (Nat × Nat))
  | _, [] => .ok []
  | 0, _ => .error 4
  | _ + 1, [_] => .error 4
  | f + 1, o :: n :: r =>
    if 2 ^ 26 ≤ o ∨ o % 4 ≠ 0 then .error 2
    else if n = 0 ∨ 4096 < n ∨ r.length < n then .error 4
    else
      match regRecords f (r.drop n) with
      | .ok rest => .ok (((List.range n).map fun k => (o + 4 * k, nth 0 r k)) ++ rest)
      | .error e => .error e

/-- The class D registers that an image may write before anything else (R133). -/
def earlyRegs : List Nat := [R.prsHashCfg 0, R.prsHashSeed 0, R.fdbHashSeed0, R.fdbHashSeed1, R.bpmHbmPart]

/-- A REG_WRITES word may go to this register (R131). -/
def targetOk (s : State) (off : Nat) : Bool :=
  !regionLocked s (off / 0x10000) &&
    (earlyRegs.contains off || (match regAt off with
      | some h => h.row.cls == .c || h.row.cls == .g
      | none => false))

/-- The descriptors of a COMMANDS body, up to the first data that one of them names. -/
def cmdDescs : Nat → Nat → Nat → List Byte → List (List Nat)
  | 0, _, _, _ => []
  | f + 1, i, limit, bs =>
    if 32 * (i + 1) ≤ limit then
      let ws := wordsLE 8 ((bs.drop (32 * i)).take 32)
      let lim := if bit 16 (nth 0 ws 0) then min limit (nth 0 ws 2 + nth 0 ws 3 * 2 ^ 32) else limit
      ws :: cmdDescs f (i + 1) lim bs
    else []

/-- A descriptor's reserved bits, its DONE and its data lie as they must. -/
def descBad (size : Nat) (ws : List Nat) : Option Nat :=
  let w := nth 0 ws 0
  let a := nth 0 ws 2 + nth 0 ws 3 * 2 ^ 32
  firstBad [(2, decide (2 ^ 17 ≤ w) || nth 0 ws 7 != 0),
    (4, bit 16 w && (a % 4 != 0 || decide (size < a + nth 0 ws 4)))]

/-- A descriptor as a step of the apply. -/
def descStep (sect : Nat) (body : List Byte) (ws : List Nat) : ImageStep :=
  let w := nth 0 ws 0
  let long := bit 16 w
  let n := nth 0 ws 4
  .cmd sect (fld 15 8 w) (fld 7 0 w)
    { via := .image, tag := nth 0 ws 1, body := bytesOfWords ((ws.drop (if long then 5 else 2)).take (if long then 2 else 5)),
      long := if long then some { addr := 0, bytes := n, dmaOk := true, host := [] } else none }
    (if long then (body.drop (nth 0 ws 2)).take n else [])

/-- The records of a PROTECTION body (R139). -/
def itemRecords : Nat → List Nat → Except Nat (List (Nat × List Nat))
  | _, [] => .ok []
  | 0, _ => .error 4
  | f + 1, w :: r =>
    let item := w % 256
    let n := fld 15 8 w
    if 2 ^ 16 ≤ w ∨ item = 0 ∨ 4 < item then .error 2
    else if r.length < n ∨ (item ≠ 1 ∧ itemCount item ≠ some n) then .error 4
    else
      match itemRecords f (r.drop n) with
      | .ok rest => .ok ((item, r.take n) :: rest)
      | .error e => .error e

/-- A PROTECTION section is confirmed by both parties (R131, R139). -/
def protectBad (s : State) (img : List Byte) (body : List Byte) : Option Nat :=
  let n := body.length - 64
  let d := sha256 (digestRecord s.dev.uniqueId (imgSerial img) 0xFF (wordsLE (n / 4) body))
  let macOk (k : Option (List Byte)) (m : List Byte) : Bool := match k with
    | some k => hmac k d == m
    | none => false
  firstBad [(3, imgUnique img == 0), (7, decide (imgSerial img ≤ s.mram.imageSerial)),
    (8, !(macOk s.prot.ko ((body.drop n).take 32) && macOk s.prot.kw ((body.drop (n + 32)).take 32)))]

/-- The steps of one section, or the RESULT of its check. -/
def sectSteps (s : State) (img : List Byte) (x : ImgSect) : Except Nat (List ImageStep) :=
  match x.typ with
  | 1 =>
    match regRecords (x.body.length / 8 + 1) (wordsLE (x.body.length / 4) x.body) with
    | .error e => .error e
    | .ok rs =>
      if rs.all fun r => targetOk s r.1 then
        .ok (rs.map fun r =>
          if earlyRegs.contains r.1 then .early x.idx r.1 (BitVec.ofNat 32 r.2) else .reg x.idx r.1 (BitVec.ofNat 32 r.2))
      else .error 5
  | 2 =>
    let ds := cmdDescs (x.body.length / 32) 0 x.body.length x.body
    let short := !(ds.any fun w => bit 16 (nth 0 w 0))
    match ds.findSome? (descBad x.body.length) with
    | some e => .error e
    | none => if short && x.body.length % 32 != 0 then .error 4 else .ok (ds.map (descStep x.idx x.body))
  | 3 => if x.body.isEmpty then .ok [.commit x.idx] else .error 4
  | 4 =>
    if x.body.length < 64 then .error 4
    else
      let n := x.body.length - 64
      match itemRecords (n / 4) (wordsLE (n / 4) x.body) with
      | .error e => .error e
      | .ok items => match protectBad s img x.body with
        | some e => .error e
        | none => .ok [.protect x.idx (imgSerial img) items]
  | 5 => if 4096 < x.body.length then .error 4 else .ok []
  | _ => if x.opt then .ok [] else .error 2

/-- The sections in turn: CRC, header form, order, body. -/
def allSteps (s : State) (img : List Byte) : Nat → List ImgSect → Except Bad (List ImageStep)
  | _, [] => .ok []
  | prev, x :: r =>
    let e := firstBad [(1, crc32 x.body != x.crc), (2, !x.clean),
      (4, decide (x.typ < prev) || (x.typ == prev && (x.typ == 3 || x.typ == 4)))]
    match e with
    | some n => .error (n, x.idx % 256)
    | none => match sectSteps s img x with
      | .error n => .error (n, x.idx % 256)
      | .ok a => match allSteps s img x.typ r with
        | .error b => .error b
        | .ok rest => .ok (a ++ rest)

/-- A step of R133. -/
def isEarly : ImageStep → Bool
  | .early _ _ _ => true
  | _ => false

/-- The whole image is checked (R131): its steps in the order they are made, or the first failure. -/
def checkImage (s : State) (img : List Byte) : Except Bad (List ImageStep) :=
  match headerBad s img with
  | some e => .error (e, 0xFF)
  | none =>
    let n := imgTotal img
    if crc32 (img.take (n - 4)) ≠ imgWord img (n - 4) then .error (1, 0xFF)
    else match splitSects (imgWord img 0xC) 0 ((img.take (n - 4)).drop 64) with
      | .error e => .error e
      | .ok xs => match allSteps s img 0 xs with
        | .error e => .error e
        | .ok steps => .ok (steps.filter isEarly ++ steps.filter fun x => !isEarly x)

/-! ## The apply (R132, R133) -/

/-- How a run of steps ends: all done; failed; a step's answer awaited, with what it means unless it is OK; held back by a
commit that is under way. -/
inductive ImgEnd
  | done
  | fail (b : Bad)
  | wait (b : Bad)
  | held

/-- A write of R133 under the register's own conditions, and whether it was taken; a partition that does not fit sets PART_REFUSED
(R420). -/
def earlyWrite (off : Nat) (v : Word) (s : State) : State × Bool :=
  if off = R.bpmHbmPart then
    let n := v.toNat
    (partitionWrite n s, partitionFits (resChannels s) (fld 4 0 n) (fld 14 8 n) (fld 19 16 n))
  else if off = R.fdbHashSeed0 ∨ off = R.fdbHashSeed1 then
    if s.tab.fdb.isEmpty then (setRg off v.toNat s, true) else (s, false)
  else (setRg off (if off = R.prsHashCfg 0 then v.toNat % 32 else v.toNat) s, true)

/-- A staged write as the driver's would be made (R30, R132). -/
def imageRegWrite (off : Nat) (v : Word) (s : State) : State :=
  match shutUnit s off, regAt off with
  | some (k, i), _ => refuseService k i off s
  | none, some h => stagedWrite h v s
  | none, none => s

/-- A commit or discard that is under way ends at once: no frame is inside in WAKE. -/
def finishCommit (s : State) : State := discardDone (settled (commitDrained [] (commitEffect (checkDone s))))

/-- The waiter that stands for an image. -/
def imageWaiter (target opcode tag : Nat) (s : State) : Waiter := ⟨.image, target, opcode, tag, 0, s.host.epoch⟩

/-- Some command of the steps names a target. -/
def namesTarget (p : Nat → Bool) (steps : List ImageStep) : Bool := steps.any fun x => match x with
  | .cmd _ t _ _ _ => p t
  | _ => false

/-- What the steps of an image may change, as it is before them (R132). -/
def undoFor (steps : List ImageStep) (s : State) : ImageUndo :=
  let keep {α : Type} (p : Nat → Bool) (a : α) : Option α := if namesTarget p steps then some a else none
  { tab := keep (fun t => decide (t ≤ 7)) s.tab, eng := keep (· == 9) s.eng, svc := keep (· == 0xD) (s.svc, s.mram.health),
    recd := keep (· == 0xE) s.recd, buf := keep (· == 0xC) s.buf, regs := s.regs, current := s.gen.current }

/-- A command of an image begins: it has no answer yet. -/
def clearAnswer (s : State) : State := { s with img := { s.img with answer := none } }

/-- One step: the state after it and how it ended. -/
def imageStep (x : ImageStep) (s : State) : State × ImgEnd :=
  match x with
  | .early i off v =>
    let r := earlyWrite off v s
    (r.1, if r.2 then .done else .fail (5, i % 256))
  | .reg _ off v => (imageRegWrite off v s, .done)
  | .cmd i target opcode c buf =>
    match specOf target opcode with
    | none => (s, .fail (6, i % 256))
    | some q =>
      if heldByCommit q.changes s then (stickRg R.genEvt 2 s, .held)
      else
        let o := runSpec q ⟨imageWaiter target opcode c.tag s, c, buf⟩ (clearAnswer s)
        match o.status with
        | none => (o.st, .wait (6, i % 256))
        | some 0 => (o.st, .done)
        | some _ => (o.st, .fail (6, i % 256))
  | .commit i =>
    match commitRefusal s true with
    | some _ => (s, .fail (9, i % 256))
    | none =>
      (startChecking none false (some (imageWaiter 8 1 0 s)) true (clearAnswer s),
       .wait (9, i % 256))
  | .protect _ serial items =>
    let s1 := forAll (fun r => applyItem r.1 r.2 true) items s
    ({ s1 with mram := { s1.mram with imageSerial := serial } }, .done)

/-- Steps in order, up to one that fails or must wait; the steps left. In WAKE a commit ends at once. -/
def imageSteps (wake : Bool) : List ImageStep → State → State × ImgEnd × List ImageStep
  | [], s => (s, .done, [])
  | x :: r, s =>
    match imageStep x s with
    | (t, .done) => imageSteps wake r t
    | (t, .fail b) => (t, .fail b, [])
    | (t, .held) => (t, .held, x :: r)
    | (t, .wait b) =>
      if wake then
        let u := finishCommit t
        if u.img.answer = some 0 then imageSteps wake r u else (u, .fail b, [])
      else (t, .wait b, r)

/-- One register of R133 gets a value back. -/
def earlyBack (c : Nat × Nat) (s : State) : State :=
  if rg s c.1 = c.2 then s
  else if c.1 = R.bpmHbmPart then setPartition (fld 4 0 c.2) (fld 14 8 c.2) (fld 19 16 c.2) s
  else setRg c.1 c.2 s

/-- The values of the registers of R133, and their return. -/
def earlyValues (s : State) : List (Nat × Nat) := earlyRegs.map fun o => (o, rg s o)
def earlyRestore (old : List (Nat × Nat)) (s : State) : State :=
  forAll earlyBack old s

/-- A frame that a RECLAIM of the image has freed is in the buffer again, with its leak and its charge, where its cells are free still. -/
def unreclaim (old : Buf) (c : Nat × Frame) (s : State) : State :=
  let x := c.2
  if (kvGet c.1 s.buf.frames).isSome || x.chain.any fun p => (cellsInUse s).contains p then s
  else
    let i := 8 * x.inPort + x.prio
    let s1 := setFrame c.1 x { s with buf := { s.buf with leaks := s.buf.leaks ++ old.leaks.filter fun l => l.frame == c.1 } }
    let s2 := whenDo (x.charge != 0) (setPair i { pairOf s1 i with a := (pairOf s1 i).a + x.charge }) s1
    whenDo (x.fate == 0) (fun s => { s with acct := modNth (AcctSet.unsettle x.par 0x16) s.acct (acctOf x.inPort) }) s2

/-- What RECLAIM and SNAPSHOT of the image did to the buffer is undone. -/
def undoBuf (old : Buf) (s : State) : State :=
  forAll (unreclaim old) (old.frames.filter fun c => c.2.leaked)
    { s with buf := { s.buf with snaps := old.snaps, snapAt := old.snapAt, snapCount := old.snapCount } }

/-- What the commands of an image changed beside the registers is as it was. -/
def undoCommands (s : State) : State :=
  let u := s.img.undo
  let svc := u.svc.getD (s.svc, s.mram.health)
  let e := u.eng.getD s.eng
  let s1 : State := { s with
    tab := u.tab.getD s.tab, recd := u.recd.getD s.recd, svc := svc.1, mram := { s.mram with health := svc.2 },
    eng := { s.eng with bundles := e.bundles, programs := e.programs, banks := e.banks, store := e.store } }
  match u.buf with
  | some b => undoBuf b s1
  | none => s1

/-- A generation has taken effect during the apply: the values that were in use before it are in use again, with all that follows from
the change (R132). -/
def undoGeneration (s : State) : State :=
  let u := s.img.undo
  if u.current = s.gen.current then s
  else
    let t : State := { s with regs :=
      (u.regs.filter fun c => confKey c.1).foldl (fun r c => regStore c.1 c.2 r) (s.regs.filter fun c => !confKey c.1) }
    useFollows s.now ((classCWords s ++ classCWords t).eraseDups.filter fun o =>
      regWord s.regs (o + viewSize) != regWord t.regs (o + viewSize)) s t

/-- Nothing that an image has done stands once it has failed (R132, R133). -/
def undoImage (old : List (Nat × Nat)) (s : State) : State := earlyRestore old (unstage (undoGeneration (undoCommands s)))

/-- The clamp log and its registers (R126 to R128), and BPM_STATUS: the reports of a refused commit or partition stay. -/
def isReportKey (k : Nat) : Bool :=
  k % viewSize == R.glbClampTotal || k % viewSize == R.glbClampStatus || k % viewSize == R.bpmStatus ||
    (decide (R.glbClampLogField 0 ≤ k % viewSize) && decide (k % viewSize ≤ R.glbClampLogInfo 255))

/-- An image that has failed before any of its steps had to wait leaves the state as it was but for what it has reported. -/
def undoWhole (old s : State) : State :=
  { old with free := s.free, host := s.host,
             regs := (s.regs.filter fun c => isReportKey c.1).foldl (fun r c => regStore c.1 c.2 r) old.regs }

/-- The busy command. -/
def setBusy (b : ImageCmd) (s : State) : State := { s with img := { s.img with busy := some b } }

/-- The busy command has failed, and what it did is undone. -/
def failedCmd (b : ImageCmd) (w : Bad) : ImageCmd := { b with result := w.1, sect := w.2, todo := [], waiting := none, failed := none }

/-- The busy command after a run of steps. One that fails while a commit or a discard is under way is undone after it (R344). -/
def afterSteps (b : ImageCmd) (r : State × ImgEnd × List ImageStep) : State :=
  let s := r.1
  match r.2.1 with
  | .done => setBusy { b with todo := [], waiting := none } s
  | .held => setBusy { b with todo := r.2.2, waiting := none } s
  | .wait w => setBusy { b with todo := r.2.2, waiting := some w } s
  | .fail w =>
    if s.gen.st ≠ 0 then setBusy { b with todo := [], waiting := none, failed := some w } s
    else setBusy (failedCmd b w) (undoImage b.undo s)

/-- The steps of an image are begun for a command. -/
def applyImage (b : ImageCmd) (img : List Byte) (s : State) : State :=
  match checkImage s img with
  | .error e => setBusy { b with result := e.1, sect := e.2 } s
  | .ok steps =>
    let c := { b with undo := earlyValues s }
    let r := imageSteps false steps { s with img := { s.img with undo := undoFor steps s } }
    match r.2.1 with
    | .fail w => setBusy (failedCmd c w) (undoWhole s r.1)
    | _ => afterSteps c r

/-! ## The image registers (R134 to R138) -/

/-- An image command is taken: the GLB block answers (R44) and no other is in progress (R137). -/
def imgOpen (s : State) : Bool := (hostOpen s || decide (s.md.mode = .wake)) && s.img.busy.isNone

/-- An apply is allowed (R134): in STAGE, with nothing staged, no commit under way and no protected change pending. -/
def applyAllowed (s : State) : Bool :=
  decide (s.md.mode = .stage) && !s.gen.dirty && !s.gen.learnPending && s.gen.st == 0 && s.prot.pending.isNone

/-- A command whose outcome is known at once. -/
def imgKnown (cmd slot result : Nat) (s : State) : State :=
  setBusy { cmd := cmd, slot := slot, result := result } s

/-- A slot. -/
def imgSlot (s : State) (i : Nat) : ImageSlot := nth {} s.mram.slots i
def setSlot (i : Nat) (x : ImageSlot) (s : State) : State :=
  { s with mram := { s.mram with slots := s.mram.slots.set i x } }

/-- The image in host memory at GLB_IMAGE_ADDR: its header, and all of it where the header gives a length that an image can
have. -/
def hostImage (s : State) : List Byte :=
  let a := rg64 s R.glbImageAddr
  let n := ofLE (dmaRead (a + 8) 4 s)
  dmaRead a (if n ≤ 2 ^ 22 then max 64 n else 64) s

/-- LOAD_APPLY. -/
def loadApply (dmaOk : Bool) (s : State) : State :=
  if !applyAllowed s then imgKnown 1 0 10 s
  else if !dmaOk then imgKnown 1 0 11 s
  else
    let img := hostImage s
    applyImage { cmd := 1, slot := 0 } img (pmuEv 29 2 none none img.length s)

/-- LOAD_APPLY (R138). -/
def execLoadApply (host : List (Nat × Byte)) (dmaOk : Bool) (s : State) : Host.Outcome State Fault Refusal :=
  .next (whenDo (imgOpen s) (loadApply dmaOk) (hostWrote host s))

/-- STORE: the image is checked, then written to its slot, which reads invalid until it is whole (R136). -/
def storeImage (slot : Nat) (dmaOk : Bool) (s : State) : State :=
  if !dmaOk then imgKnown 2 slot 11 s
  else
    let img := hostImage s
    let s1 := pmuEv 29 2 none none img.length s
    match checkImage s img with
    | .error e => setBusy { cmd := 2, slot := slot, result := e.1, sect := e.2 } s1
    | .ok _ => setSlot slot {} (setBusy { cmd := 2, slot := slot, image := img } s1)

/-- STORE. -/
def execStore (slot : Nat) (host : List (Nat × Byte)) (dmaOk : Bool) (s : State) : Host.Outcome State Fault Refusal :=
  .next (whenDo (imgOpen s) (storeImage (slot % 4) dmaOk) (hostWrote host s))

/-- APPLY_SLOT (R138). -/
def applySlot (slot : Nat) (s : State) : State :=
  if !applyAllowed s then imgKnown 3 slot 10 s
  else if !(imgSlot s slot).valid then imgKnown 3 slot 12 s
  else applyImage { cmd := 3, slot := slot } (imgSlot s slot).bytes s

/-- APPLY_SLOT. -/
def execApplySlot (slot : Nat) (s : State) : Host.Outcome State Fault Refusal :=
  .next (whenDo (imgOpen s) (applySlot (slot % 4)) s)

/-- MARK: the slot must hold an image. -/
def execMark (slot : Nat) (s : State) : Host.Outcome State Fault Refusal :=
  .next (whenDo (imgOpen s) (imgKnown 4 (slot % 4) (if (imgSlot s (slot % 4)).valid then 0 else 12)) s)

/-- UNMARK. -/
def execUnmark (slot : Nat) (s : State) : Host.Outcome State Fault Refusal :=
  .next (whenDo (imgOpen s) (imgKnown 5 (slot % 4) 0) s)

/-- ERASE. -/
def execErase (slot : Nat) (s : State) : Host.Outcome State Fault Refusal :=
  .next (whenDo (imgOpen s) (imgKnown 6 (slot % 4) 0) s)

/-- The slot carries no mark. -/
def unmarkSlot (slot : Nat) (s : State) : State :=
  whenDo (s.mram.autoload == some slot) (fun s => { s with mram := { s.mram with autoload := none } }) s

/-- What a command does to MRAM as it finishes. -/
def slotEffect (b : ImageCmd) (s : State) : State :=
  if b.result ≠ 0 then s
  else match b.cmd with
    | 2 => setSlot b.slot { valid := true, bytes := b.image } s
    | 4 => { s with mram := { s.mram with autoload := some b.slot } }
    | 5 => unmarkSlot b.slot s
    | 6 => unmarkSlot b.slot (setSlot b.slot {} s)
    | _ => s

/-- BUSY clears; RESULT and SECTION are set. -/
def finishImage (b : ImageCmd) (s : State) : State :=
  let s1 := slotEffect b s
  { s1 with img := { busy := none, result := b.result, sect := b.sect, answer := none } }

/-- The command has nothing more to wait for: it finishes. -/
def settleImage (s : State) : State :=
  match s.img.busy with
  | none => s
  | some b => if b.todo.isEmpty && b.waiting.isNone && b.failed.isNone then finishImage b s else s

/-- IMAGE_COMMAND_COMPLETE: an apply that waited for a commit or a command goes on once that is answered; a command with
nothing left to do finishes (R138). -/
def imageComplete (s : State) : State :=
  match s.img.busy with
  | none => s
  | some b =>
    match b.failed, b.waiting, s.img.answer with
    | some w, _, _ => settleImage (afterSteps b (s, .fail w, []))
    | none, some _, none => s
    | none, some w, some n =>
      if n = 0 then settleImage (afterSteps { b with waiting := none } (imageSteps false b.todo s))
      else settleImage (afterSteps b (s, .fail w, []))
    | none, none, _ => settleImage (if b.todo.isEmpty then s else afterSteps b (imageSteps false b.todo s))

/-- IMAGE_COMMAND_COMPLETE. -/
def execImageCommandComplete (s : State) : Host.Outcome State Fault Refusal := .next (imageComplete s)

/-! ## Autoload (R135) -/

/-- The image that WAKE loads: the marked slot's, where the straps ask for it and the image allows it. -/
def autoloadImage (s : State) : Option (List Byte) :=
  if s.dev.bootSel = 1 ∨ s.dev.bootSel = 2 then
    s.mram.autoload.bind fun i =>
      if (imgSlot s i).valid && imgAutoload (imgSlot s i).bytes then some (imgSlot s i).bytes else none
  else none

/-- WAKE step 7: the image is applied whole or not at all; whether it was. -/
def autoload (img : List Byte) (s : State) : State × Bool :=
  match checkImage s img with
  | .error _ => (s, false)
  | .ok steps =>
    let r := imageSteps true steps s
    match r.2.1 with
    | .done => (r.1, true)
    | _ => (undoWhole s r.1, false)

end Sys2Proof.Machine
end

