-- ==== Sys2Proof/Machine/Pmu.lean ====
section
/-! DEFINITION. The performance counters' own rows (15_counters): settings, zeroing, reads, windows. -/

namespace Sys2Proof.Machine

open Sys2Proof

/-- A counter's entry changed. -/
def setCtr (u k : Nat) (c : PmuCtr) (s : State) : State :=
  { s with pmu := { s.pmu with ctrs := kvPut (8 * u + k) c s.pmu.ctrs } }

/-- The first window that begins after now (R490). -/
def nextWindow (s : State) (u k : Nat) : Nat := s.now / usT (max 1 (rg s (R.pmuWindow u k))) + 1

/-- A counter starts from 0 under its settings (R494); one that is off is not kept. -/
def startCtr (u k : Nat) (s : State) : State :=
  if fld 7 0 (pmuEvt s u k) = 0 then { s with pmu := { s.pmu with ctrs := kvDel (8 * u + k) s.pmu.ctrs } }
  else setCtr u k { since := s.elapsed, first := nextWindow s u k } s

/-- The word that a settings register takes: 0 PMU_EVT, 1 PMU_THRESH, 2 PMU_WINDOW (R489, R498, R499). -/
def settingWord (reg w : Nat) : Nat :=
  match reg with
  | 0 => w % 2 ^ 25
  | 1 => w % 2 ^ 27
  | _ => clampTo 1 10000000 (w % 2 ^ 24)

/-- A settings register's offset. -/
def settingReg (u k reg : Nat) : Nat :=
  match reg with
  | 0 => R.pmuEvt u k
  | 1 => R.pmuThresh u k
  | _ => R.pmuWindow u k

/-- PMU_SETTING_WRITE. The page of an island that failed at WAKE ignores it (R486). -/
def execPmuSettingWrite (u k reg : Nat) (w : Word) (s : State) : Host.Outcome State Fault Refusal :=
  .next (if u < 30 ∧ k < 8 ∧ reg < 3 then
      pf0Write (settingReg u k reg) (fun s =>
        whenDo (pmuPresent s u) (fun s => startCtr u k (setRg (settingReg u k reg) (settingWord reg w.toNat) s)) s) s
    else s)

/-- Zeroing one counter: a window in progress is discarded, what has been published stands (R494). -/
def zeroCtr (u k : Nat) (s : State) : State :=
  match kvGet (8 * u + k) s.pmu.ctrs with
  | none => s
  | some c => setCtr u k { c with value := 0, since := s.elapsed, windows := [], first := nextWindow s u k } s

/-- ZERO: a write of PMU_CMD. -/
def execZero (u : Nat) (w : Word) (s : State) : Host.Outcome State Fault Refusal :=
  .next (if u < 30 then
      pf0Write (R.pmuCmd u) (fun s =>
        whenDo (pmuPresent s u) (forAll (zeroCtr u) ((List.range 8).filter fun k => bit k w.toNat)) s) s
    else s)

/-- PMU_CNT_HI as a read of PMU_CNT_LO latches it (R491, R499). -/
def ctrHi (s : State) (u k : Nat) (c : PmuCtr) : Nat :=
  c.value / 2 ^ 32 % 65536 + b2n (bit k (rg s (R.pmuOvf u))) * 2 ^ 16 + b2n c.valid * 2 ^ 31

/-- COUNTER_READ: PMU_CNT_LO is read through the unit's page, or through its user alias where it is granted (R143, R491,
R496). -/
def execCounterRead (u k : Nat) (viaAlias : Bool) (s : State) : Host.Outcome State Fault Refusal :=
  .next (if hostOpen s = false ∨ 30 ≤ u ∨ 8 ≤ k then s
    else if pmuPresent s u = false ∨ (viaAlias = true ∧ bit u (rg s R.prtGrantPmu) = false) then answer 0 s
    else
      let c := kvGetD {} (8 * u + k) s.pmu.ctrs
      let cyc := pmuCycles s u s.elapsed
      let l := [ctrHi s u k c, cyc % 2 ^ 32, cyc / 2 ^ 32 % 2 ^ 32, c.rate, c.win]
      answer (c.value % 2 ^ 32)
        { s with pmu := { s.pmu with latched := kvPut (2 * (8 * u + k) + b2n viaAlias) l s.pmu.latched } })

/-- The next window a counter publishes: none that begins before a time-base fault has fallen (R490). -/
def windowDue (s : State) (w : Nat) (c : PmuCtr) : Nat :=
  match s.tim.resumeFrom with
  | some t => max c.first (t / usT w + 1)
  | none => c.first

/-- WINDOW_PUBLISH: 256 µs after a window's end its total, rate and number are published (R490); nothing during a
time-base fault. -/
def execWindowPublish (u k : Nat) (s : State) : Host.Outcome State Fault Refusal :=
  let w := max 1 (rg s (R.pmuWindow u k))
  .next (match kvGet (8 * u + k) s.pmu.ctrs with
    | none => s
    | some c =>
      if fld 7 0 (pmuEvt s u k) ≠ 0x30 ∨ pmuLegal u (pmuEvt s u k) = false ∨ timFault s = true then s
      else
        let n := windowDue s w c
        let total := kvGetD 0 n c.windows
        setCtr u k { c with
          value := total % 2 ^ 48, rate := satTo 0xFFFFFFFF (total * 8000 / w), win := n % 2 ^ 32, valid := true, first := n + 1,
          windows := c.windows.filter fun x => decide (n < x.1) } (reach (usT ((n + 1) * w + 256)) s))

end Sys2Proof.Machine
end

