-- ==== Sys2Proof/Machine/Power.lean ====
section
/-! DEFINITION. Supplies, their monitors and the temperature sensors (17_electrical). -/

namespace Sys2Proof.Machine

open Sys2Proof

/-! ## Supplies (R536, R538, R540, R541) -/

/-- Nominal voltage in µV and half the monitor window in per cent of a rail, by its position in the table of R536: VDD_CORE,
VDD_SRAM, VDD_SER, VDDH_SER, VDD_HBM, VDDQ_HBM, VPP_HBM, VDD_IO, VDD_MRAM. -/
def railFigures : Nat → Nat × Nat
  | 0 => (750000, 6) | 1 => (850000, 6) | 2 => (900000, 6) | 3 => (1200000, 8) | 4 => (1100000, 8)
  | 5 => (400000, 6) | 6 => (1800000, 8) | 7 => (1800000, 8) | _ => (900000, 8)

/-- The bounds of a rail's monitor window in µV. -/
def railLow (rail : Nat) : Nat := (railFigures rail).1 * (100 - (railFigures rail).2) / 100
def railHigh (rail : Nat) : Nat := (railFigures rail).1 * (100 + (railFigures rail).2) / 100

/-- The power-on detector watches VDD_CORE, VDD_IO and VDD_MRAM (R540). -/
def detectorTrips (rail uv : Nat) : Bool := (rail == 0 || rail == 7 || rail == 8) && decide (uv < railLow rail)

/-- POWER_ON_DETECT: a rail stands at `uv` µV; one of the detector's rails below its window acts as RESET_N held low (R540). -/
def execPowerOnDetect (rail uv : Nat) (s : State) : Host.Outcome State Fault Refusal :=
  .next (whenDo (detectorTrips rail uv) (fun s => enterReset false { s with pins := { s.pins with supplies := false } }) s)

/-- An MRAM record whose write was interrupted fails its own CRC and is ignored: a fault record, the health map with its waves, the
calibration cache or its entry of one quad, an image slot (R541). -/
def tearRecord (r : MramRec) (m : Mram) : Mram :=
  match r with
  | .fault => { m with faultLog := m.faultLog.filter fun c => c.1 != (m.faultNext + 13) % 15 + 1 }
  | .health => { m with health := memSet m.health 0x3C (memByte m.health 0x3C ^^^ 1) }
  | .cache => { m with cache := { m.cache with headerOk := false } }
  | .cacheQuad q => { m with cache := { m.cache with badLanes := m.cache.badLanes ++ [4 * (q % 64)] } }
  | .image n => { m with slots := m.slots.set n {} }

/-- MRAM after a removal of power: a loss that follows the rule of R541, with RESET_N low or in PARK after PARK_DONE, interrupts no
write. -/
def mramAfter (torn : Option MramRec) (s : State) : Mram :=
  match torn with
  | some r => if s.pins.resetN ∧ s.md.parkDone = false then tearRecord r s.mram else s.mram
  | none => s.mram

/-- POWER_REMOVAL: the rails are removed, and a record of MRAM may be torn. The rest of MRAM is kept and everything else lost (R69,
R541); the device is in RESET. -/
def execPowerRemoval (torn : Option MramRec) (s : State) : Host.Outcome State Fault Refusal :=
  .next { State.reset with
    dev := { s.dev with bootSel := 0, partySel := 0, sideAddr := 0 },
    pins := { resetN := s.pins.resetN, perstN := s.pins.perstN, supplies := false },
    mram := mramAfter torn s, hmem := s.hmem, free := s.free, pending := s.pending }

/-- SUPPLIES_IN_RANGE: the detector releases, the warden's event registers take their power-on values and temperature sampling
begins (R152, R540, R550). With RESET_N high, the release is the end of RESET (R45), and the straps are sampled. -/
def execSuppliesInRange (st : Straps) (s : State) : Host.Outcome State Fault Refusal :=
  .next (whenDo (!s.pins.supplies)
    (fun s =>
      let s1 := { s with
        pins := { s.pins with supplies := true },
        side := { s.side with event := 0, eventEn := 0x6F },
        therm := {} }
      whenDo (decide (s.md.mode = .reset) && s.pins.resetN) (beginWake st) s1) s)

/-- A management alarm, sent outside RESET. -/
def mgmtAlarm (code detail : Nat) (s : State) : State := whenDo (decide (s.md.mode ≠ .reset)) (alarm code 95 detail) s

/-- A supply alarm may be sent: none was sent in the last 1 ms. -/
def supplyAlarmDue (s : State) : Bool :=
  match s.therm.supplyAt with
  | some t => decide (t + msT 1 ≤ s.elapsed)
  | none => true

/-- SUPPLY_MONITOR_CHECK: a rail, by its position in the table of R536, stands at `uv` µV and has stood on that side of its window
for so many nanoseconds (R538). The alarm's DETAIL is free: the spec states none. -/
def execSupplyMonitorCheck (rail uv outNs : Nat) (s : State) : Host.Outcome State Fault Refusal :=
  .next (
    if railLow (rail % 9) ≤ uv ∧ uv ≤ railHigh (rail % 9) ∨ outNs = 0 then s
    else if 10000 < outNs then fatal 0x0006 95 [rail % 9] s
    else whenDo (supplyAlarmDue s && decide (s.md.mode ≠ .reset))
      (fun s => drew (mgmtAlarm 0x0602 (draw s) { s with therm := { s.therm with supplyAt := some s.elapsed } })) s)

/-! ## Temperatures (R550, R551) -/

/-- Degrees in the units of the sensor registers. -/
def degC (n : Int) : Int := 16 * n

/-- The reading of a sensor: 0 the die, 1 + stack. -/
def sensorTemp (t : Temps) (i : Nat) : Int :=
  match i with
  | 0 => t.die | 1 => t.hbm0 | 2 => t.hbm1 | 3 => t.hbm2 | _ => t.hbm3

/-- The alarm threshold of a sensor and its code. -/
def sensorLimit (i : Nat) : Int := if i = 0 then degC 110 else degC 95
def sensorCode (i : Nat) : Nat := if i = 0 then 0x0600 else 0x0601

/-- One sensor's alarm: sent once at or above the threshold, armed again 5 °C below it. -/
def sensorAlarm (t : Temps) (i : Nat) (s : State) : State :=
  let v := sensorTemp t i
  if decide (sensorLimit i ≤ v) && !s.therm.alarmed.contains i && decide (s.md.mode ≠ .reset) then
    mgmtAlarm (sensorCode i) i { s with therm := { s.therm with alarmed := s.therm.alarmed ++ [i] } }
  else if v ≤ sensorLimit i - degC 5 then
    { s with therm := { s.therm with alarmed := s.therm.alarmed.filter (· != i) } }
  else s

/-- A stack's refresh rate is doubled at or above 85 °C, until it reads below 83 °C. -/
def stackRefresh (t : Temps) (h : Nat) (s : State) : State :=
  let v := sensorTemp t (h + 1)
  let l := s.therm.fastRefresh
  let l1 := if degC 85 ≤ v then (if l.contains h then l else l ++ [h]) else if v < degC 83 then l.filter (· != h) else l
  { s with therm := { s.therm with fastRefresh := l1 } }

/-- In PARK, a die at or above 110 °C stops new batches until it reads below 105 °C (R551). -/
def parkThrottle (t : Temps) (s : State) : State :=
  let hot := decide (s.md.mode = .park) && (decide (degC 110 ≤ t.die) || (s.svc.hot && decide (degC 105 ≤ t.die)))
  { s with svc := { s.svc with hot := hot } }

/-- What the device does with a sample; the first one of a WAKE after the reference is found is the reading of step 4 (assumption
133). -/
def takeSample (t : Temps) (s : State) : State :=
  let twice := s.therm.hotOnce && decide (degC 120 < t.die)
  let s1 := forAll (sensorAlarm t) (List.range 5)
    { s with therm := { s.therm with temps := t, read := true, hotOnce := decide (degC 120 < t.die) } }
  let s2 := parkThrottle t (forAll (stackRefresh t) (List.range 4) s1)
  whenDo twice (fatal 0x0005 95 []) (readStacks s2)

/-- A PARK wave tests the sensors: wave 11 (R515), taken as a whole (assumption 146). -/
def sensorsTested (s : State) : Bool := decide (s.md.mode = .park) && s.md.wave == 11

/-- TEMPERATURE_SAMPLE: the five sensors are sampled in every mode while the supplies are in range; while a PARK wave tests them the
last samples before it stand (R550). -/
def execTemperatureSample (t : Temps) (s : State) : Host.Outcome State Fault Refusal :=
  .next (whenDo (s.pins.supplies && !sensorsTested s) (takeSample t) s)

end Sys2Proof.Machine
end

