-- ==== Sys2Proof/Machine/Wake.lean ====
section
/-! DEFINITION. The end of WAKE: the health map, the calibration decision, the partition, autoload, and the mode that WAKE ends
in (R45 to R49, R66, R135, R420, R520). -/

namespace Sys2Proof.Machine

open Sys2Proof

/-! ## The health map at WAKE (R520) -/

/-- The map marks an entry as failed: RESULT 2 or 3. -/
def entryFailed (s : State) (o : Nat) : Bool := decide (2 ≤ healthByte s o % 4)

/-- The map marks a unit as failed. -/
def unitFailed (s : State) (kind idx : Nat) : Bool := (healthOff kind idx).any (entryFailed s)

/-- A unit is left out: state 3, once. -/
def leaveOut (kind idx : Nat) (s : State) : State := whenDo (unitSt s kind idx != 3) (setUnit kind idx 3) s

/-- A quad is left out, with its ports. -/
def leaveOutQuad (q : Nat) (s : State) : State := leaveOut 1 q (setQuad q { quad s q with failed := true } s)

/-- What a failed slice island or cluster takes with it: the slice's 8 quads, its 32 lanes and its cluster with its engines (R520). The
other slice islands, the TCAM banks and the trie stage copies stay as they are. -/
def leaveOutSlice (sl : Nat) (s : State) : State :=
  let s1 := leaveOut 9 (80 + sl) s
  let s2 := forAll (fun k => leaveOutQuad (8 * sl + k)) (List.range 8) s1
  let s3 := forAll (fun k => leaveOut 0 (32 * sl + k)) (List.range 32) s2
  forAll (fun u => leaveOut u.1 u.2) (contained (80 + sl)) s3

/-- A logical channel is lost. -/
def wakeLoseChannel (ch : Nat) (s : State) : State :=
  { s with svc := { s.svc with lostChannels := if s.svc.lostChannels.contains ch then s.svc.lostChannels
                                               else s.svc.lostChannels ++ [ch] } }

/-- An island marked failed is left out with what it holds. -/
def islandOut (i : Nat) (s : State) : State :=
  if i < 64 then leaveOut 9 i (leaveOutQuad i s)
  else if i < 88 then leaveOutSlice (i % 8) (leaveOut 9 i s)
  else if i < 92 then
    forAll (fun k => wakeLoseChannel (30 * (i - 88) + k)) (List.range 30)
      (forAll (fun u => leaveOut u.1 u.2) (contained i) (leaveOut 9 i s))
  else leaveOut 9 i s

/-- The banks of a group: its spare takes the place of one failed bank; a further one leaves the group out. -/
def groupOut (g : Nat) (s : State) : State :=
  let bad := (List.range 65).filter fun b => unitFailed s 6 (65 * g + b)
  let s1 := forAll (fun b => leaveOut 6 (65 * g + b)) bad s
  match bad with
  | [] => s1
  | [b] => if b = 64 then s1 else { s1 with svc := { s1.svc with spares := kvPut g b s1.svc.spares } }
  | _ => leaveOut 5 g s1

/-- The failed pseudo-channels of a stack take its working spares in order; beyond them their logical channels are lost. -/
def placeSpares (h : Nat) : List Nat → List Nat → State → State
  | [], _, s => s
  | k :: ks, [], s => placeSpares h ks [] (wakeLoseChannel (30 * h + k) s)
  | k :: ks, p :: ps, s =>
    let ch := 30 * h + k
    placeSpares h ks ps { s with svc := { s.svc with map := kvSet (32 * (ch / 30) + ch % 30) ch (32 * h + p) s.svc.map } }

/-- The pseudo-channels of a stack. -/
def stackOut (h : Nat) (s : State) : State :=
  let bad := (List.range 32).filter fun p => unitFailed s 7 (32 * h + p)
  let s1 := forAll (fun p => leaveOut 7 (32 * h + p)) bad s
  if unitFailed s 9 (88 + h) then s1
  else placeSpares h (bad.filter fun p => decide (p < 30)) ([30, 31].filter fun p => !bad.contains p) s1

/-- The failed units of a kind. -/
def kindOut (kind : Nat) (s : State) : State :=
  forAll (fun i => leaveOut kind i) ((List.range (kindUnits kind)).filter fun i => unitFailed s kind i) s

/-- WAKE step 4: a valid map is applied. -/
def applyHealth (s : State) : State :=
  if healthValid s then
    let s1 := forAll islandOut ((List.range 96).filter fun i => unitFailed s 9 i) s
    let s2 := forAll kindOut [0, 2, 3, 4, 8] s1
    let s3 := forAll groupOut (List.range 8) s2
    forAll budgetNote (List.range 8) (forAll stackOut (List.range 4) s3)
  else s

/-- The largest value up to `n` that fits. -/
def largestFit (fits : Nat → Bool) : Nat → Nat
  | 0 => 0
  | n + 1 => if fits (n + 1) then n + 1 else largestFit fits n

/-- The partition is refitted to the channels in service: REC_GIB is lowered first, then ES_GIB, then RES_GIB (R420). -/
def refitPartition (s : State) : State :=
  let n := resChannels s
  let res := s.buf.resGib
  let es := s.buf.esGib
  if partitionFits n res s.buf.recGib es then s
  else
    let rec1 := largestFit (fun r => partitionFits n res r es) s.buf.recGib
    let es1 := largestFit (fun e => partitionFits n res rec1 e) es
    let res1 := largestFit (fun r => partitionFits n r rec1 es1) res
    let s1 := setRg R.bpmHbmPart (res1 + rec1 * 2 ^ 8 + es1 * 2 ^ 16)
      { s with buf := { s.buf with resGib := res1, recGib := rec1, esGib := es1 } }
    stickRg R.bpmStatus 2 s1

/-! ## The calibration decision (R47) -/

/-- A lane's calibration at WAKE: restored, or full where all are or where its quad's entry fails its own check. -/
def calibrateLane (full : Bool) (ln : Nat) (s : State) : State :=
  let bad := s.mram.cache.badLanes.any fun b => b / 4 == ln / 4
  setLane ln { lane s ln with cal := if full || bad then 2 else 1 } s

/-- WAKE steps 5 and 6: FULL_CAL, the state of the lanes, and the delays of the time channels (R28). -/
def calibrate (poweredSec : Nat) (s : State) : State :=
  let g := calGrounds s poweredSec
  let full := g.1 || g.2.1 || g.2.2
  forAll (calibrateLane full) (List.range 256)
    { s with md := { s.md with fullCal := full },
             free := s.free + 72,
             tim := { s.tim with calibrated := true, aligned := s.elapsed, replicaErr := [],
                                 replicaDelay := (List.range 72).map fun i => Config.freeValue (s.free + i) },
             mram := { s.mram with cache := { s.mram.cache with poweredSec := poweredSec } } }

/-! ## The end of WAKE -/

/-- The fault that ends WAKE in fenced STAGE (R45, R60): MRAM unreadable, an LK8256-AC with a cold stack, a core island marked
failed; the lowest code where several hold. -/
def wakeFaultCode (s : State) (mramOk : Bool) : Option (Nat × Nat) :=
  if !mramOk then some (7, 95)
  else if !s.dev.codeAE ∧ s.md.coldAtWake = true then some (8, 95)
  else if healthValid s then (([92, 93, 94, 95].find? fun i => unitFailed s 9 i).map fun i => (10, i))
  else none

/-- WAKE ends in STAGE, or goes on to RUN as GO_RUN does (R45, R49). -/
def endInStage (run : Bool) (s : State) : State :=
  let s1 := linksEval (setMode .stage 0 0 s.now s)
  whenDo (run && goRunStatus s1 == 0) startRun s1

/-- The steps from 4 on: the map, calibration, the partition and the recorder's ring, autoload. -/
def wakeSteps (f : WakeFacts) (s : State) : State :=
  let s1 := refitPartition (applyHealth s)
  let s2 := recOpen (layRing (calibrate f.poweredSec s1))
  match autoloadImage s2 with
  | none => endInStage false (fillWakeInfo f.poweredSec true true false false s2)
  | some img =>
    let r := autoload img s2
    endInStage (r.2 && imgRunOk img && decide (s.dev.bootSel = 2)) (fillWakeInfo f.poweredSec true true r.2 (!r.2) r.1)

/-- The MRAM reads of WAKE: corrected words count, and so does a read that could not be corrected (R526). -/
def mramRead (ok : Bool) (corrected : Nat) (s : State) : State :=
  addRg R.mrmErrCorr corrected (whenDo (!ok) (incRg R.mrmErrUncorr) s)

/-- The steps that are left once the stacks have been read, `ms` after the beginning of WAKE: a fault of R60 found on the way ends
WAKE in fenced STAGE, with the health map applied where it could be read. -/
def endWake (f : WakeFacts) (s : State) : State :=
  let s1 := mramRead f.mramOk f.mramCorr (reach (msT f.elapsedMs) s)
  match wakeFaultCode s1 f.mramOk with
  | some (code, island) => wakeFault code island f.mramOk (if code = 0x0007 then s1 else applyHealth s1)
  | none => wakeSteps f s1

/-- WAKE_COMPLETE: the WAKE steps are done (R45, R46). The reference must have been found (R160) and warming must have ended; where
no temperature sample has brought step 4 about, the stacks are read now, and warming may begin instead (R48). -/
def execWakeComplete (f : WakeFacts) (s : State) : Host.Outcome State Fault Refusal :=
  .next (whenDo (decide (s.md.mode = .wake) && decide (s.md.coreRef ≠ 0) && !s.md.warming && !s.md.faultPending)
    (fun s =>
      let s1 := readStacks s
      if s1.md.warming then s1 else endWake f s1) s)

/-- WARM_TIMEOUT: warming has not finished 900 s after step 4 (R48); its record is written where MRAM allows. -/
def execWarmTimeout (mramOk : Bool) (s : State) : Host.Outcome State Fault Refusal :=
  .next (whenDo (decide (s.md.mode = .wake) && s.md.warming && !s.md.faultPending)
    (fun s =>
      wakeFault 0x0009 95 mramOk (applyHealth (reachElapsed (s.md.warmFrom + secT 900) s))) s)

end Sys2Proof.Machine
end

