-- ==== Sys2Proof/Machine/Views.lean ====
section
/-! DEFINITION. The registers whose value is read from other state: status, counts, windows on MRAM and on the
self-test results. `statusValue` gives the whole register, both words of a 64-bit one; none for a register that is
stored. -/

namespace Sys2Proof.Machine

open Sys2Proof

/-- A word from its fields: place and value. -/
def pack (fs : List (Nat × Nat)) : Nat := (fs.map fun f => f.2 * 2 ^ f.1).sum

/-- One bit per number below `n` that fulfils a condition. -/
def bitsOf (n : Nat) (f : Nat → Bool) : Nat := ((List.range n).map fun i => b2n (f i) * 2 ^ i).sum

/-- A number of something, cut to a field's width. -/
def cut (w n : Nat) : Nat := n % 2 ^ w

/-- A word of a byte string. -/
def wordAt (bs : List Byte) (i : Nat) : Nat := ofLE ((bs.drop (4 * i)).take 4)

/-- The first of some alternatives that has a value. -/
def firstSome (l : List (Bool × Nat)) : Option Nat := (l.find? (·.1)).map (·.2)

/-! ## GLB, PCI, RNG, PRT, GEN -/

/-- When WAKE goes on to step k at the latest, in units of time since WAKE began (R46): the bound of the step before it, or 20 s
where a full calibration may be under way (R47), all counted from the end of warming where there was any. -/
def wakeStepTime (s : State) (k : Nat) : Nat :=
  let ms := nth 0 [0, 0, 0, 5, 20, 30, 40, 20000, 20000] k
  (if s.md.warmed then s.md.warmTill else 0) + Config.wakeStepAt k % (msT ms + 1)

/-- WAKE_STEP (R64): 1 until the reference is found, 4 while the device warms; beyond the steps that are known to be over, the
moments within the bounds of R46 are the device's own (Config.wakeStepAt, assumption 132). -/
def wakeStepNow (s : State) : Nat :=
  if s.md.wakeStep = 0 ∨ s.md.coreRef = 0 ∨ s.md.warming = true then s.md.wakeStep
  else ((List.range 9).filter fun k =>
      decide (k ≤ s.md.wakeStep) || (s.md.tempsRead || decide (k ≤ 4)) && decide (wakeStepTime s k ≤ s.elapsed)).foldl max 0

/-- GLB_MODE (R64). -/
def modeWord (s : State) : Nat :=
  pack [(0, s.md.mode.code), (3, b2n s.md.fenced), (4, b2n s.md.transition),
    (5, if s.md.transition then s.md.target.code else 0), (8, b2n s.md.warming), (9, b2n s.md.fullCal),
    (10, b2n s.md.parkDone), (12, cut 4 s.md.wave), (16, cut 8 (wakeStepNow s)), (24, cut 4 s.md.lastCmd), (28, cut 4 s.md.cmdStatus)]

/-- GLB_IMAGE_SLOT_n (R138). -/
def imageSlotWord (s : State) (i : Nat) : Nat :=
  let x := imgSlot s i
  if x.valid then
    pack [(0, 1), (1, b2n (s.mram.autoload == some i)), (2, cut 14 (ceilDiv (imgTotal x.bytes) 1024)), (16, cut 16 (imgSerial x.bytes))]
  else 0

/-- The GLB block. -/
def viewGlb (s : State) (off i : Nat) : Option Nat :=
  firstSome [
    (off == 0, pack [(0, 0x8256), (16, cut 4 s.dev.stepping), (20, b2n s.dev.codeAE)]),
    (off == 8, s.dev.uniqueId),
    (off == 0x20, modeWord s),
    (off == 0x28, s.md.wakeInfo + pack [(0, s.dev.bootSel), (2, s.dev.partySel), (3, s.dev.sideAddr)]),
    (off == 0x2C, pack [(0, s.md.faultCode), (16, s.md.faultIsland), (24, b2n s.md.fenced), (25, b2n s.pins.faultN)]),
    (off == 0x30, s.side.dateHint),
    (off == 0x40, guaranteeWord s),
    (off == 0x6C, pack [(0, b2n s.img.busy.isSome), (4, s.img.result), (8, s.img.sect)]),
    (off == 0x70, imageSlotWord s i)]

/-- PCI_LINK (R121). -/
def viewPci (s : State) (off : Nat) : Option Nat :=
  firstSome [(off == 0, pack [(0, s.host.linkSpeed), (4, s.host.linkWidth), (10, b2n s.host.linkUp)])]

/-- The ring kind whose slot an offset of the RNG block lies in (R113). -/
def rngKind (off : Nat) : Option RingKind :=
  if off < 0x1000 then some .rx else if off < 0x2000 then some .tx else if off < 0x2200 then some .cmd
  else if off < 0x2400 then some .evt else if off < 0x2440 then some .rdo else none

/-- CTRL, HEAD, FETCH and TAIL of a ring. -/
def viewRng (s : State) (off i : Nat) : Option Nat :=
  (rngKind off).bind fun k =>
    let r := ring s k i
    firstSome [
      (off % 0x40 == 8, rg s (ringRegs k i + 8) + 2 * b2n r.active),
      (off % 0x40 == 0x14, r.head),
      (off % 0x40 == 0x18, if k = .evt then r.head else r.fetch),
      (off % 0x40 == 0x1C, r.tail)]

/-- PRT_STATUS (R149). -/
def prtStatusWord (s : State) : Nat :=
  pack [(0, b2n s.prot.committed), (1, b2n s.prot.pending.isSome), (3, b2n s.mram.vaultKo.isSome), (4, b2n s.mram.vaultKw.isSome),
    (5, b2n (s.prot.ko.isSome && s.prot.kw.isSome)), (6, b2n s.prot.vaultBlocked), (7, b2n (s.dev.partySel == 1)),
    (8, s.prot.lastResult)]

/-- PRT_WINDOW_LEFT: whole milliseconds (R149). -/
def windowLeft (s : State) : Nat :=
  match s.prot.pending with
  | some p => (p.opened + windowLen - s.elapsed) / msT 1
  | none => 0

/-- The latest zeroisation record, of this power-up or from MRAM (R154). -/
def lastZero (s : State) : List Byte :=
  if s.prot.zeroLast.isEmpty then kvGetD [] ((s.mram.zeroCount - 1) % 32) s.mram.zeroLog else s.prot.zeroLast

/-- The PRT block. -/
def viewPrt (s : State) (off i : Nat) : Option Nat :=
  firstSome [
    (off == 0, prtStatusWord s),
    (off == 8, windowLeft s),
    (off == 0x10, s.prot.nonce),
    (off == 0x18, s.mram.imageSerial),
    (off == 0x80, wordAt s.prot.digest i),
    (off == 0xC0, pack [(0, s.mram.keyGenOp), (16, s.mram.keyGenWd)]),
    (off == 0x148, pack [(0, b2n s.prot.scanActive), (1, b2n s.prot.debugActive)]),
    (off == 0x180, wordAt (lastZero s) i),
    (off == 0x190, cut 32 s.mram.zeroCount)]

/-- GEN_LEARN_STAGED (R355). -/
def learnStagedCount (s : State) : Nat :=
  (s.tab.fdb.filter fun c => c.2.learned && c.2.valid (1 - curPar s) && !c.2.valid (curPar s)).length

/-- The GEN block. -/
def viewGen (s : State) (off : Nat) : Option Nat :=
  firstSome [
    (off == 4, genStatusWord s), (off == 8, s.gen.current), (off == 0xC, cut 32 (genInflight s)),
    (off == 0x20, tSec s.gen.lastT), (off == 0x28, tNs s.gen.lastT), (off == 0x2C, satTo 0xFFFFFFFF s.gen.completeUs),
    (off == 0x38, learnStagedCount s)]

/-! ## TIM, REC, BPM -/

/-- TIM_STATUS (R269). -/
def timStatusWord (s : State) : Nat :=
  let t := s.tim
  pack [(0, b2n (timFault s)), (1, b2n t.locked), (2, b2n t.holdover), (3, b2n (t.slewLeft != 0)), (4, b2n t.refPresent),
    (5, b2n t.ppsPresent), (6, b2n t.calibrated), (7, b2n t.adjSat), (8, t.cmdResult)]

/-- The TIM block. -/
def viewTim (s : State) (off i : Nat) : Option Nat :=
  let u := capUnit s i
  firstSome [
    (off == 4, timStatusWord s),
    (off == 0x3C, unsgn 32 (s.tim.slewLeft.tdiv (Config.nsUnit : Int))),
    (off == 0x40, unsgn 64 s.tim.freqAdj),
    (off == 0x120, (cycleGen s i).k.getD 0 % 2 ^ 64),
    (off == 0x914, pack [(0, u.fifo.length), (8, b2n u.stuck), (9, b2n (capLevel s i)), (16, cut 16 u.count)]),
    (off == 0x100C, pack [(0, (txStamps s i).fifo.length), (16, cut 16 (txStamps s i).seq)])]

/-- A region of the recorder, by word (R480). -/
def regionWord (s : State) (k off : Nat) : Nat :=
  match kvGet k s.recd.regions with
  | none => 0
  | some r =>
    let n := (s.recd.segments.filter fun g => r.seqs.contains g.1).map (·.2.records.length)
    let n1 := match s.recd.current with
      | some g => if r.seqs.contains g.seq then g.records.length else 0
      | none => 0
    match (off - 0x100) / 4 with
    | 0 => pack [(0, r.st), (4, cut 16 r.detail)]
    | 1 => (r.seqs.head?).getD 0
    | 2 => (r.seqs.getLast?).getD 0
    | 3 => tNs r.time
    | 4 => cut 32 (tSec r.time)
    | 5 => n.sum + n1
    | _ => pack [(0, cut 16 r.lost), (16, cut 4 r.trigger)]

/-- The oldest SEQ still readable. -/
def oldestSeq (s : State) : Nat := (seqsByAge s).getLast?.getD (recOpenSeq s)

/-- The REC block. -/
def viewRec (s : State) (off i : Nat) : Option Nat :=
  firstSome [
    (off == 0x44, pack [(0, bitsOf 4 fun k => (kvGet k s.recd.regions).isSome), (4, b2n s.recd.post.isSome),
      (5, b2n (recLive s && recHasOpen s && (standingCause s).isNone)), (6, b2n s.recd.key.isSome)]),
    (off == 0x48, recOpenSeq s), (off == 0x4C, oldestSeq s), (off == 0x50, recSlots s), (off == 0x54, s.mram.sealKeys),
    (decide (0x100 ≤ off) && decide (off < 0x180), regionWord s i off)]

/-- One value of a snapshot (R428): ARRIVED, the fates, the in-flight counts. -/
def snapValue (a : AcctSet) (k : Nat) : Nat :=
  if k = 0 then a.arrived else if k ≤ 22 then kvGetD 0 k a.fates else if k = 23 then a.inflight0 else a.inflight1

/-- The BPM block. -/
def viewBpm (s : State) (off i : Nat) : Option Nat :=
  firstSome [
    (off == 0x18, (rg s R.bpmStatus ||| 1) - b2n (!s.buf.pressure)),
    (off == 0x1C, freeBasin s), (off == 0x20, freeRes s), (off == 0x24, sharedFree s), (off == 0x28, basinCells s),
    (off == 0x2C, resCells s), (off == 0x30, sharedSize s),
    (off == 0x34, pack [(0, cut 16 s.buf.lastPass), (16, cut 16 s.buf.lastResPass)]),
    (off == 0x44, cut 32 s.buf.snapCount), (off == 0x48, tSec s.buf.snapAt), (off == 0x50, tNs s.buf.snapAt),
    (decide (0x1000 ≤ off) && decide (off < 0x1900), snapValue (nth {} s.buf.snaps ((off - 0x1000) / 0x100)) i)]

/-! ## SVC, MRM -/

/-- Sixteen unit states of two bits each (R501, R522). -/
def stateWord (s : State) (kind i : Nat) : Nat :=
  pack ((List.range 16).map fun j => (2 * j, unitSt s kind (16 * i + j) % 4))

/-- The kind of unit that a SVC_STATE register shows. -/
def stateKind (off : Nat) : Option Nat :=
  ([(0x100, 0), (0x140, 1), (0x150, 2), (0x160, 3), (0x170, 4), (0x180, 5), (0x190, 6), (0x220, 7), (0x240, 8), (0x250, 9)].find?
    fun p => p.1 == off).map (·.2)

/-- SVC_PEND_n (R523). The progress of a copy is a free value: the spec ties it to nothing the model holds. -/
def pendWord (s : State) (i : Nat) : Nat :=
  match s.svc.transitions[i]? with
  | none => 0
  | some t =>
    pack [(0, cut 4 t.kind), (4, cut 12 t.index), (16, cut 2 t.target), (18, cut 2 t.phase),
      (24, if t.phase = 2 then draw s % 101 else 0)]

/-- A returning unit waits for a generation boundary (R504). -/
def boundaryWait (s : State) : Bool := s.svc.transitions.any fun t => t.phase == 3

/-- Units of a kind in state 0. -/
def usable (s : State) (kind n : Nat) : Nat := ((List.range n).filter fun i => unitSt s kind i == 0).length

/-- The SVC block. -/
def viewSvc (s : State) (off i : Nat) : Option Nat :=
  match stateKind off with
  | some k => some (stateWord s k i)
  | none =>
    firstSome [
      (off == 4, pack [(0, min 4 s.svc.transitions.length), (3, b2n s.sparesShort), (4, b2n (s.svc.states.any fun c => c.2 == 3)),
        (5, b2n (boundaryWait s))]),
      (off == 0x10, pendWord s i),
      (off == 0x20, pack [(0, usable s 1 64), (8, usable s 2 64), (16, usable s 3 64)]),
      (off == 0x300, match kvGet i s.svc.spares with
        | some b => 0x80 + b % 64
        | none => 0),
      (off == 0x400, physicalOf s i % 128 + 0x80 * b2n (s.svc.lostChannels.contains i))]

/-- A word of the fault log, and of the health map. -/
def faultLogWord (s : State) (i : Nat) : Nat := wordAt (kvGetD [] (i / 16) s.mram.faultLog) (i % 16)
def healthWord (s : State) (i : Nat) : Nat := healthNum s (4 * i) 4

/-- The MRM block. -/
def viewMrm (s : State) (off i : Nat) : Option Nat :=
  firstSome [
    (off == 0, pack [(0, b2n (healthValid s)), (1, b2n (healthValid s && healthPartial s)), (2, b2n s.mram.cache.headerOk),
      (3, b2n s.mram.slot0Held), (8, satTo 255 s.mram.faultNew)]),
    (off == 8, s.mram.parkCap),
    (off == 0x1000, faultLogWord s i),
    (off == 0x2000, healthWord s i)]

/-! ## FDB, LPM, STR, HGT, ENG, PMU -/

/-- The FDB block. -/
def viewFdb (s : State) (off : Nat) : Option Nat :=
  firstSome [
    (off == 0x10, (s.tab.fdb.filter fun c => c.2.valid (curPar s)).length),
    (off == 0x14, (s.tab.fdb.filter fun c => c.2.v0 || c.2.v1).length),
    (off == 0x18, s.tab.learnQ.length),
    (off == 0x824, (rg s R.fdbTcmdStatus ||| 1) - b2n (!s.tab.tcmdBusy))]

/-- Prefixes of a family valid in the current parity. -/
def prefixCount (s : State) (v6 : Bool) : Nat :=
  (s.tab.routes.filter fun r => r.v6 == v6 && (r.result (curPar s)).isSome).length

/-- The LPM block. -/
def viewLpm (s : State) (off i : Nat) : Option Nat :=
  firstSome [(off == 4, lpmUnits s), (off == 8, prefixCount s false), (off == 0xC, prefixCount s true), (off == 0x40, lpmCopyState s i)]

/-- STR_FR_COUNT (R299). -/
def viewStr (s : State) (off : Nat) : Option Nat :=
  firstSome [(off == 8,
    (s.tab.vals.filter fun c => decide (c.1 < valKey 1 0 0) && c.1 % 2 == curPar s && bit 0 (nth 0 c.2 1)).length)]

/-- HGT_LATCHED of a slice: filters blocked and gates latched shut (R297). -/
def viewHgt (s : State) (inst off : Nat) : Option Nat :=
  firstSome [(off == 0x20,
    pack [(0, cut 16 (s.tab.filters.filter fun c => c.1 / 8192 == inst && c.2.blocked).length),
      (16, cut 16 (s.tab.sgates.filter fun c => (c.1 - 0x24000) / 256 == inst && c.2.latched).length)])]

/-- The ENG block of a cluster. -/
def viewEng (s : State) (c off i : Nat) : Option Nat :=
  firstSome [
    (off == 4, pack [(0, bitsOf 8 fun e => unitSt s 2 (8 * c + e) == 0), (8, enginesOf s c), (16, minLine s c)]),
    (off == 0x60, pack [(0, (programsOf s c (curPar s)).length), (16, (programsOf s c (1 - curPar s)).length)]),
    (off == 0x400, (carried s (curPar s) 2 c i).getD 0 + 0x100 * b2n (s.tab.moves.any fun m => m.1 == bucketKey 2 c i))]

/-- The values that a read of a counter takes: bits [31:0], then HI, the cycle counter, RATE, WIN (R491). -/
def ctrNow (s : State) (u k : Nat) : Nat × Nat × Nat × Nat × Nat :=
  let c := kvGetD {} (8 * u + k) s.pmu.ctrs
  (c.value % 2 ^ 32, ctrHi s u k c, pmuCycles s u s.elapsed, c.rate, c.win)

/-- PMU_STATUS.BAD_CFG: the counters whose settings are not legal (R488). -/
def badCfg (s : State) (u : Nat) : Nat := bitsOf 8 fun k => fld 7 0 (pmuEvt s u k) != 0 && !pmuLegal u (pmuEvt s u k)

/-- A unit's page: its own registers, and the words a path has latched. -/
def viewPmu (s : State) (u off k path : Nat) : Option Nat :=
  let l (i : Nat) : Nat := nth 0 (kvGetD [] (2 * (8 * u + k) + path) s.pmu.latched) i
  firstSome [
    (off == 0, pack [(0, u), (5, pmuKind u), (8, pmuClock u)]),
    (!pmuPresent s u, 0),
    (off == 4, pack [(0, 1), (1, unitSt s 9 (pmuIsland u) % 4), (8, badCfg s u)]),
    (off == 0x10, pmuCycles s u s.elapsed % 2 ^ 64),
    (off == 0x20, (kvGetD (0, 0) u s.pmu.sync).1),
    (off == 0x28, cut 32 (kvGetD (0, 0) u s.pmu.sync).2),
    (off == 0x110, l 0), (off == 0x114, l 1 + l 2 * 2 ^ 32), (off == 0x11C, l 3), (off == 0x120, l 4)]

/-! ## SER, MAC, QUE, SCH, GCL -/

/-- SER_LANE_STATUS (R195). -/
def laneStatusWord (s : State) (ln : Nat) : Nat :=
  let l := lane s ln
  let q := ln / 4
  let j := logicalOf s ln
  let inUse := (List.range 4).any fun p => portPresent s (4 * q + p) &&
    (if portTsuip s (4 * q + p) then bit (ln % 4) (tsLanes (tsOf s (4 * q + p))) else (portLanes s (4 * q + p)).contains j)
  pack [(0, b2n l.los), (1, b2n l.lol), (2, b2n l.lock), (3, b2n l.hiBer), (4, b2n inUse), (5, l.cal), (8, cut 8 l.eye)]

/-- SER_TS_STATUS (R195). -/
def tsStatusWord (s : State) (p : Nat) : Nat :=
  let t := tsOf s p
  let on := t.st == 4 || t.st == 5
  pack [(0, t.st), (4, if on then t.width else 0), (8, tsLanes t), (12, b2n t.creditShort),
    (13, b2n (on && decide (t.width < tsCfgWidth s p))), (24, t.peerShort)]

/-- SER_REFCLK_MEAS: signed, saturating. -/
def ppmWord (x : Int) : Nat := unsgn 16 (max (-32768) (min 32767 x))

/-- The SER block of a quad; `i` is the lane or port in the quad. -/
def viewSer (s : State) (q off i : Nat) : Option Nat :=
  let x := quad s q
  let l := lane s (4 * q + i)
  let t := tsOf s (4 * q + i)
  firstSome [
    (off == 0xC, pack [(0, x.mode), (5, b2n x.refOk), (6, b2n x.pllLock), (7, b2n x.failed)]),
    (off == 0x10, ppmWord x.refPpm),
    (off == 0x108, laneStatusWord s (4 * q + i)),
    (off == 0x114, pack [(0, b2n (l.cmd != 0)), (4, l.result)]),
    (off == 0x830, tsStatusWord s (4 * q + i)),
    (decide (0x840 ≤ off) && decide (off < 0x860),
      nth 0 t.limit ((off - 0x840) / 4) + nth 0 t.initial ((off - 0x840) / 4) * 2 ^ 16)]

/-- The MAC block of a port. -/
def viewMac (s : State) (p off : Nat) : Option Nat :=
  let x := port s p
  firstSome [
    (off == 0x18, cut 16 x.headroom),
    (off == 0x20, pack [(0, x.verify), (3, b2n (preemptActive s p)), (4, cut 4 x.attempts)]),
    (off == 0x28, pack [(0, b2n (portPresent s p)), (1, b2n x.up), (2, b2n x.holding), (8, bitsOf 8 (pausedIn s p)), (16, cut 8 x.xoffOut)])]

/-- An empty queue is shown as held by a received pause, or on P258 by internal XOFF (R460). -/
def emptyHeld (s : State) (p q : Nat) : Bool := if p = 258 then pairInXoff s 258 q else pausedIn s p q && decide (p < 256)

/-- QUE_STATUS (R460). -/
def queStatusWord (s : State) (p : Nat) : Nat :=
  pack [(0, bitsOf 8 fun q => (head s p q).isSome),
    (8, bitsOf 8 fun q => ((head s p q).map timed).getD false),
    (16, bitsOf 8 fun q => ((head s p q).map (queueHeld s p q)).getD (emptyHeld s p q)),
    (24, bitsOf 8 fun q => gateOpen s (queuePar s p q) p q s.now)]

/-- The QUE block of a port. -/
def viewQue (s : State) (p off q : Nat) : Option Nat :=
  firstSome [
    (off == 8, queStatusWord s p),
    (off == 0xC, match pendingRelease s p with
      | some (t, _) => 2 ^ 31 + tNs t
      | none => 0),
    (off == 0x20, queueCells s p q), (off == 0x40, cut 24 (queue s p q).copies.length)]

/-- The SCH block of a port: levels in whole bytes. -/
def viewSch (s : State) (p off q : Nat) : Option Nat :=
  firstSome [
    (off == 0xC, unsgn 32 (portLevel s p / byteUnit)),
    (off == 0xA0, unsgn 32 (queueLevel s p q / byteUnit)),
    (off == 0xC0, cut 22 (queue s p q).deficit)]

/-- GCL_STATUS (R462). -/
def gclStatusWord (s : State) (p : Nat) : Nat :=
  let on := listOn s (curPar s) p
  let g := gateState s (curPar s) p s.now
  let old := s.gen.st == 3 && (List.range 8).any fun q => (queue s p q).copies.any fun c => copyPar s c != curPar s
  pack [(0, g.1), (8, b2n old), (9, b2n (on && g.2.1.isNone)), (16, g.2.1.getD 0)]

/-- The GCL block of a port. -/
def viewGcl (s : State) (p off q : Nat) : Option Nat :=
  firstSome [
    (off == 8, gclStatusWord s p),
    (off == 0x10, match longestOpening s (curPar s) p q with
      | none => 0xFFFFFFFF
      | some t => min 0xFFFFFFFE (tNanos t))]

/-! ## All of them -/

/-- The value of a register that is computed; `path` is 1 for a read through the user alias (R491). -/
def statusValue (s : State) (path : Nat) (h : RegHit) : Option Nat :=
  match h.blk with
  | .glb => viewGlb s h.row.off h.idx
  | .pci => viewPci s h.row.off
  | .rng => viewRng s h.row.off h.idx
  | .prt => viewPrt s h.row.off h.idx
  | .gen => viewGen s h.row.off
  | .tim => viewTim s h.row.off h.idx
  | .recorder => viewRec s h.row.off h.idx
  | .bpm => viewBpm s h.row.off h.idx
  | .svc => viewSvc s h.row.off h.idx
  | .mrm => viewMrm s h.row.off h.idx
  | .fdb => viewFdb s h.row.off
  | .lpm => viewLpm s h.row.off h.idx
  | .str => viewStr s h.row.off
  | .hgt => viewHgt s h.inst h.row.off
  | .eng => viewEng s h.inst h.row.off h.idx
  | .pmu => viewPmu s h.inst h.row.off h.idx path
  | .ser => viewSer s h.inst h.row.off h.idx
  | .mac => viewMac s h.inst h.row.off
  | .que => viewQue s h.inst h.row.off h.idx
  | .sch => viewSch s h.inst h.row.off h.idx
  | .gcl => viewGcl s h.inst h.row.off h.idx
  | .nhp => none
  | .mcg => none
  | .prs => none
  | .cls => none

end Sys2Proof.Machine
end

