-- ==== Sys2Proof/Machine/RegRead.lean ====
section
/-! DEFINITION. Reads of registers: BAR0 with its live view and user alias, the doorbell pages, the MSI-X table, and the
warden window of PF1 and the side port (R4, R5, R8, R58, R71, R78, R119, R143, R150). -/

namespace Sys2Proof.Machine

open Sys2Proof

/-- The state an outcome goes on with. -/
def goOn (s : State) : Host.Outcome State Fault Refusal → State
  | .next t => t
  | _ => s

/-! ## The value of a word -/

/-- The bits that a read returns: not those of WO fields. -/
def readMask (h : RegHit) : Nat := accMask h fun a => a != .wo

/-- A word of a 64-bit number. -/
def halfOf (h : RegHit) (v : Nat) : Nat := if h.hiWord then v / 2 ^ 32 % 2 ^ 32 else v % 2 ^ 32

/-- The register belongs to a Tsuip set whose port is no Tsuip port of the mode in use: it reads its reset value (R193). -/
def idleTsuip (s : State) (h : RegHit) : Bool :=
  decide (h.blk = .ser) && decide (0x800 ≤ h.row.off) &&
    !(portTsuip s (4 * h.inst + h.idx) && modeHas (quad s h.inst).mode h.idx)

/-- The word at a register's own offset: a staged value for class C and G (R123). -/
def ownWord (s : State) (path : Nat) (h : RegHit) : Nat :=
  if unusedPort s h || idleTsuip s h then halfOf h h.resetVal &&& readMask h
  else match statusValue s path h with
    | some v => halfOf h v
    | none => (regWord s.regs (stagedKey s h.row.cls h.off)).toNat &&& readMask h

/-- The words of the registers that a read of another latches, as they stand now: the counter of the time base, the heads of
the stamp FIFOs, the PPS stamp, the stored TTM times, the counters (R232, R249, R267, R185, R491). -/
def unlatched (s : State) (h : RegHit) : Option Nat :=
  let o := h.row.off
  match h.blk with
  | .tim =>
    let cap := (capUnit s h.idx).fifo.head?.getD []
    let txf := (txStamps s h.idx).fifo.head?.getD []
    firstSome [
      (o == 0x10, tFrac s.now), (o == 0x14, tNs s.now), (o == 0x18, tSec s.now),
      (o == 0x54, tNs s.tim.ppsIn + 2 ^ 31 * b2n (bit 31 (rg s R.timPpsInNs))), (o == 0x58, cut 32 (tSec s.tim.ppsIn)),
      (o == 0x5C, tFrac s.tim.ppsIn),
      (decide (0x918 ≤ o) && decide (o ≤ 0x924), nth 0 cap ((o - 0x918) / 4)),
      (decide (0x1010 ≤ o) && decide (o ≤ 0x101C), nth 0 txf ((o - 0x1010) / 4))]
  | .ser =>
    let t := tsOf s (4 * h.inst + h.idx)
    firstSome [
      (o == 0x864, nth 0 t.peerTx 0), (o == 0x868, nth 0 t.peerTx 1), (o == 0x86C, nth 0 t.peerTx 2),
      (o == 0x870, cut 32 (tSec t.devRx)), (o == 0x874, tNs t.devRx), (o == 0x878, tFrac t.devRx),
      (o == 0x880, cut 32 (tSec t.devTx)), (o == 0x884, tNs t.devTx), (o == 0x888, tFrac t.devTx),
      (o == 0x890, nth 0 t.peerRx 0), (o == 0x894, nth 0 t.peerRx 1), (o == 0x898, nth 0 t.peerRx 2)]
  | .pmu =>
    let c := ctrNow s h.inst h.idx
    if pmuPresent s h.inst then
      firstSome [(o == 0x10C, c.1), (o == 0x110, c.2.1), (o == 0x114, c.2.2.1), (o == 0x11C, c.2.2.2.1), (o == 0x120, c.2.2.2.2)]
    else none
  | _ => none

/-- The in-use word of a register (R119, R123). -/
def liveWord (s : State) (h : RegHit) : Nat :=
  if unusedPort s h || idleTsuip s h then halfOf h h.resetVal &&& readMask h
  else match unlatched s h with
    | some v => halfOf h v
    | none =>
      match statusValue s 0 h with
      | some v => halfOf h v
      | none => (regWord s.regs (inUseKey s h.row.cls h.off)).toNat &&& readMask h

/-! ## Reads of BAR0 -/

/-- Where PF0 may read (R44, R58): everything in STAGE, RUN and DRAIN; GLB in WAKE; in PARK the blocks GLB, SVC and MRM, the
snapshot registers of BPM and the MAC statistics. -/
def bar0Open (s : State) (off : Nat) : Bool :=
  match s.md.mode with
  | .reset => false
  | .wake => decide (off < 0x10000)
  | .park =>
    parkAnswers s && (decide (off < 0x10000) || (decide (0x80000 ≤ off) && decide (off < 0xA0000)) ||
      (decide (0x60044 ≤ off) && decide (off < 0x60054)) || (decide (0x61000 ≤ off) && decide (off < 0x61900)) ||
      (decide (0x400000 ≤ off) && decide (off < 0x440000) && decide (0x100 ≤ off % 0x400)))
  | _ => true

/-- A register that a read clears; the copies of the MAC statistics in PARK are not cleared (R58). -/
def clearsNow (s : State) (h : RegHit) : Bool :=
  hasAcc h (· == .rc) && !(decide (s.md.mode = .park) && decide (h.blk = .mac)) && !unusedPort s h

/-- Clearing the RC bits of one stored word. -/
def clearWord (h : RegHit) (s : State) : State :=
  let v := rg s h.off
  setRg h.off (v - (v &&& accMask h (· == .rc))) s

/-- The words of a pair that keep a latch of their own instead of R8's (R232, R491). -/
def ownLatch (h : RegHit) : Bool := (h.blk == .tim && h.row.off == 0x18) || (h.blk == .pmu && h.row.off == 0x114)

/-- The key of R8's latch, for a register and a party. -/
def latchKey (off : Nat) (p : Party) : Nat := 3 * off + partyCode p

/-- A read at a register's own offset (R5, R8); `path` is 1 through the user alias, whose latches lie at its own offsets. -/
def readWord (off path : Nat) (h : RegHit) (s : State) : State :=
  if h.row.wide && !ownLatch h then
    if h.hiWord then answer (kvGetD 0 (latchKey (off - 4) .pf0) s.lat.high).toNat s
    else
      let v := ownWord s path h
      let hi := ownWord s path { h with hiWord := true }
      let s1 := { s with lat := { s.lat with high := kvPut (latchKey off .pf0) (BitVec.ofNat 32 hi) s.lat.high } }
      answer v (whenDo (clearsNow s h) (fun s => clearWord { h with hiWord := true } (clearWord h s)) s1)
  else answer (ownWord s path h) (whenDo (clearsNow s h) (clearWord h) s)

/-- The reads that latch other registers have rows of their own; a read of their register is the same access. -/
def readSpecial (h : RegHit) (s : State) : Option State :=
  let o := h.row.off
  match h.blk with
  | .tim =>
    if o = 0x10 then some (goOn s (execTimeNowRead .pf0 s))
    else if o = 0x54 then some (goOn s (execPpsInRead .pf0 s))
    else if o = 0x918 then some (goOn s (execCaptureFifoRead .pf0 h.idx s))
    else if o = 0x1010 then some (goOn s (execTxfRead .pf0 h.idx s))
    else none
  | .ser => if o = 0x860 ∧ portTsuip s (4 * h.inst + h.idx) = true then some (goOn s (execTtmSeqRead .pf0 (4 * h.inst + h.idx) s)) else none
  | .pmu => if o = 0x10C then some (goOn s (execCounterRead h.inst h.idx false s)) else none
  | _ => none

/-- A read of a register at its own offset, once the access is allowed. -/
def readPlain (off : Nat) (s : State) : State :=
  match regAt off with
  | none => answer 0 s
  | some h => if unusedPort s h then readWord off 0 h s else (readSpecial h s).getD (readWord off 0 h s)

/-- A read through the live view: no side effect, and a latch of its own (R119). -/
def readLive (off : Nat) (s : State) : State :=
  match regAt off with
  | none => answer 0 s
  | some h =>
    if h.row.wide then
      if h.hiWord then answer (kvGetD 0 (off - 4) s.lat.live).toNat s
      else
        let hi := liveWord s { h with hiWord := true }
        answer (liveWord s h) { s with lat := { s.lat with live := kvPut off (BitVec.ofNat 32 hi) s.lat.live } }
    else answer (liveWord s h) s

/-- A read of page `u` of the user alias (R143). -/
def readAlias (off : Nat) (s : State) : State :=
  let u := (off - 0x3F00000) / 0x1000
  if 30 ≤ u ∨ bit u (rg s R.prtGrantPmu) = false then answer 0 s
  else match regAt (0x180000 + (off - 0x3F00000)) with
    | none => answer 0 s
    | some h => if h.row.off = 0x10C then goOn s (execCounterRead u h.idx true s) else readWord off 1 h s

/-- A read of BAR0 by PF0. In WAKE a read outside the GLB block returns 0 (R49). -/
def readBar0 (off : Nat) (s : State) : State :=
  if !bar0Open s off then whenDo (decide (s.md.mode = .wake)) (answer 0) s
  else if off < 0x2000000 then readPlain off s
  else if off < 0x3F00000 then readLive (off - 0x2000000) s
  else readAlias off s

/-! ## BAR2 and BAR4 -/

/-- The ring of a doorbell page (R74). -/
def pageRing (page : Nat) : Option (RingKind × Nat) :=
  if page < 64 then some (.rx, page) else if page < 128 then some (.tx, page - 64)
  else if page < 136 then some (.cmd, page - 128) else if page < 144 then some (.evt, page - 136)
  else if page = 144 then some (.rdo, 0) else none

/-- A read of a doorbell page: TAIL and HEAD; all else reads 0 (R78). -/
def readBell (off : Nat) (s : State) : State :=
  answer (match pageRing (off / 0x1000) with
    | none => 0
    | some (k, n) => if off % 0x1000 = 0 then (ring s k n).tail else if off % 0x1000 = 4 then (ring s k n).head else 0) s

/-- The word of the MSI-X table or of the pending bit array at an offset of BAR4 (R71, assumption 6). -/
def msixWord (s : State) (off : Nat) : Nat :=
  if off < 0x1000 then (kvGetD (if off % 16 = 12 then 1 else 0) off s.host.msix).toNat
  else if 0x8000 ≤ off ∧ off < 0x8020 then bitsOf 32 fun i => s.host.msixPending.contains (8 * (off - 0x8000) + i)
  else 0

/-! ## The warden window (R150) -/

/-- A sensor's word: 0x8000 until the first sample (R550). -/
def tempWord (s : State) (t : Int) : Nat := if s.therm.read then unsgn 16 t else 0x8000

/-- The registers of the window that are no pair. With no change pending W_ITEM, W_NONCE and W_VAL read 0 and W_DIGEST the last
digest (assumption 142). -/
def wardenWord (s : State) (off : Nat) : Nat :=
  let p := s.prot.pending
  let t := s.therm.temps
  (firstSome [
    (off == 0, prtStatusWord s), (off == 8, windowLeft s),
    (off == 0xC, (p.map fun x => x.item % 256 + x.count % 256 * 2 ^ 8).getD 0),
    (decide (0x40 ≤ off) && decide (off < 0x88), nth 0 ((p.map (·.values)).getD []) ((off - 0x40) / 4)),
    (decide (0x90 ≤ off) && decide (off < 0xB0), wordAt s.prot.digest ((off - 0x90) / 4)),
    (off == 0x100, s.side.event), (off == 0x104, s.side.eventEn),
    (off == 0x300, tempWord s t.die), (off == 0x304, tempWord s t.hbm0), (off == 0x308, tempWord s t.hbm1),
    (off == 0x30C, tempWord s t.hbm2), (off == 0x310, tempWord s t.hbm3),
    (decide (0x1000 ≤ off) && decide (off < 0x1400), faultLogWord s ((off - 0x1000) / 4)),
    (decide (0x1400 ≤ off) && decide (off < 0x1600), wordAt (kvGetD [] ((off - 0x1400) / 16) s.mram.zeroLog) (off % 16 / 4)),
    (decide (0x2000 ≤ off) && decide (off < 0x8000), healthWord s ((off - 0x2000) / 4))]).getD 0

/-- The value of a pair of the window: the pending nonce, the unique identifier, and the pairs of the GLB mirror. -/
def wardenPair (s : State) (off : Nat) : Option Nat :=
  if off / 8 * 8 = 0x10 then some ((s.prot.pending.map (·.nonce)).getD 0)
  else if off / 8 * 8 = 0x18 then some s.dev.uniqueId
  else none

/-- A pair of the window read word by word, with the party's latch (R8). -/
def readWardenPair (p : Party) (off v : Nat) (s : State) : State :=
  if off % 8 = 4 then answer (kvGetD 0 (latchKey (0x8000000 + off - 4) p) s.lat.high).toNat s
  else answer (v % 2 ^ 32)
    { s with lat := { s.lat with high := kvPut (latchKey (0x8000000 + off) p) (BitVec.ofNat 32 (v / 2 ^ 32)) s.lat.high } }

/-- A read of the GLB mirror: GLB 0x0000 to 0x00FF. -/
def readMirror (p : Party) (off : Nat) (s : State) : State :=
  match regAt (off - 0x200) with
  | none => answer 0 s
  | some h =>
    if h.row.wide then
      readWardenPair p off (ownWord s 0 { h with hiWord := false } + ownWord s 0 { h with hiWord := true } * 2 ^ 32) s
    else answer (ownWord s 0 h) s

/-- A read of the warden window by PF1 or the side port. -/
def readWarden (p : Party) (off : Nat) (s : State) : State :=
  if !windowOpen s p then s
  else if 0x200 ≤ off ∧ off < 0x300 then readMirror p off s
  else match wardenPair s off with
    | some v => readWardenPair p off v s
    | none => answer (wardenWord s off) s

/-! ## Access errors (R4, R73) -/

/-- An access of the wrong width or alignment: a read returns 0; it is counted, and but for PF1 sends an ACCESS event of
type 0.
In RESET and PARK it is not taken (R44, R58). -/
def accessError (a : BadAccess) (s : State) : State :=
  let s1 := if a.write then s else answer 0 s
  if a.party = .side ∨ s.md.mode = .reset ∨ s.md.mode = .park then s1
  else
    let s2 := incRg R.rngAccessErr s1
    if a.party = .pf1 then s2
    else emit 0xC 0 94 [a.off % 2 ^ 26 + a.bar % 4 * 2 ^ 26 + b2n a.write * 2 ^ 28, a.byteEnables % 256] s2

/-- ACCESS_ERROR. -/
def execAccessError (a : BadAccess) (s : State) : Host.Outcome State Fault Refusal := .next (accessError a s)

/-! ## The side port (R153) -/

/-- The bytes that a transaction of the side port sends before its PEC: address and direction, the two offset bytes, data. -/
def sideBytes (addr off : Nat) (data : List Byte) : List Byte := BitVec.ofNat 8 (2 * addr) :: (toBE 2 off ++ data)

/-- The side port's static address, which SMBus and SETDASA use. -/
def sideStatic (s : State) : Nat := 0x38 + s.dev.sideAddr

/-- SETDASA or ENTDAA before the transaction gives the side port a dynamic address. -/
def sideAssign (f : Option SideFrame) (s : State) : State :=
  match f.bind (·.assign) with
  | some d => { s with side := { s.side with dynamic := some (d % 128) } }
  | none => s

/-- The transaction is addressed to the device: at its static address, or at the dynamic one that it holds. -/
def sideAddressed (s : State) : Option SideFrame → Bool
  | none => true
  | some f => f.addr == sideStatic s || some f.addr == s.side.dynamic

/-- A write's PEC, where it carries one, is right: the CRC-8 of SMBus over the bytes before it. -/
def sidePecOk (off : Nat) (data : List Byte) : Option SideFrame → Bool
  | some ⟨addr, some pec, _⟩ => pec == crc8 (sideBytes addr off data)
  | _ => true

/-- The PEC byte that the device sends after the four data bytes of an SMBus read: over the offset's write, the address with the read
bit, and the data. -/
def sideReadPec (off : Nat) (v : Word) (f : SideFrame) : Nat :=
  crc8 (sideBytes f.addr off [] ++ BitVec.ofNat 8 (2 * f.addr + 1) :: toLE 4 v.toNat)

/-- The device sends that byte where the transaction is one of SMBus. -/
def sendPec (off : Nat) (fr : Option SideFrame) (s : State) : State :=
  match fr with
  | some f => whenDo f.pec.isSome (fun s => { s with side := { s.side with pec := sideReadPec off s.lat.rdata f } }) s
  | none => s

/-! ## The rows -/

/-- A read as it reaches the device. At an offset of the side port that is no multiple of 4 it gives 0. -/
def regRead (a : RegRead) (s : State) : State :=
  match a.party with
  | .pf0 =>
    if a.off % 4 ≠ 0 then accessError ⟨.pf0, a.bar, a.off, false, 0xF⟩ s
    else if a.bar = 0 then readBar0 a.off s
    else if a.bar = 2 then whenDo (hostOpen s) (readBell a.off) s
    else if a.bar = 4 then whenDo (hostOpen s) (fun s => answer (msixWord s a.off) s) s
    else s
  | .pf1 => if a.off % 4 ≠ 0 then accessError ⟨.pf1, 0, a.off, false, 0xF⟩ s else readWarden .pf1 a.off s
  | .side =>
    let s1 := sideAssign a.frame s
    whenDo (sideAddressed s1 a.frame)
      (fun s => sendPec a.off a.frame (if a.off % 4 = 0 then readWarden .side a.off s else answer 0 s)) s1

/-- WIDE_LOW_WORD_READ (R8). -/
def execWideLowWordRead (a : RegRead) (s : State) : Host.Outcome State Fault Refusal := .next (regRead a s)

/-- CLEAR_ON_READ (R5). -/
def execClearOnRead (a : RegRead) (s : State) : Host.Outcome State Fault Refusal := .next (regRead a s)

end Sys2Proof.Machine
end

