-- ==== Sys2Proof/Machine/RegAccess.lean ====
section
/-! DEFINITION. Writes of registers by the three parties: BAR0, the doorbell pages, the MSI-X table and the warden window
(R5 to R9, R12, R65, R71, R78, R122, R141 to R144, R150). A write of a register that has a row of its own acts as that
row, with nothing fetched, measured or written to host memory beside it. -/

namespace Sys2Proof.Machine

open Sys2Proof

/-! ## GLB, RNG -/

/-- A write of GLB_MODE_CMD (R65). -/
def writeModeCmd (w : Word) (s : State) : State :=
  let c := fld 3 0 w.toNat
  if c = 1 then goOn s (execGoRun s)
  else if c = 2 then goOn s (execDrainToStage s)
  else if c = 3 then goOn s (execDrainToPark (bit 8 w.toNat) s)
  else if c = 0xF then goOn s (execFullReset w s)
  else whenDo (glbOpen s) (cmdResult c 2) s

/-- A write of GLB_IMAGE_CMD (R138). Codes outside 1 to 6, for which R138 gives no effect, do nothing (assumption 139). -/
def writeImageCmd (w : Word) (s : State) : State :=
  let slot := fld 5 4 w.toNat
  match fld 3 0 w.toNat with
  | 1 => goOn s (execLoadApply [] true s)
  | 2 => goOn s (execStore slot [] true s)
  | 3 => goOn s (execApplySlot slot s)
  | 4 => goOn s (execMark slot s)
  | 5 => goOn s (execUnmark slot s)
  | 6 => goOn s (execErase slot s)
  | _ => pf0Write R.glbImageCmd id s

/-- A write of a ring's CTRL (R80, R81, R114): with ENABLE = 0 it stops the ring; SIZE_LOG2 is ignored while ACTIVE = 1. -/
def writeRingCtrl (k : RingKind) (n : Nat) (w : Word) (s : State) : State :=
  if bit 0 w.toNat then goOn s (execRingEnable k n w s)
  else
    let off := ringRegs k n + 8
    let v := rg s off
    let v1 := putFld 6 6 (fld 6 6 w.toNat) (putFld 15 8 (fld 15 8 w.toNat) v)
    let v2 := if (ring s k n).active then v1 else putFld 5 2 (fld 5 2 w.toNat) v1
    goOn s (execRingDisable k n 0 (setRg off v2 s))

/-- A write of one of a ring's other registers: BASE and CFG are ignored while ACTIVE = 1 (R80). -/
def writeRingReg (k : RingKind) (h : RegHit) (w : Word) (s : State) : State :=
  let o := h.row.off % 0x40
  if (o = 0 ∨ o = 0xC) ∧ (ring s k h.idx).active = true then s else putPlain h w s

/-! ## PRT -/

/-- A write of PRT_CMD (R149). Codes outside 1 to 4, for which R149 gives no effect, do nothing (assumption 140). -/
def writePrtCmd (w : Word) (s : State) : State :=
  match fld 3 0 w.toNat with
  | 1 => goOn s (execNewNonce s)
  | 2 => goOn s (execStage (fld 15 8 w.toNat) (fld 20 16 w.toNat) s)
  | 3 => goOn s (execWithdraw s)
  | 4 => goOn s (execProvisionOpKey s)
  | _ => pf0Write R.prtCmd id s

/-- PROTECT_COMMIT is pending (R141). -/
def commitPending (s : State) : Bool :=
  match s.prot.pending with
  | some p => p.item == 1
  | none => false

/-- A write of PRT_MAP, PRT_GRANT_PMU or PRT_ENABLE: refused after the protection commit, and while it is pending (R6,
R141). -/
def writeRwl (h : RegHit) (w : Word) (s : State) : State :=
  if s.prot.committed || commitPending s then violation h.off 0 s
  else putWord 0 h (if h.row.off = 0x100 then mapMask h.idx w.toNat else w.toNat) s

/-- A write of the PRT block. PRT_KEY is write-only and held (R5). -/
def writePrt (h : RegHit) (w : Word) (s : State) : State :=
  let o := h.row.off
  if o = 4 then writePrtCmd w s
  else if o = 0x100 ∨ o = 0x140 ∨ o = 0x144 then writeRwl h w s
  else if o = 0xA0 then setRg h.off w.toNat s
  else putPlain h w s

/-! ## Blocks with rows of their own -/

/-- A write of TIM_CMD (R235). -/
def writeTimCmd (w : Word) (s : State) : State :=
  match fld 3 0 w.toNat with
  | 1 => goOn s (execSet s)
  | 2 => goOn s (execStep s)
  | 3 => goOn s (execSlew s)
  | 4 => goOn s (execSlewAbort s)
  | _ => pf0Write R.timCmd (timResult 2) s

/-- A write of GEN_CMD (R355). -/
def writeGenCmd (w : Word) (s : State) : State :=
  match fld 3 0 w.toNat with
  | 1 => goOn s (execCommit none s)
  | 2 => goOn s (execCommitAt none s)
  | 3 => goOn s (execDiscardStaged none s)
  | _ => genCmdOther s

/-- A write of REC_CMD (R478, R481). -/
def writeRecCmd (w : Word) (s : State) : State :=
  match fld 3 0 w.toNat with
  | 1 => goOn s (execFreeze none s)
  | 2 => goOn s (execRelease none (fld 5 4 w.toNat) s)
  | 3 => goOn s (execSealNow none s)
  | _ => pf0Write R.recCmd id s

/-- A write of SER_LANE_CMD (R195). -/
def writeLaneCmd (ln : Nat) (w : Word) (s : State) : State :=
  match fld 3 0 w.toNat with
  | 1 => goOn s (execAdapt ln s)
  | 2 => goOn s (execRestore ln s)
  | 3 => goOn s (execPrbs31Near ln s)
  | 4 => goOn s (execPrbs31Line ln s)
  | 5 => goOn s (execStop ln 0 s)
  | _ => laneWrite ln id s

/-- A write of MAC_CMD: each bit acts (R227). -/
def writeMacCmd (p : Nat) (w : Word) (s : State) : State :=
  macCmdWrite p (fun s => whenDo (bit 1 w.toNat) (restartVerify p) (whenDo (bit 0 w.toNat) (flushHeld p) s)) s

/-- MRM_FAULT_ACK with ACK = 1 frees slot 0 of the fault log; FAULT_NEW counts anew (R63, R526). -/
def faultAck (w : Word) (s : State) : State :=
  whenDo (bit 0 w.toNat) (fun s => { s with mram := { s.mram with slot0Held := false, faultNew := 0 } }) s

/-- FAULT_ACK. -/
def execFaultAck (w : Word) (s : State) : Host.Outcome State Fault Refusal := .next (pf0Write R.mrmFaultAck (faultAck w) s)

/-- MRM_PARK_CAP takes the nearer bound of 120 to 600 W, and is kept in MRAM (R516). -/
def writeParkCap (w : Word) (s : State) : State :=
  { s with mram := { s.mram with parkCap := clampTo 120 600 (fld 9 0 w.toNat) } }

/-- SVC_CFG: UE_LIMIT takes the nearer bound (R523). -/
def writeSvcCfg (w : Word) (s : State) : State :=
  setRg R.svcCfg (bit 0 w.toNat |> b2n |> (· + clampTo 1 65535 (fld 23 8 w.toNat) * 2 ^ 8)) s

/-- GEN_AUTO_CFG: INTERVAL_MS takes the nearer bound (R356). -/
def writeAutoCfg (w : Word) (s : State) : State :=
  setRg R.genAutoCfg (b2n (bit 16 w.toNat) * 2 ^ 16 + clampTo 10 60000 (fld 15 0 w.toNat)) s

/-! ## A register of BAR0 -/

/-- The effect of a write to the registers of a block that act by rows of their own; none for a plain register. Those rows
make their own checks of mode, protection and service state. -/
def writeRow (h : RegHit) (w : Word) (s : State) : Option State :=
  let o := h.row.off
  let i := h.inst
  match h.blk with
  | .glb => if o = 0x24 then some (writeModeCmd w s) else if o = 0x68 then some (writeImageCmd w s) else none
  | .gen => if o = 0 then some (writeGenCmd w s) else none
  | .tim =>
    if o = 0xC then some (writeTimCmd w s) else if o = 8 then some (goOn s (execTimeFaultClear w s))
    else if o = 0x40 then some (goOn s (execFreqAdjWrite h.hiWord w s)) else none
  | .recorder => if o = 0x40 then some (writeRecCmd w s) else none
  | .bpm =>
    if o = 0x14 then some (goOn s (execHbmPartitionWrite w s))
    else if o = 0x40 then some (if bit 0 w.toNat then goOn s (execSnapshot none s) else pf0Write h.off id s) else none
  | .mrm => if o = 4 then some (goOn s (execFaultAck w s)) else none
  | .fdb =>
    if o = 4 then some (goOn s (execSeedWrite false w s)) else if o = 8 then some (goOn s (execSeedWrite true w s))
    else none
  | .prs =>
    if i = 0 ∧ o = 0x10 then some (goOn s (execHashConfigWrite false w s))
    else if i = 0 ∧ o = 0x14 then some (goOn s (execHashConfigWrite true w s)) else none
  | .cls => if o = 0 then some (goOn s (execBankConfigWrite i h.idx w s)) else none
  | .pmu =>
    if o = 0xC then some (goOn s (execZero i w s))
    else if o = 0x100 then some (goOn s (execPmuSettingWrite i h.idx 0 w s))
    else if o = 0x104 then some (goOn s (execPmuSettingWrite i h.idx 1 w s))
    else if o = 0x108 then some (goOn s (execPmuSettingWrite i h.idx 2 w s)) else none
  | .ser =>
    if o = 0x110 then some (writeLaneCmd (4 * i + h.idx) w s)
    else if o = 0x80C then some (if bit 0 w.toNat then goOn s (execWiden (4 * i + h.idx) s) else pf0Write h.off id s) else none
  | .mac => if o = 0x34 then some (writeMacCmd i w s) else none
  | _ => none

/-- A class D or status register that stores what it is given (R122). The hash settings of the slices other than S0 have no
effect of their own (R278); a missing unit's page ignores writes (R486). -/
def writeStored (h : RegHit) (w : Word) (s : State) : State :=
  let o := h.row.off
  match h.blk with
  | .rng =>
    match rngKind o with
    | some k => if o % 0x40 = 8 then writeRingCtrl k h.idx w s else writeRingReg k h w s
    | none => putPlain h w s
  | .prt => writePrt h w s
  | .gen => if o = 0x30 then writeAutoCfg w s else putPlain h w s
  | .svc => if o = 0 then writeSvcCfg w s else putPlain h w s
  | .mrm => if o = 8 then writeParkCap w s else putPlain h w s
  | .fdb =>
    if o = 0x820 then tcmdGo s else if o = 0x800 then tcmdImageWrite h.off w.toNat s else putPlain h w s
  | .pmu => whenDo (pmuPresent s h.inst) (putPlain h w) s
  | _ => if unusedPort s h then s else putPlain h w s

/-- A write of a register by its class. -/
def writeByClass (h : RegHit) (w : Word) (s : State) : State :=
  match h.row.cls with
  | .c => stagedWrite h w s
  | .g => stagedWrite h w s
  | _ => writeStored h w s

/-- MRM_PARK_CAP takes a write during PARK while BAR0 answers there: it acts at the next PARK (R516). -/
def parkCapTaken (s : State) (off : Nat) : Bool := parkAnswers s && off == R.mrmParkCap && !regionLocked s (off / 0x10000)

/-- A write of BAR0 by PF0. In WAKE only the GLB block answers (R44), in PARK MRM_PARK_CAP; the windows ignore writes (R119); an unused
port's instance, and an offset without a register, take nothing, but a locked region refuses the write all the same (R12, R142). -/
def writeBar0 (off : Nat) (w : Word) (s : State) : State :=
  if 0x2000000 ≤ off then s
  else match regAt off with
    | none => pf0Write off id s
    | some h =>
      match if unusedPort s h then some (pf0Write off id s) else writeRow h w s with
      | some t => t
      | none =>
        if (s.md.mode = .wake ∧ off < 0x10000) ∨ parkCapTaken s off then writeByClass h w s
        else pf0Write off (writeByClass h w) s

/-! ## BAR2, BAR4, the warden window -/

/-- A write of a doorbell page (R78). -/
def writeBell (off : Nat) (w : Word) (s : State) : State :=
  match pageRing (off / 0x1000) with
  | none => s
  | some (k, n) =>
    if off % 0x1000 = 0 then goOn s (execDoorbellTail k n (fld 15 0 w.toNat) [] s)
    else if off % 0x1000 = 8 then goOn s (execArm k n (fld 15 0 w.toNat) (bit 31 w.toNat) s)
    else s

/-- A write of the MSI-X table: a vector that loses its mask sends the message it holds (R112). -/
def writeMsix (off : Nat) (w : Word) (s : State) : State :=
  if 0x1000 ≤ off then s
  else
    let d : Word := if off % 16 = 12 then 1 else 0
    let s1 := { s with host := { s.host with msix := kvSet d off w s.host.msix } }
    let v := off / 16
    if off % 16 = 12 ∧ bit 0 w.toNat = false ∧ s.host.msixPending.contains v = true then
      sendMsi v { s1 with host := { s1.host with msixPending := s1.host.msixPending.filter (· != v) } }
    else s1

/-- A word of W_CONFIRM or W_KEY. -/
def writeWardenWords (p : Party) (off : Nat) (f : SideRegs → SideRegs) (s : State) : State :=
  if p = wardenParty s then { s with side := f s.side } else violation off (partyCode p) s

/-- A write of the warden window by PF1 or the side port (R144, R150, R151). -/
def writeWarden (p : Party) (off : Nat) (w : Word) (s : State) : State :=
  if !windowOpen s p then s
  else if 0x20 ≤ off ∧ off < 0x40 then
    writeWardenWords p off (fun x => { x with confirm := x.confirm.set ((off - 0x20) / 4) w.toNat }) s
  else if 0xC0 ≤ off ∧ off < 0xE0 then
    writeWardenWords p off (fun x => { x with key := x.key.set ((off - 0xC0) / 4) w.toNat }) s
  else if off = 4 then
    match fld 3 0 w.toNat with
    | 1 => goOn s (execConfirm p true s)
    | 2 => goOn s (execReject p s)
    | 3 => goOn s (execProvision p s)
    | _ => asWarden p id s
  else if off = 0x100 then { s with side := { s.side with event := s.side.event - (s.side.event &&& w.toNat) } }
  else if off = 0x104 then { s with side := { s.side with eventEn := w.toNat % 256 } }
  else if p = .side ∧ (off = 0x230 ∨ off = 0x234) then goOn s (execDateHintWrite (off == 0x234) w s)
  else s

/-! ## The row -/

/-- A 32-bit write as it reaches the device. The side port ignores one whose PEC is wrong (R153), or whose offset is no multiple of
4. -/
def regWrite (a : RegWrite) (s : State) : State :=
  match a.party with
  | .pf0 =>
    if a.off % 4 ≠ 0 then accessError ⟨.pf0, a.bar, a.off, true, 0xF⟩ s
    else if a.bar = 0 then writeBar0 a.off a.val s
    else if a.bar = 2 then whenDo (hostOpen s) (writeBell a.off a.val) s
    else if a.bar = 4 then whenDo (hostOpen s) (writeMsix a.off a.val) s
    else s
  | .pf1 => if a.off % 4 ≠ 0 then accessError ⟨.pf1, 0, a.off, true, 0xF⟩ s else writeWarden .pf1 a.off a.val s
  | .side =>
    let s1 := sideAssign a.frame s
    whenDo (sideAddressed s1 a.frame && a.off % 4 == 0 && sidePecOk a.off (toLE 4 a.val.toNat) a.frame)
      (writeWarden .side a.off a.val) s1

/-- REGISTER_WRITE (R5, R122). -/
def execRegisterWrite (a : RegWrite) (s : State) : Host.Outcome State Fault Refusal := .next (regWrite a s)

end Sys2Proof.Machine
end

