-- ==== Sys2Proof/Machine/Dispatch.lean ====
section
/-! DEFINITION. One arm per command: a direct call of its meaning (every family file gives its own). -/

namespace Sys2Proof.Machine

open Sys2Proof

/-- The effect of a command on everything but the queue. -/
def exec (i : Instr) (s : State) : Host.Outcome State Fault Refusal :=
  match i with
  | .powerOnDetect rail uv => Sys2Proof.Machine.execPowerOnDetect rail uv s
  | .resetNLow ns => Sys2Proof.Machine.execResetNLow ns s
  | .resetNHigh st => Sys2Proof.Machine.execResetNHigh st s
  | .fullReset w => Sys2Proof.Machine.execFullReset w s
  | .fullResetTimeout st => Sys2Proof.Machine.execFullResetTimeout st s
  | .refclk00Measure ppm125 ppm156 => Sys2Proof.Machine.execRefclk00Measure ppm125 ppm156 s
  | .warmingComplete t => Sys2Proof.Machine.execWarmingComplete t s
  | .warmTimeout mramOk => Sys2Proof.Machine.execWarmTimeout mramOk s
  | .wakeComplete f => Sys2Proof.Machine.execWakeComplete f s
  | .goRun => Sys2Proof.Machine.execGoRun s
  | .runTime => Sys2Proof.Machine.execRunTime s
  | .drainToStage => Sys2Proof.Machine.execDrainToStage s
  | .drainToPark force => Sys2Proof.Machine.execDrainToPark force s
  | .drainTime => Sys2Proof.Machine.execDrainTime s
  | .drainComplete mramOk => Sys2Proof.Machine.execDrainComplete mramOk s
  | .parkBatchStart figure power => Sys2Proof.Machine.execParkBatchStart figure power s
  | .parkWaveComplete ms peakW blocks fails => Sys2Proof.Machine.execParkWaveComplete ms peakW blocks fails s
  | .fatalFault code island detail => Sys2Proof.Machine.execFatalFault code island detail s
  | .mgmtWatchdog => Sys2Proof.Machine.execMgmtWatchdog s
  | .faultRecordWritten mramOk => Sys2Proof.Machine.execFaultRecordWritten mramOk s
  | .powerRemoval torn => Sys2Proof.Machine.execPowerRemoval torn s
  | .supplyMonitorCheck rail uv outNs => Sys2Proof.Machine.execSupplyMonitorCheck rail uv outNs s
  | .temperatureSample t => Sys2Proof.Machine.execTemperatureSample t s
  | .dateHintWrite high val => Sys2Proof.Machine.execDateHintWrite high val s
  | .pciePerstNLow => Sys2Proof.Machine.execPciePerstNLow s
  | .pcieLinkUp width speed => Sys2Proof.Machine.execPcieLinkUp width speed s
  | .pcieLinkLoss => Sys2Proof.Machine.execPcieLinkLoss s
  | .flrPf0 => Sys2Proof.Machine.execFlrPf0 s
  | .flrPf1 => Sys2Proof.Machine.execFlrPf1 s
  | .accessError a => Sys2Proof.Machine.execAccessError a s
  | .registerWrite a => Sys2Proof.Machine.execRegisterWrite a s
  | .wideLowWordRead a => Sys2Proof.Machine.execWideLowWordRead a s
  | .clearOnRead a => Sys2Proof.Machine.execClearOnRead a s
  | .doorbellTail k n idx host => Sys2Proof.Machine.execDoorbellTail k n idx host s
  | .arm k n seen armBit => Sys2Proof.Machine.execArm k n seen armBit s
  | .ringEnable k n v => Sys2Proof.Machine.execRingEnable k n v s
  | .ringDisable k n fetched => Sys2Proof.Machine.execRingDisable k n fetched s
  | .ringStopped k n => Sys2Proof.Machine.execRingStopped k n s
  | .dmaError k n fetched bad => Sys2Proof.Machine.execDmaError k n fetched bad s
  | .txFrameAdmit n => Sys2Proof.Machine.execTxFrameAdmit n s
  | .rxDelivery ecc => Sys2Proof.Machine.execRxDelivery ecc s
  | .eventRecordWrite n => Sys2Proof.Machine.execEventRecordWrite n s
  | .irqHoldoffExpiry k n => Sys2Proof.Machine.execIrqHoldoffExpiry k n s
  | .readoutRequest => Sys2Proof.Machine.execReadoutRequest s
  | .readoutComplete dmaOk copied => Sys2Proof.Machine.execReadoutComplete dmaOk copied s
  | .loadApply host dmaOk => Sys2Proof.Machine.execLoadApply host dmaOk s
  | .store slot host dmaOk => Sys2Proof.Machine.execStore slot host dmaOk s
  | .applySlot slot => Sys2Proof.Machine.execApplySlot slot s
  | .mark slot => Sys2Proof.Machine.execMark slot s
  | .unmark slot => Sys2Proof.Machine.execUnmark slot s
  | .erase slot => Sys2Proof.Machine.execErase slot s
  | .imageCommandComplete => Sys2Proof.Machine.execImageCommandComplete s
  | .newNonce => Sys2Proof.Machine.execNewNonce s
  | .stage item count => Sys2Proof.Machine.execStage item count s
  | .withdraw => Sys2Proof.Machine.execWithdraw s
  | .provisionOpKey => Sys2Proof.Machine.execProvisionOpKey s
  | .confirm p mramOk => Sys2Proof.Machine.execConfirm p mramOk s
  | .reject p => Sys2Proof.Machine.execReject p s
  | .provision p => Sys2Proof.Machine.execProvision p s
  | .protectWindowExpiry => Sys2Proof.Machine.execProtectWindowExpiry s
  | .zeroiseAll ir dr trst mramOk => Sys2Proof.Machine.execZeroiseAll ir dr trst mramOk s
  | .faultAck w => Sys2Proof.Machine.execFaultAck w s
  | .refclkGoodChange k ppm => Sys2Proof.Machine.execRefclkGoodChange k ppm s
  | .losAssert ln => Sys2Proof.Machine.execLosAssert ln s
  | .losClear ln => Sys2Proof.Machine.execLosClear ln s
  | .lolAssert ln => Sys2Proof.Machine.execLolAssert ln s
  | .lolClear ln => Sys2Proof.Machine.execLolClear ln s
  | .pcsLockChange ln lock hiBer errors => Sys2Proof.Machine.execPcsLockChange ln lock hiBer errors s
  | .adapt ln => Sys2Proof.Machine.execAdapt ln s
  | .restore ln => Sys2Proof.Machine.execRestore ln s
  | .prbs31Near ln => Sys2Proof.Machine.execPrbs31Near ln s
  | .prbs31Line ln => Sys2Proof.Machine.execPrbs31Line ln s
  | .stop ln errors => Sys2Proof.Machine.execStop ln errors s
  | .laneCommandComplete ln eye ok => Sys2Proof.Machine.execLaneCommandComplete ln eye ok s
  | .widen p => Sys2Proof.Machine.execWiden p s
  | .dskReceive p d => Sys2Proof.Machine.execDskReceive p d s
  | .crdReceive p d => Sys2Proof.Machine.execCrdReceive p d s
  | .ttmReceive p d => Sys2Proof.Machine.execTtmReceive p d s
  | .cycReceive p d => Sys2Proof.Machine.execCycReceive p d s
  | .tLanesExpiry p => Sys2Proof.Machine.execTLanesExpiry p s
  | .tConfigExpiry p => Sys2Proof.Machine.execTConfigExpiry p s
  | .tRetrainExpiry p => Sys2Proof.Machine.execTRetrainExpiry p s
  | .laneFailure p seen => Sys2Proof.Machine.execLaneFailure p seen s
  | .stableMsExpiry p => Sys2Proof.Machine.execStableMsExpiry p s
  | .skpSend p => Sys2Proof.Machine.execSkpSend p s
  | .dskSend p => Sys2Proof.Machine.execDskSend p s
  | .crdSend p cls => Sys2Proof.Machine.execCrdSend p cls s
  | .ttmSend p => Sys2Proof.Machine.execTtmSend p s
  | .cycMarkSend p => Sys2Proof.Machine.execCycMarkSend p s
  | .ttmSeqRead pt p => Sys2Proof.Machine.execTtmSeqRead pt p s
  | .macFrameReceive p f => Sys2Proof.Machine.execMacFrameReceive p f s
  | .pauseHoldExpiry p prio => Sys2Proof.Machine.execPauseHoldExpiry p prio s
  | .upHoldoffExpiry p => Sys2Proof.Machine.execUpHoldoffExpiry p s
  | .linkHoldExpiry p => Sys2Proof.Machine.execLinkHoldExpiry p s
  | .flush p => Sys2Proof.Machine.execFlush p s
  | .restartVerify p => Sys2Proof.Machine.execRestartVerify p s
  | .verifyTimer p => Sys2Proof.Machine.execVerifyTimer p s
  | .verifyMpacketReceive p respond => Sys2Proof.Machine.execVerifyMpacketReceive p respond s
  | .pauseFrameTransmit p => Sys2Proof.Machine.execPauseFrameTransmit p s
  | .xoffRepeat p prio => Sys2Proof.Machine.execXoffRepeat p prio s
  | .set => Sys2Proof.Machine.execSet s
  | .step => Sys2Proof.Machine.execStep s
  | .slew => Sys2Proof.Machine.execSlew s
  | .slewAbort => Sys2Proof.Machine.execSlewAbort s
  | .timeJumpEffect => Sys2Proof.Machine.execTimeJumpEffect s
  | .slewComplete => Sys2Proof.Machine.execSlewComplete s
  | .freqAdjWrite high val => Sys2Proof.Machine.execFreqAdjWrite high val s
  | .timeFaultClear w => Sys2Proof.Machine.execTimeFaultClear w s
  | .timeBaseFault replica island => Sys2Proof.Machine.execTimeBaseFault replica island s
  | .referenceLost pps avg => Sys2Proof.Machine.execReferenceLost pps avg s
  | .holdoverEnd => Sys2Proof.Machine.execHoldoverEnd s
  | .loopLocked adj => Sys2Proof.Machine.execLoopLocked adj s
  | .ppsInEdge t pulse => Sys2Proof.Machine.execPpsInEdge t pulse s
  | .ppsInRead pt => Sys2Proof.Machine.execPpsInRead pt s
  | .ppsOutRise => Sys2Proof.Machine.execPpsOutRise s
  | .ppsOutFall => Sys2Proof.Machine.execPpsOutFall s
  | .cycleEdge g => Sys2Proof.Machine.execCycleEdge g s
  | .tioOutputStart u => Sys2Proof.Machine.execTioOutputStart u s
  | .tioOutputEnd u => Sys2Proof.Machine.execTioOutputEnd u s
  | .captureEdge u high t pulse => Sys2Proof.Machine.execCaptureEdge u high t pulse s
  | .stuckActive u => Sys2Proof.Machine.execStuckActive u s
  | .txfRead pt p => Sys2Proof.Machine.execTxfRead pt p s
  | .captureFifoRead pt u => Sys2Proof.Machine.execCaptureFifoRead pt u s
  | .timeNowRead pt => Sys2Proof.Machine.execTimeNowRead pt s
  | .replicaRealign errs => Sys2Proof.Machine.execReplicaRealign errs s
  | .frameArrival sl errs => Sys2Proof.Machine.execFrameArrival sl errs s
  | .recirculationAdmit ecc => Sys2Proof.Machine.execRecirculationAdmit ecc s
  | .strWrite c => Sys2Proof.Machine.execStrWrite c s
  | .strRead c => Sys2Proof.Machine.execStrRead c s
  | .clsWrite c => Sys2Proof.Machine.execClsWrite c s
  | .clsInvalidate c => Sys2Proof.Machine.execClsInvalidate c s
  | .clsRead c => Sys2Proof.Machine.execClsRead c s
  | .readHits c => Sys2Proof.Machine.execReadHits c s
  | .hgtWrite c => Sys2Proof.Machine.execHgtWrite c s
  | .hgtRead c => Sys2Proof.Machine.execHgtRead c s
  | .hgtReadCounters c => Sys2Proof.Machine.execHgtReadCounters c s
  | .unblock c => Sys2Proof.Machine.execUnblock c s
  | .resetRcv c => Sys2Proof.Machine.execResetRcv c s
  | .tcamScrub n action bad => Sys2Proof.Machine.execTcamScrub n action bad s
  | .tcamRepair n => Sys2Proof.Machine.execTcamRepair n s
  | .hashConfigWrite seed v => Sys2Proof.Machine.execHashConfigWrite seed v s
  | .bankConfigWrite sl b v => Sys2Proof.Machine.execBankConfigWrite sl b v s
  | .fdbInsert c => Sys2Proof.Machine.execFdbInsert c s
  | .fdbDelete c => Sys2Proof.Machine.execFdbDelete c s
  | .fdbLookup c => Sys2Proof.Machine.execFdbLookup c s
  | .fdbRead c => Sys2Proof.Machine.execFdbRead c s
  | .fdbFlush c => Sys2Proof.Machine.execFdbFlush c s
  | .fdbDump c => Sys2Proof.Machine.execFdbDump c s
  | .lpmInsert c => Sys2Proof.Machine.execLpmInsert c s
  | .lpmDelete c => Sys2Proof.Machine.execLpmDelete c s
  | .lpmLookup c => Sys2Proof.Machine.execLpmLookup c s
  | .lpmMatch c => Sys2Proof.Machine.execLpmMatch c s
  | .nhpWrite c => Sys2Proof.Machine.execNhpWrite c s
  | .nhpRead c => Sys2Proof.Machine.execNhpRead c s
  | .writeGroup c => Sys2Proof.Machine.execWriteGroup c s
  | .readGroup c => Sys2Proof.Machine.execReadGroup c s
  | .readBuckets c => Sys2Proof.Machine.execReadBuckets c s
  | .mcgWrite c => Sys2Proof.Machine.execMcgWrite c s
  | .mcgInvalidate c => Sys2Proof.Machine.execMcgInvalidate c s
  | .mcgRead c => Sys2Proof.Machine.execMcgRead c s
  | .writeRun c => Sys2Proof.Machine.execWriteRun c s
  | .learnRequest => Sys2Proof.Machine.execLearnRequest s
  | .ageingVisit n hit => Sys2Proof.Machine.execAgeingVisit n hit s
  | .tableScrub mem idx pair bad => Sys2Proof.Machine.execTableScrub mem idx pair bad s
  | .tableRepair mem idx sl => Sys2Proof.Machine.execTableRepair mem idx sl s
  | .seedWrite one v => Sys2Proof.Machine.execSeedWrite one v s
  | .bucketMove kind group b => Sys2Proof.Machine.execBucketMove kind group b s
  | .commit c => Sys2Proof.Machine.execCommit c s
  | .commitAt c => Sys2Proof.Machine.execCommitAt c s
  | .discardStaged c => Sys2Proof.Machine.execDiscardStaged c s
  | .genStatus c => Sys2Proof.Machine.execGenStatus c s
  | .commitCheckDone => Sys2Proof.Machine.execCommitCheckDone s
  | .commitEffect => Sys2Proof.Machine.execCommitEffect s
  | .commitDrained receiving => Sys2Proof.Machine.execCommitDrained receiving s
  | .commitSettled => Sys2Proof.Machine.execCommitSettled s
  | .discardDone => Sys2Proof.Machine.execDiscardDone s
  | .autoCommitDue => Sys2Proof.Machine.execAutoCommitDue s
  | .engineFrameEntry e => Sys2Proof.Machine.execEngineFrameEntry e s
  | .bundleIssue e corrected bad => Sys2Proof.Machine.execBundleIssue e corrected bad s
  | .eslDataReturn e num corrected => Sys2Proof.Machine.execEslDataReturn e num corrected s
  | .growthCellRetry e num => Sys2Proof.Machine.execGrowthCellRetry e num s
  | .engineHandoff e => Sys2Proof.Machine.execEngineHandoff e s
  | .engineWordRepair c kind key => Sys2Proof.Machine.execEngineWordRepair c kind key s
  | .load c => Sys2Proof.Machine.execLoad c s
  | .unload c => Sys2Proof.Machine.execUnload c s
  | .engRead c => Sys2Proof.Machine.execEngRead c s
  | .tblWrite c => Sys2Proof.Machine.execTblWrite c s
  | .tblRead c => Sys2Proof.Machine.execTblRead c s
  | .esWrite c => Sys2Proof.Machine.execEsWrite c s
  | .esRead c => Sys2Proof.Machine.execEsRead c s
  | .admission => Sys2Proof.Machine.execAdmission s
  | .emptyRetry sl => Sys2Proof.Machine.execEmptyRetry sl s
  | .freeRequest ptr holder req => Sys2Proof.Machine.execFreeRequest ptr holder req s
  | .refillBurst p q corrected ecc => Sys2Proof.Machine.execRefillBurst p q corrected ecc s
  | .refillReturn p q => Sys2Proof.Machine.execRefillReturn p q s
  | .lifetimeTick => Sys2Proof.Machine.execLifetimeTick s
  | .riderVisit ptr broken ecc => Sys2Proof.Machine.execRiderVisit ptr broken ecc s
  | .riderPassEnd reservoir counted => Sys2Proof.Machine.execRiderPassEnd reservoir counted s
  | .snapshot c => Sys2Proof.Machine.execSnapshot c s
  | .reclaim c => Sys2Proof.Machine.execReclaim c s
  | .readRecord c => Sys2Proof.Machine.execReadRecord c s
  | .leakList c => Sys2Proof.Machine.execLeakList c s
  | .auditNow c => Sys2Proof.Machine.execAuditNow c s
  | .readAccount c => Sys2Proof.Machine.execReadAccount c s
  | .hbmPartitionWrite w => Sys2Proof.Machine.execHbmPartitionWrite w s
  | .copyEnqueue p => Sys2Proof.Machine.execCopyEnqueue p s
  | .transmitterFree p ecc => Sys2Proof.Machine.execTransmitterFree p ecc s
  | .copyTransmitEnd p => Sys2Proof.Machine.execCopyTransmitEnd p s
  | .releaseHandover p q => Sys2Proof.Machine.execReleaseHandover p q s
  | .releaseLeadDeadline p q => Sys2Proof.Machine.execReleaseLeadDeadline p q s
  | .timedRelease p ecc => Sys2Proof.Machine.execTimedRelease p ecc s
  | .gateEntryChange p => Sys2Proof.Machine.execGateEntryChange p s
  | .writeEntries c => Sys2Proof.Machine.execWriteEntries c s
  | .readEntries c => Sys2Proof.Machine.execReadEntries c s
  | .schReadCounters c => Sys2Proof.Machine.execSchReadCounters c s
  | .recorderTake ecc => Sys2Proof.Machine.execRecorderTake ecc s
  | .recordWrite => Sys2Proof.Machine.execRecordWrite s
  | .sealIdleExpiry => Sys2Proof.Machine.execSealIdleExpiry s
  | .fateWindowExpiry => Sys2Proof.Machine.execFateWindowExpiry s
  | .freeze c => Sys2Proof.Machine.execFreeze c s
  | .release c region => Sys2Proof.Machine.execRelease c region s
  | .sealNow c => Sys2Proof.Machine.execSealNow c s
  | .verify c => Sys2Proof.Machine.execVerify c s
  | .readLoss c => Sys2Proof.Machine.execReadLoss c s
  | .pmuSettingWrite u k reg w => Sys2Proof.Machine.execPmuSettingWrite u k reg w s
  | .zero u w => Sys2Proof.Machine.execZero u w s
  | .counterRead u k viaAlias => Sys2Proof.Machine.execCounterRead u k viaAlias s
  | .windowPublish u k => Sys2Proof.Machine.execWindowPublish u k s
  | .setState c => Sys2Proof.Machine.execSetState c s
  | .retire c => Sys2Proof.Machine.execRetire c s
  | .test c => Sys2Proof.Machine.execTest c s
  | .healthWrite c => Sys2Proof.Machine.execHealthWrite c s
  | .readState c => Sys2Proof.Machine.execReadState c s
  | .leaveComplete kind idx => Sys2Proof.Machine.execLeaveComplete kind idx s
  | .retireCopyComplete kind idx => Sys2Proof.Machine.execRetireCopyComplete kind idx s
  | .testComplete kind idx pass cause detail => Sys2Proof.Machine.execTestComplete kind idx pass cause detail s
  | .autoRetire idx errors => Sys2Proof.Machine.execAutoRetire idx errors s
  | .healthMapUpdate => Sys2Proof.Machine.execHealthMapUpdate s
  | .suppliesInRange st => Sys2Proof.Machine.execSuppliesInRange st s
  | .referenceReturn pps => Sys2Proof.Machine.execReferenceReturn pps s
  | .spillWriteComplete ch ecc => Sys2Proof.Machine.execSpillWriteComplete ch ecc s
  | .autoNegotiationComplete p match1000Full => Sys2Proof.Machine.execAutoNegotiationComplete p match1000Full s
  | .alignmentLockChange p aligned lanes => Sys2Proof.Machine.execAlignmentLockChange p aligned lanes s
  | .linkFaultSignalChange p faulty => Sys2Proof.Machine.execLinkFaultSignalChange p faulty s

end Sys2Proof.Machine
end

