-- ==== Sys2Proof/Safety.lean ====
section
/-! DEFINITION. What counts as a sound state and a safe run, and the words statements are made of: the parts of the state
that a command may change, an event sent, a table command ready to be given and its answer. -/

namespace Sys2Proof.Safety

open Sys2Proof Sys2Proof.Machine

/-! ## Canonical forms -/

/-- A list of entries keyed by number is in its canonical form: keys strictly rising. -/
def keyed {α : Type} (l : List (Nat × α)) : Prop := kvSorted l = true

/-- The stored registers are in canonical form: keys strictly rising, none at its reset value. -/
def RegsCanonical (s : State) : Prop := regsWf s.regs = true

/-- Host memory is in canonical form: addresses strictly rising, no entry of the value an unlisted address reads as. -/
def HostMemCanonical (s : State) : Prop := memWf s.hmem = true

/-- The two canonical forms together. -/
def Canonical (s : State) : Prop := RegsCanonical s ∧ HostMemCanonical s

/-- A step neither faults nor refuses: the block goes on. -/
def Goes (s : State) : Prop := ∃ t, Sys2Proof.core.step s = .next t

/-! ## Frames -/

/-- The parts of the state, one for each field of `State`. -/
inductive Part
  | modes | device | pins | side | protection | mram | image | host | latches | accounts | links | time | buffer | egress
  | tables | generations | engines | recorder | counters | service | sensors | registers | hostMemory | masterTime
  | elapsed | freeCount | queue
deriving DecidableEq, Repr

/-- A part reads in `t` as in `s`. -/
def Part.same : Part → State → State → Prop
  | .modes, s, t => t.md = s.md
  | .device, s, t => t.dev = s.dev
  | .pins, s, t => t.pins = s.pins
  | .side, s, t => t.side = s.side
  | .protection, s, t => t.prot = s.prot
  | .mram, s, t => t.mram = s.mram
  | .image, s, t => t.img = s.img
  | .host, s, t => t.host = s.host
  | .latches, s, t => t.lat = s.lat
  | .accounts, s, t => t.acct = s.acct
  | .links, s, t => t.lk = s.lk
  | .time, s, t => t.tim = s.tim
  | .buffer, s, t => t.buf = s.buf
  | .egress, s, t => t.eg = s.eg
  | .tables, s, t => t.tab = s.tab
  | .generations, s, t => t.gen = s.gen
  | .engines, s, t => t.eng = s.eng
  | .recorder, s, t => t.recd = s.recd
  | .counters, s, t => t.pmu = s.pmu
  | .service, s, t => t.svc = s.svc
  | .sensors, s, t => t.therm = s.therm
  | .registers, s, t => t.regs = s.regs
  | .hostMemory, s, t => t.hmem = s.hmem
  | .masterTime, s, t => t.now = s.now
  | .elapsed, s, t => t.elapsed = s.elapsed
  | .freeCount, s, t => t.free = s.free
  | .queue, s, t => t.pending = s.pending

/-- From `s` to `t` nothing changes but the parts named: every other part reads as before. -/
def changesOnly (ps : List Part) (s t : State) : Prop := ∀ p : Part, p ∉ ps → p.same s t

/-- Every stored register but those at the offsets named reads as before, in both views. -/
def registersBut (offs : List Nat) (s t : State) : Prop := ∀ k : Nat, k ∉ offs → regWord t.regs k = regWord s.regs k

/-- The parts that a link coming up or going down may change: the port, what it was sending and held queued, the tables that name
it, its counters and its event. -/
def linkParts : List Part :=
  [.host, .accounts, .links, .buffer, .egress, .tables, .recorder, .counters, .registers, .hostMemory]

/-- A write of PF0 to the register at `off` is taken: the host has access (R44), the region is not locked (R142), the unit is in
service (R30). -/
def pf0Open (off : Nat) (s : State) : Prop :=
  hostOpen s = true ∧ regionLocked s (off / 0x10000) = false ∧ shutUnit s off = none

/-- What a lane receives and has been told: all of it but the groups that it sends and their running disparity. -/
def hears (l : Lane) : Lane := { l with txRd := false, txGroups := [] }

/-! ## Events -/

/-- The record of an event whose class is routed to a ring with room in its backlog stands at the backlog's end, with the
ring's next SEQ (R101, R102). -/
def eventSent (cls typ src at' : Nat) (body : List Nat) (s t : State) : Prop :=
  fld 7 7 (rg s (R.rngEvtRoute cls)) = 1 →
    (eventRing s (fld 2 0 (rg s (R.rngEvtRoute cls)))).backlog.length < Config.eventBacklog →
    (eventRing t (fld 2 0 (rg s (R.rngEvtRoute cls)))).backlog =
      (eventRing s (fld 2 0 (rg s (R.rngEvtRoute cls)))).backlog ++
        [eventHead cls typ src at' body ++ toLE 4 ((eventRing s (fld 2 0 (rg s (R.rngEvtRoute cls)))).seq % 2 ^ 24 + 2 ^ 31)]

/-- An MSI-X message of a vector has been raised (R112): sent where the link is up and the vector is not masked, else held
pending. -/
def msiRaised (vec : Nat) (s t : State) : Prop :=
  if bit 0 (kvGetD 1 (vec * 16 + 12) s.host.msix).toNat = true ∨ s.host.linkUp = false then
    t.host.msiSent = s.host.msiSent ∧ vec ∈ t.host.msixPending
  else kvGetD 0 vec t.host.msiSent = kvGetD 0 vec s.host.msiSent + 1 ∧ t.host.msixPending = s.host.msixPending

/-! ## Table commands -/

/-- The registers of the table command register: its image and its answer (R337). -/
def tcmdRegs : List Nat := (List.range 8).map R.fdbTcmd ++ (List.range 8).map R.fdbTcmdRes

/-- A table command is given through the idle table command register and runs at once: the host has access (R44), no commit is
under way (R352), the mode and the form are right and no region it changes is locked (R99, R142), its buffer can be read or
written and the host writes nothing beside it. -/
def tcmdReady (q : CmdSpec) (c : Cmd) (s : State) : Prop :=
  RegsCanonical s ∧ c.via = .tcmd ∧ hostOpen s = true ∧ s.tab.tcmdBusy = false ∧ s.gen.st = 0 ∧ q.modes s = true ∧
    formOk q c = true ∧ (q.regions c).any (regionLocked s) = false ∧
    ∀ l : LongBuf, c.long = some l → l.dmaOk = true ∧ l.host = []

/-- The table command register is idle again and holds the write-back of a command with this STATUS and RESULT (R97, R337). -/
def tcmdAnswered (q : CmdSpec) (c : Cmd) (status : Nat) (result : List Byte) (t : State) : Prop :=
  t.tab.tcmdBusy = false ∧
    ∀ i < 8, rg t (R.fdbTcmdRes i) =
      ofLE (((cmdBytes q.opcode q.target (c.tag % 2 ^ 32) status result).drop (4 * i)).take 4)

/-- The bytes that a command's buffer holds in host memory. -/
def bufBytes (c : Cmd) (s : State) : List Byte := (c.long.map fun l => dmaRead l.addr l.bytes s).getD []

/-- Host memory after the device has written bytes to a command's buffer. -/
def bufWritten (c : Cmd) (data : List Byte) (s : State) : List (Nat × Byte) :=
  (c.long.map fun l => memWrite s.hmem l.addr data).getD s.hmem

/-- The FDB is sound: entries keyed by slot, each in a slot where its key may lie, no key valid twice in a parity (R309, R311). -/
def FdbSound (s : State) : Prop :=
  keyed s.tab.fdb ∧
    (∀ i e, fdbAt s i = some e → i ∈ keySlots s e.mac e.fid ∧ (e.v0 || e.v1) = true) ∧
    ∀ i j e f, fdbAt s i = some e → fdbAt s j = some f → e.mac = f.mac → e.fid = f.fid →
      (e.v0 && f.v0 || e.v1 && f.v1) = true → i = j

/-! ## Modes -/

/-- `t` is the machine in RESET, entered from `s` (R45, R69, R152): MRAM, host memory, the part's fixed values and the queue
are kept; the fence is cleared and FAULT_N released; every register, table, frame and link is as after reset. -/
def resetFrom (s t : State) : Prop :=
  t.md.mode = .reset ∧ t.md.fenced = false ∧ t.pins.faultN = false ∧
    t.dev.uniqueId = s.dev.uniqueId ∧ t.dev.codeAE = s.dev.codeAE ∧ t.mram = s.mram ∧ t.hmem = s.hmem ∧ t.pending = s.pending ∧
    changesOnly [.modes, .device, .pins, .side, .mram, .sensors, .hostMemory, .freeCount, .queue] State.reset t

/-- `t` is the machine at step 1 of WAKE, entered from RESET with these straps (R45, R46): the straps are sampled, master time
restarts (R69), the keys stand in the volatile store (R154). -/
def wakeFrom (st : Straps) (s t : State) : Prop :=
  t.md.mode = .wake ∧ t.md.wakeStep = 1 ∧ t.now = 0 ∧
    t.dev.bootSel = st.bootSel % 4 ∧ t.dev.partySel = st.partySel % 2 ∧ t.dev.sideAddr = st.sideAddr % 8 ∧
    t.prot.ko = s.mram.vaultKo ∧ t.prot.kw = s.mram.vaultKw ∧
    changesOnly [.modes, .device, .pins, .side, .protection, .mram, .host, .recorder, .sensors, .registers, .masterTime,
      .elapsed, .freeCount] s t

end Sys2Proof.Safety
end

