-- ==== Sys2Proof/Certificates/Slice0/Obligations.lean ====
section
/-! DEFINITION. The statements for the provers. Each docstring names the rules of spec/ a statement formalises; a clause that
rests on the model's own choice names the log entry. -/

open Sys2Proof Sys2Proof.Machine Sys2Proof.Safety

/-! ## The machine -/

/-- A step with a command at the front of the queue is that command's effect on the state with the queue's rest. -/
def Obligations.StepRunsFront : Prop :=
  ∀ (c : Instr) (s : State), Sys2Proof.Machine.step { s with pending := c :: s.pending } = Sys2Proof.Machine.exec c s

/-- On an empty queue the block goes on with its queue empty: in RESET, and while the time base stands still, nothing changes;
otherwise one nanosecond of the time island passes (the model's choice: log entry 3). -/
def Obligations.EmptyQueueTicks : Prop :=
  ∀ s : State, s.pending = [] → ∃ t, Sys2Proof.Machine.step s = .next t ∧ t.pending = [] ∧
    (s.md.mode = .reset ∨ s.tim.stopped = true → t = s) ∧
    (s.md.mode ≠ .reset → s.tim.stopped = false → t.elapsed = s.elapsed + Config.nsUnit ∧
      t.now = shiftT s.now (masterOver s Config.nsUnit) % Config.timeMod) ∧
    changesOnly [.time, .counters, .registers, .masterTime, .elapsed] s t

/-- `State.reset` is in RESET mode, with no fence, every port and the PCIe link down, no command waiting, no register away from its
reset value, GLB_GUARANTEE reading 1 and W_EVENT_EN 0x6F. Where the spec gives no reset value the value is the model's (log
entry 1). -/
def Obligations.ResetState : Prop :=
  State.reset.md.mode = .reset ∧ State.reset.md.fenced = false ∧ State.reset.pending = [] ∧ State.reset.regs = [] ∧
    (∀ p : Nat, (port State.reset p).up = false) ∧ State.reset.host.linkUp = false ∧
    rg State.reset R.glbGuarantee = 1 ∧ State.reset.side.eventEn = 0x6F

/-- The stored registers and host memory are in canonical form after reset. -/
def Obligations.ResetCanonical : Prop :=
 Canonical State.reset

/-- Every step keeps the stored registers and host memory in canonical form. -/
def Obligations.StepKeepsCanonical : Prop :=
  ∀ s t : State, Canonical s → Sys2Proof.Machine.step s = .next t → Canonical t

/-- Every command runs to a next state, and none touches the queue of waiting commands. -/
def Obligations.CommandsLeaveQueue : Prop :=
  ∀ (c : Instr) (s : State), ∃ t, Sys2Proof.Machine.exec c s = .next t ∧ t.pending = s.pending

/-! ## Modes -/

/-- RESET is entered: by a rail of the power-on detector below its window and by the removal of power, from every mode (R540, R541); by
RESET_N low for 1,100 ns or more, while one of less than 900 ns changes nothing and one between them does one of the two (R45, R540); by
FULL_RESET with KEY 0x5AFE, in every mode that takes it, while another KEY only leaves LAST_CMD 0xF and CMD_STATUS 7 (R65). A rail that
does not trip the detector changes nothing. The removal of power keeps MRAM; where it interrupts the write of an MRAM record with
RESET_N high and PARK not done, that record alone is torn (R541). WAKE is entered from RESET when RESET_N rises with the supplies in
range, when the supplies come into range with RESET_N high, and at FULL_RESET_TIMEOUT after a FULL_RESET with RESET_N high; with RESET_N
low at that moment the device stays in RESET (R45, R46, R540). That the supplies coming into range with RESET_N already high begin WAKE
is log entry 103, that FULL_RESET is taken in PARK log entry 12, and the torn record's form log entry 99. -/
def Obligations.ResetAndWakeEntered : Prop :=
  ((∀ (rail uv : Nat) (s : State),
      (detectorTrips rail uv = true → ∃ t, Sys2Proof.Machine.exec (.powerOnDetect rail uv) s = .next t ∧ resetFrom s t ∧
        t.pins.supplies = false) ∧
      (detectorTrips rail uv = false → ∃ t, Sys2Proof.Machine.exec (.powerOnDetect rail uv) s = .next t ∧ changesOnly [] s t)) ∧
    (∀ (torn : Option MramRec) (s : State), ∃ t, Sys2Proof.Machine.exec (.powerRemoval torn) s = .next t ∧
      resetFrom { s with mram := mramAfter torn s } t ∧ t.pins.supplies = false ∧
      (torn = none ∨ s.pins.resetN = false ∨ s.md.parkDone = true → t.mram = s.mram) ∧
      (∀ r, torn = some r → s.pins.resetN = true → s.md.parkDone = false → t.mram = tearRecord r s.mram)) ∧
    (∀ (ns : Nat) (s : State),
      (1100 ≤ ns → ∃ t, Sys2Proof.Machine.exec (.resetNLow ns) s = .next t ∧ resetFrom s t ∧ t.pins.resetN = false) ∧
      (ns < 900 → ∃ t, Sys2Proof.Machine.exec (.resetNLow ns) s = .next t ∧ changesOnly [] s t) ∧
      (900 ≤ ns → ns < 1100 → ∃ t, Sys2Proof.Machine.exec (.resetNLow ns) s = .next t ∧
        (resetFrom s t ∧ t.pins.resetN = false ∨ changesOnly [.freeCount] s t))) ∧
    (∀ (w : Word) (s : State), resetOpen s = true → w.toNat / 2 ^ 16 = 0x5AFE →
      ∃ t, Sys2Proof.Machine.exec (.fullReset w) s = .next t ∧ resetFrom s t ∧ t.md.byFullReset = true) ∧
    (∀ (w : Word) (s : State), s.md.mode ≠ .reset → s.md.mode ≠ .park → w.toNat / 2 ^ 16 ≠ 0x5AFE →
      ∃ t, Sys2Proof.Machine.exec (.fullReset w) s = .next t ∧
        t.md = { s.md with cmdStatus := 7, lastCmd := 0xF } ∧ changesOnly [.modes] s t)) ∧
  ((∀ (st : Straps) (s : State), s.md.mode = .reset → s.pins.supplies = true → s.pins.resetN = false →
      ∃ t, Sys2Proof.Machine.exec (.resetNHigh st) s = .next t ∧ wakeFrom st s t ∧ t.pins.resetN = true) ∧
    (∀ (st : Straps) (s : State), s.md.mode = .reset → s.pins.supplies = false → s.pins.resetN = true →
      ∃ t, Sys2Proof.Machine.exec (.suppliesInRange st) s = .next t ∧ wakeFrom st s t ∧ t.pins.supplies = true ∧
        t.side.eventEn = 0x6F) ∧
    (∀ (st : Straps) (s : State), s.md.mode = .reset → s.md.byFullReset = true → s.pins.resetN = true →
      ∃ t, Sys2Proof.Machine.exec (.fullResetTimeout st) s = .next t ∧ wakeFrom st s t) ∧
    (∀ (st : Straps) (s : State), s.md.mode = .reset → s.md.byFullReset = true → s.pins.resetN = false →
      ∃ t, Sys2Proof.Machine.exec (.fullResetTimeout st) s = .next t ∧ t.md.mode = .reset ∧ changesOnly [.modes] s t))

/-- In WAKE, while no reference has been found, REFCLK_00_MEASURE takes 125 MHz where it lies within ±2,000 ppm of the measurement, else
156.25 MHz where that does, and writes it into SER_REFCLK.FREQ of Q00, staged and in use; a measurement that matches neither changes
nothing (R160). While an LK8256-AE warms, WARMING_COMPLETE with every stack at 0 °C or above ends the warming, and WAKE goes on with
step 5 and the die temperature of that reading; WARM_TIMEOUT ends WAKE in fenced STAGE with fault 0x0009 (R48). WAKE_COMPLETE, once the
stacks have been read and nothing warms, ends WAKE in fenced STAGE with fault 0x0007 where MRAM is unreadable, and with 0x0008 where an
LK8256-AC has read a stack below 0 °C (R45, R49, R60); with no such fault and no core island marked failed, under BOOT_SEL 0 and 3, it
ends in unfenced STAGE with WAKE_STEP 0 (R45, R46, R49). Where the stacks have not been read, WAKE_COMPLETE reads them, and an LK8256-AE
with one below 0 °C begins to warm with the lesser of 150 W and the PARK cap (R48). That WAKE_COMPLETE reads stacks not yet read is log
entry 133, and that one fault code is shown where several faults end WAKE log entry 100. -/
def Obligations.WakeGoesOnAndEnds : Prop :=
  ((∀ (x : Int) (o : Option Int) (s : State), s.md.mode = .wake → s.md.coreRef = 0 → RegsCanonical s → -2000 ≤ x → x ≤ 2000 →
      ∃ t, Sys2Proof.Machine.exec (.refclk00Measure (some x) o) s = .next t ∧ t.md.mode = .wake ∧
        2 ≤ t.md.wakeStep ∧ rg t (R.serRefclk 0) = 1 ∧ cu t (R.serRefclk 0) = 1 ∧
        registersBut [R.serRefclk 0, R.serRefclk 0 + viewSize] s t ∧ changesOnly [.modes, .registers] s t) ∧
    (∀ (o : Option Int) (x : Int) (s : State), s.md.mode = .wake → s.md.coreRef = 0 → RegsCanonical s →
      (∀ y, o = some y → y < -2000 ∨ 2000 < y) → -2000 ≤ x → x ≤ 2000 →
      ∃ t, Sys2Proof.Machine.exec (.refclk00Measure o (some x)) s = .next t ∧ t.md.mode = .wake ∧
        2 ≤ t.md.wakeStep ∧ rg t (R.serRefclk 0) = 0 ∧ cu t (R.serRefclk 0) = 0 ∧
        registersBut [R.serRefclk 0, R.serRefclk 0 + viewSize] s t ∧ changesOnly [.modes, .registers] s t) ∧
    (∀ (o p : Option Int) (s : State), (∀ y, o = some y ∨ p = some y → y < -2000 ∨ 2000 < y) →
      ∃ t, Sys2Proof.Machine.exec (.refclk00Measure o p) s = .next t ∧ changesOnly [] s t) ∧
    (∀ (c : Temps) (s : State), s.md.mode = .wake → s.md.warming = true → 0 ≤ c.hbm0 → 0 ≤ c.hbm1 → 0 ≤ c.hbm2 → 0 ≤ c.hbm3 →
      ∃ t, Sys2Proof.Machine.exec (.warmingComplete c) s = .next t ∧
        t.md = { s.md with warming := false, warmW := 0, warmTill := s.elapsed, dieAtWake := c.die, wakeStep := 5 } ∧
        t.therm.temps = c ∧ changesOnly [.modes, .sensors] s t) ∧
    (∀ (m : Bool) (s : State), s.md.mode = .wake → s.md.warming = true → s.md.faultPending = false →
      ∃ t, Sys2Proof.Machine.exec (.warmTimeout m) s = .next t ∧ t.md.mode = .stage ∧ t.md.fenced = true ∧ t.md.warming = false ∧
        t.md.faultCode = 0x0009 ∧ t.pins.faultN = true)) ∧
  (∀ (f : WakeFacts) (s : State), s.md.mode = .wake → s.md.coreRef ≠ 0 → s.md.warming = false → s.md.faultPending = false →
      (s.md.tempsRead = true → f.mramOk = false → ∃ t, Sys2Proof.Machine.exec (.wakeComplete f) s = .next t ∧
        t.md.mode = .stage ∧ t.md.fenced = true ∧ t.md.faultCode = 0x0007 ∧ t.pins.faultN = true) ∧
      (s.md.tempsRead = true → f.mramOk = true → s.dev.codeAE = false → s.md.coldAtWake = true →
        ∃ t, Sys2Proof.Machine.exec (.wakeComplete f) s = .next t ∧
          t.md.mode = .stage ∧ t.md.fenced = true ∧ t.md.faultCode = 0x0008 ∧ t.pins.faultN = true) ∧
      (s.md.tempsRead = true → wakeFaultCode s f.mramOk = none → s.dev.bootSel = 0 ∨ s.dev.bootSel = 3 → s.md.fenced = false →
        ∃ t, Sys2Proof.Machine.exec (.wakeComplete f) s = .next t ∧
          t.md.mode = .stage ∧ t.md.fenced = false ∧ t.md.wakeStep = 0 ∧ t.gen.current = s.gen.current ∧ t.prot = s.prot) ∧
      (s.md.tempsRead = false → s.dev.codeAE = true → stackCold s.therm.temps = true →
        ∃ t, Sys2Proof.Machine.exec (.wakeComplete f) s = .next t ∧ t.md.mode = .wake ∧ t.md.warming = true ∧ 4 ≤ t.md.wakeStep ∧
          t.md.warmW = min 150 s.mram.parkCap ∧ t.md.warmFrom = s.elapsed ∧ changesOnly [.modes] s t))

/-- GO_RUN (R52, R53, R64): in unfenced STAGE with no fault pending, no transition under way, a completed commit and the protection
commit it is accepted with CMD_STATUS 0, and a run time from now to 10 µs later is set, free within these bounds. Where one of these
conditions alone fails, in a mode other than RESET and PARK, it is refused with its status (2 the mode, 3 the fence, 1 a transition, 4
no completed commit, 5 no protection commit), and where several fail with the status of one of them; LAST_CMD and CMD_STATUS alone
change. DRAIN_TO_STAGE is accepted in RUN, DRAIN_TO_PARK in RUN and in STAGE, fenced or not, with no transition under way, the latter
where no region is frozen or FORCE is given; a drain time is set in the same way (R54, R59). In the modes other than RESET and PARK,
where a transition is under way both are refused with status 1; with none, in a mode not named above with 2, and DRAIN_TO_PARK without
FORCE while a region is frozen with 6; LAST_CMD and CMD_STATUS alone change. Which of several refusals is given, status 1 before 2
before 6 for the drains, is the model's choice (log entries 14 and 166). -/
def Obligations.ModeCommands : Prop :=
  (∀ s : State, s.md.mode = .stage → s.md.fenced = false → s.md.faultPending = false → s.md.transition = false →
    s.gen.completed = true → s.prot.committed = true →
    ∃ t T, Sys2Proof.Machine.exec .goRun s = .next t ∧ s.now ≤ T ∧ T ≤ s.now + usT 10 ∧
      t.md = { s.md with transition := true, target := .run, tRun := some T, lastCmd := 1, cmdStatus := 0 } ∧
      changesOnly [.modes, .freeCount] s t) ∧
  (∀ s : State, s.md.mode ≠ .reset → s.md.mode ≠ .park →
    (s.md.mode ≠ .stage ∨ s.md.fenced = true ∨ s.md.faultPending = true ∨ s.md.transition = true ∨ s.gen.completed = false ∨
      s.prot.committed = false) →
    ∃ t n, Sys2Proof.Machine.exec .goRun s = .next t ∧ t.md = { s.md with lastCmd := 1, cmdStatus := n } ∧
      (n = 2 ∧ s.md.mode ≠ .stage ∨ n = 3 ∧ (s.md.fenced = true ∨ s.md.faultPending = true) ∨ n = 1 ∧ s.md.transition = true ∨
        n = 4 ∧ s.gen.completed = false ∨ n = 5 ∧ s.prot.committed = false) ∧ changesOnly [.modes] s t) ∧
  (∀ (c : Instr) (force : Bool) (n : Nat) (tgt : Mode) (s : State),
    (c = .drainToStage ∧ n = 2 ∧ tgt = .stage ∨ c = .drainToPark force ∧ n = 3 ∧ tgt = .park) → s.md.transition = false →
    s.md.mode = .run ∨ (n = 3 ∧ s.md.mode = .stage) → (n = 2 ∨ force = true ∨ recHasFrozen s = false) →
    ∃ t T, Sys2Proof.Machine.exec c s = .next t ∧ s.now ≤ T ∧ T ≤ s.now + usT 10 ∧
      t.md = { s.md with transition := true, target := tgt, tDrain := some T, lastCmd := n, cmdStatus := 0 } ∧
      changesOnly [.modes, .freeCount] s t) ∧
  (∀ (c : Instr) (force : Bool) (n st : Nat) (s : State),
    (c = .drainToStage ∧ n = 2 ∨ c = .drainToPark force ∧ n = 3) → s.md.mode ≠ .reset → s.md.mode ≠ .park →
    (st = 1 ∧ s.md.transition = true ∨
      st = 2 ∧ s.md.transition = false ∧ s.md.mode ≠ .run ∧ (n = 2 ∨ s.md.mode ≠ .stage) ∨
      st = 6 ∧ s.md.transition = false ∧ n = 3 ∧ force = false ∧ recHasFrozen s = true ∧
        (s.md.mode = .run ∨ s.md.mode = .stage)) →
    ∃ t, Sys2Proof.Machine.exec c s = .next t ∧ t.md = { s.md with lastCmd := n, cmdStatus := st } ∧ changesOnly [.modes] s t)

/-- RUN_TIME: at the run time of a transition to RUN from unfenced STAGE the device enters RUN, the transition has ended and master time
stands at the run time (R53). DRAIN_TIME: at the drain time of a transition the device enters DRAIN with the transition still under way,
and every port stays up or down as it was (R54, R55). DRAIN_COMPLETE: with both in-flight counts at zero, no record of the recorder
waiting and no fault pending, DRAIN ends in STAGE, fenced or not as it was, with protection, generations and tables as they were; or,
where the target is PARK, in PARK with wave 1 in progress, both keys wiped and every port down (R56, R58). FAULT_RECORD_WRITTEN: the
records that wait are written where MRAM can be written, each raising FAULT_SEQ by 1 and filling slot 0 where it is empty; a device in
STAGE, RUN or DRAIN that a fault is fencing is then in STAGE, fenced, with no transition left (R61, R63). What the time between T_d and
the end of DRAIN holds is log entry 15, the order of the waiting records log entry 16, the mode events log entry 101 and the wiping at
PARK's entry log entry 17. -/
def Obligations.RunDrainAndFaultEnd : Prop :=
  ((∀ (T : Nat) (s : State), s.md.tRun = some T → s.md.transition = true → s.md.target = .run → s.md.mode = .stage →
      s.md.fenced = false → s.md.faultPending = false → s.tim.stopped = false → s.now ≤ T → T < Config.timeMod →
      ∃ t, Sys2Proof.Machine.exec .runTime s = .next t ∧ t.md = { s.md with mode := .run, transition := false, target := .reset } ∧
        t.now = T ∧ changesOnly [.modes, .side, .host, .time, .counters, .registers, .masterTime, .elapsed] s t) ∧
    (∀ (T : Nat) (s : State), s.md.tDrain = some T → s.md.transition = true → s.md.draining = false →
      s.md.target = .stage ∨ s.md.target = .park → s.tim.stopped = false → s.now ≤ T → T < Config.timeMod →
      ∃ t, Sys2Proof.Machine.exec .drainTime s = .next t ∧ t.md = { s.md with mode := .drain, draining := true } ∧ t.now = T ∧
        (∀ p, (port t p).up = (port s p).up) ∧
        changesOnly [.modes, .side, .host, .links, .time, .counters, .registers, .masterTime, .elapsed] s t)) ∧
  ((∀ (m : Bool) (s : State), s.md.mode = .drain → s.md.draining = true → inflight s 0 = 0 → inflight s 1 = 0 →
      s.recd.backlog = [] → s.md.faultPending = false → s.md.target ≠ .park →
      ∃ t, Sys2Proof.Machine.exec (.drainComplete m) s = .next t ∧ t.md.mode = .stage ∧ t.md.fenced = s.md.fenced ∧
        t.md.draining = false ∧ t.md.tRun = none ∧ t.md.tDrain = none ∧ t.md.transition = false ∧
        t.prot = s.prot ∧ t.gen = s.gen ∧ t.tab = s.tab) ∧
    (∀ (m : Bool) (s : State), s.md.mode = .drain → s.md.draining = true → inflight s 0 = 0 → inflight s 1 = 0 →
      s.recd.backlog = [] → s.md.faultPending = false → s.md.target = .park →
      ∃ t, Sys2Proof.Machine.exec (.drainComplete m) s = .next t ∧ t.md.mode = .park ∧ t.md.wave = 1 ∧ t.md.draining = false ∧
        t.prot.ko = none ∧ t.prot.kw = none ∧ (∀ p < 256, (port t p).up = false)) ∧
    (∀ (m : Bool) (s : State), s.md.mode = .stage ∨ s.md.mode = .run ∨ s.md.mode = .drain →
      (s.md.faultPending = true →
        ∃ t, Sys2Proof.Machine.exec (.faultRecordWritten m) s = .next t ∧ t.md.mode = .stage ∧ t.md.fenced = true ∧
          t.md.faultPending = false ∧ t.md.draining = false ∧ t.md.transition = false ∧ t.md.tRun = none ∧ t.md.tDrain = none ∧
          t.md.faultRecs = [] ∧
          (m = true → t.mram.faultSeq = s.mram.faultSeq + s.md.faultRecs.length ∧
            (s.md.faultRecs ≠ [] → t.mram.slot0Held = true)) ∧
          (m = false → t.mram = s.mram) ∧ changesOnly [.modes, .side, .mram, .host, .links, .registers] s t) ∧
      (s.md.faultPending = false →
        ∃ t, Sys2Proof.Machine.exec (.faultRecordWritten m) s = .next t ∧ t.md.mode = s.md.mode ∧ t.md.fenced = s.md.fenced ∧
          t.md.faultRecs = [] ∧
          (m = true → t.mram.faultSeq = s.mram.faultSeq + s.md.faultRecs.length ∧
            (s.md.faultRecs ≠ [] → t.mram.slot0Held = true)) ∧
          (m = false → t.mram = s.mram) ∧ changesOnly [.modes, .mram] s t)))

/-- In PARK, while a wave is in progress, a batch starts where the die does not hold it back and its power figure and the measured
power together stay within the cap, and otherwise does not (R516, R551). PARK_WAVE_COMPLETE in a wave before the twelfth begins the
next one with no batch running; in the twelfth it sets PARK_DONE with no wave in progress and a readable cache header, and
SP_ALERT_N is low where the warden has PARK_DONE enabled (R59, R515). -/
def Obligations.ParkWaves : Prop :=
  (∀ (figure power : Nat) (s : State), s.md.mode = .park → s.md.wave ≠ 0 →
    (s.svc.hot = false → figure + power ≤ s.svc.capW →
      ∃ t, Sys2Proof.Machine.exec (.parkBatchStart figure power) s = .next t ∧
        t.svc = { s.svc with batches := s.svc.batches + 1 } ∧ changesOnly [.service] s t) ∧
    (s.svc.hot = true ∨ s.svc.capW < figure + power →
      ∃ t, Sys2Proof.Machine.exec (.parkBatchStart figure power) s = .next t ∧ changesOnly [] s t)) ∧
  (∀ (ms peakW blocks : Nat) (fails : List (Nat × Nat)) (s : State), s.md.mode = .park → 1 ≤ s.md.wave → s.md.wave < 12 →
    ∃ t, Sys2Proof.Machine.exec (.parkWaveComplete ms peakW blocks fails) s = .next t ∧
      t.md = { s.md with wave := s.md.wave + 1 } ∧ t.svc.batches = 0) ∧
  (∀ (ms peakW blocks : Nat) (fails : List (Nat × Nat)) (s : State), s.md.mode = .park → s.md.wave = 12 →
    ∃ t, Sys2Proof.Machine.exec (.parkWaveComplete ms peakW blocks fails) s = .next t ∧
      t.md = { s.md with wave := 0, parkDone := true } ∧ t.mram.cache.headerOk = true ∧
      (bit 5 s.side.eventEn = true → spAlert t = true))

/-- A fatal fault in unfenced STAGE, in RUN or in any DRAIN, with no other being handled, asserts FAULT_N, sets W_EVENT.FATAL and shows
its code and island, and the mode stays until its record is written; in RUN and DRAIN it fences the frames of the device, in queue, in
plan or in an engine (R45, R60, R61, R152); MGMT_WATCHDOG is fault 0x0004 and a rail out of its window for more than 10 µs fault 0x0006,
both of island 95 (R60, R538). In PARK, and in RESET, the mode and the pins stay and a record waits to be written (R45, R63). In WAKE a
first fault with code 0x0007 to 0x000A is to end WAKE once its record is written (R45). That DRAIN entered from fenced STAGE is fenced
in the same way, and what a fault does in the other modes, is log entry 16; an HBM controller island that it names log entry 175. -/
def Obligations.FatalFaults : Prop :=
  (∀ (c : Instr) (code island : Nat) (s : State), s.md.mode = .stage ∨ s.md.mode = .run ∨ s.md.mode = .drain →
    (s.md.mode = .stage → s.md.fenced = false) → s.md.faultPending = false → code < 2 ^ 16 → island < 2 ^ 8 →
    ((∃ d, c = .fatalFault code island d) ∨ (c = .mgmtWatchdog ∧ code = 0x0004 ∧ island = 95) ∨
      (∃ r uv n, c = .supplyMonitorCheck r uv n ∧ r < 9 ∧ (uv < railLow r ∨ railHigh r < uv) ∧ 10000 < n ∧ code = 0x0006 ∧
        island = 95)) →
    ∃ t, Sys2Proof.Machine.exec c s = .next t ∧ t.md.mode = s.md.mode ∧ t.md.faultPending = true ∧ t.md.faultCode = code ∧
      t.md.faultIsland = island ∧ t.md.faultRecs.length = s.md.faultRecs.length + 1 ∧ t.pins.faultN = true ∧
      t.side.event.testBit 6 = true ∧ t.prot = s.prot ∧ (island < 88 → t.tab = s.tab) ∧ t.gen = s.gen ∧ t.now = s.now ∧
      (s.md.mode ≠ .stage → (∀ k ∈ t.eg.queues, k.2.copies = []) ∧ t.buf.arrivals = [] ∧ t.buf.plan = [] ∧
        (∀ k ∈ t.eng.engines, k.2.order = []))) ∧
  (∀ (code island : Nat) (d : List Nat) (s : State), s.md.mode = .park ∨ s.md.mode = .reset →
    ∃ t, Sys2Proof.Machine.exec (.fatalFault code island d) s = .next t ∧ t.md.mode = s.md.mode ∧
      t.md.faultPending = s.md.faultPending ∧ t.md.faultRecs.length = s.md.faultRecs.length + 1 ∧ t.pins = s.pins) ∧
  (∀ (code island : Nat) (d : List Nat) (s : State), s.md.mode = .wake → s.md.faultPending = false → 7 ≤ code → code ≤ 10 →
    island < 2 ^ 8 →
    ∃ t, Sys2Proof.Machine.exec (.fatalFault code island d) s = .next t ∧ t.md.mode = .wake ∧ t.md.faultPending = true ∧
      t.md.faultCode = code ∧ t.md.faultIsland = island ∧ changesOnly [.modes] s t)

/-- A rail that stands out of its window for 10 µs or less raises, outside RESET and where none was raised in the last 1 ms, an
alarm 0x0602 of island 95, whose DETAIL is free, and a rail within its window, or out of it again less than 1 ms after the last alarm,
changes nothing (R538). A sample in a mode other than WAKE, outside PARK wave 11, with the die below 105 °C and every stack below
83 °C, is shown, ends the doubled refresh of every stack and lets PARK batches start, and changes nothing beside the sensors and the
service state (R550, R551). With the supplies in range and the device in RESET or WAKE, a write of the low and then of the
high word of GLB_DATE_HINT sets the date hint; in every other mode neither write changes anything (R9, R67). -/
def Obligations.SensorsAndDateHint : Prop :=
  (∀ (r uv n : Nat) (s : State), r < 9 →
    (uv < railLow r ∨ railHigh r < uv → 1 ≤ n → n ≤ 10000 → s.md.mode ≠ .reset → supplyAlarmDue s = true →
      ∃ t d, Sys2Proof.Machine.exec (.supplyMonitorCheck r uv n) s = .next t ∧ t.therm = { s.therm with supplyAt := some s.elapsed } ∧
        eventSent 3 1 95 s.now [0x0602 + 95 * 2 ^ 16, d % 2 ^ 32, d >>> 32 % 2 ^ 32, 0] s t ∧
        changesOnly [.host, .sensors, .registers, .freeCount] s t) ∧
    (railLow r ≤ uv ∧ uv ≤ railHigh r ∨ 1 ≤ n ∧ n ≤ 10000 ∧ supplyAlarmDue s = false →
      ∃ t, Sys2Proof.Machine.exec (.supplyMonitorCheck r uv n) s = .next t ∧ changesOnly [] s t)) ∧
  (∀ (c : Temps) (s : State), s.pins.supplies = true → s.md.mode ≠ .wake → sensorsTested s = false →
    c.die < 16 * 105 → c.hbm0 < 16 * 83 → c.hbm1 < 16 * 83 → c.hbm2 < 16 * 83 → c.hbm3 < 16 * 83 →
    ∃ t, Sys2Proof.Machine.exec (.temperatureSample c) s = .next t ∧ t.therm.temps = c ∧ t.therm.hotOnce = false ∧
      (∀ h < 4, h ∉ t.therm.fastRefresh) ∧ t.svc.hot = false ∧ changesOnly [.sensors, .service] s t) ∧
  (∀ (lo hi : Word) (s : State), s.pins.supplies = true → s.md.mode = .reset ∨ s.md.mode = .wake →
    ∃ u t, Sys2Proof.Machine.exec (.dateHintWrite false lo) s = .next u ∧ Sys2Proof.Machine.exec (.dateHintWrite true hi) u = .next t ∧
      t.side.dateHint = lo.toNat + hi.toNat * 2 ^ 32 ∧ changesOnly [.latches] s u ∧ changesOnly [.side, .latches] s t) ∧
  (∀ (high : Bool) (v : Word) (s : State), s.md.mode ≠ .reset → s.md.mode ≠ .wake →
    ∃ t, Sys2Proof.Machine.exec (.dateHintWrite high v) s = .next t ∧ changesOnly [] s t)

/-! ## Host interface -/

/-- PERST_N low, a hot reset or loss of the link and an FLR of PF0 stop every ring and write nothing back; the RNG registers and the
MSI-X table are at their reset values; the event backlogs are kept, and every register outside RNG but the FLR count is as before
(R72). The first two leave the link down (R544), and an FLR of PF0 adds 1 to its count. PCIE_LINK_UP in STAGE, RUN or DRAIN leaves the
link up at the width and speed given (R544). An FLR of PF1 adds 1 to its own count, and discards a pending change with LAST_RESULT
13 (R72, R147). -/
def Obligations.PcieLink : Prop :=
  (∀ (c : Instr) (s : State), RegsCanonical s → c = .pciePerstNLow ∨ c = .pcieLinkLoss ∨ c = .flrPf0 →
    ∃ t, Sys2Proof.Machine.exec c s = .next t ∧ (∀ k n, ring t k n = {}) ∧ t.host.msix = [] ∧ t.host.events = s.host.events ∧
      (∀ k, isRngKey k = true → regWord t.regs k = BitVec.ofNat 32 (resetWord (k % viewSize))) ∧
      (∀ k, isRngKey k = false → k ≠ R.pciFlrCount → regWord t.regs k = regWord s.regs k) ∧
      (c ≠ .flrPf0 → t.host.linkUp = false ∧ rg t R.pciFlrCount = rg s R.pciFlrCount) ∧
      (c = .flrPf0 → t.host.linkUp = s.host.linkUp ∧
        rgF t R.pciFlrCount 15 0 = (rgF s R.pciFlrCount 15 0 + 1) % 2 ^ 16 ∧
        rgF t R.pciFlrCount 31 16 = rgF s R.pciFlrCount 31 16) ∧
      changesOnly [.pins, .host, .registers] s t) ∧
  (∀ (w v : Nat) (s : State), s.md.mode = .stage ∨ s.md.mode = .run ∨ s.md.mode = .drain → w < 64 → v < 16 →
    ∃ t, Sys2Proof.Machine.exec (.pcieLinkUp w v) s = .next t ∧ t.pins.perstN = true ∧
      t.host = { s.host with linkUp := true, linkWidth := w, linkSpeed := v } ∧ t.md = s.md ∧
      changesOnly [.pins, .host, .modes] s t) ∧
  (∀ s : State, RegsCanonical s →
    ∃ t, Sys2Proof.Machine.exec .flrPf1 s = .next t ∧
      rgF t R.pciFlrCount 31 16 = (rgF s R.pciFlrCount 31 16 + 1) % 2 ^ 16 ∧
      rgF t R.pciFlrCount 15 0 = rgF s R.pciFlrCount 15 0 ∧
      (s.prot.pending = none → registersBut [R.pciFlrCount] s t ∧ changesOnly [.registers] s t) ∧
      (∀ p, s.prot.pending = some p → s.elapsed < p.opened + windowLen →
        t.prot = { s.prot with pending := none, lastResult := 13 } ∧
        changesOnly [.side, .protection, .host, .registers] s t))

/-- A misaligned or wrong-sized access in a mode that takes accesses is counted in RNG_ACCESS_ERR, and a read of it returns 0; one of
PF0 sends an ACCESS event of type 0, one of PF1 no event (R4, R73). From the side port, and in RESET and PARK, it is neither
counted nor reported (log entry 62). A read by PF0 in STAGE, RUN or DRAIN of the low word of a 64-bit register, not a
clear-on-read one and without a latch of its own, returns it and latches the high word (R8). A read of a 32-bit
clear-on-read register returns its value and clears its RC fields, and a low-word read of a clear-on-read pair clears both words in the
same access (R5, R8). -/
def Obligations.AccessErrorsAndReads : Prop :=
  ((∀ (a : BadAccess) (s : State), RegsCanonical s → s.md.mode ≠ .reset → s.md.mode ≠ .park → a.party ≠ .side →
      ∃ t, Sys2Proof.Machine.exec (.accessError a) s = .next t ∧ rg t R.rngAccessErr = (rg s R.rngAccessErr + 1) % 2 ^ 32 ∧
        (a.write = false → t.lat.rdata = 0) ∧
        (a.party = .pf0 → eventSent 0xC 0 94 s.now
          [a.off % 2 ^ 26 + a.bar % 4 * 2 ^ 26 + b2n a.write * 2 ^ 28, a.byteEnables % 256] s t) ∧
        (a.party = .pf1 → t.host = s.host ∧ registersBut [R.rngAccessErr] s t) ∧
        changesOnly [.host, .latches, .registers] s t) ∧
    (∀ (a : BadAccess) (s : State), s.md.mode = .reset ∨ s.md.mode = .park ∨ a.party = .side →
      ∃ t, Sys2Proof.Machine.exec (.accessError a) s = .next t ∧ (a.write = false → t.lat.rdata = 0) ∧ changesOnly [.latches] s t)) ∧
  (∀ (c : Instr) (off : Nat) (h : RegHit) (s : State),
    c = .wideLowWordRead { party := .pf0, bar := 0, off := off } ∨ c = .clearOnRead { party := .pf0, bar := 0, off := off } →
    hostOpen s = true → off < 0x2000000 → off % 4 = 0 → regAt off = some h → readSpecial h s = none →
    (h.row.wide = true → ownLatch h = false → h.hiWord = false → clearsNow s h = false →
      ∃ t, Sys2Proof.Machine.exec c s = .next t ∧ t.lat.rdata = BitVec.ofNat 32 (ownWord s 0 h) ∧
        kvGetD 0 (latchKey off .pf0) t.lat.high = BitVec.ofNat 32 (ownWord s 0 { h with hiWord := true }) ∧
        changesOnly [.latches] s t) ∧
    (RegsCanonical s → h.row.wide = false → clearsNow s h = true →
      ∃ t, Sys2Proof.Machine.exec c s = .next t ∧ t.lat.rdata = BitVec.ofNat 32 (ownWord s 0 h) ∧
        rg t h.off = rg s h.off - (rg s h.off &&& accMask h (· == .rc)) ∧ registersBut [h.off] s t ∧
        changesOnly [.latches, .registers] s t) ∧
    (RegsCanonical s → h.row.wide = true → ownLatch h = false → h.hiWord = false → clearsNow s h = true →
      ∃ t, Sys2Proof.Machine.exec c s = .next t ∧ t.lat.rdata = BitVec.ofNat 32 (ownWord s 0 h) ∧
        kvGetD 0 (latchKey off .pf0) t.lat.high = BitVec.ofNat 32 (ownWord s 0 { h with hiWord := true }) ∧
        rg t h.lowOff = rg s h.lowOff - (rg s h.lowOff &&& accMask h (· == .rc)) ∧
        rg t (h.lowOff + 4) =
          rg s (h.lowOff + 4) - (rg s (h.lowOff + 4) &&& accMask { h with hiWord := true } (· == .rc)) ∧
        registersBut [h.lowOff, h.lowOff + 4] s t ∧ changesOnly [.latches, .registers] s t))

/-- A write by PF0 in STAGE, RUN or DRAIN of a 32-bit class C register of a unit in service goes to its staged value, under the access
codes of its fields, and marks the staged side DIRTY; no other register changes (R5, R122; a LINK_HOLD beyond its width holds the
field's largest value, R229). In a region that the protection map locks nothing is written: the violation is counted, a PROTECT event of
type 0 is sent and W_EVENT.VIOLATION is set (R142, R144). The LINK_HOLD beyond its width is log entry 69 and the violation log entry
107. -/
def Obligations.RegisterWrites : Prop :=
  (∀ (off : Nat) (w : Word) (h : RegHit) (s : State), RegsCanonical s → hostOpen s = true → off < 0x2000000 → off % 4 = 0 →
    regAt off = some h → h.row.cls = .c → h.row.wide = false → writeRow h w s = none →
    regionLocked s (off / 0x10000) = false → shutUnit s off = none → stagingShut s .c = false → unusedPort s h = false →
    ∃ t, Sys2Proof.Machine.exec (.registerWrite { party := .pf0, bar := 0, off := off, val := w }) s = .next t ∧
      regWord t.regs h.off = BitVec.ofNat 32 (writtenWord s.prot.committed h (rg s h.off) (linkHoldWord h w).toNat) ∧
      registersBut [h.off] s t ∧ t.gen = { s.gen with dirty := true } ∧ changesOnly [.registers, .generations] s t) ∧
  (∀ (off : Nat) (w : Word) (h : RegHit) (s : State), RegsCanonical s → hostOpen s = true → off < 0x2000000 → off % 4 = 0 →
    regAt off = some h → h.row.cls = .c → writeRow h w s = none → regionLocked s (off / 0x10000) = true →
    ∃ t, Sys2Proof.Machine.exec (.registerWrite { party := .pf0, bar := 0, off := off, val := w }) s = .next t ∧
      rg t R.prtViolations = (rg s R.prtViolations + 1) % 2 ^ 32 ∧ bit 4 t.side.event = true ∧
      eventSent 0xF 0 95 s.now [off, 0] s t ∧
      registersBut (R.prtViolations :: R.rngEvtDropped :: (R.rngEvtDropped + 4) :: (List.range 8).map R.rngEvtStatus) s t ∧
      changesOnly [.side, .host, .registers] s t)

/-- RING_ENABLE of a ring that is off (R80): where BASE, SIZE_LOG2 and CFG are in range it runs with its registers' values, HEAD, FETCH
and TAIL at 0, armed and with nothing in hand (R112); otherwise it stays off and CFG_ERR is set. RING_DISABLE of a running ring begins its
stop and clears ENABLE; of a transmit ring with nothing in hand, one descriptor fetched for a frame not yet admitted is written back
FLUSHED; of another kind nothing else happens (R81). RING_STOPPED of a stopping ring with nothing in hand ends it. DMA_ERROR begins the
stop of the ring and sets DMA_ERR; of a command ring with nothing in hand, the descriptor at FETCH, where the error concerns one, is
written back with status 7 (R82). -/
def Obligations.RingControl : Prop :=
  (∀ (k : RingKind) (n : Nat) (v : Word) (s : State), RegsCanonical s → hostOpen s = true → n < kindCount k →
    (ring s k n).active = false →
    (ringCfgOk k (rg64 s (ringRegs k n)) (fld 5 2 v.toNat) (rg s (ringRegs k n + 0xC)) = true →
      ∃ t, Sys2Proof.Machine.exec (.ringEnable k n v) s = .next t ∧
        ring t k n = { active := true, base := rg64 s (ringRegs k n), size := 2 ^ fld 5 2 v.toNat,
                       cfg := rg s (ringRegs k n + 0xC), armed := true, mod := rg s (ringRegs k n + 0x10) } ∧
        rgF t (ringRegs k n + 8) 0 0 = 1 ∧ registersBut [ringRegs k n + 8] s t ∧ changesOnly [.host, .registers] s t) ∧
    (ringCfgOk k (rg64 s (ringRegs k n)) (fld 5 2 v.toNat) (rg s (ringRegs k n + 0xC)) = false →
      ∃ t, Sys2Proof.Machine.exec (.ringEnable k n v) s = .next t ∧ bit 2 (rg t (ringRegs k n + 0x20)) = true ∧
        (ring t k n).active = false ∧ registersBut [ringRegs k n + 8, ringRegs k n + 0x20] s t ∧
        changesOnly [.registers] s t)) ∧
  (∀ (k : RingKind) (n fetched : Nat) (s : State), RegsCanonical s → hostOpen s = true → n < kindCount k →
    (ring s k n).active = true → (ring s k n).stopping = false →
    ∃ t, Sys2Proof.Machine.exec (.ringDisable k n fetched) s = .next t ∧ (ring t k n).active = true ∧
      (ring t k n).stopping = true ∧ rgF t (ringRegs k n + 8) 0 0 = 0 ∧
      (k ≠ .tx → ring t k n = { ring s k n with stopping := true } ∧ changesOnly [.host, .registers] s t) ∧
      (k = .tx → fetched = 1 → (ring s k n).work = [] → (ring s k n).fetch < (ring s k n).size → ringAvail (ring s k n) ≠ 0 →
        t.hmem = memWrite s.hmem (slotAddr (ring s k n) (ring s k n).fetch) (txRefusal 7)) ∧
      changesOnly [.host, .counters, .registers, .hostMemory] s t) ∧
  (∀ (k : RingKind) (n : Nat) (s : State), (ring s k n).active = true → (ring s k n).stopping = true → (ring s k n).work = [] →
    ∃ t, Sys2Proof.Machine.exec (.ringStopped k n) s = .next t ∧
      ring t k n = { ring s k n with active := false, stopping := false } ∧ changesOnly [.host] s t) ∧
  (∀ (k : RingKind) (n fetched : Nat) (bad : Option Nat) (s : State), RegsCanonical s → (ring s k n).active = true →
    n < kindCount k →
    ∃ t, Sys2Proof.Machine.exec (.dmaError k n fetched bad) s = .next t ∧ (ring t k n).active = true ∧
      (ring t k n).stopping = true ∧ bit 0 (rg t (ringRegs k n + 0x20)) = true ∧
      (k = .cmd → bad.isSome = true → (ring s k n).work = [] → (ring s k n).fetch < (ring s k n).size →
        ringAvail (ring s k n) ≠ 0 →
        ∀ d, d = dmaRead (slotAddr (ring s k n) (ring s k n).fetch) 32 s →
          t.hmem = memWrite s.hmem (slotAddr (ring s k n) (ring s k n).fetch)
            (cmdBytes (ofLE (d.take 4) % 256) (ofLE (d.take 4) / 2 ^ 8 % 256) (ofLE ((d.drop 4).take 4)) 7 [])) ∧
      changesOnly [.host, .counters, .registers, .hostMemory] s t)

/-- The interrupt of a running ring (R112). A write of ARM = 1 whose SEEN is HEAD arms it and changes nothing else. With another SEEN it
arms it, W becomes (HEAD − SEEN) mod S and the holdoff starts then; where IRQ_EN is 1 and W is at the COUNT in effect (a COUNT of 0 acts
as 1) the message of the ring's vector is raised at once, and the ring is disarmed with W at 0. A write of ARM = 0 changes nothing. A
write of ARM on a ring that is off or stopping is counted in RNG_ACCESS_ERR (R79). The holdoff's end, with the ring armed, IRQ_EN 1 and
a HOLDOFF in effect that is not 0, raises the message, and the ring is disarmed with W at 0, not before HOLDOFF µs after the holdoff
started. That ARM arms a ring whose IRQ_EN is 0 is log entry 160, and what an access to a ring that is not running counts log entry 22.
-/
def Obligations.InterruptArming : Prop :=
  (∀ (k : RingKind) (n seen : Nat) (s : State), RegsCanonical s → hostOpen s = true → seen < 2 ^ 16 →
    (ring s k n).active = true → (ring s k n).stopping = false →
    (seen = (ring s k n).head →
      ∃ t, Sys2Proof.Machine.exec (.arm k n seen true) s = .next t ∧ ring t k n = { ring s k n with armed := true } ∧
        t.host.msiSent = s.host.msiSent ∧ changesOnly [.host] s t) ∧
    (∀ w, seen ≠ (ring s k n).head → w = ((ring s k n).head + (ring s k n).size - seen % (ring s k n).size) % (ring s k n).size →
      (irqOn s k n = false ∨ w < max 1 (fld 7 0 (ring s k n).mod) →
        ∃ t, Sys2Proof.Machine.exec (.arm k n seen true) s = .next t ∧
          ring t k n = { ring s k n with armed := true, w := w, holdFrom := some s.elapsed } ∧
          t.host.msiSent = s.host.msiSent ∧ changesOnly [.host] s t) ∧
      (irqOn s k n = true → max 1 (fld 7 0 (ring s k n).mod) ≤ w →
        ∃ t, Sys2Proof.Machine.exec (.arm k n seen true) s = .next t ∧
          ring t k n = { ring s k n with armed := false, w := 0, holdFrom := none } ∧
          msiRaised (rgF s (ringRegs k n + 8) 15 8) s t ∧ changesOnly [.host, .counters, .registers] s t)) ∧
    (∃ t, Sys2Proof.Machine.exec (.arm k n seen false) s = .next t ∧ changesOnly [] s t)) ∧
  (∀ (k : RingKind) (n seen : Nat) (b : Bool) (s : State), RegsCanonical s → hostOpen s = true →
    (ring s k n).active = false ∨ (ring s k n).stopping = true →
    ∃ t, Sys2Proof.Machine.exec (.arm k n seen b) s = .next t ∧ rg t R.rngAccessErr = (rg s R.rngAccessErr + 1) % 2 ^ 32 ∧
      registersBut [R.rngAccessErr] s t ∧ changesOnly [.registers] s t) ∧
  (∀ (k : RingKind) (n t0 : Nat) (s : State), RegsCanonical s → n < kindCount k → (ring s k n).holdFrom = some t0 →
    (ring s k n).armed = true → 0 < fld 19 8 (ring s k n).mod → irqOn s k n = true →
    ∃ t, Sys2Proof.Machine.exec (.irqHoldoffExpiry k n) s = .next t ∧
      ring t k n = { ring s k n with armed := false, w := 0, holdFrom := none } ∧
      msiRaised (rgF s (ringRegs k n + 8) 15 8) s t ∧ t0 + usT (fld 19 8 (ring s k n).mod) ≤ t.elapsed ∧
      changesOnly [.host, .time, .counters, .registers, .masterTime, .elapsed] s t)

/-! ## Images and protection -/

/-- With no image command in progress and the GLB block open: MARK of a valid slot, UNMARK and ERASE take BUSY with outcome 0, MARK of
an empty slot with 12, and none changes a slot before it finishes (R138). STORE with a failed DMA takes BUSY with 11; of an image that
fails a check, with that check's RESULT and section, and no slot changes; of a correct one, its slot is invalid until the command
finishes (R131, R136, R138). A command with nothing left to do finishes: BUSY clears and RESULT and SECTION show its outcome; after an
outcome 0, STORE has put the image in its slot, MARK the autoload mark on its slot, UNMARK has removed that mark, ERASE has emptied the
slot and removed its mark, and an apply changes nothing more; after another outcome MRAM stays as it was (R137, R138). The order of the
checks is log entry 97, and that the effects on the slots come with the command's end log entry 99. -/
def Obligations.ImageSlots : Prop :=
  (∀ (slot : Nat) (s : State), slot < 4 → imgOpen s = true →
      ((imgSlot s slot).valid = true →
        ∃ t, Sys2Proof.Machine.exec (.mark slot) s = .next t ∧ t.img = { s.img with busy := some { cmd := 4, slot := slot } } ∧
          changesOnly [.image] s t) ∧
      ((imgSlot s slot).valid = false →
        ∃ t, Sys2Proof.Machine.exec (.mark slot) s = .next t ∧
          t.img = { s.img with busy := some { cmd := 4, slot := slot, result := 12 } } ∧ changesOnly [.image] s t) ∧
      (∃ t, Sys2Proof.Machine.exec (.unmark slot) s = .next t ∧ t.img = { s.img with busy := some { cmd := 5, slot := slot } } ∧
        changesOnly [.image] s t) ∧
      (∃ t, Sys2Proof.Machine.exec (.erase slot) s = .next t ∧ t.img = { s.img with busy := some { cmd := 6, slot := slot } } ∧
        changesOnly [.image] s t) ∧
      (∀ host : List (Nat × Byte),
        (∃ t, Sys2Proof.Machine.exec (.store slot host false) s = .next t ∧
          t.img = { s.img with busy := some { cmd := 2, slot := slot, result := 11 } } ∧ t.hmem = memApply s.hmem host ∧
          changesOnly [.image, .hostMemory] s t) ∧
        (∀ r i, checkImage (hostWrote host s) (hostImage (hostWrote host s)) = .error (r, i) →
          ∃ t, Sys2Proof.Machine.exec (.store slot host true) s = .next t ∧
            t.img = { s.img with busy := some { cmd := 2, slot := slot, result := r, sect := i } } ∧
            t.hmem = memApply s.hmem host ∧ changesOnly [.image, .counters, .registers, .hostMemory] s t) ∧
        (∀ steps, checkImage (hostWrote host s) (hostImage (hostWrote host s)) = .ok steps →
          ∃ t, Sys2Proof.Machine.exec (.store slot host true) s = .next t ∧
            t.img = { s.img with busy := some { cmd := 2, slot := slot, image := hostImage (hostWrote host s) } } ∧
            t.mram = { s.mram with slots := s.mram.slots.set slot {} } ∧ t.hmem = memApply s.hmem host ∧
            changesOnly [.image, .mram, .counters, .registers, .hostMemory] s t))) ∧
  (∀ (b : ImageCmd) (s : State), s.img.busy = some b → b.todo = [] → b.waiting = none → b.failed = none →
      ∃ t, Sys2Proof.Machine.exec .imageCommandComplete s = .next t ∧
        t.img.busy = none ∧ t.img.result = b.result ∧ t.img.sect = b.sect ∧
        (b.result ≠ 0 → t.mram = s.mram) ∧
        (b.result = 0 → b.cmd = 1 ∨ b.cmd = 3 → t.mram = s.mram) ∧
        (b.result = 0 → b.cmd = 2 →
          t.mram = { s.mram with slots := s.mram.slots.set b.slot { valid := true, bytes := b.image } }) ∧
        (b.result = 0 → b.cmd = 4 → t.mram = { s.mram with autoload := some b.slot }) ∧
        (b.result = 0 → b.cmd = 5 → t.mram = { s.mram with
          autoload := if s.mram.autoload = some b.slot then none else s.mram.autoload }) ∧
        (b.result = 0 → b.cmd = 6 → t.mram = { s.mram with
          slots := s.mram.slots.set b.slot {},
          autoload := if s.mram.autoload = some b.slot then none else s.mram.autoload }) ∧
        changesOnly [.image, .mram] s t)

/-- LOAD_APPLY and APPLY_SLOT, with no image command in progress, in STAGE with nothing staged, no commit under way and no protected
change pending (R134): an image that passes its checks and consists of one COMMIT section starts the commit's CHECKING and waits for its
answer; one that consists of one register write, to a 32-bit class C register of a unit in service, stages it, and has nothing left to
do (R132). Otherwise than in STAGE and so on the command ends with RESULT 10; a LOAD_APPLY whose DMA fails with 11, an APPLY_SLOT of an
empty slot with 12, and an image that fails a check with that check's RESULT and section, and no one changes anything else (R131, R134,
R138). The order of the checks is log entry 97, the grounds of RESULT 10 and the wait inside an image log entry 98, and what a failed
image takes back log entry 181. -/
def Obligations.ImageApplies : Prop :=
  (∀ (img : List Byte) (c : Instr) (u s : State) (n slot : Nat), imgOpen s = true → applyAllowed s = true → slot < 4 →
    ((c = .loadApply [] true ∧ n = 1 ∧ slot = 0 ∧ u = pmuEv 29 2 none none (hostImage s).length s ∧ img = hostImage s) ∨
      (c = .applySlot slot ∧ n = 3 ∧ u = s ∧ (imgSlot s slot).valid = true ∧ img = (imgSlot s slot).bytes)) →
    (∀ i, checkImage u img = .ok [.commit i] → commitRefusal u true = none →
      ∃ t b, Sys2Proof.Machine.exec c s = .next t ∧ t.img.busy = some b ∧ b.cmd = n ∧ b.slot = slot ∧ b.result = 0 ∧
        b.todo = [] ∧ b.waiting = some (9, i % 256) ∧ t.gen.st = 1 ∧ t.md = s.md ∧ t.mram = s.mram) ∧
    (∀ i off v h, checkImage u img = .ok [.reg i off v] → shutUnit u off = none → regAt off = some h → h.row.cls = .c →
      h.row.wide = false → unusedPort u h = false →
      ∃ t b, Sys2Proof.Machine.exec c s = .next t ∧ t.img.busy = some b ∧ b.cmd = n ∧ b.slot = slot ∧ b.result = 0 ∧
        b.todo = [] ∧ b.waiting = none ∧ t.gen.dirty = true ∧ t.mram = s.mram ∧
        (RegsCanonical u → regWord t.regs h.off =
          BitVec.ofNat 32 (writtenWord s.prot.committed h (rg u h.off) (linkHoldWord h v).toNat))) ∧
    (∀ r i, checkImage u img = .error (r, i) →
      ∃ t, Sys2Proof.Machine.exec c s = .next t ∧ t.img.busy = some { cmd := n, slot := slot, result := r, sect := i } ∧
        changesOnly [.image, .counters, .registers] s t)) ∧
  (∀ (host : List (Nat × Byte)) (ok : Bool) (slot : Nat) (s : State), imgOpen s = true → slot < 4 →
    (applyAllowed s = false →
      (∃ t, Sys2Proof.Machine.exec (.loadApply host ok) s = .next t ∧ t.img.busy = some { cmd := 1, slot := 0, result := 10 } ∧
        changesOnly [.image, .hostMemory] s t) ∧
      (∃ t, Sys2Proof.Machine.exec (.applySlot slot) s = .next t ∧ t.img.busy = some { cmd := 3, slot := slot, result := 10 } ∧
        changesOnly [.image] s t)) ∧
    (applyAllowed s = true →
      (∃ t, Sys2Proof.Machine.exec (.loadApply host false) s = .next t ∧
        t.img.busy = some { cmd := 1, slot := 0, result := 11 } ∧ changesOnly [.image, .hostMemory] s t) ∧
      ((imgSlot s slot).valid = false → ∃ t, Sys2Proof.Machine.exec (.applySlot slot) s = .next t ∧
        t.img.busy = some { cmd := 3, slot := slot, result := 12 } ∧ changesOnly [.image] s t)))

/-- NEW_NONCE draws a 64-bit nonce, which is free, and leaves LAST_RESULT 1 (R146). A STAGE voids the nonce (R146): with no change
pending, both keys in the volatile store, a right item, count and mode, a fresh nonce and the operator's MAC over the record of R148 it
opens the window with that record, LAST_RESULT 2; it is refused with the result of the first check that fails, in the order 8 a change is
pending, 11 a key is absent, 12 the item, count or mode, 9 no fresh nonce, 10 the MAC. Within the window WITHDRAW discards the pending
change with LAST_RESULT 6, the warden's REJECT with 7, and its end, 10,000 ms after the STAGE, with 5 (R147). The warden's CONFIRM within
the window, with its MAC over the digest, ends it with LAST_RESULT 3, and an item 1, 7 or 8 takes effect: the protection commit, a new
operator key or a new warden key, in the vault and the volatile store, and no other of the three changes (R139, R141); with another MAC it
discards the change with 4 (R147). From a party that is not the warden CONFIRM, REJECT and PROVISION are refused as violations: counted,
W_EVENT.VIOLATION set, nothing of protection changed (R144). -/
def Obligations.ProtectedChanges : Prop :=
  ((∀ s : State, hostOpen s = true →
      ∃ t, Sys2Proof.Machine.exec .newNonce s = .next t ∧ t.prot.nonce < 2 ^ 64 ∧
        t.prot = { s.prot with nonce := t.prot.nonce, nonceFresh := true, lastResult := 1, rng := t.prot.rng } ∧
        changesOnly [.protection, .freeCount] s t) ∧
    (∀ (item count : Nat) (ko kw mac rec : List Byte) (s : State), hostOpen s = true → s.prot.pending = none → s.prot.ko = some ko →
      s.prot.kw = some kw → s.prot.nonceFresh = true → item < 256 → count < 32 → itemOk s item count = true →
      rec = digestRecord s.dev.uniqueId s.prot.nonce item (stagedValues s item count) → mac = hmac ko (sha256 rec) →
      (regBytes s R.prtOpMac 8 = mac →
        ∃ t, Sys2Proof.Machine.exec (.stage item count) s = .next t ∧
          t.prot = { s.prot with
            nonceFresh := false, lastResult := 2, digest := sha256 rec,
            pending := some ⟨item, (stagedValues s item count).length, stagedValues s item count, s.prot.nonce, sha256 rec,
                             s.elapsed⟩ } ∧
          bit 0 t.side.event = true ∧ changesOnly [.side, .protection, .host, .registers] s t) ∧
      (regBytes s R.prtOpMac 8 ≠ mac →
        ∃ t, Sys2Proof.Machine.exec (.stage item count) s = .next t ∧
          t.prot = { s.prot with nonceFresh := false, lastResult := 10 } ∧ changesOnly [.protection] s t)) ∧
    (∀ (item count n : Nat) (s : State), hostOpen s = true → item < 256 → count < 32 →
      (n = 8 ∧ (∃ p, s.prot.pending = some p ∧ s.elapsed < p.opened + windowLen) ∨
        s.prot.pending = none ∧
          (n = 11 ∧ (s.prot.ko = none ∨ s.prot.kw = none) ∨
            s.prot.ko.isSome = true ∧ s.prot.kw.isSome = true ∧
              (n = 12 ∧ itemOk s item count = false ∨
                n = 9 ∧ itemOk s item count = true ∧ s.prot.nonceFresh = false))) →
      ∃ t, Sys2Proof.Machine.exec (.stage item count) s = .next t ∧
        t.prot = { s.prot with nonceFresh := false, lastResult := n } ∧ changesOnly [.protection] s t) ∧
    (∀ (p : Pending) (s : State), s.prot.pending = some p → s.elapsed < p.opened + windowLen →
      (hostOpen s = true → ∃ t, Sys2Proof.Machine.exec .withdraw s = .next t ∧
        t.prot = { s.prot with pending := none, lastResult := 6 } ∧ bit 2 t.side.event = true ∧
        changesOnly [.side, .protection, .host, .registers] s t) ∧
      (windowOpen s (wardenParty s) = true → ∃ t, Sys2Proof.Machine.exec (.reject (wardenParty s)) s = .next t ∧
        t.prot = { s.prot with pending := none, lastResult := 7 } ∧ bit 2 t.side.event = true ∧
        changesOnly [.side, .protection, .host, .registers] s t) ∧
      (∃ t, Sys2Proof.Machine.exec .protectWindowExpiry s = .next t ∧
        t.prot = { s.prot with pending := none, lastResult := 5 } ∧ bit 2 t.side.event = true ∧
        t.elapsed = p.opened + windowLen ∧
        changesOnly [.side, .protection, .host, .time, .counters, .registers, .masterTime, .elapsed] s t))) ∧
  ((∀ (p : Pending) (kw : List Byte) (ok : Bool) (s : State), s.prot.pending = some p → s.prot.kw = some kw →
      s.elapsed < p.opened + windowLen → windowOpen s (wardenParty s) = true →
      (bytesOfWords s.side.confirm = hmac kw p.digest → p.item = 1 ∨ p.item = 7 ∨ p.item = 8 →
        ∃ t, Sys2Proof.Machine.exec (.confirm (wardenParty s) ok) s = .next t ∧ t.prot.pending = none ∧ t.prot.lastResult = 3 ∧
          bit 1 t.side.event = true ∧
          (t.prot.committed = true ↔ p.item = 1 ∨ s.prot.committed = true) ∧
          (p.item = 7 → t.prot.ko = some (bytesOfWords p.values) ∧ t.mram.vaultKo = some (bytesOfWords p.values)) ∧
          (p.item ≠ 7 → t.prot.ko = s.prot.ko ∧ t.mram.vaultKo = s.mram.vaultKo) ∧
          (p.item = 8 → t.prot.kw = some (bytesOfWords p.values) ∧ t.mram.vaultKw = some (bytesOfWords p.values)) ∧
          (p.item ≠ 8 → t.prot.kw = s.prot.kw ∧ t.mram.vaultKw = s.mram.vaultKw) ∧
          changesOnly [.side, .protection, .mram, .host, .registers] s t) ∧
      (bytesOfWords s.side.confirm ≠ hmac kw p.digest →
        ∃ t, Sys2Proof.Machine.exec (.confirm (wardenParty s) ok) s = .next t ∧
          t.prot = { s.prot with pending := none, lastResult := 4 } ∧ bit 2 t.side.event = true ∧
          changesOnly [.side, .protection, .host, .registers] s t)) ∧
    (∀ (c : Instr) (p : Party) (ok : Bool) (s : State), RegsCanonical s → windowOpen s p = true → p ≠ wardenParty s →
      c = .confirm p ok ∨ c = .reject p ∨ c = .provision p →
      ∃ t, Sys2Proof.Machine.exec c s = .next t ∧ rg t R.prtViolations = (rg s R.prtViolations + 1) % 2 ^ 32 ∧
        bit 4 t.side.event = true ∧ changesOnly [.side, .host, .registers] s t))

/-- A key is provisioned into an empty vault slot while the vault is not blocked: the operator's by PROVISION_OP_KEY, the warden's by
its PROVISION. It stands in the vault and the volatile store, and its count of replacements is 0; with the slot full the command is
refused with LAST_RESULT 14, and with the vault blocked with 15 (R145). A JTAG Update-DR of 0xA55A_C3C3 under ZEROISE_ALL in STAGE, with
MRAM writable, wipes both keys from the volatile store and the vault, the copies in the key registers, an unused nonce and the pending
change, counts the zeroisation, sets W_EVENT.ZEROISED and both bits of PRT_DEBUG, and leaves the protection commit as it was; with
another instruction, word or mode nothing of protection changes: the TAP holds the instruction, a word scanned through BYPASS, and
through INT_SCAN or DEBUG where these act as BYPASS, comes out a bit later, and SAMPLE/PRELOAD and EXTEST take it into the boundary
register (R154, R155, R157, R533; the last 32 bits, log entry 177). TRST_N low selects BYPASS, and without supplies the TAP does nothing
(R533). FAULT_ACK with ACK = 1 frees slot 0 of the fault log (R63, R526), and with ACK = 0 changes nothing. That a provisioning keeps
LAST_RESULT is log entry 18, what the wiping does with a pending change log entry 143, the TAP's row log entry 165, the record that MRAM
cannot take log entry 17 and FAULT_NEW log entry 108. -/
def Obligations.KeysAndZeroisation : Prop :=
  (∀ s : State,
      (hostOpen s = true →
        (s.prot.vaultBlocked = false → s.mram.vaultKo = none →
          ∃ t k, Sys2Proof.Machine.exec .provisionOpKey s = .next t ∧ k = regBytes s R.prtKey 8 ∧
            t.prot = { s.prot with ko := some k } ∧ t.mram = { s.mram with vaultKo := some k, keyGenOp := 0 } ∧
            changesOnly [.protection, .mram] s t) ∧
        (s.prot.vaultBlocked = false → s.mram.vaultKo ≠ none →
          ∃ t, Sys2Proof.Machine.exec .provisionOpKey s = .next t ∧ t.prot = { s.prot with lastResult := 14 } ∧
            changesOnly [.protection] s t) ∧
        (s.prot.vaultBlocked = true →
          ∃ t, Sys2Proof.Machine.exec .provisionOpKey s = .next t ∧ t.prot = { s.prot with lastResult := 15 } ∧
            changesOnly [.protection] s t)) ∧
      (windowOpen s (wardenParty s) = true →
        (s.prot.vaultBlocked = false → s.mram.vaultKw = none →
          ∃ t k, Sys2Proof.Machine.exec (.provision (wardenParty s)) s = .next t ∧ k = bytesOfWords s.side.key ∧
            t.prot = { s.prot with kw := some k } ∧ t.mram = { s.mram with vaultKw := some k, keyGenWd := 0 } ∧
            changesOnly [.protection, .mram] s t) ∧
        (s.prot.vaultBlocked = false → s.mram.vaultKw ≠ none →
          ∃ t, Sys2Proof.Machine.exec (.provision (wardenParty s)) s = .next t ∧ t.prot = { s.prot with lastResult := 14 } ∧
            changesOnly [.protection] s t) ∧
        (s.prot.vaultBlocked = true →
          ∃ t, Sys2Proof.Machine.exec (.provision (wardenParty s)) s = .next t ∧ t.prot = { s.prot with lastResult := 15 } ∧
            changesOnly [.protection] s t))) ∧
  ((∀ s : State, s.md.mode = .stage → RegsCanonical s →
      s.pins.supplies = true →
      ∃ t, Sys2Proof.Machine.exec (.zeroiseAll .zeroiseAll 0xA55AC3C3 false true) s = .next t ∧ t.prot.ko = none ∧ t.prot.kw = none ∧
        (s.prot.nonceFresh = true → t.prot.nonce = 0) ∧ t.prot.pending = none ∧ t.mram.vaultKo = none ∧ t.mram.vaultKw = none ∧
        t.side.key = List.replicate 8 0 ∧ (∀ k < 8, rg t (R.prtKey k) = 0) ∧
        t.mram.zeroCount = s.mram.zeroCount + 1 ∧ t.prot.scanActive = true ∧ t.prot.debugActive = true ∧
        t.prot.committed = s.prot.committed ∧ bit 3 t.side.event = true ∧
        changesOnly [.pins, .side, .protection, .mram, .host, .recorder, .registers, .freeCount] s t) ∧
    (∀ (ir : Jtag) (dr : Word) (ok : Bool) (s : State), s.pins.supplies = true →
      (ir ≠ .zeroiseAll ∨ dr ≠ 0xA55AC3C3 ∨ s.md.mode ≠ .stage →
        ∃ t, Sys2Proof.Machine.exec (.zeroiseAll ir dr false ok) s = .next t ∧ t.pins.tap.ir = ir ∧
          t.pins = { s.pins with tap := t.pins.tap } ∧
          (jtagActs s ir = .bypass → t.pins.tap.tdo = 2 * dr.toNat % 2 ^ 32 ∧ t.pins.tap.boundary = s.pins.tap.boundary) ∧
          (jtagActs s ir = .sample ∨ jtagActs s ir = .extest → t.pins.tap.boundary = dr.toNat) ∧
          (ir ≠ .intScan ∨ s.prot.scanActive = false → t.svc = s.svc) ∧
          changesOnly [.pins, .service, .freeCount] s t) ∧
      (∃ t, Sys2Proof.Machine.exec (.zeroiseAll ir dr true ok) s = .next t ∧ t.pins.tap.ir = .bypass ∧
        changesOnly [.pins] s t)) ∧
    (∀ (ir : Jtag) (dr : Word) (trst ok : Bool) (s : State), s.pins.supplies = false →
      ∃ t, Sys2Proof.Machine.exec (.zeroiseAll ir dr trst ok) s = .next t ∧ changesOnly [] s t) ∧
    (∀ (w : Word) (s : State), hostOpen s = true → regionLocked s (R.mrmFaultAck / 0x10000) = false →
      (bit 0 w.toNat = true → ∃ t, Sys2Proof.Machine.exec (.faultAck w) s = .next t ∧
        t.mram = { s.mram with slot0Held := false, faultNew := 0 } ∧ changesOnly [.mram] s t) ∧
      (bit 0 w.toNat = false → ∃ t, Sys2Proof.Machine.exec (.faultAck w) s = .next t ∧ changesOnly [] s t)))

/-! ## Lanes -/

/-- A loss or return of signal or of clock data lock on a lane, and a change of its PCS lock or its high bit error ratio told without
new errors, changes that lane's status and since when it has been good, and no other lane or quad (R169, R170); what it makes of the
port stays within `linkParts`. On a quad of MODE 0 with its port down, a loss of signal sets LOS's sticky bit and no other register
(R195), and errors told with PCS_LOCK_CHANGE are added to SER_LANE_CODE_ERR (R173, R193). A 10GBASE-R port that is up goes down when its
lane loses signal, clock data lock or PCS lock (R198, R199). A lane command is taken for a lane out of service or of a quad of MODE 0
with nothing running; one for a lane in use, or while another runs, ends with RESULT 1, one in a failed quad with 4, a RESTORE with no
cache entry with 3 (R171). STOP ends a PRBS31 test with its errors added. ADAPT and RESTORE end with the lane calibrated and CAL_DONE
set; an ADAPT that does not converge leaves RESULT 2, the lane's CAL 4, and its eye as it was (R171, R195). CAL 4 after an ADAPT that
failed is log entry 29, and that a reception on a port that is down has no effect log entry 27. -/
def Obligations.Lanes : Prop :=
  ((∀ (c : Instr) (l : Lane) (ln : Nat) (s : State), ln < 256 → s.md.mode ≠ .reset →
      (c = .losAssert ln ∧ l = { lane s ln with los := true }) ∨ (c = .losClear ln ∧ l = { lane s ln with los := false }) ∨
        (c = .lolAssert ln ∧ l = { lane s ln with lol := true }) ∨ (c = .lolClear ln ∧ l = { lane s ln with lol := false }) ∨
        (∃ k h, c = .pcsLockChange ln k h 0 ∧
          l = { lane s ln with lock := k, hiBer := h && decide (8 ≤ (quad s (ln / 4)).mode) }) →
      ∃ t, Sys2Proof.Machine.exec c s = .next t ∧ hears (lane t ln) = hears (l.timed s.now) ∧
        (∀ m, m ≠ ln → hears (lane t m) = hears (lane s m)) ∧ t.lk.quads = s.lk.quads ∧ changesOnly linkParts s t) ∧
    (∀ (ln : Nat) (s : State), RegsCanonical s → ln < 256 → s.md.mode ≠ .reset → (quad s (ln / 4)).mode = 0 →
      (port s (portOfLane s ln)).up = false →
      ((lane s ln).los = false →
        ∃ t, Sys2Proof.Machine.exec (.losAssert ln) s = .next t ∧ bit 0 (rg t (R.serLaneEvt (ln / 4) (ln % 4))) = true ∧
          registersBut [R.serLaneEvt (ln / 4) (ln % 4)] s t ∧ changesOnly [.links, .registers] s t) ∧
      (∀ (k h : Bool) (e : Nat), 0 < e → (lane s ln).lock = false →
        ∃ t, Sys2Proof.Machine.exec (.pcsLockChange ln k h e) s = .next t ∧ (lane t ln).lock = k ∧
          rg t (R.serLaneCodeErr (ln / 4) (ln % 4)) = (rg s (R.serLaneCodeErr (ln / 4) (ln % 4)) + e) % 2 ^ 32 ∧
          registersBut [R.serLaneCodeErr (ln / 4) (ln % 4)] s t ∧ changesOnly [.links, .registers] s t)) ∧
    (∀ (c : Instr) (ln : Nat) (s : State), RegsCanonical s → ln < 256 → s.md.mode ≠ .reset → (quad s (ln / 4)).mode = 8 →
      rxLane s (ln / 4) (logicalOf s ln) = ln → (port s (portOfLane s ln)).up = true →
      (c = .losAssert ln ∨ c = .lolAssert ln ∨ ∃ h e, c = .pcsLockChange ln false h e) →
      ∃ t, Sys2Proof.Machine.exec c s = .next t ∧ (port t (portOfLane s ln)).up = false ∧ changesOnly linkParts s t)) ∧
  ((∀ (c : Instr) (n ln : Nat) (s : State), ln < 256 → pf0Open (R.serLaneCmd (ln / 4) (ln % 4)) s →
      (c = .adapt ln ∧ n = 1) ∨ (c = .restore ln ∧ n = 2) ∨ (c = .prbs31Near ln ∧ n = 3) ∨ (c = .prbs31Line ln ∧ n = 4) →
      (laneCmdOk s ln = true → (lane s ln).cmd = 0 → (quad s (ln / 4)).failed = false →
        (n = 2 → s.mram.cache.headerOk = true ∧ ln ∉ s.mram.cache.badLanes) →
        ∃ t, Sys2Proof.Machine.exec c s = .next t ∧
          lane t ln = { lane s ln with cmd := n, result := 0, cal := if n = 1 then 3 else (lane s ln).cal } ∧
          (∀ m, m ≠ ln → lane t m = lane s m) ∧ changesOnly [.links] s t) ∧
      (∀ r : Nat, (r = 1 ∧ (laneCmdOk s ln = false ∨ (lane s ln).cmd ≠ 0)) ∨
          (r = 4 ∧ laneCmdOk s ln = true ∧ (lane s ln).cmd = 0 ∧ (quad s (ln / 4)).failed = true) ∨
          (r = 3 ∧ laneCmdOk s ln = true ∧ (lane s ln).cmd = 0 ∧ (quad s (ln / 4)).failed = false ∧ n = 2 ∧
            (s.mram.cache.headerOk = false ∨ ln ∈ s.mram.cache.badLanes)) →
        ∃ t, Sys2Proof.Machine.exec c s = .next t ∧ lane t ln = { lane s ln with result := r } ∧
          (∀ m, m ≠ ln → lane t m = lane s m) ∧ changesOnly [.links] s t)) ∧
    (∀ (ln e : Nat) (s : State), RegsCanonical s → ln < 256 → pf0Open (R.serLaneCmd (ln / 4) (ln % 4)) s →
      (lane s ln).cmd = 3 ∨ (lane s ln).cmd = 4 →
      ∃ t, Sys2Proof.Machine.exec (.stop ln e) s = .next t ∧ lane t ln = { lane s ln with cmd := 0, result := 0 } ∧
        rg t (R.serLanePrbsErr (ln / 4) (ln % 4)) = (rg s (R.serLanePrbsErr (ln / 4) (ln % 4)) + e) % 2 ^ 32 ∧
        registersBut [R.serLanePrbsErr (ln / 4) (ln % 4)] s t ∧ changesOnly [.links, .registers] s t) ∧
    (∀ (ln eye : Nat) (ok : Bool) (s : State), RegsCanonical s → eye < 256 →
      ((lane s ln).cmd = 1 ∧ ok = true ∨ (lane s ln).cmd = 2 →
        ∃ t, Sys2Proof.Machine.exec (.laneCommandComplete ln eye ok) s = .next t ∧
          lane t ln = { lane s ln with cmd := 0, result := 0, cal := if (lane s ln).cmd = 1 then 2 else 1, eye := eye } ∧
          bit 4 (rg t (R.serLaneEvt (ln / 4) (ln % 4))) = true ∧ ((lane s ln).cmd = 1 → ln ∉ t.mram.cache.badLanes) ∧
          changesOnly [.mram, .links, .registers] s t) ∧
      ((lane s ln).cmd = 1 → ok = false →
        ∃ t, Sys2Proof.Machine.exec (.laneCommandComplete ln eye ok) s = .next t ∧
          lane t ln = { lane s ln with cmd := 0, result := 2, cal := 4 } ∧
          bit 4 (rg t (R.serLaneEvt (ln / 4) (ln % 4))) = true ∧ changesOnly [.links, .registers] s t)))

/-- REFCLK_k entering or leaving its good window changes REF_OK, the PLL lock and the measured offset of its four quads and of no
others (R161); the window is ±2,000 ppm for k = 0, −5,200 to +200 ppm under declared spread and ±200 ppm otherwise (R161, R167); an absent
clock is not good, and measures −1,000,000 ppm (the model's choice: log entry 154). A port's negotiation, alignment and fault signalling
are noted for the link's judgement, and an SGMII or 1000BASE-X partner of the wrong kind sets AN_MISMATCH (R165, R172, R198). -/
def Obligations.PortSignals : Prop :=
  (∀ (k : Nat) (ppm : Option Int) (s : State), k < 16 → s.md.mode ≠ .reset →
    (refGood s k ppm = true ↔ ∃ x, ppm = some x ∧ (k = 0 ∧ -2000 ≤ x ∧ x ≤ 2000 ∨
      k ≠ 0 ∧ x ≤ 200 ∧ (bit 1 (cu s (R.serRefclk (4 * k))) = true ∧ -5200 ≤ x ∨ -200 ≤ x))) ∧
    ∃ t, Sys2Proof.Machine.exec (.refclkGoodChange k ppm) s = .next t ∧
      (∀ q, q / 4 = k → quad t q =
        { quad s q with refOk := refGood s k ppm, pllLock := refGood s k ppm, refPpm := ppm.getD (-1000000) }) ∧
      (∀ q, q / 4 ≠ k → quad t q = quad s q) ∧ (∀ m, hears (lane t m) = hears (lane s m)) ∧ changesOnly linkParts s t) ∧
  (∀ (p : Nat) (full : Bool) (s : State), p < 256 → portMode s p = 1 → s.md.mode ≠ .reset →
    ∃ t, Sys2Proof.Machine.exec (.autoNegotiationComplete p full) s = .next t ∧ (port t p).anDone = full ∧
      (full = false → (quad s (p / 4)).refOk = false → (port s p).up = false → RegsCanonical s →
        bit 5 (rg t (R.serLaneEvt (p / 4) (p % 4))) = true) ∧
      t.lk.lanes = s.lk.lanes ∧ t.lk.quads = s.lk.quads ∧ changesOnly linkParts s t) ∧
  (∀ (p lanes : Nat) (b : Bool) (s : State), p < 256 → s.md.mode ≠ .reset →
    (∃ t, Sys2Proof.Machine.exec (.alignmentLockChange p b lanes) s = .next t ∧ (port t p).aligned = b ∧
      (∀ m, hears (lane t m) = hears (lane s m)) ∧ t.lk.quads = s.lk.quads ∧ changesOnly linkParts s t) ∧
    (∃ t, Sys2Proof.Machine.exec (.linkFaultSignalChange p b) s = .next t ∧ (port t p).faultSig = b ∧
      (∀ m, hears (lane t m) = hears (lane s m)) ∧ t.lk.quads = s.lk.quads ∧ changesOnly linkParts s t))

/-! ## Tsuip -/

/-- Ordered sets received on a Tsuip port that is training or running: a set of which no copy passes its CRC-8 is counted in
SER_TS_OS_ERR and otherwise ignored (R177; shown for a DSK outside ACTIVE). A DSK set takes training from DETECT to LANES where a lane
of its copies has lock, to CONFIG at a width both ends can run with every class's window advertised, from ACTIVE to RETRAIN where it asks
for less than the width in use, where T_RETRAIN starts once a frame in progress has ended, and back to ACTIVE at the width both have
sent with ACK (R187, R188). A CRD of an initialised class
moves its LIMIT on by less than 32,768, the same LIMIT again changes nothing (the model's choice: log entry 20), and one of a class with no
INIT yet is counted and ignored (R181). A TTM mark's SEQ and TX time are stored with NEW set, and its receive stamp taken
(R185). A CYC mark is counted and otherwise ignored (R186). -/
def Obligations.TsuipReceives : Prop :=
  ∀ (p : Nat) (s : State), portTsuip s p = true → RegsCanonical s → 1 ≤ (tsOf s p).st →
    (∀ c : Instr, (∃ d : Dsk, c = .dskReceive p d ∧ dskContent d.set = none ∧ (tsOf s p).st ≠ 4) ∨
        (∃ d : OrdSet, c = .crdReceive p d ∧ setContent s p 3 d = none) ∨
        (∃ d : Ttm, c = .ttmReceive p d ∧ setContent s p 23 d.set = none ∧ d.stamp ≤ s.now) ∨
        (∃ d : OrdSet, c = .cycReceive p d ∧ setContent s p 6 d = none) →
      ∃ t, Sys2Proof.Machine.exec c s = .next t ∧
        rg t (tsReg R.serTsOsErr p) = (rg s (tsReg R.serTsOsErr p) + 1) % 2 ^ 32 ∧
        registersBut [tsReg R.serTsOsErr p] s t ∧ changesOnly [.registers] s t) ∧
    (∀ (d : Dsk) (bs : List Byte), dskContent d.set = some bs →
      ((tsOf s p).st = 1 → (∃ c ∈ d.set.copies, (lane s (4 * (p / 4) + c.1)).lock = true) →
        ∃ t, Sys2Proof.Machine.exec (.dskReceive p d) s = .next t ∧ (tsOf t p).st = 2 ∧ (tsOf t p).timer = some s.now ∧
          (tsOf t p).partnerGood = byteAt bs 1 % 16 ∧ (tsOf t p).partnerWidth = dskWidth bs ∧ changesOnly [.links] s t) ∧
      (bit 4 (byteAt bs 0) = true → d.deskewed = true → 1 ≤ dskWidth bs →
        ((tsOf s p).st = 2 → (tsOf s p).ackedWidth = dskWidth bs → dskWidth bs ≤ tsProposal (tsLearn p d.set s) p (byteAt bs 1 % 16) →
          ∃ t, Sys2Proof.Machine.exec (.dskReceive p d) s = .next t ∧ (tsOf t p).st = 3 ∧ (tsOf t p).width = dskWidth bs ∧
            (tsOf t p).timer = some s.now ∧ (tsOf t p).initSeen = 0 ∧ (tsOf t p).inited = 0 ∧
            (tsOf t p).advertised = (List.range 8).map (tsWindow s p) ∧ changesOnly [.links] s t) ∧
        ((tsOf s p).st = 5 → (tsOf s p).ackedWidth = dskWidth bs → (port s p).sending = none →
          dskWidth bs ≤ tsProposal s p (byteAt bs 1 % 16) →
          ∃ t, Sys2Proof.Machine.exec (.dskReceive p d) s = .next t ∧ (tsOf t p).st = 4 ∧ (tsOf t p).width = dskWidth bs ∧
            (tsOf t p).timer = none ∧ (tsOf t p).inUse = tsLanesAt s p (dskWidth bs) ∧
            (tsOf t p).limit = (tsOf s p).limit ∧ (tsOf t p).returned = (tsOf s p).returned ∧
            changesOnly [.host, .links, .registers] s t)) ∧
      ((tsOf s p).st = 4 → (∀ i < 4, tsLaneFailed (tsMarkers p d s) p i = false) → 1 ≤ dskWidth bs →
        dskWidth bs < (tsOf s p).width →
        ∃ t, Sys2Proof.Machine.exec (.dskReceive p d) s = .next t ∧ (tsOf t p).st = 5 ∧
          (tsOf t p).timer = (if (port s p).sending.isSome then none else some s.now) ∧ (tsOf t p).ackedWidth = 0 ∧
          (tsOf t p).width = (tsOf s p).width ∧
          rg t (tsReg R.serTsRetrains p) = (rg s (tsReg R.serTsRetrains p) + 1) % 2 ^ 32 ∧
          registersBut [tsReg R.serTsRetrains p] s t ∧ changesOnly [.links, .registers] s t)) ∧
    (∀ (d : OrdSet) (bs : List Byte) (c ahead : Nat), setContent s p 3 d = some bs → bit 3 (byteAt bs 0) = false →
      c = byteAt bs 0 % 8 → ahead = (be16 bs 1 + 65536 - nth 0 (tsOf s p).limit c) % 65536 →
      (bit c (tsOf s p).inited = true → 0 < ahead → ahead < 32768 →
        ∃ t, Sys2Proof.Machine.exec (.crdReceive p d) s = .next t ∧
          tsOf t p = { tsOf s p with limit := (tsOf s p).limit.set c (be16 bs 1) } ∧ changesOnly [.links] s t) ∧
      (bit c (tsOf s p).inited = true → ahead = 0 →
        ∃ t, Sys2Proof.Machine.exec (.crdReceive p d) s = .next t ∧ changesOnly [] s t) ∧
      (bit c (tsOf s p).inited = false →
        ∃ t, Sys2Proof.Machine.exec (.crdReceive p d) s = .next t ∧
          rg t (tsReg R.serTsOsErr p) = (rg s (tsReg R.serTsOsErr p) + 1) % 2 ^ 32 ∧
          registersBut [tsReg R.serTsOsErr p] s t ∧ changesOnly [.registers] s t)) ∧
    (∀ (d : Ttm) (bs : List Byte), setContent s p 23 d.set = some bs →
      ∃ t, Sys2Proof.Machine.exec (.ttmReceive p d) s = .next t ∧ (tsOf t p).peerSeq = byteAt bs 0 ∧
        (tsOf t p).peerTx = [beN bs 3 4, beN bs 7 4, be16 bs 11] ∧
        (tsOf t p).devRx = rxStampAt (reach d.stamp s) p d.stamp ∧ (tsOf t p).peerHeard = true ∧
        bit 31 (rg t (tsReg R.serTsTtmSeq p)) = true ∧ registersBut [tsReg R.serTsTtmSeq p] (reach d.stamp s) t ∧
        changesOnly [.links, .registers] (reach d.stamp s) t) ∧
    (∀ (d : OrdSet) (bs : List Byte), setContent s p 6 d = some bs →
      ∃ t, Sys2Proof.Machine.exec (.cycReceive p d) s = .next t ∧
        rg t (tsReg R.serTsCycRx p) = (rg s (tsReg R.serTsCycRx p) + 1) % 2 ^ 32 ∧
        registersBut [tsReg R.serTsCycRx p] s t ∧ changesOnly [.registers] s t)

/-- Training falls back to DETECT when LANES, or CONFIG short of all INIT sets, or RETRAIN lasts 1 ms; with all INIT sets in, T_CONFIG
just stops (R187). What the receivers of a port's lanes have seen is judged in ACTIVE: with no lane in use failed nothing follows;
failed lanes take the link to RETRAIN with another good lane left, in use or not, to DETECT with none (R187, R190; log entry 169).
A retrain to a wider width starts by
itself after STABLE_MS where WIDEN_AUTO is set, and by WIDEN (R191, R196); WIDEN does nothing where no wider width is
possible. -/
def Obligations.TsuipTraining : Prop :=
  (∀ (c : Instr) (p n t0 : Nat) (s : State), (c = .tLanesExpiry p ∧ n = 2) ∨
      (c = .tConfigExpiry p ∧ n = 3 ∧ (tsOf s p).initSeen ≠ 0xFF) ∨ (c = .tRetrainExpiry p ∧ n = 5) →
      (tsOf s p).st = n → (tsOf s p).timer = some t0 →
    ∃ t, Sys2Proof.Machine.exec c s = .next t ∧ (tsOf t p).st = 1 ∧ (tsOf t p).width = 0 ∧ (tsOf t p).timer = none ∧
      changesOnly (.time :: .masterTime :: .elapsed :: linkParts) s t) ∧
  (∀ (p t0 : Nat) (s : State), (tsOf s p).st = 3 → (tsOf s p).timer = some t0 → (tsOf s p).initSeen = 0xFF →
    ∃ t, Sys2Proof.Machine.exec (.tConfigExpiry p) s = .next t ∧ tsOf t p = { tsOf s p with timer := none } ∧
      changesOnly [.links] (reach (t0 + msT 1) s) t) ∧
  (∀ (p : Nat) (seen : List LaneSeen) (u s : State), portTsuip s p = true → (tsOf s p).st = 4 → u = tsSeen p seen s →
    ((∀ i < 4, tsLaneFailed u p i = false) → Sys2Proof.Machine.exec (.laneFailure p seen) s = .next u) ∧
    ((∃ i < tsCfgWidth s p, tsLaneFailed u p i = true) →
      ((∃ i ∈ tsGood u p, tsLaneFailed u p i = false) →
        ∃ t, Sys2Proof.Machine.exec (.laneFailure p seen) s = .next t ∧ (tsOf t p).st = 5 ∧ (tsOf t p).timer = some s.now ∧
          changesOnly linkParts s t) ∧
      ((∀ i ∈ tsGood u p, tsLaneFailed u p i = true) →
        ∃ t, Sys2Proof.Machine.exec (.laneFailure p seen) s = .next t ∧ (tsOf t p).st = 1 ∧ changesOnly linkParts s t))) ∧
  (∀ (p t0 : Nat) (ts : List Nat) (s : State), tsStableAt s p = t0 :: ts → portTsuip s p = true →
    bit 0 (cu s (tsReg R.serTsCfg p)) = true → tsWider (reach (ts.foldl min t0) s) p = true →
    ∃ t, Sys2Proof.Machine.exec (.stableMsExpiry p) s = .next t ∧ (tsOf t p).st = 5 ∧ (tsOf t p).width = (tsOf s p).width ∧
      changesOnly [.links, .time, .counters, .registers, .masterTime, .elapsed] s t) ∧
  (∀ (p : Nat) (s : State), RegsCanonical s → portTsuip s p = true → pf0Open (tsReg R.serTsCmd p) s →
    (tsWider s p = true → ∃ t, Sys2Proof.Machine.exec (.widen p) s = .next t ∧
      tsOf t p = { tsOf s p with
        st := 5, timer := if (port s p).sending.isSome then none else some s.now, partnerWidth := 0, ackedWidth := 0 } ∧
      rg t (tsReg R.serTsRetrains p) = (rg s (tsReg R.serTsRetrains p) + 1) % 2 ^ 32 ∧
      registersBut [tsReg R.serTsRetrains p] s t ∧ changesOnly [.links, .registers] s t) ∧
    (tsWider s p = false → ∃ t, Sys2Proof.Machine.exec (.widen p) s = .next t ∧ changesOnly [] s t))

/-- What a Tsuip port sends at a gap, after the sets that R178 puts before it in that gap (`gapBefore`): SKP, COM and two K23.7 on every
lane in use, once 2,048 columns have passed (R179); DSK with the next SEQ, in ACTIVE once 1,024 columns have passed (R187, R188); the
LIMIT of a class, at once where it has changed or in CONFIG, else 10 µs after the last (R182); in ACTIVE a TTM mark with the next SEQ
once TTM_PERIOD has passed, whose TX time is kept (R184); in ACTIVE the CYC marks that wait, or the next one once its edge less
CYC_ADVANCE has come, each before its edge (R186). A mark that has missed its edge is dropped, with the sticky bit set (R186). A
read of TTM_SEQ clears NEW (R185), and the instance of a port number that no Tsuip link has reads 0 (R12). That CYC marks of
generators with a common edge go in the generators' order is log entry 143. -/
def Obligations.TsuipSends : Prop :=
  (∀ (p : Nat) (u s : State), tsGap s p = true →
    (u = gapBefore p 1 (reachElapsed (skpDue s p) s) →
      ∃ t, Sys2Proof.Machine.exec (.skpSend p) s = .next t ∧ tsOf t p = tsOf u p ∧
        (port t p).tsOut.skpAt = u.elapsed ∧ skpDue s p ≤ u.elapsed ∧
        (port t p).tsOut.columns = (port u p).tsOut.columns ++
          [symCom, .k 0xF7, .k 0xF7].map (List.replicate (txLanes u p).length) ∧ changesOnly [.links] u t) ∧
    (u = gapBefore p 2 (if tsActive s p then reachElapsed (dskDue s p) s else s) →
      ∃ t, Sys2Proof.Machine.exec (.dskSend p) s = .next t ∧
        tsOf t p = { tsOf u p with ackedWidth := if (tsOf u p).st = 4 ∨ (tsOf u p).partnerWidth ≠ 0 then tsWidthSent u p
          else (tsOf u p).ackedWidth } ∧
        (port t p).tsOut.dskSeq = ((port u p).tsOut.dskSeq + 1) % 256 ∧ (tsActive s p = true → dskDue s p ≤ u.elapsed) ∧
        (∃ data, data.length = 4 ∧ (port t p).tsOut.columns = (port u p).tsOut.columns ++
          [symCom, .k 0x7C].map (List.replicate (txLanes u p).length) ++ data) ∧ changesOnly [.links] u t) ∧
    (∀ c < 8, 3 ≤ (tsOf s p).st →
      (∀ b : Bool, b = (decide (tsLimit s p c ≠ nth 0 (tsOf s p).advertised c) || (tsOf s p).st == 3) →
        (b = true → u = gapBefore p 4 s) →
        (b = false → bit c (cuF s (tsReg R.serTsCfg2 p) 23 16) = true ∧
          u = gapBefore p 4 (reachElapsed (kvGetD 0 c (port s p).tsOut.crdAt + usT 10) s)) →
        ∃ t, Sys2Proof.Machine.exec (.crdSend p c) s = .next t ∧
          tsOf t p = { tsOf u p with advertised := (tsOf u p).advertised.set c (tsLimit u p c) } ∧
          (∃ data, data.length = 4 ∧ (port t p).tsOut.columns = (port u p).tsOut.columns ++
            [symCom, .k 0x5C].map (List.replicate (txLanes u p).length) ++ data) ∧ changesOnly [.links] u t)) ∧
    (tsActive s p = true → u = gapBefore p 3 (reachElapsed (ttmDue s p) s) →
      ∃ t, Sys2Proof.Machine.exec (.ttmSend p) s = .next t ∧ ttmDue s p ≤ u.elapsed ∧
        tsOf t p = { tsOf u p with
          ttmSeq := ((tsOf u p).ttmSeq + 1) % 256, ttmTx := kvPut (tsOf u p).ttmSeq (txStampAt u p u.now) (tsOf u p).ttmTx } ∧
        changesOnly [.links] u t) ∧
    (tsActive s p = true → u = tsMarksDue p s → (port u p).tsOut.marks ≠ [] →
      (∀ m ∈ (port u p).tsOut.marks, u.now < m.2.2) ∧
      ∃ t, Sys2Proof.Machine.exec (.cycMarkSend p) s = .next t ∧ (port t p).tsOut.marks = [] ∧
        (port t p).tsOut.columns.length = 9 * (port u p).tsOut.marks.length ∧ tsOf t p = tsOf s p ∧
        changesOnly [.links] u t)) ∧
  (∀ (p g k e : Nat) (s : State), RegsCanonical s → portTsuip s p = true → 1 ≤ (tsOf s p).st →
    cu s (tsReg R.serTsCycEn p) = 0 → (port s p).tsOut.marks = [(g, k, e)] → e ≤ s.now →
    ∃ t, Sys2Proof.Machine.exec (.cycMarkSend p) s = .next t ∧ (port t p).tsOut.marks = [] ∧
      bit 4 (rg t (tsReg R.serTsEvt p)) = true ∧ registersBut [tsReg R.serTsEvt p] s t ∧
      changesOnly [.links, .registers] s t) ∧
  (∀ (pt : Party) (p : Nat) (s : State), p < 256 → hostOpen s = true → portTsuip s p = false ∨ unusedNumber s p = true →
    ∃ t, Sys2Proof.Machine.exec (.ttmSeqRead pt p) s = .next t ∧ t.lat.rdata = 0 ∧ changesOnly [.latches] s t) ∧
  (∀ (pt : Party) (p : Nat) (s : State), portTsuip s p = true → unusedNumber s p = false → hostOpen s = true → RegsCanonical s →
    ∃ t, Sys2Proof.Machine.exec (.ttmSeqRead pt p) s = .next t ∧
      t.lat.rdata = BitVec.ofNat 32 (rg s (tsReg R.serTsTtmSeq p)) ∧
      rg t (tsReg R.serTsTtmSeq p) = rg s (tsReg R.serTsTtmSeq p) % 2 ^ 31 ∧ changesOnly [.latches, .registers] s t)

/-! ## Ports -/

/-- A reception on a port that is up, and was wanted up at its stamp, is judged once its last bit is in (R203, R206, R210). One that is
no MAC control frame, or that is in error, goes to its slice with its port, its stamp, its class and its error flags, cut at 16,000
bytes (R201, R203); a lane's code errors in it make it a coding error (R173, R203). A good pause frame that the port acts on holds the
whole port for its quanta, counted from its last bit, or with none ends the hold, and goes no further (R205, R210). A reception that the
port does not take changes nothing (R206). The clauses on receptions taken are stated where no fence stands and no lane of a Tsuip link
has failed in it. The order in which a slice judges a frame is log entry 45, and that a MAC receives while its port is up log entry 27.
-/
def Obligations.MacReceives : Prop :=
  (∀ (p e ts : Nat) (f : RxFrame) (s u : State), rxTaken s p f = some false → f.bytes ≠ [] → s.md.fenced = false →
    u = laneCounts p f (reach (rxEnds s p f) s) → (portTsuip s p = true → ∀ i < 4, tsLaneFailed u p i = false) →
    ts = rxStampAt u p f.sfd →
    e = rxErrors { f with coding := f.coding || receptionErrors s p f } (fld 13 0 (cuAt u ts (R.macMaxFrame p))) →
    (be16 f.bytes 12 ≠ 0x8808 ∨ e ≠ 0 →
      ∃ t x, Sys2Proof.Machine.exec (.macFrameReceive p f) s = .next t ∧
        kvGetD [] (p / 32) t.lk.ingress = kvGetD [] (p / 32) s.lk.ingress ++ [x] ∧ x.port = p ∧ x.ts = ts ∧
        x.bytes = f.bytes.take 16000 ∧ x.length = f.bytes.length ∧ x.prio = f.cls % 8 ∧ x.err = e ∧
        changesOnly [.links, .time, .counters, .registers, .masterTime, .elapsed] s t) ∧
    (be16 f.bytes 12 = 0x8808 → e = 0 → macControl u p f ts = some 1 → kvSorted (port s p).pausedTill = true →
      ∃ t, Sys2Proof.Machine.exec (.macFrameReceive p f) s = .next t ∧ t.lk.ingress = s.lk.ingress ∧
        (0 < be16 f.bytes 16 →
          kvGet 8 (port t p).pausedTill = some (rxEnds u p f + quantaTime u p (be16 f.bytes 16))) ∧
        (be16 f.bytes 16 = 0 → kvGet 8 (port t p).pausedTill = none) ∧
        changesOnly [.links, .time, .counters, .registers, .masterTime, .elapsed] s t)) ∧
  (∀ (p : Nat) (f : RxFrame) (s : State), rxTaken s p f = none → Sys2Proof.Machine.exec (.macFrameReceive p f) s = .next s)

/-- A received hold ends when its quanta run out (R210). A pause frame that is due goes out on a free medium of a port that is up, with
no time-released copy overdue, and then nothing is due (R211, R436); from T_d until DRAIN ends an XOFF in force is due again when half
its quanta have passed since it was last sent (R55, R211). RESTART_VERIFY begins verification anew on a port that is up, where VERIFY_EN is
set and the mode may preempt, and else leaves it off; a verify mPacket goes out at most three times, one each VERIFY_MS, then verification
has failed; a respond mPacket makes a running one succeed; a verify mPacket received is answered (R216, R217). -/
def Obligations.PauseAndVerification : Prop :=
  ((∀ (p prio t0 : Nat) (s : State), kvSorted (port s p).pausedTill = true → kvGet prio (port s p).pausedTill = some t0 →
      ∃ t, Sys2Proof.Machine.exec (.pauseHoldExpiry p prio) s = .next t ∧ kvGet prio (port t p).pausedTill = none ∧
        (∀ k, k ≠ prio → kvGet k (port t p).pausedTill = kvGet k (port s p).pausedTill) ∧
        changesOnly [.links] (reach t0 s) t) ∧
    (∀ (p : Nat) (s : State), (port s p).up = true → (port s p).dueXoff ≠ 0 ∨ (port s p).dueXon ≠ 0 → (port s p).sending = none →
      overdue (mediumFree p s) p = none →
      ∃ t, Sys2Proof.Machine.exec (.pauseFrameTransmit p) s = .next t ∧ (port t p).dueXoff = 0 ∧ (port t p).dueXon = 0 ∧
        (port t p).xoffOut = ((port s p).xoffOut ||| (port s p).dueXoff) &&& (0xFF ^^^ (port s p).dueXon) ∧
        (port t p).lastSent.take 6 = toBE 6 0x0180C2000001 ∧ changesOnly [.links, .registers] (mediumFree p s) t) ∧
    (∀ (p prio t0 : Nat) (s : State), prio < 8 → kvGet prio (port s p).xoffAt = some t0 → (port s p).up = true →
      bit prio (port s p).xoffOut = true → s.md.draining = true →
      ∃ t, Sys2Proof.Machine.exec (.xoffRepeat p prio) s = .next t ∧ bit prio (port t p).dueXoff = true ∧
        changesOnly [.links] (reach (t0 + quantaTime s p (xoffQuanta s p) / 2) s) t)) ∧
  ((∀ (p : Nat) (s : State), p < 256 → pf0Open (R.macCmd p) s → portPresent s p = true → (port s p).up = true →
      (bit 1 (cu s (R.macPreemptCfg p)) = true ∧ modePreempts (portMode s p) = true →
        ∃ t, Sys2Proof.Machine.exec (.restartVerify p) s = .next t ∧
          port t p = { port s p with verify := 1, tries := 0, verifyAt := some s.now } ∧ changesOnly [.links] s t) ∧
      (bit 1 (cu s (R.macPreemptCfg p)) = false ∨ modePreempts (portMode s p) = false →
        ∃ t, Sys2Proof.Machine.exec (.restartVerify p) s = .next t ∧
          port t p = { port s p with verify := 0, tries := 0, verifyAt := none } ∧ changesOnly [.links] s t)) ∧
    (∀ (p t0 : Nat) (u s : State), RegsCanonical s → (port s p).verifyAt = some t0 → (port s p).up = true →
      (port s p).verify = 1 ∨ (port s p).verify = 2 → u = reach t0 s →
      ((port s p).tries < 3 → ∃ t, Sys2Proof.Machine.exec (.verifyTimer p) s = .next t ∧
        port t p = { port s p with
          verify := 2, attempts := (port s p).attempts + 1, tries := (port s p).tries + 1,
          verifyAt := some (u.now + msT (cuF s (R.macPreemptCfg p) 15 8)) } ∧ changesOnly [.links] u t) ∧
      (3 ≤ (port s p).tries → ∃ t, Sys2Proof.Machine.exec (.verifyTimer p) s = .next t ∧ (port t p).verify = 4 ∧
        (port t p).verifyAt = none ∧ bit 4 (rg t (R.macEvt p)) = true ∧ registersBut [R.macEvt p] u t ∧
        changesOnly [.links, .registers] u t)) ∧
    (∀ (p : Nat) (s : State), (port s p).up = true →
      (∃ t, Sys2Proof.Machine.exec (.verifyMpacketReceive p false) s = .next t ∧
        port t p = { port s p with responded := (port s p).responded + 1 } ∧ changesOnly [.links] s t) ∧
      ((port s p).verify = 2 → ∃ t, Sys2Proof.Machine.exec (.verifyMpacketReceive p true) s = .next t ∧
        port t p = { port s p with verify := 3, verifyAt := none } ∧ changesOnly [.links] s t)))

/-- A port whose link has been good for UP_HOLDOFF goes up where nothing else holds it down (R199). The copies of a port that is still
down are flushed at the first 1 ms tick at least LINK_HOLD after it went down, with its sticky bit (R222, R223), or at once by FLUSH;
FLUSH does nothing on a port that is not holding (R222). -/
def Obligations.LinkTimers : Prop :=
  (∀ (p t0 : Nat) (s : State), (port s p).goodSince = some t0 → (port s p).up = false → portWanted s p = true →
    ∃ t, Sys2Proof.Machine.exec (.upHoldoffExpiry p) s = .next t ∧ (port t p).up = true ∧ (port t p).holding = false ∧
      (s.tim.stopped = false → t0 + msT (cuF s (R.macLinkCfg p) 23 16) < Config.timeMod →
        t0 + msT (cuF s (R.macLinkCfg p) 23 16) ≤ t.now) ∧
      changesOnly [.host, .links, .time, .egress, .tables, .counters, .registers, .masterTime, .elapsed] s t) ∧
  (∀ (p : Nat) (s : State), (port s p).holding = true → (∀ q, ∀ c ∈ (queue s p q).copies, c.port = p ∧ c.queue = q) →
    ((port s p).up = false → ∃ t, Sys2Proof.Machine.exec (.linkHoldExpiry p) s = .next t ∧ (port t p).holding = false ∧
      (∀ q < 8, (queue t p q).copies = []) ∧ bit 2 (rg t (R.macEvt p)) = true ∧
      (∀ n, (port s p).holdFrom + msT (cuF s (R.macLinkCfg p) 10 0) ≤ msT n →
        (∀ m, (port s p).holdFrom + msT (cuF s (R.macLinkCfg p) 10 0) ≤ msT m → n ≤ m) →
        s.tim.stopped = false → s.now ≤ msT n → msT n < Config.timeMod → t.now = msT n) ∧
      changesOnly [.host, .accounts, .links, .time, .buffer, .egress, .recorder, .counters, .registers, .hostMemory, .masterTime,
        .elapsed] s t) ∧
    (p < 256 → portPresent s p = true → pf0Open (R.macCmd p) s →
      ∃ t, Sys2Proof.Machine.exec (.flush p) s = .next t ∧ (port t p).holding = false ∧ (∀ q < 8, (queue t p q).copies = []) ∧
      changesOnly [.host, .accounts, .links, .buffer, .egress, .recorder, .counters, .registers, .hostMemory] s t)) ∧
  (∀ (p : Nat) (s : State), (port s p).holding = false → p < 256 → pf0Open (R.macCmd p) s →
    ∃ t, Sys2Proof.Machine.exec (.flush p) s = .next t ∧ changesOnly [] s t)

/-! ## Time base -/

/-- SET and STEP are accepted where the loop does not follow PPS and act 128 ns later, one that comes before another has acted after
that one; SET takes nanoseconds below 10^9 (R235, R238, R239). SLEW takes up to ±1 s and leaves that much to add; SLEW_ABORT leaves
nothing (R236). A refused command leaves only its CMD_RESULT: 2 for a value out of range, 1 for SET, STEP and SLEW where the loop
follows PPS. -/
def Obligations.TimeCommands : Prop :=
  ∀ s : State, pf0Open R.timCmd s →
    (∀ j : Jump, timSource s ≠ 2 → rgF s R.timSetNs 29 0 < Config.nsPerSec →
      j = ⟨s.now + nsT 128, some (mkT (rg64 s R.timSetSec) (rgF s R.timSetNs 29 0)), 0,
        decide (s.md.mode = .run) || decide (s.md.mode = .drain)⟩ →
      ∃ t, Sys2Proof.Machine.exec .set s = .next t ∧
        (s.tim.jump = none → t.tim = { s.tim with cmdResult := 0, jump := some j }) ∧
        (s.tim.jump ≠ none → t.tim = { s.tim with cmdResult := 0, jumps := s.tim.jumps ++ [j] }) ∧ changesOnly [.time] s t) ∧
    (timSource s ≠ 2 → Config.nsPerSec ≤ rgF s R.timSetNs 29 0 →
      ∃ t, Sys2Proof.Machine.exec .set s = .next t ∧ t.tim = { s.tim with cmdResult := 2 } ∧ changesOnly [.time] s t) ∧
    (∀ j : Jump, timSource s ≠ 2 →
      j = ⟨s.now + nsT 128, none, sgn 64 (rg64 s R.timStep), decide (s.md.mode = .run) || decide (s.md.mode = .drain)⟩ →
      ∃ t, Sys2Proof.Machine.exec .step s = .next t ∧
        (s.tim.jump = none → t.tim = { s.tim with cmdResult := 0, jump := some j }) ∧
        (s.tim.jump ≠ none → t.tim = { s.tim with cmdResult := 0, jumps := s.tim.jumps ++ [j] }) ∧ changesOnly [.time] s t) ∧
    (timSource s ≠ 2 →
      (-1000000000 ≤ sgn 32 (rg s R.timSlew) ∧ sgn 32 (rg s R.timSlew) ≤ 1000000000 →
        ∃ t, Sys2Proof.Machine.exec .slew s = .next t ∧
          t.tim = { s.tim with cmdResult := 0, slewLeft := sgn 32 (rg s R.timSlew) * (Config.nsUnit : Int) } ∧
          changesOnly [.time] s t) ∧
      (sgn 32 (rg s R.timSlew) < -1000000000 ∨ 1000000000 < sgn 32 (rg s R.timSlew) →
        ∃ t, Sys2Proof.Machine.exec .slew s = .next t ∧ t.tim = { s.tim with cmdResult := 2 } ∧ changesOnly [.time] s t)) ∧
    (∃ t, Sys2Proof.Machine.exec .slewAbort s = .next t ∧ t.tim = { s.tim with cmdResult := 0, slewLeft := 0 } ∧
      changesOnly [.time] s t) ∧
    (timSource s = 2 → ∀ c ∈ [Instr.set, .step, .slew], ∃ t, Sys2Proof.Machine.exec c s = .next t ∧
      t.tim = { s.tim with cmdResult := 1 } ∧ changesOnly [.time] s t)

/-- When a jump accepted outside RUN and DRAIN acts, master time becomes the time that was set, or moves by the step; a slew ends, a run
time waiting in STAGE and an effect time of a commit come due (R235, R237, R348). A slew that completes has added all of it (R236).
FREQ_ADJ takes both words with the high one, bounded to ±1,000 ppm with ADJ_SAT; with a reference in use the write is refused (R9, R238,
R239). A TIM_FAULT bit written 1 clears unless its condition holds, and release starts to resume once the last one clears
(R243). -/
def Obligations.JumpsSlewsAdjustments : Prop :=
  ((∀ (j : Jump) (s : State), s.tim.jump = some j → j.inRun = false →
      ∃ t, Sys2Proof.Machine.exec .timeJumpEffect s = .next t ∧ t.tim.slewLeft = 0 ∧
        t.tim.jump.map (fun k => (k.set, k.step)) = s.tim.jumps.head?.map (fun k => (k.set, k.step)) ∧
        (∀ v, j.set = some v → t.now = v % Config.timeMod) ∧
        (j.set = none → t.now = shiftT (reach j.due s).now (j.step * (Config.nsUnit : Int))) ∧
        (s.md.mode = .stage → s.md.tRun.isSome = true → t.md.tRun = some t.now) ∧
        (s.gen.effectAt.isSome = true → t.gen.effectAt = some t.now) ∧ t.md.mode = s.md.mode ∧
        changesOnly [.modes, .links, .time, .buffer, .egress, .tables, .generations, .engines, .recorder, .counters, .registers,
          .masterTime, .elapsed] s t) ∧
    (∀ s : State, s.tim.slewLeft ≠ 0 → 0 < slewRate s → s.tim.stopped = false →
      ∃ t, Sys2Proof.Machine.exec .slewComplete s = .next t ∧ t.tim = { s.tim with slewLeft := 0 } ∧
        t.now = shiftT s.now ((ceilDiv s.tim.slewLeft.natAbs (slewRate s) : Int) * tickInc s + s.tim.slewLeft) ∧
        changesOnly [.time, .counters, .registers, .masterTime, .elapsed] s t)) ∧
  ((∀ (lo hi : Word) (s : State), kvSorted s.lat.lowHeld = true → pf0Open R.timFreqAdj s → pf0Open (R.timFreqAdj + 4) s →
      timSource s = 0 →
      ∃ u t, Sys2Proof.Machine.exec (.freqAdjWrite false lo) s = .next u ∧
        Sys2Proof.Machine.exec (.freqAdjWrite true hi) u = .next t ∧ changesOnly [.latches] s u ∧
        t.tim.freqAdj = max (-freqMax) (min freqMax (sgn 64 (lo.toNat + hi.toNat * 2 ^ 32))) ∧
        t.tim.adjSat = decide (t.tim.freqAdj ≠ sgn 64 (lo.toNat + hi.toNat * 2 ^ 32)) ∧ t.tim.cmdResult = 0 ∧
        changesOnly [.latches, .time] s t) ∧
    (∀ (hi : Word) (s : State), pf0Open (R.timFreqAdj + 4) s → timSource s ≠ 0 →
      ∃ t, Sys2Proof.Machine.exec (.freqAdjWrite true hi) s = .next t ∧ t.tim = { s.tim with cmdResult := 1 } ∧
        changesOnly [.latches, .time] s t) ∧
    (∀ (w : Word) (s : State), RegsCanonical s → pf0Open R.timFault s → rg s R.timFault < 32 →
      (w.toNat % 32 = 31 → rg s R.timFault ≠ 0 → timHolding s = 0 →
        ∃ t, Sys2Proof.Machine.exec (.timeFaultClear w) s = .next t ∧ rg t R.timFault = 0 ∧
          t.tim = { s.tim with resumeFrom := some s.now, heldGens := List.range 32 } ∧ registersBut [R.timFault] s t ∧
          changesOnly [.time, .registers] s t) ∧
      (w.toNat % 32 = 0 →
        ∃ t, Sys2Proof.Machine.exec (.timeFaultClear w) s = .next t ∧ rg t R.timFault = rg s R.timFault ∧
          registersBut [] s t ∧ changesOnly [.registers] s t) ∧
      (∀ i < 5, bit i (timHolding s) = true → bit i (rg s R.timFault) = true →
        ∃ t, Sys2Proof.Machine.exec (.timeFaultClear w) s = .next t ∧ bit i (rg t R.timFault) = true ∧ t.tim = s.tim ∧
          registersBut [R.timFault] s t ∧ changesOnly [.registers] s t)))

/-- A fault of the time island or of a replica sets its TIM_FAULT bit and breaks the guarantee (R241). A lost reference that the loop uses
begins holdover at the average; one that it does not use is only noted. The return of a reference in holdover starts the 1 s after which
holdover ends, where the loop then has all that it uses (R239, R240). A loop that locks shows it and its FREQ_ADJ (R239). -/
def Obligations.References : Prop :=
  (∀ (replica : Bool) (island : Nat) (s : State), RegsCanonical s → s.md.mode ≠ .reset →
    ∃ t, Sys2Proof.Machine.exec (.timeBaseFault replica island) s = .next t ∧
      bit (if replica then 1 else 0) (rg t R.timFault) = true ∧ timFault t = true ∧
      bit 6 (rg t R.glbGuarantee) = true ∧ changesOnly [.host, .time, .registers] s t) ∧
  (∀ (pps : Bool) (avg : Int) (s : State), s.md.mode ≠ .reset →
    (loopUses s pps = false →
      ∃ t, Sys2Proof.Machine.exec (.referenceLost pps avg) s = .next t ∧ t.tim = { s.tim with
        ppsPresent := s.tim.ppsPresent && !pps, refPresent := s.tim.refPresent && pps } ∧
        changesOnly [.time] s t) ∧
    (loopUses s pps = true → -freqMax ≤ avg → avg ≤ freqMax →
      ∃ t, Sys2Proof.Machine.exec (.referenceLost pps avg) s = .next t ∧ t.tim.holdover = true ∧ t.tim.locked = false ∧
        t.tim.freqAdj = avg ∧ t.tim.refBack = none ∧ (pps = true → t.tim.ppsPresent = false) ∧
        (pps = false → t.tim.refPresent = false) ∧ changesOnly [.host, .time, .registers] s t) ∧
    (s.tim.holdover = true → loopUses s pps = true →
      ((pps = true → s.tim.refPresent = true) ∧ (pps = false → timSource s = 2 → s.tim.ppsPresent = true) →
        ∃ t, Sys2Proof.Machine.exec (.referenceReturn pps) s = .next t ∧ t.tim.refBack = some s.now ∧ t.tim.holdover = true ∧
          changesOnly [.time] s t) ∧
      (pps = true ∧ s.tim.refPresent = false ∨ pps = false ∧ timSource s = 2 ∧ s.tim.ppsPresent = false →
        ∃ t, Sys2Proof.Machine.exec (.referenceReturn pps) s = .next t ∧ t.tim = { s.tim with
          ppsPresent := s.tim.ppsPresent || pps, refPresent := s.tim.refPresent || !pps } ∧ changesOnly [.time] s t))) ∧
  (∀ (t0 : Nat) (s : State), s.tim.refBack = some t0 →
    ∃ t, Sys2Proof.Machine.exec .holdoverEnd s = .next t ∧ t.tim.holdover = false ∧ t.tim.refBack = none ∧
      changesOnly [.time] (reach (t0 + secT 1) s) t) ∧
  (∀ (adj : Int) (s : State), 1 ≤ timSource s → s.tim.holdover = false → s.md.mode ≠ .reset → -freqMax ≤ adj → adj ≤ freqMax →
    ∃ t, Sys2Proof.Machine.exec (.loopLocked adj) s = .next t ∧ t.tim = { s.tim with locked := true, freqAdj := adj } ∧
      changesOnly [.time] s t)

/-- A pulse on PPS_IN shorter than 8 ns is ignored; the edge of any other is stamped less its compensation, uncorrected in a time-base
fault, with NEW set (R242, R261). Where the loop follows PPS, hardware takes the stamp's offset from the whole second away: by a STEP in
STAGE where it exceeds 1 ms, else by a SLEW, and in holdover not at all (R239, R240, R261). Reads of the stamps and of the counter
return the first word and latch the others (R232, R249, R266, R267); a FIFO gives up its head, an empty one reads 0, and one of a port
number that the mode leaves unused reads 0 and gives up nothing (R12). Replicas are aligned with the master every 64 ns, each to within
its bound of ±0.15 ns (R28). -/
def Obligations.StampReads : Prop :=
  (∀ (T pulse : Nat) (s : State), s.md.mode ≠ .reset →
    (pulse < 8 → ∃ t, Sys2Proof.Machine.exec (.ppsInEdge T pulse) s = .next t ∧ changesOnly [] s t) ∧
    (∀ st : Nat, 8 ≤ pulse → RegsCanonical s → st = stampCut (if faultAt s T then T
        else shiftT T (-(sgn 16 (fld 31 16 (cuAt s T R.timPpsCfg)) * (Config.nsUnit : Int)))) →
      (timSource s ≠ 2 ∨ s.tim.holdover = true → ∃ t, Sys2Proof.Machine.exec (.ppsInEdge T pulse) s = .next t ∧
        t.tim = { (reach T s).tim with ppsIn := st } ∧ bit 31 (rg t R.timPpsInNs) = true ∧
        changesOnly [.time, .registers] (reach T s) t) ∧
      (timSource s = 2 → s.tim.holdover = false → secOffset st ≠ 0 →
        (s.md.mode = .stage ∧ s.tim.jump = none ∧ 1000000 < (secOffset st).natAbs →
          ∃ t, Sys2Proof.Machine.exec (.ppsInEdge T pulse) s = .next t ∧
            t.tim = { (reach T s).tim with
              ppsIn := st, jump := some ⟨(reach T s).now + nsT 128, none, -secOffset st, false⟩ } ∧
            changesOnly [.time, .registers] (reach T s) t) ∧
        (s.md.mode ≠ .stage ∨ (secOffset st).natAbs ≤ 1000000 →
          ∃ t, Sys2Proof.Machine.exec (.ppsInEdge T pulse) s = .next t ∧
            t.tim = { (reach T s).tim with ppsIn := st, slewLeft := -secOffset st * (Config.nsUnit : Int) } ∧
            changesOnly [.time, .registers] (reach T s) t)))) ∧
  (∀ (pt : Party) (s : State), RegsCanonical s → hostOpen s = true →
    (∃ t, Sys2Proof.Machine.exec (.ppsInRead pt) s = .next t ∧ bit 31 (rg t R.timPpsInNs) = false ∧
      t.lat.rdata = BitVec.ofNat 32 (tNs s.tim.ppsIn + (if bit 31 (rg s R.timPpsInNs) then 2 ^ 31 else 0)) ∧
      rg t R.timPpsInSec = tSec s.tim.ppsIn % 2 ^ 32 ∧ rg t R.timPpsInFrac = tFrac s.tim.ppsIn ∧
      changesOnly [.latches, .registers] s t) ∧
    (∃ t, Sys2Proof.Machine.exec (.timeNowRead pt) s = .next t ∧ t.lat.rdata = BitVec.ofNat 32 (tFrac s.now) ∧
      rg t R.timNowNs = tNs s.now % 2 ^ 32 ∧ rg64 t R.timNowSec = tSec s.now % 2 ^ 64 ∧
      registersBut [R.timNowNs, R.timNowSec, R.timNowSec + 4] s t ∧ changesOnly [.latches, .registers] s t) ∧
    (∀ p < 256, ∀ e es, (txStamps s p).fifo = e :: es →
      (unusedNumber s p = false → ∃ t, Sys2Proof.Machine.exec (.txfRead pt p) s = .next t ∧
        t.lat.rdata = BitVec.ofNat 32 (nth 0 e 0) ∧
        rg t (R.timTxfE0 p + 4) = nth 0 e 1 % 2 ^ 32 ∧ txStamps t p = { txStamps s p with fifo := es } ∧
        changesOnly [.latches, .time, .registers] s t) ∧
      (unusedNumber s p = true → ∃ t, Sys2Proof.Machine.exec (.txfRead pt p) s = .next t ∧ t.lat.rdata = 0 ∧
        changesOnly [.latches] s t)) ∧
    (∀ p < 256, (txStamps s p).fifo = [] → ∃ t, Sys2Proof.Machine.exec (.txfRead pt p) s = .next t ∧ t.lat.rdata = 0 ∧
      changesOnly [.latches] s t) ∧
    (∀ u < 16, ∀ e es, (capUnit s u).fifo = e :: es →
      ∃ t, Sys2Proof.Machine.exec (.captureFifoRead pt u) s = .next t ∧ t.lat.rdata = BitVec.ofNat 32 (nth 0 e 0) ∧
        rg t (R.timCapE0 u + 4) = nth 0 e 1 % 2 ^ 32 ∧ capUnit t u = { capUnit s u with fifo := es } ∧
        changesOnly [.latches, .time, .registers] s t) ∧
    (∀ u < 16, (capUnit s u).fifo = [] → ∃ t, Sys2Proof.Machine.exec (.captureFifoRead pt u) s = .next t ∧ t.lat.rdata = 0 ∧
      changesOnly [.latches] s t)) ∧
  (∀ (errs : List Int) (u s : State), s.md.mode ≠ .reset → s.tim.stopped = false →
    u = reachElapsed (s.tim.aligned + nsT 64) s →
    ∃ t, Sys2Proof.Machine.exec (.replicaRealign errs) s = .next t ∧ t.tim.aligned = u.elapsed ∧
      s.tim.aligned + nsT 64 ≤ u.elapsed ∧ t.tim.replicaErr.length = 72 ∧
      (∀ i, -Config.replicaBound ≤ replicaErr t i ∧ replicaErr t i ≤ Config.replicaBound) ∧
      (∀ i < 72, -Config.replicaBound ≤ nth 0 errs i → nth 0 errs i ≤ Config.replicaBound → replicaErr t i = nth 0 errs i) ∧
      changesOnly [.time] u t)

/-- PPS_OUT rises at a whole second and falls after its width (R261). A TIO output goes active at its generator's next edge less
OUT_COMP, once for each edge, or at the stated time for a pulse that is still due for an edge already made; it goes inactive after
its width (R260). An enabled generator makes its next edge, and the one after it is then next; no edge is made past a change of time or
settings that comes first (R256 to R258). A pulse on an input pin that is shorter than DEGLITCH is counted and ignored; where both edges
are selected, the first edge of a unit is counted, and its stamp, less IN_COMP unless in a time-base fault, enters the FIFO; an edge
that comes before the minimum interval after the last is counted as FAST and not captured; a unit fed by a generator does not see its
pin (R259, R262 to R266). An input that stays active for STUCK is marked stuck, and a stuck unit captures nothing (R265). -/
def Obligations.EdgesAndCaptures : Prop :=
  ((∀ s : State, s.md.mode ≠ .reset → s.tim.stopped = false → bit 0 (cu s R.timPpsCfg) = true → s.pins.ppsOut = false →
      nextSecond s.now < Config.timeMod →
      ∃ t, Sys2Proof.Machine.exec .ppsOutRise s = .next t ∧ t.pins = { s.pins with ppsOut := true, ppsRise := t.elapsed } ∧ t.now = nextSecond s.now ∧
        changesOnly [.pins, .time, .counters, .registers, .masterTime, .elapsed] s t) ∧
    (∀ s : State, s.pins.ppsOut = true →
      ∃ t, Sys2Proof.Machine.exec .ppsOutFall s = .next t ∧ t.pins = { s.pins with ppsOut := false } ∧
        changesOnly [.pins] (reachElapsed (s.pins.ppsRise + msT (cuF s R.timPpsCfg 10 1)) s) t) ∧
    (∀ (u : Nat) (s : State), u < 16 → hostOpen s = true → bit 0 (cu s (R.timTioCfg u)) = true →
      (u ∉ s.pins.tioOut →
        ((s.tim.tioDue.find? fun d => d.1 == u) = none → genOn s (fld 6 2 (cu s (R.timTioCfg u))) = true →
          timeHeld s (tioPulse s u).2 = false →
          ∃ t, Sys2Proof.Machine.exec (.tioOutputStart u) s = .next t ∧ u ∈ t.pins.tioOut ∧
            (tioPulse s u).1 < (tioPulse t u).1 ∧ changesOnly [.pins, .time] (reach (tioPulse s u).2 s) t) ∧
        (∀ d, (s.tim.tioDue.find? fun d => d.1 == u) = some d →
          ∃ t, Sys2Proof.Machine.exec (.tioOutputStart u) s = .next t ∧ u ∈ t.pins.tioOut ∧ d.2 ≤ t.elapsed ∧
            t.tim.tioDue = s.tim.tioDue.erase d ∧ changesOnly [.pins, .time] (reachElapsed d.2 s) t)) ∧
      (u ∈ s.pins.tioOut → ∃ t, Sys2Proof.Machine.exec (.tioOutputStart u) s = .next t ∧ changesOnly [] s t)) ∧
    (∀ (u : Nat) (s : State), u ∈ s.pins.tioOut →
      ∃ t, Sys2Proof.Machine.exec (.tioOutputEnd u) s = .next t ∧ u ∉ t.pins.tioOut ∧
        changesOnly [.pins] (reachElapsed (kvGetD 0 u s.tim.tioStart + nsT (cuF s (R.timTioWidth u) 29 0)) s) t) ∧
    (∀ (g : Nat) (s : State), g < 32 → genOn s g = true → s.tim.stopped = false →
      (timeHeld s (edgeAt s g (nextEdge s g)) = false →
        ∃ t, Sys2Proof.Machine.exec (.cycleEdge g) s = .next t ∧ (cycleGen t g).k = some (nextEdge s g) ∧
          (cycleGen t g).at_ = edgeAt s g (nextEdge s g) ∧ (cycleGen t g).fresh = false ∧ g ∉ t.tim.heldGens ∧
          changesOnly [.host, .links, .time, .buffer, .engines, .recorder, .counters, .registers, .masterTime, .elapsed] s t) ∧
      (timeHeld s (edgeAt s g (nextEdge s g)) = true →
        ∃ t, Sys2Proof.Machine.exec (.cycleEdge g) s = .next t ∧ changesOnly [] s t))) ∧
  ((∀ (u T pulse : Nat) (high : Bool) (s : State), u < 16 → hostOpen s = true → bit 7 (cu s (R.timTioCfg u)) = true →
      bit 0 (cu s (R.timTioCfg u)) = false →
      (fedUnit s u = true →
        ∃ t, Sys2Proof.Machine.exec (.captureEdge u high T pulse) s = .next t ∧ changesOnly [.pins] (reach T s) t) ∧
      (fedUnit s u = false →
        (pulse < fld 19 10 (cu s (R.timTioCfg u)) → RegsCanonical s →
          ∃ t, Sys2Proof.Machine.exec (.captureEdge u high T pulse) s = .next t ∧
            rg t (R.timCapGlitch u) = (rg s (R.timCapGlitch u) + 1) % 2 ^ 32 ∧ registersBut [R.timCapGlitch u] s t ∧
            changesOnly [.registers] s t) ∧
        (∀ st : Nat, fld 19 10 (cu s (R.timTioCfg u)) ≤ pulse →
          cuF (reach T s) (R.timTioCfg u) 9 8 = 3 →
          st = stampCut (if faultAt s T then T else shiftT T (-(sixteenths 16 (fld 31 16 (cuAt s T (R.timTioComp u)))))) →
          ((capUnit s u).last = none → (capUnit s u).stuck = true →
            ∃ t, Sys2Proof.Machine.exec (.captureEdge u high T pulse) s = .next t ∧ (capUnit t u).count = (capUnit s u).count ∧
              (capUnit t u).fifo = (capUnit s u).fifo ∧ changesOnly [.pins, .time] (reach T s) t) ∧
          ((capUnit s u).last = none → (capUnit s u).stuck = false → (capUnit s u).fifo.length < 16 →
            ∃ t e, Sys2Proof.Machine.exec (.captureEdge u high T pulse) s = .next t ∧
              (capUnit t u).count = ((capUnit s u).count + 1) % 65536 ∧ (capUnit t u).fifo = (capUnit s u).fifo ++ [e] ∧
              (capUnit t u).last = some st ∧
              changesOnly [.pins, .host, .time, .recorder, .counters, .registers, .masterTime, .elapsed] s t) ∧
          (∀ l, (capUnit s u).last = some l → st < l + nsT (cuF (reach T s) (R.timCapMinInt u) 29 0) →
            RegsCanonical (reach T s) →
            ∃ t, Sys2Proof.Machine.exec (.captureEdge u high T pulse) s = .next t ∧
              (capUnit t u).count = (capUnit s u).count ∧ (capUnit t u).fifo = (capUnit s u).fifo ∧
              rg t (R.timCapFast u) = (rg (reach T s) (R.timCapFast u) + 1) % 2 ^ 32 ∧
              changesOnly [.pins, .time, .registers] (reach T s) t)))) ∧
    (∀ (u t0 : Nat) (s : State), (capUnit s u).activeSince = some t0 → (capUnit s u).stuck = false → readsPin s u = true →
      0 < cuF s (R.timCapStuck u) 19 0 →
      ∃ t, Sys2Proof.Machine.exec (.stuckActive u) s = .next t ∧ capUnit t u = { capUnit s u with stuck := true } ∧
        changesOnly [.host, .time, .registers] (reach (t0 + usT (cuF s (R.timCapStuck u) 19 0)) s) t))

/-! ## Frames of the host -/

/-- What the internal ports do: a frame of the transmit ring whose turn it is enters S0 padded and with its FCS (R90, R94); one that is
refused enters nothing (R92). A copy chosen for P256 or P258 leaves its queue unless what the buffer core meets in reading it fences
forwarding (R61, R404). One for P256 that fits one buffer of its ring, with nothing else in hand there, stands in the buffer that the
descriptor at FETCH names, and that descriptor is written back with its stamp, its length, its port, its generation, its hash and the
other words of R84 (R83 to R87). One for P258 enters S0, once the port is free, as a frame of P258 with its queue for priority
(R15, R458). An event record is written at HEAD of its ring (R101, R102). A readout request
is fetched with the segment that it names, and the oldest is done first (R111, R482). -/
def Obligations.HostFrames : Prop :=
  (∀ (n st : Nat) (ds : List (List Nat)) (s : State), txOpen s = true → txTurnOf s = some n → txOffer s n = some (ds, st) →
    (st = 0 → emptyFor s (txFrameLen ds) = false →
      ∃ t x body, Sys2Proof.Machine.exec (.txFrameAdmit n) s = .next t ∧
        kvGetD [] 0 t.lk.ingress = kvGetD [] 0 s.lk.ingress ++ [x] ∧ x.port = 256 ∧ x.ts = stampCut s.now ∧
        body = txPayload s ds ++ List.replicate (60 - (txPayload s ds).length) 0 ∧ x.bytes = body ++ fcsBytes body ∧
        t.host.txTurn = n ∧ changesOnly [.host, .links, .counters, .registers, .hostMemory] s t) ∧
    (st ≠ 0 → ∃ t, Sys2Proof.Machine.exec (.txFrameAdmit n) s = .next t ∧ t.host.txTurn = n ∧
      changesOnly [.host, .counters, .registers, .hostMemory] s t)) ∧
  (∀ (ecc : Nat) (c : Copy) (ds ptr : List Nat) (u v s : State), fenceShut s = false →
    (chosen s 256 (fun q => (head s 256 q).any (rxReady s)) = some (c, ds, ptr) → v = cellError ecc c.frame s →
      (fenceShut v = true → Sys2Proof.Machine.exec (.rxDelivery ecc) s = .next v) ∧
      (fenceShut v = false →
        ∃ t, Sys2Proof.Machine.exec (.rxDelivery ecc) s = .next t ∧ c ∉ (queue t c.port c.queue).copies ∧
          (∀ n r data x, n = rxRingOf v c → r = ring v .rx n → data = rxData v c r → rxBuffers v c r = 1 → r.work = [] →
            r.fetch < r.size → kvGet c.frame v.buf.frames = some x → x.txRing = none →
            t.hmem = memWrite (memWrite v.hmem (ofLE (dmaRead (slotAddr r r.fetch) 8 v)) data) (slotAddr r r.fetch)
              (rxBytes x c data.length data.length true true (x.error || bit 8 r.cfg)) ∧
            (ring t .rx n).fetch = (r.fetch + 1) % r.size ∧ (ring t .rx n).head = (r.fetch + 1) % r.size) ∧
          changesOnly [.host, .accounts, .links, .buffer, .egress, .recorder, .counters, .registers, .hostMemory] v t)) ∧
    (u = reach (port s 258).busyTill s → chosen u 258 (fun _ => true) = some (c, ds, ptr) → v = cellError ecc c.frame u →
      (fenceShut v = true → Sys2Proof.Machine.exec (.recirculationAdmit ecc) s = .next v) ∧
      (fenceShut v = false →
        ∃ t x, Sys2Proof.Machine.exec (.recirculationAdmit ecc) s = .next t ∧ c ∉ (queue t c.port c.queue).copies ∧
          kvGetD [] 0 t.lk.ingress = kvGetD [] 0 s.lk.ingress ++ [x] ∧ x.port = 258 ∧ x.prio = c.queue ∧ x.ts = stampCut u.now ∧
          x.bytes = internalBytes v c ∧
          changesOnly [.host, .accounts, .links, .buffer, .egress, .recorder, .counters, .registers, .hostMemory] v t))) ∧
  (∀ (n : Nat) (b : List Byte) (bs : List (List Byte)) (s : State), (eventRing s n).backlog = b :: bs → (eventRing s n).loss = false →
    ringLive s .evt n = true → (ring s .evt n).head ≠ (ring s .evt n).tail →
    ∃ t, Sys2Proof.Machine.exec (.eventRecordWrite n) s = .next t ∧ (eventRing t n).backlog = bs ∧
      t.hmem = memWrite s.hmem (slotAddr (ring s .evt n) (ring s .evt n).head) b ∧
      (ring t .evt n).head = ((ring s .evt n).head + 1) % (ring s .evt n).size ∧
      changesOnly [.host, .counters, .registers, .hostMemory] s t) ∧
  (∀ (d : List Byte) (s : State), hostOpen s = true → ringLive s .rdo 0 = true → ringAvail (ring s .rdo 0) ≠ 0 →
    d = dmaRead (slotAddr (ring s .rdo 0) (ring s .rdo 0).fetch) 32 s →
    ∃ t, Sys2Proof.Machine.exec .readoutRequest s = .next t ∧
      t.host.readouts = s.host.readouts ++
        [⟨(ring s .rdo 0).fetch, d, segmentOf s (ofLE ((d.drop 8).take 4))⟩] ∧
      changesOnly [.host, .counters, .registers] s t) ∧
  (∀ (x : Readout) (rest : List Readout) (copied : Nat) (s : State), s.host.readouts = x :: rest →
    ∃ t, Sys2Proof.Machine.exec (.readoutComplete true copied) s = .next t ∧ t.host.readouts = rest ∧
      changesOnly [.host, .counters, .registers, .hostMemory] s t)

/-! ## Tables -/

/-- The commands of STR and HGT through the table command register: a write changes the staged copy of its entry alone and marks the
staged side DIRTY; a read returns the entry of the parity it names; counters are returned and cleared; UNBLOCK clears a filter's or a
gate's latch and RESET_RCV a recovery's history (R288, R291, R295, R296, R297). The commands of CLS through the table command register:
WRITE gives one rule its words with its type forced and only the staged validity bit, INVALIDATE clears the staged bit of each rule it
names and of no other, READ returns rules, READ_HITS returns their hit counts and clears them (R283, R284, R286, R297). What a rule's
rewriting keeps is log entry 115, and when a change of settings resets a recovery log entry 111. -/
def Obligations.StreamAndRuleCommands : Prop :=
  (∀ (c : Cmd) (s : State),
      (tcmdReady strWrite c s → bodyWord c 0x08 % 65536 ≠ 0xFFFF →
        ∃ t, Sys2Proof.Machine.exec (.strWrite c) s = .next t ∧ tcmdAnswered strWrite c 0 [] t ∧
          t.tab = { s.tab with vals := (kvPut (valKey 0 (bodyWord c 0x08 % 65536) (stagedPar s))
            (maskWords [0x1FFFFFFF, 0x3FFFFF, 0, 0] (wordsLE 4 (bodyAt c 0x0C 16))) s.tab.vals) } ∧
          t.gen = { s.gen with dirty := true } ∧ registersBut tcmdRegs s t ∧ changesOnly [.tables, .generations, .registers] s t) ∧
      (tcmdReady strRead c s → bodyWord c 0x08 % 65536 ≠ 0xFFFF →
        ∃ t, Sys2Proof.Machine.exec (.strRead c) s = .next t ∧
          tcmdAnswered strRead c 0 (bytesOfWords (bodyWord c 0x08 % 65536 :: (List.range 4).map fun k =>
            nth 0 (streamWords s (fld 16 16 (bodyWord c 0x08)) (bodyWord c 0x08 % 65536)) k)) t ∧
          registersBut tcmdRegs s t ∧ changesOnly [.registers] s t) ∧
      (∀ i k ws, i = fld 17 0 (bodyWord c 0x14) → hgtKind i = some k → tcmdReady hgtWrite c s →
        dataBytes c = hgtBytes k (ofLE ((bufBytes c s).take 4)) →
        ws = maskWords (hgtMasks k (dataBytes c / 4)) (wordsLE (dataBytes c / 4) (bufBytes c s)) →
        ∃ t, Sys2Proof.Machine.exec (.hgtWrite c) s = .next t ∧ tcmdAnswered hgtWrite c 0 [] t ∧
          t.tab = { s.tab with vals := (kvPut (valKey 1 i (stagedPar s))
            (ws ++ (if k = HgtKind.gate then (hgtWords s (stagedPar s) i).drop ws.length else [])) s.tab.vals) } ∧
          t.gen = { s.gen with dirty := true } ∧ changesOnly [.tables, .generations, .counters, .registers] s t) ∧
      (∀ i k n, i = fld 17 0 (bodyWord c 0x14) → hgtKind i = some k → tcmdReady hgtRead c s →
        n = (if k = .gate then 520 else hgtBytes k 0) → dataBytes c = n →
        ∃ t, Sys2Proof.Machine.exec (.hgtRead c) s = .next t ∧ tcmdAnswered hgtRead c 0 [] t ∧
          t.hmem = bufWritten c (bytesOfWords ((List.range (n / 4)).map fun j =>
            nth 0 (hgtWords s (fld 16 16 (bodyWord c 0x18)) i) j)) s ∧
          changesOnly [.counters, .registers, .hostMemory] s t) ∧
      (∀ i k, i = fld 17 0 (bodyWord c 0x14) → hgtKind i = some k → tcmdReady hgtReadCounters c s →
        dataBytes c = 8 * (hgtCounters k i s).1.length →
        ∃ t, Sys2Proof.Machine.exec (.hgtReadCounters c) s = .next t ∧ tcmdAnswered hgtReadCounters c 0 [] t ∧
          t.hmem = bufWritten c ((hgtCounters k i s).1.flatMap (toLE 8)) s ∧ t.tab = (hgtCounters k i s).2.tab ∧
          changesOnly [.tables, .counters, .registers, .hostMemory] s t) ∧
      (∀ i, i = fld 17 0 (bodyWord c 0x08) → tcmdReady hgtUnblock c s →
        (hgtKind i = some .filter → ∃ t, Sys2Proof.Machine.exec (.unblock c) s = .next t ∧ tcmdAnswered hgtUnblock c 0 [] t ∧
          filterAt t i = { filterAt s i with blocked := false } ∧ registersBut tcmdRegs s t ∧
          changesOnly [.tables, .registers] s t) ∧
        (hgtKind i = some .gate → ∃ t, Sys2Proof.Machine.exec (.unblock c) s = .next t ∧ tcmdAnswered hgtUnblock c 0 [] t ∧
          sgateAt t i = { sgateAt s i with latched := false } ∧ registersBut tcmdRegs s t ∧
          changesOnly [.tables, .registers] s t)) ∧
      (∀ i, i = fld 17 0 (bodyWord c 0x08) → tcmdReady hgtResetRcv c s → hgtKind i = some .recovery →
        ∃ t, Sys2Proof.Machine.exec (.resetRcv c) s = .next t ∧ tcmdAnswered hgtResetRcv c 0 [] t ∧
          recoveryAt t (i - 0x20000) = (recoveryAt s (i - 0x20000)).reset ∧ registersBut tcmdRegs s t ∧
          changesOnly [.tables, .registers] s t)) ∧
  (∀ (c : Cmd) (s : State), keyed s.tab.rules → keyed s.tab.tcamBad →
      (∀ i, tcmdReady clsWrite c s → fld 10 0 (bodyWord c 0x18) = 1 → rulePositions s (bodyWord c 0x14) 1 false = .ok [[i]] →
        dataBytes c = 96 → ruleLive s i (curPar s) = false →
        ∃ t, Sys2Proof.Machine.exec (.clsWrite c) s = .next t ∧ tcmdAnswered clsWrite c 0 [] t ∧
          kvGet i t.tab.rules = some {
            words := ruleWords (bankType s (i / 32768) (ruleBank i)) (wordsLE 24 (bufBytes c s)),
            v0 := stagedPar s == 0, v1 := stagedPar s == 1, hits := ((kvGet i s.tab.rules).map (·.hits)).getD 0 } ∧
          (∀ j, j ≠ i → kvGet j t.tab.rules = kvGet j s.tab.rules) ∧ t.gen = { s.gen with dirty := true } ∧
          changesOnly [.tables, .generations, .counters, .registers] s t) ∧
      (∀ rs, tcmdReady clsInvalidate c s →
        rulePositions s (bodyWord c 0x08) (fld 10 0 (bodyWord c 0x0C)) false = .ok rs →
        ∃ t, Sys2Proof.Machine.exec (.clsInvalidate c) s = .next t ∧ tcmdAnswered clsInvalidate c 0 [] t ∧
          (∀ i ∈ rs.flatten, ruleLive t i (stagedPar s) = false ∧ ruleLive t i (curPar s) = ruleLive s i (curPar s)) ∧
          (∀ i, i ∉ rs.flatten → kvGet i t.tab.rules = kvGet i s.tab.rules) ∧ t.gen = { s.gen with dirty := true } ∧
          registersBut tcmdRegs s t ∧ changesOnly [.tables, .generations, .registers] s t) ∧
      (∀ rs, tcmdReady clsRead c s → rulePositions s (bodyWord c 0x14) (fld 10 0 (bodyWord c 0x18)) true = .ok rs →
        dataBytes c = 96 * fld 10 0 (bodyWord c 0x18) →
        ∃ t, Sys2Proof.Machine.exec (.clsRead c) s = .next t ∧ tcmdAnswered clsRead c 0 [] t ∧
          t.hmem = bufWritten c (rs.flatten.flatMap (ruleEntry s)) s ∧ t.tab = s.tab ∧
          changesOnly [.counters, .registers, .hostMemory] s t) ∧
      (∀ rs, tcmdReady clsReadHits c s → rulePositions s (bodyWord c 0x14) (fld 10 0 (bodyWord c 0x18)) true = .ok rs →
        dataBytes c = 8 * fld 10 0 (bodyWord c 0x18) →
        ∃ t, Sys2Proof.Machine.exec (.readHits c) s = .next t ∧ tcmdAnswered clsReadHits c 0 [] t ∧
          t.hmem = bufWritten c (rs.flatten.flatMap fun i => toLE 8 (((kvGet i s.tab.rules).map (·.hits)).getD 0)) s ∧
          (∀ i ∈ rs.flatten, kvGet i t.tab.rules = (kvGet i s.tab.rules).map fun r => { r with hits := 0 }) ∧
          (∀ i, i ∉ rs.flatten → kvGet i t.tab.rules = kvGet i s.tab.rules) ∧
          changesOnly [.tables, .counters, .registers, .hostMemory] s t))

/-- The commands of FDB and LPM through the table command register: INSERT answers the slot and the moves made, or DUPLICATE where it
must not replace; DELETE clears the staged bit of the entry found; LOOKUP, READ and DUMP return slots, and READ of a slot in a move
answers RETRY; FLUSH answers how many entries it removed (R308 to R314, R334 to R336). An inserted prefix has its result in the staged
parity and a deleted one none; LOOKUP and MATCH return results of the parity they name (R324, R334). The time a move lasts is log entry
39, a lookup that meets a bad word log entry 113, the trie as a list of routes log entry 117 and the FDB hash log entry 32. -/
def Obligations.FdbLpmCommands : Prop :=
  ∀ (c : Cmd) (s : State),
    (∀ i m s1, tcmdReady fdbInsert c s → fdbValueOk (bodyWord c 0x10) = true →
      (bit 0 (bodyWord c 0x18) && (fdbFind s (stagedPar s) (bodyMac c) (bodyFid c)).isSome) = false →
      stageEntry { mac := bodyMac c, fid := bodyFid c, info := bodyWord c 0x10 &&& 0x07BFFFFF,
                   active := bit 22 (bodyWord c 0x10) } s = some (i, m, s1) →
      ∃ t, Sys2Proof.Machine.exec (.fdbInsert c) s = .next t ∧ tcmdAnswered fdbInsert c 0 (toLE 4 (i + m * 2 ^ 18)) t ∧
        t.tab = { s1.tab with moving := [] } ∧ t.gen = { s.gen with dirty := true } ∧ registersBut tcmdRegs s t ∧
        changesOnly [.tables, .generations, .registers] s t) ∧
    (tcmdReady fdbInsert c s → fdbValueOk (bodyWord c 0x10) = true → bit 0 (bodyWord c 0x18) = true →
      (fdbFind s (stagedPar s) (bodyMac c) (bodyFid c)).isSome = true →
      ∃ t, Sys2Proof.Machine.exec (.fdbInsert c) s = .next t ∧ tcmdAnswered fdbInsert c 0x107 [] t ∧ t.tab = s.tab ∧
        registersBut tcmdRegs s t ∧ changesOnly [.registers] s t) ∧
    (∀ i e, tcmdReady fdbDelete c s → fdbFind s (stagedPar s) (bodyMac c) (bodyFid c) = some (i, e) →
      ∃ t, Sys2Proof.Machine.exec (.fdbDelete c) s = .next t ∧ tcmdAnswered fdbDelete c 0 [] t ∧
        t.tab = (setFdb i (e.setValid (stagedPar s) false) s).tab ∧ t.gen = { s.gen with dirty := true } ∧
        registersBut tcmdRegs s t ∧ changesOnly [.tables, .generations, .registers] s t) ∧
    (∀ i e, tcmdReady fdbLookup c s → fdbFind s (fld 16 16 (bodyWord c 0x18)) (bodyMac c) (bodyFid c) = some (i, e) →
      ∃ t, Sys2Proof.Machine.exec (.fdbLookup c) s = .next t ∧ tcmdAnswered fdbLookup c 0 (fdbBytes s i) t ∧
        registersBut tcmdRegs s t ∧ changesOnly [.registers] s t) ∧
    (∀ i, tcmdReady fdbRead c s → i = fld 17 0 (bodyWord c 0x08) →
      (i ∉ s.tab.moving ∨ s.tab.movingTill ≤ s.elapsed → ∃ t, Sys2Proof.Machine.exec (.fdbRead c) s = .next t ∧
        tcmdAnswered fdbRead c 0 (fdbBytes s i) t ∧ registersBut tcmdRegs s t ∧ changesOnly [.registers] s t) ∧
      (i ∈ s.tab.moving → s.elapsed < s.tab.movingTill → ∃ t, Sys2Proof.Machine.exec (.fdbRead c) s = .next t ∧
        tcmdAnswered fdbRead c 1 [] t ∧ registersBut tcmdRegs s t ∧ changesOnly [.registers] s t)) ∧
    (∀ hit, tcmdReady fdbFlush c s → hit = (s.tab.fdb.filter fun e => flushMatches (bodyWord c 0x08) e.2 &&
        (domainMode s e.2.domain == 1 || e.2.valid (stagedPar s))) →
      ∃ t, Sys2Proof.Machine.exec (.fdbFlush c) s = .next t ∧ tcmdAnswered fdbFlush c 0 (toLE 4 hit.length) t ∧
        (keyed s.tab.fdb → ∀ i e, (i, e) ∈ s.tab.fdb → (i, e) ∉ hit → fdbAt t i = some e) ∧
        (keyed s.tab.fdb → ∀ i e, (i, e) ∈ hit → ∀ f, fdbAt t i = some f → f.valid (stagedPar s) = false) ∧
        t.gen = { s.gen with dirty := true } ∧ registersBut tcmdRegs s t ∧
        changesOnly [.tables, .generations, .registers] s t) ∧
    (∀ i n, tcmdReady fdbDump c s → i = fld 17 0 (bodyWord c 0x14) → n = fld 12 0 (bodyWord c 0x18) → 1 ≤ n → n ≤ 4096 →
      i + n ≤ 262144 → dataBytes c = 16 * n →
      ∃ t, Sys2Proof.Machine.exec (.fdbDump c) s = .next t ∧ tcmdAnswered fdbDump c 0 [] t ∧
        t.hmem = bufWritten c ((List.range n).flatMap fun k => fdbBytes s (i + k)) s ∧ t.tab = s.tab ∧
        changesOnly [.time, .counters, .registers, .hostMemory, .masterTime, .elapsed] s t) ∧
    (∀ v, tcmdReady lpmInsert c s → prefixOk (bodyPrefix c) = true → v = fld 17 0 (bodyWord c 0x14) →
      (v < 2 ^ 17 ∨ v % 2 ^ 17 < 4096) → lpmUnits (setRoute (stagedPar s) (bodyPrefix c) (some v) s) ≤ 393216 →
      ∃ t, Sys2Proof.Machine.exec (.lpmInsert c) s = .next t ∧ tcmdAnswered lpmInsert c 0 [] t ∧
        routeAt t (stagedPar s) (bodyPrefix c) = some v ∧
        (∀ p, p ≠ bodyPrefix c → ∀ par, routeAt t par p = routeAt s par p) ∧
        routeAt t (curPar s) (bodyPrefix c) = routeAt s (curPar s) (bodyPrefix c) ∧
        t.gen = { s.gen with dirty := true } ∧ registersBut tcmdRegs s t ∧
        changesOnly [.tables, .generations, .registers] s t) ∧
    (tcmdReady lpmDelete c s → prefixOk (bodyPrefix c) = true → (routeAt s (stagedPar s) (bodyPrefix c)).isSome = true →
      ∃ t, Sys2Proof.Machine.exec (.lpmDelete c) s = .next t ∧ tcmdAnswered lpmDelete c 0 [] t ∧
        routeAt t (stagedPar s) (bodyPrefix c) = none ∧
        (∀ p, p ≠ bodyPrefix c → ∀ par, routeAt t par p = routeAt s par p) ∧
        t.gen = { s.gen with dirty := true } ∧ registersBut tcmdRegs s t ∧
        changesOnly [.tables, .generations, .registers] s t) ∧
    (∀ v, tcmdReady lpmLookup c s → prefixOk (bodyPrefix c) = true →
      routeAt s (fld 9 9 (bodyWord c 0x08)) (bodyPrefix c) = some v →
      ∃ t, Sys2Proof.Machine.exec (.lpmLookup c) s = .next t ∧
        tcmdAnswered lpmLookup c 0 (List.replicate 12 0 ++ toLE 4 v) t ∧
        registersBut tcmdRegs s t ∧ changesOnly [.registers] s t) ∧
    (∀ r v, tcmdReady lpmMatch c s →
      longestMatch s (fld 9 9 (bodyWord c 0x08)) (bit 8 (bodyWord c 0x08)) (ofLE (bodyAt c 0x0C 8)) = some (r, v) →
      ∃ t, Sys2Proof.Machine.exec (.lpmMatch c) s = .next t ∧
        tcmdAnswered lpmMatch c 0 (toLE 4 r.len ++ toLE 8 r.addr ++ toLE 4 v) t ∧
        registersBut tcmdRegs s t ∧ changesOnly [.registers] s t)

/-- The commands of NHP and MCG through the table command register: a write of a next hop, a VLAN entry, a group, a replication-group or
a replication entry changes its staged copy alone; one of a live replication entry is refused as LIVE and INVALIDATE clears the staged
bit; reads return the entry of the parity they name (R328, R331, R333 to R335). -/
def Obligations.NhpMcgCommands : Prop :=
  ∀ (c : Cmd) (s : State),
    (∀ i ws, tcmdReady nhpWrite c s → i = fld 17 0 (bodyWord c 0x08) → ws = wordsLE 4 (bodyAt c 0x0C 16) →
      (nhpKind i = some .hop ∧ hopOk (nth 0 ws 2) = true ∨ nhpKind i = some .vlan) →
      ∃ t, Sys2Proof.Machine.exec (.nhpWrite c) s = .next t ∧ tcmdAnswered nhpWrite c 0 [] t ∧
        t.tab = { s.tab with vals := (kvPut (valKey 2 i (stagedPar s)) (maskWords (if nhpKind i = some NhpKind.hop then
          [0xFFFFFFFF, 0x1FFFFFFF, 0xFFFFF, 0] else [0xFFFFFFFF, 7, 0, 0]) ws) s.tab.vals) } ∧
        t.gen = { s.gen with dirty := true } ∧ registersBut tcmdRegs s t ∧
        changesOnly [.tables, .generations, .registers] s t) ∧
    (∀ i, tcmdReady nhpRead c s → i = fld 17 0 (bodyWord c 0x08) → nhpKind i = some .hop ∨ nhpKind i = some .vlan →
      ∃ t, Sys2Proof.Machine.exec (.nhpRead c) s = .next t ∧
        tcmdAnswered nhpRead c 0 (toLE 4 0 ++ bytesOfWords ((List.range 4).map fun k =>
          nth 0 (entry s 2 i (fld 18 18 (bodyWord c 0x08))) k)) t ∧
        registersBut tcmdRegs s t ∧ changesOnly [.registers] s t) ∧
    (∀ i lag, i = fld 17 0 (bodyWord c 0x14) → (nhpKind i = some .ecmp ∧ lag = false ∨ nhpKind i = some .lag ∧ lag = true) →
      (tcmdReady nhpWriteGroup c s → dataBytes c = groupBytes lag → groupOk lag (bufBytes c s) = true →
        ∃ t, Sys2Proof.Machine.exec (.writeGroup c) s = .next t ∧ tcmdAnswered nhpWriteGroup c 0 [] t ∧
          t.tab = { s.tab with vals := (kvPut (valKey 2 i (stagedPar s))
            (maskWords (groupMasks lag) (wordsLE (groupBytes lag / 4) (bufBytes c s))) s.tab.vals) } ∧
          t.gen = { s.gen with dirty := true } ∧ changesOnly [.tables, .generations, .counters, .registers] s t) ∧
      (tcmdReady nhpReadGroup c s → dataBytes c = groupBytes lag →
        ∃ t, Sys2Proof.Machine.exec (.readGroup c) s = .next t ∧ tcmdAnswered nhpReadGroup c 0 [] t ∧
          t.hmem = bufWritten c (bytesOfWords ((List.range (groupBytes lag / 4)).map fun k =>
            nth 0 (entry s 2 i (fld 16 16 (bodyWord c 0x18))) k)) s ∧ t.tab = s.tab ∧
          changesOnly [.counters, .registers, .hostMemory] s t) ∧
      (tcmdReady nhpReadBuckets c s → dataBytes c = 1024 →
        ∃ t x, Sys2Proof.Machine.exec (.readBuckets c) s = .next t ∧ tcmdAnswered nhpReadBuckets c 0 [] t ∧
          t.hmem = bufWritten c ((List.range 256).flatMap fun b =>
            toLE 4 (bucketWord s (b2n (!lag)) (i - (if lag then 0x21000 else 0x20000)) x b)) s ∧ t.tab = s.tab ∧
          changesOnly [.counters, .registers, .hostMemory, .freeCount] s t)) ∧
    (∀ i, tcmdReady mcgWrite c s → i = fld 17 0 (bodyWord c 0x08) →
      (i < 16384 → ∃ t, Sys2Proof.Machine.exec (.mcgWrite c) s = .next t ∧ tcmdAnswered mcgWrite c 0 [] t ∧
        t.tab = { s.tab with vals := (kvPut (valKey 3 i (stagedPar s)) [bodyWord c 0x0C &&& 0x3FFFF, 0] s.tab.vals) } ∧
        t.gen = { s.gen with dirty := true } ∧ registersBut tcmdRegs s t ∧
        changesOnly [.tables, .generations, .registers] s t) ∧
      (0x20000 ≤ i → replOk (bodyWord c 0x0C) = true → replLive s (i - 0x20000) = false →
        ∃ t, Sys2Proof.Machine.exec (.mcgWrite c) s = .next t ∧ tcmdAnswered mcgWrite c 0 [] t ∧
        t.tab = (writeRepl (i - 0x20000) (bodyWord c 0x0C) (bodyWord c 0x10) s).tab ∧
        t.gen = { s.gen with dirty := true } ∧ registersBut tcmdRegs s t ∧
        changesOnly [.tables, .generations, .registers] s t) ∧
      (0x20000 ≤ i → replOk (bodyWord c 0x0C) = true → replLive s (i - 0x20000) = true →
        ∃ t, Sys2Proof.Machine.exec (.mcgWrite c) s = .next t ∧ tcmdAnswered mcgWrite c 0x101 [] t ∧ t.tab = s.tab ∧
        registersBut tcmdRegs s t ∧ changesOnly [.registers] s t)) ∧
    (∀ i, tcmdReady mcgInvalidate c s → i = fld 17 0 (bodyWord c 0x08) → 0x20000 ≤ i →
      ∃ t, Sys2Proof.Machine.exec (.mcgInvalidate c) s = .next t ∧ tcmdAnswered mcgInvalidate c 0 [] t ∧
        t.tab = (clearRepl (i - 0x20000) s).tab ∧ t.gen = { s.gen with dirty := true } ∧ registersBut tcmdRegs s t ∧
        changesOnly [.tables, .generations, .registers] s t) ∧
    (∀ i, tcmdReady mcgRead c s → i = fld 17 0 (bodyWord c 0x08) →
      (i < 16384 → ∃ t, Sys2Proof.Machine.exec (.mcgRead c) s = .next t ∧
        tcmdAnswered mcgRead c 0 (toLE 4 0 ++ toLE 4 (nth 0 (entry s 3 i (fld 18 18 (bodyWord c 0x08))) 0) ++
          toLE 4 (nth 0 (entry s 3 i (fld 18 18 (bodyWord c 0x08))) 1)) t ∧
        registersBut tcmdRegs s t ∧ changesOnly [.registers] s t) ∧
      (∀ e, 0x20000 ≤ i → replAt s (i - 0x20000) = some e → ∃ t, Sys2Proof.Machine.exec (.mcgRead c) s = .next t ∧
        tcmdAnswered mcgRead c 0 (toLE 4 0 ++ toLE 4 (e.w0 + b2n e.v0 * 2 ^ 25 + b2n e.v1 * 2 ^ 26) ++ toLE 4 e.w1) t ∧
        registersBut tcmdRegs s t ∧ changesOnly [.registers] s t)) ∧
    (∀ i, tcmdReady mcgWriteRun c s → i = fld 17 0 (bodyWord c 0x14) → fld 12 0 (bodyWord c 0x18) = 1 → dataBytes c = 8 →
      0x20000 ≤ i → i < 0x40000 → replOk (ofLE ((bufBytes c s).take 4)) = true → replLive s (i - 0x20000) = false →
      ∃ t, Sys2Proof.Machine.exec (.writeRun c) s = .next t ∧ tcmdAnswered mcgWriteRun c 0 [] t ∧
        t.tab = (writeRepl (i - 0x20000) (ofLE ((bufBytes c s).take 4)) (ofLE (((bufBytes c s).drop 4).take 4)) s).tab ∧
        t.gen = { s.gen with dirty := true } ∧ changesOnly [.tables, .generations, .counters, .registers] s t)

/-- An INSERT into a sound FDB that finds a slot, whatever relocations it takes, leaves the FDB sound, its entry found in the staged
parity, and every other key, and every key in the current parity, found with the content it had (R309, R312 to R314). -/
def Obligations.FdbInsertKeepsLookups : Prop :=
  ∀ (e : FdbEntry) (i m : Nat) (s t : State), FdbSound s → stageEntry e s = some (i, m, t) →
    FdbSound t ∧ (fdbFind t (stagedPar s) e.mac e.fid).map (·.1) = some i ∧
      (fdbFind t (stagedPar s) e.mac e.fid).map (fun r => (r.2.info, r.2.active)) = some (e.info, e.active) ∧
      (∀ mac fid par, (mac, fid) ≠ (e.mac, e.fid) → (fdbFind t par mac fid).map (·.2) = (fdbFind s par mac fid).map (·.2)) ∧
      (fdbFind t (curPar s) e.mac e.fid).map (fun r => (r.2.info, r.2.active)) =
        (fdbFind s (curPar s) e.mac e.fid).map fun r => (r.2.info, r.2.active)

/-- A command that changes staged entries leaves the current generation as it was, whatever it answers (R341, R352): every entry of the
directly indexed tables, every live rule and replication entry with its content, the content that every FDB key is found with, the
result of every prefix, the gate lists in use, and the programs, bundles and table banks of every cluster. FLUSH is stated where no FDB
entry is of a domain in ordinary mode, whose entries it removes at once (R335). -/
def Obligations.ChangesStayStaged : Prop :=
  ∀ (c : Cmd) (i : Instr) (s : State), c.via = .tcmd →
    i ∈ [Instr.strWrite c, .hgtWrite c, .nhpWrite c, .writeGroup c, .mcgWrite c, .mcgInvalidate c, .writeRun c, .fdbInsert c,
      .fdbDelete c, .fdbFlush c, .lpmInsert c, .lpmDelete c, .clsWrite c, .clsInvalidate c, .load c, .unload c, .tblWrite c,
      .writeEntries c] →
    RegsCanonical s → keyed s.tab.rules → keyed s.tab.tcamBad → keyed s.tab.repl → keyed s.eng.programs → FdbSound s →
    (i = .fdbFlush c → ∀ j e, fdbAt s j = some e → domainMode s e.domain ≠ 1) →
    ∃ t, Sys2Proof.Machine.exec i s = .next t ∧ t.gen.current = s.gen.current ∧
      (∀ tbl idx, idx < 2 ^ 20 → entry t tbl idx (curPar s) = entry s tbl idx (curPar s)) ∧
      (∀ r, ruleLive t r (curPar s) = ruleLive s r (curPar s) ∧
        (ruleLive s r (curPar s) = true → (kvGet r t.tab.rules).map (·.words) = (kvGet r s.tab.rules).map (·.words))) ∧
      (∀ r, replLive t r = replLive s r ∧
        (replLive s r = true → (replAt t r).map (fun e => (e.w0, e.w1)) = (replAt s r).map fun e => (e.w0, e.w1))) ∧
      (∀ mac fid, (fdbFind t (curPar s) mac fid).map (fun r => (r.2.info, r.2.active)) =
        (fdbFind s (curPar s) mac fid).map fun r => (r.2.info, r.2.active)) ∧
      (∀ p, routeAt t (curPar s) p = routeAt s (curPar s) p) ∧
      (∀ p j, p < 256 → j < 1024 → pg t (curPar s) (R.gclEntryGates p j) = pg s (curPar s) (R.gclEntryGates p j) ∧
        pg t (curPar s) (R.gclEntryInterval p j) = pg s (curPar s) (R.gclEntryInterval p j)) ∧
      (∀ k a, a < 8192 → programAt t k (curPar s) a = programAt s k (curPar s) a ∧
        bundleAt t k (curPar s) a = bundleAt s k (curPar s) a) ∧
      (∀ k w, w < 16384 → kvGetD 0 (bankKey k (curPar s) w) t.eng.banks = kvGetD 0 (bankKey k (curPar s) w) s.eng.banks)

/-- A scrub that finds a bad TCAM entry clears both its validity bits and keeps them for the repair, which restores them; one that was
never written is reported too (R285). A bad word of another table, in the copy of one pair of slices, or of an engine stays bad until
its repair (R338, R385). The host's writes of hash settings are taken in STAGE only, of a bank's type only where it is legal and no rule
stands in it, of a seed only while the FDB is empty, of the HBM partition only in STAGE and where it fits; refused writes change nothing
but a sticky bit (R278, R281, R339, R420). A counter's new settings start it from 0 (R494). The numbers of the memories are log entry
91, the hash registers of S1 to S7 log entry 109, lookups that meet a bad word log entry 113 and the ring laid out anew log entry 78. -/
def Obligations.RepairsAndSettings : Prop :=
  (∀ (i : Nat) (r : Rule) (s : State), i < 262144 → kvGet i s.tab.rules = some r → kvGet i s.tab.tcamBad = none →
    ∃ t, Sys2Proof.Machine.exec (.tcamScrub i false true) s = .next t ∧
      kvGet i t.tab.rules = some { r with v0 := false, v1 := false } ∧ kvGet i t.tab.tcamBad = some (r.v0, r.v1) ∧
      changesOnly [.host, .tables, .registers] s t) ∧
  (∀ (i : Nat) (s : State), i < 262144 → kvGet i s.tab.rules = none → kvGet i s.tab.tcamBad = none →
    ∃ t, Sys2Proof.Machine.exec (.tcamScrub i false true) s = .next t ∧
      kvGet i t.tab.rules = none ∧ kvGet i t.tab.tcamBad = some (false, false) ∧
      changesOnly [.host, .tables, .registers] s t) ∧
  (∀ (i : Nat) (r : Rule) (a b : Bool) (s : State), keyed s.tab.rules → keyed s.tab.tcamBad →
    kvGet i s.tab.rules = some r → kvGet i s.tab.tcamBad = some (a, b) → (a || b) = true →
    ∃ t, Sys2Proof.Machine.exec (.tcamRepair i) s = .next t ∧ kvGet i t.tab.rules = some { r with v0 := a, v1 := b } ∧
      kvGet i t.tab.tcamBad = none ∧ changesOnly [.host, .tables, .registers] s t) ∧
  (∀ (mem idx sl : Nat) (s : State), mem ∈ [1, 2, 3, 4, 32, 33] → sl < 8 →
    (∃ t, Sys2Proof.Machine.exec (.tableScrub mem idx (sl / 2) true) s = .next t ∧ badWord t mem idx (sl / 2) = true ∧
      (∀ k, k ≠ sl / 2 → badWord t mem idx k = badWord s mem idx k) ∧ changesOnly [.host, .tables, .registers] s t) ∧
    (badWord s mem idx (sl / 2) = true → ∃ t, Sys2Proof.Machine.exec (.tableRepair mem idx sl) s = .next t ∧
      badWord t mem idx (sl / 2) = false ∧ (∀ k, k ≠ sl / 2 → badWord t mem idx k = badWord s mem idx k) ∧
      changesOnly [.host, .tables, .registers] s t)) ∧
  (∀ (c k key : Nat) (s : State), (c, k, key) ∈ s.eng.bad →
    ∃ t, Sys2Proof.Machine.exec (.engineWordRepair c k key) s = .next t ∧ (c, k, key) ∉ t.eng.bad ∧
      changesOnly [.host, .engines, .registers] s t) ∧
  (∀ (v : Word) (s : State), RegsCanonical s → pf0Open (R.prsHashSeed 0) s → pf0Open (R.prsHashCfg 0) s →
    (s.md.mode = .stage →
      (∃ t, Sys2Proof.Machine.exec (.hashConfigWrite true v) s = .next t ∧ rg t (R.prsHashSeed 0) = v.toNat ∧
        registersBut [R.prsHashSeed 0] s t ∧ changesOnly [.registers] s t) ∧
      (∃ t, Sys2Proof.Machine.exec (.hashConfigWrite false v) s = .next t ∧ rg t (R.prsHashCfg 0) = v.toNat % 32 ∧
        registersBut [R.prsHashCfg 0] s t ∧ changesOnly [.registers] s t)) ∧
    (s.md.mode ≠ .stage → ∀ seed, ∃ t, Sys2Proof.Machine.exec (.hashConfigWrite seed v) s = .next t ∧
      bit 0 (rg t (R.prsStatus 0)) = true ∧ registersBut [R.prsStatus 0] s t ∧ changesOnly [.registers] s t)) ∧
  (∀ (sl b : Nat) (v : Word) (s : State), RegsCanonical s → sl < 8 → b < 8 → pf0Open (R.clsBankCfg sl b) s →
    (fld 3 1 v.toNat ∈ [0, 1, 2, 4, 5] → bit 0 v.toNat = decide (4 ≤ fld 3 1 v.toNat) → bankHasRule s sl b = false →
      ∃ t, Sys2Proof.Machine.exec (.bankConfigWrite sl b v) s = .next t ∧ rg t (R.clsBankCfg sl b) = v.toNat % 16 ∧
        registersBut [R.clsBankCfg sl b] s t ∧ changesOnly [.registers] s t) ∧
    (fld 3 1 v.toNat ∉ [0, 1, 2, 4, 5] ∨ bit 0 v.toNat ≠ decide (4 ≤ fld 3 1 v.toNat) ∨
        bankHasRule s sl b = true ∧ v.toNat % 16 ≠ rg s (R.clsBankCfg sl b) % 16 →
      ∃ t, Sys2Proof.Machine.exec (.bankConfigWrite sl b v) s = .next t ∧ bit 0 (rg t (R.clsStatus sl)) = true ∧
        registersBut [R.clsStatus sl] s t ∧ changesOnly [.registers] s t)) ∧
  (∀ (one : Bool) (v : Word) (off : Nat) (s : State), RegsCanonical s → off = (if one then R.fdbHashSeed1 else R.fdbHashSeed0) →
    pf0Open off s →
    (s.tab.fdb = [] → ∃ t, Sys2Proof.Machine.exec (.seedWrite one v) s = .next t ∧ rg t off = v.toNat ∧
      registersBut [off] s t ∧ changesOnly [.registers] s t) ∧
    (s.tab.fdb ≠ [] → ∃ t, Sys2Proof.Machine.exec (.seedWrite one v) s = .next t ∧ bit 0 (rg t R.fdbStatus) = true ∧
      registersBut [R.fdbStatus] s t ∧ changesOnly [.registers] s t)) ∧
  (∀ (w : Word) (res g es : Nat) (s : State), RegsCanonical s → pf0Open R.bpmHbmPart s → res = fld 4 0 w.toNat →
    g = fld 14 8 w.toNat → es = fld 19 16 w.toNat →
    (s.md.mode = .stage → partitionFits (resChannels s) res g es = true →
      ∃ t, Sys2Proof.Machine.exec (.hbmPartitionWrite w) s = .next t ∧ t.buf.resGib = res ∧ t.buf.recGib = g ∧ t.buf.esGib = es ∧
        changesOnly [.host, .buffer, .recorder, .registers, .freeCount] s t) ∧
    (s.md.mode ≠ .stage ∨ partitionFits (resChannels s) res g es = false →
      ∃ t, Sys2Proof.Machine.exec (.hbmPartitionWrite w) s = .next t ∧ bit 1 (rg t R.bpmStatus) = true ∧
        registersBut [R.bpmStatus] s t ∧ changesOnly [.registers] s t)) ∧
  (∀ (u k reg : Nat) (w : Word) (s : State), RegsCanonical s → keyed s.pmu.ctrs → u < 30 → k < 8 → reg < 3 →
    pf0Open (settingReg u k reg) s → pmuPresent s u = true →
    ∃ t, Sys2Proof.Machine.exec (.pmuSettingWrite u k reg w) s = .next t ∧
      rg t (settingReg u k reg) = settingWord reg w.toNat ∧ registersBut [settingReg u k reg] s t ∧
      (fld 7 0 (pmuEvt t u k) = 0 → kvGet (8 * u + k) t.pmu.ctrs = none) ∧
      (fld 7 0 (pmuEvt t u k) ≠ 0 → (kvGet (8 * u + k) t.pmu.ctrs).map (fun c => (c.value, c.since)) = some (0, s.elapsed)) ∧
      (∀ n, n ≠ 8 * u + k → kvGet n t.pmu.ctrs = kvGet n s.pmu.ctrs) ∧ changesOnly [.counters, .registers] s t)

/-- In RUN and DRAIN the learning engine takes the request at the front of its queue: in ordinary mode a key without a copy gets an entry in
both parities, in deterministic mode a new entry only in the staged one, which starts the automatic commit's interval (R316 to R319,
R354). While a commit completes a deterministic request waits (R317). In an ordinary domain the sweep clears ACTIVE of a dynamic
entry and removes it at the next visit; a hit in the visit's own cycle leaves it in place with ACTIVE 1; a static entry stays (R321 to
R323). A drained bucket that still carries an old path moves to the one it wants (R24, R330). -/
def Obligations.LearningAndAgeing : Prop :=
  (∀ (r : LearnReq) (rs : List LearnReq) (s : State), s.md.mode = .run ∨ s.md.mode = .drain → s.tab.learnQ = r :: rs →
    (r.mode = 1 → (∀ par, fdbFind s par r.mac r.fid = none) → ∀ i u m, fdbPlace r.mac r.fid s = some (i, m, u) →
      ∃ t, Sys2Proof.Machine.exec .learnRequest s = .next t ∧ t.tab.learnQ = rs ∧
        fdbAt t i = some { learnEntry r with v0 := true, v1 := true } ∧ t.gen = s.gen ∧
        changesOnly [.host, .tables, .registers] s t) ∧
    (r.mode = 2 → s.gen.st = 0 → fdbFind s (stagedPar s) r.mac r.fid = none → ∀ i u m, fdbPlace r.mac r.fid s = some (i, m, u) →
      ∃ t, Sys2Proof.Machine.exec .learnRequest s = .next t ∧ t.tab.learnQ = rs ∧
        (fdbAt t i).map (fun e => (e.valid (stagedPar s), e.valid (curPar s), e.info)) =
          some (true, false, (learnEntry r).info) ∧
        t.gen.learnPending = true ∧ t.gen.autoFrom.isSome = true ∧ t.gen.dirty = s.gen.dirty ∧
        changesOnly [.host, .tables, .generations, .registers] s t) ∧
    (r.mode = 2 → s.gen.st ≠ 0 → ∃ t, Sys2Proof.Machine.exec .learnRequest s = .next t ∧ changesOnly [] s t)) ∧
  (∀ (i : Nat) (e : FdbEntry) (s : State), keyed s.tab.fdb → hostOpen s = true → fdbAt s i = some e → (e.v0 || e.v1) = true →
    (e.static = true → ∀ hit, ∃ t, Sys2Proof.Machine.exec (.ageingVisit i hit) s = .next t ∧ changesOnly [] s t) ∧
    (∀ (u : State) (due : Nat), e.static = false → domainMode s e.domain = 1 → due = visitDue s i (ageSpan s e.domain) →
      u = reachElapsed due s →
      due ≤ u.elapsed ∧
      (∃ t, Sys2Proof.Machine.exec (.ageingVisit i true) s = .next t ∧ fdbAt t i = some { e with active := true } ∧
        (∀ j, j ≠ i → fdbAt t j = fdbAt s j) ∧ kvGet i t.tab.visited = some due ∧ changesOnly [.tables] u t) ∧
      (e.active = true →
        ∃ t, Sys2Proof.Machine.exec (.ageingVisit i false) s = .next t ∧ fdbAt t i = some { e with active := false } ∧
          (∀ j, j ≠ i → fdbAt t j = fdbAt s j) ∧ kvGet i t.tab.visited = some due ∧ changesOnly [.tables] u t) ∧
      (e.active = false →
        ∃ t, Sys2Proof.Machine.exec (.ageingVisit i false) s = .next t ∧ fdbAt t i = none ∧
          (∀ j, j ≠ i → fdbAt t j = fdbAt s j) ∧ changesOnly [.host, .tables, .registers] u t))) ∧
  (∀ (set g b x since n y : Nat) (s : State), set < 4 → b < 256 → keyed s.tab.carry → keyed s.tab.moves →
    kvGet (bucketKey set g b) s.tab.carry = some x → kvGet (bucketKey set g b) s.tab.moves = some (since, n) →
    wantedPath s (curPar s) set g b = some y →
    (onPath s set g b x = false →
      ∃ t, Sys2Proof.Machine.exec (.bucketMove set g b) s = .next t ∧ kvGet (bucketKey set g b) t.tab.carry = none ∧
        kvGet (bucketKey set g b) t.tab.moves = none ∧ changesOnly [.host, .tables, .registers] s t) ∧
    (onPath s set g b x = true → ∃ t, Sys2Proof.Machine.exec (.bucketMove set g b) s = .next t ∧ changesOnly [] s t))

/-! ## Generations -/

/-- The commit engine (R347 to R357): in IDLE, in STAGE and RUN, COMMIT, COMMIT_AT and DISCARD_STAGED begin, through GEN_CMD or the
table command register, whose waiter is then still to be answered; through GEN_CMD they are refused with BUSY outside IDLE and with MODE
in DRAIN. STATUS answers the number in force. CHECKING, with no command waiting, ends in acceptance with DIRTY clear, at a time at most
10 µs away or the one chosen, or, where the chosen time is out of bounds, in a refusal that leaves the staged side dirty. The order of
the refusals is log entry 71, a time that is out of bounds log entry 86, what makes the staged side dirty log entry 116 and LAST_STATUS
meanwhile log entry 151. -/
def Obligations.CommitBegins : Prop :=
  (∀ s : State, pf0Open R.genCmd s → s.md.mode = .stage ∨ s.md.mode = .run →
    (s.gen.st = 0 →
      (∃ t, Sys2Proof.Machine.exec (.commit none) s = .next t ∧ t.gen = { s.gen with
        st := 1, timed := none, auto := false, waiter := none, waitIdle := false, lastStatus := 0 } ∧
        changesOnly [.generations] s t) ∧
      (∃ t, Sys2Proof.Machine.exec (.commitAt none) s = .next t ∧ t.gen = { s.gen with
        st := 1, timed := some (givenTime (rg64 s R.genAtSec) (rgF s R.genAtNs 29 0)), auto := false, waiter := none,
        waitIdle := false, lastStatus := 0 } ∧ changesOnly [.generations] s t) ∧
      (∃ t, Sys2Proof.Machine.exec (.discardStaged none) s = .next t ∧ t.gen = { s.gen with
        st := 5, waiter := none, auto := false, lastStatus := 0 } ∧ changesOnly [.generations] s t)) ∧
    (s.gen.st ≠ 0 → ∀ c ∈ [Instr.commit none, .commitAt none, .discardStaged none],
      ∃ t, Sys2Proof.Machine.exec c s = .next t ∧ t.gen = { s.gen with lastStatus := 0x101 } ∧
        changesOnly [.generations] s t)) ∧
  (∀ s : State, pf0Open R.genCmd s → s.md.mode = .drain → s.gen.st = 0 →
    ∀ c ∈ [Instr.commit none, .commitAt none, .discardStaged none],
      ∃ t, Sys2Proof.Machine.exec c s = .next t ∧ t.gen = { s.gen with lastStatus := 8 } ∧ changesOnly [.generations] s t) ∧
  (∀ (c : Cmd) (s : State), s.md.mode = .stage ∨ s.md.mode = .run →
    (tcmdReady genCommitCmd c s → ∀ i ∈ [Instr.commit (some c), .commitAt (some c)],
      ∃ t, Sys2Proof.Machine.exec i s = .next t ∧ t.gen.st = 1 ∧ t.tab.tcmdBusy = true ∧
        t.gen.waitIdle = bit 1 (bodyWord c 0x08) ∧ t.gen.timed.isSome = bit 0 (bodyWord c 0x08) ∧ t.gen.waiter.isSome = true ∧
        registersBut tcmdRegs s t ∧ changesOnly [.tables, .generations, .registers] s t) ∧
    (tcmdReady genDiscardCmd c s →
      ∃ t, Sys2Proof.Machine.exec (.discardStaged (some c)) s = .next t ∧ t.gen.st = 5 ∧ t.tab.tcmdBusy = true ∧
        t.gen.waiter.isSome = true ∧ registersBut tcmdRegs s t ∧ changesOnly [.tables, .generations, .registers] s t)) ∧
  (∀ (c : Cmd) (s : State), tcmdReady genStatusCmd c s →
    ∃ t, Sys2Proof.Machine.exec (.genStatus c) s = .next t ∧
      tcmdAnswered genStatusCmd c 0 (toLE 4 s.gen.current ++ toLE 4 (genStatusWord s) ++ toLE 4 (genInflight s)) t ∧
      registersBut tcmdRegs s t ∧ changesOnly [.registers] s t) ∧
  (∀ s : State, s.gen.st = 1 → s.gen.waiter = none → s.gen.held = [] →
    (badTime s = false → clampRefused s (rangeCheck s).reports = false →
      ∃ t T, Sys2Proof.Machine.exec .commitCheckDone s = .next t ∧ t.gen.st = 2 ∧ t.gen.effectAt = some T ∧ t.gen.dirty = false ∧
        (s.gen.timed = none → s.now ≤ T ∧ T ≤ s.now + usT 10) ∧ (∀ x, s.gen.timed = some x → T = x) ∧
        t.gen.current = s.gen.current ∧ changesOnly [.host, .links, .tables, .generations, .registers, .freeCount] s t) ∧
    (badTime s = true ∧ clampRefused s (rangeCheck s).reports = false →
      ∃ t, Sys2Proof.Machine.exec .commitCheckDone s = .next t ∧ t.gen.st = 0 ∧ t.gen.lastStatus = 0x103 ∧
        t.gen.dirty = s.gen.dirty ∧ t.gen.effectAt = s.gen.effectAt ∧ changesOnly [.host, .generations, .registers] s t))

/-- At T the next generation number is in force, with every directly indexed entry, FDB entry and rule as it stood (R347). Once no frame
stamped before T is inside or being received, every FDB entry and every prefix reads the same in both parities (R36, R349), and IDLE
follows (R347). With no command waiting, a discard ends in IDLE with nothing dirty and no learned entry pending (R353). In STAGE and RUN an
automatic commit begins when it is due with nothing else staged, and is put off while there is (R354). -/
def Obligations.CommitEnds : Prop :=
  (∀ (T : Nat) (s : State), s.gen.effectAt = some T → s.gen.byJump = false → s.gen.st = 2 → s.gen.held = [] →
    ∃ t, Sys2Proof.Machine.exec .commitEffect s = .next t ∧ t.gen.st = 3 ∧ t.gen.current = nextGen s ∧ t.gen.effectAt = none ∧
      t.gen.lastEffect = T ∧ t.md = s.md ∧ t.prot = s.prot ∧ t.mram = s.mram ∧ t.tab.vals = s.tab.vals ∧
      t.tab.fdb = s.tab.fdb ∧ t.tab.rules = s.tab.rules) ∧
  (∀ (receiving : List Nat) (s : State), s.gen.st = 3 → oldDrained s receiving = true →
    ∃ t, Sys2Proof.Machine.exec (.commitDrained receiving) s = .next t ∧ t.gen = { s.gen with st := 4 } ∧
      (∀ r ∈ t.tab.routes, r.r0 = r.r1) ∧ (∀ e ∈ t.tab.fdb, e.2.v0 = true ∧ e.2.v1 = true) ∧
      changesOnly [.tables, .generations, .engines, .registers] s t) ∧
  (∀ (receiving : List Nat) (s : State), (∃ ts ∈ receiving, ts < s.gen.lastEffect) →
    ∃ t, Sys2Proof.Machine.exec (.commitDrained receiving) s = .next t ∧ changesOnly [] s t) ∧
  (∀ s : State, s.gen.st = 4 → s.gen.waiter = none → s.gen.held = [] →
    ∃ t, Sys2Proof.Machine.exec .commitSettled s = .next t ∧ t.gen.st = 0 ∧ t.gen.completed = true ∧
      t.gen.current = s.gen.current ∧ changesOnly [.host, .generations, .registers] s t) ∧
  (∀ s : State, s.gen.st = 5 → s.gen.waiter = none → s.gen.held = [] →
    ∃ t, Sys2Proof.Machine.exec .discardDone s = .next t ∧ t.gen.st = 0 ∧ t.gen.dirty = false ∧ t.gen.learnPending = false ∧
      t.gen.autoFrom = none ∧ t.gen.current = s.gen.current ∧ (∀ r ∈ t.tab.routes, r.r0 = r.r1) ∧
      changesOnly [.tables, .generations, .engines, .registers] s t) ∧
  (∀ (t0 : Nat) (s : State), s.gen.autoFrom = some t0 → bit 16 (rg s R.genAutoCfg) = true → s.gen.st = 0 →
    s.md.mode = .stage ∨ s.md.mode = .run →
    (s.gen.dirty = false → ∃ t, Sys2Proof.Machine.exec .autoCommitDue s = .next t ∧ t.gen.st = 1 ∧ t.gen.auto = true ∧
      t.gen.timed = none ∧ changesOnly [.time, .generations, .counters, .registers, .masterTime, .elapsed] s t) ∧
    (s.gen.dirty = true → ∃ t, Sys2Proof.Machine.exec .autoCommitDue s = .next t ∧ t.gen.st = 0 ∧
      t.gen.autoFrom = some t.now ∧ changesOnly [.time, .generations, .counters, .registers, .masterTime, .elapsed] s t))

/-! ## Engines -/

/-- A frame at the front of an engine's input enters: in bypass its work there is done, with a registered program it takes a free
context with the entry registers and the first bytes of the frame, without a free context it waits (R359, R361 to R363). A cycle with no
context ready only counts in that engine; an ALU operation alone in a ready context's bundle writes its register and goes to the next
bundle (R360, R365, R367). A header operation alone loads a register, two cycles before it can be read, or changes the window (R366,
R368); one outside the window is fault 1, an insertion that would make it longer than 320 bytes fault 2, and the frame is discarded as
received, its fault counted and shown (R384). A branch goes forward, a slot whose guard does not hold does nothing (R364, R369). EMIT
ends the program with the window in place of the first bytes; with DROP the frame is discarded (R373). The data of an ESL is in g8 to
g15 (R371). A frame that was granted its growth cells carries its new header (R373). The oldest frame whose work is done goes on with
its copies, one in bypass not before 12 ns after it entered (R359, R396). Which context is issued is log entry 55, and the operand form
of LDS, STS and ADDS log entry 149. -/
def Obligations.EngineSteps : Prop :=
  (∀ (e f : Nat) (rest : List Nat) (y : Frame) (s : State), (engineAt s e).input = f :: rest → kvGet f s.buf.frames = some y →
    (y.prog = none → ∃ t, Sys2Proof.Machine.exec (.engineFrameEntry e) s = .next t ∧
      engineAt t e = { engineAt s e with
        input := rest, order := (engineAt s e).order ++ [{ frame := f, entered := s.now, done := true }] } ∧
      changesOnly [.engines, .counters, .registers] s t) ∧
    (∀ pr, y.prog = some pr → freeContexts (engineAt s e) = [] →
      ∃ t, Sys2Proof.Machine.exec (.engineFrameEntry e) s = .next t ∧ changesOnly [] s t) ∧
    (∀ pr, y.prog = some pr → freeContexts (engineAt s e) ≠ [] → (programAt s (e / 8) y.par pr).isSome = true →
      ∃ t c, Sys2Proof.Machine.exec (.engineFrameEntry e) s = .next t ∧
        engineAt t e = { engineAt s e with
          input := rest, order := (engineAt s e).order ++ [{ frame := f, entered := s.now, done := false }],
          contexts := (engineAt s e).contexts ++ [c] } ∧
        c.num ∈ freeContexts (engineAt s e) ∧ c.frame = f ∧ c.pc = pr ∧ c.preds = 0 ∧
        c.window = y.bytes.take (min (y.bytes.length - 4) 256) ∧ c.regs = entryRegs y c.window.length ∧
        changesOnly [.engines, .counters, .registers, .freeCount] s t)) ∧
  (∀ (e corrected : Nat) (x : Engine) (s : State), engineAt s e = x →
    (x.contexts.find? (fun z => contextReady (bundleAt s (e / 8) (frame s z.frame).par z.pc) (x.cycle + 1) z) = none →
      ∃ t, Sys2Proof.Machine.exec (.bundleIssue e corrected []) s = .next t ∧ engineAt t e = { x with cycle := x.cycle + 1 } ∧
        changesOnly [.engines, .counters, .registers] s t) ∧
    (∀ y w v, x.contexts.find? (fun z => contextReady (bundleAt s (e / 8) (frame s z.frame).par z.pc) (x.cycle + 1) z) = some y →
      bundleAt s (e / 8) (frame s y.frame).par y.pc = [w, 0, 0, 0] →
      s.eng.bad.contains (e / 8, 0, bundleKey (e / 8) (frame s y.frame).par y.pc) = false →
      guardHolds w y.preds = true → aluResult y.regs w = some v →
      ∃ t, Sys2Proof.Machine.exec (.bundleIssue e corrected []) s = .next t ∧
        engineAt t e = { x with
          cycle := x.cycle + 1,
          contexts := x.contexts.map fun d => if d.num = y.num then
            { y with pc := y.pc + 1, regs := y.regs.set (fld 21 18 w) (v % 2 ^ 32),
                     waits := y.waits.filter fun r => decide (x.cycle + 1 < r.2) } else d } ∧
        changesOnly [.engines, .counters, .registers] s t) ∧
    (∀ y w n off h v, x.contexts.find? (fun z => contextReady (bundleAt s (e / 8) (frame s z.frame).par z.pc) (x.cycle + 1) z) = some y →
      bundleAt s (e / 8) (frame s y.frame).par y.pc = [0, 0, w, 0] →
      s.eng.bad.contains (e / 8, 0, bundleKey (e / 8) (frame s y.frame).par y.pc) = false → guardHolds w y.preds = true →
      n = fld 24 21 w + 1 → off = fld 20 12 w + (if bit 11 w then nth 0 y.regs (fld 10 7 w) % 512 else 0) → h = y.window →
      (fld 27 25 w = 1 → off + n ≤ h.length →
        ∃ t, Sys2Proof.Machine.exec (.bundleIssue e corrected []) s = .next t ∧
          engineAt t e = { x with
            cycle := x.cycle + 1,
            contexts := x.contexts.map fun d => if d.num = y.num then
              { y with pc := y.pc + 1, regs := y.regs.set (fld 6 3 w) (beN h off n % 2 ^ 32),
                       waits := y.waits.filter (fun r => decide (x.cycle + 1 < r.2)) ++ [(fld 6 3 w, x.cycle + 3)] } else d } ∧
          changesOnly [.engines, .counters, .registers] s t) ∧
      (fld 27 25 w = 2 ∧ off + n ≤ h.length ∧ v = patch h off (toBE n (nth 0 y.regs (fld 6 3 w))) ∨
        fld 27 25 w = 3 ∧ off ≤ h.length ∧ h.length + n ≤ 320 ∧ v = h.take off ++ List.replicate n 0 ++ h.drop off ∨
        fld 27 25 w = 4 ∧ off + n ≤ h.length ∧ v = h.take off ++ h.drop (off + n) ∨
        fld 27 25 w = 5 ∧ off + n ≤ h.length ∧ nth 0 y.regs (fld 6 3 w) % 512 + n ≤ h.length ∧
          v = patch h off ((h.drop (nth 0 y.regs (fld 6 3 w) % 512)).take n) →
        ∃ t, Sys2Proof.Machine.exec (.bundleIssue e corrected []) s = .next t ∧
          engineAt t e = { x with
            cycle := x.cycle + 1,
            contexts := x.contexts.map fun d => if d.num = y.num then
              { y with pc := y.pc + 1, window := v, waits := y.waits.filter fun r => decide (x.cycle + 1 < r.2) } else d } ∧
          changesOnly [.engines, .counters, .registers] s t) ∧
      (∀ cause fr, fld 27 25 w ∈ [1, 2, 4, 5] ∧ h.length < off + n ∧ cause = 1 ∨
          fld 27 25 w = 5 ∧ h.length < nth 0 y.regs (fld 6 3 w) % 512 + n ∧ cause = 1 ∨
          fld 27 25 w = 3 ∧ h.length < off ∧ cause = 1 ∨
          fld 27 25 w = 3 ∧ off ≤ h.length ∧ 320 < h.length + n ∧ cause = 2 →
        kvGet y.frame s.buf.frames = some fr → fr.fate = 0 → RegsCanonical s → e < 64 →
        ∃ t, Sys2Proof.Machine.exec (.bundleIssue e corrected []) s = .next t ∧
          (∀ z ∈ (engineAt t e).contexts, z.frame ≠ y.frame) ∧ (engineAt t e).input = x.input ∧
          (kvGet y.frame t.buf.frames).map (fun z => (z.fate, z.bytes, z.fwdLeft)) = some (0xC, fr.bytes, 0) ∧
          rg t (R.engFaultCnt (e / 8) cause) = (rg s (R.engFaultCnt (e / 8) cause) + 1) % 2 ^ 32 ∧
          rg t (R.engFaultLast (e / 8)) = (cause + e % 8 * 2 ^ 4 + y.num * 2 ^ 7 + y.pc * 2 ^ 13) % 2 ^ 32 ∧
          rg t (R.engFaultPort (e / 8)) = fr.inPort % 2 ^ 32 ∧ bit 0 (rg t (R.engEvt (e / 8))) = true ∧
          changesOnly [.host, .accounts, .buffer, .engines, .recorder, .counters, .registers, .hostMemory, .freeCount] s t)) ∧
    (∀ y w, x.contexts.find? (fun z => contextReady (bundleAt s (e / 8) (frame s z.frame).par z.pc) (x.cycle + 1) z) = some y →
      bundleAt s (e / 8) (frame s y.frame).par y.pc = [0, 0, 0, w] →
      s.eng.bad.contains (e / 8, 0, bundleKey (e / 8) (frame s y.frame).par y.pc) = false →
      (fld 27 24 w = 1 ∨ guardHolds w y.preds = false →
        ∃ t, Sys2Proof.Machine.exec (.bundleIssue e corrected []) s = .next t ∧
          engineAt t e = { x with
            cycle := x.cycle + 1,
            contexts := x.contexts.map fun d => if d.num = y.num then
              { y with pc := y.pc + 1 + (if guardHolds w y.preds then fld 12 0 w else 0),
                       waits := y.waits.filter fun r => decide (x.cycle + 1 < r.2) } else d } ∧
          changesOnly [.engines, .counters, .registers] s t) ∧
      (∀ fr, fld 27 24 w = 6 → guardHolds w y.preds = true → fld 23 20 w = 0 ∨ fld 23 20 w = 1 →
        kvGet y.frame s.buf.frames = some fr → fr.fate = 0 → pastDeadline fr s = false → 14 ≤ y.window.length →
        cellsOf (y.window.length + (fr.bytes.length - y.loaded)) ≤ fr.chain.length →
        ∃ t z, Sys2Proof.Machine.exec (.bundleIssue e corrected []) s = .next t ∧
          (∀ d ∈ (engineAt t e).contexts, d.frame ≠ y.frame) ∧ kvGet y.frame t.buf.frames = some z ∧
          z.bytes = y.window ++ fr.bytes.drop y.loaded ∧ z.meta16 = (if bit 11 w then nth 0 y.regs 1 % 65536 else fr.meta16) ∧
          (fld 23 20 w = 1 → z.fate = 7 ∧ z.fwdLeft = 0) ∧
          changesOnly [.host, .accounts, .links, .buffer, .engines, .recorder, .counters, .registers, .hostMemory, .freeCount] s t))) ∧
  (∀ (e num corrected a : Nat) (y : Context) (ws : List Nat) (s : State),
    (engineAt s e).contexts.find? (fun z => z.num == num && z.parked.isSome) = some y → y.parked = some a → y.regs.length = 16 →
    (∀ k < 8, kvGet (a / 4 + k) s.eng.store = some (nth 0 ws k)) →
    ∃ t z, Sys2Proof.Machine.exec (.eslDataReturn e num corrected) s = .next t ∧ z ∈ (engineAt t e).contexts ∧ z.num = num ∧
      z.frame = y.frame ∧ z.parked = none ∧ z.pc = y.pc ∧ (∀ k < 8, nth 0 z.regs (8 + k) = nth 0 ws k) ∧
      (∀ k < 8, nth 0 z.regs k = nth 0 y.regs k) ∧ t.eng.store = s.eng.store ∧
      changesOnly [.engines, .counters, .registers] s t) ∧
  (∀ (e num w more : Nat) (y : Context) (x : Frame) (s : State),
    (engineAt s e).contexts.find? (fun z => z.num == num && z.growing.isSome) = some y → y.growing = some (w, more) →
    kvGet y.frame s.buf.frames = some x → pastDeadline x s = false → 14 ≤ y.window.length → fld 23 20 w = 0 →
    2048 + (cellsOf (y.window.length + (x.bytes.length - y.loaded)) - x.chain.length) ≤ freeBasin s →
    ∃ t, Sys2Proof.Machine.exec (.growthCellRetry e num) s = .next t ∧
      (∀ z ∈ (engineAt t e).contexts, z.frame ≠ y.frame) ∧
      (kvGet y.frame t.buf.frames).map (·.bytes) = some (y.window ++ x.bytes.drop y.loaded) ∧
      changesOnly [.host, .accounts, .links, .buffer, .engines, .recorder, .counters, .registers, .hostMemory, .freeCount] s t) ∧
  (∀ (e : Nat) (o : EngineSlot) (os : List EngineSlot) (y : Frame) (s : State), (engineAt s e).order = o :: os →
    kvGet o.frame s.buf.frames = some y →
    (o.done = false → ∃ t, Sys2Proof.Machine.exec (.engineHandoff e) s = .next t ∧ changesOnly [] s t) ∧
    (o.done = true → y.copies ≠ [] →
      ∃ t, Sys2Proof.Machine.exec (.engineHandoff e) s = .next t ∧ engineAt t e = { engineAt s e with order := os } ∧
        t.buf.plan = s.buf.plan ++ y.copies ∧
        (kvGet o.frame t.buf.frames).map (·.holders) = some (y.copies.map (·.port)) ∧
        (y.prog.isSome = true → t.now = s.now ∧ changesOnly [.buffer, .engines] s t) ∧
        (y.prog = none → s.tim.stopped = false → o.entered + nsT 12 < Config.timeMod →
          o.entered + nsT 12 ≤ t.now) ∧
        changesOnly [.time, .buffer, .engines, .counters, .registers, .masterTime, .elapsed] s t))

/-- The commands of ENG through the table command register: a program that passes the loader's checks is registered in the staged bank of
each cluster named, with its bundles, and W is answered; UNLOAD ends a registration; TBL_WRITE writes words of the staged table bank;
the running bank keeps its programs; ENG_READ and TBL_READ return the bank of the parity they name, ES_WRITE and ES_READ move words of
the engine store (R377, R388, R389). -/
def Obligations.EngineCommands : Prop :=
  ∀ (c : Cmd) (s : State),
    (∀ cs start n w esl, tcmdReady engLoad c s → bit 0 (rg s R.prtEnable) = true → cs = maskClusters (bodyWord c 0x14) →
      (∀ k ∈ cs, unitSt s 9 (80 + k) = 0) → start = fld 12 0 (bodyWord c 0x14) → n = fld 13 0 (bodyWord c 0x18) → 0 < n → n ≤ 8192 →
      dataBytes c = 16 * n → loadCheck s cs start (bundlesOf n (bufBytes c s)) = .inr (w, esl) →
      ∃ t r, Sys2Proof.Machine.exec (.load c) s = .next t ∧ tcmdAnswered engLoad c 0 (toLE 4 w ++ r) t ∧
        (∀ k ∈ cs, programAt t k (stagedPar s) start = some { len := n, w := w, esl := esl }) ∧
        (∀ k ∈ cs, ∀ i < n, bundleAt t k (stagedPar s) (start + i) = nth [] (bundlesOf n (bufBytes c s)) i) ∧
        (∀ k a, a < 8192 → programAt t k (curPar s) a = programAt s k (curPar s) a ∧
          bundleAt t k (curPar s) a = bundleAt s k (curPar s) a) ∧
        t.gen = { s.gen with dirty := true } ∧ changesOnly [.generations, .engines, .counters, .registers] s t) ∧
    (∀ cs start, tcmdReady engUnload c s → bit 0 (rg s R.prtEnable) = true → cs = maskClusters (bodyWord c 0x08) →
      (∀ k ∈ cs, unitSt s 9 (80 + k) = 0) → start = fld 12 0 (bodyWord c 0x08) → keyed s.eng.programs →
      (∀ k ∈ cs, (programAt s k (stagedPar s) start).isSome = true) →
      ∃ t, Sys2Proof.Machine.exec (.unload c) s = .next t ∧ tcmdAnswered engUnload c 0 [] t ∧
        (∀ k ∈ cs, programAt t k (stagedPar s) start = none) ∧
        (∀ k a, a < 8192 → programAt t k (curPar s) a = programAt s k (curPar s) a) ∧
        t.gen = { s.gen with dirty := true } ∧ registersBut tcmdRegs s t ∧
        changesOnly [.generations, .engines, .registers] s t) ∧
    (∀ k start n, tcmdReady Machine.engRead c s → maskClusters (bodyWord c 0x14) = [k] → start = fld 12 0 (bodyWord c 0x14) →
      n = fld 13 0 (bodyWord c 0x18) → 0 < n → start + n ≤ 8192 → dataBytes c = 16 * n →
      ∃ t, Sys2Proof.Machine.exec (.engRead c) s = .next t ∧ tcmdAnswered Machine.engRead c 0 [] t ∧
        t.hmem = bufWritten c ((List.range n).flatMap fun i =>
          bytesOfWords (bundleAt s k (fld 16 16 (bodyWord c 0x18)) (start + i))) s ∧
        changesOnly [.counters, .registers, .hostMemory] s t) ∧
    (∀ cs off n, tcmdReady engTblWrite c s → bit 0 (rg s R.prtEnable) = true → cs = maskClusters (bodyWord c 0x14) →
      (∀ k ∈ cs, unitSt s 9 (80 + k) = 0) → off = fld 15 0 (bodyWord c 0x14) → n = dataBytes c → off % 8 = 0 → off + n ≤ 65536 →
      ∃ t, Sys2Proof.Machine.exec (.tblWrite c) s = .next t ∧ tcmdAnswered engTblWrite c 0 [] t ∧
        (∀ k ∈ cs, ∀ i < n / 4, kvGetD 0 (bankKey k (stagedPar s) (off / 4 + i)) t.eng.banks =
          nth 0 (wordsLE (n / 4) (bufBytes c s)) i) ∧
        (∀ k i, i < 16384 → kvGetD 0 (bankKey k (curPar s) i) t.eng.banks = kvGetD 0 (bankKey k (curPar s) i) s.eng.banks) ∧
        t.gen = { s.gen with dirty := true } ∧ changesOnly [.generations, .engines, .counters, .registers] s t) ∧
    (∀ k off n, tcmdReady engTblRead c s → maskClusters (bodyWord c 0x14) = [k] → off = fld 15 0 (bodyWord c 0x14) →
      n = dataBytes c → off % 8 = 0 → off + n ≤ 65536 →
      ∃ t, Sys2Proof.Machine.exec (.tblRead c) s = .next t ∧ tcmdAnswered engTblRead c 0 [] t ∧
        t.hmem = bufWritten c (bytesOfWords ((List.range (n / 4)).map fun i =>
          kvGetD 0 (bankKey k (fld 16 16 (bodyWord c 0x18)) (off / 4 + i)) s.eng.banks)) s ∧
        changesOnly [.counters, .registers, .hostMemory] s t) ∧
    (∀ off n, off = ofLE (bodyAt c 0x14 8) → n = dataBytes c → storeRun s off n = true → storeLost s off n = false →
      (tcmdReady engEsWrite c s →
        ∃ t, Sys2Proof.Machine.exec (.esWrite c) s = .next t ∧ tcmdAnswered engEsWrite c 0 [] t ∧
          (∀ i < n / 4, kvGet (off / 4 + i) t.eng.store = some (nth 0 (wordsLE (n / 4) (bufBytes c s)) i)) ∧
          (∀ j, j < off / 4 ∨ off / 4 + n / 4 ≤ j → kvGet j t.eng.store = kvGet j s.eng.store) ∧
          changesOnly [.engines, .counters, .registers] s t) ∧
      (∀ ws, tcmdReady engEsRead c s → ws.length = n / 4 → (∀ i < n / 4, kvGet (off / 4 + i) s.eng.store = some (nth 0 ws i)) →
        ∃ t, Sys2Proof.Machine.exec (.esRead c) s = .next t ∧ tcmdAnswered engEsRead c 0 [] t ∧
          t.hmem = bufWritten c (bytesOfWords ws) s ∧ changesOnly [.engines, .counters, .registers, .hostMemory] s t))

/-! ## Buffers -/

/-- A slice accepts the oldest frame before it and takes its cells: one in direct form, staged or well formed, goes on with one copy for
its port, on the queue of its priority (R90, R270, R396); an error frame not wanted by the host is gone with fate 5 (R203), and one
beyond its credit with fate 0xE (R183). From the fence on no slice accepts one (R61). Below the floor a lossless frame waits in its
slice, where EMPTY_RETRY takes it once there is room, and another is gone with fate 0xD (R397, R399). The order in which a slice judges
a frame is log entry 45, frames of STAGE and of a fence log entry 46, where EMPTY is checked log entry 48 and a malformed direct-form
frame log entry 155. -/
def Obligations.FramesAccepted : Prop :=
  (∀ (c : Instr) (sl d : Nat) (errs : List (Nat × Nat)) (w : Incoming) (ws : List Incoming) (s : State),
    hostOpen s = true → s.md.faultPending = false → kvGetD [] sl s.lk.ingress = w :: ws →
    (c = .frameArrival sl errs ∧ s.buf.holding.contains sl = false ∨ c = .emptyRetry sl ∧ s.buf.holding.contains sl = true) →
    handlingFor s w ≠ .refused → (handlingFor s w = .staged ∨ (arrivingFrame w sl s).parsed.mal = 0) →
    w.err = 0 → w.overrun = false → w.direct.map (·.1) = some d → emptyFor s w.bytes.length = false →
    ∃ t x, Sys2Proof.Machine.exec c s = .next t ∧ kvGetD [] sl t.lk.ingress = ws ∧ t.buf.holding.contains sl = false ∧
      t.buf.arrivals = s.buf.arrivals ++ [s.buf.nextFrame + 1] ∧ t.buf.nextFrame = s.buf.nextFrame + 1 ∧
      kvGet (s.buf.nextFrame + 1) t.buf.frames = some x ∧ x.bytes = w.bytes ∧ x.inPort = w.port ∧ x.par = (arrivingFrame w sl s).par ∧
      x.prio = (arrivingFrame w sl s).prio ∧ x.chain.length = cellsOf w.bytes.length ∧
      x.copies.map (fun y => (y.port, y.queue, y.fwd)) = [(d, x.prio, true)] ∧
      (∀ k, k ≠ s.buf.nextFrame + 1 → kvGet k t.buf.frames = kvGet k s.buf.frames) ∧
      changesOnly [.accounts, .links, .buffer, .counters, .registers, .freeCount] s t) ∧
  (∀ (sl fate : Nat) (errs : List (Nat × Nat)) (w : Incoming) (ws : List Incoming) (s : State),
    hostOpen s = true → s.md.faultPending = false → kvGetD [] sl s.lk.ingress = w :: ws → s.buf.holding.contains sl = false →
    keyed s.buf.frames →
    (fate = 5 ∧ w.overrun = false ∧ handlingFor s w ≠ .refused ∧ w.err ≠ 0 ∧ bit 1 (cuAt s w.ts (R.macCfg w.port)) = false ∨
      fate = 0xE ∧ w.overrun = true) →
    ∃ t, Sys2Proof.Machine.exec (.frameArrival sl errs) s = .next t ∧ kvGetD [] sl t.lk.ingress = ws ∧
      t.buf.arrivals = s.buf.arrivals ∧ kvGet (s.buf.nextFrame + 1) t.buf.frames = none ∧
      t.acct = modNth (AcctSet.settle (arrivingFrame w sl s).par fate)
        (modNth (AcctSet.arrive (arrivingFrame w sl s).par) s.acct (acctOf w.port)) (acctOf w.port) ∧
      changesOnly [.host, .accounts, .links, .buffer, .recorder, .counters, .registers, .hostMemory, .freeCount] s t) ∧
  (∀ (sl : Nat) (errs : List (Nat × Nat)) (s : State), hostOpen s = false ∨ s.md.faultPending = true →
    ∃ t, Sys2Proof.Machine.exec (.frameArrival sl errs) s = .next t ∧ changesOnly [] s t) ∧
  (∀ (c : Instr) (sl : Nat) (errs : List (Nat × Nat)) (w : Incoming) (ws : List Incoming) (s : State),
    hostOpen s = true → s.md.faultPending = false → kvGetD [] sl s.lk.ingress = w :: ws →
    (c = .frameArrival sl errs ∧ s.buf.holding.contains sl = false ∨ c = .emptyRetry sl ∧ s.buf.holding.contains sl = true) →
    emptyFor s w.bytes.length = true → goneAnyway s w (handlingFor s w) = false →
    ((arrivingFrame w sl s).lossless = true →
      ∃ t, Sys2Proof.Machine.exec c s = .next t ∧ t.lk = s.lk ∧ t.buf.holding.contains sl = true ∧ t.buf.frames = s.buf.frames ∧
        changesOnly [.buffer, .counters, .registers] s t) ∧
    ((arrivingFrame w sl s).lossless = false → keyed s.buf.frames →
      ∃ t, Sys2Proof.Machine.exec c s = .next t ∧ kvGetD [] sl t.lk.ingress = ws ∧ t.buf.arrivals = s.buf.arrivals ∧
        kvGet (s.buf.nextFrame + 1) t.buf.frames = none ∧
        t.acct = modNth (AcctSet.settle (arrivingFrame w sl s).par 0xD)
          (modNth (AcctSet.arrive (arrivingFrame w sl s).par) s.acct (acctOf w.port)) (acctOf w.port)))

/-- The buffer core admits the oldest arrival, whose charge its pair takes and which goes to the engine of its slice's cluster that
carries its bucket, or discards it as 0xE or 0xD (R14, R359, R407, R408). A free is carried out for a holder by the unit that may
present it, the last one freeing the frame; a pointer out of its form is rejected and counted (R394, R400 to R402). A spilled frame lies
in its reservoir chain; above the floor a refill takes at most 16 cells a burst, and with the last one the frame is back in the basin
(R417 to R419). At each millisecond the deadline wheel moves, and an overdue frame that waits for its engine is gone with fate 0xF; one
whose work there is done keeps its place in the engine's order and loses its copies (R414, R415). The rider suspects a frame that
nothing refers to, and counts it as leaked after the time set (R426); one that finds a chain broken, or a sideband beyond correction, is
fatal (R60, R404, R425). A pass that counts as many free cells as the manager raises nothing, and one that counts another number sets
its sticky bit (R425). -/
def Obligations.BufferCore : Prop :=
  (∀ (f : Nat) (rest : List Nat) (x : Frame) (i c : Nat) (s : State), s.buf.arrivals = f :: rest → kvGet f s.buf.frames = some x →
    i = 8 * x.inPort + x.prio → c = chargeOf s x.inPort x.bytes.length → keyed s.buf.frames → keyed s.buf.pairs →
    (∀ head e, admits s i c = some head →
      e = 8 * portSlice x.inPort + (carried s x.par 2 (portSlice x.inPort) (fld 15 8 x.hash)).getD 0 →
      ∃ t y, Sys2Proof.Machine.exec .admission s = .next t ∧ t.buf.arrivals = rest ∧ t.buf.plan = s.buf.plan ∧
        (pairOf t i).a = (pairOf s i).a + c ∧ kvGet f t.buf.frames = some y ∧ y.charge = c ∧ y.headroom = head ∧
        y.copies = x.copies ∧ (engineAt t e).input = (engineAt s e).input ++ [f] ∧
        (∀ k, k ≠ e → engineAt t k = engineAt s k) ∧ changesOnly [.links, .buffer, .engines] s t) ∧
    (admits s i c = none → x.fate = 0 →
      ∃ t, Sys2Proof.Machine.exec .admission s = .next t ∧ t.buf.arrivals = rest ∧ t.buf.plan = s.buf.plan ∧
        kvGet f t.buf.frames = none ∧
        t.acct = modNth (AcctSet.settle x.par (if pairLossless s i then 0xE else 0xD)) s.acct (acctOf x.inPort) ∧
        changesOnly [.host, .accounts, .links, .buffer, .recorder, .counters, .registers, .hostMemory] s t)) ∧
  (∀ (ptr holder req : Nat) (s : State),
    (ptrOk s ptr = false → RegsCanonical s →
      ∃ t, Sys2Proof.Machine.exec (.freeRequest ptr holder req) s = .next t ∧
        rg t R.bpmBadPtr = (rg s R.bpmBadPtr + 1) % 2 ^ 32 ∧ t.buf.frames = s.buf.frames ∧
        changesOnly [.host, .buffer, .registers] s t) ∧
    (∀ f x, ptrOk s ptr = true → frameAt s ptr = some (f, x) → keyed s.buf.frames → mayFree x holder req = true → holder ≠ 0x1FF →
      x.holders.contains holder = true →
      (x.holders.filter (· ≠ holder) ≠ [] →
        ∃ t, Sys2Proof.Machine.exec (.freeRequest ptr holder req) s = .next t ∧
          kvGet f t.buf.frames = some { x with holders := x.holders.filter (· ≠ holder), touched := true } ∧
          (∀ g, g ≠ f → kvGet g t.buf.frames = kvGet g s.buf.frames) ∧ changesOnly [.buffer] s t) ∧
      (x.holders.filter (· ≠ holder) = [] →
        ∃ t, Sys2Proof.Machine.exec (.freeRequest ptr holder req) s = .next t ∧ kvGet f t.buf.frames = none ∧
          (∀ g, g ≠ f → kvGet g t.buf.frames = kvGet g s.buf.frames) ∧
          changesOnly [.links, .buffer, .counters, .registers] s t))) ∧
  (∀ (ch ecc : Nat) (r : Nat × Nat × List Nat) (x : Frame) (s : State), s.buf.spilling.find? (fun r => r.2.1 == ch) = some r →
    kvGet r.1 s.buf.frames = some x → ecc ≤ 2 →
    ∃ t, Sys2Proof.Machine.exec (.spillWriteComplete ch ecc) s = .next t ∧ t.buf.spilling = s.buf.spilling.erase r ∧
      kvGet r.1 t.buf.frames = some { x with
        spilled := true, channel := ch, chain := r.2.2, low := 0, touched := true, damaged := x.damaged || decide (ecc = 2) } ∧
      changesOnly [.links, .buffer, .counters, .registers] s t) ∧
  (∀ (p q f corrected ecc : Nat) (x : Frame) (s : State), kvGet f s.buf.frames = some x →
    ((refillCandidates s p q).find? (fun f => decide ((refillCells s f).length < (frame s f).chain.length)) = some f →
      2048 < freeBasin s → ecc ≤ 1 →
      ∃ t new, Sys2Proof.Machine.exec (.refillBurst p q corrected ecc) s = .next t ∧ refillCells t f = refillCells s f ++ new ∧ new ≠ [] ∧
        new.length ≤ 16 ∧ (refillCells t f).length ≤ x.chain.length ∧
        changesOnly [.links, .buffer, .counters, .registers, .freeCount] s t) ∧
    ((refillCandidates s p q).find? (fun f => decide ((refillCells s f).length = (frame s f).chain.length)) = some f →
      ∃ t, Sys2Proof.Machine.exec (.refillReturn p q) s = .next t ∧
        kvGet f t.buf.frames = some { x with spilled := false, chain := refillCells s f, touched := true } ∧ refillCells t f = [] ∧
        changesOnly [.links, .buffer, .counters, .registers] s t)) ∧
  (∀ (u : State) (s : State), u = reach ((s.now / msT 1 + 1) * msT 1) s →
    (overdueFrames u = [] → ∃ t, Sys2Proof.Machine.exec .lifetimeTick s = .next t ∧ t = u ∧
      changesOnly [.time, .counters, .registers, .masterTime, .elapsed] s t) ∧
    (∀ f e x y, overdueFrames u = [f] → u.eng.engines.find? (fun e => e.2.input.contains f) = some (e, x) →
      kvGet f u.buf.frames = some y → keyed u.buf.frames → y.fate = 0 →
      ∃ t, Sys2Proof.Machine.exec .lifetimeTick s = .next t ∧ kvGet f t.buf.frames = none ∧ f ∉ (engineAt t e).input ∧
        t.acct = modNth (AcctSet.settle y.par 0xF) u.acct (acctOf y.inPort)) ∧
    (∀ f y, overdueFrames u = [f] → (∀ e ∈ u.eng.engines, f ∉ e.2.input) →
      (∃ e ∈ u.eng.engines, ∃ o ∈ e.2.order, o.frame = f ∧ o.done = true) → (∀ c ∈ u.buf.plan, c.frame ≠ f) →
      (∀ k ∈ u.eg.queues, ∀ c ∈ k.2.copies, c.frame ≠ f) → kvGet f u.buf.frames = some y → keyed u.buf.frames → y.fate = 0 →
      ∃ t, Sys2Proof.Machine.exec .lifetimeTick s = .next t ∧ t.eng = u.eng ∧
        (kvGet f t.buf.frames).map (fun z => (z.copies, z.fate)) = some ([], 0xF) ∧
        t.acct = modNth (AcctSet.settle y.par 0xF) u.acct (acctOf y.inPort))) ∧
  (∀ (ptr f : Nat) (x : Frame) (s : State), hostOpen s = true → frameAt s ptr = some (f, x) →
    (refsOf s f ≠ 0 → x.suspect = none →
      ∃ t, Sys2Proof.Machine.exec (.riderVisit ptr false 0) s = .next t ∧ changesOnly [] s t) ∧
    (refsOf s f ≠ 0 → x.suspect.isSome = true →
      ∃ t, Sys2Proof.Machine.exec (.riderVisit ptr false 0) s = .next t ∧ kvGet f t.buf.frames = some { x with suspect := none } ∧
        changesOnly [.buffer] s t) ∧
    (refsOf s f = 0 → x.suspect = none →
      ∃ t, Sys2Proof.Machine.exec (.riderVisit ptr false 0) s = .next t ∧
        kvGet f t.buf.frames = some { x with suspect := some s.elapsed, touched := false } ∧ changesOnly [.buffer] s t) ∧
    (∀ since, refsOf s f = 0 → x.suspect = some since → x.touched = false → x.leaked = false →
      since + msT (cuF s R.bpmRiderCfg 15 0) ≤ s.elapsed → RegsCanonical s →
      ∃ t, Sys2Proof.Machine.exec (.riderVisit ptr false 0) s = .next t ∧ kvGet f t.buf.frames = some { x with leaked := true } ∧
        rg t R.bpmLeaks = (rg s R.bpmLeaks + 1) % 2 ^ 32 ∧ bit 6 (rg t R.bpmStatus) = true ∧
        (t.buf.leaks.any fun l => l.frame == f) = true ∧ changesOnly [.host, .buffer, .registers] s t)) ∧
  (∀ (ptr ecc : Nat) (broken : Bool) (s : State), hostOpen s = true → s.md.fenced = false → s.md.faultPending = false →
    broken = true ∨ 2 ≤ ecc →
    ∃ t, Sys2Proof.Machine.exec (.riderVisit ptr broken ecc) s = .next t ∧ t.md.faultPending = true ∧ t.md.faultCode = 0x0001 ∧
      t.md.faultIsland = 92 ∧ t.pins.faultN = true) ∧
  (∀ (res : Bool) (s : State), hostOpen s = true →
    ∃ t, Sys2Proof.Machine.exec (.riderPassEnd res (if res then freeRes s else freeBasin s)) s = .next t ∧
      (res = true → t.buf = { s.buf with
        lastResPass := passLength s s.buf.resPassFrom (msT 1), resPassFrom := s.elapsed }) ∧
      (res = false → t.buf = { s.buf with lastPass := passLength s s.buf.passFrom (usT 100), passFrom := s.elapsed }) ∧
      changesOnly [.buffer] s t) ∧
  (∀ (res : Bool) (n : Nat) (s : State), hostOpen s = true → RegsCanonical s → n ≠ (if res then freeRes s else freeBasin s) →
    ∃ t, Sys2Proof.Machine.exec (.riderPassEnd res n) s = .next t ∧ bit 5 (rg t R.bpmStatus) = true ∧
      (if res then t.buf.resPassFrom else t.buf.passFrom) = s.elapsed ∧ changesOnly [.host, .buffer, .registers] s t)

/-- The commands of BPM, GCL and SCH: a snapshot holds the nine account sets and their master time (R423); RECLAIM frees a leaked
frame with fate 0x16 (R427); READ_RECORD, LEAK_LIST and READ_ACCOUNT return records, leaks and pairs, AUDIT_NOW begins a pass (R430, R431);
WRITE_ENTRIES changes the staged gate entries alone, READ_ENTRIES returns those of the parity named, SCH_READ_COUNTERS returns a port's
96 counters and clears them (R459, R463, R464). -/
def Obligations.BufferAndScheduleCommands : Prop :=
  (∀ s : State, pf0Open R.bpmSnapCmd s → s.acct.all AcctSet.ok = true →
    ∃ t, Sys2Proof.Machine.exec (.snapshot none) s = .next t ∧ t.buf.snaps = s.acct ∧ t.buf.snapAt = s.now ∧
      t.buf.snapCount = (s.buf.snapCount + 1) % 2 ^ 32 ∧ t.acct = s.acct ∧ changesOnly [.buffer] s t) ∧
  (∀ (c : Cmd) (s : State),
    (tcmdReady bpmSnapshot c s → s.acct.all AcctSet.ok = true →
      ∃ t, Sys2Proof.Machine.exec (.snapshot (some c)) s = .next t ∧
        tcmdAnswered bpmSnapshot c 0 (toLE 8 (tSec s.now) ++ toLE 4 (tNs s.now) ++ toLE 4 ((s.buf.snapCount + 1) % 2 ^ 32)) t ∧
        t.buf.snaps = s.acct ∧ t.buf.snapAt = s.now ∧ registersBut tcmdRegs s t ∧ changesOnly [.buffer, .registers] s t) ∧
    (∀ f x, tcmdReady bpmReclaim c s → handleFrame s (ofLE (bodyAt c 0x08 8)) = some (f, x) → keyed s.buf.frames →
      (s.buf.leaks.any fun l => l.frame == f) = true → refsOf s f = 0 → x.touched = false → x.fate = 0 →
      ∃ t, Sys2Proof.Machine.exec (.reclaim c) s = .next t ∧
        tcmdAnswered bpmReclaim c 0 (toLE 4 x.chain.length ++ toLE 4 0x16) t ∧ kvGet f t.buf.frames = none ∧
        (t.buf.leaks.any fun l => l.frame == f) = false ∧
        t.acct = modNth (AcctSet.settle x.par 0x16) s.acct (acctOf x.inPort) ∧
        changesOnly [.host, .accounts, .links, .buffer, .recorder, .counters, .registers, .hostMemory] s t) ∧
    (∀ f x, tcmdReady bpmReadRecord c s → dataBytes c = 80 → handleFrame s (ofLE (bodyAt c 0x14 8)) = some (f, x) →
      (∀ i us, x.grown = some (i, us) → 0 < i) →
      ∃ t ecc, Sys2Proof.Machine.exec (.readRecord c) s = .next t ∧ tcmdAnswered bpmReadRecord c 0 [] t ∧
        t.hmem = bufWritten c (recordOf x ++ (toLE 4 ((x.chain[1]?).getD 0xFFFFFFFF) ++ toLE 4 (x.requester + 2 ^ 9) ++
          toLE 4 x.stampUs ++ toLE 4 (ecc % 256))) s ∧
        changesOnly [.counters, .registers, .hostMemory, .freeCount] s t) ∧
    (tcmdReady bpmLeakList c s → dataBytes c = 512 →
      ∃ t, Sys2Proof.Machine.exec (.leakList c) s = .next t ∧ tcmdAnswered bpmLeakList c 0 [] t ∧
        t.hmem = bufWritten c (((s.buf.leaks.flatMap fun (l : Leak) =>
          toLE 8 (handleOf l.ptr) ++ toLE 4 (satTo 0xFFFFFFFF l.ageUs) ++ toLE 4 (l.lastQueue + l.cells * 2 ^ 12 + 2 ^ 31)) ++
            List.replicate 512 0).take 512) s ∧
        changesOnly [.counters, .registers, .hostMemory] s t) ∧
    (tcmdReady bpmAuditNow c s →
      ∃ t, Sys2Proof.Machine.exec (.auditNow c) s = .next t ∧ tcmdAnswered bpmAuditNow c 0 [] t ∧
        t.buf = { s.buf with passFrom := s.elapsed, resPassFrom := s.elapsed } ∧ registersBut tcmdRegs s t ∧
        changesOnly [.buffer, .registers] s t) ∧
    (∀ i n, tcmdReady bpmReadAccount c s → i = fld 11 0 (bodyWord c 0x14) → n = fld 11 0 (bodyWord c 0x18) → 1 ≤ n →
      i + n ≤ 2176 → dataBytes c = 8 * n →
      ∃ t, Sys2Proof.Machine.exec (.readAccount c) s = .next t ∧ tcmdAnswered bpmReadAccount c 0 [] t ∧
        t.hmem = bufWritten c ((List.range n).flatMap fun k =>
          toLE 4 (pairOf s (i + k)).a ++ toLE 4 ((pairOf s (i + k)).hr + b2n (pairOf s (i + k)).xoff * 2 ^ 16)) s ∧
        changesOnly [.counters, .registers, .hostMemory] s t) ∧
    (∀ p first n, tcmdReady gclWriteEntries c s → gclRun s c = .ok (p, first, n) →
      ∃ t, Sys2Proof.Machine.exec (.writeEntries c) s = .next t ∧ tcmdAnswered gclWriteEntries c 0 [] t ∧
        (∀ j < n, pg t (stagedPar s) (R.gclEntryGates p (first + j)) = nth 0 (wordsLE (2 * n) (bufBytes c s)) (2 * j) % 256 ∧
          pg t (stagedPar s) (R.gclEntryInterval p (first + j)) =
            nth 0 (wordsLE (2 * n) (bufBytes c s)) (2 * j + 1) % 2 ^ 30) ∧
        (∀ o j, o < 256 → j < 1024 → pg t (curPar s) (R.gclEntryGates o j) = pg s (curPar s) (R.gclEntryGates o j) ∧
          pg t (curPar s) (R.gclEntryInterval o j) = pg s (curPar s) (R.gclEntryInterval o j)) ∧
        t.gen = { s.gen with dirty := true } ∧ changesOnly [.generations, .counters, .registers] s t) ∧
    (∀ p first n, tcmdReady gclReadEntries c s → gclRun s c = .ok (p, first, n) →
      ∃ t, Sys2Proof.Machine.exec (.readEntries c) s = .next t ∧ tcmdAnswered gclReadEntries c 0 [] t ∧
        t.hmem = bufWritten c ((List.range n).flatMap fun j =>
          toLE 4 (pg s (fld 31 31 (bodyWord c 0x18)) (R.gclEntryGates p (first + j))) ++
            toLE 4 (pg s (fld 31 31 (bodyWord c 0x18)) (R.gclEntryInterval p (first + j)))) s ∧
        changesOnly [.counters, .registers, .hostMemory] s t) ∧
    (∀ p, tcmdReady Machine.schReadCounters c s → p = bodyWord c 0x14 % 512 → p ≤ 271 → portNamed s p = true → dataBytes c = 768 →
      ∃ t, Sys2Proof.Machine.exec (.schReadCounters c) s = .next t ∧ tcmdAnswered Machine.schReadCounters c 0 [] t ∧
        t.hmem = bufWritten c ((List.range 96).flatMap fun i => toLE 8 (rg64 s (schCounter p i))) s ∧
        (∀ i < 96, rg64 t (schCounter p i) = 0) ∧ changesOnly [.counters, .registers, .hostMemory] s t))

/-! ## Queues and scheduling -/

/-- A copy enters its queue at the tail; one for a port that takes none is gone, its holder with it (R432, R434). A free
transmitter, once its gap has passed, starts the scheduler's choice from the head of its queue, where no pause frame and no overdue copy
is due (R207, R436, R438); with nothing to start nothing happens. The last bit of a copy of a queue that is not preemptible ends its
hold on the frame (R402). A time-released copy at the head of its queue goes to its quad ahead of its lead; the one copy that has not by
then has missed its handover (R451, R452). When it is to cross the lane ball it starts, where it is ready, its gate lets it and nothing
is being sent, or on a port that is down it is discarded (R246, R451, R455). Master time reaches the end of an entry of the gate list
(R443). -/
def Obligations.CopiesAndRelease : Prop :=
  ((∀ (p : Nat) (c : Copy) (s : State), s.buf.plan.find? (fun d => d.port == p) = some c → c.device = none →
      (∀ x, kvGet c.frame s.buf.frames = some x → enqueueCheck s c = none → spillEligible s c = false →
        ∃ t, Sys2Proof.Machine.exec (.copyEnqueue p) s = .next t ∧ t.buf.plan = s.buf.plan.erase c ∧
          (queue t p c.queue).copies = (queue s p c.queue).copies ++ [c] ∧
          kvGet c.frame t.buf.frames = some { x with lastQueue := 8 * p + c.queue, touched := true } ∧
          (∀ k, k ≠ 8 * p + c.queue → kvGet k t.eg.queues = kvGet k s.eg.queues) ∧ changesOnly [.buffer, .egress] s t) ∧
      (∀ x, kvGet c.frame s.buf.frames = some x → enqueueCheck s c = some (0x12, some 7) → c.fwd = false →
        x.holders.filter (· ≠ p) ≠ [] →
        ∃ t, Sys2Proof.Machine.exec (.copyEnqueue p) s = .next t ∧ t.buf.plan = s.buf.plan.erase c ∧ t.eg = s.eg ∧
          (kvGet c.frame t.buf.frames).map (·.holders) = some (x.holders.filter (· ≠ p)) ∧
          changesOnly [.buffer, .counters, .registers] s t)) ∧
    (∀ (p : Nat) (u s : State), p < 256 → portSends s p = true → fenceShut s = false → (port s p).sending = none →
      u = mediumFree p s → pauseWaits u p = false → overdue u p = none →
      (∀ q ds ptr c, choose u p (fun _ => true) = some (q, ds, ptr) → head u p q = some c → c.port = p → c.queue = q →
        c.device = none →
        ∃ t x, Sys2Proof.Machine.exec (.transmitterFree p 0) s = .next t ∧ (sched t p).sending = some c ∧
          (port t p).sending = some x ∧ x.frame = c.frame ∧ x.queue = q ∧ x.start = u.now ∧ x.fragments = 0 ∧
          c ∉ (queue t p q).copies ∧ changesOnly [.host, .links, .time, .buffer, .egress, .counters, .registers] u t) ∧
      (choose u p (fun _ => true) = none → (port u p).preempted = none → ∀ ecc,
        ∃ t, Sys2Proof.Machine.exec (.transmitterFree p ecc) s = .next t ∧ t = u)) ∧
    (∀ (p : Nat) (x : Sending) (c : Copy) (u s : State), (port s p).sending = some x → (sched s p).sending = some c → c.port = p →
      c.device = none → preemptible s p c.queue = false → keyed s.buf.frames → u = reach (sendEnds s p x) s →
      ∃ t, Sys2Proof.Machine.exec (.copyTransmitEnd p) s = .next t ∧ (port t p).sending = none ∧ (sched t p).sending = none ∧
        (∀ y, kvGet c.frame t.buf.frames = some y → p ∉ y.holders) ∧
        changesOnly [.host, .accounts, .links, .buffer, .egress, .recorder, .counters, .registers, .hostMemory] u t)) ∧
  ((∀ (p q r : Nat) (c : Copy) (u s : State), head s p q = some c → c.release = some r → c.late = false → c.handed = false →
      c.missed = false → inBasin s c = true → p < 256 → c.port = p → c.queue = q → u = reach (r - usT 2) s → u.now + lead s p ≤ r →
      ∃ t, Sys2Proof.Machine.exec (.releaseHandover p q) s = .next t ∧ head t p q = some { c with handed := true } ∧
        changesOnly [.egress] u t) ∧
    (∀ (p q r : Nat) (c : Copy) (u s : State),
      (timedCopies s p q).filter (fun c => !c.handed && !c.missed && !c.deferred) = [c] → c.release = some r → c.port = p →
      c.queue = q → u = reach (r - lead s p) s → r ≤ u.now + lead s p →
      ∃ t, Sys2Proof.Machine.exec (.releaseLeadDeadline p q) s = .next t ∧
        { c with missed := true } ∈ (queue t p q).copies ∧ changesOnly [.egress] u t) ∧
    (∀ (p q r : Nat) (c : Copy) (u s : State), ((List.range 8).reverse.flatMap fun q => timedCopies s p q) = [c] →
      c.release = some r → c.port = p → c.queue = q → u = reach (ballTime s p r) s → ballTime u p r ≤ u.now →
      ((port u p).up = true → faultStops u p c = false → c.device = none → c.deferred = false → c.handed = true → c.missed = false →
        gateFits u (copyPar u c) p q r (wireTime u p (counted u c)) = true → (port u p).sending = none →
        (port u p).busyTill ≤ u.now → head u p q = some c → inBasin u c = true → queueHeld u p q c = false →
        portSends u p = true → preemptBusy u p q = false → u.now ≤ ballTime u p r + nsT 2 →
        ∃ t x, Sys2Proof.Machine.exec (.timedRelease p 0) s = .next t ∧ (sched t p).sending = some c ∧ (port t p).sending = some x ∧
          x.frame = c.frame ∧ x.start = u.now ∧ c ∉ (queue t p q).copies ∧
          changesOnly [.host, .links, .time, .buffer, .egress, .counters, .registers] u t) ∧
      ((port u p).up = false → c.device = none →
        ∃ t, Sys2Proof.Machine.exec (.timedRelease p 0) s = .next t ∧ c ∉ (queue t p q).copies ∧
          changesOnly [.host, .accounts, .links, .buffer, .egress, .recorder, .counters, .registers, .hostMemory] u t)) ∧
    (∀ (p : Nat) (s : State),
      (∀ e, (gateState s (curPar s) p s.now).2.2 = some e → s.tim.stopped = false → s.now ≤ e → e < Config.timeMod →
        ∃ t, Sys2Proof.Machine.exec (.gateEntryChange p) s = .next t ∧ t.now = e ∧
          changesOnly [.time, .counters, .registers, .masterTime, .elapsed] s t) ∧
      ((gateState s (curPar s) p s.now).2.2 = none →
        ∃ t, Sys2Proof.Machine.exec (.gateEntryChange p) s = .next t ∧ changesOnly [] s t)))

/-! ## The recorder -/

/-- The recorder takes the copy chosen at P257 and keeps its record for writing, or counts the refusal by its cause (R465, R466, R468).
A record goes to the end of the open segment with the next RECORD_SEQ; where no segment is open it is dropped, which is the model's
choice (assumption 41). The open segment that has been idle is sealed under its key (R470, R471). A window of trigger 4 ends with its
count at 0 (R472). FREEZE makes a region, SEAL_NOW seals the open segment or names none (R473, R481); VERIFY judges a segment's tag,
READ_LOSS returns counts and clears them (R477, R482). -/
def Obligations.RecorderRows : Prop :=
  (∀ (q ecc : Nat) (ds ptr : List Nat) (c : Copy) (x : Frame) (b : List Byte) (u v s : State), fenceShut s = false →
    u = reach (port s 257).busyTill s → choose u 257 (fun _ => true) = some (q, ds, ptr) → head u 257 q = some c → c.port = 257 →
    c.queue = q → c.fwd = false → c.device = none → v = cellError ecc c.frame u → kvGet c.frame v.buf.frames = some x → b = frameRecord v x →
    (fenceShut v = true → Sys2Proof.Machine.exec (.recorderTake ecc) s = .next v) ∧
    (fenceShut v = false → refusalCause v b.length = none → recLive v = true →
      ∃ t, Sys2Proof.Machine.exec (.recorderTake ecc) s = .next t ∧
        t.recd = { v.recd with backlog := v.recd.backlog ++ [⟨0, b, recordCells b.length⟩] } ∧ c ∉ (queue t 257 q).copies ∧
        changesOnly [.links, .buffer, .egress, .recorder, .counters, .registers] v t) ∧
    (∀ n, fenceShut v = false → refusalCause v b.length = some n → RegsCanonical v →
      ∃ t, Sys2Proof.Machine.exec (.recorderTake ecc) s = .next t ∧ t.recd.backlog = v.recd.backlog ∧
        rg t (R.recRefused n) = (rg v (R.recRefused n) + 1) % 2 ^ 32 ∧ c ∉ (queue t 257 q).copies ∧
        changesOnly [.links, .buffer, .egress, .recorder, .counters, .registers] v t)) ∧
  (∀ (w : RecWait) (ws : List RecWait) (s : State), recLive s = true → s.recd.backlog = w :: ws → w.cells ≠ 0 ∨ 2048 < freeBasin s →
    (s.recd.current = none →
      ∃ t, Sys2Proof.Machine.exec .recordWrite s = .next t ∧ t.recd = { s.recd with backlog := ws } ∧
        changesOnly [.links, .buffer, .recorder, .counters, .registers] s t) ∧
    (∀ g, s.recd.current = some g → s.recd.refused = 0 → segFits g w.bytes.length = true →
      ∃ t h, Sys2Proof.Machine.exec .recordWrite s = .next t ∧ t.recd.backlog = ws ∧ t.recd.current = some h ∧
        h.records = g.records ++ [patch w.bytes 0x20 (toLE 4 s.recd.recordSeq)] ∧
        t.recd.recordSeq = (s.recd.recordSeq + 1) % 2 ^ 32 ∧ t.recd.lastTake = s.now ∧
        changesOnly [.links, .buffer, .recorder, .counters, .registers] s t)) ∧
  (∀ (g : Segment) (key : List Byte) (u s : State), s.recd.current = some g → s.recd.key = some key → g.records ≠ [] →
    lastOfPost s.recd g.seq = false → cuF s R.recCfg 15 8 ≠ 0 → u = reach (s.recd.lastTake + msT (cuF s R.recCfg 15 8)) s →
    ∃ t, Sys2Proof.Machine.exec .sealIdleExpiry s = .next t ∧ t.recd.prevTag = hmac key (segCovered u g u.now 1) ∧
      t.recd.backlog = s.recd.backlog ∧ changesOnly [.host, .recorder, .registers] u t) ∧
  (∀ (w : Nat) (s : State), bit 2 (cu s R.recTrigEn) = true → w = msT (cuF s R.recFateTrig 31 16) → 0 < w →
    s.tim.stopped = false → s.recd.windowFrom ≤ s.now → s.now < s.recd.windowFrom + w →
    s.recd.windowFrom + w < Config.timeMod →
    ∃ t, Sys2Proof.Machine.exec .fateWindowExpiry s = .next t ∧ t.now = s.recd.windowFrom + w ∧
      t.recd = { s.recd with windowFrom := s.recd.windowFrom + w, fateCount := 0 } ∧
      changesOnly [.time, .recorder, .counters, .registers, .masterTime, .elapsed] s t) ∧
  (∀ (i : Instr) (o : Option Cmd) (k : Nat) (s : State), i = .freeze o → triggerShut 1 s = false →
    (List.range 4).find? (fun i => (kvGet i s.recd.regions).isNone) = some k →
    (o = none ∧ pf0Open R.recCmd s ∨ ∃ c, o = some c ∧ tcmdReady recFreezeCmd c s) →
    ∃ t x, Sys2Proof.Machine.exec i s = .next t ∧ kvGet k t.recd.regions = some x ∧ x.trigger = 1 ∧ x.time = s.now ∧
      x.seqs = preList s ∧ (∀ j, j ≠ k → kvGet j t.recd.regions = kvGet j s.recd.regions) ∧
      (∀ c, o = some c → tcmdAnswered recFreezeCmd c 0 (toLE 4 k) t) ∧ changesOnly [.host, .recorder, .registers] s t) ∧
  (∀ (i : Instr) (o : Option Cmd) (g : Segment) (key : List Byte) (s : State), i = .sealNow o → s.recd.current = some g →
    s.recd.key = some key → lastOfPost s.recd g.seq = false →
    (o = none ∧ pf0Open R.recCmd s ∨ ∃ c, o = some c ∧ tcmdReady recSealCmd c s) →
    (g.records ≠ [] → ∃ t, Sys2Proof.Machine.exec i s = .next t ∧ t.recd.prevTag = hmac key (segCovered s g s.now 7) ∧
      (∀ c, o = some c → tcmdAnswered recSealCmd c 0 (toLE 4 g.seq) t) ∧ changesOnly [.host, .recorder, .registers] s t) ∧
    (g.records = [] → ∃ t, Sys2Proof.Machine.exec i s = .next t ∧ t.recd = s.recd ∧
      (∀ c, o = some c → tcmdAnswered recSealCmd c 0 (toLE 4 0xFFFFFFFF) t) ∧ changesOnly [.registers] s t)) ∧
  (∀ (c : Cmd) (s : State),
    (∀ b key, tcmdReady recVerifyCmd c s → dataBytes c = 2097152 → b = bufBytes c s → ofLE (b.take 4) = 0x47455352 →
      ofLE ((b.drop 4).take 2) = 1 → ofLE ((b.drop 0x10).take 8) = s.dev.uniqueId →
      keyNamed s (ofLE ((b.drop 0xC).take 4)) = some key →
      ∃ t, Sys2Proof.Machine.exec (.verify c) s = .next t ∧
        tcmdAnswered recVerifyCmd c 0 (toLE 4 (if hmac key (b.take 0x1FFFE0) = (b.drop 0x1FFFE0).take 32 then 3 else 2) ++
          toLE 4 (ofLE ((b.drop 8).take 4))) t ∧
        changesOnly [.counters, .registers] s t) ∧
    (∀ first n, tcmdReady recReadLossCmd c s → first = bodyWord c 0x14 % 65536 → n = bodyWord c 0x18 % 2 ^ 17 → 0 < n →
      first + n ≤ 65536 → dataBytes c = 4 * n → keyed s.recd.loss →
      ∃ t, Sys2Proof.Machine.exec (.readLoss c) s = .next t ∧ tcmdAnswered recReadLossCmd c 0 [] t ∧
        t.hmem = bufWritten c ((List.range n).flatMap fun i => toLE 4 (kvGetD 0 (first + i) s.recd.loss)) s ∧
        (∀ i, first ≤ i → i < first + n → kvGet i t.recd.loss = none) ∧
        (∀ i, i < first ∨ first + n ≤ i → kvGet i t.recd.loss = kvGet i s.recd.loss) ∧
        changesOnly [.recorder, .counters, .registers, .hostMemory] s t))

/-! ## Counters -/

/-- ZERO starts the counters it names from 0 and discards their windows in progress (R494). A read of PMU_CNT_LO gives the low word and
latches the rest; an alias that is not granted reads 0 (R143, R491, R496). The total, rate and number of the window due are published,
and master time stands 256 µs after its end at the earliest (R490). The cycles of a unit are log entry 31, ZERO in window mode log entry
79, windows around a time-base fault log entry 80, and what some events count log entries 148 and 176. -/
def Obligations.PerformanceCounters : Prop :=
  (∀ (u : Nat) (w : Word) (s : State), u < 30 → pf0Open (R.pmuCmd u) s → pmuPresent s u = true →
    ∃ t, Sys2Proof.Machine.exec (.zero u w) s = .next t ∧
      (∀ k c, k < 8 → bit k w.toNat = true → kvGet (8 * u + k) s.pmu.ctrs = some c → kvGet (8 * u + k) t.pmu.ctrs =
        some { c with value := 0, since := s.elapsed, windows := [], first := nextWindow s u k }) ∧
      (∀ n, (∀ k < 8, bit k w.toNat = true → n ≠ 8 * u + k) → kvGet n t.pmu.ctrs = kvGet n s.pmu.ctrs) ∧
      changesOnly [.counters] s t) ∧
  (∀ (u k : Nat) (c : PmuCtr) (viaAlias : Bool) (s : State), hostOpen s = true → u < 30 → k < 8 → pmuPresent s u = true →
    kvGet (8 * u + k) s.pmu.ctrs = some c →
    (viaAlias = false ∨ bit u (rg s R.prtGrantPmu) = true →
      ∃ t, Sys2Proof.Machine.exec (.counterRead u k viaAlias) s = .next t ∧ t.lat.rdata = BitVec.ofNat 32 (c.value % 2 ^ 32) ∧
        kvGet (2 * (8 * u + k) + b2n viaAlias) t.pmu.latched = some [ctrHi s u k c, pmuCycles s u s.elapsed % 2 ^ 32,
          pmuCycles s u s.elapsed / 2 ^ 32 % 2 ^ 32, c.rate, c.win] ∧
        t.pmu.ctrs = s.pmu.ctrs ∧ changesOnly [.latches, .counters] s t) ∧
    (viaAlias = true → bit u (rg s R.prtGrantPmu) = false →
      ∃ t, Sys2Proof.Machine.exec (.counterRead u k viaAlias) s = .next t ∧ t.lat.rdata = 0 ∧ changesOnly [.latches] s t)) ∧
  (∀ (u k w n total : Nat) (c : PmuCtr) (v s : State), kvGet (8 * u + k) s.pmu.ctrs = some c →
    fld 7 0 (pmuEvt s u k) = 0x30 → pmuLegal u (pmuEvt s u k) = true → timFault s = false → w = max 1 (rg s (R.pmuWindow u k)) →
    n = windowDue s w c → total = kvGetD 0 n c.windows → v = reach (usT ((n + 1) * w + 256)) s →
    ∃ t d, Sys2Proof.Machine.exec (.windowPublish u k) s = .next t ∧ kvGet (8 * u + k) t.pmu.ctrs = some d ∧
      d.value = total % 2 ^ 48 ∧ d.rate = satTo 0xFFFFFFFF (total * 8000 / w) ∧ d.win = n % 2 ^ 32 ∧ d.valid = true ∧
      d.first = n + 1 ∧ changesOnly [.counters] v t)

/-! ## Service -/

/-- Units and their service states: SET_STATE to the present state is answered at once, a leave waits for its condition and then enters
the state sought (R502, R505); a retirement is copied into a spare, which takes the unit's place while the unit fails (R508 to R511); a
test is answered with its outcome (R507); the health map takes the entries it is given (R512, R513). -/
def Obligations.ServiceStates : Prop :=
  (∀ (c : Cmd) (s : State),
    (∀ kind idx st, tcmdReady svcSetState c s → s.gen.held = [] → kind = fld 3 0 (bodyWord c 0x08) →
      idx = fld 15 4 (bodyWord c 0x08) → st = fld 17 16 (bodyWord c 0x08) → nameable s kind idx st = true → kind ≠ 9 → st ≠ 3 →
      transitionOf s kind idx = none → fillingSpare s kind idx = false →
      (unitSt s kind idx = st →
        ∃ t, Sys2Proof.Machine.exec (.setState c) s = .next t ∧ tcmdAnswered svcSetState c 0 (toLE 4 st ++ toLE 4 0) t ∧
          registersBut tcmdRegs s t ∧ changesOnly [.registers] s t) ∧
      (unitSt s kind idx = 0 → st ≠ 0 → leaveRefusal s kind idx (bit 25 (bodyWord c 0x08)) = none →
        s.svc.transitions.length < 4 → bit 24 (bodyWord c 0x08) = false →
        ∃ t, Sys2Proof.Machine.exec (.setState c) s = .next t ∧ t.tab.tcmdBusy = true ∧
          (transitionOf t kind idx).map (fun x => (x.phase, x.target, x.waiter.isSome)) = some (1, st, true) ∧
          t.svc.states = s.svc.states)) ∧
    (∀ kind idx i, tcmdReady svcRetire c s → kind = fld 3 0 (bodyWord c 0x08) → idx = fld 15 4 (bodyWord c 0x08) →
      kind = 6 ∧ bankWorks s idx = true ∨ kind = 7 ∧ (channelOf s idx).isSome = true → idx < kindUnits kind →
      unitSt s kind idx ≠ 3 → transitionOf s kind idx = none → fillingSpare s kind idx = false →
      s.svc.transitions.length < 4 → copying s kind idx = false → freeSpare s kind idx = some i →
      bit 24 (bodyWord c 0x08) = true →
      ∃ t, Sys2Proof.Machine.exec (.retire c) s = .next t ∧ tcmdAnswered svcRetire c 0 (toLE 4 i) t ∧
        (transitionOf t kind idx).map (fun x => (x.phase, x.spare)) = some (2, some i) ∧ t.svc.states = s.svc.states ∧
        registersBut tcmdRegs s t ∧ changesOnly [.service, .registers] s t) ∧
    (∀ kind idx, tcmdReady svcTest c s → kind = fld 3 0 (bodyWord c 0x08) → idx = fld 15 4 (bodyWord c 0x08) →
      testable kind idx = true → bit 27 (bodyWord c 0x08) = false ∨ healthOpen s = true → unitSt s kind idx = 2 →
      transitionOf s kind idx = none →
      (s.svc.tests.any fun x => x.1 == kind && x.2.1 == idx) = false →
      ∃ t w, Sys2Proof.Machine.exec (.test c) s = .next t ∧ t.tab.tcmdBusy = true ∧
        t.svc = { s.svc with tests := s.svc.tests ++ [(kind, idx, bit 27 (bodyWord c 0x08), w)] } ∧
        registersBut tcmdRegs s t ∧ changesOnly [.tables, .service, .registers] s t) ∧
    (∀ o v, tcmdReady svcHealthWrite c s → bit 1 (rg s R.prtEnable) = true → o = fld 15 0 (bodyWord c 0x08) →
      v = fld 23 16 (bodyWord c 0x08) → healthEntry o = true → memWf s.mram.health = true →
      ∃ t, Sys2Proof.Machine.exec (.healthWrite c) s = .next t ∧ tcmdAnswered svcHealthWrite c 0 [] t ∧
        healthByte t o = (v ||| 4) ∧ t.mram = { s.mram with health := t.mram.health } ∧
        registersBut tcmdRegs s t ∧ changesOnly [.mram, .registers] s t) ∧
    (∀ kind idx, tcmdReady svcReadState c s → kind = fld 3 0 (bodyWord c 0x08) → idx = fld 15 4 (bodyWord c 0x08) →
      idx < kindUnits kind →
      ∃ t, Sys2Proof.Machine.exec (.readState c) s = .next t ∧ tcmdAnswered svcReadState c 0
        (toLE 4 (unitSt s kind idx + ((transitionOf s kind idx).map (·.phase)).getD 0 * 4)) t ∧
        registersBut tcmdRegs s t ∧ changesOnly [.registers] s t)) ∧
  (∀ (kind idx : Nat) (x : Transition) (s : State), transitionOf s kind idx = some x → x.waiter = none → s.gen.held = [] →
    keyed s.svc.states → RegsCanonical s →
    (x.phase = 1 → x.target ≠ 3 → kind ≠ 9 → leaveComplete s kind idx = true →
      ∃ t, Sys2Proof.Machine.exec (.leaveComplete kind idx) s = .next t ∧ unitSt t kind idx = x.target ∧
        transitionOf t kind idx = none ∧ bit 0 (rg t R.svcEvt) = true ∧ changesOnly [.host, .service, .registers] s t) ∧
    (∀ i, x.phase = 2 → x.spare = some i → kind = 6 → i ≠ idx →
      ∃ t, Sys2Proof.Machine.exec (.retireCopyComplete kind idx) s = .next t ∧ unitSt t kind idx = 3 ∧ unitSt t kind i = 0 ∧
        kvGet (idx / 65) t.svc.spares = some (idx % 65) ∧ transitionOf t kind idx = none ∧
        t.svc.notes = s.svc.notes ++ [⟨kind, idx, if x.auto then 10 else 11, some i⟩] ∧
        changesOnly [.host, .service, .registers] s t)) ∧
  (∀ (kind idx cause detail : Nat) (pass mark : Bool) (w : Waiter) (s : State),
    s.svc.tests.find? (fun x => x.1 == kind && x.2.1 == idx) = some (kind, idx, mark, w) → w.via = .tcmd → s.gen.held = [] →
    RegsCanonical s → (pass = true ∨ mark = false) →
    ∃ t, Sys2Proof.Machine.exec (.testComplete kind idx pass cause detail) s = .next t ∧ t.tab.tcmdBusy = false ∧
      rg t (R.fdbTcmdRes 2) = b2n pass + (if pass then 0 else cause % 16) * 16 ∧
      (t.svc.tests.any fun x => x.1 == kind && x.2.1 == idx) = false ∧ t.svc.states = s.svc.states ∧ t.mram = s.mram ∧
      (∀ k, k ∉ (List.range 8).map R.fdbTcmdRes → (∀ u, k ≠ R.pmuOvf u) → regWord t.regs k = regWord s.regs k) ∧
      changesOnly [.tables, .service, .counters, .registers] s t) ∧
  (∀ (idx errors i : Nat) (s : State), s.md.mode = .stage ∨ s.md.mode = .run → bit 0 (rg s R.svcCfg) = true →
    fld 23 8 (rg s R.svcCfg) ≤ errors →
    idx < 128 → (channelOf s idx).isSome = true → unitSt s 7 idx = 0 → transitionOf s 7 idx = none →
    freeSpare s 7 idx = some i → s.svc.transitions.length < 4 → copying s 7 idx = false → RegsCanonical s →
    ∃ t, Sys2Proof.Machine.exec (.autoRetire idx errors) s = .next t ∧
      (transitionOf t 7 idx).map (fun x => (x.phase, x.spare, x.auto)) = some (2, some i, true) ∧
      bit 2 (rg t R.svcEvt) = true ∧ t.svc.states = s.svc.states ∧ changesOnly [.host, .service, .registers] s t) ∧
  (∀ (n : HealthNote) (ns : List HealthNote) (o : Nat) (s : State), s.svc.notes = n :: ns → healthOff n.kind n.index = some o →
    healthEntry o = true → n.spare = none → n.cause < 16 → memWf s.mram.health = true →
    ∃ t, Sys2Proof.Machine.exec .healthMapUpdate s = .next t ∧ t.svc = { s.svc with notes := ns } ∧
      healthByte t o = 3 + n.cause * 16 ∧ changesOnly [.mram, .service] s t)

/-! ## Rules of the manual, whole -/

/-- R79: a TAIL write is accepted exactly where T′ < S and (T′ − H) mod S ≥ (T − H) mod S; T′ = T hands over nothing; another one on a
ring that runs leaves the tail and sets DOORBELL_ERR, with an ACCESS event of type 1; a disabled ring ignores it and counts it. -/
def Obligations.TailWrites : Prop :=
  ∀ (k : RingKind) (n idx : Nat) (r : Ring) (s : State), RegsCanonical s → hostOpen s = true → n < kindCount k → idx < 2 ^ 16 →
    r = ring s k n →
    (r.active = true → r.stopping = false →
      (idx < r.size ∧ (r.tail + r.size - r.head) % r.size ≤ (idx + r.size - r.head) % r.size →
        ∃ t, Sys2Proof.Machine.exec (.doorbellTail k n idx []) s = .next t ∧ (ring t k n).tail = idx ∧
          (k ≠ .cmd → ring t k n = { r with tail := idx }) ∧
          (k ≠ .cmd → idx = r.tail → ringAvail (ring t k n) = ringAvail r) ∧
          changesOnly [.host, .counters, .registers, .hostMemory] s t) ∧
      (¬ (idx < r.size ∧ (r.tail + r.size - r.head) % r.size ≤ (idx + r.size - r.head) % r.size) →
        ∃ t, Sys2Proof.Machine.exec (.doorbellTail k n idx []) s = .next t ∧ ring t k n = r ∧
          bit 1 (rg t (ringRegs k n + 0x20)) = true ∧
          eventSent 0xC 1 94 s.now [0x1000 * (kindPage k + n) + 2 * 2 ^ 26 + 2 ^ 28 + kindCode k * 2 ^ 29, n * 2 ^ 16] s t ∧
          changesOnly [.host, .registers] s t)) ∧
    (r.active = false ∨ r.stopping = true →
      ∃ t, Sys2Proof.Machine.exec (.doorbellTail k n idx []) s = .next t ∧
        rg t R.rngAccessErr = (rg s R.rngAccessErr + 1) % 2 ^ 32 ∧ registersBut [R.rngAccessErr] s t ∧
        changesOnly [.registers] s t)

/-- R96: with the PCIe link down the device fetches no transmit descriptor and no frame enters from P256. -/
def Obligations.LinkDownStopsTransmit : Prop :=
  ∀ (n : Nat) (s : State), s.host.linkUp = false →
    ∃ t, Sys2Proof.Machine.exec (.txFrameAdmit n) s = .next t ∧ t.lk.ingress = s.lk.ingress ∧ ring t .tx n = ring s .tx n ∧
      changesOnly [] s t

/-- R137: while BUSY = 1 every image command is ignored; UNMARK or ERASE of the marked slot, once done, leaves no slot marked. -/
def Obligations.ImageBusyAndMark : Prop :=
  (∀ (c : Instr) (slot : Nat) (ok : Bool) (s : State), s.img.busy.isSome = true →
    c ∈ [Instr.loadApply [] ok, .store slot [] ok, .applySlot slot, .mark slot, .unmark slot, .erase slot] →
    ∃ t, Sys2Proof.Machine.exec c s = .next t ∧ changesOnly [] s t) ∧
  (∀ (c : Instr) (slot : Nat) (s : State), imgOpen s = true → slot < 4 → s.mram.autoload = some slot →
    c ∈ [Instr.unmark slot, .erase slot] →
    ∃ u t, Sys2Proof.Machine.exec c s = .next u ∧ Sys2Proof.Machine.exec .imageCommandComplete u = .next t ∧
      t.img.busy = none ∧ t.mram.autoload = none ∧ changesOnly [.image, .mram] s t)

/-- R341: RESET leaves generation 0 with both parities alike, at reset values; the current parity is bit 0 of the number, the staged one the
other; a commit adds 1 at its effect time, modulo 2^32, and the parities change places. -/
def Obligations.GenerationNumber : Prop :=
  (∀ (ns : Nat) (s : State), 1100 ≤ ns → ∃ t, Sys2Proof.Machine.exec (.resetNLow ns) s = .next t ∧ t.gen.current = 0 ∧ curPar t = 0 ∧
    (∀ off par, (off < viewSize → pg t par off = pg t 0 off ∧ pg t par off = rg State.reset off)) ∧
    (∀ tbl idx, entry t tbl idx 0 = entry t tbl idx 1) ∧ t.tab.fdb = [] ∧ t.tab.rules = [] ∧ t.tab.routes = [] ∧ t.tab.repl = [] ∧
    t.eng.programs = []) ∧
  (∀ s : State, curPar s = s.gen.current % 2 ∧ stagedPar s = 1 - curPar s) ∧
  (∀ (T : Nat) (s : State), s.gen.effectAt = some T → s.gen.st = 2 → s.gen.held = [] → s.gen.current < 2 ^ 32 →
    ∃ t, Sys2Proof.Machine.exec .commitEffect s = .next t ∧ t.gen.current = (s.gen.current + 1) % 2 ^ 32 ∧
      curPar t = stagedPar s ∧ stagedPar t = curPar s)

/-- R475: RELEASE frees a region at once, in any state; a running post-trigger part ends without a seal; the region's segments stay and
show FROZEN = 0 where no other region has them; a RECORDER event of type 1 names the region's first SEQ. The event's SOURCE, the island
of the region's first segment, is log entry 81. -/
def Obligations.RegionRelease : Prop :=
  ∀ (o : Option Cmd) (z k : Nat) (x : Region) (s : State), keyed s.recd.regions → kvGet k s.recd.regions = some x →
    (o = none ∧ k = z % 4 ∧ pf0Open R.recCmd s ∨ ∃ c, o = some c ∧ k = bodyWord c 0x08 % 4 ∧ tcmdReady recReleaseCmd c s) →
    ∃ t, Sys2Proof.Machine.exec (.release o z) s = .next t ∧ kvGet k t.recd.regions = none ∧
      (∀ j, j ≠ k → kvGet j t.recd.regions = kvGet j s.recd.regions) ∧
      t.recd.post = (if s.recd.post = some k then none else s.recd.post) ∧ t.recd.segments = s.recd.segments ∧
      t.recd.current = s.recd.current ∧
      (∀ seq, (∀ j y, j ≠ k → kvGet j s.recd.regions = some y → seq ∉ y.seqs) → inFrozen t seq = false) ∧
      eventSent 0xD 1 (segIsland s (x.seqs.headD 0)) s.now [x.seqs.headD 0, x.trigger] s t ∧
      (∀ c, o = some c → tcmdAnswered recReleaseCmd c 0 [] t) ∧ changesOnly [.host, .recorder, .registers] s t

/-- R551: in PARK a die at or above 110 °C stops the start of new batches until it reads below 105 °C; batches already started stay, and the
wave in progress ends and the next begins as otherwise. (In wave 11, which tests the sensors, no sample is taken: assumption 146.) -/
def Obligations.HotDieStopsBatches : Prop :=
  ∀ s : State, s.md.mode = .park →
    (∀ c : Temps, s.pins.supplies = true → s.md.wave ≠ 11 →
      ∃ t, Sys2Proof.Machine.exec (.temperatureSample c) s = .next t ∧ t.svc.batches = s.svc.batches ∧ t.md.wave = s.md.wave ∧
        (16 * 110 ≤ c.die → t.svc.hot = true) ∧ (c.die < 16 * 105 → t.svc.hot = false) ∧
        (16 * 105 ≤ c.die → c.die < 16 * 110 → t.svc.hot = s.svc.hot)) ∧
    (∀ figure power : Nat, s.svc.hot = true →
      ∃ t, Sys2Proof.Machine.exec (.parkBatchStart figure power) s = .next t ∧ changesOnly [] s t) ∧
    (∀ (ms peakW blocks : Nat) (fails : List (Nat × Nat)), s.svc.hot = true → 1 ≤ s.md.wave → s.md.wave < 12 →
      ∃ t, Sys2Proof.Machine.exec (.parkWaveComplete ms peakW blocks fails) s = .next t ∧ t.md.wave = s.md.wave + 1 ∧
        t.svc.batches = 0)
end

