-- ==== Sys2Proof/Laws/FramesOps.lean ====
section
/-! SUPPORT. Frame lemmas, one for each shared operation over registers, rings, links, frames, queues, events and modes: every part of
the state that it leaves as it was. -/

namespace Sys2Proof.Laws

open Sys2Proof Sys2Proof.Machine

-- The lemmas share one proof text, whose later alternatives some of them do not need.

@[simp] theorem setRg_keeps : ∀ a1 a2 s, (setRg a1 a2 s).md = s.md ∧ (setRg a1 a2 s).dev = s.dev ∧ (setRg a1 a2 s).pins
    = s.pins ∧ (setRg a1 a2 s).side = s.side ∧ (setRg a1 a2 s).prot = s.prot ∧ (setRg a1 a2 s).mram = s.mram ∧ (setRg a1
    a2 s).img = s.img ∧ (setRg a1 a2 s).host = s.host ∧ (setRg a1 a2 s).lat = s.lat ∧ (setRg a1 a2 s).acct = s.acct ∧
    (setRg a1 a2 s).lk = s.lk ∧ (setRg a1 a2 s).tim = s.tim ∧ (setRg a1 a2 s).buf = s.buf ∧ (setRg a1 a2 s).eg = s.eg ∧
    (setRg a1 a2 s).tab = s.tab ∧ (setRg a1 a2 s).gen = s.gen ∧ (setRg a1 a2 s).eng = s.eng ∧ (setRg a1 a2 s).recd =
    s.recd ∧ (setRg a1 a2 s).pmu = s.pmu ∧ (setRg a1 a2 s).svc = s.svc ∧ (setRg a1 a2 s).therm = s.therm ∧ (setRg a1 a2
    s).hmem = s.hmem ∧ (setRg a1 a2 s).now = s.now ∧ (setRg a1 a2 s).elapsed = s.elapsed ∧ (setRg a1 a2 s).free = s.free
    ∧ (setRg a1 a2 s).pending = s.pending := by
  intros; unfold setRg
  first
    | ((repeat' split) <;> simp; done)
    | (dsimp only; (repeat' split) <;> simp [*]; done)
    | ((repeat' apply And.intro) <;> dsimp only <;> (repeat' split) <;> simp [*]; done)

@[simp] theorem setRgF_keeps : ∀ a1 a2 a3 a4 s, (setRgF a1 a2 a3 a4 s).md = s.md ∧ (setRgF a1 a2 a3 a4 s).dev = s.dev ∧
    (setRgF a1 a2 a3 a4 s).pins = s.pins ∧ (setRgF a1 a2 a3 a4 s).side = s.side ∧ (setRgF a1 a2 a3 a4 s).prot = s.prot ∧
    (setRgF a1 a2 a3 a4 s).mram = s.mram ∧ (setRgF a1 a2 a3 a4 s).img = s.img ∧ (setRgF a1 a2 a3 a4 s).host = s.host ∧
    (setRgF a1 a2 a3 a4 s).lat = s.lat ∧ (setRgF a1 a2 a3 a4 s).acct = s.acct ∧ (setRgF a1 a2 a3 a4 s).lk = s.lk ∧
    (setRgF a1 a2 a3 a4 s).tim = s.tim ∧ (setRgF a1 a2 a3 a4 s).buf = s.buf ∧ (setRgF a1 a2 a3 a4 s).eg = s.eg ∧ (setRgF
    a1 a2 a3 a4 s).tab = s.tab ∧ (setRgF a1 a2 a3 a4 s).gen = s.gen ∧ (setRgF a1 a2 a3 a4 s).eng = s.eng ∧ (setRgF a1 a2
    a3 a4 s).recd = s.recd ∧ (setRgF a1 a2 a3 a4 s).pmu = s.pmu ∧ (setRgF a1 a2 a3 a4 s).svc = s.svc ∧ (setRgF a1 a2 a3
    a4 s).therm = s.therm ∧ (setRgF a1 a2 a3 a4 s).hmem = s.hmem ∧ (setRgF a1 a2 a3 a4 s).now = s.now ∧ (setRgF a1 a2 a3
    a4 s).elapsed = s.elapsed ∧ (setRgF a1 a2 a3 a4 s).free = s.free ∧ (setRgF a1 a2 a3 a4 s).pending = s.pending := by
  intros; unfold setRgF
  first
    | ((repeat' split) <;> simp; done)
    | (dsimp only; (repeat' split) <;> simp [*]; done)
    | ((repeat' apply And.intro) <;> dsimp only <;> (repeat' split) <;> simp [*]; done)

@[simp] theorem setRg64_keeps : ∀ a1 a2 s, (setRg64 a1 a2 s).md = s.md ∧ (setRg64 a1 a2 s).dev = s.dev ∧ (setRg64 a1 a2
    s).pins = s.pins ∧ (setRg64 a1 a2 s).side = s.side ∧ (setRg64 a1 a2 s).prot = s.prot ∧ (setRg64 a1 a2 s).mram =
    s.mram ∧ (setRg64 a1 a2 s).img = s.img ∧ (setRg64 a1 a2 s).host = s.host ∧ (setRg64 a1 a2 s).lat = s.lat ∧ (setRg64
    a1 a2 s).acct = s.acct ∧ (setRg64 a1 a2 s).lk = s.lk ∧ (setRg64 a1 a2 s).tim = s.tim ∧ (setRg64 a1 a2 s).buf = s.buf
    ∧ (setRg64 a1 a2 s).eg = s.eg ∧ (setRg64 a1 a2 s).tab = s.tab ∧ (setRg64 a1 a2 s).gen = s.gen ∧ (setRg64 a1 a2
    s).eng = s.eng ∧ (setRg64 a1 a2 s).recd = s.recd ∧ (setRg64 a1 a2 s).pmu = s.pmu ∧ (setRg64 a1 a2 s).svc = s.svc ∧
    (setRg64 a1 a2 s).therm = s.therm ∧ (setRg64 a1 a2 s).hmem = s.hmem ∧ (setRg64 a1 a2 s).now = s.now ∧ (setRg64 a1 a2
    s).elapsed = s.elapsed ∧ (setRg64 a1 a2 s).free = s.free ∧ (setRg64 a1 a2 s).pending = s.pending := by
  intros; unfold setRg64
  first
    | ((repeat' split) <;> simp; done)
    | (dsimp only; (repeat' split) <;> simp [*]; done)
    | ((repeat' apply And.intro) <;> dsimp only <;> (repeat' split) <;> simp [*]; done)

@[simp] theorem addRg_keeps : ∀ a1 a2 s, (addRg a1 a2 s).md = s.md ∧ (addRg a1 a2 s).dev = s.dev ∧ (addRg a1 a2 s).pins
    = s.pins ∧ (addRg a1 a2 s).side = s.side ∧ (addRg a1 a2 s).prot = s.prot ∧ (addRg a1 a2 s).mram = s.mram ∧ (addRg a1
    a2 s).img = s.img ∧ (addRg a1 a2 s).host = s.host ∧ (addRg a1 a2 s).lat = s.lat ∧ (addRg a1 a2 s).acct = s.acct ∧
    (addRg a1 a2 s).lk = s.lk ∧ (addRg a1 a2 s).tim = s.tim ∧ (addRg a1 a2 s).buf = s.buf ∧ (addRg a1 a2 s).eg = s.eg ∧
    (addRg a1 a2 s).tab = s.tab ∧ (addRg a1 a2 s).gen = s.gen ∧ (addRg a1 a2 s).eng = s.eng ∧ (addRg a1 a2 s).recd =
    s.recd ∧ (addRg a1 a2 s).pmu = s.pmu ∧ (addRg a1 a2 s).svc = s.svc ∧ (addRg a1 a2 s).therm = s.therm ∧ (addRg a1 a2
    s).hmem = s.hmem ∧ (addRg a1 a2 s).now = s.now ∧ (addRg a1 a2 s).elapsed = s.elapsed ∧ (addRg a1 a2 s).free = s.free
    ∧ (addRg a1 a2 s).pending = s.pending := by
  intros; unfold addRg
  first
    | ((repeat' split) <;> simp; done)
    | (dsimp only; (repeat' split) <;> simp [*]; done)
    | ((repeat' apply And.intro) <;> dsimp only <;> (repeat' split) <;> simp [*]; done)

@[simp] theorem incRg_keeps : ∀ a1 s, (incRg a1 s).md = s.md ∧ (incRg a1 s).dev = s.dev ∧ (incRg a1 s).pins = s.pins ∧
    (incRg a1 s).side = s.side ∧ (incRg a1 s).prot = s.prot ∧ (incRg a1 s).mram = s.mram ∧ (incRg a1 s).img = s.img ∧
    (incRg a1 s).host = s.host ∧ (incRg a1 s).lat = s.lat ∧ (incRg a1 s).acct = s.acct ∧ (incRg a1 s).lk = s.lk ∧ (incRg
    a1 s).tim = s.tim ∧ (incRg a1 s).buf = s.buf ∧ (incRg a1 s).eg = s.eg ∧ (incRg a1 s).tab = s.tab ∧ (incRg a1 s).gen
    = s.gen ∧ (incRg a1 s).eng = s.eng ∧ (incRg a1 s).recd = s.recd ∧ (incRg a1 s).pmu = s.pmu ∧ (incRg a1 s).svc =
    s.svc ∧ (incRg a1 s).therm = s.therm ∧ (incRg a1 s).hmem = s.hmem ∧ (incRg a1 s).now = s.now ∧ (incRg a1 s).elapsed
    = s.elapsed ∧ (incRg a1 s).free = s.free ∧ (incRg a1 s).pending = s.pending := by
  intros; unfold incRg
  first
    | ((repeat' split) <;> simp; done)
    | (dsimp only; (repeat' split) <;> simp [*]; done)
    | ((repeat' apply And.intro) <;> dsimp only <;> (repeat' split) <;> simp [*]; done)

@[simp] theorem addRg64_keeps : ∀ a1 a2 s, (addRg64 a1 a2 s).md = s.md ∧ (addRg64 a1 a2 s).dev = s.dev ∧ (addRg64 a1 a2
    s).pins = s.pins ∧ (addRg64 a1 a2 s).side = s.side ∧ (addRg64 a1 a2 s).prot = s.prot ∧ (addRg64 a1 a2 s).mram =
    s.mram ∧ (addRg64 a1 a2 s).img = s.img ∧ (addRg64 a1 a2 s).host = s.host ∧ (addRg64 a1 a2 s).lat = s.lat ∧ (addRg64
    a1 a2 s).acct = s.acct ∧ (addRg64 a1 a2 s).lk = s.lk ∧ (addRg64 a1 a2 s).tim = s.tim ∧ (addRg64 a1 a2 s).buf = s.buf
    ∧ (addRg64 a1 a2 s).eg = s.eg ∧ (addRg64 a1 a2 s).tab = s.tab ∧ (addRg64 a1 a2 s).gen = s.gen ∧ (addRg64 a1 a2
    s).eng = s.eng ∧ (addRg64 a1 a2 s).recd = s.recd ∧ (addRg64 a1 a2 s).pmu = s.pmu ∧ (addRg64 a1 a2 s).svc = s.svc ∧
    (addRg64 a1 a2 s).therm = s.therm ∧ (addRg64 a1 a2 s).hmem = s.hmem ∧ (addRg64 a1 a2 s).now = s.now ∧ (addRg64 a1 a2
    s).elapsed = s.elapsed ∧ (addRg64 a1 a2 s).free = s.free ∧ (addRg64 a1 a2 s).pending = s.pending := by
  intros; unfold addRg64
  first
    | ((repeat' split) <;> simp; done)
    | (dsimp only; (repeat' split) <;> simp [*]; done)
    | ((repeat' apply And.intro) <;> dsimp only <;> (repeat' split) <;> simp [*]; done)

@[simp] theorem incRg64_keeps : ∀ a1 s, (incRg64 a1 s).md = s.md ∧ (incRg64 a1 s).dev = s.dev ∧ (incRg64 a1 s).pins =
    s.pins ∧ (incRg64 a1 s).side = s.side ∧ (incRg64 a1 s).prot = s.prot ∧ (incRg64 a1 s).mram = s.mram ∧ (incRg64 a1
    s).img = s.img ∧ (incRg64 a1 s).host = s.host ∧ (incRg64 a1 s).lat = s.lat ∧ (incRg64 a1 s).acct = s.acct ∧ (incRg64
    a1 s).lk = s.lk ∧ (incRg64 a1 s).tim = s.tim ∧ (incRg64 a1 s).buf = s.buf ∧ (incRg64 a1 s).eg = s.eg ∧ (incRg64 a1
    s).tab = s.tab ∧ (incRg64 a1 s).gen = s.gen ∧ (incRg64 a1 s).eng = s.eng ∧ (incRg64 a1 s).recd = s.recd ∧ (incRg64
    a1 s).pmu = s.pmu ∧ (incRg64 a1 s).svc = s.svc ∧ (incRg64 a1 s).therm = s.therm ∧ (incRg64 a1 s).hmem = s.hmem ∧
    (incRg64 a1 s).now = s.now ∧ (incRg64 a1 s).elapsed = s.elapsed ∧ (incRg64 a1 s).free = s.free ∧ (incRg64 a1
    s).pending = s.pending := by
  intros; unfold incRg64
  first
    | ((repeat' split) <;> simp; done)
    | (dsimp only; (repeat' split) <;> simp [*]; done)
    | ((repeat' apply And.intro) <;> dsimp only <;> (repeat' split) <;> simp [*]; done)

@[simp] theorem stickRg_keeps : ∀ a1 a2 s, (stickRg a1 a2 s).md = s.md ∧ (stickRg a1 a2 s).dev = s.dev ∧ (stickRg a1 a2
    s).pins = s.pins ∧ (stickRg a1 a2 s).side = s.side ∧ (stickRg a1 a2 s).prot = s.prot ∧ (stickRg a1 a2 s).mram =
    s.mram ∧ (stickRg a1 a2 s).img = s.img ∧ (stickRg a1 a2 s).host = s.host ∧ (stickRg a1 a2 s).lat = s.lat ∧ (stickRg
    a1 a2 s).acct = s.acct ∧ (stickRg a1 a2 s).lk = s.lk ∧ (stickRg a1 a2 s).tim = s.tim ∧ (stickRg a1 a2 s).buf = s.buf
    ∧ (stickRg a1 a2 s).eg = s.eg ∧ (stickRg a1 a2 s).tab = s.tab ∧ (stickRg a1 a2 s).gen = s.gen ∧ (stickRg a1 a2
    s).eng = s.eng ∧ (stickRg a1 a2 s).recd = s.recd ∧ (stickRg a1 a2 s).pmu = s.pmu ∧ (stickRg a1 a2 s).svc = s.svc ∧
    (stickRg a1 a2 s).therm = s.therm ∧ (stickRg a1 a2 s).hmem = s.hmem ∧ (stickRg a1 a2 s).now = s.now ∧ (stickRg a1 a2
    s).elapsed = s.elapsed ∧ (stickRg a1 a2 s).free = s.free ∧ (stickRg a1 a2 s).pending = s.pending := by
  intros; unfold stickRg
  first
    | ((repeat' split) <;> simp; done)
    | (dsimp only; (repeat' split) <;> simp [*]; done)
    | ((repeat' apply And.intro) <;> dsimp only <;> (repeat' split) <;> simp [*]; done)

@[simp] theorem forAll_md {α : Type} (f : α → State → State) (h : ∀ a s, (f a s).md = s.md) : ∀ l s, (forAll f l s).md = s.md
  | [], _ => rfl
  | a :: l, s => by rw [forAll, forAll_md f h l]; exact h a s

@[simp] theorem forAll_dev {α : Type} (f : α → State → State) (h : ∀ a s, (f a s).dev = s.dev) : ∀ l s, (forAll f l
    s).dev = s.dev
  | [], _ => rfl
  | a :: l, s => by rw [forAll, forAll_dev f h l]; exact h a s

@[simp] theorem forAll_pins {α : Type} (f : α → State → State) (h : ∀ a s, (f a s).pins = s.pins) : ∀ l s, (forAll f l
    s).pins = s.pins
  | [], _ => rfl
  | a :: l, s => by rw [forAll, forAll_pins f h l]; exact h a s

@[simp] theorem forAll_side {α : Type} (f : α → State → State) (h : ∀ a s, (f a s).side = s.side) : ∀ l s, (forAll f l
    s).side = s.side
  | [], _ => rfl
  | a :: l, s => by rw [forAll, forAll_side f h l]; exact h a s

@[simp] theorem forAll_prot {α : Type} (f : α → State → State) (h : ∀ a s, (f a s).prot = s.prot) : ∀ l s, (forAll f l
    s).prot = s.prot
  | [], _ => rfl
  | a :: l, s => by rw [forAll, forAll_prot f h l]; exact h a s

@[simp] theorem forAll_mram {α : Type} (f : α → State → State) (h : ∀ a s, (f a s).mram = s.mram) : ∀ l s, (forAll f l
    s).mram = s.mram
  | [], _ => rfl
  | a :: l, s => by rw [forAll, forAll_mram f h l]; exact h a s

@[simp] theorem forAll_img {α : Type} (f : α → State → State) (h : ∀ a s, (f a s).img = s.img) : ∀ l s, (forAll f l
    s).img = s.img
  | [], _ => rfl
  | a :: l, s => by rw [forAll, forAll_img f h l]; exact h a s

@[simp] theorem forAll_host {α : Type} (f : α → State → State) (h : ∀ a s, (f a s).host = s.host) : ∀ l s, (forAll f l
    s).host = s.host
  | [], _ => rfl
  | a :: l, s => by rw [forAll, forAll_host f h l]; exact h a s

@[simp] theorem forAll_lat {α : Type} (f : α → State → State) (h : ∀ a s, (f a s).lat = s.lat) : ∀ l s, (forAll f l
    s).lat = s.lat
  | [], _ => rfl
  | a :: l, s => by rw [forAll, forAll_lat f h l]; exact h a s

@[simp] theorem forAll_acct {α : Type} (f : α → State → State) (h : ∀ a s, (f a s).acct = s.acct) : ∀ l s, (forAll f l
    s).acct = s.acct
  | [], _ => rfl
  | a :: l, s => by rw [forAll, forAll_acct f h l]; exact h a s

@[simp] theorem forAll_lk {α : Type} (f : α → State → State) (h : ∀ a s, (f a s).lk = s.lk) : ∀ l s, (forAll f l s).lk = s.lk
  | [], _ => rfl
  | a :: l, s => by rw [forAll, forAll_lk f h l]; exact h a s

@[simp] theorem forAll_tim {α : Type} (f : α → State → State) (h : ∀ a s, (f a s).tim = s.tim) : ∀ l s, (forAll f l
    s).tim = s.tim
  | [], _ => rfl
  | a :: l, s => by rw [forAll, forAll_tim f h l]; exact h a s

@[simp] theorem forAll_buf {α : Type} (f : α → State → State) (h : ∀ a s, (f a s).buf = s.buf) : ∀ l s, (forAll f l
    s).buf = s.buf
  | [], _ => rfl
  | a :: l, s => by rw [forAll, forAll_buf f h l]; exact h a s

@[simp] theorem forAll_eg {α : Type} (f : α → State → State) (h : ∀ a s, (f a s).eg = s.eg) : ∀ l s, (forAll f l s).eg = s.eg
  | [], _ => rfl
  | a :: l, s => by rw [forAll, forAll_eg f h l]; exact h a s

@[simp] theorem forAll_tab {α : Type} (f : α → State → State) (h : ∀ a s, (f a s).tab = s.tab) : ∀ l s, (forAll f l
    s).tab = s.tab
  | [], _ => rfl
  | a :: l, s => by rw [forAll, forAll_tab f h l]; exact h a s

@[simp] theorem forAll_gen {α : Type} (f : α → State → State) (h : ∀ a s, (f a s).gen = s.gen) : ∀ l s, (forAll f l
    s).gen = s.gen
  | [], _ => rfl
  | a :: l, s => by rw [forAll, forAll_gen f h l]; exact h a s

@[simp] theorem forAll_eng {α : Type} (f : α → State → State) (h : ∀ a s, (f a s).eng = s.eng) : ∀ l s, (forAll f l
    s).eng = s.eng
  | [], _ => rfl
  | a :: l, s => by rw [forAll, forAll_eng f h l]; exact h a s

@[simp] theorem forAll_recd {α : Type} (f : α → State → State) (h : ∀ a s, (f a s).recd = s.recd) : ∀ l s, (forAll f l
    s).recd = s.recd
  | [], _ => rfl
  | a :: l, s => by rw [forAll, forAll_recd f h l]; exact h a s

@[simp] theorem forAll_pmu {α : Type} (f : α → State → State) (h : ∀ a s, (f a s).pmu = s.pmu) : ∀ l s, (forAll f l
    s).pmu = s.pmu
  | [], _ => rfl
  | a :: l, s => by rw [forAll, forAll_pmu f h l]; exact h a s

@[simp] theorem forAll_svc {α : Type} (f : α → State → State) (h : ∀ a s, (f a s).svc = s.svc) : ∀ l s, (forAll f l
    s).svc = s.svc
  | [], _ => rfl
  | a :: l, s => by rw [forAll, forAll_svc f h l]; exact h a s

@[simp] theorem forAll_therm {α : Type} (f : α → State → State) (h : ∀ a s, (f a s).therm = s.therm) : ∀ l s, (forAll f
    l s).therm = s.therm
  | [], _ => rfl
  | a :: l, s => by rw [forAll, forAll_therm f h l]; exact h a s

@[simp] theorem forAll_regs {α : Type} (f : α → State → State) (h : ∀ a s, (f a s).regs = s.regs) : ∀ l s, (forAll f l
    s).regs = s.regs
  | [], _ => rfl
  | a :: l, s => by rw [forAll, forAll_regs f h l]; exact h a s

@[simp] theorem forAll_hmem {α : Type} (f : α → State → State) (h : ∀ a s, (f a s).hmem = s.hmem) : ∀ l s, (forAll f l
    s).hmem = s.hmem
  | [], _ => rfl
  | a :: l, s => by rw [forAll, forAll_hmem f h l]; exact h a s

@[simp] theorem forAll_now {α : Type} (f : α → State → State) (h : ∀ a s, (f a s).now = s.now) : ∀ l s, (forAll f l
    s).now = s.now
  | [], _ => rfl
  | a :: l, s => by rw [forAll, forAll_now f h l]; exact h a s

@[simp] theorem forAll_elapsed {α : Type} (f : α → State → State) (h : ∀ a s, (f a s).elapsed = s.elapsed) : ∀ l s,
    (forAll f l s).elapsed = s.elapsed
  | [], _ => rfl
  | a :: l, s => by rw [forAll, forAll_elapsed f h l]; exact h a s

@[simp] theorem forAll_free {α : Type} (f : α → State → State) (h : ∀ a s, (f a s).free = s.free) : ∀ l s, (forAll f l
    s).free = s.free
  | [], _ => rfl
  | a :: l, s => by rw [forAll, forAll_free f h l]; exact h a s

@[simp] theorem forAll_pending {α : Type} (f : α → State → State) (h : ∀ a s, (f a s).pending = s.pending) : ∀ l s,
    (forAll f l s).pending = s.pending
  | [], _ => rfl
  | a :: l, s => by rw [forAll, forAll_pending f h l]; exact h a s

@[simp] theorem whenDo_md (c : Bool) (f : State → State) (s : State) : (whenDo c f s).md = if c then (f s).md else s.md
    := by unfold whenDo; split <;> rfl

@[simp] theorem whenDo_dev (c : Bool) (f : State → State) (s : State) : (whenDo c f s).dev = if c then (f s).dev else
    s.dev := by unfold whenDo; split <;> rfl

@[simp] theorem whenDo_pins (c : Bool) (f : State → State) (s : State) : (whenDo c f s).pins = if c then (f s).pins else
    s.pins := by unfold whenDo; split <;> rfl

@[simp] theorem whenDo_side (c : Bool) (f : State → State) (s : State) : (whenDo c f s).side = if c then (f s).side else
    s.side := by unfold whenDo; split <;> rfl

@[simp] theorem whenDo_prot (c : Bool) (f : State → State) (s : State) : (whenDo c f s).prot = if c then (f s).prot else
    s.prot := by unfold whenDo; split <;> rfl

@[simp] theorem whenDo_mram (c : Bool) (f : State → State) (s : State) : (whenDo c f s).mram = if c then (f s).mram else
    s.mram := by unfold whenDo; split <;> rfl

@[simp] theorem whenDo_img (c : Bool) (f : State → State) (s : State) : (whenDo c f s).img = if c then (f s).img else
    s.img := by unfold whenDo; split <;> rfl

@[simp] theorem whenDo_host (c : Bool) (f : State → State) (s : State) : (whenDo c f s).host = if c then (f s).host else
    s.host := by unfold whenDo; split <;> rfl

@[simp] theorem whenDo_lat (c : Bool) (f : State → State) (s : State) : (whenDo c f s).lat = if c then (f s).lat else
    s.lat := by unfold whenDo; split <;> rfl

@[simp] theorem whenDo_acct (c : Bool) (f : State → State) (s : State) : (whenDo c f s).acct = if c then (f s).acct else
    s.acct := by unfold whenDo; split <;> rfl

@[simp] theorem whenDo_lk (c : Bool) (f : State → State) (s : State) : (whenDo c f s).lk = if c then (f s).lk else s.lk
    := by unfold whenDo; split <;> rfl

@[simp] theorem whenDo_tim (c : Bool) (f : State → State) (s : State) : (whenDo c f s).tim = if c then (f s).tim else
    s.tim := by unfold whenDo; split <;> rfl

@[simp] theorem whenDo_buf (c : Bool) (f : State → State) (s : State) : (whenDo c f s).buf = if c then (f s).buf else
    s.buf := by unfold whenDo; split <;> rfl

@[simp] theorem whenDo_eg (c : Bool) (f : State → State) (s : State) : (whenDo c f s).eg = if c then (f s).eg else s.eg
    := by unfold whenDo; split <;> rfl

@[simp] theorem whenDo_tab (c : Bool) (f : State → State) (s : State) : (whenDo c f s).tab = if c then (f s).tab else
    s.tab := by unfold whenDo; split <;> rfl

@[simp] theorem whenDo_gen (c : Bool) (f : State → State) (s : State) : (whenDo c f s).gen = if c then (f s).gen else
    s.gen := by unfold whenDo; split <;> rfl

@[simp] theorem whenDo_eng (c : Bool) (f : State → State) (s : State) : (whenDo c f s).eng = if c then (f s).eng else
    s.eng := by unfold whenDo; split <;> rfl

@[simp] theorem whenDo_recd (c : Bool) (f : State → State) (s : State) : (whenDo c f s).recd = if c then (f s).recd else
    s.recd := by unfold whenDo; split <;> rfl

@[simp] theorem whenDo_pmu (c : Bool) (f : State → State) (s : State) : (whenDo c f s).pmu = if c then (f s).pmu else
    s.pmu := by unfold whenDo; split <;> rfl

@[simp] theorem whenDo_svc (c : Bool) (f : State → State) (s : State) : (whenDo c f s).svc = if c then (f s).svc else
    s.svc := by unfold whenDo; split <;> rfl

@[simp] theorem whenDo_therm (c : Bool) (f : State → State) (s : State) : (whenDo c f s).therm = if c then (f s).therm
    else s.therm := by unfold whenDo; split <;> rfl

@[simp] theorem whenDo_regs (c : Bool) (f : State → State) (s : State) : (whenDo c f s).regs = if c then (f s).regs else
    s.regs := by unfold whenDo; split <;> rfl

@[simp] theorem whenDo_hmem (c : Bool) (f : State → State) (s : State) : (whenDo c f s).hmem = if c then (f s).hmem else
    s.hmem := by unfold whenDo; split <;> rfl

@[simp] theorem whenDo_now (c : Bool) (f : State → State) (s : State) : (whenDo c f s).now = if c then (f s).now else
    s.now := by unfold whenDo; split <;> rfl

@[simp] theorem whenDo_elapsed (c : Bool) (f : State → State) (s : State) : (whenDo c f s).elapsed = if c then (f
    s).elapsed else s.elapsed := by unfold whenDo; split <;> rfl

@[simp] theorem whenDo_free (c : Bool) (f : State → State) (s : State) : (whenDo c f s).free = if c then (f s).free else
    s.free := by unfold whenDo; split <;> rfl

@[simp] theorem whenDo_pending (c : Bool) (f : State → State) (s : State) : (whenDo c f s).pending = if c then (f
    s).pending else s.pending := by unfold whenDo; split <;> rfl

@[simp] theorem pmuAdd_keeps : ∀ a1 a2 a3 s, (pmuAdd a1 a2 a3 s).md = s.md ∧ (pmuAdd a1 a2 a3 s).dev = s.dev ∧ (pmuAdd
    a1 a2 a3 s).pins = s.pins ∧ (pmuAdd a1 a2 a3 s).side = s.side ∧ (pmuAdd a1 a2 a3 s).prot = s.prot ∧ (pmuAdd a1 a2 a3
    s).mram = s.mram ∧ (pmuAdd a1 a2 a3 s).img = s.img ∧ (pmuAdd a1 a2 a3 s).host = s.host ∧ (pmuAdd a1 a2 a3 s).lat =
    s.lat ∧ (pmuAdd a1 a2 a3 s).acct = s.acct ∧ (pmuAdd a1 a2 a3 s).lk = s.lk ∧ (pmuAdd a1 a2 a3 s).tim = s.tim ∧
    (pmuAdd a1 a2 a3 s).buf = s.buf ∧ (pmuAdd a1 a2 a3 s).eg = s.eg ∧ (pmuAdd a1 a2 a3 s).tab = s.tab ∧ (pmuAdd a1 a2 a3
    s).gen = s.gen ∧ (pmuAdd a1 a2 a3 s).eng = s.eng ∧ (pmuAdd a1 a2 a3 s).recd = s.recd ∧ (pmuAdd a1 a2 a3 s).svc =
    s.svc ∧ (pmuAdd a1 a2 a3 s).therm = s.therm ∧ (pmuAdd a1 a2 a3 s).hmem = s.hmem ∧ (pmuAdd a1 a2 a3 s).now = s.now ∧
    (pmuAdd a1 a2 a3 s).elapsed = s.elapsed ∧ (pmuAdd a1 a2 a3 s).free = s.free ∧ (pmuAdd a1 a2 a3 s).pending =
    s.pending := by
  intros; unfold pmuAdd
  first
    | ((repeat' split) <;> simp; done)
    | (dsimp only; (repeat' split) <;> simp [*]; done)
    | ((repeat' apply And.intro) <;> dsimp only <;> (repeat' split) <;> simp [*]; done)

@[simp] theorem pmuEv_keeps : ∀ a1 a2 a3 a4 a5 s, (pmuEv a1 a2 a3 a4 a5 s).md = s.md ∧ (pmuEv a1 a2 a3 a4 a5 s).dev =
    s.dev ∧ (pmuEv a1 a2 a3 a4 a5 s).pins = s.pins ∧ (pmuEv a1 a2 a3 a4 a5 s).side = s.side ∧ (pmuEv a1 a2 a3 a4 a5
    s).prot = s.prot ∧ (pmuEv a1 a2 a3 a4 a5 s).mram = s.mram ∧ (pmuEv a1 a2 a3 a4 a5 s).img = s.img ∧ (pmuEv a1 a2 a3
    a4 a5 s).host = s.host ∧ (pmuEv a1 a2 a3 a4 a5 s).lat = s.lat ∧ (pmuEv a1 a2 a3 a4 a5 s).acct = s.acct ∧ (pmuEv a1
    a2 a3 a4 a5 s).lk = s.lk ∧ (pmuEv a1 a2 a3 a4 a5 s).tim = s.tim ∧ (pmuEv a1 a2 a3 a4 a5 s).buf = s.buf ∧ (pmuEv a1
    a2 a3 a4 a5 s).eg = s.eg ∧ (pmuEv a1 a2 a3 a4 a5 s).tab = s.tab ∧ (pmuEv a1 a2 a3 a4 a5 s).gen = s.gen ∧ (pmuEv a1
    a2 a3 a4 a5 s).eng = s.eng ∧ (pmuEv a1 a2 a3 a4 a5 s).recd = s.recd ∧ (pmuEv a1 a2 a3 a4 a5 s).svc = s.svc ∧ (pmuEv
    a1 a2 a3 a4 a5 s).therm = s.therm ∧ (pmuEv a1 a2 a3 a4 a5 s).hmem = s.hmem ∧ (pmuEv a1 a2 a3 a4 a5 s).now = s.now ∧
    (pmuEv a1 a2 a3 a4 a5 s).elapsed = s.elapsed ∧ (pmuEv a1 a2 a3 a4 a5 s).free = s.free ∧ (pmuEv a1 a2 a3 a4 a5
    s).pending = s.pending := by
  intros; unfold pmuEv
  first
    | ((repeat' split) <;> simp; done)
    | (dsimp only; (repeat' split) <;> simp [*]; done)
    | ((repeat' apply And.intro) <;> dsimp only <;> (repeat' split) <;> simp [*]; done)

@[simp] theorem pmuIn_keeps : ∀ a1 a2 a3 s, (pmuIn a1 a2 a3 s).md = s.md ∧ (pmuIn a1 a2 a3 s).dev = s.dev ∧ (pmuIn a1 a2
    a3 s).pins = s.pins ∧ (pmuIn a1 a2 a3 s).side = s.side ∧ (pmuIn a1 a2 a3 s).prot = s.prot ∧ (pmuIn a1 a2 a3 s).mram
    = s.mram ∧ (pmuIn a1 a2 a3 s).img = s.img ∧ (pmuIn a1 a2 a3 s).host = s.host ∧ (pmuIn a1 a2 a3 s).lat = s.lat ∧
    (pmuIn a1 a2 a3 s).acct = s.acct ∧ (pmuIn a1 a2 a3 s).lk = s.lk ∧ (pmuIn a1 a2 a3 s).tim = s.tim ∧ (pmuIn a1 a2 a3
    s).buf = s.buf ∧ (pmuIn a1 a2 a3 s).eg = s.eg ∧ (pmuIn a1 a2 a3 s).tab = s.tab ∧ (pmuIn a1 a2 a3 s).gen = s.gen ∧
    (pmuIn a1 a2 a3 s).eng = s.eng ∧ (pmuIn a1 a2 a3 s).recd = s.recd ∧ (pmuIn a1 a2 a3 s).svc = s.svc ∧ (pmuIn a1 a2 a3
    s).therm = s.therm ∧ (pmuIn a1 a2 a3 s).hmem = s.hmem ∧ (pmuIn a1 a2 a3 s).now = s.now ∧ (pmuIn a1 a2 a3 s).elapsed
    = s.elapsed ∧ (pmuIn a1 a2 a3 s).free = s.free ∧ (pmuIn a1 a2 a3 s).pending = s.pending := by
  intros; unfold pmuIn
  first
    | ((repeat' split) <;> simp; done)
    | (dsimp only; (repeat' split) <;> simp [*]; done)
    | ((repeat' apply And.intro) <;> dsimp only <;> (repeat' split) <;> simp [*]; done)

@[simp] theorem pmuOut_keeps : ∀ a1 a2 a3 a4 s, (pmuOut a1 a2 a3 a4 s).md = s.md ∧ (pmuOut a1 a2 a3 a4 s).dev = s.dev ∧
    (pmuOut a1 a2 a3 a4 s).pins = s.pins ∧ (pmuOut a1 a2 a3 a4 s).side = s.side ∧ (pmuOut a1 a2 a3 a4 s).prot = s.prot ∧
    (pmuOut a1 a2 a3 a4 s).mram = s.mram ∧ (pmuOut a1 a2 a3 a4 s).img = s.img ∧ (pmuOut a1 a2 a3 a4 s).host = s.host ∧
    (pmuOut a1 a2 a3 a4 s).lat = s.lat ∧ (pmuOut a1 a2 a3 a4 s).acct = s.acct ∧ (pmuOut a1 a2 a3 a4 s).lk = s.lk ∧
    (pmuOut a1 a2 a3 a4 s).tim = s.tim ∧ (pmuOut a1 a2 a3 a4 s).buf = s.buf ∧ (pmuOut a1 a2 a3 a4 s).eg = s.eg ∧ (pmuOut
    a1 a2 a3 a4 s).tab = s.tab ∧ (pmuOut a1 a2 a3 a4 s).gen = s.gen ∧ (pmuOut a1 a2 a3 a4 s).eng = s.eng ∧ (pmuOut a1 a2
    a3 a4 s).recd = s.recd ∧ (pmuOut a1 a2 a3 a4 s).svc = s.svc ∧ (pmuOut a1 a2 a3 a4 s).therm = s.therm ∧ (pmuOut a1 a2
    a3 a4 s).hmem = s.hmem ∧ (pmuOut a1 a2 a3 a4 s).now = s.now ∧ (pmuOut a1 a2 a3 a4 s).elapsed = s.elapsed ∧ (pmuOut
    a1 a2 a3 a4 s).free = s.free ∧ (pmuOut a1 a2 a3 a4 s).pending = s.pending := by
  intros; unfold pmuOut
  first
    | ((repeat' split) <;> simp; done)
    | (dsimp only; (repeat' split) <;> simp [*]; done)
    | ((repeat' apply And.intro) <;> dsimp only <;> (repeat' split) <;> simp [*]; done)

@[simp] theorem pmuPort1_keeps : ∀ a1 a2 a3 s, (pmuPort1 a1 a2 a3 s).md = s.md ∧ (pmuPort1 a1 a2 a3 s).dev = s.dev ∧
    (pmuPort1 a1 a2 a3 s).pins = s.pins ∧ (pmuPort1 a1 a2 a3 s).side = s.side ∧ (pmuPort1 a1 a2 a3 s).prot = s.prot ∧
    (pmuPort1 a1 a2 a3 s).mram = s.mram ∧ (pmuPort1 a1 a2 a3 s).img = s.img ∧ (pmuPort1 a1 a2 a3 s).host = s.host ∧
    (pmuPort1 a1 a2 a3 s).lat = s.lat ∧ (pmuPort1 a1 a2 a3 s).acct = s.acct ∧ (pmuPort1 a1 a2 a3 s).lk = s.lk ∧
    (pmuPort1 a1 a2 a3 s).tim = s.tim ∧ (pmuPort1 a1 a2 a3 s).buf = s.buf ∧ (pmuPort1 a1 a2 a3 s).eg = s.eg ∧ (pmuPort1
    a1 a2 a3 s).tab = s.tab ∧ (pmuPort1 a1 a2 a3 s).gen = s.gen ∧ (pmuPort1 a1 a2 a3 s).eng = s.eng ∧ (pmuPort1 a1 a2 a3
    s).recd = s.recd ∧ (pmuPort1 a1 a2 a3 s).svc = s.svc ∧ (pmuPort1 a1 a2 a3 s).therm = s.therm ∧ (pmuPort1 a1 a2 a3
    s).hmem = s.hmem ∧ (pmuPort1 a1 a2 a3 s).now = s.now ∧ (pmuPort1 a1 a2 a3 s).elapsed = s.elapsed ∧ (pmuPort1 a1 a2
    a3 s).free = s.free ∧ (pmuPort1 a1 a2 a3 s).pending = s.pending := by
  intros; unfold pmuPort1
  first
    | ((repeat' split) <;> simp; done)
    | (dsimp only; (repeat' split) <;> simp [*]; done)
    | ((repeat' apply And.intro) <;> dsimp only <;> (repeat' split) <;> simp [*]; done)

@[simp] theorem pmuWindowCtr_keeps : ∀ a1 a2 a3 a4 a5 a6 s, (pmuWindowCtr a1 a2 a3 a4 a5 a6 s).md = s.md ∧ (pmuWindowCtr
    a1 a2 a3 a4 a5 a6 s).dev = s.dev ∧ (pmuWindowCtr a1 a2 a3 a4 a5 a6 s).pins = s.pins ∧ (pmuWindowCtr a1 a2 a3 a4 a5
    a6 s).side = s.side ∧ (pmuWindowCtr a1 a2 a3 a4 a5 a6 s).prot = s.prot ∧ (pmuWindowCtr a1 a2 a3 a4 a5 a6 s).mram =
    s.mram ∧ (pmuWindowCtr a1 a2 a3 a4 a5 a6 s).img = s.img ∧ (pmuWindowCtr a1 a2 a3 a4 a5 a6 s).host = s.host ∧
    (pmuWindowCtr a1 a2 a3 a4 a5 a6 s).lat = s.lat ∧ (pmuWindowCtr a1 a2 a3 a4 a5 a6 s).acct = s.acct ∧ (pmuWindowCtr a1
    a2 a3 a4 a5 a6 s).lk = s.lk ∧ (pmuWindowCtr a1 a2 a3 a4 a5 a6 s).tim = s.tim ∧ (pmuWindowCtr a1 a2 a3 a4 a5 a6
    s).buf = s.buf ∧ (pmuWindowCtr a1 a2 a3 a4 a5 a6 s).eg = s.eg ∧ (pmuWindowCtr a1 a2 a3 a4 a5 a6 s).tab = s.tab ∧
    (pmuWindowCtr a1 a2 a3 a4 a5 a6 s).gen = s.gen ∧ (pmuWindowCtr a1 a2 a3 a4 a5 a6 s).eng = s.eng ∧ (pmuWindowCtr a1
    a2 a3 a4 a5 a6 s).recd = s.recd ∧ (pmuWindowCtr a1 a2 a3 a4 a5 a6 s).svc = s.svc ∧ (pmuWindowCtr a1 a2 a3 a4 a5 a6
    s).therm = s.therm ∧ (pmuWindowCtr a1 a2 a3 a4 a5 a6 s).regs = s.regs ∧ (pmuWindowCtr a1 a2 a3 a4 a5 a6 s).hmem =
    s.hmem ∧ (pmuWindowCtr a1 a2 a3 a4 a5 a6 s).now = s.now ∧ (pmuWindowCtr a1 a2 a3 a4 a5 a6 s).elapsed = s.elapsed ∧
    (pmuWindowCtr a1 a2 a3 a4 a5 a6 s).free = s.free ∧ (pmuWindowCtr a1 a2 a3 a4 a5 a6 s).pending = s.pending := by
  intros; unfold pmuWindowCtr
  first
    | ((repeat' split) <;> simp; done)
    | (dsimp only; (repeat' split) <;> simp [*]; done)
    | ((repeat' apply And.intro) <;> dsimp only <;> (repeat' split) <;> simp [*]; done)

@[simp] theorem pmuWindow_keeps : ∀ a1 a2 a3 a4 a5 s, (pmuWindow a1 a2 a3 a4 a5 s).md = s.md ∧ (pmuWindow a1 a2 a3 a4 a5
    s).dev = s.dev ∧ (pmuWindow a1 a2 a3 a4 a5 s).pins = s.pins ∧ (pmuWindow a1 a2 a3 a4 a5 s).side = s.side ∧
    (pmuWindow a1 a2 a3 a4 a5 s).prot = s.prot ∧ (pmuWindow a1 a2 a3 a4 a5 s).mram = s.mram ∧ (pmuWindow a1 a2 a3 a4 a5
    s).img = s.img ∧ (pmuWindow a1 a2 a3 a4 a5 s).host = s.host ∧ (pmuWindow a1 a2 a3 a4 a5 s).lat = s.lat ∧ (pmuWindow
    a1 a2 a3 a4 a5 s).acct = s.acct ∧ (pmuWindow a1 a2 a3 a4 a5 s).lk = s.lk ∧ (pmuWindow a1 a2 a3 a4 a5 s).tim = s.tim
    ∧ (pmuWindow a1 a2 a3 a4 a5 s).buf = s.buf ∧ (pmuWindow a1 a2 a3 a4 a5 s).eg = s.eg ∧ (pmuWindow a1 a2 a3 a4 a5
    s).tab = s.tab ∧ (pmuWindow a1 a2 a3 a4 a5 s).gen = s.gen ∧ (pmuWindow a1 a2 a3 a4 a5 s).eng = s.eng ∧ (pmuWindow a1
    a2 a3 a4 a5 s).recd = s.recd ∧ (pmuWindow a1 a2 a3 a4 a5 s).svc = s.svc ∧ (pmuWindow a1 a2 a3 a4 a5 s).therm =
    s.therm ∧ (pmuWindow a1 a2 a3 a4 a5 s).regs = s.regs ∧ (pmuWindow a1 a2 a3 a4 a5 s).hmem = s.hmem ∧ (pmuWindow a1 a2
    a3 a4 a5 s).now = s.now ∧ (pmuWindow a1 a2 a3 a4 a5 s).elapsed = s.elapsed ∧ (pmuWindow a1 a2 a3 a4 a5 s).free =
    s.free ∧ (pmuWindow a1 a2 a3 a4 a5 s).pending = s.pending := by
  intros; unfold pmuWindow
  first
    | ((repeat' split) <;> simp; done)
    | (dsimp only; (repeat' split) <;> simp [*]; done)
    | ((repeat' apply And.intro) <;> dsimp only <;> (repeat' split) <;> simp [*]; done)

@[simp] theorem tried_keeps : ∀ s, (tried s).md = s.md ∧ (tried s).dev = s.dev ∧ (tried s).pins = s.pins ∧ (tried
    s).side = s.side ∧ (tried s).prot = s.prot ∧ (tried s).mram = s.mram ∧ (tried s).img = s.img ∧ (tried s).host =
    s.host ∧ (tried s).lat = s.lat ∧ (tried s).acct = s.acct ∧ (tried s).lk = s.lk ∧ (tried s).tim = s.tim ∧ (tried
    s).buf = s.buf ∧ (tried s).eg = s.eg ∧ (tried s).tab = s.tab ∧ (tried s).gen = s.gen ∧ (tried s).eng = s.eng ∧
    (tried s).recd = s.recd ∧ (tried s).svc = s.svc ∧ (tried s).therm = s.therm ∧ (tried s).regs = s.regs ∧ (tried
    s).hmem = s.hmem ∧ (tried s).now = s.now ∧ (tried s).elapsed = s.elapsed ∧ (tried s).free = s.free ∧ (tried
    s).pending = s.pending := by
  intros; unfold tried
  first
    | ((repeat' split) <;> simp; done)
    | (dsimp only; (repeat' split) <;> simp [*]; done)
    | ((repeat' apply And.intro) <;> dsimp only <;> (repeat' split) <;> simp [*]; done)

@[simp] theorem basinWords_keeps : ∀ a1 s, (basinWords a1 s).md = s.md ∧ (basinWords a1 s).dev = s.dev ∧ (basinWords a1
    s).pins = s.pins ∧ (basinWords a1 s).side = s.side ∧ (basinWords a1 s).prot = s.prot ∧ (basinWords a1 s).mram =
    s.mram ∧ (basinWords a1 s).img = s.img ∧ (basinWords a1 s).host = s.host ∧ (basinWords a1 s).lat = s.lat ∧
    (basinWords a1 s).acct = s.acct ∧ (basinWords a1 s).lk = s.lk ∧ (basinWords a1 s).tim = s.tim ∧ (basinWords a1
    s).buf = s.buf ∧ (basinWords a1 s).eg = s.eg ∧ (basinWords a1 s).tab = s.tab ∧ (basinWords a1 s).gen = s.gen ∧
    (basinWords a1 s).eng = s.eng ∧ (basinWords a1 s).recd = s.recd ∧ (basinWords a1 s).svc = s.svc ∧ (basinWords a1
    s).therm = s.therm ∧ (basinWords a1 s).hmem = s.hmem ∧ (basinWords a1 s).now = s.now ∧ (basinWords a1 s).elapsed =
    s.elapsed ∧ (basinWords a1 s).free = s.free ∧ (basinWords a1 s).pending = s.pending := by
  intros; unfold basinWords
  first
    | ((repeat' split) <;> simp; done)
    | (dsimp only; (repeat' split) <;> simp [*]; done)
    | ((repeat' apply And.intro) <;> dsimp only <;> (repeat' split) <;> simp [*]; done)

@[simp] theorem hbmBurst_keeps : ∀ a1 a2 a3 a4 s, (hbmBurst a1 a2 a3 a4 s).md = s.md ∧ (hbmBurst a1 a2 a3 a4 s).dev =
    s.dev ∧ (hbmBurst a1 a2 a3 a4 s).pins = s.pins ∧ (hbmBurst a1 a2 a3 a4 s).side = s.side ∧ (hbmBurst a1 a2 a3 a4
    s).prot = s.prot ∧ (hbmBurst a1 a2 a3 a4 s).mram = s.mram ∧ (hbmBurst a1 a2 a3 a4 s).img = s.img ∧ (hbmBurst a1 a2
    a3 a4 s).host = s.host ∧ (hbmBurst a1 a2 a3 a4 s).lat = s.lat ∧ (hbmBurst a1 a2 a3 a4 s).acct = s.acct ∧ (hbmBurst
    a1 a2 a3 a4 s).lk = s.lk ∧ (hbmBurst a1 a2 a3 a4 s).tim = s.tim ∧ (hbmBurst a1 a2 a3 a4 s).buf = s.buf ∧ (hbmBurst
    a1 a2 a3 a4 s).eg = s.eg ∧ (hbmBurst a1 a2 a3 a4 s).tab = s.tab ∧ (hbmBurst a1 a2 a3 a4 s).gen = s.gen ∧ (hbmBurst
    a1 a2 a3 a4 s).eng = s.eng ∧ (hbmBurst a1 a2 a3 a4 s).recd = s.recd ∧ (hbmBurst a1 a2 a3 a4 s).svc = s.svc ∧
    (hbmBurst a1 a2 a3 a4 s).therm = s.therm ∧ (hbmBurst a1 a2 a3 a4 s).hmem = s.hmem ∧ (hbmBurst a1 a2 a3 a4 s).now =
    s.now ∧ (hbmBurst a1 a2 a3 a4 s).elapsed = s.elapsed ∧ (hbmBurst a1 a2 a3 a4 s).free = s.free ∧ (hbmBurst a1 a2 a3
    a4 s).pending = s.pending := by
  intros; unfold hbmBurst
  first
    | ((repeat' split) <;> simp; done)
    | (dsimp only; (repeat' split) <;> simp [*]; done)
    | ((repeat' apply And.intro) <;> dsimp only <;> (repeat' split) <;> simp [*]; done)

@[simp] theorem hbmCorrected_keeps : ∀ a1 a2 s, (hbmCorrected a1 a2 s).md = s.md ∧ (hbmCorrected a1 a2 s).dev = s.dev ∧
    (hbmCorrected a1 a2 s).pins = s.pins ∧ (hbmCorrected a1 a2 s).side = s.side ∧ (hbmCorrected a1 a2 s).prot = s.prot ∧
    (hbmCorrected a1 a2 s).mram = s.mram ∧ (hbmCorrected a1 a2 s).img = s.img ∧ (hbmCorrected a1 a2 s).host = s.host ∧
    (hbmCorrected a1 a2 s).lat = s.lat ∧ (hbmCorrected a1 a2 s).acct = s.acct ∧ (hbmCorrected a1 a2 s).lk = s.lk ∧
    (hbmCorrected a1 a2 s).tim = s.tim ∧ (hbmCorrected a1 a2 s).buf = s.buf ∧ (hbmCorrected a1 a2 s).eg = s.eg ∧
    (hbmCorrected a1 a2 s).tab = s.tab ∧ (hbmCorrected a1 a2 s).gen = s.gen ∧ (hbmCorrected a1 a2 s).eng = s.eng ∧
    (hbmCorrected a1 a2 s).recd = s.recd ∧ (hbmCorrected a1 a2 s).svc = s.svc ∧ (hbmCorrected a1 a2 s).therm = s.therm ∧
    (hbmCorrected a1 a2 s).hmem = s.hmem ∧ (hbmCorrected a1 a2 s).now = s.now ∧ (hbmCorrected a1 a2 s).elapsed =
    s.elapsed ∧ (hbmCorrected a1 a2 s).free = s.free ∧ (hbmCorrected a1 a2 s).pending = s.pending := by
  intros; unfold hbmCorrected
  first
    | ((repeat' split) <;> simp; done)
    | (dsimp only; (repeat' split) <;> simp [*]; done)
    | ((repeat' apply And.intro) <;> dsimp only <;> (repeat' split) <;> simp [*]; done)

@[simp] theorem hbmReadBack_keeps : ∀ a1 a2 a3 s, (hbmReadBack a1 a2 a3 s).md = s.md ∧ (hbmReadBack a1 a2 a3 s).dev =
    s.dev ∧ (hbmReadBack a1 a2 a3 s).pins = s.pins ∧ (hbmReadBack a1 a2 a3 s).side = s.side ∧ (hbmReadBack a1 a2 a3
    s).prot = s.prot ∧ (hbmReadBack a1 a2 a3 s).mram = s.mram ∧ (hbmReadBack a1 a2 a3 s).img = s.img ∧ (hbmReadBack a1
    a2 a3 s).host = s.host ∧ (hbmReadBack a1 a2 a3 s).lat = s.lat ∧ (hbmReadBack a1 a2 a3 s).acct = s.acct ∧
    (hbmReadBack a1 a2 a3 s).lk = s.lk ∧ (hbmReadBack a1 a2 a3 s).tim = s.tim ∧ (hbmReadBack a1 a2 a3 s).buf = s.buf ∧
    (hbmReadBack a1 a2 a3 s).eg = s.eg ∧ (hbmReadBack a1 a2 a3 s).tab = s.tab ∧ (hbmReadBack a1 a2 a3 s).gen = s.gen ∧
    (hbmReadBack a1 a2 a3 s).eng = s.eng ∧ (hbmReadBack a1 a2 a3 s).recd = s.recd ∧ (hbmReadBack a1 a2 a3 s).svc = s.svc
    ∧ (hbmReadBack a1 a2 a3 s).therm = s.therm ∧ (hbmReadBack a1 a2 a3 s).hmem = s.hmem ∧ (hbmReadBack a1 a2 a3 s).now =
    s.now ∧ (hbmReadBack a1 a2 a3 s).elapsed = s.elapsed ∧ (hbmReadBack a1 a2 a3 s).free = s.free ∧ (hbmReadBack a1 a2
    a3 s).pending = s.pending := by
  intros; unfold hbmReadBack
  first
    | ((repeat' split) <;> simp; done)
    | (dsimp only; (repeat' split) <;> simp [*]; done)
    | ((repeat' apply And.intro) <;> dsimp only <;> (repeat' split) <;> simp [*]; done)

@[simp] theorem testTraffic_keeps : ∀ a1 a2 s, (testTraffic a1 a2 s).md = s.md ∧ (testTraffic a1 a2 s).dev = s.dev ∧
    (testTraffic a1 a2 s).pins = s.pins ∧ (testTraffic a1 a2 s).side = s.side ∧ (testTraffic a1 a2 s).prot = s.prot ∧
    (testTraffic a1 a2 s).mram = s.mram ∧ (testTraffic a1 a2 s).img = s.img ∧ (testTraffic a1 a2 s).host = s.host ∧
    (testTraffic a1 a2 s).lat = s.lat ∧ (testTraffic a1 a2 s).acct = s.acct ∧ (testTraffic a1 a2 s).lk = s.lk ∧
    (testTraffic a1 a2 s).tim = s.tim ∧ (testTraffic a1 a2 s).buf = s.buf ∧ (testTraffic a1 a2 s).eg = s.eg ∧
    (testTraffic a1 a2 s).tab = s.tab ∧ (testTraffic a1 a2 s).gen = s.gen ∧ (testTraffic a1 a2 s).eng = s.eng ∧
    (testTraffic a1 a2 s).recd = s.recd ∧ (testTraffic a1 a2 s).svc = s.svc ∧ (testTraffic a1 a2 s).therm = s.therm ∧
    (testTraffic a1 a2 s).hmem = s.hmem ∧ (testTraffic a1 a2 s).now = s.now ∧ (testTraffic a1 a2 s).elapsed = s.elapsed
    ∧ (testTraffic a1 a2 s).free = s.free ∧ (testTraffic a1 a2 s).pending = s.pending := by
  intros; unfold testTraffic
  first
    | ((repeat' split) <;> simp; done)
    | (dsimp only; (repeat' split) <;> simp [*]; done)
    | ((repeat' apply And.intro) <;> dsimp only <;> (repeat' split) <;> simp [*]; done)

@[simp] theorem pmuPass_keeps : ∀ a1 a2 s, (pmuPass a1 a2 s).md = s.md ∧ (pmuPass a1 a2 s).dev = s.dev ∧ (pmuPass a1 a2
    s).pins = s.pins ∧ (pmuPass a1 a2 s).side = s.side ∧ (pmuPass a1 a2 s).prot = s.prot ∧ (pmuPass a1 a2 s).mram =
    s.mram ∧ (pmuPass a1 a2 s).img = s.img ∧ (pmuPass a1 a2 s).host = s.host ∧ (pmuPass a1 a2 s).lat = s.lat ∧ (pmuPass
    a1 a2 s).acct = s.acct ∧ (pmuPass a1 a2 s).lk = s.lk ∧ (pmuPass a1 a2 s).tim = s.tim ∧ (pmuPass a1 a2 s).buf = s.buf
    ∧ (pmuPass a1 a2 s).eg = s.eg ∧ (pmuPass a1 a2 s).tab = s.tab ∧ (pmuPass a1 a2 s).gen = s.gen ∧ (pmuPass a1 a2
    s).eng = s.eng ∧ (pmuPass a1 a2 s).recd = s.recd ∧ (pmuPass a1 a2 s).svc = s.svc ∧ (pmuPass a1 a2 s).therm = s.therm
    ∧ (pmuPass a1 a2 s).hmem = s.hmem ∧ (pmuPass a1 a2 s).now = s.now ∧ (pmuPass a1 a2 s).elapsed = s.elapsed ∧ (pmuPass
    a1 a2 s).free = s.free ∧ (pmuPass a1 a2 s).pending = s.pending := by
  intros; unfold pmuPass
  first
    | ((repeat' split) <;> simp; done)
    | (dsimp only; (repeat' split) <;> simp [*]; done)
    | ((repeat' apply And.intro) <;> dsimp only <;> (repeat' split) <;> simp [*]; done)

@[simp] theorem passTo_keeps : ∀ a1 a2 s, (passTo a1 a2 s).md = s.md ∧ (passTo a1 a2 s).dev = s.dev ∧ (passTo a1 a2
    s).pins = s.pins ∧ (passTo a1 a2 s).side = s.side ∧ (passTo a1 a2 s).prot = s.prot ∧ (passTo a1 a2 s).mram = s.mram
    ∧ (passTo a1 a2 s).img = s.img ∧ (passTo a1 a2 s).host = s.host ∧ (passTo a1 a2 s).lat = s.lat ∧ (passTo a1 a2
    s).acct = s.acct ∧ (passTo a1 a2 s).lk = s.lk ∧ (passTo a1 a2 s).buf = s.buf ∧ (passTo a1 a2 s).eg = s.eg ∧ (passTo
    a1 a2 s).tab = s.tab ∧ (passTo a1 a2 s).gen = s.gen ∧ (passTo a1 a2 s).eng = s.eng ∧ (passTo a1 a2 s).recd = s.recd
    ∧ (passTo a1 a2 s).svc = s.svc ∧ (passTo a1 a2 s).therm = s.therm ∧ (passTo a1 a2 s).hmem = s.hmem ∧ (passTo a1 a2
    s).free = s.free ∧ (passTo a1 a2 s).pending = s.pending := by
  intros; unfold passTo
  first
    | ((repeat' split) <;> simp; done)
    | (dsimp only; (repeat' split) <;> simp [*]; done)
    | ((repeat' apply And.intro) <;> dsimp only <;> (repeat' split) <;> simp [*]; done)

@[simp] theorem passFor_keeps : ∀ a1 s, (passFor a1 s).md = s.md ∧ (passFor a1 s).dev = s.dev ∧ (passFor a1 s).pins =
    s.pins ∧ (passFor a1 s).side = s.side ∧ (passFor a1 s).prot = s.prot ∧ (passFor a1 s).mram = s.mram ∧ (passFor a1
    s).img = s.img ∧ (passFor a1 s).host = s.host ∧ (passFor a1 s).lat = s.lat ∧ (passFor a1 s).acct = s.acct ∧ (passFor
    a1 s).lk = s.lk ∧ (passFor a1 s).buf = s.buf ∧ (passFor a1 s).eg = s.eg ∧ (passFor a1 s).tab = s.tab ∧ (passFor a1
    s).gen = s.gen ∧ (passFor a1 s).eng = s.eng ∧ (passFor a1 s).recd = s.recd ∧ (passFor a1 s).svc = s.svc ∧ (passFor
    a1 s).therm = s.therm ∧ (passFor a1 s).hmem = s.hmem ∧ (passFor a1 s).free = s.free ∧ (passFor a1 s).pending =
    s.pending := by
  intros; unfold passFor
  first
    | ((repeat' split) <;> simp; done)
    | (dsimp only; (repeat' split) <;> simp [*]; done)
    | ((repeat' apply And.intro) <;> dsimp only <;> (repeat' split) <;> simp [*]; done)

@[simp] theorem reach_keeps : ∀ a1 s, (reach a1 s).md = s.md ∧ (reach a1 s).dev = s.dev ∧ (reach a1 s).pins = s.pins ∧
    (reach a1 s).side = s.side ∧ (reach a1 s).prot = s.prot ∧ (reach a1 s).mram = s.mram ∧ (reach a1 s).img = s.img ∧
    (reach a1 s).host = s.host ∧ (reach a1 s).lat = s.lat ∧ (reach a1 s).acct = s.acct ∧ (reach a1 s).lk = s.lk ∧ (reach
    a1 s).buf = s.buf ∧ (reach a1 s).eg = s.eg ∧ (reach a1 s).tab = s.tab ∧ (reach a1 s).gen = s.gen ∧ (reach a1 s).eng
    = s.eng ∧ (reach a1 s).recd = s.recd ∧ (reach a1 s).svc = s.svc ∧ (reach a1 s).therm = s.therm ∧ (reach a1 s).hmem =
    s.hmem ∧ (reach a1 s).free = s.free ∧ (reach a1 s).pending = s.pending := by
  intros; unfold reach
  first
    | ((repeat' split) <;> simp; done)
    | (dsimp only; (repeat' split) <;> simp [*]; done)
    | ((repeat' apply And.intro) <;> dsimp only <;> (repeat' split) <;> simp [*]; done)

@[simp] theorem reachElapsed_keeps : ∀ a1 s, (reachElapsed a1 s).md = s.md ∧ (reachElapsed a1 s).dev = s.dev ∧
    (reachElapsed a1 s).pins = s.pins ∧ (reachElapsed a1 s).side = s.side ∧ (reachElapsed a1 s).prot = s.prot ∧
    (reachElapsed a1 s).mram = s.mram ∧ (reachElapsed a1 s).img = s.img ∧ (reachElapsed a1 s).host = s.host ∧
    (reachElapsed a1 s).lat = s.lat ∧ (reachElapsed a1 s).acct = s.acct ∧ (reachElapsed a1 s).lk = s.lk ∧ (reachElapsed
    a1 s).buf = s.buf ∧ (reachElapsed a1 s).eg = s.eg ∧ (reachElapsed a1 s).tab = s.tab ∧ (reachElapsed a1 s).gen =
    s.gen ∧ (reachElapsed a1 s).eng = s.eng ∧ (reachElapsed a1 s).recd = s.recd ∧ (reachElapsed a1 s).svc = s.svc ∧
    (reachElapsed a1 s).therm = s.therm ∧ (reachElapsed a1 s).hmem = s.hmem ∧ (reachElapsed a1 s).free = s.free ∧
    (reachElapsed a1 s).pending = s.pending := by
  intros; unfold reachElapsed
  first
    | ((repeat' split) <;> simp; done)
    | (dsimp only; (repeat' split) <;> simp [*]; done)
    | ((repeat' apply And.intro) <;> dsimp only <;> (repeat' split) <;> simp [*]; done)

@[simp] theorem drew_keeps : ∀ s, (drew s).md = s.md ∧ (drew s).dev = s.dev ∧ (drew s).pins = s.pins ∧ (drew s).side =
    s.side ∧ (drew s).prot = s.prot ∧ (drew s).mram = s.mram ∧ (drew s).img = s.img ∧ (drew s).host = s.host ∧ (drew
    s).lat = s.lat ∧ (drew s).acct = s.acct ∧ (drew s).lk = s.lk ∧ (drew s).tim = s.tim ∧ (drew s).buf = s.buf ∧ (drew
    s).eg = s.eg ∧ (drew s).tab = s.tab ∧ (drew s).gen = s.gen ∧ (drew s).eng = s.eng ∧ (drew s).recd = s.recd ∧ (drew
    s).pmu = s.pmu ∧ (drew s).svc = s.svc ∧ (drew s).therm = s.therm ∧ (drew s).regs = s.regs ∧ (drew s).hmem = s.hmem ∧
    (drew s).now = s.now ∧ (drew s).elapsed = s.elapsed ∧ (drew s).pending = s.pending := by
  intros; unfold drew
  first
    | ((repeat' split) <;> simp; done)
    | (dsimp only; (repeat' split) <;> simp [*]; done)
    | ((repeat' apply And.intro) <;> dsimp only <;> (repeat' split) <;> simp [*]; done)

@[simp] theorem hostWrote_keeps : ∀ a1 s, (hostWrote a1 s).md = s.md ∧ (hostWrote a1 s).dev = s.dev ∧ (hostWrote a1
    s).pins = s.pins ∧ (hostWrote a1 s).side = s.side ∧ (hostWrote a1 s).prot = s.prot ∧ (hostWrote a1 s).mram = s.mram
    ∧ (hostWrote a1 s).img = s.img ∧ (hostWrote a1 s).host = s.host ∧ (hostWrote a1 s).lat = s.lat ∧ (hostWrote a1
    s).acct = s.acct ∧ (hostWrote a1 s).lk = s.lk ∧ (hostWrote a1 s).tim = s.tim ∧ (hostWrote a1 s).buf = s.buf ∧
    (hostWrote a1 s).eg = s.eg ∧ (hostWrote a1 s).tab = s.tab ∧ (hostWrote a1 s).gen = s.gen ∧ (hostWrote a1 s).eng =
    s.eng ∧ (hostWrote a1 s).recd = s.recd ∧ (hostWrote a1 s).pmu = s.pmu ∧ (hostWrote a1 s).svc = s.svc ∧ (hostWrote a1
    s).therm = s.therm ∧ (hostWrote a1 s).regs = s.regs ∧ (hostWrote a1 s).now = s.now ∧ (hostWrote a1 s).elapsed =
    s.elapsed ∧ (hostWrote a1 s).free = s.free ∧ (hostWrote a1 s).pending = s.pending := by
  intros; unfold hostWrote
  first
    | ((repeat' split) <;> simp; done)
    | (dsimp only; (repeat' split) <;> simp [*]; done)
    | ((repeat' apply And.intro) <;> dsimp only <;> (repeat' split) <;> simp [*]; done)

@[simp] theorem dmaWrite_keeps : ∀ a1 a2 s, (dmaWrite a1 a2 s).md = s.md ∧ (dmaWrite a1 a2 s).dev = s.dev ∧ (dmaWrite a1
    a2 s).pins = s.pins ∧ (dmaWrite a1 a2 s).side = s.side ∧ (dmaWrite a1 a2 s).prot = s.prot ∧ (dmaWrite a1 a2 s).mram
    = s.mram ∧ (dmaWrite a1 a2 s).img = s.img ∧ (dmaWrite a1 a2 s).host = s.host ∧ (dmaWrite a1 a2 s).lat = s.lat ∧
    (dmaWrite a1 a2 s).acct = s.acct ∧ (dmaWrite a1 a2 s).lk = s.lk ∧ (dmaWrite a1 a2 s).tim = s.tim ∧ (dmaWrite a1 a2
    s).buf = s.buf ∧ (dmaWrite a1 a2 s).eg = s.eg ∧ (dmaWrite a1 a2 s).tab = s.tab ∧ (dmaWrite a1 a2 s).gen = s.gen ∧
    (dmaWrite a1 a2 s).eng = s.eng ∧ (dmaWrite a1 a2 s).recd = s.recd ∧ (dmaWrite a1 a2 s).svc = s.svc ∧ (dmaWrite a1 a2
    s).therm = s.therm ∧ (dmaWrite a1 a2 s).now = s.now ∧ (dmaWrite a1 a2 s).elapsed = s.elapsed ∧ (dmaWrite a1 a2
    s).free = s.free ∧ (dmaWrite a1 a2 s).pending = s.pending := by
  intros; unfold dmaWrite
  first
    | ((repeat' split) <;> simp; done)
    | (dsimp only; (repeat' split) <;> simp [*]; done)
    | ((repeat' apply And.intro) <;> dsimp only <;> (repeat' split) <;> simp [*]; done)

@[simp] theorem emit_keeps : ∀ a1 a2 a3 a4 s, (emit a1 a2 a3 a4 s).md = s.md ∧ (emit a1 a2 a3 a4 s).dev = s.dev ∧ (emit
    a1 a2 a3 a4 s).pins = s.pins ∧ (emit a1 a2 a3 a4 s).side = s.side ∧ (emit a1 a2 a3 a4 s).prot = s.prot ∧ (emit a1 a2
    a3 a4 s).mram = s.mram ∧ (emit a1 a2 a3 a4 s).img = s.img ∧ (emit a1 a2 a3 a4 s).lat = s.lat ∧ (emit a1 a2 a3 a4
    s).acct = s.acct ∧ (emit a1 a2 a3 a4 s).lk = s.lk ∧ (emit a1 a2 a3 a4 s).tim = s.tim ∧ (emit a1 a2 a3 a4 s).buf =
    s.buf ∧ (emit a1 a2 a3 a4 s).eg = s.eg ∧ (emit a1 a2 a3 a4 s).tab = s.tab ∧ (emit a1 a2 a3 a4 s).gen = s.gen ∧ (emit
    a1 a2 a3 a4 s).eng = s.eng ∧ (emit a1 a2 a3 a4 s).recd = s.recd ∧ (emit a1 a2 a3 a4 s).pmu = s.pmu ∧ (emit a1 a2 a3
    a4 s).svc = s.svc ∧ (emit a1 a2 a3 a4 s).therm = s.therm ∧ (emit a1 a2 a3 a4 s).hmem = s.hmem ∧ (emit a1 a2 a3 a4
    s).now = s.now ∧ (emit a1 a2 a3 a4 s).elapsed = s.elapsed ∧ (emit a1 a2 a3 a4 s).free = s.free ∧ (emit a1 a2 a3 a4
    s).pending = s.pending := by
  intros; unfold emit
  first
    | ((repeat' split) <;> simp; done)
    | (dsimp only; (repeat' split) <;> simp [*]; done)
    | ((repeat' apply And.intro) <;> dsimp only <;> (repeat' split) <;> simp [*]; done)

@[simp] theorem breach_keeps : ∀ a1 s, (breach a1 s).md = s.md ∧ (breach a1 s).dev = s.dev ∧ (breach a1 s).pins = s.pins
    ∧ (breach a1 s).side = s.side ∧ (breach a1 s).prot = s.prot ∧ (breach a1 s).mram = s.mram ∧ (breach a1 s).img =
    s.img ∧ (breach a1 s).lat = s.lat ∧ (breach a1 s).acct = s.acct ∧ (breach a1 s).lk = s.lk ∧ (breach a1 s).tim =
    s.tim ∧ (breach a1 s).buf = s.buf ∧ (breach a1 s).eg = s.eg ∧ (breach a1 s).tab = s.tab ∧ (breach a1 s).gen = s.gen
    ∧ (breach a1 s).eng = s.eng ∧ (breach a1 s).recd = s.recd ∧ (breach a1 s).pmu = s.pmu ∧ (breach a1 s).svc = s.svc ∧
    (breach a1 s).therm = s.therm ∧ (breach a1 s).hmem = s.hmem ∧ (breach a1 s).now = s.now ∧ (breach a1 s).elapsed =
    s.elapsed ∧ (breach a1 s).free = s.free ∧ (breach a1 s).pending = s.pending := by
  intros; unfold breach
  first
    | ((repeat' split) <;> simp; done)
    | (dsimp only; (repeat' split) <;> simp [*]; done)
    | ((repeat' apply And.intro) <;> dsimp only <;> (repeat' split) <;> simp [*]; done)

@[simp] theorem wEvent_keeps : ∀ a1 s, (wEvent a1 s).md = s.md ∧ (wEvent a1 s).dev = s.dev ∧ (wEvent a1 s).pins = s.pins
    ∧ (wEvent a1 s).prot = s.prot ∧ (wEvent a1 s).mram = s.mram ∧ (wEvent a1 s).img = s.img ∧ (wEvent a1 s).host =
    s.host ∧ (wEvent a1 s).lat = s.lat ∧ (wEvent a1 s).acct = s.acct ∧ (wEvent a1 s).lk = s.lk ∧ (wEvent a1 s).tim =
    s.tim ∧ (wEvent a1 s).buf = s.buf ∧ (wEvent a1 s).eg = s.eg ∧ (wEvent a1 s).tab = s.tab ∧ (wEvent a1 s).gen = s.gen
    ∧ (wEvent a1 s).eng = s.eng ∧ (wEvent a1 s).recd = s.recd ∧ (wEvent a1 s).pmu = s.pmu ∧ (wEvent a1 s).svc = s.svc ∧
    (wEvent a1 s).therm = s.therm ∧ (wEvent a1 s).regs = s.regs ∧ (wEvent a1 s).hmem = s.hmem ∧ (wEvent a1 s).now =
    s.now ∧ (wEvent a1 s).elapsed = s.elapsed ∧ (wEvent a1 s).free = s.free ∧ (wEvent a1 s).pending = s.pending := by
  intros; unfold wEvent
  first
    | ((repeat' split) <;> simp; done)
    | (dsimp only; (repeat' split) <;> simp [*]; done)
    | ((repeat' apply And.intro) <;> dsimp only <;> (repeat' split) <;> simp [*]; done)

@[simp] theorem emitFault_keeps : ∀ a1 a2 a3 a4 s, (emitFault a1 a2 a3 a4 s).md = s.md ∧ (emitFault a1 a2 a3 a4 s).dev =
    s.dev ∧ (emitFault a1 a2 a3 a4 s).pins = s.pins ∧ (emitFault a1 a2 a3 a4 s).side = s.side ∧ (emitFault a1 a2 a3 a4
    s).prot = s.prot ∧ (emitFault a1 a2 a3 a4 s).mram = s.mram ∧ (emitFault a1 a2 a3 a4 s).img = s.img ∧ (emitFault a1
    a2 a3 a4 s).lat = s.lat ∧ (emitFault a1 a2 a3 a4 s).acct = s.acct ∧ (emitFault a1 a2 a3 a4 s).lk = s.lk ∧ (emitFault
    a1 a2 a3 a4 s).tim = s.tim ∧ (emitFault a1 a2 a3 a4 s).buf = s.buf ∧ (emitFault a1 a2 a3 a4 s).eg = s.eg ∧
    (emitFault a1 a2 a3 a4 s).tab = s.tab ∧ (emitFault a1 a2 a3 a4 s).gen = s.gen ∧ (emitFault a1 a2 a3 a4 s).eng =
    s.eng ∧ (emitFault a1 a2 a3 a4 s).recd = s.recd ∧ (emitFault a1 a2 a3 a4 s).pmu = s.pmu ∧ (emitFault a1 a2 a3 a4
    s).svc = s.svc ∧ (emitFault a1 a2 a3 a4 s).therm = s.therm ∧ (emitFault a1 a2 a3 a4 s).hmem = s.hmem ∧ (emitFault a1
    a2 a3 a4 s).now = s.now ∧ (emitFault a1 a2 a3 a4 s).elapsed = s.elapsed ∧ (emitFault a1 a2 a3 a4 s).free = s.free ∧
    (emitFault a1 a2 a3 a4 s).pending = s.pending := by
  intros; unfold emitFault
  first
    | ((repeat' split) <;> simp; done)
    | (dsimp only; (repeat' split) <;> simp [*]; done)
    | ((repeat' apply And.intro) <;> dsimp only <;> (repeat' split) <;> simp [*]; done)

@[simp] theorem alarm_keeps : ∀ a1 a2 a3 s, (alarm a1 a2 a3 s).md = s.md ∧ (alarm a1 a2 a3 s).dev = s.dev ∧ (alarm a1 a2
    a3 s).pins = s.pins ∧ (alarm a1 a2 a3 s).side = s.side ∧ (alarm a1 a2 a3 s).prot = s.prot ∧ (alarm a1 a2 a3 s).mram
    = s.mram ∧ (alarm a1 a2 a3 s).img = s.img ∧ (alarm a1 a2 a3 s).lat = s.lat ∧ (alarm a1 a2 a3 s).acct = s.acct ∧
    (alarm a1 a2 a3 s).lk = s.lk ∧ (alarm a1 a2 a3 s).tim = s.tim ∧ (alarm a1 a2 a3 s).buf = s.buf ∧ (alarm a1 a2 a3
    s).eg = s.eg ∧ (alarm a1 a2 a3 s).tab = s.tab ∧ (alarm a1 a2 a3 s).gen = s.gen ∧ (alarm a1 a2 a3 s).eng = s.eng ∧
    (alarm a1 a2 a3 s).recd = s.recd ∧ (alarm a1 a2 a3 s).pmu = s.pmu ∧ (alarm a1 a2 a3 s).svc = s.svc ∧ (alarm a1 a2 a3
    s).therm = s.therm ∧ (alarm a1 a2 a3 s).hmem = s.hmem ∧ (alarm a1 a2 a3 s).now = s.now ∧ (alarm a1 a2 a3 s).elapsed
    = s.elapsed ∧ (alarm a1 a2 a3 s).free = s.free ∧ (alarm a1 a2 a3 s).pending = s.pending := by
  intros; unfold alarm
  first
    | ((repeat' split) <;> simp; done)
    | (dsimp only; (repeat' split) <;> simp [*]; done)
    | ((repeat' apply And.intro) <;> dsimp only <;> (repeat' split) <;> simp [*]; done)

@[simp] theorem emitMode_keeps : ∀ a1 a2 a3 a4 a5 a6 s, (emitMode a1 a2 a3 a4 a5 a6 s).md = s.md ∧ (emitMode a1 a2 a3 a4
    a5 a6 s).dev = s.dev ∧ (emitMode a1 a2 a3 a4 a5 a6 s).pins = s.pins ∧ (emitMode a1 a2 a3 a4 a5 a6 s).prot = s.prot ∧
    (emitMode a1 a2 a3 a4 a5 a6 s).mram = s.mram ∧ (emitMode a1 a2 a3 a4 a5 a6 s).img = s.img ∧ (emitMode a1 a2 a3 a4 a5
    a6 s).lat = s.lat ∧ (emitMode a1 a2 a3 a4 a5 a6 s).acct = s.acct ∧ (emitMode a1 a2 a3 a4 a5 a6 s).lk = s.lk ∧
    (emitMode a1 a2 a3 a4 a5 a6 s).tim = s.tim ∧ (emitMode a1 a2 a3 a4 a5 a6 s).buf = s.buf ∧ (emitMode a1 a2 a3 a4 a5
    a6 s).eg = s.eg ∧ (emitMode a1 a2 a3 a4 a5 a6 s).tab = s.tab ∧ (emitMode a1 a2 a3 a4 a5 a6 s).gen = s.gen ∧
    (emitMode a1 a2 a3 a4 a5 a6 s).eng = s.eng ∧ (emitMode a1 a2 a3 a4 a5 a6 s).recd = s.recd ∧ (emitMode a1 a2 a3 a4 a5
    a6 s).pmu = s.pmu ∧ (emitMode a1 a2 a3 a4 a5 a6 s).svc = s.svc ∧ (emitMode a1 a2 a3 a4 a5 a6 s).therm = s.therm ∧
    (emitMode a1 a2 a3 a4 a5 a6 s).hmem = s.hmem ∧ (emitMode a1 a2 a3 a4 a5 a6 s).now = s.now ∧ (emitMode a1 a2 a3 a4 a5
    a6 s).elapsed = s.elapsed ∧ (emitMode a1 a2 a3 a4 a5 a6 s).free = s.free ∧ (emitMode a1 a2 a3 a4 a5 a6 s).pending =
    s.pending := by
  intros; unfold emitMode
  first
    | ((repeat' split) <;> simp; done)
    | (dsimp only; (repeat' split) <;> simp [*]; done)
    | ((repeat' apply And.intro) <;> dsimp only <;> (repeat' split) <;> simp [*]; done)

@[simp] theorem emitProtect_keeps : ∀ a1 a2 a3 a4 s, (emitProtect a1 a2 a3 a4 s).md = s.md ∧ (emitProtect a1 a2 a3 a4
    s).dev = s.dev ∧ (emitProtect a1 a2 a3 a4 s).pins = s.pins ∧ (emitProtect a1 a2 a3 a4 s).prot = s.prot ∧
    (emitProtect a1 a2 a3 a4 s).mram = s.mram ∧ (emitProtect a1 a2 a3 a4 s).img = s.img ∧ (emitProtect a1 a2 a3 a4
    s).lat = s.lat ∧ (emitProtect a1 a2 a3 a4 s).acct = s.acct ∧ (emitProtect a1 a2 a3 a4 s).lk = s.lk ∧ (emitProtect a1
    a2 a3 a4 s).tim = s.tim ∧ (emitProtect a1 a2 a3 a4 s).buf = s.buf ∧ (emitProtect a1 a2 a3 a4 s).eg = s.eg ∧
    (emitProtect a1 a2 a3 a4 s).tab = s.tab ∧ (emitProtect a1 a2 a3 a4 s).gen = s.gen ∧ (emitProtect a1 a2 a3 a4 s).eng
    = s.eng ∧ (emitProtect a1 a2 a3 a4 s).recd = s.recd ∧ (emitProtect a1 a2 a3 a4 s).pmu = s.pmu ∧ (emitProtect a1 a2
    a3 a4 s).svc = s.svc ∧ (emitProtect a1 a2 a3 a4 s).therm = s.therm ∧ (emitProtect a1 a2 a3 a4 s).hmem = s.hmem ∧
    (emitProtect a1 a2 a3 a4 s).now = s.now ∧ (emitProtect a1 a2 a3 a4 s).elapsed = s.elapsed ∧ (emitProtect a1 a2 a3 a4
    s).free = s.free ∧ (emitProtect a1 a2 a3 a4 s).pending = s.pending := by
  intros; unfold emitProtect
  first
    | ((repeat' split) <;> simp; done)
    | (dsimp only; (repeat' split) <;> simp [*]; done)
    | ((repeat' apply And.intro) <;> dsimp only <;> (repeat' split) <;> simp [*]; done)

@[simp] theorem violation_keeps : ∀ a1 a2 s, (violation a1 a2 s).md = s.md ∧ (violation a1 a2 s).dev = s.dev ∧
    (violation a1 a2 s).pins = s.pins ∧ (violation a1 a2 s).prot = s.prot ∧ (violation a1 a2 s).mram = s.mram ∧
    (violation a1 a2 s).img = s.img ∧ (violation a1 a2 s).lat = s.lat ∧ (violation a1 a2 s).acct = s.acct ∧ (violation
    a1 a2 s).lk = s.lk ∧ (violation a1 a2 s).tim = s.tim ∧ (violation a1 a2 s).buf = s.buf ∧ (violation a1 a2 s).eg =
    s.eg ∧ (violation a1 a2 s).tab = s.tab ∧ (violation a1 a2 s).gen = s.gen ∧ (violation a1 a2 s).eng = s.eng ∧
    (violation a1 a2 s).recd = s.recd ∧ (violation a1 a2 s).pmu = s.pmu ∧ (violation a1 a2 s).svc = s.svc ∧ (violation
    a1 a2 s).therm = s.therm ∧ (violation a1 a2 s).hmem = s.hmem ∧ (violation a1 a2 s).now = s.now ∧ (violation a1 a2
    s).elapsed = s.elapsed ∧ (violation a1 a2 s).free = s.free ∧ (violation a1 a2 s).pending = s.pending := by
  intros; unfold violation
  first
    | ((repeat' split) <;> simp; done)
    | (dsimp only; (repeat' split) <;> simp [*]; done)
    | ((repeat' apply And.intro) <;> dsimp only <;> (repeat' split) <;> simp [*]; done)

@[simp] theorem emitLink_keeps : ∀ a1 a2 a3 a4 s, (emitLink a1 a2 a3 a4 s).md = s.md ∧ (emitLink a1 a2 a3 a4 s).dev =
    s.dev ∧ (emitLink a1 a2 a3 a4 s).pins = s.pins ∧ (emitLink a1 a2 a3 a4 s).side = s.side ∧ (emitLink a1 a2 a3 a4
    s).prot = s.prot ∧ (emitLink a1 a2 a3 a4 s).mram = s.mram ∧ (emitLink a1 a2 a3 a4 s).img = s.img ∧ (emitLink a1 a2
    a3 a4 s).lat = s.lat ∧ (emitLink a1 a2 a3 a4 s).acct = s.acct ∧ (emitLink a1 a2 a3 a4 s).lk = s.lk ∧ (emitLink a1 a2
    a3 a4 s).tim = s.tim ∧ (emitLink a1 a2 a3 a4 s).buf = s.buf ∧ (emitLink a1 a2 a3 a4 s).eg = s.eg ∧ (emitLink a1 a2
    a3 a4 s).tab = s.tab ∧ (emitLink a1 a2 a3 a4 s).gen = s.gen ∧ (emitLink a1 a2 a3 a4 s).eng = s.eng ∧ (emitLink a1 a2
    a3 a4 s).recd = s.recd ∧ (emitLink a1 a2 a3 a4 s).pmu = s.pmu ∧ (emitLink a1 a2 a3 a4 s).svc = s.svc ∧ (emitLink a1
    a2 a3 a4 s).therm = s.therm ∧ (emitLink a1 a2 a3 a4 s).hmem = s.hmem ∧ (emitLink a1 a2 a3 a4 s).now = s.now ∧
    (emitLink a1 a2 a3 a4 s).elapsed = s.elapsed ∧ (emitLink a1 a2 a3 a4 s).free = s.free ∧ (emitLink a1 a2 a3 a4
    s).pending = s.pending := by
  intros; unfold emitLink
  first
    | ((repeat' split) <;> simp; done)
    | (dsimp only; (repeat' split) <;> simp [*]; done)
    | ((repeat' apply And.intro) <;> dsimp only <;> (repeat' split) <;> simp [*]; done)

@[simp] theorem emitBuffer_keeps : ∀ a1 a2 a3 a4 a5 a6 s, (emitBuffer a1 a2 a3 a4 a5 a6 s).md = s.md ∧ (emitBuffer a1 a2
    a3 a4 a5 a6 s).dev = s.dev ∧ (emitBuffer a1 a2 a3 a4 a5 a6 s).pins = s.pins ∧ (emitBuffer a1 a2 a3 a4 a5 a6 s).side
    = s.side ∧ (emitBuffer a1 a2 a3 a4 a5 a6 s).prot = s.prot ∧ (emitBuffer a1 a2 a3 a4 a5 a6 s).mram = s.mram ∧
    (emitBuffer a1 a2 a3 a4 a5 a6 s).img = s.img ∧ (emitBuffer a1 a2 a3 a4 a5 a6 s).lat = s.lat ∧ (emitBuffer a1 a2 a3
    a4 a5 a6 s).acct = s.acct ∧ (emitBuffer a1 a2 a3 a4 a5 a6 s).lk = s.lk ∧ (emitBuffer a1 a2 a3 a4 a5 a6 s).tim =
    s.tim ∧ (emitBuffer a1 a2 a3 a4 a5 a6 s).buf = s.buf ∧ (emitBuffer a1 a2 a3 a4 a5 a6 s).eg = s.eg ∧ (emitBuffer a1
    a2 a3 a4 a5 a6 s).tab = s.tab ∧ (emitBuffer a1 a2 a3 a4 a5 a6 s).gen = s.gen ∧ (emitBuffer a1 a2 a3 a4 a5 a6 s).eng
    = s.eng ∧ (emitBuffer a1 a2 a3 a4 a5 a6 s).recd = s.recd ∧ (emitBuffer a1 a2 a3 a4 a5 a6 s).pmu = s.pmu ∧
    (emitBuffer a1 a2 a3 a4 a5 a6 s).svc = s.svc ∧ (emitBuffer a1 a2 a3 a4 a5 a6 s).therm = s.therm ∧ (emitBuffer a1 a2
    a3 a4 a5 a6 s).hmem = s.hmem ∧ (emitBuffer a1 a2 a3 a4 a5 a6 s).now = s.now ∧ (emitBuffer a1 a2 a3 a4 a5 a6
    s).elapsed = s.elapsed ∧ (emitBuffer a1 a2 a3 a4 a5 a6 s).free = s.free ∧ (emitBuffer a1 a2 a3 a4 a5 a6 s).pending =
    s.pending := by
  intros; unfold emitBuffer
  first
    | ((repeat' split) <;> simp; done)
    | (dsimp only; (repeat' split) <;> simp [*]; done)
    | ((repeat' apply And.intro) <;> dsimp only <;> (repeat' split) <;> simp [*]; done)

@[simp] theorem emitBucket_keeps : ∀ a1 a2 a3 a4 a5 a6 s, (emitBucket a1 a2 a3 a4 a5 a6 s).md = s.md ∧ (emitBucket a1 a2
    a3 a4 a5 a6 s).dev = s.dev ∧ (emitBucket a1 a2 a3 a4 a5 a6 s).pins = s.pins ∧ (emitBucket a1 a2 a3 a4 a5 a6 s).side
    = s.side ∧ (emitBucket a1 a2 a3 a4 a5 a6 s).prot = s.prot ∧ (emitBucket a1 a2 a3 a4 a5 a6 s).mram = s.mram ∧
    (emitBucket a1 a2 a3 a4 a5 a6 s).img = s.img ∧ (emitBucket a1 a2 a3 a4 a5 a6 s).lat = s.lat ∧ (emitBucket a1 a2 a3
    a4 a5 a6 s).acct = s.acct ∧ (emitBucket a1 a2 a3 a4 a5 a6 s).lk = s.lk ∧ (emitBucket a1 a2 a3 a4 a5 a6 s).tim =
    s.tim ∧ (emitBucket a1 a2 a3 a4 a5 a6 s).buf = s.buf ∧ (emitBucket a1 a2 a3 a4 a5 a6 s).eg = s.eg ∧ (emitBucket a1
    a2 a3 a4 a5 a6 s).tab = s.tab ∧ (emitBucket a1 a2 a3 a4 a5 a6 s).gen = s.gen ∧ (emitBucket a1 a2 a3 a4 a5 a6 s).eng
    = s.eng ∧ (emitBucket a1 a2 a3 a4 a5 a6 s).recd = s.recd ∧ (emitBucket a1 a2 a3 a4 a5 a6 s).pmu = s.pmu ∧
    (emitBucket a1 a2 a3 a4 a5 a6 s).svc = s.svc ∧ (emitBucket a1 a2 a3 a4 a5 a6 s).therm = s.therm ∧ (emitBucket a1 a2
    a3 a4 a5 a6 s).hmem = s.hmem ∧ (emitBucket a1 a2 a3 a4 a5 a6 s).now = s.now ∧ (emitBucket a1 a2 a3 a4 a5 a6
    s).elapsed = s.elapsed ∧ (emitBucket a1 a2 a3 a4 a5 a6 s).free = s.free ∧ (emitBucket a1 a2 a3 a4 a5 a6 s).pending =
    s.pending := by
  intros; unfold emitBucket
  first
    | ((repeat' split) <;> simp; done)
    | (dsimp only; (repeat' split) <;> simp [*]; done)
    | ((repeat' apply And.intro) <;> dsimp only <;> (repeat' split) <;> simp [*]; done)

@[simp] theorem emitService_keeps : ∀ a1 a2 a3 a4 a5 a6 a7 s, (emitService a1 a2 a3 a4 a5 a6 a7 s).md = s.md ∧
    (emitService a1 a2 a3 a4 a5 a6 a7 s).dev = s.dev ∧ (emitService a1 a2 a3 a4 a5 a6 a7 s).pins = s.pins ∧ (emitService
    a1 a2 a3 a4 a5 a6 a7 s).side = s.side ∧ (emitService a1 a2 a3 a4 a5 a6 a7 s).prot = s.prot ∧ (emitService a1 a2 a3
    a4 a5 a6 a7 s).mram = s.mram ∧ (emitService a1 a2 a3 a4 a5 a6 a7 s).img = s.img ∧ (emitService a1 a2 a3 a4 a5 a6 a7
    s).lat = s.lat ∧ (emitService a1 a2 a3 a4 a5 a6 a7 s).acct = s.acct ∧ (emitService a1 a2 a3 a4 a5 a6 a7 s).lk = s.lk
    ∧ (emitService a1 a2 a3 a4 a5 a6 a7 s).tim = s.tim ∧ (emitService a1 a2 a3 a4 a5 a6 a7 s).buf = s.buf ∧ (emitService
    a1 a2 a3 a4 a5 a6 a7 s).eg = s.eg ∧ (emitService a1 a2 a3 a4 a5 a6 a7 s).tab = s.tab ∧ (emitService a1 a2 a3 a4 a5
    a6 a7 s).gen = s.gen ∧ (emitService a1 a2 a3 a4 a5 a6 a7 s).eng = s.eng ∧ (emitService a1 a2 a3 a4 a5 a6 a7 s).recd
    = s.recd ∧ (emitService a1 a2 a3 a4 a5 a6 a7 s).pmu = s.pmu ∧ (emitService a1 a2 a3 a4 a5 a6 a7 s).svc = s.svc ∧
    (emitService a1 a2 a3 a4 a5 a6 a7 s).therm = s.therm ∧ (emitService a1 a2 a3 a4 a5 a6 a7 s).hmem = s.hmem ∧
    (emitService a1 a2 a3 a4 a5 a6 a7 s).now = s.now ∧ (emitService a1 a2 a3 a4 a5 a6 a7 s).elapsed = s.elapsed ∧
    (emitService a1 a2 a3 a4 a5 a6 a7 s).free = s.free ∧ (emitService a1 a2 a3 a4 a5 a6 a7 s).pending = s.pending := by
  intros; unfold emitService
  first
    | ((repeat' split) <;> simp; done)
    | (dsimp only; (repeat' split) <;> simp [*]; done)
    | ((repeat' apply And.intro) <;> dsimp only <;> (repeat' split) <;> simp [*]; done)

@[simp] theorem emitParity_keeps : ∀ a1 a2 a3 a4 s, (emitParity a1 a2 a3 a4 s).md = s.md ∧ (emitParity a1 a2 a3 a4
    s).dev = s.dev ∧ (emitParity a1 a2 a3 a4 s).pins = s.pins ∧ (emitParity a1 a2 a3 a4 s).side = s.side ∧ (emitParity
    a1 a2 a3 a4 s).prot = s.prot ∧ (emitParity a1 a2 a3 a4 s).mram = s.mram ∧ (emitParity a1 a2 a3 a4 s).img = s.img ∧
    (emitParity a1 a2 a3 a4 s).lat = s.lat ∧ (emitParity a1 a2 a3 a4 s).acct = s.acct ∧ (emitParity a1 a2 a3 a4 s).lk =
    s.lk ∧ (emitParity a1 a2 a3 a4 s).tim = s.tim ∧ (emitParity a1 a2 a3 a4 s).buf = s.buf ∧ (emitParity a1 a2 a3 a4
    s).eg = s.eg ∧ (emitParity a1 a2 a3 a4 s).tab = s.tab ∧ (emitParity a1 a2 a3 a4 s).gen = s.gen ∧ (emitParity a1 a2
    a3 a4 s).eng = s.eng ∧ (emitParity a1 a2 a3 a4 s).recd = s.recd ∧ (emitParity a1 a2 a3 a4 s).pmu = s.pmu ∧
    (emitParity a1 a2 a3 a4 s).svc = s.svc ∧ (emitParity a1 a2 a3 a4 s).therm = s.therm ∧ (emitParity a1 a2 a3 a4
    s).hmem = s.hmem ∧ (emitParity a1 a2 a3 a4 s).now = s.now ∧ (emitParity a1 a2 a3 a4 s).elapsed = s.elapsed ∧
    (emitParity a1 a2 a3 a4 s).free = s.free ∧ (emitParity a1 a2 a3 a4 s).pending = s.pending := by
  intros; unfold emitParity
  first
    | ((repeat' split) <;> simp; done)
    | (dsimp only; (repeat' split) <;> simp [*]; done)
    | ((repeat' apply And.intro) <;> dsimp only <;> (repeat' split) <;> simp [*]; done)

@[simp] theorem emitRecorder_keeps : ∀ a1 a2 a3 a4 s, (emitRecorder a1 a2 a3 a4 s).md = s.md ∧ (emitRecorder a1 a2 a3 a4
    s).dev = s.dev ∧ (emitRecorder a1 a2 a3 a4 s).pins = s.pins ∧ (emitRecorder a1 a2 a3 a4 s).side = s.side ∧
    (emitRecorder a1 a2 a3 a4 s).prot = s.prot ∧ (emitRecorder a1 a2 a3 a4 s).mram = s.mram ∧ (emitRecorder a1 a2 a3 a4
    s).img = s.img ∧ (emitRecorder a1 a2 a3 a4 s).lat = s.lat ∧ (emitRecorder a1 a2 a3 a4 s).acct = s.acct ∧
    (emitRecorder a1 a2 a3 a4 s).lk = s.lk ∧ (emitRecorder a1 a2 a3 a4 s).tim = s.tim ∧ (emitRecorder a1 a2 a3 a4 s).buf
    = s.buf ∧ (emitRecorder a1 a2 a3 a4 s).eg = s.eg ∧ (emitRecorder a1 a2 a3 a4 s).tab = s.tab ∧ (emitRecorder a1 a2 a3
    a4 s).gen = s.gen ∧ (emitRecorder a1 a2 a3 a4 s).eng = s.eng ∧ (emitRecorder a1 a2 a3 a4 s).recd = s.recd ∧
    (emitRecorder a1 a2 a3 a4 s).pmu = s.pmu ∧ (emitRecorder a1 a2 a3 a4 s).svc = s.svc ∧ (emitRecorder a1 a2 a3 a4
    s).therm = s.therm ∧ (emitRecorder a1 a2 a3 a4 s).hmem = s.hmem ∧ (emitRecorder a1 a2 a3 a4 s).now = s.now ∧
    (emitRecorder a1 a2 a3 a4 s).elapsed = s.elapsed ∧ (emitRecorder a1 a2 a3 a4 s).free = s.free ∧ (emitRecorder a1 a2
    a3 a4 s).pending = s.pending := by
  intros; unfold emitRecorder
  first
    | ((repeat' split) <;> simp; done)
    | (dsimp only; (repeat' split) <;> simp [*]; done)
    | ((repeat' apply And.intro) <;> dsimp only <;> (repeat' split) <;> simp [*]; done)

@[simp] theorem emitCommit_keeps : ∀ a1 a2 a3 s, (emitCommit a1 a2 a3 s).md = s.md ∧ (emitCommit a1 a2 a3 s).dev = s.dev
    ∧ (emitCommit a1 a2 a3 s).pins = s.pins ∧ (emitCommit a1 a2 a3 s).side = s.side ∧ (emitCommit a1 a2 a3 s).prot =
    s.prot ∧ (emitCommit a1 a2 a3 s).mram = s.mram ∧ (emitCommit a1 a2 a3 s).img = s.img ∧ (emitCommit a1 a2 a3 s).lat =
    s.lat ∧ (emitCommit a1 a2 a3 s).acct = s.acct ∧ (emitCommit a1 a2 a3 s).lk = s.lk ∧ (emitCommit a1 a2 a3 s).tim =
    s.tim ∧ (emitCommit a1 a2 a3 s).buf = s.buf ∧ (emitCommit a1 a2 a3 s).eg = s.eg ∧ (emitCommit a1 a2 a3 s).tab =
    s.tab ∧ (emitCommit a1 a2 a3 s).gen = s.gen ∧ (emitCommit a1 a2 a3 s).eng = s.eng ∧ (emitCommit a1 a2 a3 s).recd =
    s.recd ∧ (emitCommit a1 a2 a3 s).pmu = s.pmu ∧ (emitCommit a1 a2 a3 s).svc = s.svc ∧ (emitCommit a1 a2 a3 s).therm =
    s.therm ∧ (emitCommit a1 a2 a3 s).hmem = s.hmem ∧ (emitCommit a1 a2 a3 s).now = s.now ∧ (emitCommit a1 a2 a3
    s).elapsed = s.elapsed ∧ (emitCommit a1 a2 a3 s).free = s.free ∧ (emitCommit a1 a2 a3 s).pending = s.pending := by
  intros; unfold emitCommit
  first
    | ((repeat' split) <;> simp; done)
    | (dsimp only; (repeat' split) <;> simp [*]; done)
    | ((repeat' apply And.intro) <;> dsimp only <;> (repeat' split) <;> simp [*]; done)

@[simp] theorem refuseService_keeps : ∀ a1 a2 a3 s, (refuseService a1 a2 a3 s).md = s.md ∧ (refuseService a1 a2 a3
    s).dev = s.dev ∧ (refuseService a1 a2 a3 s).pins = s.pins ∧ (refuseService a1 a2 a3 s).side = s.side ∧
    (refuseService a1 a2 a3 s).prot = s.prot ∧ (refuseService a1 a2 a3 s).mram = s.mram ∧ (refuseService a1 a2 a3 s).img
    = s.img ∧ (refuseService a1 a2 a3 s).lat = s.lat ∧ (refuseService a1 a2 a3 s).acct = s.acct ∧ (refuseService a1 a2
    a3 s).lk = s.lk ∧ (refuseService a1 a2 a3 s).tim = s.tim ∧ (refuseService a1 a2 a3 s).buf = s.buf ∧ (refuseService
    a1 a2 a3 s).eg = s.eg ∧ (refuseService a1 a2 a3 s).tab = s.tab ∧ (refuseService a1 a2 a3 s).gen = s.gen ∧
    (refuseService a1 a2 a3 s).eng = s.eng ∧ (refuseService a1 a2 a3 s).recd = s.recd ∧ (refuseService a1 a2 a3 s).pmu =
    s.pmu ∧ (refuseService a1 a2 a3 s).svc = s.svc ∧ (refuseService a1 a2 a3 s).therm = s.therm ∧ (refuseService a1 a2
    a3 s).hmem = s.hmem ∧ (refuseService a1 a2 a3 s).now = s.now ∧ (refuseService a1 a2 a3 s).elapsed = s.elapsed ∧
    (refuseService a1 a2 a3 s).free = s.free ∧ (refuseService a1 a2 a3 s).pending = s.pending := by
  intros; unfold refuseService
  first
    | ((repeat' split) <;> simp; done)
    | (dsimp only; (repeat' split) <;> simp [*]; done)
    | ((repeat' apply And.intro) <;> dsimp only <;> (repeat' split) <;> simp [*]; done)

@[simp] theorem pf0Write_md (o : Nat) (f : State → State) (s : State) (h : ∀ s, (f s).md = s.md) : (pf0Write o f s).md =
    s.md := by
  unfold pf0Write; (repeat' split) <;> simp [h]

@[simp] theorem pf0Write_dev (o : Nat) (f : State → State) (s : State) (h : ∀ s, (f s).dev = s.dev) : (pf0Write o f
    s).dev = s.dev := by
  unfold pf0Write; (repeat' split) <;> simp [h]

@[simp] theorem pf0Write_pins (o : Nat) (f : State → State) (s : State) (h : ∀ s, (f s).pins = s.pins) : (pf0Write o f
    s).pins = s.pins := by
  unfold pf0Write; (repeat' split) <;> simp [h]

@[simp] theorem pf0Write_prot (o : Nat) (f : State → State) (s : State) (h : ∀ s, (f s).prot = s.prot) : (pf0Write o f
    s).prot = s.prot := by
  unfold pf0Write; (repeat' split) <;> simp [h]

@[simp] theorem pf0Write_mram (o : Nat) (f : State → State) (s : State) (h : ∀ s, (f s).mram = s.mram) : (pf0Write o f
    s).mram = s.mram := by
  unfold pf0Write; (repeat' split) <;> simp [h]

@[simp] theorem pf0Write_img (o : Nat) (f : State → State) (s : State) (h : ∀ s, (f s).img = s.img) : (pf0Write o f
    s).img = s.img := by
  unfold pf0Write; (repeat' split) <;> simp [h]

@[simp] theorem pf0Write_lat (o : Nat) (f : State → State) (s : State) (h : ∀ s, (f s).lat = s.lat) : (pf0Write o f
    s).lat = s.lat := by
  unfold pf0Write; (repeat' split) <;> simp [h]

@[simp] theorem pf0Write_acct (o : Nat) (f : State → State) (s : State) (h : ∀ s, (f s).acct = s.acct) : (pf0Write o f
    s).acct = s.acct := by
  unfold pf0Write; (repeat' split) <;> simp [h]

@[simp] theorem pf0Write_lk (o : Nat) (f : State → State) (s : State) (h : ∀ s, (f s).lk = s.lk) : (pf0Write o f s).lk =
    s.lk := by
  unfold pf0Write; (repeat' split) <;> simp [h]

@[simp] theorem pf0Write_tim (o : Nat) (f : State → State) (s : State) (h : ∀ s, (f s).tim = s.tim) : (pf0Write o f
    s).tim = s.tim := by
  unfold pf0Write; (repeat' split) <;> simp [h]

@[simp] theorem pf0Write_buf (o : Nat) (f : State → State) (s : State) (h : ∀ s, (f s).buf = s.buf) : (pf0Write o f
    s).buf = s.buf := by
  unfold pf0Write; (repeat' split) <;> simp [h]

@[simp] theorem pf0Write_eg (o : Nat) (f : State → State) (s : State) (h : ∀ s, (f s).eg = s.eg) : (pf0Write o f s).eg =
    s.eg := by
  unfold pf0Write; (repeat' split) <;> simp [h]

@[simp] theorem pf0Write_tab (o : Nat) (f : State → State) (s : State) (h : ∀ s, (f s).tab = s.tab) : (pf0Write o f
    s).tab = s.tab := by
  unfold pf0Write; (repeat' split) <;> simp [h]

@[simp] theorem pf0Write_gen (o : Nat) (f : State → State) (s : State) (h : ∀ s, (f s).gen = s.gen) : (pf0Write o f
    s).gen = s.gen := by
  unfold pf0Write; (repeat' split) <;> simp [h]

@[simp] theorem pf0Write_eng (o : Nat) (f : State → State) (s : State) (h : ∀ s, (f s).eng = s.eng) : (pf0Write o f
    s).eng = s.eng := by
  unfold pf0Write; (repeat' split) <;> simp [h]

@[simp] theorem pf0Write_recd (o : Nat) (f : State → State) (s : State) (h : ∀ s, (f s).recd = s.recd) : (pf0Write o f
    s).recd = s.recd := by
  unfold pf0Write; (repeat' split) <;> simp [h]

@[simp] theorem pf0Write_pmu (o : Nat) (f : State → State) (s : State) (h : ∀ s, (f s).pmu = s.pmu) : (pf0Write o f
    s).pmu = s.pmu := by
  unfold pf0Write; (repeat' split) <;> simp [h]

@[simp] theorem pf0Write_svc (o : Nat) (f : State → State) (s : State) (h : ∀ s, (f s).svc = s.svc) : (pf0Write o f
    s).svc = s.svc := by
  unfold pf0Write; (repeat' split) <;> simp [h]

@[simp] theorem pf0Write_therm (o : Nat) (f : State → State) (s : State) (h : ∀ s, (f s).therm = s.therm) : (pf0Write o
    f s).therm = s.therm := by
  unfold pf0Write; (repeat' split) <;> simp [h]

@[simp] theorem pf0Write_hmem (o : Nat) (f : State → State) (s : State) (h : ∀ s, (f s).hmem = s.hmem) : (pf0Write o f
    s).hmem = s.hmem := by
  unfold pf0Write; (repeat' split) <;> simp [h]

@[simp] theorem pf0Write_now (o : Nat) (f : State → State) (s : State) (h : ∀ s, (f s).now = s.now) : (pf0Write o f
    s).now = s.now := by
  unfold pf0Write; (repeat' split) <;> simp [h]

@[simp] theorem pf0Write_elapsed (o : Nat) (f : State → State) (s : State) (h : ∀ s, (f s).elapsed = s.elapsed) :
    (pf0Write o f s).elapsed = s.elapsed := by
  unfold pf0Write; (repeat' split) <;> simp [h]

@[simp] theorem pf0Write_free (o : Nat) (f : State → State) (s : State) (h : ∀ s, (f s).free = s.free) : (pf0Write o f
    s).free = s.free := by
  unfold pf0Write; (repeat' split) <;> simp [h]

@[simp] theorem pf0Write_pending (o : Nat) (f : State → State) (s : State) (h : ∀ s, (f s).pending = s.pending) :
    (pf0Write o f s).pending = s.pending := by
  unfold pf0Write; (repeat' split) <;> simp [h]

@[simp] theorem setLane_keeps : ∀ a1 a2 s, (setLane a1 a2 s).md = s.md ∧ (setLane a1 a2 s).dev = s.dev ∧ (setLane a1 a2
    s).pins = s.pins ∧ (setLane a1 a2 s).side = s.side ∧ (setLane a1 a2 s).prot = s.prot ∧ (setLane a1 a2 s).mram =
    s.mram ∧ (setLane a1 a2 s).img = s.img ∧ (setLane a1 a2 s).host = s.host ∧ (setLane a1 a2 s).lat = s.lat ∧ (setLane
    a1 a2 s).acct = s.acct ∧ (setLane a1 a2 s).tim = s.tim ∧ (setLane a1 a2 s).buf = s.buf ∧ (setLane a1 a2 s).eg = s.eg
    ∧ (setLane a1 a2 s).tab = s.tab ∧ (setLane a1 a2 s).gen = s.gen ∧ (setLane a1 a2 s).eng = s.eng ∧ (setLane a1 a2
    s).recd = s.recd ∧ (setLane a1 a2 s).pmu = s.pmu ∧ (setLane a1 a2 s).svc = s.svc ∧ (setLane a1 a2 s).therm = s.therm
    ∧ (setLane a1 a2 s).regs = s.regs ∧ (setLane a1 a2 s).hmem = s.hmem ∧ (setLane a1 a2 s).now = s.now ∧ (setLane a1 a2
    s).elapsed = s.elapsed ∧ (setLane a1 a2 s).free = s.free ∧ (setLane a1 a2 s).pending = s.pending := by
  intros; unfold setLane
  first
    | ((repeat' split) <;> simp; done)
    | (dsimp only; (repeat' split) <;> simp [*]; done)
    | ((repeat' apply And.intro) <;> dsimp only <;> (repeat' split) <;> simp [*]; done)

@[simp] theorem setQuad_keeps : ∀ a1 a2 s, (setQuad a1 a2 s).md = s.md ∧ (setQuad a1 a2 s).dev = s.dev ∧ (setQuad a1 a2
    s).pins = s.pins ∧ (setQuad a1 a2 s).side = s.side ∧ (setQuad a1 a2 s).prot = s.prot ∧ (setQuad a1 a2 s).mram =
    s.mram ∧ (setQuad a1 a2 s).img = s.img ∧ (setQuad a1 a2 s).host = s.host ∧ (setQuad a1 a2 s).lat = s.lat ∧ (setQuad
    a1 a2 s).acct = s.acct ∧ (setQuad a1 a2 s).tim = s.tim ∧ (setQuad a1 a2 s).buf = s.buf ∧ (setQuad a1 a2 s).eg = s.eg
    ∧ (setQuad a1 a2 s).tab = s.tab ∧ (setQuad a1 a2 s).gen = s.gen ∧ (setQuad a1 a2 s).eng = s.eng ∧ (setQuad a1 a2
    s).recd = s.recd ∧ (setQuad a1 a2 s).pmu = s.pmu ∧ (setQuad a1 a2 s).svc = s.svc ∧ (setQuad a1 a2 s).therm = s.therm
    ∧ (setQuad a1 a2 s).regs = s.regs ∧ (setQuad a1 a2 s).hmem = s.hmem ∧ (setQuad a1 a2 s).now = s.now ∧ (setQuad a1 a2
    s).elapsed = s.elapsed ∧ (setQuad a1 a2 s).free = s.free ∧ (setQuad a1 a2 s).pending = s.pending := by
  intros; unfold setQuad
  first
    | ((repeat' split) <;> simp; done)
    | (dsimp only; (repeat' split) <;> simp [*]; done)
    | ((repeat' apply And.intro) <;> dsimp only <;> (repeat' split) <;> simp [*]; done)

@[simp] theorem setPort_keeps : ∀ a1 a2 s, (setPort a1 a2 s).md = s.md ∧ (setPort a1 a2 s).dev = s.dev ∧ (setPort a1 a2
    s).pins = s.pins ∧ (setPort a1 a2 s).side = s.side ∧ (setPort a1 a2 s).prot = s.prot ∧ (setPort a1 a2 s).mram =
    s.mram ∧ (setPort a1 a2 s).img = s.img ∧ (setPort a1 a2 s).host = s.host ∧ (setPort a1 a2 s).lat = s.lat ∧ (setPort
    a1 a2 s).acct = s.acct ∧ (setPort a1 a2 s).tim = s.tim ∧ (setPort a1 a2 s).buf = s.buf ∧ (setPort a1 a2 s).eg = s.eg
    ∧ (setPort a1 a2 s).tab = s.tab ∧ (setPort a1 a2 s).gen = s.gen ∧ (setPort a1 a2 s).eng = s.eng ∧ (setPort a1 a2
    s).recd = s.recd ∧ (setPort a1 a2 s).pmu = s.pmu ∧ (setPort a1 a2 s).svc = s.svc ∧ (setPort a1 a2 s).therm = s.therm
    ∧ (setPort a1 a2 s).regs = s.regs ∧ (setPort a1 a2 s).hmem = s.hmem ∧ (setPort a1 a2 s).now = s.now ∧ (setPort a1 a2
    s).elapsed = s.elapsed ∧ (setPort a1 a2 s).free = s.free ∧ (setPort a1 a2 s).pending = s.pending := by
  intros; unfold setPort
  first
    | ((repeat' split) <;> simp; done)
    | (dsimp only; (repeat' split) <;> simp [*]; done)
    | ((repeat' apply And.intro) <;> dsimp only <;> (repeat' split) <;> simp [*]; done)

@[simp] theorem modPort_keeps : ∀ a1 a2 s, (modPort a1 a2 s).md = s.md ∧ (modPort a1 a2 s).dev = s.dev ∧ (modPort a1 a2
    s).pins = s.pins ∧ (modPort a1 a2 s).side = s.side ∧ (modPort a1 a2 s).prot = s.prot ∧ (modPort a1 a2 s).mram =
    s.mram ∧ (modPort a1 a2 s).img = s.img ∧ (modPort a1 a2 s).host = s.host ∧ (modPort a1 a2 s).lat = s.lat ∧ (modPort
    a1 a2 s).acct = s.acct ∧ (modPort a1 a2 s).tim = s.tim ∧ (modPort a1 a2 s).buf = s.buf ∧ (modPort a1 a2 s).eg = s.eg
    ∧ (modPort a1 a2 s).tab = s.tab ∧ (modPort a1 a2 s).gen = s.gen ∧ (modPort a1 a2 s).eng = s.eng ∧ (modPort a1 a2
    s).recd = s.recd ∧ (modPort a1 a2 s).pmu = s.pmu ∧ (modPort a1 a2 s).svc = s.svc ∧ (modPort a1 a2 s).therm = s.therm
    ∧ (modPort a1 a2 s).regs = s.regs ∧ (modPort a1 a2 s).hmem = s.hmem ∧ (modPort a1 a2 s).now = s.now ∧ (modPort a1 a2
    s).elapsed = s.elapsed ∧ (modPort a1 a2 s).free = s.free ∧ (modPort a1 a2 s).pending = s.pending := by
  intros; unfold modPort
  first
    | ((repeat' split) <;> simp; done)
    | (dsimp only; (repeat' split) <;> simp [*]; done)
    | ((repeat' apply And.intro) <;> dsimp only <;> (repeat' split) <;> simp [*]; done)

@[simp] theorem pauseDue_keeps : ∀ a1 a2 a3 s, (pauseDue a1 a2 a3 s).md = s.md ∧ (pauseDue a1 a2 a3 s).dev = s.dev ∧
    (pauseDue a1 a2 a3 s).pins = s.pins ∧ (pauseDue a1 a2 a3 s).side = s.side ∧ (pauseDue a1 a2 a3 s).prot = s.prot ∧
    (pauseDue a1 a2 a3 s).mram = s.mram ∧ (pauseDue a1 a2 a3 s).img = s.img ∧ (pauseDue a1 a2 a3 s).host = s.host ∧
    (pauseDue a1 a2 a3 s).lat = s.lat ∧ (pauseDue a1 a2 a3 s).acct = s.acct ∧ (pauseDue a1 a2 a3 s).tim = s.tim ∧
    (pauseDue a1 a2 a3 s).buf = s.buf ∧ (pauseDue a1 a2 a3 s).eg = s.eg ∧ (pauseDue a1 a2 a3 s).tab = s.tab ∧ (pauseDue
    a1 a2 a3 s).gen = s.gen ∧ (pauseDue a1 a2 a3 s).eng = s.eng ∧ (pauseDue a1 a2 a3 s).recd = s.recd ∧ (pauseDue a1 a2
    a3 s).pmu = s.pmu ∧ (pauseDue a1 a2 a3 s).svc = s.svc ∧ (pauseDue a1 a2 a3 s).therm = s.therm ∧ (pauseDue a1 a2 a3
    s).regs = s.regs ∧ (pauseDue a1 a2 a3 s).hmem = s.hmem ∧ (pauseDue a1 a2 a3 s).now = s.now ∧ (pauseDue a1 a2 a3
    s).elapsed = s.elapsed ∧ (pauseDue a1 a2 a3 s).free = s.free ∧ (pauseDue a1 a2 a3 s).pending = s.pending := by
  intros; unfold pauseDue
  first
    | ((repeat' split) <;> simp; done)
    | (dsimp only; (repeat' split) <;> simp [*]; done)
    | ((repeat' apply And.intro) <;> dsimp only <;> (repeat' split) <;> simp [*]; done)

@[simp] theorem watermark_keeps : ∀ a1 a2 a3 a4 s, (watermark a1 a2 a3 a4 s).md = s.md ∧ (watermark a1 a2 a3 a4 s).dev =
    s.dev ∧ (watermark a1 a2 a3 a4 s).pins = s.pins ∧ (watermark a1 a2 a3 a4 s).side = s.side ∧ (watermark a1 a2 a3 a4
    s).prot = s.prot ∧ (watermark a1 a2 a3 a4 s).mram = s.mram ∧ (watermark a1 a2 a3 a4 s).img = s.img ∧ (watermark a1
    a2 a3 a4 s).host = s.host ∧ (watermark a1 a2 a3 a4 s).lat = s.lat ∧ (watermark a1 a2 a3 a4 s).acct = s.acct ∧
    (watermark a1 a2 a3 a4 s).tim = s.tim ∧ (watermark a1 a2 a3 a4 s).buf = s.buf ∧ (watermark a1 a2 a3 a4 s).eg = s.eg
    ∧ (watermark a1 a2 a3 a4 s).tab = s.tab ∧ (watermark a1 a2 a3 a4 s).gen = s.gen ∧ (watermark a1 a2 a3 a4 s).eng =
    s.eng ∧ (watermark a1 a2 a3 a4 s).recd = s.recd ∧ (watermark a1 a2 a3 a4 s).pmu = s.pmu ∧ (watermark a1 a2 a3 a4
    s).svc = s.svc ∧ (watermark a1 a2 a3 a4 s).therm = s.therm ∧ (watermark a1 a2 a3 a4 s).regs = s.regs ∧ (watermark a1
    a2 a3 a4 s).hmem = s.hmem ∧ (watermark a1 a2 a3 a4 s).now = s.now ∧ (watermark a1 a2 a3 a4 s).elapsed = s.elapsed ∧
    (watermark a1 a2 a3 a4 s).free = s.free ∧ (watermark a1 a2 a3 a4 s).pending = s.pending := by
  intros; unfold watermark
  first
    | ((repeat' split) <;> simp; done)
    | (dsimp only; (repeat' split) <;> simp [*]; done)
    | ((repeat' apply And.intro) <;> dsimp only <;> (repeat' split) <;> simp [*]; done)

@[simp] theorem countMac_keeps : ∀ a1 a2 a3 s, (countMac a1 a2 a3 s).md = s.md ∧ (countMac a1 a2 a3 s).dev = s.dev ∧
    (countMac a1 a2 a3 s).pins = s.pins ∧ (countMac a1 a2 a3 s).side = s.side ∧ (countMac a1 a2 a3 s).prot = s.prot ∧
    (countMac a1 a2 a3 s).mram = s.mram ∧ (countMac a1 a2 a3 s).img = s.img ∧ (countMac a1 a2 a3 s).host = s.host ∧
    (countMac a1 a2 a3 s).lat = s.lat ∧ (countMac a1 a2 a3 s).acct = s.acct ∧ (countMac a1 a2 a3 s).lk = s.lk ∧
    (countMac a1 a2 a3 s).tim = s.tim ∧ (countMac a1 a2 a3 s).buf = s.buf ∧ (countMac a1 a2 a3 s).eg = s.eg ∧ (countMac
    a1 a2 a3 s).tab = s.tab ∧ (countMac a1 a2 a3 s).gen = s.gen ∧ (countMac a1 a2 a3 s).eng = s.eng ∧ (countMac a1 a2 a3
    s).recd = s.recd ∧ (countMac a1 a2 a3 s).pmu = s.pmu ∧ (countMac a1 a2 a3 s).svc = s.svc ∧ (countMac a1 a2 a3
    s).therm = s.therm ∧ (countMac a1 a2 a3 s).hmem = s.hmem ∧ (countMac a1 a2 a3 s).now = s.now ∧ (countMac a1 a2 a3
    s).elapsed = s.elapsed ∧ (countMac a1 a2 a3 s).free = s.free ∧ (countMac a1 a2 a3 s).pending = s.pending := by
  intros; unfold countMac
  first
    | ((repeat' split) <;> simp; done)
    | (dsimp only; (repeat' split) <;> simp [*]; done)
    | ((repeat' apply And.intro) <;> dsimp only <;> (repeat' split) <;> simp [*]; done)

@[simp] theorem laneSends_keeps : ∀ a1 a2 s, (laneSends a1 a2 s).md = s.md ∧ (laneSends a1 a2 s).dev = s.dev ∧
    (laneSends a1 a2 s).pins = s.pins ∧ (laneSends a1 a2 s).side = s.side ∧ (laneSends a1 a2 s).prot = s.prot ∧
    (laneSends a1 a2 s).mram = s.mram ∧ (laneSends a1 a2 s).img = s.img ∧ (laneSends a1 a2 s).host = s.host ∧ (laneSends
    a1 a2 s).lat = s.lat ∧ (laneSends a1 a2 s).acct = s.acct ∧ (laneSends a1 a2 s).tim = s.tim ∧ (laneSends a1 a2 s).buf
    = s.buf ∧ (laneSends a1 a2 s).eg = s.eg ∧ (laneSends a1 a2 s).tab = s.tab ∧ (laneSends a1 a2 s).gen = s.gen ∧
    (laneSends a1 a2 s).eng = s.eng ∧ (laneSends a1 a2 s).recd = s.recd ∧ (laneSends a1 a2 s).pmu = s.pmu ∧ (laneSends
    a1 a2 s).svc = s.svc ∧ (laneSends a1 a2 s).therm = s.therm ∧ (laneSends a1 a2 s).regs = s.regs ∧ (laneSends a1 a2
    s).hmem = s.hmem ∧ (laneSends a1 a2 s).now = s.now ∧ (laneSends a1 a2 s).elapsed = s.elapsed ∧ (laneSends a1 a2
    s).free = s.free ∧ (laneSends a1 a2 s).pending = s.pending := by
  intros; unfold laneSends
  first
    | ((repeat' split) <;> simp; done)
    | (dsimp only; (repeat' split) <;> simp [*]; done)
    | ((repeat' apply And.intro) <;> dsimp only <;> (repeat' split) <;> simp [*]; done)

@[simp] theorem columnsOut_keeps : ∀ a1 a2 s, (columnsOut a1 a2 s).md = s.md ∧ (columnsOut a1 a2 s).dev = s.dev ∧
    (columnsOut a1 a2 s).pins = s.pins ∧ (columnsOut a1 a2 s).side = s.side ∧ (columnsOut a1 a2 s).prot = s.prot ∧
    (columnsOut a1 a2 s).mram = s.mram ∧ (columnsOut a1 a2 s).img = s.img ∧ (columnsOut a1 a2 s).host = s.host ∧
    (columnsOut a1 a2 s).lat = s.lat ∧ (columnsOut a1 a2 s).acct = s.acct ∧ (columnsOut a1 a2 s).tim = s.tim ∧
    (columnsOut a1 a2 s).buf = s.buf ∧ (columnsOut a1 a2 s).eg = s.eg ∧ (columnsOut a1 a2 s).tab = s.tab ∧ (columnsOut
    a1 a2 s).gen = s.gen ∧ (columnsOut a1 a2 s).eng = s.eng ∧ (columnsOut a1 a2 s).recd = s.recd ∧ (columnsOut a1 a2
    s).pmu = s.pmu ∧ (columnsOut a1 a2 s).svc = s.svc ∧ (columnsOut a1 a2 s).therm = s.therm ∧ (columnsOut a1 a2 s).regs
    = s.regs ∧ (columnsOut a1 a2 s).hmem = s.hmem ∧ (columnsOut a1 a2 s).now = s.now ∧ (columnsOut a1 a2 s).elapsed =
    s.elapsed ∧ (columnsOut a1 a2 s).free = s.free ∧ (columnsOut a1 a2 s).pending = s.pending := by
  intros; unfold columnsOut
  first
    | ((repeat' split) <;> simp; done)
    | (dsimp only; (repeat' split) <;> simp [*]; done)
    | ((repeat' apply And.intro) <;> dsimp only <;> (repeat' split) <;> simp [*]; done)

@[simp] theorem sentOn_keeps : ∀ a1 a2 a3 a4 s, (sentOn a1 a2 a3 a4 s).md = s.md ∧ (sentOn a1 a2 a3 a4 s).dev = s.dev ∧
    (sentOn a1 a2 a3 a4 s).pins = s.pins ∧ (sentOn a1 a2 a3 a4 s).side = s.side ∧ (sentOn a1 a2 a3 a4 s).prot = s.prot ∧
    (sentOn a1 a2 a3 a4 s).mram = s.mram ∧ (sentOn a1 a2 a3 a4 s).img = s.img ∧ (sentOn a1 a2 a3 a4 s).host = s.host ∧
    (sentOn a1 a2 a3 a4 s).lat = s.lat ∧ (sentOn a1 a2 a3 a4 s).acct = s.acct ∧ (sentOn a1 a2 a3 a4 s).tim = s.tim ∧
    (sentOn a1 a2 a3 a4 s).buf = s.buf ∧ (sentOn a1 a2 a3 a4 s).eg = s.eg ∧ (sentOn a1 a2 a3 a4 s).tab = s.tab ∧ (sentOn
    a1 a2 a3 a4 s).gen = s.gen ∧ (sentOn a1 a2 a3 a4 s).eng = s.eng ∧ (sentOn a1 a2 a3 a4 s).recd = s.recd ∧ (sentOn a1
    a2 a3 a4 s).pmu = s.pmu ∧ (sentOn a1 a2 a3 a4 s).svc = s.svc ∧ (sentOn a1 a2 a3 a4 s).therm = s.therm ∧ (sentOn a1
    a2 a3 a4 s).regs = s.regs ∧ (sentOn a1 a2 a3 a4 s).hmem = s.hmem ∧ (sentOn a1 a2 a3 a4 s).now = s.now ∧ (sentOn a1
    a2 a3 a4 s).elapsed = s.elapsed ∧ (sentOn a1 a2 a3 a4 s).free = s.free ∧ (sentOn a1 a2 a3 a4 s).pending = s.pending
    := by
  intros; unfold sentOn
  first
    | ((repeat' split) <;> simp; done)
    | (dsimp only; (repeat' split) <;> simp [*]; done)
    | ((repeat' apply And.intro) <;> dsimp only <;> (repeat' split) <;> simp [*]; done)

@[simp] theorem countSent_keeps : ∀ a1 a2 s, (countSent a1 a2 s).md = s.md ∧ (countSent a1 a2 s).dev = s.dev ∧
    (countSent a1 a2 s).pins = s.pins ∧ (countSent a1 a2 s).side = s.side ∧ (countSent a1 a2 s).prot = s.prot ∧
    (countSent a1 a2 s).mram = s.mram ∧ (countSent a1 a2 s).img = s.img ∧ (countSent a1 a2 s).host = s.host ∧ (countSent
    a1 a2 s).lat = s.lat ∧ (countSent a1 a2 s).acct = s.acct ∧ (countSent a1 a2 s).lk = s.lk ∧ (countSent a1 a2 s).tim =
    s.tim ∧ (countSent a1 a2 s).buf = s.buf ∧ (countSent a1 a2 s).eg = s.eg ∧ (countSent a1 a2 s).tab = s.tab ∧
    (countSent a1 a2 s).gen = s.gen ∧ (countSent a1 a2 s).eng = s.eng ∧ (countSent a1 a2 s).recd = s.recd ∧ (countSent
    a1 a2 s).pmu = s.pmu ∧ (countSent a1 a2 s).svc = s.svc ∧ (countSent a1 a2 s).therm = s.therm ∧ (countSent a1 a2
    s).hmem = s.hmem ∧ (countSent a1 a2 s).now = s.now ∧ (countSent a1 a2 s).elapsed = s.elapsed ∧ (countSent a1 a2
    s).free = s.free ∧ (countSent a1 a2 s).pending = s.pending := by
  intros; unfold countSent
  first
    | ((repeat' split) <;> simp; done)
    | (dsimp only; (repeat' split) <;> simp [*]; done)
    | ((repeat' apply And.intro) <;> dsimp only <;> (repeat' split) <;> simp [*]; done)

@[simp] theorem setFrame_keeps : ∀ a1 a2 s, (setFrame a1 a2 s).md = s.md ∧ (setFrame a1 a2 s).dev = s.dev ∧ (setFrame a1
    a2 s).pins = s.pins ∧ (setFrame a1 a2 s).side = s.side ∧ (setFrame a1 a2 s).prot = s.prot ∧ (setFrame a1 a2 s).mram
    = s.mram ∧ (setFrame a1 a2 s).img = s.img ∧ (setFrame a1 a2 s).host = s.host ∧ (setFrame a1 a2 s).lat = s.lat ∧
    (setFrame a1 a2 s).acct = s.acct ∧ (setFrame a1 a2 s).lk = s.lk ∧ (setFrame a1 a2 s).tim = s.tim ∧ (setFrame a1 a2
    s).eg = s.eg ∧ (setFrame a1 a2 s).tab = s.tab ∧ (setFrame a1 a2 s).gen = s.gen ∧ (setFrame a1 a2 s).eng = s.eng ∧
    (setFrame a1 a2 s).recd = s.recd ∧ (setFrame a1 a2 s).pmu = s.pmu ∧ (setFrame a1 a2 s).svc = s.svc ∧ (setFrame a1 a2
    s).therm = s.therm ∧ (setFrame a1 a2 s).regs = s.regs ∧ (setFrame a1 a2 s).hmem = s.hmem ∧ (setFrame a1 a2 s).now =
    s.now ∧ (setFrame a1 a2 s).elapsed = s.elapsed ∧ (setFrame a1 a2 s).free = s.free ∧ (setFrame a1 a2 s).pending =
    s.pending := by
  intros; unfold setFrame
  first
    | ((repeat' split) <;> simp; done)
    | (dsimp only; (repeat' split) <;> simp [*]; done)
    | ((repeat' apply And.intro) <;> dsimp only <;> (repeat' split) <;> simp [*]; done)

@[simp] theorem modFrame_keeps : ∀ a1 a2 s, (modFrame a1 a2 s).md = s.md ∧ (modFrame a1 a2 s).dev = s.dev ∧ (modFrame a1
    a2 s).pins = s.pins ∧ (modFrame a1 a2 s).side = s.side ∧ (modFrame a1 a2 s).prot = s.prot ∧ (modFrame a1 a2 s).mram
    = s.mram ∧ (modFrame a1 a2 s).img = s.img ∧ (modFrame a1 a2 s).host = s.host ∧ (modFrame a1 a2 s).lat = s.lat ∧
    (modFrame a1 a2 s).acct = s.acct ∧ (modFrame a1 a2 s).lk = s.lk ∧ (modFrame a1 a2 s).tim = s.tim ∧ (modFrame a1 a2
    s).eg = s.eg ∧ (modFrame a1 a2 s).tab = s.tab ∧ (modFrame a1 a2 s).gen = s.gen ∧ (modFrame a1 a2 s).eng = s.eng ∧
    (modFrame a1 a2 s).recd = s.recd ∧ (modFrame a1 a2 s).pmu = s.pmu ∧ (modFrame a1 a2 s).svc = s.svc ∧ (modFrame a1 a2
    s).therm = s.therm ∧ (modFrame a1 a2 s).regs = s.regs ∧ (modFrame a1 a2 s).hmem = s.hmem ∧ (modFrame a1 a2 s).now =
    s.now ∧ (modFrame a1 a2 s).elapsed = s.elapsed ∧ (modFrame a1 a2 s).free = s.free ∧ (modFrame a1 a2 s).pending =
    s.pending := by
  intros; unfold modFrame
  first
    | ((repeat' split) <;> simp; done)
    | (dsimp only; (repeat' split) <;> simp [*]; done)
    | ((repeat' apply And.intro) <;> dsimp only <;> (repeat' split) <;> simp [*]; done)

@[simp] theorem returnCells_keeps : ∀ a1 s, (returnCells a1 s).md = s.md ∧ (returnCells a1 s).dev = s.dev ∧ (returnCells
    a1 s).pins = s.pins ∧ (returnCells a1 s).side = s.side ∧ (returnCells a1 s).prot = s.prot ∧ (returnCells a1 s).mram
    = s.mram ∧ (returnCells a1 s).img = s.img ∧ (returnCells a1 s).host = s.host ∧ (returnCells a1 s).lat = s.lat ∧
    (returnCells a1 s).acct = s.acct ∧ (returnCells a1 s).lk = s.lk ∧ (returnCells a1 s).tim = s.tim ∧ (returnCells a1
    s).eg = s.eg ∧ (returnCells a1 s).tab = s.tab ∧ (returnCells a1 s).gen = s.gen ∧ (returnCells a1 s).eng = s.eng ∧
    (returnCells a1 s).recd = s.recd ∧ (returnCells a1 s).pmu = s.pmu ∧ (returnCells a1 s).svc = s.svc ∧ (returnCells a1
    s).therm = s.therm ∧ (returnCells a1 s).regs = s.regs ∧ (returnCells a1 s).hmem = s.hmem ∧ (returnCells a1 s).now =
    s.now ∧ (returnCells a1 s).elapsed = s.elapsed ∧ (returnCells a1 s).free = s.free ∧ (returnCells a1 s).pending =
    s.pending := by
  intros; unfold returnCells
  first
    | ((repeat' split) <;> simp; done)
    | (dsimp only; (repeat' split) <;> simp [*]; done)
    | ((repeat' apply And.intro) <;> dsimp only <;> (repeat' split) <;> simp [*]; done)

@[simp] theorem grant_keeps : ∀ a k acc s, (grant a k acc s).2.md = s.md ∧ (grant a k acc s).2.dev = s.dev ∧ (grant a k
    acc s).2.pins = s.pins ∧ (grant a k acc s).2.side = s.side ∧ (grant a k acc s).2.prot = s.prot ∧ (grant a k acc
    s).2.mram = s.mram ∧ (grant a k acc s).2.img = s.img ∧ (grant a k acc s).2.host = s.host ∧ (grant a k acc s).2.lat =
    s.lat ∧ (grant a k acc s).2.acct = s.acct ∧ (grant a k acc s).2.lk = s.lk ∧ (grant a k acc s).2.tim = s.tim ∧ (grant
    a k acc s).2.buf = s.buf ∧ (grant a k acc s).2.eg = s.eg ∧ (grant a k acc s).2.tab = s.tab ∧ (grant a k acc s).2.gen
    = s.gen ∧ (grant a k acc s).2.eng = s.eng ∧ (grant a k acc s).2.recd = s.recd ∧ (grant a k acc s).2.pmu = s.pmu ∧
    (grant a k acc s).2.svc = s.svc ∧ (grant a k acc s).2.therm = s.therm ∧ (grant a k acc s).2.regs = s.regs ∧ (grant a
    k acc s).2.hmem = s.hmem ∧ (grant a k acc s).2.now = s.now ∧ (grant a k acc s).2.elapsed = s.elapsed ∧ (grant a k
    acc s).2.pending = s.pending := by
  intro a k; induction k with
  | zero => intros; simp [grant]
  | succ k ih => intro acc s; simp only [grant]; cases a <;> simpa using ih _ (drew s)

@[simp] theorem setPair_keeps : ∀ a1 a2 s, (setPair a1 a2 s).md = s.md ∧ (setPair a1 a2 s).dev = s.dev ∧ (setPair a1 a2
    s).pins = s.pins ∧ (setPair a1 a2 s).side = s.side ∧ (setPair a1 a2 s).prot = s.prot ∧ (setPair a1 a2 s).mram =
    s.mram ∧ (setPair a1 a2 s).img = s.img ∧ (setPair a1 a2 s).host = s.host ∧ (setPair a1 a2 s).lat = s.lat ∧ (setPair
    a1 a2 s).acct = s.acct ∧ (setPair a1 a2 s).lk = s.lk ∧ (setPair a1 a2 s).tim = s.tim ∧ (setPair a1 a2 s).eg = s.eg ∧
    (setPair a1 a2 s).tab = s.tab ∧ (setPair a1 a2 s).gen = s.gen ∧ (setPair a1 a2 s).eng = s.eng ∧ (setPair a1 a2
    s).recd = s.recd ∧ (setPair a1 a2 s).pmu = s.pmu ∧ (setPair a1 a2 s).svc = s.svc ∧ (setPair a1 a2 s).therm = s.therm
    ∧ (setPair a1 a2 s).regs = s.regs ∧ (setPair a1 a2 s).hmem = s.hmem ∧ (setPair a1 a2 s).now = s.now ∧ (setPair a1 a2
    s).elapsed = s.elapsed ∧ (setPair a1 a2 s).free = s.free ∧ (setPair a1 a2 s).pending = s.pending := by
  intros; unfold setPair
  first
    | ((repeat' split) <;> simp; done)
    | (dsimp only; (repeat' split) <;> simp [*]; done)
    | ((repeat' apply And.intro) <;> dsimp only <;> (repeat' split) <;> simp [*]; done)

@[simp] theorem tsReleaseReturns_keeps : ∀ a1 a2 s, (tsReleaseReturns a1 a2 s).md = s.md ∧ (tsReleaseReturns a1 a2
    s).dev = s.dev ∧ (tsReleaseReturns a1 a2 s).pins = s.pins ∧ (tsReleaseReturns a1 a2 s).side = s.side ∧
    (tsReleaseReturns a1 a2 s).prot = s.prot ∧ (tsReleaseReturns a1 a2 s).mram = s.mram ∧ (tsReleaseReturns a1 a2 s).img
    = s.img ∧ (tsReleaseReturns a1 a2 s).host = s.host ∧ (tsReleaseReturns a1 a2 s).lat = s.lat ∧ (tsReleaseReturns a1
    a2 s).acct = s.acct ∧ (tsReleaseReturns a1 a2 s).tim = s.tim ∧ (tsReleaseReturns a1 a2 s).buf = s.buf ∧
    (tsReleaseReturns a1 a2 s).eg = s.eg ∧ (tsReleaseReturns a1 a2 s).tab = s.tab ∧ (tsReleaseReturns a1 a2 s).gen =
    s.gen ∧ (tsReleaseReturns a1 a2 s).eng = s.eng ∧ (tsReleaseReturns a1 a2 s).recd = s.recd ∧ (tsReleaseReturns a1 a2
    s).pmu = s.pmu ∧ (tsReleaseReturns a1 a2 s).svc = s.svc ∧ (tsReleaseReturns a1 a2 s).therm = s.therm ∧
    (tsReleaseReturns a1 a2 s).regs = s.regs ∧ (tsReleaseReturns a1 a2 s).hmem = s.hmem ∧ (tsReleaseReturns a1 a2 s).now
    = s.now ∧ (tsReleaseReturns a1 a2 s).elapsed = s.elapsed ∧ (tsReleaseReturns a1 a2 s).free = s.free ∧
    (tsReleaseReturns a1 a2 s).pending = s.pending := by
  intros; unfold tsReleaseReturns
  first
    | ((repeat' split) <;> simp; done)
    | (dsimp only; (repeat' split) <;> simp [*]; done)
    | ((repeat' apply And.intro) <;> dsimp only <;> (repeat' split) <;> simp [*]; done)

@[simp] theorem judgePair_keeps : ∀ a1 s, (judgePair a1 s).md = s.md ∧ (judgePair a1 s).dev = s.dev ∧ (judgePair a1
    s).pins = s.pins ∧ (judgePair a1 s).side = s.side ∧ (judgePair a1 s).prot = s.prot ∧ (judgePair a1 s).mram = s.mram
    ∧ (judgePair a1 s).img = s.img ∧ (judgePair a1 s).host = s.host ∧ (judgePair a1 s).lat = s.lat ∧ (judgePair a1
    s).acct = s.acct ∧ (judgePair a1 s).tim = s.tim ∧ (judgePair a1 s).eg = s.eg ∧ (judgePair a1 s).tab = s.tab ∧
    (judgePair a1 s).gen = s.gen ∧ (judgePair a1 s).eng = s.eng ∧ (judgePair a1 s).recd = s.recd ∧ (judgePair a1 s).pmu
    = s.pmu ∧ (judgePair a1 s).svc = s.svc ∧ (judgePair a1 s).therm = s.therm ∧ (judgePair a1 s).regs = s.regs ∧
    (judgePair a1 s).hmem = s.hmem ∧ (judgePair a1 s).now = s.now ∧ (judgePair a1 s).elapsed = s.elapsed ∧ (judgePair a1
    s).free = s.free ∧ (judgePair a1 s).pending = s.pending := by
  intros; unfold judgePair
  first
    | ((repeat' split) <;> simp; done)
    | (dsimp only; (repeat' split) <;> simp [*]; done)
    | ((repeat' apply And.intro) <;> dsimp only <;> (repeat' split) <;> simp [*]; done)

@[simp] theorem judgePressure_keeps : ∀ s, (judgePressure s).md = s.md ∧ (judgePressure s).dev = s.dev ∧ (judgePressure
    s).pins = s.pins ∧ (judgePressure s).side = s.side ∧ (judgePressure s).prot = s.prot ∧ (judgePressure s).mram =
    s.mram ∧ (judgePressure s).img = s.img ∧ (judgePressure s).host = s.host ∧ (judgePressure s).lat = s.lat ∧
    (judgePressure s).acct = s.acct ∧ (judgePressure s).tim = s.tim ∧ (judgePressure s).eg = s.eg ∧ (judgePressure
    s).tab = s.tab ∧ (judgePressure s).gen = s.gen ∧ (judgePressure s).eng = s.eng ∧ (judgePressure s).recd = s.recd ∧
    (judgePressure s).pmu = s.pmu ∧ (judgePressure s).svc = s.svc ∧ (judgePressure s).therm = s.therm ∧ (judgePressure
    s).regs = s.regs ∧ (judgePressure s).hmem = s.hmem ∧ (judgePressure s).now = s.now ∧ (judgePressure s).elapsed =
    s.elapsed ∧ (judgePressure s).free = s.free ∧ (judgePressure s).pending = s.pending := by
  intros; unfold judgePressure
  first
    | ((repeat' split) <;> simp; done)
    | (dsimp only; (repeat' split) <;> simp [*]; done)
    | ((repeat' apply And.intro) <;> dsimp only <;> (repeat' split) <;> simp [*]; done)

@[simp] theorem tsReturn_keeps : ∀ a1 a2 a3 s, (tsReturn a1 a2 a3 s).md = s.md ∧ (tsReturn a1 a2 a3 s).dev = s.dev ∧
    (tsReturn a1 a2 a3 s).pins = s.pins ∧ (tsReturn a1 a2 a3 s).side = s.side ∧ (tsReturn a1 a2 a3 s).prot = s.prot ∧
    (tsReturn a1 a2 a3 s).mram = s.mram ∧ (tsReturn a1 a2 a3 s).img = s.img ∧ (tsReturn a1 a2 a3 s).host = s.host ∧
    (tsReturn a1 a2 a3 s).lat = s.lat ∧ (tsReturn a1 a2 a3 s).acct = s.acct ∧ (tsReturn a1 a2 a3 s).tim = s.tim ∧
    (tsReturn a1 a2 a3 s).buf = s.buf ∧ (tsReturn a1 a2 a3 s).eg = s.eg ∧ (tsReturn a1 a2 a3 s).tab = s.tab ∧ (tsReturn
    a1 a2 a3 s).gen = s.gen ∧ (tsReturn a1 a2 a3 s).eng = s.eng ∧ (tsReturn a1 a2 a3 s).recd = s.recd ∧ (tsReturn a1 a2
    a3 s).pmu = s.pmu ∧ (tsReturn a1 a2 a3 s).svc = s.svc ∧ (tsReturn a1 a2 a3 s).therm = s.therm ∧ (tsReturn a1 a2 a3
    s).regs = s.regs ∧ (tsReturn a1 a2 a3 s).hmem = s.hmem ∧ (tsReturn a1 a2 a3 s).now = s.now ∧ (tsReturn a1 a2 a3
    s).elapsed = s.elapsed ∧ (tsReturn a1 a2 a3 s).free = s.free ∧ (tsReturn a1 a2 a3 s).pending = s.pending := by
  intros; unfold tsReturn
  first
    | ((repeat' split) <;> simp; done)
    | (dsimp only; (repeat' split) <;> simp [*]; done)
    | ((repeat' apply And.intro) <;> dsimp only <;> (repeat' split) <;> simp [*]; done)

@[simp] theorem chargePair_keeps : ∀ a1 a2 a3 s, (chargePair a1 a2 a3 s).md = s.md ∧ (chargePair a1 a2 a3 s).dev = s.dev
    ∧ (chargePair a1 a2 a3 s).pins = s.pins ∧ (chargePair a1 a2 a3 s).side = s.side ∧ (chargePair a1 a2 a3 s).prot =
    s.prot ∧ (chargePair a1 a2 a3 s).mram = s.mram ∧ (chargePair a1 a2 a3 s).img = s.img ∧ (chargePair a1 a2 a3 s).host
    = s.host ∧ (chargePair a1 a2 a3 s).lat = s.lat ∧ (chargePair a1 a2 a3 s).acct = s.acct ∧ (chargePair a1 a2 a3 s).tim
    = s.tim ∧ (chargePair a1 a2 a3 s).eg = s.eg ∧ (chargePair a1 a2 a3 s).tab = s.tab ∧ (chargePair a1 a2 a3 s).gen =
    s.gen ∧ (chargePair a1 a2 a3 s).eng = s.eng ∧ (chargePair a1 a2 a3 s).recd = s.recd ∧ (chargePair a1 a2 a3 s).pmu =
    s.pmu ∧ (chargePair a1 a2 a3 s).svc = s.svc ∧ (chargePair a1 a2 a3 s).therm = s.therm ∧ (chargePair a1 a2 a3 s).regs
    = s.regs ∧ (chargePair a1 a2 a3 s).hmem = s.hmem ∧ (chargePair a1 a2 a3 s).now = s.now ∧ (chargePair a1 a2 a3
    s).elapsed = s.elapsed ∧ (chargePair a1 a2 a3 s).free = s.free ∧ (chargePair a1 a2 a3 s).pending = s.pending := by
  intros; unfold chargePair
  first
    | ((repeat' split) <;> simp; done)
    | (dsimp only; (repeat' split) <;> simp [*]; done)
    | ((repeat' apply And.intro) <;> dsimp only <;> (repeat' split) <;> simp [*]; done)

@[simp] theorem releasePair_keeps : ∀ a1 a2 s, (releasePair a1 a2 s).md = s.md ∧ (releasePair a1 a2 s).dev = s.dev ∧
    (releasePair a1 a2 s).pins = s.pins ∧ (releasePair a1 a2 s).side = s.side ∧ (releasePair a1 a2 s).prot = s.prot ∧
    (releasePair a1 a2 s).mram = s.mram ∧ (releasePair a1 a2 s).img = s.img ∧ (releasePair a1 a2 s).host = s.host ∧
    (releasePair a1 a2 s).lat = s.lat ∧ (releasePair a1 a2 s).acct = s.acct ∧ (releasePair a1 a2 s).tim = s.tim ∧
    (releasePair a1 a2 s).eg = s.eg ∧ (releasePair a1 a2 s).tab = s.tab ∧ (releasePair a1 a2 s).gen = s.gen ∧
    (releasePair a1 a2 s).eng = s.eng ∧ (releasePair a1 a2 s).recd = s.recd ∧ (releasePair a1 a2 s).pmu = s.pmu ∧
    (releasePair a1 a2 s).svc = s.svc ∧ (releasePair a1 a2 s).therm = s.therm ∧ (releasePair a1 a2 s).regs = s.regs ∧
    (releasePair a1 a2 s).hmem = s.hmem ∧ (releasePair a1 a2 s).now = s.now ∧ (releasePair a1 a2 s).elapsed = s.elapsed
    ∧ (releasePair a1 a2 s).free = s.free ∧ (releasePair a1 a2 s).pending = s.pending := by
  intros; unfold releasePair
  first
    | ((repeat' split) <;> simp; done)
    | (dsimp only; (repeat' split) <;> simp [*]; done)
    | ((repeat' apply And.intro) <;> dsimp only <;> (repeat' split) <;> simp [*]; done)

@[simp] theorem countEmpty_keeps : ∀ s, (countEmpty s).md = s.md ∧ (countEmpty s).dev = s.dev ∧ (countEmpty s).pins =
    s.pins ∧ (countEmpty s).side = s.side ∧ (countEmpty s).prot = s.prot ∧ (countEmpty s).mram = s.mram ∧ (countEmpty
    s).img = s.img ∧ (countEmpty s).host = s.host ∧ (countEmpty s).lat = s.lat ∧ (countEmpty s).acct = s.acct ∧
    (countEmpty s).lk = s.lk ∧ (countEmpty s).tim = s.tim ∧ (countEmpty s).buf = s.buf ∧ (countEmpty s).eg = s.eg ∧
    (countEmpty s).tab = s.tab ∧ (countEmpty s).gen = s.gen ∧ (countEmpty s).eng = s.eng ∧ (countEmpty s).recd = s.recd
    ∧ (countEmpty s).svc = s.svc ∧ (countEmpty s).therm = s.therm ∧ (countEmpty s).hmem = s.hmem ∧ (countEmpty s).now =
    s.now ∧ (countEmpty s).elapsed = s.elapsed ∧ (countEmpty s).free = s.free ∧ (countEmpty s).pending = s.pending := by
  intros; unfold countEmpty
  first
    | ((repeat' split) <;> simp; done)
    | (dsimp only; (repeat' split) <;> simp [*]; done)
    | ((repeat' apply And.intro) <;> dsimp only <;> (repeat' split) <;> simp [*]; done)

@[simp] theorem limitedEvent_keeps : ∀ a1 a2 a3 a4 s, (limitedEvent a1 a2 a3 a4 s).md = s.md ∧ (limitedEvent a1 a2 a3 a4
    s).dev = s.dev ∧ (limitedEvent a1 a2 a3 a4 s).pins = s.pins ∧ (limitedEvent a1 a2 a3 a4 s).side = s.side ∧
    (limitedEvent a1 a2 a3 a4 s).prot = s.prot ∧ (limitedEvent a1 a2 a3 a4 s).mram = s.mram ∧ (limitedEvent a1 a2 a3 a4
    s).img = s.img ∧ (limitedEvent a1 a2 a3 a4 s).lat = s.lat ∧ (limitedEvent a1 a2 a3 a4 s).acct = s.acct ∧
    (limitedEvent a1 a2 a3 a4 s).lk = s.lk ∧ (limitedEvent a1 a2 a3 a4 s).tim = s.tim ∧ (limitedEvent a1 a2 a3 a4 s).eg
    = s.eg ∧ (limitedEvent a1 a2 a3 a4 s).tab = s.tab ∧ (limitedEvent a1 a2 a3 a4 s).gen = s.gen ∧ (limitedEvent a1 a2
    a3 a4 s).eng = s.eng ∧ (limitedEvent a1 a2 a3 a4 s).recd = s.recd ∧ (limitedEvent a1 a2 a3 a4 s).pmu = s.pmu ∧
    (limitedEvent a1 a2 a3 a4 s).svc = s.svc ∧ (limitedEvent a1 a2 a3 a4 s).therm = s.therm ∧ (limitedEvent a1 a2 a3 a4
    s).hmem = s.hmem ∧ (limitedEvent a1 a2 a3 a4 s).now = s.now ∧ (limitedEvent a1 a2 a3 a4 s).elapsed = s.elapsed ∧
    (limitedEvent a1 a2 a3 a4 s).free = s.free ∧ (limitedEvent a1 a2 a3 a4 s).pending = s.pending := by
  intros; unfold limitedEvent
  first
    | ((repeat' split) <;> simp; done)
    | (dsimp only; (repeat' split) <;> simp [*]; done)
    | ((repeat' apply And.intro) <;> dsimp only <;> (repeat' split) <;> simp [*]; done)

@[simp] theorem modRec_keeps : ∀ a1 s, (modRec a1 s).md = s.md ∧ (modRec a1 s).dev = s.dev ∧ (modRec a1 s).pins = s.pins
    ∧ (modRec a1 s).side = s.side ∧ (modRec a1 s).prot = s.prot ∧ (modRec a1 s).mram = s.mram ∧ (modRec a1 s).img =
    s.img ∧ (modRec a1 s).host = s.host ∧ (modRec a1 s).lat = s.lat ∧ (modRec a1 s).acct = s.acct ∧ (modRec a1 s).lk =
    s.lk ∧ (modRec a1 s).tim = s.tim ∧ (modRec a1 s).buf = s.buf ∧ (modRec a1 s).eg = s.eg ∧ (modRec a1 s).tab = s.tab ∧
    (modRec a1 s).gen = s.gen ∧ (modRec a1 s).eng = s.eng ∧ (modRec a1 s).pmu = s.pmu ∧ (modRec a1 s).svc = s.svc ∧
    (modRec a1 s).therm = s.therm ∧ (modRec a1 s).regs = s.regs ∧ (modRec a1 s).hmem = s.hmem ∧ (modRec a1 s).now =
    s.now ∧ (modRec a1 s).elapsed = s.elapsed ∧ (modRec a1 s).free = s.free ∧ (modRec a1 s).pending = s.pending := by
  intros; unfold modRec
  first
    | ((repeat' split) <;> simp; done)
    | (dsimp only; (repeat' split) <;> simp [*]; done)
    | ((repeat' apply And.intro) <;> dsimp only <;> (repeat' split) <;> simp [*]; done)

@[simp] theorem recOpen_keeps : ∀ s, (recOpen s).md = s.md ∧ (recOpen s).dev = s.dev ∧ (recOpen s).pins = s.pins ∧
    (recOpen s).side = s.side ∧ (recOpen s).prot = s.prot ∧ (recOpen s).mram = s.mram ∧ (recOpen s).img = s.img ∧
    (recOpen s).host = s.host ∧ (recOpen s).lat = s.lat ∧ (recOpen s).acct = s.acct ∧ (recOpen s).lk = s.lk ∧ (recOpen
    s).tim = s.tim ∧ (recOpen s).buf = s.buf ∧ (recOpen s).eg = s.eg ∧ (recOpen s).tab = s.tab ∧ (recOpen s).gen = s.gen
    ∧ (recOpen s).eng = s.eng ∧ (recOpen s).pmu = s.pmu ∧ (recOpen s).svc = s.svc ∧ (recOpen s).therm = s.therm ∧
    (recOpen s).regs = s.regs ∧ (recOpen s).hmem = s.hmem ∧ (recOpen s).now = s.now ∧ (recOpen s).elapsed = s.elapsed ∧
    (recOpen s).free = s.free ∧ (recOpen s).pending = s.pending := by
  intros; unfold recOpen
  first
    | ((repeat' split) <;> simp; done)
    | (dsimp only; (repeat' split) <;> simp [*]; done)
    | ((repeat' apply And.intro) <;> dsimp only <;> (repeat' split) <;> simp [*]; done)

@[simp] theorem recSealOpen_keeps : ∀ a1 s, (recSealOpen a1 s).md = s.md ∧ (recSealOpen a1 s).dev = s.dev ∧ (recSealOpen
    a1 s).pins = s.pins ∧ (recSealOpen a1 s).side = s.side ∧ (recSealOpen a1 s).prot = s.prot ∧ (recSealOpen a1 s).mram
    = s.mram ∧ (recSealOpen a1 s).img = s.img ∧ (recSealOpen a1 s).lat = s.lat ∧ (recSealOpen a1 s).acct = s.acct ∧
    (recSealOpen a1 s).lk = s.lk ∧ (recSealOpen a1 s).tim = s.tim ∧ (recSealOpen a1 s).buf = s.buf ∧ (recSealOpen a1
    s).eg = s.eg ∧ (recSealOpen a1 s).tab = s.tab ∧ (recSealOpen a1 s).gen = s.gen ∧ (recSealOpen a1 s).eng = s.eng ∧
    (recSealOpen a1 s).pmu = s.pmu ∧ (recSealOpen a1 s).svc = s.svc ∧ (recSealOpen a1 s).therm = s.therm ∧ (recSealOpen
    a1 s).hmem = s.hmem ∧ (recSealOpen a1 s).now = s.now ∧ (recSealOpen a1 s).elapsed = s.elapsed ∧ (recSealOpen a1
    s).free = s.free ∧ (recSealOpen a1 s).pending = s.pending := by
  intros; unfold recSealOpen
  first
    | ((repeat' split) <;> simp; done)
    | (dsimp only; (repeat' split) <;> simp [*]; done)
    | ((repeat' apply And.intro) <;> dsimp only <;> (repeat' split) <;> simp [*]; done)

@[simp] theorem recNewKey_keeps : ∀ s, (recNewKey s).md = s.md ∧ (recNewKey s).dev = s.dev ∧ (recNewKey s).pins = s.pins
    ∧ (recNewKey s).side = s.side ∧ (recNewKey s).prot = s.prot ∧ (recNewKey s).img = s.img ∧ (recNewKey s).host =
    s.host ∧ (recNewKey s).lat = s.lat ∧ (recNewKey s).acct = s.acct ∧ (recNewKey s).lk = s.lk ∧ (recNewKey s).tim =
    s.tim ∧ (recNewKey s).buf = s.buf ∧ (recNewKey s).eg = s.eg ∧ (recNewKey s).tab = s.tab ∧ (recNewKey s).gen = s.gen
    ∧ (recNewKey s).eng = s.eng ∧ (recNewKey s).pmu = s.pmu ∧ (recNewKey s).svc = s.svc ∧ (recNewKey s).therm = s.therm
    ∧ (recNewKey s).regs = s.regs ∧ (recNewKey s).hmem = s.hmem ∧ (recNewKey s).now = s.now ∧ (recNewKey s).elapsed =
    s.elapsed ∧ (recNewKey s).pending = s.pending := by
  intros; unfold recNewKey
  first
    | ((repeat' split) <;> simp; done)
    | (dsimp only; (repeat' split) <;> simp [*]; done)
    | ((repeat' apply And.intro) <;> dsimp only <;> (repeat' split) <;> simp [*]; done)

@[simp] theorem recRotateKey_keeps : ∀ s, (recRotateKey s).md = s.md ∧ (recRotateKey s).dev = s.dev ∧ (recRotateKey
    s).pins = s.pins ∧ (recRotateKey s).side = s.side ∧ (recRotateKey s).prot = s.prot ∧ (recRotateKey s).img = s.img ∧
    (recRotateKey s).lat = s.lat ∧ (recRotateKey s).acct = s.acct ∧ (recRotateKey s).lk = s.lk ∧ (recRotateKey s).tim =
    s.tim ∧ (recRotateKey s).buf = s.buf ∧ (recRotateKey s).eg = s.eg ∧ (recRotateKey s).tab = s.tab ∧ (recRotateKey
    s).gen = s.gen ∧ (recRotateKey s).eng = s.eng ∧ (recRotateKey s).pmu = s.pmu ∧ (recRotateKey s).svc = s.svc ∧
    (recRotateKey s).therm = s.therm ∧ (recRotateKey s).hmem = s.hmem ∧ (recRotateKey s).now = s.now ∧ (recRotateKey
    s).elapsed = s.elapsed ∧ (recRotateKey s).pending = s.pending := by
  intros; unfold recRotateKey
  first
    | ((repeat' split) <;> simp; done)
    | (dsimp only; (repeat' split) <;> simp [*]; done)
    | ((repeat' apply And.intro) <;> dsimp only <;> (repeat' split) <;> simp [*]; done)

@[simp] theorem recDropKey_keeps : ∀ s, (recDropKey s).md = s.md ∧ (recDropKey s).dev = s.dev ∧ (recDropKey s).pins =
    s.pins ∧ (recDropKey s).side = s.side ∧ (recDropKey s).prot = s.prot ∧ (recDropKey s).mram = s.mram ∧ (recDropKey
    s).img = s.img ∧ (recDropKey s).host = s.host ∧ (recDropKey s).lat = s.lat ∧ (recDropKey s).acct = s.acct ∧
    (recDropKey s).lk = s.lk ∧ (recDropKey s).tim = s.tim ∧ (recDropKey s).buf = s.buf ∧ (recDropKey s).eg = s.eg ∧
    (recDropKey s).tab = s.tab ∧ (recDropKey s).gen = s.gen ∧ (recDropKey s).eng = s.eng ∧ (recDropKey s).pmu = s.pmu ∧
    (recDropKey s).svc = s.svc ∧ (recDropKey s).therm = s.therm ∧ (recDropKey s).regs = s.regs ∧ (recDropKey s).hmem =
    s.hmem ∧ (recDropKey s).now = s.now ∧ (recDropKey s).elapsed = s.elapsed ∧ (recDropKey s).free = s.free ∧
    (recDropKey s).pending = s.pending := by
  intros; unfold recDropKey
  first
    | ((repeat' split) <;> simp; done)
    | (dsimp only; (repeat' split) <;> simp [*]; done)
    | ((repeat' apply And.intro) <;> dsimp only <;> (repeat' split) <;> simp [*]; done)

@[simp] theorem recLoseOpen_keeps : ∀ s, (recLoseOpen s).md = s.md ∧ (recLoseOpen s).dev = s.dev ∧ (recLoseOpen s).pins
    = s.pins ∧ (recLoseOpen s).side = s.side ∧ (recLoseOpen s).prot = s.prot ∧ (recLoseOpen s).mram = s.mram ∧
    (recLoseOpen s).img = s.img ∧ (recLoseOpen s).host = s.host ∧ (recLoseOpen s).lat = s.lat ∧ (recLoseOpen s).acct =
    s.acct ∧ (recLoseOpen s).lk = s.lk ∧ (recLoseOpen s).tim = s.tim ∧ (recLoseOpen s).buf = s.buf ∧ (recLoseOpen s).eg
    = s.eg ∧ (recLoseOpen s).tab = s.tab ∧ (recLoseOpen s).gen = s.gen ∧ (recLoseOpen s).eng = s.eng ∧ (recLoseOpen
    s).pmu = s.pmu ∧ (recLoseOpen s).svc = s.svc ∧ (recLoseOpen s).therm = s.therm ∧ (recLoseOpen s).regs = s.regs ∧
    (recLoseOpen s).hmem = s.hmem ∧ (recLoseOpen s).now = s.now ∧ (recLoseOpen s).elapsed = s.elapsed ∧ (recLoseOpen
    s).free = s.free ∧ (recLoseOpen s).pending = s.pending := by
  intros; unfold recLoseOpen
  first
    | ((repeat' split) <;> simp; done)
    | (dsimp only; (repeat' split) <;> simp [*]; done)
    | ((repeat' apply And.intro) <;> dsimp only <;> (repeat' split) <;> simp [*]; done)

@[simp] theorem sealOrLose_keeps : ∀ a1 a2 s, (sealOrLose a1 a2 s).md = s.md ∧ (sealOrLose a1 a2 s).dev = s.dev ∧
    (sealOrLose a1 a2 s).pins = s.pins ∧ (sealOrLose a1 a2 s).side = s.side ∧ (sealOrLose a1 a2 s).prot = s.prot ∧
    (sealOrLose a1 a2 s).mram = s.mram ∧ (sealOrLose a1 a2 s).img = s.img ∧ (sealOrLose a1 a2 s).lat = s.lat ∧
    (sealOrLose a1 a2 s).acct = s.acct ∧ (sealOrLose a1 a2 s).lk = s.lk ∧ (sealOrLose a1 a2 s).tim = s.tim ∧ (sealOrLose
    a1 a2 s).buf = s.buf ∧ (sealOrLose a1 a2 s).eg = s.eg ∧ (sealOrLose a1 a2 s).tab = s.tab ∧ (sealOrLose a1 a2 s).gen
    = s.gen ∧ (sealOrLose a1 a2 s).eng = s.eng ∧ (sealOrLose a1 a2 s).pmu = s.pmu ∧ (sealOrLose a1 a2 s).svc = s.svc ∧
    (sealOrLose a1 a2 s).therm = s.therm ∧ (sealOrLose a1 a2 s).hmem = s.hmem ∧ (sealOrLose a1 a2 s).now = s.now ∧
    (sealOrLose a1 a2 s).elapsed = s.elapsed ∧ (sealOrLose a1 a2 s).free = s.free ∧ (sealOrLose a1 a2 s).pending =
    s.pending := by
  intros; unfold sealOrLose
  first
    | ((repeat' split) <;> simp; done)
    | (dsimp only; (repeat' split) <;> simp [*]; done)
    | ((repeat' apply And.intro) <;> dsimp only <;> (repeat' split) <;> simp [*]; done)

@[simp] theorem makeRegion_keeps : ∀ a1 a2 a3 a4 s, (makeRegion a1 a2 a3 a4 s).md = s.md ∧ (makeRegion a1 a2 a3 a4
    s).dev = s.dev ∧ (makeRegion a1 a2 a3 a4 s).pins = s.pins ∧ (makeRegion a1 a2 a3 a4 s).side = s.side ∧ (makeRegion
    a1 a2 a3 a4 s).prot = s.prot ∧ (makeRegion a1 a2 a3 a4 s).mram = s.mram ∧ (makeRegion a1 a2 a3 a4 s).img = s.img ∧
    (makeRegion a1 a2 a3 a4 s).lat = s.lat ∧ (makeRegion a1 a2 a3 a4 s).acct = s.acct ∧ (makeRegion a1 a2 a3 a4 s).lk =
    s.lk ∧ (makeRegion a1 a2 a3 a4 s).tim = s.tim ∧ (makeRegion a1 a2 a3 a4 s).buf = s.buf ∧ (makeRegion a1 a2 a3 a4
    s).eg = s.eg ∧ (makeRegion a1 a2 a3 a4 s).tab = s.tab ∧ (makeRegion a1 a2 a3 a4 s).gen = s.gen ∧ (makeRegion a1 a2
    a3 a4 s).eng = s.eng ∧ (makeRegion a1 a2 a3 a4 s).pmu = s.pmu ∧ (makeRegion a1 a2 a3 a4 s).svc = s.svc ∧ (makeRegion
    a1 a2 a3 a4 s).therm = s.therm ∧ (makeRegion a1 a2 a3 a4 s).hmem = s.hmem ∧ (makeRegion a1 a2 a3 a4 s).now = s.now ∧
    (makeRegion a1 a2 a3 a4 s).elapsed = s.elapsed ∧ (makeRegion a1 a2 a3 a4 s).free = s.free ∧ (makeRegion a1 a2 a3 a4
    s).pending = s.pending := by
  intros; unfold makeRegion
  first
    | ((repeat' split) <;> simp; done)
    | (dsimp only; (repeat' split) <;> simp [*]; done)
    | ((repeat' apply And.intro) <;> dsimp only <;> (repeat' split) <;> simp [*]; done)

@[simp] theorem oneCycle_md (f g : State → State) (s : State) (hf : ∀ s, (f s).md = s.md) (hg : ∀ s, (g s).md = s.md) :
    (oneCycle f g s).md = s.md := by
  unfold oneCycle; dsimp only; split <;> simp [hf, hg]

@[simp] theorem oneCycle_dev (f g : State → State) (s : State) (hf : ∀ s, (f s).dev = s.dev) (hg : ∀ s, (g s).dev =
    s.dev) : (oneCycle f g s).dev = s.dev := by
  unfold oneCycle; dsimp only; split <;> simp [hf, hg]

@[simp] theorem oneCycle_pins (f g : State → State) (s : State) (hf : ∀ s, (f s).pins = s.pins) (hg : ∀ s, (g s).pins =
    s.pins) : (oneCycle f g s).pins = s.pins := by
  unfold oneCycle; dsimp only; split <;> simp [hf, hg]

@[simp] theorem oneCycle_side (f g : State → State) (s : State) (hf : ∀ s, (f s).side = s.side) (hg : ∀ s, (g s).side =
    s.side) : (oneCycle f g s).side = s.side := by
  unfold oneCycle; dsimp only; split <;> simp [hf, hg]

@[simp] theorem oneCycle_prot (f g : State → State) (s : State) (hf : ∀ s, (f s).prot = s.prot) (hg : ∀ s, (g s).prot =
    s.prot) : (oneCycle f g s).prot = s.prot := by
  unfold oneCycle; dsimp only; split <;> simp [hf, hg]

@[simp] theorem oneCycle_mram (f g : State → State) (s : State) (hf : ∀ s, (f s).mram = s.mram) (hg : ∀ s, (g s).mram =
    s.mram) : (oneCycle f g s).mram = s.mram := by
  unfold oneCycle; dsimp only; split <;> simp [hf, hg]

@[simp] theorem oneCycle_img (f g : State → State) (s : State) (hf : ∀ s, (f s).img = s.img) (hg : ∀ s, (g s).img =
    s.img) : (oneCycle f g s).img = s.img := by
  unfold oneCycle; dsimp only; split <;> simp [hf, hg]

@[simp] theorem oneCycle_host (f g : State → State) (s : State) (hf : ∀ s, (f s).host = s.host) (hg : ∀ s, (g s).host =
    s.host) : (oneCycle f g s).host = s.host := by
  unfold oneCycle; dsimp only; split <;> simp [hf, hg]

@[simp] theorem oneCycle_lat (f g : State → State) (s : State) (hf : ∀ s, (f s).lat = s.lat) (hg : ∀ s, (g s).lat =
    s.lat) : (oneCycle f g s).lat = s.lat := by
  unfold oneCycle; dsimp only; split <;> simp [hf, hg]

@[simp] theorem oneCycle_acct (f g : State → State) (s : State) (hf : ∀ s, (f s).acct = s.acct) (hg : ∀ s, (g s).acct =
    s.acct) : (oneCycle f g s).acct = s.acct := by
  unfold oneCycle; dsimp only; split <;> simp [hf, hg]

@[simp] theorem oneCycle_lk (f g : State → State) (s : State) (hf : ∀ s, (f s).lk = s.lk) (hg : ∀ s, (g s).lk = s.lk) :
    (oneCycle f g s).lk = s.lk := by
  unfold oneCycle; dsimp only; split <;> simp [hf, hg]

@[simp] theorem oneCycle_tim (f g : State → State) (s : State) (hf : ∀ s, (f s).tim = s.tim) (hg : ∀ s, (g s).tim =
    s.tim) : (oneCycle f g s).tim = s.tim := by
  unfold oneCycle; dsimp only; split <;> simp [hf, hg]

@[simp] theorem oneCycle_buf (f g : State → State) (s : State) (hf : ∀ s, (f s).buf = s.buf) (hg : ∀ s, (g s).buf =
    s.buf) : (oneCycle f g s).buf = s.buf := by
  unfold oneCycle; dsimp only; split <;> simp [hf, hg]

@[simp] theorem oneCycle_eg (f g : State → State) (s : State) (hf : ∀ s, (f s).eg = s.eg) (hg : ∀ s, (g s).eg = s.eg) :
    (oneCycle f g s).eg = s.eg := by
  unfold oneCycle; dsimp only; split <;> simp [hf, hg]

@[simp] theorem oneCycle_tab (f g : State → State) (s : State) (hf : ∀ s, (f s).tab = s.tab) (hg : ∀ s, (g s).tab =
    s.tab) : (oneCycle f g s).tab = s.tab := by
  unfold oneCycle; dsimp only; split <;> simp [hf, hg]

@[simp] theorem oneCycle_gen (f g : State → State) (s : State) (hf : ∀ s, (f s).gen = s.gen) (hg : ∀ s, (g s).gen =
    s.gen) : (oneCycle f g s).gen = s.gen := by
  unfold oneCycle; dsimp only; split <;> simp [hf, hg]

@[simp] theorem oneCycle_eng (f g : State → State) (s : State) (hf : ∀ s, (f s).eng = s.eng) (hg : ∀ s, (g s).eng =
    s.eng) : (oneCycle f g s).eng = s.eng := by
  unfold oneCycle; dsimp only; split <;> simp [hf, hg]

@[simp] theorem oneCycle_pmu (f g : State → State) (s : State) (hf : ∀ s, (f s).pmu = s.pmu) (hg : ∀ s, (g s).pmu =
    s.pmu) : (oneCycle f g s).pmu = s.pmu := by
  unfold oneCycle; dsimp only; split <;> simp [hf, hg]

@[simp] theorem oneCycle_svc (f g : State → State) (s : State) (hf : ∀ s, (f s).svc = s.svc) (hg : ∀ s, (g s).svc =
    s.svc) : (oneCycle f g s).svc = s.svc := by
  unfold oneCycle; dsimp only; split <;> simp [hf, hg]

@[simp] theorem oneCycle_therm (f g : State → State) (s : State) (hf : ∀ s, (f s).therm = s.therm) (hg : ∀ s, (g
    s).therm = s.therm) : (oneCycle f g s).therm = s.therm := by
  unfold oneCycle; dsimp only; split <;> simp [hf, hg]

@[simp] theorem oneCycle_regs (f g : State → State) (s : State) (hf : ∀ s, (f s).regs = s.regs) (hg : ∀ s, (g s).regs =
    s.regs) : (oneCycle f g s).regs = s.regs := by
  unfold oneCycle; dsimp only; split <;> simp [hf, hg]

@[simp] theorem oneCycle_hmem (f g : State → State) (s : State) (hf : ∀ s, (f s).hmem = s.hmem) (hg : ∀ s, (g s).hmem =
    s.hmem) : (oneCycle f g s).hmem = s.hmem := by
  unfold oneCycle; dsimp only; split <;> simp [hf, hg]

@[simp] theorem oneCycle_now (f g : State → State) (s : State) (hf : ∀ s, (f s).now = s.now) (hg : ∀ s, (g s).now =
    s.now) : (oneCycle f g s).now = s.now := by
  unfold oneCycle; dsimp only; split <;> simp [hf, hg]

@[simp] theorem oneCycle_elapsed (f g : State → State) (s : State) (hf : ∀ s, (f s).elapsed = s.elapsed) (hg : ∀ s, (g
    s).elapsed = s.elapsed) : (oneCycle f g s).elapsed = s.elapsed := by
  unfold oneCycle; dsimp only; split <;> simp [hf, hg]

@[simp] theorem oneCycle_free (f g : State → State) (s : State) (hf : ∀ s, (f s).free = s.free) (hg : ∀ s, (g s).free =
    s.free) : (oneCycle f g s).free = s.free := by
  unfold oneCycle; dsimp only; split <;> simp [hf, hg]

@[simp] theorem oneCycle_pending (f g : State → State) (s : State) (hf : ∀ s, (f s).pending = s.pending) (hg : ∀ s, (g
    s).pending = s.pending) : (oneCycle f g s).pending = s.pending := by
  unfold oneCycle; dsimp only; split <;> simp [hf, hg]

@[simp] theorem recTriggerBy_keeps : ∀ a1 a2 a3 a4 s, (recTriggerBy a1 a2 a3 a4 s).md = s.md ∧ (recTriggerBy a1 a2 a3 a4
    s).dev = s.dev ∧ (recTriggerBy a1 a2 a3 a4 s).pins = s.pins ∧ (recTriggerBy a1 a2 a3 a4 s).side = s.side ∧
    (recTriggerBy a1 a2 a3 a4 s).prot = s.prot ∧ (recTriggerBy a1 a2 a3 a4 s).mram = s.mram ∧ (recTriggerBy a1 a2 a3 a4
    s).img = s.img ∧ (recTriggerBy a1 a2 a3 a4 s).lat = s.lat ∧ (recTriggerBy a1 a2 a3 a4 s).acct = s.acct ∧
    (recTriggerBy a1 a2 a3 a4 s).lk = s.lk ∧ (recTriggerBy a1 a2 a3 a4 s).tim = s.tim ∧ (recTriggerBy a1 a2 a3 a4 s).buf
    = s.buf ∧ (recTriggerBy a1 a2 a3 a4 s).eg = s.eg ∧ (recTriggerBy a1 a2 a3 a4 s).tab = s.tab ∧ (recTriggerBy a1 a2 a3
    a4 s).gen = s.gen ∧ (recTriggerBy a1 a2 a3 a4 s).eng = s.eng ∧ (recTriggerBy a1 a2 a3 a4 s).pmu = s.pmu ∧
    (recTriggerBy a1 a2 a3 a4 s).svc = s.svc ∧ (recTriggerBy a1 a2 a3 a4 s).therm = s.therm ∧ (recTriggerBy a1 a2 a3 a4
    s).hmem = s.hmem ∧ (recTriggerBy a1 a2 a3 a4 s).now = s.now ∧ (recTriggerBy a1 a2 a3 a4 s).elapsed = s.elapsed ∧
    (recTriggerBy a1 a2 a3 a4 s).free = s.free ∧ (recTriggerBy a1 a2 a3 a4 s).pending = s.pending := by
  intros; unfold recTriggerBy
  first
    | ((repeat' split) <;> simp; done)
    | (dsimp only; (repeat' split) <;> simp [*]; done)
    | ((repeat' apply And.intro) <;> dsimp only <;> (repeat' split) <;> simp [*]; done)

@[simp] theorem recTrigger_keeps : ∀ a1 a2 a3 s, (recTrigger a1 a2 a3 s).md = s.md ∧ (recTrigger a1 a2 a3 s).dev = s.dev
    ∧ (recTrigger a1 a2 a3 s).pins = s.pins ∧ (recTrigger a1 a2 a3 s).side = s.side ∧ (recTrigger a1 a2 a3 s).prot =
    s.prot ∧ (recTrigger a1 a2 a3 s).mram = s.mram ∧ (recTrigger a1 a2 a3 s).img = s.img ∧ (recTrigger a1 a2 a3 s).lat =
    s.lat ∧ (recTrigger a1 a2 a3 s).acct = s.acct ∧ (recTrigger a1 a2 a3 s).lk = s.lk ∧ (recTrigger a1 a2 a3 s).tim =
    s.tim ∧ (recTrigger a1 a2 a3 s).buf = s.buf ∧ (recTrigger a1 a2 a3 s).eg = s.eg ∧ (recTrigger a1 a2 a3 s).tab =
    s.tab ∧ (recTrigger a1 a2 a3 s).gen = s.gen ∧ (recTrigger a1 a2 a3 s).eng = s.eng ∧ (recTrigger a1 a2 a3 s).pmu =
    s.pmu ∧ (recTrigger a1 a2 a3 s).svc = s.svc ∧ (recTrigger a1 a2 a3 s).therm = s.therm ∧ (recTrigger a1 a2 a3 s).hmem
    = s.hmem ∧ (recTrigger a1 a2 a3 s).now = s.now ∧ (recTrigger a1 a2 a3 s).elapsed = s.elapsed ∧ (recTrigger a1 a2 a3
    s).free = s.free ∧ (recTrigger a1 a2 a3 s).pending = s.pending := by
  intros; unfold recTrigger
  first
    | ((repeat' split) <;> simp; done)
    | (dsimp only; (repeat' split) <;> simp [*]; done)
    | ((repeat' apply And.intro) <;> dsimp only <;> (repeat' split) <;> simp [*]; done)

@[simp] theorem recLoseIsland_keeps : ∀ a1 s, (recLoseIsland a1 s).md = s.md ∧ (recLoseIsland a1 s).dev = s.dev ∧
    (recLoseIsland a1 s).pins = s.pins ∧ (recLoseIsland a1 s).side = s.side ∧ (recLoseIsland a1 s).prot = s.prot ∧
    (recLoseIsland a1 s).mram = s.mram ∧ (recLoseIsland a1 s).img = s.img ∧ (recLoseIsland a1 s).host = s.host ∧
    (recLoseIsland a1 s).lat = s.lat ∧ (recLoseIsland a1 s).acct = s.acct ∧ (recLoseIsland a1 s).lk = s.lk ∧
    (recLoseIsland a1 s).tim = s.tim ∧ (recLoseIsland a1 s).buf = s.buf ∧ (recLoseIsland a1 s).eg = s.eg ∧
    (recLoseIsland a1 s).tab = s.tab ∧ (recLoseIsland a1 s).gen = s.gen ∧ (recLoseIsland a1 s).eng = s.eng ∧
    (recLoseIsland a1 s).pmu = s.pmu ∧ (recLoseIsland a1 s).svc = s.svc ∧ (recLoseIsland a1 s).therm = s.therm ∧
    (recLoseIsland a1 s).regs = s.regs ∧ (recLoseIsland a1 s).hmem = s.hmem ∧ (recLoseIsland a1 s).now = s.now ∧
    (recLoseIsland a1 s).elapsed = s.elapsed ∧ (recLoseIsland a1 s).free = s.free ∧ (recLoseIsland a1 s).pending =
    s.pending := by
  intros; unfold recLoseIsland
  first
    | ((repeat' split) <;> simp; done)
    | (dsimp only; (repeat' split) <;> simp [*]; done)
    | ((repeat' apply And.intro) <;> dsimp only <;> (repeat' split) <;> simp [*]; done)

@[simp] theorem recFault_keeps : ∀ a1 a2 s, (recFault a1 a2 s).md = s.md ∧ (recFault a1 a2 s).dev = s.dev ∧ (recFault a1
    a2 s).pins = s.pins ∧ (recFault a1 a2 s).side = s.side ∧ (recFault a1 a2 s).prot = s.prot ∧ (recFault a1 a2 s).mram
    = s.mram ∧ (recFault a1 a2 s).img = s.img ∧ (recFault a1 a2 s).lat = s.lat ∧ (recFault a1 a2 s).acct = s.acct ∧
    (recFault a1 a2 s).lk = s.lk ∧ (recFault a1 a2 s).tim = s.tim ∧ (recFault a1 a2 s).buf = s.buf ∧ (recFault a1 a2
    s).eg = s.eg ∧ (recFault a1 a2 s).tab = s.tab ∧ (recFault a1 a2 s).gen = s.gen ∧ (recFault a1 a2 s).eng = s.eng ∧
    (recFault a1 a2 s).pmu = s.pmu ∧ (recFault a1 a2 s).svc = s.svc ∧ (recFault a1 a2 s).therm = s.therm ∧ (recFault a1
    a2 s).hmem = s.hmem ∧ (recFault a1 a2 s).now = s.now ∧ (recFault a1 a2 s).elapsed = s.elapsed ∧ (recFault a1 a2
    s).free = s.free ∧ (recFault a1 a2 s).pending = s.pending := by
  intros; unfold recFault
  first
    | ((repeat' split) <;> simp; done)
    | (dsimp only; (repeat' split) <;> simp [*]; done)
    | ((repeat' apply And.intro) <;> dsimp only <;> (repeat' split) <;> simp [*]; done)

@[simp] theorem recPortDown_keeps : ∀ a1 s, (recPortDown a1 s).md = s.md ∧ (recPortDown a1 s).dev = s.dev ∧ (recPortDown
    a1 s).pins = s.pins ∧ (recPortDown a1 s).side = s.side ∧ (recPortDown a1 s).prot = s.prot ∧ (recPortDown a1 s).mram
    = s.mram ∧ (recPortDown a1 s).img = s.img ∧ (recPortDown a1 s).lat = s.lat ∧ (recPortDown a1 s).acct = s.acct ∧
    (recPortDown a1 s).lk = s.lk ∧ (recPortDown a1 s).tim = s.tim ∧ (recPortDown a1 s).buf = s.buf ∧ (recPortDown a1
    s).eg = s.eg ∧ (recPortDown a1 s).tab = s.tab ∧ (recPortDown a1 s).gen = s.gen ∧ (recPortDown a1 s).eng = s.eng ∧
    (recPortDown a1 s).pmu = s.pmu ∧ (recPortDown a1 s).svc = s.svc ∧ (recPortDown a1 s).therm = s.therm ∧ (recPortDown
    a1 s).hmem = s.hmem ∧ (recPortDown a1 s).now = s.now ∧ (recPortDown a1 s).elapsed = s.elapsed ∧ (recPortDown a1
    s).free = s.free ∧ (recPortDown a1 s).pending = s.pending := by
  intros; unfold recPortDown
  first
    | ((repeat' split) <;> simp; done)
    | (dsimp only; (repeat' split) <;> simp [*]; done)
    | ((repeat' apply And.intro) <;> dsimp only <;> (repeat' split) <;> simp [*]; done)

@[simp] theorem recCapture_keeps : ∀ a1 a2 s, (recCapture a1 a2 s).md = s.md ∧ (recCapture a1 a2 s).dev = s.dev ∧
    (recCapture a1 a2 s).pins = s.pins ∧ (recCapture a1 a2 s).side = s.side ∧ (recCapture a1 a2 s).prot = s.prot ∧
    (recCapture a1 a2 s).mram = s.mram ∧ (recCapture a1 a2 s).img = s.img ∧ (recCapture a1 a2 s).lat = s.lat ∧
    (recCapture a1 a2 s).acct = s.acct ∧ (recCapture a1 a2 s).lk = s.lk ∧ (recCapture a1 a2 s).tim = s.tim ∧ (recCapture
    a1 a2 s).buf = s.buf ∧ (recCapture a1 a2 s).eg = s.eg ∧ (recCapture a1 a2 s).tab = s.tab ∧ (recCapture a1 a2 s).gen
    = s.gen ∧ (recCapture a1 a2 s).eng = s.eng ∧ (recCapture a1 a2 s).pmu = s.pmu ∧ (recCapture a1 a2 s).svc = s.svc ∧
    (recCapture a1 a2 s).therm = s.therm ∧ (recCapture a1 a2 s).hmem = s.hmem ∧ (recCapture a1 a2 s).now = s.now ∧
    (recCapture a1 a2 s).elapsed = s.elapsed ∧ (recCapture a1 a2 s).free = s.free ∧ (recCapture a1 a2 s).pending =
    s.pending := by
  intros; unfold recCapture
  first
    | ((repeat' split) <;> simp; done)
    | (dsimp only; (repeat' split) <;> simp [*]; done)
    | ((repeat' apply And.intro) <;> dsimp only <;> (repeat' split) <;> simp [*]; done)

@[simp] theorem recFate_keeps : ∀ a1 a2 s, (recFate a1 a2 s).md = s.md ∧ (recFate a1 a2 s).dev = s.dev ∧ (recFate a1 a2
    s).pins = s.pins ∧ (recFate a1 a2 s).side = s.side ∧ (recFate a1 a2 s).prot = s.prot ∧ (recFate a1 a2 s).mram =
    s.mram ∧ (recFate a1 a2 s).img = s.img ∧ (recFate a1 a2 s).lat = s.lat ∧ (recFate a1 a2 s).acct = s.acct ∧ (recFate
    a1 a2 s).lk = s.lk ∧ (recFate a1 a2 s).tim = s.tim ∧ (recFate a1 a2 s).buf = s.buf ∧ (recFate a1 a2 s).eg = s.eg ∧
    (recFate a1 a2 s).tab = s.tab ∧ (recFate a1 a2 s).gen = s.gen ∧ (recFate a1 a2 s).eng = s.eng ∧ (recFate a1 a2
    s).pmu = s.pmu ∧ (recFate a1 a2 s).svc = s.svc ∧ (recFate a1 a2 s).therm = s.therm ∧ (recFate a1 a2 s).hmem = s.hmem
    ∧ (recFate a1 a2 s).now = s.now ∧ (recFate a1 a2 s).elapsed = s.elapsed ∧ (recFate a1 a2 s).free = s.free ∧ (recFate
    a1 a2 s).pending = s.pending := by
  intros; unfold recFate
  first
    | ((repeat' split) <;> simp; done)
    | (dsimp only; (repeat' split) <;> simp [*]; done)
    | ((repeat' apply And.intro) <;> dsimp only <;> (repeat' split) <;> simp [*]; done)

@[simp] theorem recAppend_keeps : ∀ a1 a2 a3 s, (recAppend a1 a2 a3 s).md = s.md ∧ (recAppend a1 a2 a3 s).dev = s.dev ∧
    (recAppend a1 a2 a3 s).pins = s.pins ∧ (recAppend a1 a2 a3 s).side = s.side ∧ (recAppend a1 a2 a3 s).prot = s.prot ∧
    (recAppend a1 a2 a3 s).mram = s.mram ∧ (recAppend a1 a2 a3 s).img = s.img ∧ (recAppend a1 a2 a3 s).host = s.host ∧
    (recAppend a1 a2 a3 s).lat = s.lat ∧ (recAppend a1 a2 a3 s).acct = s.acct ∧ (recAppend a1 a2 a3 s).tim = s.tim ∧
    (recAppend a1 a2 a3 s).eg = s.eg ∧ (recAppend a1 a2 a3 s).tab = s.tab ∧ (recAppend a1 a2 a3 s).gen = s.gen ∧
    (recAppend a1 a2 a3 s).eng = s.eng ∧ (recAppend a1 a2 a3 s).svc = s.svc ∧ (recAppend a1 a2 a3 s).therm = s.therm ∧
    (recAppend a1 a2 a3 s).hmem = s.hmem ∧ (recAppend a1 a2 a3 s).now = s.now ∧ (recAppend a1 a2 a3 s).elapsed =
    s.elapsed ∧ (recAppend a1 a2 a3 s).free = s.free ∧ (recAppend a1 a2 a3 s).pending = s.pending := by
  intros; unfold recAppend
  first
    | ((repeat' split) <;> simp; done)
    | (dsimp only; (repeat' split) <;> simp [*]; done)
    | ((repeat' apply And.intro) <;> dsimp only <;> (repeat' split) <;> simp [*]; done)

@[simp] theorem recMarker_keeps : ∀ a1 a2 a3 s, (recMarker a1 a2 a3 s).md = s.md ∧ (recMarker a1 a2 a3 s).dev = s.dev ∧
    (recMarker a1 a2 a3 s).pins = s.pins ∧ (recMarker a1 a2 a3 s).side = s.side ∧ (recMarker a1 a2 a3 s).prot = s.prot ∧
    (recMarker a1 a2 a3 s).mram = s.mram ∧ (recMarker a1 a2 a3 s).img = s.img ∧ (recMarker a1 a2 a3 s).host = s.host ∧
    (recMarker a1 a2 a3 s).lat = s.lat ∧ (recMarker a1 a2 a3 s).acct = s.acct ∧ (recMarker a1 a2 a3 s).tim = s.tim ∧
    (recMarker a1 a2 a3 s).eg = s.eg ∧ (recMarker a1 a2 a3 s).tab = s.tab ∧ (recMarker a1 a2 a3 s).gen = s.gen ∧
    (recMarker a1 a2 a3 s).eng = s.eng ∧ (recMarker a1 a2 a3 s).svc = s.svc ∧ (recMarker a1 a2 a3 s).therm = s.therm ∧
    (recMarker a1 a2 a3 s).hmem = s.hmem ∧ (recMarker a1 a2 a3 s).now = s.now ∧ (recMarker a1 a2 a3 s).elapsed =
    s.elapsed ∧ (recMarker a1 a2 a3 s).free = s.free ∧ (recMarker a1 a2 a3 s).pending = s.pending := by
  intros; unfold recMarker
  first
    | ((repeat' split) <;> simp; done)
    | (dsimp only; (repeat' split) <;> simp [*]; done)
    | ((repeat' apply And.intro) <;> dsimp only <;> (repeat' split) <;> simp [*]; done)

@[simp] theorem recPlace_keeps : ∀ a1 s, (recPlace a1 s).md = s.md ∧ (recPlace a1 s).dev = s.dev ∧ (recPlace a1 s).pins
    = s.pins ∧ (recPlace a1 s).side = s.side ∧ (recPlace a1 s).prot = s.prot ∧ (recPlace a1 s).mram = s.mram ∧ (recPlace
    a1 s).img = s.img ∧ (recPlace a1 s).lat = s.lat ∧ (recPlace a1 s).acct = s.acct ∧ (recPlace a1 s).lk = s.lk ∧
    (recPlace a1 s).tim = s.tim ∧ (recPlace a1 s).buf = s.buf ∧ (recPlace a1 s).eg = s.eg ∧ (recPlace a1 s).tab = s.tab
    ∧ (recPlace a1 s).gen = s.gen ∧ (recPlace a1 s).eng = s.eng ∧ (recPlace a1 s).pmu = s.pmu ∧ (recPlace a1 s).svc =
    s.svc ∧ (recPlace a1 s).therm = s.therm ∧ (recPlace a1 s).hmem = s.hmem ∧ (recPlace a1 s).now = s.now ∧ (recPlace a1
    s).elapsed = s.elapsed ∧ (recPlace a1 s).free = s.free ∧ (recPlace a1 s).pending = s.pending := by
  intros; unfold recPlace
  first
    | ((repeat' split) <;> simp; done)
    | (dsimp only; (repeat' split) <;> simp [*]; done)
    | ((repeat' apply And.intro) <;> dsimp only <;> (repeat' split) <;> simp [*]; done)

@[simp] theorem recLoss_keeps : ∀ s, (recLoss s).md = s.md ∧ (recLoss s).dev = s.dev ∧ (recLoss s).pins = s.pins ∧
    (recLoss s).side = s.side ∧ (recLoss s).prot = s.prot ∧ (recLoss s).mram = s.mram ∧ (recLoss s).img = s.img ∧
    (recLoss s).lat = s.lat ∧ (recLoss s).acct = s.acct ∧ (recLoss s).lk = s.lk ∧ (recLoss s).tim = s.tim ∧ (recLoss
    s).buf = s.buf ∧ (recLoss s).eg = s.eg ∧ (recLoss s).tab = s.tab ∧ (recLoss s).gen = s.gen ∧ (recLoss s).eng = s.eng
    ∧ (recLoss s).pmu = s.pmu ∧ (recLoss s).svc = s.svc ∧ (recLoss s).therm = s.therm ∧ (recLoss s).hmem = s.hmem ∧
    (recLoss s).now = s.now ∧ (recLoss s).elapsed = s.elapsed ∧ (recLoss s).free = s.free ∧ (recLoss s).pending =
    s.pending := by
  intros; unfold recLoss
  first
    | ((repeat' split) <;> simp; done)
    | (dsimp only; (repeat' split) <;> simp [*]; done)
    | ((repeat' apply And.intro) <;> dsimp only <;> (repeat' split) <;> simp [*]; done)

@[simp] theorem recWriteOldest_keeps : ∀ s, (recWriteOldest s).md = s.md ∧ (recWriteOldest s).dev = s.dev ∧
    (recWriteOldest s).pins = s.pins ∧ (recWriteOldest s).side = s.side ∧ (recWriteOldest s).prot = s.prot ∧
    (recWriteOldest s).mram = s.mram ∧ (recWriteOldest s).img = s.img ∧ (recWriteOldest s).lat = s.lat ∧ (recWriteOldest
    s).acct = s.acct ∧ (recWriteOldest s).tim = s.tim ∧ (recWriteOldest s).eg = s.eg ∧ (recWriteOldest s).tab = s.tab ∧
    (recWriteOldest s).gen = s.gen ∧ (recWriteOldest s).eng = s.eng ∧ (recWriteOldest s).pmu = s.pmu ∧ (recWriteOldest
    s).svc = s.svc ∧ (recWriteOldest s).therm = s.therm ∧ (recWriteOldest s).hmem = s.hmem ∧ (recWriteOldest s).now =
    s.now ∧ (recWriteOldest s).elapsed = s.elapsed ∧ (recWriteOldest s).free = s.free ∧ (recWriteOldest s).pending =
    s.pending := by
  intros; unfold recWriteOldest
  first
    | ((repeat' split) <;> simp; done)
    | (dsimp only; (repeat' split) <;> simp [*]; done)
    | ((repeat' apply And.intro) <;> dsimp only <;> (repeat' split) <;> simp [*]; done)

@[simp] theorem timeFault_keeps : ∀ a1 a2 a3 s, (timeFault a1 a2 a3 s).md = s.md ∧ (timeFault a1 a2 a3 s).dev = s.dev ∧
    (timeFault a1 a2 a3 s).pins = s.pins ∧ (timeFault a1 a2 a3 s).side = s.side ∧ (timeFault a1 a2 a3 s).prot = s.prot ∧
    (timeFault a1 a2 a3 s).mram = s.mram ∧ (timeFault a1 a2 a3 s).img = s.img ∧ (timeFault a1 a2 a3 s).lat = s.lat ∧
    (timeFault a1 a2 a3 s).acct = s.acct ∧ (timeFault a1 a2 a3 s).lk = s.lk ∧ (timeFault a1 a2 a3 s).buf = s.buf ∧
    (timeFault a1 a2 a3 s).eg = s.eg ∧ (timeFault a1 a2 a3 s).tab = s.tab ∧ (timeFault a1 a2 a3 s).gen = s.gen ∧
    (timeFault a1 a2 a3 s).eng = s.eng ∧ (timeFault a1 a2 a3 s).recd = s.recd ∧ (timeFault a1 a2 a3 s).pmu = s.pmu ∧
    (timeFault a1 a2 a3 s).svc = s.svc ∧ (timeFault a1 a2 a3 s).therm = s.therm ∧ (timeFault a1 a2 a3 s).hmem = s.hmem ∧
    (timeFault a1 a2 a3 s).now = s.now ∧ (timeFault a1 a2 a3 s).elapsed = s.elapsed ∧ (timeFault a1 a2 a3 s).free =
    s.free ∧ (timeFault a1 a2 a3 s).pending = s.pending := by
  intros; unfold timeFault
  first
    | ((repeat' split) <;> simp; done)
    | (dsimp only; (repeat' split) <;> simp [*]; done)
    | ((repeat' apply And.intro) <;> dsimp only <;> (repeat' split) <;> simp [*]; done)

@[simp] theorem setTxStamps_keeps : ∀ a1 a2 s, (setTxStamps a1 a2 s).md = s.md ∧ (setTxStamps a1 a2 s).dev = s.dev ∧
    (setTxStamps a1 a2 s).pins = s.pins ∧ (setTxStamps a1 a2 s).side = s.side ∧ (setTxStamps a1 a2 s).prot = s.prot ∧
    (setTxStamps a1 a2 s).mram = s.mram ∧ (setTxStamps a1 a2 s).img = s.img ∧ (setTxStamps a1 a2 s).host = s.host ∧
    (setTxStamps a1 a2 s).lat = s.lat ∧ (setTxStamps a1 a2 s).acct = s.acct ∧ (setTxStamps a1 a2 s).lk = s.lk ∧
    (setTxStamps a1 a2 s).buf = s.buf ∧ (setTxStamps a1 a2 s).eg = s.eg ∧ (setTxStamps a1 a2 s).tab = s.tab ∧
    (setTxStamps a1 a2 s).gen = s.gen ∧ (setTxStamps a1 a2 s).eng = s.eng ∧ (setTxStamps a1 a2 s).recd = s.recd ∧
    (setTxStamps a1 a2 s).pmu = s.pmu ∧ (setTxStamps a1 a2 s).svc = s.svc ∧ (setTxStamps a1 a2 s).therm = s.therm ∧
    (setTxStamps a1 a2 s).regs = s.regs ∧ (setTxStamps a1 a2 s).hmem = s.hmem ∧ (setTxStamps a1 a2 s).now = s.now ∧
    (setTxStamps a1 a2 s).elapsed = s.elapsed ∧ (setTxStamps a1 a2 s).free = s.free ∧ (setTxStamps a1 a2 s).pending =
    s.pending := by
  intros; unfold setTxStamps
  first
    | ((repeat' split) <;> simp; done)
    | (dsimp only; (repeat' split) <;> simp [*]; done)
    | ((repeat' apply And.intro) <;> dsimp only <;> (repeat' split) <;> simp [*]; done)

@[simp] theorem takeSeq_keeps : ∀ a1 s, (takeSeq a1 s).md = s.md ∧ (takeSeq a1 s).dev = s.dev ∧ (takeSeq a1 s).pins =
    s.pins ∧ (takeSeq a1 s).side = s.side ∧ (takeSeq a1 s).prot = s.prot ∧ (takeSeq a1 s).mram = s.mram ∧ (takeSeq a1
    s).img = s.img ∧ (takeSeq a1 s).host = s.host ∧ (takeSeq a1 s).lat = s.lat ∧ (takeSeq a1 s).acct = s.acct ∧ (takeSeq
    a1 s).lk = s.lk ∧ (takeSeq a1 s).buf = s.buf ∧ (takeSeq a1 s).eg = s.eg ∧ (takeSeq a1 s).tab = s.tab ∧ (takeSeq a1
    s).gen = s.gen ∧ (takeSeq a1 s).eng = s.eng ∧ (takeSeq a1 s).recd = s.recd ∧ (takeSeq a1 s).pmu = s.pmu ∧ (takeSeq
    a1 s).svc = s.svc ∧ (takeSeq a1 s).therm = s.therm ∧ (takeSeq a1 s).regs = s.regs ∧ (takeSeq a1 s).hmem = s.hmem ∧
    (takeSeq a1 s).now = s.now ∧ (takeSeq a1 s).elapsed = s.elapsed ∧ (takeSeq a1 s).free = s.free ∧ (takeSeq a1
    s).pending = s.pending := by
  intros; unfold takeSeq
  first
    | ((repeat' split) <;> simp; done)
    | (dsimp only; (repeat' split) <;> simp [*]; done)
    | ((repeat' apply And.intro) <;> dsimp only <;> (repeat' split) <;> simp [*]; done)

@[simp] theorem storeStamp_keeps : ∀ a1 a2 a3 a4 s, (storeStamp a1 a2 a3 a4 s).md = s.md ∧ (storeStamp a1 a2 a3 a4
    s).dev = s.dev ∧ (storeStamp a1 a2 a3 a4 s).pins = s.pins ∧ (storeStamp a1 a2 a3 a4 s).side = s.side ∧ (storeStamp
    a1 a2 a3 a4 s).prot = s.prot ∧ (storeStamp a1 a2 a3 a4 s).mram = s.mram ∧ (storeStamp a1 a2 a3 a4 s).img = s.img ∧
    (storeStamp a1 a2 a3 a4 s).lat = s.lat ∧ (storeStamp a1 a2 a3 a4 s).acct = s.acct ∧ (storeStamp a1 a2 a3 a4 s).lk =
    s.lk ∧ (storeStamp a1 a2 a3 a4 s).buf = s.buf ∧ (storeStamp a1 a2 a3 a4 s).eg = s.eg ∧ (storeStamp a1 a2 a3 a4
    s).tab = s.tab ∧ (storeStamp a1 a2 a3 a4 s).gen = s.gen ∧ (storeStamp a1 a2 a3 a4 s).eng = s.eng ∧ (storeStamp a1 a2
    a3 a4 s).recd = s.recd ∧ (storeStamp a1 a2 a3 a4 s).pmu = s.pmu ∧ (storeStamp a1 a2 a3 a4 s).svc = s.svc ∧
    (storeStamp a1 a2 a3 a4 s).therm = s.therm ∧ (storeStamp a1 a2 a3 a4 s).hmem = s.hmem ∧ (storeStamp a1 a2 a3 a4
    s).now = s.now ∧ (storeStamp a1 a2 a3 a4 s).elapsed = s.elapsed ∧ (storeStamp a1 a2 a3 a4 s).free = s.free ∧
    (storeStamp a1 a2 a3 a4 s).pending = s.pending := by
  intros; unfold storeStamp
  first
    | ((repeat' split) <;> simp; done)
    | (dsimp only; (repeat' split) <;> simp [*]; done)
    | ((repeat' apply And.intro) <;> dsimp only <;> (repeat' split) <;> simp [*]; done)

@[simp] theorem refsBack_keeps : ∀ a1 s, (refsBack a1 s).md = s.md ∧ (refsBack a1 s).dev = s.dev ∧ (refsBack a1 s).pins
    = s.pins ∧ (refsBack a1 s).side = s.side ∧ (refsBack a1 s).prot = s.prot ∧ (refsBack a1 s).mram = s.mram ∧ (refsBack
    a1 s).img = s.img ∧ (refsBack a1 s).host = s.host ∧ (refsBack a1 s).lat = s.lat ∧ (refsBack a1 s).acct = s.acct ∧
    (refsBack a1 s).lk = s.lk ∧ (refsBack a1 s).buf = s.buf ∧ (refsBack a1 s).eg = s.eg ∧ (refsBack a1 s).tab = s.tab ∧
    (refsBack a1 s).gen = s.gen ∧ (refsBack a1 s).eng = s.eng ∧ (refsBack a1 s).recd = s.recd ∧ (refsBack a1 s).pmu =
    s.pmu ∧ (refsBack a1 s).svc = s.svc ∧ (refsBack a1 s).therm = s.therm ∧ (refsBack a1 s).regs = s.regs ∧ (refsBack a1
    s).hmem = s.hmem ∧ (refsBack a1 s).now = s.now ∧ (refsBack a1 s).elapsed = s.elapsed ∧ (refsBack a1 s).free = s.free
    ∧ (refsBack a1 s).pending = s.pending := by
  intros; unfold refsBack
  first
    | ((repeat' split) <;> simp; done)
    | (dsimp only; (repeat' split) <;> simp [*]; done)
    | ((repeat' apply And.intro) <;> dsimp only <;> (repeat' split) <;> simp [*]; done)

@[simp] theorem setGen_keeps : ∀ a1 a2 s, (setGen a1 a2 s).md = s.md ∧ (setGen a1 a2 s).dev = s.dev ∧ (setGen a1 a2
    s).pins = s.pins ∧ (setGen a1 a2 s).side = s.side ∧ (setGen a1 a2 s).prot = s.prot ∧ (setGen a1 a2 s).mram = s.mram
    ∧ (setGen a1 a2 s).img = s.img ∧ (setGen a1 a2 s).host = s.host ∧ (setGen a1 a2 s).lat = s.lat ∧ (setGen a1 a2
    s).acct = s.acct ∧ (setGen a1 a2 s).lk = s.lk ∧ (setGen a1 a2 s).buf = s.buf ∧ (setGen a1 a2 s).eg = s.eg ∧ (setGen
    a1 a2 s).tab = s.tab ∧ (setGen a1 a2 s).gen = s.gen ∧ (setGen a1 a2 s).eng = s.eng ∧ (setGen a1 a2 s).recd = s.recd
    ∧ (setGen a1 a2 s).pmu = s.pmu ∧ (setGen a1 a2 s).svc = s.svc ∧ (setGen a1 a2 s).therm = s.therm ∧ (setGen a1 a2
    s).regs = s.regs ∧ (setGen a1 a2 s).hmem = s.hmem ∧ (setGen a1 a2 s).now = s.now ∧ (setGen a1 a2 s).elapsed =
    s.elapsed ∧ (setGen a1 a2 s).free = s.free ∧ (setGen a1 a2 s).pending = s.pending := by
  intros; unfold setGen
  first
    | ((repeat' split) <;> simp; done)
    | (dsimp only; (repeat' split) <;> simp [*]; done)
    | ((repeat' apply And.intro) <;> dsimp only <;> (repeat' split) <;> simp [*]; done)

@[simp] theorem setCap_keeps : ∀ a1 a2 s, (setCap a1 a2 s).md = s.md ∧ (setCap a1 a2 s).dev = s.dev ∧ (setCap a1 a2
    s).pins = s.pins ∧ (setCap a1 a2 s).side = s.side ∧ (setCap a1 a2 s).prot = s.prot ∧ (setCap a1 a2 s).mram = s.mram
    ∧ (setCap a1 a2 s).img = s.img ∧ (setCap a1 a2 s).host = s.host ∧ (setCap a1 a2 s).lat = s.lat ∧ (setCap a1 a2
    s).acct = s.acct ∧ (setCap a1 a2 s).lk = s.lk ∧ (setCap a1 a2 s).buf = s.buf ∧ (setCap a1 a2 s).eg = s.eg ∧ (setCap
    a1 a2 s).tab = s.tab ∧ (setCap a1 a2 s).gen = s.gen ∧ (setCap a1 a2 s).eng = s.eng ∧ (setCap a1 a2 s).recd = s.recd
    ∧ (setCap a1 a2 s).pmu = s.pmu ∧ (setCap a1 a2 s).svc = s.svc ∧ (setCap a1 a2 s).therm = s.therm ∧ (setCap a1 a2
    s).regs = s.regs ∧ (setCap a1 a2 s).hmem = s.hmem ∧ (setCap a1 a2 s).now = s.now ∧ (setCap a1 a2 s).elapsed =
    s.elapsed ∧ (setCap a1 a2 s).free = s.free ∧ (setCap a1 a2 s).pending = s.pending := by
  intros; unfold setCap
  first
    | ((repeat' split) <;> simp; done)
    | (dsimp only; (repeat' split) <;> simp [*]; done)
    | ((repeat' apply And.intro) <;> dsimp only <;> (repeat' split) <;> simp [*]; done)

@[simp] theorem captureNow_keeps : ∀ a1 a2 a3 a4 s, (captureNow a1 a2 a3 a4 s).md = s.md ∧ (captureNow a1 a2 a3 a4
    s).dev = s.dev ∧ (captureNow a1 a2 a3 a4 s).pins = s.pins ∧ (captureNow a1 a2 a3 a4 s).side = s.side ∧ (captureNow
    a1 a2 a3 a4 s).prot = s.prot ∧ (captureNow a1 a2 a3 a4 s).mram = s.mram ∧ (captureNow a1 a2 a3 a4 s).img = s.img ∧
    (captureNow a1 a2 a3 a4 s).lat = s.lat ∧ (captureNow a1 a2 a3 a4 s).acct = s.acct ∧ (captureNow a1 a2 a3 a4 s).lk =
    s.lk ∧ (captureNow a1 a2 a3 a4 s).buf = s.buf ∧ (captureNow a1 a2 a3 a4 s).eg = s.eg ∧ (captureNow a1 a2 a3 a4
    s).tab = s.tab ∧ (captureNow a1 a2 a3 a4 s).gen = s.gen ∧ (captureNow a1 a2 a3 a4 s).eng = s.eng ∧ (captureNow a1 a2
    a3 a4 s).pmu = s.pmu ∧ (captureNow a1 a2 a3 a4 s).svc = s.svc ∧ (captureNow a1 a2 a3 a4 s).therm = s.therm ∧
    (captureNow a1 a2 a3 a4 s).hmem = s.hmem ∧ (captureNow a1 a2 a3 a4 s).now = s.now ∧ (captureNow a1 a2 a3 a4
    s).elapsed = s.elapsed ∧ (captureNow a1 a2 a3 a4 s).free = s.free ∧ (captureNow a1 a2 a3 a4 s).pending = s.pending
    := by
  intros; unfold captureNow
  first
    | ((repeat' split) <;> simp; done)
    | (dsimp only; (repeat' split) <;> simp [*]; done)
    | ((repeat' apply And.intro) <;> dsimp only <;> (repeat' split) <;> simp [*]; done)

@[simp] theorem inputLevel_keeps : ∀ a1 a2 a3 s, (inputLevel a1 a2 a3 s).md = s.md ∧ (inputLevel a1 a2 a3 s).dev = s.dev
    ∧ (inputLevel a1 a2 a3 s).pins = s.pins ∧ (inputLevel a1 a2 a3 s).side = s.side ∧ (inputLevel a1 a2 a3 s).prot =
    s.prot ∧ (inputLevel a1 a2 a3 s).mram = s.mram ∧ (inputLevel a1 a2 a3 s).img = s.img ∧ (inputLevel a1 a2 a3 s).host
    = s.host ∧ (inputLevel a1 a2 a3 s).lat = s.lat ∧ (inputLevel a1 a2 a3 s).acct = s.acct ∧ (inputLevel a1 a2 a3 s).lk
    = s.lk ∧ (inputLevel a1 a2 a3 s).buf = s.buf ∧ (inputLevel a1 a2 a3 s).eg = s.eg ∧ (inputLevel a1 a2 a3 s).tab =
    s.tab ∧ (inputLevel a1 a2 a3 s).gen = s.gen ∧ (inputLevel a1 a2 a3 s).eng = s.eng ∧ (inputLevel a1 a2 a3 s).recd =
    s.recd ∧ (inputLevel a1 a2 a3 s).pmu = s.pmu ∧ (inputLevel a1 a2 a3 s).svc = s.svc ∧ (inputLevel a1 a2 a3 s).therm =
    s.therm ∧ (inputLevel a1 a2 a3 s).regs = s.regs ∧ (inputLevel a1 a2 a3 s).hmem = s.hmem ∧ (inputLevel a1 a2 a3
    s).now = s.now ∧ (inputLevel a1 a2 a3 s).elapsed = s.elapsed ∧ (inputLevel a1 a2 a3 s).free = s.free ∧ (inputLevel
    a1 a2 a3 s).pending = s.pending := by
  intros; unfold inputLevel
  first
    | ((repeat' split) <;> simp; done)
    | (dsimp only; (repeat' split) <;> simp [*]; done)
    | ((repeat' apply And.intro) <;> dsimp only <;> (repeat' split) <;> simp [*]; done)

@[simp] theorem captureJudge_keeps : ∀ a1 a2 a3 a4 s, (captureJudge a1 a2 a3 a4 s).md = s.md ∧ (captureJudge a1 a2 a3 a4
    s).dev = s.dev ∧ (captureJudge a1 a2 a3 a4 s).pins = s.pins ∧ (captureJudge a1 a2 a3 a4 s).side = s.side ∧
    (captureJudge a1 a2 a3 a4 s).prot = s.prot ∧ (captureJudge a1 a2 a3 a4 s).mram = s.mram ∧ (captureJudge a1 a2 a3 a4
    s).img = s.img ∧ (captureJudge a1 a2 a3 a4 s).lat = s.lat ∧ (captureJudge a1 a2 a3 a4 s).acct = s.acct ∧
    (captureJudge a1 a2 a3 a4 s).lk = s.lk ∧ (captureJudge a1 a2 a3 a4 s).buf = s.buf ∧ (captureJudge a1 a2 a3 a4 s).eg
    = s.eg ∧ (captureJudge a1 a2 a3 a4 s).tab = s.tab ∧ (captureJudge a1 a2 a3 a4 s).gen = s.gen ∧ (captureJudge a1 a2
    a3 a4 s).eng = s.eng ∧ (captureJudge a1 a2 a3 a4 s).pmu = s.pmu ∧ (captureJudge a1 a2 a3 a4 s).svc = s.svc ∧
    (captureJudge a1 a2 a3 a4 s).therm = s.therm ∧ (captureJudge a1 a2 a3 a4 s).hmem = s.hmem ∧ (captureJudge a1 a2 a3
    a4 s).now = s.now ∧ (captureJudge a1 a2 a3 a4 s).elapsed = s.elapsed ∧ (captureJudge a1 a2 a3 a4 s).free = s.free ∧
    (captureJudge a1 a2 a3 a4 s).pending = s.pending := by
  intros; unfold captureJudge
  first
    | ((repeat' split) <;> simp; done)
    | (dsimp only; (repeat' split) <;> simp [*]; done)
    | ((repeat' apply And.intro) <;> dsimp only <;> (repeat' split) <;> simp [*]; done)

@[simp] theorem setRing_keeps : ∀ a1 a2 a3 s, (setRing a1 a2 a3 s).md = s.md ∧ (setRing a1 a2 a3 s).dev = s.dev ∧
    (setRing a1 a2 a3 s).pins = s.pins ∧ (setRing a1 a2 a3 s).side = s.side ∧ (setRing a1 a2 a3 s).prot = s.prot ∧
    (setRing a1 a2 a3 s).mram = s.mram ∧ (setRing a1 a2 a3 s).img = s.img ∧ (setRing a1 a2 a3 s).lat = s.lat ∧ (setRing
    a1 a2 a3 s).acct = s.acct ∧ (setRing a1 a2 a3 s).lk = s.lk ∧ (setRing a1 a2 a3 s).tim = s.tim ∧ (setRing a1 a2 a3
    s).buf = s.buf ∧ (setRing a1 a2 a3 s).eg = s.eg ∧ (setRing a1 a2 a3 s).tab = s.tab ∧ (setRing a1 a2 a3 s).gen =
    s.gen ∧ (setRing a1 a2 a3 s).eng = s.eng ∧ (setRing a1 a2 a3 s).recd = s.recd ∧ (setRing a1 a2 a3 s).pmu = s.pmu ∧
    (setRing a1 a2 a3 s).svc = s.svc ∧ (setRing a1 a2 a3 s).therm = s.therm ∧ (setRing a1 a2 a3 s).regs = s.regs ∧
    (setRing a1 a2 a3 s).hmem = s.hmem ∧ (setRing a1 a2 a3 s).now = s.now ∧ (setRing a1 a2 a3 s).elapsed = s.elapsed ∧
    (setRing a1 a2 a3 s).free = s.free ∧ (setRing a1 a2 a3 s).pending = s.pending := by
  intros; unfold setRing
  first
    | ((repeat' split) <;> simp; done)
    | (dsimp only; (repeat' split) <;> simp [*]; done)
    | ((repeat' apply And.intro) <;> dsimp only <;> (repeat' split) <;> simp [*]; done)

@[simp] theorem sendMsi_keeps : ∀ a1 s, (sendMsi a1 s).md = s.md ∧ (sendMsi a1 s).dev = s.dev ∧ (sendMsi a1 s).pins =
    s.pins ∧ (sendMsi a1 s).side = s.side ∧ (sendMsi a1 s).prot = s.prot ∧ (sendMsi a1 s).mram = s.mram ∧ (sendMsi a1
    s).img = s.img ∧ (sendMsi a1 s).lat = s.lat ∧ (sendMsi a1 s).acct = s.acct ∧ (sendMsi a1 s).lk = s.lk ∧ (sendMsi a1
    s).tim = s.tim ∧ (sendMsi a1 s).buf = s.buf ∧ (sendMsi a1 s).eg = s.eg ∧ (sendMsi a1 s).tab = s.tab ∧ (sendMsi a1
    s).gen = s.gen ∧ (sendMsi a1 s).eng = s.eng ∧ (sendMsi a1 s).recd = s.recd ∧ (sendMsi a1 s).svc = s.svc ∧ (sendMsi
    a1 s).therm = s.therm ∧ (sendMsi a1 s).hmem = s.hmem ∧ (sendMsi a1 s).now = s.now ∧ (sendMsi a1 s).elapsed =
    s.elapsed ∧ (sendMsi a1 s).free = s.free ∧ (sendMsi a1 s).pending = s.pending := by
  intros; unfold sendMsi
  first
    | ((repeat' split) <;> simp; done)
    | (dsimp only; (repeat' split) <;> simp [*]; done)
    | ((repeat' apply And.intro) <;> dsimp only <;> (repeat' split) <;> simp [*]; done)

@[simp] theorem ringMsg_keeps : ∀ a1 a2 s, (ringMsg a1 a2 s).md = s.md ∧ (ringMsg a1 a2 s).dev = s.dev ∧ (ringMsg a1 a2
    s).pins = s.pins ∧ (ringMsg a1 a2 s).side = s.side ∧ (ringMsg a1 a2 s).prot = s.prot ∧ (ringMsg a1 a2 s).mram =
    s.mram ∧ (ringMsg a1 a2 s).img = s.img ∧ (ringMsg a1 a2 s).lat = s.lat ∧ (ringMsg a1 a2 s).acct = s.acct ∧ (ringMsg
    a1 a2 s).lk = s.lk ∧ (ringMsg a1 a2 s).tim = s.tim ∧ (ringMsg a1 a2 s).buf = s.buf ∧ (ringMsg a1 a2 s).eg = s.eg ∧
    (ringMsg a1 a2 s).tab = s.tab ∧ (ringMsg a1 a2 s).gen = s.gen ∧ (ringMsg a1 a2 s).eng = s.eng ∧ (ringMsg a1 a2
    s).recd = s.recd ∧ (ringMsg a1 a2 s).svc = s.svc ∧ (ringMsg a1 a2 s).therm = s.therm ∧ (ringMsg a1 a2 s).hmem =
    s.hmem ∧ (ringMsg a1 a2 s).now = s.now ∧ (ringMsg a1 a2 s).elapsed = s.elapsed ∧ (ringMsg a1 a2 s).free = s.free ∧
    (ringMsg a1 a2 s).pending = s.pending := by
  intros; unfold ringMsg
  first
    | ((repeat' split) <;> simp; done)
    | (dsimp only; (repeat' split) <;> simp [*]; done)
    | ((repeat' apply And.intro) <;> dsimp only <;> (repeat' split) <;> simp [*]; done)

@[simp] theorem ringMsgIfDue_keeps : ∀ a1 a2 s, (ringMsgIfDue a1 a2 s).md = s.md ∧ (ringMsgIfDue a1 a2 s).dev = s.dev ∧
    (ringMsgIfDue a1 a2 s).pins = s.pins ∧ (ringMsgIfDue a1 a2 s).side = s.side ∧ (ringMsgIfDue a1 a2 s).prot = s.prot ∧
    (ringMsgIfDue a1 a2 s).mram = s.mram ∧ (ringMsgIfDue a1 a2 s).img = s.img ∧ (ringMsgIfDue a1 a2 s).lat = s.lat ∧
    (ringMsgIfDue a1 a2 s).acct = s.acct ∧ (ringMsgIfDue a1 a2 s).lk = s.lk ∧ (ringMsgIfDue a1 a2 s).tim = s.tim ∧
    (ringMsgIfDue a1 a2 s).buf = s.buf ∧ (ringMsgIfDue a1 a2 s).eg = s.eg ∧ (ringMsgIfDue a1 a2 s).tab = s.tab ∧
    (ringMsgIfDue a1 a2 s).gen = s.gen ∧ (ringMsgIfDue a1 a2 s).eng = s.eng ∧ (ringMsgIfDue a1 a2 s).recd = s.recd ∧
    (ringMsgIfDue a1 a2 s).svc = s.svc ∧ (ringMsgIfDue a1 a2 s).therm = s.therm ∧ (ringMsgIfDue a1 a2 s).hmem = s.hmem ∧
    (ringMsgIfDue a1 a2 s).now = s.now ∧ (ringMsgIfDue a1 a2 s).elapsed = s.elapsed ∧ (ringMsgIfDue a1 a2 s).free =
    s.free ∧ (ringMsgIfDue a1 a2 s).pending = s.pending := by
  intros; unfold ringMsgIfDue
  first
    | ((repeat' split) <;> simp; done)
    | (dsimp only; (repeat' split) <;> simp [*]; done)
    | ((repeat' apply And.intro) <;> dsimp only <;> (repeat' split) <;> simp [*]; done)

@[simp] theorem countWriteBack_keeps : ∀ a1 a2 s, (countWriteBack a1 a2 s).md = s.md ∧ (countWriteBack a1 a2 s).dev =
    s.dev ∧ (countWriteBack a1 a2 s).pins = s.pins ∧ (countWriteBack a1 a2 s).side = s.side ∧ (countWriteBack a1 a2
    s).prot = s.prot ∧ (countWriteBack a1 a2 s).mram = s.mram ∧ (countWriteBack a1 a2 s).img = s.img ∧ (countWriteBack
    a1 a2 s).lat = s.lat ∧ (countWriteBack a1 a2 s).acct = s.acct ∧ (countWriteBack a1 a2 s).lk = s.lk ∧ (countWriteBack
    a1 a2 s).tim = s.tim ∧ (countWriteBack a1 a2 s).buf = s.buf ∧ (countWriteBack a1 a2 s).eg = s.eg ∧ (countWriteBack
    a1 a2 s).tab = s.tab ∧ (countWriteBack a1 a2 s).gen = s.gen ∧ (countWriteBack a1 a2 s).eng = s.eng ∧ (countWriteBack
    a1 a2 s).recd = s.recd ∧ (countWriteBack a1 a2 s).svc = s.svc ∧ (countWriteBack a1 a2 s).therm = s.therm ∧
    (countWriteBack a1 a2 s).hmem = s.hmem ∧ (countWriteBack a1 a2 s).now = s.now ∧ (countWriteBack a1 a2 s).elapsed =
    s.elapsed ∧ (countWriteBack a1 a2 s).free = s.free ∧ (countWriteBack a1 a2 s).pending = s.pending := by
  intros; unfold countWriteBack
  first
    | ((repeat' split) <;> simp; done)
    | (dsimp only; (repeat' split) <;> simp [*]; done)
    | ((repeat' apply And.intro) <;> dsimp only <;> (repeat' split) <;> simp [*]; done)

@[simp] theorem writeBack_keeps : ∀ a1 a2 a3 a4 s, (writeBack a1 a2 a3 a4 s).md = s.md ∧ (writeBack a1 a2 a3 a4 s).dev =
    s.dev ∧ (writeBack a1 a2 a3 a4 s).pins = s.pins ∧ (writeBack a1 a2 a3 a4 s).side = s.side ∧ (writeBack a1 a2 a3 a4
    s).prot = s.prot ∧ (writeBack a1 a2 a3 a4 s).mram = s.mram ∧ (writeBack a1 a2 a3 a4 s).img = s.img ∧ (writeBack a1
    a2 a3 a4 s).lat = s.lat ∧ (writeBack a1 a2 a3 a4 s).acct = s.acct ∧ (writeBack a1 a2 a3 a4 s).lk = s.lk ∧ (writeBack
    a1 a2 a3 a4 s).tim = s.tim ∧ (writeBack a1 a2 a3 a4 s).buf = s.buf ∧ (writeBack a1 a2 a3 a4 s).eg = s.eg ∧
    (writeBack a1 a2 a3 a4 s).tab = s.tab ∧ (writeBack a1 a2 a3 a4 s).gen = s.gen ∧ (writeBack a1 a2 a3 a4 s).eng =
    s.eng ∧ (writeBack a1 a2 a3 a4 s).recd = s.recd ∧ (writeBack a1 a2 a3 a4 s).svc = s.svc ∧ (writeBack a1 a2 a3 a4
    s).therm = s.therm ∧ (writeBack a1 a2 a3 a4 s).now = s.now ∧ (writeBack a1 a2 a3 a4 s).elapsed = s.elapsed ∧
    (writeBack a1 a2 a3 a4 s).free = s.free ∧ (writeBack a1 a2 a3 a4 s).pending = s.pending := by
  intros; unfold writeBack
  first
    | ((repeat' split) <;> simp; done)
    | (dsimp only; (repeat' split) <;> simp [*]; done)
    | ((repeat' apply And.intro) <;> dsimp only <;> (repeat' split) <;> simp [*]; done)

@[simp] theorem writeBacks_keeps : ∀ a b l s, (writeBacks a b l s).md = s.md ∧ (writeBacks a b l s).dev = s.dev ∧
    (writeBacks a b l s).pins = s.pins ∧ (writeBacks a b l s).side = s.side ∧ (writeBacks a b l s).prot = s.prot ∧
    (writeBacks a b l s).mram = s.mram ∧ (writeBacks a b l s).img = s.img ∧ (writeBacks a b l s).lat = s.lat ∧
    (writeBacks a b l s).acct = s.acct ∧ (writeBacks a b l s).lk = s.lk ∧ (writeBacks a b l s).tim = s.tim ∧ (writeBacks
    a b l s).buf = s.buf ∧ (writeBacks a b l s).eg = s.eg ∧ (writeBacks a b l s).tab = s.tab ∧ (writeBacks a b l s).gen
    = s.gen ∧ (writeBacks a b l s).eng = s.eng ∧ (writeBacks a b l s).recd = s.recd ∧ (writeBacks a b l s).svc = s.svc ∧
    (writeBacks a b l s).therm = s.therm ∧ (writeBacks a b l s).now = s.now ∧ (writeBacks a b l s).elapsed = s.elapsed ∧
    (writeBacks a b l s).free = s.free ∧ (writeBacks a b l s).pending = s.pending := by
  intro a b l; induction l with
  | nil => intros; simp [writeBacks]
  | cons x l ih => intro s; simp only [writeBacks]; split <;> simp [ih]

@[simp] theorem drainWork_keeps : ∀ a1 a2 s, (drainWork a1 a2 s).md = s.md ∧ (drainWork a1 a2 s).dev = s.dev ∧
    (drainWork a1 a2 s).pins = s.pins ∧ (drainWork a1 a2 s).side = s.side ∧ (drainWork a1 a2 s).prot = s.prot ∧
    (drainWork a1 a2 s).mram = s.mram ∧ (drainWork a1 a2 s).img = s.img ∧ (drainWork a1 a2 s).lat = s.lat ∧ (drainWork
    a1 a2 s).acct = s.acct ∧ (drainWork a1 a2 s).lk = s.lk ∧ (drainWork a1 a2 s).tim = s.tim ∧ (drainWork a1 a2 s).buf =
    s.buf ∧ (drainWork a1 a2 s).eg = s.eg ∧ (drainWork a1 a2 s).tab = s.tab ∧ (drainWork a1 a2 s).gen = s.gen ∧
    (drainWork a1 a2 s).eng = s.eng ∧ (drainWork a1 a2 s).recd = s.recd ∧ (drainWork a1 a2 s).svc = s.svc ∧ (drainWork
    a1 a2 s).therm = s.therm ∧ (drainWork a1 a2 s).now = s.now ∧ (drainWork a1 a2 s).elapsed = s.elapsed ∧ (drainWork a1
    a2 s).free = s.free ∧ (drainWork a1 a2 s).pending = s.pending := by
  intros; unfold drainWork
  first
    | ((repeat' split) <;> simp; done)
    | (dsimp only; (repeat' split) <;> simp [*]; done)
    | ((repeat' apply And.intro) <;> dsimp only <;> (repeat' split) <;> simp [*]; done)

@[simp] theorem fetchSlots_keeps : ∀ a1 a2 a3 a4 s, (fetchSlots a1 a2 a3 a4 s).md = s.md ∧ (fetchSlots a1 a2 a3 a4
    s).dev = s.dev ∧ (fetchSlots a1 a2 a3 a4 s).pins = s.pins ∧ (fetchSlots a1 a2 a3 a4 s).side = s.side ∧ (fetchSlots
    a1 a2 a3 a4 s).prot = s.prot ∧ (fetchSlots a1 a2 a3 a4 s).mram = s.mram ∧ (fetchSlots a1 a2 a3 a4 s).img = s.img ∧
    (fetchSlots a1 a2 a3 a4 s).lat = s.lat ∧ (fetchSlots a1 a2 a3 a4 s).acct = s.acct ∧ (fetchSlots a1 a2 a3 a4 s).lk =
    s.lk ∧ (fetchSlots a1 a2 a3 a4 s).tim = s.tim ∧ (fetchSlots a1 a2 a3 a4 s).buf = s.buf ∧ (fetchSlots a1 a2 a3 a4
    s).eg = s.eg ∧ (fetchSlots a1 a2 a3 a4 s).tab = s.tab ∧ (fetchSlots a1 a2 a3 a4 s).gen = s.gen ∧ (fetchSlots a1 a2
    a3 a4 s).eng = s.eng ∧ (fetchSlots a1 a2 a3 a4 s).recd = s.recd ∧ (fetchSlots a1 a2 a3 a4 s).pmu = s.pmu ∧
    (fetchSlots a1 a2 a3 a4 s).svc = s.svc ∧ (fetchSlots a1 a2 a3 a4 s).therm = s.therm ∧ (fetchSlots a1 a2 a3 a4
    s).regs = s.regs ∧ (fetchSlots a1 a2 a3 a4 s).hmem = s.hmem ∧ (fetchSlots a1 a2 a3 a4 s).now = s.now ∧ (fetchSlots
    a1 a2 a3 a4 s).elapsed = s.elapsed ∧ (fetchSlots a1 a2 a3 a4 s).free = s.free ∧ (fetchSlots a1 a2 a3 a4 s).pending =
    s.pending := by
  intros; unfold fetchSlots
  first
    | ((repeat' split) <;> simp; done)
    | (dsimp only; (repeat' split) <;> simp [*]; done)
    | ((repeat' apply And.intro) <;> dsimp only <;> (repeat' split) <;> simp [*]; done)

@[simp] theorem fillSlots_keeps : ∀ a1 a2 a3 a4 s, (fillSlots a1 a2 a3 a4 s).md = s.md ∧ (fillSlots a1 a2 a3 a4 s).dev =
    s.dev ∧ (fillSlots a1 a2 a3 a4 s).pins = s.pins ∧ (fillSlots a1 a2 a3 a4 s).side = s.side ∧ (fillSlots a1 a2 a3 a4
    s).prot = s.prot ∧ (fillSlots a1 a2 a3 a4 s).mram = s.mram ∧ (fillSlots a1 a2 a3 a4 s).img = s.img ∧ (fillSlots a1
    a2 a3 a4 s).lat = s.lat ∧ (fillSlots a1 a2 a3 a4 s).acct = s.acct ∧ (fillSlots a1 a2 a3 a4 s).lk = s.lk ∧ (fillSlots
    a1 a2 a3 a4 s).tim = s.tim ∧ (fillSlots a1 a2 a3 a4 s).buf = s.buf ∧ (fillSlots a1 a2 a3 a4 s).eg = s.eg ∧
    (fillSlots a1 a2 a3 a4 s).tab = s.tab ∧ (fillSlots a1 a2 a3 a4 s).gen = s.gen ∧ (fillSlots a1 a2 a3 a4 s).eng =
    s.eng ∧ (fillSlots a1 a2 a3 a4 s).recd = s.recd ∧ (fillSlots a1 a2 a3 a4 s).svc = s.svc ∧ (fillSlots a1 a2 a3 a4
    s).therm = s.therm ∧ (fillSlots a1 a2 a3 a4 s).now = s.now ∧ (fillSlots a1 a2 a3 a4 s).elapsed = s.elapsed ∧
    (fillSlots a1 a2 a3 a4 s).free = s.free ∧ (fillSlots a1 a2 a3 a4 s).pending = s.pending := by
  intros; unfold fillSlots
  first
    | ((repeat' split) <;> simp; done)
    | (dsimp only; (repeat' split) <;> simp [*]; done)
    | ((repeat' apply And.intro) <;> dsimp only <;> (repeat' split) <;> simp [*]; done)

@[simp] theorem answerUnknown_keeps : ∀ a k s, (answerUnknown a k s).md = s.md ∧ (answerUnknown a k s).dev = s.dev ∧
    (answerUnknown a k s).pins = s.pins ∧ (answerUnknown a k s).side = s.side ∧ (answerUnknown a k s).prot = s.prot ∧
    (answerUnknown a k s).mram = s.mram ∧ (answerUnknown a k s).img = s.img ∧ (answerUnknown a k s).lat = s.lat ∧
    (answerUnknown a k s).acct = s.acct ∧ (answerUnknown a k s).lk = s.lk ∧ (answerUnknown a k s).tim = s.tim ∧
    (answerUnknown a k s).buf = s.buf ∧ (answerUnknown a k s).eg = s.eg ∧ (answerUnknown a k s).tab = s.tab ∧
    (answerUnknown a k s).gen = s.gen ∧ (answerUnknown a k s).eng = s.eng ∧ (answerUnknown a k s).recd = s.recd ∧
    (answerUnknown a k s).svc = s.svc ∧ (answerUnknown a k s).therm = s.therm ∧ (answerUnknown a k s).now = s.now ∧
    (answerUnknown a k s).elapsed = s.elapsed ∧ (answerUnknown a k s).free = s.free ∧ (answerUnknown a k s).pending =
    s.pending := by
  intro a k; induction k with
  | zero => intros; simp [answerUnknown]
  | succ k ih => intro s; simp only [answerUnknown]; split <;> simp [ih]

@[simp] theorem doorbellTail_keeps : ∀ a1 a2 a3 s, (doorbellTail a1 a2 a3 s).md = s.md ∧ (doorbellTail a1 a2 a3 s).dev =
    s.dev ∧ (doorbellTail a1 a2 a3 s).pins = s.pins ∧ (doorbellTail a1 a2 a3 s).side = s.side ∧ (doorbellTail a1 a2 a3
    s).prot = s.prot ∧ (doorbellTail a1 a2 a3 s).mram = s.mram ∧ (doorbellTail a1 a2 a3 s).img = s.img ∧ (doorbellTail
    a1 a2 a3 s).lat = s.lat ∧ (doorbellTail a1 a2 a3 s).acct = s.acct ∧ (doorbellTail a1 a2 a3 s).lk = s.lk ∧
    (doorbellTail a1 a2 a3 s).tim = s.tim ∧ (doorbellTail a1 a2 a3 s).buf = s.buf ∧ (doorbellTail a1 a2 a3 s).eg = s.eg
    ∧ (doorbellTail a1 a2 a3 s).tab = s.tab ∧ (doorbellTail a1 a2 a3 s).gen = s.gen ∧ (doorbellTail a1 a2 a3 s).eng =
    s.eng ∧ (doorbellTail a1 a2 a3 s).recd = s.recd ∧ (doorbellTail a1 a2 a3 s).svc = s.svc ∧ (doorbellTail a1 a2 a3
    s).therm = s.therm ∧ (doorbellTail a1 a2 a3 s).now = s.now ∧ (doorbellTail a1 a2 a3 s).elapsed = s.elapsed ∧
    (doorbellTail a1 a2 a3 s).free = s.free ∧ (doorbellTail a1 a2 a3 s).pending = s.pending := by
  intros; unfold doorbellTail
  first
    | ((repeat' split) <;> simp; done)
    | (dsimp only; (repeat' split) <;> simp [*]; done)
    | ((repeat' apply And.intro) <;> dsimp only <;> (repeat' split) <;> simp [*]; done)

@[simp] theorem ringArm_keeps : ∀ a1 a2 a3 a4 s, (ringArm a1 a2 a3 a4 s).md = s.md ∧ (ringArm a1 a2 a3 a4 s).dev = s.dev
    ∧ (ringArm a1 a2 a3 a4 s).pins = s.pins ∧ (ringArm a1 a2 a3 a4 s).side = s.side ∧ (ringArm a1 a2 a3 a4 s).prot =
    s.prot ∧ (ringArm a1 a2 a3 a4 s).mram = s.mram ∧ (ringArm a1 a2 a3 a4 s).img = s.img ∧ (ringArm a1 a2 a3 a4 s).lat =
    s.lat ∧ (ringArm a1 a2 a3 a4 s).acct = s.acct ∧ (ringArm a1 a2 a3 a4 s).lk = s.lk ∧ (ringArm a1 a2 a3 a4 s).tim =
    s.tim ∧ (ringArm a1 a2 a3 a4 s).buf = s.buf ∧ (ringArm a1 a2 a3 a4 s).eg = s.eg ∧ (ringArm a1 a2 a3 a4 s).tab =
    s.tab ∧ (ringArm a1 a2 a3 a4 s).gen = s.gen ∧ (ringArm a1 a2 a3 a4 s).eng = s.eng ∧ (ringArm a1 a2 a3 a4 s).recd =
    s.recd ∧ (ringArm a1 a2 a3 a4 s).svc = s.svc ∧ (ringArm a1 a2 a3 a4 s).therm = s.therm ∧ (ringArm a1 a2 a3 a4
    s).hmem = s.hmem ∧ (ringArm a1 a2 a3 a4 s).now = s.now ∧ (ringArm a1 a2 a3 a4 s).elapsed = s.elapsed ∧ (ringArm a1
    a2 a3 a4 s).free = s.free ∧ (ringArm a1 a2 a3 a4 s).pending = s.pending := by
  intros; unfold ringArm
  first
    | ((repeat' split) <;> simp; done)
    | (dsimp only; (repeat' split) <;> simp [*]; done)
    | ((repeat' apply And.intro) <;> dsimp only <;> (repeat' split) <;> simp [*]; done)

@[simp] theorem ringEnable_keeps : ∀ a1 a2 a3 s, (ringEnable a1 a2 a3 s).md = s.md ∧ (ringEnable a1 a2 a3 s).dev = s.dev
    ∧ (ringEnable a1 a2 a3 s).pins = s.pins ∧ (ringEnable a1 a2 a3 s).side = s.side ∧ (ringEnable a1 a2 a3 s).prot =
    s.prot ∧ (ringEnable a1 a2 a3 s).mram = s.mram ∧ (ringEnable a1 a2 a3 s).img = s.img ∧ (ringEnable a1 a2 a3 s).lat =
    s.lat ∧ (ringEnable a1 a2 a3 s).acct = s.acct ∧ (ringEnable a1 a2 a3 s).lk = s.lk ∧ (ringEnable a1 a2 a3 s).tim =
    s.tim ∧ (ringEnable a1 a2 a3 s).buf = s.buf ∧ (ringEnable a1 a2 a3 s).eg = s.eg ∧ (ringEnable a1 a2 a3 s).tab =
    s.tab ∧ (ringEnable a1 a2 a3 s).gen = s.gen ∧ (ringEnable a1 a2 a3 s).eng = s.eng ∧ (ringEnable a1 a2 a3 s).recd =
    s.recd ∧ (ringEnable a1 a2 a3 s).pmu = s.pmu ∧ (ringEnable a1 a2 a3 s).svc = s.svc ∧ (ringEnable a1 a2 a3 s).therm =
    s.therm ∧ (ringEnable a1 a2 a3 s).hmem = s.hmem ∧ (ringEnable a1 a2 a3 s).now = s.now ∧ (ringEnable a1 a2 a3
    s).elapsed = s.elapsed ∧ (ringEnable a1 a2 a3 s).free = s.free ∧ (ringEnable a1 a2 a3 s).pending = s.pending := by
  intros; simp [ringEnable]; split <;> simp

@[simp] theorem ringStop_keeps : ∀ a1 a2 a3 s, (ringStop a1 a2 a3 s).md = s.md ∧ (ringStop a1 a2 a3 s).dev = s.dev ∧
    (ringStop a1 a2 a3 s).pins = s.pins ∧ (ringStop a1 a2 a3 s).side = s.side ∧ (ringStop a1 a2 a3 s).prot = s.prot ∧
    (ringStop a1 a2 a3 s).mram = s.mram ∧ (ringStop a1 a2 a3 s).img = s.img ∧ (ringStop a1 a2 a3 s).lat = s.lat ∧
    (ringStop a1 a2 a3 s).acct = s.acct ∧ (ringStop a1 a2 a3 s).lk = s.lk ∧ (ringStop a1 a2 a3 s).tim = s.tim ∧
    (ringStop a1 a2 a3 s).buf = s.buf ∧ (ringStop a1 a2 a3 s).eg = s.eg ∧ (ringStop a1 a2 a3 s).tab = s.tab ∧ (ringStop
    a1 a2 a3 s).gen = s.gen ∧ (ringStop a1 a2 a3 s).eng = s.eng ∧ (ringStop a1 a2 a3 s).recd = s.recd ∧ (ringStop a1 a2
    a3 s).svc = s.svc ∧ (ringStop a1 a2 a3 s).therm = s.therm ∧ (ringStop a1 a2 a3 s).now = s.now ∧ (ringStop a1 a2 a3
    s).elapsed = s.elapsed ∧ (ringStop a1 a2 a3 s).free = s.free ∧ (ringStop a1 a2 a3 s).pending = s.pending := by
  intros; unfold ringStop
  first
    | ((repeat' split) <;> simp; done)
    | (dsimp only; (repeat' split) <;> simp [*]; done)
    | ((repeat' apply And.intro) <;> dsimp only <;> (repeat' split) <;> simp [*]; done)

@[simp] theorem loseEvent_keeps : ∀ a1 s, (loseEvent a1 s).md = s.md ∧ (loseEvent a1 s).dev = s.dev ∧ (loseEvent a1
    s).pins = s.pins ∧ (loseEvent a1 s).side = s.side ∧ (loseEvent a1 s).prot = s.prot ∧ (loseEvent a1 s).mram = s.mram
    ∧ (loseEvent a1 s).img = s.img ∧ (loseEvent a1 s).lat = s.lat ∧ (loseEvent a1 s).acct = s.acct ∧ (loseEvent a1 s).lk
    = s.lk ∧ (loseEvent a1 s).tim = s.tim ∧ (loseEvent a1 s).buf = s.buf ∧ (loseEvent a1 s).eg = s.eg ∧ (loseEvent a1
    s).tab = s.tab ∧ (loseEvent a1 s).gen = s.gen ∧ (loseEvent a1 s).eng = s.eng ∧ (loseEvent a1 s).recd = s.recd ∧
    (loseEvent a1 s).pmu = s.pmu ∧ (loseEvent a1 s).svc = s.svc ∧ (loseEvent a1 s).therm = s.therm ∧ (loseEvent a1
    s).hmem = s.hmem ∧ (loseEvent a1 s).now = s.now ∧ (loseEvent a1 s).elapsed = s.elapsed ∧ (loseEvent a1 s).free =
    s.free ∧ (loseEvent a1 s).pending = s.pending := by
  intros; unfold loseEvent
  first
    | ((repeat' split) <;> simp; done)
    | (dsimp only; (repeat' split) <;> simp [*]; done)
    | ((repeat' apply And.intro) <;> dsimp only <;> (repeat' split) <;> simp [*]; done)

@[simp] theorem dmaStop_keeps : ∀ a1 a2 a3 s, (dmaStop a1 a2 a3 s).md = s.md ∧ (dmaStop a1 a2 a3 s).dev = s.dev ∧
    (dmaStop a1 a2 a3 s).pins = s.pins ∧ (dmaStop a1 a2 a3 s).side = s.side ∧ (dmaStop a1 a2 a3 s).prot = s.prot ∧
    (dmaStop a1 a2 a3 s).mram = s.mram ∧ (dmaStop a1 a2 a3 s).img = s.img ∧ (dmaStop a1 a2 a3 s).lat = s.lat ∧ (dmaStop
    a1 a2 a3 s).acct = s.acct ∧ (dmaStop a1 a2 a3 s).lk = s.lk ∧ (dmaStop a1 a2 a3 s).tim = s.tim ∧ (dmaStop a1 a2 a3
    s).buf = s.buf ∧ (dmaStop a1 a2 a3 s).eg = s.eg ∧ (dmaStop a1 a2 a3 s).tab = s.tab ∧ (dmaStop a1 a2 a3 s).gen =
    s.gen ∧ (dmaStop a1 a2 a3 s).eng = s.eng ∧ (dmaStop a1 a2 a3 s).recd = s.recd ∧ (dmaStop a1 a2 a3 s).svc = s.svc ∧
    (dmaStop a1 a2 a3 s).therm = s.therm ∧ (dmaStop a1 a2 a3 s).now = s.now ∧ (dmaStop a1 a2 a3 s).elapsed = s.elapsed ∧
    (dmaStop a1 a2 a3 s).free = s.free ∧ (dmaStop a1 a2 a3 s).pending = s.pending := by
  intros; unfold dmaStop
  first
    | ((repeat' split) <;> simp; done)
    | (dsimp only; (repeat' split) <;> simp [*]; done)
    | ((repeat' apply And.intro) <;> dsimp only <;> (repeat' split) <;> simp [*]; done)

@[simp] theorem failFetch_keeps : ∀ a1 a2 s, (failFetch a1 a2 s).md = s.md ∧ (failFetch a1 a2 s).dev = s.dev ∧
    (failFetch a1 a2 s).pins = s.pins ∧ (failFetch a1 a2 s).side = s.side ∧ (failFetch a1 a2 s).prot = s.prot ∧
    (failFetch a1 a2 s).mram = s.mram ∧ (failFetch a1 a2 s).img = s.img ∧ (failFetch a1 a2 s).lat = s.lat ∧ (failFetch
    a1 a2 s).acct = s.acct ∧ (failFetch a1 a2 s).lk = s.lk ∧ (failFetch a1 a2 s).tim = s.tim ∧ (failFetch a1 a2 s).buf =
    s.buf ∧ (failFetch a1 a2 s).eg = s.eg ∧ (failFetch a1 a2 s).tab = s.tab ∧ (failFetch a1 a2 s).gen = s.gen ∧
    (failFetch a1 a2 s).eng = s.eng ∧ (failFetch a1 a2 s).recd = s.recd ∧ (failFetch a1 a2 s).svc = s.svc ∧ (failFetch
    a1 a2 s).therm = s.therm ∧ (failFetch a1 a2 s).now = s.now ∧ (failFetch a1 a2 s).elapsed = s.elapsed ∧ (failFetch a1
    a2 s).free = s.free ∧ (failFetch a1 a2 s).pending = s.pending := by
  intros; unfold failFetch
  first
    | ((repeat' split) <;> simp; done)
    | (dsimp only; (repeat' split) <;> simp [*]; done)
    | ((repeat' apply And.intro) <;> dsimp only <;> (repeat' split) <;> simp [*]; done)

@[simp] theorem failReadout_keeps : ∀ a1 s, (failReadout a1 s).md = s.md ∧ (failReadout a1 s).dev = s.dev ∧ (failReadout
    a1 s).pins = s.pins ∧ (failReadout a1 s).side = s.side ∧ (failReadout a1 s).prot = s.prot ∧ (failReadout a1 s).mram
    = s.mram ∧ (failReadout a1 s).img = s.img ∧ (failReadout a1 s).lat = s.lat ∧ (failReadout a1 s).acct = s.acct ∧
    (failReadout a1 s).lk = s.lk ∧ (failReadout a1 s).tim = s.tim ∧ (failReadout a1 s).buf = s.buf ∧ (failReadout a1
    s).eg = s.eg ∧ (failReadout a1 s).tab = s.tab ∧ (failReadout a1 s).gen = s.gen ∧ (failReadout a1 s).eng = s.eng ∧
    (failReadout a1 s).recd = s.recd ∧ (failReadout a1 s).svc = s.svc ∧ (failReadout a1 s).therm = s.therm ∧
    (failReadout a1 s).now = s.now ∧ (failReadout a1 s).elapsed = s.elapsed ∧ (failReadout a1 s).free = s.free ∧
    (failReadout a1 s).pending = s.pending := by
  intros; unfold failReadout
  first
    | ((repeat' split) <;> simp; done)
    | (dsimp only; (repeat' split) <;> simp [*]; done)
    | ((repeat' apply And.intro) <;> dsimp only <;> (repeat' split) <;> simp [*]; done)

@[simp] theorem failTransmit_keeps : ∀ a1 a2 a3 s, (failTransmit a1 a2 a3 s).md = s.md ∧ (failTransmit a1 a2 a3 s).dev =
    s.dev ∧ (failTransmit a1 a2 a3 s).pins = s.pins ∧ (failTransmit a1 a2 a3 s).side = s.side ∧ (failTransmit a1 a2 a3
    s).prot = s.prot ∧ (failTransmit a1 a2 a3 s).mram = s.mram ∧ (failTransmit a1 a2 a3 s).img = s.img ∧ (failTransmit
    a1 a2 a3 s).lat = s.lat ∧ (failTransmit a1 a2 a3 s).acct = s.acct ∧ (failTransmit a1 a2 a3 s).lk = s.lk ∧
    (failTransmit a1 a2 a3 s).tim = s.tim ∧ (failTransmit a1 a2 a3 s).buf = s.buf ∧ (failTransmit a1 a2 a3 s).eg = s.eg
    ∧ (failTransmit a1 a2 a3 s).tab = s.tab ∧ (failTransmit a1 a2 a3 s).gen = s.gen ∧ (failTransmit a1 a2 a3 s).eng =
    s.eng ∧ (failTransmit a1 a2 a3 s).recd = s.recd ∧ (failTransmit a1 a2 a3 s).svc = s.svc ∧ (failTransmit a1 a2 a3
    s).therm = s.therm ∧ (failTransmit a1 a2 a3 s).now = s.now ∧ (failTransmit a1 a2 a3 s).elapsed = s.elapsed ∧
    (failTransmit a1 a2 a3 s).free = s.free ∧ (failTransmit a1 a2 a3 s).pending = s.pending := by
  intros; unfold failTransmit
  first
    | ((repeat' split) <;> simp; done)
    | (dsimp only; (repeat' split) <;> simp [*]; done)
    | ((repeat' apply And.intro) <;> dsimp only <;> (repeat' split) <;> simp [*]; done)

@[simp] theorem ringsReset_keeps : ∀ s, (ringsReset s).md = s.md ∧ (ringsReset s).dev = s.dev ∧ (ringsReset s).pins =
    s.pins ∧ (ringsReset s).side = s.side ∧ (ringsReset s).prot = s.prot ∧ (ringsReset s).mram = s.mram ∧ (ringsReset
    s).img = s.img ∧ (ringsReset s).lat = s.lat ∧ (ringsReset s).acct = s.acct ∧ (ringsReset s).lk = s.lk ∧ (ringsReset
    s).tim = s.tim ∧ (ringsReset s).buf = s.buf ∧ (ringsReset s).eg = s.eg ∧ (ringsReset s).tab = s.tab ∧ (ringsReset
    s).gen = s.gen ∧ (ringsReset s).eng = s.eng ∧ (ringsReset s).recd = s.recd ∧ (ringsReset s).pmu = s.pmu ∧
    (ringsReset s).svc = s.svc ∧ (ringsReset s).therm = s.therm ∧ (ringsReset s).hmem = s.hmem ∧ (ringsReset s).now =
    s.now ∧ (ringsReset s).elapsed = s.elapsed ∧ (ringsReset s).free = s.free ∧ (ringsReset s).pending = s.pending := by
  intros; unfold ringsReset
  first
    | ((repeat' split) <;> simp; done)
    | (dsimp only; (repeat' split) <;> simp [*]; done)
    | ((repeat' apply And.intro) <;> dsimp only <;> (repeat' split) <;> simp [*]; done)

@[simp] theorem linkDown_keeps : ∀ s, (linkDown s).md = s.md ∧ (linkDown s).dev = s.dev ∧ (linkDown s).pins = s.pins ∧
    (linkDown s).side = s.side ∧ (linkDown s).prot = s.prot ∧ (linkDown s).mram = s.mram ∧ (linkDown s).img = s.img ∧
    (linkDown s).lat = s.lat ∧ (linkDown s).acct = s.acct ∧ (linkDown s).lk = s.lk ∧ (linkDown s).tim = s.tim ∧
    (linkDown s).buf = s.buf ∧ (linkDown s).eg = s.eg ∧ (linkDown s).tab = s.tab ∧ (linkDown s).gen = s.gen ∧ (linkDown
    s).eng = s.eng ∧ (linkDown s).recd = s.recd ∧ (linkDown s).pmu = s.pmu ∧ (linkDown s).svc = s.svc ∧ (linkDown
    s).therm = s.therm ∧ (linkDown s).regs = s.regs ∧ (linkDown s).hmem = s.hmem ∧ (linkDown s).now = s.now ∧ (linkDown
    s).elapsed = s.elapsed ∧ (linkDown s).free = s.free ∧ (linkDown s).pending = s.pending := by
  intros; unfold linkDown
  first
    | ((repeat' split) <;> simp; done)
    | (dsimp only; (repeat' split) <;> simp [*]; done)
    | ((repeat' apply And.intro) <;> dsimp only <;> (repeat' split) <;> simp [*]; done)

@[simp] theorem countFlr_keeps : ∀ a1 s, (countFlr a1 s).md = s.md ∧ (countFlr a1 s).dev = s.dev ∧ (countFlr a1 s).pins
    = s.pins ∧ (countFlr a1 s).side = s.side ∧ (countFlr a1 s).prot = s.prot ∧ (countFlr a1 s).mram = s.mram ∧ (countFlr
    a1 s).img = s.img ∧ (countFlr a1 s).host = s.host ∧ (countFlr a1 s).lat = s.lat ∧ (countFlr a1 s).acct = s.acct ∧
    (countFlr a1 s).lk = s.lk ∧ (countFlr a1 s).tim = s.tim ∧ (countFlr a1 s).buf = s.buf ∧ (countFlr a1 s).eg = s.eg ∧
    (countFlr a1 s).tab = s.tab ∧ (countFlr a1 s).gen = s.gen ∧ (countFlr a1 s).eng = s.eng ∧ (countFlr a1 s).recd =
    s.recd ∧ (countFlr a1 s).pmu = s.pmu ∧ (countFlr a1 s).svc = s.svc ∧ (countFlr a1 s).therm = s.therm ∧ (countFlr a1
    s).hmem = s.hmem ∧ (countFlr a1 s).now = s.now ∧ (countFlr a1 s).elapsed = s.elapsed ∧ (countFlr a1 s).free = s.free
    ∧ (countFlr a1 s).pending = s.pending := by
  intros; unfold countFlr
  first
    | ((repeat' split) <;> simp; done)
    | (dsimp only; (repeat' split) <;> simp [*]; done)
    | ((repeat' apply And.intro) <;> dsimp only <;> (repeat' split) <;> simp [*]; done)

@[simp] theorem schCount_keeps : ∀ a1 a2 a3 a4 s, (schCount a1 a2 a3 a4 s).md = s.md ∧ (schCount a1 a2 a3 a4 s).dev =
    s.dev ∧ (schCount a1 a2 a3 a4 s).pins = s.pins ∧ (schCount a1 a2 a3 a4 s).side = s.side ∧ (schCount a1 a2 a3 a4
    s).prot = s.prot ∧ (schCount a1 a2 a3 a4 s).mram = s.mram ∧ (schCount a1 a2 a3 a4 s).img = s.img ∧ (schCount a1 a2
    a3 a4 s).host = s.host ∧ (schCount a1 a2 a3 a4 s).lat = s.lat ∧ (schCount a1 a2 a3 a4 s).acct = s.acct ∧ (schCount
    a1 a2 a3 a4 s).lk = s.lk ∧ (schCount a1 a2 a3 a4 s).tim = s.tim ∧ (schCount a1 a2 a3 a4 s).buf = s.buf ∧ (schCount
    a1 a2 a3 a4 s).eg = s.eg ∧ (schCount a1 a2 a3 a4 s).tab = s.tab ∧ (schCount a1 a2 a3 a4 s).gen = s.gen ∧ (schCount
    a1 a2 a3 a4 s).eng = s.eng ∧ (schCount a1 a2 a3 a4 s).recd = s.recd ∧ (schCount a1 a2 a3 a4 s).pmu = s.pmu ∧
    (schCount a1 a2 a3 a4 s).svc = s.svc ∧ (schCount a1 a2 a3 a4 s).therm = s.therm ∧ (schCount a1 a2 a3 a4 s).hmem =
    s.hmem ∧ (schCount a1 a2 a3 a4 s).now = s.now ∧ (schCount a1 a2 a3 a4 s).elapsed = s.elapsed ∧ (schCount a1 a2 a3 a4
    s).free = s.free ∧ (schCount a1 a2 a3 a4 s).pending = s.pending := by
  intros; unfold schCount
  first
    | ((repeat' split) <;> simp; done)
    | (dsimp only; (repeat' split) <;> simp [*]; done)
    | ((repeat' apply And.intro) <;> dsimp only <;> (repeat' split) <;> simp [*]; done)

@[simp] theorem complete_keeps : ∀ a1 a2 s, (complete a1 a2 s).md = s.md ∧ (complete a1 a2 s).dev = s.dev ∧ (complete a1
    a2 s).pins = s.pins ∧ (complete a1 a2 s).side = s.side ∧ (complete a1 a2 s).prot = s.prot ∧ (complete a1 a2 s).mram
    = s.mram ∧ (complete a1 a2 s).img = s.img ∧ (complete a1 a2 s).lat = s.lat ∧ (complete a1 a2 s).acct = s.acct ∧
    (complete a1 a2 s).lk = s.lk ∧ (complete a1 a2 s).tim = s.tim ∧ (complete a1 a2 s).buf = s.buf ∧ (complete a1 a2
    s).eg = s.eg ∧ (complete a1 a2 s).tab = s.tab ∧ (complete a1 a2 s).gen = s.gen ∧ (complete a1 a2 s).eng = s.eng ∧
    (complete a1 a2 s).recd = s.recd ∧ (complete a1 a2 s).svc = s.svc ∧ (complete a1 a2 s).therm = s.therm ∧ (complete
    a1 a2 s).now = s.now ∧ (complete a1 a2 s).elapsed = s.elapsed ∧ (complete a1 a2 s).free = s.free ∧ (complete a1 a2
    s).pending = s.pending := by
  intros; unfold complete
  first
    | ((repeat' split) <;> simp; done)
    | (dsimp only; (repeat' split) <;> simp [*]; done)
    | ((repeat' apply And.intro) <;> dsimp only <;> (repeat' split) <;> simp [*]; done)

@[simp] theorem settle_keeps : ∀ a1 a2 s, (settle a1 a2 s).md = s.md ∧ (settle a1 a2 s).dev = s.dev ∧ (settle a1 a2
    s).pins = s.pins ∧ (settle a1 a2 s).side = s.side ∧ (settle a1 a2 s).prot = s.prot ∧ (settle a1 a2 s).mram = s.mram
    ∧ (settle a1 a2 s).img = s.img ∧ (settle a1 a2 s).lat = s.lat ∧ (settle a1 a2 s).lk = s.lk ∧ (settle a1 a2 s).tim =
    s.tim ∧ (settle a1 a2 s).eg = s.eg ∧ (settle a1 a2 s).tab = s.tab ∧ (settle a1 a2 s).gen = s.gen ∧ (settle a1 a2
    s).eng = s.eng ∧ (settle a1 a2 s).svc = s.svc ∧ (settle a1 a2 s).therm = s.therm ∧ (settle a1 a2 s).now = s.now ∧
    (settle a1 a2 s).elapsed = s.elapsed ∧ (settle a1 a2 s).free = s.free ∧ (settle a1 a2 s).pending = s.pending := by
  intros; unfold settle
  first
    | ((repeat' split) <;> simp; done)
    | (dsimp only; (repeat' split) <;> simp [*]; done)
    | ((repeat' apply And.intro) <;> dsimp only <;> (repeat' split) <;> simp [*]; done)

@[simp] theorem dropFrame_keeps : ∀ a1 s, (dropFrame a1 s).md = s.md ∧ (dropFrame a1 s).dev = s.dev ∧ (dropFrame a1
    s).pins = s.pins ∧ (dropFrame a1 s).side = s.side ∧ (dropFrame a1 s).prot = s.prot ∧ (dropFrame a1 s).mram = s.mram
    ∧ (dropFrame a1 s).img = s.img ∧ (dropFrame a1 s).host = s.host ∧ (dropFrame a1 s).lat = s.lat ∧ (dropFrame a1
    s).acct = s.acct ∧ (dropFrame a1 s).tim = s.tim ∧ (dropFrame a1 s).eg = s.eg ∧ (dropFrame a1 s).tab = s.tab ∧
    (dropFrame a1 s).gen = s.gen ∧ (dropFrame a1 s).eng = s.eng ∧ (dropFrame a1 s).recd = s.recd ∧ (dropFrame a1 s).svc
    = s.svc ∧ (dropFrame a1 s).therm = s.therm ∧ (dropFrame a1 s).hmem = s.hmem ∧ (dropFrame a1 s).now = s.now ∧
    (dropFrame a1 s).elapsed = s.elapsed ∧ (dropFrame a1 s).free = s.free ∧ (dropFrame a1 s).pending = s.pending := by
  intros; unfold dropFrame
  first
    | ((repeat' split) <;> simp; done)
    | (dsimp only; (repeat' split) <;> simp [*]; done)
    | ((repeat' apply And.intro) <;> dsimp only <;> (repeat' split) <;> simp [*]; done)

@[simp] theorem clearHolder_keeps : ∀ a1 a2 s, (clearHolder a1 a2 s).md = s.md ∧ (clearHolder a1 a2 s).dev = s.dev ∧
    (clearHolder a1 a2 s).pins = s.pins ∧ (clearHolder a1 a2 s).side = s.side ∧ (clearHolder a1 a2 s).prot = s.prot ∧
    (clearHolder a1 a2 s).mram = s.mram ∧ (clearHolder a1 a2 s).img = s.img ∧ (clearHolder a1 a2 s).host = s.host ∧
    (clearHolder a1 a2 s).lat = s.lat ∧ (clearHolder a1 a2 s).acct = s.acct ∧ (clearHolder a1 a2 s).tim = s.tim ∧
    (clearHolder a1 a2 s).eg = s.eg ∧ (clearHolder a1 a2 s).tab = s.tab ∧ (clearHolder a1 a2 s).gen = s.gen ∧
    (clearHolder a1 a2 s).eng = s.eng ∧ (clearHolder a1 a2 s).recd = s.recd ∧ (clearHolder a1 a2 s).svc = s.svc ∧
    (clearHolder a1 a2 s).therm = s.therm ∧ (clearHolder a1 a2 s).hmem = s.hmem ∧ (clearHolder a1 a2 s).now = s.now ∧
    (clearHolder a1 a2 s).elapsed = s.elapsed ∧ (clearHolder a1 a2 s).free = s.free ∧ (clearHolder a1 a2 s).pending =
    s.pending := by
  intros; unfold clearHolder
  first
    | ((repeat' split) <;> simp; done)
    | (dsimp only; (repeat' split) <;> simp [*]; done)
    | ((repeat' apply And.intro) <;> dsimp only <;> (repeat' split) <;> simp [*]; done)

@[simp] theorem rejectFree_keeps : ∀ a1 a2 a3 a4 a5 s, (rejectFree a1 a2 a3 a4 a5 s).md = s.md ∧ (rejectFree a1 a2 a3 a4
    a5 s).dev = s.dev ∧ (rejectFree a1 a2 a3 a4 a5 s).pins = s.pins ∧ (rejectFree a1 a2 a3 a4 a5 s).side = s.side ∧
    (rejectFree a1 a2 a3 a4 a5 s).prot = s.prot ∧ (rejectFree a1 a2 a3 a4 a5 s).mram = s.mram ∧ (rejectFree a1 a2 a3 a4
    a5 s).img = s.img ∧ (rejectFree a1 a2 a3 a4 a5 s).lat = s.lat ∧ (rejectFree a1 a2 a3 a4 a5 s).acct = s.acct ∧
    (rejectFree a1 a2 a3 a4 a5 s).lk = s.lk ∧ (rejectFree a1 a2 a3 a4 a5 s).tim = s.tim ∧ (rejectFree a1 a2 a3 a4 a5
    s).eg = s.eg ∧ (rejectFree a1 a2 a3 a4 a5 s).tab = s.tab ∧ (rejectFree a1 a2 a3 a4 a5 s).gen = s.gen ∧ (rejectFree
    a1 a2 a3 a4 a5 s).eng = s.eng ∧ (rejectFree a1 a2 a3 a4 a5 s).recd = s.recd ∧ (rejectFree a1 a2 a3 a4 a5 s).pmu =
    s.pmu ∧ (rejectFree a1 a2 a3 a4 a5 s).svc = s.svc ∧ (rejectFree a1 a2 a3 a4 a5 s).therm = s.therm ∧ (rejectFree a1
    a2 a3 a4 a5 s).hmem = s.hmem ∧ (rejectFree a1 a2 a3 a4 a5 s).now = s.now ∧ (rejectFree a1 a2 a3 a4 a5 s).elapsed =
    s.elapsed ∧ (rejectFree a1 a2 a3 a4 a5 s).free = s.free ∧ (rejectFree a1 a2 a3 a4 a5 s).pending = s.pending := by
  intros; unfold rejectFree
  first
    | ((repeat' split) <;> simp; done)
    | (dsimp only; (repeat' split) <;> simp [*]; done)
    | ((repeat' apply And.intro) <;> dsimp only <;> (repeat' split) <;> simp [*]; done)

@[simp] theorem noteGone_keeps : ∀ a1 s, (noteGone a1 s).md = s.md ∧ (noteGone a1 s).dev = s.dev ∧ (noteGone a1 s).pins
    = s.pins ∧ (noteGone a1 s).side = s.side ∧ (noteGone a1 s).prot = s.prot ∧ (noteGone a1 s).mram = s.mram ∧ (noteGone
    a1 s).img = s.img ∧ (noteGone a1 s).host = s.host ∧ (noteGone a1 s).lat = s.lat ∧ (noteGone a1 s).acct = s.acct ∧
    (noteGone a1 s).lk = s.lk ∧ (noteGone a1 s).tim = s.tim ∧ (noteGone a1 s).eg = s.eg ∧ (noteGone a1 s).tab = s.tab ∧
    (noteGone a1 s).gen = s.gen ∧ (noteGone a1 s).eng = s.eng ∧ (noteGone a1 s).recd = s.recd ∧ (noteGone a1 s).pmu =
    s.pmu ∧ (noteGone a1 s).svc = s.svc ∧ (noteGone a1 s).therm = s.therm ∧ (noteGone a1 s).regs = s.regs ∧ (noteGone a1
    s).hmem = s.hmem ∧ (noteGone a1 s).now = s.now ∧ (noteGone a1 s).elapsed = s.elapsed ∧ (noteGone a1 s).free = s.free
    ∧ (noteGone a1 s).pending = s.pending := by
  intros; unfold noteGone
  first
    | ((repeat' split) <;> simp; done)
    | (dsimp only; (repeat' split) <;> simp [*]; done)
    | ((repeat' apply And.intro) <;> dsimp only <;> (repeat' split) <;> simp [*]; done)

@[simp] theorem presentFree_keeps : ∀ a1 a2 a3 s, (presentFree a1 a2 a3 s).md = s.md ∧ (presentFree a1 a2 a3 s).dev =
    s.dev ∧ (presentFree a1 a2 a3 s).pins = s.pins ∧ (presentFree a1 a2 a3 s).side = s.side ∧ (presentFree a1 a2 a3
    s).prot = s.prot ∧ (presentFree a1 a2 a3 s).mram = s.mram ∧ (presentFree a1 a2 a3 s).img = s.img ∧ (presentFree a1
    a2 a3 s).lat = s.lat ∧ (presentFree a1 a2 a3 s).acct = s.acct ∧ (presentFree a1 a2 a3 s).tim = s.tim ∧ (presentFree
    a1 a2 a3 s).eg = s.eg ∧ (presentFree a1 a2 a3 s).tab = s.tab ∧ (presentFree a1 a2 a3 s).gen = s.gen ∧ (presentFree
    a1 a2 a3 s).eng = s.eng ∧ (presentFree a1 a2 a3 s).recd = s.recd ∧ (presentFree a1 a2 a3 s).svc = s.svc ∧
    (presentFree a1 a2 a3 s).therm = s.therm ∧ (presentFree a1 a2 a3 s).hmem = s.hmem ∧ (presentFree a1 a2 a3 s).now =
    s.now ∧ (presentFree a1 a2 a3 s).elapsed = s.elapsed ∧ (presentFree a1 a2 a3 s).free = s.free ∧ (presentFree a1 a2
    a3 s).pending = s.pending := by
  intros; unfold presentFree
  first
    | ((repeat' split) <;> simp; done)
    | (dsimp only; (repeat' split) <;> simp [*]; done)
    | ((repeat' apply And.intro) <;> dsimp only <;> (repeat' split) <;> simp [*]; done)

@[simp] theorem freeHolder_keeps : ∀ a1 a2 s, (freeHolder a1 a2 s).md = s.md ∧ (freeHolder a1 a2 s).dev = s.dev ∧
    (freeHolder a1 a2 s).pins = s.pins ∧ (freeHolder a1 a2 s).side = s.side ∧ (freeHolder a1 a2 s).prot = s.prot ∧
    (freeHolder a1 a2 s).mram = s.mram ∧ (freeHolder a1 a2 s).img = s.img ∧ (freeHolder a1 a2 s).lat = s.lat ∧
    (freeHolder a1 a2 s).acct = s.acct ∧ (freeHolder a1 a2 s).tim = s.tim ∧ (freeHolder a1 a2 s).eg = s.eg ∧ (freeHolder
    a1 a2 s).tab = s.tab ∧ (freeHolder a1 a2 s).gen = s.gen ∧ (freeHolder a1 a2 s).eng = s.eng ∧ (freeHolder a1 a2
    s).recd = s.recd ∧ (freeHolder a1 a2 s).svc = s.svc ∧ (freeHolder a1 a2 s).therm = s.therm ∧ (freeHolder a1 a2
    s).hmem = s.hmem ∧ (freeHolder a1 a2 s).now = s.now ∧ (freeHolder a1 a2 s).elapsed = s.elapsed ∧ (freeHolder a1 a2
    s).free = s.free ∧ (freeHolder a1 a2 s).pending = s.pending := by
  intros; unfold freeHolder
  first
    | ((repeat' split) <;> simp; done)
    | (dsimp only; (repeat' split) <;> simp [*]; done)
    | ((repeat' apply And.intro) <;> dsimp only <;> (repeat' split) <;> simp [*]; done)

@[simp] theorem discardFrame_keeps : ∀ a1 a2 s, (discardFrame a1 a2 s).md = s.md ∧ (discardFrame a1 a2 s).dev = s.dev ∧
    (discardFrame a1 a2 s).pins = s.pins ∧ (discardFrame a1 a2 s).side = s.side ∧ (discardFrame a1 a2 s).prot = s.prot ∧
    (discardFrame a1 a2 s).mram = s.mram ∧ (discardFrame a1 a2 s).img = s.img ∧ (discardFrame a1 a2 s).lat = s.lat ∧
    (discardFrame a1 a2 s).tim = s.tim ∧ (discardFrame a1 a2 s).eg = s.eg ∧ (discardFrame a1 a2 s).tab = s.tab ∧
    (discardFrame a1 a2 s).gen = s.gen ∧ (discardFrame a1 a2 s).eng = s.eng ∧ (discardFrame a1 a2 s).svc = s.svc ∧
    (discardFrame a1 a2 s).therm = s.therm ∧ (discardFrame a1 a2 s).now = s.now ∧ (discardFrame a1 a2 s).elapsed =
    s.elapsed ∧ (discardFrame a1 a2 s).free = s.free ∧ (discardFrame a1 a2 s).pending = s.pending := by
  intros; unfold discardFrame
  first
    | ((repeat' split) <;> simp; done)
    | (dsimp only; (repeat' split) <;> simp [*]; done)
    | ((repeat' apply And.intro) <;> dsimp only <;> (repeat' split) <;> simp [*]; done)

@[simp] theorem finishCopy_keeps : ∀ a1 a2 s, (finishCopy a1 a2 s).md = s.md ∧ (finishCopy a1 a2 s).dev = s.dev ∧
    (finishCopy a1 a2 s).pins = s.pins ∧ (finishCopy a1 a2 s).side = s.side ∧ (finishCopy a1 a2 s).prot = s.prot ∧
    (finishCopy a1 a2 s).mram = s.mram ∧ (finishCopy a1 a2 s).img = s.img ∧ (finishCopy a1 a2 s).lat = s.lat ∧
    (finishCopy a1 a2 s).tim = s.tim ∧ (finishCopy a1 a2 s).eg = s.eg ∧ (finishCopy a1 a2 s).tab = s.tab ∧ (finishCopy
    a1 a2 s).gen = s.gen ∧ (finishCopy a1 a2 s).eng = s.eng ∧ (finishCopy a1 a2 s).svc = s.svc ∧ (finishCopy a1 a2
    s).therm = s.therm ∧ (finishCopy a1 a2 s).now = s.now ∧ (finishCopy a1 a2 s).elapsed = s.elapsed ∧ (finishCopy a1 a2
    s).free = s.free ∧ (finishCopy a1 a2 s).pending = s.pending := by
  intros; unfold finishCopy
  first
    | ((repeat' split) <;> simp; done)
    | (dsimp only; (repeat' split) <;> simp [*]; done)
    | ((repeat' apply And.intro) <;> dsimp only <;> (repeat' split) <;> simp [*]; done)

@[simp] theorem countOther_keeps : ∀ s, (countOther s).md = s.md ∧ (countOther s).dev = s.dev ∧ (countOther s).pins =
    s.pins ∧ (countOther s).side = s.side ∧ (countOther s).prot = s.prot ∧ (countOther s).mram = s.mram ∧ (countOther
    s).img = s.img ∧ (countOther s).host = s.host ∧ (countOther s).lat = s.lat ∧ (countOther s).acct = s.acct ∧
    (countOther s).lk = s.lk ∧ (countOther s).tim = s.tim ∧ (countOther s).buf = s.buf ∧ (countOther s).eg = s.eg ∧
    (countOther s).tab = s.tab ∧ (countOther s).gen = s.gen ∧ (countOther s).eng = s.eng ∧ (countOther s).recd = s.recd
    ∧ (countOther s).pmu = s.pmu ∧ (countOther s).svc = s.svc ∧ (countOther s).therm = s.therm ∧ (countOther s).hmem =
    s.hmem ∧ (countOther s).now = s.now ∧ (countOther s).elapsed = s.elapsed ∧ (countOther s).free = s.free ∧
    (countOther s).pending = s.pending := by
  intros; unfold countOther
  first
    | ((repeat' split) <;> simp; done)
    | (dsimp only; (repeat' split) <;> simp [*]; done)
    | ((repeat' apply And.intro) <;> dsimp only <;> (repeat' split) <;> simp [*]; done)

@[simp] theorem fenceFrame_keeps : ∀ a1 a2 s, (fenceFrame a1 a2 s).md = s.md ∧ (fenceFrame a1 a2 s).dev = s.dev ∧
    (fenceFrame a1 a2 s).pins = s.pins ∧ (fenceFrame a1 a2 s).side = s.side ∧ (fenceFrame a1 a2 s).prot = s.prot ∧
    (fenceFrame a1 a2 s).mram = s.mram ∧ (fenceFrame a1 a2 s).img = s.img ∧ (fenceFrame a1 a2 s).lat = s.lat ∧
    (fenceFrame a1 a2 s).tim = s.tim ∧ (fenceFrame a1 a2 s).eg = s.eg ∧ (fenceFrame a1 a2 s).tab = s.tab ∧ (fenceFrame
    a1 a2 s).gen = s.gen ∧ (fenceFrame a1 a2 s).eng = s.eng ∧ (fenceFrame a1 a2 s).svc = s.svc ∧ (fenceFrame a1 a2
    s).therm = s.therm ∧ (fenceFrame a1 a2 s).now = s.now ∧ (fenceFrame a1 a2 s).elapsed = s.elapsed ∧ (fenceFrame a1 a2
    s).free = s.free ∧ (fenceFrame a1 a2 s).pending = s.pending := by
  intros; unfold fenceFrame
  first
    | ((repeat' split) <;> simp; done)
    | (dsimp only; (repeat' split) <;> simp [*]; done)
    | ((repeat' apply And.intro) <;> dsimp only <;> (repeat' split) <;> simp [*]; done)

@[simp] theorem fenceFrames_keeps : ∀ s, (fenceFrames s).md = s.md ∧ (fenceFrames s).dev = s.dev ∧ (fenceFrames s).pins
    = s.pins ∧ (fenceFrames s).side = s.side ∧ (fenceFrames s).prot = s.prot ∧ (fenceFrames s).mram = s.mram ∧
    (fenceFrames s).img = s.img ∧ (fenceFrames s).lat = s.lat ∧ (fenceFrames s).tim = s.tim ∧ (fenceFrames s).tab =
    s.tab ∧ (fenceFrames s).gen = s.gen ∧ (fenceFrames s).svc = s.svc ∧ (fenceFrames s).therm = s.therm ∧ (fenceFrames
    s).now = s.now ∧ (fenceFrames s).elapsed = s.elapsed ∧ (fenceFrames s).free = s.free ∧ (fenceFrames s).pending =
    s.pending := by
  intros; unfold fenceFrames
  first
    | ((repeat' split) <;> simp; done)
    | (dsimp only; (repeat' split) <;> simp [*]; done)
    | ((repeat' apply And.intro) <;> dsimp only <;> (repeat' split) <;> simp [*]; done)

@[simp] theorem takeSnapshot_keeps : ∀ s, (takeSnapshot s).md = s.md ∧ (takeSnapshot s).dev = s.dev ∧ (takeSnapshot
    s).pins = s.pins ∧ (takeSnapshot s).side = s.side ∧ (takeSnapshot s).prot = s.prot ∧ (takeSnapshot s).mram = s.mram
    ∧ (takeSnapshot s).img = s.img ∧ (takeSnapshot s).host = s.host ∧ (takeSnapshot s).lat = s.lat ∧ (takeSnapshot
    s).acct = s.acct ∧ (takeSnapshot s).lk = s.lk ∧ (takeSnapshot s).tim = s.tim ∧ (takeSnapshot s).eg = s.eg ∧
    (takeSnapshot s).tab = s.tab ∧ (takeSnapshot s).gen = s.gen ∧ (takeSnapshot s).eng = s.eng ∧ (takeSnapshot s).recd =
    s.recd ∧ (takeSnapshot s).pmu = s.pmu ∧ (takeSnapshot s).svc = s.svc ∧ (takeSnapshot s).therm = s.therm ∧
    (takeSnapshot s).regs = s.regs ∧ (takeSnapshot s).hmem = s.hmem ∧ (takeSnapshot s).now = s.now ∧ (takeSnapshot
    s).elapsed = s.elapsed ∧ (takeSnapshot s).free = s.free ∧ (takeSnapshot s).pending = s.pending := by
  intros; unfold takeSnapshot
  first
    | ((repeat' split) <;> simp; done)
    | (dsimp only; (repeat' split) <;> simp [*]; done)
    | ((repeat' apply And.intro) <;> dsimp only <;> (repeat' split) <;> simp [*]; done)

@[simp] theorem setQueue_keeps : ∀ a1 a2 a3 s, (setQueue a1 a2 a3 s).md = s.md ∧ (setQueue a1 a2 a3 s).dev = s.dev ∧
    (setQueue a1 a2 a3 s).pins = s.pins ∧ (setQueue a1 a2 a3 s).side = s.side ∧ (setQueue a1 a2 a3 s).prot = s.prot ∧
    (setQueue a1 a2 a3 s).mram = s.mram ∧ (setQueue a1 a2 a3 s).img = s.img ∧ (setQueue a1 a2 a3 s).host = s.host ∧
    (setQueue a1 a2 a3 s).lat = s.lat ∧ (setQueue a1 a2 a3 s).acct = s.acct ∧ (setQueue a1 a2 a3 s).lk = s.lk ∧
    (setQueue a1 a2 a3 s).tim = s.tim ∧ (setQueue a1 a2 a3 s).buf = s.buf ∧ (setQueue a1 a2 a3 s).tab = s.tab ∧
    (setQueue a1 a2 a3 s).gen = s.gen ∧ (setQueue a1 a2 a3 s).eng = s.eng ∧ (setQueue a1 a2 a3 s).recd = s.recd ∧
    (setQueue a1 a2 a3 s).pmu = s.pmu ∧ (setQueue a1 a2 a3 s).svc = s.svc ∧ (setQueue a1 a2 a3 s).therm = s.therm ∧
    (setQueue a1 a2 a3 s).regs = s.regs ∧ (setQueue a1 a2 a3 s).hmem = s.hmem ∧ (setQueue a1 a2 a3 s).now = s.now ∧
    (setQueue a1 a2 a3 s).elapsed = s.elapsed ∧ (setQueue a1 a2 a3 s).free = s.free ∧ (setQueue a1 a2 a3 s).pending =
    s.pending := by
  intros; unfold setQueue
  first
    | ((repeat' split) <;> simp; done)
    | (dsimp only; (repeat' split) <;> simp [*]; done)
    | ((repeat' apply And.intro) <;> dsimp only <;> (repeat' split) <;> simp [*]; done)

@[simp] theorem setSched_keeps : ∀ a1 a2 s, (setSched a1 a2 s).md = s.md ∧ (setSched a1 a2 s).dev = s.dev ∧ (setSched a1
    a2 s).pins = s.pins ∧ (setSched a1 a2 s).side = s.side ∧ (setSched a1 a2 s).prot = s.prot ∧ (setSched a1 a2 s).mram
    = s.mram ∧ (setSched a1 a2 s).img = s.img ∧ (setSched a1 a2 s).host = s.host ∧ (setSched a1 a2 s).lat = s.lat ∧
    (setSched a1 a2 s).acct = s.acct ∧ (setSched a1 a2 s).lk = s.lk ∧ (setSched a1 a2 s).tim = s.tim ∧ (setSched a1 a2
    s).buf = s.buf ∧ (setSched a1 a2 s).tab = s.tab ∧ (setSched a1 a2 s).gen = s.gen ∧ (setSched a1 a2 s).eng = s.eng ∧
    (setSched a1 a2 s).recd = s.recd ∧ (setSched a1 a2 s).pmu = s.pmu ∧ (setSched a1 a2 s).svc = s.svc ∧ (setSched a1 a2
    s).therm = s.therm ∧ (setSched a1 a2 s).regs = s.regs ∧ (setSched a1 a2 s).hmem = s.hmem ∧ (setSched a1 a2 s).now =
    s.now ∧ (setSched a1 a2 s).elapsed = s.elapsed ∧ (setSched a1 a2 s).free = s.free ∧ (setSched a1 a2 s).pending =
    s.pending := by
  intros; unfold setSched
  first
    | ((repeat' split) <;> simp; done)
    | (dsimp only; (repeat' split) <;> simp [*]; done)
    | ((repeat' apply And.intro) <;> dsimp only <;> (repeat' split) <;> simp [*]; done)

@[simp] theorem removeCopy_keeps : ∀ a1 s, (removeCopy a1 s).md = s.md ∧ (removeCopy a1 s).dev = s.dev ∧ (removeCopy a1
    s).pins = s.pins ∧ (removeCopy a1 s).side = s.side ∧ (removeCopy a1 s).prot = s.prot ∧ (removeCopy a1 s).mram =
    s.mram ∧ (removeCopy a1 s).img = s.img ∧ (removeCopy a1 s).host = s.host ∧ (removeCopy a1 s).lat = s.lat ∧
    (removeCopy a1 s).acct = s.acct ∧ (removeCopy a1 s).lk = s.lk ∧ (removeCopy a1 s).tim = s.tim ∧ (removeCopy a1
    s).buf = s.buf ∧ (removeCopy a1 s).tab = s.tab ∧ (removeCopy a1 s).gen = s.gen ∧ (removeCopy a1 s).eng = s.eng ∧
    (removeCopy a1 s).recd = s.recd ∧ (removeCopy a1 s).pmu = s.pmu ∧ (removeCopy a1 s).svc = s.svc ∧ (removeCopy a1
    s).therm = s.therm ∧ (removeCopy a1 s).regs = s.regs ∧ (removeCopy a1 s).hmem = s.hmem ∧ (removeCopy a1 s).now =
    s.now ∧ (removeCopy a1 s).elapsed = s.elapsed ∧ (removeCopy a1 s).free = s.free ∧ (removeCopy a1 s).pending =
    s.pending := by
  intros; unfold removeCopy
  first
    | ((repeat' split) <;> simp; done)
    | (dsimp only; (repeat' split) <;> simp [*]; done)
    | ((repeat' apply And.intro) <;> dsimp only <;> (repeat' split) <;> simp [*]; done)

@[simp] theorem discardCopy_keeps : ∀ a1 a2 s, (discardCopy a1 a2 s).md = s.md ∧ (discardCopy a1 a2 s).dev = s.dev ∧
    (discardCopy a1 a2 s).pins = s.pins ∧ (discardCopy a1 a2 s).side = s.side ∧ (discardCopy a1 a2 s).prot = s.prot ∧
    (discardCopy a1 a2 s).mram = s.mram ∧ (discardCopy a1 a2 s).img = s.img ∧ (discardCopy a1 a2 s).lat = s.lat ∧
    (discardCopy a1 a2 s).tim = s.tim ∧ (discardCopy a1 a2 s).tab = s.tab ∧ (discardCopy a1 a2 s).gen = s.gen ∧
    (discardCopy a1 a2 s).eng = s.eng ∧ (discardCopy a1 a2 s).svc = s.svc ∧ (discardCopy a1 a2 s).therm = s.therm ∧
    (discardCopy a1 a2 s).now = s.now ∧ (discardCopy a1 a2 s).elapsed = s.elapsed ∧ (discardCopy a1 a2 s).free = s.free
    ∧ (discardCopy a1 a2 s).pending = s.pending := by
  intros; unfold discardCopy
  first
    | ((repeat' split) <;> simp; done)
    | (dsimp only; (repeat' split) <;> simp [*]; done)
    | ((repeat' apply And.intro) <;> dsimp only <;> (repeat' split) <;> simp [*]; done)

@[simp] theorem flushPort_keeps : ∀ a1 a2 s, (flushPort a1 a2 s).md = s.md ∧ (flushPort a1 a2 s).dev = s.dev ∧
    (flushPort a1 a2 s).pins = s.pins ∧ (flushPort a1 a2 s).side = s.side ∧ (flushPort a1 a2 s).prot = s.prot ∧
    (flushPort a1 a2 s).mram = s.mram ∧ (flushPort a1 a2 s).img = s.img ∧ (flushPort a1 a2 s).lat = s.lat ∧ (flushPort
    a1 a2 s).tim = s.tim ∧ (flushPort a1 a2 s).tab = s.tab ∧ (flushPort a1 a2 s).gen = s.gen ∧ (flushPort a1 a2 s).eng =
    s.eng ∧ (flushPort a1 a2 s).svc = s.svc ∧ (flushPort a1 a2 s).therm = s.therm ∧ (flushPort a1 a2 s).now = s.now ∧
    (flushPort a1 a2 s).elapsed = s.elapsed ∧ (flushPort a1 a2 s).free = s.free ∧ (flushPort a1 a2 s).pending =
    s.pending := by
  intros; unfold flushPort
  first
    | ((repeat' split) <;> simp; done)
    | (dsimp only; (repeat' split) <;> simp [*]; done)
    | ((repeat' apply And.intro) <;> dsimp only <;> (repeat' split) <;> simp [*]; done)

@[simp] theorem mediumTaken_keeps : ∀ a1 a2 s, (mediumTaken a1 a2 s).md = s.md ∧ (mediumTaken a1 a2 s).dev = s.dev ∧
    (mediumTaken a1 a2 s).pins = s.pins ∧ (mediumTaken a1 a2 s).side = s.side ∧ (mediumTaken a1 a2 s).prot = s.prot ∧
    (mediumTaken a1 a2 s).mram = s.mram ∧ (mediumTaken a1 a2 s).img = s.img ∧ (mediumTaken a1 a2 s).host = s.host ∧
    (mediumTaken a1 a2 s).lat = s.lat ∧ (mediumTaken a1 a2 s).acct = s.acct ∧ (mediumTaken a1 a2 s).tim = s.tim ∧
    (mediumTaken a1 a2 s).buf = s.buf ∧ (mediumTaken a1 a2 s).eg = s.eg ∧ (mediumTaken a1 a2 s).tab = s.tab ∧
    (mediumTaken a1 a2 s).gen = s.gen ∧ (mediumTaken a1 a2 s).eng = s.eng ∧ (mediumTaken a1 a2 s).recd = s.recd ∧
    (mediumTaken a1 a2 s).pmu = s.pmu ∧ (mediumTaken a1 a2 s).svc = s.svc ∧ (mediumTaken a1 a2 s).therm = s.therm ∧
    (mediumTaken a1 a2 s).regs = s.regs ∧ (mediumTaken a1 a2 s).hmem = s.hmem ∧ (mediumTaken a1 a2 s).now = s.now ∧
    (mediumTaken a1 a2 s).elapsed = s.elapsed ∧ (mediumTaken a1 a2 s).free = s.free ∧ (mediumTaken a1 a2 s).pending =
    s.pending := by
  intros; unfold mediumTaken
  first
    | ((repeat' split) <;> simp; done)
    | (dsimp only; (repeat' split) <;> simp [*]; done)
    | ((repeat' apply And.intro) <;> dsimp only <;> (repeat' split) <;> simp [*]; done)

@[simp] theorem countTimed_keeps : ∀ a1 a2 s, (countTimed a1 a2 s).md = s.md ∧ (countTimed a1 a2 s).dev = s.dev ∧
    (countTimed a1 a2 s).pins = s.pins ∧ (countTimed a1 a2 s).side = s.side ∧ (countTimed a1 a2 s).prot = s.prot ∧
    (countTimed a1 a2 s).mram = s.mram ∧ (countTimed a1 a2 s).img = s.img ∧ (countTimed a1 a2 s).host = s.host ∧
    (countTimed a1 a2 s).lat = s.lat ∧ (countTimed a1 a2 s).acct = s.acct ∧ (countTimed a1 a2 s).lk = s.lk ∧ (countTimed
    a1 a2 s).tim = s.tim ∧ (countTimed a1 a2 s).buf = s.buf ∧ (countTimed a1 a2 s).eg = s.eg ∧ (countTimed a1 a2 s).tab
    = s.tab ∧ (countTimed a1 a2 s).gen = s.gen ∧ (countTimed a1 a2 s).eng = s.eng ∧ (countTimed a1 a2 s).recd = s.recd ∧
    (countTimed a1 a2 s).svc = s.svc ∧ (countTimed a1 a2 s).therm = s.therm ∧ (countTimed a1 a2 s).hmem = s.hmem ∧
    (countTimed a1 a2 s).now = s.now ∧ (countTimed a1 a2 s).elapsed = s.elapsed ∧ (countTimed a1 a2 s).free = s.free ∧
    (countTimed a1 a2 s).pending = s.pending := by
  intros; unfold countTimed
  first
    | ((repeat' split) <;> simp; done)
    | (dsimp only; (repeat' split) <;> simp [*]; done)
    | ((repeat' apply And.intro) <;> dsimp only <;> (repeat' split) <;> simp [*]; done)

@[simp] theorem endSend_keeps : ∀ a1 a2 a3 s, (endSend a1 a2 a3 s).md = s.md ∧ (endSend a1 a2 a3 s).dev = s.dev ∧
    (endSend a1 a2 a3 s).pins = s.pins ∧ (endSend a1 a2 a3 s).side = s.side ∧ (endSend a1 a2 a3 s).prot = s.prot ∧
    (endSend a1 a2 a3 s).mram = s.mram ∧ (endSend a1 a2 a3 s).img = s.img ∧ (endSend a1 a2 a3 s).host = s.host ∧
    (endSend a1 a2 a3 s).lat = s.lat ∧ (endSend a1 a2 a3 s).acct = s.acct ∧ (endSend a1 a2 a3 s).lk = s.lk ∧ (endSend a1
    a2 a3 s).tim = s.tim ∧ (endSend a1 a2 a3 s).buf = s.buf ∧ (endSend a1 a2 a3 s).eg = s.eg ∧ (endSend a1 a2 a3 s).tab
    = s.tab ∧ (endSend a1 a2 a3 s).gen = s.gen ∧ (endSend a1 a2 a3 s).eng = s.eng ∧ (endSend a1 a2 a3 s).recd = s.recd ∧
    (endSend a1 a2 a3 s).svc = s.svc ∧ (endSend a1 a2 a3 s).therm = s.therm ∧ (endSend a1 a2 a3 s).hmem = s.hmem ∧
    (endSend a1 a2 a3 s).now = s.now ∧ (endSend a1 a2 a3 s).elapsed = s.elapsed ∧ (endSend a1 a2 a3 s).free = s.free ∧
    (endSend a1 a2 a3 s).pending = s.pending := by
  intros; unfold endSend
  first
    | ((repeat' split) <;> simp; done)
    | (dsimp only; (repeat' split) <;> simp [*]; done)
    | ((repeat' apply And.intro) <;> dsimp only <;> (repeat' split) <;> simp [*]; done)

@[simp] theorem cutOne_keeps : ∀ a1 a2 a3 a4 s, (cutOne a1 a2 a3 a4 s).md = s.md ∧ (cutOne a1 a2 a3 a4 s).dev = s.dev ∧
    (cutOne a1 a2 a3 a4 s).pins = s.pins ∧ (cutOne a1 a2 a3 a4 s).side = s.side ∧ (cutOne a1 a2 a3 a4 s).prot = s.prot ∧
    (cutOne a1 a2 a3 a4 s).mram = s.mram ∧ (cutOne a1 a2 a3 a4 s).img = s.img ∧ (cutOne a1 a2 a3 a4 s).host = s.host ∧
    (cutOne a1 a2 a3 a4 s).lat = s.lat ∧ (cutOne a1 a2 a3 a4 s).acct = s.acct ∧ (cutOne a1 a2 a3 a4 s).tim = s.tim ∧
    (cutOne a1 a2 a3 a4 s).buf = s.buf ∧ (cutOne a1 a2 a3 a4 s).eg = s.eg ∧ (cutOne a1 a2 a3 a4 s).tab = s.tab ∧ (cutOne
    a1 a2 a3 a4 s).gen = s.gen ∧ (cutOne a1 a2 a3 a4 s).eng = s.eng ∧ (cutOne a1 a2 a3 a4 s).recd = s.recd ∧ (cutOne a1
    a2 a3 a4 s).pmu = s.pmu ∧ (cutOne a1 a2 a3 a4 s).svc = s.svc ∧ (cutOne a1 a2 a3 a4 s).therm = s.therm ∧ (cutOne a1
    a2 a3 a4 s).hmem = s.hmem ∧ (cutOne a1 a2 a3 a4 s).now = s.now ∧ (cutOne a1 a2 a3 a4 s).elapsed = s.elapsed ∧
    (cutOne a1 a2 a3 a4 s).free = s.free ∧ (cutOne a1 a2 a3 a4 s).pending = s.pending := by
  intros; unfold cutOne
  first
    | ((repeat' split) <;> simp; done)
    | (dsimp only; (repeat' split) <;> simp [*]; done)
    | ((repeat' apply And.intro) <;> dsimp only <;> (repeat' split) <;> simp [*]; done)

@[simp] theorem cutCopy_keeps : ∀ a1 a2 a3 a4 a5 s, (cutCopy a1 a2 a3 a4 a5 s).md = s.md ∧ (cutCopy a1 a2 a3 a4 a5
    s).dev = s.dev ∧ (cutCopy a1 a2 a3 a4 a5 s).pins = s.pins ∧ (cutCopy a1 a2 a3 a4 a5 s).side = s.side ∧ (cutCopy a1
    a2 a3 a4 a5 s).prot = s.prot ∧ (cutCopy a1 a2 a3 a4 a5 s).mram = s.mram ∧ (cutCopy a1 a2 a3 a4 a5 s).img = s.img ∧
    (cutCopy a1 a2 a3 a4 a5 s).lat = s.lat ∧ (cutCopy a1 a2 a3 a4 a5 s).tim = s.tim ∧ (cutCopy a1 a2 a3 a4 a5 s).eg =
    s.eg ∧ (cutCopy a1 a2 a3 a4 a5 s).tab = s.tab ∧ (cutCopy a1 a2 a3 a4 a5 s).gen = s.gen ∧ (cutCopy a1 a2 a3 a4 a5
    s).eng = s.eng ∧ (cutCopy a1 a2 a3 a4 a5 s).svc = s.svc ∧ (cutCopy a1 a2 a3 a4 a5 s).therm = s.therm ∧ (cutCopy a1
    a2 a3 a4 a5 s).now = s.now ∧ (cutCopy a1 a2 a3 a4 a5 s).elapsed = s.elapsed ∧ (cutCopy a1 a2 a3 a4 a5 s).free =
    s.free ∧ (cutCopy a1 a2 a3 a4 a5 s).pending = s.pending := by
  intros; unfold cutCopy
  first
    | ((repeat' split) <;> simp; done)
    | (dsimp only; (repeat' split) <;> simp [*]; done)
    | ((repeat' apply And.intro) <;> dsimp only <;> (repeat' split) <;> simp [*]; done)

@[simp] theorem cutTransmit_keeps : ∀ a1 a2 s, (cutTransmit a1 a2 s).md = s.md ∧ (cutTransmit a1 a2 s).dev = s.dev ∧
    (cutTransmit a1 a2 s).pins = s.pins ∧ (cutTransmit a1 a2 s).side = s.side ∧ (cutTransmit a1 a2 s).prot = s.prot ∧
    (cutTransmit a1 a2 s).mram = s.mram ∧ (cutTransmit a1 a2 s).img = s.img ∧ (cutTransmit a1 a2 s).lat = s.lat ∧
    (cutTransmit a1 a2 s).tim = s.tim ∧ (cutTransmit a1 a2 s).tab = s.tab ∧ (cutTransmit a1 a2 s).gen = s.gen ∧
    (cutTransmit a1 a2 s).eng = s.eng ∧ (cutTransmit a1 a2 s).svc = s.svc ∧ (cutTransmit a1 a2 s).therm = s.therm ∧
    (cutTransmit a1 a2 s).now = s.now ∧ (cutTransmit a1 a2 s).elapsed = s.elapsed ∧ (cutTransmit a1 a2 s).free = s.free
    ∧ (cutTransmit a1 a2 s).pending = s.pending := by
  intros; unfold cutTransmit
  first
    | ((repeat' split) <;> simp; done)
    | (dsimp only; (repeat' split) <;> simp [*]; done)
    | ((repeat' apply And.intro) <;> dsimp only <;> (repeat' split) <;> simp [*]; done)

@[simp] theorem noteBucket_keeps : ∀ old a b c s, (noteBucket old a b c s).md = s.md ∧ (noteBucket old a b c s).dev =
    s.dev ∧ (noteBucket old a b c s).pins = s.pins ∧ (noteBucket old a b c s).side = s.side ∧ (noteBucket old a b c
    s).prot = s.prot ∧ (noteBucket old a b c s).mram = s.mram ∧ (noteBucket old a b c s).img = s.img ∧ (noteBucket old a
    b c s).host = s.host ∧ (noteBucket old a b c s).lat = s.lat ∧ (noteBucket old a b c s).acct = s.acct ∧ (noteBucket
    old a b c s).lk = s.lk ∧ (noteBucket old a b c s).tim = s.tim ∧ (noteBucket old a b c s).buf = s.buf ∧ (noteBucket
    old a b c s).eg = s.eg ∧ (noteBucket old a b c s).gen = s.gen ∧ (noteBucket old a b c s).eng = s.eng ∧ (noteBucket
    old a b c s).recd = s.recd ∧ (noteBucket old a b c s).pmu = s.pmu ∧ (noteBucket old a b c s).svc = s.svc ∧
    (noteBucket old a b c s).therm = s.therm ∧ (noteBucket old a b c s).regs = s.regs ∧ (noteBucket old a b c s).hmem =
    s.hmem ∧ (noteBucket old a b c s).now = s.now ∧ (noteBucket old a b c s).elapsed = s.elapsed ∧ (noteBucket old a b c
    s).free = s.free ∧ (noteBucket old a b c s).pending = s.pending := by
  intros; unfold noteBucket; first | ((repeat' split) <;> simp; done) | (dsimp only; (repeat' split) <;> simp [*]; done)

@[simp] theorem noteGroup_keeps : ∀ old a b s, (noteGroup old a b s).md = s.md ∧ (noteGroup old a b s).dev = s.dev ∧
    (noteGroup old a b s).pins = s.pins ∧ (noteGroup old a b s).side = s.side ∧ (noteGroup old a b s).prot = s.prot ∧
    (noteGroup old a b s).mram = s.mram ∧ (noteGroup old a b s).img = s.img ∧ (noteGroup old a b s).host = s.host ∧
    (noteGroup old a b s).lat = s.lat ∧ (noteGroup old a b s).acct = s.acct ∧ (noteGroup old a b s).lk = s.lk ∧
    (noteGroup old a b s).tim = s.tim ∧ (noteGroup old a b s).buf = s.buf ∧ (noteGroup old a b s).eg = s.eg ∧ (noteGroup
    old a b s).gen = s.gen ∧ (noteGroup old a b s).eng = s.eng ∧ (noteGroup old a b s).recd = s.recd ∧ (noteGroup old a
    b s).pmu = s.pmu ∧ (noteGroup old a b s).svc = s.svc ∧ (noteGroup old a b s).therm = s.therm ∧ (noteGroup old a b
    s).regs = s.regs ∧ (noteGroup old a b s).hmem = s.hmem ∧ (noteGroup old a b s).now = s.now ∧ (noteGroup old a b
    s).elapsed = s.elapsed ∧ (noteGroup old a b s).free = s.free ∧ (noteGroup old a b s).pending = s.pending := by
  intros; unfold noteGroup; first | ((repeat' split) <;> simp; done) | (dsimp only; (repeat' split) <;> simp [*]; done)

@[simp] theorem noteHops_keeps : ∀ old s, (noteHops old s).md = s.md ∧ (noteHops old s).dev = s.dev ∧ (noteHops old
    s).pins = s.pins ∧ (noteHops old s).side = s.side ∧ (noteHops old s).prot = s.prot ∧ (noteHops old s).mram = s.mram
    ∧ (noteHops old s).img = s.img ∧ (noteHops old s).host = s.host ∧ (noteHops old s).lat = s.lat ∧ (noteHops old
    s).acct = s.acct ∧ (noteHops old s).lk = s.lk ∧ (noteHops old s).tim = s.tim ∧ (noteHops old s).buf = s.buf ∧
    (noteHops old s).eg = s.eg ∧ (noteHops old s).gen = s.gen ∧ (noteHops old s).eng = s.eng ∧ (noteHops old s).recd =
    s.recd ∧ (noteHops old s).pmu = s.pmu ∧ (noteHops old s).svc = s.svc ∧ (noteHops old s).therm = s.therm ∧ (noteHops
    old s).regs = s.regs ∧ (noteHops old s).hmem = s.hmem ∧ (noteHops old s).now = s.now ∧ (noteHops old s).elapsed =
    s.elapsed ∧ (noteHops old s).free = s.free ∧ (noteHops old s).pending = s.pending := by
  intros; unfold noteHops; first | ((repeat' split) <;> simp; done) | (dsimp only; (repeat' split) <;> simp [*]; done)

@[simp] theorem noteEngines_keeps : ∀ old s, (noteEngines old s).md = s.md ∧ (noteEngines old s).dev = s.dev ∧
    (noteEngines old s).pins = s.pins ∧ (noteEngines old s).side = s.side ∧ (noteEngines old s).prot = s.prot ∧
    (noteEngines old s).mram = s.mram ∧ (noteEngines old s).img = s.img ∧ (noteEngines old s).host = s.host ∧
    (noteEngines old s).lat = s.lat ∧ (noteEngines old s).acct = s.acct ∧ (noteEngines old s).lk = s.lk ∧ (noteEngines
    old s).tim = s.tim ∧ (noteEngines old s).buf = s.buf ∧ (noteEngines old s).eg = s.eg ∧ (noteEngines old s).gen =
    s.gen ∧ (noteEngines old s).eng = s.eng ∧ (noteEngines old s).recd = s.recd ∧ (noteEngines old s).pmu = s.pmu ∧
    (noteEngines old s).svc = s.svc ∧ (noteEngines old s).therm = s.therm ∧ (noteEngines old s).regs = s.regs ∧
    (noteEngines old s).hmem = s.hmem ∧ (noteEngines old s).now = s.now ∧ (noteEngines old s).elapsed = s.elapsed ∧
    (noteEngines old s).free = s.free ∧ (noteEngines old s).pending = s.pending := by
  intros; unfold noteEngines; first | ((repeat' split) <;> simp; done) | (dsimp only; (repeat' split) <;> simp [*]; done)

@[simp] theorem noteChannels_keeps : ∀ old s, (noteChannels old s).md = s.md ∧ (noteChannels old s).dev = s.dev ∧
    (noteChannels old s).pins = s.pins ∧ (noteChannels old s).side = s.side ∧ (noteChannels old s).prot = s.prot ∧
    (noteChannels old s).mram = s.mram ∧ (noteChannels old s).img = s.img ∧ (noteChannels old s).host = s.host ∧
    (noteChannels old s).lat = s.lat ∧ (noteChannels old s).acct = s.acct ∧ (noteChannels old s).lk = s.lk ∧
    (noteChannels old s).tim = s.tim ∧ (noteChannels old s).buf = s.buf ∧ (noteChannels old s).eg = s.eg ∧ (noteChannels
    old s).gen = s.gen ∧ (noteChannels old s).eng = s.eng ∧ (noteChannels old s).recd = s.recd ∧ (noteChannels old
    s).pmu = s.pmu ∧ (noteChannels old s).svc = s.svc ∧ (noteChannels old s).therm = s.therm ∧ (noteChannels old s).regs
    = s.regs ∧ (noteChannels old s).hmem = s.hmem ∧ (noteChannels old s).now = s.now ∧ (noteChannels old s).elapsed =
    s.elapsed ∧ (noteChannels old s).free = s.free ∧ (noteChannels old s).pending = s.pending := by
  intros; unfold noteChannels; first | ((repeat' split) <;> simp; done) | (dsimp only; (repeat' split) <;> simp [*]; done)

@[simp] theorem moveBucket_keeps : ∀ a1 a2 a3 s, (moveBucket a1 a2 a3 s).md = s.md ∧ (moveBucket a1 a2 a3 s).dev = s.dev
    ∧ (moveBucket a1 a2 a3 s).pins = s.pins ∧ (moveBucket a1 a2 a3 s).side = s.side ∧ (moveBucket a1 a2 a3 s).prot =
    s.prot ∧ (moveBucket a1 a2 a3 s).mram = s.mram ∧ (moveBucket a1 a2 a3 s).img = s.img ∧ (moveBucket a1 a2 a3 s).lat =
    s.lat ∧ (moveBucket a1 a2 a3 s).acct = s.acct ∧ (moveBucket a1 a2 a3 s).lk = s.lk ∧ (moveBucket a1 a2 a3 s).tim =
    s.tim ∧ (moveBucket a1 a2 a3 s).buf = s.buf ∧ (moveBucket a1 a2 a3 s).eg = s.eg ∧ (moveBucket a1 a2 a3 s).gen =
    s.gen ∧ (moveBucket a1 a2 a3 s).eng = s.eng ∧ (moveBucket a1 a2 a3 s).recd = s.recd ∧ (moveBucket a1 a2 a3 s).pmu =
    s.pmu ∧ (moveBucket a1 a2 a3 s).svc = s.svc ∧ (moveBucket a1 a2 a3 s).therm = s.therm ∧ (moveBucket a1 a2 a3 s).hmem
    = s.hmem ∧ (moveBucket a1 a2 a3 s).now = s.now ∧ (moveBucket a1 a2 a3 s).elapsed = s.elapsed ∧ (moveBucket a1 a2 a3
    s).free = s.free ∧ (moveBucket a1 a2 a3 s).pending = s.pending := by
  intros; unfold moveBucket
  first
    | ((repeat' split) <;> simp; done)
    | (dsimp only; (repeat' split) <;> simp [*]; done)
    | ((repeat' apply And.intro) <;> dsimp only <;> (repeat' split) <;> simp [*]; done)

@[simp] theorem startVerify_keeps : ∀ a1 s, (startVerify a1 s).md = s.md ∧ (startVerify a1 s).dev = s.dev ∧ (startVerify
    a1 s).pins = s.pins ∧ (startVerify a1 s).side = s.side ∧ (startVerify a1 s).prot = s.prot ∧ (startVerify a1 s).mram
    = s.mram ∧ (startVerify a1 s).img = s.img ∧ (startVerify a1 s).host = s.host ∧ (startVerify a1 s).lat = s.lat ∧
    (startVerify a1 s).acct = s.acct ∧ (startVerify a1 s).tim = s.tim ∧ (startVerify a1 s).buf = s.buf ∧ (startVerify a1
    s).eg = s.eg ∧ (startVerify a1 s).tab = s.tab ∧ (startVerify a1 s).gen = s.gen ∧ (startVerify a1 s).eng = s.eng ∧
    (startVerify a1 s).recd = s.recd ∧ (startVerify a1 s).pmu = s.pmu ∧ (startVerify a1 s).svc = s.svc ∧ (startVerify a1
    s).therm = s.therm ∧ (startVerify a1 s).regs = s.regs ∧ (startVerify a1 s).hmem = s.hmem ∧ (startVerify a1 s).now =
    s.now ∧ (startVerify a1 s).elapsed = s.elapsed ∧ (startVerify a1 s).free = s.free ∧ (startVerify a1 s).pending =
    s.pending := by
  intros; unfold startVerify
  first
    | ((repeat' split) <;> simp; done)
    | (dsimp only; (repeat' split) <;> simp [*]; done)
    | ((repeat' apply And.intro) <;> dsimp only <;> (repeat' split) <;> simp [*]; done)

@[simp] theorem resendXoff_keeps : ∀ a1 s, (resendXoff a1 s).md = s.md ∧ (resendXoff a1 s).dev = s.dev ∧ (resendXoff a1
    s).pins = s.pins ∧ (resendXoff a1 s).side = s.side ∧ (resendXoff a1 s).prot = s.prot ∧ (resendXoff a1 s).mram =
    s.mram ∧ (resendXoff a1 s).img = s.img ∧ (resendXoff a1 s).host = s.host ∧ (resendXoff a1 s).lat = s.lat ∧
    (resendXoff a1 s).acct = s.acct ∧ (resendXoff a1 s).tim = s.tim ∧ (resendXoff a1 s).buf = s.buf ∧ (resendXoff a1
    s).eg = s.eg ∧ (resendXoff a1 s).tab = s.tab ∧ (resendXoff a1 s).gen = s.gen ∧ (resendXoff a1 s).eng = s.eng ∧
    (resendXoff a1 s).recd = s.recd ∧ (resendXoff a1 s).pmu = s.pmu ∧ (resendXoff a1 s).svc = s.svc ∧ (resendXoff a1
    s).therm = s.therm ∧ (resendXoff a1 s).regs = s.regs ∧ (resendXoff a1 s).hmem = s.hmem ∧ (resendXoff a1 s).now =
    s.now ∧ (resendXoff a1 s).elapsed = s.elapsed ∧ (resendXoff a1 s).free = s.free ∧ (resendXoff a1 s).pending =
    s.pending := by
  intros; unfold resendXoff
  first
    | ((repeat' split) <;> simp; done)
    | (dsimp only; (repeat' split) <;> simp [*]; done)
    | ((repeat' apply And.intro) <;> dsimp only <;> (repeat' split) <;> simp [*]; done)

@[simp] theorem portPauseAll_keeps : ∀ a1 a2 s, (portPauseAll a1 a2 s).md = s.md ∧ (portPauseAll a1 a2 s).dev = s.dev ∧
    (portPauseAll a1 a2 s).pins = s.pins ∧ (portPauseAll a1 a2 s).side = s.side ∧ (portPauseAll a1 a2 s).prot = s.prot ∧
    (portPauseAll a1 a2 s).mram = s.mram ∧ (portPauseAll a1 a2 s).img = s.img ∧ (portPauseAll a1 a2 s).host = s.host ∧
    (portPauseAll a1 a2 s).lat = s.lat ∧ (portPauseAll a1 a2 s).acct = s.acct ∧ (portPauseAll a1 a2 s).tim = s.tim ∧
    (portPauseAll a1 a2 s).buf = s.buf ∧ (portPauseAll a1 a2 s).eg = s.eg ∧ (portPauseAll a1 a2 s).tab = s.tab ∧
    (portPauseAll a1 a2 s).gen = s.gen ∧ (portPauseAll a1 a2 s).eng = s.eng ∧ (portPauseAll a1 a2 s).recd = s.recd ∧
    (portPauseAll a1 a2 s).pmu = s.pmu ∧ (portPauseAll a1 a2 s).svc = s.svc ∧ (portPauseAll a1 a2 s).therm = s.therm ∧
    (portPauseAll a1 a2 s).regs = s.regs ∧ (portPauseAll a1 a2 s).hmem = s.hmem ∧ (portPauseAll a1 a2 s).now = s.now ∧
    (portPauseAll a1 a2 s).elapsed = s.elapsed ∧ (portPauseAll a1 a2 s).free = s.free ∧ (portPauseAll a1 a2 s).pending =
    s.pending := by
  intros; unfold portPauseAll
  first
    | ((repeat' split) <;> simp; done)
    | (dsimp only; (repeat' split) <;> simp [*]; done)
    | ((repeat' apply And.intro) <;> dsimp only <;> (repeat' split) <;> simp [*]; done)

@[simp] theorem portUp_keeps : ∀ a1 s, (portUp a1 s).md = s.md ∧ (portUp a1 s).dev = s.dev ∧ (portUp a1 s).pins = s.pins
    ∧ (portUp a1 s).side = s.side ∧ (portUp a1 s).prot = s.prot ∧ (portUp a1 s).mram = s.mram ∧ (portUp a1 s).img =
    s.img ∧ (portUp a1 s).lat = s.lat ∧ (portUp a1 s).acct = s.acct ∧ (portUp a1 s).tim = s.tim ∧ (portUp a1 s).buf =
    s.buf ∧ (portUp a1 s).gen = s.gen ∧ (portUp a1 s).eng = s.eng ∧ (portUp a1 s).recd = s.recd ∧ (portUp a1 s).pmu =
    s.pmu ∧ (portUp a1 s).svc = s.svc ∧ (portUp a1 s).therm = s.therm ∧ (portUp a1 s).hmem = s.hmem ∧ (portUp a1 s).now
    = s.now ∧ (portUp a1 s).elapsed = s.elapsed ∧ (portUp a1 s).free = s.free ∧ (portUp a1 s).pending = s.pending := by
  intros; unfold portUp
  first
    | ((repeat' split) <;> simp; done)
    | (dsimp only; (repeat' split) <;> simp [*]; done)
    | ((repeat' apply And.intro) <;> dsimp only <;> (repeat' split) <;> simp [*]; done)

@[simp] theorem flushDown_keeps : ∀ a1 s, (flushDown a1 s).md = s.md ∧ (flushDown a1 s).dev = s.dev ∧ (flushDown a1
    s).pins = s.pins ∧ (flushDown a1 s).side = s.side ∧ (flushDown a1 s).prot = s.prot ∧ (flushDown a1 s).mram = s.mram
    ∧ (flushDown a1 s).img = s.img ∧ (flushDown a1 s).lat = s.lat ∧ (flushDown a1 s).tim = s.tim ∧ (flushDown a1 s).tab
    = s.tab ∧ (flushDown a1 s).gen = s.gen ∧ (flushDown a1 s).eng = s.eng ∧ (flushDown a1 s).svc = s.svc ∧ (flushDown a1
    s).therm = s.therm ∧ (flushDown a1 s).now = s.now ∧ (flushDown a1 s).elapsed = s.elapsed ∧ (flushDown a1 s).free =
    s.free ∧ (flushDown a1 s).pending = s.pending := by
  intros; unfold flushDown
  first
    | ((repeat' split) <;> simp; done)
    | (dsimp only; (repeat' split) <;> simp [*]; done)
    | ((repeat' apply And.intro) <;> dsimp only <;> (repeat' split) <;> simp [*]; done)

@[simp] theorem downQueues_keeps : ∀ a1 a2 s, (downQueues a1 a2 s).md = s.md ∧ (downQueues a1 a2 s).dev = s.dev ∧
    (downQueues a1 a2 s).pins = s.pins ∧ (downQueues a1 a2 s).side = s.side ∧ (downQueues a1 a2 s).prot = s.prot ∧
    (downQueues a1 a2 s).mram = s.mram ∧ (downQueues a1 a2 s).img = s.img ∧ (downQueues a1 a2 s).lat = s.lat ∧
    (downQueues a1 a2 s).tim = s.tim ∧ (downQueues a1 a2 s).tab = s.tab ∧ (downQueues a1 a2 s).gen = s.gen ∧ (downQueues
    a1 a2 s).eng = s.eng ∧ (downQueues a1 a2 s).svc = s.svc ∧ (downQueues a1 a2 s).therm = s.therm ∧ (downQueues a1 a2
    s).now = s.now ∧ (downQueues a1 a2 s).elapsed = s.elapsed ∧ (downQueues a1 a2 s).free = s.free ∧ (downQueues a1 a2
    s).pending = s.pending := by
  intros; unfold downQueues
  first
    | ((repeat' split) <;> simp; done)
    | (dsimp only; (repeat' split) <;> simp [*]; done)
    | ((repeat' apply And.intro) <;> dsimp only <;> (repeat' split) <;> simp [*]; done)

@[simp] theorem portFalls_keeps : ∀ a1 a2 s, (portFalls a1 a2 s).md = s.md ∧ (portFalls a1 a2 s).dev = s.dev ∧
    (portFalls a1 a2 s).pins = s.pins ∧ (portFalls a1 a2 s).side = s.side ∧ (portFalls a1 a2 s).prot = s.prot ∧
    (portFalls a1 a2 s).mram = s.mram ∧ (portFalls a1 a2 s).img = s.img ∧ (portFalls a1 a2 s).lat = s.lat ∧ (portFalls
    a1 a2 s).tim = s.tim ∧ (portFalls a1 a2 s).gen = s.gen ∧ (portFalls a1 a2 s).eng = s.eng ∧ (portFalls a1 a2 s).svc =
    s.svc ∧ (portFalls a1 a2 s).therm = s.therm ∧ (portFalls a1 a2 s).now = s.now ∧ (portFalls a1 a2 s).elapsed =
    s.elapsed ∧ (portFalls a1 a2 s).free = s.free ∧ (portFalls a1 a2 s).pending = s.pending := by
  intros; unfold portFalls
  first
    | ((repeat' split) <;> simp; done)
    | (dsimp only; (repeat' split) <;> simp [*]; done)
    | ((repeat' apply And.intro) <;> dsimp only <;> (repeat' split) <;> simp [*]; done)

@[simp] theorem portDown_keeps : ∀ a1 a2 s, (portDown a1 a2 s).md = s.md ∧ (portDown a1 a2 s).dev = s.dev ∧ (portDown a1
    a2 s).pins = s.pins ∧ (portDown a1 a2 s).side = s.side ∧ (portDown a1 a2 s).prot = s.prot ∧ (portDown a1 a2 s).mram
    = s.mram ∧ (portDown a1 a2 s).img = s.img ∧ (portDown a1 a2 s).lat = s.lat ∧ (portDown a1 a2 s).tim = s.tim ∧
    (portDown a1 a2 s).gen = s.gen ∧ (portDown a1 a2 s).eng = s.eng ∧ (portDown a1 a2 s).svc = s.svc ∧ (portDown a1 a2
    s).therm = s.therm ∧ (portDown a1 a2 s).now = s.now ∧ (portDown a1 a2 s).elapsed = s.elapsed ∧ (portDown a1 a2
    s).free = s.free ∧ (portDown a1 a2 s).pending = s.pending := by
  intros; unfold portDown
  first
    | ((repeat' split) <;> simp; done)
    | (dsimp only; (repeat' split) <;> simp [*]; done)
    | ((repeat' apply And.intro) <;> dsimp only <;> (repeat' split) <;> simp [*]; done)

@[simp] theorem noteGood_keeps : ∀ a1 s, (noteGood a1 s).md = s.md ∧ (noteGood a1 s).dev = s.dev ∧ (noteGood a1 s).pins
    = s.pins ∧ (noteGood a1 s).side = s.side ∧ (noteGood a1 s).prot = s.prot ∧ (noteGood a1 s).mram = s.mram ∧ (noteGood
    a1 s).img = s.img ∧ (noteGood a1 s).host = s.host ∧ (noteGood a1 s).lat = s.lat ∧ (noteGood a1 s).acct = s.acct ∧
    (noteGood a1 s).tim = s.tim ∧ (noteGood a1 s).buf = s.buf ∧ (noteGood a1 s).eg = s.eg ∧ (noteGood a1 s).tab = s.tab
    ∧ (noteGood a1 s).gen = s.gen ∧ (noteGood a1 s).eng = s.eng ∧ (noteGood a1 s).recd = s.recd ∧ (noteGood a1 s).pmu =
    s.pmu ∧ (noteGood a1 s).svc = s.svc ∧ (noteGood a1 s).therm = s.therm ∧ (noteGood a1 s).regs = s.regs ∧ (noteGood a1
    s).hmem = s.hmem ∧ (noteGood a1 s).now = s.now ∧ (noteGood a1 s).elapsed = s.elapsed ∧ (noteGood a1 s).free = s.free
    ∧ (noteGood a1 s).pending = s.pending := by
  intros; unfold noteGood
  first
    | ((repeat' split) <;> simp; done)
    | (dsimp only; (repeat' split) <;> simp [*]; done)
    | ((repeat' apply And.intro) <;> dsimp only <;> (repeat' split) <;> simp [*]; done)

@[simp] theorem linkEval_keeps : ∀ a1 s, (linkEval a1 s).md = s.md ∧ (linkEval a1 s).dev = s.dev ∧ (linkEval a1 s).pins
    = s.pins ∧ (linkEval a1 s).side = s.side ∧ (linkEval a1 s).prot = s.prot ∧ (linkEval a1 s).mram = s.mram ∧ (linkEval
    a1 s).img = s.img ∧ (linkEval a1 s).lat = s.lat ∧ (linkEval a1 s).tim = s.tim ∧ (linkEval a1 s).gen = s.gen ∧
    (linkEval a1 s).eng = s.eng ∧ (linkEval a1 s).svc = s.svc ∧ (linkEval a1 s).therm = s.therm ∧ (linkEval a1 s).now =
    s.now ∧ (linkEval a1 s).elapsed = s.elapsed ∧ (linkEval a1 s).free = s.free ∧ (linkEval a1 s).pending = s.pending :=
    by
  intros; unfold linkEval
  first
    | ((repeat' split) <;> simp; done)
    | (dsimp only; (repeat' split) <;> simp [*]; done)
    | ((repeat' apply And.intro) <;> dsimp only <;> (repeat' split) <;> simp [*]; done)

@[simp] theorem quadEval_keeps : ∀ a1 s, (quadEval a1 s).md = s.md ∧ (quadEval a1 s).dev = s.dev ∧ (quadEval a1 s).pins
    = s.pins ∧ (quadEval a1 s).side = s.side ∧ (quadEval a1 s).prot = s.prot ∧ (quadEval a1 s).mram = s.mram ∧ (quadEval
    a1 s).img = s.img ∧ (quadEval a1 s).lat = s.lat ∧ (quadEval a1 s).tim = s.tim ∧ (quadEval a1 s).gen = s.gen ∧
    (quadEval a1 s).eng = s.eng ∧ (quadEval a1 s).svc = s.svc ∧ (quadEval a1 s).therm = s.therm ∧ (quadEval a1 s).now =
    s.now ∧ (quadEval a1 s).elapsed = s.elapsed ∧ (quadEval a1 s).free = s.free ∧ (quadEval a1 s).pending = s.pending :=
    by
  intros; unfold quadEval
  first
    | ((repeat' split) <;> simp; done)
    | (dsimp only; (repeat' split) <;> simp [*]; done)
    | ((repeat' apply And.intro) <;> dsimp only <;> (repeat' split) <;> simp [*]; done)

@[simp] theorem linksEval_keeps : ∀ s, (linksEval s).md = s.md ∧ (linksEval s).dev = s.dev ∧ (linksEval s).pins = s.pins
    ∧ (linksEval s).side = s.side ∧ (linksEval s).prot = s.prot ∧ (linksEval s).mram = s.mram ∧ (linksEval s).img =
    s.img ∧ (linksEval s).lat = s.lat ∧ (linksEval s).tim = s.tim ∧ (linksEval s).gen = s.gen ∧ (linksEval s).eng =
    s.eng ∧ (linksEval s).svc = s.svc ∧ (linksEval s).therm = s.therm ∧ (linksEval s).now = s.now ∧ (linksEval
    s).elapsed = s.elapsed ∧ (linksEval s).free = s.free ∧ (linksEval s).pending = s.pending := by
  intros; unfold linksEval
  first
    | ((repeat' split) <;> simp; done)
    | (dsimp only; (repeat' split) <;> simp [*]; done)
    | ((repeat' apply And.intro) <;> dsimp only <;> (repeat' split) <;> simp [*]; done)

@[simp] theorem portsXoff_keeps : ∀ s, (portsXoff s).md = s.md ∧ (portsXoff s).dev = s.dev ∧ (portsXoff s).pins = s.pins
    ∧ (portsXoff s).side = s.side ∧ (portsXoff s).prot = s.prot ∧ (portsXoff s).mram = s.mram ∧ (portsXoff s).img =
    s.img ∧ (portsXoff s).host = s.host ∧ (portsXoff s).lat = s.lat ∧ (portsXoff s).acct = s.acct ∧ (portsXoff s).tim =
    s.tim ∧ (portsXoff s).buf = s.buf ∧ (portsXoff s).eg = s.eg ∧ (portsXoff s).tab = s.tab ∧ (portsXoff s).gen = s.gen
    ∧ (portsXoff s).eng = s.eng ∧ (portsXoff s).recd = s.recd ∧ (portsXoff s).pmu = s.pmu ∧ (portsXoff s).svc = s.svc ∧
    (portsXoff s).therm = s.therm ∧ (portsXoff s).regs = s.regs ∧ (portsXoff s).hmem = s.hmem ∧ (portsXoff s).now =
    s.now ∧ (portsXoff s).elapsed = s.elapsed ∧ (portsXoff s).free = s.free ∧ (portsXoff s).pending = s.pending := by
  intros; unfold portsXoff
  first
    | ((repeat' split) <;> simp; done)
    | (dsimp only; (repeat' split) <;> simp [*]; done)
    | ((repeat' apply And.intro) <;> dsimp only <;> (repeat' split) <;> simp [*]; done)

@[simp] theorem portsXon_keeps : ∀ s, (portsXon s).md = s.md ∧ (portsXon s).dev = s.dev ∧ (portsXon s).pins = s.pins ∧
    (portsXon s).side = s.side ∧ (portsXon s).prot = s.prot ∧ (portsXon s).mram = s.mram ∧ (portsXon s).img = s.img ∧
    (portsXon s).host = s.host ∧ (portsXon s).lat = s.lat ∧ (portsXon s).acct = s.acct ∧ (portsXon s).tim = s.tim ∧
    (portsXon s).buf = s.buf ∧ (portsXon s).eg = s.eg ∧ (portsXon s).tab = s.tab ∧ (portsXon s).gen = s.gen ∧ (portsXon
    s).eng = s.eng ∧ (portsXon s).recd = s.recd ∧ (portsXon s).pmu = s.pmu ∧ (portsXon s).svc = s.svc ∧ (portsXon
    s).therm = s.therm ∧ (portsXon s).regs = s.regs ∧ (portsXon s).hmem = s.hmem ∧ (portsXon s).now = s.now ∧ (portsXon
    s).elapsed = s.elapsed ∧ (portsXon s).free = s.free ∧ (portsXon s).pending = s.pending := by
  intros; unfold portsXon
  first
    | ((repeat' split) <;> simp; done)
    | (dsimp only; (repeat' split) <;> simp [*]; done)
    | ((repeat' apply And.intro) <;> dsimp only <;> (repeat' split) <;> simp [*]; done)

@[simp] theorem linksDown_keeps : ∀ s, (linksDown s).md = s.md ∧ (linksDown s).dev = s.dev ∧ (linksDown s).pins = s.pins
    ∧ (linksDown s).side = s.side ∧ (linksDown s).prot = s.prot ∧ (linksDown s).mram = s.mram ∧ (linksDown s).img =
    s.img ∧ (linksDown s).lat = s.lat ∧ (linksDown s).tim = s.tim ∧ (linksDown s).gen = s.gen ∧ (linksDown s).eng =
    s.eng ∧ (linksDown s).svc = s.svc ∧ (linksDown s).therm = s.therm ∧ (linksDown s).now = s.now ∧ (linksDown
    s).elapsed = s.elapsed ∧ (linksDown s).free = s.free ∧ (linksDown s).pending = s.pending := by
  intros; unfold linksDown
  first
    | ((repeat' split) <;> simp; done)
    | (dsimp only; (repeat' split) <;> simp [*]; done)
    | ((repeat' apply And.intro) <;> dsimp only <;> (repeat' split) <;> simp [*]; done)

@[simp] theorem ptpSkip_keeps : ∀ a1 s, (ptpSkip a1 s).md = s.md ∧ (ptpSkip a1 s).dev = s.dev ∧ (ptpSkip a1 s).pins =
    s.pins ∧ (ptpSkip a1 s).side = s.side ∧ (ptpSkip a1 s).prot = s.prot ∧ (ptpSkip a1 s).mram = s.mram ∧ (ptpSkip a1
    s).img = s.img ∧ (ptpSkip a1 s).host = s.host ∧ (ptpSkip a1 s).lat = s.lat ∧ (ptpSkip a1 s).acct = s.acct ∧ (ptpSkip
    a1 s).lk = s.lk ∧ (ptpSkip a1 s).tim = s.tim ∧ (ptpSkip a1 s).buf = s.buf ∧ (ptpSkip a1 s).eg = s.eg ∧ (ptpSkip a1
    s).tab = s.tab ∧ (ptpSkip a1 s).gen = s.gen ∧ (ptpSkip a1 s).eng = s.eng ∧ (ptpSkip a1 s).recd = s.recd ∧ (ptpSkip
    a1 s).pmu = s.pmu ∧ (ptpSkip a1 s).svc = s.svc ∧ (ptpSkip a1 s).therm = s.therm ∧ (ptpSkip a1 s).hmem = s.hmem ∧
    (ptpSkip a1 s).now = s.now ∧ (ptpSkip a1 s).elapsed = s.elapsed ∧ (ptpSkip a1 s).free = s.free ∧ (ptpSkip a1
    s).pending = s.pending := by
  intros; unfold ptpSkip
  first
    | ((repeat' split) <;> simp; done)
    | (dsimp only; (repeat' split) <;> simp [*]; done)
    | ((repeat' apply And.intro) <;> dsimp only <;> (repeat' split) <;> simp [*]; done)

@[simp] theorem stampCopy_keeps : ∀ a1 a2 a3 a4 s, (stampCopy a1 a2 a3 a4 s).md = s.md ∧ (stampCopy a1 a2 a3 a4 s).dev =
    s.dev ∧ (stampCopy a1 a2 a3 a4 s).pins = s.pins ∧ (stampCopy a1 a2 a3 a4 s).side = s.side ∧ (stampCopy a1 a2 a3 a4
    s).prot = s.prot ∧ (stampCopy a1 a2 a3 a4 s).mram = s.mram ∧ (stampCopy a1 a2 a3 a4 s).img = s.img ∧ (stampCopy a1
    a2 a3 a4 s).lat = s.lat ∧ (stampCopy a1 a2 a3 a4 s).acct = s.acct ∧ (stampCopy a1 a2 a3 a4 s).lk = s.lk ∧ (stampCopy
    a1 a2 a3 a4 s).eg = s.eg ∧ (stampCopy a1 a2 a3 a4 s).tab = s.tab ∧ (stampCopy a1 a2 a3 a4 s).gen = s.gen ∧
    (stampCopy a1 a2 a3 a4 s).eng = s.eng ∧ (stampCopy a1 a2 a3 a4 s).recd = s.recd ∧ (stampCopy a1 a2 a3 a4 s).pmu =
    s.pmu ∧ (stampCopy a1 a2 a3 a4 s).svc = s.svc ∧ (stampCopy a1 a2 a3 a4 s).therm = s.therm ∧ (stampCopy a1 a2 a3 a4
    s).hmem = s.hmem ∧ (stampCopy a1 a2 a3 a4 s).now = s.now ∧ (stampCopy a1 a2 a3 a4 s).elapsed = s.elapsed ∧
    (stampCopy a1 a2 a3 a4 s).free = s.free ∧ (stampCopy a1 a2 a3 a4 s).pending = s.pending := by
  intros; unfold stampCopy
  first
    | ((repeat' split) <;> simp; done)
    | (dsimp only; (repeat' split) <;> simp [*]; done)
    | ((repeat' apply And.intro) <;> dsimp only <;> (repeat' split) <;> simp [*]; done)

@[simp] theorem memSeen_keeps : ∀ a1 a2 s, (memSeen a1 a2 s).md = s.md ∧ (memSeen a1 a2 s).dev = s.dev ∧ (memSeen a1 a2
    s).pins = s.pins ∧ (memSeen a1 a2 s).side = s.side ∧ (memSeen a1 a2 s).prot = s.prot ∧ (memSeen a1 a2 s).mram =
    s.mram ∧ (memSeen a1 a2 s).img = s.img ∧ (memSeen a1 a2 s).host = s.host ∧ (memSeen a1 a2 s).lat = s.lat ∧ (memSeen
    a1 a2 s).acct = s.acct ∧ (memSeen a1 a2 s).lk = s.lk ∧ (memSeen a1 a2 s).tim = s.tim ∧ (memSeen a1 a2 s).buf = s.buf
    ∧ (memSeen a1 a2 s).eg = s.eg ∧ (memSeen a1 a2 s).tab = s.tab ∧ (memSeen a1 a2 s).gen = s.gen ∧ (memSeen a1 a2
    s).eng = s.eng ∧ (memSeen a1 a2 s).recd = s.recd ∧ (memSeen a1 a2 s).pmu = s.pmu ∧ (memSeen a1 a2 s).svc = s.svc ∧
    (memSeen a1 a2 s).therm = s.therm ∧ (memSeen a1 a2 s).hmem = s.hmem ∧ (memSeen a1 a2 s).now = s.now ∧ (memSeen a1 a2
    s).elapsed = s.elapsed ∧ (memSeen a1 a2 s).free = s.free ∧ (memSeen a1 a2 s).pending = s.pending := by
  intros; unfold memSeen
  first
    | ((repeat' split) <;> simp; done)
    | (dsimp only; (repeat' split) <;> simp [*]; done)
    | ((repeat' apply And.intro) <;> dsimp only <;> (repeat' split) <;> simp [*]; done)

@[simp] theorem parityFound_keeps : ∀ a1 a2 a3 s, (parityFound a1 a2 a3 s).md = s.md ∧ (parityFound a1 a2 a3 s).dev =
    s.dev ∧ (parityFound a1 a2 a3 s).pins = s.pins ∧ (parityFound a1 a2 a3 s).side = s.side ∧ (parityFound a1 a2 a3
    s).prot = s.prot ∧ (parityFound a1 a2 a3 s).mram = s.mram ∧ (parityFound a1 a2 a3 s).img = s.img ∧ (parityFound a1
    a2 a3 s).lat = s.lat ∧ (parityFound a1 a2 a3 s).acct = s.acct ∧ (parityFound a1 a2 a3 s).lk = s.lk ∧ (parityFound a1
    a2 a3 s).tim = s.tim ∧ (parityFound a1 a2 a3 s).buf = s.buf ∧ (parityFound a1 a2 a3 s).eg = s.eg ∧ (parityFound a1
    a2 a3 s).gen = s.gen ∧ (parityFound a1 a2 a3 s).eng = s.eng ∧ (parityFound a1 a2 a3 s).recd = s.recd ∧ (parityFound
    a1 a2 a3 s).pmu = s.pmu ∧ (parityFound a1 a2 a3 s).svc = s.svc ∧ (parityFound a1 a2 a3 s).therm = s.therm ∧
    (parityFound a1 a2 a3 s).hmem = s.hmem ∧ (parityFound a1 a2 a3 s).now = s.now ∧ (parityFound a1 a2 a3 s).elapsed =
    s.elapsed ∧ (parityFound a1 a2 a3 s).free = s.free ∧ (parityFound a1 a2 a3 s).pending = s.pending := by
  intros; unfold parityFound
  first
    | ((repeat' split) <;> simp; done)
    | (dsimp only; (repeat' split) <;> simp [*]; done)
    | ((repeat' apply And.intro) <;> dsimp only <;> (repeat' split) <;> simp [*]; done)

@[simp] theorem setFilter_keeps : ∀ a1 a2 s, (setFilter a1 a2 s).md = s.md ∧ (setFilter a1 a2 s).dev = s.dev ∧
    (setFilter a1 a2 s).pins = s.pins ∧ (setFilter a1 a2 s).side = s.side ∧ (setFilter a1 a2 s).prot = s.prot ∧
    (setFilter a1 a2 s).mram = s.mram ∧ (setFilter a1 a2 s).img = s.img ∧ (setFilter a1 a2 s).host = s.host ∧ (setFilter
    a1 a2 s).lat = s.lat ∧ (setFilter a1 a2 s).acct = s.acct ∧ (setFilter a1 a2 s).lk = s.lk ∧ (setFilter a1 a2 s).tim =
    s.tim ∧ (setFilter a1 a2 s).buf = s.buf ∧ (setFilter a1 a2 s).eg = s.eg ∧ (setFilter a1 a2 s).gen = s.gen ∧
    (setFilter a1 a2 s).eng = s.eng ∧ (setFilter a1 a2 s).recd = s.recd ∧ (setFilter a1 a2 s).pmu = s.pmu ∧ (setFilter
    a1 a2 s).svc = s.svc ∧ (setFilter a1 a2 s).therm = s.therm ∧ (setFilter a1 a2 s).regs = s.regs ∧ (setFilter a1 a2
    s).hmem = s.hmem ∧ (setFilter a1 a2 s).now = s.now ∧ (setFilter a1 a2 s).elapsed = s.elapsed ∧ (setFilter a1 a2
    s).free = s.free ∧ (setFilter a1 a2 s).pending = s.pending := by
  intros; unfold setFilter
  first
    | ((repeat' split) <;> simp; done)
    | (dsimp only; (repeat' split) <;> simp [*]; done)
    | ((repeat' apply And.intro) <;> dsimp only <;> (repeat' split) <;> simp [*]; done)

@[simp] theorem setSgate_keeps : ∀ a1 a2 s, (setSgate a1 a2 s).md = s.md ∧ (setSgate a1 a2 s).dev = s.dev ∧ (setSgate a1
    a2 s).pins = s.pins ∧ (setSgate a1 a2 s).side = s.side ∧ (setSgate a1 a2 s).prot = s.prot ∧ (setSgate a1 a2 s).mram
    = s.mram ∧ (setSgate a1 a2 s).img = s.img ∧ (setSgate a1 a2 s).host = s.host ∧ (setSgate a1 a2 s).lat = s.lat ∧
    (setSgate a1 a2 s).acct = s.acct ∧ (setSgate a1 a2 s).lk = s.lk ∧ (setSgate a1 a2 s).tim = s.tim ∧ (setSgate a1 a2
    s).buf = s.buf ∧ (setSgate a1 a2 s).eg = s.eg ∧ (setSgate a1 a2 s).gen = s.gen ∧ (setSgate a1 a2 s).eng = s.eng ∧
    (setSgate a1 a2 s).recd = s.recd ∧ (setSgate a1 a2 s).pmu = s.pmu ∧ (setSgate a1 a2 s).svc = s.svc ∧ (setSgate a1 a2
    s).therm = s.therm ∧ (setSgate a1 a2 s).regs = s.regs ∧ (setSgate a1 a2 s).hmem = s.hmem ∧ (setSgate a1 a2 s).now =
    s.now ∧ (setSgate a1 a2 s).elapsed = s.elapsed ∧ (setSgate a1 a2 s).free = s.free ∧ (setSgate a1 a2 s).pending =
    s.pending := by
  intros; unfold setSgate
  first
    | ((repeat' split) <;> simp; done)
    | (dsimp only; (repeat' split) <;> simp [*]; done)
    | ((repeat' apply And.intro) <;> dsimp only <;> (repeat' split) <;> simp [*]; done)

@[simp] theorem setRecovery_keeps : ∀ a1 a2 s, (setRecovery a1 a2 s).md = s.md ∧ (setRecovery a1 a2 s).dev = s.dev ∧
    (setRecovery a1 a2 s).pins = s.pins ∧ (setRecovery a1 a2 s).side = s.side ∧ (setRecovery a1 a2 s).prot = s.prot ∧
    (setRecovery a1 a2 s).mram = s.mram ∧ (setRecovery a1 a2 s).img = s.img ∧ (setRecovery a1 a2 s).host = s.host ∧
    (setRecovery a1 a2 s).lat = s.lat ∧ (setRecovery a1 a2 s).acct = s.acct ∧ (setRecovery a1 a2 s).lk = s.lk ∧
    (setRecovery a1 a2 s).tim = s.tim ∧ (setRecovery a1 a2 s).buf = s.buf ∧ (setRecovery a1 a2 s).eg = s.eg ∧
    (setRecovery a1 a2 s).gen = s.gen ∧ (setRecovery a1 a2 s).eng = s.eng ∧ (setRecovery a1 a2 s).recd = s.recd ∧
    (setRecovery a1 a2 s).pmu = s.pmu ∧ (setRecovery a1 a2 s).svc = s.svc ∧ (setRecovery a1 a2 s).therm = s.therm ∧
    (setRecovery a1 a2 s).regs = s.regs ∧ (setRecovery a1 a2 s).hmem = s.hmem ∧ (setRecovery a1 a2 s).now = s.now ∧
    (setRecovery a1 a2 s).elapsed = s.elapsed ∧ (setRecovery a1 a2 s).free = s.free ∧ (setRecovery a1 a2 s).pending =
    s.pending := by
  intros; unfold setRecovery
  first
    | ((repeat' split) <;> simp; done)
    | (dsimp only; (repeat' split) <;> simp [*]; done)
    | ((repeat' apply And.intro) <;> dsimp only <;> (repeat' split) <;> simp [*]; done)

@[simp] theorem setMeter_keeps : ∀ a1 a2 s, (setMeter a1 a2 s).md = s.md ∧ (setMeter a1 a2 s).dev = s.dev ∧ (setMeter a1
    a2 s).pins = s.pins ∧ (setMeter a1 a2 s).side = s.side ∧ (setMeter a1 a2 s).prot = s.prot ∧ (setMeter a1 a2 s).mram
    = s.mram ∧ (setMeter a1 a2 s).img = s.img ∧ (setMeter a1 a2 s).host = s.host ∧ (setMeter a1 a2 s).lat = s.lat ∧
    (setMeter a1 a2 s).acct = s.acct ∧ (setMeter a1 a2 s).lk = s.lk ∧ (setMeter a1 a2 s).tim = s.tim ∧ (setMeter a1 a2
    s).buf = s.buf ∧ (setMeter a1 a2 s).eg = s.eg ∧ (setMeter a1 a2 s).gen = s.gen ∧ (setMeter a1 a2 s).eng = s.eng ∧
    (setMeter a1 a2 s).recd = s.recd ∧ (setMeter a1 a2 s).pmu = s.pmu ∧ (setMeter a1 a2 s).svc = s.svc ∧ (setMeter a1 a2
    s).therm = s.therm ∧ (setMeter a1 a2 s).regs = s.regs ∧ (setMeter a1 a2 s).hmem = s.hmem ∧ (setMeter a1 a2 s).now =
    s.now ∧ (setMeter a1 a2 s).elapsed = s.elapsed ∧ (setMeter a1 a2 s).free = s.free ∧ (setMeter a1 a2 s).pending =
    s.pending := by
  intros; unfold setMeter
  first
    | ((repeat' split) <;> simp; done)
    | (dsimp only; (repeat' split) <;> simp [*]; done)
    | ((repeat' apply And.intro) <;> dsimp only <;> (repeat' split) <;> simp [*]; done)

@[simp] theorem noteHeadgates_keeps : ∀ old s, (noteHeadgates old s).md = s.md ∧ (noteHeadgates old s).dev = s.dev ∧
    (noteHeadgates old s).pins = s.pins ∧ (noteHeadgates old s).side = s.side ∧ (noteHeadgates old s).prot = s.prot ∧
    (noteHeadgates old s).mram = s.mram ∧ (noteHeadgates old s).img = s.img ∧ (noteHeadgates old s).host = s.host ∧
    (noteHeadgates old s).lat = s.lat ∧ (noteHeadgates old s).acct = s.acct ∧ (noteHeadgates old s).lk = s.lk ∧
    (noteHeadgates old s).tim = s.tim ∧ (noteHeadgates old s).buf = s.buf ∧ (noteHeadgates old s).eg = s.eg ∧
    (noteHeadgates old s).gen = s.gen ∧ (noteHeadgates old s).eng = s.eng ∧ (noteHeadgates old s).recd = s.recd ∧
    (noteHeadgates old s).pmu = s.pmu ∧ (noteHeadgates old s).svc = s.svc ∧ (noteHeadgates old s).therm = s.therm ∧
    (noteHeadgates old s).regs = s.regs ∧ (noteHeadgates old s).hmem = s.hmem ∧ (noteHeadgates old s).now = s.now ∧
    (noteHeadgates old s).elapsed = s.elapsed ∧ (noteHeadgates old s).free = s.free ∧ (noteHeadgates old s).pending =
    s.pending := by
  intros; simp [noteHeadgates]

@[simp] theorem wipeSecrets_keeps : ∀ a1 s, (wipeSecrets a1 s).md = s.md ∧ (wipeSecrets a1 s).dev = s.dev ∧ (wipeSecrets
    a1 s).pins = s.pins ∧ (wipeSecrets a1 s).img = s.img ∧ (wipeSecrets a1 s).host = s.host ∧ (wipeSecrets a1 s).lat =
    s.lat ∧ (wipeSecrets a1 s).acct = s.acct ∧ (wipeSecrets a1 s).lk = s.lk ∧ (wipeSecrets a1 s).tim = s.tim ∧
    (wipeSecrets a1 s).buf = s.buf ∧ (wipeSecrets a1 s).eg = s.eg ∧ (wipeSecrets a1 s).tab = s.tab ∧ (wipeSecrets a1
    s).gen = s.gen ∧ (wipeSecrets a1 s).eng = s.eng ∧ (wipeSecrets a1 s).recd = s.recd ∧ (wipeSecrets a1 s).pmu = s.pmu
    ∧ (wipeSecrets a1 s).svc = s.svc ∧ (wipeSecrets a1 s).therm = s.therm ∧ (wipeSecrets a1 s).hmem = s.hmem ∧
    (wipeSecrets a1 s).now = s.now ∧ (wipeSecrets a1 s).elapsed = s.elapsed ∧ (wipeSecrets a1 s).free = s.free ∧
    (wipeSecrets a1 s).pending = s.pending := by
  intros; unfold wipeSecrets
  first
    | ((repeat' split) <;> simp; done)
    | (dsimp only; (repeat' split) <;> simp [*]; done)
    | ((repeat' apply And.intro) <;> dsimp only <;> (repeat' split) <;> simp [*]; done)

@[simp] theorem recordZeroisation_keeps : ∀ a1 a2 a3 s, (recordZeroisation a1 a2 a3 s).md = s.md ∧ (recordZeroisation a1
    a2 a3 s).dev = s.dev ∧ (recordZeroisation a1 a2 a3 s).pins = s.pins ∧ (recordZeroisation a1 a2 a3 s).side = s.side ∧
    (recordZeroisation a1 a2 a3 s).img = s.img ∧ (recordZeroisation a1 a2 a3 s).host = s.host ∧ (recordZeroisation a1 a2
    a3 s).lat = s.lat ∧ (recordZeroisation a1 a2 a3 s).acct = s.acct ∧ (recordZeroisation a1 a2 a3 s).lk = s.lk ∧
    (recordZeroisation a1 a2 a3 s).tim = s.tim ∧ (recordZeroisation a1 a2 a3 s).buf = s.buf ∧ (recordZeroisation a1 a2
    a3 s).eg = s.eg ∧ (recordZeroisation a1 a2 a3 s).tab = s.tab ∧ (recordZeroisation a1 a2 a3 s).gen = s.gen ∧
    (recordZeroisation a1 a2 a3 s).eng = s.eng ∧ (recordZeroisation a1 a2 a3 s).recd = s.recd ∧ (recordZeroisation a1 a2
    a3 s).pmu = s.pmu ∧ (recordZeroisation a1 a2 a3 s).svc = s.svc ∧ (recordZeroisation a1 a2 a3 s).therm = s.therm ∧
    (recordZeroisation a1 a2 a3 s).regs = s.regs ∧ (recordZeroisation a1 a2 a3 s).hmem = s.hmem ∧ (recordZeroisation a1
    a2 a3 s).now = s.now ∧ (recordZeroisation a1 a2 a3 s).elapsed = s.elapsed ∧ (recordZeroisation a1 a2 a3 s).free =
    s.free ∧ (recordZeroisation a1 a2 a3 s).pending = s.pending := by
  intros; unfold recordZeroisation
  first
    | ((repeat' split) <;> simp; done)
    | (dsimp only; (repeat' split) <;> simp [*]; done)
    | ((repeat' apply And.intro) <;> dsimp only <;> (repeat' split) <;> simp [*]; done)

@[simp] theorem zeroise_keeps : ∀ a1 a2 a3 s, (zeroise a1 a2 a3 s).md = s.md ∧ (zeroise a1 a2 a3 s).dev = s.dev ∧
    (zeroise a1 a2 a3 s).pins = s.pins ∧ (zeroise a1 a2 a3 s).img = s.img ∧ (zeroise a1 a2 a3 s).lat = s.lat ∧ (zeroise
    a1 a2 a3 s).acct = s.acct ∧ (zeroise a1 a2 a3 s).lk = s.lk ∧ (zeroise a1 a2 a3 s).tim = s.tim ∧ (zeroise a1 a2 a3
    s).buf = s.buf ∧ (zeroise a1 a2 a3 s).eg = s.eg ∧ (zeroise a1 a2 a3 s).tab = s.tab ∧ (zeroise a1 a2 a3 s).gen =
    s.gen ∧ (zeroise a1 a2 a3 s).eng = s.eng ∧ (zeroise a1 a2 a3 s).pmu = s.pmu ∧ (zeroise a1 a2 a3 s).svc = s.svc ∧
    (zeroise a1 a2 a3 s).therm = s.therm ∧ (zeroise a1 a2 a3 s).hmem = s.hmem ∧ (zeroise a1 a2 a3 s).now = s.now ∧
    (zeroise a1 a2 a3 s).elapsed = s.elapsed ∧ (zeroise a1 a2 a3 s).free = s.free ∧ (zeroise a1 a2 a3 s).pending =
    s.pending := by
  intros; unfold zeroise
  first
    | ((repeat' split) <;> simp; done)
    | (dsimp only; (repeat' split) <;> simp [*]; done)
    | ((repeat' apply And.intro) <;> dsimp only <;> (repeat' split) <;> simp [*]; done)

@[simp] theorem openDebug_keeps : ∀ a1 a2 s, (openDebug a1 a2 s).md = s.md ∧ (openDebug a1 a2 s).dev = s.dev ∧
    (openDebug a1 a2 s).pins = s.pins ∧ (openDebug a1 a2 s).side = s.side ∧ (openDebug a1 a2 s).mram = s.mram ∧
    (openDebug a1 a2 s).img = s.img ∧ (openDebug a1 a2 s).host = s.host ∧ (openDebug a1 a2 s).lat = s.lat ∧ (openDebug
    a1 a2 s).acct = s.acct ∧ (openDebug a1 a2 s).lk = s.lk ∧ (openDebug a1 a2 s).tim = s.tim ∧ (openDebug a1 a2 s).buf =
    s.buf ∧ (openDebug a1 a2 s).eg = s.eg ∧ (openDebug a1 a2 s).tab = s.tab ∧ (openDebug a1 a2 s).gen = s.gen ∧
    (openDebug a1 a2 s).eng = s.eng ∧ (openDebug a1 a2 s).recd = s.recd ∧ (openDebug a1 a2 s).pmu = s.pmu ∧ (openDebug
    a1 a2 s).svc = s.svc ∧ (openDebug a1 a2 s).therm = s.therm ∧ (openDebug a1 a2 s).regs = s.regs ∧ (openDebug a1 a2
    s).hmem = s.hmem ∧ (openDebug a1 a2 s).now = s.now ∧ (openDebug a1 a2 s).elapsed = s.elapsed ∧ (openDebug a1 a2
    s).free = s.free ∧ (openDebug a1 a2 s).pending = s.pending := by
  intros; unfold openDebug
  first
    | ((repeat' split) <;> simp; done)
    | (dsimp only; (repeat' split) <;> simp [*]; done)
    | ((repeat' apply And.intro) <;> dsimp only <;> (repeat' split) <;> simp [*]; done)

@[simp] theorem setResult_keeps : ∀ a1 s, (setResult a1 s).md = s.md ∧ (setResult a1 s).dev = s.dev ∧ (setResult a1
    s).pins = s.pins ∧ (setResult a1 s).side = s.side ∧ (setResult a1 s).mram = s.mram ∧ (setResult a1 s).img = s.img ∧
    (setResult a1 s).host = s.host ∧ (setResult a1 s).lat = s.lat ∧ (setResult a1 s).acct = s.acct ∧ (setResult a1 s).lk
    = s.lk ∧ (setResult a1 s).tim = s.tim ∧ (setResult a1 s).buf = s.buf ∧ (setResult a1 s).eg = s.eg ∧ (setResult a1
    s).tab = s.tab ∧ (setResult a1 s).gen = s.gen ∧ (setResult a1 s).eng = s.eng ∧ (setResult a1 s).recd = s.recd ∧
    (setResult a1 s).pmu = s.pmu ∧ (setResult a1 s).svc = s.svc ∧ (setResult a1 s).therm = s.therm ∧ (setResult a1
    s).regs = s.regs ∧ (setResult a1 s).hmem = s.hmem ∧ (setResult a1 s).now = s.now ∧ (setResult a1 s).elapsed =
    s.elapsed ∧ (setResult a1 s).free = s.free ∧ (setResult a1 s).pending = s.pending := by
  intros; unfold setResult
  first
    | ((repeat' split) <;> simp; done)
    | (dsimp only; (repeat' split) <;> simp [*]; done)
    | ((repeat' apply And.intro) <;> dsimp only <;> (repeat' split) <;> simp [*]; done)

@[simp] theorem dropPending_keeps : ∀ s, (dropPending s).md = s.md ∧ (dropPending s).dev = s.dev ∧ (dropPending s).pins
    = s.pins ∧ (dropPending s).side = s.side ∧ (dropPending s).mram = s.mram ∧ (dropPending s).img = s.img ∧
    (dropPending s).host = s.host ∧ (dropPending s).lat = s.lat ∧ (dropPending s).acct = s.acct ∧ (dropPending s).lk =
    s.lk ∧ (dropPending s).tim = s.tim ∧ (dropPending s).buf = s.buf ∧ (dropPending s).eg = s.eg ∧ (dropPending s).tab =
    s.tab ∧ (dropPending s).gen = s.gen ∧ (dropPending s).eng = s.eng ∧ (dropPending s).recd = s.recd ∧ (dropPending
    s).pmu = s.pmu ∧ (dropPending s).svc = s.svc ∧ (dropPending s).therm = s.therm ∧ (dropPending s).regs = s.regs ∧
    (dropPending s).hmem = s.hmem ∧ (dropPending s).now = s.now ∧ (dropPending s).elapsed = s.elapsed ∧ (dropPending
    s).free = s.free ∧ (dropPending s).pending = s.pending := by
  intros; unfold dropPending
  first
    | ((repeat' split) <;> simp; done)
    | (dsimp only; (repeat' split) <;> simp [*]; done)
    | ((repeat' apply And.intro) <;> dsimp only <;> (repeat' split) <;> simp [*]; done)

@[simp] theorem discardPending_keeps : ∀ a1 a2 s, (discardPending a1 a2 s).md = s.md ∧ (discardPending a1 a2 s).dev =
    s.dev ∧ (discardPending a1 a2 s).pins = s.pins ∧ (discardPending a1 a2 s).mram = s.mram ∧ (discardPending a1 a2
    s).img = s.img ∧ (discardPending a1 a2 s).lat = s.lat ∧ (discardPending a1 a2 s).acct = s.acct ∧ (discardPending a1
    a2 s).lk = s.lk ∧ (discardPending a1 a2 s).tim = s.tim ∧ (discardPending a1 a2 s).buf = s.buf ∧ (discardPending a1
    a2 s).eg = s.eg ∧ (discardPending a1 a2 s).tab = s.tab ∧ (discardPending a1 a2 s).gen = s.gen ∧ (discardPending a1
    a2 s).eng = s.eng ∧ (discardPending a1 a2 s).recd = s.recd ∧ (discardPending a1 a2 s).pmu = s.pmu ∧ (discardPending
    a1 a2 s).svc = s.svc ∧ (discardPending a1 a2 s).therm = s.therm ∧ (discardPending a1 a2 s).hmem = s.hmem ∧
    (discardPending a1 a2 s).now = s.now ∧ (discardPending a1 a2 s).elapsed = s.elapsed ∧ (discardPending a1 a2 s).free
    = s.free ∧ (discardPending a1 a2 s).pending = s.pending := by
  intros; unfold discardPending
  first
    | ((repeat' split) <;> simp; done)
    | (dsimp only; (repeat' split) <;> simp [*]; done)
    | ((repeat' apply And.intro) <;> dsimp only <;> (repeat' split) <;> simp [*]; done)

@[simp] theorem expirePending_keeps : ∀ s, (expirePending s).md = s.md ∧ (expirePending s).dev = s.dev ∧ (expirePending
    s).pins = s.pins ∧ (expirePending s).mram = s.mram ∧ (expirePending s).img = s.img ∧ (expirePending s).lat = s.lat ∧
    (expirePending s).acct = s.acct ∧ (expirePending s).lk = s.lk ∧ (expirePending s).tim = s.tim ∧ (expirePending
    s).buf = s.buf ∧ (expirePending s).eg = s.eg ∧ (expirePending s).tab = s.tab ∧ (expirePending s).gen = s.gen ∧
    (expirePending s).eng = s.eng ∧ (expirePending s).recd = s.recd ∧ (expirePending s).pmu = s.pmu ∧ (expirePending
    s).svc = s.svc ∧ (expirePending s).therm = s.therm ∧ (expirePending s).hmem = s.hmem ∧ (expirePending s).now = s.now
    ∧ (expirePending s).elapsed = s.elapsed ∧ (expirePending s).free = s.free ∧ (expirePending s).pending = s.pending :=
    by
  intros; unfold expirePending
  first
    | ((repeat' split) <;> simp; done)
    | (dsimp only; (repeat' split) <;> simp [*]; done)
    | ((repeat' apply And.intro) <;> dsimp only <;> (repeat' split) <;> simp [*]; done)

@[simp] theorem applyItem_keeps : ∀ a1 a2 a3 s, (applyItem a1 a2 a3 s).md = s.md ∧ (applyItem a1 a2 a3 s).dev = s.dev ∧
    (applyItem a1 a2 a3 s).pins = s.pins ∧ (applyItem a1 a2 a3 s).img = s.img ∧ (applyItem a1 a2 a3 s).lat = s.lat ∧
    (applyItem a1 a2 a3 s).acct = s.acct ∧ (applyItem a1 a2 a3 s).lk = s.lk ∧ (applyItem a1 a2 a3 s).tim = s.tim ∧
    (applyItem a1 a2 a3 s).buf = s.buf ∧ (applyItem a1 a2 a3 s).eg = s.eg ∧ (applyItem a1 a2 a3 s).tab = s.tab ∧
    (applyItem a1 a2 a3 s).gen = s.gen ∧ (applyItem a1 a2 a3 s).eng = s.eng ∧ (applyItem a1 a2 a3 s).pmu = s.pmu ∧
    (applyItem a1 a2 a3 s).svc = s.svc ∧ (applyItem a1 a2 a3 s).therm = s.therm ∧ (applyItem a1 a2 a3 s).hmem = s.hmem ∧
    (applyItem a1 a2 a3 s).now = s.now ∧ (applyItem a1 a2 a3 s).elapsed = s.elapsed ∧ (applyItem a1 a2 a3 s).pending =
    s.pending := by
  intros; unfold applyItem
  first
    | ((repeat' split) <;> simp; done)
    | (dsimp only; (repeat' split) <;> simp [*]; done)
    | ((repeat' apply And.intro) <;> dsimp only <;> (repeat' split) <;> simp [*]; done)

@[simp] theorem newNonce_keeps : ∀ s, (newNonce s).md = s.md ∧ (newNonce s).dev = s.dev ∧ (newNonce s).pins = s.pins ∧
    (newNonce s).side = s.side ∧ (newNonce s).mram = s.mram ∧ (newNonce s).img = s.img ∧ (newNonce s).host = s.host ∧
    (newNonce s).lat = s.lat ∧ (newNonce s).acct = s.acct ∧ (newNonce s).lk = s.lk ∧ (newNonce s).tim = s.tim ∧
    (newNonce s).buf = s.buf ∧ (newNonce s).eg = s.eg ∧ (newNonce s).tab = s.tab ∧ (newNonce s).gen = s.gen ∧ (newNonce
    s).eng = s.eng ∧ (newNonce s).recd = s.recd ∧ (newNonce s).pmu = s.pmu ∧ (newNonce s).svc = s.svc ∧ (newNonce
    s).therm = s.therm ∧ (newNonce s).regs = s.regs ∧ (newNonce s).hmem = s.hmem ∧ (newNonce s).now = s.now ∧ (newNonce
    s).elapsed = s.elapsed ∧ (newNonce s).pending = s.pending := by
  intros; unfold newNonce
  first
    | ((repeat' split) <;> simp; done)
    | (dsimp only; (repeat' split) <;> simp [*]; done)
    | ((repeat' apply And.intro) <;> dsimp only <;> (repeat' split) <;> simp [*]; done)

@[simp] theorem stageChange_keeps : ∀ a1 a2 s, (stageChange a1 a2 s).md = s.md ∧ (stageChange a1 a2 s).dev = s.dev ∧
    (stageChange a1 a2 s).pins = s.pins ∧ (stageChange a1 a2 s).mram = s.mram ∧ (stageChange a1 a2 s).img = s.img ∧
    (stageChange a1 a2 s).lat = s.lat ∧ (stageChange a1 a2 s).acct = s.acct ∧ (stageChange a1 a2 s).lk = s.lk ∧
    (stageChange a1 a2 s).tim = s.tim ∧ (stageChange a1 a2 s).buf = s.buf ∧ (stageChange a1 a2 s).eg = s.eg ∧
    (stageChange a1 a2 s).tab = s.tab ∧ (stageChange a1 a2 s).gen = s.gen ∧ (stageChange a1 a2 s).eng = s.eng ∧
    (stageChange a1 a2 s).recd = s.recd ∧ (stageChange a1 a2 s).pmu = s.pmu ∧ (stageChange a1 a2 s).svc = s.svc ∧
    (stageChange a1 a2 s).therm = s.therm ∧ (stageChange a1 a2 s).hmem = s.hmem ∧ (stageChange a1 a2 s).now = s.now ∧
    (stageChange a1 a2 s).elapsed = s.elapsed ∧ (stageChange a1 a2 s).free = s.free ∧ (stageChange a1 a2 s).pending =
    s.pending := by
  intros; unfold stageChange
  first
    | ((repeat' split) <;> simp; done)
    | (dsimp only; (repeat' split) <;> simp [*]; done)
    | ((repeat' apply And.intro) <;> dsimp only <;> (repeat' split) <;> simp [*]; done)

@[simp] theorem provisionOpKey_keeps : ∀ s, (provisionOpKey s).md = s.md ∧ (provisionOpKey s).dev = s.dev ∧
    (provisionOpKey s).pins = s.pins ∧ (provisionOpKey s).side = s.side ∧ (provisionOpKey s).img = s.img ∧
    (provisionOpKey s).host = s.host ∧ (provisionOpKey s).lat = s.lat ∧ (provisionOpKey s).acct = s.acct ∧
    (provisionOpKey s).lk = s.lk ∧ (provisionOpKey s).tim = s.tim ∧ (provisionOpKey s).buf = s.buf ∧ (provisionOpKey
    s).eg = s.eg ∧ (provisionOpKey s).tab = s.tab ∧ (provisionOpKey s).gen = s.gen ∧ (provisionOpKey s).eng = s.eng ∧
    (provisionOpKey s).recd = s.recd ∧ (provisionOpKey s).pmu = s.pmu ∧ (provisionOpKey s).svc = s.svc ∧ (provisionOpKey
    s).therm = s.therm ∧ (provisionOpKey s).regs = s.regs ∧ (provisionOpKey s).hmem = s.hmem ∧ (provisionOpKey s).now =
    s.now ∧ (provisionOpKey s).elapsed = s.elapsed ∧ (provisionOpKey s).free = s.free ∧ (provisionOpKey s).pending =
    s.pending := by
  intros; unfold provisionOpKey
  first
    | ((repeat' split) <;> simp; done)
    | (dsimp only; (repeat' split) <;> simp [*]; done)
    | ((repeat' apply And.intro) <;> dsimp only <;> (repeat' split) <;> simp [*]; done)

@[simp] theorem asWarden_md (p : Party) (f : State → State) (s : State) (h : ∀ s, (f s).md = s.md) : (asWarden p f s).md
    = s.md := by
  unfold asWarden; (repeat' split) <;> simp [h]

@[simp] theorem asWarden_dev (p : Party) (f : State → State) (s : State) (h : ∀ s, (f s).dev = s.dev) : (asWarden p f
    s).dev = s.dev := by
  unfold asWarden; (repeat' split) <;> simp [h]

@[simp] theorem asWarden_pins (p : Party) (f : State → State) (s : State) (h : ∀ s, (f s).pins = s.pins) : (asWarden p f
    s).pins = s.pins := by
  unfold asWarden; (repeat' split) <;> simp [h]

@[simp] theorem asWarden_prot (p : Party) (f : State → State) (s : State) (h : ∀ s, (f s).prot = s.prot) : (asWarden p f
    s).prot = s.prot := by
  unfold asWarden; (repeat' split) <;> simp [h]

@[simp] theorem asWarden_mram (p : Party) (f : State → State) (s : State) (h : ∀ s, (f s).mram = s.mram) : (asWarden p f
    s).mram = s.mram := by
  unfold asWarden; (repeat' split) <;> simp [h]

@[simp] theorem asWarden_img (p : Party) (f : State → State) (s : State) (h : ∀ s, (f s).img = s.img) : (asWarden p f
    s).img = s.img := by
  unfold asWarden; (repeat' split) <;> simp [h]

@[simp] theorem asWarden_lat (p : Party) (f : State → State) (s : State) (h : ∀ s, (f s).lat = s.lat) : (asWarden p f
    s).lat = s.lat := by
  unfold asWarden; (repeat' split) <;> simp [h]

@[simp] theorem asWarden_acct (p : Party) (f : State → State) (s : State) (h : ∀ s, (f s).acct = s.acct) : (asWarden p f
    s).acct = s.acct := by
  unfold asWarden; (repeat' split) <;> simp [h]

@[simp] theorem asWarden_lk (p : Party) (f : State → State) (s : State) (h : ∀ s, (f s).lk = s.lk) : (asWarden p f s).lk
    = s.lk := by
  unfold asWarden; (repeat' split) <;> simp [h]

@[simp] theorem asWarden_tim (p : Party) (f : State → State) (s : State) (h : ∀ s, (f s).tim = s.tim) : (asWarden p f
    s).tim = s.tim := by
  unfold asWarden; (repeat' split) <;> simp [h]

@[simp] theorem asWarden_buf (p : Party) (f : State → State) (s : State) (h : ∀ s, (f s).buf = s.buf) : (asWarden p f
    s).buf = s.buf := by
  unfold asWarden; (repeat' split) <;> simp [h]

@[simp] theorem asWarden_eg (p : Party) (f : State → State) (s : State) (h : ∀ s, (f s).eg = s.eg) : (asWarden p f s).eg
    = s.eg := by
  unfold asWarden; (repeat' split) <;> simp [h]

@[simp] theorem asWarden_tab (p : Party) (f : State → State) (s : State) (h : ∀ s, (f s).tab = s.tab) : (asWarden p f
    s).tab = s.tab := by
  unfold asWarden; (repeat' split) <;> simp [h]

@[simp] theorem asWarden_gen (p : Party) (f : State → State) (s : State) (h : ∀ s, (f s).gen = s.gen) : (asWarden p f
    s).gen = s.gen := by
  unfold asWarden; (repeat' split) <;> simp [h]

@[simp] theorem asWarden_eng (p : Party) (f : State → State) (s : State) (h : ∀ s, (f s).eng = s.eng) : (asWarden p f
    s).eng = s.eng := by
  unfold asWarden; (repeat' split) <;> simp [h]

@[simp] theorem asWarden_recd (p : Party) (f : State → State) (s : State) (h : ∀ s, (f s).recd = s.recd) : (asWarden p f
    s).recd = s.recd := by
  unfold asWarden; (repeat' split) <;> simp [h]

@[simp] theorem asWarden_pmu (p : Party) (f : State → State) (s : State) (h : ∀ s, (f s).pmu = s.pmu) : (asWarden p f
    s).pmu = s.pmu := by
  unfold asWarden; (repeat' split) <;> simp [h]

@[simp] theorem asWarden_svc (p : Party) (f : State → State) (s : State) (h : ∀ s, (f s).svc = s.svc) : (asWarden p f
    s).svc = s.svc := by
  unfold asWarden; (repeat' split) <;> simp [h]

@[simp] theorem asWarden_therm (p : Party) (f : State → State) (s : State) (h : ∀ s, (f s).therm = s.therm) : (asWarden
    p f s).therm = s.therm := by
  unfold asWarden; (repeat' split) <;> simp [h]

@[simp] theorem asWarden_hmem (p : Party) (f : State → State) (s : State) (h : ∀ s, (f s).hmem = s.hmem) : (asWarden p f
    s).hmem = s.hmem := by
  unfold asWarden; (repeat' split) <;> simp [h]

@[simp] theorem asWarden_now (p : Party) (f : State → State) (s : State) (h : ∀ s, (f s).now = s.now) : (asWarden p f
    s).now = s.now := by
  unfold asWarden; (repeat' split) <;> simp [h]

@[simp] theorem asWarden_elapsed (p : Party) (f : State → State) (s : State) (h : ∀ s, (f s).elapsed = s.elapsed) :
    (asWarden p f s).elapsed = s.elapsed := by
  unfold asWarden; (repeat' split) <;> simp [h]

@[simp] theorem asWarden_free (p : Party) (f : State → State) (s : State) (h : ∀ s, (f s).free = s.free) : (asWarden p f
    s).free = s.free := by
  unfold asWarden; (repeat' split) <;> simp [h]

@[simp] theorem asWarden_pending (p : Party) (f : State → State) (s : State) (h : ∀ s, (f s).pending = s.pending) :
    (asWarden p f s).pending = s.pending := by
  unfold asWarden; (repeat' split) <;> simp [h]

@[simp] theorem confirmChange_keeps : ∀ a1 a2 s, (confirmChange a1 a2 s).md = s.md ∧ (confirmChange a1 a2 s).dev = s.dev
    ∧ (confirmChange a1 a2 s).pins = s.pins ∧ (confirmChange a1 a2 s).img = s.img ∧ (confirmChange a1 a2 s).lat = s.lat
    ∧ (confirmChange a1 a2 s).acct = s.acct ∧ (confirmChange a1 a2 s).lk = s.lk ∧ (confirmChange a1 a2 s).tim = s.tim ∧
    (confirmChange a1 a2 s).buf = s.buf ∧ (confirmChange a1 a2 s).eg = s.eg ∧ (confirmChange a1 a2 s).tab = s.tab ∧
    (confirmChange a1 a2 s).gen = s.gen ∧ (confirmChange a1 a2 s).eng = s.eng ∧ (confirmChange a1 a2 s).pmu = s.pmu ∧
    (confirmChange a1 a2 s).svc = s.svc ∧ (confirmChange a1 a2 s).therm = s.therm ∧ (confirmChange a1 a2 s).hmem =
    s.hmem ∧ (confirmChange a1 a2 s).now = s.now ∧ (confirmChange a1 a2 s).elapsed = s.elapsed ∧ (confirmChange a1 a2
    s).pending = s.pending := by
  intros; unfold confirmChange
  first
    | ((repeat' split) <;> simp; done)
    | (dsimp only; (repeat' split) <;> simp [*]; done)
    | ((repeat' apply And.intro) <;> dsimp only <;> (repeat' split) <;> simp [*]; done)

@[simp] theorem provisionWdKey_keeps : ∀ s, (provisionWdKey s).md = s.md ∧ (provisionWdKey s).dev = s.dev ∧
    (provisionWdKey s).pins = s.pins ∧ (provisionWdKey s).side = s.side ∧ (provisionWdKey s).img = s.img ∧
    (provisionWdKey s).host = s.host ∧ (provisionWdKey s).lat = s.lat ∧ (provisionWdKey s).acct = s.acct ∧
    (provisionWdKey s).lk = s.lk ∧ (provisionWdKey s).tim = s.tim ∧ (provisionWdKey s).buf = s.buf ∧ (provisionWdKey
    s).eg = s.eg ∧ (provisionWdKey s).tab = s.tab ∧ (provisionWdKey s).gen = s.gen ∧ (provisionWdKey s).eng = s.eng ∧
    (provisionWdKey s).recd = s.recd ∧ (provisionWdKey s).pmu = s.pmu ∧ (provisionWdKey s).svc = s.svc ∧ (provisionWdKey
    s).therm = s.therm ∧ (provisionWdKey s).regs = s.regs ∧ (provisionWdKey s).hmem = s.hmem ∧ (provisionWdKey s).now =
    s.now ∧ (provisionWdKey s).elapsed = s.elapsed ∧ (provisionWdKey s).free = s.free ∧ (provisionWdKey s).pending =
    s.pending := by
  intros; unfold provisionWdKey
  first
    | ((repeat' split) <;> simp; done)
    | (dsimp only; (repeat' split) <;> simp [*]; done)
    | ((repeat' apply And.intro) <;> dsimp only <;> (repeat' split) <;> simp [*]; done)

@[simp] theorem tapScan_keeps : ∀ a1 a2 s, (tapScan a1 a2 s).md = s.md ∧ (tapScan a1 a2 s).dev = s.dev ∧ (tapScan a1 a2
    s).side = s.side ∧ (tapScan a1 a2 s).prot = s.prot ∧ (tapScan a1 a2 s).mram = s.mram ∧ (tapScan a1 a2 s).img = s.img
    ∧ (tapScan a1 a2 s).host = s.host ∧ (tapScan a1 a2 s).lat = s.lat ∧ (tapScan a1 a2 s).acct = s.acct ∧ (tapScan a1 a2
    s).lk = s.lk ∧ (tapScan a1 a2 s).tim = s.tim ∧ (tapScan a1 a2 s).buf = s.buf ∧ (tapScan a1 a2 s).eg = s.eg ∧
    (tapScan a1 a2 s).tab = s.tab ∧ (tapScan a1 a2 s).gen = s.gen ∧ (tapScan a1 a2 s).eng = s.eng ∧ (tapScan a1 a2
    s).recd = s.recd ∧ (tapScan a1 a2 s).pmu = s.pmu ∧ (tapScan a1 a2 s).therm = s.therm ∧ (tapScan a1 a2 s).regs =
    s.regs ∧ (tapScan a1 a2 s).hmem = s.hmem ∧ (tapScan a1 a2 s).now = s.now ∧ (tapScan a1 a2 s).elapsed = s.elapsed ∧
    (tapScan a1 a2 s).pending = s.pending := by
  intros; unfold tapScan
  first
    | ((repeat' split) <;> simp; done)
    | (dsimp only; (repeat' split) <;> simp [*]; done)
    | ((repeat' apply And.intro) <;> dsimp only <;> (repeat' split) <;> simp [*]; done)

@[simp] theorem healthPut_keeps : ∀ a1 a2 s, (healthPut a1 a2 s).md = s.md ∧ (healthPut a1 a2 s).dev = s.dev ∧
    (healthPut a1 a2 s).pins = s.pins ∧ (healthPut a1 a2 s).side = s.side ∧ (healthPut a1 a2 s).prot = s.prot ∧
    (healthPut a1 a2 s).img = s.img ∧ (healthPut a1 a2 s).host = s.host ∧ (healthPut a1 a2 s).lat = s.lat ∧ (healthPut
    a1 a2 s).acct = s.acct ∧ (healthPut a1 a2 s).lk = s.lk ∧ (healthPut a1 a2 s).tim = s.tim ∧ (healthPut a1 a2 s).buf =
    s.buf ∧ (healthPut a1 a2 s).eg = s.eg ∧ (healthPut a1 a2 s).tab = s.tab ∧ (healthPut a1 a2 s).gen = s.gen ∧
    (healthPut a1 a2 s).eng = s.eng ∧ (healthPut a1 a2 s).recd = s.recd ∧ (healthPut a1 a2 s).pmu = s.pmu ∧ (healthPut
    a1 a2 s).svc = s.svc ∧ (healthPut a1 a2 s).therm = s.therm ∧ (healthPut a1 a2 s).regs = s.regs ∧ (healthPut a1 a2
    s).hmem = s.hmem ∧ (healthPut a1 a2 s).now = s.now ∧ (healthPut a1 a2 s).elapsed = s.elapsed ∧ (healthPut a1 a2
    s).free = s.free ∧ (healthPut a1 a2 s).pending = s.pending := by
  intros; unfold healthPut
  first
    | ((repeat' split) <;> simp; done)
    | (dsimp only; (repeat' split) <;> simp [*]; done)
    | ((repeat' apply And.intro) <;> dsimp only <;> (repeat' split) <;> simp [*]; done)

@[simp] theorem healthSeal_keeps : ∀ s, (healthSeal s).md = s.md ∧ (healthSeal s).dev = s.dev ∧ (healthSeal s).pins =
    s.pins ∧ (healthSeal s).side = s.side ∧ (healthSeal s).prot = s.prot ∧ (healthSeal s).img = s.img ∧ (healthSeal
    s).host = s.host ∧ (healthSeal s).lat = s.lat ∧ (healthSeal s).acct = s.acct ∧ (healthSeal s).lk = s.lk ∧
    (healthSeal s).tim = s.tim ∧ (healthSeal s).buf = s.buf ∧ (healthSeal s).eg = s.eg ∧ (healthSeal s).tab = s.tab ∧
    (healthSeal s).gen = s.gen ∧ (healthSeal s).eng = s.eng ∧ (healthSeal s).recd = s.recd ∧ (healthSeal s).pmu = s.pmu
    ∧ (healthSeal s).svc = s.svc ∧ (healthSeal s).therm = s.therm ∧ (healthSeal s).regs = s.regs ∧ (healthSeal s).hmem =
    s.hmem ∧ (healthSeal s).now = s.now ∧ (healthSeal s).elapsed = s.elapsed ∧ (healthSeal s).free = s.free ∧
    (healthSeal s).pending = s.pending := by
  intros; unfold healthSeal
  first
    | ((repeat' split) <;> simp; done)
    | (dsimp only; (repeat' split) <;> simp [*]; done)
    | ((repeat' apply And.intro) <;> dsimp only <;> (repeat' split) <;> simp [*]; done)

@[simp] theorem healthMark_keeps : ∀ a1 a2 s, (healthMark a1 a2 s).md = s.md ∧ (healthMark a1 a2 s).dev = s.dev ∧
    (healthMark a1 a2 s).pins = s.pins ∧ (healthMark a1 a2 s).side = s.side ∧ (healthMark a1 a2 s).prot = s.prot ∧
    (healthMark a1 a2 s).img = s.img ∧ (healthMark a1 a2 s).host = s.host ∧ (healthMark a1 a2 s).lat = s.lat ∧
    (healthMark a1 a2 s).acct = s.acct ∧ (healthMark a1 a2 s).lk = s.lk ∧ (healthMark a1 a2 s).tim = s.tim ∧ (healthMark
    a1 a2 s).buf = s.buf ∧ (healthMark a1 a2 s).eg = s.eg ∧ (healthMark a1 a2 s).tab = s.tab ∧ (healthMark a1 a2 s).gen
    = s.gen ∧ (healthMark a1 a2 s).eng = s.eng ∧ (healthMark a1 a2 s).recd = s.recd ∧ (healthMark a1 a2 s).pmu = s.pmu ∧
    (healthMark a1 a2 s).svc = s.svc ∧ (healthMark a1 a2 s).therm = s.therm ∧ (healthMark a1 a2 s).regs = s.regs ∧
    (healthMark a1 a2 s).hmem = s.hmem ∧ (healthMark a1 a2 s).now = s.now ∧ (healthMark a1 a2 s).elapsed = s.elapsed ∧
    (healthMark a1 a2 s).free = s.free ∧ (healthMark a1 a2 s).pending = s.pending := by
  intros; unfold healthMark
  first
    | ((repeat' split) <;> simp; done)
    | (dsimp only; (repeat' split) <;> simp [*]; done)
    | ((repeat' apply And.intro) <;> dsimp only <;> (repeat' split) <;> simp [*]; done)

@[simp] theorem healthFail_keeps : ∀ a1 s, (healthFail a1 s).md = s.md ∧ (healthFail a1 s).dev = s.dev ∧ (healthFail a1
    s).pins = s.pins ∧ (healthFail a1 s).side = s.side ∧ (healthFail a1 s).prot = s.prot ∧ (healthFail a1 s).img = s.img
    ∧ (healthFail a1 s).host = s.host ∧ (healthFail a1 s).lat = s.lat ∧ (healthFail a1 s).acct = s.acct ∧ (healthFail a1
    s).lk = s.lk ∧ (healthFail a1 s).tim = s.tim ∧ (healthFail a1 s).buf = s.buf ∧ (healthFail a1 s).eg = s.eg ∧
    (healthFail a1 s).tab = s.tab ∧ (healthFail a1 s).gen = s.gen ∧ (healthFail a1 s).eng = s.eng ∧ (healthFail a1
    s).recd = s.recd ∧ (healthFail a1 s).pmu = s.pmu ∧ (healthFail a1 s).svc = s.svc ∧ (healthFail a1 s).therm = s.therm
    ∧ (healthFail a1 s).regs = s.regs ∧ (healthFail a1 s).hmem = s.hmem ∧ (healthFail a1 s).now = s.now ∧ (healthFail a1
    s).elapsed = s.elapsed ∧ (healthFail a1 s).free = s.free ∧ (healthFail a1 s).pending = s.pending := by
  intros; unfold healthFail
  first
    | ((repeat' split) <;> simp; done)
    | (dsimp only; (repeat' split) <;> simp [*]; done)
    | ((repeat' apply And.intro) <;> dsimp only <;> (repeat' split) <;> simp [*]; done)

@[simp] theorem healthBegin_keeps : ∀ s, (healthBegin s).md = s.md ∧ (healthBegin s).dev = s.dev ∧ (healthBegin s).pins
    = s.pins ∧ (healthBegin s).side = s.side ∧ (healthBegin s).prot = s.prot ∧ (healthBegin s).img = s.img ∧
    (healthBegin s).host = s.host ∧ (healthBegin s).lat = s.lat ∧ (healthBegin s).acct = s.acct ∧ (healthBegin s).lk =
    s.lk ∧ (healthBegin s).tim = s.tim ∧ (healthBegin s).buf = s.buf ∧ (healthBegin s).eg = s.eg ∧ (healthBegin s).tab =
    s.tab ∧ (healthBegin s).gen = s.gen ∧ (healthBegin s).eng = s.eng ∧ (healthBegin s).recd = s.recd ∧ (healthBegin
    s).pmu = s.pmu ∧ (healthBegin s).svc = s.svc ∧ (healthBegin s).therm = s.therm ∧ (healthBegin s).regs = s.regs ∧
    (healthBegin s).hmem = s.hmem ∧ (healthBegin s).now = s.now ∧ (healthBegin s).elapsed = s.elapsed ∧ (healthBegin
    s).free = s.free ∧ (healthBegin s).pending = s.pending := by
  intros; unfold healthBegin
  first
    | ((repeat' split) <;> simp; done)
    | (dsimp only; (repeat' split) <;> simp [*]; done)
    | ((repeat' apply And.intro) <;> dsimp only <;> (repeat' split) <;> simp [*]; done)

@[simp] theorem loadKeys_keeps : ∀ s, (loadKeys s).md = s.md ∧ (loadKeys s).dev = s.dev ∧ (loadKeys s).pins = s.pins ∧
    (loadKeys s).side = s.side ∧ (loadKeys s).mram = s.mram ∧ (loadKeys s).img = s.img ∧ (loadKeys s).host = s.host ∧
    (loadKeys s).lat = s.lat ∧ (loadKeys s).acct = s.acct ∧ (loadKeys s).lk = s.lk ∧ (loadKeys s).tim = s.tim ∧
    (loadKeys s).buf = s.buf ∧ (loadKeys s).eg = s.eg ∧ (loadKeys s).tab = s.tab ∧ (loadKeys s).gen = s.gen ∧ (loadKeys
    s).eng = s.eng ∧ (loadKeys s).recd = s.recd ∧ (loadKeys s).pmu = s.pmu ∧ (loadKeys s).svc = s.svc ∧ (loadKeys
    s).therm = s.therm ∧ (loadKeys s).regs = s.regs ∧ (loadKeys s).hmem = s.hmem ∧ (loadKeys s).now = s.now ∧ (loadKeys
    s).elapsed = s.elapsed ∧ (loadKeys s).free = s.free ∧ (loadKeys s).pending = s.pending := by
  intros; unfold loadKeys
  first
    | ((repeat' split) <;> simp; done)
    | (dsimp only; (repeat' split) <;> simp [*]; done)
    | ((repeat' apply And.intro) <;> dsimp only <;> (repeat' split) <;> simp [*]; done)

@[simp] theorem setMode_keeps : ∀ a1 a2 a3 a4 s, (setMode a1 a2 a3 a4 s).dev = s.dev ∧ (setMode a1 a2 a3 a4 s).pins =
    s.pins ∧ (setMode a1 a2 a3 a4 s).prot = s.prot ∧ (setMode a1 a2 a3 a4 s).mram = s.mram ∧ (setMode a1 a2 a3 a4 s).img
    = s.img ∧ (setMode a1 a2 a3 a4 s).lat = s.lat ∧ (setMode a1 a2 a3 a4 s).acct = s.acct ∧ (setMode a1 a2 a3 a4 s).lk =
    s.lk ∧ (setMode a1 a2 a3 a4 s).tim = s.tim ∧ (setMode a1 a2 a3 a4 s).buf = s.buf ∧ (setMode a1 a2 a3 a4 s).eg = s.eg
    ∧ (setMode a1 a2 a3 a4 s).tab = s.tab ∧ (setMode a1 a2 a3 a4 s).gen = s.gen ∧ (setMode a1 a2 a3 a4 s).eng = s.eng ∧
    (setMode a1 a2 a3 a4 s).recd = s.recd ∧ (setMode a1 a2 a3 a4 s).pmu = s.pmu ∧ (setMode a1 a2 a3 a4 s).svc = s.svc ∧
    (setMode a1 a2 a3 a4 s).therm = s.therm ∧ (setMode a1 a2 a3 a4 s).hmem = s.hmem ∧ (setMode a1 a2 a3 a4 s).now =
    s.now ∧ (setMode a1 a2 a3 a4 s).elapsed = s.elapsed ∧ (setMode a1 a2 a3 a4 s).free = s.free ∧ (setMode a1 a2 a3 a4
    s).pending = s.pending := by
  intros; unfold setMode
  first
    | ((repeat' split) <;> simp; done)
    | (dsimp only; (repeat' split) <;> simp [*]; done)
    | ((repeat' apply And.intro) <;> dsimp only <;> (repeat' split) <;> simp [*]; done)

@[simp] theorem beginWake_keeps : ∀ a1 s, (beginWake a1 s).pins = s.pins ∧ (beginWake a1 s).img = s.img ∧ (beginWake a1
    s).lat = s.lat ∧ (beginWake a1 s).acct = s.acct ∧ (beginWake a1 s).lk = s.lk ∧ (beginWake a1 s).tim = s.tim ∧
    (beginWake a1 s).buf = s.buf ∧ (beginWake a1 s).eg = s.eg ∧ (beginWake a1 s).tab = s.tab ∧ (beginWake a1 s).gen =
    s.gen ∧ (beginWake a1 s).eng = s.eng ∧ (beginWake a1 s).pmu = s.pmu ∧ (beginWake a1 s).svc = s.svc ∧ (beginWake a1
    s).therm = s.therm ∧ (beginWake a1 s).hmem = s.hmem ∧ (beginWake a1 s).pending = s.pending := by
  intros; unfold beginWake
  first
    | ((repeat' split) <;> simp; done)
    | (dsimp only; (repeat' split) <;> simp [*]; done)
    | ((repeat' apply And.intro) <;> dsimp only <;> (repeat' split) <;> simp [*]; done)

@[simp] theorem readStacks_keeps : ∀ s, (readStacks s).dev = s.dev ∧ (readStacks s).pins = s.pins ∧ (readStacks s).side
    = s.side ∧ (readStacks s).prot = s.prot ∧ (readStacks s).mram = s.mram ∧ (readStacks s).img = s.img ∧ (readStacks
    s).host = s.host ∧ (readStacks s).lat = s.lat ∧ (readStacks s).acct = s.acct ∧ (readStacks s).lk = s.lk ∧
    (readStacks s).tim = s.tim ∧ (readStacks s).buf = s.buf ∧ (readStacks s).eg = s.eg ∧ (readStacks s).tab = s.tab ∧
    (readStacks s).gen = s.gen ∧ (readStacks s).eng = s.eng ∧ (readStacks s).recd = s.recd ∧ (readStacks s).pmu = s.pmu
    ∧ (readStacks s).svc = s.svc ∧ (readStacks s).therm = s.therm ∧ (readStacks s).regs = s.regs ∧ (readStacks s).hmem =
    s.hmem ∧ (readStacks s).now = s.now ∧ (readStacks s).elapsed = s.elapsed ∧ (readStacks s).free = s.free ∧
    (readStacks s).pending = s.pending := by
  intros; unfold readStacks
  first
    | ((repeat' split) <;> simp; done)
    | (dsimp only; (repeat' split) <;> simp [*]; done)
    | ((repeat' apply And.intro) <;> dsimp only <;> (repeat' split) <;> simp [*]; done)

@[simp] theorem cmdResult_keeps : ∀ a1 a2 s, (cmdResult a1 a2 s).dev = s.dev ∧ (cmdResult a1 a2 s).pins = s.pins ∧
    (cmdResult a1 a2 s).side = s.side ∧ (cmdResult a1 a2 s).prot = s.prot ∧ (cmdResult a1 a2 s).mram = s.mram ∧
    (cmdResult a1 a2 s).img = s.img ∧ (cmdResult a1 a2 s).host = s.host ∧ (cmdResult a1 a2 s).lat = s.lat ∧ (cmdResult
    a1 a2 s).acct = s.acct ∧ (cmdResult a1 a2 s).lk = s.lk ∧ (cmdResult a1 a2 s).tim = s.tim ∧ (cmdResult a1 a2 s).buf =
    s.buf ∧ (cmdResult a1 a2 s).eg = s.eg ∧ (cmdResult a1 a2 s).tab = s.tab ∧ (cmdResult a1 a2 s).gen = s.gen ∧
    (cmdResult a1 a2 s).eng = s.eng ∧ (cmdResult a1 a2 s).recd = s.recd ∧ (cmdResult a1 a2 s).pmu = s.pmu ∧ (cmdResult
    a1 a2 s).svc = s.svc ∧ (cmdResult a1 a2 s).therm = s.therm ∧ (cmdResult a1 a2 s).regs = s.regs ∧ (cmdResult a1 a2
    s).hmem = s.hmem ∧ (cmdResult a1 a2 s).now = s.now ∧ (cmdResult a1 a2 s).elapsed = s.elapsed ∧ (cmdResult a1 a2
    s).free = s.free ∧ (cmdResult a1 a2 s).pending = s.pending := by
  intros; unfold cmdResult
  first
    | ((repeat' split) <;> simp; done)
    | (dsimp only; (repeat' split) <;> simp [*]; done)
    | ((repeat' apply And.intro) <;> dsimp only <;> (repeat' split) <;> simp [*]; done)

@[simp] theorem logFault_keeps : ∀ a1 s, (logFault a1 s).md = s.md ∧ (logFault a1 s).dev = s.dev ∧ (logFault a1 s).pins
    = s.pins ∧ (logFault a1 s).side = s.side ∧ (logFault a1 s).prot = s.prot ∧ (logFault a1 s).img = s.img ∧ (logFault
    a1 s).host = s.host ∧ (logFault a1 s).lat = s.lat ∧ (logFault a1 s).acct = s.acct ∧ (logFault a1 s).lk = s.lk ∧
    (logFault a1 s).tim = s.tim ∧ (logFault a1 s).buf = s.buf ∧ (logFault a1 s).eg = s.eg ∧ (logFault a1 s).tab = s.tab
    ∧ (logFault a1 s).gen = s.gen ∧ (logFault a1 s).eng = s.eng ∧ (logFault a1 s).recd = s.recd ∧ (logFault a1 s).pmu =
    s.pmu ∧ (logFault a1 s).svc = s.svc ∧ (logFault a1 s).therm = s.therm ∧ (logFault a1 s).regs = s.regs ∧ (logFault a1
    s).hmem = s.hmem ∧ (logFault a1 s).now = s.now ∧ (logFault a1 s).elapsed = s.elapsed ∧ (logFault a1 s).free = s.free
    ∧ (logFault a1 s).pending = s.pending := by
  intros; unfold logFault
  first
    | ((repeat' split) <;> simp; done)
    | (dsimp only; (repeat' split) <;> simp [*]; done)
    | ((repeat' apply And.intro) <;> dsimp only <;> (repeat' split) <;> simp [*]; done)

@[simp] theorem enterFenced_keeps : ∀ a1 s, (enterFenced a1 s).dev = s.dev ∧ (enterFenced a1 s).pins = s.pins ∧
    (enterFenced a1 s).prot = s.prot ∧ (enterFenced a1 s).mram = s.mram ∧ (enterFenced a1 s).img = s.img ∧ (enterFenced
    a1 s).lat = s.lat ∧ (enterFenced a1 s).acct = s.acct ∧ (enterFenced a1 s).lk = s.lk ∧ (enterFenced a1 s).tim = s.tim
    ∧ (enterFenced a1 s).buf = s.buf ∧ (enterFenced a1 s).eg = s.eg ∧ (enterFenced a1 s).tab = s.tab ∧ (enterFenced a1
    s).gen = s.gen ∧ (enterFenced a1 s).eng = s.eng ∧ (enterFenced a1 s).recd = s.recd ∧ (enterFenced a1 s).pmu = s.pmu
    ∧ (enterFenced a1 s).svc = s.svc ∧ (enterFenced a1 s).therm = s.therm ∧ (enterFenced a1 s).hmem = s.hmem ∧
    (enterFenced a1 s).now = s.now ∧ (enterFenced a1 s).elapsed = s.elapsed ∧ (enterFenced a1 s).free = s.free ∧
    (enterFenced a1 s).pending = s.pending := by
  intros; unfold enterFenced
  first
    | ((repeat' split) <;> simp; done)
    | (dsimp only; (repeat' split) <;> simp [*]; done)
    | ((repeat' apply And.intro) <;> dsimp only <;> (repeat' split) <;> simp [*]; done)

@[simp] theorem assertFault_keeps : ∀ a1 a2 a3 s, (assertFault a1 a2 a3 s).md = s.md ∧ (assertFault a1 a2 a3 s).dev =
    s.dev ∧ (assertFault a1 a2 a3 s).prot = s.prot ∧ (assertFault a1 a2 a3 s).mram = s.mram ∧ (assertFault a1 a2 a3
    s).img = s.img ∧ (assertFault a1 a2 a3 s).lat = s.lat ∧ (assertFault a1 a2 a3 s).acct = s.acct ∧ (assertFault a1 a2
    a3 s).lk = s.lk ∧ (assertFault a1 a2 a3 s).tim = s.tim ∧ (assertFault a1 a2 a3 s).buf = s.buf ∧ (assertFault a1 a2
    a3 s).eg = s.eg ∧ (assertFault a1 a2 a3 s).tab = s.tab ∧ (assertFault a1 a2 a3 s).gen = s.gen ∧ (assertFault a1 a2
    a3 s).eng = s.eng ∧ (assertFault a1 a2 a3 s).recd = s.recd ∧ (assertFault a1 a2 a3 s).pmu = s.pmu ∧ (assertFault a1
    a2 a3 s).svc = s.svc ∧ (assertFault a1 a2 a3 s).therm = s.therm ∧ (assertFault a1 a2 a3 s).hmem = s.hmem ∧
    (assertFault a1 a2 a3 s).now = s.now ∧ (assertFault a1 a2 a3 s).elapsed = s.elapsed ∧ (assertFault a1 a2 a3 s).free
    = s.free ∧ (assertFault a1 a2 a3 s).pending = s.pending := by
  intros; unfold assertFault
  first
    | ((repeat' split) <;> simp; done)
    | (dsimp only; (repeat' split) <;> simp [*]; done)
    | ((repeat' apply And.intro) <;> dsimp only <;> (repeat' split) <;> simp [*]; done)

@[simp] theorem noteFault_keeps : ∀ a1 s, (noteFault a1 s).dev = s.dev ∧ (noteFault a1 s).pins = s.pins ∧ (noteFault a1
    s).prot = s.prot ∧ (noteFault a1 s).mram = s.mram ∧ (noteFault a1 s).img = s.img ∧ (noteFault a1 s).lat = s.lat ∧
    (noteFault a1 s).acct = s.acct ∧ (noteFault a1 s).lk = s.lk ∧ (noteFault a1 s).tim = s.tim ∧ (noteFault a1 s).buf =
    s.buf ∧ (noteFault a1 s).eg = s.eg ∧ (noteFault a1 s).tab = s.tab ∧ (noteFault a1 s).gen = s.gen ∧ (noteFault a1
    s).eng = s.eng ∧ (noteFault a1 s).recd = s.recd ∧ (noteFault a1 s).pmu = s.pmu ∧ (noteFault a1 s).svc = s.svc ∧
    (noteFault a1 s).therm = s.therm ∧ (noteFault a1 s).hmem = s.hmem ∧ (noteFault a1 s).now = s.now ∧ (noteFault a1
    s).elapsed = s.elapsed ∧ (noteFault a1 s).free = s.free ∧ (noteFault a1 s).pending = s.pending := by
  intros; unfold noteFault
  first
    | ((repeat' split) <;> simp; done)
    | (dsimp only; (repeat' split) <;> simp [*]; done)
    | ((repeat' apply And.intro) <;> dsimp only <;> (repeat' split) <;> simp [*]; done)

@[simp] theorem fencingFault_keeps : ∀ a1 s, (fencingFault a1 s).dev = s.dev ∧ (fencingFault a1 s).pins = s.pins ∧
    (fencingFault a1 s).side = s.side ∧ (fencingFault a1 s).prot = s.prot ∧ (fencingFault a1 s).mram = s.mram ∧
    (fencingFault a1 s).img = s.img ∧ (fencingFault a1 s).host = s.host ∧ (fencingFault a1 s).lat = s.lat ∧
    (fencingFault a1 s).acct = s.acct ∧ (fencingFault a1 s).lk = s.lk ∧ (fencingFault a1 s).tim = s.tim ∧ (fencingFault
    a1 s).buf = s.buf ∧ (fencingFault a1 s).eg = s.eg ∧ (fencingFault a1 s).tab = s.tab ∧ (fencingFault a1 s).gen =
    s.gen ∧ (fencingFault a1 s).eng = s.eng ∧ (fencingFault a1 s).recd = s.recd ∧ (fencingFault a1 s).pmu = s.pmu ∧
    (fencingFault a1 s).svc = s.svc ∧ (fencingFault a1 s).therm = s.therm ∧ (fencingFault a1 s).regs = s.regs ∧
    (fencingFault a1 s).hmem = s.hmem ∧ (fencingFault a1 s).now = s.now ∧ (fencingFault a1 s).elapsed = s.elapsed ∧
    (fencingFault a1 s).free = s.free ∧ (fencingFault a1 s).pending = s.pending := by
  intros; unfold fencingFault
  first
    | ((repeat' split) <;> simp; done)
    | (dsimp only; (repeat' split) <;> simp [*]; done)
    | ((repeat' apply And.intro) <;> dsimp only <;> (repeat' split) <;> simp [*]; done)

@[simp] theorem failIsland_keeps : ∀ a1 s, (failIsland a1 s).md = s.md ∧ (failIsland a1 s).dev = s.dev ∧ (failIsland a1
    s).pins = s.pins ∧ (failIsland a1 s).side = s.side ∧ (failIsland a1 s).prot = s.prot ∧ (failIsland a1 s).mram =
    s.mram ∧ (failIsland a1 s).img = s.img ∧ (failIsland a1 s).host = s.host ∧ (failIsland a1 s).lat = s.lat ∧
    (failIsland a1 s).acct = s.acct ∧ (failIsland a1 s).lk = s.lk ∧ (failIsland a1 s).tim = s.tim ∧ (failIsland a1
    s).buf = s.buf ∧ (failIsland a1 s).eg = s.eg ∧ (failIsland a1 s).gen = s.gen ∧ (failIsland a1 s).eng = s.eng ∧
    (failIsland a1 s).recd = s.recd ∧ (failIsland a1 s).pmu = s.pmu ∧ (failIsland a1 s).therm = s.therm ∧ (failIsland a1
    s).regs = s.regs ∧ (failIsland a1 s).hmem = s.hmem ∧ (failIsland a1 s).now = s.now ∧ (failIsland a1 s).elapsed =
    s.elapsed ∧ (failIsland a1 s).free = s.free ∧ (failIsland a1 s).pending = s.pending := by
  intros; unfold failIsland
  first
    | ((repeat' split) <;> simp; done)
    | (dsimp only; (repeat' split) <;> simp [*]; done)
    | ((repeat' apply And.intro) <;> dsimp only <;> (repeat' split) <;> simp [*]; done)

@[simp] theorem fatal_keeps : ∀ a1 a2 a3 s, (fatal a1 a2 a3 s).dev = s.dev ∧ (fatal a1 a2 a3 s).prot = s.prot ∧ (fatal
    a1 a2 a3 s).img = s.img ∧ (fatal a1 a2 a3 s).lat = s.lat ∧ (fatal a1 a2 a3 s).tim = s.tim ∧ (fatal a1 a2 a3 s).gen =
    s.gen ∧ (fatal a1 a2 a3 s).therm = s.therm ∧ (fatal a1 a2 a3 s).now = s.now ∧ (fatal a1 a2 a3 s).elapsed = s.elapsed
    ∧ (fatal a1 a2 a3 s).free = s.free ∧ (fatal a1 a2 a3 s).pending = s.pending := by
  intros; unfold fatal
  first
    | ((repeat' split) <;> simp; done)
    | (dsimp only; (repeat' split) <;> simp [*]; done)
    | ((repeat' apply And.intro) <;> dsimp only <;> (repeat' split) <;> simp [*]; done)

@[simp] theorem cellError_keeps : ∀ a1 a2 s, (cellError a1 a2 s).dev = s.dev ∧ (cellError a1 a2 s).prot = s.prot ∧
    (cellError a1 a2 s).img = s.img ∧ (cellError a1 a2 s).lat = s.lat ∧ (cellError a1 a2 s).tim = s.tim ∧ (cellError a1
    a2 s).gen = s.gen ∧ (cellError a1 a2 s).therm = s.therm ∧ (cellError a1 a2 s).now = s.now ∧ (cellError a1 a2
    s).elapsed = s.elapsed ∧ (cellError a1 a2 s).free = s.free ∧ (cellError a1 a2 s).pending = s.pending := by
  intros; unfold cellError
  first
    | ((repeat' split) <;> simp; done)
    | (dsimp only; (repeat' split) <;> simp [*]; done)
    | ((repeat' apply And.intro) <;> dsimp only <;> (repeat' split) <;> simp [*]; done)

@[simp] theorem readThen_dev (a : Nat) (c : Copy) (f : State → State) (s : State) (h : ∀ s, (f s).dev = s.dev) :
    (readThen a c f s).dev = s.dev := by
  unfold readThen; dsimp only; split <;> simp [h]

@[simp] theorem readThen_prot (a : Nat) (c : Copy) (f : State → State) (s : State) (h : ∀ s, (f s).prot = s.prot) :
    (readThen a c f s).prot = s.prot := by
  unfold readThen; dsimp only; split <;> simp [h]

@[simp] theorem readThen_img (a : Nat) (c : Copy) (f : State → State) (s : State) (h : ∀ s, (f s).img = s.img) :
    (readThen a c f s).img = s.img := by
  unfold readThen; dsimp only; split <;> simp [h]

@[simp] theorem readThen_lat (a : Nat) (c : Copy) (f : State → State) (s : State) (h : ∀ s, (f s).lat = s.lat) :
    (readThen a c f s).lat = s.lat := by
  unfold readThen; dsimp only; split <;> simp [h]

@[simp] theorem readThen_tim (a : Nat) (c : Copy) (f : State → State) (s : State) (h : ∀ s, (f s).tim = s.tim) :
    (readThen a c f s).tim = s.tim := by
  unfold readThen; dsimp only; split <;> simp [h]

@[simp] theorem readThen_gen (a : Nat) (c : Copy) (f : State → State) (s : State) (h : ∀ s, (f s).gen = s.gen) :
    (readThen a c f s).gen = s.gen := by
  unfold readThen; dsimp only; split <;> simp [h]

@[simp] theorem readThen_therm (a : Nat) (c : Copy) (f : State → State) (s : State) (h : ∀ s, (f s).therm = s.therm) :
    (readThen a c f s).therm = s.therm := by
  unfold readThen; dsimp only; split <;> simp [h]

@[simp] theorem readThen_now (a : Nat) (c : Copy) (f : State → State) (s : State) (h : ∀ s, (f s).now = s.now) :
    (readThen a c f s).now = s.now := by
  unfold readThen; dsimp only; split <;> simp [h]

@[simp] theorem readThen_elapsed (a : Nat) (c : Copy) (f : State → State) (s : State) (h : ∀ s, (f s).elapsed =
    s.elapsed) : (readThen a c f s).elapsed = s.elapsed := by
  unfold readThen; dsimp only; split <;> simp [h]

@[simp] theorem readThen_free (a : Nat) (c : Copy) (f : State → State) (s : State) (h : ∀ s, (f s).free = s.free) :
    (readThen a c f s).free = s.free := by
  unfold readThen; dsimp only; split <;> simp [h]

@[simp] theorem readThen_pending (a : Nat) (c : Copy) (f : State → State) (s : State) (h : ∀ s, (f s).pending =
    s.pending) : (readThen a c f s).pending = s.pending := by
  unfold readThen; dsimp only; split <;> simp [h]

@[simp] theorem writeFaults_keeps : ∀ a1 s, (writeFaults a1 s).dev = s.dev ∧ (writeFaults a1 s).pins = s.pins ∧
    (writeFaults a1 s).side = s.side ∧ (writeFaults a1 s).prot = s.prot ∧ (writeFaults a1 s).img = s.img ∧ (writeFaults
    a1 s).host = s.host ∧ (writeFaults a1 s).lat = s.lat ∧ (writeFaults a1 s).acct = s.acct ∧ (writeFaults a1 s).lk =
    s.lk ∧ (writeFaults a1 s).tim = s.tim ∧ (writeFaults a1 s).buf = s.buf ∧ (writeFaults a1 s).eg = s.eg ∧ (writeFaults
    a1 s).tab = s.tab ∧ (writeFaults a1 s).gen = s.gen ∧ (writeFaults a1 s).eng = s.eng ∧ (writeFaults a1 s).recd =
    s.recd ∧ (writeFaults a1 s).pmu = s.pmu ∧ (writeFaults a1 s).svc = s.svc ∧ (writeFaults a1 s).therm = s.therm ∧
    (writeFaults a1 s).regs = s.regs ∧ (writeFaults a1 s).hmem = s.hmem ∧ (writeFaults a1 s).now = s.now ∧ (writeFaults
    a1 s).elapsed = s.elapsed ∧ (writeFaults a1 s).free = s.free ∧ (writeFaults a1 s).pending = s.pending := by
  intros; unfold writeFaults
  first
    | ((repeat' split) <;> simp; done)
    | (dsimp only; (repeat' split) <;> simp [*]; done)
    | ((repeat' apply And.intro) <;> dsimp only <;> (repeat' split) <;> simp [*]; done)

@[simp] theorem fillWakeInfo_keeps : ∀ a1 a2 a3 a4 a5 s, (fillWakeInfo a1 a2 a3 a4 a5 s).dev = s.dev ∧ (fillWakeInfo a1
    a2 a3 a4 a5 s).pins = s.pins ∧ (fillWakeInfo a1 a2 a3 a4 a5 s).side = s.side ∧ (fillWakeInfo a1 a2 a3 a4 a5 s).prot
    = s.prot ∧ (fillWakeInfo a1 a2 a3 a4 a5 s).mram = s.mram ∧ (fillWakeInfo a1 a2 a3 a4 a5 s).img = s.img ∧
    (fillWakeInfo a1 a2 a3 a4 a5 s).host = s.host ∧ (fillWakeInfo a1 a2 a3 a4 a5 s).lat = s.lat ∧ (fillWakeInfo a1 a2 a3
    a4 a5 s).acct = s.acct ∧ (fillWakeInfo a1 a2 a3 a4 a5 s).lk = s.lk ∧ (fillWakeInfo a1 a2 a3 a4 a5 s).tim = s.tim ∧
    (fillWakeInfo a1 a2 a3 a4 a5 s).buf = s.buf ∧ (fillWakeInfo a1 a2 a3 a4 a5 s).eg = s.eg ∧ (fillWakeInfo a1 a2 a3 a4
    a5 s).tab = s.tab ∧ (fillWakeInfo a1 a2 a3 a4 a5 s).gen = s.gen ∧ (fillWakeInfo a1 a2 a3 a4 a5 s).eng = s.eng ∧
    (fillWakeInfo a1 a2 a3 a4 a5 s).recd = s.recd ∧ (fillWakeInfo a1 a2 a3 a4 a5 s).pmu = s.pmu ∧ (fillWakeInfo a1 a2 a3
    a4 a5 s).svc = s.svc ∧ (fillWakeInfo a1 a2 a3 a4 a5 s).therm = s.therm ∧ (fillWakeInfo a1 a2 a3 a4 a5 s).regs =
    s.regs ∧ (fillWakeInfo a1 a2 a3 a4 a5 s).hmem = s.hmem ∧ (fillWakeInfo a1 a2 a3 a4 a5 s).now = s.now ∧ (fillWakeInfo
    a1 a2 a3 a4 a5 s).elapsed = s.elapsed ∧ (fillWakeInfo a1 a2 a3 a4 a5 s).free = s.free ∧ (fillWakeInfo a1 a2 a3 a4 a5
    s).pending = s.pending := by
  intros; unfold fillWakeInfo
  first
    | ((repeat' split) <;> simp; done)
    | (dsimp only; (repeat' split) <;> simp [*]; done)
    | ((repeat' apply And.intro) <;> dsimp only <;> (repeat' split) <;> simp [*]; done)

@[simp] theorem wakeEndsFenced_keeps : ∀ a1 a2 a3 a4 s, (wakeEndsFenced a1 a2 a3 a4 s).dev = s.dev ∧ (wakeEndsFenced a1
    a2 a3 a4 s).prot = s.prot ∧ (wakeEndsFenced a1 a2 a3 a4 s).mram = s.mram ∧ (wakeEndsFenced a1 a2 a3 a4 s).img =
    s.img ∧ (wakeEndsFenced a1 a2 a3 a4 s).lat = s.lat ∧ (wakeEndsFenced a1 a2 a3 a4 s).tim = s.tim ∧ (wakeEndsFenced a1
    a2 a3 a4 s).gen = s.gen ∧ (wakeEndsFenced a1 a2 a3 a4 s).eng = s.eng ∧ (wakeEndsFenced a1 a2 a3 a4 s).svc = s.svc ∧
    (wakeEndsFenced a1 a2 a3 a4 s).therm = s.therm ∧ (wakeEndsFenced a1 a2 a3 a4 s).now = s.now ∧ (wakeEndsFenced a1 a2
    a3 a4 s).elapsed = s.elapsed ∧ (wakeEndsFenced a1 a2 a3 a4 s).free = s.free ∧ (wakeEndsFenced a1 a2 a3 a4 s).pending
    = s.pending := by
  intros; simp only [wakeEndsFenced]; (repeat' apply And.intro) <;> (first | (rw [linksEval_keeps.1]) | skip) <;> simp

@[simp] theorem wakeFault_keeps : ∀ a1 a2 a3 s, (wakeFault a1 a2 a3 s).dev = s.dev ∧ (wakeFault a1 a2 a3 s).prot =
    s.prot ∧ (wakeFault a1 a2 a3 s).img = s.img ∧ (wakeFault a1 a2 a3 s).lat = s.lat ∧ (wakeFault a1 a2 a3 s).tim =
    s.tim ∧ (wakeFault a1 a2 a3 s).gen = s.gen ∧ (wakeFault a1 a2 a3 s).eng = s.eng ∧ (wakeFault a1 a2 a3 s).svc = s.svc
    ∧ (wakeFault a1 a2 a3 s).therm = s.therm ∧ (wakeFault a1 a2 a3 s).now = s.now ∧ (wakeFault a1 a2 a3 s).elapsed =
    s.elapsed ∧ (wakeFault a1 a2 a3 s).free = s.free ∧ (wakeFault a1 a2 a3 s).pending = s.pending := by
  intro a1 a2 a3 s; simp only [wakeFault]; (repeat' apply And.intro) <;> simp

@[simp] theorem startRun_keeps : ∀ s, (startRun s).dev = s.dev ∧ (startRun s).pins = s.pins ∧ (startRun s).side = s.side
    ∧ (startRun s).prot = s.prot ∧ (startRun s).mram = s.mram ∧ (startRun s).img = s.img ∧ (startRun s).host = s.host ∧
    (startRun s).lat = s.lat ∧ (startRun s).acct = s.acct ∧ (startRun s).lk = s.lk ∧ (startRun s).tim = s.tim ∧
    (startRun s).buf = s.buf ∧ (startRun s).eg = s.eg ∧ (startRun s).tab = s.tab ∧ (startRun s).gen = s.gen ∧ (startRun
    s).eng = s.eng ∧ (startRun s).recd = s.recd ∧ (startRun s).pmu = s.pmu ∧ (startRun s).svc = s.svc ∧ (startRun
    s).therm = s.therm ∧ (startRun s).regs = s.regs ∧ (startRun s).hmem = s.hmem ∧ (startRun s).now = s.now ∧ (startRun
    s).elapsed = s.elapsed ∧ (startRun s).pending = s.pending := by
  intros; unfold startRun
  first
    | ((repeat' split) <;> simp; done)
    | (dsimp only; (repeat' split) <;> simp [*]; done)
    | ((repeat' apply And.intro) <;> dsimp only <;> (repeat' split) <;> simp [*]; done)

@[simp] theorem goRun_keeps : ∀ s, (goRun s).dev = s.dev ∧ (goRun s).pins = s.pins ∧ (goRun s).side = s.side ∧ (goRun
    s).prot = s.prot ∧ (goRun s).mram = s.mram ∧ (goRun s).img = s.img ∧ (goRun s).host = s.host ∧ (goRun s).lat = s.lat
    ∧ (goRun s).acct = s.acct ∧ (goRun s).lk = s.lk ∧ (goRun s).tim = s.tim ∧ (goRun s).buf = s.buf ∧ (goRun s).eg =
    s.eg ∧ (goRun s).tab = s.tab ∧ (goRun s).gen = s.gen ∧ (goRun s).eng = s.eng ∧ (goRun s).recd = s.recd ∧ (goRun
    s).pmu = s.pmu ∧ (goRun s).svc = s.svc ∧ (goRun s).therm = s.therm ∧ (goRun s).regs = s.regs ∧ (goRun s).hmem =
    s.hmem ∧ (goRun s).now = s.now ∧ (goRun s).elapsed = s.elapsed ∧ (goRun s).pending = s.pending := by
  intros; unfold goRun
  first
    | ((repeat' split) <;> simp; done)
    | (dsimp only; (repeat' split) <;> simp [*]; done)
    | ((repeat' apply And.intro) <;> dsimp only <;> (repeat' split) <;> simp [*]; done)

@[simp] theorem drainCmd_keeps : ∀ a1 a2 s, (drainCmd a1 a2 s).dev = s.dev ∧ (drainCmd a1 a2 s).pins = s.pins ∧
    (drainCmd a1 a2 s).side = s.side ∧ (drainCmd a1 a2 s).prot = s.prot ∧ (drainCmd a1 a2 s).mram = s.mram ∧ (drainCmd
    a1 a2 s).img = s.img ∧ (drainCmd a1 a2 s).host = s.host ∧ (drainCmd a1 a2 s).lat = s.lat ∧ (drainCmd a1 a2 s).acct =
    s.acct ∧ (drainCmd a1 a2 s).lk = s.lk ∧ (drainCmd a1 a2 s).tim = s.tim ∧ (drainCmd a1 a2 s).buf = s.buf ∧ (drainCmd
    a1 a2 s).eg = s.eg ∧ (drainCmd a1 a2 s).tab = s.tab ∧ (drainCmd a1 a2 s).gen = s.gen ∧ (drainCmd a1 a2 s).eng =
    s.eng ∧ (drainCmd a1 a2 s).recd = s.recd ∧ (drainCmd a1 a2 s).pmu = s.pmu ∧ (drainCmd a1 a2 s).svc = s.svc ∧
    (drainCmd a1 a2 s).therm = s.therm ∧ (drainCmd a1 a2 s).regs = s.regs ∧ (drainCmd a1 a2 s).hmem = s.hmem ∧ (drainCmd
    a1 a2 s).now = s.now ∧ (drainCmd a1 a2 s).elapsed = s.elapsed ∧ (drainCmd a1 a2 s).pending = s.pending := by
  intros; unfold drainCmd
  first
    | ((repeat' split) <;> simp; done)
    | (dsimp only; (repeat' split) <;> simp [*]; done)
    | ((repeat' apply And.intro) <;> dsimp only <;> (repeat' split) <;> simp [*]; done)

@[simp] theorem enterPark_keeps : ∀ a1 s, (enterPark a1 s).dev = s.dev ∧ (enterPark a1 s).img = s.img ∧ (enterPark a1
    s).lat = s.lat ∧ (enterPark a1 s).gen = s.gen ∧ (enterPark a1 s).eng = s.eng ∧ (enterPark a1 s).therm = s.therm ∧
    (enterPark a1 s).now = s.now ∧ (enterPark a1 s).elapsed = s.elapsed ∧ (enterPark a1 s).free = s.free ∧ (enterPark a1
    s).pending = s.pending := by
  intros; unfold enterPark
  first
    | ((repeat' split) <;> simp; done)
    | (dsimp only; (repeat' split) <;> simp [*]; done)
    | ((repeat' apply And.intro) <;> dsimp only <;> (repeat' split) <;> simp [*]; done)

end Sys2Proof.Laws
end

