-- ==== Sys2Proof/Laws/FramesTables.lean ====
section
/-! SUPPORT. Frame lemmas of the table operations, the lanes, Tsuip and the ports: every part of the state that each leaves as it was. -/

namespace Sys2Proof.Laws

open Sys2Proof Sys2Proof.Machine

-- The lemmas share one proof text, whose later alternatives some of them do not need.

@[simp] theorem refuse_keeps : ∀ a1 s, (refuse a1 s).st.md = s.md ∧ (refuse a1 s).st.dev = s.dev ∧ (refuse a1 s).st.pins
    = s.pins ∧ (refuse a1 s).st.side = s.side ∧ (refuse a1 s).st.prot = s.prot ∧ (refuse a1 s).st.mram = s.mram ∧
    (refuse a1 s).st.img = s.img ∧ (refuse a1 s).st.host = s.host ∧ (refuse a1 s).st.lat = s.lat ∧ (refuse a1 s).st.acct
    = s.acct ∧ (refuse a1 s).st.lk = s.lk ∧ (refuse a1 s).st.tim = s.tim ∧ (refuse a1 s).st.buf = s.buf ∧ (refuse a1
    s).st.eg = s.eg ∧ (refuse a1 s).st.tab = s.tab ∧ (refuse a1 s).st.gen = s.gen ∧ (refuse a1 s).st.eng = s.eng ∧
    (refuse a1 s).st.recd = s.recd ∧ (refuse a1 s).st.pmu = s.pmu ∧ (refuse a1 s).st.svc = s.svc ∧ (refuse a1
    s).st.therm = s.therm ∧ (refuse a1 s).st.regs = s.regs ∧ (refuse a1 s).st.hmem = s.hmem ∧ (refuse a1 s).st.now =
    s.now ∧ (refuse a1 s).st.elapsed = s.elapsed ∧ (refuse a1 s).st.free = s.free ∧ (refuse a1 s).st.pending = s.pending
    := by
  intros; unfold refuse
  first
    | ((repeat' split) <;> simp; done)
    | (dsimp only; (repeat' split) <;> simp [*]; done)
    | ((repeat' apply And.intro) <;> dsimp only <;> (repeat' split) <;> simp [*]; done)

@[simp] theorem ok_keeps : ∀ s, (ok s).st.md = s.md ∧ (ok s).st.dev = s.dev ∧ (ok s).st.pins = s.pins ∧ (ok s).st.side =
    s.side ∧ (ok s).st.prot = s.prot ∧ (ok s).st.mram = s.mram ∧ (ok s).st.img = s.img ∧ (ok s).st.host = s.host ∧ (ok
    s).st.lat = s.lat ∧ (ok s).st.acct = s.acct ∧ (ok s).st.lk = s.lk ∧ (ok s).st.tim = s.tim ∧ (ok s).st.buf = s.buf ∧
    (ok s).st.eg = s.eg ∧ (ok s).st.tab = s.tab ∧ (ok s).st.gen = s.gen ∧ (ok s).st.eng = s.eng ∧ (ok s).st.recd =
    s.recd ∧ (ok s).st.pmu = s.pmu ∧ (ok s).st.svc = s.svc ∧ (ok s).st.therm = s.therm ∧ (ok s).st.regs = s.regs ∧ (ok
    s).st.hmem = s.hmem ∧ (ok s).st.now = s.now ∧ (ok s).st.elapsed = s.elapsed ∧ (ok s).st.free = s.free ∧ (ok
    s).st.pending = s.pending := by
  intros; unfold ok
  first
    | ((repeat' split) <;> simp; done)
    | (dsimp only; (repeat' split) <;> simp [*]; done)
    | ((repeat' apply And.intro) <;> dsimp only <;> (repeat' split) <;> simp [*]; done)

@[simp] theorem okWith_keeps : ∀ a1 s, (okWith a1 s).st.md = s.md ∧ (okWith a1 s).st.dev = s.dev ∧ (okWith a1 s).st.pins
    = s.pins ∧ (okWith a1 s).st.side = s.side ∧ (okWith a1 s).st.prot = s.prot ∧ (okWith a1 s).st.mram = s.mram ∧
    (okWith a1 s).st.img = s.img ∧ (okWith a1 s).st.host = s.host ∧ (okWith a1 s).st.lat = s.lat ∧ (okWith a1 s).st.acct
    = s.acct ∧ (okWith a1 s).st.lk = s.lk ∧ (okWith a1 s).st.tim = s.tim ∧ (okWith a1 s).st.buf = s.buf ∧ (okWith a1
    s).st.eg = s.eg ∧ (okWith a1 s).st.tab = s.tab ∧ (okWith a1 s).st.gen = s.gen ∧ (okWith a1 s).st.eng = s.eng ∧
    (okWith a1 s).st.recd = s.recd ∧ (okWith a1 s).st.pmu = s.pmu ∧ (okWith a1 s).st.svc = s.svc ∧ (okWith a1
    s).st.therm = s.therm ∧ (okWith a1 s).st.regs = s.regs ∧ (okWith a1 s).st.hmem = s.hmem ∧ (okWith a1 s).st.now =
    s.now ∧ (okWith a1 s).st.elapsed = s.elapsed ∧ (okWith a1 s).st.free = s.free ∧ (okWith a1 s).st.pending = s.pending
    := by
  intros; unfold okWith
  first
    | ((repeat' split) <;> simp; done)
    | (dsimp only; (repeat' split) <;> simp [*]; done)
    | ((repeat' apply And.intro) <;> dsimp only <;> (repeat' split) <;> simp [*]; done)

@[simp] theorem okData_keeps : ∀ a1 s, (okData a1 s).st.md = s.md ∧ (okData a1 s).st.dev = s.dev ∧ (okData a1 s).st.pins
    = s.pins ∧ (okData a1 s).st.side = s.side ∧ (okData a1 s).st.prot = s.prot ∧ (okData a1 s).st.mram = s.mram ∧
    (okData a1 s).st.img = s.img ∧ (okData a1 s).st.host = s.host ∧ (okData a1 s).st.lat = s.lat ∧ (okData a1 s).st.acct
    = s.acct ∧ (okData a1 s).st.lk = s.lk ∧ (okData a1 s).st.tim = s.tim ∧ (okData a1 s).st.buf = s.buf ∧ (okData a1
    s).st.eg = s.eg ∧ (okData a1 s).st.tab = s.tab ∧ (okData a1 s).st.gen = s.gen ∧ (okData a1 s).st.eng = s.eng ∧
    (okData a1 s).st.recd = s.recd ∧ (okData a1 s).st.pmu = s.pmu ∧ (okData a1 s).st.svc = s.svc ∧ (okData a1
    s).st.therm = s.therm ∧ (okData a1 s).st.regs = s.regs ∧ (okData a1 s).st.hmem = s.hmem ∧ (okData a1 s).st.now =
    s.now ∧ (okData a1 s).st.elapsed = s.elapsed ∧ (okData a1 s).st.free = s.free ∧ (okData a1 s).st.pending = s.pending
    := by
  intros; unfold okData
  first
    | ((repeat' split) <;> simp; done)
    | (dsimp only; (repeat' split) <;> simp [*]; done)
    | ((repeat' apply And.intro) <;> dsimp only <;> (repeat' split) <;> simp [*]; done)

@[simp] theorem later_keeps : ∀ s, (later s).st.md = s.md ∧ (later s).st.dev = s.dev ∧ (later s).st.pins = s.pins ∧
    (later s).st.side = s.side ∧ (later s).st.prot = s.prot ∧ (later s).st.mram = s.mram ∧ (later s).st.img = s.img ∧
    (later s).st.host = s.host ∧ (later s).st.lat = s.lat ∧ (later s).st.acct = s.acct ∧ (later s).st.lk = s.lk ∧ (later
    s).st.tim = s.tim ∧ (later s).st.buf = s.buf ∧ (later s).st.eg = s.eg ∧ (later s).st.tab = s.tab ∧ (later s).st.gen
    = s.gen ∧ (later s).st.eng = s.eng ∧ (later s).st.recd = s.recd ∧ (later s).st.pmu = s.pmu ∧ (later s).st.svc =
    s.svc ∧ (later s).st.therm = s.therm ∧ (later s).st.regs = s.regs ∧ (later s).st.hmem = s.hmem ∧ (later s).st.now =
    s.now ∧ (later s).st.elapsed = s.elapsed ∧ (later s).st.free = s.free ∧ (later s).st.pending = s.pending := by
  intros; unfold later
  first
    | ((repeat' split) <;> simp; done)
    | (dsimp only; (repeat' split) <;> simp [*]; done)
    | ((repeat' apply And.intro) <;> dsimp only <;> (repeat' split) <;> simp [*]; done)

@[simp] theorem readBuf_keeps : ∀ a1 a2 s, (readBuf a1 a2 s).2.md = s.md ∧ (readBuf a1 a2 s).2.dev = s.dev ∧ (readBuf a1
    a2 s).2.pins = s.pins ∧ (readBuf a1 a2 s).2.side = s.side ∧ (readBuf a1 a2 s).2.prot = s.prot ∧ (readBuf a1 a2
    s).2.mram = s.mram ∧ (readBuf a1 a2 s).2.img = s.img ∧ (readBuf a1 a2 s).2.host = s.host ∧ (readBuf a1 a2 s).2.lat =
    s.lat ∧ (readBuf a1 a2 s).2.acct = s.acct ∧ (readBuf a1 a2 s).2.lk = s.lk ∧ (readBuf a1 a2 s).2.tim = s.tim ∧
    (readBuf a1 a2 s).2.buf = s.buf ∧ (readBuf a1 a2 s).2.eg = s.eg ∧ (readBuf a1 a2 s).2.tab = s.tab ∧ (readBuf a1 a2
    s).2.gen = s.gen ∧ (readBuf a1 a2 s).2.eng = s.eng ∧ (readBuf a1 a2 s).2.recd = s.recd ∧ (readBuf a1 a2 s).2.svc =
    s.svc ∧ (readBuf a1 a2 s).2.therm = s.therm ∧ (readBuf a1 a2 s).2.hmem = s.hmem ∧ (readBuf a1 a2 s).2.now = s.now ∧
    (readBuf a1 a2 s).2.elapsed = s.elapsed ∧ (readBuf a1 a2 s).2.free = s.free ∧ (readBuf a1 a2 s).2.pending =
    s.pending := by
  intros; unfold readBuf
  first
    | ((repeat' split) <;> simp; done)
    | (dsimp only; (repeat' split) <;> simp [*]; done)
    | ((repeat' apply And.intro) <;> dsimp only <;> (repeat' split) <;> simp [*]; done)

@[simp] theorem tcmdAnswer_keeps : ∀ a1 s, (tcmdAnswer a1 s).md = s.md ∧ (tcmdAnswer a1 s).dev = s.dev ∧ (tcmdAnswer a1
    s).pins = s.pins ∧ (tcmdAnswer a1 s).side = s.side ∧ (tcmdAnswer a1 s).prot = s.prot ∧ (tcmdAnswer a1 s).mram =
    s.mram ∧ (tcmdAnswer a1 s).img = s.img ∧ (tcmdAnswer a1 s).host = s.host ∧ (tcmdAnswer a1 s).lat = s.lat ∧
    (tcmdAnswer a1 s).acct = s.acct ∧ (tcmdAnswer a1 s).lk = s.lk ∧ (tcmdAnswer a1 s).tim = s.tim ∧ (tcmdAnswer a1
    s).buf = s.buf ∧ (tcmdAnswer a1 s).eg = s.eg ∧ (tcmdAnswer a1 s).gen = s.gen ∧ (tcmdAnswer a1 s).eng = s.eng ∧
    (tcmdAnswer a1 s).recd = s.recd ∧ (tcmdAnswer a1 s).pmu = s.pmu ∧ (tcmdAnswer a1 s).svc = s.svc ∧ (tcmdAnswer a1
    s).therm = s.therm ∧ (tcmdAnswer a1 s).hmem = s.hmem ∧ (tcmdAnswer a1 s).now = s.now ∧ (tcmdAnswer a1 s).elapsed =
    s.elapsed ∧ (tcmdAnswer a1 s).free = s.free ∧ (tcmdAnswer a1 s).pending = s.pending := by
  intros; unfold tcmdAnswer
  first
    | ((repeat' split) <;> simp; done)
    | (dsimp only; (repeat' split) <;> simp [*]; done)
    | ((repeat' apply And.intro) <;> dsimp only <;> (repeat' split) <;> simp [*]; done)

@[simp] theorem answerCmd_keeps : ∀ a1 a2 a3 s, (answerCmd a1 a2 a3 s).md = s.md ∧ (answerCmd a1 a2 a3 s).dev = s.dev ∧
    (answerCmd a1 a2 a3 s).pins = s.pins ∧ (answerCmd a1 a2 a3 s).side = s.side ∧ (answerCmd a1 a2 a3 s).prot = s.prot ∧
    (answerCmd a1 a2 a3 s).mram = s.mram ∧ (answerCmd a1 a2 a3 s).lat = s.lat ∧ (answerCmd a1 a2 a3 s).acct = s.acct ∧
    (answerCmd a1 a2 a3 s).lk = s.lk ∧ (answerCmd a1 a2 a3 s).tim = s.tim ∧ (answerCmd a1 a2 a3 s).buf = s.buf ∧
    (answerCmd a1 a2 a3 s).eg = s.eg ∧ (answerCmd a1 a2 a3 s).gen = s.gen ∧ (answerCmd a1 a2 a3 s).eng = s.eng ∧
    (answerCmd a1 a2 a3 s).recd = s.recd ∧ (answerCmd a1 a2 a3 s).svc = s.svc ∧ (answerCmd a1 a2 a3 s).therm = s.therm ∧
    (answerCmd a1 a2 a3 s).now = s.now ∧ (answerCmd a1 a2 a3 s).elapsed = s.elapsed ∧ (answerCmd a1 a2 a3 s).free =
    s.free ∧ (answerCmd a1 a2 a3 s).pending = s.pending := by
  intros; unfold answerCmd
  first
    | ((repeat' split) <;> simp; done)
    | (dsimp only; (repeat' split) <;> simp [*]; done)
    | ((repeat' apply And.intro) <;> dsimp only <;> (repeat' split) <;> simp [*]; done)

@[simp] theorem bufStop_keeps : ∀ a1 s, (bufStop a1 s).md = s.md ∧ (bufStop a1 s).dev = s.dev ∧ (bufStop a1 s).pins =
    s.pins ∧ (bufStop a1 s).side = s.side ∧ (bufStop a1 s).prot = s.prot ∧ (bufStop a1 s).mram = s.mram ∧ (bufStop a1
    s).img = s.img ∧ (bufStop a1 s).lat = s.lat ∧ (bufStop a1 s).acct = s.acct ∧ (bufStop a1 s).lk = s.lk ∧ (bufStop a1
    s).tim = s.tim ∧ (bufStop a1 s).buf = s.buf ∧ (bufStop a1 s).eg = s.eg ∧ (bufStop a1 s).tab = s.tab ∧ (bufStop a1
    s).gen = s.gen ∧ (bufStop a1 s).eng = s.eng ∧ (bufStop a1 s).recd = s.recd ∧ (bufStop a1 s).svc = s.svc ∧ (bufStop
    a1 s).therm = s.therm ∧ (bufStop a1 s).now = s.now ∧ (bufStop a1 s).elapsed = s.elapsed ∧ (bufStop a1 s).free =
    s.free ∧ (bufStop a1 s).pending = s.pending := by
  intros; unfold bufStop
  first
    | ((repeat' split) <;> simp; done)
    | (dsimp only; (repeat' split) <;> simp [*]; done)
    | ((repeat' apply And.intro) <;> dsimp only <;> (repeat' split) <;> simp [*]; done)

@[simp] theorem setEntry_keeps : ∀ a1 a2 a3 a4 s, (setEntry a1 a2 a3 a4 s).md = s.md ∧ (setEntry a1 a2 a3 a4 s).dev =
    s.dev ∧ (setEntry a1 a2 a3 a4 s).pins = s.pins ∧ (setEntry a1 a2 a3 a4 s).side = s.side ∧ (setEntry a1 a2 a3 a4
    s).prot = s.prot ∧ (setEntry a1 a2 a3 a4 s).mram = s.mram ∧ (setEntry a1 a2 a3 a4 s).img = s.img ∧ (setEntry a1 a2
    a3 a4 s).host = s.host ∧ (setEntry a1 a2 a3 a4 s).lat = s.lat ∧ (setEntry a1 a2 a3 a4 s).acct = s.acct ∧ (setEntry
    a1 a2 a3 a4 s).lk = s.lk ∧ (setEntry a1 a2 a3 a4 s).tim = s.tim ∧ (setEntry a1 a2 a3 a4 s).buf = s.buf ∧ (setEntry
    a1 a2 a3 a4 s).eg = s.eg ∧ (setEntry a1 a2 a3 a4 s).gen = s.gen ∧ (setEntry a1 a2 a3 a4 s).eng = s.eng ∧ (setEntry
    a1 a2 a3 a4 s).recd = s.recd ∧ (setEntry a1 a2 a3 a4 s).pmu = s.pmu ∧ (setEntry a1 a2 a3 a4 s).svc = s.svc ∧
    (setEntry a1 a2 a3 a4 s).therm = s.therm ∧ (setEntry a1 a2 a3 a4 s).regs = s.regs ∧ (setEntry a1 a2 a3 a4 s).hmem =
    s.hmem ∧ (setEntry a1 a2 a3 a4 s).now = s.now ∧ (setEntry a1 a2 a3 a4 s).elapsed = s.elapsed ∧ (setEntry a1 a2 a3 a4
    s).free = s.free ∧ (setEntry a1 a2 a3 a4 s).pending = s.pending := by
  intros; unfold setEntry
  first
    | ((repeat' split) <;> simp; done)
    | (dsimp only; (repeat' split) <;> simp [*]; done)
    | ((repeat' apply And.intro) <;> dsimp only <;> (repeat' split) <;> simp [*]; done)

@[simp] theorem writeRule_keeps : ∀ a1 a2 s, (writeRule a1 a2 s).md = s.md ∧ (writeRule a1 a2 s).dev = s.dev ∧
    (writeRule a1 a2 s).pins = s.pins ∧ (writeRule a1 a2 s).side = s.side ∧ (writeRule a1 a2 s).prot = s.prot ∧
    (writeRule a1 a2 s).mram = s.mram ∧ (writeRule a1 a2 s).img = s.img ∧ (writeRule a1 a2 s).host = s.host ∧ (writeRule
    a1 a2 s).lat = s.lat ∧ (writeRule a1 a2 s).acct = s.acct ∧ (writeRule a1 a2 s).lk = s.lk ∧ (writeRule a1 a2 s).tim =
    s.tim ∧ (writeRule a1 a2 s).buf = s.buf ∧ (writeRule a1 a2 s).eg = s.eg ∧ (writeRule a1 a2 s).gen = s.gen ∧
    (writeRule a1 a2 s).eng = s.eng ∧ (writeRule a1 a2 s).recd = s.recd ∧ (writeRule a1 a2 s).pmu = s.pmu ∧ (writeRule
    a1 a2 s).svc = s.svc ∧ (writeRule a1 a2 s).therm = s.therm ∧ (writeRule a1 a2 s).regs = s.regs ∧ (writeRule a1 a2
    s).hmem = s.hmem ∧ (writeRule a1 a2 s).now = s.now ∧ (writeRule a1 a2 s).elapsed = s.elapsed ∧ (writeRule a1 a2
    s).free = s.free ∧ (writeRule a1 a2 s).pending = s.pending := by
  intros; unfold writeRule
  first
    | ((repeat' split) <;> simp; done)
    | (dsimp only; (repeat' split) <;> simp [*]; done)
    | ((repeat' apply And.intro) <;> dsimp only <;> (repeat' split) <;> simp [*]; done)

@[simp] theorem tidyRule_keeps : ∀ a1 s, (tidyRule a1 s).md = s.md ∧ (tidyRule a1 s).dev = s.dev ∧ (tidyRule a1 s).pins
    = s.pins ∧ (tidyRule a1 s).side = s.side ∧ (tidyRule a1 s).prot = s.prot ∧ (tidyRule a1 s).mram = s.mram ∧ (tidyRule
    a1 s).img = s.img ∧ (tidyRule a1 s).host = s.host ∧ (tidyRule a1 s).lat = s.lat ∧ (tidyRule a1 s).acct = s.acct ∧
    (tidyRule a1 s).lk = s.lk ∧ (tidyRule a1 s).tim = s.tim ∧ (tidyRule a1 s).buf = s.buf ∧ (tidyRule a1 s).eg = s.eg ∧
    (tidyRule a1 s).gen = s.gen ∧ (tidyRule a1 s).eng = s.eng ∧ (tidyRule a1 s).recd = s.recd ∧ (tidyRule a1 s).pmu =
    s.pmu ∧ (tidyRule a1 s).svc = s.svc ∧ (tidyRule a1 s).therm = s.therm ∧ (tidyRule a1 s).regs = s.regs ∧ (tidyRule a1
    s).hmem = s.hmem ∧ (tidyRule a1 s).now = s.now ∧ (tidyRule a1 s).elapsed = s.elapsed ∧ (tidyRule a1 s).free = s.free
    ∧ (tidyRule a1 s).pending = s.pending := by
  intros; unfold tidyRule
  first
    | ((repeat' split) <;> simp; done)
    | (dsimp only; (repeat' split) <;> simp [*]; done)
    | ((repeat' apply And.intro) <;> dsimp only <;> (repeat' split) <;> simp [*]; done)

@[simp] theorem clearRule_keeps : ∀ a1 a2 s, (clearRule a1 a2 s).md = s.md ∧ (clearRule a1 a2 s).dev = s.dev ∧
    (clearRule a1 a2 s).pins = s.pins ∧ (clearRule a1 a2 s).side = s.side ∧ (clearRule a1 a2 s).prot = s.prot ∧
    (clearRule a1 a2 s).mram = s.mram ∧ (clearRule a1 a2 s).img = s.img ∧ (clearRule a1 a2 s).host = s.host ∧ (clearRule
    a1 a2 s).lat = s.lat ∧ (clearRule a1 a2 s).acct = s.acct ∧ (clearRule a1 a2 s).lk = s.lk ∧ (clearRule a1 a2 s).tim =
    s.tim ∧ (clearRule a1 a2 s).buf = s.buf ∧ (clearRule a1 a2 s).eg = s.eg ∧ (clearRule a1 a2 s).gen = s.gen ∧
    (clearRule a1 a2 s).eng = s.eng ∧ (clearRule a1 a2 s).recd = s.recd ∧ (clearRule a1 a2 s).pmu = s.pmu ∧ (clearRule
    a1 a2 s).svc = s.svc ∧ (clearRule a1 a2 s).therm = s.therm ∧ (clearRule a1 a2 s).regs = s.regs ∧ (clearRule a1 a2
    s).hmem = s.hmem ∧ (clearRule a1 a2 s).now = s.now ∧ (clearRule a1 a2 s).elapsed = s.elapsed ∧ (clearRule a1 a2
    s).free = s.free ∧ (clearRule a1 a2 s).pending = s.pending := by
  intros; unfold clearRule
  first
    | ((repeat' split) <;> simp; done)
    | (dsimp only; (repeat' split) <;> simp [*]; done)
    | ((repeat' apply And.intro) <;> dsimp only <;> (repeat' split) <;> simp [*]; done)

@[simp] theorem hgtCounters_keeps : ∀ a1 a2 s, (hgtCounters a1 a2 s).2.md = s.md ∧ (hgtCounters a1 a2 s).2.dev = s.dev ∧
    (hgtCounters a1 a2 s).2.pins = s.pins ∧ (hgtCounters a1 a2 s).2.side = s.side ∧ (hgtCounters a1 a2 s).2.prot =
    s.prot ∧ (hgtCounters a1 a2 s).2.mram = s.mram ∧ (hgtCounters a1 a2 s).2.img = s.img ∧ (hgtCounters a1 a2 s).2.host
    = s.host ∧ (hgtCounters a1 a2 s).2.lat = s.lat ∧ (hgtCounters a1 a2 s).2.acct = s.acct ∧ (hgtCounters a1 a2 s).2.lk
    = s.lk ∧ (hgtCounters a1 a2 s).2.tim = s.tim ∧ (hgtCounters a1 a2 s).2.buf = s.buf ∧ (hgtCounters a1 a2 s).2.eg =
    s.eg ∧ (hgtCounters a1 a2 s).2.gen = s.gen ∧ (hgtCounters a1 a2 s).2.eng = s.eng ∧ (hgtCounters a1 a2 s).2.recd =
    s.recd ∧ (hgtCounters a1 a2 s).2.pmu = s.pmu ∧ (hgtCounters a1 a2 s).2.svc = s.svc ∧ (hgtCounters a1 a2 s).2.therm =
    s.therm ∧ (hgtCounters a1 a2 s).2.regs = s.regs ∧ (hgtCounters a1 a2 s).2.hmem = s.hmem ∧ (hgtCounters a1 a2
    s).2.now = s.now ∧ (hgtCounters a1 a2 s).2.elapsed = s.elapsed ∧ (hgtCounters a1 a2 s).2.free = s.free ∧
    (hgtCounters a1 a2 s).2.pending = s.pending := by
  intros; unfold hgtCounters
  first
    | ((repeat' split) <;> simp; done)
    | (dsimp only; (repeat' split) <;> simp [*]; done)
    | ((repeat' apply And.intro) <;> dsimp only <;> (repeat' split) <;> simp [*]; done)

@[simp] theorem tcamBadFound_keeps : ∀ a1 s, (tcamBadFound a1 s).md = s.md ∧ (tcamBadFound a1 s).dev = s.dev ∧
    (tcamBadFound a1 s).pins = s.pins ∧ (tcamBadFound a1 s).side = s.side ∧ (tcamBadFound a1 s).prot = s.prot ∧
    (tcamBadFound a1 s).mram = s.mram ∧ (tcamBadFound a1 s).img = s.img ∧ (tcamBadFound a1 s).lat = s.lat ∧
    (tcamBadFound a1 s).acct = s.acct ∧ (tcamBadFound a1 s).lk = s.lk ∧ (tcamBadFound a1 s).tim = s.tim ∧ (tcamBadFound
    a1 s).buf = s.buf ∧ (tcamBadFound a1 s).eg = s.eg ∧ (tcamBadFound a1 s).gen = s.gen ∧ (tcamBadFound a1 s).eng =
    s.eng ∧ (tcamBadFound a1 s).recd = s.recd ∧ (tcamBadFound a1 s).pmu = s.pmu ∧ (tcamBadFound a1 s).svc = s.svc ∧
    (tcamBadFound a1 s).therm = s.therm ∧ (tcamBadFound a1 s).hmem = s.hmem ∧ (tcamBadFound a1 s).now = s.now ∧
    (tcamBadFound a1 s).elapsed = s.elapsed ∧ (tcamBadFound a1 s).free = s.free ∧ (tcamBadFound a1 s).pending =
    s.pending := by
  intros; unfold tcamBadFound
  first
    | ((repeat' split) <;> simp; done)
    | (dsimp only; (repeat' split) <;> simp [*]; done)
    | ((repeat' apply And.intro) <;> dsimp only <;> (repeat' split) <;> simp [*]; done)

@[simp] theorem hashWrite_keeps : ∀ a1 a2 s, (hashWrite a1 a2 s).md = s.md ∧ (hashWrite a1 a2 s).dev = s.dev ∧
    (hashWrite a1 a2 s).pins = s.pins ∧ (hashWrite a1 a2 s).side = s.side ∧ (hashWrite a1 a2 s).prot = s.prot ∧
    (hashWrite a1 a2 s).mram = s.mram ∧ (hashWrite a1 a2 s).img = s.img ∧ (hashWrite a1 a2 s).host = s.host ∧ (hashWrite
    a1 a2 s).lat = s.lat ∧ (hashWrite a1 a2 s).acct = s.acct ∧ (hashWrite a1 a2 s).lk = s.lk ∧ (hashWrite a1 a2 s).tim =
    s.tim ∧ (hashWrite a1 a2 s).buf = s.buf ∧ (hashWrite a1 a2 s).eg = s.eg ∧ (hashWrite a1 a2 s).tab = s.tab ∧
    (hashWrite a1 a2 s).gen = s.gen ∧ (hashWrite a1 a2 s).eng = s.eng ∧ (hashWrite a1 a2 s).recd = s.recd ∧ (hashWrite
    a1 a2 s).pmu = s.pmu ∧ (hashWrite a1 a2 s).svc = s.svc ∧ (hashWrite a1 a2 s).therm = s.therm ∧ (hashWrite a1 a2
    s).hmem = s.hmem ∧ (hashWrite a1 a2 s).now = s.now ∧ (hashWrite a1 a2 s).elapsed = s.elapsed ∧ (hashWrite a1 a2
    s).free = s.free ∧ (hashWrite a1 a2 s).pending = s.pending := by
  intros; unfold hashWrite
  first
    | ((repeat' split) <;> simp; done)
    | (dsimp only; (repeat' split) <;> simp [*]; done)
    | ((repeat' apply And.intro) <;> dsimp only <;> (repeat' split) <;> simp [*]; done)

@[simp] theorem bankWrite_keeps : ∀ a1 a2 a3 s, (bankWrite a1 a2 a3 s).md = s.md ∧ (bankWrite a1 a2 a3 s).dev = s.dev ∧
    (bankWrite a1 a2 a3 s).pins = s.pins ∧ (bankWrite a1 a2 a3 s).side = s.side ∧ (bankWrite a1 a2 a3 s).prot = s.prot ∧
    (bankWrite a1 a2 a3 s).mram = s.mram ∧ (bankWrite a1 a2 a3 s).img = s.img ∧ (bankWrite a1 a2 a3 s).host = s.host ∧
    (bankWrite a1 a2 a3 s).lat = s.lat ∧ (bankWrite a1 a2 a3 s).acct = s.acct ∧ (bankWrite a1 a2 a3 s).lk = s.lk ∧
    (bankWrite a1 a2 a3 s).tim = s.tim ∧ (bankWrite a1 a2 a3 s).buf = s.buf ∧ (bankWrite a1 a2 a3 s).eg = s.eg ∧
    (bankWrite a1 a2 a3 s).tab = s.tab ∧ (bankWrite a1 a2 a3 s).gen = s.gen ∧ (bankWrite a1 a2 a3 s).eng = s.eng ∧
    (bankWrite a1 a2 a3 s).recd = s.recd ∧ (bankWrite a1 a2 a3 s).pmu = s.pmu ∧ (bankWrite a1 a2 a3 s).svc = s.svc ∧
    (bankWrite a1 a2 a3 s).therm = s.therm ∧ (bankWrite a1 a2 a3 s).hmem = s.hmem ∧ (bankWrite a1 a2 a3 s).now = s.now ∧
    (bankWrite a1 a2 a3 s).elapsed = s.elapsed ∧ (bankWrite a1 a2 a3 s).free = s.free ∧ (bankWrite a1 a2 a3 s).pending =
    s.pending := by
  intros; unfold bankWrite
  first
    | ((repeat' split) <;> simp; done)
    | (dsimp only; (repeat' split) <;> simp [*]; done)
    | ((repeat' apply And.intro) <;> dsimp only <;> (repeat' split) <;> simp [*]; done)

@[simp] theorem setFdb_keeps : ∀ a1 a2 s, (setFdb a1 a2 s).md = s.md ∧ (setFdb a1 a2 s).dev = s.dev ∧ (setFdb a1 a2
    s).pins = s.pins ∧ (setFdb a1 a2 s).side = s.side ∧ (setFdb a1 a2 s).prot = s.prot ∧ (setFdb a1 a2 s).mram = s.mram
    ∧ (setFdb a1 a2 s).img = s.img ∧ (setFdb a1 a2 s).host = s.host ∧ (setFdb a1 a2 s).lat = s.lat ∧ (setFdb a1 a2
    s).acct = s.acct ∧ (setFdb a1 a2 s).lk = s.lk ∧ (setFdb a1 a2 s).tim = s.tim ∧ (setFdb a1 a2 s).buf = s.buf ∧
    (setFdb a1 a2 s).eg = s.eg ∧ (setFdb a1 a2 s).gen = s.gen ∧ (setFdb a1 a2 s).eng = s.eng ∧ (setFdb a1 a2 s).recd =
    s.recd ∧ (setFdb a1 a2 s).pmu = s.pmu ∧ (setFdb a1 a2 s).svc = s.svc ∧ (setFdb a1 a2 s).therm = s.therm ∧ (setFdb a1
    a2 s).regs = s.regs ∧ (setFdb a1 a2 s).hmem = s.hmem ∧ (setFdb a1 a2 s).now = s.now ∧ (setFdb a1 a2 s).elapsed =
    s.elapsed ∧ (setFdb a1 a2 s).free = s.free ∧ (setFdb a1 a2 s).pending = s.pending := by
  intros; unfold setFdb
  first
    | ((repeat' split) <;> simp; done)
    | (dsimp only; (repeat' split) <;> simp [*]; done)
    | ((repeat' apply And.intro) <;> dsimp only <;> (repeat' split) <;> simp [*]; done)

@[simp] theorem moveChain_keeps : ∀ l b s, (moveChain l b s).md = s.md ∧ (moveChain l b s).dev = s.dev ∧ (moveChain l b
    s).pins = s.pins ∧ (moveChain l b s).side = s.side ∧ (moveChain l b s).prot = s.prot ∧ (moveChain l b s).mram =
    s.mram ∧ (moveChain l b s).img = s.img ∧ (moveChain l b s).host = s.host ∧ (moveChain l b s).lat = s.lat ∧
    (moveChain l b s).acct = s.acct ∧ (moveChain l b s).lk = s.lk ∧ (moveChain l b s).tim = s.tim ∧ (moveChain l b
    s).buf = s.buf ∧ (moveChain l b s).eg = s.eg ∧ (moveChain l b s).gen = s.gen ∧ (moveChain l b s).eng = s.eng ∧
    (moveChain l b s).recd = s.recd ∧ (moveChain l b s).pmu = s.pmu ∧ (moveChain l b s).svc = s.svc ∧ (moveChain l b
    s).therm = s.therm ∧ (moveChain l b s).regs = s.regs ∧ (moveChain l b s).hmem = s.hmem ∧ (moveChain l b s).now =
    s.now ∧ (moveChain l b s).elapsed = s.elapsed ∧ (moveChain l b s).free = s.free ∧ (moveChain l b s).pending =
    s.pending := by
  intro l; induction l with
  | nil => intros; simp [moveChain]
  | cons x l ih => intro b s; simp only [moveChain]; split <;> simp [ih]

@[simp] theorem fdbPlace_keeps : ∀ a b s x, fdbPlace a b s = some x → x.2.2.md = s.md ∧ x.2.2.dev = s.dev ∧ x.2.2.pins =
    s.pins ∧ x.2.2.side = s.side ∧ x.2.2.prot = s.prot ∧ x.2.2.mram = s.mram ∧ x.2.2.img = s.img ∧ x.2.2.host = s.host ∧
    x.2.2.lat = s.lat ∧ x.2.2.acct = s.acct ∧ x.2.2.lk = s.lk ∧ x.2.2.tim = s.tim ∧ x.2.2.buf = s.buf ∧ x.2.2.eg = s.eg
    ∧ x.2.2.gen = s.gen ∧ x.2.2.eng = s.eng ∧ x.2.2.recd = s.recd ∧ x.2.2.pmu = s.pmu ∧ x.2.2.svc = s.svc ∧ x.2.2.therm
    = s.therm ∧ x.2.2.regs = s.regs ∧ x.2.2.hmem = s.hmem ∧ x.2.2.now = s.now ∧ x.2.2.elapsed = s.elapsed ∧ x.2.2.free =
    s.free ∧ x.2.2.pending = s.pending := by
  intro a b s x h; unfold fdbPlace at h; dsimp only at h; (repeat' split at h) <;> simp only [Option.map_eq_some_iff, Option.some.injEq] at h <;> first | (obtain ⟨r, hr, rfl⟩ := h; simp [*]; try simp [fdbPlace_keeps _ _ _ _ hr]) | (subst h; simp)

@[simp] theorem stageEntry_keeps : ∀ a s x, stageEntry a s = some x → x.2.2.md = s.md ∧ x.2.2.dev = s.dev ∧ x.2.2.pins =
    s.pins ∧ x.2.2.side = s.side ∧ x.2.2.prot = s.prot ∧ x.2.2.mram = s.mram ∧ x.2.2.img = s.img ∧ x.2.2.host = s.host ∧
    x.2.2.lat = s.lat ∧ x.2.2.acct = s.acct ∧ x.2.2.lk = s.lk ∧ x.2.2.tim = s.tim ∧ x.2.2.buf = s.buf ∧ x.2.2.eg = s.eg
    ∧ x.2.2.gen = s.gen ∧ x.2.2.eng = s.eng ∧ x.2.2.recd = s.recd ∧ x.2.2.pmu = s.pmu ∧ x.2.2.svc = s.svc ∧ x.2.2.therm
    = s.therm ∧ x.2.2.regs = s.regs ∧ x.2.2.hmem = s.hmem ∧ x.2.2.now = s.now ∧ x.2.2.elapsed = s.elapsed ∧ x.2.2.free =
    s.free ∧ x.2.2.pending = s.pending := by
  intro a s x h; unfold stageEntry at h; dsimp only at h; (repeat' split at h) <;> simp only [Option.map_eq_some_iff, Option.some.injEq] at h <;> first | (obtain ⟨r, hr, rfl⟩ := h; simp [*]; try simp [fdbPlace_keeps _ _ _ _ hr]) | (subst h; simp)

@[simp] theorem removeByMode_keeps : ∀ a1 a2 s, (removeByMode a1 a2 s).md = s.md ∧ (removeByMode a1 a2 s).dev = s.dev ∧
    (removeByMode a1 a2 s).pins = s.pins ∧ (removeByMode a1 a2 s).side = s.side ∧ (removeByMode a1 a2 s).prot = s.prot ∧
    (removeByMode a1 a2 s).mram = s.mram ∧ (removeByMode a1 a2 s).img = s.img ∧ (removeByMode a1 a2 s).host = s.host ∧
    (removeByMode a1 a2 s).lat = s.lat ∧ (removeByMode a1 a2 s).acct = s.acct ∧ (removeByMode a1 a2 s).lk = s.lk ∧
    (removeByMode a1 a2 s).tim = s.tim ∧ (removeByMode a1 a2 s).buf = s.buf ∧ (removeByMode a1 a2 s).eg = s.eg ∧
    (removeByMode a1 a2 s).gen = s.gen ∧ (removeByMode a1 a2 s).eng = s.eng ∧ (removeByMode a1 a2 s).recd = s.recd ∧
    (removeByMode a1 a2 s).pmu = s.pmu ∧ (removeByMode a1 a2 s).svc = s.svc ∧ (removeByMode a1 a2 s).therm = s.therm ∧
    (removeByMode a1 a2 s).regs = s.regs ∧ (removeByMode a1 a2 s).hmem = s.hmem ∧ (removeByMode a1 a2 s).now = s.now ∧
    (removeByMode a1 a2 s).elapsed = s.elapsed ∧ (removeByMode a1 a2 s).free = s.free ∧ (removeByMode a1 a2 s).pending =
    s.pending := by
  intros; unfold removeByMode
  first
    | ((repeat' split) <;> simp; done)
    | (dsimp only; (repeat' split) <;> simp [*]; done)
    | ((repeat' apply And.intro) <;> dsimp only <;> (repeat' split) <;> simp [*]; done)

@[simp] theorem emitLearn_keeps : ∀ a1 a2 a3 a4 a5 a6 a7 a8 s, (emitLearn a1 a2 a3 a4 a5 a6 a7 a8 s).md = s.md ∧
    (emitLearn a1 a2 a3 a4 a5 a6 a7 a8 s).dev = s.dev ∧ (emitLearn a1 a2 a3 a4 a5 a6 a7 a8 s).pins = s.pins ∧ (emitLearn
    a1 a2 a3 a4 a5 a6 a7 a8 s).side = s.side ∧ (emitLearn a1 a2 a3 a4 a5 a6 a7 a8 s).prot = s.prot ∧ (emitLearn a1 a2 a3
    a4 a5 a6 a7 a8 s).mram = s.mram ∧ (emitLearn a1 a2 a3 a4 a5 a6 a7 a8 s).img = s.img ∧ (emitLearn a1 a2 a3 a4 a5 a6
    a7 a8 s).lat = s.lat ∧ (emitLearn a1 a2 a3 a4 a5 a6 a7 a8 s).acct = s.acct ∧ (emitLearn a1 a2 a3 a4 a5 a6 a7 a8
    s).lk = s.lk ∧ (emitLearn a1 a2 a3 a4 a5 a6 a7 a8 s).tim = s.tim ∧ (emitLearn a1 a2 a3 a4 a5 a6 a7 a8 s).buf = s.buf
    ∧ (emitLearn a1 a2 a3 a4 a5 a6 a7 a8 s).eg = s.eg ∧ (emitLearn a1 a2 a3 a4 a5 a6 a7 a8 s).tab = s.tab ∧ (emitLearn
    a1 a2 a3 a4 a5 a6 a7 a8 s).gen = s.gen ∧ (emitLearn a1 a2 a3 a4 a5 a6 a7 a8 s).eng = s.eng ∧ (emitLearn a1 a2 a3 a4
    a5 a6 a7 a8 s).recd = s.recd ∧ (emitLearn a1 a2 a3 a4 a5 a6 a7 a8 s).pmu = s.pmu ∧ (emitLearn a1 a2 a3 a4 a5 a6 a7
    a8 s).svc = s.svc ∧ (emitLearn a1 a2 a3 a4 a5 a6 a7 a8 s).therm = s.therm ∧ (emitLearn a1 a2 a3 a4 a5 a6 a7 a8
    s).hmem = s.hmem ∧ (emitLearn a1 a2 a3 a4 a5 a6 a7 a8 s).now = s.now ∧ (emitLearn a1 a2 a3 a4 a5 a6 a7 a8 s).elapsed
    = s.elapsed ∧ (emitLearn a1 a2 a3 a4 a5 a6 a7 a8 s).free = s.free ∧ (emitLearn a1 a2 a3 a4 a5 a6 a7 a8 s).pending =
    s.pending := by
  intros; unfold emitLearn
  first
    | ((repeat' split) <;> simp; done)
    | (dsimp only; (repeat' split) <;> simp [*]; done)
    | ((repeat' apply And.intro) <;> dsimp only <;> (repeat' split) <;> simp [*]; done)

@[simp] theorem learnFull_keeps : ∀ a1 s, (learnFull a1 s).md = s.md ∧ (learnFull a1 s).dev = s.dev ∧ (learnFull a1
    s).pins = s.pins ∧ (learnFull a1 s).side = s.side ∧ (learnFull a1 s).prot = s.prot ∧ (learnFull a1 s).mram = s.mram
    ∧ (learnFull a1 s).img = s.img ∧ (learnFull a1 s).lat = s.lat ∧ (learnFull a1 s).acct = s.acct ∧ (learnFull a1 s).lk
    = s.lk ∧ (learnFull a1 s).tim = s.tim ∧ (learnFull a1 s).buf = s.buf ∧ (learnFull a1 s).eg = s.eg ∧ (learnFull a1
    s).gen = s.gen ∧ (learnFull a1 s).eng = s.eng ∧ (learnFull a1 s).recd = s.recd ∧ (learnFull a1 s).pmu = s.pmu ∧
    (learnFull a1 s).svc = s.svc ∧ (learnFull a1 s).therm = s.therm ∧ (learnFull a1 s).hmem = s.hmem ∧ (learnFull a1
    s).now = s.now ∧ (learnFull a1 s).elapsed = s.elapsed ∧ (learnFull a1 s).free = s.free ∧ (learnFull a1 s).pending =
    s.pending := by
  intros; unfold learnFull
  first
    | ((repeat' split) <;> simp; done)
    | (dsimp only; (repeat' split) <;> simp [*]; done)
    | ((repeat' apply And.intro) <;> dsimp only <;> (repeat' split) <;> simp [*]; done)

@[simp] theorem learnDone_keeps : ∀ a1 a2 a3 s, (learnDone a1 a2 a3 s).md = s.md ∧ (learnDone a1 a2 a3 s).dev = s.dev ∧
    (learnDone a1 a2 a3 s).pins = s.pins ∧ (learnDone a1 a2 a3 s).side = s.side ∧ (learnDone a1 a2 a3 s).prot = s.prot ∧
    (learnDone a1 a2 a3 s).mram = s.mram ∧ (learnDone a1 a2 a3 s).img = s.img ∧ (learnDone a1 a2 a3 s).lat = s.lat ∧
    (learnDone a1 a2 a3 s).acct = s.acct ∧ (learnDone a1 a2 a3 s).lk = s.lk ∧ (learnDone a1 a2 a3 s).tim = s.tim ∧
    (learnDone a1 a2 a3 s).buf = s.buf ∧ (learnDone a1 a2 a3 s).eg = s.eg ∧ (learnDone a1 a2 a3 s).tab = s.tab ∧
    (learnDone a1 a2 a3 s).gen = s.gen ∧ (learnDone a1 a2 a3 s).eng = s.eng ∧ (learnDone a1 a2 a3 s).recd = s.recd ∧
    (learnDone a1 a2 a3 s).pmu = s.pmu ∧ (learnDone a1 a2 a3 s).svc = s.svc ∧ (learnDone a1 a2 a3 s).therm = s.therm ∧
    (learnDone a1 a2 a3 s).hmem = s.hmem ∧ (learnDone a1 a2 a3 s).now = s.now ∧ (learnDone a1 a2 a3 s).elapsed =
    s.elapsed ∧ (learnDone a1 a2 a3 s).free = s.free ∧ (learnDone a1 a2 a3 s).pending = s.pending := by
  intros; unfold learnDone
  first
    | ((repeat' split) <;> simp; done)
    | (dsimp only; (repeat' split) <;> simp [*]; done)
    | ((repeat' apply And.intro) <;> dsimp only <;> (repeat' split) <;> simp [*]; done)

@[simp] theorem learnOrdinaryMode_keeps : ∀ a1 s, (learnOrdinaryMode a1 s).md = s.md ∧ (learnOrdinaryMode a1 s).dev =
    s.dev ∧ (learnOrdinaryMode a1 s).pins = s.pins ∧ (learnOrdinaryMode a1 s).side = s.side ∧ (learnOrdinaryMode a1
    s).prot = s.prot ∧ (learnOrdinaryMode a1 s).mram = s.mram ∧ (learnOrdinaryMode a1 s).img = s.img ∧
    (learnOrdinaryMode a1 s).lat = s.lat ∧ (learnOrdinaryMode a1 s).acct = s.acct ∧ (learnOrdinaryMode a1 s).lk = s.lk ∧
    (learnOrdinaryMode a1 s).tim = s.tim ∧ (learnOrdinaryMode a1 s).buf = s.buf ∧ (learnOrdinaryMode a1 s).eg = s.eg ∧
    (learnOrdinaryMode a1 s).gen = s.gen ∧ (learnOrdinaryMode a1 s).eng = s.eng ∧ (learnOrdinaryMode a1 s).recd = s.recd
    ∧ (learnOrdinaryMode a1 s).pmu = s.pmu ∧ (learnOrdinaryMode a1 s).svc = s.svc ∧ (learnOrdinaryMode a1 s).therm =
    s.therm ∧ (learnOrdinaryMode a1 s).hmem = s.hmem ∧ (learnOrdinaryMode a1 s).now = s.now ∧ (learnOrdinaryMode a1
    s).elapsed = s.elapsed ∧ (learnOrdinaryMode a1 s).free = s.free ∧ (learnOrdinaryMode a1 s).pending = s.pending := by
  intro a1 s; unfold learnOrdinaryMode; dsimp only; split; simp; split; simp; split; simp; split; simp; rename_i h; have := fdbPlace_keeps _ _ _ _ h; simp_all

@[simp] theorem learnStaged_keeps : ∀ s, (learnStaged s).md = s.md ∧ (learnStaged s).dev = s.dev ∧ (learnStaged s).pins
    = s.pins ∧ (learnStaged s).side = s.side ∧ (learnStaged s).prot = s.prot ∧ (learnStaged s).mram = s.mram ∧
    (learnStaged s).img = s.img ∧ (learnStaged s).host = s.host ∧ (learnStaged s).lat = s.lat ∧ (learnStaged s).acct =
    s.acct ∧ (learnStaged s).lk = s.lk ∧ (learnStaged s).tim = s.tim ∧ (learnStaged s).buf = s.buf ∧ (learnStaged s).eg
    = s.eg ∧ (learnStaged s).tab = s.tab ∧ (learnStaged s).eng = s.eng ∧ (learnStaged s).recd = s.recd ∧ (learnStaged
    s).pmu = s.pmu ∧ (learnStaged s).svc = s.svc ∧ (learnStaged s).therm = s.therm ∧ (learnStaged s).regs = s.regs ∧
    (learnStaged s).hmem = s.hmem ∧ (learnStaged s).now = s.now ∧ (learnStaged s).elapsed = s.elapsed ∧ (learnStaged
    s).free = s.free ∧ (learnStaged s).pending = s.pending := by
  intros; unfold learnStaged
  first
    | ((repeat' split) <;> simp; done)
    | (dsimp only; (repeat' split) <;> simp [*]; done)
    | ((repeat' apply And.intro) <;> dsimp only <;> (repeat' split) <;> simp [*]; done)

@[simp] theorem learnDeterministic_keeps : ∀ a1 s, (learnDeterministic a1 s).md = s.md ∧ (learnDeterministic a1 s).dev =
    s.dev ∧ (learnDeterministic a1 s).pins = s.pins ∧ (learnDeterministic a1 s).side = s.side ∧ (learnDeterministic a1
    s).prot = s.prot ∧ (learnDeterministic a1 s).mram = s.mram ∧ (learnDeterministic a1 s).img = s.img ∧
    (learnDeterministic a1 s).lat = s.lat ∧ (learnDeterministic a1 s).acct = s.acct ∧ (learnDeterministic a1 s).lk =
    s.lk ∧ (learnDeterministic a1 s).tim = s.tim ∧ (learnDeterministic a1 s).buf = s.buf ∧ (learnDeterministic a1 s).eg
    = s.eg ∧ (learnDeterministic a1 s).eng = s.eng ∧ (learnDeterministic a1 s).recd = s.recd ∧ (learnDeterministic a1
    s).pmu = s.pmu ∧ (learnDeterministic a1 s).svc = s.svc ∧ (learnDeterministic a1 s).therm = s.therm ∧
    (learnDeterministic a1 s).hmem = s.hmem ∧ (learnDeterministic a1 s).now = s.now ∧ (learnDeterministic a1 s).elapsed
    = s.elapsed ∧ (learnDeterministic a1 s).free = s.free ∧ (learnDeterministic a1 s).pending = s.pending := by
  intro a1 s; unfold learnDeterministic; (repeat' split) <;> simp_all <;> (rename_i h; have := stageEntry_keeps _ _ _ h; simp_all)

@[simp] theorem takeLearn_keeps : ∀ s, (takeLearn s).md = s.md ∧ (takeLearn s).dev = s.dev ∧ (takeLearn s).pins = s.pins
    ∧ (takeLearn s).side = s.side ∧ (takeLearn s).prot = s.prot ∧ (takeLearn s).mram = s.mram ∧ (takeLearn s).img =
    s.img ∧ (takeLearn s).lat = s.lat ∧ (takeLearn s).acct = s.acct ∧ (takeLearn s).lk = s.lk ∧ (takeLearn s).tim =
    s.tim ∧ (takeLearn s).buf = s.buf ∧ (takeLearn s).eg = s.eg ∧ (takeLearn s).eng = s.eng ∧ (takeLearn s).recd =
    s.recd ∧ (takeLearn s).pmu = s.pmu ∧ (takeLearn s).svc = s.svc ∧ (takeLearn s).therm = s.therm ∧ (takeLearn s).hmem
    = s.hmem ∧ (takeLearn s).now = s.now ∧ (takeLearn s).elapsed = s.elapsed ∧ (takeLearn s).free = s.free ∧ (takeLearn
    s).pending = s.pending := by
  intros; unfold takeLearn
  first
    | ((repeat' split) <;> simp; done)
    | (dsimp only; (repeat' split) <;> simp [*]; done)
    | ((repeat' apply And.intro) <;> dsimp only <;> (repeat' split) <;> simp [*]; done)

@[simp] theorem askLearn_keeps : ∀ a1 s, (askLearn a1 s).md = s.md ∧ (askLearn a1 s).dev = s.dev ∧ (askLearn a1 s).pins
    = s.pins ∧ (askLearn a1 s).side = s.side ∧ (askLearn a1 s).prot = s.prot ∧ (askLearn a1 s).mram = s.mram ∧ (askLearn
    a1 s).img = s.img ∧ (askLearn a1 s).host = s.host ∧ (askLearn a1 s).lat = s.lat ∧ (askLearn a1 s).acct = s.acct ∧
    (askLearn a1 s).lk = s.lk ∧ (askLearn a1 s).tim = s.tim ∧ (askLearn a1 s).buf = s.buf ∧ (askLearn a1 s).eg = s.eg ∧
    (askLearn a1 s).gen = s.gen ∧ (askLearn a1 s).eng = s.eng ∧ (askLearn a1 s).recd = s.recd ∧ (askLearn a1 s).svc =
    s.svc ∧ (askLearn a1 s).therm = s.therm ∧ (askLearn a1 s).hmem = s.hmem ∧ (askLearn a1 s).now = s.now ∧ (askLearn a1
    s).elapsed = s.elapsed ∧ (askLearn a1 s).free = s.free ∧ (askLearn a1 s).pending = s.pending := by
  intros; unfold askLearn
  first
    | ((repeat' split) <;> simp; done)
    | (dsimp only; (repeat' split) <;> simp [*]; done)
    | ((repeat' apply And.intro) <;> dsimp only <;> (repeat' split) <;> simp [*]; done)

@[simp] theorem ageVisit_keeps : ∀ a1 a2 a3 s, (ageVisit a1 a2 a3 s).md = s.md ∧ (ageVisit a1 a2 a3 s).dev = s.dev ∧
    (ageVisit a1 a2 a3 s).pins = s.pins ∧ (ageVisit a1 a2 a3 s).side = s.side ∧ (ageVisit a1 a2 a3 s).prot = s.prot ∧
    (ageVisit a1 a2 a3 s).mram = s.mram ∧ (ageVisit a1 a2 a3 s).img = s.img ∧ (ageVisit a1 a2 a3 s).lat = s.lat ∧
    (ageVisit a1 a2 a3 s).acct = s.acct ∧ (ageVisit a1 a2 a3 s).lk = s.lk ∧ (ageVisit a1 a2 a3 s).tim = s.tim ∧
    (ageVisit a1 a2 a3 s).buf = s.buf ∧ (ageVisit a1 a2 a3 s).eg = s.eg ∧ (ageVisit a1 a2 a3 s).gen = s.gen ∧ (ageVisit
    a1 a2 a3 s).eng = s.eng ∧ (ageVisit a1 a2 a3 s).recd = s.recd ∧ (ageVisit a1 a2 a3 s).pmu = s.pmu ∧ (ageVisit a1 a2
    a3 s).svc = s.svc ∧ (ageVisit a1 a2 a3 s).therm = s.therm ∧ (ageVisit a1 a2 a3 s).hmem = s.hmem ∧ (ageVisit a1 a2 a3
    s).now = s.now ∧ (ageVisit a1 a2 a3 s).elapsed = s.elapsed ∧ (ageVisit a1 a2 a3 s).free = s.free ∧ (ageVisit a1 a2
    a3 s).pending = s.pending := by
  intros; unfold ageVisit
  first
    | ((repeat' split) <;> simp; done)
    | (dsimp only; (repeat' split) <;> simp [*]; done)
    | ((repeat' apply And.intro) <;> dsimp only <;> (repeat' split) <;> simp [*]; done)

@[simp] theorem seedWrite_keeps : ∀ a1 a2 s, (seedWrite a1 a2 s).md = s.md ∧ (seedWrite a1 a2 s).dev = s.dev ∧
    (seedWrite a1 a2 s).pins = s.pins ∧ (seedWrite a1 a2 s).side = s.side ∧ (seedWrite a1 a2 s).prot = s.prot ∧
    (seedWrite a1 a2 s).mram = s.mram ∧ (seedWrite a1 a2 s).img = s.img ∧ (seedWrite a1 a2 s).host = s.host ∧ (seedWrite
    a1 a2 s).lat = s.lat ∧ (seedWrite a1 a2 s).acct = s.acct ∧ (seedWrite a1 a2 s).lk = s.lk ∧ (seedWrite a1 a2 s).tim =
    s.tim ∧ (seedWrite a1 a2 s).buf = s.buf ∧ (seedWrite a1 a2 s).eg = s.eg ∧ (seedWrite a1 a2 s).tab = s.tab ∧
    (seedWrite a1 a2 s).gen = s.gen ∧ (seedWrite a1 a2 s).eng = s.eng ∧ (seedWrite a1 a2 s).recd = s.recd ∧ (seedWrite
    a1 a2 s).pmu = s.pmu ∧ (seedWrite a1 a2 s).svc = s.svc ∧ (seedWrite a1 a2 s).therm = s.therm ∧ (seedWrite a1 a2
    s).hmem = s.hmem ∧ (seedWrite a1 a2 s).now = s.now ∧ (seedWrite a1 a2 s).elapsed = s.elapsed ∧ (seedWrite a1 a2
    s).free = s.free ∧ (seedWrite a1 a2 s).pending = s.pending := by
  intros; unfold seedWrite
  first
    | ((repeat' split) <;> simp; done)
    | (dsimp only; (repeat' split) <;> simp [*]; done)
    | ((repeat' apply And.intro) <;> dsimp only <;> (repeat' split) <;> simp [*]; done)

@[simp] theorem setRoute_keeps : ∀ a1 a2 a3 s, (setRoute a1 a2 a3 s).md = s.md ∧ (setRoute a1 a2 a3 s).dev = s.dev ∧
    (setRoute a1 a2 a3 s).pins = s.pins ∧ (setRoute a1 a2 a3 s).side = s.side ∧ (setRoute a1 a2 a3 s).prot = s.prot ∧
    (setRoute a1 a2 a3 s).mram = s.mram ∧ (setRoute a1 a2 a3 s).img = s.img ∧ (setRoute a1 a2 a3 s).host = s.host ∧
    (setRoute a1 a2 a3 s).lat = s.lat ∧ (setRoute a1 a2 a3 s).acct = s.acct ∧ (setRoute a1 a2 a3 s).lk = s.lk ∧
    (setRoute a1 a2 a3 s).tim = s.tim ∧ (setRoute a1 a2 a3 s).buf = s.buf ∧ (setRoute a1 a2 a3 s).eg = s.eg ∧ (setRoute
    a1 a2 a3 s).gen = s.gen ∧ (setRoute a1 a2 a3 s).eng = s.eng ∧ (setRoute a1 a2 a3 s).recd = s.recd ∧ (setRoute a1 a2
    a3 s).pmu = s.pmu ∧ (setRoute a1 a2 a3 s).svc = s.svc ∧ (setRoute a1 a2 a3 s).therm = s.therm ∧ (setRoute a1 a2 a3
    s).regs = s.regs ∧ (setRoute a1 a2 a3 s).hmem = s.hmem ∧ (setRoute a1 a2 a3 s).now = s.now ∧ (setRoute a1 a2 a3
    s).elapsed = s.elapsed ∧ (setRoute a1 a2 a3 s).free = s.free ∧ (setRoute a1 a2 a3 s).pending = s.pending := by
  intros; unfold setRoute
  first
    | ((repeat' split) <;> simp; done)
    | (dsimp only; (repeat' split) <;> simp [*]; done)
    | ((repeat' apply And.intro) <;> dsimp only <;> (repeat' split) <;> simp [*]; done)

@[simp] theorem writeRepl_keeps : ∀ a1 a2 a3 s, (writeRepl a1 a2 a3 s).md = s.md ∧ (writeRepl a1 a2 a3 s).dev = s.dev ∧
    (writeRepl a1 a2 a3 s).pins = s.pins ∧ (writeRepl a1 a2 a3 s).side = s.side ∧ (writeRepl a1 a2 a3 s).prot = s.prot ∧
    (writeRepl a1 a2 a3 s).mram = s.mram ∧ (writeRepl a1 a2 a3 s).img = s.img ∧ (writeRepl a1 a2 a3 s).host = s.host ∧
    (writeRepl a1 a2 a3 s).lat = s.lat ∧ (writeRepl a1 a2 a3 s).acct = s.acct ∧ (writeRepl a1 a2 a3 s).lk = s.lk ∧
    (writeRepl a1 a2 a3 s).tim = s.tim ∧ (writeRepl a1 a2 a3 s).buf = s.buf ∧ (writeRepl a1 a2 a3 s).eg = s.eg ∧
    (writeRepl a1 a2 a3 s).gen = s.gen ∧ (writeRepl a1 a2 a3 s).eng = s.eng ∧ (writeRepl a1 a2 a3 s).recd = s.recd ∧
    (writeRepl a1 a2 a3 s).pmu = s.pmu ∧ (writeRepl a1 a2 a3 s).svc = s.svc ∧ (writeRepl a1 a2 a3 s).therm = s.therm ∧
    (writeRepl a1 a2 a3 s).regs = s.regs ∧ (writeRepl a1 a2 a3 s).hmem = s.hmem ∧ (writeRepl a1 a2 a3 s).now = s.now ∧
    (writeRepl a1 a2 a3 s).elapsed = s.elapsed ∧ (writeRepl a1 a2 a3 s).free = s.free ∧ (writeRepl a1 a2 a3 s).pending =
    s.pending := by
  intros; unfold writeRepl
  first
    | ((repeat' split) <;> simp; done)
    | (dsimp only; (repeat' split) <;> simp [*]; done)
    | ((repeat' apply And.intro) <;> dsimp only <;> (repeat' split) <;> simp [*]; done)

@[simp] theorem clearRepl_keeps : ∀ a1 s, (clearRepl a1 s).md = s.md ∧ (clearRepl a1 s).dev = s.dev ∧ (clearRepl a1
    s).pins = s.pins ∧ (clearRepl a1 s).side = s.side ∧ (clearRepl a1 s).prot = s.prot ∧ (clearRepl a1 s).mram = s.mram
    ∧ (clearRepl a1 s).img = s.img ∧ (clearRepl a1 s).host = s.host ∧ (clearRepl a1 s).lat = s.lat ∧ (clearRepl a1
    s).acct = s.acct ∧ (clearRepl a1 s).lk = s.lk ∧ (clearRepl a1 s).tim = s.tim ∧ (clearRepl a1 s).buf = s.buf ∧
    (clearRepl a1 s).eg = s.eg ∧ (clearRepl a1 s).gen = s.gen ∧ (clearRepl a1 s).eng = s.eng ∧ (clearRepl a1 s).recd =
    s.recd ∧ (clearRepl a1 s).pmu = s.pmu ∧ (clearRepl a1 s).svc = s.svc ∧ (clearRepl a1 s).therm = s.therm ∧ (clearRepl
    a1 s).regs = s.regs ∧ (clearRepl a1 s).hmem = s.hmem ∧ (clearRepl a1 s).now = s.now ∧ (clearRepl a1 s).elapsed =
    s.elapsed ∧ (clearRepl a1 s).free = s.free ∧ (clearRepl a1 s).pending = s.pending := by
  intros; unfold clearRepl
  first
    | ((repeat' split) <;> simp; done)
    | (dsimp only; (repeat' split) <;> simp [*]; done)
    | ((repeat' apply And.intro) <;> dsimp only <;> (repeat' split) <;> simp [*]; done)

@[simp] theorem setTs_keeps : ∀ a1 a2 s, (setTs a1 a2 s).md = s.md ∧ (setTs a1 a2 s).dev = s.dev ∧ (setTs a1 a2 s).pins
    = s.pins ∧ (setTs a1 a2 s).side = s.side ∧ (setTs a1 a2 s).prot = s.prot ∧ (setTs a1 a2 s).mram = s.mram ∧ (setTs a1
    a2 s).img = s.img ∧ (setTs a1 a2 s).host = s.host ∧ (setTs a1 a2 s).lat = s.lat ∧ (setTs a1 a2 s).acct = s.acct ∧
    (setTs a1 a2 s).tim = s.tim ∧ (setTs a1 a2 s).buf = s.buf ∧ (setTs a1 a2 s).eg = s.eg ∧ (setTs a1 a2 s).tab = s.tab
    ∧ (setTs a1 a2 s).gen = s.gen ∧ (setTs a1 a2 s).eng = s.eng ∧ (setTs a1 a2 s).recd = s.recd ∧ (setTs a1 a2 s).pmu =
    s.pmu ∧ (setTs a1 a2 s).svc = s.svc ∧ (setTs a1 a2 s).therm = s.therm ∧ (setTs a1 a2 s).regs = s.regs ∧ (setTs a1 a2
    s).hmem = s.hmem ∧ (setTs a1 a2 s).now = s.now ∧ (setTs a1 a2 s).elapsed = s.elapsed ∧ (setTs a1 a2 s).free = s.free
    ∧ (setTs a1 a2 s).pending = s.pending := by
  intros; unfold setTs
  first
    | ((repeat' split) <;> simp; done)
    | (dsimp only; (repeat' split) <;> simp [*]; done)
    | ((repeat' apply And.intro) <;> dsimp only <;> (repeat' split) <;> simp [*]; done)

@[simp] theorem modTs_keeps : ∀ a1 a2 s, (modTs a1 a2 s).md = s.md ∧ (modTs a1 a2 s).dev = s.dev ∧ (modTs a1 a2 s).pins
    = s.pins ∧ (modTs a1 a2 s).side = s.side ∧ (modTs a1 a2 s).prot = s.prot ∧ (modTs a1 a2 s).mram = s.mram ∧ (modTs a1
    a2 s).img = s.img ∧ (modTs a1 a2 s).host = s.host ∧ (modTs a1 a2 s).lat = s.lat ∧ (modTs a1 a2 s).acct = s.acct ∧
    (modTs a1 a2 s).tim = s.tim ∧ (modTs a1 a2 s).buf = s.buf ∧ (modTs a1 a2 s).eg = s.eg ∧ (modTs a1 a2 s).tab = s.tab
    ∧ (modTs a1 a2 s).gen = s.gen ∧ (modTs a1 a2 s).eng = s.eng ∧ (modTs a1 a2 s).recd = s.recd ∧ (modTs a1 a2 s).pmu =
    s.pmu ∧ (modTs a1 a2 s).svc = s.svc ∧ (modTs a1 a2 s).therm = s.therm ∧ (modTs a1 a2 s).regs = s.regs ∧ (modTs a1 a2
    s).hmem = s.hmem ∧ (modTs a1 a2 s).now = s.now ∧ (modTs a1 a2 s).elapsed = s.elapsed ∧ (modTs a1 a2 s).free = s.free
    ∧ (modTs a1 a2 s).pending = s.pending := by
  intros; unfold modTs
  first
    | ((repeat' split) <;> simp; done)
    | (dsimp only; (repeat' split) <;> simp [*]; done)
    | ((repeat' apply And.intro) <;> dsimp only <;> (repeat' split) <;> simp [*]; done)

@[simp] theorem tsDetect_keeps : ∀ a1 s, (tsDetect a1 s).md = s.md ∧ (tsDetect a1 s).dev = s.dev ∧ (tsDetect a1 s).pins
    = s.pins ∧ (tsDetect a1 s).side = s.side ∧ (tsDetect a1 s).prot = s.prot ∧ (tsDetect a1 s).mram = s.mram ∧ (tsDetect
    a1 s).img = s.img ∧ (tsDetect a1 s).lat = s.lat ∧ (tsDetect a1 s).tim = s.tim ∧ (tsDetect a1 s).gen = s.gen ∧
    (tsDetect a1 s).eng = s.eng ∧ (tsDetect a1 s).svc = s.svc ∧ (tsDetect a1 s).therm = s.therm ∧ (tsDetect a1 s).now =
    s.now ∧ (tsDetect a1 s).elapsed = s.elapsed ∧ (tsDetect a1 s).free = s.free ∧ (tsDetect a1 s).pending = s.pending :=
    by
  intros; unfold tsDetect
  first
    | ((repeat' split) <;> simp; done)
    | (dsimp only; (repeat' split) <;> simp [*]; done)
    | ((repeat' apply And.intro) <;> dsimp only <;> (repeat' split) <;> simp [*]; done)

@[simp] theorem tsRetrain_keeps : ∀ a1 s, (tsRetrain a1 s).md = s.md ∧ (tsRetrain a1 s).dev = s.dev ∧ (tsRetrain a1
    s).pins = s.pins ∧ (tsRetrain a1 s).side = s.side ∧ (tsRetrain a1 s).prot = s.prot ∧ (tsRetrain a1 s).mram = s.mram
    ∧ (tsRetrain a1 s).img = s.img ∧ (tsRetrain a1 s).host = s.host ∧ (tsRetrain a1 s).lat = s.lat ∧ (tsRetrain a1
    s).acct = s.acct ∧ (tsRetrain a1 s).tim = s.tim ∧ (tsRetrain a1 s).buf = s.buf ∧ (tsRetrain a1 s).eg = s.eg ∧
    (tsRetrain a1 s).tab = s.tab ∧ (tsRetrain a1 s).gen = s.gen ∧ (tsRetrain a1 s).eng = s.eng ∧ (tsRetrain a1 s).recd =
    s.recd ∧ (tsRetrain a1 s).pmu = s.pmu ∧ (tsRetrain a1 s).svc = s.svc ∧ (tsRetrain a1 s).therm = s.therm ∧ (tsRetrain
    a1 s).hmem = s.hmem ∧ (tsRetrain a1 s).now = s.now ∧ (tsRetrain a1 s).elapsed = s.elapsed ∧ (tsRetrain a1 s).free =
    s.free ∧ (tsRetrain a1 s).pending = s.pending := by
  intros; unfold tsRetrain
  first
    | ((repeat' split) <;> simp; done)
    | (dsimp only; (repeat' split) <;> simp [*]; done)
    | ((repeat' apply And.intro) <;> dsimp only <;> (repeat' split) <;> simp [*]; done)

@[simp] theorem tsFrameEnds_keeps : ∀ a1 s, (tsFrameEnds a1 s).md = s.md ∧ (tsFrameEnds a1 s).dev = s.dev ∧ (tsFrameEnds
    a1 s).pins = s.pins ∧ (tsFrameEnds a1 s).side = s.side ∧ (tsFrameEnds a1 s).prot = s.prot ∧ (tsFrameEnds a1 s).mram
    = s.mram ∧ (tsFrameEnds a1 s).img = s.img ∧ (tsFrameEnds a1 s).host = s.host ∧ (tsFrameEnds a1 s).lat = s.lat ∧
    (tsFrameEnds a1 s).acct = s.acct ∧ (tsFrameEnds a1 s).tim = s.tim ∧ (tsFrameEnds a1 s).buf = s.buf ∧ (tsFrameEnds a1
    s).eg = s.eg ∧ (tsFrameEnds a1 s).tab = s.tab ∧ (tsFrameEnds a1 s).gen = s.gen ∧ (tsFrameEnds a1 s).eng = s.eng ∧
    (tsFrameEnds a1 s).recd = s.recd ∧ (tsFrameEnds a1 s).pmu = s.pmu ∧ (tsFrameEnds a1 s).svc = s.svc ∧ (tsFrameEnds a1
    s).therm = s.therm ∧ (tsFrameEnds a1 s).regs = s.regs ∧ (tsFrameEnds a1 s).hmem = s.hmem ∧ (tsFrameEnds a1 s).now =
    s.now ∧ (tsFrameEnds a1 s).elapsed = s.elapsed ∧ (tsFrameEnds a1 s).free = s.free ∧ (tsFrameEnds a1 s).pending =
    s.pending := by
  intros; unfold tsFrameEnds
  first
    | ((repeat' split) <;> simp; done)
    | (dsimp only; (repeat' split) <;> simp [*]; done)
    | ((repeat' apply And.intro) <;> dsimp only <;> (repeat' split) <;> simp [*]; done)

@[simp] theorem tsFail_keeps : ∀ a1 a2 s, (tsFail a1 a2 s).md = s.md ∧ (tsFail a1 a2 s).dev = s.dev ∧ (tsFail a1 a2
    s).pins = s.pins ∧ (tsFail a1 a2 s).side = s.side ∧ (tsFail a1 a2 s).prot = s.prot ∧ (tsFail a1 a2 s).mram = s.mram
    ∧ (tsFail a1 a2 s).img = s.img ∧ (tsFail a1 a2 s).lat = s.lat ∧ (tsFail a1 a2 s).tim = s.tim ∧ (tsFail a1 a2 s).gen
    = s.gen ∧ (tsFail a1 a2 s).eng = s.eng ∧ (tsFail a1 a2 s).svc = s.svc ∧ (tsFail a1 a2 s).therm = s.therm ∧ (tsFail
    a1 a2 s).now = s.now ∧ (tsFail a1 a2 s).elapsed = s.elapsed ∧ (tsFail a1 a2 s).free = s.free ∧ (tsFail a1 a2
    s).pending = s.pending := by
  intros; unfold tsFail
  first
    | ((repeat' split) <;> simp; done)
    | (dsimp only; (repeat' split) <;> simp [*]; done)
    | ((repeat' apply And.intro) <;> dsimp only <;> (repeat' split) <;> simp [*]; done)

@[simp] theorem tsJudge_keeps : ∀ a1 s, (tsJudge a1 s).md = s.md ∧ (tsJudge a1 s).dev = s.dev ∧ (tsJudge a1 s).pins =
    s.pins ∧ (tsJudge a1 s).side = s.side ∧ (tsJudge a1 s).prot = s.prot ∧ (tsJudge a1 s).mram = s.mram ∧ (tsJudge a1
    s).img = s.img ∧ (tsJudge a1 s).lat = s.lat ∧ (tsJudge a1 s).tim = s.tim ∧ (tsJudge a1 s).gen = s.gen ∧ (tsJudge a1
    s).eng = s.eng ∧ (tsJudge a1 s).svc = s.svc ∧ (tsJudge a1 s).therm = s.therm ∧ (tsJudge a1 s).now = s.now ∧ (tsJudge
    a1 s).elapsed = s.elapsed ∧ (tsJudge a1 s).free = s.free ∧ (tsJudge a1 s).pending = s.pending := by
  intros; unfold tsJudge
  first
    | ((repeat' split) <;> simp; done)
    | (dsimp only; (repeat' split) <;> simp [*]; done)
    | ((repeat' apply And.intro) <;> dsimp only <;> (repeat' split) <;> simp [*]; done)

@[simp] theorem codeErrors_keeps : ∀ a1 a2 s, (codeErrors a1 a2 s).md = s.md ∧ (codeErrors a1 a2 s).dev = s.dev ∧
    (codeErrors a1 a2 s).pins = s.pins ∧ (codeErrors a1 a2 s).side = s.side ∧ (codeErrors a1 a2 s).prot = s.prot ∧
    (codeErrors a1 a2 s).mram = s.mram ∧ (codeErrors a1 a2 s).img = s.img ∧ (codeErrors a1 a2 s).host = s.host ∧
    (codeErrors a1 a2 s).lat = s.lat ∧ (codeErrors a1 a2 s).acct = s.acct ∧ (codeErrors a1 a2 s).tim = s.tim ∧
    (codeErrors a1 a2 s).buf = s.buf ∧ (codeErrors a1 a2 s).eg = s.eg ∧ (codeErrors a1 a2 s).tab = s.tab ∧ (codeErrors
    a1 a2 s).gen = s.gen ∧ (codeErrors a1 a2 s).eng = s.eng ∧ (codeErrors a1 a2 s).recd = s.recd ∧ (codeErrors a1 a2
    s).pmu = s.pmu ∧ (codeErrors a1 a2 s).svc = s.svc ∧ (codeErrors a1 a2 s).therm = s.therm ∧ (codeErrors a1 a2 s).hmem
    = s.hmem ∧ (codeErrors a1 a2 s).now = s.now ∧ (codeErrors a1 a2 s).elapsed = s.elapsed ∧ (codeErrors a1 a2 s).free =
    s.free ∧ (codeErrors a1 a2 s).pending = s.pending := by
  intros; unfold codeErrors
  first
    | ((repeat' split) <;> simp; done)
    | (dsimp only; (repeat' split) <;> simp [*]; done)
    | ((repeat' apply And.intro) <;> dsimp only <;> (repeat' split) <;> simp [*]; done)

@[simp] theorem groupErrors_keeps : ∀ a1 a2 s, (groupErrors a1 a2 s).2.md = s.md ∧ (groupErrors a1 a2 s).2.dev = s.dev ∧
    (groupErrors a1 a2 s).2.pins = s.pins ∧ (groupErrors a1 a2 s).2.side = s.side ∧ (groupErrors a1 a2 s).2.prot =
    s.prot ∧ (groupErrors a1 a2 s).2.mram = s.mram ∧ (groupErrors a1 a2 s).2.img = s.img ∧ (groupErrors a1 a2 s).2.host
    = s.host ∧ (groupErrors a1 a2 s).2.lat = s.lat ∧ (groupErrors a1 a2 s).2.acct = s.acct ∧ (groupErrors a1 a2 s).2.tim
    = s.tim ∧ (groupErrors a1 a2 s).2.buf = s.buf ∧ (groupErrors a1 a2 s).2.eg = s.eg ∧ (groupErrors a1 a2 s).2.tab =
    s.tab ∧ (groupErrors a1 a2 s).2.gen = s.gen ∧ (groupErrors a1 a2 s).2.eng = s.eng ∧ (groupErrors a1 a2 s).2.recd =
    s.recd ∧ (groupErrors a1 a2 s).2.pmu = s.pmu ∧ (groupErrors a1 a2 s).2.svc = s.svc ∧ (groupErrors a1 a2 s).2.therm =
    s.therm ∧ (groupErrors a1 a2 s).2.regs = s.regs ∧ (groupErrors a1 a2 s).2.hmem = s.hmem ∧ (groupErrors a1 a2
    s).2.now = s.now ∧ (groupErrors a1 a2 s).2.elapsed = s.elapsed ∧ (groupErrors a1 a2 s).2.free = s.free ∧
    (groupErrors a1 a2 s).2.pending = s.pending := by
  intros; unfold groupErrors
  first
    | ((repeat' split) <;> simp; done)
    | (dsimp only; (repeat' split) <;> simp [*]; done)
    | ((repeat' apply And.intro) <;> dsimp only <;> (repeat' split) <;> simp [*]; done)

@[simp] theorem tsFresh_keeps : ∀ a1 s, (tsFresh a1 s).md = s.md ∧ (tsFresh a1 s).dev = s.dev ∧ (tsFresh a1 s).pins =
    s.pins ∧ (tsFresh a1 s).side = s.side ∧ (tsFresh a1 s).prot = s.prot ∧ (tsFresh a1 s).mram = s.mram ∧ (tsFresh a1
    s).img = s.img ∧ (tsFresh a1 s).host = s.host ∧ (tsFresh a1 s).lat = s.lat ∧ (tsFresh a1 s).acct = s.acct ∧ (tsFresh
    a1 s).tim = s.tim ∧ (tsFresh a1 s).buf = s.buf ∧ (tsFresh a1 s).eg = s.eg ∧ (tsFresh a1 s).tab = s.tab ∧ (tsFresh a1
    s).gen = s.gen ∧ (tsFresh a1 s).eng = s.eng ∧ (tsFresh a1 s).recd = s.recd ∧ (tsFresh a1 s).pmu = s.pmu ∧ (tsFresh
    a1 s).svc = s.svc ∧ (tsFresh a1 s).therm = s.therm ∧ (tsFresh a1 s).regs = s.regs ∧ (tsFresh a1 s).hmem = s.hmem ∧
    (tsFresh a1 s).now = s.now ∧ (tsFresh a1 s).elapsed = s.elapsed ∧ (tsFresh a1 s).free = s.free ∧ (tsFresh a1
    s).pending = s.pending := by
  intros; unfold tsFresh
  first
    | ((repeat' split) <;> simp; done)
    | (dsimp only; (repeat' split) <;> simp [*]; done)
    | ((repeat' apply And.intro) <;> dsimp only <;> (repeat' split) <;> simp [*]; done)

@[simp] theorem tsLaneLost_keeps : ∀ a1 a2 s, (tsLaneLost a1 a2 s).md = s.md ∧ (tsLaneLost a1 a2 s).dev = s.dev ∧
    (tsLaneLost a1 a2 s).pins = s.pins ∧ (tsLaneLost a1 a2 s).side = s.side ∧ (tsLaneLost a1 a2 s).prot = s.prot ∧
    (tsLaneLost a1 a2 s).mram = s.mram ∧ (tsLaneLost a1 a2 s).img = s.img ∧ (tsLaneLost a1 a2 s).lat = s.lat ∧
    (tsLaneLost a1 a2 s).tim = s.tim ∧ (tsLaneLost a1 a2 s).gen = s.gen ∧ (tsLaneLost a1 a2 s).eng = s.eng ∧ (tsLaneLost
    a1 a2 s).svc = s.svc ∧ (tsLaneLost a1 a2 s).therm = s.therm ∧ (tsLaneLost a1 a2 s).now = s.now ∧ (tsLaneLost a1 a2
    s).elapsed = s.elapsed ∧ (tsLaneLost a1 a2 s).free = s.free ∧ (tsLaneLost a1 a2 s).pending = s.pending := by
  intros; unfold tsLaneLost
  first
    | ((repeat' split) <;> simp; done)
    | (dsimp only; (repeat' split) <;> simp [*]; done)
    | ((repeat' apply And.intro) <;> dsimp only <;> (repeat' split) <;> simp [*]; done)

@[simp] theorem tsQuadDown_keeps : ∀ a1 s, (tsQuadDown a1 s).md = s.md ∧ (tsQuadDown a1 s).dev = s.dev ∧ (tsQuadDown a1
    s).pins = s.pins ∧ (tsQuadDown a1 s).side = s.side ∧ (tsQuadDown a1 s).prot = s.prot ∧ (tsQuadDown a1 s).mram =
    s.mram ∧ (tsQuadDown a1 s).img = s.img ∧ (tsQuadDown a1 s).lat = s.lat ∧ (tsQuadDown a1 s).tim = s.tim ∧ (tsQuadDown
    a1 s).gen = s.gen ∧ (tsQuadDown a1 s).eng = s.eng ∧ (tsQuadDown a1 s).svc = s.svc ∧ (tsQuadDown a1 s).therm =
    s.therm ∧ (tsQuadDown a1 s).now = s.now ∧ (tsQuadDown a1 s).elapsed = s.elapsed ∧ (tsQuadDown a1 s).free = s.free ∧
    (tsQuadDown a1 s).pending = s.pending := by
  intros; unfold tsQuadDown
  first
    | ((repeat' split) <;> simp; done)
    | (dsimp only; (repeat' split) <;> simp [*]; done)
    | ((repeat' apply And.intro) <;> dsimp only <;> (repeat' split) <;> simp [*]; done)

@[simp] theorem tsConfig_keeps : ∀ a1 a2 s, (tsConfig a1 a2 s).md = s.md ∧ (tsConfig a1 a2 s).dev = s.dev ∧ (tsConfig a1
    a2 s).pins = s.pins ∧ (tsConfig a1 a2 s).side = s.side ∧ (tsConfig a1 a2 s).prot = s.prot ∧ (tsConfig a1 a2 s).mram
    = s.mram ∧ (tsConfig a1 a2 s).img = s.img ∧ (tsConfig a1 a2 s).host = s.host ∧ (tsConfig a1 a2 s).lat = s.lat ∧
    (tsConfig a1 a2 s).acct = s.acct ∧ (tsConfig a1 a2 s).tim = s.tim ∧ (tsConfig a1 a2 s).buf = s.buf ∧ (tsConfig a1 a2
    s).eg = s.eg ∧ (tsConfig a1 a2 s).tab = s.tab ∧ (tsConfig a1 a2 s).gen = s.gen ∧ (tsConfig a1 a2 s).eng = s.eng ∧
    (tsConfig a1 a2 s).recd = s.recd ∧ (tsConfig a1 a2 s).pmu = s.pmu ∧ (tsConfig a1 a2 s).svc = s.svc ∧ (tsConfig a1 a2
    s).therm = s.therm ∧ (tsConfig a1 a2 s).regs = s.regs ∧ (tsConfig a1 a2 s).hmem = s.hmem ∧ (tsConfig a1 a2 s).now =
    s.now ∧ (tsConfig a1 a2 s).elapsed = s.elapsed ∧ (tsConfig a1 a2 s).free = s.free ∧ (tsConfig a1 a2 s).pending =
    s.pending := by
  intros; unfold tsConfig
  first
    | ((repeat' split) <;> simp; done)
    | (dsimp only; (repeat' split) <;> simp [*]; done)
    | ((repeat' apply And.intro) <;> dsimp only <;> (repeat' split) <;> simp [*]; done)

@[simp] theorem tsClocks_keeps : ∀ a1 s, (tsClocks a1 s).md = s.md ∧ (tsClocks a1 s).dev = s.dev ∧ (tsClocks a1 s).pins
    = s.pins ∧ (tsClocks a1 s).side = s.side ∧ (tsClocks a1 s).prot = s.prot ∧ (tsClocks a1 s).mram = s.mram ∧ (tsClocks
    a1 s).img = s.img ∧ (tsClocks a1 s).host = s.host ∧ (tsClocks a1 s).lat = s.lat ∧ (tsClocks a1 s).acct = s.acct ∧
    (tsClocks a1 s).tim = s.tim ∧ (tsClocks a1 s).buf = s.buf ∧ (tsClocks a1 s).eg = s.eg ∧ (tsClocks a1 s).tab = s.tab
    ∧ (tsClocks a1 s).gen = s.gen ∧ (tsClocks a1 s).eng = s.eng ∧ (tsClocks a1 s).recd = s.recd ∧ (tsClocks a1 s).pmu =
    s.pmu ∧ (tsClocks a1 s).svc = s.svc ∧ (tsClocks a1 s).therm = s.therm ∧ (tsClocks a1 s).regs = s.regs ∧ (tsClocks a1
    s).hmem = s.hmem ∧ (tsClocks a1 s).now = s.now ∧ (tsClocks a1 s).elapsed = s.elapsed ∧ (tsClocks a1 s).free = s.free
    ∧ (tsClocks a1 s).pending = s.pending := by
  intros; unfold tsClocks
  first
    | ((repeat' split) <;> simp; done)
    | (dsimp only; (repeat' split) <;> simp [*]; done)
    | ((repeat' apply And.intro) <;> dsimp only <;> (repeat' split) <;> simp [*]; done)

@[simp] theorem tsMaybeActive_keeps : ∀ a1 s, (tsMaybeActive a1 s).md = s.md ∧ (tsMaybeActive a1 s).dev = s.dev ∧
    (tsMaybeActive a1 s).pins = s.pins ∧ (tsMaybeActive a1 s).side = s.side ∧ (tsMaybeActive a1 s).prot = s.prot ∧
    (tsMaybeActive a1 s).mram = s.mram ∧ (tsMaybeActive a1 s).img = s.img ∧ (tsMaybeActive a1 s).lat = s.lat ∧
    (tsMaybeActive a1 s).tim = s.tim ∧ (tsMaybeActive a1 s).gen = s.gen ∧ (tsMaybeActive a1 s).eng = s.eng ∧
    (tsMaybeActive a1 s).svc = s.svc ∧ (tsMaybeActive a1 s).therm = s.therm ∧ (tsMaybeActive a1 s).now = s.now ∧
    (tsMaybeActive a1 s).elapsed = s.elapsed ∧ (tsMaybeActive a1 s).free = s.free ∧ (tsMaybeActive a1 s).pending =
    s.pending := by
  intros; unfold tsMaybeActive
  first
    | ((repeat' split) <;> simp; done)
    | (dsimp only; (repeat' split) <;> simp [*]; done)
    | ((repeat' apply And.intro) <;> dsimp only <;> (repeat' split) <;> simp [*]; done)

@[simp] theorem tsRetrained_keeps : ∀ a1 a2 s, (tsRetrained a1 a2 s).md = s.md ∧ (tsRetrained a1 a2 s).dev = s.dev ∧
    (tsRetrained a1 a2 s).pins = s.pins ∧ (tsRetrained a1 a2 s).side = s.side ∧ (tsRetrained a1 a2 s).prot = s.prot ∧
    (tsRetrained a1 a2 s).mram = s.mram ∧ (tsRetrained a1 a2 s).img = s.img ∧ (tsRetrained a1 a2 s).lat = s.lat ∧
    (tsRetrained a1 a2 s).acct = s.acct ∧ (tsRetrained a1 a2 s).tim = s.tim ∧ (tsRetrained a1 a2 s).buf = s.buf ∧
    (tsRetrained a1 a2 s).eg = s.eg ∧ (tsRetrained a1 a2 s).tab = s.tab ∧ (tsRetrained a1 a2 s).gen = s.gen ∧
    (tsRetrained a1 a2 s).eng = s.eng ∧ (tsRetrained a1 a2 s).recd = s.recd ∧ (tsRetrained a1 a2 s).pmu = s.pmu ∧
    (tsRetrained a1 a2 s).svc = s.svc ∧ (tsRetrained a1 a2 s).therm = s.therm ∧ (tsRetrained a1 a2 s).hmem = s.hmem ∧
    (tsRetrained a1 a2 s).now = s.now ∧ (tsRetrained a1 a2 s).elapsed = s.elapsed ∧ (tsRetrained a1 a2 s).free = s.free
    ∧ (tsRetrained a1 a2 s).pending = s.pending := by
  intros; unfold tsRetrained
  first
    | ((repeat' split) <;> simp; done)
    | (dsimp only; (repeat' split) <;> simp [*]; done)
    | ((repeat' apply And.intro) <;> dsimp only <;> (repeat' split) <;> simp [*]; done)

@[simp] theorem withContent_md (p : Nat) (c : Option (List Byte)) (f : List Byte → State → State) (s : State) (h : ∀ b
    s, (f b s).md = s.md) : (withContent p c f s).md = s.md := by
  unfold withContent; (repeat' split) <;> simp [h]

@[simp] theorem withContent_dev (p : Nat) (c : Option (List Byte)) (f : List Byte → State → State) (s : State) (h : ∀ b
    s, (f b s).dev = s.dev) : (withContent p c f s).dev = s.dev := by
  unfold withContent; (repeat' split) <;> simp [h]

@[simp] theorem withContent_pins (p : Nat) (c : Option (List Byte)) (f : List Byte → State → State) (s : State) (h : ∀ b
    s, (f b s).pins = s.pins) : (withContent p c f s).pins = s.pins := by
  unfold withContent; (repeat' split) <;> simp [h]

@[simp] theorem withContent_side (p : Nat) (c : Option (List Byte)) (f : List Byte → State → State) (s : State) (h : ∀ b
    s, (f b s).side = s.side) : (withContent p c f s).side = s.side := by
  unfold withContent; (repeat' split) <;> simp [h]

@[simp] theorem withContent_prot (p : Nat) (c : Option (List Byte)) (f : List Byte → State → State) (s : State) (h : ∀ b
    s, (f b s).prot = s.prot) : (withContent p c f s).prot = s.prot := by
  unfold withContent; (repeat' split) <;> simp [h]

@[simp] theorem withContent_mram (p : Nat) (c : Option (List Byte)) (f : List Byte → State → State) (s : State) (h : ∀ b
    s, (f b s).mram = s.mram) : (withContent p c f s).mram = s.mram := by
  unfold withContent; (repeat' split) <;> simp [h]

@[simp] theorem withContent_img (p : Nat) (c : Option (List Byte)) (f : List Byte → State → State) (s : State) (h : ∀ b
    s, (f b s).img = s.img) : (withContent p c f s).img = s.img := by
  unfold withContent; (repeat' split) <;> simp [h]

@[simp] theorem withContent_host (p : Nat) (c : Option (List Byte)) (f : List Byte → State → State) (s : State) (h : ∀ b
    s, (f b s).host = s.host) : (withContent p c f s).host = s.host := by
  unfold withContent; (repeat' split) <;> simp [h]

@[simp] theorem withContent_lat (p : Nat) (c : Option (List Byte)) (f : List Byte → State → State) (s : State) (h : ∀ b
    s, (f b s).lat = s.lat) : (withContent p c f s).lat = s.lat := by
  unfold withContent; (repeat' split) <;> simp [h]

@[simp] theorem withContent_acct (p : Nat) (c : Option (List Byte)) (f : List Byte → State → State) (s : State) (h : ∀ b
    s, (f b s).acct = s.acct) : (withContent p c f s).acct = s.acct := by
  unfold withContent; (repeat' split) <;> simp [h]

@[simp] theorem withContent_lk (p : Nat) (c : Option (List Byte)) (f : List Byte → State → State) (s : State) (h : ∀ b
    s, (f b s).lk = s.lk) : (withContent p c f s).lk = s.lk := by
  unfold withContent; (repeat' split) <;> simp [h]

@[simp] theorem withContent_tim (p : Nat) (c : Option (List Byte)) (f : List Byte → State → State) (s : State) (h : ∀ b
    s, (f b s).tim = s.tim) : (withContent p c f s).tim = s.tim := by
  unfold withContent; (repeat' split) <;> simp [h]

@[simp] theorem withContent_buf (p : Nat) (c : Option (List Byte)) (f : List Byte → State → State) (s : State) (h : ∀ b
    s, (f b s).buf = s.buf) : (withContent p c f s).buf = s.buf := by
  unfold withContent; (repeat' split) <;> simp [h]

@[simp] theorem withContent_eg (p : Nat) (c : Option (List Byte)) (f : List Byte → State → State) (s : State) (h : ∀ b
    s, (f b s).eg = s.eg) : (withContent p c f s).eg = s.eg := by
  unfold withContent; (repeat' split) <;> simp [h]

@[simp] theorem withContent_tab (p : Nat) (c : Option (List Byte)) (f : List Byte → State → State) (s : State) (h : ∀ b
    s, (f b s).tab = s.tab) : (withContent p c f s).tab = s.tab := by
  unfold withContent; (repeat' split) <;> simp [h]

@[simp] theorem withContent_gen (p : Nat) (c : Option (List Byte)) (f : List Byte → State → State) (s : State) (h : ∀ b
    s, (f b s).gen = s.gen) : (withContent p c f s).gen = s.gen := by
  unfold withContent; (repeat' split) <;> simp [h]

@[simp] theorem withContent_eng (p : Nat) (c : Option (List Byte)) (f : List Byte → State → State) (s : State) (h : ∀ b
    s, (f b s).eng = s.eng) : (withContent p c f s).eng = s.eng := by
  unfold withContent; (repeat' split) <;> simp [h]

@[simp] theorem withContent_recd (p : Nat) (c : Option (List Byte)) (f : List Byte → State → State) (s : State) (h : ∀ b
    s, (f b s).recd = s.recd) : (withContent p c f s).recd = s.recd := by
  unfold withContent; (repeat' split) <;> simp [h]

@[simp] theorem withContent_pmu (p : Nat) (c : Option (List Byte)) (f : List Byte → State → State) (s : State) (h : ∀ b
    s, (f b s).pmu = s.pmu) : (withContent p c f s).pmu = s.pmu := by
  unfold withContent; (repeat' split) <;> simp [h]

@[simp] theorem withContent_svc (p : Nat) (c : Option (List Byte)) (f : List Byte → State → State) (s : State) (h : ∀ b
    s, (f b s).svc = s.svc) : (withContent p c f s).svc = s.svc := by
  unfold withContent; (repeat' split) <;> simp [h]

@[simp] theorem withContent_therm (p : Nat) (c : Option (List Byte)) (f : List Byte → State → State) (s : State) (h : ∀
    b s, (f b s).therm = s.therm) : (withContent p c f s).therm = s.therm := by
  unfold withContent; (repeat' split) <;> simp [h]

@[simp] theorem withContent_hmem (p : Nat) (c : Option (List Byte)) (f : List Byte → State → State) (s : State) (h : ∀ b
    s, (f b s).hmem = s.hmem) : (withContent p c f s).hmem = s.hmem := by
  unfold withContent; (repeat' split) <;> simp [h]

@[simp] theorem withContent_now (p : Nat) (c : Option (List Byte)) (f : List Byte → State → State) (s : State) (h : ∀ b
    s, (f b s).now = s.now) : (withContent p c f s).now = s.now := by
  unfold withContent; (repeat' split) <;> simp [h]

@[simp] theorem withContent_elapsed (p : Nat) (c : Option (List Byte)) (f : List Byte → State → State) (s : State) (h :
    ∀ b s, (f b s).elapsed = s.elapsed) : (withContent p c f s).elapsed = s.elapsed := by
  unfold withContent; (repeat' split) <;> simp [h]

@[simp] theorem withContent_free (p : Nat) (c : Option (List Byte)) (f : List Byte → State → State) (s : State) (h : ∀ b
    s, (f b s).free = s.free) : (withContent p c f s).free = s.free := by
  unfold withContent; (repeat' split) <;> simp [h]

@[simp] theorem withContent_pending (p : Nat) (c : Option (List Byte)) (f : List Byte → State → State) (s : State) (h :
    ∀ b s, (f b s).pending = s.pending) : (withContent p c f s).pending = s.pending := by
  unfold withContent; (repeat' split) <;> simp [h]

@[simp] theorem tsMarkers_keeps : ∀ a1 a2 s, (tsMarkers a1 a2 s).md = s.md ∧ (tsMarkers a1 a2 s).dev = s.dev ∧
    (tsMarkers a1 a2 s).pins = s.pins ∧ (tsMarkers a1 a2 s).side = s.side ∧ (tsMarkers a1 a2 s).prot = s.prot ∧
    (tsMarkers a1 a2 s).mram = s.mram ∧ (tsMarkers a1 a2 s).img = s.img ∧ (tsMarkers a1 a2 s).host = s.host ∧ (tsMarkers
    a1 a2 s).lat = s.lat ∧ (tsMarkers a1 a2 s).acct = s.acct ∧ (tsMarkers a1 a2 s).tim = s.tim ∧ (tsMarkers a1 a2 s).buf
    = s.buf ∧ (tsMarkers a1 a2 s).eg = s.eg ∧ (tsMarkers a1 a2 s).tab = s.tab ∧ (tsMarkers a1 a2 s).gen = s.gen ∧
    (tsMarkers a1 a2 s).eng = s.eng ∧ (tsMarkers a1 a2 s).recd = s.recd ∧ (tsMarkers a1 a2 s).pmu = s.pmu ∧ (tsMarkers
    a1 a2 s).svc = s.svc ∧ (tsMarkers a1 a2 s).therm = s.therm ∧ (tsMarkers a1 a2 s).regs = s.regs ∧ (tsMarkers a1 a2
    s).hmem = s.hmem ∧ (tsMarkers a1 a2 s).now = s.now ∧ (tsMarkers a1 a2 s).elapsed = s.elapsed ∧ (tsMarkers a1 a2
    s).free = s.free ∧ (tsMarkers a1 a2 s).pending = s.pending := by
  intros; unfold tsMarkers
  first
    | ((repeat' split) <;> simp; done)
    | (dsimp only; (repeat' split) <;> simp [*]; done)
    | ((repeat' apply And.intro) <;> dsimp only <;> (repeat' split) <;> simp [*]; done)

@[simp] theorem tsLearn_keeps : ∀ a1 a2 s, (tsLearn a1 a2 s).md = s.md ∧ (tsLearn a1 a2 s).dev = s.dev ∧ (tsLearn a1 a2
    s).pins = s.pins ∧ (tsLearn a1 a2 s).side = s.side ∧ (tsLearn a1 a2 s).prot = s.prot ∧ (tsLearn a1 a2 s).mram =
    s.mram ∧ (tsLearn a1 a2 s).img = s.img ∧ (tsLearn a1 a2 s).host = s.host ∧ (tsLearn a1 a2 s).lat = s.lat ∧ (tsLearn
    a1 a2 s).acct = s.acct ∧ (tsLearn a1 a2 s).tim = s.tim ∧ (tsLearn a1 a2 s).buf = s.buf ∧ (tsLearn a1 a2 s).eg = s.eg
    ∧ (tsLearn a1 a2 s).tab = s.tab ∧ (tsLearn a1 a2 s).gen = s.gen ∧ (tsLearn a1 a2 s).eng = s.eng ∧ (tsLearn a1 a2
    s).recd = s.recd ∧ (tsLearn a1 a2 s).pmu = s.pmu ∧ (tsLearn a1 a2 s).svc = s.svc ∧ (tsLearn a1 a2 s).therm = s.therm
    ∧ (tsLearn a1 a2 s).regs = s.regs ∧ (tsLearn a1 a2 s).hmem = s.hmem ∧ (tsLearn a1 a2 s).now = s.now ∧ (tsLearn a1 a2
    s).elapsed = s.elapsed ∧ (tsLearn a1 a2 s).free = s.free ∧ (tsLearn a1 a2 s).pending = s.pending := by
  intros; unfold tsLearn
  first
    | ((repeat' split) <;> simp; done)
    | (dsimp only; (repeat' split) <;> simp [*]; done)
    | ((repeat' apply And.intro) <;> dsimp only <;> (repeat' split) <;> simp [*]; done)

@[simp] theorem tsDsk_keeps : ∀ a1 a2 a3 s, (tsDsk a1 a2 a3 s).md = s.md ∧ (tsDsk a1 a2 a3 s).dev = s.dev ∧ (tsDsk a1 a2
    a3 s).pins = s.pins ∧ (tsDsk a1 a2 a3 s).side = s.side ∧ (tsDsk a1 a2 a3 s).prot = s.prot ∧ (tsDsk a1 a2 a3 s).mram
    = s.mram ∧ (tsDsk a1 a2 a3 s).img = s.img ∧ (tsDsk a1 a2 a3 s).lat = s.lat ∧ (tsDsk a1 a2 a3 s).tim = s.tim ∧ (tsDsk
    a1 a2 a3 s).gen = s.gen ∧ (tsDsk a1 a2 a3 s).eng = s.eng ∧ (tsDsk a1 a2 a3 s).svc = s.svc ∧ (tsDsk a1 a2 a3 s).therm
    = s.therm ∧ (tsDsk a1 a2 a3 s).now = s.now ∧ (tsDsk a1 a2 a3 s).elapsed = s.elapsed ∧ (tsDsk a1 a2 a3 s).free =
    s.free ∧ (tsDsk a1 a2 a3 s).pending = s.pending := by
  intros; unfold tsDsk
  first
    | ((repeat' split) <;> simp; done)
    | (dsimp only; (repeat' split) <;> simp [*]; done)
    | ((repeat' apply And.intro) <;> dsimp only <;> (repeat' split) <;> simp [*]; done)

@[simp] theorem tsCrd_keeps : ∀ a1 a2 s, (tsCrd a1 a2 s).md = s.md ∧ (tsCrd a1 a2 s).dev = s.dev ∧ (tsCrd a1 a2 s).pins
    = s.pins ∧ (tsCrd a1 a2 s).side = s.side ∧ (tsCrd a1 a2 s).prot = s.prot ∧ (tsCrd a1 a2 s).mram = s.mram ∧ (tsCrd a1
    a2 s).img = s.img ∧ (tsCrd a1 a2 s).lat = s.lat ∧ (tsCrd a1 a2 s).tim = s.tim ∧ (tsCrd a1 a2 s).gen = s.gen ∧ (tsCrd
    a1 a2 s).eng = s.eng ∧ (tsCrd a1 a2 s).svc = s.svc ∧ (tsCrd a1 a2 s).therm = s.therm ∧ (tsCrd a1 a2 s).now = s.now ∧
    (tsCrd a1 a2 s).elapsed = s.elapsed ∧ (tsCrd a1 a2 s).free = s.free ∧ (tsCrd a1 a2 s).pending = s.pending := by
  intros; unfold tsCrd
  first
    | ((repeat' split) <;> simp; done)
    | (dsimp only; (repeat' split) <;> simp [*]; done)
    | ((repeat' apply And.intro) <;> dsimp only <;> (repeat' split) <;> simp [*]; done)

@[simp] theorem tsMark_keeps : ∀ a1 a2 a3 s, (tsMark a1 a2 a3 s).md = s.md ∧ (tsMark a1 a2 a3 s).dev = s.dev ∧ (tsMark
    a1 a2 a3 s).pins = s.pins ∧ (tsMark a1 a2 a3 s).side = s.side ∧ (tsMark a1 a2 a3 s).prot = s.prot ∧ (tsMark a1 a2 a3
    s).mram = s.mram ∧ (tsMark a1 a2 a3 s).img = s.img ∧ (tsMark a1 a2 a3 s).host = s.host ∧ (tsMark a1 a2 a3 s).lat =
    s.lat ∧ (tsMark a1 a2 a3 s).acct = s.acct ∧ (tsMark a1 a2 a3 s).tim = s.tim ∧ (tsMark a1 a2 a3 s).buf = s.buf ∧
    (tsMark a1 a2 a3 s).eg = s.eg ∧ (tsMark a1 a2 a3 s).tab = s.tab ∧ (tsMark a1 a2 a3 s).gen = s.gen ∧ (tsMark a1 a2 a3
    s).eng = s.eng ∧ (tsMark a1 a2 a3 s).recd = s.recd ∧ (tsMark a1 a2 a3 s).pmu = s.pmu ∧ (tsMark a1 a2 a3 s).svc =
    s.svc ∧ (tsMark a1 a2 a3 s).therm = s.therm ∧ (tsMark a1 a2 a3 s).hmem = s.hmem ∧ (tsMark a1 a2 a3 s).now = s.now ∧
    (tsMark a1 a2 a3 s).elapsed = s.elapsed ∧ (tsMark a1 a2 a3 s).free = s.free ∧ (tsMark a1 a2 a3 s).pending =
    s.pending := by
  intros; unfold tsMark
  first
    | ((repeat' split) <;> simp; done)
    | (dsimp only; (repeat' split) <;> simp [*]; done)
    | ((repeat' apply And.intro) <;> dsimp only <;> (repeat' split) <;> simp [*]; done)

@[simp] theorem tsTimeout_md (p n : Nat) (f : State → State) (s : State) (h : ∀ s, (f s).md = s.md) : (tsTimeout p n f
    s).md = s.md := by
  unfold tsTimeout; (repeat' split) <;> simp [h]

@[simp] theorem tsTimeout_dev (p n : Nat) (f : State → State) (s : State) (h : ∀ s, (f s).dev = s.dev) : (tsTimeout p n
    f s).dev = s.dev := by
  unfold tsTimeout; (repeat' split) <;> simp [h]

@[simp] theorem tsTimeout_pins (p n : Nat) (f : State → State) (s : State) (h : ∀ s, (f s).pins = s.pins) : (tsTimeout p
    n f s).pins = s.pins := by
  unfold tsTimeout; (repeat' split) <;> simp [h]

@[simp] theorem tsTimeout_side (p n : Nat) (f : State → State) (s : State) (h : ∀ s, (f s).side = s.side) : (tsTimeout p
    n f s).side = s.side := by
  unfold tsTimeout; (repeat' split) <;> simp [h]

@[simp] theorem tsTimeout_prot (p n : Nat) (f : State → State) (s : State) (h : ∀ s, (f s).prot = s.prot) : (tsTimeout p
    n f s).prot = s.prot := by
  unfold tsTimeout; (repeat' split) <;> simp [h]

@[simp] theorem tsTimeout_mram (p n : Nat) (f : State → State) (s : State) (h : ∀ s, (f s).mram = s.mram) : (tsTimeout p
    n f s).mram = s.mram := by
  unfold tsTimeout; (repeat' split) <;> simp [h]

@[simp] theorem tsTimeout_img (p n : Nat) (f : State → State) (s : State) (h : ∀ s, (f s).img = s.img) : (tsTimeout p n
    f s).img = s.img := by
  unfold tsTimeout; (repeat' split) <;> simp [h]

@[simp] theorem tsTimeout_host (p n : Nat) (f : State → State) (s : State) (h : ∀ s, (f s).host = s.host) : (tsTimeout p
    n f s).host = s.host := by
  unfold tsTimeout; (repeat' split) <;> simp [h]

@[simp] theorem tsTimeout_lat (p n : Nat) (f : State → State) (s : State) (h : ∀ s, (f s).lat = s.lat) : (tsTimeout p n
    f s).lat = s.lat := by
  unfold tsTimeout; (repeat' split) <;> simp [h]

@[simp] theorem tsTimeout_acct (p n : Nat) (f : State → State) (s : State) (h : ∀ s, (f s).acct = s.acct) : (tsTimeout p
    n f s).acct = s.acct := by
  unfold tsTimeout; (repeat' split) <;> simp [h]

@[simp] theorem tsTimeout_lk (p n : Nat) (f : State → State) (s : State) (h : ∀ s, (f s).lk = s.lk) : (tsTimeout p n f
    s).lk = s.lk := by
  unfold tsTimeout; (repeat' split) <;> simp [h]

@[simp] theorem tsTimeout_buf (p n : Nat) (f : State → State) (s : State) (h : ∀ s, (f s).buf = s.buf) : (tsTimeout p n
    f s).buf = s.buf := by
  unfold tsTimeout; (repeat' split) <;> simp [h]

@[simp] theorem tsTimeout_eg (p n : Nat) (f : State → State) (s : State) (h : ∀ s, (f s).eg = s.eg) : (tsTimeout p n f
    s).eg = s.eg := by
  unfold tsTimeout; (repeat' split) <;> simp [h]

@[simp] theorem tsTimeout_tab (p n : Nat) (f : State → State) (s : State) (h : ∀ s, (f s).tab = s.tab) : (tsTimeout p n
    f s).tab = s.tab := by
  unfold tsTimeout; (repeat' split) <;> simp [h]

@[simp] theorem tsTimeout_gen (p n : Nat) (f : State → State) (s : State) (h : ∀ s, (f s).gen = s.gen) : (tsTimeout p n
    f s).gen = s.gen := by
  unfold tsTimeout; (repeat' split) <;> simp [h]

@[simp] theorem tsTimeout_eng (p n : Nat) (f : State → State) (s : State) (h : ∀ s, (f s).eng = s.eng) : (tsTimeout p n
    f s).eng = s.eng := by
  unfold tsTimeout; (repeat' split) <;> simp [h]

@[simp] theorem tsTimeout_recd (p n : Nat) (f : State → State) (s : State) (h : ∀ s, (f s).recd = s.recd) : (tsTimeout p
    n f s).recd = s.recd := by
  unfold tsTimeout; (repeat' split) <;> simp [h]

@[simp] theorem tsTimeout_svc (p n : Nat) (f : State → State) (s : State) (h : ∀ s, (f s).svc = s.svc) : (tsTimeout p n
    f s).svc = s.svc := by
  unfold tsTimeout; (repeat' split) <;> simp [h]

@[simp] theorem tsTimeout_therm (p n : Nat) (f : State → State) (s : State) (h : ∀ s, (f s).therm = s.therm) :
    (tsTimeout p n f s).therm = s.therm := by
  unfold tsTimeout; (repeat' split) <;> simp [h]

@[simp] theorem tsTimeout_hmem (p n : Nat) (f : State → State) (s : State) (h : ∀ s, (f s).hmem = s.hmem) : (tsTimeout p
    n f s).hmem = s.hmem := by
  unfold tsTimeout; (repeat' split) <;> simp [h]

@[simp] theorem tsTimeout_free (p n : Nat) (f : State → State) (s : State) (h : ∀ s, (f s).free = s.free) : (tsTimeout p
    n f s).free = s.free := by
  unfold tsTimeout; (repeat' split) <;> simp [h]

@[simp] theorem tsTimeout_pending (p n : Nat) (f : State → State) (s : State) (h : ∀ s, (f s).pending = s.pending) :
    (tsTimeout p n f s).pending = s.pending := by
  unfold tsTimeout; (repeat' split) <;> simp [h]

@[simp] theorem tsSeen_keeps : ∀ a1 a2 s, (tsSeen a1 a2 s).md = s.md ∧ (tsSeen a1 a2 s).dev = s.dev ∧ (tsSeen a1 a2
    s).pins = s.pins ∧ (tsSeen a1 a2 s).side = s.side ∧ (tsSeen a1 a2 s).prot = s.prot ∧ (tsSeen a1 a2 s).mram = s.mram
    ∧ (tsSeen a1 a2 s).img = s.img ∧ (tsSeen a1 a2 s).host = s.host ∧ (tsSeen a1 a2 s).lat = s.lat ∧ (tsSeen a1 a2
    s).acct = s.acct ∧ (tsSeen a1 a2 s).tim = s.tim ∧ (tsSeen a1 a2 s).buf = s.buf ∧ (tsSeen a1 a2 s).eg = s.eg ∧
    (tsSeen a1 a2 s).tab = s.tab ∧ (tsSeen a1 a2 s).gen = s.gen ∧ (tsSeen a1 a2 s).eng = s.eng ∧ (tsSeen a1 a2 s).recd =
    s.recd ∧ (tsSeen a1 a2 s).pmu = s.pmu ∧ (tsSeen a1 a2 s).svc = s.svc ∧ (tsSeen a1 a2 s).therm = s.therm ∧ (tsSeen a1
    a2 s).hmem = s.hmem ∧ (tsSeen a1 a2 s).now = s.now ∧ (tsSeen a1 a2 s).elapsed = s.elapsed ∧ (tsSeen a1 a2 s).free =
    s.free ∧ (tsSeen a1 a2 s).pending = s.pending := by
  intros; unfold tsSeen
  first
    | ((repeat' split) <;> simp; done)
    | (dsimp only; (repeat' split) <;> simp [*]; done)
    | ((repeat' apply And.intro) <;> dsimp only <;> (repeat' split) <;> simp [*]; done)

@[simp] theorem tsSendSet_keeps : ∀ a1 a2 a3 s, (tsSendSet a1 a2 a3 s).md = s.md ∧ (tsSendSet a1 a2 a3 s).dev = s.dev ∧
    (tsSendSet a1 a2 a3 s).pins = s.pins ∧ (tsSendSet a1 a2 a3 s).side = s.side ∧ (tsSendSet a1 a2 a3 s).prot = s.prot ∧
    (tsSendSet a1 a2 a3 s).mram = s.mram ∧ (tsSendSet a1 a2 a3 s).img = s.img ∧ (tsSendSet a1 a2 a3 s).host = s.host ∧
    (tsSendSet a1 a2 a3 s).lat = s.lat ∧ (tsSendSet a1 a2 a3 s).acct = s.acct ∧ (tsSendSet a1 a2 a3 s).tim = s.tim ∧
    (tsSendSet a1 a2 a3 s).buf = s.buf ∧ (tsSendSet a1 a2 a3 s).eg = s.eg ∧ (tsSendSet a1 a2 a3 s).tab = s.tab ∧
    (tsSendSet a1 a2 a3 s).gen = s.gen ∧ (tsSendSet a1 a2 a3 s).eng = s.eng ∧ (tsSendSet a1 a2 a3 s).recd = s.recd ∧
    (tsSendSet a1 a2 a3 s).pmu = s.pmu ∧ (tsSendSet a1 a2 a3 s).svc = s.svc ∧ (tsSendSet a1 a2 a3 s).therm = s.therm ∧
    (tsSendSet a1 a2 a3 s).regs = s.regs ∧ (tsSendSet a1 a2 a3 s).hmem = s.hmem ∧ (tsSendSet a1 a2 a3 s).now = s.now ∧
    (tsSendSet a1 a2 a3 s).elapsed = s.elapsed ∧ (tsSendSet a1 a2 a3 s).free = s.free ∧ (tsSendSet a1 a2 a3 s).pending =
    s.pending := by
  intros; unfold tsSendSet
  first
    | ((repeat' split) <;> simp; done)
    | (dsimp only; (repeat' split) <;> simp [*]; done)
    | ((repeat' apply And.intro) <;> dsimp only <;> (repeat' split) <;> simp [*]; done)

@[simp] theorem modOut_keeps : ∀ a1 a2 s, (modOut a1 a2 s).md = s.md ∧ (modOut a1 a2 s).dev = s.dev ∧ (modOut a1 a2
    s).pins = s.pins ∧ (modOut a1 a2 s).side = s.side ∧ (modOut a1 a2 s).prot = s.prot ∧ (modOut a1 a2 s).mram = s.mram
    ∧ (modOut a1 a2 s).img = s.img ∧ (modOut a1 a2 s).host = s.host ∧ (modOut a1 a2 s).lat = s.lat ∧ (modOut a1 a2
    s).acct = s.acct ∧ (modOut a1 a2 s).tim = s.tim ∧ (modOut a1 a2 s).buf = s.buf ∧ (modOut a1 a2 s).eg = s.eg ∧
    (modOut a1 a2 s).tab = s.tab ∧ (modOut a1 a2 s).gen = s.gen ∧ (modOut a1 a2 s).eng = s.eng ∧ (modOut a1 a2 s).recd =
    s.recd ∧ (modOut a1 a2 s).pmu = s.pmu ∧ (modOut a1 a2 s).svc = s.svc ∧ (modOut a1 a2 s).therm = s.therm ∧ (modOut a1
    a2 s).regs = s.regs ∧ (modOut a1 a2 s).hmem = s.hmem ∧ (modOut a1 a2 s).now = s.now ∧ (modOut a1 a2 s).elapsed =
    s.elapsed ∧ (modOut a1 a2 s).free = s.free ∧ (modOut a1 a2 s).pending = s.pending := by
  intros; unfold modOut
  first
    | ((repeat' split) <;> simp; done)
    | (dsimp only; (repeat' split) <;> simp [*]; done)
    | ((repeat' apply And.intro) <;> dsimp only <;> (repeat' split) <;> simp [*]; done)

@[simp] theorem tsFillOne_keeps : ∀ a1 a2 s, (tsFillOne a1 a2 s).md = s.md ∧ (tsFillOne a1 a2 s).dev = s.dev ∧
    (tsFillOne a1 a2 s).pins = s.pins ∧ (tsFillOne a1 a2 s).side = s.side ∧ (tsFillOne a1 a2 s).prot = s.prot ∧
    (tsFillOne a1 a2 s).mram = s.mram ∧ (tsFillOne a1 a2 s).img = s.img ∧ (tsFillOne a1 a2 s).host = s.host ∧ (tsFillOne
    a1 a2 s).lat = s.lat ∧ (tsFillOne a1 a2 s).acct = s.acct ∧ (tsFillOne a1 a2 s).tim = s.tim ∧ (tsFillOne a1 a2 s).buf
    = s.buf ∧ (tsFillOne a1 a2 s).eg = s.eg ∧ (tsFillOne a1 a2 s).tab = s.tab ∧ (tsFillOne a1 a2 s).gen = s.gen ∧
    (tsFillOne a1 a2 s).eng = s.eng ∧ (tsFillOne a1 a2 s).recd = s.recd ∧ (tsFillOne a1 a2 s).pmu = s.pmu ∧ (tsFillOne
    a1 a2 s).svc = s.svc ∧ (tsFillOne a1 a2 s).therm = s.therm ∧ (tsFillOne a1 a2 s).hmem = s.hmem ∧ (tsFillOne a1 a2
    s).now = s.now ∧ (tsFillOne a1 a2 s).elapsed = s.elapsed ∧ (tsFillOne a1 a2 s).free = s.free ∧ (tsFillOne a1 a2
    s).pending = s.pending := by
  intros; unfold tsFillOne
  first
    | ((repeat' split) <;> simp; done)
    | (dsimp only; (repeat' split) <;> simp [*]; done)
    | ((repeat' apply And.intro) <;> dsimp only <;> (repeat' split) <;> simp [*]; done)

@[simp] theorem tsFill_keeps : ∀ a1 s, (tsFill a1 s).md = s.md ∧ (tsFill a1 s).dev = s.dev ∧ (tsFill a1 s).pins = s.pins
    ∧ (tsFill a1 s).side = s.side ∧ (tsFill a1 s).prot = s.prot ∧ (tsFill a1 s).mram = s.mram ∧ (tsFill a1 s).img =
    s.img ∧ (tsFill a1 s).host = s.host ∧ (tsFill a1 s).lat = s.lat ∧ (tsFill a1 s).acct = s.acct ∧ (tsFill a1 s).tim =
    s.tim ∧ (tsFill a1 s).buf = s.buf ∧ (tsFill a1 s).eg = s.eg ∧ (tsFill a1 s).tab = s.tab ∧ (tsFill a1 s).gen = s.gen
    ∧ (tsFill a1 s).eng = s.eng ∧ (tsFill a1 s).recd = s.recd ∧ (tsFill a1 s).pmu = s.pmu ∧ (tsFill a1 s).svc = s.svc ∧
    (tsFill a1 s).therm = s.therm ∧ (tsFill a1 s).hmem = s.hmem ∧ (tsFill a1 s).now = s.now ∧ (tsFill a1 s).elapsed =
    s.elapsed ∧ (tsFill a1 s).free = s.free ∧ (tsFill a1 s).pending = s.pending := by
  intros; unfold tsFill
  first
    | ((repeat' split) <;> simp; done)
    | (dsimp only; (repeat' split) <;> simp [*]; done)
    | ((repeat' apply And.intro) <;> dsimp only <;> (repeat' split) <;> simp [*]; done)

@[simp] theorem sendMarks_keeps : ∀ a1 s, (sendMarks a1 s).md = s.md ∧ (sendMarks a1 s).dev = s.dev ∧ (sendMarks a1
    s).pins = s.pins ∧ (sendMarks a1 s).side = s.side ∧ (sendMarks a1 s).prot = s.prot ∧ (sendMarks a1 s).mram = s.mram
    ∧ (sendMarks a1 s).img = s.img ∧ (sendMarks a1 s).host = s.host ∧ (sendMarks a1 s).lat = s.lat ∧ (sendMarks a1
    s).acct = s.acct ∧ (sendMarks a1 s).tim = s.tim ∧ (sendMarks a1 s).buf = s.buf ∧ (sendMarks a1 s).eg = s.eg ∧
    (sendMarks a1 s).tab = s.tab ∧ (sendMarks a1 s).gen = s.gen ∧ (sendMarks a1 s).eng = s.eng ∧ (sendMarks a1 s).recd =
    s.recd ∧ (sendMarks a1 s).pmu = s.pmu ∧ (sendMarks a1 s).svc = s.svc ∧ (sendMarks a1 s).therm = s.therm ∧ (sendMarks
    a1 s).regs = s.regs ∧ (sendMarks a1 s).hmem = s.hmem ∧ (sendMarks a1 s).now = s.now ∧ (sendMarks a1 s).elapsed =
    s.elapsed ∧ (sendMarks a1 s).free = s.free ∧ (sendMarks a1 s).pending = s.pending := by
  intros; unfold sendMarks
  first
    | ((repeat' split) <;> simp; done)
    | (dsimp only; (repeat' split) <;> simp [*]; done)
    | ((repeat' apply And.intro) <;> dsimp only <;> (repeat' split) <;> simp [*]; done)

@[simp] theorem sendSkp_keeps : ∀ a1 s, (sendSkp a1 s).md = s.md ∧ (sendSkp a1 s).dev = s.dev ∧ (sendSkp a1 s).pins =
    s.pins ∧ (sendSkp a1 s).side = s.side ∧ (sendSkp a1 s).prot = s.prot ∧ (sendSkp a1 s).mram = s.mram ∧ (sendSkp a1
    s).img = s.img ∧ (sendSkp a1 s).host = s.host ∧ (sendSkp a1 s).lat = s.lat ∧ (sendSkp a1 s).acct = s.acct ∧ (sendSkp
    a1 s).tim = s.tim ∧ (sendSkp a1 s).buf = s.buf ∧ (sendSkp a1 s).eg = s.eg ∧ (sendSkp a1 s).tab = s.tab ∧ (sendSkp a1
    s).gen = s.gen ∧ (sendSkp a1 s).eng = s.eng ∧ (sendSkp a1 s).recd = s.recd ∧ (sendSkp a1 s).pmu = s.pmu ∧ (sendSkp
    a1 s).svc = s.svc ∧ (sendSkp a1 s).therm = s.therm ∧ (sendSkp a1 s).regs = s.regs ∧ (sendSkp a1 s).hmem = s.hmem ∧
    (sendSkp a1 s).now = s.now ∧ (sendSkp a1 s).elapsed = s.elapsed ∧ (sendSkp a1 s).free = s.free ∧ (sendSkp a1
    s).pending = s.pending := by
  intros; unfold sendSkp
  first
    | ((repeat' split) <;> simp; done)
    | (dsimp only; (repeat' split) <;> simp [*]; done)
    | ((repeat' apply And.intro) <;> dsimp only <;> (repeat' split) <;> simp [*]; done)

@[simp] theorem sendDsk_keeps : ∀ a1 s, (sendDsk a1 s).md = s.md ∧ (sendDsk a1 s).dev = s.dev ∧ (sendDsk a1 s).pins =
    s.pins ∧ (sendDsk a1 s).side = s.side ∧ (sendDsk a1 s).prot = s.prot ∧ (sendDsk a1 s).mram = s.mram ∧ (sendDsk a1
    s).img = s.img ∧ (sendDsk a1 s).host = s.host ∧ (sendDsk a1 s).lat = s.lat ∧ (sendDsk a1 s).acct = s.acct ∧ (sendDsk
    a1 s).tim = s.tim ∧ (sendDsk a1 s).buf = s.buf ∧ (sendDsk a1 s).eg = s.eg ∧ (sendDsk a1 s).tab = s.tab ∧ (sendDsk a1
    s).gen = s.gen ∧ (sendDsk a1 s).eng = s.eng ∧ (sendDsk a1 s).recd = s.recd ∧ (sendDsk a1 s).pmu = s.pmu ∧ (sendDsk
    a1 s).svc = s.svc ∧ (sendDsk a1 s).therm = s.therm ∧ (sendDsk a1 s).regs = s.regs ∧ (sendDsk a1 s).hmem = s.hmem ∧
    (sendDsk a1 s).now = s.now ∧ (sendDsk a1 s).elapsed = s.elapsed ∧ (sendDsk a1 s).free = s.free ∧ (sendDsk a1
    s).pending = s.pending := by
  intros; unfold sendDsk
  first
    | ((repeat' split) <;> simp; done)
    | (dsimp only; (repeat' split) <;> simp [*]; done)
    | ((repeat' apply And.intro) <;> dsimp only <;> (repeat' split) <;> simp [*]; done)

@[simp] theorem sendTtm_keeps : ∀ a1 s, (sendTtm a1 s).md = s.md ∧ (sendTtm a1 s).dev = s.dev ∧ (sendTtm a1 s).pins =
    s.pins ∧ (sendTtm a1 s).side = s.side ∧ (sendTtm a1 s).prot = s.prot ∧ (sendTtm a1 s).mram = s.mram ∧ (sendTtm a1
    s).img = s.img ∧ (sendTtm a1 s).host = s.host ∧ (sendTtm a1 s).lat = s.lat ∧ (sendTtm a1 s).acct = s.acct ∧ (sendTtm
    a1 s).tim = s.tim ∧ (sendTtm a1 s).buf = s.buf ∧ (sendTtm a1 s).eg = s.eg ∧ (sendTtm a1 s).tab = s.tab ∧ (sendTtm a1
    s).gen = s.gen ∧ (sendTtm a1 s).eng = s.eng ∧ (sendTtm a1 s).recd = s.recd ∧ (sendTtm a1 s).pmu = s.pmu ∧ (sendTtm
    a1 s).svc = s.svc ∧ (sendTtm a1 s).therm = s.therm ∧ (sendTtm a1 s).regs = s.regs ∧ (sendTtm a1 s).hmem = s.hmem ∧
    (sendTtm a1 s).now = s.now ∧ (sendTtm a1 s).elapsed = s.elapsed ∧ (sendTtm a1 s).free = s.free ∧ (sendTtm a1
    s).pending = s.pending := by
  intros; unfold sendTtm
  first
    | ((repeat' split) <;> simp; done)
    | (dsimp only; (repeat' split) <;> simp [*]; done)
    | ((repeat' apply And.intro) <;> dsimp only <;> (repeat' split) <;> simp [*]; done)

@[simp] theorem sendCrd_keeps : ∀ a1 a2 s, (sendCrd a1 a2 s).md = s.md ∧ (sendCrd a1 a2 s).dev = s.dev ∧ (sendCrd a1 a2
    s).pins = s.pins ∧ (sendCrd a1 a2 s).side = s.side ∧ (sendCrd a1 a2 s).prot = s.prot ∧ (sendCrd a1 a2 s).mram =
    s.mram ∧ (sendCrd a1 a2 s).img = s.img ∧ (sendCrd a1 a2 s).host = s.host ∧ (sendCrd a1 a2 s).lat = s.lat ∧ (sendCrd
    a1 a2 s).acct = s.acct ∧ (sendCrd a1 a2 s).tim = s.tim ∧ (sendCrd a1 a2 s).buf = s.buf ∧ (sendCrd a1 a2 s).eg = s.eg
    ∧ (sendCrd a1 a2 s).tab = s.tab ∧ (sendCrd a1 a2 s).gen = s.gen ∧ (sendCrd a1 a2 s).eng = s.eng ∧ (sendCrd a1 a2
    s).recd = s.recd ∧ (sendCrd a1 a2 s).pmu = s.pmu ∧ (sendCrd a1 a2 s).svc = s.svc ∧ (sendCrd a1 a2 s).therm = s.therm
    ∧ (sendCrd a1 a2 s).regs = s.regs ∧ (sendCrd a1 a2 s).hmem = s.hmem ∧ (sendCrd a1 a2 s).now = s.now ∧ (sendCrd a1 a2
    s).elapsed = s.elapsed ∧ (sendCrd a1 a2 s).free = s.free ∧ (sendCrd a1 a2 s).pending = s.pending := by
  intros; unfold sendCrd
  first
    | ((repeat' split) <;> simp; done)
    | (dsimp only; (repeat' split) <;> simp [*]; done)
    | ((repeat' apply And.intro) <;> dsimp only <;> (repeat' split) <;> simp [*]; done)

@[simp] theorem gapBefore_keeps : ∀ a1 a2 s, (gapBefore a1 a2 s).md = s.md ∧ (gapBefore a1 a2 s).dev = s.dev ∧
    (gapBefore a1 a2 s).pins = s.pins ∧ (gapBefore a1 a2 s).side = s.side ∧ (gapBefore a1 a2 s).prot = s.prot ∧
    (gapBefore a1 a2 s).mram = s.mram ∧ (gapBefore a1 a2 s).img = s.img ∧ (gapBefore a1 a2 s).host = s.host ∧ (gapBefore
    a1 a2 s).lat = s.lat ∧ (gapBefore a1 a2 s).acct = s.acct ∧ (gapBefore a1 a2 s).tim = s.tim ∧ (gapBefore a1 a2 s).buf
    = s.buf ∧ (gapBefore a1 a2 s).eg = s.eg ∧ (gapBefore a1 a2 s).tab = s.tab ∧ (gapBefore a1 a2 s).gen = s.gen ∧
    (gapBefore a1 a2 s).eng = s.eng ∧ (gapBefore a1 a2 s).recd = s.recd ∧ (gapBefore a1 a2 s).pmu = s.pmu ∧ (gapBefore
    a1 a2 s).svc = s.svc ∧ (gapBefore a1 a2 s).therm = s.therm ∧ (gapBefore a1 a2 s).hmem = s.hmem ∧ (gapBefore a1 a2
    s).now = s.now ∧ (gapBefore a1 a2 s).elapsed = s.elapsed ∧ (gapBefore a1 a2 s).free = s.free ∧ (gapBefore a1 a2
    s).pending = s.pending := by
  intros; unfold gapBefore
  first
    | ((repeat' split) <;> simp; done)
    | (dsimp only; (repeat' split) <;> simp [*]; done)
    | ((repeat' apply And.intro) <;> dsimp only <;> (repeat' split) <;> simp [*]; done)

@[simp] theorem tsMarksDue_keeps : ∀ a1 s, (tsMarksDue a1 s).md = s.md ∧ (tsMarksDue a1 s).dev = s.dev ∧ (tsMarksDue a1
    s).pins = s.pins ∧ (tsMarksDue a1 s).side = s.side ∧ (tsMarksDue a1 s).prot = s.prot ∧ (tsMarksDue a1 s).mram =
    s.mram ∧ (tsMarksDue a1 s).img = s.img ∧ (tsMarksDue a1 s).host = s.host ∧ (tsMarksDue a1 s).lat = s.lat ∧
    (tsMarksDue a1 s).acct = s.acct ∧ (tsMarksDue a1 s).buf = s.buf ∧ (tsMarksDue a1 s).eg = s.eg ∧ (tsMarksDue a1
    s).tab = s.tab ∧ (tsMarksDue a1 s).gen = s.gen ∧ (tsMarksDue a1 s).eng = s.eng ∧ (tsMarksDue a1 s).recd = s.recd ∧
    (tsMarksDue a1 s).svc = s.svc ∧ (tsMarksDue a1 s).therm = s.therm ∧ (tsMarksDue a1 s).hmem = s.hmem ∧ (tsMarksDue a1
    s).free = s.free ∧ (tsMarksDue a1 s).pending = s.pending := by
  intros; unfold tsMarksDue
  first
    | ((repeat' split) <;> simp; done)
    | (dsimp only; (repeat' split) <;> simp [*]; done)
    | ((repeat' apply And.intro) <;> dsimp only <;> (repeat' split) <;> simp [*]; done)

@[simp] theorem laneLost_keeps : ∀ a1 s, (laneLost a1 s).md = s.md ∧ (laneLost a1 s).dev = s.dev ∧ (laneLost a1 s).pins
    = s.pins ∧ (laneLost a1 s).side = s.side ∧ (laneLost a1 s).prot = s.prot ∧ (laneLost a1 s).mram = s.mram ∧ (laneLost
    a1 s).img = s.img ∧ (laneLost a1 s).lat = s.lat ∧ (laneLost a1 s).tim = s.tim ∧ (laneLost a1 s).gen = s.gen ∧
    (laneLost a1 s).eng = s.eng ∧ (laneLost a1 s).svc = s.svc ∧ (laneLost a1 s).therm = s.therm ∧ (laneLost a1 s).now =
    s.now ∧ (laneLost a1 s).elapsed = s.elapsed ∧ (laneLost a1 s).free = s.free ∧ (laneLost a1 s).pending = s.pending :=
    by
  intros; unfold laneLost
  first
    | ((repeat' split) <;> simp; done)
    | (dsimp only; (repeat' split) <;> simp [*]; done)
    | ((repeat' apply And.intro) <;> dsimp only <;> (repeat' split) <;> simp [*]; done)

@[simp] theorem laneChange_keeps : ∀ a1 a2 s, (laneChange a1 a2 s).md = s.md ∧ (laneChange a1 a2 s).dev = s.dev ∧
    (laneChange a1 a2 s).pins = s.pins ∧ (laneChange a1 a2 s).side = s.side ∧ (laneChange a1 a2 s).prot = s.prot ∧
    (laneChange a1 a2 s).mram = s.mram ∧ (laneChange a1 a2 s).img = s.img ∧ (laneChange a1 a2 s).lat = s.lat ∧
    (laneChange a1 a2 s).tim = s.tim ∧ (laneChange a1 a2 s).gen = s.gen ∧ (laneChange a1 a2 s).eng = s.eng ∧ (laneChange
    a1 a2 s).svc = s.svc ∧ (laneChange a1 a2 s).therm = s.therm ∧ (laneChange a1 a2 s).now = s.now ∧ (laneChange a1 a2
    s).elapsed = s.elapsed ∧ (laneChange a1 a2 s).free = s.free ∧ (laneChange a1 a2 s).pending = s.pending := by
  intros; unfold laneChange
  first
    | ((repeat' split) <;> simp; done)
    | (dsimp only; (repeat' split) <;> simp [*]; done)
    | ((repeat' apply And.intro) <;> dsimp only <;> (repeat' split) <;> simp [*]; done)

@[simp] theorem refclkSet_keeps : ∀ a1 a2 s, (refclkSet a1 a2 s).md = s.md ∧ (refclkSet a1 a2 s).dev = s.dev ∧
    (refclkSet a1 a2 s).pins = s.pins ∧ (refclkSet a1 a2 s).side = s.side ∧ (refclkSet a1 a2 s).prot = s.prot ∧
    (refclkSet a1 a2 s).mram = s.mram ∧ (refclkSet a1 a2 s).img = s.img ∧ (refclkSet a1 a2 s).lat = s.lat ∧ (refclkSet
    a1 a2 s).tim = s.tim ∧ (refclkSet a1 a2 s).gen = s.gen ∧ (refclkSet a1 a2 s).eng = s.eng ∧ (refclkSet a1 a2 s).svc =
    s.svc ∧ (refclkSet a1 a2 s).therm = s.therm ∧ (refclkSet a1 a2 s).now = s.now ∧ (refclkSet a1 a2 s).elapsed =
    s.elapsed ∧ (refclkSet a1 a2 s).free = s.free ∧ (refclkSet a1 a2 s).pending = s.pending := by
  intros; unfold refclkSet
  first
    | ((repeat' split) <;> simp; done)
    | (dsimp only; (repeat' split) <;> simp [*]; done)
    | ((repeat' apply And.intro) <;> dsimp only <;> (repeat' split) <;> simp [*]; done)

@[simp] theorem refclkRejudge_keeps : ∀ a old s, (refclkRejudge a old s).md = s.md ∧ (refclkRejudge a old s).dev = s.dev
    ∧ (refclkRejudge a old s).pins = s.pins ∧ (refclkRejudge a old s).side = s.side ∧ (refclkRejudge a old s).prot =
    s.prot ∧ (refclkRejudge a old s).mram = s.mram ∧ (refclkRejudge a old s).img = s.img ∧ (refclkRejudge a old s).lat =
    s.lat ∧ (refclkRejudge a old s).tim = s.tim ∧ (refclkRejudge a old s).gen = s.gen ∧ (refclkRejudge a old s).eng =
    s.eng ∧ (refclkRejudge a old s).svc = s.svc ∧ (refclkRejudge a old s).therm = s.therm ∧ (refclkRejudge a old s).now
    = s.now ∧ (refclkRejudge a old s).elapsed = s.elapsed ∧ (refclkRejudge a old s).free = s.free ∧ (refclkRejudge a old
    s).pending = s.pending := by
  intros; unfold refclkRejudge; first | ((repeat' split) <;> simp; done) | (dsimp only; (repeat' split) <;> simp [*]; done)

@[simp] theorem laneResult_keeps : ∀ a1 a2 s, (laneResult a1 a2 s).md = s.md ∧ (laneResult a1 a2 s).dev = s.dev ∧
    (laneResult a1 a2 s).pins = s.pins ∧ (laneResult a1 a2 s).side = s.side ∧ (laneResult a1 a2 s).prot = s.prot ∧
    (laneResult a1 a2 s).mram = s.mram ∧ (laneResult a1 a2 s).img = s.img ∧ (laneResult a1 a2 s).host = s.host ∧
    (laneResult a1 a2 s).lat = s.lat ∧ (laneResult a1 a2 s).acct = s.acct ∧ (laneResult a1 a2 s).tim = s.tim ∧
    (laneResult a1 a2 s).buf = s.buf ∧ (laneResult a1 a2 s).eg = s.eg ∧ (laneResult a1 a2 s).tab = s.tab ∧ (laneResult
    a1 a2 s).gen = s.gen ∧ (laneResult a1 a2 s).eng = s.eng ∧ (laneResult a1 a2 s).recd = s.recd ∧ (laneResult a1 a2
    s).pmu = s.pmu ∧ (laneResult a1 a2 s).svc = s.svc ∧ (laneResult a1 a2 s).therm = s.therm ∧ (laneResult a1 a2 s).regs
    = s.regs ∧ (laneResult a1 a2 s).hmem = s.hmem ∧ (laneResult a1 a2 s).now = s.now ∧ (laneResult a1 a2 s).elapsed =
    s.elapsed ∧ (laneResult a1 a2 s).free = s.free ∧ (laneResult a1 a2 s).pending = s.pending := by
  intros; unfold laneResult
  first
    | ((repeat' split) <;> simp; done)
    | (dsimp only; (repeat' split) <;> simp [*]; done)
    | ((repeat' apply And.intro) <;> dsimp only <;> (repeat' split) <;> simp [*]; done)

@[simp] theorem laneStart_keeps : ∀ a1 a2 s, (laneStart a1 a2 s).md = s.md ∧ (laneStart a1 a2 s).dev = s.dev ∧
    (laneStart a1 a2 s).pins = s.pins ∧ (laneStart a1 a2 s).side = s.side ∧ (laneStart a1 a2 s).prot = s.prot ∧
    (laneStart a1 a2 s).mram = s.mram ∧ (laneStart a1 a2 s).img = s.img ∧ (laneStart a1 a2 s).host = s.host ∧ (laneStart
    a1 a2 s).lat = s.lat ∧ (laneStart a1 a2 s).acct = s.acct ∧ (laneStart a1 a2 s).tim = s.tim ∧ (laneStart a1 a2 s).buf
    = s.buf ∧ (laneStart a1 a2 s).eg = s.eg ∧ (laneStart a1 a2 s).tab = s.tab ∧ (laneStart a1 a2 s).gen = s.gen ∧
    (laneStart a1 a2 s).eng = s.eng ∧ (laneStart a1 a2 s).recd = s.recd ∧ (laneStart a1 a2 s).pmu = s.pmu ∧ (laneStart
    a1 a2 s).svc = s.svc ∧ (laneStart a1 a2 s).therm = s.therm ∧ (laneStart a1 a2 s).regs = s.regs ∧ (laneStart a1 a2
    s).hmem = s.hmem ∧ (laneStart a1 a2 s).now = s.now ∧ (laneStart a1 a2 s).elapsed = s.elapsed ∧ (laneStart a1 a2
    s).free = s.free ∧ (laneStart a1 a2 s).pending = s.pending := by
  intros; unfold laneStart
  first
    | ((repeat' split) <;> simp; done)
    | (dsimp only; (repeat' split) <;> simp [*]; done)
    | ((repeat' apply And.intro) <;> dsimp only <;> (repeat' split) <;> simp [*]; done)

@[simp] theorem laneWrite_md (p : Nat) (f : State → State) (s : State) (h : ∀ s, (f s).md = s.md) : (laneWrite p f s).md
    = s.md := by
  unfold laneWrite; (repeat' split) <;> simp [h]

@[simp] theorem laneWrite_dev (p : Nat) (f : State → State) (s : State) (h : ∀ s, (f s).dev = s.dev) : (laneWrite p f
    s).dev = s.dev := by
  unfold laneWrite; (repeat' split) <;> simp [h]

@[simp] theorem laneWrite_pins (p : Nat) (f : State → State) (s : State) (h : ∀ s, (f s).pins = s.pins) : (laneWrite p f
    s).pins = s.pins := by
  unfold laneWrite; (repeat' split) <;> simp [h]

@[simp] theorem laneWrite_prot (p : Nat) (f : State → State) (s : State) (h : ∀ s, (f s).prot = s.prot) : (laneWrite p f
    s).prot = s.prot := by
  unfold laneWrite; (repeat' split) <;> simp [h]

@[simp] theorem laneWrite_mram (p : Nat) (f : State → State) (s : State) (h : ∀ s, (f s).mram = s.mram) : (laneWrite p f
    s).mram = s.mram := by
  unfold laneWrite; (repeat' split) <;> simp [h]

@[simp] theorem laneWrite_img (p : Nat) (f : State → State) (s : State) (h : ∀ s, (f s).img = s.img) : (laneWrite p f
    s).img = s.img := by
  unfold laneWrite; (repeat' split) <;> simp [h]

@[simp] theorem laneWrite_lat (p : Nat) (f : State → State) (s : State) (h : ∀ s, (f s).lat = s.lat) : (laneWrite p f
    s).lat = s.lat := by
  unfold laneWrite; (repeat' split) <;> simp [h]

@[simp] theorem laneWrite_acct (p : Nat) (f : State → State) (s : State) (h : ∀ s, (f s).acct = s.acct) : (laneWrite p f
    s).acct = s.acct := by
  unfold laneWrite; (repeat' split) <;> simp [h]

@[simp] theorem laneWrite_lk (p : Nat) (f : State → State) (s : State) (h : ∀ s, (f s).lk = s.lk) : (laneWrite p f s).lk
    = s.lk := by
  unfold laneWrite; (repeat' split) <;> simp [h]

@[simp] theorem laneWrite_tim (p : Nat) (f : State → State) (s : State) (h : ∀ s, (f s).tim = s.tim) : (laneWrite p f
    s).tim = s.tim := by
  unfold laneWrite; (repeat' split) <;> simp [h]

@[simp] theorem laneWrite_buf (p : Nat) (f : State → State) (s : State) (h : ∀ s, (f s).buf = s.buf) : (laneWrite p f
    s).buf = s.buf := by
  unfold laneWrite; (repeat' split) <;> simp [h]

@[simp] theorem laneWrite_eg (p : Nat) (f : State → State) (s : State) (h : ∀ s, (f s).eg = s.eg) : (laneWrite p f s).eg
    = s.eg := by
  unfold laneWrite; (repeat' split) <;> simp [h]

@[simp] theorem laneWrite_tab (p : Nat) (f : State → State) (s : State) (h : ∀ s, (f s).tab = s.tab) : (laneWrite p f
    s).tab = s.tab := by
  unfold laneWrite; (repeat' split) <;> simp [h]

@[simp] theorem laneWrite_gen (p : Nat) (f : State → State) (s : State) (h : ∀ s, (f s).gen = s.gen) : (laneWrite p f
    s).gen = s.gen := by
  unfold laneWrite; (repeat' split) <;> simp [h]

@[simp] theorem laneWrite_eng (p : Nat) (f : State → State) (s : State) (h : ∀ s, (f s).eng = s.eng) : (laneWrite p f
    s).eng = s.eng := by
  unfold laneWrite; (repeat' split) <;> simp [h]

@[simp] theorem laneWrite_recd (p : Nat) (f : State → State) (s : State) (h : ∀ s, (f s).recd = s.recd) : (laneWrite p f
    s).recd = s.recd := by
  unfold laneWrite; (repeat' split) <;> simp [h]

@[simp] theorem laneWrite_pmu (p : Nat) (f : State → State) (s : State) (h : ∀ s, (f s).pmu = s.pmu) : (laneWrite p f
    s).pmu = s.pmu := by
  unfold laneWrite; (repeat' split) <;> simp [h]

@[simp] theorem laneWrite_svc (p : Nat) (f : State → State) (s : State) (h : ∀ s, (f s).svc = s.svc) : (laneWrite p f
    s).svc = s.svc := by
  unfold laneWrite; (repeat' split) <;> simp [h]

@[simp] theorem laneWrite_therm (p : Nat) (f : State → State) (s : State) (h : ∀ s, (f s).therm = s.therm) : (laneWrite
    p f s).therm = s.therm := by
  unfold laneWrite; (repeat' split) <;> simp [h]

@[simp] theorem laneWrite_hmem (p : Nat) (f : State → State) (s : State) (h : ∀ s, (f s).hmem = s.hmem) : (laneWrite p f
    s).hmem = s.hmem := by
  unfold laneWrite; (repeat' split) <;> simp [h]

@[simp] theorem laneWrite_now (p : Nat) (f : State → State) (s : State) (h : ∀ s, (f s).now = s.now) : (laneWrite p f
    s).now = s.now := by
  unfold laneWrite; (repeat' split) <;> simp [h]

@[simp] theorem laneWrite_elapsed (p : Nat) (f : State → State) (s : State) (h : ∀ s, (f s).elapsed = s.elapsed) :
    (laneWrite p f s).elapsed = s.elapsed := by
  unfold laneWrite; (repeat' split) <;> simp [h]

@[simp] theorem laneWrite_free (p : Nat) (f : State → State) (s : State) (h : ∀ s, (f s).free = s.free) : (laneWrite p f
    s).free = s.free := by
  unfold laneWrite; (repeat' split) <;> simp [h]

@[simp] theorem laneWrite_pending (p : Nat) (f : State → State) (s : State) (h : ∀ s, (f s).pending = s.pending) :
    (laneWrite p f s).pending = s.pending := by
  unfold laneWrite; (repeat' split) <;> simp [h]

@[simp] theorem countGood_keeps : ∀ a1 a2 s, (countGood a1 a2 s).md = s.md ∧ (countGood a1 a2 s).dev = s.dev ∧
    (countGood a1 a2 s).pins = s.pins ∧ (countGood a1 a2 s).side = s.side ∧ (countGood a1 a2 s).prot = s.prot ∧
    (countGood a1 a2 s).mram = s.mram ∧ (countGood a1 a2 s).img = s.img ∧ (countGood a1 a2 s).host = s.host ∧ (countGood
    a1 a2 s).lat = s.lat ∧ (countGood a1 a2 s).acct = s.acct ∧ (countGood a1 a2 s).lk = s.lk ∧ (countGood a1 a2 s).tim =
    s.tim ∧ (countGood a1 a2 s).buf = s.buf ∧ (countGood a1 a2 s).eg = s.eg ∧ (countGood a1 a2 s).tab = s.tab ∧
    (countGood a1 a2 s).gen = s.gen ∧ (countGood a1 a2 s).eng = s.eng ∧ (countGood a1 a2 s).recd = s.recd ∧ (countGood
    a1 a2 s).pmu = s.pmu ∧ (countGood a1 a2 s).svc = s.svc ∧ (countGood a1 a2 s).therm = s.therm ∧ (countGood a1 a2
    s).hmem = s.hmem ∧ (countGood a1 a2 s).now = s.now ∧ (countGood a1 a2 s).elapsed = s.elapsed ∧ (countGood a1 a2
    s).free = s.free ∧ (countGood a1 a2 s).pending = s.pending := by
  intros; unfold countGood
  first
    | ((repeat' split) <;> simp; done)
    | (dsimp only; (repeat' split) <;> simp [*]; done)
    | ((repeat' apply And.intro) <;> dsimp only <;> (repeat' split) <;> simp [*]; done)

@[simp] theorem pauseHold_keeps : ∀ a1 a2 a3 a4 s, (pauseHold a1 a2 a3 a4 s).md = s.md ∧ (pauseHold a1 a2 a3 a4 s).dev =
    s.dev ∧ (pauseHold a1 a2 a3 a4 s).pins = s.pins ∧ (pauseHold a1 a2 a3 a4 s).side = s.side ∧ (pauseHold a1 a2 a3 a4
    s).prot = s.prot ∧ (pauseHold a1 a2 a3 a4 s).mram = s.mram ∧ (pauseHold a1 a2 a3 a4 s).img = s.img ∧ (pauseHold a1
    a2 a3 a4 s).host = s.host ∧ (pauseHold a1 a2 a3 a4 s).lat = s.lat ∧ (pauseHold a1 a2 a3 a4 s).acct = s.acct ∧
    (pauseHold a1 a2 a3 a4 s).tim = s.tim ∧ (pauseHold a1 a2 a3 a4 s).buf = s.buf ∧ (pauseHold a1 a2 a3 a4 s).eg = s.eg
    ∧ (pauseHold a1 a2 a3 a4 s).tab = s.tab ∧ (pauseHold a1 a2 a3 a4 s).gen = s.gen ∧ (pauseHold a1 a2 a3 a4 s).eng =
    s.eng ∧ (pauseHold a1 a2 a3 a4 s).recd = s.recd ∧ (pauseHold a1 a2 a3 a4 s).pmu = s.pmu ∧ (pauseHold a1 a2 a3 a4
    s).svc = s.svc ∧ (pauseHold a1 a2 a3 a4 s).therm = s.therm ∧ (pauseHold a1 a2 a3 a4 s).regs = s.regs ∧ (pauseHold a1
    a2 a3 a4 s).hmem = s.hmem ∧ (pauseHold a1 a2 a3 a4 s).now = s.now ∧ (pauseHold a1 a2 a3 a4 s).elapsed = s.elapsed ∧
    (pauseHold a1 a2 a3 a4 s).free = s.free ∧ (pauseHold a1 a2 a3 a4 s).pending = s.pending := by
  intros; unfold pauseHold
  first
    | ((repeat' split) <;> simp; done)
    | (dsimp only; (repeat' split) <;> simp [*]; done)
    | ((repeat' apply And.intro) <;> dsimp only <;> (repeat' split) <;> simp [*]; done)

@[simp] theorem pauseAction_keeps : ∀ a1 a2 a3 a4 s, (pauseAction a1 a2 a3 a4 s).md = s.md ∧ (pauseAction a1 a2 a3 a4
    s).dev = s.dev ∧ (pauseAction a1 a2 a3 a4 s).pins = s.pins ∧ (pauseAction a1 a2 a3 a4 s).side = s.side ∧
    (pauseAction a1 a2 a3 a4 s).prot = s.prot ∧ (pauseAction a1 a2 a3 a4 s).mram = s.mram ∧ (pauseAction a1 a2 a3 a4
    s).img = s.img ∧ (pauseAction a1 a2 a3 a4 s).host = s.host ∧ (pauseAction a1 a2 a3 a4 s).lat = s.lat ∧ (pauseAction
    a1 a2 a3 a4 s).acct = s.acct ∧ (pauseAction a1 a2 a3 a4 s).tim = s.tim ∧ (pauseAction a1 a2 a3 a4 s).buf = s.buf ∧
    (pauseAction a1 a2 a3 a4 s).eg = s.eg ∧ (pauseAction a1 a2 a3 a4 s).tab = s.tab ∧ (pauseAction a1 a2 a3 a4 s).gen =
    s.gen ∧ (pauseAction a1 a2 a3 a4 s).eng = s.eng ∧ (pauseAction a1 a2 a3 a4 s).recd = s.recd ∧ (pauseAction a1 a2 a3
    a4 s).pmu = s.pmu ∧ (pauseAction a1 a2 a3 a4 s).svc = s.svc ∧ (pauseAction a1 a2 a3 a4 s).therm = s.therm ∧
    (pauseAction a1 a2 a3 a4 s).regs = s.regs ∧ (pauseAction a1 a2 a3 a4 s).hmem = s.hmem ∧ (pauseAction a1 a2 a3 a4
    s).now = s.now ∧ (pauseAction a1 a2 a3 a4 s).elapsed = s.elapsed ∧ (pauseAction a1 a2 a3 a4 s).free = s.free ∧
    (pauseAction a1 a2 a3 a4 s).pending = s.pending := by
  intros; unfold pauseAction
  first
    | ((repeat' split) <;> simp; done)
    | (dsimp only; (repeat' split) <;> simp [*]; done)
    | ((repeat' apply And.intro) <;> dsimp only <;> (repeat' split) <;> simp [*]; done)

@[simp] theorem passToSlice_keeps : ∀ a1 a2 s, (passToSlice a1 a2 s).md = s.md ∧ (passToSlice a1 a2 s).dev = s.dev ∧
    (passToSlice a1 a2 s).pins = s.pins ∧ (passToSlice a1 a2 s).side = s.side ∧ (passToSlice a1 a2 s).prot = s.prot ∧
    (passToSlice a1 a2 s).mram = s.mram ∧ (passToSlice a1 a2 s).img = s.img ∧ (passToSlice a1 a2 s).host = s.host ∧
    (passToSlice a1 a2 s).lat = s.lat ∧ (passToSlice a1 a2 s).acct = s.acct ∧ (passToSlice a1 a2 s).tim = s.tim ∧
    (passToSlice a1 a2 s).buf = s.buf ∧ (passToSlice a1 a2 s).eg = s.eg ∧ (passToSlice a1 a2 s).tab = s.tab ∧
    (passToSlice a1 a2 s).gen = s.gen ∧ (passToSlice a1 a2 s).eng = s.eng ∧ (passToSlice a1 a2 s).recd = s.recd ∧
    (passToSlice a1 a2 s).pmu = s.pmu ∧ (passToSlice a1 a2 s).svc = s.svc ∧ (passToSlice a1 a2 s).therm = s.therm ∧
    (passToSlice a1 a2 s).regs = s.regs ∧ (passToSlice a1 a2 s).hmem = s.hmem ∧ (passToSlice a1 a2 s).now = s.now ∧
    (passToSlice a1 a2 s).elapsed = s.elapsed ∧ (passToSlice a1 a2 s).free = s.free ∧ (passToSlice a1 a2 s).pending =
    s.pending := by
  intros; unfold passToSlice
  first
    | ((repeat' split) <;> simp; done)
    | (dsimp only; (repeat' split) <;> simp [*]; done)
    | ((repeat' apply And.intro) <;> dsimp only <;> (repeat' split) <;> simp [*]; done)

@[simp] theorem tsReceive_keeps : ∀ a1 a2 a3 s, (tsReceive a1 a2 a3 s).2.md = s.md ∧ (tsReceive a1 a2 a3 s).2.dev =
    s.dev ∧ (tsReceive a1 a2 a3 s).2.pins = s.pins ∧ (tsReceive a1 a2 a3 s).2.side = s.side ∧ (tsReceive a1 a2 a3
    s).2.prot = s.prot ∧ (tsReceive a1 a2 a3 s).2.mram = s.mram ∧ (tsReceive a1 a2 a3 s).2.img = s.img ∧ (tsReceive a1
    a2 a3 s).2.host = s.host ∧ (tsReceive a1 a2 a3 s).2.lat = s.lat ∧ (tsReceive a1 a2 a3 s).2.acct = s.acct ∧
    (tsReceive a1 a2 a3 s).2.tim = s.tim ∧ (tsReceive a1 a2 a3 s).2.buf = s.buf ∧ (tsReceive a1 a2 a3 s).2.eg = s.eg ∧
    (tsReceive a1 a2 a3 s).2.tab = s.tab ∧ (tsReceive a1 a2 a3 s).2.gen = s.gen ∧ (tsReceive a1 a2 a3 s).2.eng = s.eng ∧
    (tsReceive a1 a2 a3 s).2.recd = s.recd ∧ (tsReceive a1 a2 a3 s).2.pmu = s.pmu ∧ (tsReceive a1 a2 a3 s).2.svc = s.svc
    ∧ (tsReceive a1 a2 a3 s).2.therm = s.therm ∧ (tsReceive a1 a2 a3 s).2.hmem = s.hmem ∧ (tsReceive a1 a2 a3 s).2.now =
    s.now ∧ (tsReceive a1 a2 a3 s).2.elapsed = s.elapsed ∧ (tsReceive a1 a2 a3 s).2.free = s.free ∧ (tsReceive a1 a2 a3
    s).2.pending = s.pending := by
  intros; unfold tsReceive
  first
    | ((repeat' split) <;> simp; done)
    | (dsimp only; (repeat' split) <;> simp [*]; done)
    | ((repeat' apply And.intro) <;> dsimp only <;> (repeat' split) <;> simp [*]; done)

@[simp] theorem passFrame_keeps : ∀ a1 a2 a3 a4 s, (passFrame a1 a2 a3 a4 s).md = s.md ∧ (passFrame a1 a2 a3 a4 s).dev =
    s.dev ∧ (passFrame a1 a2 a3 a4 s).pins = s.pins ∧ (passFrame a1 a2 a3 a4 s).side = s.side ∧ (passFrame a1 a2 a3 a4
    s).prot = s.prot ∧ (passFrame a1 a2 a3 a4 s).mram = s.mram ∧ (passFrame a1 a2 a3 a4 s).img = s.img ∧ (passFrame a1
    a2 a3 a4 s).host = s.host ∧ (passFrame a1 a2 a3 a4 s).lat = s.lat ∧ (passFrame a1 a2 a3 a4 s).acct = s.acct ∧
    (passFrame a1 a2 a3 a4 s).tim = s.tim ∧ (passFrame a1 a2 a3 a4 s).buf = s.buf ∧ (passFrame a1 a2 a3 a4 s).eg = s.eg
    ∧ (passFrame a1 a2 a3 a4 s).tab = s.tab ∧ (passFrame a1 a2 a3 a4 s).gen = s.gen ∧ (passFrame a1 a2 a3 a4 s).eng =
    s.eng ∧ (passFrame a1 a2 a3 a4 s).recd = s.recd ∧ (passFrame a1 a2 a3 a4 s).pmu = s.pmu ∧ (passFrame a1 a2 a3 a4
    s).svc = s.svc ∧ (passFrame a1 a2 a3 a4 s).therm = s.therm ∧ (passFrame a1 a2 a3 a4 s).hmem = s.hmem ∧ (passFrame a1
    a2 a3 a4 s).now = s.now ∧ (passFrame a1 a2 a3 a4 s).elapsed = s.elapsed ∧ (passFrame a1 a2 a3 a4 s).free = s.free ∧
    (passFrame a1 a2 a3 a4 s).pending = s.pending := by
  intros; unfold passFrame
  first
    | ((repeat' split) <;> simp; done)
    | (dsimp only; (repeat' split) <;> simp [*]; done)
    | ((repeat' apply And.intro) <;> dsimp only <;> (repeat' split) <;> simp [*]; done)

@[simp] theorem macDiscard_keeps : ∀ a1 a2 s, (macDiscard a1 a2 s).md = s.md ∧ (macDiscard a1 a2 s).dev = s.dev ∧
    (macDiscard a1 a2 s).pins = s.pins ∧ (macDiscard a1 a2 s).side = s.side ∧ (macDiscard a1 a2 s).prot = s.prot ∧
    (macDiscard a1 a2 s).mram = s.mram ∧ (macDiscard a1 a2 s).img = s.img ∧ (macDiscard a1 a2 s).host = s.host ∧
    (macDiscard a1 a2 s).lat = s.lat ∧ (macDiscard a1 a2 s).acct = s.acct ∧ (macDiscard a1 a2 s).tim = s.tim ∧
    (macDiscard a1 a2 s).buf = s.buf ∧ (macDiscard a1 a2 s).eg = s.eg ∧ (macDiscard a1 a2 s).tab = s.tab ∧ (macDiscard
    a1 a2 s).gen = s.gen ∧ (macDiscard a1 a2 s).eng = s.eng ∧ (macDiscard a1 a2 s).recd = s.recd ∧ (macDiscard a1 a2
    s).pmu = s.pmu ∧ (macDiscard a1 a2 s).svc = s.svc ∧ (macDiscard a1 a2 s).therm = s.therm ∧ (macDiscard a1 a2 s).hmem
    = s.hmem ∧ (macDiscard a1 a2 s).now = s.now ∧ (macDiscard a1 a2 s).elapsed = s.elapsed ∧ (macDiscard a1 a2 s).free =
    s.free ∧ (macDiscard a1 a2 s).pending = s.pending := by
  intros; unfold macDiscard
  first
    | ((repeat' split) <;> simp; done)
    | (dsimp only; (repeat' split) <;> simp [*]; done)
    | ((repeat' apply And.intro) <;> dsimp only <;> (repeat' split) <;> simp [*]; done)

@[simp] theorem laneCounts_keeps : ∀ a1 a2 s, (laneCounts a1 a2 s).md = s.md ∧ (laneCounts a1 a2 s).dev = s.dev ∧
    (laneCounts a1 a2 s).pins = s.pins ∧ (laneCounts a1 a2 s).side = s.side ∧ (laneCounts a1 a2 s).prot = s.prot ∧
    (laneCounts a1 a2 s).mram = s.mram ∧ (laneCounts a1 a2 s).img = s.img ∧ (laneCounts a1 a2 s).host = s.host ∧
    (laneCounts a1 a2 s).lat = s.lat ∧ (laneCounts a1 a2 s).acct = s.acct ∧ (laneCounts a1 a2 s).tim = s.tim ∧
    (laneCounts a1 a2 s).buf = s.buf ∧ (laneCounts a1 a2 s).eg = s.eg ∧ (laneCounts a1 a2 s).tab = s.tab ∧ (laneCounts
    a1 a2 s).gen = s.gen ∧ (laneCounts a1 a2 s).eng = s.eng ∧ (laneCounts a1 a2 s).recd = s.recd ∧ (laneCounts a1 a2
    s).pmu = s.pmu ∧ (laneCounts a1 a2 s).svc = s.svc ∧ (laneCounts a1 a2 s).therm = s.therm ∧ (laneCounts a1 a2 s).hmem
    = s.hmem ∧ (laneCounts a1 a2 s).now = s.now ∧ (laneCounts a1 a2 s).elapsed = s.elapsed ∧ (laneCounts a1 a2 s).free =
    s.free ∧ (laneCounts a1 a2 s).pending = s.pending := by
  intros; unfold laneCounts
  first
    | ((repeat' split) <;> simp; done)
    | (dsimp only; (repeat' split) <;> simp [*]; done)
    | ((repeat' apply And.intro) <;> dsimp only <;> (repeat' split) <;> simp [*]; done)

@[simp] theorem macReceive_keeps : ∀ a1 a2 s, (macReceive a1 a2 s).md = s.md ∧ (macReceive a1 a2 s).dev = s.dev ∧
    (macReceive a1 a2 s).pins = s.pins ∧ (macReceive a1 a2 s).side = s.side ∧ (macReceive a1 a2 s).prot = s.prot ∧
    (macReceive a1 a2 s).mram = s.mram ∧ (macReceive a1 a2 s).img = s.img ∧ (macReceive a1 a2 s).host = s.host ∧
    (macReceive a1 a2 s).lat = s.lat ∧ (macReceive a1 a2 s).acct = s.acct ∧ (macReceive a1 a2 s).tim = s.tim ∧
    (macReceive a1 a2 s).buf = s.buf ∧ (macReceive a1 a2 s).eg = s.eg ∧ (macReceive a1 a2 s).tab = s.tab ∧ (macReceive
    a1 a2 s).gen = s.gen ∧ (macReceive a1 a2 s).eng = s.eng ∧ (macReceive a1 a2 s).recd = s.recd ∧ (macReceive a1 a2
    s).pmu = s.pmu ∧ (macReceive a1 a2 s).svc = s.svc ∧ (macReceive a1 a2 s).therm = s.therm ∧ (macReceive a1 a2 s).hmem
    = s.hmem ∧ (macReceive a1 a2 s).now = s.now ∧ (macReceive a1 a2 s).elapsed = s.elapsed ∧ (macReceive a1 a2 s).free =
    s.free ∧ (macReceive a1 a2 s).pending = s.pending := by
  intros; unfold macReceive
  first
    | ((repeat' split) <;> simp; done)
    | (dsimp only; (repeat' split) <;> simp [*]; done)
    | ((repeat' apply And.intro) <;> dsimp only <;> (repeat' split) <;> simp [*]; done)

@[simp] theorem sendPause_keeps : ∀ a1 s, (sendPause a1 s).md = s.md ∧ (sendPause a1 s).dev = s.dev ∧ (sendPause a1
    s).pins = s.pins ∧ (sendPause a1 s).side = s.side ∧ (sendPause a1 s).prot = s.prot ∧ (sendPause a1 s).mram = s.mram
    ∧ (sendPause a1 s).img = s.img ∧ (sendPause a1 s).host = s.host ∧ (sendPause a1 s).lat = s.lat ∧ (sendPause a1
    s).acct = s.acct ∧ (sendPause a1 s).tim = s.tim ∧ (sendPause a1 s).buf = s.buf ∧ (sendPause a1 s).eg = s.eg ∧
    (sendPause a1 s).tab = s.tab ∧ (sendPause a1 s).gen = s.gen ∧ (sendPause a1 s).eng = s.eng ∧ (sendPause a1 s).recd =
    s.recd ∧ (sendPause a1 s).pmu = s.pmu ∧ (sendPause a1 s).svc = s.svc ∧ (sendPause a1 s).therm = s.therm ∧ (sendPause
    a1 s).hmem = s.hmem ∧ (sendPause a1 s).now = s.now ∧ (sendPause a1 s).elapsed = s.elapsed ∧ (sendPause a1 s).free =
    s.free ∧ (sendPause a1 s).pending = s.pending := by
  intros; unfold sendPause
  first
    | ((repeat' split) <;> simp; done)
    | (dsimp only; (repeat' split) <;> simp [*]; done)
    | ((repeat' apply And.intro) <;> dsimp only <;> (repeat' split) <;> simp [*]; done)

@[simp] theorem macCmdWrite_md (p : Nat) (f : State → State) (s : State) (h : ∀ s, (f s).md = s.md) : (macCmdWrite p f
    s).md = s.md := by
  unfold macCmdWrite; split; apply pf0Write_md; intro s; unfold whenDo; split; exact h s; rfl; rfl

@[simp] theorem macCmdWrite_dev (p : Nat) (f : State → State) (s : State) (h : ∀ s, (f s).dev = s.dev) : (macCmdWrite p
    f s).dev = s.dev := by
  unfold macCmdWrite; split; apply pf0Write_dev; intro s; unfold whenDo; split; exact h s; rfl; rfl

@[simp] theorem macCmdWrite_pins (p : Nat) (f : State → State) (s : State) (h : ∀ s, (f s).pins = s.pins) : (macCmdWrite
    p f s).pins = s.pins := by
  unfold macCmdWrite; split; apply pf0Write_pins; intro s; unfold whenDo; split; exact h s; rfl; rfl

@[simp] theorem macCmdWrite_prot (p : Nat) (f : State → State) (s : State) (h : ∀ s, (f s).prot = s.prot) : (macCmdWrite
    p f s).prot = s.prot := by
  unfold macCmdWrite; split; apply pf0Write_prot; intro s; unfold whenDo; split; exact h s; rfl; rfl

@[simp] theorem macCmdWrite_mram (p : Nat) (f : State → State) (s : State) (h : ∀ s, (f s).mram = s.mram) : (macCmdWrite
    p f s).mram = s.mram := by
  unfold macCmdWrite; split; apply pf0Write_mram; intro s; unfold whenDo; split; exact h s; rfl; rfl

@[simp] theorem macCmdWrite_img (p : Nat) (f : State → State) (s : State) (h : ∀ s, (f s).img = s.img) : (macCmdWrite p
    f s).img = s.img := by
  unfold macCmdWrite; split; apply pf0Write_img; intro s; unfold whenDo; split; exact h s; rfl; rfl

@[simp] theorem macCmdWrite_lat (p : Nat) (f : State → State) (s : State) (h : ∀ s, (f s).lat = s.lat) : (macCmdWrite p
    f s).lat = s.lat := by
  unfold macCmdWrite; split; apply pf0Write_lat; intro s; unfold whenDo; split; exact h s; rfl; rfl

@[simp] theorem macCmdWrite_acct (p : Nat) (f : State → State) (s : State) (h : ∀ s, (f s).acct = s.acct) : (macCmdWrite
    p f s).acct = s.acct := by
  unfold macCmdWrite; split; apply pf0Write_acct; intro s; unfold whenDo; split; exact h s; rfl; rfl

@[simp] theorem macCmdWrite_lk (p : Nat) (f : State → State) (s : State) (h : ∀ s, (f s).lk = s.lk) : (macCmdWrite p f
    s).lk = s.lk := by
  unfold macCmdWrite; split; apply pf0Write_lk; intro s; unfold whenDo; split; exact h s; rfl; rfl

@[simp] theorem macCmdWrite_tim (p : Nat) (f : State → State) (s : State) (h : ∀ s, (f s).tim = s.tim) : (macCmdWrite p
    f s).tim = s.tim := by
  unfold macCmdWrite; split; apply pf0Write_tim; intro s; unfold whenDo; split; exact h s; rfl; rfl

@[simp] theorem macCmdWrite_buf (p : Nat) (f : State → State) (s : State) (h : ∀ s, (f s).buf = s.buf) : (macCmdWrite p
    f s).buf = s.buf := by
  unfold macCmdWrite; split; apply pf0Write_buf; intro s; unfold whenDo; split; exact h s; rfl; rfl

@[simp] theorem macCmdWrite_eg (p : Nat) (f : State → State) (s : State) (h : ∀ s, (f s).eg = s.eg) : (macCmdWrite p f
    s).eg = s.eg := by
  unfold macCmdWrite; split; apply pf0Write_eg; intro s; unfold whenDo; split; exact h s; rfl; rfl

@[simp] theorem macCmdWrite_tab (p : Nat) (f : State → State) (s : State) (h : ∀ s, (f s).tab = s.tab) : (macCmdWrite p
    f s).tab = s.tab := by
  unfold macCmdWrite; split; apply pf0Write_tab; intro s; unfold whenDo; split; exact h s; rfl; rfl

@[simp] theorem macCmdWrite_gen (p : Nat) (f : State → State) (s : State) (h : ∀ s, (f s).gen = s.gen) : (macCmdWrite p
    f s).gen = s.gen := by
  unfold macCmdWrite; split; apply pf0Write_gen; intro s; unfold whenDo; split; exact h s; rfl; rfl

@[simp] theorem macCmdWrite_eng (p : Nat) (f : State → State) (s : State) (h : ∀ s, (f s).eng = s.eng) : (macCmdWrite p
    f s).eng = s.eng := by
  unfold macCmdWrite; split; apply pf0Write_eng; intro s; unfold whenDo; split; exact h s; rfl; rfl

@[simp] theorem macCmdWrite_recd (p : Nat) (f : State → State) (s : State) (h : ∀ s, (f s).recd = s.recd) : (macCmdWrite
    p f s).recd = s.recd := by
  unfold macCmdWrite; split; apply pf0Write_recd; intro s; unfold whenDo; split; exact h s; rfl; rfl

@[simp] theorem macCmdWrite_pmu (p : Nat) (f : State → State) (s : State) (h : ∀ s, (f s).pmu = s.pmu) : (macCmdWrite p
    f s).pmu = s.pmu := by
  unfold macCmdWrite; split; apply pf0Write_pmu; intro s; unfold whenDo; split; exact h s; rfl; rfl

@[simp] theorem macCmdWrite_svc (p : Nat) (f : State → State) (s : State) (h : ∀ s, (f s).svc = s.svc) : (macCmdWrite p
    f s).svc = s.svc := by
  unfold macCmdWrite; split; apply pf0Write_svc; intro s; unfold whenDo; split; exact h s; rfl; rfl

@[simp] theorem macCmdWrite_therm (p : Nat) (f : State → State) (s : State) (h : ∀ s, (f s).therm = s.therm) :
    (macCmdWrite p f s).therm = s.therm := by
  unfold macCmdWrite; split; apply pf0Write_therm; intro s; unfold whenDo; split; exact h s; rfl; rfl

@[simp] theorem macCmdWrite_hmem (p : Nat) (f : State → State) (s : State) (h : ∀ s, (f s).hmem = s.hmem) : (macCmdWrite
    p f s).hmem = s.hmem := by
  unfold macCmdWrite; split; apply pf0Write_hmem; intro s; unfold whenDo; split; exact h s; rfl; rfl

@[simp] theorem macCmdWrite_now (p : Nat) (f : State → State) (s : State) (h : ∀ s, (f s).now = s.now) : (macCmdWrite p
    f s).now = s.now := by
  unfold macCmdWrite; split; apply pf0Write_now; intro s; unfold whenDo; split; exact h s; rfl; rfl

@[simp] theorem macCmdWrite_elapsed (p : Nat) (f : State → State) (s : State) (h : ∀ s, (f s).elapsed = s.elapsed) :
    (macCmdWrite p f s).elapsed = s.elapsed := by
  unfold macCmdWrite; split; apply pf0Write_elapsed; intro s; unfold whenDo; split; exact h s; rfl; rfl

@[simp] theorem macCmdWrite_free (p : Nat) (f : State → State) (s : State) (h : ∀ s, (f s).free = s.free) : (macCmdWrite
    p f s).free = s.free := by
  unfold macCmdWrite; split; apply pf0Write_free; intro s; unfold whenDo; split; exact h s; rfl; rfl

@[simp] theorem macCmdWrite_pending (p : Nat) (f : State → State) (s : State) (h : ∀ s, (f s).pending = s.pending) :
    (macCmdWrite p f s).pending = s.pending := by
  unfold macCmdWrite; split; apply pf0Write_pending; intro s; unfold whenDo; split; exact h s; rfl; rfl

@[simp] theorem flushHeld_keeps : ∀ a1 s, (flushHeld a1 s).md = s.md ∧ (flushHeld a1 s).dev = s.dev ∧ (flushHeld a1
    s).pins = s.pins ∧ (flushHeld a1 s).side = s.side ∧ (flushHeld a1 s).prot = s.prot ∧ (flushHeld a1 s).mram = s.mram
    ∧ (flushHeld a1 s).img = s.img ∧ (flushHeld a1 s).lat = s.lat ∧ (flushHeld a1 s).tim = s.tim ∧ (flushHeld a1 s).tab
    = s.tab ∧ (flushHeld a1 s).gen = s.gen ∧ (flushHeld a1 s).eng = s.eng ∧ (flushHeld a1 s).svc = s.svc ∧ (flushHeld a1
    s).therm = s.therm ∧ (flushHeld a1 s).now = s.now ∧ (flushHeld a1 s).elapsed = s.elapsed ∧ (flushHeld a1 s).free =
    s.free ∧ (flushHeld a1 s).pending = s.pending := by
  intros; unfold flushHeld
  first
    | ((repeat' split) <;> simp; done)
    | (dsimp only; (repeat' split) <;> simp [*]; done)
    | ((repeat' apply And.intro) <;> dsimp only <;> (repeat' split) <;> simp [*]; done)

@[simp] theorem restartVerify_keeps : ∀ a1 s, (restartVerify a1 s).md = s.md ∧ (restartVerify a1 s).dev = s.dev ∧
    (restartVerify a1 s).pins = s.pins ∧ (restartVerify a1 s).side = s.side ∧ (restartVerify a1 s).prot = s.prot ∧
    (restartVerify a1 s).mram = s.mram ∧ (restartVerify a1 s).img = s.img ∧ (restartVerify a1 s).host = s.host ∧
    (restartVerify a1 s).lat = s.lat ∧ (restartVerify a1 s).acct = s.acct ∧ (restartVerify a1 s).tim = s.tim ∧
    (restartVerify a1 s).buf = s.buf ∧ (restartVerify a1 s).eg = s.eg ∧ (restartVerify a1 s).tab = s.tab ∧
    (restartVerify a1 s).gen = s.gen ∧ (restartVerify a1 s).eng = s.eng ∧ (restartVerify a1 s).recd = s.recd ∧
    (restartVerify a1 s).pmu = s.pmu ∧ (restartVerify a1 s).svc = s.svc ∧ (restartVerify a1 s).therm = s.therm ∧
    (restartVerify a1 s).regs = s.regs ∧ (restartVerify a1 s).hmem = s.hmem ∧ (restartVerify a1 s).now = s.now ∧
    (restartVerify a1 s).elapsed = s.elapsed ∧ (restartVerify a1 s).free = s.free ∧ (restartVerify a1 s).pending =
    s.pending := by
  intros; unfold restartVerify
  first
    | ((repeat' split) <;> simp; done)
    | (dsimp only; (repeat' split) <;> simp [*]; done)
    | ((repeat' apply And.intro) <;> dsimp only <;> (repeat' split) <;> simp [*]; done)

end Sys2Proof.Laws
end

