-- ==== Sys2Proof/Laws/FramesFlow.lean ====
section
/-! SUPPORT. Frame lemmas of arrival, the engines, the scheduler, the buffer core, the range check, service and the time base. -/

namespace Sys2Proof.Laws

open Sys2Proof Sys2Proof.Machine

-- The lemmas share one proof text, whose later alternatives some of them do not need.

@[simp] theorem answerPdelay_keeps : ∀ a1 s, (answerPdelay a1 s).md = s.md ∧ (answerPdelay a1 s).dev = s.dev ∧
    (answerPdelay a1 s).pins = s.pins ∧ (answerPdelay a1 s).side = s.side ∧ (answerPdelay a1 s).prot = s.prot ∧
    (answerPdelay a1 s).mram = s.mram ∧ (answerPdelay a1 s).img = s.img ∧ (answerPdelay a1 s).host = s.host ∧
    (answerPdelay a1 s).lat = s.lat ∧ (answerPdelay a1 s).acct = s.acct ∧ (answerPdelay a1 s).lk = s.lk ∧ (answerPdelay
    a1 s).tim = s.tim ∧ (answerPdelay a1 s).eg = s.eg ∧ (answerPdelay a1 s).tab = s.tab ∧ (answerPdelay a1 s).gen =
    s.gen ∧ (answerPdelay a1 s).eng = s.eng ∧ (answerPdelay a1 s).recd = s.recd ∧ (answerPdelay a1 s).pmu = s.pmu ∧
    (answerPdelay a1 s).svc = s.svc ∧ (answerPdelay a1 s).therm = s.therm ∧ (answerPdelay a1 s).hmem = s.hmem ∧
    (answerPdelay a1 s).now = s.now ∧ (answerPdelay a1 s).elapsed = s.elapsed ∧ (answerPdelay a1 s).free = s.free ∧
    (answerPdelay a1 s).pending = s.pending := by
  intros; unfold answerPdelay
  first
    | ((repeat' split) <;> simp; done)
    | (dsimp only; (repeat' split) <;> simp [*]; done)
    | ((repeat' apply And.intro) <;> dsimp only <;> (repeat' split) <;> simp [*]; done)

@[simp] theorem setEngine_keeps : ∀ a1 a2 s, (setEngine a1 a2 s).md = s.md ∧ (setEngine a1 a2 s).dev = s.dev ∧
    (setEngine a1 a2 s).pins = s.pins ∧ (setEngine a1 a2 s).side = s.side ∧ (setEngine a1 a2 s).prot = s.prot ∧
    (setEngine a1 a2 s).mram = s.mram ∧ (setEngine a1 a2 s).img = s.img ∧ (setEngine a1 a2 s).host = s.host ∧ (setEngine
    a1 a2 s).lat = s.lat ∧ (setEngine a1 a2 s).acct = s.acct ∧ (setEngine a1 a2 s).lk = s.lk ∧ (setEngine a1 a2 s).tim =
    s.tim ∧ (setEngine a1 a2 s).buf = s.buf ∧ (setEngine a1 a2 s).eg = s.eg ∧ (setEngine a1 a2 s).tab = s.tab ∧
    (setEngine a1 a2 s).gen = s.gen ∧ (setEngine a1 a2 s).recd = s.recd ∧ (setEngine a1 a2 s).pmu = s.pmu ∧ (setEngine
    a1 a2 s).svc = s.svc ∧ (setEngine a1 a2 s).therm = s.therm ∧ (setEngine a1 a2 s).regs = s.regs ∧ (setEngine a1 a2
    s).hmem = s.hmem ∧ (setEngine a1 a2 s).now = s.now ∧ (setEngine a1 a2 s).elapsed = s.elapsed ∧ (setEngine a1 a2
    s).free = s.free ∧ (setEngine a1 a2 s).pending = s.pending := by
  intros; unfold setEngine
  first
    | ((repeat' split) <;> simp; done)
    | (dsimp only; (repeat' split) <;> simp [*]; done)
    | ((repeat' apply And.intro) <;> dsimp only <;> (repeat' split) <;> simp [*]; done)

@[simp] theorem pmuEng_keeps : ∀ a1 a2 a3 s, (pmuEng a1 a2 a3 s).md = s.md ∧ (pmuEng a1 a2 a3 s).dev = s.dev ∧ (pmuEng
    a1 a2 a3 s).pins = s.pins ∧ (pmuEng a1 a2 a3 s).side = s.side ∧ (pmuEng a1 a2 a3 s).prot = s.prot ∧ (pmuEng a1 a2 a3
    s).mram = s.mram ∧ (pmuEng a1 a2 a3 s).img = s.img ∧ (pmuEng a1 a2 a3 s).host = s.host ∧ (pmuEng a1 a2 a3 s).lat =
    s.lat ∧ (pmuEng a1 a2 a3 s).acct = s.acct ∧ (pmuEng a1 a2 a3 s).lk = s.lk ∧ (pmuEng a1 a2 a3 s).tim = s.tim ∧
    (pmuEng a1 a2 a3 s).buf = s.buf ∧ (pmuEng a1 a2 a3 s).eg = s.eg ∧ (pmuEng a1 a2 a3 s).tab = s.tab ∧ (pmuEng a1 a2 a3
    s).gen = s.gen ∧ (pmuEng a1 a2 a3 s).eng = s.eng ∧ (pmuEng a1 a2 a3 s).recd = s.recd ∧ (pmuEng a1 a2 a3 s).svc =
    s.svc ∧ (pmuEng a1 a2 a3 s).therm = s.therm ∧ (pmuEng a1 a2 a3 s).hmem = s.hmem ∧ (pmuEng a1 a2 a3 s).now = s.now ∧
    (pmuEng a1 a2 a3 s).elapsed = s.elapsed ∧ (pmuEng a1 a2 a3 s).free = s.free ∧ (pmuEng a1 a2 a3 s).pending =
    s.pending := by
  intros; unfold pmuEng
  first
    | ((repeat' split) <;> simp; done)
    | (dsimp only; (repeat' split) <;> simp [*]; done)
    | ((repeat' apply And.intro) <;> dsimp only <;> (repeat' split) <;> simp [*]; done)

@[simp] theorem setContext_keeps : ∀ a1 a2 s, (setContext a1 a2 s).md = s.md ∧ (setContext a1 a2 s).dev = s.dev ∧
    (setContext a1 a2 s).pins = s.pins ∧ (setContext a1 a2 s).side = s.side ∧ (setContext a1 a2 s).prot = s.prot ∧
    (setContext a1 a2 s).mram = s.mram ∧ (setContext a1 a2 s).img = s.img ∧ (setContext a1 a2 s).host = s.host ∧
    (setContext a1 a2 s).lat = s.lat ∧ (setContext a1 a2 s).acct = s.acct ∧ (setContext a1 a2 s).lk = s.lk ∧ (setContext
    a1 a2 s).tim = s.tim ∧ (setContext a1 a2 s).buf = s.buf ∧ (setContext a1 a2 s).eg = s.eg ∧ (setContext a1 a2 s).tab
    = s.tab ∧ (setContext a1 a2 s).gen = s.gen ∧ (setContext a1 a2 s).recd = s.recd ∧ (setContext a1 a2 s).pmu = s.pmu ∧
    (setContext a1 a2 s).svc = s.svc ∧ (setContext a1 a2 s).therm = s.therm ∧ (setContext a1 a2 s).regs = s.regs ∧
    (setContext a1 a2 s).hmem = s.hmem ∧ (setContext a1 a2 s).now = s.now ∧ (setContext a1 a2 s).elapsed = s.elapsed ∧
    (setContext a1 a2 s).free = s.free ∧ (setContext a1 a2 s).pending = s.pending := by
  intros; unfold setContext
  first
    | ((repeat' split) <;> simp; done)
    | (dsimp only; (repeat' split) <;> simp [*]; done)
    | ((repeat' apply And.intro) <;> dsimp only <;> (repeat' split) <;> simp [*]; done)

@[simp] theorem doneInEngine_keeps : ∀ a1 a2 s, (doneInEngine a1 a2 s).md = s.md ∧ (doneInEngine a1 a2 s).dev = s.dev ∧
    (doneInEngine a1 a2 s).pins = s.pins ∧ (doneInEngine a1 a2 s).side = s.side ∧ (doneInEngine a1 a2 s).prot = s.prot ∧
    (doneInEngine a1 a2 s).mram = s.mram ∧ (doneInEngine a1 a2 s).img = s.img ∧ (doneInEngine a1 a2 s).host = s.host ∧
    (doneInEngine a1 a2 s).lat = s.lat ∧ (doneInEngine a1 a2 s).acct = s.acct ∧ (doneInEngine a1 a2 s).lk = s.lk ∧
    (doneInEngine a1 a2 s).tim = s.tim ∧ (doneInEngine a1 a2 s).buf = s.buf ∧ (doneInEngine a1 a2 s).eg = s.eg ∧
    (doneInEngine a1 a2 s).tab = s.tab ∧ (doneInEngine a1 a2 s).gen = s.gen ∧ (doneInEngine a1 a2 s).recd = s.recd ∧
    (doneInEngine a1 a2 s).pmu = s.pmu ∧ (doneInEngine a1 a2 s).svc = s.svc ∧ (doneInEngine a1 a2 s).therm = s.therm ∧
    (doneInEngine a1 a2 s).regs = s.regs ∧ (doneInEngine a1 a2 s).hmem = s.hmem ∧ (doneInEngine a1 a2 s).now = s.now ∧
    (doneInEngine a1 a2 s).elapsed = s.elapsed ∧ (doneInEngine a1 a2 s).free = s.free ∧ (doneInEngine a1 a2 s).pending =
    s.pending := by
  intros; unfold doneInEngine
  first
    | ((repeat' split) <;> simp; done)
    | (dsimp only; (repeat' split) <;> simp [*]; done)
    | ((repeat' apply And.intro) <;> dsimp only <;> (repeat' split) <;> simp [*]; done)

@[simp] theorem discardInEngine_keeps : ∀ a1 a2 a3 a4 s, (discardInEngine a1 a2 a3 a4 s).md = s.md ∧ (discardInEngine a1
    a2 a3 a4 s).dev = s.dev ∧ (discardInEngine a1 a2 a3 a4 s).pins = s.pins ∧ (discardInEngine a1 a2 a3 a4 s).side =
    s.side ∧ (discardInEngine a1 a2 a3 a4 s).prot = s.prot ∧ (discardInEngine a1 a2 a3 a4 s).mram = s.mram ∧
    (discardInEngine a1 a2 a3 a4 s).img = s.img ∧ (discardInEngine a1 a2 a3 a4 s).lat = s.lat ∧ (discardInEngine a1 a2
    a3 a4 s).lk = s.lk ∧ (discardInEngine a1 a2 a3 a4 s).tim = s.tim ∧ (discardInEngine a1 a2 a3 a4 s).eg = s.eg ∧
    (discardInEngine a1 a2 a3 a4 s).tab = s.tab ∧ (discardInEngine a1 a2 a3 a4 s).gen = s.gen ∧ (discardInEngine a1 a2
    a3 a4 s).svc = s.svc ∧ (discardInEngine a1 a2 a3 a4 s).therm = s.therm ∧ (discardInEngine a1 a2 a3 a4 s).now = s.now
    ∧ (discardInEngine a1 a2 a3 a4 s).elapsed = s.elapsed ∧ (discardInEngine a1 a2 a3 a4 s).free = s.free ∧
    (discardInEngine a1 a2 a3 a4 s).pending = s.pending := by
  intros; unfold discardInEngine
  first
    | ((repeat' split) <;> simp; done)
    | (dsimp only; (repeat' split) <;> simp [*]; done)
    | ((repeat' apply And.intro) <;> dsimp only <;> (repeat' split) <;> simp [*]; done)

@[simp] theorem engineFaultEvent_keeps : ∀ a1 a2 a3 s, (engineFaultEvent a1 a2 a3 s).md = s.md ∧ (engineFaultEvent a1 a2
    a3 s).dev = s.dev ∧ (engineFaultEvent a1 a2 a3 s).pins = s.pins ∧ (engineFaultEvent a1 a2 a3 s).side = s.side ∧
    (engineFaultEvent a1 a2 a3 s).prot = s.prot ∧ (engineFaultEvent a1 a2 a3 s).mram = s.mram ∧ (engineFaultEvent a1 a2
    a3 s).img = s.img ∧ (engineFaultEvent a1 a2 a3 s).lat = s.lat ∧ (engineFaultEvent a1 a2 a3 s).acct = s.acct ∧
    (engineFaultEvent a1 a2 a3 s).lk = s.lk ∧ (engineFaultEvent a1 a2 a3 s).tim = s.tim ∧ (engineFaultEvent a1 a2 a3
    s).buf = s.buf ∧ (engineFaultEvent a1 a2 a3 s).eg = s.eg ∧ (engineFaultEvent a1 a2 a3 s).tab = s.tab ∧
    (engineFaultEvent a1 a2 a3 s).gen = s.gen ∧ (engineFaultEvent a1 a2 a3 s).recd = s.recd ∧ (engineFaultEvent a1 a2 a3
    s).pmu = s.pmu ∧ (engineFaultEvent a1 a2 a3 s).svc = s.svc ∧ (engineFaultEvent a1 a2 a3 s).therm = s.therm ∧
    (engineFaultEvent a1 a2 a3 s).hmem = s.hmem ∧ (engineFaultEvent a1 a2 a3 s).now = s.now ∧ (engineFaultEvent a1 a2 a3
    s).elapsed = s.elapsed ∧ (engineFaultEvent a1 a2 a3 s).free = s.free ∧ (engineFaultEvent a1 a2 a3 s).pending =
    s.pending := by
  intros; unfold engineFaultEvent
  first
    | ((repeat' split) <;> simp; done)
    | (dsimp only; (repeat' split) <;> simp [*]; done)
    | ((repeat' apply And.intro) <;> dsimp only <;> (repeat' split) <;> simp [*]; done)

@[simp] theorem engineFault_keeps : ∀ a1 a2 a3 s, (engineFault a1 a2 a3 s).md = s.md ∧ (engineFault a1 a2 a3 s).dev =
    s.dev ∧ (engineFault a1 a2 a3 s).pins = s.pins ∧ (engineFault a1 a2 a3 s).side = s.side ∧ (engineFault a1 a2 a3
    s).prot = s.prot ∧ (engineFault a1 a2 a3 s).mram = s.mram ∧ (engineFault a1 a2 a3 s).img = s.img ∧ (engineFault a1
    a2 a3 s).lat = s.lat ∧ (engineFault a1 a2 a3 s).lk = s.lk ∧ (engineFault a1 a2 a3 s).tim = s.tim ∧ (engineFault a1
    a2 a3 s).eg = s.eg ∧ (engineFault a1 a2 a3 s).tab = s.tab ∧ (engineFault a1 a2 a3 s).gen = s.gen ∧ (engineFault a1
    a2 a3 s).svc = s.svc ∧ (engineFault a1 a2 a3 s).therm = s.therm ∧ (engineFault a1 a2 a3 s).now = s.now ∧
    (engineFault a1 a2 a3 s).elapsed = s.elapsed ∧ (engineFault a1 a2 a3 s).free = s.free ∧ (engineFault a1 a2 a3
    s).pending = s.pending := by
  intros; unfold engineFault
  first
    | ((repeat' split) <;> simp; done)
    | (dsimp only; (repeat' split) <;> simp [*]; done)
    | ((repeat' apply And.intro) <;> dsimp only <;> (repeat' split) <;> simp [*]; done)

@[simp] theorem readOpen_keeps : ∀ a1 a2 s, (readOpen a1 a2 s).2.2.md = s.md ∧ (readOpen a1 a2 s).2.2.dev = s.dev ∧
    (readOpen a1 a2 s).2.2.pins = s.pins ∧ (readOpen a1 a2 s).2.2.side = s.side ∧ (readOpen a1 a2 s).2.2.prot = s.prot ∧
    (readOpen a1 a2 s).2.2.mram = s.mram ∧ (readOpen a1 a2 s).2.2.img = s.img ∧ (readOpen a1 a2 s).2.2.host = s.host ∧
    (readOpen a1 a2 s).2.2.lat = s.lat ∧ (readOpen a1 a2 s).2.2.acct = s.acct ∧ (readOpen a1 a2 s).2.2.lk = s.lk ∧
    (readOpen a1 a2 s).2.2.tim = s.tim ∧ (readOpen a1 a2 s).2.2.buf = s.buf ∧ (readOpen a1 a2 s).2.2.eg = s.eg ∧
    (readOpen a1 a2 s).2.2.tab = s.tab ∧ (readOpen a1 a2 s).2.2.gen = s.gen ∧ (readOpen a1 a2 s).2.2.eng = s.eng ∧
    (readOpen a1 a2 s).2.2.recd = s.recd ∧ (readOpen a1 a2 s).2.2.pmu = s.pmu ∧ (readOpen a1 a2 s).2.2.svc = s.svc ∧
    (readOpen a1 a2 s).2.2.therm = s.therm ∧ (readOpen a1 a2 s).2.2.regs = s.regs ∧ (readOpen a1 a2 s).2.2.hmem = s.hmem
    ∧ (readOpen a1 a2 s).2.2.now = s.now ∧ (readOpen a1 a2 s).2.2.elapsed = s.elapsed ∧ (readOpen a1 a2 s).2.2.pending =
    s.pending := by
  intros; unfold readOpen
  first
    | ((repeat' split) <;> simp; done)
    | (dsimp only; (repeat' split) <;> simp [*]; done)
    | ((repeat' apply And.intro) <;> dsimp only <;> (repeat' split) <;> simp [*]; done)

@[simp] theorem readWork_keeps : ∀ a1 s, (readWork a1 s).2.md = s.md ∧ (readWork a1 s).2.dev = s.dev ∧ (readWork a1
    s).2.pins = s.pins ∧ (readWork a1 s).2.side = s.side ∧ (readWork a1 s).2.prot = s.prot ∧ (readWork a1 s).2.mram =
    s.mram ∧ (readWork a1 s).2.img = s.img ∧ (readWork a1 s).2.host = s.host ∧ (readWork a1 s).2.lat = s.lat ∧ (readWork
    a1 s).2.acct = s.acct ∧ (readWork a1 s).2.lk = s.lk ∧ (readWork a1 s).2.tim = s.tim ∧ (readWork a1 s).2.buf = s.buf
    ∧ (readWork a1 s).2.eg = s.eg ∧ (readWork a1 s).2.tab = s.tab ∧ (readWork a1 s).2.gen = s.gen ∧ (readWork a1
    s).2.recd = s.recd ∧ (readWork a1 s).2.pmu = s.pmu ∧ (readWork a1 s).2.svc = s.svc ∧ (readWork a1 s).2.therm =
    s.therm ∧ (readWork a1 s).2.regs = s.regs ∧ (readWork a1 s).2.hmem = s.hmem ∧ (readWork a1 s).2.now = s.now ∧
    (readWork a1 s).2.elapsed = s.elapsed ∧ (readWork a1 s).2.pending = s.pending := by
  intros; unfold readWork
  first
    | ((repeat' split) <;> simp; done)
    | (dsimp only; (repeat' split) <;> simp [*]; done)
    | ((repeat' apply And.intro) <;> dsimp only <;> (repeat' split) <;> simp [*]; done)

@[simp] theorem writeWork_keeps : ∀ a1 a2 s, (writeWork a1 a2 s).md = s.md ∧ (writeWork a1 a2 s).dev = s.dev ∧
    (writeWork a1 a2 s).pins = s.pins ∧ (writeWork a1 a2 s).side = s.side ∧ (writeWork a1 a2 s).prot = s.prot ∧
    (writeWork a1 a2 s).mram = s.mram ∧ (writeWork a1 a2 s).img = s.img ∧ (writeWork a1 a2 s).host = s.host ∧ (writeWork
    a1 a2 s).lat = s.lat ∧ (writeWork a1 a2 s).acct = s.acct ∧ (writeWork a1 a2 s).lk = s.lk ∧ (writeWork a1 a2 s).tim =
    s.tim ∧ (writeWork a1 a2 s).buf = s.buf ∧ (writeWork a1 a2 s).eg = s.eg ∧ (writeWork a1 a2 s).tab = s.tab ∧
    (writeWork a1 a2 s).gen = s.gen ∧ (writeWork a1 a2 s).recd = s.recd ∧ (writeWork a1 a2 s).pmu = s.pmu ∧ (writeWork
    a1 a2 s).svc = s.svc ∧ (writeWork a1 a2 s).therm = s.therm ∧ (writeWork a1 a2 s).regs = s.regs ∧ (writeWork a1 a2
    s).hmem = s.hmem ∧ (writeWork a1 a2 s).now = s.now ∧ (writeWork a1 a2 s).elapsed = s.elapsed ∧ (writeWork a1 a2
    s).free = s.free ∧ (writeWork a1 a2 s).pending = s.pending := by
  intros; unfold writeWork
  first
    | ((repeat' split) <;> simp; done)
    | (dsimp only; (repeat' split) <;> simp [*]; done)
    | ((repeat' apply And.intro) <;> dsimp only <;> (repeat' split) <;> simp [*]; done)

@[simp] theorem enterContext_keeps : ∀ a1 a2 a3 s, (enterContext a1 a2 a3 s).md = s.md ∧ (enterContext a1 a2 a3 s).dev =
    s.dev ∧ (enterContext a1 a2 a3 s).pins = s.pins ∧ (enterContext a1 a2 a3 s).side = s.side ∧ (enterContext a1 a2 a3
    s).prot = s.prot ∧ (enterContext a1 a2 a3 s).mram = s.mram ∧ (enterContext a1 a2 a3 s).img = s.img ∧ (enterContext
    a1 a2 a3 s).host = s.host ∧ (enterContext a1 a2 a3 s).lat = s.lat ∧ (enterContext a1 a2 a3 s).acct = s.acct ∧
    (enterContext a1 a2 a3 s).lk = s.lk ∧ (enterContext a1 a2 a3 s).tim = s.tim ∧ (enterContext a1 a2 a3 s).buf = s.buf
    ∧ (enterContext a1 a2 a3 s).eg = s.eg ∧ (enterContext a1 a2 a3 s).tab = s.tab ∧ (enterContext a1 a2 a3 s).gen =
    s.gen ∧ (enterContext a1 a2 a3 s).recd = s.recd ∧ (enterContext a1 a2 a3 s).pmu = s.pmu ∧ (enterContext a1 a2 a3
    s).svc = s.svc ∧ (enterContext a1 a2 a3 s).therm = s.therm ∧ (enterContext a1 a2 a3 s).regs = s.regs ∧ (enterContext
    a1 a2 a3 s).hmem = s.hmem ∧ (enterContext a1 a2 a3 s).now = s.now ∧ (enterContext a1 a2 a3 s).elapsed = s.elapsed ∧
    (enterContext a1 a2 a3 s).pending = s.pending := by
  intros; unfold enterContext
  first
    | ((repeat' split) <;> simp; done)
    | (dsimp only; (repeat' split) <;> simp [*]; done)
    | ((repeat' apply And.intro) <;> dsimp only <;> (repeat' split) <;> simp [*]; done)

@[simp] theorem shrinkChain_keeps : ∀ a1 a2 a3 s, (shrinkChain a1 a2 a3 s).md = s.md ∧ (shrinkChain a1 a2 a3 s).dev =
    s.dev ∧ (shrinkChain a1 a2 a3 s).pins = s.pins ∧ (shrinkChain a1 a2 a3 s).side = s.side ∧ (shrinkChain a1 a2 a3
    s).prot = s.prot ∧ (shrinkChain a1 a2 a3 s).mram = s.mram ∧ (shrinkChain a1 a2 a3 s).img = s.img ∧ (shrinkChain a1
    a2 a3 s).host = s.host ∧ (shrinkChain a1 a2 a3 s).lat = s.lat ∧ (shrinkChain a1 a2 a3 s).acct = s.acct ∧
    (shrinkChain a1 a2 a3 s).lk = s.lk ∧ (shrinkChain a1 a2 a3 s).tim = s.tim ∧ (shrinkChain a1 a2 a3 s).eg = s.eg ∧
    (shrinkChain a1 a2 a3 s).tab = s.tab ∧ (shrinkChain a1 a2 a3 s).gen = s.gen ∧ (shrinkChain a1 a2 a3 s).eng = s.eng ∧
    (shrinkChain a1 a2 a3 s).recd = s.recd ∧ (shrinkChain a1 a2 a3 s).pmu = s.pmu ∧ (shrinkChain a1 a2 a3 s).svc = s.svc
    ∧ (shrinkChain a1 a2 a3 s).therm = s.therm ∧ (shrinkChain a1 a2 a3 s).regs = s.regs ∧ (shrinkChain a1 a2 a3 s).hmem
    = s.hmem ∧ (shrinkChain a1 a2 a3 s).now = s.now ∧ (shrinkChain a1 a2 a3 s).elapsed = s.elapsed ∧ (shrinkChain a1 a2
    a3 s).free = s.free ∧ (shrinkChain a1 a2 a3 s).pending = s.pending := by
  intros; unfold shrinkChain
  first
    | ((repeat' split) <;> simp; done)
    | (dsimp only; (repeat' split) <;> simp [*]; done)
    | ((repeat' apply And.intro) <;> dsimp only <;> (repeat' split) <;> simp [*]; done)

@[simp] theorem emitNow_keeps : ∀ a1 a2 a3 a4 s, (emitNow a1 a2 a3 a4 s).md = s.md ∧ (emitNow a1 a2 a3 a4 s).dev = s.dev
    ∧ (emitNow a1 a2 a3 a4 s).pins = s.pins ∧ (emitNow a1 a2 a3 a4 s).side = s.side ∧ (emitNow a1 a2 a3 a4 s).prot =
    s.prot ∧ (emitNow a1 a2 a3 a4 s).mram = s.mram ∧ (emitNow a1 a2 a3 a4 s).img = s.img ∧ (emitNow a1 a2 a3 a4 s).lat =
    s.lat ∧ (emitNow a1 a2 a3 a4 s).lk = s.lk ∧ (emitNow a1 a2 a3 a4 s).tim = s.tim ∧ (emitNow a1 a2 a3 a4 s).eg = s.eg
    ∧ (emitNow a1 a2 a3 a4 s).tab = s.tab ∧ (emitNow a1 a2 a3 a4 s).gen = s.gen ∧ (emitNow a1 a2 a3 a4 s).svc = s.svc ∧
    (emitNow a1 a2 a3 a4 s).therm = s.therm ∧ (emitNow a1 a2 a3 a4 s).now = s.now ∧ (emitNow a1 a2 a3 a4 s).elapsed =
    s.elapsed ∧ (emitNow a1 a2 a3 a4 s).pending = s.pending := by
  intros; unfold emitNow
  first
    | ((repeat' split) <;> simp; done)
    | (dsimp only; (repeat' split) <;> simp [*]; done)
    | ((repeat' apply And.intro) <;> dsimp only <;> (repeat' split) <;> simp [*]; done)

@[simp] theorem emitFrame_keeps : ∀ a1 a2 a3 s, (emitFrame a1 a2 a3 s).md = s.md ∧ (emitFrame a1 a2 a3 s).dev = s.dev ∧
    (emitFrame a1 a2 a3 s).pins = s.pins ∧ (emitFrame a1 a2 a3 s).side = s.side ∧ (emitFrame a1 a2 a3 s).prot = s.prot ∧
    (emitFrame a1 a2 a3 s).mram = s.mram ∧ (emitFrame a1 a2 a3 s).img = s.img ∧ (emitFrame a1 a2 a3 s).lat = s.lat ∧
    (emitFrame a1 a2 a3 s).tim = s.tim ∧ (emitFrame a1 a2 a3 s).eg = s.eg ∧ (emitFrame a1 a2 a3 s).tab = s.tab ∧
    (emitFrame a1 a2 a3 s).gen = s.gen ∧ (emitFrame a1 a2 a3 s).svc = s.svc ∧ (emitFrame a1 a2 a3 s).therm = s.therm ∧
    (emitFrame a1 a2 a3 s).now = s.now ∧ (emitFrame a1 a2 a3 s).elapsed = s.elapsed ∧ (emitFrame a1 a2 a3 s).pending =
    s.pending := by
  intros; unfold emitFrame
  first
    | ((repeat' split) <;> simp; done)
    | (dsimp only; (repeat' split) <;> simp [*]; done)
    | ((repeat' apply And.intro) <;> dsimp only <;> (repeat' split) <;> simp [*]; done)

@[simp] theorem handOn_keeps : ∀ a1 s, (handOn a1 s).md = s.md ∧ (handOn a1 s).dev = s.dev ∧ (handOn a1 s).pins = s.pins
    ∧ (handOn a1 s).side = s.side ∧ (handOn a1 s).prot = s.prot ∧ (handOn a1 s).mram = s.mram ∧ (handOn a1 s).img =
    s.img ∧ (handOn a1 s).host = s.host ∧ (handOn a1 s).lat = s.lat ∧ (handOn a1 s).acct = s.acct ∧ (handOn a1 s).tim =
    s.tim ∧ (handOn a1 s).eg = s.eg ∧ (handOn a1 s).tab = s.tab ∧ (handOn a1 s).gen = s.gen ∧ (handOn a1 s).eng = s.eng
    ∧ (handOn a1 s).recd = s.recd ∧ (handOn a1 s).svc = s.svc ∧ (handOn a1 s).therm = s.therm ∧ (handOn a1 s).hmem =
    s.hmem ∧ (handOn a1 s).now = s.now ∧ (handOn a1 s).elapsed = s.elapsed ∧ (handOn a1 s).free = s.free ∧ (handOn a1
    s).pending = s.pending := by
  intros; unfold handOn
  first
    | ((repeat' split) <;> simp; done)
    | (dsimp only; (repeat' split) <;> simp [*]; done)
    | ((repeat' apply And.intro) <;> dsimp only <;> (repeat' split) <;> simp [*]; done)

@[simp] theorem leaveEngine_keeps : ∀ a1 a2 s, (leaveEngine a1 a2 s).md = s.md ∧ (leaveEngine a1 a2 s).dev = s.dev ∧
    (leaveEngine a1 a2 s).pins = s.pins ∧ (leaveEngine a1 a2 s).side = s.side ∧ (leaveEngine a1 a2 s).prot = s.prot ∧
    (leaveEngine a1 a2 s).mram = s.mram ∧ (leaveEngine a1 a2 s).img = s.img ∧ (leaveEngine a1 a2 s).host = s.host ∧
    (leaveEngine a1 a2 s).lat = s.lat ∧ (leaveEngine a1 a2 s).acct = s.acct ∧ (leaveEngine a1 a2 s).tim = s.tim ∧
    (leaveEngine a1 a2 s).eg = s.eg ∧ (leaveEngine a1 a2 s).tab = s.tab ∧ (leaveEngine a1 a2 s).gen = s.gen ∧
    (leaveEngine a1 a2 s).recd = s.recd ∧ (leaveEngine a1 a2 s).svc = s.svc ∧ (leaveEngine a1 a2 s).therm = s.therm ∧
    (leaveEngine a1 a2 s).hmem = s.hmem ∧ (leaveEngine a1 a2 s).now = s.now ∧ (leaveEngine a1 a2 s).elapsed = s.elapsed
    ∧ (leaveEngine a1 a2 s).free = s.free ∧ (leaveEngine a1 a2 s).pending = s.pending := by
  intros; unfold leaveEngine
  first
    | ((repeat' split) <;> simp; done)
    | (dsimp only; (repeat' split) <;> simp [*]; done)
    | ((repeat' apply And.intro) <;> dsimp only <;> (repeat' split) <;> simp [*]; done)

@[simp] theorem engineWordBad_keeps : ∀ a1 a2 a3 s, (engineWordBad a1 a2 a3 s).md = s.md ∧ (engineWordBad a1 a2 a3
    s).dev = s.dev ∧ (engineWordBad a1 a2 a3 s).pins = s.pins ∧ (engineWordBad a1 a2 a3 s).side = s.side ∧
    (engineWordBad a1 a2 a3 s).prot = s.prot ∧ (engineWordBad a1 a2 a3 s).mram = s.mram ∧ (engineWordBad a1 a2 a3 s).img
    = s.img ∧ (engineWordBad a1 a2 a3 s).lat = s.lat ∧ (engineWordBad a1 a2 a3 s).acct = s.acct ∧ (engineWordBad a1 a2
    a3 s).lk = s.lk ∧ (engineWordBad a1 a2 a3 s).tim = s.tim ∧ (engineWordBad a1 a2 a3 s).buf = s.buf ∧ (engineWordBad
    a1 a2 a3 s).eg = s.eg ∧ (engineWordBad a1 a2 a3 s).tab = s.tab ∧ (engineWordBad a1 a2 a3 s).gen = s.gen ∧
    (engineWordBad a1 a2 a3 s).recd = s.recd ∧ (engineWordBad a1 a2 a3 s).pmu = s.pmu ∧ (engineWordBad a1 a2 a3 s).svc =
    s.svc ∧ (engineWordBad a1 a2 a3 s).therm = s.therm ∧ (engineWordBad a1 a2 a3 s).hmem = s.hmem ∧ (engineWordBad a1 a2
    a3 s).now = s.now ∧ (engineWordBad a1 a2 a3 s).elapsed = s.elapsed ∧ (engineWordBad a1 a2 a3 s).free = s.free ∧
    (engineWordBad a1 a2 a3 s).pending = s.pending := by
  intros; unfold engineWordBad
  first
    | ((repeat' split) <;> simp; done)
    | (dsimp only; (repeat' split) <;> simp [*]; done)
    | ((repeat' apply And.intro) <;> dsimp only <;> (repeat' split) <;> simp [*]; done)

@[simp] theorem readStore_keeps : ∀ k b s, (readStore k b s).2.md = s.md ∧ (readStore k b s).2.dev = s.dev ∧ (readStore
    k b s).2.pins = s.pins ∧ (readStore k b s).2.side = s.side ∧ (readStore k b s).2.prot = s.prot ∧ (readStore k b
    s).2.mram = s.mram ∧ (readStore k b s).2.img = s.img ∧ (readStore k b s).2.host = s.host ∧ (readStore k b s).2.lat =
    s.lat ∧ (readStore k b s).2.acct = s.acct ∧ (readStore k b s).2.lk = s.lk ∧ (readStore k b s).2.tim = s.tim ∧
    (readStore k b s).2.buf = s.buf ∧ (readStore k b s).2.eg = s.eg ∧ (readStore k b s).2.tab = s.tab ∧ (readStore k b
    s).2.gen = s.gen ∧ (readStore k b s).2.recd = s.recd ∧ (readStore k b s).2.pmu = s.pmu ∧ (readStore k b s).2.svc =
    s.svc ∧ (readStore k b s).2.therm = s.therm ∧ (readStore k b s).2.regs = s.regs ∧ (readStore k b s).2.hmem = s.hmem
    ∧ (readStore k b s).2.now = s.now ∧ (readStore k b s).2.elapsed = s.elapsed ∧ (readStore k b s).2.pending =
    s.pending := by
  intro k; induction k with
  | zero => intros; simp [readStore]
  | succ k ih => intro b s; simp [readStore, ih]

@[simp] theorem engGate_md (w : Nat) (f : State → CmdOut) (s : State) (h : ∀ s, (f s).st.md = s.md) : (engGate w f
    s).st.md = s.md := by
  unfold engGate; (repeat' split) <;> simp [h]

@[simp] theorem engGate_dev (w : Nat) (f : State → CmdOut) (s : State) (h : ∀ s, (f s).st.dev = s.dev) : (engGate w f
    s).st.dev = s.dev := by
  unfold engGate; (repeat' split) <;> simp [h]

@[simp] theorem engGate_pins (w : Nat) (f : State → CmdOut) (s : State) (h : ∀ s, (f s).st.pins = s.pins) : (engGate w f
    s).st.pins = s.pins := by
  unfold engGate; (repeat' split) <;> simp [h]

@[simp] theorem engGate_side (w : Nat) (f : State → CmdOut) (s : State) (h : ∀ s, (f s).st.side = s.side) : (engGate w f
    s).st.side = s.side := by
  unfold engGate; (repeat' split) <;> simp [h]

@[simp] theorem engGate_prot (w : Nat) (f : State → CmdOut) (s : State) (h : ∀ s, (f s).st.prot = s.prot) : (engGate w f
    s).st.prot = s.prot := by
  unfold engGate; (repeat' split) <;> simp [h]

@[simp] theorem engGate_mram (w : Nat) (f : State → CmdOut) (s : State) (h : ∀ s, (f s).st.mram = s.mram) : (engGate w f
    s).st.mram = s.mram := by
  unfold engGate; (repeat' split) <;> simp [h]

@[simp] theorem engGate_img (w : Nat) (f : State → CmdOut) (s : State) (h : ∀ s, (f s).st.img = s.img) : (engGate w f
    s).st.img = s.img := by
  unfold engGate; (repeat' split) <;> simp [h]

@[simp] theorem engGate_host (w : Nat) (f : State → CmdOut) (s : State) (h : ∀ s, (f s).st.host = s.host) : (engGate w f
    s).st.host = s.host := by
  unfold engGate; (repeat' split) <;> simp [h]

@[simp] theorem engGate_lat (w : Nat) (f : State → CmdOut) (s : State) (h : ∀ s, (f s).st.lat = s.lat) : (engGate w f
    s).st.lat = s.lat := by
  unfold engGate; (repeat' split) <;> simp [h]

@[simp] theorem engGate_acct (w : Nat) (f : State → CmdOut) (s : State) (h : ∀ s, (f s).st.acct = s.acct) : (engGate w f
    s).st.acct = s.acct := by
  unfold engGate; (repeat' split) <;> simp [h]

@[simp] theorem engGate_lk (w : Nat) (f : State → CmdOut) (s : State) (h : ∀ s, (f s).st.lk = s.lk) : (engGate w f
    s).st.lk = s.lk := by
  unfold engGate; (repeat' split) <;> simp [h]

@[simp] theorem engGate_tim (w : Nat) (f : State → CmdOut) (s : State) (h : ∀ s, (f s).st.tim = s.tim) : (engGate w f
    s).st.tim = s.tim := by
  unfold engGate; (repeat' split) <;> simp [h]

@[simp] theorem engGate_buf (w : Nat) (f : State → CmdOut) (s : State) (h : ∀ s, (f s).st.buf = s.buf) : (engGate w f
    s).st.buf = s.buf := by
  unfold engGate; (repeat' split) <;> simp [h]

@[simp] theorem engGate_eg (w : Nat) (f : State → CmdOut) (s : State) (h : ∀ s, (f s).st.eg = s.eg) : (engGate w f
    s).st.eg = s.eg := by
  unfold engGate; (repeat' split) <;> simp [h]

@[simp] theorem engGate_tab (w : Nat) (f : State → CmdOut) (s : State) (h : ∀ s, (f s).st.tab = s.tab) : (engGate w f
    s).st.tab = s.tab := by
  unfold engGate; (repeat' split) <;> simp [h]

@[simp] theorem engGate_gen (w : Nat) (f : State → CmdOut) (s : State) (h : ∀ s, (f s).st.gen = s.gen) : (engGate w f
    s).st.gen = s.gen := by
  unfold engGate; (repeat' split) <;> simp [h]

@[simp] theorem engGate_eng (w : Nat) (f : State → CmdOut) (s : State) (h : ∀ s, (f s).st.eng = s.eng) : (engGate w f
    s).st.eng = s.eng := by
  unfold engGate; (repeat' split) <;> simp [h]

@[simp] theorem engGate_recd (w : Nat) (f : State → CmdOut) (s : State) (h : ∀ s, (f s).st.recd = s.recd) : (engGate w f
    s).st.recd = s.recd := by
  unfold engGate; (repeat' split) <;> simp [h]

@[simp] theorem engGate_pmu (w : Nat) (f : State → CmdOut) (s : State) (h : ∀ s, (f s).st.pmu = s.pmu) : (engGate w f
    s).st.pmu = s.pmu := by
  unfold engGate; (repeat' split) <;> simp [h]

@[simp] theorem engGate_svc (w : Nat) (f : State → CmdOut) (s : State) (h : ∀ s, (f s).st.svc = s.svc) : (engGate w f
    s).st.svc = s.svc := by
  unfold engGate; (repeat' split) <;> simp [h]

@[simp] theorem engGate_therm (w : Nat) (f : State → CmdOut) (s : State) (h : ∀ s, (f s).st.therm = s.therm) : (engGate
    w f s).st.therm = s.therm := by
  unfold engGate; (repeat' split) <;> simp [h]

@[simp] theorem engGate_regs (w : Nat) (f : State → CmdOut) (s : State) (h : ∀ s, (f s).st.regs = s.regs) : (engGate w f
    s).st.regs = s.regs := by
  unfold engGate; (repeat' split) <;> simp [h]

@[simp] theorem engGate_hmem (w : Nat) (f : State → CmdOut) (s : State) (h : ∀ s, (f s).st.hmem = s.hmem) : (engGate w f
    s).st.hmem = s.hmem := by
  unfold engGate; (repeat' split) <;> simp [h]

@[simp] theorem engGate_now (w : Nat) (f : State → CmdOut) (s : State) (h : ∀ s, (f s).st.now = s.now) : (engGate w f
    s).st.now = s.now := by
  unfold engGate; (repeat' split) <;> simp [h]

@[simp] theorem engGate_elapsed (w : Nat) (f : State → CmdOut) (s : State) (h : ∀ s, (f s).st.elapsed = s.elapsed) :
    (engGate w f s).st.elapsed = s.elapsed := by
  unfold engGate; (repeat' split) <;> simp [h]

@[simp] theorem engGate_free (w : Nat) (f : State → CmdOut) (s : State) (h : ∀ s, (f s).st.free = s.free) : (engGate w f
    s).st.free = s.free := by
  unfold engGate; (repeat' split) <;> simp [h]

@[simp] theorem engGate_pending (w : Nat) (f : State → CmdOut) (s : State) (h : ∀ s, (f s).st.pending = s.pending) :
    (engGate w f s).st.pending = s.pending := by
  unfold engGate; (repeat' split) <;> simp [h]

@[simp] theorem storeBursts_keeps : ∀ a1 a2 a3 s, (storeBursts a1 a2 a3 s).md = s.md ∧ (storeBursts a1 a2 a3 s).dev =
    s.dev ∧ (storeBursts a1 a2 a3 s).pins = s.pins ∧ (storeBursts a1 a2 a3 s).side = s.side ∧ (storeBursts a1 a2 a3
    s).prot = s.prot ∧ (storeBursts a1 a2 a3 s).mram = s.mram ∧ (storeBursts a1 a2 a3 s).img = s.img ∧ (storeBursts a1
    a2 a3 s).host = s.host ∧ (storeBursts a1 a2 a3 s).lat = s.lat ∧ (storeBursts a1 a2 a3 s).acct = s.acct ∧
    (storeBursts a1 a2 a3 s).lk = s.lk ∧ (storeBursts a1 a2 a3 s).tim = s.tim ∧ (storeBursts a1 a2 a3 s).buf = s.buf ∧
    (storeBursts a1 a2 a3 s).eg = s.eg ∧ (storeBursts a1 a2 a3 s).tab = s.tab ∧ (storeBursts a1 a2 a3 s).gen = s.gen ∧
    (storeBursts a1 a2 a3 s).eng = s.eng ∧ (storeBursts a1 a2 a3 s).recd = s.recd ∧ (storeBursts a1 a2 a3 s).svc = s.svc
    ∧ (storeBursts a1 a2 a3 s).therm = s.therm ∧ (storeBursts a1 a2 a3 s).hmem = s.hmem ∧ (storeBursts a1 a2 a3 s).now =
    s.now ∧ (storeBursts a1 a2 a3 s).elapsed = s.elapsed ∧ (storeBursts a1 a2 a3 s).free = s.free ∧ (storeBursts a1 a2
    a3 s).pending = s.pending := by
  intros; unfold storeBursts
  first
    | ((repeat' split) <;> simp; done)
    | (dsimp only; (repeat' split) <;> simp [*]; done)
    | ((repeat' apply And.intro) <;> dsimp only <;> (repeat' split) <;> simp [*]; done)

@[simp] theorem chargeShapers_keeps : ∀ a1 a2 a3 s, (chargeShapers a1 a2 a3 s).md = s.md ∧ (chargeShapers a1 a2 a3
    s).dev = s.dev ∧ (chargeShapers a1 a2 a3 s).pins = s.pins ∧ (chargeShapers a1 a2 a3 s).side = s.side ∧
    (chargeShapers a1 a2 a3 s).prot = s.prot ∧ (chargeShapers a1 a2 a3 s).mram = s.mram ∧ (chargeShapers a1 a2 a3 s).img
    = s.img ∧ (chargeShapers a1 a2 a3 s).host = s.host ∧ (chargeShapers a1 a2 a3 s).lat = s.lat ∧ (chargeShapers a1 a2
    a3 s).acct = s.acct ∧ (chargeShapers a1 a2 a3 s).lk = s.lk ∧ (chargeShapers a1 a2 a3 s).tim = s.tim ∧ (chargeShapers
    a1 a2 a3 s).buf = s.buf ∧ (chargeShapers a1 a2 a3 s).tab = s.tab ∧ (chargeShapers a1 a2 a3 s).gen = s.gen ∧
    (chargeShapers a1 a2 a3 s).eng = s.eng ∧ (chargeShapers a1 a2 a3 s).recd = s.recd ∧ (chargeShapers a1 a2 a3 s).pmu =
    s.pmu ∧ (chargeShapers a1 a2 a3 s).svc = s.svc ∧ (chargeShapers a1 a2 a3 s).therm = s.therm ∧ (chargeShapers a1 a2
    a3 s).regs = s.regs ∧ (chargeShapers a1 a2 a3 s).hmem = s.hmem ∧ (chargeShapers a1 a2 a3 s).now = s.now ∧
    (chargeShapers a1 a2 a3 s).elapsed = s.elapsed ∧ (chargeShapers a1 a2 a3 s).free = s.free ∧ (chargeShapers a1 a2 a3
    s).pending = s.pending := by
  intros; unfold chargeShapers
  first
    | ((repeat' split) <;> simp; done)
    | (dsimp only; (repeat' split) <;> simp [*]; done)
    | ((repeat' apply And.intro) <;> dsimp only <;> (repeat' split) <;> simp [*]; done)

@[simp] theorem storeDeficit_keeps : ∀ a1 a2 a3 s, (storeDeficit a1 a2 a3 s).md = s.md ∧ (storeDeficit a1 a2 a3 s).dev =
    s.dev ∧ (storeDeficit a1 a2 a3 s).pins = s.pins ∧ (storeDeficit a1 a2 a3 s).side = s.side ∧ (storeDeficit a1 a2 a3
    s).prot = s.prot ∧ (storeDeficit a1 a2 a3 s).mram = s.mram ∧ (storeDeficit a1 a2 a3 s).img = s.img ∧ (storeDeficit
    a1 a2 a3 s).host = s.host ∧ (storeDeficit a1 a2 a3 s).lat = s.lat ∧ (storeDeficit a1 a2 a3 s).acct = s.acct ∧
    (storeDeficit a1 a2 a3 s).lk = s.lk ∧ (storeDeficit a1 a2 a3 s).tim = s.tim ∧ (storeDeficit a1 a2 a3 s).buf = s.buf
    ∧ (storeDeficit a1 a2 a3 s).tab = s.tab ∧ (storeDeficit a1 a2 a3 s).gen = s.gen ∧ (storeDeficit a1 a2 a3 s).eng =
    s.eng ∧ (storeDeficit a1 a2 a3 s).recd = s.recd ∧ (storeDeficit a1 a2 a3 s).pmu = s.pmu ∧ (storeDeficit a1 a2 a3
    s).svc = s.svc ∧ (storeDeficit a1 a2 a3 s).therm = s.therm ∧ (storeDeficit a1 a2 a3 s).regs = s.regs ∧ (storeDeficit
    a1 a2 a3 s).hmem = s.hmem ∧ (storeDeficit a1 a2 a3 s).now = s.now ∧ (storeDeficit a1 a2 a3 s).elapsed = s.elapsed ∧
    (storeDeficit a1 a2 a3 s).free = s.free ∧ (storeDeficit a1 a2 a3 s).pending = s.pending := by
  intros; unfold storeDeficit
  first
    | ((repeat' split) <;> simp; done)
    | (dsimp only; (repeat' split) <;> simp [*]; done)
    | ((repeat' apply And.intro) <;> dsimp only <;> (repeat' split) <;> simp [*]; done)

@[simp] theorem storeChoice_keeps : ∀ a1 a2 a3 s, (storeChoice a1 a2 a3 s).md = s.md ∧ (storeChoice a1 a2 a3 s).dev =
    s.dev ∧ (storeChoice a1 a2 a3 s).pins = s.pins ∧ (storeChoice a1 a2 a3 s).side = s.side ∧ (storeChoice a1 a2 a3
    s).prot = s.prot ∧ (storeChoice a1 a2 a3 s).mram = s.mram ∧ (storeChoice a1 a2 a3 s).img = s.img ∧ (storeChoice a1
    a2 a3 s).host = s.host ∧ (storeChoice a1 a2 a3 s).lat = s.lat ∧ (storeChoice a1 a2 a3 s).acct = s.acct ∧
    (storeChoice a1 a2 a3 s).lk = s.lk ∧ (storeChoice a1 a2 a3 s).tim = s.tim ∧ (storeChoice a1 a2 a3 s).buf = s.buf ∧
    (storeChoice a1 a2 a3 s).tab = s.tab ∧ (storeChoice a1 a2 a3 s).gen = s.gen ∧ (storeChoice a1 a2 a3 s).eng = s.eng ∧
    (storeChoice a1 a2 a3 s).recd = s.recd ∧ (storeChoice a1 a2 a3 s).pmu = s.pmu ∧ (storeChoice a1 a2 a3 s).svc = s.svc
    ∧ (storeChoice a1 a2 a3 s).therm = s.therm ∧ (storeChoice a1 a2 a3 s).regs = s.regs ∧ (storeChoice a1 a2 a3 s).hmem
    = s.hmem ∧ (storeChoice a1 a2 a3 s).now = s.now ∧ (storeChoice a1 a2 a3 s).elapsed = s.elapsed ∧ (storeChoice a1 a2
    a3 s).free = s.free ∧ (storeChoice a1 a2 a3 s).pending = s.pending := by
  intros; unfold storeChoice
  first
    | ((repeat' split) <;> simp; done)
    | (dsimp only; (repeat' split) <;> simp [*]; done)
    | ((repeat' apply And.intro) <;> dsimp only <;> (repeat' split) <;> simp [*]; done)

@[simp] theorem shareRead_keeps : ∀ a1 s, (shareRead a1 s).md = s.md ∧ (shareRead a1 s).dev = s.dev ∧ (shareRead a1
    s).pins = s.pins ∧ (shareRead a1 s).side = s.side ∧ (shareRead a1 s).prot = s.prot ∧ (shareRead a1 s).mram = s.mram
    ∧ (shareRead a1 s).img = s.img ∧ (shareRead a1 s).host = s.host ∧ (shareRead a1 s).lat = s.lat ∧ (shareRead a1
    s).acct = s.acct ∧ (shareRead a1 s).lk = s.lk ∧ (shareRead a1 s).tim = s.tim ∧ (shareRead a1 s).eg = s.eg ∧
    (shareRead a1 s).tab = s.tab ∧ (shareRead a1 s).gen = s.gen ∧ (shareRead a1 s).eng = s.eng ∧ (shareRead a1 s).recd =
    s.recd ∧ (shareRead a1 s).svc = s.svc ∧ (shareRead a1 s).therm = s.therm ∧ (shareRead a1 s).hmem = s.hmem ∧
    (shareRead a1 s).now = s.now ∧ (shareRead a1 s).elapsed = s.elapsed ∧ (shareRead a1 s).free = s.free ∧ (shareRead a1
    s).pending = s.pending := by
  intros; unfold shareRead
  first
    | ((repeat' split) <;> simp; done)
    | (dsimp only; (repeat' split) <;> simp [*]; done)
    | ((repeat' apply And.intro) <;> dsimp only <;> (repeat' split) <;> simp [*]; done)

@[simp] theorem startCopy_keeps : ∀ a1 s, (startCopy a1 s).md = s.md ∧ (startCopy a1 s).dev = s.dev ∧ (startCopy a1
    s).pins = s.pins ∧ (startCopy a1 s).side = s.side ∧ (startCopy a1 s).prot = s.prot ∧ (startCopy a1 s).mram = s.mram
    ∧ (startCopy a1 s).img = s.img ∧ (startCopy a1 s).lat = s.lat ∧ (startCopy a1 s).acct = s.acct ∧ (startCopy a1
    s).tab = s.tab ∧ (startCopy a1 s).gen = s.gen ∧ (startCopy a1 s).eng = s.eng ∧ (startCopy a1 s).recd = s.recd ∧
    (startCopy a1 s).svc = s.svc ∧ (startCopy a1 s).therm = s.therm ∧ (startCopy a1 s).hmem = s.hmem ∧ (startCopy a1
    s).now = s.now ∧ (startCopy a1 s).elapsed = s.elapsed ∧ (startCopy a1 s).free = s.free ∧ (startCopy a1 s).pending =
    s.pending := by
  intros; unfold startCopy
  first
    | ((repeat' split) <;> simp; done)
    | (dsimp only; (repeat' split) <;> simp [*]; done)
    | ((repeat' apply And.intro) <;> dsimp only <;> (repeat' split) <;> simp [*]; done)

@[simp] theorem neverFits_keeps : ∀ a1 s, (neverFits a1 s).md = s.md ∧ (neverFits a1 s).dev = s.dev ∧ (neverFits a1
    s).pins = s.pins ∧ (neverFits a1 s).side = s.side ∧ (neverFits a1 s).prot = s.prot ∧ (neverFits a1 s).mram = s.mram
    ∧ (neverFits a1 s).img = s.img ∧ (neverFits a1 s).lat = s.lat ∧ (neverFits a1 s).acct = s.acct ∧ (neverFits a1 s).lk
    = s.lk ∧ (neverFits a1 s).tim = s.tim ∧ (neverFits a1 s).buf = s.buf ∧ (neverFits a1 s).tab = s.tab ∧ (neverFits a1
    s).gen = s.gen ∧ (neverFits a1 s).eng = s.eng ∧ (neverFits a1 s).recd = s.recd ∧ (neverFits a1 s).pmu = s.pmu ∧
    (neverFits a1 s).svc = s.svc ∧ (neverFits a1 s).therm = s.therm ∧ (neverFits a1 s).hmem = s.hmem ∧ (neverFits a1
    s).now = s.now ∧ (neverFits a1 s).elapsed = s.elapsed ∧ (neverFits a1 s).free = s.free ∧ (neverFits a1 s).pending =
    s.pending := by
  intros; unfold neverFits
  first
    | ((repeat' split) <;> simp; done)
    | (dsimp only; (repeat' split) <;> simp [*]; done)
    | ((repeat' apply And.intro) <;> dsimp only <;> (repeat' split) <;> simp [*]; done)

@[simp] theorem trySpill_keeps : ∀ a1 a2 s, (trySpill a1 a2 s).md = s.md ∧ (trySpill a1 a2 s).dev = s.dev ∧ (trySpill a1
    a2 s).pins = s.pins ∧ (trySpill a1 a2 s).side = s.side ∧ (trySpill a1 a2 s).prot = s.prot ∧ (trySpill a1 a2 s).mram
    = s.mram ∧ (trySpill a1 a2 s).img = s.img ∧ (trySpill a1 a2 s).host = s.host ∧ (trySpill a1 a2 s).lat = s.lat ∧
    (trySpill a1 a2 s).acct = s.acct ∧ (trySpill a1 a2 s).lk = s.lk ∧ (trySpill a1 a2 s).tim = s.tim ∧ (trySpill a1 a2
    s).eg = s.eg ∧ (trySpill a1 a2 s).tab = s.tab ∧ (trySpill a1 a2 s).gen = s.gen ∧ (trySpill a1 a2 s).eng = s.eng ∧
    (trySpill a1 a2 s).recd = s.recd ∧ (trySpill a1 a2 s).pmu = s.pmu ∧ (trySpill a1 a2 s).svc = s.svc ∧ (trySpill a1 a2
    s).therm = s.therm ∧ (trySpill a1 a2 s).hmem = s.hmem ∧ (trySpill a1 a2 s).now = s.now ∧ (trySpill a1 a2 s).elapsed
    = s.elapsed ∧ (trySpill a1 a2 s).pending = s.pending := by
  intros; unfold trySpill
  first
    | ((repeat' split) <;> simp; done)
    | (dsimp only; (repeat' split) <;> simp [*]; done)
    | ((repeat' apply And.intro) <;> dsimp only <;> (repeat' split) <;> simp [*]; done)

@[simp] theorem enqueue_keeps : ∀ a1 s, (enqueue a1 s).md = s.md ∧ (enqueue a1 s).dev = s.dev ∧ (enqueue a1 s).pins =
    s.pins ∧ (enqueue a1 s).side = s.side ∧ (enqueue a1 s).prot = s.prot ∧ (enqueue a1 s).mram = s.mram ∧ (enqueue a1
    s).img = s.img ∧ (enqueue a1 s).lat = s.lat ∧ (enqueue a1 s).tim = s.tim ∧ (enqueue a1 s).tab = s.tab ∧ (enqueue a1
    s).gen = s.gen ∧ (enqueue a1 s).eng = s.eng ∧ (enqueue a1 s).svc = s.svc ∧ (enqueue a1 s).therm = s.therm ∧ (enqueue
    a1 s).now = s.now ∧ (enqueue a1 s).elapsed = s.elapsed ∧ (enqueue a1 s).pending = s.pending := by
  intros; unfold enqueue
  first
    | ((repeat' split) <;> simp; done)
    | (dsimp only; (repeat' split) <;> simp [*]; done)
    | ((repeat' apply And.intro) <;> dsimp only <;> (repeat' split) <;> simp [*]; done)

@[simp] theorem preemptWith_keeps : ∀ a1 a2 a3 s, (preemptWith a1 a2 a3 s).md = s.md ∧ (preemptWith a1 a2 a3 s).dev =
    s.dev ∧ (preemptWith a1 a2 a3 s).pins = s.pins ∧ (preemptWith a1 a2 a3 s).side = s.side ∧ (preemptWith a1 a2 a3
    s).prot = s.prot ∧ (preemptWith a1 a2 a3 s).mram = s.mram ∧ (preemptWith a1 a2 a3 s).img = s.img ∧ (preemptWith a1
    a2 a3 s).host = s.host ∧ (preemptWith a1 a2 a3 s).lat = s.lat ∧ (preemptWith a1 a2 a3 s).acct = s.acct ∧
    (preemptWith a1 a2 a3 s).tim = s.tim ∧ (preemptWith a1 a2 a3 s).buf = s.buf ∧ (preemptWith a1 a2 a3 s).tab = s.tab ∧
    (preemptWith a1 a2 a3 s).gen = s.gen ∧ (preemptWith a1 a2 a3 s).eng = s.eng ∧ (preemptWith a1 a2 a3 s).recd = s.recd
    ∧ (preemptWith a1 a2 a3 s).pmu = s.pmu ∧ (preemptWith a1 a2 a3 s).svc = s.svc ∧ (preemptWith a1 a2 a3 s).therm =
    s.therm ∧ (preemptWith a1 a2 a3 s).hmem = s.hmem ∧ (preemptWith a1 a2 a3 s).now = s.now ∧ (preemptWith a1 a2 a3
    s).elapsed = s.elapsed ∧ (preemptWith a1 a2 a3 s).free = s.free ∧ (preemptWith a1 a2 a3 s).pending = s.pending := by
  intros; unfold preemptWith
  first
    | ((repeat' split) <;> simp; done)
    | (dsimp only; (repeat' split) <;> simp [*]; done)
    | ((repeat' apply And.intro) <;> dsimp only <;> (repeat' split) <;> simp [*]; done)

@[simp] theorem preempt_keeps : ∀ a1 a2 s, (preempt a1 a2 s).md = s.md ∧ (preempt a1 a2 s).dev = s.dev ∧ (preempt a1 a2
    s).pins = s.pins ∧ (preempt a1 a2 s).side = s.side ∧ (preempt a1 a2 s).prot = s.prot ∧ (preempt a1 a2 s).mram =
    s.mram ∧ (preempt a1 a2 s).img = s.img ∧ (preempt a1 a2 s).host = s.host ∧ (preempt a1 a2 s).lat = s.lat ∧ (preempt
    a1 a2 s).acct = s.acct ∧ (preempt a1 a2 s).tim = s.tim ∧ (preempt a1 a2 s).buf = s.buf ∧ (preempt a1 a2 s).tab =
    s.tab ∧ (preempt a1 a2 s).gen = s.gen ∧ (preempt a1 a2 s).eng = s.eng ∧ (preempt a1 a2 s).recd = s.recd ∧ (preempt
    a1 a2 s).pmu = s.pmu ∧ (preempt a1 a2 s).svc = s.svc ∧ (preempt a1 a2 s).therm = s.therm ∧ (preempt a1 a2 s).hmem =
    s.hmem ∧ (preempt a1 a2 s).now = s.now ∧ (preempt a1 a2 s).elapsed = s.elapsed ∧ (preempt a1 a2 s).free = s.free ∧
    (preempt a1 a2 s).pending = s.pending := by
  intros; unfold preempt
  first
    | ((repeat' split) <;> simp; done)
    | (dsimp only; (repeat' split) <;> simp [*]; done)
    | ((repeat' apply And.intro) <;> dsimp only <;> (repeat' split) <;> simp [*]; done)

@[simp] theorem resume_keeps : ∀ a1 s, (resume a1 s).md = s.md ∧ (resume a1 s).dev = s.dev ∧ (resume a1 s).pins = s.pins
    ∧ (resume a1 s).side = s.side ∧ (resume a1 s).prot = s.prot ∧ (resume a1 s).mram = s.mram ∧ (resume a1 s).img =
    s.img ∧ (resume a1 s).host = s.host ∧ (resume a1 s).lat = s.lat ∧ (resume a1 s).acct = s.acct ∧ (resume a1 s).tim =
    s.tim ∧ (resume a1 s).buf = s.buf ∧ (resume a1 s).tab = s.tab ∧ (resume a1 s).gen = s.gen ∧ (resume a1 s).eng =
    s.eng ∧ (resume a1 s).recd = s.recd ∧ (resume a1 s).pmu = s.pmu ∧ (resume a1 s).svc = s.svc ∧ (resume a1 s).therm =
    s.therm ∧ (resume a1 s).regs = s.regs ∧ (resume a1 s).hmem = s.hmem ∧ (resume a1 s).now = s.now ∧ (resume a1
    s).elapsed = s.elapsed ∧ (resume a1 s).free = s.free ∧ (resume a1 s).pending = s.pending := by
  intros; unfold resume
  first
    | ((repeat' split) <;> simp; done)
    | (dsimp only; (repeat' split) <;> simp [*]; done)
    | ((repeat' apply And.intro) <;> dsimp only <;> (repeat' split) <;> simp [*]; done)

@[simp] theorem startNext_keeps : ∀ a1 s, (startNext a1 s).md = s.md ∧ (startNext a1 s).dev = s.dev ∧ (startNext a1
    s).pins = s.pins ∧ (startNext a1 s).side = s.side ∧ (startNext a1 s).prot = s.prot ∧ (startNext a1 s).mram = s.mram
    ∧ (startNext a1 s).img = s.img ∧ (startNext a1 s).lat = s.lat ∧ (startNext a1 s).acct = s.acct ∧ (startNext a1
    s).tab = s.tab ∧ (startNext a1 s).gen = s.gen ∧ (startNext a1 s).eng = s.eng ∧ (startNext a1 s).recd = s.recd ∧
    (startNext a1 s).svc = s.svc ∧ (startNext a1 s).therm = s.therm ∧ (startNext a1 s).hmem = s.hmem ∧ (startNext a1
    s).now = s.now ∧ (startNext a1 s).elapsed = s.elapsed ∧ (startNext a1 s).free = s.free ∧ (startNext a1 s).pending =
    s.pending := by
  intros; unfold startNext
  first
    | ((repeat' split) <;> simp; done)
    | (dsimp only; (repeat' split) <;> simp [*]; done)
    | ((repeat' apply And.intro) <;> dsimp only <;> (repeat' split) <;> simp [*]; done)

@[simp] theorem startPause_keeps : ∀ a1 s, (startPause a1 s).md = s.md ∧ (startPause a1 s).dev = s.dev ∧ (startPause a1
    s).pins = s.pins ∧ (startPause a1 s).side = s.side ∧ (startPause a1 s).prot = s.prot ∧ (startPause a1 s).mram =
    s.mram ∧ (startPause a1 s).img = s.img ∧ (startPause a1 s).host = s.host ∧ (startPause a1 s).lat = s.lat ∧
    (startPause a1 s).acct = s.acct ∧ (startPause a1 s).tim = s.tim ∧ (startPause a1 s).buf = s.buf ∧ (startPause a1
    s).eg = s.eg ∧ (startPause a1 s).tab = s.tab ∧ (startPause a1 s).gen = s.gen ∧ (startPause a1 s).eng = s.eng ∧
    (startPause a1 s).recd = s.recd ∧ (startPause a1 s).pmu = s.pmu ∧ (startPause a1 s).svc = s.svc ∧ (startPause a1
    s).therm = s.therm ∧ (startPause a1 s).hmem = s.hmem ∧ (startPause a1 s).now = s.now ∧ (startPause a1 s).elapsed =
    s.elapsed ∧ (startPause a1 s).free = s.free ∧ (startPause a1 s).pending = s.pending := by
  intros; unfold startPause
  first
    | ((repeat' split) <;> simp; done)
    | (dsimp only; (repeat' split) <;> simp [*]; done)
    | ((repeat' apply And.intro) <;> dsimp only <;> (repeat' split) <;> simp [*]; done)

@[simp] theorem readError_keeps : ∀ a1 a2 s, (readError a1 a2 s).dev = s.dev ∧ (readError a1 a2 s).prot = s.prot ∧
    (readError a1 a2 s).img = s.img ∧ (readError a1 a2 s).lat = s.lat ∧ (readError a1 a2 s).tim = s.tim ∧ (readError a1
    a2 s).gen = s.gen ∧ (readError a1 a2 s).therm = s.therm ∧ (readError a1 a2 s).now = s.now ∧ (readError a1 a2
    s).elapsed = s.elapsed ∧ (readError a1 a2 s).free = s.free ∧ (readError a1 a2 s).pending = s.pending := by
  intros; unfold readError
  first
    | ((repeat' split) <;> simp; done)
    | (dsimp only; (repeat' split) <;> simp [*]; done)
    | ((repeat' apply And.intro) <;> dsimp only <;> (repeat' split) <;> simp [*]; done)

@[simp] theorem readStarted_keeps : ∀ a b s0 s, (readStarted a b s0 s).dev = s.dev ∧ (readStarted a b s0 s).prot =
    s.prot ∧ (readStarted a b s0 s).img = s.img ∧ (readStarted a b s0 s).lat = s.lat ∧ (readStarted a b s0 s).tim =
    s.tim ∧ (readStarted a b s0 s).gen = s.gen ∧ (readStarted a b s0 s).therm = s.therm ∧ (readStarted a b s0 s).now =
    s.now ∧ (readStarted a b s0 s).elapsed = s.elapsed ∧ (readStarted a b s0 s).free = s.free ∧ (readStarted a b s0
    s).pending = s.pending := by
  intros; unfold readStarted; first | ((repeat' split) <;> simp; done) | (dsimp only; (repeat' split) <;> simp [*]; done)

@[simp] theorem mediumFree_keeps : ∀ a1 s, (mediumFree a1 s).md = s.md ∧ (mediumFree a1 s).dev = s.dev ∧ (mediumFree a1
    s).pins = s.pins ∧ (mediumFree a1 s).side = s.side ∧ (mediumFree a1 s).prot = s.prot ∧ (mediumFree a1 s).mram =
    s.mram ∧ (mediumFree a1 s).img = s.img ∧ (mediumFree a1 s).host = s.host ∧ (mediumFree a1 s).lat = s.lat ∧
    (mediumFree a1 s).acct = s.acct ∧ (mediumFree a1 s).lk = s.lk ∧ (mediumFree a1 s).buf = s.buf ∧ (mediumFree a1 s).eg
    = s.eg ∧ (mediumFree a1 s).tab = s.tab ∧ (mediumFree a1 s).gen = s.gen ∧ (mediumFree a1 s).eng = s.eng ∧ (mediumFree
    a1 s).recd = s.recd ∧ (mediumFree a1 s).svc = s.svc ∧ (mediumFree a1 s).therm = s.therm ∧ (mediumFree a1 s).hmem =
    s.hmem ∧ (mediumFree a1 s).free = s.free ∧ (mediumFree a1 s).pending = s.pending := by
  intros; unfold mediumFree
  first
    | ((repeat' split) <;> simp; done)
    | (dsimp only; (repeat' split) <;> simp [*]; done)
    | ((repeat' apply And.intro) <;> dsimp only <;> (repeat' split) <;> simp [*]; done)

@[simp] theorem sentWhole_keeps : ∀ a1 a2 a3 s, (sentWhole a1 a2 a3 s).md = s.md ∧ (sentWhole a1 a2 a3 s).dev = s.dev ∧
    (sentWhole a1 a2 a3 s).pins = s.pins ∧ (sentWhole a1 a2 a3 s).side = s.side ∧ (sentWhole a1 a2 a3 s).prot = s.prot ∧
    (sentWhole a1 a2 a3 s).mram = s.mram ∧ (sentWhole a1 a2 a3 s).img = s.img ∧ (sentWhole a1 a2 a3 s).lat = s.lat ∧
    (sentWhole a1 a2 a3 s).tim = s.tim ∧ (sentWhole a1 a2 a3 s).tab = s.tab ∧ (sentWhole a1 a2 a3 s).gen = s.gen ∧
    (sentWhole a1 a2 a3 s).eng = s.eng ∧ (sentWhole a1 a2 a3 s).svc = s.svc ∧ (sentWhole a1 a2 a3 s).therm = s.therm ∧
    (sentWhole a1 a2 a3 s).now = s.now ∧ (sentWhole a1 a2 a3 s).elapsed = s.elapsed ∧ (sentWhole a1 a2 a3 s).free =
    s.free ∧ (sentWhole a1 a2 a3 s).pending = s.pending := by
  intros; unfold sentWhole
  first
    | ((repeat' split) <;> simp; done)
    | (dsimp only; (repeat' split) <;> simp [*]; done)
    | ((repeat' apply And.intro) <;> dsimp only <;> (repeat' split) <;> simp [*]; done)

@[simp] theorem modCopy_keeps : ∀ a1 a2 s, (modCopy a1 a2 s).md = s.md ∧ (modCopy a1 a2 s).dev = s.dev ∧ (modCopy a1 a2
    s).pins = s.pins ∧ (modCopy a1 a2 s).side = s.side ∧ (modCopy a1 a2 s).prot = s.prot ∧ (modCopy a1 a2 s).mram =
    s.mram ∧ (modCopy a1 a2 s).img = s.img ∧ (modCopy a1 a2 s).host = s.host ∧ (modCopy a1 a2 s).lat = s.lat ∧ (modCopy
    a1 a2 s).acct = s.acct ∧ (modCopy a1 a2 s).lk = s.lk ∧ (modCopy a1 a2 s).tim = s.tim ∧ (modCopy a1 a2 s).buf = s.buf
    ∧ (modCopy a1 a2 s).tab = s.tab ∧ (modCopy a1 a2 s).gen = s.gen ∧ (modCopy a1 a2 s).eng = s.eng ∧ (modCopy a1 a2
    s).recd = s.recd ∧ (modCopy a1 a2 s).pmu = s.pmu ∧ (modCopy a1 a2 s).svc = s.svc ∧ (modCopy a1 a2 s).therm = s.therm
    ∧ (modCopy a1 a2 s).regs = s.regs ∧ (modCopy a1 a2 s).hmem = s.hmem ∧ (modCopy a1 a2 s).now = s.now ∧ (modCopy a1 a2
    s).elapsed = s.elapsed ∧ (modCopy a1 a2 s).free = s.free ∧ (modCopy a1 a2 s).pending = s.pending := by
  intros; unfold modCopy
  first
    | ((repeat' split) <;> simp; done)
    | (dsimp only; (repeat' split) <;> simp [*]; done)
    | ((repeat' apply And.intro) <;> dsimp only <;> (repeat' split) <;> simp [*]; done)

@[simp] theorem makeLate_keeps : ∀ a1 a2 s, (makeLate a1 a2 s).md = s.md ∧ (makeLate a1 a2 s).dev = s.dev ∧ (makeLate a1
    a2 s).pins = s.pins ∧ (makeLate a1 a2 s).side = s.side ∧ (makeLate a1 a2 s).prot = s.prot ∧ (makeLate a1 a2 s).mram
    = s.mram ∧ (makeLate a1 a2 s).img = s.img ∧ (makeLate a1 a2 s).lat = s.lat ∧ (makeLate a1 a2 s).tim = s.tim ∧
    (makeLate a1 a2 s).tab = s.tab ∧ (makeLate a1 a2 s).gen = s.gen ∧ (makeLate a1 a2 s).eng = s.eng ∧ (makeLate a1 a2
    s).svc = s.svc ∧ (makeLate a1 a2 s).therm = s.therm ∧ (makeLate a1 a2 s).now = s.now ∧ (makeLate a1 a2 s).elapsed =
    s.elapsed ∧ (makeLate a1 a2 s).free = s.free ∧ (makeLate a1 a2 s).pending = s.pending := by
  intros; unfold makeLate
  first
    | ((repeat' split) <;> simp; done)
    | (dsimp only; (repeat' split) <;> simp [*]; done)
    | ((repeat' apply And.intro) <;> dsimp only <;> (repeat' split) <;> simp [*]; done)

@[simp] theorem deferCopy_keeps : ∀ a1 a2 s, (deferCopy a1 a2 s).md = s.md ∧ (deferCopy a1 a2 s).dev = s.dev ∧
    (deferCopy a1 a2 s).pins = s.pins ∧ (deferCopy a1 a2 s).side = s.side ∧ (deferCopy a1 a2 s).prot = s.prot ∧
    (deferCopy a1 a2 s).mram = s.mram ∧ (deferCopy a1 a2 s).img = s.img ∧ (deferCopy a1 a2 s).host = s.host ∧ (deferCopy
    a1 a2 s).lat = s.lat ∧ (deferCopy a1 a2 s).acct = s.acct ∧ (deferCopy a1 a2 s).lk = s.lk ∧ (deferCopy a1 a2 s).tim =
    s.tim ∧ (deferCopy a1 a2 s).tab = s.tab ∧ (deferCopy a1 a2 s).gen = s.gen ∧ (deferCopy a1 a2 s).eng = s.eng ∧
    (deferCopy a1 a2 s).recd = s.recd ∧ (deferCopy a1 a2 s).pmu = s.pmu ∧ (deferCopy a1 a2 s).svc = s.svc ∧ (deferCopy
    a1 a2 s).therm = s.therm ∧ (deferCopy a1 a2 s).regs = s.regs ∧ (deferCopy a1 a2 s).hmem = s.hmem ∧ (deferCopy a1 a2
    s).now = s.now ∧ (deferCopy a1 a2 s).elapsed = s.elapsed ∧ (deferCopy a1 a2 s).free = s.free ∧ (deferCopy a1 a2
    s).pending = s.pending := by
  intros; unfold deferCopy
  first
    | ((repeat' split) <;> simp; done)
    | (dsimp only; (repeat' split) <;> simp [*]; done)
    | ((repeat' apply And.intro) <;> dsimp only <;> (repeat' split) <;> simp [*]; done)

@[simp] theorem giveWay_keeps : ∀ a1 a2 s, (giveWay a1 a2 s).md = s.md ∧ (giveWay a1 a2 s).dev = s.dev ∧ (giveWay a1 a2
    s).pins = s.pins ∧ (giveWay a1 a2 s).side = s.side ∧ (giveWay a1 a2 s).prot = s.prot ∧ (giveWay a1 a2 s).mram =
    s.mram ∧ (giveWay a1 a2 s).img = s.img ∧ (giveWay a1 a2 s).host = s.host ∧ (giveWay a1 a2 s).lat = s.lat ∧ (giveWay
    a1 a2 s).acct = s.acct ∧ (giveWay a1 a2 s).tim = s.tim ∧ (giveWay a1 a2 s).buf = s.buf ∧ (giveWay a1 a2 s).tab =
    s.tab ∧ (giveWay a1 a2 s).gen = s.gen ∧ (giveWay a1 a2 s).eng = s.eng ∧ (giveWay a1 a2 s).recd = s.recd ∧ (giveWay
    a1 a2 s).pmu = s.pmu ∧ (giveWay a1 a2 s).svc = s.svc ∧ (giveWay a1 a2 s).therm = s.therm ∧ (giveWay a1 a2 s).hmem =
    s.hmem ∧ (giveWay a1 a2 s).now = s.now ∧ (giveWay a1 a2 s).elapsed = s.elapsed ∧ (giveWay a1 a2 s).free = s.free ∧
    (giveWay a1 a2 s).pending = s.pending := by
  intros; unfold giveWay
  first
    | ((repeat' split) <;> simp; done)
    | (dsimp only; (repeat' split) <;> simp [*]; done)
    | ((repeat' apply And.intro) <;> dsimp only <;> (repeat' split) <;> simp [*]; done)

@[simp] theorem judgeRelease_keeps : ∀ a1 a2 s, (judgeRelease a1 a2 s).md = s.md ∧ (judgeRelease a1 a2 s).dev = s.dev ∧
    (judgeRelease a1 a2 s).pins = s.pins ∧ (judgeRelease a1 a2 s).side = s.side ∧ (judgeRelease a1 a2 s).prot = s.prot ∧
    (judgeRelease a1 a2 s).mram = s.mram ∧ (judgeRelease a1 a2 s).img = s.img ∧ (judgeRelease a1 a2 s).lat = s.lat ∧
    (judgeRelease a1 a2 s).tab = s.tab ∧ (judgeRelease a1 a2 s).gen = s.gen ∧ (judgeRelease a1 a2 s).eng = s.eng ∧
    (judgeRelease a1 a2 s).svc = s.svc ∧ (judgeRelease a1 a2 s).therm = s.therm ∧ (judgeRelease a1 a2 s).now = s.now ∧
    (judgeRelease a1 a2 s).elapsed = s.elapsed ∧ (judgeRelease a1 a2 s).free = s.free ∧ (judgeRelease a1 a2 s).pending =
    s.pending := by
  intros; unfold judgeRelease
  first
    | ((repeat' split) <;> simp; done)
    | (dsimp only; (repeat' split) <;> simp [*]; done)
    | ((repeat' apply And.intro) <;> dsimp only <;> (repeat' split) <;> simp [*]; done)

@[simp] theorem afterAdmission_keeps : ∀ a1 s, (afterAdmission a1 s).md = s.md ∧ (afterAdmission a1 s).dev = s.dev ∧
    (afterAdmission a1 s).pins = s.pins ∧ (afterAdmission a1 s).side = s.side ∧ (afterAdmission a1 s).prot = s.prot ∧
    (afterAdmission a1 s).mram = s.mram ∧ (afterAdmission a1 s).img = s.img ∧ (afterAdmission a1 s).host = s.host ∧
    (afterAdmission a1 s).lat = s.lat ∧ (afterAdmission a1 s).acct = s.acct ∧ (afterAdmission a1 s).lk = s.lk ∧
    (afterAdmission a1 s).tim = s.tim ∧ (afterAdmission a1 s).eg = s.eg ∧ (afterAdmission a1 s).tab = s.tab ∧
    (afterAdmission a1 s).gen = s.gen ∧ (afterAdmission a1 s).recd = s.recd ∧ (afterAdmission a1 s).pmu = s.pmu ∧
    (afterAdmission a1 s).svc = s.svc ∧ (afterAdmission a1 s).therm = s.therm ∧ (afterAdmission a1 s).regs = s.regs ∧
    (afterAdmission a1 s).hmem = s.hmem ∧ (afterAdmission a1 s).now = s.now ∧ (afterAdmission a1 s).elapsed = s.elapsed
    ∧ (afterAdmission a1 s).free = s.free ∧ (afterAdmission a1 s).pending = s.pending := by
  intros; unfold afterAdmission
  first
    | ((repeat' split) <;> simp; done)
    | (dsimp only; (repeat' split) <;> simp [*]; done)
    | ((repeat' apply And.intro) <;> dsimp only <;> (repeat' split) <;> simp [*]; done)

@[simp] theorem admitFrame_keeps : ∀ a1 a2 s, (admitFrame a1 a2 s).md = s.md ∧ (admitFrame a1 a2 s).dev = s.dev ∧
    (admitFrame a1 a2 s).pins = s.pins ∧ (admitFrame a1 a2 s).side = s.side ∧ (admitFrame a1 a2 s).prot = s.prot ∧
    (admitFrame a1 a2 s).mram = s.mram ∧ (admitFrame a1 a2 s).img = s.img ∧ (admitFrame a1 a2 s).lat = s.lat ∧
    (admitFrame a1 a2 s).tim = s.tim ∧ (admitFrame a1 a2 s).eg = s.eg ∧ (admitFrame a1 a2 s).tab = s.tab ∧ (admitFrame
    a1 a2 s).gen = s.gen ∧ (admitFrame a1 a2 s).svc = s.svc ∧ (admitFrame a1 a2 s).therm = s.therm ∧ (admitFrame a1 a2
    s).now = s.now ∧ (admitFrame a1 a2 s).elapsed = s.elapsed ∧ (admitFrame a1 a2 s).free = s.free ∧ (admitFrame a1 a2
    s).pending = s.pending := by
  intros; unfold admitFrame
  first
    | ((repeat' split) <;> simp; done)
    | (dsimp only; (repeat' split) <;> simp [*]; done)
    | ((repeat' apply And.intro) <;> dsimp only <;> (repeat' split) <;> simp [*]; done)

@[simp] theorem basinMoved_keeps : ∀ a1 s, (basinMoved a1 s).md = s.md ∧ (basinMoved a1 s).dev = s.dev ∧ (basinMoved a1
    s).pins = s.pins ∧ (basinMoved a1 s).side = s.side ∧ (basinMoved a1 s).prot = s.prot ∧ (basinMoved a1 s).mram =
    s.mram ∧ (basinMoved a1 s).img = s.img ∧ (basinMoved a1 s).host = s.host ∧ (basinMoved a1 s).lat = s.lat ∧
    (basinMoved a1 s).acct = s.acct ∧ (basinMoved a1 s).lk = s.lk ∧ (basinMoved a1 s).tim = s.tim ∧ (basinMoved a1
    s).buf = s.buf ∧ (basinMoved a1 s).eg = s.eg ∧ (basinMoved a1 s).tab = s.tab ∧ (basinMoved a1 s).gen = s.gen ∧
    (basinMoved a1 s).eng = s.eng ∧ (basinMoved a1 s).recd = s.recd ∧ (basinMoved a1 s).svc = s.svc ∧ (basinMoved a1
    s).therm = s.therm ∧ (basinMoved a1 s).hmem = s.hmem ∧ (basinMoved a1 s).now = s.now ∧ (basinMoved a1 s).elapsed =
    s.elapsed ∧ (basinMoved a1 s).free = s.free ∧ (basinMoved a1 s).pending = s.pending := by
  intros; unfold basinMoved
  first
    | ((repeat' split) <;> simp; done)
    | (dsimp only; (repeat' split) <;> simp [*]; done)
    | ((repeat' apply And.intro) <;> dsimp only <;> (repeat' split) <;> simp [*]; done)

@[simp] theorem refillBurst_keeps : ∀ a1 a2 s, (refillBurst a1 a2 s).md = s.md ∧ (refillBurst a1 a2 s).dev = s.dev ∧
    (refillBurst a1 a2 s).pins = s.pins ∧ (refillBurst a1 a2 s).side = s.side ∧ (refillBurst a1 a2 s).prot = s.prot ∧
    (refillBurst a1 a2 s).mram = s.mram ∧ (refillBurst a1 a2 s).img = s.img ∧ (refillBurst a1 a2 s).host = s.host ∧
    (refillBurst a1 a2 s).lat = s.lat ∧ (refillBurst a1 a2 s).acct = s.acct ∧ (refillBurst a1 a2 s).tim = s.tim ∧
    (refillBurst a1 a2 s).eg = s.eg ∧ (refillBurst a1 a2 s).tab = s.tab ∧ (refillBurst a1 a2 s).gen = s.gen ∧
    (refillBurst a1 a2 s).eng = s.eng ∧ (refillBurst a1 a2 s).recd = s.recd ∧ (refillBurst a1 a2 s).svc = s.svc ∧
    (refillBurst a1 a2 s).therm = s.therm ∧ (refillBurst a1 a2 s).hmem = s.hmem ∧ (refillBurst a1 a2 s).now = s.now ∧
    (refillBurst a1 a2 s).elapsed = s.elapsed ∧ (refillBurst a1 a2 s).pending = s.pending := by
  intros; unfold refillBurst
  first
    | ((repeat' split) <;> simp; done)
    | (dsimp only; (repeat' split) <;> simp [*]; done)
    | ((repeat' apply And.intro) <;> dsimp only <;> (repeat' split) <;> simp [*]; done)

@[simp] theorem expireInOrder_keeps : ∀ a1 s, (expireInOrder a1 s).md = s.md ∧ (expireInOrder a1 s).dev = s.dev ∧
    (expireInOrder a1 s).pins = s.pins ∧ (expireInOrder a1 s).side = s.side ∧ (expireInOrder a1 s).prot = s.prot ∧
    (expireInOrder a1 s).mram = s.mram ∧ (expireInOrder a1 s).img = s.img ∧ (expireInOrder a1 s).lat = s.lat ∧
    (expireInOrder a1 s).lk = s.lk ∧ (expireInOrder a1 s).tim = s.tim ∧ (expireInOrder a1 s).eg = s.eg ∧ (expireInOrder
    a1 s).tab = s.tab ∧ (expireInOrder a1 s).gen = s.gen ∧ (expireInOrder a1 s).eng = s.eng ∧ (expireInOrder a1 s).svc =
    s.svc ∧ (expireInOrder a1 s).therm = s.therm ∧ (expireInOrder a1 s).now = s.now ∧ (expireInOrder a1 s).elapsed =
    s.elapsed ∧ (expireInOrder a1 s).free = s.free ∧ (expireInOrder a1 s).pending = s.pending := by
  intros; unfold expireInOrder
  first
    | ((repeat' split) <;> simp; done)
    | (dsimp only; (repeat' split) <;> simp [*]; done)
    | ((repeat' apply And.intro) <;> dsimp only <;> (repeat' split) <;> simp [*]; done)

@[simp] theorem expireFrame_keeps : ∀ a1 s, (expireFrame a1 s).md = s.md ∧ (expireFrame a1 s).dev = s.dev ∧ (expireFrame
    a1 s).pins = s.pins ∧ (expireFrame a1 s).side = s.side ∧ (expireFrame a1 s).prot = s.prot ∧ (expireFrame a1 s).mram
    = s.mram ∧ (expireFrame a1 s).img = s.img ∧ (expireFrame a1 s).lat = s.lat ∧ (expireFrame a1 s).tim = s.tim ∧
    (expireFrame a1 s).tab = s.tab ∧ (expireFrame a1 s).gen = s.gen ∧ (expireFrame a1 s).svc = s.svc ∧ (expireFrame a1
    s).therm = s.therm ∧ (expireFrame a1 s).now = s.now ∧ (expireFrame a1 s).elapsed = s.elapsed ∧ (expireFrame a1
    s).free = s.free ∧ (expireFrame a1 s).pending = s.pending := by
  intros; unfold expireFrame
  first
    | ((repeat' split) <;> simp; done)
    | (dsimp only; (repeat' split) <;> simp [*]; done)
    | ((repeat' apply And.intro) <;> dsimp only <;> (repeat' split) <;> simp [*]; done)

@[simp] theorem leak_keeps : ∀ a1 a2 a3 s, (leak a1 a2 a3 s).md = s.md ∧ (leak a1 a2 a3 s).dev = s.dev ∧ (leak a1 a2 a3
    s).pins = s.pins ∧ (leak a1 a2 a3 s).side = s.side ∧ (leak a1 a2 a3 s).prot = s.prot ∧ (leak a1 a2 a3 s).mram =
    s.mram ∧ (leak a1 a2 a3 s).img = s.img ∧ (leak a1 a2 a3 s).lat = s.lat ∧ (leak a1 a2 a3 s).acct = s.acct ∧ (leak a1
    a2 a3 s).lk = s.lk ∧ (leak a1 a2 a3 s).tim = s.tim ∧ (leak a1 a2 a3 s).eg = s.eg ∧ (leak a1 a2 a3 s).tab = s.tab ∧
    (leak a1 a2 a3 s).gen = s.gen ∧ (leak a1 a2 a3 s).eng = s.eng ∧ (leak a1 a2 a3 s).recd = s.recd ∧ (leak a1 a2 a3
    s).pmu = s.pmu ∧ (leak a1 a2 a3 s).svc = s.svc ∧ (leak a1 a2 a3 s).therm = s.therm ∧ (leak a1 a2 a3 s).hmem = s.hmem
    ∧ (leak a1 a2 a3 s).now = s.now ∧ (leak a1 a2 a3 s).elapsed = s.elapsed ∧ (leak a1 a2 a3 s).free = s.free ∧ (leak a1
    a2 a3 s).pending = s.pending := by
  intros; unfold leak
  first
    | ((repeat' split) <;> simp; done)
    | (dsimp only; (repeat' split) <;> simp [*]; done)
    | ((repeat' apply And.intro) <;> dsimp only <;> (repeat' split) <;> simp [*]; done)

@[simp] theorem riderVisit_keeps : ∀ a1 a2 s, (riderVisit a1 a2 s).md = s.md ∧ (riderVisit a1 a2 s).dev = s.dev ∧
    (riderVisit a1 a2 s).pins = s.pins ∧ (riderVisit a1 a2 s).side = s.side ∧ (riderVisit a1 a2 s).prot = s.prot ∧
    (riderVisit a1 a2 s).mram = s.mram ∧ (riderVisit a1 a2 s).img = s.img ∧ (riderVisit a1 a2 s).lat = s.lat ∧
    (riderVisit a1 a2 s).acct = s.acct ∧ (riderVisit a1 a2 s).lk = s.lk ∧ (riderVisit a1 a2 s).tim = s.tim ∧ (riderVisit
    a1 a2 s).eg = s.eg ∧ (riderVisit a1 a2 s).tab = s.tab ∧ (riderVisit a1 a2 s).gen = s.gen ∧ (riderVisit a1 a2 s).eng
    = s.eng ∧ (riderVisit a1 a2 s).recd = s.recd ∧ (riderVisit a1 a2 s).pmu = s.pmu ∧ (riderVisit a1 a2 s).svc = s.svc ∧
    (riderVisit a1 a2 s).therm = s.therm ∧ (riderVisit a1 a2 s).hmem = s.hmem ∧ (riderVisit a1 a2 s).now = s.now ∧
    (riderVisit a1 a2 s).elapsed = s.elapsed ∧ (riderVisit a1 a2 s).free = s.free ∧ (riderVisit a1 a2 s).pending =
    s.pending := by
  intros; unfold riderVisit
  first
    | ((repeat' split) <;> simp; done)
    | (dsimp only; (repeat' split) <;> simp [*]; done)
    | ((repeat' apply And.intro) <;> dsimp only <;> (repeat' split) <;> simp [*]; done)

@[simp] theorem snapshot_keeps : ∀ s, (snapshot s).dev = s.dev ∧ (snapshot s).prot = s.prot ∧ (snapshot s).img = s.img ∧
    (snapshot s).lat = s.lat ∧ (snapshot s).tim = s.tim ∧ (snapshot s).gen = s.gen ∧ (snapshot s).therm = s.therm ∧
    (snapshot s).now = s.now ∧ (snapshot s).elapsed = s.elapsed ∧ (snapshot s).free = s.free ∧ (snapshot s).pending =
    s.pending := by
  intros; unfold snapshot
  first
    | ((repeat' split) <;> simp; done)
    | (dsimp only; (repeat' split) <;> simp [*]; done)
    | ((repeat' apply And.intro) <;> dsimp only <;> (repeat' split) <;> simp [*]; done)

@[simp] theorem reclaimedCopy_keeps : ∀ a1 a2 s, (reclaimedCopy a1 a2 s).md = s.md ∧ (reclaimedCopy a1 a2 s).dev = s.dev
    ∧ (reclaimedCopy a1 a2 s).pins = s.pins ∧ (reclaimedCopy a1 a2 s).side = s.side ∧ (reclaimedCopy a1 a2 s).prot =
    s.prot ∧ (reclaimedCopy a1 a2 s).mram = s.mram ∧ (reclaimedCopy a1 a2 s).img = s.img ∧ (reclaimedCopy a1 a2 s).host
    = s.host ∧ (reclaimedCopy a1 a2 s).lat = s.lat ∧ (reclaimedCopy a1 a2 s).acct = s.acct ∧ (reclaimedCopy a1 a2 s).lk
    = s.lk ∧ (reclaimedCopy a1 a2 s).tim = s.tim ∧ (reclaimedCopy a1 a2 s).buf = s.buf ∧ (reclaimedCopy a1 a2 s).eg =
    s.eg ∧ (reclaimedCopy a1 a2 s).tab = s.tab ∧ (reclaimedCopy a1 a2 s).gen = s.gen ∧ (reclaimedCopy a1 a2 s).eng =
    s.eng ∧ (reclaimedCopy a1 a2 s).recd = s.recd ∧ (reclaimedCopy a1 a2 s).pmu = s.pmu ∧ (reclaimedCopy a1 a2 s).svc =
    s.svc ∧ (reclaimedCopy a1 a2 s).therm = s.therm ∧ (reclaimedCopy a1 a2 s).hmem = s.hmem ∧ (reclaimedCopy a1 a2
    s).now = s.now ∧ (reclaimedCopy a1 a2 s).elapsed = s.elapsed ∧ (reclaimedCopy a1 a2 s).free = s.free ∧
    (reclaimedCopy a1 a2 s).pending = s.pending := by
  intros; unfold reclaimedCopy
  first
    | ((repeat' split) <;> simp; done)
    | (dsimp only; (repeat' split) <;> simp [*]; done)
    | ((repeat' apply And.intro) <;> dsimp only <;> (repeat' split) <;> simp [*]; done)

@[simp] theorem putStaged_keeps : ∀ a1 a2 s, (putStaged a1 a2 s).md = s.md ∧ (putStaged a1 a2 s).dev = s.dev ∧
    (putStaged a1 a2 s).pins = s.pins ∧ (putStaged a1 a2 s).side = s.side ∧ (putStaged a1 a2 s).prot = s.prot ∧
    (putStaged a1 a2 s).mram = s.mram ∧ (putStaged a1 a2 s).img = s.img ∧ (putStaged a1 a2 s).host = s.host ∧ (putStaged
    a1 a2 s).lat = s.lat ∧ (putStaged a1 a2 s).acct = s.acct ∧ (putStaged a1 a2 s).lk = s.lk ∧ (putStaged a1 a2 s).tim =
    s.tim ∧ (putStaged a1 a2 s).buf = s.buf ∧ (putStaged a1 a2 s).eg = s.eg ∧ (putStaged a1 a2 s).tab = s.tab ∧
    (putStaged a1 a2 s).gen = s.gen ∧ (putStaged a1 a2 s).eng = s.eng ∧ (putStaged a1 a2 s).recd = s.recd ∧ (putStaged
    a1 a2 s).pmu = s.pmu ∧ (putStaged a1 a2 s).svc = s.svc ∧ (putStaged a1 a2 s).therm = s.therm ∧ (putStaged a1 a2
    s).hmem = s.hmem ∧ (putStaged a1 a2 s).now = s.now ∧ (putStaged a1 a2 s).elapsed = s.elapsed ∧ (putStaged a1 a2
    s).free = s.free ∧ (putStaged a1 a2 s).pending = s.pending := by
  intros; unfold putStaged
  first
    | ((repeat' split) <;> simp; done)
    | (dsimp only; (repeat' split) <;> simp [*]; done)
    | ((repeat' apply And.intro) <;> dsimp only <;> (repeat' split) <;> simp [*]; done)

@[simp] theorem useStaged_keeps : ∀ s, (useStaged s).md = s.md ∧ (useStaged s).dev = s.dev ∧ (useStaged s).pins = s.pins
    ∧ (useStaged s).side = s.side ∧ (useStaged s).prot = s.prot ∧ (useStaged s).mram = s.mram ∧ (useStaged s).img =
    s.img ∧ (useStaged s).host = s.host ∧ (useStaged s).lat = s.lat ∧ (useStaged s).acct = s.acct ∧ (useStaged s).lk =
    s.lk ∧ (useStaged s).tim = s.tim ∧ (useStaged s).buf = s.buf ∧ (useStaged s).eg = s.eg ∧ (useStaged s).tab = s.tab ∧
    (useStaged s).gen = s.gen ∧ (useStaged s).eng = s.eng ∧ (useStaged s).recd = s.recd ∧ (useStaged s).pmu = s.pmu ∧
    (useStaged s).svc = s.svc ∧ (useStaged s).therm = s.therm ∧ (useStaged s).hmem = s.hmem ∧ (useStaged s).now = s.now
    ∧ (useStaged s).elapsed = s.elapsed ∧ (useStaged s).free = s.free ∧ (useStaged s).pending = s.pending := by
  intros; unfold useStaged
  first
    | ((repeat' split) <;> simp; done)
    | (dsimp only; (repeat' split) <;> simp [*]; done)
    | ((repeat' apply And.intro) <;> dsimp only <;> (repeat' split) <;> simp [*]; done)

@[simp] theorem setQuadMode_keeps : ∀ a1 s, (setQuadMode a1 s).md = s.md ∧ (setQuadMode a1 s).dev = s.dev ∧ (setQuadMode
    a1 s).pins = s.pins ∧ (setQuadMode a1 s).side = s.side ∧ (setQuadMode a1 s).prot = s.prot ∧ (setQuadMode a1 s).mram
    = s.mram ∧ (setQuadMode a1 s).img = s.img ∧ (setQuadMode a1 s).host = s.host ∧ (setQuadMode a1 s).lat = s.lat ∧
    (setQuadMode a1 s).acct = s.acct ∧ (setQuadMode a1 s).tim = s.tim ∧ (setQuadMode a1 s).buf = s.buf ∧ (setQuadMode a1
    s).eg = s.eg ∧ (setQuadMode a1 s).tab = s.tab ∧ (setQuadMode a1 s).gen = s.gen ∧ (setQuadMode a1 s).eng = s.eng ∧
    (setQuadMode a1 s).recd = s.recd ∧ (setQuadMode a1 s).pmu = s.pmu ∧ (setQuadMode a1 s).svc = s.svc ∧ (setQuadMode a1
    s).therm = s.therm ∧ (setQuadMode a1 s).regs = s.regs ∧ (setQuadMode a1 s).hmem = s.hmem ∧ (setQuadMode a1 s).now =
    s.now ∧ (setQuadMode a1 s).elapsed = s.elapsed ∧ (setQuadMode a1 s).free = s.free ∧ (setQuadMode a1 s).pending =
    s.pending := by
  intros; unfold setQuadMode
  first
    | ((repeat' split) <;> simp; done)
    | (dsimp only; (repeat' split) <;> simp [*]; done)
    | ((repeat' apply And.intro) <;> dsimp only <;> (repeat' split) <;> simp [*]; done)

@[simp] theorem setModes_keeps : ∀ s, (setModes s).md = s.md ∧ (setModes s).dev = s.dev ∧ (setModes s).pins = s.pins ∧
    (setModes s).side = s.side ∧ (setModes s).prot = s.prot ∧ (setModes s).mram = s.mram ∧ (setModes s).img = s.img ∧
    (setModes s).host = s.host ∧ (setModes s).lat = s.lat ∧ (setModes s).acct = s.acct ∧ (setModes s).tim = s.tim ∧
    (setModes s).buf = s.buf ∧ (setModes s).eg = s.eg ∧ (setModes s).tab = s.tab ∧ (setModes s).gen = s.gen ∧ (setModes
    s).eng = s.eng ∧ (setModes s).recd = s.recd ∧ (setModes s).pmu = s.pmu ∧ (setModes s).svc = s.svc ∧ (setModes
    s).therm = s.therm ∧ (setModes s).regs = s.regs ∧ (setModes s).hmem = s.hmem ∧ (setModes s).now = s.now ∧ (setModes
    s).elapsed = s.elapsed ∧ (setModes s).free = s.free ∧ (setModes s).pending = s.pending := by
  intros; unfold setModes
  first
    | ((repeat' split) <;> simp; done)
    | (dsimp only; (repeat' split) <;> simp [*]; done)
    | ((repeat' apply And.intro) <;> dsimp only <;> (repeat' split) <;> simp [*]; done)

@[simp] theorem setHeadroom_keeps : ∀ a1 s, (setHeadroom a1 s).md = s.md ∧ (setHeadroom a1 s).dev = s.dev ∧ (setHeadroom
    a1 s).pins = s.pins ∧ (setHeadroom a1 s).side = s.side ∧ (setHeadroom a1 s).prot = s.prot ∧ (setHeadroom a1 s).mram
    = s.mram ∧ (setHeadroom a1 s).img = s.img ∧ (setHeadroom a1 s).host = s.host ∧ (setHeadroom a1 s).lat = s.lat ∧
    (setHeadroom a1 s).acct = s.acct ∧ (setHeadroom a1 s).tim = s.tim ∧ (setHeadroom a1 s).buf = s.buf ∧ (setHeadroom a1
    s).eg = s.eg ∧ (setHeadroom a1 s).tab = s.tab ∧ (setHeadroom a1 s).gen = s.gen ∧ (setHeadroom a1 s).eng = s.eng ∧
    (setHeadroom a1 s).recd = s.recd ∧ (setHeadroom a1 s).pmu = s.pmu ∧ (setHeadroom a1 s).svc = s.svc ∧ (setHeadroom a1
    s).therm = s.therm ∧ (setHeadroom a1 s).regs = s.regs ∧ (setHeadroom a1 s).hmem = s.hmem ∧ (setHeadroom a1 s).now =
    s.now ∧ (setHeadroom a1 s).elapsed = s.elapsed ∧ (setHeadroom a1 s).free = s.free ∧ (setHeadroom a1 s).pending =
    s.pending := by
  intros; unfold setHeadroom
  first
    | ((repeat' split) <;> simp; done)
    | (dsimp only; (repeat' split) <;> simp [*]; done)
    | ((repeat' apply And.intro) <;> dsimp only <;> (repeat' split) <;> simp [*]; done)

@[simp] theorem setHeadrooms_keeps : ∀ s, (setHeadrooms s).md = s.md ∧ (setHeadrooms s).dev = s.dev ∧ (setHeadrooms
    s).pins = s.pins ∧ (setHeadrooms s).side = s.side ∧ (setHeadrooms s).prot = s.prot ∧ (setHeadrooms s).mram = s.mram
    ∧ (setHeadrooms s).img = s.img ∧ (setHeadrooms s).host = s.host ∧ (setHeadrooms s).lat = s.lat ∧ (setHeadrooms
    s).acct = s.acct ∧ (setHeadrooms s).tim = s.tim ∧ (setHeadrooms s).buf = s.buf ∧ (setHeadrooms s).eg = s.eg ∧
    (setHeadrooms s).tab = s.tab ∧ (setHeadrooms s).gen = s.gen ∧ (setHeadrooms s).eng = s.eng ∧ (setHeadrooms s).recd =
    s.recd ∧ (setHeadrooms s).pmu = s.pmu ∧ (setHeadrooms s).svc = s.svc ∧ (setHeadrooms s).therm = s.therm ∧
    (setHeadrooms s).regs = s.regs ∧ (setHeadrooms s).hmem = s.hmem ∧ (setHeadrooms s).now = s.now ∧ (setHeadrooms
    s).elapsed = s.elapsed ∧ (setHeadrooms s).free = s.free ∧ (setHeadrooms s).pending = s.pending := by
  intros; unfold setHeadrooms
  first
    | ((repeat' split) <;> simp; done)
    | (dsimp only; (repeat' split) <;> simp [*]; done)
    | ((repeat' apply And.intro) <;> dsimp only <;> (repeat' split) <;> simp [*]; done)

@[simp] theorem trial_keeps : ∀ s, (trial s).md = s.md ∧ (trial s).dev = s.dev ∧ (trial s).pins = s.pins ∧ (trial
    s).side = s.side ∧ (trial s).prot = s.prot ∧ (trial s).mram = s.mram ∧ (trial s).img = s.img ∧ (trial s).host =
    s.host ∧ (trial s).lat = s.lat ∧ (trial s).acct = s.acct ∧ (trial s).tim = s.tim ∧ (trial s).buf = s.buf ∧ (trial
    s).eg = s.eg ∧ (trial s).tab = s.tab ∧ (trial s).gen = s.gen ∧ (trial s).eng = s.eng ∧ (trial s).recd = s.recd ∧
    (trial s).pmu = s.pmu ∧ (trial s).svc = s.svc ∧ (trial s).therm = s.therm ∧ (trial s).hmem = s.hmem ∧ (trial s).now
    = s.now ∧ (trial s).elapsed = s.elapsed ∧ (trial s).free = s.free ∧ (trial s).pending = s.pending := by
  intros; unfold trial
  first
    | ((repeat' split) <;> simp; done)
    | (dsimp only; (repeat' split) <;> simp [*]; done)
    | ((repeat' apply And.intro) <;> dsimp only <;> (repeat' split) <;> simp [*]; done)

@[simp] theorem report_keeps : ∀ a1 a2 a3 s, (report a1 a2 a3 s).md = s.md ∧ (report a1 a2 a3 s).dev = s.dev ∧ (report
    a1 a2 a3 s).pins = s.pins ∧ (report a1 a2 a3 s).side = s.side ∧ (report a1 a2 a3 s).prot = s.prot ∧ (report a1 a2 a3
    s).mram = s.mram ∧ (report a1 a2 a3 s).img = s.img ∧ (report a1 a2 a3 s).lat = s.lat ∧ (report a1 a2 a3 s).acct =
    s.acct ∧ (report a1 a2 a3 s).lk = s.lk ∧ (report a1 a2 a3 s).tim = s.tim ∧ (report a1 a2 a3 s).buf = s.buf ∧ (report
    a1 a2 a3 s).eg = s.eg ∧ (report a1 a2 a3 s).tab = s.tab ∧ (report a1 a2 a3 s).gen = s.gen ∧ (report a1 a2 a3 s).eng
    = s.eng ∧ (report a1 a2 a3 s).recd = s.recd ∧ (report a1 a2 a3 s).pmu = s.pmu ∧ (report a1 a2 a3 s).svc = s.svc ∧
    (report a1 a2 a3 s).therm = s.therm ∧ (report a1 a2 a3 s).hmem = s.hmem ∧ (report a1 a2 a3 s).now = s.now ∧ (report
    a1 a2 a3 s).elapsed = s.elapsed ∧ (report a1 a2 a3 s).free = s.free ∧ (report a1 a2 a3 s).pending = s.pending := by
  intros; simp [report]

@[simp] theorem reportAll_keeps : ∀ a1 a2 a3 a4 s, (reportAll a1 a2 a3 a4 s).md = s.md ∧ (reportAll a1 a2 a3 a4 s).dev =
    s.dev ∧ (reportAll a1 a2 a3 a4 s).pins = s.pins ∧ (reportAll a1 a2 a3 a4 s).side = s.side ∧ (reportAll a1 a2 a3 a4
    s).prot = s.prot ∧ (reportAll a1 a2 a3 a4 s).mram = s.mram ∧ (reportAll a1 a2 a3 a4 s).img = s.img ∧ (reportAll a1
    a2 a3 a4 s).lat = s.lat ∧ (reportAll a1 a2 a3 a4 s).acct = s.acct ∧ (reportAll a1 a2 a3 a4 s).lk = s.lk ∧ (reportAll
    a1 a2 a3 a4 s).tim = s.tim ∧ (reportAll a1 a2 a3 a4 s).buf = s.buf ∧ (reportAll a1 a2 a3 a4 s).eg = s.eg ∧
    (reportAll a1 a2 a3 a4 s).tab = s.tab ∧ (reportAll a1 a2 a3 a4 s).gen = s.gen ∧ (reportAll a1 a2 a3 a4 s).eng =
    s.eng ∧ (reportAll a1 a2 a3 a4 s).recd = s.recd ∧ (reportAll a1 a2 a3 a4 s).pmu = s.pmu ∧ (reportAll a1 a2 a3 a4
    s).svc = s.svc ∧ (reportAll a1 a2 a3 a4 s).therm = s.therm ∧ (reportAll a1 a2 a3 a4 s).hmem = s.hmem ∧ (reportAll a1
    a2 a3 a4 s).now = s.now ∧ (reportAll a1 a2 a3 a4 s).elapsed = s.elapsed ∧ (reportAll a1 a2 a3 a4 s).free = s.free ∧
    (reportAll a1 a2 a3 a4 s).pending = s.pending := by
  intros; unfold reportAll
  first
    | ((repeat' split) <;> simp; done)
    | (dsimp only; (repeat' split) <;> simp [*]; done)
    | ((repeat' apply And.intro) <;> dsimp only <;> (repeat' split) <;> simp [*]; done)

@[simp] theorem setUnit_keeps : ∀ a1 a2 a3 s, (setUnit a1 a2 a3 s).md = s.md ∧ (setUnit a1 a2 a3 s).dev = s.dev ∧
    (setUnit a1 a2 a3 s).pins = s.pins ∧ (setUnit a1 a2 a3 s).side = s.side ∧ (setUnit a1 a2 a3 s).prot = s.prot ∧
    (setUnit a1 a2 a3 s).mram = s.mram ∧ (setUnit a1 a2 a3 s).img = s.img ∧ (setUnit a1 a2 a3 s).lat = s.lat ∧ (setUnit
    a1 a2 a3 s).acct = s.acct ∧ (setUnit a1 a2 a3 s).lk = s.lk ∧ (setUnit a1 a2 a3 s).tim = s.tim ∧ (setUnit a1 a2 a3
    s).buf = s.buf ∧ (setUnit a1 a2 a3 s).eg = s.eg ∧ (setUnit a1 a2 a3 s).tab = s.tab ∧ (setUnit a1 a2 a3 s).gen =
    s.gen ∧ (setUnit a1 a2 a3 s).eng = s.eng ∧ (setUnit a1 a2 a3 s).recd = s.recd ∧ (setUnit a1 a2 a3 s).pmu = s.pmu ∧
    (setUnit a1 a2 a3 s).therm = s.therm ∧ (setUnit a1 a2 a3 s).hmem = s.hmem ∧ (setUnit a1 a2 a3 s).now = s.now ∧
    (setUnit a1 a2 a3 s).elapsed = s.elapsed ∧ (setUnit a1 a2 a3 s).free = s.free ∧ (setUnit a1 a2 a3 s).pending =
    s.pending := by
  intros; unfold setUnit
  first
    | ((repeat' split) <;> simp; done)
    | (dsimp only; (repeat' split) <;> simp [*]; done)
    | ((repeat' apply And.intro) <;> dsimp only <;> (repeat' split) <;> simp [*]; done)

@[simp] theorem addTransition_keeps : ∀ a1 s, (addTransition a1 s).md = s.md ∧ (addTransition a1 s).dev = s.dev ∧
    (addTransition a1 s).pins = s.pins ∧ (addTransition a1 s).side = s.side ∧ (addTransition a1 s).prot = s.prot ∧
    (addTransition a1 s).mram = s.mram ∧ (addTransition a1 s).img = s.img ∧ (addTransition a1 s).host = s.host ∧
    (addTransition a1 s).lat = s.lat ∧ (addTransition a1 s).acct = s.acct ∧ (addTransition a1 s).lk = s.lk ∧
    (addTransition a1 s).tim = s.tim ∧ (addTransition a1 s).buf = s.buf ∧ (addTransition a1 s).eg = s.eg ∧
    (addTransition a1 s).tab = s.tab ∧ (addTransition a1 s).gen = s.gen ∧ (addTransition a1 s).eng = s.eng ∧
    (addTransition a1 s).recd = s.recd ∧ (addTransition a1 s).pmu = s.pmu ∧ (addTransition a1 s).therm = s.therm ∧
    (addTransition a1 s).regs = s.regs ∧ (addTransition a1 s).hmem = s.hmem ∧ (addTransition a1 s).now = s.now ∧
    (addTransition a1 s).elapsed = s.elapsed ∧ (addTransition a1 s).free = s.free ∧ (addTransition a1 s).pending =
    s.pending := by
  intros; unfold addTransition
  first
    | ((repeat' split) <;> simp; done)
    | (dsimp only; (repeat' split) <;> simp [*]; done)
    | ((repeat' apply And.intro) <;> dsimp only <;> (repeat' split) <;> simp [*]; done)

@[simp] theorem endTransition_keeps : ∀ a1 a2 s, (endTransition a1 a2 s).md = s.md ∧ (endTransition a1 a2 s).dev = s.dev
    ∧ (endTransition a1 a2 s).pins = s.pins ∧ (endTransition a1 a2 s).side = s.side ∧ (endTransition a1 a2 s).prot =
    s.prot ∧ (endTransition a1 a2 s).mram = s.mram ∧ (endTransition a1 a2 s).img = s.img ∧ (endTransition a1 a2 s).host
    = s.host ∧ (endTransition a1 a2 s).lat = s.lat ∧ (endTransition a1 a2 s).acct = s.acct ∧ (endTransition a1 a2 s).lk
    = s.lk ∧ (endTransition a1 a2 s).tim = s.tim ∧ (endTransition a1 a2 s).buf = s.buf ∧ (endTransition a1 a2 s).eg =
    s.eg ∧ (endTransition a1 a2 s).tab = s.tab ∧ (endTransition a1 a2 s).gen = s.gen ∧ (endTransition a1 a2 s).eng =
    s.eng ∧ (endTransition a1 a2 s).recd = s.recd ∧ (endTransition a1 a2 s).pmu = s.pmu ∧ (endTransition a1 a2 s).therm
    = s.therm ∧ (endTransition a1 a2 s).regs = s.regs ∧ (endTransition a1 a2 s).hmem = s.hmem ∧ (endTransition a1 a2
    s).now = s.now ∧ (endTransition a1 a2 s).elapsed = s.elapsed ∧ (endTransition a1 a2 s).free = s.free ∧
    (endTransition a1 a2 s).pending = s.pending := by
  intros; unfold endTransition
  first
    | ((repeat' split) <;> simp; done)
    | (dsimp only; (repeat' split) <;> simp [*]; done)
    | ((repeat' apply And.intro) <;> dsimp only <;> (repeat' split) <;> simp [*]; done)

@[simp] theorem portGone_keeps : ∀ a1 s, (portGone a1 s).md = s.md ∧ (portGone a1 s).dev = s.dev ∧ (portGone a1 s).pins
    = s.pins ∧ (portGone a1 s).side = s.side ∧ (portGone a1 s).prot = s.prot ∧ (portGone a1 s).mram = s.mram ∧ (portGone
    a1 s).img = s.img ∧ (portGone a1 s).lat = s.lat ∧ (portGone a1 s).tim = s.tim ∧ (portGone a1 s).gen = s.gen ∧
    (portGone a1 s).eng = s.eng ∧ (portGone a1 s).svc = s.svc ∧ (portGone a1 s).therm = s.therm ∧ (portGone a1 s).now =
    s.now ∧ (portGone a1 s).elapsed = s.elapsed ∧ (portGone a1 s).free = s.free ∧ (portGone a1 s).pending = s.pending :=
    by
  intros; unfold portGone
  first
    | ((repeat' split) <;> simp; done)
    | (dsimp only; (repeat' split) <;> simp [*]; done)
    | ((repeat' apply And.intro) <;> dsimp only <;> (repeat' split) <;> simp [*]; done)

@[simp] theorem quadGone_keeps : ∀ a1 s, (quadGone a1 s).md = s.md ∧ (quadGone a1 s).dev = s.dev ∧ (quadGone a1 s).pins
    = s.pins ∧ (quadGone a1 s).side = s.side ∧ (quadGone a1 s).prot = s.prot ∧ (quadGone a1 s).mram = s.mram ∧ (quadGone
    a1 s).img = s.img ∧ (quadGone a1 s).lat = s.lat ∧ (quadGone a1 s).tim = s.tim ∧ (quadGone a1 s).gen = s.gen ∧
    (quadGone a1 s).eng = s.eng ∧ (quadGone a1 s).svc = s.svc ∧ (quadGone a1 s).therm = s.therm ∧ (quadGone a1 s).now =
    s.now ∧ (quadGone a1 s).elapsed = s.elapsed ∧ (quadGone a1 s).free = s.free ∧ (quadGone a1 s).pending = s.pending :=
    by
  intros; unfold quadGone
  first
    | ((repeat' split) <;> simp; done)
    | (dsimp only; (repeat' split) <;> simp [*]; done)
    | ((repeat' apply And.intro) <;> dsimp only <;> (repeat' split) <;> simp [*]; done)

@[simp] theorem laneGone_keeps : ∀ a1 s, (laneGone a1 s).md = s.md ∧ (laneGone a1 s).dev = s.dev ∧ (laneGone a1 s).pins
    = s.pins ∧ (laneGone a1 s).side = s.side ∧ (laneGone a1 s).prot = s.prot ∧ (laneGone a1 s).mram = s.mram ∧ (laneGone
    a1 s).img = s.img ∧ (laneGone a1 s).lat = s.lat ∧ (laneGone a1 s).tim = s.tim ∧ (laneGone a1 s).gen = s.gen ∧
    (laneGone a1 s).eng = s.eng ∧ (laneGone a1 s).svc = s.svc ∧ (laneGone a1 s).therm = s.therm ∧ (laneGone a1 s).now =
    s.now ∧ (laneGone a1 s).elapsed = s.elapsed ∧ (laneGone a1 s).free = s.free ∧ (laneGone a1 s).pending = s.pending :=
    by
  intros; unfold laneGone
  first
    | ((repeat' split) <;> simp; done)
    | (dsimp only; (repeat' split) <;> simp [*]; done)
    | ((repeat' apply And.intro) <;> dsimp only <;> (repeat' split) <;> simp [*]; done)

@[simp] theorem unitShift_keeps : ∀ old a b c s, (unitShift old a b c s).md = s.md ∧ (unitShift old a b c s).dev = s.dev
    ∧ (unitShift old a b c s).pins = s.pins ∧ (unitShift old a b c s).side = s.side ∧ (unitShift old a b c s).prot =
    s.prot ∧ (unitShift old a b c s).mram = s.mram ∧ (unitShift old a b c s).img = s.img ∧ (unitShift old a b c s).lat =
    s.lat ∧ (unitShift old a b c s).tim = s.tim ∧ (unitShift old a b c s).gen = s.gen ∧ (unitShift old a b c s).eng =
    s.eng ∧ (unitShift old a b c s).svc = s.svc ∧ (unitShift old a b c s).therm = s.therm ∧ (unitShift old a b c s).now
    = s.now ∧ (unitShift old a b c s).elapsed = s.elapsed ∧ (unitShift old a b c s).free = s.free ∧ (unitShift old a b c
    s).pending = s.pending := by
  intros; unfold unitShift; first | ((repeat' split) <;> simp; done) | (dsimp only; (repeat' split) <;> simp [*]; done)

@[simp] theorem unitShifts_keeps : ∀ old a b c s, (unitShifts old a b c s).md = s.md ∧ (unitShifts old a b c s).dev =
    s.dev ∧ (unitShifts old a b c s).pins = s.pins ∧ (unitShifts old a b c s).side = s.side ∧ (unitShifts old a b c
    s).prot = s.prot ∧ (unitShifts old a b c s).mram = s.mram ∧ (unitShifts old a b c s).img = s.img ∧ (unitShifts old a
    b c s).lat = s.lat ∧ (unitShifts old a b c s).tim = s.tim ∧ (unitShifts old a b c s).gen = s.gen ∧ (unitShifts old a
    b c s).eng = s.eng ∧ (unitShifts old a b c s).svc = s.svc ∧ (unitShifts old a b c s).therm = s.therm ∧ (unitShifts
    old a b c s).now = s.now ∧ (unitShifts old a b c s).elapsed = s.elapsed ∧ (unitShifts old a b c s).free = s.free ∧
    (unitShifts old a b c s).pending = s.pending := by
  intros; unfold unitShifts; first | ((repeat' split) <;> simp; done) | (dsimp only; (repeat' split) <;> simp [*]; done)

@[simp] theorem answerTransition_keeps : ∀ a1 a2 a3 s, (answerTransition a1 a2 a3 s).md = s.md ∧ (answerTransition a1 a2
    a3 s).dev = s.dev ∧ (answerTransition a1 a2 a3 s).pins = s.pins ∧ (answerTransition a1 a2 a3 s).side = s.side ∧
    (answerTransition a1 a2 a3 s).prot = s.prot ∧ (answerTransition a1 a2 a3 s).mram = s.mram ∧ (answerTransition a1 a2
    a3 s).lat = s.lat ∧ (answerTransition a1 a2 a3 s).acct = s.acct ∧ (answerTransition a1 a2 a3 s).lk = s.lk ∧
    (answerTransition a1 a2 a3 s).tim = s.tim ∧ (answerTransition a1 a2 a3 s).buf = s.buf ∧ (answerTransition a1 a2 a3
    s).eg = s.eg ∧ (answerTransition a1 a2 a3 s).gen = s.gen ∧ (answerTransition a1 a2 a3 s).eng = s.eng ∧
    (answerTransition a1 a2 a3 s).recd = s.recd ∧ (answerTransition a1 a2 a3 s).svc = s.svc ∧ (answerTransition a1 a2 a3
    s).therm = s.therm ∧ (answerTransition a1 a2 a3 s).now = s.now ∧ (answerTransition a1 a2 a3 s).elapsed = s.elapsed ∧
    (answerTransition a1 a2 a3 s).free = s.free ∧ (answerTransition a1 a2 a3 s).pending = s.pending := by
  intros; unfold answerTransition
  first
    | ((repeat' split) <;> simp; done)
    | (dsimp only; (repeat' split) <;> simp [*]; done)
    | ((repeat' apply And.intro) <;> dsimp only <;> (repeat' split) <;> simp [*]; done)

@[simp] theorem stopPrbs_keeps : ∀ a1 s, (stopPrbs a1 s).md = s.md ∧ (stopPrbs a1 s).dev = s.dev ∧ (stopPrbs a1 s).pins
    = s.pins ∧ (stopPrbs a1 s).side = s.side ∧ (stopPrbs a1 s).prot = s.prot ∧ (stopPrbs a1 s).mram = s.mram ∧ (stopPrbs
    a1 s).img = s.img ∧ (stopPrbs a1 s).host = s.host ∧ (stopPrbs a1 s).lat = s.lat ∧ (stopPrbs a1 s).acct = s.acct ∧
    (stopPrbs a1 s).tim = s.tim ∧ (stopPrbs a1 s).buf = s.buf ∧ (stopPrbs a1 s).eg = s.eg ∧ (stopPrbs a1 s).tab = s.tab
    ∧ (stopPrbs a1 s).gen = s.gen ∧ (stopPrbs a1 s).eng = s.eng ∧ (stopPrbs a1 s).recd = s.recd ∧ (stopPrbs a1 s).pmu =
    s.pmu ∧ (stopPrbs a1 s).svc = s.svc ∧ (stopPrbs a1 s).therm = s.therm ∧ (stopPrbs a1 s).regs = s.regs ∧ (stopPrbs a1
    s).hmem = s.hmem ∧ (stopPrbs a1 s).now = s.now ∧ (stopPrbs a1 s).elapsed = s.elapsed ∧ (stopPrbs a1 s).free = s.free
    ∧ (stopPrbs a1 s).pending = s.pending := by
  intros; unfold stopPrbs
  first
    | ((repeat' split) <;> simp; done)
    | (dsimp only; (repeat' split) <;> simp [*]; done)
    | ((repeat' apply And.intro) <;> dsimp only <;> (repeat' split) <;> simp [*]; done)

@[simp] theorem stopTests_keeps : ∀ a1 a2 s, (stopTests a1 a2 s).md = s.md ∧ (stopTests a1 a2 s).dev = s.dev ∧
    (stopTests a1 a2 s).pins = s.pins ∧ (stopTests a1 a2 s).side = s.side ∧ (stopTests a1 a2 s).prot = s.prot ∧
    (stopTests a1 a2 s).mram = s.mram ∧ (stopTests a1 a2 s).lat = s.lat ∧ (stopTests a1 a2 s).acct = s.acct ∧ (stopTests
    a1 a2 s).tim = s.tim ∧ (stopTests a1 a2 s).buf = s.buf ∧ (stopTests a1 a2 s).eg = s.eg ∧ (stopTests a1 a2 s).gen =
    s.gen ∧ (stopTests a1 a2 s).eng = s.eng ∧ (stopTests a1 a2 s).recd = s.recd ∧ (stopTests a1 a2 s).therm = s.therm ∧
    (stopTests a1 a2 s).now = s.now ∧ (stopTests a1 a2 s).elapsed = s.elapsed ∧ (stopTests a1 a2 s).free = s.free ∧
    (stopTests a1 a2 s).pending = s.pending := by
  intros; unfold stopTests
  first
    | ((repeat' split) <;> simp; done)
    | (dsimp only; (repeat' split) <;> simp [*]; done)
    | ((repeat' apply And.intro) <;> dsimp only <;> (repeat' split) <;> simp [*]; done)

@[simp] theorem budgetNote_keeps : ∀ a1 s, (budgetNote a1 s).md = s.md ∧ (budgetNote a1 s).dev = s.dev ∧ (budgetNote a1
    s).pins = s.pins ∧ (budgetNote a1 s).side = s.side ∧ (budgetNote a1 s).prot = s.prot ∧ (budgetNote a1 s).mram =
    s.mram ∧ (budgetNote a1 s).img = s.img ∧ (budgetNote a1 s).host = s.host ∧ (budgetNote a1 s).lat = s.lat ∧
    (budgetNote a1 s).acct = s.acct ∧ (budgetNote a1 s).lk = s.lk ∧ (budgetNote a1 s).tim = s.tim ∧ (budgetNote a1
    s).buf = s.buf ∧ (budgetNote a1 s).eg = s.eg ∧ (budgetNote a1 s).tab = s.tab ∧ (budgetNote a1 s).gen = s.gen ∧
    (budgetNote a1 s).eng = s.eng ∧ (budgetNote a1 s).recd = s.recd ∧ (budgetNote a1 s).pmu = s.pmu ∧ (budgetNote a1
    s).svc = s.svc ∧ (budgetNote a1 s).therm = s.therm ∧ (budgetNote a1 s).hmem = s.hmem ∧ (budgetNote a1 s).now = s.now
    ∧ (budgetNote a1 s).elapsed = s.elapsed ∧ (budgetNote a1 s).free = s.free ∧ (budgetNote a1 s).pending = s.pending :=
    by
  intros; unfold budgetNote
  first
    | ((repeat' split) <;> simp; done)
    | (dsimp only; (repeat' split) <;> simp [*]; done)
    | ((repeat' apply And.intro) <;> dsimp only <;> (repeat' split) <;> simp [*]; done)

@[simp] theorem budgetShort_keeps : ∀ a1 a2 s, (budgetShort a1 a2 s).md = s.md ∧ (budgetShort a1 a2 s).dev = s.dev ∧
    (budgetShort a1 a2 s).pins = s.pins ∧ (budgetShort a1 a2 s).side = s.side ∧ (budgetShort a1 a2 s).prot = s.prot ∧
    (budgetShort a1 a2 s).mram = s.mram ∧ (budgetShort a1 a2 s).img = s.img ∧ (budgetShort a1 a2 s).host = s.host ∧
    (budgetShort a1 a2 s).lat = s.lat ∧ (budgetShort a1 a2 s).acct = s.acct ∧ (budgetShort a1 a2 s).lk = s.lk ∧
    (budgetShort a1 a2 s).tim = s.tim ∧ (budgetShort a1 a2 s).buf = s.buf ∧ (budgetShort a1 a2 s).eg = s.eg ∧
    (budgetShort a1 a2 s).tab = s.tab ∧ (budgetShort a1 a2 s).gen = s.gen ∧ (budgetShort a1 a2 s).eng = s.eng ∧
    (budgetShort a1 a2 s).recd = s.recd ∧ (budgetShort a1 a2 s).pmu = s.pmu ∧ (budgetShort a1 a2 s).svc = s.svc ∧
    (budgetShort a1 a2 s).therm = s.therm ∧ (budgetShort a1 a2 s).hmem = s.hmem ∧ (budgetShort a1 a2 s).now = s.now ∧
    (budgetShort a1 a2 s).elapsed = s.elapsed ∧ (budgetShort a1 a2 s).free = s.free ∧ (budgetShort a1 a2 s).pending =
    s.pending := by
  intros; unfold budgetShort
  first
    | ((repeat' split) <;> simp; done)
    | (dsimp only; (repeat' split) <;> simp [*]; done)
    | ((repeat' apply And.intro) <;> dsimp only <;> (repeat' split) <;> simp [*]; done)

@[simp] theorem loseChannel_keeps : ∀ a1 s, (loseChannel a1 s).md = s.md ∧ (loseChannel a1 s).dev = s.dev ∧ (loseChannel
    a1 s).pins = s.pins ∧ (loseChannel a1 s).side = s.side ∧ (loseChannel a1 s).prot = s.prot ∧ (loseChannel a1 s).mram
    = s.mram ∧ (loseChannel a1 s).img = s.img ∧ (loseChannel a1 s).lat = s.lat ∧ (loseChannel a1 s).acct = s.acct ∧
    (loseChannel a1 s).lk = s.lk ∧ (loseChannel a1 s).tim = s.tim ∧ (loseChannel a1 s).buf = s.buf ∧ (loseChannel a1
    s).eg = s.eg ∧ (loseChannel a1 s).gen = s.gen ∧ (loseChannel a1 s).eng = s.eng ∧ (loseChannel a1 s).pmu = s.pmu ∧
    (loseChannel a1 s).therm = s.therm ∧ (loseChannel a1 s).hmem = s.hmem ∧ (loseChannel a1 s).now = s.now ∧
    (loseChannel a1 s).elapsed = s.elapsed ∧ (loseChannel a1 s).free = s.free ∧ (loseChannel a1 s).pending = s.pending
    := by
  intros; unfold loseChannel
  first
    | ((repeat' split) <;> simp; done)
    | (dsimp only; (repeat' split) <;> simp [*]; done)
    | ((repeat' apply And.intro) <;> dsimp only <;> (repeat' split) <;> simp [*]; done)

@[simp] theorem noteHealth_keeps : ∀ a1 a2 a3 a4 s, (noteHealth a1 a2 a3 a4 s).md = s.md ∧ (noteHealth a1 a2 a3 a4
    s).dev = s.dev ∧ (noteHealth a1 a2 a3 a4 s).pins = s.pins ∧ (noteHealth a1 a2 a3 a4 s).side = s.side ∧ (noteHealth
    a1 a2 a3 a4 s).prot = s.prot ∧ (noteHealth a1 a2 a3 a4 s).mram = s.mram ∧ (noteHealth a1 a2 a3 a4 s).img = s.img ∧
    (noteHealth a1 a2 a3 a4 s).host = s.host ∧ (noteHealth a1 a2 a3 a4 s).lat = s.lat ∧ (noteHealth a1 a2 a3 a4 s).acct
    = s.acct ∧ (noteHealth a1 a2 a3 a4 s).lk = s.lk ∧ (noteHealth a1 a2 a3 a4 s).tim = s.tim ∧ (noteHealth a1 a2 a3 a4
    s).buf = s.buf ∧ (noteHealth a1 a2 a3 a4 s).eg = s.eg ∧ (noteHealth a1 a2 a3 a4 s).tab = s.tab ∧ (noteHealth a1 a2
    a3 a4 s).gen = s.gen ∧ (noteHealth a1 a2 a3 a4 s).eng = s.eng ∧ (noteHealth a1 a2 a3 a4 s).recd = s.recd ∧
    (noteHealth a1 a2 a3 a4 s).pmu = s.pmu ∧ (noteHealth a1 a2 a3 a4 s).therm = s.therm ∧ (noteHealth a1 a2 a3 a4
    s).regs = s.regs ∧ (noteHealth a1 a2 a3 a4 s).hmem = s.hmem ∧ (noteHealth a1 a2 a3 a4 s).now = s.now ∧ (noteHealth
    a1 a2 a3 a4 s).elapsed = s.elapsed ∧ (noteHealth a1 a2 a3 a4 s).free = s.free ∧ (noteHealth a1 a2 a3 a4 s).pending =
    s.pending := by
  intros; unfold noteHealth
  first
    | ((repeat' split) <;> simp; done)
    | (dsimp only; (repeat' split) <;> simp [*]; done)
    | ((repeat' apply And.intro) <;> dsimp only <;> (repeat' split) <;> simp [*]; done)

@[simp] theorem finishLeave_keeps : ∀ a1 s, (finishLeave a1 s).md = s.md ∧ (finishLeave a1 s).dev = s.dev ∧ (finishLeave
    a1 s).pins = s.pins ∧ (finishLeave a1 s).side = s.side ∧ (finishLeave a1 s).prot = s.prot ∧ (finishLeave a1 s).mram
    = s.mram ∧ (finishLeave a1 s).lat = s.lat ∧ (finishLeave a1 s).acct = s.acct ∧ (finishLeave a1 s).lk = s.lk ∧
    (finishLeave a1 s).tim = s.tim ∧ (finishLeave a1 s).buf = s.buf ∧ (finishLeave a1 s).eg = s.eg ∧ (finishLeave a1
    s).gen = s.gen ∧ (finishLeave a1 s).eng = s.eng ∧ (finishLeave a1 s).therm = s.therm ∧ (finishLeave a1 s).now =
    s.now ∧ (finishLeave a1 s).elapsed = s.elapsed ∧ (finishLeave a1 s).free = s.free ∧ (finishLeave a1 s).pending =
    s.pending := by
  intros; unfold finishLeave
  first
    | ((repeat' split) <;> simp; done)
    | (dsimp only; (repeat' split) <;> simp [*]; done)
    | ((repeat' apply And.intro) <;> dsimp only <;> (repeat' split) <;> simp [*]; done)

@[simp] theorem resetLane_keeps : ∀ a1 s, (resetLane a1 s).md = s.md ∧ (resetLane a1 s).dev = s.dev ∧ (resetLane a1
    s).pins = s.pins ∧ (resetLane a1 s).side = s.side ∧ (resetLane a1 s).prot = s.prot ∧ (resetLane a1 s).mram = s.mram
    ∧ (resetLane a1 s).img = s.img ∧ (resetLane a1 s).host = s.host ∧ (resetLane a1 s).lat = s.lat ∧ (resetLane a1
    s).acct = s.acct ∧ (resetLane a1 s).tim = s.tim ∧ (resetLane a1 s).buf = s.buf ∧ (resetLane a1 s).eg = s.eg ∧
    (resetLane a1 s).tab = s.tab ∧ (resetLane a1 s).gen = s.gen ∧ (resetLane a1 s).eng = s.eng ∧ (resetLane a1 s).recd =
    s.recd ∧ (resetLane a1 s).pmu = s.pmu ∧ (resetLane a1 s).svc = s.svc ∧ (resetLane a1 s).therm = s.therm ∧ (resetLane
    a1 s).regs = s.regs ∧ (resetLane a1 s).hmem = s.hmem ∧ (resetLane a1 s).now = s.now ∧ (resetLane a1 s).elapsed =
    s.elapsed ∧ (resetLane a1 s).free = s.free ∧ (resetLane a1 s).pending = s.pending := by
  intros; unfold resetLane
  first
    | ((repeat' split) <;> simp; done)
    | (dsimp only; (repeat' split) <;> simp [*]; done)
    | ((repeat' apply And.intro) <;> dsimp only <;> (repeat' split) <;> simp [*]; done)

@[simp] theorem resetIsland_keeps : ∀ a1 s, (resetIsland a1 s).md = s.md ∧ (resetIsland a1 s).dev = s.dev ∧ (resetIsland
    a1 s).pins = s.pins ∧ (resetIsland a1 s).side = s.side ∧ (resetIsland a1 s).prot = s.prot ∧ (resetIsland a1 s).mram
    = s.mram ∧ (resetIsland a1 s).img = s.img ∧ (resetIsland a1 s).host = s.host ∧ (resetIsland a1 s).lat = s.lat ∧
    (resetIsland a1 s).acct = s.acct ∧ (resetIsland a1 s).tim = s.tim ∧ (resetIsland a1 s).buf = s.buf ∧ (resetIsland a1
    s).eg = s.eg ∧ (resetIsland a1 s).tab = s.tab ∧ (resetIsland a1 s).gen = s.gen ∧ (resetIsland a1 s).eng = s.eng ∧
    (resetIsland a1 s).recd = s.recd ∧ (resetIsland a1 s).therm = s.therm ∧ (resetIsland a1 s).hmem = s.hmem ∧
    (resetIsland a1 s).now = s.now ∧ (resetIsland a1 s).elapsed = s.elapsed ∧ (resetIsland a1 s).free = s.free ∧
    (resetIsland a1 s).pending = s.pending := by
  intros; unfold resetIsland
  first
    | ((repeat' split) <;> simp; done)
    | (dsimp only; (repeat' split) <;> simp [*]; done)
    | ((repeat' apply And.intro) <;> dsimp only <;> (repeat' split) <;> simp [*]; done)

@[simp] theorem finishReturn_keeps : ∀ a1 s, (finishReturn a1 s).md = s.md ∧ (finishReturn a1 s).dev = s.dev ∧
    (finishReturn a1 s).pins = s.pins ∧ (finishReturn a1 s).side = s.side ∧ (finishReturn a1 s).prot = s.prot ∧
    (finishReturn a1 s).mram = s.mram ∧ (finishReturn a1 s).lat = s.lat ∧ (finishReturn a1 s).tim = s.tim ∧
    (finishReturn a1 s).gen = s.gen ∧ (finishReturn a1 s).eng = s.eng ∧ (finishReturn a1 s).therm = s.therm ∧
    (finishReturn a1 s).now = s.now ∧ (finishReturn a1 s).elapsed = s.elapsed ∧ (finishReturn a1 s).free = s.free ∧
    (finishReturn a1 s).pending = s.pending := by
  intros; unfold finishReturn
  first
    | ((repeat' split) <;> simp; done)
    | (dsimp only; (repeat' split) <;> simp [*]; done)
    | ((repeat' apply And.intro) <;> dsimp only <;> (repeat' split) <;> simp [*]; done)

@[simp] theorem unitsReturn_keeps : ∀ s, (unitsReturn s).md = s.md ∧ (unitsReturn s).dev = s.dev ∧ (unitsReturn s).pins
    = s.pins ∧ (unitsReturn s).side = s.side ∧ (unitsReturn s).prot = s.prot ∧ (unitsReturn s).mram = s.mram ∧
    (unitsReturn s).lat = s.lat ∧ (unitsReturn s).tim = s.tim ∧ (unitsReturn s).gen = s.gen ∧ (unitsReturn s).eng =
    s.eng ∧ (unitsReturn s).therm = s.therm ∧ (unitsReturn s).now = s.now ∧ (unitsReturn s).elapsed = s.elapsed ∧
    (unitsReturn s).free = s.free ∧ (unitsReturn s).pending = s.pending := by
  intros; unfold unitsReturn
  first
    | ((repeat' split) <;> simp; done)
    | (dsimp only; (repeat' split) <;> simp [*]; done)
    | ((repeat' apply And.intro) <;> dsimp only <;> (repeat' split) <;> simp [*]; done)

@[simp] theorem startShift_keeps : ∀ a1 a2 a3 a4 a5 a6 s, (startShift a1 a2 a3 a4 a5 a6 s).st.md = s.md ∧ (startShift a1
    a2 a3 a4 a5 a6 s).st.dev = s.dev ∧ (startShift a1 a2 a3 a4 a5 a6 s).st.pins = s.pins ∧ (startShift a1 a2 a3 a4 a5 a6
    s).st.side = s.side ∧ (startShift a1 a2 a3 a4 a5 a6 s).st.prot = s.prot ∧ (startShift a1 a2 a3 a4 a5 a6 s).st.mram =
    s.mram ∧ (startShift a1 a2 a3 a4 a5 a6 s).st.lat = s.lat ∧ (startShift a1 a2 a3 a4 a5 a6 s).st.tim = s.tim ∧
    (startShift a1 a2 a3 a4 a5 a6 s).st.gen = s.gen ∧ (startShift a1 a2 a3 a4 a5 a6 s).st.eng = s.eng ∧ (startShift a1
    a2 a3 a4 a5 a6 s).st.therm = s.therm ∧ (startShift a1 a2 a3 a4 a5 a6 s).st.now = s.now ∧ (startShift a1 a2 a3 a4 a5
    a6 s).st.elapsed = s.elapsed ∧ (startShift a1 a2 a3 a4 a5 a6 s).st.free = s.free ∧ (startShift a1 a2 a3 a4 a5 a6
    s).st.pending = s.pending := by
  intros; unfold startShift
  first
    | ((repeat' split) <;> simp; done)
    | (dsimp only; (repeat' split) <;> simp [*]; done)
    | ((repeat' apply And.intro) <;> dsimp only <;> (repeat' split) <;> simp [*]; done)

@[simp] theorem withdrawShift_keeps : ∀ a1 a2 s, (withdrawShift a1 a2 s).st.md = s.md ∧ (withdrawShift a1 a2 s).st.dev =
    s.dev ∧ (withdrawShift a1 a2 s).st.pins = s.pins ∧ (withdrawShift a1 a2 s).st.side = s.side ∧ (withdrawShift a1 a2
    s).st.prot = s.prot ∧ (withdrawShift a1 a2 s).st.mram = s.mram ∧ (withdrawShift a1 a2 s).st.lat = s.lat ∧
    (withdrawShift a1 a2 s).st.tim = s.tim ∧ (withdrawShift a1 a2 s).st.gen = s.gen ∧ (withdrawShift a1 a2 s).st.eng =
    s.eng ∧ (withdrawShift a1 a2 s).st.therm = s.therm ∧ (withdrawShift a1 a2 s).st.now = s.now ∧ (withdrawShift a1 a2
    s).st.elapsed = s.elapsed ∧ (withdrawShift a1 a2 s).st.free = s.free ∧ (withdrawShift a1 a2 s).st.pending =
    s.pending := by
  intros; unfold withdrawShift
  first
    | ((repeat' split) <;> simp; done)
    | (dsimp only; (repeat' split) <;> simp [*]; done)
    | ((repeat' apply And.intro) <;> dsimp only <;> (repeat' split) <;> simp [*]; done)

@[simp] theorem startCopying_keeps : ∀ a1 a2 a3 a4 a5 s, (startCopying a1 a2 a3 a4 a5 s).md = s.md ∧ (startCopying a1 a2
    a3 a4 a5 s).dev = s.dev ∧ (startCopying a1 a2 a3 a4 a5 s).pins = s.pins ∧ (startCopying a1 a2 a3 a4 a5 s).side =
    s.side ∧ (startCopying a1 a2 a3 a4 a5 s).prot = s.prot ∧ (startCopying a1 a2 a3 a4 a5 s).mram = s.mram ∧
    (startCopying a1 a2 a3 a4 a5 s).img = s.img ∧ (startCopying a1 a2 a3 a4 a5 s).host = s.host ∧ (startCopying a1 a2 a3
    a4 a5 s).lat = s.lat ∧ (startCopying a1 a2 a3 a4 a5 s).acct = s.acct ∧ (startCopying a1 a2 a3 a4 a5 s).lk = s.lk ∧
    (startCopying a1 a2 a3 a4 a5 s).tim = s.tim ∧ (startCopying a1 a2 a3 a4 a5 s).buf = s.buf ∧ (startCopying a1 a2 a3
    a4 a5 s).eg = s.eg ∧ (startCopying a1 a2 a3 a4 a5 s).tab = s.tab ∧ (startCopying a1 a2 a3 a4 a5 s).gen = s.gen ∧
    (startCopying a1 a2 a3 a4 a5 s).eng = s.eng ∧ (startCopying a1 a2 a3 a4 a5 s).recd = s.recd ∧ (startCopying a1 a2 a3
    a4 a5 s).pmu = s.pmu ∧ (startCopying a1 a2 a3 a4 a5 s).therm = s.therm ∧ (startCopying a1 a2 a3 a4 a5 s).regs =
    s.regs ∧ (startCopying a1 a2 a3 a4 a5 s).hmem = s.hmem ∧ (startCopying a1 a2 a3 a4 a5 s).now = s.now ∧ (startCopying
    a1 a2 a3 a4 a5 s).elapsed = s.elapsed ∧ (startCopying a1 a2 a3 a4 a5 s).free = s.free ∧ (startCopying a1 a2 a3 a4 a5
    s).pending = s.pending := by
  intros; unfold startCopying
  first
    | ((repeat' split) <;> simp; done)
    | (dsimp only; (repeat' split) <;> simp [*]; done)
    | ((repeat' apply And.intro) <;> dsimp only <;> (repeat' split) <;> simp [*]; done)

@[simp] theorem finishCopying_keeps : ∀ a1 s, (finishCopying a1 s).md = s.md ∧ (finishCopying a1 s).dev = s.dev ∧
    (finishCopying a1 s).pins = s.pins ∧ (finishCopying a1 s).side = s.side ∧ (finishCopying a1 s).prot = s.prot ∧
    (finishCopying a1 s).mram = s.mram ∧ (finishCopying a1 s).lat = s.lat ∧ (finishCopying a1 s).acct = s.acct ∧
    (finishCopying a1 s).lk = s.lk ∧ (finishCopying a1 s).tim = s.tim ∧ (finishCopying a1 s).buf = s.buf ∧
    (finishCopying a1 s).eg = s.eg ∧ (finishCopying a1 s).gen = s.gen ∧ (finishCopying a1 s).eng = s.eng ∧
    (finishCopying a1 s).recd = s.recd ∧ (finishCopying a1 s).therm = s.therm ∧ (finishCopying a1 s).now = s.now ∧
    (finishCopying a1 s).elapsed = s.elapsed ∧ (finishCopying a1 s).free = s.free ∧ (finishCopying a1 s).pending =
    s.pending := by
  intros; unfold finishCopying
  first
    | ((repeat' split) <;> simp; done)
    | (dsimp only; (repeat' split) <;> simp [*]; done)
    | ((repeat' apply And.intro) <;> dsimp only <;> (repeat' split) <;> simp [*]; done)

@[simp] theorem autoRetire_keeps : ∀ a1 a2 s, (autoRetire a1 a2 s).md = s.md ∧ (autoRetire a1 a2 s).dev = s.dev ∧
    (autoRetire a1 a2 s).pins = s.pins ∧ (autoRetire a1 a2 s).side = s.side ∧ (autoRetire a1 a2 s).prot = s.prot ∧
    (autoRetire a1 a2 s).mram = s.mram ∧ (autoRetire a1 a2 s).img = s.img ∧ (autoRetire a1 a2 s).lat = s.lat ∧
    (autoRetire a1 a2 s).acct = s.acct ∧ (autoRetire a1 a2 s).lk = s.lk ∧ (autoRetire a1 a2 s).tim = s.tim ∧ (autoRetire
    a1 a2 s).buf = s.buf ∧ (autoRetire a1 a2 s).eg = s.eg ∧ (autoRetire a1 a2 s).tab = s.tab ∧ (autoRetire a1 a2 s).gen
    = s.gen ∧ (autoRetire a1 a2 s).eng = s.eng ∧ (autoRetire a1 a2 s).recd = s.recd ∧ (autoRetire a1 a2 s).pmu = s.pmu ∧
    (autoRetire a1 a2 s).therm = s.therm ∧ (autoRetire a1 a2 s).hmem = s.hmem ∧ (autoRetire a1 a2 s).now = s.now ∧
    (autoRetire a1 a2 s).elapsed = s.elapsed ∧ (autoRetire a1 a2 s).free = s.free ∧ (autoRetire a1 a2 s).pending =
    s.pending := by
  intros; unfold autoRetire
  first
    | ((repeat' split) <;> simp; done)
    | (dsimp only; (repeat' split) <;> simp [*]; done)
    | ((repeat' apply And.intro) <;> dsimp only <;> (repeat' split) <;> simp [*]; done)

@[simp] theorem healthEdit_keeps : ∀ a1 a2 s, (healthEdit a1 a2 s).md = s.md ∧ (healthEdit a1 a2 s).dev = s.dev ∧
    (healthEdit a1 a2 s).pins = s.pins ∧ (healthEdit a1 a2 s).side = s.side ∧ (healthEdit a1 a2 s).prot = s.prot ∧
    (healthEdit a1 a2 s).img = s.img ∧ (healthEdit a1 a2 s).host = s.host ∧ (healthEdit a1 a2 s).lat = s.lat ∧
    (healthEdit a1 a2 s).acct = s.acct ∧ (healthEdit a1 a2 s).lk = s.lk ∧ (healthEdit a1 a2 s).tim = s.tim ∧ (healthEdit
    a1 a2 s).buf = s.buf ∧ (healthEdit a1 a2 s).eg = s.eg ∧ (healthEdit a1 a2 s).tab = s.tab ∧ (healthEdit a1 a2 s).gen
    = s.gen ∧ (healthEdit a1 a2 s).eng = s.eng ∧ (healthEdit a1 a2 s).recd = s.recd ∧ (healthEdit a1 a2 s).pmu = s.pmu ∧
    (healthEdit a1 a2 s).svc = s.svc ∧ (healthEdit a1 a2 s).therm = s.therm ∧ (healthEdit a1 a2 s).regs = s.regs ∧
    (healthEdit a1 a2 s).hmem = s.hmem ∧ (healthEdit a1 a2 s).now = s.now ∧ (healthEdit a1 a2 s).elapsed = s.elapsed ∧
    (healthEdit a1 a2 s).free = s.free ∧ (healthEdit a1 a2 s).pending = s.pending := by
  intros; unfold healthEdit
  first
    | ((repeat' split) <;> simp; done)
    | (dsimp only; (repeat' split) <;> simp [*]; done)
    | ((repeat' apply And.intro) <;> dsimp only <;> (repeat' split) <;> simp [*]; done)

@[simp] theorem finishTest_keeps : ∀ a1 a2 a3 a4 a5 s, (finishTest a1 a2 a3 a4 a5 s).md = s.md ∧ (finishTest a1 a2 a3 a4
    a5 s).dev = s.dev ∧ (finishTest a1 a2 a3 a4 a5 s).pins = s.pins ∧ (finishTest a1 a2 a3 a4 a5 s).side = s.side ∧
    (finishTest a1 a2 a3 a4 a5 s).prot = s.prot ∧ (finishTest a1 a2 a3 a4 a5 s).lat = s.lat ∧ (finishTest a1 a2 a3 a4 a5
    s).acct = s.acct ∧ (finishTest a1 a2 a3 a4 a5 s).lk = s.lk ∧ (finishTest a1 a2 a3 a4 a5 s).tim = s.tim ∧ (finishTest
    a1 a2 a3 a4 a5 s).buf = s.buf ∧ (finishTest a1 a2 a3 a4 a5 s).eg = s.eg ∧ (finishTest a1 a2 a3 a4 a5 s).gen = s.gen
    ∧ (finishTest a1 a2 a3 a4 a5 s).eng = s.eng ∧ (finishTest a1 a2 a3 a4 a5 s).recd = s.recd ∧ (finishTest a1 a2 a3 a4
    a5 s).therm = s.therm ∧ (finishTest a1 a2 a3 a4 a5 s).now = s.now ∧ (finishTest a1 a2 a3 a4 a5 s).elapsed =
    s.elapsed ∧ (finishTest a1 a2 a3 a4 a5 s).free = s.free ∧ (finishTest a1 a2 a3 a4 a5 s).pending = s.pending := by
  intros; unfold finishTest
  first
    | ((repeat' split) <;> simp; done)
    | (dsimp only; (repeat' split) <;> simp [*]; done)
    | ((repeat' apply And.intro) <;> dsimp only <;> (repeat' split) <;> simp [*]; done)

@[simp] theorem testedEntry_keeps : ∀ a1 a2 s, (testedEntry a1 a2 s).md = s.md ∧ (testedEntry a1 a2 s).dev = s.dev ∧
    (testedEntry a1 a2 s).pins = s.pins ∧ (testedEntry a1 a2 s).side = s.side ∧ (testedEntry a1 a2 s).prot = s.prot ∧
    (testedEntry a1 a2 s).img = s.img ∧ (testedEntry a1 a2 s).host = s.host ∧ (testedEntry a1 a2 s).lat = s.lat ∧
    (testedEntry a1 a2 s).acct = s.acct ∧ (testedEntry a1 a2 s).lk = s.lk ∧ (testedEntry a1 a2 s).tim = s.tim ∧
    (testedEntry a1 a2 s).buf = s.buf ∧ (testedEntry a1 a2 s).eg = s.eg ∧ (testedEntry a1 a2 s).tab = s.tab ∧
    (testedEntry a1 a2 s).gen = s.gen ∧ (testedEntry a1 a2 s).eng = s.eng ∧ (testedEntry a1 a2 s).recd = s.recd ∧
    (testedEntry a1 a2 s).pmu = s.pmu ∧ (testedEntry a1 a2 s).svc = s.svc ∧ (testedEntry a1 a2 s).therm = s.therm ∧
    (testedEntry a1 a2 s).regs = s.regs ∧ (testedEntry a1 a2 s).hmem = s.hmem ∧ (testedEntry a1 a2 s).now = s.now ∧
    (testedEntry a1 a2 s).elapsed = s.elapsed ∧ (testedEntry a1 a2 s).free = s.free ∧ (testedEntry a1 a2 s).pending =
    s.pending := by
  intros; unfold testedEntry
  first
    | ((repeat' split) <;> simp; done)
    | (dsimp only; (repeat' split) <;> simp [*]; done)
    | ((repeat' apply And.intro) <;> dsimp only <;> (repeat' split) <;> simp [*]; done)

@[simp] theorem parkPass_keeps : ∀ a1 s, (parkPass a1 s).md = s.md ∧ (parkPass a1 s).dev = s.dev ∧ (parkPass a1 s).pins
    = s.pins ∧ (parkPass a1 s).side = s.side ∧ (parkPass a1 s).prot = s.prot ∧ (parkPass a1 s).mram = s.mram ∧ (parkPass
    a1 s).img = s.img ∧ (parkPass a1 s).host = s.host ∧ (parkPass a1 s).lat = s.lat ∧ (parkPass a1 s).acct = s.acct ∧
    (parkPass a1 s).lk = s.lk ∧ (parkPass a1 s).buf = s.buf ∧ (parkPass a1 s).eg = s.eg ∧ (parkPass a1 s).tab = s.tab ∧
    (parkPass a1 s).gen = s.gen ∧ (parkPass a1 s).eng = s.eng ∧ (parkPass a1 s).recd = s.recd ∧ (parkPass a1 s).svc =
    s.svc ∧ (parkPass a1 s).therm = s.therm ∧ (parkPass a1 s).hmem = s.hmem ∧ (parkPass a1 s).free = s.free ∧ (parkPass
    a1 s).pending = s.pending := by
  intros; unfold parkPass
  first
    | ((repeat' split) <;> simp; done)
    | (dsimp only; (repeat' split) <;> simp [*]; done)
    | ((repeat' apply And.intro) <;> dsimp only <;> (repeat' split) <;> simp [*]; done)

@[simp] theorem waveResults_keeps : ∀ a1 a2 a3 a4 s, (waveResults a1 a2 a3 a4 s).md = s.md ∧ (waveResults a1 a2 a3 a4
    s).dev = s.dev ∧ (waveResults a1 a2 a3 a4 s).pins = s.pins ∧ (waveResults a1 a2 a3 a4 s).side = s.side ∧
    (waveResults a1 a2 a3 a4 s).prot = s.prot ∧ (waveResults a1 a2 a3 a4 s).img = s.img ∧ (waveResults a1 a2 a3 a4
    s).host = s.host ∧ (waveResults a1 a2 a3 a4 s).lat = s.lat ∧ (waveResults a1 a2 a3 a4 s).acct = s.acct ∧
    (waveResults a1 a2 a3 a4 s).lk = s.lk ∧ (waveResults a1 a2 a3 a4 s).tim = s.tim ∧ (waveResults a1 a2 a3 a4 s).buf =
    s.buf ∧ (waveResults a1 a2 a3 a4 s).eg = s.eg ∧ (waveResults a1 a2 a3 a4 s).tab = s.tab ∧ (waveResults a1 a2 a3 a4
    s).gen = s.gen ∧ (waveResults a1 a2 a3 a4 s).eng = s.eng ∧ (waveResults a1 a2 a3 a4 s).recd = s.recd ∧ (waveResults
    a1 a2 a3 a4 s).pmu = s.pmu ∧ (waveResults a1 a2 a3 a4 s).therm = s.therm ∧ (waveResults a1 a2 a3 a4 s).regs = s.regs
    ∧ (waveResults a1 a2 a3 a4 s).hmem = s.hmem ∧ (waveResults a1 a2 a3 a4 s).now = s.now ∧ (waveResults a1 a2 a3 a4
    s).elapsed = s.elapsed ∧ (waveResults a1 a2 a3 a4 s).free = s.free ∧ (waveResults a1 a2 a3 a4 s).pending = s.pending
    := by
  intros; unfold waveResults
  first
    | ((repeat' split) <;> simp; done)
    | (dsimp only; (repeat' split) <;> simp [*]; done)
    | ((repeat' apply And.intro) <;> dsimp only <;> (repeat' split) <;> simp [*]; done)

@[simp] theorem parkEnds_keeps : ∀ s, (parkEnds s).dev = s.dev ∧ (parkEnds s).pins = s.pins ∧ (parkEnds s).prot = s.prot
    ∧ (parkEnds s).img = s.img ∧ (parkEnds s).host = s.host ∧ (parkEnds s).lat = s.lat ∧ (parkEnds s).acct = s.acct ∧
    (parkEnds s).lk = s.lk ∧ (parkEnds s).tim = s.tim ∧ (parkEnds s).buf = s.buf ∧ (parkEnds s).eg = s.eg ∧ (parkEnds
    s).tab = s.tab ∧ (parkEnds s).gen = s.gen ∧ (parkEnds s).eng = s.eng ∧ (parkEnds s).recd = s.recd ∧ (parkEnds s).pmu
    = s.pmu ∧ (parkEnds s).svc = s.svc ∧ (parkEnds s).therm = s.therm ∧ (parkEnds s).regs = s.regs ∧ (parkEnds s).hmem =
    s.hmem ∧ (parkEnds s).now = s.now ∧ (parkEnds s).elapsed = s.elapsed ∧ (parkEnds s).free = s.free ∧ (parkEnds
    s).pending = s.pending := by
  intros; unfold parkEnds
  first
    | ((repeat' split) <;> simp; done)
    | (dsimp only; (repeat' split) <;> simp [*]; done)
    | ((repeat' apply And.intro) <;> dsimp only <;> (repeat' split) <;> simp [*]; done)

@[simp] theorem loseRegs_keeps : ∀ a1 s, (loseRegs a1 s).md = s.md ∧ (loseRegs a1 s).dev = s.dev ∧ (loseRegs a1 s).pins
    = s.pins ∧ (loseRegs a1 s).side = s.side ∧ (loseRegs a1 s).prot = s.prot ∧ (loseRegs a1 s).mram = s.mram ∧ (loseRegs
    a1 s).img = s.img ∧ (loseRegs a1 s).host = s.host ∧ (loseRegs a1 s).lat = s.lat ∧ (loseRegs a1 s).acct = s.acct ∧
    (loseRegs a1 s).lk = s.lk ∧ (loseRegs a1 s).tim = s.tim ∧ (loseRegs a1 s).buf = s.buf ∧ (loseRegs a1 s).eg = s.eg ∧
    (loseRegs a1 s).tab = s.tab ∧ (loseRegs a1 s).gen = s.gen ∧ (loseRegs a1 s).eng = s.eng ∧ (loseRegs a1 s).recd =
    s.recd ∧ (loseRegs a1 s).pmu = s.pmu ∧ (loseRegs a1 s).svc = s.svc ∧ (loseRegs a1 s).therm = s.therm ∧ (loseRegs a1
    s).hmem = s.hmem ∧ (loseRegs a1 s).now = s.now ∧ (loseRegs a1 s).elapsed = s.elapsed ∧ (loseRegs a1 s).free = s.free
    ∧ (loseRegs a1 s).pending = s.pending := by
  intros; unfold loseRegs
  first
    | ((repeat' split) <;> simp; done)
    | (dsimp only; (repeat' split) <;> simp [*]; done)
    | ((repeat' apply And.intro) <;> dsimp only <;> (repeat' split) <;> simp [*]; done)

@[simp] theorem loseStacks_keeps : ∀ a1 a2 s, (loseStacks a1 a2 s).md = s.md ∧ (loseStacks a1 a2 s).dev = s.dev ∧
    (loseStacks a1 a2 s).pins = s.pins ∧ (loseStacks a1 a2 s).side = s.side ∧ (loseStacks a1 a2 s).prot = s.prot ∧
    (loseStacks a1 a2 s).mram = s.mram ∧ (loseStacks a1 a2 s).img = s.img ∧ (loseStacks a1 a2 s).host = s.host ∧
    (loseStacks a1 a2 s).lat = s.lat ∧ (loseStacks a1 a2 s).acct = s.acct ∧ (loseStacks a1 a2 s).lk = s.lk ∧ (loseStacks
    a1 a2 s).tim = s.tim ∧ (loseStacks a1 a2 s).buf = s.buf ∧ (loseStacks a1 a2 s).eg = s.eg ∧ (loseStacks a1 a2 s).tab
    = s.tab ∧ (loseStacks a1 a2 s).gen = s.gen ∧ (loseStacks a1 a2 s).pmu = s.pmu ∧ (loseStacks a1 a2 s).svc = s.svc ∧
    (loseStacks a1 a2 s).therm = s.therm ∧ (loseStacks a1 a2 s).regs = s.regs ∧ (loseStacks a1 a2 s).hmem = s.hmem ∧
    (loseStacks a1 a2 s).now = s.now ∧ (loseStacks a1 a2 s).elapsed = s.elapsed ∧ (loseStacks a1 a2 s).free = s.free ∧
    (loseStacks a1 a2 s).pending = s.pending := by
  intros; unfold loseStacks
  first
    | ((repeat' split) <;> simp; done)
    | (dsimp only; (repeat' split) <;> simp [*]; done)
    | ((repeat' apply And.intro) <;> dsimp only <;> (repeat' split) <;> simp [*]; done)

@[simp] theorem waveLoses_keeps : ∀ a1 s, (waveLoses a1 s).md = s.md ∧ (waveLoses a1 s).dev = s.dev ∧ (waveLoses a1
    s).pins = s.pins ∧ (waveLoses a1 s).side = s.side ∧ (waveLoses a1 s).mram = s.mram ∧ (waveLoses a1 s).img = s.img ∧
    (waveLoses a1 s).host = s.host ∧ (waveLoses a1 s).lat = s.lat ∧ (waveLoses a1 s).acct = s.acct ∧ (waveLoses a1 s).lk
    = s.lk ∧ (waveLoses a1 s).buf = s.buf ∧ (waveLoses a1 s).eg = s.eg ∧ (waveLoses a1 s).pmu = s.pmu ∧ (waveLoses a1
    s).svc = s.svc ∧ (waveLoses a1 s).therm = s.therm ∧ (waveLoses a1 s).hmem = s.hmem ∧ (waveLoses a1 s).now = s.now ∧
    (waveLoses a1 s).elapsed = s.elapsed ∧ (waveLoses a1 s).free = s.free ∧ (waveLoses a1 s).pending = s.pending := by
  intros; unfold waveLoses
  first
    | ((repeat' split) <;> simp; done)
    | (dsimp only; (repeat' split) <;> simp [*]; done)
    | ((repeat' apply And.intro) <;> dsimp only <;> (repeat' split) <;> simp [*]; done)

@[simp] theorem waveBegins_keeps : ∀ a1 s, (waveBegins a1 s).dev = s.dev ∧ (waveBegins a1 s).pins = s.pins ∧ (waveBegins
    a1 s).side = s.side ∧ (waveBegins a1 s).mram = s.mram ∧ (waveBegins a1 s).img = s.img ∧ (waveBegins a1 s).lat =
    s.lat ∧ (waveBegins a1 s).acct = s.acct ∧ (waveBegins a1 s).lk = s.lk ∧ (waveBegins a1 s).buf = s.buf ∧ (waveBegins
    a1 s).eg = s.eg ∧ (waveBegins a1 s).pmu = s.pmu ∧ (waveBegins a1 s).therm = s.therm ∧ (waveBegins a1 s).hmem =
    s.hmem ∧ (waveBegins a1 s).now = s.now ∧ (waveBegins a1 s).elapsed = s.elapsed ∧ (waveBegins a1 s).free = s.free ∧
    (waveBegins a1 s).pending = s.pending := by
  intros; unfold waveBegins
  first
    | ((repeat' split) <;> simp; done)
    | (dsimp only; (repeat' split) <;> simp [*]; done)
    | ((repeat' apply And.intro) <;> dsimp only <;> (repeat' split) <;> simp [*]; done)

@[simp] theorem tick_keeps : ∀ s, (tick s).md = s.md ∧ (tick s).dev = s.dev ∧ (tick s).pins = s.pins ∧ (tick s).side =
    s.side ∧ (tick s).prot = s.prot ∧ (tick s).mram = s.mram ∧ (tick s).img = s.img ∧ (tick s).host = s.host ∧ (tick
    s).lat = s.lat ∧ (tick s).acct = s.acct ∧ (tick s).lk = s.lk ∧ (tick s).buf = s.buf ∧ (tick s).eg = s.eg ∧ (tick
    s).tab = s.tab ∧ (tick s).gen = s.gen ∧ (tick s).eng = s.eng ∧ (tick s).recd = s.recd ∧ (tick s).svc = s.svc ∧ (tick
    s).therm = s.therm ∧ (tick s).hmem = s.hmem ∧ (tick s).free = s.free ∧ (tick s).pending = s.pending := by
  intros; unfold tick
  first
    | ((repeat' split) <;> simp; done)
    | (dsimp only; (repeat' split) <;> simp [*]; done)
    | ((repeat' apply And.intro) <;> dsimp only <;> (repeat' split) <;> simp [*]; done)

@[simp] theorem timResult_keeps : ∀ a1 s, (timResult a1 s).md = s.md ∧ (timResult a1 s).dev = s.dev ∧ (timResult a1
    s).pins = s.pins ∧ (timResult a1 s).side = s.side ∧ (timResult a1 s).prot = s.prot ∧ (timResult a1 s).mram = s.mram
    ∧ (timResult a1 s).img = s.img ∧ (timResult a1 s).host = s.host ∧ (timResult a1 s).lat = s.lat ∧ (timResult a1
    s).acct = s.acct ∧ (timResult a1 s).lk = s.lk ∧ (timResult a1 s).buf = s.buf ∧ (timResult a1 s).eg = s.eg ∧
    (timResult a1 s).tab = s.tab ∧ (timResult a1 s).gen = s.gen ∧ (timResult a1 s).eng = s.eng ∧ (timResult a1 s).recd =
    s.recd ∧ (timResult a1 s).pmu = s.pmu ∧ (timResult a1 s).svc = s.svc ∧ (timResult a1 s).therm = s.therm ∧ (timResult
    a1 s).regs = s.regs ∧ (timResult a1 s).hmem = s.hmem ∧ (timResult a1 s).now = s.now ∧ (timResult a1 s).elapsed =
    s.elapsed ∧ (timResult a1 s).free = s.free ∧ (timResult a1 s).pending = s.pending := by
  intros; unfold timResult
  first
    | ((repeat' split) <;> simp; done)
    | (dsimp only; (repeat' split) <;> simp [*]; done)
    | ((repeat' apply And.intro) <;> dsimp only <;> (repeat' split) <;> simp [*]; done)

@[simp] theorem startJump_keeps : ∀ a1 a2 s, (startJump a1 a2 s).md = s.md ∧ (startJump a1 a2 s).dev = s.dev ∧
    (startJump a1 a2 s).pins = s.pins ∧ (startJump a1 a2 s).side = s.side ∧ (startJump a1 a2 s).prot = s.prot ∧
    (startJump a1 a2 s).mram = s.mram ∧ (startJump a1 a2 s).img = s.img ∧ (startJump a1 a2 s).host = s.host ∧ (startJump
    a1 a2 s).lat = s.lat ∧ (startJump a1 a2 s).acct = s.acct ∧ (startJump a1 a2 s).lk = s.lk ∧ (startJump a1 a2 s).buf =
    s.buf ∧ (startJump a1 a2 s).eg = s.eg ∧ (startJump a1 a2 s).tab = s.tab ∧ (startJump a1 a2 s).gen = s.gen ∧
    (startJump a1 a2 s).eng = s.eng ∧ (startJump a1 a2 s).recd = s.recd ∧ (startJump a1 a2 s).pmu = s.pmu ∧ (startJump
    a1 a2 s).svc = s.svc ∧ (startJump a1 a2 s).therm = s.therm ∧ (startJump a1 a2 s).regs = s.regs ∧ (startJump a1 a2
    s).hmem = s.hmem ∧ (startJump a1 a2 s).now = s.now ∧ (startJump a1 a2 s).elapsed = s.elapsed ∧ (startJump a1 a2
    s).free = s.free ∧ (startJump a1 a2 s).pending = s.pending := by
  intros; unfold startJump
  first
    | ((repeat' split) <;> simp; done)
    | (dsimp only; (repeat' split) <;> simp [*]; done)
    | ((repeat' apply And.intro) <;> dsimp only <;> (repeat' split) <;> simp [*]; done)

@[simp] theorem timSet_keeps : ∀ s, (timSet s).md = s.md ∧ (timSet s).dev = s.dev ∧ (timSet s).pins = s.pins ∧ (timSet
    s).side = s.side ∧ (timSet s).prot = s.prot ∧ (timSet s).mram = s.mram ∧ (timSet s).img = s.img ∧ (timSet s).host =
    s.host ∧ (timSet s).lat = s.lat ∧ (timSet s).acct = s.acct ∧ (timSet s).lk = s.lk ∧ (timSet s).buf = s.buf ∧ (timSet
    s).eg = s.eg ∧ (timSet s).tab = s.tab ∧ (timSet s).gen = s.gen ∧ (timSet s).eng = s.eng ∧ (timSet s).recd = s.recd ∧
    (timSet s).pmu = s.pmu ∧ (timSet s).svc = s.svc ∧ (timSet s).therm = s.therm ∧ (timSet s).regs = s.regs ∧ (timSet
    s).hmem = s.hmem ∧ (timSet s).now = s.now ∧ (timSet s).elapsed = s.elapsed ∧ (timSet s).free = s.free ∧ (timSet
    s).pending = s.pending := by
  intros; unfold timSet
  first
    | ((repeat' split) <;> simp; done)
    | (dsimp only; (repeat' split) <;> simp [*]; done)
    | ((repeat' apply And.intro) <;> dsimp only <;> (repeat' split) <;> simp [*]; done)

@[simp] theorem timStep_keeps : ∀ s, (timStep s).md = s.md ∧ (timStep s).dev = s.dev ∧ (timStep s).pins = s.pins ∧
    (timStep s).side = s.side ∧ (timStep s).prot = s.prot ∧ (timStep s).mram = s.mram ∧ (timStep s).img = s.img ∧
    (timStep s).host = s.host ∧ (timStep s).lat = s.lat ∧ (timStep s).acct = s.acct ∧ (timStep s).lk = s.lk ∧ (timStep
    s).buf = s.buf ∧ (timStep s).eg = s.eg ∧ (timStep s).tab = s.tab ∧ (timStep s).gen = s.gen ∧ (timStep s).eng = s.eng
    ∧ (timStep s).recd = s.recd ∧ (timStep s).pmu = s.pmu ∧ (timStep s).svc = s.svc ∧ (timStep s).therm = s.therm ∧
    (timStep s).regs = s.regs ∧ (timStep s).hmem = s.hmem ∧ (timStep s).now = s.now ∧ (timStep s).elapsed = s.elapsed ∧
    (timStep s).free = s.free ∧ (timStep s).pending = s.pending := by
  intros; unfold timStep
  first
    | ((repeat' split) <;> simp; done)
    | (dsimp only; (repeat' split) <;> simp [*]; done)
    | ((repeat' apply And.intro) <;> dsimp only <;> (repeat' split) <;> simp [*]; done)

@[simp] theorem startSlew_keeps : ∀ a1 s, (startSlew a1 s).md = s.md ∧ (startSlew a1 s).dev = s.dev ∧ (startSlew a1
    s).pins = s.pins ∧ (startSlew a1 s).side = s.side ∧ (startSlew a1 s).prot = s.prot ∧ (startSlew a1 s).mram = s.mram
    ∧ (startSlew a1 s).img = s.img ∧ (startSlew a1 s).host = s.host ∧ (startSlew a1 s).lat = s.lat ∧ (startSlew a1
    s).acct = s.acct ∧ (startSlew a1 s).lk = s.lk ∧ (startSlew a1 s).buf = s.buf ∧ (startSlew a1 s).eg = s.eg ∧
    (startSlew a1 s).tab = s.tab ∧ (startSlew a1 s).gen = s.gen ∧ (startSlew a1 s).eng = s.eng ∧ (startSlew a1 s).recd =
    s.recd ∧ (startSlew a1 s).pmu = s.pmu ∧ (startSlew a1 s).svc = s.svc ∧ (startSlew a1 s).therm = s.therm ∧ (startSlew
    a1 s).regs = s.regs ∧ (startSlew a1 s).hmem = s.hmem ∧ (startSlew a1 s).now = s.now ∧ (startSlew a1 s).elapsed =
    s.elapsed ∧ (startSlew a1 s).free = s.free ∧ (startSlew a1 s).pending = s.pending := by
  intros; unfold startSlew
  first
    | ((repeat' split) <;> simp; done)
    | (dsimp only; (repeat' split) <;> simp [*]; done)
    | ((repeat' apply And.intro) <;> dsimp only <;> (repeat' split) <;> simp [*]; done)

@[simp] theorem timSlew_keeps : ∀ s, (timSlew s).md = s.md ∧ (timSlew s).dev = s.dev ∧ (timSlew s).pins = s.pins ∧
    (timSlew s).side = s.side ∧ (timSlew s).prot = s.prot ∧ (timSlew s).mram = s.mram ∧ (timSlew s).img = s.img ∧
    (timSlew s).host = s.host ∧ (timSlew s).lat = s.lat ∧ (timSlew s).acct = s.acct ∧ (timSlew s).lk = s.lk ∧ (timSlew
    s).buf = s.buf ∧ (timSlew s).eg = s.eg ∧ (timSlew s).tab = s.tab ∧ (timSlew s).gen = s.gen ∧ (timSlew s).eng = s.eng
    ∧ (timSlew s).recd = s.recd ∧ (timSlew s).pmu = s.pmu ∧ (timSlew s).svc = s.svc ∧ (timSlew s).therm = s.therm ∧
    (timSlew s).regs = s.regs ∧ (timSlew s).hmem = s.hmem ∧ (timSlew s).now = s.now ∧ (timSlew s).elapsed = s.elapsed ∧
    (timSlew s).free = s.free ∧ (timSlew s).pending = s.pending := by
  intros; unfold timSlew
  first
    | ((repeat' split) <;> simp; done)
    | (dsimp only; (repeat' split) <;> simp [*]; done)
    | ((repeat' apply And.intro) <;> dsimp only <;> (repeat' split) <;> simp [*]; done)

@[simp] theorem jumpGen_keeps : ∀ old a b s, (jumpGen old a b s).md = s.md ∧ (jumpGen old a b s).dev = s.dev ∧ (jumpGen
    old a b s).pins = s.pins ∧ (jumpGen old a b s).side = s.side ∧ (jumpGen old a b s).prot = s.prot ∧ (jumpGen old a b
    s).mram = s.mram ∧ (jumpGen old a b s).img = s.img ∧ (jumpGen old a b s).host = s.host ∧ (jumpGen old a b s).lat =
    s.lat ∧ (jumpGen old a b s).acct = s.acct ∧ (jumpGen old a b s).lk = s.lk ∧ (jumpGen old a b s).buf = s.buf ∧
    (jumpGen old a b s).eg = s.eg ∧ (jumpGen old a b s).tab = s.tab ∧ (jumpGen old a b s).gen = s.gen ∧ (jumpGen old a b
    s).eng = s.eng ∧ (jumpGen old a b s).recd = s.recd ∧ (jumpGen old a b s).pmu = s.pmu ∧ (jumpGen old a b s).svc =
    s.svc ∧ (jumpGen old a b s).therm = s.therm ∧ (jumpGen old a b s).hmem = s.hmem ∧ (jumpGen old a b s).now = s.now ∧
    (jumpGen old a b s).elapsed = s.elapsed ∧ (jumpGen old a b s).free = s.free ∧ (jumpGen old a b s).pending =
    s.pending := by
  intros; unfold jumpGen; first | ((repeat' split) <;> simp; done) | (dsimp only; (repeat' split) <;> simp [*]; done)

@[simp] theorem moveWaits_keeps : ∀ a1 s, (moveWaits a1 s).md = s.md ∧ (moveWaits a1 s).dev = s.dev ∧ (moveWaits a1
    s).pins = s.pins ∧ (moveWaits a1 s).side = s.side ∧ (moveWaits a1 s).prot = s.prot ∧ (moveWaits a1 s).mram = s.mram
    ∧ (moveWaits a1 s).img = s.img ∧ (moveWaits a1 s).host = s.host ∧ (moveWaits a1 s).lat = s.lat ∧ (moveWaits a1
    s).acct = s.acct ∧ (moveWaits a1 s).pmu = s.pmu ∧ (moveWaits a1 s).svc = s.svc ∧ (moveWaits a1 s).therm = s.therm ∧
    (moveWaits a1 s).regs = s.regs ∧ (moveWaits a1 s).hmem = s.hmem ∧ (moveWaits a1 s).now = s.now ∧ (moveWaits a1
    s).elapsed = s.elapsed ∧ (moveWaits a1 s).free = s.free ∧ (moveWaits a1 s).pending = s.pending := by
  intros; unfold moveWaits
  first
    | ((repeat' split) <;> simp; done)
    | (dsimp only; (repeat' split) <;> simp [*]; done)
    | ((repeat' apply And.intro) <;> dsimp only <;> (repeat' split) <;> simp [*]; done)

@[simp] theorem keepJudged_keeps : ∀ s, (keepJudged s).md = s.md ∧ (keepJudged s).dev = s.dev ∧ (keepJudged s).pins =
    s.pins ∧ (keepJudged s).side = s.side ∧ (keepJudged s).prot = s.prot ∧ (keepJudged s).mram = s.mram ∧ (keepJudged
    s).img = s.img ∧ (keepJudged s).host = s.host ∧ (keepJudged s).lat = s.lat ∧ (keepJudged s).acct = s.acct ∧
    (keepJudged s).tim = s.tim ∧ (keepJudged s).buf = s.buf ∧ (keepJudged s).eg = s.eg ∧ (keepJudged s).tab = s.tab ∧
    (keepJudged s).gen = s.gen ∧ (keepJudged s).eng = s.eng ∧ (keepJudged s).recd = s.recd ∧ (keepJudged s).pmu = s.pmu
    ∧ (keepJudged s).svc = s.svc ∧ (keepJudged s).therm = s.therm ∧ (keepJudged s).regs = s.regs ∧ (keepJudged s).hmem =
    s.hmem ∧ (keepJudged s).now = s.now ∧ (keepJudged s).elapsed = s.elapsed ∧ (keepJudged s).free = s.free ∧
    (keepJudged s).pending = s.pending := by
  intros; unfold keepJudged
  first
    | ((repeat' split) <;> simp; done)
    | (dsimp only; (repeat' split) <;> simp [*]; done)
    | ((repeat' apply And.intro) <;> dsimp only <;> (repeat' split) <;> simp [*]; done)

@[simp] theorem timeJump_keeps : ∀ a1 s, (timeJump a1 s).dev = s.dev ∧ (timeJump a1 s).pins = s.pins ∧ (timeJump a1
    s).side = s.side ∧ (timeJump a1 s).prot = s.prot ∧ (timeJump a1 s).mram = s.mram ∧ (timeJump a1 s).img = s.img ∧
    (timeJump a1 s).lat = s.lat ∧ (timeJump a1 s).acct = s.acct ∧ (timeJump a1 s).svc = s.svc ∧ (timeJump a1 s).therm =
    s.therm ∧ (timeJump a1 s).hmem = s.hmem ∧ (timeJump a1 s).free = s.free ∧ (timeJump a1 s).pending = s.pending := by
  intros; unfold timeJump
  first
    | ((repeat' split) <;> simp; done)
    | (dsimp only; (repeat' split) <;> simp [*]; done)
    | ((repeat' apply And.intro) <;> dsimp only <;> (repeat' split) <;> simp [*]; done)

@[simp] theorem loopLoses_keeps : ∀ a1 a2 s, (loopLoses a1 a2 s).md = s.md ∧ (loopLoses a1 a2 s).dev = s.dev ∧
    (loopLoses a1 a2 s).pins = s.pins ∧ (loopLoses a1 a2 s).side = s.side ∧ (loopLoses a1 a2 s).prot = s.prot ∧
    (loopLoses a1 a2 s).mram = s.mram ∧ (loopLoses a1 a2 s).img = s.img ∧ (loopLoses a1 a2 s).lat = s.lat ∧ (loopLoses
    a1 a2 s).acct = s.acct ∧ (loopLoses a1 a2 s).lk = s.lk ∧ (loopLoses a1 a2 s).buf = s.buf ∧ (loopLoses a1 a2 s).eg =
    s.eg ∧ (loopLoses a1 a2 s).tab = s.tab ∧ (loopLoses a1 a2 s).gen = s.gen ∧ (loopLoses a1 a2 s).eng = s.eng ∧
    (loopLoses a1 a2 s).recd = s.recd ∧ (loopLoses a1 a2 s).pmu = s.pmu ∧ (loopLoses a1 a2 s).svc = s.svc ∧ (loopLoses
    a1 a2 s).therm = s.therm ∧ (loopLoses a1 a2 s).hmem = s.hmem ∧ (loopLoses a1 a2 s).now = s.now ∧ (loopLoses a1 a2
    s).elapsed = s.elapsed ∧ (loopLoses a1 a2 s).free = s.free ∧ (loopLoses a1 a2 s).pending = s.pending := by
  intros; unfold loopLoses
  first
    | ((repeat' split) <;> simp; done)
    | (dsimp only; (repeat' split) <;> simp [*]; done)
    | ((repeat' apply And.intro) <;> dsimp only <;> (repeat' split) <;> simp [*]; done)

@[simp] theorem sourceChange_keeps : ∀ a old s, (sourceChange a old s).md = s.md ∧ (sourceChange a old s).dev = s.dev ∧
    (sourceChange a old s).pins = s.pins ∧ (sourceChange a old s).side = s.side ∧ (sourceChange a old s).prot = s.prot ∧
    (sourceChange a old s).mram = s.mram ∧ (sourceChange a old s).img = s.img ∧ (sourceChange a old s).lat = s.lat ∧
    (sourceChange a old s).acct = s.acct ∧ (sourceChange a old s).lk = s.lk ∧ (sourceChange a old s).buf = s.buf ∧
    (sourceChange a old s).eg = s.eg ∧ (sourceChange a old s).tab = s.tab ∧ (sourceChange a old s).gen = s.gen ∧
    (sourceChange a old s).eng = s.eng ∧ (sourceChange a old s).recd = s.recd ∧ (sourceChange a old s).pmu = s.pmu ∧
    (sourceChange a old s).svc = s.svc ∧ (sourceChange a old s).therm = s.therm ∧ (sourceChange a old s).hmem = s.hmem ∧
    (sourceChange a old s).now = s.now ∧ (sourceChange a old s).elapsed = s.elapsed ∧ (sourceChange a old s).free =
    s.free ∧ (sourceChange a old s).pending = s.pending := by
  intros; unfold sourceChange; dsimp only; (repeat' split) <;> simp

@[simp] theorem answer_keeps : ∀ a1 s, (answer a1 s).md = s.md ∧ (answer a1 s).dev = s.dev ∧ (answer a1 s).pins = s.pins
    ∧ (answer a1 s).side = s.side ∧ (answer a1 s).prot = s.prot ∧ (answer a1 s).mram = s.mram ∧ (answer a1 s).img =
    s.img ∧ (answer a1 s).host = s.host ∧ (answer a1 s).acct = s.acct ∧ (answer a1 s).lk = s.lk ∧ (answer a1 s).tim =
    s.tim ∧ (answer a1 s).buf = s.buf ∧ (answer a1 s).eg = s.eg ∧ (answer a1 s).tab = s.tab ∧ (answer a1 s).gen = s.gen
    ∧ (answer a1 s).eng = s.eng ∧ (answer a1 s).recd = s.recd ∧ (answer a1 s).pmu = s.pmu ∧ (answer a1 s).svc = s.svc ∧
    (answer a1 s).therm = s.therm ∧ (answer a1 s).regs = s.regs ∧ (answer a1 s).hmem = s.hmem ∧ (answer a1 s).now =
    s.now ∧ (answer a1 s).elapsed = s.elapsed ∧ (answer a1 s).free = s.free ∧ (answer a1 s).pending = s.pending := by
  intros; unfold answer
  first
    | ((repeat' split) <;> simp; done)
    | (dsimp only; (repeat' split) <;> simp [*]; done)
    | ((repeat' apply And.intro) <;> dsimp only <;> (repeat' split) <;> simp [*]; done)

@[simp] theorem tioRise_keeps : ∀ a1 s, (tioRise a1 s).md = s.md ∧ (tioRise a1 s).dev = s.dev ∧ (tioRise a1 s).side =
    s.side ∧ (tioRise a1 s).prot = s.prot ∧ (tioRise a1 s).mram = s.mram ∧ (tioRise a1 s).img = s.img ∧ (tioRise a1
    s).host = s.host ∧ (tioRise a1 s).lat = s.lat ∧ (tioRise a1 s).acct = s.acct ∧ (tioRise a1 s).lk = s.lk ∧ (tioRise
    a1 s).buf = s.buf ∧ (tioRise a1 s).eg = s.eg ∧ (tioRise a1 s).tab = s.tab ∧ (tioRise a1 s).gen = s.gen ∧ (tioRise a1
    s).eng = s.eng ∧ (tioRise a1 s).recd = s.recd ∧ (tioRise a1 s).pmu = s.pmu ∧ (tioRise a1 s).svc = s.svc ∧ (tioRise
    a1 s).therm = s.therm ∧ (tioRise a1 s).regs = s.regs ∧ (tioRise a1 s).hmem = s.hmem ∧ (tioRise a1 s).now = s.now ∧
    (tioRise a1 s).elapsed = s.elapsed ∧ (tioRise a1 s).free = s.free ∧ (tioRise a1 s).pending = s.pending := by
  intros; unfold tioRise
  first
    | ((repeat' split) <;> simp; done)
    | (dsimp only; (repeat' split) <;> simp [*]; done)
    | ((repeat' apply And.intro) <;> dsimp only <;> (repeat' split) <;> simp [*]; done)

@[simp] theorem tioLevel_keeps : ∀ a1 a2 s, (tioLevel a1 a2 s).md = s.md ∧ (tioLevel a1 a2 s).dev = s.dev ∧ (tioLevel a1
    a2 s).side = s.side ∧ (tioLevel a1 a2 s).prot = s.prot ∧ (tioLevel a1 a2 s).mram = s.mram ∧ (tioLevel a1 a2 s).img =
    s.img ∧ (tioLevel a1 a2 s).host = s.host ∧ (tioLevel a1 a2 s).lat = s.lat ∧ (tioLevel a1 a2 s).acct = s.acct ∧
    (tioLevel a1 a2 s).lk = s.lk ∧ (tioLevel a1 a2 s).tim = s.tim ∧ (tioLevel a1 a2 s).buf = s.buf ∧ (tioLevel a1 a2
    s).eg = s.eg ∧ (tioLevel a1 a2 s).tab = s.tab ∧ (tioLevel a1 a2 s).gen = s.gen ∧ (tioLevel a1 a2 s).eng = s.eng ∧
    (tioLevel a1 a2 s).recd = s.recd ∧ (tioLevel a1 a2 s).pmu = s.pmu ∧ (tioLevel a1 a2 s).svc = s.svc ∧ (tioLevel a1 a2
    s).therm = s.therm ∧ (tioLevel a1 a2 s).regs = s.regs ∧ (tioLevel a1 a2 s).hmem = s.hmem ∧ (tioLevel a1 a2 s).now =
    s.now ∧ (tioLevel a1 a2 s).elapsed = s.elapsed ∧ (tioLevel a1 a2 s).free = s.free ∧ (tioLevel a1 a2 s).pending =
    s.pending := by
  intros; unfold tioLevel
  first
    | ((repeat' split) <;> simp; done)
    | (dsimp only; (repeat' split) <;> simp [*]; done)
    | ((repeat' apply And.intro) <;> dsimp only <;> (repeat' split) <;> simp [*]; done)

@[simp] theorem fifoRead_md (o : Nat) (e : List (List Nat)) (f : List (List Nat) → State → State) (s : State) (h : ∀ e
    s, (f e s).md = s.md) : (fifoRead o e f s).md = s.md := by
  unfold fifoRead; (repeat' split) <;> simp [h]

@[simp] theorem fifoRead_dev (o : Nat) (e : List (List Nat)) (f : List (List Nat) → State → State) (s : State) (h : ∀ e
    s, (f e s).dev = s.dev) : (fifoRead o e f s).dev = s.dev := by
  unfold fifoRead; (repeat' split) <;> simp [h]

@[simp] theorem fifoRead_pins (o : Nat) (e : List (List Nat)) (f : List (List Nat) → State → State) (s : State) (h : ∀ e
    s, (f e s).pins = s.pins) : (fifoRead o e f s).pins = s.pins := by
  unfold fifoRead; (repeat' split) <;> simp [h]

@[simp] theorem fifoRead_side (o : Nat) (e : List (List Nat)) (f : List (List Nat) → State → State) (s : State) (h : ∀ e
    s, (f e s).side = s.side) : (fifoRead o e f s).side = s.side := by
  unfold fifoRead; (repeat' split) <;> simp [h]

@[simp] theorem fifoRead_prot (o : Nat) (e : List (List Nat)) (f : List (List Nat) → State → State) (s : State) (h : ∀ e
    s, (f e s).prot = s.prot) : (fifoRead o e f s).prot = s.prot := by
  unfold fifoRead; (repeat' split) <;> simp [h]

@[simp] theorem fifoRead_mram (o : Nat) (e : List (List Nat)) (f : List (List Nat) → State → State) (s : State) (h : ∀ e
    s, (f e s).mram = s.mram) : (fifoRead o e f s).mram = s.mram := by
  unfold fifoRead; (repeat' split) <;> simp [h]

@[simp] theorem fifoRead_img (o : Nat) (e : List (List Nat)) (f : List (List Nat) → State → State) (s : State) (h : ∀ e
    s, (f e s).img = s.img) : (fifoRead o e f s).img = s.img := by
  unfold fifoRead; (repeat' split) <;> simp [h]

@[simp] theorem fifoRead_host (o : Nat) (e : List (List Nat)) (f : List (List Nat) → State → State) (s : State) (h : ∀ e
    s, (f e s).host = s.host) : (fifoRead o e f s).host = s.host := by
  unfold fifoRead; (repeat' split) <;> simp [h]

@[simp] theorem fifoRead_acct (o : Nat) (e : List (List Nat)) (f : List (List Nat) → State → State) (s : State) (h : ∀ e
    s, (f e s).acct = s.acct) : (fifoRead o e f s).acct = s.acct := by
  unfold fifoRead; (repeat' split) <;> simp [h]

@[simp] theorem fifoRead_lk (o : Nat) (e : List (List Nat)) (f : List (List Nat) → State → State) (s : State) (h : ∀ e
    s, (f e s).lk = s.lk) : (fifoRead o e f s).lk = s.lk := by
  unfold fifoRead; (repeat' split) <;> simp [h]

@[simp] theorem fifoRead_tim (o : Nat) (e : List (List Nat)) (f : List (List Nat) → State → State) (s : State) (h : ∀ e
    s, (f e s).tim = s.tim) : (fifoRead o e f s).tim = s.tim := by
  unfold fifoRead; (repeat' split) <;> simp [h]

@[simp] theorem fifoRead_buf (o : Nat) (e : List (List Nat)) (f : List (List Nat) → State → State) (s : State) (h : ∀ e
    s, (f e s).buf = s.buf) : (fifoRead o e f s).buf = s.buf := by
  unfold fifoRead; (repeat' split) <;> simp [h]

@[simp] theorem fifoRead_eg (o : Nat) (e : List (List Nat)) (f : List (List Nat) → State → State) (s : State) (h : ∀ e
    s, (f e s).eg = s.eg) : (fifoRead o e f s).eg = s.eg := by
  unfold fifoRead; (repeat' split) <;> simp [h]

@[simp] theorem fifoRead_tab (o : Nat) (e : List (List Nat)) (f : List (List Nat) → State → State) (s : State) (h : ∀ e
    s, (f e s).tab = s.tab) : (fifoRead o e f s).tab = s.tab := by
  unfold fifoRead; (repeat' split) <;> simp [h]

@[simp] theorem fifoRead_gen (o : Nat) (e : List (List Nat)) (f : List (List Nat) → State → State) (s : State) (h : ∀ e
    s, (f e s).gen = s.gen) : (fifoRead o e f s).gen = s.gen := by
  unfold fifoRead; (repeat' split) <;> simp [h]

@[simp] theorem fifoRead_eng (o : Nat) (e : List (List Nat)) (f : List (List Nat) → State → State) (s : State) (h : ∀ e
    s, (f e s).eng = s.eng) : (fifoRead o e f s).eng = s.eng := by
  unfold fifoRead; (repeat' split) <;> simp [h]

@[simp] theorem fifoRead_recd (o : Nat) (e : List (List Nat)) (f : List (List Nat) → State → State) (s : State) (h : ∀ e
    s, (f e s).recd = s.recd) : (fifoRead o e f s).recd = s.recd := by
  unfold fifoRead; (repeat' split) <;> simp [h]

@[simp] theorem fifoRead_pmu (o : Nat) (e : List (List Nat)) (f : List (List Nat) → State → State) (s : State) (h : ∀ e
    s, (f e s).pmu = s.pmu) : (fifoRead o e f s).pmu = s.pmu := by
  unfold fifoRead; (repeat' split) <;> simp [h]

@[simp] theorem fifoRead_svc (o : Nat) (e : List (List Nat)) (f : List (List Nat) → State → State) (s : State) (h : ∀ e
    s, (f e s).svc = s.svc) : (fifoRead o e f s).svc = s.svc := by
  unfold fifoRead; (repeat' split) <;> simp [h]

@[simp] theorem fifoRead_therm (o : Nat) (e : List (List Nat)) (f : List (List Nat) → State → State) (s : State) (h : ∀
    e s, (f e s).therm = s.therm) : (fifoRead o e f s).therm = s.therm := by
  unfold fifoRead; (repeat' split) <;> simp [h]

@[simp] theorem fifoRead_hmem (o : Nat) (e : List (List Nat)) (f : List (List Nat) → State → State) (s : State) (h : ∀ e
    s, (f e s).hmem = s.hmem) : (fifoRead o e f s).hmem = s.hmem := by
  unfold fifoRead; (repeat' split) <;> simp [h]

@[simp] theorem fifoRead_now (o : Nat) (e : List (List Nat)) (f : List (List Nat) → State → State) (s : State) (h : ∀ e
    s, (f e s).now = s.now) : (fifoRead o e f s).now = s.now := by
  unfold fifoRead; (repeat' split) <;> simp [h]

@[simp] theorem fifoRead_elapsed (o : Nat) (e : List (List Nat)) (f : List (List Nat) → State → State) (s : State) (h :
    ∀ e s, (f e s).elapsed = s.elapsed) : (fifoRead o e f s).elapsed = s.elapsed := by
  unfold fifoRead; (repeat' split) <;> simp [h]

@[simp] theorem fifoRead_free (o : Nat) (e : List (List Nat)) (f : List (List Nat) → State → State) (s : State) (h : ∀ e
    s, (f e s).free = s.free) : (fifoRead o e f s).free = s.free := by
  unfold fifoRead; (repeat' split) <;> simp [h]

@[simp] theorem fifoRead_pending (o : Nat) (e : List (List Nat)) (f : List (List Nat) → State → State) (s : State) (h :
    ∀ e s, (f e s).pending = s.pending) : (fifoRead o e f s).pending = s.pending := by
  unfold fifoRead; (repeat' split) <;> simp [h]

@[simp] theorem cycMarks_keeps : ∀ a1 s, (cycMarks a1 s).md = s.md ∧ (cycMarks a1 s).dev = s.dev ∧ (cycMarks a1 s).pins
    = s.pins ∧ (cycMarks a1 s).side = s.side ∧ (cycMarks a1 s).prot = s.prot ∧ (cycMarks a1 s).mram = s.mram ∧ (cycMarks
    a1 s).img = s.img ∧ (cycMarks a1 s).host = s.host ∧ (cycMarks a1 s).lat = s.lat ∧ (cycMarks a1 s).acct = s.acct ∧
    (cycMarks a1 s).tim = s.tim ∧ (cycMarks a1 s).buf = s.buf ∧ (cycMarks a1 s).eg = s.eg ∧ (cycMarks a1 s).tab = s.tab
    ∧ (cycMarks a1 s).gen = s.gen ∧ (cycMarks a1 s).eng = s.eng ∧ (cycMarks a1 s).recd = s.recd ∧ (cycMarks a1 s).pmu =
    s.pmu ∧ (cycMarks a1 s).svc = s.svc ∧ (cycMarks a1 s).therm = s.therm ∧ (cycMarks a1 s).hmem = s.hmem ∧ (cycMarks a1
    s).now = s.now ∧ (cycMarks a1 s).elapsed = s.elapsed ∧ (cycMarks a1 s).free = s.free ∧ (cycMarks a1 s).pending =
    s.pending := by
  intros; unfold cycMarks
  first
    | ((repeat' split) <;> simp; done)
    | (dsimp only; (repeat' split) <;> simp [*]; done)
    | ((repeat' apply And.intro) <;> dsimp only <;> (repeat' split) <;> simp [*]; done)

@[simp] theorem feedCapture_keeps : ∀ a1 a2 s, (feedCapture a1 a2 s).md = s.md ∧ (feedCapture a1 a2 s).dev = s.dev ∧
    (feedCapture a1 a2 s).pins = s.pins ∧ (feedCapture a1 a2 s).side = s.side ∧ (feedCapture a1 a2 s).prot = s.prot ∧
    (feedCapture a1 a2 s).mram = s.mram ∧ (feedCapture a1 a2 s).img = s.img ∧ (feedCapture a1 a2 s).lat = s.lat ∧
    (feedCapture a1 a2 s).acct = s.acct ∧ (feedCapture a1 a2 s).lk = s.lk ∧ (feedCapture a1 a2 s).buf = s.buf ∧
    (feedCapture a1 a2 s).eg = s.eg ∧ (feedCapture a1 a2 s).tab = s.tab ∧ (feedCapture a1 a2 s).gen = s.gen ∧
    (feedCapture a1 a2 s).eng = s.eng ∧ (feedCapture a1 a2 s).pmu = s.pmu ∧ (feedCapture a1 a2 s).svc = s.svc ∧
    (feedCapture a1 a2 s).therm = s.therm ∧ (feedCapture a1 a2 s).hmem = s.hmem ∧ (feedCapture a1 a2 s).now = s.now ∧
    (feedCapture a1 a2 s).elapsed = s.elapsed ∧ (feedCapture a1 a2 s).free = s.free ∧ (feedCapture a1 a2 s).pending =
    s.pending := by
  intros; unfold feedCapture
  first
    | ((repeat' split) <;> simp; done)
    | (dsimp only; (repeat' split) <;> simp [*]; done)
    | ((repeat' apply And.intro) <;> dsimp only <;> (repeat' split) <;> simp [*]; done)

@[simp] theorem syncUnits_keeps : ∀ a1 a2 s, (syncUnits a1 a2 s).md = s.md ∧ (syncUnits a1 a2 s).dev = s.dev ∧
    (syncUnits a1 a2 s).pins = s.pins ∧ (syncUnits a1 a2 s).side = s.side ∧ (syncUnits a1 a2 s).prot = s.prot ∧
    (syncUnits a1 a2 s).mram = s.mram ∧ (syncUnits a1 a2 s).img = s.img ∧ (syncUnits a1 a2 s).host = s.host ∧ (syncUnits
    a1 a2 s).lat = s.lat ∧ (syncUnits a1 a2 s).acct = s.acct ∧ (syncUnits a1 a2 s).lk = s.lk ∧ (syncUnits a1 a2 s).tim =
    s.tim ∧ (syncUnits a1 a2 s).buf = s.buf ∧ (syncUnits a1 a2 s).eg = s.eg ∧ (syncUnits a1 a2 s).tab = s.tab ∧
    (syncUnits a1 a2 s).gen = s.gen ∧ (syncUnits a1 a2 s).eng = s.eng ∧ (syncUnits a1 a2 s).recd = s.recd ∧ (syncUnits
    a1 a2 s).svc = s.svc ∧ (syncUnits a1 a2 s).therm = s.therm ∧ (syncUnits a1 a2 s).regs = s.regs ∧ (syncUnits a1 a2
    s).hmem = s.hmem ∧ (syncUnits a1 a2 s).now = s.now ∧ (syncUnits a1 a2 s).elapsed = s.elapsed ∧ (syncUnits a1 a2
    s).free = s.free ∧ (syncUnits a1 a2 s).pending = s.pending := by
  intros; unfold syncUnits
  first
    | ((repeat' split) <;> simp; done)
    | (dsimp only; (repeat' split) <;> simp [*]; done)
    | ((repeat' apply And.intro) <;> dsimp only <;> (repeat' split) <;> simp [*]; done)

@[simp] theorem edgeRecorder_keeps : ∀ a1 a2 a3 s, (edgeRecorder a1 a2 a3 s).md = s.md ∧ (edgeRecorder a1 a2 a3 s).dev =
    s.dev ∧ (edgeRecorder a1 a2 a3 s).pins = s.pins ∧ (edgeRecorder a1 a2 a3 s).side = s.side ∧ (edgeRecorder a1 a2 a3
    s).prot = s.prot ∧ (edgeRecorder a1 a2 a3 s).mram = s.mram ∧ (edgeRecorder a1 a2 a3 s).img = s.img ∧ (edgeRecorder
    a1 a2 a3 s).lat = s.lat ∧ (edgeRecorder a1 a2 a3 s).acct = s.acct ∧ (edgeRecorder a1 a2 a3 s).tim = s.tim ∧
    (edgeRecorder a1 a2 a3 s).eg = s.eg ∧ (edgeRecorder a1 a2 a3 s).tab = s.tab ∧ (edgeRecorder a1 a2 a3 s).gen = s.gen
    ∧ (edgeRecorder a1 a2 a3 s).eng = s.eng ∧ (edgeRecorder a1 a2 a3 s).svc = s.svc ∧ (edgeRecorder a1 a2 a3 s).therm =
    s.therm ∧ (edgeRecorder a1 a2 a3 s).hmem = s.hmem ∧ (edgeRecorder a1 a2 a3 s).now = s.now ∧ (edgeRecorder a1 a2 a3
    s).elapsed = s.elapsed ∧ (edgeRecorder a1 a2 a3 s).free = s.free ∧ (edgeRecorder a1 a2 a3 s).pending = s.pending :=
    by
  intros; unfold edgeRecorder
  first
    | ((repeat' split) <;> simp; done)
    | (dsimp only; (repeat' split) <;> simp [*]; done)
    | ((repeat' apply And.intro) <;> dsimp only <;> (repeat' split) <;> simp [*]; done)

@[simp] theorem tioEdges_keeps : ∀ a1 a2 s, (tioEdges a1 a2 s).md = s.md ∧ (tioEdges a1 a2 s).dev = s.dev ∧ (tioEdges a1
    a2 s).pins = s.pins ∧ (tioEdges a1 a2 s).side = s.side ∧ (tioEdges a1 a2 s).prot = s.prot ∧ (tioEdges a1 a2 s).mram
    = s.mram ∧ (tioEdges a1 a2 s).img = s.img ∧ (tioEdges a1 a2 s).host = s.host ∧ (tioEdges a1 a2 s).lat = s.lat ∧
    (tioEdges a1 a2 s).acct = s.acct ∧ (tioEdges a1 a2 s).lk = s.lk ∧ (tioEdges a1 a2 s).buf = s.buf ∧ (tioEdges a1 a2
    s).eg = s.eg ∧ (tioEdges a1 a2 s).tab = s.tab ∧ (tioEdges a1 a2 s).gen = s.gen ∧ (tioEdges a1 a2 s).eng = s.eng ∧
    (tioEdges a1 a2 s).recd = s.recd ∧ (tioEdges a1 a2 s).pmu = s.pmu ∧ (tioEdges a1 a2 s).svc = s.svc ∧ (tioEdges a1 a2
    s).therm = s.therm ∧ (tioEdges a1 a2 s).regs = s.regs ∧ (tioEdges a1 a2 s).hmem = s.hmem ∧ (tioEdges a1 a2 s).now =
    s.now ∧ (tioEdges a1 a2 s).elapsed = s.elapsed ∧ (tioEdges a1 a2 s).free = s.free ∧ (tioEdges a1 a2 s).pending =
    s.pending := by
  intros; unfold tioEdges
  first
    | ((repeat' split) <;> simp; done)
    | (dsimp only; (repeat' split) <;> simp [*]; done)
    | ((repeat' apply And.intro) <;> dsimp only <;> (repeat' split) <;> simp [*]; done)

@[simp] theorem makeEdge_keeps : ∀ a1 s, (makeEdge a1 s).md = s.md ∧ (makeEdge a1 s).dev = s.dev ∧ (makeEdge a1 s).pins
    = s.pins ∧ (makeEdge a1 s).side = s.side ∧ (makeEdge a1 s).prot = s.prot ∧ (makeEdge a1 s).mram = s.mram ∧ (makeEdge
    a1 s).img = s.img ∧ (makeEdge a1 s).lat = s.lat ∧ (makeEdge a1 s).acct = s.acct ∧ (makeEdge a1 s).eg = s.eg ∧
    (makeEdge a1 s).tab = s.tab ∧ (makeEdge a1 s).gen = s.gen ∧ (makeEdge a1 s).svc = s.svc ∧ (makeEdge a1 s).therm =
    s.therm ∧ (makeEdge a1 s).hmem = s.hmem ∧ (makeEdge a1 s).free = s.free ∧ (makeEdge a1 s).pending = s.pending := by
  intros; unfold makeEdge
  first
    | ((repeat' split) <;> simp; done)
    | (dsimp only; (repeat' split) <;> simp [*]; done)
    | ((repeat' apply And.intro) <;> dsimp only <;> (repeat' split) <;> simp [*]; done)

end Sys2Proof.Laws
end

