-- ==== Sys2Proof/Laws/FramesHost.lean ====
section
/-! SUPPORT. Frame lemmas of the commit engine, the recorder, the internal ports, table commands, register accesses, images, counters,
power and the step. -/

namespace Sys2Proof.Laws

open Sys2Proof Sys2Proof.Machine

-- The lemmas share one proof text, whose later alternatives some of them do not need.

@[simp] theorem modGen_keeps : ∀ a1 s, (modGen a1 s).md = s.md ∧ (modGen a1 s).dev = s.dev ∧ (modGen a1 s).pins = s.pins
    ∧ (modGen a1 s).side = s.side ∧ (modGen a1 s).prot = s.prot ∧ (modGen a1 s).mram = s.mram ∧ (modGen a1 s).img =
    s.img ∧ (modGen a1 s).host = s.host ∧ (modGen a1 s).lat = s.lat ∧ (modGen a1 s).acct = s.acct ∧ (modGen a1 s).lk =
    s.lk ∧ (modGen a1 s).tim = s.tim ∧ (modGen a1 s).buf = s.buf ∧ (modGen a1 s).eg = s.eg ∧ (modGen a1 s).tab = s.tab ∧
    (modGen a1 s).eng = s.eng ∧ (modGen a1 s).recd = s.recd ∧ (modGen a1 s).pmu = s.pmu ∧ (modGen a1 s).svc = s.svc ∧
    (modGen a1 s).therm = s.therm ∧ (modGen a1 s).regs = s.regs ∧ (modGen a1 s).hmem = s.hmem ∧ (modGen a1 s).now =
    s.now ∧ (modGen a1 s).elapsed = s.elapsed ∧ (modGen a1 s).free = s.free ∧ (modGen a1 s).pending = s.pending := by
  intros; unfold modGen
  first
    | ((repeat' split) <;> simp; done)
    | (dsimp only; (repeat' split) <;> simp [*]; done)
    | ((repeat' apply And.intro) <;> dsimp only <;> (repeat' split) <;> simp [*]; done)

@[simp] theorem startChecking_keeps : ∀ a1 a2 a3 a4 s, (startChecking a1 a2 a3 a4 s).md = s.md ∧ (startChecking a1 a2 a3
    a4 s).dev = s.dev ∧ (startChecking a1 a2 a3 a4 s).pins = s.pins ∧ (startChecking a1 a2 a3 a4 s).side = s.side ∧
    (startChecking a1 a2 a3 a4 s).prot = s.prot ∧ (startChecking a1 a2 a3 a4 s).mram = s.mram ∧ (startChecking a1 a2 a3
    a4 s).img = s.img ∧ (startChecking a1 a2 a3 a4 s).host = s.host ∧ (startChecking a1 a2 a3 a4 s).lat = s.lat ∧
    (startChecking a1 a2 a3 a4 s).acct = s.acct ∧ (startChecking a1 a2 a3 a4 s).lk = s.lk ∧ (startChecking a1 a2 a3 a4
    s).tim = s.tim ∧ (startChecking a1 a2 a3 a4 s).buf = s.buf ∧ (startChecking a1 a2 a3 a4 s).eg = s.eg ∧
    (startChecking a1 a2 a3 a4 s).tab = s.tab ∧ (startChecking a1 a2 a3 a4 s).eng = s.eng ∧ (startChecking a1 a2 a3 a4
    s).recd = s.recd ∧ (startChecking a1 a2 a3 a4 s).pmu = s.pmu ∧ (startChecking a1 a2 a3 a4 s).svc = s.svc ∧
    (startChecking a1 a2 a3 a4 s).therm = s.therm ∧ (startChecking a1 a2 a3 a4 s).regs = s.regs ∧ (startChecking a1 a2
    a3 a4 s).hmem = s.hmem ∧ (startChecking a1 a2 a3 a4 s).now = s.now ∧ (startChecking a1 a2 a3 a4 s).elapsed =
    s.elapsed ∧ (startChecking a1 a2 a3 a4 s).free = s.free ∧ (startChecking a1 a2 a3 a4 s).pending = s.pending := by
  intros; unfold startChecking
  first
    | ((repeat' split) <;> simp; done)
    | (dsimp only; (repeat' split) <;> simp [*]; done)
    | ((repeat' apply And.intro) <;> dsimp only <;> (repeat' split) <;> simp [*]; done)

@[simp] theorem setLastStatus_keeps : ∀ a1 s, (setLastStatus a1 s).md = s.md ∧ (setLastStatus a1 s).dev = s.dev ∧
    (setLastStatus a1 s).pins = s.pins ∧ (setLastStatus a1 s).side = s.side ∧ (setLastStatus a1 s).prot = s.prot ∧
    (setLastStatus a1 s).mram = s.mram ∧ (setLastStatus a1 s).img = s.img ∧ (setLastStatus a1 s).host = s.host ∧
    (setLastStatus a1 s).lat = s.lat ∧ (setLastStatus a1 s).acct = s.acct ∧ (setLastStatus a1 s).lk = s.lk ∧
    (setLastStatus a1 s).tim = s.tim ∧ (setLastStatus a1 s).buf = s.buf ∧ (setLastStatus a1 s).eg = s.eg ∧
    (setLastStatus a1 s).tab = s.tab ∧ (setLastStatus a1 s).eng = s.eng ∧ (setLastStatus a1 s).recd = s.recd ∧
    (setLastStatus a1 s).pmu = s.pmu ∧ (setLastStatus a1 s).svc = s.svc ∧ (setLastStatus a1 s).therm = s.therm ∧
    (setLastStatus a1 s).regs = s.regs ∧ (setLastStatus a1 s).hmem = s.hmem ∧ (setLastStatus a1 s).now = s.now ∧
    (setLastStatus a1 s).elapsed = s.elapsed ∧ (setLastStatus a1 s).free = s.free ∧ (setLastStatus a1 s).pending =
    s.pending := by
  intros; unfold setLastStatus
  first
    | ((repeat' split) <;> simp; done)
    | (dsimp only; (repeat' split) <;> simp [*]; done)
    | ((repeat' apply And.intro) <;> dsimp only <;> (repeat' split) <;> simp [*]; done)

@[simp] theorem startDiscard_keeps : ∀ a1 s, (startDiscard a1 s).md = s.md ∧ (startDiscard a1 s).dev = s.dev ∧
    (startDiscard a1 s).pins = s.pins ∧ (startDiscard a1 s).side = s.side ∧ (startDiscard a1 s).prot = s.prot ∧
    (startDiscard a1 s).mram = s.mram ∧ (startDiscard a1 s).img = s.img ∧ (startDiscard a1 s).host = s.host ∧
    (startDiscard a1 s).lat = s.lat ∧ (startDiscard a1 s).acct = s.acct ∧ (startDiscard a1 s).lk = s.lk ∧ (startDiscard
    a1 s).tim = s.tim ∧ (startDiscard a1 s).buf = s.buf ∧ (startDiscard a1 s).eg = s.eg ∧ (startDiscard a1 s).tab =
    s.tab ∧ (startDiscard a1 s).eng = s.eng ∧ (startDiscard a1 s).recd = s.recd ∧ (startDiscard a1 s).pmu = s.pmu ∧
    (startDiscard a1 s).svc = s.svc ∧ (startDiscard a1 s).therm = s.therm ∧ (startDiscard a1 s).regs = s.regs ∧
    (startDiscard a1 s).hmem = s.hmem ∧ (startDiscard a1 s).now = s.now ∧ (startDiscard a1 s).elapsed = s.elapsed ∧
    (startDiscard a1 s).free = s.free ∧ (startDiscard a1 s).pending = s.pending := by
  intros; unfold startDiscard
  first
    | ((repeat' split) <;> simp; done)
    | (dsimp only; (repeat' split) <;> simp [*]; done)
    | ((repeat' apply And.intro) <;> dsimp only <;> (repeat' split) <;> simp [*]; done)

@[simp] theorem genCmdWrite_md (f : State → State) (s : State) (h : ∀ s, (f s).md = s.md) : (genCmdWrite f s).md = s.md := by
  unfold genCmdWrite; apply pf0Write_md; intro s; split; simp; exact h s

@[simp] theorem genCmdWrite_dev (f : State → State) (s : State) (h : ∀ s, (f s).dev = s.dev) : (genCmdWrite f s).dev =
    s.dev := by
  unfold genCmdWrite; apply pf0Write_dev; intro s; split; simp; exact h s

@[simp] theorem genCmdWrite_pins (f : State → State) (s : State) (h : ∀ s, (f s).pins = s.pins) : (genCmdWrite f s).pins
    = s.pins := by
  unfold genCmdWrite; apply pf0Write_pins; intro s; split; simp; exact h s

@[simp] theorem genCmdWrite_prot (f : State → State) (s : State) (h : ∀ s, (f s).prot = s.prot) : (genCmdWrite f s).prot
    = s.prot := by
  unfold genCmdWrite; apply pf0Write_prot; intro s; split; simp; exact h s

@[simp] theorem genCmdWrite_mram (f : State → State) (s : State) (h : ∀ s, (f s).mram = s.mram) : (genCmdWrite f s).mram
    = s.mram := by
  unfold genCmdWrite; apply pf0Write_mram; intro s; split; simp; exact h s

@[simp] theorem genCmdWrite_img (f : State → State) (s : State) (h : ∀ s, (f s).img = s.img) : (genCmdWrite f s).img =
    s.img := by
  unfold genCmdWrite; apply pf0Write_img; intro s; split; simp; exact h s

@[simp] theorem genCmdWrite_lat (f : State → State) (s : State) (h : ∀ s, (f s).lat = s.lat) : (genCmdWrite f s).lat =
    s.lat := by
  unfold genCmdWrite; apply pf0Write_lat; intro s; split; simp; exact h s

@[simp] theorem genCmdWrite_acct (f : State → State) (s : State) (h : ∀ s, (f s).acct = s.acct) : (genCmdWrite f s).acct
    = s.acct := by
  unfold genCmdWrite; apply pf0Write_acct; intro s; split; simp; exact h s

@[simp] theorem genCmdWrite_lk (f : State → State) (s : State) (h : ∀ s, (f s).lk = s.lk) : (genCmdWrite f s).lk = s.lk := by
  unfold genCmdWrite; apply pf0Write_lk; intro s; split; simp; exact h s

@[simp] theorem genCmdWrite_tim (f : State → State) (s : State) (h : ∀ s, (f s).tim = s.tim) : (genCmdWrite f s).tim =
    s.tim := by
  unfold genCmdWrite; apply pf0Write_tim; intro s; split; simp; exact h s

@[simp] theorem genCmdWrite_buf (f : State → State) (s : State) (h : ∀ s, (f s).buf = s.buf) : (genCmdWrite f s).buf =
    s.buf := by
  unfold genCmdWrite; apply pf0Write_buf; intro s; split; simp; exact h s

@[simp] theorem genCmdWrite_eg (f : State → State) (s : State) (h : ∀ s, (f s).eg = s.eg) : (genCmdWrite f s).eg = s.eg := by
  unfold genCmdWrite; apply pf0Write_eg; intro s; split; simp; exact h s

@[simp] theorem genCmdWrite_tab (f : State → State) (s : State) (h : ∀ s, (f s).tab = s.tab) : (genCmdWrite f s).tab =
    s.tab := by
  unfold genCmdWrite; apply pf0Write_tab; intro s; split; simp; exact h s

@[simp] theorem genCmdWrite_eng (f : State → State) (s : State) (h : ∀ s, (f s).eng = s.eng) : (genCmdWrite f s).eng =
    s.eng := by
  unfold genCmdWrite; apply pf0Write_eng; intro s; split; simp; exact h s

@[simp] theorem genCmdWrite_recd (f : State → State) (s : State) (h : ∀ s, (f s).recd = s.recd) : (genCmdWrite f s).recd
    = s.recd := by
  unfold genCmdWrite; apply pf0Write_recd; intro s; split; simp; exact h s

@[simp] theorem genCmdWrite_pmu (f : State → State) (s : State) (h : ∀ s, (f s).pmu = s.pmu) : (genCmdWrite f s).pmu =
    s.pmu := by
  unfold genCmdWrite; apply pf0Write_pmu; intro s; split; simp; exact h s

@[simp] theorem genCmdWrite_svc (f : State → State) (s : State) (h : ∀ s, (f s).svc = s.svc) : (genCmdWrite f s).svc =
    s.svc := by
  unfold genCmdWrite; apply pf0Write_svc; intro s; split; simp; exact h s

@[simp] theorem genCmdWrite_therm (f : State → State) (s : State) (h : ∀ s, (f s).therm = s.therm) : (genCmdWrite f
    s).therm = s.therm := by
  unfold genCmdWrite; apply pf0Write_therm; intro s; split; simp; exact h s

@[simp] theorem genCmdWrite_hmem (f : State → State) (s : State) (h : ∀ s, (f s).hmem = s.hmem) : (genCmdWrite f s).hmem
    = s.hmem := by
  unfold genCmdWrite; apply pf0Write_hmem; intro s; split; simp; exact h s

@[simp] theorem genCmdWrite_now (f : State → State) (s : State) (h : ∀ s, (f s).now = s.now) : (genCmdWrite f s).now =
    s.now := by
  unfold genCmdWrite; apply pf0Write_now; intro s; split; simp; exact h s

@[simp] theorem genCmdWrite_elapsed (f : State → State) (s : State) (h : ∀ s, (f s).elapsed = s.elapsed) : (genCmdWrite
    f s).elapsed = s.elapsed := by
  unfold genCmdWrite; apply pf0Write_elapsed; intro s; split; simp; exact h s

@[simp] theorem genCmdWrite_free (f : State → State) (s : State) (h : ∀ s, (f s).free = s.free) : (genCmdWrite f s).free
    = s.free := by
  unfold genCmdWrite; apply pf0Write_free; intro s; split; simp; exact h s

@[simp] theorem genCmdWrite_pending (f : State → State) (s : State) (h : ∀ s, (f s).pending = s.pending) : (genCmdWrite
    f s).pending = s.pending := by
  unfold genCmdWrite; apply pf0Write_pending; intro s; split; simp; exact h s

@[simp] theorem genCmdOther_keeps : ∀ s, (genCmdOther s).md = s.md ∧ (genCmdOther s).dev = s.dev ∧ (genCmdOther s).pins
    = s.pins ∧ (genCmdOther s).prot = s.prot ∧ (genCmdOther s).mram = s.mram ∧ (genCmdOther s).img = s.img ∧
    (genCmdOther s).lat = s.lat ∧ (genCmdOther s).acct = s.acct ∧ (genCmdOther s).lk = s.lk ∧ (genCmdOther s).tim =
    s.tim ∧ (genCmdOther s).buf = s.buf ∧ (genCmdOther s).eg = s.eg ∧ (genCmdOther s).tab = s.tab ∧ (genCmdOther s).eng
    = s.eng ∧ (genCmdOther s).recd = s.recd ∧ (genCmdOther s).pmu = s.pmu ∧ (genCmdOther s).svc = s.svc ∧ (genCmdOther
    s).therm = s.therm ∧ (genCmdOther s).hmem = s.hmem ∧ (genCmdOther s).now = s.now ∧ (genCmdOther s).elapsed =
    s.elapsed ∧ (genCmdOther s).free = s.free ∧ (genCmdOther s).pending = s.pending := by
  intros; unfold genCmdOther
  first
    | ((repeat' split) <;> simp; done)
    | (dsimp only; (repeat' split) <;> simp [*]; done)
    | ((repeat' apply And.intro) <;> dsimp only <;> (repeat' split) <;> simp [*]; done)

@[simp] theorem answerGen_keeps : ∀ a1 a2 s, (answerGen a1 a2 s).md = s.md ∧ (answerGen a1 a2 s).dev = s.dev ∧
    (answerGen a1 a2 s).pins = s.pins ∧ (answerGen a1 a2 s).side = s.side ∧ (answerGen a1 a2 s).prot = s.prot ∧
    (answerGen a1 a2 s).mram = s.mram ∧ (answerGen a1 a2 s).lat = s.lat ∧ (answerGen a1 a2 s).acct = s.acct ∧ (answerGen
    a1 a2 s).lk = s.lk ∧ (answerGen a1 a2 s).tim = s.tim ∧ (answerGen a1 a2 s).buf = s.buf ∧ (answerGen a1 a2 s).eg =
    s.eg ∧ (answerGen a1 a2 s).eng = s.eng ∧ (answerGen a1 a2 s).recd = s.recd ∧ (answerGen a1 a2 s).svc = s.svc ∧
    (answerGen a1 a2 s).therm = s.therm ∧ (answerGen a1 a2 s).now = s.now ∧ (answerGen a1 a2 s).elapsed = s.elapsed ∧
    (answerGen a1 a2 s).free = s.free ∧ (answerGen a1 a2 s).pending = s.pending := by
  intros; unfold answerGen
  first
    | ((repeat' split) <;> simp; done)
    | (dsimp only; (repeat' split) <;> simp [*]; done)
    | ((repeat' apply And.intro) <;> dsimp only <;> (repeat' split) <;> simp [*]; done)

@[simp] theorem refuseCommit_keeps : ∀ a1 a2 s, (refuseCommit a1 a2 s).md = s.md ∧ (refuseCommit a1 a2 s).dev = s.dev ∧
    (refuseCommit a1 a2 s).pins = s.pins ∧ (refuseCommit a1 a2 s).side = s.side ∧ (refuseCommit a1 a2 s).prot = s.prot ∧
    (refuseCommit a1 a2 s).mram = s.mram ∧ (refuseCommit a1 a2 s).lat = s.lat ∧ (refuseCommit a1 a2 s).acct = s.acct ∧
    (refuseCommit a1 a2 s).lk = s.lk ∧ (refuseCommit a1 a2 s).tim = s.tim ∧ (refuseCommit a1 a2 s).buf = s.buf ∧
    (refuseCommit a1 a2 s).eg = s.eg ∧ (refuseCommit a1 a2 s).eng = s.eng ∧ (refuseCommit a1 a2 s).recd = s.recd ∧
    (refuseCommit a1 a2 s).svc = s.svc ∧ (refuseCommit a1 a2 s).therm = s.therm ∧ (refuseCommit a1 a2 s).now = s.now ∧
    (refuseCommit a1 a2 s).elapsed = s.elapsed ∧ (refuseCommit a1 a2 s).free = s.free ∧ (refuseCommit a1 a2 s).pending =
    s.pending := by
  intros; unfold refuseCommit
  first
    | ((repeat' split) <;> simp; done)
    | (dsimp only; (repeat' split) <;> simp [*]; done)
    | ((repeat' apply And.intro) <;> dsimp only <;> (repeat' split) <;> simp [*]; done)

@[simp] theorem laneRestart_keeps : ∀ a1 s, (laneRestart a1 s).md = s.md ∧ (laneRestart a1 s).dev = s.dev ∧ (laneRestart
    a1 s).pins = s.pins ∧ (laneRestart a1 s).side = s.side ∧ (laneRestart a1 s).prot = s.prot ∧ (laneRestart a1 s).mram
    = s.mram ∧ (laneRestart a1 s).img = s.img ∧ (laneRestart a1 s).host = s.host ∧ (laneRestart a1 s).lat = s.lat ∧
    (laneRestart a1 s).acct = s.acct ∧ (laneRestart a1 s).tim = s.tim ∧ (laneRestart a1 s).buf = s.buf ∧ (laneRestart a1
    s).eg = s.eg ∧ (laneRestart a1 s).tab = s.tab ∧ (laneRestart a1 s).gen = s.gen ∧ (laneRestart a1 s).eng = s.eng ∧
    (laneRestart a1 s).recd = s.recd ∧ (laneRestart a1 s).pmu = s.pmu ∧ (laneRestart a1 s).svc = s.svc ∧ (laneRestart a1
    s).therm = s.therm ∧ (laneRestart a1 s).regs = s.regs ∧ (laneRestart a1 s).hmem = s.hmem ∧ (laneRestart a1 s).now =
    s.now ∧ (laneRestart a1 s).elapsed = s.elapsed ∧ (laneRestart a1 s).free = s.free ∧ (laneRestart a1 s).pending =
    s.pending := by
  intros; unfold laneRestart
  first
    | ((repeat' split) <;> simp; done)
    | (dsimp only; (repeat' split) <;> simp [*]; done)
    | ((repeat' apply And.intro) <;> dsimp only <;> (repeat' split) <;> simp [*]; done)

@[simp] theorem portAtChange_keeps : ∀ a1 a2 a3 s, (portAtChange a1 a2 a3 s).md = s.md ∧ (portAtChange a1 a2 a3 s).dev =
    s.dev ∧ (portAtChange a1 a2 a3 s).pins = s.pins ∧ (portAtChange a1 a2 a3 s).side = s.side ∧ (portAtChange a1 a2 a3
    s).prot = s.prot ∧ (portAtChange a1 a2 a3 s).mram = s.mram ∧ (portAtChange a1 a2 a3 s).img = s.img ∧ (portAtChange
    a1 a2 a3 s).lat = s.lat ∧ (portAtChange a1 a2 a3 s).tim = s.tim ∧ (portAtChange a1 a2 a3 s).gen = s.gen ∧
    (portAtChange a1 a2 a3 s).eng = s.eng ∧ (portAtChange a1 a2 a3 s).svc = s.svc ∧ (portAtChange a1 a2 a3 s).therm =
    s.therm ∧ (portAtChange a1 a2 a3 s).now = s.now ∧ (portAtChange a1 a2 a3 s).elapsed = s.elapsed ∧ (portAtChange a1
    a2 a3 s).free = s.free ∧ (portAtChange a1 a2 a3 s).pending = s.pending := by
  intros; unfold portAtChange
  first
    | ((repeat' split) <;> simp; done)
    | (dsimp only; (repeat' split) <;> simp [*]; done)
    | ((repeat' apply And.intro) <;> dsimp only <;> (repeat' split) <;> simp [*]; done)

@[simp] theorem quadChange_keeps : ∀ a1 s, (quadChange a1 s).md = s.md ∧ (quadChange a1 s).dev = s.dev ∧ (quadChange a1
    s).pins = s.pins ∧ (quadChange a1 s).side = s.side ∧ (quadChange a1 s).prot = s.prot ∧ (quadChange a1 s).mram =
    s.mram ∧ (quadChange a1 s).img = s.img ∧ (quadChange a1 s).lat = s.lat ∧ (quadChange a1 s).tim = s.tim ∧ (quadChange
    a1 s).gen = s.gen ∧ (quadChange a1 s).eng = s.eng ∧ (quadChange a1 s).svc = s.svc ∧ (quadChange a1 s).therm =
    s.therm ∧ (quadChange a1 s).now = s.now ∧ (quadChange a1 s).elapsed = s.elapsed ∧ (quadChange a1 s).free = s.free ∧
    (quadChange a1 s).pending = s.pending := by
  intros; unfold quadChange
  first
    | ((repeat' split) <;> simp; done)
    | (dsimp only; (repeat' split) <;> simp [*]; done)
    | ((repeat' apply And.intro) <;> dsimp only <;> (repeat' split) <;> simp [*]; done)

@[simp] theorem adminFlush_keeps : ∀ a1 s, (adminFlush a1 s).md = s.md ∧ (adminFlush a1 s).dev = s.dev ∧ (adminFlush a1
    s).pins = s.pins ∧ (adminFlush a1 s).side = s.side ∧ (adminFlush a1 s).prot = s.prot ∧ (adminFlush a1 s).mram =
    s.mram ∧ (adminFlush a1 s).img = s.img ∧ (adminFlush a1 s).lat = s.lat ∧ (adminFlush a1 s).tim = s.tim ∧ (adminFlush
    a1 s).tab = s.tab ∧ (adminFlush a1 s).gen = s.gen ∧ (adminFlush a1 s).eng = s.eng ∧ (adminFlush a1 s).svc = s.svc ∧
    (adminFlush a1 s).therm = s.therm ∧ (adminFlush a1 s).now = s.now ∧ (adminFlush a1 s).elapsed = s.elapsed ∧
    (adminFlush a1 s).free = s.free ∧ (adminFlush a1 s).pending = s.pending := by
  intros; unfold adminFlush
  first
    | ((repeat' split) <;> simp; done)
    | (dsimp only; (repeat' split) <;> simp [*]; done)
    | ((repeat' apply And.intro) <;> dsimp only <;> (repeat' split) <;> simp [*]; done)

@[simp] theorem refsChange_keeps : ∀ a old s, (refsChange a old s).md = s.md ∧ (refsChange a old s).dev = s.dev ∧
    (refsChange a old s).pins = s.pins ∧ (refsChange a old s).side = s.side ∧ (refsChange a old s).prot = s.prot ∧
    (refsChange a old s).mram = s.mram ∧ (refsChange a old s).img = s.img ∧ (refsChange a old s).lat = s.lat ∧
    (refsChange a old s).tim = s.tim ∧ (refsChange a old s).gen = s.gen ∧ (refsChange a old s).eng = s.eng ∧ (refsChange
    a old s).svc = s.svc ∧ (refsChange a old s).therm = s.therm ∧ (refsChange a old s).now = s.now ∧ (refsChange a old
    s).elapsed = s.elapsed ∧ (refsChange a old s).free = s.free ∧ (refsChange a old s).pending = s.pending := by
  intros; unfold refsChange; first | ((repeat' split) <;> simp; done) | (dsimp only; (repeat' split) <;> simp [*]; done)

@[simp] theorem generatorChange_keeps : ∀ a b old c s, (generatorChange a b old c s).md = s.md ∧ (generatorChange a b
    old c s).dev = s.dev ∧ (generatorChange a b old c s).pins = s.pins ∧ (generatorChange a b old c s).side = s.side ∧
    (generatorChange a b old c s).prot = s.prot ∧ (generatorChange a b old c s).mram = s.mram ∧ (generatorChange a b old
    c s).img = s.img ∧ (generatorChange a b old c s).host = s.host ∧ (generatorChange a b old c s).lat = s.lat ∧
    (generatorChange a b old c s).acct = s.acct ∧ (generatorChange a b old c s).lk = s.lk ∧ (generatorChange a b old c
    s).buf = s.buf ∧ (generatorChange a b old c s).eg = s.eg ∧ (generatorChange a b old c s).tab = s.tab ∧
    (generatorChange a b old c s).gen = s.gen ∧ (generatorChange a b old c s).recd = s.recd ∧ (generatorChange a b old c
    s).pmu = s.pmu ∧ (generatorChange a b old c s).svc = s.svc ∧ (generatorChange a b old c s).therm = s.therm ∧
    (generatorChange a b old c s).regs = s.regs ∧ (generatorChange a b old c s).hmem = s.hmem ∧ (generatorChange a b old
    c s).now = s.now ∧ (generatorChange a b old c s).elapsed = s.elapsed ∧ (generatorChange a b old c s).free = s.free ∧
    (generatorChange a b old c s).pending = s.pending := by
  intros; unfold generatorChange; first | ((repeat' split) <;> simp; done) | (dsimp only; (repeat' split) <;> simp [*]; done)

@[simp] theorem capChange_keeps : ∀ a b old c s, (capChange a b old c s).md = s.md ∧ (capChange a b old c s).dev = s.dev
    ∧ (capChange a b old c s).pins = s.pins ∧ (capChange a b old c s).side = s.side ∧ (capChange a b old c s).prot =
    s.prot ∧ (capChange a b old c s).mram = s.mram ∧ (capChange a b old c s).img = s.img ∧ (capChange a b old c s).host
    = s.host ∧ (capChange a b old c s).lat = s.lat ∧ (capChange a b old c s).acct = s.acct ∧ (capChange a b old c s).lk
    = s.lk ∧ (capChange a b old c s).buf = s.buf ∧ (capChange a b old c s).eg = s.eg ∧ (capChange a b old c s).tab =
    s.tab ∧ (capChange a b old c s).gen = s.gen ∧ (capChange a b old c s).eng = s.eng ∧ (capChange a b old c s).recd =
    s.recd ∧ (capChange a b old c s).pmu = s.pmu ∧ (capChange a b old c s).svc = s.svc ∧ (capChange a b old c s).therm =
    s.therm ∧ (capChange a b old c s).regs = s.regs ∧ (capChange a b old c s).hmem = s.hmem ∧ (capChange a b old c
    s).now = s.now ∧ (capChange a b old c s).elapsed = s.elapsed ∧ (capChange a b old c s).free = s.free ∧ (capChange a
    b old c s).pending = s.pending := by
  intros; unfold capChange; first | ((repeat' split) <;> simp; done) | (dsimp only; (repeat' split) <;> simp [*]; done)

@[simp] theorem tioChange_keeps : ∀ a b old c s, (tioChange a b old c s).md = s.md ∧ (tioChange a b old c s).dev = s.dev
    ∧ (tioChange a b old c s).side = s.side ∧ (tioChange a b old c s).prot = s.prot ∧ (tioChange a b old c s).mram =
    s.mram ∧ (tioChange a b old c s).img = s.img ∧ (tioChange a b old c s).host = s.host ∧ (tioChange a b old c s).lat =
    s.lat ∧ (tioChange a b old c s).acct = s.acct ∧ (tioChange a b old c s).lk = s.lk ∧ (tioChange a b old c s).buf =
    s.buf ∧ (tioChange a b old c s).eg = s.eg ∧ (tioChange a b old c s).tab = s.tab ∧ (tioChange a b old c s).gen =
    s.gen ∧ (tioChange a b old c s).eng = s.eng ∧ (tioChange a b old c s).recd = s.recd ∧ (tioChange a b old c s).pmu =
    s.pmu ∧ (tioChange a b old c s).svc = s.svc ∧ (tioChange a b old c s).therm = s.therm ∧ (tioChange a b old c s).regs
    = s.regs ∧ (tioChange a b old c s).hmem = s.hmem ∧ (tioChange a b old c s).now = s.now ∧ (tioChange a b old c
    s).elapsed = s.elapsed ∧ (tioChange a b old c s).free = s.free ∧ (tioChange a b old c s).pending = s.pending := by
  intros; unfold tioChange; first | ((repeat' split) <;> simp; done) | (dsimp only; (repeat' split) <;> simp [*]; done)

@[simp] theorem markOne_keeps : ∀ a old b c s, (markOne a old b c s).md = s.md ∧ (markOne a old b c s).dev = s.dev ∧
    (markOne a old b c s).pins = s.pins ∧ (markOne a old b c s).side = s.side ∧ (markOne a old b c s).prot = s.prot ∧
    (markOne a old b c s).mram = s.mram ∧ (markOne a old b c s).img = s.img ∧ (markOne a old b c s).host = s.host ∧
    (markOne a old b c s).lat = s.lat ∧ (markOne a old b c s).acct = s.acct ∧ (markOne a old b c s).tim = s.tim ∧
    (markOne a old b c s).buf = s.buf ∧ (markOne a old b c s).eg = s.eg ∧ (markOne a old b c s).tab = s.tab ∧ (markOne a
    old b c s).gen = s.gen ∧ (markOne a old b c s).eng = s.eng ∧ (markOne a old b c s).recd = s.recd ∧ (markOne a old b
    c s).pmu = s.pmu ∧ (markOne a old b c s).svc = s.svc ∧ (markOne a old b c s).therm = s.therm ∧ (markOne a old b c
    s).regs = s.regs ∧ (markOne a old b c s).hmem = s.hmem ∧ (markOne a old b c s).now = s.now ∧ (markOne a old b c
    s).elapsed = s.elapsed ∧ (markOne a old b c s).free = s.free ∧ (markOne a old b c s).pending = s.pending := by
  intros; unfold markOne; first | ((repeat' split) <;> simp; done) | (dsimp only; (repeat' split) <;> simp [*]; done)

@[simp] theorem markChange_keeps : ∀ a old b s, (markChange a old b s).md = s.md ∧ (markChange a old b s).dev = s.dev ∧
    (markChange a old b s).pins = s.pins ∧ (markChange a old b s).side = s.side ∧ (markChange a old b s).prot = s.prot ∧
    (markChange a old b s).mram = s.mram ∧ (markChange a old b s).img = s.img ∧ (markChange a old b s).host = s.host ∧
    (markChange a old b s).lat = s.lat ∧ (markChange a old b s).acct = s.acct ∧ (markChange a old b s).tim = s.tim ∧
    (markChange a old b s).buf = s.buf ∧ (markChange a old b s).eg = s.eg ∧ (markChange a old b s).tab = s.tab ∧
    (markChange a old b s).gen = s.gen ∧ (markChange a old b s).eng = s.eng ∧ (markChange a old b s).recd = s.recd ∧
    (markChange a old b s).pmu = s.pmu ∧ (markChange a old b s).svc = s.svc ∧ (markChange a old b s).therm = s.therm ∧
    (markChange a old b s).regs = s.regs ∧ (markChange a old b s).hmem = s.hmem ∧ (markChange a old b s).now = s.now ∧
    (markChange a old b s).elapsed = s.elapsed ∧ (markChange a old b s).free = s.free ∧ (markChange a old b s).pending =
    s.pending := by
  intros; unfold markChange; first | ((repeat' split) <;> simp; done) | (dsimp only; (repeat' split) <;> simp [*]; done)

@[simp] theorem shapersChange_keeps : ∀ old a s, (shapersChange old a s).md = s.md ∧ (shapersChange old a s).dev = s.dev
    ∧ (shapersChange old a s).pins = s.pins ∧ (shapersChange old a s).side = s.side ∧ (shapersChange old a s).prot =
    s.prot ∧ (shapersChange old a s).mram = s.mram ∧ (shapersChange old a s).img = s.img ∧ (shapersChange old a s).host
    = s.host ∧ (shapersChange old a s).lat = s.lat ∧ (shapersChange old a s).acct = s.acct ∧ (shapersChange old a s).lk
    = s.lk ∧ (shapersChange old a s).tim = s.tim ∧ (shapersChange old a s).buf = s.buf ∧ (shapersChange old a s).tab =
    s.tab ∧ (shapersChange old a s).gen = s.gen ∧ (shapersChange old a s).eng = s.eng ∧ (shapersChange old a s).recd =
    s.recd ∧ (shapersChange old a s).pmu = s.pmu ∧ (shapersChange old a s).svc = s.svc ∧ (shapersChange old a s).therm =
    s.therm ∧ (shapersChange old a s).regs = s.regs ∧ (shapersChange old a s).hmem = s.hmem ∧ (shapersChange old a
    s).now = s.now ∧ (shapersChange old a s).elapsed = s.elapsed ∧ (shapersChange old a s).free = s.free ∧
    (shapersChange old a s).pending = s.pending := by
  intros; unfold shapersChange; first | ((repeat' split) <;> simp; done) | (dsimp only; (repeat' split) <;> simp [*]; done)

@[simp] theorem redefer_keeps : ∀ s, (redefer s).md = s.md ∧ (redefer s).dev = s.dev ∧ (redefer s).pins = s.pins ∧
    (redefer s).side = s.side ∧ (redefer s).prot = s.prot ∧ (redefer s).mram = s.mram ∧ (redefer s).img = s.img ∧
    (redefer s).host = s.host ∧ (redefer s).lat = s.lat ∧ (redefer s).acct = s.acct ∧ (redefer s).lk = s.lk ∧ (redefer
    s).tim = s.tim ∧ (redefer s).tab = s.tab ∧ (redefer s).gen = s.gen ∧ (redefer s).eng = s.eng ∧ (redefer s).recd =
    s.recd ∧ (redefer s).pmu = s.pmu ∧ (redefer s).svc = s.svc ∧ (redefer s).therm = s.therm ∧ (redefer s).regs = s.regs
    ∧ (redefer s).hmem = s.hmem ∧ (redefer s).now = s.now ∧ (redefer s).elapsed = s.elapsed ∧ (redefer s).free = s.free
    ∧ (redefer s).pending = s.pending := by
  intros; unfold redefer
  first
    | ((repeat' split) <;> simp; done)
    | (dsimp only; (repeat' split) <;> simp [*]; done)
    | ((repeat' apply And.intro) <;> dsimp only <;> (repeat' split) <;> simp [*]; done)

@[simp] theorem useFollows_keeps : ∀ a b old s, (useFollows a b old s).md = s.md ∧ (useFollows a b old s).dev = s.dev ∧
    (useFollows a b old s).side = s.side ∧ (useFollows a b old s).prot = s.prot ∧ (useFollows a b old s).mram = s.mram ∧
    (useFollows a b old s).lat = s.lat ∧ (useFollows a b old s).gen = s.gen ∧ (useFollows a b old s).therm = s.therm ∧
    (useFollows a b old s).now = s.now ∧ (useFollows a b old s).elapsed = s.elapsed ∧ (useFollows a b old s).free =
    s.free ∧ (useFollows a b old s).pending = s.pending := by
  intros; unfold useFollows; first | ((repeat' split) <;> simp; done) | (dsimp only; (repeat' split) <;> simp [*]; done)

@[simp] theorem takeEffect_keeps : ∀ a1 s, (takeEffect a1 s).md = s.md ∧ (takeEffect a1 s).dev = s.dev ∧ (takeEffect a1
    s).side = s.side ∧ (takeEffect a1 s).prot = s.prot ∧ (takeEffect a1 s).mram = s.mram ∧ (takeEffect a1 s).lat = s.lat
    ∧ (takeEffect a1 s).therm = s.therm ∧ (takeEffect a1 s).free = s.free ∧ (takeEffect a1 s).pending = s.pending := by
  intro a1 s
  have h : ∃ c g, takeEffect a1 s = useFollows a1 c (reach a1 s) (noteHeadgates (reach a1 s) (modGen g (useStaged (reach a1 s)))) :=
    by unfold takeEffect; exact ⟨_, _, rfl⟩
  obtain ⟨c, g, h⟩ := h
  simp [h]

@[simp] theorem commitEffect_keeps : ∀ s, (commitEffect s).md = s.md ∧ (commitEffect s).dev = s.dev ∧ (commitEffect
    s).side = s.side ∧ (commitEffect s).prot = s.prot ∧ (commitEffect s).mram = s.mram ∧ (commitEffect s).lat = s.lat ∧
    (commitEffect s).therm = s.therm ∧ (commitEffect s).free = s.free ∧ (commitEffect s).pending = s.pending := by
  intros; unfold commitEffect
  first
    | ((repeat' split) <;> simp; done)
    | (dsimp only; (repeat' split) <;> simp [*]; done)
    | ((repeat' apply And.intro) <;> dsimp only <;> (repeat' split) <;> simp [*]; done)

@[simp] theorem mirrorRegs_keeps : ∀ s, (mirrorRegs s).md = s.md ∧ (mirrorRegs s).dev = s.dev ∧ (mirrorRegs s).pins =
    s.pins ∧ (mirrorRegs s).side = s.side ∧ (mirrorRegs s).prot = s.prot ∧ (mirrorRegs s).mram = s.mram ∧ (mirrorRegs
    s).img = s.img ∧ (mirrorRegs s).host = s.host ∧ (mirrorRegs s).lat = s.lat ∧ (mirrorRegs s).acct = s.acct ∧
    (mirrorRegs s).lk = s.lk ∧ (mirrorRegs s).tim = s.tim ∧ (mirrorRegs s).buf = s.buf ∧ (mirrorRegs s).eg = s.eg ∧
    (mirrorRegs s).tab = s.tab ∧ (mirrorRegs s).gen = s.gen ∧ (mirrorRegs s).eng = s.eng ∧ (mirrorRegs s).recd = s.recd
    ∧ (mirrorRegs s).pmu = s.pmu ∧ (mirrorRegs s).svc = s.svc ∧ (mirrorRegs s).therm = s.therm ∧ (mirrorRegs s).hmem =
    s.hmem ∧ (mirrorRegs s).now = s.now ∧ (mirrorRegs s).elapsed = s.elapsed ∧ (mirrorRegs s).free = s.free ∧
    (mirrorRegs s).pending = s.pending := by
  intros; unfold mirrorRegs
  first
    | ((repeat' split) <;> simp; done)
    | (dsimp only; (repeat' split) <;> simp [*]; done)
    | ((repeat' apply And.intro) <;> dsimp only <;> (repeat' split) <;> simp [*]; done)

@[simp] theorem mirror_keeps : ∀ s, (mirror s).md = s.md ∧ (mirror s).dev = s.dev ∧ (mirror s).pins = s.pins ∧ (mirror
    s).side = s.side ∧ (mirror s).prot = s.prot ∧ (mirror s).mram = s.mram ∧ (mirror s).img = s.img ∧ (mirror s).host =
    s.host ∧ (mirror s).lat = s.lat ∧ (mirror s).acct = s.acct ∧ (mirror s).lk = s.lk ∧ (mirror s).tim = s.tim ∧ (mirror
    s).buf = s.buf ∧ (mirror s).eg = s.eg ∧ (mirror s).gen = s.gen ∧ (mirror s).recd = s.recd ∧ (mirror s).pmu = s.pmu ∧
    (mirror s).svc = s.svc ∧ (mirror s).therm = s.therm ∧ (mirror s).hmem = s.hmem ∧ (mirror s).now = s.now ∧ (mirror
    s).elapsed = s.elapsed ∧ (mirror s).free = s.free ∧ (mirror s).pending = s.pending := by
  intros; unfold mirror
  first
    | ((repeat' split) <;> simp; done)
    | (dsimp only; (repeat' split) <;> simp [*]; done)
    | ((repeat' apply And.intro) <;> dsimp only <;> (repeat' split) <;> simp [*]; done)

@[simp] theorem commitDrained_keeps : ∀ a1 s, (commitDrained a1 s).md = s.md ∧ (commitDrained a1 s).dev = s.dev ∧
    (commitDrained a1 s).pins = s.pins ∧ (commitDrained a1 s).side = s.side ∧ (commitDrained a1 s).prot = s.prot ∧
    (commitDrained a1 s).mram = s.mram ∧ (commitDrained a1 s).img = s.img ∧ (commitDrained a1 s).host = s.host ∧
    (commitDrained a1 s).lat = s.lat ∧ (commitDrained a1 s).acct = s.acct ∧ (commitDrained a1 s).lk = s.lk ∧
    (commitDrained a1 s).tim = s.tim ∧ (commitDrained a1 s).buf = s.buf ∧ (commitDrained a1 s).eg = s.eg ∧
    (commitDrained a1 s).recd = s.recd ∧ (commitDrained a1 s).pmu = s.pmu ∧ (commitDrained a1 s).svc = s.svc ∧
    (commitDrained a1 s).therm = s.therm ∧ (commitDrained a1 s).hmem = s.hmem ∧ (commitDrained a1 s).now = s.now ∧
    (commitDrained a1 s).elapsed = s.elapsed ∧ (commitDrained a1 s).free = s.free ∧ (commitDrained a1 s).pending =
    s.pending := by
  intros; unfold commitDrained
  first
    | ((repeat' split) <;> simp; done)
    | (dsimp only; (repeat' split) <;> simp [*]; done)
    | ((repeat' apply And.intro) <;> dsimp only <;> (repeat' split) <;> simp [*]; done)

@[simp] theorem settled_keeps : ∀ s, (settled s).md = s.md ∧ (settled s).dev = s.dev ∧ (settled s).pins = s.pins ∧
    (settled s).side = s.side ∧ (settled s).prot = s.prot ∧ (settled s).mram = s.mram ∧ (settled s).lat = s.lat ∧
    (settled s).acct = s.acct ∧ (settled s).lk = s.lk ∧ (settled s).tim = s.tim ∧ (settled s).buf = s.buf ∧ (settled
    s).eg = s.eg ∧ (settled s).eng = s.eng ∧ (settled s).recd = s.recd ∧ (settled s).svc = s.svc ∧ (settled s).therm =
    s.therm ∧ (settled s).now = s.now ∧ (settled s).elapsed = s.elapsed ∧ (settled s).free = s.free ∧ (settled
    s).pending = s.pending := by
  intros; unfold settled
  first
    | ((repeat' split) <;> simp; done)
    | (dsimp only; (repeat' split) <;> simp [*]; done)
    | ((repeat' apply And.intro) <;> dsimp only <;> (repeat' split) <;> simp [*]; done)

@[simp] theorem unstage_keeps : ∀ s, (unstage s).md = s.md ∧ (unstage s).dev = s.dev ∧ (unstage s).pins = s.pins ∧
    (unstage s).side = s.side ∧ (unstage s).prot = s.prot ∧ (unstage s).mram = s.mram ∧ (unstage s).img = s.img ∧
    (unstage s).host = s.host ∧ (unstage s).lat = s.lat ∧ (unstage s).acct = s.acct ∧ (unstage s).lk = s.lk ∧ (unstage
    s).tim = s.tim ∧ (unstage s).buf = s.buf ∧ (unstage s).eg = s.eg ∧ (unstage s).recd = s.recd ∧ (unstage s).pmu =
    s.pmu ∧ (unstage s).svc = s.svc ∧ (unstage s).therm = s.therm ∧ (unstage s).hmem = s.hmem ∧ (unstage s).now = s.now
    ∧ (unstage s).elapsed = s.elapsed ∧ (unstage s).free = s.free ∧ (unstage s).pending = s.pending := by
  intros; unfold unstage
  first
    | ((repeat' split) <;> simp; done)
    | (dsimp only; (repeat' split) <;> simp [*]; done)
    | ((repeat' apply And.intro) <;> dsimp only <;> (repeat' split) <;> simp [*]; done)

@[simp] theorem discardDone_keeps : ∀ s, (discardDone s).md = s.md ∧ (discardDone s).dev = s.dev ∧ (discardDone s).pins
    = s.pins ∧ (discardDone s).side = s.side ∧ (discardDone s).prot = s.prot ∧ (discardDone s).mram = s.mram ∧
    (discardDone s).lat = s.lat ∧ (discardDone s).acct = s.acct ∧ (discardDone s).lk = s.lk ∧ (discardDone s).tim =
    s.tim ∧ (discardDone s).buf = s.buf ∧ (discardDone s).eg = s.eg ∧ (discardDone s).recd = s.recd ∧ (discardDone
    s).svc = s.svc ∧ (discardDone s).therm = s.therm ∧ (discardDone s).now = s.now ∧ (discardDone s).elapsed = s.elapsed
    ∧ (discardDone s).free = s.free ∧ (discardDone s).pending = s.pending := by
  intros; unfold discardDone
  first
    | ((repeat' split) <;> simp; done)
    | (dsimp only; (repeat' split) <;> simp [*]; done)
    | ((repeat' apply And.intro) <;> dsimp only <;> (repeat' split) <;> simp [*]; done)

@[simp] theorem autoDue_keeps : ∀ s, (autoDue s).md = s.md ∧ (autoDue s).dev = s.dev ∧ (autoDue s).pins = s.pins ∧
    (autoDue s).side = s.side ∧ (autoDue s).prot = s.prot ∧ (autoDue s).mram = s.mram ∧ (autoDue s).img = s.img ∧
    (autoDue s).host = s.host ∧ (autoDue s).lat = s.lat ∧ (autoDue s).acct = s.acct ∧ (autoDue s).lk = s.lk ∧ (autoDue
    s).buf = s.buf ∧ (autoDue s).eg = s.eg ∧ (autoDue s).tab = s.tab ∧ (autoDue s).eng = s.eng ∧ (autoDue s).recd =
    s.recd ∧ (autoDue s).svc = s.svc ∧ (autoDue s).therm = s.therm ∧ (autoDue s).hmem = s.hmem ∧ (autoDue s).free =
    s.free ∧ (autoDue s).pending = s.pending := by
  intros; unfold autoDue
  first
    | ((repeat' split) <;> simp; done)
    | (dsimp only; (repeat' split) <;> simp [*]; done)
    | ((repeat' apply And.intro) <;> dsimp only <;> (repeat' split) <;> simp [*]; done)

@[simp] theorem gclPut_keeps : ∀ a1 a2 a3 a4 s, (gclPut a1 a2 a3 a4 s).md = s.md ∧ (gclPut a1 a2 a3 a4 s).dev = s.dev ∧
    (gclPut a1 a2 a3 a4 s).pins = s.pins ∧ (gclPut a1 a2 a3 a4 s).side = s.side ∧ (gclPut a1 a2 a3 a4 s).prot = s.prot ∧
    (gclPut a1 a2 a3 a4 s).mram = s.mram ∧ (gclPut a1 a2 a3 a4 s).img = s.img ∧ (gclPut a1 a2 a3 a4 s).host = s.host ∧
    (gclPut a1 a2 a3 a4 s).lat = s.lat ∧ (gclPut a1 a2 a3 a4 s).acct = s.acct ∧ (gclPut a1 a2 a3 a4 s).lk = s.lk ∧
    (gclPut a1 a2 a3 a4 s).tim = s.tim ∧ (gclPut a1 a2 a3 a4 s).buf = s.buf ∧ (gclPut a1 a2 a3 a4 s).eg = s.eg ∧ (gclPut
    a1 a2 a3 a4 s).tab = s.tab ∧ (gclPut a1 a2 a3 a4 s).gen = s.gen ∧ (gclPut a1 a2 a3 a4 s).eng = s.eng ∧ (gclPut a1 a2
    a3 a4 s).recd = s.recd ∧ (gclPut a1 a2 a3 a4 s).pmu = s.pmu ∧ (gclPut a1 a2 a3 a4 s).svc = s.svc ∧ (gclPut a1 a2 a3
    a4 s).therm = s.therm ∧ (gclPut a1 a2 a3 a4 s).hmem = s.hmem ∧ (gclPut a1 a2 a3 a4 s).now = s.now ∧ (gclPut a1 a2 a3
    a4 s).elapsed = s.elapsed ∧ (gclPut a1 a2 a3 a4 s).free = s.free ∧ (gclPut a1 a2 a3 a4 s).pending = s.pending := by
  intros; unfold gclPut
  first
    | ((repeat' split) <;> simp; done)
    | (dsimp only; (repeat' split) <;> simp [*]; done)
    | ((repeat' apply And.intro) <;> dsimp only <;> (repeat' split) <;> simp [*]; done)

@[simp] theorem refuseCopy_keeps : ∀ a1 a2 s, (refuseCopy a1 a2 s).md = s.md ∧ (refuseCopy a1 a2 s).dev = s.dev ∧
    (refuseCopy a1 a2 s).pins = s.pins ∧ (refuseCopy a1 a2 s).side = s.side ∧ (refuseCopy a1 a2 s).prot = s.prot ∧
    (refuseCopy a1 a2 s).mram = s.mram ∧ (refuseCopy a1 a2 s).img = s.img ∧ (refuseCopy a1 a2 s).host = s.host ∧
    (refuseCopy a1 a2 s).lat = s.lat ∧ (refuseCopy a1 a2 s).acct = s.acct ∧ (refuseCopy a1 a2 s).lk = s.lk ∧ (refuseCopy
    a1 a2 s).tim = s.tim ∧ (refuseCopy a1 a2 s).buf = s.buf ∧ (refuseCopy a1 a2 s).eg = s.eg ∧ (refuseCopy a1 a2 s).tab
    = s.tab ∧ (refuseCopy a1 a2 s).gen = s.gen ∧ (refuseCopy a1 a2 s).eng = s.eng ∧ (refuseCopy a1 a2 s).svc = s.svc ∧
    (refuseCopy a1 a2 s).therm = s.therm ∧ (refuseCopy a1 a2 s).hmem = s.hmem ∧ (refuseCopy a1 a2 s).now = s.now ∧
    (refuseCopy a1 a2 s).elapsed = s.elapsed ∧ (refuseCopy a1 a2 s).free = s.free ∧ (refuseCopy a1 a2 s).pending =
    s.pending := by
  intros; unfold refuseCopy
  first
    | ((repeat' split) <;> simp; done)
    | (dsimp only; (repeat' split) <;> simp [*]; done)
    | ((repeat' apply And.intro) <;> dsimp only <;> (repeat' split) <;> simp [*]; done)

@[simp] theorem takeRecord_keeps : ∀ a1 s, (takeRecord a1 s).md = s.md ∧ (takeRecord a1 s).dev = s.dev ∧ (takeRecord a1
    s).pins = s.pins ∧ (takeRecord a1 s).side = s.side ∧ (takeRecord a1 s).prot = s.prot ∧ (takeRecord a1 s).mram =
    s.mram ∧ (takeRecord a1 s).img = s.img ∧ (takeRecord a1 s).host = s.host ∧ (takeRecord a1 s).lat = s.lat ∧
    (takeRecord a1 s).acct = s.acct ∧ (takeRecord a1 s).tim = s.tim ∧ (takeRecord a1 s).eg = s.eg ∧ (takeRecord a1
    s).tab = s.tab ∧ (takeRecord a1 s).gen = s.gen ∧ (takeRecord a1 s).eng = s.eng ∧ (takeRecord a1 s).svc = s.svc ∧
    (takeRecord a1 s).therm = s.therm ∧ (takeRecord a1 s).hmem = s.hmem ∧ (takeRecord a1 s).now = s.now ∧ (takeRecord a1
    s).elapsed = s.elapsed ∧ (takeRecord a1 s).free = s.free ∧ (takeRecord a1 s).pending = s.pending := by
  intros; unfold takeRecord
  first
    | ((repeat' split) <;> simp; done)
    | (dsimp only; (repeat' split) <;> simp [*]; done)
    | ((repeat' apply And.intro) <;> dsimp only <;> (repeat' split) <;> simp [*]; done)

@[simp] theorem endAtRecorder_keeps : ∀ a1 s, (endAtRecorder a1 s).md = s.md ∧ (endAtRecorder a1 s).dev = s.dev ∧
    (endAtRecorder a1 s).pins = s.pins ∧ (endAtRecorder a1 s).side = s.side ∧ (endAtRecorder a1 s).prot = s.prot ∧
    (endAtRecorder a1 s).mram = s.mram ∧ (endAtRecorder a1 s).img = s.img ∧ (endAtRecorder a1 s).lat = s.lat ∧
    (endAtRecorder a1 s).tim = s.tim ∧ (endAtRecorder a1 s).eg = s.eg ∧ (endAtRecorder a1 s).tab = s.tab ∧
    (endAtRecorder a1 s).gen = s.gen ∧ (endAtRecorder a1 s).eng = s.eng ∧ (endAtRecorder a1 s).svc = s.svc ∧
    (endAtRecorder a1 s).therm = s.therm ∧ (endAtRecorder a1 s).now = s.now ∧ (endAtRecorder a1 s).elapsed = s.elapsed ∧
    (endAtRecorder a1 s).pending = s.pending := by
  intros; unfold endAtRecorder
  first
    | ((repeat' split) <;> simp; done)
    | (dsimp only; (repeat' split) <;> simp [*]; done)
    | ((repeat' apply And.intro) <;> dsimp only <;> (repeat' split) <;> simp [*]; done)

@[simp] theorem recorderTakes_keeps : ∀ a1 a2 a3 s, (recorderTakes a1 a2 a3 s).md = s.md ∧ (recorderTakes a1 a2 a3
    s).dev = s.dev ∧ (recorderTakes a1 a2 a3 s).pins = s.pins ∧ (recorderTakes a1 a2 a3 s).side = s.side ∧
    (recorderTakes a1 a2 a3 s).prot = s.prot ∧ (recorderTakes a1 a2 a3 s).mram = s.mram ∧ (recorderTakes a1 a2 a3 s).img
    = s.img ∧ (recorderTakes a1 a2 a3 s).lat = s.lat ∧ (recorderTakes a1 a2 a3 s).tim = s.tim ∧ (recorderTakes a1 a2 a3
    s).tab = s.tab ∧ (recorderTakes a1 a2 a3 s).gen = s.gen ∧ (recorderTakes a1 a2 a3 s).eng = s.eng ∧ (recorderTakes a1
    a2 a3 s).svc = s.svc ∧ (recorderTakes a1 a2 a3 s).therm = s.therm ∧ (recorderTakes a1 a2 a3 s).now = s.now ∧
    (recorderTakes a1 a2 a3 s).elapsed = s.elapsed ∧ (recorderTakes a1 a2 a3 s).pending = s.pending := by
  intros; unfold recorderTakes
  first
    | ((repeat' split) <;> simp; done)
    | (dsimp only; (repeat' split) <;> simp [*]; done)
    | ((repeat' apply And.intro) <;> dsimp only <;> (repeat' split) <;> simp [*]; done)

@[simp] theorem freezeNow_keeps : ∀ s, (freezeNow s).1.md = s.md ∧ (freezeNow s).1.dev = s.dev ∧ (freezeNow s).1.pins =
    s.pins ∧ (freezeNow s).1.side = s.side ∧ (freezeNow s).1.prot = s.prot ∧ (freezeNow s).1.mram = s.mram ∧ (freezeNow
    s).1.img = s.img ∧ (freezeNow s).1.lat = s.lat ∧ (freezeNow s).1.acct = s.acct ∧ (freezeNow s).1.lk = s.lk ∧
    (freezeNow s).1.tim = s.tim ∧ (freezeNow s).1.buf = s.buf ∧ (freezeNow s).1.eg = s.eg ∧ (freezeNow s).1.tab = s.tab
    ∧ (freezeNow s).1.gen = s.gen ∧ (freezeNow s).1.eng = s.eng ∧ (freezeNow s).1.pmu = s.pmu ∧ (freezeNow s).1.svc =
    s.svc ∧ (freezeNow s).1.therm = s.therm ∧ (freezeNow s).1.hmem = s.hmem ∧ (freezeNow s).1.now = s.now ∧ (freezeNow
    s).1.elapsed = s.elapsed ∧ (freezeNow s).1.free = s.free ∧ (freezeNow s).1.pending = s.pending := by
  intros; unfold freezeNow
  first
    | ((repeat' split) <;> simp; done)
    | (dsimp only; (repeat' split) <;> simp [*]; done)
    | ((repeat' apply And.intro) <;> dsimp only <;> (repeat' split) <;> simp [*]; done)

@[simp] theorem releaseRegion_keeps : ∀ a1 s, ∀ x, releaseRegion a1 s = some x → x.md = s.md ∧ x.dev = s.dev ∧ x.pins =
    s.pins ∧ x.side = s.side ∧ x.prot = s.prot ∧ x.mram = s.mram ∧ x.img = s.img ∧ x.lat = s.lat ∧ x.acct = s.acct ∧
    x.lk = s.lk ∧ x.tim = s.tim ∧ x.buf = s.buf ∧ x.eg = s.eg ∧ x.tab = s.tab ∧ x.gen = s.gen ∧ x.eng = s.eng ∧ x.pmu =
    s.pmu ∧ x.svc = s.svc ∧ x.therm = s.therm ∧ x.hmem = s.hmem ∧ x.now = s.now ∧ x.elapsed = s.elapsed ∧ x.free =
    s.free ∧ x.pending = s.pending := by
  intro a1 s x h; unfold releaseRegion at h; split at h; cases h; simp only [Option.some.injEq] at h; subst h; simp

@[simp] theorem sealNow_keeps : ∀ s, (sealNow s).1.md = s.md ∧ (sealNow s).1.dev = s.dev ∧ (sealNow s).1.pins = s.pins ∧
    (sealNow s).1.side = s.side ∧ (sealNow s).1.prot = s.prot ∧ (sealNow s).1.mram = s.mram ∧ (sealNow s).1.img = s.img
    ∧ (sealNow s).1.lat = s.lat ∧ (sealNow s).1.acct = s.acct ∧ (sealNow s).1.lk = s.lk ∧ (sealNow s).1.tim = s.tim ∧
    (sealNow s).1.buf = s.buf ∧ (sealNow s).1.eg = s.eg ∧ (sealNow s).1.tab = s.tab ∧ (sealNow s).1.gen = s.gen ∧
    (sealNow s).1.eng = s.eng ∧ (sealNow s).1.pmu = s.pmu ∧ (sealNow s).1.svc = s.svc ∧ (sealNow s).1.therm = s.therm ∧
    (sealNow s).1.hmem = s.hmem ∧ (sealNow s).1.now = s.now ∧ (sealNow s).1.elapsed = s.elapsed ∧ (sealNow s).1.free =
    s.free ∧ (sealNow s).1.pending = s.pending := by
  intros; unfold sealNow
  first
    | ((repeat' split) <;> simp; done)
    | (dsimp only; (repeat' split) <;> simp [*]; done)
    | ((repeat' apply And.intro) <;> dsimp only <;> (repeat' split) <;> simp [*]; done)

@[simp] theorem readBursts_keeps : ∀ a1 a2 s, (readBursts a1 a2 s).md = s.md ∧ (readBursts a1 a2 s).dev = s.dev ∧
    (readBursts a1 a2 s).pins = s.pins ∧ (readBursts a1 a2 s).side = s.side ∧ (readBursts a1 a2 s).prot = s.prot ∧
    (readBursts a1 a2 s).mram = s.mram ∧ (readBursts a1 a2 s).img = s.img ∧ (readBursts a1 a2 s).host = s.host ∧
    (readBursts a1 a2 s).lat = s.lat ∧ (readBursts a1 a2 s).acct = s.acct ∧ (readBursts a1 a2 s).lk = s.lk ∧ (readBursts
    a1 a2 s).tim = s.tim ∧ (readBursts a1 a2 s).buf = s.buf ∧ (readBursts a1 a2 s).eg = s.eg ∧ (readBursts a1 a2 s).tab
    = s.tab ∧ (readBursts a1 a2 s).gen = s.gen ∧ (readBursts a1 a2 s).eng = s.eng ∧ (readBursts a1 a2 s).recd = s.recd ∧
    (readBursts a1 a2 s).svc = s.svc ∧ (readBursts a1 a2 s).therm = s.therm ∧ (readBursts a1 a2 s).hmem = s.hmem ∧
    (readBursts a1 a2 s).now = s.now ∧ (readBursts a1 a2 s).elapsed = s.elapsed ∧ (readBursts a1 a2 s).free = s.free ∧
    (readBursts a1 a2 s).pending = s.pending := by
  intros; unfold readBursts
  first
    | ((repeat' split) <;> simp; done)
    | (dsimp only; (repeat' split) <;> simp [*]; done)
    | ((repeat' apply And.intro) <;> dsimp only <;> (repeat' split) <;> simp [*]; done)

@[simp] theorem layRing_keeps : ∀ s, (layRing s).md = s.md ∧ (layRing s).dev = s.dev ∧ (layRing s).pins = s.pins ∧
    (layRing s).side = s.side ∧ (layRing s).prot = s.prot ∧ (layRing s).mram = s.mram ∧ (layRing s).img = s.img ∧
    (layRing s).host = s.host ∧ (layRing s).lat = s.lat ∧ (layRing s).acct = s.acct ∧ (layRing s).lk = s.lk ∧ (layRing
    s).tim = s.tim ∧ (layRing s).buf = s.buf ∧ (layRing s).eg = s.eg ∧ (layRing s).tab = s.tab ∧ (layRing s).gen = s.gen
    ∧ (layRing s).eng = s.eng ∧ (layRing s).pmu = s.pmu ∧ (layRing s).svc = s.svc ∧ (layRing s).therm = s.therm ∧
    (layRing s).regs = s.regs ∧ (layRing s).hmem = s.hmem ∧ (layRing s).now = s.now ∧ (layRing s).elapsed = s.elapsed ∧
    (layRing s).free = s.free ∧ (layRing s).pending = s.pending := by
  intros; unfold layRing
  first
    | ((repeat' split) <;> simp; done)
    | (dsimp only; (repeat' split) <;> simp [*]; done)
    | ((repeat' apply And.intro) <;> dsimp only <;> (repeat' split) <;> simp [*]; done)

@[simp] theorem setPartition_keeps : ∀ a1 a2 a3 s, (setPartition a1 a2 a3 s).md = s.md ∧ (setPartition a1 a2 a3 s).dev =
    s.dev ∧ (setPartition a1 a2 a3 s).pins = s.pins ∧ (setPartition a1 a2 a3 s).side = s.side ∧ (setPartition a1 a2 a3
    s).prot = s.prot ∧ (setPartition a1 a2 a3 s).mram = s.mram ∧ (setPartition a1 a2 a3 s).img = s.img ∧ (setPartition
    a1 a2 a3 s).host = s.host ∧ (setPartition a1 a2 a3 s).lat = s.lat ∧ (setPartition a1 a2 a3 s).acct = s.acct ∧
    (setPartition a1 a2 a3 s).lk = s.lk ∧ (setPartition a1 a2 a3 s).tim = s.tim ∧ (setPartition a1 a2 a3 s).eg = s.eg ∧
    (setPartition a1 a2 a3 s).tab = s.tab ∧ (setPartition a1 a2 a3 s).gen = s.gen ∧ (setPartition a1 a2 a3 s).eng =
    s.eng ∧ (setPartition a1 a2 a3 s).pmu = s.pmu ∧ (setPartition a1 a2 a3 s).svc = s.svc ∧ (setPartition a1 a2 a3
    s).therm = s.therm ∧ (setPartition a1 a2 a3 s).hmem = s.hmem ∧ (setPartition a1 a2 a3 s).now = s.now ∧ (setPartition
    a1 a2 a3 s).elapsed = s.elapsed ∧ (setPartition a1 a2 a3 s).free = s.free ∧ (setPartition a1 a2 a3 s).pending =
    s.pending := by
  intros; unfold setPartition
  first
    | ((repeat' split) <;> simp; done)
    | (dsimp only; (repeat' split) <;> simp [*]; done)
    | ((repeat' apply And.intro) <;> dsimp only <;> (repeat' split) <;> simp [*]; done)

@[simp] theorem partitionWrite_keeps : ∀ a1 s, (partitionWrite a1 s).md = s.md ∧ (partitionWrite a1 s).dev = s.dev ∧
    (partitionWrite a1 s).pins = s.pins ∧ (partitionWrite a1 s).side = s.side ∧ (partitionWrite a1 s).prot = s.prot ∧
    (partitionWrite a1 s).mram = s.mram ∧ (partitionWrite a1 s).img = s.img ∧ (partitionWrite a1 s).host = s.host ∧
    (partitionWrite a1 s).lat = s.lat ∧ (partitionWrite a1 s).acct = s.acct ∧ (partitionWrite a1 s).lk = s.lk ∧
    (partitionWrite a1 s).tim = s.tim ∧ (partitionWrite a1 s).eg = s.eg ∧ (partitionWrite a1 s).tab = s.tab ∧
    (partitionWrite a1 s).gen = s.gen ∧ (partitionWrite a1 s).eng = s.eng ∧ (partitionWrite a1 s).pmu = s.pmu ∧
    (partitionWrite a1 s).svc = s.svc ∧ (partitionWrite a1 s).therm = s.therm ∧ (partitionWrite a1 s).hmem = s.hmem ∧
    (partitionWrite a1 s).now = s.now ∧ (partitionWrite a1 s).elapsed = s.elapsed ∧ (partitionWrite a1 s).free = s.free
    ∧ (partitionWrite a1 s).pending = s.pending := by
  intros; unfold partitionWrite
  first
    | ((repeat' split) <;> simp; done)
    | (dsimp only; (repeat' split) <;> simp [*]; done)
    | ((repeat' apply And.intro) <;> dsimp only <;> (repeat' split) <;> simp [*]; done)

@[simp] theorem leaveQueue_keeps : ∀ a1 a2 a3 s, (leaveQueue a1 a2 a3 s).md = s.md ∧ (leaveQueue a1 a2 a3 s).dev = s.dev
    ∧ (leaveQueue a1 a2 a3 s).pins = s.pins ∧ (leaveQueue a1 a2 a3 s).side = s.side ∧ (leaveQueue a1 a2 a3 s).prot =
    s.prot ∧ (leaveQueue a1 a2 a3 s).mram = s.mram ∧ (leaveQueue a1 a2 a3 s).img = s.img ∧ (leaveQueue a1 a2 a3 s).host
    = s.host ∧ (leaveQueue a1 a2 a3 s).lat = s.lat ∧ (leaveQueue a1 a2 a3 s).acct = s.acct ∧ (leaveQueue a1 a2 a3 s).lk
    = s.lk ∧ (leaveQueue a1 a2 a3 s).tim = s.tim ∧ (leaveQueue a1 a2 a3 s).tab = s.tab ∧ (leaveQueue a1 a2 a3 s).gen =
    s.gen ∧ (leaveQueue a1 a2 a3 s).eng = s.eng ∧ (leaveQueue a1 a2 a3 s).recd = s.recd ∧ (leaveQueue a1 a2 a3 s).svc =
    s.svc ∧ (leaveQueue a1 a2 a3 s).therm = s.therm ∧ (leaveQueue a1 a2 a3 s).hmem = s.hmem ∧ (leaveQueue a1 a2 a3
    s).now = s.now ∧ (leaveQueue a1 a2 a3 s).elapsed = s.elapsed ∧ (leaveQueue a1 a2 a3 s).free = s.free ∧ (leaveQueue
    a1 a2 a3 s).pending = s.pending := by
  intros; unfold leaveQueue
  first
    | ((repeat' split) <;> simp; done)
    | (dsimp only; (repeat' split) <;> simp [*]; done)
    | ((repeat' apply And.intro) <;> dsimp only <;> (repeat' split) <;> simp [*]; done)

@[simp] theorem rxBuffer_keeps : ∀ a1 a2 a3 a4 a5 a6 s, (rxBuffer a1 a2 a3 a4 a5 a6 s).md = s.md ∧ (rxBuffer a1 a2 a3 a4
    a5 a6 s).dev = s.dev ∧ (rxBuffer a1 a2 a3 a4 a5 a6 s).pins = s.pins ∧ (rxBuffer a1 a2 a3 a4 a5 a6 s).side = s.side ∧
    (rxBuffer a1 a2 a3 a4 a5 a6 s).prot = s.prot ∧ (rxBuffer a1 a2 a3 a4 a5 a6 s).mram = s.mram ∧ (rxBuffer a1 a2 a3 a4
    a5 a6 s).img = s.img ∧ (rxBuffer a1 a2 a3 a4 a5 a6 s).lat = s.lat ∧ (rxBuffer a1 a2 a3 a4 a5 a6 s).acct = s.acct ∧
    (rxBuffer a1 a2 a3 a4 a5 a6 s).lk = s.lk ∧ (rxBuffer a1 a2 a3 a4 a5 a6 s).tim = s.tim ∧ (rxBuffer a1 a2 a3 a4 a5 a6
    s).buf = s.buf ∧ (rxBuffer a1 a2 a3 a4 a5 a6 s).eg = s.eg ∧ (rxBuffer a1 a2 a3 a4 a5 a6 s).tab = s.tab ∧ (rxBuffer
    a1 a2 a3 a4 a5 a6 s).gen = s.gen ∧ (rxBuffer a1 a2 a3 a4 a5 a6 s).eng = s.eng ∧ (rxBuffer a1 a2 a3 a4 a5 a6 s).recd
    = s.recd ∧ (rxBuffer a1 a2 a3 a4 a5 a6 s).svc = s.svc ∧ (rxBuffer a1 a2 a3 a4 a5 a6 s).therm = s.therm ∧ (rxBuffer
    a1 a2 a3 a4 a5 a6 s).now = s.now ∧ (rxBuffer a1 a2 a3 a4 a5 a6 s).elapsed = s.elapsed ∧ (rxBuffer a1 a2 a3 a4 a5 a6
    s).free = s.free ∧ (rxBuffer a1 a2 a3 a4 a5 a6 s).pending = s.pending := by
  intros; unfold rxBuffer
  first
    | ((repeat' split) <;> simp; done)
    | (dsimp only; (repeat' split) <;> simp [*]; done)
    | ((repeat' apply And.intro) <;> dsimp only <;> (repeat' split) <;> simp [*]; done)

@[simp] theorem deliver_keeps : ∀ a1 a2 a3 s, (deliver a1 a2 a3 s).md = s.md ∧ (deliver a1 a2 a3 s).dev = s.dev ∧
    (deliver a1 a2 a3 s).pins = s.pins ∧ (deliver a1 a2 a3 s).side = s.side ∧ (deliver a1 a2 a3 s).prot = s.prot ∧
    (deliver a1 a2 a3 s).mram = s.mram ∧ (deliver a1 a2 a3 s).img = s.img ∧ (deliver a1 a2 a3 s).lat = s.lat ∧ (deliver
    a1 a2 a3 s).tim = s.tim ∧ (deliver a1 a2 a3 s).tab = s.tab ∧ (deliver a1 a2 a3 s).gen = s.gen ∧ (deliver a1 a2 a3
    s).eng = s.eng ∧ (deliver a1 a2 a3 s).svc = s.svc ∧ (deliver a1 a2 a3 s).therm = s.therm ∧ (deliver a1 a2 a3 s).now
    = s.now ∧ (deliver a1 a2 a3 s).elapsed = s.elapsed ∧ (deliver a1 a2 a3 s).free = s.free ∧ (deliver a1 a2 a3
    s).pending = s.pending := by
  intros; unfold deliver
  first
    | ((repeat' split) <;> simp; done)
    | (dsimp only; (repeat' split) <;> simp [*]; done)
    | ((repeat' apply And.intro) <;> dsimp only <;> (repeat' split) <;> simp [*]; done)

@[simp] theorem takeTurn_keeps : ∀ a1 a2 s, (takeTurn a1 a2 s).md = s.md ∧ (takeTurn a1 a2 s).dev = s.dev ∧ (takeTurn a1
    a2 s).pins = s.pins ∧ (takeTurn a1 a2 s).side = s.side ∧ (takeTurn a1 a2 s).prot = s.prot ∧ (takeTurn a1 a2 s).mram
    = s.mram ∧ (takeTurn a1 a2 s).img = s.img ∧ (takeTurn a1 a2 s).lat = s.lat ∧ (takeTurn a1 a2 s).acct = s.acct ∧
    (takeTurn a1 a2 s).lk = s.lk ∧ (takeTurn a1 a2 s).tim = s.tim ∧ (takeTurn a1 a2 s).buf = s.buf ∧ (takeTurn a1 a2
    s).eg = s.eg ∧ (takeTurn a1 a2 s).tab = s.tab ∧ (takeTurn a1 a2 s).gen = s.gen ∧ (takeTurn a1 a2 s).eng = s.eng ∧
    (takeTurn a1 a2 s).recd = s.recd ∧ (takeTurn a1 a2 s).pmu = s.pmu ∧ (takeTurn a1 a2 s).svc = s.svc ∧ (takeTurn a1 a2
    s).therm = s.therm ∧ (takeTurn a1 a2 s).regs = s.regs ∧ (takeTurn a1 a2 s).hmem = s.hmem ∧ (takeTurn a1 a2 s).now =
    s.now ∧ (takeTurn a1 a2 s).elapsed = s.elapsed ∧ (takeTurn a1 a2 s).free = s.free ∧ (takeTurn a1 a2 s).pending =
    s.pending := by
  intros; unfold takeTurn
  first
    | ((repeat' split) <;> simp; done)
    | (dsimp only; (repeat' split) <;> simp [*]; done)
    | ((repeat' apply And.intro) <;> dsimp only <;> (repeat' split) <;> simp [*]; done)

@[simp] theorem txAdmit_keeps : ∀ a1 a2 s, (txAdmit a1 a2 s).md = s.md ∧ (txAdmit a1 a2 s).dev = s.dev ∧ (txAdmit a1 a2
    s).pins = s.pins ∧ (txAdmit a1 a2 s).side = s.side ∧ (txAdmit a1 a2 s).prot = s.prot ∧ (txAdmit a1 a2 s).mram =
    s.mram ∧ (txAdmit a1 a2 s).img = s.img ∧ (txAdmit a1 a2 s).lat = s.lat ∧ (txAdmit a1 a2 s).acct = s.acct ∧ (txAdmit
    a1 a2 s).tim = s.tim ∧ (txAdmit a1 a2 s).buf = s.buf ∧ (txAdmit a1 a2 s).eg = s.eg ∧ (txAdmit a1 a2 s).tab = s.tab ∧
    (txAdmit a1 a2 s).gen = s.gen ∧ (txAdmit a1 a2 s).eng = s.eng ∧ (txAdmit a1 a2 s).recd = s.recd ∧ (txAdmit a1 a2
    s).svc = s.svc ∧ (txAdmit a1 a2 s).therm = s.therm ∧ (txAdmit a1 a2 s).now = s.now ∧ (txAdmit a1 a2 s).elapsed =
    s.elapsed ∧ (txAdmit a1 a2 s).free = s.free ∧ (txAdmit a1 a2 s).pending = s.pending := by
  intros; unfold txAdmit
  first
    | ((repeat' split) <;> simp; done)
    | (dsimp only; (repeat' split) <;> simp [*]; done)
    | ((repeat' apply And.intro) <;> dsimp only <;> (repeat' split) <;> simp [*]; done)

@[simp] theorem txRefuse_keeps : ∀ a1 a2 a3 s, (txRefuse a1 a2 a3 s).md = s.md ∧ (txRefuse a1 a2 a3 s).dev = s.dev ∧
    (txRefuse a1 a2 a3 s).pins = s.pins ∧ (txRefuse a1 a2 a3 s).side = s.side ∧ (txRefuse a1 a2 a3 s).prot = s.prot ∧
    (txRefuse a1 a2 a3 s).mram = s.mram ∧ (txRefuse a1 a2 a3 s).img = s.img ∧ (txRefuse a1 a2 a3 s).lat = s.lat ∧
    (txRefuse a1 a2 a3 s).acct = s.acct ∧ (txRefuse a1 a2 a3 s).lk = s.lk ∧ (txRefuse a1 a2 a3 s).tim = s.tim ∧
    (txRefuse a1 a2 a3 s).buf = s.buf ∧ (txRefuse a1 a2 a3 s).eg = s.eg ∧ (txRefuse a1 a2 a3 s).tab = s.tab ∧ (txRefuse
    a1 a2 a3 s).gen = s.gen ∧ (txRefuse a1 a2 a3 s).eng = s.eng ∧ (txRefuse a1 a2 a3 s).recd = s.recd ∧ (txRefuse a1 a2
    a3 s).svc = s.svc ∧ (txRefuse a1 a2 a3 s).therm = s.therm ∧ (txRefuse a1 a2 a3 s).now = s.now ∧ (txRefuse a1 a2 a3
    s).elapsed = s.elapsed ∧ (txRefuse a1 a2 a3 s).free = s.free ∧ (txRefuse a1 a2 a3 s).pending = s.pending := by
  intros; unfold txRefuse
  first
    | ((repeat' split) <;> simp; done)
    | (dsimp only; (repeat' split) <;> simp [*]; done)
    | ((repeat' apply And.intro) <;> dsimp only <;> (repeat' split) <;> simp [*]; done)

@[simp] theorem txServe_keeps : ∀ a1 s, (txServe a1 s).md = s.md ∧ (txServe a1 s).dev = s.dev ∧ (txServe a1 s).pins =
    s.pins ∧ (txServe a1 s).side = s.side ∧ (txServe a1 s).prot = s.prot ∧ (txServe a1 s).mram = s.mram ∧ (txServe a1
    s).img = s.img ∧ (txServe a1 s).lat = s.lat ∧ (txServe a1 s).acct = s.acct ∧ (txServe a1 s).tim = s.tim ∧ (txServe
    a1 s).buf = s.buf ∧ (txServe a1 s).eg = s.eg ∧ (txServe a1 s).tab = s.tab ∧ (txServe a1 s).gen = s.gen ∧ (txServe a1
    s).eng = s.eng ∧ (txServe a1 s).recd = s.recd ∧ (txServe a1 s).svc = s.svc ∧ (txServe a1 s).therm = s.therm ∧
    (txServe a1 s).now = s.now ∧ (txServe a1 s).elapsed = s.elapsed ∧ (txServe a1 s).free = s.free ∧ (txServe a1
    s).pending = s.pending := by
  intros; unfold txServe
  first
    | ((repeat' split) <;> simp; done)
    | (dsimp only; (repeat' split) <;> simp [*]; done)
    | ((repeat' apply And.intro) <;> dsimp only <;> (repeat' split) <;> simp [*]; done)

@[simp] theorem recirculate_keeps : ∀ a1 a2 a3 s, (recirculate a1 a2 a3 s).md = s.md ∧ (recirculate a1 a2 a3 s).dev =
    s.dev ∧ (recirculate a1 a2 a3 s).pins = s.pins ∧ (recirculate a1 a2 a3 s).side = s.side ∧ (recirculate a1 a2 a3
    s).prot = s.prot ∧ (recirculate a1 a2 a3 s).mram = s.mram ∧ (recirculate a1 a2 a3 s).img = s.img ∧ (recirculate a1
    a2 a3 s).lat = s.lat ∧ (recirculate a1 a2 a3 s).tim = s.tim ∧ (recirculate a1 a2 a3 s).tab = s.tab ∧ (recirculate a1
    a2 a3 s).gen = s.gen ∧ (recirculate a1 a2 a3 s).eng = s.eng ∧ (recirculate a1 a2 a3 s).svc = s.svc ∧ (recirculate a1
    a2 a3 s).therm = s.therm ∧ (recirculate a1 a2 a3 s).now = s.now ∧ (recirculate a1 a2 a3 s).elapsed = s.elapsed ∧
    (recirculate a1 a2 a3 s).free = s.free ∧ (recirculate a1 a2 a3 s).pending = s.pending := by
  intros; unfold recirculate
  first
    | ((repeat' split) <;> simp; done)
    | (dsimp only; (repeat' split) <;> simp [*]; done)
    | ((repeat' apply And.intro) <;> dsimp only <;> (repeat' split) <;> simp [*]; done)

@[simp] theorem tcmdImageWrite_keeps : ∀ a1 a2 s, (tcmdImageWrite a1 a2 s).md = s.md ∧ (tcmdImageWrite a1 a2 s).dev =
    s.dev ∧ (tcmdImageWrite a1 a2 s).pins = s.pins ∧ (tcmdImageWrite a1 a2 s).side = s.side ∧ (tcmdImageWrite a1 a2
    s).prot = s.prot ∧ (tcmdImageWrite a1 a2 s).mram = s.mram ∧ (tcmdImageWrite a1 a2 s).img = s.img ∧ (tcmdImageWrite
    a1 a2 s).host = s.host ∧ (tcmdImageWrite a1 a2 s).lat = s.lat ∧ (tcmdImageWrite a1 a2 s).acct = s.acct ∧
    (tcmdImageWrite a1 a2 s).lk = s.lk ∧ (tcmdImageWrite a1 a2 s).tim = s.tim ∧ (tcmdImageWrite a1 a2 s).buf = s.buf ∧
    (tcmdImageWrite a1 a2 s).eg = s.eg ∧ (tcmdImageWrite a1 a2 s).tab = s.tab ∧ (tcmdImageWrite a1 a2 s).gen = s.gen ∧
    (tcmdImageWrite a1 a2 s).eng = s.eng ∧ (tcmdImageWrite a1 a2 s).recd = s.recd ∧ (tcmdImageWrite a1 a2 s).pmu = s.pmu
    ∧ (tcmdImageWrite a1 a2 s).svc = s.svc ∧ (tcmdImageWrite a1 a2 s).therm = s.therm ∧ (tcmdImageWrite a1 a2 s).hmem =
    s.hmem ∧ (tcmdImageWrite a1 a2 s).now = s.now ∧ (tcmdImageWrite a1 a2 s).elapsed = s.elapsed ∧ (tcmdImageWrite a1 a2
    s).free = s.free ∧ (tcmdImageWrite a1 a2 s).pending = s.pending := by
  intros; unfold tcmdImageWrite
  first
    | ((repeat' split) <;> simp; done)
    | (dsimp only; (repeat' split) <;> simp [*]; done)
    | ((repeat' apply And.intro) <;> dsimp only <;> (repeat' split) <;> simp [*]; done)

@[simp] theorem holdLow_keeps : ∀ a1 a2 s, (holdLow a1 a2 s).md = s.md ∧ (holdLow a1 a2 s).dev = s.dev ∧ (holdLow a1 a2
    s).pins = s.pins ∧ (holdLow a1 a2 s).side = s.side ∧ (holdLow a1 a2 s).prot = s.prot ∧ (holdLow a1 a2 s).mram =
    s.mram ∧ (holdLow a1 a2 s).img = s.img ∧ (holdLow a1 a2 s).host = s.host ∧ (holdLow a1 a2 s).acct = s.acct ∧
    (holdLow a1 a2 s).lk = s.lk ∧ (holdLow a1 a2 s).tim = s.tim ∧ (holdLow a1 a2 s).buf = s.buf ∧ (holdLow a1 a2 s).eg =
    s.eg ∧ (holdLow a1 a2 s).tab = s.tab ∧ (holdLow a1 a2 s).gen = s.gen ∧ (holdLow a1 a2 s).eng = s.eng ∧ (holdLow a1
    a2 s).recd = s.recd ∧ (holdLow a1 a2 s).pmu = s.pmu ∧ (holdLow a1 a2 s).svc = s.svc ∧ (holdLow a1 a2 s).therm =
    s.therm ∧ (holdLow a1 a2 s).regs = s.regs ∧ (holdLow a1 a2 s).hmem = s.hmem ∧ (holdLow a1 a2 s).now = s.now ∧
    (holdLow a1 a2 s).elapsed = s.elapsed ∧ (holdLow a1 a2 s).free = s.free ∧ (holdLow a1 a2 s).pending = s.pending :=
    by
  intros; unfold holdLow
  first
    | ((repeat' split) <;> simp; done)
    | (dsimp only; (repeat' split) <;> simp [*]; done)
    | ((repeat' apply And.intro) <;> dsimp only <;> (repeat' split) <;> simp [*]; done)

@[simp] theorem dropLow_keeps : ∀ a1 s, (dropLow a1 s).md = s.md ∧ (dropLow a1 s).dev = s.dev ∧ (dropLow a1 s).pins =
    s.pins ∧ (dropLow a1 s).side = s.side ∧ (dropLow a1 s).prot = s.prot ∧ (dropLow a1 s).mram = s.mram ∧ (dropLow a1
    s).img = s.img ∧ (dropLow a1 s).host = s.host ∧ (dropLow a1 s).acct = s.acct ∧ (dropLow a1 s).lk = s.lk ∧ (dropLow
    a1 s).tim = s.tim ∧ (dropLow a1 s).buf = s.buf ∧ (dropLow a1 s).eg = s.eg ∧ (dropLow a1 s).tab = s.tab ∧ (dropLow a1
    s).gen = s.gen ∧ (dropLow a1 s).eng = s.eng ∧ (dropLow a1 s).recd = s.recd ∧ (dropLow a1 s).pmu = s.pmu ∧ (dropLow
    a1 s).svc = s.svc ∧ (dropLow a1 s).therm = s.therm ∧ (dropLow a1 s).regs = s.regs ∧ (dropLow a1 s).hmem = s.hmem ∧
    (dropLow a1 s).now = s.now ∧ (dropLow a1 s).elapsed = s.elapsed ∧ (dropLow a1 s).free = s.free ∧ (dropLow a1
    s).pending = s.pending := by
  intros; unfold dropLow
  first
    | ((repeat' split) <;> simp; done)
    | (dsimp only; (repeat' split) <;> simp [*]; done)
    | ((repeat' apply And.intro) <;> dsimp only <;> (repeat' split) <;> simp [*]; done)

@[simp] theorem writePair_md (x : RegHit) (v : Word) (f : RegHit → Nat → State → State) (s : State) (h : ∀ e n s, (f e n
    s).md = s.md) : (writePair x v f s).md = s.md := by
  unfold writePair; (repeat' split) <;> simp [h]

@[simp] theorem writePair_dev (x : RegHit) (v : Word) (f : RegHit → Nat → State → State) (s : State) (h : ∀ e n s, (f e
    n s).dev = s.dev) : (writePair x v f s).dev = s.dev := by
  unfold writePair; (repeat' split) <;> simp [h]

@[simp] theorem writePair_pins (x : RegHit) (v : Word) (f : RegHit → Nat → State → State) (s : State) (h : ∀ e n s, (f e
    n s).pins = s.pins) : (writePair x v f s).pins = s.pins := by
  unfold writePair; (repeat' split) <;> simp [h]

@[simp] theorem writePair_side (x : RegHit) (v : Word) (f : RegHit → Nat → State → State) (s : State) (h : ∀ e n s, (f e
    n s).side = s.side) : (writePair x v f s).side = s.side := by
  unfold writePair; (repeat' split) <;> simp [h]

@[simp] theorem writePair_prot (x : RegHit) (v : Word) (f : RegHit → Nat → State → State) (s : State) (h : ∀ e n s, (f e
    n s).prot = s.prot) : (writePair x v f s).prot = s.prot := by
  unfold writePair; (repeat' split) <;> simp [h]

@[simp] theorem writePair_mram (x : RegHit) (v : Word) (f : RegHit → Nat → State → State) (s : State) (h : ∀ e n s, (f e
    n s).mram = s.mram) : (writePair x v f s).mram = s.mram := by
  unfold writePair; (repeat' split) <;> simp [h]

@[simp] theorem writePair_img (x : RegHit) (v : Word) (f : RegHit → Nat → State → State) (s : State) (h : ∀ e n s, (f e
    n s).img = s.img) : (writePair x v f s).img = s.img := by
  unfold writePair; (repeat' split) <;> simp [h]

@[simp] theorem writePair_host (x : RegHit) (v : Word) (f : RegHit → Nat → State → State) (s : State) (h : ∀ e n s, (f e
    n s).host = s.host) : (writePair x v f s).host = s.host := by
  unfold writePair; (repeat' split) <;> simp [h]

@[simp] theorem writePair_acct (x : RegHit) (v : Word) (f : RegHit → Nat → State → State) (s : State) (h : ∀ e n s, (f e
    n s).acct = s.acct) : (writePair x v f s).acct = s.acct := by
  unfold writePair; (repeat' split) <;> simp [h]

@[simp] theorem writePair_lk (x : RegHit) (v : Word) (f : RegHit → Nat → State → State) (s : State) (h : ∀ e n s, (f e n
    s).lk = s.lk) : (writePair x v f s).lk = s.lk := by
  unfold writePair; (repeat' split) <;> simp [h]

@[simp] theorem writePair_tim (x : RegHit) (v : Word) (f : RegHit → Nat → State → State) (s : State) (h : ∀ e n s, (f e
    n s).tim = s.tim) : (writePair x v f s).tim = s.tim := by
  unfold writePair; (repeat' split) <;> simp [h]

@[simp] theorem writePair_buf (x : RegHit) (v : Word) (f : RegHit → Nat → State → State) (s : State) (h : ∀ e n s, (f e
    n s).buf = s.buf) : (writePair x v f s).buf = s.buf := by
  unfold writePair; (repeat' split) <;> simp [h]

@[simp] theorem writePair_eg (x : RegHit) (v : Word) (f : RegHit → Nat → State → State) (s : State) (h : ∀ e n s, (f e n
    s).eg = s.eg) : (writePair x v f s).eg = s.eg := by
  unfold writePair; (repeat' split) <;> simp [h]

@[simp] theorem writePair_tab (x : RegHit) (v : Word) (f : RegHit → Nat → State → State) (s : State) (h : ∀ e n s, (f e
    n s).tab = s.tab) : (writePair x v f s).tab = s.tab := by
  unfold writePair; (repeat' split) <;> simp [h]

@[simp] theorem writePair_gen (x : RegHit) (v : Word) (f : RegHit → Nat → State → State) (s : State) (h : ∀ e n s, (f e
    n s).gen = s.gen) : (writePair x v f s).gen = s.gen := by
  unfold writePair; (repeat' split) <;> simp [h]

@[simp] theorem writePair_eng (x : RegHit) (v : Word) (f : RegHit → Nat → State → State) (s : State) (h : ∀ e n s, (f e
    n s).eng = s.eng) : (writePair x v f s).eng = s.eng := by
  unfold writePair; (repeat' split) <;> simp [h]

@[simp] theorem writePair_recd (x : RegHit) (v : Word) (f : RegHit → Nat → State → State) (s : State) (h : ∀ e n s, (f e
    n s).recd = s.recd) : (writePair x v f s).recd = s.recd := by
  unfold writePair; (repeat' split) <;> simp [h]

@[simp] theorem writePair_pmu (x : RegHit) (v : Word) (f : RegHit → Nat → State → State) (s : State) (h : ∀ e n s, (f e
    n s).pmu = s.pmu) : (writePair x v f s).pmu = s.pmu := by
  unfold writePair; (repeat' split) <;> simp [h]

@[simp] theorem writePair_svc (x : RegHit) (v : Word) (f : RegHit → Nat → State → State) (s : State) (h : ∀ e n s, (f e
    n s).svc = s.svc) : (writePair x v f s).svc = s.svc := by
  unfold writePair; (repeat' split) <;> simp [h]

@[simp] theorem writePair_therm (x : RegHit) (v : Word) (f : RegHit → Nat → State → State) (s : State) (h : ∀ e n s, (f
    e n s).therm = s.therm) : (writePair x v f s).therm = s.therm := by
  unfold writePair; (repeat' split) <;> simp [h]

@[simp] theorem writePair_regs (x : RegHit) (v : Word) (f : RegHit → Nat → State → State) (s : State) (h : ∀ e n s, (f e
    n s).regs = s.regs) : (writePair x v f s).regs = s.regs := by
  unfold writePair; (repeat' split) <;> simp [h]

@[simp] theorem writePair_hmem (x : RegHit) (v : Word) (f : RegHit → Nat → State → State) (s : State) (h : ∀ e n s, (f e
    n s).hmem = s.hmem) : (writePair x v f s).hmem = s.hmem := by
  unfold writePair; (repeat' split) <;> simp [h]

@[simp] theorem writePair_now (x : RegHit) (v : Word) (f : RegHit → Nat → State → State) (s : State) (h : ∀ e n s, (f e
    n s).now = s.now) : (writePair x v f s).now = s.now := by
  unfold writePair; (repeat' split) <;> simp [h]

@[simp] theorem writePair_elapsed (x : RegHit) (v : Word) (f : RegHit → Nat → State → State) (s : State) (h : ∀ e n s,
    (f e n s).elapsed = s.elapsed) : (writePair x v f s).elapsed = s.elapsed := by
  unfold writePair; (repeat' split) <;> simp [h]

@[simp] theorem writePair_free (x : RegHit) (v : Word) (f : RegHit → Nat → State → State) (s : State) (h : ∀ e n s, (f e
    n s).free = s.free) : (writePair x v f s).free = s.free := by
  unfold writePair; (repeat' split) <;> simp [h]

@[simp] theorem writePair_pending (x : RegHit) (v : Word) (f : RegHit → Nat → State → State) (s : State) (h : ∀ e n s,
    (f e n s).pending = s.pending) : (writePair x v f s).pending = s.pending := by
  unfold writePair; (repeat' split) <;> simp [h]

@[simp] theorem putWord_keeps : ∀ a1 a2 a3 s, (putWord a1 a2 a3 s).md = s.md ∧ (putWord a1 a2 a3 s).dev = s.dev ∧
    (putWord a1 a2 a3 s).pins = s.pins ∧ (putWord a1 a2 a3 s).side = s.side ∧ (putWord a1 a2 a3 s).prot = s.prot ∧
    (putWord a1 a2 a3 s).mram = s.mram ∧ (putWord a1 a2 a3 s).img = s.img ∧ (putWord a1 a2 a3 s).host = s.host ∧
    (putWord a1 a2 a3 s).lat = s.lat ∧ (putWord a1 a2 a3 s).acct = s.acct ∧ (putWord a1 a2 a3 s).lk = s.lk ∧ (putWord a1
    a2 a3 s).tim = s.tim ∧ (putWord a1 a2 a3 s).buf = s.buf ∧ (putWord a1 a2 a3 s).eg = s.eg ∧ (putWord a1 a2 a3 s).tab
    = s.tab ∧ (putWord a1 a2 a3 s).gen = s.gen ∧ (putWord a1 a2 a3 s).eng = s.eng ∧ (putWord a1 a2 a3 s).recd = s.recd ∧
    (putWord a1 a2 a3 s).pmu = s.pmu ∧ (putWord a1 a2 a3 s).svc = s.svc ∧ (putWord a1 a2 a3 s).therm = s.therm ∧
    (putWord a1 a2 a3 s).hmem = s.hmem ∧ (putWord a1 a2 a3 s).now = s.now ∧ (putWord a1 a2 a3 s).elapsed = s.elapsed ∧
    (putWord a1 a2 a3 s).free = s.free ∧ (putWord a1 a2 a3 s).pending = s.pending := by
  intros; unfold putWord
  first
    | ((repeat' split) <;> simp; done)
    | (dsimp only; (repeat' split) <;> simp [*]; done)
    | ((repeat' apply And.intro) <;> dsimp only <;> (repeat' split) <;> simp [*]; done)

@[simp] theorem putPlain_keeps : ∀ a1 a2 s, (putPlain a1 a2 s).md = s.md ∧ (putPlain a1 a2 s).dev = s.dev ∧ (putPlain a1
    a2 s).pins = s.pins ∧ (putPlain a1 a2 s).side = s.side ∧ (putPlain a1 a2 s).prot = s.prot ∧ (putPlain a1 a2 s).mram
    = s.mram ∧ (putPlain a1 a2 s).img = s.img ∧ (putPlain a1 a2 s).host = s.host ∧ (putPlain a1 a2 s).acct = s.acct ∧
    (putPlain a1 a2 s).lk = s.lk ∧ (putPlain a1 a2 s).tim = s.tim ∧ (putPlain a1 a2 s).buf = s.buf ∧ (putPlain a1 a2
    s).eg = s.eg ∧ (putPlain a1 a2 s).tab = s.tab ∧ (putPlain a1 a2 s).gen = s.gen ∧ (putPlain a1 a2 s).eng = s.eng ∧
    (putPlain a1 a2 s).recd = s.recd ∧ (putPlain a1 a2 s).pmu = s.pmu ∧ (putPlain a1 a2 s).svc = s.svc ∧ (putPlain a1 a2
    s).therm = s.therm ∧ (putPlain a1 a2 s).hmem = s.hmem ∧ (putPlain a1 a2 s).now = s.now ∧ (putPlain a1 a2 s).elapsed
    = s.elapsed ∧ (putPlain a1 a2 s).free = s.free ∧ (putPlain a1 a2 s).pending = s.pending := by
  intros; unfold putPlain
  first
    | ((repeat' split) <;> simp; done)
    | (dsimp only; (repeat' split) <;> simp [*]; done)
    | ((repeat' apply And.intro) <;> dsimp only <;> (repeat' split) <;> simp [*]; done)

@[simp] theorem storeStaged_keeps : ∀ a1 a2 a3 s, (storeStaged a1 a2 a3 s).md = s.md ∧ (storeStaged a1 a2 a3 s).dev =
    s.dev ∧ (storeStaged a1 a2 a3 s).pins = s.pins ∧ (storeStaged a1 a2 a3 s).side = s.side ∧ (storeStaged a1 a2 a3
    s).prot = s.prot ∧ (storeStaged a1 a2 a3 s).mram = s.mram ∧ (storeStaged a1 a2 a3 s).img = s.img ∧ (storeStaged a1
    a2 a3 s).host = s.host ∧ (storeStaged a1 a2 a3 s).lat = s.lat ∧ (storeStaged a1 a2 a3 s).acct = s.acct ∧
    (storeStaged a1 a2 a3 s).lk = s.lk ∧ (storeStaged a1 a2 a3 s).tim = s.tim ∧ (storeStaged a1 a2 a3 s).buf = s.buf ∧
    (storeStaged a1 a2 a3 s).eg = s.eg ∧ (storeStaged a1 a2 a3 s).tab = s.tab ∧ (storeStaged a1 a2 a3 s).eng = s.eng ∧
    (storeStaged a1 a2 a3 s).recd = s.recd ∧ (storeStaged a1 a2 a3 s).pmu = s.pmu ∧ (storeStaged a1 a2 a3 s).svc = s.svc
    ∧ (storeStaged a1 a2 a3 s).therm = s.therm ∧ (storeStaged a1 a2 a3 s).hmem = s.hmem ∧ (storeStaged a1 a2 a3 s).now =
    s.now ∧ (storeStaged a1 a2 a3 s).elapsed = s.elapsed ∧ (storeStaged a1 a2 a3 s).free = s.free ∧ (storeStaged a1 a2
    a3 s).pending = s.pending := by
  intros; unfold storeStaged
  first
    | ((repeat' split) <;> simp; done)
    | (dsimp only; (repeat' split) <;> simp [*]; done)
    | ((repeat' apply And.intro) <;> dsimp only <;> (repeat' split) <;> simp [*]; done)

@[simp] theorem stagedWrite_keeps : ∀ a1 a2 s, (stagedWrite a1 a2 s).md = s.md ∧ (stagedWrite a1 a2 s).dev = s.dev ∧
    (stagedWrite a1 a2 s).pins = s.pins ∧ (stagedWrite a1 a2 s).side = s.side ∧ (stagedWrite a1 a2 s).prot = s.prot ∧
    (stagedWrite a1 a2 s).mram = s.mram ∧ (stagedWrite a1 a2 s).img = s.img ∧ (stagedWrite a1 a2 s).host = s.host ∧
    (stagedWrite a1 a2 s).acct = s.acct ∧ (stagedWrite a1 a2 s).lk = s.lk ∧ (stagedWrite a1 a2 s).tim = s.tim ∧
    (stagedWrite a1 a2 s).buf = s.buf ∧ (stagedWrite a1 a2 s).eg = s.eg ∧ (stagedWrite a1 a2 s).tab = s.tab ∧
    (stagedWrite a1 a2 s).eng = s.eng ∧ (stagedWrite a1 a2 s).recd = s.recd ∧ (stagedWrite a1 a2 s).pmu = s.pmu ∧
    (stagedWrite a1 a2 s).svc = s.svc ∧ (stagedWrite a1 a2 s).therm = s.therm ∧ (stagedWrite a1 a2 s).hmem = s.hmem ∧
    (stagedWrite a1 a2 s).now = s.now ∧ (stagedWrite a1 a2 s).elapsed = s.elapsed ∧ (stagedWrite a1 a2 s).free = s.free
    ∧ (stagedWrite a1 a2 s).pending = s.pending := by
  intros; unfold stagedWrite
  first
    | ((repeat' split) <;> simp; done)
    | (dsimp only; (repeat' split) <;> simp [*]; done)
    | ((repeat' apply And.intro) <;> dsimp only <;> (repeat' split) <;> simp [*]; done)

@[simp] theorem imageRegWrite_keeps : ∀ a1 a2 s, (imageRegWrite a1 a2 s).md = s.md ∧ (imageRegWrite a1 a2 s).dev = s.dev
    ∧ (imageRegWrite a1 a2 s).pins = s.pins ∧ (imageRegWrite a1 a2 s).side = s.side ∧ (imageRegWrite a1 a2 s).prot =
    s.prot ∧ (imageRegWrite a1 a2 s).mram = s.mram ∧ (imageRegWrite a1 a2 s).img = s.img ∧ (imageRegWrite a1 a2 s).acct
    = s.acct ∧ (imageRegWrite a1 a2 s).lk = s.lk ∧ (imageRegWrite a1 a2 s).tim = s.tim ∧ (imageRegWrite a1 a2 s).buf =
    s.buf ∧ (imageRegWrite a1 a2 s).eg = s.eg ∧ (imageRegWrite a1 a2 s).tab = s.tab ∧ (imageRegWrite a1 a2 s).eng =
    s.eng ∧ (imageRegWrite a1 a2 s).recd = s.recd ∧ (imageRegWrite a1 a2 s).pmu = s.pmu ∧ (imageRegWrite a1 a2 s).svc =
    s.svc ∧ (imageRegWrite a1 a2 s).therm = s.therm ∧ (imageRegWrite a1 a2 s).hmem = s.hmem ∧ (imageRegWrite a1 a2
    s).now = s.now ∧ (imageRegWrite a1 a2 s).elapsed = s.elapsed ∧ (imageRegWrite a1 a2 s).free = s.free ∧
    (imageRegWrite a1 a2 s).pending = s.pending := by
  intros; unfold imageRegWrite
  first
    | ((repeat' split) <;> simp; done)
    | (dsimp only; (repeat' split) <;> simp [*]; done)
    | ((repeat' apply And.intro) <;> dsimp only <;> (repeat' split) <;> simp [*]; done)

@[simp] theorem clearAnswer_keeps : ∀ s, (clearAnswer s).md = s.md ∧ (clearAnswer s).dev = s.dev ∧ (clearAnswer s).pins
    = s.pins ∧ (clearAnswer s).side = s.side ∧ (clearAnswer s).prot = s.prot ∧ (clearAnswer s).mram = s.mram ∧
    (clearAnswer s).host = s.host ∧ (clearAnswer s).lat = s.lat ∧ (clearAnswer s).acct = s.acct ∧ (clearAnswer s).lk =
    s.lk ∧ (clearAnswer s).tim = s.tim ∧ (clearAnswer s).buf = s.buf ∧ (clearAnswer s).eg = s.eg ∧ (clearAnswer s).tab =
    s.tab ∧ (clearAnswer s).gen = s.gen ∧ (clearAnswer s).eng = s.eng ∧ (clearAnswer s).recd = s.recd ∧ (clearAnswer
    s).pmu = s.pmu ∧ (clearAnswer s).svc = s.svc ∧ (clearAnswer s).therm = s.therm ∧ (clearAnswer s).regs = s.regs ∧
    (clearAnswer s).hmem = s.hmem ∧ (clearAnswer s).now = s.now ∧ (clearAnswer s).elapsed = s.elapsed ∧ (clearAnswer
    s).free = s.free ∧ (clearAnswer s).pending = s.pending := by
  intros; unfold clearAnswer
  first
    | ((repeat' split) <;> simp; done)
    | (dsimp only; (repeat' split) <;> simp [*]; done)
    | ((repeat' apply And.intro) <;> dsimp only <;> (repeat' split) <;> simp [*]; done)

@[simp] theorem earlyBack_keeps : ∀ a1 s, (earlyBack a1 s).md = s.md ∧ (earlyBack a1 s).dev = s.dev ∧ (earlyBack a1
    s).pins = s.pins ∧ (earlyBack a1 s).side = s.side ∧ (earlyBack a1 s).prot = s.prot ∧ (earlyBack a1 s).mram = s.mram
    ∧ (earlyBack a1 s).img = s.img ∧ (earlyBack a1 s).host = s.host ∧ (earlyBack a1 s).lat = s.lat ∧ (earlyBack a1
    s).acct = s.acct ∧ (earlyBack a1 s).lk = s.lk ∧ (earlyBack a1 s).tim = s.tim ∧ (earlyBack a1 s).eg = s.eg ∧
    (earlyBack a1 s).tab = s.tab ∧ (earlyBack a1 s).gen = s.gen ∧ (earlyBack a1 s).eng = s.eng ∧ (earlyBack a1 s).pmu =
    s.pmu ∧ (earlyBack a1 s).svc = s.svc ∧ (earlyBack a1 s).therm = s.therm ∧ (earlyBack a1 s).hmem = s.hmem ∧
    (earlyBack a1 s).now = s.now ∧ (earlyBack a1 s).elapsed = s.elapsed ∧ (earlyBack a1 s).free = s.free ∧ (earlyBack a1
    s).pending = s.pending := by
  intros; unfold earlyBack
  first
    | ((repeat' split) <;> simp; done)
    | (dsimp only; (repeat' split) <;> simp [*]; done)
    | ((repeat' apply And.intro) <;> dsimp only <;> (repeat' split) <;> simp [*]; done)

@[simp] theorem earlyRestore_keeps : ∀ a1 s, (earlyRestore a1 s).md = s.md ∧ (earlyRestore a1 s).dev = s.dev ∧
    (earlyRestore a1 s).pins = s.pins ∧ (earlyRestore a1 s).side = s.side ∧ (earlyRestore a1 s).prot = s.prot ∧
    (earlyRestore a1 s).mram = s.mram ∧ (earlyRestore a1 s).img = s.img ∧ (earlyRestore a1 s).host = s.host ∧
    (earlyRestore a1 s).lat = s.lat ∧ (earlyRestore a1 s).acct = s.acct ∧ (earlyRestore a1 s).lk = s.lk ∧ (earlyRestore
    a1 s).tim = s.tim ∧ (earlyRestore a1 s).eg = s.eg ∧ (earlyRestore a1 s).tab = s.tab ∧ (earlyRestore a1 s).gen =
    s.gen ∧ (earlyRestore a1 s).eng = s.eng ∧ (earlyRestore a1 s).pmu = s.pmu ∧ (earlyRestore a1 s).svc = s.svc ∧
    (earlyRestore a1 s).therm = s.therm ∧ (earlyRestore a1 s).hmem = s.hmem ∧ (earlyRestore a1 s).now = s.now ∧
    (earlyRestore a1 s).elapsed = s.elapsed ∧ (earlyRestore a1 s).free = s.free ∧ (earlyRestore a1 s).pending =
    s.pending := by
  intros; unfold earlyRestore
  first
    | ((repeat' split) <;> simp; done)
    | (dsimp only; (repeat' split) <;> simp [*]; done)
    | ((repeat' apply And.intro) <;> dsimp only <;> (repeat' split) <;> simp [*]; done)

@[simp] theorem unreclaim_keeps : ∀ a1 a2 s, (unreclaim a1 a2 s).md = s.md ∧ (unreclaim a1 a2 s).dev = s.dev ∧
    (unreclaim a1 a2 s).pins = s.pins ∧ (unreclaim a1 a2 s).side = s.side ∧ (unreclaim a1 a2 s).prot = s.prot ∧
    (unreclaim a1 a2 s).mram = s.mram ∧ (unreclaim a1 a2 s).img = s.img ∧ (unreclaim a1 a2 s).host = s.host ∧ (unreclaim
    a1 a2 s).lat = s.lat ∧ (unreclaim a1 a2 s).lk = s.lk ∧ (unreclaim a1 a2 s).tim = s.tim ∧ (unreclaim a1 a2 s).eg =
    s.eg ∧ (unreclaim a1 a2 s).tab = s.tab ∧ (unreclaim a1 a2 s).gen = s.gen ∧ (unreclaim a1 a2 s).eng = s.eng ∧
    (unreclaim a1 a2 s).recd = s.recd ∧ (unreclaim a1 a2 s).pmu = s.pmu ∧ (unreclaim a1 a2 s).svc = s.svc ∧ (unreclaim
    a1 a2 s).therm = s.therm ∧ (unreclaim a1 a2 s).regs = s.regs ∧ (unreclaim a1 a2 s).hmem = s.hmem ∧ (unreclaim a1 a2
    s).now = s.now ∧ (unreclaim a1 a2 s).elapsed = s.elapsed ∧ (unreclaim a1 a2 s).free = s.free ∧ (unreclaim a1 a2
    s).pending = s.pending := by
  intros; unfold unreclaim
  first
    | ((repeat' split) <;> simp; done)
    | (dsimp only; (repeat' split) <;> simp [*]; done)
    | ((repeat' apply And.intro) <;> dsimp only <;> (repeat' split) <;> simp [*]; done)

@[simp] theorem undoBuf_keeps : ∀ a1 s, (undoBuf a1 s).md = s.md ∧ (undoBuf a1 s).dev = s.dev ∧ (undoBuf a1 s).pins =
    s.pins ∧ (undoBuf a1 s).side = s.side ∧ (undoBuf a1 s).prot = s.prot ∧ (undoBuf a1 s).mram = s.mram ∧ (undoBuf a1
    s).img = s.img ∧ (undoBuf a1 s).host = s.host ∧ (undoBuf a1 s).lat = s.lat ∧ (undoBuf a1 s).lk = s.lk ∧ (undoBuf a1
    s).tim = s.tim ∧ (undoBuf a1 s).eg = s.eg ∧ (undoBuf a1 s).tab = s.tab ∧ (undoBuf a1 s).gen = s.gen ∧ (undoBuf a1
    s).eng = s.eng ∧ (undoBuf a1 s).recd = s.recd ∧ (undoBuf a1 s).pmu = s.pmu ∧ (undoBuf a1 s).svc = s.svc ∧ (undoBuf
    a1 s).therm = s.therm ∧ (undoBuf a1 s).regs = s.regs ∧ (undoBuf a1 s).hmem = s.hmem ∧ (undoBuf a1 s).now = s.now ∧
    (undoBuf a1 s).elapsed = s.elapsed ∧ (undoBuf a1 s).free = s.free ∧ (undoBuf a1 s).pending = s.pending := by
  intros; unfold undoBuf
  first
    | ((repeat' split) <;> simp; done)
    | (dsimp only; (repeat' split) <;> simp [*]; done)
    | ((repeat' apply And.intro) <;> dsimp only <;> (repeat' split) <;> simp [*]; done)

@[simp] theorem undoCommands_keeps : ∀ s, (undoCommands s).md = s.md ∧ (undoCommands s).dev = s.dev ∧ (undoCommands
    s).pins = s.pins ∧ (undoCommands s).side = s.side ∧ (undoCommands s).prot = s.prot ∧ (undoCommands s).img = s.img ∧
    (undoCommands s).host = s.host ∧ (undoCommands s).lat = s.lat ∧ (undoCommands s).lk = s.lk ∧ (undoCommands s).tim =
    s.tim ∧ (undoCommands s).eg = s.eg ∧ (undoCommands s).gen = s.gen ∧ (undoCommands s).pmu = s.pmu ∧ (undoCommands
    s).therm = s.therm ∧ (undoCommands s).regs = s.regs ∧ (undoCommands s).hmem = s.hmem ∧ (undoCommands s).now = s.now
    ∧ (undoCommands s).elapsed = s.elapsed ∧ (undoCommands s).free = s.free ∧ (undoCommands s).pending = s.pending := by
  intros; unfold undoCommands
  first
    | ((repeat' split) <;> simp; done)
    | (dsimp only; (repeat' split) <;> simp [*]; done)
    | ((repeat' apply And.intro) <;> dsimp only <;> (repeat' split) <;> simp [*]; done)

@[simp] theorem undoGeneration_keeps : ∀ s, (undoGeneration s).md = s.md ∧ (undoGeneration s).dev = s.dev ∧
    (undoGeneration s).side = s.side ∧ (undoGeneration s).prot = s.prot ∧ (undoGeneration s).mram = s.mram ∧
    (undoGeneration s).lat = s.lat ∧ (undoGeneration s).gen = s.gen ∧ (undoGeneration s).therm = s.therm ∧
    (undoGeneration s).now = s.now ∧ (undoGeneration s).elapsed = s.elapsed ∧ (undoGeneration s).free = s.free ∧
    (undoGeneration s).pending = s.pending := by
  intros; unfold undoGeneration
  first
    | ((repeat' split) <;> simp; done)
    | (dsimp only; (repeat' split) <;> simp [*]; done)
    | ((repeat' apply And.intro) <;> dsimp only <;> (repeat' split) <;> simp [*]; done)

@[simp] theorem undoImage_keeps : ∀ a1 s, (undoImage a1 s).md = s.md ∧ (undoImage a1 s).dev = s.dev ∧ (undoImage a1
    s).side = s.side ∧ (undoImage a1 s).prot = s.prot ∧ (undoImage a1 s).lat = s.lat ∧ (undoImage a1 s).therm = s.therm
    ∧ (undoImage a1 s).now = s.now ∧ (undoImage a1 s).elapsed = s.elapsed ∧ (undoImage a1 s).free = s.free ∧ (undoImage
    a1 s).pending = s.pending := by
  intros; unfold undoImage
  first
    | ((repeat' split) <;> simp; done)
    | (dsimp only; (repeat' split) <;> simp [*]; done)
    | ((repeat' apply And.intro) <;> dsimp only <;> (repeat' split) <;> simp [*]; done)

@[simp] theorem setBusy_keeps : ∀ a1 s, (setBusy a1 s).md = s.md ∧ (setBusy a1 s).dev = s.dev ∧ (setBusy a1 s).pins =
    s.pins ∧ (setBusy a1 s).side = s.side ∧ (setBusy a1 s).prot = s.prot ∧ (setBusy a1 s).mram = s.mram ∧ (setBusy a1
    s).host = s.host ∧ (setBusy a1 s).lat = s.lat ∧ (setBusy a1 s).acct = s.acct ∧ (setBusy a1 s).lk = s.lk ∧ (setBusy
    a1 s).tim = s.tim ∧ (setBusy a1 s).buf = s.buf ∧ (setBusy a1 s).eg = s.eg ∧ (setBusy a1 s).tab = s.tab ∧ (setBusy a1
    s).gen = s.gen ∧ (setBusy a1 s).eng = s.eng ∧ (setBusy a1 s).recd = s.recd ∧ (setBusy a1 s).pmu = s.pmu ∧ (setBusy
    a1 s).svc = s.svc ∧ (setBusy a1 s).therm = s.therm ∧ (setBusy a1 s).regs = s.regs ∧ (setBusy a1 s).hmem = s.hmem ∧
    (setBusy a1 s).now = s.now ∧ (setBusy a1 s).elapsed = s.elapsed ∧ (setBusy a1 s).free = s.free ∧ (setBusy a1
    s).pending = s.pending := by
  intros; unfold setBusy
  first
    | ((repeat' split) <;> simp; done)
    | (dsimp only; (repeat' split) <;> simp [*]; done)
    | ((repeat' apply And.intro) <;> dsimp only <;> (repeat' split) <;> simp [*]; done)

@[simp] theorem imgKnown_keeps : ∀ a1 a2 a3 s, (imgKnown a1 a2 a3 s).md = s.md ∧ (imgKnown a1 a2 a3 s).dev = s.dev ∧
    (imgKnown a1 a2 a3 s).pins = s.pins ∧ (imgKnown a1 a2 a3 s).side = s.side ∧ (imgKnown a1 a2 a3 s).prot = s.prot ∧
    (imgKnown a1 a2 a3 s).mram = s.mram ∧ (imgKnown a1 a2 a3 s).host = s.host ∧ (imgKnown a1 a2 a3 s).lat = s.lat ∧
    (imgKnown a1 a2 a3 s).acct = s.acct ∧ (imgKnown a1 a2 a3 s).lk = s.lk ∧ (imgKnown a1 a2 a3 s).tim = s.tim ∧
    (imgKnown a1 a2 a3 s).buf = s.buf ∧ (imgKnown a1 a2 a3 s).eg = s.eg ∧ (imgKnown a1 a2 a3 s).tab = s.tab ∧ (imgKnown
    a1 a2 a3 s).gen = s.gen ∧ (imgKnown a1 a2 a3 s).eng = s.eng ∧ (imgKnown a1 a2 a3 s).recd = s.recd ∧ (imgKnown a1 a2
    a3 s).pmu = s.pmu ∧ (imgKnown a1 a2 a3 s).svc = s.svc ∧ (imgKnown a1 a2 a3 s).therm = s.therm ∧ (imgKnown a1 a2 a3
    s).regs = s.regs ∧ (imgKnown a1 a2 a3 s).hmem = s.hmem ∧ (imgKnown a1 a2 a3 s).now = s.now ∧ (imgKnown a1 a2 a3
    s).elapsed = s.elapsed ∧ (imgKnown a1 a2 a3 s).free = s.free ∧ (imgKnown a1 a2 a3 s).pending = s.pending := by
  intros; unfold imgKnown
  first
    | ((repeat' split) <;> simp; done)
    | (dsimp only; (repeat' split) <;> simp [*]; done)
    | ((repeat' apply And.intro) <;> dsimp only <;> (repeat' split) <;> simp [*]; done)

@[simp] theorem setSlot_keeps : ∀ a1 a2 s, (setSlot a1 a2 s).md = s.md ∧ (setSlot a1 a2 s).dev = s.dev ∧ (setSlot a1 a2
    s).pins = s.pins ∧ (setSlot a1 a2 s).side = s.side ∧ (setSlot a1 a2 s).prot = s.prot ∧ (setSlot a1 a2 s).img = s.img
    ∧ (setSlot a1 a2 s).host = s.host ∧ (setSlot a1 a2 s).lat = s.lat ∧ (setSlot a1 a2 s).acct = s.acct ∧ (setSlot a1 a2
    s).lk = s.lk ∧ (setSlot a1 a2 s).tim = s.tim ∧ (setSlot a1 a2 s).buf = s.buf ∧ (setSlot a1 a2 s).eg = s.eg ∧
    (setSlot a1 a2 s).tab = s.tab ∧ (setSlot a1 a2 s).gen = s.gen ∧ (setSlot a1 a2 s).eng = s.eng ∧ (setSlot a1 a2
    s).recd = s.recd ∧ (setSlot a1 a2 s).pmu = s.pmu ∧ (setSlot a1 a2 s).svc = s.svc ∧ (setSlot a1 a2 s).therm = s.therm
    ∧ (setSlot a1 a2 s).regs = s.regs ∧ (setSlot a1 a2 s).hmem = s.hmem ∧ (setSlot a1 a2 s).now = s.now ∧ (setSlot a1 a2
    s).elapsed = s.elapsed ∧ (setSlot a1 a2 s).free = s.free ∧ (setSlot a1 a2 s).pending = s.pending := by
  intros; unfold setSlot
  first
    | ((repeat' split) <;> simp; done)
    | (dsimp only; (repeat' split) <;> simp [*]; done)
    | ((repeat' apply And.intro) <;> dsimp only <;> (repeat' split) <;> simp [*]; done)

@[simp] theorem storeImage_keeps : ∀ a1 a2 s, (storeImage a1 a2 s).md = s.md ∧ (storeImage a1 a2 s).dev = s.dev ∧
    (storeImage a1 a2 s).pins = s.pins ∧ (storeImage a1 a2 s).side = s.side ∧ (storeImage a1 a2 s).prot = s.prot ∧
    (storeImage a1 a2 s).host = s.host ∧ (storeImage a1 a2 s).lat = s.lat ∧ (storeImage a1 a2 s).acct = s.acct ∧
    (storeImage a1 a2 s).lk = s.lk ∧ (storeImage a1 a2 s).tim = s.tim ∧ (storeImage a1 a2 s).buf = s.buf ∧ (storeImage
    a1 a2 s).eg = s.eg ∧ (storeImage a1 a2 s).tab = s.tab ∧ (storeImage a1 a2 s).gen = s.gen ∧ (storeImage a1 a2 s).eng
    = s.eng ∧ (storeImage a1 a2 s).recd = s.recd ∧ (storeImage a1 a2 s).svc = s.svc ∧ (storeImage a1 a2 s).therm =
    s.therm ∧ (storeImage a1 a2 s).hmem = s.hmem ∧ (storeImage a1 a2 s).now = s.now ∧ (storeImage a1 a2 s).elapsed =
    s.elapsed ∧ (storeImage a1 a2 s).free = s.free ∧ (storeImage a1 a2 s).pending = s.pending := by
  intros; unfold storeImage
  first
    | ((repeat' split) <;> simp; done)
    | (dsimp only; (repeat' split) <;> simp [*]; done)
    | ((repeat' apply And.intro) <;> dsimp only <;> (repeat' split) <;> simp [*]; done)

@[simp] theorem unmarkSlot_keeps : ∀ a1 s, (unmarkSlot a1 s).md = s.md ∧ (unmarkSlot a1 s).dev = s.dev ∧ (unmarkSlot a1
    s).pins = s.pins ∧ (unmarkSlot a1 s).side = s.side ∧ (unmarkSlot a1 s).prot = s.prot ∧ (unmarkSlot a1 s).img = s.img
    ∧ (unmarkSlot a1 s).host = s.host ∧ (unmarkSlot a1 s).lat = s.lat ∧ (unmarkSlot a1 s).acct = s.acct ∧ (unmarkSlot a1
    s).lk = s.lk ∧ (unmarkSlot a1 s).tim = s.tim ∧ (unmarkSlot a1 s).buf = s.buf ∧ (unmarkSlot a1 s).eg = s.eg ∧
    (unmarkSlot a1 s).tab = s.tab ∧ (unmarkSlot a1 s).gen = s.gen ∧ (unmarkSlot a1 s).eng = s.eng ∧ (unmarkSlot a1
    s).recd = s.recd ∧ (unmarkSlot a1 s).pmu = s.pmu ∧ (unmarkSlot a1 s).svc = s.svc ∧ (unmarkSlot a1 s).therm = s.therm
    ∧ (unmarkSlot a1 s).regs = s.regs ∧ (unmarkSlot a1 s).hmem = s.hmem ∧ (unmarkSlot a1 s).now = s.now ∧ (unmarkSlot a1
    s).elapsed = s.elapsed ∧ (unmarkSlot a1 s).free = s.free ∧ (unmarkSlot a1 s).pending = s.pending := by
  intros; unfold unmarkSlot
  first
    | ((repeat' split) <;> simp; done)
    | (dsimp only; (repeat' split) <;> simp [*]; done)
    | ((repeat' apply And.intro) <;> dsimp only <;> (repeat' split) <;> simp [*]; done)

@[simp] theorem slotEffect_keeps : ∀ a1 s, (slotEffect a1 s).md = s.md ∧ (slotEffect a1 s).dev = s.dev ∧ (slotEffect a1
    s).pins = s.pins ∧ (slotEffect a1 s).side = s.side ∧ (slotEffect a1 s).prot = s.prot ∧ (slotEffect a1 s).img = s.img
    ∧ (slotEffect a1 s).host = s.host ∧ (slotEffect a1 s).lat = s.lat ∧ (slotEffect a1 s).acct = s.acct ∧ (slotEffect a1
    s).lk = s.lk ∧ (slotEffect a1 s).tim = s.tim ∧ (slotEffect a1 s).buf = s.buf ∧ (slotEffect a1 s).eg = s.eg ∧
    (slotEffect a1 s).tab = s.tab ∧ (slotEffect a1 s).gen = s.gen ∧ (slotEffect a1 s).eng = s.eng ∧ (slotEffect a1
    s).recd = s.recd ∧ (slotEffect a1 s).pmu = s.pmu ∧ (slotEffect a1 s).svc = s.svc ∧ (slotEffect a1 s).therm = s.therm
    ∧ (slotEffect a1 s).regs = s.regs ∧ (slotEffect a1 s).hmem = s.hmem ∧ (slotEffect a1 s).now = s.now ∧ (slotEffect a1
    s).elapsed = s.elapsed ∧ (slotEffect a1 s).free = s.free ∧ (slotEffect a1 s).pending = s.pending := by
  intros; unfold slotEffect
  first
    | ((repeat' split) <;> simp; done)
    | (dsimp only; (repeat' split) <;> simp [*]; done)
    | ((repeat' apply And.intro) <;> dsimp only <;> (repeat' split) <;> simp [*]; done)

@[simp] theorem finishImage_keeps : ∀ a1 s, (finishImage a1 s).md = s.md ∧ (finishImage a1 s).dev = s.dev ∧ (finishImage
    a1 s).pins = s.pins ∧ (finishImage a1 s).side = s.side ∧ (finishImage a1 s).prot = s.prot ∧ (finishImage a1 s).host
    = s.host ∧ (finishImage a1 s).lat = s.lat ∧ (finishImage a1 s).acct = s.acct ∧ (finishImage a1 s).lk = s.lk ∧
    (finishImage a1 s).tim = s.tim ∧ (finishImage a1 s).buf = s.buf ∧ (finishImage a1 s).eg = s.eg ∧ (finishImage a1
    s).tab = s.tab ∧ (finishImage a1 s).gen = s.gen ∧ (finishImage a1 s).eng = s.eng ∧ (finishImage a1 s).recd = s.recd
    ∧ (finishImage a1 s).pmu = s.pmu ∧ (finishImage a1 s).svc = s.svc ∧ (finishImage a1 s).therm = s.therm ∧
    (finishImage a1 s).regs = s.regs ∧ (finishImage a1 s).hmem = s.hmem ∧ (finishImage a1 s).now = s.now ∧ (finishImage
    a1 s).elapsed = s.elapsed ∧ (finishImage a1 s).free = s.free ∧ (finishImage a1 s).pending = s.pending := by
  intros; unfold finishImage
  first
    | ((repeat' split) <;> simp; done)
    | (dsimp only; (repeat' split) <;> simp [*]; done)
    | ((repeat' apply And.intro) <;> dsimp only <;> (repeat' split) <;> simp [*]; done)

@[simp] theorem settleImage_keeps : ∀ s, (settleImage s).md = s.md ∧ (settleImage s).dev = s.dev ∧ (settleImage s).pins
    = s.pins ∧ (settleImage s).side = s.side ∧ (settleImage s).prot = s.prot ∧ (settleImage s).host = s.host ∧
    (settleImage s).lat = s.lat ∧ (settleImage s).acct = s.acct ∧ (settleImage s).lk = s.lk ∧ (settleImage s).tim =
    s.tim ∧ (settleImage s).buf = s.buf ∧ (settleImage s).eg = s.eg ∧ (settleImage s).tab = s.tab ∧ (settleImage s).gen
    = s.gen ∧ (settleImage s).eng = s.eng ∧ (settleImage s).recd = s.recd ∧ (settleImage s).pmu = s.pmu ∧ (settleImage
    s).svc = s.svc ∧ (settleImage s).therm = s.therm ∧ (settleImage s).regs = s.regs ∧ (settleImage s).hmem = s.hmem ∧
    (settleImage s).now = s.now ∧ (settleImage s).elapsed = s.elapsed ∧ (settleImage s).free = s.free ∧ (settleImage
    s).pending = s.pending := by
  intros; unfold settleImage
  first
    | ((repeat' split) <;> simp; done)
    | (dsimp only; (repeat' split) <;> simp [*]; done)
    | ((repeat' apply And.intro) <;> dsimp only <;> (repeat' split) <;> simp [*]; done)

@[simp] theorem setCtr_keeps : ∀ a1 a2 a3 s, (setCtr a1 a2 a3 s).md = s.md ∧ (setCtr a1 a2 a3 s).dev = s.dev ∧ (setCtr
    a1 a2 a3 s).pins = s.pins ∧ (setCtr a1 a2 a3 s).side = s.side ∧ (setCtr a1 a2 a3 s).prot = s.prot ∧ (setCtr a1 a2 a3
    s).mram = s.mram ∧ (setCtr a1 a2 a3 s).img = s.img ∧ (setCtr a1 a2 a3 s).host = s.host ∧ (setCtr a1 a2 a3 s).lat =
    s.lat ∧ (setCtr a1 a2 a3 s).acct = s.acct ∧ (setCtr a1 a2 a3 s).lk = s.lk ∧ (setCtr a1 a2 a3 s).tim = s.tim ∧
    (setCtr a1 a2 a3 s).buf = s.buf ∧ (setCtr a1 a2 a3 s).eg = s.eg ∧ (setCtr a1 a2 a3 s).tab = s.tab ∧ (setCtr a1 a2 a3
    s).gen = s.gen ∧ (setCtr a1 a2 a3 s).eng = s.eng ∧ (setCtr a1 a2 a3 s).recd = s.recd ∧ (setCtr a1 a2 a3 s).svc =
    s.svc ∧ (setCtr a1 a2 a3 s).therm = s.therm ∧ (setCtr a1 a2 a3 s).regs = s.regs ∧ (setCtr a1 a2 a3 s).hmem = s.hmem
    ∧ (setCtr a1 a2 a3 s).now = s.now ∧ (setCtr a1 a2 a3 s).elapsed = s.elapsed ∧ (setCtr a1 a2 a3 s).free = s.free ∧
    (setCtr a1 a2 a3 s).pending = s.pending := by
  intros; unfold setCtr
  first
    | ((repeat' split) <;> simp; done)
    | (dsimp only; (repeat' split) <;> simp [*]; done)
    | ((repeat' apply And.intro) <;> dsimp only <;> (repeat' split) <;> simp [*]; done)

@[simp] theorem startCtr_keeps : ∀ a1 a2 s, (startCtr a1 a2 s).md = s.md ∧ (startCtr a1 a2 s).dev = s.dev ∧ (startCtr a1
    a2 s).pins = s.pins ∧ (startCtr a1 a2 s).side = s.side ∧ (startCtr a1 a2 s).prot = s.prot ∧ (startCtr a1 a2 s).mram
    = s.mram ∧ (startCtr a1 a2 s).img = s.img ∧ (startCtr a1 a2 s).host = s.host ∧ (startCtr a1 a2 s).lat = s.lat ∧
    (startCtr a1 a2 s).acct = s.acct ∧ (startCtr a1 a2 s).lk = s.lk ∧ (startCtr a1 a2 s).tim = s.tim ∧ (startCtr a1 a2
    s).buf = s.buf ∧ (startCtr a1 a2 s).eg = s.eg ∧ (startCtr a1 a2 s).tab = s.tab ∧ (startCtr a1 a2 s).gen = s.gen ∧
    (startCtr a1 a2 s).eng = s.eng ∧ (startCtr a1 a2 s).recd = s.recd ∧ (startCtr a1 a2 s).svc = s.svc ∧ (startCtr a1 a2
    s).therm = s.therm ∧ (startCtr a1 a2 s).regs = s.regs ∧ (startCtr a1 a2 s).hmem = s.hmem ∧ (startCtr a1 a2 s).now =
    s.now ∧ (startCtr a1 a2 s).elapsed = s.elapsed ∧ (startCtr a1 a2 s).free = s.free ∧ (startCtr a1 a2 s).pending =
    s.pending := by
  intros; unfold startCtr
  first
    | ((repeat' split) <;> simp; done)
    | (dsimp only; (repeat' split) <;> simp [*]; done)
    | ((repeat' apply And.intro) <;> dsimp only <;> (repeat' split) <;> simp [*]; done)

@[simp] theorem zeroCtr_keeps : ∀ a1 a2 s, (zeroCtr a1 a2 s).md = s.md ∧ (zeroCtr a1 a2 s).dev = s.dev ∧ (zeroCtr a1 a2
    s).pins = s.pins ∧ (zeroCtr a1 a2 s).side = s.side ∧ (zeroCtr a1 a2 s).prot = s.prot ∧ (zeroCtr a1 a2 s).mram =
    s.mram ∧ (zeroCtr a1 a2 s).img = s.img ∧ (zeroCtr a1 a2 s).host = s.host ∧ (zeroCtr a1 a2 s).lat = s.lat ∧ (zeroCtr
    a1 a2 s).acct = s.acct ∧ (zeroCtr a1 a2 s).lk = s.lk ∧ (zeroCtr a1 a2 s).tim = s.tim ∧ (zeroCtr a1 a2 s).buf = s.buf
    ∧ (zeroCtr a1 a2 s).eg = s.eg ∧ (zeroCtr a1 a2 s).tab = s.tab ∧ (zeroCtr a1 a2 s).gen = s.gen ∧ (zeroCtr a1 a2
    s).eng = s.eng ∧ (zeroCtr a1 a2 s).recd = s.recd ∧ (zeroCtr a1 a2 s).svc = s.svc ∧ (zeroCtr a1 a2 s).therm = s.therm
    ∧ (zeroCtr a1 a2 s).regs = s.regs ∧ (zeroCtr a1 a2 s).hmem = s.hmem ∧ (zeroCtr a1 a2 s).now = s.now ∧ (zeroCtr a1 a2
    s).elapsed = s.elapsed ∧ (zeroCtr a1 a2 s).free = s.free ∧ (zeroCtr a1 a2 s).pending = s.pending := by
  intros; unfold zeroCtr
  first
    | ((repeat' split) <;> simp; done)
    | (dsimp only; (repeat' split) <;> simp [*]; done)
    | ((repeat' apply And.intro) <;> dsimp only <;> (repeat' split) <;> simp [*]; done)

@[simp] theorem mgmtAlarm_keeps : ∀ a1 a2 s, (mgmtAlarm a1 a2 s).md = s.md ∧ (mgmtAlarm a1 a2 s).dev = s.dev ∧
    (mgmtAlarm a1 a2 s).pins = s.pins ∧ (mgmtAlarm a1 a2 s).side = s.side ∧ (mgmtAlarm a1 a2 s).prot = s.prot ∧
    (mgmtAlarm a1 a2 s).mram = s.mram ∧ (mgmtAlarm a1 a2 s).img = s.img ∧ (mgmtAlarm a1 a2 s).lat = s.lat ∧ (mgmtAlarm
    a1 a2 s).acct = s.acct ∧ (mgmtAlarm a1 a2 s).lk = s.lk ∧ (mgmtAlarm a1 a2 s).tim = s.tim ∧ (mgmtAlarm a1 a2 s).buf =
    s.buf ∧ (mgmtAlarm a1 a2 s).eg = s.eg ∧ (mgmtAlarm a1 a2 s).tab = s.tab ∧ (mgmtAlarm a1 a2 s).gen = s.gen ∧
    (mgmtAlarm a1 a2 s).eng = s.eng ∧ (mgmtAlarm a1 a2 s).recd = s.recd ∧ (mgmtAlarm a1 a2 s).pmu = s.pmu ∧ (mgmtAlarm
    a1 a2 s).svc = s.svc ∧ (mgmtAlarm a1 a2 s).therm = s.therm ∧ (mgmtAlarm a1 a2 s).hmem = s.hmem ∧ (mgmtAlarm a1 a2
    s).now = s.now ∧ (mgmtAlarm a1 a2 s).elapsed = s.elapsed ∧ (mgmtAlarm a1 a2 s).free = s.free ∧ (mgmtAlarm a1 a2
    s).pending = s.pending := by
  intros; unfold mgmtAlarm
  first
    | ((repeat' split) <;> simp; done)
    | (dsimp only; (repeat' split) <;> simp [*]; done)
    | ((repeat' apply And.intro) <;> dsimp only <;> (repeat' split) <;> simp [*]; done)

@[simp] theorem sensorAlarm_keeps : ∀ a1 a2 s, (sensorAlarm a1 a2 s).md = s.md ∧ (sensorAlarm a1 a2 s).dev = s.dev ∧
    (sensorAlarm a1 a2 s).pins = s.pins ∧ (sensorAlarm a1 a2 s).side = s.side ∧ (sensorAlarm a1 a2 s).prot = s.prot ∧
    (sensorAlarm a1 a2 s).mram = s.mram ∧ (sensorAlarm a1 a2 s).img = s.img ∧ (sensorAlarm a1 a2 s).lat = s.lat ∧
    (sensorAlarm a1 a2 s).acct = s.acct ∧ (sensorAlarm a1 a2 s).lk = s.lk ∧ (sensorAlarm a1 a2 s).tim = s.tim ∧
    (sensorAlarm a1 a2 s).buf = s.buf ∧ (sensorAlarm a1 a2 s).eg = s.eg ∧ (sensorAlarm a1 a2 s).tab = s.tab ∧
    (sensorAlarm a1 a2 s).gen = s.gen ∧ (sensorAlarm a1 a2 s).eng = s.eng ∧ (sensorAlarm a1 a2 s).recd = s.recd ∧
    (sensorAlarm a1 a2 s).pmu = s.pmu ∧ (sensorAlarm a1 a2 s).svc = s.svc ∧ (sensorAlarm a1 a2 s).hmem = s.hmem ∧
    (sensorAlarm a1 a2 s).now = s.now ∧ (sensorAlarm a1 a2 s).elapsed = s.elapsed ∧ (sensorAlarm a1 a2 s).free = s.free
    ∧ (sensorAlarm a1 a2 s).pending = s.pending := by
  intros; unfold sensorAlarm
  first
    | ((repeat' split) <;> simp; done)
    | (dsimp only; (repeat' split) <;> simp [*]; done)
    | ((repeat' apply And.intro) <;> dsimp only <;> (repeat' split) <;> simp [*]; done)

@[simp] theorem stackRefresh_keeps : ∀ a1 a2 s, (stackRefresh a1 a2 s).md = s.md ∧ (stackRefresh a1 a2 s).dev = s.dev ∧
    (stackRefresh a1 a2 s).pins = s.pins ∧ (stackRefresh a1 a2 s).side = s.side ∧ (stackRefresh a1 a2 s).prot = s.prot ∧
    (stackRefresh a1 a2 s).mram = s.mram ∧ (stackRefresh a1 a2 s).img = s.img ∧ (stackRefresh a1 a2 s).host = s.host ∧
    (stackRefresh a1 a2 s).lat = s.lat ∧ (stackRefresh a1 a2 s).acct = s.acct ∧ (stackRefresh a1 a2 s).lk = s.lk ∧
    (stackRefresh a1 a2 s).tim = s.tim ∧ (stackRefresh a1 a2 s).buf = s.buf ∧ (stackRefresh a1 a2 s).eg = s.eg ∧
    (stackRefresh a1 a2 s).tab = s.tab ∧ (stackRefresh a1 a2 s).gen = s.gen ∧ (stackRefresh a1 a2 s).eng = s.eng ∧
    (stackRefresh a1 a2 s).recd = s.recd ∧ (stackRefresh a1 a2 s).pmu = s.pmu ∧ (stackRefresh a1 a2 s).svc = s.svc ∧
    (stackRefresh a1 a2 s).regs = s.regs ∧ (stackRefresh a1 a2 s).hmem = s.hmem ∧ (stackRefresh a1 a2 s).now = s.now ∧
    (stackRefresh a1 a2 s).elapsed = s.elapsed ∧ (stackRefresh a1 a2 s).free = s.free ∧ (stackRefresh a1 a2 s).pending =
    s.pending := by
  intros; unfold stackRefresh
  first
    | ((repeat' split) <;> simp; done)
    | (dsimp only; (repeat' split) <;> simp [*]; done)
    | ((repeat' apply And.intro) <;> dsimp only <;> (repeat' split) <;> simp [*]; done)

@[simp] theorem parkThrottle_keeps : ∀ a1 s, (parkThrottle a1 s).md = s.md ∧ (parkThrottle a1 s).dev = s.dev ∧
    (parkThrottle a1 s).pins = s.pins ∧ (parkThrottle a1 s).side = s.side ∧ (parkThrottle a1 s).prot = s.prot ∧
    (parkThrottle a1 s).mram = s.mram ∧ (parkThrottle a1 s).img = s.img ∧ (parkThrottle a1 s).host = s.host ∧
    (parkThrottle a1 s).lat = s.lat ∧ (parkThrottle a1 s).acct = s.acct ∧ (parkThrottle a1 s).lk = s.lk ∧ (parkThrottle
    a1 s).tim = s.tim ∧ (parkThrottle a1 s).buf = s.buf ∧ (parkThrottle a1 s).eg = s.eg ∧ (parkThrottle a1 s).tab =
    s.tab ∧ (parkThrottle a1 s).gen = s.gen ∧ (parkThrottle a1 s).eng = s.eng ∧ (parkThrottle a1 s).recd = s.recd ∧
    (parkThrottle a1 s).pmu = s.pmu ∧ (parkThrottle a1 s).therm = s.therm ∧ (parkThrottle a1 s).regs = s.regs ∧
    (parkThrottle a1 s).hmem = s.hmem ∧ (parkThrottle a1 s).now = s.now ∧ (parkThrottle a1 s).elapsed = s.elapsed ∧
    (parkThrottle a1 s).free = s.free ∧ (parkThrottle a1 s).pending = s.pending := by
  intros; unfold parkThrottle
  first
    | ((repeat' split) <;> simp; done)
    | (dsimp only; (repeat' split) <;> simp [*]; done)
    | ((repeat' apply And.intro) <;> dsimp only <;> (repeat' split) <;> simp [*]; done)

@[simp] theorem takeSample_keeps : ∀ a1 s, (takeSample a1 s).dev = s.dev ∧ (takeSample a1 s).prot = s.prot ∧ (takeSample
    a1 s).img = s.img ∧ (takeSample a1 s).lat = s.lat ∧ (takeSample a1 s).tim = s.tim ∧ (takeSample a1 s).gen = s.gen ∧
    (takeSample a1 s).now = s.now ∧ (takeSample a1 s).elapsed = s.elapsed ∧ (takeSample a1 s).free = s.free ∧
    (takeSample a1 s).pending = s.pending := by
  intros; unfold takeSample
  first
    | ((repeat' split) <;> simp; done)
    | (dsimp only; (repeat' split) <;> simp [*]; done)
    | ((repeat' apply And.intro) <;> dsimp only <;> (repeat' split) <;> simp [*]; done)

@[simp] theorem leaveOut_keeps : ∀ a1 a2 s, (leaveOut a1 a2 s).md = s.md ∧ (leaveOut a1 a2 s).dev = s.dev ∧ (leaveOut a1
    a2 s).pins = s.pins ∧ (leaveOut a1 a2 s).side = s.side ∧ (leaveOut a1 a2 s).prot = s.prot ∧ (leaveOut a1 a2 s).mram
    = s.mram ∧ (leaveOut a1 a2 s).img = s.img ∧ (leaveOut a1 a2 s).lat = s.lat ∧ (leaveOut a1 a2 s).acct = s.acct ∧
    (leaveOut a1 a2 s).lk = s.lk ∧ (leaveOut a1 a2 s).tim = s.tim ∧ (leaveOut a1 a2 s).buf = s.buf ∧ (leaveOut a1 a2
    s).eg = s.eg ∧ (leaveOut a1 a2 s).tab = s.tab ∧ (leaveOut a1 a2 s).gen = s.gen ∧ (leaveOut a1 a2 s).eng = s.eng ∧
    (leaveOut a1 a2 s).recd = s.recd ∧ (leaveOut a1 a2 s).pmu = s.pmu ∧ (leaveOut a1 a2 s).therm = s.therm ∧ (leaveOut
    a1 a2 s).hmem = s.hmem ∧ (leaveOut a1 a2 s).now = s.now ∧ (leaveOut a1 a2 s).elapsed = s.elapsed ∧ (leaveOut a1 a2
    s).free = s.free ∧ (leaveOut a1 a2 s).pending = s.pending := by
  intros; unfold leaveOut
  first
    | ((repeat' split) <;> simp; done)
    | (dsimp only; (repeat' split) <;> simp [*]; done)
    | ((repeat' apply And.intro) <;> dsimp only <;> (repeat' split) <;> simp [*]; done)

@[simp] theorem leaveOutQuad_keeps : ∀ a1 s, (leaveOutQuad a1 s).md = s.md ∧ (leaveOutQuad a1 s).dev = s.dev ∧
    (leaveOutQuad a1 s).pins = s.pins ∧ (leaveOutQuad a1 s).side = s.side ∧ (leaveOutQuad a1 s).prot = s.prot ∧
    (leaveOutQuad a1 s).mram = s.mram ∧ (leaveOutQuad a1 s).img = s.img ∧ (leaveOutQuad a1 s).lat = s.lat ∧
    (leaveOutQuad a1 s).acct = s.acct ∧ (leaveOutQuad a1 s).tim = s.tim ∧ (leaveOutQuad a1 s).buf = s.buf ∧
    (leaveOutQuad a1 s).eg = s.eg ∧ (leaveOutQuad a1 s).tab = s.tab ∧ (leaveOutQuad a1 s).gen = s.gen ∧ (leaveOutQuad a1
    s).eng = s.eng ∧ (leaveOutQuad a1 s).recd = s.recd ∧ (leaveOutQuad a1 s).pmu = s.pmu ∧ (leaveOutQuad a1 s).therm =
    s.therm ∧ (leaveOutQuad a1 s).hmem = s.hmem ∧ (leaveOutQuad a1 s).now = s.now ∧ (leaveOutQuad a1 s).elapsed =
    s.elapsed ∧ (leaveOutQuad a1 s).free = s.free ∧ (leaveOutQuad a1 s).pending = s.pending := by
  intros; unfold leaveOutQuad
  first
    | ((repeat' split) <;> simp; done)
    | (dsimp only; (repeat' split) <;> simp [*]; done)
    | ((repeat' apply And.intro) <;> dsimp only <;> (repeat' split) <;> simp [*]; done)

@[simp] theorem leaveOutSlice_keeps : ∀ a1 s, (leaveOutSlice a1 s).md = s.md ∧ (leaveOutSlice a1 s).dev = s.dev ∧
    (leaveOutSlice a1 s).pins = s.pins ∧ (leaveOutSlice a1 s).side = s.side ∧ (leaveOutSlice a1 s).prot = s.prot ∧
    (leaveOutSlice a1 s).mram = s.mram ∧ (leaveOutSlice a1 s).img = s.img ∧ (leaveOutSlice a1 s).lat = s.lat ∧
    (leaveOutSlice a1 s).acct = s.acct ∧ (leaveOutSlice a1 s).tim = s.tim ∧ (leaveOutSlice a1 s).buf = s.buf ∧
    (leaveOutSlice a1 s).eg = s.eg ∧ (leaveOutSlice a1 s).tab = s.tab ∧ (leaveOutSlice a1 s).gen = s.gen ∧
    (leaveOutSlice a1 s).eng = s.eng ∧ (leaveOutSlice a1 s).recd = s.recd ∧ (leaveOutSlice a1 s).pmu = s.pmu ∧
    (leaveOutSlice a1 s).therm = s.therm ∧ (leaveOutSlice a1 s).hmem = s.hmem ∧ (leaveOutSlice a1 s).now = s.now ∧
    (leaveOutSlice a1 s).elapsed = s.elapsed ∧ (leaveOutSlice a1 s).free = s.free ∧ (leaveOutSlice a1 s).pending =
    s.pending := by
  intros; unfold leaveOutSlice
  first
    | ((repeat' split) <;> simp; done)
    | (dsimp only; (repeat' split) <;> simp [*]; done)
    | ((repeat' apply And.intro) <;> dsimp only <;> (repeat' split) <;> simp [*]; done)

@[simp] theorem wakeLoseChannel_keeps : ∀ a1 s, (wakeLoseChannel a1 s).md = s.md ∧ (wakeLoseChannel a1 s).dev = s.dev ∧
    (wakeLoseChannel a1 s).pins = s.pins ∧ (wakeLoseChannel a1 s).side = s.side ∧ (wakeLoseChannel a1 s).prot = s.prot ∧
    (wakeLoseChannel a1 s).mram = s.mram ∧ (wakeLoseChannel a1 s).img = s.img ∧ (wakeLoseChannel a1 s).host = s.host ∧
    (wakeLoseChannel a1 s).lat = s.lat ∧ (wakeLoseChannel a1 s).acct = s.acct ∧ (wakeLoseChannel a1 s).lk = s.lk ∧
    (wakeLoseChannel a1 s).tim = s.tim ∧ (wakeLoseChannel a1 s).buf = s.buf ∧ (wakeLoseChannel a1 s).eg = s.eg ∧
    (wakeLoseChannel a1 s).tab = s.tab ∧ (wakeLoseChannel a1 s).gen = s.gen ∧ (wakeLoseChannel a1 s).eng = s.eng ∧
    (wakeLoseChannel a1 s).recd = s.recd ∧ (wakeLoseChannel a1 s).pmu = s.pmu ∧ (wakeLoseChannel a1 s).therm = s.therm ∧
    (wakeLoseChannel a1 s).regs = s.regs ∧ (wakeLoseChannel a1 s).hmem = s.hmem ∧ (wakeLoseChannel a1 s).now = s.now ∧
    (wakeLoseChannel a1 s).elapsed = s.elapsed ∧ (wakeLoseChannel a1 s).free = s.free ∧ (wakeLoseChannel a1 s).pending =
    s.pending := by
  intros; unfold wakeLoseChannel
  first
    | ((repeat' split) <;> simp; done)
    | (dsimp only; (repeat' split) <;> simp [*]; done)
    | ((repeat' apply And.intro) <;> dsimp only <;> (repeat' split) <;> simp [*]; done)

@[simp] theorem islandOut_keeps : ∀ a1 s, (islandOut a1 s).md = s.md ∧ (islandOut a1 s).dev = s.dev ∧ (islandOut a1
    s).pins = s.pins ∧ (islandOut a1 s).side = s.side ∧ (islandOut a1 s).prot = s.prot ∧ (islandOut a1 s).mram = s.mram
    ∧ (islandOut a1 s).img = s.img ∧ (islandOut a1 s).lat = s.lat ∧ (islandOut a1 s).acct = s.acct ∧ (islandOut a1
    s).tim = s.tim ∧ (islandOut a1 s).buf = s.buf ∧ (islandOut a1 s).eg = s.eg ∧ (islandOut a1 s).tab = s.tab ∧
    (islandOut a1 s).gen = s.gen ∧ (islandOut a1 s).eng = s.eng ∧ (islandOut a1 s).recd = s.recd ∧ (islandOut a1 s).pmu
    = s.pmu ∧ (islandOut a1 s).therm = s.therm ∧ (islandOut a1 s).hmem = s.hmem ∧ (islandOut a1 s).now = s.now ∧
    (islandOut a1 s).elapsed = s.elapsed ∧ (islandOut a1 s).free = s.free ∧ (islandOut a1 s).pending = s.pending := by
  intros; unfold islandOut
  first
    | ((repeat' split) <;> simp; done)
    | (dsimp only; (repeat' split) <;> simp [*]; done)
    | ((repeat' apply And.intro) <;> dsimp only <;> (repeat' split) <;> simp [*]; done)

@[simp] theorem groupOut_keeps : ∀ a1 s, (groupOut a1 s).md = s.md ∧ (groupOut a1 s).dev = s.dev ∧ (groupOut a1 s).pins
    = s.pins ∧ (groupOut a1 s).side = s.side ∧ (groupOut a1 s).prot = s.prot ∧ (groupOut a1 s).mram = s.mram ∧ (groupOut
    a1 s).img = s.img ∧ (groupOut a1 s).lat = s.lat ∧ (groupOut a1 s).acct = s.acct ∧ (groupOut a1 s).lk = s.lk ∧
    (groupOut a1 s).tim = s.tim ∧ (groupOut a1 s).buf = s.buf ∧ (groupOut a1 s).eg = s.eg ∧ (groupOut a1 s).tab = s.tab
    ∧ (groupOut a1 s).gen = s.gen ∧ (groupOut a1 s).eng = s.eng ∧ (groupOut a1 s).recd = s.recd ∧ (groupOut a1 s).pmu =
    s.pmu ∧ (groupOut a1 s).therm = s.therm ∧ (groupOut a1 s).hmem = s.hmem ∧ (groupOut a1 s).now = s.now ∧ (groupOut a1
    s).elapsed = s.elapsed ∧ (groupOut a1 s).free = s.free ∧ (groupOut a1 s).pending = s.pending := by
  intros; unfold groupOut
  first
    | ((repeat' split) <;> simp; done)
    | (dsimp only; (repeat' split) <;> simp [*]; done)
    | ((repeat' apply And.intro) <;> dsimp only <;> (repeat' split) <;> simp [*]; done)

@[simp] theorem placeSpares_keeps : ∀ h a b s, (placeSpares h a b s).md = s.md ∧ (placeSpares h a b s).dev = s.dev ∧
    (placeSpares h a b s).pins = s.pins ∧ (placeSpares h a b s).side = s.side ∧ (placeSpares h a b s).prot = s.prot ∧
    (placeSpares h a b s).mram = s.mram ∧ (placeSpares h a b s).img = s.img ∧ (placeSpares h a b s).host = s.host ∧
    (placeSpares h a b s).lat = s.lat ∧ (placeSpares h a b s).acct = s.acct ∧ (placeSpares h a b s).lk = s.lk ∧
    (placeSpares h a b s).tim = s.tim ∧ (placeSpares h a b s).buf = s.buf ∧ (placeSpares h a b s).eg = s.eg ∧
    (placeSpares h a b s).tab = s.tab ∧ (placeSpares h a b s).gen = s.gen ∧ (placeSpares h a b s).eng = s.eng ∧
    (placeSpares h a b s).recd = s.recd ∧ (placeSpares h a b s).pmu = s.pmu ∧ (placeSpares h a b s).therm = s.therm ∧
    (placeSpares h a b s).regs = s.regs ∧ (placeSpares h a b s).hmem = s.hmem ∧ (placeSpares h a b s).now = s.now ∧
    (placeSpares h a b s).elapsed = s.elapsed ∧ (placeSpares h a b s).free = s.free ∧ (placeSpares h a b s).pending =
    s.pending := by
  intro h a; induction a with
  | nil => intros; simp [placeSpares]
  | cons x l ih => intro b s; cases b <;> simp [placeSpares, ih]

@[simp] theorem stackOut_keeps : ∀ a1 s, (stackOut a1 s).md = s.md ∧ (stackOut a1 s).dev = s.dev ∧ (stackOut a1 s).pins
    = s.pins ∧ (stackOut a1 s).side = s.side ∧ (stackOut a1 s).prot = s.prot ∧ (stackOut a1 s).mram = s.mram ∧ (stackOut
    a1 s).img = s.img ∧ (stackOut a1 s).lat = s.lat ∧ (stackOut a1 s).acct = s.acct ∧ (stackOut a1 s).lk = s.lk ∧
    (stackOut a1 s).tim = s.tim ∧ (stackOut a1 s).buf = s.buf ∧ (stackOut a1 s).eg = s.eg ∧ (stackOut a1 s).tab = s.tab
    ∧ (stackOut a1 s).gen = s.gen ∧ (stackOut a1 s).eng = s.eng ∧ (stackOut a1 s).recd = s.recd ∧ (stackOut a1 s).pmu =
    s.pmu ∧ (stackOut a1 s).therm = s.therm ∧ (stackOut a1 s).hmem = s.hmem ∧ (stackOut a1 s).now = s.now ∧ (stackOut a1
    s).elapsed = s.elapsed ∧ (stackOut a1 s).free = s.free ∧ (stackOut a1 s).pending = s.pending := by
  intros; unfold stackOut
  first
    | ((repeat' split) <;> simp; done)
    | (dsimp only; (repeat' split) <;> simp [*]; done)
    | ((repeat' apply And.intro) <;> dsimp only <;> (repeat' split) <;> simp [*]; done)

@[simp] theorem kindOut_keeps : ∀ a1 s, (kindOut a1 s).md = s.md ∧ (kindOut a1 s).dev = s.dev ∧ (kindOut a1 s).pins =
    s.pins ∧ (kindOut a1 s).side = s.side ∧ (kindOut a1 s).prot = s.prot ∧ (kindOut a1 s).mram = s.mram ∧ (kindOut a1
    s).img = s.img ∧ (kindOut a1 s).lat = s.lat ∧ (kindOut a1 s).acct = s.acct ∧ (kindOut a1 s).lk = s.lk ∧ (kindOut a1
    s).tim = s.tim ∧ (kindOut a1 s).buf = s.buf ∧ (kindOut a1 s).eg = s.eg ∧ (kindOut a1 s).tab = s.tab ∧ (kindOut a1
    s).gen = s.gen ∧ (kindOut a1 s).eng = s.eng ∧ (kindOut a1 s).recd = s.recd ∧ (kindOut a1 s).pmu = s.pmu ∧ (kindOut
    a1 s).therm = s.therm ∧ (kindOut a1 s).hmem = s.hmem ∧ (kindOut a1 s).now = s.now ∧ (kindOut a1 s).elapsed =
    s.elapsed ∧ (kindOut a1 s).free = s.free ∧ (kindOut a1 s).pending = s.pending := by
  intros; unfold kindOut
  first
    | ((repeat' split) <;> simp; done)
    | (dsimp only; (repeat' split) <;> simp [*]; done)
    | ((repeat' apply And.intro) <;> dsimp only <;> (repeat' split) <;> simp [*]; done)

@[simp] theorem applyHealth_keeps : ∀ s, (applyHealth s).md = s.md ∧ (applyHealth s).dev = s.dev ∧ (applyHealth s).pins
    = s.pins ∧ (applyHealth s).side = s.side ∧ (applyHealth s).prot = s.prot ∧ (applyHealth s).mram = s.mram ∧
    (applyHealth s).img = s.img ∧ (applyHealth s).lat = s.lat ∧ (applyHealth s).acct = s.acct ∧ (applyHealth s).tim =
    s.tim ∧ (applyHealth s).buf = s.buf ∧ (applyHealth s).eg = s.eg ∧ (applyHealth s).tab = s.tab ∧ (applyHealth s).gen
    = s.gen ∧ (applyHealth s).eng = s.eng ∧ (applyHealth s).recd = s.recd ∧ (applyHealth s).pmu = s.pmu ∧ (applyHealth
    s).therm = s.therm ∧ (applyHealth s).hmem = s.hmem ∧ (applyHealth s).now = s.now ∧ (applyHealth s).elapsed =
    s.elapsed ∧ (applyHealth s).free = s.free ∧ (applyHealth s).pending = s.pending := by
  intros; unfold applyHealth
  first
    | ((repeat' split) <;> simp; done)
    | (dsimp only; (repeat' split) <;> simp [*]; done)
    | ((repeat' apply And.intro) <;> dsimp only <;> (repeat' split) <;> simp [*]; done)

@[simp] theorem refitPartition_keeps : ∀ s, (refitPartition s).md = s.md ∧ (refitPartition s).dev = s.dev ∧
    (refitPartition s).pins = s.pins ∧ (refitPartition s).side = s.side ∧ (refitPartition s).prot = s.prot ∧
    (refitPartition s).mram = s.mram ∧ (refitPartition s).img = s.img ∧ (refitPartition s).host = s.host ∧
    (refitPartition s).lat = s.lat ∧ (refitPartition s).acct = s.acct ∧ (refitPartition s).lk = s.lk ∧ (refitPartition
    s).tim = s.tim ∧ (refitPartition s).eg = s.eg ∧ (refitPartition s).tab = s.tab ∧ (refitPartition s).gen = s.gen ∧
    (refitPartition s).eng = s.eng ∧ (refitPartition s).recd = s.recd ∧ (refitPartition s).pmu = s.pmu ∧ (refitPartition
    s).svc = s.svc ∧ (refitPartition s).therm = s.therm ∧ (refitPartition s).hmem = s.hmem ∧ (refitPartition s).now =
    s.now ∧ (refitPartition s).elapsed = s.elapsed ∧ (refitPartition s).free = s.free ∧ (refitPartition s).pending =
    s.pending := by
  intros; unfold refitPartition
  first
    | ((repeat' split) <;> simp; done)
    | (dsimp only; (repeat' split) <;> simp [*]; done)
    | ((repeat' apply And.intro) <;> dsimp only <;> (repeat' split) <;> simp [*]; done)

@[simp] theorem calibrateLane_keeps : ∀ a1 a2 s, (calibrateLane a1 a2 s).md = s.md ∧ (calibrateLane a1 a2 s).dev = s.dev
    ∧ (calibrateLane a1 a2 s).pins = s.pins ∧ (calibrateLane a1 a2 s).side = s.side ∧ (calibrateLane a1 a2 s).prot =
    s.prot ∧ (calibrateLane a1 a2 s).mram = s.mram ∧ (calibrateLane a1 a2 s).img = s.img ∧ (calibrateLane a1 a2 s).host
    = s.host ∧ (calibrateLane a1 a2 s).lat = s.lat ∧ (calibrateLane a1 a2 s).acct = s.acct ∧ (calibrateLane a1 a2 s).tim
    = s.tim ∧ (calibrateLane a1 a2 s).buf = s.buf ∧ (calibrateLane a1 a2 s).eg = s.eg ∧ (calibrateLane a1 a2 s).tab =
    s.tab ∧ (calibrateLane a1 a2 s).gen = s.gen ∧ (calibrateLane a1 a2 s).eng = s.eng ∧ (calibrateLane a1 a2 s).recd =
    s.recd ∧ (calibrateLane a1 a2 s).pmu = s.pmu ∧ (calibrateLane a1 a2 s).svc = s.svc ∧ (calibrateLane a1 a2 s).therm =
    s.therm ∧ (calibrateLane a1 a2 s).regs = s.regs ∧ (calibrateLane a1 a2 s).hmem = s.hmem ∧ (calibrateLane a1 a2
    s).now = s.now ∧ (calibrateLane a1 a2 s).elapsed = s.elapsed ∧ (calibrateLane a1 a2 s).free = s.free ∧
    (calibrateLane a1 a2 s).pending = s.pending := by
  intros; unfold calibrateLane
  first
    | ((repeat' split) <;> simp; done)
    | (dsimp only; (repeat' split) <;> simp [*]; done)
    | ((repeat' apply And.intro) <;> dsimp only <;> (repeat' split) <;> simp [*]; done)

@[simp] theorem calibrate_keeps : ∀ a1 s, (calibrate a1 s).dev = s.dev ∧ (calibrate a1 s).pins = s.pins ∧ (calibrate a1
    s).side = s.side ∧ (calibrate a1 s).prot = s.prot ∧ (calibrate a1 s).img = s.img ∧ (calibrate a1 s).host = s.host ∧
    (calibrate a1 s).lat = s.lat ∧ (calibrate a1 s).acct = s.acct ∧ (calibrate a1 s).buf = s.buf ∧ (calibrate a1 s).eg =
    s.eg ∧ (calibrate a1 s).tab = s.tab ∧ (calibrate a1 s).gen = s.gen ∧ (calibrate a1 s).eng = s.eng ∧ (calibrate a1
    s).recd = s.recd ∧ (calibrate a1 s).pmu = s.pmu ∧ (calibrate a1 s).svc = s.svc ∧ (calibrate a1 s).therm = s.therm ∧
    (calibrate a1 s).regs = s.regs ∧ (calibrate a1 s).hmem = s.hmem ∧ (calibrate a1 s).now = s.now ∧ (calibrate a1
    s).elapsed = s.elapsed ∧ (calibrate a1 s).pending = s.pending := by
  intros; unfold calibrate
  first
    | ((repeat' split) <;> simp; done)
    | (dsimp only; (repeat' split) <;> simp [*]; done)
    | ((repeat' apply And.intro) <;> dsimp only <;> (repeat' split) <;> simp [*]; done)

@[simp] theorem endInStage_keeps : ∀ a1 s, (endInStage a1 s).dev = s.dev ∧ (endInStage a1 s).pins = s.pins ∧ (endInStage
    a1 s).prot = s.prot ∧ (endInStage a1 s).mram = s.mram ∧ (endInStage a1 s).img = s.img ∧ (endInStage a1 s).lat =
    s.lat ∧ (endInStage a1 s).tim = s.tim ∧ (endInStage a1 s).gen = s.gen ∧ (endInStage a1 s).eng = s.eng ∧ (endInStage
    a1 s).svc = s.svc ∧ (endInStage a1 s).therm = s.therm ∧ (endInStage a1 s).now = s.now ∧ (endInStage a1 s).elapsed =
    s.elapsed ∧ (endInStage a1 s).pending = s.pending := by
  intros; unfold endInStage
  first
    | ((repeat' split) <;> simp; done)
    | (dsimp only; (repeat' split) <;> simp [*]; done)
    | ((repeat' apply And.intro) <;> dsimp only <;> (repeat' split) <;> simp [*]; done)

@[simp] theorem mramRead_keeps : ∀ a1 a2 s, (mramRead a1 a2 s).md = s.md ∧ (mramRead a1 a2 s).dev = s.dev ∧ (mramRead a1
    a2 s).pins = s.pins ∧ (mramRead a1 a2 s).side = s.side ∧ (mramRead a1 a2 s).prot = s.prot ∧ (mramRead a1 a2 s).mram
    = s.mram ∧ (mramRead a1 a2 s).img = s.img ∧ (mramRead a1 a2 s).host = s.host ∧ (mramRead a1 a2 s).lat = s.lat ∧
    (mramRead a1 a2 s).acct = s.acct ∧ (mramRead a1 a2 s).lk = s.lk ∧ (mramRead a1 a2 s).tim = s.tim ∧ (mramRead a1 a2
    s).buf = s.buf ∧ (mramRead a1 a2 s).eg = s.eg ∧ (mramRead a1 a2 s).tab = s.tab ∧ (mramRead a1 a2 s).gen = s.gen ∧
    (mramRead a1 a2 s).eng = s.eng ∧ (mramRead a1 a2 s).recd = s.recd ∧ (mramRead a1 a2 s).pmu = s.pmu ∧ (mramRead a1 a2
    s).svc = s.svc ∧ (mramRead a1 a2 s).therm = s.therm ∧ (mramRead a1 a2 s).hmem = s.hmem ∧ (mramRead a1 a2 s).now =
    s.now ∧ (mramRead a1 a2 s).elapsed = s.elapsed ∧ (mramRead a1 a2 s).free = s.free ∧ (mramRead a1 a2 s).pending =
    s.pending := by
  intros; unfold mramRead
  first
    | ((repeat' split) <;> simp; done)
    | (dsimp only; (repeat' split) <;> simp [*]; done)
    | ((repeat' apply And.intro) <;> dsimp only <;> (repeat' split) <;> simp [*]; done)

@[simp] theorem clearWord_keeps : ∀ a1 s, (clearWord a1 s).md = s.md ∧ (clearWord a1 s).dev = s.dev ∧ (clearWord a1
    s).pins = s.pins ∧ (clearWord a1 s).side = s.side ∧ (clearWord a1 s).prot = s.prot ∧ (clearWord a1 s).mram = s.mram
    ∧ (clearWord a1 s).img = s.img ∧ (clearWord a1 s).host = s.host ∧ (clearWord a1 s).lat = s.lat ∧ (clearWord a1
    s).acct = s.acct ∧ (clearWord a1 s).lk = s.lk ∧ (clearWord a1 s).tim = s.tim ∧ (clearWord a1 s).buf = s.buf ∧
    (clearWord a1 s).eg = s.eg ∧ (clearWord a1 s).tab = s.tab ∧ (clearWord a1 s).gen = s.gen ∧ (clearWord a1 s).eng =
    s.eng ∧ (clearWord a1 s).recd = s.recd ∧ (clearWord a1 s).pmu = s.pmu ∧ (clearWord a1 s).svc = s.svc ∧ (clearWord a1
    s).therm = s.therm ∧ (clearWord a1 s).hmem = s.hmem ∧ (clearWord a1 s).now = s.now ∧ (clearWord a1 s).elapsed =
    s.elapsed ∧ (clearWord a1 s).free = s.free ∧ (clearWord a1 s).pending = s.pending := by
  intros; unfold clearWord
  first
    | ((repeat' split) <;> simp; done)
    | (dsimp only; (repeat' split) <;> simp [*]; done)
    | ((repeat' apply And.intro) <;> dsimp only <;> (repeat' split) <;> simp [*]; done)

@[simp] theorem readWord_keeps : ∀ a1 a2 a3 s, (readWord a1 a2 a3 s).md = s.md ∧ (readWord a1 a2 a3 s).dev = s.dev ∧
    (readWord a1 a2 a3 s).pins = s.pins ∧ (readWord a1 a2 a3 s).side = s.side ∧ (readWord a1 a2 a3 s).prot = s.prot ∧
    (readWord a1 a2 a3 s).mram = s.mram ∧ (readWord a1 a2 a3 s).img = s.img ∧ (readWord a1 a2 a3 s).host = s.host ∧
    (readWord a1 a2 a3 s).acct = s.acct ∧ (readWord a1 a2 a3 s).lk = s.lk ∧ (readWord a1 a2 a3 s).tim = s.tim ∧
    (readWord a1 a2 a3 s).buf = s.buf ∧ (readWord a1 a2 a3 s).eg = s.eg ∧ (readWord a1 a2 a3 s).tab = s.tab ∧ (readWord
    a1 a2 a3 s).gen = s.gen ∧ (readWord a1 a2 a3 s).eng = s.eng ∧ (readWord a1 a2 a3 s).recd = s.recd ∧ (readWord a1 a2
    a3 s).pmu = s.pmu ∧ (readWord a1 a2 a3 s).svc = s.svc ∧ (readWord a1 a2 a3 s).therm = s.therm ∧ (readWord a1 a2 a3
    s).hmem = s.hmem ∧ (readWord a1 a2 a3 s).now = s.now ∧ (readWord a1 a2 a3 s).elapsed = s.elapsed ∧ (readWord a1 a2
    a3 s).free = s.free ∧ (readWord a1 a2 a3 s).pending = s.pending := by
  intros; unfold readWord
  first
    | ((repeat' split) <;> simp; done)
    | (dsimp only; (repeat' split) <;> simp [*]; done)
    | ((repeat' apply And.intro) <;> dsimp only <;> (repeat' split) <;> simp [*]; done)

@[simp] theorem readLive_keeps : ∀ a1 s, (readLive a1 s).md = s.md ∧ (readLive a1 s).dev = s.dev ∧ (readLive a1 s).pins
    = s.pins ∧ (readLive a1 s).side = s.side ∧ (readLive a1 s).prot = s.prot ∧ (readLive a1 s).mram = s.mram ∧ (readLive
    a1 s).img = s.img ∧ (readLive a1 s).host = s.host ∧ (readLive a1 s).acct = s.acct ∧ (readLive a1 s).lk = s.lk ∧
    (readLive a1 s).tim = s.tim ∧ (readLive a1 s).buf = s.buf ∧ (readLive a1 s).eg = s.eg ∧ (readLive a1 s).tab = s.tab
    ∧ (readLive a1 s).gen = s.gen ∧ (readLive a1 s).eng = s.eng ∧ (readLive a1 s).recd = s.recd ∧ (readLive a1 s).pmu =
    s.pmu ∧ (readLive a1 s).svc = s.svc ∧ (readLive a1 s).therm = s.therm ∧ (readLive a1 s).regs = s.regs ∧ (readLive a1
    s).hmem = s.hmem ∧ (readLive a1 s).now = s.now ∧ (readLive a1 s).elapsed = s.elapsed ∧ (readLive a1 s).free = s.free
    ∧ (readLive a1 s).pending = s.pending := by
  intros; unfold readLive
  first
    | ((repeat' split) <;> simp; done)
    | (dsimp only; (repeat' split) <;> simp [*]; done)
    | ((repeat' apply And.intro) <;> dsimp only <;> (repeat' split) <;> simp [*]; done)

@[simp] theorem readBell_keeps : ∀ a1 s, (readBell a1 s).md = s.md ∧ (readBell a1 s).dev = s.dev ∧ (readBell a1 s).pins
    = s.pins ∧ (readBell a1 s).side = s.side ∧ (readBell a1 s).prot = s.prot ∧ (readBell a1 s).mram = s.mram ∧ (readBell
    a1 s).img = s.img ∧ (readBell a1 s).host = s.host ∧ (readBell a1 s).acct = s.acct ∧ (readBell a1 s).lk = s.lk ∧
    (readBell a1 s).tim = s.tim ∧ (readBell a1 s).buf = s.buf ∧ (readBell a1 s).eg = s.eg ∧ (readBell a1 s).tab = s.tab
    ∧ (readBell a1 s).gen = s.gen ∧ (readBell a1 s).eng = s.eng ∧ (readBell a1 s).recd = s.recd ∧ (readBell a1 s).pmu =
    s.pmu ∧ (readBell a1 s).svc = s.svc ∧ (readBell a1 s).therm = s.therm ∧ (readBell a1 s).regs = s.regs ∧ (readBell a1
    s).hmem = s.hmem ∧ (readBell a1 s).now = s.now ∧ (readBell a1 s).elapsed = s.elapsed ∧ (readBell a1 s).free = s.free
    ∧ (readBell a1 s).pending = s.pending := by
  intros; unfold readBell
  first
    | ((repeat' split) <;> simp; done)
    | (dsimp only; (repeat' split) <;> simp [*]; done)
    | ((repeat' apply And.intro) <;> dsimp only <;> (repeat' split) <;> simp [*]; done)

@[simp] theorem readWardenPair_keeps : ∀ a1 a2 a3 s, (readWardenPair a1 a2 a3 s).md = s.md ∧ (readWardenPair a1 a2 a3
    s).dev = s.dev ∧ (readWardenPair a1 a2 a3 s).pins = s.pins ∧ (readWardenPair a1 a2 a3 s).side = s.side ∧
    (readWardenPair a1 a2 a3 s).prot = s.prot ∧ (readWardenPair a1 a2 a3 s).mram = s.mram ∧ (readWardenPair a1 a2 a3
    s).img = s.img ∧ (readWardenPair a1 a2 a3 s).host = s.host ∧ (readWardenPair a1 a2 a3 s).acct = s.acct ∧
    (readWardenPair a1 a2 a3 s).lk = s.lk ∧ (readWardenPair a1 a2 a3 s).tim = s.tim ∧ (readWardenPair a1 a2 a3 s).buf =
    s.buf ∧ (readWardenPair a1 a2 a3 s).eg = s.eg ∧ (readWardenPair a1 a2 a3 s).tab = s.tab ∧ (readWardenPair a1 a2 a3
    s).gen = s.gen ∧ (readWardenPair a1 a2 a3 s).eng = s.eng ∧ (readWardenPair a1 a2 a3 s).recd = s.recd ∧
    (readWardenPair a1 a2 a3 s).pmu = s.pmu ∧ (readWardenPair a1 a2 a3 s).svc = s.svc ∧ (readWardenPair a1 a2 a3
    s).therm = s.therm ∧ (readWardenPair a1 a2 a3 s).regs = s.regs ∧ (readWardenPair a1 a2 a3 s).hmem = s.hmem ∧
    (readWardenPair a1 a2 a3 s).now = s.now ∧ (readWardenPair a1 a2 a3 s).elapsed = s.elapsed ∧ (readWardenPair a1 a2 a3
    s).free = s.free ∧ (readWardenPair a1 a2 a3 s).pending = s.pending := by
  intros; unfold readWardenPair
  first
    | ((repeat' split) <;> simp; done)
    | (dsimp only; (repeat' split) <;> simp [*]; done)
    | ((repeat' apply And.intro) <;> dsimp only <;> (repeat' split) <;> simp [*]; done)

@[simp] theorem readMirror_keeps : ∀ a1 a2 s, (readMirror a1 a2 s).md = s.md ∧ (readMirror a1 a2 s).dev = s.dev ∧
    (readMirror a1 a2 s).pins = s.pins ∧ (readMirror a1 a2 s).side = s.side ∧ (readMirror a1 a2 s).prot = s.prot ∧
    (readMirror a1 a2 s).mram = s.mram ∧ (readMirror a1 a2 s).img = s.img ∧ (readMirror a1 a2 s).host = s.host ∧
    (readMirror a1 a2 s).acct = s.acct ∧ (readMirror a1 a2 s).lk = s.lk ∧ (readMirror a1 a2 s).tim = s.tim ∧ (readMirror
    a1 a2 s).buf = s.buf ∧ (readMirror a1 a2 s).eg = s.eg ∧ (readMirror a1 a2 s).tab = s.tab ∧ (readMirror a1 a2 s).gen
    = s.gen ∧ (readMirror a1 a2 s).eng = s.eng ∧ (readMirror a1 a2 s).recd = s.recd ∧ (readMirror a1 a2 s).pmu = s.pmu ∧
    (readMirror a1 a2 s).svc = s.svc ∧ (readMirror a1 a2 s).therm = s.therm ∧ (readMirror a1 a2 s).regs = s.regs ∧
    (readMirror a1 a2 s).hmem = s.hmem ∧ (readMirror a1 a2 s).now = s.now ∧ (readMirror a1 a2 s).elapsed = s.elapsed ∧
    (readMirror a1 a2 s).free = s.free ∧ (readMirror a1 a2 s).pending = s.pending := by
  intros; unfold readMirror
  first
    | ((repeat' split) <;> simp; done)
    | (dsimp only; (repeat' split) <;> simp [*]; done)
    | ((repeat' apply And.intro) <;> dsimp only <;> (repeat' split) <;> simp [*]; done)

@[simp] theorem readWarden_keeps : ∀ a1 a2 s, (readWarden a1 a2 s).md = s.md ∧ (readWarden a1 a2 s).dev = s.dev ∧
    (readWarden a1 a2 s).pins = s.pins ∧ (readWarden a1 a2 s).side = s.side ∧ (readWarden a1 a2 s).prot = s.prot ∧
    (readWarden a1 a2 s).mram = s.mram ∧ (readWarden a1 a2 s).img = s.img ∧ (readWarden a1 a2 s).host = s.host ∧
    (readWarden a1 a2 s).acct = s.acct ∧ (readWarden a1 a2 s).lk = s.lk ∧ (readWarden a1 a2 s).tim = s.tim ∧ (readWarden
    a1 a2 s).buf = s.buf ∧ (readWarden a1 a2 s).eg = s.eg ∧ (readWarden a1 a2 s).tab = s.tab ∧ (readWarden a1 a2 s).gen
    = s.gen ∧ (readWarden a1 a2 s).eng = s.eng ∧ (readWarden a1 a2 s).recd = s.recd ∧ (readWarden a1 a2 s).pmu = s.pmu ∧
    (readWarden a1 a2 s).svc = s.svc ∧ (readWarden a1 a2 s).therm = s.therm ∧ (readWarden a1 a2 s).regs = s.regs ∧
    (readWarden a1 a2 s).hmem = s.hmem ∧ (readWarden a1 a2 s).now = s.now ∧ (readWarden a1 a2 s).elapsed = s.elapsed ∧
    (readWarden a1 a2 s).free = s.free ∧ (readWarden a1 a2 s).pending = s.pending := by
  intros; unfold readWarden
  first
    | ((repeat' split) <;> simp; done)
    | (dsimp only; (repeat' split) <;> simp [*]; done)
    | ((repeat' apply And.intro) <;> dsimp only <;> (repeat' split) <;> simp [*]; done)

@[simp] theorem accessError_keeps : ∀ a1 s, (accessError a1 s).md = s.md ∧ (accessError a1 s).dev = s.dev ∧ (accessError
    a1 s).pins = s.pins ∧ (accessError a1 s).side = s.side ∧ (accessError a1 s).prot = s.prot ∧ (accessError a1 s).mram
    = s.mram ∧ (accessError a1 s).img = s.img ∧ (accessError a1 s).acct = s.acct ∧ (accessError a1 s).lk = s.lk ∧
    (accessError a1 s).tim = s.tim ∧ (accessError a1 s).buf = s.buf ∧ (accessError a1 s).eg = s.eg ∧ (accessError a1
    s).tab = s.tab ∧ (accessError a1 s).gen = s.gen ∧ (accessError a1 s).eng = s.eng ∧ (accessError a1 s).recd = s.recd
    ∧ (accessError a1 s).pmu = s.pmu ∧ (accessError a1 s).svc = s.svc ∧ (accessError a1 s).therm = s.therm ∧
    (accessError a1 s).hmem = s.hmem ∧ (accessError a1 s).now = s.now ∧ (accessError a1 s).elapsed = s.elapsed ∧
    (accessError a1 s).free = s.free ∧ (accessError a1 s).pending = s.pending := by
  intros; unfold accessError
  first
    | ((repeat' split) <;> simp; done)
    | (dsimp only; (repeat' split) <;> simp [*]; done)
    | ((repeat' apply And.intro) <;> dsimp only <;> (repeat' split) <;> simp [*]; done)

@[simp] theorem sideAssign_keeps : ∀ a1 s, (sideAssign a1 s).md = s.md ∧ (sideAssign a1 s).dev = s.dev ∧ (sideAssign a1
    s).pins = s.pins ∧ (sideAssign a1 s).prot = s.prot ∧ (sideAssign a1 s).mram = s.mram ∧ (sideAssign a1 s).img = s.img
    ∧ (sideAssign a1 s).host = s.host ∧ (sideAssign a1 s).lat = s.lat ∧ (sideAssign a1 s).acct = s.acct ∧ (sideAssign a1
    s).lk = s.lk ∧ (sideAssign a1 s).tim = s.tim ∧ (sideAssign a1 s).buf = s.buf ∧ (sideAssign a1 s).eg = s.eg ∧
    (sideAssign a1 s).tab = s.tab ∧ (sideAssign a1 s).gen = s.gen ∧ (sideAssign a1 s).eng = s.eng ∧ (sideAssign a1
    s).recd = s.recd ∧ (sideAssign a1 s).pmu = s.pmu ∧ (sideAssign a1 s).svc = s.svc ∧ (sideAssign a1 s).therm = s.therm
    ∧ (sideAssign a1 s).regs = s.regs ∧ (sideAssign a1 s).hmem = s.hmem ∧ (sideAssign a1 s).now = s.now ∧ (sideAssign a1
    s).elapsed = s.elapsed ∧ (sideAssign a1 s).free = s.free ∧ (sideAssign a1 s).pending = s.pending := by
  intros; unfold sideAssign
  first
    | ((repeat' split) <;> simp; done)
    | (dsimp only; (repeat' split) <;> simp [*]; done)
    | ((repeat' apply And.intro) <;> dsimp only <;> (repeat' split) <;> simp [*]; done)

@[simp] theorem sendPec_keeps : ∀ a1 a2 s, (sendPec a1 a2 s).md = s.md ∧ (sendPec a1 a2 s).dev = s.dev ∧ (sendPec a1 a2
    s).pins = s.pins ∧ (sendPec a1 a2 s).prot = s.prot ∧ (sendPec a1 a2 s).mram = s.mram ∧ (sendPec a1 a2 s).img = s.img
    ∧ (sendPec a1 a2 s).host = s.host ∧ (sendPec a1 a2 s).lat = s.lat ∧ (sendPec a1 a2 s).acct = s.acct ∧ (sendPec a1 a2
    s).lk = s.lk ∧ (sendPec a1 a2 s).tim = s.tim ∧ (sendPec a1 a2 s).buf = s.buf ∧ (sendPec a1 a2 s).eg = s.eg ∧
    (sendPec a1 a2 s).tab = s.tab ∧ (sendPec a1 a2 s).gen = s.gen ∧ (sendPec a1 a2 s).eng = s.eng ∧ (sendPec a1 a2
    s).recd = s.recd ∧ (sendPec a1 a2 s).pmu = s.pmu ∧ (sendPec a1 a2 s).svc = s.svc ∧ (sendPec a1 a2 s).therm = s.therm
    ∧ (sendPec a1 a2 s).regs = s.regs ∧ (sendPec a1 a2 s).hmem = s.hmem ∧ (sendPec a1 a2 s).now = s.now ∧ (sendPec a1 a2
    s).elapsed = s.elapsed ∧ (sendPec a1 a2 s).free = s.free ∧ (sendPec a1 a2 s).pending = s.pending := by
  intros; unfold sendPec
  first
    | ((repeat' split) <;> simp; done)
    | (dsimp only; (repeat' split) <;> simp [*]; done)
    | ((repeat' apply And.intro) <;> dsimp only <;> (repeat' split) <;> simp [*]; done)

@[simp] theorem writeRingReg_keeps : ∀ a1 a2 a3 s, (writeRingReg a1 a2 a3 s).md = s.md ∧ (writeRingReg a1 a2 a3 s).dev =
    s.dev ∧ (writeRingReg a1 a2 a3 s).pins = s.pins ∧ (writeRingReg a1 a2 a3 s).side = s.side ∧ (writeRingReg a1 a2 a3
    s).prot = s.prot ∧ (writeRingReg a1 a2 a3 s).mram = s.mram ∧ (writeRingReg a1 a2 a3 s).img = s.img ∧ (writeRingReg
    a1 a2 a3 s).host = s.host ∧ (writeRingReg a1 a2 a3 s).acct = s.acct ∧ (writeRingReg a1 a2 a3 s).lk = s.lk ∧
    (writeRingReg a1 a2 a3 s).tim = s.tim ∧ (writeRingReg a1 a2 a3 s).buf = s.buf ∧ (writeRingReg a1 a2 a3 s).eg = s.eg
    ∧ (writeRingReg a1 a2 a3 s).tab = s.tab ∧ (writeRingReg a1 a2 a3 s).gen = s.gen ∧ (writeRingReg a1 a2 a3 s).eng =
    s.eng ∧ (writeRingReg a1 a2 a3 s).recd = s.recd ∧ (writeRingReg a1 a2 a3 s).pmu = s.pmu ∧ (writeRingReg a1 a2 a3
    s).svc = s.svc ∧ (writeRingReg a1 a2 a3 s).therm = s.therm ∧ (writeRingReg a1 a2 a3 s).hmem = s.hmem ∧ (writeRingReg
    a1 a2 a3 s).now = s.now ∧ (writeRingReg a1 a2 a3 s).elapsed = s.elapsed ∧ (writeRingReg a1 a2 a3 s).free = s.free ∧
    (writeRingReg a1 a2 a3 s).pending = s.pending := by
  intros; unfold writeRingReg
  first
    | ((repeat' split) <;> simp; done)
    | (dsimp only; (repeat' split) <;> simp [*]; done)
    | ((repeat' apply And.intro) <;> dsimp only <;> (repeat' split) <;> simp [*]; done)

@[simp] theorem writeRwl_keeps : ∀ a1 a2 s, (writeRwl a1 a2 s).md = s.md ∧ (writeRwl a1 a2 s).dev = s.dev ∧ (writeRwl a1
    a2 s).pins = s.pins ∧ (writeRwl a1 a2 s).prot = s.prot ∧ (writeRwl a1 a2 s).mram = s.mram ∧ (writeRwl a1 a2 s).img =
    s.img ∧ (writeRwl a1 a2 s).lat = s.lat ∧ (writeRwl a1 a2 s).acct = s.acct ∧ (writeRwl a1 a2 s).lk = s.lk ∧ (writeRwl
    a1 a2 s).tim = s.tim ∧ (writeRwl a1 a2 s).buf = s.buf ∧ (writeRwl a1 a2 s).eg = s.eg ∧ (writeRwl a1 a2 s).tab =
    s.tab ∧ (writeRwl a1 a2 s).gen = s.gen ∧ (writeRwl a1 a2 s).eng = s.eng ∧ (writeRwl a1 a2 s).recd = s.recd ∧
    (writeRwl a1 a2 s).pmu = s.pmu ∧ (writeRwl a1 a2 s).svc = s.svc ∧ (writeRwl a1 a2 s).therm = s.therm ∧ (writeRwl a1
    a2 s).hmem = s.hmem ∧ (writeRwl a1 a2 s).now = s.now ∧ (writeRwl a1 a2 s).elapsed = s.elapsed ∧ (writeRwl a1 a2
    s).free = s.free ∧ (writeRwl a1 a2 s).pending = s.pending := by
  intros; unfold writeRwl
  first
    | ((repeat' split) <;> simp; done)
    | (dsimp only; (repeat' split) <;> simp [*]; done)
    | ((repeat' apply And.intro) <;> dsimp only <;> (repeat' split) <;> simp [*]; done)

@[simp] theorem faultAck_keeps : ∀ a1 s, (faultAck a1 s).md = s.md ∧ (faultAck a1 s).dev = s.dev ∧ (faultAck a1 s).pins
    = s.pins ∧ (faultAck a1 s).side = s.side ∧ (faultAck a1 s).prot = s.prot ∧ (faultAck a1 s).img = s.img ∧ (faultAck
    a1 s).host = s.host ∧ (faultAck a1 s).lat = s.lat ∧ (faultAck a1 s).acct = s.acct ∧ (faultAck a1 s).lk = s.lk ∧
    (faultAck a1 s).tim = s.tim ∧ (faultAck a1 s).buf = s.buf ∧ (faultAck a1 s).eg = s.eg ∧ (faultAck a1 s).tab = s.tab
    ∧ (faultAck a1 s).gen = s.gen ∧ (faultAck a1 s).eng = s.eng ∧ (faultAck a1 s).recd = s.recd ∧ (faultAck a1 s).pmu =
    s.pmu ∧ (faultAck a1 s).svc = s.svc ∧ (faultAck a1 s).therm = s.therm ∧ (faultAck a1 s).regs = s.regs ∧ (faultAck a1
    s).hmem = s.hmem ∧ (faultAck a1 s).now = s.now ∧ (faultAck a1 s).elapsed = s.elapsed ∧ (faultAck a1 s).free = s.free
    ∧ (faultAck a1 s).pending = s.pending := by
  intros; unfold faultAck
  first
    | ((repeat' split) <;> simp; done)
    | (dsimp only; (repeat' split) <;> simp [*]; done)
    | ((repeat' apply And.intro) <;> dsimp only <;> (repeat' split) <;> simp [*]; done)

@[simp] theorem writeParkCap_keeps : ∀ a1 s, (writeParkCap a1 s).md = s.md ∧ (writeParkCap a1 s).dev = s.dev ∧
    (writeParkCap a1 s).pins = s.pins ∧ (writeParkCap a1 s).side = s.side ∧ (writeParkCap a1 s).prot = s.prot ∧
    (writeParkCap a1 s).img = s.img ∧ (writeParkCap a1 s).host = s.host ∧ (writeParkCap a1 s).lat = s.lat ∧
    (writeParkCap a1 s).acct = s.acct ∧ (writeParkCap a1 s).lk = s.lk ∧ (writeParkCap a1 s).tim = s.tim ∧ (writeParkCap
    a1 s).buf = s.buf ∧ (writeParkCap a1 s).eg = s.eg ∧ (writeParkCap a1 s).tab = s.tab ∧ (writeParkCap a1 s).gen =
    s.gen ∧ (writeParkCap a1 s).eng = s.eng ∧ (writeParkCap a1 s).recd = s.recd ∧ (writeParkCap a1 s).pmu = s.pmu ∧
    (writeParkCap a1 s).svc = s.svc ∧ (writeParkCap a1 s).therm = s.therm ∧ (writeParkCap a1 s).regs = s.regs ∧
    (writeParkCap a1 s).hmem = s.hmem ∧ (writeParkCap a1 s).now = s.now ∧ (writeParkCap a1 s).elapsed = s.elapsed ∧
    (writeParkCap a1 s).free = s.free ∧ (writeParkCap a1 s).pending = s.pending := by
  intros; unfold writeParkCap
  first
    | ((repeat' split) <;> simp; done)
    | (dsimp only; (repeat' split) <;> simp [*]; done)
    | ((repeat' apply And.intro) <;> dsimp only <;> (repeat' split) <;> simp [*]; done)

@[simp] theorem writeSvcCfg_keeps : ∀ a1 s, (writeSvcCfg a1 s).md = s.md ∧ (writeSvcCfg a1 s).dev = s.dev ∧ (writeSvcCfg
    a1 s).pins = s.pins ∧ (writeSvcCfg a1 s).side = s.side ∧ (writeSvcCfg a1 s).prot = s.prot ∧ (writeSvcCfg a1 s).mram
    = s.mram ∧ (writeSvcCfg a1 s).img = s.img ∧ (writeSvcCfg a1 s).host = s.host ∧ (writeSvcCfg a1 s).lat = s.lat ∧
    (writeSvcCfg a1 s).acct = s.acct ∧ (writeSvcCfg a1 s).lk = s.lk ∧ (writeSvcCfg a1 s).tim = s.tim ∧ (writeSvcCfg a1
    s).buf = s.buf ∧ (writeSvcCfg a1 s).eg = s.eg ∧ (writeSvcCfg a1 s).tab = s.tab ∧ (writeSvcCfg a1 s).gen = s.gen ∧
    (writeSvcCfg a1 s).eng = s.eng ∧ (writeSvcCfg a1 s).recd = s.recd ∧ (writeSvcCfg a1 s).pmu = s.pmu ∧ (writeSvcCfg a1
    s).svc = s.svc ∧ (writeSvcCfg a1 s).therm = s.therm ∧ (writeSvcCfg a1 s).hmem = s.hmem ∧ (writeSvcCfg a1 s).now =
    s.now ∧ (writeSvcCfg a1 s).elapsed = s.elapsed ∧ (writeSvcCfg a1 s).free = s.free ∧ (writeSvcCfg a1 s).pending =
    s.pending := by
  intros; unfold writeSvcCfg
  first
    | ((repeat' split) <;> simp; done)
    | (dsimp only; (repeat' split) <;> simp [*]; done)
    | ((repeat' apply And.intro) <;> dsimp only <;> (repeat' split) <;> simp [*]; done)

@[simp] theorem writeAutoCfg_keeps : ∀ a1 s, (writeAutoCfg a1 s).md = s.md ∧ (writeAutoCfg a1 s).dev = s.dev ∧
    (writeAutoCfg a1 s).pins = s.pins ∧ (writeAutoCfg a1 s).side = s.side ∧ (writeAutoCfg a1 s).prot = s.prot ∧
    (writeAutoCfg a1 s).mram = s.mram ∧ (writeAutoCfg a1 s).img = s.img ∧ (writeAutoCfg a1 s).host = s.host ∧
    (writeAutoCfg a1 s).lat = s.lat ∧ (writeAutoCfg a1 s).acct = s.acct ∧ (writeAutoCfg a1 s).lk = s.lk ∧ (writeAutoCfg
    a1 s).tim = s.tim ∧ (writeAutoCfg a1 s).buf = s.buf ∧ (writeAutoCfg a1 s).eg = s.eg ∧ (writeAutoCfg a1 s).tab =
    s.tab ∧ (writeAutoCfg a1 s).gen = s.gen ∧ (writeAutoCfg a1 s).eng = s.eng ∧ (writeAutoCfg a1 s).recd = s.recd ∧
    (writeAutoCfg a1 s).pmu = s.pmu ∧ (writeAutoCfg a1 s).svc = s.svc ∧ (writeAutoCfg a1 s).therm = s.therm ∧
    (writeAutoCfg a1 s).hmem = s.hmem ∧ (writeAutoCfg a1 s).now = s.now ∧ (writeAutoCfg a1 s).elapsed = s.elapsed ∧
    (writeAutoCfg a1 s).free = s.free ∧ (writeAutoCfg a1 s).pending = s.pending := by
  intros; unfold writeAutoCfg
  first
    | ((repeat' split) <;> simp; done)
    | (dsimp only; (repeat' split) <;> simp [*]; done)
    | ((repeat' apply And.intro) <;> dsimp only <;> (repeat' split) <;> simp [*]; done)

@[simp] theorem writeMsix_keeps : ∀ a1 a2 s, (writeMsix a1 a2 s).md = s.md ∧ (writeMsix a1 a2 s).dev = s.dev ∧
    (writeMsix a1 a2 s).pins = s.pins ∧ (writeMsix a1 a2 s).side = s.side ∧ (writeMsix a1 a2 s).prot = s.prot ∧
    (writeMsix a1 a2 s).mram = s.mram ∧ (writeMsix a1 a2 s).img = s.img ∧ (writeMsix a1 a2 s).lat = s.lat ∧ (writeMsix
    a1 a2 s).acct = s.acct ∧ (writeMsix a1 a2 s).lk = s.lk ∧ (writeMsix a1 a2 s).tim = s.tim ∧ (writeMsix a1 a2 s).buf =
    s.buf ∧ (writeMsix a1 a2 s).eg = s.eg ∧ (writeMsix a1 a2 s).tab = s.tab ∧ (writeMsix a1 a2 s).gen = s.gen ∧
    (writeMsix a1 a2 s).eng = s.eng ∧ (writeMsix a1 a2 s).recd = s.recd ∧ (writeMsix a1 a2 s).svc = s.svc ∧ (writeMsix
    a1 a2 s).therm = s.therm ∧ (writeMsix a1 a2 s).hmem = s.hmem ∧ (writeMsix a1 a2 s).now = s.now ∧ (writeMsix a1 a2
    s).elapsed = s.elapsed ∧ (writeMsix a1 a2 s).free = s.free ∧ (writeMsix a1 a2 s).pending = s.pending := by
  intros; unfold writeMsix
  first
    | ((repeat' split) <;> simp; done)
    | (dsimp only; (repeat' split) <;> simp [*]; done)
    | ((repeat' apply And.intro) <;> dsimp only <;> (repeat' split) <;> simp [*]; done)

@[simp] theorem writeWardenWords_keeps : ∀ a1 a2 a3 s, (writeWardenWords a1 a2 a3 s).md = s.md ∧ (writeWardenWords a1 a2
    a3 s).dev = s.dev ∧ (writeWardenWords a1 a2 a3 s).pins = s.pins ∧ (writeWardenWords a1 a2 a3 s).prot = s.prot ∧
    (writeWardenWords a1 a2 a3 s).mram = s.mram ∧ (writeWardenWords a1 a2 a3 s).img = s.img ∧ (writeWardenWords a1 a2 a3
    s).lat = s.lat ∧ (writeWardenWords a1 a2 a3 s).acct = s.acct ∧ (writeWardenWords a1 a2 a3 s).lk = s.lk ∧
    (writeWardenWords a1 a2 a3 s).tim = s.tim ∧ (writeWardenWords a1 a2 a3 s).buf = s.buf ∧ (writeWardenWords a1 a2 a3
    s).eg = s.eg ∧ (writeWardenWords a1 a2 a3 s).tab = s.tab ∧ (writeWardenWords a1 a2 a3 s).gen = s.gen ∧
    (writeWardenWords a1 a2 a3 s).eng = s.eng ∧ (writeWardenWords a1 a2 a3 s).recd = s.recd ∧ (writeWardenWords a1 a2 a3
    s).pmu = s.pmu ∧ (writeWardenWords a1 a2 a3 s).svc = s.svc ∧ (writeWardenWords a1 a2 a3 s).therm = s.therm ∧
    (writeWardenWords a1 a2 a3 s).hmem = s.hmem ∧ (writeWardenWords a1 a2 a3 s).now = s.now ∧ (writeWardenWords a1 a2 a3
    s).elapsed = s.elapsed ∧ (writeWardenWords a1 a2 a3 s).free = s.free ∧ (writeWardenWords a1 a2 a3 s).pending =
    s.pending := by
  intros; unfold writeWardenWords
  first
    | ((repeat' split) <;> simp; done)
    | (dsimp only; (repeat' split) <;> simp [*]; done)
    | ((repeat' apply And.intro) <;> dsimp only <;> (repeat' split) <;> simp [*]; done)

@[simp] theorem State_withFetchWord_keeps : ∀ s a2 a3, (State.withFetchWord s a2 a3).md = s.md ∧ (State.withFetchWord s
    a2 a3).dev = s.dev ∧ (State.withFetchWord s a2 a3).pins = s.pins ∧ (State.withFetchWord s a2 a3).side = s.side ∧
    (State.withFetchWord s a2 a3).prot = s.prot ∧ (State.withFetchWord s a2 a3).mram = s.mram ∧ (State.withFetchWord s
    a2 a3).img = s.img ∧ (State.withFetchWord s a2 a3).host = s.host ∧ (State.withFetchWord s a2 a3).lat = s.lat ∧
    (State.withFetchWord s a2 a3).acct = s.acct ∧ (State.withFetchWord s a2 a3).lk = s.lk ∧ (State.withFetchWord s a2
    a3).tim = s.tim ∧ (State.withFetchWord s a2 a3).buf = s.buf ∧ (State.withFetchWord s a2 a3).eg = s.eg ∧
    (State.withFetchWord s a2 a3).tab = s.tab ∧ (State.withFetchWord s a2 a3).gen = s.gen ∧ (State.withFetchWord s a2
    a3).eng = s.eng ∧ (State.withFetchWord s a2 a3).recd = s.recd ∧ (State.withFetchWord s a2 a3).pmu = s.pmu ∧
    (State.withFetchWord s a2 a3).svc = s.svc ∧ (State.withFetchWord s a2 a3).therm = s.therm ∧ (State.withFetchWord s
    a2 a3).regs = s.regs ∧ (State.withFetchWord s a2 a3).hmem = s.hmem ∧ (State.withFetchWord s a2 a3).now = s.now ∧
    (State.withFetchWord s a2 a3).elapsed = s.elapsed ∧ (State.withFetchWord s a2 a3).free = s.free := by
  intros; unfold State.withFetchWord
  first
    | ((repeat' split) <;> simp; done)
    | (dsimp only; (repeat' split) <;> simp [*]; done)
    | ((repeat' apply And.intro) <;> dsimp only <;> (repeat' split) <;> simp [*]; done)

end Sys2Proof.Laws
end

