-- ==== Sys2Proof/Laws/Kv.lean ====
section
/-! SUPPORT. Laws of sparse tables, byte memories and the stored registers: what a read gives after a write, and that every
operation keeps the canonical form. -/

namespace Sys2Proof.Laws

open Sys2Proof Sys2Proof.Machine

/-! ## Sparse tables -/

theorem kvGet_kvPut {α : Type} (k : Nat) (v : α) : ∀ l, kvGet k (kvPut k v l) = some v
  | [] => by simp [kvPut, kvGet]
  | (j, w) :: r => by
    unfold kvPut
    split
    · simp [kvGet]
    · split
      · simp [kvGet]
      · simp only [kvGet]
        rw [if_neg ‹_›, if_neg ‹_›]
        exact kvGet_kvPut k v r

theorem kvGet_kvPut_ne {α : Type} (k j : Nat) (v : α) (h : j ≠ k) : ∀ l, kvGet j (kvPut k v l) = kvGet j l
  | [] => by simp [kvPut, kvGet]; omega
  | (i, w) :: r => by
    unfold kvPut
    split
    · simp only [kvGet]
      split
      · omega
      · split
        · rw [if_neg (by omega), if_pos (by omega)]
        · rfl
    · split
      · subst i
        simp only [kvGet]
        rw [if_neg (Ne.symm h), if_neg (Ne.symm h)]
      · simp only [kvGet, kvGet_kvPut_ne k j v h r]

theorem kvSortedFrom_le {α : Type} :
    ∀ (l : List (Nat × α)) (b c : Nat), c ≤ b → kvSortedFrom b l = true → kvSortedFrom c l = true
  | [], _, _, _, _ => rfl
  | (j, _) :: r, b, c, h, hs => by simp [kvSortedFrom] at *; exact ⟨by omega, hs.2⟩

theorem kvGet_below {α : Type} (k : Nat) :
    ∀ (l : List (Nat × α)) (b : Nat), kvSortedFrom b l = true → k < b → kvGet k l = none
  | [], _, _, _ => rfl
  | (j, _) :: r, b, hs, h => by
    simp [kvSortedFrom] at hs
    simp only [kvGet]
    rw [if_neg (by omega), if_pos (by omega)]

theorem kvGet_kvDel {α : Type} (k j : Nat) :
    ∀ (l : List (Nat × α)) (b : Nat), kvSortedFrom b l = true → kvGet j (kvDel k l) = if j = k then none else kvGet j l
  | [], _, _ => by simp [kvDel, kvGet]
  | (i, w) :: r, b, hs => by
    simp [kvSortedFrom] at hs
    have ih := kvGet_kvDel k j r (i + 1) hs.2
    unfold kvDel
    split
    · subst i
      split
      · subst j; exact kvGet_below k r (k + 1) hs.2 (by omega)
      · simp only [kvGet]
        rw [if_neg (by omega)]
        split
        · exact kvGet_below _ r _ hs.2 (by omega)
        · rfl
    · split
      · split
        · subst j; simp only [kvGet]; rw [if_neg (by omega), if_pos (by omega)]
        · rfl
      · simp only [kvGet, ih]
        split <;> (try split) <;> (try split) <;> first | rfl | omega

theorem kvSortedFrom_kvPut {α : Type} (k : Nat) (v : α) :
    ∀ (l : List (Nat × α)) (b : Nat), kvSortedFrom b l = true → b ≤ k → kvSortedFrom b (kvPut k v l) = true
  | [], b, _, h => by simp [kvPut, kvSortedFrom, h]
  | (j, _) :: r, b, hs, h => by
    simp [kvSortedFrom] at hs
    unfold kvPut
    split
    · simp [kvSortedFrom, h, hs.2]; omega
    · split
      · subst j; simp [kvSortedFrom, h, hs.2]
      · simp [kvSortedFrom, hs.1]; exact kvSortedFrom_kvPut k v r _ hs.2 (by omega)

theorem kvSortedFrom_kvDel {α : Type} (k : Nat) :
    ∀ (l : List (Nat × α)) (b : Nat), kvSortedFrom b l = true → kvSortedFrom b (kvDel k l) = true
  | [], b, _ => by simp [kvDel, kvSortedFrom]
  | (j, _) :: r, b, hs => by
    have hs' := hs
    simp [kvSortedFrom] at hs
    unfold kvDel
    split
    · exact kvSortedFrom_le r _ _ (by omega) hs.2
    · split
      · exact hs'
      · simp [kvSortedFrom, hs.1]; exact kvSortedFrom_kvDel k r _ hs.2

theorem mem_kvPut {α : Type} (k : Nat) (v : α) (x : Nat × α) : ∀ (l : List (Nat × α)), x ∈ kvPut k v l → x = (k, v) ∨ x ∈ l
  | [], h => by simp [kvPut] at h; exact .inl h
  | (j, w) :: r, h => by
    unfold kvPut at h
    split at h
    · simpa using h
    · split at h
      · simp only [List.mem_cons] at h ⊢
        rcases h with h | h
        · exact .inl h
        · exact .inr (.inr h)
      · simp only [List.mem_cons] at h ⊢
        rcases h with h | h
        · exact .inr (.inl h)
        · rcases mem_kvPut k v x r h with h | h
          · exact .inl h
          · exact .inr (.inr h)

theorem mem_kvDel {α : Type} (k : Nat) (x : Nat × α) : ∀ (l : List (Nat × α)), x ∈ kvDel k l → x ∈ l
  | [], h => by simp [kvDel] at h
  | (j, w) :: r, h => by
    unfold kvDel at h
    split at h
    · simp [h]
    · split at h
      · exact h
      · simp only [List.mem_cons] at h ⊢
        rcases h with h | h
        · exact .inl h
        · exact .inr (mem_kvDel k x r h)

/-- A table whose unlisted keys read `d` keeps its order and its freedom from entries `d`. -/
theorem kvSet_canonical {α : Type} [DecidableEq α] (d : α) (k : Nat) (v : α) (t : List (Nat × α))
    (h : kvSorted t = true ∧ ∀ x ∈ t, x.2 ≠ d) : kvSorted (kvSet d k v t) = true ∧ ∀ x ∈ kvSet d k v t, x.2 ≠ d := by
  unfold kvSet kvSorted at *
  split
  · exact ⟨kvSortedFrom_kvDel _ _ _ h.1, fun x hx => h.2 x (mem_kvDel _ _ _ hx)⟩
  · refine ⟨kvSortedFrom_kvPut _ _ _ _ h.1 (by omega), fun x hx => ?_⟩
    rcases mem_kvPut _ _ _ _ hx with rfl | hx
    · assumption
    · exact h.2 x hx

/-! ## Byte memories -/

theorem memWf_iff (m : List (Nat × Byte)) : memWf m = true ↔ kvSorted m = true ∧ ∀ x ∈ m, x.2 ≠ memDefault := by
  simp [memWf]

/-- Writing a byte keeps the canonical form. -/
theorem memSet_memWf (m : List (Nat × Byte)) (a : Nat) (b : Byte) (h : memWf m = true) : memWf (memSet m a b) = true := by
  rw [memWf_iff] at *
  exact kvSet_canonical _ _ _ _ h

/-- Writing bytes keeps the canonical form. -/
theorem memWrite_memWf : ∀ (bs : List Byte) (m : List (Nat × Byte)) (a : Nat), memWf m = true → memWf (memWrite m a bs) = true
  | [], _, _, h => h
  | _ :: bs, _, _, h => memWrite_memWf bs _ _ (memSet_memWf _ _ _ h)

/-- Applying writes keeps the canonical form. -/
theorem memApply_memWf : ∀ (ws : List (Nat × Byte)) (m : List (Nat × Byte)), memWf m = true → memWf (memApply m ws) = true
  | [], _, h => h
  | w :: ws, m, h => memApply_memWf ws _ (memSet_memWf m w.1 w.2 h)

/-- A byte reads as it was written last; every other byte reads as before. -/
theorem memByte_memSet (m : List (Nat × Byte)) (a j : Nat) (b : Byte) (h : memWf m = true) :
    memByte (memSet m a b) j = if j = a then b else memByte m j := by
  have hs : kvSortedFrom 0 m = true := ((memWf_iff m).mp h).1
  unfold memByte memSet kvSet kvGetD
  split
  · rw [kvGet_kvDel _ _ _ 0 hs]
    split <;> simp_all
  · by_cases hj : j = a
    · subst j; rw [kvGet_kvPut]; simp
    · rw [kvGet_kvPut_ne _ _ _ hj, if_neg hj]

/-! ## Stored registers -/

theorem regsWf_iff (regs : List (Nat × Word)) : regsWf regs = true ↔
    kvSorted regs = true ∧ ∀ x ∈ regs, x.2 ≠ BitVec.ofNat 32 (resetWord (x.1 % viewSize)) := by
  simp [regsWf]

/-- Storing a word keeps the canonical form. -/
theorem regStore_regsWf (k : Nat) (w : Word) (regs : List (Nat × Word)) (h : regsWf regs = true) :
    regsWf (regStore k w regs) = true := by
  rw [regsWf_iff] at *
  unfold regStore kvSet kvSorted at *
  split
  · exact ⟨kvSortedFrom_kvDel _ _ _ h.1, fun x hx => h.2 x (mem_kvDel _ _ _ hx)⟩
  · refine ⟨kvSortedFrom_kvPut _ _ _ _ h.1 (by omega), fun x hx => ?_⟩
    rcases mem_kvPut _ _ _ _ hx with rfl | hx
    · assumption
    · exact h.2 x hx

/-- A word reads as it was stored last; every other word reads as before. -/
theorem regWord_regStore (k j : Nat) (w : Word) (regs : List (Nat × Word)) (h : regsWf regs = true) :
    regWord (regStore k w regs) j = if j = k then w else regWord regs j := by
  have hs : kvSortedFrom 0 regs = true := ((regsWf_iff regs).mp h).1
  unfold regWord regStore kvSet kvGetD
  split
  · rw [kvGet_kvDel _ _ _ 0 hs]
    split
    · subst j; simp_all
    · rfl
  · by_cases hj : j = k
    · subst j; rw [kvGet_kvPut]; simp
    · rw [kvGet_kvPut_ne _ _ _ hj, if_neg hj]

end Sys2Proof.Laws
end

