-- ==== Sys2Proof/Laws/State.lean ====
section
/-! SUPPORT. What each accessor of the state reads after each update of the same kind, what a register store does, and what
moving time forward does; with the frame lemmas a proof needs to unfold none of them. -/

namespace Sys2Proof.Laws

open Sys2Proof Sys2Proof.Machine Sys2Proof.Safety

/-! ## Sparse tables -/

@[simp] theorem kvGetD_kvPut {α : Type} (d v : α) (k : Nat) (l : List (Nat × α)) : kvGetD d k (kvPut k v l) = v := by
  simp [kvGetD, kvGet_kvPut]

theorem kvGetD_kvPut_ne {α : Type} (d v : α) {j k : Nat} (h : j ≠ k) (l : List (Nat × α)) :
    kvGetD d j (kvPut k v l) = kvGetD d j l := by
  simp [kvGetD, kvGet_kvPut_ne k j v h]

/-! ## Keyed parts of the state -/

@[simp] theorem lane_setLane (n : Nat) (x : Lane) (s : State) : lane (setLane n x s) n = x := by simp [lane, setLane]

theorem lane_setLane_ne {m n : Nat} (h : m ≠ n) (x : Lane) (s : State) : lane (setLane n x s) m = lane s m := by
  simp [lane, setLane, kvGetD_kvPut_ne _ _ h]

@[simp] theorem quad_setQuad (n : Nat) (x : Quad) (s : State) : quad (setQuad n x s) n = x := by simp [quad, setQuad]

theorem quad_setQuad_ne {m n : Nat} (h : m ≠ n) (x : Quad) (s : State) : quad (setQuad n x s) m = quad s m := by
  simp [quad, setQuad, kvGetD_kvPut_ne _ _ h]

@[simp] theorem port_setPort (n : Nat) (x : Port) (s : State) : port (setPort n x s) n = x := by simp [port, setPort]

theorem port_setPort_ne {m n : Nat} (h : m ≠ n) (x : Port) (s : State) : port (setPort n x s) m = port s m := by
  simp [port, setPort, kvGetD_kvPut_ne _ _ h]

@[simp] theorem sched_setSched (n : Nat) (x : PortSched) (s : State) : sched (setSched n x s) n = x := by simp [sched, setSched]

theorem sched_setSched_ne {m n : Nat} (h : m ≠ n) (x : PortSched) (s : State) : sched (setSched n x s) m = sched s m := by
  simp [sched, setSched, kvGetD_kvPut_ne _ _ h]

@[simp] theorem frame_setFrame (n : Nat) (x : Frame) (s : State) : frame (setFrame n x s) n = x := by simp [frame, setFrame]

theorem frame_setFrame_ne {m n : Nat} (h : m ≠ n) (x : Frame) (s : State) : frame (setFrame n x s) m = frame s m := by
  simp [frame, setFrame, kvGetD_kvPut_ne _ _ h]

@[simp] theorem engineAt_setEngine (n : Nat) (x : Engine) (s : State) : engineAt (setEngine n x s) n = x := by simp [engineAt, setEngine]

theorem engineAt_setEngine_ne {m n : Nat} (h : m ≠ n) (x : Engine) (s : State) : engineAt (setEngine n x s) m = engineAt s m := by
  simp [engineAt, setEngine, kvGetD_kvPut_ne _ _ h]

@[simp] theorem cycleGen_setGen (n : Nat) (x : CycleGen) (s : State) : cycleGen (setGen n x s) n = x := by simp [cycleGen, setGen]

theorem cycleGen_setGen_ne {m n : Nat} (h : m ≠ n) (x : CycleGen) (s : State) : cycleGen (setGen n x s) m = cycleGen s m := by
  simp [cycleGen, setGen, kvGetD_kvPut_ne _ _ h]

@[simp] theorem capUnit_setCap (n : Nat) (x : CapUnit) (s : State) : capUnit (setCap n x s) n = x := by simp [capUnit, setCap]

theorem capUnit_setCap_ne {m n : Nat} (h : m ≠ n) (x : CapUnit) (s : State) : capUnit (setCap n x s) m = capUnit s m := by
  simp [capUnit, setCap, kvGetD_kvPut_ne _ _ h]

@[simp] theorem txStamps_setTxStamps (n : Nat) (x : TxStamps) (s : State) : txStamps (setTxStamps n x s) n = x := by simp [txStamps, setTxStamps]

theorem txStamps_setTxStamps_ne {m n : Nat} (h : m ≠ n) (x : TxStamps) (s : State) : txStamps (setTxStamps n x s) m = txStamps s m := by
  simp [txStamps, setTxStamps, kvGetD_kvPut_ne _ _ h]

@[simp] theorem filterAt_setFilter (n : Nat) (x : Filter) (s : State) : filterAt (setFilter n x s) n = x := by simp [filterAt, setFilter]

theorem filterAt_setFilter_ne {m n : Nat} (h : m ≠ n) (x : Filter) (s : State) : filterAt (setFilter n x s) m = filterAt s m := by
  simp [filterAt, setFilter, kvGetD_kvPut_ne _ _ h]

@[simp] theorem sgateAt_setSgate (n : Nat) (x : StreamGate) (s : State) : sgateAt (setSgate n x s) n = x := by simp [sgateAt, setSgate]

theorem sgateAt_setSgate_ne {m n : Nat} (h : m ≠ n) (x : StreamGate) (s : State) : sgateAt (setSgate n x s) m = sgateAt s m := by
  simp [sgateAt, setSgate, kvGetD_kvPut_ne _ _ h]

@[simp] theorem recoveryAt_setRecovery (n : Nat) (x : Recovery) (s : State) : recoveryAt (setRecovery n x s) n = x := by simp [recoveryAt, setRecovery]

theorem recoveryAt_setRecovery_ne {m n : Nat} (h : m ≠ n) (x : Recovery) (s : State) : recoveryAt (setRecovery n x s) m = recoveryAt s m := by
  simp [recoveryAt, setRecovery, kvGetD_kvPut_ne _ _ h]

@[simp] theorem meterAt_setMeter (n : Nat) (x : Meter) (s : State) : meterAt (setMeter n x s) n = x := by simp [meterAt, setMeter]

theorem meterAt_setMeter_ne {m n : Nat} (h : m ≠ n) (x : Meter) (s : State) : meterAt (setMeter n x s) m = meterAt s m := by
  simp [meterAt, setMeter, kvGetD_kvPut_ne _ _ h]

@[simp] theorem port_modPort (p : Nat) (f : Port → Port) (s : State) : port (modPort p f s) p = f (port s p) := by
  simp [modPort]

theorem port_modPort_ne {p q : Nat} (h : q ≠ p) (f : Port → Port) (s : State) : port (modPort p f s) q = port s q := by
  simp [modPort, port_setPort_ne h]

@[simp] theorem tsOf_setTs (p : Nat) (t : Ts) (s : State) : tsOf (setTs p t s) p = t := by simp [tsOf, setTs]

theorem tsOf_setTs_ne {p q : Nat} (h : q ≠ p) (t : Ts) (s : State) : tsOf (setTs p t s) q = tsOf s q := by
  simp [tsOf, setTs, port_modPort_ne h]

@[simp] theorem ring_setRing (k : RingKind) (n : Nat) (r : Ring) (s : State) : ring (setRing k n r s) k n = r := by
  simp [ring, setRing]

@[simp] theorem queue_setQueue (p q : Nat) (x : Queue) (s : State) : queue (setQueue p q x s) p q = x := by
  simp [queue, setQueue]

theorem queue_setQueue_ne {p q r t : Nat} (h : 8 * r + t ≠ 8 * p + q) (x : Queue) (s : State) :
    queue (setQueue p q x s) r t = queue s r t := by
  simp [queue, setQueue, kvGetD_kvPut_ne _ _ h]

/-! ## Registers -/

/-- A store gives its key the value, and leaves every other key. -/
theorem regWord_setRg (off v k : Nat) (s : State) (h : RegsCanonical s) :
    regWord (setRg off v s).regs k = if k = off then BitVec.ofNat 32 v else regWord s.regs k :=
  regWord_regStore off k _ s.regs h

theorem regsCanonical_setRg (off v : Nat) {s : State} (h : RegsCanonical s) : RegsCanonical (setRg off v s) :=
  regStore_regsWf off _ s.regs h

theorem rg_setRg (off v : Nat) {s : State} (h : RegsCanonical s) : rg (setRg off v s) off = v % 2 ^ 32 := by
  simp [rg, regWord_setRg off v off s h]

theorem rg_setRg_ne {off k : Nat} (hk : k ≠ off) (v : Nat) {s : State} (h : RegsCanonical s) :
    rg (setRg off v s) k = rg s k := by
  simp [rg, regWord_setRg off v k s h, hk]

theorem registersBut_setRg (off v : Nat) {s : State} (h : RegsCanonical s) : registersBut [off] s (setRg off v s) := by
  intro k hk
  rw [regWord_setRg off v k s h, if_neg (by simpa using hk)]

/-- Two states with the same stored registers are canonical together. -/
theorem regsCanonical_congr {s t : State} (h : t.regs = s.regs) : RegsCanonical t ↔ RegsCanonical s := by
  simp [RegsCanonical, h]

/-! ## Time -/

/-- With the island running, an event at a time not yet past brings master time to it. -/
theorem reach_now (T : Nat) (s : State) (run : s.tim.stopped = false) (h : s.now ≤ T) (lt : T < Config.timeMod) :
    (reach T s).now = T := by
  unfold reach
  simp only [run, Bool.false_or, decide_eq_true_eq]
  split
  · omega
  · simp [passTo, Nat.mod_eq_of_lt lt]

/-- An event whose time is reached changes nothing but what time changes. -/
theorem reach_past (T : Nat) (s : State) (h : T ≤ s.now) : reach T s = s := by
  simp [reach, h]

/-- An event some time after another brings the time since power, which no jump touches, to it. -/
theorem reachElapsed_elapsed (e : Nat) (s : State) (h : s.elapsed ≤ e) : (reachElapsed e s).elapsed = e := by
  unfold reachElapsed passFor passTo
  split
  · omega
  · split <;> simp <;> omega

/-- A wait that is over already changes nothing. -/
theorem reachElapsed_past (e : Nat) (s : State) (h : e ≤ s.elapsed) : reachElapsed e s = s := by
  simp [reachElapsed, h]

/-! ## Modes -/

theorem glbOpen_of_mode {s : State} (h : s.md.mode ≠ .reset) (hp : s.md.mode ≠ .park) : glbOpen s = true := by
  unfold glbOpen; cases h' : s.md.mode <;> simp_all

theorem mode_of_hostOpen {s : State} (h : hostOpen s = true) :
    s.md.mode ≠ .reset ∧ s.md.mode ≠ .wake ∧ s.md.mode ≠ .park := by
  unfold hostOpen at h; split at h <;> simp_all

/-! ## Frames of statements -/

/-- To show that only the named parts change, show for each part that it is named or reads as before. -/
theorem changesOnly_of {ps : List Part} {s t : State} (h : ∀ p : Part, ps.contains p = true ∨ p.same s t) :
    changesOnly ps s t := by
  intro p hp
  rcases h p with h | h
  · exact absurd (by simpa using h) hp
  · exact h

theorem changesOnly_trans {ps : List Part} {s t u : State} (h : changesOnly ps s t) (k : changesOnly ps t u) :
    changesOnly ps s u := by
  intro p hp
  have h1 := h p hp
  have h2 := k p hp
  cases p <;> simp only [Part.same] at h1 h2 ⊢ <;> exact h2.trans h1

end Sys2Proof.Laws
end

