-- ==== Sys2Proof/Machine/Package.lean ====
section
/-! DEFINITION. The ball map of the package (17_electrical, R528 to R532): what each ball of the grid carries. -/

namespace Sys2Proof.Machine

/-- What a ball carries. Of a differential pair, `neg` names the negative wire; a rail has its position in the table of R536. -/
inductive Ball
  | gnd
  | laneTx (lane : Nat) (neg : Bool)
  | laneRx (lane : Nat) (neg : Bool)
  | refclk (k : Nat) (neg : Bool)
  | pcieTx (lane : Nat) (neg : Bool)
  | pcieRx (lane : Nat) (neg : Bool)
  | pcieRefclk (neg : Bool)
  | pin (name : String)
  | rail (n : Nat)
deriving DecidableEq, Repr

/-- The letters of the rows (R528). -/
def rowLetters : List String :=
  ["A", "B", "C", "D", "E", "F", "G", "H", "J", "K", "L", "M", "N", "P", "T", "U", "V", "W", "Y"]

/-- The name of row 1 to 54 (R528). -/
def rowName (row : Nat) : String :=
  ["", "A", "B"].getD ((row - 1) / 19) "" ++ rowLetters.getD ((row - 1) % 19) ""

/-- A lane field, its first quad and its first clock input, by row within it from 0 and column (R530). -/
def laneFieldBall (quad0 clk0 r col : Nat) : Ball :=
  let band := r / 4
  let t := (col - 1) / 6
  let c := (col - 1) % 6
  if c = 2 ∨ c = 5 then .gnd
  else if t = 8 then if r % 4 = 0 then .refclk (clk0 + 2 * band + c / 3) (c % 3 == 1) else .gnd
  else
    let lane := 4 * (quad0 + 8 * band + t) + 2 * (r % 2) + c / 3
    if r % 4 < 2 then .laneTx lane (c % 3 == 1) else .laneRx lane (c % 3 == 1)

/-- The pins of row AA from column 36 on, and of row AY from column 13 on (R531). -/
def pinsAA : List String := ["TCK", "TMS", "TDI", "TDO", "TRST_N", "THERM_P", "THERM_N"]
def pinsAY : List String :=
  ["RESET_N", "FAULT_N", "BOOT_SEL[0]", "BOOT_SEL[1]", "PARTY_SEL", "SIDE_ADDR[0]", "SIDE_ADDR[1]", "SIDE_ADDR[2]", "SP_SCL",
   "SP_SDA", "SP_ALERT_N", "TIMECLK_IN", "PPS_IN", "PPS_OUT"] ++
  ["TIO_00", "TIO_01", "TIO_02", "TIO_03", "TIO_04", "TIO_05", "TIO_06", "TIO_07", "TIO_08", "TIO_09", "TIO_10", "TIO_11",
   "TIO_12", "TIO_13", "TIO_14", "TIO_15"]

/-- A pin of a list by position, GND outside it. -/
def pinOf (l : List String) (i : Nat) : Ball :=
  match l[i]? with
  | some n => .pin n
  | none => .gnd

/-- A ball of row V or Y (R531): eight PCIe lanes of three columns each; V also has the PCIe clock and reset. -/
def pcieRowBall (tx : Bool) (col : Nat) : Ball :=
  let k := col - 13
  if k < 24 then
    if k % 3 = 2 then .gnd else if tx then .pcieTx (k / 3) (k % 3 == 1) else .pcieRx (k / 3) (k % 3 == 1)
  else if tx then
    if col = 37 then .pcieRefclk false else if col = 38 then .pcieRefclk true
    else if col = 40 then .pin "PCIE_PERST_N" else .gnd
  else .gnd

/-- The rail of a column of the HBM fields, `d` counted from the edge of the grid, and of a column of the core field (R532). -/
def hbmRail (d : Nat) : Nat := if d ≤ 7 then 4 else if d ≤ 11 then 5 else 6
def coreRail (col : Nat) : Nat :=
  if col ≤ 17 then 2 else if col ≤ 19 then 3 else if col ≤ 34 then 0 else if col ≤ 40 then 1 else if col = 41 then 8 else 7

/-- A ball of a supply field: GND where row and column numbers sum to an even number (R532). -/
def supplyBall (row col rail : Nat) : Ball := if (row + col) % 2 = 0 then .gnd else .rail rail

/-- What the ball in a row and column, both from 1 to 54, carries (R529 to R532). -/
def ballAt (row col : Nat) : Ball :=
  if row ≤ 16 then laneFieldBall 0 0 (row - 1) col
  else if 39 ≤ row then laneFieldBall 32 8 (row - 39) col
  else if col ≤ 12 then supplyBall row col (hbmRail col)
  else if 43 ≤ col then supplyBall row col (hbmRail (55 - col))
  else if row = 17 then pcieRowBall true col
  else if row = 18 then .gnd
  else if row = 19 then pcieRowBall false col
  else if row = 20 then (if 36 ≤ col then pinOf pinsAA (col - 36) else .gnd)
  else if row = 38 then pinOf pinsAY (col - 13)
  else supplyBall row col (coreRail col)

/-- The balls of the grid that carry something of a kind. -/
def ballCount (p : Ball → Bool) : Nat :=
  ((List.range 54).map fun r => ((List.range 54).filter fun c => p (ballAt (r + 1) (c + 1))).length).sum

end Sys2Proof.Machine
end

