-- ==== Sys2Proof/Tests/Slice0.lean ====
section
/-! SUPPORT. Tests: ill-formed commands are refused, the spec's worked examples come out as it says, and for each statement of
Certificates/Slice0/Obligations.lean a state and operands that meet the hypotheses of each of its clauses (ResetState, ResetCanonical,
StepRunsFront and CommandsLeaveQueue have none). -/

namespace Sys2Proof.Tests

open Sys2Proof Sys2Proof.Machine Sys2Proof.Safety

-- One theorem after the other: each waits for the kernel, and in the joined text too many would wait at once.
set_option Elab.async false

theorem test_reset_canonical : Safety.Canonical State.reset := ⟨rfl, rfl⟩

/-! ## Helpers -/

/-- The machine after reset, in another mode. -/
def inMode (m : Mode) : State := { State.reset with md := { State.reset.md with mode := m } }

/-- A state with registers of view 0 written; `viewSize` added to an offset names its value in use. -/
def withRegs (l : List (Nat × Nat)) (s : State) : State := l.foldl (fun s x => setRg x.1 x.2 s) s

/-- Those registers after reset, in another mode. -/
def inModeWith (m : Mode) (l : List (Nat × Nat)) : State := withRegs l (inMode m)

/-- A table command through the table command register, with its BODY as words. -/
def cmd (body : List Nat) : Cmd := ⟨.tcmd, 7, bytesOfWords body, none⟩

/-- One with a data buffer of `n` bytes at address 4,096 of host memory. -/
def longCmd (n : Nat) (body : List Nat) : Cmd := ⟨.tcmd, 7, bytesOfWords body, some ⟨4096, n, true, []⟩⟩

/-- Host memory with bytes at address 4,096. -/
def withBytes (bs : List Byte) (s : State) : State := { s with hmem := memWrite s.hmem 4096 bs }

theorem canonical_of {s : State} (h : regsWf s.regs = true) : RegsCanonical s := h

theorem keyed_of {α : Type} {l : List (Nat × α)} (h : kvSorted l = true) : keyed l := h

/-! ## Well-formedness: one ill-formed command for each check, and its neighbour that is well formed -/

/-- Ill-formed commands: each breaks one check. -/
def illCommon : List Instr :=
  [.resetNHigh ⟨4, 0, 0⟩, .resetNHigh ⟨0, 2, 0⟩, .fullResetTimeout ⟨0, 0, 8⟩, .suppliesInRange ⟨4, 0, 0⟩,
   .powerOnDetect 9 0, .parkWaveComplete 1 1 1 [(0x510, 0)], .fatalFault 0x10000 0 [], .fatalFault 1 96 [],
   .fatalFault 1 0 [1, 2, 3, 4, 5, 6, 7], .powerRemoval (some (.cacheQuad 64)), .powerRemoval (some (.image 4)),
   .supplyMonitorCheck 9 0 0, .pcieLinkUp 3 1, .pcieLinkUp 1 0, .pcieLinkUp 1 6, .accessError ⟨.pf0, 1, 0, false, 0⟩,
   .accessError ⟨.pf0, 0, 0, false, 256⟩, .registerWrite ⟨.pf0, 0, 2, 0, none⟩, .registerWrite ⟨.pf0, 3, 0, 0, none⟩,
   .wideLowWordRead ⟨.pf0, 0, 1, none⟩, .clearOnRead ⟨.pf0, 1, 0, none⟩, .timeBaseFault true 96]
def illHost : List Instr :=
  [.doorbellTail .rx 64 0 [], .doorbellTail .cmd 8 0 [], .doorbellTail .rx 0 0x10000 [], .arm .tx 64 0 true, .arm .evt 0 0x10000 true,
   .ringEnable .evt 8 0, .ringDisable .rdo 1 0, .ringStopped .cmd 8, .dmaError .rx 64 0 none, .txFrameAdmit 64, .eventRecordWrite 8,
   .irqHoldoffExpiry .tx 64, .store 4 [] true, .applySlot 4, .mark 4, .unmark 4, .erase 4, .stage 256 0, .stage 0 32,
   .refclkGoodChange 16 none]
def illPorts : List Instr :=
  [.losAssert 256, .losClear 256, .lolAssert 256, .lolClear 256, .pcsLockChange 256 true true 0, .adapt 256, .restore 256,
   .prbs31Near 256, .prbs31Line 256, .stop 256 0, .laneCommandComplete 256 0 true, .widen 256,
   .dskReceive 256 ⟨⟨[]⟩, [], true⟩, .dskReceive 0 ⟨⟨[(4, [])]⟩, [], true⟩, .dskReceive 0 ⟨⟨[]⟩, [4], true⟩,
   .crdReceive 256 ⟨[]⟩, .crdReceive 0 ⟨[(4, [])]⟩,
   .ttmReceive 256 ⟨⟨[]⟩, 0⟩, .ttmReceive 0 ⟨⟨[(4, [])]⟩, 0⟩, .cycReceive 256 ⟨[]⟩, .cycReceive 0 ⟨[(4, [])]⟩, .tLanesExpiry 256,
   .tConfigExpiry 256, .tRetrainExpiry 256, .laneFailure 256 [], .laneFailure 0 [⟨4, [], 0, 0, 0⟩],
   .stableMsExpiry 256, .skpSend 256, .dskSend 256, .crdSend 256 0, .crdSend 0 8, .ttmSend 256, .cycMarkSend 256,
   .ttmSeqRead .pf0 256, .macFrameReceive 256 ⟨[0], 0, true, true, true, 0, 0, [], [], 0, 0⟩,
   .macFrameReceive 0 ⟨[], 0, true, true, true, 0, 0, [], [], 0, 0⟩, .macFrameReceive 0 ⟨[0], 0, true, true, true, 0, 256, [], [], 0, 0⟩,
   .macFrameReceive 0 ⟨[0], 0, true, true, true, 0, 0, [(4, 1)], [], 0, 0⟩,
   .macFrameReceive 0 ⟨[0], 0, true, true, true, 0, 0, [], [(4, [])], 0, 0⟩, .pauseHoldExpiry 256 0, .pauseHoldExpiry 0 9, .upHoldoffExpiry 256,
   .linkHoldExpiry 256, .flush 256, .restartVerify 256, .verifyTimer 256, .verifyMpacketReceive 256 true, .pauseFrameTransmit 256,
   .xoffRepeat 256 0, .xoffRepeat 0 9, .autoNegotiationComplete 256 true, .alignmentLockChange 256 true 0,
   .alignmentLockChange 0 true 16, .linkFaultSignalChange 256 true]
def illTables : List Instr :=
  let c : Cmd := ⟨.ring 8, 0, List.replicate 20 0, none⟩
  let d : Cmd := ⟨.tcmd, 2 ^ 32, List.replicate 20 0, none⟩
  let e : Cmd := ⟨.tcmd, 0, List.replicate 8 0, none⟩
  let f : Cmd := ⟨.tcmd, 0, List.replicate 20 0, some ⟨0, 0, true, []⟩⟩
  let g : Cmd := ⟨.tcmd, 0, List.replicate 8 0, some ⟨2 ^ 64, 0, true, []⟩⟩
  let h : Cmd := ⟨.tcmd, 0, List.replicate 8 0, some ⟨0, 2 ^ 32, true, []⟩⟩
  [.cycleEdge 32, .tioOutputStart 16, .tioOutputEnd 16, .captureEdge 16 true 0 0, .stuckActive 16, .txfRead .pf0 256,
   .captureFifoRead .pf0 16, .frameArrival 8 [], .strWrite c, .strRead d, .clsWrite e, .clsInvalidate f, .clsRead g, .readHits h,
   .hgtWrite c, .hgtRead d, .hgtReadCounters e, .unblock f, .resetRcv g, .tcamScrub 262144 true true, .tcamRepair 262144,
   .bankConfigWrite 8 0 0, .bankConfigWrite 0 8 0, .fdbInsert c, .fdbDelete d, .fdbLookup e, .fdbRead f, .fdbFlush g, .fdbDump h,
   .lpmInsert c, .lpmDelete d, .lpmLookup e, .lpmMatch f, .nhpWrite c, .nhpRead d, .writeGroup e, .readGroup f, .readBuckets g,
   .mcgWrite c, .mcgInvalidate d, .mcgRead e, .writeRun f, .ageingVisit 262144 true, .tableScrub 5 0 0 true, .tableScrub 1 0 4 true,
   .tableRepair 6 0 0, .tableRepair 1 0 8, .bucketMove 4 0 0, .bucketMove 0 0 256, .commit (some c), .commitAt (some d),
   .discardStaged (some e), .genStatus f]
def illFlow : List Instr :=
  let c : Cmd := ⟨.ring 8, 0, List.replicate 20 0, none⟩
  [.engineFrameEntry 64, .bundleIssue 64 1 [], .eslDataReturn 64 0 0, .eslDataReturn 0 64 0, .growthCellRetry 64 0,
   .growthCellRetry 0 64,
   .engineHandoff 64, .engineWordRepair 8 0 0, .engineWordRepair 0 2 0, .load c, .unload c, .engRead c, .tblWrite c, .tblRead c,
   .esWrite c, .esRead c, .emptyRetry 8, .refillBurst 259 0 0 0, .refillBurst 0 8 0 0, .refillReturn 259 0, .refillReturn 0 8,
   .snapshot (some c), .reclaim c, .readRecord c, .leakList c, .auditNow c, .readAccount c, .copyEnqueue 259, .transmitterFree 256 0,
   .copyTransmitEnd 259, .releaseHandover 259 0, .releaseHandover 0 8, .releaseLeadDeadline 259 0, .releaseLeadDeadline 0 8,
   .timedRelease 259 0, .gateEntryChange 256, .writeEntries c, .readEntries c, .schReadCounters c, .freeze (some c),
   .release (some c) 0, .release none 4, .sealNow (some c), .verify c, .readLoss c, .pmuSettingWrite 30 0 0 0,
   .pmuSettingWrite 0 8 0 0, .pmuSettingWrite 0 0 3 0, .zero 30 0, .counterRead 30 0 true, .counterRead 0 8 true, .windowPublish 30 0,
   .windowPublish 0 8, .setState c, .retire c, .test c, .healthWrite c, .readState c, .leaveComplete 10 0, .leaveComplete 0 256,
   .leaveComplete 9 96, .retireCopyComplete 6 520, .testComplete 8 1 true 0 0, .testComplete 8 0 true 16 0, .autoRetire 128 0,
   .spillWriteComplete 120 0]

theorem test_ill_formed : (illCommon ++ illHost ++ illPorts ++ illTables ++ illFlow).all (fun i => !i.wf) = true := by
  decide +kernel

/-- Neighbours of these that are well formed, each operand at its highest value. -/
def wellFormed : List Instr :=
  let c : Cmd := ⟨.ring 7, 2 ^ 32 - 1, List.replicate 20 0, none⟩
  let l : Cmd := ⟨.image, 0, List.replicate 8 0, some ⟨2 ^ 64 - 1, 2 ^ 32 - 1, false, []⟩⟩
  [.resetNHigh ⟨3, 1, 7⟩, .fatalFault 0xFFFF 95 [1, 2, 3, 4, 5, 6], .supplyMonitorCheck 8 0 0, .pcieLinkUp 8 5,
   .registerWrite ⟨.pf1, 4, 0, 0, none⟩, .doorbellTail .rx 63 65535 [], .store 3 [] true, .stage 255 31, .losAssert 255,
   .dskReceive 255 ⟨⟨[(3, [255])]⟩, [3], true⟩, .ttmReceive 255 ⟨⟨[(3, [255])]⟩, 0⟩,
   .macFrameReceive 255 ⟨[0], 0, true, true, true, 0, 255, [(3, 1)], [(3, [0x3FF])], 0, 0⟩, .powerOnDetect 8 0, .strWrite c, .strRead l,
   .tableScrub 33 0 3 true, .copyEnqueue 258, .leaveComplete 9 95, .spillWriteComplete 119 0, .powerRemoval (some (.cacheQuad 63)),
   .powerRemoval (some (.image 3))]

theorem test_well_formed : wellFormed.all Instr.wf = true := by decide +kernel

/-! ## Witnesses: the machine and its modes -/

theorem witness_EmptyQueueTicks : State.reset.pending = [] := rfl

theorem witness_StepKeepsCanonical : Canonical State.reset ∧ Canonical (inModeWith .stage [(R.genAtSec, 5)]) := by
  repeat' apply And.intro
  all_goals first | (with_reducible refine canonical_of ?_; decide +kernel) | exact (rfl : memWf [] = true)

/-- A state in RESET that FULL_RESET entered. -/
def fullResetState (high : Bool) : State :=
  { State.reset with md := { State.reset.md with byFullReset := true }, pins := { State.reset.pins with resetN := high } }

theorem witness_ResetAndWakeEntered :
    (detectorTrips 0 704999 = true ∧ detectorTrips 0 705000 = false ∧ detectorTrips 1 0 = false) ∧
    (1100 ≤ 1100 ∧ 899 < 900 ∧ 900 ≤ 1099 ∧ 1099 < 1100) ∧
    (State.reset.pins.resetN = false ∧ (fullResetState true).pins.resetN = true ∧ (fullResetState true).md.parkDone = false) ∧
    (resetOpen (inMode .wake) = true ∧ (0x5AFE0000 : Word).toNat / 2 ^ 16 = 0x5AFE) ∧
    ((inMode .wake).md.mode ≠ .reset ∧ (inMode .wake).md.mode ≠ .park ∧ (0x5AFDFFFF : Word).toNat / 2 ^ 16 ≠ 0x5AFE) ∧
    (State.reset.md.mode = .reset ∧ State.reset.pins.supplies = true ∧ State.reset.pins.resetN = false) ∧
    (∀ s, s = { State.reset with pins := { State.reset.pins with supplies := false, resetN := true } } →
      s.md.mode = .reset ∧ s.pins.supplies = false ∧ s.pins.resetN = true) ∧
    ((fullResetState true).md.mode = .reset ∧ (fullResetState true).md.byFullReset = true ∧
      (fullResetState true).pins.resetN = true) ∧
    ((fullResetState false).md.mode = .reset ∧ (fullResetState false).md.byFullReset = true ∧
      (fullResetState false).pins.resetN = false) := by
  repeat' apply And.intro
  all_goals first | decide +kernel | (intro s h; subst h; decide +kernel)

/-- A state in WAKE, before step 2, with stacks at a temperature and warming under way or done. -/
def wakeState (ref : Nat) (warming : Bool) (hbm3 : Int) : State :=
  { State.reset with
    md := { State.reset.md with mode := .wake, wakeStep := 1, coreRef := ref, warming := warming },
    therm := { State.reset.therm with temps := ⟨0, 0, 0, 0, hbm3⟩ } }

/-- WAKE once the stacks have been read, on an LK8256-AC or -AE. -/
def wakeRead (cold ae : Bool) : State :=
  { wakeState 1 false 0 with
    md := { (wakeState 1 false 0).md with tempsRead := true, coldAtWake := cold }, dev := { State.reset.dev with codeAE := ae } }
def wakeUnread : State := { wakeState 1 false (-1) with dev := { State.reset.dev with codeAE := true } }

theorem witness_WakeGoesOnAndEnds :
    ((wakeState 0 false 0).md.mode = .wake ∧ (wakeState 0 false 0).md.coreRef = 0 ∧ RegsCanonical (wakeState 0 false 0) ∧
      (-2000 : Int) ≤ -2000 ∧ (-2000 : Int) ≤ 2000 ∧ (2000 : Int) ≤ 2000) ∧
    ((-2001 : Int) < -2000 ∨ 2000 < (-2001 : Int)) ∧ ((2001 : Int) < -2000 ∨ 2000 < (2001 : Int)) ∧
    ((wakeState 1 true 0).md.mode = .wake ∧ (wakeState 1 true 0).md.warming = true ∧ (0 : Int) ≤ 0 ∧
      (wakeState 1 true 0).md.faultPending = false) ∧
    ((wakeRead true false).md.mode = .wake ∧ (wakeRead true false).md.coreRef ≠ 0 ∧ (wakeRead true false).md.warming = false ∧
      (wakeRead true false).md.faultPending = false ∧ (wakeRead true false).md.tempsRead = true ∧
      (wakeRead true false).dev.codeAE = false ∧ (wakeRead true false).md.coldAtWake = true) ∧
    (wakeFaultCode (wakeRead false false) true = none ∧ wakeFaultCode (wakeRead true true) true = none ∧
      (wakeRead false false).dev.bootSel = 0 ∧ (wakeRead false false).md.fenced = false) ∧
    (wakeUnread.md.tempsRead = false ∧ wakeUnread.dev.codeAE = true ∧ stackCold wakeUnread.therm.temps = true) := by
  repeat' apply And.intro
  all_goals first | decide +kernel | (with_reducible refine canonical_of ?_; decide +kernel)

/-- STAGE with a completed commit and the protection commit; RUN and STAGE with a frozen region; STAGE with each bar of GO_RUN. -/
def readyToRun : State :=
  { inMode .stage with gen := { State.reset.gen with completed := true }, prot := { State.reset.prot with committed := true } }
def frozenState (m : Mode) : State :=
  { inMode m with recd := { State.reset.recd with regions := [(0, ⟨2, 1, 0, 0, [], 0, 0⟩)] } }
def movingState (m : Mode) : State := { inMode m with md := { (inMode m).md with transition := true } }

theorem witness_ModeCommands :
    (readyToRun.md.mode = .stage ∧ readyToRun.md.fenced = false ∧ readyToRun.md.faultPending = false ∧
      readyToRun.md.transition = false ∧ readyToRun.gen.completed = true ∧ readyToRun.prot.committed = true) ∧
    ((inMode .run).md.mode ≠ .reset ∧ (inMode .run).md.mode ≠ .park ∧ (inMode .run).md.mode ≠ .stage) ∧
    ((inMode .stage).md.mode ≠ .reset ∧ (inMode .stage).md.mode ≠ .park ∧ (inMode .stage).gen.completed = false) ∧
    ((inMode .run).md.mode = .run ∧ (inMode .run).md.transition = false) ∧
    ((inMode .stage).md.mode = .stage ∧ (inMode .stage).md.transition = false ∧ recHasFrozen (inMode .stage) = false) ∧
    ((movingState .run).md.mode ≠ .reset ∧ (movingState .run).md.mode ≠ .park ∧ (movingState .run).md.transition = true) ∧
    ((inMode .wake).md.transition = false ∧ (inMode .wake).md.mode ≠ .run ∧ (inMode .wake).md.mode ≠ .stage) ∧
    ((frozenState .run).md.mode = .run ∧ (frozenState .run).md.transition = false ∧ recHasFrozen (frozenState .run) = true) := by
  decide +kernel

/-- STAGE with a run time to come; RUN or STAGE with a drain time to come; DRAIN with its target; a fault to be recorded. -/
def runWaits : State :=
  { inMode .stage with md := { (inMode .stage).md with transition := true, target := .run, tRun := some 7 }, now := 7 }
def drainWaits (m target : Mode) : State :=
  { inMode m with md := { (inMode m).md with transition := true, target := target, tDrain := some 7 }, now := 6 }
def drained (target : Mode) : State :=
  { inMode .drain with md := { (inMode .drain).md with draining := true, transition := true, target := target } }
def faultWaits (pending : Bool) : State :=
  { inMode .run with md := { (inMode .run).md with faultPending := pending, faultRecs := [⟨1, 92, .run, 0, [], pending⟩] } }

theorem witness_RunDrainAndFaultEnd :
    (runWaits.md.tRun = some 7 ∧ runWaits.md.transition = true ∧ runWaits.md.target = .run ∧ runWaits.md.mode = .stage ∧
      runWaits.md.fenced = false ∧ runWaits.md.faultPending = false ∧ runWaits.tim.stopped = false ∧ runWaits.now ≤ 7 ∧
      7 < Config.timeMod) ∧
    ((drainWaits .run .stage).md.tDrain = some 7 ∧ (drainWaits .run .stage).md.transition = true ∧
      (drainWaits .run .stage).md.draining = false ∧ (drainWaits .run .stage).md.target = .stage ∧
      (drainWaits .run .stage).tim.stopped = false ∧ (drainWaits .run .stage).now ≤ 7) ∧
    ((drained .stage).md.mode = .drain ∧ (drained .stage).md.draining = true ∧ inflight (drained .stage) 0 = 0 ∧
      inflight (drained .stage) 1 = 0 ∧ (drained .stage).recd.backlog = [] ∧ (drained .stage).md.faultPending = false ∧
      (drained .stage).md.target ≠ .park) ∧
    ((drained .park).md.mode = .drain ∧ (drained .park).md.draining = true ∧ inflight (drained .park) 0 = 0 ∧
      inflight (drained .park) 1 = 0 ∧ (drained .park).recd.backlog = [] ∧ (drained .park).md.faultPending = false ∧
      (drained .park).md.target = .park) ∧
    ((faultWaits true).md.mode = .run ∧ (faultWaits true).md.faultPending = true ∧ (faultWaits true).md.faultRecs ≠ []) ∧
    ((faultWaits false).md.mode = .run ∧ (faultWaits false).md.faultPending = false ∧ (faultWaits false).md.faultRecs ≠ []) := by
  decide +kernel

/-- PARK in a wave, with the die hot or not. -/
def parkState (wave : Nat) (hot : Bool) : State :=
  { inMode .park with md := { (inMode .park).md with wave := wave }, svc := { State.reset.svc with hot := hot } }

theorem witness_ParkWaves :
    ((parkState 1 false).md.mode = .park ∧ (parkState 1 false).md.wave ≠ 0 ∧ (parkState 1 false).svc.hot = false ∧
      250 + 50 ≤ (parkState 1 false).svc.capW) ∧
    ((parkState 12 false).md.wave ≠ 0 ∧ (parkState 12 false).svc.capW < 251 + 50) ∧
    ((parkState 12 true).svc.hot = true ∧ (parkState 12 true).md.wave ≠ 0) ∧
    ((parkState 1 false).md.mode = .park ∧ 1 ≤ (parkState 1 false).md.wave ∧ (parkState 1 false).md.wave < 12) ∧
    ((parkState 11 true).md.mode = .park ∧ 1 ≤ (parkState 11 true).md.wave ∧ (parkState 11 true).md.wave < 12) ∧
    ((parkState 12 false).md.mode = .park ∧ (parkState 12 false).md.wave = 12 ∧
      bit 5 (parkState 12 false).side.eventEn = true) := by
  decide +kernel

theorem witness_FatalFaults :
    ((inMode .run).md.mode = .run ∧ (inMode .run).md.fenced = false ∧
      (inMode .run).md.faultPending = false ∧ 0xFFFF < 2 ^ 16 ∧ 95 < 2 ^ 8) ∧
    ((inMode .stage).md.mode = .stage ∧ (inMode .stage).md.fenced = false ∧ (inMode .stage).md.faultPending = false) ∧
    (∀ s, s = { inMode .drain with md := { (inMode .drain).md with fenced := true } } → s.md.mode = .drain ∧ s.md.fenced = true ∧
      s.md.faultPending = false) ∧
    (8 < 9 ∧ 827999 < railLow 8 ∧ railHigh 8 < 972001 ∧ 10000 < 10001) ∧
    (inMode .park).md.mode = .park ∧ State.reset.md.mode = .reset ∧
    ((inMode .wake).md.mode = .wake ∧ (inMode .wake).md.faultPending = false ∧ 7 ≤ 7 ∧ 10 ≤ 10) := by
  repeat' apply And.intro
  all_goals first | decide +kernel | (intro s h; subst h; decide +kernel)

/-- A state whose latest supply alarm is of this moment; with readings that have ended nothing. -/
def alarmedNow : State := { inMode .stage with therm := { State.reset.therm with supplyAt := some 0 } }

theorem witness_SensorsAndDateHint :
    (827999 < railLow 8 ∧ 1 ≤ 1 ∧ 10000 ≤ 10000 ∧ (inMode .stage).md.mode ≠ .reset ∧ supplyAlarmDue (inMode .stage) = true) ∧
    (railLow 8 ≤ 828000 ∧ 828000 ≤ railHigh 8 ∧ railLow 8 ≤ 972000 ∧ 972000 ≤ railHigh 8) ∧ supplyAlarmDue alarmedNow = false ∧
    ((inMode .stage).pins.supplies = true ∧ (inMode .stage).md.mode ≠ .wake ∧ sensorsTested (inMode .stage) = false ∧
      sensorsTested (parkState 10 true) = false ∧ (16 * 105 - 1 : Int) < 16 * 105 ∧ (16 * 83 - 1 : Int) < 16 * 83) ∧
    (State.reset.pins.supplies = true ∧ State.reset.md.mode = .reset ∧ (inMode .wake).pins.supplies = true ∧
      (inMode .wake).md.mode = .wake) ∧
    ((inMode .stage).md.mode ≠ .reset ∧ (inMode .stage).md.mode ≠ .wake) := by
  decide +kernel

/-! ## Witnesses: the host interface -/

/-- A class C register and a register with bits that a read clears, as the map finds them. -/
def recCfgHit : RegHit := (regAt R.recCfg).get (by decide +kernel)
def atSecHit : RegHit := (regAt R.genAtSec).get (by decide +kernel)
def protectPending : Pending := ⟨1, 0, List.replicate 18 0, 0, [], 0⟩

theorem witness_PcieLink :
    RegsCanonical State.reset ∧ ((inMode .stage).md.mode = .stage ∧ (63 < 64 ∧ 15 < 16)) ∧
    ((inMode .stage).prot.pending = none ∧ RegsCanonical (inMode .stage)) ∧
    (∀ s, s = { inMode .stage with prot := { (inMode .stage).prot with pending := some protectPending } } →
      s.prot.pending = some protectPending ∧ s.elapsed < protectPending.opened + windowLen ∧ RegsCanonical s) := by
  refine ⟨canonical_of (by decide +kernel), by decide +kernel, ⟨by decide +kernel, canonical_of (by decide +kernel)⟩, ?_⟩
  intro s h; subst h; exact ⟨rfl, by decide +kernel, canonical_of (by decide +kernel)⟩

def clearHit : RegHit := (regAt 0x10004).get (by decide +kernel)
def clearPairHit : RegHit := (regAt 0x20028).get (by decide +kernel)

theorem witness_AccessErrorsAndReads :
    ((inMode .stage).md.mode ≠ .reset ∧ (inMode .stage).md.mode ≠ .park ∧ Party.pf1 ≠ .side ∧ RegsCanonical (inMode .stage)) ∧
    (hostOpen (inMode .stage) = true ∧ R.genAtSec < 0x2000000 ∧ R.genAtSec % 4 = 0 ∧ regAt R.genAtSec = some atSecHit ∧
      readSpecial atSecHit (inMode .stage) = none ∧ atSecHit.row.wide = true ∧ ownLatch atSecHit = false ∧
      atSecHit.hiWord = false ∧ clearsNow (inMode .stage) atSecHit = false) ∧
    (regAt 0x10004 = some clearHit ∧ readSpecial clearHit (inMode .stage) = none ∧ clearHit.row.wide = false ∧
      clearsNow (inMode .stage) clearHit = true ∧ RegsCanonical (inMode .stage)) ∧
    ((inMode .park).md.mode = .park ∧ Party.pf0 ≠ .side ∧ 0x20028 < 0x2000000 ∧ 0x20028 % 4 = 0) ∧
    (regAt 0x20028 = some clearPairHit ∧ readSpecial clearPairHit (inMode .stage) = none ∧ clearPairHit.row.wide = true ∧
      ownLatch clearPairHit = false ∧ clearPairHit.hiWord = false ∧ clearsNow (inMode .stage) clearPairHit = true) := by
  repeat' apply And.intro
  all_goals first | decide +kernel | (with_reducible refine canonical_of ?_; decide +kernel)

/-- STAGE with the recorder's region locked by the protection map. -/
def recLocked : State :=
  { inModeWith .stage [(R.prtMap 0, 0x80)] with prot := { State.reset.prot with committed := true } }

theorem witness_RegisterWrites :
    (RegsCanonical (inMode .stage) ∧ hostOpen (inMode .stage) = true ∧ R.recCfg < 0x2000000 ∧ R.recCfg % 4 = 0 ∧
      regAt R.recCfg = some recCfgHit ∧ recCfgHit.row.cls = .c ∧ recCfgHit.row.wide = false ∧
      writeRow recCfgHit 5 (inMode .stage) = none ∧ regionLocked (inMode .stage) (R.recCfg / 0x10000) = false ∧
      shutUnit (inMode .stage) R.recCfg = none ∧ stagingShut (inMode .stage) .c = false ∧
      unusedPort (inMode .stage) recCfgHit = false) ∧
    (RegsCanonical recLocked ∧ hostOpen recLocked = true ∧ writeRow recCfgHit 5 recLocked = none ∧
      regionLocked recLocked (R.recCfg / 0x10000) = true) := by
  repeat' apply And.intro
  all_goals first | decide +kernel | (with_reducible refine canonical_of ?_; decide +kernel)

/-- STAGE with one ring. -/
def withRing (k : RingKind) (n : Nat) (r : Ring) (s : State) : State := setRing k n r s
def running (k : RingKind) (n : Nat) (s : State) : State := withRing k n { active := true, size := 64 } s

theorem witness_RingControl :
    (∀ s, s = inModeWith .stage [(ringRegs .rx 63 + 0xC, 8), (ringRegs .rx 63, 0x1000)] →
      RegsCanonical s ∧ hostOpen s = true ∧ 63 < kindCount .rx ∧ (ring s .rx 63).active = false ∧
      ringCfgOk .rx (rg64 s (ringRegs .rx 63)) (fld 5 2 (0x3D : Word).toNat) (rg s (ringRegs .rx 63 + 0xC)) = true ∧
      ringCfgOk .rx (rg64 s (ringRegs .rx 63)) (fld 5 2 (0x15 : Word).toNat) (rg s (ringRegs .rx 63 + 0xC)) = false) ∧
    (∀ s, s = running .cmd 7 (inMode .stage) → RegsCanonical s ∧ hostOpen s = true ∧ 7 < kindCount .cmd ∧
      (ring s .cmd 7).active = true ∧ (ring s .cmd 7).stopping = false ∧ RingKind.cmd ≠ .tx) ∧
    (∀ s, s = withRing .tx 63 { active := true, size := 64, fetch := 63, tail := 2 } (inMode .stage) → RegsCanonical s ∧
      hostOpen s = true ∧ 63 < kindCount .tx ∧ (ring s .tx 63).stopping = false ∧ (ring s .tx 63).work = [] ∧
      (ring s .tx 63).fetch < (ring s .tx 63).size ∧ ringAvail (ring s .tx 63) ≠ 0) ∧
    (∀ s, s = withRing .tx 0 { active := true, stopping := true } (inMode .stage) →
      (ring s .tx 0).active = true ∧ (ring s .tx 0).stopping = true ∧ (ring s .tx 0).work = []) ∧
    (∀ s, s = withRing .cmd 0 { active := true, size := 64, tail := 1 } (inMode .run) → RegsCanonical s ∧
      (ring s .cmd 0).active = true ∧ 0 < kindCount .cmd ∧ (ring s .cmd 0).work = [] ∧
      (ring s .cmd 0).fetch < (ring s .cmd 0).size ∧ ringAvail (ring s .cmd 0) ≠ 0) := by
  repeat' apply And.intro
  all_goals intro s h; subst h; repeat' apply And.intro
  all_goals first | decide +kernel | (with_reducible refine canonical_of ?_; decide +kernel)

theorem witness_InterruptArming :
    (∀ s, s = withRing .rx 0 { active := true, size := 64, mod := 5, head := 5 } (inModeWith .stage [(ringRegs .rx 0 + 8, 0x40)]) →
      RegsCanonical s ∧ hostOpen s = true ∧ (ring s .rx 0).active = true ∧ (ring s .rx 0).stopping = false ∧
      (ring s .rx 0).head < 2 ^ 16 ∧ irqOn s .rx 0 = true ∧ 0 ≠ (ring s .rx 0).head ∧ 1 ≠ (ring s .rx 0).head ∧
      ((ring s .rx 0).head + 64 - 1 % 64) % 64 < max 1 (fld 7 0 (ring s .rx 0).mod) ∧
      max 1 (fld 7 0 (ring s .rx 0).mod) ≤ ((ring s .rx 0).head + 64 - 0 % 64) % 64) ∧
    (∀ s, s = running .rx 0 (inMode .stage) → irqOn s .rx 0 = false ∧ 0 = (ring s .rx 0).head) ∧
    (∀ s, s = withRing .evt 0 { active := true, stopping := true } (inMode .stage) → RegsCanonical s ∧ hostOpen s = true ∧
      (ring s .evt 0).stopping = true ∧ (ring s .rx 0).active = false) ∧
    (∀ s, s = withRing .rx 0 { active := true, armed := true, mod := 0x100, holdFrom := some 0 }
        (inModeWith .stage [(ringRegs .rx 0 + 8, 0x40)]) →
      RegsCanonical s ∧ 0 < kindCount .rx ∧ (ring s .rx 0).holdFrom = some 0 ∧ (ring s .rx 0).armed = true ∧
      0 < fld 19 8 (ring s .rx 0).mod ∧ irqOn s .rx 0 = true) := by
  repeat' apply And.intro
  all_goals intro s h; subst h; repeat' apply And.intro
  all_goals first | decide +kernel | (with_reducible refine canonical_of ?_; decide +kernel)

/-! ## Witnesses: images and protection -/

/-- An image of one section of a type and body, a comment of 28 bytes less the body and the trailer (R129, R130). -/
def imageOf (typ : Nat) (body : List Byte) : List Byte :=
  let sect (t : Nat) (b : List Byte) := toLE 4 t ++ toLE 4 b.length ++ toLE 4 (crc32 b) ++ toLE 4 0 ++ b
  let head := toLE 4 0x53494E53 ++ toLE 4 1 ++ toLE 4 128 ++ toLE 4 2 ++ toLE 8 0 ++ toLE 4 0x8256 ++
    List.replicate 32 (0 : Byte)
  let all := head ++ toLE 4 (crc32 head) ++ sect typ body ++ sect 5 (List.replicate (28 - body.length) 0)
  all ++ toLE 4 (crc32 all)

/-- The image of a commit alone, and the image of one staged word. -/
def commitImage : List Byte := imageOf 3 []
def recImage : List Byte := imageOf 1 (toLE 4 R.recCfg ++ toLE 4 1 ++ toLE 4 5)

/-- STAGE with the image at address 4,096 of host memory and in slot 3. -/
def imageState (img : List Byte) : State :=
  { withBytes img (inModeWith .stage [(R.glbImageAddr, 4096)]) with
    mram := { State.reset.mram with slots := [{}, {}, {}, { valid := true, bytes := img }] } }

/-- An image command that waits for nothing more. -/
def imageDone (cmd slot result : Nat) : State :=
  { inMode .stage with img := { busy := some { cmd := cmd, slot := slot, result := result, image := commitImage } } }

/-- The check of an image passes with these steps. -/
def checksTo (s : State) (img : List Byte) (steps : List ImageStep) : Bool :=
  match checkImage s img with
  | .ok x => decide (x = steps)
  | .error _ => false

theorem checksTo_ok {s : State} {img : List Byte} {steps : List ImageStep} (h : checksTo s img steps = true) :
    checkImage s img = .ok steps := by
  unfold checksTo at h
  split at h <;> simp_all

/-- The check of an image fails with this RESULT and section. -/
def checkFails (s : State) (img : List Byte) (e : Nat × Nat) : Bool :=
  match checkImage s img with
  | .ok _ => false
  | .error x => decide (x = e)

theorem checkFails_error {s : State} {img : List Byte} {e : Nat × Nat} (h : checkFails s img e = true) :
    checkImage s img = .error e := by
  unfold checkFails at h
  split at h <;> simp_all

theorem witness_ImageSlots :
    (3 < 4 ∧ imgOpen (imageState commitImage) = true ∧ (imgSlot (imageState commitImage) 3).valid = true ∧
      (imgSlot (imageState commitImage) 0).valid = false) ∧
    (∀ s, s = hostWrote [(4096, 0x53)] (imageState commitImage) →
      checkImage s (hostImage s) = .ok [.commit 0]) ∧
    (checkImage (inMode .stage) (hostImage (inMode .stage)) = .error (1, 255)) ∧
    ((imageDone 2 3 0).img.busy.isSome = true ∧ ((imageDone 2 3 0).img.busy.map fun b => (b.todo, b.waiting)) = some ([], none)) ∧
    ((imageDone 4 0 12).img.busy.isSome = true) := by
  refine ⟨by decide +kernel, ?_, checkFails_error (by decide +kernel), by decide +kernel, by decide +kernel⟩
  intro s h; subst h; exact checksTo_ok (by decide +kernel)

/-- What LOAD_APPLY finds: the image in host memory, and the state once its DMA is counted. -/
def loadState : State := imageState commitImage
def loadCounted : State := pmuEv 29 2 none none (hostImage loadState).length loadState

theorem witness_ImageApplies :
    (imgOpen loadState = true ∧ applyAllowed loadState = true ∧
      checkImage loadCounted (hostImage loadState) = .ok [.commit 0] ∧
      commitRefusal loadCounted true = none) ∧
    (imgOpen (imageState recImage) = true ∧ applyAllowed (imageState recImage) = true ∧ 3 < 4 ∧
      (imgSlot (imageState recImage) 3).valid = true ∧
      checkImage (imageState recImage) (imgSlot (imageState recImage) 3).bytes = .ok [.reg 0 R.recCfg 5] ∧
      shutUnit (imageState recImage) R.recCfg = none ∧ regAt R.recCfg = some recCfgHit ∧ recCfgHit.row.cls = .c ∧
      recCfgHit.row.wide = false ∧ unusedPort (imageState recImage) recCfgHit = false ∧ RegsCanonical (imageState recImage)) ∧
    (checkImage (inMode .stage) (hostImage (inMode .stage)) = .error (1, 255)) ∧
    (imgOpen (inMode .run) = true ∧ applyAllowed (inMode .run) = false) ∧
    (imgOpen (inMode .stage) = true ∧ applyAllowed (inMode .stage) = true ∧ (imgSlot (inMode .stage) 3).valid = false) := by
  repeat' apply And.intro
  all_goals first
    | decide +kernel
    | exact checksTo_ok (by decide +kernel)
    | exact checkFails_error (by decide +kernel)
    | (with_reducible refine canonical_of ?_; decide +kernel)

/-- Both keys, and a fresh nonce. -/
def keyO : List Byte := List.replicate 32 1
def keyW : List Byte := List.replicate 32 2
def keyed2 (m : Mode) : State :=
  { inMode m with prot := { State.reset.prot with ko := some keyO, kw := some keyW, nonceFresh := true } }

/-- The operator's MAC over the digest of the protection commit stands in PRT_OP_MAC. -/
def macSet : State :=
  withRegs [(R.prtOpMac 0, 2203666770), (R.prtOpMac 1, 2780523420), (R.prtOpMac 2, 2091591802), (R.prtOpMac 3, 3318230808),
    (R.prtOpMac 4, 4048994506), (R.prtOpMac 5, 2844953825), (R.prtOpMac 6, 1308139934), (R.prtOpMac 7, 4051016455)]
    (keyed2 .stage)

/-- A pending change of an item, with the warden's MAC over its digest in W_CONFIRM. -/
def pendingOf (item count : Nat) : Pending := ⟨item, count, List.replicate count 3, 0, List.replicate 32 4, 0⟩
def confirmSet (item count : Nat) : State :=
  { keyed2 .stage with
    prot := { (keyed2 .stage).prot with pending := some (pendingOf item count) },
    side := { State.reset.side with
      confirm := [2087624310, 2906805394, 2565348767, 3914615771, 2688897446, 436117496, 462197142, 1245461883] } }

theorem witness_ProtectedChanges :
    (hostOpen (inMode .stage) = true) ∧
    (∀ s, s = macSet → hostOpen s = true ∧ s.prot.pending = none ∧ s.prot.ko = some keyO ∧ s.prot.kw = some keyW ∧
      s.prot.nonceFresh = true ∧ 1 < 256 ∧ 31 < 32 ∧ itemOk s 1 31 = true ∧ regBytes s R.prtOpMac 8 =
        hmac keyO (sha256 (digestRecord s.dev.uniqueId s.prot.nonce 1 (stagedValues s 1 31)))) ∧
    (∀ s, s = keyed2 .stage → itemOk s 2 16 = true ∧ itemOk s 5 1 = true ∧ regBytes s R.prtOpMac 8 ≠
        hmac keyO (sha256 (digestRecord s.dev.uniqueId s.prot.nonce 2 (stagedValues s 2 16)))) ∧
    (∀ s, s = { confirmSet 1 18 with elapsed := windowLen - 1 } → s.prot.pending = some (pendingOf 1 18) ∧
      s.elapsed < (pendingOf 1 18).opened + windowLen ∧ hostOpen s = true ∧ windowOpen s (wardenParty s) = true) ∧
    (∀ s, s = inMode .stage → s.prot.pending = none ∧ s.prot.ko = none ∧ itemOk (keyed2 .stage) 0 0 = false) ∧
    (∀ s, s = { keyed2 .stage with prot := { (keyed2 .stage).prot with nonceFresh := false } } → itemOk s 1 18 = true ∧
      s.prot.nonceFresh = false) ∧
    (∀ item ∈ [1, 7, 8], ∀ s, s = confirmSet item 8 → s.prot.pending = some (pendingOf item 8) ∧ s.prot.kw = some keyW ∧
      bytesOfWords s.side.confirm = hmac keyW (pendingOf item 8).digest) ∧
    (∀ s, s = { confirmSet 7 8 with side := State.reset.side } → s.prot.pending = some (pendingOf 7 8) ∧
      bytesOfWords s.side.confirm ≠ hmac keyW (pendingOf 7 8).digest) ∧
    (∀ s, s = inMode .stage → RegsCanonical s ∧ windowOpen s .side = true ∧ Party.side ≠ wardenParty s) := by
  repeat' apply And.intro
  · decide +kernel
  · intro s h; subst h; decide +kernel
  · intro s h; subst h; decide +kernel
  · intro s h; subst h; decide +kernel
  · intro s h; subst h; decide +kernel
  · intro s h; subst h; decide +kernel
  · intro item hi s h; subst h; simp only [List.mem_cons, List.mem_nil_iff, or_false] at hi
    rcases hi with rfl | rfl | rfl <;> decide +kernel
  · intro s h; subst h; decide +kernel
  · intro s h; subst h; exact ⟨canonical_of (by decide +kernel), by decide +kernel, by decide +kernel⟩

theorem witness_KeysAndZeroisation :
    (∀ s, s = inMode .stage → hostOpen s = true ∧ s.prot.vaultBlocked = false ∧ s.mram.vaultKo = none ∧
      s.mram.vaultKw = none ∧ windowOpen s (wardenParty s) = true ∧ s.md.mode = .stage ∧ regsWf s.regs = true ∧
      regionLocked s (R.mrmFaultAck / 0x10000) = false ∧ bit 0 (1 : Word).toNat = true) ∧
    (∀ s, s = { inMode .stage with mram := { State.reset.mram with vaultKo := some keyO, vaultKw := some keyW } } →
      s.prot.vaultBlocked = false ∧ s.mram.vaultKo ≠ none ∧ s.mram.vaultKw ≠ none) ∧
    (∀ s, s = { inMode .stage with prot := { State.reset.prot with vaultBlocked := true } } → hostOpen s = true ∧
      s.prot.vaultBlocked = true) ∧ Jtag.debug ≠ .zeroiseAll ∧ bit 0 (2 : Word).toNat = false ∧
    ((0xA55AC3C2 : Word) ≠ 0xA55AC3C3 ∧ (inMode .run).md.mode ≠ .stage) := by
  repeat' apply And.intro
  all_goals first | decide +kernel | (intro s h; subst h; decide +kernel)

/-! ## Witnesses: lanes, Tsuip, ports -/

/-- STAGE with the last quad in a mode, its lanes good since time 0, and with a port. -/
def quadState (mode : Nat) (x : Port) (s : State) : State :=
  let good : Lane := { lock := true, goodSince := some 0 }
  setPort 252 x (setLane 255 good (setLane 254 good (setLane 253 good (setLane 252 good
    (setQuad 63 { refOk := true, pllLock := true, mode := mode } s)))))

/-- Port 252 as a Tsuip ×4 port in a training state. -/
def tsuip (t : Ts) : State := quadState 6 { ts := t } (inMode .stage)

def laneBusy (c : Nat) : State := setLane 255 { cmd := c } (inMode .stage)
def cached : State := { inMode .stage with mram := { State.reset.mram with cache := { headerOk := true } } }

theorem witness_Lanes :
    (255 < 256 ∧ (inMode .stage).md.mode ≠ .reset) ∧
    (RegsCanonical (inMode .stage) ∧ (lane (inMode .stage) 255).los = false ∧ (quad (inMode .stage) (255 / 4)).mode = 0 ∧
      (port (inMode .stage) (portOfLane (inMode .stage) 255)).up = false ∧ (lane (inMode .stage) 255).lock = false) ∧
    (∀ s, s = quadState 8 { up := true } (inMode .run) → 252 < 256 ∧ s.md.mode ≠ .reset ∧ (quad s (252 / 4)).mode = 8 ∧
      rxLane s (252 / 4) (logicalOf s 252) = 252 ∧ (port s (portOfLane s 252)).up = true) ∧
    (255 < 256 ∧ pf0Open (R.serLaneCmd (255 / 4) (255 % 4)) cached ∧ laneCmdOk cached 255 = true ∧
      (lane cached 255).cmd = 0 ∧ (quad cached (255 / 4)).failed = false ∧ cached.mram.cache.headerOk = true ∧
      255 ∉ cached.mram.cache.badLanes) ∧
    (pf0Open (R.serLaneCmd (255 / 4) (255 % 4)) (laneBusy 3) ∧ (lane (laneBusy 3) 255).cmd ≠ 0 ∧
      (lane (laneBusy 3) 255).cmd = 3 ∧ (lane (laneBusy 4) 255).cmd = 4 ∧ RegsCanonical (laneBusy 3)) ∧
    (pf0Open (R.serLaneCmd (255 / 4) (255 % 4)) (inMode .stage) ∧ laneCmdOk (inMode .stage) 255 = true ∧
      (inMode .stage).mram.cache.headerOk = false) ∧
    (∀ s, s = setQuad 63 { failed := true } (inMode .stage) → pf0Open (R.serLaneCmd (255 / 4) (255 % 4)) s ∧
      laneCmdOk s 255 = true ∧ (lane s 255).cmd = 0 ∧ (quad s (255 / 4)).failed = true) ∧
    (255 < 256 ∧ RegsCanonical (laneBusy 1) ∧ (lane (laneBusy 1) 255).cmd = 1 ∧ (lane (laneBusy 2) 255).cmd = 2) := by
  repeat' apply And.intro
  all_goals first
    | decide +kernel
    | (with_reducible refine canonical_of ?_; decide +kernel)
    | (intro s h; subst h; decide +kernel)
    | (intro s h; subst h; repeat' apply And.intro
       all_goals decide +kernel)

theorem witness_PortSignals :
    (15 < 16 ∧ (inMode .stage).md.mode ≠ .reset ∧ 63 / 4 = 15 ∧ 59 / 4 ≠ 15) ∧
    (∀ s, s = setQuad 63 { mode := 1 } (inMode .stage) → 252 < 256 ∧ portMode s 252 = 1 ∧ s.md.mode ≠ .reset ∧
      (quad s (252 / 4)).refOk = false ∧ (port s 252).up = false ∧ RegsCanonical s) := by
  refine ⟨by decide +kernel, ?_⟩
  intro s h; subst h; repeat' apply And.intro
  all_goals first | decide +kernel | (with_reducible refine canonical_of ?_; decide +kernel)

/-- The copies of an ordered set on the four lanes of a quad, each with its CRC-8; of a DSK set, each with its lane's number. -/
def setOf (bs : List Byte) : OrdSet := ⟨(List.range 4).map fun i => (i, bs ++ [BitVec.ofNat 8 (crc8 bs)])⟩
def dskOf (w ack good : Nat) : Dsk :=
  let bs (i : Nat) : List Byte := [BitVec.ofNat 8 (i + w * 4 + ack * 16), BitVec.ofNat 8 good, 9]
  ⟨⟨(List.range 4).map fun i => (i, bs i ++ [BitVec.ofNat 8 (crc8 (bs i))])⟩, [], true⟩

theorem witness_TsuipReceives :
    (portTsuip (tsuip { st := 1 }) 252 = true ∧ RegsCanonical (tsuip { st := 1 }) ∧ 1 ≤ (tsOf (tsuip { st := 1 }) 252).st ∧
      (tsOf (tsuip { st := 1 }) 252).st ≠ 4 ∧ dskContent ⟨[(0, [1, 2, 3, 4])]⟩ = none ∧
      setContent (tsuip { st := 1 }) 252 3 ⟨[(0, [1, 2, 3, 4])]⟩ = none ∧ setContent (tsuip { st := 1 }) 252 23 ⟨[]⟩ = none ∧
      setContent (tsuip { st := 1 }) 252 6 ⟨[(4, [])]⟩ = none ∧ 0 ≤ (tsuip { st := 1 }).now) ∧
    ((dskContent (dskOf 2 1 15).set).isSome = true ∧ (tsOf (tsuip { st := 1 }) 252).st = 1 ∧
      (∃ c ∈ (dskOf 2 1 15).set.copies, (lane (tsuip { st := 1 }) (4 * (252 / 4) + c.1)).lock = true)) ∧
    (∀ s, s = tsuip { st := 2, ackedWidth := 4 } → ((tsOf s 252).st = 2 ∧ (tsOf s 252).ackedWidth = 4) ∧ ∀ bs, dskContent (dskOf 2 1 15).set = some bs →
      bit 4 (byteAt bs 0) = true ∧ dskWidth bs = 4 ∧
        dskWidth bs ≤ tsProposal (tsLearn 252 (dskOf 2 1 15).set s) 252 (byteAt bs 1 % 16)) ∧
    (∀ s, s = tsuip { st := 5, width := 4, ackedWidth := 2 } →
      ((tsOf s 252).st = 5 ∧ (tsOf s 252).ackedWidth = 2 ∧ (port s 252).sending = none) ∧ ∀ bs, dskContent (dskOf 1 1 3).set = some bs →
      bit 4 (byteAt bs 0) = true ∧ dskWidth bs = 2 ∧ dskWidth bs ≤ tsProposal s 252 (byteAt bs 1 % 16)) ∧
    (∀ s, s = tsuip { st := 4, width := 4, inUse := 15 } → (tsOf s 252).st = 4 ∧
      (∀ i < 4, tsLaneFailed (tsMarkers 252 (dskOf 1 1 3) s) 252 i = false) ∧ 2 < (tsOf s 252).width) ∧
    (∀ s, s = tsuip { st := 4, inited := 128, limit := [0, 0, 0, 0, 0, 0, 0, 0xFFFF] } → ∀ d, d = setOf (7 :: toBE 2 0x7FFE) →
      setContent s 252 3 d = some (7 :: toBE 2 0x7FFE ++ [BitVec.ofNat 8 (crc8 (7 :: toBE 2 0x7FFE))]) ∧
      bit 3 (byteAt (7 :: toBE 2 0x7FFE) 0) = false ∧ bit 7 (tsOf s 252).inited = true ∧ bit 6 (tsOf s 252).inited = false ∧
      0 < (0x7FFE + 65536 - nth 0 (tsOf s 252).limit 7) % 65536 ∧ (0x7FFE + 65536 - nth 0 (tsOf s 252).limit 7) % 65536 < 32768) ∧
    (∀ s, s = tsuip { st := 4 } → (setContent s 252 23 (setOf (List.replicate 23 5))).isSome = true ∧
      (setContent s 252 6 (setOf (List.replicate 6 5))).isSome = true) := by
  repeat' apply And.intro
  all_goals first
    | decide +kernel
    | (with_reducible refine canonical_of ?_; decide +kernel)
    | (intro s h; subst h; decide +kernel)
    | (intro s h; subst h; exact ⟨by decide +kernel, by decide +kernel⟩)
    | (intro s h; subst h; exact ⟨by decide +kernel, by decide +kernel, by decide +kernel⟩)
    | (intro s h d hd; subst h; subst hd; decide +kernel)
    | (intro s h; subst h; refine ⟨by decide +kernel, ?_⟩; intro bs hb; revert hb
       generalize hd : dskContent _ = o; intro hb; subst hb; simp only [← Option.some_inj.mp hd.symm]; decide +kernel)

/-- A Tsuip port at width 2 whose other two lanes have been stable for long. -/
def widenable : State :=
  { setRg (tsReg R.serTsCfg 252 + viewSize) 1 (tsuip { st := 4, width := 2, inUse := 3 }) with now := nsT 2000000000 }

theorem witness_TsuipTraining :
    (∀ n ∈ [2, 3, 5], (tsOf (tsuip { st := n, timer := some 0 }) 252).st = n ∧
      (tsOf (tsuip { st := n, timer := some 0 }) 252).timer = some 0 ∧ (tsOf (tsuip { st := n, timer := some 0 }) 252).initSeen ≠ 0xFF) ∧
    (∀ s, s = tsuip { st := 3, timer := some 0, initSeen := 0xFF } → (tsOf s 252).st = 3 ∧ (tsOf s 252).timer = some 0 ∧
      (tsOf s 252).initSeen = 0xFF) ∧
    (∀ s, s = tsuip { st := 4, width := 4, inUse := 15 } → portTsuip s 252 = true ∧ (tsOf s 252).st = 4 ∧
      (∀ i < 4, tsLaneFailed (tsSeen 252 [⟨3, [0x3FF], 1, 0, 0⟩] s) 252 i = false) ∧ 3 < tsCfgWidth s 252 ∧
      tsLaneFailed (tsSeen 252 [⟨3, [], 2, 0, 0⟩] s) 252 3 = true ∧ 0 ∈ tsGood (tsSeen 252 [⟨3, [], 2, 0, 0⟩] s) 252 ∧
      tsLaneFailed (tsSeen 252 [⟨3, [], 2, 0, 0⟩] s) 252 0 = false ∧
      (∀ i ∈ tsGood (tsSeen 252 [⟨0, [], 2, 0, 0⟩, ⟨1, [], 2, 0, 0⟩, ⟨2, [], 2, 0, 0⟩, ⟨3, [], 2, 0, 0⟩] s) 252,
        tsLaneFailed (tsSeen 252 [⟨0, [], 2, 0, 0⟩, ⟨1, [], 2, 0, 0⟩, ⟨2, [], 2, 0, 0⟩, ⟨3, [], 2, 0, 0⟩] s) 252 i = true)) ∧
    (tsStableAt widenable 252 ≠ [] ∧ portTsuip widenable 252 = true ∧ bit 0 (cu widenable (tsReg R.serTsCfg 252)) = true ∧
      (∀ u, u = (match tsStableAt widenable 252 with | [] => widenable | t :: ts => reach (ts.foldl min t) widenable) →
        tsWider u 252 = true)) ∧
    (RegsCanonical widenable ∧ pf0Open (tsReg R.serTsCmd 252) widenable ∧ tsWider widenable 252 = true) ∧
    (pf0Open (tsReg R.serTsCmd 252) (tsuip { st := 1 }) ∧ tsWider (tsuip { st := 1 }) 252 = false) := by
  repeat' apply And.intro
  all_goals first
    | decide +kernel
    | (with_reducible refine canonical_of ?_; decide +kernel)
    | (intro s h; subst h; decide +kernel)

/-- A Tsuip port in ACTIVE with a mark queued for an edge at a time. -/
def marked (t : Nat) : State :=
  quadState 6 { ts := { st := 4, width := 4 }, tsOut := { marks := [(3, 7, t)] } } { inMode .run with now := 9 }

theorem witness_TsuipSends :
    (tsGap (tsuip { st := 1 }) 252 = true ∧ tsActive (tsuip { st := 1 }) 252 = false ∧ tsGap (marked 10) 252 = true ∧
      tsActive (marked 10) 252 = true ∧ 3 ≤ (tsOf (marked 10) 252).st) ∧
    (∀ s, s = tsuip { st := 4, returned := [0, 0, 0, 0, 0, 0, 0, 1], advertised := (List.range 8).map (tsWindow (tsuip {}) 252) } →
      tsLimit s 252 7 ≠ nth 0 (tsOf s 252).advertised 7 ∧ tsLimit s 252 0 = nth 0 (tsOf s 252).advertised 0 ∧
      (tsOf s 252).st ≠ 3 ∧ bit 0 (cuF s (tsReg R.serTsCfg2 252) 23 16) = true) ∧
    ((port (tsMarksDue 252 (marked 10)) 252).tsOut.marks ≠ []) ∧
    ((port (marked 9) 252).tsOut.marks = [(3, 7, 9)] ∧ 9 ≤ (marked 9).now ∧ RegsCanonical (marked 9) ∧
      cu (marked 9) (tsReg R.serTsCycEn 252) = 0 ∧ 1 ≤ (tsOf (marked 9) 252).st ∧
      hostOpen (marked 9) = true ∧ portTsuip (marked 9) 252 = true ∧ unusedNumber (marked 9) 252 = false ∧
      unusedNumber (marked 9) 253 = true ∧ portTsuip (inMode .run) 255 = false) := by
  repeat' apply And.intro
  all_goals first
    | decide +kernel
    | (with_reducible refine canonical_of ?_; decide +kernel)
    | (intro s h; subst h; decide +kernel)

/-- A frame of 60 bytes with its FCS; a PAUSE frame with its quanta. -/
def plainFrame : RxFrame :=
  let b : List Byte := List.replicate 60 0x11
  ⟨b ++ fcsBytes b, 0, false, false, false, 1, 0, [], [], 0, 0⟩
def pauseFrame (quanta : Nat) : RxFrame :=
  let b : List Byte := toBE 6 0x0180C2000001 ++ toBE 6 2 ++ toBE 2 0x8808 ++ toBE 2 1 ++ toBE 2 quanta ++ List.replicate 42 0
  ⟨b ++ fcsBytes b, 0, false, false, false, 1, 0, [], [], 0, 0⟩

/-- Port 252 at 10 Gb/s, up, with its pause taken. -/
def upState : State :=
  withRegs [(R.macPauseCfg 252 + viewSize, 5), (R.macCfg 252 + viewSize, 1)] (quadState 8 { up := true } (inMode .run))

/-- That port once the last bit of a frame is in. -/
def received (f : RxFrame) : State := laneCounts 252 f (reach (rxEnds upState 252 f) upState)

theorem witness_MacReceives :
    (rxTaken upState 252 plainFrame = some false ∧ plainFrame.bytes ≠ [] ∧ upState.md.fenced = false ∧ portTsuip upState 252 = false ∧
      be16 plainFrame.bytes 12 ≠ 0x8808) ∧
    (rxTaken upState 252 (pauseFrame 1) = some false ∧ be16 (pauseFrame 1).bytes 12 = 0x8808 ∧
      (∀ f, f = { pauseFrame 1 with coding := (pauseFrame 1).coding || receptionErrors upState 252 (pauseFrame 1) } → rxErrors f (fld 13 0 (cuAt (received (pauseFrame 1)) (rxStampAt (received (pauseFrame 1)) 252 0)
        (R.macMaxFrame 252))) = 0) ∧
      macControl (received (pauseFrame 1)) 252 (pauseFrame 1) (rxStampAt (received (pauseFrame 1)) 252 0) = some 1 ∧
      kvSorted (port upState 252).pausedTill = true ∧ 0 < be16 (pauseFrame 1).bytes 16) ∧
    (macControl (received (pauseFrame 0)) 252 (pauseFrame 0) (rxStampAt (received (pauseFrame 0)) 252 0) = some 1 ∧
      be16 (pauseFrame 0).bytes 16 = 0) ∧
    (rxTaken (inMode .run) 252 plainFrame = none) := by
  repeat' apply And.intro
  all_goals first | decide +kernel | (intro f h; subst h; decide +kernel)

/-- Port 252 with pause, repeat and verification under way. -/
def portWith (x : Port) : State := quadState 8 x (inMode .run)
def repeating : State :=
  { portWith { up := true, xoffOut := 0x80, xoffAt := [(7, 0)] } with md := { (inMode .drain).md with draining := true } }
def preempting : State := withRegs [(R.macPreemptCfg 252 + viewSize, 3)] (portWith { up := true })

theorem witness_PauseAndVerification :
    (kvSorted (port (portWith { pausedTill := [(8, 5)] }) 252).pausedTill = true ∧
      kvGet 8 (port (portWith { pausedTill := [(8, 5)] }) 252).pausedTill = some 5) ∧
    ((port (portWith { up := true, dueXoff := 1 }) 252).up = true ∧ (port (portWith { up := true, dueXoff := 1 }) 252).dueXoff ≠ 0 ∧
      (port (portWith { up := true, dueXoff := 1 }) 252).sending = none ∧
      overdue (mediumFree 252 (portWith { up := true, dueXoff := 1 })) 252 = none) ∧
    (7 < 8 ∧ kvGet 7 (port repeating 252).xoffAt = some 0 ∧ (port repeating 252).up = true ∧
      bit 7 (port repeating 252).xoffOut = true ∧ repeating.md.draining = true) ∧
    (252 < 256 ∧ pf0Open (R.macCmd 252) preempting ∧ (port preempting 252).up = true ∧ portPresent preempting 252 = true ∧
      bit 1 (cu preempting (R.macPreemptCfg 252)) = true ∧ modePreempts (portMode preempting 252) = true ∧
      modePreempts (portMode (tsuip { st := 4 }) 252) = false) ∧
    (∀ n ∈ [2, 3], ∀ s, s = portWith { up := true, verify := 2, tries := n, verifyAt := some 0 } → RegsCanonical s ∧
      (port s 252).verifyAt = some 0 ∧ (port s 252).up = true ∧ (port s 252).verify = 2 ∧ (port s 252).tries = n) := by
  refine ⟨by decide +kernel, by decide +kernel, by decide +kernel, ?_, ?_⟩
  · repeat' apply And.intro
    all_goals decide +kernel
  · intro n hn s h; subst h; simp only [List.mem_cons, List.mem_nil_iff, or_false] at hn
    rcases hn with rfl | rfl <;> exact ⟨canonical_of (by decide +kernel), by decide +kernel⟩

/-- Port 252 with a good link and its enable bit; holding frames after a loss. -/
def linkGoodState : State :=
  withRegs [(R.macCfg 252 + viewSize, 1)] (portWith { goodSince := some 0 })
def holdingState : State := setQueue 252 0 { copies := [⟨1, 252, 0, true, 0, false, none, none, false, false, false, false, none⟩] }
  (portWith { holding := true })

theorem witness_LinkTimers :
    ((port linkGoodState 252).goodSince = some 0 ∧ (port linkGoodState 252).up = false ∧ portWanted linkGoodState 252 = true) ∧
    ((port holdingState 252).holding = true ∧ (port holdingState 252).up = false ∧ 252 < 256 ∧
      pf0Open (R.macCmd 252) holdingState) ∧
    (∀ q, ∀ c ∈ (queue holdingState 252 q).copies, c.port = 252 ∧ c.queue = q) ∧
    ((port holdingState 252).holdFrom + msT (cuF holdingState (R.macLinkCfg 252) 10 0) = msT 50 ∧
      (∀ m, msT 50 ≤ msT m → 50 ≤ m) ∧ holdingState.tim.stopped = false ∧ holdingState.now ≤ msT 50 ∧
      msT 50 < Config.timeMod) ∧
    ((port (portWith {}) 252).holding = false ∧ pf0Open (R.macCmd 252) (portWith {})) := by
  refine ⟨by decide +kernel, ?_, ?_, ⟨by decide +kernel, ?_, by decide +kernel⟩, ?_⟩
  · repeat' apply And.intro
    all_goals decide +kernel
  · intro q c hc
    by_cases h : q = 0
    · subst h; simp [holdingState] at hc; subst hc; exact ⟨rfl, rfl⟩
    · rw [holdingState, Laws.queue_setQueue_ne (by omega)] at hc
      have hn : queue (portWith { holding := true }) 252 q = {} := rfl
      rw [hn] at hc; simp at hc
  · intro m h
    unfold msT nsT Config.nsUnit at h; omega
  · repeat' apply And.intro
    all_goals decide +kernel

/-! ## Witnesses: the time base -/

/-- The loop on a reference, in use; one that is present or lost. -/
def sourced (n : Nat) (t : Tim) : State := { withRegs [(R.timCfg + viewSize, n)] (inMode .run) with tim := t }

/-- RUN with a register. -/
def runWith (l : List (Nat × Nat)) : State := inModeWith .run l

theorem witness_TimeCommands :
    (pf0Open R.timCmd (inMode .stage) ∧ timSource (inMode .stage) ≠ 2 ∧ rgF (runWith [(R.timSetNs, 999999999)]) R.timSetNs 29 0 <
      Config.nsPerSec ∧ timSource (runWith []) ≠ 2) ∧
    (Config.nsPerSec ≤ rgF (runWith [(R.timSetNs, 1000000000)]) R.timSetNs 29 0 ∧ pf0Open R.timCmd (runWith [(R.timSetNs, 1000000000)])) ∧
    (sgn 32 (rg (runWith [(R.timSlew, 2 ^ 32 - 1000000000)]) R.timSlew) = -1000000000 ∧
      sgn 32 (rg (runWith [(R.timSlew, 1000000000)]) R.timSlew) = 1000000000 ∧
      1000000000 < sgn 32 (rg (runWith [(R.timSlew, 1000000001)]) R.timSlew)) ∧
    ((inMode .stage).tim.jump = none ∧ (sourced 0 { jump := some ⟨5, some 9, 0, false⟩ }).tim.jump ≠ none ∧
      timSource (sourced 0 { jump := some ⟨5, some 9, 0, false⟩ }) ≠ 2) ∧
    (timSource (sourced 2 {}) = 2 ∧ pf0Open R.timCmd (sourced 2 {})) := by
  repeat' apply And.intro
  all_goals decide +kernel

theorem witness_JumpsSlewsAdjustments :
    (∀ s, s = { readyToRun with tim := { jump := some ⟨5, some 9, 0, false⟩ },
                                md := { readyToRun.md with tRun := some 100 }, gen := { readyToRun.gen with effectAt := some 50 } } →
      s.tim.jump = some ⟨5, some 9, 0, false⟩ ∧ (⟨5, some 9, 0, false⟩ : Jump).inRun = false ∧ s.md.mode = .stage ∧
      s.md.tRun.isSome = true ∧ s.gen.effectAt.isSome = true) ∧
    ((sourced 0 { slewLeft := -1 }).tim.slewLeft ≠ 0 ∧ 0 < slewRate (sourced (2 ^ 24) { slewLeft := -1 }) ∧
      (sourced (2 ^ 24) { slewLeft := -1 }).tim.slewLeft ≠ 0 ∧
      (sourced 0 {}).tim.stopped = false) ∧
    (kvSorted (sourced 0 {}).lat.lowHeld = true ∧ pf0Open R.timFreqAdj (sourced 0 {}) ∧ pf0Open (R.timFreqAdj + 4) (sourced 0 {}) ∧
      timSource (sourced 0 {}) = 0 ∧ timSource (sourced 1 {}) ≠ 0 ∧ pf0Open (R.timFreqAdj + 4) (sourced 1 {})) ∧
    (RegsCanonical (runWith [(R.timFault, 31)]) ∧ pf0Open R.timFault (runWith [(R.timFault, 31)]) ∧
      timHolding (runWith [(R.timFault, 31)]) = 0 ∧ rg (runWith [(R.timFault, 31)]) R.timFault < 32 ∧
      rg (runWith [(R.timFault, 31)]) R.timFault ≠ 0 ∧
      bit 3 (timHolding (runWith [(R.timFault, 31), (R.timCfg + viewSize, 0x11)])) = true ∧
      bit 3 (rg (runWith [(R.timFault, 31), (R.timCfg + viewSize, 0x11)]) R.timFault) = true ∧
      (0xFFFFFFFF : Word).toNat % 32 = 31 ∧ (32 : Word).toNat % 32 = 0) := by
  repeat' apply And.intro
  all_goals first | decide +kernel | (with_reducible refine canonical_of ?_; decide +kernel) | (intro s h; subst h; decide +kernel)

theorem witness_References :
    (RegsCanonical (inMode .wake) ∧ (inMode .wake).md.mode ≠ .reset ∧ loopUses (inMode .wake) true = false) ∧
    (loopUses (sourced 2 {}) true = true ∧ loopUses (sourced 1 {}) false = true ∧ -freqMax ≤ freqMax) ∧
    (∀ s, s = sourced 2 { holdover := true, refPresent := true } → s.tim.holdover = true ∧ loopUses s true = true ∧
      s.md.mode ≠ .reset ∧ s.tim.refPresent = true ∧ loopUses s false = true ∧ timSource s = 2 ∧ s.tim.ppsPresent = false) ∧
    ((sourced 2 { refBack := some 4 }).tim.refBack = some 4) ∧
    (1 ≤ timSource (sourced 1 {}) ∧ (sourced 1 {}).tim.holdover = false ∧ (sourced 1 {}).md.mode ≠ .reset) := by
  repeat' apply And.intro
  all_goals first
    | decide +kernel
    | (with_reducible refine canonical_of ?_; decide +kernel)
    | (intro s h; subst h; decide +kernel)

theorem witness_StampReads :
    (RegsCanonical (sourced 1 {}) ∧ (sourced 1 {}).md.mode ≠ .reset ∧ timSource (sourced 1 {}) ≠ 2 ∧
      (sourced 2 { holdover := true }).tim.holdover = true ∧
      hostOpen (sourced 1 {}) = true ∧ 7 < 8) ∧
    (timSource (sourced 2 {}) = 2 ∧ (sourced 2 {}).tim.holdover = false ∧ (sourced 2 {}).tim.jump = none ∧ secOffset (stampCut (nsT 5)) ≠ 0 ∧
      (secOffset (stampCut (nsT 5))).natAbs ≤ 1000000 ∧ 1000000 < (secOffset (stampCut (nsT 1000001))).natAbs ∧
      (inModeWith .stage [(R.timCfg + viewSize, 2)]).md.mode = .stage) ∧
    (255 < 256 ∧ (txStamps (sourced 0 { txf := [(255, { fifo := [[1, 2, 3, 4]] })] }) 255).fifo = [[1, 2, 3, 4]] ∧
      (txStamps (sourced 0 {}) 255).fifo = []) ∧
    (∀ s, s = setQuad 63 { mode := 7 } (sourced 0 { txf := [(254, { fifo := [[1, 2, 3, 4]] })] }) →
      (txStamps s 254).fifo = [[1, 2, 3, 4]] ∧ unusedNumber s 252 = false) ∧
    (15 < 16 ∧ (capUnit (sourced 0 { caps := [(15, { fifo := [[1, 2, 3, 4]] })] }) 15).fifo = [[1, 2, 3, 4]] ∧
      (capUnit (sourced 0 {}) 15).fifo = []) ∧
    ((sourced 0 {}).tim.stopped = false ∧ -Config.replicaBound ≤ 1 ∧ 1 ≤ Config.replicaBound) := by
  repeat' apply And.intro
  all_goals first
    | decide +kernel
    | (with_reducible refine canonical_of ?_; decide +kernel)
    | (intro s h; subst h; decide +kernel)

/-- Generator 31 on, with a period of 1 µs, and pin 15 as its output. -/
def cycling : State :=
  runWith [(R.timCgCfg 31 + viewSize, 1), (R.timCgPeriod 31 + viewSize, 1000), (R.timTioCfg 15 + viewSize, 1 + 31 * 4),
    (R.timPpsCfg + viewSize, 1)]
def pinOut : State := { cycling with pins := { cycling.pins with ppsOut := true, tioOut := [15] } }
def pulseDue : State := { cycling with tim := { cycling.tim with tioDue := [(15, 7)] } }

/-- Pin 15 as an input, every edge captured, with DEGLITCH of 4 ns. -/
def capturing : State := runWith [(R.timTioCfg 15 + viewSize, 0x80 + 3 * 2 ^ 8 + 4 * 2 ^ 10), (R.timCapStuck 15 + viewSize, 10)]

theorem witness_EdgesAndCaptures :
    (cycling.md.mode ≠ .reset ∧ cycling.tim.stopped = false ∧ bit 0 (cu cycling R.timPpsCfg) = true ∧ cycling.pins.ppsOut = false ∧
      nextSecond cycling.now < Config.timeMod ∧ pinOut.pins.ppsOut = true ∧ 15 ∈ pinOut.pins.tioOut) ∧
    (15 < 16 ∧ hostOpen cycling = true ∧ bit 0 (cu cycling (R.timTioCfg 15)) = true ∧ 15 ∉ cycling.pins.tioOut ∧
      cycling.tim.tioDue.find? (fun d => d.1 == 15) = none ∧ genOn cycling (fld 6 2 (cu cycling (R.timTioCfg 15))) = true ∧
      timeHeld cycling (tioPulse cycling 15).2 = false) ∧
    (pulseDue.tim.tioDue.find? (fun d => d.1 == 15) = some (15, 7)) ∧
    (31 < 32 ∧ genOn cycling 31 = true ∧ timeHeld cycling (edgeAt cycling 31 (nextEdge cycling 31)) = false) ∧
    (∀ s, s = { cycling with tim := { cycling.tim with jump := some ⟨0, none, 0, false⟩ } } →
      timeHeld s (edgeAt s 31 (nextEdge s 31)) = true) ∧
    (hostOpen capturing = true ∧ bit 7 (cu capturing (R.timTioCfg 15)) = true ∧ bit 0 (cu capturing (R.timTioCfg 15)) = false ∧
      fedUnit capturing 15 = false ∧ 3 < fld 19 10 (cu capturing (R.timTioCfg 15)) ∧
      fld 19 10 (cu capturing (R.timTioCfg 15)) ≤ 4 ∧ (capUnit capturing 15).stuck = false ∧ (capUnit capturing 15).last = none ∧
      (capUnit (setCap 15 { stuck := true } capturing) 15).stuck = true ∧ readsPin capturing 15 = true ∧
      cuF (reach 0 capturing) (R.timTioCfg 15) 9 8 = 3 ∧ (capUnit capturing 15).fifo.length < 16 ∧
      0 < cuF capturing (R.timCapStuck 15) 19 0) ∧
    (∀ s, s = withRegs [(R.timCapMinInt 15 + viewSize, 5)] (setCap 15 { last := some (nsT 1) } capturing) →
      (capUnit s 15).last = some (nsT 1) ∧ nsT 5 < nsT 1 + nsT (cuF (reach (nsT 5) s) (R.timCapMinInt 15) 29 0) ∧ RegsCanonical s) ∧
    (∀ s, s = withRegs [(R.timCgCfg 31 + viewSize, 1 + 15 * 2 ^ 6 + 2 ^ 5)] capturing → bit 7 (cu s (R.timTioCfg 15)) = true) ∧
    (RegsCanonical capturing ∧ readsPin (setCap 15 { activeSince := some 0 } capturing) 15 = true ∧ (capUnit (setCap 15 { activeSince := some 0 } capturing) 15).activeSince = some 0) := by
  repeat' apply And.intro
  all_goals first
    | decide +kernel
    | (with_reducible refine canonical_of ?_; decide +kernel)
    | (intro s h; subst h; decide +kernel)
    | (intro s h; subst h; exact ⟨by decide +kernel, by decide +kernel, canonical_of (by decide +kernel)⟩)

/-! ## Witnesses: frames of the host -/

/-- RUN with the PCIe link up and one ring running. -/
def linked (k : RingKind) (n : Nat) (r : Ring) : State :=
  { setRing k n r (inMode .run) with host := { (setRing k n r (inMode .run)).host with linkUp := true } }

/-- Transmit ring 63 with one descriptor at address 4,096: 60 bytes, with FIRST and LAST as given. -/
def txState (flags : Nat) : State :=
  withBytes (toLE 8 0x9000 ++ toLE 4 (60 + flags * 2 ^ 16) ++ List.replicate 20 0)
    (linked .tx 63 { active := true, base := 4096, tail := 1, cfg := 16 })

/-- A copy of frame 1, 64 bytes long, at the head of a queue of a port. -/
def copyOne (p q : Nat) : Copy := { frame := 1, port := p, queue := q, fwd := false }
def headCopy (p q : Nat) (s : State) : State :=
  setQueue p q { copies := [copyOne p q] } (setFrame 1 { bytes := List.replicate 64 0, holders := [p] } s)

theorem witness_HostFrames :
    (txOpen (txState 3) = true ∧ txTurnOf (txState 3) = some 63 ∧
      txOffer (txState 3) 63 = some ([[36864, 0, 60 + 3 * 2 ^ 16, 0, 0, 0, 0, 0]], 0) ∧
      emptyFor (txState 3) (txFrameLen [[36864, 0, 60 + 3 * 2 ^ 16, 0, 0, 0, 0, 0]]) = false) ∧
    (txOpen (txState 2) = true ∧ txTurnOf (txState 2) = some 63 ∧
      txOffer (txState 2) 63 = some ([[36864, 0, 60 + 2 * 2 ^ 16, 0, 0, 0, 0, 0]], 4)) ∧
    (∀ s, s = headCopy 256 7 (linked .rx 0 { active := true, size := 64, tail := 1, cfg := 1 }) → fenceShut s = false ∧
      (chosen s 256 fun q => (head s 256 q).any (rxReady s)).map (·.1) = some (copyOne 256 7) ∧ fenceShut (cellError 0 1 s) = false ∧
      fenceShut (cellError 3 1 s) = true ∧ (∀ v, v = cellError 2 1 s → fenceShut v = false ∧ rxRingOf v (copyOne 256 7) = 0 ∧
        rxBuffers v (copyOne 256 7) (ring v .rx 0) = 1 ∧ (ring v .rx 0).work = [] ∧ (ring v .rx 0).fetch < (ring v .rx 0).size ∧
        (kvGet 1 v.buf.frames).map (·.txRing) = some none)) ∧
    (∀ s, s = headCopy 258 7 (inMode .run) → fenceShut s = false ∧ fenceShut (cellError 1 1 s) = false ∧
      fenceShut (cellError 3 1 s) = true ∧ (chosen (reach (port s 258).busyTill s) 258 fun _ => true).map (·.1) = some (copyOne 258 7)) ∧
    (∀ s : State, s = { linked .evt 7 { active := true, tail := 1 } with
        host := { (linked .evt 7 { active := true, tail := 1 }).host with events := [(7, { backlog := [[1]] })] } } →
      (eventRing s 7).backlog = [[1]] ∧ (eventRing s 7).loss = false ∧ ringLive s .evt 7 = true ∧
      (ring s .evt 7).head ≠ (ring s .evt 7).tail) ∧
    (∀ s : State, s = linked .rdo 0 { active := true, tail := 1 } → hostOpen s = true ∧ ringLive s .rdo 0 = true ∧
      ringAvail (ring s .rdo 0) ≠ 0) ∧
    (∀ s : State, s = { inMode .run with host := { State.reset.host with readouts := [⟨0, [], none⟩] } } →
      s.host.readouts = [⟨0, [], none⟩]) := by
  repeat' apply And.intro
  all_goals first
    | decide +kernel
    | (intro s h; subst h; decide +kernel)
    | (intro s h; subst h; refine ⟨by decide +kernel, by decide +kernel, by decide +kernel, by decide +kernel, ?_⟩
       intro v hv; subst hv; decide +kernel)

/-! ## Witnesses: tables -/

/-- STAGE with one entry of each keyed table: a rule, an FDB entry, a route, a replication entry, live and staged. -/
def tables : State :=
  { inMode .stage with tab := { State.reset.tab with
      rules := [(5, { words := List.replicate 24 0, v0 := true, v1 := true })],
      routes := [⟨false, 8, 0x0A00000000000000, some 3, some 3⟩],
      repl := [(7, { w0 := 1, w1 := 2, v0 := true, v1 := true })],
      fdb := [((keySlots State.reset 9 1).headD 0, { mac := 9, fid := 1, info := 0, v0 := true, v1 := true })] } }

theorem witness_StreamAndRuleCommands :
    (tcmdReady strWrite (cmd [0xFFFE, 1, 2, 3, 4]) tables ∧ bodyWord (cmd [0xFFFE, 1, 2, 3, 4]) 0x08 % 65536 ≠ 0xFFFF) ∧
    (tcmdReady strRead (cmd [0x10005, 0, 0, 0, 0]) tables ∧ bodyWord (cmd [0x10005, 0, 0, 0, 0]) 0x08 % 65536 ≠ 0xFFFF) ∧
    (hgtKind 0xFFFF = some .filter ∧ hgtKind 0x10000 = some .meter ∧ hgtKind 0x20000 = some .recovery ∧
      hgtKind 0x247FF = some .gate ∧ fld 17 0 (bodyWord (longCmd 8 [0x247FF, 0]) 0x14) = 0x247FF) ∧
    (tcmdReady hgtWrite (longCmd 8 [0x247FF, 0]) tables ∧ dataBytes (longCmd 8 [0x247FF, 0]) =
      hgtBytes .gate (ofLE ((bufBytes (longCmd 8 [0x247FF, 0]) tables).take 4))) ∧
    (tcmdReady hgtRead (longCmd 520 [0x247FF, 0]) tables ∧ dataBytes (longCmd 520 [0x247FF, 0]) = 520) ∧
    (tcmdReady hgtReadCounters (longCmd 24 [0x247FF, 0]) tables ∧
      dataBytes (longCmd 24 [0x247FF, 0]) = 8 * (hgtCounters .gate 0x247FF tables).1.length) ∧
    (tcmdReady hgtUnblock (cmd [5, 0, 0, 0, 0]) tables ∧ tcmdReady hgtResetRcv (cmd [0x20000, 0, 0, 0, 0]) tables) ∧
    (keyed tables.tab.rules ∧ keyed tables.tab.tcamBad) ∧
    (tcmdReady clsWrite (longCmd 96 [0x10006, 1]) tables ∧ fld 10 0 (bodyWord (longCmd 96 [0x10006, 1]) 0x18) = 1 ∧
      (rulePositions tables (bodyWord (longCmd 96 [0x10006, 1]) 0x14) 1 false).toOption = some [[6]] ∧
      dataBytes (longCmd 96 [0x10006, 1]) = 96 ∧ ruleLive tables 6 (curPar tables) = false) ∧
    (tcmdReady clsInvalidate (cmd [0x30005, 2, 0, 0, 0]) tables ∧ (rulePositions tables
      (bodyWord (cmd [0x30005, 2, 0, 0, 0]) 0x08) (fld 10 0 (bodyWord (cmd [0x30005, 2, 0, 0, 0]) 0x0C)) false).toOption.isSome = true) ∧
    (tcmdReady clsRead (longCmd 96 [0x10005, 1]) tables ∧ tcmdReady clsReadHits (longCmd 8 [0x10005, 1]) tables ∧
      (rulePositions tables (bodyWord (longCmd 96 [0x10005, 1]) 0x14) 1 true).toOption = some [[5]]) := by
  repeat' apply And.intro
  all_goals first
    | decide +kernel
    | (with_reducible refine canonical_of ?_; decide +kernel)
    | (with_reducible refine keyed_of ?_; decide +kernel)

/-- The word of slot data that names the key of `tables`' entry, and one of a free key. -/
def oldKey : List Nat := [9, 0x10000]
def newKey : List Nat := [8, 0x10000]
def entrySlot : Nat := (keySlots State.reset 9 1).headD 0
def slotMoving : State := { tables with tab := { tables.tab with moving := [262143], movingTill := 5 } }

theorem witness_FdbLpmCommands :
    (tcmdReady fdbInsert (cmd (newKey ++ [0, 0, 0])) tables ∧ fdbValueOk (bodyWord (cmd (newKey ++ [0, 0, 0])) 0x10) = true ∧
      (bit 0 (bodyWord (cmd (newKey ++ [0, 0, 0])) 0x18) && (fdbFind tables (stagedPar tables)
        (bodyMac (cmd (newKey ++ [0, 0, 0]))) (bodyFid (cmd (newKey ++ [0, 0, 0])))).isSome) = false ∧
      (stageEntry { mac := bodyMac (cmd (newKey ++ [0, 0, 0])), fid := bodyFid (cmd (newKey ++ [0, 0, 0])), info := 0 }
        tables).isSome = true) ∧
    (tcmdReady fdbInsert (cmd (oldKey ++ [0, 0, 1])) tables ∧ bit 0 (bodyWord (cmd (oldKey ++ [0, 0, 1])) 0x18) = true ∧
      (fdbFind tables (stagedPar tables) (bodyMac (cmd (oldKey ++ [0, 0, 1]))) (bodyFid (cmd (oldKey ++ [0, 0, 1])))).isSome = true) ∧
    (tcmdReady fdbDelete (cmd (oldKey ++ [0, 0, 0])) tables ∧ tcmdReady fdbLookup (cmd (oldKey ++ [0, 0, 0x10000])) tables ∧
      (fdbFind tables 0 9 1).map (·.1) = some entrySlot ∧ (fdbFind tables 1 9 1).map (·.1) = some entrySlot ∧
      fld 16 16 (bodyWord (cmd (oldKey ++ [0, 0, 0x10000])) 0x18) = 1) ∧
    (tcmdReady fdbRead (cmd [262143, 0, 0, 0, 0]) tables ∧ tcmdReady fdbFlush (cmd [0, 0, 0, 0, 0]) tables ∧ keyed tables.tab.fdb ∧
      262143 ∉ tables.tab.moving ∧ 262143 ∈ slotMoving.tab.moving ∧ slotMoving.elapsed < slotMoving.tab.movingTill ∧
      tcmdReady fdbRead (cmd [262143, 0, 0, 0, 0]) slotMoving ∧ tables.tab.fdb.all (fun e => flushMatches 0 e.2) = true) ∧
    (tcmdReady fdbDump (longCmd 16 [262143, 1]) tables ∧ 1 ≤ fld 12 0 (bodyWord (longCmd 16 [262143, 1]) 0x18) ∧
      fld 17 0 (bodyWord (longCmd 16 [262143, 1]) 0x14) + 1 ≤ 262144 ∧ dataBytes (longCmd 16 [262143, 1]) = 16 * 1) ∧
    (tcmdReady lpmInsert (cmd [8, 0, 0x0B000000, 0x20FFF, 0]) tables ∧ prefixOk (bodyPrefix (cmd [8, 0, 0x0B000000, 0x20FFF, 0])) = true ∧
      fld 17 0 (bodyWord (cmd [8, 0, 0x0B000000, 0x20FFF, 0]) 0x14) % 2 ^ 17 < 4096 ∧
      lpmUnits (setRoute (stagedPar tables) (bodyPrefix (cmd [8, 0, 0x0B000000, 0x20FFF, 0])) (some 0x20FFF) tables) ≤ 393216) ∧
    (tcmdReady lpmDelete (cmd [8, 0, 0x0A000000, 0, 0]) tables ∧ prefixOk (bodyPrefix (cmd [8, 0, 0x0A000000, 0, 0])) = true ∧
      (routeAt tables (stagedPar tables) (bodyPrefix (cmd [8, 0, 0x0A000000, 0, 0]))).isSome = true) ∧
    (tcmdReady lpmLookup (cmd [8, 0, 0x0A000000, 0, 0]) tables ∧
      routeAt tables 0 (bodyPrefix (cmd [8, 0, 0x0A000000, 0, 0])) = some 3) ∧
    (tcmdReady lpmMatch (cmd [0x200, 0, 0x0A010203, 0, 0]) tables ∧ (longestMatch tables
      (fld 9 9 (bodyWord (cmd [0x200, 0, 0x0A010203, 0, 0]) 0x08)) (bit 8 (bodyWord (cmd [0x200, 0, 0x0A010203, 0, 0]) 0x08))
      (ofLE (bodyAt (cmd [0x200, 0, 0x0A010203, 0, 0]) 0x0C 8))).map (·.2) = some 3) := by
  repeat' apply And.intro
  all_goals first
    | decide +kernel
    | (with_reducible refine canonical_of ?_; decide +kernel)
    | (with_reducible refine keyed_of ?_; decide +kernel)

theorem witness_NhpMcgCommands :
    (tcmdReady nhpWrite (cmd [0x1FFFF, 0, 0, 1 + 258 * 8, 0]) tables ∧ nhpKind 0x1FFFF = some .hop ∧
      hopOk (nth 0 (wordsLE 4 (bodyAt (cmd [0x1FFFF, 0, 0, 1 + 258 * 8, 0]) 0x0C 16)) 2) = true ∧ nhpKind 0x22FFF = some .vlan) ∧
    (tcmdReady nhpRead (cmd [0x5FFFF, 0, 0, 0, 0]) tables ∧ nhpKind (fld 17 0 (bodyWord (cmd [0x5FFFF, 0, 0, 0, 0]) 0x08)) = some .hop) ∧
    (nhpKind 0x20FFF = some .ecmp ∧ nhpKind 0x210FF = some .lag) ∧
    (tcmdReady nhpWriteGroup (longCmd 520 [0x20FFF, 0]) tables ∧ dataBytes (longCmd 520 [0x20FFF, 0]) = groupBytes false ∧
      groupOk false (bufBytes (longCmd 520 [0x20FFF, 0]) tables) = true) ∧
    (tcmdReady nhpReadGroup (longCmd 328 [0x210FF, 0x10000]) tables ∧ dataBytes (longCmd 328 [0x210FF, 0x10000]) = groupBytes true) ∧
    (tcmdReady nhpReadBuckets (longCmd 1024 [0x20FFF, 0]) tables ∧ dataBytes (longCmd 1024 [0x20FFF, 0]) = 1024) ∧
    (tcmdReady mcgWrite (cmd [16383, 0, 0, 0, 0]) tables ∧ fld 17 0 (bodyWord (cmd [16383, 0, 0, 0, 0]) 0x08) < 16384) ∧
    (tcmdReady mcgWrite (cmd [0x20000, 258, 0, 0, 0]) tables ∧ replOk (bodyWord (cmd [0x20000, 258, 0, 0, 0]) 0x0C) = true ∧
      replLive tables (0x20000 - 0x20000) = false ∧ replLive tables (0x20007 - 0x20000) = true) ∧
    (tcmdReady mcgInvalidate (cmd [0x20007, 0, 0, 0, 0]) tables ∧ tcmdReady mcgRead (cmd [0x20007, 0, 0, 0, 0]) tables ∧
      (replAt tables (0x20007 - 0x20000)).isSome = true) ∧
    (tcmdReady mcgWriteRun (longCmd 8 [0x3FFFF, 1]) tables ∧ fld 12 0 (bodyWord (longCmd 8 [0x3FFFF, 1]) 0x18) = 1 ∧
      dataBytes (longCmd 8 [0x3FFFF, 1]) = 8 ∧ fld 17 0 (bodyWord (longCmd 8 [0x3FFFF, 1]) 0x14) = 0x3FFFF ∧
      replOk (ofLE ((bufBytes (longCmd 8 [0x3FFFF, 1]) tables).take 4)) = true ∧ replLive tables 0x1FFFF = false) := by
  repeat' apply And.intro
  all_goals first
    | decide +kernel
    | (with_reducible refine canonical_of ?_; decide +kernel)

theorem witness_FdbInsertKeepsLookups :
    FdbSound (inMode .stage) ∧ (stageEntry { mac := 8, fid := 1, info := 0 } (inMode .stage)).isSome = true := by
  refine ⟨⟨keyed_of (by decide +kernel), ?_, ?_⟩, by decide +kernel⟩
  · intro i e h; cases h
  · intro i j e f h; cases h

/-- The only entry of `tables`' FDB. -/
theorem tables_fdbAt {i : Nat} {e : FdbEntry} (h : fdbAt tables i = some e) :
    i = entrySlot ∧ e = { mac := 9, fid := 1, info := 0, v0 := true, v1 := true } := by
  simp [fdbAt, tables, kvGet] at h
  exact ⟨by simpa [entrySlot] using h.1.symm, h.2.symm⟩

theorem tables_slot : entrySlot ∈ keySlots tables 9 1 := by decide +kernel
theorem tables_domain : domainMode tables (FdbEntry.domain { mac := 9, fid := 1, info := 0, v0 := true, v1 := true }) ≠ 1 := by
  decide +kernel

theorem witness_ChangesStayStaged :
    (cmd [0, 0, 0, 0, 0]).via = .tcmd ∧ RegsCanonical tables ∧ keyed tables.tab.rules ∧ keyed tables.tab.tcamBad ∧
      keyed tables.tab.repl ∧ keyed tables.eng.programs ∧ FdbSound tables ∧
      (∀ j e, fdbAt tables j = some e → domainMode tables e.domain ≠ 1) ∧ fdbAt tables entrySlot ≠ none ∧
      ruleLive tables 5 (curPar tables) = true ∧ replLive tables 7 = true := by
  refine ⟨rfl, canonical_of (by decide +kernel), keyed_of (by decide +kernel), keyed_of (by decide +kernel),
    keyed_of (by decide +kernel), keyed_of (by decide +kernel), ⟨keyed_of (by decide +kernel), ?_, ?_⟩, ?_, by decide +kernel,
    by decide +kernel, by decide +kernel⟩
  · intro i e h; have k := tables_fdbAt h; rw [k.1, k.2]; exact ⟨tables_slot, rfl⟩
  · intro i j e f h k _ _ _; exact (tables_fdbAt h).1.trans (tables_fdbAt k).1.symm
  · intro j e h; rw [(tables_fdbAt h).2]; exact tables_domain

/-- One rule found bad, whose bits are to come back; a table word and an engine word found bad. -/
def badState : State :=
  { tables with
    tab := { tables.tab with
      rules := [(262143, { words := List.replicate 24 0 })], tcamBad := [(262143, (true, false))], bad := [(33, 4, 3)] },
    eng := { State.reset.eng with bad := [(7, 1, 3)] } }

theorem witness_RepairsAndSettings :
    (5 < 262144 ∧ (kvGet 5 tables.tab.rules).isSome = true ∧ kvGet 5 tables.tab.tcamBad = none) ∧
    (262143 < 262144 ∧ kvGet 262143 tables.tab.rules = none ∧ kvGet 262143 tables.tab.tcamBad = none) ∧
    (keyed badState.tab.rules ∧ keyed badState.tab.tcamBad ∧ (kvGet 262143 badState.tab.rules).isSome = true ∧
      kvGet 262143 badState.tab.tcamBad = some (true, false) ∧ (true || false) = true) ∧
    (33 ∈ [1, 2, 3, 4, 32, 33] ∧ 7 < 8 ∧ badWord badState 33 4 (7 / 2) = true ∧ badWord badState 33 4 0 = false ∧ (7, 1, 3) ∈ badState.eng.bad) ∧
    (RegsCanonical tables ∧ pf0Open (R.prsHashSeed 0) tables ∧ pf0Open (R.prsHashCfg 0) tables ∧ tables.md.mode = .stage ∧
      (inMode .run).md.mode ≠ .stage ∧ pf0Open (R.prsHashCfg 0) (inMode .run)) ∧
    (7 < 8 ∧ pf0Open (R.clsBankCfg 7 7) badState ∧ fld 3 1 (9 : Word).toNat ∈ [0, 1, 2, 4, 5] ∧
      bit 0 (9 : Word).toNat = decide (4 ≤ fld 3 1 (9 : Word).toNat) ∧ bankHasRule tables 7 7 = false ∧
      bankHasRule badState 7 7 = true ∧ (9 : Word).toNat % 16 ≠ rg badState (R.clsBankCfg 7 7) % 16) ∧
    (pf0Open R.fdbHashSeed1 tables ∧ (inMode .stage).tab.fdb = [] ∧ tables.tab.fdb ≠ [] ∧ pf0Open R.fdbHashSeed0 (inMode .stage)) ∧
    (pf0Open R.bpmHbmPart tables ∧ partitionFits (resChannels tables) (fld 4 0 (0x080804 : Word).toNat)
        (fld 14 8 (0x080804 : Word).toNat) (fld 19 16 (0x080804 : Word).toNat) = true ∧
      partitionFits (resChannels tables) 31 127 15 = false) ∧
    (keyed tables.pmu.ctrs ∧ 29 < 30 ∧ 7 < 8 ∧ 2 < 3 ∧ pf0Open (settingReg 29 7 2) tables ∧ pmuPresent tables 29 = true) := by
  repeat' apply And.intro
  all_goals first
    | decide +kernel
    | (with_reducible refine canonical_of ?_; decide +kernel)
    | (with_reducible refine keyed_of ?_; decide +kernel)

/-- A learn request of a mode in RUN; entries of an ordinary domain. -/
def learning (mode st : Nat) : State :=
  { inMode .run with
    tab := { State.reset.tab with learnQ := [⟨8, 1, 0, mode, 0, 5, 5, 0⟩] }, gen := { State.reset.gen with st := st } }
def ageing (static active : Bool) : State :=
  { runWith [(R.fdbDomainCfg 0 + viewSize, 2 ^ 20)] with tab := { State.reset.tab with
      fdb := [(5, { mac := 9, fid := 1, info := b2n static * 2 ^ 17, active := active, v0 := true })] } }

/-- A bucket of a LAG that carries member 4 and wants member 5, with a frame on the old path or without. -/
def moving (f : Bool) : State :=
  let lag : List Nat := 0x81 :: 0 :: 5 :: List.replicate 79 0
  let p5 : Port := { up := true }
  { setPort 5 p5 (inMode .run) with
    tab := { State.reset.tab with
      vals := [(valKey 2 0x21000 0, lag)], carry := [(bucketKey 0 0 255, 4)], moves := [(bucketKey 0 0 255, (0, 0))] },
    buf := { State.reset.buf with frames := if f then [(1, { paths := [(0, 0, 255, 4)] })] else [] } }

theorem witness_LearningAndAgeing :
    (∀ s, s = learning 1 0 → s.md.mode = .run ∧ s.tab.learnQ = [⟨8, 1, 0, 1, 0, 5, 5, 0⟩] ∧ (fdbPlace 8 1 s).isSome = true) ∧
    (∀ par, fdbFind (learning 1 0) par 8 1 = none) ∧
    (∀ s, s = learning 2 0 → s.gen.st = 0 ∧ fdbFind s (stagedPar s) 8 1 = none ∧ (fdbPlace 8 1 s).isSome = true) ∧
    (learning 2 4).gen.st ≠ 0 ∧
    (keyed (ageing true true).tab.fdb ∧ hostOpen (ageing true true) = true ∧
      (fdbAt (ageing true true) 5).map (fun e => (e.static, e.v0 || e.v1)) = some (true, true)) ∧
    (∀ b ∈ [true, false], (fdbAt (ageing false b) 5).map (fun e => (e.static, e.active, domainMode (ageing false b) e.domain)) =
      some (false, b, 1)) ∧
    (0 < 4 ∧ 255 < 256 ∧ keyed (moving true).tab.carry ∧ keyed (moving true).tab.moves ∧
      kvGet (bucketKey 0 0 255) (moving true).tab.carry = some 4 ∧ kvGet (bucketKey 0 0 255) (moving true).tab.moves = some (0, 0) ∧
      (wantedPath (moving true) (curPar (moving true)) 0 0 255).isSome = true ∧ onPath (moving true) 0 0 255 4 = true ∧
      onPath (moving false) 0 0 255 4 = false) := by
  refine ⟨?_, ?_, ?_, by decide +kernel, ⟨keyed_of (by decide +kernel), by decide +kernel⟩, by decide +kernel, ?_⟩
  · intro s h; subst h; decide +kernel
  · intro par
    exact List.findSome?_eq_none_iff.mpr fun i _ => rfl
  · intro s h; subst h; decide +kernel
  · exact ⟨by decide, by decide, keyed_of (by decide +kernel), keyed_of (by decide +kernel), by decide +kernel⟩

/-! ## Witnesses: generations -/

/-- A mode with a state of the commit engine. -/
def genState (m : Mode) (g : Gen) : State := { inMode m with gen := g }

theorem witness_CommitBegins :
    (∀ m ∈ [Mode.stage, .run], pf0Open R.genCmd (genState m {}) ∧ (genState m {}).gen.st = 0 ∧ (genState m { st := 5 }).gen.st ≠ 0) ∧
    (tcmdReady genCommitCmd (cmd [3, 0, 0, 0, 0]) (inMode .run) ∧ tcmdReady genDiscardCmd (cmd [0, 0, 0, 0, 0]) (inMode .stage) ∧
      tcmdReady genStatusCmd (cmd [0, 0, 0, 0, 0]) (inMode .drain)) ∧
    (∀ s, s = genState .run { st := 1, timed := some (usT 10) } → s.gen.st = 1 ∧ s.gen.waiter = none ∧ s.gen.held = [] ∧
      badTime s = false ∧ clampRefused s (rangeCheck s).reports = false) ∧
    (∀ s, s = genState .run { st := 1, timed := some (usT 10 - 1) } → badTime s = true ∧
      clampRefused s (rangeCheck s).reports = false) ∧
    ((genState .stage { st := 1 }).gen.timed = none ∧ badTime (genState .stage { st := 1 }) = false) ∧
    (pf0Open R.genCmd (genState .drain {}) ∧ (genState .drain {}).md.mode = .drain ∧ (genState .drain {}).gen.st = 0 ∧
      Instr.commit none ∈ [Instr.commit none, .commitAt none, .discardStaged none]) := by
  repeat' apply And.intro
  all_goals first
    | decide +kernel
    | (unfold pf0Open; decide +kernel)
    | (with_reducible refine canonical_of ?_; decide +kernel)
    | (intro s h; subst h; decide +kernel)
    | (intro l h; cases h; exact ⟨rfl, rfl⟩)
    | (intro m h; simp only [List.mem_cons, List.mem_nil_iff, or_false] at h; rcases h with rfl | rfl <;>
        (unfold pf0Open; decide +kernel))

theorem witness_CommitEnds :
    (∀ s, s = genState .run { st := 2, effectAt := some 9 } → s.gen.effectAt = some 9 ∧ s.gen.byJump = false ∧
      s.gen.st = 2 ∧ s.gen.held = []) ∧
    (∀ s, s = genState .run { st := 3, current := 1 } → s.gen.st = 3 ∧ oldDrained s [5] = true) ∧
    (∃ ts ∈ [5], ts < (genState .run { st := 3, lastEffect := 6 }).gen.lastEffect) ∧
    (∀ n ∈ [4, 5], (genState .run { st := n }).gen.st = n ∧ (genState .run { st := n }).gen.waiter = none ∧
      (genState .run { st := n }).gen.held = []) ∧
    (∀ d ∈ [false, true], ∀ s, s = { genState .run { autoFrom := some 0, dirty := d } with
          regs := (runWith [(R.genAutoCfg, 0x10001)]).regs } → s.gen.autoFrom = some 0 ∧ bit 16 (rg s R.genAutoCfg) = true ∧
        s.gen.st = 0 ∧ s.md.mode = .run ∧ s.gen.dirty = d) := by
  repeat' apply And.intro
  all_goals first
    | decide +kernel
    | (intro s h; subst h; decide +kernel)
    | (intro d hd s h; subst h; simp only [List.mem_cons, List.mem_nil_iff, or_false] at hd; rcases hd with rfl | rfl <;>
        decide +kernel)

/-! ## Witnesses: engines -/

/-- RUN with frame 1 and engine 63 as given. -/
def engineState (x : Frame) (e : Engine) : State := setEngine 63 e (setFrame 1 x (inMode .run))

/-- A frame of 64 bytes for an engine program at address 0; a registered program there in cluster 7. -/
def ipFrame : Frame := { bytes := List.replicate 64 0, prog := some 0, copies := [copyOne 5 0] }
def withProgram (bundle : List Nat) (s : State) : State :=
  { s with eng := { s.eng with programs := [(bundleKey 7 0 0, ⟨1, 1, false⟩)], bundles := [(bundleKey 7 0 0, bundle)] } }
def someContext (parked : Option Nat) (growing : Option (Nat × Nat)) : Context :=
  { frame := 1, num := 63, pc := 0, regs := List.replicate 16 0, window := List.replicate 60 0, loaded := 60, parked := parked,
    growing := growing }

/-- An addition into g2, whose guard is p0; the header operation `op` on 4 bytes (an insertion: 1) at an offset; a branch over 5. -/
def addWord : Nat := 2 ^ 22 + 2 * 2 ^ 18
def headWord (op off : Nat) : Nat := op * 2 ^ 25 + (if op = 3 then 0 else 3 * 2 ^ 21) + off * 2 ^ 12
def branchWord : Nat := 2 ^ 24 + 5

/-- A context with a window of `n` bytes, alone in engine 63 with a bundle at its address; its frame has one cell. -/
def windowContext (n : Nat) : Context := { someContext none none with window := List.replicate n 7 }
def stepping (n : Nat) (bundle : List Nat) : State :=
  withProgram bundle (engineState { ipFrame with chain := [9], deadline := 1000 } { contexts := [windowContext n] })

/-- That context is the one to issue, with that bundle, a good word, its guard held and its frame alive. -/
def issues (n : Nat) (b : List Nat) (s : State) : Bool :=
  ((engineAt s 63).contexts.find? fun z =>
      contextReady (bundleAt s (63 / 8) (frame s z.frame).par z.pc) ((engineAt s 63).cycle + 1) z) == some (windowContext n) &&
    bundleAt s (63 / 8) (frame s 1).par 0 == b && !s.eng.bad.contains (63 / 8, 0, bundleKey (63 / 8) (frame s 1).par 0) &&
    b.all (guardHolds · 0) && (kvGet 1 s.buf.frames).any (fun x => x.fate == 0 && !pastDeadline x s) && regsWf s.regs

/-- The fields of a header operation's word. -/
def headFields (op off w : Nat) : Bool :=
  fld 27 25 w == op && !bit 11 w && fld 20 12 w == off && fld 24 21 w + 1 == (if op = 3 then 1 else 4)

theorem witness_EngineSteps :
    (∀ s, s = engineState { ipFrame with prog := none } { input := [1] } → (engineAt s 63).input = [1] ∧
      (kvGet 1 s.buf.frames).map (·.prog) = some none) ∧
    (∀ s, s = withProgram [0, 0, 0, 0] (engineState ipFrame { input := [1] }) → (engineAt s 63).input = [1] ∧
      freeContexts (engineAt s 63) ≠ [] ∧ (programAt s (63 / 8) ipFrame.par 0).isSome = true) ∧
    (∀ s, s = engineState ipFrame { input := [1], contexts := (List.range 64).map fun k => { someContext none none with num := k } } →
      freeContexts (engineAt s 63) = []) ∧
    (∀ s x, s = withProgram [addWord, 0, 0, 0] (engineState ipFrame { contexts := [someContext none none] }) → x = engineAt s 63 →
      x.contexts.find? (fun z => contextReady (bundleAt s (63 / 8) (frame s z.frame).par z.pc) (x.cycle + 1) z) =
        some (someContext none none) ∧
      bundleAt s (63 / 8) (frame s 1).par 0 = [addWord, 0, 0, 0] ∧
      s.eng.bad.contains (63 / 8, 0, bundleKey (63 / 8) (frame s 1).par 0) = false ∧ guardHolds addWord 0 = true ∧
      aluResult (someContext none none).regs addWord = some 0) ∧
    ([(60, 1, 56), (60, 2, 56), (319, 3, 319), (60, 4, 0), (60, 5, 56), (60, 1, 57), (60, 2, 57), (60, 3, 61), (320, 3, 0)].all
      (fun c => issues c.1 [0, 0, headWord c.2.1 c.2.2, 0] (stepping c.1 [0, 0, headWord c.2.1 c.2.2, 0]) &&
        headFields c.2.1 c.2.2 (headWord c.2.1 c.2.2)) = true) ∧
    ([branchWord, 6 * 2 ^ 24, 6 * 2 ^ 24 + 2 ^ 20].all (fun w => issues 60 [0, 0, 0, w] (stepping 60 [0, 0, 0, w])) = true ∧
      [branchWord, 6 * 2 ^ 24, 6 * 2 ^ 24 + 2 ^ 20].map (fun w => (fld 27 24 w, fld 23 20 w)) = [(1, 0), (6, 0), (6, 1)] ∧
      cellsOf (60 + (64 - 60)) ≤ [9].length) ∧
    (∀ s x, s = engineState ipFrame { contexts := [someContext (some 32) none] } → x = engineAt s 63 →
      x.contexts.find? (fun z => contextReady (bundleAt s (63 / 8) (frame s z.frame).par z.pc) (x.cycle + 1) z) = none) ∧
    (∀ s, s = { engineState ipFrame { contexts := [someContext (some 32) none] } with
          eng := { (engineState ipFrame { contexts := [someContext (some 32) none] }).eng with
            store := (List.range 8).map fun k => (8 + k, k) } } →
      (engineAt s 63).contexts.find? (fun z => z.num == 63 && z.parked.isSome) = some (someContext (some 32) none) ∧
      (someContext (some 32) none).regs.length = 16 ∧
      ((List.range 8).all fun k => kvGet (32 / 4 + k) s.eng.store == some (nth 0 (List.range 8) k)) = true) ∧
    (∀ s, s = { engineState { ipFrame with deadline := 1000 } { contexts := [someContext none (some (0, 1))] } with now := 0 } →
      (engineAt s 63).contexts.find? (fun z => z.num == 63 && z.growing.isSome) = some (someContext none (some (0, 1))) ∧
      pastDeadline { ipFrame with deadline := 1000 } s = false ∧ 14 ≤ (someContext none (some (0, 1))).window.length ∧
      fld 23 20 0 = 0 ∧ 2048 + (cellsOf (60 + (64 - 60)) - ipFrame.chain.length) ≤ freeBasin s) ∧
    (∀ d ∈ [true, false], ∀ s, s = engineState { ipFrame with prog := none } { order := [⟨1, 0, d⟩] } →
      (engineAt s 63).order = [⟨1, 0, d⟩] ∧ ipFrame.copies ≠ [] ∧ s.tim.stopped = false ∧ 0 + nsT 12 < Config.timeMod) := by
  repeat' apply And.intro
  all_goals first
    | decide +kernel
    | (intro s h; subst h; decide +kernel)
    | (intro s x h k; subst k; subst h; decide +kernel)
    | (intro d _ s h; subst h; cases d <;> decide +kernel)

/-- STAGE with table writes enabled for programs, a program registered in the staged bank, engine store words. -/
def engineTables : State :=
  let s := inModeWith .stage [(R.prtEnable, 1)]
  { s with eng := { s.eng with programs := [(bundleKey 7 1 8191, ⟨1, 1, false⟩)], store := (List.range 8).map fun k => (8 + k, k) } }

/-- EMIT alone, as the 16 bytes of a bundle. -/
def emitBundle : List Byte := bytesOfWords [0, 0, 0, 24 * 2 ^ 22]
def loading : State := withBytes emitBundle engineTables

theorem witness_EngineCommands :
    (tcmdReady engLoad (longCmd 16 [0x801FFE, 1]) loading ∧ bit 0 (rg loading R.prtEnable) = true ∧
      maskClusters (bodyWord (longCmd 16 [0x801FFE, 1]) 0x14) = [7] ∧ unitSt loading 9 (80 + 7) = 0 ∧
      fld 13 0 (bodyWord (longCmd 16 [0x801FFE, 1]) 0x18) = 1 ∧ dataBytes (longCmd 16 [0x801FFE, 1]) = 16 * 1 ∧
      loadCheck loading [7] 8190 (bundlesOf 1 (bufBytes (longCmd 16 [0x801FFE, 1]) loading)) = .inr (1, false)) ∧
    (tcmdReady engUnload (cmd [0x801FFF, 0, 0, 0, 0]) engineTables ∧ keyed engineTables.eng.programs ∧
      maskClusters (bodyWord (cmd [0x801FFF, 0, 0, 0, 0]) 0x08) = [7] ∧
      (programAt engineTables 7 (stagedPar engineTables) 8191).isSome = true) ∧
    (tcmdReady Machine.engRead (longCmd 16 [0x801FFF, 0x10001]) engineTables ∧ 0 < 1 ∧ 8191 + 1 ≤ 8192 ∧
      maskClusters (bodyWord (longCmd 16 [0x801FFF, 0x10001]) 0x14) = [7]) ∧
    (tcmdReady engTblWrite (longCmd 8 [0x80FFF8, 0]) engineTables ∧ tcmdReady engTblRead (longCmd 8 [0x80FFF8, 0]) engineTables ∧
      fld 15 0 (bodyWord (longCmd 8 [0x80FFF8, 0]) 0x14) % 8 = 0 ∧
      fld 15 0 (bodyWord (longCmd 8 [0x80FFF8, 0]) 0x14) + dataBytes (longCmd 8 [0x80FFF8, 0]) ≤ 65536) ∧
    (tcmdReady engEsWrite (longCmd 32 [32, 0]) engineTables ∧ tcmdReady engEsRead (longCmd 32 [32, 0]) engineTables ∧
      storeRun engineTables (ofLE (bodyAt (longCmd 32 [32, 0]) 0x14 8)) (dataBytes (longCmd 32 [32, 0])) = true ∧
      storeLost engineTables 32 32 = false ∧
      ((List.range 8).all fun i => kvGet (32 / 4 + i) engineTables.eng.store == some (nth 0 (List.range 8) i)) = true) := by
  repeat' apply And.intro
  all_goals first
    | decide +kernel
    | (with_reducible refine canonical_of ?_; decide +kernel)
    | (with_reducible refine keyed_of ?_; decide +kernel)

/-! ## Witnesses: buffers and queues -/

/-- A frame waiting before slice 7, from port 255: in direct form for port 3, or with an error; with 60 bytes. -/
def waitingFrame (port err : Nat) : Incoming :=
  { port := port, bytes := List.replicate 64 0, length := 64, ts := 0, tsInvalid := false, err := err, prio := 2, overrun := false,
    meta16 := 0, direct := if err = 0 then some (3, false, none) else none, oneStep := false, tsReq := false, txRing := none }

/-- RUN with it at the front of slice 7; the slice holds a frame, or not. -/
def sliceState (w : Incoming) (hold : Bool) : State :=
  { inMode .run with
    lk := { State.reset.lk with ingress := [(7, [w])] }, buf := { State.reset.buf with holding := if hold then [7] else [] } }

/-- The same with no bank group in service: no cell is free. -/
def fullBasin (w : Incoming) : State :=
  { sliceState w false with svc := { State.reset.svc with states := (List.range 8).map fun g => (unitKey 5 g, 1) } }

theorem witness_FramesAccepted :
    (∀ hold ∈ [false, true], hostOpen (sliceState (waitingFrame 256 0) hold) = true ∧
      (sliceState (waitingFrame 256 0) hold).md.faultPending = false ∧
      kvGetD [] 7 (sliceState (waitingFrame 256 0) hold).lk.ingress = [waitingFrame 256 0] ∧
      (sliceState (waitingFrame 256 0) hold).buf.holding.contains 7 = hold ∧
      handlingFor (sliceState (waitingFrame 256 0) hold) (waitingFrame 256 0) ≠ .refused ∧
      (arrivingFrame (waitingFrame 256 0) 7 (sliceState (waitingFrame 256 0) hold)).parsed.mal = 0 ∧
      (waitingFrame 256 0).err = 0 ∧ (waitingFrame 256 0).overrun = false ∧
      (waitingFrame 256 0).direct.map (·.1) = some 3 ∧ emptyFor (sliceState (waitingFrame 256 0) hold) 64 = false) ∧
    (∀ s, s = sliceState (waitingFrame 255 1) false → (waitingFrame 255 1).err ≠ 0 ∧ kvSorted s.buf.frames = true ∧
      bit 1 (cuAt s 0 (R.macCfg 255)) = false) ∧
    ({ waitingFrame 255 0 with overrun := true }.overrun = true) ∧
    (hostOpen (inMode .park) = false ∧ (faultWaits true).md.faultPending = true) ∧
    (∀ s, s = fullBasin (waitingFrame 256 0) → emptyFor s 64 = true ∧ goneAnyway s (waitingFrame 256 0) (handlingFor s (waitingFrame 256 0)) = false ∧
      (arrivingFrame (waitingFrame 256 0) 7 s).lossless = true) ∧
    (∀ s, s = fullBasin { waitingFrame 255 0 with direct := none } → emptyFor s 64 = true ∧
      goneAnyway s { waitingFrame 255 0 with direct := none } (handlingFor s { waitingFrame 255 0 with direct := none }) = false ∧
      (arrivingFrame { waitingFrame 255 0 with direct := none } 7 s).lossless = false) := by
  repeat' apply And.intro
  all_goals first
    | decide +kernel
    | (intro s h; subst h; decide +kernel)

/-- RUN with frame 1, whose first cell is at pointer 9, and with another part of the buffer. -/
def bufState (x : Frame) (f : Buf → Buf) : State :=
  { setFrame 1 { x with chain := [9] } (inMode .run) with buf := f (setFrame 1 { x with chain := [9] } (inMode .run)).buf }

/-- The pool of shared cells: at reset without pressure; for a refusal a pair that is full. -/
def arrived : State := bufState { bytes := List.replicate 64 0, inPort := 5, copies := [copyOne 6 0] } fun b => { b with arrivals := [1] }
def pressed : State := { arrived with buf := { arrived.buf with pressure := true, pairs := [(40, { a := 60000 })] } }

/-- Frame 1 spilled, and the copy that wants it at the head of queue 0 of port 5. -/
def refilling (cells : List Nat) : State :=
  setQueue 5 0 { copies := [copyOne 5 0] } (bufState { spilled := true } fun b => { b with refilling := [(1, cells)] })

theorem witness_BufferCore :
    (arrived.buf.arrivals = [1] ∧ (kvGet 1 arrived.buf.frames).map (fun x => (x.inPort, x.prio, x.fate)) = some (5, 0, 0) ∧
      keyed arrived.buf.frames ∧ keyed arrived.buf.pairs ∧ (admits arrived 40 (chargeOf arrived 5 64)).isSome = true) ∧
    (pressed.buf.arrivals = [1] ∧ admits pressed 40 (chargeOf pressed 5 64) = none ∧ keyed pressed.buf.pairs) ∧
    (ptrOk (inMode .run) (2 ^ 19) = false ∧ ptrOk (inMode .run) (2 ^ 31 + 120 * 2 ^ 20) = false ∧ RegsCanonical (inMode .run)) ∧
    (∀ s, s = bufState { holders := [5, 6] } id → ptrOk s 9 = true ∧ (frameAt s 9).map (fun x => (x.1, x.2.holders)) = some (1, [5, 6]) ∧
      kvSorted s.buf.frames = true ∧ mayFree { holders := [5, 6] } 5 8 = true ∧ 5 ≠ 0x1FF ∧ [5, 6].contains 5 = true ∧
      [5, 6].filter (· ≠ 5) ≠ [] ∧ [5].filter (· ≠ 5) = []) ∧
    (∀ s, s = bufState {} (fun b => { b with spilling := [(1, 119, [2 ^ 31])] }) →
      2 ≤ 2 ∧ s.buf.spilling.find? (fun r => r.2.1 == 119) = some (1, 119, [2 ^ 31]) ∧ (kvGet 1 s.buf.frames).isSome = true) ∧
    ((refillCandidates (refilling []) 5 0).find? (fun f => decide ((refillCells (refilling []) f).length <
        (frame (refilling []) f).chain.length)) = some 1 ∧ 2048 < freeBasin (refilling [])) ∧
    ((refillCandidates (refilling [4]) 5 0).find? (fun f => decide ((refillCells (refilling [4]) f).length =
        (frame (refilling [4]) f).chain.length)) = some 1) ∧
    (overdueFrames (reach ((0 / msT 1 + 1) * msT 1) (inMode .run)) = []) ∧
    (∀ u, u = reach ((0 / msT 1 + 1) * msT 1) (setEngine 2 { input := [1] } (bufState {} id)) → overdueFrames u = [1] ∧
      (u.eng.engines.find? fun e => e.2.input.contains 1).map (·.1) = some 2 ∧ (kvGet 1 u.buf.frames).map (·.fate) = some 0 ∧
      kvSorted u.buf.frames = true) ∧
    (∀ u, u = reach ((0 / msT 1 + 1) * msT 1) (setEngine 2 { order := [⟨1, 0, true⟩] } (bufState {} id)) → overdueFrames u = [1] ∧
      u.eng.engines = [(2, { order := [⟨1, 0, true⟩] })] ∧ u.buf.plan = [] ∧ u.eg.queues = [] ∧
      (kvGet 1 u.buf.frames).map (·.fate) = some 0 ∧ kvSorted u.buf.frames = true) ∧
    (∀ s, s = setQueue 5 0 { copies := [copyOne 5 0] } (bufState { suspect := some 0 } id) → hostOpen s = true ∧
      (frameAt s 9).map (·.1) = some 1 ∧ refsOf s 1 ≠ 0) ∧
    (∀ s, s = { bufState { suspect := some 0 } id with elapsed := secT 100 } → refsOf s 1 = 0 ∧
      0 + msT (cuF s R.bpmRiderCfg 15 0) ≤ s.elapsed ∧ regsWf s.regs = true ∧ s.md.fenced = false ∧ s.md.faultPending = false) ∧
    (∀ s, s = bufState {} id → freeBasin s + 1 ≠ (if false then freeRes s else freeBasin s) ∧
      0 ≠ (if true then freeRes s else freeBasin s)) := by
  repeat' apply And.intro
  all_goals first
    | decide +kernel
    | (with_reducible refine canonical_of ?_; decide +kernel)
    | (with_reducible refine keyed_of ?_; decide +kernel)
    | (intro s h; subst h; decide +kernel)

/-- STAGE with a leaked frame, and with a Tsuip quad for the counters of a port. -/
def leaky : State :=
  let s := setFrame 1 { chain := [9] } (inMode .stage)
  { s with buf := { s.buf with leaks := [⟨1, 9, 0, 0, 1⟩] } }

theorem witness_BufferAndScheduleCommands :
    (pf0Open R.bpmSnapCmd leaky ∧ leaky.acct.all AcctSet.ok = true ∧ tcmdReady bpmSnapshot (cmd [0, 0, 0, 0, 0]) leaky) ∧
    (tcmdReady bpmReclaim (cmd [9 * 256, 0, 0, 0, 0]) leaky ∧ keyed leaky.buf.frames ∧
      (handleFrame leaky (ofLE (bodyAt (cmd [9 * 256, 0, 0, 0, 0]) 0x08 8))).map (fun x => (x.1, x.2.touched, x.2.fate)) = some (1, false, 0) ∧
      (leaky.buf.leaks.any fun l => l.frame == 1) = true ∧ refsOf leaky 1 = 0) ∧
    (tcmdReady bpmReadRecord (longCmd 80 [9 * 256, 0]) leaky ∧ dataBytes (longCmd 80 [9 * 256, 0]) = 80 ∧
      (handleFrame leaky (ofLE (bodyAt (longCmd 80 [9 * 256, 0]) 0x14 8))).isSome = true) ∧
    (tcmdReady bpmLeakList (longCmd 512 [0, 0]) leaky ∧ tcmdReady bpmAuditNow (cmd [0, 0, 0, 0, 0]) leaky) ∧
    (tcmdReady bpmReadAccount (longCmd 8 [2175, 1]) leaky ∧ fld 11 0 (bodyWord (longCmd 8 [2175, 1]) 0x14) + 1 ≤ 2176 ∧
      dataBytes (longCmd 8 [2175, 1]) = 8 * 1) ∧
    (∀ s, s = setQuad 63 { mode := 8 } (inMode .stage) → tcmdReady gclWriteEntries (longCmd 8 [255, 1023 + 2 ^ 16]) s ∧
      tcmdReady gclReadEntries (longCmd 8 [255, 1023 + 2 ^ 16]) s ∧ tcmdReady Machine.schReadCounters (longCmd 768 [255, 0]) s) ∧
    (∀ s, s = setQuad 63 { mode := 8 } (inMode .stage) →
      (gclRun s (longCmd 8 [255, 1023 + 2 ^ 16])).toOption = some (255, 1023, 1) ∧ portNamed s 255 = true ∧
      bodyWord (longCmd 768 [255, 0]) 0x14 % 512 ≤ 271 ∧ dataBytes (longCmd 768 [255, 0]) = 768) := by
  repeat' apply And.intro
  all_goals first
    | decide +kernel
    | (with_reducible refine canonical_of ?_; decide +kernel)
    | (with_reducible refine keyed_of ?_; decide +kernel)
    | (intro s h; subst h; decide +kernel)
    | (intro l h; cases h; exact ⟨rfl, rfl⟩)
    | (intro s h; subst h; repeat' apply And.intro
       all_goals first
         | decide +kernel
         | (with_reducible refine canonical_of ?_; decide +kernel))

/-- Port 252 up at 10 Gb/s, with frame 1 in the basin. -/
def egress (f : State → State) : State :=
  f (setFrame 1 { bytes := List.replicate 64 0, chain := [9], holders := [252, 3] } (portWith { up := true }))

/-- A copy of it, with a release time, for queue 7 of port 252. -/
def timedCopy (r : Nat) (handed : Bool) : Copy := { copyOne 252 7 with release := some r, handed := handed }
def releasing (up handed : Bool) : State :=
  let s := egress (setQueue 252 7 { copies := [timedCopy (usT 10) handed] })
  if up then s else setPort 252 {} s

/-- Port 252 that sends a copy. -/
def sending : State := egress fun s => setSched 252 { sending := some (copyOne 252 0) }
  (setPort 252 { up := true, sending := some { frame := 1, queue := 0, start := 0, bytes := List.replicate 64 0 } } s)

/-- Generator 0 at 1 µs, and the gate list of port 252 on it: one entry with every gate open for 400 ns. -/
def gated : State :=
  withRegs [(R.timCgCfg 0 + viewSize, 1), (R.timCgPeriod 0 + viewSize, 1000), (R.gclCfg 252, 1 + 2 ^ 16),
    (R.gclEntryGates 252 0, 0xFF), (R.gclEntryInterval 252 0, 400)] (egress fun s =>
      { s with tim := { s.tim with stopped := false, gens := [(0, { k := some 0, at_ := 0, made := true })] } })

theorem witness_CopiesAndRelease :
    (∀ s, s = egress (fun s => { s with buf := { s.buf with plan := [copyOne 252 0] } }) →
      s.buf.plan.find? (fun d => d.port == 252) = some (copyOne 252 0) ∧ (copyOne 252 0).device = none ∧
      (kvGet 1 s.buf.frames).isSome = true ∧ enqueueCheck s (copyOne 252 0) = none ∧ spillEligible s (copyOne 252 0) = false) ∧
    (∀ s, s = egress (fun s => setSched 252 { shut := true } { s with buf := { s.buf with plan := [copyOne 252 0] } }) →
      enqueueCheck s (copyOne 252 0) = some (0x12, some 7) ∧ (copyOne 252 0).fwd = false ∧ [252, 3].filter (· ≠ 252) ≠ []) ∧
    (∀ s, s = egress (setQueue 252 7 { copies := [copyOne 252 7] }) → 252 < 256 ∧ portSends s 252 = true ∧ fenceShut s = false ∧
      (port s 252).sending = none ∧ pauseWaits (mediumFree 252 s) 252 = false ∧ overdue (mediumFree 252 s) 252 = none ∧
      (choose (mediumFree 252 s) 252 fun _ => true).map (·.1) = some 7 ∧
      head (mediumFree 252 s) 252 7 = some (copyOne 252 7)) ∧
    (∀ s, s = egress id → pauseWaits (mediumFree 252 s) 252 = false ∧ overdue (mediumFree 252 s) 252 = none ∧
      (choose (mediumFree 252 s) 252 fun _ => true) = none ∧ (port (mediumFree 252 s) 252).preempted = none) ∧
    ((port sending 252).sending.isSome = true ∧ (sched sending 252).sending = some (copyOne 252 0) ∧
      preemptible sending 252 0 = false ∧ keyed sending.buf.frames) ∧
    (∀ u, u = reach (usT 10 - usT 2) (releasing true false) → head (releasing true false) 252 7 = some (timedCopy (usT 10) false) ∧
      inBasin (releasing true false) (timedCopy (usT 10) false) = true ∧ u.now + lead (releasing true false) 252 ≤ usT 10) ∧
    (∀ u, u = reach (usT 10 - lead (releasing true false) 252) (releasing true false) →
      (timedCopies (releasing true false) 252 7).filter (fun c => !c.handed && !c.missed && !c.deferred) = [timedCopy (usT 10) false] ∧
      usT 10 ≤ u.now + lead (releasing true false) 252) ∧
    (∀ u c, u = reach (ballTime (releasing true true) 252 (usT 10)) (releasing true true) → c = timedCopy (usT 10) true →
      ((List.range 8).reverse.flatMap fun q => timedCopies (releasing true true) 252 q) = [c] ∧
      ballTime u 252 (usT 10) ≤ u.now ∧ (port u 252).up = true ∧
      faultStops u 252 c = false ∧ gateFits u (copyPar u c) 252 7 (usT 10) (wireTime u 252 (counted u c)) = true ∧
      (port u 252).sending = none ∧ (port u 252).busyTill ≤ u.now ∧ head u 252 7 = some c ∧ inBasin u c = true ∧
      queueHeld u 252 7 c = false ∧ portSends u 252 = true ∧ preemptBusy u 252 7 = false ∧
      u.now ≤ ballTime u 252 (usT 10) + nsT 2 ∧ (c.device = none ∧ c.deferred = false ∧ c.missed = false)) ∧
    (∀ u, u = reach (ballTime (releasing false true) 252 (usT 10)) (releasing false true) → (port u 252).up = false ∧
      ballTime u 252 (usT 10) ≤ u.now) ∧
    ((gateState gated (curPar gated) 252 gated.now).2.2 = some (nsT 400) ∧ gated.tim.stopped = false ∧ gated.now ≤ nsT 400 ∧
      nsT 400 < Config.timeMod) ∧
    ((gateState (egress id) (curPar (egress id)) 252 (egress id).now).2.2 = none) := by
  repeat' apply And.intro
  all_goals first
    | decide +kernel
    | (with_reducible refine keyed_of ?_; decide +kernel)
    | (intro u h; subst h; decide +kernel)
    | (intro u c h k; subst h; subst k; decide +kernel)

/-! ## Witnesses: the recorder, counters, service, and the rules stated whole -/

/-- A recorder with a ring of one slot in each channel, its key, and a segment open. -/
def recorderOn : Recorder :=
  { perChannel := 1, channels := List.range 120, key := some (List.replicate 32 1),
    current := some ⟨5, 0, 1, false, 0, [], [List.replicate 64 0], 0, none⟩, lastTake := 7 }

/-- RUN with it taking frames, and a copy of frame 1 at the head of queue 7 of P257. -/
def recording (r : Recorder) (regs : List (Nat × Nat)) : State :=
  { withRegs regs (setFrame 1 { bytes := List.replicate 60 0, chain := [9], holders := [257, 3] }
      (setQueue 257 7 { copies := [copyOne 257 7] } (inMode .run))) with recd := r }
def recOn : List (Nat × Nat) := [(R.recCfg + viewSize, 1 + 5 * 2 ^ 8 + 2 ^ 16), (R.recTrigEn + viewSize, 4),
  (R.recFateTrig + viewSize, 3 * 2 ^ 16)]
def recordBuffer : List Byte := toLE 4 0x47455352 ++ toLE 4 1 ++ toLE 4 5 ++ toLE 4 0

theorem witness_RecorderRows :
    (∀ s, s = recording recorderOn recOn → fenceShut s = false ∧ reach (port s 257).busyTill s = s ∧
      (choose s 257 fun _ => true).map (·.1) = some 7 ∧ head s 257 7 = some (copyOne 257 7) ∧ (copyOne 257 7).fwd = false ∧ (copyOne 257 7).device = none ∧
      (kvGet 1 s.buf.frames).isSome = true ∧ refusalCause s ((frameRecord s (frame s 1)).length) = none ∧ recLive s = true) ∧
    (∀ s, s = recording { recorderOn with key := none } recOn → reach (port s 257).busyTill s = s ∧ (choose s 257 fun _ => true).map (·.1) = some 7 ∧
      refusalCause s ((frameRecord s (frame s 1)).length) = some 3 ∧ RegsCanonical s) ∧
    (∀ s, s = recording { recorderOn with backlog := [⟨1, [], 0⟩], current := none } [] → recLive s = true ∧
      s.recd.backlog = [⟨1, [], 0⟩] ∧ s.recd.current = none) ∧
    (∀ s g, s = recording { recorderOn with backlog := [⟨0, List.replicate 96 0, 1⟩] } [] →
      g = (⟨5, 0, 1, false, 0, [], [List.replicate 64 0], 0, none⟩ : Segment) → recLive s = true ∧ s.recd.current = some g ∧
      s.recd.refused = 0 ∧ segFits g 96 = true) ∧
    (∀ s, s = recording recorderOn recOn → s.recd.key = some (List.replicate 32 1) ∧ lastOfPost s.recd 5 = false ∧
      cuF s R.recCfg 15 8 ≠ 0 ∧ bit 2 (cu s R.recTrigEn) = true ∧ 0 < msT (cuF s R.recFateTrig 31 16) ∧
      s.tim.stopped = false ∧ s.recd.windowFrom ≤ s.now ∧ s.now < s.recd.windowFrom + msT (cuF s R.recFateTrig 31 16) ∧
      s.recd.windowFrom + msT (cuF s R.recFateTrig 31 16) < Config.timeMod) ∧
    (triggerShut 1 (recording recorderOn []) = false ∧ pf0Open R.recCmd (recording recorderOn []) ∧
      (List.range 4).find? (fun i => (kvGet i (recording recorderOn []).recd.regions).isNone) = some 0 ∧
      tcmdReady recFreezeCmd (cmd [0, 0, 0, 0, 0]) (recording recorderOn []) ∧
      tcmdReady recSealCmd (cmd [0, 0, 0, 0, 0]) (recording recorderOn [])) ∧
    (∀ s g, s = recording { recorderOn with current := some ⟨5, 0, 1, false, 0, [], [], 0, none⟩ } [] →
      g = (⟨5, 0, 1, false, 0, [], [], 0, none⟩ : Segment) → s.recd.current = some g ∧ g.records = [] ∧
      s.recd.key = some (List.replicate 32 1) ∧ lastOfPost s.recd 5 = false ∧ pf0Open R.recCmd s) ∧
    (∀ s b, s = withBytes recordBuffer (recording recorderOn []) → b = bufBytes (longCmd 2097152 [0]) s →
      tcmdReady recVerifyCmd (longCmd 2097152 [0]) s ∧ dataBytes (longCmd 2097152 [0]) = 2097152 ∧
      ofLE (b.take 4) = 0x47455352 ∧ ofLE ((b.drop 4).take 2) = 1 ∧ ofLE ((b.drop 0x10).take 8) = s.dev.uniqueId ∧
      keyNamed s (ofLE ((b.drop 0xC).take 4)) = some (List.replicate 32 1)) ∧
    (∀ s, s = recording { recorderOn with loss := [(7, 2), (65535, 1)] } [] →
      tcmdReady recReadLossCmd (longCmd 4 [65535, 1]) s ∧ bodyWord (longCmd 4 [65535, 1]) 0x14 % 65536 = 65535 ∧
      bodyWord (longCmd 4 [65535, 1]) 0x18 % 2 ^ 17 = 1 ∧ dataBytes (longCmd 4 [65535, 1]) = 4 * 1 ∧ keyed s.recd.loss) := by
  repeat' apply And.intro
  all_goals first
    | decide +kernel
    | (with_reducible refine canonical_of ?_; decide +kernel)
    | (intro s h; subst h; decide +kernel)
    | (intro s g h k; subst h; subst k; decide +kernel)
    | (intro l h; cases h; exact ⟨rfl, rfl⟩)
    | (intro s h; subst h; repeat' apply And.intro
       all_goals first
         | decide +kernel
         | (with_reducible refine canonical_of ?_; decide +kernel)
         | (with_reducible refine keyed_of ?_; decide +kernel))
    | (intro s b h k; subst h; subst k; repeat' apply And.intro
       all_goals first
         | decide +kernel
         | (with_reducible refine canonical_of ?_; decide +kernel))

/-- Counter 7 of unit 29, and counter 0 of unit 0 in window mode. -/
def counting : State :=
  { inModeWith .stage [(R.prtGrantPmu, 2 ^ 29), (R.pmuEvt 0 0, 0x30), (R.pmuWindow 0 0, 1000)] with
    pmu := { State.reset.pmu with ctrs := [(0, { first := 1, windows := [(1, 500)] }), (239, { value := 2 ^ 32 + 3 })] } }

theorem witness_PerformanceCounters :
    (pf0Open (R.pmuCmd 29) counting ∧ pmuPresent counting 29 = true ∧ bit 7 (0x80 : Word).toNat = true ∧
      kvGet (8 * 29 + 7) counting.pmu.ctrs = some { value := 2 ^ 32 + 3 }) ∧
    (hostOpen counting = true ∧ bit 29 (rg counting R.prtGrantPmu) = true ∧ bit 0 (rg counting R.prtGrantPmu) = false ∧
      pmuPresent counting 0 = true) ∧
    (kvGet (8 * 0 + 0) counting.pmu.ctrs = some { first := 1, windows := [(1, 500)] } ∧ fld 7 0 (pmuEvt counting 0 0) = 0x30 ∧
      pmuLegal 0 (pmuEvt counting 0 0) = true ∧ timFault counting = false) := by
  repeat' apply And.intro
  all_goals decide +kernel

/-- Service states: a bank under test, a channel that retires, a leave to be completed. -/
def serviced (states : List (Nat × Nat)) (ts : List Transition) : State :=
  { inModeWith .stage [(R.prtEnable, 2), (R.svcCfg, 1 + 3 * 2 ^ 8)] with
    svc := { State.reset.svc with states := states, transitions := ts } }
def waitTcmd : Waiter := ⟨.tcmd, 0xD, 3, 7, 0, 0⟩
def testing (mark : Bool) : State :=
  let s := serviced [(unitKey 6 64, 2)] []
  { s with svc := { s.svc with tests := [(6, 64, mark, waitTcmd)] } }
def noted : State :=
  let s := serviced [] []
  { s with svc := { s.svc with notes := [⟨9, 95, 15, none⟩] } }

theorem witness_ServiceStates :
    (∀ s, s = serviced [(unitKey 1 63, 1)] [] → tcmdReady svcSetState (cmd [1 + 63 * 16 + 2 ^ 16, 0, 0, 0, 0]) s ∧
      s.gen.held = [] ∧ nameable s 1 63 1 = true ∧ transitionOf s 1 63 = none ∧ fillingSpare s 1 63 = false ∧ unitSt s 1 63 = 1 ∧
      tcmdReady svcSetState (cmd [1 + 62 * 16 + 2 ^ 17, 0, 0, 0, 0]) s ∧ nameable s 1 62 2 = true ∧ unitSt s 1 62 = 0 ∧
      leaveRefusal s 1 62 (bit 25 (1 + 62 * 16 + 2 ^ 17)) = none ∧ s.svc.transitions.length < 4) ∧
    (∀ s, s = serviced [] [] → tcmdReady svcRetire (cmd [6 + 519 * 16 + 2 ^ 24, 0, 0, 0, 0]) s ∧ bankWorks s 518 = true ∧
      tcmdReady svcRetire (cmd [6 + 518 * 16 + 2 ^ 24, 0, 0, 0, 0]) s ∧ 518 < kindUnits 6 ∧ unitSt s 6 518 ≠ 3 ∧
      transitionOf s 6 518 = none ∧ fillingSpare s 6 518 = false ∧ copying s 6 518 = false ∧ freeSpare s 6 518 = some 519 ∧
      (channelOf s 125).isSome = true ∧ 125 < kindUnits 7 ∧ copying s 7 125 = false ∧ freeSpare s 7 125 = some 126) ∧
    (∀ s, s = serviced [(unitKey 6 64, 2)] [] → tcmdReady svcTest (cmd [6 + 64 * 16, 0, 0, 0, 0]) s ∧ testable 6 64 = true ∧
      bit 27 (bodyWord (cmd [6 + 64 * 16, 0, 0, 0, 0]) 0x08) = false ∧ tcmdReady svcTest (cmd [6 + 64 * 16 + 2 ^ 27, 0, 0, 0, 0]) s ∧
      healthOpen s = true ∧
      unitSt s 6 64 = 2 ∧ transitionOf s 6 64 = none ∧ (s.svc.tests.any fun x => x.1 == 6 && x.2.1 == 64) = false) ∧
    (∀ s, s = serviced [] [] → tcmdReady svcHealthWrite (cmd [0x507 + 3 * 2 ^ 16, 0, 0, 0, 0]) s ∧
      bit 1 (rg s R.prtEnable) = true ∧ healthEntry 0x507 = true ∧ memWf s.mram.health = true ∧
      tcmdReady svcReadState (cmd [9 + 95 * 16, 0, 0, 0, 0]) s ∧ 95 < kindUnits 9) ∧
    (∀ s, s = serviced [] [⟨1, 63, 1, 2, 0, none, false, none⟩] → transitionOf s 1 63 = some ⟨1, 63, 1, 2, 0, none, false, none⟩ ∧
      s.gen.held = [] ∧ keyed s.svc.states ∧ RegsCanonical s ∧ leaveComplete s 1 63 = true) ∧
    (∀ s, s = serviced [] [⟨6, 519 - 1, 2, 3, 0, some 519, true, none⟩] →
      transitionOf s 6 518 = some ⟨6, 518, 2, 3, 0, some 519, true, none⟩ ∧ RegsCanonical s ∧ keyed s.svc.states) ∧
    (∀ mark ∈ [true, false], (testing mark).svc.tests.find? (fun x => x.1 == 6 && x.2.1 == 64) = some (6, 64, mark, waitTcmd) ∧
      waitTcmd.via = .tcmd ∧ (testing mark).gen.held = [] ∧ regsWf (testing mark).regs = true) ∧
    (∀ s, s = serviced [] [] → s.md.mode = .stage ∧ bit 0 (rg s R.svcCfg) = true ∧ fld 23 8 (rg s R.svcCfg) ≤ 3 ∧
      (channelOf s 0).isSome = true ∧ unitSt s 7 0 = 0 ∧ transitionOf s 7 0 = none ∧ freeSpare s 7 0 = some 30 ∧
      copying s 7 0 = false ∧ RegsCanonical s) ∧
    (noted.svc.notes = [⟨9, 95, 15, none⟩] ∧ healthOff 9 95 = some 0x9F ∧ healthEntry 0x9F = true ∧ 15 < 16 ∧ memWf noted.mram.health = true) := by
  repeat' apply And.intro
  all_goals first
    | decide +kernel
    | (intro s h; subst h; repeat' apply And.intro
       all_goals first
         | decide +kernel
         | (with_reducible refine canonical_of ?_; decide +kernel)
         | (with_reducible refine keyed_of ?_; decide +kernel))

theorem witness_TailWrites :
    (∀ s, s = withRing .rx 63 { active := true, size := 64, head := 60, tail := 62, fetch := 60 } (inMode .stage) →
      RegsCanonical s ∧ hostOpen s = true ∧ 63 < kindCount .rx ∧ (ring s .rx 63).active = true ∧
      (ring s .rx 63).stopping = false ∧ 59 < 64 ∧ (62 + 64 - 60) % 64 ≤ (59 + 64 - 60) % 64 ∧ (62 + 64 - 60) % 64 ≤ (62 + 64 - 60) % 64 ∧
      ¬((62 + 64 - 60) % 64 ≤ (61 + 64 - 60) % 64) ∧ ¬((64 : Nat) < 64)) ∧
    (∀ s, s = inMode .stage → (ring s .cmd 7).active = false ∧ 7 < kindCount .cmd ∧ RegsCanonical s) := by
  refine ⟨?_, ?_⟩
  all_goals
    intro s h; subst h; repeat' apply And.intro
    all_goals first | decide +kernel | (with_reducible refine canonical_of ?_; decide +kernel)

theorem witness_LinkDownStopsTransmit : State.reset.host.linkUp = false := rfl

theorem witness_ImageBusyAndMark :
    ((imageDone 3 1 0).img.busy.isSome = true) ∧
    (∀ s, s = { inMode .stage with mram := { State.reset.mram with autoload := some 3 } } →
      imgOpen s = true ∧ s.mram.autoload = some 3) := by
  refine ⟨rfl, ?_⟩
  intro s h; subst h; decide +kernel

theorem witness_GenerationNumber :
    ∀ s, s = genState .stage { State.reset.gen with effectAt := some 9, st := 2, current := 2 ^ 32 - 1 } →
      1100 ≤ 1100 ∧ s.gen.effectAt = some 9 ∧ s.gen.st = 2 ∧ s.gen.held = [] ∧ s.gen.current < 2 ^ 32 := by
  intro s h; subst h; decide +kernel

theorem witness_RegionRelease :
    ∀ s, s = { inMode .stage with recd := { recorderOn with regions := [(3, ⟨1, 1, 0, 0, [4, 5], 2, 0⟩)], post := some 3 } } →
      keyed s.recd.regions ∧ kvGet 3 s.recd.regions = some ⟨1, 1, 0, 0, [4, 5], 2, 0⟩ ∧ pf0Open R.recCmd s ∧
      tcmdReady recReleaseCmd (cmd [3, 0, 0, 0, 0]) s := by
  intro s h; subst h; repeat' apply And.intro
  all_goals first
    | decide +kernel
    | (with_reducible refine canonical_of ?_; decide +kernel)
    | (with_reducible refine keyed_of ?_; decide +kernel)

theorem witness_HotDieStopsBatches :
    ((parkState 1 true).md.mode = .park ∧ (parkState 1 true).pins.supplies = true ∧ (parkState 1 true).svc.hot = true ∧
      1 ≤ (parkState 1 true).md.wave ∧ (parkState 1 true).md.wave ≠ 11 ∧ (parkState 1 true).md.wave < 12) ∧
    ((16 * 110 : Int) ≤ 1760 ∧ (1679 : Int) < 16 * 105 ∧ (16 * 105 : Int) ≤ 1680 ∧ (1759 : Int) < 16 * 110) := by
  decide +kernel

/-! ## Small tests: expected values from the spec's examples and tables, or standard check values -/

/-- R129, R554: check values of CRC-32 and of CRC-32C (without its final inversion) over the digits 1 to 9. -/
theorem test_crc : crc32 ((List.range 9).map fun i => BitVec.ofNat 8 (0x31 + i)) = 0xCBF43926 ∧
    crc32c 0xFFFFFFFF ((List.range 9).map fun i => BitVec.ofNat 8 (0x31 + i)) = 0xFFFFFFFF - 0xE3069283 := by decide +kernel

/-- FIPS 180-4: SHA-256 of "abc"; RFC 4231, case 1: HMAC-SHA-256 of "Hi There". -/
theorem test_sha256 : (sha256 [0x61, 0x62, 0x63]).take 4 = [0xBA, 0x78, 0x16, 0xBF] := by decide +kernel
theorem test_hmac : (hmac (List.replicate 20 0x0B) [0x48, 0x69, 0x20, 0x54, 0x68, 0x65, 0x72, 0x65]).take 4 =
    [0xB0, 0x34, 0x4C, 0x61] := by decide +kernel

/-- R11, R12 (the example after R12): L077 carries P077 at 4 × 25GBASE-R and P076 at 100GBASE-R. -/
theorem test_lane_to_port : portOfLane (setQuad 19 { mode := 9 } (inMode .run)) 77 = 77 ∧
    portOfLane (setQuad 19 { mode := 11 } (inMode .run)) 77 = 76 ∧ portSlice 77 = 2 := by decide +kernel

/-- The example after R279: a frame of the gauge, and one of the controller's reply. -/
def exampleFrame (sip dip sport dport : List Byte) : List Byte :=
  List.replicate 12 2 ++ [0x81, 0x00, 0x00, 0x64, 0x08, 0x00] ++
    [0x45, 0, 0, 62, 0, 0, 0, 0, 64, 17, 0, 0] ++ sip ++ dip ++ sport ++ dport ++ [0, 42, 0, 0] ++ List.replicate 38 0
def toController : List Byte := exampleFrame [10, 0, 3, 7] [10, 0, 1, 20] [0xC3, 0x50] [0x01, 0x3F]
def toGauge : List Byte := exampleFrame [10, 0, 1, 20] [10, 0, 3, 7] [0x01, 0x3F] [0xC3, 0x50]
def hashing : State := inModeWith .run [(R.prsHashCfg 0, 0xB), (R.prsTpid 0, 0x88A88100)]

/-- R273: its headers are found; R279: both directions have the hash of the 15 bytes that the example lists. -/
theorem test_parse_and_hash :
    (∀ x, x = parseFrame (prsCfg hashing 0 0) toController → x.mal = 0 ∧ x.sport = 50000 ∧ x.dport = 319 ∧ x.ptp = some 46 ∧
      outerVid x = 100 ∧ hashOf hashing 0 0 toController x = crc32c (rg hashing (R.prsHashSeed 0))
        [0x0A, 0x00, 0x01, 0x14, 0x01, 0x3F, 0x0A, 0x00, 0x03, 0x07, 0xC3, 0x50, 0x11, 0x00, 0x64]) ∧
    hashOf hashing 0 0 toController (parseFrame (prsCfg hashing 0 0) toController) =
      hashOf hashing 0 0 toGauge (parseFrame (prsCfg hashing 0 0) toGauge) := by
  refine ⟨?_, by decide +kernel⟩
  intro x h; subst h; decide +kernel

/-- The example after R294: 100 µs at 6.25 bytes/µs after a level of 4,000 bytes, then frames of 1,000 and 16,000 bytes. -/
def meterWords : List Nat := [1, 50000, 0, 320]
def refilled : Meter := meterRefill meterWords (usT 100) { c := 4000 * meterByte, last := some 0 }
theorem test_meter : refilled.c = 4625 * meterByte ∧
    meterColour 1 (1000 * meterByte) false refilled = (0, { refilled with c := 3625 * meterByte }) ∧
    (meterColour 1 (16000 * meterByte) false { refilled with c := 3625 * meterByte }).1 = 2 := by decide +kernel

/-- The example after R295: eight frames at a vector function of HISTORY_LENGTH 32. -/
def recoverRun : List Nat → Recovery → List Bool × Recovery
  | [], r => ([], r)
  | n :: ns, r =>
    let a := recover false 32 n r
    let b := recoverRun ns a.1
    (a.2 :: b.1, b.2)
theorem test_sequence_recovery :
    (recoverRun [100, 101, 100, 101, 103, 102, 103, 7] {}).1 = [true, true, false, false, true, true, false, false] ∧
    (recoverRun [100, 101, 100, 101, 103, 102, 103, 7] {}).2.hist = 0xF ∧
    (recoverRun [100, 101, 100, 101, 103, 102, 103, 7] {}).2.ctr = [0, 0, 2, 1, 0, 0, 0] := by decide +kernel

/-- R306 and the learning example: bucket 5,120 of half 0 has index 40,963 in slot 3, bucket 12,200 of half 1 has 228,678 in slot 6. -/
theorem test_bucket_slots : nth 0 (bucketSlots 0 5120) 3 = 40963 ∧ nth 0 (bucketSlots 1 12200) 6 = 228678 := by decide +kernel

/-- The example after R327: 10.16.0.0/12, 10.20.48.0/20 and 10.20.52.0/22 as a frame stamped at T or later meets them. -/
def routed : State :=
  { inMode .run with tab := { State.reset.tab with routes :=
      [{ v6 := false, len := 12, addr := 0x0A10 * 2 ^ 48, r0 := some 40, r1 := some 40 },
       { v6 := false, len := 20, addr := 0x0A1430 * 2 ^ 40, r1 := some 5001 },
       { v6 := false, len := 22, addr := 0x0A1434 * 2 ^ 40, r1 := some 17 }] } }
theorem test_longest_match :
    (longestMatch routed 1 false (0x0A143409 * 2 ^ 32)).map (·.2) = some 17 ∧
    (longestMatch routed 1 false (0x0A143801 * 2 ^ 32)).map (·.2) = some 5001 ∧
    (longestMatch routed 1 false (0x0A142F01 * 2 ^ 32)).map (·.2) = some 40 ∧
    (longestMatch routed 0 false (0x0A143409 * 2 ^ 32)).map (·.2) = some 40 := by decide +kernel

/-- Clause 36 of IEEE 802.3, which R173 names: K28.5 at either disparity, D0.0, D21.5 and D17.7 at negative disparity, and a group that
no symbol has. -/
theorem test_code_groups :
    codeOf false (.k 0xBC) = 0b0011111010 ∧ codeOf true (.k 0xBC) = 0b1100000101 ∧ codeOf false (.d 0) = 0b1001110100 ∧
    codeOf false (.d 0xB5) = 0b1010101010 ∧ codeOf false (.d 0xF1) = 0b1000110111 ∧ groupLegal false 0x3FF = false := by decide +kernel

/-- The instruction of the loader's example: EXT g9, g2, 18, 12 is 0x02E4_A24B (R383). -/
theorem test_ext : aluResult (List.replicate 2 0 ++ [0x2ABC0000] ++ List.replicate 13 0) 0x02E4A24B = some 0xAAF ∧
    fld 21 18 0x02E4A24B = 9 := by decide +kernel

/-- R379 to R382 for its program of W = 9: B_8(64) = 10, B_6(64) = 8, and the sizes 64 and 74. -/
theorem test_line_rate : budget64 8 = 10 ∧ budget64 6 = 8 ∧ lineSize 8 9 false = 64 ∧ lineSize 6 9 false = 74 := by decide

/-- The same example: TTL 64 to 63 takes the checksum 0xB1E6 to 0xB2E6 (R372). -/
theorem test_checksum_update :
    (checksumOp ((List.range 16).map fun i => if i = 11 then 0x4011 else if i = 13 then 0x3F11 else 0) (4 * 2 ^ 24 + 11 * 2 ^ 20 +
        13 * 2 ^ 16 + 28)
      { s := State.reset, x := { someContext none none with window := List.replicate 28 0 ++ [0xB1, 0xE6] ++ List.replicate 10 0 } }).x.window =
      List.replicate 28 0 ++ [0xB2, 0xE6] ++ List.replicate 10 0 := by decide +kernel

/-- The example of R214: 76 cells of headroom on a port at 25 Gb/s with M 1,522, T_w 110 ns and T_r 1,000 ns. -/
def pfcState : State :=
  withRegs [(R.macPauseCfg 77 + viewSize, 2), (R.macMaxFrame 77 + viewSize, 1522), (R.macHeadroomCfg 77 + viewSize, 110 + 1000 * 2 ^ 16)]
    (setQuad 19 { mode := 9 } (inMode .run))
theorem test_headroom : headroomCells pfcState 77 = 76 := by decide +kernel

/-- The example after R204: a runt with a bad CRC counts in RX_RUNT, a frame of 20,000 bytes in RX_TRUNCATED (R203). -/
theorem test_error_counters :
    (∀ f, f = (⟨List.replicate 40 1, 0, false, false, false, 0, 0, [], [], 0, 0⟩ : RxFrame) → rxErrors f 9216 = 1 + 4 ∧
      rxErrorCounter f (rxErrors f 9216) = 10) ∧
    rxErrorCounter ⟨[], 0, false, false, false, 0, 0, [], [], 0, 0⟩ (2 + 32) = 12 := by
  refine ⟨?_, by decide⟩
  intro f h; subst h; decide +kernel

/-- The gate list of P096 in the scheduling example: 20,000 ns for queue 7, then 230,000 ns for queues 0 to 6. -/
def gateExample : State :=
  withRegs [(R.timCgCfg 5 + viewSize, 1), (R.timCgPeriod 5 + viewSize, 250000), (R.gclCfg 96, 1 + 5 * 2 ^ 8 + 2 * 2 ^ 16),
    (R.gclEntryGates 96 0, 0x80), (R.gclEntryInterval 96 0, 20000), (R.gclEntryGates 96 1, 0x7F), (R.gclEntryInterval 96 1, 230000)]
    (setQuad 24 { mode := 9 } { inMode .run with tim := { State.reset.tim with gens := [(5, { k := some 0, at_ := 0, made := true })] } })
theorem test_gates :
    gateOpen gateExample 0 96 7 (nsT 19999) = true ∧ gateOpen gateExample 0 96 7 (nsT 20000) = false ∧
    gateOpen gateExample 0 96 0 (nsT 20000) = true ∧ gateOpen gateExample 0 96 0 (nsT 250000) = false ∧
    100 * wireTime gateExample 96 1538 = nsT 49216 ∧
    gateFits gateExample 0 96 0 (nsT 249507) (wireTime gateExample 96 1538) = true ∧
    gateFits gateExample 0 96 0 (nsT 249508) (wireTime gateExample 96 1538) = false := by decide +kernel

/-- The recorder example: REC_GIB 64 gives 32,760 slots; PRE of 8,186 segments at 90 % is 7,367; 1,582 bytes pad to 1,600. -/
theorem test_recorder_ring :
    (∀ s, s = layRing { inMode .stage with buf := { State.reset.buf with recGib := 64 } } → recSlots s = 32760) ∧
    (∀ s, s = inModeWith .stage [(R.recFreezeCfg + viewSize, 8186 + 90 * 2 ^ 16)] → preSegs s = 7367) ∧ padded32 1582 = 1600 := by
  refine ⟨?_, ?_, by decide⟩
  all_goals intro s h; subst h; decide +kernel

/-- The retirement example: pseudo-channel 39 serves logical channel 37; the spare chosen is 62 (R509, R522). -/
theorem test_retire_example : physicalOf (inMode .run) 37 = 39 ∧ channelOf (inMode .run) 39 = some 37 ∧
    freeSpare (inMode .run) 7 39 = some 62 := by decide +kernel

/-- The range-check examples (R125): a link-hold above 2,000 ms becomes 2,000; a LENGTH of 1,500 becomes 1,024 and an interval of 5
becomes 8. -/
def checked (off : Nat) (l : List (Nat × Nat)) : State := (checkReg ⟨inModeWith .stage l, []⟩ off).st
theorem test_range_check :
    rg (checked (R.macLinkCfg 33) [(R.macLinkCfg 33, 2047)]) (R.macLinkCfg 33) = 2000 ∧
    pgF (checked (R.gclCfg 96) [(R.gclCfg 96 + viewSize, 1500 * 2 ^ 16)]) 1 (R.gclCfg 96) 26 16 = 1024 ∧
    pgF (checked (R.gclEntryInterval 96 0) [(R.gclEntryInterval 96 0 + viewSize, 5)]) 1 (R.gclEntryInterval 96 0) 29 0 = 8 := by
  decide +kernel

/-- R97 to R99: the targets and opcodes that name a command are those that have a meaning. -/
theorem test_known_commands :
    (List.range 18).all (fun t => (List.range 18).all fun o => knownCmd t o == (specOf t o).isSome) = true := by decide +kernel

/-- The examples of R530 (L077 in rows J and L, REFCLK_05 in row J) and pins of R531 by their names. -/
theorem test_balls :
    [ballAt 9 22, ballAt 9 23, ballAt 11 22, ballAt 11 23] = [.laneTx 77 false, .laneTx 77 true, .laneRx 77 false, .laneRx 77 true] ∧
    [ballAt 47 13, ballAt 49 14] = [.laneTx 200 false, .laneRx 200 true] ∧ [ballAt 9 52, ballAt 9 53] = [.refclk 5 false, .refclk 5 true] ∧
    [rowName 9, rowName 20, rowName 47] = ["J", "AA", "BJ"] ∧ [ballAt 38 27, ballAt 20 36] = [.pin "TIO_00", .pin "TCK"] := by
  decide +kernel

/-- The counts after R532: 1,128 signal balls, 519 supply balls, 1,269 GND balls; those of each rail are the table's of R536. -/
theorem test_ball_counts : ballCount (· == .gnd) = 1269 ∧
    ((List.range 9).map fun n => ballCount (· == .rail n)) = [128, 51, 42, 17, 154, 88, 22, 9, 8] ∧ 54 * 54 - 1269 - 519 = 1128 := by
  decide +kernel

end Sys2Proof.Tests
end

section
/-! PROOFS. Register accesses of the host (R4 to R8, R73, R122, R142, R144): the rules of the registers, events and accesses that
the two statements on them use, and the statements. -/

namespace Sys2Proof.Proofs

open Sys2Proof Sys2Proof.Machine Sys2Proof.Safety Sys2Proof.Laws

/-! ## The rows -/

theorem exec_accessError (a : BadAccess) (s : State) : exec (.accessError a) s = .next (accessError a s) := rfl

theorem exec_registerWrite (a : RegWrite) (s : State) : exec (.registerWrite a) s = .next (regWrite a s) := rfl

/-- A low-word read and a clearing read are one and the same access (R5, R8). -/
theorem exec_regRead {c : Instr} {a : RegRead} (h : c = .wideLowWordRead a ∨ c = .clearOnRead a) (s : State) :
    exec c s = .next (regRead a s) := by
  rcases h with rfl | rfl <;> rfl

/-! ## Frames -/

theorem changesOnly_mono {ps qs : List Part} {s t : State} (h : changesOnly ps s t) (sub : ps ⊆ qs) : changesOnly qs s t :=
  fun p hp => h p fun hm => hp (sub hm)

theorem registersBut_of_regs {s t : State} (h : t.regs = s.regs) (offs : List Nat) : registersBut offs s t :=
  fun _ _ => by rw [h]

theorem registersBut_mono {xs ys : List Nat} {s t : State} (h : registersBut xs s t) (sub : xs ⊆ ys) : registersBut ys s t :=
  fun k hk => h k fun hm => hk (sub hm)

theorem registersBut_trans {xs : List Nat} {s t u : State} (h : registersBut xs s t) (k : registersBut xs t u) :
    registersBut xs s u :=
  fun i hi => (k i hi).trans (h i hi)

theorem rg_of_registersBut {xs : List Nat} {s t : State} (h : registersBut xs s t) {k : Nat} (hk : k ∉ xs) : rg t k = rg s k := by
  unfold rg; rw [h k hk]

/-! ## Counters, sticky bits and cleared words -/

theorem rg_lt (s : State) (k : Nat) : rg s k < 2 ^ 32 := (regWord s.regs k).isLt

theorem rg_congr {s t : State} (h : t.regs = s.regs) (k : Nat) : rg t k = rg s k := by rw [rg, rg, h]

theorem regsCanonical_incRg (off : Nat) {s : State} (h : RegsCanonical s) : RegsCanonical (incRg off s) :=
  regsCanonical_setRg off _ h

theorem rg_incRg (off : Nat) {s : State} (h : RegsCanonical s) : rg (incRg off s) off = (rg s off + 1) % 2 ^ 32 := by
  unfold incRg addRg
  rw [rg_setRg off _ h, Nat.mod_mod]

theorem registersBut_incRg (off : Nat) {s : State} (h : RegsCanonical s) : registersBut [off] s (incRg off s) :=
  registersBut_setRg off _ h

theorem registersBut_stickRg (off i : Nat) {s : State} (h : RegsCanonical s) : registersBut [off] s (stickRg off i s) :=
  registersBut_setRg off _ h

theorem regsCanonical_incRg64 (off : Nat) {s : State} (h : RegsCanonical s) : RegsCanonical (incRg64 off s) :=
  regsCanonical_setRg _ _ (regsCanonical_setRg _ _ h)

theorem registersBut_incRg64 (off : Nat) {s : State} (h : RegsCanonical s) :
    registersBut [off, off + 4] s (incRg64 off s) := by
  unfold incRg64 addRg64 setRg64
  exact registersBut_trans (registersBut_mono (registersBut_setRg off _ h) (by simp))
    (registersBut_mono (registersBut_setRg (off + 4) _ (regsCanonical_setRg off _ h)) (by simp))

theorem regsCanonical_clearWord (h : RegHit) {s : State} (c : RegsCanonical s) : RegsCanonical (clearWord h s) :=
  regsCanonical_setRg h.off _ c

/-- A read that clears leaves the word without its RC bits (R5). -/
theorem rg_clearWord (h : RegHit) {s : State} (c : RegsCanonical s) :
    rg (clearWord h s) h.off = rg s h.off - (rg s h.off &&& accMask h (· == .rc)) := by
  unfold clearWord
  rw [rg_setRg h.off _ c, Nat.mod_eq_of_lt (Nat.lt_of_le_of_lt (Nat.sub_le _ _) (rg_lt s h.off))]

theorem registersBut_clearWord (h : RegHit) {s : State} (c : RegsCanonical s) : registersBut [h.off] s (clearWord h s) :=
  registersBut_setRg h.off _ c

theorem changesOnly_clearWord (h : RegHit) (s : State) : changesOnly [.registers] s (clearWord h s) :=
  changesOnly_of fun p => by cases p <;> simp [Part.same]

/-- The two words of a pair are cleared independently of each other. -/
theorem clearWord_pair (h : RegHit) (low : h.hiWord = false) {s : State} (c : RegsCanonical s) :
    let t := clearWord { h with hiWord := true } (clearWord h s)
    rg t h.lowOff = rg s h.lowOff - (rg s h.lowOff &&& accMask h (· == .rc)) ∧
      rg t (h.lowOff + 4) =
        rg s (h.lowOff + 4) - (rg s (h.lowOff + 4) &&& accMask { h with hiWord := true } (· == .rc)) ∧
      registersBut [h.lowOff, h.lowOff + 4] s t := by
  intro t
  have offLow : h.off = h.lowOff := by simp [RegHit.off, low]
  have c1 := regsCanonical_clearWord h c
  have low1 := rg_clearWord h c
  have but1 := registersBut_clearWord h c
  have high2 := rg_clearWord { h with hiWord := true } c1
  have but2 := registersBut_clearWord { h with hiWord := true } c1
  have offHigh : RegHit.off { h with hiWord := true } = h.lowOff + 4 := by simp [RegHit.off]
  rw [offLow] at low1 but1
  rw [offHigh] at high2 but2
  refine ⟨?_, ?_, ?_⟩
  · rw [rg_of_registersBut but2 (by simp), low1]
  · rw [high2, rg_of_registersBut but1 (by simp)]
  · exact registersBut_trans (registersBut_mono but1 (by simp)) (registersBut_mono but2 (by simp))

theorem changesOnly_answer (v : Nat) (s : State) : changesOnly [.latches] s (answer v s) :=
  changesOnly_of fun p => by cases p <;> simp [Part.same]

theorem changesOnly_incRg (off : Nat) (s : State) : changesOnly [.registers] s (incRg off s) :=
  changesOnly_of fun p => by cases p <;> simp [Part.same]

/-! ## Events (R101, R102) -/

/-- The registers in which a lost or discarded event record shows: the counter of those dropped and each ring's status. -/
def eventLossRegs : List Nat := R.rngEvtDropped :: (R.rngEvtDropped + 4) :: (List.range 8).map R.rngEvtStatus

theorem rngEvtStatus_mem_eventLossRegs (route : Nat) : R.rngEvtStatus (fld 2 0 route) ∈ eventLossRegs := by
  have : fld 2 0 route < 8 := Nat.mod_lt _ (by decide)
  simp only [eventLossRegs, List.mem_cons, List.mem_map, List.mem_range]
  exact .inr (.inr ⟨_, this, rfl⟩)

theorem registersBut_eventDropped {s : State} (h : RegsCanonical s) :
    registersBut eventLossRegs s (incRg64 R.rngEvtDropped s) :=
  registersBut_mono (registersBut_incRg64 R.rngEvtDropped h) (by simp [eventLossRegs])

theorem changesOnly_emit (cls typ src : Nat) (body : List Nat) (s : State) :
    changesOnly [.host, .registers] s (emit cls typ src body s) :=
  changesOnly_of fun p => by cases p <;> simp [Part.same]

/-- Sending an event touches no register but those that show its loss. -/
theorem registersBut_emit (cls typ src : Nat) (body : List Nat) {s : State} (h : RegsCanonical s) :
    registersBut eventLossRegs s (emit cls typ src body s) := by
  unfold emit
  dsimp only
  split
  · exact registersBut_eventDropped h
  · split
    · exact registersBut_of_regs rfl _
    · refine registersBut_trans (t := incRg64 R.rngEvtDropped _) ?_
        (registersBut_mono (registersBut_stickRg _ 3 ?_) (by simpa using rngEvtStatus_mem_eventLossRegs _))
      · exact registersBut_eventDropped (s := { s with host := _ }) h
      · exact regsCanonical_incRg64 R.rngEvtDropped (s := { s with host := _ }) h

theorem eventSent_emit (cls typ src : Nat) (body : List Nat) (s : State) :
    eventSent cls typ src s.now body s (emit cls typ src body s) := by
  intro routed room
  simp only [eventRing] at room ⊢
  simp [emit, eventRing, pushEvent, routed, room]

/-- An event is sent from any state with the same backlogs and the same route. -/
theorem eventSent_congr_source {cls typ src at' : Nat} {body : List Nat} {s u t : State} (host : u.host = s.host)
    (route : rg u (R.rngEvtRoute cls) = rg s (R.rngEvtRoute cls)) (h : eventSent cls typ src at' body u t) :
    eventSent cls typ src at' body s t := by
  simpa only [eventSent, eventRing, host, route] using h

/-- What is done after it, the backlogs standing, takes no event back. -/
theorem eventSent_congr_target {cls typ src at' : Nat} {body : List Nat} {s t u : State} (host : u.host = t.host)
    (h : eventSent cls typ src at' body s t) : eventSent cls typ src at' body s u := by
  simpa only [eventSent, eventRing, host] using h

/-! ## Events of the warden and violations (R144, R152) -/

theorem bit_wEvent (i : Nat) (s : State) : bit i (wEvent i s).side.event = true := by
  have set : bit i (s.side.event ||| 2 ^ i) = true := by simp [bit]
  unfold wEvent
  dsimp only
  split <;> exact set

theorem rg_wEvent (i k : Nat) (s : State) : rg (wEvent i s) k = rg s k := rg_congr (by simp) k

theorem violation_eq (off party : Nat) (s : State) :
    violation off party s = wEvent 4 (emit 0xF 0 95 [off + party * 2 ^ 26, 0] (incRg R.prtViolations s)) := by
  simp [violation, emitProtect]

theorem changesOnly_violation (off party : Nat) (s : State) :
    changesOnly [.side, .host, .registers] s (violation off party s) :=
  changesOnly_of fun p => by cases p <;> simp [Part.same]

theorem bit_violation (off party : Nat) (s : State) : bit 4 (violation off party s).side.event = true := by
  rw [violation_eq]; exact bit_wEvent 4 _

theorem registersBut_violation (off party : Nat) {s : State} (h : RegsCanonical s) :
    registersBut (R.prtViolations :: eventLossRegs) s (violation off party s) := by
  rw [violation_eq]
  have counted := registersBut_incRg R.prtViolations h
  have sent := registersBut_emit 0xF 0 95 [off + party * 2 ^ 26, 0] (regsCanonical_incRg R.prtViolations h)
  exact registersBut_trans (registersBut_mono counted (by simp))
    (registersBut_trans (registersBut_mono sent (by simp)) (registersBut_of_regs (by simp) _))

theorem rg_prtViolations_violation (off party : Nat) {s : State} (h : RegsCanonical s) :
    rg (violation off party s) R.prtViolations = (rg s R.prtViolations + 1) % 2 ^ 32 := by
  have sent := registersBut_emit 0xF 0 95 [off + party * 2 ^ 26, 0] (regsCanonical_incRg R.prtViolations h)
  rw [violation_eq, rg_wEvent, rg_of_registersBut sent (by decide), rg_incRg _ h]

theorem eventSent_violation (off party : Nat) {s : State} (h : RegsCanonical s) :
    eventSent 0xF 0 95 s.now [off + party * 2 ^ 26, 0] s (violation off party s) := by
  have route := rg_of_registersBut (registersBut_incRg R.prtViolations h) (k := R.rngEvtRoute 0xF) (by decide)
  have sent := eventSent_emit 0xF 0 95 [off + party * 2 ^ 26, 0] (incRg R.prtViolations s)
  rw [show (incRg R.prtViolations s).now = s.now by simp] at sent
  rw [violation_eq]
  exact eventSent_congr_target (by simp) (eventSent_congr_source (by simp) route sent)

/-! ## Access errors (R4, R73) -/

/-- What a misaligned or wrong-sized access gives its party: a read returns 0. -/
def badAnswer (a : BadAccess) (s : State) : State := if a.write then s else answer 0 s

theorem badAnswer_rdata {a : BadAccess} (h : a.write = false) (s : State) : (badAnswer a s).lat.rdata = 0 := by
  simp [badAnswer, h, answer]

theorem changesOnly_badAnswer (a : BadAccess) (s : State) : changesOnly [.latches] s (badAnswer a s) := by
  unfold badAnswer
  split
  · exact changesOnly_of fun p => by cases p <;> simp [Part.same]
  · exact changesOnly_answer 0 s

/-- Where the access is not taken, the answer is all that happens (log entry 62). -/
theorem accessError_ignored {a : BadAccess} {s : State} (h : s.md.mode = .reset ∨ s.md.mode = .park ∨ a.party = .side) :
    accessError a s = badAnswer a s := by
  have notTaken : a.party = .side ∨ s.md.mode = .reset ∨ s.md.mode = .park := by
    rcases h with reset | park | side
    · exact .inr (.inl reset)
    · exact .inr (.inr park)
    · exact .inl side
  exact if_pos notTaken

theorem accessError_pf1 {a : BadAccess} {s : State} (reset : s.md.mode ≠ .reset) (park : s.md.mode ≠ .park)
    (pf1 : a.party = .pf1) : accessError a s = incRg R.rngAccessErr (badAnswer a s) := by
  simp [accessError, badAnswer, reset, park, pf1]

theorem accessError_pf0 {a : BadAccess} {s : State} (reset : s.md.mode ≠ .reset) (park : s.md.mode ≠ .park)
    (pf0 : a.party = .pf0) : accessError a s =
      emit 0xC 0 94 [a.off % 2 ^ 26 + a.bar % 4 * 2 ^ 26 + b2n a.write * 2 ^ 28, a.byteEnables % 256]
        (incRg R.rngAccessErr (badAnswer a s)) := by
  simp [accessError, badAnswer, reset, park, pf0]

/-- An access error of PF0 or PF1 in a mode that takes accesses: it is counted, and one of PF0 is reported (R73). -/
theorem accessError_taken {a : BadAccess} {s : State} (canon : RegsCanonical s) (reset : s.md.mode ≠ .reset)
    (park : s.md.mode ≠ .park) (party : a.party ≠ .side) :
    ∃ t, exec (.accessError a) s = .next t ∧ rg t R.rngAccessErr = (rg s R.rngAccessErr + 1) % 2 ^ 32 ∧
      (a.write = false → t.lat.rdata = 0) ∧
      (a.party = .pf0 → eventSent 0xC 0 94 s.now
        [a.off % 2 ^ 26 + a.bar % 4 * 2 ^ 26 + b2n a.write * 2 ^ 28, a.byteEnables % 256] s t) ∧
      (a.party = .pf1 → t.host = s.host ∧ registersBut [R.rngAccessErr] s t) ∧
      changesOnly [.host, .latches, .registers] s t := by
  have regs : (badAnswer a s).regs = s.regs := changesOnly_badAnswer a s .registers (by decide)
  have host : (badAnswer a s).host = s.host := changesOnly_badAnswer a s .host (by decide)
  have now : (badAnswer a s).now = s.now := changesOnly_badAnswer a s .masterTime (by decide)
  have canon1 : RegsCanonical (badAnswer a s) := (regsCanonical_congr regs).mpr canon
  have counted : rg (incRg R.rngAccessErr (badAnswer a s)) R.rngAccessErr = (rg s R.rngAccessErr + 1) % 2 ^ 32 := by
    rw [rg_incRg _ canon1, rg_congr regs]
  have others : registersBut [R.rngAccessErr] s (incRg R.rngAccessErr (badAnswer a s)) :=
    registersBut_trans (registersBut_of_regs regs _) (registersBut_incRg _ canon1)
  have answered : changesOnly [.host, .latches, .registers] s (incRg R.rngAccessErr (badAnswer a s)) :=
    changesOnly_trans (changesOnly_mono (changesOnly_badAnswer a s) (by simp))
      (changesOnly_mono (changesOnly_incRg _ _) (by simp))
  cases p : a.party with
  | side => exact absurd p party
  | pf1 =>
    rw [exec_accessError, accessError_pf1 reset park p]
    refine ⟨_, rfl, counted, fun read => ?_, by simp, fun _ => ⟨?_, others⟩, answered⟩
    · simpa using badAnswer_rdata read s
    · simpa using host
  | pf0 =>
    rw [exec_accessError, accessError_pf0 reset park p]
    refine ⟨_, rfl, ?_, fun read => ?_, fun _ => ?_, by simp, ?_⟩
    · rw [rg_of_registersBut (registersBut_emit _ _ _ _ (regsCanonical_incRg _ canon1)) (by decide), counted]
    · simpa using badAnswer_rdata read s
    · refine eventSent_congr_source (u := incRg R.rngAccessErr (badAnswer a s)) (by simpa using host)
        (rg_of_registersBut others (by decide)) ?_
      rw [← now, ← show (incRg R.rngAccessErr (badAnswer a s)).now = (badAnswer a s).now by simp]
      exact eventSent_emit _ _ _ _ _
    · exact changesOnly_trans answered (changesOnly_mono (changesOnly_emit _ _ _ _ _) (by simp))

/-! ## Reads of BAR0 where the host has access (R5, R8, R44) -/

theorem bar0Open_of_hostOpen {s : State} (h : hostOpen s = true) (off : Nat) : bar0Open s off = true := by
  obtain ⟨reset, wake, park⟩ := mode_of_hostOpen h
  unfold bar0Open
  split <;> simp_all

/-- A read of PF0 at a register's own offset, where no row of its own reads it. -/
theorem regRead_pf0 {off : Nat} {h : RegHit} {s : State} (opened : hostOpen s = true) (below : off < 0x2000000)
    (aligned : off % 4 = 0) (hit : regAt off = some h) (plain : readSpecial h s = none) :
    regRead { party := .pf0, bar := 0, off := off } s = readWord off 0 h s := by
  simp [regRead, readBar0, readPlain, bar0Open_of_hostOpen opened, below, aligned, hit, plain]

/-- The state after a low-word read has latched the high word of its pair for PF0 (R8). -/
def latchHigh (off : Nat) (h : RegHit) (s : State) : State :=
  { s with lat := { s.lat with
      high := kvPut (latchKey off .pf0) (BitVec.ofNat 32 (ownWord s 0 { h with hiWord := true })) s.lat.high } }

theorem latchHigh_high (off : Nat) (h : RegHit) (s : State) :
    kvGetD 0 (latchKey off .pf0) (latchHigh off h s).lat.high = BitVec.ofNat 32 (ownWord s 0 { h with hiWord := true }) :=
  kvGetD_kvPut _ _ _ _

theorem changesOnly_latchHigh (off : Nat) (h : RegHit) (s : State) : changesOnly [.latches] s (latchHigh off h s) :=
  changesOnly_of fun p => by cases p <;> simp [Part.same, latchHigh]

theorem readWord_pair {off : Nat} {h : RegHit} {s : State} (wide : h.row.wide = true) (own : ownLatch h = false)
    (low : h.hiWord = false) (clears : clearsNow s h = false) :
    readWord off 0 h s = answer (ownWord s 0 h) (latchHigh off h s) := by
  simp [readWord, latchHigh, whenDo, wide, own, low, clears]

theorem readWord_pair_clears {off : Nat} {h : RegHit} {s : State} (wide : h.row.wide = true) (own : ownLatch h = false)
    (low : h.hiWord = false) (clears : clearsNow s h = true) : readWord off 0 h s =
      answer (ownWord s 0 h) (clearWord { h with hiWord := true } (clearWord h (latchHigh off h s))) := by
  simp [readWord, latchHigh, whenDo, wide, own, low, clears]

theorem readWord_single_clears {off : Nat} {h : RegHit} {s : State} (wide : h.row.wide = false)
    (clears : clearsNow s h = true) : readWord off 0 h s = answer (ownWord s 0 h) (clearWord h s) := by
  simp [readWord, whenDo, wide, clears]

/-! ## Writes of BAR0 where the host has access (R44, R122, R142) -/

theorem pf0Write_locked {off : Nat} {s : State} (f : State → State) (opened : hostOpen s = true)
    (locked : regionLocked s (off / 0x10000) = true) : pf0Write off f s = violation off 0 s := by
  simp [pf0Write, opened, locked]

theorem pf0Write_taken {off : Nat} {s : State} (f : State → State) (opened : hostOpen s = true)
    (free : regionLocked s (off / 0x10000) = false) (served : shutUnit s off = none) : pf0Write off f s = f s := by
  simp [pf0Write, opened, free, served]

theorem parkCapTaken_of_hostOpen {s : State} (h : hostOpen s = true) (off : Nat) : parkCapTaken s off = false := by
  simp [parkCapTaken, parkAnswers, (mode_of_hostOpen h).2.2]

/-- A write of PF0 at a register's own offset, where no row of its own writes it, goes by the register's class. -/
theorem regWrite_pf0 {off : Nat} {h : RegHit} {w : Word} {s : State} (opened : hostOpen s = true) (below : off < 0x2000000)
    (aligned : off % 4 = 0) (hit : regAt off = some h) (plain : writeRow h w s = none) :
    regWrite { party := .pf0, bar := 0, off := off, val := w } s =
      pf0Write off (if unusedPort s h then id else writeByClass h w) s := by
  have notWake := (mode_of_hostOpen opened).2.1
  have notHigh : ¬ 0x2000000 ≤ off := by omega
  cases unused : unusedPort s h <;>
    simp [regWrite, writeBar0, aligned, notHigh, hit, plain, unused, notWake, parkCapTaken_of_hostOpen opened]

/-- A 32-bit class C register that takes staged writes stores its staged word and marks the staged side DIRTY (R122). -/
theorem stagedWrite_single {h : RegHit} {w : Word} {s : State} (narrow : h.row.wide = false)
    (staging : stagingShut s h.row.cls = false) (used : unusedPort s h = false) :
    stagedWrite h w s = storeStaged h.row.cls h (linkHoldWord h w).toNat s := by
  simp [stagedWrite, narrow, staging, used]

/-- The staged side of a class C register is view 0. -/
theorem storeStaged_c (h : RegHit) (v : Nat) (s : State) : storeStaged .c h v s =
    { setRg h.off (writtenWord s.prot.committed h (rg s h.off) v) s with gen := { s.gen with dirty := true } } := rfl

theorem changesOnly_storeStaged (cls : RegClass) (h : RegHit) (v : Nat) (s : State) :
    changesOnly [.registers, .generations] s (storeStaged cls h v s) :=
  changesOnly_of fun p => by cases p <;> simp [Part.same]

/-! ## The statements -/

/-- Settles O15: the equations of `accessError` and of `readWord` give each clause its state, and the rules of counters, cleared
words and events say what it holds. -/
theorem accessErrorsAndReads : Obligations.AccessErrorsAndReads := by
  unfold Obligations.AccessErrorsAndReads
  refine ⟨⟨fun a s => accessError_taken, fun a s ignored => ?_⟩, ?_⟩
  · rw [exec_accessError, accessError_ignored ignored]
    exact ⟨_, rfl, fun read => badAnswer_rdata read s, changesOnly_badAnswer a s⟩
  · intro c off h s row opened below aligned hit plain
    have run : exec c s = .next (readWord off 0 h s) := by
      rw [exec_regRead row, regRead_pf0 opened below aligned hit plain]
    rw [run]
    refine ⟨fun wide own low clears => ?_, fun canon wide clears => ?_, fun canon wide own low clears => ?_⟩
    · rw [readWord_pair wide own low clears]
      exact ⟨_, rfl, rfl, latchHigh_high off h s,
        changesOnly_trans (changesOnly_latchHigh off h s) (changesOnly_answer _ _)⟩
    · rw [readWord_single_clears wide clears]
      exact ⟨_, rfl, rfl, rg_clearWord h canon, registersBut_clearWord h canon,
        changesOnly_trans (changesOnly_mono (changesOnly_clearWord h s) (by simp))
          (changesOnly_mono (changesOnly_answer _ _) (by simp))⟩
    · rw [readWord_pair_clears wide own low clears]
      obtain ⟨lowCleared, highCleared, others⟩ := clearWord_pair h low (s := latchHigh off h s) canon
      have latched := latchHigh_high off h s
      refine ⟨_, rfl, rfl, ?_, lowCleared, highCleared, others, ?_⟩
      · simpa [answer] using latched
      · have clears1 := changesOnly_clearWord h (latchHigh off h s)
        have clears2 := changesOnly_clearWord { h with hiWord := true } (clearWord h (latchHigh off h s))
        exact changesOnly_trans (changesOnly_mono (changesOnly_latchHigh off h s) (by simp))
          (changesOnly_trans (changesOnly_mono (changesOnly_trans clears1 clears2) (by simp))
            (changesOnly_mono (changesOnly_answer _ _) (by simp)))

/-- Settles O16: such a write is `storeStaged`, or in a locked region `violation`. -/
theorem registerWrites : Obligations.RegisterWrites := by
  unfold Obligations.RegisterWrites
  refine ⟨?_, ?_⟩
  · intro off w h s canon opened below aligned hit cls narrow plain free served staging used
    have run : exec (.registerWrite { party := .pf0, bar := 0, off := off, val := w }) s =
        .next (storeStaged .c h (linkHoldWord h w).toNat s) := by
      rw [exec_registerWrite, regWrite_pf0 opened below aligned hit plain, pf0Write_taken _ opened free served]
      simp only [used, writeByClass, cls, Bool.false_eq_true, if_false]
      rw [stagedWrite_single narrow (by rwa [cls]) used, cls]
    refine ⟨_, run, ?_, ?_, ?_, changesOnly_storeStaged _ _ _ _⟩
    · rw [storeStaged_c]
      exact (regWord_setRg _ _ _ _ canon).trans (if_pos rfl)
    · exact registersBut_setRg h.off _ canon
    · rfl
  · intro off w h s canon opened below aligned hit _ plain locked
    rw [exec_registerWrite, regWrite_pf0 opened below aligned hit plain, pf0Write_locked _ opened locked]
    refine ⟨_, rfl, rg_prtViolations_violation off 0 canon, bit_violation off 0 s, ?_,
      registersBut_violation off 0 canon, changesOnly_violation off 0 s⟩
    simpa using eventSent_violation off 0 canon

end Sys2Proof.Proofs
end

section
/-! PROOFS. The buffer core (R394, R400 to R427): what judging, charges, frees, fates, spills, refills, the deadline wheel and
the ditch rider do to the state, and the statement on it. -/

namespace Sys2Proof.Proofs

open Sys2Proof Sys2Proof.Machine Sys2Proof.Safety Sys2Proof.Laws

/-! ## Sparse tables -/

theorem keyed_kvPut {α : Type} {l : List (Nat × α)} (h : keyed l) (k : Nat) (v : α) : keyed (kvPut k v l) :=
  kvSortedFrom_kvPut k v l 0 h (Nat.zero_le k)

theorem keyed_kvSet {α : Type} [DecidableEq α] {l : List (Nat × α)} (h : keyed l) (d v : α) (k : Nat) :
    keyed (kvSet d k v l) := by
  unfold kvSet
  split
  · exact kvSortedFrom_kvDel k l 0 h
  · exact keyed_kvPut h k v

theorem kvGet_kvDel_same {α : Type} {l : List (Nat × α)} (h : keyed l) (k : Nat) : kvGet k (kvDel k l) = none :=
  (kvGet_kvDel k k l 0 h).trans (if_pos rfl)

theorem kvGet_kvDel_ne {α : Type} {l : List (Nat × α)} (h : keyed l) {j k : Nat} (ne : j ≠ k) :
    kvGet j (kvDel k l) = kvGet j l :=
  (kvGet_kvDel k j l 0 h).trans (if_neg ne)

theorem kvGetD_kvSet {α : Type} [DecidableEq α] {l : List (Nat × α)} (h : keyed l) (d v : α) (k j : Nat) :
    kvGetD d j (kvSet d k v l) = if j = k then v else kvGetD d j l := by
  unfold kvSet
  by_cases e : j = k
  · subst e
    split
    · simp [kvGetD, kvGet_kvDel_same h, *]
    · simp
  · split
    · simp [kvGetD, kvGet_kvDel_ne h e]
    · simp [kvGetD_kvPut_ne d v e]

theorem kvGet_of_mem_from {α : Type} {k : Nat} {v : α} :
    ∀ (l : List (Nat × α)) (b : Nat), kvSortedFrom b l = true → (k, v) ∈ l → b ≤ k ∧ kvGet k l = some v
  | [], _, _, m => by simp at m
  | (j, w) :: r, b, sorted, m => by
    simp only [kvSortedFrom, Bool.and_eq_true, decide_eq_true_eq] at sorted
    rcases List.mem_cons.mp m with same | later
    · cases same
      exact ⟨sorted.1, by simp [kvGet]⟩
    · obtain ⟨above, got⟩ := kvGet_of_mem_from r (j + 1) sorted.2 later
      refine ⟨by omega, ?_⟩
      simp only [kvGet]
      rw [if_neg (by omega), if_neg (by omega), got]

theorem kvGet_of_mem {α : Type} {k : Nat} {v : α} {l : List (Nat × α)} (h : keyed l) (m : (k, v) ∈ l) : kvGet k l = some v :=
  (kvGet_of_mem_from l 0 h m).2

/-! ## Runs over lists -/

/-- A relation that every item's change keeps, the whole run keeps. -/
theorem forAll_rel {α : Type} {R : State → State → Prop} (refl : ∀ s, R s s) (trans : ∀ s t u, R s t → R t u → R s u)
    {f : α → State → State} (step : ∀ a s, R s (f a s)) : ∀ (l : List α) (s : State), R s (forAll f l s)
  | [], s => refl s
  | a :: l, s => trans _ _ _ (step a s) (forAll_rel refl trans step l (f a s))

/-! ## Sticky bits -/

theorem regsCanonical_stickRg (off i : Nat) {s : State} (h : RegsCanonical s) : RegsCanonical (stickRg off i s) :=
  regsCanonical_setRg off _ h

theorem bit_stickRg {off i : Nat} {s : State} (canon : RegsCanonical s) (small : i < 32) :
    bit i (rg (stickRg off i s) off) = true := by
  unfold stickRg
  rw [rg_setRg off _ canon, Nat.mod_eq_of_lt (Nat.or_lt_two_pow (rg_lt s off) (Nat.pow_lt_pow_right (by decide) small))]
  simp [bit]

/-- An alarm leaves the sticky bit set before it. -/
theorem bit_alarm_stickRg (code island detail : Nat) {off i : Nat} {s : State} (canon : RegsCanonical s) (small : i < 32)
    (apart : off ∉ eventLossRegs) : bit i (rg (alarm code island detail (stickRg off i s)) off) = true := by
  unfold alarm emitFault
  rw [rg_of_registersBut (registersBut_emit _ _ _ _ (regsCanonical_stickRg off i canon)) apart]
  exact bit_stickRg canon small

/-! ## Judging pairs and pressure (R409, R410) -/

theorem keyed_setPair (i : Nat) (x : Pair) {s : State} (h : keyed s.buf.pairs) : keyed (setPair i x s).buf.pairs :=
  keyed_kvSet h _ x i

theorem pairOf_setPair (i j : Nat) (x : Pair) {s : State} (h : keyed s.buf.pairs) :
    pairOf (setPair i x s) j = if j = i then x else pairOf s j :=
  kvGetD_kvSet h _ x i j

/-- What judging leaves of the buffer: all but the pairs and PRESSURE, and of the pairs what each is charged. -/
structure Judged (s t : State) : Prop where
  buf : t.buf = { s.buf with pairs := t.buf.pairs, pressure := t.buf.pressure }
  sorted : keyed s.buf.pairs → keyed t.buf.pairs
  charge : keyed s.buf.pairs → ∀ j, (pairOf t j).a = (pairOf s j).a

theorem Judged.refl (s : State) : Judged s s := ⟨rfl, id, fun _ _ => rfl⟩

theorem Judged.trans (s t u : State) (h : Judged s t) (k : Judged t u) : Judged s u where
  buf := by rw [k.buf, h.buf]
  sorted := k.sorted ∘ h.sorted
  charge ks j := (k.charge (h.sorted ks) j).trans (h.charge ks j)

/-- A pair that is judged keeps its charge; its XOFF alone may change. -/
theorem judgePair_buf (i : Nat) (s : State) : (judgePair i s).buf = s.buf ∨
    ∃ xoff, (judgePair i s).buf = (setPair i { pairOf s i with xoff := xoff } s).buf := by
  unfold judgePair
  dsimp only
  generalize (pairLossless s i && _) = new
  split
  · exact .inl rfl
  · refine .inr ⟨new, ?_⟩
    split
    · rfl
    · split
      · unfold whenDo
        split
        · simp
        · rfl
      · simp

theorem judged_judgePair (i : Nat) (s : State) : Judged s (judgePair i s) := by
  rcases judgePair_buf i s with same | ⟨xoff, changed⟩
  · exact ⟨by rw [same], by rw [same]; exact id, fun _ j => by simp only [pairOf, same]⟩
  · refine ⟨by rw [changed]; rfl, fun h => by rw [changed]; exact keyed_setPair _ _ h, fun h j => ?_⟩
    have read : pairOf (judgePair i s) j = if j = i then { pairOf s i with xoff := xoff } else pairOf s j := by
      rw [← pairOf_setPair i j _ h]
      simp only [pairOf, changed]
    rw [read]
    split
    · subst j; rfl
    · rfl

theorem judged_judgePressure (s : State) : Judged s (judgePressure s) := by
  have judged (new : Bool) : Judged s
      (if new = s.buf.pressure then s else forAll judgePair allPairs { s with buf := { s.buf with pressure := new } }) := by
    split
    · exact Judged.refl s
    · refine Judged.trans s { s with buf := { s.buf with pressure := new } } _ ⟨rfl, id, fun _ _ => rfl⟩ ?_
      exact forAll_rel Judged.refl Judged.trans judged_judgePair allPairs _
  unfold judgePressure
  exact judged _

/-- Judging leaves the frames, the arrivals, the copies on their way, the spills and the refills. -/
theorem Judged.sameFrames {s t : State} (h : Judged s t) : t.buf.frames = s.buf.frames ∧ t.buf.arrivals = s.buf.arrivals ∧
    t.buf.plan = s.buf.plan ∧ t.buf.spilling = s.buf.spilling ∧ t.buf.refilling = s.buf.refilling := by
  rw [h.buf]
  exact ⟨rfl, rfl, rfl, rfl, rfl⟩

@[simp] theorem judgePressure_sameFrames (s : State) : (judgePressure s).buf.frames = s.buf.frames ∧
    (judgePressure s).buf.arrivals = s.buf.arrivals ∧ (judgePressure s).buf.plan = s.buf.plan ∧
    (judgePressure s).buf.spilling = s.buf.spilling ∧ (judgePressure s).buf.refilling = s.buf.refilling :=
  (judged_judgePressure s).sameFrames

theorem judged_charged (i : Nat) (x : Pair) (s : State) : Judged (setPair i x s) (judgePressure (judgePair i (setPair i x s))) :=
  Judged.trans _ _ _ (judged_judgePair i _) (judged_judgePressure _)

@[simp] theorem chargePair_sameFrames (i c : Nat) (head : Bool) (s : State) :
    (chargePair i c head s).buf.frames = s.buf.frames ∧ (chargePair i c head s).buf.arrivals = s.buf.arrivals ∧
    (chargePair i c head s).buf.plan = s.buf.plan ∧ (chargePair i c head s).buf.spilling = s.buf.spilling ∧
    (chargePair i c head s).buf.refilling = s.buf.refilling :=
  (judged_charged i _ s).sameFrames

@[simp] theorem releasePair_sameFrames (i c : Nat) (s : State) :
    (releasePair i c s).buf.frames = s.buf.frames ∧ (releasePair i c s).buf.arrivals = s.buf.arrivals ∧
    (releasePair i c s).buf.plan = s.buf.plan ∧ (releasePair i c s).buf.spilling = s.buf.spilling ∧
    (releasePair i c s).buf.refilling = s.buf.refilling :=
  (judged_charged i _ s).sameFrames

/-- A charge is added to the pair's, whatever its judging does. -/
theorem chargePair_charge (i c : Nat) (head : Bool) {s : State} (h : keyed s.buf.pairs) :
    (pairOf (chargePair i c head s) i).a = (pairOf s i).a + c := by
  unfold chargePair
  rw [(judged_charged i _ s).charge (keyed_setPair _ _ h), pairOf_setPair i i _ h, if_pos rfl]

/-! ## One frame in the table -/

theorem modFrame_of {f : Nat} {x : Frame} {s : State} (g : Frame → Frame) (present : kvGet f s.buf.frames = some x) :
    modFrame f g s = setFrame f (g x) s := by
  simp only [modFrame, setFrame, kvUpd, present]

theorem frame_of {f : Nat} {x : Frame} {s : State} (present : kvGet f s.buf.frames = some x) : frame s f = x := by
  simp only [frame, kvGetD, present, Option.getD_some]

theorem kvGet_setFrame (f : Nat) (x : Frame) (s : State) : kvGet f (setFrame f x s).buf.frames = some x :=
  kvGet_kvPut f x _

theorem changesOnly_setFrame (f : Nat) (x : Frame) (s : State) : changesOnly [.buffer] s (setFrame f x s) :=
  changesOnly_of fun p => by cases p <;> simp [Part.same]

/-! ## Frames given up (R32, R402) -/

@[simp] theorem returnCells_sameFrames (chain : List Nat) (s : State) : (returnCells chain s).buf.frames = s.buf.frames ∧
    (returnCells chain s).buf.arrivals = s.buf.arrivals ∧ (returnCells chain s).buf.plan = s.buf.plan ∧
    (returnCells chain s).buf.spilling = s.buf.spilling ∧ (returnCells chain s).buf.refilling = s.buf.refilling := by
  unfold returnCells
  split
  · simp
  · split <;> simp

/-- A frame dropped leaves the table, and neither the arrivals nor the copies on their way. -/
theorem dropFrame_buf {f : Nat} {x : Frame} {s : State} (h : kvGet f s.buf.frames = some x) :
    (dropFrame f s).buf.frames = kvDel f s.buf.frames ∧ (dropFrame f s).buf.arrivals = s.buf.arrivals ∧
      (dropFrame f s).buf.plan = s.buf.plan := by
  unfold dropFrame
  simp only [h]
  split <;> simp

/-- A frame dropped is gone, and no other frame with it. -/
theorem dropFrame_frames {f : Nat} {x : Frame} {s : State} (present : kvGet f s.buf.frames = some x) (sorted : keyed s.buf.frames) :
    kvGet f (dropFrame f s).buf.frames = none ∧ ∀ g, g ≠ f → kvGet g (dropFrame f s).buf.frames = kvGet g s.buf.frames := by
  rw [(dropFrame_buf present).1]
  exact ⟨kvGet_kvDel_same sorted f, fun g other => kvGet_kvDel_ne sorted other⟩

/-- A frame without a fate gets one: it stands in the frame and in its port's accounting set. -/
theorem settle_first {f : Nat} {x : Frame} {s : State} (fate : Nat) (h : kvGet f s.buf.frames = some x) (first : x.fate = 0) :
    (settle f fate s).buf = (setFrame f { x with fate := fate } s).buf ∧
      (settle f fate s).acct = modNth (AcctSet.settle x.par fate) s.acct (acctOf x.inPort) := by
  unfold settle
  simp only [h, first, ne_eq, not_true_eq_false, if_false]
  unfold whenDo
  constructor
  · split <;> split <;> simp [setFrame]
  · split <;> split <;> simp

/-- A frame discarded without a fate before gets this one, and is gone. -/
theorem discardFrame_first {f : Nat} {x : Frame} {s : State} (fate : Nat) (h : kvGet f s.buf.frames = some x)
    (first : x.fate = 0) (sorted : keyed s.buf.frames) :
    kvGet f (discardFrame f fate s).buf.frames = none ∧ (discardFrame f fate s).buf.arrivals = s.buf.arrivals ∧
      (discardFrame f fate s).buf.plan = s.buf.plan ∧
      (discardFrame f fate s).acct = modNth (AcctSet.settle x.par fate) s.acct (acctOf x.inPort) := by
  obtain ⟨buf, acct⟩ := settle_first fate h first
  have settled : kvGet f (settle f fate s).buf.frames = some { x with fate := fate } := by
    rw [buf]; exact kvGet_setFrame f _ s
  obtain ⟨frames, arrivals, plan⟩ := dropFrame_buf settled
  unfold discardFrame
  refine ⟨?_, ?_, ?_, by simpa using acct⟩
  · rw [frames, buf]; exact kvGet_kvDel_same (keyed_kvPut sorted f _) f
  · rw [arrivals, buf]; rfl
  · rw [plan, buf]; rfl

/-! ## Admission (R359, R407, R408) -/

/-- The state once the oldest arrivals have been taken. -/
def withArrivals (rest : List Nat) (s : State) : State := { s with buf := { s.buf with arrivals := rest } }

theorem changesOnly_withArrivals (rest : List Nat) (s : State) : changesOnly [.buffer] s (withArrivals rest s) :=
  changesOnly_of fun p => by cases p <;> simp [Part.same, withArrivals]

theorem exec_admission {f : Nat} {rest : List Nat} {x : Frame} {s : State} (oldest : s.buf.arrivals = f :: rest)
    (present : kvGet f s.buf.frames = some x) :
    exec .admission s = .next (admitFrame f x (withArrivals rest s)) := by
  show execAdmission s = _
  simp only [execAdmission, oldest, present]
  rfl

theorem unitAway_congr {s t : State} (svc : t.svc = s.svc) (k : UnitKind) (i : Nat) : unitAway t k i = unitAway s k i := by
  unfold unitAway unitState unitSt unitLeaving transitionOf
  rw [svc]

/-- The engine that a bucket carries rests on settings, generations, services and carried paths alone. -/
theorem carried_engine_congr {s t : State} (regs : t.regs = s.regs) (tab : t.tab = s.tab) (gen : t.gen = s.gen)
    (svc : t.svc = s.svc) (par c b : Nat) : carried t par 2 c b = carried s par 2 c b := by
  have engines : enginesIn t c = enginesIn s c := by simp only [enginesIn, unitAway_congr svc]
  have wanted (q : Nat) : wantedPath t q 2 c b = wantedPath s q 2 c b := by
    unfold wantedPath pg
    dsimp only
    rw [engines, regs]
    rfl
  simp only [carried, tab, curPar, gen, wanted]

/-- The engine that takes an admitted frame: the one of its slice's cluster that carries its bucket. -/
def admissionEngine (s : State) (x : Frame) : Nat :=
  8 * portSlice x.inPort + (carried s x.par 2 (portSlice x.inPort) (fld 15 8 x.hash)).getD 0

/-- The frame that goes on from admission notes the bucket and the engine. -/
theorem afterAdmission_of {f : Nat} {x : Frame} {s : State} (present : kvGet f s.buf.frames = some x) :
    ∃ path, afterAdmission f s =
      setEngine (admissionEngine s x)
        { engineAt s (admissionEngine s x) with input := (engineAt s (admissionEngine s x)).input ++ [f] }
        (setFrame f { x with paths := x.paths ++ [path] } s) :=
  ⟨_, by unfold afterAdmission admissionEngine; rw [frame_of present]⟩

/-- The pair that a frame is charged to, and its charge (R405, R407). -/
def framePair (x : Frame) : Nat := 8 * x.inPort + x.prio
def frameCharge (s : State) (x : Frame) : Nat := chargeOf s x.inPort x.bytes.length

theorem admitFrame_taken {f : Nat} {x : Frame} {head : Bool} {s : State}
    (takes : admits s (framePair x) (frameCharge s x) = some head) :
    admitFrame f x s = afterAdmission f (tsReturn x.inPort x.prio (ceilDiv x.bytes.length 256)
      (setFrame f { x with charge := frameCharge s x, headroom := head }
        (chargePair (framePair x) (frameCharge s x) head s))) := by
  unfold framePair frameCharge at *
  simp only [admitFrame, takes]

theorem admitFrame_refused {f : Nat} {x : Frame} {s : State}
    (refuses : admits s (framePair x) (frameCharge s x) = none) :
    admitFrame f x s = tsReturn x.inPort x.prio (ceilDiv x.bytes.length 256)
      (discardFrame f (if pairLossless s (framePair x) then 0xE else 0xD) s) := by
  unfold framePair frameCharge at *
  simp only [admitFrame, refuses]

theorem changesOnly_admitFrame_taken {f : Nat} {x : Frame} {head : Bool} {s : State}
    (takes : admits s (framePair x) (frameCharge s x) = some head) :
    changesOnly [.links, .buffer, .engines] s (admitFrame f x s) := by
  rw [admitFrame_taken takes]
  exact changesOnly_of fun p => by cases p <;> simp [Part.same]

/-- An admitted frame: its pair takes the charge, its engine the frame. -/
theorem admitFrame_taken_state {f : Nat} {x : Frame} {head : Bool} {s : State}
    (takes : admits s (framePair x) (frameCharge s x) = some head) (pairs : keyed s.buf.pairs) :
    (pairOf (admitFrame f x s) (framePair x)).a =
        (pairOf s (framePair x)).a + frameCharge s x ∧
      (admitFrame f x s).buf.arrivals = s.buf.arrivals ∧ (admitFrame f x s).buf.plan = s.buf.plan ∧
      (∃ path, kvGet f (admitFrame f x s).buf.frames = some
        { x with charge := frameCharge s x, headroom := head, paths := x.paths ++ [path] }) ∧
      engineAt (admitFrame f x s) (admissionEngine s x) =
        { engineAt s (admissionEngine s x) with input := (engineAt s (admissionEngine s x)).input ++ [f] } ∧
      ∀ k, k ≠ admissionEngine s x → engineAt (admitFrame f x s) k = engineAt s k := by
  rw [admitFrame_taken takes]
  generalize frameCharge s x = c
  generalize made : tsReturn x.inPort x.prio (ceilDiv x.bytes.length 256)
    (setFrame f { x with charge := c, headroom := head } (chargePair (framePair x) c head s)) = u
  have buf : u.buf = (setFrame f { x with charge := c, headroom := head } (chargePair (framePair x) c head s)).buf := by
    rw [← made]; simp
  have engines : u.eng = s.eng := by rw [← made]; simp
  have present : kvGet f u.buf.frames = some { x with charge := c, headroom := head } := by
    rw [buf]; exact kvGet_setFrame f _ _
  have same : admissionEngine u { x with charge := c, headroom := head } = admissionEngine s x := by
    unfold admissionEngine
    rw [carried_engine_congr (s := s)] <;> · rw [← made]; simp
  have engine (k : Nat) : engineAt u k = engineAt s k := by simp only [engineAt, engines]
  obtain ⟨path, after⟩ := afterAdmission_of present
  rw [after, same, engine]
  refine ⟨?_, ?_, ?_, ⟨path, kvGet_setFrame f _ _⟩, engineAt_setEngine _ _ _, fun k other => ?_⟩
  · rw [← chargePair_charge (framePair x) c head pairs]
    simp only [pairOf, setEngine, setFrame, buf]
  · simp [setEngine, setFrame, buf]
  · simp [setEngine, setFrame, buf]
  · rw [engineAt_setEngine_ne other]; exact engine k

/-! ## Checked frees (R400 to R402) -/

theorem exec_freeRequest_frame {ptr f : Nat} {x : Frame} {s : State} (at_ : frameAt s ptr = some (f, x)) (holder req : Nat) :
    exec (.freeRequest ptr holder req) s = .next (presentFree ptr holder req (noteGone f s)) := by
  show execFreeRequest ptr holder req s = _
  simp only [execFreeRequest, at_]

/-- The state with other notes of the first cells of returned chains. -/
def withGone (gone : List (Nat × Nat)) (s : State) : State := { s with buf := { s.buf with gone := gone } }

theorem changesOnly_withGone (gone : List (Nat × Nat)) (s : State) : changesOnly [.buffer] s (withGone gone s) :=
  changesOnly_of fun p => by cases p <;> simp [Part.same, withGone]

/-- Noting a first cell changes the note alone. -/
theorem noteGone_eq (f : Nat) (s : State) : ∃ gone, noteGone f s = withGone gone s := by
  unfold noteGone
  split
  · exact ⟨_, rfl⟩
  · exact ⟨s.buf.gone, rfl⟩

theorem exec_freeRequest (ptr holder req : Nat) (s : State) : ∃ gone, exec (.freeRequest ptr holder req) s =
    .next (presentFree ptr holder req (withGone gone s)) := by
  cases at_ : frameAt s ptr with
  | none =>
    refine ⟨s.buf.gone, ?_⟩
    show execFreeRequest ptr holder req s = _
    simp only [execFreeRequest, at_]
    rfl
  | some found =>
    obtain ⟨gone, noted⟩ := noteGone_eq found.1 s
    exact ⟨gone, by rw [exec_freeRequest_frame at_, noted]⟩

theorem frameAt_some {ptr f : Nat} {x : Frame} {s : State} (h : frameAt s ptr = some (f, x)) :
    (f, x) ∈ s.buf.frames ∧ x.chain.head? = some ptr := by
  refine ⟨List.mem_of_find?_eq_some h, ?_⟩
  simpa using List.find?_some h

theorem cellUsed_of_frameAt {ptr f : Nat} {x : Frame} {s : State} (h : frameAt s ptr = some (f, x)) : cellUsed s ptr = true := by
  obtain ⟨member, first⟩ := frameAt_some h
  have inChain : ptr ∈ x.chain := List.mem_of_mem_head? first
  simp only [cellUsed, cellsInUse, List.contains_iff_mem, List.mem_append, List.mem_flatMap]
  exact .inl (.inl ⟨_, member, inChain⟩)

theorem presentFree_badPtr {ptr : Nat} {s : State} (bad : ptrOk s ptr = false) (holder req : Nat) :
    presentFree ptr holder req s = rejectFree 2 R.bpmBadPtr ptr holder req s := by
  simp [presentFree, bad]

theorem presentFree_holder {ptr holder req f : Nat} {x : Frame} {s : State} (ok : ptrOk s ptr = true)
    (at_ : frameAt s ptr = some (f, x)) (may : mayFree x holder req = true) (form : holder ≠ 0x1FF)
    (holds : x.holders.contains holder = true) : presentFree ptr holder req s = clearHolder f holder s := by
  simp only [presentFree, ok, cellUsed_of_frameAt at_, at_, may, form, holds, Bool.not_true, Bool.false_eq_true, if_false, if_true]

/-- An event of a limited type is sent with its time noted, or nothing happens (R401). -/
theorem limitedEvent_cases (typ req ptr holder : Nat) (s : State) : limitedEvent typ req ptr holder s = s ∨
    ∃ last, limitedEvent typ req ptr holder s =
      emitBuffer typ req ptr holder 0 0 { s with buf := { s.buf with lastEvent := last } } := by
  have either (go : Bool) (u : State) : (if go then u else s) = s ∨ (if go then u else s) = u := by cases go <;> simp
  unfold limitedEvent
  exact (either _ _).imp id fun sent => ⟨_, sent⟩

/-- A rejected free is counted; frames stay as they are. -/
theorem rejectFree_state (typ counter ptr holder req : Nat) {s : State} (canon : RegsCanonical s)
    (apart : counter ∉ eventLossRegs) :
    rg (rejectFree typ counter ptr holder req s) counter = (rg s counter + 1) % 2 ^ 32 ∧
      (rejectFree typ counter ptr holder req s).buf.frames = s.buf.frames ∧
      changesOnly [.host, .buffer, .registers] s (rejectFree typ counter ptr holder req s) := by
  have counted := rg_incRg counter canon
  refine ⟨?_, ?_, changesOnly_of fun p => by cases p <;> simp [Part.same]⟩ <;>
    unfold rejectFree <;> rcases limitedEvent_cases typ req ptr holder (incRg counter s) with none | ⟨last, sent⟩
  · rw [none, counted]
  · rw [sent, emitBuffer, rg_of_registersBut (registersBut_emit _ _ _ _ ?_) apart]
    · exact counted
    · exact regsCanonical_incRg counter canon
  · rw [none]; simp
  · rw [sent]; simp

theorem filter_ne_eq_bne (l : List Nat) (p : Nat) : l.filter (· != p) = l.filter (· ≠ p) :=
  List.filter_congr fun _ _ => by simp [bne, Bool.beq_eq_decide_eq]

theorem clearHolder_left {f p : Nat} {x : Frame} {s : State} (present : kvGet f s.buf.frames = some x)
    (left : x.holders.filter (· ≠ p) ≠ []) :
    clearHolder f p s = setFrame f { x with holders := x.holders.filter (· ≠ p), touched := true } s := by
  simp only [clearHolder, present, filter_ne_eq_bne, List.isEmpty_iff]
  exact if_neg left

theorem clearHolder_last {f p : Nat} {x : Frame} {s : State} (present : kvGet f s.buf.frames = some x)
    (last : x.holders.filter (· ≠ p) = []) : clearHolder f p s = dropFrame f s := by
  simp only [clearHolder, present, filter_ne_eq_bne, List.isEmpty_iff]
  exact if_pos last

/-- A free that names a holder of the frame is carried out: the frame goes on with the holders left, or is gone. -/
theorem exec_freeRequest_holder {ptr holder req f : Nat} {x : Frame} {s : State} (ok : ptrOk s ptr = true)
    (at_ : frameAt s ptr = some (f, x)) (may : mayFree x holder req = true) (form : holder ≠ 0x1FF)
    (holds : x.holders.contains holder = true) :
    ∃ gone, exec (.freeRequest ptr holder req) s =
      .next (clearHolder f holder (withGone gone s)) := by
  obtain ⟨gone, run⟩ := exec_freeRequest ptr holder req s
  exact ⟨gone, by rw [run, presentFree_holder (s := withGone gone s) ok at_ may form holds]⟩

/-! ## Cells read (R404) -/

/-- Reading cells without a fatal error counts what was found, and marks the frame's data where it is beyond correction. -/
theorem cellError_frame {ecc f : Nat} {x : Frame} {s : State} (data : ecc ≤ 2) (present : kvGet f s.buf.frames = some x) :
    kvGet f (cellError ecc f s).buf.frames = some { x with damaged := x.damaged || decide (ecc = 2) } ∧
      (cellError ecc f s).buf.spilling = s.buf.spilling ∧ changesOnly [.buffer, .registers] s (cellError ecc f s) := by
  obtain rfl | rfl | rfl : ecc = 0 ∨ ecc = 1 ∨ ecc = 2 := by omega
  · exact ⟨by simpa [cellError] using present, rfl, fun p _ => by cases p <;> rfl⟩
  · refine ⟨by simpa [cellError] using present, by simp [cellError], changesOnly_of fun p => ?_⟩
    cases p <;> simp [Part.same, cellError]
  · refine ⟨?_, ?_, changesOnly_of fun p => ?_⟩
    · simp [cellError, modFrame, kvUpd, present, kvGet_kvPut]
    · simp [cellError, modFrame]
    · cases p <;> simp [Part.same, cellError]

/-! ## Spill and refill (R417 to R419) -/

/-- A frame whose chain lies on a reservoir channel. -/
def spilledOn (ch : Nat) (chain : List Nat) (x : Frame) : Frame :=
  { x with spilled := true, channel := ch, chain := chain, low := 0, touched := true }

/-- A spill is over: its basin cells are free again. -/
def spillOver (r : Nat × Nat × List Nat) (s : State) : State :=
  returnCells (frame s r.1).chain { s with buf := { s.buf with spilling := s.buf.spilling.erase r } }

/-- Its frame is linked in the reservoir, and what moved is counted. -/
def spillLinked (ch : Nat) (r : Nat × Nat × List Nat) (s : State) : State :=
  judgePressure (hbmBurst (physicalOf s ch) 2 true (cellBursts r.2.2.length) (basinMoved r.2.2.length
    (pmuEv 28 3 none none r.2.2.length (incRg64 R.bpmSpilled (modFrame r.1 (spilledOn ch r.2.2) (spillOver r s))))))

theorem exec_spillWriteComplete {ch : Nat} {r : Nat × Nat × List Nat} {s : State}
    (oldest : s.buf.spilling.find? (fun r => r.2.1 == ch) = some r) (ecc : Nat) :
    exec (.spillWriteComplete ch ecc) s = .next (cellError ecc r.1 (spillLinked ch r s)) := by
  show execSpillWriteComplete ch ecc s = _
  simp only [execSpillWriteComplete, oldest]
  rfl

theorem spillLinked_buf {ch : Nat} {r : Nat × Nat × List Nat} {x : Frame} {s : State}
    (present : kvGet r.1 s.buf.frames = some x) :
    kvGet r.1 (spillLinked ch r s).buf.frames = some (spilledOn ch r.2.2 x) ∧
      (spillLinked ch r s).buf.spilling = s.buf.spilling.erase r := by
  have there : kvGet r.1 (spillOver r s).buf.frames = some x := by simpa [spillOver] using present
  have ended : (spillOver r s).buf.spilling = s.buf.spilling.erase r := by simp [spillOver]
  unfold spillLinked
  rw [modFrame_of _ there]
  simp [basinMoved, setFrame, kvGet_kvPut, ended]

/-- A spill written: the frame's chain is the reservoir's. -/
theorem spillWriteComplete_state {ch ecc : Nat} {r : Nat × Nat × List Nat} {x : Frame} {s : State}
    (oldest : s.buf.spilling.find? (fun r => r.2.1 == ch) = some r) (present : kvGet r.1 s.buf.frames = some x) (data : ecc ≤ 2) :
    ∃ t, exec (.spillWriteComplete ch ecc) s = .next t ∧ t.buf.spilling = s.buf.spilling.erase r ∧
      kvGet r.1 t.buf.frames = some { x with
        spilled := true, channel := ch, chain := r.2.2, low := 0, touched := true, damaged := x.damaged || decide (ecc = 2) } ∧
      changesOnly [.links, .buffer, .counters, .registers] s t := by
  obtain ⟨linked, ended⟩ := spillLinked_buf (ch := ch) present
  obtain ⟨found, kept, read⟩ := cellError_frame data linked
  have changed : changesOnly [.links, .buffer, .counters, .registers] s (spillLinked ch r s) :=
    changesOnly_of fun p => by cases p <;> simp [Part.same, spillLinked, spillOver, basinMoved]
  exact ⟨_, exec_spillWriteComplete oldest ecc, kept.trans ended, found,
    changesOnly_trans changed (changesOnly_mono read (by simp))⟩

theorem grant_length (ch : Option Nat) : ∀ (k : Nat) (acc : List Nat) (s : State), (grant ch k acc s).1.length = acc.length + k
  | 0, _, _ => rfl
  | k + 1, acc, s => by
    unfold grant
    dsimp only
    rw [grant_length ch k, List.length_append, List.length_singleton]
    omega

theorem refillCells_append (f : Nat) (cells : List Nat) {s : State} {rest : List (Nat × List Nat)}
    (h : s.buf.refilling = rest.filter (fun r => r.1 != f) ++ [(f, cells)]) :
    refillCells s f = cells := by
  have absent : (rest.filter fun r => r.1 != f).find? (fun r => r.1 == f) = none := by simp
  simp only [refillCells, h, List.find?_append, absent]
  simp

theorem refillCells_filter (f : Nat) {s : State} {rest : List (Nat × List Nat)}
    (h : s.buf.refilling = rest.filter (fun r => r.1 != f)) :
    refillCells s f = [] := by
  have absent : (rest.filter fun r => r.1 != f).find? (fun r => r.1 == f) = none := by simp
  simp only [refillCells, h, absent]
  rfl

/-- The cells that a burst asks for, where the frame's queue holds `held` at or below the floor (R419). -/
def burstAsks (s : State) (f held : Nat) : Nat :=
  min (min 16 ((frame s f).chain.length - (refillCells s f).length))
    (min (min 16 ((frame s f).chain.length - (refillCells s f).length)) (freeBasin s - 2048) + (64 - held))

/-- How many of them it takes, and which; one that takes fewer than it asks for is counted as EMPTY (R399). -/
def burstCells (s : State) (f held : Nat) : Nat := min (burstAsks s f held) (freeBasin s)
def burstGrant (s : State) (f held : Nat) : List Nat :=
  (grant none (burstCells s f held) [] (whenDo (decide (burstCells s f held < burstAsks s f held)) countEmpty s)).1

/-- Above the floor a burst takes the frame's next cells, as many as 16 or as are left. -/
theorem burstCells_bounds {s : State} {f : Nat} (held : Nat) (room : 2048 < freeBasin s)
    (lacks : (refillCells s f).length < (frame s f).chain.length) :
    burstCells s f held ≠ 0 ∧ burstCells s f held ≤ 16 ∧
      (refillCells s f).length + burstCells s f held ≤ (frame s f).chain.length := by
  unfold burstCells burstAsks
  omega

theorem burstGrant_length (s : State) (f held : Nat) : (burstGrant s f held).length = burstCells s f held := by
  rw [burstGrant, grant_length, List.length_nil, Nat.zero_add]

theorem refillCells_refillBurst {s : State} {f held : Nat} (taken : burstCells s f held ≠ 0) :
    refillCells (refillBurst f held s) f = refillCells s f ++ burstGrant s f held := by
  refine refillCells_append f _ (rest := s.buf.refilling) ?_
  unfold burstCells burstAsks at taken
  unfold refillBurst
  dsimp only
  rw [if_neg taken]
  simp [basinMoved, modFrame, burstGrant, burstCells, burstAsks]

/-- The cells at or below the floor that the frames of a queue hold (R419). -/
def lowHeld (s : State) (p q : Nat) : Nat := ((queue s p q).copies.map fun c => (frame s c.frame).low).sum

theorem exec_refillBurst {p q f corrected ecc : Nat} {s : State}
    (next : (refillCandidates s p q).find? (fun f => decide ((refillCells s f).length < (frame s f).chain.length)) = some f)
    (data : ecc ≤ 1) : exec (.refillBurst p q corrected ecc) s = .next (addRg R.bpmEccCorr corrected
      (hbmCorrected (physicalOf s (frame s f).channel) corrected (refillBurst f (lowHeld s p q) s))) := by
  show execRefillBurst p q corrected ecc s = _
  simp only [execRefillBurst, next]
  rw [if_neg (by omega)]
  rfl

/-- A burst read back: the frame has its next cells, at most 16. -/
theorem refillBurst_taken {p q f corrected ecc : Nat} {x : Frame} {s : State} (present : kvGet f s.buf.frames = some x)
    (next : (refillCandidates s p q).find? (fun f => decide ((refillCells s f).length < (frame s f).chain.length)) = some f)
    (room : 2048 < freeBasin s) (data : ecc ≤ 1) :
    ∃ t new, exec (.refillBurst p q corrected ecc) s = .next t ∧ refillCells t f = refillCells s f ++ new ∧ new ≠ [] ∧
      new.length ≤ 16 ∧ (refillCells t f).length ≤ x.chain.length ∧
      changesOnly [.links, .buffer, .counters, .registers, .freeCount] s t := by
  have lacks : (refillCells s f).length < (frame s f).chain.length := by simpa using List.find?_some next
  obtain ⟨taken, few, fits⟩ := burstCells_bounds (lowHeld s p q) room lacks
  have after : refillCells (addRg R.bpmEccCorr corrected (hbmCorrected (physicalOf s (frame s f).channel) corrected
      (refillBurst f (lowHeld s p q) s))) f = refillCells s f ++ burstGrant s f (lowHeld s p q) := by
    rw [← refillCells_refillBurst taken]; simp [refillCells]
  have length := burstGrant_length s f (lowHeld s p q)
  refine ⟨_, _, exec_refillBurst next data, after, ?_, length ▸ few, ?_, ?_⟩
  · exact fun empty => taken (by rw [← length, empty]; rfl)
  · rw [after, List.length_append, length, ← frame_of present]
    exact fits
  · exact changesOnly_of fun p => by cases p <;> simp [Part.same]

/-- A frame back in the basin, on these cells. -/
def inBasinOn (cells : List Nat) (x : Frame) : Frame := { x with spilled := false, chain := cells, touched := true }

/-- A refill is over. -/
def refillOver (f : Nat) (s : State) : State :=
  { s with buf := { s.buf with refilling := s.buf.refilling.filter fun r => r.1 != f } }

theorem exec_refillReturn {p q f : Nat} {s : State}
    (whole : (refillCandidates s p q).find? (fun f => decide ((refillCells s f).length = (frame s f).chain.length)) = some f) :
    exec (.refillReturn p q) s = .next (judgePressure (pmuEv 28 4 none none (refillCells s f).length
      (incRg64 R.bpmRefilled (modFrame f (inBasinOn (refillCells s f)) (refillOver f s))))) := by
  show execRefillReturn p q s = _
  simp only [execRefillReturn, whole]
  rfl

/-- With its last cell a frame is back in the basin. -/
theorem refillReturn_state {p q f : Nat} {x : Frame} {s : State} (present : kvGet f s.buf.frames = some x)
    (whole : (refillCandidates s p q).find? (fun f => decide ((refillCells s f).length = (frame s f).chain.length)) = some f) :
    ∃ t, exec (.refillReturn p q) s = .next t ∧
      kvGet f t.buf.frames = some { x with spilled := false, chain := refillCells s f, touched := true } ∧
      refillCells t f = [] ∧ changesOnly [.links, .buffer, .counters, .registers] s t := by
  rw [exec_refillReturn whole, modFrame_of (s := refillOver f s) _ present]
  refine ⟨_, rfl, ?_, refillCells_filter f (rest := s.buf.refilling) ?_, changesOnly_of fun p => ?_⟩
  · simp [kvGet_setFrame, inBasinOn]
  · simp [setFrame, refillOver]
  · cases p <;> simp [Part.same, refillOver]

/-! ## Lifetime (R414, R415) -/

theorem exec_lifetimeTick (s : State) :
    exec .lifetimeTick s = .next (forAll expireFrame (overdueFrames (reach ((s.now / msT 1 + 1) * msT 1) s))
      (reach ((s.now / msT 1 + 1) * msT 1) s)) := rfl

theorem changesOnly_reach (T : Nat) (s : State) :
    changesOnly [.time, .counters, .registers, .masterTime, .elapsed] s (reach T s) :=
  changesOnly_of fun p => by cases p <;> simp [Part.same]

/-- An overdue frame before its engine is taken out of the input queue and is gone. -/
theorem expireFrame_waiting {f e : Nat} {x : Engine} {u : State}
    (waits : u.eng.engines.find? (fun e => e.2.input.contains f) = some (e, x)) :
    expireFrame f u = discardFrame f 0xF (setEngine e { x with input := x.input.filter (· != f) } u) := by
  simp only [expireFrame, waits]

/-- An overdue frame with no copy on its way or queued, whose work in an engine is done, is settled in its place. -/
theorem expireFrame_inOrder {f : Nat} {u : State} (noInput : ∀ e ∈ u.eng.engines, f ∉ e.2.input)
    (done : ∃ e ∈ u.eng.engines, ∃ o ∈ e.2.order, o.frame = f ∧ o.done = true)
    (noPlan : ∀ c ∈ u.buf.plan, c.frame ≠ f)
    (noQueue : ∀ k ∈ u.eg.queues, ∀ c ∈ k.2.copies, c.frame ≠ f) : expireFrame f u = expireInOrder f u := by
  have waits : u.eng.engines.find? (fun e => e.2.input.contains f) = none := by simpa using noInput
  have planned : (u.buf.plan.filter fun c => c.frame == f && c.device.isNone) = [] := by
    simp only [List.filter_eq_nil_iff, Bool.and_eq_true, beq_iff_eq]
    exact fun c member both => noPlan c member both.1
  have queued : (u.eg.queues.flatMap fun c => c.2.copies.filter fun d => d.frame == f && d.device.isNone) = [] := by
    simp only [List.flatMap_eq_nil_iff, List.filter_eq_nil_iff, Bool.and_eq_true, beq_iff_eq]
    exact fun k member c copy both => noQueue k member c copy both.1
  have keeps : (u.eng.engines.any fun e => e.2.order.any fun o => o.frame == f && o.done) = true := by simpa using done
  simp only [expireFrame, waits, planned, queued, forAll, whenDo, keeps, if_true]

theorem engineAt_discardFrame (f fate e : Nat) (s : State) : engineAt (discardFrame f fate s) e = engineAt s e := by
  simp [engineAt]

/-- An overdue frame that waits for its engine is gone with fate 0xF. -/
theorem expireFrame_waiting_state {f e : Nat} {x : Engine} {y : Frame} {u : State}
    (waits : u.eng.engines.find? (fun e => e.2.input.contains f) = some (e, x)) (present : kvGet f u.buf.frames = some y)
    (sorted : keyed u.buf.frames) (first : y.fate = 0) :
    kvGet f (expireFrame f u).buf.frames = none ∧ f ∉ (engineAt (expireFrame f u) e).input ∧
      (expireFrame f u).acct = modNth (AcctSet.settle y.par 0xF) u.acct (acctOf y.inPort) := by
  rw [expireFrame_waiting waits]
  obtain ⟨gone, -, -, acct⟩ :=
    discardFrame_first (s := setEngine e { x with input := x.input.filter (· != f) } u) 0xF present first sorted
  refine ⟨gone, ?_, acct⟩
  rw [engineAt_discardFrame, engineAt_setEngine]
  simp

/-- An overdue frame whose work in its engine is done keeps its place there, loses its copies and has fate 0xF. -/
theorem expireFrame_inOrder_state {f : Nat} {y : Frame} {u : State} (noInput : ∀ e ∈ u.eng.engines, f ∉ e.2.input)
    (done : ∃ e ∈ u.eng.engines, ∃ o ∈ e.2.order, o.frame = f ∧ o.done = true)
    (noPlan : ∀ c ∈ u.buf.plan, c.frame ≠ f)
    (noQueue : ∀ k ∈ u.eg.queues, ∀ c ∈ k.2.copies, c.frame ≠ f) (present : kvGet f u.buf.frames = some y)
    (first : y.fate = 0) :
    (expireFrame f u).eng = u.eng ∧
      (kvGet f (expireFrame f u).buf.frames).map (fun z => (z.copies, z.fate)) = some ([], 0xF) ∧
      (expireFrame f u).acct = modNth (AcctSet.settle y.par 0xF) u.acct (acctOf y.inPort) := by
  rw [expireFrame_inOrder noInput done noPlan noQueue, expireInOrder, modFrame_of _ present]
  obtain ⟨buf, acct⟩ := settle_first 0xF (kvGet_setFrame f { y with copies := [], fwdLeft := 0 } u) first
  refine ⟨by simp, ?_, acct⟩
  rw [buf, kvGet_setFrame]
  rfl

/-! ## The ditch rider (R424 to R427) -/

theorem exec_riderVisit_frame {ptr f : Nat} {x : Frame} {s : State} (opened : hostOpen s = true)
    (at_ : frameAt s ptr = some (f, x)) : exec (.riderVisit ptr false 0) s = .next (riderVisit f x s) := by
  show execRiderVisit ptr false 0 s = _
  simp [execRiderVisit, opened, cellError, at_]

theorem exec_riderVisit_fatal {ptr ecc : Nat} {broken : Bool} {s : State} (opened : hostOpen s = true)
    (found : broken = true ∨ 2 ≤ ecc) : exec (.riderVisit ptr broken ecc) s = .next (fatal 0x0001 92 [] s) := by
  show execRiderVisit ptr broken ecc s = _
  simp [execRiderVisit, opened, cellError, found]

/-- The list of leaks with one more, cut to the last 32, ends with it. -/
theorem mem_leaks_cut (l : Leak) (ls : List Leak) : l ∈ (ls ++ [l]).drop ((ls ++ [l]).length - 32) := by
  rw [List.drop_append_of_le_length (by simp), List.mem_append]
  exact .inr (List.mem_singleton_self l)

/-- A leak's registers, but for those of lost events: its count and LEAK_SEEN. -/
theorem rg_leak (f since : Nat) (x : Frame) {k : Nat} {s : State} (canon : RegsCanonical s) (apart : k ∉ eventLossRegs) :
    rg (leak f x since s) k = rg (stickRg R.bpmStatus 6 (incRg R.bpmLeaks s)) k := by
  unfold leak emitBuffer
  dsimp only
  have stored := regsCanonical_stickRg R.bpmStatus 6 (regsCanonical_incRg R.bpmLeaks canon)
  refine (rg_congr rfl k).trans ((rg_of_registersBut (registersBut_emit _ _ _ _ ?_) apart).trans (rg_congr rfl k))
  exact stored

/-- A leaked frame: marked, counted, told and listed. -/
theorem leak_state (f since : Nat) (x : Frame) {s : State} (canon : RegsCanonical s) :
    kvGet f (leak f x since s).buf.frames = some { x with leaked := true } ∧
      rg (leak f x since s) R.bpmLeaks = (rg s R.bpmLeaks + 1) % 2 ^ 32 ∧ bit 6 (rg (leak f x since s) R.bpmStatus) = true ∧
      ((leak f x since s).buf.leaks.any fun l => l.frame == f) = true ∧
      changesOnly [.host, .buffer, .registers] s (leak f x since s) := by
  have counted := regsCanonical_incRg R.bpmLeaks canon
  refine ⟨kvGet_setFrame f _ _, ?_, ?_, ?_, changesOnly_of fun p => by cases p <;> simp [Part.same]⟩
  · rw [rg_leak f since x canon (by decide), rg_of_registersBut (registersBut_stickRg R.bpmStatus 6 counted) (by decide),
      rg_incRg R.bpmLeaks canon]
  · rw [rg_leak f since x canon (by decide)]
    exact bit_stickRg counted (by decide)
  · unfold leak
    simp only [setFrame, emitBuffer_keeps, stickRg_keeps, incRg_keeps, List.any_eq_true]
    exact ⟨_, mem_leaks_cut _ _, by simp⟩

theorem riderVisit_held {f : Nat} {x : Frame} {s : State} (refs : refsOf s f ≠ 0) :
    riderVisit f x s = if x.suspect.isNone then s else setFrame f { x with suspect := none } s := if_pos refs

theorem riderVisit_first {f : Nat} {x : Frame} {s : State} (refs : refsOf s f = 0) (new : x.suspect = none) :
    riderVisit f x s = setFrame f { x with suspect := some s.elapsed, touched := false } s := by
  simp only [riderVisit, refs, new, ne_eq, not_true_eq_false, if_false]

theorem riderVisit_leak {f since : Nat} {x : Frame} {s : State} (refs : refsOf s f = 0) (old : x.suspect = some since)
    (untouched : x.touched = false) (unlisted : x.leaked = false) (due : since + msT (cuF s R.bpmRiderCfg 15 0) ≤ s.elapsed) :
    riderVisit f x s = leak f x since s := by
  simp only [riderVisit, refs, old, untouched, unlisted, due, ne_eq, not_true_eq_false, if_false, Bool.false_eq_true,
    Bool.not_false, decide_true, Bool.and_self, if_true]

/-- A fencing fault told and recorded, before the frames inside take their fates (R61). -/
def faultTold (code island : Nat) (detail : List Nat) (s : State) : State :=
  failIsland island (recFault code island (assertFault code island detail
    (fencingFault { code, island, mode := s.md.mode, time := s.now, detail } s)))

theorem faultTold_status (code island : Nat) (detail : List Nat) (s : State) :
    (faultTold code island detail s).md.faultPending = true ∧ (faultTold code island detail s).md.faultCode = code ∧
      (faultTold code island detail s).md.faultIsland = island ∧ (faultTold code island detail s).pins.faultN = true := by
  simp [faultTold, fencingFault, assertFault]

/-- A fatal fault that finds forwarding open fences it, and in RUN and DRAIN the frames inside take their fates. -/
theorem fatal_open {code island : Nat} {detail : List Nat} {s : State} (opened : hostOpen s = true)
    (unfenced : s.md.fenced = false) (idle : s.md.faultPending = false) :
    fatal code island detail s = if s.md.mode = .run ∨ s.md.mode = .drain then fenceFrames (faultTold code island detail s)
      else faultTold code island detail s := by
  obtain ⟨notReset, notWake, notPark⟩ := mode_of_hostOpen opened
  cases mode : s.md.mode with
  | reset => exact absurd mode notReset
  | wake => exact absurd mode notWake
  | park => exact absurd mode notPark
  | stage => simp [fatal, faultTold, mode, unfenced, idle]
  | run => simp [fatal, faultTold, mode, unfenced, idle]
  | drain => simp [fatal, faultTold, mode, unfenced, idle]

/-- Its code and island stand in the status, and FAULT_N is asserted (R61, R67). -/
theorem fatal_status {code island : Nat} {detail : List Nat} {s : State} (opened : hostOpen s = true)
    (unfenced : s.md.fenced = false) (idle : s.md.faultPending = false) :
    (fatal code island detail s).md.faultPending = true ∧ (fatal code island detail s).md.faultCode = code ∧
      (fatal code island detail s).md.faultIsland = island ∧ (fatal code island detail s).pins.faultN = true := by
  rw [fatal_open opened unfenced idle]
  split
  · simpa using faultTold_status code island detail s
  · exact faultTold_status code island detail s

/-- A pass's length is kept, and the next one begins. -/
def passNoted (res : Bool) (s : State) : State := { s with buf :=
  if res then { s.buf with lastResPass := passLength s s.buf.resPassFrom (msT 1), resPassFrom := s.elapsed }
  else { s.buf with lastPass := passLength s s.buf.passFrom (usT 100), passFrom := s.elapsed } }

theorem exec_riderPassEnd {s : State} (opened : hostOpen s = true) (res : Bool) (n : Nat) :
    exec (.riderPassEnd res n) s = .next (whenDo (n != if res then freeRes s else freeBasin s)
      (fun u => alarm (0x0300 + b2n res) 92 (n + (if res then freeRes s else freeBasin s) * 2 ^ 32) (stickRg R.bpmStatus 5 u))
      (passNoted res s)) := by
  show execRiderPassEnd res n s = _
  simp only [execRiderPassEnd, opened, whenDo, if_true]
  rfl

/-! ## The rows of admission, frees and lifetime -/

/-- Every frame admitted goes to an engine of its slice's cluster, which is the model's choice (log entry 34). -/
theorem admission_taken {f : Nat} {rest : List Nat} {x : Frame} {head : Bool} {s : State} (oldest : s.buf.arrivals = f :: rest)
    (present : kvGet f s.buf.frames = some x) (pairs : keyed s.buf.pairs)
    (takes : admits s (framePair x) (frameCharge s x) = some head) :
    ∃ t y, exec .admission s = .next t ∧ t.buf.arrivals = rest ∧ t.buf.plan = s.buf.plan ∧
      (pairOf t (framePair x)).a = (pairOf s (framePair x)).a + frameCharge s x ∧
      kvGet f t.buf.frames = some y ∧ y.charge = frameCharge s x ∧ y.headroom = head ∧ y.copies = x.copies ∧
      (engineAt t (admissionEngine s x)).input = (engineAt s (admissionEngine s x)).input ++ [f] ∧
      (∀ k, k ≠ admissionEngine s x → engineAt t k = engineAt s k) ∧ changesOnly [.links, .buffer, .engines] s t := by
  obtain ⟨charged, arrivals, plan, ⟨path, stored⟩, engine, others⟩ :=
    admitFrame_taken_state (f := f) (s := withArrivals rest s) takes pairs
  refine ⟨_, _, exec_admission oldest present, arrivals, plan, charged, stored, rfl, rfl, rfl,
    congrArg Engine.input engine, others, ?_⟩
  exact changesOnly_trans (changesOnly_mono (changesOnly_withArrivals rest s) (by simp)) (changesOnly_admitFrame_taken takes)

theorem admission_refused {f : Nat} {rest : List Nat} {x : Frame} {s : State} (oldest : s.buf.arrivals = f :: rest)
    (present : kvGet f s.buf.frames = some x) (sorted : keyed s.buf.frames)
    (refuses : admits s (framePair x) (frameCharge s x) = none) (first : x.fate = 0) :
    ∃ t, exec .admission s = .next t ∧ t.buf.arrivals = rest ∧ t.buf.plan = s.buf.plan ∧ kvGet f t.buf.frames = none ∧
      t.acct = modNth (AcctSet.settle x.par (if pairLossless s (framePair x) then 0xE else 0xD)) s.acct (acctOf x.inPort) ∧
      changesOnly [.host, .accounts, .links, .buffer, .recorder, .counters, .registers, .hostMemory] s t := by
  obtain ⟨gone, arrivals, plan, acct⟩ := discardFrame_first (s := withArrivals rest s)
    (if pairLossless s (framePair x) then 0xE else 0xD) present first sorted
  rw [exec_admission oldest present, admitFrame_refused (s := withArrivals rest s) refuses]
  refine ⟨_, rfl, ?_, ?_, ?_, ?_, changesOnly_of fun p => by cases p <;> simp [Part.same, withArrivals]⟩ <;>
    simp only [tsReturn_keeps]
  · exact arrivals
  · exact plan
  · exact gone
  · exact acct

theorem freeRequest_badPtr {ptr : Nat} {s : State} (holder req : Nat) (bad : ptrOk s ptr = false) (canon : RegsCanonical s) :
    ∃ t, exec (.freeRequest ptr holder req) s = .next t ∧ rg t R.bpmBadPtr = (rg s R.bpmBadPtr + 1) % 2 ^ 32 ∧
      t.buf.frames = s.buf.frames ∧ changesOnly [.host, .buffer, .registers] s t := by
  obtain ⟨gone, run⟩ := exec_freeRequest ptr holder req s
  obtain ⟨counted, frames, changed⟩ := rejectFree_state 2 R.bpmBadPtr ptr holder req (s := withGone gone s) canon (by decide)
  rw [run, presentFree_badPtr (s := withGone gone s) bad]
  exact ⟨_, rfl, counted, frames, changesOnly_trans (changesOnly_mono (changesOnly_withGone gone s) (by simp)) changed⟩

section
variable {ptr holder req f : Nat} {x : Frame} {s : State} (ok : ptrOk s ptr = true) (at_ : frameAt s ptr = some (f, x))
  (sorted : keyed s.buf.frames) (may : mayFree x holder req = true) (form : holder ≠ 0x1FF)
  (holds : x.holders.contains holder = true)
include ok at_ sorted may form holds

theorem freeRequest_left (left : x.holders.filter (· ≠ holder) ≠ []) :
    ∃ t, exec (.freeRequest ptr holder req) s = .next t ∧
      kvGet f t.buf.frames = some { x with holders := x.holders.filter (· ≠ holder), touched := true } ∧
      (∀ g, g ≠ f → kvGet g t.buf.frames = kvGet g s.buf.frames) ∧ changesOnly [.buffer] s t := by
  obtain ⟨gone, run⟩ := exec_freeRequest_holder ok at_ may form holds
  have present : kvGet f (withGone gone s).buf.frames = some x := kvGet_of_mem sorted (frameAt_some at_).1
  rw [run, clearHolder_left present left]
  exact ⟨_, rfl, kvGet_setFrame f _ _, fun g other => kvGet_kvPut_ne f g _ other _,
    changesOnly_trans (changesOnly_withGone gone s) (changesOnly_setFrame f _ _)⟩

theorem freeRequest_last (last : x.holders.filter (· ≠ holder) = []) :
    ∃ t, exec (.freeRequest ptr holder req) s = .next t ∧ kvGet f t.buf.frames = none ∧
      (∀ g, g ≠ f → kvGet g t.buf.frames = kvGet g s.buf.frames) ∧
      changesOnly [.links, .buffer, .counters, .registers] s t := by
  obtain ⟨gone, run⟩ := exec_freeRequest_holder ok at_ may form holds
  have present : kvGet f (withGone gone s).buf.frames = some x := kvGet_of_mem sorted (frameAt_some at_).1
  obtain ⟨freed, others⟩ := dropFrame_frames present sorted
  rw [run, clearHolder_last present last]
  exact ⟨_, rfl, freed, others, changesOnly_of fun p => by cases p <;> simp [Part.same, withGone]⟩

end

/-! ## The statement on the buffer core -/

/-- Settles O49: each row's equation gives the state it leaves, and the rules of charges, frees, cells, fates and leaks say what
that state holds. Every frame admitted goes to an engine of its cluster, which is the model's choice (log entry 34), as is the
tick of the deadline wheel at each whole millisecond (log entry 67). -/
theorem bufferCore : Obligations.BufferCore := by
  unfold Obligations.BufferCore
  refine ⟨?_, ?_, fun ch ecc r x s => spillWriteComplete_state, ?_, ?_, ?_, ?_, ?_, ?_⟩
  · rintro f rest x _ _ s oldest present rfl rfl frames pairs
    refine ⟨?_, admission_refused oldest present frames⟩
    rintro head _ takes rfl
    exact admission_taken oldest present pairs takes
  · exact fun ptr holder req s => ⟨freeRequest_badPtr holder req, fun f x ok at_ sorted may form holds =>
      ⟨freeRequest_left ok at_ sorted may form holds, freeRequest_last ok at_ sorted may form holds⟩⟩
  · exact fun p q f corrected ecc x s present => ⟨refillBurst_taken present, refillReturn_state present⟩
  · rintro u s rfl
    rw [exec_lifetimeTick]
    refine ⟨fun idle => ?_, fun f e x y overdue waits present sorted first => ?_,
      fun f y overdue noInput done noPlan noQueue present sorted first => ?_⟩
    · rw [idle]
      exact ⟨_, rfl, rfl, changesOnly_reach _ s⟩
    · rw [overdue]
      exact ⟨_, rfl, expireFrame_waiting_state waits present sorted first⟩
    · rw [overdue]
      exact ⟨_, rfl, expireFrame_inOrder_state noInput done noPlan noQueue present first⟩
  · intro ptr f x s opened at_
    rw [exec_riderVisit_frame opened at_]
    refine ⟨fun refs fresh => ?_, fun refs old => ?_, fun refs new => ?_, fun since refs old untouched unlisted due canon => ?_⟩
    · rw [riderVisit_held refs, if_pos (by simp [fresh])]
      exact ⟨s, rfl, fun p _ => by cases p <;> rfl⟩
    · rw [riderVisit_held refs, if_neg (by simpa [← Option.isSome_iff_ne_none] using old)]
      exact ⟨_, rfl, kvGet_setFrame f _ s, changesOnly_setFrame f _ s⟩
    · rw [riderVisit_first refs new]
      exact ⟨_, rfl, kvGet_setFrame f _ s, changesOnly_setFrame f _ s⟩
    · rw [riderVisit_leak refs old untouched unlisted due]
      exact ⟨_, rfl, leak_state f since x canon⟩
  · intro ptr ecc broken s opened unfenced idle found
    rw [exec_riderVisit_fatal opened found]
    exact ⟨_, rfl, fatal_status opened unfenced idle⟩
  · intro res s opened
    rw [exec_riderPassEnd opened, bne_self_eq_false]
    refine ⟨_, rfl, fun basin => ?_, fun reservoir => ?_, ?_⟩
    · subst basin; rfl
    · subst reservoir; rfl
    · exact changesOnly_of fun p => by cases p <;> simp [Part.same, whenDo, passNoted]
  · intro res n s opened canon differs
    rw [exec_riderPassEnd opened, bne_iff_ne.mpr differs]
    refine ⟨_, rfl, bit_alarm_stickRg _ _ _ (s := passNoted res s) canon (by decide) (by decide), ?_, ?_⟩
    · cases res <;> simp [passNoted]
    · exact changesOnly_of fun p => by cases p <;> simp [Part.same, passNoted]

end Sys2Proof.Proofs
end

section
/-! PROOFS. Which ports are up: of the operations on the links that a fault, a drain and a falling port use, `portDown` alone
changes it (R55, R58, R199, R220). -/

namespace Sys2Proof.Proofs

open Sys2Proof Sys2Proof.Machine Sys2Proof.Safety Sys2Proof.Laws

/-! ## Operations that leave every port up or down -/

/-- Whether each port of the links is up. -/
def upIn (l : Links) (p : Nat) : Bool := (kvGetD {} p l.ports).up

theorem up_eq_upIn (s : State) (p : Nat) : (port s p).up = upIn s.lk p := rfl

theorem upIn_setPort {p : Nat} {x : Port} {s : State} (same : x.up = (port s p).up) : upIn (setPort p x s).lk = upIn s.lk := by
  funext q
  rw [← up_eq_upIn, ← up_eq_upIn]
  by_cases e : q = p
  · subst e; rw [port_setPort, same]
  · rw [port_setPort_ne e]

theorem upIn_modPort {p : Nat} {f : Port → Port} {s : State} (same : ∀ x, (f x).up = x.up) :
    upIn (modPort p f s).lk = upIn s.lk :=
  upIn_setPort (same _)

theorem upIn_forAll {α : Type} {f : α → State → State} (same : ∀ a s, upIn (f a s).lk = upIn s.lk) (l : List α) (s : State) :
    upIn (forAll f l s).lk = upIn s.lk :=
  forAll_rel (R := fun s t => upIn t.lk = upIn s.lk) (fun _ => rfl) (fun _ _ _ h k => k.trans h) same l s

@[simp] theorem upIn_pauseDue (p mask : Nat) (xoff : Bool) (s : State) : upIn (pauseDue p mask xoff s).lk = upIn s.lk :=
  upIn_modPort fun x => by split <;> rfl

@[simp] theorem upIn_portPauseAll (on : Bool) (p : Nat) (s : State) : upIn (portPauseAll on p s).lk = upIn s.lk := by
  unfold portPauseAll
  dsimp only
  split
  · split <;> simp
  · rfl

@[simp] theorem upIn_portsXoff (s : State) : upIn (portsXoff s).lk = upIn s.lk := upIn_forAll (upIn_portPauseAll true) _ s

@[simp] theorem upIn_watermark (p prio : Nat) (xoff any : Bool) (s : State) :
    upIn (watermark p prio xoff any s).lk = upIn s.lk := by
  unfold watermark
  split
  · rfl
  · split
    · split <;> simp
    · simp
    · rfl

@[simp] theorem upIn_tsReleaseReturns (p c : Nat) (s : State) : upIn (tsReleaseReturns p c s).lk = upIn s.lk :=
  upIn_modPort fun _ => rfl

@[simp] theorem upIn_judgePair (i : Nat) (s : State) : upIn (judgePair i s).lk = upIn s.lk := by
  unfold judgePair
  dsimp only
  split
  · rfl
  · split
    · simp
    · split
      · rw [whenDo_lk]; split <;> simp
      · simp

@[simp] theorem upIn_judgePressure (s : State) : upIn (judgePressure s).lk = upIn s.lk := by
  have judged (new : Bool) : upIn (if new = s.buf.pressure then s
      else forAll judgePair allPairs { s with buf := { s.buf with pressure := new } }).lk = upIn s.lk := by
    split
    · rfl
    · exact upIn_forAll upIn_judgePair _ _
  unfold judgePressure
  exact judged _

@[simp] theorem upIn_releasePair (i c : Nat) (s : State) : upIn (releasePair i c s).lk = upIn s.lk := by
  simp [releasePair]

@[simp] theorem upIn_dropFrame (f : Nat) (s : State) : upIn (dropFrame f s).lk = upIn s.lk := by
  unfold dropFrame
  split
  · rfl
  · dsimp only
    split <;> simp

@[simp] theorem upIn_clearHolder (f p : Nat) (s : State) : upIn (clearHolder f p s).lk = upIn s.lk := by
  unfold clearHolder
  split
  · rfl
  · dsimp only
    split <;> simp

@[simp] theorem upIn_presentFree (ptr holder req : Nat) (s : State) : upIn (presentFree ptr holder req s).lk = upIn s.lk := by
  unfold presentFree
  (repeat' split) <;> simp

@[simp] theorem upIn_freeHolder (f p : Nat) (s : State) : upIn (freeHolder f p s).lk = upIn s.lk := by
  unfold freeHolder
  (repeat' split) <;> simp

@[simp] theorem upIn_finishCopy (c : Copy) (how : CopyEnd) (s : State) : upIn (finishCopy c how s).lk = upIn s.lk := by
  unfold finishCopy
  split
  · simp
  · simp only [upIn_freeHolder, apply_ite State.lk, settle_keeps, setFrame_keeps, ite_self]

@[simp] theorem upIn_discardCopy (c : Copy) (reason : Nat) (s : State) : upIn (discardCopy c reason s).lk = upIn s.lk := by
  unfold discardCopy
  split <;> simp

@[simp] theorem upIn_flushPort (p reason : Nat) (s : State) : upIn (flushPort p reason s).lk = upIn s.lk := by
  unfold flushPort
  rw [upIn_forAll (upIn_discardCopy · reason)]
  simp

@[simp] theorem upIn_laneSends (ln : Nat) (xs : List Sym) (s : State) : upIn (laneSends ln xs s).lk = upIn s.lk := rfl

@[simp] theorem upIn_columnsOut (lanes : List Nat) (cols : List (List Sym)) (s : State) :
    upIn (columnsOut lanes cols s).lk = upIn s.lk := by
  unfold columnsOut
  exact upIn_forAll (fun (c : Nat × Nat) => upIn_laneSends c.1 _) _ s

@[simp] theorem upIn_sentOn (p cls : Nat) (bs : List Byte) (eef : Bool) (s : State) :
    upIn (sentOn p cls bs eef s).lk = upIn s.lk := by
  unfold sentOn
  dsimp only
  rw [whenDo_lk]
  split
  · rw [upIn_columnsOut]; exact upIn_modPort fun _ => rfl
  · exact upIn_modPort fun _ => rfl

@[simp] theorem upIn_cutOne (p : Nat) (eef held : Bool) (x : Sending) (s : State) :
    upIn (cutOne p eef held x s).lk = upIn s.lk := by
  simp [cutOne]

@[simp] theorem upIn_cutCopy (p : Nat) (eef held : Bool) (x : Option Sending) (c : Option Copy) (s : State) :
    upIn (cutCopy p eef held x c s).lk = upIn s.lk := by
  unfold cutCopy
  split
  · dsimp only
    split <;> simp
  · rfl

@[simp] theorem upIn_cutTransmit (p : Nat) (eef : Bool) (s : State) : upIn (cutTransmit p eef s).lk = upIn s.lk := by
  unfold cutTransmit
  dsimp only
  have forgotten (t : State) :
      upIn (modPort p (fun z => { z with sending := none, preempted := none }) t).lk = upIn t.lk :=
    upIn_modPort fun _ => rfl
  rw [upIn_cutCopy, upIn_cutCopy, forgotten]
  split <;> simp

/-! ## Ports going down (R58, R199, R220) -/

@[simp] theorem upIn_downQueues (p : Nat) (c : DownCause) (s : State) : upIn (downQueues p c s).lk = upIn s.lk := by
  unfold downQueues
  split
  · simp
  · split
    · simp
    · exact upIn_modPort fun _ => rfl

/-- The falling port is down, and every other as it was. -/
theorem upIn_portFalls (p : Nat) (c : DownCause) (s : State) (q : Nat) :
    upIn (portFalls p c s).lk q = if q = p then false else upIn s.lk q := by
  unfold portFalls
  dsimp only
  simp only [upIn_downQueues, noteHops_keeps, incRg_keeps, stickRg_keeps, emitLink_keeps]
  rw [← up_eq_upIn]
  by_cases e : q = p
  · subst e; simp
  · rw [port_modPort_ne e, if_neg e, up_eq_upIn, upIn_cutTransmit]

theorem upIn_portDown (p : Nat) (c : DownCause) (s : State) (q : Nat) :
    upIn (portDown p c s).lk q = if q = p then false else upIn s.lk q := by
  unfold portDown
  split
  case isFalse down =>
    by_cases e : q = p
    · subst e; simpa [up_eq_upIn] using down
    · simp [e]
  · unfold oneCycle
    dsimp only
    split <;> simp [upIn_portFalls]

/-- Taking down a list of ports takes down those listed and no other. -/
theorem upIn_portDown_forAll (c : DownCause) (q : Nat) :
    ∀ (l : List Nat) (s : State), upIn (forAll (fun p s => portDown p c s) l s).lk q = if q ∈ l then false else upIn s.lk q
  | [], _ => rfl
  | p :: l, s => by
    rw [forAll, upIn_portDown_forAll c q l, upIn_portDown]
    by_cases later : q ∈ l <;> by_cases now : q = p <;> simp [later, now]

theorem mem_of_kvGet {α : Type} {k : Nat} {v : α} : ∀ {l : List (Nat × α)}, kvGet k l = some v → (k, v) ∈ l
  | [], h => by simp [kvGet] at h
  | (j, w) :: r, h => by
    unfold kvGet at h
    split at h
    · next same =>
      cases h
      exact same ▸ List.mem_cons_self
    · split at h
      · simp at h
      · exact List.mem_cons_of_mem _ (mem_of_kvGet h)

/-- A port that is up stands in the table of ports. -/
theorem mem_ports_of_up {l : Links} {p : Nat} (up : upIn l p = true) : ∃ x, (p, x) ∈ l.ports ∧ x.up = true := by
  unfold upIn kvGetD at up
  cases found : kvGet p l.ports with
  | none => simp [found] at up
  | some x => exact ⟨x, mem_of_kvGet found, by simpa [found] using up⟩

/-- After every link has been taken down no port is up. -/
theorem port_linksDown (s : State) (p : Nat) : (port (linksDown s) p).up = false := by
  rw [up_eq_upIn, linksDown, upIn_portDown_forAll]
  split
  · rfl
  · next absent =>
    cases up : upIn s.lk p with
    | false => rfl
    | true =>
      obtain ⟨x, member, isUp⟩ := mem_ports_of_up up
      exact absurd (List.mem_map.mpr ⟨(p, x), List.mem_filter.mpr ⟨member, isUp⟩, rfl⟩) absent

end Sys2Proof.Proofs
end

section
/-! PROOFS. Modes (R45, R52 to R63, R152, R538): the mode commands, the run and drain times, the end of DRAIN and of a fault,
and fatal faults. -/

namespace Sys2Proof.Proofs

open Sys2Proof Sys2Proof.Machine Sys2Proof.Safety Sys2Proof.Laws

/-! ## Mode commands (R52 to R54, R59, R64) -/

/-- A run or drain time lies at most 10 µs ahead. -/
theorem effectTime_bounds (s : State) : s.now ≤ effectTime s ∧ effectTime s ≤ s.now + usT 10 := by
  have drawn : draw s % (usT 10 + 1) < usT 10 + 1 := Nat.mod_lt _ (Nat.succ_pos _)
  unfold effectTime
  omega

theorem changesOnly_cmdResult (cmd status : Nat) (s : State) : changesOnly [.modes] s (cmdResult cmd status s) :=
  changesOnly_of fun p => by cases p <;> simp [Part.same]

theorem exec_goRun {s : State} (reset : s.md.mode ≠ .reset) (park : s.md.mode ≠ .park) : exec .goRun s = .next (goRun s) := by
  show execGoRun s = _
  simp only [execGoRun, whenDo, glbOpen_of_mode reset park, if_true]

theorem goRun_accepted {s : State} (status : goRunStatus s = 0) : goRun s = startRun (cmdResult 1 0 s) := by
  simp only [goRun, status, whenDo, beq_self_eq_true, if_true]

theorem goRun_refused {s : State} {n : Nat} (status : goRunStatus s = n) (refused : n ≠ 0) : goRun s = cmdResult 1 n s := by
  simp only [goRun, status, whenDo, beq_iff_eq, refused, if_false]

/-- GO_RUN answers with the status of the first condition of R52 that fails. -/
theorem goRunStatus_barred {s : State} (bar : s.md.mode ≠ .stage ∨ s.md.fenced = true ∨ s.md.faultPending = true ∨
      s.md.transition = true ∨ s.gen.completed = false ∨ s.prot.committed = false) :
    ∃ n, goRunStatus s = n ∧ n ≠ 0 ∧ (n = 2 ∧ s.md.mode ≠ .stage ∨
      n = 3 ∧ (s.md.fenced = true ∨ s.md.faultPending = true) ∨ n = 1 ∧ s.md.transition = true ∨
      n = 4 ∧ s.gen.completed = false ∨ n = 5 ∧ s.prot.committed = false) := by
  by_cases mode : s.md.mode = .stage
  case neg => exact ⟨2, by simp [goRunStatus, mode], by decide, by simp [mode]⟩
  by_cases fence : fenceUp s = true
  · exact ⟨3, by simp [goRunStatus, mode, fence], by decide, by simpa [fenceUp] using fence⟩
  by_cases moving : s.md.transition = true
  · exact ⟨1, by simp [goRunStatus, mode, fence, moving], by decide, by simp [moving]⟩
  by_cases commit : s.gen.completed = true
  case neg => exact ⟨4, by simp [goRunStatus, mode, fence, moving, commit], by decide, by simpa using commit⟩
  have protection : s.prot.committed = false := by
    simp only [fenceUp, Bool.or_eq_true, not_or] at fence
    simpa [mode, fence, moving, commit] using bar
  exact ⟨5, by simp [goRunStatus, mode, fence, moving, commit, protection], by decide, by simp [protection]⟩

theorem goRunStatus_ready {s : State} (mode : s.md.mode = .stage) (unfenced : s.md.fenced = false)
    (idle : s.md.faultPending = false) (still : s.md.transition = false) (commit : s.gen.completed = true)
    (protection : s.prot.committed = true) : goRunStatus s = 0 := by
  simp [goRunStatus, fenceUp, mode, unfenced, idle, still, commit, protection]

/-- The row of a drain command, with the number it leaves in LAST_CMD. -/
def drainRow (c : Instr) (force : Bool) (n : Nat) : Prop := c = .drainToStage ∧ n = 2 ∨ c = .drainToPark force ∧ n = 3

theorem exec_drain {c : Instr} {force : Bool} {n : Nat} {s : State} (row : drainRow c force n) (reset : s.md.mode ≠ .reset)
    (park : s.md.mode ≠ .park) : exec c s = .next (drainCmd (n == 3) (n == 3 && force) s) := by
  rcases row with ⟨rfl, rfl⟩ | ⟨rfl, rfl⟩
  · show execDrainToStage s = _
    simp only [execDrainToStage, whenDo, glbOpen_of_mode reset park, if_true]
    rfl
  · show execDrainToPark force s = _
    simp only [execDrainToPark, whenDo, glbOpen_of_mode reset park, if_true]
    rfl

theorem drainCmd_refused {toPark force : Bool} {s : State} {st : Nat} (status : drainStatus toPark force s = st)
    (refused : st ≠ 0) : drainCmd toPark force s = cmdResult (if toPark then 3 else 2) st s := by
  simp only [drainCmd, status, refused, if_false]

/-- The state after a drain command has been accepted, before its free value is used. -/
def drainAccepted (toPark : Bool) (s : State) : State :=
  { s with md := { s.md with
      transition := true, target := if toPark then .park else .stage, tDrain := some (effectTime s),
      lastCmd := if toPark then 3 else 2, cmdStatus := 0 } }

theorem drainCmd_accepted {toPark force : Bool} {s : State} (status : drainStatus toPark force s = 0) :
    drainCmd toPark force s = drew (drainAccepted toPark s) := by
  simp only [drainCmd, status, if_true]
  rfl

/-- Settles O9: each command is `cmdResult` with its status, and where that is 0 the transition begins. Which of several
refusals is given is the model's choice (log entries 14 and 166). -/
theorem modeCommands : Obligations.ModeCommands := by
  unfold Obligations.ModeCommands
  refine ⟨?_, ?_, ?_, ?_⟩
  · intro s mode unfenced idle still commit protection
    rw [exec_goRun (by simp [mode]) (by simp [mode]),
      goRun_accepted (goRunStatus_ready mode unfenced idle still commit protection)]
    exact ⟨_, effectTime s, rfl, (effectTime_bounds s).1, (effectTime_bounds s).2, rfl,
      changesOnly_of fun p => by cases p <;> simp [Part.same]⟩
  · intro s reset park bar
    obtain ⟨n, status, refused, reason⟩ := goRunStatus_barred bar
    rw [exec_goRun reset park, goRun_refused status refused]
    exact ⟨_, n, rfl, rfl, reason, changesOnly_cmdResult _ _ _⟩
  · intro c force n tgt s row still mode free
    have reset : s.md.mode ≠ .reset := by rcases mode with m | ⟨-, m⟩ <;> simp [m]
    have park : s.md.mode ≠ .park := by rcases mode with m | ⟨-, m⟩ <;> simp [m]
    have status : drainStatus (n == 3) (n == 3 && force) s = 0 := by
      rcases row with ⟨-, rfl, -⟩ | ⟨-, rfl, -⟩
      · have run : s.md.mode = .run := by simpa using mode
        simp [drainStatus, still, run]
      · have kept : force = false → recHasFrozen s = false := fun off => by simpa [off] using free
        rcases mode with m | ⟨-, m⟩ <;> simpa [drainStatus, still, m] using kept
    have named : drainRow c force n := row.imp (fun r => ⟨r.1, r.2.1⟩) fun r => ⟨r.1, r.2.1⟩
    rw [exec_drain named reset park, drainCmd_accepted status]
    refine ⟨_, effectTime s, rfl, (effectTime_bounds s).1, (effectTime_bounds s).2, ?_,
      changesOnly_of fun p => by cases p <;> simp [Part.same, drainAccepted]⟩
    rcases row with ⟨-, rfl, rfl⟩ | ⟨-, rfl, rfl⟩ <;> rfl
  · intro c force n st s row reset park reason
    have status : drainStatus (n == 3) (n == 3 && force) s = st ∧ st ≠ 0 := by
      rcases reason with ⟨rfl, moving⟩ | ⟨rfl, still, notRun, notStage⟩ | ⟨rfl, still, rfl, rfl, frozen, mode⟩
      · simp [drainStatus, moving]
      · rcases notStage with rfl | notStage
        · simp [drainStatus, still, notRun]
        · simp [drainStatus, still, notRun, notStage]
      · rcases mode with mode | mode <;> simp [drainStatus, still, frozen, mode]
    rw [exec_drain row reset park, drainCmd_refused status.1 status.2]
    refine ⟨_, rfl, ?_, changesOnly_cmdResult _ _ _⟩
    rcases row with ⟨-, rfl⟩ | ⟨-, rfl⟩ <;> rfl

/-! ## Changes of mode (R45, R53 to R56) -/

theorem setMode_md (new : Mode) (cmd fault t : Nat) (s : State) :
    (setMode new cmd fault t s).md = { s.md with mode := new, transition := false, target := .reset } := by
  simp [setMode]

theorem exec_runTime {T : Nat} {s : State} (due : s.md.tRun = some T) (moving : s.md.transition = true)
    (target : s.md.target = .run) (mode : s.md.mode = .stage) (unfenced : s.md.fenced = false)
    (idle : s.md.faultPending = false) : exec .runTime s = .next (setMode .run 1 0 T (reach T s)) := by
  show execRunTime s = _
  simp [execRunTime, whenDo, fenceUp, due, moving, target, mode, unfenced, idle]

/-- DRAIN entered at the drain time, before XOFF goes out. -/
def drainEntered (T : Nat) (s : State) : State :=
  let s1 := setMode .drain (if s.md.target = .park then 3 else 2) 0 T (reach T s)
  { s1 with md := { s1.md with transition := true, target := s.md.target, draining := true } }

theorem exec_drainTime {T : Nat} {s : State} (due : s.md.tDrain = some T) (moving : s.md.transition = true)
    (before : s.md.draining = false) (target : s.md.target = .stage ∨ s.md.target = .park) :
    exec .drainTime s = .next (portsXoff (drainEntered T s)) := by
  show execDrainTime s = _
  rcases target with target | target <;> simp [execDrainTime, whenDo, drainEntered, due, moving, before, target]

theorem drainEntered_md {T : Nat} {s : State} (moving : s.md.transition = true) :
    (drainEntered T s).md = { s.md with mode := .drain, draining := true } := by
  simp [drainEntered, setMode_md, ← moving]

/-- The device leaves DRAIN for STAGE, with XON to the ports that had XOFF (R55). -/
def drainLeft (s : State) : State :=
  let s1 := portsXon { s with md := { s.md with draining := false, tRun := none, tDrain := none } }
  setMode .stage 0 0 s1.now s1

theorem exec_drainComplete {s : State} (m : Bool) (mode : s.md.mode = .drain) (draining : s.md.draining = true)
    (empty0 : inflight s 0 = 0) (empty1 : inflight s 1 = 0) (written : s.recd.backlog = []) (idle : s.md.faultPending = false) :
    exec (.drainComplete m) s =
      .next (if s.md.target = .park then enterPark m (recSealOpen 3 s) else drainLeft (recSealOpen 3 s)) := by
  show execDrainComplete m s = _
  simp [execDrainComplete, whenDo, Machine.drained, recIdle, drainLeft, mode, draining, empty0, empty1, written, idle]

theorem drainLeft_md (s : State) : (drainLeft s).md =
    { s.md with mode := .stage, transition := false, target := .reset, draining := false, tRun := none, tDrain := none } := by
  simp [drainLeft, setMode_md]

theorem drainLeft_keeps (s : State) :
    (drainLeft s).prot = s.prot ∧ (drainLeft s).gen = s.gen ∧ (drainLeft s).tab = s.tab := by
  simp [drainLeft]

/-- Zeroisation wipes both keys (R155). -/
theorem zeroise_keys (cause : Nat) (erase m : Bool) (s : State) :
    (zeroise cause erase m s).prot.ko = none ∧ (zeroise cause erase m s).prot.kw = none := by
  cases m <;> simp [zeroise, whenDo, recordZeroisation, wipeSecrets]

/-- PARK entered: wave 1 in progress, both keys wiped, every port down (R58). -/
theorem enterPark_state (m : Bool) (s : State) : (enterPark m s).md.mode = .park ∧ (enterPark m s).md.wave = 1 ∧
    (enterPark m s).md.draining = false ∧ (enterPark m s).prot.ko = none ∧ (enterPark m s).prot.kw = none ∧
    ∀ p, (port (enterPark m s) p).up = false := by
  refine ⟨?_, ?_, ?_, ?_, ?_, fun p => ?_⟩
  · simp [enterPark, setMode_md]
  · simp [enterPark, setMode_md]
  · simp [enterPark, setMode_md]
  · simp [enterPark, zeroise_keys]
  · simp [enterPark, zeroise_keys]
  · rw [← port_linksDown (takeSnapshot (zeroise 1 false m s)) p]
    simp [enterPark, port]

/-! ## The end of a fatal fault (R61, R63) -/

theorem forAll_logFault : ∀ (l : List FaultRec) (s : State),
    (forAll logFault l s).mram.faultSeq = s.mram.faultSeq + l.length ∧ (l ≠ [] ∨ s.mram.slot0Held = true →
      (forAll logFault l s).mram.slot0Held = true)
  | [], s => ⟨rfl, by simp [forAll]⟩
  | f :: l, s => by
    obtain ⟨seq, held⟩ := forAll_logFault l (logFault f s)
    refine ⟨?_, fun _ => held (.inr rfl)⟩
    rw [forAll, seq, List.length_cons, show (logFault f s).mram.faultSeq = s.mram.faultSeq + 1 from rfl]
    omega

/-- Written, each record raises FAULT_SEQ by 1 and fills slot 0. -/
theorem writeFaults_logged (s : State) :
    (writeFaults true s).mram.faultSeq = s.mram.faultSeq + s.md.faultRecs.length ∧
      (s.md.faultRecs ≠ [] → (writeFaults true s).mram.slot0Held = true) := by
  obtain ⟨seq, held⟩ := forAll_logFault s.md.faultRecs { s with md := { s.md with faultRecs := [] } }
  exact ⟨seq, fun some => held (.inl some)⟩

/-- Where MRAM cannot be written, only the DETAIL words are kept. -/
theorem writeFaults_unlogged (s : State) :
    ∃ d, writeFaults false s = { s with md := { s.md with faultRecs := [], faultDetail := d } } := by
  unfold writeFaults
  dsimp only
  split
  · next h => exact absurd h (by decide)
  · split
    · exact ⟨_, rfl⟩
    · exact ⟨s.md.faultDetail, rfl⟩

/-- No record waits any more; of the mode state only DETAIL may change beside. -/
theorem writeFaults_md (m : Bool) (s : State) :
    ∃ d, (writeFaults m s).md = { s.md with faultRecs := [], faultDetail := d } := by
  cases m with
  | true => exact ⟨s.md.faultDetail, by simp [writeFaults]⟩
  | false =>
    obtain ⟨d, unlogged⟩ := writeFaults_unlogged s
    exact ⟨d, by rw [unlogged]⟩

/-- What the writing of the records leaves in MRAM. -/
theorem writeFaults_mram (m : Bool) (s : State) :
    (m = true → (writeFaults m s).mram.faultSeq = s.mram.faultSeq + s.md.faultRecs.length ∧
      (s.md.faultRecs ≠ [] → (writeFaults m s).mram.slot0Held = true)) ∧
    (m = false → (writeFaults m s).mram = s.mram) := by
  refine ⟨?_, ?_⟩
  · rintro rfl; exact writeFaults_logged s
  · rintro rfl
    obtain ⟨d, unlogged⟩ := writeFaults_unlogged s
    rw [unlogged]

/-- The mode state on entering fenced STAGE: no fault is pending, no transition is left, and a WAKE's warming is over. -/
def fencedStage (m : ModeSt) : ModeSt :=
  { m with
    mode := .stage, fenced := true, faultPending := false, warming := false, warmW := 0, wakeStep := 0, transition := false,
    target := .reset, tRun := none, tDrain := none, draining := false }

theorem enterFenced_md (code : Nat) (s : State) : (enterFenced code s).md = fencedStage s.md := by
  unfold enterFenced
  dsimp only
  split
  · next mode => simp [fencedStage, ← mode]
  · rw [setMode_md]; rfl

theorem changesOnly_writeFaults (m : Bool) (s : State) : changesOnly [.modes, .mram] s (writeFaults m s) :=
  changesOnly_of fun p => by cases p <;> simp [Part.same]

theorem exec_faultRecordWritten_idle {s : State} (m : Bool) (idle : s.md.faultPending = false) :
    exec (.faultRecordWritten m) s = .next (writeFaults m s) := by
  show execFaultRecordWritten m s = _
  simp [execFaultRecordWritten, idle]

theorem exec_faultRecordWritten_fencing {s : State} (m : Bool) (awake : s.md.mode ≠ .wake) (fencing : s.md.faultPending = true) :
    exec (.faultRecordWritten m) s = .next (enterFenced s.md.faultCode
      (whenDo (decide (s.md.mode = .drain) && s.md.draining) portsXon (writeFaults m s))) := by
  show execFaultRecordWritten m s = _
  simp [execFaultRecordWritten, awake, fencing]

/-- A fault that fences ends in fenced STAGE once the records are written. -/
theorem faultRecordWritten_fencing {s : State} (m : Bool) (awake : s.md.mode ≠ .wake) (fencing : s.md.faultPending = true) :
    ∃ t d, exec (.faultRecordWritten m) s = .next t ∧ t.md = fencedStage { s.md with faultRecs := [], faultDetail := d } ∧
      t.mram = (writeFaults m s).mram ∧ changesOnly [.modes, .side, .mram, .host, .links, .registers] s t := by
  obtain ⟨d, recorded⟩ := writeFaults_md m s
  rw [exec_faultRecordWritten_fencing m awake fencing]
  generalize (decide (s.md.mode = .drain) && s.md.draining) = xon
  have md : (whenDo xon portsXon (writeFaults m s)).md = { s.md with faultRecs := [], faultDetail := d } := by simp [recorded]
  exact ⟨_, d, rfl, by rw [enterFenced_md, md], by simp, changesOnly_of fun p => by cases p <;> simp [Part.same]⟩

/-- Settles O10: at its time each transition is `setMode` on the state at that time; the end of DRAIN is `drainLeft` or
`enterPark`; a fault ends by `writeFaults` and `enterFenced`. What the time between T_d and the end of DRAIN holds is the model's
choice (log entry 15), as are the order of the waiting records (16), the mode events (101) and the wiping at PARK's entry (17). -/
theorem runDrainAndFaultEnd : Obligations.RunDrainAndFaultEnd := by
  unfold Obligations.RunDrainAndFaultEnd
  refine ⟨⟨?_, ?_⟩, ?_, ?_, ?_⟩
  · intro T s due moving target mode unfenced idle run future inRange
    rw [exec_runTime due moving target mode unfenced idle]
    refine ⟨_, rfl, by simp [setMode_md], ?_, changesOnly_of fun p => by cases p <;> simp [Part.same]⟩
    simpa using reach_now T s run future inRange
  · intro T s due moving before target run future inRange
    rw [exec_drainTime due moving before target]
    refine ⟨_, rfl, ?_, ?_, fun p => ?_, changesOnly_of fun p => by cases p <;> simp [Part.same, drainEntered]⟩
    · simpa using drainEntered_md moving
    · simpa [drainEntered] using reach_now T s run future inRange
    · rw [up_eq_upIn, upIn_portsXoff]
      simp [drainEntered, up_eq_upIn]
  · intro m s mode draining empty0 empty1 written idle target
    rw [exec_drainComplete m mode draining empty0 empty1 written idle, if_neg target]
    exact ⟨_, rfl, by simp [drainLeft_md, drainLeft_keeps]⟩
  · intro m s mode draining empty0 empty1 written idle target
    rw [exec_drainComplete m mode draining empty0 empty1 written idle, if_pos target]
    obtain ⟨park, wave, notDraining, ko, kw, down⟩ := enterPark_state m (recSealOpen 3 s)
    exact ⟨_, rfl, park, wave, notDraining, ko, kw, fun p _ => down p⟩
  · intro m s mode
    obtain ⟨logged, unlogged⟩ := writeFaults_mram m s
    refine ⟨fun fencing => ?_, fun idle => ?_⟩
    · have awake : s.md.mode ≠ .wake := by rcases mode with mode | mode | mode <;> simp [mode]
      obtain ⟨t, d, run, md, mram, changed⟩ := faultRecordWritten_fencing m awake fencing
      rw [← mram] at logged unlogged
      refine ⟨t, run, ?_⟩
      rw [md]
      exact ⟨rfl, rfl, rfl, rfl, rfl, rfl, rfl, rfl, logged, unlogged, changed⟩
    · obtain ⟨d, recorded⟩ := writeFaults_md m s
      rw [exec_faultRecordWritten_idle m idle]
      refine ⟨_, rfl, ?_, ?_, ?_, logged, unlogged, changesOnly_writeFaults m s⟩ <;> rw [recorded]

/-! ## Fatal faults (R45, R60 to R63, R152) -/

theorem exec_fatalFault (code island : Nat) (d : List Nat) (s : State) :
    exec (.fatalFault code island d) s = .next (fatal (code % 2 ^ 16) (island % 2 ^ 8) d s) := rfl

theorem exec_mgmtWatchdog (s : State) : exec .mgmtWatchdog s = .next (fatal 0x0004 95 [] s) := rfl

/-- A rail out of its window for more than 10 µs (R538). -/
theorem exec_supplyMonitorCheck_fatal {r uv n : Nat} (rail : r < 9) (out : uv < railLow r ∨ railHigh r < uv) (long : 10000 < n)
    (s : State) : exec (.supplyMonitorCheck r uv n) s = .next (fatal 0x0006 95 [r] s) := by
  have outside : ¬ (railLow r ≤ uv ∧ uv ≤ railHigh r ∨ n = 0) := by omega
  show execSupplyMonitorCheck r uv n s = _
  rw [execSupplyMonitorCheck, Nat.mod_eq_of_lt rail, if_neg outside, if_pos long]

/-- A fatal fault in unfenced STAGE, in RUN or in DRAIN, with no other pending, is told and recorded; where frames may be
inside it fences them. -/
theorem fatal_fences {s : State} (mode : s.md.mode = .stage ∨ s.md.mode = .run ∨ s.md.mode = .drain)
    (unfenced : s.md.mode = .stage → s.md.fenced = false) (idle : s.md.faultPending = false) (code island : Nat) (d : List Nat) :
    fatal code island d s =
      if s.md.mode = .stage then faultTold code island d s else fenceFrames (faultTold code island d s) := by
  rcases mode with mode | mode | mode
  · simp [fatal, faultTold, mode, idle, unfenced mode]
  · simp [fatal, faultTold, mode, idle]
  · simp [fatal, faultTold, mode, idle]

/-- Only an HBM controller island takes channels with it. -/
theorem failIsland_not_hbm {island : Nat} (below : island < 88) (s : State) : failIsland island s = s := by
  have keptAll : ((List.range 120).filter fun l => 88 + physicalOf s l / 32 == island && !s.svc.lostChannels.contains l) = [] := by
    refine List.filter_eq_nil_iff.mpr fun l _ => ?_
    have apart : 88 + physicalOf s l / 32 ≠ island := by omega
    simp [apart]
  unfold failIsland
  dsimp only
  rw [keptAll]
  rfl

/-- Beside the status, telling a fault keeps the mode, adds one record, tells the warden and leaves the tables. -/
theorem faultTold_state (code island : Nat) (d : List Nat) (s : State) :
    (faultTold code island d s).md.mode = s.md.mode ∧
      (faultTold code island d s).md.faultRecs.length = s.md.faultRecs.length + 1 ∧
      bit 6 (faultTold code island d s).side.event = true ∧
      (island < 88 → (faultTold code island d s).tab = s.tab) := by
  refine ⟨?_, ?_, ?_, fun below => ?_⟩
  · simp [faultTold, fencingFault]
  · simp [faultTold, fencingFault]
  · simp only [faultTold, failIsland_keeps, recFault_keeps, assertFault, emitFault_keeps]
    exact bit_wEvent 6 _
  · rw [faultTold, failIsland_not_hbm below]
    simp [fencingFault]

/-! ### The fence on the frames inside (R61) -/

/-- The queues, the engines and the copies and arrivals on their way read as before. -/
def sameInside (s t : State) : Prop :=
  t.eg = s.eg ∧ t.eng = s.eng ∧ t.buf.arrivals = s.buf.arrivals ∧ t.buf.plan = s.buf.plan

theorem sameInside_trans (s t u : State) (h : sameInside s t) (k : sameInside t u) : sameInside s u := by
  obtain ⟨eg, eng, arrivals, plan⟩ := h
  obtain ⟨eg', eng', arrivals', plan'⟩ := k
  exact ⟨eg'.trans eg, eng'.trans eng, arrivals'.trans arrivals, plan'.trans plan⟩

theorem sameInside_settle (f fate : Nat) (s : State) : sameInside s (settle f fate s) := by
  refine ⟨by simp, by simp, ?_⟩
  cases present : kvGet f s.buf.frames with
  | none => simp [settle, present]
  | some x =>
    by_cases first : x.fate = 0
    · rw [(settle_first fate present first).1]; exact ⟨rfl, rfl⟩
    · simp [settle, present, first]

theorem sameInside_dropFrame (f : Nat) (s : State) : sameInside s (dropFrame f s) := by
  refine ⟨by simp, by simp, ?_⟩
  cases present : kvGet f s.buf.frames with
  | none => simp [dropFrame, present]
  | some x => exact (dropFrame_buf present).2

theorem sameInside_fenceFrame (sending : List Copy) (f : Nat) (s : State) : sameInside s (fenceFrame sending f s) := by
  have settled (c : Prop) [Decidable c] (t : State) : sameInside t (if c then settle f 0x15 t else t) := by
    split
    · exact sameInside_settle f 0x15 t
    · exact ⟨rfl, rfl, rfl, rfl⟩
  have dropped (c : Bool) (t : State) : sameInside t (if c then dropFrame f t else t) := by
    split
    · exact sameInside_dropFrame f t
    · exact ⟨rfl, rfl, rfl, rfl⟩
  unfold fenceFrame
  dsimp only
  refine sameInside_trans _ _ _ (sameInside_trans _ _ _ ?_ (settled _ _)) (dropped _ _)
  exact ⟨rfl, rfl, rfl, rfl⟩

theorem copies_tidy (x : Queue) : x.tidy.copies = x.copies := by
  unfold Queue.tidy
  split <;> rfl

/-- The state once what is queued has been counted and cleared, before the frames inside take their fates. -/
def insideCleared (s : State) : State :=
  let s1 := countOther s
  { s1 with
    eg := { s1.eg with
      queues := s1.eg.queues.map (fun c => (c.1, ({ c.2 with copies := [] }).tidy)),
      ports := s1.eg.ports.map (fun c => (c.1, if 256 ≤ c.1 then { c.2 with sending := none } else c.2)) },
    buf := { s1.buf with plan := [], arrivals := [], holding := [] },
    eng := { s1.eng with engines := s1.eng.engines.map fun e => (e.1, { e.2 with input := [], order := [], contexts := [] }) } }

theorem fenceFrames_eq (s : State) : fenceFrames s =
    forAll (fenceFrame (sendingNow s)) ((insideCleared s).buf.frames.map (·.1)) (insideCleared s) := rfl

theorem sameInside_fenceFrames (s : State) : sameInside (insideCleared s) (fenceFrames s) := by
  rw [fenceFrames_eq]
  exact forAll_rel (fun _ => ⟨rfl, rfl, rfl, rfl⟩) sameInside_trans (sameInside_fenceFrame (sendingNow s)) _ _

/-- Behind the fence no copy is queued or planned, no frame arrives, and no engine keeps one in its order. -/
theorem fenceFrames_empty (s : State) : (∀ k ∈ (fenceFrames s).eg.queues, k.2.copies = []) ∧
    (fenceFrames s).buf.arrivals = [] ∧ (fenceFrames s).buf.plan = [] ∧ ∀ k ∈ (fenceFrames s).eng.engines, k.2.order = [] := by
  obtain ⟨eg, eng, arrivals, plan⟩ := sameInside_fenceFrames s
  rw [eg, eng, arrivals, plan]
  refine ⟨fun k member => ?_, rfl, rfl, fun k member => ?_⟩
  · obtain ⟨c, -, rfl⟩ := List.mem_map.mp member
    exact copies_tidy _
  · obtain ⟨e, -, rfl⟩ := List.mem_map.mp member
    rfl

/-- What a fatal fault leaves that fences: told, recorded, the mode kept, and in RUN and DRAIN nothing inside. -/
theorem fatal_fences_state {s : State} (mode : s.md.mode = .stage ∨ s.md.mode = .run ∨ s.md.mode = .drain)
    (unfenced : s.md.mode = .stage → s.md.fenced = false) (idle : s.md.faultPending = false) (code island : Nat) (d : List Nat) :
    let t := fatal code island d s
    t.md.mode = s.md.mode ∧ t.md.faultPending = true ∧ t.md.faultCode = code ∧ t.md.faultIsland = island ∧
      t.md.faultRecs.length = s.md.faultRecs.length + 1 ∧ t.pins.faultN = true ∧ bit 6 t.side.event = true ∧
      (island < 88 → t.tab = s.tab) ∧
      (s.md.mode ≠ .stage → (∀ k ∈ t.eg.queues, k.2.copies = []) ∧ t.buf.arrivals = [] ∧ t.buf.plan = [] ∧
        ∀ k ∈ t.eng.engines, k.2.order = []) := by
  obtain ⟨pending, shownCode, shownIsland, faultN⟩ := faultTold_status code island d s
  obtain ⟨same, recs, warden, tab⟩ := faultTold_state code island d s
  dsimp only
  rw [fatal_fences mode unfenced idle]
  split
  · next stage => exact ⟨same, pending, shownCode, shownIsland, recs, faultN, warden, tab, fun inside => absurd stage inside⟩
  · simp only [fenceFrames_keeps]
    exact ⟨same, pending, shownCode, shownIsland, recs, faultN, warden, tab, fun _ => fenceFrames_empty _⟩

/-- Settles O12: the three rows are `fatal` with their code and island, and each mode's branch of `fatal` gives the rest. That a
fenced DRAIN is fenced in the same way and what a fault does in the other modes is the model's choice (log entry 16), as is an
HBM controller island that it names (175). -/
theorem fatalFaults : Obligations.FatalFaults := by
  unfold Obligations.FatalFaults
  refine ⟨?_, ?_, ?_⟩
  · intro c code island s mode unfenced idle code16 island8 row
    have run : ∃ d, exec c s = .next (fatal code island d s) := by
      rcases row with ⟨d, rfl⟩ | ⟨rfl, rfl, rfl⟩ | ⟨r, uv, n, rfl, rail, out, long, rfl, rfl⟩
      · exact ⟨d, by rw [exec_fatalFault, Nat.mod_eq_of_lt code16, Nat.mod_eq_of_lt island8]⟩
      · exact ⟨[], exec_mgmtWatchdog s⟩
      · exact ⟨[r], exec_supplyMonitorCheck_fatal rail out long s⟩
    obtain ⟨d, run⟩ := run
    obtain ⟨same, pending, shownCode, shownIsland, recs, faultN, warden, tab, inside⟩ :=
      fatal_fences_state mode unfenced idle code island d
    exact ⟨_, run, same, pending, shownCode, shownIsland, recs, faultN, warden, by simp, tab, by simp, by simp, inside⟩
  · intro code island d s mode
    rw [exec_fatalFault]
    rcases mode with mode | mode
    · exact ⟨_, rfl, by simp [fatal, mode, noteFault]⟩
    · exact ⟨_, rfl, by simp [fatal, mode, noteFault]⟩
  · intro code island d s mode idle least most island8
    have code16 : code < 2 ^ 16 := by omega
    rw [exec_fatalFault, Nat.mod_eq_of_lt code16, Nat.mod_eq_of_lt island8]
    have ends : fatal code island d s = fencingFault ⟨code, island, s.md.mode, s.now, d, false⟩ s := by
      simp [fatal, mode, idle, least, most]
    rw [ends]
    exact ⟨_, rfl, mode, rfl, rfl, rfl, changesOnly_of fun p => by cases p <;> simp [Part.same, fencingFault]⟩

end Sys2Proof.Proofs
end

section
/-! PROOFS. Snisan images (R131 to R138): the image commands as they are taken, how they end, and the applies of an image that
consists of one commit or of one register write. -/

namespace Sys2Proof.Proofs

open Sys2Proof Sys2Proof.Machine Sys2Proof.Safety Sys2Proof.Laws

/-! ## Image commands taken (R137, R138) -/

theorem exec_loadApply {s : State} (host : List (Nat × Byte)) (ok : Bool) (opened : imgOpen s = true) :
    exec (.loadApply host ok) s = .next (loadApply ok (hostWrote host s)) := by
  show execLoadApply host ok s = _
  simp only [execLoadApply, whenDo, opened, if_true]

theorem exec_store {slot : Nat} {s : State} (host : List (Nat × Byte)) (ok : Bool) (opened : imgOpen s = true)
    (small : slot < 4) : exec (.store slot host ok) s = .next (storeImage slot ok (hostWrote host s)) := by
  show execStore slot host ok s = _
  simp only [execStore, whenDo, opened, Nat.mod_eq_of_lt small, if_true]

theorem exec_applySlot {slot : Nat} {s : State} (opened : imgOpen s = true) (small : slot < 4) :
    exec (.applySlot slot) s = .next (applySlot slot s) := by
  show execApplySlot slot s = _
  simp only [execApplySlot, whenDo, opened, Nat.mod_eq_of_lt small, if_true]

theorem exec_mark {slot : Nat} {s : State} (opened : imgOpen s = true) (small : slot < 4) :
    exec (.mark slot) s = .next (imgKnown 4 slot (if (imgSlot s slot).valid then 0 else 12) s) := by
  show execMark slot s = _
  simp only [execMark, whenDo, opened, Nat.mod_eq_of_lt small, if_true]

/-- The rows that take a mark from a slot, with their numbers. -/
def unmarkRow (c : Instr) (slot n : Nat) : Prop := c = .unmark slot ∧ n = 5 ∨ c = .erase slot ∧ n = 6

theorem exec_unmarkRow {c : Instr} {slot n : Nat} {s : State} (row : unmarkRow c slot n) (opened : imgOpen s = true)
    (small : slot < 4) : exec c s = .next (imgKnown n slot 0 s) := by
  rcases row with ⟨rfl, rfl⟩ | ⟨rfl, rfl⟩
  · show execUnmark slot s = _
    simp only [execUnmark, whenDo, opened, Nat.mod_eq_of_lt small, if_true]
  · show execErase slot s = _
    simp only [execErase, whenDo, opened, Nat.mod_eq_of_lt small, if_true]

theorem changesOnly_setBusy (b : ImageCmd) (s : State) : changesOnly [.image] s (setBusy b s) :=
  changesOnly_of fun p => by cases p <;> simp [Part.same]

theorem changesOnly_imgKnown (cmd slot result : Nat) (s : State) : changesOnly [.image] s (imgKnown cmd slot result s) :=
  changesOnly_setBusy _ s

theorem changesOnly_hostWrote (ws : List (Nat × Byte)) (s : State) : changesOnly [.hostMemory] s (hostWrote ws s) :=
  changesOnly_of fun p => by cases p <;> simp [Part.same]

theorem changesOnly_pmuEv (u code : Nat) (sel : Option (Nat × Bool)) (sub : Option Nat) (n : Nat) (s : State) :
    changesOnly [.counters, .registers] s (pmuEv u code sel sub n s) :=
  changesOnly_of fun p => by cases p <;> simp [Part.same]

/-- A command whose outcome is known once the host has written its bytes. -/
theorem changesOnly_imgKnown_hostWrote (cmd slot result : Nat) (ws : List (Nat × Byte)) (s : State) :
    changesOnly [.image, .hostMemory] s (imgKnown cmd slot result (hostWrote ws s)) :=
  changesOnly_trans (changesOnly_mono (changesOnly_hostWrote ws s) (by simp))
    (changesOnly_mono (changesOnly_imgKnown _ _ _ _) (by simp))

/-! ## STORE (R131, R136) -/

theorem storeImage_noDma (slot : Nat) (s : State) : storeImage slot false s = imgKnown 2 slot 11 s := rfl

theorem storeImage_bad {slot r i : Nat} {s : State} (bad : checkImage s (hostImage s) = .error (r, i)) :
    storeImage slot true s =
      setBusy { cmd := 2, slot := slot, result := r, sect := i } (pmuEv 29 2 none none (hostImage s).length s) := by
  simp [storeImage, bad]

theorem storeImage_checked {slot : Nat} {steps : List ImageStep} {s : State} (ok : checkImage s (hostImage s) = .ok steps) :
    storeImage slot true s = setSlot slot {}
      (setBusy { cmd := 2, slot := slot, image := hostImage s } (pmuEv 29 2 none none (hostImage s).length s)) := by
  simp [storeImage, ok]

/-- A STORE whose DMA works changes, until it finishes, its slot at most. -/
theorem storeImage_state {slot : Nat} {host : List (Nat × Byte)} {s : State} (opened : imgOpen s = true) (small : slot < 4) :
    (∀ r i, checkImage (hostWrote host s) (hostImage (hostWrote host s)) = .error (r, i) →
      ∃ t, exec (.store slot host true) s = .next t ∧
        t.img = { s.img with busy := some { cmd := 2, slot := slot, result := r, sect := i } } ∧
        t.hmem = memApply s.hmem host ∧ changesOnly [.image, .counters, .registers, .hostMemory] s t) ∧
    (∀ steps, checkImage (hostWrote host s) (hostImage (hostWrote host s)) = .ok steps →
      ∃ t, exec (.store slot host true) s = .next t ∧
        t.img = { s.img with busy := some { cmd := 2, slot := slot, image := hostImage (hostWrote host s) } } ∧
        t.mram = { s.mram with slots := s.mram.slots.set slot {} } ∧ t.hmem = memApply s.hmem host ∧
        changesOnly [.image, .mram, .counters, .registers, .hostMemory] s t) := by
  rw [exec_store host true opened small]
  refine ⟨fun r i bad => ?_, fun steps ok => ?_⟩
  · rw [storeImage_bad bad]
    refine ⟨_, rfl, by simp [setBusy], by simp [hostWrote], changesOnly_of fun p => ?_⟩
    cases p <;> simp [Part.same]
  · rw [storeImage_checked ok]
    refine ⟨_, rfl, by simp [setBusy], by simp [setSlot], by simp [hostWrote], changesOnly_of fun p => ?_⟩
    cases p <;> simp [Part.same]

/-! ## The end of an image command (R137, R138) -/

theorem exec_imageCommandComplete {b : ImageCmd} {s : State} (busy : s.img.busy = some b) (done : b.todo = [])
    (unanswered : b.waiting = none) (sound : b.failed = none) :
    exec .imageCommandComplete s = .next (finishImage b s) := by
  show execImageCommandComplete s = _
  simp [execImageCommandComplete, imageComplete, settleImage, busy, done, unanswered, sound]

theorem changesOnly_finishImage (b : ImageCmd) (s : State) : changesOnly [.image, .mram] s (finishImage b s) :=
  changesOnly_of fun p => by cases p <;> simp [Part.same]

theorem finishImage_mram (b : ImageCmd) (s : State) : (finishImage b s).mram = (slotEffect b s).mram := rfl

theorem unmarkSlot_mram (slot : Nat) (s : State) : (unmarkSlot slot s).mram =
    { s.mram with autoload := if s.mram.autoload = some slot then none else s.mram.autoload } := by
  by_cases marked : s.mram.autoload = some slot <;> simp [unmarkSlot, marked]

theorem slotEffect_failed {b : ImageCmd} (failed : b.result ≠ 0) (s : State) : slotEffect b s = s := by
  simp [slotEffect, failed]

theorem slotEffect_apply {b : ImageCmd} (ok : b.result = 0) (cmd : b.cmd = 1 ∨ b.cmd = 3) (s : State) : slotEffect b s = s := by
  rcases cmd with cmd | cmd <;> simp [slotEffect, ok, cmd]

theorem slotEffect_store {b : ImageCmd} (ok : b.result = 0) (cmd : b.cmd = 2) (s : State) :
    slotEffect b s = setSlot b.slot { valid := true, bytes := b.image } s := by
  simp [slotEffect, ok, cmd]

theorem slotEffect_mark {b : ImageCmd} (ok : b.result = 0) (cmd : b.cmd = 4) (s : State) :
    slotEffect b s = { s with mram := { s.mram with autoload := some b.slot } } := by
  simp [slotEffect, ok, cmd]

theorem slotEffect_unmark {b : ImageCmd} (ok : b.result = 0) (cmd : b.cmd = 5) (s : State) :
    slotEffect b s = unmarkSlot b.slot s := by
  simp [slotEffect, ok, cmd]

theorem slotEffect_erase {b : ImageCmd} (ok : b.result = 0) (cmd : b.cmd = 6) (s : State) :
    slotEffect b s = unmarkSlot b.slot (setSlot b.slot {} s) := by
  simp [slotEffect, ok, cmd]

/-- UNMARK and ERASE of the marked slot leave no slot marked. -/
theorem unmarkRow_autoload {b : ImageCmd} {s : State} (ok : b.result = 0) (cmd : b.cmd = 5 ∨ b.cmd = 6)
    (marked : s.mram.autoload = some b.slot) : (slotEffect b s).mram.autoload = none := by
  rcases cmd with cmd | cmd
  · rw [slotEffect_unmark ok cmd, unmarkSlot_mram]
    exact if_pos marked
  · rw [slotEffect_erase ok cmd, unmarkSlot_mram]
    exact if_pos marked

/-- While an image command is in progress another is not taken (R137). -/
theorem exec_image_busy {c : Instr} {slot : Nat} {ok : Bool} {s : State} (busy : s.img.busy.isSome = true)
    (row : c ∈ [Instr.loadApply [] ok, .store slot [] ok, .applySlot slot, .mark slot, .unmark slot, .erase slot]) :
    exec c s = .next s := by
  have shut : imgOpen s = false := by simp [imgOpen, busy]
  simp only [List.mem_cons, List.not_mem_nil, or_false] at row
  rcases row with rfl | rfl | rfl | rfl | rfl | rfl
  · show execLoadApply [] ok s = _
    simp [execLoadApply, whenDo, shut, hostWrote, memApply]
  · show execStore slot [] ok s = _
    simp [execStore, whenDo, shut, hostWrote, memApply]
  · show execApplySlot slot s = _
    simp [execApplySlot, whenDo, shut]
  · show execMark slot s = _
    simp [execMark, whenDo, shut]
  · show execUnmark slot s = _
    simp [execUnmark, whenDo, shut]
  · show execErase slot s = _
    simp [execErase, whenDo, shut]

/-- Settles O19: a command is taken with its outcome so far, and `finishImage` ends it with its `slotEffect`. The order of the
checks (log entry 97) and that the slots change with the command's end (99) are the model's choice. -/
theorem imageSlots : Obligations.ImageSlots := by
  unfold Obligations.ImageSlots
  refine ⟨fun slot s small opened => ⟨fun valid => ?_, fun empty => ?_, ?_, ?_, fun host => ⟨?_, ?_⟩⟩, ?_⟩
  · rw [exec_mark opened small, if_pos valid]
    exact ⟨_, rfl, rfl, changesOnly_imgKnown _ _ _ _⟩
  · rw [exec_mark opened small, if_neg (by simp [empty])]
    exact ⟨_, rfl, rfl, changesOnly_imgKnown _ _ _ _⟩
  · rw [exec_unmarkRow (.inl ⟨rfl, rfl⟩) opened small]
    exact ⟨_, rfl, rfl, changesOnly_imgKnown _ _ _ _⟩
  · rw [exec_unmarkRow (.inr ⟨rfl, rfl⟩) opened small]
    exact ⟨_, rfl, rfl, changesOnly_imgKnown _ _ _ _⟩
  · rw [exec_store host false opened small, storeImage_noDma]
    exact ⟨_, rfl, rfl, rfl, changesOnly_imgKnown_hostWrote _ _ _ _ _⟩
  · exact storeImage_state opened small
  · intro b s busy done unanswered sound
    rw [exec_imageCommandComplete busy done unanswered sound]
    refine ⟨_, rfl, rfl, rfl, rfl, ?_, ?_, ?_, ?_, ?_, ?_, changesOnly_finishImage b s⟩ <;> rw [finishImage_mram]
    · exact fun failed => by rw [slotEffect_failed failed]
    · exact fun ok cmd => by rw [slotEffect_apply ok cmd]
    · exact fun ok cmd => by rw [slotEffect_store ok cmd]; rfl
    · exact fun ok cmd => by rw [slotEffect_mark ok cmd]
    · exact fun ok cmd => by rw [slotEffect_unmark ok cmd, unmarkSlot_mram]
    · exact fun ok cmd => by rw [slotEffect_erase ok cmd, unmarkSlot_mram]; rfl

/-- Settles O57: `imgOpen` keeps a command out while another is in progress; UNMARK and ERASE, once taken, have nothing left to do
and finish with `unmarkSlot`. -/
theorem imageBusyAndMark : Obligations.ImageBusyAndMark := by
  unfold Obligations.ImageBusyAndMark
  refine ⟨fun c slot ok s busy row => ⟨s, exec_image_busy busy row, fun p _ => by cases p <;> rfl⟩, ?_⟩
  intro c slot s opened small marked row
  obtain ⟨n, unmarks, number⟩ : ∃ n, unmarkRow c slot n ∧ (n = 5 ∨ n = 6) := by
    simp only [List.mem_cons, List.not_mem_nil, or_false] at row
    rcases row with row | row
    · exact ⟨5, .inl ⟨row, rfl⟩, .inl rfl⟩
    · exact ⟨6, .inr ⟨row, rfl⟩, .inr rfl⟩
  let b : ImageCmd := { cmd := n, slot := slot }
  have taken : (setBusy b s).mram.autoload = some b.slot := marked
  refine ⟨setBusy b s, finishImage b (setBusy b s), exec_unmarkRow unmarks opened small,
    exec_imageCommandComplete rfl rfl rfl rfl, rfl, ?_, ?_⟩
  · rw [finishImage_mram]
    exact unmarkRow_autoload rfl number taken
  · exact changesOnly_trans (changesOnly_mono (changesOnly_setBusy b s) (by simp)) (changesOnly_finishImage b _)

/-! ## Applies (R131 to R134) -/

/-- The state in which the steps of an image are begun: what they may change is kept (R132). -/
def applyBegun (steps : List ImageStep) (s : State) : State := { s with img := { s.img with undo := undoFor steps s } }

theorem applyImage_bad {b : ImageCmd} {img : List Byte} {r i : Nat} {s : State} (bad : checkImage s img = .error (r, i)) :
    applyImage b img s = setBusy { b with result := r, sect := i } s := by
  simp [applyImage, bad]

/-- An image of one COMMIT section starts CHECKING and waits for its answer. -/
theorem applyImage_commit {b : ImageCmd} {img : List Byte} {i : Nat} {s : State} (ok : checkImage s img = .ok [.commit i])
    (may : commitRefusal s true = none) :
    applyImage b img s = setBusy { b with undo := earlyValues s, todo := [], waiting := some (9, i % 256) }
      (startChecking none false (some (imageWaiter 8 1 0 s)) true (clearAnswer (applyBegun [.commit i] s))) := by
  have may' : commitRefusal { s with img := { s.img with undo := undoFor [.commit i] s } } true = none := may
  simp only [applyImage, ok, imageSteps, imageStep, may', afterSteps, Bool.false_eq_true, if_false]
  rfl

/-- An image of one register write has nothing left to do. -/
theorem applyImage_reg {b : ImageCmd} {img : List Byte} {i off : Nat} {v : Word} {s : State}
    (ok : checkImage s img = .ok [.reg i off v]) :
    applyImage b img s = setBusy { b with undo := earlyValues s, todo := [], waiting := none }
      (imageRegWrite off v (applyBegun [.reg i off v] s)) := by
  simp only [applyImage, ok, imageSteps, imageStep, afterSteps]
  rfl

/-- A 32-bit class C register of a unit in service is staged from an image as the driver would stage it (R30, R132). -/
theorem imageRegWrite_single {off : Nat} {v : Word} {h : RegHit} {s : State} (served : shutUnit s off = none)
    (hit : regAt off = some h) (cls : h.row.cls = .c) (narrow : h.row.wide = false) (used : unusedPort s h = false)
    (idle : s.gen.st = 0) : imageRegWrite off v s = storeStaged .c h (linkHoldWord h v).toNat s := by
  have staging : stagingShut s h.row.cls = false := by simp [stagingShut, idle]
  simp only [imageRegWrite, served, hit]
  rw [stagedWrite_single narrow staging used, cls]

/-- The two rows that apply an image: the number of the command, the image, and the state in which it is checked. -/
def applyRow (c : Instr) (n slot : Nat) (img : List Byte) (u s : State) : Prop :=
  (c = .loadApply [] true ∧ n = 1 ∧ slot = 0 ∧ u = pmuEv 29 2 none none (hostImage s).length s ∧ img = hostImage s) ∨
    (c = .applySlot slot ∧ n = 3 ∧ u = s ∧ (imgSlot s slot).valid = true ∧ img = (imgSlot s slot).bytes)

theorem exec_applyRow {c : Instr} {n slot : Nat} {img : List Byte} {u s : State} (row : applyRow c n slot img u s)
    (opened : imgOpen s = true) (allowed : applyAllowed s = true) (small : slot < 4) :
    exec c s = .next (applyImage { cmd := n, slot := slot } img u) := by
  rcases row with ⟨rfl, rfl, rfl, rfl, rfl⟩ | ⟨rfl, rfl, rfl, valid, rfl⟩
  · have same : hostWrote [] s = s := rfl
    rw [exec_loadApply [] true opened, same]
    simp [loadApply, allowed]
  · rw [exec_applySlot opened small]
    simp [applySlot, allowed, valid]

/-- Before its image is checked, an apply has counted its DMA at most. -/
theorem changesOnly_applyRow {c : Instr} {n slot : Nat} {img : List Byte} {u s : State} (row : applyRow c n slot img u s) :
    changesOnly [.counters, .registers] s u := by
  rcases row with ⟨-, -, -, rfl, -⟩ | ⟨-, -, rfl, -, -⟩
  · exact changesOnly_pmuEv _ _ _ _ _ s
  · exact fun p _ => by cases p <;> rfl

theorem genIdle_of_applyAllowed {s : State} (allowed : applyAllowed s = true) : s.gen.st = 0 := by
  simp only [applyAllowed, Bool.and_eq_true, beq_iff_eq] at allowed
  exact allowed.1.2

theorem loadApply_barred {s : State} (barred : applyAllowed s = false) (ok : Bool) : loadApply ok s = imgKnown 1 0 10 s := by
  simp [loadApply, barred]

theorem loadApply_noDma {s : State} (allowed : applyAllowed s = true) : loadApply false s = imgKnown 1 0 11 s := by
  simp [loadApply, allowed]

theorem applySlot_barred {s : State} (barred : applyAllowed s = false) (slot : Nat) :
    applySlot slot s = imgKnown 3 slot 10 s := by
  simp [applySlot, barred]

theorem applySlot_empty {slot : Nat} {s : State} (allowed : applyAllowed s = true) (empty : (imgSlot s slot).valid = false) :
    applySlot slot s = imgKnown 3 slot 12 s := by
  simp [applySlot, allowed, empty]

/-- Settles O20: both rows are `applyImage`, whose single step starts the commit or is `storeStaged`; a refusal is known at once.
The order of the checks (log entry 97), the grounds of RESULT 10 and the wait (98) and what a failed image takes back (181) are
the model's choice. -/
theorem imageApplies : Obligations.ImageApplies := by
  unfold Obligations.ImageApplies
  refine ⟨?_, ?_⟩
  · intro img c u s n slot opened allowed small row
    have counted := changesOnly_applyRow row
    have md : u.md = s.md := counted .modes (by decide)
    have mram : u.mram = s.mram := counted .mram (by decide)
    have gen : u.gen = s.gen := counted .generations (by decide)
    have prot : u.prot = s.prot := counted .protection (by decide)
    rw [exec_applyRow row opened allowed small]
    refine ⟨fun i ok may => ?_, fun i off v h ok served hit cls narrow used => ?_, fun r i bad => ?_⟩
    · rw [applyImage_commit ok may]
      refine ⟨_, _, rfl, rfl, rfl, rfl, rfl, rfl, rfl, rfl, ?_, ?_⟩
      · simpa [applyBegun] using md
      · simpa [applyBegun] using mram
    · have begun : imageRegWrite off v (applyBegun [.reg i off v] u) =
          storeStaged .c h (linkHoldWord h v).toNat (applyBegun [.reg i off v] u) :=
        imageRegWrite_single served hit cls narrow used (by
          show u.gen.st = 0
          rw [gen]; exact genIdle_of_applyAllowed allowed)
      rw [applyImage_reg ok, begun, storeStaged_c]
      refine ⟨_, _, rfl, rfl, rfl, rfl, rfl, rfl, rfl, rfl, mram, fun canon => ?_⟩
      have stored := regWord_setRg h.off (writtenWord u.prot.committed h (rg u h.off) (linkHoldWord h v).toNat) h.off
        (applyBegun [.reg i off v] u) canon
      rw [if_pos rfl] at stored
      rw [← prot]
      exact stored
    · rw [applyImage_bad bad]
      exact ⟨_, rfl, rfl, changesOnly_trans (changesOnly_mono counted (by simp))
        (changesOnly_mono (changesOnly_setBusy _ u) (by simp))⟩
  · intro host ok slot s opened small
    refine ⟨fun barred => ⟨?_, ?_⟩, fun allowed => ⟨?_, fun empty => ?_⟩⟩
    · rw [exec_loadApply host ok opened, loadApply_barred (s := hostWrote host s) barred]
      exact ⟨_, rfl, rfl, changesOnly_imgKnown_hostWrote _ _ _ _ _⟩
    · rw [exec_applySlot opened small, applySlot_barred barred]
      exact ⟨_, rfl, rfl, changesOnly_imgKnown _ _ _ _⟩
    · rw [exec_loadApply host false opened, loadApply_noDma (s := hostWrote host s) allowed]
      exact ⟨_, rfl, rfl, changesOnly_imgKnown_hostWrote _ _ _ _ _⟩
    · rw [exec_applySlot opened small, applySlot_empty allowed empty]
      exact ⟨_, rfl, rfl, changesOnly_imgKnown _ _ _ _⟩

end Sys2Proof.Proofs
end

section
/-! PROOFS. Protected changes (R139 to R149): nonces, stagings and their refusals, the window's ends, and confirmations. -/

namespace Sys2Proof.Proofs

open Sys2Proof Sys2Proof.Machine Sys2Proof.Safety Sys2Proof.Laws

/-! ## PROTECT events, discards and the window (R109, R147, R152) -/

theorem bit_emitProtect {typ : Nat} (told : typ = 1 ∨ typ = 2 ∨ typ = 3) (off party item : Nat) (s : State) :
    bit (typ - 1) (emitProtect typ off party item s).side.event = true := by
  simp only [emitProtect, if_pos told]
  exact bit_wEvent _ _

theorem changesOnly_setResult (r : Nat) (s : State) : changesOnly [.protection] s (setResult r s) :=
  changesOnly_of fun p => by cases p <;> simp [Part.same]

theorem discardPending_eq {p : Pending} {s : State} (pending : s.prot.pending = some p) (result party : Nat) :
    discardPending result party s =
      setResult result (emitProtect 3 (itemOffset p.item) party p.item (dropPending s)) := by
  simp [discardPending, pending]

/-- A discarded change leaves its LAST_RESULT and is told (R147, R149). -/
theorem discardPending_state {p : Pending} {s : State} (pending : s.prot.pending = some p) (result party : Nat) :
    (discardPending result party s).prot = { s.prot with pending := none, lastResult := result } ∧
      bit 2 (discardPending result party s).side.event = true ∧
      changesOnly [.side, .protection, .host, .registers] s (discardPending result party s) := by
  refine ⟨?_, ?_, changesOnly_of fun p => by cases p <;> simp [Part.same]⟩
  · simp [discardPending_eq pending, setResult, dropPending]
  · rw [discardPending_eq pending]
    exact bit_emitProtect (.inr (.inr rfl)) _ _ _ _

theorem expirePending_none {s : State} (free : s.prot.pending = none) : expirePending s = s := by
  simp [expirePending, free]

theorem expirePending_within {p : Pending} {s : State} (pending : s.prot.pending = some p)
    (within : s.elapsed < p.opened + windowLen) : expirePending s = s := by
  simp only [expirePending, pending, if_neg (Nat.not_le_of_lt within)]

theorem expirePending_past {p : Pending} {s : State} (pending : s.prot.pending = some p)
    (past : p.opened + windowLen ≤ s.elapsed) : expirePending s = discardPending 5 0 s := by
  simp only [expirePending, pending, if_pos past]

/-! ## The operator's commands (R146, R147) -/

theorem exec_newNonce {s : State} (opened : hostOpen s = true) : exec .newNonce s = .next (newNonce s) := by
  show execNewNonce s = _
  simp only [execNewNonce, whenDo, opened, if_true]

theorem newNonce_prot (s : State) : (newNonce s).prot =
    { s.prot with nonce := draw s % 2 ^ 64, nonceFresh := true, lastResult := 1, rng := draw s } := by
  simp [newNonce, setResult]

theorem exec_stage {item count : Nat} {s : State} (opened : hostOpen s = true) (item8 : item < 256) (count5 : count < 32)
    (unexpired : expirePending s = s) : exec (.stage item count) s = .next (stageChange item count s) := by
  show execStage item count s = _
  simp only [execStage, whenDo, opened, Nat.mod_eq_of_lt item8, Nat.mod_eq_of_lt count5, unexpired, if_true]

/-- The nonce is no longer fresh (R146). -/
def voidNonce (s : State) : State := { s with prot := { s.prot with nonceFresh := false } }

theorem stageChange_refused {item count n : Nat} {s : State} (refused : stageRefusal s item count = some n) :
    stageChange item count s = setResult n (voidNonce s) := by
  simp only [stageChange, refused, voidNonce]

theorem stageRefused_state {item count n : Nat} {s : State} (refused : stageRefusal s item count = some n) :
    (stageChange item count s).prot = { s.prot with nonceFresh := false, lastResult := n } ∧
      changesOnly [.protection] s (stageChange item count s) := by
  rw [stageChange_refused refused]
  exact ⟨rfl, changesOnly_of fun p => by cases p <;> simp [Part.same, voidNonce]⟩

/-- The digest over which the operator's MAC and the warden's are made (R148). -/
def stageDigest (s : State) (item count : Nat) : List Byte :=
  sha256 (digestRecord s.dev.uniqueId s.prot.nonce item (stagedValues s item count))

/-- The change that an accepted STAGE leaves pending. -/
def stagedChange (s : State) (item count : Nat) : Pending :=
  ⟨item, (stagedValues s item count).length, stagedValues s item count, s.prot.nonce, stageDigest s item count, s.elapsed⟩

theorem stageChange_opens {item count : Nat} {s : State} (accepted : stageRefusal s item count = none) :
    stageChange item count s = setResult 2 (emitProtect 1 (itemOffset item) 0 item
      { voidNonce s with prot := { (voidNonce s).prot with
        pending := some (stagedChange s item count), digest := stageDigest s item count } }) := by
  simp only [stageChange, accepted, voidNonce, stagedChange, stageDigest]

/-- An accepted STAGE opens the window with its record (R146 to R148). -/
theorem stageOpened_state {item count : Nat} {s : State} (accepted : stageRefusal s item count = none) :
    (stageChange item count s).prot = { s.prot with
        nonceFresh := false, lastResult := 2, digest := stageDigest s item count,
        pending := some (stagedChange s item count) } ∧
      bit 0 (stageChange item count s).side.event = true ∧
      changesOnly [.side, .protection, .host, .registers] s (stageChange item count s) := by
  rw [stageChange_opens accepted]
  refine ⟨?_, bit_emitProtect (.inl rfl) _ _ _ _, changesOnly_of fun p => by cases p <;> simp [Part.same, voidNonce]⟩
  simp [setResult, voidNonce]

/-- With every other check of a STAGE passed the operator's MAC decides (R146). -/
theorem stageRefusal_mac {item count : Nat} {ko kw : List Byte} {s : State} (free : s.prot.pending = none)
    (operator : s.prot.ko = some ko) (warden : s.prot.kw = some kw) (right : itemOk s item count = true)
    (fresh : s.prot.nonceFresh = true) :
    (regBytes s R.prtOpMac 8 = hmac ko (stageDigest s item count) → stageRefusal s item count = none) ∧
      (regBytes s R.prtOpMac 8 ≠ hmac ko (stageDigest s item count) → stageRefusal s item count = some 10) := by
  unfold stageDigest
  exact ⟨fun mac => by simp [stageRefusal, free, operator, warden, right, fresh, mac],
    fun mac => by simp [stageRefusal, free, operator, warden, right, fresh, mac]⟩

theorem stageRefusal_pending {s : State} (pending : s.prot.pending.isSome = true) (item count : Nat) :
    stageRefusal s item count = some 8 := by
  simp [stageRefusal, pending]

theorem stageRefusal_keyless {s : State} (free : s.prot.pending = none) (keyless : s.prot.ko = none ∨ s.prot.kw = none)
    (item count : Nat) : stageRefusal s item count = some 11 := by
  rcases keyless with absent | absent
  · simp [stageRefusal, free, absent]
  · cases operator : s.prot.ko <;> simp [stageRefusal, free, absent, operator]

theorem stageRefusal_keyed {item count : Nat} {s : State} (free : s.prot.pending = none) (operator : s.prot.ko.isSome = true)
    (warden : s.prot.kw.isSome = true) :
    (itemOk s item count = false → stageRefusal s item count = some 12) ∧
      (itemOk s item count = true → s.prot.nonceFresh = false → stageRefusal s item count = some 9) := by
  obtain ⟨ko, operator⟩ := Option.isSome_iff_exists.mp operator
  obtain ⟨kw, warden⟩ := Option.isSome_iff_exists.mp warden
  exact ⟨fun wrong => by simp [stageRefusal, free, operator, warden, wrong],
    fun right used => by simp [stageRefusal, free, operator, warden, right, used]⟩

theorem exec_withdraw {s : State} (opened : hostOpen s = true) (unexpired : expirePending s = s) :
    exec .withdraw s = .next (discardPending 6 0 s) := by
  show execWithdraw s = _
  simp only [execWithdraw, whenDo, opened, unexpired, if_true]

theorem exec_protectWindowExpiry {p : Pending} {s : State} (pending : s.prot.pending = some p) :
    exec .protectWindowExpiry s = .next (expirePending (reachElapsed (p.opened + windowLen) s)) := by
  show execProtectWindowExpiry s = _
  simp only [execProtectWindowExpiry, pending]

/-- The window ends 10,000 ms after the STAGE, and the change with it (R147). -/
theorem windowExpired_state {p : Pending} {s : State} (pending : s.prot.pending = some p)
    (within : s.elapsed < p.opened + windowLen) :
    ∃ t, exec .protectWindowExpiry s = .next t ∧ t.prot = { s.prot with pending := none, lastResult := 5 } ∧
      bit 2 t.side.event = true ∧ t.elapsed = p.opened + windowLen ∧
      changesOnly [.side, .protection, .host, .time, .counters, .registers, .masterTime, .elapsed] s t := by
  have reached := reachElapsed_elapsed (p.opened + windowLen) s (Nat.le_of_lt within)
  have still : (reachElapsed (p.opened + windowLen) s).prot.pending = some p := by simpa using pending
  obtain ⟨prot, told, -⟩ := discardPending_state still 5 0
  rw [exec_protectWindowExpiry pending, expirePending_past still (Nat.le_of_eq reached.symm)]
  refine ⟨_, rfl, by simpa using prot, told, by simpa using reached, changesOnly_of fun p => ?_⟩
  cases p <;> simp [Part.same]

/-! ## The warden's commands (R144, R147) -/

theorem asWarden_warden {s : State} (f : State → State) (opened : windowOpen s (wardenParty s) = true) :
    asWarden (wardenParty s) f s = f s := by
  simp [asWarden, opened]

theorem asWarden_other {p : Party} {s : State} (f : State → State) (opened : windowOpen s p = true)
    (other : p ≠ wardenParty s) : asWarden p f s = violation 4 (partyCode p) s := by
  simp [asWarden, opened, other]

theorem exec_reject {s : State} (opened : windowOpen s (wardenParty s) = true) (unexpired : expirePending s = s) :
    exec (.reject (wardenParty s)) s = .next (discardPending 7 (partyCode (wardenParty s)) s) := by
  show execReject (wardenParty s) s = _
  simp only [execReject, asWarden_warden _ opened, unexpired]

theorem exec_confirm {s : State} (ok : Bool) (opened : windowOpen s (wardenParty s) = true) (unexpired : expirePending s = s) :
    exec (.confirm (wardenParty s) ok) s = .next (confirmChange (wardenParty s) ok s) := by
  show execConfirm (wardenParty s) ok s = _
  simp only [execConfirm, asWarden_warden _ opened, unexpired]

/-- A command of the warden's window from another party is a violation (R144). -/
theorem exec_wardenRow_other {c : Instr} {p : Party} {ok : Bool} {s : State} (opened : windowOpen s p = true)
    (other : p ≠ wardenParty s) (row : c = .confirm p ok ∨ c = .reject p ∨ c = .provision p) :
    exec c s = .next (violation 4 (partyCode p) s) := by
  rcases row with rfl | rfl | rfl
  · show execConfirm p ok s = _
    simp only [execConfirm, asWarden_other _ opened other]
  · show execReject p s = _
    simp only [execReject, asWarden_other _ opened other]
  · show execProvision p s = _
    simp only [execProvision, asWarden_other _ opened other]

/-- A change has been confirmed and told; its item has not taken effect yet. -/
def confirmed (party : Nat) (p : Pending) (s : State) : State :=
  setResult 3 (emitProtect 2 (itemOffset p.item) party p.item (dropPending s))

theorem confirmed_prot (party : Nat) (p : Pending) (s : State) :
    (confirmed party p s).prot = { s.prot with pending := none, lastResult := 3 } := by
  simp [confirmed, setResult, dropPending]

theorem confirmed_mram (party : Nat) (p : Pending) (s : State) : (confirmed party p s).mram = s.mram := by
  simp [confirmed]

theorem bit_confirmed (party : Nat) (p : Pending) (s : State) : bit 1 (confirmed party p s).side.event = true :=
  bit_emitProtect (.inr (.inl rfl)) _ _ _ _

theorem changesOnly_confirmed (party : Nat) (p : Pending) (s : State) :
    changesOnly [.side, .protection, .host, .registers] s (confirmed party p s) :=
  changesOnly_of fun q => by cases q <;> simp [Part.same, confirmed]

theorem confirmChange_match {p : Pending} {kw : List Byte} {s : State} (pending : s.prot.pending = some p)
    (warden : s.prot.kw = some kw) (mac : bytesOfWords s.side.confirm = hmac kw p.digest) (party : Party) (ok : Bool) :
    confirmChange party ok s = applyItem p.item p.values ok (confirmed (partyCode party) p s) := by
  simp [confirmChange, pending, warden, mac, confirmed]

theorem confirmChange_mismatch {p : Pending} {kw : List Byte} {s : State} (pending : s.prot.pending = some p)
    (warden : s.prot.kw = some kw) (mac : bytesOfWords s.side.confirm ≠ hmac kw p.digest) (party : Party) (ok : Bool) :
    confirmChange party ok s = discardPending 4 (partyCode party) s := by
  simp [confirmChange, pending, warden, mac]

/-! ## The items of a confirmation (R139, R141) -/

/-- The key that a change's values are. -/
abbrev keyOfValues (vals : List Nat) : Option (List Byte) := some (bytesOfWords vals)

@[simp] theorem applyItem_commit (vals : List Nat) (ok : Bool) (s : State) :
    applyItem 1 vals ok s = { s with prot := { s.prot with committed := true } } := rfl

@[simp] theorem applyItem_operatorKey (vals : List Nat) (ok : Bool) (s : State) : applyItem 7 vals ok s =
    { s with
      prot := { s.prot with ko := keyOfValues vals },
      mram := { s.mram with vaultKo := keyOfValues vals, keyGenOp := (s.mram.keyGenOp + 1) % 2 ^ 16 } } := rfl

@[simp] theorem applyItem_wardenKey (vals : List Nat) (ok : Bool) (s : State) : applyItem 8 vals ok s =
    { s with
      prot := { s.prot with kw := keyOfValues vals },
      mram := { s.mram with vaultKw := keyOfValues vals, keyGenWd := (s.mram.keyGenWd + 1) % 2 ^ 16 } } := rfl

/-- Of the protection commit and the two keys, an item 1, 7 or 8 changes its own and no other. -/
theorem applyItem_state {item : Nat} (effective : item = 1 ∨ item = 7 ∨ item = 8) (vals : List Nat) (ok : Bool) (s : State) :
    let t := applyItem item vals ok s
    t.prot.pending = s.prot.pending ∧ t.prot.lastResult = s.prot.lastResult ∧ t.side = s.side ∧
      (t.prot.committed = true ↔ item = 1 ∨ s.prot.committed = true) ∧
      (item = 7 → t.prot.ko = keyOfValues vals ∧ t.mram.vaultKo = keyOfValues vals) ∧
      (item ≠ 7 → t.prot.ko = s.prot.ko ∧ t.mram.vaultKo = s.mram.vaultKo) ∧
      (item = 8 → t.prot.kw = keyOfValues vals ∧ t.mram.vaultKw = keyOfValues vals) ∧
      (item ≠ 8 → t.prot.kw = s.prot.kw ∧ t.mram.vaultKw = s.mram.vaultKw) ∧
      changesOnly [.protection, .mram] s t := by
  rcases effective with rfl | rfl | rfl
  all_goals
    exact ⟨rfl, rfl, rfl, by simp, by simp, by simp, by simp, by simp,
      changesOnly_of fun p => by cases p <;> simp [Part.same]⟩

/-- Settles O21: a STAGE is `stageChange` with its first refusal or none, each end of the window is `discardPending`, and a
confirmation is `applyItem` on the `confirmed` state. -/
theorem protectedChanges : Obligations.ProtectedChanges := by
  unfold Obligations.ProtectedChanges
  refine ⟨⟨?_, ?_, ?_, ?_⟩, ?_, ?_⟩
  · intro s opened
    rw [exec_newNonce opened]
    refine ⟨_, rfl, ?_, ?_, changesOnly_of fun p => by cases p <;> simp [Part.same, newNonce]⟩ <;> rw [newNonce_prot]
    exact Nat.mod_lt _ (by decide)
  · intro item count ko kw mac rec s opened free operator warden fresh item8 count5 right recEq macEq
    subst recEq macEq
    obtain ⟨accepts, refuses⟩ := stageRefusal_mac free operator warden right fresh
    rw [exec_stage opened item8 count5 (expirePending_none free)]
    exact ⟨fun mac => ⟨_, rfl, stageOpened_state (accepts mac)⟩,
      fun mac => ⟨_, rfl, stageRefused_state (refuses mac)⟩⟩
  · intro item count n s opened item8 count5 refusal
    have first : expirePending s = s ∧ stageRefusal s item count = some n := by
      rcases refusal with ⟨rfl, p, pending, within⟩ |
        ⟨free, ⟨rfl, keyless⟩ | ⟨operator, warden, ⟨rfl, wrong⟩ | ⟨rfl, right, used⟩⟩⟩
      · exact ⟨expirePending_within pending within, stageRefusal_pending (by simp [pending]) item count⟩
      · exact ⟨expirePending_none free, stageRefusal_keyless free keyless item count⟩
      · exact ⟨expirePending_none free, (stageRefusal_keyed free operator warden).1 wrong⟩
      · exact ⟨expirePending_none free, (stageRefusal_keyed free operator warden).2 right used⟩
    obtain ⟨unexpired, refused⟩ := first
    rw [exec_stage opened item8 count5 unexpired]
    exact ⟨_, rfl, stageRefused_state refused⟩
  · intro p s pending within
    have unexpired := expirePending_within pending within
    refine ⟨fun opened => ?_, fun opened => ?_, windowExpired_state pending within⟩
    · rw [exec_withdraw opened unexpired]
      exact ⟨_, rfl, discardPending_state pending 6 0⟩
    · rw [exec_reject opened unexpired]
      exact ⟨_, rfl, discardPending_state pending 7 _⟩
  · intro p kw ok s pending warden within opened
    rw [exec_confirm ok opened (expirePending_within pending within)]
    refine ⟨fun mac effective => ?_, fun mac => ?_⟩
    · rw [confirmChange_match pending warden mac]
      have before := confirmed_prot (partyCode (wardenParty s)) p s
      obtain ⟨dropped, result, side, committed, ko, koKept, kw, kwKept, effect⟩ :=
        applyItem_state effective p.values ok (confirmed (partyCode (wardenParty s)) p s)
      rw [before] at dropped result committed koKept kwKept
      rw [confirmed_mram] at koKept kwKept
      refine ⟨_, rfl, dropped, result, ?_, committed, ko, koKept, kw, kwKept, ?_⟩
      · rw [side]; exact bit_confirmed _ p s
      · exact changesOnly_trans (changesOnly_mono (changesOnly_confirmed _ p s) (by simp))
          (changesOnly_mono effect (by simp))
    · rw [confirmChange_mismatch pending warden mac]
      exact ⟨_, rfl, discardPending_state pending 4 _⟩
  · intro c p ok s canon opened other row
    rw [exec_wardenRow_other opened other row]
    exact ⟨_, rfl, rg_prtViolations_violation 4 _ canon, bit_violation 4 _ s, changesOnly_violation 4 _ s⟩

end Sys2Proof.Proofs
end

section
/-! PROOFS. Keys, zeroisation and the JTAG port (R63, R145, R154 to R157, R526, R533): provisioning, what a zeroisation wipes
and tells, what a scan leaves, and the acknowledgement of a fault. -/

namespace Sys2Proof.Proofs

open Sys2Proof Sys2Proof.Machine Sys2Proof.Safety Sys2Proof.Laws

/-! ## Provisioning a key (R145) -/

theorem exec_provisionOpKey {s : State} (opened : hostOpen s = true) : exec .provisionOpKey s = .next (provisionOpKey s) := by
  show execProvisionOpKey s = _
  simp only [execProvisionOpKey, whenDo, opened, if_true]

theorem exec_provision {s : State} (opened : windowOpen s (wardenParty s) = true) :
    exec (.provision (wardenParty s)) s = .next (provisionWdKey s) := by
  show execProvision (wardenParty s) s = _
  simp only [execProvision, asWarden_warden _ opened]

/-- The rule by which either key is provisioned: 15 where the vault is blocked, 14 where the key's slot is full, else the key
goes in and the state is `t`. -/
def provisionInto (slot : Option (List Byte)) (t s : State) : State :=
  if s.prot.vaultBlocked = true then setResult 15 s else if slot ≠ none then setResult 14 s else t

theorem provisionOpKey_eq (s : State) : provisionOpKey s = provisionInto s.mram.vaultKo
    { s with
      prot := { s.prot with ko := some (regBytes s R.prtKey 8) },
      mram := { s.mram with vaultKo := some (regBytes s R.prtKey 8), keyGenOp := 0 } } s := by
  simp only [provisionOpKey, provisionInto, Option.isSome_iff_ne_none]

theorem provisionWdKey_eq (s : State) : provisionWdKey s = provisionInto s.mram.vaultKw
    { s with
      prot := { s.prot with kw := some (bytesOfWords s.side.key) },
      mram := { s.mram with vaultKw := some (bytesOfWords s.side.key), keyGenWd := 0 } } s := by
  simp only [provisionWdKey, provisionInto, Option.isSome_iff_ne_none]

theorem provision_cases {c : Instr} {slot : Option (List Byte)} {t s : State}
    (run : exec c s = .next (provisionInto slot t s)) :
    (s.prot.vaultBlocked = false → slot = none → exec c s = .next t) ∧
      (s.prot.vaultBlocked = false → slot ≠ none →
        ∃ u, exec c s = .next u ∧ u.prot = { s.prot with lastResult := 14 } ∧ changesOnly [.protection] s u) ∧
      (s.prot.vaultBlocked = true →
        ∃ u, exec c s = .next u ∧ u.prot = { s.prot with lastResult := 15 } ∧ changesOnly [.protection] s u) := by
  unfold provisionInto at run
  refine ⟨fun unblocked empty => ?_, fun unblocked full => ⟨_, ?_, rfl, changesOnly_setResult 14 s⟩,
    fun blocked => ⟨_, ?_, rfl, changesOnly_setResult 15 s⟩⟩
  · rwa [if_neg (by simp [unblocked]), if_neg (by simp [empty])] at run
  · rwa [if_neg (by simp [unblocked]), if_pos full] at run
  · rwa [if_pos blocked] at run

/-! ## Zeroisation (R154, R155) -/

theorem regsCanonical_emit (cls typ src : Nat) (body : List Nat) {s : State} (h : RegsCanonical s) :
    RegsCanonical (emit cls typ src body s) := by
  unfold emit
  dsimp only
  split
  · exact regsCanonical_incRg64 _ h
  · split
    · exact h
    · exact regsCanonical_stickRg _ _ (regsCanonical_incRg64 R.rngEvtDropped (s := { s with host := _ }) h)

theorem regsCanonical_whenDo {f : State → State} (keeps : ∀ u, RegsCanonical u → RegsCanonical (f u)) (c : Bool) {s : State}
    (h : RegsCanonical s) : RegsCanonical (whenDo c f s) := by
  cases c
  · exact h
  · exact keeps s h

/-- Sealing a segment touches registers only where it tells of it. -/
theorem regsCanonical_recSealOpen (cause : Nat) {s : State} (h : RegsCanonical s) : RegsCanonical (recSealOpen cause s) := by
  unfold recSealOpen
  split
  · dsimp only
    refine regsCanonical_whenDo (fun u k => (regsCanonical_congr (by simp)).mpr k) _ ?_
    refine regsCanonical_whenDo (fun u k => regsCanonical_emit _ _ _ _ k) _ ?_
    exact regsCanonical_whenDo (f := modRec endPost) (fun u k => k) _ h
  · exact h

/-- Clearing registers one after another leaves each of them 0. -/
theorem forAll_cleared (off : Nat → Nat) : ∀ (l : List Nat) (s : State), RegsCanonical s →
    RegsCanonical (forAll (fun k => setRg (off k) 0) l s) ∧
      ∀ x, x ∈ l.map off ∨ rg s x = 0 → rg (forAll (fun k => setRg (off k) 0) l s) x = 0
  | [], s, canon => ⟨canon, fun x h => by simpa [forAll] using h⟩
  | k :: l, s, canon => by
    obtain ⟨after, cleared⟩ := forAll_cleared off l (setRg (off k) 0 s) (regsCanonical_setRg _ _ canon)
    refine ⟨after, fun x h => cleared x ?_⟩
    by_cases same : x = off k
    · exact .inr (by rw [same, rg_setRg _ _ canon, Nat.zero_mod])
    · rw [rg_setRg_ne same _ canon]
      simpa [same] using h

/-- The key registers hold no copy any more, and the registers stay canonical (R155). -/
theorem wipeSecrets_prtKey (erase : Bool) {s : State} (canon : RegsCanonical s) :
    RegsCanonical (wipeSecrets erase s) ∧ ∀ k < 8, rg (wipeSecrets erase s) (R.prtKey k) = 0 := by
  obtain ⟨after, cleared⟩ := forAll_cleared R.prtKey (List.range 8) s canon
  have regs : (wipeSecrets erase s).regs = (forAll (fun k => setRg (R.prtKey k) 0) (List.range 8) s).regs := by
    simp only [wipeSecrets]
  refine ⟨(regsCanonical_congr regs).mpr after, fun k small => ?_⟩
  rw [rg_congr regs]
  exact cleared _ (.inl (List.mem_map_of_mem (List.mem_range.mpr small)))

theorem prtKey_notMem_eventLossRegs (k : Nat) (small : k < 8) : R.prtKey k ∉ eventLossRegs := by
  revert k; decide

/-- The state of a zeroisation once its secrets are wiped and its record is written. -/
def zeroised (cause : Nat) (erase mramOk : Bool) (s : State) : State :=
  whenDo mramOk (recordZeroisation cause erase (recHasOpen s)) (wipeSecrets erase (recDropKey (recSealOpen 5 s)))

/-- Then the warden and the host are told, and a vault that was not erased is blocked. -/
theorem zeroise_eq (cause : Nat) (erase mramOk : Bool) (s : State) : zeroise cause erase mramOk s =
    let t := emit 0xF 4 95 [0x30180] (wEvent 3 (zeroised cause erase mramOk s))
    { t with prot := { t.prot with vaultBlocked := t.prot.vaultBlocked || !erase } } := rfl

theorem zeroise_mram (cause : Nat) (erase mramOk : Bool) (s : State) :
    (zeroise cause erase mramOk s).mram = (zeroised cause erase mramOk s).mram := by
  simp [zeroise_eq]

theorem zeroise_prot (cause : Nat) (erase mramOk : Bool) (s : State) : (zeroise cause erase mramOk s).prot =
    { (zeroised cause erase mramOk s).prot with
      vaultBlocked := (zeroised cause erase mramOk s).prot.vaultBlocked || !erase } := by
  simp [zeroise_eq]

/-- The key registers are still clear once the zeroisation has been told of. -/
theorem zeroise_prtKey (cause : Nat) (erase mramOk : Bool) {s : State} (canon : RegsCanonical s) :
    ∀ k < 8, rg (zeroise cause erase mramOk s) (R.prtKey k) = 0 := by
  intro k small
  have afterSeal : RegsCanonical (recDropKey (recSealOpen 5 s)) :=
    (regsCanonical_congr (by simp)).mpr (regsCanonical_recSealOpen 5 canon)
  obtain ⟨wiped, cleared⟩ := wipeSecrets_prtKey erase afterSeal
  have regs : (wEvent 3 (zeroised cause erase mramOk s)).regs =
      (wipeSecrets erase (recDropKey (recSealOpen 5 s))).regs := by
    simp [zeroised]
  have untold := rg_of_registersBut (registersBut_emit 0xF 4 95 [0x30180] ((regsCanonical_congr regs).mpr wiped))
    (prtKey_notMem_eventLossRegs k small)
  calc rg (zeroise cause erase mramOk s) (R.prtKey k)
      = rg (emit 0xF 4 95 [0x30180] (wEvent 3 (zeroised cause erase mramOk s))) (R.prtKey k) := rg_congr rfl _
    _ = rg (wEvent 3 (zeroised cause erase mramOk s)) (R.prtKey k) := untold
    _ = rg (wipeSecrets erase (recDropKey (recSealOpen 5 s))) (R.prtKey k) := rg_congr regs _
    _ = 0 := cleared k small

/-- What a zeroisation that erases the vault leaves of the secrets, where MRAM takes its record (R155). -/
theorem zeroise_erased (cause : Nat) (s : State) :
    let t := zeroise cause true true s
    (s.prot.nonceFresh = true → t.prot.nonce = 0) ∧ t.prot.pending = none ∧
      t.mram.vaultKo = none ∧ t.mram.vaultKw = none ∧ t.side.key = List.replicate 8 0 ∧
      t.mram.zeroCount = s.mram.zeroCount + 1 ∧ t.prot.committed = s.prot.committed ∧
      bit 3 t.side.event = true := by
  refine ⟨fun fresh => ?_, ?_, ?_, ?_, ?_, ?_, ?_, ?_⟩
  · simp [zeroise_prot, zeroised, whenDo, recordZeroisation, wipeSecrets, fresh]
  · simp [zeroise_prot, zeroised, whenDo, recordZeroisation, wipeSecrets]
  · simp [zeroise_mram, zeroised, whenDo, recordZeroisation, wipeSecrets]
  · simp [zeroise_mram, zeroised, whenDo, recordZeroisation, wipeSecrets]
  · have key : (wEvent 3 (zeroised cause true true s)).side.key = (zeroised cause true true s).side.key := by
      unfold wEvent; dsimp only; split <;> rfl
    simp only [zeroise_eq, emit_keeps, key]
    simp [zeroised, whenDo, recordZeroisation, wipeSecrets]
  · simp [zeroise_mram, zeroised, whenDo, recordZeroisation, wipeSecrets]
  · simp [zeroise_prot, zeroised, whenDo, recordZeroisation, wipeSecrets]
  · simp only [zeroise_eq, emit_keeps]
    exact bit_wEvent 3 _

/-! ## Scans of the JTAG port (R157, R533) -/

theorem exec_zeroiseAll_unpowered {s : State} (unpowered : s.pins.supplies = false) (ir : Jtag) (dr : Word) (trst ok : Bool) :
    exec (.zeroiseAll ir dr trst ok) s = .next s := by
  show execZeroiseAll ir dr trst ok s = _
  simp [execZeroiseAll, unpowered]

/-- The TAP in reset: its instruction is BYPASS. -/
def tapReset (s : State) : State := { s with pins := { s.pins with tap := { s.pins.tap with ir := .bypass } } }

theorem exec_zeroiseAll_trst {s : State} (powered : s.pins.supplies = true) (ir : Jtag) (dr : Word) (ok : Bool) :
    exec (.zeroiseAll ir dr true ok) s = .next (tapReset s) := by
  show execZeroiseAll ir dr true ok s = _
  simp [execZeroiseAll, powered, tapReset]

theorem exec_zeroiseAll_scan {ir : Jtag} {dr : Word} {s : State} (powered : s.pins.supplies = true)
    (other : ir ≠ .zeroiseAll ∨ dr ≠ 0xA55AC3C3 ∨ s.md.mode ≠ .stage) (ok : Bool) :
    exec (.zeroiseAll ir dr false ok) s = .next (tapScan ir dr s) := by
  have idle : (decide (ir = .zeroiseAll) && decide (dr = 0xA55AC3C3) && decide (s.md.mode = .stage)) = false := by
    simpa only [Bool.and_eq_false_iff, decide_eq_false_iff_not, or_assoc] using other
  show execZeroiseAll ir dr false ok s = _
  simp only [execZeroiseAll, powered, idle, whenDo, Bool.not_true, Bool.false_eq_true, if_false]

theorem exec_zeroiseAll_wipes {s : State} (powered : s.pins.supplies = true) (stage : s.md.mode = .stage) :
    exec (.zeroiseAll .zeroiseAll 0xA55AC3C3 false true) s =
      .next (openDebug true true (zeroise 3 true true (tapScan .zeroiseAll 0xA55AC3C3 s))) := by
  show execZeroiseAll .zeroiseAll 0xA55AC3C3 false true s = _
  simp only [execZeroiseAll, powered, stage, whenDo, decide_true, Bool.and_self, Bool.not_true, Bool.false_eq_true, if_false,
    if_true]

/-- What a scan leaves in the TAP. -/
theorem tapScan_pins (ir : Jtag) (dr : Word) (s : State) : (tapScan ir dr s).pins = { s.pins with tap :=
    { ir := ir, tdo := tapOut (jtagActs s ir) dr s,
      boundary := if jtagActs s ir = .sample ∨ jtagActs s ir = .extest then dr.toNat else s.pins.tap.boundary } } := by
  unfold tapScan
  dsimp only
  split <;> simp

theorem changesOnly_tapScan (ir : Jtag) (dr : Word) (s : State) :
    changesOnly [.pins, .service, .freeCount] s (tapScan ir dr s) :=
  changesOnly_of fun p => by cases p <;> simp [Part.same]

/-- Only INT_SCAN, while it is open, shifts chains. -/
theorem tapScan_svc {ir : Jtag} {s : State} (closed : ir ≠ .intScan ∨ s.prot.scanActive = false) (dr : Word) :
    (tapScan ir dr s).svc = s.svc := by
  have still : jtagActs s ir ≠ .intScan := by
    cases ir <;> simp_all [jtagActs]
    split <;> simp
  simp [tapScan, still]

/-! ## FAULT_ACK (R63, R526) -/

theorem exec_faultAck {s : State} (opened : hostOpen s = true) (free : regionLocked s (R.mrmFaultAck / 0x10000) = false)
    (w : Word) : exec (.faultAck w) s = .next (faultAck w s) := by
  have served : shutUnit s R.mrmFaultAck = none := rfl
  show execFaultAck w s = _
  rw [execFaultAck, pf0Write_taken _ opened free served]

/-- Settles O22: each provisioning is `provisionInto` its slot; ZEROISE_ALL is a scan and, under its word in STAGE, `zeroise`
after it. That provisioning keeps LAST_RESULT (log entry 18), what becomes of a pending change (143), the TAP's row (165) and the
last 32 bits of a scan (177), a record that MRAM cannot take (17) and FAULT_NEW (108) are the model's choice. -/
theorem keysAndZeroisation : Obligations.KeysAndZeroisation := by
  unfold Obligations.KeysAndZeroisation
  refine ⟨fun s => ⟨fun opened => ?_, fun opened => ?_⟩, ?_, ?_, ?_, ?_⟩
  · have run := exec_provisionOpKey opened
    rw [provisionOpKey_eq] at run
    obtain ⟨taken, full, blocked⟩ := provision_cases run
    exact ⟨fun unblocked empty => ⟨_, _, taken unblocked empty, rfl, rfl, rfl,
      changesOnly_of fun p => by cases p <;> simp [Part.same]⟩, full, blocked⟩
  · have run := exec_provision opened
    rw [provisionWdKey_eq] at run
    obtain ⟨taken, full, blocked⟩ := provision_cases run
    exact ⟨fun unblocked empty => ⟨_, _, taken unblocked empty, rfl, rfl, rfl,
      changesOnly_of fun p => by cases p <;> simp [Part.same]⟩, full, blocked⟩
  · intro s stage canon powered
    rw [exec_zeroiseAll_wipes powered stage]
    let u := tapScan .zeroiseAll 0xA55AC3C3 s
    have prot : u.prot = s.prot := by simp [u]
    have mram : u.mram = s.mram := by simp [u]
    obtain ⟨ko, kw⟩ := zeroise_keys 3 true true u
    obtain ⟨nonce, pending, vaultKo, vaultKw, key, count, committed, told⟩ := zeroise_erased 3 u
    have keys := zeroise_prtKey 3 true true ((regsCanonical_congr (t := u) (by simp [u])).mpr canon)
    rw [prot] at nonce committed
    rw [mram] at count
    exact ⟨_, rfl, ko, kw, nonce, pending, vaultKo, vaultKw, key, keys, count, rfl, rfl, committed, told,
      changesOnly_of fun p => by cases p <;> simp [Part.same, tapScan_svc]⟩
  · intro ir dr ok s powered
    refine ⟨fun other => ?_, ?_⟩
    · rw [exec_zeroiseAll_scan powered other ok]
      refine ⟨_, rfl, ?_, ?_, fun bypass => ⟨?_, ?_⟩, fun boundary => ?_, fun closed => tapScan_svc closed dr,
        changesOnly_tapScan ir dr s⟩ <;> rw [tapScan_pins]
      · simp [bypass, tapOut]
      · simp [bypass]
      · simp [boundary]
    · rw [exec_zeroiseAll_trst powered]
      exact ⟨_, rfl, rfl, changesOnly_of fun p => by cases p <;> simp [Part.same, tapReset]⟩
  · intro ir dr trst ok s unpowered
    exact ⟨s, exec_zeroiseAll_unpowered unpowered ir dr trst ok, fun p _ => by cases p <;> rfl⟩
  · intro w s opened free
    rw [exec_faultAck opened free]
    refine ⟨fun ack => ?_, fun noAck => ?_⟩
    · rw [faultAck, whenDo, if_pos ack]
      exact ⟨_, rfl, rfl, changesOnly_of fun p => by cases p <;> simp [Part.same]⟩
    · rw [faultAck, whenDo, if_neg (by simp [noAck])]
      exact ⟨s, rfl, fun p _ => by cases p <;> rfl⟩

end Sys2Proof.Proofs
end

section
/-! PROOFS. What the shared operations leave of a port (R209 to R211, R402, R432): those that count, free, judge and send change of
the links no more than the lanes, or of a port no more than its credit and the pause frames due. -/

namespace Sys2Proof.Proofs

open Sys2Proof Sys2Proof.Machine Sys2Proof.Safety Sys2Proof.Laws

/-! ## Ports read from the links -/

theorem port_congr {s t : State} (h : t.lk = s.lk) (p : Nat) : port t p = port s p := by rw [port, port, h]

@[simp] theorem port_reach (T : Nat) (s : State) (p : Nat) : port (reach T s) p = port s p := port_congr (by simp) p

@[simp] theorem port_countMac (q n k : Nat) (s : State) (p : Nat) : port (countMac q n k s) p = port s p := port_congr (by simp) p

@[simp] theorem port_stickRg (off i : Nat) (s : State) (p : Nat) : port (stickRg off i s) p = port s p := port_congr (by simp) p

theorem changesOnly_modPort (p : Nat) (f : Port → Port) (s : State) : changesOnly [.links] s (modPort p f s) :=
  changesOnly_of fun q => by cases q <;> simp [Part.same]

/-! ## Operations on the lanes alone -/

/-- Of the links no more than the lanes changes. -/
def lanesOnly (s t : State) : Prop := t.lk = { s.lk with lanes := t.lk.lanes }

theorem lanesOnly_refl (s : State) : lanesOnly s s := rfl

theorem lanesOnly_of_lk {s t : State} (h : t.lk = s.lk) : lanesOnly s t := by rw [lanesOnly, h]

theorem lanesOnly_trans (s t u : State) (h : lanesOnly s t) (k : lanesOnly t u) : lanesOnly s u := by
  rw [lanesOnly, k, h]

theorem port_of_lanesOnly {s t : State} (h : lanesOnly s t) (p : Nat) : port t p = port s p := by rw [port, h]; rfl

theorem quad_of_lanesOnly {s t : State} (h : lanesOnly s t) (q : Nat) : quad t q = quad s q := by rw [quad, h]; rfl

theorem lanesOnly_laneSends (ln : Nat) (xs : List Sym) (s : State) : lanesOnly s (laneSends ln xs s) := rfl

theorem lanesOnly_columnsOut (lanes : List Nat) (cols : List (List Sym)) (s : State) :
    lanesOnly s (columnsOut lanes cols s) :=
  forAll_rel (R := lanesOnly) lanesOnly_refl lanesOnly_trans
    (fun (c : Nat × Nat) s => lanesOnly_laneSends c.1 (cols.map fun col => nth symCom col c.2) s) _ s

theorem lanesOnly_codeErrors (ln n : Nat) (s : State) : lanesOnly s (codeErrors ln n s) := by
  unfold codeErrors
  split
  · exact lanesOnly_refl s
  · simp only [lanesOnly, addRg_keeps]; rfl

/-- The lanes' counts of a reception leave the ports, the quads and what waits at the slices. -/
theorem lanesOnly_laneCounts (p : Nat) (f : RxFrame) (s : State) : lanesOnly s (laneCounts p f s) := by
  have coded (s : State) := lanesOnly_trans _ _ _
    (forAll_rel (R := lanesOnly) lanesOnly_refl lanesOnly_trans
      (f := fun (x : Nat × List Nat) s =>
        let r := groupErrors (4 * (p / 4) + x.1 % 4) x.2 s
        codeErrors (4 * (p / 4) + x.1 % 4) r.1 r.2)
      (fun x s => lanesOnly_trans _ (groupErrors (4 * (p / 4) + x.1 % 4) x.2 s).2 _ rfl (lanesOnly_codeErrors _ _ _)) f.groups s)
    (forAll_rel (R := lanesOnly) lanesOnly_refl lanesOnly_trans
      (fun (x : Nat × Nat) s => lanesOnly_codeErrors (4 * (p / 4) + x.1 % 4) x.2 s) f.laneErrors _)
  unfold laneCounts
  dsimp only
  split
  · exact lanesOnly_trans _ _ _ (coded s) (lanesOnly_of_lk (by simp))
  · exact coded s

/-- What a port notes of the bytes it has put on its medium. -/
theorem port_sentOn (p cls : Nat) (bs : List Byte) (eef : Bool) (s : State) :
    port (sentOn p cls bs eef s) p = { port s p with
      lastSent := bs, lastLanes := (port (sentOn p cls bs eef s) p).lastLanes, tsOut := (port (sentOn p cls bs eef s) p).tsOut } := by
  unfold sentOn whenDo
  dsimp only
  split
  · rw [port_of_lanesOnly (lanesOnly_columnsOut _ _ _), port_modPort]
  · rw [port_modPort]

/-! ## Operations on a port's credit and due pause frames alone -/

/-- A port without its credit and the pause frames that are due. -/
def restOf (x : Port) : Port := { x with ts := {}, dueXoff := 0, dueXon := 0 }

/-- The same of each port of the links. -/
def restIn (l : Links) (p : Nat) : Port := restOf (kvGetD {} p l.ports)

theorem restOf_port (s : State) (p : Nat) : restOf (port s p) = restIn s.lk p := rfl

theorem restIn_modPort {p : Nat} {f : Port → Port} {s : State} (same : ∀ x, restOf (f x) = restOf x) :
    restIn (modPort p f s).lk = restIn s.lk := by
  funext q
  rw [← restOf_port, ← restOf_port]
  by_cases e : q = p
  · rw [e, port_modPort, same]
  · rw [port_modPort_ne e]

theorem restIn_forAll {α : Type} {f : α → State → State} (same : ∀ a s, restIn (f a s).lk = restIn s.lk) (l : List α)
    (s : State) : restIn (forAll f l s).lk = restIn s.lk :=
  forAll_rel (R := fun s t => restIn t.lk = restIn s.lk) (fun _ => rfl) (fun _ _ _ h k => k.trans h) same l s

@[simp] theorem restIn_pauseDue (p mask : Nat) (xoff : Bool) (s : State) : restIn (pauseDue p mask xoff s).lk = restIn s.lk :=
  restIn_modPort fun x => by split <;> rfl

@[simp] theorem restIn_portPauseAll (on : Bool) (p : Nat) (s : State) : restIn (portPauseAll on p s).lk = restIn s.lk := by
  unfold portPauseAll
  dsimp only
  split
  · split <;> simp
  · rfl

@[simp] theorem restIn_watermark (p prio : Nat) (xoff any : Bool) (s : State) :
    restIn (watermark p prio xoff any s).lk = restIn s.lk := by
  unfold watermark
  split
  · rfl
  · split
    · split <;> simp
    · simp
    · rfl

@[simp] theorem restIn_resendXoff (p : Nat) (s : State) : restIn (resendXoff p s).lk = restIn s.lk :=
  restIn_forAll (fun prio s => by rw [whenDo_lk]; split <;> simp) _ s

@[simp] theorem restIn_tsReleaseReturns (p c : Nat) (s : State) : restIn (tsReleaseReturns p c s).lk = restIn s.lk :=
  restIn_modPort fun _ => rfl

@[simp] theorem restIn_judgePair (i : Nat) (s : State) : restIn (judgePair i s).lk = restIn s.lk := by
  unfold judgePair
  dsimp only
  split
  · rfl
  · split
    · simp
    · split
      · rw [whenDo_lk]; split <;> simp
      · simp

@[simp] theorem restIn_judgePressure (s : State) : restIn (judgePressure s).lk = restIn s.lk := by
  have judged (new : Bool) : restIn (if new = s.buf.pressure then s
      else forAll judgePair allPairs { s with buf := { s.buf with pressure := new } }).lk = restIn s.lk := by
    split
    · rfl
    · exact restIn_forAll restIn_judgePair _ _
  unfold judgePressure
  exact judged _

@[simp] theorem restIn_dropFrame (f : Nat) (s : State) : restIn (dropFrame f s).lk = restIn s.lk := by
  unfold dropFrame releasePair
  split
  · rfl
  · dsimp only
    split <;> simp

@[simp] theorem restIn_clearHolder (f p : Nat) (s : State) : restIn (clearHolder f p s).lk = restIn s.lk := by
  unfold clearHolder
  split
  · rfl
  · dsimp only
    split <;> simp

@[simp] theorem restIn_freeHolder (f p : Nat) (s : State) : restIn (freeHolder f p s).lk = restIn s.lk := by
  unfold freeHolder presentFree
  (repeat' split) <;> simp

@[simp] theorem restIn_finishCopy (c : Copy) (how : CopyEnd) (s : State) : restIn (finishCopy c how s).lk = restIn s.lk := by
  unfold finishCopy
  split
  · simp
  · simp only [restIn_freeHolder, apply_ite State.lk, settle_keeps, setFrame_keeps, ite_self]

@[simp] theorem restIn_discardCopy (c : Copy) (reason : Nat) (s : State) : restIn (discardCopy c reason s).lk = restIn s.lk := by
  unfold discardCopy
  split <;> simp

@[simp] theorem restIn_flushPort (p reason : Nat) (s : State) : restIn (flushPort p reason s).lk = restIn s.lk := by
  unfold flushPort
  rw [restIn_forAll (restIn_discardCopy · reason)]
  simp

/-! ## Flushed queues (R222, R432) -/

/-- A discarded copy leaves its queue, and no other copy leaves or joins one. -/
theorem mem_queue_discardCopy (c d : Copy) (reason p q : Nat) (s : State) :
    d ∈ (queue (discardCopy c reason s) p q).copies ↔
      d ∈ (queue s p q).copies ∧ ¬(d = c ∧ 8 * c.port + c.queue = 8 * p + q) := by
  have removed : queue (discardCopy c reason s) p q = queue (removeCopy c s) p q := by
    have egress : (discardCopy c reason s).eg = (removeCopy c s).eg := by
      unfold discardCopy
      split <;> simp
    rw [queue, queue, egress]
  rw [removed, removeCopy]
  by_cases here : 8 * c.port + c.queue = 8 * p + q
  · have same : queue s c.port c.queue = queue s p q := by rw [queue, queue, here]
    have written (x : Queue) (s : State) : queue (setQueue c.port c.queue x s) p q = x := by simp [queue, setQueue, here]
    rw [written, copies_tidy, same]
    simp [here]
  · rw [queue_setQueue_ne (Ne.symm here)]
    simp [here]

theorem mem_queue_discards {d : Copy} {reason p q : Nat} : ∀ (l : List Copy) {s : State},
    d ∈ (queue (forAll (fun c s => discardCopy c reason s) l s) p q).copies →
      d ∈ (queue s p q).copies ∧ ∀ c ∈ l, ¬(d = c ∧ 8 * c.port + c.queue = 8 * p + q)
  | [], _, h => ⟨h, by simp⟩
  | c :: l, s, h => by
    obtain ⟨kept, later⟩ := mem_queue_discards l h
    obtain ⟨member, other⟩ := (mem_queue_discardCopy c d reason p q s).mp kept
    exact ⟨member, List.forall_mem_cons.mpr ⟨other, later⟩⟩

/-- A flush leaves no copy in a queue of the port whose copies are its own. -/
theorem flushPort_empties {p : Nat} (reason : Nat) {s : State} {q : Nat} (below : q < 8)
    (own : ∀ c ∈ (queue s p q).copies, c.port = p ∧ c.queue = q) : (queue (flushPort p reason s) p q).copies = [] := by
  refine List.eq_nil_iff_forall_not_mem.mpr fun d h => ?_
  obtain ⟨member, gone⟩ := mem_queue_discards _ h
  obtain ⟨atPort, atQueue⟩ := own d member
  exact gone d (List.mem_flatMap.mpr ⟨q, List.mem_range.mpr below, member⟩) ⟨rfl, by rw [atPort, atQueue]⟩

theorem holding_flushPort (p reason : Nat) (s : State) : (port (flushPort p reason s) p).holding = (port s p).holding := by
  have rest : restOf (port (flushPort p reason s) p) = restOf (port s p) := by rw [restOf_port, restOf_port, restIn_flushPort]
  simpa [restOf] using congrArg Port.holding rest

end Sys2Proof.Proofs
end

section
/-! PROOFS. The timers of a port's link (R199, R220 to R223): UP_HOLDOFF, LINK_HOLD and FLUSH. -/

namespace Sys2Proof.Proofs

open Sys2Proof Sys2Proof.Machine Sys2Proof.Safety Sys2Proof.Laws

/-! ## The bit HOLD_EXPIRED (R223)

The statement holds of any port number and any stored registers, so a store of the bit must not meet a register whose reset value has
it: such a store would only take an entry from a list that may hold the key twice. The register map shows that none does. -/

/-- Every field of a register reads 0 at reset. -/
def resetsZero (r : RegRow) : Bool := r.fields.all fun f => f.reset == .lit 0

/-- The distance at which the registers of a block that may be compared with a MAC_EVT repeat. -/
def evtStep (b : RegBlock) : Nat := min 0x400 b.stride

/-- A block has no word that lies as a MAC_EVT does, 0x2C beyond a multiple of 0x400, and whose bit 2 is 1 at reset. -/
def bit2Clear (b : RegBlock) : Bool :=
  0x400 % evtStep b == 0 && b.base % evtStep b == 0 && b.stride % evtStep b == 0 && decide (0x2C < evtStep b) &&
    b.rows.all fun r => resetsZero r ||
      (List.range (b.stride / evtStep b)).all fun j => (findRow (evtStep b * j + 0x2C) [r]).all fun x =>
        !bit 2 (if x.2.2 then (RegHit.resetVal ⟨b.blk, 0, x.1, x.2.1, x.2.2, 0⟩) >>> 32
          else (RegHit.resetVal ⟨b.blk, 0, x.1, x.2.1, x.2.2, 0⟩) % 2 ^ 32)

theorem regBlocks_bit2Clear : regBlocks.all bit2Clear = true := by decide +kernel

theorem resetVal_of_resetsZero {h : RegHit} (zero : resetsZero h.row = true) : h.resetVal = 0 := by
  have folded : ∀ l : List RegField, (l.all fun f => f.reset == .lit 0) = true →
      l.foldl (fun a f => a ||| (f.reset.val h.inst h.idx) <<< f.lo) 0 = 0 := by
    intro l
    induction l with
    | nil => exact fun _ => rfl
    | cons f l ih =>
      intro zero
      simp only [List.all_cons, Bool.and_eq_true, beq_iff_eq] at zero
      obtain ⟨first, rest⟩ := zero
      simpa [first, Reset.val] using ih rest
  exact folded _ zero

/-- The row that an offset names is one of the block, and the offset names it there alone too. -/
theorem findRow_alone {rel : Nat} {x : RegRow × Nat × Bool} : ∀ {rows : List RegRow}, findRow rel rows = some x →
    x.1 ∈ rows ∧ findRow rel [x.1] = some x
  | [], h => by simp [findRow] at h
  | r :: rows, h => by
    unfold findRow at h
    dsimp only at h
    split at h
    · next here =>
      cases h
      exact ⟨List.mem_cons_self, by simp only [findRow]; rw [if_pos here]⟩
    · next low =>
      split at h
      · next here =>
        cases h
        exact ⟨List.mem_cons_self, by simp only [findRow]; rw [if_neg low, if_pos here]⟩
      · obtain ⟨member, alone⟩ := findRow_alone h
        exact ⟨List.mem_cons_of_mem _ member, alone⟩

theorem mem_of_findBlock {off : Nat} {b : RegBlock} : ∀ {l : List RegBlock}, findBlock off l = some b →
    b ∈ l ∧ b.base ≤ off
  | [], h => by simp [findBlock] at h
  | c :: l, h => by
    unfold findBlock at h
    split at h
    · next inside =>
      cases h
      exact ⟨List.mem_cons_self, inside.1⟩
    · obtain ⟨member, above⟩ := mem_of_findBlock h
      exact ⟨List.mem_cons_of_mem _ member, above⟩

/-- Where an offset that lies as a MAC_EVT does lies in a block whose registers repeat at `stride`. -/
theorem offset_within {off base stride step : Nat} (lies : off % 0x400 = 0x2C) (above : base ≤ off)
    (divides : 0x400 % step = 0) (based : base % step = 0) (strided : stride % step = 0) (room : 0x2C < step)
    (positive : 0 < stride) :
    ∃ j < stride / step, (off - base) % stride = step * j + 0x2C := by
  have within : (off - base) % stride % step = 0x2C := by
    rw [Nat.mod_mod_of_dvd _ (Nat.dvd_of_mod_eq_zero strided)]
    have offset : off % step = 0x2C := by
      rw [← Nat.mod_mod_of_dvd off (Nat.dvd_of_mod_eq_zero divides), lies, Nat.mod_eq_of_lt room]
    obtain ⟨k, rfl⟩ := Nat.dvd_of_mod_eq_zero based
    rw [Nat.sub_mul_mod above, offset]
  refine ⟨(off - base) % stride / step, ?_, ?_⟩
  · exact Nat.div_lt_div_of_lt_of_dvd (Nat.dvd_of_mod_eq_zero strided) (Nat.mod_lt _ positive)
  · have := Nat.div_add_mod ((off - base) % stride) step
    omega

/-- What a block without such a word gives for a register that an offset names in it. -/
theorem bit2_of_bit2Clear {b : RegBlock} (clear : bit2Clear b = true) {off : Nat} (lies : off % 0x400 = 0x2C)
    (above : b.base ≤ off) {r : RegRow} {k : Nat} {high : Bool}
    (named : findRow ((off - b.base) % b.stride) b.rows = some (r, k, high)) (i low : Nat) :
    bit 2 (if high then (RegHit.resetVal ⟨b.blk, i, r, k, high, low⟩) >>> 32
      else (RegHit.resetVal ⟨b.blk, i, r, k, high, low⟩) % 2 ^ 32) = false := by
  simp only [bit2Clear, Bool.and_eq_true, Bool.or_eq_true, beq_iff_eq, decide_eq_true_eq, List.all_eq_true,
    List.mem_range] at clear
  obtain ⟨⟨⟨⟨divides, based⟩, strided⟩, room⟩, rows⟩ := clear
  have positive : 0 < b.stride := by unfold evtStep at room; omega
  obtain ⟨j, below, rel⟩ := offset_within lies above divides based strided room positive
  obtain ⟨member, alone⟩ := findRow_alone named
  rcases rows r member with zero | offsets
  · rw [resetVal_of_resetsZero zero]
    cases high <;> rfl
  · have found := offsets j below
    rw [← rel, alone] at found
    simp only [Option.all_some, Bool.not_eq_true'] at found
    exact found

/-- At reset bit 2 is 0 in every word that lies as a MAC_EVT does. -/
theorem resetWord_bit2 {off : Nat} (lies : off % 0x400 = 0x2C) : bit 2 (resetWord off) = false := by
  unfold resetWord
  split
  · rfl
  · next hit found =>
    unfold regAt at found
    split at found
    · cases found
    · next b inBlock =>
      obtain ⟨member, above⟩ := mem_of_findBlock inBlock
      dsimp only at found
      split at found
      · cases found
      · next r k high named =>
        split at found
        · cases found
        · cases found
          exact bit2_of_bit2Clear (List.all_eq_true.mp regBlocks_bit2Clear b member) lies above named _ _

/-- HOLD_EXPIRED is set, whatever the stored registers hold. -/
theorem bit_holdExpired (p : Nat) (s : State) : bit 2 (rg (stickRg (R.macEvt p) 2 s) (R.macEvt p)) = true := by
  have clear : bit 2 (resetWord (R.macEvt p % viewSize)) = false :=
    resetWord_bit2 (by simp only [R.macEvt, viewSize]; omega)
  have small : rg s (R.macEvt p) ||| 2 ^ 2 < 2 ^ 32 := Nat.or_lt_two_pow (rg_lt s _) (by decide)
  have set : bit 2 (rg s (R.macEvt p) ||| 2 ^ 2) = true := by rw [bit, Nat.testBit_or, Nat.testBit_two_pow_self, Bool.or_true]
  have listed : BitVec.ofNat 32 (rg s (R.macEvt p) ||| 2 ^ 2) ≠ BitVec.ofNat 32 (resetWord (R.macEvt p % viewSize)) := by
    intro same
    have bits := congrArg (fun w : Word => w.toNat.testBit 2) same
    simp only [BitVec.toNat_ofNat, Nat.testBit_mod_two_pow] at bits
    unfold bit at set clear
    rw [set, clear] at bits
    exact absurd bits (by decide)
  have word : rg (stickRg (R.macEvt p) 2 s) (R.macEvt p) = rg s (R.macEvt p) ||| 2 ^ 2 := by
    rw [stickRg, rg, setRg, regWord, regStore, kvSet, if_neg listed, kvGetD_kvPut, BitVec.toNat_ofNat, Nat.mod_eq_of_lt small]
  rw [word, set]

/-! ## A port goes up (R199) -/

theorem exec_upHoldoffExpiry {p t0 : Nat} {s : State} (good : (port s p).goodSince = some t0) (down : (port s p).up = false)
    (wanted : portWanted s p = true) :
    exec (.upHoldoffExpiry p) s = .next (portUp p (reach (t0 + msT (cuF s (R.macLinkCfg p) 23 16)) s)) := by
  show execUpHoldoffExpiry p s = _
  simp [execUpHoldoffExpiry, good, whenDo, down, wanted]

/-- Verification begun anew leaves a port up or down, and holding or not. -/
theorem port_startVerify (p : Nat) (s : State) :
    (port (startVerify p s) p).up = (port s p).up ∧ (port (startVerify p s) p).holding = (port s p).holding := by
  rw [startVerify, port_modPort]
  split <;> exact ⟨rfl, rfl⟩

theorem port_portUp (p : Nat) (s : State) : (port (portUp p s) p).up = true ∧ (port (portUp p s) p).holding = false := by
  unfold portUp
  dsimp only
  generalize link : noteHops s _ = s1
  have raised : (port s1 p).up = true ∧ (port s1 p).holding = false := by
    subst link
    simp [port, modPort, setPort]
  generalize sent : startVerify p _ = s3
  have begun : (port s3 p).up = true ∧ (port s3 p).holding = false := by
    subst sent
    obtain ⟨up, holding⟩ := port_startVerify p (whenDo (port s p).holding (stickRg (R.macEvt p) 3)
      (stickRg (R.macEvt p) 0 (emitLink 0 p 0 (port s1 p).ts.width s1)))
    rw [up, holding, port_congr (s := s1) (by simp [whenDo_lk])]
    exact raised
  have rest (t : State) (same : restIn t.lk = restIn s3.lk) : (port t p).up = true ∧ (port t p).holding = false := by
    have ports : restOf (port t p) = restOf (port s3 p) := by rw [restOf_port, restOf_port, same]
    exact ⟨(congrArg Port.up ports :).trans begun.1, (congrArg Port.holding ports :).trans begun.2⟩
  split
  · exact rest _ (restIn_portPauseAll true p s3)
  · exact rest _ (restIn_resendXoff p s3)

/-- An event at a time of the counter's range is not met before it. -/
theorem reach_at_least {T : Nat} {s : State} (run : s.tim.stopped = false) (inRange : T < Config.timeMod) :
    T ≤ (reach T s).now := by
  by_cases past : T ≤ s.now
  · rw [reach_past T s past]; exact past
  · exact Nat.le_of_eq (reach_now T s run (by omega) inRange).symm

/-! ## A hold ends (R222, R223) -/

/-- The state of a port whose held copies are flushed. -/
def heldFlushed (p : Nat) (s : State) : State := flushPort p 0x12 (modPort p (fun x => { x with holding := false }) s)

theorem exec_linkHoldExpiry {p : Nat} {s : State} (holding : (port s p).holding = true) (down : (port s p).up = false) :
    exec (.linkHoldExpiry p) s = .next (stickRg (R.macEvt p) 2
      (heldFlushed p (reach (msT (ceilDiv ((port s p).holdFrom + msT (cuF s (R.macLinkCfg p) 10 0)) (msT 1))) s))) := by
  show execLinkHoldExpiry p s = _
  simp [execLinkHoldExpiry, whenDo, holding, down, heldFlushed]

theorem exec_flush {p : Nat} {s : State} (below : p < 256) (opened : pf0Open (R.macCmd p) s) :
    exec (.flush p) s = .next (whenDo (portPresent s p) (flushHeld p) s) := by
  obtain ⟨host, free, served⟩ := opened
  show execFlush p s = _
  rw [execFlush, macCmdWrite, if_pos below, pf0Write_taken _ host free served]

theorem holding_heldFlushed (p : Nat) (s : State) : (port (heldFlushed p s) p).holding = false := by
  rw [heldFlushed, holding_flushPort, port_modPort]

theorem heldFlushed_empties {p q : Nat} {s : State} (below : q < 8)
    (own : ∀ c ∈ (queue s p q).copies, c.port = p ∧ c.queue = q) : (queue (heldFlushed p s) p q).copies = [] :=
  flushPort_empties 0x12 below own

theorem changesOnly_heldFlushed (p : Nat) (s : State) :
    changesOnly [.host, .accounts, .links, .buffer, .egress, .recorder, .counters, .registers, .hostMemory] s (heldFlushed p s) :=
  changesOnly_of fun q => by cases q <;> simp [Part.same, heldFlushed]

/-- The first 1 ms tick at or after a time. -/
theorem firstTick_eq {due n : Nat} (reached : due ≤ msT n) (first : ∀ m, due ≤ msT m → n ≤ m) : ceilDiv due (msT 1) = n := by
  have tick (m : Nat) : msT m = m * msT 1 := by unfold msT nsT; rw [Nat.one_mul, Nat.mul_assoc]
  have positive : 0 < msT 1 := by decide
  have least (m : Nat) : due ≤ msT m ↔ ceilDiv due (msT 1) ≤ m := by
    rw [tick, ceilDiv, ← Nat.lt_succ_iff (n := m), Nat.div_lt_iff_lt_mul positive, Nat.succ_mul]
    omega
  exact Nat.le_antisymm ((least n).mp reached) (first _ ((least _).mpr (Nat.le_refl _)))

/-! ## The statement on the link's timers -/

/-- Settles O30: a port that goes up takes its pause frames due and its verification besides, a flush takes every copy of
the port from its queues, and the time of a hold's end is the first tick that is late enough. -/
theorem linkTimers : Obligations.LinkTimers := by
  unfold Obligations.LinkTimers
  refine ⟨?_, ?_, ?_⟩
  · intro p t0 s good down wanted
    obtain ⟨up, held⟩ := port_portUp p (reach (t0 + msT (cuF s (R.macLinkCfg p) 23 16)) s)
    refine ⟨_, exec_upHoldoffExpiry good down wanted, up, held, fun run inRange => ?_, changesOnly_of fun q => ?_⟩
    · simpa using reach_at_least run inRange
    · cases q <;> simp [Part.same]
  · intro p s holding own
    refine ⟨fun down => ?_, fun below present opened => ?_⟩
    · refine ⟨_, exec_linkHoldExpiry holding down, ?_, fun q below => ?_, bit_holdExpired p _, ?_, changesOnly_of fun q => ?_⟩
      · rw [port_stickRg, holding_heldFlushed]
      · simpa [queue] using heldFlushed_empties below (by simpa [queue] using own q)
      · intro n reached first run ahead inRange
        rw [firstTick_eq reached first]
        simpa [heldFlushed] using reach_now (msT n) s run ahead inRange
      · cases q <;> simp [Part.same, heldFlushed]
    · have flushed : exec (.flush p) s = .next (heldFlushed p s) := by
        rw [exec_flush below opened, whenDo, if_pos present, flushHeld, whenDo, if_pos holding, heldFlushed]
      exact ⟨_, flushed, holding_heldFlushed p s, fun q small => heldFlushed_empties small (own q), changesOnly_heldFlushed p s⟩
  · intro p s idle below opened
    refine ⟨s, ?_, fun q _ => by cases q <;> rfl⟩
    rw [exec_flush below opened, whenDo, flushHeld, whenDo, idle]
    simp

end Sys2Proof.Proofs
end

section
/-! PROOFS. Pause holds, pause frames and preemption verification (R209 to R217). -/

namespace Sys2Proof.Proofs

open Sys2Proof Sys2Proof.Machine Sys2Proof.Safety Sys2Proof.Laws

/-! ## Time passes and the registers stay canonical -/

theorem regsCanonical_pmuAdd (u k n : Nat) {s : State} (h : RegsCanonical s) : RegsCanonical (pmuAdd u k n s) := by
  unfold pmuAdd
  split
  · exact h
  · exact regsCanonical_whenDo (fun _ => regsCanonical_stickRg _ _) _ h

theorem regsCanonical_reach (T : Nat) {s : State} (h : RegsCanonical s) : RegsCanonical (reach T s) := by
  unfold reach
  split
  · exact h
  · exact forAll_rel (R := fun s t => RegsCanonical s → RegsCanonical t) (fun _ h => h) (fun _ _ _ h k c => k (h c))
      (fun _ _ => regsCanonical_pmuAdd _ _ _) _ s h

/-! ## Pause holds and pause frames (R210, R211) -/

theorem exec_pauseHoldExpiry {p prio t0 : Nat} {s : State} (held : kvGet prio (port s p).pausedTill = some t0) :
    exec (.pauseHoldExpiry p prio) s =
      .next (modPort p (fun x => { x with pausedTill := kvDel prio x.pausedTill }) (reach t0 s)) := by
  show execPauseHoldExpiry p prio s = _
  simp [execPauseHoldExpiry, held]

theorem exec_pauseFrameTransmit {p : Nat} {s : State} (up : (port s p).up = true)
    (due : (port s p).dueXoff ≠ 0 ∨ (port s p).dueXon ≠ 0) (free : (port s p).sending = none)
    (clear : overdue (mediumFree p s) p = none) :
    exec (.pauseFrameTransmit p) s = .next (sendPause p (mediumFree p s)) := by
  have waits : pauseWaits s p = true := by simpa [pauseWaits] using due
  show execPauseFrameTransmit p s = _
  simp [execPauseFrameTransmit, whenDo, up, waits, free, startPause, clear]

theorem port_countSent (p : Nat) (bs : List Byte) (s : State) (q : Nat) : port (countSent p bs s) q = port s q :=
  port_congr (by simp) q

@[simp] theorem port_mediumFree (p : Nat) (s : State) (q : Nat) : port (mediumFree p s) q = port s q := port_reach _ s q

theorem length_toLE : ∀ k n : Nat, (toLE k n).length = k
  | 0, _ => rfl
  | k + 1, n => congrArg (· + 1) (length_toLE k (n / 256))

theorem length_toBE (k n : Nat) : (toBE k n).length = k := by rw [toBE, List.length_reverse, length_toLE]

/-- A pause frame begins with the address of R205. -/
theorem pauseBytes_address (s : State) (p mode mask : Nat) (quanta : Nat → Nat) :
    (pauseBytes s p mode mask quanta).take 6 = toBE 6 0x0180C2000001 := by
  simp only [pauseBytes, List.append_assoc]
  exact List.take_left' (length_toBE 6 _)

/-- What a port keeps of a pause frame that it has sent (R211). -/
theorem port_sendPause (p : Nat) (s : State) :
    (port (sendPause p s) p).dueXoff = 0 ∧ (port (sendPause p s) p).dueXon = 0 ∧
      (port (sendPause p s) p).xoffOut = ((port s p).xoffOut ||| (port s p).dueXoff) &&& (0xFF ^^^ (port s p).dueXon) ∧
      (port (sendPause p s) p).lastSent.take 6 = toBE 6 0x0180C2000001 := by
  unfold sendPause mediumTaken
  dsimp only
  rw [port_modPort, port_countMac, port_countSent, port_sentOn, port_setPort]
  exact ⟨rfl, rfl, rfl, pauseBytes_address _ _ _ _ _⟩

theorem changesOnly_sendPause (p : Nat) (s : State) : changesOnly [.links, .registers] s (sendPause p s) :=
  changesOnly_of fun q => by cases q <;> simp [Part.same]

/-- The priorities that an XOFF of a port names again (R211). -/
def repeatMask (s : State) (p prio : Nat) : Nat := if cuF s (R.macPauseCfg p) 1 0 = 1 then 0xFF else 2 ^ prio

theorem exec_xoffRepeat_draining {p prio t0 : Nat} {s : State} (sent : kvGet prio (port s p).xoffAt = some t0)
    (up : (port s p).up = true) (out : bit prio (port s p).xoffOut = true) (draining : s.md.draining = true) :
    exec (.xoffRepeat p prio) s = .next (pauseDue p (repeatMask s p prio) true
      (reach (t0 + quantaTime s p (xoffQuanta s p) / 2) s)) := by
  show execXoffRepeat p prio s = _
  simp [execXoffRepeat, sent, whenDo, up, out, draining, repeatMask]

theorem bit_repeatMask (s : State) (p : Nat) {prio : Nat} (below : prio < 8) : bit prio (repeatMask s p prio) = true := by
  unfold repeatMask bit
  split
  · rw [show 0xFF = 2 ^ 8 - 1 from rfl, Nat.testBit_two_pow_sub_one]
    exact decide_eq_true below
  · exact Nat.testBit_two_pow_self

theorem dueXoff_pauseDue (p mask : Nat) (s : State) :
    (port (pauseDue p mask true s) p).dueXoff = (port s p).dueXoff ||| mask := by
  rw [pauseDue, port_modPort]; rfl

/-! ## Preemption verification (R216, R217) -/

theorem exec_restartVerify {p : Nat} {s : State} (below : p < 256) (opened : pf0Open (R.macCmd p) s)
    (present : portPresent s p = true) (up : (port s p).up = true) :
    exec (.restartVerify p) s = .next (startVerify p s) := by
  obtain ⟨host, free, served⟩ := opened
  show execRestartVerify p s = _
  rw [execRestartVerify, macCmdWrite, if_pos below, pf0Write_taken _ host free served, whenDo, if_pos present, restartVerify,
    whenDo, if_pos up]

theorem changesOnly_startVerify (p : Nat) (s : State) : changesOnly [.links] s (startVerify p s) := changesOnly_modPort p _ s

theorem port_startVerify_begun {p : Nat} {s : State} (enabled : bit 1 (cu s (R.macPreemptCfg p)) = true)
    (may : modePreempts (portMode s p) = true) :
    port (startVerify p s) p = { port s p with verify := 1, tries := 0, verifyAt := some s.now } := by
  rw [startVerify, port_modPort]; simp [enabled, may]

theorem port_startVerify_off {p : Nat} {s : State}
    (off : bit 1 (cu s (R.macPreemptCfg p)) = false ∨ modePreempts (portMode s p) = false) :
    port (startVerify p s) p = { port s p with verify := 0, tries := 0, verifyAt := none } := by
  rw [startVerify, port_modPort]
  rcases off with off | off <;> simp [off]

section
variable {p t0 : Nat} {s : State} (due : (port s p).verifyAt = some t0) (up : (port s p).up = true)
  (running : (port s p).verify = 1 ∨ (port s p).verify = 2)
include due up running

theorem exec_verifyTimer_sends (left : (port s p).tries < 3) :
    exec (.verifyTimer p) s = .next (modPort p (fun x => { x with
      verify := 2, attempts := x.attempts + 1, tries := x.tries + 1,
      verifyAt := some ((reach t0 s).now + msT (cuF s (R.macPreemptCfg p) 15 8)) }) (reach t0 s)) := by
  show execVerifyTimer p s = _
  rcases running with running | running <;> simp [execVerifyTimer, due, whenDo, up, running, left]

theorem exec_verifyTimer_fails (spent : 3 ≤ (port s p).tries) :
    exec (.verifyTimer p) s =
      .next (stickRg (R.macEvt p) 4 (modPort p (fun x => { x with verify := 4, verifyAt := none }) (reach t0 s))) := by
  show execVerifyTimer p s = _
  rcases running with running | running <;> simp [execVerifyTimer, due, whenDo, up, running, Nat.not_lt.mpr spent]

end

theorem exec_verifyMpacketReceive {p : Nat} {s : State} (up : (port s p).up = true) (respond : Bool) :
    exec (.verifyMpacketReceive p respond) s = .next (modPort p (fun x =>
      if respond then (if x.verify = 2 then { x with verify := 3, verifyAt := none } else x)
      else { x with responded := x.responded + 1 }) s) := by
  show execVerifyMpacketReceive p respond s = _
  rw [execVerifyMpacketReceive, whenDo, if_pos up]

/-! ## The statement on pause and verification -/

/-- Settles O29: each row is one change of its port, after the time at which it is due has come. -/
theorem pauseAndVerification : Obligations.PauseAndVerification := by
  unfold Obligations.PauseAndVerification
  refine ⟨⟨?_, ?_, ?_⟩, ?_, ?_, ?_⟩
  · intro p prio t0 s sorted held
    have left (k : Nat) : kvGet k (kvDel prio (port s p).pausedTill) =
        if k = prio then none else kvGet k (port s p).pausedTill := kvGet_kvDel prio k _ 0 sorted
    refine ⟨_, exec_pauseHoldExpiry held, ?_, fun k other => ?_, changesOnly_modPort p _ _⟩
    · simp [left]
    · simp [left, other]
  · intro p s up due free clear
    obtain ⟨xoff, xon, out, address⟩ := port_sendPause p (mediumFree p s)
    rw [port_mediumFree] at out
    exact ⟨_, exec_pauseFrameTransmit up due free clear, xoff, xon, out, address, changesOnly_sendPause p _⟩
  · intro p prio t0 s below sent up out draining
    refine ⟨_, exec_xoffRepeat_draining sent up out draining, ?_, changesOnly_modPort p _ _⟩
    have named := bit_repeatMask s p below
    unfold bit at named ⊢
    rw [dueXoff_pauseDue, Nat.testBit_or, named, Bool.or_true]
  · intro p s below opened present up
    have restarts := exec_restartVerify below opened present up
    exact ⟨fun on => ⟨_, restarts, port_startVerify_begun on.1 on.2, changesOnly_startVerify p s⟩,
      fun off => ⟨_, restarts, port_startVerify_off off, changesOnly_startVerify p s⟩⟩
  · intro p t0 u s canon due up running reached
    subst reached
    refine ⟨fun left => ⟨_, exec_verifyTimer_sends due up running left, by simp, changesOnly_modPort p _ _⟩, fun spent => ?_⟩
    have later : RegsCanonical (modPort p (fun x => { x with verify := 4, verifyAt := none }) (reach t0 s)) :=
      (regsCanonical_congr (by simp)).mpr (regsCanonical_reach t0 canon)
    refine ⟨_, exec_verifyTimer_fails due up running spent, ?_, ?_, bit_stickRg later (by decide),
      registersBut_stickRg _ _ later, changesOnly_of fun q => ?_⟩
    · simp
    · simp
    · cases q <;> simp [Part.same]
  · intro p s up
    refine ⟨⟨_, exec_verifyMpacketReceive up false, by simp, changesOnly_modPort p _ s⟩,
      fun running => ⟨_, exec_verifyMpacketReceive up true, ?_, changesOnly_modPort p _ s⟩⟩
    simp [running]

end Sys2Proof.Proofs
end

section
/-! PROOFS. Frames received by a MAC (R201 to R206, R210): what is counted, what goes to a slice, what a pause frame does, and that
nothing of it fails a lane of a Tsuip link. -/

namespace Sys2Proof.Proofs

open Sys2Proof Sys2Proof.Machine Sys2Proof.Safety Sys2Proof.Laws

/-! ## Counting leaves the values in use (R122) -/

theorem kvGet_kvDel_below {α : Type} {k j : Nat} (above : k < j) : ∀ l : List (Nat × α), kvGet j (kvDel k l) = kvGet j l
  | [] => rfl
  | (i, w) :: r => by
    unfold kvDel
    split
    · next same => simp [kvGet, show i ≠ j by omega, show ¬j < i by omega]
    · split
      · rfl
      · simp only [kvGet, kvGet_kvDel_below above r]

/-- A store in view 0 leaves the other view, whatever the registers hold. -/
theorem cu_setRg {off : Nat} (low : off < viewSize) (v : Nat) (s : State) (k : Nat) : cu (setRg off v s) k = cu s k := by
  have word : regWord (setRg off v s).regs (k + viewSize) = regWord s.regs (k + viewSize) := by
    unfold setRg regWord regStore kvSet kvGetD
    dsimp only
    split
    · rw [kvGet_kvDel_below (by omega)]
    · rw [kvGet_kvPut_ne _ _ _ (by omega)]
  rw [cu, cu, word]

theorem cu_countMac {p n : Nat} (below : p < 256) (counter : n < 64) (k : Nat) (s : State) (off : Nat) :
    cu (countMac p n k s) off = cu s off := by
  have low : macCtr p n + 4 < viewSize := by unfold macCtr viewSize; omega
  unfold countMac addRg64 setRg64
  rw [cu_setRg low, cu_setRg (by omega)]

/-! ## What the lanes of a link are judged by (R190) -/

/-- All that the judging of a port's lanes reads is as before. -/
structure SameJudged (p : Nat) (s t : State) : Prop where
  lanes : t.lk.lanes = s.lk.lanes
  quads : t.lk.quads = s.lk.quads
  order : (tsOf t p).rxOrder = (tsOf s p).rxOrder
  inUse : (tsOf t p).inUse = (tsOf s p).inUse
  used : ∀ off, cu t off = cu s off
  elapsed : t.elapsed = s.elapsed

theorem SameJudged.trans {p : Nat} {s t u : State} (h : SameJudged p s t) (k : SameJudged p t u) : SameJudged p s u :=
  ⟨k.lanes.trans h.lanes, k.quads.trans h.quads, k.order.trans h.order, k.inUse.trans h.inUse,
    fun off => (k.used off).trans (h.used off), k.elapsed.trans h.elapsed⟩

theorem SameJudged.of_lk {p : Nat} {s t : State} (lk : t.lk = s.lk) (used : ∀ off, cu t off = cu s off)
    (elapsed : t.elapsed = s.elapsed) : SameJudged p s t :=
  ⟨by rw [lk], by rw [lk], by rw [tsOf, tsOf, port_congr lk], by rw [tsOf, tsOf, port_congr lk], used, elapsed⟩

theorem portTsuip_congr {s t : State} (h : t.lk.quads = s.lk.quads) (p : Nat) : portTsuip t p = portTsuip s p := by
  unfold portTsuip portMode quad
  rw [h]

theorem SameJudged.tsLaneFailed {p : Nat} {s t : State} (h : SameJudged p s t) (i : Nat) :
    tsLaneFailed t p i = tsLaneFailed s p i := by
  have phys : tsRxPhys t p i = tsRxPhys s p i := by
    have mapped : rxLane t (p / 4) (p % 4 + i) = rxLane s (p / 4) (p % 4 + i) := by rw [rxLane, rxLane, h.used]
    unfold tsRxPhys
    dsimp only
    rw [h.order, mapped]
  have lanes (ln : Nat) : lane t ln = lane s ln := by rw [lane, lane, h.lanes]
  have limit (off hi lo : Nat) : cuF t off hi lo = cuF s off hi lo := by rw [cuF, cuF, h.used]
  simp only [Machine.tsLaneFailed, phys, lanes, limit, h.inUse, h.elapsed]

theorem tsCfgWidth_le (s : State) (p : Nat) : tsCfgWidth s p ≤ 4 := by
  unfold tsCfgWidth modeLanes
  split <;> decide

/-- A link without a failed lane, or no Tsuip link, is judged and left. -/
theorem tsJudge_sound {p : Nat} {s : State} (sound : portTsuip s p = true → ∀ i < 4, tsLaneFailed s p i = false) :
    tsJudge p s = s := by
  unfold tsJudge
  cases tsuip : portTsuip s p with
  | false => simp
  | true =>
    have noneFailed : (List.range (tsCfgWidth s p)).filter (tsLaneFailed s p) = [] :=
      List.filter_eq_nil_iff.mpr fun i member => by
        have width := tsCfgWidth_le s p
        have below := List.mem_range.mp member
        simp [sound tsuip i (by omega)]
    simp [noneFailed]

/-! ## A reception counted and passed on (R201 to R204) -/

/-- A reception once it has been counted (R204, R225). -/
def rxCounted (p : Nat) (f : RxFrame) (err : Nat) (s : State) : State :=
  let s1 := countMac p 18 f.fragments (countMac p 2 1 (countMac p 0 f.bytes.length s))
  if err ≠ 0 then countMac p (rxErrorCounter f err) 1 s1 else countGood p f.bytes s1

theorem changesOnly_rxCounted (p : Nat) (f : RxFrame) (err : Nat) (s : State) :
    changesOnly [.registers] s (rxCounted p f err s) :=
  changesOnly_of fun q => by
    unfold rxCounted
    dsimp only
    split <;> cases q <;> simp [Part.same]

theorem lk_rxCounted (p : Nat) (f : RxFrame) (err : Nat) (s : State) : (rxCounted p f err s).lk = s.lk :=
  changesOnly_rxCounted p f err s .links (by decide)

theorem rxErrorCounter_lt (f : RxFrame) (err : Nat) : rxErrorCounter f err < 64 := by
  unfold rxErrorCounter
  (repeat' split) <;> decide

theorem cu_countGood {p : Nat} (below : p < 256) (bs : List Byte) (s : State) (off : Nat) :
    cu (countGood p bs s) off = cu s off := by
  have size : 19 + sizeBin bs.length < 64 := by unfold sizeBin; (repeat' split) <;> decide
  have cast : 4 + castOf bs < 64 := by unfold castOf; (repeat' split) <;> decide
  unfold countGood
  rw [cu_countMac below size, cu_countMac below cast, cu_countMac below (by decide)]

theorem sameJudged_rxCounted {p : Nat} (below : p < 256) (f : RxFrame) (err : Nat) (s : State) :
    SameJudged p s (rxCounted p f err s) := by
  refine .of_lk (lk_rxCounted p f err s) (fun off => ?_) (changesOnly_rxCounted p f err s .elapsed (by decide))
  unfold rxCounted
  dsimp only
  split
  · rw [cu_countMac below (rxErrorCounter_lt f err), cu_countMac below (by decide), cu_countMac below (by decide),
      cu_countMac below (by decide)]
  · rw [cu_countGood below, cu_countMac below (by decide), cu_countMac below (by decide), cu_countMac below (by decide)]

/-- What a link's receiver notes of a frame's units is of its credit alone (R183). -/
theorem tsReceive_judged {p : Nat} (below : p < 256) (c units : Nat) (s : State) :
    SameJudged p s (tsReceive p c units s).2 ∧ (tsReceive p c units s).2.lk.ingress = s.lk.ingress := by
  have low : tsReg R.serTsEvt p < viewSize := by unfold tsReg R.serTsEvt viewSize; omega
  unfold tsReceive
  dsimp only
  split
  · refine ⟨⟨?_, ?_, ?_, ?_, fun off => ?used, ?_⟩, ?_⟩
    case used => rw [stickRg, cu_setRg low]; rfl
    all_goals simp [setTs, modPort, setPort, tsOf, port]
  · refine ⟨⟨?_, ?_, ?_, ?_, fun off => rfl, ?_⟩, ?_⟩
    all_goals simp [setTs, modPort, setPort, tsOf, port]

/-- The receiver's credit before a frame goes on: as a Tsuip frame leaves it. -/
def rxCredited (p : Nat) (f : RxFrame) (s : State) : Bool × State :=
  if portTsuip s p then tsReceive p (f.cls % 8) (ceilDiv f.bytes.length 256) s else (false, s)

/-- A frame as its MAC hands it to its slice (R201, R203). -/
def handed (p : Nat) (f : RxFrame) (err ts : Nat) (s : State) : Incoming :=
  { port := p, bytes := f.bytes.take 16000, length := f.bytes.length, ts := ts, tsInvalid := faultAt s f.sfd, err := err,
    prio := f.cls % 8, overrun := (rxCredited p f s).1, meta16 := 0, direct := none, oneStep := false, tsReq := false,
    txRing := none }

theorem passFrame_eq (p : Nat) (f : RxFrame) (err ts : Nat) (s : State) : passFrame p f err ts s =
    countMac p 3 1 (passToSlice (p / 32) (handed p f err ts s) (rxCredited p f s).2) := rfl

theorem lt_of_portTsuip {s : State} {p : Nat} (h : portTsuip s p = true) : p < 256 := by
  simp only [portTsuip, Bool.and_eq_true, decide_eq_true_eq] at h
  exact h.2

theorem ingress_rxCredited (p : Nat) (f : RxFrame) (s : State) : (rxCredited p f s).2.lk.ingress = s.lk.ingress := by
  unfold rxCredited
  split
  · next tsuip => exact (tsReceive_judged (lt_of_portTsuip tsuip) _ _ s).2
  · rfl

/-- The frame stands last in what waits at the slice of its port. -/
theorem ingress_passFrame (p : Nat) (f : RxFrame) (err ts : Nat) (s : State) :
    kvGetD [] (p / 32) (passFrame p f err ts s).lk.ingress = kvGetD [] (p / 32) s.lk.ingress ++ [handed p f err ts s] := by
  rw [passFrame_eq, ← ingress_rxCredited p f s]
  simp [countMac, passToSlice, kvMod]

theorem sameJudged_passFrame {p : Nat} (below : p < 256) (f : RxFrame) (err ts : Nat) (s : State) :
    SameJudged p s (passFrame p f err ts s) := by
  have credited : SameJudged p s (rxCredited p f s).2 := by
    unfold rxCredited
    split
    · exact (tsReceive_judged below _ _ s).1
    · exact .of_lk rfl (fun _ => rfl) rfl
  have passed (x : Incoming) (s : State) : SameJudged p s (passToSlice (p / 32) x s) := ⟨rfl, rfl, rfl, rfl, fun _ => rfl, rfl⟩
  have marked (s : State) : SameJudged p s (countMac p 3 1 s) := .of_lk (by simp) (cu_countMac below (by decide) 1 s) (by simp)
  rw [passFrame_eq]
  exact (credited.trans (passed _ _)).trans (marked _)

/-! ## What the MAC makes of a reception (R203, R205) -/

theorem macReceive_passed {p : Nat} {f : RxFrame} {s : State} {ts err : Nat} (noFence : s.md.fenced = false)
    (stamp : ts = rxStampAt s p f.sfd) (errors : err = rxErrors f (fld 13 0 (cuAt s ts (R.macMaxFrame p))))
    (passed : be16 f.bytes 12 ≠ 0x8808 ∨ err ≠ 0) :
    macReceive p f s = passFrame p f err ts (rxCounted p f err s) := by
  subst stamp errors
  unfold macReceive
  dsimp only
  rw [if_neg (by simp [noFence])]
  split
  · next bad => rw [rxCounted, if_pos bad]
  · next good =>
    have none : rxErrors f (fld 13 0 (cuAt s (rxStampAt s p f.sfd) (R.macMaxFrame p))) = 0 := Decidable.not_not.mp good
    rw [if_neg (passed.resolve_right good), rxCounted, if_neg good, none]

theorem macReceive_paused {p : Nat} {f : RxFrame} {s : State} {ts : Nat} (noFence : s.md.fenced = false)
    (stamp : ts = rxStampAt s p f.sfd) (good : rxErrors f (fld 13 0 (cuAt s ts (R.macMaxFrame p))) = 0)
    (control : be16 f.bytes 12 = 0x8808) (taken : macControl s p f ts = some 1) :
    macReceive p f s = pauseHold p 8 (be16 f.bytes 16) (rxEnds s p f) (countMac p 7 1 (rxCounted p f 0 s)) := by
  subst stamp
  unfold macReceive
  dsimp only
  have clear : ¬rxErrors f (fld 13 0 (cuAt s (rxStampAt s p f.sfd) (R.macMaxFrame p))) ≠ 0 := fun bad => bad good
  rw [if_neg (by simp [noFence]), if_neg clear, if_neg clear, if_pos control, taken]
  rfl

/-! ## A reception that is taken (R206) -/

/-- The state once the last bit of a reception is in and its lanes have been counted. -/
def lastBitIn (p : Nat) (f : RxFrame) (s : State) : State := laneCounts p f (reach (rxEnds s p f) s)

theorem lanesOnly_lastBitIn (p : Nat) (f : RxFrame) (s : State) : lanesOnly s (lastBitIn p f s) :=
  lanesOnly_trans _ _ _ (lanesOnly_of_lk (by simp)) (lanesOnly_laneCounts p f _)

theorem changesOnly_lastBitIn (p : Nat) (f : RxFrame) (s : State) :
    changesOnly [.links, .time, .counters, .registers, .masterTime, .elapsed] s (lastBitIn p f s) :=
  changesOnly_of fun q => by cases q <;> simp [Part.same, lastBitIn]

/-- A reception as the MAC judges it: in error where a lane showed a code error in it (R173, R203). -/
def asJudged (s : State) (p : Nat) (f : RxFrame) : RxFrame := { f with coding := f.coding || receptionErrors s p f }

theorem exec_macFrameReceive_taken {p : Nat} {f : RxFrame} {s : State} (taken : rxTaken s p f = some false)
    (frame : f.bytes ≠ []) :
    exec (.macFrameReceive p f) s = .next (tsJudge p (macReceive p (asJudged s p f) (lastBitIn p f s))) := by
  show execMacFrameReceive p f s = _
  simp [execMacFrameReceive, taken, frame, whenDo, asJudged, lastBitIn]

theorem exec_macFrameReceive_left {p : Nat} {f : RxFrame} {s : State} (left : rxTaken s p f = none) :
    exec (.macFrameReceive p f) s = .next s := by
  show execMacFrameReceive p f s = _
  rw [execMacFrameReceive, left]

/-- A frame passed to its slice fails no lane that had not failed. -/
theorem tsJudge_passed {p : Nat} {u : State} (sound : portTsuip u p = true → ∀ i < 4, tsLaneFailed u p i = false)
    (f : RxFrame) (err ts : Nat) :
    tsJudge p (passFrame p f err ts (rxCounted p f err u)) = passFrame p f err ts (rxCounted p f err u) := by
  refine tsJudge_sound fun tsuip i lane => ?_
  have below := lt_of_portTsuip tsuip
  have same := (sameJudged_rxCounted below f err u).trans (sameJudged_passFrame below f err ts _)
  rw [same.tsLaneFailed]
  exact sound (portTsuip_congr same.quads p ▸ tsuip) i lane

theorem changesOnly_passed (p : Nat) (f : RxFrame) (err ts : Nat) (u : State) :
    changesOnly [.links, .registers] u (passFrame p f err ts (rxCounted p f err u)) :=
  changesOnly_trans (changesOnly_mono (changesOnly_rxCounted p f err u) (by simp))
    (changesOnly_of fun q => by cases q <;> simp [Part.same])

/-! ## A pause frame taken (R205, R210) -/

theorem quantaTime_congr {s t : State} (h : t.lk = s.lk) (p n : Nat) : quantaTime t p n = quantaTime s p n := by
  simp only [quantaTime, bitTime, portRate, portMode, quad, port, h]

theorem macControl_congr {f g : RxFrame} (h : g.bytes = f.bytes) {s : State} {p ts : Nat} :
    macControl s p g ts = macControl s p f ts := by
  unfold macControl
  dsimp only
  rw [h]

theorem macControl_not_tsuip {s : State} {p : Nat} {f : RxFrame} {ts k : Nat} (h : macControl s p f ts = some k) :
    portTsuip s p = false := by
  unfold macControl at h
  dsimp only at h
  split at h
  · next taken => simpa using taken.2.2
  · cases h

/-- The hold of the whole port after a pause frame of some quanta: until they have run out, or none. -/
theorem pausedTill_pauseHold {p : Nat} {s : State} (sorted : kvSorted (port s p).pausedTill = true) (quanta t : Nat) :
    kvGet 8 (port (pauseHold p 8 quanta t s) p).pausedTill =
      if quanta = 0 then none else some (t + quantaTime s p quanta) := by
  rw [pauseHold, port_modPort]
  dsimp only
  split
  · rw [kvGet_kvDel 8 8 _ 0 sorted, if_pos rfl]
  · exact kvGet_kvPut _ _ _

theorem ingress_pauseHold (p prio quanta t : Nat) (s : State) : (pauseHold p prio quanta t s).lk.ingress = s.lk.ingress := rfl

theorem tsJudge_paused {p : Nat} {u : State} (plain : portTsuip u p = false) (f : RxFrame) (quanta t : Nat) :
    tsJudge p (pauseHold p 8 quanta t (countMac p 7 1 (rxCounted p f 0 u))) =
      pauseHold p 8 quanta t (countMac p 7 1 (rxCounted p f 0 u)) := by
  refine tsJudge_sound fun tsuip => ?_
  have quads : (pauseHold p 8 quanta t (countMac p 7 1 (rxCounted p f 0 u))).lk.quads = u.lk.quads := by
    simp [pauseHold, modPort, setPort, lk_rxCounted]
  rw [portTsuip_congr quads, plain] at tsuip
  cases tsuip

theorem changesOnly_paused (p : Nat) (f : RxFrame) (quanta t : Nat) (u : State) :
    changesOnly [.links, .registers] u (pauseHold p 8 quanta t (countMac p 7 1 (rxCounted p f 0 u))) :=
  changesOnly_trans (changesOnly_mono (changesOnly_rxCounted p f 0 u) (by simp))
    (changesOnly_of fun q => by cases q <;> simp [Part.same])

section
variable {p e ts : Nat} {f : RxFrame} {s u : State} (taken : rxTaken s p f = some false) (frame : f.bytes ≠ [])
  (unfenced : s.md.fenced = false) (reached : u = lastBitIn p f s) (stamp : ts = rxStampAt u p f.sfd)
  (errors : e = rxErrors (asJudged s p f) (fld 13 0 (cuAt u ts (R.macMaxFrame p))))
include taken frame unfenced reached stamp errors

/-- A reception that is no MAC control frame, or is in error, goes to its slice. -/
theorem exec_macFrameReceive_passed (sound : portTsuip s p = true → ∀ i < 4, tsLaneFailed u p i = false)
    (passed : be16 f.bytes 12 ≠ 0x8808 ∨ e ≠ 0) :
    exec (.macFrameReceive p f) s = .next (passFrame p (asJudged s p f) e ts (rxCounted p (asJudged s p f) e u)) := by
  subst reached
  have quads : (lastBitIn p f s).lk.quads = s.lk.quads := by rw [lanesOnly_lastBitIn p f s]
  rw [← portTsuip_congr quads] at sound
  have noFence : (lastBitIn p f s).md.fenced = false := by rw [changesOnly_lastBitIn p f s .modes (by decide), unfenced]
  rw [exec_macFrameReceive_taken taken frame, macReceive_passed (f := asJudged s p f) noFence stamp errors passed,
    tsJudge_passed sound]

/-- A pause frame that the port acts on sets or ends the hold of the whole port. -/
theorem exec_macFrameReceive_paused (control : be16 f.bytes 12 = 0x8808) (good : e = 0) (acted : macControl u p f ts = some 1) :
    exec (.macFrameReceive p f) s = .next (pauseHold p 8 (be16 f.bytes 16) (rxEnds u p f)
      (countMac p 7 1 (rxCounted p (asJudged s p f) 0 u))) := by
  subst reached
  have noFence : (lastBitIn p f s).md.fenced = false := by rw [changesOnly_lastBitIn p f s .modes (by decide), unfenced]
  have same : macControl (lastBitIn p f s) p (asJudged s p f) ts = some 1 := (macControl_congr (f := f) rfl).trans acted
  rw [exec_macFrameReceive_taken taken frame, macReceive_paused (f := asJudged s p f) noFence stamp (errors ▸ good)
    control same, tsJudge_paused (macControl_not_tsuip acted)]
  rfl

end

/-- Settles O28: a reception that is taken is counted and then passed or acted on, which touches nothing that its lanes are
judged by. -/
theorem macReceives : Obligations.MacReceives := by
  unfold Obligations.MacReceives
  refine ⟨?_, fun p f s left => exec_macFrameReceive_left left⟩
  intro p e ts f s u taken frame unfenced reached sound stamp errors
  have links : lanesOnly s u := reached ▸ lanesOnly_lastBitIn p f s
  have sofar : changesOnly [.links, .time, .counters, .registers, .masterTime, .elapsed] s u :=
    reached ▸ changesOnly_lastBitIn p f s
  have ingress : u.lk.ingress = s.lk.ingress := by rw [links]
  refine ⟨fun passed => ?_, fun control good acted sorted => ?_⟩
  · refine ⟨_, handed p (asJudged s p f) e ts (rxCounted p (asJudged s p f) e u),
      exec_macFrameReceive_passed taken frame unfenced reached stamp errors sound passed, ?_, rfl, rfl, rfl, rfl, rfl, rfl,
      changesOnly_trans sofar (changesOnly_mono (changesOnly_passed p _ e ts u) (by simp))⟩
    rw [ingress_passFrame, lk_rxCounted, ingress]
  · have counted : (countMac p 7 1 (rxCounted p (asJudged s p f) 0 u)).lk = u.lk := by simp [lk_rxCounted]
    have held := pausedTill_pauseHold (p := p) (s := countMac p 7 1 (rxCounted p (asJudged s p f) 0 u))
      (by rw [port_congr counted, port_of_lanesOnly links]; exact sorted) (be16 f.bytes 16) (rxEnds u p f)
    rw [quantaTime_congr counted] at held
    refine ⟨_, exec_macFrameReceive_paused taken frame unfenced reached stamp errors control good acted, ?_,
      fun quanta => ?_, fun ends => ?_, changesOnly_trans sofar (changesOnly_mono (changesOnly_paused p _ _ _ u) (by simp))⟩
    · exact (ingress_pauseHold _ _ _ _ _).trans ((congrArg Links.ingress counted).trans ingress)
    · rw [if_neg (by omega)] at held; exact held
    · rw [if_pos ends] at held; exact held

end Sys2Proof.Proofs
end

section
/-! PROOFS. Commands of the time base (R9, R235 to R239, R243, R348): SET, STEP and the slews, a jump that acts, FREQ_ADJ and
TIM_FAULT. -/

namespace Sys2Proof.Proofs

open Sys2Proof Sys2Proof.Machine Sys2Proof.Safety Sys2Proof.Laws

/-! ## TIM_CMD (R235, R236, R239) -/

theorem pf0Write_of_open {off : Nat} {s : State} (f : State → State) (opened : pf0Open off s) : pf0Write off f s = f s := by
  obtain ⟨host, free, served⟩ := opened
  exact pf0Write_taken f host free served

theorem changesOnly_refl (ps : List Part) (s : State) : changesOnly ps s s := fun p _ => by cases p <;> rfl

theorem exec_set {s : State} (opened : pf0Open R.timCmd s) : exec .set s = .next (timSet s) :=
  congrArg Host.Outcome.next (pf0Write_of_open timSet opened)

theorem exec_step {s : State} (opened : pf0Open R.timCmd s) : exec .step s = .next (timStep s) :=
  congrArg Host.Outcome.next (pf0Write_of_open timStep opened)

theorem exec_slew {s : State} (opened : pf0Open R.timCmd s) : exec .slew s = .next (timSlew s) :=
  congrArg Host.Outcome.next (pf0Write_of_open timSlew opened)

theorem exec_slewAbort {s : State} (opened : pf0Open R.timCmd s) :
    exec .slewAbort s = .next (timResult 0 (startSlew 0 s)) :=
  congrArg Host.Outcome.next (pf0Write_of_open (fun s => timResult 0 (startSlew 0 s)) opened)

theorem changesOnly_timResult (r : Nat) (s : State) : changesOnly [.time] s (timResult r s) :=
  changesOnly_of fun p => by cases p <;> simp [Part.same]

theorem changesOnly_startJump (set : Option Nat) (d : Int) (s : State) : changesOnly [.time] s (startJump set d s) :=
  changesOnly_of fun p => by cases p <;> simp [Part.same]

theorem changesOnly_startSlew (n : Int) (s : State) : changesOnly [.time] s (startSlew n s) :=
  changesOnly_of fun p => by cases p <;> simp [Part.same]

theorem timSet_bad {s : State} (loop : timSource s ≠ 2) (bad : Config.nsPerSec ≤ rgF s R.timSetNs 29 0) :
    timSet s = timResult 2 s := by
  rw [timSet, if_neg loop, if_pos bad]

theorem timSet_good {s : State} (loop : timSource s ≠ 2) (good : rgF s R.timSetNs 29 0 < Config.nsPerSec) :
    timSet s = startJump (some (mkT (rg64 s R.timSetSec) (rgF s R.timSetNs 29 0))) 0 (timResult 0 s) := by
  rw [timSet, if_neg loop, if_neg (Nat.not_le.mpr good)]

theorem timSlew_bad {s : State} (loop : timSource s ≠ 2)
    (bad : sgn 32 (rg s R.timSlew) < -1000000000 ∨ 1000000000 < sgn 32 (rg s R.timSlew)) : timSlew s = timResult 2 s := by
  unfold timSlew
  dsimp only
  rw [if_neg loop, if_pos bad.symm]

theorem timSlew_good {s : State} (loop : timSource s ≠ 2)
    (good : -1000000000 ≤ sgn 32 (rg s R.timSlew) ∧ sgn 32 (rg s R.timSlew) ≤ 1000000000) :
    timSlew s = startSlew (sgn 32 (rg s R.timSlew)) (timResult 0 s) := by
  unfold timSlew
  dsimp only
  rw [if_neg loop, if_neg (by omega)]

/-- A SET or STEP as it is taken at the present time (R235, R237). -/
def jumpTaken (set : Option Nat) (d : Int) (s : State) : Jump :=
  ⟨s.now + nsT 128, set, d, decide (s.md.mode = .run) || decide (s.md.mode = .drain)⟩

theorem startJump_first {s : State} (idle : s.tim.jump = none) (set : Option Nat) (d : Int) :
    startJump set d s = { s with tim := { s.tim with jump := some (jumpTaken set d s) } } := by
  simp [startJump, jumpTaken, idle]

theorem startJump_later {s : State} (busy : s.tim.jump ≠ none) (set : Option Nat) (d : Int) :
    startJump set d s = { s with tim := { s.tim with jumps := s.tim.jumps ++ [jumpTaken set d s] } } := by
  simp [startJump, jumpTaken, busy]

/-- A SET or STEP that is accepted: the next to act, or behind those that have not acted yet. -/
theorem jumpAccepted_state {set : Option Nat} {d : Int} {j : Jump} {s : State} (jump : j = jumpTaken set d s) :
    let t := startJump set d (timResult 0 s)
    (s.tim.jump = none → t.tim = { s.tim with cmdResult := 0, jump := some j }) ∧
      (s.tim.jump ≠ none → t.tim = { s.tim with cmdResult := 0, jumps := s.tim.jumps ++ [j] }) ∧ changesOnly [.time] s t := by
  intro t
  subst jump
  refine ⟨fun idle => ?_, fun busy => ?_, changesOnly_trans (changesOnly_timResult 0 s) (changesOnly_startJump _ _ _)⟩
  · exact congrArg State.tim (startJump_first (s := timResult 0 s) idle set d)
  · exact congrArg State.tim (startJump_later (s := timResult 0 s) busy set d)

/-- SET, STEP and SLEW are refused where the loop follows PPS (R239). -/
theorem exec_refused_by_pps {c : Instr} {s : State} (opened : pf0Open R.timCmd s) (loop : timSource s = 2)
    (row : c ∈ [Instr.set, .step, .slew]) : exec c s = .next (timResult 1 s) := by
  simp only [List.mem_cons, List.not_mem_nil, or_false] at row
  rcases row with rfl | rfl | rfl
  · rw [exec_set opened, timSet, if_pos loop]
  · rw [exec_step opened, timStep, if_pos loop]
  · rw [exec_slew opened, timSlew, if_pos loop]

/-- Settles O31: each command is `timResult` with its answer, and one that is accepted starts its jump or its slew. -/
theorem timeCommands : Obligations.TimeCommands := by
  unfold Obligations.TimeCommands
  intro s opened
  refine ⟨fun j loop good jump => ?_, fun loop bad => ?_, fun j loop jump => ?_, fun loop => ⟨fun good => ?_, fun bad => ?_⟩,
    ⟨_, exec_slewAbort opened, ?_, ?_⟩, fun loop c row => ?_⟩
  · exact ⟨_, (exec_set opened).trans (congrArg _ (timSet_good loop good)), jumpAccepted_state jump⟩
  · exact ⟨_, (exec_set opened).trans (congrArg _ (timSet_bad loop bad)), rfl, changesOnly_timResult 2 s⟩
  · have taken : timStep s = startJump none (sgn 64 (rg64 s R.timStep)) (timResult 0 s) := if_neg loop
    exact ⟨_, (exec_step opened).trans (congrArg _ taken), jumpAccepted_state jump⟩
  · exact ⟨_, (exec_slew opened).trans (congrArg _ (timSlew_good loop good)), rfl,
      changesOnly_trans (changesOnly_timResult 0 s) (changesOnly_startSlew _ _)⟩
  · exact ⟨_, (exec_slew opened).trans (congrArg _ (timSlew_bad loop bad)), rfl, changesOnly_timResult 2 s⟩
  · simp [timResult, startSlew]
  · exact changesOnly_trans (changesOnly_startSlew 0 s) (changesOnly_timResult 0 _)
  · exact ⟨_, exec_refused_by_pps opened loop row, rfl, changesOnly_timResult 1 s⟩

/-! ## Time that passes (R231, R236) -/

/-- Of the time base, time that passes changes only what is left of a slew. -/
theorem tim_passTo (t e : Nat) (s : State) : (passTo t e s).tim = { s.tim with slewLeft := slewAfter s e } := by
  simp [passTo]

theorem tim_reach (T : Nat) (s : State) : (reach T s).tim = { s.tim with slewLeft := (reach T s).tim.slewLeft } := by
  unfold reach
  split
  · rfl
  · rw [tim_passTo]

theorem tim_reachElapsed (e : Nat) (s : State) :
    (reachElapsed e s).tim = { s.tim with slewLeft := (reachElapsed e s).tim.slewLeft } := by
  unfold reachElapsed
  split
  · rfl
  · unfold passFor
    split
    · rfl
    · rw [tim_passTo]

theorem le_ceilDiv_mul (a : Nat) {b : Nat} (positive : 0 < b) : a ≤ ceilDiv a b * b := by
  have whole := Nat.div_add_mod (a + b - 1) b
  have rest := Nat.mod_lt (a + b - 1) positive
  rw [ceilDiv, Nat.mul_comm]
  omega

/-- In the ticks that the rest of a slew takes nothing is left of it. -/
theorem slewAfter_all {s : State} (rate : 0 < slewRate s) :
    slewAfter s (nsT (ceilDiv s.tim.slewLeft.natAbs (slewRate s))) = 0 := by
  have enough := le_ceilDiv_mul s.tim.slewLeft.natAbs rate
  have added : nsT (ceilDiv s.tim.slewLeft.natAbs (slewRate s)) * slewRate s / Config.nsUnit =
      ceilDiv s.tim.slewLeft.natAbs (slewRate s) * slewRate s := by
    rw [nsT, Nat.mul_right_comm, Nat.mul_div_cancel _ (by decide)]
  unfold slewAfter
  rw [added]
  dsimp only
  split <;> omega

/-- In whole ticks master time moves by their increments and by what the slew adds. -/
theorem masterOver_ticks (n : Nat) (s : State) :
    masterOver s (nsT n) = (n : Int) * tickInc s + (s.tim.slewLeft - slewAfter s (nsT n)) := by
  have units : ((nsT n : Nat) : Int) * tickInc s = (n : Int) * tickInc s * (Config.nsUnit : Int) := by
    rw [nsT, Int.natCast_mul, Int.mul_right_comm]
  rw [masterOver, units, Int.mul_ediv_cancel _ (by decide)]

theorem shiftT_lt (t : Nat) (d : Int) : shiftT t d < Config.timeMod := by
  have positive : (0 : Int) < (Config.timeMod : Int) := by decide
  have nonneg := Int.emod_nonneg ((t : Int) + d) (Int.ne_of_gt positive)
  have below := Int.emod_lt_of_pos ((t : Int) + d) positive
  unfold shiftT
  omega

/-- The state when all of a slew has been added (R236). -/
def slewDone (s : State) : State :=
  let s1 := passFor (nsT (ceilDiv s.tim.slewLeft.natAbs (slewRate s))) s
  { s1 with tim := { s1.tim with slewLeft := 0 } }

theorem exec_slewComplete {s : State} (left : s.tim.slewLeft ≠ 0) : exec .slewComplete s = .next (slewDone s) :=
  congrArg Host.Outcome.next (if_neg left)

theorem slewDone_state {s : State} (rate : 0 < slewRate s) (run : s.tim.stopped = false) :
    (slewDone s).tim = { s.tim with slewLeft := 0 } ∧
      (slewDone s).now = shiftT s.now ((ceilDiv s.tim.slewLeft.natAbs (slewRate s) : Int) * tickInc s + s.tim.slewLeft) ∧
      changesOnly [.time, .counters, .registers, .masterTime, .elapsed] s (slewDone s) := by
  have moved := masterOver_ticks (ceilDiv s.tim.slewLeft.natAbs (slewRate s)) s
  rw [slewAfter_all rate, Int.sub_zero] at moved
  have passed (e : Nat) : passFor e s = passTo (shiftT s.now (masterOver s e)) e s := if_neg (by simp [run])
  refine ⟨?_, ?_, changesOnly_of fun p => by cases p <;> simp [Part.same, slewDone]⟩
  · rw [slewDone, passed]
    dsimp only
    rw [tim_passTo]
  · rw [slewDone, passed, moved]
    exact Nat.mod_eq_of_lt (shiftT_lt _ _)

/-! ## A jump acts (R235, R237, R258, R348) -/

/-- The master time that a jump gives, from the state in which it acts. -/
def jumpGives (j : Jump) (s : State) : Nat :=
  match j.set with
  | some t => t % Config.timeMod
  | none => shiftT s.now (j.step * (Config.nsUnit : Int))

/-- A jump to `new`, all but its fault in RUN and DRAIN. -/
def jumped (new : Nat) (s0 : State) : State :=
  let s1 := moveWaits ((new : Int) - (s0.now : Int)) { keepJudged s0 with
    now := new, tim := { s0.tim with jump := s0.tim.jumps.head?, jumps := s0.tim.jumps.tail, slewLeft := 0 } }
  let s2 := forAll (fun g => jumpGen s0 g new) (List.range 32) s1
  { s2 with
    md := { s2.md with
      tRun := s2.md.tRun.map fun r => if s2.md.mode = .stage then new else boundaryAfter new r,
      tDrain := s2.md.tDrain.map fun d => if s2.md.draining then boundaryAfter new d else new },
    gen := { s2.gen with
      effectAt := s2.gen.effectAt.map fun _ => new,
      byJump := s2.gen.effectAt.isSome,
      lastT := if s2.gen.effectAt.isSome then new else min s2.gen.lastT new,
      lastEffect := boundaryAfter new s2.gen.lastEffect } }

theorem exec_timeJumpEffect {j : Jump} {s : State} (due : s.tim.jump = some j) (staged : j.inRun = false) :
    exec .timeJumpEffect s = .next (jumped (jumpGives j (reach j.due s)) (reach j.due s)) := by
  show execTimeJumpEffect s = _
  rw [execTimeJumpEffect, due]
  simp only [timeJump, staged, whenDo, Bool.false_eq_true, if_false]
  rfl

/-- Generators join a jump without touching it, or a slew. -/
theorem tim_jumpGens (old : State) (new : Nat) (l : List Nat) (s : State) :
    (forAll (fun g => jumpGen old g new) l s).tim.slewLeft = s.tim.slewLeft ∧
      (forAll (fun g => jumpGen old g new) l s).tim.jump = s.tim.jump :=
  forAll_rel (R := fun s t => t.tim.slewLeft = s.tim.slewLeft ∧ t.tim.jump = s.tim.jump) (fun _ => ⟨rfl, rfl⟩)
    (fun _ _ _ h k => ⟨k.1.trans h.1, k.2.trans h.2⟩)
    (fun g s => by unfold jumpGen; split <;> simp [setGen]) l s

theorem jumped_tim (new : Nat) (s : State) : (jumped new s).tim.slewLeft = 0 ∧
    (jumped new s).tim.jump.map (fun k => (k.set, k.step)) = s.tim.jumps.head?.map (fun k => (k.set, k.step)) := by
  unfold jumped
  dsimp only
  obtain ⟨slew, jump⟩ := tim_jumpGens s new (List.range 32) (moveWaits ((new : Int) - (s.now : Int)) { keepJudged s with
    now := new, tim := { s.tim with jump := s.tim.jumps.head?, jumps := s.tim.jumps.tail, slewLeft := 0 } })
  rw [slew, jump]
  refine ⟨rfl, ?_⟩
  simp only [moveWaits, Option.map_map]
  rfl

theorem jumped_now (new : Nat) (s : State) : (jumped new s).now = new := by simp [jumped]

theorem jumped_tRun {new : Nat} {s : State} (stage : s.md.mode = .stage) (waits : s.md.tRun.isSome = true) :
    (jumped new s).md.tRun = some new := by
  obtain ⟨r, at_⟩ := Option.isSome_iff_exists.mp waits
  simp [jumped, stage, at_]

theorem jumped_effectAt {new : Nat} {s : State} (waits : s.gen.effectAt.isSome = true) :
    (jumped new s).gen.effectAt = some new := by
  obtain ⟨r, at_⟩ := Option.isSome_iff_exists.mp waits
  simp [jumped, moveWaits, at_]

theorem jumped_mode (new : Nat) (s : State) : (jumped new s).md.mode = s.md.mode := by simp [jumped]

theorem changesOnly_jumped (new : Nat) (s : State) : changesOnly [.modes, .links, .time, .buffer, .egress, .tables, .generations,
    .engines, .recorder, .counters, .registers, .masterTime, .elapsed] s (jumped new s) :=
  changesOnly_of fun p => by cases p <;> simp [Part.same, jumped]

/-! ## FREQ_ADJ (R9, R231, R238, R239) -/

/-- The state with the low word of FREQ_ADJ held (R9). -/
def lowHeldAdj (lo : Word) (s : State) : State :=
  { s with lat := { s.lat with lowHeld := kvPut R.timFreqAdj lo s.lat.lowHeld } }

/-- The state with the low word of FREQ_ADJ used (R9). -/
def lowUsedAdj (s : State) : State :=
  { s with lat := { s.lat with lowHeld := kvDel R.timFreqAdj s.lat.lowHeld } }

/-- The value that both words of FREQ_ADJ give, the low one held. -/
def adjValue (hi : Word) (s : State) : Int := sgn 64 ((kvGetD 0 R.timFreqAdj s.lat.lowHeld).toNat + hi.toNat * 2 ^ 32)

/-- FREQ_ADJ within its bounds, ADJ_SAT where the value was not (R238). -/
def withFreqAdj (v : Int) (s : State) : State :=
  { s with tim := { s.tim with
      freqAdj := max (-freqMax) (min freqMax v), adjSat := decide (max (-freqMax) (min freqMax v) ≠ v) } }

theorem exec_freqAdjWrite_low {s : State} (opened : pf0Open R.timFreqAdj s) (lo : Word) :
    exec (.freqAdjWrite false lo) s = .next (lowHeldAdj lo s) :=
  congrArg Host.Outcome.next (pf0Write_of_open _ opened)

theorem exec_freqAdjWrite_refused {s : State} (opened : pf0Open (R.timFreqAdj + 4) s) (loop : timSource s ≠ 0) (hi : Word) :
    exec (.freqAdjWrite true hi) s = .next (timResult 1 (lowUsedAdj s)) :=
  congrArg Host.Outcome.next ((pf0Write_of_open _ opened).trans (if_pos loop))

theorem exec_freqAdjWrite_high {s : State} (opened : pf0Open (R.timFreqAdj + 4) s) (free : timSource s = 0) (hi : Word) :
    exec (.freqAdjWrite true hi) s = .next (timResult 0 (withFreqAdj (adjValue hi s) (lowUsedAdj s))) :=
  congrArg Host.Outcome.next ((pf0Write_of_open _ opened).trans (if_neg fun loop : timSource s ≠ 0 => loop free))

theorem adjValue_lowHeld (lo hi : Word) (s : State) : adjValue hi (lowHeldAdj lo s) = sgn 64 (lo.toNat + hi.toNat * 2 ^ 32) := by
  rw [adjValue, lowHeldAdj, kvGetD_kvPut]

/-! ## TIM_FAULT cleared (R243) -/

/-- TIM_FAULT after a write of `w`: a bit written 1 clears unless its condition still holds. -/
def faultLeft (w : Word) (s : State) : Nat :=
  (rg s R.timFault - (w.toNat % 32 &&& rg s R.timFault)) ||| (timHolding s &&& rg s R.timFault)

theorem faultLeft_lt (w : Word) (s : State) : faultLeft w s < 2 ^ 32 :=
  Nat.or_lt_two_pow (Nat.lt_of_le_of_lt (Nat.sub_le _ _) (rg_lt s _)) (Nat.lt_of_le_of_lt Nat.and_le_right (rg_lt s _))

theorem exec_timeFaultClear_last {w : Word} {s : State} (opened : pf0Open R.timFault s) (stood : rg s R.timFault ≠ 0)
    (none : faultLeft w s = 0) : exec (.timeFaultClear w) s = .next
      { setRg R.timFault 0 s with tim := { s.tim with resumeFrom := some s.now, heldGens := List.range 32 } } := by
  rw [← none]
  exact congrArg Host.Outcome.next ((pf0Write_of_open _ opened).trans (if_pos ⟨stood, none⟩))

theorem exec_timeFaultClear_left {w : Word} {s : State} (opened : pf0Open R.timFault s)
    (left : ¬(rg s R.timFault ≠ 0 ∧ faultLeft w s = 0)) :
    exec (.timeFaultClear w) s = .next (setRg R.timFault (faultLeft w s) s) :=
  congrArg Host.Outcome.next ((pf0Write_of_open _ opened).trans (if_neg left))

theorem faultLeft_all {w : Word} {s : State} (known : rg s R.timFault < 32) (written : w.toNat % 32 = 31)
    (ended : timHolding s = 0) : faultLeft w s = 0 := by
  have same : 31 &&& rg s R.timFault = rg s R.timFault := by
    rw [Nat.and_comm]
    exact (Nat.and_two_pow_sub_one_eq_mod _ 5).trans (Nat.mod_eq_of_lt known)
  simp [faultLeft, written, ended, same]

theorem faultLeft_none {w : Word} {s : State} (written : w.toNat % 32 = 0) : faultLeft w s = rg s R.timFault := by
  have within : rg s R.timFault ||| (timHolding s &&& rg s R.timFault) = rg s R.timFault :=
    Nat.eq_of_testBit_eq fun i => by
      rw [Nat.testBit_or, Nat.testBit_and]
      cases (rg s R.timFault).testBit i <;> simp
  simp [faultLeft, written, within]

theorem bit_faultLeft {i : Nat} {w : Word} {s : State} (holds : bit i (timHolding s) = true)
    (stood : bit i (rg s R.timFault) = true) : bit i (faultLeft w s) = true := by
  unfold bit faultLeft at *
  rw [Nat.testBit_or, Nat.testBit_and, holds, stood, Bool.and_true, Bool.or_true]

theorem changesOnly_setRg (off v : Nat) (s : State) : changesOnly [.registers] s (setRg off v s) :=
  changesOnly_of fun p => by cases p <;> simp [Part.same]

/-- A register stored with the value that it holds changes nothing. -/
theorem registersBut_setRg_same {off v : Nat} {s : State} (canon : RegsCanonical s) (same : v = rg s off) :
    registersBut [] s (setRg off v s) := by
  intro k _
  rw [regWord_setRg off v k s canon]
  split
  · next h => rw [h, same, rg, BitVec.ofNat_toNat, BitVec.setWidth_eq]
  · rfl

/-! ## The statement on jumps, slews and adjustments -/

/-- Settles O32: a jump without its fault is `jumped`, a slew that completes `slewDone`; FREQ_ADJ takes the value of both its
words, and TIM_FAULT becomes `faultLeft`. -/
theorem jumpsSlewsAdjustments : Obligations.JumpsSlewsAdjustments := by
  unfold Obligations.JumpsSlewsAdjustments
  refine ⟨⟨?_, ?_⟩, ?_, ?_, ?_⟩
  · intro j s due staged
    have waiting : (reach j.due s).tim.jumps = s.tim.jumps := by rw [tim_reach]
    obtain ⟨slew, jump⟩ := jumped_tim (jumpGives j (reach j.due s)) (reach j.due s)
    rw [waiting] at jump
    refine ⟨_, exec_timeJumpEffect due staged, slew, jump, fun v set => ?_, fun set => ?_, fun stage waits => ?_,
      fun waits => ?_, ?_, changesOnly_trans (changesOnly_mono (changesOnly_reach j.due s) (by simp)) (changesOnly_jumped _ _)⟩
    · rw [jumped_now, jumpGives, set]
    · rw [jumped_now, jumpGives, set]
    · rw [jumped_now, jumped_tRun (by simpa using stage) (by simpa using waits)]
    · rw [jumped_now, jumped_effectAt (by simpa using waits)]
    · simp [jumped_mode]
  · intro s left rate run
    exact ⟨_, exec_slewComplete left, slewDone_state rate run⟩
  · intro lo hi s _ opened openedHigh free
    have highOpen : pf0Open (R.timFreqAdj + 4) (lowHeldAdj lo s) := openedHigh
    refine ⟨_, _, exec_freqAdjWrite_low opened lo, exec_freqAdjWrite_high highOpen free hi, ?_, ?_, ?_, rfl, ?_⟩
    · exact changesOnly_of fun p => by cases p <;> simp [Part.same, lowHeldAdj]
    · rw [adjValue_lowHeld]; rfl
    · rw [adjValue_lowHeld]; rfl
    · exact changesOnly_of fun p => by cases p <;> simp [Part.same, lowHeldAdj, lowUsedAdj, withFreqAdj]
  · intro hi s opened loop
    exact ⟨_, exec_freqAdjWrite_refused opened loop hi, rfl,
      changesOnly_of fun p => by cases p <;> simp [Part.same, lowUsedAdj]⟩
  · intro w s canon opened known
    refine ⟨fun written stood ended => ?_, fun written => ?_, fun i small holds stood => ?_⟩
    · refine ⟨_, exec_timeFaultClear_last opened stood (faultLeft_all known written ended), rg_setRg R.timFault 0 canon, rfl,
        registersBut_setRg R.timFault 0 canon, changesOnly_of fun p => by cases p <;> simp [Part.same]⟩
    · have same := faultLeft_none (s := s) written
      refine ⟨_, exec_timeFaultClear_left opened (by simp [same]), ?_, registersBut_setRg_same canon same,
        changesOnly_setRg _ _ s⟩
      rw [rg_setRg _ _ canon, Nat.mod_eq_of_lt (faultLeft_lt w s), same]
    · have remains := bit_faultLeft (w := w) holds stood
      have some : faultLeft w s ≠ 0 := fun zero => by simp [zero, bit] at remains
      refine ⟨_, exec_timeFaultClear_left opened fun h => some h.2, ?_, by simp, registersBut_setRg _ _ canon,
        changesOnly_setRg _ _ s⟩
      rw [rg_setRg _ _ canon, Nat.mod_eq_of_lt (faultLeft_lt w s)]
      exact remains

end Sys2Proof.Proofs
end

section
/-! PROOFS. Faults and references of the time base (R239 to R241): what a fault sets, holdover, its end, and lock. -/

namespace Sys2Proof.Proofs

open Sys2Proof Sys2Proof.Machine Sys2Proof.Safety Sys2Proof.Laws

/-! ## Time-base faults (R41, R241) -/

/-- A breach touches no register but GLB_GUARANTEE and those that show the loss of an event. -/
theorem registersBut_breach (i : Nat) {s : State} (canon : RegsCanonical s) :
    registersBut (R.glbGuarantee :: eventLossRegs) s (breach i s) := by
  unfold breach
  split
  · exact registersBut_of_regs rfl _
  · have stuck := registersBut_stickRg R.glbGuarantee i canon
    have told := registersBut_emit 2 0 92 [i, guaranteeWord (stickRg R.glbGuarantee i s)]
      (regsCanonical_stickRg R.glbGuarantee i canon)
    exact registersBut_trans (registersBut_mono stuck (by simp)) (registersBut_mono told (by simp))

theorem regsCanonical_breach (i : Nat) {s : State} (canon : RegsCanonical s) : RegsCanonical (breach i s) := by
  unfold breach
  split
  · exact canon
  · exact regsCanonical_emit _ _ _ _ (regsCanonical_stickRg _ _ canon)

theorem bit_breach {i : Nat} {s : State} (small : i < 32) (canon : RegsCanonical s) :
    bit i (rg (breach i s) R.glbGuarantee) = true := by
  unfold breach
  split
  · assumption
  · dsimp only
    rw [rg_of_registersBut (registersBut_emit _ _ _ _ (regsCanonical_stickRg _ _ canon)) (by decide)]
    exact bit_stickRg canon small

/-- The state in which a time-base fault is noted, before its bit is set. -/
def faultRises (s : State) : State :=
  if timFault s then s else { s with tim := { s.tim with faultFrom := some s.now, resumeFrom := none } }

theorem timeFault_eq (i code detail : Nat) (s : State) :
    timeFault i code detail s = alarm code 93 detail (breach 6 (stickRg R.timFault i (faultRises s))) := rfl

theorem regs_faultRises (s : State) : (faultRises s).regs = s.regs := by
  unfold faultRises
  split <;> rfl

/-- Of the time base, a fault changes only since when it stands. -/
theorem tim_timeFault (i code detail : Nat) (s : State) : (timeFault i code detail s).tim =
    { s.tim with faultFrom := (faultRises s).tim.faultFrom, resumeFrom := (faultRises s).tim.resumeFrom } := by
  have noted : (faultRises s).tim =
      { s.tim with faultFrom := (faultRises s).tim.faultFrom, resumeFrom := (faultRises s).tim.resumeFrom } := by
    unfold faultRises
    split <;> rfl
  rw [← noted, timeFault_eq]
  simp

theorem changesOnly_timeFault (i code detail : Nat) (s : State) :
    changesOnly [.host, .time, .registers] s (timeFault i code detail s) :=
  changesOnly_of fun p => by cases p <;> simp [Part.same]

theorem timFault_of_bit {i : Nat} {s : State} (set : bit i (rg s R.timFault) = true) : timFault s = true := by
  unfold timFault
  rw [bne_iff_ne]
  intro zero
  simp [zero, bit] at set

/-- A time-base fault sets its bit of TIM_FAULT and breaks the guarantee. -/
theorem timeFault_state {i : Nat} (code detail : Nat) {s : State} (small : i < 32) (canon : RegsCanonical s) :
    let t := timeFault i code detail s
    bit i (rg t R.timFault) = true ∧ timFault t = true ∧ bit 6 (rg t R.glbGuarantee) = true ∧
      changesOnly [.host, .time, .registers] s t := by
  intro t
  have canon1 : RegsCanonical (faultRises s) := (regsCanonical_congr (regs_faultRises s)).mpr canon
  have canon2 : RegsCanonical (stickRg R.timFault i (faultRises s)) := regsCanonical_stickRg _ _ canon1
  have told (k : Nat) (apart : k ∉ eventLossRegs) :
      rg t k = rg (breach 6 (stickRg R.timFault i (faultRises s))) k :=
    rg_of_registersBut (registersBut_emit _ _ _ _ (regsCanonical_breach 6 canon2)) apart
  have set : bit i (rg t R.timFault) = true := by
    rw [told _ (by decide), rg_of_registersBut (registersBut_breach 6 canon2) (by decide)]
    exact bit_stickRg canon1 small
  refine ⟨set, timFault_of_bit set, ?_, changesOnly_timeFault i code detail s⟩
  rw [told _ (by decide)]
  exact bit_breach (by decide) canon2

theorem exec_timeBaseFault {s : State} (mode : s.md.mode ≠ .reset) (replica : Bool) (island : Nat) :
    exec (.timeBaseFault replica island) s =
      .next ((if replica then timeFault 1 0x0101 island else timeFault 0 0x0100 0) s) := by
  show execTimeBaseFault replica island s = _
  simp only [execTimeBaseFault, whenDo, mode, ne_eq, not_false_eq_true, decide_true, if_true]

/-! ## References lost and back (R239, R240) -/

/-- A reference noted as lost; the 1 s of a return under way ends where the loop uses it. -/
def referenceGone (pps : Bool) (s : State) : State :=
  { s with tim := { s.tim with
      ppsPresent := s.tim.ppsPresent && !pps, refPresent := s.tim.refPresent && pps,
      refBack := if loopUses s pps then none else s.tim.refBack } }

/-- A reference noted as present. -/
def referenceHere (pps : Bool) (s : State) : State :=
  { s with tim := { s.tim with
      ppsPresent := s.tim.ppsPresent || pps, refPresent := s.tim.refPresent || !pps } }

theorem exec_referenceLost {s : State} (mode : s.md.mode ≠ .reset) (pps : Bool) (avg : Int) :
    exec (.referenceLost pps avg) s = .next (whenDo (loopUses s pps) (loopLoses pps avg) (referenceGone pps s)) :=
  congrArg Host.Outcome.next (if_pos (decide_eq_true mode))

theorem exec_referenceReturn {s : State} (mode : s.md.mode ≠ .reset) (pps : Bool) :
    exec (.referenceReturn pps) s = .next (whenDo (loopUses s pps) (refsBack s.now) (referenceHere pps s)) :=
  congrArg Host.Outcome.next (if_pos (decide_eq_true mode))

theorem changesOnly_referenceGone (pps : Bool) (s : State) : changesOnly [.time] s (referenceGone pps s) :=
  changesOnly_of fun p => by cases p <;> simp [Part.same, referenceGone]

theorem changesOnly_referenceHere (pps : Bool) (s : State) : changesOnly [.time] s (referenceHere pps s) :=
  changesOnly_of fun p => by cases p <;> simp [Part.same, referenceHere]

theorem changesOnly_loopLoses (pps : Bool) (avg : Int) (s : State) :
    changesOnly [.host, .time, .registers] s (loopLoses pps avg s) :=
  changesOnly_of fun p => by cases p <;> simp [Part.same]

theorem changesOnly_refsBack (t : Nat) (s : State) : changesOnly [.time] s (refsBack t s) :=
  changesOnly_of fun p => by cases p <;> simp [Part.same]

theorem clamp_freqAdj {adj : Int} (low : -freqMax ≤ adj) (high : adj ≤ freqMax) :
    max (-freqMax) (min freqMax adj) = adj := by
  omega

/-- A loop that loses a reference is in holdover at its average, whether or not that is a time-base fault. -/
theorem loopLoses_holds {pps : Bool} {avg : Int} {s : State} (low : -freqMax ≤ avg) (high : avg ≤ freqMax) :
    let t := loopLoses pps avg s
    t.tim.holdover = true ∧ t.tim.locked = false ∧ t.tim.freqAdj = avg ∧ t.tim.refBack = s.tim.refBack ∧
      t.tim.ppsPresent = s.tim.ppsPresent ∧ t.tim.refPresent = s.tim.refPresent := by
  unfold loopLoses
  dsimp only
  rw [clamp_freqAdj low high]
  split
  · simp [tim_timeFault]
  · simp

theorem refsBack_starts {t : Nat} {s : State} (holds : s.tim.holdover = true) (all : refsPresent s = true) :
    refsBack t s = { s with tim := { s.tim with refBack := some t } } :=
  if_pos (by rw [holds, all]; rfl)

theorem refsBack_waits {s : State} (missing : refsPresent s = false) (t : Nat) : refsBack t s = s :=
  if_neg (by simp [missing])

/-- What a loop needs for all it uses to be present when one reference has come back. -/
theorem refsPresent_referenceHere {pps : Bool} {s : State} (other : pps = true → s.tim.refPresent = true)
    (otherPps : pps = false → timSource s = 2 → s.tim.ppsPresent = true) : refsPresent (referenceHere pps s) = true := by
  have source : timSource (referenceHere pps s) = timSource s := rfl
  rw [refsPresent, source]
  cases pps with
  | true => simp [referenceHere, other rfl]
  | false =>
    by_cases loop : timSource s = 2
    · simp [referenceHere, otherPps rfl loop]
    · simp [referenceHere, loop]

theorem refsPresent_referenceHere_missing {pps : Bool} {s : State} (missing : pps = true ∧ s.tim.refPresent = false ∨
    pps = false ∧ timSource s = 2 ∧ s.tim.ppsPresent = false) : refsPresent (referenceHere pps s) = false := by
  have source : timSource (referenceHere pps s) = timSource s := rfl
  rw [refsPresent, source]
  rcases missing with ⟨rfl, gone⟩ | ⟨rfl, loop, gone⟩
  · simp [referenceHere, gone]
  · simp [referenceHere, gone, loop]

theorem exec_holdoverEnd {t0 : Nat} {s : State} (back : s.tim.refBack = some t0) : exec .holdoverEnd s =
    .next { reach (t0 + secT 1) s with
      tim := { (reach (t0 + secT 1) s).tim with holdover := false, refBack := none } } := by
  show execHoldoverEnd s = _
  rw [execHoldoverEnd, back]

theorem exec_loopLocked {adj : Int} {s : State} (loop : 1 ≤ timSource s) (follows : s.tim.holdover = false)
    (mode : s.md.mode ≠ .reset) (low : -freqMax ≤ adj) (high : adj ≤ freqMax) :
    exec (.loopLocked adj) s = .next { s with tim := { s.tim with locked := true, freqAdj := adj } } := by
  show execLoopLocked adj s = _
  simp [execLoopLocked, whenDo, loop, follows, mode, clamp_freqAdj low high]

/-! ## The statement on references -/

/-- Settles O33: a fault is `timeFault`, a reference that the loop uses goes by `loopLoses` and comes back by `refsBack`. -/
theorem references : Obligations.References := by
  unfold Obligations.References
  refine ⟨?_, ?_, ?_, ?_⟩
  · intro replica island s canon mode
    refine ⟨_, exec_timeBaseFault mode replica island, ?_⟩
    cases replica
    · exact timeFault_state 0x0100 0 (by decide) canon
    · exact timeFault_state 0x0101 island (by decide) canon
  · intro pps avg s mode
    refine ⟨fun unused => ?_, fun used low high => ?_, fun holds used => ⟨fun ⟨other, otherPps⟩ => ?_, fun missing => ?_⟩⟩
    · rw [exec_referenceLost mode, unused]
      refine ⟨_, rfl, ?_, changesOnly_referenceGone pps s⟩
      simp [whenDo, referenceGone, unused]
    · rw [exec_referenceLost mode, used]
      obtain ⟨holdover, locked, adj, back, noPps, noRef⟩ := loopLoses_holds (pps := pps) (s := referenceGone pps s) low high
      refine ⟨_, rfl, holdover, locked, adj, back.trans (if_pos used), fun p => noPps.trans ?_, fun p => noRef.trans ?_,
        changesOnly_trans (changesOnly_mono (changesOnly_referenceGone pps s) (by simp)) (changesOnly_loopLoses pps avg _)⟩
      · simp [referenceGone, p]
      · simp [referenceGone, p]
    · have starts := refsBack_starts (t := s.now) (s := referenceHere pps s) holds (refsPresent_referenceHere other otherPps)
      rw [exec_referenceReturn mode, used]
      refine ⟨_, rfl, ?_, ?_, changesOnly_trans (changesOnly_referenceHere pps s) (changesOnly_refsBack _ _)⟩
      · rw [whenDo, if_pos rfl, starts]
      · rw [whenDo, if_pos rfl, starts]
        exact holds
    · rw [exec_referenceReturn mode, used, whenDo, if_pos rfl, refsBack_waits (refsPresent_referenceHere_missing missing)]
      exact ⟨_, rfl, rfl, changesOnly_referenceHere pps s⟩
  · intro t0 s back
    exact ⟨_, exec_holdoverEnd back, rfl, rfl, changesOnly_of fun p => by cases p <;> simp [Part.same]⟩
  · intro adj s loop follows mode low high
    exact ⟨_, exec_loopLocked loop follows mode low high, rfl, changesOnly_of fun p => by cases p <;> simp [Part.same]⟩

end Sys2Proof.Proofs
end

section
/-! PROOFS. PPS_IN stamps, reads that latch or pop, and the replicas (R12, R28, R232, R239, R249, R261, R266, R267). -/

namespace Sys2Proof.Proofs

open Sys2Proof Sys2Proof.Machine Sys2Proof.Safety Sys2Proof.Laws

/-! ## PPS_IN edges (R239, R240, R242, R261) -/

/-- The stamp of an edge that crossed PPS_IN at `T`: less its compensation, uncorrected in a time-base fault (R242, R261). -/
def ppsStamp (s : State) (T : Nat) : Nat :=
  stampCut (if faultAt s T then T else shiftT T (-(sgn 16 (fld 31 16 (cuAt s T R.timPpsCfg)) * (Config.nsUnit : Int))))

/-- The state with a stamp of PPS_IN taken and NEW set (R261). -/
def ppsStamped (T st : Nat) (s : State) : State :=
  stickRg R.timPpsInNs 31 { reach T s with tim := { (reach T s).tim with ppsIn := st } }

theorem exec_ppsInEdge_short {pulse : Nat} (short : pulse < 8) (T : Nat) (s : State) :
    exec (.ppsInEdge T pulse) s = .next s := by
  show execPpsInEdge T pulse s = _
  simp [execPpsInEdge, whenDo, Nat.not_le.mpr short]

section
variable {T pulse : Nat} {s : State} (mode : s.md.mode ≠ .reset) (long : 8 ≤ pulse)
include mode long

/-- An edge that is stamped, and what the loop does with the stamp's offset. -/
theorem exec_ppsInEdge : exec (.ppsInEdge T pulse) s = .next
    (if timSource s = 2 ∧ !s.tim.holdover ∧ secOffset (ppsStamp s T) ≠ 0 then
      if (1000000 < secOffset (ppsStamp s T) ∨ secOffset (ppsStamp s T) < -1000000) ∧ s.md.mode = .stage then
        startJump none (-secOffset (ppsStamp s T)) (ppsStamped T (ppsStamp s T) s)
      else startSlew (-secOffset (ppsStamp s T)) (ppsStamped T (ppsStamp s T) s)
    else ppsStamped T (ppsStamp s T) s) :=
  congrArg Host.Outcome.next (if_pos (by simp [mode, long]))

theorem exec_ppsInEdge_noted (free : timSource s ≠ 2 ∨ s.tim.holdover = true) :
    exec (.ppsInEdge T pulse) s = .next (ppsStamped T (ppsStamp s T) s) := by
  rw [exec_ppsInEdge mode long, if_neg]
  rintro ⟨loop, follows, -⟩
  rcases free with other | holds
  · exact other loop
  · simp [holds] at follows

theorem exec_ppsInEdge_step (loop : timSource s = 2) (follows : s.tim.holdover = false)
    (far : 1000000 < (secOffset (ppsStamp s T)).natAbs) (stage : s.md.mode = .stage) :
    exec (.ppsInEdge T pulse) s =
      .next (startJump none (-secOffset (ppsStamp s T)) (ppsStamped T (ppsStamp s T) s)) := by
  have off : secOffset (ppsStamp s T) ≠ 0 := by omega
  have beyond : 1000000 < secOffset (ppsStamp s T) ∨ secOffset (ppsStamp s T) < -1000000 := by omega
  rw [exec_ppsInEdge mode long, if_pos ⟨loop, by simp [follows], off⟩, if_pos ⟨beyond, stage⟩]

theorem exec_ppsInEdge_slew (loop : timSource s = 2) (follows : s.tim.holdover = false)
    (off : secOffset (ppsStamp s T) ≠ 0)
    (near : s.md.mode ≠ .stage ∨ (secOffset (ppsStamp s T)).natAbs ≤ 1000000) :
    exec (.ppsInEdge T pulse) s = .next (startSlew (-secOffset (ppsStamp s T)) (ppsStamped T (ppsStamp s T) s)) := by
  rw [exec_ppsInEdge mode long, if_pos ⟨loop, by simp [follows], off⟩, if_neg]
  rintro ⟨beyond, stage⟩
  rcases near with mode | near
  · exact mode stage
  · omega

end

theorem ppsStamped_tim (T st : Nat) (s : State) : (ppsStamped T st s).tim = { (reach T s).tim with ppsIn := st } := by
  simp [ppsStamped]

theorem ppsStamped_new {T st : Nat} {s : State} (canon : RegsCanonical s) :
    bit 31 (rg (ppsStamped T st s) R.timPpsInNs) = true :=
  bit_stickRg ((regsCanonical_congr rfl).mpr (regsCanonical_reach T canon)) (by decide)

theorem changesOnly_ppsStamped (T st : Nat) (s : State) : changesOnly [.time, .registers] (reach T s) (ppsStamped T st s) :=
  changesOnly_of fun p => by cases p <;> simp [Part.same, ppsStamped]

/-- In STAGE a STEP takes the offset of a stamp away, 128 ns later. -/
theorem ppsStepped_tim {T st : Nat} {s : State} (stage : s.md.mode = .stage) (idle : s.tim.jump = none) (d : Int) :
    (startJump none d (ppsStamped T st s)).tim =
      { (reach T s).tim with ppsIn := st, jump := some ⟨(reach T s).now + nsT 128, none, d, false⟩ } := by
  have taken : jumpTaken none d (ppsStamped T st s) = ⟨(reach T s).now + nsT 128, none, d, false⟩ := by
    simp [jumpTaken, ppsStamped, stage]
  have waits : (ppsStamped T st s).tim.jump = none := by rw [ppsStamped_tim, tim_reach]; exact idle
  rw [startJump_first waits, taken, ppsStamped_tim]

theorem ppsSlewed_tim (T st : Nat) (n : Int) (s : State) : (startSlew n (ppsStamped T st s)).tim =
    { (reach T s).tim with ppsIn := st, slewLeft := n * (Config.nsUnit : Int) } := by
  rw [startSlew, ppsStamped_tim]

/-! ## Reads of the stamp and of the counter (R232, R267) -/

/-- The state after a read of TIM_PPS_IN_NS: NEW clears, the other words are latched. -/
def ppsRead (s : State) : State :=
  answer (tNs s.tim.ppsIn + (if bit 31 (rg s R.timPpsInNs) then 2 ^ 31 else 0))
    (setRg R.timPpsInFrac (tFrac s.tim.ppsIn) (setRg R.timPpsInSec (tSec s.tim.ppsIn)
      (setRg R.timPpsInNs (tNs s.tim.ppsIn) s)))

/-- The state after a read of TIM_NOW_FRAC: the other words are latched. -/
def nowRead (s : State) : State :=
  answer (tFrac s.now) (setRg64 R.timNowSec (tSec s.now) (setRg R.timNowNs (tNs s.now) s))

theorem exec_ppsInRead {s : State} (opened : hostOpen s = true) (pt : Party) :
    exec (.ppsInRead pt) s = .next (ppsRead s) :=
  congrArg Host.Outcome.next (if_pos opened)

theorem exec_timeNowRead {s : State} (opened : hostOpen s = true) (pt : Party) :
    exec (.timeNowRead pt) s = .next (nowRead s) :=
  congrArg Host.Outcome.next (if_pos opened)

theorem rg_answer (v : Nat) (s : State) (k : Nat) : rg (answer v s) k = rg s k := rfl

theorem tNs_lt (t : Nat) : tNs t < 1000000000 := Nat.mod_lt _ (by decide)

theorem tFrac_lt (t : Nat) : tFrac t < 2 ^ 16 := Nat.mod_lt _ (by decide)

theorem ppsRead_state {s : State} (canon : RegsCanonical s) :
    bit 31 (rg (ppsRead s) R.timPpsInNs) = false ∧ rg (ppsRead s) R.timPpsInSec = tSec s.tim.ppsIn % 2 ^ 32 ∧
      rg (ppsRead s) R.timPpsInFrac = tFrac s.tim.ppsIn ∧ changesOnly [.latches, .registers] s (ppsRead s) := by
  have canon1 := regsCanonical_setRg R.timPpsInNs (tNs s.tim.ppsIn) canon
  have canon2 := regsCanonical_setRg R.timPpsInSec (tSec s.tim.ppsIn) canon1
  have ns := tNs_lt s.tim.ppsIn
  have frac := tFrac_lt s.tim.ppsIn
  refine ⟨?_, ?_, ?_, changesOnly_of fun p => by cases p <;> simp [Part.same, ppsRead]⟩
  · rw [ppsRead, rg_answer, rg_setRg_ne (by decide) _ canon2, rg_setRg_ne (by decide) _ canon1, rg_setRg _ _ canon,
      Nat.mod_eq_of_lt (by omega)]
    exact Nat.testBit_lt_two_pow (by omega)
  · rw [ppsRead, rg_answer, rg_setRg_ne (by decide) _ canon2, rg_setRg _ _ canon1]
  · rw [ppsRead, rg_answer, rg_setRg _ _ canon2, Nat.mod_eq_of_lt (by omega)]

/-- A 64-bit register reads as it was stored. -/
theorem rg64_setRg64 (off v : Nat) {s : State} (canon : RegsCanonical s) : rg64 (setRg64 off v s) off = v % 2 ^ 64 := by
  have canon1 := regsCanonical_setRg off v canon
  rw [rg64, setRg64, rg_setRg_ne (by omega) _ canon1, rg_setRg _ _ canon, rg_setRg _ _ canon1, Nat.shiftRight_eq_div_pow]
  omega

theorem registersBut_setRg64 (off v : Nat) {s : State} (canon : RegsCanonical s) :
    registersBut [off, off + 4] s (setRg64 off v s) := by
  have canon1 := regsCanonical_setRg off v canon
  exact registersBut_trans (registersBut_mono (registersBut_setRg off v canon) (by simp))
    (registersBut_mono (registersBut_setRg (off + 4) _ canon1) (by simp))

theorem nowRead_state {s : State} (canon : RegsCanonical s) :
    rg (nowRead s) R.timNowNs = tNs s.now % 2 ^ 32 ∧ rg64 (nowRead s) R.timNowSec = tSec s.now % 2 ^ 64 ∧
      registersBut [R.timNowNs, R.timNowSec, R.timNowSec + 4] s (nowRead s) ∧
      changesOnly [.latches, .registers] s (nowRead s) := by
  have canon1 := regsCanonical_setRg R.timNowNs (tNs s.now) canon
  have stored := registersBut_setRg64 R.timNowSec (tSec s.now) canon1
  refine ⟨?_, rg64_setRg64 R.timNowSec (tSec s.now) canon1, ?_,
    changesOnly_of fun p => by cases p <;> simp [Part.same, nowRead]⟩
  · rw [nowRead, rg_answer, rg_of_registersBut stored (by decide), rg_setRg _ _ canon]
  · exact registersBut_trans (registersBut_mono (registersBut_setRg R.timNowNs _ canon) (by simp))
      (registersBut_mono stored (by simp))

/-! ## FIFOs of stamps (R12, R249, R266) -/

/-- The state with an entry of a FIFO latched at `off`. -/
def entryLatched (off : Nat) (e : List Nat) (s : State) : State :=
  setRg (off + 12) (nth 0 e 3) (setRg (off + 8) (nth 0 e 2) (setRg (off + 4) (nth 0 e 1) s))

theorem fifoRead_entry (off : Nat) (e : List Nat) (es : List (List Nat)) (pop : List (List Nat) → State → State) (s : State) :
    fifoRead off (e :: es) pop s = answer (nth 0 e 0) (pop es (entryLatched off e s)) := rfl

theorem rg_entryLatched (off : Nat) (e : List Nat) {s : State} (canon : RegsCanonical s) :
    rg (entryLatched off e s) (off + 4) = nth 0 e 1 % 2 ^ 32 := by
  have canon1 := regsCanonical_setRg (off + 4) (nth 0 e 1) canon
  have canon2 := regsCanonical_setRg (off + 8) (nth 0 e 2) canon1
  rw [entryLatched, rg_setRg_ne (by omega) _ canon2, rg_setRg_ne (by omega) _ canon1, rg_setRg _ _ canon]

theorem tim_entryLatched (off : Nat) (e : List Nat) (s : State) : (entryLatched off e s).tim = s.tim := by simp [entryLatched]

section
variable {p : Nat} {s : State} (opened : hostOpen s = true) (below : p < 256)
include opened below

theorem exec_txfRead (pt : Party) : exec (.txfRead pt p) s = .next
    (if unusedNumber s p then answer 0 s
      else fifoRead (R.timTxfE0 p) (txStamps s p).fifo
        (fun es s => setTxStamps p { txStamps s p with fifo := es } s) s) :=
  congrArg Host.Outcome.next (if_pos (by simp [timOpen, opened, below]))

theorem exec_txfRead_nothing (pt : Party) (none : unusedNumber s p = true ∨ (txStamps s p).fifo = []) :
    exec (.txfRead pt p) s = .next (answer 0 s) := by
  rw [exec_txfRead opened below]
  split
  · rfl
  · next used => rw [none.resolve_left used, fifoRead]

theorem txfRead_entry {e : List Nat} {es : List (List Nat)} (canon : RegsCanonical s) (fifo : (txStamps s p).fifo = e :: es)
    (used : unusedNumber s p = false) (pt : Party) : ∃ t, exec (.txfRead pt p) s = .next t ∧
      t.lat.rdata = BitVec.ofNat 32 (nth 0 e 0) ∧ rg t (R.timTxfE0 p + 4) = nth 0 e 1 % 2 ^ 32 ∧
      txStamps t p = { txStamps s p with fifo := es } ∧ changesOnly [.latches, .time, .registers] s t := by
  rw [exec_txfRead opened below, used, fifo, if_neg Bool.false_ne_true, fifoRead_entry]
  refine ⟨_, rfl, rfl, rg_entryLatched _ e canon, ?_, changesOnly_of fun q => by
    cases q <;> simp [Part.same, entryLatched]⟩
  have same : txStamps (entryLatched (R.timTxfE0 p) e s) p = txStamps s p := by rw [txStamps, txStamps, tim_entryLatched]
  rw [← same]
  exact txStamps_setTxStamps p _ _

end

section
variable {u : Nat} {s : State} (opened : hostOpen s = true) (below : u < 16)
include opened below

theorem exec_captureFifoRead (pt : Party) : exec (.captureFifoRead pt u) s = .next
    (fifoRead (R.timCapE0 u) (capUnit s u).fifo (fun es s => setCap u { capUnit s u with fifo := es } s) s) :=
  congrArg Host.Outcome.next (if_pos (by simp [timOpen, opened, below]))

theorem captureFifoRead_entry {e : List Nat} {es : List (List Nat)} (canon : RegsCanonical s)
    (fifo : (capUnit s u).fifo = e :: es) (pt : Party) : ∃ t, exec (.captureFifoRead pt u) s = .next t ∧
      t.lat.rdata = BitVec.ofNat 32 (nth 0 e 0) ∧ rg t (R.timCapE0 u + 4) = nth 0 e 1 % 2 ^ 32 ∧
      capUnit t u = { capUnit s u with fifo := es } ∧ changesOnly [.latches, .time, .registers] s t := by
  rw [exec_captureFifoRead opened below, fifo, fifoRead_entry]
  refine ⟨_, rfl, rfl, rg_entryLatched _ e canon, ?_, changesOnly_of fun q => by
    cases q <;> simp [Part.same, entryLatched]⟩
  have same : capUnit (entryLatched (R.timCapE0 u) e s) u = capUnit s u := by rw [capUnit, capUnit, tim_entryLatched]
  rw [← same]
  exact capUnit_setCap u _ _

end

/-! ## Replicas (R28) -/

/-- The replicas aligned in a state, with what is left of their errors. -/
def realigned (errs : List Int) (u : State) : State :=
  { u with tim := { u.tim with
      aligned := u.elapsed, replicaErr := (List.range 72).map fun i => boundedErr (nth 0 errs i) } }

theorem exec_replicaRealign {s : State} (mode : s.md.mode ≠ .reset) (run : s.tim.stopped = false) (errs : List Int) :
    exec (.replicaRealign errs) s = .next (realigned errs (reachElapsed (s.tim.aligned + nsT 64) s)) :=
  congrArg Host.Outcome.next (if_pos (by simp [mode, run]))

theorem reachElapsed_at_least (e : Nat) (s : State) : e ≤ (reachElapsed e s).elapsed := by
  by_cases past : e ≤ s.elapsed
  · rw [reachElapsed_past e s past]; exact past
  · exact Nat.le_of_eq (reachElapsed_elapsed e s (by omega)).symm

theorem boundedErr_bounds (e : Int) : -Config.replicaBound ≤ boundedErr e ∧ boundedErr e ≤ Config.replicaBound := by
  have within : -Config.replicaBound ≤ Config.replicaBound := by decide
  unfold boundedErr
  omega

theorem boundedErr_within {e : Int} (low : -Config.replicaBound ≤ e) (high : e ≤ Config.replicaBound) : boundedErr e = e := by
  unfold boundedErr
  omega

theorem replicaErr_realigned (errs : List Int) (u : State) (i : Nat) :
    replicaErr (realigned errs u) i = if i < 72 then boundedErr (nth 0 errs i) else 0 := by
  simp only [replicaErr, realigned, nth, List.getElem?_map]
  split
  · next small => simp [List.getElem?_range small]
  · next large => simp [List.getElem?_eq_none (l := List.range 72) (by simpa using large)]

/-! ## The statement on stamps and reads -/

/-- Settles O34: an edge of PPS_IN is `ppsStamped`, after which the loop steps, slews or leaves it; a read of a stamp latches its
other words, and a FIFO gives up its head. That nothing follows the stamp in holdover is the model's choice (log entry 159). -/
theorem stampReads : Obligations.StampReads := by
  unfold Obligations.StampReads
  refine ⟨?_, ?_, ?_⟩
  · intro T pulse s mode
    refine ⟨fun short => ⟨s, exec_ppsInEdge_short short T s, changesOnly_refl [] s⟩, fun st long canon stamp => ?_⟩
    replace stamp : st = ppsStamp s T := stamp
    subst stamp
    have noted := changesOnly_ppsStamped T (ppsStamp s T) s
    refine ⟨fun free => ?_, fun loop follows off => ⟨fun ⟨stage, idle, far⟩ => ?_, fun near => ?_⟩⟩
    · exact ⟨_, exec_ppsInEdge_noted mode long free, ppsStamped_tim _ _ _, ppsStamped_new canon, noted⟩
    · exact ⟨_, exec_ppsInEdge_step mode long loop follows far stage, ppsStepped_tim stage idle _,
        changesOnly_trans noted (changesOnly_mono (changesOnly_startJump _ _ _) (by simp))⟩
    · exact ⟨_, exec_ppsInEdge_slew mode long loop follows off near, ppsSlewed_tim _ _ _ _,
        changesOnly_trans noted (changesOnly_mono (changesOnly_startSlew _ _) (by simp))⟩
  · intro pt s canon opened
    refine ⟨?_, ?_, fun p below e es fifo => ⟨fun used => ?_, fun unused => ?_⟩, fun p below empty => ?_,
      fun u below e es fifo => ?_, fun u below empty => ?_⟩
    · obtain ⟨old, sec, frac, only⟩ := ppsRead_state canon
      exact ⟨_, exec_ppsInRead opened pt, old, rfl, sec, frac, only⟩
    · exact ⟨_, exec_timeNowRead opened pt, rfl, nowRead_state canon⟩
    · exact txfRead_entry opened below canon fifo used pt
    · exact ⟨_, exec_txfRead_nothing opened below pt (.inl unused), rfl, changesOnly_answer 0 s⟩
    · exact ⟨_, exec_txfRead_nothing opened below pt (.inr empty), rfl, changesOnly_answer 0 s⟩
    · exact captureFifoRead_entry opened below canon fifo pt
    · rw [exec_captureFifoRead opened below, empty, fifoRead]
      exact ⟨_, rfl, rfl, changesOnly_answer 0 s⟩
  · intro errs u s mode run reached
    rw [exec_replicaRealign mode run errs, ← reached]
    refine ⟨_, rfl, rfl, ?_, ?_, fun i => ?_, fun i small low high => ?_,
      changesOnly_of fun p => by cases p <;> simp [Part.same, realigned]⟩
    · rw [reached]; exact reachElapsed_at_least _ s
    · simp [realigned]
    · rw [replicaErr_realigned]
      split
      · exact boundedErr_bounds _
      · decide
    · rw [replicaErr_realigned, if_pos small, boundedErr_within low high]

end Sys2Proof.Proofs
end

section
/-! PROOFS. PPS_OUT, the TIO outputs, the edges of the cycle generators and the capture units (R256 to R266). -/

namespace Sys2Proof.Proofs

open Sys2Proof Sys2Proof.Machine Sys2Proof.Safety Sys2Proof.Laws

/-! ## PPS_OUT (R261) -/

theorem secT_eq_mul (n : Nat) : secT n = n * secT 1 := by
  simp only [secT, nsT, Nat.one_mul, Nat.mul_assoc]

theorem le_nextSecond (t : Nat) : t ≤ nextSecond t := by
  rw [nextSecond, secT_eq_mul]
  exact le_ceilDiv_mul t (by decide)

/-- PPS_OUT rises in a state. -/
def ppsRises (u : State) : State := { u with pins := { u.pins with ppsOut := true, ppsRise := u.elapsed } }

/-- PPS_OUT falls in a state. -/
def ppsFalls (u : State) : State := { u with pins := { u.pins with ppsOut := false } }

theorem exec_ppsOutRise {s : State} (mode : s.md.mode ≠ .reset) (run : s.tim.stopped = false)
    (enabled : bit 0 (cu s R.timPpsCfg) = true) (low : s.pins.ppsOut = false) :
    exec .ppsOutRise s = .next (ppsRises (reach (nextSecond s.now) s)) :=
  congrArg Host.Outcome.next (if_pos (by simp [mode, run, enabled, low]))

theorem exec_ppsOutFall {s : State} (high : s.pins.ppsOut = true) :
    exec .ppsOutFall s = .next (ppsFalls (reachElapsed (s.pins.ppsRise + msT (cuF s R.timPpsCfg 10 1)) s)) :=
  congrArg Host.Outcome.next (if_pos high)

theorem ppsRises_reach (T : Nat) (s : State) : (ppsRises (reach T s)).pins =
    { s.pins with ppsOut := true, ppsRise := (ppsRises (reach T s)).elapsed } := by
  simp [ppsRises]

theorem ppsFalls_reachElapsed (e : Nat) (s : State) :
    (ppsFalls (reachElapsed e s)).pins = { s.pins with ppsOut := false } := by
  simp [ppsFalls]

theorem changesOnly_ppsRises (u : State) : changesOnly [.pins] u (ppsRises u) :=
  changesOnly_of fun p => by cases p <;> simp [Part.same, ppsRises]

theorem changesOnly_ppsFalls (u : State) : changesOnly [.pins] u (ppsFalls u) :=
  changesOnly_of fun p => by cases p <;> simp [Part.same, ppsFalls]

/-! ## TIO outputs (R260) -/

/-- The pulse of edge `k` starts in a state. -/
def pulseFor (u k : Nat) (s : State) : State :=
  tioRise u { s with tim := { s.tim with tioEdge := kvPut u k s.tim.tioEdge } }

/-- A pulse that was due starts in a state. -/
def pulseOwed (u : Nat) (d : Nat × Nat) (s : State) : State :=
  tioRise u { s with tim := { s.tim with tioDue := s.tim.tioDue.erase d } }

/-- A pulse ends in a state. -/
def pulseEnds (u : Nat) (s : State) : State := { s with pins := { s.pins with tioOut := s.pins.tioOut.filter (· != u) } }

section
variable {u : Nat} {s : State} (below : u < 16) (opened : hostOpen s = true) (output : bit 0 (cu s (R.timTioCfg u)) = true)
include below opened output

theorem exec_tioOutputStart_next (inactive : u ∉ s.pins.tioOut) (none : (s.tim.tioDue.find? fun d => d.1 == u) = none)
    (on : genOn s (fld 6 2 (cu s (R.timTioCfg u))) = true) (free : timeHeld s (tioPulse s u).2 = false) :
    exec (.tioOutputStart u) s = .next (pulseFor u (tioPulse s u).1 (reach (tioPulse s u).2 s)) := by
  show execTioOutputStart u s = _
  simp [execTioOutputStart, whenDo, tioOpen, below, opened, output, inactive, none, on, free, pulseFor]

theorem exec_tioOutputStart_due {d : Nat × Nat} (inactive : u ∉ s.pins.tioOut)
    (due : (s.tim.tioDue.find? fun d => d.1 == u) = some d) :
    exec (.tioOutputStart u) s = .next (pulseOwed u d (reachElapsed d.2 s)) := by
  show execTioOutputStart u s = _
  simp [execTioOutputStart, whenDo, tioOpen, below, opened, output, inactive, due, pulseOwed]

end

theorem exec_tioOutputStart_active {u : Nat} {s : State} (active : u ∈ s.pins.tioOut) :
    exec (.tioOutputStart u) s = .next s := by
  show execTioOutputStart u s = _
  simp [execTioOutputStart, whenDo, active]

theorem exec_tioOutputEnd {u : Nat} {s : State} (active : u ∈ s.pins.tioOut) : exec (.tioOutputEnd u) s =
    .next (pulseEnds u (reachElapsed (kvGetD 0 u s.tim.tioStart + nsT (cuF s (R.timTioWidth u) 29 0)) s)) :=
  congrArg Host.Outcome.next (if_pos (by simpa using active))

/-- After the pulse for an edge the next one is for a later edge. -/
theorem tioPulse_after (u k : Nat) (s : State) : k < (tioPulse (pulseFor u k s) u).1 := by
  have noted : kvGet u (pulseFor u k s).tim.tioEdge = some k := kvGet_kvPut u k s.tim.tioEdge
  simp only [tioPulse, noted]
  exact Nat.lt_of_lt_of_le (Nat.lt_succ_self k) (Nat.le_max_right _ _)

theorem mem_tioRise (u : Nat) (s : State) : u ∈ (tioRise u s).pins.tioOut := List.mem_append_right _ List.mem_cons_self

theorem changesOnly_pulseFor (u k : Nat) (s : State) : changesOnly [.pins, .time] s (pulseFor u k s) :=
  changesOnly_of fun p => by cases p <;> simp [Part.same, pulseFor]

theorem changesOnly_pulseOwed (u : Nat) (d : Nat × Nat) (s : State) : changesOnly [.pins, .time] s (pulseOwed u d s) :=
  changesOnly_of fun p => by cases p <;> simp [Part.same, pulseOwed]

theorem changesOnly_pulseEnds (u : Nat) (s : State) : changesOnly [.pins] s (pulseEnds u s) :=
  changesOnly_of fun p => by cases p <;> simp [Part.same, pulseEnds]

theorem pulseOwed_reachElapsed (u : Nat) (d : Nat × Nat) (s : State) :
    d.2 ≤ (pulseOwed u d (reachElapsed d.2 s)).elapsed ∧
      (pulseOwed u d (reachElapsed d.2 s)).tim.tioDue = s.tim.tioDue.erase d := by
  have due : (reachElapsed d.2 s).tim.tioDue = s.tim.tioDue := by rw [tim_reachElapsed]
  refine ⟨reachElapsed_at_least d.2 s, ?_⟩
  rw [← due]
  simp [pulseOwed, tioRise]

theorem not_mem_pulseEnds (u : Nat) (s : State) : u ∉ (pulseEnds u s).pins.tioOut := by
  simp [pulseEnds]

/-! ## Capture units (R262 to R266) -/

/-- The stamp of an edge that crossed pin u at `T`: less IN_COMP, uncorrected in a time-base fault (R242, R263). -/
def capStamp (s : State) (u T : Nat) : Nat :=
  stampCut (if faultAt s T then T else shiftT T (-(sixteenths 16 (fld 31 16 (cuAt s T (R.timTioComp u))))))

/-- The state in which an edge at `T` is judged: the time has come and the pin has its level. -/
def edgeIn (u : Nat) (high : Bool) (T : Nat) (s : State) : State := tioLevel u high (reach T s)

section
variable {u T pulse : Nat} {high : Bool} {s : State} (below : u < 16) (opened : hostOpen s = true)
  (samples : bit 7 (cu s (R.timTioCfg u)) = true) (input : bit 0 (cu s (R.timTioCfg u)) = false)
include below opened samples input

theorem exec_captureEdge_fed (fed : fedUnit s u = true) :
    exec (.captureEdge u high T pulse) s = .next (edgeIn u high T s) := by
  show execCaptureEdge u high T pulse s = _
  simp [execCaptureEdge, whenDo, below, opened, samples, input, fed, edgeIn]

theorem exec_captureEdge_glitch (pin : fedUnit s u = false) (short : pulse < fld 19 10 (cu s (R.timTioCfg u))) :
    exec (.captureEdge u high T pulse) s = .next (incRg (R.timCapGlitch u) s) := by
  show execCaptureEdge u high T pulse s = _
  simp [execCaptureEdge, whenDo, below, opened, samples, input, pin, short]

theorem exec_captureEdge_judged (pin : fedUnit s u = false) (long : fld 19 10 (cu s (R.timTioCfg u)) ≤ pulse) :
    exec (.captureEdge u high T pulse) s =
      .next (captureJudge u T (capStamp s u T) (high != bit 1 (cu s (R.timTioCfg u))) (edgeIn u high T s)) := by
  show execCaptureEdge u high T pulse s = _
  simp [execCaptureEdge, whenDo, below, opened, samples, input, pin, Nat.not_lt.mpr long, edgeIn, capStamp]

end

theorem capUnit_congr {s t : State} (h : t.tim.caps = s.tim.caps) (u : Nat) : capUnit t u = capUnit s u := by
  rw [capUnit, capUnit, h]

theorem cuF_congr {s t : State} (h : t.regs = s.regs) (off hi lo : Nat) : cuF t off hi lo = cuF s off hi lo := by
  rw [cuF, cuF, cu, cu, h]

theorem capUnit_reach (T : Nat) (s : State) (u : Nat) : capUnit (reach T s) u = capUnit s u :=
  capUnit_congr (by rw [tim_reach]) u

theorem capUnit_edgeIn (u : Nat) (high : Bool) (T : Nat) (s : State) : capUnit (edgeIn u high T s) u = capUnit s u :=
  capUnit_reach T s u

theorem changesOnly_edgeIn (u : Nat) (high : Bool) (T : Nat) (s : State) :
    changesOnly [.pins] (reach T s) (edgeIn u high T s) :=
  changesOnly_of fun p => by cases p <;> simp [Part.same, edgeIn]

/-- The level of an input touches neither the count nor the entries of its unit, nor its last edge. -/
theorem capUnit_inputLevel (u t : Nat) (active : Bool) (s : State) :
    (capUnit (inputLevel u t active s) u).count = (capUnit s u).count ∧
      (capUnit (inputLevel u t active s) u).fifo = (capUnit s u).fifo := by
  unfold inputLevel
  dsimp only
  rw [capUnit_setCap]
  exact ⟨rfl, rfl⟩

theorem changesOnly_inputLevel (u t : Nat) (active : Bool) (s : State) : changesOnly [.time] s (inputLevel u t active s) :=
  changesOnly_of fun p => by cases p <;> simp [Part.same]

/-- A unit that has captured an edge stamped `t` (R266). -/
def captured (u t : Nat) (active bad : Bool) (s : State) : CapUnit :=
  { capUnit s u with
    count := ((capUnit s u).count + 1) % 65536, last := some t,
    fifo := if (capUnit s u).fifo.length < 16 then
        (capUnit s u).fifo ++ [[tNs t + b2n bad * 2 ^ 30 + 2 ^ 31, tSec t % 2 ^ 32,
          tFrac t + ((capUnit s u).count + 1) % 65536 * 2 ^ 16, b2n active]]
      else (capUnit s u).fifo }

/-- Of the time base, a capture changes only its unit. -/
theorem tim_captureNow (u t : Nat) (active bad : Bool) (s : State) :
    (captureNow u t active bad s).tim = (setCap u (captured u t active bad s) s).tim := by
  simp [captureNow, captured]

theorem capUnit_captureNow (u t : Nat) (active bad : Bool) (s : State) :
    capUnit (captureNow u t active bad s) u = captured u t active bad s :=
  (capUnit_congr (congrArg Tim.caps (tim_captureNow u t active bad s)) u).trans (capUnit_setCap u _ s)

theorem captured_fifo {u : Nat} {s : State} (room : (capUnit s u).fifo.length < 16) (t : Nat) (active bad : Bool) :
    ∃ e, (captured u t active bad s).fifo = (capUnit s u).fifo ++ [e] :=
  ⟨_, if_pos room⟩

theorem changesOnly_captureJudge (u t st : Nat) (active : Bool) (s : State) :
    changesOnly [.host, .time, .recorder, .registers] s (captureJudge u t st active s) :=
  changesOnly_of fun p => by cases p <;> simp [Part.same]

/-- An edge stamped `st` comes before the minimum interval after the last edge of its unit has passed (R264). -/
def withinInterval (s : State) (u st : Nat) : Bool :=
  match (capUnit s u).last with
  | some l => decide (st < l + nsT (cuF s (R.timCapMinInt u) 29 0))
  | none => false

theorem withinInterval_none {u : Nat} {s : State} (first : (capUnit s u).last = none) (st : Nat) :
    withinInterval s u st = false := by
  rw [withinInterval, first]

theorem withinInterval_some {u l : Nat} {s : State} (last : (capUnit s u).last = some l) (st : Nat) :
    withinInterval s u st = decide (st < l + nsT (cuF s (R.timCapMinInt u) 29 0)) := by
  rw [withinInterval, last]

section
variable {u t st : Nat} {active : Bool} {s : State} (both : cuF s (R.timTioCfg u) 9 8 = 3)
include both

/-- An edge is judged by the minimum interval and by STUCK alone where both edges are selected. -/
theorem captureJudge_both : captureJudge u t st active s =
    if withinInterval s u st then incRg (R.timCapFast u) (inputLevel u t active s)
    else if (capUnit s u).stuck then inputLevel u t active s
    else captureNow u st active (faultAt s t) (inputLevel u t active s) := by
  have picked : (if active then bit 0 3 else bit 1 3) = true := by cases active <;> rfl
  unfold captureJudge
  simp only [both, picked, Bool.not_true, Bool.false_eq_true, if_false]
  rfl

/-- A stuck unit captures nothing. -/
theorem captureJudge_stuck (first : (capUnit s u).last = none) (stuck : (capUnit s u).stuck = true) :
    (capUnit (captureJudge u t st active s) u).count = (capUnit s u).count ∧
      (capUnit (captureJudge u t st active s) u).fifo = (capUnit s u).fifo ∧
      changesOnly [.time] s (captureJudge u t st active s) := by
  obtain ⟨count, fifo⟩ := capUnit_inputLevel u t active s
  rw [captureJudge_both both, withinInterval_none first, if_neg Bool.false_ne_true, if_pos stuck]
  exact ⟨count, fifo, changesOnly_inputLevel u t active s⟩

/-- The first edge of a unit is counted and enters its FIFO. -/
theorem captureJudge_first (first : (capUnit s u).last = none) (free : (capUnit s u).stuck = false)
    (room : (capUnit s u).fifo.length < 16) :
    ∃ e, (capUnit (captureJudge u t st active s) u).count = ((capUnit s u).count + 1) % 65536 ∧
      (capUnit (captureJudge u t st active s) u).fifo = (capUnit s u).fifo ++ [e] ∧
      (capUnit (captureJudge u t st active s) u).last = some st := by
  obtain ⟨count, fifo⟩ := capUnit_inputLevel u t active s
  obtain ⟨e, entered⟩ := captured_fifo (by rwa [fifo]) st active (faultAt s t)
  rw [captureJudge_both both, withinInterval_none first, if_neg Bool.false_ne_true, if_neg (by simp [free]),
    capUnit_captureNow]
  exact ⟨e, by rw [captured, count], by rw [entered, fifo], rfl⟩

/-- An edge that comes before the minimum interval has passed is counted as FAST alone. -/
theorem captureJudge_fast {l : Nat} (last : (capUnit s u).last = some l)
    (early : st < l + nsT (cuF s (R.timCapMinInt u) 29 0)) (canon : RegsCanonical s) :
    (capUnit (captureJudge u t st active s) u).count = (capUnit s u).count ∧
      (capUnit (captureJudge u t st active s) u).fifo = (capUnit s u).fifo ∧
      rg (captureJudge u t st active s) (R.timCapFast u) = (rg s (R.timCapFast u) + 1) % 2 ^ 32 ∧
      changesOnly [.time, .registers] s (captureJudge u t st active s) := by
  obtain ⟨count, fifo⟩ := capUnit_inputLevel u t active s
  have same : (inputLevel u t active s).regs = s.regs := changesOnly_inputLevel u t active s .registers (by decide)
  rw [captureJudge_both both, withinInterval_some last, if_pos (decide_eq_true early),
    capUnit_congr (s := inputLevel u t active s) (by simp), rg_incRg _ ((regsCanonical_congr same).mpr canon), rg_congr same]
  exact ⟨count, fifo, rfl, changesOnly_trans (changesOnly_mono (changesOnly_inputLevel u t active s) (by simp))
    (changesOnly_mono (changesOnly_incRg _ _) (by simp))⟩

end

theorem exec_stuckActive {u t0 : Nat} {s : State} (since : (capUnit s u).activeSince = some t0)
    (free : (capUnit s u).stuck = false) (reads : readsPin s u = true) (on : 0 < cuF s (R.timCapStuck u) 19 0) :
    exec (.stuckActive u) s = .next (alarm 0x0108 93 u (setCap u
      { capUnit (reach (t0 + usT (cuF s (R.timCapStuck u) 19 0)) s) u with stuck := true }
      (reach (t0 + usT (cuF s (R.timCapStuck u) 19 0)) s))) := by
  show execStuckActive u s = _
  simp [execStuckActive, since, whenDo, free, reads, on]

theorem capUnit_alarm (code island detail : Nat) (s : State) (u : Nat) : capUnit (alarm code island detail s) u = capUnit s u :=
  capUnit_congr (by simp) u

theorem changesOnly_alarm_setCap (code island detail u : Nat) (x : CapUnit) (s : State) :
    changesOnly [.host, .time, .registers] s (alarm code island detail (setCap u x s)) :=
  changesOnly_of fun p => by cases p <;> simp [Part.same]

/-! ## Edges of the cycle generators (R256 to R259) -/

/-- The generators, and those that have made no edge since the last time-base fault, are as before. -/
def sameGens (s t : State) : Prop := t.tim.gens = s.tim.gens ∧ t.tim.heldGens = s.tim.heldGens

theorem sameGens_of_tim {s t : State} (h : t.tim = s.tim) : sameGens s t := ⟨congrArg Tim.gens h, congrArg Tim.heldGens h⟩

theorem sameGens_trans {s t u : State} (h : sameGens s t) (k : sameGens t u) : sameGens s u :=
  ⟨k.1.trans h.1, k.2.trans h.2⟩

theorem sameGens_whenDo {f : State → State} (same : ∀ s, sameGens s (f s)) (c : Bool) (s : State) :
    sameGens s (whenDo c f s) := by
  cases c
  · exact ⟨rfl, rfl⟩
  · exact same s

theorem sameGens_ite {c : Prop} [Decidable c] {s t u : State} (h : sameGens s t) (k : sameGens s u) :
    sameGens s (if c then t else u) := by
  split
  · exact h
  · exact k

theorem sameGens_captureNow (u t : Nat) (active bad : Bool) (s : State) : sameGens s (captureNow u t active bad s) :=
  sameGens_trans (t := setCap u (captured u t active bad s) s) ⟨rfl, rfl⟩ (sameGens_of_tim (tim_captureNow u t active bad s))

theorem sameGens_captureJudge (u t st : Nat) (active : Bool) (s : State) : sameGens s (captureJudge u t st active s) := by
  have level : sameGens s (inputLevel u t active s) := ⟨rfl, rfl⟩
  have counted : sameGens s (incRg (R.timCapFast u) (inputLevel u t active s)) :=
    sameGens_trans level (sameGens_of_tim (by simp))
  exact sameGens_ite level (sameGens_ite counted (sameGens_ite level
    (sameGens_trans level (sameGens_captureNow u st active _ _))))

theorem sameGens_feedCapture (u t : Nat) (s : State) : sameGens s (feedCapture u t s) :=
  sameGens_trans (sameGens_captureJudge u t (stampCut t) true s) ⟨rfl, rfl⟩

theorem sameGens_tioEdges (g k : Nat) (s : State) : sameGens s (tioEdges g k s) := by
  unfold tioEdges
  refine forAll_rel (R := sameGens) (fun _ => ⟨rfl, rfl⟩) (fun _ _ _ => sameGens_trans) (fun u s => ?_) _ s
  refine sameGens_whenDo (fun v => ?_) _ s
  exact ⟨rfl, rfl⟩

theorem sameGens_edgeRecorder (g k t : Nat) (s : State) : sameGens s (edgeRecorder g k t s) := sameGens_of_tim (by simp)

theorem sameGens_syncUnits (g k : Nat) (s : State) : sameGens s (syncUnits g k s) := sameGens_of_tim (by simp)

theorem sameGens_modRec (f : Recorder → Recorder) (s : State) : sameGens s (modRec f s) := ⟨rfl, rfl⟩

theorem sameGens_oneCycle {f g : State → State} (first : ∀ s, sameGens s (f s)) (second : ∀ s, sameGens s (g s)) (s : State) :
    sameGens s (oneCycle f g s) := by
  unfold oneCycle
  dsimp only
  split
  · exact sameGens_trans (first s) (second _)
  · exact sameGens_trans (sameGens_trans (first s) (sameGens_modRec _ _))
      (sameGens_trans (second _) (sameGens_modRec _ _))

/-- A generator with its next edge noted, before what the edge drives. -/
def edgeNoted (g : Nat) (s : State) : State :=
  let s1 := cycMarks g (reach (edgeAt s g (nextEdge s g)) s)
  setGen g { cycleGen s1 g with k := some (nextEdge s g), at_ := edgeAt s g (nextEdge s g), fresh := false, made := true }
    { s1 with tim := { s1.tim with heldGens := s1.tim.heldGens.filter (· != g) } }

/-- What an edge drives leaves the generators as they are. -/
theorem sameGens_makeEdge {g : Nat} {s : State} (free : timeHeld s (edgeAt s g (nextEdge s g)) = false) :
    sameGens (edgeNoted g s) (makeEdge g s) := by
  unfold makeEdge edgeNoted
  dsimp only
  rw [if_neg (by simp [free])]
  refine sameGens_trans (sameGens_trans (sameGens_trans ?_ (sameGens_tioEdges g (nextEdge s g) _)) (sameGens_oneCycle ?_ ?_ _))
    (sameGens_syncUnits g (nextEdge s g) _)
  · refine sameGens_whenDo (fun v => ?_) _ _
    exact ⟨rfl, rfl⟩
  · exact sameGens_whenDo (sameGens_feedCapture _ _) _
  · exact sameGens_edgeRecorder g _ _

theorem makeEdge_gen {g : Nat} {s : State} (free : timeHeld s (edgeAt s g (nextEdge s g)) = false) :
    (cycleGen (makeEdge g s) g).k = some (nextEdge s g) ∧ (cycleGen (makeEdge g s) g).at_ = edgeAt s g (nextEdge s g) ∧
      (cycleGen (makeEdge g s) g).fresh = false ∧ g ∉ (makeEdge g s).tim.heldGens := by
  obtain ⟨gens, held⟩ := sameGens_makeEdge free
  have gen : cycleGen (makeEdge g s) g = cycleGen (edgeNoted g s) g := by rw [cycleGen, cycleGen, gens]
  rw [gen, held, edgeNoted, cycleGen_setGen]
  exact ⟨rfl, rfl, rfl, by simp [setGen]⟩

theorem exec_cycleEdge {g : Nat} {s : State} (below : g < 32) (on : genOn s g = true) (run : s.tim.stopped = false) :
    exec (.cycleEdge g) s = .next (makeEdge g s) :=
  congrArg Host.Outcome.next (if_pos (by simp [below, on, run]))

theorem makeEdge_held {g : Nat} {s : State} (held : timeHeld s (edgeAt s g (nextEdge s g)) = true) : makeEdge g s = s :=
  if_pos held

theorem changesOnly_makeEdge (g : Nat) (s : State) : changesOnly [.host, .links, .time, .buffer, .engines, .recorder,
    .counters, .registers, .masterTime, .elapsed] s (makeEdge g s) :=
  changesOnly_of fun p => by cases p <;> simp [Part.same]

/-! ## The statement on edges and captures -/

/-- Settles O35: each output is a change of its pin once its time has come; an edge is `makeEdge`, which leaves its generator as
noted; an edge of a pin is judged, and captured or not, by `captureJudge`. -/
theorem edgesAndCaptures : Obligations.EdgesAndCaptures := by
  unfold Obligations.EdgesAndCaptures
  refine ⟨⟨?_, ?_, ?_, ?_, ?_⟩, ?_, ?_⟩
  · intro s mode run enabled low inRange
    refine ⟨_, exec_ppsOutRise mode run enabled low, ppsRises_reach _ s, reach_now _ s run (le_nextSecond s.now) inRange,
      changesOnly_trans (changesOnly_mono (changesOnly_reach _ s) (by simp))
        (changesOnly_mono (changesOnly_ppsRises _) (by simp))⟩
  · intro s high
    exact ⟨_, exec_ppsOutFall high, ppsFalls_reachElapsed _ s, changesOnly_ppsFalls _⟩
  · intro u s below opened output
    refine ⟨fun inactive => ⟨fun none on free => ?_, fun d due => ?_⟩, fun active => ?_⟩
    · exact ⟨_, exec_tioOutputStart_next below opened output inactive none on free, mem_tioRise u _, tioPulse_after u _ _,
        changesOnly_pulseFor u _ _⟩
    · obtain ⟨reached, left⟩ := pulseOwed_reachElapsed u d s
      exact ⟨_, exec_tioOutputStart_due below opened output inactive due, mem_tioRise u _, reached, left,
        changesOnly_pulseOwed u d _⟩
    · exact ⟨s, exec_tioOutputStart_active active, changesOnly_refl [] s⟩
  · intro u s active
    exact ⟨_, exec_tioOutputEnd active, not_mem_pulseEnds u _, changesOnly_pulseEnds u _⟩
  · intro g s below on run
    refine ⟨fun free => ?_, fun held => ?_⟩
    · obtain ⟨k, at_, fresh, resumed⟩ := makeEdge_gen free
      exact ⟨_, exec_cycleEdge below on run, k, at_, fresh, resumed, changesOnly_makeEdge g s⟩
    · rw [exec_cycleEdge below on run, makeEdge_held held]
      exact ⟨s, rfl, changesOnly_refl [] s⟩
  · intro u T pulse high s below opened samples input
    refine ⟨fun fed => ?_, fun pin => ⟨fun short canon => ?_, fun st long both stamp => ?_⟩⟩
    · exact ⟨_, exec_captureEdge_fed below opened samples input fed, changesOnly_edgeIn u high T s⟩
    · exact ⟨_, exec_captureEdge_glitch below opened samples input pin short, rg_incRg _ canon, registersBut_incRg _ canon,
        changesOnly_incRg _ s⟩
    · replace stamp : st = capStamp s u T := stamp
      subst stamp
      have unit := capUnit_edgeIn u high T s
      have level := changesOnly_edgeIn u high T s
      have regs : (edgeIn u high T s).regs = (reach T s).regs := level .registers (by decide)
      rw [exec_captureEdge_judged below opened samples input pin long, ← unit, ← rg_congr regs, ← regsCanonical_congr regs]
      rw [← cuF_congr regs] at both
      rw [← cuF_congr regs]
      refine ⟨fun first stuck => ?_, fun first free room => ?_, fun l last early canon => ?_⟩
      · obtain ⟨count, fifo, only⟩ := captureJudge_stuck both first stuck
        exact ⟨_, rfl, count, fifo, changesOnly_trans (changesOnly_mono level (by simp)) (changesOnly_mono only (by simp))⟩
      · obtain ⟨e, count, fifo, last⟩ := captureJudge_first both first free room
        exact ⟨_, e, rfl, count, fifo, last, changesOnly_trans (changesOnly_mono (changesOnly_reach T s) (by simp))
          (changesOnly_trans (changesOnly_mono level (by simp))
            (changesOnly_mono (changesOnly_captureJudge _ _ _ _ _) (by simp)))⟩
      · obtain ⟨count, fifo, fast, only⟩ := captureJudge_fast both last early canon
        exact ⟨_, rfl, count, fifo, fast,
          changesOnly_trans (changesOnly_mono level (by simp)) (changesOnly_mono only (by simp))⟩
  · intro u t0 s since free reads on
    refine ⟨_, exec_stuckActive since free reads on, ?_, changesOnly_alarm_setCap _ _ _ _ _ _⟩
    rw [capUnit_alarm, capUnit_setCap, capUnit_reach]

end Sys2Proof.Proofs
end

section
/-! PROOFS. Table commands through the table command register (R97, R132, R337): what its taking a command, the buffer that the
command reads or writes and its answer leave, for each form of command. -/

namespace Sys2Proof.Proofs

open Sys2Proof Sys2Proof.Machine Sys2Proof.Safety Sys2Proof.Laws

/-! ## Frames -/

/-- A part that is named but reads as before need not be named. -/
theorem changesOnly_drop {p : Part} {ps : List Part} {s t : State} (h : changesOnly (p :: ps) s t) (same : p.same s t) :
    changesOnly ps s t := fun x out =>
  if e : x = p then e ▸ same else h x (by simp [e, out])

/-! ## Runs of stores -/

/-- The registers `off i` stored one after another with `val i`. -/
def storeEach (off val : Nat → Nat) (l : List Nat) (s : State) : State := forAll (fun i s => setRg (off i) (val i) s) l s

theorem changesOnly_storeEach (off val : Nat → Nat) (l : List Nat) (s : State) :
    changesOnly [.registers] s (storeEach off val l s) :=
  forAll_rel (fun s => changesOnly_refl _ s) (fun _ _ _ => changesOnly_trans) (fun _ _ => changesOnly_setRg _ _ _) l s

theorem regsCanonical_storeEach (off val : Nat → Nat) (l : List Nat) {s : State} (h : RegsCanonical s) :
    RegsCanonical (storeEach off val l s) :=
  forAll_rel (R := fun s t => RegsCanonical s → RegsCanonical t) (fun _ h => h) (fun _ _ _ h k c => k (h c))
    (fun _ _ => regsCanonical_setRg _ _) l s h

theorem registersBut_storeEach (off val : Nat → Nat) : ∀ (l : List Nat) {s : State}, RegsCanonical s →
    registersBut (l.map off) s (storeEach off val l s)
  | [], _, _ => registersBut_of_regs rfl _
  | i :: l, s, canon => by
    have first := registersBut_setRg (off i) (val i) canon
    have later := registersBut_storeEach off val l (regsCanonical_setRg (off i) (val i) canon)
    exact registersBut_trans (registersBut_mono first (by simp)) (registersBut_mono later (by simp))

/-- Registers at different offsets each hold what was stored in them. -/
theorem rg_storeEach {off : Nat → Nat} (apart : ∀ i j, off i = off j → i = j) (val : Nat → Nat) :
    ∀ (l : List Nat) {s : State}, RegsCanonical s → ∀ i, i ∈ l → rg (storeEach off val l s) (off i) = val i % 2 ^ 32
  | [], _, _, i, m => by simp at m
  | j :: l, s, canon, i, m => by
    have stored := regsCanonical_setRg (off j) (val j) canon
    by_cases later : i ∈ l
    · exact rg_storeEach apart val l stored i later
    · obtain rfl : i = j := by simpa [later] using m
      have kept := registersBut_storeEach off val l stored
      refine (rg_of_registersBut kept ?_).trans (rg_setRg _ _ canon)
      simpa using fun k hk same => later (apart k i same ▸ hk)

/-! ## Counters of the host unit -/

/-- Counting an event touches no register but the overflow bits of its unit. -/
theorem registers_pmuAdd (u k n : Nat) (s : State) (h : RegsCanonical s) :
    RegsCanonical (pmuAdd u k n s) ∧ registersBut [R.pmuOvf u] s (pmuAdd u k n s) := by
  refine ⟨regsCanonical_pmuAdd u k n h, ?_⟩
  unfold pmuAdd
  split
  · exact registersBut_of_regs rfl _
  · dsimp only [whenDo]
    split
    · exact registersBut_stickRg (s := { s with pmu := _ }) (R.pmuOvf u) k h
    · exact registersBut_of_regs rfl _

theorem registers_pmuEv (u code : Nat) (sel : Option (Nat × Bool)) (sub : Option Nat) (n : Nat) (s : State) (h : RegsCanonical s) :
    RegsCanonical (pmuEv u code sel sub n s) ∧ registersBut [R.pmuOvf u] s (pmuEv u code sel sub n s) := by
  unfold pmuEv
  split
  · exact ⟨h, registersBut_of_regs rfl _⟩
  · refine forAll_rel (R := fun s t => RegsCanonical s → RegsCanonical t ∧ registersBut [R.pmuOvf u] s t)
      (fun _ c => ⟨c, registersBut_of_regs rfl _⟩)
      (fun _ _ _ first later c => ⟨(later (first c).1).1, registersBut_trans (first c).2 (later (first c).1).2⟩)
      (fun k t c => ?_) _ s h
    dsimp only [whenDo]
    split
    · exact registers_pmuAdd u k n t c
    · exact ⟨c, registersBut_of_regs rfl _⟩

/-! ## A command taken -/

/-- The state once the image stands in the table command register. -/
def imageStored (q : CmdSpec) (c : Cmd) (s : State) : State :=
  storeEach R.fdbTcmd (nth 0 (tcmdWords q c)) (List.range 8) s

/-- The state once the table command register has its image and is busy. -/
def tcmdTaken (q : CmdSpec) (c : Cmd) (s : State) : State :=
  { imageStored q c s with tab := { (imageStored q c s).tab with tcmdBusy := true } }

/-- Where its answer goes. -/
def tcmdWaiter (q : CmdSpec) (c : Cmd) (s : State) : Waiter := ⟨.tcmd, q.target, q.opcode, c.tag % 2 ^ 32, 0, s.host.epoch⟩

theorem changesOnly_tcmdTaken (q : CmdSpec) (c : Cmd) (s : State) : changesOnly [.tables, .registers] s (tcmdTaken q c s) :=
  changesOnly_trans (t := imageStored q c s) (changesOnly_mono (changesOnly_storeEach _ _ _ s) (by simp))
    (changesOnly_of fun p => by cases p <;> simp [Part.same, tcmdTaken])

@[simp] theorem tcmdTaken_tab (q : CmdSpec) (c : Cmd) (s : State) : (tcmdTaken q c s).tab = { s.tab with tcmdBusy := true } := by
  have kept : (imageStored q c s).tab = s.tab := changesOnly_storeEach _ _ _ s .tables (by decide)
  simp [tcmdTaken, kept]

@[simp] theorem tcmdTaken_gen (q : CmdSpec) (c : Cmd) (s : State) : (tcmdTaken q c s).gen = s.gen :=
  changesOnly_tcmdTaken q c s .generations (by decide)

@[simp] theorem tcmdTaken_svc (q : CmdSpec) (c : Cmd) (s : State) : (tcmdTaken q c s).svc = s.svc :=
  changesOnly_tcmdTaken q c s .service (by decide)

@[simp] theorem tcmdTaken_hmem (q : CmdSpec) (c : Cmd) (s : State) : (tcmdTaken q c s).hmem = s.hmem :=
  changesOnly_tcmdTaken q c s .hostMemory (by decide)

theorem regs_tcmdTaken (q : CmdSpec) (c : Cmd) (s : State) : (tcmdTaken q c s).regs = (imageStored q c s).regs := rfl

theorem regsCanonical_tcmdTaken (q : CmdSpec) (c : Cmd) {s : State} (h : RegsCanonical s) : RegsCanonical (tcmdTaken q c s) :=
  (regsCanonical_congr (regs_tcmdTaken q c s)).mpr (regsCanonical_storeEach _ _ _ h)

theorem registersBut_tcmdTaken (q : CmdSpec) (c : Cmd) {s : State} (h : RegsCanonical s) :
    registersBut ((List.range 8).map R.fdbTcmd) s (tcmdTaken q c s) :=
  registersBut_trans (t := imageStored q c s) (registersBut_storeEach _ _ _ h) (registersBut_of_regs (regs_tcmdTaken q c s) _)

/-- The registers that say which regions are locked are not the image's. -/
theorem regionLocked_tcmdTaken (q : CmdSpec) (c : Cmd) {s : State} (h : RegsCanonical s) {i : Nat} (small : i < 0x200) :
    regionLocked (tcmdTaken q c s) i = regionLocked s i := by
  have prot : (tcmdTaken q c s).prot = s.prot := changesOnly_tcmdTaken q c s .protection (by decide)
  have map : rg (tcmdTaken q c s) (R.prtMap (i / 32)) = rg s (R.prtMap (i / 32)) := by
    refine rg_of_registersBut (registersBut_tcmdTaken q c h) ?_
    simp only [List.mem_map, List.mem_range, R.fdbTcmd, R.prtMap]
    rintro ⟨k, _, same⟩
    omega
  rw [regionLocked, regionLocked, prot, map]

/-- A target whose commands every mode allows, and which names regions of BAR0 alone. -/
def plainTarget (q : CmdSpec) (c : Cmd) : Prop := q.modes = inAny ∧ ∀ i ∈ q.regions c, i < 0x200

theorem regionsOpen_tcmdTaken {q : CmdSpec} {c : Cmd} {s : State} (ready : tcmdReady q c s) (plain : plainTarget q c) :
    (q.regions c).any (regionLocked (tcmdTaken q c s)) = false := by
  obtain ⟨canon, _, _, _, _, _, _, free, _⟩ := ready
  rw [List.any_eq_false] at free ⊢
  intro i named
  rw [regionLocked_tcmdTaken q c canon (plain.2 i named)]
  exact free i named

/-- A command that is ready runs at once (R337, R352). -/
theorem runCmd_ready {q : CmdSpec} {c : Cmd} {s : State} (ready : tcmdReady q c s) :
    runCmd q c s = runAnswer q (tcmdWaiter q c s) c (tcmdTaken q c s) := by
  obtain ⟨_, via, opened, idle, quiet, _, _, _, buffer⟩ := ready
  have wrote : hostWrote ((c.long.map (·.host)).getD []) s = s := by
    cases long : c.long with
    | none => rfl
    | some l => simp [hostWrote, (buffer l long).2, memApply]
  have unheld : heldByCommit q.changes (tcmdTaken q c s) = false := by simp [heldByCommit, quiet]
  have run : runCmd q c s = takeCmd q (tcmdWaiter q c s) c (tcmdTaken q c s) := by
    simp only [runCmd, wrote, via, opened, idle]
    rfl
  rw [run]
  simp [takeCmd, unheld, frontOfRing, tcmdWaiter]

/-! ## The answer -/

/-- The staged side is marked DIRTY (R354). -/
def markDirty (s : State) : State := { s with gen := { s.gen with dirty := true } }

/-- The state once the register holds the answer and is idle again. -/
def tcmdDone (q : CmdSpec) (c : Cmd) (status : Nat) (result : List Byte) (u : State) : State :=
  tcmdAnswer (cmdBytes q.opcode q.target (c.tag % 2 ^ 32) status result) (whenDo (q.changes && status == 0) markDirty u)

theorem runAnswer_done {q : CmdSpec} {c : Cmd} {s u st : State} {status : Nat} {result data : List Byte}
    (run : runSpec q ⟨tcmdWaiter q c s, c, []⟩ u =
      ⟨whenDo (q.changes && status == 0) markDirty st, some status, result, data⟩) :
    runAnswer q (tcmdWaiter q c s) c u = tcmdDone q c status result st := by
  simp only [runAnswer, run, tcmdDone]
  cases stops : status == 7 <;> rfl

/-- The state once an answer stands in the table command register. -/
def answerStored (bs : List Byte) (s : State) : State :=
  storeEach R.fdbTcmdRes (fun i => ofLE ((bs.drop (4 * i)).take 4)) (List.range 8) s

theorem regs_tcmdAnswer (bs : List Byte) (s : State) : (tcmdAnswer bs s).regs = (answerStored bs s).regs := rfl

theorem tcmdAnswer_tab (bs : List Byte) (s : State) : (tcmdAnswer bs s).tab = { s.tab with tcmdBusy := false } := by
  simp [tcmdAnswer]

theorem tcmdDone_tab (q : CmdSpec) (c : Cmd) (status : Nat) (result : List Byte) (u : State) :
    (tcmdDone q c status result u).tab = { u.tab with tcmdBusy := false } := by
  unfold tcmdDone
  rw [tcmdAnswer_tab]
  cases q.changes && status == 0 <;> rfl

theorem tcmdDone_gen (q : CmdSpec) (c : Cmd) (status : Nat) (result : List Byte) (u : State) :
    (tcmdDone q c status result u).gen = if q.changes && status == 0 then { u.gen with dirty := true } else u.gen := by
  cases dirty : q.changes && status == 0 <;> simp [tcmdDone, dirty, whenDo, markDirty]

theorem changesOnly_tcmdDone (q : CmdSpec) (c : Cmd) (status : Nat) (result : List Byte) (u : State) :
    changesOnly [.tables, .generations, .registers] u (tcmdDone q c status result u) := by
  cases dirty : q.changes && status == 0 <;>
    exact changesOnly_of fun p => by cases p <;> simp [Part.same, tcmdDone, dirty, whenDo, markDirty]

theorem regs_whenDo_markDirty (b : Bool) (u : State) : (whenDo b markDirty u).regs = u.regs := by cases b <;> rfl

theorem registersBut_tcmdDone (q : CmdSpec) (c : Cmd) (status : Nat) (result : List Byte) {u : State} (h : RegsCanonical u) :
    registersBut ((List.range 8).map R.fdbTcmdRes) u (tcmdDone q c status result u) := by
  have same := regs_whenDo_markDirty (q.changes && status == 0) u
  exact registersBut_trans (registersBut_of_regs same _)
    (registersBut_trans (registersBut_storeEach _ _ _ ((regsCanonical_congr same).mpr h))
      (registersBut_of_regs (regs_tcmdAnswer _ _) _))

theorem ofLE_lt : ∀ bs : List Byte, ofLE bs < 2 ^ (8 * bs.length)
  | [] => by simp [ofLE]
  | b :: bs => by
    have rest := ofLE_lt bs
    have byte := b.isLt
    simp only [ofLE, List.length_cons, Nat.mul_add, Nat.mul_one, Nat.pow_add]
    omega

theorem tcmdAnswered_tcmdDone (q : CmdSpec) (c : Cmd) (status : Nat) (result : List Byte) {u : State} (h : RegsCanonical u) :
    tcmdAnswered q c status result (tcmdDone q c status result u) := by
  refine ⟨by rw [tcmdDone_tab], fun i below => ?_⟩
  have canon := (regsCanonical_congr (regs_whenDo_markDirty (q.changes && status == 0) u)).mpr h
  have apart : ∀ i j, R.fdbTcmdRes i = R.fdbTcmdRes j → i = j := fun i j same => by simp only [R.fdbTcmdRes] at same; omega
  rw [tcmdDone, rg_congr (regs_tcmdAnswer _ _), answerStored, rg_storeEach apart _ _ canon i (List.mem_range.mpr below)]
  refine Nat.mod_eq_of_lt (Nat.lt_of_lt_of_le (ofLE_lt _) (Nat.pow_le_pow_right (by decide) ?_))
  simp only [List.length_take]
  omega

/-! ## The forms of a command (R97, R99) -/

/-- The buffer of a ready command can be read or written. -/
theorem bufGood_ready {q : CmdSpec} {c : Cmd} {s : State} (ready : tcmdReady q c s) : bufBad c = false := by
  obtain ⟨_, _, _, _, _, _, _, _, buffer⟩ := ready
  cases long : c.long with
  | none => simp [bufBad, long]
  | some l => simp [bufBad, long, (buffer l long).1]

/-- A ready command passes the checks of its mode, its form and its regions. -/
theorem checks_ready {q : CmdSpec} {c : Cmd} {s : State} (ready : tcmdReady q c s) (plain : plainTarget q c) :
    q.modes (tcmdTaken q c s) = true ∧ formOk q c = true ∧ (q.regions c).any (regionLocked (tcmdTaken q c s)) = false := by
  have free := regionsOpen_tcmdTaken ready plain
  obtain ⟨_, _, _, _, _, _, form, _, _⟩ := ready
  exact ⟨by rw [plain.1]; rfl, form, free⟩

theorem long_of_formOk {q : CmdSpec} {c : Cmd} (form : formOk q c = true) (buffered : q.form ≠ .short) :
    ∃ l, c.long = some l := by
  cases long : c.long with
  | some l => exact ⟨l, rfl⟩
  | none => cases kind : q.form <;> simp_all [formOk]

/-- A command without a buffer. -/
theorem runCmd_short {q : CmdSpec} {c : Cmd} {s st : State} {status : Nat} {result : List Byte} (ready : tcmdReady q c s)
    (plain : plainTarget q c) (short : q.form = .short)
    (body : q.body ⟨tcmdWaiter q c s, c, []⟩ (tcmdTaken q c s) = ⟨st, some status, result, []⟩) :
    runCmd q c s = tcmdDone q c status result st := by
  obtain ⟨mode, form, free⟩ := checks_ready ready plain
  rw [runCmd_ready ready]
  refine runAnswer_done (data := []) ?_
  simp only [runSpec, mode, form, free, readBuf, short, body]
  cases dirty : q.changes && status == 0 <;> simp_all [whenDo, markDirty]

/-- The bytes that a command's buffer holds are read, which the host's unit counts. -/
def bufRead (c : Cmd) (u : State) : State := pmuEv 29 2 none none (dataBytes c) u

/-- A command whose buffer the device reads. -/
theorem runCmd_readsBuf {q : CmdSpec} {c : Cmd} {s st : State} {status : Nat} {result : List Byte} (ready : tcmdReady q c s)
    (plain : plainTarget q c) (reads : q.form = .readsBuf) (length : lengthOk c = true)
    (body : q.body ⟨tcmdWaiter q c s, c, bufBytes c s⟩ (bufRead c (tcmdTaken q c s)) = ⟨st, some status, result, []⟩) :
    runCmd q c s = tcmdDone q c status result st := by
  obtain ⟨mode, form, free⟩ := checks_ready ready plain
  have good := bufGood_ready ready
  obtain ⟨l, long⟩ := long_of_formOk form (by simp [reads])
  have read : readBuf q.form ⟨tcmdWaiter q c s, c, []⟩ (tcmdTaken q c s) = (bufBytes c s, bufRead c (tcmdTaken q c s)) := by
    simp [readBuf, reads, long, length, tcmdWaiter, bufBytes, bufRead, dataBytes, dmaRead]
  rw [runCmd_ready ready]
  refine runAnswer_done (data := []) ?_
  simp only [runSpec, mode, form, free, read, good, body]
  cases dirty : q.changes && status == 0 <;> simp_all [whenDo, markDirty]

/-- The device writes bytes to a command's buffer. -/
def bufFilled (c : Cmd) (data : List Byte) (u : State) : State := dmaWrite ((c.long.map (·.addr)).getD 0) data u

/-- A command that changes nothing staged and whose buffer the device writes. -/
theorem runCmd_writesBuf {q : CmdSpec} {c : Cmd} {s st : State} {data : List Byte} (ready : tcmdReady q c s)
    (plain : plainTarget q c) (writes : q.form = .writesBuf) (reader : q.changes = false)
    (body : q.body ⟨tcmdWaiter q c s, c, []⟩ (tcmdTaken q c s) = ⟨st, some 0, [], data⟩) :
    runCmd q c s = tcmdDone q c 0 [] (bufFilled c data st) := by
  obtain ⟨mode, form, free⟩ := checks_ready ready plain
  have good := bufGood_ready ready
  obtain ⟨l, long⟩ := long_of_formOk form (by simp [writes])
  have dma : l.dmaOk = true := by simpa [bufBad, long] using good
  have via : (tcmdWaiter q c s).via = .tcmd := rfl
  rw [runCmd_ready ready]
  refine runAnswer_done (data := data) ?_
  simp [runSpec, mode, form, free, readBuf, writes, long, dma, body, reader, bufFilled, whenDo, via]

/-! ## What a command leaves -/

/-- What a command that is answered at once leaves, where `st` is the state its target made: the answer, the tables of `st` with the
register idle, and the staged side marked DIRTY by a change that is done. -/
structure TcmdLeft (q : CmdSpec) (c : Cmd) (status : Nat) (result : List Byte) (s st t : State) : Prop where
  answered : tcmdAnswered q c status result t
  tab : t.tab = { st.tab with tcmdBusy := false }
  dirty : q.changes = true → status = 0 → t.gen = { s.gen with dirty := true }
  clean : q.changes = false ∨ status ≠ 0 → t.gen = s.gen

theorem tcmdLeft_tcmdDone {q : CmdSpec} {c : Cmd} {status : Nat} {result : List Byte} {s st u : State} (canon : RegsCanonical u)
    (tab : u.tab = st.tab) (gen : u.gen = s.gen) : TcmdLeft q c status result s st (tcmdDone q c status result u) where
  answered := tcmdAnswered_tcmdDone q c status result canon
  tab := by rw [tcmdDone_tab, tab]
  dirty changes ok := by simp [tcmdDone_gen, changes, ok, gen]
  clean kept := by rcases kept with kept | kept <;> simp [tcmdDone_gen, kept, gen]

theorem runCmd_short_left {q : CmdSpec} {c : Cmd} {s st : State} {status : Nat} {result : List Byte} (ready : tcmdReady q c s)
    (plain : plainTarget q c) (short : q.form = .short)
    (body : q.body ⟨tcmdWaiter q c s, c, []⟩ (tcmdTaken q c s) = ⟨st, some status, result, []⟩)
    (only : changesOnly [.tables] (tcmdTaken q c s) st) :
    TcmdLeft q c status result s st (runCmd q c s) ∧ registersBut tcmdRegs s (runCmd q c s) ∧
      changesOnly [.tables, .generations, .registers] s (runCmd q c s) := by
  have canon := regsCanonical_tcmdTaken q c ready.1
  have regs : st.regs = (tcmdTaken q c s).regs := only .registers (by decide)
  have gen : st.gen = (tcmdTaken q c s).gen := only .generations (by decide)
  have canonLater := (regsCanonical_congr regs).mpr canon
  have taken := registersBut_tcmdTaken q c ready.1
  have done := registersBut_tcmdDone q c status result canonLater
  rw [runCmd_short ready plain short body]
  refine ⟨tcmdLeft_tcmdDone canonLater rfl (by simp [gen]), ?_, ?_⟩
  · exact registersBut_trans (registersBut_mono taken (List.subset_append_left _ _))
      (registersBut_trans (registersBut_of_regs regs _) (registersBut_mono done (List.subset_append_right _ _)))
  · exact changesOnly_trans (changesOnly_mono (changesOnly_tcmdTaken q c s) (by simp))
      (changesOnly_trans (changesOnly_mono only (by simp)) (changesOnly_tcmdDone q c status result st))

/-- One that changes nothing staged leaves the generations. -/
theorem runCmd_short_clean {q : CmdSpec} {c : Cmd} {s st : State} {status : Nat} {result : List Byte} (ready : tcmdReady q c s)
    (plain : plainTarget q c) (short : q.form = .short) (reader : q.changes = false)
    (body : q.body ⟨tcmdWaiter q c s, c, []⟩ (tcmdTaken q c s) = ⟨st, some status, result, []⟩)
    (only : changesOnly [.tables] (tcmdTaken q c s) st) :
    TcmdLeft q c status result s st (runCmd q c s) ∧ registersBut tcmdRegs s (runCmd q c s) ∧
      changesOnly [.tables, .registers] s (runCmd q c s) := by
  obtain ⟨left, regs, all⟩ := runCmd_short_left ready plain short body only
  exact ⟨left, regs, changesOnly_drop (p := .generations) (changesOnly_mono all (by simp)) (left.clean (.inl reader))⟩

theorem bufRead_registers (c : Cmd) {u : State} (h : RegsCanonical u) :
    RegsCanonical (bufRead c u) ∧ registersBut [R.pmuOvf 29] u (bufRead c u) :=
  registers_pmuEv _ _ _ _ _ u h

theorem runCmd_readsBuf_left {q : CmdSpec} {c : Cmd} {s st : State} {status : Nat} {result : List Byte} (ready : tcmdReady q c s)
    (plain : plainTarget q c) (reads : q.form = .readsBuf) (length : lengthOk c = true)
    (body : q.body ⟨tcmdWaiter q c s, c, bufBytes c s⟩ (bufRead c (tcmdTaken q c s)) = ⟨st, some status, result, []⟩)
    (only : changesOnly [.tables] (bufRead c (tcmdTaken q c s)) st) :
    TcmdLeft q c status result s st (runCmd q c s) ∧
      changesOnly [.tables, .generations, .counters, .registers] s (runCmd q c s) := by
  have canon := (bufRead_registers c (regsCanonical_tcmdTaken q c ready.1)).1
  have regs : st.regs = (bufRead c (tcmdTaken q c s)).regs := only .registers (by decide)
  have gen : st.gen = (bufRead c (tcmdTaken q c s)).gen := only .generations (by decide)
  rw [runCmd_readsBuf ready plain reads length body]
  refine ⟨tcmdLeft_tcmdDone ((regsCanonical_congr regs).mpr canon) rfl (by simp [gen, bufRead]), ?_⟩
  exact changesOnly_trans (changesOnly_mono (changesOnly_tcmdTaken q c s) (by simp))
    (changesOnly_trans (changesOnly_mono (changesOnly_pmuEv _ _ _ _ _ _) (by simp))
      (changesOnly_trans (changesOnly_mono only (by simp)) (changesOnly_mono (changesOnly_tcmdDone q c status result st) (by simp))))

theorem dmaWrite_hmem (a : Nat) (bs : List Byte) (s : State) : (dmaWrite a bs s).hmem = memWrite s.hmem a bs := by
  simp [dmaWrite]

theorem changesOnly_bufFilled (c : Cmd) (data : List Byte) (u : State) :
    changesOnly [.counters, .registers, .hostMemory] u (bufFilled c data u) :=
  changesOnly_of fun p => by cases p <;> simp [Part.same, bufFilled]

theorem regsCanonical_bufFilled (c : Cmd) (data : List Byte) {u : State} (h : RegsCanonical u) :
    RegsCanonical (bufFilled c data u) :=
  (registers_pmuEv 29 3 none none data.length { u with hmem := memWrite u.hmem _ data } h).1

theorem runCmd_writesBuf_left {q : CmdSpec} {c : Cmd} {s st : State} {data : List Byte} (ready : tcmdReady q c s)
    (plain : plainTarget q c) (writes : q.form = .writesBuf) (reader : q.changes = false)
    (body : q.body ⟨tcmdWaiter q c s, c, []⟩ (tcmdTaken q c s) = ⟨st, some 0, [], data⟩)
    (only : changesOnly [.tables] (tcmdTaken q c s) st) :
    TcmdLeft q c 0 [] s st (runCmd q c s) ∧ (runCmd q c s).hmem = bufWritten c data s ∧
      changesOnly [.tables, .counters, .registers, .hostMemory] s (runCmd q c s) := by
  have canon := regsCanonical_tcmdTaken q c ready.1
  have regs : st.regs = (tcmdTaken q c s).regs := only .registers (by decide)
  have gen : st.gen = (tcmdTaken q c s).gen := only .generations (by decide)
  have hmem : st.hmem = s.hmem := (only .hostMemory (by decide)).trans (tcmdTaken_hmem q c s)
  have filled := changesOnly_bufFilled c data st
  have left : TcmdLeft q c 0 [] s st (tcmdDone q c 0 [] (bufFilled c data st)) :=
    tcmdLeft_tcmdDone (regsCanonical_bufFilled c data ((regsCanonical_congr regs).mpr canon)) (filled .tables (by decide))
      ((filled .generations (by decide)).trans (gen.trans (tcmdTaken_gen q c s)))
  obtain ⟨_, form, _⟩ := checks_ready ready plain
  obtain ⟨l, long⟩ := long_of_formOk form (by simp [writes])
  rw [runCmd_writesBuf ready plain writes reader body]
  refine ⟨left, ?_, ?_⟩
  · have kept := changesOnly_tcmdDone q c 0 [] (bufFilled c data st) .hostMemory (by decide)
    exact kept.trans (by simp [bufFilled, bufWritten, dmaWrite_hmem, long, hmem])
  · have all : changesOnly [.tables, .generations, .counters, .registers, .hostMemory] s
        (tcmdDone q c 0 [] (bufFilled c data st)) :=
      changesOnly_trans (changesOnly_mono (changesOnly_tcmdTaken q c s) (by simp))
        (changesOnly_trans (changesOnly_mono only (by simp)) (changesOnly_trans (changesOnly_mono filled (by simp))
          (changesOnly_mono (changesOnly_tcmdDone q c 0 [] _) (by simp))))
    exact changesOnly_drop (p := .generations) (changesOnly_mono all (by simp)) (left.clean (.inl reader))

end Sys2Proof.Proofs
end

section
/-! PROOFS. The commands of STR, HGT and CLS (R280 to R297): what each makes of the state once it has passed the checks that all
commands share, and the statement on them. -/

namespace Sys2Proof.Proofs

open Sys2Proof Sys2Proof.Machine Sys2Proof.Safety Sys2Proof.Laws

/-! ## Tables and parities while a command is carried out -/

theorem tcmdIdle_ready {q : CmdSpec} {c : Cmd} {s : State} (ready : tcmdReady q c s) : s.tab.tcmdBusy = false := by
  obtain ⟨_, _, _, idle, _⟩ := ready
  exact idle

/-- The tables of a command that only reads them are as they were. -/
theorem tab_idle {s : State} (idle : s.tab.tcmdBusy = false) : { s.tab with tcmdBusy := false } = s.tab := by
  rw [← idle]

theorem TcmdLeft.tab_kept {q : CmdSpec} {c : Cmd} {status : Nat} {result : List Byte} {s t : State} (ready : tcmdReady q c s)
    (left : TcmdLeft q c status result s (tcmdTaken q c s) t) : t.tab = s.tab := by
  rw [left.tab, tcmdTaken_tab]
  exact tab_idle (tcmdIdle_ready ready)

theorem stagedPar_congr {s u : State} (gen : u.gen = s.gen) : stagedPar u = stagedPar s := by simp [stagedPar, curPar, gen]

theorem stagedPar_lt (s : State) : stagedPar s < 2 := by
  simp only [stagedPar]
  omega

theorem curPar_ne_stagedPar (s : State) : curPar s % 2 ≠ stagedPar s := by
  simp only [curPar, stagedPar]
  omega

@[simp] theorem stagedPar_tcmdTaken (q : CmdSpec) (c : Cmd) (s : State) : stagedPar (tcmdTaken q c s) = stagedPar s :=
  stagedPar_congr (tcmdTaken_gen q c s)

@[simp] theorem bufRead_tab (c : Cmd) (u : State) : (bufRead c u).tab = u.tab := by simp [bufRead]

@[simp] theorem bufRead_gen (c : Cmd) (u : State) : (bufRead c u).gen = u.gen := by simp [bufRead]

@[simp] theorem bufRead_svc (c : Cmd) (u : State) : (bufRead c u).svc = u.svc := by simp [bufRead]

@[simp] theorem stagedPar_bufRead (c : Cmd) (u : State) : stagedPar (bufRead c u) = stagedPar u :=
  stagedPar_congr (bufRead_gen c u)

theorem changesOnly_setEntry (tbl idx par : Nat) (ws : List Nat) (s : State) :
    changesOnly [.tables] s (setEntry tbl idx par ws s) :=
  changesOnly_of fun p => by cases p <;> simp [Part.same]

/-- An entry stored while the register is busy. -/
theorem setEntry_tab_idle {s u : State} (idle : s.tab.tcmdBusy = false) (tab : u.tab = { s.tab with tcmdBusy := true })
    (tbl idx par : Nat) (ws : List Nat) : { (setEntry tbl idx par ws u).tab with tcmdBusy := false } =
      { s.tab with vals := kvPut (valKey tbl idx par) ws s.tab.vals } := by
  simp [setEntry, tab, idle]

theorem lengthOk_of_formOk {q : CmdSpec} {c : Cmd} (form : formOk q c = true) (buffered : q.form ≠ .short)
    (shared : q.ownLength = false) : lengthOk c = true := by
  obtain ⟨l, long⟩ := long_of_formOk form buffered
  cases kind : q.form <;> simp_all [formOk]

/-! ## STR (R288) -/

theorem strWrite_plain (c : Cmd) : plainTarget strWrite c := ⟨rfl, by simp [strWrite]⟩

theorem strRead_plain (c : Cmd) : plainTarget strRead c := ⟨rfl, by simp [strRead]⟩

theorem strWrite_body {a : Ask} (named : bodyWord a.cmd 0x08 % 65536 ≠ 0xFFFF) (u : State) : strWrite.body a u =
    ok (setEntry 0 (bodyWord a.cmd 0x08 % 65536) (stagedPar u)
      (maskWords [0x1FFFFFFF, 0x3FFFFF, 0, 0] (wordsLE 4 (bodyAt a.cmd 0x0C 16))) u) :=
  if_neg named

theorem strRead_body {a : Ask} (named : bodyWord a.cmd 0x08 % 65536 ≠ 0xFFFF) (u : State) : strRead.body a u =
    okWith (bytesOfWords (bodyWord a.cmd 0x08 % 65536 :: (List.range 4).map fun k =>
      nth 0 (streamWords u (fld 16 16 (bodyWord a.cmd 0x08)) (bodyWord a.cmd 0x08 % 65536)) k)) u :=
  if_neg named

theorem streamWords_tcmdTaken (q : CmdSpec) (c : Cmd) (s : State) (par h : Nat) :
    streamWords (tcmdTaken q c s) par h = streamWords s par h := by
  simp [streamWords, entry]

/-! ## HGT (R290, R291, R295 to R297) -/

theorem hgtWrite_plain (c : Cmd) : plainTarget hgtWrite c := ⟨rfl, by simp [hgtWrite]⟩

theorem hgtRead_plain (c : Cmd) : plainTarget hgtRead c := ⟨rfl, by simp [hgtRead]⟩

theorem hgtReadCounters_plain (c : Cmd) : plainTarget hgtReadCounters c := ⟨rfl, by simp [hgtReadCounters]⟩

theorem hgtUnblock_plain (c : Cmd) : plainTarget hgtUnblock c := ⟨rfl, by simp [hgtUnblock]⟩

theorem hgtResetRcv_plain (c : Cmd) : plainTarget hgtResetRcv c := ⟨rfl, by simp [hgtResetRcv]⟩

/-- The words that an HGT WRITE stores: those of its buffer, and behind them the gate entries that it leaves. -/
def hgtStored (s : State) (k : HgtKind) (i : Nat) (ws : List Nat) : List Nat :=
  ws ++ if k = .gate then (hgtWords s (stagedPar s) i).drop ws.length else []

theorem hgtWords_congr {s u : State} (vals : u.tab.vals = s.tab.vals) (par i : Nat) : hgtWords u par i = hgtWords s par i := by
  simp [hgtWords, vals]

theorem hgtStored_congr {s u : State} (vals : u.tab.vals = s.tab.vals) (gen : u.gen = s.gen) (k : HgtKind) (i : Nat)
    (ws : List Nat) : hgtStored u k i ws = hgtStored s k i ws := by
  rw [hgtStored, hgtStored, stagedPar_congr gen, hgtWords_congr vals]

theorem hgtWrite_body {a : Ask} {k : HgtKind} {n : Nat} (kind : hgtKind (fld 17 0 (bodyWord a.cmd 0x14)) = some k)
    (bytes : dataBytes a.cmd = n) (length : n = hgtBytes k (ofLE (a.buf.take 4))) (u : State) : hgtWrite.body a u =
      ok (setEntry 1 (fld 17 0 (bodyWord a.cmd 0x14)) (stagedPar u)
        (hgtStored u k (fld 17 0 (bodyWord a.cmd 0x14)) (maskWords (hgtMasks k (n / 4)) (wordsLE (n / 4) a.buf))) u) := by
  simp [hgtWrite, kind, bytes, ← length, hgtStored]

/-- The bytes of an entry as HGT READ returns them. -/
def hgtLength (k : HgtKind) : Nat := if k = .gate then 520 else hgtBytes k 0

theorem hgtRead_body {a : Ask} {k : HgtKind} (kind : hgtKind (fld 17 0 (bodyWord a.cmd 0x14)) = some k)
    (bytes : dataBytes a.cmd = hgtLength k) (u : State) : hgtRead.body a u =
      okData (bytesOfWords ((List.range (hgtLength k / 4)).map fun j =>
        nth 0 (hgtWords u (fld 16 16 (bodyWord a.cmd 0x18)) (fld 17 0 (bodyWord a.cmd 0x14))) j)) u := by
  simp [hgtRead, kind, bytes, hgtLength]

theorem hgtReadCounters_body {a : Ask} {k : HgtKind} {i : Nat} {u : State} (index : i = fld 17 0 (bodyWord a.cmd 0x14))
    (kind : hgtKind i = some k) (bytes : dataBytes a.cmd = 8 * (hgtCounters k i u).1.length) : hgtReadCounters.body a u =
      okData ((hgtCounters k i u).1.flatMap (toLE 8)) (hgtCounters k i u).2 := by
  simp [hgtReadCounters, ← index, kind, bytes]

theorem changesOnly_hgtCounters (k : HgtKind) (i : Nat) (s : State) : changesOnly [.tables] s (hgtCounters k i s).2 :=
  changesOnly_of fun p => by cases p <;> simp [Part.same]

/-- Counters returned and cleared while the register is busy. -/
theorem hgtCounters_busy {s u : State} (idle : s.tab.tcmdBusy = false) (tab : u.tab = { s.tab with tcmdBusy := true })
    (k : HgtKind) (i : Nat) : (hgtCounters k i u).1 = (hgtCounters k i s).1 ∧
      { (hgtCounters k i u).2.tab with tcmdBusy := false } = (hgtCounters k i s).2.tab := by
  cases k <;>
    simp [hgtCounters, filterAt, setFilter, meterAt, setMeter, recoveryAt, setRecovery, sgateAt, setSgate, tab, idle]

theorem hgtUnblock_filter {a : Ask} {i : Nat} (index : i = fld 17 0 (bodyWord a.cmd 0x08)) (kind : hgtKind i = some .filter)
    (u : State) : hgtUnblock.body a u = ok (setFilter i { filterAt u i with blocked := false } u) := by
  simp [hgtUnblock, ← index, kind]

theorem hgtUnblock_gate {a : Ask} {i : Nat} (index : i = fld 17 0 (bodyWord a.cmd 0x08)) (kind : hgtKind i = some .gate)
    (u : State) : hgtUnblock.body a u = ok (setSgate i { sgateAt u i with latched := false } u) := by
  simp [hgtUnblock, ← index, kind]

theorem hgtResetRcv_body {a : Ask} {i : Nat} (index : i = fld 17 0 (bodyWord a.cmd 0x08)) (kind : hgtKind i = some .recovery)
    (u : State) : hgtResetRcv.body a u = ok (setRecovery (i - 0x20000) (recoveryAt u (i - 0x20000)).reset u) := by
  simp [hgtResetRcv, ← index, kind]

theorem changesOnly_setFilter (i : Nat) (x : Filter) (s : State) : changesOnly [.tables] s (setFilter i x s) :=
  changesOnly_of fun p => by cases p <;> simp [Part.same]

theorem changesOnly_setSgate (i : Nat) (x : StreamGate) (s : State) : changesOnly [.tables] s (setSgate i x s) :=
  changesOnly_of fun p => by cases p <;> simp [Part.same]

theorem changesOnly_setRecovery (i : Nat) (x : Recovery) (s : State) : changesOnly [.tables] s (setRecovery i x s) :=
  changesOnly_of fun p => by cases p <;> simp [Part.same]

@[simp] theorem filterAt_tcmdTaken (q : CmdSpec) (c : Cmd) (s : State) (i : Nat) : filterAt (tcmdTaken q c s) i = filterAt s i := by
  simp [filterAt]

theorem TcmdLeft.filterAt_eq {q : CmdSpec} {c : Cmd} {status : Nat} {result : List Byte} {s st t : State}
    (left : TcmdLeft q c status result s st t) (i : Nat) : filterAt t i = filterAt st i := by
  rw [filterAt, filterAt, left.tab]

@[simp] theorem sgateAt_tcmdTaken (q : CmdSpec) (c : Cmd) (s : State) (i : Nat) : sgateAt (tcmdTaken q c s) i = sgateAt s i := by
  simp [sgateAt]

theorem TcmdLeft.sgateAt_eq {q : CmdSpec} {c : Cmd} {status : Nat} {result : List Byte} {s st t : State}
    (left : TcmdLeft q c status result s st t) (i : Nat) : sgateAt t i = sgateAt st i := by
  rw [sgateAt, sgateAt, left.tab]

@[simp] theorem recoveryAt_tcmdTaken (q : CmdSpec) (c : Cmd) (s : State) (i : Nat) :
    recoveryAt (tcmdTaken q c s) i = recoveryAt s i := by
  simp [recoveryAt]

theorem TcmdLeft.recoveryAt_eq {q : CmdSpec} {c : Cmd} {status : Nat} {result : List Byte} {s st t : State}
    (left : TcmdLeft q c status result s st t) (i : Nat) : recoveryAt t i = recoveryAt st i := by
  rw [recoveryAt, recoveryAt, left.tab]

/-! ## Rules and their validity (R283 to R286) -/

theorem kvGet_kvUpd {α : Type} (k : Nat) (f : α → α) (l : List (Nat × α)) : kvGet k (kvUpd k f l) = (kvGet k l).map f := by
  cases h : kvGet k l <;> simp [kvUpd, h, kvGet_kvPut]

theorem kvGet_kvUpd_ne {α : Type} {j k : Nat} (ne : j ≠ k) (f : α → α) (l : List (Nat × α)) :
    kvGet j (kvUpd k f l) = kvGet j l := by
  cases h : kvGet k l <;> simp [kvUpd, h, kvGet_kvPut_ne k j _ ne]

theorem keyed_kvUpd {α : Type} {l : List (Nat × α)} (h : keyed l) (k : Nat) (f : α → α) : keyed (kvUpd k f l) := by
  unfold kvUpd
  split
  · exact h
  · exact keyed_kvPut h k _

/-- The rules and the bits kept for repairs are in canonical form. -/
def rulesKeyed (s : State) : Prop := keyed s.tab.rules ∧ keyed s.tab.tcamBad

/-- A rule reads the same, with what is kept for its repair. -/
def sameRule (i : Nat) (s t : State) : Prop :=
  kvGet i t.tab.rules = kvGet i s.tab.rules ∧ kvGet i t.tab.tcamBad = kvGet i s.tab.tcamBad

theorem ruleLive_congr {i : Nat} {s t : State} (same : sameRule i s t) (par : Nat) : ruleLive t i par = ruleLive s i par := by
  simp [ruleLive, same.1, same.2]

theorem rulesKeyed_tidyRule (i : Nat) {s : State} (h : rulesKeyed s) : rulesKeyed (tidyRule i s) := by
  unfold tidyRule
  split
  · exact h
  · split
    · exact h
    · exact ⟨kvSortedFrom_kvDel i _ 0 h.1, h.2⟩

theorem sameRule_tidyRule {i j : Nat} (ne : j ≠ i) {s : State} (h : rulesKeyed s) : sameRule j s (tidyRule i s) := by
  unfold tidyRule
  split
  · exact ⟨rfl, rfl⟩
  · split
    · exact ⟨rfl, rfl⟩
    · exact ⟨kvGet_kvDel_ne h.1 ne, rfl⟩

theorem tidyRule_valid {i : Nat} {r : Rule} {s : State} (present : kvGet i s.tab.rules = some r) (valid : (r.v0 || r.v1) = true) :
    tidyRule i s = s := by
  simp [tidyRule, present, valid]

/-- Only a rule without a validity bit is tidied away. -/
theorem ruleLive_tidyRule (i par : Nat) {s : State} (h : rulesKeyed s) : ruleLive (tidyRule i s) i par = ruleLive s i par := by
  unfold tidyRule
  split
  · rfl
  · next r present =>
    split
    · rfl
    · next bare =>
      obtain ⟨bits, shadow⟩ := Bool.or_eq_false_iff.mp (Bool.eq_false_iff.mpr bare)
      obtain ⟨no0, no1⟩ := Bool.or_eq_false_iff.mp bits
      have unshadowed : kvGet i s.tab.tcamBad = none := Option.not_isSome_iff_eq_none.mp (Bool.eq_false_iff.mp shadow)
      simp [ruleLive, present, unshadowed, kvGet_kvDel_same h.1, Rule.valid, no0, no1]

/-- A rule, and the bits kept for its repair, with the bit of a parity cleared. -/
def ruleWithout (cleared : Nat) (r : Rule) : Rule := if cleared = 0 then { r with v0 := false } else { r with v1 := false }
def bitsWithout (cleared : Nat) (b : Bool × Bool) : Bool × Bool := if cleared = 0 then (false, b.2) else (b.1, false)

/-- The bit of a parity cleared in entry and shadow, before a rule without a bit is tidied away. -/
def bitCleared (par i : Nat) (s : State) : State :=
  { s with tab := { s.tab with
    rules := kvUpd i (ruleWithout par) s.tab.rules, tcamBad := kvUpd i (bitsWithout par) s.tab.tcamBad } }

theorem clearRule_eq (par i : Nat) (s : State) : clearRule par i s = tidyRule i (bitCleared par i s) := rfl

theorem rulesKeyed_bitCleared (par i : Nat) {s : State} (h : rulesKeyed s) : rulesKeyed (bitCleared par i s) :=
  ⟨keyed_kvUpd h.1 i _, keyed_kvUpd h.2 i _⟩

theorem sameRule_bitCleared {i j : Nat} (ne : j ≠ i) (par : Nat) (s : State) : sameRule j s (bitCleared par i s) :=
  ⟨kvGet_kvUpd_ne ne _ _, kvGet_kvUpd_ne ne _ _⟩

/-- The bit kept for a parity. -/
def keptBit (par : Nat) (b : Bool × Bool) : Bool := if par % 2 = 0 then b.1 else b.2

theorem ruleLive_eq (s : State) (i par : Nat) : ruleLive s i par =
    ((kvGet i s.tab.rules).any (·.valid par) || (kvGet i s.tab.tcamBad).any (keptBit par)) := by
  unfold ruleLive
  cases kvGet i s.tab.rules <;> cases kvGet i s.tab.tcamBad <;> rfl

theorem valid_ruleWithout {cleared : Nat} (bit : cleared < 2) (par : Nat) (r : Rule) :
    (ruleWithout cleared r).valid par = (decide (par % 2 ≠ cleared) && r.valid par) := by
  obtain rfl | rfl : cleared = 0 ∨ cleared = 1 := by omega
  · by_cases even : par % 2 = 0 <;> simp [ruleWithout, Rule.valid, even]
  · by_cases even : par % 2 = 0
    · simp [ruleWithout, Rule.valid, even]
    · simp [ruleWithout, Rule.valid, Nat.mod_two_ne_zero.mp even]

theorem keptBit_bitsWithout {cleared : Nat} (bit : cleared < 2) (par : Nat) (b : Bool × Bool) :
    keptBit par (bitsWithout cleared b) = (decide (par % 2 ≠ cleared) && keptBit par b) := by
  obtain rfl | rfl : cleared = 0 ∨ cleared = 1 := by omega
  · by_cases even : par % 2 = 0 <;> simp [bitsWithout, keptBit, even]
  · by_cases even : par % 2 = 0
    · simp [bitsWithout, keptBit, even]
    · simp [bitsWithout, keptBit, Nat.mod_two_ne_zero.mp even]

theorem ruleLive_bitCleared {cleared : Nat} (bit : cleared < 2) (i par : Nat) (s : State) :
    ruleLive (bitCleared cleared i s) i par = (decide (par % 2 ≠ cleared) && ruleLive s i par) := by
  simp only [ruleLive_eq, bitCleared, kvGet_kvUpd, Option.any_map, valid_ruleWithout bit, keptBit_bitsWithout bit]
  cases decide (par % 2 ≠ cleared) <;> simp

theorem rulesKeyed_clearRule (par i : Nat) {s : State} (h : rulesKeyed s) : rulesKeyed (clearRule par i s) :=
  rulesKeyed_tidyRule i (rulesKeyed_bitCleared par i h)

theorem sameRule_trans {i : Nat} {s t u : State} (h : sameRule i s t) (k : sameRule i t u) : sameRule i s u :=
  ⟨k.1.trans h.1, k.2.trans h.2⟩

theorem sameRule_clearRule {i j : Nat} (ne : j ≠ i) (par : Nat) {s : State} (h : rulesKeyed s) :
    sameRule j s (clearRule par i s) :=
  sameRule_trans (sameRule_bitCleared ne par s) (sameRule_tidyRule ne (rulesKeyed_bitCleared par i h))

theorem ruleLive_clearRule {cleared : Nat} (bit : cleared < 2) (i par : Nat) {s : State} (h : rulesKeyed s) :
    ruleLive (clearRule cleared i s) i par = (decide (par % 2 ≠ cleared) && ruleLive s i par) := by
  rw [clearRule_eq, ruleLive_tidyRule i par (rulesKeyed_bitCleared cleared i h), ruleLive_bitCleared bit]

/-- A run of clearings takes one bit of each rule it names, and leaves every other rule. -/
theorem forAll_clearRule {cleared : Nat} (bit : cleared < 2) : ∀ (l : List Nat) {s : State}, rulesKeyed s →
    (∀ i, i ∉ l → sameRule i s (forAll (clearRule cleared) l s)) ∧
      ∀ i ∈ l, ∀ par, ruleLive (forAll (clearRule cleared) l s) i par = (decide (par % 2 ≠ cleared) && ruleLive s i par)
  | [], _, _ => ⟨fun _ _ => ⟨rfl, rfl⟩, by simp⟩
  | k :: l, s, h => by
    obtain ⟨others, named⟩ := forAll_clearRule bit l (rulesKeyed_clearRule cleared k h)
    refine ⟨fun i out => ?_, fun i m par => ?_⟩
    · obtain ⟨ne, later⟩ : i ≠ k ∧ i ∉ l := by simpa using out
      exact sameRule_trans (sameRule_clearRule ne cleared h) (others i later)
    · have first : ruleLive (clearRule cleared k s) i par =
          if i = k then decide (par % 2 ≠ cleared) && ruleLive s i par else ruleLive s i par := by
        split
        · next same => rw [same, ruleLive_clearRule bit k par h]
        · next ne => exact ruleLive_congr (sameRule_clearRule ne cleared h) par
      by_cases later : i ∈ l
      · rw [forAll, named i later par, first]
        split <;> simp
      · obtain rfl : i = k := by simpa [later] using m
        rw [forAll, ruleLive_congr (others i later), first, if_pos rfl]

/-! ## CLS (R280 to R286) -/

theorem clsWrite_plain (c : Cmd) : plainTarget clsWrite c := ⟨rfl, by simp [clsWrite]⟩

theorem clsInvalidate_plain (c : Cmd) : plainTarget clsInvalidate c := ⟨rfl, by simp [clsInvalidate]⟩

theorem clsRead_plain (c : Cmd) : plainTarget clsRead c := ⟨rfl, by simp [clsRead]⟩

theorem clsReadHits_plain (c : Cmd) : plainTarget clsReadHits c := ⟨rfl, by simp [clsReadHits]⟩

/-- The banks of the TCAM are set up and in service as before. -/
structure SameBanks (s u : State) : Prop where
  svc : u.svc = s.svc
  cfg : ∀ sl b, b < 8 → rg u (R.clsBankCfg sl b) = rg s (R.clsBankCfg sl b)

theorem sameBanks_trans {s t u : State} (h : SameBanks s t) (k : SameBanks t u) : SameBanks s u :=
  ⟨k.svc.trans h.svc, fun sl b low => (k.cfg sl b low).trans (h.cfg sl b low)⟩

theorem sameBanks_tcmdTaken (q : CmdSpec) (c : Cmd) {s : State} (h : RegsCanonical s) : SameBanks s (tcmdTaken q c s) where
  svc := tcmdTaken_svc q c s
  cfg sl b _ := rg_of_registersBut (registersBut_tcmdTaken q c h) (by
    simp only [List.mem_map, List.mem_range, R.fdbTcmd, R.clsBankCfg]
    rintro ⟨k, below, same⟩
    omega)

theorem sameBanks_bufRead (c : Cmd) {u : State} (h : RegsCanonical u) : SameBanks u (bufRead c u) where
  svc := bufRead_svc c u
  cfg sl b low := rg_of_registersBut (bufRead_registers c h).2 (by
    simp only [List.mem_singleton, R.clsBankCfg, R.pmuOvf]
    omega)

theorem bankType_congr {s u : State} (h : SameBanks s u) (sl i : Nat) :
    bankType u sl (ruleBank i) = bankType s sl (ruleBank i) := by
  simp only [bankType, rgF]
  rw [h.cfg sl (ruleBank i) (by unfold ruleBank; omega)]

theorem bankWide_congr {s u : State} (h : SameBanks s u) (sl : Nat) {b : Nat} (low : b < 8) :
    bankWide u sl b = bankWide s sl b := by
  simp only [bankWide, rgF]
  rw [h.cfg sl b low]

theorem unitState_congr {s u : State} (h : SameBanks s u) (k : UnitKind) (i : Nat) : unitState u k i = unitState s k i := by
  rw [unitState, unitSt, h.svc, unitState, unitSt]

theorem runOf_congr {s u : State} (h : SameBanks s u) (sl n : Nat) {i : Nat} (low : i < 32768) :
    runOf u sl i n = runOf s sl i n := by
  simp only [runOf]
  rw [bankWide_congr h sl (by omega)]

theorem rulePositions_congr {s u : State} (h : SameBanks s u) (w n : Nat) (one : Bool) :
    rulePositions u w n one = rulePositions s w n one := by
  have low : fld 14 0 w < 32768 := Nat.mod_lt _ (by decide)
  simp only [rulePositions, unitState_congr h]
  rw [List.map_congr_left fun sl _ => runOf_congr h sl n low]

/-- The hit count that a rule has. -/
def ruleHits (s : State) (i : Nat) : Nat := ((kvGet i s.tab.rules).map (·.hits)).getD 0

theorem clsWrite_body {a : Ask} {i : Nat} {u : State} (one : fld 10 0 (bodyWord a.cmd 0x18) = 1)
    (place : rulePositions u (bodyWord a.cmd 0x14) 1 false = .ok [[i]]) (bytes : dataBytes a.cmd = 96)
    (free : ruleLive u i (curPar u) = false) : clsWrite.body a u = ok (writeRule i (wordsLE 24 a.buf) u) := by
  simp [clsWrite, one, place, bytes, free, forAll, nth, List.range_succ]

/-- A rule as it is written: its words with TYPE forced, and the staged bit alone; its hits stand. -/
def ruleWritten (i : Nat) (ws : List Nat) (s : State) : Rule where
  words := ruleWords (bankType s (i / 32768) (ruleBank i)) ws
  v0 := stagedPar s == 0
  v1 := stagedPar s == 1
  hits := ruleHits s i

theorem writeRule_rules (i : Nat) (ws : List Nat) (s : State) :
    (writeRule i ws s).tab.rules = kvPut i (ruleWritten i ws s) s.tab.rules := rfl

theorem ruleWritten_congr {s u : State} (banks : SameBanks s u) (gen : u.gen = s.gen) (rules : u.tab.rules = s.tab.rules)
    (i : Nat) (ws : List Nat) : ruleWritten i ws u = ruleWritten i ws s := by
  rw [ruleWritten, ruleWritten, bankType_congr banks, stagedPar_congr gen, ruleHits, ruleHits, rules]

theorem changesOnly_writeRule (i : Nat) (ws : List Nat) (s : State) : changesOnly [.tables] s (writeRule i ws s) :=
  changesOnly_of fun p => by cases p <;> simp [Part.same]

theorem clsInvalidate_body {a : Ask} {rs : List (List Nat)} {u : State}
    (places : rulePositions u (bodyWord a.cmd 0x08) (fld 10 0 (bodyWord a.cmd 0x0C)) false = .ok rs) :
    clsInvalidate.body a u = ok (forAll (clearRule (stagedPar u)) rs.flatten u) := by
  simp [clsInvalidate, places]

theorem changesOnly_clearRules (par : Nat) (l : List Nat) (s : State) : changesOnly [.tables] s (forAll (clearRule par) l s) :=
  forAll_rel (changesOnly_refl _) (fun _ _ _ => changesOnly_trans)
    (fun _ _ => changesOnly_of fun p => by cases p <;> simp [Part.same]) l s

theorem clsRead_body {a : Ask} {rs : List (List Nat)} {u : State}
    (places : rulePositions u (bodyWord a.cmd 0x14) (fld 10 0 (bodyWord a.cmd 0x18)) true = .ok rs)
    (bytes : dataBytes a.cmd = 96 * fld 10 0 (bodyWord a.cmd 0x18)) :
    clsRead.body a u = okData (rs.flatten.flatMap (ruleEntry u)) u := by
  simp [clsRead, places, bytes]

theorem ruleEntry_tcmdTaken (q : CmdSpec) (c : Cmd) (s : State) : ruleEntry (tcmdTaken q c s) = ruleEntry s := by
  funext i
  simp [ruleEntry]

/-- A rule's hits cleared. -/
def hitsCleared (i : Nat) (s : State) : State :=
  { s with tab := { s.tab with rules := kvUpd i (fun r => { r with hits := 0 }) s.tab.rules } }

theorem clsReadHits_body {a : Ask} {rs : List (List Nat)} {u : State}
    (places : rulePositions u (bodyWord a.cmd 0x14) (fld 10 0 (bodyWord a.cmd 0x18)) true = .ok rs)
    (bytes : dataBytes a.cmd = 8 * fld 10 0 (bodyWord a.cmd 0x18)) : clsReadHits.body a u =
      okData (rs.flatten.flatMap fun i => toLE 8 (ruleHits u i)) (forAll hitsCleared rs.flatten u) := by
  simp only [clsReadHits, places, bytes, ne_eq, not_true_eq_false, if_false]
  rfl

theorem changesOnly_hitsCleared (l : List Nat) (s : State) : changesOnly [.tables] s (forAll hitsCleared l s) :=
  forAll_rel (changesOnly_refl _) (fun _ _ _ => changesOnly_trans)
    (fun _ _ => changesOnly_of fun p => by cases p <;> simp [Part.same, hitsCleared]) l s

theorem kvGet_hitsCleared : ∀ (l : List Nat) (s : State) (i : Nat), kvGet i (forAll hitsCleared l s).tab.rules =
    if i ∈ l then (kvGet i s.tab.rules).map fun r => { r with hits := 0 } else kvGet i s.tab.rules
  | [], _, _ => by simp [forAll]
  | k :: l, s, i => by
    rw [forAll, kvGet_hitsCleared l (hitsCleared k s) i]
    by_cases same : i = k
    · subst same
      simp only [hitsCleared, kvGet_kvUpd]
      cases kvGet i s.tab.rules <;> simp
    · simp [hitsCleared, kvGet_kvUpd_ne same, same]

/-! ## WRITE and INVALIDATE of rules, as they leave the rules (R283, R284) -/

theorem runCmd_clsWrite {c : Cmd} {s : State} {i : Nat} (ready : tcmdReady clsWrite c s)
    (one : fld 10 0 (bodyWord c 0x18) = 1) (place : rulePositions s (bodyWord c 0x14) 1 false = .ok [[i]])
    (bytes : dataBytes c = 96) (free : ruleLive s i (curPar s) = false) :
    let t := runCmd clsWrite c s
    tcmdAnswered clsWrite c 0 [] t ∧ t.tab.rules = kvPut i (ruleWritten i (wordsLE 24 (bufBytes c s)) s) s.tab.rules ∧
      t.gen = { s.gen with dirty := true } ∧ changesOnly [.tables, .generations, .counters, .registers] s t := by
  have canon := regsCanonical_tcmdTaken clsWrite c ready.1
  have banks := sameBanks_trans (sameBanks_tcmdTaken clsWrite c ready.1) (sameBanks_bufRead c canon)
  have tab : (bufRead c (tcmdTaken clsWrite c s)).tab = { s.tab with tcmdBusy := true } := by simp
  have live : ruleLive (bufRead c (tcmdTaken clsWrite c s)) i (curPar (bufRead c (tcmdTaken clsWrite c s))) = false := by
    rw [ruleLive_congr (s := s) ⟨by rw [tab], by rw [tab]⟩, curPar, bufRead_gen, tcmdTaken_gen]
    exact free
  obtain ⟨left, only⟩ := runCmd_readsBuf_left ready (clsWrite_plain c) rfl (by simp [lengthOk, bytes])
    (clsWrite_body (a := ⟨_, c, _⟩) one ((rulePositions_congr banks _ _ _).trans place) bytes live)
    (changesOnly_writeRule _ _ _)
  refine ⟨left.answered, ?_, left.dirty rfl rfl, only⟩
  rw [left.tab, writeRule_rules, ruleWritten_congr banks (by simp) (by rw [tab]), tab]

theorem runCmd_clsInvalidate {c : Cmd} {s : State} {rs : List (List Nat)} (keys : rulesKeyed s) (ready : tcmdReady clsInvalidate c s)
    (places : rulePositions s (bodyWord c 0x08) (fld 10 0 (bodyWord c 0x0C)) false = .ok rs) :
    let t := runCmd clsInvalidate c s
    TcmdLeft clsInvalidate c 0 [] s (forAll (clearRule (stagedPar s)) rs.flatten (tcmdTaken clsInvalidate c s)) t ∧
      (∀ i, i ∉ rs.flatten → sameRule i s t) ∧
      (∀ i ∈ rs.flatten, ∀ par, ruleLive t i par = (decide (par % 2 ≠ stagedPar s) && ruleLive s i par)) ∧
      registersBut tcmdRegs s t ∧ changesOnly [.tables, .generations, .registers] s t := by
  have banks := sameBanks_tcmdTaken clsInvalidate c ready.1
  obtain ⟨left, regs, only⟩ := runCmd_short_left ready (clsInvalidate_plain c) rfl
    (clsInvalidate_body (a := ⟨_, c, _⟩) ((rulePositions_congr banks _ _ _).trans places)) (changesOnly_clearRules _ _ _)
  rw [stagedPar_tcmdTaken] at left
  have start : ∀ i, sameRule i s (tcmdTaken clsInvalidate c s) := fun i => ⟨by simp, by simp⟩
  have final : ∀ i, sameRule i (forAll (clearRule (stagedPar s)) rs.flatten (tcmdTaken clsInvalidate c s))
      (runCmd clsInvalidate c s) := fun i => ⟨by rw [left.tab], by rw [left.tab]⟩
  obtain ⟨others, named⟩ := forAll_clearRule (stagedPar_lt s) rs.flatten (s := tcmdTaken clsInvalidate c s)
    (by simpa [rulesKeyed] using keys)
  refine ⟨left, fun i out => sameRule_trans (start i) (sameRule_trans (others i out) (final i)), fun i m par => ?_, regs, only⟩
  rw [ruleLive_congr (final i), named i m, ruleLive_congr (start i)]

/-! ## The statement on streams and rules -/

/-- Settles O37: each command's body gives the state that its target makes, and its form the answer and the frame. -/
theorem streamAndRuleCommands : Obligations.StreamAndRuleCommands := by
  unfold Obligations.StreamAndRuleCommands
  refine ⟨fun c s => ⟨?_, ?_, ?_, ?_, ?_, ?_, ?_⟩, fun c s rules bad => ⟨?_, ?_, ?_, ?_⟩⟩
  · intro ready named
    obtain ⟨left, regs, only⟩ := runCmd_short_left ready (strWrite_plain c) rfl (strWrite_body named _)
      (changesOnly_setEntry _ _ _ _ _)
    refine ⟨_, rfl, left.answered, ?_, left.dirty rfl rfl, regs, only⟩
    rw [left.tab, setEntry_tab_idle (tcmdIdle_ready ready) (tcmdTaken_tab _ c s), stagedPar_tcmdTaken]
  · intro ready named
    obtain ⟨left, regs, only⟩ := runCmd_short_clean ready (strRead_plain c) rfl rfl (strRead_body named _) (changesOnly_refl _ _)
    refine ⟨_, rfl, ?_, regs, changesOnly_drop only (left.tab_kept ready)⟩
    have answered := left.answered
    simp only [streamWords_tcmdTaken] at answered
    exact answered
  · rintro i k ws rfl kind ready bytes rfl
    obtain ⟨_, form, _⟩ := checks_ready ready (hgtWrite_plain c)
    obtain ⟨left, only⟩ := runCmd_readsBuf_left ready (hgtWrite_plain c) rfl (lengthOk_of_formOk form (by decide) rfl)
      (hgtWrite_body (a := ⟨_, c, _⟩) kind rfl bytes _) (changesOnly_setEntry _ _ _ _ _)
    refine ⟨_, rfl, left.answered, ?_, left.dirty rfl rfl, only⟩
    rw [left.tab, setEntry_tab_idle (tcmdIdle_ready ready) (by simp), stagedPar_bufRead, stagedPar_tcmdTaken,
      hgtStored_congr (s := s) (by simp) (by simp)]
    rfl
  · rintro i k n rfl kind ready rfl bytes
    obtain ⟨left, hmem, only⟩ := runCmd_writesBuf_left ready (hgtRead_plain c) rfl rfl
      (hgtRead_body (a := ⟨_, c, _⟩) kind bytes _) (changesOnly_refl _ _)
    refine ⟨_, rfl, left.answered, ?_, changesOnly_drop only (left.tab_kept ready)⟩
    simp only [hmem, hgtWords_congr (s := s) (u := tcmdTaken hgtRead c s) (by simp)]
    rfl
  · rintro i k index kind ready bytes
    obtain ⟨counts, cleared⟩ := hgtCounters_busy (tcmdIdle_ready ready) (tcmdTaken_tab hgtReadCounters c s) k i
    rw [← counts] at bytes ⊢
    obtain ⟨left, hmem, only⟩ := runCmd_writesBuf_left ready (hgtReadCounters_plain c) rfl rfl
      (hgtReadCounters_body (a := ⟨_, c, _⟩) index kind bytes) (changesOnly_hgtCounters k i _)
    exact ⟨_, rfl, left.answered, hmem, left.tab.trans cleared, only⟩
  · rintro i index ready
    refine ⟨fun kind => ?_, fun kind => ?_⟩
    · obtain ⟨left, regs, only⟩ := runCmd_short_clean ready (hgtUnblock_plain c) rfl rfl
        (hgtUnblock_filter (a := ⟨_, c, _⟩) index kind _) (changesOnly_setFilter _ _ _)
      refine ⟨_, rfl, left.answered, ?_, regs, only⟩
      rw [left.filterAt_eq, filterAt_setFilter, filterAt_tcmdTaken]
    · obtain ⟨left, regs, only⟩ := runCmd_short_clean ready (hgtUnblock_plain c) rfl rfl
        (hgtUnblock_gate (a := ⟨_, c, _⟩) index kind _) (changesOnly_setSgate _ _ _)
      refine ⟨_, rfl, left.answered, ?_, regs, only⟩
      rw [left.sgateAt_eq, sgateAt_setSgate, sgateAt_tcmdTaken]
  · rintro i index ready kind
    obtain ⟨left, regs, only⟩ := runCmd_short_clean ready (hgtResetRcv_plain c) rfl rfl
      (hgtResetRcv_body (a := ⟨_, c, _⟩) index kind _) (changesOnly_setRecovery _ _ _)
    refine ⟨_, rfl, left.answered, ?_, regs, only⟩
    rw [left.recoveryAt_eq, recoveryAt_setRecovery, recoveryAt_tcmdTaken]
  · intro i ready one place bytes free
    obtain ⟨answered, written, dirty, only⟩ := runCmd_clsWrite ready one place bytes free
    refine ⟨_, rfl, answered, ?_, fun j ne => ?_, dirty, only⟩
    · rw [written, kvGet_kvPut]
      rfl
    · rw [written, kvGet_kvPut_ne i j _ ne]
  · intro rs ready places
    obtain ⟨left, others, named, regs, only⟩ := runCmd_clsInvalidate ⟨rules, bad⟩ ready places
    refine ⟨_, rfl, left.answered, fun i m => ⟨?_, ?_⟩, fun i out => (others i out).1, left.dirty rfl rfl, regs, only⟩
    · rw [named i m, Nat.mod_eq_of_lt (stagedPar_lt s)]
      simp
    · rw [named i m]
      simp [curPar_ne_stagedPar s]
  · intro rs ready places bytes
    have banks := sameBanks_tcmdTaken clsRead c ready.1
    obtain ⟨left, hmem, only⟩ := runCmd_writesBuf_left ready (clsRead_plain c) rfl rfl
      (clsRead_body (a := ⟨_, c, _⟩) ((rulePositions_congr banks _ _ _).trans places) bytes) (changesOnly_refl _ _)
    rw [ruleEntry_tcmdTaken] at hmem
    exact ⟨_, rfl, left.answered, hmem, left.tab_kept ready, changesOnly_drop only (left.tab_kept ready)⟩
  · intro rs ready places bytes
    have banks := sameBanks_tcmdTaken clsReadHits c ready.1
    obtain ⟨left, hmem, only⟩ := runCmd_writesBuf_left ready (clsReadHits_plain c) rfl rfl
      (clsReadHits_body (a := ⟨_, c, _⟩) ((rulePositions_congr banks _ _ _).trans places) bytes) (changesOnly_hitsCleared _ _)
    simp only [ruleHits, tcmdTaken_tab] at hmem
    have cleared : ∀ i, kvGet i (runCmd clsReadHits c s).tab.rules = if i ∈ rs.flatten then
        (kvGet i s.tab.rules).map fun r => { r with hits := 0 } else kvGet i s.tab.rules := fun i => by
      rw [left.tab, kvGet_hitsCleared, tcmdTaken_tab]
    refine ⟨_, rfl, left.answered, hmem, fun i m => ?_, fun i out => ?_, only⟩
    · rw [cleared, if_pos m]
    · rw [cleared, if_neg out]

end Sys2Proof.Proofs
end

section
/-! PROOFS. Scrubs and repairs (R285, R338, R385), and the settings that lie outside the generations: hash registers, banks, seeds,
the partition of HBM, counters (R278, R281, R339, R420, R494). -/

namespace Sys2Proof.Proofs

open Sys2Proof Sys2Proof.Machine Sys2Proof.Safety Sys2Proof.Laws

/-! ## The TCAM's scrub and repair (R285) -/

theorem exec_tcamScrub {i : Nat} (inside : i < 262144) (s : State) :
    exec (.tcamScrub i false true) s = .next (tcamBadFound i s) := by
  refine congrArg Host.Outcome.next (if_neg ?_)
  simp [inside]

/-- The validity bits that a rule has, both clear where none was written. -/
def validBits (r : Option Rule) : Bool × Bool := (r.map fun r => (r.v0, r.v1)).getD (false, false)

theorem tcamBadFound_tab {i : Nat} {s : State} (fresh : kvGet i s.tab.tcamBad = none) : (tcamBadFound i s).tab =
    { s.tab with rules := kvUpd i (fun r => { r with v0 := false, v1 := false }) s.tab.rules,
                 tcamBad := kvPut i (validBits (kvGet i s.tab.rules)) s.tab.tcamBad } := by
  simp [tcamBadFound, fresh, validBits]

theorem changesOnly_tcamBadFound (i : Nat) (s : State) : changesOnly [.host, .tables, .registers] s (tcamBadFound i s) :=
  changesOnly_of fun p => by cases p <;> simp [Part.same]

/-- A bad entry found: the rule, where there is one, is in no parity, and its bits are kept. -/
theorem tcamBadFound_state {i : Nat} {s : State} (fresh : kvGet i s.tab.tcamBad = none) :
    kvGet i (tcamBadFound i s).tab.rules = (kvGet i s.tab.rules).map (fun r => { r with v0 := false, v1 := false }) ∧
      kvGet i (tcamBadFound i s).tab.tcamBad = some (validBits (kvGet i s.tab.rules)) := by
  rw [tcamBadFound_tab fresh]
  exact ⟨kvGet_kvUpd _ _ _, kvGet_kvPut _ _ _⟩

/-- An entry rewritten with the bits kept for it. -/
def bitsRestored (i : Nat) (a b : Bool) (s : State) : State :=
  { s with tab := { s.tab with
      rules := kvUpd i (fun r => { r with v0 := a, v1 := b }) s.tab.rules, tcamBad := kvDel i s.tab.tcamBad } }

/-- A word of a memory is no longer bad. -/
def wordMended (x : Nat × Nat × Nat) (s : State) : State := { s with tab := { s.tab with bad := s.tab.bad.filter (· != x) } }

/-- A rule that is valid in a parity stands after its repair. -/
theorem exec_tcamRepair {i : Nat} {r : Rule} {a b : Bool} {s : State} (present : kvGet i s.tab.rules = some r)
    (kept : kvGet i s.tab.tcamBad = some (a, b)) (valid : (a || b) = true) : exec (.tcamRepair i) s =
      .next (emitParity 1 (ingressIsland (i / 32768)) 6 i (wordMended (6, i, i / 65536) (bitsRestored i a b s))) := by
  have standing : kvGet i (bitsRestored i a b s).tab.rules = some { r with v0 := a, v1 := b } := by
    simp [bitsRestored, kvGet_kvUpd, present]
  have untidied : tidyRule i (bitsRestored i a b s) = bitsRestored i a b s := tidyRule_valid standing valid
  have run : exec (.tcamRepair i) s = execTcamRepair i s := rfl
  simp only [run, execTcamRepair, kept, Option.isSome_some, Bool.true_or, if_true]
  exact congrArg (fun u => Host.Outcome.next (emitParity 1 (ingressIsland (i / 32768)) 6 i (wordMended (6, i, i / 65536) u))) untidied

theorem changesOnly_emitParity (typ island table idx : Nat) (s : State) :
    changesOnly [.host, .registers] s (emitParity typ island table idx s) :=
  changesOnly_emit _ _ _ _ s

theorem changesOnly_wordMended (x : Nat × Nat × Nat) (s : State) : changesOnly [.tables] s (wordMended x s) :=
  changesOnly_of fun p => by cases p <;> simp [Part.same, wordMended]

theorem changesOnly_bitsRestored (i : Nat) (a b : Bool) (s : State) : changesOnly [.tables] s (bitsRestored i a b s) :=
  changesOnly_of fun p => by cases p <;> simp [Part.same, bitsRestored]

/-! ## Bad words of the other memories (R338, R385) -/

theorem exec_tableScrub {mem : Nat} (scrubbed : mem ∈ [1, 2, 3, 4, 32, 33]) (idx : Nat) {pair : Nat} (low : pair < 4) (s : State) :
    exec (.tableScrub mem idx pair true) s = .next (parityFound mem idx (2 * pair) s) := by
  have named : [1, 2, 3, 4, 32, 33].contains mem = true := List.contains_iff_mem.mpr scrubbed
  have run : exec (.tableScrub mem idx pair true) s = execTableScrub mem idx pair true s := rfl
  simp only [run, execTableScrub, named, Bool.and_self, whenDo, if_true, Nat.mod_eq_of_lt low]

theorem changesOnly_parityFound (mem idx sl : Nat) (s : State) :
    changesOnly [.host, .tables, .registers] s (parityFound mem idx sl s) :=
  changesOnly_of fun p => by cases p <;> simp [Part.same]

/-- An error found makes its word bad, and no other. -/
theorem badWord_parityFound (mem idx pair k : Nat) (s : State) :
    badWord (parityFound mem idx (2 * pair) s) mem idx k = (decide (k = pair) || badWord s mem idx k) := by
  have half : 2 * pair / 2 = pair := by omega
  unfold parityFound
  rw [half]
  split
  · next bad =>
    by_cases same : k = pair
    · simp [same, bad]
    · simp [same]
  · simp [badWord]

theorem badWord_wordMended (mem idx pair k : Nat) (s : State) :
    badWord (wordMended (mem, idx, pair) s) mem idx k = (decide (k ≠ pair) && badWord s mem idx k) := by
  simp [badWord, wordMended, Bool.and_comm]

theorem exec_tableRepair {mem idx sl : Nat} {s : State} (other : mem ≠ 6) (low : sl < 8)
    (bad : badWord s mem idx (sl / 2) = true) :
    exec (.tableRepair mem idx sl) s =
      .next (emitParity 1 (ingressIsland sl) (memTarget mem) idx (wordMended (mem, idx, sl / 2) s)) := by
  have run : exec (.tableRepair mem idx sl) s = execTableRepair mem idx sl s := rfl
  simp only [run, execTableRepair, Nat.mod_eq_of_lt low, bad, bne_iff_ne.mpr other, Bool.and_self, whenDo, if_true]
  rfl

/-- A word of an engine is no longer bad. -/
def engineWordMended (x : Nat × Nat × Nat) (s : State) : State :=
  { s with eng := { s.eng with bad := s.eng.bad.filter (· != x) } }

theorem exec_engineWordRepair {c k key : Nat} {s : State} (bad : (c, k, key) ∈ s.eng.bad) :
    exec (.engineWordRepair c k key) s = .next (emitParity 1 (64 + c) 9 key (engineWordMended (c, k, key) s)) := by
  have run : exec (.engineWordRepair c k key) s = execEngineWordRepair c k key s := rfl
  simp only [run, execEngineWordRepair, List.contains_iff_mem.mpr bad, whenDo, if_true]
  rfl

theorem changesOnly_engineWordMended (x : Nat × Nat × Nat) (s : State) : changesOnly [.engines] s (engineWordMended x s) :=
  changesOnly_of fun p => by cases p <;> simp [Part.same, engineWordMended]

/-! ## A setting taken, and one refused -/

/-- A setting that is taken: its register holds it, and nothing else changes. -/
theorem setRg_taken (off : Nat) {v : Nat} (small : v < 2 ^ 32) {s : State} (canon : RegsCanonical s) :
    rg (setRg off v s) off = v ∧ registersBut [off] s (setRg off v s) ∧ changesOnly [.registers] s (setRg off v s) :=
  ⟨(rg_setRg off v canon).trans (Nat.mod_eq_of_lt small), registersBut_setRg off v canon, changesOnly_setRg off v s⟩

/-- A setting that is refused: the sticky bit shows it, and nothing else changes. -/
theorem stickRg_refused (off : Nat) {i : Nat} (small : i < 32) {s : State} (canon : RegsCanonical s) :
    bit i (rg (stickRg off i s) off) = true ∧ registersBut [off] s (stickRg off i s) ∧
      changesOnly [.registers] s (stickRg off i s) :=
  ⟨bit_stickRg canon small, registersBut_stickRg off i canon, changesOnly_setRg off _ s⟩

/-! ## Hash registers, banks and seeds (R278, R281, R339) -/

theorem exec_hashConfigWrite {seed : Bool} {s : State} (v : Word)
    (opened : pf0Open (if seed then R.prsHashSeed 0 else R.prsHashCfg 0) s) :
    exec (.hashConfigWrite seed v) s = .next (hashWrite seed v.toNat s) :=
  congrArg Host.Outcome.next (pf0Write_of_open _ opened)

theorem hashWrite_stage {s : State} (stage : s.md.mode = .stage) (seed : Bool) (v : Nat) :
    hashWrite seed v s = if seed then setRg (R.prsHashSeed 0) v s else setRg (R.prsHashCfg 0) (v % 32) s :=
  if_pos (.inl stage)

theorem hashWrite_refused {s : State} (stage : s.md.mode ≠ .stage) (wake : s.md.mode ≠ .wake) (seed : Bool) (v : Nat) :
    hashWrite seed v s = stickRg (R.prsStatus 0) 0 s :=
  if_neg (not_or.mpr ⟨stage, wake⟩)

theorem exec_bankConfigWrite {sl b : Nat} (slice : sl < 8) (bank : b < 8) {s : State} (v : Word)
    (opened : pf0Open (R.clsBankCfg sl b) s) : exec (.bankConfigWrite sl b v) s = .next (bankWrite sl b v.toNat s) :=
  congrArg Host.Outcome.next ((if_pos ⟨slice, bank⟩).trans (pf0Write_of_open _ opened))

/-- A bank's settings that name a KEY_TYPE, with the WIDE that it asks for. -/
def bankLegal (v : Nat) : Prop := fld 3 1 v ∈ [0, 1, 2, 4, 5] ∧ bit 0 v = decide (4 ≤ fld 3 1 v)

theorem bankWrite_taken {sl b v : Nat} {s : State} (legal : bankLegal v) (free : bankHasRule s sl b = false) :
    bankWrite sl b v s = setRg (R.clsBankCfg sl b) (v % 16) s := by
  obtain ⟨named, wide⟩ := legal
  refine if_neg ?_
  simp only [List.mem_cons, List.not_mem_nil, or_false] at named
  rcases named with e | e | e | e | e <;> simp [e, wide, free]

theorem bankWrite_refused {sl b v : Nat} {s : State}
    (refused : ¬ bankLegal v ∨ bankHasRule s sl b = true ∧ v % 16 ≠ rg s (R.clsBankCfg sl b) % 16) :
    bankWrite sl b v s = stickRg (R.clsStatus sl) 0 s := by
  refine if_pos ?_
  rcases refused with illegal | ⟨rule, new⟩
  · have low : fld 3 1 v < 8 := Nat.mod_lt _ (by decide)
    unfold bankLegal at illegal
    by_cases wide : bit 0 v = decide (4 ≤ fld 3 1 v)
    · have unnamed : fld 3 1 v ∉ [0, 1, 2, 4, 5] := fun named => illegal ⟨named, wide⟩
      have left : fld 3 1 v = 3 ∨ fld 3 1 v = 6 ∨ fld 3 1 v = 7 := by
        simp only [List.mem_cons, List.not_mem_nil, or_false, not_or] at unnamed
        omega
      rcases left with e | e | e <;> simp [e]
    · simp [bne_iff_ne.mpr wide]
  · simp [rule, new]

theorem exec_seedWrite {one : Bool} {s : State} (v : Word) (opened : pf0Open (if one then R.fdbHashSeed1 else R.fdbHashSeed0) s) :
    exec (.seedWrite one v) s = .next (seedWrite (b2n one) v.toNat s) :=
  congrArg Host.Outcome.next (pf0Write_of_open _ opened)

theorem seedWrite_empty {s : State} (empty : s.tab.fdb = []) (one : Bool) (v : Nat) :
    seedWrite (b2n one) v s = setRg (if one then R.fdbHashSeed1 else R.fdbHashSeed0) v s := by
  cases one <;> simp [seedWrite, empty, b2n]

theorem seedWrite_used {s : State} (used : s.tab.fdb ≠ []) (h v : Nat) : seedWrite h v s = stickRg R.fdbStatus 0 s :=
  if_neg (by simpa using used)

/-! ## The partition of HBM (R420) -/

theorem exec_hbmPartitionWrite {s : State} (w : Word) (opened : pf0Open R.bpmHbmPart s) :
    exec (.hbmPartitionWrite w) s = .next (partitionWrite w.toNat s) :=
  congrArg Host.Outcome.next (pf0Write_of_open _ opened)

theorem partitionWrite_refused {v : Nat} {s : State} (refused : s.md.mode ≠ .stage ∧ s.md.mode ≠ .wake ∨
    partitionFits (resChannels s) (fld 4 0 v) (fld 14 8 v) (fld 19 16 v) = false) :
    partitionWrite v s = stickRg R.bpmStatus 1 s :=
  if_pos refused

theorem setPartition_buf (res g es : Nat) (s : State) :
    (setPartition res g es s).buf = { s.buf with resGib := res, recGib := g, esGib := es } := by
  simp [setPartition]

theorem changesOnly_setPartition (res g es : Nat) (s : State) :
    changesOnly [.buffer, .recorder, .registers] s (setPartition res g es s) :=
  changesOnly_of fun p => by cases p <;> simp [Part.same]

/-- A partition that fits is in force, anew where it differs from the one before. -/
theorem partitionWrite_taken {v : Nat} {s : State} (stage : s.md.mode = .stage)
    (fits : partitionFits (resChannels s) (fld 4 0 v) (fld 14 8 v) (fld 19 16 v) = true) :
    let t := partitionWrite v s
    (t.buf.resGib = fld 4 0 v ∧ t.buf.recGib = fld 14 8 v ∧ t.buf.esGib = fld 19 16 v) ∧
      changesOnly [.buffer, .recorder, .registers] s t := by
  intro t
  have run : t = if fld 4 0 v = s.buf.resGib ∧ fld 14 8 v = s.buf.recGib ∧ fld 19 16 v = s.buf.esGib then s
      else setPartition (fld 4 0 v) (fld 14 8 v) (fld 19 16 v) s := if_neg (by simp [stage, fits])
  rw [run]
  split
  · next same =>
    obtain ⟨res, g, es⟩ := same
    exact ⟨⟨res.symm, g.symm, es.symm⟩, changesOnly_refl _ s⟩
  · rw [setPartition_buf]
    exact ⟨⟨rfl, rfl, rfl⟩, changesOnly_setPartition _ _ _ s⟩

/-! ## Settings of counters (R494) -/

theorem exec_pmuSettingWrite {u k reg : Nat} (unit : u < 30) (counter : k < 8) (register : reg < 3) {s : State} (w : Word)
    (opened : pf0Open (settingReg u k reg) s) (present : pmuPresent s u = true) :
    exec (.pmuSettingWrite u k reg w) s = .next (startCtr u k (setRg (settingReg u k reg) (settingWord reg w.toNat) s)) := by
  refine congrArg Host.Outcome.next ((if_pos ⟨unit, counter, register⟩).trans ((pf0Write_of_open _ opened).trans ?_))
  simp [whenDo, present]

theorem settingWord_lt (reg w : Nat) : settingWord reg w < 2 ^ 32 := by
  unfold settingWord
  split
  · omega
  · omega
  · unfold clampTo
    split
    · omega
    · split <;> omega

theorem startCtr_off {u k : Nat} {s : State} (off : fld 7 0 (pmuEvt s u k) = 0) :
    (startCtr u k s).pmu.ctrs = kvDel (8 * u + k) s.pmu.ctrs := by
  simp [startCtr, off]

theorem startCtr_on {u k : Nat} {s : State} (on : fld 7 0 (pmuEvt s u k) ≠ 0) : (startCtr u k s).pmu.ctrs =
    kvPut (8 * u + k) { since := s.elapsed, first := nextWindow s u k } s.pmu.ctrs := by
  simp [startCtr, on, setCtr]

theorem pmuEvt_startCtr (u k : Nat) (s : State) : pmuEvt (startCtr u k s) u k = pmuEvt s u k := rg_congr (by simp) _

theorem changesOnly_startCtr (u k : Nat) (s : State) : changesOnly [.counters] s (startCtr u k s) :=
  changesOnly_of fun p => by cases p <;> simp [Part.same]

/-- A counter starts anew under its settings, and no other counter changes. -/
theorem startCtr_ctrs {u k : Nat} {s : State} (sorted : keyed s.pmu.ctrs) :
    let t := startCtr u k s
    (fld 7 0 (pmuEvt t u k) = 0 → kvGet (8 * u + k) t.pmu.ctrs = none) ∧
      (fld 7 0 (pmuEvt t u k) ≠ 0 → (kvGet (8 * u + k) t.pmu.ctrs).map (fun c => (c.value, c.since)) = some (0, s.elapsed)) ∧
      ∀ n, n ≠ 8 * u + k → kvGet n t.pmu.ctrs = kvGet n s.pmu.ctrs := by
  intro t
  rw [pmuEvt_startCtr]
  by_cases off : fld 7 0 (pmuEvt s u k) = 0
  · rw [startCtr_off off]
    exact ⟨fun _ => kvGet_kvDel_same sorted _, fun on => absurd off on, fun n ne => kvGet_kvDel_ne sorted ne⟩
  · rw [startCtr_on off]
    exact ⟨fun off' => absurd off' off, fun _ => by rw [kvGet_kvPut]; rfl, fun n ne => kvGet_kvPut_ne _ n _ ne _⟩

/-! ## The statement on repairs and settings -/

/-- Settles O42: what a scrub finds and a repair mends is a change of the tables and an event, and a host's write is either stored
or shown as refused. -/
theorem repairsAndSettings : Obligations.RepairsAndSettings := by
  unfold Obligations.RepairsAndSettings
  refine ⟨?_, ?_, ?_, ?_, ?_, ?_, ?_, ?_, ?_, ?_⟩
  · intro i r s inside present fresh
    obtain ⟨rule, bits⟩ := tcamBadFound_state fresh
    rw [present] at rule bits
    exact ⟨_, exec_tcamScrub inside s, rule, bits, changesOnly_tcamBadFound i s⟩
  · intro i s inside absent fresh
    obtain ⟨rule, bits⟩ := tcamBadFound_state fresh
    rw [absent] at rule bits
    exact ⟨_, exec_tcamScrub inside s, rule, bits, changesOnly_tcamBadFound i s⟩
  · intro i r a b s rules bad present kept valid
    refine ⟨_, exec_tcamRepair present kept valid, ?_, ?_, ?_⟩
    · simp [wordMended, bitsRestored, kvGet_kvUpd, present]
    · simpa [wordMended, bitsRestored] using kvGet_kvDel_same bad i
    · exact changesOnly_trans (changesOnly_mono (changesOnly_bitsRestored i a b s) (by simp))
        (changesOnly_trans (changesOnly_mono (changesOnly_wordMended _ _) (by simp))
          (changesOnly_mono (changesOnly_emitParity _ _ _ _ _) (by simp)))
  · intro mem idx sl s scrubbed low
    refine ⟨⟨_, exec_tableScrub scrubbed idx (by omega) s, ?_, fun k ne => ?_, changesOnly_parityFound _ _ _ s⟩, fun bad => ?_⟩
    · simp [badWord_parityFound]
    · simp [badWord_parityFound, ne]
    · have other : mem ≠ 6 := by rintro rfl; simp at scrubbed
      have mended : ∀ k, badWord (emitParity 1 (ingressIsland sl) (memTarget mem) idx (wordMended (mem, idx, sl / 2) s)) mem idx k =
          (decide (k ≠ sl / 2) && badWord s mem idx k) := fun k => by
        rw [← badWord_wordMended, badWord, badWord, changesOnly_emitParity _ _ _ _ _ .tables (by decide)]
      refine ⟨_, exec_tableRepair other low bad, ?_, fun k ne => ?_, ?_⟩
      · simp [mended]
      · simp [mended, ne]
      · exact changesOnly_trans (changesOnly_mono (changesOnly_wordMended _ s) (by simp))
          (changesOnly_mono (changesOnly_emitParity _ _ _ _ _) (by simp))
  · intro c k key s bad
    refine ⟨_, exec_engineWordRepair bad, ?_, ?_⟩
    · simp [engineWordMended]
    · exact changesOnly_trans (changesOnly_mono (changesOnly_engineWordMended _ s) (by simp))
        (changesOnly_mono (changesOnly_emitParity _ _ _ _ _) (by simp))
  · intro v s canon seedOpen cfgOpen
    refine ⟨fun stage => ⟨?_, ?_⟩, fun stage seed => ?_⟩
    · rw [exec_hashConfigWrite (seed := true) v seedOpen, hashWrite_stage stage, if_pos rfl]
      exact ⟨_, rfl, setRg_taken (R.prsHashSeed 0) v.isLt canon⟩
    · rw [exec_hashConfigWrite (seed := false) v cfgOpen, hashWrite_stage stage, if_neg Bool.false_ne_true]
      exact ⟨_, rfl, setRg_taken (R.prsHashCfg 0) (by omega) canon⟩
    · have opened : pf0Open (if seed then R.prsHashSeed 0 else R.prsHashCfg 0) s := by
        cases seed with
        | false => exact cfgOpen
        | true => exact seedOpen
      obtain ⟨_, wake, _⟩ := mode_of_hostOpen seedOpen.1
      rw [exec_hashConfigWrite v opened, hashWrite_refused stage wake]
      exact ⟨_, rfl, stickRg_refused (R.prsStatus 0) (by decide) canon⟩
  · intro sl b v s canon slice bank opened
    refine ⟨fun named wide free => ?_, fun refused => ?_⟩
    · rw [exec_bankConfigWrite slice bank v opened, bankWrite_taken ⟨named, wide⟩ free]
      exact ⟨_, rfl, setRg_taken (R.clsBankCfg sl b) (by omega) canon⟩
    · have reason : ¬ bankLegal v.toNat ∨ bankHasRule s sl b = true ∧ v.toNat % 16 ≠ rg s (R.clsBankCfg sl b) % 16 := by
        rcases refused with unnamed | wide | held
        · exact .inl fun ⟨named, _⟩ => unnamed named
        · exact .inl fun ⟨_, asked⟩ => wide asked
        · exact .inr held
      rw [exec_bankConfigWrite slice bank v opened, bankWrite_refused reason]
      exact ⟨_, rfl, stickRg_refused (R.clsStatus sl) (by decide) canon⟩
  · rintro one v off s canon rfl opened
    refine ⟨fun empty => ?_, fun used => ?_⟩
    · rw [exec_seedWrite v opened, seedWrite_empty empty]
      exact ⟨_, rfl, setRg_taken _ v.isLt canon⟩
    · rw [exec_seedWrite v opened, seedWrite_used used]
      exact ⟨_, rfl, stickRg_refused R.fdbStatus (by decide) canon⟩
  · rintro w res g es s canon opened rfl rfl rfl
    rw [exec_hbmPartitionWrite w opened]
    refine ⟨fun stage fits => ?_, fun refused => ?_⟩
    · obtain ⟨⟨res, g, es⟩, only⟩ := partitionWrite_taken stage fits
      exact ⟨_, rfl, res, g, es, changesOnly_mono only (by simp)⟩
    · obtain ⟨_, wake, _⟩ := mode_of_hostOpen opened.1
      rw [partitionWrite_refused (refused.imp_left fun stage => ⟨stage, wake⟩)]
      exact ⟨_, rfl, stickRg_refused R.bpmStatus (by decide) canon⟩
  · intro u k reg w s canon sorted unit counter register opened present
    obtain ⟨held, others, only⟩ := setRg_taken (settingReg u k reg) (settingWord_lt reg w.toNat) canon
    obtain ⟨off, on, kept⟩ := startCtr_ctrs (u := u) (k := k)
      (s := setRg (settingReg u k reg) (settingWord reg w.toNat) s) (by simpa using sorted)
    refine ⟨_, exec_pmuSettingWrite unit counter register w opened present, ?_, ?_, off, ?_, ?_, ?_⟩
    · rw [rg_congr (changesOnly_startCtr u k _ .registers (by decide)), held]
    · exact registersBut_trans others (registersBut_of_regs (changesOnly_startCtr u k _ .registers (by decide)) _)
    · simpa using on
    · simpa using kept
    · exact changesOnly_trans (changesOnly_mono only (by simp)) (changesOnly_mono (changesOnly_startCtr u k _) (by simp))

end Sys2Proof.Proofs
end

section
/-! PROOFS. The commit engine (R341, R347 to R357): how a commit or a discard begins and is refused, and how the range check ends. -/

namespace Sys2Proof.Proofs

open Sys2Proof Sys2Proof.Machine Sys2Proof.Safety Sys2Proof.Laws

/-! ## GEN_CMD (R351, R355, R356) -/

theorem commitRefusal_accepted {s : State} (mode : s.md.mode = .stage ∨ s.md.mode = .run) (idle : s.gen.st = 0) (image : Bool) :
    commitRefusal s image = none := by
  rcases mode with mode | mode <;> simp [commitRefusal, idle, inStageRun, mode]

theorem commitRefusal_busy {s : State} (busy : s.gen.st ≠ 0) (image : Bool) : commitRefusal s image = some 0x101 := by
  simp [commitRefusal, busy]

theorem commitRefusal_drain {s : State} (mode : s.md.mode = .drain) (idle : s.gen.st = 0) : commitRefusal s false = some 8 := by
  simp [commitRefusal, idle, inStageRun, mode]

theorem genCmdWrite_accepted {s : State} (opened : pf0Open R.genCmd s) (accepted : commitRefusal s false = none)
    (f : State → State) : genCmdWrite f s = f s := by
  rw [genCmdWrite, pf0Write_of_open _ opened, accepted]

theorem genCmdWrite_refused {s : State} {n : Nat} (opened : pf0Open R.genCmd s) (refused : commitRefusal s false = some n)
    (f : State → State) : genCmdWrite f s = setLastStatus n s := by
  rw [genCmdWrite, pf0Write_of_open _ opened, refused]

/-- COMMIT, COMMIT_AT and DISCARD_STAGED through GEN_CMD are one write with three effects. -/
theorem exec_genCmd {i : Instr} (named : i ∈ [Instr.commit none, .commitAt none, .discardStaged none]) (s : State) :
    ∃ f, exec i s = .next (genCmdWrite f s) := by
  simp only [List.mem_cons, List.not_mem_nil, or_false] at named
  rcases named with rfl | rfl | rfl <;> exact ⟨_, rfl⟩

theorem changesOnly_modGen (f : Gen → Gen) (s : State) : changesOnly [.generations] s (modGen f s) :=
  changesOnly_of fun p => by cases p <;> simp [Part.same]

/-- A refusal through GEN_CMD shows in LAST_STATUS alone. -/
theorem exec_genCmd_refused {s : State} {n : Nat} (opened : pf0Open R.genCmd s) (refused : commitRefusal s false = some n)
    {i : Instr} (named : i ∈ [Instr.commit none, .commitAt none, .discardStaged none]) :
    ∃ t, exec i s = .next t ∧ t.gen = { s.gen with lastStatus := n } ∧ changesOnly [.generations] s t := by
  obtain ⟨f, row⟩ := exec_genCmd named s
  rw [row, genCmdWrite_refused opened refused]
  exact ⟨_, rfl, rfl, changesOnly_modGen _ s⟩

/-! ## The commands of the GEN target (R357) -/

/-- A command that changes nothing staged and has no buffer is its target's body, once its checks are passed. -/
theorem runSpec_reader {q : CmdSpec} {c : Cmd} {s : State} (ready : tcmdReady q c s) (short : q.form = .short)
    (reader : q.changes = false) (mode : q.modes (tcmdTaken q c s) = true) (plain : q.regions c = []) :
    runSpec q ⟨tcmdWaiter q c s, c, []⟩ (tcmdTaken q c s) = q.body ⟨tcmdWaiter q c s, c, []⟩ (tcmdTaken q c s) := by
  obtain ⟨_, _, _, _, _, _, form, _⟩ := ready
  simp [runSpec, mode, form, plain, short, reader, readBuf]

/-- A command whose answer comes later leaves the register busy. -/
theorem runCmd_later {q : CmdSpec} {c : Cmd} {s st : State} (ready : tcmdReady q c s) (short : q.form = .short)
    (reader : q.changes = false) (mode : q.modes (tcmdTaken q c s) = true) (plain : q.regions c = [])
    (body : q.body ⟨tcmdWaiter q c s, c, []⟩ (tcmdTaken q c s) = later st) : runCmd q c s = st := by
  rw [runCmd_ready ready, runAnswer, runSpec_reader ready short reader mode plain, body]
  rfl

theorem tcmdTaken_md (q : CmdSpec) (c : Cmd) (s : State) : (tcmdTaken q c s).md = s.md :=
  changesOnly_tcmdTaken q c s .modes (by decide)

theorem commitRefusal_tcmdTaken (q : CmdSpec) (c : Cmd) (s : State) (image : Bool) :
    commitRefusal (tcmdTaken q c s) image = commitRefusal s image := by
  simp [commitRefusal, inStageRun, tcmdTaken_md]

/-- A change of the generations once the register has a command. -/
theorem laterChange_keeps {q : CmdSpec} {c : Cmd} {s : State} (canon : RegsCanonical s) (f : Gen → Gen) :
    (modGen f (tcmdTaken q c s)).tab.tcmdBusy = true ∧ registersBut tcmdRegs s (modGen f (tcmdTaken q c s)) ∧
      changesOnly [.tables, .generations, .registers] s (modGen f (tcmdTaken q c s)) := by
  refine ⟨by simp, ?_, ?_⟩
  · exact registersBut_mono (registersBut_tcmdTaken q c canon) (List.subset_append_left _ _)
  · exact changesOnly_trans (changesOnly_mono (changesOnly_tcmdTaken q c s) (by simp))
      (changesOnly_mono (changesOnly_modGen _ _) (by simp))

/-- The time that a COMMIT command asks for. -/
def askedTime (c : Cmd) : Option Nat :=
  if bit 0 (bodyWord c 0x08) then some (givenTime (ofLE (bodyAt c 0x0C 8)) (fld 29 0 (bodyWord c 0x14))) else none

theorem askedTime_isSome (c : Cmd) : (askedTime c).isSome = bit 0 (bodyWord c 0x08) := by
  unfold askedTime
  split <;> simp_all

theorem runCmd_genCommit {c : Cmd} {s : State} (ready : tcmdReady genCommitCmd c s) (accepted : ∀ image, commitRefusal s image = none) :
    runCmd genCommitCmd c s = startChecking (askedTime c) false (some (tcmdWaiter genCommitCmd c s)) (bit 1 (bodyWord c 0x08))
      (tcmdTaken genCommitCmd c s) := by
  refine runCmd_later ready rfl rfl rfl rfl ?_
  simp only [genCommitCmd, commitRefusal_tcmdTaken, accepted]
  rfl

theorem runCmd_genDiscard {c : Cmd} {s : State} (ready : tcmdReady genDiscardCmd c s) (accepted : ∀ image, commitRefusal s image = none) :
    runCmd genDiscardCmd c s = startDiscard (some (tcmdWaiter genDiscardCmd c s)) (tcmdTaken genDiscardCmd c s) := by
  refine runCmd_later ready rfl rfl rfl rfl ?_
  simp only [genDiscardCmd, commitRefusal_tcmdTaken, accepted]

theorem idle_ready {q : CmdSpec} {c : Cmd} {s : State} (ready : tcmdReady q c s) : s.gen.st = 0 := by
  obtain ⟨_, _, _, _, idle, _⟩ := ready
  exact idle

theorem genStatusWord_congr {s u : State} (gen : u.gen = s.gen) : genStatusWord u = genStatusWord s := by
  simp only [genStatusWord, gen]

theorem genInflight_congr {s u : State} (gen : u.gen = s.gen) (acct : u.acct = s.acct) : genInflight u = genInflight s := by
  have par : curPar u = curPar s := by rw [curPar, curPar, gen]
  rw [genInflight, genInflight, inflight, inflight, par, gen, acct]

/-- RESULT of STATUS: the number in force, GEN_STATUS and GEN_INFLIGHT (R355, R357). -/
def statusResult (s : State) : List Byte := toLE 4 s.gen.current ++ toLE 4 (genStatusWord s) ++ toLE 4 (genInflight s)

theorem statusResult_tcmdTaken (q : CmdSpec) (c : Cmd) (s : State) : statusResult (tcmdTaken q c s) = statusResult s := by
  have acct : (tcmdTaken q c s).acct = s.acct := changesOnly_tcmdTaken q c s .accounts (by decide)
  rw [statusResult, tcmdTaken_gen, genStatusWord_congr (tcmdTaken_gen q c s), genInflight_congr (tcmdTaken_gen q c s) acct]
  rfl

theorem runCmd_genStatus {c : Cmd} {s : State} (ready : tcmdReady genStatusCmd c s) :
    runCmd genStatusCmd c s = tcmdDone genStatusCmd c 0 (statusResult s) (tcmdTaken genStatusCmd c s) := by
  have mode : genStatusCmd.modes (tcmdTaken genStatusCmd c s) = true := by
    obtain ⟨_, _, opened, _⟩ := ready
    simpa [genStatusCmd, inOpen, hostOpen, tcmdTaken_md] using opened
  rw [runCmd_ready ready, ← statusResult_tcmdTaken genStatusCmd c s]
  refine runAnswer_done (data := []) ?_
  rw [runSpec_reader ready rfl rfl mode rfl]
  rfl

/-! ## Reports and events -/

theorem changesOnly_forAll {α : Type} {ps : List Part} {f : α → State → State} (each : ∀ a s, changesOnly ps s (f a s))
    (l : List α) (s : State) : changesOnly ps s (forAll f l s) :=
  forAll_rel (changesOnly_refl ps) (fun _ _ _ => changesOnly_trans) each l s

theorem changesOnly_whenDo {ps : List Part} {f : State → State} (each : ∀ s, changesOnly ps s (f s)) (b : Bool) (s : State) :
    changesOnly ps s (whenDo b f s) := by
  cases b
  · exact changesOnly_refl ps s
  · exact each s

theorem changesOnly_reportAll (gen : Nat) (refused byCtrl : Bool) (rs : List Clamp) (s : State) :
    changesOnly [.host, .registers] s (reportAll gen refused byCtrl rs s) :=
  changesOnly_of fun p => by cases p <;> simp [Part.same]

theorem changesOnly_breach (i : Nat) (s : State) : changesOnly [.host, .registers] s (breach i s) :=
  changesOnly_of fun p => by cases p <;> simp [Part.same]

theorem changesOnly_emitCommit (typ gen status : Nat) (s : State) :
    changesOnly [.host, .registers] s (emitCommit typ gen status s) :=
  changesOnly_of fun p => by cases p <;> simp [Part.same]

theorem changesOnly_incRg64 (off : Nat) (s : State) : changesOnly [.registers] s (incRg64 off s) :=
  changesOnly_of fun p => by cases p <;> simp [Part.same]

theorem changesOnly_stickRg (off i : Nat) (s : State) : changesOnly [.registers] s (stickRg off i s) :=
  changesOnly_of fun p => by cases p <;> simp [Part.same]

theorem changesOnly_drew (s : State) : changesOnly [.freeCount] s (drew s) :=
  changesOnly_of fun p => by cases p <;> simp [Part.same]

/-! ## What the range check changes (R125, R126, R413) -/

/-- What each step of a run leaves alone, the run leaves alone. -/
theorem foldl_check {α : Type} {ps : List Part} {f : Check → α → Check} (each : ∀ c a, changesOnly ps c.st (f c a).st) :
    ∀ (l : List α) (c : Check), changesOnly ps c.st (l.foldl f c).st
  | [], c => changesOnly_refl ps c.st
  | a :: l, c => changesOnly_trans (each c a) (foldl_check each l (f c a))

theorem changesOnly_putStaged (h : RegHit) (v : Nat) (s : State) : changesOnly [.registers] s (putStaged h v s) :=
  changesOnly_of fun p => by cases p <;> simp [Part.same, putStaged]

theorem changesOnly_checkField (h : RegHit) (c : Check) (f : RegField) : changesOnly [.registers] c.st (checkField h c f).st := by
  unfold checkField
  dsimp only
  split
  · exact changesOnly_refl _ _
  · exact changesOnly_putStaged _ _ _

theorem changesOnly_checkReg (c : Check) (off : Nat) : changesOnly [.registers] c.st (checkReg c off).st := by
  unfold checkReg
  split
  · exact changesOnly_refl _ _
  · exact foldl_check (changesOnly_checkField _) _ _

theorem changesOnly_checkTables (c : Check) : changesOnly [.tables] c.st (checkTables c).st := by
  unfold checkTables
  refine changesOnly_trans (changesOnly_trans (foldl_check (fun c e => ?_) _ c) (foldl_check (fun c e => ?_) _ _))
    (foldl_check (fun c e => ?_) _ _)
  · dsimp only
    split
    · exact changesOnly_refl _ _
    · exact changesOnly_setEntry _ _ _ _ _
  · dsimp only
    split
    · exact changesOnly_refl _ _
    · exact changesOnly_of fun p => by cases p <;> simp [Part.same]
  · dsimp only
    split
    · exact changesOnly_refl _ _
    · split
      · exact changesOnly_refl _ _
      · exact changesOnly_setEntry _ _ _ _ _

theorem changesOnly_lowerMins : ∀ (is : List Nat) (need : Nat) (c : Check), changesOnly [.registers] c.st (lowerMins is need c).2.st
  | [], _, c => changesOnly_refl _ c.st
  | i :: is, need, c => by
    unfold lowerMins
    dsimp only
    split
    · exact changesOnly_lowerMins is need c
    · exact changesOnly_trans (changesOnly_setRg _ _ c.st) (changesOnly_lowerMins is _ ⟨setRgF _ _ _ _ c.st, _⟩)

theorem changesOnly_poolCheck (c : Check) : changesOnly [.registers] c.st (poolCheck c).st := by
  unfold poolCheck
  extract_lets u limit excess
  clear_value limit excess
  split
  · exact changesOnly_refl _ _
  · next pairs _ =>
    have lowered := changesOnly_lowerMins pairs excess c
    generalize lowerMins pairs excess c = r at lowered
    obtain ⟨left, c1⟩ := r
    dsimp only
    split
    · exact lowered
    · split
      · exact lowered
      · exact changesOnly_trans lowered (changesOnly_setRg _ _ _)

/-- The range check rewrites staged values alone: registers and entries. -/
theorem changesOnly_rangeCheck (s : State) : changesOnly [.tables, .registers] s (rangeCheck s).st :=
  changesOnly_trans (changesOnly_mono (foldl_check changesOnly_checkReg (toCheck s) ⟨s, []⟩) (by simp))
    (changesOnly_trans (changesOnly_mono (changesOnly_checkTables _) (by simp))
      (changesOnly_mono (changesOnly_poolCheck _) (by simp)))

/-! ## CHECKING ends (R347, R348) -/

/-- Where no command is held, none proceeds. -/
theorem serve_quiet {s : State} (quiet : s.gen.held = []) : serve s = s := by
  have same : { s with gen := { s.gen with held := [] } } = s := by rw [← quiet]
  simp [serve, quiet, forAll, same]

/-- Where nobody waits, nobody is answered. -/
theorem answerGen_unasked {s : State} (unasked : s.gen.waiter = none) (status : Nat) (result : List Byte) :
    answerGen status result s = s := by
  simp [answerGen, unasked]

/-- The commit engine once a commit is accepted for `T`. -/
def genAccepted (T reports : Nat) (g : Gen) : Gen :=
  { g with
    st := 2, dirty := false, learnPending := false, autoFrom := none, effectAt := some T, byJump := false, lastT := T, lastStatus := 0,
    reports := reports }

/-- T of an accepted commit (R348). -/
def chosenTime (s : State) : Nat := s.gen.timed.getD (effectTime s)

theorem chosenTime_of_commit {s : State} (untimed : s.gen.timed = none) : s.now ≤ chosenTime s ∧ chosenTime s ≤ s.now + usT 10 := by
  have near := Nat.mod_lt (draw s) (show 0 < usT 10 + 1 by omega)
  rw [chosenTime, untimed, Option.getD_none, effectTime]
  omega

theorem acceptCommit_leaves {c : Check} {s : State} (unasked : c.st.gen.waiter = none) :
    (acceptCommit c s).gen = genAccepted (chosenTime s) c.reports.length c.st.gen ∧
      changesOnly [.host, .generations, .registers, .freeCount] c.st (acceptCommit c s) := by
  unfold acceptCommit
  extract_lets g T s0 g0 s1 s2 s3 pool s4
  have gen : s1.gen = genAccepted T c.reports.length c.st.gen := rfl
  have entered : changesOnly [.generations, .freeCount] c.st s1 :=
    changesOnly_trans (changesOnly_mono (changesOnly_modGen (genAccepted T c.reports.length) c.st) (by simp))
      (changesOnly_mono (changesOnly_drew _) (by simp))
  have reported : changesOnly [.host, .registers] s1 s2 := changesOnly_reportAll _ _ _ _ _
  have judged : changesOnly [.host, .registers] s2 s3 := changesOnly_whenDo (changesOnly_breach 1) _ _
  have counted : changesOnly [.host, .registers] s3 s4 :=
    changesOnly_trans (changesOnly_whenDo (fun s => changesOnly_mono (changesOnly_stickRg _ _ s) (by simp)) _ _)
      (changesOnly_trans (changesOnly_mono (changesOnly_incRg64 _ _) (by simp)) (changesOnly_emitCommit _ _ _ _))
  have later := changesOnly_trans reported (changesOnly_trans judged counted)
  have kept : s4.gen = s1.gen := later .generations (by decide)
  have alone : s4.gen.waiter = none := by rw [kept]; exact unasked
  rw [answerGen_unasked alone, ite_self, kept]
  exact ⟨gen, changesOnly_trans (changesOnly_mono entered (by simp)) (changesOnly_mono later (by simp))⟩

theorem refuseCommit_leaves {s : State} (unasked : s.gen.waiter = none) (status : Nat) (rs : List Clamp) :
    (refuseCommit status rs s).gen = { s.gen with
        st := 0, lastStatus := status, reports := rs.length, autoFrom := if s.gen.auto then some s.now else s.gen.autoFrom } ∧
      changesOnly [.host, .generations, .registers] s (refuseCommit status rs s) := by
  have reported := changesOnly_reportAll (nextGen s) true (status == 0x102) rs s
  have gen := reported .generations (by decide)
  unfold refuseCommit
  dsimp only
  rw [answerGen_unasked (by simpa [modGen] using unasked)]
  refine ⟨by simp [modGen], changesOnly_trans (changesOnly_mono reported (by simp))
    (changesOnly_trans (changesOnly_mono (changesOnly_modGen _ _) (by simp))
      (changesOnly_mono (changesOnly_emitCommit _ _ _ _) (by simp)))⟩

theorem exec_commitCheckDone (s : State) : exec .commitCheckDone s = .next (serve (checkDone s)) := rfl

theorem checkDone_accepted {s : State} (checking : s.gen.st = 1) (inTime : badTime s = false)
    (taken : clampRefused s (rangeCheck s).reports = false) : checkDone s = acceptCommit (rangeCheck s) s := by
  simp [checkDone, checking, inTime, taken]

theorem checkDone_badTime {s : State} (checking : s.gen.st = 1) (outOfTime : badTime s = true)
    (taken : clampRefused s (rangeCheck s).reports = false) : checkDone s = refuseCommit 0x103 (rangeCheck s).reports s := by
  simp [checkDone, checking, outOfTime, taken]

/-! ## The statement on beginnings -/

/-- Settles O44: GEN_CMD and the GEN commands start the commit engine or show why not, and the end of the range check is an acceptance
or a refusal that leaves the staged side. -/
theorem commitBegins : Obligations.CommitBegins := by
  unfold Obligations.CommitBegins
  refine ⟨fun s opened mode => ⟨fun idle => ?_, fun busy i named => ?_⟩, fun s opened mode idle i named => ?_,
    fun c s mode => ⟨fun ready i named => ?_, fun ready => ?_⟩, fun c s ready => ?_,
    fun s checking unasked quiet => ⟨fun inTime taken => ?_, fun ⟨outOfTime, taken⟩ => ?_⟩⟩
  · have write := genCmdWrite_accepted opened (commitRefusal_accepted mode idle false)
    refine ⟨⟨_, congrArg Host.Outcome.next (write _), rfl, changesOnly_modGen _ s⟩,
      ⟨_, congrArg Host.Outcome.next (write _), rfl, changesOnly_modGen _ s⟩,
      ⟨_, congrArg Host.Outcome.next (write _), rfl, changesOnly_modGen _ s⟩⟩
  · exact exec_genCmd_refused opened (commitRefusal_busy busy false) named
  · exact exec_genCmd_refused opened (commitRefusal_drain mode idle) named
  · have run := runCmd_genCommit ready (commitRefusal_accepted mode (idle_ready ready))
    have row : exec i s = .next (runCmd genCommitCmd c s) := by
      simp only [List.mem_cons, List.not_mem_nil, or_false] at named
      rcases named with rfl | rfl <;> rfl
    obtain ⟨busy, regs, only⟩ := laterChange_keeps (q := genCommitCmd) (c := c) ready.1 fun g => { g with
      st := 1, timed := askedTime c, auto := false, waiter := some (tcmdWaiter genCommitCmd c s),
      waitIdle := bit 1 (bodyWord c 0x08), lastStatus := 0 }
    exact ⟨_, row.trans (congrArg _ run), rfl, busy, rfl, askedTime_isSome c, rfl, regs, only⟩
  · have run := runCmd_genDiscard ready (commitRefusal_accepted mode (idle_ready ready))
    obtain ⟨busy, regs, only⟩ := laterChange_keeps (q := genDiscardCmd) (c := c) ready.1 fun g => { g with
      st := 5, waiter := some (tcmdWaiter genDiscardCmd c s), auto := false, lastStatus := 0 }
    exact ⟨_, congrArg Host.Outcome.next run, rfl, busy, rfl, regs, only⟩
  · obtain ⟨canon, _⟩ := id ready
    have left := tcmdLeft_tcmdDone (q := genStatusCmd) (c := c) (status := 0)
      (result := statusResult s)
      (regsCanonical_tcmdTaken genStatusCmd c canon) rfl (tcmdTaken_gen genStatusCmd c s)
    refine ⟨_, congrArg Host.Outcome.next (runCmd_genStatus ready), left.answered, ?_, ?_⟩
    · exact registersBut_trans
        (registersBut_mono (registersBut_tcmdTaken _ c canon) (List.subset_append_left _ _))
        (registersBut_mono (registersBut_tcmdDone _ c _ _ (regsCanonical_tcmdTaken _ c canon)) (List.subset_append_right _ _))
    · have all := changesOnly_trans (changesOnly_mono (changesOnly_tcmdTaken genStatusCmd c s) (by simp))
        (changesOnly_tcmdDone genStatusCmd c 0 (statusResult s) _)
      exact changesOnly_drop (p := .generations) (changesOnly_drop (p := .tables) all (left.tab_kept ready)) (left.clean (.inl rfl))
  · have checked := changesOnly_rangeCheck s
    have gen : (rangeCheck s).st.gen = s.gen := checked .generations (by decide)
    obtain ⟨accepted, only⟩ := acceptCommit_leaves (c := rangeCheck s) (s := s) (by rw [gen]; exact unasked)
    rw [gen] at accepted
    rw [exec_commitCheckDone, checkDone_accepted checking inTime taken, serve_quiet (by rw [accepted]; exact quiet)]
    refine ⟨_, chosenTime s, rfl, ?_, ?_, ?_, chosenTime_of_commit, ?_, ?_, ?_⟩
    · rw [accepted]; rfl
    · rw [accepted]; rfl
    · rw [accepted]; rfl
    · intro T timed
      simp [chosenTime, timed]
    · rw [accepted]; rfl
    · exact changesOnly_trans (changesOnly_mono checked (by simp)) (changesOnly_mono only (by simp))
  · obtain ⟨refused, only⟩ := refuseCommit_leaves unasked 0x103 (rangeCheck s).reports
    rw [exec_commitCheckDone, checkDone_badTime checking outOfTime taken, serve_quiet (by rw [refused]; exact quiet)]
    refine ⟨_, rfl, ?_, ?_, ?_, ?_, only⟩ <;> rw [refused]

end Sys2Proof.Proofs
end

section
/-! PROOFS. A commit's effect, its drain and its end, the discard, automatic commits (R347 to R354), and the generation number
(R341). -/

namespace Sys2Proof.Proofs

open Sys2Proof Sys2Proof.Machine Sys2Proof.Safety Sys2Proof.Laws

/-! ## Entries that no operation on links and units changes -/

/-- The directly indexed entries, the FDB and the rules, as the tables hold them. -/
def entriesIn (x : Tables) : List (Nat × List Nat) × List (Nat × FdbEntry) × List (Nat × Rule) := (x.vals, x.fdb, x.rules)

theorem entriesIn_forAll {α : Type} {f : α → State → State} (same : ∀ a s, entriesIn (f a s).tab = entriesIn s.tab) (l : List α)
    (s : State) : entriesIn (forAll f l s).tab = entriesIn s.tab :=
  forAll_rel (R := fun s t => entriesIn t.tab = entriesIn s.tab) (fun _ => rfl) (fun _ _ _ h k => k.trans h) same l s

@[simp] theorem entriesIn_noteBucket (old : State) (set group b : Nat) (s : State) :
    entriesIn (noteBucket old set group b s).tab = entriesIn s.tab := by
  unfold noteBucket
  dsimp only
  (repeat' split) <;> rfl

@[simp] theorem entriesIn_noteGroup (old : State) (set group : Nat) (s : State) :
    entriesIn (noteGroup old set group s).tab = entriesIn s.tab :=
  entriesIn_forAll (fun b => entriesIn_noteBucket old set group b) _ s

@[simp] theorem entriesIn_noteHops (old s : State) : entriesIn (noteHops old s).tab = entriesIn s.tab :=
  (entriesIn_forAll (entriesIn_noteGroup old 1) _ _).trans (entriesIn_forAll (entriesIn_noteGroup old 0) _ s)

@[simp] theorem entriesIn_noteEngines (old s : State) : entriesIn (noteEngines old s).tab = entriesIn s.tab :=
  entriesIn_forAll (entriesIn_noteGroup old 2) _ s

@[simp] theorem entriesIn_noteChannels (old s : State) : entriesIn (noteChannels old s).tab = entriesIn s.tab :=
  entriesIn_noteGroup old 3 0 s

@[simp] theorem entriesIn_noteHeadgates (old s : State) : entriesIn (noteHeadgates old s).tab = entriesIn s.tab := rfl

@[simp] theorem entriesIn_portFalls (p : Nat) (c : DownCause) (s : State) : entriesIn (portFalls p c s).tab = entriesIn s.tab := by
  simp [portFalls]

theorem entriesIn_oneCycle {f g : State → State} (first : ∀ s, entriesIn (f s).tab = entriesIn s.tab)
    (second : ∀ s, entriesIn (g s).tab = entriesIn s.tab) (s : State) : entriesIn (oneCycle f g s).tab = entriesIn s.tab := by
  unfold oneCycle
  dsimp only
  split
  · rw [second, first]
  · simp [second, first]

@[simp] theorem entriesIn_portDown (p : Nat) (c : DownCause) (s : State) : entriesIn (portDown p c s).tab = entriesIn s.tab := by
  unfold portDown
  split
  · exact entriesIn_oneCycle (fun s => by simp) (entriesIn_portFalls p c) s
  · rfl

@[simp] theorem entriesIn_portUp (p : Nat) (s : State) : entriesIn (portUp p s).tab = entriesIn s.tab := by
  simp [portUp, apply_ite State.tab]

@[simp] theorem entriesIn_linkEval (p : Nat) (s : State) : entriesIn (linkEval p s).tab = entriesIn s.tab := by
  unfold linkEval
  dsimp only
  split
  · split <;> simp
  · rw [whenDo_tab]; split <;> simp

@[simp] theorem entriesIn_quadEval (q : Nat) (s : State) : entriesIn (quadEval q s).tab = entriesIn s.tab :=
  entriesIn_forAll (fun j => entriesIn_linkEval (4 * q + j)) _ s

@[simp] theorem entriesIn_linksEval (s : State) : entriesIn (linksEval s).tab = entriesIn s.tab :=
  entriesIn_forAll entriesIn_quadEval _ s

@[simp] theorem entriesIn_tsDetect (p : Nat) (s : State) : entriesIn (tsDetect p s).tab = entriesIn s.tab := by
  simp [tsDetect]

@[simp] theorem entriesIn_tsQuadDown (q : Nat) (s : State) : entriesIn (tsQuadDown q s).tab = entriesIn s.tab :=
  entriesIn_forAll (fun j s => by rw [whenDo_tab]; split <;> simp) _ s

@[simp] theorem entriesIn_refclkSet (k : Nat) (ppm : Option Int) (s : State) :
    entriesIn (refclkSet k ppm s).tab = entriesIn s.tab :=
  entriesIn_forAll (fun j s => by rw [entriesIn_quadEval, whenDo_tab]; split <;> simp) _ s

@[simp] theorem entriesIn_refsChange (changed : List Nat) (old s : State) :
    entriesIn (refsChange changed old s).tab = entriesIn s.tab :=
  entriesIn_forAll (fun k s => by
    unfold refclkRejudge
    dsimp only
    split <;> simp) _ s

@[simp] theorem entriesIn_portAtChange (m j p : Nat) (s : State) : entriesIn (portAtChange m j p s).tab = entriesIn s.tab := by
  have first : entriesIn (if (port s p).up then portDown p (if modeHas m j then .link else .admin) s
      else whenDo (modeHas (quad s (p / 4)).mode j && !modeHas m j) (flushDown p) s).tab = entriesIn s.tab := by
    split
    · simp
    · rw [whenDo_tab]; split <;> simp
  unfold portAtChange
  dsimp only
  split
  · rw [whenDo_tab]; split <;> simpa using first
  · simpa using first

@[simp] theorem entriesIn_quadChange (q : Nat) (s : State) : entriesIn (quadChange q s).tab = entriesIn s.tab := by
  simp [quadChange, entriesIn_forAll]

@[simp] theorem entriesIn_unitShift (old : State) (kind idx : Nat) (s : State) :
    entriesIn (unitShift old true kind idx s).tab = entriesIn s.tab := by
  unfold unitShift
  split <;> simp

@[simp] theorem entriesIn_unitShifts (old : State) (kind idx : Nat) (s : State) :
    entriesIn (unitShifts old true kind idx s).tab = entriesIn s.tab := by
  unfold unitShifts
  split
  · exact entriesIn_forAll (fun (u : Nat × Nat) => entriesIn_unitShift old u.1 u.2) _ s
  · simp

@[simp] theorem entriesIn_answerCmd (w : Waiter) (status : Nat) (result : List Byte) (s : State) :
    entriesIn (answerCmd w status result s).tab = entriesIn s.tab := by
  unfold answerCmd
  dsimp only
  split
  · split <;> simp
  · simp [tcmdAnswer, entriesIn]
  · rfl

@[simp] theorem entriesIn_answerTransition (t : Transition) (status : Nat) (result : List Byte) (s : State) :
    entriesIn (answerTransition t status result s).tab = entriesIn s.tab := by
  unfold answerTransition
  split <;> simp

@[simp] theorem entriesIn_finishReturn (t : Transition) (s : State) : entriesIn (finishReturn t s).tab = entriesIn s.tab := by
  unfold finishReturn
  dsimp only
  rw [entriesIn_answerTransition, entriesIn_unitShifts]
  split
  · rw [entriesIn_forAll fun u s => by rw [whenDo_tab]; split <;> simp]
    simp
  · simp

@[simp] theorem entriesIn_unitsReturn (s : State) : entriesIn (unitsReturn s).tab = entriesIn s.tab :=
  entriesIn_forAll entriesIn_finishReturn _ s

/-- What follows from new values in use leaves the entries. -/
theorem entriesIn_useFollows (t : Nat) (changed : List Nat) (old s : State) :
    entriesIn (useFollows t changed old s).tab = entriesIn s.tab := by
  simp [useFollows, entriesIn_forAll]

/-! ## The effect (R341, R347) -/

/-- The commit engine once a commit has taken effect at `t`, where `old` is the state at that time. -/
def genInForce (t : Nat) (old : State) : Gen :=
  { old.gen with
    st := 3, current := nextGen old, effectAt := none, byJump := false, lastEffect := if old.gen.byJump then 0 else t,
    startedAt := old.elapsed, before := (changedWords old).map fun o => (o, regWord old.regs (o + viewSize)) }

theorem takeEffect_gen (t : Nat) (s : State) : (takeEffect t s).gen = genInForce t (reach t s) := by
  simp [takeEffect, genInForce, modGen]

theorem takeEffect_entries (t : Nat) (s : State) : entriesIn (takeEffect t s).tab = entriesIn s.tab := by
  simp [takeEffect, entriesIn_useFollows]

/-- The effect of an accepted commit, with no command held. -/
theorem exec_commitEffect {T : Nat} {s : State} (due : s.gen.effectAt = some T) (accepted : s.gen.st = 2) (quiet : s.gen.held = []) :
    exec .commitEffect s = .next (takeEffect T s) := by
  have row : exec .commitEffect s = .next (serve (commitEffect s)) := rfl
  have effect : commitEffect s = takeEffect T s := by simp [commitEffect, due, accepted]
  rw [row, effect, serve_quiet]
  rw [takeEffect_gen]
  simpa [genInForce] using quiet

/-! ## Draining, settling, discarding (R349, R353) -/

theorem mirror_routes (s : State) : ∀ r ∈ (mirror s).tab.routes, r.r0 = r.r1 := by
  intro r m
  simp only [mirror, List.mem_map] at m
  obtain ⟨_, _, rfl⟩ := m
  rfl

theorem mirror_fdb (s : State) : ∀ e ∈ (mirror s).tab.fdb, e.2.v0 = true ∧ e.2.v1 = true := by
  intro e m
  simp only [mirror, List.mem_map] at m
  obtain ⟨_, _, rfl⟩ := m
  exact ⟨rfl, rfl⟩

theorem changesOnly_mirror (s : State) : changesOnly [.tables, .engines, .registers] s (mirror s) :=
  changesOnly_of fun p => by cases p <;> simp [Part.same]

theorem exec_commitDrained (receiving : List Nat) (s : State) :
    exec (.commitDrained receiving) s = .next (commitDrained receiving s) := rfl

/-- A frame stamped before T that is still being received keeps the old side (R36). -/
theorem oldDrained_receiving {receiving : List Nat} {s : State} (early : ∃ ts ∈ receiving, ts < s.gen.lastEffect) :
    oldDrained s receiving = false := by
  obtain ⟨ts, m, before⟩ := early
  have unstamped : receiving.all (fun ts => decide (s.gen.lastEffect ≤ ts)) = false :=
    List.all_eq_false.mpr ⟨ts, m, by simpa using before⟩
  simp [oldDrained, unstamped]

/-- SETTLING ends (R347). -/
def genIdle (s : State) : Gen :=
  { s.gen with st := 0, completeUs := satTo 0xFFFFFFFF ((s.elapsed - s.gen.startedAt) / usT 1), completed := true, before := [] }

theorem settled_leaves {s : State} (settling : s.gen.st = 4) (unasked : s.gen.waiter = none) :
    (settled s).gen = genIdle s ∧ changesOnly [.host, .generations, .registers] s (settled s) := by
  have idle : settled s = emitCommit 2 s.gen.current 0 (modGen (fun _ => genIdle s) s) := by
    rw [settled, if_pos settling, answerGen_unasked (by simpa [modGen] using unasked)]
    rfl
  rw [idle]
  exact ⟨by simp [modGen], changesOnly_trans (changesOnly_mono (changesOnly_modGen _ s) (by simp))
    (changesOnly_mono (changesOnly_emitCommit _ _ _ _) (by simp))⟩

theorem exec_commitSettled (s : State) : exec .commitSettled s = .next (serve (settled s)) := rfl

theorem exec_discardDone (s : State) : exec .discardDone s = .next (serve (discardDone s)) := rfl

/-- The commit engine once a discard is done. -/
def genDiscarded (g : Gen) : Gen := { g with st := 0, dirty := false, learnPending := false, autoFrom := none }

theorem discardDone_leaves {s : State} (discarding : s.gen.st = 5) (unasked : s.gen.waiter = none) :
    (discardDone s).gen = genDiscarded s.gen ∧ (discardDone s).tab = (mirror s).tab ∧
      changesOnly [.tables, .generations, .engines, .registers] s (discardDone s) := by
  have gen : (unstage s).gen = { s.gen with dirty := false, learnPending := false, autoFrom := none } := by
    simp [unstage, modGen]
  have idle : discardDone s = modGen (fun g => { g with st := 0 }) (unstage s) := by
    rw [discardDone, if_pos discarding, answerGen_unasked]
    simpa [modGen, gen] using unasked
  rw [idle]
  refine ⟨by rw [modGen, gen]; rfl, by simp [unstage], ?_⟩
  exact changesOnly_of fun p => by cases p <;> simp [Part.same]

/-! ## Automatic commits (R354) -/

theorem reach_gen (T : Nat) (s : State) : (reach T s).gen = s.gen := changesOnly_reach T s .generations (by decide)

theorem inStageRun_reach {s : State} (mode : s.md.mode = .stage ∨ s.md.mode = .run) (T : Nat) : inStageRun (reach T s) = true := by
  rw [inStageRun, changesOnly_reach T s .modes (by decide)]
  rcases mode with mode | mode <;> simp [mode]

theorem exec_autoCommitDue (s : State) : exec .autoCommitDue s = .next (autoDue s) := rfl

/-- When an automatic commit falls due after `t0`. -/
def autoTime (t0 : Nat) (s : State) : Nat := t0 + msT (fld 15 0 (rg s R.genAutoCfg))

theorem autoDue_clean {t0 : Nat} {s : State} (from0 : s.gen.autoFrom = some t0) (enabled : bit 16 (rg s R.genAutoCfg) = true)
    (idle : s.gen.st = 0) (mode : s.md.mode = .stage ∨ s.md.mode = .run) (clean : s.gen.dirty = false) :
    autoDue s = startChecking none true none false (reach (autoTime t0 s) s) := by
  have open1 : inStageRun (reach (autoTime t0 s) s) = true := inStageRun_reach mode _
  simp only [autoTime] at open1 ⊢
  simp [autoDue, from0, enabled, idle, open1, clean]

theorem autoDue_dirty {t0 : Nat} {s : State} (from0 : s.gen.autoFrom = some t0) (enabled : bit 16 (rg s R.genAutoCfg) = true)
    (idle : s.gen.st = 0) (mode : s.md.mode = .stage ∨ s.md.mode = .run) (staged : s.gen.dirty = true) :
    autoDue s = stickRg R.genEvt 1 (incRg R.genAutoDeferred
      (modGen (fun g => { g with autoFrom := some (reach (autoTime t0 s) s).now }) (reach (autoTime t0 s) s))) := by
  have open1 : inStageRun (reach (autoTime t0 s) s) = true := inStageRun_reach mode _
  simp only [autoTime] at open1 ⊢
  simp [autoDue, from0, enabled, idle, open1, staged]

/-! ## The generation number (R341) -/

/-- RESET leaves no stored register, no entry and no generation (R341). -/
theorem exec_resetNLow {ns : Nat} (long : 1100 ≤ ns) (s : State) :
    exec (.resetNLow ns) s = .next (enterReset false { s with pins := { s.pins with resetN := false } }) := by
  have row : exec (.resetNLow ns) s = execResetNLow ns s := rfl
  have short : ¬ ns < 1100 := by omega
  simp [row, execResetNLow, resetPasses, long, short, whenDo]

theorem pg_unstored {s : State} (unstored : s.regs = []) (par off : Nat) :
    pg s par off = rg State.reset off := by
  have empty : State.reset.regs = [] := rfl
  have key : (off + viewSize * (par % 2)) % viewSize = off % viewSize := Nat.add_mul_mod_self_left _ _ _
  rw [pg, rg, unstored, empty, regWord, regWord, key]
  rfl

theorem stagedPar_eq (s : State) : stagedPar s = 1 - curPar s := rfl

theorem parity_nextGen {s : State} : nextGen s % 2 = stagedPar s := by
  simp only [nextGen, stagedPar, curPar]
  omega

/-! ## The statements on ends and on the number -/

/-- Settles O45: the effect changes the number and leaves the entries; the copying of one side onto the other ends the drain and a
discard; and an automatic commit begins, or waits for the driver's. -/
theorem commitEnds : Obligations.CommitEnds := by
  unfold Obligations.CommitEnds
  refine ⟨fun T s due driven accepted quiet => ?_, fun receiving s completing drained => ?_, fun receiving s early => ?_,
    fun s settling unasked quiet => ?_, fun s discarding unasked quiet => ?_, fun t0 s from0 enabled idle mode => ⟨fun clean => ?_,
    fun staged => ?_⟩⟩
  · have gen := takeEffect_gen T s
    have entries := takeEffect_entries T s
    simp only [entriesIn, Prod.mk.injEq] at entries
    obtain ⟨vals, fdb, rules⟩ := entries
    refine ⟨_, exec_commitEffect due accepted quiet, ?_, ?_, ?_, ?_, ?_, ?_, ?_, vals, fdb, rules⟩
    · rw [gen]; rfl
    · rw [gen, genInForce, nextGen, reach_gen]; rfl
    · rw [gen]; rfl
    · simp [gen, genInForce, driven]
    · simp
    · simp
    · simp
  · have run : commitDrained receiving s = modGen (fun g => { g with st := 4 })
        { mirror s with tab := { (mirror s).tab with unitsHeld := lpmUnits s } } := by
      simp [commitDrained, completing, drained, whenDo]
    rw [exec_commitDrained, run]
    refine ⟨_, rfl, ?_, mirror_routes s, mirror_fdb s, ?_⟩
    · have kept : (mirror s).gen = s.gen := changesOnly_mirror s .generations (by decide)
      rw [modGen, kept]
    · exact changesOnly_of fun p => by cases p <;> simp [Part.same]
  · have run : commitDrained receiving s = s := by simp [commitDrained, oldDrained_receiving early, whenDo]
    rw [exec_commitDrained, run]
    exact ⟨s, rfl, changesOnly_refl _ s⟩
  · obtain ⟨gen, only⟩ := settled_leaves settling unasked
    rw [exec_commitSettled, serve_quiet (by rw [gen]; exact quiet)]
    refine ⟨_, rfl, ?_, ?_, ?_, only⟩ <;> rw [gen] <;> rfl
  · obtain ⟨gen, tab, only⟩ := discardDone_leaves discarding unasked
    rw [exec_discardDone, serve_quiet (by rw [gen]; exact quiet)]
    refine ⟨_, rfl, ?_, ?_, ?_, ?_, ?_, ?_, only⟩
    · rw [gen]; rfl
    · rw [gen]; rfl
    · rw [gen]; rfl
    · rw [gen]; rfl
    · rw [gen]; rfl
    · rw [tab]; exact mirror_routes s
  · rw [exec_autoCommitDue, autoDue_clean from0 enabled idle mode clean]
    refine ⟨_, rfl, rfl, rfl, rfl, ?_⟩
    exact changesOnly_trans (changesOnly_mono (changesOnly_reach _ s) (by simp)) (changesOnly_mono (changesOnly_modGen _ _) (by simp))
  · rw [exec_autoCommitDue, autoDue_dirty from0 enabled idle mode staged]
    refine ⟨_, rfl, ?_, ?_, ?_⟩
    · simpa [modGen, reach_gen] using idle
    · simp [modGen]
    · exact changesOnly_trans (changesOnly_mono (changesOnly_reach _ s) (by simp))
        (changesOnly_trans (changesOnly_mono (changesOnly_modGen _ _) (by simp))
          (changesOnly_trans (changesOnly_mono (changesOnly_incRg _ _) (by simp)) (changesOnly_mono (changesOnly_stickRg _ _ _) (by simp))))

/-- Settles O58: a state entered from RESET stores no register and no entry, and each effect adds 1 to the number, whose bit 0 is
the current parity. -/
theorem generationNumber : Obligations.GenerationNumber := by
  unfold Obligations.GenerationNumber
  refine ⟨fun ns s long => ?_, fun s => ⟨rfl, rfl⟩, fun T s due accepted quiet inRange => ?_⟩
  · refine ⟨_, exec_resetNLow long s, rfl, rfl, fun off par _ => ⟨?_, pg_unstored rfl par off⟩, fun _ _ => rfl, rfl, rfl, rfl, rfl, rfl⟩
    rw [pg_unstored rfl par off, pg_unstored rfl 0 off]
  · have current : (takeEffect T s).gen.current = nextGen s := by rw [takeEffect_gen, genInForce, nextGen, reach_gen]; rfl
    have par : curPar (takeEffect T s) = stagedPar s := by rw [curPar, current, parity_nextGen]
    refine ⟨_, exec_commitEffect due accepted quiet, current, par, ?_⟩
    rw [stagedPar_eq, par, stagedPar_eq, curPar]
    omega

end Sys2Proof.Proofs
end

section
/-! PROOFS. What the frames of the current generation are handled by (R341, R343, R344), and what a table command does beside its
target's change: it leaves all of that as it was. -/

namespace Sys2Proof.Proofs

open Sys2Proof Sys2Proof.Machine Sys2Proof.Safety Sys2Proof.Laws

/-! ## The current side -/

/-- From `s` to `t` the current generation reads the same in every table that a command may change, and the registers stay canonical.
The fields that a change does not touch are filled in by computation. -/
structure CurrentKept (s t : State) : Prop where
  current : t.gen.current = s.gen.current := by rfl
  canon : RegsCanonical s → RegsCanonical t := by exact id
  entries : ∀ tbl idx, entry t tbl idx (curPar s) = entry s tbl idx (curPar s) := by exact fun _ _ => rfl
  rules : ∀ r, ruleLive t r (curPar s) = ruleLive s r (curPar s) ∧ (ruleLive s r (curPar s) = true →
    (kvGet r t.tab.rules).map (·.words) = (kvGet r s.tab.rules).map (·.words)) := by exact fun _ => ⟨rfl, fun _ => rfl⟩
  repl : ∀ r, replLive t r = replLive s r ∧ (replLive s r = true →
    (replAt t r).map (fun e => (e.w0, e.w1)) = (replAt s r).map fun e => (e.w0, e.w1)) := by exact fun _ => ⟨rfl, fun _ => rfl⟩
  fdb : ∀ mac fid, (fdbFind t (curPar s) mac fid).map (fun r => (r.2.info, r.2.active)) =
    (fdbFind s (curPar s) mac fid).map fun r => (r.2.info, r.2.active) := by exact fun _ _ => rfl
  routes : ∀ p, routeAt t (curPar s) p = routeAt s (curPar s) p := by exact fun _ => rfl
  gates : ∀ p j, p < 256 → j < 1024 → pg t (curPar s) (R.gclEntryGates p j) = pg s (curPar s) (R.gclEntryGates p j) ∧
    pg t (curPar s) (R.gclEntryInterval p j) = pg s (curPar s) (R.gclEntryInterval p j) := by exact fun _ _ _ _ => ⟨rfl, rfl⟩
  programs : ∀ k a, a < 8192 → programAt t k (curPar s) a = programAt s k (curPar s) a ∧
    bundleAt t k (curPar s) a = bundleAt s k (curPar s) a := by exact fun _ _ _ => ⟨rfl, rfl⟩
  banks : ∀ k w, w < 16384 →
    kvGetD 0 (bankKey k (curPar s) w) t.eng.banks = kvGetD 0 (bankKey k (curPar s) w) s.eng.banks := by exact fun _ _ _ => rfl

theorem currentKept_refl (s : State) : CurrentKept s s := {}

theorem CurrentKept.curPar_eq {s t : State} (h : CurrentKept s t) : curPar t = curPar s := by rw [curPar, curPar, h.current]

theorem CurrentKept.stagedPar_eq {s t : State} (h : CurrentKept s t) : stagedPar t = stagedPar s := by
  rw [stagedPar, stagedPar, h.curPar_eq]

theorem CurrentKept.ruleLive_eq {s t : State} (h : CurrentKept s t) (r : Nat) : ruleLive t r (curPar t) = ruleLive s r (curPar s) := by
  rw [h.curPar_eq, (h.rules r).1]

theorem currentKept_trans {s t u : State} (h : CurrentKept s t) (k : CurrentKept t u) : CurrentKept s u where
  current := k.current.trans h.current
  canon := k.canon ∘ h.canon
  entries tbl idx := (h.curPar_eq ▸ k.entries tbl idx).trans (h.entries tbl idx)
  rules r := by
    have later := h.curPar_eq ▸ k.rules r
    exact ⟨later.1.trans (h.rules r).1, fun live => (later.2 ((h.rules r).1.trans live)).trans ((h.rules r).2 live)⟩
  repl r := ⟨(k.repl r).1.trans (h.repl r).1,
    fun live => ((k.repl r).2 ((h.repl r).1.trans live)).trans ((h.repl r).2 live)⟩
  fdb mac fid := (h.curPar_eq ▸ k.fdb mac fid).trans (h.fdb mac fid)
  routes p := (h.curPar_eq ▸ k.routes p).trans (h.routes p)
  gates p j port entry := by
    have later := h.curPar_eq ▸ k.gates p j port entry
    exact ⟨later.1.trans (h.gates p j port entry).1, later.2.trans (h.gates p j port entry).2⟩
  programs c a inside := by
    have later := h.curPar_eq ▸ k.programs c a inside
    exact ⟨later.1.trans (h.programs c a inside).1, later.2.trans (h.programs c a inside).2⟩
  banks c w inside := (h.curPar_eq ▸ k.banks c w inside).trans (h.banks c w inside)

/-- A run of changes leaves the current side where each does that meets what the run keeps. -/
theorem currentKept_forAll {α : Type} {f : α → State → State} {I : State → Prop} : ∀ {l : List α},
    (∀ a ∈ l, ∀ s, I s → CurrentKept s (f a s) ∧ I (f a s)) → ∀ s, I s → CurrentKept s (forAll f l s) ∧ I (forAll f l s)
  | [], _, s, start => ⟨currentKept_refl s, start⟩
  | a :: l, step, s, start => by
    obtain ⟨first, next⟩ := step a List.mem_cons_self s start
    obtain ⟨rest, last⟩ := currentKept_forAll (l := l) (fun b m => step b (List.mem_cons_of_mem a m)) (f a s) next
    exact ⟨currentKept_trans first rest, last⟩

/-! ## Registers that the current side is read from -/

/-- The buckets of a key follow the two seeds. -/
theorem keySlots_congr {s t : State} (seed0 : rg t R.fdbHashSeed0 = rg s R.fdbHashSeed0)
    (seed1 : rg t R.fdbHashSeed1 = rg s R.fdbHashSeed1) (mac fid : Nat) : keySlots t mac fid = keySlots s mac fid := by
  simp [keySlots, fdbBucket, seed0, seed1]

theorem fdbFind_congr {s t : State} (slots : ∀ mac fid, keySlots t mac fid = keySlots s mac fid) (fdb : t.tab.fdb = s.tab.fdb)
    (par mac fid : Nat) : fdbFind t par mac fid = fdbFind s par mac fid := by
  simp only [fdbFind, fdbAt, slots, fdb]

/-- Stores that spare the seeds and the gate lists in use leave what the current side reads of the registers. -/
theorem registers_currentKept {offs : List Nat} {s t : State} (regs : registersBut offs s t)
    (spared : ∀ k ∈ offs, k ≠ R.fdbHashSeed0 ∧ k ≠ R.fdbHashSeed1 ∧ ∀ p j, p < 256 → j < 1024 →
      k ≠ R.gclEntryGates p j + viewSize * (curPar s % 2) ∧ k ≠ R.gclEntryInterval p j + viewSize * (curPar s % 2)) :
    (∀ mac fid, keySlots t mac fid = keySlots s mac fid) ∧
      ∀ p j, p < 256 → j < 1024 → pg t (curPar s) (R.gclEntryGates p j) = pg s (curPar s) (R.gclEntryGates p j) ∧
        pg t (curPar s) (R.gclEntryInterval p j) = pg s (curPar s) (R.gclEntryInterval p j) := by
  refine ⟨keySlots_congr (rg_of_registersBut regs fun m => (spared _ m).1 rfl)
    (rg_of_registersBut regs fun m => (spared _ m).2.1 rfl), fun p j port entry => ⟨?_, ?_⟩⟩
  · rw [pg, pg, regs _ fun m => ((spared _ m).2.2 p j port entry).1 rfl]
  · rw [pg, pg, regs _ fun m => ((spared _ m).2.2 p j port entry).2 rfl]

/-! ## What a command does beside its target's change -/

/-- The registers that a table command may write whatever its target does: those of the table command register, the bit of a hold, the
host unit's overflow. -/
def commandRegs : List Nat := tcmdRegs ++ [R.fdbTcmdStatus, R.genEvt, R.pmuOvf 29]

theorem commandRegs_spared : ∀ k ∈ commandRegs, k < 0x200000 ∧ k ≠ R.fdbHashSeed0 ∧ k ≠ R.fdbHashSeed1 := by decide

/-- The tables with the table command register idle. -/
def idled (x : Tables) : Tables := { x with tcmdBusy := false }

/-- Tables that differ in that register alone have the same entries. -/
theorem entries_of_idled {x y : Tables} (h : idled x = idled y) : x.vals = y.vals ∧ x.rules = y.rules ∧ x.tcamBad = y.tcamBad ∧
    x.repl = y.repl ∧ x.fdb = y.fdb ∧ x.routes = y.routes := by
  simp only [idled, Tables.mk.injEq] at h
  simp only [h, and_self]

/-- From `s` to `t` a command is taken, refused, held or answered: nothing else changes of what commands change. -/
structure CommandPasses (s t : State) : Prop where
  tab : idled t.tab = idled s.tab
  eng : t.eng = s.eng
  current : t.gen.current = s.gen.current
  regs : RegsCanonical s → RegsCanonical t ∧ registersBut commandRegs s t

theorem commandPasses_refl (s : State) : CommandPasses s s := ⟨rfl, rfl, rfl, fun h => ⟨h, registersBut_of_regs rfl _⟩⟩

theorem commandPasses_trans {s t u : State} (h : CommandPasses s t) (k : CommandPasses t u) : CommandPasses s u where
  tab := k.tab.trans h.tab
  eng := k.eng.trans h.eng
  current := k.current.trans h.current
  regs canon := by
    obtain ⟨canon1, regs1⟩ := h.regs canon
    obtain ⟨canon2, regs2⟩ := k.regs canon1
    exact ⟨canon2, registersBut_trans regs1 regs2⟩

theorem commandPasses_of_regs {s t : State} (tab : idled t.tab = idled s.tab)
    (eng : t.eng = s.eng) (current : t.gen.current = s.gen.current) (regs : t.regs = s.regs) : CommandPasses s t :=
  ⟨tab, eng, current, fun h => ⟨(regsCanonical_congr regs).mpr h, registersBut_of_regs regs _⟩⟩

theorem CommandPasses.currentKept {s t : State} (h : CommandPasses s t) (canon : RegsCanonical s) : CurrentKept s t := by
  obtain ⟨canonT, regs⟩ := h.regs canon
  obtain ⟨vals, rules, bad, repl, fdb, routes⟩ := entries_of_idled h.tab
  have par : curPar t = curPar s := by rw [curPar, curPar, h.current]
  obtain ⟨slots, gates⟩ := registers_currentKept regs fun k m => by
    obtain ⟨low, notSeed0, notSeed1⟩ := commandRegs_spared k m
    refine ⟨notSeed0, notSeed1, fun p j _ _ => ?_⟩
    simp only [R.gclEntryGates, R.gclEntryInterval]
    omega
  exact {
    current := h.current
    canon := fun _ => canonT
    entries := fun tbl idx => by rw [entry, entry, vals]
    rules := fun r => ⟨ruleLive_congr ⟨by rw [rules], by rw [bad]⟩ _, fun _ => by rw [rules]⟩
    repl := fun r => ⟨by rw [replLive, replLive, replAt, replAt, repl, par], fun _ => by rw [replAt, replAt, repl]⟩
    fdb := fun mac fid => by rw [fdbFind_congr slots fdb]
    routes := fun p => by rw [routeAt, routeAt, routes]
    gates := gates
    programs := fun k a _ => ⟨by rw [programAt, programAt, h.eng], by rw [bundleAt, bundleAt, h.eng]⟩
    banks := fun k w _ => by rw [h.eng] }

theorem commandPasses_setRg {off : Nat} (named : off ∈ commandRegs) (v : Nat) (s : State) : CommandPasses s (setRg off v s) :=
  ⟨rfl, rfl, rfl, fun h => ⟨regsCanonical_setRg off v h, registersBut_mono (registersBut_setRg off v h) (by simpa using named)⟩⟩

theorem commandPasses_storeEach {off : Nat → Nat} {l : List Nat} (named : ∀ i ∈ l, off i ∈ commandRegs) (val : Nat → Nat)
    (s : State) : CommandPasses s (storeEach off val l s) := by
  have only := changesOnly_storeEach off val l s
  refine ⟨by rw [only .tables (by decide)], only .engines (by decide), by rw [only .generations (by decide)], fun h =>
    ⟨regsCanonical_storeEach off val l h, registersBut_mono (registersBut_storeEach off val l h) fun k m => ?_⟩⟩
  obtain ⟨i, mem, rfl⟩ := List.mem_map.mp m
  exact named i mem

theorem commandPasses_pmuEv (code : Nat) (sel : Option (Nat × Bool)) (sub : Option Nat) (n : Nat) (s : State) :
    CommandPasses s (pmuEv 29 code sel sub n s) := by
  refine ⟨by simp, by simp, by simp, fun h => ?_⟩
  obtain ⟨canon, regs⟩ := registers_pmuEv 29 code sel sub n s h
  exact ⟨canon, registersBut_mono regs (by decide)⟩

theorem commandPasses_hostWrote (ws : List (Nat × Byte)) (s : State) : CommandPasses s (hostWrote ws s) :=
  commandPasses_of_regs (by simp) (by simp) (by simp) (by simp)

theorem commandPasses_dmaWrite (a : Nat) (bs : List Byte) (s : State) : CommandPasses s (dmaWrite a bs s) :=
  commandPasses_trans (t := { s with hmem := memWrite s.hmem a bs }) (commandPasses_of_regs rfl rfl rfl rfl)
    (commandPasses_pmuEv _ _ _ _ _)

theorem commandPasses_markDirty (b : Bool) (s : State) : CommandPasses s (whenDo b markDirty s) := by
  cases b
  · exact commandPasses_refl s
  · exact commandPasses_of_regs rfl rfl rfl rfl

theorem commandPasses_tcmdAnswer (bs : List Byte) (s : State) : CommandPasses s (tcmdAnswer bs s) :=
  commandPasses_trans (t := answerStored bs s)
    (commandPasses_storeEach (by decide) _ s) (commandPasses_of_regs rfl rfl rfl rfl)

/-- The register has its image and is busy. -/
theorem commandPasses_imageStored (q : CmdSpec) (c : Cmd) (s : State) : CommandPasses s (tcmdTaken q c s) :=
  commandPasses_trans (t := imageStored q c s) (commandPasses_storeEach (by decide) _ s) (commandPasses_of_regs rfl rfl rfl rfl)

theorem commandPasses_readBuf (f : Form) (a : Ask) (s : State) : CommandPasses s (readBuf f a s).2 := by
  unfold readBuf
  split
  · exact commandPasses_refl s
  · split
    · exact commandPasses_pmuEv _ _ _ _ s
    · exact commandPasses_refl s
  · exact commandPasses_refl s

/-- From `s` to `t` a command passes, with or without its target's body run on the way. -/
def RunsBody (q : CmdSpec) (c : Cmd) (s t : State) : Prop :=
  CommandPasses s t ∨ ∃ a u, a.cmd = c ∧ CommandPasses s u ∧ CommandPasses (q.body a u).st t

theorem runsBody_before {q : CmdSpec} {c : Cmd} {s t u : State} (first : CommandPasses s t) (run : RunsBody q c t u) :
    RunsBody q c s u := by
  rcases run with passes | ⟨a, v, cmd, before, after⟩
  · exact .inl (commandPasses_trans first passes)
  · exact .inr ⟨a, v, cmd, commandPasses_trans first before, after⟩

theorem runsBody_after {q : CmdSpec} {c : Cmd} {s t u : State} (run : RunsBody q c s t) (last : CommandPasses t u) :
    RunsBody q c s u := by
  rcases run with passes | ⟨a, v, cmd, before, after⟩
  · exact .inl (commandPasses_trans passes last)
  · exact .inr ⟨a, v, cmd, before, commandPasses_trans after last⟩

theorem runsBody_runSpec (q : CmdSpec) (a : Ask) (s : State) : RunsBody q a.cmd s (runSpec q a s).st := by
  unfold runSpec
  split
  · exact .inl (commandPasses_refl s)
  split
  · exact .inl (commandPasses_refl s)
  split
  · exact .inl (commandPasses_refl s)
  split
  · exact .inl (commandPasses_refl s)
  refine .inr ⟨{ a with buf := (readBuf q.form a s).1 }, (readBuf q.form a s).2, rfl, commandPasses_readBuf _ _ _, ?_⟩
  extract_lets b o s0 g0 o1
  have marked : CommandPasses o.st o1.st := by
    have same : o1.st = whenDo (q.changes && o.status == some 0) markDirty o.st := by
      simp only [o1]
      cases q.changes && o.status == some 0 <;> rfl
    rw [same]
    exact commandPasses_markDirty _ _
  split
  · split
    · exact marked
    · split
      · exact marked
      · split
        · exact marked
        · exact commandPasses_trans marked (commandPasses_dmaWrite _ _ _)
  · exact marked

theorem runsBody_runAnswer {q : CmdSpec} {w : Waiter} (tcmd : w.via = .tcmd) (c : Cmd) (s : State) :
    RunsBody q c s (runAnswer q w c s) := by
  have run := runsBody_runSpec q ⟨w, c, []⟩ s
  unfold runAnswer
  dsimp only
  split
  · exact run
  · next n _ =>
    have answered := runsBody_after run (commandPasses_tcmdAnswer
      (cmdBytes w.opcode w.target w.tag n (runSpec q ⟨w, c, []⟩ s).result) _)
    cases stops : n == 7 <;> simpa [whenDo, bufStop, answerCmd, tcmd] using answered

theorem runsBody_takeCmd {q : CmdSpec} {w : Waiter} (tcmd : w.via = .tcmd) (c : Cmd) (s : State) :
    RunsBody q c s (takeCmd q w c s) := by
  have front : frontOfRing w s = true := by simp [frontOfRing, tcmd]
  unfold takeCmd
  dsimp only
  rw [front]
  cases held : heldByCommit q.changes s
  · simpa using runsBody_runAnswer tcmd c s
  · exact .inl (commandPasses_trans (t := modGen (fun g => { g with held := g.held ++ [⟨w, c⟩] }) s)
      (commandPasses_of_regs rfl rfl rfl rfl) (commandPasses_setRg (off := R.genEvt) (by decide) _ _))

/-- Whatever its answer, a command through the table command register runs its target's body at most once. -/
theorem runsBody_runCmd {q : CmdSpec} {c : Cmd} (tcmd : c.via = .tcmd) (s : State) : RunsBody q c s (runCmd q c s) := by
  have wrote := commandPasses_hostWrote ((c.long.map (·.host)).getD []) s
  have taken := commandPasses_imageStored q c (hostWrote ((c.long.map (·.host)).getD []) s)
  unfold runCmd
  simp only [tcmd]
  generalize hostWrote ((c.long.map (·.host)).getD []) s = s0 at wrote taken
  split
  · exact .inl wrote
  · split
    · exact .inl (commandPasses_trans wrote (commandPasses_setRg (off := R.fdbTcmdStatus) (by decide) _ _))
    · exact runsBody_before (commandPasses_trans wrote taken) (runsBody_takeCmd rfl c _)

/-! ## Sound tables -/

/-- The tables are in canonical form, and the FDB is sound. -/
structure TablesSound (s : State) : Prop where
  canon : RegsCanonical s
  rules : rulesKeyed s
  repl : keyed s.tab.repl
  programs : keyed s.eng.programs
  fdb : FdbSound s

theorem CommandPasses.fdbSound {s t : State} (h : CommandPasses s t) (canon : RegsCanonical s) (sound : FdbSound s) : FdbSound t := by
  obtain ⟨_, _, _, _, fdb, _⟩ := entries_of_idled h.tab
  have slots := keySlots_congr (rg_of_registersBut (h.regs canon).2 (by decide)) (rg_of_registersBut (h.regs canon).2 (by decide))
  simpa only [FdbSound, fdbAt, fdb, slots] using sound

theorem CommandPasses.tablesSound {s t : State} (h : CommandPasses s t) (sound : TablesSound s) : TablesSound t := by
  obtain ⟨_, rules, bad, repl, _, _⟩ := entries_of_idled h.tab
  exact {
    canon := (h.regs sound.canon).1
    rules := by simpa only [rulesKeyed, rules, bad] using sound.rules
    repl := by rw [repl]; exact sound.repl
    programs := by rw [h.eng]; exact sound.programs
    fdb := h.fdbSound sound.canon sound.fdb }

/-- A command leaves the current side where its target's body does, in any state in which the command may come to run. -/
theorem runCmd_currentKept {q : CmdSpec} {c : Cmd} {s : State} (tcmd : c.via = .tcmd) (sound : TablesSound s)
    (body : ∀ a u, a.cmd = c → CommandPasses s u → TablesSound u → CurrentKept u (q.body a u).st) :
    CurrentKept s (runCmd q c s) := by
  rcases runsBody_runCmd tcmd s with passes | ⟨a, u, cmd, before, after⟩
  · exact passes.currentKept sound.canon
  · have soundU := before.tablesSound sound
    have changed := body a u cmd before soundU
    exact currentKept_trans (before.currentKept sound.canon)
      (currentKept_trans changed (after.currentKept (changed.canon soundU.canon)))

end Sys2Proof.Proofs
end

section
/-! PROOFS. The change commands of STR, HGT, NHP, MCG, LPM, CLS, GCL and ENG as the current side meets them: each body writes under keys
of the staged parity, or bits of it (R341, R344, R352). -/

namespace Sys2Proof.Proofs

open Sys2Proof Sys2Proof.Machine Sys2Proof.Safety Sys2Proof.Laws

/-! ## Directly indexed entries -/

theorem valKey_staged_ne (tbl idx tbl' idx' : Nat) (s : State) : valKey tbl idx (curPar s) ≠ valKey tbl' idx' (stagedPar s) := by
  simp only [valKey, curPar, stagedPar]
  omega

theorem currentKept_setEntry (tbl idx : Nat) (ws : List Nat) (s : State) : CurrentKept s (setEntry tbl idx (stagedPar s) ws s) where
  entries tbl' idx' := kvGetD_kvPut_ne _ _ (valKey_staged_ne tbl' idx' tbl idx s) _

theorem strWrite_currentKept (a : Ask) (s : State) : CurrentKept s (strWrite.body a s).st := by
  simp only [strWrite]
  split
  · exact currentKept_refl s
  · exact currentKept_setEntry _ _ _ s

theorem hgtWrite_currentKept (a : Ask) (s : State) : CurrentKept s (hgtWrite.body a s).st := by
  simp only [hgtWrite]
  split
  · exact currentKept_refl s
  · split
    · exact currentKept_refl s
    · exact currentKept_setEntry _ _ _ s

theorem nhpWrite_currentKept (a : Ask) (s : State) : CurrentKept s (nhpWrite.body a s).st := by
  simp only [nhpWrite]
  split
  · split
    · exact currentKept_setEntry _ _ _ s
    · exact currentKept_refl s
  · exact currentKept_setEntry _ _ _ s
  · exact currentKept_refl s

theorem nhpWriteGroup_currentKept (a : Ask) (s : State) : CurrentKept s (nhpWriteGroup.body a s).st := by
  simp only [nhpWriteGroup]
  split
  · split
    · exact currentKept_refl s
    · exact currentKept_setEntry _ _ _ s
  · split
    · exact currentKept_refl s
    · exact currentKept_setEntry _ _ _ s
  · exact currentKept_refl s

/-! ## Replication entries (R331) -/

/-- Of two bits the staged one alone is no bit of the current parity. -/
theorem stagedBit_current (s : State) : (if curPar s % 2 = 0 then stagedPar s == 0 else stagedPar s == 1) = false := by
  rcases Nat.mod_two_eq_zero_or_one s.gen.current with even | odd
  · simp [curPar, stagedPar, even]
  · simp [curPar, stagedPar, odd]

/-- A change of one replication entry, to what reads the same where it is live. -/
theorem currentKept_repl {i : Nat} {l : List (Nat × Repl)} {s : State} (others : ∀ r, r ≠ i → kvGet r l = kvGet r s.tab.repl)
    (live : replLive { s with tab := { s.tab with repl := l } } i = replLive s i)
    (content : replLive s i = true → (kvGet i l).map (fun e => (e.w0, e.w1)) = (kvGet i s.tab.repl).map fun e => (e.w0, e.w1)) :
    CurrentKept s { s with tab := { s.tab with repl := l } } where
  repl r := by
    by_cases same : r = i
    · subst same
      exact ⟨live, content⟩
    · have kept : replAt { s with tab := { s.tab with repl := l } } r = replAt s r := others r same
      exact ⟨by rw [replLive, replLive, kept]; rfl, fun _ => by rw [kept]⟩

theorem currentKept_writeRepl {r : Nat} {s : State} (free : replLive s r = false) (w0 w1 : Nat) :
    CurrentKept s (writeRepl r w0 w1 s) := by
  refine currentKept_repl (fun _ ne => kvGet_kvPut_ne _ _ _ ne _) ?_ fun live => absurd live (by simp [free])
  rw [free, replLive, replAt, kvGet_kvPut]
  exact stagedBit_current s

/-- A replication entry with the bit of a parity cleared. -/
def replWithout (cleared : Nat) (e : Repl) : Repl := if cleared = 0 then { e with v0 := false } else { e with v1 := false }

theorem valid_replWithout (e : Repl) (s : State) : (replWithout (stagedPar s) e).valid (curPar s) = e.valid (curPar s) := by
  rcases Nat.mod_two_eq_zero_or_one s.gen.current with even | odd
  · simp [replWithout, Repl.valid, curPar, stagedPar, even]
  · simp [replWithout, Repl.valid, curPar, stagedPar, odd]

theorem words_replWithout (cleared : Nat) (e : Repl) : ((replWithout cleared e).w0, (replWithout cleared e).w1) = (e.w0, e.w1) := by
  unfold replWithout
  split <;> rfl

/-- An entry without a bit is valid in no parity. -/
theorem Repl.valid_none {e : Repl} (bare : (e.v0 || e.v1) = false) (par : Nat) : e.valid par = false := by
  obtain ⟨no0, no1⟩ := Bool.or_eq_false_iff.mp bare
  simp [Repl.valid, no0, no1]

theorem currentKept_clearRepl {s : State} (sorted : keyed s.tab.repl) (r : Nat) : CurrentKept s (clearRepl r s) := by
  cases present : replAt s r with
  | none =>
    rw [clearRepl, present]
    exact currentKept_refl s
  | some e =>
    have valid := valid_replWithout e s
    have was : replLive s r = e.valid (curPar s) := by rw [replLive, present]
    have cleared : clearRepl r s = { s with tab := { s.tab with
        repl := if (replWithout (stagedPar s) e).v0 || (replWithout (stagedPar s) e).v1 then
          kvPut r (replWithout (stagedPar s) e) s.tab.repl else kvDel r s.tab.repl } } := by
      rw [clearRepl, present]
      rfl
    rw [cleared]
    cases bits : (replWithout (stagedPar s) e).v0 || (replWithout (stagedPar s) e).v1 with
    | false =>
      have dead : replLive s r = false := by rw [was, ← valid, Repl.valid_none bits]
      refine currentKept_repl (fun _ ne => kvGet_kvDel_ne sorted ne) ?_ fun live => absurd live (by simp [dead])
      rw [dead, replLive, replAt]
      simp [kvGet_kvDel_same sorted]
    | true =>
      refine currentKept_repl (fun _ ne => kvGet_kvPut_ne _ _ _ ne _) ?_ fun _ => ?_
      · rw [was, replLive, replAt]
        simp only [if_true, kvGet_kvPut]
        exact valid
      · have here : kvGet r s.tab.repl = some e := present
        simp only [if_true, kvGet_kvPut, here, Option.map_some, words_replWithout]

theorem mcgWrite_currentKept (a : Ask) (s : State) : CurrentKept s (mcgWrite.body a s).st := by
  simp only [mcgWrite]
  split
  · exact currentKept_setEntry _ _ _ s
  split
  · exact currentKept_refl s
  split
  · exact currentKept_refl s
  split
  · exact currentKept_refl s
  · next free => exact currentKept_writeRepl (Bool.eq_false_iff.mpr free) _ _

theorem mcgInvalidate_currentKept (a : Ask) {s : State} (sorted : keyed s.tab.repl) :
    CurrentKept s (mcgInvalidate.body a s).st := by
  simp only [mcgInvalidate]
  split
  · exact currentKept_refl s
  · exact currentKept_clearRepl sorted _

theorem mcgWriteRun_currentKept (a : Ask) (s : State) : CurrentKept s (mcgWriteRun.body a s).st := by
  simp only [mcgWriteRun]
  split
  · exact currentKept_refl s
  split
  · exact currentKept_refl s
  split
  · exact currentKept_refl s
  split
  · exact currentKept_refl s
  · next free =>
    simp only [List.any_eq_true, not_exists, not_and, Bool.not_eq_true] at free
    refine (currentKept_forAll (I := fun t => ∀ k ∈ List.range _, replLive t (_ + k) = false) (fun k m t unused => ?_) s free).1
    have kept := currentKept_writeRepl (unused k m)
    exact ⟨kept _ _, fun j named => ((kept _ _).repl _).1.trans (unused j named)⟩

/-! ## Routes (R324, R327) -/

theorem isAt_inj {p q : Prefix} {r : Route} (atP : r.isAt p = true) (atQ : r.isAt q = true) : p = q := by
  simp only [Route.isAt, Bool.and_eq_true, beq_iff_eq] at atP atQ
  cases p
  cases q
  simp_all

/-- The route that is listed at an address and length, one without results where none is, and a route with a result changed. -/
def routeOf (p : Prefix) (s : State) : Route :=
  (s.tab.routes.find? (Route.isAt p)).getD { v6 := p.v6, len := p.len, addr := p.addr }
def routeWith (par : Nat) (v : Option Nat) (r : Route) : Route := if par % 2 = 0 then { r with r0 := v } else { r with r1 := v }

theorem isAt_routeOf (p : Prefix) (s : State) : (routeOf p s).isAt p = true := by
  cases listed : s.tab.routes.find? (Route.isAt p) with
  | none => simp [routeOf, listed, Route.isAt]
  | some r => simpa [routeOf, listed] using List.find?_some listed

theorem routeAt_eq (s : State) (par : Nat) (p : Prefix) : routeAt s par p = (routeOf p s).result par := by
  cases listed : s.tab.routes.find? (Route.isAt p) with
  | none => simp [routeAt, routeOf, listed, Route.result]
  | some r => simp [routeAt, routeOf, listed]

theorem isAt_routeWith (par : Nat) (v : Option Nat) (r : Route) (p : Prefix) : (routeWith par v r).isAt p = r.isAt p := by
  unfold routeWith
  split <;> rfl

theorem result_routeWith (v : Option Nat) (r : Route) (s : State) :
    (routeWith (stagedPar s) v r).result (curPar s) = r.result (curPar s) := by
  rcases Nat.mod_two_eq_zero_or_one s.gen.current with even | odd
  · simp [routeWith, Route.result, curPar, stagedPar, even]
  · simp [routeWith, Route.result, curPar, stagedPar, odd]

/-- A route without a result in any parity. -/
theorem Route.result_none {r : Route} (bare : (r.r0.isNone && r.r1.isNone) = true) (par : Nat) : r.result par = none := by
  obtain ⟨no0, no1⟩ := Bool.and_eq_true_iff.mp bare
  simp [Route.result, Option.isNone_iff_eq_none.mp no0, Option.isNone_iff_eq_none.mp no1]

/-- Taking out the routes of one address and length leaves those of every other. -/
theorem find_otherRoutes {p q : Prefix} (ne : q ≠ p) (l : List Route) :
    (l.filter fun r => !Route.isAt p r).find? (Route.isAt q) = l.find? (Route.isAt q) := by
  rw [List.find?_filter]
  congr 1
  funext r
  cases atQ : r.isAt q
  · simp
  · have other : r.isAt p = false := Bool.eq_false_iff.mpr fun atP => ne (isAt_inj atQ atP)
    simp [other]

theorem find_noRoute (p : Prefix) (l : List Route) : (l.filter fun r => !Route.isAt p r).find? (Route.isAt p) = none := by
  rw [List.find?_eq_none]
  intro r m
  simpa using (List.mem_filter.mp m).2

/-- A staged result set or cleared. -/
theorem currentKept_setRoute (p : Prefix) (v : Option Nat) (s : State) : CurrentKept s (setRoute (stagedPar s) p v s) where
  routes q := by
    have result := result_routeWith v (routeOf p s) s
    have named : (routeWith (stagedPar s) v (routeOf p s)).isAt p = true := by rw [isAt_routeWith, isAt_routeOf]
    have set : (setRoute (stagedPar s) p v s).tab.routes =
        if (routeWith (stagedPar s) v (routeOf p s)).r0.isNone && (routeWith (stagedPar s) v (routeOf p s)).r1.isNone then
          s.tab.routes.filter fun r => !Route.isAt p r
        else routeWith (stagedPar s) v (routeOf p s) :: s.tab.routes.filter fun r => !Route.isAt p r := rfl
    generalize routeWith (stagedPar s) v (routeOf p s) = new at result named set
    by_cases same : q = p
    · subst same
      rw [routeAt_eq s, ← result, routeAt, set]
      split
      · next bare => rw [find_noRoute, Option.bind_none, Route.result_none bare]
      · rw [List.find?_cons_of_pos named, Option.bind_some]
    · rw [routeAt, routeAt, set]
      split
      · rw [find_otherRoutes same]
      · rw [List.find?_cons_of_neg fun atQ => same (isAt_inj atQ named), find_otherRoutes same]

theorem lpmInsert_currentKept (a : Ask) (s : State) : CurrentKept s (lpmInsert.body a s).st := by
  simp only [lpmInsert]
  split
  · exact currentKept_refl s
  split
  · exact currentKept_refl s
  split
  · exact currentKept_refl s
  · exact currentKept_setRoute _ _ s

theorem lpmDelete_currentKept (a : Ask) (s : State) : CurrentKept s (lpmDelete.body a s).st := by
  simp only [lpmDelete]
  split
  · exact currentKept_refl s
  split
  · exact currentKept_refl s
  · exact currentKept_setRoute _ _ s

/-! ## Rules (R283 to R286) -/

theorem stagedOnly_valid (s : State) (words : List Nat) (hits : Nat) :
    ({ words := words, v0 := stagedPar s == 0, v1 := stagedPar s == 1, hits := hits } : Rule).valid (curPar s) = false :=
  stagedBit_current s

/-- A rule that is written where none is live stays out of the current generation. -/
theorem ruleLive_writeRule (i : Nat) (ws : List Nat) (s : State) : ruleLive (writeRule i ws s) i (curPar s) = false := by
  have kept : keptBit (curPar s) (stagedPar s == 0, stagedPar s == 1) = false := stagedOnly_valid s [] 0
  rw [ruleLive_eq, writeRule_rules, kvGet_kvPut]
  have shadow : kvGet i (writeRule i ws s).tab.tcamBad =
      (kvGet i s.tab.tcamBad).map fun _ => (stagedPar s == 0, stagedPar s == 1) := kvGet_kvUpd _ _ _
  simp only [Option.any_some, ruleWritten, stagedOnly_valid, shadow, Option.any_map, Bool.false_or]
  cases kvGet i s.tab.tcamBad <;> simp [kept]

theorem currentKept_writeRule {i : Nat} {s : State} (free : ruleLive s i (curPar s) = false) (ws : List Nat) :
    CurrentKept s (writeRule i ws s) where
  rules r := by
    by_cases same : r = i
    · subst same
      exact ⟨by rw [ruleLive_writeRule, free], fun live => absurd live (by simp [free])⟩
    · have kept : sameRule r s (writeRule i ws s) := ⟨kvGet_kvPut_ne _ _ _ same _, kvGet_kvUpd_ne same _ _⟩
      exact ⟨ruleLive_congr kept _, fun _ => by rw [kept.1]⟩

/-- A live rule is not tidied away. -/
theorem tidyRule_live {i par : Nat} {s : State} (live : ruleLive s i par = true) : tidyRule i s = s := by
  unfold tidyRule
  split
  · rfl
  · next r present =>
    split
    · rfl
    · next bare =>
      obtain ⟨bits, shadow⟩ := Bool.or_eq_false_iff.mp (Bool.eq_false_iff.mpr bare)
      obtain ⟨no0, no1⟩ := Bool.or_eq_false_iff.mp bits
      have unshadowed : kvGet i s.tab.tcamBad = none := Option.not_isSome_iff_eq_none.mp (Bool.eq_false_iff.mp shadow)
      simp [ruleLive, present, unshadowed, Rule.valid, no0, no1] at live

/-- A clearing changes the rules and the bits kept for repairs. -/
theorem clearRule_update (par i : Nat) (s : State) :
    ∃ l b, clearRule par i s = { s with tab := { s.tab with rules := l, tcamBad := b } } := by
  rw [clearRule_eq, tidyRule]
  split
  · exact ⟨_, _, rfl⟩
  · split
    · exact ⟨_, _, rfl⟩
    · exact ⟨_, _, rfl⟩

theorem currentKept_clearRule {s : State} (keys : rulesKeyed s) (i : Nat) : CurrentKept s (clearRule (stagedPar s) i s) := by
  have other : decide (curPar s % 2 ≠ stagedPar s) = true := by simpa using curPar_ne_stagedPar s
  have live : ruleLive (bitCleared (stagedPar s) i s) i (curPar s) = ruleLive s i (curPar s) := by
    rw [ruleLive_bitCleared (stagedPar_lt s), other, Bool.true_and]
  have rules : ∀ r, ruleLive (clearRule (stagedPar s) i s) r (curPar s) = ruleLive s r (curPar s) ∧
      (ruleLive s r (curPar s) = true → (kvGet r (clearRule (stagedPar s) i s).tab.rules).map (·.words) =
        (kvGet r s.tab.rules).map (·.words)) := fun r => by
    by_cases same : r = i
    · subst same
      refine ⟨by rw [ruleLive_clearRule (stagedPar_lt s) r _ keys, other, Bool.true_and], fun valid => ?_⟩
      rw [clearRule_eq, tidyRule_live (live.trans valid), bitCleared, kvGet_kvUpd, Option.map_map]
      congr 1
      funext x
      simp only [Function.comp, ruleWithout]
      split <;> rfl
    · have kept := sameRule_clearRule same (stagedPar s) keys
      exact ⟨ruleLive_congr kept _, fun _ => by rw [kept.1]⟩
  obtain ⟨l, b, cleared⟩ := clearRule_update (stagedPar s) i s
  rw [cleared] at rules ⊢
  exact { rules := rules }

/-- The positions of a run are as many as asked for. -/
theorem runOf_length {s : State} {sl i n : Nat} {r : List Nat} (run : runOf s sl i n = some r) : r.length = n := by
  unfold runOf at run
  dsimp only at run
  generalize (if bankWide s sl (i / 4096) = true then 2 else 1) = step at run
  split at run
  · simp at run
  · simp only [Option.some.injEq] at run
    simp [← run]

theorem rulePositions_length {s : State} {w n : Nat} {one : Bool} {rs : List (List Nat)}
    (places : rulePositions s w n one = .ok rs) : ∀ r ∈ rs, r.length = n := by
  unfold rulePositions at places
  dsimp only at places
  split at places
  · simp at places
  split at places
  · simp at places
  split at places
  · simp at places
  simp only [Except.ok.injEq] at places
  subst places
  intro r m
  simp only [List.filterMap_map, List.mem_filterMap, Function.comp, id_eq] at m
  obtain ⟨sl, _, run⟩ := m
  exact runOf_length run

/-- No position of some runs holds a rule of the current generation. -/
def runsUnused (rs : List (List Nat)) (t : State) : Prop := ∀ r ∈ rs, ∀ i ∈ r, ruleLive t i (curPar t) = false

theorem clsWrite_currentKept (a : Ask) (s : State) : CurrentKept s (clsWrite.body a s).st := by
  simp only [clsWrite]
  split
  · exact currentKept_refl s
  · next rs places =>
    split
    · exact currentKept_refl s
    split
    · exact currentKept_refl s
    · next free =>
      have length := rulePositions_length places
      simp only [List.any_eq_true, not_exists, not_and, Bool.not_eq_true] at free
      refine (currentKept_forAll (I := runsUnused rs) (fun r m t unused => ?_) s free).1
      refine currentKept_forAll (I := runsUnused rs) (fun k below u unused => ?_) t unused
      have named : nth 0 r k ∈ r := by
        have inside : k < r.length := by rw [length r m]; exact List.mem_range.mp below
        simp [nth, inside]
      have kept := currentKept_writeRule (unused r m _ named)
      exact ⟨kept _, fun r' m' i mem => ((kept _).ruleLive_eq i).trans (unused r' m' i mem)⟩

theorem clsInvalidate_currentKept (a : Ask) {s : State} (keys : rulesKeyed s) : CurrentKept s (clsInvalidate.body a s).st := by
  simp only [clsInvalidate]
  split
  · exact currentKept_refl s
  · refine (currentKept_forAll (I := fun t => rulesKeyed t ∧ stagedPar t = stagedPar s) (fun i _ t h => ?_) s ⟨keys, rfl⟩).1
    obtain ⟨keysT, par⟩ := h
    have kept := par ▸ currentKept_clearRule keysT i
    exact ⟨kept, rulesKeyed_clearRule _ i keysT, kept.stagedPar_eq.trans par⟩

/-! ## Gate lists (R345, R464) -/

theorem currentKept_gclPut {p j : Nat} {s : State} (canon : RegsCanonical s) (port : p < 256) (entry : j < 1024)
    (gates interval : Nat) : CurrentKept s (gclPut p j gates interval s) := by
  have canon1 := regsCanonical_setRg (viewSize * stagedPar s + R.gclEntryGates p j) (gates % 256) canon
  have regs : registersBut [viewSize * stagedPar s + R.gclEntryGates p j, viewSize * stagedPar s + R.gclEntryInterval p j] s
      (gclPut p j gates interval s) :=
    registersBut_trans (registersBut_mono (registersBut_setRg _ _ canon) (by simp))
      (registersBut_mono (registersBut_setRg _ _ canon1) (by simp))
  obtain ⟨slots, kept⟩ := registers_currentKept regs fun k m => by
    simp only [List.mem_cons, List.not_mem_nil, or_false, R.gclEntryGates, R.gclEntryInterval, viewSize, stagedPar, curPar] at m
    simp only [R.fdbHashSeed0, R.fdbHashSeed1, R.gclEntryGates, R.gclEntryInterval, viewSize, curPar]
    refine ⟨by omega, by omega, fun p' j' _ _ => ⟨by omega, by omega⟩⟩
  exact {
    canon := fun _ => regsCanonical_setRg _ _ canon1
    fdb := fun mac fid => by rw [fdbFind_congr slots rfl]
    gates := kept }

theorem gclRun_inside {s : State} {c : Cmd} {p first n : Nat} (run : gclRun s c = .ok (p, first, n)) : p < 256 ∧ first + n ≤ 1024 := by
  simp only [gclRun] at run
  split at run
  · simp at run
  split at run
  · simp at run
  simp only [Except.ok.injEq, Prod.mk.injEq] at run
  omega

theorem gclWriteEntries_currentKept (a : Ask) {s : State} (canon : RegsCanonical s) :
    CurrentKept s (gclWriteEntries.body a s).st := by
  simp only [gclWriteEntries]
  split
  · exact currentKept_refl s
  · next p first n run =>
    obtain ⟨port, last⟩ := gclRun_inside run
    refine (currentKept_forAll (I := RegsCanonical) (fun j m t canonT => ?_) s canon).1
    have kept := currentKept_gclPut canonT port (show first + j < 1024 by have := List.mem_range.mp m; omega)
    exact ⟨kept _ _, (kept _ _).canon canonT⟩

/-! ## Engines (R377, R388) -/

/-- A run of stores leaves every key outside it. -/
theorem kvGet_putRun {α : Type} {j : Nat} : ∀ (l : List α) (k : Nat) (t : List (Nat × α)), (j < k ∨ k + l.length ≤ j) →
    kvGet j (putRun k l t) = kvGet j t
  | [], _, _, _ => rfl
  | a :: l, k, t, out => by
    rw [List.length_cons] at out
    rw [putRun, kvGet_putRun l (k + 1) _ (by omega), kvGet_kvPut_ne _ _ _ (by omega)]

/-- A run of stores in each of some clusters. -/
theorem kvGet_foldl_store {α : Type} {j : Nat} {f : List (Nat × α) → Nat → List (Nat × α)}
    (store : ∀ t c, kvGet j (f t c) = kvGet j t) (cs : List Nat) (t : List (Nat × α)) : kvGet j (cs.foldl f t) = kvGet j t := by
  induction cs generalizing t with
  | nil => rfl
  | cons c cs ih => rw [List.foldl_cons, ih, store]

theorem engGate_currentKept {s : State} {f : State → CmdOut} (w : Nat) (kept : CurrentKept s (f s).st) :
    CurrentKept s (engGate w f s).st := by
  unfold engGate
  split
  · exact currentKept_refl s
  split
  · exact currentKept_refl s
  · exact kept

theorem bundlesOf_length : ∀ (n : Nat) (bs : List Byte), (bundlesOf n bs).length = n
  | 0, _ => rfl
  | n + 1, bs => by rw [bundlesOf, List.length_cons, bundlesOf_length n]

theorem wordsLE_length : ∀ (n : Nat) (bs : List Byte), (wordsLE n bs).length = n
  | 0, _ => rfl
  | n + 1, bs => by rw [wordsLE, List.length_cons, wordsLE_length n]

/-- A program that passes the loader's checks lies in its bank (R377). -/
theorem loadCheck_inside {s : State} {cs : List Nat} {start : Nat} {bs : List (List Nat)} {r : Nat × Bool}
    (loads : loadCheck s cs start bs = .inr r) : start + bs.length ≤ 8192 := by
  unfold loadCheck at loads
  dsimp only at loads
  split at loads
  · simp at loads
  · omega

/-- A run of bundles in the staged bank is no bundle of the current one. -/
theorem bundleKey_staged {s : State} {k a : Nat} (inside : a < 8192) (c : Nat) {start n : Nat} (fits : start + n ≤ 8192) :
    bundleKey k (curPar s) a < bundleKey c (1 - curPar s) start ∨ bundleKey c (1 - curPar s) start + n ≤ bundleKey k (curPar s) a := by
  simp only [bundleKey, curPar]
  omega

/-- A run of words in the staged table banks is no word of the current ones. -/
theorem bankKey_staged {s : State} {k w : Nat} (inside : w < 16384) (c : Nat) {start n : Nat} (fits : start + n ≤ 16384) :
    bankKey k (curPar s) w < bankKey c (1 - curPar s) start ∨ bankKey c (1 - curPar s) start + n ≤ bankKey k (curPar s) w := by
  simp only [bankKey, curPar]
  omega

theorem bundleKey_ne {s : State} {k a : Nat} (inside : a < 8192) (c : Nat) {start : Nat} (low : start < 8192) :
    bundleKey k (curPar s) a ≠ bundleKey c (1 - curPar s) start := by
  have apart := bundleKey_staged (s := s) (k := k) inside c (show start + 1 ≤ 8192 from low)
  omega

/-- A change of the staged programs and bundles. -/
theorem currentKept_programs {s : State} {programs : List (Nat × Program)} {bundles : List (Nat × List Nat)}
    (starts : ∀ k a, a < 8192 → kvGet (bundleKey k (curPar s) a) programs = kvGet (bundleKey k (curPar s) a) s.eng.programs)
    (stores : ∀ k a, a < 8192 → kvGet (bundleKey k (curPar s) a) bundles = kvGet (bundleKey k (curPar s) a) s.eng.bundles) :
    CurrentKept s { s with eng := { s.eng with bundles := bundles, programs := programs } } where
  programs k a inside := by
    refine ⟨starts k a inside, ?_⟩
    rw [bundleAt, bundleAt, kvGetD, kvGetD, stores k _ (Nat.mod_lt a (by decide))]

theorem engLoad_currentKept (a : Ask) (s : State) : CurrentKept s (engLoad.body a s).st := by
  have low : fld 12 0 (bodyWord a.cmd 0x14) < 8192 := Nat.mod_lt _ (by decide)
  refine engGate_currentKept _ ?_
  split
  · exact currentKept_refl s
  · dsimp only
    split
    · exact currentKept_refl s
    · next loads =>
      have fits := loadCheck_inside loads
      exact currentKept_programs
        (fun _ _ inside => kvGet_foldl_store (fun t c => kvGet_kvPut_ne _ _ _ (bundleKey_ne inside c low) t) _ _)
        (fun _ _ inside => kvGet_foldl_store (fun t c => kvGet_putRun _ _ t (bundleKey_staged inside c fits)) _ _)

/-- Deletions of other keys leave a key. -/
theorem kvGet_foldl_kvDel {α : Type} {j : Nat} {key : Nat → Nat} (ne : ∀ c, j ≠ key c) :
    ∀ (cs : List Nat) {t : List (Nat × α)}, keyed t → kvGet j (cs.foldl (fun t c => kvDel (key c) t) t) = kvGet j t
  | [], _, _ => rfl
  | c :: cs, t, sorted => by
    rw [List.foldl_cons, kvGet_foldl_kvDel ne cs (kvSortedFrom_kvDel (key c) t 0 sorted), kvGet_kvDel_ne sorted (ne c)]

theorem engUnload_currentKept (a : Ask) {s : State} (sorted : keyed s.eng.programs) :
    CurrentKept s (engUnload.body a s).st := by
  have low : fld 12 0 (bodyWord a.cmd 0x08) < 8192 := Nat.mod_lt _ (by decide)
  refine engGate_currentKept _ ?_
  split
  · exact currentKept_refl s
  · exact currentKept_programs (fun _ _ inside => kvGet_foldl_kvDel (fun c => bundleKey_ne inside c low) _ sorted)
      fun _ _ _ => rfl

theorem engTblWrite_currentKept (a : Ask) (s : State) : CurrentKept s (engTblWrite.body a s).st := by
  refine engGate_currentKept _ ?_
  split
  · exact currentKept_refl s
  · next runs =>
    have fits : fld 15 0 (bodyWord a.cmd 0x14) / 4 + dataBytes a.cmd / 4 ≤ 16384 := by
      simp only [bankRun, Bool.not_eq_true', Bool.not_eq_false, Bool.and_eq_true, beq_iff_eq, decide_eq_true_eq] at runs
      omega
    have kept : ∀ k w, w < 16384 →
        kvGet (bankKey k (curPar s) w) ((maskClusters (bodyWord a.cmd 0x14)).foldl (fun t c =>
          putRun (bankKey c (1 - curPar s) (fld 15 0 (bodyWord a.cmd 0x14) / 4)) (wordsLE (dataBytes a.cmd / 4) a.buf) t)
          s.eng.banks) = kvGet (bankKey k (curPar s) w) s.eng.banks := fun k w inside => by
      refine kvGet_foldl_store (fun t c => kvGet_putRun _ _ t ?_) _ _
      rw [wordsLE_length]
      exact bankKey_staged inside c fits
    exact { banks := fun k w inside => congrArg (Option.getD · 0) (kept k w inside) }

end Sys2Proof.Proofs
end

section
/-! PROOFS. The FDB's change commands as the current side meets them: a slot changes in its staged bit alone, and a relocation moves an
entry with its bits to another slot where its key may lie (R309, R312 to R314, R334, R335). -/

namespace Sys2Proof.Proofs

open Sys2Proof Sys2Proof.Machine Sys2Proof.Safety Sys2Proof.Laws

/-! ## What a parity reads of a slot -/

/-- What a parity reads of a slot: the key, INFO and ACTIVE of an entry valid in it. -/
def slotContent (par : Nat) (x : Option FdbEntry) : Option (Nat × Nat × Nat × Bool) :=
  x.bind fun e => if e.valid par then some (e.mac, e.fid, e.info, e.active) else none

theorem slotContent_valid {par : Nat} {e : FdbEntry} (valid : e.valid par = true) :
    slotContent par (some e) = some (e.mac, e.fid, e.info, e.active) := by simp [slotContent, valid]

theorem slotContent_invalid {par : Nat} {e : FdbEntry} (invalid : e.valid par = false) : slotContent par (some e) = none := by
  simp [slotContent, invalid]

theorem slotContent_eq_some {par : Nat} {x : Option FdbEntry} {mac fid info : Nat} {active : Bool} :
    slotContent par x = some (mac, fid, info, active) ↔
      ∃ e, x = some e ∧ e.valid par = true ∧ e.mac = mac ∧ e.fid = fid ∧ e.info = info ∧ e.active = active := by
  cases x with
  | none => simp [slotContent]
  | some e => cases valid : e.valid par <;> simp [slotContent, valid]

/-- What a key is found with is read from its slots. -/
theorem fdbFind_content (s : State) (par mac fid : Nat) :
    (fdbFind s par mac fid).map (fun r => (r.2.info, r.2.active)) = (keySlots s mac fid).findSome? fun i =>
      (slotContent par (fdbAt s i)).bind fun f => if f.1 = mac ∧ f.2.1 = fid then some f.2.2 else none := by
  rw [fdbFind, List.map_findSome?]
  congr 1
  funext i
  simp only [Function.comp]
  cases fdbAt s i with
  | none => rfl
  | some e =>
    cases valid : e.valid par
    · simp [slotContent, valid]
    · by_cases key : e.mac = mac ∧ e.fid = fid
      · simp [slotContent, valid, key]
      · simp [slotContent, valid, key, ← and_assoc]

/-- A key is found in the slot that holds its entry. -/
theorem fdbFind_fdbAt {s : State} {par mac fid i : Nat} {e : FdbEntry} (found : fdbFind s par mac fid = some (i, e)) :
    fdbAt s i = some e := by
  obtain ⟨j, _, hit⟩ := List.exists_of_findSome?_eq_some found
  obtain ⟨f, here, key⟩ := Option.bind_eq_some_iff.mp hit
  split at key
  · cases key
    exact here
  · simp at key

/-- A change of the entries alone, seen from the rest of the state. -/
def sansFdb (s : State) : State := { s with tab := { s.tab with fdb := [], visited := [], moving := [], movingTill := 0 } }

theorem keySlots_of_sansFdb {s t : State} (rest : sansFdb t = sansFdb s) (mac fid : Nat) : keySlots t mac fid = keySlots s mac fid := by
  have regs : t.regs = s.regs := congrArg (·.regs) rest
  exact keySlots_congr (by rw [rg, rg, regs]) (by rw [rg, rg, regs]) mac fid

theorem stagedPar_of_sansFdb {s t : State} (rest : sansFdb t = sansFdb s) : stagedPar t = stagedPar s :=
  stagedPar_congr (congrArg (·.gen) rest)

/-- A change of FDB entries leaves the current side where every key is found with the same content. -/
theorem currentKept_fdb {s t : State} (rest : sansFdb t = sansFdb s)
    (fdb : ∀ mac fid, (fdbFind t (curPar s) mac fid).map (fun r => (r.2.info, r.2.active)) =
      (fdbFind s (curPar s) mac fid).map fun r => (r.2.info, r.2.active)) : CurrentKept s t := by
  have gen : t.gen = s.gen := congrArg (·.gen) rest
  have regs : t.regs = s.regs := congrArg (·.regs) rest
  have eng : t.eng = s.eng := congrArg (·.eng) rest
  have vals : t.tab.vals = s.tab.vals := congrArg (·.tab.vals) rest
  have rules : t.tab.rules = s.tab.rules := congrArg (·.tab.rules) rest
  have bad : t.tab.tcamBad = s.tab.tcamBad := congrArg (·.tab.tcamBad) rest
  have repl : t.tab.repl = s.tab.repl := congrArg (·.tab.repl) rest
  have routes : t.tab.routes = s.tab.routes := congrArg (·.tab.routes) rest
  exact {
    current := by rw [gen]
    canon := (regsCanonical_congr regs).mpr
    entries := fun tbl idx => by rw [entry, entry, vals]
    rules := fun r => ⟨ruleLive_congr ⟨by rw [rules], by rw [bad]⟩ _, fun _ => by rw [rules]⟩
    repl := fun r => ⟨by rw [replLive, replLive, replAt, replAt, repl, curPar, curPar, gen], fun _ => by rw [replAt, replAt, repl]⟩
    fdb := fdb
    routes := fun p => by rw [routeAt, routeAt, routes]
    gates := fun p j _ _ => ⟨by rw [pg, pg, regs], by rw [pg, pg, regs]⟩
    programs := fun k a _ => ⟨by rw [programAt, programAt, eng], by rw [bundleAt, bundleAt, eng]⟩
    banks := fun k w _ => by rw [eng] }

/-- So it does where every slot reads the same. -/
theorem currentKept_slots {s t : State} (rest : sansFdb t = sansFdb s)
    (slots : ∀ i, slotContent (curPar s) (fdbAt t i) = slotContent (curPar s) (fdbAt s i)) : CurrentKept s t :=
  currentKept_fdb rest fun mac fid => by rw [fdbFind_content, fdbFind_content, keySlots_of_sansFdb rest]; simp only [slots]

/-! ## A slot stored -/

theorem sansFdb_setFdb (i : Nat) (e : FdbEntry) (s : State) : sansFdb (setFdb i e s) = sansFdb s := by
  unfold setFdb
  split <;> rfl

theorem fdbAt_setFdb {s : State} (sorted : keyed s.tab.fdb) (i : Nat) (e : FdbEntry) (j : Nat) :
    fdbAt (setFdb i e s) j = if j = i then if e.v0 || e.v1 then some e else none else fdbAt s j := by
  unfold setFdb
  by_cases same : j = i
  · subst same
    cases e.v0 || e.v1
    · simpa [fdbAt] using kvGet_kvDel_same sorted j
    · simpa [fdbAt] using kvGet_kvPut j e s.tab.fdb
  · cases e.v0 || e.v1
    · simpa [fdbAt, same] using kvGet_kvDel_ne sorted same
    · simpa [fdbAt, same] using kvGet_kvPut_ne i j e same s.tab.fdb

theorem keyed_setFdb {s : State} (sorted : keyed s.tab.fdb) (i : Nat) (e : FdbEntry) : keyed (setFdb i e s).tab.fdb := by
  unfold setFdb
  split
  · exact keyed_kvPut sorted i e
  · exact kvSortedFrom_kvDel i s.tab.fdb 0 sorted

/-- An entry without a bit reads as a free slot. -/
theorem slotContent_stored (par : Nat) (e : FdbEntry) :
    slotContent par (if e.v0 || e.v1 then some e else none) = slotContent par (some e) := by
  cases bits : e.v0 || e.v1
  · obtain ⟨no0, no1⟩ := Bool.or_eq_false_iff.mp bits
    simp [slotContent, FdbEntry.valid, no0, no1]
  · rfl

theorem slotContent_setFdb {s : State} {i : Nat} {e : FdbEntry} {par : Nat} (sorted : keyed s.tab.fdb)
    (same : slotContent par (some e) = slotContent par (fdbAt s i)) (j : Nat) :
    slotContent par (fdbAt (setFdb i e s) j) = slotContent par (fdbAt s j) := by
  rw [fdbAt_setFdb sorted]
  split
  · next here => rw [slotContent_stored, same, here]
  · rfl

theorem currentKept_setFdb {s : State} {i : Nat} {e : FdbEntry} (sorted : keyed s.tab.fdb)
    (same : slotContent (curPar s) (some e) = slotContent (curPar s) (fdbAt s i)) : CurrentKept s (setFdb i e s) :=
  currentKept_slots (sansFdb_setFdb i e s) (slotContent_setFdb sorted same)

/-! ## The staged bit -/

/-- An entry with the staged bit changed reads the same in the current parity. -/
theorem slotContent_setStaged (s : State) (b : Bool) (e : FdbEntry) :
    slotContent (curPar s) (some (e.setValid (stagedPar s) b)) = slotContent (curPar s) (some e) := by
  rcases Nat.mod_two_eq_zero_or_one s.gen.current with even | odd
  · simp [slotContent, FdbEntry.valid, FdbEntry.setValid, curPar, stagedPar, even]
  · simp [slotContent, FdbEntry.valid, FdbEntry.setValid, curPar, stagedPar, odd]

/-- The parity after the staged one is the current one. -/
theorem valid_afterStaged (s : State) (e : FdbEntry) : e.valid (stagedPar s + 1) = e.valid (curPar s) := by
  rcases Nat.mod_two_eq_zero_or_one s.gen.current with even | odd
  · simp [FdbEntry.valid, curPar, stagedPar, even]
  · simp [FdbEntry.valid, curPar, stagedPar, odd]

/-- New content is in the staged parity alone. -/
theorem slotContent_staged (s : State) (e : FdbEntry) :
    slotContent (curPar s) (some ((e.setValid (stagedPar s) true).setValid (stagedPar s + 1) false)) = none := by
  refine slotContent_invalid ?_
  rw [← valid_afterStaged, FdbEntry.valid, FdbEntry.setValid]
  split <;> rfl

/-- A cleared bit leaves the key and adds no bit. -/
theorem cleared_key (par : Nat) (e : FdbEntry) : (e.setValid par false).mac = e.mac ∧ (e.setValid par false).fid = e.fid := by
  unfold FdbEntry.setValid
  split <;> exact ⟨rfl, rfl⟩

theorem cleared_bits (par : Nat) (e : FdbEntry) :
    ((e.setValid par false).v0 = true → e.v0 = true) ∧ ((e.setValid par false).v1 = true → e.v1 = true) := by
  unfold FdbEntry.setValid
  split <;> simp

/-- Clearing a bit of an entry of a sound FDB leaves it sound. -/
theorem fdbSound_clear {s : State} (sound : FdbSound s) {i : Nat} {e : FdbEntry} (here : fdbAt s i = some e) (par : Nat) :
    FdbSound (setFdb i (e.setValid par false) s) := by
  obtain ⟨sorted, places, alone⟩ := sound
  have after := fdbAt_setFdb sorted i (e.setValid par false)
  have rest := keySlots_of_sansFdb (sansFdb_setFdb i (e.setValid par false) s)
  /- Each entry now was one of the same key, with its bits and perhaps one more. -/
  have origin : ∀ {j f}, fdbAt (setFdb i (e.setValid par false) s) j = some f → (f.v0 || f.v1) = true ∧
      ∃ g, fdbAt s j = some g ∧ f.mac = g.mac ∧ f.fid = g.fid ∧
        (f.v0 = true → g.v0 = true) ∧ (f.v1 = true → g.v1 = true) := by
    intro j f now
    rw [after] at now
    split at now
    · next same =>
      split at now
      · next bits =>
        cases now
        exact ⟨bits, e, same ▸ here, (cleared_key par e).1, (cleared_key par e).2, (cleared_bits par e).1, (cleared_bits par e).2⟩
      · simp at now
    · exact ⟨(places j f now).2, f, now, rfl, rfl, id, id⟩
  refine ⟨keyed_setFdb sorted _ _, fun j f now => ?_, fun j k f h now now' mac fid both => ?_⟩
  · obtain ⟨bits, g, was, mac, fid, _⟩ := origin now
    rw [rest, mac, fid]
    exact ⟨(places j g was).1, bits⟩
  · obtain ⟨_, g, was, macG, fidG, g0, g1⟩ := origin now
    obtain ⟨_, g', was', macG', fidG', g0', g1'⟩ := origin now'
    refine alone j k g g' was was' (by rw [← macG, mac, macG']) (by rw [← fidG, fid, fidG']) ?_
    simp only [Bool.or_eq_true, Bool.and_eq_true] at both ⊢
    exact both.imp (fun b => ⟨g0 b.1, g0' b.2⟩) fun b => ⟨g1 b.1, g1' b.2⟩

/-! ## Relocations (R312, R313) -/

/-- In a sound FDB a key is found with the content that some slot reads for it. -/
theorem fdbFind_content_iff {s : State} (sound : FdbSound s) {par mac fid info : Nat} {active : Bool} :
    (fdbFind s par mac fid).map (fun r => (r.2.info, r.2.active)) = some (info, active) ↔
      ∃ i, slotContent par (fdbAt s i) = some (mac, fid, info, active) := by
  obtain ⟨_, places, alone⟩ := sound
  have read : ∀ {l : List Nat} {c : Nat × Bool}, (l.findSome? fun i => (slotContent par (fdbAt s i)).bind fun f =>
      if f.1 = mac ∧ f.2.1 = fid then some f.2.2 else none) = some c →
      ∃ i, slotContent par (fdbAt s i) = some (mac, fid, c.1, c.2) := by
    intro l c found
    obtain ⟨i, _, hit⟩ := List.exists_of_findSome?_eq_some found
    obtain ⟨⟨mac', fid', c'⟩, content, key⟩ := Option.bind_eq_some_iff.mp hit
    split at key
    · next same =>
      obtain ⟨rfl, rfl⟩ := same
      cases key
      exact ⟨i, content⟩
    · simp at key
  rw [fdbFind_content]
  refine ⟨read, fun ⟨i, content⟩ => ?_⟩
  obtain ⟨e, here, valid, rfl, rfl, rfl, rfl⟩ := slotContent_eq_some.mp content
  cases found : (keySlots s e.mac e.fid).findSome? fun i => (slotContent par (fdbAt s i)).bind fun f =>
      if f.1 = e.mac ∧ f.2.1 = e.fid then some f.2.2 else none with
  | none =>
    have absent := List.findSome?_eq_none_iff.mp found i (places i e here).1
    simp [content] at absent
  | some c =>
    obtain ⟨j, content'⟩ := read found
    obtain ⟨f, there, valid', mac, fid, info, active⟩ := slotContent_eq_some.mp content'
    have both : (e.v0 && f.v0 || e.v1 && f.v1) = true := by
      unfold FdbEntry.valid at valid valid'
      split at valid <;> simp_all
    obtain rfl := alone i j e f here there mac.symm fid.symm both
    cases here.symm.trans there
    rw [info, active]

/-- A slot vacated, and its resident moved to another slot with its bits. -/
def slotVacated (i : Nat) (s : State) : State := { s with tab := { s.tab with fdb := kvDel i s.tab.fdb } }
def residentMoved (i dst : Nat) (e : FdbEntry) (s : State) : State := setFdb dst e (slotVacated i s)

theorem keyed_slotVacated {s : State} (sorted : keyed s.tab.fdb) (i : Nat) : keyed (slotVacated i s).tab.fdb :=
  kvSortedFrom_kvDel i s.tab.fdb 0 sorted

theorem fdbAt_residentMoved {s : State} (sound : FdbSound s) {i dst : Nat} {e : FdbEntry} (here : fdbAt s i = some e)
    (j : Nat) : fdbAt (residentMoved i dst e s) j = if j = dst then some e else if j = i then none else fdbAt s j := by
  obtain ⟨sorted, places, _⟩ := sound
  rw [residentMoved, fdbAt_setFdb (keyed_slotVacated sorted i), (places i e here).2, if_pos rfl]
  by_cases atDst : j = dst
  · rw [if_pos atDst, if_pos atDst]
  · rw [if_neg atDst, if_neg atDst]
    by_cases vacated : j = i
    · rw [if_pos vacated, vacated]
      exact kvGet_kvDel_same sorted i
    · rw [if_neg vacated]
      exact kvGet_kvDel_ne sorted vacated

/-- The slot where the entry of a slot lay before a move. -/
def slotBefore (i dst j : Nat) : Nat := if j = dst then i else j

theorem sansFdb_residentMoved (i dst : Nat) (e : FdbEntry) (s : State) : sansFdb (residentMoved i dst e s) = sansFdb s :=
  sansFdb_setFdb dst e _

/-- The slots after a move hold what they held, but for the vacated one. -/
theorem residentMoved_some {s : State} (sound : FdbSound s) {i dst : Nat} {e f : FdbEntry} (here : fdbAt s i = some e)
    (free : fdbAt s dst = none) {j : Nat} :
    fdbAt (residentMoved i dst e s) j = some f ↔ fdbAt s (slotBefore i dst j) = some f ∧ j ≠ i := by
  rw [fdbAt_residentMoved sound here, slotBefore]
  have apart : dst ≠ i := fun same => by simp [same, here] at free
  by_cases atDst : j = dst
  · simp [atDst, here, apart]
  · by_cases vacated : j = i
    · simp [vacated, apart.symm]
    · simp [atDst, vacated]

theorem fdbSound_residentMoved {s : State} (sound : FdbSound s) {i dst : Nat} {e : FdbEntry} (here : fdbAt s i = some e)
    (free : fdbAt s dst = none) (place : dst ∈ keySlots s e.mac e.fid) : FdbSound (residentMoved i dst e s) := by
  have now := @residentMoved_some s sound i dst e
  have slots := keySlots_of_sansFdb (sansFdb_residentMoved i dst e s)
  obtain ⟨sorted, places, alone⟩ := sound
  refine ⟨keyed_setFdb (keyed_slotVacated sorted i) dst e, fun j f nowJ => ?_, fun j k f g nowJ nowK mac fid both => ?_⟩
  · obtain ⟨was, _⟩ := (now here free).mp nowJ
    rw [slots]
    refine ⟨?_, (places _ f was).2⟩
    by_cases atDst : j = dst
    · rw [slotBefore, if_pos atDst] at was
      cases here.symm.trans was
      exact atDst ▸ place
    · rw [slotBefore, if_neg atDst] at was
      exact (places j f was).1
  · obtain ⟨wasJ, notI⟩ := (now here free).mp nowJ
    obtain ⟨wasK, notI'⟩ := (now here free).mp nowK
    have same := alone _ _ f g wasJ wasK mac fid both
    unfold slotBefore at same
    split at same <;> split at same <;> omega

/-- A move to a free slot of the resident's key changes what no key is found with. -/
theorem currentKept_residentMoved {s : State} (sound : FdbSound s) {i dst : Nat} {e : FdbEntry} (here : fdbAt s i = some e)
    (free : fdbAt s dst = none) (place : dst ∈ keySlots s e.mac e.fid) : CurrentKept s (residentMoved i dst e s) := by
  refine currentKept_fdb (sansFdb_residentMoved i dst e s) fun mac fid => Option.ext fun ⟨info, active⟩ => ?_
  rw [fdbFind_content_iff sound, fdbFind_content_iff (fdbSound_residentMoved sound here free place)]
  simp only [slotContent_eq_some, residentMoved_some sound here free]
  constructor
  · rintro ⟨j, f, ⟨was, _⟩, content⟩
    exact ⟨_, f, was, content⟩
  · rintro ⟨j, f, was, content⟩
    by_cases resident : j = i
    · refine ⟨dst, f, ⟨by rwa [slotBefore, if_pos rfl, ← resident], fun same => ?_⟩, content⟩
      simp [← same, free] at here
    · have occupied : j ≠ dst := fun same => by simp [← same, was] at free
      exact ⟨j, f, ⟨by rwa [slotBefore, if_neg occupied], resident⟩, content⟩

/-! ## Chains of relocations -/

/-- The slots of a resident's other bucket are slots where its key may lie. -/
theorem mem_otherSlots {s : State} {i j : Nat} {e : FdbEntry} (here : fdbAt s i = some e) (other : j ∈ otherSlots s i) :
    j ∈ keySlots s e.mac e.fid := by
  simp only [otherSlots, here] at other
  rw [keySlots, List.mem_append]
  have half : 1 - i / 131072 = 0 ∨ 1 - i / 131072 = 1 := by omega
  rcases half with low | high
  · exact .inl (low ▸ other)
  · exact .inr (high ▸ other)

/-- Residents, each of which may move to the slot of the next. -/
structure MovePath (s : State) (path : List Nat) : Prop where
  linked : path.IsChain fun i j => j ∈ otherSlots s i
  nodup : path.Nodup
  occupied : ∀ i ∈ path, fdbAt s i ≠ none

/-- A path whose last resident may move to a free slot. -/
structure MoveChain (s : State) (path : List Nat) (f : Nat) : Prop where
  linked : (path ++ [f]).IsChain fun i j => j ∈ otherSlots s i
  nodup : path.Nodup
  occupied : ∀ i ∈ path, fdbAt s i ≠ none
  free : fdbAt s f = none

theorem isChain_concat {R : Nat → Nat → Prop} {path : List Nat} (linked : path.IsChain R) {f : Nat}
    (last : R (path.getLast?.getD 0) f) : (path ++ [f]).IsChain R := by
  refine List.isChain_append.mpr ⟨linked, .singleton f, fun x atEnd y only => ?_⟩
  have here : path.getLast? = some x := atEnd
  have there : y = f := by simpa using only.symm
  rw [here, Option.getD_some] at last
  exact there ▸ last

theorem freeSlot_some {s : State} {slots : List Nat} {f : Nat} (found : freeSlot s slots = some f) : f ∈ slots ∧ fdbAt s f = none :=
  ⟨List.mem_of_find?_eq_some found, by simpa using List.find?_some found⟩

theorem freeSlot_none {s : State} {slots : List Nat} (found : freeSlot s slots = none) : ∀ i ∈ slots, fdbAt s i ≠ none := by
  simpa [freeSlot] using found

theorem findChain_moveChain {s : State} : ∀ {fuel : Nat} {paths : List (List Nat)} {r : List Nat × Nat},
    (∀ p ∈ paths, p ≠ [] ∧ MovePath s p) → findChain s fuel paths = some r → r.1 ≠ [] ∧ MoveChain s r.1 r.2
  | 0, _, _, _, found => by simp [findChain] at found
  | fuel + 1, paths, r, good, found => by
    rw [findChain] at found
    split at found
    · next r' here =>
      cases found
      obtain ⟨p, mem, ends⟩ := List.exists_of_findSome?_eq_some here
      obtain ⟨f, isFree, rfl⟩ := Option.map_eq_some_iff.mp ends
      obtain ⟨nonempty, path⟩ := good p mem
      obtain ⟨other, free⟩ := freeSlot_some isFree
      exact ⟨nonempty, isChain_concat path.linked other, path.nodup, path.occupied, free⟩
    · next noneFree =>
      refine findChain_moveChain (fun q mem => ?_) found
      simp only [List.mem_flatMap, List.mem_filterMap] at mem
      obtain ⟨p, memP, j, other, new⟩ := mem
      split at new
      · simp at new
      · next fresh =>
        cases new
        obtain ⟨_, path⟩ := good p memP
        have full := freeSlot_none (Option.map_eq_none_iff.mp (List.findSome?_eq_none_iff.mp noneFree p memP)) j other
        have outside : j ∉ p := by simpa using fresh
        exact ⟨by simp, isChain_concat path.linked other,
          List.nodup_append.mpr ⟨path.nodup, List.nodup_singleton j, by simpa using fun a m (same : a = j) => outside (same ▸ m)⟩,
          by simpa [or_imp, forall_and] using ⟨path.occupied, full⟩⟩

/-- A chain carried out: the current side and the soundness are left, the first resident's slot is free, other slots are as they were. -/
structure ChainMoved (path : List Nat) (f : Nat) (s t : State) : Prop where
  rest : sansFdb t = sansFdb s
  sound : FdbSound t
  kept : CurrentKept s t
  free : fdbAt t (path.head?.getD f) = none
  others : ∀ j, j ∉ path → j ≠ f → fdbAt t j = fdbAt s j

theorem chainMoved_moveChain {s : State} {f : Nat} (sound : FdbSound s) :
    ∀ {path : List Nat}, MoveChain s path f → ChainMoved path f s (moveChain path f s)
  | [], chain => ⟨rfl, sound, currentKept_refl s, chain.free, fun _ _ _ => rfl⟩
  | i :: is, chain => by
    obtain ⟨linked, nodup, occupied, free⟩ := chain
    obtain ⟨notLater, nodup'⟩ := List.nodup_cons.mp nodup
    obtain ⟨next, linked'⟩ := List.isChain_cons.mp linked
    have occupied' : ∀ j ∈ is, fdbAt s j ≠ none := fun j m => occupied j (List.mem_cons_of_mem i m)
    have first := occupied i List.mem_cons_self
    have notFree : i ≠ f := fun same => first (same ▸ free)
    obtain ⟨rest1, sound1, kept1, free1, others1⟩ := chainMoved_moveChain sound ⟨linked', nodup', occupied', free⟩
    obtain ⟨e, here⟩ := Option.ne_none_iff_exists'.mp first
    have here1 : fdbAt (moveChain is f s) i = some e := (others1 i notLater notFree).trans here
    have moved : moveChain (i :: is) f s = residentMoved i (is.head?.getD f) e (moveChain is f s) := by
      rw [moveChain]
      dsimp only
      rw [here1]
      rfl
    have target : is.head?.getD f ∈ is ∨ is.head?.getD f = f := by cases is <;> simp
    have place : is.head?.getD f ∈ keySlots (moveChain is f s) e.mac e.fid := by
      rw [keySlots_of_sansFdb rest1]
      exact mem_otherSlots here (next _ (by cases is <;> simp))
    rw [moved]
    have now := fdbAt_residentMoved (dst := is.head?.getD f) sound1 here1
    refine ⟨(sansFdb_residentMoved _ _ _ _).trans rest1, fdbSound_residentMoved sound1 here1 free1 place,
      currentKept_trans kept1 (currentKept_residentMoved sound1 here1 free1 place), ?_, fun j out notF => ?_⟩
    · have apart : i ≠ is.head?.getD f := by
        rcases target with inside | last
        · exact fun same => notLater (same ▸ inside)
        · exact fun same => notFree (same.trans last)
      rw [List.head?_cons, Option.getD_some, now, if_neg apart, if_pos rfl]
    · obtain ⟨notI, notIs⟩ := not_or.mp (mt List.mem_cons.mpr out)
      have notTarget : j ≠ is.head?.getD f := by
        rcases target with inside | last
        · exact fun same => notIs (same ▸ inside)
        · exact fun same => notF (same.trans last)
      rw [now, if_neg notTarget, if_neg notI, others1 j notIs notF]

/-- A slot for a key comes free, the current side left as it was. -/
theorem fdbPlace_kept {s : State} (sound : FdbSound s) {mac fid : Nat} {r : Nat × Nat × State} (placed : fdbPlace mac fid s = some r) :
    CurrentKept s r.2.2 ∧ keyed r.2.2.tab.fdb ∧ fdbAt r.2.2 r.1 = none := by
  unfold fdbPlace at placed
  dsimp only at placed
  split at placed
  · next i free =>
    cases placed
    exact ⟨currentKept_refl s, sound.1, (freeSlot_some free).2⟩
  · next full =>
    obtain ⟨⟨path, f⟩, found, rfl⟩ := Option.map_eq_some_iff.mp placed
    obtain ⟨nonempty, chain⟩ := findChain_moveChain (fun p mem => by
      obtain ⟨i, place, rfl⟩ := List.mem_map.mp mem
      exact ⟨by simp, .singleton i, List.nodup_singleton i, by simpa using freeSlot_none full i place⟩) found
    obtain ⟨_, soundT, kept, free, _⟩ := chainMoved_moveChain sound chain
    have first : path.head?.getD 0 = path.head?.getD f := by
      cases path with
      | nil => exact absurd rfl nonempty
      | cons i is => rfl
    exact ⟨currentKept_trans kept {}, soundT.1, first ▸ free⟩

/-! ## The FDB commands (R314, R334, R335) -/

theorem stageEntry_kept {s : State} (sound : FdbSound s) {e : FdbEntry} {r : Nat × Nat × State}
    (staged : stageEntry e s = some r) : CurrentKept s r.2.2 := by
  /- New content goes to a slot come free after a change that keeps the current side. -/
  have place : ∀ {u : State}, sansFdb u = sansFdb s → FdbSound u → CurrentKept s u → ∀ {q}, fdbPlace e.mac e.fid u = some q →
      CurrentKept s (setFdb q.1 ((e.setValid (stagedPar s) true).setValid (stagedPar s + 1) false) q.2.2) := by
    intro u rest soundU kept q placed
    obtain ⟨moved, sorted, free⟩ := fdbPlace_kept soundU placed
    have stored := slotContent_staged q.2.2 e
    rw [moved.stagedPar_eq, kept.stagedPar_eq] at stored
    exact currentKept_trans kept (currentKept_trans moved (currentKept_setFdb sorted (by rw [stored, free]; rfl)))
  unfold stageEntry at staged
  dsimp only at staged
  split at staged
  · next i old found =>
    have here := fdbFind_fdbAt found
    split at staged
    · next alone =>
      cases staged
      have unread : slotContent (curPar s) (fdbAt s i) = none := by
        rw [here, slotContent_invalid]
        rw [← valid_afterStaged]
        simpa using alone
      exact currentKept_setFdb sound.1 (by rw [slotContent_staged, unread])
    · obtain ⟨q, placed, rfl⟩ := Option.map_eq_some_iff.mp staged
      refine place (sansFdb_setFdb _ _ _) (fdbSound_clear sound here _) ?_ placed
      exact currentKept_setFdb sound.1 (by rw [slotContent_setStaged, here])
  · obtain ⟨q, placed, rfl⟩ := Option.map_eq_some_iff.mp staged
    exact place rfl sound (currentKept_refl s) placed

theorem fdbInsert_currentKept (a : Ask) {s : State} (sound : FdbSound s) : CurrentKept s (fdbInsert.body a s).st := by
  simp only [fdbInsert]
  split
  · exact currentKept_refl s
  split
  · exact currentKept_refl s
  split
  · exact currentKept_refl s
  · next staged => exact currentKept_trans (stageEntry_kept sound staged) {}

theorem fdbDelete_currentKept (a : Ask) {s : State} (sorted : keyed s.tab.fdb) : CurrentKept s (fdbDelete.body a s).st := by
  simp only [fdbDelete]
  split
  · exact currentKept_refl s
  · next i e found => exact currentKept_setFdb sorted (by rw [slotContent_setStaged, fdbFind_fdbAt found])

/-- From `s` to `t` slots have changed, none as the current parity reads it. -/
structure SlotsKept (s t : State) : Prop where
  rest : sansFdb t = sansFdb s
  sorted : keyed t.tab.fdb
  slots : ∀ i, slotContent (curPar s) (fdbAt t i) = slotContent (curPar s) (fdbAt s i)

/-- Outside ordinary mode FLUSH clears staged bits (R323, R335). -/
theorem fdbFlush_currentKept (a : Ask) {s : State} (sorted : keyed s.tab.fdb)
    (staged : ∀ j e, fdbAt s j = some e → domainMode s e.domain ≠ 1) : CurrentKept s (fdbFlush.body a s).st := by
  simp only [fdbFlush]
  refine (currentKept_forAll (I := SlotsKept s) (fun c hit t h => ?_) s ⟨rfl, sorted, fun _ => rfl⟩).1
  obtain ⟨rest, sortedT, slots⟩ := h
  have here : fdbAt s c.1 = some c.2 := kvGet_of_mem sorted (List.mem_of_mem_filter hit)
  have mode : domainMode t c.2.domain ≠ 1 := by
    have regs : t.regs = s.regs := congrArg (·.regs) rest
    rw [domainMode, cuF, cu, regs]
    exact staged c.1 c.2 here
  have same : slotContent (curPar s) (some (c.2.setValid (stagedPar t) false)) = slotContent (curPar s) (fdbAt t c.1) := by
    rw [stagedPar_of_sansFdb rest, slotContent_setStaged, slots, here]
  have par : curPar t = curPar s := by rw [curPar, curPar, show t.gen = s.gen from congrArg (·.gen) rest]
  rw [removeByMode, if_neg mode]
  exact ⟨currentKept_setFdb sortedT (par ▸ same), (sansFdb_setFdb _ _ _).trans rest, keyed_setFdb sortedT _ _,
    fun i => (slotContent_setFdb sortedT same i).trans (slots i)⟩

end Sys2Proof.Proofs
end

section
/-! PROOFS. The commands that change staged entries, run through the table command register: none changes what frames of the current
generation are handled by (O41). -/

namespace Sys2Proof.Proofs

open Sys2Proof Sys2Proof.Machine Sys2Proof.Safety Sys2Proof.Laws

/-- No domain of an FDB entry is in ordinary mode (R340). -/
def flushStaged (s : State) : Prop := ∀ j e, fdbAt s j = some e → domainMode s e.domain ≠ 1

/-- The modes of the domains are in use while a command passes. -/
theorem CommandPasses.flushStaged {s t : State} (h : CommandPasses s t) (canon : RegsCanonical s) (staged : flushStaged s) :
    flushStaged t := fun j e here => by
  obtain ⟨_, _, _, _, fdb, _⟩ := entries_of_idled h.tab
  have spared : R.fdbDomainCfg e.domain + viewSize ∉ commandRegs := fun named => by
    have low := (commandRegs_spared _ named).1
    simp only [viewSize] at low
    omega
  rw [domainMode, cuF, cu, (h.regs canon).2 _ spared]
  exact staged j e (by rwa [fdbAt, fdb] at here)

/-- Every change command keeps the current side. -/
theorem changeCommand_currentKept {c : Cmd} {i : Instr} {s : State} (tcmd : c.via = .tcmd)
    (change : i ∈ [Instr.strWrite c, .hgtWrite c, .nhpWrite c, .writeGroup c, .mcgWrite c, .mcgInvalidate c, .writeRun c, .fdbInsert c,
      .fdbDelete c, .fdbFlush c, .lpmInsert c, .lpmDelete c, .clsWrite c, .clsInvalidate c, .load c, .unload c, .tblWrite c,
      .writeEntries c])
    (sound : TablesSound s) (staged : i = .fdbFlush c → flushStaged s) :
    ∃ t, Sys2Proof.Machine.exec i s = .next t ∧ CurrentKept s t := by
  simp only [List.mem_cons, List.not_mem_nil, or_false] at change
  rcases change with rfl | rfl | rfl | rfl | rfl | rfl | rfl | rfl | rfl | rfl | rfl | rfl | rfl | rfl | rfl | rfl | rfl | rfl
  · exact ⟨_, rfl, runCmd_currentKept tcmd sound fun a u _ _ _ => strWrite_currentKept a u⟩
  · exact ⟨_, rfl, runCmd_currentKept tcmd sound fun a u _ _ _ => hgtWrite_currentKept a u⟩
  · exact ⟨_, rfl, runCmd_currentKept tcmd sound fun a u _ _ _ => nhpWrite_currentKept a u⟩
  · exact ⟨_, rfl, runCmd_currentKept tcmd sound fun a u _ _ _ => nhpWriteGroup_currentKept a u⟩
  · exact ⟨_, rfl, runCmd_currentKept tcmd sound fun a u _ _ _ => mcgWrite_currentKept a u⟩
  · exact ⟨_, rfl, runCmd_currentKept tcmd sound fun a _ _ _ h => mcgInvalidate_currentKept a h.repl⟩
  · exact ⟨_, rfl, runCmd_currentKept tcmd sound fun a u _ _ _ => mcgWriteRun_currentKept a u⟩
  · exact ⟨_, rfl, runCmd_currentKept tcmd sound fun a _ _ _ h => fdbInsert_currentKept a h.fdb⟩
  · exact ⟨_, rfl, runCmd_currentKept tcmd sound fun a _ _ _ h => fdbDelete_currentKept a h.fdb.1⟩
  · exact ⟨_, rfl, runCmd_currentKept tcmd sound fun a _ _ passes h =>
      fdbFlush_currentKept a h.fdb.1 (passes.flushStaged sound.canon (staged rfl))⟩
  · exact ⟨_, rfl, runCmd_currentKept tcmd sound fun a u _ _ _ => lpmInsert_currentKept a u⟩
  · exact ⟨_, rfl, runCmd_currentKept tcmd sound fun a u _ _ _ => lpmDelete_currentKept a u⟩
  · exact ⟨_, rfl, runCmd_currentKept tcmd sound fun a u _ _ _ => clsWrite_currentKept a u⟩
  · exact ⟨_, rfl, runCmd_currentKept tcmd sound fun a _ _ _ h => clsInvalidate_currentKept a h.rules⟩
  · exact ⟨_, rfl, runCmd_currentKept tcmd sound fun a u _ _ _ => engLoad_currentKept a u⟩
  · exact ⟨_, rfl, runCmd_currentKept tcmd sound fun a _ _ _ h => engUnload_currentKept a h.programs⟩
  · exact ⟨_, rfl, runCmd_currentKept tcmd sound fun a u _ _ _ => engTblWrite_currentKept a u⟩
  · exact ⟨_, rfl, runCmd_currentKept tcmd sound fun a _ _ _ h => gclWriteEntries_currentKept a h.canon⟩

/-- Settles O41: each change command's target writes under keys of the staged parity or in staged bits, and the commands' common course
writes none of the tables. -/
theorem changesStayStaged : Obligations.ChangesStayStaged := by
  unfold Obligations.ChangesStayStaged
  intro c i s tcmd change canon rules bad repl programs fdb staged
  obtain ⟨t, runs, kept⟩ := changeCommand_currentKept tcmd change ⟨canon, ⟨rules, bad⟩, repl, programs, fdb⟩ staged
  exact ⟨t, runs, kept.current, fun tbl idx _ => kept.entries tbl idx, kept.rules, kept.repl, kept.fdb, kept.routes, kept.gates,
    kept.programs, kept.banks⟩

end Sys2Proof.Proofs
end

section
/-! PROOFS. The canonical forms of the stored registers and of host memory (R4, 00_scope): each shared operation of the model keeps
them. An operation whose `_keeps` lemma says that it leaves the registers or host memory as they are has none here for that part. -/

namespace Sys2Proof.Proofs

open Sys2Proof Sys2Proof.Machine Sys2Proof.Safety Sys2Proof.Laws

@[simp] theorem regsWf_ite {c : Prop} [Decidable c] {a b : List (Nat × Word)} (ha : regsWf a = true) (hb : regsWf b = true) :
    regsWf (if c then a else b) = true := by split <;> assumption
@[simp] theorem memWf_ite {c : Prop} [Decidable c] {a b : List (Nat × Byte)} (ha : memWf a = true) (hb : memWf b = true) :
    memWf (if c then a else b) = true := by split <;> assumption
@[simp] theorem forAll_regsWf {α : Type} (f : α → State → State) (h : ∀ a s, regsWf s.regs = true → regsWf (f a s).regs = true) :
    ∀ l s, regsWf s.regs = true → regsWf (forAll f l s).regs = true
  | [], _, w => w
  | a :: l, s, w => forAll_regsWf f h l _ (h a s w)
@[simp] theorem forAll_memWf {α : Type} (f : α → State → State) (h : ∀ a s, memWf s.hmem = true → memWf (f a s).hmem = true) :
    ∀ l s, memWf s.hmem = true → memWf (forAll f l s).hmem = true
  | [], _, w => w
  | a :: l, s, w => forAll_memWf f h l _ (h a s w)

theorem kvSortedFrom_filter {α : Type} (p : Nat × α → Bool) : ∀ (l : List (Nat × α)) (b : Nat), kvSortedFrom b l = true →
    kvSortedFrom b (l.filter p) = true
  | [], _, _ => rfl
  | (j, v) :: r, b, h => by
    simp only [kvSortedFrom, Bool.and_eq_true, decide_eq_true_eq] at h
    have rest := kvSortedFrom_filter p r (j + 1) h.2
    rw [List.filter_cons]
    split
    · simp [kvSortedFrom, h.1, rest]
    · exact kvSortedFrom_le _ _ _ (by omega) rest

/-- Dropping entries keeps the canonical form. -/
theorem regsWf_filter (p : Nat × Word → Bool) {l : List (Nat × Word)} (h : regsWf l = true) : regsWf (l.filter p) = true := by
  rw [regsWf_iff] at *
  exact ⟨kvSortedFrom_filter p l 0 h.1, fun x hx => h.2 x (List.mem_of_mem_filter hx)⟩

/-- Storing words in turn keeps the canonical form. -/
theorem regsWf_stores {α : Type} (k : α → Nat) (w : α → Word) : ∀ (l : List α) {r : List (Nat × Word)}, regsWf r = true →
    regsWf (l.foldl (fun r a => regStore (k a) (w a) r) r) = true
  | [], _, h => h
  | _ :: l, _, h => regsWf_stores k w l (regStore_regsWf _ _ _ h)

theorem whenDo_regsWf {f : State → State} (c : Bool) (hf : ∀ s, regsWf s.regs = true → regsWf (f s).regs = true) (s) :
    regsWf s.regs = true → regsWf (whenDo c f s).regs = true := by
  cases c
  · exact id
  · exact hf s

theorem whenDo_memWf {f : State → State} (c : Bool) (hf : ∀ s, memWf s.hmem = true → memWf (f s).hmem = true) (s) :
    memWf s.hmem = true → memWf (whenDo c f s).hmem = true := by
  cases c
  · exact id
  · exact hf s

theorem oneCycle_regsWf {f g : State → State} (hf : ∀ s, regsWf s.regs = true → regsWf (f s).regs = true)
    (hg : ∀ s, regsWf s.regs = true → regsWf (g s).regs = true) (s) : regsWf s.regs = true → regsWf (oneCycle f g s).regs = true := by
  intro h
  unfold oneCycle
  dsimp only
  split
  · exact hg _ (hf _ h)
  · exact hg _ (hf _ h)
theorem oneCycle_memWf {f g : State → State} (hf : ∀ s, memWf s.hmem = true → memWf (f s).hmem = true)
    (hg : ∀ s, memWf s.hmem = true → memWf (g s).hmem = true) (s) : memWf s.hmem = true → memWf (oneCycle f g s).hmem = true := by
  intro h
  unfold oneCycle
  dsimp only
  split
  · exact hg _ (hf _ h)
  · exact hg _ (hf _ h)

@[simp] theorem setRg_canonical (off v s) :
    regsWf s.regs = true → regsWf (setRg off v s).regs = true :=
  regStore_regsWf _ _ _

@[simp] theorem setRgF_canonical (off hi lo v s) :
    regsWf s.regs = true → regsWf (setRgF off hi lo v s).regs = true := by
  intro h; simp [setRgF, h]

@[simp] theorem setRg64_canonical (off v s) :
    regsWf s.regs = true → regsWf (setRg64 off v s).regs = true := by
  intro h; simp [setRg64, h]

@[simp] theorem addRg_canonical (off n s) :
    regsWf s.regs = true → regsWf (addRg off n s).regs = true := by
  intro h; simp [addRg, h]

@[simp] theorem incRg_canonical (off s) :
    regsWf s.regs = true → regsWf (incRg off s).regs = true := by
  intro h; simp [incRg, h]

@[simp] theorem addRg64_canonical (off n s) :
    regsWf s.regs = true → regsWf (addRg64 off n s).regs = true := by
  intro h; simp [addRg64, h]

@[simp] theorem incRg64_canonical (off s) :
    regsWf s.regs = true → regsWf (incRg64 off s).regs = true := by
  intro h; simp [incRg64, h]

@[simp] theorem stickRg_canonical (off i s) :
    regsWf s.regs = true → regsWf (stickRg off i s).regs = true := by
  intro h; simp [stickRg, h]

@[simp] theorem pmuAdd_canonical (u k n s) :
    regsWf s.regs = true → regsWf (pmuAdd u k n s).regs = true := by
  unfold pmuAdd; split <;> simp +contextual [*]

@[simp] theorem pmuEv_canonical (u code sel sub n s) :
    regsWf s.regs = true → regsWf (pmuEv u code sel sub n s).regs = true := by
  grind [pmuEv, pmuAdd_canonical, whenDo, forAll_regsWf]

@[simp] theorem pmuIn_canonical (p code n s) :
    regsWf s.regs = true → regsWf (pmuIn p code n s).regs = true := by
  intro h; simp [pmuIn, h]

@[simp] theorem pmuOut_canonical (p q code n s) :
    regsWf s.regs = true → regsWf (pmuOut p q code n s).regs = true := by
  intro h; simp [pmuOut, h]

@[simp] theorem pmuPort1_canonical (p code n s) :
    regsWf s.regs = true → regsWf (pmuPort1 p code n s).regs = true := by
  intro h; simp [pmuPort1, h]

@[simp] theorem basinWords_canonical (n s) :
    regsWf s.regs = true → regsWf (basinWords n s).regs = true := by
  unfold basinWords; split <;> simp +contextual [*]

@[simp] theorem hbmBurst_canonical (pc cls write n s) :
    regsWf s.regs = true → regsWf (hbmBurst pc cls write n s).regs = true := by
  intro h; simp [hbmBurst, h]

@[simp] theorem hbmCorrected_canonical (pc n s) :
    regsWf s.regs = true → regsWf (hbmCorrected pc n s).regs = true := by
  intro h; simp [hbmCorrected, h]

@[simp] theorem hbmReadBack_canonical (pc cls n s) :
    regsWf s.regs = true → regsWf (hbmReadBack pc cls n s).regs = true := by
  unfold hbmReadBack; split <;> simp +contextual [*]

@[simp] theorem testTraffic_canonical (kind idx s) :
    regsWf s.regs = true → regsWf (testTraffic kind idx s).regs = true := by
  unfold testTraffic; dsimp only; (repeat' split) <;> simp +contextual [*]

@[simp] theorem pmuPass_canonical (e0 e1 s) :
    regsWf s.regs = true → regsWf (pmuPass e0 e1 s).regs = true := by
  simp +contextual [pmuPass]

@[simp] theorem passTo_canonical (t e s) :
    regsWf s.regs = true → regsWf (passTo t e s).regs = true := by
  intro h; simp [passTo, h]

@[simp] theorem passFor_canonical (e s) :
    regsWf s.regs = true → regsWf (passFor e s).regs = true := by
  unfold passFor; split <;> simp +contextual [*]

@[simp] theorem reach_canonical (t s) :
    regsWf s.regs = true → regsWf (reach t s).regs = true := by
  unfold reach; split <;> simp +contextual [*]

@[simp] theorem reachElapsed_canonical (e s) :
    regsWf s.regs = true → regsWf (reachElapsed e s).regs = true := by
  unfold reachElapsed; split <;> simp +contextual [*]

@[simp] theorem hostWrote_canonical (ws s) :
    memWf s.hmem = true → memWf (hostWrote ws s).hmem = true :=
  memApply_memWf _ _

@[simp] theorem dmaWrite_canonical (a bs s) :
    (regsWf s.regs = true → regsWf (dmaWrite a bs s).regs = true) ∧
    (memWf s.hmem = true → memWf (dmaWrite a bs s).hmem = true) := by
  simp +contextual [dmaWrite, memWrite_memWf]

@[simp] theorem emit_canonical (cls typ src body s) :
    regsWf s.regs = true → regsWf (emit cls typ src body s).regs = true := by
  unfold emit; dsimp only; (repeat' split) <;> simp +contextual [*]

@[simp] theorem breach_canonical (i s) :
    regsWf s.regs = true → regsWf (breach i s).regs = true := by
  unfold breach; split <;> simp +contextual [*]

@[simp] theorem emitFault_canonical (typ code island detail s) :
    regsWf s.regs = true → regsWf (emitFault typ code island detail s).regs = true := by
  intro h; simp [emitFault, h]

@[simp] theorem alarm_canonical (code island detail s) :
    regsWf s.regs = true → regsWf (alarm code island detail s).regs = true := by
  intro h; simp [alarm, h]

@[simp] theorem emitMode_canonical (old new fenced cmd fault t s) :
    regsWf s.regs = true → regsWf (emitMode old new fenced cmd fault t s).regs = true := by
  intro h; simp [emitMode, h]

@[simp] theorem emitProtect_canonical (typ off party item s) :
    regsWf s.regs = true → regsWf (emitProtect typ off party item s).regs = true := by
  unfold emitProtect; split <;> simp +contextual [*]

@[simp] theorem violation_canonical (off party s) :
    regsWf s.regs = true → regsWf (violation off party s).regs = true := by
  intro h; simp [violation, h]

@[simp] theorem emitLink_canonical (typ port lanes width s) :
    regsWf s.regs = true → regsWf (emitLink typ port lanes width s).regs = true := by
  intro h; simp [emitLink, h]

@[simp] theorem emitBuffer_canonical (typ req ptr holder ageCells queue s) :
    regsWf s.regs = true → regsWf (emitBuffer typ req ptr holder ageCells queue s).regs = true := by
  intro h; simp [emitBuffer, h]

@[simp] theorem emitBucket_canonical (set bucket group old new drainNs s) :
    regsWf s.regs = true → regsWf (emitBucket set bucket group old new drainNs s).regs = true := by
  intro h; simp [emitBucket, h]

@[simp] theorem emitService_canonical (typ island kind idx old new off s) :
    regsWf s.regs = true → regsWf (emitService typ island kind idx old new off s).regs = true := by
  intro h; simp [emitService, h]

@[simp] theorem emitParity_canonical (typ island table idx s) :
    regsWf s.regs = true → regsWf (emitParity typ island table idx s).regs = true := by
  intro h; simp [emitParity, h]

@[simp] theorem emitRecorder_canonical (typ island seg trig s) :
    regsWf s.regs = true → regsWf (emitRecorder typ island seg trig s).regs = true := by
  intro h; simp [emitRecorder, h]

@[simp] theorem emitCommit_canonical (typ gen status s) :
    regsWf s.regs = true → regsWf (emitCommit typ gen status s).regs = true := by
  intro h; simp [emitCommit, h]

@[simp] theorem refuseService_canonical (k i off s) :
    regsWf s.regs = true → regsWf (refuseService k i off s).regs = true := by
  intro h; simp [refuseService, h]

@[simp] theorem countMac_canonical (p n k s) :
    regsWf s.regs = true → regsWf (countMac p n k s).regs = true := by
  intro h; simp [countMac, h]

@[simp] theorem countSent_canonical (p bs s) :
    regsWf s.regs = true → regsWf (countSent p bs s).regs = true := by
  grind [countSent, countMac_canonical]

@[simp] theorem countEmpty_canonical (s) :
    regsWf s.regs = true → regsWf (countEmpty s).regs = true := by
  grind [countEmpty, pmuEv_canonical, stickRg_canonical, incRg_canonical]

@[simp] theorem limitedEvent_canonical (typ req ptr holder s) :
    regsWf s.regs = true → regsWf (limitedEvent typ req ptr holder s).regs = true := by
  unfold limitedEvent; dsimp only; (repeat' split) <;> simp +contextual [*]

@[simp] theorem recSealOpen_canonical (cause s) :
    regsWf s.regs = true → regsWf (recSealOpen cause s).regs = true := by
  unfold recSealOpen; split <;> simp +contextual [*]

@[simp] theorem recRotateKey_canonical (s) :
    regsWf s.regs = true → regsWf (recRotateKey s).regs = true := by
  unfold recRotateKey; dsimp only; (repeat' split) <;> simp +contextual [*]

@[simp] theorem sealOrLose_canonical (lost cause s) :
    regsWf s.regs = true → regsWf (sealOrLose lost cause s).regs = true := by
  unfold sealOrLose; split <;> simp +contextual [*]

@[simp] theorem makeRegion_canonical (lost code detail t s) :
    regsWf s.regs = true → regsWf (makeRegion lost code detail t s).regs = true := by
  unfold makeRegion; dsimp only; (repeat' split) <;> simp +contextual [*]

@[simp] theorem recTriggerBy_canonical (lost code detail t s) :
    regsWf s.regs = true → regsWf (recTriggerBy lost code detail t s).regs = true := by
  grind [recTriggerBy, emitRecorder_canonical, incRg_canonical, sealOrLose_canonical, makeRegion_canonical, whenDo]

@[simp] theorem recTrigger_canonical (code detail t s) :
    regsWf s.regs = true → regsWf (recTrigger code detail t s).regs = true := by
  intro h; simp [recTrigger, h]

@[simp] theorem recFault_canonical (code island s) :
    regsWf s.regs = true → regsWf (recFault code island s).regs = true := by
  intro h; simp [recFault, h]

@[simp] theorem recPortDown_canonical (p s) :
    regsWf s.regs = true → regsWf (recPortDown p s).regs = true := by
  intro h; simp [recPortDown, h]

@[simp] theorem recCapture_canonical (u t s) :
    regsWf s.regs = true → regsWf (recCapture u t s).regs = true := by
  intro h; simp [recCapture, h]

@[simp] theorem recFate_canonical (set fate s) :
    regsWf s.regs = true → regsWf (recFate set fate s).regs = true := by
  unfold recFate; dsimp only; (repeat' split) <;> simp +contextual [*]

@[simp] theorem recAppend_canonical (kind cells b s) :
    regsWf s.regs = true → regsWf (recAppend kind cells b s).regs = true := by
  intro h; simp [recAppend, h]

@[simp] theorem recMarker_canonical (g k edge s) :
    regsWf s.regs = true → regsWf (recMarker g k edge s).regs = true := by
  unfold recMarker; dsimp only; (repeat' split) <;> simp +contextual [*]

@[simp] theorem recPlace_canonical (bs s) :
    regsWf s.regs = true → regsWf (recPlace bs s).regs = true := by
  grind [recPlace, recSealOpen_canonical, incRg64_canonical, modRec_keeps, whenDo]

@[simp] theorem recLoss_canonical (s) :
    regsWf s.regs = true → regsWf (recLoss s).regs = true := by
  unfold recLoss; split <;> simp +contextual [*]

@[simp] theorem recWriteOldest_canonical (s) :
    regsWf s.regs = true → regsWf (recWriteOldest s).regs = true := by
  grind [recWriteOldest, recPlace_canonical, recLoss_canonical, judgePressure_keeps, modRec_keeps, incRg_canonical, whenDo]

@[simp] theorem timeFault_canonical (i code detail s) :
    regsWf s.regs = true → regsWf (timeFault i code detail s).regs = true := by
  grind [timeFault, alarm_canonical, breach_canonical, stickRg_canonical]

@[simp] theorem storeStamp_canonical (p seq t words3 s) :
    regsWf s.regs = true → regsWf (storeStamp p seq t words3 s).regs = true := by
  grind [storeStamp, incRg_canonical, setTxStamps_keeps, emit_canonical, whenDo]

@[simp] theorem captureNow_canonical (u t active bad s) :
    regsWf s.regs = true → regsWf (captureNow u t active bad s).regs = true := by
  grind [captureNow, setCap_keeps, incRg_canonical, emit_canonical, recCapture_canonical, whenDo]

@[simp] theorem captureJudge_canonical (u t st active s) :
    regsWf s.regs = true → regsWf (captureJudge u t st active s).regs = true := by
  unfold captureJudge; dsimp only; (repeat' split) <;> simp +contextual [*]

@[simp] theorem sendMsi_canonical (vec s) :
    regsWf s.regs = true → regsWf (sendMsi vec s).regs = true := by
  unfold sendMsi; dsimp only; (repeat' split) <;> simp +contextual [*]

@[simp] theorem ringMsg_canonical (k n s) :
    regsWf s.regs = true → regsWf (ringMsg k n s).regs = true := by
  intro h; simp [ringMsg, h]

@[simp] theorem ringMsgIfDue_canonical (k n s) :
    regsWf s.regs = true → regsWf (ringMsgIfDue k n s).regs = true := by
  unfold ringMsgIfDue; split <;> simp +contextual [*]

@[simp] theorem countWriteBack_canonical (k n s) :
    regsWf s.regs = true → regsWf (countWriteBack k n s).regs = true := by
  unfold countWriteBack; dsimp only; (repeat' split) <;> simp +contextual [*]

@[simp] theorem writeBack_canonical (k n slot bs s) :
    (regsWf s.regs = true → regsWf (writeBack k n slot bs s).regs = true) ∧
    (memWf s.hmem = true → memWf (writeBack k n slot bs s).hmem = true) := by
  grind [writeBack, pmuEv_canonical, pmuEv_keeps, countWriteBack_canonical, countWriteBack_keeps, incRg64_canonical, incRg64_keeps, setRing_keeps, dmaWrite_canonical]

@[simp] theorem writeBacks_canonical (k n) : ∀ ws s, (regsWf s.regs = true → regsWf (writeBacks k n ws s).regs = true) ∧
    (memWf s.hmem = true → memWf (writeBacks k n ws s).hmem = true)
  | [], s => by simp [writeBacks]
  | w :: ws, s => by
    have rest := writeBacks_canonical k n ws
    unfold writeBacks
    split
    · simp
    · simp +contextual [rest]

@[simp] theorem drainWork_canonical (k n s) :
    (regsWf s.regs = true → regsWf (drainWork k n s).regs = true) ∧
    (memWf s.hmem = true → memWf (drainWork k n s).hmem = true) := by
  simp +contextual [drainWork]

@[simp] theorem fillSlots_canonical (k n slots bs s) :
    (regsWf s.regs = true → regsWf (fillSlots k n slots bs s).regs = true) ∧
    (memWf s.hmem = true → memWf (fillSlots k n slots bs s).hmem = true) := by
  simp +contextual [fillSlots]

@[simp] theorem answerUnknown_canonical (n) : ∀ m s, (regsWf s.regs = true → regsWf (answerUnknown n m s).regs = true) ∧
    (memWf s.hmem = true → memWf (answerUnknown n m s).hmem = true)
  | 0, s => ⟨id, id⟩
  | m + 1, s => by
    have rest := answerUnknown_canonical n m
    unfold answerUnknown
    dsimp only
    split
    · exact ⟨fun h => (rest _).1 (by simp [h]), fun h => (rest _).2 (by simp [h])⟩
    · exact ⟨id, id⟩

@[simp] theorem doorbellTail_canonical (k n idx s) :
    (regsWf s.regs = true → regsWf (doorbellTail k n idx s).regs = true) ∧
    (memWf s.hmem = true → memWf (doorbellTail k n idx s).hmem = true) := by
  grind [doorbellTail, incRg_canonical, incRg_keeps, answerUnknown_canonical, pmuEv_canonical, pmuEv_keeps, setRing_keeps, emit_canonical, emit_keeps, stickRg_canonical, stickRg_keeps, whenDo]

@[simp] theorem ringArm_canonical (k n seen armBit s) :
    regsWf s.regs = true → regsWf (ringArm k n seen armBit s).regs = true := by
  unfold ringArm; dsimp only; (repeat' split) <;> simp +contextual [*]

@[simp] theorem ringEnable_canonical (k n v s) : regsWf s.regs = true → regsWf (ringEnable k n v s).regs = true := by
  intro h
  simp only [ringEnable]
  split <;> simp [h]

@[simp] theorem ringStop_canonical (k n fetched s) :
    (regsWf s.regs = true → regsWf (ringStop k n fetched s).regs = true) ∧
    (memWf s.hmem = true → memWf (ringStop k n fetched s).hmem = true) := by
  unfold ringStop; dsimp only; (repeat' split) <;> simp +contextual [*]

@[simp] theorem loseEvent_canonical (n s) :
    regsWf s.regs = true → regsWf (loseEvent n s).regs = true := by
  intro h; simp [loseEvent, h]

@[simp] theorem dmaStop_canonical (k n fetched s) :
    (regsWf s.regs = true → regsWf (dmaStop k n fetched s).regs = true) ∧
    (memWf s.hmem = true → memWf (dmaStop k n fetched s).hmem = true) := by
  grind [dmaStop, stickRg_canonical, stickRg_keeps, ringStop_canonical, incRg_canonical, incRg_keeps, loseEvent_canonical, loseEvent_keeps, emit_canonical, emit_keeps]

@[simp] theorem failFetch_canonical (k n s) :
    (regsWf s.regs = true → regsWf (failFetch k n s).regs = true) ∧
    (memWf s.hmem = true → memWf (failFetch k n s).hmem = true) := by
  unfold failFetch; dsimp only; (repeat' split) <;> simp +contextual [*]

@[simp] theorem failReadout_canonical (i s) :
    (regsWf s.regs = true → regsWf (failReadout i s).regs = true) ∧
    (memWf s.hmem = true → memWf (failReadout i s).hmem = true) := by
  unfold failReadout; split <;> simp +contextual [*]

@[simp] theorem failTransmit_canonical (n fetched i s) :
    (regsWf s.regs = true → regsWf (failTransmit n fetched i s).regs = true) ∧
    (memWf s.hmem = true → memWf (failTransmit n fetched i s).hmem = true) := by
  grind [failTransmit, drainWork_canonical, fetchSlots_keeps, failFetch_canonical, whenDo]

@[simp] theorem ringsReset_canonical (s) : regsWf s.regs = true → regsWf (ringsReset s).regs = true := regsWf_filter _

@[simp] theorem countFlr_canonical (pf1 s) :
    regsWf s.regs = true → regsWf (countFlr pf1 s).regs = true := by
  unfold countFlr; split <;> simp +contextual [*]

@[simp] theorem schCount_canonical (p q k n s) :
    regsWf s.regs = true → regsWf (schCount p q k n s).regs = true := by
  intro h; simp [schCount, h]

@[simp] theorem complete_canonical (x fate s) :
    (regsWf s.regs = true → regsWf (complete x fate s).regs = true) ∧
    (memWf s.hmem = true → memWf (complete x fate s).hmem = true) := by
  unfold complete; dsimp only; (repeat' split) <;> simp +contextual [*]

@[simp] theorem settle_canonical (f fate s) :
    (regsWf s.regs = true → regsWf (settle f fate s).regs = true) ∧
    (memWf s.hmem = true → memWf (settle f fate s).hmem = true) := by
  grind [settle, setFrame_keeps, recFate_canonical, recFate_keeps, breach_canonical, breach_keeps, complete_canonical, whenDo]

@[simp] theorem dropFrame_canonical (f s) :
    regsWf s.regs = true → regsWf (dropFrame f s).regs = true := by
  unfold dropFrame; dsimp only; (repeat' split) <;> simp +contextual [*]

@[simp] theorem clearHolder_canonical (f p s) :
    regsWf s.regs = true → regsWf (clearHolder f p s).regs = true := by
  unfold clearHolder; dsimp only; (repeat' split) <;> simp +contextual [*]

@[simp] theorem rejectFree_canonical (typ counter ptr holder req s) :
    regsWf s.regs = true → regsWf (rejectFree typ counter ptr holder req s).regs = true := by
  intro h; simp [rejectFree, h]

@[simp] theorem presentFree_canonical (ptr holder req s) :
    regsWf s.regs = true → regsWf (presentFree ptr holder req s).regs = true := by
  grind [presentFree, rejectFree_canonical, dropFrame_canonical, clearHolder_canonical]

@[simp] theorem freeHolder_canonical (f p s) :
    regsWf s.regs = true → regsWf (freeHolder f p s).regs = true := by
  grind [freeHolder, clearHolder_canonical, rejectFree_canonical, presentFree_canonical]

@[simp] theorem discardFrame_canonical (f fate s) :
    (regsWf s.regs = true → regsWf (discardFrame f fate s).regs = true) ∧
    (memWf s.hmem = true → memWf (discardFrame f fate s).hmem = true) := by
  simp +contextual [discardFrame]

@[simp] theorem finishCopy_canonical (c how s) :
    (regsWf s.regs = true → regsWf (finishCopy c how s).regs = true) ∧
    (memWf s.hmem = true → memWf (finishCopy c how s).hmem = true) := by
  unfold finishCopy; dsimp only; (repeat' split) <;> simp +contextual [*]

@[simp] theorem countOther_canonical (s) :
    regsWf s.regs = true → regsWf (countOther s).regs = true := by
  grind [countOther, schCount_canonical, forAll_regsWf]

@[simp] theorem fenceFrame_canonical (sending f s) :
    (regsWf s.regs = true → regsWf (fenceFrame sending f s).regs = true) ∧
    (memWf s.hmem = true → memWf (fenceFrame sending f s).hmem = true) := by
  unfold fenceFrame; dsimp only; (repeat' split) <;> simp +contextual [*]

@[simp] theorem fenceFrames_canonical (s) :
    (regsWf s.regs = true → regsWf (fenceFrames s).regs = true) ∧
    (memWf s.hmem = true → memWf (fenceFrames s).hmem = true) := by
  simp +contextual [fenceFrames]

@[simp] theorem discardCopy_canonical (c reason s) :
    (regsWf s.regs = true → regsWf (discardCopy c reason s).regs = true) ∧
    (memWf s.hmem = true → memWf (discardCopy c reason s).hmem = true) := by
  grind [discardCopy, removeCopy_keeps, finishCopy_canonical, pmuOut_canonical, pmuOut_keeps, schCount_canonical, schCount_keeps, whenDo]

@[simp] theorem flushPort_canonical (p reason s) :
    (regsWf s.regs = true → regsWf (flushPort p reason s).regs = true) ∧
    (memWf s.hmem = true → memWf (flushPort p reason s).hmem = true) := by
  simp +contextual [flushPort]

@[simp] theorem countTimed_canonical (p c s) :
    regsWf s.regs = true → regsWf (countTimed p c s).regs = true := by
  grind [countTimed, pmuOut_canonical, schCount_canonical, whenDo]

@[simp] theorem endSend_canonical (p c t s) :
    regsWf s.regs = true → regsWf (endSend p c t s).regs = true := by
  grind [endSend, pmuWindow_keeps, pmuOut_canonical, countTimed_canonical, schCount_canonical]

@[simp] theorem cutOne_canonical (p eef held x s) :
    regsWf s.regs = true → regsWf (cutOne p eef held x s).regs = true := by
  grind [cutOne, countMac_canonical, sentOn_keeps, whenDo]

@[simp] theorem cutCopy_canonical (p eef held x c s) : (regsWf s.regs = true → regsWf (cutCopy p eef held x c s).regs = true) ∧
    (memWf s.hmem = true → memWf (cutCopy p eef held x c s).hmem = true) := by
  unfold cutCopy
  split
  · have cut (h : regsWf s.regs = true) (y) : regsWf (cutOne p eef held y s).regs = true := cutOne_canonical _ _ _ _ _ h
    dsimp only
    split
    · simp +contextual [cut]
    · exact ⟨fun h => (finishCopy_canonical _ _ _).1 (endSend_canonical _ _ _ _ (cut h _)),
        fun h => (finishCopy_canonical _ _ _).2 (by simpa using h)⟩
  · exact ⟨id, id⟩

@[simp] theorem cutTransmit_canonical (p eef s) :
    (regsWf s.regs = true → regsWf (cutTransmit p eef s).regs = true) ∧
    (memWf s.hmem = true → memWf (cutTransmit p eef s).hmem = true) := by
  unfold cutTransmit; dsimp only; (repeat' split) <;> simp +contextual [*]

@[simp] theorem moveBucket_canonical (set group b s) :
    regsWf s.regs = true → regsWf (moveBucket set group b s).regs = true := by
  unfold moveBucket; dsimp only; (repeat' split) <;> simp +contextual [*]

@[simp] theorem portUp_canonical (p s) :
    regsWf s.regs = true → regsWf (portUp p s).regs = true := by
  grind [portUp, noteHops_keeps, setSched_keeps, modPort_keeps, stickRg_canonical, emitLink_canonical, startVerify_keeps, portPauseAll_keeps, resendXoff_keeps, whenDo]

@[simp] theorem flushDown_canonical (p s) :
    (regsWf s.regs = true → regsWf (flushDown p s).regs = true) ∧
    (memWf s.hmem = true → memWf (flushDown p s).hmem = true) := by
  unfold flushDown; split <;> simp +contextual [*]

@[simp] theorem downQueues_canonical (p c s) : (regsWf s.regs = true → regsWf (downQueues p c s).regs = true) ∧
    (memWf s.hmem = true → memWf (downQueues p c s).hmem = true) := by
  cases c with
  | admin => exact flushPort_canonical _ _ _
  | link => unfold downQueues; dsimp only; split <;> simp +contextual

@[simp] theorem portFalls_canonical (p c s) :
    (regsWf s.regs = true → regsWf (portFalls p c s).regs = true) ∧
    (memWf s.hmem = true → memWf (portFalls p c s).hmem = true) := by
  grind [portFalls, cutTransmit_canonical, modPort_keeps, incRg_canonical, incRg_keeps, stickRg_canonical, stickRg_keeps, emitLink_canonical, emitLink_keeps, downQueues_canonical, noteHops_keeps]

@[simp] theorem portDown_canonical (p c s) : (regsWf s.regs = true → regsWf (portDown p c s).regs = true) ∧
    (memWf s.hmem = true → memWf (portDown p c s).hmem = true) := by
  unfold portDown
  split
  · exact ⟨oneCycle_regsWf (recPortDown_canonical p) (fun u => (portFalls_canonical p c u).1) s,
      oneCycle_memWf (fun u => by simp) (fun u => (portFalls_canonical p c u).2) s⟩
  · exact ⟨id, id⟩

@[simp] theorem linkEval_canonical (p s0) :
    (regsWf s0.regs = true → regsWf (linkEval p s0).regs = true) ∧
    (memWf s0.hmem = true → memWf (linkEval p s0).hmem = true) := by
  unfold linkEval; dsimp only; (repeat' split) <;> simp +contextual [*]

@[simp] theorem quadEval_canonical (q s) : (regsWf s.regs = true → regsWf (quadEval q s).regs = true) ∧
    (memWf s.hmem = true → memWf (quadEval q s).hmem = true) := 
  ⟨forAll_regsWf _ (fun _ _ => (linkEval_canonical _ _).1) _ s, forAll_memWf _ (fun _ _ => (linkEval_canonical _ _).2) _ s⟩

@[simp] theorem linksEval_canonical (s) : (regsWf s.regs = true → regsWf (linksEval s).regs = true) ∧
    (memWf s.hmem = true → memWf (linksEval s).hmem = true) := 
  ⟨forAll_regsWf _ (fun _ _ => (quadEval_canonical _ _).1) _ s, forAll_memWf _ (fun _ _ => (quadEval_canonical _ _).2) _ s⟩

@[simp] theorem linksDown_canonical (s) :
    (regsWf s.regs = true → regsWf (linksDown s).regs = true) ∧
    (memWf s.hmem = true → memWf (linksDown s).hmem = true) := by
  simp +contextual [linksDown]

@[simp] theorem ptpSkip_canonical (p s) :
    regsWf s.regs = true → regsWf (ptpSkip p s).regs = true := by
  intro h; simp [ptpSkip, h]

@[simp] theorem stampCopy_canonical (c p t updated s) :
    regsWf s.regs = true → regsWf (stampCopy c p t updated s).regs = true := by
  unfold stampCopy; dsimp only; (repeat' split) <;> simp +contextual [*]

@[simp] theorem memSeen_canonical (mem idx s) :
    regsWf s.regs = true → regsWf (memSeen mem idx s).regs = true := by
  unfold memSeen; split <;> simp +contextual [*]

@[simp] theorem parityFound_canonical (mem idx sl s) :
    regsWf s.regs = true → regsWf (parityFound mem idx sl s).regs = true := by
  grind [parityFound, emitParity_canonical, memSeen_canonical, incRg_canonical]

@[simp] theorem wipeSecrets_canonical (erase s0) :
    regsWf s0.regs = true → regsWf (wipeSecrets erase s0).regs = true := by
  simp +contextual [wipeSecrets]

@[simp] theorem zeroise_canonical (cause erase mramOk s) :
    regsWf s.regs = true → regsWf (zeroise cause erase mramOk s).regs = true := by
  grind [zeroise, wipeSecrets_canonical, recDropKey_keeps, recSealOpen_canonical, recordZeroisation_keeps, emit_canonical, wEvent_keeps, whenDo]

@[simp] theorem discardPending_canonical (result party s) :
    regsWf s.regs = true → regsWf (discardPending result party s).regs = true := by
  unfold discardPending; split <;> simp +contextual [*]

@[simp] theorem expirePending_canonical (s) :
    regsWf s.regs = true → regsWf (expirePending s).regs = true := by
  grind [expirePending, discardPending_canonical]

@[simp] theorem applyItem_canonical (item vals m s) : regsWf s.regs = true → regsWf (applyItem item vals m s).regs = true := by
  intro h
  unfold applyItem
  split
  case h_2 => exact forAll_regsWf _ (fun _ _ => setRg_canonical _ _ _) _ _ h
  case h_3 => exact setRg_canonical _ _ _ h
  case h_4 => exact setRg_canonical _ _ _ h
  case h_5 => exact whenDo_regsWf _ (fun u hu => by simpa using hu) _ (zeroise_canonical _ _ _ _ h)
  case h_6 => exact whenDo_regsWf _ recRotateKey_canonical _ h
  all_goals exact h

@[simp] theorem stageChange_canonical (item count s) :
    regsWf s.regs = true → regsWf (stageChange item count s).regs = true := by
  unfold stageChange; split <;> simp +contextual [*]

@[simp] theorem confirmChange_canonical (p mramOk s) :
    regsWf s.regs = true → regsWf (confirmChange p mramOk s).regs = true := by
  grind [confirmChange, applyItem_canonical, setResult_keeps, emitProtect_canonical, dropPending_keeps, discardPending_canonical, incRg_canonical]

@[simp] theorem setMode_canonical (new cmd fault t s) :
    regsWf s.regs = true → regsWf (setMode new cmd fault t s).regs = true := by
  intro h; simp [setMode, h]

@[simp] theorem beginWake_canonical (st s) :
    regsWf s.regs = true → regsWf (beginWake st s).regs = true := by
  intro h; simp [beginWake, h]

@[simp] theorem enterFenced_canonical (code s) :
    regsWf s.regs = true → regsWf (enterFenced code s).regs = true := by
  unfold enterFenced; split <;> simp +contextual [*]

@[simp] theorem assertFault_canonical (code island detail s) :
    regsWf s.regs = true → regsWf (assertFault code island detail s).regs = true := by
  intro h; simp [assertFault, h]

@[simp] theorem noteFault_canonical (f s) :
    regsWf s.regs = true → regsWf (noteFault f s).regs = true := by
  intro h; simp [noteFault, h]

@[simp] theorem fatal_canonical (code island detail s) :
    (regsWf s.regs = true → regsWf (fatal code island detail s).regs = true) ∧
    (memWf s.hmem = true → memWf (fatal code island detail s).hmem = true) := by
  grind [fatal, noteFault_canonical, noteFault_keeps, healthFail_keeps, fencingFault_keeps, failIsland_keeps, recFault_canonical, recFault_keeps, assertFault_canonical, assertFault_keeps, fenceFrames_canonical]

@[simp] theorem cellError_canonical (ecc f s) :
    (regsWf s.regs = true → regsWf (cellError ecc f s).regs = true) ∧
    (memWf s.hmem = true → memWf (cellError ecc f s).hmem = true) := by
  unfold cellError; split <;> simp +contextual [*]

@[simp] theorem wakeEndsFenced_canonical (code island detail mramOk s) :
    (regsWf s.regs = true → regsWf (wakeEndsFenced code island detail mramOk s).regs = true) ∧
    (memWf s.hmem = true → memWf (wakeEndsFenced code island detail mramOk s).hmem = true) := by
  grind [wakeEndsFenced, fillWakeInfo_keeps, linksEval_canonical, enterFenced_canonical, enterFenced_keeps, assertFault_canonical, assertFault_keeps]

@[simp] theorem wakeFault_canonical (code island mramOk s) :
    (regsWf s.regs = true → regsWf (wakeFault code island mramOk s).regs = true) ∧
    (memWf s.hmem = true → memWf (wakeFault code island mramOk s).hmem = true) := by
  simp +contextual [wakeFault]

@[simp] theorem enterPark_canonical (mramOk s) :
    (regsWf s.regs = true → regsWf (enterPark mramOk s).regs = true) ∧
    (memWf s.hmem = true → memWf (enterPark mramOk s).hmem = true) := by
  grind [enterPark, zeroise_canonical, zeroise_keeps, linksDown_canonical, takeSnapshot_keeps, healthBegin_keeps, setMode_canonical, setMode_keeps]

@[simp] theorem readBuf_canonical (f a s) : regsWf s.regs = true → regsWf (readBuf f a s).2.regs = true := by
  intro h
  unfold readBuf
  split
  · exact h
  · split
    · exact pmuEv_canonical _ _ _ _ _ _ h
    · exact h
  · exact h

@[simp] theorem tcmdAnswer_canonical (bs s) :
    regsWf s.regs = true → regsWf (tcmdAnswer bs s).regs = true := by
  simp +contextual [tcmdAnswer]

@[simp] theorem answerCmd_canonical (w status result s) :
    (regsWf s.regs = true → regsWf (answerCmd w status result s).regs = true) ∧
    (memWf s.hmem = true → memWf (answerCmd w status result s).hmem = true) := by
  unfold answerCmd; dsimp only; (repeat' split) <;> simp +contextual [*]

@[simp] theorem bufStop_canonical (w s) :
    (regsWf s.regs = true → regsWf (bufStop w s).regs = true) ∧
    (memWf s.hmem = true → memWf (bufStop w s).hmem = true) := by
  unfold bufStop; split <;> simp +contextual [*]

@[simp] theorem tcamBadFound_canonical (i s) :
    regsWf s.regs = true → regsWf (tcamBadFound i s).regs = true := by
  grind [tcamBadFound, emitParity_canonical, stickRg_canonical, incRg_canonical]

@[simp] theorem hashWrite_canonical (seed v s) :
    regsWf s.regs = true → regsWf (hashWrite seed v s).regs = true := by
  grind [hashWrite, setRg_canonical, stickRg_canonical]

@[simp] theorem bankWrite_canonical (sl b v s) :
    regsWf s.regs = true → regsWf (bankWrite sl b v s).regs = true := by
  unfold bankWrite; dsimp only; (repeat' split) <;> simp +contextual [*]

@[simp] theorem emitLearn_canonical (typ mac fid index port det par old s) :
    regsWf s.regs = true → regsWf (emitLearn typ mac fid index port det par old s).regs = true := by
  intro h; simp [emitLearn, h]

@[simp] theorem learnFull_canonical (r s) :
    regsWf s.regs = true → regsWf (learnFull r s).regs = true := by
  grind [learnFull, stickRg_canonical, incRg_canonical, emitLearn_canonical]

@[simp] theorem learnDone_canonical (r moved i s) : regsWf s.regs = true → regsWf (learnDone r moved i s).regs = true := by
  intro h
  have counted (off) : regsWf (incRg64 off s).regs = true := incRg64_canonical _ _ h
  cases moved with
  | none => unfold learnDone; simp [counted]
  | some old => unfold learnDone; simp [counted]

theorem fdbPlace_regs {mac fid i n s t} (placed : fdbPlace mac fid s = some (i, n, t)) : t.regs = s.regs := by
  have kept := fdbPlace_keeps _ _ _ _ placed
  simp_all

theorem stageEntry_regs {e i n s t} (staged : stageEntry e s = some (i, n, t)) : t.regs = s.regs := by
  have kept := stageEntry_keeps _ _ _ staged
  simp_all

@[simp] theorem learnOrdinaryMode_canonical (r s) : regsWf s.regs = true → regsWf (learnOrdinaryMode r s).regs = true := by
  intro h
  simp only [learnOrdinaryMode]
  split
  · exact h
  · split
    · simp [h]
    · split
      · simp [h]
      · split
        · simp [h]
        · next placed => exact learnDone_canonical _ _ _ _ (by simp [fdbPlace_regs placed, h])

@[simp] theorem learnDeterministic_canonical (r s) : regsWf s.regs = true → regsWf (learnDeterministic r s).regs = true := by
  intro h
  unfold learnDeterministic
  split
  · split
    · exact h
    · split
      · simp [h]
      · split
        · exact learnFull_canonical _ _ h
        · next staged => exact learnDone_canonical _ _ _ _ (by simp [stageEntry_regs staged, h])
  · split
    · exact learnFull_canonical _ _ h
    · next staged => exact learnDone_canonical _ _ _ _ (by simp [stageEntry_regs staged, h])

@[simp] theorem takeLearn_canonical (s) :
    regsWf s.regs = true → regsWf (takeLearn s).regs = true := by
  unfold takeLearn; dsimp only; (repeat' split) <;> simp +contextual [*]

@[simp] theorem askLearn_canonical (r s) :
    regsWf s.regs = true → regsWf (askLearn r s).regs = true := by
  unfold askLearn; split <;> simp +contextual [*]

@[simp] theorem ageVisit_canonical (i e hit s) :
    regsWf s.regs = true → regsWf (ageVisit i e hit s).regs = true := by
  grind [ageVisit, setFdb_keeps, emitLearn_canonical, incRg64_canonical, removeByMode_keeps, whenDo]

@[simp] theorem seedWrite_canonical (h v s) :
    regsWf s.regs = true → regsWf (seedWrite h v s).regs = true := by
  unfold seedWrite; split <;> simp +contextual [*]

@[simp] theorem tsDetect_canonical (p s) : (regsWf s.regs = true → regsWf (tsDetect p s).regs = true) ∧
    (memWf s.hmem = true → memWf (tsDetect p s).hmem = true) := by
  unfold tsDetect
  simp +contextual

@[simp] theorem tsRetrain_canonical (p s) :
    regsWf s.regs = true → regsWf (tsRetrain p s).regs = true := by
  grind [tsRetrain, incRg_canonical, modTs_keeps]

@[simp] theorem tsFail_canonical (p failed s) :
    (regsWf s.regs = true → regsWf (tsFail p failed s).regs = true) ∧
    (memWf s.hmem = true → memWf (tsFail p failed s).hmem = true) := by
  grind [tsFail, emitLink_canonical, emitLink_keeps, tsDetect_canonical, cutTransmit_canonical, tsRetrain_canonical, tsRetrain_keeps]

@[simp] theorem tsJudge_canonical (p s) :
    (regsWf s.regs = true → regsWf (tsJudge p s).regs = true) ∧
    (memWf s.hmem = true → memWf (tsJudge p s).hmem = true) := by
  grind [tsJudge, tsFail_canonical, stickRg_canonical, stickRg_keeps, whenDo]

@[simp] theorem codeErrors_canonical (ln n s) :
    regsWf s.regs = true → regsWf (codeErrors ln n s).regs = true := by
  unfold codeErrors; split <;> simp +contextual [*]

@[simp] theorem tsLaneLost_canonical (p _ln s) :
    (regsWf s.regs = true → regsWf (tsLaneLost p _ln s).regs = true) ∧
    (memWf s.hmem = true → memWf (tsLaneLost p _ln s).hmem = true) := by
  simp +contextual [tsLaneLost]

@[simp] theorem tsQuadDown_canonical (q s) : (regsWf s.regs = true → regsWf (tsQuadDown q s).regs = true) ∧
    (memWf s.hmem = true → memWf (tsQuadDown q s).hmem = true) :=
  ⟨forAll_regsWf _ (fun _ _ => whenDo_regsWf _ (fun _ => (tsDetect_canonical _ _).1) _) _ s,
    forAll_memWf _ (fun _ _ => whenDo_memWf _ (fun _ => (tsDetect_canonical _ _).2) _) _ s⟩

@[simp] theorem tsMaybeActive_canonical (p s) :
    (regsWf s.regs = true → regsWf (tsMaybeActive p s).regs = true) ∧
    (memWf s.hmem = true → memWf (tsMaybeActive p s).hmem = true) := by
  grind [tsMaybeActive, setTs_keeps, linkEval_canonical, tsClocks_keeps, tsFresh_keeps, tsRetrain_canonical, tsRetrain_keeps, whenDo]

@[simp] theorem tsRetrained_canonical (p w s) :
    regsWf s.regs = true → regsWf (tsRetrained p w s).regs = true := by
  grind [tsRetrained, emitLink_canonical, tsFresh_keeps, modTs_keeps, stickRg_canonical, whenDo]

@[simp] theorem tsDsk_canonical (p d bs s) :
    (regsWf s.regs = true → regsWf (tsDsk p d bs s).regs = true) ∧
    (memWf s.hmem = true → memWf (tsDsk p d bs s).hmem = true) := by
  grind [tsDsk, modTs_keeps, tsLearn_keeps, tsConfig_keeps, tsMaybeActive_canonical, tsRetrain_canonical, tsRetrain_keeps, tsRetrained_canonical, tsRetrained_keeps, whenDo]

@[simp] theorem tsCrd_canonical (p bs s) :
    (regsWf s.regs = true → regsWf (tsCrd p bs s).regs = true) ∧
    (memWf s.hmem = true → memWf (tsCrd p bs s).hmem = true) := by
  unfold tsCrd; dsimp only; (repeat' split) <;> simp +contextual [*]

@[simp] theorem tsMark_canonical (p stamp bs s) :
    regsWf s.regs = true → regsWf (tsMark p stamp bs s).regs = true := by
  intro h; simp [tsMark, h]

@[simp] theorem tsSeen_canonical (p seen s) :
    regsWf s.regs = true → regsWf (tsSeen p seen s).regs = true := by
  simp +contextual [tsSeen]

@[simp] theorem tsFillOne_canonical (p g s) :
    regsWf s.regs = true → regsWf (tsFillOne p g s).regs = true := by
  unfold tsFillOne; dsimp only; (repeat' split) <;> simp +contextual [*]

@[simp] theorem tsFill_canonical (p s) :
    regsWf s.regs = true → regsWf (tsFill p s).regs = true := by
  grind [tsFill, tsFillOne_canonical, stickRg_canonical, modOut_keeps, whenDo, forAll_regsWf]

@[simp] theorem gapBefore_canonical (p rank s) :
    regsWf s.regs = true → regsWf (gapBefore p rank s).regs = true := by
  intro h; simp [gapBefore, h]

@[simp] theorem tsMarksDue_canonical (p s) :
    regsWf s.regs = true → regsWf (tsMarksDue p s).regs = true := by
  grind [tsMarksDue, tsFill_canonical, reach_canonical]

@[simp] theorem laneLost_canonical (ln s) :
    (regsWf s.regs = true → regsWf (laneLost ln s).regs = true) ∧
    (memWf s.hmem = true → memWf (laneLost ln s).hmem = true) := by
  grind [laneLost, tsLaneLost_canonical, emitLink_canonical, emitLink_keeps, linkEval_canonical, whenDo]

@[simp] theorem laneChange_canonical (ln f s) : (regsWf s.regs = true → regsWf (laneChange ln f s).regs = true) ∧
    (memWf s.hmem = true → memWf (laneChange ln f s).hmem = true) := by
  have told (c : Bool) (off i) {u : State} (h : regsWf u.regs = true) : regsWf (whenDo c (stickRg off i) u).regs = true :=
    whenDo_regsWf _ (stickRg_canonical _ _) _ h
  have kept (c : Bool) (off i) {u : State} (h : memWf u.hmem = true) : memWf (whenDo c (stickRg off i) u).hmem = true := by
    simpa using h
  simp only [laneChange]
  split
  · exact ⟨fun h => (laneLost_canonical _ _).1 (told _ _ _ (told _ _ _ (told _ _ _ (told _ _ _ (by simpa using h))))),
      fun h => (laneLost_canonical _ _).2 (kept _ _ _ (kept _ _ _ (kept _ _ _ (kept _ _ _ (by simpa using h)))))⟩
  · exact ⟨fun h => (linkEval_canonical _ _).1 (told _ _ _ (told _ _ _ (told _ _ _ (told _ _ _ (by simpa using h))))),
      fun h => (linkEval_canonical _ _).2 (kept _ _ _ (kept _ _ _ (kept _ _ _ (kept _ _ _ (by simpa using h)))))⟩

@[simp] theorem refclkSet_canonical (k ppm s) :
    (regsWf s.regs = true → regsWf (refclkSet k ppm s).regs = true) ∧
    (memWf s.hmem = true → memWf (refclkSet k ppm s).hmem = true) := by
  grind [refclkSet, setQuad_keeps, quadEval_canonical, tsQuadDown_canonical, whenDo, forAll_regsWf, forAll_memWf]

@[simp] theorem refclkRejudge_canonical (k old s) :
    (regsWf s.regs = true → regsWf (refclkRejudge k old s).regs = true) ∧
    (memWf s.hmem = true → memWf (refclkRejudge k old s).hmem = true) := by
  unfold refclkRejudge; dsimp only; (repeat' split) <;> simp +contextual [*]

@[simp] theorem countGood_canonical (p bs s) :
    regsWf s.regs = true → regsWf (countGood p bs s).regs = true := by
  grind [countGood, countMac_canonical]

@[simp] theorem tsReceive_canonical (p c units s) :
    regsWf s.regs = true → regsWf (tsReceive p c units s).2.regs = true := by
  unfold tsReceive; dsimp only; (repeat' split) <;> simp +contextual [*]

@[simp] theorem passFrame_canonical (p f err ts s) :
    regsWf s.regs = true → regsWf (passFrame p f err ts s).regs = true := by
  unfold passFrame; split <;> simp +contextual [*]

@[simp] theorem macDiscard_canonical (p f s) :
    regsWf s.regs = true → regsWf (macDiscard p f s).regs = true := by
  unfold macDiscard; dsimp only; (repeat' split) <;> simp +contextual [*]

@[simp] theorem laneCounts_canonical (p f s) :
    regsWf s.regs = true → regsWf (laneCounts p f s).regs = true := by
  grind [laneCounts, groupErrors_keeps, codeErrors_canonical, addRg_canonical, forAll_regsWf]

@[simp] theorem macReceive_canonical (p f s) : regsWf s.regs = true → regsWf (macReceive p f s).regs = true := by
  intro h
  have counted (e : Nat) : regsWf (if e ≠ 0 then countMac p (rxErrorCounter f e) 1
        (countMac p 18 f.fragments (countMac p 2 1 (countMac p 0 f.bytes.length s)))
      else countGood p f.bytes (countMac p 18 f.fragments (countMac p 2 1 (countMac p 0 f.bytes.length s)))).regs = true := by
    have first : regsWf (countMac p 18 f.fragments (countMac p 2 1 (countMac p 0 f.bytes.length s))).regs = true :=
      countMac_canonical _ _ _ _ (countMac_canonical _ _ _ _ (countMac_canonical _ _ _ _ h))
    split
    · exact countMac_canonical _ _ _ _ first
    · exact countGood_canonical _ _ _ first
  unfold macReceive
  dsimp only
  generalize rxErrors f (fld 13 0 (cuAt s (rxStampAt s p f.sfd) (R.macMaxFrame p))) = e
  have counted := counted e
  generalize (if e ≠ 0 then _ else _ : State) = u at counted ⊢
  split
  · simp [counted]
  · split
    · exact passFrame_canonical _ _ _ _ _ counted
    · split
      · split
        · simp [counted]
        · exact countMac_canonical _ _ _ _ (macDiscard_canonical _ _ _ counted)
      · exact passFrame_canonical _ _ _ _ _ counted

@[simp] theorem sendPause_canonical (p s) :
    regsWf s.regs = true → regsWf (sendPause p s).regs = true := by
  intro h; simp [sendPause, h]

@[simp] theorem flushHeld_canonical (p s) :
    (regsWf s.regs = true → regsWf (flushHeld p s).regs = true) ∧
    (memWf s.hmem = true → memWf (flushHeld p s).hmem = true) := by
  simp +contextual [flushHeld]

@[simp] theorem answerPdelay_canonical (x s) :
    regsWf s.regs = true → regsWf (answerPdelay x s).regs = true := by
  unfold answerPdelay; dsimp only; (repeat' split) <;> simp +contextual [*]

@[simp] theorem pmuEng_canonical (e code n s) :
    regsWf s.regs = true → regsWf (pmuEng e code n s).regs = true := by
  intro h; simp [pmuEng, h]

@[simp] theorem discardInEngine_canonical (e f fate copies s) :
    (regsWf s.regs = true → regsWf (discardInEngine e f fate copies s).regs = true) ∧
    (memWf s.hmem = true → memWf (discardInEngine e f fate copies s).hmem = true) := by
  simp +contextual [discardInEngine]

@[simp] theorem engineFaultEvent_canonical (c cause detail s) :
    regsWf s.regs = true → regsWf (engineFaultEvent c cause detail s).regs = true := by
  unfold engineFaultEvent; dsimp only; (repeat' split) <;> simp +contextual [*]

@[simp] theorem engineFault_canonical (e x cause s) :
    (regsWf s.regs = true → regsWf (engineFault e x cause s).regs = true) ∧
    (memWf s.hmem = true → memWf (engineFault e x cause s).hmem = true) := by
  grind [engineFault, stickRg_canonical, stickRg_keeps, setRg_canonical, setRg_keeps, incRg_canonical, incRg_keeps, pmuEng_canonical, pmuEng_keeps, discardInEngine_canonical, engineFaultEvent_canonical, engineFaultEvent_keeps]

@[simp] theorem emitNow_canonical (e c w cells s) :
    (regsWf s.regs = true → regsWf (emitNow e c w cells s).regs = true) ∧
    (memWf s.hmem = true → memWf (emitNow e c w cells s).hmem = true) := by
  unfold emitNow; dsimp only; (repeat' split) <;> simp +contextual [*]

@[simp] theorem emitFrame_canonical (e c w s) :
    (regsWf s.regs = true → regsWf (emitFrame e c w s).regs = true) ∧
    (memWf s.hmem = true → memWf (emitFrame e c w s).hmem = true) := by
  unfold emitFrame; dsimp only; (repeat' split) <;> simp +contextual [*]

@[simp] theorem handOn_canonical (f s) :
    regsWf s.regs = true → regsWf (handOn f s).regs = true := by
  unfold handOn; dsimp only; (repeat' split) <;> simp +contextual [*]

@[simp] theorem leaveEngine_canonical (e f s) :
    regsWf s.regs = true → regsWf (leaveEngine e f s).regs = true := by
  intro h; simp [leaveEngine, h]

@[simp] theorem engineWordBad_canonical (c kind key s) :
    regsWf s.regs = true → regsWf (engineWordBad c kind key s).regs = true := by
  unfold engineWordBad; split <;> simp +contextual [*]

@[simp] theorem storeBursts_canonical (write off n s) :
    regsWf s.regs = true → regsWf (storeBursts write off n s).regs = true := by
  unfold storeBursts; split <;> simp +contextual [*]

@[simp] theorem shareRead_canonical (c s) :
    regsWf s.regs = true → regsWf (shareRead c s).regs = true := by
  grind [shareRead, pmuEv_canonical, pmuPort1_canonical, basinWords_canonical, modFrame_keeps]

@[simp] theorem startCopy_canonical (c s) :
    regsWf s.regs = true → regsWf (startCopy c s).regs = true := by
  grind [startCopy, ptpSkip_canonical, removeCopy_keeps, stampCopy_canonical, shareRead_canonical, chargeShapers_keeps, modTs_keeps, setSched_keeps, modPort_keeps, whenDo]

@[simp] theorem neverFits_canonical (c s) :
    regsWf s.regs = true → regsWf (neverFits c s).regs = true := by
  simp +contextual [neverFits]

@[simp] theorem trySpill_canonical (c deep s) :
    regsWf s.regs = true → regsWf (trySpill c deep s).regs = true := by
  unfold trySpill; dsimp only; (repeat' split) <;> simp +contextual [*]

@[simp] theorem enqueue_canonical (c s) :
    (regsWf s.regs = true → regsWf (enqueue c s).regs = true) ∧
    (memWf s.hmem = true → memWf (enqueue c s).hmem = true) := by
  grind [enqueue, countMac_canonical, countMac_keeps, neverFits_canonical, neverFits_keeps, schCount_canonical, schCount_keeps, finishCopy_canonical, setQueue_keeps, modFrame_keeps, trySpill_canonical, trySpill_keeps, whenDo]

@[simp] theorem preemptWith_canonical (p n free s) :
    regsWf s.regs = true → regsWf (preemptWith p n free s).regs = true := by
  grind [preemptWith, countMac_canonical, setSched_keeps, modPort_keeps, whenDo]

@[simp] theorem preempt_canonical (p t s) :
    regsWf s.regs = true → regsWf (preempt p t s).regs = true := by
  unfold preempt; split <;> simp +contextual [*]

@[simp] theorem startNext_canonical (p s) :
    regsWf s.regs = true → regsWf (startNext p s).regs = true := by
  grind [startNext, startCopy_canonical, sendPause_canonical, storeChoice_keeps, resume_keeps]

@[simp] theorem startPause_canonical (p s) :
    regsWf s.regs = true → regsWf (startPause p s).regs = true := by
  intro h; simp [startPause, h]

@[simp] theorem readError_canonical (ecc p s) :
    (regsWf s.regs = true → regsWf (readError ecc p s).regs = true) ∧
    (memWf s.hmem = true → memWf (readError ecc p s).hmem = true) := by
  unfold readError; split <;> simp +contextual [*]

@[simp] theorem readStarted_canonical (ecc p s0 s) :
    (regsWf s.regs = true → regsWf (readStarted ecc p s0 s).regs = true) ∧
    (memWf s.hmem = true → memWf (readStarted ecc p s0 s).hmem = true) := by
  simp +contextual [readStarted]

@[simp] theorem mediumFree_canonical (p s) :
    regsWf s.regs = true → regsWf (mediumFree p s).regs = true := by
  intro h; simp [mediumFree, h]

@[simp] theorem sentWhole_canonical (p x c s) :
    (regsWf s.regs = true → regsWf (sentWhole p x c s).regs = true) ∧
    (memWf s.hmem = true → memWf (sentWhole p x c s).hmem = true) := by
  grind [sentWhole, countMac_canonical, countMac_keeps, countSent_canonical, countSent_keeps, setSched_keeps, mediumTaken_keeps, sentOn_keeps, modPort_keeps, tsFrameEnds_keeps, pmuPort1_canonical, pmuPort1_keeps, finishCopy_canonical, endSend_canonical, endSend_keeps, whenDo]

@[simp] theorem makeLate_canonical (c discard s) :
    (regsWf s.regs = true → regsWf (makeLate c discard s).regs = true) ∧
    (memWf s.hmem = true → memWf (makeLate c discard s).hmem = true) := by
  unfold makeLate; split <;> simp +contextual [*]

@[simp] theorem giveWay_canonical (p q s) :
    regsWf s.regs = true → regsWf (giveWay p q s).regs = true := by
  intro h; simp [giveWay, h]

@[simp] theorem judgeRelease_canonical (c r s) :
    (regsWf s.regs = true → regsWf (judgeRelease c r s).regs = true) ∧
    (memWf s.hmem = true → memWf (judgeRelease c r s).hmem = true) := by
  unfold judgeRelease; dsimp only; (repeat' split) <;> simp +contextual [*]

@[simp] theorem admitFrame_canonical (f x s) :
    (regsWf s.regs = true → regsWf (admitFrame f x s).regs = true) ∧
    (memWf s.hmem = true → memWf (admitFrame f x s).hmem = true) := by
  unfold admitFrame; dsimp only; (repeat' split) <;> simp +contextual [*]

@[simp] theorem basinMoved_canonical (n s) :
    regsWf s.regs = true → regsWf (basinMoved n s).regs = true := by
  intro h; simp [basinMoved, h]

@[simp] theorem refillBurst_canonical (f held s) :
    regsWf s.regs = true → regsWf (refillBurst f held s).regs = true := by
  grind [refillBurst, countEmpty_canonical, grant_keeps, judgePressure_keeps, hbmBurst_canonical, basinMoved_canonical, pmuEv_canonical, modFrame_keeps, whenDo]

@[simp] theorem expireInOrder_canonical (f s) :
    (regsWf s.regs = true → regsWf (expireInOrder f s).regs = true) ∧
    (memWf s.hmem = true → memWf (expireInOrder f s).hmem = true) := by
  simp +contextual [expireInOrder]

@[simp] theorem expireFrame_canonical (f s) : (regsWf s.regs = true → regsWf (expireFrame f s).regs = true) ∧
    (memWf s.hmem = true → memWf (expireFrame f s).hmem = true) := by
  unfold expireFrame
  split
  · simp +contextual
  · dsimp only
    constructor
    · intro h
      refine whenDo_regsWf _ (fun u => (expireInOrder_canonical f u).1) _ ?_
      refine forAll_regsWf _ (fun c u => (discardCopy_canonical c 0xF u).1) _ _ ?_
      exact forAll_regsWf _ (fun c u hu => (finishCopy_canonical c _ _).1 (by exact hu)) _ _ h
    · intro h
      refine whenDo_memWf _ (fun u => (expireInOrder_canonical f u).2) _ ?_
      refine forAll_memWf _ (fun c u => (discardCopy_canonical c 0xF u).2) _ _ ?_
      exact forAll_memWf _ (fun c u hu => (finishCopy_canonical c _ _).2 (by exact hu)) _ _ h

@[simp] theorem leak_canonical (f x since s) :
    regsWf s.regs = true → regsWf (leak f x since s).regs = true := by
  grind [leak, setFrame_keeps, emitBuffer_canonical, stickRg_canonical, incRg_canonical]

@[simp] theorem riderVisit_canonical (f x s) :
    regsWf s.regs = true → regsWf (riderVisit f x s).regs = true := by
  grind [riderVisit, setFrame_keeps, leak_canonical]

@[simp] theorem snapshot_canonical (s) :
    (regsWf s.regs = true → regsWf (snapshot s).regs = true) ∧
    (memWf s.hmem = true → memWf (snapshot s).hmem = true) := by
  simp +contextual [snapshot]

@[simp] theorem reclaimedCopy_canonical (x p s) :
    regsWf s.regs = true → regsWf (reclaimedCopy x p s).regs = true := by
  intro h; simp [reclaimedCopy, h]

@[simp] theorem putStaged_canonical (h v t) :
    regsWf t.regs = true → regsWf (putStaged h v t).regs = true := by
  intro canon
  have low := regStore_regsWf (stagedKey t h.row.cls h.lowOff) (BitVec.ofNat 32 v) _ canon
  unfold putStaged
  dsimp only
  split
  · exact regStore_regsWf _ _ _ low
  · exact low

@[simp] theorem useStaged_canonical (s) : regsWf s.regs = true → regsWf (useStaged s).regs = true :=
  regsWf_stores _ _ _

@[simp] theorem trial_canonical (s) :
    regsWf s.regs = true → regsWf (trial s).regs = true := by
  intro h; simp [trial, h]

@[simp] theorem report_canonical (gen refused r s) :
    regsWf s.regs = true → regsWf (report gen refused r s).regs = true := by
  grind [report, setRg_canonical, emit_canonical, incRg_canonical]

@[simp] theorem reportAll_canonical (gen refused byCtrl rs s) :
    regsWf s.regs = true → regsWf (reportAll gen refused byCtrl rs s).regs = true := by
  grind [reportAll, setRg_canonical, report_canonical, forAll_regsWf]

@[simp] theorem setUnit_canonical (kind idx new s) :
    regsWf s.regs = true → regsWf (setUnit kind idx new s).regs = true := by
  intro h; simp [setUnit, h]

@[simp] theorem portGone_canonical (p s) :
    (regsWf s.regs = true → regsWf (portGone p s).regs = true) ∧
    (memWf s.hmem = true → memWf (portGone p s).hmem = true) := by
  unfold portGone; split <;> simp +contextual [*]

@[simp] theorem quadGone_canonical (q s) : (regsWf s.regs = true → regsWf (quadGone q s).regs = true) ∧
    (memWf s.hmem = true → memWf (quadGone q s).hmem = true) :=
  ⟨forAll_regsWf _ (fun _ _ => (portGone_canonical _ _).1) _ s, forAll_memWf _ (fun _ _ => (portGone_canonical _ _).2) _ s⟩

@[simp] theorem laneGone_canonical (ln s) :
    (regsWf s.regs = true → regsWf (laneGone ln s).regs = true) ∧
    (memWf s.hmem = true → memWf (laneGone ln s).hmem = true) := by
  grind [laneGone, tsRetrain_canonical, tsRetrain_keeps, quadEval_canonical, laneLost_canonical, whenDo]

@[simp] theorem unitShift_canonical (old back kind idx s) : (regsWf s.regs = true → regsWf (unitShift old back kind idx s).regs = true) ∧
    (memWf s.hmem = true → memWf (unitShift old back kind idx s).hmem = true) := by
  unfold unitShift
  split
  case h_1 => split <;> simp +contextual
  case h_2 => split <;> simp +contextual
  case h_6 => split <;> simp +contextual
  all_goals simp +contextual

@[simp] theorem unitShifts_canonical (old back kind idx s) : (regsWf s.regs = true → regsWf (unitShifts old back kind idx s).regs = true) ∧
    (memWf s.hmem = true → memWf (unitShifts old back kind idx s).hmem = true) := by
  unfold unitShifts
  split
  · simp +contextual
  · exact unitShift_canonical _ _ _ _ _

@[simp] theorem answerTransition_canonical (t status result s) :
    (regsWf s.regs = true → regsWf (answerTransition t status result s).regs = true) ∧
    (memWf s.hmem = true → memWf (answerTransition t status result s).hmem = true) := by
  unfold answerTransition; split <;> simp +contextual [*]

@[simp] theorem stopTests_canonical (kind idx s) : (regsWf s.regs = true → regsWf (stopTests kind idx s).regs = true) ∧
    (memWf s.hmem = true → memWf (stopTests kind idx s).hmem = true) :=
  ⟨fun h => whenDo_regsWf _ (fun _ hu => by simpa using hu) _ (forAll_regsWf _ (fun _ _ => (answerCmd_canonical _ _ _ _).1) _ _ h),
    fun h => whenDo_memWf _ (fun _ hu => by simpa using hu) _ (forAll_memWf _ (fun _ _ => (answerCmd_canonical _ _ _ _).2) _ _ h)⟩

@[simp] theorem budgetNote_canonical (c s) :
    regsWf s.regs = true → regsWf (budgetNote c s).regs = true := by
  intro h; simp [budgetNote, h]

@[simp] theorem budgetShort_canonical (kind idx s) :
    regsWf s.regs = true → regsWf (budgetShort kind idx s).regs = true := by
  grind [budgetShort, budgetNote_canonical]

@[simp] theorem loseChannel_canonical (ch s) :
    regsWf s.regs = true → regsWf (loseChannel ch s).regs = true := by
  intro h; simp [loseChannel, h]

@[simp] theorem finishLeave_canonical (t s) :
    (regsWf s.regs = true → regsWf (finishLeave t s).regs = true) ∧
    (memWf s.hmem = true → memWf (finishLeave t s).hmem = true) := by
  grind [finishLeave, endTransition_keeps, loseChannel_canonical, loseChannel_keeps, answerTransition_canonical, noteHealth_keeps, setUnit_canonical, setUnit_keeps, budgetShort_canonical, budgetShort_keeps, whenDo, forAll_regsWf, forAll_memWf]

@[simp] theorem resetIsland_canonical (isl s) : regsWf s.regs = true → regsWf (resetIsland isl s).regs = true := by
  intro h
  simp [resetIsland, regsWf_filter, h]

@[simp] theorem finishReturn_canonical (t s) :
    (regsWf s.regs = true → regsWf (finishReturn t s).regs = true) ∧
    (memWf s.hmem = true → memWf (finishReturn t s).hmem = true) := by
  grind [finishReturn, resetIsland_canonical, resetIsland_keeps, setUnit_canonical, setUnit_keeps, endTransition_keeps, answerTransition_canonical, unitShifts_canonical, whenDo, forAll_regsWf, forAll_memWf]

@[simp] theorem unitsReturn_canonical (s) :
    (regsWf s.regs = true → regsWf (unitsReturn s).regs = true) ∧
    (memWf s.hmem = true → memWf (unitsReturn s).hmem = true) := by
  simp +contextual [unitsReturn]

@[simp] theorem startShift_canonical (phase kind idx st nowait w s) :
    (regsWf s.regs = true → regsWf (startShift phase kind idx st nowait w s).st.regs = true) ∧
    (memWf s.hmem = true → memWf (startShift phase kind idx st nowait w s).st.hmem = true) := by
  unfold startShift; dsimp only; (repeat' split) <;> simp +contextual [*]

@[simp] theorem withdrawShift_canonical (t st s) :
    (regsWf s.regs = true → regsWf (withdrawShift t st s).st.regs = true) ∧
    (memWf s.hmem = true → memWf (withdrawShift t st s).st.hmem = true) := by
  grind [withdrawShift, endTransition_keeps, answerTransition_canonical, unitShifts_canonical, setUnit_canonical, setUnit_keeps, okWith_keeps, refuse_keeps, whenDo]

@[simp] theorem finishCopying_canonical (t s) :
    (regsWf s.regs = true → regsWf (finishCopying t s).regs = true) ∧
    (memWf s.hmem = true → memWf (finishCopying t s).hmem = true) := by
  grind [finishCopying, endTransition_keeps, stickRg_canonical, stickRg_keeps, setUnit_canonical, setUnit_keeps, answerTransition_canonical, noteHealth_keeps]

@[simp] theorem autoRetire_canonical (idx errors s) :
    regsWf s.regs = true → regsWf (autoRetire idx errors s).regs = true := by
  unfold autoRetire; dsimp only; (repeat' split) <;> simp +contextual [*]

@[simp] theorem finishTest_canonical (kind idx pass cause detail s) :
    (regsWf s.regs = true → regsWf (finishTest kind idx pass cause detail s).regs = true) ∧
    (memWf s.hmem = true → memWf (finishTest kind idx pass cause detail s).hmem = true) := by
  unfold finishTest; dsimp only; (repeat' split) <;> simp +contextual [*]

@[simp] theorem parkPass_canonical (ms s) :
    regsWf s.regs = true → regsWf (parkPass ms s).regs = true := by
  intro h; simp [parkPass, h]

@[simp] theorem loseRegs_canonical (gone s) : regsWf s.regs = true → regsWf (loseRegs gone s).regs = true := regsWf_filter _

@[simp] theorem waveLoses_canonical (w s) :
    regsWf s.regs = true → regsWf (waveLoses w s).regs = true := by
  unfold waveLoses; split <;> simp +contextual [*]

@[simp] theorem waveBegins_canonical (w s) :
    regsWf s.regs = true → regsWf (waveBegins w s).regs = true := by
  unfold waveBegins; split <;> simp +contextual [*]

@[simp] theorem tick_canonical (s) :
    regsWf s.regs = true → regsWf (tick s).regs = true := by
  unfold tick; split <;> simp +contextual [*]

@[simp] theorem jumpGen_canonical (old g new s) :
    regsWf s.regs = true → regsWf (jumpGen old g new s).regs = true := by
  unfold jumpGen; split <;> simp +contextual [*]

@[simp] theorem timeJump_canonical (j s) :
    regsWf s.regs = true → regsWf (timeJump j s).regs = true := by
  grind [timeJump, reach_canonical, moveWaits_keeps, keepJudged_keeps, jumpGen_canonical, timeFault_canonical, whenDo, forAll_regsWf]

@[simp] theorem loopLoses_canonical (pps avg s) :
    regsWf s.regs = true → regsWf (loopLoses pps avg s).regs = true := by
  unfold loopLoses; dsimp only; (repeat' split) <;> simp +contextual [*]

@[simp] theorem sourceChange_canonical (t old s) :
    regsWf s.regs = true → regsWf (sourceChange t old s).regs = true := by
  grind [sourceChange, loopLoses_canonical, refsBack_keeps, whenDo]

@[simp] theorem cycMarks_canonical (g s) :
    regsWf s.regs = true → regsWf (cycMarks g s).regs = true := by
  grind [cycMarks, tsFill_canonical, whenDo, forAll_regsWf]

@[simp] theorem feedCapture_canonical (u t s) :
    regsWf s.regs = true → regsWf (feedCapture u t s).regs = true := by
  intro h; simp [feedCapture, h]

@[simp] theorem edgeRecorder_canonical (g k t s) : regsWf s.regs = true → regsWf (edgeRecorder g k t s).regs = true := fun h =>
  whenDo_regsWf _ (recTrigger_canonical _ _ _) _ (whenDo_regsWf _ (recMarker_canonical _ _ _) _ h)

@[simp] theorem makeEdge_canonical (g s) : regsWf s.regs = true → regsWf (makeEdge g s).regs = true := by
  intro h
  have fed (c : Bool) (u t) := whenDo_regsWf c (feedCapture_canonical u t)
  have marked (t) : regsWf (cycMarks g (reach t s)).regs = true := cycMarks_canonical _ _ (reach_canonical _ _ h)
  simp only [makeEdge]
  split
  · exact h
  · simpa using oneCycle_regsWf (fed _ _ _) (edgeRecorder_canonical _ _ _) _ (by simpa using marked _)

theorem pf0Write_regsWf {f : State → State} (off : Nat) (hf : ∀ s, regsWf s.regs = true → regsWf (f s).regs = true) (s) :
    regsWf s.regs = true → regsWf (pf0Write off f s).regs = true := by
  grind [pf0Write, violation_canonical, refuseService_canonical]
theorem pf0Write_memWf {f : State → State} (off : Nat) (hf : ∀ s, memWf s.hmem = true → memWf (f s).hmem = true) (s) :
    memWf s.hmem = true → memWf (pf0Write off f s).hmem = true := by
  grind [pf0Write, violation_keeps, refuseService_keeps]

@[simp] theorem genCmdOther_canonical (s) : regsWf s.regs = true → regsWf (genCmdOther s).regs = true :=
  pf0Write_regsWf _ (fun u hu => by simpa using hu) _

@[simp] theorem answerGen_canonical (status result s) :
    (regsWf s.regs = true → regsWf (answerGen status result s).regs = true) ∧
    (memWf s.hmem = true → memWf (answerGen status result s).hmem = true) := by
  unfold answerGen; split <;> simp +contextual [*]

@[simp] theorem refuseCommit_canonical (status rs s) :
    (regsWf s.regs = true → regsWf (refuseCommit status rs s).regs = true) ∧
    (memWf s.hmem = true → memWf (refuseCommit status rs s).hmem = true) := by
  grind [refuseCommit, reportAll_canonical, reportAll_keeps, modGen_keeps, answerGen_canonical, emitCommit_canonical, emitCommit_keeps]

@[simp] theorem portAtChange_canonical (m j p s) :
    (regsWf s.regs = true → regsWf (portAtChange m j p s).regs = true) ∧
    (memWf s.hmem = true → memWf (portAtChange m j p s).hmem = true) := by
  grind [portAtChange, portDown_canonical, flushDown_canonical, modPort_keeps, setPort_keeps, whenDo]

@[simp] theorem quadChange_canonical (q s) :
    (regsWf s.regs = true → regsWf (quadChange q s).regs = true) ∧
    (memWf s.hmem = true → memWf (quadChange q s).hmem = true) := by
  simp +contextual [quadChange]

@[simp] theorem adminFlush_canonical (changed s) : (regsWf s.regs = true → regsWf (adminFlush changed s).regs = true) ∧
    (memWf s.hmem = true → memWf (adminFlush changed s).hmem = true) :=
  ⟨forAll_regsWf _ (fun _ _ => whenDo_regsWf _ (fun _ => (flushDown_canonical _ _).1) _) _ s,
    forAll_memWf _ (fun _ _ => whenDo_memWf _ (fun _ => (flushDown_canonical _ _).2) _) _ s⟩

@[simp] theorem refsChange_canonical (changed old s) :
    (regsWf s.regs = true → regsWf (refsChange changed old s).regs = true) ∧
    (memWf s.hmem = true → memWf (refsChange changed old s).hmem = true) := by
  simp +contextual [refsChange]

theorem useFollows_regsWf (t changed old s) : regsWf s.regs = true → regsWf (useFollows t changed old s).regs = true := by
  intro h
  have quads (l) : regsWf (unitsReturn (forAll quadChange l s)).regs = true :=
    (unitsReturn_canonical _).1 (forAll_regsWf _ (fun q u => (quadChange_canonical q u).1) _ _ h)
  have links (u : State) (h : regsWf u.regs = true) :
      regsWf (linksEval (adminFlush changed (refsChange changed old u))).regs = true :=
    (linksEval_canonical _).1 ((adminFlush_canonical _ _).1 ((refsChange_canonical _ _ _).1 h))
  simp only [useFollows, judgePressure_keeps, noteChannels_keeps, noteEngines_keeps, noteHops_keeps, forAll_regs, judgePair_keeps,
    tioChange_keeps, implies_true]
  refine whenDo_regsWf _ (sourceChange_canonical t old) _ ?_
  simp only [whenDo_regs, modRec_keeps, redefer_keeps, ite_self, forAll_regs, shapersChange_keeps, markChange_keeps,
    generatorChange_keeps, implies_true]
  exact links _ (by simpa only [setHeadrooms_keeps] using quads _)

theorem useFollows_memWf (t changed old s) : memWf s.hmem = true → memWf (useFollows t changed old s).hmem = true := by
  intro h
  have quads (l) : memWf (unitsReturn (forAll quadChange l s)).hmem = true :=
    (unitsReturn_canonical _).2 (forAll_memWf _ (fun q u => (quadChange_canonical q u).2) _ _ h)
  have links (u : State) (h : memWf u.hmem = true) :
      memWf (linksEval (adminFlush changed (refsChange changed old u))).hmem = true :=
    (linksEval_canonical _).2 ((adminFlush_canonical _ _).2 ((refsChange_canonical _ _ _).2 h))
  simp only [useFollows, judgePressure_keeps, noteChannels_keeps, noteEngines_keeps, noteHops_keeps, forAll_hmem, judgePair_keeps,
    tioChange_keeps, implies_true, sourceChange_keeps, whenDo_hmem, modRec_keeps, redefer_keeps, ite_self, shapersChange_keeps,
    markChange_keeps, generatorChange_keeps]
  exact links _ (by simpa only [setHeadrooms_keeps] using quads _)

@[simp] theorem useFollows_canonical (t changed old s) :
    (regsWf s.regs = true → regsWf (useFollows t changed old s).regs = true) ∧
    (memWf s.hmem = true → memWf (useFollows t changed old s).hmem = true) :=
  ⟨useFollows_regsWf _ _ _ _, useFollows_memWf _ _ _ _⟩

@[simp] theorem takeEffect_canonical (t s0) :
    (regsWf s0.regs = true → regsWf (takeEffect t s0).regs = true) ∧
    (memWf s0.hmem = true → memWf (takeEffect t s0).hmem = true) := by
  grind [takeEffect, reach_canonical, reach_keeps, useFollows_canonical, noteHeadgates_keeps, modGen_keeps, useStaged_canonical, useStaged_keeps]

@[simp] theorem commitEffect_canonical (s) :
    (regsWf s.regs = true → regsWf (commitEffect s).regs = true) ∧
    (memWf s.hmem = true → memWf (commitEffect s).hmem = true) := by
  grind [commitEffect, takeEffect_canonical]

@[simp] theorem mirrorRegs_canonical (s) : regsWf s.regs = true → regsWf (mirrorRegs s).regs = true :=
  regsWf_stores _ _ _

@[simp] theorem mirror_canonical (s0) :
    regsWf s0.regs = true → regsWf (mirror s0).regs = true := by
  intro h; simp [mirror, h]

@[simp] theorem commitDrained_canonical (receiving s) :
    regsWf s.regs = true → regsWf (commitDrained receiving s).regs = true := by
  intro h; simp [commitDrained, h]

@[simp] theorem settled_canonical (s) :
    (regsWf s.regs = true → regsWf (settled s).regs = true) ∧
    (memWf s.hmem = true → memWf (settled s).hmem = true) := by
  unfold settled; split <;> simp +contextual [*]

@[simp] theorem unstage_canonical (s) : regsWf s.regs = true → regsWf (unstage s).regs = true := fun h =>
  regsWf_stores _ _ _ (mirror_canonical s h)

@[simp] theorem discardDone_canonical (s) :
    (regsWf s.regs = true → regsWf (discardDone s).regs = true) ∧
    (memWf s.hmem = true → memWf (discardDone s).hmem = true) := by
  unfold discardDone; split <;> simp +contextual [*]

@[simp] theorem autoDue_canonical (s) :
    regsWf s.regs = true → regsWf (autoDue s).regs = true := by
  grind [autoDue, reach_canonical, modGen_keeps, stickRg_canonical, incRg_canonical, startChecking_keeps]

@[simp] theorem gclPut_canonical (p j gates interval s) :
    regsWf s.regs = true → regsWf (gclPut p j gates interval s).regs = true := by
  intro h; simp [gclPut, h]

@[simp] theorem refuseCopy_canonical (cause x s) :
    regsWf s.regs = true → regsWf (refuseCopy cause x s).regs = true := by
  grind [refuseCopy, modRec_keeps, countEmpty_canonical, incRg_canonical, whenDo]

@[simp] theorem takeRecord_canonical (x s) :
    regsWf s.regs = true → regsWf (takeRecord x s).regs = true := by
  unfold takeRecord; dsimp only; (repeat' split) <;> simp +contextual [*]

@[simp] theorem endAtRecorder_canonical (c s) :
    (regsWf s.regs = true → regsWf (endAtRecorder c s).regs = true) ∧
    (memWf s.hmem = true → memWf (endAtRecorder c s).hmem = true) := by
  unfold endAtRecorder; split <;> simp +contextual [*]

@[simp] theorem recorderTakes_canonical (c ds ptr s) :
    (regsWf s.regs = true → regsWf (recorderTakes c ds ptr s).regs = true) ∧
    (memWf s.hmem = true → memWf (recorderTakes c ds ptr s).hmem = true) := by
  grind [recorderTakes, chargeShapers_keeps, storeChoice_keeps, endSend_canonical, endSend_keeps, shareRead_canonical, shareRead_keeps, removeCopy_keeps, modPort_keeps, endAtRecorder_canonical, takeRecord_canonical, takeRecord_keeps]

@[simp] theorem freezeNow_canonical (s) :
    regsWf s.regs = true → regsWf (freezeNow s).1.regs = true := by
  unfold freezeNow; split <;> simp +contextual [*]

@[simp] theorem sealNow_canonical (s) :
    regsWf s.regs = true → regsWf (sealNow s).1.regs = true := by
  grind [sealNow, recSealOpen_canonical]

@[simp] theorem readBursts_canonical (g n s) :
    regsWf s.regs = true → regsWf (readBursts g n s).regs = true := by
  unfold readBursts; split <;> simp +contextual [*]

@[simp] theorem setPartition_canonical (res recG es s) :
    regsWf s.regs = true → regsWf (setPartition res recG es s).regs = true := by
  intro h; simp [setPartition, h]

@[simp] theorem partitionWrite_canonical (v s) :
    regsWf s.regs = true → regsWf (partitionWrite v s).regs = true := by
  unfold partitionWrite; dsimp only; (repeat' split) <;> simp +contextual [*]

@[simp] theorem leaveQueue_canonical (c ds ptr s) :
    regsWf s.regs = true → regsWf (leaveQueue c ds ptr s).regs = true := by
  intro h; simp [leaveQueue, h]

@[simp] theorem rxBuffer_canonical (n i k x c data s) :
    (regsWf s.regs = true → regsWf (rxBuffer n i k x c data s).regs = true) ∧
    (memWf s.hmem = true → memWf (rxBuffer n i k x c data s).hmem = true) := by
  simp +contextual [rxBuffer]

@[simp] theorem deliver_canonical (c ds ptr s) : (regsWf s.regs = true → regsWf (deliver c ds ptr s).regs = true) ∧
    (memWf s.hmem = true → memWf (deliver c ds ptr s).hmem = true) := by
  unfold deliver
  dsimp only
  constructor
  · intro h
    exact (finishCopy_canonical _ _ _).1 ((drainWork_canonical _ _ _).1 (forAll_regsWf _ (fun _ _ => (rxBuffer_canonical _ _ _ _ _ _ _).1) _ _
      (leaveQueue_canonical _ _ _ _ h)))
  · intro h
    exact (finishCopy_canonical _ _ _).2 ((drainWork_canonical _ _ _).2 (forAll_memWf _ (fun _ _ => (rxBuffer_canonical _ _ _ _ _ _ _).2) _ _
      (by simpa using h)))

@[simp] theorem txAdmit_canonical (n ds s) :
    (regsWf s.regs = true → regsWf (txAdmit n ds s).regs = true) ∧
    (memWf s.hmem = true → memWf (txAdmit n ds s).hmem = true) := by
  simp +contextual [txAdmit]

@[simp] theorem txRefuse_canonical (n st ds s) :
    (regsWf s.regs = true → regsWf (txRefuse n st ds s).regs = true) ∧
    (memWf s.hmem = true → memWf (txRefuse n st ds s).hmem = true) := by
  simp +contextual [txRefuse]

@[simp] theorem txServe_canonical (n s) :
    (regsWf s.regs = true → regsWf (txServe n s).regs = true) ∧
    (memWf s.hmem = true → memWf (txServe n s).hmem = true) := by
  grind [txServe, txRefuse_canonical, takeTurn_keeps, countEmpty_canonical, countEmpty_keeps, txAdmit_canonical]

@[simp] theorem recirculate_canonical (c ds ptr s) :
    (regsWf s.regs = true → regsWf (recirculate c ds ptr s).regs = true) ∧
    (memWf s.hmem = true → memWf (recirculate c ds ptr s).hmem = true) := by
  simp +contextual [recirculate]

@[simp] theorem tcmdImageWrite_canonical (off v s) :
    regsWf s.regs = true → regsWf (tcmdImageWrite off v s).regs = true := by
  unfold tcmdImageWrite; split <;> simp +contextual [*]

@[simp] theorem putWord_canonical (view h v s) :
    regsWf s.regs = true → regsWf (putWord view h v s).regs = true :=
  regStore_regsWf _ _ _

theorem writePair_regsWf {put : RegHit → Nat → State → State} (stored : ∀ h n u, regsWf u.regs = true → regsWf (put h n u).regs = true)
    (h v s) (canon : regsWf s.regs = true) : regsWf (writePair h v put s).regs = true := by
  unfold writePair
  split
  · exact stored _ _ _ (stored _ _ _ (by simpa using canon))
  · simpa using canon
theorem writePair_hmem {put : RegHit → Nat → State → State} (stored : ∀ h n u, (put h n u).hmem = u.hmem)
    (h v s) : (writePair h v put s).hmem = s.hmem := by
  unfold writePair
  split <;> simp [stored]

@[simp] theorem putPlain_canonical (h v s) : regsWf s.regs = true → regsWf (putPlain h v s).regs = true := by
  intro canon
  unfold putPlain
  split
  · exact writePair_regsWf (putWord_canonical 0) _ _ _ canon
  · exact putWord_canonical _ _ _ _ canon

@[simp] theorem storeStaged_canonical (cls h v s) :
    regsWf s.regs = true → regsWf (storeStaged cls h v s).regs = true := by
  intro h; simp [storeStaged, h]

@[simp] theorem stagedWrite_canonical (h v s) : regsWf s.regs = true → regsWf (stagedWrite h v s).regs = true := by
  intro canon
  unfold stagedWrite
  split
  · exact stickRg_canonical _ _ _ canon
  · split
    · exact canon
    · split
      · exact writePair_regsWf (storeStaged_canonical _) _ _ _ canon
      · exact storeStaged_canonical _ _ _ _ canon

@[simp] theorem imageRegWrite_canonical (off v s) :
    regsWf s.regs = true → regsWf (imageRegWrite off v s).regs = true := by
  unfold imageRegWrite; split <;> simp +contextual [*]

@[simp] theorem earlyBack_canonical (c s) :
    regsWf s.regs = true → regsWf (earlyBack c s).regs = true := by
  grind [earlyBack, setPartition_canonical, setRg_canonical]

@[simp] theorem earlyRestore_canonical (old s) :
    regsWf s.regs = true → regsWf (earlyRestore old s).regs = true := by
  simp +contextual [earlyRestore]

@[simp] theorem undoGeneration_canonical (s) :
    (regsWf s.regs = true → regsWf (undoGeneration s).regs = true) ∧
    (memWf s.hmem = true → memWf (undoGeneration s).hmem = true) := by
  simp only [undoGeneration]
  split
  · exact ⟨id, id⟩
  · constructor
    · intro h
      apply useFollows_regsWf
      dsimp only
      exact regsWf_stores Prod.fst Prod.snd _ (regsWf_filter _ h)
    · intro h
      apply useFollows_memWf
      exact h

@[simp] theorem undoImage_canonical (old s) :
    (regsWf s.regs = true → regsWf (undoImage old s).regs = true) ∧
    (memWf s.hmem = true → memWf (undoImage old s).hmem = true) := by
  grind [undoImage, earlyRestore_canonical, earlyRestore_keeps, unstage_canonical, unstage_keeps, undoGeneration_canonical, undoCommands_keeps]

@[simp] theorem storeImage_canonical (slot dmaOk s) :
    regsWf s.regs = true → regsWf (storeImage slot dmaOk s).regs = true := by
  unfold storeImage; dsimp only; (repeat' split) <;> simp +contextual [*]

@[simp] theorem mgmtAlarm_canonical (code detail s) :
    regsWf s.regs = true → regsWf (mgmtAlarm code detail s).regs = true := by
  intro h; simp [mgmtAlarm, h]

@[simp] theorem sensorAlarm_canonical (t i s) :
    regsWf s.regs = true → regsWf (sensorAlarm t i s).regs = true := by
  unfold sensorAlarm; dsimp only; (repeat' split) <;> simp +contextual [*]

@[simp] theorem takeSample_canonical (t s) :
    (regsWf s.regs = true → regsWf (takeSample t s).regs = true) ∧
    (memWf s.hmem = true → memWf (takeSample t s).hmem = true) := by
  grind [takeSample, sensorAlarm_canonical, sensorAlarm_keeps, parkThrottle_keeps, stackRefresh_keeps, fatal_canonical, readStacks_keeps, whenDo, forAll_regsWf, forAll_memWf]

@[simp] theorem leaveOut_canonical (kind idx s) :
    regsWf s.regs = true → regsWf (leaveOut kind idx s).regs = true := by
  intro h; simp [leaveOut, h]

@[simp] theorem leaveOutQuad_canonical (q s) :
    regsWf s.regs = true → regsWf (leaveOutQuad q s).regs = true := by
  intro h; simp [leaveOutQuad, h]

@[simp] theorem leaveOutSlice_canonical (sl s) :
    regsWf s.regs = true → regsWf (leaveOutSlice sl s).regs = true := by
  grind [leaveOutSlice, leaveOut_canonical, leaveOutQuad_canonical, forAll_regsWf]

@[simp] theorem islandOut_canonical (i s) :
    regsWf s.regs = true → regsWf (islandOut i s).regs = true := by
  grind [islandOut, leaveOut_canonical, leaveOutQuad_canonical, leaveOutSlice_canonical, wakeLoseChannel_keeps, forAll_regsWf]

@[simp] theorem groupOut_canonical (g s) :
    regsWf s.regs = true → regsWf (groupOut g s).regs = true := by
  grind [groupOut, leaveOut_canonical, forAll_regsWf]

@[simp] theorem stackOut_canonical (h s) :
    regsWf s.regs = true → regsWf (stackOut h s).regs = true := by
  unfold stackOut; split <;> simp +contextual [*]

@[simp] theorem kindOut_canonical (kind s) :
    regsWf s.regs = true → regsWf (kindOut kind s).regs = true := by
  simp +contextual [kindOut]

@[simp] theorem applyHealth_canonical (s) :
    regsWf s.regs = true → regsWf (applyHealth s).regs = true := by
  grind [applyHealth, islandOut_canonical, kindOut_canonical, groupOut_canonical, budgetNote_canonical, stackOut_canonical, forAll_regsWf]

@[simp] theorem refitPartition_canonical (s) :
    regsWf s.regs = true → regsWf (refitPartition s).regs = true := by
  unfold refitPartition; dsimp only; (repeat' split) <;> simp +contextual [*]

theorem endInStage_state (run s) : (endInStage run s).regs = (linksEval (setMode .stage 0 0 s.now s)).regs ∧
    (endInStage run s).hmem = (linksEval (setMode .stage 0 0 s.now s)).hmem := by
  simp [endInStage]

@[simp] theorem endInStage_canonical (run s) :
    (regsWf s.regs = true → regsWf (endInStage run s).regs = true) ∧
    (memWf s.hmem = true → memWf (endInStage run s).hmem = true) := by
  rw [(endInStage_state run s).1, (endInStage_state run s).2]
  exact ⟨fun h => (linksEval_canonical _).1 (setMode_canonical _ _ _ _ _ h), fun h => (linksEval_canonical _).2 (by simpa using h)⟩

@[simp] theorem mramRead_canonical (ok corrected s) :
    regsWf s.regs = true → regsWf (mramRead ok corrected s).regs = true := by
  grind [mramRead, ok_keeps, addRg_canonical, incRg_canonical, whenDo]

@[simp] theorem clearWord_canonical (h s) :
    regsWf s.regs = true → regsWf (clearWord h s).regs = true := by
  intro h; simp [clearWord, h]

@[simp] theorem readWord_canonical (off path h s) :
    regsWf s.regs = true → regsWf (readWord off path h s).regs = true := by
  grind [readWord, answer_keeps, clearWord_canonical, whenDo]

@[simp] theorem accessError_canonical (a s) :
    regsWf s.regs = true → regsWf (accessError a s).regs = true := by
  unfold accessError; dsimp only; (repeat' split) <;> simp +contextual [*]

@[simp] theorem writeRingReg_canonical (k h w s) :
    regsWf s.regs = true → regsWf (writeRingReg k h w s).regs = true := by
  unfold writeRingReg; dsimp only; (repeat' split) <;> simp +contextual [*]

@[simp] theorem writeRwl_canonical (h w s) :
    regsWf s.regs = true → regsWf (writeRwl h w s).regs = true := by
  unfold writeRwl; split <;> simp +contextual [*]

@[simp] theorem writeSvcCfg_canonical (w s) :
    regsWf s.regs = true → regsWf (writeSvcCfg w s).regs = true := by
  intro h; simp [writeSvcCfg, h]

@[simp] theorem writeAutoCfg_canonical (w s) :
    regsWf s.regs = true → regsWf (writeAutoCfg w s).regs = true := by
  intro h; simp [writeAutoCfg, h]

@[simp] theorem writeMsix_canonical (off w s) :
    regsWf s.regs = true → regsWf (writeMsix off w s).regs = true := by
  unfold writeMsix; dsimp only; (repeat' split) <;> simp +contextual [*]

@[simp] theorem writeWardenWords_canonical (p off f s) :
    regsWf s.regs = true → regsWf (writeWardenWords p off f s).regs = true := by
  unfold writeWardenWords; split <;> simp +contextual [*]

end Sys2Proof.Proofs
end

section
/-! PROOFS. What every command carries from a state to the next: the queue of waiting commands and the two canonical forms; and that
each command of a table does so. -/

namespace Sys2Proof.Proofs

open Sys2Proof Sys2Proof.Machine Sys2Proof.Safety Sys2Proof.Laws

/-- What every command carries from a state to the next: the waiting queue as it is, and the canonical form of the stored registers and
of host memory. -/
structure Carries (s t : State) : Prop where
  queue : t.pending = s.pending
  regs : regsWf s.regs = true → regsWf t.regs = true
  hmem : memWf s.hmem = true → memWf t.hmem = true

theorem Carries.refl (s : State) : Carries s s := ⟨rfl, id, id⟩

theorem Carries.trans {s t u : State} (h : Carries s t) (k : Carries t u) : Carries s u :=
  ⟨k.queue.trans h.queue, k.regs ∘ h.regs, k.hmem ∘ h.hmem⟩

theorem strWrite_carries (a s) : Carries s (Machine.strWrite.body a s).st := by
  simp only [Machine.strWrite]
  (repeat' split) <;> constructor <;> simp +contextual

theorem strRead_carries (a s) : Carries s (Machine.strRead.body a s).st := by
  simp only [Machine.strRead]
  (repeat' split) <;> constructor <;> simp +contextual

theorem clsWrite_carries (a s) : Carries s (Machine.clsWrite.body a s).st := by
  simp only [Machine.clsWrite]
  (repeat' split) <;> constructor <;> simp +contextual

theorem clsInvalidate_carries (a s) : Carries s (Machine.clsInvalidate.body a s).st := by
  simp only [Machine.clsInvalidate]
  (repeat' split) <;> constructor <;> simp +contextual

theorem clsRead_carries (a s) : Carries s (Machine.clsRead.body a s).st := by
  simp only [Machine.clsRead]
  (repeat' split) <;> constructor <;> simp +contextual

theorem clsReadHits_carries (a s) : Carries s (Machine.clsReadHits.body a s).st := by
  simp only [Machine.clsReadHits]
  (repeat' split) <;> constructor <;> simp +contextual

theorem hgtWrite_carries (a s) : Carries s (Machine.hgtWrite.body a s).st := by
  simp only [Machine.hgtWrite]
  (repeat' split) <;> constructor <;> simp +contextual

theorem hgtRead_carries (a s) : Carries s (Machine.hgtRead.body a s).st := by
  simp only [Machine.hgtRead]
  (repeat' split) <;> constructor <;> simp +contextual

theorem hgtReadCounters_carries (a s) : Carries s (Machine.hgtReadCounters.body a s).st := by
  simp only [Machine.hgtReadCounters]
  (repeat' split) <;> constructor <;> simp +contextual

theorem hgtUnblock_carries (a s) : Carries s (Machine.hgtUnblock.body a s).st := by
  simp only [Machine.hgtUnblock]
  (repeat' split) <;> constructor <;> simp +contextual

theorem hgtResetRcv_carries (a s) : Carries s (Machine.hgtResetRcv.body a s).st := by
  simp only [Machine.hgtResetRcv]
  (repeat' split) <;> constructor <;> simp +contextual

theorem fdbInsert_carries (a s) : Carries s (Machine.fdbInsert.body a s).st := by
  simp only [Machine.fdbInsert]
  split
  · exact .refl s
  · split
    · exact .refl s
    · split
      · exact .refl s
      · next staged =>
        have kept := stageEntry_keeps _ _ _ staged
        simp only at kept
        constructor <;> simp +contextual [okWith, kept]

theorem fdbDelete_carries (a s) : Carries s (Machine.fdbDelete.body a s).st := by
  simp only [Machine.fdbDelete]
  (repeat' split) <;> constructor <;> simp +contextual

theorem fdbLookup_carries (a s) : Carries s (Machine.fdbLookup.body a s).st := by
  simp only [Machine.fdbLookup]
  (repeat' split) <;> constructor <;> simp +contextual

theorem fdbRead_carries (a s) : Carries s (Machine.fdbRead.body a s).st := by
  simp only [Machine.fdbRead]
  (repeat' split) <;> constructor <;> simp +contextual

theorem fdbFlush_carries (a s) : Carries s (Machine.fdbFlush.body a s).st := by
  simp only [Machine.fdbFlush]
  constructor <;> simp +contextual

theorem fdbDump_carries (a s) : Carries s (Machine.fdbDump.body a s).st := by
  simp only [Machine.fdbDump]
  (repeat' split) <;> constructor <;> simp +contextual

theorem lpmInsert_carries (a s) : Carries s (Machine.lpmInsert.body a s).st := by
  simp only [Machine.lpmInsert]
  (repeat' split) <;> constructor <;> simp +contextual

theorem lpmDelete_carries (a s) : Carries s (Machine.lpmDelete.body a s).st := by
  simp only [Machine.lpmDelete]
  (repeat' split) <;> constructor <;> simp +contextual

theorem lpmLookup_carries (a s) : Carries s (Machine.lpmLookup.body a s).st := by
  simp only [Machine.lpmLookup]
  (repeat' split) <;> constructor <;> simp +contextual

theorem lpmMatch_carries (a s) : Carries s (Machine.lpmMatch.body a s).st := by
  simp only [Machine.lpmMatch]
  (repeat' split) <;> constructor <;> simp +contextual

theorem nhpWrite_carries (a s) : Carries s (Machine.nhpWrite.body a s).st := by
  simp only [Machine.nhpWrite]
  (repeat' split) <;> constructor <;> simp +contextual

theorem nhpRead_carries (a s) : Carries s (Machine.nhpRead.body a s).st := by
  simp only [Machine.nhpRead]
  (repeat' split) <;> constructor <;> simp +contextual

theorem nhpWriteGroup_carries (a s) : Carries s (Machine.nhpWriteGroup.body a s).st := by
  simp only [Machine.nhpWriteGroup]
  (repeat' split) <;> constructor <;> simp +contextual

theorem nhpReadGroup_carries (a s) : Carries s (Machine.nhpReadGroup.body a s).st := by
  simp only [Machine.nhpReadGroup]
  (repeat' split) <;> constructor <;> simp +contextual

theorem nhpReadBuckets_carries (a s) : Carries s (Machine.nhpReadBuckets.body a s).st := by
  simp only [Machine.nhpReadBuckets]
  (repeat' split) <;> constructor <;> simp +contextual

theorem mcgWrite_carries (a s) : Carries s (Machine.mcgWrite.body a s).st := by
  simp only [Machine.mcgWrite]
  (repeat' split) <;> constructor <;> simp +contextual

theorem mcgInvalidate_carries (a s) : Carries s (Machine.mcgInvalidate.body a s).st := by
  simp only [Machine.mcgInvalidate]
  (repeat' split) <;> constructor <;> simp +contextual

theorem mcgRead_carries (a s) : Carries s (Machine.mcgRead.body a s).st := by
  simp only [Machine.mcgRead]
  (repeat' split) <;> constructor <;> simp +contextual

theorem mcgWriteRun_carries (a s) : Carries s (Machine.mcgWriteRun.body a s).st := by
  simp only [Machine.mcgWriteRun]
  (repeat' split) <;> constructor <;> simp +contextual

/-- The checks of ENG's changes carry what the change behind them carries (R377, R389). -/
theorem engGate_carries (w : Nat) {f : State → CmdOut} {s : State} (carries : Carries s (f s).st) :
    Carries s (engGate w f s).st := by
  unfold engGate
  split
  · exact .refl s
  · split
    · exact .refl s
    · exact carries

theorem engLoad_carries (a s) : Carries s (Machine.engLoad.body a s).st := by
  refine engGate_carries _ ?_
  dsimp only
  (repeat' split) <;> exact ⟨rfl, id, id⟩

theorem engUnload_carries (a s) : Carries s (Machine.engUnload.body a s).st := by
  refine engGate_carries _ ?_
  dsimp only
  split <;> exact ⟨rfl, id, id⟩

theorem engRead_carries (a s) : Carries s (Machine.engRead.body a s).st := by
  simp only [Machine.engRead]
  (repeat' split) <;> constructor <;> simp +contextual

theorem engTblWrite_carries (a s) : Carries s (Machine.engTblWrite.body a s).st := by
  simp only [Machine.engTblWrite]
  (repeat' split) <;> constructor <;> simp +contextual

theorem engTblRead_carries (a s) : Carries s (Machine.engTblRead.body a s).st := by
  simp only [Machine.engTblRead]
  (repeat' split) <;> constructor <;> simp +contextual

theorem engEsWrite_carries (a s) : Carries s (Machine.engEsWrite.body a s).st := by
  simp only [Machine.engEsWrite]
  (repeat' split) <;> constructor <;> simp +contextual

theorem engEsRead_carries (a s) : Carries s (Machine.engEsRead.body a s).st := by
  simp only [Machine.engEsRead]
  (repeat' split) <;> constructor <;> simp +contextual

theorem bpmSnapshot_carries (a s) : Carries s (Machine.bpmSnapshot.body a s).st := by
  simp only [Machine.bpmSnapshot]
  constructor <;> simp +contextual

theorem bpmReclaim_carries (a s) : Carries s (Machine.bpmReclaim.body a s).st := by
  have copies (x : Frame) (l : List Nat) (u : State) : Carries u (forAll (reclaimedCopy x) l u) :=
    ⟨by simp, forAll_regsWf _ (reclaimedCopy_canonical x) l u, by simp⟩
  have freed (f : Nat) (u : State) : Carries u (discardFrame f 0x16 u) :=
    ⟨by simp, (discardFrame_canonical _ _ _).1, (discardFrame_canonical _ _ _).2⟩
  have told (p n : Nat) (u : State) : Carries u (incRg R.bpmReclaimed (emitBuffer 4 0x52 p 0 n 0 u)) :=
    ⟨by simp, fun h => by simp [h], by simp⟩
  simp only [Machine.bpmReclaim]
  split
  · exact .refl s
  · next f x _ =>
    split
    · exact .refl s
    · have emptied : Carries s (modFrame f (fun y => { y with holders := [] }) s) := ⟨by simp, by simp, by simp⟩
      obtain ⟨q, r, m⟩ := ((emptied.trans (copies x x.holders _)).trans (freed f _)).trans (told ((x.chain.head?).getD 0) x.chain.length _)
      exact ⟨q, r, m⟩

theorem bpmReadRecord_carries (a s) : Carries s (Machine.bpmReadRecord.body a s).st := by
  simp only [Machine.bpmReadRecord]
  (repeat' split) <;> constructor <;> simp +contextual

theorem bpmLeakList_carries (a s) : Carries s (Machine.bpmLeakList.body a s).st := by
  simp only [Machine.bpmLeakList]
  split <;> exact .refl s

theorem bpmAuditNow_carries (a s) : Carries s (Machine.bpmAuditNow.body a s).st := by
  simp only [Machine.bpmAuditNow]
  constructor <;> simp +contextual

theorem bpmReadAccount_carries (a s) : Carries s (Machine.bpmReadAccount.body a s).st := by
  simp only [Machine.bpmReadAccount]
  (repeat' split) <;> constructor <;> simp +contextual

theorem svcSetState_carries (a s) : Carries s (Machine.svcSetState.body a s).st := by
  have stopped (c : Bool) (kind idx : Nat) : Carries s (whenDo c (stopTests kind idx) s) :=
    ⟨by simp, whenDo_regsWf _ (fun u => (stopTests_canonical _ _ u).1) s, whenDo_memWf _ (fun u => (stopTests_canonical _ _ u).2) s⟩
  have entered (kind idx st : Nat) (u : State) : Carries u (setUnit kind idx st u) :=
    ⟨by simp, setUnit_canonical _ _ _ _, by simp⟩
  simp only [Machine.svcSetState]
  split
  · exact .refl s
  split
  · exact .refl s
  split
  · exact .refl s
  split
  · constructor <;> simp +contextual
  split
  · exact .refl s
  split
  · exact .refl s
  split
  · exact (stopped _ _ _).trans (entered _ _ _ _)
  split
  · exact .refl s
  split
  · exact .refl s
  · constructor <;> simp +contextual

theorem svcRetire_carries (a s) : Carries s (Machine.svcRetire.body a s).st := by
  simp only [Machine.svcRetire]
  (repeat' split) <;> constructor <;> simp +contextual

theorem svcTest_carries (a s) : Carries s (Machine.svcTest.body a s).st := by
  simp only [Machine.svcTest]
  (repeat' split) <;> constructor <;> simp +contextual

theorem svcHealthWrite_carries (a s) : Carries s (Machine.svcHealthWrite.body a s).st := by
  simp only [Machine.svcHealthWrite]
  (repeat' split) <;> constructor <;> simp +contextual

theorem svcReadState_carries (a s) : Carries s (Machine.svcReadState.body a s).st := by
  simp only [Machine.svcReadState]
  (repeat' split) <;> constructor <;> simp +contextual

theorem genCommitCmd_carries (a s) : Carries s (Machine.genCommitCmd.body a s).st := by
  simp only [Machine.genCommitCmd]
  (repeat' split) <;> constructor <;> simp +contextual

theorem genDiscardCmd_carries (a s) : Carries s (Machine.genDiscardCmd.body a s).st := by
  simp only [Machine.genDiscardCmd]
  (repeat' split) <;> constructor <;> simp +contextual

theorem genStatusCmd_carries (a s) : Carries s (Machine.genStatusCmd.body a s).st := by
  simp only [Machine.genStatusCmd]
  constructor <;> simp +contextual

theorem gclWriteEntries_carries (a s) : Carries s (Machine.gclWriteEntries.body a s).st := by
  simp only [Machine.gclWriteEntries]
  (repeat' split) <;> constructor <;> simp +contextual

theorem gclReadEntries_carries (a s) : Carries s (Machine.gclReadEntries.body a s).st := by
  simp only [Machine.gclReadEntries]
  (repeat' split) <;> constructor <;> simp +contextual

theorem schReadCounters_carries (a s) : Carries s (Machine.schReadCounters.body a s).st := by
  simp only [Machine.schReadCounters]
  (repeat' split) <;> constructor <;> simp +contextual

theorem recFreezeCmd_carries (a s) : Carries s (Machine.recFreezeCmd.body a s).st := by
  have frozen : Carries s (freezeNow s).1 := ⟨by simp, freezeNow_canonical s, by simp⟩
  simp only [Machine.recFreezeCmd]
  split
  · next made => rw [made] at frozen; exact frozen
  · next made => rw [made] at frozen; exact frozen

theorem releaseRegion_carries {k : Nat} {s t : State} (freed : releaseRegion k s = some t) : Carries s t := by
  unfold releaseRegion at freed
  split at freed
  · cases freed
  · cases freed
    constructor <;> simp +contextual

theorem recReleaseCmd_carries (a s) : Carries s (Machine.recReleaseCmd.body a s).st := by
  simp only [Machine.recReleaseCmd]
  split
  · next freed => exact releaseRegion_carries freed
  · exact .refl s

theorem recSealCmd_carries (a s) : Carries s (Machine.recSealCmd.body a s).st := by
  simp only [Machine.recSealCmd]
  constructor <;> simp +contextual

theorem recVerifyCmd_carries (a s) : Carries s (Machine.recVerifyCmd.body a s).st := by
  simp only [Machine.recVerifyCmd]
  (repeat' split) <;> constructor <;> simp +contextual

theorem recReadLossCmd_carries (a s) : Carries s (Machine.recReadLossCmd.body a s).st := by
  simp only [Machine.recReadLossCmd]
  (repeat' split) <;> constructor <;> simp +contextual

end Sys2Proof.Proofs
end

section
/-! PROOFS. The course that all table commands take (R97, R337) carries what its target does. -/

namespace Sys2Proof.Proofs

open Sys2Proof Sys2Proof.Machine Sys2Proof.Safety Sys2Proof.Laws

theorem Carries.whenDo {f : State → State} (c : Bool) {s t : State} (h : Carries s t) (k : ∀ u, Carries u (f u)) :
    Carries s (whenDo c f t) := by
  cases c
  · exact h
  · exact h.trans (k t)

theorem forAll_carries {α : Type} {f : α → State → State} (k : ∀ a u, Carries u (f a u)) : ∀ (l : List α) (s : State),
    Carries s (forAll f l s)
  | [], s => .refl s
  | a :: l, s => (k a s).trans (forAll_carries k l _)

/-- A command's target carries the state, whoever asks. -/
def SpecCarries (q : CmdSpec) : Prop := ∀ a s, Carries s (q.body a s).st

theorem runSpec_carries {q : CmdSpec} (target : SpecCarries q) (a : Ask) (s : State) : Carries s (runSpec q a s).st := by
  have bufRead : Carries s (readBuf q.form a s).2 := ⟨by simp, readBuf_canonical _ _ _, by simp⟩
  have body := bufRead.trans (target { a with buf := (readBuf q.form a s).1 } (readBuf q.form a s).2)
  simp only [runSpec]
  generalize q.body { a with buf := (readBuf q.form a s).1 } (readBuf q.form a s).2 = o at body ⊢
  have changed : Carries s (if (q.changes && o.status == some 0) = true then
      { o with st := { o.st with gen := { o.st.gen with dirty := true } } } else o : CmdOut).st := by
    split
    · exact ⟨body.queue, body.regs, body.hmem⟩
    · exact body
  generalize (if (q.changes && o.status == some 0) = true then
    { o with st := { o.st with gen := { o.st.gen with dirty := true } } } else o : CmdOut) = o1 at changed ⊢
  split
  · exact .refl s
  split
  · exact .refl s
  split
  · exact .refl s
  split
  · exact .refl s
  split
  · split
    · exact changed
    split
    · exact changed
    split
    · exact changed
    · exact changed.trans ⟨by simp, (dmaWrite_canonical _ _ _).1, (dmaWrite_canonical _ _ _).2⟩
  · exact changed

theorem runAnswer_carries {q : CmdSpec} (target : SpecCarries q) (w : Waiter) (c : Cmd) (s : State) :
    Carries s (runAnswer q w c s) := by
  have run := runSpec_carries target ⟨w, c, []⟩ s
  simp only [runAnswer]
  split
  · exact run
  · refine .whenDo _ (run.trans ?_) fun u => ?_
    · constructor <;> simp +contextual
    · constructor <;> simp +contextual

theorem stickHeld_carries (c : Bool) (h : List Held) (s : State) :
    Carries s (whenDo c (stickRg R.genEvt 2) { s with gen := { s.gen with held := h } }) :=
  .whenDo _ (by exact ⟨rfl, id, id⟩) fun u => by constructor <;> simp +contextual

theorem takeCmd_carries {q : CmdSpec} (target : SpecCarries q) (w : Waiter) (c : Cmd) (s : State) :
    Carries s (takeCmd q w c s) := by
  simp only [takeCmd]
  split
  · exact stickHeld_carries _ _ s
  · exact runAnswer_carries target w c s

theorem answerUnknown_carries (n m : Nat) (s : State) : Carries s (answerUnknown n m s) :=
  ⟨by simp, (answerUnknown_canonical _ _ _).1, (answerUnknown_canonical _ _ _).2⟩

theorem answerCmd_carries (w : Waiter) (n : Nat) (r : List Byte) (s : State) : Carries s (answerCmd w n r s) :=
  ⟨by simp, (answerCmd_canonical _ _ _ _).1, (answerCmd_canonical _ _ _ _).2⟩

theorem runCmd_carries {q : CmdSpec} (target : SpecCarries q) (c : Cmd) (s : State) : Carries s (runCmd q c s) := by
  have wrote (ws : List (Nat × Byte)) : Carries s (hostWrote ws s) := ⟨rfl, id, memApply_memWf _ _⟩
  have fetched (n : Nat) (u : State) : Carries u (pmuEv 29 2 none none 32 (fetchSlots .cmd n 1 none u)) := by
    constructor <;> simp +contextual
  have stored (ws : List Nat) (u : State) : Carries u (forAll (fun i s => setRg (R.fdbTcmd i) (nth 0 ws i) s) (List.range 8) u) :=
    forAll_carries (f := fun i s => setRg (R.fdbTcmd i) (nth 0 ws i) s) (fun i u => ⟨rfl, setRg_canonical _ _ _, id⟩) _ u
  simp only [runCmd]
  split
  · split
    · exact wrote _
    split
    · exact (((wrote _).trans (fetched _ _)).trans (takeCmd_carries target _ c _)).trans (answerUnknown_carries _ _ _)
    split
    · exact ((wrote _).trans (fetched _ _)).trans (answerCmd_carries _ _ _ _)
    · exact wrote _
  · split
    · exact wrote _
    split
    · exact (wrote _).trans ⟨by simp, stickRg_canonical _ _ _, by simp⟩
    · refine Carries.trans ?_ (takeCmd_carries target _ c _)
      obtain ⟨pend, regs, hmem⟩ := (wrote ((c.long.map (·.host)).getD [])).trans (stored (tcmdWords q c) _)
      exact ⟨pend, regs, hmem⟩
  · exact .refl s

end Sys2Proof.Proofs
end

section
/-! PROOFS. Commands whose effect is a shared operation, or a few of them: each runs to a next state and carries. -/

namespace Sys2Proof.Proofs

open Sys2Proof Sys2Proof.Machine Sys2Proof.Safety Sys2Proof.Laws

/-- The outcome is a next state, and it carries what the state has. -/
def Carried (s : State) (o : Host.Outcome State Fault Refusal) : Prop := ∃ t, o = .next t ∧ Carries s t

theorem whenDo_carries {c : Bool} {f : State → State} {s : State} (k : ∀ u, Carries u (f u)) : Carries s (whenDo c f s) :=
  Carries.whenDo c (.refl s) k

theorem pf0Write_carries {off : Nat} {f : State → State} {s : State} (k : ∀ u, Carries u (f u)) : Carries s (pf0Write off f s) :=
  ⟨by simp [fun u => (k u).queue], pf0Write_regsWf off (fun u => (k u).regs) s, pf0Write_memWf off (fun u => (k u).hmem) s⟩

theorem execBucketMove_carried (set group b s) : Carried s (execBucketMove set group b s) := by
  unfold execBucketMove
  refine ⟨_, rfl, ?_⟩
  constructor <;> simp +contextual

theorem execArm_carried (k n seen armBit s) : Carried s (execArm k n seen armBit s) := by
  unfold execArm
  refine ⟨_, rfl, ?_⟩
  constructor <;> simp +contextual

theorem execRingEnable_carried (k n v s) : Carried s (execRingEnable k n v s) := by
  unfold execRingEnable
  refine ⟨_, rfl, ?_⟩
  refine whenDo_carries fun u => ?_
  split <;> constructor <;> simp +contextual

theorem execRingDisable_carried (k n fetched s) : Carried s (execRingDisable k n fetched s) := by
  unfold execRingDisable
  refine ⟨_, rfl, ?_⟩
  constructor <;> simp +contextual

theorem execRingStopped_carried (k n s) : Carried s (execRingStopped k n s) := by
  unfold execRingStopped
  refine ⟨_, rfl, ?_⟩
  constructor <;> simp +contextual

theorem execDmaError_carried (k n fetched bad s) : Carried s (execDmaError k n fetched bad s) := by
  unfold execDmaError
  refine ⟨_, rfl, ?_⟩
  refine whenDo_carries fun u => ?_
  split <;> constructor <;> simp +contextual

theorem execEventRecordWrite_carried (n s) : Carried s (execEventRecordWrite n s) := by
  unfold execEventRecordWrite
  refine ⟨_, rfl, ?_⟩
  (repeat' split) <;> constructor <;> simp +contextual

theorem execPciePerstNLow_carried (s) : Carried s (execPciePerstNLow s) := by
  unfold execPciePerstNLow
  refine ⟨_, rfl, ?_⟩
  constructor <;> simp +contextual

theorem execPcieLinkUp_carried (width speed s) : Carried s (execPcieLinkUp width speed s) := by
  unfold execPcieLinkUp
  refine ⟨_, rfl, ?_⟩
  split <;> constructor <;> simp +contextual

theorem execPcieLinkLoss_carried (s) : Carried s (execPcieLinkLoss s) := by
  unfold execPcieLinkLoss
  refine ⟨_, rfl, ?_⟩
  constructor <;> simp +contextual

theorem execFlrPf0_carried (s) : Carried s (execFlrPf0 s) := by
  unfold execFlrPf0
  refine ⟨_, rfl, ?_⟩
  constructor <;> simp +contextual

theorem execNewNonce_carried (s) : Carried s (execNewNonce s) := by
  unfold execNewNonce
  refine ⟨_, rfl, ?_⟩
  constructor <;> simp +contextual

theorem execStage_carried (item count s) : Carried s (execStage item count s) := by
  unfold execStage
  refine ⟨_, rfl, ?_⟩
  refine whenDo_carries fun u => ?_
  constructor <;> simp +contextual

theorem execWithdraw_carried (s) : Carried s (execWithdraw s) := by
  unfold execWithdraw
  refine ⟨_, rfl, ?_⟩
  refine whenDo_carries fun u => ?_
  constructor <;> simp +contextual

theorem execProvisionOpKey_carried (s) : Carried s (execProvisionOpKey s) := by
  unfold execProvisionOpKey
  refine ⟨_, rfl, ?_⟩
  constructor <;> simp +contextual

theorem execProtectWindowExpiry_carried (s) : Carried s (execProtectWindowExpiry s) := by
  unfold execProtectWindowExpiry
  refine ⟨_, rfl, ?_⟩
  split <;> constructor <;> simp +contextual

theorem execFlrPf1_carried (s) : Carried s (execFlrPf1 s) := by
  unfold execFlrPf1
  refine ⟨_, rfl, ?_⟩
  exact ⟨by grind [discardPending_keeps, expirePending_keeps, countFlr_keeps], by grind [discardPending_canonical, expirePending_canonical, countFlr_canonical], by grind [discardPending_keeps, expirePending_keeps, countFlr_keeps]⟩

theorem execResetNHigh_carried (st s) : Carried s (execResetNHigh st s) := by
  unfold execResetNHigh
  refine ⟨_, rfl, ?_⟩
  constructor <;> simp +contextual

theorem execFullResetTimeout_carried (st s) : Carried s (execFullResetTimeout st s) := by
  unfold execFullResetTimeout
  refine ⟨_, rfl, ?_⟩
  refine whenDo_carries fun u => ?_
  split <;> constructor <;> simp +contextual

theorem execFatalFault_carried (code island detail s) : Carried s (execFatalFault code island detail s) := by
  unfold execFatalFault
  refine ⟨_, rfl, ?_⟩
  constructor <;> simp +contextual

theorem execMgmtWatchdog_carried (s) : Carried s (execMgmtWatchdog s) := by
  unfold execMgmtWatchdog
  refine ⟨_, rfl, ?_⟩
  constructor <;> simp +contextual

theorem execFaultRecordWritten_carried (mramOk s) : Carried s (execFaultRecordWritten mramOk s) := by
  unfold execFaultRecordWritten
  refine ⟨_, rfl, ?_⟩
  dsimp only
  (repeat' split) <;> constructor <;> simp +contextual

theorem execWarmingComplete_carried (t s) : Carried s (execWarmingComplete t s) := by
  unfold execWarmingComplete
  refine ⟨_, rfl, ?_⟩
  constructor <;> simp +contextual

theorem execGoRun_carried (s) : Carried s (execGoRun s) := by
  unfold execGoRun
  refine ⟨_, rfl, ?_⟩
  constructor <;> simp +contextual

theorem execDrainToStage_carried (s) : Carried s (execDrainToStage s) := by
  unfold execDrainToStage
  refine ⟨_, rfl, ?_⟩
  constructor <;> simp +contextual

theorem execDrainToPark_carried (force s) : Carried s (execDrainToPark force s) := by
  unfold execDrainToPark
  refine ⟨_, rfl, ?_⟩
  constructor <;> simp +contextual

theorem execDrainComplete_carried (mramOk s) : Carried s (execDrainComplete mramOk s) := by
  unfold execDrainComplete
  refine ⟨_, rfl, ?_⟩
  refine whenDo_carries fun u => ?_
  split <;> constructor <;> simp +contextual

theorem execDateHintWrite_carried (high val s) : Carried s (execDateHintWrite high val s) := by
  unfold execDateHintWrite
  refine ⟨_, rfl, ?_⟩
  split <;> constructor <;> simp +contextual

theorem execTcamScrub_carried (i action bad s) : Carried s (execTcamScrub i action bad s) := by
  unfold execTcamScrub
  refine ⟨_, rfl, ?_⟩
  (repeat' split) <;> constructor <;> simp +contextual

theorem execTcamRepair_carried (i s) : Carried s (execTcamRepair i s) := by
  unfold execTcamRepair
  refine ⟨_, rfl, ?_⟩
  (repeat' split) <;> constructor <;> simp +contextual

theorem execHashConfigWrite_carried (seed v s) : Carried s (execHashConfigWrite seed v s) := by
  unfold execHashConfigWrite
  refine ⟨_, rfl, ?_⟩
  refine pf0Write_carries fun u => ?_
  constructor <;> simp +contextual

theorem execLearnRequest_carried (s) : Carried s (execLearnRequest s) := by
  unfold execLearnRequest
  refine ⟨_, rfl, ?_⟩
  constructor <;> simp +contextual

theorem execSeedWrite_carried (one v s) : Carried s (execSeedWrite one v s) := by
  unfold execSeedWrite
  refine ⟨_, rfl, ?_⟩
  refine pf0Write_carries fun u => ?_
  constructor <;> simp +contextual

theorem execTableScrub_carried (mem idx pair bad s) : Carried s (execTableScrub mem idx pair bad s) := by
  unfold execTableScrub
  refine ⟨_, rfl, ?_⟩
  constructor <;> simp +contextual

theorem execTableRepair_carried (mem idx sl s) : Carried s (execTableRepair mem idx sl s) := by
  unfold execTableRepair
  refine ⟨_, rfl, ?_⟩
  constructor <;> simp +contextual

theorem execLaneFailure_carried (p seen s) : Carried s (execLaneFailure p seen s) := by
  unfold execLaneFailure
  refine ⟨_, rfl, ?_⟩
  refine whenDo_carries fun u => ?_
  constructor <;> simp +contextual

theorem execSkpSend_carried (p s) : Carried s (execSkpSend p s) := by
  unfold execSkpSend
  refine ⟨_, rfl, ?_⟩
  refine whenDo_carries fun u => ?_
  constructor <;> simp +contextual

theorem execDskSend_carried (p s) : Carried s (execDskSend p s) := by
  unfold execDskSend
  refine ⟨_, rfl, ?_⟩
  refine whenDo_carries fun u => ?_
  split <;> constructor <;> simp +contextual

theorem execCrdSend_carried (p c s) : Carried s (execCrdSend p c s) := by
  unfold execCrdSend
  refine ⟨_, rfl, ?_⟩
  refine whenDo_carries fun u => ?_
  split <;> constructor <;> simp +contextual

theorem execTtmSend_carried (p s) : Carried s (execTtmSend p s) := by
  unfold execTtmSend
  refine ⟨_, rfl, ?_⟩
  refine whenDo_carries fun u => ?_
  constructor <;> simp +contextual

theorem execCycMarkSend_carried (p s) : Carried s (execCycMarkSend p s) := by
  unfold execCycMarkSend
  refine ⟨_, rfl, ?_⟩
  constructor <;> simp +contextual

theorem execTtmSeqRead_carried (_pt p s) : Carried s (execTtmSeqRead _pt p s) := by
  unfold execTtmSeqRead
  refine ⟨_, rfl, ?_⟩
  refine whenDo_carries fun u => ?_
  exact ⟨by grind [setRg_keeps], by grind [setRg_canonical], by grind [setRg_keeps]⟩

theorem execLosAssert_carried (ln s) : Carried s (execLosAssert ln s) := by
  unfold execLosAssert
  refine ⟨_, rfl, ?_⟩
  constructor <;> simp +contextual

theorem execLosClear_carried (ln s) : Carried s (execLosClear ln s) := by
  unfold execLosClear
  refine ⟨_, rfl, ?_⟩
  constructor <;> simp +contextual

theorem execLolAssert_carried (ln s) : Carried s (execLolAssert ln s) := by
  unfold execLolAssert
  refine ⟨_, rfl, ?_⟩
  constructor <;> simp +contextual

theorem execLolClear_carried (ln s) : Carried s (execLolClear ln s) := by
  unfold execLolClear
  refine ⟨_, rfl, ?_⟩
  constructor <;> simp +contextual

theorem execPcsLockChange_carried (ln lock hiBer errors s) : Carried s (execPcsLockChange ln lock hiBer errors s) := by
  unfold execPcsLockChange
  refine ⟨_, rfl, ?_⟩
  refine whenDo_carries fun u => ?_
  constructor <;> simp +contextual

theorem execLinkFaultSignalChange_carried (p faulty s) : Carried s (execLinkFaultSignalChange p faulty s) := by
  unfold execLinkFaultSignalChange
  refine ⟨_, rfl, ?_⟩
  constructor <;> simp +contextual

theorem execRefclkGoodChange_carried (k ppm s) : Carried s (execRefclkGoodChange k ppm s) := by
  unfold execRefclkGoodChange
  refine ⟨_, rfl, ?_⟩
  constructor <;> simp +contextual

theorem execRefclk00Measure_carried (ppm125 ppm156 s) : Carried s (execRefclk00Measure ppm125 ppm156 s) := by
  unfold execRefclk00Measure
  refine ⟨_, rfl, ?_⟩
  refine whenDo_carries fun u => ?_
  constructor <;> simp +contextual

theorem execLaneCommandComplete_carried (ln eye ok s) : Carried s (execLaneCommandComplete ln eye ok s) := by
  unfold execLaneCommandComplete
  refine ⟨_, rfl, ?_⟩
  (repeat' split) <;> constructor <;> simp +contextual

theorem execPauseHoldExpiry_carried (p prio s) : Carried s (execPauseHoldExpiry p prio s) := by
  unfold execPauseHoldExpiry
  refine ⟨_, rfl, ?_⟩
  split <;> constructor <;> simp +contextual

theorem execXoffRepeat_carried (p prio s) : Carried s (execXoffRepeat p prio s) := by
  unfold execXoffRepeat
  refine ⟨_, rfl, ?_⟩
  split <;> constructor <;> simp +contextual

theorem execLinkHoldExpiry_carried (p s) : Carried s (execLinkHoldExpiry p s) := by
  unfold execLinkHoldExpiry
  refine ⟨_, rfl, ?_⟩
  refine whenDo_carries fun u => ?_
  exact ⟨by grind [reach_keeps, stickRg_keeps, flushPort_keeps, modPort_keeps], by grind [reach_canonical, stickRg_canonical, flushPort_canonical, modPort_keeps], by grind [reach_keeps, stickRg_keeps, flushPort_canonical, modPort_keeps]⟩

theorem execVerifyMpacketReceive_carried (p respond s) : Carried s (execVerifyMpacketReceive p respond s) := by
  unfold execVerifyMpacketReceive
  refine ⟨_, rfl, ?_⟩
  constructor <;> simp +contextual

theorem execEngineFrameEntry_carried (e s) : Carried s (execEngineFrameEntry e s) := by
  unfold execEngineFrameEntry
  refine ⟨_, rfl, ?_⟩
  dsimp only
  (repeat' split) <;> constructor <;> simp +contextual

theorem execEslDataReturn_carried (e num corrected s) : Carried s (execEslDataReturn e num corrected s) := by
  unfold execEslDataReturn
  refine ⟨_, rfl, ?_⟩
  split <;> constructor <;> simp +contextual

theorem execGrowthCellRetry_carried (e num s) : Carried s (execGrowthCellRetry e num s) := by
  unfold execGrowthCellRetry
  refine ⟨_, rfl, ?_⟩
  split <;> constructor <;> simp +contextual

theorem execEngineWordRepair_carried (c kind key s) : Carried s (execEngineWordRepair c kind key s) := by
  unfold execEngineWordRepair
  refine ⟨_, rfl, ?_⟩
  constructor <;> simp +contextual

theorem execCopyEnqueue_carried (p s) : Carried s (execCopyEnqueue p s) := by
  unfold execCopyEnqueue
  refine ⟨_, rfl, ?_⟩
  split <;> constructor <;> simp +contextual

theorem execPauseFrameTransmit_carried (p s) : Carried s (execPauseFrameTransmit p s) := by
  unfold execPauseFrameTransmit
  refine ⟨_, rfl, ?_⟩
  refine whenDo_carries fun u => ?_
  exact ⟨by grind [startPause_keeps, mediumFree_keeps, preempt_keeps], by grind [startPause_canonical, mediumFree_canonical, preempt_canonical], by grind [startPause_keeps, mediumFree_keeps, preempt_keeps]⟩

theorem execCopyTransmitEnd_carried (p s) : Carried s (execCopyTransmitEnd p s) := by
  unfold execCopyTransmitEnd
  refine ⟨_, rfl, ?_⟩
  dsimp only
  (repeat' split) <;> constructor <;> simp +contextual

theorem execReleaseHandover_carried (p q s) : Carried s (execReleaseHandover p q s) := by
  unfold execReleaseHandover
  refine ⟨_, rfl, ?_⟩
  (repeat' split) <;> constructor <;> simp +contextual

theorem execReleaseLeadDeadline_carried (p q s) : Carried s (execReleaseLeadDeadline p q s) := by
  unfold execReleaseLeadDeadline
  refine ⟨_, rfl, ?_⟩
  split <;> constructor <;> simp +contextual

theorem execGateEntryChange_carried (p s) : Carried s (execGateEntryChange p s) := by
  unfold execGateEntryChange
  refine ⟨_, rfl, ?_⟩
  split <;> constructor <;> simp +contextual

theorem execAdmission_carried (s) : Carried s (execAdmission s) := by
  unfold execAdmission
  refine ⟨_, rfl, ?_⟩
  (repeat' split) <;> constructor <;> simp +contextual

theorem execFreeRequest_carried (ptr holder req s) : Carried s (execFreeRequest ptr holder req s) := by
  unfold execFreeRequest
  refine ⟨_, rfl, ?_⟩
  split <;> constructor <;> simp +contextual

theorem execSpillWriteComplete_carried (ch ecc s) : Carried s (execSpillWriteComplete ch ecc s) := by
  unfold execSpillWriteComplete
  refine ⟨_, rfl, ?_⟩
  exact ⟨by grind [returnCells_keeps, modFrame_keeps, cellError_keeps, judgePressure_keeps, hbmBurst_keeps, basinMoved_keeps, pmuEv_keeps, incRg64_keeps], by grind [returnCells_keeps, modFrame_keeps, cellError_canonical, judgePressure_keeps, hbmBurst_canonical, basinMoved_canonical, pmuEv_canonical, incRg64_canonical], by grind [returnCells_keeps, modFrame_keeps, cellError_canonical, judgePressure_keeps, hbmBurst_keeps, basinMoved_keeps, pmuEv_keeps, incRg64_keeps]⟩

theorem execRefillReturn_carried (p q s) : Carried s (execRefillReturn p q s) := by
  unfold execRefillReturn
  refine ⟨_, rfl, ?_⟩
  split <;> constructor <;> simp +contextual

theorem execLifetimeTick_carried (s) : Carried s (execLifetimeTick s) := by
  unfold execLifetimeTick
  refine ⟨_, rfl, ?_⟩
  constructor <;> simp +contextual

theorem execRiderVisit_carried (ptr broken ecc s) : Carried s (execRiderVisit ptr broken ecc s) := by
  unfold execRiderVisit
  refine ⟨_, rfl, ?_⟩
  dsimp only
  (repeat' split) <;> constructor <;> simp +contextual

theorem execAutoRetire_carried (idx errors s) : Carried s (execAutoRetire idx errors s) := by
  unfold execAutoRetire
  refine ⟨_, rfl, ?_⟩
  constructor <;> simp +contextual

theorem execHealthMapUpdate_carried (s) : Carried s (execHealthMapUpdate s) := by
  unfold execHealthMapUpdate
  refine ⟨_, rfl, ?_⟩
  (repeat' split) <;> constructor <;> simp +contextual

theorem execParkBatchStart_carried (figure power s) : Carried s (execParkBatchStart figure power s) := by
  unfold execParkBatchStart
  refine ⟨_, rfl, ?_⟩
  constructor <;> simp +contextual

theorem execParkWaveComplete_carried (ms peakW blocks fails s) : Carried s (execParkWaveComplete ms peakW blocks fails s) := by
  unfold execParkWaveComplete
  refine ⟨_, rfl, ?_⟩
  refine whenDo_carries fun u => ?_
  dsimp only
  (repeat' split) <;> constructor <;> simp +contextual

theorem execSet_carried (s) : Carried s (execSet s) := by
  unfold execSet
  refine ⟨_, rfl, ?_⟩
  refine pf0Write_carries fun u => ?_
  constructor <;> simp +contextual

theorem execStep_carried (s) : Carried s (execStep s) := by
  unfold execStep
  refine ⟨_, rfl, ?_⟩
  refine pf0Write_carries fun u => ?_
  constructor <;> simp +contextual

theorem execSlew_carried (s) : Carried s (execSlew s) := by
  unfold execSlew
  refine ⟨_, rfl, ?_⟩
  refine pf0Write_carries fun u => ?_
  constructor <;> simp +contextual

theorem execSlewAbort_carried (s) : Carried s (execSlewAbort s) := by
  unfold execSlewAbort
  refine ⟨_, rfl, ?_⟩
  refine pf0Write_carries fun u => ?_
  constructor <;> simp +contextual

theorem execTimeJumpEffect_carried (s) : Carried s (execTimeJumpEffect s) := by
  unfold execTimeJumpEffect
  refine ⟨_, rfl, ?_⟩
  split <;> constructor <;> simp +contextual

theorem execSlewComplete_carried (s) : Carried s (execSlewComplete s) := by
  unfold execSlewComplete
  refine ⟨_, rfl, ?_⟩
  split <;> constructor <;> simp +contextual

theorem execFreqAdjWrite_carried (high val s) : Carried s (execFreqAdjWrite high val s) := by
  unfold execFreqAdjWrite
  refine ⟨_, rfl, ?_⟩
  refine pf0Write_carries fun u => ?_
  (repeat' split) <;> constructor <;> simp +contextual

theorem execTimeFaultClear_carried (w s) : Carried s (execTimeFaultClear w s) := by
  unfold execTimeFaultClear
  refine ⟨_, rfl, ?_⟩
  refine pf0Write_carries fun u => ?_
  dsimp only
  (repeat' split) <;> constructor <;> simp +contextual

theorem execTimeBaseFault_carried (replica island s) : Carried s (execTimeBaseFault replica island s) := by
  unfold execTimeBaseFault
  refine ⟨_, rfl, ?_⟩
  split <;> constructor <;> simp +contextual

theorem execReferenceLost_carried (pps avg s) : Carried s (execReferenceLost pps avg s) := by
  unfold execReferenceLost
  refine ⟨_, rfl, ?_⟩
  refine whenDo_carries fun u => ?_
  constructor <;> simp +contextual

theorem execReferenceReturn_carried (pps s) : Carried s (execReferenceReturn pps s) := by
  unfold execReferenceReturn
  refine ⟨_, rfl, ?_⟩
  constructor <;> simp +contextual

theorem execHoldoverEnd_carried (s) : Carried s (execHoldoverEnd s) := by
  unfold execHoldoverEnd
  refine ⟨_, rfl, ?_⟩
  split <;> constructor <;> simp +contextual

theorem execLoopLocked_carried (adj s) : Carried s (execLoopLocked adj s) := by
  unfold execLoopLocked
  refine ⟨_, rfl, ?_⟩
  constructor <;> simp +contextual

theorem execPpsInEdge_carried (t pulse s) : Carried s (execPpsInEdge t pulse s) := by
  unfold execPpsInEdge
  refine ⟨_, rfl, ?_⟩
  refine whenDo_carries fun u => ?_
  dsimp only
  (repeat' split) <;> constructor <;> simp +contextual

theorem execPpsInRead_carried (_pt s) : Carried s (execPpsInRead _pt s) := by
  unfold execPpsInRead
  refine ⟨_, rfl, ?_⟩
  refine whenDo_carries fun u => ?_
  exact ⟨by grind [answer_keeps, setRg_keeps], by grind [answer_keeps, setRg_canonical], by grind [answer_keeps, setRg_keeps]⟩

theorem execPpsOutRise_carried (s) : Carried s (execPpsOutRise s) := by
  unfold execPpsOutRise
  refine ⟨_, rfl, ?_⟩
  constructor <;> simp +contextual

theorem execTioOutputStart_carried (u s) : Carried s (execTioOutputStart u s) := by
  unfold execTioOutputStart
  refine ⟨_, rfl, ?_⟩
  refine whenDo_carries fun u => ?_
  dsimp only
  (repeat' split) <;> constructor <;> simp +contextual

theorem execCaptureEdge_carried (u high t pulse s) : Carried s (execCaptureEdge u high t pulse s) := by
  unfold execCaptureEdge
  refine ⟨_, rfl, ?_⟩
  refine whenDo_carries fun u => ?_
  (repeat' split) <;> constructor <;> simp +contextual

theorem execTimeNowRead_carried (_pt s) : Carried s (execTimeNowRead _pt s) := by
  unfold execTimeNowRead
  refine ⟨_, rfl, ?_⟩
  refine whenDo_carries fun u => ?_
  constructor <;> simp +contextual

theorem execCycleEdge_carried (g s) : Carried s (execCycleEdge g s) := by
  unfold execCycleEdge
  refine ⟨_, rfl, ?_⟩
  constructor <;> simp +contextual

theorem execCommitDrained_carried (receiving s) : Carried s (execCommitDrained receiving s) := by
  unfold execCommitDrained
  refine ⟨_, rfl, ?_⟩
  constructor <;> simp +contextual

theorem execAutoCommitDue_carried (s) : Carried s (execAutoCommitDue s) := by
  unfold execAutoCommitDue
  refine ⟨_, rfl, ?_⟩
  constructor <;> simp +contextual

theorem execRecordWrite_carried (s) : Carried s (execRecordWrite s) := by
  unfold execRecordWrite
  refine ⟨_, rfl, ?_⟩
  refine whenDo_carries fun u => ?_
  split <;> constructor <;> simp +contextual

theorem execSealIdleExpiry_carried (s) : Carried s (execSealIdleExpiry s) := by
  unfold execSealIdleExpiry
  refine ⟨_, rfl, ?_⟩
  (repeat' split) <;> constructor <;> simp +contextual

theorem execFateWindowExpiry_carried (s) : Carried s (execFateWindowExpiry s) := by
  unfold execFateWindowExpiry
  refine ⟨_, rfl, ?_⟩
  constructor <;> simp +contextual

theorem execReadoutRequest_carried (s) : Carried s (execReadoutRequest s) := by
  unfold execReadoutRequest
  refine ⟨_, rfl, ?_⟩
  split <;> constructor <;> simp +contextual

theorem execHbmPartitionWrite_carried (w s) : Carried s (execHbmPartitionWrite w s) := by
  unfold execHbmPartitionWrite
  refine ⟨_, rfl, ?_⟩
  refine pf0Write_carries fun u => ?_
  constructor <;> simp +contextual

theorem execTxFrameAdmit_carried (n s) : Carried s (execTxFrameAdmit n s) := by
  unfold execTxFrameAdmit
  refine ⟨_, rfl, ?_⟩
  constructor <;> simp +contextual

theorem execStore_carried (slot host dmaOk s) : Carried s (execStore slot host dmaOk s) := by
  unfold execStore
  refine ⟨_, rfl, ?_⟩
  constructor <;> simp +contextual

theorem execMark_carried (slot s) : Carried s (execMark slot s) := by
  unfold execMark
  refine ⟨_, rfl, ?_⟩
  constructor <;> simp +contextual

theorem execUnmark_carried (slot s) : Carried s (execUnmark slot s) := by
  unfold execUnmark
  refine ⟨_, rfl, ?_⟩
  constructor <;> simp +contextual

theorem execErase_carried (slot s) : Carried s (execErase slot s) := by
  unfold execErase
  refine ⟨_, rfl, ?_⟩
  constructor <;> simp +contextual

theorem execCounterRead_carried (u k viaAlias s) : Carried s (execCounterRead u k viaAlias s) := by
  unfold execCounterRead
  refine ⟨_, rfl, ?_⟩
  (repeat' split) <;> constructor <;> simp +contextual

theorem execWindowPublish_carried (u k s) : Carried s (execWindowPublish u k s) := by
  unfold execWindowPublish
  refine ⟨_, rfl, ?_⟩
  (repeat' split) <;> constructor <;> simp +contextual

theorem execSuppliesInRange_carried (st s) : Carried s (execSuppliesInRange st s) := by
  unfold execSuppliesInRange
  refine ⟨_, rfl, ?_⟩
  refine whenDo_carries fun u => ?_
  constructor <;> simp +contextual

theorem execSupplyMonitorCheck_carried (rail uv outNs s) : Carried s (execSupplyMonitorCheck rail uv outNs s) := by
  unfold execSupplyMonitorCheck
  refine ⟨_, rfl, ?_⟩
  (repeat' split) <;> constructor <;> simp +contextual

theorem execTemperatureSample_carried (t s) : Carried s (execTemperatureSample t s) := by
  unfold execTemperatureSample
  refine ⟨_, rfl, ?_⟩
  constructor <;> simp +contextual

theorem execAccessError_carried (a s) : Carried s (execAccessError a s) := by
  unfold execAccessError
  refine ⟨_, rfl, ?_⟩
  constructor <;> simp +contextual

theorem execFaultAck_carried (w s) : Carried s (execFaultAck w s) := by
  unfold execFaultAck
  refine ⟨_, rfl, ?_⟩
  refine pf0Write_carries fun u => ?_
  constructor <;> simp +contextual

end Sys2Proof.Proofs
end

section
/-! PROOFS. A frame's steps in its slice (R280 to R332) change the state only by operations that carry: of a step, what is shown is that
the state in the frame's record after it carries where the one before it does. -/

namespace Sys2Proof.Proofs

open Sys2Proof Sys2Proof.Machine Sys2Proof.Safety Sys2Proof.Laws

variable {s : State} {w : Slice}

theorem Slice.on_carries {f : State → State} (h : Carries s w.s) (k : Carries w.s (f w.s)) : Carries s (w.on f).s := h.trans k

theorem Slice.ite_carries {c : Prop} [Decidable c] {a b : Slice} (h : Carries s a.s) (k : Carries s b.s) :
    Carries s (if c then a else b).s := by
  split
  · exact h
  · exact k

theorem Slice.discard_carries (n : Nat) (h : Carries s w.s) : Carries s (w.discard n).s := by
  unfold Slice.discard
  split <;> exact h

theorem Slice.andThen_carries {f : Slice → Slice} (h : Carries s w.s) (k : Carries s w.s → Carries s (f w).s) :
    Carries s (w.andThen f).s := by
  unfold Slice.andThen
  split
  · exact k h
  · exact h

theorem incRg_carries (o : Nat) (u : State) : Carries u (incRg o u) := by constructor <;> simp +contextual

theorem addRg_carries (o n : Nat) (u : State) : Carries u (addRg o n u) := by constructor <;> simp +contextual

theorem incRg64_carries (o : Nat) (u : State) : Carries u (incRg64 o u) := by constructor <;> simp +contextual

theorem pmuIn_carries (p c n : Nat) (u : State) : Carries u (pmuIn p c n u) := by constructor <;> simp +contextual

theorem parityFound_carries (m i l : Nat) (u : State) : Carries u (parityFound m i l u) := by constructor <;> simp +contextual

theorem whenDoIncRg_carries (c : Bool) (o : Nat) (u : State) : Carries u (whenDo c (incRg o) u) :=
  .whenDo c (.refl u) (incRg_carries o)

theorem lookBad_carries (errs : List (Nat × Nat)) (m i : Nat) (h : Carries s w.s) : Carries s (lookBad errs m i w).2.s := by
  unfold lookBad
  split
  · exact h.trans (parityFound_carries _ _ _ _)
  · exact h

/-! ### Steps 3 to 7 -/

theorem ruleAction_carries (i : Nat) (ws : List Nat) (h : Carries s w.s) : Carries s (ruleAction i ws w).s := by
  unfold ruleAction
  dsimp only
  split
  · exact Slice.discard_carries 7 h
  · exact h

theorem defaultAction_carries (h : Carries s w.s) : Carries s (defaultAction w).s := by
  have k := h.trans (incRg64_carries (R.clsMisses w.sl) w.s)
  simp only [defaultAction]
  split
  · exact Slice.discard_carries 7 k
  · exact k

theorem stepRules_carries (errs : List (Nat × Nat)) (h : Carries s w.s) : Carries s (stepRules errs w).s := by
  unfold stepRules
  dsimp only
  split
  · exact defaultAction_carries h
  · rename_i i ws _
    have k := lookBad_carries errs 6 i h
    generalize lookBad errs 6 i w = r at k ⊢
    obtain ⟨bad, w1⟩ := r
    dsimp only
    split
    · exact defaultAction_carries k
    · refine ruleAction_carries i ws (Slice.on_carries k ?_)
      exact Carries.trans (by exact ⟨rfl, id, id⟩) ((incRg64_carries _ _).trans (pmuIn_carries _ _ _ _))

theorem Slice.headgate_carries (fate counter : Nat) (h : Carries s w.s) : Carries s (w.headgate fate counter).s :=
  Slice.discard_carries fate (Slice.on_carries h ((incRg64_carries _ _).trans (pmuIn_carries _ _ _ _)))

theorem setFilter_carries (i : Nat) (f : Filter) (u : State) : Carries u (setFilter i f u) := ⟨rfl, id, id⟩
theorem setSgate_carries (i : Nat) (g : StreamGate) (u : State) : Carries u (setSgate i g u) := ⟨rfl, id, id⟩
theorem setRecovery_carries (i : Nat) (r : Recovery) (u : State) : Carries u (setRecovery i r u) := ⟨rfl, id, id⟩
theorem setMeter_carries (i : Nat) (m : Meter) (u : State) : Carries u (setMeter i m u) := ⟨rfl, id, id⟩

theorem stepFilter_carries (filter : Nat) (h : Carries s w.s) : Carries s (stepFilter filter w).s := by
  have stored (f : Filter) := h.trans (setFilter_carries (8192 * w.sl + filter) f w.s)
  unfold stepFilter
  dsimp only
  split
  · exact Slice.headgate_carries _ _ (stored _)
  split
  · exact Slice.headgate_carries _ _ (stored _)
  split
  · exact Slice.headgate_carries _ _ (stored _)
  · exact stored _

theorem stepGate_carries (filter : Nat) (h : Carries s w.s) : Carries s (stepGate filter w).s := by
  unfold stepGate
  dsimp only
  split
  · exact h
  split
  · exact Slice.headgate_carries _ _ (h.trans (setSgate_carries _ _ _))
  · exact h.trans (setSgate_carries _ _ _)

theorem stepRecovery_carries (f : Nat) (h : Carries s w.s) : Carries s (stepRecovery f w).s := by
  have stored (r : Recovery) := h.trans (setRecovery_carries f r w.s)
  unfold stepRecovery
  split
  · exact Slice.discard_carries _ (Slice.on_carries h ((incRg64_carries _ _).trans (pmuIn_carries _ _ _ _)))
  dsimp only
  split
  · split
    · exact stored _
    · exact Slice.headgate_carries _ _ (stored _)
  · split
    · exact stored _
    · exact Slice.headgate_carries _ _ (stored _)

theorem stepMeter_carries (k : Nat) (h : Carries s w.s) : Carries s (stepMeter k w).s := by
  have stored (m : Meter) := h.trans (setMeter_carries (0x10000 + 8192 * w.sl + k) m w.s)
  unfold stepMeter
  dsimp only
  split
  · exact h
  split
  · exact stored _
  · exact Slice.headgate_carries _ _ (stored _)
  · exact stored _
  · exact stored _
  · split
    · exact stored _
    · exact Slice.headgate_carries _ _ (stored _)

theorem stepHeadgates_carries (h : Carries s w.s) : Carries s (stepHeadgates w).s := by
  unfold stepHeadgates
  extract_lets hh ws a b x0 x filter w1 w2 w3
  have first : Carries s w1.s := h
  have second : Carries s w2.s := by
    simp only [w2]
    split
    · exact Slice.andThen_carries (Slice.andThen_carries first (stepFilter_carries filter)) (stepGate_carries filter)
    · exact first
  have third : Carries s w3.s := by
    simp only [w3]
    split
    · exact Slice.andThen_carries second (stepRecovery_carries _)
    · exact second
  split
  · exact Slice.andThen_carries third (stepMeter_carries _)
  · exact third

/-! ### Step 8 -/

theorem Slice.toHost_carries (b : Bool) (q : Nat) (h : Carries s w.s) : Carries s (w.toHost b q).s := by
  unfold Slice.toHost
  split
  · exact Slice.discard_carries _ (h.trans (incRg_carries _ _))
  · exact h

theorem Slice.toPort_carries (b : Bool) (p : Nat) (h : Carries s w.s) : Carries s (w.toPort b p).s := by
  unfold Slice.toPort
  split
  · exact Slice.discard_carries _ (h.trans (incRg_carries _ _))
  · exact h

theorem bucketPath_carries (errs : List (Nat × Nat)) (set group : Nat) (ws : List Nat) (h : Carries s w.s) :
    Carries s (bucketPath errs set group ws w).2.s := by
  unfold bucketPath
  dsimp only
  split
  · exact h
  · exact (lookBad_carries errs _ _ h).trans (whenDoIncRg_carries _ _ _)

theorem lagPort_carries (errs : List (Nat × Nat)) (l : Nat) (h : Carries s w.s) : Carries s (lagPort errs l w).2.s := by
  have k := lookBad_carries errs 3 (0x21000 + l) h
  unfold lagPort
  generalize lookBad errs 3 (0x21000 + l) w = r at k ⊢
  obtain ⟨bad, w1⟩ := r
  dsimp only
  split
  · exact k
  · exact bucketPath_carries errs _ _ _ k

theorem Slice.toLag_carries (errs : List (Nat × Nat)) (b : Bool) (l : Nat) (h : Carries s w.s) : Carries s (w.toLag errs b l).s := by
  have k := lagPort_carries errs l h
  unfold Slice.toLag
  split <;> simp only [*] at k
  · exact Slice.discard_carries _ k
  · exact Slice.toPort_carries _ _ k

theorem walkList_carries (errs : List (Nat × Nat)) : ∀ (n r : Nat) (made : List (Copy × Bool)) {w : Slice}, Carries s w.s →
    Carries s (walkList errs n r made w).2.s
  | 0, _, _, _, h => h.trans (incRg_carries _ _)
  | n + 1, r, made, w, h => by
    have k := lookBad_carries errs 4 (0x20000 + r) h
    unfold walkList
    generalize lookBad errs 4 (0x20000 + r) w = b at k ⊢
    obtain ⟨bad, w1⟩ := b
    dsimp only at k ⊢
    split
    · exact k.trans (incRg_carries _ _)
    rename_i e _
    have k2 : Carries s (if bit 9 e.w0 = true then lagPort errs (fld 7 0 e.w0) w1 else (some (fld 8 0 e.w0), w1)).2.s := by
      split
      · exact lagPort_carries errs _ k
      · exact k
    generalize (if bit 9 e.w0 = true then lagPort errs (fld 7 0 e.w0) w1 else (some (fld 8 0 e.w0), w1)) = q at k2 ⊢
    obtain ⟨p, w2⟩ := q
    dsimp only at k2 ⊢
    have k3 (vid : Option Nat) : Carries s (match p with
        | none => (made, w2)
        | some p => if made.any (fun c => c.1.port == p) then (made, w2.on (incRg R.mcgDupCopy))
          else (made ++ [(w2.copyTo p vid, bit 23 e.w0)], w2) : List (Copy × Bool) × Slice).2.s := by
      (repeat' split)
      · exact k2
      · exact k2.trans (incRg_carries _ _)
      · exact k2
    split
    · exact k3 _
    · exact walkList_carries errs n _ _ (k3 _)

theorem Slice.toGroup_carries (errs : List (Nat × Nat)) (b : Bool) (g : Nat) (h : Carries s w.s) :
    Carries s (w.toGroup errs b g).s := by
  have k := lookBad_carries errs 4 g h
  unfold Slice.toGroup
  generalize lookBad errs 4 g w = r at k ⊢
  obtain ⟨bad, w1⟩ := r
  dsimp only
  split
  · exact Slice.discard_carries _ k
  have k2 := walkList_carries errs 272 (fld 16 0 (nth 0 (entry w1.s 3 g w1.x.par) 0)) [] k
  generalize walkList errs 272 (fld 16 0 (nth 0 (entry w1.s 3 g w1.x.par) 0)) [] w1 = r at k2 ⊢
  obtain ⟨made, w2⟩ := r
  have pruned (n : Nat) : Carries s (w2.on (addRg R.mcgPruned n)).s := k2.trans (addRg_carries _ _ _)
  dsimp only
  split
  · exact Slice.discard_carries _ (pruned _)
  split <;>
  · split
    · exact Slice.discard_carries _ (pruned _)
    · exact pruned _

theorem Slice.toHop_carries (errs : List (Nat × Nat)) (i : Nat) (h : Carries s w.s) : Carries s (w.toHop errs i).s := by
  have k := lookBad_carries errs 3 i h
  unfold Slice.toHop
  generalize lookBad errs 3 i w = r at k ⊢
  obtain ⟨bad, w1⟩ := r
  dsimp only
  split
  · exact Slice.discard_carries _ k
  split
  · exact Slice.toPort_carries _ _ k
  · exact Slice.toLag_carries errs _ _ k
  · exact Slice.toGroup_carries errs _ _ k
  · exact Slice.toHost_carries _ _ k
  · exact Slice.discard_carries _ k

theorem Slice.toEcmp_carries (errs : List (Nat × Nat)) (g : Nat) (h : Carries s w.s) : Carries s (w.toEcmp errs g).s := by
  have k := lookBad_carries errs 3 (0x20000 + g) h
  unfold Slice.toEcmp
  generalize lookBad errs 3 (0x20000 + g) w = r at k ⊢
  obtain ⟨bad, w1⟩ := r
  have k2 := bucketPath_carries errs 1 g (ecmpWords w1.s w1.x.par g) k
  dsimp only
  split
  · exact Slice.discard_carries _ k
  split <;> simp only [*] at k2
  · exact Slice.discard_carries _ k2
  · exact Slice.toHop_carries errs _ k2

theorem Slice.lpmMiss_carries (v6 : Bool) (h : Carries s w.s) : Carries s (w.lpmMiss v6).s := by
  have k : Carries s (w.on (incRg64 R.lpmMisses)).s := h.trans (incRg64_carries _ _)
  unfold Slice.lpmMiss
  exact Slice.ite_carries (Slice.discard_carries _ k) (Slice.toHost_carries _ _ k)

theorem lpmErrors_carries (errs : List (Nat × Nat)) (a : Nat) (h : Carries s w.s) : Carries s (lpmErrors errs a w).2.s := by
  have folded (es : List (Nat × Nat)) : ∀ r : Bool × Slice, Carries s r.2.s →
      Carries s (es.foldl (fun r e => if e.1 = 2 then (true, (lookBad errs 2 e.2 r.2).2) else r) r).2.s := by
    induction es with
    | nil => exact fun r k => k
    | cons e es ih =>
      intro r k
      refine ih _ ?_
      dsimp only
      split
      · exact lookBad_carries errs 2 e.2 k
      · exact k
  exact folded errs _ h

theorem Slice.route_carries (errs : List (Nat × Nat)) (h : Carries s w.s) : Carries s (w.route errs).s := by
  have k := lpmErrors_carries errs w.x.parsed.dip h
  unfold Slice.route
  generalize lpmErrors errs w.x.parsed.dip w = r at k ⊢
  obtain ⟨bad, w1⟩ := r
  dsimp only
  split
  · exact h
  split
  · exact Slice.lpmMiss_carries _ k
  split
  · exact Slice.lpmMiss_carries _ k
  split
  · exact Slice.toEcmp_carries errs _ k
  · exact Slice.toHop_carries errs _ k

theorem fdbMeet_carries (errs : List (Nat × Nat)) (mac fid : Nat) (h : Carries s w.s) : Carries s (fdbMeet errs mac fid w).2.2.s := by
  have folded (is : List Nat) : ∀ r : Bool × Slice, Carries s r.2.s →
      Carries s (is.foldl (fun r i =>
        let (bad, w1) := lookBad errs 1 i r.2
        (r.1 || bad, w1)) r).2.s := by
    induction is with
    | nil => exact fun r k => k
    | cons i is ih => exact fun r k => ih _ (lookBad_carries errs 1 i k)
  exact folded _ _ h

theorem Slice.source_carries (errs : List (Nat × Nat)) (vlan : List Nat) (h : Carries s w.s) : Carries s (w.source errs vlan).s := by
  have k := fdbMeet_carries errs w.x.parsed.smac (fld 11 0 (nth 0 vlan 0)) h
  unfold Slice.source
  dsimp only
  generalize fdbMeet errs w.x.parsed.smac (fld 11 0 (nth 0 vlan 0)) w = r at k ⊢
  obtain ⟨hit, bad, w1⟩ := r
  have asked (c : Bool) (a : LearnReq) : Carries s (w1.on (whenDo c (askLearn a))).s :=
    k.trans (.whenDo c (.refl _) fun u => by constructor <;> simp +contextual)
  dsimp only at k asked ⊢
  split
  · exact asked _ _
  refine Slice.ite_carries (k.trans (whenDoIncRg_carries _ _ _)) (Slice.ite_carries (k.trans ?_) (asked _ _))
  constructor <;> simp +contextual [Slice.on]

/-- The copy to the host that an entry asks for changes no state. -/
theorem hostAsked_carries {c : Prop} [Decidable c] (x : Nat × Nat) (h : Carries s w.s) :
    Carries s (if c then { w with host := w.host ++ [x] } else w : Slice).s := Slice.ite_carries h h

theorem Slice.destination_carries (errs : List (Nat × Nat)) (r : Bool) (vlan : List Nat) (h : Carries s w.s) :
    Carries s (w.destination errs r vlan).s := by
  have k := fdbMeet_carries errs w.x.parsed.dmac (fld 11 0 (nth 0 vlan 0)) h
  simp only [Slice.destination]
  refine Slice.ite_carries (Slice.discard_carries _ h) (Slice.ite_carries (Slice.toGroup_carries errs _ _ h) ?_)
  generalize fdbMeet errs w.x.parsed.dmac (fld 11 0 (nth 0 vlan 0)) w = m at k ⊢
  obtain ⟨hit, bad, w1⟩ := m
  cases hit with
  | none => exact Slice.ite_carries (Slice.discard_carries _ k) (Slice.toGroup_carries errs _ _ k)
  | some ie =>
    obtain ⟨i, e⟩ := ie
    have k2 := hostAsked_carries (c := bit 18 e.info = true) (1, fld 21 19 e.info) k
    simp only at k2 ⊢
    generalize (if bit 18 e.info = true then _ else _ : Slice) = w2 at k2 ⊢
    split
    · exact Slice.toPort_carries _ _ k2
    · exact Slice.toLag_carries errs _ _ k2
    · exact Slice.toGroup_carries errs _ _ k2
    · exact Slice.ite_carries (Slice.route_carries errs k2) (Slice.toHost_carries _ _ k2)
    · exact Slice.toHost_carries _ _ k2
    · exact Slice.discard_carries _ k2

theorem stepForward_carries (errs : List (Nat × Nat)) (m : Bool) (h : Carries s w.s) : Carries s (stepForward errs m w).s := by
  have k := lookBad_carries errs 3 (0x22000 + lookupVid w) h
  unfold stepForward
  dsimp only
  generalize lookBad errs 3 (0x22000 + lookupVid w) w = r at k ⊢
  obtain ⟨bad, w1⟩ := r
  refine Slice.ite_carries (Slice.discard_carries _ k) (Slice.ite_carries (Slice.destination_carries errs _ _ k) ?_)
  have k2 := Slice.source_carries errs (entry w1.s 2 (0x22000 + lookupVid w) w1.x.par) k
  split
  · exact Slice.toPort_carries _ _ k2
  · exact Slice.toGroup_carries errs _ _ k2
  · exact Slice.toHop_carries errs _ k2
  · exact Slice.destination_carries errs _ _ k2

/-! ### A frame's way through the slice, and its storing -/

theorem stagingFilter_carries (h : Carries s w.s) : Carries s (stagingFilter w).s := by
  unfold stagingFilter
  dsimp only
  split
  · exact h
  · exact Slice.discard_carries _ h

theorem errorPath_carries (h : Carries s w.s) : Carries s (errorPath w).s := by
  unfold errorPath
  split
  · exact h
  · exact Slice.discard_carries _ h

theorem malformedPath_carries {forward : Slice → Slice} (k : ∀ v : Slice, Carries s v.s → Carries s (forward v).s)
    (h : Carries s w.s) : Carries s (malformedPath forward w).s := by
  have counted := h.trans ((incRg64_carries (R.prsMalCnt w.sl w.x.parsed.mal) w.s).trans (pmuIn_carries w.x.inPort 4 1 _))
  simp only [malformedPath]
  split
  · exact k _ counted
  · exact Slice.discard_carries _ counted

theorem depthStop_carries (h : Carries s w.s) : Carries s (depthStop w).s :=
  h.trans (.whenDo _ (.refl _) (incRg64_carries _))

theorem sliceSteps_carries (errs : List (Nat × Nat)) (h : Carries s w.s) : Carries s (sliceSteps errs w).s := by
  have k := depthStop_carries h
  unfold sliceSteps
  dsimp only
  split
  · exact malformedPath_carries (fun _ => stepForward_carries errs true) k
  · exact Slice.andThen_carries (Slice.andThen_carries (stepRules_carries errs k) stepHeadgates_carries) (stepForward_carries errs false)

theorem directSteps_carries (p : Nat) (h : Carries s w.s) : Carries s (directSteps p w).s := by
  have k := depthStop_carries h
  unfold directSteps
  dsimp only
  split
  · exact malformedPath_carries (forward := directForm p) (fun _ => id) k
  · exact k

theorem sliceWork_carries (errs : List (Nat × Nat)) (i : Incoming) (d : Handling) (h : Carries s w.s) :
    Carries s (sliceWork errs i d w).s := by
  unfold sliceWork
  split
  · exact Slice.discard_carries _ h
  split
  · exact Slice.discard_carries _ h
  split
  · exact errorPath_carries h
  split
  · exact h
  · exact directSteps_carries _ h
  · exact stagingFilter_carries h
  · exact sliceSteps_carries errs h

end Sys2Proof.Proofs
end

section
/-! PROOFS. Storing a frame, issuing a bundle, the range check and the end of a commit, and the table command register carry. -/

namespace Sys2Proof.Proofs

open Sys2Proof Sys2Proof.Machine Sys2Proof.Safety Sys2Proof.Laws

/-! ### A frame stored, and a frame taken -/

theorem storeFrame_carries {s : State} {w : Slice} (h : Carries s w.s) : Carries s (storeFrame w) := by
  refine h.trans ?_
  unfold storeFrame
  extract_lets f copies fwd n g p frame0 granted0 buf0 s1 s2 s3 buf1
  have granted : Carries w.s g.2 := by constructor <;> simp +contextual [g]
  have stored : Carries w.s s1 := granted.trans (by constructor <;> simp +contextual [s1, granted0])
  have counted : Carries w.s s2 := by
    have ins : Carries w.s (whenDo w.x.error (pmuIn p 3 1) (pmuIn p 2 n (pmuIn p 1 1 s1))) :=
      .whenDo _ (stored.trans ((pmuIn_carries _ _ _ _).trans (pmuIn_carries _ _ _ _))) (pmuIn_carries _ _ _)
    exact ins.trans (by constructor <;> simp +contextual [s2])
  have settled (k : Nat) (u : State) : Carries u (settle f k u) := by constructor <;> simp +contextual
  split
  · exact (counted.trans (by constructor <;> simp +contextual)).trans
      (.whenDo _ (.refl _) fun u => by constructor <;> simp +contextual)
  have judged : Carries w.s s3 := by
    simp only [s3]
    split
    · exact counted.trans (settled _ _)
    split
    · exact (counted.trans (by exact ⟨rfl, id, id⟩)).trans (settled _ _)
    · exact counted
  exact judged.trans (by constructor <;> simp +contextual)

theorem answerPdelay_carries (x : Frame) (s : State) : Carries s (answerPdelay x s) := by
  constructor <;> simp +contextual

theorem countEmpty_carries (s : State) : Carries s (countEmpty s) := by constructor <;> simp +contextual

theorem takeArrival_carries (sl : Nat) (errs : List (Nat × Nat)) (s : State) : Carries s (takeArrival sl errs s) := by
  unfold takeArrival
  split
  · exact .refl s
  dsimp only
  split
  · split
    · exact Carries.trans (by exact ⟨rfl, id, id⟩) (countEmpty_carries _)
    · refine Carries.trans (storeFrame_carries ?_) (answerPdelay_carries _ _)
      exact Carries.trans (by exact ⟨rfl, id, id⟩) (countEmpty_carries _)
  · split
    · exact .refl s
    · refine (storeFrame_carries (sliceWork_carries errs _ _ ?_)).trans (answerPdelay_carries _ _)
      exact ⟨rfl, id, id⟩

/-! ### A bundle issued -/

section
variable {s : State} {i : Issue}

theorem drew_carries (u : State) : Carries u (drew u) := ⟨rfl, id, id⟩

theorem readWork_carries (k : Nat) (u : State) : Carries u (readWork k u).2 := by
  unfold readWork readOpen
  dsimp only
  split <;> exact ⟨rfl, id, id⟩

theorem writeWork_carries (k v : Nat) (u : State) : Carries u (writeWork k v u) := ⟨rfl, id, id⟩

theorem Issue.slot_carries (w p : Nat) {f : Issue → Issue} (k : Carries i.s (f i).s) : Carries i.s (i.slot w p f).s := by
  unfold Issue.slot
  split
  · exact k
  · exact .refl _

theorem scratchOp_carries (c par cycle : Nat) (g : List Nat) (w : Nat) : Carries i.s (scratchOp c par cycle g w i).s := by
  unfold scratchOp
  dsimp only
  split
  · exact .refl _
  split
  · split
    · exact .refl _
    · exact .refl _
  split
  · exact writeWork_carries _ _ _
  split
  · exact readWork_carries _ _
  · exact (readWork_carries _ _).trans (writeWork_carries _ _ _)

theorem aluSlot_carries (c par cycle ts : Nat) (g : List Nat) (p w : Nat) : Carries i.s (aluSlot c par cycle ts g p w i).s := by
  unfold aluSlot
  dsimp only
  split
  · exact .refl _
  · exact .refl _
  split
  · exact scratchOp_carries _ _ _ _ _
  split
  · exact .refl _
  · exact .refl _

theorem headerSlot_s (cycle : Nat) (g : List Nat) (w : Nat) : (headerSlot cycle g w i).s = i.s := by
  unfold headerSlot
  dsimp only
  (repeat' split) <;> rfl

theorem checksumOp_s (g : List Nat) (w : Nat) : (checksumOp g w i).s = i.s := by
  unfold checksumOp
  dsimp only
  (repeat' split) <;> rfl

theorem controlSlot_s (c par cycle : Nat) (g : List Nat) (w : Nat) : (controlSlot c par cycle g w i).s = i.s := by
  unfold controlSlot
  dsimp only
  split
  · split <;> rfl
  · split <;> rfl
  · exact checksumOp_s g w
  · exact checksumOp_s g w
  · rfl
  · rfl

end

theorem pmuEng_carries (e c n : Nat) (u : State) : Carries u (pmuEng e c n u) := by constructor <;> simp +contextual

theorem issueBundle_carries (e cycle : Nat) (b : List Nat) (x : Context) (s : State) : Carries s (issueBundle e cycle b x s) := by
  unfold issueBundle
  extract_lets c fr g p w i0 i1 i2 i3 i4 jump next ops esl s1
  have slots : Carries s i4.s :=
    (Issue.slot_carries (i := i0) _ _ (aluSlot_carries ..)).trans <| (Issue.slot_carries (i := i1) _ _ (aluSlot_carries ..)).trans <|
      (Issue.slot_carries (i := i2) _ _ (by rw [headerSlot_s]; exact .refl _)).trans
        (Issue.slot_carries (i := i3) _ _ (by rw [controlSlot_s]; exact .refl _))
  have counted : Carries s s1 :=
    (slots.trans (.whenDo _ (.whenDo _ (.refl _) (pmuEng_carries e 6 1)) (pmuEng_carries e 5 1))).trans (pmuEng_carries ..)
  have placed (y : Context) : Carries s (setContext e y s1) := counted.trans ⟨by simp, by simp, by simp⟩
  split
  · exact counted.trans ⟨by simp, (engineFault_canonical _ _ _ _).1, (engineFault_canonical _ _ _ _).2⟩
  split
  · exact (placed i4.x).trans ⟨by simp, (emitFrame_canonical _ _ _ _).1, (emitFrame_canonical _ _ _ _).2⟩
  · exact placed _

/-! ### The range check, and a commit's end -/

theorem checkField_regsWf (h : RegHit) (c : Check) (f : RegField) (k : regsWf c.st.regs = true) : regsWf (checkField h c f).st.regs = true := by
  unfold checkField
  dsimp only
  split
  · exact k
  · exact putStaged_canonical _ _ _ k

theorem foldl_regsWf {α : Type} {f : Check → α → Check} (each : ∀ c a, regsWf c.st.regs = true → regsWf (f c a).st.regs = true) :
    ∀ (l : List α) (c : Check), regsWf c.st.regs = true → regsWf (l.foldl f c).st.regs = true
  | [], _, k => k
  | a :: l, c, k => foldl_regsWf each l _ (each c a k)

theorem checkReg_regsWf (c : Check) (off : Nat) (k : regsWf c.st.regs = true) : regsWf (checkReg c off).st.regs = true := by
  unfold checkReg
  split
  · exact k
  · exact foldl_regsWf (fun c f => checkField_regsWf _ c f) _ c k

theorem checkTables_regs (c : Check) : (checkTables c).st.regs = c.st.regs := changesOnly_checkTables c .registers (by decide)

theorem lowerMins_regsWf : ∀ (is : List Nat) (n : Nat) (c : Check), regsWf c.st.regs = true → regsWf (lowerMins is n c).2.st.regs = true
  | [], _, _, k => k
  | i :: is, n, c, k => by
    unfold lowerMins
    dsimp only
    split
    · exact lowerMins_regsWf is n c k
    · exact lowerMins_regsWf is _ _ (setRgF_canonical _ _ _ _ _ k)

theorem poolCheck_regsWf (c : Check) (k : regsWf c.st.regs = true) : regsWf (poolCheck c).st.regs = true := by
  unfold poolCheck
  extract_lets u limit excess pairs
  split
  · exact k
  have lowered := lowerMins_regsWf pairs excess c k
  generalize lowerMins pairs excess c = r at lowered ⊢
  obtain ⟨left, c1⟩ := r
  dsimp only at lowered ⊢
  split
  · exact lowered
  split
  · exact lowered
  · exact setRgF_canonical _ _ _ _ _ lowered

theorem rangeCheck_regsWf (s : State) (k : regsWf s.regs = true) : regsWf (rangeCheck s).st.regs = true := by
  unfold rangeCheck
  refine poolCheck_regsWf _ ?_
  rw [checkTables_regs]
  exact foldl_regsWf checkReg_regsWf _ _ k

theorem Carries.of_changesOnly {ps : List Part} {s t : State} (h : changesOnly ps s t) (queue : .queue ∉ ps)
    (hmem : .hostMemory ∉ ps) (regs : regsWf s.regs = true → regsWf t.regs = true) : Carries s t :=
  ⟨h .queue queue, regs, fun k => by rwa [h .hostMemory hmem]⟩

theorem rangeCheck_carries (s : State) : Carries s (rangeCheck s).st :=
  .of_changesOnly (changesOnly_rangeCheck s) (by decide) (by decide) (rangeCheck_regsWf s)

theorem emitCommit_carries (typ gen status : Nat) (s : State) : Carries s (emitCommit typ gen status s) :=
  ⟨by simp, emitCommit_canonical _ _ _ _, by simp⟩

theorem acceptCommit_carries {c : Check} {s : State} (h : Carries s c.st) : Carries s (acceptCommit c s) := by
  refine h.trans ?_
  unfold acceptCommit
  extract_lets g t s0 gen0 s1 s2 s3 pool s4
  have begun : Carries c.st s1 := ⟨rfl, id, id⟩
  have reported : Carries c.st s2 := begun.trans (by constructor <;> simp +contextual [s2])
  have breached : Carries c.st s3 :=
    .whenDo _ reported fun u => ⟨by simp, breach_canonical _ _, by simp⟩
  have told : Carries c.st s4 := by
    have stuck : Carries c.st (whenDo pool (stickRg R.bpmStatus 3) s3) :=
      .whenDo _ breached fun u => ⟨by simp, stickRg_canonical _ _ _, by simp⟩
    exact (stuck.trans (incRg64_carries R.genCommits _)).trans (emitCommit_carries _ _ _ _)
  split
  · exact told
  · exact told.trans ⟨by simp, (answerGen_canonical _ _ _).1, (answerGen_canonical _ _ _).2⟩

theorem checkDone_carries (s : State) : Carries s (checkDone s) := by
  have refused (n : Nat) (rs : List Clamp) : Carries s (refuseCommit n rs s) :=
    ⟨by simp, (refuseCommit_canonical _ _ _).1, (refuseCommit_canonical _ _ _).2⟩
  unfold checkDone
  split
  · dsimp only
    split
    · exact refused _ _
    split
    · exact refused _ _
    · exact acceptCommit_carries (rangeCheck_carries s)
  · exact .refl s

/-! ### The commands of the table command register -/

theorem tableSpecs_carries : ∀ q ∈ tableSpecs, SpecCarries q := by
  simp only [tableSpecs, List.forall_mem_cons]
  exact ⟨
    fdbInsert_carries, fdbDelete_carries, fdbLookup_carries, fdbRead_carries, fdbFlush_carries, fdbDump_carries,
    lpmInsert_carries, lpmDelete_carries, lpmLookup_carries, lpmMatch_carries, nhpWrite_carries, nhpRead_carries,
    nhpWriteGroup_carries, nhpReadGroup_carries, nhpReadBuckets_carries, mcgWrite_carries, mcgInvalidate_carries,
    mcgRead_carries, mcgWriteRun_carries,
    List.forall_mem_nil _⟩

theorem sliceSpecs_carries : ∀ q ∈ sliceSpecs, SpecCarries q := by
  simp only [sliceSpecs, List.forall_mem_cons]
  exact ⟨
    strWrite_carries, strRead_carries, clsWrite_carries, clsInvalidate_carries, clsRead_carries, clsReadHits_carries,
    hgtWrite_carries, hgtRead_carries, hgtReadCounters_carries, hgtUnblock_carries, hgtResetRcv_carries,
    genCommitCmd_carries, genDiscardCmd_carries, genStatusCmd_carries, engLoad_carries, engUnload_carries,
    engRead_carries, engTblWrite_carries, engTblRead_carries, engEsWrite_carries, engEsRead_carries,
    List.forall_mem_nil _⟩

theorem unitSpecs_carries : ∀ q ∈ unitSpecs, SpecCarries q := by
  simp only [unitSpecs, List.forall_mem_cons]
  exact ⟨
    gclWriteEntries_carries, gclReadEntries_carries, schReadCounters_carries, bpmSnapshot_carries, bpmReclaim_carries,
    bpmReadRecord_carries, bpmLeakList_carries, bpmAuditNow_carries, bpmReadAccount_carries, svcSetState_carries,
    svcRetire_carries, svcTest_carries, svcHealthWrite_carries, svcReadState_carries, recFreezeCmd_carries,
    recReleaseCmd_carries, recSealCmd_carries, recVerifyCmd_carries, recReadLossCmd_carries,
    List.forall_mem_nil _⟩

theorem specOf_carries {t n : Nat} {q : CmdSpec} (h : specOf t n = some q) : SpecCarries q := by
  have mem : q ∈ tableSpecs ++ sliceSpecs ++ unitSpecs := List.mem_of_find?_eq_some h
  rw [List.mem_append, List.mem_append] at mem
  obtain (table | slice) | unit := mem
  · exact tableSpecs_carries q table
  · exact sliceSpecs_carries q slice
  · exact unitSpecs_carries q unit

theorem resumeHeld_carries (h : Held) (s : State) : Carries s (resumeHeld h s) := by
  unfold resumeHeld
  split
  · exact .refl s
  rename_i q found
  split
  · exact .refl s
  split
  · exact stickHeld_carries _ _ s
  · exact runAnswer_carries (specOf_carries found) _ _ s

theorem serve_carries (s : State) : Carries s (serve s) :=
  Carries.trans (by exact ⟨rfl, id, id⟩) (forAll_carries resumeHeld_carries s.gen.held _)

theorem tcmdGo_carries (s : State) : Carries s (tcmdGo s) := by
  unfold tcmdGo
  split
  · constructor <;> simp +contextual
  dsimp only
  split
  · rename_i q found
    exact Carries.trans (by exact ⟨rfl, id, id⟩) ((takeCmd_carries (specOf_carries found) _ _ _).trans (serve_carries _))
  · exact answerCmd_carries _ _ _ _

end Sys2Proof.Proofs
end

section
/-! PROOFS. Images (R131 to R138) and the end of WAKE (R46) carry: the steps of an image one after the other, their undoing, autoload. -/

namespace Sys2Proof.Proofs

open Sys2Proof Sys2Proof.Machine Sys2Proof.Safety Sys2Proof.Laws

variable {s : State}

/-! ### Images -/

theorem applyItem_carries (item : Nat) (vals : List Nat) (ok : Bool) (s : State) : Carries s (applyItem item vals ok s) :=
  ⟨by simp, applyItem_canonical _ _ _ _, by simp⟩

theorem imageStep_carries (x : ImageStep) (s : State) : Carries s (imageStep x s).1 := by
  cases x with
  | early i off v =>
    simp only [imageStep, earlyWrite]
    (repeat' split) <;> constructor <;> simp +contextual
  | reg i off v => constructor <;> simp +contextual [imageStep]
  | cmd i target opcode c buf =>
    simp only [imageStep]
    split
    · exact .refl s
    rename_i q found
    split
    · exact ⟨by simp, stickRg_canonical _ _ _, by simp⟩
    have ran : Carries s (runSpec q ⟨imageWaiter target opcode c.tag s, c, buf⟩ (clearAnswer s)).st :=
      Carries.trans (by exact ⟨rfl, id, id⟩) (runSpec_carries (specOf_carries found) _ _)
    split <;> exact ran
  | commit i =>
    simp only [imageStep]
    split
    · exact .refl s
    · constructor <;> simp +contextual [clearAnswer]
  | protect i serial items =>
    have applied (r : Nat × List Nat) (u : State) : Carries u (applyItem r.1 r.2 true u) :=
      applyItem_carries ..
    exact (forAll_carries applied items s).trans ⟨rfl, id, id⟩

theorem finishCommit_carries (s : State) : Carries s (finishCommit s) := by
  have first : Carries s (commitEffect (checkDone s)) :=
    (checkDone_carries s).trans ⟨by simp, (commitEffect_canonical _).1, (commitEffect_canonical _).2⟩
  have drained : Carries s (commitDrained [] (commitEffect (checkDone s))) :=
    first.trans (by constructor <;> simp +contextual)
  have done : Carries s (settled (commitDrained [] (commitEffect (checkDone s)))) :=
    drained.trans (by constructor <;> simp +contextual)
  exact done.trans ⟨by simp [finishCommit], (discardDone_canonical _).1, (discardDone_canonical _).2⟩

theorem imageSteps_carries (wake : Bool) : ∀ (l : List ImageStep) (s : State), Carries s (imageSteps wake l s).1
  | [], s => .refl s
  | x :: r, s => by
    have one := imageStep_carries x s
    unfold imageSteps
    generalize imageStep x s = o at one ⊢
    obtain ⟨t, b⟩ := o
    cases b with
    | done => exact one.trans (imageSteps_carries wake r t)
    | fail b => exact one
    | held => exact one
    | wait b =>
      have ended := one.trans (finishCommit_carries t)
      dsimp only
      split
      · split
        · exact ended.trans (imageSteps_carries wake r _)
        · exact ended
      · exact one

theorem undoWhole_carries (old t : State) : Carries old (undoWhole old t) :=
  ⟨rfl, regsWf_stores _ _ _, id⟩

theorem setBusy_carries (b : ImageCmd) (s : State) : Carries s (setBusy b s) := ⟨rfl, id, id⟩

theorem afterSteps_carries (b : ImageCmd) {r : State × ImgEnd × List ImageStep} (h : Carries s r.1) : Carries s (afterSteps b r) := by
  unfold afterSteps
  dsimp only
  split
  · exact h.trans (setBusy_carries _ _)
  · exact h.trans (setBusy_carries _ _)
  · exact h.trans (setBusy_carries _ _)
  · split
    · exact h.trans (setBusy_carries _ _)
    · refine (h.trans ?_).trans (setBusy_carries _ _)
      constructor <;> simp +contextual

theorem applyImage_carries (b : ImageCmd) (img : List Byte) (s : State) : Carries s (applyImage b img s) := by
  unfold applyImage
  split
  · exact setBusy_carries _ s
  rename_i steps _
  have ran : Carries s (imageSteps false steps { s with img := { s.img with undo := undoFor steps s } }).1 :=
    Carries.trans (by exact ⟨rfl, id, id⟩) (imageSteps_carries false steps _)
  dsimp only
  split
  · exact (undoWhole_carries s _).trans (setBusy_carries _ _)
  · exact afterSteps_carries _ ran

theorem loadApply_carries (ok : Bool) (s : State) : Carries s (loadApply ok s) := by
  unfold loadApply
  split
  · exact setBusy_carries _ s
  split
  · exact setBusy_carries _ s
  · exact Carries.trans (by constructor <;> simp +contextual) (applyImage_carries _ _ _)

theorem applySlot_carries (slot : Nat) (s : State) : Carries s (applySlot slot s) := by
  unfold applySlot
  split
  · exact setBusy_carries _ s
  split
  · exact setBusy_carries _ s
  · exact applyImage_carries _ _ _

theorem settleImage_carries (s : State) : Carries s (settleImage s) := by
  constructor <;> simp +contextual

theorem imageComplete_carries (s : State) : Carries s (imageComplete s) := by
  unfold imageComplete
  split
  · exact .refl s
  rename_i b _
  have went (c : ImageCmd) : Carries s (settleImage (afterSteps c (imageSteps false b.todo s))) :=
    (afterSteps_carries c (imageSteps_carries false b.todo s)).trans (settleImage_carries _)
  have failed (w : Bad) : Carries s (settleImage (afterSteps b (s, .fail w, []))) :=
    (afterSteps_carries b (r := (s, .fail w, [])) (.refl s)).trans (settleImage_carries _)
  split
  · exact failed _
  · exact .refl s
  · split
    · exact went _
    · exact failed _
  · split
    · exact settleImage_carries s
    · exact went b

theorem autoload_carries (img : List Byte) (s : State) : Carries s (autoload img s).1 := by
  unfold autoload
  split
  · exact .refl s
  rename_i steps _
  dsimp only
  split
  · exact imageSteps_carries true steps s
  · exact undoWhole_carries s _

/-! ### The end of WAKE -/

theorem endInStage_carries (run : Bool) (s : State) : Carries s (endInStage run s) := by
  constructor <;> simp +contextual

theorem fillWakeInfo_carries (sec : Nat) (m c l f : Bool) (s : State) : Carries s (fillWakeInfo sec m c l f s) := ⟨rfl, id, id⟩

theorem wakeSteps_carries (f : WakeFacts) (s : State) : Carries s (wakeSteps f s) := by
  unfold wakeSteps
  extract_lets s1 s2
  have laid : Carries s s2 :=
    Carries.trans (t := s1) (Carries.trans (t := applyHealth s) (by constructor <;> simp +contextual) (by constructor <;> simp +contextual [s1]))
      (by constructor <;> simp +contextual [s2])
  split
  · exact (laid.trans (fillWakeInfo_carries ..)).trans (endInStage_carries _ _)
  · exact ((laid.trans (autoload_carries _ s2)).trans (fillWakeInfo_carries ..)).trans (endInStage_carries _ _)

theorem endWake_carries (f : WakeFacts) (s : State) : Carries s (endWake f s) := by
  have read : Carries s (mramRead f.mramOk f.mramCorr (reach (msT f.elapsedMs) s)) :=
    Carries.trans (t := reach (msT f.elapsedMs) s) (by constructor <;> simp +contextual) (by constructor <;> simp +contextual)
  have faulted (c i : Nat) (u : State) : Carries u (wakeFault c i f.mramOk u) := by constructor <;> simp +contextual
  unfold endWake
  dsimp only
  generalize mramRead f.mramOk f.mramCorr (reach (msT f.elapsedMs) s) = s1 at read ⊢
  split
  · refine (read.trans ?_).trans (faulted _ _ _)
    split
    · exact .refl s1
    · constructor <;> simp +contextual
  · exact read.trans (wakeSteps_carries f s1)

end Sys2Proof.Proofs
end

section
/-! PROOFS. Commands with a guard, a time to reach or a choice before their effect: each runs to a next state and carries. -/

namespace Sys2Proof.Proofs

open Sys2Proof Sys2Proof.Machine Sys2Proof.Safety Sys2Proof.Laws

theorem Carried.of {s t : State} (h : Carries s t) : Carried s (.next t) := ⟨t, rfl, h⟩

/-! ### Guards of commands -/

theorem reach_carries (t : Nat) (s : State) : Carries s (reach t s) := by constructor <;> simp +contextual
theorem reachElapsed_carries (t : Nat) (s : State) : Carries s (reachElapsed t s) := by constructor <;> simp +contextual
theorem hostWrote_carries (ws : List (Nat × Byte)) (s : State) : Carries s (hostWrote ws s) := ⟨rfl, id, memApply_memWf _ _⟩
theorem stickRg_carries (o i : Nat) (s : State) : Carries s (stickRg o i s) := ⟨by simp, stickRg_canonical _ _ _, by simp⟩
theorem setRg_carries (o v : Nat) (s : State) : Carries s (setRg o v s) := ⟨rfl, setRg_canonical _ _ _, id⟩
theorem answer_carries (v : Nat) (s : State) : Carries s (answer v s) := ⟨rfl, id, id⟩
theorem alarm_carries (c i d : Nat) (s : State) : Carries s (alarm c i d s) := ⟨by simp, alarm_canonical _ _ _ _, by simp⟩
theorem modPort_carries (p : Nat) (f : Port → Port) (s : State) : Carries s (modPort p f s) := ⟨rfl, id, id⟩

theorem ringMsg_carries (k : RingKind) (n : Nat) (s : State) : Carries s (ringMsg k n s) := by constructor <;> simp +contextual
theorem discardPending_carries (e p : Nat) (s : State) : Carries s (discardPending e p s) := by constructor <;> simp +contextual
theorem confirmChange_carries (p : Party) (ok : Bool) (s : State) : Carries s (confirmChange p ok s) := by
  constructor <;> simp +contextual
theorem portsXoff_carries (s : State) : Carries s (portsXoff s) := by constructor <;> simp +contextual
theorem wakeFault_carries (c i : Nat) (ok : Bool) (s : State) : Carries s (wakeFault c i ok s) := by constructor <;> simp +contextual
theorem applyHealth_carries (s : State) : Carries s (applyHealth s) := by constructor <;> simp +contextual
theorem ageVisit_carries (i : Nat) (e : FdbEntry) (hit : Bool) (s : State) : Carries s (ageVisit i e hit s) := by
  constructor <;> simp +contextual
theorem portUp_carries (p : Nat) (s : State) : Carries s (portUp p s) := by constructor <;> simp +contextual
theorem startCtr_carries (u k : Nat) (s : State) : Carries s (startCtr u k s) := by constructor <;> simp +contextual

theorem readThen_carries {f : State → State} (ecc : Nat) (c : Copy) (k : ∀ u, Carries u (f u)) (s : State) :
    Carries s (readThen ecc c f s) := by
  have checked : Carries s (cellError ecc c.frame s) := by constructor <;> simp +contextual
  unfold readThen
  dsimp only
  split
  · exact checked
  · exact checked.trans (k _)

theorem asWarden_carries {f : State → State} (p : Party) (k : ∀ u, Carries u (f u)) (s : State) : Carries s (asWarden p f s) := by
  unfold asWarden
  split
  · exact .refl s
  split
  · exact k s
  · exact ⟨by simp, violation_canonical _ _ _, by simp⟩

theorem tsTimeout_carries {f : State → State} (p st : Nat) (k : ∀ u, Carries u (f u)) (s : State) : Carries s (tsTimeout p st f s) := by
  unfold tsTimeout
  split
  · exact .refl s
  split
  · exact (reach_carries _ s).trans (k _)
  · exact .refl s

theorem laneWrite_carries {f : State → State} (ln : Nat) (k : ∀ u, Carries u (f u)) (s : State) : Carries s (laneWrite ln f s) := by
  unfold laneWrite
  split
  · exact pf0Write_carries k
  · exact .refl s

theorem macCmdWrite_carries {f : State → State} (p : Nat) (k : ∀ u, Carries u (f u)) (s : State) : Carries s (macCmdWrite p f s) := by
  unfold macCmdWrite
  split
  · exact pf0Write_carries fun u => whenDo_carries k
  · exact .refl s

theorem genCmdWrite_carries {f : State → State} (k : ∀ u, Carries u (f u)) (s : State) : Carries s (genCmdWrite f s) := by
  refine pf0Write_carries fun u => ?_
  split
  · exact ⟨by simp, by simp, by simp⟩
  · exact k u

theorem fifoRead_carries {pop : List (List Nat) → State → State} (off : Nat) (fifo : List (List Nat))
    (k : ∀ es u, Carries u (pop es u)) (s : State) : Carries s (fifoRead off fifo pop s) := by
  unfold fifoRead
  split
  · exact answer_carries _ s
  · exact ((((setRg_carries _ _ _).trans (setRg_carries _ _ _)).trans (setRg_carries _ _ _)).trans (k _ _)).trans (answer_carries _ _)

theorem withContent_carries {f : List Byte → State → State} (p : Nat) (c : Option (List Byte)) (k : ∀ bs u, Carries u (f bs u))
    (s : State) : Carries s (withContent p c f s) := by
  unfold withContent
  split
  · exact k _ s
  · exact incRg_carries _ s

/-! ### Host interface, modes and protection -/

theorem execDoorbellTail_carried (k n idx host s) : Carried s (execDoorbellTail k n idx host s) :=
  .of <| (hostWrote_carries host s).trans <| whenDo_carries fun u =>
    ⟨by simp, (doorbellTail_canonical _ _ _ _).1, (doorbellTail_canonical _ _ _ _).2⟩

theorem execIrqHoldoffExpiry_carried (k n s) : Carried s (execIrqHoldoffExpiry k n s) := by
  refine ⟨_, rfl, ?_⟩
  split
  · exact .refl s
  · exact whenDo_carries fun u => (reachElapsed_carries _ u).trans (ringMsg_carries ..)

theorem expirePending_carries (s : State) : Carries s (expirePending s) := by constructor <;> simp +contextual

theorem execConfirm_carried (p ok s) : Carried s (execConfirm p ok s) :=
  .of <| asWarden_carries p (fun u => (expirePending_carries u).trans (confirmChange_carries ..)) s

theorem execReject_carried (p s) : Carried s (execReject p s) :=
  .of <| asWarden_carries p (fun u => (expirePending_carries u).trans (discardPending_carries ..)) s

theorem execProvision_carried (p s) : Carried s (execProvision p s) :=
  .of <| asWarden_carries p (fun u => by constructor <;> simp +contextual) s

theorem execZeroiseAll_carried (ir dr trst ok s) : Carried s (execZeroiseAll ir dr trst ok s) := by
  refine ⟨_, rfl, ?_⟩
  split
  · exact .refl s
  split
  · exact ⟨rfl, id, id⟩
  have scanned : Carries s (tapScan ir dr s) := by constructor <;> simp +contextual
  refine .whenDo _ scanned fun u => .whenDo _ (t := zeroise 3 true ok u) ?_ fun v => ?_
  · constructor <;> simp +contextual
  · constructor <;> simp +contextual

theorem enterReset_carries (b : Bool) (s : State) : Carries s (enterReset b s) := ⟨rfl, fun _ => rfl, id⟩

theorem execResetNLow_carried (ns s) : Carried s (execResetNLow ns s) :=
  .of <| .whenDo _ (.whenDo _ (.refl s) drew_carries) fun u => Carries.trans (by exact ⟨rfl, id, id⟩) (enterReset_carries false _)

theorem execFullReset_carried (w s) : Carried s (execFullReset w s) := by
  refine ⟨_, rfl, whenDo_carries fun u => ?_⟩
  split
  · exact enterReset_carries true u
  · exact whenDo_carries fun v => ⟨rfl, id, id⟩

theorem setMode_carries (m : Mode) (c r t : Nat) (s : State) : Carries s (setMode m c r t s) := by
  constructor <;> simp +contextual

theorem execRunTime_carried (s) : Carried s (execRunTime s) := by
  refine ⟨_, rfl, ?_⟩
  split
  · exact .refl s
  · exact whenDo_carries fun u => (reach_carries _ u).trans (setMode_carries ..)

theorem execDrainTime_carried (s) : Carried s (execDrainTime s) := by
  refine ⟨_, rfl, ?_⟩
  split
  · exact .refl s
  · refine whenDo_carries fun u => Carries.trans ?_ (portsXoff_carries _)
    exact Carries.trans ((reach_carries _ u).trans (setMode_carries ..)) (by exact ⟨rfl, id, id⟩)

theorem execPowerOnDetect_carried (rail uv s) : Carried s (execPowerOnDetect rail uv s) :=
  .of <| whenDo_carries fun u => Carries.trans (by exact ⟨rfl, id, id⟩) (enterReset_carries false _)

theorem execPowerRemoval_carried (torn s) : Carried s (execPowerRemoval torn s) := ⟨_, rfl, rfl, fun _ => rfl, id⟩

theorem execWakeComplete_carried (f s) : Carried s (execWakeComplete f s) := by
  refine ⟨_, rfl, whenDo_carries fun u => ?_⟩
  have read : Carries u (readStacks u) := by
    unfold readStacks
    split
    · exact ⟨rfl, id, id⟩
    · exact .refl u
  dsimp only
  split
  · exact read
  · exact read.trans (endWake_carries f _)

theorem execWarmTimeout_carried (ok s) : Carried s (execWarmTimeout ok s) := by
  exact ⟨_, rfl, whenDo_carries fun u => ((reachElapsed_carries _ u).trans (applyHealth_carries _)).trans (wakeFault_carries ..)⟩

/-! ### Images -/

theorem execLoadApply_carried (host ok s) : Carried s (execLoadApply host ok s) :=
  .of <| (hostWrote_carries host s).trans <| whenDo_carries (loadApply_carries ok)

theorem execApplySlot_carried (slot s) : Carried s (execApplySlot slot s) :=
  .of <| whenDo_carries (applySlot_carries _)

theorem execImageCommandComplete_carried (s) : Carried s (execImageCommandComplete s) := .of (imageComplete_carries s)

/-! ### Links and lanes -/

theorem execAdapt_carried (ln s) : Carried s (execAdapt ln s) :=
  .of <| laneWrite_carries ln (fun u => by constructor <;> simp +contextual) s

theorem execRestore_carried (ln s) : Carried s (execRestore ln s) :=
  .of <| laneWrite_carries ln (fun u => by constructor <;> simp +contextual) s

theorem execPrbs31Near_carried (ln s) : Carried s (execPrbs31Near ln s) :=
  .of <| laneWrite_carries ln (fun u => by constructor <;> simp +contextual) s

theorem execPrbs31Line_carried (ln s) : Carried s (execPrbs31Line ln s) :=
  .of <| laneWrite_carries ln (fun u => by constructor <;> simp +contextual) s

theorem execStop_carried (ln errors s) : Carried s (execStop ln errors s) := by
  refine .of <| laneWrite_carries ln (fun u => ?_) s
  split
  · exact Carries.trans (by exact ⟨rfl, id, id⟩) (addRg_carries _ _ _)
  · constructor <;> simp +contextual [laneResult]

theorem linkEval_carries (p : Nat) (s : State) : Carries s (linkEval p s) :=
  ⟨by simp, (linkEval_canonical _ _).1, (linkEval_canonical _ _).2⟩

theorem execAlignmentLockChange_carried (p aligned lanes s) : Carried s (execAlignmentLockChange p aligned lanes s) := by
  refine ⟨_, rfl, whenDo_carries fun u => (Carries.whenDo _ (modPort_carries _ _ u) fun v => ?_).trans (linkEval_carries p _)⟩
  constructor <;> simp +contextual

theorem execAutoNegotiationComplete_carried (p m s) : Carried s (execAutoNegotiationComplete p m s) :=
  .of <| whenDo_carries fun u =>
    (Carries.whenDo _ (modPort_carries _ _ u) (stickRg_carries _ _)).trans (linkEval_carries p _)

theorem tsDetect_carries (p : Nat) (s : State) : Carries s (tsDetect p s) :=
  ⟨by simp, (tsDetect_canonical _ _).1, (tsDetect_canonical _ _).2⟩

theorem execTLanesExpiry_carried (p s) : Carried s (execTLanesExpiry p s) :=
  .of <| tsTimeout_carries p 2 (fun u => (incRg_carries _ u).trans (tsDetect_carries p _)) s

theorem execTConfigExpiry_carried (p s) : Carried s (execTConfigExpiry p s) := by
  refine .of <| tsTimeout_carries p 3 (fun u => ?_) s
  split
  · exact ⟨rfl, id, id⟩
  · exact (incRg_carries _ u).trans (tsDetect_carries p _)

theorem execTRetrainExpiry_carried (p s) : Carried s (execTRetrainExpiry p s) :=
  .of <| tsTimeout_carries p 5 (tsDetect_carries p) s

theorem execCrdReceive_carried (p d s) : Carried s (execCrdReceive p d s) :=
  .of <| whenDo_carries fun u => withContent_carries p _
    (fun bs v => ⟨by simp, (tsCrd_canonical _ _ _).1, (tsCrd_canonical _ _ _).2⟩) u

theorem execCycReceive_carried (p d s) : Carried s (execCycReceive p d s) :=
  .of <| whenDo_carries fun u => withContent_carries p _ (fun _ => incRg_carries _) u

theorem tsMark_carries (p stamp : Nat) (bs : List Byte) (s : State) : Carries s (tsMark p stamp bs s) := by
  constructor <;> simp +contextual

theorem execTtmReceive_carried (p d s) : Carried s (execTtmReceive p d s) :=
  .of <| whenDo_carries fun u => (reach_carries _ u).trans (withContent_carries p _ (fun _ _ => tsMark_carries ..) _)

theorem tsJudge_carries (p : Nat) (s : State) : Carries s (tsJudge p s) :=
  ⟨by simp, (tsJudge_canonical _ _).1, (tsJudge_canonical _ _).2⟩

theorem execDskReceive_carried (p d s) : Carried s (execDskReceive p d s) := by
  refine ⟨_, rfl, whenDo_carries fun u => ?_⟩
  have judged : Carries u (if (tsOf u p).st = 4 then tsJudge p (tsMarkers p d u) else u) := by
    split
    · exact Carries.trans (by constructor <;> simp +contextual) (tsJudge_carries p _)
    · exact .refl u
  exact judged.trans (withContent_carries p _ (fun bs v => ⟨by simp, (tsDsk_canonical _ _ _ _).1, (tsDsk_canonical _ _ _ _).2⟩) _)

theorem tsRetrain_carries (p : Nat) (s : State) : Carries s (tsRetrain p s) := by constructor <;> simp +contextual

theorem execStableMsExpiry_carried (p s) : Carried s (execStableMsExpiry p s) := by
  refine ⟨_, rfl, ?_⟩
  split
  · exact .refl s
  · exact .whenDo _ (reach_carries _ s) (tsRetrain_carries p)

theorem execWiden_carried (p s) : Carried s (execWiden p s) := by
  refine ⟨_, rfl, ?_⟩
  split
  · exact pf0Write_carries fun u => whenDo_carries (tsRetrain_carries p)
  · exact .refl s

theorem execMacFrameReceive_carried (p f s) : Carried s (execMacFrameReceive p f s) := by
  refine ⟨_, rfl, ?_⟩
  split
  · exact .refl s
  rename_i broken _
  have counted (g : RxFrame) (u : State) : Carries u (laneCounts p g u) := by constructor <;> simp +contextual
  have received (g : RxFrame) (u : State) : Carries u (macReceive p g u) := by constructor <;> simp +contextual
  exact (Carries.whenDo _ ((reach_carries _ s).trans (counted _ _)) (received _)).trans (tsJudge_carries p _)

theorem flushHeld_carries (p : Nat) (s : State) : Carries s (flushHeld p s) :=
  ⟨by simp, (flushHeld_canonical _ _).1, (flushHeld_canonical _ _).2⟩
theorem restartVerify_carries (p : Nat) (s : State) : Carries s (restartVerify p s) := by constructor <;> simp +contextual

theorem execFlush_carried (p s) : Carried s (execFlush p s) := .of <| macCmdWrite_carries p (flushHeld_carries p) s
theorem execRestartVerify_carried (p s) : Carried s (execRestartVerify p s) :=
  .of <| macCmdWrite_carries p (restartVerify_carries p) s

theorem execUpHoldoffExpiry_carried (p s) : Carried s (execUpHoldoffExpiry p s) := by
  refine ⟨_, rfl, ?_⟩
  split
  · exact .refl s
  · exact whenDo_carries fun u => (reach_carries _ u).trans (portUp_carries ..)

theorem execVerifyTimer_carried (p s) : Carried s (execVerifyTimer p s) := by
  refine ⟨_, rfl, ?_⟩
  split
  · exact .refl s
  refine whenDo_carries fun u => ?_
  have due (t : Nat) (f : Port → Port) : Carries u (modPort p f (reach t u)) := (reach_carries t u).trans (modPort_carries _ _ _)
  dsimp only
  split
  · exact due _ _
  · exact (due _ _).trans (stickRg_carries _ _ _)

/-! ### Frames, engines and transmitters -/

theorem execFrameArrival_carried (sl errs s) : Carried s (execFrameArrival sl errs s) :=
  .of <| whenDo_carries (takeArrival_carries sl errs)

theorem execEmptyRetry_carried (sl s) : Carried s (execEmptyRetry sl s) :=
  .of <| whenDo_carries (takeArrival_carries sl [])

theorem execBankConfigWrite_carried (sl b v s) : Carried s (execBankConfigWrite sl b v s) := by
  refine ⟨_, rfl, ?_⟩
  split
  · exact pf0Write_carries fun u => by constructor <;> simp +contextual
  · exact .refl s

theorem execAgeingVisit_carried (i hit s) : Carried s (execAgeingVisit i hit s) := by
  refine ⟨_, rfl, ?_⟩
  split
  · exact .refl s
  · exact whenDo_carries fun u => Carries.trans ((reachElapsed_carries _ u).trans (by exact ⟨rfl, id, id⟩)) (ageVisit_carries ..)

theorem execEngineHandoff_carried (e s) : Carried s (execEngineHandoff e s) := by
  refine ⟨_, rfl, ?_⟩
  split
  · exact .refl s
  split
  · exact ⟨rfl, id, id⟩
  split
  · exact .refl s
  · exact (whenDo_carries (reach_carries _)).trans ⟨by simp, leaveEngine_canonical _ _ _, by simp⟩

/-- The words of a bundle found bad are told, one after the other. -/
theorem engineWordBad_carries (c k n : Nat) (s : State) : Carries s (engineWordBad c k n s) := by constructor <;> simp +contextual

theorem setEngine_carries (e : Nat) (x : Engine) (s : State) : Carries s (setEngine e x s) := ⟨rfl, id, id⟩

theorem execBundleIssue_carried (e corrected bad s) : Carried s (execBundleIssue e corrected bad s) := by
  refine ⟨_, rfl, ?_⟩
  split
  · exact Carries.whenDo _ (setEngine_carries ..) (pmuEng_carries e 4 1)
  rename_i y _
  extract_lets par b reads s2 s3
  have counted : Carries s s2 :=
    .whenDo _ (setEngine_carries ..) fun u => (addRg_carries _ _ u).trans (stickRg_carries _ _ _)
  have told : Carries s s3 := counted.trans <| forAll_carries (fun d u => by
    split
    · exact engineWordBad_carries ..
    split
    · exact engineWordBad_carries ..
    · exact .refl u) _ _
  split
  · exact told.trans ⟨by simp, (engineFault_canonical _ _ _ _).1, (engineFault_canonical _ _ _ _).2⟩
  · exact told.trans (issueBundle_carries ..)

theorem readStarted_carries (ecc p : Nat) (s t : State) : Carries t (readStarted ecc p s t) :=
  ⟨by simp, (readStarted_canonical _ _ _ _).1, (readStarted_canonical _ _ _ _).2⟩

theorem execTransmitterFree_carried (p ecc s) : Carried s (execTransmitterFree p ecc s) := by
  refine ⟨_, rfl, whenDo_carries fun u => Carries.trans ?_ (readStarted_carries ..)⟩
  have free (v : State) : Carries v (startNext p (mediumFree p v)) := by constructor <;> simp +contextual
  split
  · exact free u
  split
  · exact Carries.trans (by constructor <;> simp +contextual) (free _)
  · exact .refl u

theorem judgeRelease_carries (c : Copy) (n : Nat) (s : State) : Carries s (judgeRelease c n s) :=
  ⟨by simp, (judgeRelease_canonical _ _ _).1, (judgeRelease_canonical _ _ _).2⟩

theorem execTimedRelease_carried (p ecc s) : Carried s (execTimedRelease p ecc s) := by
  refine ⟨_, rfl, ?_⟩
  dsimp only
  split
  · exact .refl s
  · exact ((reach_carries _ s).trans
      (forAll_carries (f := fun c => judgeRelease c (c.release.getD 0)) (fun c u => judgeRelease_carries _ _ u) _ _)).trans
        (readStarted_carries ..)

theorem hbmCorrected_carries (c n : Nat) (s : State) : Carries s (hbmCorrected c n s) := by constructor <;> simp +contextual
theorem cellError_carries (k f : Nat) (s : State) : Carries s (cellError k f s) := by constructor <;> simp +contextual

theorem execRefillBurst_carried (p q corrected ecc s) : Carried s (execRefillBurst p q corrected ecc s) := by
  refine ⟨_, rfl, ?_⟩
  dsimp only
  split
  · exact .refl s
  rename_i f _
  have burst (held : Nat) : Carries s (addRg R.bpmEccCorr corrected
      (hbmCorrected (physicalOf s (frame s f).channel) corrected (refillBurst f held s))) :=
    Carries.trans (t := hbmCorrected (physicalOf s (frame s f).channel) corrected (refillBurst f held s))
      (Carries.trans (t := refillBurst f held s) (by constructor <;> simp +contextual) (hbmCorrected_carries ..))
      (addRg_carries _ _ _)
  split
  · exact (burst _).trans (cellError_carries ..)
  · exact burst _

theorem execRiderPassEnd_carried (reservoir counted s) : Carried s (execRiderPassEnd reservoir counted s) := by
  refine ⟨_, rfl, whenDo_carries fun u => Carries.whenDo _ (by exact ⟨rfl, id, id⟩) fun v => ?_⟩
  exact (stickRg_carries _ _ v).trans (alarm_carries ..)

theorem execSnapshot_carried (c s) : Carried s (execSnapshot c s) := by
  refine ⟨_, rfl, ?_⟩
  split
  · exact runCmd_carries bpmSnapshot_carries _ s
  · exact pf0Write_carries fun u => ⟨by simp, (snapshot_canonical _).1, (snapshot_canonical _).2⟩

/-! ### Time -/

theorem setCap_carries (u : Nat) (x : CapUnit) (s : State) : Carries s (setCap u x s) := ⟨rfl, id, id⟩
theorem setTxStamps_carries (p : Nat) (x : TxStamps) (s : State) : Carries s (setTxStamps p x s) := ⟨rfl, id, id⟩
theorem withPins_carries (x : Pins) (s : State) : Carries s { s with pins := x } := ⟨rfl, id, id⟩
theorem withTim_carries (x : Tim) (s : State) : Carries s { s with tim := x } := ⟨rfl, id, id⟩

theorem execStuckActive_carried (u s) : Carried s (execStuckActive u s) := by
  refine ⟨_, rfl, ?_⟩
  dsimp only
  split
  · exact .refl s
  · exact whenDo_carries fun v => ((reach_carries _ v).trans (setCap_carries ..)).trans (alarm_carries ..)

theorem execTxfRead_carried (pt p s) : Carried s (execTxfRead pt p s) := by
  refine ⟨_, rfl, whenDo_carries fun u => ?_⟩
  split
  · exact answer_carries _ u
  · exact fifoRead_carries _ _ (fun _ v => setTxStamps_carries _ _ v) u

theorem execCaptureFifoRead_carried (pt u s) : Carried s (execCaptureFifoRead pt u s) :=
  .of <| whenDo_carries fun v => fifoRead_carries _ _ (fun _ t => setCap_carries _ _ t) v

theorem execPpsOutFall_carried (s) : Carried s (execPpsOutFall s) :=
  .of <| whenDo_carries fun u => (reachElapsed_carries _ u).trans (withPins_carries ..)

theorem execTioOutputEnd_carried (n s) : Carried s (execTioOutputEnd n s) :=
  .of <| whenDo_carries fun u => (reachElapsed_carries _ u).trans (withPins_carries ..)

theorem execReplicaRealign_carried (errs s) : Carried s (execReplicaRealign errs s) :=
  .of <| whenDo_carries fun u => (reachElapsed_carries _ u).trans (withTim_carries ..)

/-! ### Generations -/

theorem execCommit_carried (c s) : Carried s (execCommit c s) := by
  refine ⟨_, rfl, ?_⟩
  split
  · exact runCmd_carries genCommitCmd_carries _ s
  · exact genCmdWrite_carries (fun u => by constructor <;> simp +contextual) s

theorem execCommitAt_carried (c s) : Carried s (execCommitAt c s) := by
  refine ⟨_, rfl, ?_⟩
  split
  · exact runCmd_carries genCommitCmd_carries _ s
  · exact genCmdWrite_carries (fun u => by constructor <;> simp +contextual) s

theorem execDiscardStaged_carried (c s) : Carried s (execDiscardStaged c s) := by
  refine ⟨_, rfl, ?_⟩
  split
  · exact runCmd_carries genDiscardCmd_carries _ s
  · exact genCmdWrite_carries (fun u => by constructor <;> simp +contextual) s

theorem execCommitCheckDone_carried (s) : Carried s (execCommitCheckDone s) :=
  .of <| (checkDone_carries s).trans (serve_carries _)

theorem execCommitEffect_carried (s) : Carried s (execCommitEffect s) :=
  .of <| Carries.trans ⟨by simp, (commitEffect_canonical _).1, (commitEffect_canonical _).2⟩ (serve_carries _)

theorem execCommitSettled_carried (s) : Carried s (execCommitSettled s) :=
  .of <| Carries.trans ⟨by simp, (settled_canonical _).1, (settled_canonical _).2⟩ (serve_carries _)

theorem execDiscardDone_carried (s) : Carried s (execDiscardDone s) :=
  .of <| Carries.trans ⟨by simp, (discardDone_canonical _).1, (discardDone_canonical _).2⟩ (serve_carries _)

/-! ### The recorder and the special ports -/

theorem execRecorderTake_carried (ecc s) : Carried s (execRecorderTake ecc s) := by
  refine ⟨_, rfl, whenDo_carries fun u => ?_⟩
  dsimp only
  split
  · exact reach_carries _ u
  · exact (reach_carries _ u).trans <| readThen_carries _ _ (fun v => ⟨by simp, (recorderTakes_canonical _ _ _ _).1, (recorderTakes_canonical _ _ _ _).2⟩) _

theorem execRecirculationAdmit_carried (ecc s) : Carried s (execRecirculationAdmit ecc s) := by
  refine ⟨_, rfl, whenDo_carries fun u => ?_⟩
  dsimp only
  split
  · exact reach_carries _ u
  · exact (reach_carries _ u).trans <| readThen_carries _ _ (fun v => ⟨by simp, (recirculate_canonical _ _ _ _).1, (recirculate_canonical _ _ _ _).2⟩) _

theorem execRxDelivery_carried (ecc s) : Carried s (execRxDelivery ecc s) := by
  refine ⟨_, rfl, whenDo_carries fun u => ?_⟩
  split
  · exact .refl _
  · exact readThen_carries _ _ (fun v => ⟨by simp, (deliver_canonical _ _ _ _).1, (deliver_canonical _ _ _ _).2⟩) _

theorem execFreeze_carried (c s) : Carried s (execFreeze c s) := by
  refine ⟨_, rfl, ?_⟩
  split
  · exact runCmd_carries recFreezeCmd_carries _ s
  · exact pf0Write_carries fun u => by constructor <;> simp +contextual

theorem execSealNow_carried (c s) : Carried s (execSealNow c s) := by
  refine ⟨_, rfl, ?_⟩
  split
  · exact runCmd_carries recSealCmd_carries _ s
  · exact pf0Write_carries fun u => by constructor <;> simp +contextual

theorem execRelease_carried (c region s) : Carried s (execRelease c region s) := by
  refine ⟨_, rfl, ?_⟩
  split
  · exact runCmd_carries recReleaseCmd_carries _ s
  · refine pf0Write_carries fun u => ?_
    cases freed : releaseRegion (region % 4) u with
    | none => exact .refl u
    | some t => exact releaseRegion_carries freed

theorem failReadout_carries (n : Nat) (s : State) : Carries s (failReadout n s) :=
  ⟨by simp, (failReadout_canonical _ _).1, (failReadout_canonical _ _).2⟩
theorem dmaStop_carries (k : RingKind) (n c : Nat) (s : State) : Carries s (dmaStop k n c s) :=
  ⟨by simp, (dmaStop_canonical _ _ _ _).1, (dmaStop_canonical _ _ _ _).2⟩
theorem dmaWrite_carries (a : Nat) (bs : List Byte) (s : State) : Carries s (dmaWrite a bs s) :=
  ⟨by simp, (dmaWrite_canonical _ _ _).1, (dmaWrite_canonical _ _ _).2⟩
theorem fillSlots_carries (k : RingKind) (n : Nat) (sl : List Nat) (bs : List Byte) (s : State) : Carries s (fillSlots k n sl bs s) :=
  ⟨by simp, (fillSlots_canonical _ _ _ _ _).1, (fillSlots_canonical _ _ _ _ _).2⟩

theorem execReadoutComplete_carried (ok copied s) : Carried s (execReadoutComplete ok copied s) := by
  refine ⟨_, rfl, ?_⟩
  split
  · exact .refl s
  rename_i x rest _
  have read (g : Option Segment) (n : Nat) : Carries s (readBursts g n { s with host := { s.host with readouts := rest } }) := by
    constructor <;> simp +contextual
  dsimp only
  split
  · exact (failReadout_carries ..).trans (dmaStop_carries ..)
  · exact (((read _ _).trans (dmaWrite_carries ..)).trans (fillSlots_carries ..))

/-! ### Units and counters -/

theorem execSetState_carried (c s) : Carried s (execSetState c s) :=
  .of <| (runCmd_carries svcSetState_carries c s).trans (serve_carries _)

theorem execLeaveComplete_carried (kind idx s) : Carried s (execLeaveComplete kind idx s) := by
  refine ⟨_, rfl, ?_⟩
  split
  · exact .refl s
  · exact whenDo_carries fun u => Carries.trans ⟨by simp, (finishLeave_canonical _ _).1, (finishLeave_canonical _ _).2⟩ (serve_carries _)

theorem execRetireCopyComplete_carried (kind idx s) : Carried s (execRetireCopyComplete kind idx s) := by
  refine ⟨_, rfl, ?_⟩
  split
  · exact .refl s
  · exact whenDo_carries fun u => Carries.trans ⟨by simp, (finishCopying_canonical _ _).1, (finishCopying_canonical _ _).2⟩ (serve_carries _)

theorem execTestComplete_carried (kind idx pass cause detail s) : Carried s (execTestComplete kind idx pass cause detail s) :=
  .of <| Carries.trans ⟨by simp, (finishTest_canonical _ _ _ _ _ _).1, (finishTest_canonical _ _ _ _ _ _).2⟩ (serve_carries _)

theorem execPmuSettingWrite_carried (u k reg w s) : Carried s (execPmuSettingWrite u k reg w s) := by
  refine ⟨_, rfl, ?_⟩
  split
  · exact pf0Write_carries fun v => whenDo_carries fun t => (setRg_carries _ _ t).trans (startCtr_carries ..)
  · exact .refl s

theorem execZero_carried (u w s) : Carried s (execZero u w s) := by
  refine ⟨_, rfl, ?_⟩
  split
  · exact pf0Write_carries fun v => whenDo_carries fun t => forAll_carries (fun k x => by constructor <;> simp +contextual) _ t
  · exact .refl s

end Sys2Proof.Proofs
end

section
/-! PROOFS. Reads and writes of registers (R5 to R9, R65, R78, R122, R143, R144): an access that acts as a row of its own carries because
that row does. -/

namespace Sys2Proof.Proofs

open Sys2Proof Sys2Proof.Machine Sys2Proof.Safety Sys2Proof.Laws

/-- A row taken from a state that already carries what `s` has. -/
theorem goOn_carries_after {s u : State} {o : Host.Outcome State Fault Refusal} (h : Carries s u) (k : Carried u o) :
    Carries s (goOn s o) := by
  obtain ⟨t, rfl, k⟩ := k
  exact h.trans k

theorem goOn_carries {s : State} {o : Host.Outcome State Fault Refusal} (h : Carried s o) : Carries s (goOn s o) :=
  goOn_carries_after (.refl s) h

theorem accessError_carries (a : BadAccess) (s : State) : Carries s (accessError a s) := by constructor <;> simp +contextual

/-! ### Reads -/

theorem readWord_carries (off path : Nat) (h : RegHit) (s : State) : Carries s (readWord off path h s) := by
  constructor <;> simp +contextual
theorem readLive_carries (off : Nat) (s : State) : Carries s (readLive off s) := by constructor <;> simp +contextual
theorem readWarden_carries (p : Party) (off : Nat) (s : State) : Carries s (readWarden p off s) := by
  constructor <;> simp +contextual
theorem sendPec_carries (off : Nat) (f : Option SideFrame) (s : State) : Carries s (sendPec off f s) := by
  constructor <;> simp +contextual
theorem sideAssign_carries (f : Option SideFrame) (s : State) : Carries s (sideAssign f s) := by constructor <;> simp +contextual

theorem readSpecial_carries {h : RegHit} {s t : State} (took : readSpecial h s = some t) : Carries s t := by
  unfold readSpecial at took
  dsimp only at took
  (repeat' split at took) <;> cases took
  · exact goOn_carries (execTimeNowRead_carried ..)
  · exact goOn_carries (execPpsInRead_carried ..)
  · exact goOn_carries (execCaptureFifoRead_carried ..)
  · exact goOn_carries (execTxfRead_carried ..)
  · exact goOn_carries (execTtmSeqRead_carried ..)
  · exact goOn_carries (execCounterRead_carried ..)

theorem readPlain_carries (off : Nat) (s : State) : Carries s (readPlain off s) := by
  unfold readPlain
  split
  · exact answer_carries _ s
  rename_i h _
  split
  · exact readWord_carries ..
  cases took : readSpecial h s with
  | none => exact readWord_carries ..
  | some t => exact readSpecial_carries took

theorem readAlias_carries (off : Nat) (s : State) : Carries s (readAlias off s) := by
  unfold readAlias
  dsimp only
  split
  · exact answer_carries _ s
  split
  · exact answer_carries _ s
  split
  · exact goOn_carries (execCounterRead_carried ..)
  · exact readWord_carries ..

theorem readBar0_carries (off : Nat) (s : State) : Carries s (readBar0 off s) := by
  unfold readBar0
  split
  · exact whenDo_carries (answer_carries 0)
  split
  · exact readPlain_carries ..
  split
  · exact readLive_carries ..
  · exact readAlias_carries ..

theorem regRead_carries (a : RegRead) (s : State) : Carries s (regRead a s) := by
  unfold regRead
  split
  · split
    · exact accessError_carries ..
    split
    · exact readBar0_carries ..
    split
    · exact whenDo_carries (f := readBell a.off) fun u => answer_carries _ u
    split
    · exact whenDo_carries fun u => answer_carries _ u
    · exact .refl s
  · split
    · exact accessError_carries ..
    · exact readWarden_carries ..
  · refine .whenDo _ (sideAssign_carries a.frame s) fun u => Carries.trans ?_ (sendPec_carries ..)
    split
    · exact readWarden_carries ..
    · exact answer_carries _ u

theorem execWideLowWordRead_carried (a s) : Carried s (execWideLowWordRead a s) := .of (regRead_carries a s)
theorem execClearOnRead_carried (a s) : Carried s (execClearOnRead a s) := .of (regRead_carries a s)

/-! ### Writes -/

theorem putPlain_carries (h : RegHit) (w : Word) (s : State) : Carries s (putPlain h w s) := by constructor <;> simp +contextual
theorem putWord_carries (o : Nat) (h : RegHit) (v : Nat) (s : State) : Carries s (putWord o h v s) := by
  constructor <;> simp +contextual
theorem stagedWrite_carries (h : RegHit) (w : Word) (s : State) : Carries s (stagedWrite h w s) := by
  constructor <;> simp +contextual
theorem violation_carries (o p : Nat) (s : State) : Carries s (violation o p s) := ⟨by simp, violation_canonical _ _ _, by simp⟩

/-- A write that only passes the checks. -/
theorem pf0Check_carries (off : Nat) (s : State) : Carries s (pf0Write off id s) := pf0Write_carries .refl

theorem writeModeCmd_carries (w : Word) (s : State) : Carries s (writeModeCmd w s) := by
  unfold writeModeCmd
  dsimp only
  split
  · exact goOn_carries (execGoRun_carried ..)
  split
  · exact goOn_carries (execDrainToStage_carried ..)
  split
  · exact goOn_carries (execDrainToPark_carried ..)
  split
  · exact goOn_carries (execFullReset_carried ..)
  · exact whenDo_carries fun u => ⟨rfl, id, id⟩

theorem writeImageCmd_carries (w : Word) (s : State) : Carries s (writeImageCmd w s) := by
  unfold writeImageCmd
  dsimp only
  split
  · exact goOn_carries (execLoadApply_carried ..)
  · exact goOn_carries (execStore_carried ..)
  · exact goOn_carries (execApplySlot_carried ..)
  · exact goOn_carries (execMark_carried ..)
  · exact goOn_carries (execUnmark_carried ..)
  · exact goOn_carries (execErase_carried ..)
  · exact pf0Check_carries _ s

theorem writeRingCtrl_carries (k : RingKind) (n : Nat) (w : Word) (s : State) : Carries s (writeRingCtrl k n w s) := by
  unfold writeRingCtrl
  split
  · exact goOn_carries (execRingEnable_carried ..)
  · exact goOn_carries_after (setRg_carries ..) (execRingDisable_carried ..)

theorem writeRingReg_carries (k : RingKind) (h : RegHit) (w : Word) (s : State) : Carries s (writeRingReg k h w s) := by
  unfold writeRingReg
  dsimp only
  split
  · exact .refl s
  · exact putPlain_carries ..

theorem writePrtCmd_carries (w : Word) (s : State) : Carries s (writePrtCmd w s) := by
  unfold writePrtCmd
  split
  · exact goOn_carries (execNewNonce_carried ..)
  · exact goOn_carries (execStage_carried ..)
  · exact goOn_carries (execWithdraw_carried ..)
  · exact goOn_carries (execProvisionOpKey_carried ..)
  · exact pf0Check_carries _ s

theorem writeRwl_carries (h : RegHit) (w : Word) (s : State) : Carries s (writeRwl h w s) := by
  unfold writeRwl
  split
  · exact violation_carries ..
  · exact putWord_carries ..

theorem writePrt_carries (h : RegHit) (w : Word) (s : State) : Carries s (writePrt h w s) := by
  unfold writePrt
  dsimp only
  split
  · exact writePrtCmd_carries ..
  split
  · exact writeRwl_carries ..
  split
  · exact setRg_carries ..
  · exact putPlain_carries ..

theorem writeTimCmd_carries (w : Word) (s : State) : Carries s (writeTimCmd w s) := by
  unfold writeTimCmd
  split
  · exact goOn_carries (execSet_carried ..)
  · exact goOn_carries (execStep_carried ..)
  · exact goOn_carries (execSlew_carried ..)
  · exact goOn_carries (execSlewAbort_carried ..)
  · exact pf0Write_carries fun u => ⟨rfl, id, id⟩

theorem writeGenCmd_carries (w : Word) (s : State) : Carries s (writeGenCmd w s) := by
  unfold writeGenCmd
  split
  · exact goOn_carries (execCommit_carried ..)
  · exact goOn_carries (execCommitAt_carried ..)
  · exact goOn_carries (execDiscardStaged_carried ..)
  · constructor <;> simp +contextual

theorem writeRecCmd_carries (w : Word) (s : State) : Carries s (writeRecCmd w s) := by
  unfold writeRecCmd
  split
  · exact goOn_carries (execFreeze_carried ..)
  · exact goOn_carries (execRelease_carried ..)
  · exact goOn_carries (execSealNow_carried ..)
  · exact pf0Check_carries _ s

theorem writeLaneCmd_carries (ln : Nat) (w : Word) (s : State) : Carries s (writeLaneCmd ln w s) := by
  unfold writeLaneCmd
  split
  · exact goOn_carries (execAdapt_carried ..)
  · exact goOn_carries (execRestore_carried ..)
  · exact goOn_carries (execPrbs31Near_carried ..)
  · exact goOn_carries (execPrbs31Line_carried ..)
  · exact goOn_carries (execStop_carried ..)
  · exact laneWrite_carries ln .refl s

theorem writeMacCmd_carries (p : Nat) (w : Word) (s : State) : Carries s (writeMacCmd p w s) :=
  macCmdWrite_carries p (fun _ => .whenDo _ (whenDo_carries (flushHeld_carries p)) (restartVerify_carries p)) s

theorem writeRow_carries {h : RegHit} {w : Word} {s t : State} (took : writeRow h w s = some t) : Carries s t := by
  unfold writeRow at took
  dsimp only at took
  (repeat' split at took) <;> cases took
  · exact writeModeCmd_carries ..
  · exact writeImageCmd_carries ..
  · exact writeGenCmd_carries ..
  · exact writeTimCmd_carries ..
  · exact goOn_carries (execTimeFaultClear_carried ..)
  · exact goOn_carries (execFreqAdjWrite_carried ..)
  · exact writeRecCmd_carries ..
  · exact goOn_carries (execHbmPartitionWrite_carried ..)
  · exact goOn_carries (execSnapshot_carried ..)
  · exact pf0Check_carries _ s
  · exact goOn_carries (execFaultAck_carried ..)
  · exact goOn_carries (execSeedWrite_carried ..)
  · exact goOn_carries (execSeedWrite_carried ..)
  · exact goOn_carries (execHashConfigWrite_carried ..)
  · exact goOn_carries (execHashConfigWrite_carried ..)
  · exact goOn_carries (execBankConfigWrite_carried ..)
  · exact goOn_carries (execZero_carried ..)
  · exact goOn_carries (execPmuSettingWrite_carried ..)
  · exact goOn_carries (execPmuSettingWrite_carried ..)
  · exact goOn_carries (execPmuSettingWrite_carried ..)
  · exact writeLaneCmd_carries ..
  · exact goOn_carries (execWiden_carried ..)
  · exact pf0Check_carries _ s
  · exact writeMacCmd_carries ..

theorem writeStored_carries (h : RegHit) (w : Word) (s : State) : Carries s (writeStored h w s) := by
  unfold writeStored
  dsimp only
  split
  · split
    · split
      · exact writeRingCtrl_carries ..
      · exact writeRingReg_carries ..
    · exact putPlain_carries ..
  · exact writePrt_carries ..
  · split
    · exact setRg_carries ..
    · exact putPlain_carries ..
  · split
    · exact setRg_carries ..
    · exact putPlain_carries ..
  · split
    · exact ⟨rfl, id, id⟩
    · exact putPlain_carries ..
  · split
    · exact tcmdGo_carries s
    split
    · constructor <;> simp +contextual
    · exact putPlain_carries ..
  · exact whenDo_carries (putPlain_carries h w)
  · split
    · exact .refl s
    · exact putPlain_carries ..

theorem writeByClass_carries (h : RegHit) (w : Word) (s : State) : Carries s (writeByClass h w s) := by
  unfold writeByClass
  split
  · exact stagedWrite_carries ..
  · exact stagedWrite_carries ..
  · exact writeStored_carries ..

theorem writeBar0_carries (off : Nat) (w : Word) (s : State) : Carries s (writeBar0 off w s) := by
  unfold writeBar0
  split
  · exact .refl s
  split
  · exact pf0Check_carries _ s
  rename_i h _
  split
  · rename_i t took
    split at took
    · cases took
      exact pf0Check_carries _ s
    · exact writeRow_carries took
  · split
    · exact writeByClass_carries ..
    · exact pf0Write_carries (writeByClass_carries h w)

theorem writeBell_carries (off : Nat) (w : Word) (s : State) : Carries s (writeBell off w s) := by
  unfold writeBell
  split
  · exact .refl s
  split
  · exact goOn_carries (execDoorbellTail_carried ..)
  split
  · exact goOn_carries (execArm_carried ..)
  · exact .refl s

theorem sendMsi_carries (v : Nat) (s : State) : Carries s (sendMsi v s) := by constructor <;> simp +contextual

theorem writeMsix_carries (off : Nat) (w : Word) (s : State) : Carries s (writeMsix off w s) := by
  unfold writeMsix
  dsimp only
  split
  · exact .refl s
  split
  · exact Carries.trans (by exact ⟨rfl, id, id⟩) (sendMsi_carries ..)
  · exact ⟨rfl, id, id⟩

theorem writeWardenWords_carries (p : Party) (off : Nat) (f : SideRegs → SideRegs) (s : State) :
    Carries s (writeWardenWords p off f s) := by
  unfold writeWardenWords
  split
  · exact ⟨rfl, id, id⟩
  · exact violation_carries ..

theorem writeWarden_carries (p : Party) (off : Nat) (w : Word) (s : State) : Carries s (writeWarden p off w s) := by
  unfold writeWarden
  split
  · exact .refl s
  split
  · exact writeWardenWords_carries ..
  split
  · exact writeWardenWords_carries ..
  split
  · split
    · exact goOn_carries (execConfirm_carried ..)
    · exact goOn_carries (execReject_carried ..)
    · exact goOn_carries (execProvision_carried ..)
    · exact asWarden_carries p .refl s
  split
  · exact ⟨rfl, id, id⟩
  split
  · exact ⟨rfl, id, id⟩
  split
  · exact goOn_carries (execDateHintWrite_carried ..)
  · exact .refl s

theorem regWrite_carries (a : RegWrite) (s : State) : Carries s (regWrite a s) := by
  unfold regWrite
  split
  · split
    · exact accessError_carries ..
    split
    · exact writeBar0_carries ..
    split
    · exact whenDo_carries (writeBell_carries _ _)
    split
    · exact whenDo_carries (writeMsix_carries _ _)
    · exact .refl s
  · split
    · exact accessError_carries ..
    · exact writeWarden_carries ..
  · exact .whenDo _ (sideAssign_carries a.frame s) (writeWarden_carries _ _ _)

theorem execRegisterWrite_carried (a s) : Carried s (execRegisterWrite a s) := .of (regWrite_carries a s)

end Sys2Proof.Proofs
end

section
/-! PROOFS. The machine: every command carries, so the queue is the fetch's alone and every step keeps the canonical forms; the tick of an
empty queue; the reset state. -/

namespace Sys2Proof.Proofs

open Sys2Proof Sys2Proof.Machine Sys2Proof.Safety Sys2Proof.Laws

/-- Every command runs to a next state that carries the queue and the canonical forms. -/
theorem exec_carried (c : Instr) (s : State) : Carried s (exec c s) := by
  cases c with
  | powerOnDetect rail uv => exact execPowerOnDetect_carried rail uv s
  | resetNLow ns => exact execResetNLow_carried ns s
  | resetNHigh st => exact execResetNHigh_carried st s
  | fullReset w => exact execFullReset_carried w s
  | fullResetTimeout st => exact execFullResetTimeout_carried st s
  | refclk00Measure ppm125 ppm156 => exact execRefclk00Measure_carried ppm125 ppm156 s
  | warmingComplete t => exact execWarmingComplete_carried t s
  | warmTimeout mramOk => exact execWarmTimeout_carried mramOk s
  | wakeComplete f => exact execWakeComplete_carried f s
  | goRun => exact execGoRun_carried s
  | runTime => exact execRunTime_carried s
  | drainToStage => exact execDrainToStage_carried s
  | drainToPark force => exact execDrainToPark_carried force s
  | drainTime => exact execDrainTime_carried s
  | drainComplete mramOk => exact execDrainComplete_carried mramOk s
  | parkBatchStart figure power => exact execParkBatchStart_carried figure power s
  | parkWaveComplete ms peakW blocks fails => exact execParkWaveComplete_carried ms peakW blocks fails s
  | fatalFault code island detail => exact execFatalFault_carried code island detail s
  | mgmtWatchdog => exact execMgmtWatchdog_carried s
  | faultRecordWritten mramOk => exact execFaultRecordWritten_carried mramOk s
  | powerRemoval torn => exact execPowerRemoval_carried torn s
  | supplyMonitorCheck rail uv outNs => exact execSupplyMonitorCheck_carried rail uv outNs s
  | temperatureSample t => exact execTemperatureSample_carried t s
  | dateHintWrite high val => exact execDateHintWrite_carried high val s
  | pciePerstNLow => exact execPciePerstNLow_carried s
  | pcieLinkUp width speed => exact execPcieLinkUp_carried width speed s
  | pcieLinkLoss => exact execPcieLinkLoss_carried s
  | flrPf0 => exact execFlrPf0_carried s
  | flrPf1 => exact execFlrPf1_carried s
  | accessError a => exact execAccessError_carried a s
  | registerWrite a => exact execRegisterWrite_carried a s
  | wideLowWordRead a => exact execWideLowWordRead_carried a s
  | clearOnRead a => exact execClearOnRead_carried a s
  | doorbellTail k n idx host => exact execDoorbellTail_carried k n idx host s
  | arm k n seen armBit => exact execArm_carried k n seen armBit s
  | ringEnable k n v => exact execRingEnable_carried k n v s
  | ringDisable k n fetched => exact execRingDisable_carried k n fetched s
  | ringStopped k n => exact execRingStopped_carried k n s
  | dmaError k n fetched bad => exact execDmaError_carried k n fetched bad s
  | txFrameAdmit n => exact execTxFrameAdmit_carried n s
  | rxDelivery ecc => exact execRxDelivery_carried ecc s
  | eventRecordWrite n => exact execEventRecordWrite_carried n s
  | irqHoldoffExpiry k n => exact execIrqHoldoffExpiry_carried k n s
  | readoutRequest => exact execReadoutRequest_carried s
  | readoutComplete dmaOk copied => exact execReadoutComplete_carried dmaOk copied s
  | loadApply host dmaOk => exact execLoadApply_carried host dmaOk s
  | store slot host dmaOk => exact execStore_carried slot host dmaOk s
  | applySlot slot => exact execApplySlot_carried slot s
  | mark slot => exact execMark_carried slot s
  | unmark slot => exact execUnmark_carried slot s
  | erase slot => exact execErase_carried slot s
  | imageCommandComplete => exact execImageCommandComplete_carried s
  | newNonce => exact execNewNonce_carried s
  | stage item count => exact execStage_carried item count s
  | withdraw => exact execWithdraw_carried s
  | provisionOpKey => exact execProvisionOpKey_carried s
  | confirm p mramOk => exact execConfirm_carried p mramOk s
  | reject p => exact execReject_carried p s
  | provision p => exact execProvision_carried p s
  | protectWindowExpiry => exact execProtectWindowExpiry_carried s
  | zeroiseAll ir dr trst mramOk => exact execZeroiseAll_carried ir dr trst mramOk s
  | faultAck w => exact execFaultAck_carried w s
  | refclkGoodChange k ppm => exact execRefclkGoodChange_carried k ppm s
  | losAssert ln => exact execLosAssert_carried ln s
  | losClear ln => exact execLosClear_carried ln s
  | lolAssert ln => exact execLolAssert_carried ln s
  | lolClear ln => exact execLolClear_carried ln s
  | pcsLockChange ln lock hiBer errors => exact execPcsLockChange_carried ln lock hiBer errors s
  | adapt ln => exact execAdapt_carried ln s
  | restore ln => exact execRestore_carried ln s
  | prbs31Near ln => exact execPrbs31Near_carried ln s
  | prbs31Line ln => exact execPrbs31Line_carried ln s
  | stop ln errors => exact execStop_carried ln errors s
  | laneCommandComplete ln eye ok => exact execLaneCommandComplete_carried ln eye ok s
  | widen p => exact execWiden_carried p s
  | dskReceive p d => exact execDskReceive_carried p d s
  | crdReceive p d => exact execCrdReceive_carried p d s
  | ttmReceive p d => exact execTtmReceive_carried p d s
  | cycReceive p d => exact execCycReceive_carried p d s
  | tLanesExpiry p => exact execTLanesExpiry_carried p s
  | tConfigExpiry p => exact execTConfigExpiry_carried p s
  | tRetrainExpiry p => exact execTRetrainExpiry_carried p s
  | laneFailure p seen => exact execLaneFailure_carried p seen s
  | stableMsExpiry p => exact execStableMsExpiry_carried p s
  | skpSend p => exact execSkpSend_carried p s
  | dskSend p => exact execDskSend_carried p s
  | crdSend p cls => exact execCrdSend_carried p cls s
  | ttmSend p => exact execTtmSend_carried p s
  | cycMarkSend p => exact execCycMarkSend_carried p s
  | ttmSeqRead pt p => exact execTtmSeqRead_carried pt p s
  | macFrameReceive p f => exact execMacFrameReceive_carried p f s
  | pauseHoldExpiry p prio => exact execPauseHoldExpiry_carried p prio s
  | upHoldoffExpiry p => exact execUpHoldoffExpiry_carried p s
  | linkHoldExpiry p => exact execLinkHoldExpiry_carried p s
  | flush p => exact execFlush_carried p s
  | restartVerify p => exact execRestartVerify_carried p s
  | verifyTimer p => exact execVerifyTimer_carried p s
  | verifyMpacketReceive p respond => exact execVerifyMpacketReceive_carried p respond s
  | pauseFrameTransmit p => exact execPauseFrameTransmit_carried p s
  | xoffRepeat p prio => exact execXoffRepeat_carried p prio s
  | set => exact execSet_carried s
  | step => exact execStep_carried s
  | slew => exact execSlew_carried s
  | slewAbort => exact execSlewAbort_carried s
  | timeJumpEffect => exact execTimeJumpEffect_carried s
  | slewComplete => exact execSlewComplete_carried s
  | freqAdjWrite high val => exact execFreqAdjWrite_carried high val s
  | timeFaultClear w => exact execTimeFaultClear_carried w s
  | timeBaseFault replica island => exact execTimeBaseFault_carried replica island s
  | referenceLost pps avg => exact execReferenceLost_carried pps avg s
  | holdoverEnd => exact execHoldoverEnd_carried s
  | loopLocked adj => exact execLoopLocked_carried adj s
  | ppsInEdge t pulse => exact execPpsInEdge_carried t pulse s
  | ppsInRead pt => exact execPpsInRead_carried pt s
  | ppsOutRise => exact execPpsOutRise_carried s
  | ppsOutFall => exact execPpsOutFall_carried s
  | cycleEdge g => exact execCycleEdge_carried g s
  | tioOutputStart u => exact execTioOutputStart_carried u s
  | tioOutputEnd u => exact execTioOutputEnd_carried u s
  | captureEdge u high t pulse => exact execCaptureEdge_carried u high t pulse s
  | stuckActive u => exact execStuckActive_carried u s
  | txfRead pt p => exact execTxfRead_carried pt p s
  | captureFifoRead pt u => exact execCaptureFifoRead_carried pt u s
  | timeNowRead pt => exact execTimeNowRead_carried pt s
  | replicaRealign errs => exact execReplicaRealign_carried errs s
  | frameArrival sl errs => exact execFrameArrival_carried sl errs s
  | recirculationAdmit ecc => exact execRecirculationAdmit_carried ecc s
  | strWrite c => exact .of (runCmd_carries strWrite_carries c s)
  | strRead c => exact .of (runCmd_carries strRead_carries c s)
  | clsWrite c => exact .of (runCmd_carries clsWrite_carries c s)
  | clsInvalidate c => exact .of (runCmd_carries clsInvalidate_carries c s)
  | clsRead c => exact .of (runCmd_carries clsRead_carries c s)
  | readHits c => exact .of (runCmd_carries clsReadHits_carries c s)
  | hgtWrite c => exact .of (runCmd_carries hgtWrite_carries c s)
  | hgtRead c => exact .of (runCmd_carries hgtRead_carries c s)
  | hgtReadCounters c => exact .of (runCmd_carries hgtReadCounters_carries c s)
  | unblock c => exact .of (runCmd_carries hgtUnblock_carries c s)
  | resetRcv c => exact .of (runCmd_carries hgtResetRcv_carries c s)
  | tcamScrub n action bad => exact execTcamScrub_carried n action bad s
  | tcamRepair n => exact execTcamRepair_carried n s
  | hashConfigWrite seed v => exact execHashConfigWrite_carried seed v s
  | bankConfigWrite sl b v => exact execBankConfigWrite_carried sl b v s
  | fdbInsert c => exact .of (runCmd_carries fdbInsert_carries c s)
  | fdbDelete c => exact .of (runCmd_carries fdbDelete_carries c s)
  | fdbLookup c => exact .of (runCmd_carries fdbLookup_carries c s)
  | fdbRead c => exact .of (runCmd_carries fdbRead_carries c s)
  | fdbFlush c => exact .of (runCmd_carries fdbFlush_carries c s)
  | fdbDump c => exact .of (runCmd_carries fdbDump_carries c s)
  | lpmInsert c => exact .of (runCmd_carries lpmInsert_carries c s)
  | lpmDelete c => exact .of (runCmd_carries lpmDelete_carries c s)
  | lpmLookup c => exact .of (runCmd_carries lpmLookup_carries c s)
  | lpmMatch c => exact .of (runCmd_carries lpmMatch_carries c s)
  | nhpWrite c => exact .of (runCmd_carries nhpWrite_carries c s)
  | nhpRead c => exact .of (runCmd_carries nhpRead_carries c s)
  | writeGroup c => exact .of (runCmd_carries nhpWriteGroup_carries c s)
  | readGroup c => exact .of (runCmd_carries nhpReadGroup_carries c s)
  | readBuckets c => exact .of (runCmd_carries nhpReadBuckets_carries c s)
  | mcgWrite c => exact .of (runCmd_carries mcgWrite_carries c s)
  | mcgInvalidate c => exact .of (runCmd_carries mcgInvalidate_carries c s)
  | mcgRead c => exact .of (runCmd_carries mcgRead_carries c s)
  | writeRun c => exact .of (runCmd_carries mcgWriteRun_carries c s)
  | learnRequest => exact execLearnRequest_carried s
  | ageingVisit n hit => exact execAgeingVisit_carried n hit s
  | tableScrub mem idx pair bad => exact execTableScrub_carried mem idx pair bad s
  | tableRepair mem idx sl => exact execTableRepair_carried mem idx sl s
  | seedWrite one v => exact execSeedWrite_carried one v s
  | bucketMove kind group b => exact execBucketMove_carried kind group b s
  | commit c => exact execCommit_carried c s
  | commitAt c => exact execCommitAt_carried c s
  | discardStaged c => exact execDiscardStaged_carried c s
  | genStatus c => exact .of (runCmd_carries genStatusCmd_carries c s)
  | commitCheckDone => exact execCommitCheckDone_carried s
  | commitEffect => exact execCommitEffect_carried s
  | commitDrained receiving => exact execCommitDrained_carried receiving s
  | commitSettled => exact execCommitSettled_carried s
  | discardDone => exact execDiscardDone_carried s
  | autoCommitDue => exact execAutoCommitDue_carried s
  | engineFrameEntry e => exact execEngineFrameEntry_carried e s
  | bundleIssue e corrected bad => exact execBundleIssue_carried e corrected bad s
  | eslDataReturn e num corrected => exact execEslDataReturn_carried e num corrected s
  | growthCellRetry e num => exact execGrowthCellRetry_carried e num s
  | engineHandoff e => exact execEngineHandoff_carried e s
  | engineWordRepair c kind key => exact execEngineWordRepair_carried c kind key s
  | load c => exact .of (runCmd_carries engLoad_carries c s)
  | unload c => exact .of (runCmd_carries engUnload_carries c s)
  | engRead c => exact .of (runCmd_carries engRead_carries c s)
  | tblWrite c => exact .of (runCmd_carries engTblWrite_carries c s)
  | tblRead c => exact .of (runCmd_carries engTblRead_carries c s)
  | esWrite c => exact .of (runCmd_carries engEsWrite_carries c s)
  | esRead c => exact .of (runCmd_carries engEsRead_carries c s)
  | admission => exact execAdmission_carried s
  | emptyRetry sl => exact execEmptyRetry_carried sl s
  | freeRequest ptr holder req => exact execFreeRequest_carried ptr holder req s
  | refillBurst p q corrected ecc => exact execRefillBurst_carried p q corrected ecc s
  | refillReturn p q => exact execRefillReturn_carried p q s
  | lifetimeTick => exact execLifetimeTick_carried s
  | riderVisit ptr broken ecc => exact execRiderVisit_carried ptr broken ecc s
  | riderPassEnd reservoir counted => exact execRiderPassEnd_carried reservoir counted s
  | snapshot c => exact execSnapshot_carried c s
  | reclaim c => exact .of (runCmd_carries bpmReclaim_carries c s)
  | readRecord c => exact .of (runCmd_carries bpmReadRecord_carries c s)
  | leakList c => exact .of (runCmd_carries bpmLeakList_carries c s)
  | auditNow c => exact .of (runCmd_carries bpmAuditNow_carries c s)
  | readAccount c => exact .of (runCmd_carries bpmReadAccount_carries c s)
  | hbmPartitionWrite w => exact execHbmPartitionWrite_carried w s
  | copyEnqueue p => exact execCopyEnqueue_carried p s
  | transmitterFree p ecc => exact execTransmitterFree_carried p ecc s
  | copyTransmitEnd p => exact execCopyTransmitEnd_carried p s
  | releaseHandover p q => exact execReleaseHandover_carried p q s
  | releaseLeadDeadline p q => exact execReleaseLeadDeadline_carried p q s
  | timedRelease p ecc => exact execTimedRelease_carried p ecc s
  | gateEntryChange p => exact execGateEntryChange_carried p s
  | writeEntries c => exact .of (runCmd_carries gclWriteEntries_carries c s)
  | readEntries c => exact .of (runCmd_carries gclReadEntries_carries c s)
  | schReadCounters c => exact .of (runCmd_carries schReadCounters_carries c s)
  | recorderTake ecc => exact execRecorderTake_carried ecc s
  | recordWrite => exact execRecordWrite_carried s
  | sealIdleExpiry => exact execSealIdleExpiry_carried s
  | fateWindowExpiry => exact execFateWindowExpiry_carried s
  | freeze c => exact execFreeze_carried c s
  | release c region => exact execRelease_carried c region s
  | sealNow c => exact execSealNow_carried c s
  | verify c => exact .of (runCmd_carries recVerifyCmd_carries c s)
  | readLoss c => exact .of (runCmd_carries recReadLossCmd_carries c s)
  | pmuSettingWrite u k reg w => exact execPmuSettingWrite_carried u k reg w s
  | zero u w => exact execZero_carried u w s
  | counterRead u k viaAlias => exact execCounterRead_carried u k viaAlias s
  | windowPublish u k => exact execWindowPublish_carried u k s
  | setState c => exact execSetState_carried c s
  | retire c => exact .of (runCmd_carries svcRetire_carries c s)
  | test c => exact .of (runCmd_carries svcTest_carries c s)
  | healthWrite c => exact .of (runCmd_carries svcHealthWrite_carries c s)
  | readState c => exact .of (runCmd_carries svcReadState_carries c s)
  | leaveComplete kind idx => exact execLeaveComplete_carried kind idx s
  | retireCopyComplete kind idx => exact execRetireCopyComplete_carried kind idx s
  | testComplete kind idx pass cause detail => exact execTestComplete_carried kind idx pass cause detail s
  | autoRetire idx errors => exact execAutoRetire_carried idx errors s
  | healthMapUpdate => exact execHealthMapUpdate_carried s
  | suppliesInRange st => exact execSuppliesInRange_carried st s
  | referenceReturn pps => exact execReferenceReturn_carried pps s
  | spillWriteComplete ch ecc => exact execSpillWriteComplete_carried ch ecc s
  | autoNegotiationComplete p match1000Full => exact execAutoNegotiationComplete_carried p match1000Full s
  | alignmentLockChange p aligned lanes => exact execAlignmentLockChange_carried p aligned lanes s
  | linkFaultSignalChange p faulty => exact execLinkFaultSignalChange_carried p faulty s

/-- Settles O6: the queue is one of the things that every command carries to its next state. -/
theorem commandsLeaveQueue : Obligations.CommandsLeaveQueue := by
  intro c s
  obtain ⟨t, next, carries⟩ := exec_carried c s
  exact ⟨t, next, carries.queue⟩

/-- Settles O1. -/
theorem stepRunsFront : Obligations.StepRunsFront := fun _ _ => rfl

theorem step_nil {s : State} (empty : s.pending = []) : Machine.step s = .next (tick s) := by
  simp only [Machine.step, empty]

theorem tick_still {s : State} (h : s.md.mode = .reset ∨ s.tim.stopped = true) : tick s = s := if_pos h

theorem tick_running {s : State} (mode : s.md.mode ≠ .reset) (run : s.tim.stopped = false) :
    tick s = passTo (shiftT s.now (masterOver s Config.nsUnit)) Config.nsUnit s := by
  rw [tick, if_neg (by simp [mode, run]), passFor, if_neg (by simp [run])]

theorem tick_carries (s : State) : Carries s (tick s) := by constructor <;> simp +contextual

/-- Settles O2. -/
theorem emptyQueueTicks : Obligations.EmptyQueueTicks := by
  intro s empty
  refine ⟨tick s, step_nil empty, (tick_carries s).queue.trans empty, tick_still, fun mode run => ?_, ?_⟩
  · rw [tick_running mode run]
    exact ⟨by simp [passTo], rfl⟩
  · exact changesOnly_of fun p => by cases p <;> simp [Part.same]

/-- Settles O3: every register but the guarantee and the event enable has its reset value. -/
theorem resetState : Obligations.ResetState :=
  ⟨rfl, rfl, rfl, rfl, fun _ => rfl, rfl, by decide +kernel, rfl⟩

/-- Settles O4. -/
theorem resetCanonical : Obligations.ResetCanonical := ⟨rfl, rfl⟩

theorem Carries.canonical {s t : State} (h : Carries s t) (canonical : Canonical s) : Canonical t :=
  ⟨h.regs canonical.1, h.hmem canonical.2⟩

/-- Settles O5: the command at the front of the queue carries both forms over, and so does the tick of an empty queue. -/
theorem stepKeepsCanonical : Obligations.StepKeepsCanonical := by
  intro s t canonical stepped
  cases queue : s.pending with
  | nil =>
    rw [step_nil queue] at stepped
    cases stepped
    exact (tick_carries s).canonical canonical
  | cons c cs =>
    obtain ⟨u, next, carries⟩ := exec_carried c { s with pending := cs }
    simp only [Machine.step, queue, next] at stepped
    cases stepped
    exact carries.canonical canonical

end Sys2Proof.Proofs
end

section
/-! PROOFS. Table commands that some modes allow, run through the table command register (R97, R132, R337): what their taking and their
answer leave, for each form of command. -/

namespace Sys2Proof.Proofs

open Sys2Proof Sys2Proof.Machine Sys2Proof.Safety Sys2Proof.Laws

/-! ## Targets that a mode allows -/

/-- A target that names regions of BAR0 alone, and whose commands depend on the mode alone. -/
def modeTarget (q : CmdSpec) (c : Cmd) : Prop := (∀ s t : State, t.md = s.md → q.modes t = q.modes s) ∧ ∀ i ∈ q.regions c, i < 0x200

theorem inOpen_congr (s t : State) (h : t.md = s.md) : inOpen t = inOpen s := by simp only [inOpen, hostOpen, h]

theorem inStageRun_congr (s t : State) (h : t.md = s.md) : inStageRun t = inStageRun s := by simp only [inStageRun, h]

/-- A ready command passes the checks of its mode, its form and its regions also once it has been taken. -/
theorem checks_taken {q : CmdSpec} {c : Cmd} {s : State} (ready : tcmdReady q c s) (target : modeTarget q c) :
    q.modes (tcmdTaken q c s) = true ∧ formOk q c = true ∧ (q.regions c).any (regionLocked (tcmdTaken q c s)) = false := by
  obtain ⟨canon, _, _, _, _, mode, form, free, _⟩ := ready
  have md : (tcmdTaken q c s).md = s.md := changesOnly_tcmdTaken q c s .modes (by decide)
  refine ⟨(target.1 _ _ md).trans mode, form, ?_⟩
  rw [List.any_eq_false] at free ⊢
  intro i named
  rw [regionLocked_tcmdTaken q c canon (target.2 i named)]
  exact free i named

section
variable {q : CmdSpec} {c : Cmd} {s st : State} {status : Nat} {result data : List Byte}

/-- A command without a buffer, answered at once. -/
theorem runCmd_shortMode (ready : tcmdReady q c s) (target : modeTarget q c) (short : q.form = .short)
    (body : q.body ⟨tcmdWaiter q c s, c, []⟩ (tcmdTaken q c s) = ⟨st, some status, result, []⟩) :
    runCmd q c s = tcmdDone q c status result st := by
  obtain ⟨mode, form, free⟩ := checks_taken ready target
  rw [runCmd_ready ready]
  refine runAnswer_done (data := []) ?_
  simp only [runSpec, mode, form, free, readBuf, short, body]
  cases dirty : q.changes && status == 0 <;> simp_all [whenDo, markDirty]

/-- A command whose buffer the device reads. -/
theorem runCmd_readsMode (ready : tcmdReady q c s) (target : modeTarget q c) (reads : q.form = .readsBuf) (length : lengthOk c = true)
    (body : q.body ⟨tcmdWaiter q c s, c, bufBytes c s⟩ (bufRead c (tcmdTaken q c s)) = ⟨st, some status, result, []⟩) :
    runCmd q c s = tcmdDone q c status result st := by
  obtain ⟨mode, form, free⟩ := checks_taken ready target
  have good := bufGood_ready ready
  obtain ⟨l, long⟩ := long_of_formOk form (by simp [reads])
  have read : readBuf q.form ⟨tcmdWaiter q c s, c, []⟩ (tcmdTaken q c s) = (bufBytes c s, bufRead c (tcmdTaken q c s)) := by
    simp [readBuf, reads, long, length, tcmdWaiter, bufBytes, bufRead, dataBytes, dmaRead]
  rw [runCmd_ready ready]
  refine runAnswer_done (data := []) ?_
  simp only [runSpec, mode, form, free, read, good, body]
  cases dirty : q.changes && status == 0 <;> simp_all [whenDo, markDirty]

/-- A command whose buffer the device writes. -/
theorem runCmd_writesMode (ready : tcmdReady q c s) (target : modeTarget q c) (writes : q.form = .writesBuf) (reader : q.changes = false)
    (body : q.body ⟨tcmdWaiter q c s, c, []⟩ (tcmdTaken q c s) = ⟨st, some 0, [], data⟩) :
    runCmd q c s = tcmdDone q c 0 [] (bufFilled c data st) := by
  obtain ⟨mode, form, free⟩ := checks_taken ready target
  have good := bufGood_ready ready
  obtain ⟨l, long⟩ := long_of_formOk form (by simp [writes])
  have dma : l.dmaOk = true := by simpa [bufBad, long] using good
  have via : (tcmdWaiter q c s).via = .tcmd := rfl
  rw [runCmd_ready ready]
  refine runAnswer_done (data := data) ?_
  simp [runSpec, mode, form, free, readBuf, writes, long, dma, body, reader, bufFilled, whenDo, via]

/-! ## What it leaves -/

/-- An answered command changes what its target changes, and registers. -/
theorem changesOnly_answered {ps : List Part} (ready : tcmdReady q c s) (only : changesOnly ps (tcmdTaken q c s) st)
    (regs : .registers ∈ ps) (clean : .generations ∈ ps ∨ q.changes = false ∨ status ≠ 0) :
    changesOnly ps s (tcmdDone q c status result st) := by
  intro p out
  have taken := changesOnly_tcmdTaken q c s
  have done := changesOnly_tcmdDone q c status result st
  by_cases tables : p = .tables
  · subst tables
    have same : st.tab = (tcmdTaken q c s).tab := only .tables out
    have idle : s.tab.tcmdBusy = false := ready.2.2.2.1
    show (tcmdDone q c status result st).tab = s.tab
    rw [tcmdDone_tab, same, tcmdTaken_tab, ← idle]
  by_cases gens : p = .generations
  · subst gens
    have same : st.gen = (tcmdTaken q c s).gen := only .generations out
    have kept : (q.changes && status == 0) = false := by
      rcases clean with named | reader | refused
      · exact absurd named out
      · simp [reader]
      · simp [refused]
    show (tcmdDone q c status result st).gen = s.gen
    rw [tcmdDone_gen, kept, same, tcmdTaken_gen]
    rfl
  have notRegs : p ≠ .registers := fun e => out (e ▸ regs)
  have wide : changesOnly ([.tables, .generations, .registers] ++ ps) s (tcmdDone q c status result st) :=
    changesOnly_trans (changesOnly_mono taken (by simp))
      (changesOnly_trans (changesOnly_mono only (List.subset_append_right _ _)) (changesOnly_mono done (by simp)))
  exact wide p (by simp [tables, gens, notRegs, out])

theorem changesOnly_read {ps : List Part} (only : changesOnly ps (bufRead c (tcmdTaken q c s)) st)
    (regs : .registers ∈ ps) (counters : .counters ∈ ps) : changesOnly ps (tcmdTaken q c s) st :=
  changesOnly_trans (changesOnly_mono (changesOnly_pmuEv _ _ _ _ _ _) (by simp [regs, counters])) only

theorem changesOnly_filled {ps : List Part} (only : changesOnly ps (tcmdTaken q c s) st)
    (named : [.counters, .registers, .hostMemory] ⊆ ps) : changesOnly ps (tcmdTaken q c s) (bufFilled c data st) :=
  changesOnly_trans only (changesOnly_mono (changesOnly_bufFilled c data st) named)

/-- An event that the target sends is sent by the command. -/
theorem eventSent_answered {cls typ src at' : Nat} {body : List Nat} (ready : tcmdReady q c s)
    (route : R.rngEvtRoute cls ∉ (List.range 8).map R.fdbTcmd) (sent : eventSent cls typ src at' body (tcmdTaken q c s) st) :
    eventSent cls typ src at' body s (tcmdDone q c status result st) :=
  eventSent_congr_target (changesOnly_tcmdDone q c status result st .host (by decide))
    (eventSent_congr_source (changesOnly_tcmdTaken q c s .host (by decide))
      (rg_of_registersBut (registersBut_tcmdTaken q c ready.1) route) sent)

end

end Sys2Proof.Proofs
end

section
/-! PROOFS. RELEASE of a recorder region (R475). -/

namespace Sys2Proof.Proofs

open Sys2Proof Sys2Proof.Machine Sys2Proof.Safety Sys2Proof.Laws

/-! ## RELEASE (R475) -/

/-- The recorder without a region. -/
def recWithout (k : Nat) (r : Recorder) : Recorder :=
  { r with regions := kvDel k r.regions, post := if r.post = some k then none else r.post }

/-- The state once a region is freed. -/
def regionFreed (k : Nat) (x : Region) (s : State) : State :=
  emitRecorder 1 (segIsland s (x.seqs.headD 0)) (x.seqs.headD 0) x.trigger (modRec (recWithout k) s)

theorem releaseRegion_some {k : Nat} {x : Region} {s : State} (here : kvGet k s.recd.regions = some x) :
    releaseRegion k s = some (regionFreed k x s) := by
  simp only [releaseRegion, here]
  rfl

theorem regionFreed_recd (k : Nat) (x : Region) (s : State) : (regionFreed k x s).recd = recWithout k s.recd := by
  simp [regionFreed, modRec]

theorem changesOnly_regionFreed (k : Nat) (x : Region) (s : State) :
    changesOnly [.host, .recorder, .registers] s (regionFreed k x s) :=
  changesOnly_of fun p => by cases p <;> simp [Part.same, regionFreed]

theorem regsCanonical_regionFreed (k : Nat) (x : Region) {s : State} (h : RegsCanonical s) : RegsCanonical (regionFreed k x s) :=
  emitRecorder_canonical 1 _ _ _ (modRec (recWithout k) s) h

theorem eventSent_regionFreed (k : Nat) (x : Region) (s : State) :
    eventSent 0xD 1 (segIsland s (x.seqs.headD 0)) s.now [x.seqs.headD 0, x.trigger] s (regionFreed k x s) :=
  eventSent_congr_source (u := modRec (recWithout k) s) rfl rfl (eventSent_emit 0xD 1 _ _ _)

/-- Where a segment lies follows from the recorder, the channels and the partition. -/
theorem segIsland_tcmdTaken (q : CmdSpec) (c : Cmd) (s : State) (seq : Nat) :
    segIsland (tcmdTaken q c s) seq = segIsland s seq := by
  have recd : (tcmdTaken q c s).recd = s.recd := changesOnly_tcmdTaken q c s .recorder (by decide)
  simp [segIsland, recIsland, slotIsland, slotChannel, physicalOf, recd]

/-- The regions, segments and post-trigger part after a release, in any state with that recorder. -/
theorem without_regions {k : Nat} {s t : State} (sorted : keyed s.recd.regions) (freed : t.recd = recWithout k s.recd) :
    kvGet k t.recd.regions = none ∧ (∀ j, j ≠ k → kvGet j t.recd.regions = kvGet j s.recd.regions) ∧
      t.recd.post = (if s.recd.post = some k then none else s.recd.post) ∧ t.recd.segments = s.recd.segments ∧
      t.recd.current = s.recd.current ∧
      (∀ seq, (∀ j y, j ≠ k → kvGet j s.recd.regions = some y → seq ∉ y.seqs) → inFrozen t seq = false) := by
  rw [freed]
  refine ⟨kvGet_kvDel_same sorted k, fun j ne => kvGet_kvDel_ne sorted ne, rfl, rfl, rfl, fun seq free => ?_⟩
  rw [inFrozen, freed, List.any_eq_false]
  rintro ⟨j, y⟩ member held
  have frozen : seq ∈ y.seqs := by simp_all
  have left : kvGet j (kvDel k s.recd.regions) = some y := kvGet_of_mem (kvSortedFrom_kvDel k _ _ sorted) member
  have ne : j ≠ k := by
    rintro rfl
    rw [kvGet_kvDel_same sorted] at left
    cases left
  rw [kvGet_kvDel_ne sorted ne] at left
  exact free j y ne left frozen

theorem recReleaseCmd_target (c : Cmd) : modeTarget recReleaseCmd c := ⟨inOpen_congr, fun i named => by simp [recReleaseCmd] at named⟩

theorem recReleaseCmd_body {c : Cmd} {w : Waiter} {x : Region} {u : State}
    (here : kvGet (bodyWord c 0x08 % 4) u.recd.regions = some x) :
    recReleaseCmd.body ⟨w, c, []⟩ u = ⟨regionFreed (bodyWord c 0x08 % 4) x u, some 0, [], []⟩ := by
  simp only [recReleaseCmd]
  rw [releaseRegion_some here]
  rfl

/-- Settles O59: the register and the command free the region in the same way. -/
theorem regionRelease : Obligations.RegionRelease := by
  intro o z k x s sorted here form
  obtain ⟨rfl, rfl, opened⟩ | ⟨c, rfl, rfl, ready⟩ := form
  · obtain ⟨gone, others, post, segments, current, thawed⟩ := without_regions sorted (regionFreed_recd (z % 4) x s)
    have freed : exec (.release none z) s = .next (regionFreed (z % 4) x s) :=
      congrArg Host.Outcome.next ((pf0Write_of_open _ opened).trans (by rw [releaseRegion_some here]; rfl))
    exact ⟨_, freed, gone, others, post, segments, current, thawed, eventSent_regionFreed _ _ _, by simp, changesOnly_regionFreed _ _ _⟩
  · have recd : (tcmdTaken recReleaseCmd c s).recd = s.recd := changesOnly_tcmdTaken _ c s .recorder (by decide)
    have now : (tcmdTaken recReleaseCmd c s).now = s.now := changesOnly_tcmdTaken _ c s .masterTime (by decide)
    have freed := runCmd_shortMode ready (recReleaseCmd_target c) rfl (recReleaseCmd_body (by rwa [recd]))
    have left : (runCmd recReleaseCmd c s).recd = recWithout (bodyWord c 0x08 % 4) s.recd := by
      rw [freed, ← recd, ← regionFreed_recd]
      exact changesOnly_tcmdDone _ _ _ _ _ .recorder (by decide)
    obtain ⟨gone, others, post, segments, current, thawed⟩ := without_regions sorted left
    have sent := eventSent_regionFreed (bodyWord c 0x08 % 4) x (tcmdTaken recReleaseCmd c s)
    rw [segIsland_tcmdTaken, now] at sent
    have kept := changesOnly_regionFreed (bodyWord c 0x08 % 4) x (tcmdTaken recReleaseCmd c s)
    refine ⟨runCmd recReleaseCmd c s, rfl, gone, others, post, segments, current, thawed, ?_, ?_, ?_⟩
    · rw [freed]
      exact eventSent_answered ready (by decide) sent
    · rintro _ ⟨⟩
      rw [freed]
      exact tcmdAnswered_tcmdDone _ _ _ _ (regsCanonical_regionFreed _ _ (regsCanonical_tcmdTaken _ c ready.1))
    · rw [freed]
      exact changesOnly_answered ready kept (by simp) (.inr (.inl rfl))

end Sys2Proof.Proofs
end

section
/-! PROOFS. Batches and waves of PARK, temperature samples, the supply monitor and the date hint (R9, R59, R67, R515, R516, R538, R550,
R551). -/

namespace Sys2Proof.Proofs

open Sys2Proof Sys2Proof.Machine Sys2Proof.Safety Sys2Proof.Laws

/-! ## Batches and waves (R59, R515, R516, R551) -/

/-- The state once a batch has been started. -/
def batchStarted (s : State) : State := { s with svc := { s.svc with batches := s.svc.batches + 1 } }

theorem exec_parkBatchStart_started {figure power : Nat} {s : State} (mode : s.md.mode = .park) (wave : s.md.wave ≠ 0)
    (cool : s.svc.hot = false) (fits : figure + power ≤ s.svc.capW) :
    exec (.parkBatchStart figure power) s = .next (batchStarted s) :=
  congrArg Host.Outcome.next (if_pos (by simp [mode, wave, cool, fits]))

theorem exec_parkBatchStart_held {figure power : Nat} {s : State} (held : s.svc.hot = true ∨ s.svc.capW < figure + power) :
    exec (.parkBatchStart figure power) s = .next s :=
  congrArg Host.Outcome.next (if_neg (by
    rcases held with hot | beyond
    · simp [hot]
    · simp [Nat.not_le.mpr beyond]))

/-- The state when the results of a wave stand in the health map. -/
def waveReported (ms peakW blocks : Nat) (fails : List (Nat × Nat)) (s : State) : State :=
  let s1 := parkPass ms s
  let peak := max s1.svc.peakW (peakW % 65536)
  let s2 := healthPut 0x20 (toLE 2 peak) { s1 with svc := { s1.svc with peakW := peak } }
  waveResults s.md.wave peakW blocks (waveFails s.md.wave fails s2) s2

theorem exec_parkWaveComplete {ms peakW blocks : Nat} {fails : List (Nat × Nat)} {s : State} (mode : s.md.mode = .park)
    (wave : s.md.wave ≠ 0) :
    exec (.parkWaveComplete ms peakW blocks fails) s =
      .next (if s.md.wave < 12 then waveBegins (s.md.wave + 1) (waveReported ms peakW blocks fails s)
        else parkEnds (waveReported ms peakW blocks fails s)) :=
  congrArg Host.Outcome.next (if_pos (by simp [mode, wave]))

theorem waveReported_md (ms peakW blocks : Nat) (fails : List (Nat × Nat)) (s : State) :
    (waveReported ms peakW blocks fails s).md = s.md := by
  simp [waveReported, parkPass, healthPut]

theorem waveReported_side (ms peakW blocks : Nat) (fails : List (Nat × Nat)) (s : State) :
    (waveReported ms peakW blocks fails s).side = s.side := by
  simp [waveReported, parkPass, healthPut]

/-- The next wave begins with no batch running. -/
theorem waveBegins_md (w : Nat) (s : State) : (waveBegins w s).md = { s.md with wave := w } := by
  unfold waveBegins
  dsimp only
  split <;> simp

theorem waveBegins_batches (w : Nat) (s : State) : (waveBegins w s).svc.batches = 0 := by
  unfold waveBegins
  dsimp only
  split <;> simp

theorem parkEnds_md (s : State) : (parkEnds s).md = { s.md with parkDone := true, wave := 0 } := by
  simp [parkEnds, healthPut]

theorem parkEnds_headerOk (s : State) : (parkEnds s).mram.cache.headerOk = true := by
  simp [parkEnds]

theorem wEvent_eventEn (i : Nat) (s : State) : (wEvent i s).side.eventEn = s.side.eventEn := by
  unfold wEvent
  dsimp only
  split <;> rfl

theorem spAlert_of_bit {i : Nat} {s : State} (shown : bit i s.side.event = true) (enabled : bit i s.side.eventEn = true) :
    spAlert s = true := by
  have both : (s.side.event &&& s.side.eventEn).testBit i = true := by
    rw [Nat.testBit_and]
    simp only [bit] at shown enabled
    simp [shown, enabled]
  simp only [spAlert, bne_iff_ne]
  intro none
  simp [none] at both

theorem parkEnds_spAlert {s : State} (enabled : bit 5 s.side.eventEn = true) : spAlert (parkEnds s) = true :=
  spAlert_of_bit (bit_wEvent 5 _) (by
    rw [parkEnds, wEvent_eventEn]
    simpa [healthPut] using enabled)

/-- Settles O11. -/
theorem parkWaves : Obligations.ParkWaves := by
  refine ⟨fun figure power s mode wave => ⟨fun cool fits => ?_, fun held => ?_⟩, fun ms peakW blocks fails s mode first last => ?_,
    fun ms peakW blocks fails s mode last => ?_⟩
  · exact ⟨_, exec_parkBatchStart_started mode wave cool fits, rfl, changesOnly_of fun p => by cases p <;> simp [Part.same, batchStarted]⟩
  · exact ⟨s, exec_parkBatchStart_held held, changesOnly_refl _ s⟩
  · rw [exec_parkWaveComplete mode (by omega), if_pos last]
    exact ⟨_, rfl, by rw [waveBegins_md, waveReported_md], waveBegins_batches _ _⟩
  · rw [exec_parkWaveComplete mode (by omega), if_neg (by omega)]
    refine ⟨_, rfl, by rw [parkEnds_md, waveReported_md], parkEnds_headerOk _, fun enabled => parkEnds_spAlert ?_⟩
    rwa [waveReported_side]

/-! ## Samples (R550, R551) -/

theorem exec_temperatureSample {c : Temps} {s : State} (supplies : s.pins.supplies = true) (tested : sensorsTested s = false) :
    exec (.temperatureSample c) s = .next (takeSample c s) :=
  congrArg Host.Outcome.next (if_pos (by simp [supplies, tested]))

/-- The state once a sample is shown and has set the refresh of the stacks and the throttle of PARK. -/
def sampleShown (c : Temps) (s : State) : State :=
  parkThrottle c (forAll (stackRefresh c) (List.range 4) (forAll (sensorAlarm c) (List.range 5)
    { s with therm := { s.therm with temps := c, read := true, hotOnce := decide (degC 120 < c.die) } }))

theorem takeSample_eq (c : Temps) (s : State) :
    takeSample c s = whenDo (s.therm.hotOnce && decide (degC 120 < c.die)) (fatal 0x0005 95 []) (readStacks (sampleShown c s)) := rfl

theorem sampleShown_md (c : Temps) (s : State) : (sampleShown c s).md = s.md := by simp [sampleShown]

theorem sampleShown_svc (c : Temps) (s : State) :
    (sampleShown c s).svc = { s.svc with
      hot := decide (s.md.mode = .park) && (decide (degC 110 ≤ c.die) || (s.svc.hot && decide (degC 105 ≤ c.die))) } := by
  simp [sampleShown, parkThrottle]

/-- A fault in PARK leaves the batches, the throttle and the wave. -/
theorem fatal_park {code island : Nat} {d : List Nat} {s : State} (mode : s.md.mode = .park) :
    (fatal code island d s).svc.batches = s.svc.batches ∧ (fatal code island d s).svc.hot = s.svc.hot ∧
      (fatal code island d s).md.wave = s.md.wave := by
  simp only [fatal, mode]
  simp [healthFail, noteFault]

theorem readStacks_of_mode {s : State} (mode : s.md.mode ≠ .wake) : readStacks s = s := by simp [readStacks, mode]

/-- A sample in PARK leaves the batches and the wave, and sets the throttle. -/
theorem takeSample_park {c : Temps} {s : State} (mode : s.md.mode = .park) :
    (takeSample c s).svc.batches = s.svc.batches ∧
      (takeSample c s).svc.hot = (decide (degC 110 ≤ c.die) || (s.svc.hot && decide (degC 105 ≤ c.die))) ∧
      (takeSample c s).md.wave = s.md.wave := by
  have shown : (sampleShown c s).md.mode = .park := by rw [sampleShown_md, mode]
  have kept : (sampleShown c s).svc.batches = s.svc.batches ∧
      (sampleShown c s).svc.hot = (decide (degC 110 ≤ c.die) || (s.svc.hot && decide (degC 105 ≤ c.die))) ∧
      (sampleShown c s).md.wave = s.md.wave := by
    rw [sampleShown_md, sampleShown_svc]
    simp [mode]
  rw [takeSample_eq, readStacks_of_mode (by simp [shown])]
  cases s.therm.hotOnce && decide (degC 120 < c.die)
  · exact kept
  · obtain ⟨batches, hot, wave⟩ := fatal_park (code := 0x0005) (island := 95) (d := []) shown
    exact ⟨batches.trans kept.1, hot.trans kept.2.1, wave.trans kept.2.2⟩

/-- Settles O60: a sample changes in PARK whether the die holds batches back, and neither the batches nor the wave. -/
theorem hotDieStopsBatches : Obligations.HotDieStopsBatches := by
  intro s mode
  refine ⟨fun c supplies wave => ?_, fun figure power hot => ⟨s, exec_parkBatchStart_held (.inl hot), changesOnly_refl _ s⟩,
    fun ms peakW blocks fails _ first last => ?_⟩
  · obtain ⟨batches, hot, kept⟩ := takeSample_park (c := c) mode
    refine ⟨_, exec_temperatureSample supplies (by simp [sensorsTested, wave]), batches, kept, fun above => ?_, fun below => ?_,
      fun above below => ?_⟩ <;> rw [hot, degC, degC]
    · rw [decide_eq_true above, Bool.true_or]
    · rw [decide_eq_false (by omega), decide_eq_false (by omega), Bool.and_false, Bool.or_false]
    · rw [decide_eq_false (by omega), decide_eq_true above, Bool.and_true, Bool.false_or]
  · rw [exec_parkWaveComplete mode (by omega), if_pos last]
    exact ⟨_, rfl, by rw [waveBegins_md], waveBegins_batches _ _⟩

/-- The sensors' state with other alarms, and with other stacks refreshed at twice the rate. -/
def withAlarmed (l : List Nat) (s : State) : State := { s with therm := { s.therm with alarmed := l } }
def withRefresh (l : List Nat) (s : State) : State := { s with therm := { s.therm with fastRefresh := l } }

/-- A sensor below its limit raises no alarm. -/
theorem sensorAlarm_cool {c : Temps} {i : Nat} {s : State} (cool : sensorTemp c i < sensorLimit i) :
    ∃ l, sensorAlarm c i s = withAlarmed l s := by
  unfold sensorAlarm
  dsimp only
  rw [decide_eq_false (by omega), Bool.false_and, Bool.false_and, if_neg (by simp)]
  split
  · exact ⟨_, rfl⟩
  · exact ⟨s.therm.alarmed, rfl⟩

theorem sensorAlarms_cool {c : Temps} : ∀ {l : List Nat} {s : State}, (∀ i ∈ l, sensorTemp c i < sensorLimit i) →
    ∃ a, forAll (sensorAlarm c) l s = withAlarmed a s
  | [], s, _ => ⟨s.therm.alarmed, rfl⟩
  | i :: l, s, cool => by
    obtain ⟨a, first⟩ := sensorAlarm_cool (s := s) (cool i (by simp))
    obtain ⟨b, rest⟩ := sensorAlarms_cool (l := l) (s := sensorAlarm c i s) fun j m => cool j (List.mem_cons_of_mem _ m)
    exact ⟨b, rest.trans (by rw [first]; rfl)⟩

/-- A stack below 83 °C goes back to its own refresh rate. -/
theorem stackRefresh_cool {c : Temps} {h : Nat} {s : State} (cool : sensorTemp c (h + 1) < 16 * 83) :
    stackRefresh c h s = withRefresh (s.therm.fastRefresh.filter (· != h)) s := by
  have low : sensorTemp c (h + 1) < degC 83 := cool
  have notHigh : ¬degC 85 ≤ sensorTemp c (h + 1) := by
    simp only [degC]
    omega
  simp only [stackRefresh, notHigh, low, if_true, if_false]
  rfl

theorem stackRefreshes_cool {c : Temps} : ∀ {l : List Nat} {s : State}, (∀ h ∈ l, sensorTemp c (h + 1) < 16 * 83) →
    ∃ r, forAll (stackRefresh c) l s = withRefresh r s ∧ ∀ h ∈ r, h ∈ s.therm.fastRefresh ∧ h ∉ l
  | [], s, _ => ⟨s.therm.fastRefresh, rfl, by simp⟩
  | h :: l, s, cool => by
    have first := stackRefresh_cool (s := s) (cool h (by simp))
    obtain ⟨r, rest, slow⟩ := stackRefreshes_cool (l := l) (s := stackRefresh c h s) fun j m => cool j (List.mem_cons_of_mem _ m)
    refine ⟨r, rest.trans (by rw [first]; rfl), fun j m => ?_⟩
    obtain ⟨left, out⟩ := slow j m
    rw [first] at left
    have kept : j ∈ s.therm.fastRefresh.filter (· != h) := left
    rw [List.mem_filter] at kept
    exact ⟨kept.1, by simpa using ⟨by simpa using kept.2, out⟩⟩

/-- A sample of a device that is cool everywhere. -/
theorem takeSample_cool {c : Temps} {s : State} (mode : s.md.mode ≠ .wake) (die : c.die < 16 * 105) (hbm0 : c.hbm0 < 16 * 83)
    (hbm1 : c.hbm1 < 16 * 83) (hbm2 : c.hbm2 < 16 * 83) (hbm3 : c.hbm3 < 16 * 83) :
    (takeSample c s).therm.temps = c ∧ (takeSample c s).therm.hotOnce = false ∧ (∀ h < 4, h ∉ (takeSample c s).therm.fastRefresh) ∧
      (takeSample c s).svc.hot = false ∧ changesOnly [.sensors, .service] s (takeSample c s) := by
  have cool : decide (degC 120 < c.die) = false := decide_eq_false (by simp only [degC]; omega)
  have die110 : decide (degC 110 ≤ c.die) = false := decide_eq_false (by simp only [degC]; omega)
  have die105 : decide (degC 105 ≤ c.die) = false := decide_eq_false (by simp only [degC]; omega)
  obtain ⟨a, alarms⟩ := sensorAlarms_cool (c := c) (l := List.range 5)
    (s := { s with therm := { s.therm with temps := c, read := true, hotOnce := false } }) fun i m => by
      have small := List.mem_range.mp m
      interval_cases i <;> simp [sensorTemp, sensorLimit, degC] <;> omega
  obtain ⟨r, refreshes, slow⟩ := stackRefreshes_cool (c := c) (l := List.range 4)
    (s := withAlarmed a { s with therm := { s.therm with temps := c, read := true, hotOnce := false } }) fun i m => by
      have small := List.mem_range.mp m
      interval_cases i <;> simpa only [sensorTemp]
  have shown : sampleShown c s = parkThrottle c (withRefresh r (withAlarmed a
      { s with therm := { s.therm with temps := c, read := true, hotOnce := false } })) := by
    rw [sampleShown, cool, alarms, refreshes]
  have taken : takeSample c s = sampleShown c s := by
    rw [takeSample_eq, cool, Bool.and_false, readStacks_of_mode (by rwa [sampleShown_md])]
    rfl
  rw [taken, shown]
  refine ⟨rfl, rfl, fun h small m => (slow h m).2 (List.mem_range.mpr small), ?_, ?_⟩
  · simp [parkThrottle, die110, die105]
  · exact changesOnly_of fun p => by cases p <;> simp [Part.same, withRefresh, withAlarmed]

/-! ## The supply monitor (R538) -/

theorem exec_supplyMonitorCheck_quiet {r uv n : Nat} {s : State} (small : r < 9)
    (quiet : railLow r ≤ uv ∧ uv ≤ railHigh r ∨ 1 ≤ n ∧ n ≤ 10000 ∧ supplyAlarmDue s = false) :
    exec (.supplyMonitorCheck r uv n) s = .next s := by
  refine congrArg Host.Outcome.next ?_
  rw [Nat.mod_eq_of_lt small]
  rcases quiet with inside | ⟨_, short, soon⟩
  · exact if_pos (.inl inside)
  · split
    · rfl
    · rw [if_neg (by omega), soon]
      rfl

/-- The state once the supply monitor has raised an alarm. -/
def supplyAlarmed (s : State) : State := drew (alarm 0x0602 95 (draw s) { s with therm := { s.therm with supplyAt := some s.elapsed } })

theorem exec_supplyMonitorCheck_alarm {r uv n : Nat} {s : State} (small : r < 9) (outside : uv < railLow r ∨ railHigh r < uv)
    (some : 1 ≤ n) (short : n ≤ 10000) (mode : s.md.mode ≠ .reset) (due : supplyAlarmDue s = true) :
    exec (.supplyMonitorCheck r uv n) s = .next (supplyAlarmed s) := by
  refine congrArg Host.Outcome.next ?_
  rw [Nat.mod_eq_of_lt small, if_neg (by omega), if_neg (by omega), due]
  simp [whenDo, mode, supplyAlarmed, mgmtAlarm]

theorem changesOnly_supplyAlarmed (s : State) : changesOnly [.host, .sensors, .registers, .freeCount] s (supplyAlarmed s) :=
  changesOnly_of fun p => by cases p <;> simp [Part.same, supplyAlarmed, drew]

theorem eventSent_supplyAlarmed (s : State) :
    eventSent 3 1 95 s.now [0x0602 + 95 * 2 ^ 16, draw s % 2 ^ 32, draw s >>> 32 % 2 ^ 32, 0] s (supplyAlarmed s) :=
  eventSent_congr_target (t := alarm 0x0602 95 (draw s) { s with therm := { s.therm with supplyAt := some s.elapsed } }) rfl
    (eventSent_congr_source (u := { s with therm := { s.therm with supplyAt := some s.elapsed } }) rfl rfl (eventSent_emit 3 1 95 _ _))

/-! ## The date hint (R9, R67) -/

theorem exec_dateHintWrite_closed {high : Bool} {v : Word} {s : State} (reset : s.md.mode ≠ .reset) (wake : s.md.mode ≠ .wake) :
    exec (.dateHintWrite high v) s = .next s :=
  congrArg Host.Outcome.next (if_neg (by simp [reset, wake]))

/-- The state with the low word held. -/
def hintHeld (lo : Word) (s : State) : State := { s with lat := { s.lat with lowHeld := kvPut R.glbDateHint lo s.lat.lowHeld } }

/-- The state with both words taken. -/
def hintTaken (hi : Word) (s : State) : State :=
  { s with
    side := { s.side with
      dateHint := (kvGetD 0 R.glbDateHint s.lat.lowHeld).toNat + hi.toNat * 2 ^ 32,
      dateHintWritten := s.side.dateHintWritten || (decide (s.md.mode = .reset) && !s.pins.resetN) },
    lat := { s.lat with lowHeld := kvDel R.glbDateHint s.lat.lowHeld } }

theorem exec_dateHintWrite_low {v : Word} {s : State} (supplies : s.pins.supplies = true) (mode : s.md.mode = .reset ∨ s.md.mode = .wake) :
    exec (.dateHintWrite false v) s = .next (hintHeld v s) :=
  congrArg Host.Outcome.next (if_pos (by simpa [supplies] using mode))

theorem exec_dateHintWrite_high {v : Word} {s : State} (supplies : s.pins.supplies = true) (mode : s.md.mode = .reset ∨ s.md.mode = .wake) :
    exec (.dateHintWrite true v) s = .next (hintTaken v s) :=
  congrArg Host.Outcome.next (if_pos (by simpa [supplies] using mode))

/-- Settles O13. -/
theorem sensorsAndDateHint : Obligations.SensorsAndDateHint := by
  refine ⟨fun r uv n s small => ⟨fun outside some short mode due => ?_, fun quiet => ?_⟩,
    fun c s supplies mode tested die hbm0 hbm1 hbm2 hbm3 => ?_, fun lo hi s supplies mode => ?_, fun high v s reset wake => ?_⟩
  · exact ⟨_, draw s, exec_supplyMonitorCheck_alarm small outside some short mode due, by simp [supplyAlarmed, drew],
      eventSent_supplyAlarmed s, changesOnly_supplyAlarmed s⟩
  · exact ⟨s, exec_supplyMonitorCheck_quiet small quiet, changesOnly_refl _ s⟩
  · exact ⟨_, exec_temperatureSample supplies tested, takeSample_cool mode die hbm0 hbm1 hbm2 hbm3⟩
  · refine ⟨_, _, exec_dateHintWrite_low supplies mode, exec_dateHintWrite_high supplies mode, ?_, ?_, ?_⟩
    · simp [hintTaken, hintHeld, kvGetD, kvGet_kvPut]
    · exact changesOnly_of fun p => by cases p <;> simp [Part.same, hintHeld]
    · exact changesOnly_of fun p => by cases p <;> simp [Part.same, hintTaken, hintHeld]
  · exact ⟨s, exec_dateHintWrite_closed reset wake, changesOnly_refl _ s⟩

end Sys2Proof.Proofs
end

section
/-! PROOFS. Entering RESET and WAKE (R45, R46, R65, R540, R541). -/

namespace Sys2Proof.Proofs

open Sys2Proof Sys2Proof.Machine Sys2Proof.Safety Sys2Proof.Laws

/-! ## Entering RESET (R45, R65, R540, R541) -/

theorem resetFrom_enterReset (byCommand : Bool) (s : State) : resetFrom s (enterReset byCommand s) :=
  ⟨rfl, rfl, rfl, rfl, rfl, rfl, rfl, rfl, changesOnly_of fun p => by cases p <;> simp [Part.same, enterReset]⟩

/-- RESET is entered with a pin's new level. -/
def resetWith (p : Pins) (s : State) : State := enterReset false { s with pins := p }

theorem resetFrom_resetWith (p : Pins) (s : State) : resetFrom s (resetWith p s) :=
  resetFrom_enterReset false { s with pins := p }

/-- The free bits that a row has drawn are no part of what RESET starts from. -/
theorem resetFrom_drew {s t : State} (h : resetFrom (drew s) t) : resetFrom s t := h

/-- The state after the removal of power. -/
def powerRemoved (torn : Option MramRec) (s : State) : State :=
  { State.reset with
    dev := { s.dev with bootSel := 0, partySel := 0, sideAddr := 0 },
    pins := { resetN := s.pins.resetN, perstN := s.pins.perstN, supplies := false },
    mram := mramAfter torn s, hmem := s.hmem, free := s.free, pending := s.pending }

theorem exec_powerRemoval (torn : Option MramRec) (s : State) : exec (.powerRemoval torn) s = .next (powerRemoved torn s) := rfl

theorem resetFrom_powerRemoved (torn : Option MramRec) (s : State) :
    resetFrom { s with mram := mramAfter torn s } (powerRemoved torn s) :=
  ⟨rfl, rfl, rfl, rfl, rfl, rfl, rfl, rfl, changesOnly_of fun p => by cases p <;> simp [Part.same, powerRemoved]⟩

theorem mramAfter_kept {torn : Option MramRec} {s : State} (h : torn = none ∨ s.pins.resetN = false ∨ s.md.parkDone = true) :
    mramAfter torn s = s.mram := by
  cases torn with
  | none => rfl
  | some r => exact if_neg (by rcases h with h | h | h <;> simp_all)

theorem mramAfter_torn {r : MramRec} {s : State} (high : s.pins.resetN = true) (parking : s.md.parkDone = false) :
    mramAfter (some r) s = tearRecord r s.mram := if_pos ⟨high, parking⟩

theorem exec_powerOnDetect (rail uv : Nat) (s : State) :
    exec (.powerOnDetect rail uv) s =
      .next (if detectorTrips rail uv = true then resetWith { s.pins with supplies := false } s else s) := rfl

theorem exec_resetNLow_eq (ns : Nat) (s : State) :
    exec (.resetNLow ns) s =
      .next (whenDo (resetPasses s ns) (fun s => resetWith { s.pins with resetN := false } s)
        (whenDo (decide (900 ≤ ns) && decide (ns < 1100)) drew s)) := rfl

theorem exec_resetNLow_between {ns : Nat} {s : State} (low : 900 ≤ ns) (high : ns < 1100) :
    exec (.resetNLow ns) s =
      .next (if bit 0 (draw s) = true then resetWith { s.pins with resetN := false } (drew s) else drew s) := by
  simp only [exec_resetNLow_eq, resetPasses, low, high, show ¬1100 ≤ ns by omega, whenDo, decide_true, decide_false, Bool.and_true,
    Bool.false_or, Bool.true_and, if_true]
  rfl

theorem upperHalf (w : Word) : fld 31 16 w.toNat = w.toNat / 2 ^ 16 := by
  have small := w.isLt
  simp only [fld]
  omega

theorem exec_fullReset_key {w : Word} {s : State} (opened : resetOpen s = true) (key : w.toNat / 2 ^ 16 = 0x5AFE) :
    exec (.fullReset w) s = .next (enterReset true s) := by
  refine congrArg Host.Outcome.next ((if_pos opened).trans (if_pos ?_))
  rw [upperHalf, key]

theorem exec_fullReset_wrongKey {w : Word} {s : State} (reset : s.md.mode ≠ .reset) (park : s.md.mode ≠ .park)
    (key : w.toNat / 2 ^ 16 ≠ 0x5AFE) : exec (.fullReset w) s = .next (cmdResult 0xF 7 s) := by
  have opened := glbOpen_of_mode reset park
  refine congrArg Host.Outcome.next ((if_pos (by simp [resetOpen, opened])).trans ((if_neg ?_).trans (if_pos opened)))
  rwa [upperHalf]

/-! ## Entering WAKE (R45, R46, R540) -/

/-- WAKE begins from a state that differs from `s` in parts that WAKE may change. -/
theorem wakeFrom_beginWake {st : Straps} {s u : State} (mram : u.mram = s.mram)
    (only : changesOnly [.modes, .pins, .side, .sensors] s u) : wakeFrom st s (beginWake st u) := by
  refine ⟨by simp [beginWake, setMode_md], by simp [beginWake, setMode_md], by simp [beginWake], ?_, ?_, ?_, ?_, ?_, ?_⟩
  · simp [beginWake]
  · simp [beginWake]
  · simp [beginWake]
  · simp [beginWake, loadKeys, mram]
  · simp [beginWake, loadKeys, mram]
  · refine changesOnly_trans (changesOnly_mono only (by simp)) (changesOnly_of fun p => by cases p <;> simp [Part.same])

theorem beginWake_eventEn (st : Straps) (s : State) : (beginWake st s).side.eventEn = s.side.eventEn := by
  simp [beginWake, setMode, emitMode, wEvent_eventEn]

theorem exec_resetNHigh {st : Straps} {s : State} (mode : s.md.mode = .reset) (supplies : s.pins.supplies = true)
    (low : s.pins.resetN = false) :
    exec (.resetNHigh st) s = .next (beginWake st { s with pins := { s.pins with resetN := true } }) :=
  congrArg Host.Outcome.next (if_pos (by simp [mode, supplies, low]))

theorem exec_suppliesInRange {st : Straps} {s : State} (mode : s.md.mode = .reset) (supplies : s.pins.supplies = false)
    (high : s.pins.resetN = true) :
    exec (.suppliesInRange st) s = .next (beginWake st { s with
      pins := { s.pins with supplies := true }, side := { s.side with event := 0, eventEn := 0x6F }, therm := {} }) := by
  show Host.Outcome.next _ = _
  simp [whenDo, mode, supplies, high]

theorem exec_fullResetTimeout {st : Straps} {s : State} (mode : s.md.mode = .reset) (command : s.md.byFullReset = true) :
    exec (.fullResetTimeout st) s =
      .next (if s.pins.resetN = true then beginWake st s else { s with md := { s.md with byFullReset := false } }) :=
  congrArg Host.Outcome.next (if_pos (by simp [mode, command]))

theorem powerOnDetect_entersReset :
    (∀ (rail uv : Nat) (s : State),
      (detectorTrips rail uv = true → ∃ t, exec (.powerOnDetect rail uv) s = .next t ∧ resetFrom s t ∧ t.pins.supplies = false) ∧
      (detectorTrips rail uv = false → ∃ t, exec (.powerOnDetect rail uv) s = .next t ∧ changesOnly [] s t)) := by
  intro rail uv s
  refine ⟨fun trips => ?_, fun holds => ?_⟩
  · rw [exec_powerOnDetect, if_pos trips]
    exact ⟨_, rfl, resetFrom_resetWith _ s, rfl⟩
  · rw [exec_powerOnDetect, if_neg (by simp [holds])]
    exact ⟨s, rfl, changesOnly_refl _ s⟩

/-- Settles O7: every way into RESET is `enterReset` or the removal of power, and every way into WAKE `beginWake`. -/
theorem resetAndWakeEntered : Obligations.ResetAndWakeEntered := by
  refine ⟨⟨powerOnDetect_entersReset, fun torn s => ?_, fun ns s => ⟨fun long => ?_, fun short => ?_, fun low high => ?_⟩, fun w s opened key => ?_,
    fun w s reset park key => ?_⟩, fun st s mode supplies low => ?_, fun st s mode supplies high => ?_,
    fun st s mode command high => ?_, fun st s mode command low => ?_⟩
  · refine ⟨_, exec_powerRemoval torn s, resetFrom_powerRemoved torn s, rfl, mramAfter_kept, ?_⟩
    rintro r rfl high parking
    exact mramAfter_torn high parking
  · refine ⟨resetWith { s.pins with resetN := false } s, ?_, resetFrom_resetWith _ s, rfl⟩
    exact exec_resetNLow long s
  · refine ⟨s, ?_, changesOnly_refl _ s⟩
    simp [exec_resetNLow_eq, resetPasses, whenDo, show ¬900 ≤ ns by omega, show ¬1100 ≤ ns by omega]
  · rw [exec_resetNLow_between low high]
    refine ⟨_, rfl, ?_⟩
    split
    · exact .inl ⟨resetFrom_drew (resetFrom_resetWith _ (drew s)), rfl⟩
    · exact .inr (changesOnly_drew s)
  · exact ⟨_, exec_fullReset_key opened key, resetFrom_enterReset true s, rfl⟩
  · exact ⟨_, exec_fullReset_wrongKey reset park key, rfl, changesOnly_cmdResult _ _ s⟩
  · exact ⟨_, exec_resetNHigh mode supplies low,
      wakeFrom_beginWake rfl (changesOnly_of fun p => by cases p <;> simp [Part.same]), by simp⟩
  · exact ⟨_, exec_suppliesInRange mode supplies high,
      wakeFrom_beginWake rfl (changesOnly_of fun p => by cases p <;> simp [Part.same]), by simp, by rw [beginWake_eventEn]⟩
  · rw [exec_fullResetTimeout mode command, if_pos high]
    exact ⟨_, rfl, wakeFrom_beginWake rfl (changesOnly_refl _ s)⟩
  · rw [exec_fullResetTimeout mode command, if_neg (by simp [low])]
    exact ⟨_, rfl, mode, changesOnly_of fun p => by cases p <;> simp [Part.same]⟩

end Sys2Proof.Proofs
end

section
/-! PROOFS. Performance counters: zeroing, reads and windows (R143, R490, R491, R494, R496). -/

namespace Sys2Proof.Proofs

open Sys2Proof Sys2Proof.Machine Sys2Proof.Safety Sys2Proof.Laws

/-! ## Zeroing (R494) -/

/-- A counter started from 0, its windows in progress discarded. -/
def zeroed (first : Nat) (elapsed : Nat) (c : PmuCtr) : PmuCtr := { c with value := 0, since := elapsed, windows := [], first := first }

theorem changesOnly_zeroCtr (u k : Nat) (s : State) : changesOnly [.counters] s (zeroCtr u k s) := by
  unfold zeroCtr
  split
  · exact changesOnly_refl _ s
  · exact changesOnly_of fun p => by cases p <;> simp [Part.same]

theorem nextWindow_zeroCtr (u j k : Nat) (s : State) : nextWindow (zeroCtr u j s) u k = nextWindow s u k := by
  have kept := changesOnly_zeroCtr u j s
  rw [nextWindow, nextWindow, kept .masterTime (by decide), rg_congr (kept .registers (by decide))]

/-- Zeroing one counter leaves the others. -/
theorem kvGet_zeroCtr_ne {u k n : Nat} (ne : n ≠ 8 * u + k) (s : State) :
    kvGet n (zeroCtr u k s).pmu.ctrs = kvGet n s.pmu.ctrs := by
  unfold zeroCtr
  split
  · rfl
  · exact kvGet_kvPut_ne _ _ _ ne _

theorem kvGet_zeroCtr_same (u k : Nat) (s : State) :
    kvGet (8 * u + k) (zeroCtr u k s).pmu.ctrs = (kvGet (8 * u + k) s.pmu.ctrs).map (zeroed (nextWindow s u k) s.elapsed) := by
  unfold zeroCtr
  split
  · next off => rw [off]; rfl
  · next c here => rw [here]; exact kvGet_kvPut _ _ _

theorem kvGet_zeroCtrs_ne {u n : Nat} : ∀ {ks : List Nat} {s : State}, (∀ k ∈ ks, n ≠ 8 * u + k) →
    kvGet n (forAll (zeroCtr u) ks s).pmu.ctrs = kvGet n s.pmu.ctrs
  | [], _, _ => rfl
  | k :: ks, s, ne => (kvGet_zeroCtrs_ne fun j m => ne j (List.mem_cons_of_mem _ m)).trans (kvGet_zeroCtr_ne (ne k (by simp)) s)

theorem kvGet_zeroCtrs {u k : Nat} : ∀ {ks : List Nat} {s : State}, k ∈ ks → ks.Nodup →
    kvGet (8 * u + k) (forAll (zeroCtr u) ks s).pmu.ctrs =
      (kvGet (8 * u + k) s.pmu.ctrs).map (zeroed (nextWindow s u k) s.elapsed)
  | [], _, named, _ => absurd named List.not_mem_nil
  | j :: ks, s, named, distinct => by
    obtain ⟨fresh, later⟩ := List.nodup_cons.mp distinct
    rcases List.mem_cons.mp named with same | member
    · subst same
      have others : ∀ i ∈ ks, 8 * u + k ≠ 8 * u + i := fun i m same => fresh ((by omega : k = i) ▸ m)
      exact (kvGet_zeroCtrs_ne others).trans (kvGet_zeroCtr_same u k s)
    · have ne : 8 * u + k ≠ 8 * u + j := fun same => fresh ((by omega : k = j) ▸ member)
      have first := kvGet_zeroCtr_ne (u := u) (k := j) ne s
      have clock := changesOnly_zeroCtr u j s .elapsed (by decide)
      exact (kvGet_zeroCtrs member later).trans (by rw [first, nextWindow_zeroCtr, clock])

/-- The counters that a write of PMU_CMD names. -/
def zeroNamed (w : Word) : List Nat := (List.range 8).filter fun k => bit k w.toNat

theorem mem_zeroNamed {w : Word} {k : Nat} : k ∈ zeroNamed w ↔ k < 8 ∧ bit k w.toNat = true := by simp [zeroNamed]

theorem exec_zero {u : Nat} {w : Word} {s : State} (unit : u < 30) (opened : pf0Open (R.pmuCmd u) s) (present : pmuPresent s u = true) :
    exec (.zero u w) s = .next (forAll (zeroCtr u) (zeroNamed w) s) :=
  congrArg Host.Outcome.next ((if_pos unit).trans ((pf0Write_of_open _ opened).trans (if_pos present)))

/-! ## Reads (R143, R491, R496) -/

/-- The words latched beside a counter that is read: its high word, the cycles of the unit, its last rate and window. -/
def latchedWords (u k : Nat) (c : PmuCtr) (s : State) : List Nat :=
  [ctrHi s u k c, pmuCycles s u s.elapsed % 2 ^ 32, pmuCycles s u s.elapsed / 2 ^ 32 % 2 ^ 32, c.rate, c.win]

/-- The state once a counter is read and the words beside it are latched. -/
def counterLatched (u k : Nat) (viaAlias : Bool) (c : PmuCtr) (s : State) : State :=
  answer (c.value % 2 ^ 32) { s with pmu := { s.pmu with
    latched := kvPut (2 * (8 * u + k) + b2n viaAlias) (latchedWords u k c s) s.pmu.latched } }

theorem exec_counterRead {u k : Nat} {viaAlias : Bool} {c : PmuCtr} {s : State} (opened : hostOpen s = true) (unit : u < 30)
    (counter : k < 8) (present : pmuPresent s u = true) (here : kvGet (8 * u + k) s.pmu.ctrs = some c)
    (granted : viaAlias = false ∨ bit u (rg s R.prtGrantPmu) = true) :
    exec (.counterRead u k viaAlias) s = .next (counterLatched u k viaAlias c s) := by
  have allowed : ¬(pmuPresent s u = false ∨ viaAlias = true ∧ bit u (rg s R.prtGrantPmu) = false) := by
    rcases granted with granted | granted <;> simp [present, granted]
  have known : kvGetD {} (8 * u + k) s.pmu.ctrs = c := by simp [kvGetD, here]
  refine (congrArg Host.Outcome.next ((if_neg (by simp [opened, unit, counter])).trans (if_neg allowed)) :
    execCounterRead u k viaAlias s = _).trans ?_
  rw [known]
  rfl

theorem exec_counterRead_ungranted {u k : Nat} {s : State} (opened : hostOpen s = true) (unit : u < 30) (counter : k < 8)
    (ungranted : bit u (rg s R.prtGrantPmu) = false) : exec (.counterRead u k true) s = .next (answer 0 s) :=
  congrArg Host.Outcome.next ((if_neg (by simp [opened, unit, counter])).trans (if_pos (.inr ⟨rfl, ungranted⟩)))

/-! ## Windows (R490) -/

/-- A counter with the figures of its window `n`. -/
def windowed (total w n : Nat) (c : PmuCtr) : PmuCtr :=
  { c with
    value := total % 2 ^ 48, rate := satTo 0xFFFFFFFF (total * 8000 / w), win := n % 2 ^ 32, valid := true, first := n + 1,
    windows := c.windows.filter fun x => decide (n < x.1) }

theorem exec_windowPublish {u k : Nat} {c : PmuCtr} {s : State} (here : kvGet (8 * u + k) s.pmu.ctrs = some c)
    (window : fld 7 0 (pmuEvt s u k) = 0x30) (legal : pmuLegal u (pmuEvt s u k) = true) (sound : timFault s = false) :
    exec (.windowPublish u k) s = .next (setCtr u k
      (windowed (kvGetD 0 (windowDue s (max 1 (rg s (R.pmuWindow u k))) c) c.windows) (max 1 (rg s (R.pmuWindow u k)))
        (windowDue s (max 1 (rg s (R.pmuWindow u k))) c) c)
      (reach (usT ((windowDue s (max 1 (rg s (R.pmuWindow u k))) c + 1) * max 1 (rg s (R.pmuWindow u k)) + 256)) s)) := by
  refine (congrArg Host.Outcome.next ?_ : execWindowPublish u k s = _)
  rw [here]
  exact if_neg (by simp [window, legal, sound])

/-- Settles O53. -/
theorem performanceCounters : Obligations.PerformanceCounters := by
  refine ⟨fun u w s unit opened present => ?_, fun u k c viaAlias s opened unit counter present here => ⟨fun granted => ?_, ?_⟩,
    fun u k w n total c v s here window legal sound width due sum reached => ?_⟩
  · refine ⟨_, exec_zero unit opened present, fun k c counter named here => ?_, fun n unnamed => ?_, ?_⟩
    · rw [kvGet_zeroCtrs (mem_zeroNamed.mpr ⟨counter, named⟩) (List.nodup_range.filter _), here]
      rfl
    · exact kvGet_zeroCtrs_ne fun k member => unnamed k (mem_zeroNamed.mp member).1 (mem_zeroNamed.mp member).2
    · exact changesOnly_forAll (changesOnly_zeroCtr u) _ _
  · exact ⟨_, exec_counterRead opened unit counter present here granted, rfl, kvGet_kvPut _ _ _, rfl,
      changesOnly_of fun p => by cases p <;> simp [Part.same, counterLatched]⟩
  · rintro rfl ungranted
    exact ⟨_, exec_counterRead_ungranted opened unit counter ungranted, rfl, changesOnly_answer 0 s⟩
  · subst width due sum reached
    exact ⟨_, _, exec_windowPublish here window legal sound, kvGet_kvPut _ _ _, rfl, rfl, rfl, rfl, rfl,
      changesOnly_of fun p => by cases p <;> simp [Part.same]⟩

end Sys2Proof.Proofs
end

section
/-! PROOFS. Commands of ENG (R377, R388, R389). -/

namespace Sys2Proof.Proofs

open Sys2Proof Sys2Proof.Machine Sys2Proof.Safety Sys2Proof.Laws

/-! ## What commands that any mode allows leave -/

section
variable {q : CmdSpec} {c : Cmd} {s st : State} {data : List Byte} {ps : List Part}

/-- A part that the answer does not touch is as the target left it. -/
theorem same_tcmdDone (q : CmdSpec) (c : Cmd) (status : Nat) (result : List Byte) (st : State) {p : Part}
    (out : p ∉ [Part.tables, .generations, .registers]) : p.same st (tcmdDone q c status result st) :=
  changesOnly_tcmdDone q c status result st p out

/-- A command that the device answers into its buffer. -/
theorem runCmd_filled (ready : tcmdReady q c s) (target : modeTarget q c) (writes : q.form = .writesBuf) (reader : q.changes = false)
    (body : q.body ⟨tcmdWaiter q c s, c, []⟩ (tcmdTaken q c s) = ⟨st, some 0, [], data⟩) (canon : RegsCanonical st)
    (only : changesOnly ps (tcmdTaken q c s) st) (hmem : st.hmem = s.hmem)
    (named : [.counters, .registers, .hostMemory] ⊆ ps) :
    tcmdAnswered q c 0 [] (runCmd q c s) ∧ (runCmd q c s).hmem = bufWritten c data s ∧ changesOnly ps s (runCmd q c s) := by
  obtain ⟨_, form, _⟩ := checks_taken ready target
  obtain ⟨l, long⟩ := long_of_formOk form (by simp [writes])
  rw [runCmd_writesMode ready target writes reader body]
  refine ⟨tcmdAnswered_tcmdDone q c 0 [] (regsCanonical_bufFilled c data canon), ?_, ?_⟩
  · have kept : (tcmdDone q c 0 [] (bufFilled c data st)).hmem = (bufFilled c data st).hmem :=
      same_tcmdDone q c 0 [] (bufFilled c data st) (p := .hostMemory) (by decide)
    rw [kept]
    simp [bufFilled, bufWritten, dmaWrite_hmem, long, hmem]
  · exact changesOnly_answered ready (changesOnly_filled only named) (named (by simp)) (.inr (.inl reader))

/-- One whose target changes nothing. -/
theorem runCmd_shown (ready : tcmdReady q c s) (target : modeTarget q c) (writes : q.form = .writesBuf) (reader : q.changes = false)
    (body : q.body ⟨tcmdWaiter q c s, c, []⟩ (tcmdTaken q c s) = ⟨tcmdTaken q c s, some 0, [], data⟩) :
    tcmdAnswered q c 0 [] (runCmd q c s) ∧ (runCmd q c s).hmem = bufWritten c data s ∧
      changesOnly [.counters, .registers, .hostMemory] s (runCmd q c s) :=
  runCmd_filled ready target writes reader body (regsCanonical_tcmdTaken q c ready.1) (changesOnly_refl _ _) (tcmdTaken_hmem q c s)
    (List.Subset.refl _)

/-- The registers as a target finds them that reads a buffer. -/
theorem registersBut_bufRead_tcmdTaken (q : CmdSpec) (c : Cmd) (canon : RegsCanonical s) :
    registersBut (R.pmuOvf 29 :: (List.range 8).map R.fdbTcmd) s (bufRead c (tcmdTaken q c s)) :=
  registersBut_trans (registersBut_mono (registersBut_tcmdTaken q c canon) (List.subset_cons_self _ _))
    (registersBut_mono (bufRead_registers c (regsCanonical_tcmdTaken q c canon)).2 (by simp))

/-- The other parts as such a target finds them. -/
theorem changesOnly_bufRead_tcmdTaken (q : CmdSpec) (c : Cmd) (s : State) :
    changesOnly [.tables, .counters, .registers] s (bufRead c (tcmdTaken q c s)) :=
  changesOnly_trans (changesOnly_mono (changesOnly_tcmdTaken q c s) (by simp))
    (changesOnly_mono (changesOnly_pmuEv _ _ _ _ _ _) (by simp))

theorem regsCanonical_bufRead_tcmdTaken (q : CmdSpec) (c : Cmd) (canon : RegsCanonical s) :
    RegsCanonical (bufRead c (tcmdTaken q c s)) :=
  (bufRead_registers c (regsCanonical_tcmdTaken q c canon)).1

theorem curPar_congr {s u : State} (gen : u.gen = s.gen) : curPar u = curPar s := by rw [curPar, curPar, gen]

end

/-! ## Stores in each of some clusters -/

/-- Stores at other keys leave a key. -/
theorem kvGet_foldl_others {α : Type} {j : Nat} {f : List (Nat × α) → Nat → List (Nat × α)} :
    ∀ (cs : List Nat) (t : List (Nat × α)), (∀ t, ∀ c ∈ cs, kvGet j (f t c) = kvGet j t) → kvGet j (cs.foldl f t) = kvGet j t
  | [], _, _ => rfl
  | c :: cs, t, others => by
    rw [List.foldl_cons, kvGet_foldl_others cs (f t c) fun t d m => others t d (List.mem_cons_of_mem _ m), others t c (by simp)]

/-- A key stored in one cluster alone of those named. -/
theorem kvGet_foldl_named {α : Type} {j k : Nat} {v : Option α} {f : List (Nat × α) → Nat → List (Nat × α)}
    (stored : ∀ t, kvGet j (f t k) = v) (others : ∀ t c, c ≠ k → kvGet j (f t c) = kvGet j t) :
    ∀ {cs : List Nat} {t : List (Nat × α)}, k ∈ cs → kvGet j (cs.foldl f t) = v
  | c :: cs, t, named => by
    rw [List.foldl_cons]
    by_cases later : k ∈ cs
    · exact kvGet_foldl_named stored others later
    · obtain rfl : k = c := (List.mem_cons.mp named).resolve_right later
      rw [kvGet_foldl_others cs (f t k) fun t d m => others t d fun same => later (same ▸ m), stored]

theorem kvGet_putRun_inside {α : Type} (d : α) : ∀ (l : List α) (k i : Nat) (t : List (Nat × α)), i < l.length →
    kvGet (k + i) (putRun k l t) = some (nth d l i)
  | a :: l, k, 0, t, _ => by
    rw [putRun, kvGet_putRun l (k + 1) _ (.inl (by omega))]
    exact kvGet_kvPut k a t
  | a :: l, k, i + 1, t, inside => by
    rw [putRun, show k + (i + 1) = k + 1 + i by omega]
    exact kvGet_putRun_inside d l (k + 1) i _ (Nat.lt_of_succ_lt_succ inside)

theorem bundleKey_cluster_ne {k c p a b : Nat} (ne : c ≠ k) (insideA : a < 8192) (insideB : b < 8192) :
    bundleKey k p a ≠ bundleKey c p b := by
  simp only [bundleKey]
  omega

theorem bundleKey_cluster_apart {k c p a start n : Nat} (ne : c ≠ k) (inside : a < 8192) (fits : start + n ≤ 8192) :
    bundleKey k p a < bundleKey c p start ∨ bundleKey c p start + n ≤ bundleKey k p a := by
  simp only [bundleKey]
  omega

theorem bankKey_cluster_apart {k c p w start n : Nat} (ne : c ≠ k) (inside : w < 16384) (fits : start + n ≤ 16384) :
    bankKey k p w < bankKey c p start ∨ bankKey c p start + n ≤ bankKey k p w := by
  simp only [bankKey]
  omega

/-- Deletions in each of some clusters delete each one's key. -/
theorem kvGet_foldl_kvDel_gone {α : Type} {key : Nat → Nat} {j : Nat} :
    ∀ {cs : List Nat} {t : List (Nat × α)}, keyed t → (kvGet j t = none ∨ ∃ c ∈ cs, key c = j) →
      kvGet j (cs.foldl (fun t c => kvDel (key c) t) t) = none
  | [], _, _, gone => by simpa using gone
  | c :: cs, t, sorted, gone => by
    rw [List.foldl_cons]
    refine kvGet_foldl_kvDel_gone (kvSortedFrom_kvDel (key c) t 0 sorted) ?_
    by_cases here : key c = j
    · exact .inl (here ▸ kvGet_kvDel_same sorted (key c))
    · rw [kvGet_kvDel_ne sorted (Ne.symm here)]
      simpa [here] using gone

/-! ## The gate of a change of the staged banks (R99, R140) -/

theorem engGate_open {w : Nat} {f : State → CmdOut} {s u : State} (enabled : bit 0 (rg s R.prtEnable) = true)
    (serving : ∀ k ∈ maskClusters w, unitSt s 9 (80 + k) = 0) (enable : rg u R.prtEnable = rg s R.prtEnable) (svc : u.svc = s.svc) :
    engGate w f u = f u := by
  have units : ((maskClusters w).any fun c => unitSt u 9 (80 + c) ≠ 0) = false := by
    rw [List.any_eq_false]
    intro k named
    simpa [unitSt, svc] using serving k named
  rw [engGate, enable, enabled, units]
  rfl

theorem engineTarget {q : CmdSpec} {c : Cmd} {w : Nat} (modes : q.modes = inAny) (regions : q.regions c = clusterRegions w) :
    modeTarget q c := by
  refine ⟨fun _ _ _ => by rw [modes]; rfl, fun i named => ?_⟩
  simp only [regions, clusterRegions, maskClusters, List.mem_map, List.mem_filter, List.mem_range] at named
  omega

theorem readerTarget {q : CmdSpec} {c : Cmd} (modes : q.modes = inAny) (regions : q.regions c = []) : modeTarget q c :=
  ⟨fun _ _ _ => by rw [modes]; rfl, fun i named => by simp [regions] at named⟩

/-! ## LOAD (R377) -/

/-- The staged banks with a program registered in some clusters. -/
def withProgram (cs : List Nat) (p start : Nat) (bs : List (List Nat)) (x : Program) (s : State) : State :=
  { s with eng := { s.eng with
    bundles := cs.foldl (fun t c => putRun (bundleKey c p start) bs t) s.eng.bundles,
    programs := cs.foldl (fun t c => kvPut (bundleKey c p start) x t) s.eng.programs } }

section
variable {cs : List Nat} {p start : Nat} {bs : List (List Nat)} {x : Program} {s : State}

theorem programAt_withProgram {k : Nat} (low : start < 8192) (named : k ∈ cs) :
    programAt (withProgram cs p start bs x s) k p start = some x :=
  kvGet_foldl_named (fun _ => kvGet_kvPut _ _ _) (fun _ _ ne => kvGet_kvPut_ne _ _ _ (bundleKey_cluster_ne ne low low) _) named

theorem bundleAt_withProgram {k i : Nat} (fits : start + bs.length ≤ 8192) (inside : i < bs.length) (named : k ∈ cs) :
    bundleAt (withProgram cs p start bs x s) k p (start + i) = nth [] bs i := by
  have low : start + i < 8192 := by omega
  have key : bundleKey k p (start + i) = bundleKey k p start + i := (Nat.add_assoc _ _ _).symm
  have stored : kvGet (bundleKey k p (start + i)) (cs.foldl (fun t c => putRun (bundleKey c p start) bs t) s.eng.bundles) =
      some (nth [] bs i) :=
    kvGet_foldl_named (k := k) (fun t => by rw [key]; exact kvGet_putRun_inside [] bs _ i t inside)
      (fun t _ ne => kvGet_putRun bs _ t (bundleKey_cluster_apart ne low fits)) named
  simp [bundleAt, withProgram, kvGetD, Nat.mod_eq_of_lt low, stored]

/-- What the loader checks are the banks and programs of the clusters, their settings and their units. -/
theorem loadCheck_congr {u : State} (eng : u.eng = s.eng) (gen : u.gen = s.gen) (svc : u.svc = s.svc)
    (settings : ∀ c, pg u (curPar s) (R.engCfg c) = pg s (curPar s) (R.engCfg c)) :
    loadCheck u cs start bs = loadCheck s cs start bs := by
  have par : curPar u = curPar s := curPar_congr gen
  have programs : programsOf u = programsOf s := by
    funext c par
    rw [programsOf, programsOf, eng]
  have budget : budgetOk u = budgetOk s := by
    funext c w esl
    simp only [budgetOk, minEngines, enginesOf, pgF, par, settings, unitState, unitSt, svc]
  have free : regionFree u = regionFree s := by
    funext c start len
    simp only [regionFree, programs, par]
  simp only [loadCheck, programs, budget, free, par]

end

/-- The figures that LOAD answers beside W. -/
def lineSizes (cs : List Nat) (w : Nat) (esl : Bool) (s : State) : Nat :=
  cs.foldl (fun m _ => max m (lineSize 8 w esl)) 0 + cs.foldl (fun m c => max m (lineSize (minEngines s c) w esl)) 0 * 2 ^ 16

theorem engLoad_body {a : Ask} {u : State} {w : Nat} {esl : Bool}
    (gate : ∀ f, engGate (bodyWord a.cmd 0x14) f u = f u) (some' : 0 < fld 13 0 (bodyWord a.cmd 0x18))
    (most : fld 13 0 (bodyWord a.cmd 0x18) ≤ 8192) (bytes : dataBytes a.cmd = 16 * fld 13 0 (bodyWord a.cmd 0x18))
    (loads : loadCheck u (maskClusters (bodyWord a.cmd 0x14)) (fld 12 0 (bodyWord a.cmd 0x14))
      (bundlesOf (fld 13 0 (bodyWord a.cmd 0x18)) a.buf) = .inr (w, esl)) :
    engLoad.body a u = ⟨withProgram (maskClusters (bodyWord a.cmd 0x14)) (stagedPar u) (fld 12 0 (bodyWord a.cmd 0x14))
      (bundlesOf (fld 13 0 (bodyWord a.cmd 0x18)) a.buf) ⟨fld 13 0 (bodyWord a.cmd 0x18), w, esl⟩ u, some 0,
      toLE 4 w ++ toLE 4 (lineSizes (maskClusters (bodyWord a.cmd 0x14)) w esl u), []⟩ := by
  simp only [engLoad]
  rw [gate, if_neg (by omega)]
  simp only [loads]
  rfl

theorem engCfg_kept (k par : Nat) : R.engCfg k + viewSize * (par % 2) ∉ R.pmuOvf 29 :: (List.range 8).map R.fdbTcmd := by
  simp only [List.mem_cons, List.mem_map, List.mem_range, R.engCfg, R.pmuOvf, R.fdbTcmd, viewSize]
  omega

theorem prtEnable_kept : R.prtEnable ∉ R.pmuOvf 29 :: (List.range 8).map R.fdbTcmd := by decide

/-- The gate stays open while a command is taken and its buffer is read. -/
theorem engGate_ready {q : CmdSpec} {c : Cmd} {w : Nat} {s : State} (canon : RegsCanonical s)
    (enabled : bit 0 (rg s R.prtEnable) = true) (serving : ∀ k ∈ maskClusters w, unitSt s 9 (80 + k) = 0) (f : State → CmdOut) :
    engGate w f (bufRead c (tcmdTaken q c s)) = f (bufRead c (tcmdTaken q c s)) :=
  engGate_open enabled serving (rg_of_registersBut (registersBut_bufRead_tcmdTaken q c canon) prtEnable_kept) (by simp)

/-- A command that changes the staged banks alone, once its buffer is read, and what it leaves. -/
theorem runCmd_staged {q : CmdSpec} {c : Cmd} {s st : State} {result : List Byte} (ready : tcmdReady q c s) (target : modeTarget q c)
    (reads : q.form = .readsBuf) (shared : q.ownLength = false) (changes : q.changes = true)
    (body : q.body ⟨tcmdWaiter q c s, c, bufBytes c s⟩ (bufRead c (tcmdTaken q c s)) = ⟨st, some 0, result, []⟩)
    (only : changesOnly [.engines] (bufRead c (tcmdTaken q c s)) st) :
    tcmdAnswered q c 0 result (runCmd q c s) ∧ (runCmd q c s).eng = st.eng ∧ (runCmd q c s).gen = { s.gen with dirty := true } ∧
      changesOnly [.generations, .engines, .counters, .registers] s (runCmd q c s) := by
  obtain ⟨_, form, _⟩ := checks_taken ready target
  have regs : st.regs = (bufRead c (tcmdTaken q c s)).regs := only .registers (by decide)
  have gen : st.gen = (bufRead c (tcmdTaken q c s)).gen := only .generations (by decide)
  have canon := (regsCanonical_congr regs).mpr (regsCanonical_bufRead_tcmdTaken q c ready.1)
  rw [runCmd_readsMode ready target reads (lengthOk_of_formOk form (by simp [reads]) shared) body]
  refine ⟨tcmdAnswered_tcmdDone q c 0 result canon, same_tcmdDone q c 0 result st (p := .engines) (by decide), ?_, ?_⟩
  · simp [tcmdDone_gen, changes, gen]
  · exact changesOnly_answered ready (changesOnly_read (changesOnly_mono only (by simp)) (by simp) (by simp)) (by simp) (.inl (by simp))

theorem load_done {c : Cmd} {s : State} {cs : List Nat} {start n w : Nat} {esl : Bool} (ready : tcmdReady engLoad c s)
    (enabled : bit 0 (rg s R.prtEnable) = true) (clusters : cs = maskClusters (bodyWord c 0x14))
    (serving : ∀ k ∈ cs, unitSt s 9 (80 + k) = 0) (place : start = fld 12 0 (bodyWord c 0x14)) (size : n = fld 13 0 (bodyWord c 0x18))
    (some' : 0 < n) (most : n ≤ 8192) (bytes : dataBytes c = 16 * n)
    (loads : loadCheck s cs start (bundlesOf n (bufBytes c s)) = .inr (w, esl)) :
    ∃ t r, exec (.load c) s = .next t ∧ tcmdAnswered engLoad c 0 (toLE 4 w ++ r) t ∧
      (∀ k ∈ cs, programAt t k (stagedPar s) start = some { len := n, w := w, esl := esl }) ∧
      (∀ k ∈ cs, ∀ i < n, bundleAt t k (stagedPar s) (start + i) = nth [] (bundlesOf n (bufBytes c s)) i) ∧
      (∀ k a, a < 8192 → programAt t k (curPar s) a = programAt s k (curPar s) a ∧
        bundleAt t k (curPar s) a = bundleAt s k (curPar s) a) ∧
      t.gen = { s.gen with dirty := true } ∧ changesOnly [.generations, .engines, .counters, .registers] s t := by
  subst clusters place size
  have before := changesOnly_bufRead_tcmdTaken engLoad c s
  have eng : (bufRead c (tcmdTaken engLoad c s)).eng = s.eng := before .engines (by decide)
  have staged : stagedPar (bufRead c (tcmdTaken engLoad c s)) = stagedPar s := by simp
  have current : curPar (bufRead c (tcmdTaken engLoad c s)) = curPar s := curPar_congr (by simp)
  have settings : ∀ k, pg (bufRead c (tcmdTaken engLoad c s)) (curPar s) (R.engCfg k) = pg s (curPar s) (R.engCfg k) := fun k =>
    congrArg BitVec.toNat (registersBut_bufRead_tcmdTaken engLoad c ready.1 _ (engCfg_kept k (curPar s)))
  have body := engLoad_body (a := ⟨tcmdWaiter engLoad c s, c, bufBytes c s⟩) (engGate_ready ready.1 enabled serving) some' most bytes
    ((loadCheck_congr eng (by simp) (by simp) settings).trans loads)
  have kept := engLoad_currentKept ⟨tcmdWaiter engLoad c s, c, bufBytes c s⟩ (bufRead c (tcmdTaken engLoad c s))
  rw [body] at kept
  obtain ⟨answered, left, gen, only⟩ := runCmd_staged ready (engineTarget rfl rfl) rfl rfl rfl body
    (changesOnly_of fun p => by cases p <;> simp [Part.same, withProgram])
  have length := bundlesOf_length (fld 13 0 (bodyWord c 0x18)) (bufBytes c s)
  have fits := loadCheck_inside loads
  refine ⟨_, _, rfl, answered, fun k named => ?_, fun k named i inside => ?_, fun k a inside => ?_, gen, only⟩
  · rw [programAt, left, ← staged]
    exact programAt_withProgram (by omega) named
  · rw [bundleAt, left, ← staged]
    exact bundleAt_withProgram fits (inside.trans_eq length.symm) named
  · have same := kept.programs k a inside
    rw [current] at same
    rw [programAt, bundleAt, left]
    exact ⟨same.1.trans (by rw [programAt, programAt, eng]), same.2.trans (by rw [bundleAt, bundleAt, eng])⟩

/-! ## UNLOAD, READ and the table banks (R388) -/

/-- The staged banks without a program in some clusters. -/
def withoutProgram (cs : List Nat) (p start : Nat) (s : State) : State :=
  { s with eng := { s.eng with programs := cs.foldl (fun t c => kvDel (bundleKey c p start) t) s.eng.programs } }

theorem changesOnly_withoutProgram (cs : List Nat) (p start : Nat) (s : State) :
    changesOnly [.engines] s (withoutProgram cs p start s) :=
  changesOnly_of fun p => by cases p <;> simp [Part.same, withoutProgram]

theorem engUnload_body {a : Ask} {u : State} (gate : ∀ f, engGate (bodyWord a.cmd 0x08) f u = f u)
    (registered : ∀ k ∈ maskClusters (bodyWord a.cmd 0x08),
      (programAt u k (stagedPar u) (fld 12 0 (bodyWord a.cmd 0x08))).isSome = true) :
    engUnload.body a u = ⟨withoutProgram (maskClusters (bodyWord a.cmd 0x08)) (stagedPar u) (fld 12 0 (bodyWord a.cmd 0x08)) u,
      some 0, [], []⟩ := by
  simp only [engUnload]
  rw [gate, if_neg]
  · rfl
  · simpa [stagedPar, Option.isSome_iff_ne_none] using registered

/-- The gate stays open while a command is taken. -/
theorem engGate_taken {q : CmdSpec} {c : Cmd} {w : Nat} {s : State} (canon : RegsCanonical s)
    (enabled : bit 0 (rg s R.prtEnable) = true) (serving : ∀ k ∈ maskClusters w, unitSt s 9 (80 + k) = 0) (f : State → CmdOut) :
    engGate w f (tcmdTaken q c s) = f (tcmdTaken q c s) :=
  engGate_open enabled serving (rg_of_registersBut (registersBut_tcmdTaken q c canon) (by decide)) (by simp)

theorem unload_done {c : Cmd} {s : State} {cs : List Nat} {start : Nat} (ready : tcmdReady engUnload c s)
    (enabled : bit 0 (rg s R.prtEnable) = true) (clusters : cs = maskClusters (bodyWord c 0x08))
    (serving : ∀ k ∈ cs, unitSt s 9 (80 + k) = 0) (place : start = fld 12 0 (bodyWord c 0x08)) (sorted : keyed s.eng.programs)
    (registered : ∀ k ∈ cs, (programAt s k (stagedPar s) start).isSome = true) :
    ∃ t, exec (.unload c) s = .next t ∧ tcmdAnswered engUnload c 0 [] t ∧
      (∀ k ∈ cs, programAt t k (stagedPar s) start = none) ∧
      (∀ k a, a < 8192 → programAt t k (curPar s) a = programAt s k (curPar s) a) ∧
      t.gen = { s.gen with dirty := true } ∧ registersBut tcmdRegs s t ∧
      changesOnly [.generations, .engines, .registers] s t := by
  subst clusters place
  have taken := regsCanonical_tcmdTaken engUnload c ready.1
  have eng : (tcmdTaken engUnload c s).eng = s.eng := changesOnly_tcmdTaken engUnload c s .engines (by decide)
  have current : curPar (tcmdTaken engUnload c s) = curPar s := curPar_congr (by simp)
  have body := engUnload_body (a := ⟨tcmdWaiter engUnload c s, c, []⟩) (u := tcmdTaken engUnload c s)
    (engGate_taken ready.1 enabled serving) (by simpa [programAt, eng] using registered)
  have kept := engUnload_currentKept ⟨tcmdWaiter engUnload c s, c, []⟩ (s := tcmdTaken engUnload c s) (by rwa [eng])
  rw [body] at kept
  have run := runCmd_shortMode ready (engineTarget rfl rfl) rfl body
  have left : (runCmd engUnload c s).eng = (withoutProgram (maskClusters (bodyWord c 0x08)) (stagedPar (tcmdTaken engUnload c s))
      (fld 12 0 (bodyWord c 0x08)) (tcmdTaken engUnload c s)).eng :=
    (congrArg State.eng run).trans (same_tcmdDone engUnload c 0 [] _ (p := .engines) (by decide))
  have only := changesOnly_withoutProgram (maskClusters (bodyWord c 0x08)) (stagedPar (tcmdTaken engUnload c s))
    (fld 12 0 (bodyWord c 0x08)) (tcmdTaken engUnload c s)
  have regs : State.regs _ = (tcmdTaken engUnload c s).regs := only .registers (by decide)
  have canon := (regsCanonical_congr regs).mpr taken
  refine ⟨_, rfl, ?_, fun k named => ?_, fun k a inside => ?_, ?_, ?_, ?_⟩
  · rw [run]
    exact tcmdAnswered_tcmdDone _ _ _ _ canon
  · rw [programAt, left, withoutProgram, eng]
    exact kvGet_foldl_kvDel_gone sorted (.inr ⟨k, named, by simp⟩)
  · have same := kept.programs k a inside
    rw [current] at same
    rw [programAt, left]
    exact same.1.trans (by rw [programAt, programAt, eng])
  · rw [run, tcmdDone_gen]
    simp [withoutProgram, engUnload]
  · rw [run]
    exact registersBut_trans (registersBut_mono (registersBut_tcmdTaken engUnload c ready.1) (List.subset_append_left _ _))
      (registersBut_trans (registersBut_of_regs regs _)
        (registersBut_mono (registersBut_tcmdDone engUnload c 0 [] canon) (List.subset_append_right _ _)))
  · rw [run]
    exact changesOnly_answered ready (changesOnly_mono only (by simp)) (by simp) (.inl (by simp))

theorem engRead_body {a : Ask} {u : State} {k : Nat} (cluster : maskClusters (bodyWord a.cmd 0x14) = [k])
    (some' : 0 < fld 13 0 (bodyWord a.cmd 0x18)) (fits : fld 12 0 (bodyWord a.cmd 0x14) + fld 13 0 (bodyWord a.cmd 0x18) ≤ 8192)
    (bytes : dataBytes a.cmd = 16 * fld 13 0 (bodyWord a.cmd 0x18)) :
    engRead.body a u = ⟨u, some 0, [], (List.range (fld 13 0 (bodyWord a.cmd 0x18))).flatMap fun i =>
      bytesOfWords (bundleAt u k (fld 16 16 (bodyWord a.cmd 0x18)) (fld 12 0 (bodyWord a.cmd 0x14) + i))⟩ := by
  simp only [engRead, cluster]
  rw [if_neg (by omega)]
  rfl

/-- The staged table banks with words written in some clusters. -/
def withWords (cs : List Nat) (p word : Nat) (ws : List Nat) (s : State) : State :=
  { s with eng := { s.eng with banks := cs.foldl (fun t c => putRun (bankKey c p word) ws t) s.eng.banks } }

theorem engTblWrite_body {a : Ask} {u : State} (gate : ∀ f, engGate (bodyWord a.cmd 0x14) f u = f u)
    (run : bankRun (fld 15 0 (bodyWord a.cmd 0x14)) (dataBytes a.cmd) = true) :
    engTblWrite.body a u = ⟨withWords (maskClusters (bodyWord a.cmd 0x14)) (stagedPar u) (fld 15 0 (bodyWord a.cmd 0x14) / 4)
      (wordsLE (dataBytes a.cmd / 4) a.buf) u, some 0, [], []⟩ := by
  simp only [engTblWrite, run]
  rw [gate]
  rfl

theorem banks_withWords {cs ws : List Nat} {p word k i : Nat} {s : State} (fits : word + ws.length ≤ 16384) (inside : i < ws.length)
    (named : k ∈ cs) : kvGetD 0 (bankKey k p (word + i)) (withWords cs p word ws s).eng.banks = nth 0 ws i := by
  have key : bankKey k p (word + i) = bankKey k p word + i := (Nat.add_assoc _ _ _).symm
  have stored : kvGet (bankKey k p (word + i)) (cs.foldl (fun t c => putRun (bankKey c p word) ws t) s.eng.banks) =
      some (nth 0 ws i) :=
    kvGet_foldl_named (k := k) (fun t => by rw [key]; exact kvGet_putRun_inside 0 ws _ i t inside)
      (fun t _ ne => kvGet_putRun ws _ t (bankKey_cluster_apart ne (by omega) fits)) named
  simp [withWords, kvGetD, stored]

theorem bankRun_of {off n : Nat} (aligned : off % 8 = 0) (fits : off + n ≤ 65536) : bankRun off n = true := by
  simp [bankRun, aligned, fits]

theorem tblWrite_done {c : Cmd} {s : State} {cs : List Nat} {off n : Nat} (ready : tcmdReady engTblWrite c s)
    (enabled : bit 0 (rg s R.prtEnable) = true) (clusters : cs = maskClusters (bodyWord c 0x14))
    (serving : ∀ k ∈ cs, unitSt s 9 (80 + k) = 0) (place : off = fld 15 0 (bodyWord c 0x14)) (size : n = dataBytes c)
    (aligned : off % 8 = 0) (fits : off + n ≤ 65536) :
    ∃ t, exec (.tblWrite c) s = .next t ∧ tcmdAnswered engTblWrite c 0 [] t ∧
      (∀ k ∈ cs, ∀ i < n / 4, kvGetD 0 (bankKey k (stagedPar s) (off / 4 + i)) t.eng.banks =
        nth 0 (wordsLE (n / 4) (bufBytes c s)) i) ∧
      (∀ k i, i < 16384 → kvGetD 0 (bankKey k (curPar s) i) t.eng.banks = kvGetD 0 (bankKey k (curPar s) i) s.eng.banks) ∧
      t.gen = { s.gen with dirty := true } ∧ changesOnly [.generations, .engines, .counters, .registers] s t := by
  subst clusters place size
  have before := changesOnly_bufRead_tcmdTaken engTblWrite c s
  have eng : (bufRead c (tcmdTaken engTblWrite c s)).eng = s.eng := before .engines (by decide)
  have staged : stagedPar (bufRead c (tcmdTaken engTblWrite c s)) = stagedPar s := by simp
  have current : curPar (bufRead c (tcmdTaken engTblWrite c s)) = curPar s := curPar_congr (by simp)
  have body := engTblWrite_body (a := ⟨tcmdWaiter engTblWrite c s, c, bufBytes c s⟩)
    (u := bufRead c (tcmdTaken engTblWrite c s)) (engGate_ready ready.1 enabled serving)
    (bankRun_of aligned fits)
  have kept := engTblWrite_currentKept ⟨tcmdWaiter engTblWrite c s, c, bufBytes c s⟩ (bufRead c (tcmdTaken engTblWrite c s))
  rw [body] at kept
  obtain ⟨answered, left, gen, only⟩ := runCmd_staged ready (engineTarget rfl rfl) rfl rfl rfl body
    (changesOnly_of fun p => by cases p <;> simp [Part.same, withWords])
  have length := wordsLE_length (dataBytes c / 4) (bufBytes c s)
  refine ⟨_, rfl, answered, fun k named i inside => ?_, fun k i inside => ?_, gen, only⟩
  · rw [left, ← staged]
    exact banks_withWords (length.symm ▸ by omega) (inside.trans_eq length.symm) named
  · have same := kept.banks k i inside
    rw [current, eng] at same
    rw [left]
    exact same

theorem engTblRead_body {a : Ask} {u : State} {k : Nat} (cluster : maskClusters (bodyWord a.cmd 0x14) = [k])
    (run : bankRun (fld 15 0 (bodyWord a.cmd 0x14)) (dataBytes a.cmd) = true) :
    engTblRead.body a u = ⟨u, some 0, [], bytesOfWords ((List.range (dataBytes a.cmd / 4)).map fun i =>
      kvGetD 0 (bankKey k (fld 16 16 (bodyWord a.cmd 0x18)) (fld 15 0 (bodyWord a.cmd 0x14) / 4 + i)) u.eng.banks)⟩ := by
  simp only [engTblRead, cluster, run]
  rfl

/-! ## The engine store (R389) -/

/-- Words that were written are read as they are. -/
theorem readStore_written : ∀ {k w : Nat} {s : State} {ws : List Nat}, ws.length = k →
    (∀ i < k, kvGet (w + i) s.eng.store = some (nth 0 ws i)) → readStore k w s = (ws, s)
  | 0, _, _, [], _, _ => rfl
  | k + 1, w, s, v :: ws, length, here => by
    have first : kvGet w s.eng.store = some v := here 0 (by omega)
    have rest := readStore_written (k := k) (w := w + 1) (s := s) (ws := ws) (by simpa using length) fun i inside => by
      have next := here (i + 1) (by omega)
      rwa [show w + (i + 1) = w + 1 + i by omega] at next
    simp only [readStore, readOpen, first]
    rw [rest]

/-- The state with words in the engine store. -/
def withStore (word : Nat) (ws : List Nat) (s : State) : State :=
  { s with eng := { s.eng with store := putRun word ws s.eng.store } }

theorem engEsWrite_body {a : Ask} {u : State} (run : storeRun u (ofLE (bodyAt a.cmd 0x14 8)) (dataBytes a.cmd) = true)
    (there : storeLost u (ofLE (bodyAt a.cmd 0x14 8)) (dataBytes a.cmd) = false) :
    engEsWrite.body a u = ⟨storeBursts true (ofLE (bodyAt a.cmd 0x14 8)) (dataBytes a.cmd)
      (withStore (ofLE (bodyAt a.cmd 0x14 8) / 4) (wordsLE (dataBytes a.cmd / 4) a.buf) u), some 0, [], []⟩ := by
  simp only [engEsWrite, run, there]
  rfl

theorem engEsRead_body {a : Ask} {u : State} {ws : List Nat} (run : storeRun u (ofLE (bodyAt a.cmd 0x14 8)) (dataBytes a.cmd) = true)
    (there : storeLost u (ofLE (bodyAt a.cmd 0x14 8)) (dataBytes a.cmd) = false)
    (words : readStore (dataBytes a.cmd / 4) (ofLE (bodyAt a.cmd 0x14 8) / 4) u = (ws, u)) :
    engEsRead.body a u = ⟨storeBursts false (ofLE (bodyAt a.cmd 0x14 8)) (dataBytes a.cmd) u, some 0, [], bytesOfWords ws⟩ := by
  simp only [engEsRead, run, there, words]
  rfl

theorem storeRun_congr {s u : State} (buf : u.buf = s.buf) (off n : Nat) : storeRun u off n = storeRun s off n := by
  rw [storeRun, storeRun, storeSize, storeSize, buf]

theorem storeLost_congr {s u : State} (svc : u.svc = s.svc) (off n : Nat) : storeLost u off n = storeLost s off n := by
  have away : channelAway u = channelAway s := by
    funext k
    simp only [channelAway, unitAway_congr svc, physicalOf, svc]
  simp only [storeLost, away]

theorem changesOnly_storeBursts (write : Bool) (off n : Nat) (s : State) :
    changesOnly [.counters, .registers] s (storeBursts write off n s) :=
  changesOnly_of fun p => by cases p <;> simp [Part.same]

theorem esWrite_done {c : Cmd} {s : State} {off n : Nat} (ready : tcmdReady engEsWrite c s) (place : off = ofLE (bodyAt c 0x14 8))
    (size : n = dataBytes c) (run : storeRun s off n = true) (there : storeLost s off n = false) :
    ∃ t, exec (.esWrite c) s = .next t ∧ tcmdAnswered engEsWrite c 0 [] t ∧
      (∀ i < n / 4, kvGet (off / 4 + i) t.eng.store = some (nth 0 (wordsLE (n / 4) (bufBytes c s)) i)) ∧
      (∀ j, j < off / 4 ∨ off / 4 + n / 4 ≤ j → kvGet j t.eng.store = kvGet j s.eng.store) ∧
      changesOnly [.engines, .counters, .registers] s t := by
  subst place size
  have target : modeTarget engEsWrite c := ⟨fun _ _ _ => rfl, fun i named => by simp [engEsWrite] at named; omega⟩
  obtain ⟨_, form, _⟩ := checks_taken ready target
  have before := changesOnly_bufRead_tcmdTaken engEsWrite c s
  have eng : (bufRead c (tcmdTaken engEsWrite c s)).eng = s.eng := before .engines (by decide)
  have body := engEsWrite_body (a := ⟨tcmdWaiter engEsWrite c s, c, bufBytes c s⟩) (u := bufRead c (tcmdTaken engEsWrite c s))
    ((storeRun_congr (before .buffer (by decide)) _ _).trans run) ((storeLost_congr (before .service (by decide)) _ _).trans there)
  have ran := runCmd_readsMode ready target rfl (lengthOk_of_formOk form (by simp [engEsWrite]) rfl) body
  have bursts := changesOnly_storeBursts true (ofLE (bodyAt c 0x14 8)) (dataBytes c) (withStore (ofLE (bodyAt c 0x14 8) / 4)
    (wordsLE (dataBytes c / 4) (bufBytes c s)) (bufRead c (tcmdTaken engEsWrite c s)))
  have stored : (runCmd engEsWrite c s).eng.store = putRun (ofLE (bodyAt c 0x14 8) / 4) (wordsLE (dataBytes c / 4) (bufBytes c s))
      s.eng.store := by
    have done : (runCmd engEsWrite c s).eng = _ :=
      (congrArg State.eng ran).trans (same_tcmdDone engEsWrite c 0 [] _ (p := .engines) (by decide))
    have burst : State.eng _ = State.eng _ := bursts .engines (by decide)
    rw [done, burst, withStore, eng]
  have length := wordsLE_length (dataBytes c / 4) (bufBytes c s)
  refine ⟨_, rfl, ?_, fun i inside => ?_, fun j outside => ?_, ?_⟩
  · rw [ran]
    exact tcmdAnswered_tcmdDone _ _ _ _ (storeBursts_canonical _ _ _ _ (regsCanonical_bufRead_tcmdTaken engEsWrite c ready.1))
  · rw [stored]
    exact kvGet_putRun_inside 0 _ _ i _ (inside.trans_eq length.symm)
  · rw [stored]
    exact kvGet_putRun _ _ _ (length.symm ▸ outside)
  · rw [ran]
    refine changesOnly_answered ready (changesOnly_read ?_ (by simp) (by simp)) (by simp) (.inr (.inl rfl))
    exact changesOnly_trans (changesOnly_of fun p => by cases p <;> simp [Part.same, withStore]) (changesOnly_mono bursts (by simp))

theorem esRead_done {c : Cmd} {s : State} {off n : Nat} {ws : List Nat} (ready : tcmdReady engEsRead c s)
    (place : off = ofLE (bodyAt c 0x14 8)) (size : n = dataBytes c) (run : storeRun s off n = true) (there : storeLost s off n = false)
    (length : ws.length = n / 4) (written : ∀ i < n / 4, kvGet (off / 4 + i) s.eng.store = some (nth 0 ws i)) :
    ∃ t, exec (.esRead c) s = .next t ∧ tcmdAnswered engEsRead c 0 [] t ∧ t.hmem = bufWritten c (bytesOfWords ws) s ∧
      changesOnly [.engines, .counters, .registers, .hostMemory] s t := by
  subst place size
  have taken := changesOnly_tcmdTaken engEsRead c s
  have eng : (tcmdTaken engEsRead c s).eng = s.eng := taken .engines (by decide)
  have body := engEsRead_body (a := ⟨tcmdWaiter engEsRead c s, c, []⟩) (u := tcmdTaken engEsRead c s)
    ((storeRun_congr (taken .buffer (by decide)) _ _).trans run) ((storeLost_congr (taken .service (by decide)) _ _).trans there)
    (readStore_written length (by rwa [eng]))
  have bursts := changesOnly_storeBursts false (ofLE (bodyAt c 0x14 8)) (dataBytes c) (tcmdTaken engEsRead c s)
  have hmem : State.hmem _ = (tcmdTaken engEsRead c s).hmem := bursts .hostMemory (by decide)
  exact ⟨_, rfl, runCmd_filled ready (readerTarget rfl rfl) rfl rfl body
    (storeBursts_canonical _ _ _ _ (regsCanonical_tcmdTaken engEsRead c ready.1)) (changesOnly_mono bursts (by simp))
    (hmem.trans (tcmdTaken_hmem _ _ _)) (by simp)⟩

/-- Settles O47: each command's body gives the state that its target makes, and its form the answer and the frame. -/
theorem engineCommands : Obligations.EngineCommands := by
  intro c s
  refine ⟨fun cs start n w esl => load_done, fun cs start => unload_done, fun k start n ready cluster place size some' fits bytes => ?_,
    fun cs off n => tblWrite_done, fun k off n ready cluster place size aligned fits => ?_, fun off n place size run there =>
    ⟨fun ready => esWrite_done ready place size run there, fun ws ready length written =>
      esRead_done ready place size run there length written⟩⟩
  · subst place size
    have eng : (tcmdTaken engRead c s).eng = s.eng := changesOnly_tcmdTaken engRead c s .engines (by decide)
    have body := engRead_body (a := ⟨tcmdWaiter engRead c s, c, []⟩) (u := tcmdTaken engRead c s) cluster some' fits bytes
    simp only [bundleAt, eng] at body
    exact ⟨_, rfl, runCmd_shown ready (readerTarget rfl rfl) rfl rfl body⟩
  · subst place size
    have eng : (tcmdTaken engTblRead c s).eng = s.eng := changesOnly_tcmdTaken engTblRead c s .engines (by decide)
    have body := engTblRead_body (a := ⟨tcmdWaiter engTblRead c s, c, []⟩) (u := tcmdTaken engTblRead c s) cluster
      (bankRun_of aligned fits)
    rw [eng] at body
    exact ⟨_, rfl, runCmd_shown ready (readerTarget rfl rfl) rfl rfl body⟩

end Sys2Proof.Proofs
end

section
/-! PROOFS. Commands of BPM, GCL and SCH (R423, R427, R430, R431, R459, R463, R464). -/

namespace Sys2Proof.Proofs

open Sys2Proof Sys2Proof.Machine Sys2Proof.Safety Sys2Proof.Laws

theorem openTarget {q : CmdSpec} {c : Cmd} (modes : q.modes = inOpen) (regions : q.regions c = []) : modeTarget q c :=
  ⟨fun s t h => by rw [modes]; exact inOpen_congr s t h, fun i named => by simp [regions] at named⟩

/-- The registers that a command without a buffer leaves as its target left them. -/
theorem registersBut_answered {q : CmdSpec} {c : Cmd} {s st : State} (status : Nat) (result : List Byte) (canon : RegsCanonical s)
    (regs : st.regs = (tcmdTaken q c s).regs) : registersBut tcmdRegs s (tcmdDone q c status result st) :=
  registersBut_trans (registersBut_mono (registersBut_tcmdTaken q c canon) (List.subset_append_left _ _))
    (registersBut_trans (registersBut_of_regs regs _) (registersBut_mono
      (registersBut_tcmdDone q c status result ((regsCanonical_congr regs).mpr (regsCanonical_tcmdTaken q c canon)))
      (List.subset_append_right _ _)))

/-- The registers are canonical once a target that carries them is done. -/
theorem regsCanonical_body {q : CmdSpec} {u st : State} {a : Ask} {status : Option Nat} {result data : List Byte}
    (carries : Carries u (q.body a u).st) (body : q.body a u = ⟨st, status, result, data⟩) (canon : RegsCanonical u) :
    RegsCanonical st := by
  rw [body] at carries
  exact carries.regs canon

/-- A command without a buffer, answered at once: its answer, the parts that its target made, and the frame. -/
theorem runCmd_short_done {q : CmdSpec} {c : Cmd} {s st : State} {status : Nat} {result : List Byte} {ps : List Part}
    (ready : tcmdReady q c s) (target : modeTarget q c) (short : q.form = .short)
    (carries : ∀ a u, Carries u (q.body a u).st)
    (body : q.body ⟨tcmdWaiter q c s, c, []⟩ (tcmdTaken q c s) = ⟨st, some status, result, []⟩)
    (only : changesOnly ps (tcmdTaken q c s) st) (regs : .registers ∈ ps)
    (clean : .generations ∈ ps ∨ q.changes = false ∨ status ≠ 0) :
    tcmdAnswered q c status result (runCmd q c s) ∧
      (∀ p ∉ [Part.tables, .generations, .registers], p.same st (runCmd q c s)) ∧ changesOnly ps s (runCmd q c s) := by
  have canon := regsCanonical_body (carries _ _) body (regsCanonical_tcmdTaken q c ready.1)
  rw [runCmd_shortMode ready target short body]
  exact ⟨tcmdAnswered_tcmdDone q c status result canon, fun p => same_tcmdDone q c status result st,
    changesOnly_answered ready only regs clean⟩

/-! ## Snapshots and passes (R423, R430) -/

theorem snapshot_sound {s : State} (sound : s.acct.all AcctSet.ok = true) : snapshot s = takeSnapshot s := by
  have checked : snapshotOk (takeSnapshot s) = true := sound
  simp [snapshot, checked, whenDo]

theorem changesOnly_takeSnapshot (s : State) : changesOnly [.buffer] s (takeSnapshot s) :=
  changesOnly_of fun p => by cases p <;> simp [Part.same]

theorem exec_snapshot {s : State} (opened : pf0Open R.bpmSnapCmd s) (sound : s.acct.all AcctSet.ok = true) :
    exec (.snapshot none) s = .next (takeSnapshot s) :=
  congrArg Host.Outcome.next ((pf0Write_of_open _ opened).trans (snapshot_sound sound))

theorem bpmSnapshot_body {a : Ask} {u : State} (sound : u.acct.all AcctSet.ok = true) :
    bpmSnapshot.body a u = ⟨takeSnapshot u, some 0,
      toLE 8 (tSec u.now) ++ toLE 4 (tNs u.now) ++ toLE 4 ((u.buf.snapCount + 1) % 2 ^ 32), []⟩ := by
  simp only [bpmSnapshot, snapshot_sound sound]
  rfl

/-- The time of a pass's start, where one begins now. -/
def passesBegun (s : State) : State := { s with buf := { s.buf with passFrom := s.elapsed, resPassFrom := s.elapsed } }

theorem changesOnly_passesBegun (s : State) : changesOnly [.buffer] s (passesBegun s) :=
  changesOnly_of fun p => by cases p <;> simp [Part.same, passesBegun]

theorem snapshot_done {c : Cmd} {s : State} (ready : tcmdReady bpmSnapshot c s) (sound : s.acct.all AcctSet.ok = true) :
    ∃ t, exec (.snapshot (some c)) s = .next t ∧
      tcmdAnswered bpmSnapshot c 0 (toLE 8 (tSec s.now) ++ toLE 4 (tNs s.now) ++ toLE 4 ((s.buf.snapCount + 1) % 2 ^ 32)) t ∧
      t.buf.snaps = s.acct ∧ t.buf.snapAt = s.now ∧ registersBut tcmdRegs s t ∧ changesOnly [.buffer, .registers] s t := by
  have before := changesOnly_tcmdTaken bpmSnapshot c s
  have acct : (tcmdTaken bpmSnapshot c s).acct = s.acct := before .accounts (by decide)
  have now : (tcmdTaken bpmSnapshot c s).now = s.now := before .masterTime (by decide)
  have buf : (tcmdTaken bpmSnapshot c s).buf = s.buf := before .buffer (by decide)
  have body := bpmSnapshot_body (a := ⟨tcmdWaiter bpmSnapshot c s, c, []⟩) (u := tcmdTaken bpmSnapshot c s) (by rwa [acct])
  rw [now, buf] at body
  have only := changesOnly_takeSnapshot (tcmdTaken bpmSnapshot c s)
  have run := runCmd_shortMode ready (openTarget rfl rfl) rfl body
  obtain ⟨answered, kept, changes⟩ := runCmd_short_done ready (openTarget rfl rfl) rfl bpmSnapshot_carries body
    (changesOnly_mono only (by simp)) (ps := [.buffer, .registers]) (by simp) (.inr (.inl rfl))
  have left : (runCmd bpmSnapshot c s).buf = (takeSnapshot (tcmdTaken bpmSnapshot c s)).buf := kept .buffer (by decide)
  refine ⟨runCmd bpmSnapshot c s, rfl, answered, ?_, ?_, ?_, changes⟩
  · rw [left, ← acct]
    rfl
  · rw [left, ← now]
    rfl
  · rw [run]
    exact registersBut_answered 0 _ ready.1 (only .registers (by decide))

theorem auditNow_done {c : Cmd} {s : State} (ready : tcmdReady bpmAuditNow c s) :
    ∃ t, exec (.auditNow c) s = .next t ∧ tcmdAnswered bpmAuditNow c 0 [] t ∧
      t.buf = { s.buf with passFrom := s.elapsed, resPassFrom := s.elapsed } ∧ registersBut tcmdRegs s t ∧
      changesOnly [.buffer, .registers] s t := by
  have before := changesOnly_tcmdTaken bpmAuditNow c s
  have buf : (tcmdTaken bpmAuditNow c s).buf = s.buf := before .buffer (by decide)
  have elapsed : (tcmdTaken bpmAuditNow c s).elapsed = s.elapsed := before .elapsed (by decide)
  have body : bpmAuditNow.body ⟨tcmdWaiter bpmAuditNow c s, c, []⟩ (tcmdTaken bpmAuditNow c s) =
    ⟨passesBegun (tcmdTaken bpmAuditNow c s), some 0, [], []⟩ := rfl
  have only := changesOnly_passesBegun (tcmdTaken bpmAuditNow c s)
  have run := runCmd_shortMode ready (openTarget rfl rfl) rfl body
  obtain ⟨answered, kept, changes⟩ := runCmd_short_done ready (openTarget rfl rfl) rfl bpmAuditNow_carries body
    (changesOnly_mono only (by simp)) (ps := [.buffer, .registers]) (by simp) (.inr (.inl rfl))
  have left : (runCmd bpmAuditNow c s).buf = (passesBegun (tcmdTaken bpmAuditNow c s)).buf := kept .buffer (by decide)
  refine ⟨_, rfl, answered, ?_, ?_, changes⟩
  · rw [left, passesBegun, buf, elapsed]
  · rw [run]
    exact registersBut_answered 0 _ ready.1 (only .registers (by decide))

/-! ## Frames named by handles (R427, R430) -/

theorem handleFrame_congr {s u : State} (buf : u.buf = s.buf) (svc : u.svc = s.svc) (h : Nat) : handleFrame u h = handleFrame s h := by
  have ptr : ptrOk u = ptrOk s := by
    funext p
    unfold ptrOk channelCells unitState unitSt
    rw [svc, buf]
  have frames : frameAt u = frameAt s := by
    funext p
    rw [frameAt, frameAt, buf]
  rw [handleFrame, handleFrame, ptrOfHandle, ptrOfHandle, ptr, frames]

theorem kvGet_of_handleFrame {s : State} {h f : Nat} {x : Frame} (named : handleFrame s h = some (f, x)) (sorted : keyed s.buf.frames) :
    kvGet f s.buf.frames = some x := by
  obtain ⟨ptr, _, found⟩ := Option.bind_eq_some_iff.mp named
  exact kvGet_of_mem sorted (List.mem_of_find?_eq_some found)

theorem refsOf_congr {s u : State} (eg : u.eg = s.eg) (buf : u.buf = s.buf) (eng : u.eng = s.eng) (f : Nat) :
    refsOf u f = refsOf s f := by
  rw [refsOf, refsOf, eg, buf, eng]

/-- A frame without holders. -/
def holderless (x : Frame) : Frame := { x with holders := [] }

/-- A leaked frame with its holders gone and their copies counted. -/
def holdersEnded (f : Nat) (x : Frame) (s : State) : State :=
  forAll (reclaimedCopy x) x.holders (setFrame f (holderless x) s)

theorem changesOnly_reclaimedCopies (x : Frame) (l : List Nat) (s : State) :
    changesOnly [.registers] s (forAll (reclaimedCopy x) l s) :=
  changesOnly_forAll (fun p s => changesOnly_of fun q => by cases q <;> simp [Part.same, reclaimedCopy]) _ _

theorem holdersEnded_keeps (f : Nat) (x : Frame) (s : State) :
    (holdersEnded f x s).buf = (setFrame f (holderless x) s).buf ∧ (holdersEnded f x s).acct = s.acct :=
  ⟨changesOnly_reclaimedCopies x x.holders _ .buffer (by decide), changesOnly_reclaimedCopies x x.holders _ .accounts (by decide)⟩

/-- The state once a leaked frame is freed. -/
def reclaimed (f : Nat) (x : Frame) (s : State) : State :=
  incRg R.bpmReclaimed (emitBuffer 4 0x52 ((x.chain.head?).getD 0) 0 x.chain.length 0 (discardFrame f 0x16 (holdersEnded f x s)))

/-- The list of leaks without a frame. -/
def leaksWithout (f : Nat) (s : State) : State := { s with buf := { s.buf with leaks := s.buf.leaks.filter fun l => l.frame != f } }

theorem reclaimed_keeps (f : Nat) (x : Frame) (s : State) :
    (reclaimed f x s).buf.frames = (discardFrame f 0x16 (holdersEnded f x s)).buf.frames ∧
      (reclaimed f x s).acct = (discardFrame f 0x16 (holdersEnded f x s)).acct := by
  constructor <;> simp [reclaimed]

theorem changesOnly_reclaimed (f : Nat) (x : Frame) (s : State) :
    changesOnly [.host, .accounts, .links, .buffer, .recorder, .counters, .registers, .hostMemory] s
      (leaksWithout f (reclaimed f x s)) := by
  have ended : changesOnly [.buffer, .registers] s (holdersEnded f x s) :=
    changesOnly_trans (changesOnly_mono (changesOnly_setFrame f _ s) (by simp))
      (changesOnly_mono (changesOnly_reclaimedCopies x x.holders _) (by simp))
  refine changesOnly_trans (changesOnly_mono ended (by simp)) (changesOnly_of fun p => ?_)
  cases p <;> simp [Part.same, reclaimed, leaksWithout]

theorem bpmReclaim_body {a : Ask} {u : State} {f : Nat} {x : Frame} (named : handleFrame u (ofLE (bodyAt a.cmd 0x08 8)) = some (f, x))
    (sorted : keyed u.buf.frames) (leaked : (u.buf.leaks.any fun l => l.frame == f) = true) (unused : refsOf u f = 0)
    (untouched : x.touched = false) (first : x.fate = 0) :
    bpmReclaim.body a u = ⟨leaksWithout f (reclaimed f x u), some 0, toLE 4 x.chain.length ++ toLE 4 0x16, []⟩ := by
  have given : modFrame f (fun y => { y with holders := [] }) u = setFrame f (holderless x) u :=
    modFrame_of _ (kvGet_of_handleFrame named sorted)
  simp only [bpmReclaim, named, leaked, unused, untouched, first, given]
  rw [if_neg (by decide), if_pos trivial]
  rfl

theorem reclaim_done {c : Cmd} {s : State} {f : Nat} {x : Frame} (ready : tcmdReady bpmReclaim c s)
    (named : handleFrame s (ofLE (bodyAt c 0x08 8)) = some (f, x)) (sorted : keyed s.buf.frames)
    (leaked : (s.buf.leaks.any fun l => l.frame == f) = true) (unused : refsOf s f = 0) (untouched : x.touched = false)
    (first : x.fate = 0) :
    ∃ t, exec (.reclaim c) s = .next t ∧ tcmdAnswered bpmReclaim c 0 (toLE 4 x.chain.length ++ toLE 4 0x16) t ∧
      kvGet f t.buf.frames = none ∧ (t.buf.leaks.any fun l => l.frame == f) = false ∧
      t.acct = modNth (AcctSet.settle x.par 0x16) s.acct (acctOf x.inPort) ∧
      changesOnly [.host, .accounts, .links, .buffer, .recorder, .counters, .registers, .hostMemory] s t := by
  have before := changesOnly_tcmdTaken bpmReclaim c s
  have buf : (tcmdTaken bpmReclaim c s).buf = s.buf := before .buffer (by decide)
  have acct : (tcmdTaken bpmReclaim c s).acct = s.acct := before .accounts (by decide)
  have body := bpmReclaim_body (a := ⟨tcmdWaiter bpmReclaim c s, c, []⟩) (u := tcmdTaken bpmReclaim c s)
    ((handleFrame_congr buf (by simp) _).trans named) (by rwa [buf]) (by rwa [buf])
    ((refsOf_congr (before .egress (by decide)) buf (before .engines (by decide)) f).trans unused) untouched first
  obtain ⟨answered, kept, changes⟩ := runCmd_short_done ready (openTarget rfl rfl) rfl bpmReclaim_carries body
    (changesOnly_reclaimed f x _) (by simp) (.inr (.inl rfl))
  have left : (runCmd bpmReclaim c s).buf = (leaksWithout f (reclaimed f x (tcmdTaken bpmReclaim c s))).buf :=
    kept .buffer (by decide)
  have accounts : (runCmd bpmReclaim c s).acct = (reclaimed f x (tcmdTaken bpmReclaim c s)).acct := kept .accounts (by decide)
  have ended := holdersEnded_keeps f x (tcmdTaken bpmReclaim c s)
  have there : kvGet f (holdersEnded f x (tcmdTaken bpmReclaim c s)).buf.frames = some (holderless x) := by
    rw [ended.1]
    exact kvGet_setFrame f _ _
  have still : keyed (holdersEnded f x (tcmdTaken bpmReclaim c s)).buf.frames := by
    rw [ended.1]
    exact keyed_kvPut (by rwa [buf]) f _
  obtain ⟨gone, _, _, settled⟩ := discardFrame_first 0x16 there first still
  obtain ⟨frames, sets⟩ := reclaimed_keeps f x (tcmdTaken bpmReclaim c s)
  refine ⟨_, rfl, answered, ?_, ?_, ?_, changes⟩
  · rw [left]
    exact (congrArg (kvGet f) frames).trans gone
  · rw [left]
    simp [leaksWithout, List.any_eq_false]
  · rw [accounts, sets, settled, ended.2, acct]
    rfl

/-! ## Records, leaks and pairs (R391, R430, R431) -/

theorem sidebandOf_first (s : State) {x : Frame} (later : ∀ i us, x.grown = some (i, us) → 0 < i) :
    sidebandOf s x 0 = toLE 4 ((x.chain[1]?).getD 0xFFFFFFFF) ++ toLE 4 (x.requester + 2 ^ 9) ++ toLE 4 x.stampUs ++
      toLE 4 (draw s % 256) := by
  cases grown : x.grown with
  | none => simp [sidebandOf, grown]
  | some g =>
    have above := later g.1 g.2 grown
    simp [sidebandOf, grown, Nat.not_le.mpr above]

theorem bpmReadRecord_body {a : Ask} {u : State} {f : Nat} {x : Frame} (bytes : dataBytes a.cmd = 80)
    (named : handleFrame u (ofLE (bodyAt a.cmd 0x14 8)) = some (f, x)) :
    bpmReadRecord.body a u = ⟨drew u, some 0, [], recordOf x ++ sidebandOf u x 0⟩ := by
  simp only [bpmReadRecord, bytes, named]
  rfl

theorem readRecord_done {c : Cmd} {s : State} {f : Nat} {x : Frame} (ready : tcmdReady bpmReadRecord c s) (bytes : dataBytes c = 80)
    (named : handleFrame s (ofLE (bodyAt c 0x14 8)) = some (f, x)) (later : ∀ i us, x.grown = some (i, us) → 0 < i) :
    ∃ t ecc, exec (.readRecord c) s = .next t ∧ tcmdAnswered bpmReadRecord c 0 [] t ∧
      t.hmem = bufWritten c (recordOf x ++ (toLE 4 ((x.chain[1]?).getD 0xFFFFFFFF) ++ toLE 4 (x.requester + 2 ^ 9) ++
        toLE 4 x.stampUs ++ toLE 4 (ecc % 256))) s ∧
      changesOnly [.counters, .registers, .hostMemory, .freeCount] s t := by
  have before := changesOnly_tcmdTaken bpmReadRecord c s
  have body := bpmReadRecord_body (a := ⟨tcmdWaiter bpmReadRecord c s, c, []⟩) (u := tcmdTaken bpmReadRecord c s) bytes
    ((handleFrame_congr (before .buffer (by decide)) (by simp) _).trans named)
  rw [sidebandOf_first _ later] at body
  have only := changesOnly_drew (tcmdTaken bpmReadRecord c s)
  have hmem : State.hmem _ = (tcmdTaken bpmReadRecord c s).hmem := only .hostMemory (by decide)
  have canon := regsCanonical_body (bpmReadRecord_carries _ _) body (regsCanonical_tcmdTaken _ c ready.1)
  obtain ⟨answered, filled, changes⟩ := runCmd_filled (ps := [.counters, .registers, .hostMemory, .freeCount]) ready
    (openTarget rfl rfl) rfl rfl body canon (changesOnly_mono only (by simp)) (hmem.trans (tcmdTaken_hmem _ _ _)) (by simp)
  exact ⟨_, _, rfl, answered, filled, changes⟩

theorem leakList_done {c : Cmd} {s : State} (ready : tcmdReady bpmLeakList c s) (bytes : dataBytes c = 512) :
    ∃ t, exec (.leakList c) s = .next t ∧ tcmdAnswered bpmLeakList c 0 [] t ∧
      t.hmem = bufWritten c (((s.buf.leaks.flatMap fun (l : Leak) =>
        toLE 8 (handleOf l.ptr) ++ toLE 4 (satTo 0xFFFFFFFF l.ageUs) ++ toLE 4 (l.lastQueue + l.cells * 2 ^ 12 + 2 ^ 31)) ++
          List.replicate 512 0).take 512) s ∧
      changesOnly [.counters, .registers, .hostMemory] s t := by
  refine ⟨_, rfl, runCmd_shown ready (openTarget rfl rfl) rfl rfl ?_⟩
  simp only [bpmLeakList, bytes]
  rfl

theorem readAccount_done {c : Cmd} {s : State} {i n : Nat} (ready : tcmdReady bpmReadAccount c s)
    (place : i = fld 11 0 (bodyWord c 0x14)) (size : n = fld 11 0 (bodyWord c 0x18)) (some' : 1 ≤ n) (last : i + n ≤ 2176)
    (bytes : dataBytes c = 8 * n) :
    ∃ t, exec (.readAccount c) s = .next t ∧ tcmdAnswered bpmReadAccount c 0 [] t ∧
      t.hmem = bufWritten c ((List.range n).flatMap fun k =>
        toLE 4 (pairOf s (i + k)).a ++ toLE 4 ((pairOf s (i + k)).hr + b2n (pairOf s (i + k)).xoff * 2 ^ 16)) s ∧
      changesOnly [.counters, .registers, .hostMemory] s t := by
  subst place size
  refine ⟨_, rfl, runCmd_shown ready (openTarget rfl rfl) rfl rfl ?_⟩
  simp only [bpmReadAccount, pairOf]
  rw [if_neg (by omega), if_neg (by omega)]
  rfl

/-! ## Gate entries (R464) -/

theorem portNamed_congr {s u : State} (lk : u.lk = s.lk) (p : Nat) : portNamed u p = portNamed s p := by
  rw [portNamed, portNamed, unusedNumber, unusedNumber, portMode, portMode, quad, quad, lk]

theorem gclRun_congr {s u : State} (lk : u.lk = s.lk) (c : Cmd) : gclRun u c = gclRun s c := by
  simp only [gclRun, portNamed_congr lk]

/-- What each of some steps establishes, and no other of them undoes, holds once they are done. -/
theorem forAll_establishes {α : Type} {f : α → State → State} {I P : State → Prop} {k : α} (inv : ∀ a s, I s → I (f a s))
    (sets : ∀ s, I s → P (f k s)) (keeps : ∀ a s, a ≠ k → I s → P s → P (f a s)) :
    ∀ {l : List α} {s : State}, I s → (k ∈ l ∨ P s) → P (forAll f l s)
  | [], _, _, held => by simpa [forAll] using held
  | a :: l, s, h, held => by
    rw [forAll]
    refine forAll_establishes inv sets keeps (inv a s h) ?_
    by_cases same : a = k
    · subst same
      exact .inr (sets s h)
    · rcases held with member | held
      · exact .inl ((List.mem_cons.mp member).resolve_left (Ne.symm same))
      · exact .inr (keeps a s same h held)

/-- The entries of a run written one after the other. -/
def entriesWritten (p first : Nat) (ws : List Nat) (n : Nat) (s : State) : State :=
  forAll (fun j s => gclPut p (first + j) (nth 0 ws (2 * j)) (nth 0 ws (2 * j + 1)) s) (List.range n) s

/-- Canonical registers, and `par` the parity of the staged generation. -/
def canonicalAt (par : Nat) (s : State) : Prop := RegsCanonical s ∧ stagedPar s = par

theorem pg_eq_rg (s : State) {par : Nat} (low : par < 2) (off : Nat) : pg s par off = rg s (viewSize * par + off) := by
  rw [pg, rg, Nat.mod_eq_of_lt low, Nat.add_comm]

section
variable {par : Nat} {s : State}

theorem canonicalAt_gclPut (p j gates interval : Nat) (h : canonicalAt par s) : canonicalAt par (gclPut p j gates interval s) := by
  have staged : stagedPar (gclPut p j gates interval s) = stagedPar s := stagedPar_congr (by simp)
  exact ⟨regsCanonical_setRg _ _ (regsCanonical_setRg _ _ h.1), staged.trans h.2⟩

theorem registersBut_gclPut (p j gates interval : Nat) (h : canonicalAt par s) :
    registersBut [viewSize * par + R.gclEntryGates p j, viewSize * par + R.gclEntryInterval p j] s (gclPut p j gates interval s) := by
  obtain ⟨canon, rfl⟩ := h
  exact registersBut_trans (registersBut_mono (registersBut_setRg _ _ canon) (by simp))
    (registersBut_mono (registersBut_setRg _ _ (regsCanonical_setRg _ _ canon)) (by simp))

theorem entry_gclPut (p j gates interval : Nat) (h : canonicalAt par s) :
    rg (gclPut p j gates interval s) (viewSize * par + R.gclEntryGates p j) = gates % 256 ∧
      rg (gclPut p j gates interval s) (viewSize * par + R.gclEntryInterval p j) = interval % 2 ^ 30 := by
  obtain ⟨canon, rfl⟩ := h
  have canon1 := regsCanonical_setRg (viewSize * stagedPar s + R.gclEntryGates p j) (gates % 256) canon
  constructor
  · rw [gclPut, rg_setRg_ne (by simp only [R.gclEntryGates, R.gclEntryInterval]; omega) _ canon1, rg_setRg _ _ canon]
    omega
  · rw [gclPut, rg_setRg _ _ canon1]
    omega

theorem entry_entriesWritten {p first n j : Nat} {ws : List Nat} (inside : j < n) (h : canonicalAt par s) :
    rg (entriesWritten p first ws n s) (viewSize * par + R.gclEntryGates p (first + j)) = nth 0 ws (2 * j) % 256 ∧
      rg (entriesWritten p first ws n s) (viewSize * par + R.gclEntryInterval p (first + j)) = nth 0 ws (2 * j + 1) % 2 ^ 30 := by
  refine forAll_establishes (f := fun i t => gclPut p (first + i) (nth 0 ws (2 * i)) (nth 0 ws (2 * i + 1)) t)
    (I := canonicalAt par) (k := j) (P := fun t =>
      rg t (viewSize * par + R.gclEntryGates p (first + j)) = nth 0 ws (2 * j) % 256 ∧
      rg t (viewSize * par + R.gclEntryInterval p (first + j)) = nth 0 ws (2 * j + 1) % 2 ^ 30)
    (fun i t => canonicalAt_gclPut _ _ _ _) (fun t => entry_gclPut _ _ _ _) (fun i t ne ht held => ?_) h
    (.inl (List.mem_range.mpr inside))
  have kept := registersBut_gclPut p (first + i) (nth 0 ws (2 * i)) (nth 0 ws (2 * i + 1)) ht
  have apart : ∀ k ∈ [viewSize * par + R.gclEntryGates p (first + i), viewSize * par + R.gclEntryInterval p (first + i)],
      viewSize * par + R.gclEntryGates p (first + j) ≠ k ∧ viewSize * par + R.gclEntryInterval p (first + j) ≠ k := by
    simp only [List.mem_cons, List.not_mem_nil, or_false, R.gclEntryGates, R.gclEntryInterval]
    omega
  rw [rg_of_registersBut kept fun m => (apart _ m).1 rfl, rg_of_registersBut kept fun m => (apart _ m).2 rfl]
  exact held

end

theorem changesOnly_entriesWritten (p first : Nat) (ws : List Nat) (n : Nat) (s : State) :
    changesOnly [.registers] s (entriesWritten p first ws n s) :=
  changesOnly_forAll (fun j u => changesOnly_of fun q => by cases q <;> simp [Part.same]) _ _

theorem gclWriteEntries_body {a : Ask} {u : State} {p first n : Nat} (run : gclRun u a.cmd = .ok (p, first, n)) :
    gclWriteEntries.body a u = ⟨entriesWritten p first (wordsLE (2 * n) a.buf) n u, some 0, [], []⟩ := by
  simp only [gclWriteEntries, run]
  rfl

theorem gclReadEntries_body {a : Ask} {u : State} {p first n : Nat} (run : gclRun u a.cmd = .ok (p, first, n)) :
    gclReadEntries.body a u = ⟨u, some 0, [], (List.range n).flatMap fun j =>
      toLE 4 (pg u (fld 31 31 (bodyWord a.cmd 0x18)) (R.gclEntryGates p (first + j))) ++
        toLE 4 (pg u (fld 31 31 (bodyWord a.cmd 0x18)) (R.gclEntryInterval p (first + j)))⟩ := by
  simp only [gclReadEntries, run]
  rfl

theorem gclRun_bytes {s : State} {c : Cmd} {p first n : Nat} (run : gclRun s c = .ok (p, first, n)) : dataBytes c = 8 * n := by
  simp only [gclRun] at run
  split at run
  · simp at run
  split at run
  · simp at run
  simp only [Except.ok.injEq, Prod.mk.injEq] at run
  omega

/-- The registers of gate entries are none that a command's course touches. -/
theorem gclEntry_apart (p j par : Nat) :
    R.gclEntryGates p j + viewSize * (par % 2) ∉ R.pmuOvf 29 :: tcmdRegs ∧
      R.gclEntryInterval p j + viewSize * (par % 2) ∉ R.pmuOvf 29 :: tcmdRegs := by
  simp only [tcmdRegs, List.mem_cons, List.mem_append, List.mem_map, List.mem_range, R.gclEntryGates, R.gclEntryInterval, R.pmuOvf,
    R.fdbTcmd, R.fdbTcmdRes, viewSize]
  omega

theorem pg_of_registersBut {xs : List Nat} {s t : State} (h : registersBut xs s t) {par off : Nat}
    (out : off + viewSize * (par % 2) ∉ xs) : pg t par off = pg s par off :=
  congrArg BitVec.toNat (h _ out)

theorem writeEntries_done {c : Cmd} {s : State} {p first n : Nat} (ready : tcmdReady gclWriteEntries c s)
    (run : gclRun s c = .ok (p, first, n)) :
    ∃ t, exec (.writeEntries c) s = .next t ∧ tcmdAnswered gclWriteEntries c 0 [] t ∧
      (∀ j < n, pg t (stagedPar s) (R.gclEntryGates p (first + j)) = nth 0 (wordsLE (2 * n) (bufBytes c s)) (2 * j) % 256 ∧
        pg t (stagedPar s) (R.gclEntryInterval p (first + j)) = nth 0 (wordsLE (2 * n) (bufBytes c s)) (2 * j + 1) % 2 ^ 30) ∧
      (∀ o j, o < 256 → j < 1024 → pg t (curPar s) (R.gclEntryGates o j) = pg s (curPar s) (R.gclEntryGates o j) ∧
        pg t (curPar s) (R.gclEntryInterval o j) = pg s (curPar s) (R.gclEntryInterval o j)) ∧
      t.gen = { s.gen with dirty := true } ∧ changesOnly [.generations, .counters, .registers] s t := by
  have before := changesOnly_bufRead_tcmdTaken gclWriteEntries c s
  have canon := regsCanonical_bufRead_tcmdTaken gclWriteEntries c ready.1
  have staged : stagedPar (bufRead c (tcmdTaken gclWriteEntries c s)) = stagedPar s := by simp
  have current : curPar (bufRead c (tcmdTaken gclWriteEntries c s)) = curPar s := curPar_congr (by simp)
  obtain ⟨port, last⟩ := gclRun_inside run
  have bytes := gclRun_bytes run
  have target : modeTarget gclWriteEntries c := ⟨inOpen_congr, fun i named => by
    simp only [gclWriteEntries, List.mem_singleton] at named
    omega⟩
  have body := gclWriteEntries_body (a := ⟨tcmdWaiter gclWriteEntries c s, c, bufBytes c s⟩)
    (u := bufRead c (tcmdTaken gclWriteEntries c s)) ((gclRun_congr (before .links (by decide)) c).trans run)
  have later := regsCanonical_body (gclWriteEntries_carries _ _) body canon
  have current' := (gclWriteEntries_currentKept ⟨tcmdWaiter gclWriteEntries c s, c, bufBytes c s⟩ canon).gates
  rw [body, current] at current'
  have only := changesOnly_entriesWritten p first (wordsLE (2 * n) (bufBytes c s)) n (bufRead c (tcmdTaken gclWriteEntries c s))
  have gen : State.gen _ = (bufRead c (tcmdTaken gclWriteEntries c s)).gen := only .generations (by decide)
  have ran := runCmd_readsMode ready target rfl (by simp [lengthOk, bytes]; omega) body
  have done := registersBut_tcmdDone gclWriteEntries c 0 [] later
  have asked := registersBut_bufRead_tcmdTaken gclWriteEntries c ready.1
  have answer : (List.range 8).map R.fdbTcmdRes ⊆ R.pmuOvf 29 :: tcmdRegs := by simp [tcmdRegs]
  have taking : R.pmuOvf 29 :: (List.range 8).map R.fdbTcmd ⊆ R.pmuOvf 29 :: tcmdRegs := by simp [tcmdRegs]
  refine ⟨_, rfl, ?_, fun j inside => ?_, fun o j inPort entry => ?_, ?_, ?_⟩
  · rw [ran]
    exact tcmdAnswered_tcmdDone _ _ _ _ later
  · obtain ⟨apart, apart'⟩ := gclEntry_apart p (first + j) (stagedPar s)
    obtain ⟨gates, interval⟩ := entry_entriesWritten (p := p) (first := first) (ws := wordsLE (2 * n) (bufBytes c s)) inside
      ⟨canon, staged⟩
    rw [ran, pg_of_registersBut (registersBut_mono done answer) apart, pg_of_registersBut (registersBut_mono done answer) apart',
      pg_eq_rg _ (stagedPar_lt s), pg_eq_rg _ (stagedPar_lt s)]
    exact ⟨gates, interval⟩
  · obtain ⟨apart, apart'⟩ := gclEntry_apart o j (curPar s)
    obtain ⟨gates, interval⟩ := current' o j inPort entry
    rw [ran, pg_of_registersBut (registersBut_mono done answer) apart, pg_of_registersBut (registersBut_mono done answer) apart']
    exact ⟨gates.trans (pg_of_registersBut (registersBut_mono asked taking) apart),
      interval.trans (pg_of_registersBut (registersBut_mono asked taking) apart')⟩
  · rw [ran, tcmdDone_gen, gen]
    simp [gclWriteEntries]
  · rw [ran]
    exact changesOnly_answered ready (changesOnly_read (changesOnly_mono only (by simp)) (by simp) (by simp)) (by simp)
      (.inl (by simp))

theorem readEntries_done {c : Cmd} {s : State} {p first n : Nat} (ready : tcmdReady gclReadEntries c s)
    (run : gclRun s c = .ok (p, first, n)) :
    ∃ t, exec (.readEntries c) s = .next t ∧ tcmdAnswered gclReadEntries c 0 [] t ∧
      t.hmem = bufWritten c ((List.range n).flatMap fun j =>
        toLE 4 (pg s (fld 31 31 (bodyWord c 0x18)) (R.gclEntryGates p (first + j))) ++
          toLE 4 (pg s (fld 31 31 (bodyWord c 0x18)) (R.gclEntryInterval p (first + j)))) s ∧
      changesOnly [.counters, .registers, .hostMemory] s t := by
  have before := changesOnly_tcmdTaken gclReadEntries c s
  have body := gclReadEntries_body (a := ⟨tcmdWaiter gclReadEntries c s, c, []⟩) (u := tcmdTaken gclReadEntries c s)
    ((gclRun_congr (before .links (by decide)) c).trans run)
  obtain ⟨answered, hmem, only⟩ := runCmd_shown ready (openTarget rfl rfl) rfl rfl body
  have taken := registersBut_mono (registersBut_tcmdTaken gclReadEntries c ready.1)
    (show (List.range 8).map R.fdbTcmd ⊆ R.pmuOvf 29 :: tcmdRegs by simp [tcmdRegs])
  refine ⟨_, rfl, answered, hmem.trans (congrArg (bufWritten c · s) (List.flatMap_congr fun j _ => ?_)), only⟩
  obtain ⟨apart, apart'⟩ := gclEntry_apart p (first + j) (fld 31 31 (bodyWord c 0x18))
  rw [pg_of_registersBut taken apart, pg_of_registersBut taken apart']

/-! ## Counters of a port (R459, R463) -/

theorem schCounter_eq (p i : Nat) : schCounter p i = 0x800100 + 0x400 * p + 8 * i := by
  simp only [schCounter, R.schSent]
  omega

/-- The counters of a port cleared. -/
def countersCleared (p : Nat) (s : State) : State := forAll (fun i s => setRg64 (schCounter p i) 0 s) (List.range 96) s

theorem regsCanonical_setRg64 (off v : Nat) {s : State} (canon : RegsCanonical s) : RegsCanonical (setRg64 off v s) :=
  regsCanonical_setRg _ _ (regsCanonical_setRg _ _ canon)

theorem rg64_of_registersBut {xs : List Nat} {s t : State} (h : registersBut xs s t) {off : Nat} (low : off ∉ xs)
    (high : off + 4 ∉ xs) : rg64 t off = rg64 s off := by
  rw [rg64, rg64, rg_of_registersBut h low, rg_of_registersBut h high]

theorem rg64_countersCleared {p i : Nat} {s : State} (canon : RegsCanonical s) (inside : i < 96) :
    rg64 (countersCleared p s) (schCounter p i) = 0 := by
  refine forAll_establishes (I := RegsCanonical) (P := fun t => rg64 t (schCounter p i) = 0) (k := i)
    (fun j t => regsCanonical_setRg64 _ _) (fun t ct => by simp [rg64_setRg64 _ _ ct]) (fun j t ne ct held => ?_) canon
    (.inl (List.mem_range.mpr inside))
  have kept := registersBut_setRg64 (schCounter p j) 0 ct
  rw [rg64_of_registersBut kept]
  · exact held
  all_goals
    simp only [List.mem_cons, List.not_mem_nil, or_false, schCounter_eq]
    omega

theorem changesOnly_countersCleared (p : Nat) (s : State) : changesOnly [.registers] s (countersCleared p s) :=
  changesOnly_forAll (fun j u => changesOnly_of fun q => by cases q <;> simp [Part.same]) _ _

theorem schReadCounters_body {a : Ask} {u : State} (port : bodyWord a.cmd 0x14 % 512 ≤ 271)
    (named : portNamed u (bodyWord a.cmd 0x14 % 512) = true) (bytes : dataBytes a.cmd = 768) :
    schReadCounters.body a u = ⟨countersCleared (bodyWord a.cmd 0x14 % 512) u, some 0, [],
      (List.range 96).flatMap fun i => toLE 8 (rg64 u (schCounter (bodyWord a.cmd 0x14 % 512) i))⟩ := by
  simp only [schReadCounters, named, bytes]
  rw [if_neg (by simp; omega), if_neg (by simp)]
  rfl

theorem schCounter_apart (p : Nat) {i : Nat} (inside : i < 96) :
    schCounter p i ∉ R.pmuOvf 29 :: tcmdRegs ∧ schCounter p i + 4 ∉ R.pmuOvf 29 :: tcmdRegs := by
  simp only [tcmdRegs, List.mem_cons, List.mem_append, List.mem_map, List.mem_range, schCounter_eq, R.pmuOvf, R.fdbTcmd, R.fdbTcmdRes]
  omega

theorem registersBut_bufFilled (c : Cmd) (data : List Byte) {u : State} (h : RegsCanonical u) :
    registersBut [R.pmuOvf 29] u (bufFilled c data u) :=
  (registers_pmuEv 29 3 none none data.length { u with hmem := memWrite u.hmem _ data } h).2

theorem schReadCounters_done {c : Cmd} {s : State} {p : Nat} (ready : tcmdReady schReadCounters c s)
    (place : p = bodyWord c 0x14 % 512) (port : p ≤ 271) (named : portNamed s p = true) (bytes : dataBytes c = 768) :
    ∃ t, exec (.schReadCounters c) s = .next t ∧ tcmdAnswered schReadCounters c 0 [] t ∧
      t.hmem = bufWritten c ((List.range 96).flatMap fun i => toLE 8 (rg64 s (schCounter p i))) s ∧
      (∀ i < 96, rg64 t (schCounter p i) = 0) ∧ changesOnly [.counters, .registers, .hostMemory] s t := by
  subst place
  have before := changesOnly_tcmdTaken schReadCounters c s
  have canon := regsCanonical_tcmdTaken schReadCounters c ready.1
  have body := schReadCounters_body (a := ⟨tcmdWaiter schReadCounters c s, c, []⟩) (u := tcmdTaken schReadCounters c s) port
    ((portNamed_congr (before .links (by decide)) _).trans named) bytes
  have later := regsCanonical_body (schReadCounters_carries _ _) body canon
  have only := changesOnly_countersCleared (bodyWord c 0x14 % 512) (tcmdTaken schReadCounters c s)
  have hmem : State.hmem _ = (tcmdTaken schReadCounters c s).hmem := only .hostMemory (by decide)
  obtain ⟨answered, filled, changes⟩ := runCmd_filled ready (openTarget rfl rfl) rfl rfl body later
    (changesOnly_mono only (by simp)) (hmem.trans (tcmdTaken_hmem _ _ _)) (List.Subset.refl _)
  have ran := runCmd_writesMode ready (openTarget rfl rfl) rfl rfl body
  have taken := registersBut_mono (registersBut_tcmdTaken schReadCounters c ready.1)
    (show (List.range 8).map R.fdbTcmd ⊆ R.pmuOvf 29 :: tcmdRegs by simp [tcmdRegs])
  refine ⟨_, rfl, answered, filled.trans (congrArg (bufWritten c · s) (List.flatMap_congr fun i member => ?_)),
    fun i inside => ?_, changes⟩
  · obtain ⟨low, high⟩ := schCounter_apart (bodyWord c 0x14 % 512) (List.mem_range.mp member)
    rw [rg64_of_registersBut taken low high]
  · obtain ⟨low, high⟩ := schCounter_apart (bodyWord c 0x14 % 512) inside
    have filling (data : List Byte) := registersBut_mono (registersBut_bufFilled c data later)
      (show [R.pmuOvf 29] ⊆ R.pmuOvf 29 :: tcmdRegs by simp)
    have done (data : List Byte) := registersBut_mono
      (registersBut_tcmdDone schReadCounters c 0 [] (regsCanonical_bufFilled c data later))
      (show (List.range 8).map R.fdbTcmdRes ⊆ R.pmuOvf 29 :: tcmdRegs by simp [tcmdRegs])
    rw [ran, rg64_of_registersBut (done _) low high, rg64_of_registersBut (filling _) low high]
    exact rg64_countersCleared canon inside

/-- Settles O50: each command's body gives the state that its target makes, and its form the answer and the frame. -/
theorem bufferAndScheduleCommands : Obligations.BufferAndScheduleCommands :=
  ⟨fun s opened sound => ⟨_, exec_snapshot opened sound, rfl, rfl, rfl, rfl, changesOnly_takeSnapshot s⟩,
    fun _ _ => ⟨snapshot_done, fun _ _ => reclaim_done, fun _ _ => readRecord_done, leakList_done, auditNow_done,
      fun _ _ => readAccount_done, fun _ _ _ => writeEntries_done, fun _ _ _ => readEntries_done, fun _ => schReadCounters_done⟩⟩

end Sys2Proof.Proofs
end

section
/-! PROOFS. The recorder (R465 to R482): a frame whose P257 holder is missing shows its refusal of a copy to the host as well. -/

namespace Sys2Proof.Proofs

open Sys2Proof Sys2Proof.Machine Sys2Proof.Safety Sys2Proof.Laws

/-! ## A copy at P257 of a frame that P257 does not hold -/

/-- A copy at the head of queue 7 of P257, and its frame, which port 3 alone holds. -/
def strayCopy : Copy := { frame := 1, port := 257, queue := 7, fwd := false }
def strayFrame : Frame := { bytes := List.replicate 60 0, chain := [9], holders := [3] }

/-- RUN with both, the recorder taking frames, its key drawn, a slot in each channel. -/
def strayTaken : State :=
  let s := setFrame 1 strayFrame (setQueue 257 7 { copies := [strayCopy] } { State.reset with md := { State.reset.md with mode := .run } })
  { setRg (R.recCfg + viewSize) (1 + 2 ^ 16) s with
    recd := { State.reset.recd with perChannel := 1, channels := List.range 120, key := some (List.replicate 32 1) } }

/-- An outcome after which an event waits for the host. -/
def tellsHost : Host.Outcome State Fault Refusal → Bool
  | .next t => !t.host.events.isEmpty
  | _ => false

/-- The copy's end is rejected as a second free (R402), which a BUFFER event tells the host. -/
theorem recorderTake_tellsHost : tellsHost (exec (.recorderTake 0) strayTaken) = true := by decide +kernel

theorem strayTaken_untold : strayTaken.host.events = [] := by decide +kernel

/-- What the statement asks of a copy that is taken, all but a bound on the copy's frame. -/
theorem strayTaken_taken : fenceShut strayTaken = false ∧ reach (port strayTaken 257).busyTill strayTaken = strayTaken ∧
    choose strayTaken 257 (fun _ => true) = some (7, [0, 0, 0, 0, 0, 0, 0, 1520], [0, 1, 2, 3, 4, 5, 6, 7]) ∧
    head strayTaken 257 7 = some strayCopy ∧ kvGet 1 strayTaken.buf.frames = some strayFrame ∧
    refusalCause strayTaken (frameRecord strayTaken strayFrame).length = none ∧ recLive strayTaken = true := by decide +kernel

/-- Refutes O52: where the recorder takes a copy whose frame does not name P257 among its holders, the end of the copy is a second free,
and the event that tells it (R402) changes the host's part, which the frame of the first clause leaves as it was. -/
theorem not_recorderRows : ¬ Obligations.RecorderRows := by
  rintro ⟨takes, -⟩
  obtain ⟨open', still, chosen, first, present, room, live⟩ := strayTaken_taken
  obtain ⟨-, taken, -⟩ := takes 7 0 _ _ strayCopy strayFrame _ strayTaken strayTaken strayTaken open' still.symm chosen first rfl rfl rfl
    rfl rfl present rfl
  obtain ⟨t, run, -, -, only⟩ := taken open' room live
  have host : t.host = strayTaken.host := only .host (by decide)
  have told := recorderTake_tellsHost
  rw [run, tellsHost, host, strayTaken_untold] at told
  cases told

end Sys2Proof.Proofs
end

section
/-! PROOFS. Queues and timed release (R432 to R455): a frame whose P256 holder is missing shows a copy's end to the host as well. -/

namespace Sys2Proof.Proofs

open Sys2Proof Sys2Proof.Machine Sys2Proof.Safety Sys2Proof.Laws

/-! ## A copy for a port that takes none, of a frame that the port does not hold -/

/-- A copy for P256 of a frame that port 3 alone holds. -/
def goneCopy : Copy := { frame := 1, port := 256, queue := 0, fwd := false }

/-- RUN with both, and P256 taking no copies. -/
def shutPort : State :=
  let s := setSched 256 { shut := true } (setFrame 1 strayFrame { State.reset with md := { State.reset.md with mode := .run } })
  { s with buf := { s.buf with plan := [goneCopy] } }

/-- The copy's end is rejected as a second free (R402), which a BUFFER event tells the host. -/
theorem copyEnqueue_tellsHost : tellsHost (exec (.copyEnqueue 256) shutPort) = true := by decide +kernel

theorem shutPort_untold : shutPort.host.events = [] := by decide +kernel

/-- What the statement asks of a copy for a port that takes none. -/
theorem shutPort_refuses : shutPort.buf.plan.find? (fun d => d.port == 256) = some goneCopy ∧
    kvGet goneCopy.frame shutPort.buf.frames = some strayFrame ∧ enqueueCheck shutPort goneCopy = some (0x12, some 7) ∧
    strayFrame.holders.filter (· ≠ 256) ≠ [] := by decide +kernel

/-- Refutes O51: where a copy for a port that takes none is of a frame that does not name the port among its holders, the end of the copy
is a second free, and the event that tells it (R402) changes the host's part, which the frame of the clause leaves as it was. -/
theorem not_copiesAndRelease : ¬ Obligations.CopiesAndRelease := by
  rintro ⟨⟨enqueues, -⟩, -⟩
  obtain ⟨waits, present, refused, left⟩ := shutPort_refuses
  obtain ⟨-, gone⟩ := enqueues 256 goneCopy shutPort waits rfl
  obtain ⟨t, run, -, -, -, only⟩ := gone strayFrame present refused rfl left
  have host : t.host = shutPort.host := only .host (by decide)
  have told := copyEnqueue_tellsHost
  rw [run, tellsHost, host, shutPort_untold] at told
  cases told

end Sys2Proof.Proofs
end

section
/-! PROOFS. Service commands: SET_STATE, RETIRE, TEST and READ_STATE (R502 to R509). -/

namespace Sys2Proof.Proofs

open Sys2Proof Sys2Proof.Machine Sys2Proof.Safety Sys2Proof.Laws

/-! ## The table command register while units leave -/

theorem tcmdBusy_forAll {α : Type} {f : α → State → State} (same : ∀ a s, (f a s).tab.tcmdBusy = s.tab.tcmdBusy) (l : List α)
    (s : State) : (forAll f l s).tab.tcmdBusy = s.tab.tcmdBusy :=
  forAll_rel (R := fun s t => t.tab.tcmdBusy = s.tab.tcmdBusy) (fun _ => rfl) (fun _ _ _ h k => k.trans h) same l s

@[simp] theorem tcmdBusy_noteBucket (old : State) (set group b : Nat) (s : State) :
    (noteBucket old set group b s).tab.tcmdBusy = s.tab.tcmdBusy := by
  unfold noteBucket
  dsimp only
  (repeat' split) <;> rfl

@[simp] theorem tcmdBusy_noteGroup (old : State) (set group : Nat) (s : State) :
    (noteGroup old set group s).tab.tcmdBusy = s.tab.tcmdBusy :=
  tcmdBusy_forAll (fun b => tcmdBusy_noteBucket old set group b) _ s

@[simp] theorem tcmdBusy_noteHops (old s : State) : (noteHops old s).tab.tcmdBusy = s.tab.tcmdBusy :=
  (tcmdBusy_forAll (tcmdBusy_noteGroup old 1) _ _).trans (tcmdBusy_forAll (tcmdBusy_noteGroup old 0) _ s)

@[simp] theorem tcmdBusy_noteChannels (old s : State) : (noteChannels old s).tab.tcmdBusy = s.tab.tcmdBusy :=
  tcmdBusy_noteGroup old 3 0 s

@[simp] theorem tcmdBusy_portFalls (p : Nat) (c : DownCause) (s : State) : (portFalls p c s).tab.tcmdBusy = s.tab.tcmdBusy := by
  simp [portFalls]

@[simp] theorem tcmdBusy_portDown (p : Nat) (c : DownCause) (s : State) : (portDown p c s).tab.tcmdBusy = s.tab.tcmdBusy := by
  unfold portDown
  split
  · unfold oneCycle
    dsimp only
    split <;> simp
  · rfl

@[simp] theorem tcmdBusy_portUp (p : Nat) (s : State) : (portUp p s).tab.tcmdBusy = s.tab.tcmdBusy := by
  simp [portUp, apply_ite State.tab]

@[simp] theorem tcmdBusy_linkEval (p : Nat) (s : State) : (linkEval p s).tab.tcmdBusy = s.tab.tcmdBusy := by
  unfold linkEval
  dsimp only
  split
  · split <;> simp
  · rw [whenDo_tab]; split <;> simp

@[simp] theorem tcmdBusy_quadEval (q : Nat) (s : State) : (quadEval q s).tab.tcmdBusy = s.tab.tcmdBusy := by
  unfold quadEval
  exact tcmdBusy_forAll (fun j => tcmdBusy_linkEval (4 * q + j)) _ s

@[simp] theorem tcmdBusy_tsDetect (p : Nat) (s : State) : (tsDetect p s).tab.tcmdBusy = s.tab.tcmdBusy := by
  simp [tsDetect]

@[simp] theorem tcmdBusy_tsFail (p failed : Nat) (s : State) : (tsFail p failed s).tab.tcmdBusy = s.tab.tcmdBusy := by
  unfold tsFail
  dsimp only
  split <;> simp

@[simp] theorem tcmdBusy_tsJudge (p : Nat) (s : State) : (tsJudge p s).tab.tcmdBusy = s.tab.tcmdBusy := by
  unfold tsJudge
  dsimp only
  split
  · rw [tcmdBusy_tsFail, whenDo_tab]; split <;> simp
  · rfl

@[simp] theorem tcmdBusy_laneLost (ln : Nat) (s : State) : (laneLost ln s).tab.tcmdBusy = s.tab.tcmdBusy := by
  unfold laneLost
  dsimp only
  split
  · exact tcmdBusy_tsJudge _ s
  · rw [tcmdBusy_linkEval, whenDo_tab]; split <;> simp

theorem tcmdBusy_laneGone (ln : Nat) (s : State) : (laneGone ln s).tab.tcmdBusy = s.tab.tcmdBusy := by
  unfold laneGone
  dsimp only
  split <;> simp

theorem tcmdBusy_portGone (p : Nat) (s : State) : (portGone p s).tab.tcmdBusy = s.tab.tcmdBusy := by
  have first : (if (port s p).up then portDown p .admin s
      else whenDo (modeHas (quad s (p / 4)).mode (p % 4)) (flushDown p) s).tab.tcmdBusy = s.tab.tcmdBusy := by
    split <;> simp
  simpa [portGone] using first

/-- What a unit leaves behind does not touch the register. -/
theorem tcmdBusy_unitShift_leave (old : State) (kind idx : Nat) (s : State) :
    (unitShift old false kind idx s).tab.tcmdBusy = s.tab.tcmdBusy := by
  unfold unitShift
  split
  · exact tcmdBusy_laneGone idx s
  · exact tcmdBusy_forAll (fun j => tcmdBusy_portGone (4 * idx + j)) _ s
  all_goals simp

theorem tcmdBusy_unitShifts_leave (old : State) (kind idx : Nat) (s : State) :
    (unitShifts old false kind idx s).tab.tcmdBusy = s.tab.tcmdBusy := by
  unfold unitShifts
  split
  · exact tcmdBusy_forAll (fun (u : Nat × Nat) => tcmdBusy_unitShift_leave old u.1 u.2) _ s
  · exact tcmdBusy_unitShift_leave old kind idx s

/-! ## What the service part alone decides -/

section
variable {s u : State} (svc : u.svc = s.svc)
include svc

theorem unitSt_congr (kind idx : Nat) : unitSt u kind idx = unitSt s kind idx := by rw [unitSt, unitSt, svc]

theorem transitionOf_congr (kind idx : Nat) : transitionOf u kind idx = transitionOf s kind idx := by
  rw [transitionOf, transitionOf, svc]

theorem fillingSpare_congr (kind idx : Nat) : fillingSpare u kind idx = fillingSpare s kind idx := by
  rw [fillingSpare, fillingSpare, svc]

theorem bankWorks_congr (i : Nat) : bankWorks u i = bankWorks s i := by rw [bankWorks, bankWorks, svc]

theorem channelOf_congr (pc : Nat) : channelOf u pc = channelOf s pc := by
  simp only [channelOf, physicalOf, svc]

theorem copying_congr (kind idx : Nat) : copying u kind idx = copying s kind idx := by rw [copying, copying, svc]

theorem freeSpare_congr (kind idx : Nat) : freeSpare u kind idx = freeSpare s kind idx := by
  have same (i : Nat) : unitSt u kind i = unitSt s kind i := unitSt_congr svc kind i
  simp only [freeSpare, same, transitionOf_congr svc, fillingSpare_congr svc, bankWorks_congr svc, channelOf_congr svc]

theorem enginesIn_congr (c : Nat) : enginesIn u c = enginesIn s c := by
  have same (e : Nat) : unitAway u .engine e = unitAway s .engine e := unitAway_congr svc .engine e
  simp only [enginesIn, same]

theorem basinCells_congr : basinCells u = basinCells s := by
  have same (g : Nat) : unitAway u .bankGroup g = unitAway s .bankGroup g := unitAway_congr svc .bankGroup g
  simp only [basinCells, bankGroups, same]

theorem nameable_congr (kind idx st : Nat) : nameable u kind idx st = nameable s kind idx st := by
  simp only [nameable, bankWorks_congr svc, channelOf_congr svc]

end

/-- A transition just added to a unit that had none is the unit's. -/
theorem transitionOf_addTransition {t : Transition} {s : State} (idle : transitionOf s t.kind t.index = none) :
    transitionOf (addTransition t s) t.kind t.index = some t := by
  unfold transitionOf at idle
  simp [transitionOf, addTransition, List.find?_append, idle]

/-! ## Commands that a mode of STAGE or RUN allows -/

theorem stageRunTarget {q : CmdSpec} {c : Cmd} (modes : q.modes = inStageRun) (regions : q.regions c = []) : modeTarget q c :=
  ⟨fun s t h => by rw [modes]; exact inStageRun_congr s t h, fun i named => by simp [regions] at named⟩

/-- A command that its target answers with a result and leaves all else as it was. -/
theorem runCmd_told {q : CmdSpec} {c : Cmd} {s : State} {result : List Byte} (ready : tcmdReady q c s) (target : modeTarget q c)
    (short : q.form = .short) (reader : q.changes = false) (carries : ∀ a u, Carries u (q.body a u).st)
    (body : q.body ⟨tcmdWaiter q c s, c, []⟩ (tcmdTaken q c s) = okWith result (tcmdTaken q c s)) :
    tcmdAnswered q c 0 result (runCmd q c s) ∧ registersBut tcmdRegs s (runCmd q c s) ∧ changesOnly [.registers] s (runCmd q c s) := by
  obtain ⟨answered, -, only⟩ := runCmd_short_done (ps := [.registers]) ready target short carries body
    (changesOnly_refl _ _) (by simp) (.inr (.inl reader))
  refine ⟨answered, ?_, only⟩
  rw [runCmd_shortMode ready target short body]
  exact registersBut_answered _ _ ready.1 rfl

theorem svcReadState_body {a : Ask} {u : State} {kind idx : Nat} (unit : kind = fld 3 0 (bodyWord a.cmd 0x08))
    (place : idx = fld 15 4 (bodyWord a.cmd 0x08)) (inside : idx < kindUnits kind) :
    svcReadState.body a u = okWith (toLE 4 (unitSt u kind idx + ((transitionOf u kind idx).map (·.phase)).getD 0 * 4)) u := by
  subst unit place
  exact if_pos inside

theorem readState_done {c : Cmd} {s : State} {kind idx : Nat} (ready : tcmdReady svcReadState c s) (unit : kind = fld 3 0 (bodyWord c 0x08))
    (place : idx = fld 15 4 (bodyWord c 0x08)) (inside : idx < kindUnits kind) :
    ∃ t, exec (.readState c) s = .next t ∧ tcmdAnswered svcReadState c 0
        (toLE 4 (unitSt s kind idx + ((transitionOf s kind idx).map (·.phase)).getD 0 * 4)) t ∧
      registersBut tcmdRegs s t ∧ changesOnly [.registers] s t := by
  have svc := tcmdTaken_svc svcReadState c s
  have body := svcReadState_body (a := ⟨tcmdWaiter svcReadState c s, c, []⟩) (u := tcmdTaken svcReadState c s) unit place inside
  rw [unitSt_congr svc, transitionOf_congr svc] at body
  exact ⟨_, rfl, runCmd_told ready (openTarget rfl rfl) rfl rfl svcReadState_carries body⟩

/-- A unit that SET_STATE may bring to `st`, and that is in no transition. -/
structure Settable (s : State) (kind idx st : Nat) : Prop where
  named : nameable s kind idx st = true
  single : kind ≠ 9
  lives : st ≠ 3
  idle : transitionOf s kind idx = none
  spare : fillingSpare s kind idx = false

theorem settable_congr {s u : State} (svc : u.svc = s.svc) {kind idx st : Nat} (free : Settable s kind idx st) :
    Settable u kind idx st := by
  obtain ⟨named, single, lives, idle, spare⟩ := free
  exact ⟨(nameable_congr svc ..).trans named, single, lives, (transitionOf_congr svc ..).trans idle,
    (fillingSpare_congr svc ..).trans spare⟩

theorem svcSetState_body_same {a : Ask} {u : State} {kind idx st : Nat} (unit : kind = fld 3 0 (bodyWord a.cmd 0x08))
    (place : idx = fld 15 4 (bodyWord a.cmd 0x08)) (sought : st = fld 17 16 (bodyWord a.cmd 0x08)) (free : Settable u kind idx st)
    (there : unitSt u kind idx = st) : svcSetState.body a u = okWith (toLE 4 st ++ toLE 4 0) u := by
  subst unit place sought
  obtain ⟨named, single, lives, idle, spare⟩ := free
  simp [svcSetState, named, single, lives, idle, spare, there, stateResult, satTo]

theorem setState_same {c : Cmd} {s : State} {kind idx st : Nat} (ready : tcmdReady svcSetState c s) (quiet : s.gen.held = [])
    (unit : kind = fld 3 0 (bodyWord c 0x08)) (place : idx = fld 15 4 (bodyWord c 0x08)) (sought : st = fld 17 16 (bodyWord c 0x08))
    (free : Settable s kind idx st) (there : unitSt s kind idx = st) :
    ∃ t, exec (.setState c) s = .next t ∧ tcmdAnswered svcSetState c 0 (toLE 4 st ++ toLE 4 0) t ∧
      registersBut tcmdRegs s t ∧ changesOnly [.registers] s t := by
  have svc := tcmdTaken_svc svcSetState c s
  have told := runCmd_told ready (stageRunTarget rfl rfl) rfl rfl svcSetState_carries
    (svcSetState_body_same unit place sought (settable_congr svc free) ((unitSt_congr svc ..).trans there))
  have held : (runCmd svcSetState c s).gen.held = [] := by rw [told.2.2 .generations (by decide), quiet]
  exact ⟨_, congrArg Host.Outcome.next (serve_quiet held), told⟩

/-- What refuses a leave rests on no register of the table command register. -/
theorem leaveRefusal_tcmdTaken {q : CmdSpec} {c : Cmd} {s : State} (canon : RegsCanonical s) (kind idx : Nat) (force : Bool) :
    leaveRefusal (tcmdTaken q c s) kind idx force = leaveRefusal s kind idx force := by
  have kept := registersBut_tcmdTaken q c canon
  have svc := tcmdTaken_svc q c s
  have gen := tcmdTaken_gen q c s
  have buf : (tcmdTaken q c s).buf = s.buf := changesOnly_tcmdTaken q c s .buffer (by decide)
  have least : minEngines (tcmdTaken q c s) (idx / 8) = minEngines s (idx / 8) := by
    unfold minEngines pgF
    rw [curPar_congr gen, pg_of_registersBut kept (by simp [R.engCfg, R.fdbTcmd, viewSize]; omega)]
  have reserve : sysReserve (tcmdTaken q c s) = sysReserve s := by
    unfold sysReserve cuF
    show fld 16 0 (rg _ (R.bpmSysReserve + viewSize)) = fld 16 0 (rg _ (R.bpmSysReserve + viewSize))
    rw [rg_of_registersBut kept (by decide)]
  have rule (i j : Nat) : bankHasRule (tcmdTaken q c s) i j = bankHasRule s i j := by simp [bankHasRule]
  unfold leaveRefusal
  split
  · rw [enginesIn_congr svc, least]
  · rw [rule]
  · rw [unitAway_congr svc]
  · rw [reserve, buf, basinCells_congr svc]
  · rfl

/-- A leave that waits: the unit is on its way, and what it leaves behind is dropped. -/
def leaving (kind idx st : Nat) (w : Waiter) (s : State) : State :=
  unitShifts s false kind idx
    (addTransition { kind := kind, index := idx, phase := 1, target := st, started := s.elapsed, waiter := some w } s)

theorem svcSetState_body_leave {a : Ask} {u : State} {kind idx st : Nat} (unit : kind = fld 3 0 (bodyWord a.cmd 0x08))
    (place : idx = fld 15 4 (bodyWord a.cmd 0x08)) (sought : st = fld 17 16 (bodyWord a.cmd 0x08)) (free : Settable u kind idx st)
    (active : unitSt u kind idx = 0) (away : st ≠ 0) (mayLeave : leaveRefusal u kind idx (bit 25 (bodyWord a.cmd 0x08)) = none)
    (room : u.svc.transitions.length < 4) (waits : bit 24 (bodyWord a.cmd 0x08) = false) :
    svcSetState.body a u = later (leaving kind idx st a.who u) := by
  subst unit place sought
  obtain ⟨named, single, lives, idle, spare⟩ := free
  simp [svcSetState, named, single, lives, idle, spare, active, away.symm, mayLeave, room, waits, startShift, leaving]

theorem setState_leave {c : Cmd} {s : State} {kind idx st : Nat} (ready : tcmdReady svcSetState c s) (quiet : s.gen.held = [])
    (unit : kind = fld 3 0 (bodyWord c 0x08)) (place : idx = fld 15 4 (bodyWord c 0x08)) (sought : st = fld 17 16 (bodyWord c 0x08))
    (free : Settable s kind idx st) (active : unitSt s kind idx = 0) (away : st ≠ 0)
    (mayLeave : leaveRefusal s kind idx (bit 25 (bodyWord c 0x08)) = none) (room : s.svc.transitions.length < 4)
    (waits : bit 24 (bodyWord c 0x08) = false) :
    ∃ t, exec (.setState c) s = .next t ∧ t.tab.tcmdBusy = true ∧
      (transitionOf t kind idx).map (fun x => (x.phase, x.target, x.waiter.isSome)) = some (1, st, true) ∧
      t.svc.states = s.svc.states := by
  have svc := tcmdTaken_svc svcSetState c s
  have body := svcSetState_body_leave (a := ⟨tcmdWaiter svcSetState c s, c, []⟩) unit place sought (settable_congr svc free)
    ((unitSt_congr svc ..).trans active) away ((leaveRefusal_tcmdTaken ready.1 ..).trans mayLeave) (by rwa [svc]) waits
  have run := runCmd_later ready rfl rfl (checks_taken ready (stageRunTarget rfl rfl)).1 rfl body
  have gone : (leaving kind idx st (tcmdWaiter svcSetState c s) (tcmdTaken svcSetState c s)).svc =
      (addTransition { kind := kind, index := idx, phase := 1, target := st, started := (tcmdTaken svcSetState c s).elapsed,
                       waiter := some (tcmdWaiter svcSetState c s) } (tcmdTaken svcSetState c s)).svc := by
    simp [leaving]
  refine ⟨_, congrArg Host.Outcome.next ((congrArg serve run).trans (serve_quiet ?_)), ?_, ?_, ?_⟩
  · simp [leaving, addTransition, quiet]
  · simp [leaving, tcmdBusy_unitShifts_leave, addTransition]
  · rw [transitionOf_congr gone, transitionOf_addTransition ((transitionOf_congr svc ..).trans free.idle)]
    rfl
  · rw [gone]
    show (tcmdTaken svcSetState c s).svc.states = _
    rw [svc]

theorem changesOnly_addTransition (t : Transition) (s : State) : changesOnly [.service] s (addTransition t s) :=
  changesOnly_of fun p => by cases p <;> simp [Part.same, addTransition]

theorem changesOnly_startCopying (kind idx spare : Nat) (auto : Bool) (w : Option Waiter) (s : State) :
    changesOnly [.service] s (startCopying kind idx spare auto w s) :=
  changesOnly_addTransition _ s

/-- A unit that a retirement may copy into spare `i`. -/
structure Retirable (s : State) (kind idx i : Nat) : Prop where
  works : kind = 6 ∧ bankWorks s idx = true ∨ kind = 7 ∧ (channelOf s idx).isSome = true
  inside : idx < kindUnits kind
  lives : unitSt s kind idx ≠ 3
  idle : transitionOf s kind idx = none
  spare : fillingSpare s kind idx = false
  room : s.svc.transitions.length < 4
  alone : copying s kind idx = false
  free : freeSpare s kind idx = some i

theorem retirable_congr {s u : State} (svc : u.svc = s.svc) {kind idx i : Nat} (may : Retirable s kind idx i) :
    Retirable u kind idx i := by
  obtain ⟨works, inside, lives, idle, spare, room, alone, free⟩ := may
  exact ⟨by rwa [bankWorks_congr svc, channelOf_congr svc], inside, by rwa [unitSt_congr svc], (transitionOf_congr svc ..).trans idle,
    (fillingSpare_congr svc ..).trans spare, by rwa [svc], (copying_congr svc ..).trans alone, (freeSpare_congr svc ..).trans free⟩

theorem svcRetire_body_nowait {a : Ask} {u : State} {kind idx i : Nat} (unit : kind = fld 3 0 (bodyWord a.cmd 0x08))
    (place : idx = fld 15 4 (bodyWord a.cmd 0x08)) (may : Retirable u kind idx i) (nowait : bit 24 (bodyWord a.cmd 0x08) = true) :
    svcRetire.body a u = okWith (toLE 4 i) (startCopying kind idx i false none u) := by
  obtain ⟨works, inside, lives, idle, spare, room, alone, free⟩ := may
  have named : ((kind == 6 || kind == 7) && decide (idx < kindUnits kind)) = true := by
    simp only [inside, decide_true, Bool.and_true, Bool.or_eq_true, beq_iff_eq]
    exact works.imp And.left And.left
  have here : (if kind = 6 then bankWorks u idx else (channelOf u idx).isSome) = true := by
    rcases works with ⟨bank, works⟩ | ⟨channel, works⟩
    · rw [if_pos bank, works]
    · rw [if_neg (by omega), works]
  simp only [svcRetire, ← unit, ← place, named, here]
  simp [lives, idle, spare, alone, free, nowait, Nat.not_le.mpr room]

theorem retire_nowait {c : Cmd} {s : State} {kind idx i : Nat} (ready : tcmdReady svcRetire c s)
    (unit : kind = fld 3 0 (bodyWord c 0x08)) (place : idx = fld 15 4 (bodyWord c 0x08)) (may : Retirable s kind idx i)
    (nowait : bit 24 (bodyWord c 0x08) = true) :
    ∃ t, exec (.retire c) s = .next t ∧ tcmdAnswered svcRetire c 0 (toLE 4 i) t ∧
      (transitionOf t kind idx).map (fun x => (x.phase, x.spare)) = some (2, some i) ∧ t.svc.states = s.svc.states ∧
      registersBut tcmdRegs s t ∧ changesOnly [.service, .registers] s t := by
  have svc := tcmdTaken_svc svcRetire c s
  have taken := retirable_congr svc may
  have body := svcRetire_body_nowait (a := ⟨tcmdWaiter svcRetire c s, c, []⟩) unit place taken nowait
  obtain ⟨answered, kept, only⟩ := runCmd_short_done (ps := [.service, .registers]) ready (stageRunTarget rfl rfl) rfl
    svcRetire_carries body (changesOnly_mono (changesOnly_startCopying _ _ _ _ _ _) (by simp)) (by simp) (.inr (.inl rfl))
  have done : (runCmd svcRetire c s).svc = (startCopying kind idx i false none (tcmdTaken svcRetire c s)).svc := kept .service (by decide)
  refine ⟨_, rfl, answered, ?_, ?_, ?_, only⟩
  · rw [transitionOf_congr done]
    unfold startCopying
    rw [transitionOf_addTransition taken.idle]
    rfl
  · rw [done]
    show (tcmdTaken svcRetire c s).svc.states = _
    rw [svc]
  · rw [runCmd_shortMode ready (stageRunTarget rfl rfl) rfl body]
    exact registersBut_answered _ _ ready.1 rfl

/-! ## Tests -/

/-- A test that runs, its waiter told when it ends. -/
def testBegun (x : Nat × Nat × Bool × Waiter) (s : State) : State := { s with svc := { s.svc with tests := s.svc.tests ++ [x] } }

theorem changesOnly_testBegun (x : Nat × Nat × Bool × Waiter) (s : State) : changesOnly [.service] s (testBegun x s) :=
  changesOnly_of fun p => by cases p <;> simp [Part.same, testBegun]

theorem svcTest_body {a : Ask} {u : State} {kind idx : Nat} (unit : kind = fld 3 0 (bodyWord a.cmd 0x08))
    (place : idx = fld 15 4 (bodyWord a.cmd 0x08)) (tests : testable kind idx = true)
    (may : bit 27 (bodyWord a.cmd 0x08) = false ∨ healthOpen u = true) (isolated : unitSt u kind idx = 2)
    (idle : transitionOf u kind idx = none) (alone : (u.svc.tests.any fun x => x.1 == kind && x.2.1 == idx) = false) :
    svcTest.body a u = later (testBegun (kind, idx, bit 27 (bodyWord a.cmd 0x08), a.who) u) := by
  subst unit place
  have open' : (bit 27 (bodyWord a.cmd 0x08) && !healthOpen u) = false := by
    rcases may with no | open' <;> simp [*]
  simp only [svcTest, open', tests, isolated, idle, alone]
  rfl

theorem healthOpen_tcmdTaken {q : CmdSpec} {c : Cmd} {s : State} (canon : RegsCanonical s) :
    healthOpen (tcmdTaken q c s) = healthOpen s := by
  unfold healthOpen
  rw [rg_of_registersBut (registersBut_tcmdTaken q c canon) (by decide)]

theorem test_begins {c : Cmd} {s : State} {kind idx : Nat} (ready : tcmdReady svcTest c s) (unit : kind = fld 3 0 (bodyWord c 0x08))
    (place : idx = fld 15 4 (bodyWord c 0x08)) (tests : testable kind idx = true)
    (may : bit 27 (bodyWord c 0x08) = false ∨ healthOpen s = true) (isolated : unitSt s kind idx = 2)
    (idle : transitionOf s kind idx = none) (alone : (s.svc.tests.any fun x => x.1 == kind && x.2.1 == idx) = false) :
    ∃ t w, exec (.test c) s = .next t ∧ t.tab.tcmdBusy = true ∧
      t.svc = { s.svc with tests := s.svc.tests ++ [(kind, idx, bit 27 (bodyWord c 0x08), w)] } ∧
      registersBut tcmdRegs s t ∧ changesOnly [.tables, .service, .registers] s t := by
  have svc := tcmdTaken_svc svcTest c s
  have kept := registersBut_tcmdTaken svcTest c ready.1
  have body := svcTest_body (a := ⟨tcmdWaiter svcTest c s, c, []⟩) unit place tests
    (by rwa [healthOpen_tcmdTaken ready.1]) ((unitSt_congr svc ..).trans isolated)
    ((transitionOf_congr svc ..).trans idle) (by rwa [svc])
  have run := runCmd_later ready rfl rfl (checks_taken ready (stageRunTarget rfl rfl)).1 rfl body
  refine ⟨_, tcmdWaiter svcTest c s, congrArg Host.Outcome.next run, ?_, ?_, ?_, ?_⟩
  · simp [testBegun]
  · simp only [testBegun, svc]
  · exact registersBut_trans (registersBut_mono kept (List.subset_append_left _ _)) (registersBut_of_regs rfl _)
  · exact changesOnly_trans (changesOnly_mono (changesOnly_tcmdTaken _ c s) (by simp))
      (changesOnly_mono (changesOnly_testBegun _ _) (by simp))

end Sys2Proof.Proofs
end

section
/-! PROOFS. The health map (R512, R513, R518). -/

namespace Sys2Proof.Proofs

open Sys2Proof Sys2Proof.Machine Sys2Proof.Safety Sys2Proof.Laws

/-! ## The health map (R512, R513) -/

/-- Bytes written do not touch a byte outside their run. -/
theorem memByte_memWrite_outside {j : Nat} : ∀ (bs : List Byte) (m : List (Nat × Byte)) (a : Nat), memWf m = true →
    j < a ∨ a + bs.length ≤ j → memByte (memWrite m a bs) j = memByte m j
  | [], _, _, _, _ => rfl
  | b :: bs, m, a, wf, outside => by
    simp only [List.length_cons] at outside
    have rest := memByte_memWrite_outside (j := j) bs (memSet m a b) (a + 1) (memSet_memWf m a b wf) (by omega)
    rw [memWrite, rest, memByte_memSet m a j b wf, if_neg (by omega)]

/-- The map's canonical form. -/
def mapWf (s : State) : Prop := memWf s.mram.health = true

theorem mapWf_healthPut (o : Nat) (bs : List Byte) {s : State} (wf : mapWf s) : mapWf (healthPut o bs s) :=
  memWrite_memWf bs _ o wf

theorem healthByte_healthPut_outside {o j : Nat} {bs : List Byte} {s : State} (wf : mapWf s) (outside : j < o ∨ o + bs.length ≤ j) :
    healthByte (healthPut o bs s) j = healthByte s j :=
  congrArg BitVec.toNat (memByte_memWrite_outside bs s.mram.health o wf outside)

theorem mapWf_healthSeal {s : State} (wf : mapWf s) : mapWf (healthSeal s) :=
  mapWf_healthPut _ _ (mapWf_healthPut _ _ wf)

/-- The check sums are no entries. -/
theorem healthByte_healthSeal {j : Nat} {s : State} (wf : mapWf s) (entry : healthEntry j = true) :
    healthByte (healthSeal s) j = healthByte s j := by
  simp only [healthEntry, Bool.and_eq_true, decide_eq_true_eq] at entry
  unfold healthSeal
  rw [healthByte_healthPut_outside (mapWf_healthPut _ _ wf) (by omega), healthByte_healthPut_outside wf (by rw [length_toLE]; omega)]

/-- An entry that is marked reads what was put there. -/
theorem healthByte_healthMark {o v : Nat} {s : State} (wf : mapWf s) (entry : healthEntry o = true) :
    healthByte (healthMark o v s) o = v % 256 := by
  have bounds := entry
  simp only [healthEntry, Bool.and_eq_true, decide_eq_true_eq] at bounds
  have put : healthByte (healthPut o (toLE 1 v) s) o = v % 256 := by
    simp [healthByte, healthPut, toLE, memWrite, memByte_memSet _ _ _ _ wf]
  unfold healthMark
  dsimp only
  rw [healthByte_healthSeal (mapWf_healthPut _ _ (mapWf_healthPut _ _ wf)) entry,
    healthByte_healthPut_outside (mapWf_healthPut _ _ wf) (by rw [length_toLE]; omega), put]

theorem mapWf_healthMark (o v : Nat) {s : State} (wf : mapWf s) : mapWf (healthMark o v s) := by
  unfold healthMark
  exact mapWf_healthSeal (mapWf_healthPut _ _ (mapWf_healthPut _ _ wf))

theorem changesOnly_healthPut (o : Nat) (bs : List Byte) (s : State) : changesOnly [.mram] s (healthPut o bs s) :=
  changesOnly_of fun p => by cases p <;> simp [Part.same, healthPut]

theorem changesOnly_healthSeal (s : State) : changesOnly [.mram] s (healthSeal s) :=
  changesOnly_trans (changesOnly_healthPut _ _ s) (changesOnly_healthPut _ _ _)

theorem changesOnly_healthMark (o v : Nat) (s : State) : changesOnly [.mram] s (healthMark o v s) := by
  unfold healthMark
  exact changesOnly_trans (changesOnly_healthPut _ _ s) (changesOnly_trans (changesOnly_healthPut _ _ _) (changesOnly_healthSeal _))

/-- Of MRAM the map alone differs. -/
def mapOnly (s t : State) : Prop := t.mram = { s.mram with health := t.mram.health }

theorem mapOnly_trans {s t u : State} (first : mapOnly s t) (later : mapOnly t u) : mapOnly s u := by
  unfold mapOnly at first later ⊢
  rw [later, first]

theorem mapOnly_healthPut (o : Nat) (bs : List Byte) (s : State) : mapOnly s (healthPut o bs s) := rfl

theorem mapOnly_healthSeal (s : State) : mapOnly s (healthSeal s) :=
  mapOnly_trans (mapOnly_healthPut _ _ s) (mapOnly_healthPut _ _ _)

theorem mapOnly_healthMark (o v : Nat) (s : State) : mapOnly s (healthMark o v s) :=
  mapOnly_trans (mapOnly_healthPut _ _ s) (mapOnly_trans (mapOnly_healthPut _ _ _) (mapOnly_healthSeal _))

theorem healthByte_healthEdit {o v : Nat} {s : State} (wf : mapWf s) (entry : healthEntry o = true) :
    healthByte (healthEdit o v s) o = (v ||| 4) % 256 := by
  have bounds := entry
  simp only [healthEntry, Bool.and_eq_true, decide_eq_true_eq] at bounds
  have marked := mapWf_healthMark o (v ||| 4) wf
  unfold healthEdit
  dsimp only
  rw [healthByte_healthSeal (mapWf_healthPut _ _ marked) entry, healthByte_healthPut_outside marked (by rw [length_toLE]; omega),
    healthByte_healthMark wf entry]

theorem changesOnly_healthEdit (o v : Nat) (s : State) : changesOnly [.mram] s (healthEdit o v s) := by
  unfold healthEdit
  exact changesOnly_trans (changesOnly_healthMark o (v ||| 4) s)
    (changesOnly_trans (changesOnly_healthPut _ _ _) (changesOnly_healthSeal _))

theorem mapOnly_healthEdit (o v : Nat) (s : State) : mapOnly s (healthEdit o v s) :=
  mapOnly_trans (mapOnly_healthMark o (v ||| 4) s) (mapOnly_trans (mapOnly_healthPut _ _ _) (mapOnly_healthSeal _))

theorem svcHealthWrite_body {a : Ask} {u : State} {o v : Nat} (place : o = fld 15 0 (bodyWord a.cmd 0x08))
    (value : v = fld 23 16 (bodyWord a.cmd 0x08)) (enabled : healthOpen u = true) (entry : healthEntry o = true) :
    svcHealthWrite.body a u = okWith [] (healthEdit o v u) := by
  subst place value
  simp only [svcHealthWrite, enabled, entry]
  rfl

theorem healthWrite_done {c : Cmd} {s : State} {o v : Nat} (ready : tcmdReady svcHealthWrite c s)
    (enabled : bit 1 (rg s R.prtEnable) = true) (place : o = fld 15 0 (bodyWord c 0x08)) (value : v = fld 23 16 (bodyWord c 0x08))
    (entry : healthEntry o = true) (wf : memWf s.mram.health = true) :
    ∃ t, exec (.healthWrite c) s = .next t ∧ tcmdAnswered svcHealthWrite c 0 [] t ∧ healthByte t o = (v ||| 4) ∧
      t.mram = { s.mram with health := t.mram.health } ∧ registersBut tcmdRegs s t ∧ changesOnly [.mram, .registers] s t := by
  have target : modeTarget svcHealthWrite c := ⟨inOpen_congr, by simp [svcHealthWrite]⟩
  have body := svcHealthWrite_body (a := ⟨tcmdWaiter svcHealthWrite c s, c, []⟩) (u := tcmdTaken svcHealthWrite c s) place value
    ((healthOpen_tcmdTaken ready.1).trans enabled) entry
  have mram : (tcmdTaken svcHealthWrite c s).mram = s.mram := changesOnly_tcmdTaken svcHealthWrite c s .mram (by decide)
  have edit := changesOnly_healthEdit o v (tcmdTaken svcHealthWrite c s)
  obtain ⟨answered, kept, only⟩ := runCmd_short_done (ps := [.mram, .registers]) ready target rfl svcHealthWrite_carries body
    (changesOnly_mono edit (by simp)) (by simp) (.inr (.inl rfl))
  have done : (runCmd svcHealthWrite c s).mram = (healthEdit o v (tcmdTaken svcHealthWrite c s)).mram := kept .mram (by decide)
  have byte : (v ||| 4) % 256 = v ||| 4 :=
    Nat.mod_eq_of_lt (Nat.or_lt_two_pow (n := 8) (by rw [value]; exact Nat.mod_lt _ (by decide)) (by decide))
  refine ⟨_, rfl, answered, ?_, ?_, ?_, only⟩
  · rw [← byte, ← healthByte_healthEdit (s := tcmdTaken svcHealthWrite c s) (show memWf _ = true by rw [mram]; exact wf) entry]
    unfold healthByte
    rw [done]
  · have edited := mapOnly_healthEdit o v (tcmdTaken svcHealthWrite c s)
    rw [mapOnly, mram] at edited
    rw [done, edited]
  · rw [runCmd_shortMode ready target rfl body]
    exact registersBut_answered _ _ ready.1 (edit .registers (by decide))

/-- The map takes the entry of a note. -/
theorem healthMapUpdate_done {n : HealthNote} {ns : List HealthNote} {o : Nat} {s : State} (first : s.svc.notes = n :: ns)
    (place : healthOff n.kind n.index = some o) (entry : healthEntry o = true) (alone : n.spare = none) (cause : n.cause < 16)
    (wf : memWf s.mram.health = true) :
    ∃ t, exec .healthMapUpdate s = .next t ∧ t.svc = { s.svc with notes := ns } ∧ healthByte t o = 3 + n.cause * 16 ∧
      changesOnly [.mram, .service] s t := by
  have run : exec .healthMapUpdate s = .next (healthMark o (3 + n.cause * 16) { s with svc := { s.svc with notes := ns } }) := by
    show Host.Outcome.next _ = _
    rw [first]
    simp only [place, alone]
    rfl
  have only := changesOnly_healthMark o (3 + n.cause * 16) { s with svc := { s.svc with notes := ns } }
  refine ⟨_, run, only .service (by decide), ?_, ?_⟩
  · rw [healthByte_healthMark (s := { s with svc := { s.svc with notes := ns } }) wf entry, Nat.mod_eq_of_lt (by omega)]
  · exact changesOnly_trans (changesOnly_of fun p => by cases p <;> simp [Part.same]) (changesOnly_mono only (by simp))

end Sys2Proof.Proofs
end

section
/-! PROOFS. The ends of leaves, copies and tests, and service states as a whole (R501 to R513). -/

namespace Sys2Proof.Proofs

open Sys2Proof Sys2Proof.Machine Sys2Proof.Safety Sys2Proof.Laws

/-! ## A unit enters a state -/

theorem svc_setUnit (kind idx new : Nat) (s : State) :
    (setUnit kind idx new s).svc = { s.svc with states := kvSet 0 (unitKey kind idx) new s.svc.states } := by
  simp [setUnit]

theorem changesOnly_setUnit (kind idx new : Nat) (s : State) : changesOnly [.host, .service, .registers] s (setUnit kind idx new s) :=
  changesOnly_trans (changesOnly_of (t := { s with svc := { s.svc with states := kvSet 0 (unitKey kind idx) new s.svc.states } })
    fun p => by cases p <;> simp [Part.same])
    (changesOnly_trans (changesOnly_mono (changesOnly_emit _ _ _ _ _) (by simp)) (changesOnly_mono (changesOnly_stickRg _ _ _) (by simp)))

theorem unitSt_setUnit {kind idx new : Nat} {s : State} (sorted : keyed s.svc.states) (j : Nat) :
    unitSt (setUnit kind idx new s) kind j = if j = idx then new else unitSt s kind j := by
  simp only [unitSt, svc_setUnit, kvGetD_kvSet sorted, unitKey, Nat.add_left_cancel_iff]

theorem keyed_states_setUnit {kind idx new : Nat} {s : State} (sorted : keyed s.svc.states) :
    keyed (setUnit kind idx new s).svc.states := by
  rw [svc_setUnit]
  exact keyed_kvSet sorted 0 new _

theorem transitionOf_setUnit (kind idx new : Nat) (s : State) (k j : Nat) :
    transitionOf (setUnit kind idx new s) k j = transitionOf s k j := by
  simp only [transitionOf, svc_setUnit]

theorem regsCanonical_setUnit {kind idx new : Nat} {s : State} (canon : RegsCanonical s) : RegsCanonical (setUnit kind idx new s) :=
  setUnit_canonical kind idx new s canon

theorem bit_setUnit {kind idx new : Nat} {s : State} (canon : RegsCanonical s) : bit 0 (rg (setUnit kind idx new s) R.svcEvt) = true := by
  unfold setUnit emitService
  exact bit_stickRg (regsCanonical_emit _ _ _ _ ((regsCanonical_congr rfl).mpr canon)) (by decide)

/-- The only registers that a short engine budget may touch are the clusters' event registers. -/
theorem registersBut_budgetShort {kind idx : Nat} {s : State} (canon : RegsCanonical s) :
    registersBut [R.engEvt (idx / 8), R.engEvt (idx - 80)] s (budgetShort kind idx s) := by
  have note (c : Nat) : registersBut [R.engEvt c] s (budgetNote c s) := by
    unfold budgetNote whenDo
    split
    · exact registersBut_stickRg _ _ canon
    · exact registersBut_of_regs rfl _
  unfold budgetShort
  split
  · exact registersBut_mono (note _) (by simp)
  · split
    · exact registersBut_mono (note _) (by simp)
    · exact registersBut_of_regs rfl _

theorem changesOnly_budgetShort (kind idx : Nat) (s : State) : changesOnly [.registers] s (budgetShort kind idx s) :=
  changesOnly_of fun p => by cases p <;> simp [Part.same]

theorem changesOnly_endTransition (kind idx : Nat) (s : State) : changesOnly [.service] s (endTransition kind idx s) :=
  changesOnly_of fun p => by cases p <;> simp [Part.same, endTransition]

/-- A unit whose transition has ended is in none. -/
theorem transitionOf_endTransition (kind idx : Nat) (s : State) : transitionOf (endTransition kind idx s) kind idx = none := by
  simp only [transitionOf, endTransition, List.find?_eq_none, List.mem_filter]
  rintro x ⟨-, other⟩ same
  simp [same] at other

theorem unit_of_transitionOf {kind idx : Nat} {x : Transition} {s : State} (there : transitionOf s kind idx = some x) :
    x.kind = kind ∧ x.index = idx := by
  simpa using List.find?_some there

/-! ## A leave is complete (R502, R505) -/

/-- A unit that has left: its transition is over, and it is in the state sought. -/
def left (kind idx st : Nat) (s : State) : State := budgetShort kind idx (setUnit kind idx st (endTransition kind idx s))

theorem finishLeave_unwaited {kind idx : Nat} {x : Transition} {s : State} (there : transitionOf s kind idx = some x)
    (alone : x.waiter = none) (stays : x.target ≠ 3) (single : kind ≠ 9) : finishLeave x s = left kind idx x.target s := by
  obtain ⟨rfl, rfl⟩ := unit_of_transitionOf there
  simp [finishLeave, stays, single, answerTransition, alone, left]

theorem leave_done {kind idx : Nat} {x : Transition} {s : State} (there : transitionOf s kind idx = some x) (alone : x.waiter = none)
    (quiet : s.gen.held = []) (sorted : keyed s.svc.states) (canon : RegsCanonical s) (leaves : x.phase = 1) (stays : x.target ≠ 3)
    (single : kind ≠ 9) (complete : leaveComplete s kind idx = true) :
    ∃ t, exec (.leaveComplete kind idx) s = .next t ∧ unitSt t kind idx = x.target ∧ transitionOf t kind idx = none ∧
      bit 0 (rg t R.svcEvt) = true ∧ changesOnly [.host, .service, .registers] s t := by
  have only : changesOnly [.host, .service, .registers] s (left kind idx x.target s) :=
    changesOnly_trans (changesOnly_mono (changesOnly_endTransition kind idx s) (by simp))
      (changesOnly_trans (changesOnly_setUnit _ _ _ _) (changesOnly_mono (changesOnly_budgetShort _ _ _) (by simp)))
  have held : (left kind idx x.target s).gen.held = [] := by rw [only .generations (by decide), quiet]
  have run : exec (.leaveComplete kind idx) s = .next (left kind idx x.target s) := by
    show Host.Outcome.next _ = _
    rw [there]
    simp only [leaves, complete, finishLeave_unwaited there alone stays single, whenDo, serve_quiet held]
    rfl
  have canonEnded : RegsCanonical (endTransition kind idx s) := (regsCanonical_congr rfl).mpr canon
  have svc : (left kind idx x.target s).svc = (setUnit kind idx x.target (endTransition kind idx s)).svc :=
    changesOnly_budgetShort kind idx _ .service (by decide)
  refine ⟨_, run, ?_, ?_, ?_, only⟩
  · rw [unitSt_congr svc, unitSt_setUnit (s := endTransition kind idx s) sorted, if_pos rfl]
  · rw [transitionOf_congr svc, transitionOf_setUnit, transitionOf_endTransition]
  · unfold left
    rw [rg_of_registersBut (registersBut_budgetShort (regsCanonical_setUnit canonEnded)) (by simp [R.svcEvt, R.engEvt]; omega)]
    exact bit_setUnit canonEnded

/-! ## A retirement is copied (R508 to R511) -/

/-- The spare bank of a group takes a bank's place. -/
def spareTaken (idx : Nat) (s : State) : State :=
  { s with svc := { s.svc with spares := kvPut (idx / 65) (idx % 65) s.svc.spares } }

/-- The two banks of a copy that is done: the one has failed, the spare is active. -/
def exchanged (idx i : Nat) (s : State) : State :=
  setUnit 6 i 0 (setUnit 6 idx 3 (spareTaken idx (endTransition 6 idx s)))

/-- A retirement whose copy is done. -/
def retired (idx i : Nat) (auto : Bool) (s : State) : State :=
  noteHealth 6 idx auto (some i) (stickRg R.svcEvt 1 (exchanged idx i s))

theorem finishCopying_bank {idx i : Nat} {x : Transition} {s : State} (there : transitionOf s 6 idx = some x)
    (alone : x.waiter = none) (spare : x.spare = some i) : finishCopying x s = retired idx i x.auto s := by
  obtain ⟨bank, rfl⟩ := unit_of_transitionOf there
  simp [finishCopying, spare, bank, answerTransition, alone, retired, exchanged, spareTaken]

theorem changesOnly_spareTaken (idx : Nat) (s : State) : changesOnly [.service] s (spareTaken idx s) :=
  changesOnly_of fun p => by cases p <;> simp [Part.same, spareTaken]

theorem changesOnly_noteHealth (kind idx : Nat) (auto : Bool) (spare : Option Nat) (s : State) :
    changesOnly [.service] s (noteHealth kind idx auto spare s) :=
  changesOnly_of fun p => by cases p <;> simp [Part.same, noteHealth]

theorem changesOnly_exchanged (idx i : Nat) (s : State) : changesOnly [.host, .service, .registers] s (exchanged idx i s) :=
  changesOnly_trans (changesOnly_mono (changesOnly_endTransition 6 idx s) (by simp))
    (changesOnly_trans (changesOnly_mono (changesOnly_spareTaken idx _) (by simp))
      (changesOnly_trans (changesOnly_setUnit _ _ _ _) (changesOnly_setUnit _ _ _ _)))

theorem changesOnly_retired (idx i : Nat) (auto : Bool) (s : State) :
    changesOnly [.host, .service, .registers] s (retired idx i auto s) :=
  changesOnly_trans (changesOnly_exchanged idx i s)
    (changesOnly_trans (changesOnly_mono (changesOnly_stickRg _ _ _) (by simp))
      (changesOnly_mono (changesOnly_noteHealth _ _ _ _ _) (by simp)))

theorem svc_retired (idx i : Nat) (auto : Bool) (s : State) :
    (retired idx i auto s).svc =
      { (exchanged idx i s).svc with notes := s.svc.notes ++ [⟨6, idx, if auto then 10 else 11, some i⟩] } := by
  simp [retired, noteHealth, exchanged, svc_setUnit, spareTaken, endTransition]

theorem unitSt_exchanged {idx i : Nat} {s : State} (sorted : keyed s.svc.states) (j : Nat) :
    unitSt (exchanged idx i s) 6 j = if j = i then 0 else if j = idx then 3 else unitSt s 6 j := by
  unfold exchanged
  rw [unitSt_setUnit (keyed_states_setUnit (s := spareTaken idx (endTransition 6 idx s)) sorted),
    unitSt_setUnit (s := spareTaken idx (endTransition 6 idx s)) sorted]
  rfl

theorem retire_done {idx i : Nat} {x : Transition} {s : State} (there : transitionOf s 6 idx = some x) (alone : x.waiter = none)
    (quiet : s.gen.held = []) (sorted : keyed s.svc.states) (copies : x.phase = 2) (spare : x.spare = some i) (apart : i ≠ idx) :
    ∃ t, exec (.retireCopyComplete 6 idx) s = .next t ∧ unitSt t 6 idx = 3 ∧ unitSt t 6 i = 0 ∧
      kvGet (idx / 65) t.svc.spares = some (idx % 65) ∧ transitionOf t 6 idx = none ∧
      t.svc.notes = s.svc.notes ++ [⟨6, idx, if x.auto then 10 else 11, some i⟩] ∧
      changesOnly [.host, .service, .registers] s t := by
  have only := changesOnly_retired idx i x.auto s
  have svc := svc_retired idx i x.auto s
  have held : (retired idx i x.auto s).gen.held = [] := by rw [only .generations (by decide), quiet]
  have run : exec (.retireCopyComplete 6 idx) s = .next (retired idx i x.auto s) := by
    show Host.Outcome.next _ = _
    rw [there]
    simp only [copies, finishCopying_bank there alone spare, whenDo, serve_quiet held]
    rfl
  have states (j : Nat) : unitSt (retired idx i x.auto s) 6 j = unitSt (exchanged idx i s) 6 j := by rw [unitSt, unitSt, svc]
  have transitions : transitionOf (retired idx i x.auto s) 6 idx = transitionOf (exchanged idx i s) 6 idx := by
    rw [transitionOf, transitionOf, svc]
  refine ⟨_, run, ?_, ?_, ?_, ?_, by rw [svc], only⟩
  · rw [states, unitSt_exchanged sorted, if_neg apart.symm, if_pos rfl]
  · rw [states, unitSt_exchanged sorted, if_pos rfl]
  · simp only [svc, exchanged, svc_setUnit, spareTaken]
    exact kvGet_kvPut _ _ _
  · rw [transitions, exchanged, transitionOf_setUnit, transitionOf_setUnit]
    exact transitionOf_endTransition 6 idx s

/-! ## Retirement on its own (R511) -/

theorem autoRetire_done {idx errors i : Nat} {s : State} (mode : s.md.mode = .stage ∨ s.md.mode = .run)
    (enabled : bit 0 (rg s R.svcCfg) = true) (many : fld 23 8 (rg s R.svcCfg) ≤ errors) (inside : idx < 128)
    (serves : (channelOf s idx).isSome = true) (active : unitSt s 7 idx = 0) (idle : transitionOf s 7 idx = none)
    (free : freeSpare s 7 idx = some i) (room : s.svc.transitions.length < 4) (alone : copying s 7 idx = false)
    (canon : RegsCanonical s) :
    ∃ t, exec (.autoRetire idx errors) s = .next t ∧
      (transitionOf t 7 idx).map (fun x => (x.phase, x.spare, x.auto)) = some (2, some i, true) ∧
      bit 2 (rg t R.svcEvt) = true ∧ t.svc.states = s.svc.states ∧ changesOnly [.host, .service, .registers] s t := by
  have started := changesOnly_startCopying 7 idx i true none s
  have told : changesOnly [.host, .registers] (startCopying 7 idx i true none s)
      (stickRg R.svcEvt 2 (alarm 0x0500 (88 + idx / 32) idx (startCopying 7 idx i true none s))) :=
    changesOnly_trans (changesOnly_emit _ _ _ _ _) (changesOnly_mono (changesOnly_stickRg _ _ _) (by simp))
  have running : (decide (s.md.mode = .stage) || decide (s.md.mode = .run)) = true := by simpa using mode
  have run : exec (.autoRetire idx errors) s =
      .next (stickRg R.svcEvt 2 (alarm 0x0500 (88 + idx / 32) idx (startCopying 7 idx i true none s))) := by
    show Host.Outcome.next (whenDo _ (autoRetire idx errors) s) = _
    rw [running]
    simp [whenDo, autoRetire, enabled, many, inside, serves, active, idle, free, alone, Nat.not_le.mpr room]
  have svc : (stickRg R.svcEvt 2 (alarm 0x0500 (88 + idx / 32) idx (startCopying 7 idx i true none s))).svc =
      (startCopying 7 idx i true none s).svc := told .service (by decide)
  refine ⟨_, run, ?_, ?_, by rw [svc]; rfl, ?_⟩
  · rw [transitionOf_congr svc]
    unfold startCopying
    rw [transitionOf_addTransition idle]
    rfl
  · have same : (startCopying 7 idx i true none s).regs = s.regs := started .registers (by decide)
    exact bit_stickRg (regsCanonical_emit _ _ _ _ ((regsCanonical_congr same).mpr canon)) (by decide)
  · exact changesOnly_trans (changesOnly_mono started (by simp)) (changesOnly_mono told (by simp))

/-! ## The end of a test (R507) -/

/-- What a test's traffic counts is counters and their overflow bits. -/
def countsOnly (s t : State) : Prop :=
  changesOnly [.counters, .registers] s t ∧
    (RegsCanonical s → RegsCanonical t ∧ ∀ k, (∀ u, k ≠ R.pmuOvf u) → regWord t.regs k = regWord s.regs k)

theorem countsOnly_refl (s : State) : countsOnly s s := ⟨changesOnly_refl _ _, fun canon => ⟨canon, fun _ _ => rfl⟩⟩

theorem countsOnly_trans {s t u : State} (first : countsOnly s t) (later : countsOnly t u) : countsOnly s u := by
  refine ⟨changesOnly_trans first.1 later.1, fun canon => ?_⟩
  obtain ⟨canonT, wordsT⟩ := first.2 canon
  obtain ⟨canonU, wordsU⟩ := later.2 canonT
  exact ⟨canonU, fun k apart => (wordsU k apart).trans (wordsT k apart)⟩

theorem countsOnly_pmuEv (u code : Nat) (sel : Option (Nat × Bool)) (sub : Option Nat) (n : Nat) (s : State) :
    countsOnly s (pmuEv u code sel sub n s) := by
  refine ⟨changesOnly_mono (changesOnly_pmuEv _ _ _ _ _ _) (by simp), fun canon => ?_⟩
  obtain ⟨kept, words⟩ := registers_pmuEv u code sel sub n s canon
  exact ⟨kept, fun k apart => words k (by simpa using apart u)⟩

theorem countsOnly_tried (s : State) : countsOnly s (tried s) :=
  ⟨changesOnly_of fun p => by cases p <;> simp [Part.same, tried], fun canon => ⟨canon, fun _ _ => rfl⟩⟩

theorem countsOnly_basinWords (n : Nat) (s : State) : countsOnly s (basinWords n s) := by
  unfold basinWords
  split
  · exact countsOnly_refl s
  · exact countsOnly_trans (countsOnly_pmuEv _ _ _ _ _ _) (countsOnly_trans (countsOnly_pmuEv _ _ _ _ _ _) (countsOnly_tried _))

theorem countsOnly_hbmBurst (pc cls : Nat) (write : Bool) (n : Nat) (s : State) : countsOnly s (hbmBurst pc cls write n s) :=
  countsOnly_trans (countsOnly_pmuEv _ _ _ _ _ _) (countsOnly_pmuEv _ _ _ _ _ _)

theorem countsOnly_testTraffic (kind idx : Nat) (s : State) : countsOnly s (testTraffic kind idx s) := by
  unfold testTraffic
  split
  · exact countsOnly_refl s
  · dsimp only
    refine countsOnly_trans ?_ (countsOnly_tried _)
    split
    · exact countsOnly_pmuEv _ _ _ _ _ _
    · exact countsOnly_basinWords _ _
    · exact countsOnly_basinWords _ _
    · exact countsOnly_trans (countsOnly_hbmBurst _ _ _ _ _) (countsOnly_hbmBurst _ _ _ _ _)
    · exact countsOnly_refl s

/-- An answer in the table command register: its words, and what it leaves. -/
theorem registers_tcmdAnswer (bs : List Byte) {s : State} (canon : RegsCanonical s) :
    registersBut ((List.range 8).map R.fdbTcmdRes) s (tcmdAnswer bs s) ∧
      ∀ i < 8, rg (tcmdAnswer bs s) (R.fdbTcmdRes i) = ofLE ((bs.drop (4 * i)).take 4) := by
  refine ⟨registersBut_trans (registersBut_storeEach _ _ _ canon) (registersBut_of_regs (regs_tcmdAnswer _ _) _), fun i below => ?_⟩
  have apart : ∀ i j, R.fdbTcmdRes i = R.fdbTcmdRes j → i = j := fun i j same => by simp only [R.fdbTcmdRes] at same; omega
  rw [rg_congr (regs_tcmdAnswer _ _), answerStored, rg_storeEach apart _ _ canon i (List.mem_range.mpr below)]
  refine Nat.mod_eq_of_lt (Nat.lt_of_lt_of_le (ofLE_lt _) (Nat.pow_le_pow_right (by decide) ?_))
  simp only [List.length_take]
  omega

theorem changesOnly_tcmdAnswer (bs : List Byte) (s : State) : changesOnly [.tables, .registers] s (tcmdAnswer bs s) :=
  changesOnly_of fun p => by cases p <;> simp [Part.same, tcmdAnswer]

/-- The bytes of a number, read back. -/
theorem ofLE_toLE : ∀ k n : Nat, ofLE (toLE k n) = n % 256 ^ k
  | 0, n => by simp [toLE, ofLE, Nat.mod_one]
  | k + 1, n => by
    rw [toLE, ofLE, ofLE_toLE k, BitVec.toNat_ofNat, Nat.pow_succ' (m := 256), Nat.mod_mul (a := 256)]

/-- The word of an answer that shows the first four bytes of a result. -/
theorem resultWord (opcode target tag status n : Nat) (rest : List Byte) :
    ofLE (((cmdBytes opcode target tag status (toLE 4 n ++ rest)).drop (4 * 2)).take 4) = n % 2 ^ 32 := by
  have bytes : ((cmdBytes opcode target tag status (toLE 4 n ++ rest)).drop (4 * 2)).take 4 = toLE 4 n := by
    simp [cmdBytes, toLE]
  rw [bytes, ofLE_toLE]
  norm_num

/-- The state once a test's traffic is counted and the test is over. -/
def testOver (kind idx : Nat) (s : State) : State :=
  let s0 := testTraffic kind idx s
  { s0 with svc := { s0.svc with tests := s.svc.tests.filter fun x => !(x.1 == kind && x.2.1 == idx) } }

theorem changesOnly_testOver (kind idx : Nat) (s : State) :
    changesOnly [.service, .counters, .registers] s (testOver kind idx s) :=
  changesOnly_trans (changesOnly_mono (countsOnly_testTraffic kind idx s).1 (by simp))
    (changesOnly_of fun p => by cases p <;> simp [Part.same, testOver])

/-- What a test answers: its outcome and the cause of a failure. -/
def testResult (pass : Bool) (cause detail : Nat) : List Byte :=
  toLE 4 (b2n pass + (if pass then 0 else cause % 16) * 16) ++ toLE 8 (if pass then 0 else detail)

/-- A test that leaves no mark in the health map. -/
theorem finishTest_unmarked {kind idx cause detail : Nat} {pass mark : Bool} {w : Waiter} {s : State}
    (there : s.svc.tests.find? (fun x => x.1 == kind && x.2.1 == idx) = some (kind, idx, mark, w)) (via : w.via = .tcmd)
    (unmarked : pass = true ∨ mark = false) :
    finishTest kind idx pass cause detail s =
      tcmdAnswer (cmdBytes w.opcode w.target w.tag 0 (testResult pass cause detail)) (testOver kind idx s) := by
  have unmarked : (!pass && mark) = false := by rcases unmarked with passed | no <;> simp [*]
  unfold finishTest
  rw [there]
  dsimp only
  rw [unmarked]
  cases healthOff kind idx <;> simp [whenDo, answerCmd, via, testResult, testOver]

theorem test_done {kind idx cause detail : Nat} {pass mark : Bool} {w : Waiter} {s : State}
    (there : s.svc.tests.find? (fun x => x.1 == kind && x.2.1 == idx) = some (kind, idx, mark, w)) (via : w.via = .tcmd)
    (quiet : s.gen.held = []) (canon : RegsCanonical s) (unmarked : pass = true ∨ mark = false) :
    ∃ t, exec (.testComplete kind idx pass cause detail) s = .next t ∧ t.tab.tcmdBusy = false ∧
      rg t (R.fdbTcmdRes 2) = b2n pass + (if pass then 0 else cause % 16) * 16 ∧
      (t.svc.tests.any fun x => x.1 == kind && x.2.1 == idx) = false ∧ t.svc.states = s.svc.states ∧ t.mram = s.mram ∧
      (∀ k, k ∉ (List.range 8).map R.fdbTcmdRes → (∀ u, k ≠ R.pmuOvf u) → regWord t.regs k = regWord s.regs k) ∧
      changesOnly [.tables, .service, .counters, .registers] s t := by
  have finished := finishTest_unmarked (cause := cause) (detail := detail) there via unmarked
  obtain ⟨canonOver, words⟩ := (countsOnly_testTraffic kind idx s).2 canon
  have canonOver : RegsCanonical (testOver kind idx s) := (regsCanonical_congr rfl).mpr canonOver
  have answer := changesOnly_tcmdAnswer (cmdBytes w.opcode w.target w.tag 0 (testResult pass cause detail)) (testOver kind idx s)
  obtain ⟨kept, shown⟩ :=
    registers_tcmdAnswer (cmdBytes w.opcode w.target w.tag 0 (testResult pass cause detail)) canonOver
  rw [← finished] at answer kept shown
  have only : changesOnly [.tables, .service, .counters, .registers] s (finishTest kind idx pass cause detail s) :=
    changesOnly_trans (changesOnly_mono (changesOnly_testOver kind idx s) (by simp)) (changesOnly_mono answer (by simp))
  have held : (finishTest kind idx pass cause detail s).gen.held = [] := by rw [only .generations (by decide), quiet]
  have svc : (finishTest kind idx pass cause detail s).svc = (testOver kind idx s).svc := answer .service (by decide)
  refine ⟨_, congrArg Host.Outcome.next (serve_quiet held), ?_, ?_, ?_, ?_, only .mram (by decide), ?_, only⟩
  · rw [finished, tcmdAnswer_tab]
  · rw [shown 2 (by decide), testResult, resultWord]
    refine Nat.mod_eq_of_lt ?_
    cases pass <;> simp [b2n]
    omega
  · rw [svc]
    simp only [testOver, List.any_eq_false, List.mem_filter]
    rintro x ⟨-, other⟩ same
    simp [same] at other
  · rw [svc]
    simp [testOver]
  · exact fun k answerWord apart => (kept k answerWord).trans (words k apart)

/-- Settles O54: what each command leaves, and what each completion finds and makes. -/
theorem serviceStates : Obligations.ServiceStates := by
  refine ⟨fun c s => ⟨?_, ?_, ?_, ?_, ?_⟩, ?_, ?_, ?_, ?_⟩
  · intro kind idx st ready quiet unit place sought named single lives idle spare
    have free : Settable s kind idx st := ⟨named, single, lives, idle, spare⟩
    exact ⟨setState_same ready quiet unit place sought free, setState_leave ready quiet unit place sought free⟩
  · intro kind idx i ready unit place works inside lives idle spare room alone free nowait
    exact retire_nowait ready unit place ⟨works, inside, lives, idle, spare, room, alone, free⟩ nowait
  · exact fun kind idx => test_begins
  · exact fun o v => healthWrite_done
  · exact fun kind idx => readState_done
  · intro kind idx x s there alone quiet sorted canon
    refine ⟨leave_done there alone quiet sorted canon, fun i copies spare bank apart => ?_⟩
    subst bank
    exact retire_done there alone quiet sorted copies spare apart
  · exact fun kind idx cause detail pass mark w s there via quiet canon unmarked => test_done there via quiet canon unmarked
  · intro idx errors i s mode enabled many inside serves active idle free room alone canon
    exact autoRetire_done mode enabled many inside serves active idle free room alone canon
  · exact fun n ns o s => healthMapUpdate_done

end Sys2Proof.Proofs
end

section
/-! PROOFS. Faults of an engine (R384): the completion of a frame that names a ring beyond the last one counts in a fault counter. -/

namespace Sys2Proof.Proofs

open Sys2Proof Sys2Proof.Machine Sys2Proof.Safety Sys2Proof.Laws

/-! ## A fault of a frame that names a transmit ring beyond the 64 -/

/-- An insertion of 16 bytes at the front of the window. -/
def insertWord : Nat := 3 * 2 ^ 25 + 15 * 2 ^ 21

/-- A frame from ring 0x47C0, whose count of write-backs would lie at the counter of cause 2 of cluster 0. -/
def ringFrame : Frame := { bytes := List.replicate 400 0, chain := [9, 10, 11, 12], txRing := some (0x47C0, [0], 0) }

/-- Its context, with a window that the insertion makes longer than 320 bytes. -/
def longContext : Context := { frame := 1, num := 0, pc := 0, regs := List.replicate 16 0, window := List.replicate 310 0, loaded := 310 }

/-- Engine 0 with both, and a descriptor of the ring outstanding. -/
def ringState : State :=
  let s := setRing .tx 0x47C0 { work := [{ slot := 0, bytes := none }] } (setFrame 1 ringFrame State.reset)
  { s with eng := { s.eng with engines := [(0, { contexts := [longContext] })], bundles := [(0, [0, 0, insertWord, 0])] } }

/-- The counter of cause 2 of cluster 0 after a step. -/
def faultsCounted : Host.Outcome State Fault Refusal → Nat
  | .next t => rg t (R.engFaultCnt 0 2)
  | _ => 0

/-- The fault counts once, the write-back of the frame's descriptor a second time. -/
theorem bundleIssue_counts : faultsCounted (exec (.bundleIssue 0 0 []) ringState) = 2 := by decide +kernel

theorem ringState_uncounted : rg ringState (R.engFaultCnt 0 2) = 0 := by decide +kernel

/-- What the statement asks of an insertion that makes the window longer than 320 bytes. -/
theorem ringState_inserts :
    (engineAt ringState 0).contexts.find? (fun z =>
      contextReady (bundleAt ringState 0 (frame ringState z.frame).par z.pc) ((engineAt ringState 0).cycle + 1) z) = some longContext ∧
    bundleAt ringState 0 (frame ringState longContext.frame).par longContext.pc = [0, 0, insertWord, 0] ∧
    ringState.eng.bad.contains (0, 0, bundleKey 0 (frame ringState longContext.frame).par longContext.pc) = false ∧
    guardHolds insertWord longContext.preds = true ∧ kvGet longContext.frame ringState.buf.frames = some ringFrame ∧
    regsWf ringState.regs = true := by decide +kernel

theorem insertWord_tooLong : fld 27 25 insertWord = 3 ∧
    fld 20 12 insertWord + (if bit 11 insertWord then nth 0 longContext.regs (fld 10 7 insertWord) % 512 else 0) ≤
      longContext.window.length ∧
    320 < longContext.window.length + (fld 24 21 insertWord + 1) := by decide +kernel

/-- Refutes O46: where a fault discards a frame that names transmit ring 0x47C0, the count of that ring's write-backs lies at the fault
counter of cause 2 of cluster 0, which the completion of the frame then counts up a second time. -/
theorem not_engineSteps : ¬ Obligations.EngineSteps := by
  rintro ⟨-, issues, -⟩
  obtain ⟨ready, bundle, good, guard, present, canon⟩ := ringState_inserts
  obtain ⟨insert, inside, long⟩ := insertWord_tooLong
  obtain ⟨-, -, header, -⟩ := issues 0 0 _ ringState rfl
  obtain ⟨-, -, fault⟩ := header longContext insertWord _ _ _ [] ready bundle good guard rfl rfl rfl
  obtain ⟨t, run, -, -, -, counted, -⟩ :=
    fault 2 ringFrame (.inr (.inr (.inr ⟨insert, inside, long, rfl⟩))) present rfl canon (by decide)
  have twice := bundleIssue_counts
  rw [run, faultsCounted, counted, ringState_uncounted] at twice
  cases twice

end Sys2Proof.Proofs
end
